-- ==== Sys2Proof/Word.lean ====
section
/-! DEFINITION. The word types of the GF16 (R5: every register is 32 bits wide). -/

namespace Sys2Proof

/-- One byte of a frame, a buffer or a memory. -/
abbrev Byte := BitVec 8

/-- A 16-bit field. -/
abbrev Half := BitVec 16

/-- A register (R5). -/
abbrev Word := BitVec 32

/-- A raw-counter value or an operation word (R277, R160). -/
abbrev Long := BitVec 64

end Sys2Proof
end

