-- ==== Sys2Proof/Syntax.lean ====
section
/-! DEFINITION. The commands of the block: one constructor of `Instr` for each row of spec/opcode_table.json.
The operands of a row are its stimulus: what the pins, the sensors, the networks or the issuing master bring. -/

namespace Sys2Proof

/-- The two lane dies (R10). -/
inductive Lane where
  | a | b
  deriving DecidableEq, Repr

/-- The host ports (R350, R351): HSP carries master ID 6, the network ID 7 (R19). -/
inductive HostPort where
  | hsp | net
  deriving DecidableEq, Repr

/-- The two 50 MHz TCXOs (R50). -/
inductive Tcxo where
  | primary | spare
  deriving DecidableEq, Repr

/-- The five PLLs (R53). -/
inductive Pll where
  | sysA | sysB | net | iso | spare
  deriving DecidableEq, Repr

/-- A master ID on the hinge mesh (R18). -/
abbrev Master := BitVec 4

/-- The path of a short-circuit trip (R238). -/
inductive TripPath where
  | comparator | estimate | hard
  deriving DecidableEq, Repr

/-- How the flash answers a running key command: the 64 KB blocks of its page that fail to erase or program, or, in a VERIFY,
that need more than 4 corrected bits (R362), and whether the command works in the end, after remapping (R101). -/
structure FlashResult where
  worn : List (Fin 256) := []
  ok : Bool := true
  deriving DecidableEq, Repr

/-- A mirrored write on its way into a lane, and the transfers of it with a CRC error (R257). -/
structure MirrorRx where
  lane : Lane
  crcErrs : Nat := 0
  deriving DecidableEq, Repr

/-- The self-check of a lane and the FMA units that fail its test pass (R262). -/
structure SelfCheck where
  lane : Lane
  failed : List (Fin 18) := []
  deriving DecidableEq, Repr

/-- Where a residue mismatch or a failed test showed (R166). -/
inductive FmaWhere where
  | committed (ctx : Fin 8)
  | speculative (ctx : Fin 8)
  | testPass
  deriving DecidableEq, Repr

/-- What shows a branch: triad j, or a window exit (RA_LASTCOM.SOURCE). -/
inductive BranchSource where
  | triad (j : Fin 4)
  | window
  deriving DecidableEq, Repr

/-- A unit that fails its step of a start (R77). -/
inductive StartUnit where
  | lane (l : Lane)
  | pll (p : Pll)
  | sramRow (l : Lane)
  | stagePrimary (ch : Fin 32)
  | stageBoth (ch : Fin 32)
  | senseOpen (ch : Fin 32)
  | converter (l : Lane) (pin : Fin 32)
  | serialLane (toB : Bool) (k : Fin 5)
  | canPort (p : Fin 2)
  | safetyIsland
  | safetyRecord
  | fieldIo
  | couplerLane (k : Fin 5)
  | enableLine (ch : Fin 32)
  | context (l : Lane) (ctx : Fin 8)
  | generator (l : Lane) (g : Fin 16)
  | gridForming (l : Lane)
  | recorder (l : Lane)
  | network
  deriving DecidableEq, Repr

/-- How a reset of the pulse lock is asked for (R324): the falling edge of RST_DI, the falling edge of the RESET bit of
connection `k`, or PLK_CMD.RESET with its KEY field. -/
inductive ResetSource where
  | rstDi
  | frame (k : Fin 8)
  | host (key : Half)
  deriving DecidableEq, Repr

/-- A received Ethernet frame, as far as R268 to R276 judge it. -/
structure EthFrame where
  src : BitVec 48
  dst : BitVec 48
  /-- The PRP trailer or HSR tag's sequence number; none: untagged. -/
  seq : Option Half
  lenBytes : Nat
  fcsOk : Bool
  /-- 0: other, 1: ARP request, 2: ICMP echo request, 3: UDP, 4: PTP, 5: supervision. -/
  kind : Fin 6
  udpPort : Half
  ipSrc : Word
  payload : List Byte
  deriving DecidableEq, Repr

/-- A PTP Announce data set, in the order IEEE 1588-2019 compares it (R274). -/
structure Announce where
  prio1 : Byte
  clockClass : Byte
  accuracy : Byte
  variance : Half
  prio2 : Byte
  gmId : Long
  steps : Half
  utcOffset : Half
  utcValid : Bool
  /-- The announce interval in s, as a power of two (R274). -/
  logInterval : Int
  deriving DecidableEq, Repr

/-- A CAN frame on the bus (R289, R302). -/
structure CanFrame where
  id : BitVec 29
  ide : Bool
  fdf : Bool
  brs : Bool
  esi : Bool
  rtr : Bool
  dlc : BitVec 4
  data : List Byte
  deriving DecidableEq, Repr

/-- A CAN error (CAN_STAT.LEC). -/
inductive CanError where
  | stuff | form | ack | bitRecessive | bitDominant | crc
  deriving DecidableEq, Repr

/-- One command: one row of spec/opcode_table.json. -/
inductive Instr where
  /-- R70. The diode node rises to `vbusMv` mV with the aux pin at `auxMv` mV. -/
  | vbusRise (vbusMv : Nat) (auxMv : Int)
  /-- R34. -/
  | vbusFall (vbusMv : Nat)
  /-- R30. The aux pin and VBUS have stood at these levels for `holdNs`. -/
  | auxDrop (auxMv : Int) (vbusMv holdNs : Nat)
  /-- R30. -/
  | auxDropClear (auxMv : Int) (vbusMv holdNs : Nat)
  /-- R29. -/
  | auxHigh (auxMv : Int)
  /-- R32. A charge took HUP from `fromMv` to `toMv` with `chargeUc` µC. -/
  | hupCapEstimate (fromMv toMv chargeUc : Nat)
  /-- R47. The quantities the power manager measures: mV, 0.1 W, 0.1 °C, lane supplies. -/
  | powerMeasure (auxMv : Int) (vbusMv hupMv powerDw : Nat) (tempDc : Int) (laneA laneB : Bool)
  /-- R37. Converter (`pump` false) or trickle pump of half-bridge `hb` stops. -/
  | gpFault (pump : Bool) (hb : Fin 16)
  /-- R37. A write of `v` to PWR_GPFLT. -/
  | gpFaultClear (v : Word)
  /-- R37. -/
  | gpSoftstartDone (pump : Bool) (hb : Fin 16)
  /-- R38. -/
  | tempWarn (tempDc : Int)
  /-- R38. -/
  | tempHigh (tempDc : Int)
  /-- R38. -/
  | gpCut (tempDc : Int)
  /-- R38. A 1 is written to PWR_EVT[7]. -/
  | gpCutRearm
  /-- R39. A write of `v` to PWR_GPCTL. -/
  | gpCtlWrite (v : Word)
  /-- R40. -/
  | islandIdleStepDown (isl : Fin 22)
  /-- R42. -/
  | islandWake (isl : Fin 22)
  /-- R42. -/
  | islandWakeDone (isl : Fin 22)
  /-- R51. -/
  | tcxoFail (t : Tcxo)
  /-- R395. -/
  | tcxoReturn (t : Tcxo)
  /-- R51. The difference in ppb over the 10 s window, and whether the spare lies further from REF10. -/
  | tcxoDrift (ppb : Nat) (spareFurther : Bool)
  /-- R51. -/
  | refLoss
  /-- R51. -/
  | ref10Qualified
  /-- R51. -/
  | ppsLoss
  /-- R52. -/
  | pllHoldoverEnd (p : Pll)
  /-- R55. -/
  | pllLoss (p : Pll)
  /-- R55. -/
  | pllLock (p : Pll)
  /-- R57. -/
  | islandSourceChange (isl : Fin 22)
  /-- R56. The frequency of each ring oscillator in 0.1 % of nominal, island 0 first. -/
  | ringCalibrate (pm : List Nat)
  /-- R62. -/
  | spareIdleTgtWrite (tgt : Bool)
  /-- R63. -/
  | spareRelease
  /-- R70. MODE_REQ with KEY and TARGET 0. -/
  | modeReqDormant (key : Half)
  /-- R79. MODE_REQ with TARGET 1. -/
  | modeReqRestart (key : Half)
  /-- R70. MODE_REQ with TARGET 3. -/
  | modeReqBlocked (key : Half)
  /-- R70. MODE_REQ with TARGET 4. -/
  | modeReqPrecharge (key : Half)
  /-- R70. MODE_REQ with TARGET 5. -/
  | modeReqBlackStart (key : Half)
  /-- R70. MODE_REQ with TARGET 6. -/
  | modeReqSynchronise (key : Half)
  /-- R73. MODE_REQ with a target that R73 does not accept. -/
  | modeReqUnaccepted (key : Half) (target : BitVec 4)
  /-- R72. -/
  | modeTransitionDone
  /-- R70. HSP_CSN has been low for `lowNs`. -/
  | hspWake (lowNs : Nat)
  /-- R95. Whether firmware page 0 and 1 verify against the vendor key. -/
  | keycheckDone (fw0Ok fw1Ok : Bool)
  /-- R77. The last step completes; the units that failed their step. -/
  | startDone (failed : List StartUnit)
  /-- R70. -/
  | prechargeTo
  /-- R74. -/
  | brownStop
  /-- R323. -/
  | degrExpired
  /-- R204. -/
  | modeCtrlTick
  /-- R200. The positive-sequence voltage has held above 0.8 pu (true) or below 0.1 pu (false) for 20 ms. -/
  | gridStateTimer (present : Bool)
  /-- R202. -/
  | syncReached
  /-- R202. -/
  | syncTo
  /-- R201. -/
  | bsFail
  /-- R204. The frequency error has exceeded ISL_DF for ISL_T (true), or the breaker reads open (false). -/
  | gridLoss (freq : Bool)
  /-- R206. -/
  | rtRecover
  /-- R99. A KEY_CMD write by master `m`: KEY, PAGE_KIND and an OP that is not listed. -/
  | keyCmdUnlisted (m : Master) (key : Half) (fw : Bool) (op : Byte)
  /-- R96. -/
  | keyOpen (m : Master) (key : Half) (fw : Bool)
  /-- R97. -/
  | keyClose (m : Master) (key : Half) (fw : Bool)
  /-- R99. -/
  | keyErase (m : Master) (key : Half) (fw : Bool)
  /-- R99. -/
  | keyProgram (m : Master) (key : Half) (fw : Bool)
  /-- R94. -/
  | keyVerify (m : Master) (key : Half) (fw : Bool)
  /-- R100. -/
  | keyCommit (m : Master) (key : Half) (fw : Bool)
  /-- R327. -/
  | keySafeauth (m : Master) (key : Half) (fw : Bool)
  /-- R93. -/
  | keyAdvance (m : Master) (key : Half) (fw : Bool)
  /-- R91. -/
  | keyProgslot (m : Master) (key : Half) (fw : Bool)
  /-- R91. -/
  | keyRevoke (m : Master) (key : Half) (fw : Bool)
  /-- R398. The running command completes. -/
  | keyCmdComplete (flash : FlashResult)
  /-- R97. -/
  | sessionTimeout
  /-- R96. A write of `v` to the KEY_BUF word `idx` by master `m`. -/
  | keyBufWrite (m : Master) (idx : Fin 1024) (v : Word)
  /-- R98. A write of `v` to the RWK register at `addr` by master `m`. -/
  | rwkWrite (m : Master) (addr v : Word)
  /-- R104. Master `m` requests a transfer of `bytes` bytes at `addr` while the segment is at `slot`;
  `data` is none for a read and the bytes for a write; `busy`: another transfer holds the port. -/
  | meshTransfer (m : Master) (addr : Word) (bytes : Nat) (data : Option (List Byte)) (slot : Fin 512) (busy : Bool)
  /-- R112. The arbiter of target port `t` decides at `slot`, `waited` slots after its last decision. -/
  | meshGrant (t : BitVec 6) (slot : Fin 512) (waited : Nat)
  /-- R111. -/
  | frameBoundary (seg : Fin 4)
  /-- R110. A write of `req` to MESH_SWAP by master `m`. -/
  | meshSwap (m : Master) (req : BitVec 4)
  /-- R115. -/
  | meshCntclr
  /-- R116. A read of MESH_LOCKn by master `m`. -/
  | lockAcquire (m : Master) (n : Fin 64)
  /-- R116. -/
  | lockWaitAcquired (m : Master) (n : Fin 64)
  /-- R116. A write of 1 to RELEASE of MESH_LOCKn by master `m`. -/
  | lockRelease (m : Master) (n : Fin 64)
  /-- R117. `flow`: the masters stalled on flow control, each with the target it waits at. -/
  | cycleProbe (flow : List (Master × BitVec 6))
  /-- R120. -/
  | accViolClear
  /-- R285. The trigger of `ctx` falls; it reached the measurement block `leadNs` ahead of its instant. -/
  | loopTrigger (ctx : Fin 8) (leadNs : Nat)
  /-- R131. The converter of `pin` in lane `l` samples its legs, P and N, in nV against AGND; `lost`: the code of an interleaved
  pin does not reach the other lane. -/
  | converterSample (l : Lane) (pin : Fin 32) (legs : Int × Int) (lost : Bool)
  /-- R132. -/
  | converterPowerDown (l : Lane) (pin : Fin 32)
  /-- R134. -/
  | winExit (l : Lane) (pin : Fin 32)
  /-- R124. -/
  | openWire (l : Lane) (pin : Fin 32)
  /-- R124. A write of 1 to MEAS_OWTEST.START of lane `l`. -/
  | owTestStart (l : Lane)
  /-- R124. -/
  | owTestEnd (l : Lane) (pin : Fin 32)
  /-- R127. -/
  | xchkFail (l : Lane) (pin : Fin 32)
  /-- R127. The sums of the 64 codes of the primary, the cross-check and the spare converter. -/
  | voteDone (pin : Fin 32) (sumPrimary sumCross sumSpare : Int)
  /-- R128. -/
  | spareIn (l : Lane) (pin : Fin 32)
  /-- R128. -/
  | spareCalibrate (l : Lane)
  /-- R139. A write of `v` to FLT_CTL of lane `l`. -/
  | fltCtlWrite (l : Lane) (v : Word)
  /-- R139. A write of `v` to FLT_COEFDAT of lane `l` by master `m`. -/
  | fltCoefdatWrite (l : Lane) (m : Master) (v : Word)
  /-- R12. The agreed vector of `ctx` falls due; the pins whose sample of the other lane has not reached lane A, and lane B. -/
  | vectorDue (ctx : Fin 8) (missA missB : List (Fin 32))
  /-- R145. -/
  | committedStepStart (l : Lane) (ctx : Fin 8)
  /-- R146. -/
  | committedStepCommit (l : Lane) (ctx : Fin 8)
  /-- R147. -/
  | deadlineMiss (l : Lane) (ctx : Fin 8)
  /-- R153. A write of `v` to ENG_COEFDAT of lane `l`. -/
  | coefWrite (l : Lane) (v : Word)
  /-- R154. A write of 1 to ENG_BANKSWAP.REQ of lane `l`. -/
  | bankSwapReq (l : Lane)
  /-- R257. The oldest mirrored write arrives in a lane. -/
  | mirroredWriteArrival (rx : MirrorRx)
  /-- R166. -/
  | fmaErr (l : Lane) (unit : Fin 18) (wh : FmaWhere)
  /-- R166. The units whose test-vector pass fails. -/
  | fmaTestPass (l : Lane) (failed : List (Fin 18))
  /-- R164. -/
  | oscWindowEnd (l : Lane) (ctx : Fin 8)
  /-- R163. A write of `v` to TRC_CTL of lane `l`. -/
  | trcCtlWrite (l : Lane) (v : Word)
  /-- R172. -/
  | specLevelIssue (l : Lane) (ctx : Fin 8)
  /-- R170. -/
  | specStepDone (l : Lane) (ctx : Fin 8)
  /-- R178. A template (0 dip, 1 phase jump, 2 frequency step) qualifies in lane `l`, `latency` 2.5 ns after its sample. -/
  | branchCommit (l : Lane) (tpl : Fin 3) (src : BranchSource) (latency : Nat)
  /-- R180. A commit of lane `l` is not matched within 1 µs. -/
  | laneDiff (l : Lane) (ctx : Fin 8) (tpl : Fin 3)
  /-- R179. A write of `v` to RA_CTL of lane `l`. -/
  | raCtlWrite (l : Lane) (v : Word)
  /-- R208. A write of `v` to parameter `i` of the block, in the order GF_PSET to GF_FSET, GF_H to GF_RAMPT. -/
  | gfParamWrite (l : Lane) (n : Fin 17) (v : Word)
  /-- R208. A write of 1 to GF_COMMIT.TOKEN of lane `l`. -/
  | gfCommit (l : Lane)
  /-- R221. -/
  | carrierBoundary (l : Lane) (g : Fin 16)
  /-- R220. -/
  | midPeriodUpdate (l : Lane) (g : Fin 16)
  /-- R217. -/
  | pwmPerWrite (l : Lane) (g : Fin 16) (v : Word)
  /-- R217. -/
  | pwmDutyWrite (l : Lane) (g : Fin 16) (v : Word)
  /-- R217. -/
  | pwmDutyfWrite (l : Lane) (g : Fin 16) (v : Word)
  /-- R218. A write of `mask` to PWM_COMMIT of lane `l`. -/
  | pwmCommit (l : Lane) (mask : Half)
  /-- R223. -/
  | pwmDtWrite (l : Lane) (g : Fin 16) (m : Master) (v : Word)
  /-- R223. -/
  | pwmMinpWrite (l : Lane) (g : Fin 16) (m : Master) (v : Word)
  /-- R228. Fault source `src` asserts or clears. -/
  | faultSourceChange (src : Fin 104) (active : Bool)
  /-- R28. FLTINi has stood at `mv` mV for `holdNs`. -/
  | fltinChange (n : Fin 4) (mv : Int) (holdNs : Nat)
  /-- R229. A write of `mask` to FG_CLR. -/
  | fgClr (l : Lane) (mask : BitVec 4)
  /-- R245. The next turn-on edge reaches channel `ch`; its source delivers `chargeNc` nC in the first 2 µs, or in the
  on-time if that is shorter, and the charge leaves its positive rail at `posMv` mV (R237). -/
  | gateTurnOn (ch : Fin 32) (chargeNc : Nat) (posMv : Int)
  /-- R239. Blanking ends; the sense voltage since it was last given, as (mV, ns) from the oldest on. -/
  | blankEnd (ch : Fin 32) (sense : List (Int × Nat))
  /-- R240. A detection path looks at the sense voltage: `sense` as for `blankEnd` up to this instant, and `mv` mV now. -/
  | scTrip (ch : Fin 32) (path : TripPath) (sense : List (Int × Nat)) (mv : Int)
  /-- R240. -/
  | softOffEnd (ch : Fin 32)
  /-- R241. -/
  | faultEventClose
  /-- R242. The retry wait of the oldest event ends. -/
  | retryWaitEnd
  /-- R237. The positive and the negative rail of `ch` in mV. -/
  | railCrossing (ch : Fin 32) (posMv negMv : Int)
  /-- R244. A write of 1 to GCH_CTL.CLEAR; what the self-test it may need measures, as for `selftestDone`: the slowest
  transitions of the primary and of the spare stage in ns, and the resistance. -/
  | gchClear (stageNs : Nat × Nat) (snOhm : Nat)
  /-- R247. A write of 1 to GCH_CTL.SELFTEST. -/
  | gchSelftest
  /-- R247. The slowest transition of each stage in ns, and the resistance from SNcc to K in ohms. -/
  | selftestDone (ch : Fin 32) (primaryNs spareNs snOhm : Nat)
  /-- R246. A switch-in that waits takes place; the two sinks overlap for `lastsNs`. -/
  | stageSwap (ch : Fin 32) (lastsNs : Nat)
  /-- R253. -/
  | laneFault (l : Lane) (cause : Fin 10)
  /-- R254. The other lane's signature for step `step` of `ctx` arrives in lane `l`. -/
  | signatureReceived (l : Lane) (ctx : Fin 8) (step : Nat) (sig : Word)
  /-- R255. Junior against senior timebase, 78.125 ps per unit. -/
  | timebaseCompare (err : Int)
  /-- R258. Serial lane `k` of the channel (`toB`: A to B). -/
  | tsuinSwap (toB : Bool) (k : Fin 5) (lostLock : Bool) (hdrErrors : Nat)
  /-- R258. -/
  | tsuinRetrained
  /-- R259. Each tumbler reacts to the claims the lanes now drive. -/
  | claimChange
  /-- R259. The carrier boundary of the other lane's generator for tumbler `ch`. -/
  | revert (ch : Fin 32)
  /-- R260. The HOLD_N-th replayed boundary of tumbler `ch`. -/
  | switchover (ch : Fin 32)
  /-- R262. -/
  | recoveryStart (l : Lane)
  /-- R262. -/
  | selfCheckDone (check : SelfCheck)
  /-- R262. The senior lane's mirror of `ctx` arrives in lane `l`. -/
  | mirrorReceived (l : Lane) (ctx : Fin 8)
  /-- R265. -/
  | claimRaise
  /-- R265. A write of `v` to CLM_CTL by master `m`. -/
  | clmCtlWrite (m : Master) (v : Word)
  /-- R253. A write of the OFFLINE bit of lane `l` to CLM_CMD. -/
  | offline (key : Half) (l : Lane)
  /-- R264. A write of the RECOVER bit of lane `l` to CLM_CMD. -/
  | recover (key : Half) (l : Lane)
  /-- R268. Port `p`: signal detect and PCS synchronisation, and the speed (1: 100, 2: 1000 Mbit/s). -/
  | linkChange (p : Fin 2) (up : Bool) (speed : Fin 3)
  /-- R270. -/
  | ethFrameRx (p : Fin 2) (f : EthFrame)
  /-- R270. -/
  | dupEntryExpire (src : BitVec 48)
  /-- R269. -/
  | supervisionTx
  /-- R271. `src` was heard on one port only for 3 supervision intervals. -/
  | lanFault (src : BitVec 48)
  /-- R279. Domain `k`: the Sync's stamp at raw tick `raw` and the offset measured there, in ns. -/
  | ptpSyncRx (k : Fin 2) (p : Fin 2) (offsetNs : Int)
  /-- R274. -/
  | ptpAnnounceRx (k : Fin 2) (p : Fin 2) (ann : Announce)
  /-- R279. -/
  | announceTimeout (k : Fin 2)
  /-- R281. -/
  | domainRevert
  /-- R274. -/
  | pdelayTx
  /-- R274. The four stamps of a peer-delay exchange on port `p`, in 78.125 ps steps. -/
  | pdelayRespRx (p : Fin 2) (t1 t2 t3 t4 : Int)
  /-- R282. -/
  | ppsEdge
  /-- R283. 0: TIME_SECLO, 1: D0_SECLO, 2: D1_SECLO, 3: TIME_RAWLO. -/
  | timeLatchRead (which : Fin 4)
  /-- R284. -/
  | timeCvctl (v : Word)
  /-- R284. -/
  | conversionDone
  /-- R281. -/
  | timeCtlWrite (m : Master) (v : Word)
  /-- R282. -/
  | timePpssecWrite (m : Master) (v : Word)
  /-- R292. -/
  | canFrameRx (p : Fin 2) (f : CanFrame)
  /-- R294. -/
  | canTxDone (p : Fin 2) (b : Fin 8)
  /-- R296. `tx`: the buffer being sent; `afterArb`: after the arbitration field; `major`: a receive error that counts 8. -/
  | canBusError (p : Fin 2) (e : CanError) (tx : Option (Fin 8)) (afterArb major : Bool)
  /-- R296. -/
  | canBusoffRecovered (p : Fin 2)
  /-- R295. -/
  | rateTryTimeout (p : Fin 2)
  /-- R294. -/
  | canTxreq (p : Fin 2) (mask : Byte)
  /-- R294. -/
  | canTxabort (p : Fin 2) (mask : Byte)
  /-- R294. Word `w` of buffer `b`: 0 TXHDR, 1 TXINFO, 16 to 31 TXDATA0 to 15. -/
  | canTxbufWrite (p : Fin 2) (b : Fin 8) (w : Fin 32) (v : Word)
  /-- R292. -/
  | canRxpop (p : Fin 2)
  /-- R296. -/
  | canRecover (p : Fin 2)
  /-- R295. A write of `v` to CAN_CTL. -/
  | canModeWrite (p : Fin 2) (v : Word)
  /-- R303. The levels of the eight output pins in mV, read back at this exchange. -/
  | fioExchange (pinsMv : List Int)
  /-- R303. -/
  | fioLink
  /-- R304. L+ against M in mV. -/
  | fieldSupplySample (mv : Int)
  /-- R304. L+ stands at `mv`, above 33.0 V for `highUs` µs. -/
  | fsLost (mv : Int) (highUs : Nat)
  /-- R304. -/
  | fsRecover
  /-- R307. Input `i` has held `level` for `holdUs` µs since the crossing at raw tick `stamp`. -/
  | diChange (n : Fin 16) (level : Bool) (holdUs : Nat) (stamp : Long)
  /-- R308. The input current in 10 µA and how long it has stood there, in µs. -/
  | wireBreak (n : Fin 16) (ua10 holdUs : Nat)
  /-- R310. -/
  | fioDqset (v : Word)
  /-- R309. Output `j` enters (or leaves) current limit; `thermal`: it switches off at 160 °C. -/
  | outOvl (j : Fin 8) (inLimit thermal : Bool)
  /-- R311. The pin of output `j` has stood at `mv` for `holdUs` µs. -/
  | extDrive (j : Fin 8) (mv : Int) (holdUs : Nat)
  /-- R312. -/
  | testRound
  /-- R312. The extreme level the pin reached within the pulse, in mV. -/
  | testPulseEnd (mv : Int)
  /-- R321. The detector state each channel reports. -/
  | safeCycle (reported : Word)
  /-- R318. -/
  | enableDetectOff (ch : Fin 32)
  /-- R322. -/
  | supplyPulse
  /-- R322. Whether DEM_DI and GUARD_DI fell below 7.0 V by the end of the pulse. -/
  | supplyPulseEnd (demLow guardLow : Bool)
  /-- R322. -/
  | safeSelfTest (ok : Bool)
  /-- R320. -/
  | plkCmdDemand (key : Half)
  /-- R324. -/
  | plkReset (src : ResetSource)
  /-- R325. -/
  | proofExpired
  /-- R327. -/
  | pwLockoutEnd
  /-- R331. A frame for connection `k` arrives. -/
  | safetyFrameRx (k : Fin 8) (bytes : List Byte)
  /-- R329. -/
  | safetyStatusTx (k : Fin 8)
  /-- R331. -/
  | connectionTimeout (k : Fin 8)
  /-- R338. Source `src` becomes active at lane `l`'s recorder, `frac` 25 ps steps after the raw tick. -/
  | recTrig (l : Lane) (src : Fin 118) (frac : Fin 100)
  /-- R339. The oldest trigger sent by the other lane arrives in lane `l`. -/
  | xlaneTrigger (l : Lane)
  /-- R345. -/
  | recDone (l : Lane)
  /-- R346. -/
  | recRelease (l : Lane) (mask : Byte)
  /-- R338. -/
  | recCmdTrig (l : Lane)
  /-- R341. The offsets of pins 0 to 31 in 25 ps. -/
  | recOffsetMeasure (l : Lane) (offs : List Int)
  /-- R350. -/
  | hspFrameIn (bytes : List Byte)
  /-- R350. `complete`: the host clocked the last CRC byte. -/
  | hspFrameOut (complete : Bool)
  /-- R351. -/
  | udpRequest (ip : Word) (sport : Half) (bytes : List Byte)
  /-- R354. -/
  | read (p : HostPort) (tag : Half) (addr n : Word)
  /-- R354. -/
  | write (p : HostPort) (tag : Half) (addr : Word) (ws : List Word)
  /-- R353. -/
  | pntGet (p : HostPort) (tag : Half)
  /-- R353. -/
  | pntClear (p : HostPort) (tag : Half) (mask : BitVec 256)
  /-- R356. -/
  | subscribe (p : HostPort) (tag : Half) (mask : BitVec 256)
  /-- R354. -/
  | unknownCommand (p : HostPort) (tag : Half) (cmd : Byte)
  /-- R357. -/
  | opCopy (p : HostPort) (tag : Half) (mb : Byte) (force : Bool) (a0 a1 a2 : Word)
  /-- R357. -/
  | opCrc (p : HostPort) (tag : Half) (mb : Byte) (force : Bool) (a0 a1 : Word)
  /-- R357. -/
  | opSnapshot (p : HostPort) (tag : Half) (mb : Byte) (force : Bool) (a0 a1 a2 : Word)
  /-- R357. -/
  | opCkptCopy (p : HostPort) (tag : Half) (mb : Byte) (force : Bool) (a0 a1 a2 : Word)
  /-- R357. -/
  | opRecWait (p : HostPort) (tag : Half) (mb : Byte) (force : Bool) (a0 a1 : Word)
  /-- R357. -/
  | opMeshSnap (p : HostPort) (tag : Half) (mb : Byte) (force : Bool) (a0 : Word)
  /-- R357. -/
  | opCanSend (p : HostPort) (tag : Half) (mb : Byte) (force : Bool) (a0 a1 a2 : Word)
  /-- R357. -/
  | opNetEcho (p : HostPort) (tag : Half) (mb : Byte) (force : Bool) (a0 a1 : Word)
  /-- R357. The operation of mailbox `mb` completes; `echoUs`: the round-trip time where it is NET_ECHO. -/
  | operationComplete (mb : Fin 16) (echoUs : Nat)
  /-- R357. -/
  | operationTimeout (mb : Fin 16)
  /-- R358. -/
  | result (p : HostPort) (tag : Half) (mb : Word)
  /-- R358. A read of HCP_MBSTAT. -/
  | mbstatRead
  /-- R359. -/
  | deadbolt (p : HostPort) (tag : Half) (target : Word)
  /-- R359. The aborted operation stops after `done` bytes or units. -/
  | deadboltAbort (done : Nat)
  /-- R356. -/
  | notificationTx (p : HostPort)
  /-- R362. A corrected error in row `row` of bank `bank`; `wh` none: shared SRAM. -/
  | eccCorrected (wh : Option Lane) (bank : Fin 50) (row : Nat)
  /-- R362. -/
  | rowSwapDone (l : Lane) (ok : Bool)
  /-- R362. -/
  | bankSwapDone (l : Lane) (ok : Bool)
  /-- R362. -/
  | couplerLaneSwap (k : Fin 5) (errors : Nat)
  /-- R364. -/
  | repairMapWritten
  /-- R370. -/
  | mapFail
  /-- R368. `room`: the log area takes the entry. -/
  | swapLogWrite (room : Bool)
  /-- R6. A write by master `m` to a register without a row of its own. -/
  | registerWrite (m : Master) (addr v : Word)
  /-- R299. -/
  | canIntegrationDone (p : Fin 2)
  /-- R309. -/
  | coolingRestart (j : Fin 8)
  /-- R313. -/
  | testPulseStart (j : Fin 8)
  /-- R249. The rails (mV) of channels 0 to 31, positive first. -/
  | channelTelemetry (pos neg : List Int)
  deriving DecidableEq, Repr

end Sys2Proof
end

