-- ==== Sys2Proof/Decode.lean ====
section
/-! DEFINITION. The command that a word spells by the table's bits. The block takes commands from outside and no row of
the table gives bits, so no word spells one. -/

namespace Sys2Proof

/-- No row of the table has an encoding: no word spells a command. -/
def decodeTableWord (_nbits _w : Nat) : Option Instr := none

end Sys2Proof
end

