-- ==== Sys2Proof/Machine/Operands.lean ====
section
/-! DEFINITION. Bits, fields, little-endian bytes, fixed arrays and sparse memories (R5, R6): the shapes in which every
command of the block reads its operands. -/

namespace Sys2Proof.Machine

/-- Bits lo to lo + n − 1 of a register, as a number. -/
def fld {w : Nat} (v : BitVec w) (lo n : Nat) : Nat := v.toNat / 2 ^ lo % 2 ^ n

/-- Bit k of a register. -/
def bit {w : Nat} (v : BitVec w) (k : Nat) : Bool := v.getLsbD k

/-- A register with bit k set to b. -/
def putBit {w : Nat} (v : BitVec w) (k : Nat) (b : Bool) : BitVec w :=
  if b then v ||| (1#w <<< k) else v &&& ~~~(1#w <<< k)

/-- A flag as a number. -/
def b2n (b : Bool) : Nat := if b then 1 else 0

/-- A number as a register; bits above 31 fall away. -/
def wd (n : Nat) : Word := BitVec.ofNat 32 n

/-- An integer as a register, two's complement. -/
def wdInt (i : Int) : Word := BitVec.ofInt 32 i

/-- Fields packed into a register: each value at its lowest bit. -/
def pack (fs : List (Nat × Nat)) : Word := wd (fs.foldl (fun acc f => acc + f.2 * 2 ^ f.1) 0)

/-- A list of flags as a register, flag 0 in bit 0. -/
def packBits (bs : List Bool) : Nat := bs.foldr (fun b acc => b2n b + 2 * acc) 0

/-- Addition that stops at the largest value of an n-bit counter. -/
def satAdd (n a b : Nat) : Nat := min (2 ^ n - 1) (a + b)

/-- A counter of a register field raised by 1, saturating. -/
def satInc {w : Nat} (v : BitVec w) : BitVec w := if v.toNat + 1 < 2 ^ w then v + 1#w else v

/-- The two's complement number in an n-bit field. -/
def signed (n v : Nat) : Int := if v % 2 ^ n < 2 ^ (n - 1) then (v % 2 ^ n : Nat) else (v % 2 ^ n : Nat) - (2 ^ n : Nat)

/-- An integer held within bounds. -/
def clampInt (lo hi i : Int) : Int := max lo (min hi i)

/-- The bytes of a number, least significant first (R5). -/
def leBytes : Nat → Nat → List Byte
  | 0, _ => []
  | k + 1, n => BitVec.ofNat 8 n :: leBytes k (n / 256)

/-- The number whose bytes these are, least significant first (R5). -/
def leNat : List Byte → Nat
  | [] => 0
  | b :: bs => b.toNat + 256 * leNat bs

/-- The number whose bytes these are, most significant first. -/
def beNat (bs : List Byte) : Nat := bs.foldl (fun acc b => acc * 256 + b.toNat) 0

/-- The bytes of a number, most significant first. -/
def beBytes (k n : Nat) : List Byte := (leBytes k n).reverse

/-- n bytes at an offset; a short list ends in zeros. -/
def slice (p : List Byte) (off n : Nat) : List Byte :=
  let q := (p.drop off).take n
  q ++ List.replicate (n - q.length) 0

/-- The byte at an offset of a record. -/
def u8 (p : List Byte) (off : Nat) : Nat := leNat (slice p off 1)

/-- The 16-bit value at an offset of a record. -/
def u16 (p : List Byte) (off : Nat) : Nat := leNat (slice p off 2)

/-- The 32-bit value at an offset of a record. -/
def u32 (p : List Byte) (off : Nat) : Nat := leNat (slice p off 4)

/-- The register-wide value at an offset of a record. -/
def w32 (p : List Byte) (off : Nat) : Word := wd (u32 p off)

/-- The 64-bit value at an offset of a record. -/
def u64 (p : List Byte) (off : Nat) : Nat := leNat (slice p off 8)

/-- The words of a byte string, four bytes each. -/
def toWords : List Byte → List Word
  | a :: b :: c :: d :: r => wd (leNat [a, b, c, d]) :: toWords r
  | _ => []

/-- The bytes of a list of words. -/
def ofWords (ws : List Word) : List Byte := ws.flatMap fun w => leBytes 4 w.toNat

/-- An array with entry i replaced. -/
def upd {α : Type} {n : Nat} (v : Vector α n) (i : Fin n) (x : α) : Vector α n := v.set i.val x i.isLt

/-- An array with entry i changed by f. -/
def modAt {α : Type} {n : Nat} (v : Vector α n) (i : Fin n) (f : α → α) : Vector α n := upd v i (f v[i])

/-- Entry k of an array, or d past its end. -/
def at' {α : Type} {n : Nat} (v : Vector α n) (k : Nat) (d : α) : α := if h : k < n then v[k] else d

/-- An array with entry k replaced, unchanged past its end. -/
def put' {α : Type} {n : Nat} (v : Vector α n) (k : Nat) (x : α) : Vector α n := if h : k < n then v.set k x h else v

/-- Every index of an array, in order. -/
def idx (n : Nat) : List (Fin n) := List.finRange n

/-- What a sparse memory holds at k; an unlisted key reads d. -/
def sparseGet {α : Type} (d : α) : List (Nat × α) → Nat → α
  | [], _ => d
  | (a, x) :: m, k => if a = k then x else sparseGet d m k

/-- A sparse memory with v written at k; the canonical form (keys rising, no entry equal to d) is kept. -/
def sparsePut {α : Type} [DecidableEq α] (d : α) : List (Nat × α) → Nat → α → List (Nat × α)
  | [], k, v => if v = d then [] else [(k, v)]
  | (a, x) :: m, k, v =>
    if k < a then (if v = d then (a, x) :: m else (k, v) :: (a, x) :: m)
    else if k = a then (if v = d then m else (k, v) :: m)
    else (a, x) :: sparsePut d m k v

/-- The canonical form of a sparse memory whose keys all exceed a bound. -/
def sparseWfFrom {α : Type} [DecidableEq α] (d : α) : Option Nat → List (Nat × α) → Bool
  | _, [] => true
  | none, (a, x) :: m => decide (x ≠ d) && sparseWfFrom d (some a) m
  | some b, (a, x) :: m => decide (b < a) && decide (x ≠ d) && sparseWfFrom d (some a) m

/-- The canonical form of a sparse memory: keys strictly rising and no entry equal to what an unlisted key reads. -/
def sparseWf {α : Type} [DecidableEq α] (d : α) (m : List (Nat × α)) : Bool := sparseWfFrom d none m

/-- n consecutive entries of a sparse memory from k, in one walk. -/
def sparseRange {α : Type} (d : α) (m : List (Nat × α)) (k : Nat) : Nat → List α
  | 0 => []
  | n + 1 =>
    let m' := m.dropWhile fun e => decide (e.1 < k)
    (match m' with
      | [] => d
      | (a, x) :: _ => if a = k then x else d) :: sparseRange d m' (k + 1) n

/-- Consecutive entries written to a sparse memory. -/
def sparsePutAll {α : Type} [DecidableEq α] (d : α) (m : List (Nat × α)) (k : Nat) : List α → List (Nat × α)
  | [] => m
  | x :: xs => sparsePutAll d (sparsePut d m k x) (k + 1) xs

end Sys2Proof.Machine
end

