-- ==== Sys2Proof/Machine/Crypto.lean ====
section
/-! DEFINITION. CRC-32C (R83), SHA-384 and ECDSA over P-384 (R90, the signature block), and PBKDF2-HMAC-SHA-256 (R327),
as FIPS 180-4, FIPS 186-5 and RFC 8018 define them. -/

namespace Sys2Proof.Machine

/-- One bit of a reflected CRC-32C: polynomial 0x1EDC6F41, reflected 0x82F63B78. -/
def crcBit (c : Nat) : Nat := if c % 2 = 1 then (c / 2) ^^^ 0x82F63B78 else c / 2

/-- One byte of the CRC. -/
def crcByte (c : Nat) (b : Byte) : Nat :=
  crcBit (crcBit (crcBit (crcBit (crcBit (crcBit (crcBit (crcBit (c ^^^ b.toNat))))))))

/-- CRC-32C of a byte string (R83). -/
def crc32c (bs : List Byte) : Nat := bs.foldl crcByte 0xFFFFFFFF ^^^ 0xFFFFFFFF

/-! ### SHA-2 (FIPS 180-4) -/

/-- The largest r below 2ⁿ whose e-th power is at most x, found bit by bit from the highest on. -/
def rootBits (e x : Nat) : Nat → Nat → Nat
  | 0, r => r
  | n + 1, r => rootBits e x n (if (r + 2 ^ n) ^ e ≤ x then r + 2 ^ n else r)

/-- The first 64 bits of the fractional part of the e-th root of a number below 2⁹. -/
def rootFraction (e p : Nat) : Nat := rootBits e (p * 2 ^ (64 * e)) 69 0 % 2 ^ 64

/-- The first 80 primes. -/
def shaPrimes : List Nat :=
  (List.range 410).filter fun n => decide (2 ≤ n) && (List.range 21).all fun d => d < 2 || n ≤ d || n % d != 0

/-- The constants of the rounds: cube roots of the first 80 primes, 64 bits of the fraction each. -/
def shaCubes : List Nat := shaPrimes.map (rootFraction 3)

/-- What the initial values come from: square roots of the first 16 primes, 64 bits of the fraction each. -/
def shaSquares : List Nat := (shaPrimes.take 16).map (rootFraction 2)

/-- One member of SHA-2: the word width, the rotations of its four mixing functions, the shift that two of them end in, and
the constants of its rounds. -/
structure Sha2 where
  width : Nat
  mixA : List Nat
  mixE : List Nat
  mixOld : List Nat × Nat
  mixNew : List Nat × Nat
  rounds : List Nat

/-- SHA-384: 64-bit words and 80 rounds. -/
def sha2Wide : Sha2 :=
  { width := 64, mixA := [28, 34, 39], mixE := [14, 18, 41], mixOld := ([1, 8], 7), mixNew := ([19, 61], 6),
    rounds := shaCubes }

/-- SHA-256: 32-bit words and 64 rounds, whose constants are the upper halves. -/
def sha2Narrow : Sha2 :=
  { width := 32, mixA := [2, 13, 22], mixE := [6, 11, 25], mixOld := ([7, 18], 3), mixNew := ([17, 19], 10),
    rounds := (shaCubes.take 64).map (· / 2 ^ 32) }

/-- The rotations of a word to the right, combined with what is given. -/
def Sha2.turn (q : Sha2) (rs : List Nat) (x start : Nat) : Nat :=
  rs.foldl (fun y r => y ^^^ (x / 2 ^ r + x % 2 ^ r * 2 ^ (q.width - r))) start

/-- A sum of words. -/
def Sha2.sum (q : Sha2) (xs : List Nat) : Nat := xs.sum % 2 ^ q.width

/-- The word that follows a window of sixteen in the message schedule. -/
def Sha2.grow (q : Sha2) (win : List Nat) : Nat :=
  let x := win.getD 1 0
  let y := win.getD 14 0
  q.sum [win.getD 0 0, win.getD 9 0, q.turn q.mixOld.1 x (x / 2 ^ q.mixOld.2), q.turn q.mixNew.1 y (y / 2 ^ q.mixNew.2)]

/-- The rounds of one block. A round adds one word to each of two tracks, held newest first: the last four words of `as` are
the working variables a to d, those of `es` e to h. -/
def Sha2.run (q : Sha2) : List Nat → List Nat → List Nat → List Nat → List Nat × List Nat
  | [], _, as, es => (as, es)
  | k :: ks, win, as, es =>
    let e := es.getD 0 0
    let x := as.getD 0 0
    let choice := e &&& es.getD 1 0 ||| (2 ^ q.width - 1 - e) &&& es.getD 2 0
    let most := x &&& (as.getD 1 0 ||| as.getD 2 0) ||| as.getD 1 0 &&& as.getD 2 0
    let t := es.getD 3 0 + q.turn q.mixE e 0 + choice + k + win.getD 0 0
    q.run ks (win.drop 1 ++ [q.grow win]) (q.sum [t, q.turn q.mixA x 0, most] :: as.take 3)
      (q.sum [as.getD 3 0, t] :: es.take 3)

/-- One block of 16 words enters the chaining value. -/
def Sha2.block (q : Sha2) (h win : List Nat) : List Nat :=
  let r := q.run q.rounds win (h.take 4) (h.drop 4)
  (h.zip (r.1 ++ r.2)).map fun x => q.sum [x.1, x.2]

/-- A byte string cut into n pieces of k bytes. -/
def chunks (k : Nat) : Nat → List Byte → List (List Byte)
  | 0, _ => []
  | n + 1, bs => bs.take k :: chunks k n (bs.drop k)

/-- A padded message: a one bit, zeros, and the length in bits. -/
def Sha2.pad (q : Sha2) (bs : List Byte) : List Byte :=
  let blk := 2 * q.width
  let lenB := q.width / 4
  let z := (blk - (bs.length + 1 + lenB) % blk) % blk
  bs ++ [0x80#8] ++ List.replicate z 0 ++ beBytes lenB (8 * bs.length)

/-- A digest as words, from an initial chaining value. -/
def Sha2.words (q : Sha2) (init : List Nat) (bs : List Byte) : List Nat :=
  let p := q.pad bs
  let blk := 2 * q.width
  (chunks blk (p.length / blk) p).foldl
    (fun h b => q.block h ((chunks (q.width / 8) 16 b).map beNat)) init

/-- SHA-384, 48 bytes. -/
def sha384 (bs : List Byte) : List Byte := ((sha2Wide.words (shaSquares.drop 8) bs).take 6).flatMap (beBytes 8)

/-- SHA-256, 32 bytes. -/
def sha256 (bs : List Byte) : List Byte :=
  (sha2Narrow.words ((shaSquares.take 8).map (· / 2 ^ 32)) bs).flatMap (beBytes 4)

/-- Bytes combined bit by bit. -/
def xorBytes (a b : List Byte) : List Byte := a.zipWith (· ^^^ ·) b

/-- HMAC-SHA-256 under a key of at most 64 bytes. -/
def hmac256 (key msg : List Byte) : List Byte :=
  let k := key ++ List.replicate (64 - key.length) 0
  sha256 (k.map (· ^^^ 0x5C#8) ++ sha256 (k.map (· ^^^ 0x36#8) ++ msg))

/-- n further iterations of PBKDF2. -/
def pbkdf2Iter (key : List Byte) : Nat → List Byte → List Byte → List Byte
  | 0, _, acc => acc
  | n + 1, u, acc =>
    let u' := hmac256 key u
    pbkdf2Iter key n u' (xorBytes acc u')

/-- PBKDF2-HMAC-SHA-256 with 32 bytes of output (R327). -/
def pbkdf2 (key salt : List Byte) (iters : Nat) : List Byte :=
  let u := hmac256 key (salt ++ beBytes 4 1)
  pbkdf2Iter key (iters - 1) u u

/-! ### ECDSA over P-384 (R90) -/

/-- The field prime of P-384. -/
def p384 : Nat := 2 ^ 384 - 2 ^ 128 - 2 ^ 96 + 2 ^ 32 - 1

/-- The order of the base point. -/
def n384 : Nat := 0xffffffffffffffffffffffffffffffffffffffffffffffffc7634d81f4372ddf581a0db248b0a77aecec196accc52973

/-- The constant b of the curve. -/
def b384 : Nat := 0xb3312fa7e23ee7e4988e056be3f82d19181d9c6efe8141120314088f5013875ac656398d8a2ed19d2a85c8edd3ec2aef

/-- The base point. -/
def g384 : Nat × Nat :=
  (0xaa87ca22be8b05378eb1c71ef320ad746e1d3b628ba79b9859f741e082542a385502f25dbf55296c3a545e3872760ab7,
   0x3617de4a96262c6f5d9e98bf9292dc29f8f41dbd289a147ce9da3113b5f0b8c00a60b1ce1d7e819d7a431d7c90ea0e5f)

/-- x to the power e modulo m, over the low n bits of e. -/
def powMod (m : Nat) : Nat → Nat → Nat → Nat
  | 0, _, _ => 1 % m
  | n + 1, x, e =>
    let r := powMod m n (x * x % m) (e / 2)
    if e % 2 = 1 then r * x % m else r

/-- The inverse modulo a prime. -/
def invMod (m x : Nat) : Nat := powMod m 384 (x % m) (m - 2)

/-- The sum of two points; none is the point at infinity. -/
def ecAdd (a b : Option (Nat × Nat)) : Option (Nat × Nat) :=
  match a, b with
  | none, q => q
  | q, none => q
  | some (x1, y1), some (x2, y2) =>
    if x1 = x2 && (y1 + y2) % p384 = 0 then none
    else
      let l :=
        if x1 = x2 then (3 * x1 * x1 + (p384 - 3)) * invMod p384 (2 * y1) % p384
        else (y2 + p384 - y1) * invMod p384 (x2 + p384 - x1) % p384
      let x3 := (l * l + 2 * p384 - x1 - x2) % p384
      some (x3, (l * (x1 + p384 - x3) + (p384 - y1)) % p384)

/-- A multiple of a point, over the low n bits of k. -/
def ecMul : Nat → Nat → Option (Nat × Nat) → Option (Nat × Nat)
  | 0, _, _ => none
  | n + 1, k, q =>
    let r := ecMul n (k / 2) (ecAdd q q)
    if k % 2 = 1 then ecAdd r q else r

/-- A point of the curve with coordinates below the prime. -/
def onCurve (x y : Nat) : Bool :=
  decide (x < p384) && decide (y < p384) && (y * y % p384 == (x * x * x + (p384 - 3) * x + b384) % p384)

/-- The signature (r, s) of a message digest is valid under the public point (FIPS 186-5). -/
def ecdsaOk (digest : List Byte) (x y r s : Nat) : Bool :=
  if onCurve x y && decide (0 < r) && decide (r < n384) && decide (0 < s) && decide (s < n384) then
    let w := invMod n384 s
    let u1 := beNat digest * w % n384
    let u2 := r * w % n384
    match ecAdd (ecMul 384 u1 (some g384)) (ecMul 384 u2 (some (x, y))) with
    | none => false
    | some (px, _) => px % n384 == r
  else false

end Sys2Proof.Machine
end

