-- ==== Sys2Proof/Machine/F32.lean ====
section
/-! DEFINITION. Binary32 arithmetic of the loop engine and the measurement chain: the exact value, rounded once to
nearest, ties to even, under the exceptions of R158 (R136, R158, R191, R400). -/

namespace Sys2Proof.Machine.F32

/-- The largest finite value, positive (R158). -/
def maxFinite : Word := 0x7F7FFFFF#32

/-- Sign bit. -/
def isNeg (w : Word) : Bool := w.getLsbD 31

/-- Biased exponent. -/
def expo (w : Word) : Nat := (w.toNat / 2 ^ 23) % 256

/-- Fraction field. -/
def frac (w : Word) : Nat := w.toNat % 2 ^ 23

/-- Neither a NaN nor an infinity. -/
def isFinite (w : Word) : Bool := expo w != 255

/-- A subnormal value (exponent 0, fraction not 0). -/
def isSubnormal (w : Word) : Bool := expo w == 0 && frac w != 0

/-- Zero, or a subnormal, which reads as zero (R158). -/
def isZero (w : Word) : Bool := expo w == 0

/-- A signed zero. -/
def zeroOf (neg : Bool) : Word := if neg then 0x80000000#32 else 0#32

/-- The largest finite value with a sign. -/
def maxOf (neg : Bool) : Word := if neg then 0xFF7FFFFF#32 else maxFinite

/-- 2 to an integer power, as a rational. -/
def pow2 (k : Int) : Rat := if 0 ≤ k then (2 ^ k.toNat : Nat) else mkRat 1 (2 ^ (-k).toNat)

/-- The exact value of a finite operand; a subnormal reads as zero (R158). -/
def val (w : Word) : Rat :=
  if isZero w then 0
  else
    let m : Rat := ((2 ^ 23 + frac w : Nat) : Rat) * pow2 ((expo w : Int) - 150)
    if isNeg w then -m else m

/-- A rounded result, and whether R158 substituted the largest finite value. -/
structure Res where
  w : Word
  sub : Bool
  deriving DecidableEq, Repr

/-- The quotient of n by d, rounded to nearest, ties to even. -/
def roundDiv (n d : Nat) : Nat :=
  let q := n / d
  let r := n % d
  if 2 * r < d then q
  else if d < 2 * r then q + 1
  else if q % 2 = 0 then q else q + 1

/-- The exponent e with 2^e ≤ n / d < 2^(e+1), for positive n and d. -/
def floorLog (n d : Nat) : Int :=
  let e : Int := (Nat.log2 n : Int) - (Nat.log2 d : Int)
  if 0 ≤ e then (if d * 2 ^ e.toNat ≤ n then e else e - 1)
  else (if d ≤ n * 2 ^ (-e).toNat then e else e - 1)

/-- Rounding of a non-zero magnitude n / d with a sign (R136, R158): too large becomes the largest finite value,
a subnormal result becomes zero of the same sign. -/
def roundMag (neg : Bool) (n d : Nat) : Res :=
  let e := floorLog n d
  let k : Int := max (e - 23) (-149)
  let m := if 0 ≤ k then roundDiv n (d * 2 ^ k.toNat) else roundDiv (n * 2 ^ (-k).toNat) d
  let m' := if m = 2 ^ 24 then 2 ^ 23 else m
  let k' : Int := if m = 2 ^ 24 then k + 1 else k
  if m' < 2 ^ 23 then ⟨zeroOf neg, false⟩
  else
    let be := k' + 150
    if 254 < be then ⟨maxOf neg, true⟩
    else
      let w := BitVec.ofNat 32 (be.toNat * 2 ^ 23 + (m' - 2 ^ 23))
      ⟨if neg then w ||| 0x80000000#32 else w, false⟩

/-- Rounding of an exact value; an exact zero takes the sign zneg. -/
def roundZ (zneg : Bool) (q : Rat) : Res :=
  if q = 0 then ⟨zeroOf zneg, false⟩ else roundMag (q.num < 0) q.num.natAbs q.den

/-- Rounding of an exact value; an exact zero is +0. -/
def round (q : Rat) : Res := roundZ false q

/-- Rounding without the substitution mark. -/
def ofRat (q : Rat) : Word := (round q).w

/-- The value nearest to an integer. -/
def ofInt (i : Int) : Word := ofRat (i : Rat)

/-- An exact result that R158 never substitutes. -/
def exact (w : Word) : Res := ⟨w, false⟩

/-- An operand as R158 reads it: a subnormal becomes zero of the same sign. -/
def flush (w : Word) : Word := if isZero w then zeroOf (isNeg w) else w

/-- Sign change. -/
def neg (w : Word) : Word := w ^^^ 0x80000000#32

/-- ADD. The sum of two zeros of one sign keeps it; any other exact zero is +0. -/
def add (a b : Word) : Res := roundZ (isZero a && isZero b && isNeg a && isNeg b) (val a + val b)

/-- SUB. -/
def sub (a b : Word) : Res := add a (neg b)

/-- MUL. -/
def mul (a b : Word) : Res := roundZ (isNeg a != isNeg b) (val a * val b)

/-- FMA: a × b + c with one rounding. -/
def fma (a b c : Word) : Res :=
  let pn := isNeg a != isNeg b
  roundZ ((isZero a || isZero b) && isZero c && pn && isNeg c) (val a * val b + val c)

/-- DIV, with the exceptions of R158. -/
def div (a b : Word) : Res :=
  if isZero b then
    if isZero a then ⟨0#32, true⟩ else ⟨maxOf (isNeg a != isNeg b), true⟩
  else roundZ (isNeg a != isNeg b) (val a / val b)

/-- RCP, with the exception of R158. -/
def rcp (a : Word) : Res := if isZero a then ⟨maxOf (isNeg a), true⟩ else round (1 / val a)

/-- Less than, as MIN, MAX and CLAMP order values: −0 counts below +0 (R157). -/
def ltZ (a b : Word) : Bool :=
  if isZero a && isZero b then isNeg a && !isNeg b else decide (val a < val b)

/-- Comparison of the values. -/
def lt (a b : Word) : Bool := decide (val a < val b)

/-- Comparison of the values. -/
def le (a b : Word) : Bool := decide (val a ≤ val b)

/-- MIN. -/
def min (a b : Word) : Word := if ltZ b a then flush b else flush a

/-- MAX. -/
def max (a b : Word) : Word := if ltZ a b then flush b else flush a

/-- CLAMP: min(max(a, b), c); b if b > c. -/
def clamp (a b c : Word) : Word := if ltZ c b then flush b else min (max a b) c

/-- ABS. -/
def abs (a : Word) : Word := flush a &&& 0x7FFFFFFF#32

/-- WRAP: a − ⌊a + 0.5⌋, exact (R157). -/
def wrapTurns (a : Word) : Word :=
  let q := val a
  (roundZ (isZero a && isNeg a) (q - (((q + mkRat 1 2).floor : Int) : Rat))).w

/-! ### Square roots, angles and the exponential, by integer approximation far below one unit in the last place -/

/-- Integer square root, bit by bit from 2^k. -/
def isqrtAux (n : Nat) : Nat → Nat → Nat
  | 0, r => r
  | k + 1, r =>
    let t := r + 2 ^ k
    isqrtAux n k (if t * t ≤ n then t else r)

/-- The largest r with r × r ≤ n. -/
def isqrt (n : Nat) : Nat := isqrtAux n (Nat.log2 n / 2 + 1) 0

/-- √q for q ≥ 0 to p bits after the point, with a sticky half unit where it is not exact. -/
def sqrtApprox (p : Nat) (q : Rat) : Rat :=
  let n := q.num.natAbs * q.den * 4 ^ p
  let s := isqrt n
  let v := if s * s = n then 2 * s else 2 * s + 1
  mkRat v (2 * q.den * 2 ^ p)

/-- SQRT, with the exceptions of R158. -/
def sqrt (a : Word) : Res :=
  if isZero a then exact (zeroOf (isNeg a))
  else if isNeg a then ⟨0#32, true⟩
  else round (sqrtApprox 200 (val a))

/-- RSQRT, with the exceptions of R158. -/
def rsqrt (a : Word) : Res :=
  if isZero a || isNeg a then ⟨maxFinite, true⟩ else round (sqrtApprox 200 (1 / val a))

/-- p + q √3 to 700 bits after the point. -/
def addSqrt3 (p q : Rat) : Rat :=
  if q < 0 then p - sqrtApprox 700 (3 * q * q) else p + sqrtApprox 700 (3 * q * q)

/-- π to 480 bits after the point. -/
def piFixed : Nat := 0x3243f6a8885a308d313198a2e03707344a4093822299f31d0082efa98ec4e6c89452821e638d01377be5466cf34e90c6cc0ac29b7c97c50dd3f84d5b5

/-- π. -/
def pi : Rat := mkRat piFixed (2 ^ 480)

/-- Bits after the point of the series below. -/
def fixBits : Nat := 400

/-- Terms of the sine or cosine series: t is the present term, k its index, x2 the square of the angle. -/
def trigSeries (x2 : Int) : Nat → Nat → Int → Int → Int
  | 0, _, _, acc => acc
  | fuel + 1, k, t, acc =>
    let t' := -(t * x2 / 2 ^ fixBits) / ((k + 1) * (k + 2) : Nat)
    trigSeries x2 fuel (k + 2) t' (acc + t')

/-- The sine of the angle x / 2^fixBits in radians, for 0 ≤ x ≤ π / 4. -/
def sinFixed (x : Int) : Int := trigSeries (x * x / 2 ^ fixBits) 60 1 x x

/-- The cosine of the angle x / 2^fixBits in radians, for 0 ≤ x ≤ π / 4. -/
def cosFixed (x : Int) : Int := trigSeries (x * x / 2 ^ fixBits) 60 0 (2 ^ fixBits) (2 ^ fixBits)

/-- 2π r in radians, fixed point, for r turns. -/
def radFixed (r : Rat) : Int := (2 * r * mkRat piFixed (2 ^ 480) * ((2 ^ fixBits : Nat) : Rat)).floor

/-- sin 2πr for 0 ≤ r ≤ 1/4 turns. -/
def sinQuarter (r : Rat) : Rat :=
  if r ≤ mkRat 1 8 then mkRat (sinFixed (radFixed r)) (2 ^ fixBits)
  else mkRat (cosFixed (radFixed (mkRat 1 4 - r))) (2 ^ fixBits)

/-- sin 2πr for any r: exact at the quarter turns. -/
def sinTurns (r : Rat) : Rat :=
  let f := r - ((r.floor : Int) : Rat)
  if f = 0 || f = mkRat 1 2 then 0
  else if f = mkRat 1 4 then 1
  else if f = mkRat 3 4 then -1
  else if f < mkRat 1 4 then sinQuarter f
  else if f < mkRat 1 2 then sinQuarter (mkRat 1 2 - f)
  else if f < mkRat 3 4 then -(sinQuarter (f - mkRat 1 2))
  else -(sinQuarter (1 - f))

/-- The sine result of SINCOS. -/
def sin2pi (a : Word) : Word := (roundZ (isNeg a) (sinTurns (val a))).w

/-- The cosine result of SINCOS. -/
def cos2pi (a : Word) : Word := (round (sinTurns (val a + mkRat 1 4))).w

/-- Terms of Euler's series of the arc tangent: u = t² / (1 + t²). -/
def atanSeries (u : Int) : Nat → Nat → Int → Int → Int
  | 0, _, _, acc => acc
  | fuel + 1, k, t, acc =>
    let t' := t * u / 2 ^ fixBits * (2 * k : Nat) / (2 * k + 1 : Nat)
    atanSeries u fuel (k + 1) t' (acc + t')

/-- atan t for 0 ≤ t ≤ 1, in radians. -/
def atanUnit (t : Rat) : Rat :=
  let q := 1 + t * t
  let first := (t / q * ((2 ^ fixBits : Nat) : Rat)).floor
  let u := (t * t / q * ((2 ^ fixBits : Nat) : Rat)).floor
  mkRat (atanSeries u 410 1 first first) (2 ^ fixBits)

/-- The angle of (y, x) in turns, for a point that is not the origin, exact on the axes and diagonals. -/
def angleTurns (y x : Rat) : Rat :=
  let ay := if y < 0 then -y else y
  let ax := if x < 0 then -x else x
  let base : Rat :=
    if ay = 0 then 0
    else if ax = 0 then mkRat 1 4
    else if ay = ax then mkRat 1 8
    else if ay < ax then atanUnit (ay / ax) / (2 * pi)
    else mkRat 1 4 - atanUnit (ax / ay) / (2 * pi)
  let half := if x < 0 then mkRat 1 2 - base else base
  if y < 0 then -half else half

/-- ATAN2(y, x) / 2π (R157, R158). A zero y with a negative x gives half a turn with the sign of y. -/
def atan2 (y x : Word) : Res :=
  if isZero y && isZero x then ⟨0#32, true⟩
  else if isZero y && isNeg x then exact (if isNeg y then 0xBF000000#32 else 0x3F000000#32)
  else roundZ (isNeg y) (angleTurns (val y) (val x))

/-- Terms of the exponential series of −x. -/
def expSeries (x : Int) : Nat → Nat → Int → Int → Int
  | 0, _, _, acc => acc
  | fuel + 1, k, t, acc =>
    let t' := -(t * x / 2 ^ fixBits) / ((k + 1 : Nat) : Int)
    expSeries x fuel (k + 1) t' (acc + t')

/-- e^(−x) for 0 ≤ x ≤ 1. -/
def expNeg (x : Rat) : Rat :=
  mkRat (expSeries (x * ((2 ^ fixBits : Nat) : Rat)).floor 80 0 (2 ^ fixBits) (2 ^ fixBits)) (2 ^ fixBits)

end Sys2Proof.Machine.F32
end

