-- ==== Sys2Proof/Config.lean ====
section
/-! DEFINITION. What one module fixes (its fuses) and the values the spec leaves open: constants without a body, so
that no proof can use a value of them (log entries 2 and 4). -/

namespace Sys2Proof.Config

/-- The four 32-bit words of the module's unique identity, as fused; never all zero (R103; log entry 2). -/
opaque uidSeed : Nat

/-- KEY_UID as one number, not zero (R103). -/
def moduleUid : Nat := 1 + uidSeed % (2 ^ 128 - 1)

/-- NET_MACHI and NET_MACLO as fused in the factory (R288; log entry 2). -/
opaque factoryMac : BitVec 48

/-- The SHA-384 digests of the vendor and of the signer public keys held in the fuses, slot by slot (R91; log entry 2). -/
opaque factorySlot : Nat → Nat

/-- The factory test image on key page 0 and the delivered firmware pages, byte by byte where they are not erased: pages 0,
2 and 3 of the flash (R90, R95; log entry 2). -/
opaque factoryFlash : Nat → List (Nat × Byte)

/-- A value the spec does not state: `freeNat k n`, for the k-th use, taken below n where a rule bounds it (log entry 4). -/
opaque freeNat : Nat → Nat

/-- An unstated bit. -/
def freeBool (k : Nat) : Bool := freeNat k % 2 == 1

/-- An unstated register value. -/
def freeWord (k : Nat) : Word := BitVec.ofNat 32 (freeNat k)

/-- The energy of the oscillation detector's band-pass output, binary32 without its sign, for a context and the number
of a window: the design of the filter is the loader's (R164; log entry 4). -/
opaque bandEnergy : Nat → Nat → Word

end Sys2Proof.Config
end

