-- ==== Sys2Proof/Machine/State.lean ====
section
/-! DEFINITION. The state of the block: every register, queue, counter, mode and pin the spec names, as plain data.
Default field values are the values at reset (log entry 1); times are in 2.5 ns ticks (log entry 3). -/

namespace Sys2Proof.Machine

/-! ### Power manager (R29 to R49) -/

/-- The power state of one island (R40): 0 Active, 1 Gated, 2 Retention, 3 Off. -/
structure IslandPower where
  state : Fin 4 := 0
  /-- When the island last worked or took its present state: its idle delay runs from here (R40). -/
  idleFrom : Nat := 0
  /-- A transfer waits for the wake time (R42). -/
  waking : Bool := false
  wakes : Half := 0
  deriving DecidableEq, Repr

/-- The power manager. -/
structure PowerState where
  /-- The power-conversion stage runs: VBUS has risen through 26 V and not since fallen to 24 V (R29, R34). -/
  powered : Bool := false
  /-- The aux pin, VBUS and the baseplate as last seen: mV, mV, 0.1 °C. -/
  auxMv : Int := 0
  vbusMv : Nat := 0
  tempDc : Int := 0
  /-- The hold-up pin as last seen, mV. -/
  hupMv : Nat := 0
  /-- When AON started, and whether the first measurement has overwritten the reset values since (R45). -/
  aonAt : Nat := 0
  measured : Bool := false
  auxOk : Bool := false
  auxDrop : Bool := false
  auxHigh : Bool := false
  hupRdy : Bool := false
  hupLow : Bool := false
  tempWarn : Bool := false
  tempHigh : Bool := false
  gpCut : Bool := false
  laneAPwr : Bool := false
  laneBPwr : Bool := false
  auxV : Half := 0
  vbus : Half := 0
  hupV : Half := 0
  hupC : Half := 0
  pin : Half := 0
  temp : Half := 0
  gpEn : Half := 0
  convOk : Half := 0
  pumpOk : Half := 0
  convFlt : Half := 0
  pumpFlt : Half := 0
  /-- Soft starts in progress (R37, R38). -/
  convSoft : Half := 0
  pumpSoft : Half := 0
  /-- When the soft start of each converter and of each pump last began. -/
  convSoftAt : Vector Nat 16 := Vector.replicate 16 0
  pumpSoftAt : Vector Nat 16 := Vector.replicate 16 0
  islSel : BitVec 5 := 0
  isl : Vector IslandPower 22 := Vector.replicate 22 {}
  deriving DecidableEq, Repr

/-! ### Clock islands and synthesis (R50 to R68) -/

/-- A reference of a PLL (R53). -/
inductive ClkRef where
  | primary | spare | ref10
  deriving DecidableEq, Repr

/-- Spread spectrum of a PLL output (R53): its depth in 0.01 %, its rate in Hz and whether it is down-spread. The profile
is triangular. -/
structure Spread where
  depth : Byte := 0
  rateHz : Nat := 0
  down : Bool := false
  deriving DecidableEq, Repr

/-- One PLL (R52 to R55). -/
structure PllState where
  /-- The reference the image names, and the one in use. -/
  imageRef : ClkRef := .primary
  ref : ClkRef := .primary
  /-- The reference is lost and the oscillator control frozen (R52). -/
  holdover : Bool := false
  /-- When the holdover began. -/
  holdAt : Nat := 0
  locked : Bool := false
  /-- The earliest time at which the output has stayed within 0.1 % of its target for long enough to be locked (R55, R65). -/
  lockFrom : Nat := 0
  /-- The spread of its SUP output, or of ISO; SPARE takes that of the PLL it serves (R53). -/
  spread : Spread := {}
  /-- Declared lost since it was last locked (R55). -/
  lost : Bool := false
  deriving DecidableEq, Repr

/-- The clock generator of one island: 0 own PLL or TCXO, 1 SPARE, 2 ring oscillator (R57). -/
structure IslandClock where
  own : Pll := .sysA
  src : Fin 3 := 0
  /-- The source that starts at the next handshake boundary; for AON, SAFE and FIO 0 the primary TCXO, 1 the spare TCXO,
  2 the ring oscillator. -/
  next : Option (Fin 3) := none
  fallbacks : Byte := 0
  ringPm : BitVec 10 := 0
  /-- The island left its own PLL through a SPARE takeover (R61). -/
  viaSpare : Bool := false
  deriving DecidableEq, Repr

/-- One clock output (R66). -/
structure CkoState where
  div : Byte := 0
  src : BitVec 3 := 0
  level : BitVec 2 := 0
  en : Bool := false
  deriving DecidableEq, Repr

/-- The clock-synthesis block. -/
structure ClockState where
  tcxoP : Bool := false
  tcxoS : Bool := false
  ref10 : Bool := false
  pps : Bool := false
  /-- When each TCXO last failed (R395), and since when REF10 may have been within its limits (R51). -/
  tcxoPAt : Nat := 0
  tcxoSAt : Nat := 0
  ref10From : Nat := 0
  /-- 0 primary TCXO, 1 spare TCXO, 2 ring oscillator. -/
  aonSrc : Fin 3 := 0
  fioSrc : Fin 3 := 0
  /-- 0: spare TCXO, 1: primary TCXO. -/
  safeSrc : Bool := false
  safeRing : Bool := false
  driftSel : Bool := false
  sysA : PllState := {}
  sysB : PllState := {}
  net : PllState := {}
  iso : PllState := {}
  spare : PllState := {}
  /-- 0 idle, 1 SYS-A, 2 SYS-B, 3 NET (R62). -/
  spareUse : Fin 4 := 0
  /-- The frequency SPARE runs or walks to: 0 3.2 GHz, 1 2.5 GHz. -/
  spareTgt : Bool := false
  idleTgt : Bool := false
  /-- The walk of SPARE: when it began, and the frequency it began from in units of 500 Hz (R65). -/
  walkAt : Nat := 0
  walkFrom : Nat := 6400000
  /-- The gate-power converters and pumps run on their own fallback oscillators (R64), and when they are back on ISO. -/
  convOwn : Bool := false
  convBackAt : Nat := 0
  islSel : BitVec 5 := 0
  isl : Vector IslandClock 22 := Vector.replicate 22 {}
  cko : Vector CkoState 4 := Vector.replicate 4 {}
  deriving DecidableEq, Repr

/-! ### Operating modes and start-up (R69 to R81) -/

/-- What moves the module from mode to mode, in the classes of R72. -/
inductive Trigger where
  /-- A pulse-lock demand. -/
  | demand
  /-- The degraded-mode limit expires. -/
  | degrExpired
  /-- A stop of R74 to R76, a protection trip or a ride-through trip: the cause code and the bit of MODE_EVT. -/
  | stop (cause : Byte) (evt : Fin 9)
  /-- The safety diagnosis becomes reduced. -/
  | degraded
  /-- The ride-through profile is entered or a disturbance branch committed. -/
  | rideThrough
  /-- Any other automatic transition, from a mode to a mode, with its cause. -/
  | auto (src dst : BitVec 4) (cause : Byte)
  /-- A host request for a target. -/
  | host (target : BitVec 4)
  deriving DecidableEq, Repr

/-- The mode controller's state, held in the hub. -/
structure ModeState where
  mode : BitVec 4 := 0
  prev : BitVec 4 := 0
  cause : Byte := 0
  refuse : Byte := 0
  busy : Bool := false
  /-- The transition in progress. -/
  target : BitVec 4 := 0
  nextCause : Byte := 0
  /-- Bits of MODE_EVT the transition raises beside MODE_CHANGE. -/
  nextEvt : Word := 0
  /-- Triggers that arrived while BUSY was 1, oldest first (R72). -/
  held : List Trigger := []
  startTime : Word := 0
  /-- When the running start was triggered, and whether it is a cold start or a wake (R325). -/
  startAt : Nat := 0
  cold : Bool := true
  /-- The running start began with VBUS rising, not as a warm restart or a wake (R79). -/
  fullStart : Bool := true
  /-- When M10 was entered, and the mode left for it. -/
  degrAt : Nat := 0
  degrFrom : BitVec 4 := 0
  /-- The mode M9 was entered from. -/
  rideFrom : BitVec 4 := 0
  /-- When M4 was entered. -/
  prechargeAt : Nat := 0
  /-- When AUX_DROP set in M4 to M10, while the hold time runs (R74). -/
  brownAt : Option Nat := none
  deriving DecidableEq, Repr

/-! ### Keyring (R82 to R103) -/

/-- One record of an image (R84). -/
structure ImgRec where
  type : Nat
  inst : Nat
  payload : List Byte
  deriving DecidableEq, Repr

/-- A keyring command that runs (R99, R398). -/
structure KeyRun where
  op : Byte
  seq : Half
  /-- PAGE_KIND: a firmware page. -/
  fw : Bool
  arg : Word
  master : Master
  /-- The page it acts on and the contents of KEY_BUF, as it was accepted (log entry 65). -/
  page : Fin 4 := 0
  buf : List (Nat × Byte) := []
  deriving DecidableEq, Repr

/-- A flash page in its canonical form, from bytes listed in any order. -/
def pageFrom (bs : List (Nat × Byte)) : List (Nat × Byte) := bs.foldl (fun m e => sparsePut 0xFF m e.1 e.2) []

/-- The four pages as delivered (R90): key page 0 holds the factory test image, key page 1 is erased, and the firmware pages
hold the vendor's firmware. -/
def factoryPages : Vector (List (Nat × Byte)) 4 :=
  #v[pageFrom (Config.factoryFlash 0), [], pageFrom (Config.factoryFlash 2), pageFrom (Config.factoryFlash 3)]

/-- The keyring loader, its fuses and its flash pages. Pages: 0 and 1 key pages, 2 and 3 firmware pages. -/
structure KeyState where
  session : Bool := false
  owner : Master := 0
  /-- Idle time left at `idleFrom`, in ticks (R97). -/
  idleLeft : Nat := 0
  idleFrom : Nat := 0
  safeAuth : Bool := false
  running : Option KeyRun := none
  seq : Half := 0
  resSeq : Half := 0
  resOp : Byte := 0
  resCode : Byte := 0
  arg : Word := 0
  /-- KEY_BUF, sparse; an unlisted byte reads 0. -/
  buf : List (Nat × Byte) := []
  badIndex : Half := 0
  badType : Half := 0
  rwkAddr : Word := 0
  /-- The module is held in M1 under R95. -/
  heldM1 : Bool := false
  runKey : Option (Fin 2) := none
  runFw : Option (Fin 2) := none
  /-- The page Keycheck tried first in this start (R399). -/
  triedKey : Option (Fin 2) := none
  triedFw : Option (Fin 2) := none
  keyFallback : Bool := false
  fwFallback : Bool := false
  verified : Vector Bool 4 := Vector.replicate 4 false
  /-- The records of the running image, with its SERIAL, ROLLBACK and SLOT. -/
  records : List ImgRec := []
  serial : Word := 0
  imgRollback : Nat := 0
  signer : BitVec 4 := 0
  /-- Fuses: slot states (0 empty, 1 programmed, 2 revoked), digests and the rollback counter. -/
  slotState : Vector (Fin 3) 4 := (Vector.replicate 4 0).set 0 1
  slotDigest : Vector Nat 4 := (Vector.replicate 4 0).set 0 (Config.factorySlot 0)
  rollback : Nat := 0
  /-- The four pages, sparse; an erased byte reads 0xFF. -/
  flash : Vector (List (Nat × Byte)) 4 := factoryPages
  deriving DecidableEq, Repr

/-! ### Hinge mesh and access tables (R104 to R122) -/

/-- A transfer that waits at its target port (R112). -/
structure MeshWait where
  master : Master
  addr : Word
  bytes : Nat
  /-- The bytes of a write; none: a read. -/
  data : Option (List Byte)
  /-- Slots waited up to the last decision of the port. -/
  slots : Nat
  deriving DecidableEq, Repr

/-- A transfer that a supervisor lost to the cycle probe and retries at a due time (R118). -/
structure MeshRetry where
  due : Nat
  wait : MeshWait
  deriving DecidableEq, Repr

/-- A read that stalls at a lock (R116): the words still to be read from `addr` on, and the bytes read before it. -/
structure MeshStall where
  master : Master
  addr : Nat
  left : Nat
  got : List Byte
  /-- The host port whose READ it is. -/
  port : Option HostPort
  deriving DecidableEq, Repr

/-- One hardware lock (R116). -/
structure MeshLock where
  holder : Option Master := none
  /-- Masters whose read stalls, the first one first. -/
  waiters : List Master := []
  deriving DecidableEq, Repr

/-- The counters of one master (R115). -/
structure MeshCount where
  grants : Word := 0
  waits : Word := 0
  maxWait : Word := 0
  deriving DecidableEq, Repr

/-- The hinge mesh and the access block. -/
structure MeshState where
  /-- Active and shadow slot tables of the four segments, sparse; an unlisted entry is 0. -/
  active : Vector (List (Nat × Half)) 4 := Vector.replicate 4 []
  shadow : Vector (List (Nat × Half)) 4 := Vector.replicate 4 []
  swapPend : BitVec 4 := 0
  segSel : BitVec 2 := 0
  slotSel : BitVec 9 := 0
  cntSel : BitVec 4 := 0
  cnt : Vector MeshCount 16 := Vector.replicate 16 {}
  /-- Credits spent since the frame boundary, sparse at 16 × target + master. -/
  spent : List (Nat × Nat) := []
  /-- Transfers waiting for a grant, in the order of their requests. -/
  waiting : List MeshWait := []
  lock : Vector MeshLock 64 := Vector.replicate 64 {}
  /-- Transfers whose read of a lock stalls, each beside its master in the lock's waiters. -/
  stalls : List MeshStall := []
  /-- Operations that a supervisor retries, the oldest first (R118). -/
  retries : List MeshRetry := []
  cycNoLock : Bool := false
  cycLock : BitVec 6 := 0
  cycVictim : BitVec 4 := 0
  cycLength : BitVec 4 := 0
  cycCount : Byte := 0
  /-- The access tables are in force (R89). -/
  accOn : Bool := false
  /-- The access payload as step 10 of the start has applied it (R88, R89). -/
  access : List Byte := []
  vcount : Half := 0
  vlog0 : Word := 0
  vlog1 : Word := 0
  accSel : BitVec 6 := 0
  deriving DecidableEq, Repr

/-! ### Measurement chain (R123 to R142) -/

/-- What the last grid sample changed in a chain, as it stood before: a re-phasing drops that sample (R131). -/
structure ChainSave where
  /-- The grid instant of the sample. -/
  inst : Nat
  settled : Bool
  inputs : Nat
  phase : Nat
  integ : Vector (BitVec 80) 5
  comb : Vector (BitVec 80) 5
  hist : List Word
  dcE : Word
  code : Word
  out : Word
  out2 : Word
  deriving DecidableEq, Repr

/-- What a loop read takes from a chain (R126): its outputs, scaled and in code units, and whether it is settled. -/
structure PinRead where
  out : Word := 0
  out2 : Word := 0
  code : Word := 0
  settled : Bool := false
  deriving DecidableEq, Repr

/-- One pin in one lane: converter, window comparator and filter chain. -/
structure PinState where
  /-- Latest codes of this lane's and of the other lane's converter. -/
  own : Half := 0
  other : Half := 0
  ovr : Bool := false
  /-- At the last sample a leg lay beyond 12.5 V; and until when the pin may not yet read correctly (R125). -/
  overdrive : Bool := false
  recoverTo : Nat := 0
  /-- The last sampling instant with its trim, in units of 78.125 ps (R129). -/
  sampledAt : Int := 0
  /-- The lane A code of the last grid instant of an interleaved pin in this lane's stream (R129). -/
  pairA : Half := 0
  opened : Bool := false
  /-- Since when the pin has read +32 767 without a break, and whether that run has been reported. -/
  fullSince : Option Nat := none
  /-- When the open-wire test of the pin ends (R124). -/
  owTest : Option Nat := none
  winLo : Half := 0
  winHi : Half := 0
  skew : BitVec 6 := 0
  /-- 0 inside, 1 below, 2 above, after debouncing. -/
  win : Fin 3 := 0
  /-- The undebounced comparator of the last sample (R134). -/
  winRaw : Fin 3 := 0
  /-- Consecutive samples on the side of `winRaw`. -/
  winRun : Nat := 0
  /-- The band has been left and the exit not yet reported. -/
  winExit : Fin 3 := 0
  /-- 0 own converter, 1 to 4 spare 0 to 3. -/
  conv : Fin 5 := 0
  /-- The converter failed its step of the start, and no spare replaced it (R366). -/
  absent : Bool := false
  asleep : Bool := true
  primaryB : Bool := false
  /-- When the next sample of a continuous pin or of a burst is due, and the samples left of a burst. -/
  nextAt : Nat := 0
  burstLeft : Nat := 0
  lastConv : Nat := 0
  xchkBad : Bool := false
  /-- A run of differences has reached XCHK_CNT and is not yet reported. -/
  xchkDue : Bool := false
  xchkRun : Nat := 0
  xchkGood : Nat := 0
  xchkCount : Half := 0
  xchkMax : Half := 0
  /-- The differences of the running 10 s window, summed in units of 2⁻¹⁴⁹ codes, their number, and its start (R362). -/
  xchkSum : Int := 0
  xchkN : Nat := 0
  xchkFrom : Nat := 0
  /-- The spare that a running vote has connected: its lane and index. -/
  vote : Option (Lane × Fin 4) := none
  /-- The spare that takes over at the next anchor trigger, and whether a vote asked for it. -/
  swap : Option (Fin 4 × Bool) := none
  /-- Samples it still takes alongside, and whether the anchor trigger that follows them has fallen (R128). -/
  swapLeft : Nat := 0
  swapDue : Bool := false
  /-- FLT_CTL of a pin with a filter chain. -/
  run : Bool := false
  freeze : Bool := false
  settled : Bool := false
  /-- Input samples since RUN was set. -/
  inputs : Nat := 0
  /-- Input samples before the one that produces the next output. -/
  phase : Nat := 0
  /-- The phase is set at the next anchor trigger (R137). -/
  phasePend : Bool := true
  integ : Vector (BitVec 80) 5 := Vector.replicate 5 0
  comb : Vector (BitVec 80) 5 := Vector.replicate 5 0
  /-- FIR inputs, newest first, binary32. -/
  hist : List Word := []
  coef : List (BitVec 24) := []
  coefSel : BitVec 7 := 0
  dcE : Word := 0
  dcK : Word := 0
  /-- The last chain output in code units, and scaled. -/
  code : Word := 0
  out : Word := 0
  /-- The output at the first sample of the last grid instant, scaled: the lane A sample of an interleaved pin. -/
  out2 : Word := 0
  undo : Option ChainSave := none
  deriving DecidableEq, Repr

/-- The measurement block of one lane. -/
structure MeasState where
  pin : Vector PinState 32 := Vector.replicate 32 {}
  pinSel : BitVec 5 := 0
  fltSel : BitVec 5 := 0
  /-- Spares in service (true) or withdrawn with the converter they replace. -/
  spareUsed : Vector Bool 4 := Vector.replicate 4 false
  anchored : Bool := false
  slips : Byte := 0
  /-- A first re-phasing, or one after TRIG_REALIGN, is still to come (R131). -/
  rephaseFree : Bool := true
  deriving DecidableEq, Repr

/-! ### Loop engine (R143 to R168) -/

/-- A committed step in progress: its start and its agreed inputs as (node, value). -/
structure RunStep where
  startAt : Nat
  /-- Engine cycles done before it was last suspended, and since when it runs; none: it is suspended (R144). -/
  work : Nat := 0
  since : Option Nat
  /-- When the level at which it was suspended, or its end after the last level, frees the engine. -/
  freeAt : Nat := 0
  inputs : List (Nat × Word)
  /-- Every chain that gave an input was settled at the read instant (R149). -/
  settled : Bool := true
  deriving DecidableEq, Repr

/-- A coefficient write or a bank swap that waits for a committed step (R153, R154). -/
inductive PendWrite where
  | coef (bank : Bool) (index : Nat) (v : Word)
  | swap
  deriving DecidableEq, Repr

/-- One loop context in one lane. -/
structure EngCtx where
  /-- 0 unused, 1 stopped, 2 running; a read gives 3 while the outputs are held (R149). -/
  state : Fin 4 := 0
  bank : Bool := false
  live : Bool := false
  /-- COEF mode written and effective from the next committed step (R155). -/
  livePend : Option Bool := none
  /-- Waiting writes and swaps, oldest first, each with the step at whose start both lanes apply it; none: the mirrored
  write has not yet arrived in the other lane (R153, R257). -/
  pend : List (Option Nat × PendWrite) := []
  steps : Word := 0
  misses : Half := 0
  missRun : Fin 4 := 0
  cycLast : Half := 0
  cycMax : Half := 0
  numSub : Word := 0
  clamps : Word := 0
  /-- Number of the step that the last trigger began (R163). -/
  stepNo : Nat := 0
  /-- Number of the last step that started, and of the last one that committed. -/
  startedNo : Nat := 0
  commitNo : Nat := 0
  /-- When a committed step last wrote its outputs (R178). -/
  wroteAt : Option Nat := none
  /-- When the last trigger fell. -/
  trigAt : Nat := 0
  /-- The agreed vector is due for the present trigger (R12). -/
  vecDue : Bool := false
  /-- This lane's chains at the read instant of the present trigger (R126, R131, R137). -/
  reads : List (Fin 32 × PinRead) := []
  /-- The agreed vector, once due: (node, value). -/
  vec : Option (List (Nat × Word)) := none
  /-- The vector is marked unagreed (R12). -/
  vecUnagreed : Bool := false
  /-- Every chain that gave an entry of the vector was settled (R149). -/
  vecSettled : Bool := true
  run : Option RunStep := none
  /-- Oscillation detector: 0 off, 1 armed, 2 disarmed after a swap, 3 tripped. -/
  osc : Fin 4 := 0
  oscBuf : List Word := []
  oscHold : Nat := 0
  oscWindows : Nat := 0
  oscBand : Word := 0
  oscRatio : Word := 0
  deriving DecidableEq, Repr

/-- One trace tap (R163). -/
structure TraceTap where
  run : Bool := true
  freezeOn : BitVec 2 := 0
  frozen : Bool := false
  /-- The freezing event has occurred and the step's entry is still to be written. -/
  freezePend : Bool := false
  wrapped : Bool := false
  wptr : BitVec 12 := 0
  en : Bool := false
  spec : Bool := false
  decim : Byte := 0
  node : BitVec 12 := 0
  /-- Committed steps since the last entry. -/
  cnt : Nat := 0
  deriving DecidableEq, Repr

/-- The loop engine of one lane. -/
structure EngState where
  /-- Node store (R150), sparse; an unlisted node holds 0.0. -/
  nodes : List (Nat × Word) := []
  /-- Coefficient banks at 1024 × context + 512 × bank + entry, sparse. -/
  coefs : List (Nat × Word) := []
  ctx : Vector EngCtx 8 := Vector.replicate 8 {}
  tap : Vector TraceTap 64 := Vector.replicate 64 {}
  /-- FMA units that have left the issue pool (R166). -/
  fmaLost : List (Fin 18) := []
  laneFault : Bool := false
  ctxSel : BitVec 3 := 0
  coefBank : Bool := false
  coefIndex : BitVec 9 := 0
  nodeSel : BitVec 12 := 0
  trcCtx : BitVec 3 := 0
  trcTap : BitVec 3 := 0
  deriving DecidableEq, Repr

/-! ### Run-ahead and branch commit (R169 to R187) -/

/-- A speculative step of R170: horizon step h, or the ARMED or NEXT branch of a template. -/
inductive SpecJob where
  | horizon (h : Nat)
  | armed (tpl : Fin 3)
  | next (tpl : Fin 3)
  deriving DecidableEq, Repr

/-- A complete branch: its output values in list order and its nodes. -/
structure BranchOut where
  outs : List (Nat × Word)
  nodes : List (Nat × Word)
  deriving DecidableEq, Repr

/-- What the classifier keeps of one triad (R176). -/
structure TriadState where
  /-- Magnitude and angle at the last committed step. -/
  mag : Word := 0
  theta : Word := 0
  /-- Consecutive qualifying samples per template. -/
  runs : Vector Nat 3 := Vector.replicate 3 0
  /-- Δθ of the last samples, newest first. -/
  dth : List Word := []
  deriving DecidableEq, Repr

/-- The run-ahead of one context in one lane. -/
structure RaCtx where
  on : Bool := false
  cause : Fin 3 := 0
  predOk : Bool := false
  hDone : Nat := 0
  armed : Vector (Option BranchOut) 3 := Vector.replicate 3 none
  next : Vector (Option BranchOut) 3 := Vector.replicate 3 none
  blocked : Vector Bool 3 := Vector.replicate 3 false
  /-- Samples since a template last qualified (R177). -/
  unqual : Vector Nat 3 := Vector.replicate 3 0
  /-- The speculative step in flight and the levels issued. -/
  flight : Option (SpecJob × Nat) := none
  suspended : Bool := false
  /-- The inputs of the last committed step, in entry order, and those horizon step 1 predicted. -/
  inputs : List Word := []
  predicted : List Word := []
  /-- A commit has been taken since the last committed step (R177). -/
  taken : Bool := false
  /-- A change has emptied the sets since the last committed step (R181). -/
  invalidated : Bool := false
  /-- The trigger of the last committed step, from which θp advances (R176). -/
  refAt : Nat := 0
  triad : Vector TriadState 4 := Vector.replicate 4 {}
  commits : Word := 0
  noBranch : Half := 0
  misses : Word := 0
  squashes : Word := 0
  deriving DecidableEq, Repr

/-- What a checkpoint slot was last given (R183); a released slot is not valid. -/
structure Checkpoint where
  valid : Bool
  ctx : Fin 8
  ahead : Nat
  nodes : List (Nat × Word)
  deriving DecidableEq, Repr

/-- The run-ahead unit of one lane. -/
structure RaState where
  ctx : Vector RaCtx 8 := Vector.replicate 8 {}
  slot : Vector (Option Checkpoint) 16 := Vector.replicate 16 none
  inhibit : Bool := false
  ctxSel : BitVec 3 := 0
  lastBranch : BitVec 2 := 0
  lastSource : BitVec 4 := 0
  lastCtxs : Byte := 0
  lastLatency : Half := 0
  laneDiff : Half := 0
  /-- Commits the other lane has not yet matched: context, template, time (R180). -/
  unmatched : List (Fin 8 × Fin 3 × Nat) := []
  ckSlot : BitVec 4 := 0
  ckNode : BitVec 12 := 0
  deriving DecidableEq, Repr

/-! ### Grid-forming function (R188 to R213) -/

/-- The grid-forming block of one lane. The 17 parameters: 0 PSET, 1 QSET, 2 VSET, 3 FSET, 4 H, 5 D, 6 TD, 7 MP, 8 NQ,
9 TF, 10 RV, 11 XV, 12 IMAX, 13 KVI, 14 K1, 15 K2, 16 RAMPT (R208). -/
structure GfState where
  par : Vector Word 17 := Vector.replicate 17 0
  /-- Values written by a host and not yet committed. -/
  staged : Vector (Option Word) 17 := Vector.replicate 17 none
  /-- Commit tokens that wait: the step at whose start both lanes act, none while a token is on its way to the other lane,
  the lane that received it, and the values it commits (R208, R257). -/
  tokens : List (Option Nat × Lane × List (Fin 17 × Word)) := []
  /-- Values a loop output has written to PSET, QSET, VSET or FSET (R209). -/
  loopVal : Vector (Option Word) 4 := Vector.replicate 4 none
  behav : Fin 7 := 0
  p : Word := 0
  q : Word := 0
  freq : Word := 0
  e : Word := 0
  vgp : Word := 0
  vgn : Word := 0
  vdc : Word := 0
  chd : Word := 0
  sph : Word := 0
  sfr : Word := 0
  smg : Word := 0
  chw : Word := 0
  /-- SPH at the last ten 1 ms ticks, newest first (R202). -/
  sphHist : List Word := []
  iLim : Bool := false
  present : Bool := false
  absent : Bool := false
  /-- Since when |G+| has stayed at or above 0.8 pu, and below 0.1 pu (R200). -/
  above : Option Nat := none
  below : Option Nat := none
  /-- Since when the synchronise criteria have held (R202). -/
  syncSince : Option Nat := none
  syncOk : Bool := false
  bkrClosed : Bool := false
  /-- When M5 and M6 were entered. -/
  bsAt : Nat := 0
  syncAt : Nat := 0
  /-- When SYNC_OK first set since the entry into M6 (R202). -/
  syncSet : Option Nat := none
  syncToSeen : Bool := false
  /-- Since when the frequency error has exceeded ISL_DF (R204). -/
  islSince : Option Nat := none
  /-- Start of the profile timer, and since when |G+| has stayed in the recovery band (R205, R206). -/
  rtAt : Option Nat := none
  recSince : Option Nat := none
  /-- VDC has reached DC_READY at the last 1 ms tick (R199). -/
  dcReady : Bool := false
  /-- Reported and not to be reported again until the mode or the quantity leaves: ramp complete, profile entered, profile
  exceeded, chopper above CH_EMAX. -/
  bsDone : Bool := false
  /-- The ramp is complete and M8 not yet asked for: it completed in M10 (R70, R198, R201). -/
  bsWait : Bool := false
  rtIn : Bool := false
  rtOut : Bool := false
  chopSeen : Bool := false
  /-- GF_STAT and GF_RTTIME as the last committed step left them (R212). -/
  stat : Word := 0
  rtUs : Word := 0
  deriving DecidableEq, Repr

/-! ### PWM generators and flag groups (R214 to R233) -/

/-- A duty as staged: in steps, or as a fraction that is converted when its pair takes effect (R217). -/
inductive DutyVal where
  | steps (n : Nat)
  | frac (w : Word)
  deriving DecidableEq, Repr

/-- One generator in one lane. -/
structure GenState where
  /-- The generator has a record and runs. -/
  on : Bool := false
  /-- The tick of the last carrier boundary, and the correction of the running period in counts (R230). -/
  start : Nat := 0
  corr : Int := 0
  /-- Alignment error still to be corrected in later periods, in counts (R230). -/
  errLeft : Int := 0
  /-- PER, duty in steps and as a fraction, in effect. -/
  per : Nat := 0
  duty : Nat := 0
  dutyf : Word := 0
  /-- The PER last accepted (R218). -/
  accPer : Nat := 0
  stPer : Option Nat := none
  stDuty : Option DutyVal := none
  pend : Option (Nat × DutyVal) := none
  /-- When the token of the pending pair arrived (R219). -/
  pendAt : Nat := 0
  /-- A PER whose duty has taken effect at a mid-period or immediate update (R219). -/
  perNext : Option Nat := none
  splitPend : Bool := false
  dt : Nat := 0
  minp : Nat := 0
  dtNext : Option Nat := none
  minpNext : Option Nat := none
  /-- The carry of R221, and the carry that the running period began with. -/
  carry : Int := 0
  carryIn : Int := 0
  acc : Int := 0
  n : Nat := 0
  refill : Bool := false
  /-- 0 none, 1 H short, 2 L short. -/
  short : Fin 3 := 0
  shorts : Word := 0
  refills : Word := 0
  /-- 0 not blocked, 1 mode, 2 outside PRE_SET, 3 flag group; kept until the boundary that resumes (R227). -/
  block : Fin 4 := 0
  /-- When the block began, and whether the half-bridges outside PRE_SET stay blocked until the next boundary (R227). -/
  blockAt : Nat := 0
  preOnly : Bool := false
  /-- The reference just before the running period: 0 low, 1 high, 2 both sides were off (R216). -/
  rWas : Fin 3 := 2
  /-- No carrier boundary has passed since M2 Configure (R230). -/
  fresh : Bool := false
  /-- The fall point of the running period in steps, and the sides held off by CLAMP-OFF. -/
  rFall : Nat := 0
  hOff : Bool := false
  lOff : Bool := false
  deriving DecidableEq, Repr

/-- The generators of one lane. -/
structure PwmState where
  gen : Vector GenState 16 := Vector.replicate 16 {}
  deriving DecidableEq, Repr

/-- The fault sources and flag groups of the gate supervisor (R228, R229). -/
structure FlagGroups where
  /-- Active source numbers. -/
  active : List Nat := [0, 1, 2, 3]
  /-- Groups held by a latch, and the sources that set it. -/
  latched : BitVec 4 := 0
  first : Vector Byte 4 := Vector.replicate 4 0xFF
  /-- FLTINi healthy. -/
  healthy : BitVec 4 := 0
  deriving DecidableEq, Repr

/-! ### Gate channels (R234 to R250) -/

/-- One gate channel. -/
structure Channel where
  /-- 0 no record, 1 unpowered, 2 armed, 3 soft turn-off, 4 retry wait, 5 latched, 6 blocked. -/
  state : Fin 7 := 0
  /-- 0 none, 1 comparator, 2 above I_SC, 3 above I_HARD, 4 open gate, 5 stage failure, 6 rail block. -/
  cause : Fin 7 := 0
  /-- The spare output stage is in use. -/
  spare : Bool := false
  /-- The end of the running or last on-time of the gate command; none: it runs on past the carrier boundary. -/
  onUntil : Option Nat := some 0
  /-- When the gate last turned on, and the latest edge taken or passed over. -/
  onAt : Nat := 0
  edgeAt : Nat := 0
  /-- The current estimate of R238 in units of 2⁻¹⁶ A, and the instant up to which the sense voltage is integrated. -/
  est : Int := 0
  estAt : Nat := 0
  /-- When a rail block last ended an on-pulse (R240). -/
  cutAt : Option Nat := none
  /-- The rails as the comparators see them, and as last reported, in mV. -/
  posMv : Int := 0
  negMv : Int := 0
  repPos : Half := 0
  repNeg : Half := 0
  /-- The positive and the negative rail below its warning level, and below its block level (until the release level). -/
  warnPos : Bool := false
  warnNeg : Bool := false
  lowPos : Bool := false
  lowNeg : Bool := false
  /-- The high side waits for its bootstrap to pass 15.5 V for the first time since the cold start (R237). -/
  boot : Bool := false
  /-- Blanking runs (R239). -/
  blanking : Bool := false
  tripA : Half := 0
  qg : Half := 0
  /-- GCH_IEST and the charge of GCH_QG as last reported (R249). -/
  repA : Half := 0
  repQg : Half := 0
  ogRun : Byte := 0
  trips : Half := 0
  /-- Times of the events of the last 60 s, newest first (R242). -/
  events : List Nat := []
  softEnd : Nat := 0
  /-- A switch-in to the spare stage waits for an off-time (R246): its trigger code and indicator (R368). -/
  swapPend : Option (Nat × Nat) := none
  selfTest : Bool := false
  /-- Marked absent at a start (R77, R366). -/
  absent : Bool := false
  deriving DecidableEq, Repr

/-- A fault event (R241). -/
structure FaultEvent where
  start : Nat
  /-- The channels of the event, the first one first. -/
  chans : List (Fin 32)
  /-- More than 10 µs have passed since the first trip. -/
  closed : Bool := false
  /-- When the retry wait ends, once the last soft turn-off has ended. -/
  waitEnd : Option Nat := none
  deriving DecidableEq, Repr

/-- The gate supervisor's channels. -/
structure GateState where
  ch : Vector Channel 32 := Vector.replicate 32 {}
  sel : BitVec 5 := 0
  /-- Fault events, oldest first. -/
  faults : List FaultEvent := []
  /-- The supervisor blocks every channel: a demand (R319) or the loss of both lanes (R76). -/
  allOff : Bool := false
  fg : FlagGroups := {}
  deriving DecidableEq, Repr

/-! ### Lanes, Tsuin link and latch claims (R251 to R267) -/

/-- How a lane stands (R251, R262, R264). -/
inductive LaneHealth where
  | absent | faulted | selfCheck | mirror | matching | healthy | parked
  deriving DecidableEq, Repr

/-- One lane as the hub sees it. -/
structure LaneClaim where
  claim : Byte := 0
  health : LaneHealth := .absent
  cause : Byte := 0
  /-- Times of the faults that count toward R264, newest first. -/
  faults : List Nat := []
  offline : Bool := false
  /-- Since when the lane has held 0x40 with no DIVERGE, UNAGREED or TB_SKEW (R265). -/
  goodSince : Nat := 0
  /-- When the self-check of a recovery started (R262). -/
  checkAt : Nat := 0
  /-- Contexts mirrored, and matching steps in a row per context (R262). -/
  mirrored : Byte := 0
  matched : Vector (Fin 4) 8 := Vector.replicate 8 0
  /-- The step that matched last, per context. -/
  lastMatch : Vector Nat 8 := Vector.replicate 8 0
  recoveries : Byte := 0
  /-- Signatures formed and not yet compared: context, step, value. -/
  sigs : List (Fin 8 × Nat × Word) := []
  deriving DecidableEq, Repr

/-- A recorded carrier period of a tumbler's source (R216, R259, R260): where its channel's command rises and falls, none:
it has no such edge, and the length, in steps of 78.125 ps. -/
structure RecordedPeriod where
  rise : Option Nat
  fall : Option Nat
  len : Nat
  deriving DecidableEq, Repr

/-- One tumbler. -/
structure Tumbler where
  src : Lane := .a
  hold : Bool := false
  /-- The last recorded boundary, from which a replay is timed. -/
  base : Nat := 0
  /-- A planned handover waits for the other lane's carrier boundary. -/
  planned : Bool := false
  record : Option RecordedPeriod := none
  deriving DecidableEq, Repr

/-- A write that the Tsuin link mirrors to the other lane (R256). -/
inductive MirrorWrite where
  | coef (ctx : Fin 8) (bank : Bool) (index : Nat) (v : Word)
  | bankSwap (ctx : Fin 8)
  | raCtl (v : Word)
  | gfParam (i : Fin 17) (v : Word)
  | gfCommit (vals : List (Fin 17 × Word))
  | pwmPer (g : Fin 16) (v : Word)
  | pwmDuty (g : Fin 16) (v : Word)
  | pwmDutyf (g : Fin 16) (v : Word)
  | pwmCommit (mask : Half)
  | fgClr (mask : BitVec 4)
  | recRelease (mask : Byte)
  deriving DecidableEq, Repr

/-- One channel of the Tsuin link (R256 to R258). -/
structure TsuChannel where
  good : BitVec 5 := 0
  spareUsed : Bool := false
  up : Bool := false
  errs : Half := 0
  /-- Mirrored writes on their way, oldest first (R257). -/
  queue : List MirrorWrite := []
  deriving DecidableEq, Repr

/-- The gate supervisor's claims and tumblers, and the Tsuin link. -/
structure ClaimState where
  a : LaneClaim := {}
  b : LaneClaim := {}
  holdN : BitVec 4 := 2
  prefB : Bool := false
  noRevert : Bool := false
  tum : Vector Tumbler 32 := Vector.replicate 32 {}
  /-- The claims the tumblers have last reacted to (R259). -/
  seenA : Byte := 0
  seenB : Byte := 0
  /-- The senior lane as last noted by the recorders (R337). -/
  senior : Lane := .a
  switches : Half := 0
  ties : Half := 0
  skewErr : Half := 0
  skewMax : Half := 0
  trained : Bool := false
  ab : TsuChannel := {}
  ba : TsuChannel := {}
  unagreed : Word := 0
  deriving DecidableEq, Repr

/-! ### Network ports and time (R268 to R288) -/

/-- An entry of the duplicate table (R270). -/
structure DupEntry where
  src : BitVec 48
  /-- The newest sequence number and the window of the last 64, bit 0 the newest. -/
  last : Half
  window : BitVec 64
  heardAt : Nat
  /-- The port the source was last heard on. -/
  port : Fin 2
  deriving DecidableEq, Repr

/-- A source heard in MODE 1 (R271): the port that alone has heard it since `since`, and when it last did. -/
structure LanHeard where
  src : BitVec 48
  port : Fin 2
  since : Nat
  lastAt : Nat
  deriving DecidableEq, Repr

/-- One Ethernet port. -/
structure NetPort where
  link : Bool := false
  /-- 0: no link, 1: 100 Mbit/s, 2: 1000 Mbit/s. -/
  speed : Fin 3 := 0
  cnt : Vector Word 10 := Vector.replicate 10 0
  /-- The mean peer delay in 78.125 ps steps (R274). -/
  peerDelay : Int := 0
  pdelaySeq : Half := 0
  deriving DecidableEq, Repr

/-- The network ports. -/
structure NetState where
  port : Vector NetPort 2 := Vector.replicate 2 {}
  /-- The port records have been applied (step 14 of R77). -/
  on : Bool := false
  mode : Fin 4 := 0
  stopped : Bool := false
  mac : BitVec 48 := Config.factoryMac
  ip : Word := 0
  cntPort : Bool := false
  cntIndex : BitVec 4 := 0
  /-- Sequence number of the next redundant frame. -/
  txSeq : Half := 0
  dup : List DupEntry := []
  /-- The sources heard while both links are up in MODE 1, and the one that sets LAN_FAULT (R271). -/
  heard : List LanHeard := []
  lanFault : Option (BitVec 48) := none
  deriving DecidableEq, Repr

/-- A domain's anchor (R278): raw counter, time in units of 2⁻⁴¹ ns, rate in units of 2⁻⁴⁰. -/
structure Anchor where
  raw : Long := 0
  t : Int := 0
  rate : Int := 0
  deriving DecidableEq, Repr

/-- One time domain (R278, R279). -/
structure TimeDomain where
  /-- 0 Off, 1 Free-running, 2 Acquiring, 3 Locked, 4 Holdover. -/
  state : Fin 5 := 0
  /-- 0 none, 1 PTP, 2 PPS_IN. -/
  source : Fin 3 := 0
  domain : Byte := 0
  port : Fin 2 := 0
  anchor : Anchor := {}
  /-- Earlier anchors with the raw value they held until, newest first (R284). -/
  history : List (Long × Anchor) := []
  offset : Int := 0
  /-- The raw tick of the last Sync or pulse that measured an offset. -/
  lastSync : Long := 0
  /-- Consecutive offsets within 1 µs, and beyond 10 µs. -/
  good : Nat := 0
  bad : Nat := 0
  /-- The offset is larger than STEP_THR and its step is held (R280). -/
  deferred : Bool := false
  master : Option Announce := none
  /-- When the last Announce of the master arrived (R274). -/
  announceAt : Nat := 0
  gmId : Long := 0
  utcOffset : Half := 0
  utcValid : Bool := false
  /-- When the domain last entered Locked (R281). -/
  lockedAt : Nat := 0
  deriving DecidableEq, Repr

/-- The time block in AON. -/
structure TimeState where
  dom : Vector TimeDomain 2 := Vector.replicate 2 {}
  sel : Fin 2 := 0
  noRevert : Bool := false
  force : BitVec 2 := 0
  /-- The residual R in units of 2⁻⁴¹ ns at the raw tick `residAt` (R281). -/
  resid : Int := 0
  residAt : Long := 0
  /-- The selected domain and residual of earlier times, each with the raw value they held until, newest first (R284). -/
  selHistory : List (Long × Fin 2 × Int × Long) := []
  stepThr : Nat := 1000000000
  slewMax : Nat := 1000
  revertS : Nat := 60
  /-- Latches of R283: RAWHI; SECHI and NSEC of the timeline; of D0; of D1. -/
  rawHi : Word := 0
  secHi : Vector Half 3 := Vector.replicate 3 0
  nsec : Vector Word 3 := Vector.replicate 3 0
  /-- The second that the next PPS marks (R282). -/
  ppsSec : Word := 0
  /-- When PPS_IN last rose. -/
  ppsAt : Nat := 0
  cvRaw : Long := 0
  /-- The domain of a conversion in progress. -/
  cvBusy : Option (Fin 3) := none
  cvAt : Nat := 0
  cvSec : BitVec 48 := 0
  cvNsec : Word := 0
  cvDone : Bool := false
  cvOld : Bool := false
  /-- The next and the last trigger of each context as raw ticks (R285). -/
  nextTrig : Vector (Option Long) 8 := Vector.replicate 8 none
  lastTrig : Vector (Option Long) 8 := Vector.replicate 8 none
  deriving DecidableEq, Repr

/-! ### CAN FD ports (R289 to R302) -/

/-- A frame in the receive FIFO (R292, R293). -/
structure CanRx where
  frame : CanFrame
  filter : BitVec 4
  stamp : Long
  deriving DecidableEq, Repr

/-- A transmit buffer (R294). -/
structure CanTx where
  hdr : Word := 0
  info : Word := 0
  data : Vector Word 16 := Vector.replicate 16 0
  stamp : Long := 0
  pend : Bool := false
  done : Bool := false
  failed : Bool := false
  attempts : Nat := 0
  /-- An abort came while the frame was on the bus. -/
  abort : Bool := false
  deriving DecidableEq, Repr

/-- One CAN port. -/
structure CanState where
  /-- 0 off, 1 integrating, 2 error active, 3 error passive, 4 bus-off, 5 suspended. -/
  state : Fin 6 := 0
  /-- The port failed its step of the start (R77). -/
  absent : Bool := false
  mode : BitVec 2 := 0
  useDet : Bool := false
  /-- 0 none, 1 to 5: 125, 250, 500, 800, 1000 kbit/s. -/
  detRate : Fin 6 := 0
  /-- The rate being tried in MODE 2, and since when (R295). -/
  tryRate : Fin 5 := 0
  tryAt : Nat := 0
  /-- A rate has been found in MODE 2. -/
  found : Bool := false
  lec : BitVec 3 := 0
  alone : Bool := false
  txErr : Nat := 0
  rxErr : Nat := 0
  bitErr : BitVec 7 := 0
  ackRun : Byte := 0
  rx : List CanRx := []
  ovf : Half := 0
  buf : Vector CanTx 8 := Vector.replicate 8 {}
  /-- The buffer whose attempt runs. -/
  onBus : Option (Fin 8) := none
  /-- Bus-off recovery has started (R296). -/
  recovering : Bool := false
  /-- Since when the port waits for its recessive bits: to integrate, or to recover from bus-off. -/
  waitFrom : Nat := 0
  /-- The nominal rate in MODE 0: 0 the record's, else the detected one as in `detRate` (R295). -/
  rate : Fin 6 := 0
  deriving DecidableEq, Repr

/-! ### Field inputs and outputs (R303 to R316) -/

/-- One field input. -/
structure FieldIn where
  level : Bool := false
  /-- The filter has passed since the supply recovered (R305). -/
  passed : Bool := false
  wb : Bool := false
  riseTs : Long := 0
  fallTs : Long := 0
  edges : Half := 0
  ua : BitVec 12 := 0
  deriving DecidableEq, Repr

/-- One field output. -/
structure FieldOut where
  /-- The command of the host, and of an owning function. -/
  cmd : Bool := false
  fn : Bool := false
  limit : Bool := false
  thermal : Bool := false
  ext : Bool := false
  darkFail : Bool := false
  lightFail : Bool := false
  readback : Bool := false
  /-- The next test does not start before (R313). -/
  notBefore : Nat := 0
  deriving DecidableEq, Repr

/-- The field-I/O die and its hub side. -/
structure FioState where
  /-- The die has started (step 13 of R77) and has a record. -/
  on : Bool := false
  /-- 0 normal, 1 warning, 2 lost, 3 recovering. -/
  fs : Fin 4 := 2
  fsHigh : Bool := false
  lpMv : Int := 0
  lpv : Half := 0
  /-- Since when L+ has been above 33.0 V, and within 17.0 V to 31.0 V while recovering. -/
  highSince : Option Nat := none
  okSince : Option Nat := none
  /-- When the supply last recovered (R305). -/
  recoverAt : Nat := 0
  /-- The first pass through Recovering since the die started (R304). -/
  first : Bool := true
  linkOk : Bool := false
  lastExch : Nat := 0
  /-- The spare coupler lane is in use (R303). -/
  spareLane : Bool := false
  inp : Vector FieldIn 16 := Vector.replicate 16 {}
  out : Vector FieldOut 8 := Vector.replicate 8 {}
  testBusy : Bool := false
  testOut : Fin 8 := 0
  testLight : Bool := false
  testAt : Nat := 0
  /-- When the next round starts, the outputs left of the running round, and when the last test ended (R312). -/
  roundAt : Option Nat := none
  roundLeft : List (Fin 8) := []
  lastTestEnd : Nat := 0
  passed : Half := 0
  discards : Half := 0
  sel : BitVec 4 := 0
  deriving DecidableEq, Repr

/-! ### Pulse lock (R317 to R334) -/

/-- One black-channel connection (R331). -/
structure Conn where
  /-- 0 unused, 1 starting, 2 running, 3 failed. -/
  state : Fin 4 := 0
  seq : Half := 0
  err : BitVec 4 := 0
  run : Bool := false
  crcCnt : Half := 0
  fails : Half := 0
  /-- Consecutive valid frames in sequence; 0: none accepted yet. -/
  good : Nat := 0
  lastAt : Nat := 0
  txSeq : Half := 0
  txAt : Nat := 0
  /-- The RESET bit of the last accepted frame, since when it has been set while running, and, once it has fallen, how long
  it was set (R324). -/
  reset : Bool := false
  resetAt : Option Nat := none
  resetLen : Option Nat := none
  deriving DecidableEq, Repr

/-- The safety island. Password failures, the lockout, the change log and the last passed test persist over starts. -/
structure PlkState where
  /-- A demand has been acted on and the module is held in M11. -/
  locked : Bool := false
  source : BitVec 4 := 0
  testDue : Bool := false
  testCause : BitVec 4 := 0
  /-- The reduced diagnosis as last evaluated. -/
  reduced : Bool := false
  self : Bool := false
  readback : Bool := false
  pulse : Bool := false
  /-- A safety-relevant unit failed at the cold start (R77). -/
  startFail : Bool := false
  /-- The sources that were active at the last evaluation, as a bitmap by source number. -/
  seen : BitVec 16 := 0
  /-- The stamp of the fall of RST_DI last judged (R324). -/
  rstSeen : Long := 0
  /-- Enable lines that SAFE toggles, and detectors that are on. -/
  lines : Word := 0
  enabled : Word := 0
  /-- The detector states that the channels last reported (R318). -/
  reported : Word := 0
  /-- When the enable lines last stopped, and when the demand that stopped them began. -/
  stopAt : Nat := 0
  demandAt : Nat := 0
  /-- The response time is still being measured. -/
  respRun : Bool := false
  resp : Half := 0
  lastTest : Word := 0
  /-- The safety payload that last passed its test, and the timeline seconds of the pass. -/
  passedRec : Option (List Byte) := none
  passedSec : Option Nat := none
  /-- A supply pulse runs; until when both inputs are masked. -/
  pulseRun : Bool := false
  maskUntil : Nat := 0
  /-- Since when GUARD_DI has read 0, and whether every channel read off within 500 µs of that demand (R326). -/
  guardLow : Option Nat := none
  guardOff : Bool := false
  /-- A channel did not read off in time for the demand of GUARD_DI that runs. -/
  guardFail : Bool := false
  conn : Vector Conn 8 := Vector.replicate 8 {}
  conSel : BitVec 3 := 0
  /-- Time left of the degraded-mode limit when M10 was left, and when that was (R323). -/
  degrLeft : Nat := 0
  degrLeftAt : Option Nat := none
  pwFails : Byte := 0
  /-- The length of the last lockout in seconds, and its end while it runs. -/
  lockLen : Nat := 0
  lockEnd : Option Nat := none
  /-- Change-log entries, newest first, at most 1024 (R328). -/
  log : List (List Byte) := []
  logCnt : Word := 0
  logEntry : BitVec 10 := 0
  logWord : BitVec 4 := 0
  deriving DecidableEq, Repr

/-! ### Disturbance recorder (R335 to R349) -/

/-- A stamped trigger (R340). -/
structure RecTrigger where
  ticks : Long
  frac : Nat
  src : Nat
  deriving DecidableEq, Repr

/-- The record that runs in the current segment. -/
structure RecRun where
  startAt : Nat := 0
  /-- Raw and decimated frames written to this segment, and marks written. -/
  raw : Nat := 0
  dec : Nat := 0
  marks : Nat := 0
  marksLost : Bool := false
  trig : Option RecTrigger := none
  xlane : Bool := false
  /-- The numbers of the trigger frames, once written. -/
  rawTrig : Option Nat := none
  decTrig : Option Nat := none
  /-- Frames after the trigger frame that the post-trigger part has grown to. -/
  postRaw : Nat := 0
  postDec : Nat := 0
  retrig : Half := 0
  extended : Bool := false
  /-- A retrigger whose frame is still to come extends the parts from it (R344). -/
  extRaw : Option Long := none
  extDec : Option Long := none
  /-- When the last part was filled. -/
  doneAt : Option Nat := none
  deadNs : Nat := 0
  missed : Half := 0
  missTicks : Long := 0
  deriving DecidableEq, Repr

/-- The recorder of one lane. -/
structure RecState where
  running : Bool := false
  /-- 0 free, 1 recording, 2 filling post-trigger, 3 held. -/
  seg : Vector (Fin 4) 8 := Vector.replicate 8 0
  /-- The segment recording; none: every segment is held. -/
  cur : Option (Fin 8) := none
  run : RecRun := {}
  /-- When the dead time began, while no segment records. -/
  deadFrom : Nat := 0
  missed : Word := 0
  nextMissed : Half := 0
  nextMissTicks : Long := 0
  seq : Nat := 0
  lastSeq : BitVec 24 := 0
  lastSeg : BitVec 3 := 0
  lastDead : Word := 0
  /-- The instant being assembled and its codes so far: pin, code bytes. -/
  frameAt : Nat := 0
  frame : List (Nat × List Byte) := []
  /-- Committed steps of DEC_CTX since the last decimated frame. -/
  decCnt : Nat := 0
  sel : BitVec 5 := 0
  skew : Vector Half 32 := Vector.replicate 32 0
  meas : Vector Half 32 := Vector.replicate 32 0
  /-- Sources of the TRIG list that have become active and are still to be stamped: number and raw tick (R338, R340). -/
  due : List (Nat × Long) := []
  /-- Triggers sent by the other lane, oldest first (R339). -/
  xin : List RecTrigger := []
  deriving DecidableEq, Repr

/-! ### Host protocol, results and deadbolt (R350 to R361) -/

/-- A request accepted and not yet answered (R353). -/
structure HostRequest where
  tag : Half := 0
  cmd : Byte := 0
  payload : List Byte := []
  ip : Word := 0
  sport : Half := 0
  deriving DecidableEq, Repr

/-- A frame of an outbound queue: the bytes and, on the network, where they go. -/
structure HostFrame where
  bytes : List Byte := []
  ip : Word := 0
  sport : Half := 0
  deriving DecidableEq, Repr

/-- One host port (R353, R356). -/
structure HostPortState where
  queue : List HostRequest := []
  out : List HostFrame := []
  sub : BitVec 256 := 0
  /-- Subscribed pennants raised since the last notification, and the raw tick of the first. -/
  pend : BitVec 256 := 0
  first : Long := 0
  nseq : Word := 0
  lastNotif : Option Nat := none
  /-- Where notifications go: the source of the last SUBSCRIBE. -/
  destIp : Word := 0
  destPort : Half := 0
  /-- The stored responses of the network port, newest first (R351). -/
  store : List (Half × HostFrame) := []
  errCnt : Half := 0
  deriving DecidableEq, Repr

/-- A running mailbox operation (R357). -/
structure RunningOp where
  op : Byte := 0
  port : HostPort := .hsp
  args : Word × Word × Word × Word := (0, 0, 0, 0)
  startedAt : Nat := 0
  /-- SNAPSHOT: STEP and nodes of the committed state; REC_WAIT: SEQ and segment; CAN_SEND: the stamp of the attempt. -/
  done : Option (Word × Word) := none
  /-- SNAPSHOT: the node values of that state. -/
  taken : List Word := []
  deriving DecidableEq, Repr

/-- One result mailbox (R357, R358). -/
structure Mailbox where
  running : Option RunningOp := none
  posted : Bool := false
  readMark : Bool := false
  seq : Half := 0
  op : Byte := 0
  status : BitVec 4 := 0
  res : Vector Word 4 := Vector.replicate 4 0
  deriving DecidableEq, Repr

/-- A deadbolt that has won the arbiter and waits for its target to stop (R359). -/
structure PendingBolt where
  target : Byte
  port : Option HostPort
  tag : Half
  req : HostRequest
  /-- When it arrived at the processor. -/
  at0 : Nat
  deriving DecidableEq, Repr

/-- The host command processor and the pennant board. -/
structure HostState where
  hsp : HostPortState := {}
  net : HostPortState := {}
  mbox : Vector Mailbox 16 := Vector.replicate 16 {}
  seq : Half := 0
  bolts : List PendingBolt := []
  dbTarget : Byte := 0
  dbStatus : BitVec 4 := 0
  mbSel : BitVec 4 := 0
  latched : Vector Word 4 := Vector.replicate 4 0
  raised : BitVec 256 := 0
  /-- Raises since start, sparse by pennant number. -/
  counts : List (Nat × Half) := []
  cntSel : Byte := 0
  deriving DecidableEq, Repr

/-! ### Wear, spares and hinge swaps (R362 to R370) -/

/-- A swap-log entry before its SEQ and CRC are added (R368). -/
structure SwapEntry where
  res : Byte
  lane : Byte
  unit : Half
  spare : Byte
  trigger : Byte
  left : Half
  sec : BitVec 48
  mode : Half
  nsec : Word
  indicator : Word
  deriving DecidableEq, Repr

/-- One assignment of the repair map (R364). -/
structure Repair where
  res : Byte
  lane : Byte
  unit : Half
  spare : Byte
  deriving DecidableEq, Repr

/-- The wear manager. The log and the written repair map persist over every start. -/
structure WearState where
  /-- Spares in use, at 3 × resource + lane (2: hub or module). -/
  used : Vector Half 30 := Vector.replicate 30 0
  /-- A trigger has found none, at 3 × resource + lane (R367). -/
  outSeen : Vector Bool 30 := Vector.replicate 30 false
  sel : Word := 0
  /-- Corrected errors since start: lane A, lane B, shared SRAM. -/
  ecc : Vector Word 3 := Vector.replicate 3 0
  /-- Corrected errors of the last 24 h: lane, bank, row, time; newest first. -/
  eccLog : List (Fin 3 × Nat × Nat × Nat) := []
  /-- SRAM rows and banks whose swap is running, with its start: lane, bank, row, time. -/
  rowSwaps : List (Lane × Nat × Nat × Nat) := []
  bankSwaps : List (Lane × Nat × Nat) := []
  /-- Flash blocks that are replaced at their next erase, by 256 × page + block. -/
  flashDue : List Nat := []
  /-- Spare rows used in each bank of each lane, sparse by 64 × lane + bank. -/
  rowsUsed : List (Nat × Half) := []
  /-- Entries not yet written, oldest first. -/
  queue : List SwapEntry := []
  /-- Entries written, newest first, as bytes. -/
  log : List (List Byte) := []
  logCnt : Word := 0
  logSel : Word := 0
  repairs : List Repair := []
  /-- The repair map in force in the log area, and its generation. -/
  written : List Repair := []
  mapGen : Word := 0
  /-- When the repair map changed without having been written. -/
  mapDirty : Option Nat := none
  /-- Brown-out records written (R74). -/
  brownRecords : Nat := 0
  deriving DecidableEq, Repr

/-! ### The whole machine -/

/-- What the block has sent to the outside, oldest first (log entry 5). -/
inductive Sent where
  /-- The answer to a transfer of a master: the data of a read, and whether it ended in a bus error. -/
  | bus (m : Master) (data : List Byte) (err : Bool)
  /-- An Ethernet frame of a port: 1 ARP reply, 2 echo reply, 3 UDP, 4 PTP, 5 supervision, 6 forwarded, 7 echo request
  (R268 to R276, R351, R357). `dst` is the destination address; of kinds 3 and 7 the IPv4 address times 65 536 plus the
  UDP port. `vlan` is the tag control word of an 802.1Q tag (R272). -/
  | eth (port : Nat) (kind : Nat) (dst : Nat) (seq : Option Half) (vlan : Option Half) (payload : List Byte)
  /-- A frame clocked out on HSP (R350). -/
  | hsp (bytes : List Byte)
  /-- A CAN frame (R294). -/
  | can (port : Nat) (hdr info : Word) (data : List Byte)
  /-- A safety status frame of a connection (R329). -/
  | safety (k : Nat) (bytes : List Byte)
  deriving DecidableEq, Repr

/-- The blocks of one lane. -/
structure LaneState where
  meas : MeasState := {}
  eng : EngState := {}
  ra : RaState := {}
  gf : GfState := {}
  pwm : PwmState := {}
  rcd : RecState := {}
  /-- Lane SRAM, sparse by offset in the lane window; an unlisted byte reads 0 (log entry 6). -/
  sram : List (Nat × Byte) := []
  deriving DecidableEq, Repr

/-- The GF16. -/
structure State where
  /-- Time since the module was made, in 2.5 ns ticks; it does not stand still in M0 (log entry 3). -/
  now : Nat := 0
  /-- The raw counter (R277). -/
  raw : Long := 0
  /-- The number of free values used so far: the model's own field (log entry 4). -/
  fresh : Nat := 0
  /-- When each periodic event last happened, sparse by kind (log entry 3). -/
  ticks : List (Nat × Nat) := []
  /-- The event registers of the blocks, in the order of `EvReg`. -/
  events : Vector Word 30 := Vector.replicate 30 0
  /-- Commands waiting, the oldest first. -/
  pending : List Instr := []
  power : PowerState := {}
  clock : ClockState := {}
  mode : ModeState := {}
  key : KeyState := {}
  mesh : MeshState := {}
  laneA : LaneState := {}
  laneB : LaneState := {}
  gate : GateState := {}
  claim : ClaimState := {}
  net : NetState := {}
  time : TimeState := {}
  can : Vector CanState 2 := Vector.replicate 2 {}
  fio : FioState := {}
  plk : PlkState := {}
  host : HostState := {}
  wear : WearState := {}
  /-- Shared SRAM, sparse by address; an unlisted byte reads 0 (log entry 6). -/
  sram : List (Nat × Byte) := []
  outbox : List Sent := []
  deriving DecidableEq, Repr

/-- Why the block stops. -/
inductive Fault where
  /-- A command is issued under master ID 14 or 15, which R18 never issues. Raised by every command that names a
  master. Safe: the hardware has no such command. -/
  | neverIssued
  deriving DecidableEq, Repr

/-- Why a command is not taken. -/
inductive Refusal where
  /-- The model has no meaning for the command. Raised by the arms of exec that are not written. Safe. -/
  | notModelled (mnemonic : String)
  deriving DecidableEq, Repr

/-- The module as manufactured, before VBUS rises (R29, R70): every register at its reset value (log entry 1). -/
def State.reset : State := {}

end Sys2Proof.Machine
end

