-- ==== Sys2Proof/Machine/Flags.lean ====
section
/-! DEFINITION. Event registers, the pennant board and what a raise does (R355, R356, and the event rules of every
chapter: each bit of an event register raises the pennant of the same name). -/

namespace Sys2Proof.Machine

/-- The event registers of the register map. -/
inductive EvReg where
  | mode | pwr | clk | key | mesh | acc | gch | clm | net | time | can0 | can1 | fio | plk | hcp | wear
  | meas (l : Lane) | flt (l : Lane) | eng (l : Lane) | ra (l : Lane) | gf (l : Lane) | pwm (l : Lane) | rcd (l : Lane)
  deriving DecidableEq, Repr

/-- Offset of a lane's registers in the list of events. -/
def laneOff : Lane → Nat
  | .a => 16
  | .b => 23

/-- Place of an event register in State.events. -/
def EvReg.slot : EvReg → Nat
  | .mode => 0 | .pwr => 1 | .clk => 2 | .key => 3 | .mesh => 4 | .acc => 5 | .gch => 6 | .clm => 7
  | .net => 8 | .time => 9 | .can0 => 10 | .can1 => 11 | .fio => 12 | .plk => 13 | .hcp => 14 | .wear => 15
  | .meas l => laneOff l | .flt l => laneOff l + 1 | .eng l => laneOff l + 2 | .ra l => laneOff l + 3
  | .gf l => laneOff l + 4 | .pwm l => laneOff l + 5 | .rcd l => laneOff l + 6

/-- Pennant number of bit 0 of an event register (R355). -/
def EvReg.base : EvReg → Nat
  | .mode => 0 | .pwr => 9 | .clk => 20 | .key => 33 | .mesh => 40 | .acc => 44 | .gch => 45 | .clm => 54
  | .net => 68 | .time => 72 | .can0 => 79 | .can1 => 89 | .fio => 99 | .plk => 110 | .hcp => 120 | .wear => 128
  | .meas .a => 144 | .flt .a => 153 | .eng .a => 155 | .ra .a => 166 | .gf .a => 172 | .pwm .a => 184 | .rcd .a => 191
  | .meas .b => 197 | .flt .b => 206 | .eng .b => 208 | .ra .b => 219 | .gf .b => 225 | .pwm .b => 237 | .rcd .b => 244

/-- GP_FAULT and GP_REFUSED have no event bit (R355). -/
def pntGpFault : Nat := 250

/-- The pennant of a discarded PWR_GPCTL write (R39, R355). -/
def pntGpRefused : Nat := 251

/-- A host port notes a raised pennant it subscribes to (R356): the bitmap, and the raw tick of the first. -/
def notePort (raw : Long) (n : Nat) (p : HostPortState) : HostPortState :=
  if bit p.sub n then
    { p with pend := putBit p.pend n true, first := if p.pend = 0 then raw else p.first }
  else p

/-- The board latches pennant n, counts the raise, and each port notes it (R355, R356, R361). -/
def raisePennant (n : Nat) (s : State) : State :=
  { s with host := { s.host with
      raised := putBit s.host.raised n true,
      counts := sparsePut 0 s.host.counts n (satInc (sparseGet 0 s.host.counts n)),
      hsp := notePort s.raw n s.host.hsp,
      net := notePort s.raw n s.host.net } }

/-- Event bit k of a register is latched and its pennant raised (R6, R355). -/
def raise (r : EvReg) (k : Nat) (s : State) : State :=
  raisePennant (r.base + k) { s with events := put' s.events r.slot (putBit (at' s.events r.slot 0) k true) }

/-- Raise where a condition holds. -/
def raiseIf (c : Bool) (r : EvReg) (k : Nat) (s : State) : State := if c then raise r k s else s

/-- The value of an event register. -/
def eventsOf (r : EvReg) (s : State) : Word := at' s.events r.slot 0

/-- W1C: the ones of v clear their bits (R6). -/
def clearEvents (r : EvReg) (v : Word) (s : State) : State :=
  { s with events := put' s.events r.slot (at' s.events r.slot 0 &&& ~~~v) }

end Sys2Proof.Machine
end

