-- ==== Sys2Proof/Machine/Ops.lean ====
section
/-! DEFINITION. The operations that commands of several blocks share: lanes, time, records of the running image, free
values, memories, mode triggers, the timeline, spares, marks of the recorder and the logs. -/

namespace Sys2Proof.Machine

/-- What exec answers. -/
abbrev Out := Host.Outcome State Fault Refusal

/-- A command of a master: IDs 14 and 15 are never issued (R18). -/
def byMaster (m : Master) (s : State) (f : State → State) : Out :=
  if m.toNat < 14 then .next (f s) else .fault .neverIssued

/-- One change after another. -/
def foldS {α : Type} (xs : List α) (f : α → State → State) (s : State) : State := xs.foldl (fun t x => f x t) s

/-- A change made where a condition holds. -/
def when (c : Bool) (f : State → State) (s : State) : State := if c then f s else s

/-! ### One block changed -/

/-- The power manager changed. -/
def modPower (f : PowerState → PowerState) (s : State) : State := { s with power := f s.power }

/-- The clock synthesis changed. -/
def modClock (f : ClockState → ClockState) (s : State) : State := { s with clock := f s.clock }

/-- The mode controller changed. -/
def modMode (f : ModeState → ModeState) (s : State) : State := { s with mode := f s.mode }

/-- The keyring changed. -/
def modKey (f : KeyState → KeyState) (s : State) : State := { s with key := f s.key }

/-- The mesh changed. -/
def modMesh (f : MeshState → MeshState) (s : State) : State := { s with mesh := f s.mesh }

/-- The gate supervisor changed. -/
def modGate (f : GateState → GateState) (s : State) : State := { s with gate := f s.gate }

/-- The claims and the Tsuin link changed. -/
def modClaim (f : ClaimState → ClaimState) (s : State) : State := { s with claim := f s.claim }

/-- The network ports changed. -/
def modNet (f : NetState → NetState) (s : State) : State := { s with net := f s.net }

/-- The time block changed. -/
def modTime (f : TimeState → TimeState) (s : State) : State := { s with time := f s.time }

/-- The field I/O changed. -/
def modFio (f : FioState → FioState) (s : State) : State := { s with fio := f s.fio }

/-- The pulse lock changed. -/
def modPlk (f : PlkState → PlkState) (s : State) : State := { s with plk := f s.plk }

/-- The host command processor changed. -/
def modHost (f : HostState → HostState) (s : State) : State := { s with host := f s.host }

/-- The wear manager changed. -/
def modWear (f : WearState → WearState) (s : State) : State := { s with wear := f s.wear }

/-- One CAN port changed. -/
def modCan (p : Fin 2) (f : CanState → CanState) (s : State) : State := { s with can := modAt s.can p f }

/-- Something leaves the block (log entry 5). -/
def send (x : Sent) (s : State) : State := { s with outbox := s.outbox ++ [x] }

/-! ### Lanes -/

/-- The other lane. -/
def otherLane : Lane → Lane
  | .a => .b
  | .b => .a

/-- Lane 0 is A, lane 1 is B. -/
def laneNum : Lane → Nat
  | .a => 0
  | .b => 1

/-- Both lanes. -/
def lanes : List Lane := [.a, .b]

/-- The lane of a number. -/
def laneOf (n : Nat) : Lane := if n % 2 = 0 then .a else .b

/-- The blocks of a lane. -/
def State.lane (s : State) : Lane → LaneState
  | .a => s.laneA
  | .b => s.laneB

/-- The blocks of a lane replaced. -/
def State.setLane (s : State) (l : Lane) (x : LaneState) : State :=
  match l with
  | .a => { s with laneA := x }
  | .b => { s with laneB := x }

/-- The measurement block of a lane changed. -/
def modMeas (l : Lane) (f : MeasState → MeasState) (s : State) : State :=
  s.setLane l { s.lane l with meas := f (s.lane l).meas }

/-- One pin of a lane changed. -/
def modPin (l : Lane) (p : Fin 32) (f : PinState → PinState) (s : State) : State :=
  modMeas l (fun m => { m with pin := modAt m.pin p f }) s

/-- The loop engine of a lane changed. -/
def modEng (l : Lane) (f : EngState → EngState) (s : State) : State :=
  s.setLane l { s.lane l with eng := f (s.lane l).eng }

/-- One context of a lane's engine changed. -/
def modCtx (l : Lane) (c : Fin 8) (f : EngCtx → EngCtx) (s : State) : State :=
  modEng l (fun e => { e with ctx := modAt e.ctx c f }) s

/-- The run-ahead of a lane changed. -/
def modRa (l : Lane) (f : RaState → RaState) (s : State) : State :=
  s.setLane l { s.lane l with ra := f (s.lane l).ra }

/-- One context of a lane's run-ahead changed. -/
def modRaCtx (l : Lane) (c : Fin 8) (f : RaCtx → RaCtx) (s : State) : State :=
  modRa l (fun r => { r with ctx := modAt r.ctx c f }) s

/-- The grid-forming block of a lane changed. -/
def modGf (l : Lane) (f : GfState → GfState) (s : State) : State :=
  s.setLane l { s.lane l with gf := f (s.lane l).gf }

/-- One generator of a lane changed. -/
def modGen (l : Lane) (g : Fin 16) (f : GenState → GenState) (s : State) : State :=
  s.setLane l { s.lane l with pwm := { (s.lane l).pwm with gen := modAt (s.lane l).pwm.gen g f } }

/-- The recorder of a lane changed. -/
def modRec (l : Lane) (f : RecState → RecState) (s : State) : State :=
  s.setLane l { s.lane l with rcd := f (s.lane l).rcd }

/-- One gate channel changed. -/
def modCh (c : Fin 32) (f : Channel → Channel) (s : State) : State :=
  { s with gate := { s.gate with ch := modAt s.gate.ch c f } }

/-- The claim record of a lane. -/
def State.lc (s : State) : Lane → LaneClaim
  | .a => s.claim.a
  | .b => s.claim.b

/-- The claim record of a lane changed. -/
def modLc (l : Lane) (f : LaneClaim → LaneClaim) (s : State) : State :=
  match l with
  | .a => { s with claim := { s.claim with a := f s.claim.a } }
  | .b => { s with claim := { s.claim with b := f s.claim.b } }

/-- The Tsuin channel that leaves a lane. -/
def tsuOut (s : State) : Lane → TsuChannel
  | .a => s.claim.ab
  | .b => s.claim.ba

/-- The Tsuin channel that leaves a lane changed. -/
def modTsu (l : Lane) (f : TsuChannel → TsuChannel) (s : State) : State :=
  match l with
  | .a => { s with claim := { s.claim with ab := f s.claim.ab } }
  | .b => { s with claim := { s.claim with ba := f s.claim.ba } }

/-! ### Time (log entry 3) -/

/-- Microseconds in ticks of 2.5 ns. -/
def us (n : Nat) : Nat := 400 * n

/-- Milliseconds in ticks. -/
def ms (n : Nat) : Nat := 400000 * n

/-- Seconds in ticks. -/
def secs (n : Nat) : Nat := 400000000 * n

/-- The raw counter counts (R277): AON runs, and a TCXO or the timebase of a lane whose SYS PLL is referenced to a
qualified REF10. -/
def rawRuns (s : State) : Bool :=
  let c := s.clock
  s.power.powered && (c.tcxoP || c.tcxoS || (c.ref10 && (decide (c.sysA.ref = .ref10) || decide (c.sysB.ref = .ref10))))

/-- Time passes, and the raw counter with it where it counts. -/
def advance (n : Nat) (s : State) : State :=
  { s with now := s.now + n, raw := if rawRuns s then s.raw + BitVec.ofNat 64 n else s.raw }

/-- Time passes up to a due time. -/
def elapseTo (t : Nat) (s : State) : State := advance (t - s.now) s

/-- When a periodic event last happened. -/
def lastTick (k : Nat) (s : State) : Nat := sparseGet 0 s.ticks k

/-- A periodic event happens: its period has passed since it last did. -/
def periodic (k period : Nat) (s : State) : State :=
  let s' := elapseTo (lastTick k s + period) s
  { s' with ticks := sparsePut 0 s'.ticks k s'.now }

/-- A periodic event is counted from now. -/
def startTick (k : Nat) (s : State) : State := { s with ticks := sparsePut 0 s.ticks k s.now }

/-! ### The mode, the image and free values -/

/-- The present mode code. -/
def State.md (s : State) : Nat := s.mode.mode.toNat

/-- M4 to M10. -/
def inRun (s : State) : Bool := decide (4 ≤ s.md ∧ s.md ≤ 10)

/-- M3 or M11. -/
def inStop (s : State) : Bool := s.md == 3 || s.md == 11

/-- A record of the running image (R84). -/
def recOf (s : State) (type inst : Nat) : Option (List Byte) :=
  (s.key.records.find? fun r => r.type == type && r.inst == inst).map (·.payload)

/-- A record of the running image is present. -/
def hasRec (s : State) (type inst : Nat) : Bool := (recOf s type inst).isSome

/-- A record's payload, empty where it is absent: every field then reads 0. -/
def recD (s : State) (type inst : Nat) : List Byte := (recOf s type inst).getD []

/-- The next free value, and the state that has used it (log entry 4). -/
def takeFree (s : State) : Nat × State := (Config.freeNat s.fresh, { s with fresh := s.fresh + 1 })

/-- The master that a host port carries (R19). -/
def portMaster : HostPort → Master
  | .hsp => 6
  | .net => 7

/-! ### Mailbox operations that wait for an event (R357) -/

/-- An event that running operations with these arguments have waited for: its result words, and the words taken. -/
def opEvent (op a0 a1 : Nat) (r : Word × Word) (taken : List Word) (s : State) : State :=
  { s with host := { s.host with mbox := s.host.mbox.map fun x => { x with running := x.running.map fun o =>
      if o.op.toNat = op && o.args.1.toNat = a0 && (o.args.2.1.toNat = a1 || op = 5) && o.done.isNone then
        { o with done := some r, taken := taken }
      else o } } }

/-! ### Memories -/

/-- Bytes of a lane's SRAM at an offset of the lane window. -/
def laneBytes (l : Lane) (off n : Nat) (s : State) : List Byte := sparseRange 0 (s.lane l).sram off n

/-- Bytes written to a lane's SRAM. -/
def laneWrite (l : Lane) (off : Nat) (bs : List Byte) (s : State) : State :=
  s.setLane l { s.lane l with sram := sparsePutAll 0 (s.lane l).sram off bs }

/-- Bytes of shared SRAM at an address. -/
def sharedBytes (a n : Nat) (s : State) : List Byte := sparseRange 0 s.sram a n

/-- Bytes written to shared SRAM. -/
def sharedWrite (a : Nat) (bs : List Byte) (s : State) : State := { s with sram := sparsePutAll 0 s.sram a bs }

/-! ### Mode triggers (R70, R72) -/

/-- Precedence of a trigger, 1 the highest (R72). -/
def Trigger.rank : Trigger → Nat
  | .demand => 1
  | .degrExpired => 2
  | .stop _ _ => 3
  | .degraded => 4
  | .rideThrough => 5
  | .auto _ _ _ => 6
  | .host _ => 7

/-- A transition: the mode it leads to, its cause, and the bits of MODE_EVT it raises beside MODE_CHANGE. -/
structure Transition where
  dst : BitVec 4
  cause : Byte
  evt : Word
  deriving DecidableEq, Repr

/-- Where a trigger of the plant leads from the present mode (R70); none: it has no row there. The profile is exceeded only
in M9. A demand during a transition that leaves M11 ends it in M11 (R72). Host requests are judged by the mode
controller. -/
def Trigger.row (t : Trigger) (s : State) : Option Transition :=
  match t with
  | .demand =>
    if (3 ≤ s.md && s.md ≤ 10) || (s.md == 11 && s.mode.busy) then some ⟨11, 4, 0⟩ else none
  | .degrExpired => if s.md == 10 then some ⟨11, 5, 0x80⟩ else none
  | .stop c e =>
    if inRun s && (c != 10#8 || s.md == 9) then some ⟨3, c, 1#32 <<< e.val⟩ else none
  | .degraded => if 4 ≤ s.md && s.md ≤ 9 then some ⟨10, 2, 0⟩ else none
  | .rideThrough => if s.md == 7 || s.md == 8 then some ⟨9, 2, 0⟩ else none
  | .auto src dst c => if s.mode.mode == src then some ⟨dst, c, if c == 9#8 then 0x100 else 0⟩ else none
  | .host _ => none

/-- A transition starts (R70, R80). -/
def beginTransition (t : Transition) (s : State) : State :=
  { s with mode := { s.mode with busy := true, target := t.dst, nextCause := t.cause, nextEvt := t.evt } }

/-- A trigger of the plant arrives (R72): a demand interrupts a transition in progress, any other one waits until it ends. -/
def trigger (t : Trigger) (s : State) : State :=
  match t.row s with
  | none => if s.mode.busy && t.rank ≠ 1 then { s with mode := { s.mode with held := s.mode.held ++ [t] } } else s
  | some r =>
    if t.rank = 1 then
      (if s.mode.busy && s.mode.target == 11#4 then s else beginTransition r s)
    else if s.mode.busy then { s with mode := { s.mode with held := s.mode.held ++ [t] } }
    else beginTransition r s

/-- A protection trip (R71). -/
def protectionTrip (s : State) : State := trigger (.stop 3 5) s

/-! ### The timeline (R278, R281) -/

/-- Units of a domain's time in one nanosecond: 2⁴¹. -/
def nsUnit : Int := 2199023255552

/-- A domain's time at a raw tick, from an anchor (R278), in units of 2⁻⁴¹ ns. -/
def Anchor.at (a : Anchor) (raw : Long) : Int :=
  a.t + ((raw.toNat : Int) - (a.raw.toNat : Int)) * 5 * (1099511627776 + a.rate)

/-- The domain's present time. -/
def domNow (k : Fin 2) (s : State) : Int := (s.time.dom[k]).anchor.at s.raw

/-- What a residual r of a raw tick has become at a later one: it moves toward 0 at SLEW_MAX (R281). -/
def residAfter (r : Int) (at0 raw : Long) (slewMax : Nat) : Int :=
  let step : Int := ((raw - at0).toNat * slewMax * 5 * 2 ^ 40 / 10 ^ 7 : Nat)
  if 0 ≤ r then max 0 (r - step) else min 0 (r + step)

/-- The residual R now (R281): only M4 to M10 hold one that is not 0. -/
def residNow (s : State) : Int := residAfter s.time.resid s.time.residAt s.raw s.time.slewMax

/-- The timeline: the selected domain plus the residual (R281), in units of 2⁻⁴¹ ns. -/
def timelineNow (s : State) : Int := domNow s.time.sel s + residNow s

/-- A time in whole nanoseconds. -/
def toNs (t : Int) : Int := t / nsUnit

/-- Seconds of a time, 48 bits. -/
def secOf (t : Int) : BitVec 48 := BitVec.ofInt 48 (toNs t / 1000000000)

/-- Nanoseconds within the second. -/
def nsecOf (t : Int) : Word := BitVec.ofInt 32 (toNs t % 1000000000)

/-! ### Claims and the senior lane (R251, R252) -/

/-- Channels that a lane forwards. -/
def forwards (l : Lane) (s : State) : Nat := ((idx 32).filter fun c => (s.claim.tum[c]).src = l).length

/-- The senior lane (R252). -/
def seniorLane (s : State) : Lane :=
  if s.claim.b.claim.toNat < s.claim.a.claim.toNat then .a
  else if s.claim.a.claim.toNat < s.claim.b.claim.toNat then .b
  else if forwards .a s < forwards .b s then .b
  else .a

/-- Both Tsuin channels are up (R258). -/
def tsuUp (s : State) : Bool := s.claim.ab.up && s.claim.ba.up

/-- A mirrored write leaves a lane (R256, R257); while a channel is down, the one that carries it or the one that
acknowledges it, it is not carried. -/
def mirror (l : Lane) (w : MirrorWrite) (s : State) : State :=
  if tsuUp s then modTsu l (fun t => { t with queue := t.queue ++ [w] }) s else s

/-- Transfers with a CRC error on the channel that leaves a lane (R257, R267). -/
def crcErrors (l : Lane) (n : Nat) (s : State) : State :=
  modTsu l (fun t => { t with errs := BitVec.ofNat 16 (min 65535 (t.errs.toNat + n)) }) s

/-- A supervisor's claim and Tsuin bits as events: bit 1 + lane of CLM_EVT. -/
def clmFaultBit (l : Lane) : Nat := 1 + laneNum l

/-- The faults that still count toward R264 at a time: those of cause other than 9 within 600 s. -/
def countedFaults (now : Nat) (fs : List Nat) : List Nat := fs.filter fun t => decide (now < t + secs 600)

/-- A lane is faulted on a cause (R253): its claim falls, the cause is recorded, and a fourth fault within 600 s parks
it (R264). A lane that is faulted already keeps its cause (log entry 12). -/
def faultLane (l : Lane) (cause : Nat) (s : State) : State :=
  let lc := s.lc l
  if lc.health = .absent then s
  else if lc.health = .faulted || lc.health = .parked then
    modLc l (fun x => { x with offline := x.offline || decide (cause = 9) }) s
  else
    let fs := if cause = 9 then lc.faults else (s.now :: countedFaults s.now lc.faults).take 8
    let park := decide (cause ≠ 9) && decide (4 ≤ fs.length)
    let health := if park then LaneHealth.parked else .faulted
    let s1 := modLc l (fun x => { x with
      claim := 0, health := health, cause := BitVec.ofNat 8 cause, faults := fs,
      offline := x.offline || decide (cause = 9), mirrored := 0, matched := Vector.replicate 8 0 }) s
    let s2 := modLc (otherLane l) (fun x =>
      if x.health = .mirror && lc.claim ≠ 0 then { x with health := .faulted } else x) s1
    raiseIf park .clm 8 (raise .clm (clmFaultBit l) s2)

/-! ### Spares and the swap log (R362 to R368) -/

/-- Spares of a resource in a lane (2: hub or module) (R362). -/
def spareTotal (res lane : Nat) : Nat :=
  match res with
  | 0 => if lane < 2 then 2 else 0
  | 1 => if lane < 2 then 768 else 0
  | 2 => if lane < 2 then 2 else 0
  | 3 => if lane < 2 then 4 else 0
  | 4 => if lane = 2 then 32 else 0
  | 5 => if lane = 2 then 1 else 0
  | 6 => if lane = 2 then 1 else 0
  | 7 => if lane = 2 then 256 else 0
  | 8 => if lane = 2 then 2 else 0
  | 9 => if lane = 2 then 1 else 0
  | _ => 0

/-- Spares in use. -/
def spareUsed (res lane : Nat) (s : State) : Nat := (at' s.wear.used (3 * res + lane) 0).toNat

/-- Spares still free. -/
def spareLeft (res lane : Nat) (s : State) : Nat := spareTotal res lane - spareUsed res lane s

/-- An entry for the swap log, with the time and mode at the swap (R368). -/
def logSwap (res lane unit spare trig indicator : Nat) (s : State) : State :=
  let t := timelineNow s
  { s with wear := { s.wear with queue := s.wear.queue ++ [{
      res := BitVec.ofNat 8 res, lane := BitVec.ofNat 8 lane, unit := BitVec.ofNat 16 unit,
      spare := BitVec.ofNat 8 spare, trigger := BitVec.ofNat 8 trig, left := BitVec.ofNat 16 (spareLeft res lane s),
      sec := secOf t, mode := BitVec.ofNat 16 s.md, nsec := nsecOf t, indicator := wd indicator }] } }

/-- An assignment enters the repair map, which must be written within 50 ms (R364). -/
def noteRepair (r : Repair) (s : State) : State :=
  { s with wear := { s.wear with repairs := s.wear.repairs ++ [r], mapDirty := some (s.wear.mapDirty.getD s.now) } }

/-- A swap takes the spare of a given index: counted, logged, HINGE_SWAP, SPARE_LAST with the last one, and the repair
map for the kinds that persist (R362, R364, R367, R368). -/
def hingeSwap (res lane unit spare trig indicator : Nat) (s : State) : State :=
  let s1 := modWear (fun w => { w with
      used := put' w.used (3 * res + lane) (BitVec.ofNat 16 (spareUsed res lane s + 1)) }) s
  let s2 := logSwap res lane unit spare trig indicator s1
  let s3 := raiseIf (spareLeft res lane s2 == 0) .wear 1 (raise .wear 0 s2)
  if res ≤ 4 || res = 7 then
    noteRepair ⟨BitVec.ofNat 8 res, BitVec.ofNat 8 lane, BitVec.ofNat 16 unit, BitVec.ofNat 8 spare⟩ s3
  else s3

/-- A trigger finds no spare (R367): SPARE_OUT and its log entry at the first one. -/
def noSpare (res lane unit trig indicator : Nat) (s : State) : State :=
  if at' s.wear.outSeen (3 * res + lane) false then s
  else
    let s1 := { s with wear := { s.wear with outSeen := put' s.wear.outSeen (3 * res + lane) true } }
    raise .wear 2 (logSwap res lane unit 0xFF trig indicator s1)

/-! ### Recorder marks (R342) -/

/-- Offset in the lane window of raw segment k with n segments (R336). -/
def rawSegBase (nseg k : Nat) : Nat := 0x1800000 + 4194304 / max nseg 1 * k

/-- The recorder record. -/
def recRec (s : State) : List Byte := recD s 0x90 0

/-- A source is enabled in the TRIG list (R338). -/
def recTrigOn (src : Nat) (s : State) : Bool :=
  (List.range (u8 (recRec s) 19)).any fun j => u8 (recRec s) (88 + 4 * j) == src

/-- A source becomes active at a lane's recorder at a raw tick (R338). -/
def noteTrig (l : Lane) (src : Nat) (ticks : Long) (s : State) : State :=
  if (s.lane l).rcd.running && recTrigOn src s then modRec l (fun r => { r with due := r.due ++ [(src, ticks)] }) s else s

/-- A source becomes active at both recorders at a raw tick. -/
def noteTrigsAt (src : Nat) (ticks : Long) (s : State) : State := foldS lanes (fun l => noteTrig l src ticks) s

/-- A source becomes active at both recorders now. -/
def noteTrigs (src : Nat) (s : State) : State := noteTrigsAt src s.raw s

/-- A mark is written to the mark list of the recording raw segment (R342); after the trigger a full list drops it. -/
def recMark (l : Lane) (ticks : Long) (fracN kind tag src : Nat) (data : Nat) (s : State) : State :=
  let r := (s.lane l).rcd
  match r.cur with
  | none => s
  | some k =>
    if !r.running || s.now < r.run.startAt then s
    else if r.run.trig.isSome && 240 ≤ r.run.marks then
      raise (.rcd l) 5 (modRec l (fun r => { r with run := { r.run with marksLost := true } }) s)
    else
      let bs := leBytes 8 ticks.toNat ++ leBytes 1 fracN ++ leBytes 1 kind ++ leBytes 1 tag ++ leBytes 1 src
        ++ leBytes 4 data
      let off := rawSegBase (u8 (recD s 0x90 0) 4) k.val + 256 + 16 * (r.run.marks % 240)
      modRec l (fun r => { r with run := { r.run with marks := r.run.marks + 1 } }) (laneWrite l off bs s)

/-! ### The change log of the pulse lock (R328) -/

/-- An entry of the change log. -/
def plkLog (kind : Nat) (m : Nat) (code : Nat) (oldCrc newCrc : Nat) (s : State) : State :=
  let t := timelineNow s
  let body := leBytes 4 s.plk.logCnt.toNat ++ leBytes 1 kind ++ leBytes 1 m ++ leBytes 2 code
    ++ leBytes 6 (secOf t).toNat ++ leBytes 2 0 ++ leBytes 4 (nsecOf t).toNat ++ leBytes 4 s.key.serial.toNat
    ++ leBytes 4 oldCrc ++ leBytes 4 newCrc ++ leBytes 28 0
  { s with plk := { s.plk with
      log := ((body ++ leBytes 4 (crc32c body)) :: s.plk.log).take 1024, logCnt := satInc s.plk.logCnt } }

/-- CRC-32C of the safety payload of the running image. -/
def safetyCrc (s : State) : Nat := crc32c (recD s 0xA0 0)

end Sys2Proof.Machine
end

