-- ==== Sys2Proof/Machine/Fio.lean ====
section
/-! DEFINITION. Field inputs and outputs (R203, R303 to R316): the field supply, inputs, outputs with their owners, and
test pulses. -/

namespace Sys2Proof.Machine

/-- The field-I/O record. -/
def fioRec (s : State) : List Byte := recD s 0x80 0

/-- One input changed. -/
def modIn (i : Fin 16) (f : FieldIn → FieldIn) (s : State) : State := modFio (fun x => { x with inp := modAt x.inp i f }) s

/-- One output changed. -/
def modDq (j : Fin 8) (f : FieldOut → FieldOut) (s : State) : State := modFio (fun x => { x with out := modAt x.out j f }) s

/-- The supply is in Normal or Warning (R304). -/
def fsOk (s : State) : Bool := decide ((s.fio.fs).val < 2)

/-! ### Inputs (R306, R307) -/

/-- An input is valid (R305, R306). -/
def diValid (i : Fin 16) (s : State) : Bool :=
  let x := s.fio.inp[i]
  s.fio.on && fsOk s && s.fio.linkOk && x.passed && !x.wb

/-- What an input reads in FIO_DI: 0 where it is invalid (R306). -/
def diReads (i : Fin 16) (s : State) : Bool := diValid i s && (s.fio.inp[i]).level

/-- An input by its number in a record; 0xFF: none. -/
def diByNum (n : Nat) (s : State) : Bool := if h : n < 16 then diReads ⟨n, h⟩ s else false

/-- Microseconds of FIO's own clock: on its ring oscillator they stretch by 1/0.7 (R395). -/
def fioUs (n : Nat) (s : State) : Nat := if s.clock.fioSrc = 2 then (10 * n + 6) / 7 else n

/-- The filter time of an input in µs: DEM_FILT for the inputs of the safety function (R307, R332). -/
def diFilt (i : Fin 16) (s : State) : Nat :=
  let p := recD s 0xA0 0
  if hasRec s 0xA0 0 && (u8 p 0 == i.val || u8 p 1 == i.val || u8 p 2 == i.val) then u16 p 6
  else u16 (fioRec s) (4 * i.val)

/-- A raw stamp of the field side: a multiple of 40 ticks (R307). -/
def fieldStamp (t : Long) : Long := BitVec.ofNat 64 (t.toNat / 40 * 40)

/-- An input has held a level since a crossing (R307). The first change after a recovery needs a full filter time since then
(R305). -/
def diChange (i : Fin 16) (level : Bool) (holdUs : Nat) (stamp : Long) (s : State) : State :=
  if !(s.fio.on && s.fio.linkOk && fsOk s) || decide (holdUs < fioUs (diFilt i s) s) then s
  else
    let s1 := if (s.fio.inp[i]).passed then s else elapseTo (s.fio.recoverAt + us (fioUs (diFilt i s) s)) s
    modIn i (fun x =>
      let y := { x with passed := true }
      if level = x.level then y
      else if level then { y with level := true, riseTs := fieldStamp stamp, edges := satInc x.edges }
      else { y with level := false, fallTs := fieldStamp stamp, edges := satInc x.edges }) s1

/-- An input changes. -/
def execDiChange (i : Fin 16) (level : Bool) (holdUs : Nat) (stamp : Long) (s : State) : Out :=
  .next (diChange i level holdUs stamp s)

/-- WB_EN of an input (R308). -/
def wbEn (i : Fin 16) (s : State) : Bool := u8 (fioRec s) (4 * i.val + 2) % 2 == 1

/-- The current of an input in 10 µA has stood for holdUs (R308). -/
def wireBreak (i : Fin 16) (ua10 holdUs : Nat) (s : State) : State :=
  if !s.fio.on then s
  else
    let was := (s.fio.inp[i]).wb
    let broken := wbEn i s && decide (ua10 < 35) && decide (5000 ≤ holdUs)
    let whole := decide (80 < ua10) && decide (5000 ≤ holdUs)
    raiseIf (broken && !was) .fio 3 (modIn i (fun x => { x with
      ua := BitVec.ofNat 12 (min 4095 ua10), wb := if broken then true else if whole then false else x.wb }) s)

/-- A wire breaks, or is whole again. -/
def execWireBreak (i : Fin 16) (ua10 holdUs : Nat) (s : State) : Out := .next (wireBreak i ua10 holdUs s)

/-! ### Outputs (R309 to R311, R313) -/

/-- A function owns an output (R310). -/
def dqOwned (j : Fin 8) (s : State) : Bool :=
  (hasRec s 0x60 0 && u8 (recD s 0x60 0) 18 == j.val) ||
    (hasRec s 0xA0 0 && (u8 (recD s 0xA0 0) 3 == j.val || u8 (recD s 0xA0 0) 4 == j.val))

/-- The command of an output, from its owner (R310). -/
def dqCmd (j : Fin 8) (s : State) : Bool := if dqOwned j s then (s.fio.out[j]).fn else (s.fio.out[j]).cmd

/-- The field side may drive outputs: a die with its record, a supply, an exchange, and a mode from M3 on (R303, R304). -/
def fioDrives (s : State) : Bool := s.fio.on && fsOk s && s.fio.linkOk && decide (3 ≤ s.md)

/-- An output is commanded on and not forced off (R316). -/
def dqOn (j : Fin 8) (s : State) : Bool := dqCmd j s && fioDrives s && !(s.fio.out[j]).thermal

/-- A test pulse of an output runs (R312). -/
def testRuns (j : Fin 8) (s : State) : Bool := s.fio.testBusy && s.fio.testOut == j

/-- The field side drives an output's pin: it is on and not under a dark test, or under a light test (R309, R312). -/
def dqDriven (j : Fin 8) (s : State) : Bool := if testRuns j s then s.fio.testLight else dqOn j s

/-- OVL of an output (R309): live while it is in current limit or in thermal shutdown. -/
def dqOvl (j : Fin 8) (s : State) : Bool := ((s.fio.out[j]).limit && dqDriven j s) || (s.fio.out[j]).thermal

/-- A demand for an output (R313): a test of it that runs is discarded, and the next one starts 1 s later. -/
def dqDemand (j : Fin 8) (s : State) : State :=
  if testRuns j s then
    raise .fio 8 (modFio (fun x => { x with
      testBusy := false, lastTestEnd := s.now, discards := satInc x.discards,
      out := modAt x.out j fun o => { o with notBefore := s.now + secs 1 } }) s)
  else s

/-- A function commands its output (R310, R313). -/
def setFn (j : Fin 8) (b : Bool) (s : State) : State :=
  if (s.fio.out[j]).fn = b then s else modDq j (fun o => { o with fn := b, limit := o.limit && b }) (dqDemand j s)

/-- What the owning functions want of an output: the close permission in M6 while SYNC_OK is 1 (R203), SUP_DQ on but for a
supply pulse (R322), STAT_DQ on while not in M11. -/
def fnWants (j : Fin 8) (s : State) : Bool :=
  let g := recD s 0x60 0
  let p := recD s 0xA0 0
  if hasRec s 0x60 0 && u8 g 18 == j.val then s.md == 6 && (s.lane (seniorLane s)).gf.syncOk
  else if hasRec s 0xA0 0 && u8 p 3 == j.val then !s.plk.pulseRun
  else hasRec s 0xA0 0 && u8 p 4 == j.val && s.md != 11

/-- Every function commands its outputs anew where its wish has changed. -/
def refreshFn (s : State) : State :=
  foldS (idx 8) (fun j t => if dqOwned j t then setFn j (fnWants j t) t else t) s

/-- FIO_DQSET (R310, R313). -/
def fioDqset (v : Word) (s : State) : State :=
  let s1 := foldS (idx 8) (fun j t =>
    if bit v (8 + j.val) && !dqOwned j t then modDq j (fun o => { o with cmd := bit v j.val, limit := o.limit && bit v j.val }) (dqDemand j t) else t) s
  raiseIf ((idx 8).any fun j => bit v (8 + j.val) && dqOwned j s) .fio 9 s1

/-- FIO_DQSET is written. -/
def execFioDqset (v : Word) (s : State) : Out := .next (fioDqset v s)

/-- An output that is driven enters or leaves current limit, or switches off at 160 °C (R309). -/
def execOutOvl (j : Fin 8) (inLimit thermal : Bool) (s : State) : Out :=
  let o := s.fio.out[j]
  .next (if !dqDriven j s then s
  else
    raiseIf ((inLimit && !o.limit) || (thermal && !o.thermal)) .fio 4
      (modDq j (fun o => { o with limit := inLimit, thermal := o.thermal || thermal }) s))

/-- An output has cooled by 15 K (R309). -/
def execCoolingRestart (j : Fin 8) (s : State) : Out := .next (modDq j (fun o => { o with thermal := false }) s)

/-- The pin of an output has stood at a level (R311). -/
def extDrive (j : Fin 8) (mv : Int) (holdUs : Nat) (s : State) : State :=
  let hold := if s.fio.testOut = j && s.fio.lastTestEnd ≠ 0 then min holdUs ((s.now - s.fio.lastTestEnd) / 400) else holdUs
  let off := !dqCmd j s && !testRuns j s
  if !(s.fio.on && fsOk s && s.fio.linkOk) then s
  else if mv < 7000 then modDq j (fun o => { o with ext := false }) s
  else if off && decide (9000 < mv) && decide (1000 ≤ hold) then
    raiseIf (!(s.fio.out[j]).ext) .fio 5 (modDq j (fun o => { o with ext := true }) s)
  else s

/-- An output pin is driven from outside. -/
def execExtDrive (j : Fin 8) (mv : Int) (holdUs : Nat) (s : State) : Out := .next (extDrive j mv holdUs s)

/-! ### Barrier exchange (R303) -/

/-- The kind of the periodic barrier exchange, and of the supply sample. -/
def tkFio : Nat := 20

/-- The kind of the periodic supply sample. -/
def tkField : Nat := 21

/-- Every 10 µs the field side exchanges its state (R303, R311). -/
def fioExchange (pinsMv : List Int) (s : State) : State :=
  if !s.fio.on then s
  else
    let s1 := periodic tkFio (if s.clock.fioSrc = 2 then (us 100 + 6) / 7 else us 10) s
    let s2 := modFio (fun x => { x with linkOk := true, lastExch := s1.now }) s1
    foldS (idx 8) (fun j t =>
      let mv := pinsMv.getD j.val 0
      modDq j (fun o => { o with readback := decide (9000 < mv), ext := o.ext && decide (7000 ≤ mv) }) t) s2

/-- The field side exchanges its state. -/
def execFioExchange (pinsMv : List Int) (s : State) : Out := .next (fioExchange pinsMv s)

/-- No valid exchange for 1 ms (R303): inputs invalid, outputs off. -/
def execFioLink (s : State) : Out :=
  .next (if s.fio.on && s.fio.linkOk then
    raise .fio 10 (modFio (fun x => { x with linkOk := false, testBusy := false, out := x.out.map fun o => { o with limit := false } })
      (elapseTo (s.fio.lastExch + ms 1) s))
  else s)

/-! ### Field supply (R304, R305) -/

/-- The supply is lost (R304, R305). -/
def enterLost (mv : Int) (s : State) : State :=
  let s1 := foldS (idx 8) (fun j t => modDq j (fun o => { o with cmd := if dqOwned j t then o.cmd else false, limit := false }) t) s
  let s2 := foldS (idx 16) (fun i t => modIn i (fun x => { x with passed := false }) t) s1
  raiseIf (!s.fio.first) .fio 1 (modFio (fun x => { x with
    fs := 2, fsHigh := decide (33000 < mv), okSince := none, testBusy := false, roundAt := none, roundLeft := [] }) s2)

/-- L+ is a failing supply: below 15.0 V, or above 33.0 V for 100 µs (R304). -/
def lostLevel (mv : Int) (highTicks : Nat) : Bool :=
  decide (mv < 15000) || (decide (33000 < mv) && decide (us 100 ≤ highTicks))

/-- L+ lies within the levels of a recovery. -/
def recoverLevel (mv : Int) : Bool := decide (17000 ≤ mv) && decide (mv ≤ 31000)

/-- L+ lies outside the levels of Normal. -/
def warnLevel (mv : Int) : Bool := decide (mv < 18000) || decide (30000 < mv)

/-- One measurement of L+ (R304). -/
def supplyAt (mv : Int) (s : State) : State :=
  let high := if 33000 < mv then some (s.fio.highSince.getD s.now) else none
  let s1 := modFio (fun x => { x with
    lpMv := mv, lpv := BitVec.ofNat 16 (min 0xFFFF (mv / 10).toNat), highSince := high,
    fsHigh := decide (2 ≤ x.fs.val) && decide (33000 < mv) }) s
  let lost := lostLevel mv (match high with
    | none => 0
    | some t => s.now - t)
  match s.fio.fs.val with
  | 2 => if recoverLevel mv then modFio (fun x => { x with fs := 3, okSince := some s.now }) s1 else s1
  | 3 =>
    if lost then enterLost mv s1
    else if recoverLevel mv then modFio (fun x => { x with okSince := some (x.okSince.getD s.now) }) s1
    else modFio (fun x => { x with okSince := none }) s1
  | 0 =>
    if lost then enterLost mv s1
    else if warnLevel mv then raise .fio 0 (modFio (fun x => { x with fs := 1 }) s1)
    else s1
  | _ =>
    if lost then enterLost mv s1
    else if warnLevel mv then s1
    else modFio (fun x => { x with fs := 0 }) s1

/-- Every 10 µs the field side measures L+ (R304). -/
def execFieldSupplySample (mv : Int) (s : State) : Out :=
  .next (if s.fio.on then supplyAt mv (periodic tkField (us 10) s) else s)

/-- L+ meets the entry condition of Lost (R304, R305). -/
def execFsLost (mv : Int) (highUs : Nat) (s : State) : Out :=
  .next (if s.fio.on && s.fio.fs ≠ 2 && lostLevel mv (us highUs) then
    enterLost mv (modFio (fun x => { x with lpMv := mv, lpv := BitVec.ofNat 16 (min 0xFFFF (mv / 10).toNat) }) s)
  else s)

/-- TP_INT in ticks (R312). -/
def tpInt (s : State) : Nat := secs (u16 (fioRec s) 96)

/-- L+ has stayed within 17.0 V to 31.0 V for 10 ms (R304, R305, R312, R313). -/
def fsRecover (s : State) : State :=
  match s.fio.okSince with
  | none => s
  | some t =>
    if !s.fio.on || s.fio.fs ≠ 3 then s
    else
      let s1 := elapseTo (t + ms 10) s
      let warn := warnLevel s.fio.lpMv
      let s2 := modFio (fun x => { x with
        fs := if warn then 1 else 0, fsHigh := false, okSince := none, first := false, recoverAt := s1.now,
        roundAt := some (s1.now + tpInt s1), roundLeft := [],
        out := x.out.map fun o => { o with notBefore := 0 } }) s1
      raiseIf (!s.fio.first) .fio 2 (raiseIf warn .fio 0 s2)

/-- The supply recovers. -/
def execFsRecover (s : State) : Out := .next (fsRecover s)

/-! ### Test pulses (R312, R313) -/

/-- A test is enabled for the present state of an output (R312). -/
def testEnabled (j : Fin 8) (s : State) : Bool :=
  let f := u8 (fioRec s) (64 + 4 * j.val)
  if dqOn j s then f % 2 == 1 else f / 2 % 2 == 1

/-- A round of tests starts (R312). -/
def execTestRound (s : State) : Out :=
  .next (match s.fio.roundAt with
    | none => s
    | some t =>
      if !fioDrives s then s
      else
        let s1 := elapseTo t s
        modFio (fun x => { x with
          roundAt := some (s1.now + tpInt s1), roundLeft := (idx 8).filter fun j => testEnabled j s1 }) s1)

/-- The width of a test pulse in µs (R312). -/
def pulseUs (light : Bool) (s : State) : Nat :=
  let n := u16 (fioRec s) (if light then 100 else 98)
  if n ≠ 0 then n else if light then 100 else 300

/-- A test pulse of output j starts: the next of the round, or the repeat of a discarded test (R312, R313). -/
def testPulseStart (j : Fin 8) (s : State) : State :=
  let repeated := (s.fio.out[j]).notBefore ≠ 0
  if s.fio.testBusy || !fioDrives s || !testEnabled j s || !(repeated || decide ((s.fio.roundLeft.filter fun k => testEnabled k s).head? = some j)) then s
  else
    let gap := if s.fio.lastTestEnd = 0 then 0 else s.fio.lastTestEnd + ms 10
    let s1 := elapseTo (max gap (s.fio.out[j]).notBefore) s
    modFio (fun x => { x with
      testBusy := true, testOut := j, testLight := !dqOn j s1, testAt := s1.now, roundLeft := x.roundLeft.filter (· ≠ j),
      out := modAt x.out j fun o => { o with notBefore := 0, limit := false } }) s1

/-- A test pulse starts. -/
def execTestPulseStart (j : Fin 8) (s : State) : Out := .next (testPulseStart j s)

/-- A test pulse ends with its verdict (R312): the lowest level of a dark test, the highest of a light test. -/
def testPulseEnd (mv : Int) (s : State) : State :=
  if !s.fio.testBusy then s
  else
    let j := s.fio.testOut
    let light := s.fio.testLight
    let s1 := elapseTo (s.fio.testAt + us (pulseUs light s)) s
    let pass := if light then decide (s.fio.lpMv - 3000 < mv) else decide (mv < 7000)
    let s2 := modFio (fun x => { x with
      testBusy := false, lastTestEnd := s1.now, passed := if pass then satInc x.passed else x.passed,
      out := modAt x.out j fun o => if light then { o with lightFail := !pass, limit := false } else { o with darkFail := !pass } }) s1
    raiseIf (!pass) .fio (if light then 7 else 6) s2

/-- A test pulse ends. -/
def execTestPulseEnd (mv : Int) (s : State) : Out := .next (testPulseEnd mv s)

end Sys2Proof.Machine
end

