-- ==== Sys2Proof/Machine/Filter.lean ====
section
/-! DEFINITION. The arithmetic of one converter and its filter chain: codes, window comparator, CIC, FIR, DC block and
scaling, each evaluated exactly and rounded once (R123, R134 to R138). -/

namespace Sys2Proof.Machine

/-- The transition at or below an input, in codes: the ideal transfer of R123. -/
def codeFloor (nv : Int) : Int := (nv + 156250) / 312500

/-- The input lies exactly at a transition (R123). -/
def codeTie (nv : Int) : Bool := (nv + 156250) % 312500 == 0

/-- The code of an input; at a transition `low` picks the lower neighbour (R123). -/
def codeOf (low : Bool) (nv : Int) : Half :=
  let k := if codeTie nv && low then codeFloor nv - 1 else codeFloor nv
  BitVec.ofInt 16 (clampInt (-32768) 32767 k)

/-- An end code (R123). -/
def endCode (c : Half) : Bool := c == 0x8000#16 || c == 0x7FFF#16

/-- The binary32 value of a code, exact. -/
def codeF32 (c : Half) : Word := F32.ofInt c.toInt

/-- The value of a word in binary32 as an exact number. -/
def fval (w : Word) : Rat := F32.val w

/-- Scaling: x × 0.000 312 5 × SCALE + OFFSET, rounded once (R136). -/
def scaleOut (x scale offset : Word) : Word := F32.ofRat (fval x * mkRat 3125 10000000 * fval scale + fval offset)

/-- The side on which a value lies: 1 below, 2 above, 0 inside (R134). -/
def winSide (v : Rat) (lo hi : Half) : Fin 3 :=
  if v < (lo.toInt : Rat) then 1 else if (hi.toInt : Rat) < v then 2 else 0

/-- The value lies within the band less the hysteresis (R134). -/
def winInner (v : Rat) (lo hi : Half) (hyst : Nat) : Bool :=
  decide ((lo.toInt : Rat) + hyst ≤ v) && decide (v ≤ (hi.toInt : Rat) - hyst)

/-- The window comparator sees one value (R134): debouncing, exits still to be reported, and the return. -/
def winStep (p : PinState) (v : Rat) (hyst deb : Nat) : PinState :=
  let side := winSide v p.winLo p.winHi
  let run := if side = 0 then 0 else if side = p.winRaw then p.winRun + 1 else 1
  let p1 := { p with winRaw := side, winRun := run }
  if side ≠ 0 ∧ deb + 1 ≤ run ∧ p.win ≠ side then { p1 with win := side, winExit := side }
  else if p.win ≠ 0 ∧ winInner v p.winLo p.winHi hyst then { p1 with win := 0 }
  else p1

/-- The CIC integrators take one code (R136). -/
def integStep (order : Nat) (x : BitVec 80) (v : Vector (BitVec 80) 5) : Vector (BitVec 80) 5 :=
  ((List.range order).foldl (fun (acc : BitVec 80 × Vector (BitVec 80) 5) i =>
    let y := at' acc.2 i 0 + acc.1
    (y, put' acc.2 i y)) (x, v)).2

/-- The combs take the last integrator: the difference and their new delays (R136). -/
def combStep (order : Nat) (x : BitVec 80) (v : Vector (BitVec 80) 5) : BitVec 80 × Vector (BitVec 80) 5 :=
  (List.range order).foldl (fun (acc : BitVec 80 × Vector (BitVec 80) 5) i =>
    (acc.1 - at' acc.2 i 0, put' acc.2 i acc.1)) (x, v)

/-- The exact FIR sum of coefficients and inputs, rounded once (R136). -/
def firOut (coef : List (BitVec 24)) (hist : List Word) : Word :=
  F32.ofRat (((coef.zip hist).map fun ch => (ch.1.toInt : Rat) * fval ch.2).foldl (· + ·) 0 / (2 ^ 23 : Nat))

/-- The structure of a chain, from its filter-chain record. -/
structure ChainCfg where
  order : Nat
  firDec : Nat
  cicDec : Nat
  taps : Nat
  dcEn : Bool
  dcFreeze : Nat

/-- Fields of a filter-chain record. -/
def chainCfg (f : List Byte) : ChainCfg :=
  { order := u8 f 0, firDec := u8 f 1, cicDec := u16 f 2, taps := u8 f 4, dcEn := u8 f 5 == 1, dcFreeze := u8 f 6 }

/-- The factor k of the DC block (R138): 2π × DC_FC / f_out, rounded once; `rate` is the input rate in Hz. -/
def dcFactor (f : List Byte) (rate : Nat) : Word :=
  F32.ofRat (2 * F32.pi * fval (w32 f 8) * ((u16 f 2 * u8 f 1 : Nat) : Rat) / (rate : Rat))

/-- The pin's DC estimate is frozen (R138). -/
def dcFrozen (c : ChainCfg) (p : PinState) (m9 : Bool) : Bool :=
  (c.dcFreeze % 2 == 1 && p.win != 0) || (c.dcFreeze / 2 % 2 == 1 && m9) || p.freeze

/-- The DC block takes x (R138): the pin with the new estimate, and x − e. -/
def dcStep (c : ChainCfg) (p : PinState) (frozen : Bool) (x : Word) : PinState × Word :=
  if c.dcEn then
    let y := F32.ofRat (fval x - fval p.dcE)
    let e := F32.ofRat (fval p.dcE + fval p.dcK * (fval x - fval p.dcE))
    (if frozen then p else { p with dcE := e }, y)
  else (p, x)

/-- What the comparator of a pin needs from its measurement-chain record. -/
structure WinCfg where
  hyst : Nat
  deb : Nat
  chain : Bool
  scale : Word
  offset : Word

/-- Fields of a measurement-chain record. -/
def winCfg (m : List Byte) : WinCfg :=
  { hyst := u16 m 8, deb := u8 m 10, chain := u8 m 11 == 1, scale := w32 m 20, offset := w32 m 24 }

/-- A chain output x reaches the DC block, the comparator where it watches the chain, and scaling (R134 to R138, R140). -/
def chainOutput (c : ChainCfg) (w : WinCfg) (m9 : Bool) (p : PinState) (x : Word) : PinState :=
  let y0 := F32.ofRat (fval x - (if c.dcEn then fval p.dcE else 0))
  let p1 := if w.chain then winStep p (fval y0) w.hyst w.deb else p
  let (p2, y) := dcStep c p1 (dcFrozen c p1 m9) x
  if p2.settled || decide ((c.order + c.taps) * c.cicDec ≤ p2.inputs) then
    { p2 with settled := true, code := y, out := scaleOut y w.scale w.offset }
  else p2

/-- One input sample of a running filter chain (R136, R137). -/
def chainStep (c : ChainCfg) (w : WinCfg) (m9 : Bool) (p : PinState) (code : Half) : PinState :=
  let x80 : BitVec 80 := BitVec.ofInt 80 code.toInt
  let integ := integStep c.order x80 p.integ
  let p1 := { p with integ := integ, inputs := p.inputs + 1 }
  let d := c.cicDec * c.firDec
  let p2 := { p1 with phase := if p.phase = 0 then d - 1 else p.phase - 1 }
  if p.phase % c.cicDec = 0 then
    let (s, comb) := combStep c.order (if c.order = 0 then x80 else at' integ (c.order - 1) 0) p.comb
    let cic := if c.order = 0 then codeF32 code else F32.ofRat ((s.toInt : Rat) / (c.cicDec ^ c.order : Nat))
    let hist := if c.taps = 0 then [] else (cic :: p.hist).take c.taps
    let p3 := { p2 with comb := comb, hist := hist }
    if p.phase = 0 then chainOutput c w m9 p3 (if c.taps = 0 then cic else firOut p.coef hist) else p3
  else p2

/-- What a loop read takes from a pin's chain (R126). -/
def pinRead (p : PinState) : PinRead := { out := p.out, out2 := p.out2, code := p.code, settled := p.settled }

/-- The chain before a grid sample is kept (R131). -/
def saveChain (inst : Nat) (p : PinState) : ChainSave :=
  { inst, settled := p.settled, inputs := p.inputs, phase := p.phase, integ := p.integ, comb := p.comb, hist := p.hist,
    dcE := p.dcE, code := p.code, out := p.out, out2 := p.out2 }

/-- The chain goes back to what it was before a grid sample: the sample is absent from the stream (R131). -/
def restoreChain (k : ChainSave) (p : PinState) : PinState :=
  { p with
    settled := k.settled, inputs := k.inputs, phase := k.phase, integ := k.integ, comb := k.comb, hist := k.hist,
    dcE := k.dcE, code := k.code, out := k.out, out2 := k.out2, undo := none }

/-- A sample of a pin in bypass (R126, R136). -/
def bypassStep (w : WinCfg) (p : PinState) (code : Half) : PinState :=
  let x := codeF32 code
  let p1 := if w.chain then winStep p (code.toInt : Rat) w.hyst w.deb else p
  { p1 with settled := true, code := x, out := scaleOut x w.scale w.offset }

end Sys2Proof.Machine
end

