-- ==== Sys2Proof/Machine/GridMath.lean ====
section
/-! DEFINITION. One step of GFMSTEP as R190 to R196 and R207 compute it: separate binary32 operations in the order
written, each rounded on its own, with the substitutions of R158 counted. -/

namespace Sys2Proof.Machine

/-- A computation that counts the substitutions of R158. -/
abbrev Calc (α : Type) := StateM Nat α

/-- The result of one operation, counted where R158 substituted it. -/
def counted (r : F32.Res) : Calc Word := fun n => (r.w, if r.sub then n + 1 else n)

/-- Addition. -/
def fAdd (a b : Word) : Calc Word := counted (F32.add a b)

/-- Subtraction. -/
def fSub (a b : Word) : Calc Word := counted (F32.sub a b)

/-- Multiplication. -/
def fMul (a b : Word) : Calc Word := counted (F32.mul a b)

/-- Division. -/
def fDiv (a b : Word) : Calc Word := counted (F32.div a b)

/-- Square root. -/
def fSqrt (a : Word) : Calc Word := counted (F32.sqrt a)

/-- Angle in turns. -/
def fAtan2 (y x : Word) : Calc Word := counted (F32.atan2 y x)

/-- |x + jy| as SQRT(x × x + y × y) (R191). -/
def fMag (x y : Word) : Calc Word := do
  let a ← fMul x x
  let b ← fMul y y
  let s ← fAdd a b
  fSqrt s

/-- A complex product (R191). -/
def fCmul (a b c d : Word) : Calc (Word × Word) := do
  let ac ← fMul a c
  let bd ← fMul b d
  let ad ← fMul a d
  let bc ← fMul b c
  let re ← fSub ac bd
  let im ← fAdd ad bc
  pure (re, im)

/-- The binary32 value nearest to n / d. -/
def fConst (n d : Nat) : Word := F32.ofRat (mkRat n d)

/-- 0.0. -/
def f0 : Word := 0#32

/-- 1.0. -/
def f1 : Word := 0x3F800000#32

/-- The binary32 value nearest to 2π. -/
def fTwoPi : Word := F32.ofRat (2 * F32.pi)

/-- The binary32 value nearest to √2. -/
def fSqrt2 : Word := F32.ofRat (F32.sqrtApprox 200 2)

/-- T: PERIOD × 2.5e-9, rounded once (R191). -/
def fPeriod (period : Nat) : Word := F32.ofRat (mkRat (period * 25) (10 ^ 10))

/-- What GFMSTEP uses beside its window: behaviour, T, the parameters in effect and fields of the record. -/
structure GfEnv where
  beh : Nat
  period : Nat
  par : Vector Word 17
  fNom : Word
  preIlim : Word
  chOn : Word
  chFull : Word
  present : Bool

/-- What a step of the block yields: nodes a + 8 to a + 31, and the values that registers and the mode controller see. -/
structure GfResult where
  outs : List Word
  imag : Word
  thr : Word
  vgp : Word
  vgn : Word
  etgt : Word
  e : Word
  sph : Word
  smg : Word
  pf : Word
  qf : Word
  fhz : Word
  chd : Word
  vdc : Word

/-- The rotor: DW and DWF after the step (R193, R198). -/
def gfRotor (v : GfEnv) (t dw dwf pf sph : Word) : Calc (Word × Word) := do
  if v.beh ≤ 1 then pure (f0, f0)
  else
    let h2 ← fMul 0x40000000#32 v.par[4]
    let dd ← fSub dw dwf
    let rhs ←
      if v.beh = 3 then do
        let sq ← fMul fTwoPi fTwoPi
        let ks0 ← fMul h2 sq
        let ks ← fDiv ks0 v.fNom
        let c0 ← fMul h2 0x40000000#32
        let c1 ← fMul c0 (fConst 7 10)
        let cs ← fMul c1 fTwoPi
        let x ← fMul ks sph
        let y ← fMul cs dd
        fSub x y
      else do
        let dwSet ← fDiv v.par[3] v.fNom
        let a ← fSub v.par[0] pf
        let b0 ← fSub dw dwSet
        let b ← fDiv b0 v.par[7]
        let c ← fMul v.par[5] dd
        let ab ← fSub a b
        fSub ab c
    let k ← fDiv t h2
    let inc ← fMul k rhs
    let dw' ← fAdd dw inc
    let td ← fAdd v.par[6] t
    let g ← fDiv t td
    let e' ← fSub dw' dwf
    let gi ← fMul g e'
    let dwf' ← fAdd dwf gi
    pure (dw', dwf')

/-- E moved toward its target by at most T / RAMPT, held above IMAX (R194, R198). -/
def gfRamp (v : GfEnv) (t e etgt imag : Word) : Calc Word := do
  if v.beh ≤ 1 then pure f0
  else if F32.lt v.par[12] imag then pure (F32.flush e)
  else
    let r ← fDiv t v.par[16]
    let d ← fSub etgt e
    if F32.le (F32.abs d) r then pure etgt
    else if F32.lt f0 d then fAdd e r
    else fSub e r

/-- The four current limits: IDH, IDL, IQH, IQL (R195). -/
def gfLimits (v : GfEnv) (qPrio : Bool) (id iq : Word) : Calc (List Word) := do
  if qPrio || 2 ≤ v.beh then
    let i2 ← fMul v.par[12] v.par[12]
    let o := if qPrio then iq else id
    let o2 ← fMul o o
    let d ← fSub i2 o2
    let r ← fSqrt (F32.max d f0)
    let m := v.par[12]
    pure (if qPrio then [r, F32.neg r, m, F32.neg m] else [m, F32.neg m, r, F32.neg r])
  else if v.beh = 1 then pure [v.preIlim, F32.neg v.preIlim, v.preIlim, F32.neg v.preIlim]
  else pure [f0, f0, f0, f0]

/-- The injection currents IQI, I2D, I2Q (R196); (c, s) is the cosine and sine of φ. -/
def gfInject (v : GfEnv) (qPrio : Bool) (vgp gnd gnq c s : Word) : Calc (Word × Word × Word) := do
  if qPrio then
    let imax := v.par[12]
    let dv ← fSub v.par[2] vgp
    let x ← fMul (F32.neg v.par[14]) dv
    let iqi := F32.clamp x (F32.neg imax) imax
    let re ← fMul v.par[15] gnq
    let im0 ← fMul v.par[15] gnd
    let im := F32.neg im0
    let room0 ← fSub imax (F32.abs iqi)
    let room := F32.max room0 f0
    let m ← fMag re im
    let (re', im') ←
      if F32.lt room m then do
        let k ← fDiv room m
        let a ← fMul re k
        let b ← fMul im k
        pure (a, b)
      else pure (re, im)
    let (d, q) ← fCmul re' im' c (F32.neg s)
    pure (iqi, d, q)
  else pure (f0, f0, f0)

/-- One step of GFMSTEP; `win` gives the 32 nodes of the window as the step reads them (R190 to R196, R207). -/
def gfStep (v : GfEnv) (win : Nat → Word) : Calc GfResult := do
  let t := fPeriod v.period
  let id := win 0
  let iq := win 1
  let vd := win 2
  let vq := win 3
  let qPrio := v.beh = 6 || !F32.isZero (win 7)
  let p1 ← fMul vd id
  let p2 ← fMul vq iq
  let p ← fAdd p1 p2
  let q1 ← fMul vq id
  let q2 ← fMul vd iq
  let q ← fSub q1 q2
  let tft ← fAdd v.par[9] t
  let af ← fDiv t tft
  let dp ← fSub p (win 10)
  let ap ← fMul af dp
  let pf ← fAdd (win 10) ap
  let dq ← fSub q (win 11)
  let aq ← fMul af dq
  let qf ← fAdd (win 11) aq
  -- sequences (R192)
  let th := win 13
  let phi ← fMul 0x40000000#32 th
  let s := F32.sin2pi phi
  let c := F32.cos2pi phi
  let w0 ← fMul fTwoPi v.fNom
  let w1 ← fDiv fSqrt2 w0
  let w2 ← fAdd t w1
  let as ← fDiv t w2
  let (nr, ni) ← fCmul (win 29) (win 30) c (F32.neg s)
  let ur ← fSub (win 4) nr
  let ui ← fSub (win 5) ni
  let vr ← fSub ur (win 27)
  let vi ← fSub ui (win 28)
  let er ← fSub (win 4) (win 27)
  let ei ← fSub (win 5) (win 28)
  let (rr, ri) ← fCmul er ei c s
  let zr ← fSub rr (win 29)
  let zi ← fSub ri (win 30)
  let avr ← fMul as vr
  let avi ← fMul as vi
  let azr ← fMul as zr
  let azi ← fMul as zi
  let gpd ← fAdd (win 27) avr
  let gpq ← fAdd (win 28) avi
  let gnd ← fAdd (win 29) azr
  let gnq ← fAdd (win 30) azi
  let vgp ← fMag gpd gpq
  let vgn ← fMag gnd gnq
  -- synchronise errors (R202)
  let ang ← fAtan2 gpq gpd
  let angV ← fAtan2 vq vd
  let dAng ← fSub ang angV
  let sph := F32.wrapTurns dAng
  let vmag ← fMag vd vq
  let smg ← fSub vgp vmag
  -- rotor (R193, R198)
  let (dw, dwf) ← gfRotor v t (win 12) (win 31) pf sph
  let one ← fAdd f1 dw
  let fhz ← fMul v.fNom one
  let th1 ← if v.beh ≤ 1 && v.present then fAdd th ang
    else do
      let adv ← fMul fhz t
      fAdd th adv
  let th' := F32.wrapTurns th1
  -- voltage (R194)
  let dq1 ← fSub qf v.par[1]
  let nq ← fMul v.par[8] dq1
  let droop ← fSub v.par[2] nq
  let etgt := if v.beh ≤ 1 then f0 else if v.beh = 3 then vgp else droop
  let imag ← fMag id iq
  let e ← gfRamp v t (win 15) etgt imag
  let thr ← fMul (fConst 9 10) v.par[12]
  let xa ← if F32.lt thr imag then do
      let xs ← fSub imag thr
      fMul v.par[13] xs
    else pure f0
  let ra ← fDiv xa 0x40A00000#32
  let rv ← fAdd v.par[10] ra
  let xv ← fAdd v.par[11] xa
  let a1 ← fMul rv id
  let a2 ← fMul xv iq
  let a3 ← fSub e a1
  let vdr ← fAdd a3 a2
  let b1 ← fMul (F32.neg rv) iq
  let b2 ← fMul xv id
  let vqr ← fSub b1 b2
  let lim ← gfLimits v qPrio id iq
  let (iqi, i2d, i2q) ← gfInject v qPrio vgp gnd gnq c s
  -- chopper (R207)
  let chd ← if v.beh = 0 then pure f0 else do
      let x ← fSub (win 6) v.chOn
      let y ← fSub v.chFull v.chOn
      let z ← fDiv x y
      pure (F32.clamp z f0 f1)
  pure { outs := [p, q, pf, qf, dw, th', fhz, e, vdr, vqr] ++ lim ++ [etgt, chd, iqi, i2d, i2q, gpd, gpq, gnd, gnq, dwf],
         imag, thr, vgp, vgn, etgt, e, sph, smg, pf, qf, fhz, chd, vdc := F32.flush (win 6) }

end Sys2Proof.Machine
end

