-- ==== Sys2Proof/Machine/Graph.lean ====
section
/-! DEFINITION. Loop graphs: the loop-graph record, the operations of R157 to R159 and the evaluation of one step level
by level (R146, R151, R160, R161). -/

namespace Sys2Proof.Machine

/-- An operation word with its fields split (R160). -/
structure GraphOp where
  opcode : Nat
  dst : Nat
  a : Nat
  b : Nat
  c : Nat
  aux : Nat
  deriving DecidableEq, Repr

/-- The fields of an operation word. -/
def graphOp (w : Nat) : GraphOp :=
  { opcode := w / 2 ^ 56 % 256, dst := w / 2 ^ 44 % 4096, a := w / 2 ^ 31 % 8192, b := w / 2 ^ 18 % 8192,
    c := w / 2 ^ 5 % 8192, aux := w % 32 }

/-- An output entry of a loop graph: node and lane-window offset. -/
structure GraphOut where
  node : Nat
  offset : Nat
  deriving DecidableEq, Repr

/-- An input entry: node, pin and ENTRY. -/
structure GraphIn where
  node : Nat
  pin : Nat
  entry : Nat
  deriving DecidableEq, Repr

/-- A loop-graph record with its parts split (R160). -/
structure Graph where
  period : Nat
  deadline : Nat
  nodeBase : Nat
  nodeCount : Nat
  coefMode : Nat
  initBank : Nat
  coefRun : Nat
  oscNode : Nat
  oscAction : Nat
  oscHold : Nat
  oscWin : Nat
  oscFlo : Word
  oscFhi : Word
  oscRatio : Word
  oscRms : Word
  taps : List Nat
  ins : List GraphIn
  outs : List GraphOut
  levels : List Nat
  ops : List GraphOp
  init : List (Nat × Word)
  nOps : Nat
  nLevels : Nat
  nIn : Nat
  nOut : Nat
  nInit : Nat
  deriving DecidableEq, Repr

/-- Where the parts of a loop-graph payload begin: inputs, outputs, levels, operations, initial values, end. -/
def graphOffsets (p : List Byte) : List Nat :=
  let ins := 80
  let outs := ins + 4 * u8 p 16
  let lv := outs + 8 * u8 p 17
  let ops := lv + (2 * u16 p 14 + 3) / 4 * 4
  let ini := ops + 8 * u16 p 12
  [ins, outs, lv, ops, ini, ini + 8 * u16 p 22]

/-- The loop-graph record of a payload (R160). -/
def parseGraph (p : List Byte) : Graph :=
  let o := graphOffsets p
  let ins := o.getD 0 0
  let outs := o.getD 1 0
  let lv := o.getD 2 0
  let ops := o.getD 3 0
  let ini := o.getD 4 0
  { period := u32 p 0, deadline := u32 p 4, nodeBase := u16 p 8, nodeCount := u16 p 10,
    coefMode := u8 p 18, initBank := u8 p 19, coefRun := u8 p 20,
    oscNode := u16 p 24, oscAction := u8 p 26, oscHold := u8 p 27, oscWin := u16 p 28,
    oscFlo := w32 p 32, oscFhi := w32 p 36, oscRatio := w32 p 40, oscRms := w32 p 44,
    taps := (List.range 8).map fun t => u32 p (48 + 4 * t),
    ins := (List.range (u8 p 16)).map fun i => ⟨u16 p (ins + 4 * i), u8 p (ins + 4 * i + 2), u8 p (ins + 4 * i + 3)⟩,
    outs := (List.range (u8 p 17)).map fun i => ⟨u16 p (outs + 8 * i), u32 p (outs + 8 * i + 4)⟩,
    levels := (List.range (u16 p 14)).map fun i => u16 p (lv + 2 * i),
    ops := (List.range (u16 p 12)).map fun i => graphOp (u64 p (ops + 8 * i)),
    init := (List.range (u16 p 22)).map fun i => (u16 p (ini + 8 * i), w32 p (ini + 8 * i + 4)),
    nOps := u16 p 12, nLevels := u16 p 14, nIn := u8 p 16, nOut := u8 p 17, nInit := u16 p 22 }

/-- The operations cut into their levels. -/
def cutLevels : List Nat → List GraphOp → List (List GraphOp)
  | [], _ => []
  | n :: ns, ops => ops.take n :: cutLevels ns (ops.drop n)

/-- How an opcode writes its results: the number of consecutive nodes from DST (R157); 0 where it is unlisted. -/
def opResults (opcode : Nat) : Nat :=
  if opcode = 0x14 || opcode = 0x18 || opcode = 0x1A || opcode = 0x1B then 2
  else if opcode = 0x19 || opcode = 0x23 then 3
  else if opcode = 0x30 then 24
  else if (0x01 ≤ opcode && opcode ≤ 0x0D) || (0x10 ≤ opcode && opcode ≤ 0x13) || opcode = 0x15
      || (0x20 ≤ opcode && opcode ≤ 0x22) then 1
  else 0

/-- FMA units that an opcode occupies at issue (R157). -/
def opSlots (opcode : Nat) : Nat :=
  if opcode = 0x14 || opcode = 0x18 || opcode = 0x1A || opcode = 0x1B || opcode = 0x23 then 2
  else if opcode = 0x19 then 3 else 1

/-- Cycles from issue to result (R157). -/
def opLatency (opcode : Nat) : Nat :=
  if opcode = 0x01 || (0x07 ≤ opcode && opcode ≤ 0x0C) then 1
  else if opcode = 0x0D then 2
  else if (0x02 ≤ opcode && opcode ≤ 0x06) || opcode = 0x22 then 4
  else if opcode = 0x20 then 5
  else if opcode = 0x18 || opcode = 0x19 || opcode = 0x1A || opcode = 0x1B || opcode = 0x21 then 8
  else if (0x10 ≤ opcode && opcode ≤ 0x12) || opcode = 0x23 then 12
  else if opcode = 0x13 || opcode = 0x14 then 16
  else 20

/-- The cycles of one level with U active units (R161). -/
def levelCycles (units : Nat) (ops : List GraphOp) : Nat :=
  let u := max units 1
  if ops.any (fun o => o.opcode == 0x30) then (96 * 16 + u - 1) / u
  else
    let s := (ops.map fun o => opSlots o.opcode).foldl (· + ·) 0
    let l := (ops.map fun o => opLatency o.opcode).foldl max 0
    (s + u - 1) / u - 1 + l

/-- The step time of a graph in engine cycles with U active units (R161). -/
def stepCycles (units : Nat) (g : Graph) : Nat :=
  12 + ((cutLevels g.levels g.ops).map (levelCycles units)).foldl (· + ·) 0 + 4 + g.nOut

/-- The cycles of a graph from its start to each level boundary, the first one before the first level (R144, R161). -/
def levelEnds (units : Nat) (g : Graph) : List Nat :=
  ((cutLevels g.levels g.ops).map (levelCycles units)).foldl (fun acc n => acc ++ [acc.getLastD 12 + n]) [12]

/-- The first level boundary that a step reaches after so many cycles, none past the last one (R144). -/
def nextBoundary (units : Nat) (g : Graph) (done : Nat) : Option Nat := (levelEnds units g).find? fun b => decide (done ≤ b)

/-- What a step reads: the committed nodes, the active bank, the mode's hold of blocked integrators, and GFMSTEP. -/
structure StepEnv where
  node : Nat → Word
  coef : Nat → Word
  blocked : Bool
  gf : GfEnv

/-- What a step has built so far: the step buffer (newest first), substitutions, clamps, and GFMSTEP's result. -/
structure StepBuf where
  buf : List (Nat × Word) := []
  subs : Nat := 0
  clamps : Nat := 0
  gf : Option GfResult := none

/-- The newest value of a node in a step buffer. -/
def bufFind (buf : List (Nat × Word)) (k : Nat) : Option Word :=
  match buf with
  | [] => none
  | (a, x) :: m => if a = k then some x else bufFind m k

/-- A node as an operation of this level reads it: written in an earlier level, else committed (R151). -/
def readNode (e : StepEnv) (buf : List (Nat × Word)) (k : Nat) : Word := (bufFind buf k).getD (e.node k)

/-- An operand field, moved on by i entries: a node or a coefficient of the active bank (R160). -/
def operand (e : StepEnv) (buf : List (Nat × Word)) (f i : Nat) : Word :=
  if f / 4096 % 2 = 1 then e.coef (f % 512 + i) else readNode e buf (f % 4096 + i)

/-- The value of a formula, rounded once (R400). -/
def once (q : Rat) : F32.Res := F32.round q

/-- The results of one operation in binary32, with the clamps of R159 counted. -/
def opValues (e : StepEnv) (buf : List (Nat × Word)) (o : GraphOp) : List F32.Res × Nat :=
  let a := operand e buf o.a 0
  let b := operand e buf o.b 0
  let c := operand e buf o.c 0
  let va := F32.val a
  let vb := F32.val b
  let vc := F32.val c
  let st (i : Nat) : Word := e.node (o.dst + i)
  let k (i : Nat) : Rat := F32.val (operand e buf o.b i)
  let half : Rat := mkRat 1 2
  match o.opcode with
  | 0x01 => ([F32.exact (F32.flush a)], 0)
  | 0x02 => ([F32.add a b], 0)
  | 0x03 => ([F32.sub a b], 0)
  | 0x04 => ([F32.mul a b], 0)
  | 0x05 => ([F32.fma a b c], 0)
  | 0x06 => ([F32.fma (F32.neg a) b c], 0)
  | 0x07 => ([F32.exact (F32.abs a)], 0)
  | 0x08 => ([F32.exact (F32.min a b)], 0)
  | 0x09 => ([F32.exact (F32.max a b)], 0)
  | 0x0A => ([F32.exact (F32.clamp a b c)], 0)
  | 0x0B => ([F32.exact (F32.flush (if 0 ≤ va then b else c))], 0)
  | 0x0C => ([F32.exact (if vb < va then f1 else f0)], 0)
  | 0x0D => ([F32.exact (F32.wrapTurns a)], 0)
  | 0x10 => ([F32.rcp a], 0)
  | 0x11 => ([F32.sqrt a], 0)
  | 0x12 => ([F32.rsqrt a], 0)
  | 0x13 => ([F32.div a b], 0)
  | 0x14 => ([F32.exact (F32.sin2pi a), F32.exact (F32.cos2pi a)], 0)
  | 0x15 => ([F32.atan2 a b], 0)
  | 0x18 => ([once ((2 * va - vb - vc) / 3), once (F32.addSqrt3 0 ((vb - vc) / 3))], 0)
  | 0x19 =>
    let be := F32.val (operand e buf o.a 1)
    ([F32.exact (F32.flush a), once (F32.addSqrt3 (-(va * half)) (be * half)),
      once (F32.addSqrt3 (-(va * half)) (-(be * half)))], 0)
  | 0x1A =>
    let be := F32.val (operand e buf o.a 1)
    let co := F32.val (operand e buf o.b 1)
    ([once (va * co + be * vb), once (be * co - va * vb)], 0)
  | 0x1B =>
    let q := F32.val (operand e buf o.a 1)
    let co := F32.val (operand e buf o.b 1)
    ([once (va * co - q * vb), once (va * vb + q * co)], 0)
  | 0x20 =>
    if o.aux % 2 = 1 && e.blocked then ([F32.exact (st 0)], 0)
    else
      let s := F32.fma a b (st 0)
      let hi := operand e buf o.c 1
      let t := F32.clamp s.w c hi
      ([⟨t, s.sub⟩], if t = s.w then 0 else 1)
  | 0x21 => ([once (F32.val (st 0) + vb * (va - F32.val (st 0)))], 0)
  | 0x22 =>
    let d := va - F32.val (st 0)
    let lo := -vb
    let x := if vb < lo then lo else min (max d lo) vb
    ([once (F32.val (st 0) + x)], 0)
  | 0x23 =>
    let y := once (k 0 * va + F32.val (st 1))
    let s1 := once (k 1 * va - k 3 * F32.val y.w + F32.val (st 2))
    let s2 := once (k 2 * va - k 4 * F32.val y.w)
    ([y, s1, s2], 0)
  | _ => ([], 0)

/-- One operation of a level, reading the buffer as the level found it (R151). -/
def runOp (e : StepEnv) (at0 : List (Nat × Word)) (s : StepBuf) (o : GraphOp) : StepBuf :=
  if o.opcode = 0x30 then
    let base := o.a % 4096
    let (r, n) := (gfStep e.gf (fun i => readNode e at0 (base + i))).run 0
    { s with buf := ((idx 24).map fun i => (base + 8 + i.val, r.outs.getD i.val 0)) ++ s.buf,
             subs := s.subs + n, gf := some r }
  else
    let (rs, cl) := opValues e at0 o
    { s with buf := ((List.range rs.length).map fun i => (o.dst + i, (rs.getD i ⟨0, false⟩).w)) ++ s.buf,
             subs := s.subs + (rs.filter (·.sub)).length, clamps := s.clamps + cl }

/-- One level: its operations do not see one another's results (R151). -/
def runLevel (e : StepEnv) (s : StepBuf) (ops : List GraphOp) : StepBuf :=
  ops.foldl (runOp e s.buf) s

/-- A whole step from its input values (R146, R151). -/
def runGraph (e : StepEnv) (g : Graph) (inputs : List (Nat × Word)) : StepBuf :=
  (cutLevels g.levels g.ops).foldl (runLevel e) { buf := inputs }

end Sys2Proof.Machine
end

