-- ==== Sys2Proof/Machine/Pwm.lean ====
section
/-! DEFINITION. PWM generators and flag groups (R214 to R233): tokens and update points, the period under the short-pulse
and refill rules, blocking, fault sources and the writes of the generator registers. -/

namespace Sys2Proof.Machine

/-! ### The generator record (TYPE 0x0051) -/

/-- Settings of a generator, defaults applied. -/
structure GenCfg where
  policy : Nat
  upd : Bool
  phase : Nat
  syncCtx : Nat
  refillEn : Bool
  refillN : Nat
  /-- 0.01 % per unit. -/
  refillLim : Nat
  /-- ns. -/
  refillNs : Nat

/-- Fields of a generator record (R231 table). -/
def genCfg (p : List Byte) : GenCfg :=
  { policy := u8 p 14, upd := u8 p 15 == 1, phase := u32 p 16, syncCtx := u8 p 20, refillEn := u8 p 21 == 1,
    refillN := if u8 p 22 = 0 then 4 else u8 p 22,
    refillLim := if u16 p 24 = 0 then 9700 else u16 p 24,
    refillNs := if u16 p 26 = 0 then 500 else u16 p 26 }

/-- The record of generator g. -/
def genRec (g : Fin 16) (s : State) : GenCfg := genCfg (recD s 0x51 g.val)

/-- REFILL_W in steps of 78.125 ps, rounded up so that the pulse is at least that long (R224; log entry 20). -/
def refillSteps (c : GenCfg) : Nat := (c.refillNs * 64 + 4) / 5

/-- Half-bridges driven by generator g (R214). -/
def hbsOf (g : Fin 16) (s : State) : List (Fin 16) :=
  (idx 16).filter fun h => hasRec s 0x50 0 && u8 (recD s 0x50 0) h.val == g.val

/-- The generator of a half-bridge (R214). -/
def genOfHb (hb : Nat) (s : State) : Option (Fin 16) :=
  let g := u8 (recD s 0x50 0) hb
  if h : g < 16 then (if hasRec s 0x50 0 then some ⟨g, h⟩ else none) else none

/-! ### Fault sources and flag groups (R228, R229) -/

/-- The entry of a source in the pin-map record: groups, LATCH, TRIP. -/
def srcEntry (src : Nat) (s : State) : Option (Nat × Bool × Bool) :=
  let p := recD s 0x50 0
  ((List.range (u32 p 36)).find? fun j => u8 p (40 + 4 * j) == src).map fun j =>
    (u8 p (41 + 4 * j) % 16, u8 p (42 + 4 * j) % 2 == 1, u8 p (42 + 4 * j) / 2 % 2 == 1)

/-- Group k is active: held by a latch, or one of its sources is active (R228, R229). -/
def groupActive (s : State) (k : Nat) : Bool :=
  bit s.gate.fg.latched k ||
    s.gate.fg.active.any fun src => match srcEntry src s with
      | none => false
      | some e => e.1 / 2 ^ k % 2 == 1

/-- The active groups that hold generator g. -/
def holdsGen (s : State) (g : Nat) : List Nat :=
  (List.range 4).filter fun k => groupActive s k && u16 (recD s 0x50 0) (20 + 4 * k) / 2 ^ g % 2 == 1

/-- ACTION 1 acts on generator g: it is held, and by no group with ACTION 0 (R228). -/
def lowSidesOn (s : State) (g : Nat) : Bool :=
  let ks := holdsGen s g
  !ks.isEmpty && ks.all fun k => u8 (recD s 0x50 0) (22 + 4 * k) == 1

/-- The mode permits gate pulses, and no transition that stops them is in progress (R69, R70). -/
def modePulses (s : State) : Bool := inRun s && !(s.mode.busy && (s.mode.target == 3#4 || s.mode.target == 11#4))

/-- Half-bridge n is in the precharge set (R199). -/
def inPreSet (s : State) (n : Nat) : Bool := u16 (recD s 0x60 0) 24 / 2 ^ n % 2 == 1

/-- Why generator g is blocked as a whole: 1 mode, 2 every half-bridge outside PRE_SET, 3 flag group, 0 not (R227). -/
def blockReason (s : State) (g : Fin 16) : Fin 4 :=
  if !modePulses s then 1
  else if s.md == 4 && (hbsOf g s).all (fun h => !inPreSet s h.val) then 2
  else if !(holdsGen s g.val).isEmpty then 3
  else 0

/-- A generator becomes blocked: both sides off, and the carry, the refill state and LAST_SHORT cleared (R222, R227). -/
def blockGen (why : Fin 4) (now : Nat) (x : GenState) : GenState :=
  { x with block := why, blockAt := if x.block = 0 then now else x.blockAt, rWas := 2, carry := 0, carryIn := 0, acc := 0, n := 0, refill := false, short := 0, rFall := 0,
           hOff := true, lOff := true }

/-! ### Gate commands of the channels (R214, R216, R227, R228, R259 to R261) -/

/-- The length of the running period in counts. -/
def periodLen (x : GenState) : Nat := ((x.per : Int) + x.corr).toNat

/-- One tumbler changed. -/
def modTum (c : Fin 32) (f : Tumbler → Tumbler) (s : State) : State := modClaim (fun k => { k with tum := modAt k.tum c f }) s

/-- The half-bridge of a channel: GHnn is channel nn, GLnn is channel nn + 16 (R21, R25). -/
def hbOf (c : Fin 32) : Nat := c.val % 16

/-- The generator of a tumbler's channel. -/
def tumGen (c : Fin 32) (s : State) : Option (Fin 16) := genOfHb (hbOf c) s

/-- The generator that feeds a channel, in the lane that its tumbler forwards. -/
def chanGen (c : Fin 32) (s : State) : Option (Fin 16 × GenState) :=
  (tumGen c s).map fun g => (g, (s.lane (s.claim.tum[c]).src).pwm.gen[g])

/-- Half-bridge n is blocked beside its generator's others: M4 with n outside PRE_SET, until the next boundary (R69, R227). -/
def hbOut (x : GenState) (n : Nat) (s : State) : Bool := (s.md == 4 || x.preOnly) && !inPreSet s n

/-- No mode and no PRE_SET blocks a channel; a flag group may (R227, R261). -/
def modeRuns (c : Fin 32) (s : State) : Bool :=
  match chanGen c s with
  | none => false
  | some (g, x) => x.on && !hbOut x (hbOf c) s && (x.block == 0 || x.block == 3) && (blockReason s g == 0 || blockReason s g == 3)

/-- A tumbler forwards edges: its channel has a generator that is not blocked (R259). -/
def tumRuns (c : Fin 32) (s : State) : Bool :=
  match chanGen c s with
  | none => false
  | some (g, x) => modeRuns c s && x.block == 0 && blockReason s g == 0

/-- A flag group with ACTION 1 holds the low side of a channel on (R228). -/
def heldLow (c : Fin 32) (s : State) : Bool :=
  match chanGen c s with
  | none => false
  | some (g, _) => decide (16 ≤ c.val) && modeRuns c s && lowSidesOn s g.val

/-- The gate command of a channel may be on: its enable line and the supervisor let it, and nothing blocks it. -/
def cmdAllowed (c : Fin 32) (s : State) : Bool :=
  bit s.plk.enabled c.val && !s.gate.allOff && (tumRuns c s || heldLow c s)

/-- The gate command of a channel is on. -/
def gateOn (s : State) (c : Fin 32) : Bool :=
  cmdAllowed c s && ((s.gate.ch[c]).onUntil).all fun t => decide (s.now < t)

/-- The gate command of a channel ends. -/
def cutGate (c : Fin 32) (s : State) : State :=
  modCh c (fun x => { x with
    onUntil := some (min (x.onUntil.getD s.now) s.now), edgeAt := max x.edgeAt s.now, blanking := false }) s

/-- Where the command of a side rises in the running period, in steps from the boundary (R216). -/
def genRise (high : Bool) (x : GenState) : Option Nat :=
  if high then (if x.hOff || x.rWas = 1 || x.rFall ≤ x.dt then none else some x.dt)
  else if x.lOff then none
  else if x.rFall = 0 then (if x.rWas = 0 then none else some x.dt)
  else if 32 * periodLen x ≤ x.rFall + x.dt then none
  else some (x.rFall + x.dt)

/-- Where it falls: the high side with the reference, the low side at a boundary where the reference rises (R216). -/
def genFall (high : Bool) (x : GenState) : Option Nat :=
  if high then (if x.rFall < 32 * periodLen x then some x.rFall else none)
  else if 0 < x.rFall then some 0 else none

/-- An instant of a period that began at a tick, in whole ticks. -/
def stepTick (start n : Nat) : Nat := start + (n + 31) / 32

/-- The last replayed boundary of a tumbler in hold, in steps (R260). -/
def replayStart (t : Tumbler) (r : RecordedPeriod) (now : Nat) : Nat :=
  32 * t.base + 32 * (now - t.base) / max r.len 1 * r.len

/-- The first fall of a replayed pattern at or after a step of a replayed period; none: it has no fall. -/
def replayFall (r : RecordedPeriod) (start n : Nat) : Option Nat :=
  r.fall.map fun q => if n ≤ start + q then start + q else start + r.len + q

/-- The next turn-on edge of a channel's command and the fall that follows it, in ticks (R216, R228, R260); none: there is
none. -/
def nextEdge (c : Fin 32) (s : State) : Option (Nat × Option Nat) :=
  match chanGen c s with
  | none => none
  | some (_, x) =>
    let t := s.claim.tum[c]
    if heldLow c s && x.block = 3 then some (stepTick x.blockAt x.dt, none)
    else if !tumRuns c s then none
    else if t.hold then
      match t.record with
      | none => none
      | some r =>
        let p := replayStart t r s.now
        let edge := fun (start n : Nat) => (stepTick 0 (start + n), (replayFall r start (start + n)).map (stepTick 0))
        r.rise.map fun n =>
          let e := edge p n
          if e.2.any fun f => decide (f ≤ s.now) then edge (p + r.len) n else e
    else
      let high := decide (c.val < 16)
      (genRise high x).map fun n =>
        (stepTick x.start n, if high then (genFall high x).map (stepTick x.start) else none)

/-- When a command that is on falls next as far as the pattern says. -/
def nextFall (c : Fin 32) (s : State) : Option Nat :=
  match chanGen c s with
  | none => some s.now
  | some (_, x) =>
    let t := s.claim.tum[c]
    if heldLow c s then none
    else if t.hold then
      match t.record with
      | none => some s.now
      | some r => (replayFall r (replayStart t r s.now) (32 * s.now)).map (stepTick 0)
    else
      let high := decide (c.val < 16)
      (genFall high x).map fun n => if !high && decide (stepTick x.start n < s.now) then s.now else stepTick x.start n

/-- A channel whose command is on falls where its pattern now says. -/
def followFall (c : Fin 32) (s : State) : State :=
  if gateOn s c then
    let f := nextFall c s
    modCh c (fun x => { x with onUntil := f }) s
  else s

/-- Blocked commands end, and commands that ran on follow a change of their blocks. -/
def settleGates (s : State) : State :=
  foldS (idx 32) (fun c t =>
    if ((t.gate.ch[c]).onUntil).all (fun u => decide (t.now < u)) && !cmdAllowed c t then cutGate c t else t) s

/-- The lane a tumbler takes at the end of a hold (R260); none: neither claim is above 0x00. -/
def tumChoice (src : Lane) (s : State) : Option Lane :=
  if (s.lc (otherLane src)).claim ≠ 0 then some (otherLane src)
  else if (s.lc src).claim ≠ 0 then some src
  else none

/-- A block acts on the tumblers (R259, R261): a planned handover takes place at once, and a block by the mode or by PRE_SET
ends a replay, while a flag group lets it run on. -/
def settleTumblers (s : State) : State :=
  foldS (idx 32) (fun c t =>
    let u := t.claim.tum[c]
    if u.hold && !modeRuns c t then
      modTum c (fun x => { x with hold := false, record := none, src := (tumChoice x.src t).getD x.src }) t
    else if u.planned && !tumRuns c t then
      modTum c (fun x => { x with planned := false, record := none, src := otherLane x.src }) t
    else t) s

/-- Blocks that have begun act at once in both lanes, on the channels and on the tumblers; a block ends only at a carrier
boundary (R227). -/
def applyBlocks (s : State) : State :=
  settleGates (settleTumblers (foldS lanes (fun l => foldS (idx 16) (fun g t =>
    let why := blockReason t g
    if why = 0 then t else modGen l g (blockGen why t.now) t)) s))

/-- Fault source `src` asserts or clears (R228, R229), as the recorders stamp it (R340); they take the window exits from
their own lane's comparators (R338). -/
def setSourceAt (src : Nat) (on : Bool) (ticks : Long) (s : State) : State :=
  let fg := s.gate.fg
  if on = fg.active.contains src then s
  else if !on then
    settleGates (modGate (fun g => { g with fg := { g.fg with active := g.fg.active.filter (· != src) } }) s)
  else
    let s1 := when (!(decide (16 ≤ src) && decide (src < 48))) (noteTrigsAt src ticks)
      (modGate (fun g => { g with fg := { g.fg with active := g.fg.active ++ [src] } }) s)
    match srcEntry src s with
    | none => if 96 ≤ src && src ≤ 103 then protectionTrip s1 else s1
    | some (groups, latch, trip) =>
      let newly := (List.range 4).filter fun k => groups / 2 ^ k % 2 == 1 && !groupActive s k
      let s2 := modGate (fun g => { g with fg := { g.fg with
        latched := if latch then g.fg.latched ||| BitVec.ofNat 4 groups else g.fg.latched,
        first := newly.foldl (fun f k => put' f k (BitVec.ofNat 8 src)) g.fg.first } }) s1
      let s3 := if newly.isEmpty then s2 else raise (.pwm .a) 5 (raise (.pwm .b) 5 s2)
      applyBlocks (when (trip || (96 ≤ src && src ≤ 103)) protectionTrip s3)

/-- Fault source `src` asserts or clears now. -/
def setSource (src : Nat) (on : Bool) (s : State) : State := setSourceAt src on s.raw s

/-- The comparator of a pin is outside its band, after debouncing, in a lane with a claim (R134). -/
def winSource (pin : Fin 32) (s : State) : Bool :=
  lanes.any fun l => (s.lc l).claim != 0 && ((s.lane l).meas.pin[pin]).win != 0

/-- Fault source 16 + p follows the comparators of its pin (R134, R228). -/
def refreshWin (pin : Fin 32) (s : State) : State := setSource (16 + pin.val) (winSource pin s) s

/-- The condition of a fault source (R228): what State holds of it. -/
def sourceHolds (src : Nat) (s : State) : Bool :=
  if src < 4 then !bit s.gate.fg.healthy src
  else if 16 ≤ src && src < 48 then winSource (Fin.ofNat 32 (src - 16)) s
  else if 64 ≤ src && src < 96 then decide (3 ≤ ((s.gate.ch[Fin.ofNat 32 (src - 64)]).state).val)
  else if 96 ≤ src && src < 104 then lanes.any fun l => ((s.lane l).eng.ctx[Fin.ofNat 8 (src - 96)]).osc == 3
  else false

/-! ### One period (R220, R221, R224) -/

/-- A computed period: the fall of the reference, what is carried on, the short pulse, and the sides held off. -/
structure Period where
  fall : Nat
  carry : Int := 0
  short : Fin 3 := 0
  hOff : Bool := false
  lOff : Bool := false
  deriving DecidableEq, Repr

/-- The short-pulse rules (R221): T, DT, MINP and d in steps. -/
def shortRules (policy T dt minp : Nat) (d : Int) : Period :=
  let w : Nat := max minp 1
  if d ≤ 0 then { fall := 0, carry := if policy = 0 then d else 0 }
  else if (T : Int) ≤ d then { fall := T, carry := if policy = 0 then d - T else 0 }
  else if d - dt < w then
    if policy = 0 then { fall := 0, carry := d, short := 1 }
    else if policy = 1 then { fall := dt + w, short := 1 }
    else { fall := d.toNat, short := 1, hOff := true }
  else if (T : Int) - d - dt < w then
    if policy = 0 then { fall := T, carry := d - T, short := 2 }
    else if policy = 1 then { fall := T - dt - w, short := 2 }
    else { fall := d.toNat, short := 2, lOff := true }
  else { fall := d.toNat }

/-- A duty in steps for a period, clamped, and whether it was (R217). -/
def dutySteps (per : Nat) (d : DutyVal) : Nat × Bool :=
  let t := 32 * per
  match d with
  | .steps n => if t < n then (t, true) else (n, false)
  | .frac w =>
    let q := F32.val w * (t : Rat)
    if q < 0 then (0, true)
    else
      let n := F32.roundDiv q.num.natAbs q.den
      if t < n then (t, true) else (n, false)

/-- The binary32 fraction of a duty in effect (R233). -/
def dutyFrac (per duty : Nat) : Word := if per = 0 then 0#32 else F32.ofRat (mkRat duty (32 * per))

/-- The duty is above REFILL_LIM × T (R224). -/
def aboveRefill (c : GenCfg) (per : Nat) (d : Int) : Bool := decide ((c.refillLim * 32 * per : Nat) < d * 10000)

/-- A duty takes effect against a period, with its clamp event (R217). -/
def takeDuty (l : Lane) (g : Fin 16) (per : Nat) (d : DutyVal) (s : State) : State :=
  let r := dutySteps per d
  raiseIf r.2 (.pwm l) 1 (modGen l g (fun x => { x with duty := r.1, dutyf := dutyFrac per r.1 }) s)

/-- Short pulses are counted and marked (R221). -/
def withPeriod (p : Period) (x : GenState) : GenState :=
  { x with rFall := p.fall, carry := p.carry, short := p.short, hOff := p.hOff, lOff := p.lOff,
           shorts := if p.short ≠ 0 then satInc x.shorts else x.shorts }

/-- A period of a generator that is not blocked is computed at its boundary (R221, R224); a duty of exactly T keeps the high
side on for the period whatever its length (R225, R230). -/
def computePeriod (l : Lane) (g : Fin 16) (s : State) : State :=
  let c := genRec g s
  let x := (s.lane l).pwm.gen[g]
  let T := 32 * periodLen x
  let full := decide (32 * x.per ≤ x.duty)
  let d0 : Int := (if full then (T : Int) else x.duty) + x.carry
  if c.refillEn && !full && aboveRefill c x.per d0 then
    let acc := x.acc + ((T : Int) - d0)
    let n := x.n + 1
    if n < c.refillN then
      modGen l g (fun x => { x with
        refill := true, acc := acc, n := n, carryIn := x.carry, carry := 0, short := 0,
        rFall := T, hOff := false, lOff := false }) s
    else
      let wReq := refillSteps c + x.dt
      let w := max acc.toNat (max wReq (x.minp + x.dt))
      raiseIf (decide (acc < wReq)) (.pwm l) 3 (modGen l g (fun x => { x with
        refill := true, acc := 0, n := 0, carryIn := x.carry, carry := 0, short := 0,
        rFall := T - w, hOff := false, lOff := false, refills := satInc x.refills }) s)
  else
    let p := shortRules c.policy T x.dt x.minp (d0 - x.acc)
    modGen l g (fun x => withPeriod p { x with refill := false, acc := 0, n := 0, carryIn := x.carry }) s

/-- The count of a generator (R215). -/
def genCount (s : State) (x : GenState) : Nat := if x.on then s.now - x.start else 0

/-- The channels that a generator of a lane feeds outside hold. -/
def fedBy (l : Lane) (g : Fin 16) (s : State) : List (Fin 32) :=
  (idx 32).filter fun c => tumGen c s == some g && (s.claim.tum[c]).src == l && !(s.claim.tum[c]).hold

/-- The fall of the running period is placed anew by the short-pulse rules (R220, R230): not before the present position,
nor before DT + max(MINP, 1 step). -/
def replace (l : Lane) (g : Fin 16) (p : Period) (s : State) : State :=
  let x := (s.lane l).pwm.gen[g]
  let pos := 32 * genCount s x
  let lo := max pos (x.dt + max x.minp 1)
  let counted := p.short ≠ 0 && x.short = 0
  foldS (fedBy l g s) followFall (modGen l g (fun x => { x with
    rFall := max p.fall lo, carry := p.carry, short := p.short, hOff := p.hOff, lOff := p.lOff,
    shorts := if counted then satInc x.shorts else x.shorts }) s)

/-- A pending pair acts within the running period (R219, R220). -/
def updateNow (l : Lane) (g : Fin 16) (s : State) : State :=
  let x := (s.lane l).pwm.gen[g]
  match x.pend with
  | none => s
  | some (per, d) =>
    let c := genRec g s
    let steps := dutySteps per d
    let d' := steps.1
    let pos := 32 * genCount s x
    let T := 32 * periodLen x
    let s1 := raiseIf steps.2 (.pwm l) 1 (modGen l g (fun x => { x with
      duty := d', dutyf := dutyFrac per d', perNext := some per, pend := none,
      acc := 0, n := 0, refill := false }) s)
    if x.block ≠ 0 || x.rFall ≤ pos then s1
    else
      let p := shortRules c.policy T x.dt x.minp ((d' : Int) + x.carryIn)
      raiseIf (decide (p.fall < pos)) (.pwm l) 2 (replace l g p s1)

/-! ### Commit tokens (R218, R226) -/

/-- 2 × (DT + MINP) ≤ T (R223). -/
def dtFits (per dt minp : Nat) : Bool := decide (2 * (dt + minp) ≤ 32 * per)

/-- A token that finds a staged duty forms a pair, unless its PER would break 2 × (DT + MINP) ≤ T (R218, R223). -/
def tokenForms (x : GenState) : Bool :=
  x.on && x.stDuty.isSome && dtFits (x.stPer.getD x.accPer) (x.dtNext.getD x.dt) (x.minpNext.getD x.minp)

/-- A commit token reaches generator g of lane l (R218). -/
def token (l : Lane) (g : Fin 16) (s : State) : State :=
  let x := (s.lane l).pwm.gen[g]
  if !x.on then s
  else match x.stDuty with
    | some d =>
      let per := x.stPer.getD x.accPer
      if dtFits per (x.dtNext.getD x.dt) (x.minpNext.getD x.minp) then
        modGen l g (fun x => { x with
          pend := some (per, d), pendAt := s.now, accPer := per, stPer := none, stDuty := none, splitPend := false }) s
      else raise (.pwm l) 0 (modGen l g (fun x => { x with splitPend := true }) s)
    | none =>
      if x.stPer.isSome then raise (.pwm l) 0 (modGen l g (fun x => { x with splitPend := true }) s) else s

/-- The pair of a branch commit's token acts at once, or at the next boundary in a refill that goes on (R219, R226); a split
pair leaves an older one to its own update point. -/
def branchToken (l : Lane) (g : Fin 16) (s : State) : State :=
  let s1 := token l g s
  let x := (s1.lane l).pwm.gen[g]
  match x.pend with
  | none => s1
  | some (per, d) =>
    if !tokenForms ((s.lane l).pwm.gen[g]) then s1 else
    if x.refill && aboveRefill (genRec g s1) per (dutySteps per d).1 then s1 else updateNow l g s1

/-! ### Carrier boundary and mid-period (R219, R221, R227) -/

/-- The period just ended, as the tumbler of a high or a low side records it (R259). -/
def recordedPeriod (high : Bool) (x : GenState) : RecordedPeriod :=
  { rise := genRise high x, fall := genFall high x, len := 32 * periodLen x }

/-- Tumblers whose source is this generator of this lane record the period (R259); a blocked generator leaves none. -/
def recordPeriods (l : Lane) (g : Fin 16) (s : State) : State :=
  let x := (s.lane l).pwm.gen[g]
  foldS (hbsOf g s) (fun h t =>
    foldS [h.val, h.val + 16] (fun c t =>
      modClaim (fun k =>
        let u := at' k.tum c {}
        if u.src = l && !u.hold then
          { k with tum := put' k.tum c { u with record := if x.block ≠ 0 || hbOut x h.val t then none else some (recordedPeriod (c < 16) x) } }
        else k) t) t) s

/-- The correction of a period, at most PER / 16 (R230). -/
def corrOf (per : Nat) (err : Int) : Int := clampInt (-((per / 16 : Nat) : Int)) ((per / 16 : Nat) : Int) err

/-- Pending values take effect at a boundary (R219, R223). -/
def takePending (l : Lane) (g : Fin 16) (s : State) : State :=
  let x := (s.lane l).pwm.gen[g]
  let s1 := modGen l g (fun x => { x with
    per := x.perNext.getD x.per, perNext := none, dt := x.dtNext.getD x.dt, dtNext := none,
    minp := x.minpNext.getD x.minp, minpNext := none }) s
  match x.pend with
  | none => s1
  | some (per, d) => takeDuty l g per d (modGen l g (fun x => { x with per := per, pend := none }) s1)

/-- The carrier boundary of a generator (R215, R219, R221, R227): its counter restarts when the running period ends. -/
def execCarrierBoundary (l : Lane) (g : Fin 16) (s : State) : Out :=
  let x := (s.lane l).pwm.gen[g]
  if !x.on then .next s
  else
    let at0 := x.start + periodLen x
    let ran := (fedBy l g s).filter fun c => ((s.gate.ch[c]).onUntil).isNone
    let s1 := takePending l g (recordPeriods l g (elapseTo at0 s))
    let s2 := modGen l g (fun x =>
      let e := x.errLeft
      let k := corrOf x.per e
      { x with
        start := if x.fresh && (genRec g s1).syncCtx = 0xFF then at0 - (genRec g s1).phase else at0,
        fresh := false, corr := k, errLeft := e - k, preOnly := s1.md == 4,
        rWas := if x.block ≠ 0 then 2 else if 32 * (at0 - x.start) ≤ x.rFall then 1 else 0 }) s1
    let why := blockReason s2 g
    if why ≠ 0 then .next (settleGates (modGen l g (blockGen why s2.now) s2))
    else
      let s3 := computePeriod l g (modGen l g (fun x => { x with block := 0, hOff := false, lOff := false }) s2)
      .next (foldS ran followFall (settleGates s3))

/-- At count ⌊PER / 2⌋ a generator with UPD 1 takes a pair whose token arrived before it, unless it is in refill (R219, R220,
R226). -/
def execMidPeriodUpdate (l : Lane) (g : Fin 16) (s : State) : Out :=
  let x := (s.lane l).pwm.gen[g]
  if !x.on then .next s
  else
    let mid := x.start + x.per / 2
    let s1 := elapseTo mid s
    if (genRec g s1).upd && !x.refill && decide (x.pendAt ≤ mid) then .next (updateNow l g s1) else .next s1

/-- A corrected length places the fall of the running period anew, unless the reference has fallen (R221, R224, R230): `old`
is the length it had in steps. -/
def refit (l : Lane) (g : Fin 16) (old : Nat) (s : State) : State :=
  let x := (s.lane l).pwm.gen[g]
  let T := 32 * periodLen x
  if x.block ≠ 0 || T = old || x.rFall ≤ 32 * genCount s x then s
  else if x.refill then
    foldS (fedBy l g s) followFall (modGen l g (fun x => { x with rFall := T - (old - x.rFall) }) s)
  else
    let d : Int := (if 32 * x.per ≤ x.duty then (T : Int) else x.duty) + x.carryIn
    replace l g (shortRules (genRec g s).policy T x.dt x.minp d) s

/-- A trigger of context `ctx` finds the counters of the generators aligned to it (R230); `step` is the step's number. -/
def alignCarriers (l : Lane) (ctx : Fin 8) (step : Nat) (s : State) : State :=
  let period := u32 (recD s 0x40 ctx.val) 0
  foldS (idx 16) (fun g t =>
    let x := (t.lane l).pwm.gen[g]
    let c := genRec g t
    if x.on && c.syncCtx = ctx.val && 0 < x.per then
      let want := (c.phase + step * period) % x.per
      let e0 : Int := ((genCount t x : Nat) : Int) - want
      let m : Int := e0 % (x.per : Int)
      let err : Int := if 2 * m ≤ x.per then m else m - x.per
      let k := corrOf x.per err
      raiseIf (decide ((x.per : Int) < 4 * (if err < 0 then -err else err))) (.pwm l) 4
        (refit l g (32 * periodLen x) (modGen l g (fun x => { x with corr := k, errLeft := err - k }) t))
    else t) s

/-! ### Register writes (R217, R218, R223, R229, R232) -/

/-- PWM_PER staged in one lane; a value outside 2000 to 6 666 666 is discarded (log entry 20). -/
def stagePer (l : Lane) (g : Fin 16) (v : Word) (s : State) : State :=
  let n := fld v 0 24
  if 2000 ≤ n && n ≤ 6666666 then modGen l g (fun x => { x with stPer := some n }) s else s

/-- PWM_DUTY staged in one lane. -/
def stageDuty (l : Lane) (g : Fin 16) (v : Word) (s : State) : State :=
  modGen l g (fun x => { x with stDuty := some (.steps (fld v 0 29)) }) s

/-- PWM_DUTYF staged in one lane; a NaN or an infinity is discarded with DUTY_CLAMP (R217). -/
def stageDutyf (l : Lane) (g : Fin 16) (v : Word) (s : State) : State :=
  if F32.isFinite v then modGen l g (fun x => { x with stDuty := some (.frac v) }) s else raise (.pwm l) 1 s

/-- A host write of PWM_PER lands in the shadows of both lanes (R217). -/
def execPwmPerWrite (l : Lane) (g : Fin 16) (v : Word) (s : State) : Out :=
  .next (mirror l (.pwmPer g v) (stagePer l g v s))

/-- A host write of PWM_DUTY lands in the shadows of both lanes (R217). -/
def execPwmDutyWrite (l : Lane) (g : Fin 16) (v : Word) (s : State) : Out :=
  .next (mirror l (.pwmDuty g v) (stageDuty l g v s))

/-- A host write of PWM_DUTYF lands in the shadows of both lanes (R217). -/
def execPwmDutyfWrite (l : Lane) (g : Fin 16) (v : Word) (s : State) : Out :=
  .next (if F32.isFinite v then mirror l (.pwmDutyf g v) (stageDutyf l g v s) else stageDutyf l g v s)

/-- Tokens for the generators of a mask in one lane. -/
def tokens (l : Lane) (mask : Half) (s : State) : State :=
  foldS (idx 16) (fun g t => if bit mask g.val then token l g t else t) s

/-- A write of PWM_COMMIT acts on both lanes (R218, R232). -/
def execPwmCommit (l : Lane) (mask : Half) (s : State) : Out := .next (mirror l (.pwmCommit mask) (tokens l mask s))

/-- Latches of the groups in a mask are released where no source of the group is active (R229). -/
def clearGroups (mask : BitVec 4) (s : State) : State :=
  foldS (List.range 4) (fun k t =>
    let live := t.gate.fg.active.any fun src => match srcEntry src t with
      | none => false
      | some e => e.1 / 2 ^ k % 2 == 1
    if bit mask k && !live then
      settleGates (modGate (fun g => { g with fg := { g.fg with latched := putBit g.fg.latched k false } }) t)
    else t) s

/-- FG_CLR acts on the gate supervisor, so that a write in either lane acts on both (R229, R232). -/
def execFgClr (_l : Lane) (mask : BitVec 4) (s : State) : Out := .next (clearGroups mask s)

/-- Fault source `src` asserts or clears (R228), where its condition has done so. -/
def execFaultSourceChange (src : Fin 104) (active : Bool) (s : State) : Out :=
  .next (when (decide (sourceHolds src.val s = active)) (setSource src.val active) s)

/-- The stamp of a FLTIN crossing `holdNs` ago (R340): the path delay of 35 ns ± 5 ns to the time-to-digital converter is not
subtracted, and is a free value (R387; log entry 4). -/
def fltinStamp (holdNs : Nat) (s : State) : Long × State :=
  let (n, s1) := takeFree s
  (s.raw - BitVec.ofNat 64 (holdNs * 2 / 5 - (12 + n % 5)), s1)

/-- A FLTIN input has stood at a level for its filter time (R28, R228): a fault at 0.8 V or less, healthy at 2.0 V or
more, and between the levels its last state (log entry 20). -/
def execFltinChange (i : Fin 4) (mv : Int) (holdNs : Nat) (s : State) : Out :=
  let filt := 25 * max 4 (u8 (recD s 0x50 0) (16 + i.val))
  if holdNs < filt then .next s
  else if mv ≤ 800 then
    let (t, s1) := fltinStamp holdNs s
    .next (setSourceAt i.val true t (modGate (fun g => { g with
      fg := { g.fg with healthy := putBit g.fg.healthy i.val false } }) s1))
  else if 2000 ≤ mv then
    .next (setSource i.val false (modGate (fun g => { g with
      fg := { g.fg with healthy := putBit g.fg.healthy i.val true } }) s))
  else .next s

end Sys2Proof.Machine
end

