-- ==== Sys2Proof/Machine/Gate.lean ====
section
/-! DEFINITION. Gate channels and power-stage protection (R234 to R250): rails, short-circuit trips, fault events and
retry, the charge window, the spare stage and the self-test. -/

namespace Sys2Proof.Machine

/-- Settings of a gate channel, defaults applied (TYPE 0x0052). -/
structure ChanCfg where
  ls : Nat
  scVth : Nat
  blank : Nat
  softT : Nat
  iSc : Nat
  iHard : Nat
  rtWait : Nat
  rtMax : Nat
  softI : Nat
  qgMin : Nat
  qgMax : Nat
  ogCnt : Nat
  spareAuto : Bool

/-- A field whose zero selects a default. -/
def orDefault (v d : Nat) : Nat := if v = 0 then d else v

/-- Fields of a gate-channel record. -/
def chanCfg (p : List Byte) : ChanCfg :=
  { ls := u16 p 0, scVth := u16 p 2, blank := orDefault (u16 p 4) 300, softT := orDefault (u16 p 6) 2000,
    iSc := u16 p 8, iHard := u16 p 10, rtWait := orDefault (u16 p 12) 10, rtMax := u8 p 14,
    softI := orDefault (u8 p 15) 20, qgMin := u16 p 16, qgMax := u16 p 18, ogCnt := orDefault (u8 p 20) 4,
    spareAuto := u8 p 21 % 2 == 1 }

/-- The record of channel c. -/
def chanRec (c : Fin 32) (s : State) : ChanCfg := chanCfg (recD s 0x52 c.val)

/-- The high-side channel of a half-bridge (R25). -/
def highSide (hb : Fin 16) : Fin 32 := ⟨hb.val, by omega⟩

/-- The low-side channel of a half-bridge (R25). -/
def lowSide (hb : Fin 16) : Fin 32 := ⟨hb.val + 16, by omega⟩

/-- The gate power of a channel is in regulation: the converter feeds the low side directly and the high side through the
bootstrap diode, and the high side has its trickle pump beside it (R35, R36; log entry 21). -/
def powered (s : State) (c : Fin 32) : Bool :=
  bit s.power.convOk (hbOf c) && (decide (16 ≤ c.val) || bit s.power.pumpOk (hbOf c))

/-- The state of a channel that stands neither in a turn-off, a wait nor a latch. -/
def restState (s : State) (c : Fin 32) : Fin 7 :=
  let x := s.gate.ch[c]
  if !hasRec s 0x52 c.val then 0
  else if x.lowPos || x.lowNeg then 6
  else 2

/-- The state of a channel changes, and its fault source with it: active in states 3 to 6 (R240). -/
def setChState (c : Fin 32) (st : Fin 7) (s : State) : State :=
  setSource (64 + c.val) (decide (3 ≤ st.val)) (modCh c (fun x => { x with state := st }) s)

/-- Events of the last 60 s. -/
def recentEvents (s : State) (c : Fin 32) : Nat :=
  ((s.gate.ch[c]).events.filter fun t => decide (s.now < t + secs 60)).length

/-- A channel takes no edge that has come before now. -/
def passEdges (c : Fin 32) (s : State) : State := modCh c (fun x => { x with edgeAt := max x.edgeAt s.now }) s

/-- A channel latches: SC_LATCH, and a protection trip (R71, R242). -/
def latchCh (c : Fin 32) (s : State) : State := protectionTrip (raise .gch 1 (setChState c 5 s))

/-- The latest fault event is still open for trips (R241). -/
def eventOpen (s : State) : Bool :=
  match s.gate.faults.getLast? with
  | none => false
  | some e => !e.closed && decide (s.now ≤ e.start + us 10)

/-- A trip joins the open event or starts one (R241); a channel counts an event once. -/
def joinEvent (c : Fin 32) (s : State) : State :=
  if eventOpen s then
    let had := match s.gate.faults.getLast? with
      | none => false
      | some e => e.chans.contains c
    let s1 := modGate (fun g => { g with
      faults := g.faults.dropLast ++ (match g.faults.getLast? with
        | none => []
        | some e => [{ e with chans := if had then e.chans else e.chans ++ [c], waitEnd := none }]) }) s
    if had then s1 else modCh c (fun x => { x with events := s.now :: x.events }) s1
  else
    modCh c (fun x => { x with events := s.now :: x.events })
      (modGate (fun g => { g with faults := g.faults ++ [{ start := s.now, chans := [c] }] }) s)

/-- The soft turn-off starts (R240); it begins within 120 ns of the detection, at a time the spec leaves open
(log entry 4), and ends SOFT_T later. -/
def softOff (c : Fin 32) (cause : Fin 7) (s : State) : State :=
  let (f, s1) := takeFree s
  let dur := (chanRec c s).softT * 2 / 5
  setChState c 3 (modCh c (fun x => { x with cause := cause, softEnd := s.now + f % 49 + dur }) (cutGate c s1))

/-- Amperes of an estimate, for GCH_IEST. -/
def estAmps (e : Int) : Half := BitVec.ofNat 16 (min (e / 65536).toNat 65535)

/-- A short-circuit trip, which an integrator limit records in GCH_IEST (R240, R241, R250). -/
def tripCh (c : Fin 32) (cause : Fin 7) (s : State) : State :=
  let s1 := modCh c (fun x => { x with
    trips := satInc x.trips, tripA := if cause = 1 then x.tripA else estAmps x.est }) s
  raise .gch 0 (joinEvent c (softOff c cause s1))

/-- The charge of a judged turn-on lies outside the window (R245). -/
def chargeBad (k : ChanCfg) (q : Nat) : Bool :=
  (k.qgMin != 0 || k.qgMax != 0) && (decide (q < k.qgMin) || decide (k.qgMax < q))

/-- OG_CNT judged turn-ons fell outside the window (R245). -/
def openGate (c : Fin 32) (s : State) : State :=
  let k := chanRec c s
  let x := s.gate.ch[c]
  let s1 := raise .gch 3 s
  if k.spareAuto && !x.spare then
    modCh c (fun x => { x with ogRun := 0, swapPend := some (1, x.qg.toNat) }) s1
  else softOff c 4 s1

/-- A channel accepts turn-on edges: not off by its enable detector (R318) or the supervisor's block, and armed, or
blocked with its rails back above release (R237, R240). -/
def acceptsEdge (s : State) (c : Fin 32) : Bool :=
  let x := s.gate.ch[c]
  bit s.plk.enabled c.val && !s.gate.allOff && (x.state == 2 || (x.state == 6 && !x.lowPos && !x.lowNeg))

/-- The edge that a channel takes next, and the fall that follows it: none while it takes no edge, while its command is on,
or while the edge of its pattern has been taken or has passed (R216, R237, R239). -/
def dueEdge (c : Fin 32) (s : State) : Option (Nat × Option Nat) :=
  let x := s.gate.ch[c]
  if !acceptsEdge s c || gateOn s c then none
  else (nextEdge c s).filter fun e => decide (x.edgeAt < e.1) && e.2.all fun f => decide (max e.1 s.now < f)

/-- The charge of a turn-on is judged: a window is set and the on-time is 1 µs or more (R245). A pulse that is to run on past
the carrier boundary counts up to it (log entry 72). -/
def judges (c : Fin 32) (edge : Nat × Option Nat) (s : State) : Bool :=
  let k := chanRec c s
  let boundary := match chanGen c s with
    | none => edge.1
    | some (_, x) => x.start + periodLen x
  (k.qgMin != 0 || k.qgMax != 0) && decide (edge.1 + us 1 ≤ edge.2.getD boundary)

/-- The estimate after the sense voltage has stood at `mv` mV for `ns` ns: the leaky integral of v / L_S with a time
constant of 100 µs (R238), rounded down to units of 2⁻¹⁶ A (log entry 77); 1 mV over 1 pH is 1 A/ns. -/
def estStep (ls : Nat) (e : Int) (v : Int × Nat) : Int :=
  let keep := F32.expNeg (mkRat (v.2 % 100000) 100000) * (F32.expNeg 1) ^ min (v.2 / 100000) 40
  ((e : Rat) * keep + mkRat (v.1 * 65536 * 100000) (max ls 1) * (1 - keep)).floor

/-- The sense voltage of a channel is integrated, and time passes with it. -/
def sensed (c : Fin 32) (v : List (Int × Nat)) (s : State) : State :=
  let x := s.gate.ch[c]
  let upTo := x.estAt + (v.foldl (fun n e => n + e.2) 0) * 2 / 5
  modCh c (fun x => { x with est := v.foldl (estStep (chanRec c s).ls) x.est, estAt := upTo }) (elapseTo upTo s)

/-- The end of the running blanking (R239). -/
def blankUntil (c : Fin 32) (s : State) : Nat := (s.gate.ch[c]).onAt + (chanRec c s).blank * 2 / 5

/-- A trip is taken: the channel is armed with its command on, or a block has ended the on-pulse in the same housekeeping
cycle of 25 ns (R238, R240). -/
def takesTrip (c : Fin 32) (s : State) : Bool :=
  let x := s.gate.ch[c]
  (x.state == 2 && gateOn s c) || (x.state == 6 && x.cutAt.any fun t => t / 10 == s.now / 10)

/-- The estimate of a channel is above a limit in amperes. -/
def estAbove (c : Fin 32) (limit : Nat) (s : State) : Bool := decide ((limit : Int) * 65536 < (s.gate.ch[c]).est)

/-- The rails of a channel stand at these voltages (R237): a warning, a block or its release follows from each crossing. -/
def railCrossing (ch : Fin 32) (posMv negMv : Int) (s : State) : State :=
  let x := s.gate.ch[ch]
  if !hasRec s 0x52 ch.val then s
  else
    let warnPos := decide (posMv < 16000)
    let warnNeg := decide (-3500 < negMv)
    let lowPos := decide (posMv < 14500) || (x.lowPos && decide (posMv ≤ 15500))
    let lowNeg := decide (-2500 < negMv) || (x.lowNeg && decide (-3000 ≤ negMv))
    let s1 := modCh ch (fun x => { x with
      posMv := posMv, negMv := negMv, warnPos := warnPos, warnNeg := warnNeg, lowPos := lowPos, lowNeg := lowNeg,
      boot := x.boot && lowPos,
      edgeAt := if (x.lowPos || x.lowNeg) && !(lowPos || lowNeg) then max x.edgeAt s.now else x.edgeAt }) s
    let s2 := raiseIf ((warnPos && !x.warnPos) || (warnNeg && !x.warnNeg)) .gch 6 s1
    let s3 := raiseIf ((lowPos || lowNeg) && !(x.lowPos || x.lowNeg)) .gch 7 s2
    if x.state == 2 && (lowPos || lowNeg) then
      setChState ch 6 (modCh ch (fun x => { x with
        cause := 6, cutAt := if gateOn s ch then some s.now else x.cutAt }) (cutGate ch s3))
    else if x.state == 6 && x.boot && !lowPos && !lowNeg then setChState ch 2 s3
    else s3

/-- The next turn-on edge of a channel's command (R216, R237, R239, R245, R260): blanking and the integrator start, and the
charge is judged; an edge the channel does not take has no effect. The charge may take the positive rail across a level. -/
def execGateTurnOn (ch : Fin 32) (chargeNc : Nat) (posMv : Int) (s : State) : Out :=
  match dueEdge ch s with
  | none => .next s
  | some edge =>
    let s1 := elapseTo edge.1 s
    let s2 := when ((s.gate.ch[ch]).state == 6) (setChState ch 2) s1
    let k := chanRec ch s
    let judged := judges ch edge s
    let s3 := modCh ch (fun x => { x with
      onUntil := edge.2, onAt := s1.now, edgeAt := edge.1, est := 0, estAt := s1.now, blanking := true,
      qg := if judged then BitVec.ofNat 16 (min chargeNc 65535) else x.qg,
      ogRun := if !judged then x.ogRun else if chargeBad k chargeNc then satInc x.ogRun else 0 }) s2
    .next (railCrossing ch posMv (s.gate.ch[ch]).negMv
      (when (judged && decide (k.ogCnt ≤ ((s3.gate.ch[ch]).ogRun).toNat)) (openGate ch) s3))

/-- Blanking ends BLANK after the turn-on edge (R239): an estimate already above I_SC trips at once. -/
def execBlankEnd (ch : Fin 32) (sense : List (Int × Nat)) (s : State) : Out :=
  if !(s.gate.ch[ch]).blanking then .next s
  else
    let s1 := modCh ch (fun x => { x with blanking := false }) (elapseTo (blankUntil ch s) (sensed ch sense s))
    if takesTrip ch s1 && estAbove ch (chanRec ch s).iSc s1 then .next (tripCh ch 2 s1) else .next s1

/-- A detection path trips (R238, R239): the comparator and the estimate act only after blanking, the hard limit always. -/
def execScTrip (ch : Fin 32) (path : TripPath) (sense : List (Int × Nat)) (mv : Int) (s : State) : Out :=
  if !takesTrip ch s then .next s
  else
    let s1 := sensed ch sense s
    let k := chanRec ch s
    let masked := (s.gate.ch[ch]).blanking && decide (s1.now < blankUntil ch s)
    let trips : Bool × Fin 7 := match path with
      | .comparator => (!masked && decide ((k.scVth : Int) < mv), 1)
      | .estimate => (!masked && estAbove ch k.iSc s1, 2)
      | .hard => (estAbove ch k.iHard s1, 3)
    if takesTrip ch s1 && trips.1 then .next (tripCh ch trips.2 s1) else .next s1

/-- Every channel of an event has ended its soft turn-off: the retry wait starts, RT_WAIT of its first channel (R241). -/
def startWait (c : Fin 32) (s : State) : State :=
  modGate (fun g => { g with
    faults := g.faults.map fun e =>
      if e.chans.contains c && e.chans.all (fun d => (g.ch[d]).state != 3) then
        { e with waitEnd := some (s.now + ms (match e.chans with
            | [] => 10
            | d :: _ => (chanRec d s).rtWait)) }
      else e }) s

/-- The soft turn-off ends and the strong sink holds the gate (R240): retry wait, or latched (R242, R245). -/
def execSoftOffEnd (ch : Fin 32) (s : State) : Out :=
  let x := s.gate.ch[ch]
  if x.state != 3 then .next s
  else
    let s1 := elapseTo x.softEnd s
    if x.cause == 4 || decide ((chanRec ch s).rtMax < recentEvents s1 ch) then .next (startWait ch (latchCh ch s1))
    else .next (startWait ch (setChState ch 4 s1))

/-- The oldest open event takes in no further trip after 10 µs (R241). -/
def execFaultEventClose (s : State) : Out :=
  match s.gate.faults.find? (fun e => !e.closed) with
  | none => .next s
  | some e =>
    .next (modGate (fun g => { g with faults := g.faults.map fun d => if d = e then { d with closed := true } else d })
      (elapseTo (e.start + us 10) s))

/-- The event whose retry wait ends first (R241). -/
def firstWait (fs : List FaultEvent) : Option (FaultEvent × Nat) :=
  fs.foldl (fun best e => match e.waitEnd, best with
    | none, _ => best
    | some t, none => some (e, t)
    | some t, some b => if t < b.2 then some (e, t) else best) none

/-- The retry wait that ends first ends: the channels of its event are re-armed or latched (R242, R243). -/
def execRetryWaitEnd (s : State) : Out :=
  match firstWait s.gate.faults with
  | none => .next s
  | some (e, t) =>
    let s1 := elapseTo t s
    let s2 := foldS e.chans (fun c t =>
      if (t.gate.ch[c]).state != 4 then t
      else if decide ((chanRec c t).rtMax < recentEvents t c) then latchCh c t
      else raise .gch 2 (passEdges c (setChState c (restState t c) t))) s1
    .next (modGate (fun g => { g with faults := g.faults.filter (· != e) }) s2)

/-- The rails of a channel cross a level (R237). -/
def execRailCrossing (ch : Fin 32) (posMv negMv : Int) (s : State) : Out := .next (railCrossing ch posMv negMv s)

/-- A stage failure latches a channel without a soft turn-off: its gate is off (R246, R247). -/
def stageFail (c : Fin 32) (s : State) : State :=
  latchCh c (modCh c (fun x => { x with cause := 5, swapPend := none }) (cutGate c s))

/-- The spare stage takes over (R246), or is in use already: STAGE_NONE and a latch. -/
def switchStage (c : Fin 32) (trig indicator : Nat) (s : State) : State :=
  if (s.gate.ch[c]).spare then
    stageFail c (raise .gch 5 (noSpare 4 2 c.val trig indicator s))
  else
    hingeSwap 4 2 c.val 0 trig indicator
      (raise .gch 4 (modCh c (fun x => { x with spare := true, swapPend := none }) s))

/-- A switch-in that waits takes place once the command has been off for 200 ns, unless its next edge comes before (R246). It
lasts at most 50 ns, and an edge that falls in it is delayed until its end. -/
def execStageSwap (ch : Fin 32) (lastsNs : Nat) (s : State) : Out :=
  let x := s.gate.ch[ch]
  match x.swapPend with
  | none => .next s
  | some (trig, ind) =>
    let at0 := (x.onUntil.getD s.now) + 80
    if gateOn s ch || (dueEdge ch s).any (fun e => decide (e.1 < at0)) then .next s
    else
      let s1 := switchStage ch trig ind (elapseTo at0 s)
      .next (if x.spare then s1 else elapseTo (s1.now + min lastsNs 50 * 2 / 5) s1)

/-- The channel in GCH_SEL. -/
def selCh (s : State) : Fin 32 := s.gate.sel.toFin

/-- A stage passes its self-test: each transition completes within 2 µs (R247). -/
def stagePasses (ns : Nat) : Bool := decide (ns ≤ 2000)

/-- GCH_CTL.CLEAR releases the latch of the selected channel in M3 or M11, after the self-test that an open gate or a
stage failure requires (R244): a stage must pass, and the sense path be below 100 ohms (R389). -/
def execGchClear (stageNs : Nat × Nat) (snOhm : Nat) (s : State) : Out :=
  let c := selCh s
  let x := s.gate.ch[c]
  let test := x.cause == 4 || x.cause == 5
  let primaryOk := stagePasses stageNs.1
  let spareOk := stagePasses stageNs.2
  if !inStop s || x.state != 5 then .next s
  else if test && ((!primaryOk && !spareOk) || decide (100 < snOhm)) then .next (raise .gch 8 s)
  else
    let s1 := raiseIf (test && (!primaryOk || !spareOk)) .gch 8 s
    let s2 := if test && !primaryOk && !x.spare then switchStage c 1 0 s1
      else if test && !spareOk then modCh c (fun x => { x with spare := false }) s1
      else s1
    .next (passEdges c (setChState c (restState s2 c)
      (modCh c (fun x => { x with events := [], ogRun := 0, swapPend := none }) s2)))

/-- GCH_CTL.SELFTEST starts the self-test of the selected channel in M3 with its gate power in regulation (R247). -/
def execGchSelftest (s : State) : Out :=
  let c := selCh s
  if s.md == 3 && powered s c && hasRec s 0x52 c.val then .next (modCh c (fun x => { x with selfTest := true }) s)
  else .next s

/-- A self-test completes (R247, R389): each stage passes within 2 µs, and the sense path below 100 ohms. -/
def execSelftestDone (ch : Fin 32) (primaryNs spareNs snOhm : Nat) (s : State) : Out :=
  let x := s.gate.ch[ch]
  if !x.selfTest then .next s
  else
    let pOk := stagePasses primaryNs
    let sOk := stagePasses spareNs
    let s1 := raiseIf (!pOk || !sOk || decide (100 < snOhm)) .gch 8 (modCh ch (fun x => { x with selfTest := false }) s)
    if x.state == 5 then .next s1
    else if 100 < snOhm || (!pOk && !sOk) then .next (stageFail ch s1)
    else if !pOk && !x.spare then .next (modCh ch (fun x => { x with swapPend := some (1, primaryNs) }) s1)
    else if !sOk && x.spare then .next (modCh ch (fun x => { x with swapPend := some (1, spareNs) }) s1)
    else .next s1

/-- The 100 µs tick of the gate supervisor. -/
def tkGate : Nat := 1

/-- Every 100 µs the values measured on the channels are updated (R249): the rails, 10 mV per unit, the estimate at the last
integrator trip and the charge of the last judged turn-on. -/
def execChannelTelemetry (pos neg : List Int) (s : State) : Out :=
  .next (foldS (idx 32) (fun c => modCh c (fun x => { x with
    repPos := BitVec.ofInt 16 (pos.getD c.val 0 / 10), repNeg := BitVec.ofInt 16 (neg.getD c.val 0 / 10),
    repA := x.tripA, repQg := x.qg }))
    (periodic tkGate (us 100) s))

end Sys2Proof.Machine
end

