-- ==== Sys2Proof/Machine/Power.lean ====
section
/-! DEFINITION. The power manager (R29 to R49): supply thresholds, hold-up, gate power, temperature and island power. -/

namespace Sys2Proof.Machine

/-- The set condition of AUX_DROP (R29): below 27.0 V, or 2.0 V or more below VBUS. -/
def auxDropSet (auxMv : Int) (vbusMv : Nat) : Bool := decide (auxMv < 27000) || decide (auxMv + 2000 ≤ vbusMv)

/-- The clear condition of AUX_DROP (R29): at 28.0 V or more, and no more than 1.0 V below VBUS. -/
def auxDropClr (auxMv : Int) (vbusMv : Nat) : Bool := decide (28000 ≤ auxMv) && decide ((vbusMv : Int) ≤ auxMv + 1000)

/-- The live bits that follow the aux pin and the hold-up pin (R32, R45): AUX_OK, and HUP_RDY while AUX_DROP is 0 and HUP
lies within 1.0 V of the aux pin. Until the first measurement they keep their reset values. -/
def liveAux (p : PowerState) : PowerState :=
  if !p.measured then p
  else
    { p with
      auxOk := decide (28000 ≤ p.auxMv) && decide (p.auxMv ≤ 90000),
      hupRdy := !p.auxDrop && decide ((p.auxMv - p.hupMv).natAbs ≤ 1000) }

/-- The power manager sees the aux pin at another voltage. -/
def seeAux (auxMv : Int) (p : PowerState) : PowerState := liveAux { p with auxMv := auxMv }

/-- AUX_DROP sets after 20 µs of its condition (R29, R30, R32): the module runs from hold-up, and in M4 to M10 the
brown-out hold time starts (R74). -/
def execAuxDrop (auxMv : Int) (vbusMv holdNs : Nat) (s : State) : Out :=
  if s.power.powered && !s.power.auxDrop && decide (20000 ≤ holdNs) && auxDropSet auxMv vbusMv then
    .next (raise .pwr 1 (modMode (fun m => { m with brownAt := if inRun s then some s.now else none })
      (modPower (fun p => seeAux auxMv { p with vbusMv := vbusMv, auxDrop := true, hupRdy := false }) s)))
  else .next s

/-- AUX_DROP clears after 20 µs of its condition; BROWN_RET (R30). -/
def execAuxDropClear (auxMv : Int) (vbusMv holdNs : Nat) (s : State) : Out :=
  if s.power.powered && s.power.auxDrop && decide (20000 ≤ holdNs) && auxDropClr auxMv vbusMv then
    .next (raise .pwr 10 (modMode (fun m => { m with brownAt := none })
      (modPower (fun p => seeAux auxMv { p with vbusMv := vbusMv, auxDrop := false }) s)))
  else .next s

/-- AUX_HIGH sets above 90.5 V and clears below 90.0 V (R29, R46). The module goes on operating with 90 V to 120 V on the
aux input (R33): beside the flag, its event and the live bits nothing changes. -/
def execAuxHigh (auxMv : Int) (s : State) : Out :=
  let s1 := modPower (seeAux auxMv) s
  if !s.power.powered then .next s
  else if !s.power.auxHigh && decide (90500 < auxMv) then
    .next (raise .pwr 2 (modPower (fun p => { p with auxHigh := true }) s1))
  else if s.power.auxHigh && decide (auxMv < 90000) then .next (modPower (fun p => { p with auxHigh := false }) s1)
  else .next s1

/-- HUP_LOW: the estimate is below 50 % of HUP_NOM (R45); an estimate of 0 has not been measured yet (R47; log entry 58). -/
def hupLowOf (s : State) (cap : Half) : Bool := cap ≠ 0 && decide (2 * cap.toNat < u16 (recD s 0x10 0) 178)

/-- HUP_LOW is live (R45): it follows the estimate and the nominal capacitance in force, and its event comes as it sets. -/
def refreshHupLow (s : State) : State :=
  let low := hupLowOf s s.power.hupC
  raiseIf (low && !s.power.hupLow) .pwr 4 (modPower (fun p => { p with hupLow := low }) s)

/-- A charge that raised HUP by at least 10 V gives an estimate of the capacitance, 10 µF per unit (R32, R45). -/
def execHupCapEstimate (fromMv toMv chargeUc : Nat) (s : State) : Out :=
  if s.power.powered && decide (fromMv + 10000 ≤ toMv) then
    let cap := BitVec.ofNat 16 (min 65535 (chargeUc * 100 / (toMv - fromMv)))
    .next (refreshHupLow (modPower (fun p => { p with hupC := cap }) s))
  else .next s

/-- The 100 µs tick of the power manager. -/
def tkPower : Nat := 2

/-- The next measurement is due: the first one 1 ms after AON starts, the later ones every 100 µs (R45, R47). -/
def measureDue (s : State) : State :=
  if s.power.measured then periodic tkPower (us 100) s
  else startTick tkPower (elapseTo (s.power.aonAt + ms 1) s)

/-- The input power as PWR_PIN shows it, 0.1 W per unit: reversed, the module draws at most 1 mA from at most 90 V, which
is less than one unit (R33, R47). -/
def inputPower (auxMv : Int) (powerDw : Nat) : Half := if auxMv < 0 then 0 else BitVec.ofNat 16 (min 65535 powerDw)

/-- Every 100 µs the measurement registers and the live status are updated (R45, R47). -/
def execPowerMeasure (auxMv : Int) (vbusMv hupMv powerDw : Nat) (tempDc : Int) (laneA laneB : Bool) (s : State) : Out :=
  if !s.power.powered then .next s
  else
    .next (modPower (fun p => seeAux auxMv { p with
      measured := true, hupMv := hupMv, vbusMv := vbusMv, tempDc := tempDc,
      auxV := BitVec.ofNat 16 (min 65535 (auxMv.toNat / 10)), vbus := BitVec.ofNat 16 (min 65535 (vbusMv / 10)),
      hupV := BitVec.ofNat 16 (min 65535 (hupMv / 10)), pin := inputPower auxMv powerDw,
      temp := BitVec.ofInt 16 tempDc, laneAPwr := laneA, laneBPwr := laneB }) (measureDue s))

/-! ### Gate power (R37 to R39) -/

/-- The channels of a half-bridge lose their gate power: they are off, and all but a latched one (R244) stand unpowered. -/
def gateOff (hb : Fin 16) (s : State) : State :=
  foldS [highSide hb, lowSide hb] (fun c t =>
    let off := modCh c (fun x => { x with lowPos := decide (c.val < 16) }) (cutGate c t)
    if (t.gate.ch[c]).state == 0 then t
    else if (t.gate.ch[c]).state == 5 then off
    else setChState c 1 off) s

/-- The converter (`pump` false) or the trickle pump of a half-bridge starts its 50 ms soft start (R37). -/
def softStart (pump : Bool) (hb : Fin 16) (s : State) : State :=
  modPower (fun p =>
    if pump then { p with pumpSoft := putBit p.pumpSoft hb.val true, pumpSoftAt := upd p.pumpSoftAt hb s.now }
    else { p with convSoft := putBit p.convSoft hb.val true, convSoftAt := upd p.convSoftAt hb s.now }) s

/-- A converter or pump stops on a fault (R37). -/
def execGpFault (pump : Bool) (hb : Fin 16) (s : State) : Out :=
  let p := s.power
  let runs := if pump then bit p.pumpOk hb.val || bit p.pumpSoft hb.val else bit p.convOk hb.val || bit p.convSoft hb.val
  if !runs then .next s
  else
    .next (raisePennant pntGpFault (modPower (fun p =>
      if pump then { p with pumpOk := putBit p.pumpOk hb.val false, pumpSoft := putBit p.pumpSoft hb.val false,
                            pumpFlt := putBit p.pumpFlt hb.val true }
      else { p with convOk := putBit p.convOk hb.val false, convSoft := putBit p.convSoft hb.val false,
                    convFlt := putBit p.convFlt hb.val true }) s))

/-- A converter and a pump that are enabled, without a fault and not running, start (R37, R38). -/
def startEnabled (only : Word) (s : State) : State :=
  if s.power.gpCut then s
  else foldS (idx 16) (fun hb t =>
    let p := t.power
    let c := bit only hb.val && bit p.gpEn hb.val && !bit p.convFlt hb.val && !bit p.convOk hb.val && !bit p.convSoft hb.val
    let q := bit only (16 + hb.val) && bit p.gpEn hb.val && !bit p.pumpFlt hb.val && !bit p.pumpOk hb.val
      && !bit p.pumpSoft hb.val
    when q (softStart true hb) (when c (softStart false hb) t)) s

/-- PWR_GPFLT: ones clear faults, and what is enabled restarts with a soft start (R37). -/
def execGpFaultClear (v : Word) (s : State) : Out :=
  let cleared : Word := v &&& ((s.power.pumpFlt ++ s.power.convFlt : BitVec 32))
  .next (startEnabled cleared (modPower (fun p => { p with
    convFlt := p.convFlt &&& ~~~(v.setWidth 16), pumpFlt := p.pumpFlt &&& ~~~((v >>> 16).setWidth 16) }) s))

/-- A channel leaves the unpowered state once what feeds it is in regulation (R35, R36, R240). -/
def powerUp (c : Fin 32) (s : State) : State :=
  if (s.gate.ch[c]).state == 1 && powered s c then passEdges c (setChState c (restState s c) s) else s

/-- A soft start ends after 50 ms (R37): the converter or pump is in regulation, and the channels it feeds leave the
unpowered state with it. -/
def execGpSoftstartDone (pump : Bool) (hb : Fin 16) (s : State) : Out :=
  let p := s.power
  if !(if pump then bit p.pumpSoft hb.val else bit p.convSoft hb.val) then .next s
  else
    let s1 := modPower (fun p =>
      if pump then { p with pumpSoft := putBit p.pumpSoft hb.val false, pumpOk := putBit p.pumpOk hb.val true }
      else { p with convSoft := putBit p.convSoft hb.val false, convOk := putBit p.convOk hb.val true })
        (elapseTo ((if pump then p.pumpSoftAt[hb] else p.convSoftAt[hb]) + ms 50) s)
    .next (powerUp (lowSide hb) (powerUp (highSide hb) s1))

/-! ### Temperature (R38) -/

/-- TEMP_WARN sets at 120 °C rising and clears at 115 °C. -/
def execTempWarn (tempDc : Int) (s : State) : Out :=
  let s1 := modPower (fun p => { p with tempDc := tempDc }) s
  if !s.power.tempWarn && decide (1200 ≤ tempDc) then
    .next (raise .pwr 5 (modPower (fun p => { p with tempWarn := true }) s1))
  else if s.power.tempWarn && decide (tempDc ≤ 1150) then .next (modPower (fun p => { p with tempWarn := false }) s1)
  else .next s1

/-- TEMP_HIGH sets at 128 °C rising and clears at 120 °C. -/
def execTempHigh (tempDc : Int) (s : State) : Out :=
  let s1 := modPower (fun p => { p with tempDc := tempDc }) s
  if !s.power.tempHigh && decide (1280 ≤ tempDc) then
    .next (raise .pwr 6 (modPower (fun p => { p with tempHigh := true }) s1))
  else if s.power.tempHigh && decide (tempDc ≤ 1200) then .next (modPower (fun p => { p with tempHigh := false }) s1)
  else .next s1

/-- At 140 °C every converter and pump stops and GP_CUT latches. -/
def execGpCut (tempDc : Int) (s : State) : Out :=
  if !s.power.gpCut && decide (1400 ≤ tempDc) then
    .next (raise .pwr 7 (modPower (fun p => { p with
      tempDc := tempDc, gpCut := true, convOk := 0, pumpOk := 0, convSoft := 0, pumpSoft := 0 }) s))
  else .next s

/-- A 1 in PWR_EVT[7] clears GP_CUT and re-arms gate power below 120 °C with the aux pin at 28 V or more; a write under
other conditions is discarded (R38, R46): the 1 in bit 7 alone, the model's choice (log entry 59). -/
def execGpCutRearm (s : State) : Out :=
  if !s.power.gpCut then .next (clearEvents .pwr 0x80 s)
  else if decide (s.power.tempDc < 1200) && decide (28000 ≤ s.power.auxMv) then
    .next (startEnabled 0xFFFFFFFF (modPower (fun p => { p with gpCut := false }) (clearEvents .pwr 0x80 s)))
  else .next s

/-- PWR_GPCTL takes effect only in M3 or M11 (R39, R48). -/
def setGpCtl (en : Half) (s : State) : State :=
  let off := s.power.gpEn &&& ~~~en
  let s1 := modPower (fun p => { p with
    gpEn := en, convOk := p.convOk &&& en, pumpOk := p.pumpOk &&& en,
    convSoft := p.convSoft &&& en, pumpSoft := p.pumpSoft &&& en }) s
  startEnabled 0xFFFFFFFF (foldS (idx 16) (fun hb t => if bit off hb.val then gateOff hb t else t) s1)

/-- A write of PWR_GPCTL (R39): outside M3 and M11 it is discarded with GP_REFUSED. -/
def execGpCtlWrite (v : Word) (s : State) : Out :=
  if inStop s then .next (setGpCtl (v.setWidth 16) s) else .next (raisePennant pntGpRefused s)

/-! ### Island power (R40 to R42) -/

/-- The lowest state an island may take (R41): the policy, limited in M4 to M11; AON always and SAFE outside M0 stay
Active; in M0 every island but AON is off (R79). -/
def lowestState (s : State) (isl : Nat) : Fin 4 :=
  if isl = 0 then 0
  else if s.md = 0 then 3
  else if isl = 18 then 0
  else
    let pol : Fin 4 := Fin.ofNat 4 (u8 (recD s 0x10 0) (8 * isl))
    if 4 ≤ s.md && [2, 4, 5, 8, 10, 11, 13, 20].contains isl then (if pol.val = 0 then 0 else 1) else pol

/-- One island's power changed. -/
def modIsl (i : Fin 22) (f : IslandPower → IslandPower) (s : State) : State :=
  modPower (fun p => { p with isl := modAt p.isl i f }) s

/-- The cycle of an island's nominal clock in ps (R17). -/
def cyclePs (isl : Nat) : Nat :=
  if isl = 0 || isl = 18 || isl = 19 then 20000
  else if [1, 2, 7, 8].contains isl then 1250
  else if [4, 5, 10, 11, 13, 20].contains isl then 2500
  else if isl = 15 then 8000
  else if isl = 16 then 25000
  else 5000

/-- Cycles of an island's nominal clock in ticks, rounded up. -/
def cycles (isl n : Nat) : Nat := (n * cyclePs isl + 2499) / 2500

/-- The idle delay of the policy that leads from a state to the next one (R40, R86). -/
def idleDelay (s : State) (isl : Nat) (st : Fin 4) : Nat :=
  let p := recD s 0x10 0
  match st with
  | 0 => cycles isl (u16 p (8 * isl + 2))
  | 1 => us (u16 p (8 * isl + 4))
  | _ => ms (u16 p (8 * isl + 6))

/-- The idle delay for the next state expires with no work: one state down, not below the lowest (R40, R41). -/
def execIslandIdleStepDown (isl : Fin 22) (s : State) : Out :=
  let x := s.power.isl[isl]
  if decide (x.state.val < (lowestState s isl.val).val) && !x.waking then
    let s1 := elapseTo (x.idleFrom + idleDelay s isl.val x.state) s
    .next (modIsl isl (fun x => { x with state := x.state + 1, idleFrom := s1.now }) s1)
  else .next s

/-- A transfer reaches an island that is not Active (R42). -/
def execIslandWake (isl : Fin 22) (s : State) : Out :=
  let x := s.power.isl[isl]
  if x.state = 0 || x.waking then .next s
  else .next (modIsl isl (fun x => { x with waking := true, wakes := satInc x.wakes }) s)

/-- The wake time of an island from a state (R40), in ticks. -/
def wakeTime (isl : Nat) (st : Fin 4) : Nat :=
  match st with
  | 0 => 0
  | 1 => cycles isl 2
  | 2 => us 1
  | 3 => us 20

/-- Work arrives at an island (R40, R42): its idle time starts anew; one that is not Active wakes, which is counted and
takes the wake time. -/
def islandWork (isl : Fin 22) (s : State) : State :=
  let x := s.power.isl[isl]
  let s1 := advance (wakeTime isl.val x.state) s
  modIsl isl (fun x => { x with
    state := 0, waking := false, idleFrom := s1.now,
    wakes := if x.state = 0 || x.waking then x.wakes else satInc x.wakes }) s1

/-- The wake time ends (R40, R42): the island is Active, its registers as they were, and the transfer completes. -/
def execIslandWakeDone (isl : Fin 22) (s : State) : Out :=
  let x := s.power.isl[isl]
  if !x.waking then .next s
  else
    let s1 := advance (wakeTime isl.val x.state) s
    .next (modIsl isl (fun x => { x with waking := false, state := 0, idleFrom := s1.now }) s1)

end Sys2Proof.Machine
end

