-- ==== Sys2Proof/Machine/Mesh.lean ====
section
/-! DEFINITION. Hinge mesh and access tables (R104 to R122): slot tables and their swap, credits and counters, locks and
the cycle probe, access checks and violations. -/

namespace Sys2Proof.Machine

/-! ### Targets (R105, R371 to R373) -/

/-- The segment of a target number: 0 lane A, 1 lane B, 2 Tsuin, 3 hub; none: the number is unused (R105). -/
def segOf (t : Nat) : Option Nat :=
  if t ≤ 16 then some 3
  else if 32 ≤ t && t ≤ 41 then some 0
  else if 48 ≤ t && t ≤ 57 then some 1
  else if t = 60 || t = 61 then some 2
  else none

/-- The target of an address in the shared blocks (R372): the block whose extent holds it. -/
def sharedTarget (a : Nat) : Nat :=
  if a < 0x1000 then 0 else if a < 0x10000 then 1 else if a < 0x20000 then 2 else if a < 0x30000 then 3
  else if a < 0x40000 then 4 else if a < 0x48000 then 5 else if a < 0x50000 then 6 else if a < 0x60000 then 7
  else if a < 0x70000 then 8 else if a < 0x80000 then 9 else if a < 0x84000 then 10 else if a < 0x90000 then 11
  else if a < 0xA0000 then 12 else if a < 0xB0000 then 13 else if a < 0xC0000 then 14 else 15

/-- The target of an offset in a lane window, without its base (R371, R373). -/
def laneTarget (off : Nat) : Option Nat :=
  if off < 0x90000 then some (off / 0x10000)
  else if 0x1000000 ≤ off && off < 0x1C00000 then some 9
  else none

/-- The target of an address; none: unmapped (R371, R378). -/
def targetOf (a : Nat) : Option Nat :=
  if a < 0xD0000 then some (sharedTarget a)
  else if 0x1000000 ≤ a && a < 0x1800000 then some 16
  else if 0x10000000 ≤ a && a < 0x20000000 then (laneTarget (a - 0x10000000)).map (32 + ·)
  else if 0x20000000 ≤ a && a < 0x30000000 then (laneTarget (a - 0x20000000)).map (48 + ·)
  else none

/-- The island that holds a target (R17, R372, R373); the spec names none for the mode controller's aliases in a lane and
for the wear manager (log entry 9). -/
def islandOf (t : Nat) : Option (Fin 22) :=
  match t with
  | 0 | 2 | 3 => some 0
  | 1 | 14 => some 17
  | 4 => some 21
  | 5 | 6 | 60 | 61 => some 13
  | 7 | 8 => some 20
  | 9 => some 15
  | 10 | 11 => some 16
  | 12 => some 19
  | 13 => some 18
  | 16 => some 14
  | 33 | 34 => some 4
  | 35 | 36 | 37 | 40 => some 2
  | 38 => some 5
  | 39 => some 6
  | 41 => some 3
  | 49 | 50 => some 10
  | 51 | 52 | 53 | 56 => some 8
  | 54 => some 11
  | 55 => some 12
  | 57 => some 9
  | _ => none

/-! ### Access tables (R88, R89, R119, R120) -/

/-- The access word of a target in an access payload (R88); a target without an entry gets none for every master. -/
def accessWord (p : List Byte) (t : Nat) : Nat :=
  match (List.range (u32 p 0)).find? fun i => u16 p (4 + 12 * i) == t with
  | none => 0
  | some i => u64 p (4 + 12 * i + 4)

/-- The code of a master in an access word: 0 none, 1 read, 2 write, 3 read-write, 4 command (R88). -/
def accessCode (w : Nat) (m : Nat) : Nat := w / 16 ^ m % 16

/-- The code in force for a master at a target (R89): before the tables are in force every master but the debug port
reads and writes every target. -/
def codeFor (s : State) (m : Master) (t : Nat) : Nat :=
  if s.mesh.accOn then accessCode (accessWord s.mesh.access t) m.toNat
  else if m = 12 then 0 else 3

/-- The KIND of the violation of an access, 0 where it is permitted (R119, ACC_VLOG1): `wo`: the register written is of
access WO. -/
def violation (code : Nat) (write wo : Bool) : Nat :=
  if write then
    (if code = 2 || code = 3 then 0 else if code = 4 then (if wo then 0 else 3) else 2)
  else if code = 1 || code = 3 || code = 4 then 0 else 1

/-- A violation is counted, the first one logged, and ACC_VIOL raised (R120). -/
def logViolation (m : Master) (t : Nat) (addr : Word) (write : Bool) (kind : Nat) (s : State) : State :=
  let armed := !bit (eventsOf .acc s) 0
  raise .acc 0 (modMesh (fun x => { x with
    vcount := satInc x.vcount,
    vlog0 := if armed then addr else x.vlog0,
    vlog1 := if armed then pack [(0, m.toNat), (4, t), (10, b2n write), (11, kind)] else x.vlog1 }) s)

/-- Clearing ACC_VIOL re-arms the log (R120). -/
def execAccViolClear (s : State) : Out := .next (clearEvents .acc 1 s)

/-! ### Slot tables (R106 to R110) and weights (R111 to R113) -/

/-- The weight of a master at a target in a routing payload (R111); of two entries for one pair the first one holds, the
model's choice (log entry 66). -/
def weightIn (p : List Byte) (t m : Nat) : Nat :=
  match (List.range (u32 p 128)).find? fun i => u8 p (132 + 4 * i) == t && u8 p (132 + 4 * i + 1) == m with
  | none => 4
  | some i => u8 p (132 + 4 * i + 2)

/-- An entry of a slot table obeys R109: its master, its target's segment, and the access of that master there. -/
def slotEntryOk (access : List Byte) (seg : Nat) (e : Half) : Bool :=
  !bit e 15 ||
    (decide (fld e 10 4 < 14) && decide (segOf (fld e 0 6) = some seg) &&
      decide (accessCode (accessWord access (fld e 0 6)) (fld e 10 4) ≠ 0))

/-- The sum of weights at a target port that R113 forms. -/
def weightSum (routing access : List Byte) (t : Nat) : Nat :=
  ((List.range 14).map fun m =>
    if accessCode (accessWord access t) m = 0 then 0 else weightIn routing t m).foldl (· + ·) 0

/-- The targets of a segment. -/
def targetsOf (seg : Nat) : List Nat := (List.range 64).filter fun t => segOf t = some seg

/-- A slot table is valid under R109, and no target port of the segment breaks the sum of R113. -/
def slotTableOk (routing access : List Byte) (seg : Nat) (table : List (Nat × Half)) : Bool :=
  let used := (table.filter fun e => bit e.2 15).length
  table.all (fun e => slotEntryOk access seg e.2) &&
    (targetsOf seg).all fun t => decide (weightSum routing access t + used ≤ 512)

/-- A slot-table payload as four sparse tables (TYPE 0x0021). -/
def slotTables (p : List Byte) : Vector (List (Nat × Half)) 4 :=
  Vector.ofFn fun g => (List.range 512).foldr (fun k acc =>
    let v : Half := BitVec.ofNat 16 (u16 p (1024 * g.val + 2 * k))
    if v = 0 then acc else (k, v) :: acc) []

/-- The session is open and this master owns it (R96). -/
def owns (s : State) (m : Master) : Bool := s.key.session && s.key.owner == m

/-- A write of MESH_SWAP (R110): each requested segment's shadow is checked at once. -/
def swapSlots (m : Master) (req : BitVec 4) (s : State) : State :=
  if !owns s m then raise .mesh 1 s
  else
    foldS (idx 4) (fun g t =>
      if !bit req g.val then t
      else if slotTableOk (recD t 0x20 0) t.mesh.access g.val t.mesh.shadow[g] then
        modMesh (fun x => { x with swapPend := putBit x.swapPend g.val true }) t
      else raise .mesh 1 t) s

/-- MESH_SWAP acts only for the owner of a key session (R110). -/
def execMeshSwap (m : Master) (req : BitVec 4) (s : State) : Out := byMaster m s (swapSlots m req)

/-- The frame ticks of the four segments. -/
def tkFrame (g : Nat) : Nat := 10 + g

/-- A frame boundary, every 512 slots of 2.5 ns: credits are set back, and a pending swap exchanges the tables
(R106, R110, R111). -/
def execFrameBoundary (seg : Fin 4) (s : State) : Out :=
  let s1 := modMesh (fun x => { x with spent := x.spent.filter fun e => segOf (e.1 / 16) ≠ some seg.val })
    (periodic (tkFrame seg.val) 512 s)
  if bit s1.mesh.swapPend seg.val then
    .next (raise .mesh 0 (modMesh (fun x => { x with
      active := upd x.active seg x.shadow[seg], shadow := upd x.shadow seg x.active[seg],
      swapPend := putBit x.swapPend seg.val false }) s1))
  else .next s1

/-- The credits a master has left at a target (R111). -/
def credits (s : State) (t : Nat) (m : Master) : Nat :=
  weightIn (recD s 0x20 0) t m.toNat - sparseGet 0 s.mesh.spent (16 * t + m.toNat)

/-- The transfer of n beats that starts in `slot` ends before the next reserved slot of the port (R107). The slot itself may
be reserved: it serves best-effort traffic where its owner does not request the port. -/
def fitsSlots (s : State) (t : Nat) (slot n : Nat) : Bool :=
  match segOf t with
  | none => false
  | some g =>
    (List.range n).all fun i =>
      let e := sparseGet 0 (at' s.mesh.active g []) ((slot + i) % 512)
      i == 0 || !(bit e 15 && fld e 0 6 == t)

/-- The slot is reserved for this master and this target for n beats (R106, R107). -/
def ownsSlots (s : State) (m : Master) (t slot n : Nat) : Bool :=
  match segOf t with
  | none => false
  | some g =>
    (List.range n).all fun i =>
      let e := sparseGet 0 (at' s.mesh.active g []) ((slot + i) % 512)
      bit e 15 && fld e 0 6 == t && fld e 10 4 == m.toNat

/-- Beats of a transfer: 8 bytes each (R104). -/
def beats (bytes : Nat) : Nat := max 1 ((bytes + 7) / 8)

/-- A grant is counted for its master, with the slots it waited (R115). -/
def countGrant (m : Master) (waited : Nat) (s : State) : State :=
  modMesh (fun x => { x with cnt := put' x.cnt m.toNat (
    let c := at' x.cnt m.toNat {}
    { grants := satInc c.grants, waits := wd (satAdd 32 c.waits.toNat waited),
      maxWait := if c.maxWait.toNat < waited then wd (satAdd 32 0 waited) else c.maxWait }) }) s

/-- A transfer that has passed its checks comes to its target (R40, R42, R115): it is work for the target's island, wakes it
where it is not Active, waits the wake time, and is counted with the slots of 2.5 ns it waited. -/
def arrive (m : Master) (t waited : Nat) (s : State) : State :=
  match islandOf t with
  | none => countGrant m waited s
  | some i => countGrant m (waited + wakeTime i.val (s.power.isl[i]).state) (islandWork i s)

/-- MESH_CNTCLR clears the three counters of the selected master (R115). -/
def execMeshCntclr (s : State) : Out :=
  .next (modMesh (fun x => { x with cnt := put' x.cnt x.cntSel.toNat {} }) s)

/-! ### Locks (R116) -/

/-- The class of a lock. -/
def lockClass (s : State) (n : Nat) : Nat := u8 (recD s 0x20 0) n

/-- Locks that a master holds. -/
def locksOf (s : State) (m : Master) : List (Fin 64) := (idx 64).filter fun n => (s.mesh.lock[n]).holder = some m

/-- What a read of MESH_LOCKn returns when it is granted. -/
def lockGranted (m : Master) : Word := pack [(31, 1), (8, m.toNat)]

/-- What a read of MESH_LOCKn returns when it is refused. -/
def lockRefused : Word := pack [(30, 1)]

/-- One lock changed. -/
def modLock (n : Fin 64) (f : MeshLock → MeshLock) (s : State) : State :=
  modMesh (fun x => { x with lock := modAt x.lock n f }) s

/-- A read of MESH_LOCKn is judged in the order of R116; none: it stalls. -/
def readLock (m : Master) (n : Fin 64) (s : State) : Option Word × State :=
  let k := s.mesh.lock[n]
  if k.holder = some m then (some (lockGranted m), s)
  else if (locksOf s m).any fun j => decide (lockClass s n.val ≤ lockClass s j.val) then
    (some lockRefused, raise .mesh 2 s)
  else match k.holder with
    | some _ => (none, modLock n (fun k => { k with waiters := k.waiters ++ [m] }) s)
    | none => (some (lockGranted m), modLock n (fun k => { k with holder := some m }) s)

/-- The answer of a read goes to its master. -/
def answer (m : Master) (r : Option Word × State) : State :=
  match r.1 with
  | none => r.2
  | some w => send (.bus m (leBytes 4 w.toNat) false) r.2

/-- A read of MESH_LOCKn by a master (R116). -/
def execLockAcquire (m : Master) (n : Fin 64) (s : State) : Out :=
  byMaster m s fun s => answer m (readLock m n (arrive m 5 0 s))

/-- A write of 1 to RELEASE: the holder frees the lock, any other master's write is discarded (R116). -/
def releaseLock (m : Master) (n : Fin 64) (s : State) : State :=
  if (s.mesh.lock[n]).holder = some m then modLock n (fun k => { k with holder := none }) s else s

/-- RELEASE of MESH_LOCKn. -/
def execLockRelease (m : Master) (n : Fin 64) (s : State) : Out :=
  byMaster m s fun s => releaseLock m n (arrive m 5 0 s)

/-! ### The cycle probe (R117) -/

/-- The transfer of a master that waits at the port of a target. -/
def waitAt (s : State) (m : Master) (t : Nat) : Option MeshWait :=
  s.mesh.waiting.find? fun w => w.master == m && decide (targetOf w.addr.toNat = some t)

/-- The flow-control stall of a master: a target that stalls it, with its transfer waiting there. -/
def flowStall (s : State) (flow : List (Master × BitVec 6)) (m : Master) : Option (Nat × MeshWait) :=
  flow.findSome? fun f => if f.1 == m then (waitAt s m f.2.toNat).map (f.2.toNat, ·) else none

/-- The master that a master waits on (R117): the holder of the lock it stalls at, else the drain master of the target
whose flow control stalls its transfer. -/
def waitsOn (s : State) (flow : List (Master × BitVec 6)) (m : Master) : Option Master :=
  match (idx 64).find? fun n => (s.mesh.lock[n]).waiters.contains m with
  | some n => (s.mesh.lock[n]).holder
  | none =>
    match flowStall s flow m with
    | none => none
    | some (t, _) =>
      let d := u8 (recD s 0x20 0) (64 + t)
      if d < 14 then some (BitVec.ofNat 4 d) else none

/-- The masters met from a master along its waits, until the chain ends or comes back to it. -/
def follow (next : Master → Option Master) (goal : Master) : Nat → Master → Option (List Master)
  | 0, _ => none
  | n + 1, m =>
    match next m with
    | none => none
    | some x => if x = goal then some [m] else (follow next goal n x).map (m :: ·)

/-- The highest class of a master's locks plus 1, or 0 where it holds none. -/
def lockRank (s : State) (m : Master) : Nat :=
  ((locksOf s m).map fun n => lockClass s n.val + 1).foldl max 0

/-- The victim of a circle (R117): lowest rank, on equal ranks the higher ID. -/
def victim (s : State) : List Master → Master → Master
  | [], v => v
  | m :: ms, v =>
    if lockRank s m < lockRank s v || (lockRank s m = lockRank s v && v.toNat < m.toNat) then victim s ms m
    else victim s ms v

/-- The 5 µs tick of the probe. -/
def tkProbe : Nat := 14

end Sys2Proof.Machine
end

