-- ==== Sys2Proof/Machine/ImageContent.lean ====
section
/-! DEFINITION. Step 4 of the verification of an image (R94): the payload of every record against R86 to R88 and the
limits of the chapter that owns it. A decimal bound of a binary32 field is the binary32 value nearest to it (log entry 30). -/

namespace Sys2Proof.Machine

/-! ### Records of an image and plain ranges -/

/-- The payload of a record among others. -/
def payOf (rs : List ImgRec) (type inst : Nat) : Option (List Byte) :=
  (rs.find? fun r => r.type == type && r.inst == inst).map (·.payload)

/-- A record is among others. -/
def hasPay (rs : List ImgRec) (type inst : Nat) : Bool := (payOf rs type inst).isSome

/-- lo ≤ n ≤ hi. -/
def within (lo hi n : Nat) : Bool := decide (lo ≤ n) && decide (n ≤ hi)

/-- 0 for the default, or lo ≤ n ≤ hi. -/
def orZero (lo hi n : Nat) : Bool := n == 0 || within lo hi n

/-- n bytes of a payload are 0. -/
def zeros (p : List Byte) (off n : Nat) : Bool := (slice p off n).all (· == 0)

/-- All of a list of conditions. -/
def allOf (cs : List Bool) : Bool := cs.all id

/-- A binary32 field lies between two rationals a / b, each taken as the nearest binary32 value. -/
def fWithin (a b c d : Int) (w : Word) : Bool :=
  F32.isFinite w && F32.le (F32.ofRat (a / b : Rat)) w && F32.le w (F32.ofRat (c / d : Rat))

/-- No two entries of a list are equal. -/
def distinct : List Nat → Bool
  | [] => true
  | x :: xs => !xs.contains x && distinct xs

/-! ### Power, clocks, mesh and access (R86 to R88, R105, R109, R113) -/

/-- Power policy (R86). -/
def powerOk (rs : List ImgRec) (p : List Byte) : Bool :=
  let brown := u16 p 180
  allOf [p.length == 184,
    (List.range 22).all fun i => decide (u8 p (8 * i) ≤ 3) && u8 p (8 * i + 1) == 0,
    u8 p 0 == 0, u8 p (8 * 18) == 0,
    decide (brown ≤ 10) || brown == 0xFFFF, u16 p 182 == 0,
    (List.range 16).all fun h =>
      u16 p 176 / 2 ^ h % 2 == 0 || hasPay rs 0x52 h || hasPay rs 0x52 (h + 16)]

/-- The frequency of a source of a clock output in Hz, before its divider (R66). -/
def ckoHz (src : Nat) : Nat :=
  match src with
  | 0 => 125000000
  | 1 => 156250000
  | 2 => 400000000
  | 3 => 400000000
  | 4 => 10000000
  | 5 => 1
  | _ => 50000000

/-- The greatest output frequency of a level (R66). -/
def ckoMax (level : Nat) : Nat :=
  match level with
  | 0 => 400000000
  | 1 => 100000000
  | _ => 125000000

/-- One clock output (R66, R87). -/
def ckoOk (w : Word) : Bool :=
  allOf [fld w 16 16 == 0, !bit w 7, !bit w 3, decide (fld w 4 3 ≤ 6), decide (fld w 1 2 ≤ 2),
    decide (ckoHz (fld w 4 3) ≤ ckoMax (fld w 1 2) * (fld w 8 8 + 1))]

/-- Clocks (R54, R66, R87). -/
def clocksOk (p : List Byte) : Bool :=
  allOf [p.length == 28, decide (u8 p 0 ≤ 2), decide (u8 p 1 ≤ 2), decide (u8 p 2 ≤ 2), decide (u8 p 3 ≤ 1),
    decide (u8 p 4 ≤ 2), decide (u8 p 5 < 64), decide (u8 p 6 ≤ 50), decide (u8 p 7 ≤ 50), decide (u8 p 8 ≤ 200),
    u8 p 8 == 0 || within 20 50 (u8 p 9), u16 p 10 == 0,
    (List.range 4).all fun n => ckoOk (w32 p (12 + 4 * n))]

/-- Mesh routing (R105, R111, R113). An entry that names master 14 or 15 makes the image invalid, the model's choice (log
entry 66). The free slots of a segment are those its slot table leaves free. -/
def routingOk (rs : List ImgRec) (p : List Byte) : Bool :=
  let acc := (payOf rs 0x22 0).getD []
  let tables := slotTables ((payOf rs 0x21 0).getD [])
  allOf [decide (132 ≤ p.length), p.length == 132 + 4 * u32 p 128,
    (List.range 64).all fun i => decide (u8 p i ≤ 7),
    (List.range 64).all fun i => decide (u8 p (64 + i) < 14) || u8 p (64 + i) == 0xFF,
    (List.range (u32 p 128)).all fun i =>
      (segOf (u8 p (132 + 4 * i))).isSome && decide (u8 p (133 + 4 * i) < 14) && u8 p (135 + 4 * i) == 0,
    (idx 4).all fun g => (targetsOf g.val).all fun t =>
      decide (weightSum p acc t + (tables[g].filter fun e => bit e.2 15).length ≤ 512)]

/-- Slot tables (R106, R109). -/
def slotsOk (rs : List ImgRec) (p : List Byte) : Bool :=
  let acc := (payOf rs 0x22 0).getD []
  p.length == 4096 &&
    (idx 4).all fun g => (slotTables p)[g].all fun e =>
      slotEntryOk acc g.val e.2 && !bit e.2 14 && fld e.2 6 4 == 0

/-- Access tables (R88, R105). -/
def accessOk (p : List Byte) : Bool :=
  let n := u32 p 0
  allOf [decide (4 ≤ p.length), p.length == 4 + 12 * n,
    (List.range n).all fun i =>
      let o := 4 + 12 * i
      (segOf (u16 p o)).isSome && u16 p (o + 2) == 0 &&
        ((List.range 16).all fun m => decide (accessCode (u64 p (o + 4)) m ≤ 4)) &&
        accessCode (u64 p (o + 4)) 14 == 0 && accessCode (u64 p (o + 4)) 15 == 0,
    distinct ((List.range n).map fun i => u16 p (4 + 12 * i))]

/-! ### Measurement and filters (R135, R140) -/

/-- Interleaved pins of an image, at most 8 (R129). -/
def interleavedCount (rs : List ImgRec) : Nat :=
  ((List.range 32).filter fun q => u8 ((payOf rs 0x30 q).getD []) 1 == 2).length

/-- Measurement chain. -/
def measOk (rs : List ImgRec) (p : List Byte) : Bool :=
  let lo := signed 16 (u16 p 4)
  let hi := signed 16 (u16 p 6)
  let skew := signed 8 (u8 p 18)
  allOf [p.length == 32, decide (u8 p 0 ≤ 1), decide (u8 p 1 ≤ 2),
    u8 p 1 != 2 || (u8 p 0 == 0 && decide (interleavedCount rs ≤ 8)),
    decide (u8 p 2 ≤ 7), u8 p 0 == 1 || u8 p 2 == 0,
    if u8 p 0 == 1 then within 1 16 (u8 p 3) else u8 p 3 == 0,
    decide (lo < hi), decide (2 * (u16 p 8 : Int) ≤ hi - lo), decide (u8 p 11 ≤ 1), within 1 32767 (u16 p 12),
    within 1 255 (u8 p 14), decide (u8 p 15 ≤ 1), within 1 1000 (u16 p 16),
    decide (-32 ≤ skew) && decide (skew ≤ 31), u8 p 1 == 2 || skew == 0, u8 p 19 == 0,
    F32.isFinite (w32 p 20) && !F32.isZero (w32 p 20), F32.isFinite (w32 p 24), u32 p 28 == 0]

/-- Filter chain (R135). -/
def filterOk (rs : List ImgRec) (inst : Nat) (p : List Byte) : Bool :=
  let taps := u8 p 4
  allOf [hasPay rs 0x30 inst, decide (taps ≤ 128), p.length == 16 + 4 * taps, decide (u8 p 0 ≤ 5),
    within 1 16 (u8 p 1), within 1 4096 (u16 p 2), u8 p 0 != 0 || u16 p 2 == 1, taps != 0 || u8 p 1 == 1,
    decide (u8 p 5 ≤ 1), decide (u8 p 6 < 4), u8 p 7 == 0, u8 p 5 == 0 || fWithin 1 100 100 1 (w32 p 8),
    u32 p 12 == 0,
    (List.range taps).all fun i =>
      let v := u32 p (16 + 4 * i)
      v == (signed 24 v % 4294967296).toNat]

/-! ### Loop graphs and coefficient banks (R152, R160 to R162) -/

/-- A value that R152 admits: no NaN, infinity or subnormal. -/
def normalWord (w : Word) : Bool := F32.isFinite w && !F32.isSubnormal w

/-- An operand field names a node or a coefficient with bits 11:9 zero (R160). -/
def operandOk (f : Nat) : Bool := decide (f < 4096) || decide (f - 4096 < 512)

/-- Operands of an opcode in use: a, b, c (R157). -/
def operandsUsed (opcode : Nat) : Nat :=
  match opcode with
  | 0x01 => 1 | 0x07 => 1 | 0x0D => 1 | 0x10 => 1 | 0x11 => 1 | 0x12 => 1 | 0x14 => 1 | 0x19 => 1 | 0x30 => 1
  | 0x05 => 3 | 0x06 => 3 | 0x0A => 3 | 0x0B => 3 | 0x18 => 3 | 0x20 => 3
  | _ => 2

/-- The nodes an operation writes (R157, R162). -/
def opWrites (o : GraphOp) : List Nat :=
  if o.opcode = 0x30 then (List.range 24).map (o.a + 8 + ·) else (List.range (opResults o.opcode)).map (o.dst + ·)

/-- One operation word (R157, R159, R160, R162). -/
def opOk (o : GraphOp) : Bool :=
  allOf [opResults o.opcode != 0 || o.opcode == 0x30, operandOk o.a, operandOk o.b, operandOk o.c,
    decide (2 ≤ operandsUsed o.opcode) || o.b == 0, decide (3 ≤ operandsUsed o.opcode) || o.c == 0,
    if o.opcode = 0x20 then decide (o.aux ≤ 1) else o.aux == 0,
    o.opcode != 0x20 || within 4096 (4096 + 510) o.c, o.opcode != 0x23 || within 4096 (4096 + 507) o.b,
    o.opcode != 0x30 || (decide (o.a < 4096) && o.dst == o.a)]

/-- The record of a pin that a context reads is triggered. -/
def pinTriggered (rs : List ImgRec) (pin : Nat) : Bool := u8 ((payOf rs 0x30 pin).getD []) 0 == 1

/-- The input time T_IN in 2.5 ns (R145, R161). -/
def inputTime (rs : List ImgRec) (g : Graph) : Nat :=
  let bursts := (g.ins.filter fun i => pinTriggered rs i.pin).map fun i => u8 ((payOf rs 0x30 i.pin).getD []) 3
  if bursts.isEmpty then 56 else 56 + 40 * (bursts.foldl Nat.max 1 - 1)

/-- The graph of a context among records. -/
def graphIn (rs : List ImgRec) (c : Nat) : Option Graph := (payOf rs 0x40 c).map parseGraph

/-- The contexts that have a loop graph. -/
def graphsIn (rs : List ImgRec) : List (Nat × Graph) :=
  (List.range 8).filterMap fun c => (graphIn rs c).map fun g => (c, g)

/-- A graph contains GFMSTEP. -/
def hasGfm (g : Graph) : Bool := g.ops.any fun o => o.opcode == 0x30

/-- GFMSTEP: one in a graph, alone in its level, at most one context, the record present and naming the context
(R157, R211). -/
def gfmOk (rs : List ImgRec) (c : Nat) (g : Graph) : Bool :=
  !hasGfm g ||
    allOf [(g.ops.filter fun o => o.opcode == 0x30).length == 1,
      (cutLevels g.levels g.ops).all fun l => !(l.any fun o => o.opcode == 0x30) || l.length == 1,
      ((graphsIn rs).filter fun x => hasGfm x.2).length == 1,
      hasPay rs 0x60 0 && u8 ((payOf rs 0x60 0).getD []) 16 == c]

/-- Lane-window offsets that a loop output may name: PWM_PER, PWM_DUTY and PWM_DUTYF of a generator, and GF_PSET to
GF_FSET (R160, R209, R232). -/
def outputOk (off : Nat) : Bool :=
  (within 0x60100 (0x60100 + 0x40 * 15 + 8) off && (off - 0x60100) % 0x40 % 4 == 0 &&
      decide ((off - 0x60100) % 0x40 ≤ 8)) ||
    (within 0x50010 0x5001C off && off % 4 == 0)

/-- The fields of a loop-graph header (R160, R162). -/
def graphHeaderOk (p : List Byte) (g : Graph) : Bool :=
  let fs := F32.val g.oscFhi * (g.period : Rat) * (25 / 10000000000 : Rat)
  allOf [within 1600 4000000 g.period, within 56 g.period g.deadline, decide (g.nodeBase < 4096),
    within 1 (4096 - g.nodeBase) g.nodeCount, within 1 1024 g.nOps, within 1 g.nOps g.nLevels, decide (g.nIn ≤ 64),
    decide (g.nOut ≤ 64), decide (g.coefMode ≤ 1), decide (g.initBank ≤ 1), decide (g.coefRun ≤ 1), u8 p 21 == 0,
    decide (g.nInit ≤ g.nodeCount), decide (g.oscNode < 4096) || g.oscNode == 0xFFFF, decide (g.oscAction ≤ 2),
    within 1 16 g.oscHold, within 16 4096 g.oscWin, u16 p 30 == 0,
    F32.isFinite g.oscFlo && decide (0 < F32.val g.oscFlo), F32.isFinite g.oscFhi && F32.lt g.oscFlo g.oscFhi,
    decide (fs < (4 / 10 : Rat)), fWithin 5 100 1 1 g.oscRatio,
    F32.isFinite g.oscRms && decide (0 < F32.val g.oscRms),
    g.taps.all fun t => (decide (t % 65536 < 4096) || t % 65536 == 0xFFFF) && decide (t / 2 ^ 24 ≤ 1)]

/-- A loop graph (R157, R160 to R162, R211). -/
def graphOk (rs : List ImgRec) (c : Nat) (p : List Byte) : Bool :=
  let g := parseGraph p
  let o := graphOffsets p
  let inRange := fun n => decide (g.nodeBase ≤ n) && decide (n < g.nodeBase + g.nodeCount)
  let writes := g.ops.flatMap opWrites
  allOf [decide (80 ≤ p.length), p.length == o.getD 5 0, graphHeaderOk p g,
    zeros p (o.getD 2 0 + 2 * g.nLevels) (o.getD 3 0 - (o.getD 2 0 + 2 * g.nLevels)),
    (graphsIn rs).all fun x => x.1 == c ||
      decide (x.2.nodeBase + x.2.nodeCount ≤ g.nodeBase) || decide (g.nodeBase + g.nodeCount ≤ x.2.nodeBase),
    g.levels.all (decide <| 1 ≤ ·), g.levels.foldl (· + ·) 0 == g.nOps,
    g.ops.all opOk, writes.all inRange, distinct writes,
    g.ins.all fun i => decide (i.pin < 32) && hasPay rs 0x30 i.pin && decide (i.entry ≤ 1) && inRange i.node &&
      (i.entry == 0 || u8 ((payOf rs 0x30 i.pin).getD []) 1 == 2),
    distinct (g.ins.map (·.node)),
    (List.range g.nOut).all fun i => u16 p (o.getD 1 0 + 8 * i + 2) == 0,
    g.outs.all fun e => decide (e.node < 4096) && outputOk e.offset,
    (List.range g.nInit).all fun i => u16 p (o.getD 4 0 + 8 * i + 2) == 0 && decide (u16 p (o.getD 4 0 + 8 * i) < 4096),
    g.period % 40 == 0 || !(g.ins.any fun i => !pinTriggered rs i.pin),
    gfmOk rs c g,
    decide (stepCycles 16 g + 2 * inputTime rs g ≤ 2 * g.deadline)]

/-- A coefficient bank (R152). -/
def coefBankOk (p : List Byte) : Bool :=
  p.length == 2048 && (List.range 512).all fun i => normalWord (w32 p (4 * i))

/-! ### Run-ahead (R133, R182, R183, R185) -/

/-- Bits set in a number below 2^n. -/
def countBits (n v : Nat) : Nat := ((List.range n).filter fun k => v / 2 ^ k % 2 == 1).length

/-- The test of R182. -/
def raBudgetOk (rs : List ImgRec) (p : List Byte) (g : Graph) : Bool :=
  let b := countBits 3 (u8 p 1)
  let bn := if u8 p 2 = 1 then b else 0
  let cost := stepCycles 16 g + 8 + (g.nodeCount + 31) / 32
  let used := ((graphsIn rs).map fun x =>
    stepCycles 16 x.2 * ((g.period + x.2.period - 1) / max x.2.period 1)).foldl (· + ·) 0
  decide ((b + min (u8 p 0) 1 + bn) * cost + 112 + used ≤ 2 * g.period)

/-- One triad (R185): indices, flags, and continuous pins where it classifies (R133). -/
def raTriadOk (rs : List ImgRec) (p : List Byte) (g : Graph) (j : Nat) : Bool :=
  let o := 12 + 4 * j
  let flags := u8 p (o + 3)
  decide (flags < 8) &&
    (u8 p o == 0xFF ||
      allOf [(List.range 3).all fun k => decide (u8 p (o + k) < g.nIn),
        flags / 4 % 2 == 0 || flags % 2 == 1,
        flags / 2 % 2 == 0 ||
          (List.range 3).all fun k => match g.ins[u8 p (o + k)]? with
            | none => false
            | some i => !pinTriggered rs i.pin])

/-- One template (R185). -/
def raTemplateOk (rs : List ImgRec) (p : List Byte) (k : Nat) : Bool :=
  let o := 32 + 16 * k
  let on := u8 p 1 / 2 ^ k % 2 == 1
  let mask := u32 p (o + 8)
  let thr := w32 p o
  let size := w32 p (o + 4)
  let ranges := match k with
    | 0 => fWithin 5 100 9 10 thr && fWithin 0 1 1 1 size
    | 1 => fWithin 5 1000 1 4 thr && fWithin (-1) 2 1 2 size && !F32.isZero size
    | _ => fWithin 5 100 5 1 thr && fWithin (-10) 1 10 1 size && !F32.isZero size
  let classify := (List.range 4).any fun j => u8 p (12 + 4 * j) != 0xFF && u8 p (15 + 4 * j) / 2 % 2 == 1
  allOf [ranges, if k = 2 then within 4 1000 (u16 p (o + 12)) else u16 p (o + 12) == 0, u16 p (o + 14) == 0,
    !on || classify || mask != 0,
    (List.range 32).all fun q => mask / 2 ^ q % 2 == 0 || (hasPay rs 0x30 q && !pinTriggered rs q)]

/-- Run-ahead (R185). -/
def runAheadOk (rs : List ImgRec) (c : Nat) (p : List Byte) : Bool :=
  match graphIn rs c with
  | none => false
  | some g =>
    let fn := u16 p 4
    let bn := u16 p 6
    let total : Nat := ((List.range 8).map fun k => u8 ((payOf rs 0x42 k).getD []) 0).foldl (· + ·) 0
    allOf [p.length == 80, decide (u8 p 0 ≤ 8), decide (u8 p 1 < 8), decide (u8 p 2 ≤ 1), within 1 4 (u8 p 3),
      u8 p 2 == 0 || u8 p 0 != 0,
      (graphsIn rs).any fun x => decide (x.2.nodeBase ≤ fn) && decide (fn < x.2.nodeBase + x.2.nodeCount),
      bn == 0xFFFF ||
        (decide (g.nodeBase ≤ bn) && decide (bn < g.nodeBase + g.nodeCount) &&
          !(g.ops.flatMap opWrites).contains bn && !(g.ins.map (·.node)).contains bn),
      F32.isFinite (w32 p 8) && decide (0 < F32.val (w32 p 8)), u32 p 28 == 0,
      (List.range 4).all (raTriadOk rs p g), (List.range 3).all (raTemplateOk rs p),
      raBudgetOk rs p g, decide (total ≤ 16)]

/-! ### PWM and gates (R231, R248) -/

/-- A source number of R228. -/
def faultSourceListed (n : Nat) : Bool := decide (n ≤ 3) || within 16 47 n || within 64 103 n

/-- PWM pin map and flag groups (R231). -/
def pinMapOk (rs : List ImgRec) (p : List Byte) : Bool :=
  let n := u32 p 36
  allOf [decide (40 ≤ p.length), p.length == 40 + 4 * n, decide (n ≤ 100),
    (List.range 16).all fun h => u8 p h == 0xFF || (decide (u8 p h < 16) && hasPay rs 0x51 (u8 p h)),
    (List.range 16).all fun h => u8 p h == 0xFF || (hasPay rs 0x52 h && hasPay rs 0x52 (h + 16)),
    (List.range 4).all fun i => within 4 255 (u8 p (16 + i)),
    (List.range 4).all fun k => decide (u8 p (22 + 4 * k) ≤ 1) && u8 p (23 + 4 * k) == 0,
    (List.range n).all fun j => faultSourceListed (u8 p (40 + 4 * j)) && decide (u8 p (41 + 4 * j) < 16) &&
      decide (u8 p (42 + 4 * j) < 4) && u8 p (43 + 4 * j) == 0,
    distinct ((List.range n).map fun j => u8 p (40 + 4 * j))]

/-- PWM generator (R231); REFILL_W is compared exactly, 12.8 steps to the nanosecond. -/
def generatorOk (rs : List ImgRec) (p : List Byte) : Bool :=
  let t := 32 * u32 p 0
  let dt := u32 p 8
  let minp := u16 p 12
  let w := if u16 p 26 = 0 then 500 else u16 p 26
  allOf [p.length == 32, within 2000 6666666 (u32 p 0), decide (u32 p 4 ≤ t), decide (dt ≤ 128000),
    decide (minp ≤ 25600), decide (u8 p 14 ≤ 2), decide (u8 p 15 ≤ 1), decide (u32 p 16 < u32 p 0),
    u8 p 20 == 0xFF || (decide (u8 p 20 ≤ 7) && hasPay rs 0x40 (u8 p 20)), decide (u8 p 21 ≤ 1), orZero 1 64 (u8 p 22),
    u8 p 23 == 0, orZero 9000 9990 (u16 p 24), orZero 200 2000 (u16 p 26), u32 p 28 == 0,
    decide (2 * (dt + minp) ≤ t), u8 p 21 == 0 || decide (64 * w + 5 * (2 * dt + minp) ≤ 5 * t)]

/-- Gate channel (R248). -/
def channelOk (p : List Byte) : Bool :=
  allOf [p.length == 32, within 200 20000 (u16 p 0), within 500 8000 (u16 p 2), orZero 100 2000 (u16 p 4),
    orZero 500 5000 (u16 p 6), within 10 20000 (u16 p 8), within 11 30000 (u16 p 10), orZero 1 1000 (u16 p 12),
    decide (u8 p 14 ≤ 3), orZero 5 40 (u8 p 15), orZero 1 16 (u8 p 20), decide (u8 p 21 ≤ 1), zeros p 22 10,
    decide (u16 p 8 < u16 p 10), (u16 p 16 == 0 && u16 p 18 == 0) || decide (u16 p 16 < u16 p 18)]

/-! ### Grid-forming (R206, R211) -/

/-- The ranges of the 17 parameters (R208), in the order of the register block: a / b to c / d. -/
def gfRange (i : Nat) (w : Word) : Bool :=
  match i with
  | 0 => fWithin (-3) 2 3 2 w
  | 1 => fWithin (-3) 2 3 2 w
  | 2 => fWithin 8 10 12 10 w
  | 3 => fWithin (-2) 1 2 1 w
  | 4 => fWithin 1 10 20 1 w
  | 5 => fWithin 0 1 100 1 w
  | 6 => fWithin 1 100 10 1 w
  | 7 => fWithin 1 100 10 100 w
  | 8 => fWithin 1 100 10 100 w
  | 9 => fWithin 1 1000 1 1 w
  | 10 => fWithin 0 1 1 2 w
  | 11 => fWithin 0 1 1 2 w
  | 12 => fWithin 1 1 3 2 w
  | 13 => fWithin 0 1 10 1 w
  | 14 => fWithin 0 1 10 1 w
  | 15 => fWithin 0 1 10 1 w
  | _ => fWithin 2 100 10 1 w

/-- Offset of parameter i in the grid-forming payload. -/
def gfParOff (i : Nat) : Nat := 32 + 4 * i

/-- RT_ENTRY_LO + 0.02 pu and RT_ENTRY_HI − 0.02 pu in binary32 (R206). -/
def recBand (p : List Byte) : Word × Word :=
  let k := F32.ofRat (2 / 100 : Rat)
  ((F32.add (w32 p 116) k).w, (F32.sub (w32 p 120) k).w)

/-- A profile: n points of a maximum, limits from lo / 10 to hi / 10 (R211). -/
def profileOk (p : List Byte) (off n maxN : Nat) (lo hi : Int) : Bool :=
  let t := fun k => w32 p (off + 8 * k)
  allOf [(List.range n).all fun k => F32.isFinite (t k) && decide (0 ≤ F32.val (t k)) &&
      fWithin lo 10 hi 10 (w32 p (off + 8 * k + 4)),
    decide (F32.val (t 0) = 0), (List.range (n - 1)).all fun k => F32.lt (t k) (t (k + 1)),
    zeros p (off + 8 * n) (8 * (maxN - n))]

/-- The window of GFMSTEP at node a (R190, R211): without a run-ahead record node a + 7 reads 0.0, so that no initial value
may give it another one. -/
def gfWindowOk (rs : List ImgRec) (c : Nat) (g : Graph) : Bool :=
  match g.ops.find? fun o => o.opcode == 0x30 with
  | none => false
  | some o =>
    let a := o.a
    let before := ((cutLevels g.levels g.ops).takeWhile fun l => !(l.any fun x => x.opcode == 0x30)).flatten
    let written := g.ins.map (·.node) ++ before.flatMap opWrites
    allOf [decide (g.nodeBase ≤ a), decide (a + 32 ≤ g.nodeBase + g.nodeCount),
      (List.range 7).all fun k => written.contains (a + k),
      !(g.ins.map (·.node) ++ g.ops.flatMap opWrites).contains (a + 7),
      (g.ins.map (·.node)).all fun n => !within (a + 8) (a + 31) n,
      match payOf rs 0x42 c with
      | none => g.init.all fun e => e.1 != a + 7 || F32.isZero e.2
      | some q => u16 q 6 == a + 7 && u16 q 4 == a + 14]

/-- Grid-forming (R206, R211, R231). -/
def gridFormOk (rs : List ImgRec) (p : List Byte) : Bool :=
  let f := fun (off : Nat) (a b c d : Int) => fWithin a b c d (w32 p off)
  let nl := u8 p 148
  let nh := u8 p 149
  let c := u8 p 16
  allOf [p.length == 256, f 0 100000 1 20000000 1, f 4 100 1 35000 1, f 8 50 1 50 1 || f 8 60 1 60 1, f 12 100 1 2000 1,
    decide (c ≤ 7), decide (u8 p 17 < 16) || u8 p 17 == 0xFF, decide (u8 p 18 < 8) || u8 p 18 == 0xFF,
    decide (u8 p 19 < 16) && u8 p 19 % 4 == 3, f 20 1 100 2 10, within 1 60 (u16 p 26), f 28 5 10 12 10,
    (List.range 17).all fun i => gfRange i (w32 p (gfParOff i)),
    f 100 2 100 1 1, f 104 1 1 600 1, f 108 5 10 5 1, f 112 2 100 2 1, f 116 5 10 95 100, f 120 105 100 13 10,
    f 124 1 100 1 1, f 128 1 1 13 10, f 132 1 1 13 10, F32.lt (w32 p 128) (w32 p 132), f 136 1 10 100 1, f 140 1 1 600 1,
    f 144 1000 1 100000000 1, within 1 8 nl, within 1 4 nh, u16 p 150 == 0, zeros p 248 8,
    profileOk p 152 nl 8 0 10, profileOk p 216 nh 4 10 15,
    F32.le (recBand p).1 (w32 p (152 + 8 * (nl - 1) + 4)), F32.le (w32 p (216 + 8 * (nh - 1) + 4)) (recBand p).2,
    match graphIn rs c with
    | none => false
    | some g => hasGfm g && gfWindowOk rs c g,
    (List.range 16).all fun h => u16 p 24 / 2 ^ h % 2 == 0 ||
      (match payOf rs 0x50 0 with
        | none => false
        | some q => decide (u8 q h < 16))]

/-! ### Network, time, CAN and field I/O (R286, R289, R300, R314) -/

/-- Network port (R286). -/
def netPortOk (rs : List ImgRec) (inst : Nat) (p : List Byte) : Bool :=
  let p0 := (payOf rs 0x70 0).getD []
  let speed1 := fun (q : Option (List Byte)) => match q with
    | none => false
    | some x => u8 x 1 == 1
  allOf [p.length == 32, decide (u8 p 0 ≤ 1), decide (u8 p 1 ≤ 2), u8 p 1 != 1 || u8 p 0 == 1, decide (u8 p 2 ≤ 3),
    decide (u8 p 3 ≤ 7), decide (u16 p 4 ≤ 4094), u16 p 10 == 0, u16 p 30 == 0,
    inst == 0 || (u8 p 2 == 0 && zeros p 12 18), hasPay rs 0x70 0, inst == 0 || u8 p0 2 != 0,
    !(u8 p0 2 == 1 || u8 p0 2 == 2) || hasPay rs 0x70 1,
    u8 p0 2 != 2 || (!speed1 (payOf rs 0x70 0) && !speed1 (payOf rs 0x70 1))]

/-- Time (R286). -/
def timeOk (rs : List ImgRec) (p : List Byte) : Bool :=
  allOf [p.length == 48, decide (u8 p 0 ≤ 1), decide (u8 p 1 ≤ 2), !(u8 p 0 == 1 && u8 p 1 == 1) || u8 p 2 != u8 p 3,
    within 1000 1000000000 (u32 p 4), orZero 10 1000 (u16 p 8), orZero 10 3600 (u16 p 10), u32 p 44 == 0,
    (List.range 8).all fun c => match graphIn rs c with
      | none => u32 p (12 + 4 * c) == 0
      | some g => decide (u32 p (12 + 4 * c) < g.period)]

/-- The quanta times prescaler of a bit: its length in 25 ns. -/
def canBit (brp seg1 seg2 : Nat) : Nat := brp * (1 + seg1 + seg2)

/-- CAN port (R289, R290, R300). -/
def canOk (p : List Byte) : Bool :=
  let nom := canBit (u8 p 0) (u16 p 2) (u8 p 4)
  let dat := canBit (u8 p 5) (u8 p 6) (u8 p 7)
  let fl := u8 p 10
  allOf [p.length == 144, within 1 32 (u8 p 0), within 1 128 (u8 p 1), decide (u8 p 1 ≤ u8 p 4), within 2 256 (u16 p 2),
    within 2 128 (u8 p 4), within 1 32 (u8 p 5), within 1 32 (u8 p 6), within 1 16 (u8 p 7), within 1 16 (u8 p 8),
    decide (u8 p 8 ≤ u8 p 7), decide (u8 p 9 ≤ 127), decide (fl < 32), fl / 2 % 2 == 0 || fl % 2 == 1,
    decide (u8 p 11 ≤ 15), decide (u8 p 12 ≤ 16), zeros p 13 3, within 40 320 nom, decide (5 ≤ dat), decide (dat ≤ nom),
    (List.range 16).all fun f =>
      if f < u8 p 12 then decide (u32 p (16 + 8 * f) / 2 ^ 29 % 4 = 0) && decide (u32 p (20 + 8 * f) < 2 ^ 29)
      else zeros p (16 + 8 * f) 8]

/-- Field I/O (R314). -/
def fioOk (p : List Byte) : Bool :=
  allOf [p.length == 104,
    (List.range 16).all fun i => decide (u16 p (4 * i) ≤ 10000) && decide (u8 p (4 * i + 2) ≤ 1) && u8 p (4 * i + 3) == 0,
    (List.range 8).all fun j => decide (u8 p (64 + 4 * j) < 4) && zeros p (65 + 4 * j) 3,
    within 1 3600 (u16 p 96), orZero 100 2000 (u16 p 98), orZero 50 500 (u16 p 100), u16 p 102 == 0]

/-! ### Recorder (R347) -/

/-- FRAME_BYTES of a raw frame (R336): two codes for an interleaved pin. -/
def rawFrameBytes (rs : List ImgRec) (mask : Nat) : Nat :=
  let n := ((List.range 32).map fun q =>
    if mask / 2 ^ q % 2 = 0 then 0 else if u8 ((payOf rs 0x30 q).getD []) 1 = 2 then 2 else 1).foldl (· + ·) 0
  (2 * n + 7) / 8 * 8

/-- Frames that a raw segment holds (R336). -/
def rawCapacity (nseg frameBytes : Nat) : Nat := (4194304 / nseg - 4096) / frameBytes

/-- Frames that a decimated segment holds (R337). -/
def decCapacity (nseg decSize nDec : Nat) : Nat := (decSize * 65536 / nseg - 64) / (4 + 4 * nDec)

/-- Recorder (R347). -/
def recorderOk (rs : List ImgRec) (p : List Byte) : Bool :=
  let mask := u32 p 0
  let nseg := u8 p 4
  let ctx := u8 p 7
  let cap := rawCapacity nseg (rawFrameBytes rs mask)
  let dcap := decCapacity nseg (u16 p 20) (u8 p 18)
  allOf [p.length == 288, nseg == 1 || nseg == 2 || nseg == 4 || nseg == 8, decide (u8 p 5 ≤ 1), decide (u8 p 6 ≤ 1),
    ctx == 0xFF || (decide (ctx ≤ 7) && hasPay rs 0x40 ctx), mask == 0 || within 1 (cap - 1) (u32 p 8),
    within 1 65535 (u16 p 16), decide (u8 p 19 ≤ 32), u16 p 22 == 0, zeros p 280 8,
    if ctx == 0xFF then u8 p 18 == 0 && u16 p 20 == 0
    else within 1 32 (u8 p 18) && within 1 128 (u16 p 20) && within 1 (dcap - 1) (u32 p 12),
    (List.range 32).all fun i => if i < u8 p 18 then decide (u16 p (24 + 2 * i) < 4096) else u16 p (24 + 2 * i) == 0,
    (List.range 32).all fun j =>
      if j < u8 p 19 then
        (faultSourceListed (u8 p (88 + 4 * j)) || within 112 117 (u8 p (88 + 4 * j))) && zeros p (89 + 4 * j) 3
      else u32 p (88 + 4 * j) == 0,
    (List.range 32).all fun q => mask / 2 ^ q % 2 == 0 || (hasPay rs 0x30 q && !pinTriggered rs q)]

/-! ### Safety (R314, R332) -/

/-- A field that names something below n, or none. -/
def orNone (n v : Nat) : Bool := decide (v < n) || v == 0xFF

/-- One connection of the safety record (R332). -/
def connOk (rs : List ImgRec) (p : List Byte) (k : Nat) : Bool :=
  let o := 64 + 16 * k
  let t := u8 p o
  let canAddr := fun v => decide (v / 2 ^ 29 % 4 = 0)
  let others := (List.range 8).filter fun j => j != k && u8 p (64 + 16 * j) == t && u32 p (72 + 16 * j) == u32 p (o + 8)
  if t = 0 then zeros p o 16
  else
    allOf [decide (t ≤ 3), decide (u8 p (o + 1) ≤ 1), within 1 1000 (u16 p (o + 2)), u32 p (o + 4) != 0, others.isEmpty,
      if t = 1 then decide (u32 p (o + 8) < 65536)
      else canAddr (u32 p (o + 8)) && canAddr (u32 p (o + 12)) &&
        (match payOf rs 0x78 (t - 2) with
          | none => false
          | some q => u8 q 10 % 2 == 1)]

/-- Safety (R332), and outputs named by the grid-forming record too (R314). -/
def safetyOk (rs : List ImgRec) (p : List Byte) : Bool :=
  let dem := u8 p 0
  let guard := u8 p 1
  let rst := u8 p 2
  let sup := u8 p 3
  let stat := u8 p 4
  let bkrDi := match payOf rs 0x60 0 with
    | none => 0xFF
    | some q => u8 q 17
  let bkrDq := match payOf rs 0x60 0 with
    | none => 0xFF
    | some q => u8 q 18
  allOf [p.length == 192, orNone 16 dem, decide (guard < 16), orNone 16 rst, decide (sup < 8), orNone 8 stat,
    decide (u8 p 5 ≤ 1), decide (u16 p 6 ≤ 200), orZero 100 10000 (u16 p 8), within 1 366 (u16 p 10), u32 p 12 != 0,
    distinct ([dem, guard, rst].filter (· != 0xFF)), bkrDi == 0xFF || !([dem, guard, rst].contains bkrDi),
    bkrDq == 0xFF || (bkrDq != sup && bkrDq != stat),
    match payOf rs 0x80 0 with
    | none => true
    | some q => u8 q (64 + 4 * sup) == 0,
    (List.range 8).all (connOk rs p)]

/-- Step 4 for one record of an image (R94). An informational record carries anything (R85). -/
def contentOk (rs : List ImgRec) (r : ImgRec) : Bool :=
  match r.type with
  | 0x10 => powerOk rs r.payload
  | 0x11 => clocksOk r.payload
  | 0x20 => routingOk rs r.payload
  | 0x21 => slotsOk rs r.payload
  | 0x22 => accessOk r.payload
  | 0x30 => measOk rs r.payload
  | 0x31 => filterOk rs r.inst r.payload
  | 0x40 => graphOk rs r.inst r.payload
  | 0x41 => coefBankOk r.payload
  | 0x42 => runAheadOk rs r.inst r.payload
  | 0x50 => pinMapOk rs r.payload
  | 0x51 => generatorOk rs r.payload
  | 0x52 => channelOk r.payload
  | 0x60 => gridFormOk rs r.payload
  | 0x70 => netPortOk rs r.inst r.payload
  | 0x71 => timeOk rs r.payload
  | 0x78 => canOk r.payload
  | 0x80 => fioOk r.payload
  | 0x90 => recorderOk rs r.payload
  | 0xA0 => safetyOk rs r.payload
  | _ => true

end Sys2Proof.Machine
end

