-- ==== Sys2Proof/Machine/Image.lean ====
section
/-! DEFINITION. Keyring images: header, records and signature block, and their verification in the order of R94
(R82 to R94), and the page descriptors (R95). -/

namespace Sys2Proof.Machine

/-! ### Verification -/

/-- A failed check: the code of KEY_RES, and the record of KEY_BADREC. -/
structure ImgFail where
  code : Nat
  index : Nat
  type : Nat
  deriving DecidableEq, Repr

/-- A verified image. -/
structure ImgGood where
  records : List ImgRec
  serial : Nat
  rollback : Nat
  slot : Nat
  deriving DecidableEq, Repr

/-- The firmware release of the module: F3.2 (R1, R94). -/
def fwRelease : Nat := 0x0302

/-- Step 1: the header (R94). -/
def headerOk (h : List Byte) : Bool :=
  allOf [u32 h 0 == 0x524B5A49, u8 h 4 == 3, u16 h 6 == 256, decide (u32 h 8 ≤ 16773120), u32 h 8 % 4 == 0,
    u32 h 24 == 0x53470016, decide (u32 h 16 ≤ 64), decide (u16 h 14 ≤ 1), u16 h 14 == 1 || zeros h 32 16,
    u16 h 30 == 0, zeros h 88 164, u32 h 252 == crc32c (slice h 0 252)]

/-- Step 2: the records from an offset, with the index of the next, up to and with the end record (R84, R94): each
frame, its bounds before the signature block, and its CRC. -/
def readRecords (img : List Byte) (limit : Nat) : Nat → Nat → Nat → Except ImgFail (List ImgRec × Nat)
  | 0, _, index => .error ⟨7, index, 0⟩
  | fuel + 1, off, index =>
    let p := (img.drop off).take 8
    let type := u16 p 0
    let len := u32 p 4
    if limit < off + 12 || len % 4 ≠ 0 || limit < off + 12 + len then .error ⟨7, index, type⟩
    else if u32 (img.drop (off + 8 + len)) 0 ≠ crc32c (slice (img.drop off) 0 (8 + len)) then .error ⟨7, index, type⟩
    else
      let r : ImgRec := { type := type, inst := u16 p 2, payload := slice (img.drop (off + 8)) 0 len }
      if type = 0xFFFF then .ok ([r], off + 12 + len)
      else match readRecords img limit fuel (off + 12 + len) (index + 1) with
        | .error e => .error e
        | .ok (rs, fin) => .ok (r :: rs, fin)

/-- The number of instances of a listed TYPE; none: not listed (R85). -/
def instCount (type : Nat) : Option Nat :=
  match type with
  | 0x10 => some 1 | 0x11 => some 1 | 0x20 => some 1 | 0x21 => some 1 | 0x22 => some 1
  | 0x30 => some 32 | 0x31 => some 32 | 0x40 => some 8 | 0x41 => some 16 | 0x42 => some 8
  | 0x50 => some 1 | 0x51 => some 16 | 0x52 => some 32 | 0x60 => some 1 | 0x70 => some 2 | 0x71 => some 1
  | 0x78 => some 2 | 0x80 => some 1 | 0x90 => some 1 | 0xA0 => some 1
  | _ => none

/-- The TYPE and INST of one record stand in the order of R84 after the record before it, and are permitted (R85). -/
def placeOk (before : Option (Nat × Nat)) (r : ImgRec) : Bool :=
  let ordered := match before with
    | none => true
    | some b => decide (b.1 < r.type) || (b.1 == r.type && decide (b.2 < r.inst))
  let known := match instCount r.type with
    | some n => decide (r.inst < n)
    | none => within 0x8000 0xFFFE r.type
  if r.type = 0xFFFF then r.inst == 0 && r.payload.isEmpty else ordered && known

/-- The first record out of its place. -/
def firstMisplaced : Option (Nat × Nat) → Nat → List ImgRec → Option (Nat × Nat)
  | _, _, [] => none
  | b, i, r :: rs => if placeOk b r then firstMisplaced (some (r.type, r.inst)) (i + 1) rs else some (i, r.type)

/-- The required records (R85). -/
def requiredTypes : List Nat := [0x10, 0x11, 0x20, 0x21, 0x22, 0xA0]

/-- Step 3 (R94). A missing required record and a wrong REC_COUNT show at the end record (log entry 31). -/
def checkOrder (h sig : List Byte) (rs : List ImgRec) (fin limit : Nat) : Option ImgFail :=
  match firstMisplaced none 1 rs with
  | some (i, t) => some ⟨8, i, t⟩
  | none =>
    if requiredTypes.any (fun t => !hasPay rs t 0) || u16 h 12 ≠ rs.length then some ⟨8, rs.length, 0xFFFF⟩
    else if fin ≠ limit || u32 sig 0 ≠ 0x4B474953 || u8 sig 5 ≠ 1 || u16 sig 6 ≠ 0 || u8 sig 8 ≠ 4 || !zeros sig 105 3 then
      some ⟨8, 0, 0⟩
    else none

/-- Step 4: the first record whose payload fails. -/
def checkContent (rs : List ImgRec) : Nat → List ImgRec → Option ImgFail
  | _, [] => none
  | i, r :: more => if contentOk rs r then checkContent rs (i + 1) more else some ⟨9, i, r.type⟩

/-- Step 5: key slot and signature (R90). -/
def checkSignature (k : KeyState) (msg sig : List Byte) : Option ImgFail :=
  let slot := u8 sig 4
  if at' k.slotState slot 0 ≠ 1 || at' k.slotDigest slot 0 ≠ beNat (sha384 (slice sig 8 97)) then some ⟨11, 0, 0⟩
  else
    let x := beNat (slice sig 9 48)
    let y := beNat (slice sig 57 48)
    if onCurve x y && ecdsaOk (sha384 msg) x y (beNat (slice sig 108 48)) (beNat (slice sig 156 48)) then none
    else some ⟨10, 0, 0⟩

/-- The verification of R94 on the bytes of a page. -/
def verifyImage (k : KeyState) (page : List (Nat × Byte)) : Except ImgFail ImgGood :=
  let h := sparseRange 0xFF page 0 256
  if !headerOk h then .error ⟨6, 0, 0⟩
  else
    let len := u32 h 8
    let img := sparseRange 0xFF page 0 len
    let limit := len - 204
    match readRecords img limit (len / 12 + 1) 256 1 with
    | .error e => .error e
    | .ok (rs, fin) =>
      let sig := slice (img.drop limit) 0 204
      let bad := (checkOrder h sig rs fin limit).or ((checkContent rs 1 rs).or (checkSignature k (img.take limit) sig))
      match bad with
      | some e => .error e
      | none =>
        if u16 h 14 = 1 && leNat (slice h 32 16) ≠ Config.moduleUid then .error ⟨12, 0, 0⟩
        else if u32 h 16 < k.rollback then .error ⟨13, 0, 0⟩
        else if fwRelease < u16 h 28 then .error ⟨14, 0, 0⟩
        else .ok { records := rs, serial := u32 h 20, rollback := u32 h 16, slot := u8 sig 4 }

/-! ### Page descriptors (R95) -/

/-- Offset of the page descriptor. -/
def descOff : Nat := 0xFFF000

/-- The descriptor's words: STATE, GEN, LEN, DESC_CRC. -/
def descBytes (page : List (Nat × Byte)) : List Byte := sparseRange 0xFF page descOff 16

/-- The state of a page as KEY_PAGEn shows it: 0 empty, 1 committed, 2 stale. A torn descriptor counts as stale. -/
def pageState (page : List (Nat × Byte)) : Nat :=
  let d := descBytes page
  if u32 d 0 = 0xFFFFFFFF && d.all (· == 0xFF#8) then 0
  else if u32 d 0 = 0xFFFF0000 && u32 d 12 = crc32c (slice d 0 12) then 1
  else 2

/-- GEN of a page's descriptor. -/
def pageGen (page : List (Nat × Byte)) : Nat := u32 (descBytes page) 4 % 2 ^ 24

/-- A page of a kind: key pages 0 and 1, firmware pages 2 and 3. -/
def pageIdx (fw : Bool) (n : Fin 2) : Fin 4 := if fw then ⟨2 + n.val, by omega⟩ else ⟨n.val, by omega⟩

/-- The other page. -/
def otherPage (n : Fin 2) : Fin 2 := 1 - n

/-- The page of a kind that Keycheck tries first; none: no page is committed (R95). -/
def firstPage (k : KeyState) (fw : Bool) : Option (Fin 2) :=
  let p0 := k.flash[pageIdx fw 0]
  let p1 := k.flash[pageIdx fw 1]
  match pageState p0 == 1, pageState p1 == 1 with
  | true, true => if pageGen p0 < pageGen p1 then some 1 else some 0
  | true, false => some 0
  | false, true => some 1
  | false, false => none

/-- The running page of a kind. -/
def runPage (k : KeyState) (fw : Bool) : Option (Fin 2) := if fw then k.runFw else k.runKey

/-- The standby page of a kind (R95, R399). Where no firmware page verifies the key pages are not tried, so no page was tried
first: the standby key page is then page 0, the model's choice (log entry 68). -/
def standbyPage (k : KeyState) (fw : Bool) : Fin 2 :=
  match runPage k fw with
  | some n => otherPage n
  | none => match if fw then k.triedFw else k.triedKey with
    | some n => otherPage n
    | none => 0

/-- The running GEN (R100, R399). -/
def runGen (k : KeyState) (fw : Bool) : Nat :=
  match runPage k fw with
  | some n => pageGen k.flash[pageIdx fw n]
  | none =>
    let gen := fun n => if pageState k.flash[pageIdx fw n] = 1 then pageGen k.flash[pageIdx fw n] else 0
    max (gen 0) (gen 1)

/-- The descriptor of a committed page with this generation and image length (R95). -/
def descriptor (gen len : Nat) : List Byte :=
  let d := leBytes 4 0xFFFF0000 ++ leBytes 4 gen ++ leBytes 4 len
  d ++ leBytes 4 (crc32c d)

/-- A page with its descriptor marked stale, if it is not already (R95, R99): bits are only ever cleared. -/
def markStale (page : List (Nat × Byte)) : List (Nat × Byte) := sparsePutAll 0xFF page descOff (leBytes 4 0)

end Sys2Proof.Machine
end

