-- ==== Sys2Proof/Machine/Keyring.lean ====
section
/-! DEFINITION. Key sessions, key commands and the transfer buffer (R91, R93, R96 to R101, R327, R398). -/

namespace Sys2Proof.Machine

/-! ### Sessions (R96, R97) -/

/-- The idle time after which a session ends (R97). -/
def sessionIdle : Nat := secs 60

/-- Idle ticks left of the open session: paused while a command runs (R97, R103). -/
def idleLeft (s : State) : Nat :=
  if !s.key.session then 0
  else if s.key.running.isSome then s.key.idleLeft
  else s.key.idleLeft - (s.now - s.key.idleFrom)

/-- A KEY_CMD or RWK write of the owner restarts the idle count (R97, R103; log entry 32). -/
def touchSession (s : State) : State := modKey (fun k => { k with idleLeft := sessionIdle, idleFrom := s.now }) s

/-- The session ends; SESSION_END where it ends by timeout or mode change (R97, R103). -/
def endSession (event : Bool) (s : State) : State :=
  raiseIf (event && s.key.session) .key 3
    (modKey (fun k => { k with session := false, owner := 0, safeAuth := false, idleLeft := 0 }) s)

/-- A session opens (R96): the active slot tables are copied into the shadows (R110). -/
def openSession (m : Master) (s : State) : State :=
  modMesh (fun x => { x with shadow := x.active })
    (modKey (fun k => { k with
      session := true, owner := m, safeAuth := false, idleLeft := sessionIdle, idleFrom := s.now }) s)

/-- A write that is discarded under R98 or R96. -/
def rwkDiscard (addr : Word) (s : State) : State := raise .key 2 (modKey (fun k => { k with rwkAddr := addr }) s)

/-- An RWK write of this master takes effect: it owns the open session, outside M1 (R96, R98). -/
def rwkOk (m : Master) (s : State) : Bool := owns s m && s.mode.mode != 1#4

/-- An RWK write (R98): f is its effect; the owner's write restarts the idle count, in M1 too (R97). -/
def rwkWrite (m : Master) (addr : Word) (f : State → State) (s : State) : State :=
  let s1 := when (owns s m) touchSession s
  if rwkOk m s then f s1 else rwkDiscard addr s1

/-- The address of KEY_BUF word i (R102). -/
def keyBufAddr (i : Nat) : Word := wd (0x31000 + 4 * i)

/-- A write of a KEY_BUF word (R96). -/
def keyBufWord (m : Master) (i : Nat) (v : Word) (s : State) : State :=
  if owns s m then modKey (fun k => { k with buf := sparsePutAll 0 k.buf (4 * i) (leBytes 4 v.toNat) }) s
  else rwkDiscard (keyBufAddr i) s

/-- A write of a KEY_BUF word by a master. -/
def execKeyBufWrite (m : Master) (idx : Fin 1024) (v : Word) (s : State) : Out := byMaster m s (keyBufWord m idx.val v)

/-- 60 s pass without a KEY_CMD or RWK write of the owner, counted while no command runs (R97). -/
def execSessionTimeout (s : State) : Out :=
  .next (if s.key.session && s.key.running.isNone then endSession true (elapseTo (s.key.idleFrom + s.key.idleLeft) s) else s)

/-! ### Results and refusals (R99, R398) -/

/-- A result is posted in KEY_RES (R398). -/
def postKey (op : Nat) (seq : Half) (code : Nat) (s : State) : State :=
  modKey (fun k => { k with
    resSeq := seq, resOp := BitVec.ofNat 8 op, resCode := BitVec.ofNat 8 code }) s

/-- OPEN is permitted by the mode: M3, or M1 held under R95 (R96). -/
def openMode (s : State) : Bool := s.md == 3 || (s.md == 1 && s.key.heldM1)

/-- The code that refuses a KEY_CMD write before its own conditions are judged (R96, R99; log entry 33); 0: none. -/
def keyGate (m : Master) (key : Half) (op : Nat) (s : State) : Nat :=
  if key ≠ 0x4B59 then 4
  else if s.key.running.isSome then 1
  else if op = 1 then
    (if m ≠ 6 && m ≠ 7 then 3 else if !openMode s then 5 else if s.key.session && s.key.owner ≠ m then 3 else 0)
  else if !s.key.session then 2
  else if s.key.owner ≠ m then 3
  else 0

/-- The standby page of a kind, among the four pages. -/
def standby (fw : Bool) (s : State) : Fin 4 := pageIdx fw (standbyPage s.key fw)

/-- A KEY_CMD write (R69, R398): it takes the next SEQ; the owner's write restarts the idle count; `refuse` judges the
command's own conditions and `start` is what happens when the command is accepted. -/
def keyCommand (op : Nat) (m : Master) (key : Half) (fw : Bool) (refuse : State → Nat) (start : State → State)
    (s : State) : State :=
  let seq := s.key.seq + 1
  let s1 := when (owns s m) touchSession (modKey (fun k => { k with seq := seq }) s)
  let gate := keyGate m key op s
  let code := if gate ≠ 0 then gate else refuse s
  if code ≠ 0 then raiseIf (code == 5 && (m == 6 || m == 7)) .mode 2 (postKey op seq code s1)
  else
    start (modKey (fun k => { k with
      running := some { op := BitVec.ofNat 8 op, seq := seq, fw := fw, arg := s.key.arg, master := m,
                        page := standby fw s, buf := s.key.buf } }) s1)

/-- No condition of its own. -/
def noRefusal (_ : State) : Nat := 0

/-- OP 0 or 11 to 255 (R99). -/
def execKeyCmdUnlisted (m : Master) (key : Half) (fw : Bool) (op : Byte) (s : State) : Out :=
  byMaster m s (keyCommand op.toNat m key fw (fun _ => 20) id)

/-- OPEN (R96). The owner's OPEN while its session is open answers at once with code 0. -/
def openCmd (m : Master) (key : Half) (fw : Bool) (s : State) : State :=
  if keyGate m key 1 s = 0 && owns s m then
    let seq := s.key.seq + 1
    postKey 1 seq 0 (touchSession (modKey (fun k => { k with seq := seq }) s))
  else keyCommand 1 m key fw noRefusal (openSession m) s

/-- OPEN by a master. -/
def execKeyOpen (m : Master) (key : Half) (fw : Bool) (s : State) : Out := byMaster m s (openCmd m key fw)

/-- CLOSE (R97): the session ends without SESSION_END. -/
def execKeyClose (m : Master) (key : Half) (fw : Bool) (s : State) : Out :=
  byMaster m s (keyCommand 2 m key fw noRefusal (endSession false))

/-! ### The standby page (R99 to R101) -/

/-- One page changed. -/
def modPage (i : Fin 4) (f : List (Nat × Byte) → List (Nat × Byte)) (s : State) : State :=
  modKey (fun k => { k with flash := modAt k.flash i f }) s

/-- VERIFIED of a page set or cleared. -/
def setVerified (i : Fin 4) (v : Bool) (s : State) : State :=
  modKey (fun k => { k with verified := upd k.verified i v }) s

/-- The records of the image on a page, as far as its frames can be read; a page whose header gives no length that an image
can have (R84) holds none. -/
def pageRecords (page : List (Nat × Byte)) : List ImgRec :=
  let given := u32 (sparseRange 0xFF page 0 12) 8
  let len := if given ≤ descOff then given else 0
  match readRecords (sparseRange 0xFF page 0 len) (len - 204) (len / 12 + 1) 256 1 with
  | .ok r => r.1
  | .error _ => []

/-- The safety payload of the standby image differs from that of the running image (R100). No image runs while the
module is held in M1: then nothing differs from it (log entry 34). -/
def safetyDiffers (s : State) : Bool :=
  s.key.runKey.isSome && payOf (pageRecords s.key.flash[standby false s]) 0xA0 0 != recOf s 0xA0 0

/-- ERASE is refused for an argument that is misaligned or out of range (R99). -/
def eraseRefusal (s : State) : Nat :=
  if s.key.arg.toNat ≤ 0xFF0000 && s.key.arg.toNat % 0x10000 = 0 then 0 else 20

/-- ERASE (R99, R100): the descriptor is marked stale first, and VERIFIED clears. -/
def execKeyErase (m : Master) (key : Half) (fw : Bool) (s : State) : Out :=
  byMaster m s (keyCommand 3 m key fw eraseRefusal fun t =>
    setVerified (standby fw t) false
      (modPage (standby fw t) (fun p => if pageState p = 2 then p else markStale p) t))

/-- PROGRAM is refused for an argument that is misaligned or out of range (R99). -/
def programRefusal (s : State) : Nat :=
  if s.key.arg.toNat ≤ 0xFFE000 && s.key.arg.toNat % 0x1000 = 0 then 0 else 20

/-- PROGRAM (R99). -/
def execKeyProgram (m : Master) (key : Half) (fw : Bool) (s : State) : Out :=
  byMaster m s (keyCommand 4 m key fw programRefusal id)

/-- VERIFY (R94, R99). -/
def execKeyVerify (m : Master) (key : Half) (fw : Bool) (s : State) : Out :=
  byMaster m s (keyCommand 5 m key fw noRefusal id)

/-- What refuses a COMMIT at once (R100). -/
def commitRefusal (fw : Bool) (s : State) : Nat :=
  if !s.key.verified[standby fw s] then 15
  else if 0xFFFFFF ≤ runGen s.key fw then 19
  else if !fw && safetyDiffers s && !s.key.safeAuth then 16
  else 0

/-- COMMIT (R100). -/
def execKeyCommit (m : Master) (key : Half) (fw : Bool) (s : State) : Out :=
  byMaster m s (keyCommand 6 m key fw (commitRefusal fw) id)

/-- SAFEAUTH (R327). -/
def execKeySafeauth (m : Master) (key : Half) (fw : Bool) (s : State) : Out :=
  byMaster m s (keyCommand 7 m key fw noRefusal id)

/-- An ADVANCE that would not raise the counter is refused (R93). -/
def advanceRefusal (s : State) : Nat :=
  if s.key.runKey.isSome && s.key.rollback < s.key.imgRollback then 0 else 19

/-- ADVANCE (R93). -/
def execKeyAdvance (m : Master) (key : Half) (fw : Bool) (s : State) : Out :=
  byMaster m s (keyCommand 8 m key fw advanceRefusal id)

/-- PROGSLOT takes slots 1 to 3, and only an empty one (R91, R99). -/
def progslotRefusal (s : State) : Nat :=
  if !within 1 3 s.key.arg.toNat then 20 else if at' s.key.slotState s.key.arg.toNat 0 = 0 then 0 else 19

/-- PROGSLOT (R91). -/
def execKeyProgslot (m : Master) (key : Half) (fw : Bool) (s : State) : Out :=
  byMaster m s (keyCommand 9 m key fw progslotRefusal id)

/-- REVOKE takes slots 0 to 3, not the signer of the running image, and not the last programmed one (R91, R99). -/
def revokeRefusal (s : State) : Nat :=
  let n := s.key.arg.toNat
  if 3 < n then 20
  else if s.key.runKey.isSome && s.key.signer.toNat = n then 19
  else if at' s.key.slotState n 0 = 1 && ((s.key.slotState.toList.filter (· == 1)).length = 1 : Bool) then 19
  else 0

/-- REVOKE (R91). -/
def execKeyRevoke (m : Master) (key : Half) (fw : Bool) (s : State) : Out :=
  byMaster m s (keyCommand 10 m key fw revokeRefusal id)

/-! ### Completion (R398) -/

/-- n unstated bytes (log entry 4). -/
def takeBytes (n : Nat) (s : State) : List Byte × State :=
  ((List.range n).map fun i => BitVec.ofNat 8 (Config.freeNat (s.fresh + i)), { s with fresh := s.fresh + n })

/-- Bytes of a page left open by a flash failure (R101; log entry 4). -/
def flashFail (i : Fin 4) (off n : Nat) (s : State) : State :=
  let (bs, s1) := takeBytes n s
  modPage i (fun p => sparsePutAll 0xFF p off bs) s1

/-- The 4 KB that the transfer buffer held when a command was accepted, the model's choice of the time (log entry 65). -/
def keyBuf (r : KeyRun) : List Byte := sparseRange 0 r.buf 0 4096

/-- ERASE completes: the 64 KB block is erased. -/
def doErase (r : KeyRun) (flashOk : Bool) (s : State) : Nat × State :=
  let i := r.page
  let off := r.arg.toNat
  if flashOk then (0, modPage i (fun p => p.filter fun e => e.1 < off || off + 0x10000 ≤ e.1) s)
  else (18, flashFail i off 0x10000 s)

/-- PROGRAM completes: refused where a byte of the 4 KB is not erased (R99); it clears VERIFIED (R100). -/
def doProgram (r : KeyRun) (flashOk : Bool) (s : State) : Nat × State :=
  let i := r.page
  let off := r.arg.toNat
  if s.key.flash[i].any (fun e => off ≤ e.1 && e.1 < off + 4096) then (19, s)
  else if flashOk then (0, setVerified i false (modPage i (fun p => sparsePutAll 0xFF p off (keyBuf r)) s))
  else (18, setVerified i false (flashFail i off 4096 s))

/-- VERIFY completes. What a firmware page holds is not documented: its outcome is open (R95; log entry 4). A pass leaves
KEY_BADREC at the last failing record, the model's choice (log entry 67). -/
def doVerify (r : KeyRun) (s : State) : Nat × State :=
  let i := r.page
  if r.fw then
    let (n, s1) := takeFree s
    if n % 2 = 1 then (0, setVerified i true s1)
    else
      (6 + n / 2 % 9, modKey (fun k => { k with
        badIndex := BitVec.ofNat 16 (n / 32), badType := BitVec.ofNat 16 (n / 2 ^ 21) }) s1)
  else match verifyImage s.key s.key.flash[i] with
    | .ok _ => (0, setVerified i true s)
    | .error e => (e.code, modKey (fun k => { k with
        badIndex := BitVec.ofNat 16 e.index, badType := BitVec.ofNat 16 e.type }) s)

/-- COMMIT completes: refused where the descriptor block is not erased (R99). A change of the safety record raises
SAFE_CHANGE, is logged and makes the start-up test due (R100, R325). In M1 it restarts Keycheck (R101). -/
def doCommit (r : KeyRun) (flashOk : Bool) (s : State) : Nat × State :=
  let i := r.page
  let page := s.key.flash[i]
  let len := u32 (sparseRange 0xFF page 0 12) 8
  let change := !r.fw && safetyDiffers s
  let newCrc := crc32c ((payOf (pageRecords page) 0xA0 0).getD [])
  if page.any (fun e => descOff ≤ e.1) then (19, s)
  else if !flashOk then (18, flashFail i descOff 16 s)
  else
    let s1 := modPage i (fun p => sparsePutAll 0xFF p descOff (descriptor (runGen s.key r.fw + 1) len)) s
    let s2 := when change (fun t => raise .key 5 (plkLog 1 r.master.toNat 0 (safetyCrc t) newCrc
      (modPlk (fun p => { p with testDue := true, testCause := 2 }) t))) s1
    (0, when (s.md == 1) (modKey fun k => { k with heldM1 := false }) s2)

/-- The password in KEY_BUF matches the running record's hash (R327). Without a running record the outcome is open. -/
def passwordOk (r : KeyRun) (s : State) : Bool × State :=
  match recOf s 0xA0 0 with
  | none =>
    let (n, s1) := takeFree s
    (n % 2 == 1, s1)
  | some p =>
    let pw := slice (keyBuf r) 0 16
    if zeros p 32 32 then (pw.all (· == 0), s) else (pbkdf2 pw (slice p 16 16) 10000 == slice p 32 32, s)

/-- The next lockout in seconds (R327). -/
def nextLockout (len : Nat) : Nat := if len = 0 then 900 else min 86400 (2 * len)

/-- A failed SAFEAUTH (R327): counted and logged; from the fifth in a row each one starts a lockout. -/
def authFailed (r : KeyRun) (s : State) : State :=
  let s1 := modPlk (fun p => { p with pwFails := satInc p.pwFails }) s
  let s2 := raise .plk 7 (plkLog 4 r.master.toNat 16 (safetyCrc s) (safetyCrc s) s1)
  when (decide (5 ≤ s2.plk.pwFails.toNat)) (fun t =>
    raise .plk 8 (plkLog 5 8 0 (safetyCrc t) (safetyCrc t)
      (modPlk (fun p => { p with
        lockLen := nextLockout p.lockLen, lockEnd := some (t.now + secs (nextLockout p.lockLen)) }) t))) s2

/-- SAFEAUTH completes, then KEY_BUF is cleared (R99, R327). An acceptance counts for the session it was made in. -/
def doSafeauth (r : KeyRun) (s : State) : Nat × State :=
  let cleared := modKey fun k => { k with buf := [] }
  if s.plk.lockEnd.isSome then (19, cleared s)
  else
    let (ok, s1) := passwordOk r s
    if ok then
      (0, modKey (fun k => { k with safeAuth := k.session && k.owner == r.master })
        (modPlk (fun p => { p with pwFails := 0, lockLen := 0 }) (cleared s1)))
    else (16, authFailed r (cleared s1))

/-- A spare flash block takes the place of a block (R362), with the trigger code of R368: whether one was free. -/
def swapFlash (blk trig : Nat) (s : State) : Bool × State :=
  if spareLeft 7 2 s = 0 then (false, noSpare 7 2 blk trig 0 s) else (true, hingeSwap 7 2 blk (spareUsed 7 2 s) trig 0 s)

/-- The flash block an ERASE, a PROGRAM or a COMMIT works on. -/
def workBlock (r : KeyRun) : Nat := 256 * r.page.val + (if r.op = 6 then descOff else r.arg.toNat) / 65536 % 256

/-- What a command finds of the blocks it works on (R362, R367): one that fails is replaced by a spare block, and without one
the failure stands; one that a VERIFY reads with more than 4 corrected bits is replaced at its next erase. -/
def flashWear (r : KeyRun) (worn : List (Fin 256)) (s : State) : Bool × State :=
  let b := workBlock r
  match r.op.toNat with
  | 5 => (true, modWear (fun w => { w with
      flashDue := (w.flashDue ++ worn.map fun k => 256 * r.page.val + k.val).eraseDups }) s)
  | 3 | 4 | 6 =>
    let s1 := when (r.op == 3 && s.wear.flashDue.contains b)
      (fun t => (swapFlash b 2 (modWear (fun w => { w with flashDue := w.flashDue.filter (· != b) }) t)).2) s
    if worn.any fun k => 256 * r.page.val + k.val == b then swapFlash b 1 s1 else (true, s1)
  | _ => (true, s)

/-- The running command completes: its code and its effect. -/
def finishKey (r : KeyRun) (flashOk : Bool) (s : State) : Nat × State :=
  match r.op.toNat with
  | 3 => doErase r flashOk s
  | 4 => doProgram r flashOk s
  | 5 => doVerify r s
  | 6 => doCommit r flashOk s
  | 7 => doSafeauth r s
  | 8 => (0, raise .key 6 (modKey (fun k => { k with rollback := k.imgRollback }) s))
  | 9 => (0, modKey (fun k => { k with
      slotState := put' k.slotState r.arg.toNat 1,
      slotDigest := put' k.slotDigest r.arg.toNat (beNat (slice (keyBuf r) 0 48)) }) s)
  | 10 => (0, modKey (fun k => { k with slotState := put' k.slotState r.arg.toNat 2 }) s)
  | _ => (0, s)

/-- The running command completes and posts its result (R398), unless a deadbolt stops it (R359); the idle count of R97
resumes. -/
def execKeyCmdComplete (flash : FlashResult) (s : State) : Out :=
  .next (match s.key.running with
    | none => s
    | some r =>
      if s.host.bolts.any (·.target == 0x80) then s else
      let (spared, s1) := flashWear r flash.worn s
      let (code, t) := finishKey r (flash.ok && spared) s1
      postKey r.op.toNat r.seq code (modKey (fun k => { k with running := none, idleFrom := t.now }) t))

/-- A deadbolt stops the running command with code 17 (R97, R359): the page that an ERASE, PROGRAM or COMMIT works on is
stale (R101). -/
def abortKey (s : State) : State :=
  match s.key.running with
  | none => s
  | some r =>
    let i := r.page
    let s1 := if [3, 4, 6].contains r.op.toNat then setVerified i false (modPage i markStale s) else s
    raise .key 4 (postKey r.op.toNat r.seq 17 (modKey (fun k => { k with running := none, idleFrom := s.now }) s1))

end Sys2Proof.Machine
end

