-- ==== Sys2Proof/Machine/Meas.lean ====
section
/-! DEFINITION. The measurement chain (R123 to R142): samples, open wires, the cross-check and its votes, spare
converters, the grid and bursts, and the writes of the filter registers. -/

namespace Sys2Proof.Machine

/-! ### Records of a pin (R129, R131, R132, R140) -/

/-- The measurement-chain payload of a pin. -/
def pinRec (p : Fin 32) (s : State) : List Byte := recD s 0x30 p.val

/-- The pin has a measurement-chain record. -/
def pinOn (p : Fin 32) (s : State) : Bool := hasRec s 0x30 p.val

/-- The pin runs interleaved (R129). -/
def pinIlv (p : Fin 32) (s : State) : Bool := u8 (pinRec p s) 1 == 2

/-- The pin is triggered (R132). -/
def pinTrig (p : Fin 32) (s : State) : Bool := u8 (pinRec p s) 0 == 1

/-- The pin has a filter chain; else it runs in bypass (R140). -/
def pinChain (p : Fin 32) (s : State) : Bool := hasRec s 0x31 p.val

/-- XCHK_TOL and XCHK_CNT. -/
def xchkTol (p : Fin 32) (s : State) : Nat := u16 (pinRec p s) 12

/-- Reads in a row that count (R127). -/
def xchkCnt (p : Fin 32) (s : State) : Nat := u8 (pinRec p s) 14

/-- OW_EN. -/
def owEn (p : Fin 32) (s : State) : Bool := u8 (pinRec p s) 15 == 1

/-- A lane has passed its start (R77). -/
def laneUp (l : Lane) (s : State) : Bool := (s.lc l).health != .absent

/-- The converters of a lane run: from the end of a start on (R77, R335). -/
def measRuns (l : Lane) (s : State) : Bool := laneUp l s && decide (3 ≤ s.md)

/-- One pin in both lanes changed. -/
def modPins (p : Fin 32) (f : PinState → PinState) (s : State) : State := modPin .b p f (modPin .a p f s)

/-- The loop graph of a context. -/
def graphOf (c : Fin 8) (s : State) : Option Graph := (recOf s 0x40 c.val).map parseGraph

/-- The pins a context reads, each once. -/
def ctxPins (c : Fin 8) (s : State) : List (Fin 32) :=
  match graphOf c s with
  | none => []
  | some g => (idx 32).filter fun p => g.ins.any fun i => i.pin == p.val

/-- The anchor loop (R131): the shortest period among the contexts that read continuous pins, the lowest number first. -/
def anchorOf (s : State) : Option (Fin 8) :=
  ((idx 8).filter fun c => (ctxPins c s).any fun p => !pinTrig p s).foldl (fun best c => match best with
    | none => some c
    | some b => if u32 (recD s 0x40 c.val) 0 < u32 (recD s 0x40 b.val) 0 then some c else some b) none

/-! ### A pin at the end of a start -/

/-- The chain of a pin starts (R137, R138, R140): cleared states, the phase not yet set, k formed once. -/
def startChain (pin : Fin 32) (s : State) (p : PinState) : PinState :=
  let f := recD s 0x31 pin.val
  let c := chainCfg f
  { p with
    run := true, settled := false, inputs := 0, phase := c.cicDec * c.firDec - 1, phasePend := true,
    integ := Vector.replicate 5 0, comb := Vector.replicate 5 0, hist := [],
    dcK := dcFactor f (if pinIlv pin s then 20000000 else 10000000) }

/-- A pin of a lane as its records leave it at step 14 of R77, with the converter the repair map gives it. -/
def pinAtStart (pin : Fin 32) (conv : Fin 5) (s : State) : PinState :=
  if !pinOn pin s then {}
  else
    let m := pinRec pin s
    let f := recD s 0x31 pin.val
    let p : PinState := {
      winLo := BitVec.ofNat 16 (u16 m 4), winHi := BitVec.ofNat 16 (u16 m 6),
      skew := BitVec.ofNat 6 (u8 m 18), conv := conv, asleep := pinTrig pin s, primaryB := u8 m 1 == 1,
      nextAt := s.now, xchkFrom := s.now,
      coef := (List.range (u8 f 4)).map fun i => BitVec.ofNat 24 (u32 f (16 + 4 * i)) }
    if pinChain pin s then startChain pin s p else { p with run := true, settled := true }

/-! ### One sample (R123, R124, R129, R130, R134, R136) -/

/-- The code a converter delivers for an input in nV; at a transition either neighbour (R123; log entry 4). -/
def convert (nv : Int) (s : State) : Half × State :=
  if codeTie nv then
    let (n, s1) := takeFree s
    (codeOf (n % 2 == 1) nv, s1)
  else (codeOf false nv, s)

/-- A leg lies beyond 12.5 V of AGND (R125). -/
def legOver (legP legN : Int) : Bool := decide (12500000000 < legP.natAbs) || decide (12500000000 < legN.natAbs)

/-- Another pin of the lane is overdriven (R125). -/
def disturbed (l : Lane) (pin : Fin 32) (s : State) : Bool :=
  (idx 32).any fun q => q != pin && ((s.lane l).meas.pin[q]).overdrive

/-- The code of one sample (R123, R125): the end code while a leg is out of range, open until 200 ns after its return, and
within 2 LSB of the input while another pin is overdriven (log entry 4). -/
def sampleCode (l : Lane) (pin : Fin 32) (legP legN : Int) (s : State) : Half × State :=
  let p := (s.lane l).meas.pin[pin]
  let (n, s1) := takeFree s
  if legOver legP legN then
    let top := decide (legN < legP) || (decide (legN = legP) && n % 2 == 1)
    (if top then 0x7FFF#16 else 0x8000#16, s1)
  else if p.overdrive || decide (s.now < p.recoverTo) then (BitVec.ofNat 16 n, s1)
  else
    let (c, s2) := convert (legP - legN) s
    if disturbed l pin s then
      let (k, s3) := takeFree s2
      (BitVec.ofInt 16 (clampInt (-32768) 32767 (c.toInt + (k % 5 : Nat) - 2)), s3)
    else (c, s2)

/-- The overdrive of a pin after a sample (R125): the return lies at or before the first sample back in range. -/
def noteOver (now : Nat) (beyond : Bool) (p : PinState) : PinState :=
  { p with overdrive := beyond, recoverTo := if p.overdrive && !beyond then now + 80 else p.recoverTo }

/-- A sample of a lane's own converter at its grid instant: OVR, the trim of R129, a spare's samples alongside (R128), and
the run at positive full scale of R124: with OW_EN the first sample below it clears OPEN. -/
def noteCode (now inst : Nat) (ow : Bool) (code : Half) (p : PinState) : PinState :=
  let full := code == 0x7FFF#16
  { p with
    own := code, ovr := endCode code, asleep := false, lastConv := now, nextAt := inst + 40, burstLeft := p.burstLeft - 1,
    sampledAt := 32 * (now : Int) + p.skew.toInt, swapLeft := p.swapLeft - 1,
    fullSince := if full then some (p.fullSince.getD now) else none,
    opened := p.opened && (full || !ow) }

/-- One code reaches the filter chain, or the bypass output. -/
def feedCode (pin : Fin 32) (s : State) (code : Half) (p : PinState) : PinState :=
  let w := winCfg (pinRec pin s)
  if pinChain pin s then
    (if p.run then chainStep (chainCfg (recD s 0x31 pin.val)) w (s.md == 9) p code else p)
  else bypassStep w p code

/-- A lane has a converter on a pin that samples (R77, R366). -/
def converterOn (l : Lane) (pin : Fin 32) (s : State) : Bool :=
  measRuns l s && pinOn pin s && !((s.lane l).meas.pin[pin]).absent

/-- One code in the stream of a pin in a lane: the first or the second sample of a grid instant, and whether it stands in
for a missing one. -/
structure StreamCode where
  lane : Lane
  first : Bool
  code : Half
  half : Bool := false

/-- What one sample of a lane puts into the streams of its pin (R129, R130): its own lane's, and for an interleaved pin
the other lane's too, where a missing sample is the lane's own latest repeated. -/
def streamCodes (l : Lane) (pin : Fin 32) (code : Half) (lost : Bool) (s : State) : List StreamCode :=
  if !pinIlv pin s then [⟨l, true, code, false⟩]
  else
    let m := otherLane l
    let p := (s.lane l).meas.pin[pin]
    let alone := !converterOn m pin s
    let sent := (tsuOut s l).up && !lost
    let there := if sent then code else ((s.lane m).meas.pin[pin]).own
    let here := match l with
      | .a => ⟨.a, true, code, false⟩ :: (if alone then [⟨.a, false, code, true⟩] else [])
      | .b => (if alone then [⟨.b, true, if p.lastConv = 0 then code else p.own, true⟩] else []) ++ [⟨.b, false, code, false⟩]
    here ++ (if !measRuns m s then []
      else if alone then [⟨m, true, there, true⟩, ⟨m, false, there, true⟩]
      else [⟨m, decide (l = .a), there, !sent⟩])

/-- A code reaches the chain of a pin in one lane. -/
def feedAt (pin : Fin 32) (inst : Nat) (x : StreamCode) (s : State) (p : PinState) : PinState :=
  if x.first then
    let p1 := feedCode pin s x.code { p with undo := some (saveChain inst p), pairA := x.code }
    { p1 with out2 := p1.out }
  else feedCode pin s x.code p

/-- The read of a pin by context c still takes a sample (R126, R131, R132, R137): one at or before the trigger, any of its
own burst, and in bypass the later sample of the same grid instant. -/
def readTakes (pin : Fin 32) (c : Fin 8) (inst : Nat) (first : Bool) (trigAt : Nat) (s : State) : Bool :=
  (pinTrig pin s && u8 (pinRec pin s) 2 == c.val) ||
    decide (inst + (if !first && pinChain pin s then 20 else 0) ≤ trigAt)

/-- The loop reads that wait take a chain's output (R126). -/
def noteReads (l : Lane) (pin : Fin 32) (inst : Nat) (first : Bool) (s : State) : State :=
  foldS (idx 8) (fun c t =>
    let x := (t.lane l).eng.ctx[c]
    if x.vecDue && readTakes pin c inst first x.trigAt t then
      modCtx l c (fun x => { x with
        reads := x.reads.map fun r => if r.1 = pin then (pin, pinRead ((t.lane l).meas.pin[pin])) else r }) t
    else t) s

/-- A code reaches the stream of a pin in one lane. -/
def streamSample (pin : Fin 32) (inst : Nat) (x : StreamCode) (s : State) : State :=
  raiseIf x.half (.meas x.lane) 5 (noteReads x.lane pin inst x.first (modPin x.lane pin (feedAt pin inst x s) s))

/-- A sample reaches the comparator of its lane, the chains of its pin and, over the link, the other lane's MEAS_RAW. -/
def takeSample (l : Lane) (pin : Fin 32) (inst : Nat) (code : Half) (beyond lost : Bool) (s : State) : State :=
  let w := winCfg (pinRec pin s)
  let own := fun (p : PinState) =>
    let p1 := noteOver s.now beyond (noteCode s.now inst (owEn pin s) code p)
    if w.chain then p1 else winStep p1 (code.toInt : Rat) w.hyst w.deb
  let s1 := raiseIf (endCode code) (.meas l) 8 (modPin l pin own s)
  let s2 := foldS (streamCodes l pin code lost s) (streamSample pin inst) s1
  when ((tsuOut s l).up && measRuns (otherLane l) s)
    (if lost then crcErrors l 1 else modPin (otherLane l) pin fun p => { p with other := code }) s2

/-- Lane B samples an interleaved pin 50 ns after the grid (R129). -/
def ilvOffset (l : Lane) (pin : Fin 32) (s : State) : Nat := if pinIlv pin s && decide (l = .b) then 20 else 0

/-- A converter has a sample due: a continuous pin always, a triggered one within its burst. -/
def sampleDue (l : Lane) (pin : Fin 32) (s : State) : Bool :=
  converterOn l pin s && (!pinTrig pin s || decide (0 < ((s.lane l).meas.pin[pin]).burstLeft))

/-- A powered-down converter: one that has started no conversion for 200 ns (R132). -/
def execConverterPowerDown (l : Lane) (pin : Fin 32) (s : State) : Out :=
  let p := (s.lane l).meas.pin[pin]
  .next (if measRuns l s && pinOn pin s && pinTrig pin s && !p.asleep && p.burstLeft = 0 then
    modPin l pin (fun p => { p with asleep := true }) (elapseTo (p.lastConv + 80) s)
  else s)

/-! ### Windows and open wires (R124, R134) -/

/-- A value has left its band after debouncing (R134): one WIN_EXIT. -/
def execWinExit (l : Lane) (pin : Fin 32) (s : State) : Out :=
  .next (if ((s.lane l).meas.pin[pin]).winExit ≠ 0 then
    raise (.meas l) 0 (modPin l pin (fun p => { p with winExit := 0 }) s)
  else s)

/-- A pin has read +32 767 without a break for OW_TIME (R124). -/
def execOpenWire (l : Lane) (pin : Fin 32) (s : State) : Out :=
  let p := (s.lane l).meas.pin[pin]
  .next (match p.fullSince with
    | none => s
    | some t =>
      if pinOn pin s && owEn pin s && !p.opened then
        raise (.meas l) 1 (modPin l pin (fun p => { p with opened := true })
          (elapseTo (t + 40000 * u16 (pinRec pin s) 16) s))
      else s)

/-- MEAS_OWTEST.START (R124): the reversed bias on the selected pin for 1 ms, in M3 only. -/
def owTestStart (l : Lane) (s : State) : State :=
  let pin : Fin 32 := (s.lane l).meas.pinSel.toFin
  if s.md = 3 && pinOn pin s then modPins pin (fun p => { p with owTest := some (s.now + ms 1) }) s else s

/-- MEAS_OWTEST is written. -/
def execOwTestStart (l : Lane) (s : State) : Out := .next (owTestStart l s)

/-- The test ends: OPEN says whether the lane's last sample read −32 768 (R124). A run of +32 767 that the test did not
break keeps its start, so that OPEN_WIRE may follow at once (DESIGN CHOICE, log entry 69). -/
def execOwTestEnd (l : Lane) (pin : Fin 32) (s : State) : Out :=
  let p := (s.lane l).meas.pin[pin]
  .next (match p.owTest with
    | none => s
    | some t => modPin l pin (fun p => { p with owTest := none, opened := p.own == 0x8000#16 }) (elapseTo t s))

/-! ### Cross-check, votes and spares (R127, R128, R362, R367) -/

/-- A spare converter of a lane is free: not in service, not withdrawn, and in no vote or swap. -/
def spareFree (l : Lane) (i : Fin 4) (s : State) : Bool :=
  !((s.lane l).meas.spareUsed[i]) &&
    (idx 32).all fun p =>
      decide (((s.lane .a).meas.pin[p]).vote ≠ some (l, i)) && decide (((s.lane .b).meas.pin[p]).vote ≠ some (l, i)) &&
        (match ((s.lane l).meas.pin[p]).swap with
          | none => true
          | some w => w.1 != i)

/-- The first free spare of a lane. -/
def firstSpare (l : Lane) (s : State) : Option (Fin 4) := (idx 4).find? fun i => spareFree l i s

/-- A vote starts (R127): it connects a free spare of lane A, or of lane B; without one SPARE_NONE is raised. -/
def startVote (l : Lane) (pin : Fin 32) (s : State) : State :=
  if ((s.lane .a).meas.pin[pin]).vote.isSome || ((s.lane .b).meas.pin[pin]).vote.isSome then s
  else match firstSpare .a s, firstSpare .b s with
    | some i, _ => modPins pin (fun p => { p with vote := some (.a, i) }) s
    | none, some i => modPins pin (fun p => { p with vote := some (.b, i) }) s
    | none, none => raise (.meas l) 4 (noSpare 3 (laneNum l) pin.val 5 ((s.lane l).meas.pin[pin]).xchkMax.toNat s)

/-- 2¹⁴⁹ times a binary32 value: an integer. -/
def unitsOf (w : Word) : Int := (F32.val w * ((2 ^ 149 : Nat) : Rat)).floor

/-- What the present loop read of context c takes from a pin's chain in a lane (R126). -/
def readOf (l : Lane) (c : Fin 8) (pin : Fin 32) (s : State) : PinRead :=
  match ((s.lane l).eng.ctx[c]).reads.find? fun r => r.1 == pin with
  | some r => r.2
  | none => pinRead ((s.lane l).meas.pin[pin])

/-- The comparison of one pin in one lane at a loop read (R127), d the difference of the chain outputs in units. -/
def xchkStep (tol cnt : Nat) (d : Int) (p : PinState) : PinState :=
  let above := decide ((tol : Int) * 2 ^ 149 < d.natAbs)
  let run := if above then p.xchkRun + 1 else 0
  let good := if above then 0 else p.xchkGood + 1
  let fail := above && !p.xchkBad && decide (run = cnt)
  let bad := p.xchkBad && decide (good < cnt)
  { p with
    xchkRun := if fail || (p.xchkBad && !bad) then 0 else run,
    xchkGood := good, xchkBad := bad, xchkDue := p.xchkDue || fail,
    xchkCount := if above then satInc p.xchkCount else p.xchkCount,
    xchkMax := BitVec.ofNat 16 (max p.xchkMax.toNat (min 0xFFFF (d.natAbs / 2 ^ 149))),
    xchkSum := p.xchkSum + d, xchkN := p.xchkN + 1 }

/-- The 10 s window of R362 has passed: the mean difference is judged, and a new window starts. -/
def xchkTrend (l : Lane) (pin : Fin 32) (s : State) : State :=
  let p := (s.lane l).meas.pin[pin]
  if s.now < p.xchkFrom + secs 10 then s
  else
    let s1 := modPin l pin (fun p => { p with xchkSum := 0, xchkN := 0, xchkFrom := s.now }) s
    when (!p.xchkBad && decide ((xchkTol pin s * p.xchkN : Nat) * 2 ^ 149 < 2 * p.xchkSum.natAbs)) (startVote l pin) s1

/-- The loop read of a context compares both converters of each pin it reads, in both lanes (R127); a pin that has lost
one of them has no cross-check (R366). -/
def crossCheck (c : Fin 8) (s : State) : State :=
  if !(laneUp .a s && laneUp .b s) then s
  else
    foldS (ctxPins c s) (fun pin t =>
      if pinIlv pin t || ((t.lane .a).meas.pin[pin]).absent || ((t.lane .b).meas.pin[pin]).absent then t
      else
        let d := unitsOf (readOf .a c pin t).code - unitsOf (readOf .b c pin t).code
        xchkTrend .b pin (xchkTrend .a pin (modPins pin (xchkStep (xchkTol pin t) (xchkCnt pin t) d) t))) s

/-- A run of differences is reported (R127): XCHK_FAIL, XCHK_BAD and a vote. -/
def execXchkFail (l : Lane) (pin : Fin 32) (s : State) : Out :=
  .next (if ((s.lane l).meas.pin[pin]).xchkDue then
    startVote l pin (raise (.meas l) 2
      (modPin l pin (fun p => { p with xchkDue := false, xchkBad := true, xchkGood := 0 }) s))
  else s)

/-- A converter found faulty is to be replaced by a spare of its own lane (R128): the voting spare where it is of that
lane. The spare first samples alongside for 16 samples. -/
def requestSwap (l : Lane) (pin : Fin 32) (v : Lane × Fin 4) (s : State) : State :=
  match if v.1 = l then some v.2 else firstSpare l s with
  | some i => modPin l pin (fun p => { p with swap := some (i, true), swapLeft := 16, swapDue := false }) s
  | none => raise (.meas l) 4 (noSpare 3 (laneNum l) pin.val 5 ((s.lane l).meas.pin[pin]).xchkMax.toNat s)

/-- The vote of a pin ends on the sums of 64 codes of the primary, the cross-check and the spare (R127). -/
def voteDone (pin : Fin 32) (sumP sumC sumS : Int) (s : State) : State :=
  match (((s.lane .a).meas.pin[pin]).vote).or ((s.lane .b).meas.pin[pin]).vote with
  | none => s
  | some v =>
    let tol := 64 * xchkTol pin s
    let badP := decide (tol < (sumP - sumS).natAbs)
    let badC := decide (tol < (sumC - sumS).natAbs)
    let pl : Lane := if ((s.lane .a).meas.pin[pin]).primaryB then .b else .a
    let s1 := modPins pin (fun p => { p with vote := none }) s
    if badP && !badC then requestSwap pl pin v (modPins pin (fun p => { p with primaryB := !p.primaryB }) s1)
    else if badC && !badP then requestSwap (otherLane pl) pin v s1
    else s1

/-- A vote ends. -/
def execVoteDone (pin : Fin 32) (sumPrimary sumCross sumSpare : Int) (s : State) : Out :=
  .next (voteDone pin sumPrimary sumCross sumSpare s)

/-- A spare takes over a pin (R128): SPARE_IN, the swap of R362, and XCHK_BAD clears where a vote asked for it. -/
def spareIn (l : Lane) (pin : Fin 32) (s : State) : State :=
  let p := (s.lane l).meas.pin[pin]
  match p.swap with
  | none => s
  | some (i, voted) =>
    let s1 := modMeas l (fun m => { m with spareUsed := upd m.spareUsed i true }) s
    let s2 := modPin l pin (fun p => { p with swap := none, swapDue := false, conv := i.succ }) s1
    let s3 := when voted (modPins pin fun p => { p with xchkBad := false, xchkRun := 0, xchkGood := 0 }) s2
    raise (.meas l) 3 (hingeSwap 3 (laneNum l) pin.val i.val (if voted then 5 else 4) p.xchkMax.toNat s3)

/-- A spare takes over at the first anchor trigger after its 16 samples (R128). -/
def execSpareIn (l : Lane) (pin : Fin 32) (s : State) : Out :=
  .next (when ((s.lane l).meas.pin[pin]).swapDue (spareIn l pin) s)

/-- The kind of the periodic calibration of a lane's spares. -/
def tkSpareCal (l : Lane) : Nat := 15 + laneNum l

/-- Every 1 s each idle spare is calibrated (R128). -/
def execSpareCalibrate (l : Lane) (s : State) : Out :=
  .next (if measRuns l s then periodic (tkSpareCal l) (secs 1) s else s)

/-! ### Triggers (R131, R132, R137) -/

/-- The distance in ticks from a time to the nearest instant of a 100 ns grid. -/
def gridShift (now grid : Nat) : Nat :=
  let r := ((now : Int) - (grid : Int)) % 40
  min r.toNat (40 - r.toNat)

/-- The anchor trigger places the grid of one pin (R131, R137); `drop`: the grid sample before the trigger leaves the
stream. A spare that has taken its 16 samples may take over (R128). -/
def rephasePin (now : Nat) (drop : Bool) (p : PinState) : PinState :=
  let p1 := match p.undo with
    | some k => if drop && decide (now < k.inst + 40) then restoreChain k p else p
    | none => p
  { p1 with
    nextAt := if !drop && decide (now + 1 < p.nextAt) then now + 40 else now,
    phase := if drop || p.phasePend then 0 else p1.phase, phasePend := false }

/-- At an anchor trigger a spare that has sampled 16 times alongside is ready to take over (R128). -/
def spareReady (p : PinState) : PinState := { p with swapDue := p.swapDue || (p.swap.isSome && p.swapLeft == 0) }

/-- The anchor trigger in one lane: a shift above 2.5 ns drops a sample and counts as a slip, but for the first
re-phasing and the one after TRIG_REALIGN (R131); a slip is marked in the recorder (R342). -/
def rephase (l : Lane) (s : State) : State :=
  let m := (s.lane l).meas
  let grid := (idx 32).filter fun p => pinOn p s && !pinTrig p s
  let shift := (grid.map fun p => gridShift s.now (m.pin[p]).nextAt).foldl max 0
  let slip := decide (1 < shift) && !m.rephaseFree
  let s0 := foldS (idx 32) (fun p t => modPin l p spareReady t) s
  let s1 := foldS grid (fun p t => modPin l p (rephasePin s.now (decide (1 < shift))) t) s0
  let s2 := modMeas l (fun m => { m with
    anchored := true, rephaseFree := false, slips := if slip then satInc m.slips else m.slips }) s1
  when slip (fun t => recMark l t.raw 0 5 0 0 0 (raise (.meas l) 6 t)) s2

/-- The delay in ticks of a burst whose trigger came leadNs ahead (R132). -/
def lateTicks (leadNs : Nat) : Nat := ((40 - leadNs) * 2 + 4) / 5

/-- The trigger of a context at the converters of one lane (R131, R132). -/
def triggerMeas (l : Lane) (c : Fin 8) (leadNs : Nat) (s : State) : State :=
  if !measRuns l s then s
  else
    let bursts := (idx 32).filter fun p => pinOn p s && pinTrig p s && u8 (pinRec p s) 2 == c.val
    let late := decide (leadNs < 40)
    let s1 := foldS bursts (fun p t => modPin l p (fun x => { x with
      asleep := false, nextAt := t.now + lateTicks leadNs, lastConv := t.now,
      burstLeft := u8 (pinRec p t) 3,
      phase := if x.phasePend then 0 else x.phase, phasePend := false }) t) s
    let s2 := raiseIf (late && !bursts.isEmpty) (.meas l) 7 s1
    when (decide (anchorOf s = some c)) (rephase l) s2

/-! ### Writes of the filter registers (R139, R140) -/

/-- FLT_CTL (R139, R140): a change of RUN is taken in M3 and M11 only; a pin in bypass or without a record discards it. -/
def fltCtl (l : Lane) (v : Word) (s : State) : State :=
  let pin : Fin 32 := (s.lane l).meas.fltSel.toFin
  let run := bit v 0
  if !pinOn pin s || !pinChain pin s then s
  else
    let s1 := modPin l pin (fun p => { p with freeze := bit v 1 }) s
    if run = ((s.lane l).meas.pin[pin]).run then s1
    else if !inStop s then raise (.flt l) 1 s1
    else if run then modPin l pin (startChain pin s1) s1
    else modPin l pin (fun p => { p with
      run := false, settled := false, inputs := 0, integ := Vector.replicate 5 0, comb := Vector.replicate 5 0,
      hist := [] }) s1

/-- A write of FLT_CTL. -/
def execFltCtlWrite (l : Lane) (v : Word) (s : State) : Out := .next (fltCtl l v s)

/-- The base address of a lane window (R371). -/
def laneBase : Lane → Nat
  | .a => 0x10000000
  | .b => 0x20000000

/-- FLT_COEFDAT (R98, R139): RWK, and only while the chain is stopped; a pin in bypass discards the owner's write without a
pennant. -/
def fltCoefdat (l : Lane) (m : Master) (v : Word) (s : State) : State :=
  let pin : Fin 32 := (s.lane l).meas.fltSel.toFin
  if pinOn pin s && !pinChain pin s then s
  else
    rwkWrite m (wd (laneBase l + 0x20014)) (fun t =>
      if !pinChain pin t then t
      else if ((t.lane l).meas.pin[pin]).run then raise (.flt l) 0 t
      else modPin l pin (fun p => { p with coef := p.coef.set p.coefSel.toNat (BitVec.ofNat 24 (fld v 0 24)) }) t) s

/-- A write of FLT_COEFDAT. -/
def execFltCoefdatWrite (l : Lane) (m : Master) (v : Word) (s : State) : Out := byMaster m s (fltCoefdat l m v)

end Sys2Proof.Machine
end

