-- ==== Sys2Proof/Machine/Schedule.lean ====
section
/-! DEFINITION. The trigger schedule (R285): each context's next trigger as a raw-counter tick. A trigger falls on the
first raw tick at which the timeline has reached its instant (log entry 35). -/

namespace Sys2Proof.Machine

/-- One PERIOD unit of 2.5 ns in units of 2⁻⁴¹ ns. -/
def tickUnits : Int := 5497558138880

/-- The least n with n × step ≥ gap, 0 for a gap that is not positive. -/
def ceilDiv (gap step : Int) : Nat := if gap ≤ 0 then 0 else ((gap + step - 1) / step).toNat

/-- Raw ticks until the timeline reaches t (R278, R281): while the residual slews it moves at SLEW_MAX until it is 0. -/
def ticksUntil (t : Int) (s : State) : Nat :=
  let rho := 5 * (1099511627776 + (s.time.dom[s.time.sel]).anchor.rate)
  let r := residNow s
  let gap := t - domNow s.time.sel s
  let slew : Int := ((s.time.slewMax * 5 * 2 ^ 40 / 10 ^ 7 : Nat) : Int)
  if r = 0 then ceilDiv gap rho
  else if !inRun s || slew = 0 then ceilDiv (gap - r) rho
  else
    let n := if 0 < r then ceilDiv (gap - r) (rho - slew) else ceilDiv (gap - r) (rho + slew)
    if (n : Int) * slew ≤ r.natAbs then n else ceilDiv gap rho

/-- The first schedule instant of a context at or after a timeline instant (R285). -/
def instantFrom (c : Fin 8) (t : Int) (s : State) : Int :=
  let period := (u32 (recD s 0x40 c.val) 0 : Int) * tickUnits
  let phase := (u32 (recD s 0x71 0) (12 + 4 * c.val) : Int) * tickUnits
  phase + (ceilDiv' (t - phase) period) * period
where
  /-- The least integer k with k × step ≥ gap. -/
  ceilDiv' (gap step : Int) : Int := -((-gap) / step)

/-- The raw tick of the first schedule instant at or after a timeline instant. -/
def triggerFrom (c : Fin 8) (t : Int) (s : State) : Long :=
  s.raw + BitVec.ofNat 64 (ticksUntil (instantFrom c t s) s)

/-- The next trigger strictly after now. -/
def scheduleNext (c : Fin 8) (s : State) : State :=
  modTime (fun x => { x with nextTrig := upd x.nextTrig c (some (triggerFrom c (timelineNow s + 1) s)) }) s

/-- A context's trigger is scheduled for the first time (R285). -/
def scheduleFirst (c : Fin 8) (s : State) : State := if hasRec s 0x40 c.val then scheduleNext c s else s

/-- The time waits until a raw tick. -/
def elapseToRaw (n : Long) (s : State) : State := advance (n.toNat - s.raw.toNat) s

/-- After a step of the timeline (R285): each next trigger moves to the first schedule instant at least half a period
after the last trigger, and TRIG_REALIGN is raised; the grids may re-phase freely once (R131). -/
def realign (s : State) : State :=
  let s1 := foldS (idx 8) (fun c t => match t.time.nextTrig[c] with
    | none => t
    | some _ =>
      let half := u32 (recD t 0x40 c.val) 0 / 2
      let base : Int := match t.time.lastTrig[c] with
        | none => 0
        | some l => (l.toNat + half : Nat) - (t.raw.toNat : Int)
      let earliest := timelineNow t + max 1 (base * tickUnits)
      modTime (fun x => { x with nextTrig := upd x.nextTrig c (some (triggerFrom c earliest t)) }) t) s
  let s2 := foldS lanes (fun l t => modMeas l (fun m => { m with rephaseFree := true }) t) s1
  raise .time 5 s2

end Sys2Proof.Machine
end

