-- ==== Sys2Proof/Machine/Engine.lean ====
section
/-! DEFINITION. The loop engine (R11, R12, R143 to R168): triggers and agreed vectors, abandoned steps, coefficient
writes, FMA units, the oscillation detector and the trace taps. -/

namespace Sys2Proof.Machine

/-! ### Contexts, nodes and coefficients -/

/-- A context is in use in a lane. -/
def ctxUsed (l : Lane) (c : Fin 8) (s : State) : Bool := ((s.lane l).eng.ctx[c]).state ≠ 0

/-- A committed node value (R150). -/
def nodeVal (l : Lane) (n : Nat) (s : State) : Word := sparseGet 0 (s.lane l).eng.nodes n

/-- Node values committed. -/
def putNodes (l : Lane) (ns : List (Nat × Word)) (s : State) : State :=
  modEng l (fun e => { e with nodes := ns.foldl (fun m x => sparsePut 0 m x.1 x.2) e.nodes }) s

/-- Place of a coefficient (R152). -/
def coefKey (c : Fin 8) (bank : Bool) (index : Nat) : Nat := 1024 * c.val + 512 * b2n bank + index

/-- A coefficient of a lane. -/
def coefVal (l : Lane) (c : Fin 8) (bank : Bool) (index : Nat) (s : State) : Word :=
  sparseGet 0 (s.lane l).eng.coefs (coefKey c bank index)

/-- Active FMA units (R166): 16 as long as spares replace those that were lost. -/
def fmaUnits (l : Lane) (s : State) : Nat := min 16 (18 - (s.lane l).eng.fmaLost.length)

/-- Free spare units. -/
def fmaSpares (l : Lane) (s : State) : Nat := 18 - (s.lane l).eng.fmaLost.length - 16

/-- The step at whose start a change may next take effect in both lanes: the running number where no lane has yet
started it. -/
def nextTarget (c : Fin 8) (s : State) : Nat :=
  let of := fun l => let x := (s.lane l).eng.ctx[c]
    if laneUp l s then (if x.startedNo = x.stepNo then x.stepNo + 1 else x.stepNo) else 0
  max (of .a) (of .b)

/-! ### The engine clock and the order of steps (R59, R144) -/

/-- Island of a lane's loop engine (R40). -/
def loopIsland : Lane → Nat
  | .a => 2
  | .b => 8

/-- Ticks that engine cycles take at the engine clock in use: 800 MHz, or the ring oscillator's share of it (R59). -/
def engTicks (l : Lane) (cycles : Nat) (s : State) : Nat :=
  let i := at' s.clock.isl (loopIsland l) {}
  if i.src = 2 then
    let pm := max 1 i.ringPm.toNat
    (1000 * cycles + 2 * pm - 1) / (2 * pm)
  else (cycles + 1) / 2

/-- Engine cycles that fit into a number of ticks, the inverse of `engTicks`. -/
def engCycles (l : Lane) (ticks : Nat) (s : State) : Nat :=
  let i := at' s.clock.isl (loopIsland l) {}
  if i.src = 2 then ticks * 2 * max 1 i.ringPm.toNat / 1000 else 2 * ticks

/-- Context d comes before context c (R144). -/
def ctxBefore (d c : Fin 8) (s : State) : Bool :=
  let pd := u32 (recD s 0x40 d.val) 0
  let pc := u32 (recD s 0x40 c.val) 0
  decide (pd < pc) || (pd == pc && decide (d < c))

/-- A step of higher priority is ready or runs in a lane (R144). -/
def preempted (l : Lane) (c : Fin 8) (s : State) : Bool :=
  (idx 8).any fun d =>
    let x := (s.lane l).eng.ctx[d]
    (x.vec.isSome || x.run.isSome) && ctxBefore d c s

/-- A running step gives way at its next level boundary; past its last one it runs to its end (R144). -/
def suspendRun (l : Lane) (g : Graph) (s : State) (r : RunStep) : RunStep :=
  match r.since with
  | none => r
  | some t =>
    match nextBoundary (fmaUnits l s) g (r.work + engCycles l (s.now - t) s) with
    | some b => { r with work := b, since := none, freeAt := t + engTicks l (b - r.work) s }
    | none => { r with freeAt := t + engTicks l (stepCycles (fmaUnits l s) g - r.work) s }

/-- A step of context d has become ready: the running steps of lower priority are suspended (R144). -/
def suspendLower (l : Lane) (d : Fin 8) (s : State) : State :=
  foldS (idx 8) (fun c t => match graphOf c t with
    | none => t
    | some g => if ctxBefore d c t then modCtx l c (fun x => { x with run := x.run.map (suspendRun l g t) }) t else t) s

/-- A step has ended: the suspended one that no ready step precedes resumes (R144). -/
def resumeRuns (l : Lane) (s : State) : State :=
  foldS (idx 8) (fun c t =>
    if preempted l c t then t
    else modCtx l c (fun x => { x with run := x.run.map fun r => { r with since := r.since.or (some t.now) } }) t) s

/-- When the engine of a lane has left every suspended step. -/
def engineFree (l : Lane) (s : State) : Nat :=
  ((s.lane l).eng.ctx.toList.filterMap fun x => x.run.map (·.freeAt)).foldl max 0

/-! ### Trace taps (R163) -/

/-- Where an entry of a tap's buffer lies in the lane window. -/
def traceOff (c : Fin 8) (t : Nat) (i : Nat) : Nat := 0x1600000 + (8 * c.val + t) * 0x8000 + 8 * i

/-- Index of a tap. -/
def tapIdx (c : Fin 8) (t : Fin 8) : Fin 64 := ⟨8 * c.val + t.val, by omega⟩

/-- One tap changed. -/
def modTap (l : Lane) (i : Fin 64) (f : TraceTap → TraceTap) (s : State) : State :=
  modEng l (fun e => { e with tap := modAt e.tap i f }) s

/-- An entry is written to a tap's buffer (R163). -/
def traceWrite (l : Lane) (c : Fin 8) (t : Fin 8) (v : Word) (tag branch ahead step : Nat) (s : State) : State :=
  let x := (s.lane l).eng.tap[tapIdx c t]
  let lo := pack [(0, step % 2 ^ 24), (24, ahead), (28, branch), (30, tag)]
  let s1 := laneWrite l (traceOff c t.val x.wptr.toNat) (leBytes 4 lo.toNat ++ leBytes 4 v.toNat) s
  modTap l (tapIdx c t) (fun x => { x with wptr := x.wptr + 1, wrapped := x.wrapped || x.wptr == 0xFFF }) s1

/-- A tap records: enabled, running and not frozen. -/
def tapRecords (x : TraceTap) : Bool := x.en && x.run && !x.frozen

/-- The taps of a context at a committed step (R163): one entry every DECIM steps, and a freeze that was due. -/
def traceCommit (l : Lane) (c : Fin 8) (step : Nat) (s : State) : State :=
  foldS (idx 8) (fun t u =>
    let x := (u.lane l).eng.tap[tapIdx c t]
    if !tapRecords x then u
    else
      let hit := decide (x.decim.toNat ≤ x.cnt)
      let u1 := modTap l (tapIdx c t) (fun x => { x with cnt := if hit then 0 else x.cnt + 1 }) u
      let u2 := when hit (traceWrite l c t (nodeVal l x.node.toNat u) 0 0 0 step) u1
      modTap l (tapIdx c t) (fun x => { x with frozen := x.freezePend, freezePend := false }) u2) s

/-- An event freezes the taps of a context that wait for it (R163): at once where the step's entry is written or will
never be, else after it. -/
def freezeTaps (l : Lane) (c : Fin 8) (event : Nat) (pending : Bool) (s : State) : State :=
  foldS (idx 8) (fun t u => modTap l (tapIdx c t) (fun x =>
    if x.freezeOn.toNat = event && tapRecords x then
      (if pending then { x with freezePend := true } else { x with frozen := true })
    else x) u) s

/-- A step that writes no entry settles the freezes that waited for it (R163). -/
def settleFreeze (l : Lane) (c : Fin 8) (s : State) : State :=
  foldS (idx 8) (fun t u => modTap l (tapIdx c t) (fun x =>
    { x with frozen := x.frozen || x.freezePend, freezePend := false }) u) s

/-- The entry into M9 or M3 freezes the taps of every context (R163). -/
def freezeOnMode (s : State) : State :=
  foldS lanes (fun l t => foldS (idx 8) (fun c u =>
    let x := (u.lane l).eng.ctx[c]
    freezeTaps l c 3 (x.vecDue || x.vec.isSome || x.run.isSome) u) t) s

/-- TRC_CTL: a 1 in RUN clears the freeze and resumes at WPTR (R163). -/
def trcCtl (l : Lane) (v : Word) (s : State) : State :=
  let e := (s.lane l).eng
  modTap l (tapIdx e.trcCtx.toFin e.trcTap.toFin) (fun x => { x with
    run := bit v 0, freezeOn := BitVec.ofNat 2 (fld v 2 2),
    frozen := x.frozen && !bit v 0, freezePend := x.freezePend && !bit v 0 }) s

/-- TRC_CTL is written. -/
def execTrcCtlWrite (l : Lane) (v : Word) (s : State) : Out := .next (trcCtl l v s)

/-! ### Steps that fail (R147, R148, R166) -/

/-- A context has a step that is due and has not committed. -/
def stepOpen (x : EngCtx) : Bool := x.vecDue || x.vec.isSome || x.run.isSome

/-- A step is given up: its buffer goes, its outputs stay, and the run of R148 grows; the third in a row reports a lane
fault. -/
def failStep (l : Lane) (c : Fin 8) (s : State) : State :=
  let third := decide (((s.lane l).eng.ctx[c]).missRun.val = 2)
  let s1 := modCtx l c (fun x => { x with
    run := none, vec := none, vecDue := false,
    missRun := if x.missRun.val < 3 then x.missRun + 1 else x.missRun }) s
  let s2 := resumeRuns l (settleFreeze l c s1)
  when third (fun t => faultLane l 2 (raise (.eng l) 1 (modEng l (fun e => { e with laneFault := true }) t))) s2

/-- A step that has not committed by its DEADLINE is abandoned (R147): DEADLINE_MISS, counted. -/
def missStep (l : Lane) (c : Fin 8) (s : State) : State :=
  failStep l c (freezeTaps l c 1 false (raise (.eng l) 0 (modCtx l c (fun x => { x with misses := satInc x.misses }) s)))

/-- A step misses its DEADLINE (R147). -/
def execDeadlineMiss (l : Lane) (ctx : Fin 8) (s : State) : Out :=
  let x := (s.lane l).eng.ctx[ctx]
  .next (if ctxUsed l ctx s && stepOpen x then
    missStep l ctx (elapseTo (x.trigAt + u32 (recD s 0x40 ctx.val) 4) s)
  else s)

/-! ### Triggers and agreed vectors (R11, R12, R145, R285) -/

/-- The trigger of a context in the engine of one lane: a step still open is abandoned, and a fresh one begins (R147; a
trigger that TRIG_REALIGN brings before the DEADLINE does the same, log entry 70). -/
def triggerEng (l : Lane) (c : Fin 8) (s : State) : State :=
  if laneUp l s && ctxUsed l c s then
    modCtx l c (fun x => { x with
      stepNo := x.stepNo + 1, trigAt := s.now, vecDue := true, vec := none, vecUnagreed := false,
      reads := (ctxPins c s).map fun p => (p, pinRead ((s.lane l).meas.pin[p])) })
      (when (stepOpen ((s.lane l).eng.ctx[c])) (missStep l c) s)
  else s

/-- The scheduled trigger of a context falls in both lanes on one tick (R285). -/
def loopTrigger (c : Fin 8) (leadNs : Nat) (s : State) : State :=
  match s.time.nextTrig[c] with
  | none => s
  | some n =>
    let s1 := elapseToRaw n s
    let s2 := scheduleNext c (modTime (fun x => { x with lastTrig := upd x.lastTrig c (some n) }) s1)
    foldS lanes (fun l t =>
      let t1 := triggerEng l c (triggerMeas l c leadNs t)
      if laneUp l t1 then alignCarriers l c ((t1.lane l).eng.ctx[c]).stepNo t1 else t1) s2

/-- A trigger falls. -/
def execLoopTrigger (ctx : Fin 8) (leadNs : Nat) (s : State) : Out := .next (loopTrigger ctx leadNs s)

/-- The input time of a context (R145). -/
def inputTicks (c : Fin 8) (s : State) : Nat :=
  match graphOf c s with
  | none => 56
  | some g => inputTime s.key.records g

/-- The value a pin gives an input entry of a loop read in a lane's chain (R129, R136): ENTRY 1 is the later sample of an
interleaved pin. -/
def pinOut (l : Lane) (c : Fin 8) (pin : Fin 32) (entry : Nat) (s : State) : Word :=
  let p := readOf l c pin s
  if pinIlv pin s && !pinChain pin s && entry = 0 then p.out2 else p.out

/-- The lane whose chain gives a pin's entry in a lane's agreed vector (R11, R12, R129): the primary converter's, or the
lane itself where the other lane's sample has not arrived. -/
def vectorLane (l : Lane) (pin : Fin 32) (missing : List (Fin 32)) (s : State) : Lane :=
  if missing.contains pin || pinIlv pin s then l
  else if ((s.lane l).meas.pin[pin]).primaryB then .b else .a

/-- The agreed vector of a lane (R11, R12, R126). -/
def agreedVector (l : Lane) (c : Fin 8) (g : Graph) (missing : List (Fin 32)) (s : State) : List (Nat × Word) :=
  g.ins.map fun i =>
    let pin : Fin 32 := Fin.ofNat 32 i.pin
    (i.node, pinOut (vectorLane l pin missing s) c pin i.entry s)

/-- Every chain that feeds a context is settled at the loop read (R149). -/
def inputsSettled (l : Lane) (c : Fin 8) (g : Graph) (missing : List (Fin 32)) (s : State) : Bool :=
  g.ins.all fun i =>
    let pin : Fin 32 := Fin.ofNat 32 i.pin
    (readOf (vectorLane l pin missing s) c pin s).settled

/-- The other lane's samples do not reach a lane at all: the other lane is absent or the channel is down. -/
def samplesCut (l : Lane) (s : State) : Bool := !laneUp (otherLane l) s || !(tsuOut s (otherLane l)).up

/-- The agreed vector of a context falls due in one lane (R12). -/
def vectorIn (l : Lane) (c : Fin 8) (given : List (Fin 32)) (s : State) : State :=
  match graphOf c s with
  | none => s
  | some g =>
    if !(laneUp l s && ((s.lane l).eng.ctx[c]).vecDue) then s
    else
      let pins := ctxPins c s
      let missing := if samplesCut l s then pins else pins.filter given.contains
      let bad := !missing.isEmpty
      let s0 := when (!samplesCut l s) (crcErrors (otherLane l) missing.length) s
      let s1 := suspendLower l c (modCtx l c (fun x => { x with
        vecDue := false, vec := some (agreedVector l c g missing s), vecUnagreed := bad,
        vecSettled := inputsSettled l c g missing s }) s0)
      when bad (fun t => raise .clm 0 (modClaim (fun k => { k with
        unagreed := satInc k.unagreed, a := { k.a with goodSince := t.now }, b := { k.b with goodSince := t.now } }) t)) s1

/-- The agreed vector of a context falls due: the loop read of both lanes, with the cross-check of R127. -/
def vectorDue (c : Fin 8) (missA missB : List (Fin 32)) (s : State) : State :=
  let x := (s.lane .a).eng.ctx[c]
  let y := (s.lane .b).eng.ctx[c]
  if !(x.vecDue || y.vecDue) then s
  else
    let s1 := elapseTo (max x.trigAt y.trigAt + inputTicks c s) s
    let s2 := vectorIn .b c missB (vectorIn .a c missA s1)
    if ((s2.lane .a).eng.ctx[c]).vecUnagreed || ((s2.lane .b).eng.ctx[c]).vecUnagreed then s2 else crossCheck c s2

/-- The agreed vector falls due. -/
def execVectorDue (ctx : Fin 8) (missA missB : List (Fin 32)) (s : State) : Out := .next (vectorDue ctx missA missB s)

/-! ### FMA units (R166, R362, R367) -/

/-- The units of the issue pool: the first 16 that have not left it. -/
def fmaPool (lost : List (Fin 18)) : List (Fin 18) := ((idx 18).filter fun u => !lost.contains u).take 16

/-- A unit leaves the pool; a spare enters, or the engine continues with fewer units. A spare that fails its test while
idle is only withdrawn. -/
def loseUnit (l : Lane) (u : Fin 18) (s : State) : State :=
  let lost := (s.lane l).eng.fmaLost
  if lost.contains u then s
  else
    let s1 := raise (.eng l) 8 (modEng l (fun e => { e with fmaLost := u :: e.fmaLost }) s)
    if !(fmaPool lost).contains u then
      modWear (fun w => { w with used := put' w.used (laneNum l) (BitVec.ofNat 16 (spareUsed 0 (laneNum l) s + 1)) }) s1
    else if lost.length < 2 then
      hingeSwap 0 (laneNum l) u.val (spareUsed 0 (laneNum l) s) 1 1 (raise (.eng l) 9 s1)
    else noSpare 0 (laneNum l) u.val 1 1 (raise (.eng l) 10 s1)

/-- A speculative step in flight is squashed: counted, and RA_SQUASH (R181). -/
def squash (l : Lane) (c : Fin 8) (s : State) : State :=
  if (((s.lane l).ra.ctx[c]).flight).isNone then s
  else raise (.ra l) 3 (modRaCtx l c (fun r => { r with
    flight := none, suspended := false, squashes := satInc r.squashes }) s)

/-- A residue mismatch or a failed test (R166): a committed step fails without a missed deadline (log entry 36), a
speculative step is squashed, and the unit leaves. -/
def execFmaErr (l : Lane) (unit : Fin 18) (wh : FmaWhere) (s : State) : Out :=
  .next (if !laneUp l s || (s.lane l).eng.fmaLost.contains unit then s
  else
    loseUnit l unit (match wh with
      | .committed c => if ((s.lane l).eng.ctx[c]).run.isSome then failStep l c s else s
      | .speculative c => squash l c s
      | .testPass => s))

/-- The kind of the periodic test-vector pass. -/
def tkFma (l : Lane) : Nat := 17 + laneNum l

/-- Every 1 s every unit runs a test-vector pass (R166). -/
def execFmaTestPass (l : Lane) (failed : List (Fin 18)) (s : State) : Out :=
  .next (if laneUp l s && decide (3 ≤ s.md) then foldS failed (loseUnit l) (periodic (tkFma l) (secs 1) s) else s)

/-! ### Coefficients (R153 to R155) -/

/-- COEF_RUN permits a change in every mode; else only M3 and M11 do (R153). -/
def coefMode (c : Fin 8) (s : State) : Bool := u8 (recD s 0x40 c.val) 20 == 1 || inStop s

/-- A lane takes a coefficient write (R153 to R155). -/
def coefTaken (l : Lane) (c : Fin 8) (bank : Bool) (v : Word) (s : State) : Bool :=
  let x := (s.lane l).eng.ctx[c]
  normalWord v && coefMode c s && (x.live || x.bank != bank)

/-- A change waits in a context. -/
def addPend (l : Lane) (c : Fin 8) (t : Option Nat) (w : PendWrite) (s : State) : State :=
  modCtx l c (fun x => { x with pend := x.pend ++ [(t, w)] }) s

/-- The step tag of a change: open while the mirrored write is on its way (R153, R257). -/
def pendTag (c : Fin 8) (s : State) : Option Nat :=
  if tsuUp s then none else some (nextTarget c s)

/-- A write of ENG_COEFDAT in a lane's window (R153 to R155). -/
def coefWrite (l : Lane) (v : Word) (s : State) : State :=
  let e := (s.lane l).eng
  let c : Fin 8 := e.ctxSel.toFin
  if coefTaken l c e.coefBank v s then
    mirror l (.coef c e.coefBank e.coefIndex.toNat v)
      (addPend l c (pendTag c s) (.coef e.coefBank e.coefIndex.toNat v) s)
  else raise (.eng l) 4 s

/-- ENG_COEFDAT is written. -/
def execCoefWrite (l : Lane) (v : Word) (s : State) : Out := .next (coefWrite l v s)

/-- A swap waits in a context. -/
def swapWaits (x : EngCtx) : Bool := x.pend.any fun p => p.2 == .swap

/-- The detector is armed again by a host's swap request (R165). -/
def rearmOsc (l : Lane) (c : Fin 8) (s : State) : State :=
  modCtx l c (fun x => if x.osc = 2 then { x with osc := 1, oscHold := 0 } else x) s

/-- A write of 1 to ENG_BANKSWAP.REQ (R154). -/
def bankSwapReq (l : Lane) (s : State) : State :=
  let c : Fin 8 := (s.lane l).eng.ctxSel.toFin
  if !coefMode c s then raise (.eng l) 4 s
  else if swapWaits ((s.lane l).eng.ctx[c]) then raise (.eng l) 5 s
  else mirror l (.bankSwap c) (rearmOsc l c (addPend l c (pendTag c s) .swap s))

/-- ENG_BANKSWAP is written. -/
def execBankSwapReq (l : Lane) (s : State) : Out := .next (bankSwapReq l s)

/-- The first waiting change of a kind that has no tag yet is given one. -/
def tagFirst (n : Nat) (w : PendWrite) : List (Option Nat × PendWrite) → List (Option Nat × PendWrite)
  | [] => []
  | (none, x) :: r => if x = w then (some n, x) :: r else (none, x) :: tagFirst n w r
  | e :: r => e :: tagFirst n w r

/-- A mirrored coefficient write or swap arrives in a lane (R153): the lane that received it has judged it, this one applies
it, and both tag it with the step at whose start they do so. -/
def coefArrival (l : Lane) (c : Fin 8) (w : PendWrite) (s : State) : State :=
  let n := nextTarget c s
  let s1 := addPend l c (some n) w (modCtx (otherLane l) c (fun x => { x with pend := tagFirst n w x.pend }) s)
  match w with
  | .coef _ _ _ => s1
  | .swap => rearmOsc l c s1

/-- The changes of a context that take effect at the start of step n: tagged up to n, or untagged with no channel to the
other lane left. -/
def pendReady (n : Nat) (s : State) (p : Option Nat × PendWrite) : Bool :=
  match p.1 with
  | some k => decide (k ≤ n)
  | none => !tsuUp s

/-- One change takes effect (R153, R154): a swap raises COEF_SWAPPED. -/
def applyPend (l : Lane) (c : Fin 8) (w : PendWrite) (s : State) : State :=
  match w with
  | .coef bank i v => modEng l (fun e => { e with coefs := sparsePut 0 e.coefs (coefKey c bank i) v }) s
  | .swap => raise (.eng l) 3 (modCtx l c (fun x => { x with bank := !x.bank }) s)

/-! ### Oscillation detector (R164, R165) -/

/-- A free band energy as a finite value without a sign (log entry 4). -/
def cleanEnergy (w : Word) : Word := F32.abs (if F32.isFinite w then w else F32.maxFinite)

/-- The mean square of values with their mean removed, exactly (R164). -/
def meanSquare (xs : List Word) : Rat :=
  let n : Rat := (xs.length : Nat)
  let vs := xs.map F32.val
  let m := vs.foldl (· + ·) 0 / n
  (vs.map fun v => (v - m) * (v - m)).foldl (· + ·) 0 / n

/-- What the detector does after OSC_HOLD oscillating windows (R165). -/
def oscAct (l : Lane) (c : Fin 8) (action : Nat) (s : State) : State :=
  let s1 := freezeTaps l c 2 false (raise (.eng l) 6 s)
  match action with
  | 0 => s1
  | 1 =>
    let x := (s1.lane l).eng.ctx[c]
    let s2 := raiseIf (swapWaits x) (.eng l) 5 s1
    modCtx l c (fun x => { x with
      osc := 2, pend := (x.pend.filter fun p => p.2 != .swap) ++ [(some (nextTarget c s), .swap)] }) s2
  | _ => setSource (96 + c.val) true (raise (.eng l) 7 (modCtx l c (fun x => { x with osc := 3 }) s1))

/-- A window of OSC_WIN committed steps is complete (R164): it is judged, and the detector acts. -/
def oscWindowEnd (l : Lane) (c : Fin 8) (s : State) : State :=
  match graphOf c s with
  | none => s
  | some g =>
    let x := (s.lane l).eng.ctx[c]
    if g.oscNode = 0xFFFF || x.oscBuf.length < g.oscWin then s
    else
      let win := x.oscBuf.reverse.take g.oscWin
      let eb := cleanEnergy (Config.bandEnergy c.val x.oscWindows)
      let et := F32.ofRat (meanSquare win)
      let band := (F32.sqrt eb).w
      let ratio := (F32.div eb et).w
      let osc := F32.le g.oscRatio ratio && F32.le g.oscRms band
      let hold := if osc then x.oscHold + 1 else 0
      let acts := decide (g.oscHold ≤ hold) && x.osc == 1
      let s1 := modCtx l c (fun x => { x with
        oscBuf := x.oscBuf.take (x.oscBuf.length - g.oscWin), oscWindows := x.oscWindows + 1,
        oscBand := band, oscRatio := ratio, oscHold := if acts then 0 else hold }) s
      when acts (oscAct l c g.oscAction) s1

/-- A window ends. -/
def execOscWindowEnd (l : Lane) (ctx : Fin 8) (s : State) : Out := .next (oscWindowEnd l ctx s)

end Sys2Proof.Machine
end

