-- ==== Sys2Proof/Machine/Speculate.lean ====
section
/-! DEFINITION. Speculative work (R169 to R175, R181 to R184): the sets of a context, predicted and disturbed inputs, the
issue of levels, completed steps, and what a committed step, a change of coefficients or a mode does to the sets. -/

namespace Sys2Proof.Machine

/-! ### The run-ahead record (TYPE 0x0042) -/

/-- The record of a context. -/
def raRec (c : Fin 8) (s : State) : List Byte := recD s 0x42 c.val

/-- HORIZON. -/
def raHorizon (c : Fin 8) (s : State) : Nat := u8 (raRec c s) 0

/-- A template is enabled. -/
def raTpl (c : Fin 8) (t : Fin 3) (s : State) : Bool := u8 (raRec c s) 1 / 2 ^ t.val % 2 == 1

/-- NEXT_EN. -/
def raNextEn (c : Fin 8) (s : State) : Bool := u8 (raRec c s) 2 == 1

/-- Input indices and flags of triad j; none: unused. -/
def raTriad (c : Fin 8) (j : Nat) (s : State) : Option (Nat × Nat × Nat × Nat) :=
  let p := raRec c s
  let o := 12 + 4 * j
  if p.isEmpty || u8 p o = 0xFF then none else some (u8 p o, u8 p (o + 1), u8 p (o + 2), u8 p (o + 3))

/-- THR, SIZE and WIN_MASK of a template. -/
def raThr (c : Fin 8) (t : Fin 3) (s : State) : Word := w32 (raRec c s) (32 + 16 * t.val)

/-- SIZE. -/
def raSize (c : Fin 8) (t : Fin 3) (s : State) : Word := w32 (raRec c s) (36 + 16 * t.val)

/-- WIN_MASK. -/
def raMask (c : Fin 8) (t : Fin 3) (s : State) : Nat := u32 (raRec c s) (40 + 16 * t.val)

/-! ### Environment of a step -/

/-- What GFMSTEP reads beside its window (R190 to R198). -/
def gfEnv (l : Lane) (c : Fin 8) (beh : Nat) (s : State) : GfEnv :=
  let p := recD s 0x60 0
  let g := (s.lane l).gf
  { beh, period := u32 (recD s 0x40 c.val) 0, par := g.par, fNom := w32 p 8, preIlim := w32 p 20, chOn := w32 p 128,
    chFull := w32 p 132, present := g.present }

/-- What a step of a context reads in a lane, with its nodes from `node` (R151, R152, R159). -/
def stepEnv (l : Lane) (c : Fin 8) (beh : Nat) (node : Nat → Word) (s : State) : StepEnv :=
  let bank := ((s.lane l).eng.ctx[c]).bank
  { node, coef := fun i => coefVal l c bank i s, blocked := inStop s, gf := gfEnv l c beh s }

/-- BRANCH_NODE gets its value before the first level of every step (R175). -/
def branchInput (c : Fin 8) (v : Word) (s : State) : List (Nat × Word) :=
  if hasRec s 0x42 c.val && u16 (raRec c s) 6 ≠ 0xFFFF then [(u16 (raRec c s) 6, v)] else []

/-- The value that BRANCH_NODE gets in a branch step. -/
def branchCode (t : Fin 3) : Word := F32.ofInt (t.val + 1)

/-! ### Predicted inputs (R173, R174) -/

/-- The αβ vector rotated by φ turns, each part rounded once. -/
def fRotate (al be phi : Word) : Calc (Word × Word) := do
  let s := F32.val (F32.sin2pi phi)
  let c := F32.val (F32.cos2pi phi)
  let a := F32.val al
  let b := F32.val be
  let x ← counted (once (a * c - b * s))
  let y ← counted (once (a * s + b * c))
  pure (x, y)

/-- The three phases of a triad, predicted by a rotation of φ turns and disturbed by a template (R173, R174). -/
def predictTriad (phi t : Word) (dist : Option (Fin 3 × Word)) (a b c : Word) : Calc (List Word) := do
  let va := F32.val a
  let vb := F32.val b
  let vc := F32.val c
  let al ← counted (once ((2 * va - vb - vc) / 3))
  let be ← counted (once (F32.addSqrt3 0 ((vb - vc) / 3)))
  let z ← counted (once ((va + vb + vc) / 3))
  let (al1, be1) ← fRotate al be phi
  let (al2, be2) ← match dist with
    | none => pure (al1, be1)
    | some (0, size) => do
      let k ← fSub f1 size
      let x ← fMul al1 k
      let y ← fMul be1 k
      pure (x, y)
    | some (1, size) => fRotate al1 be1 size
    | some (_, size) => do
      let turn ← fMul size t
      fRotate al1 be1 turn
  let half : Rat := mkRat 1 2
  let x2 := F32.val al2
  let y2 := F32.val be2
  let pb ← counted (once (F32.addSqrt3 (-(x2 * half)) (y2 * half)))
  let pc ← counted (once (F32.addSqrt3 (-(x2 * half)) (-(y2 * half))))
  let oa ← fAdd al2 z
  let ob ← fAdd pb z
  let oc ← fAdd pc z
  pure [oa, ob, oc]

/-- The inputs of a speculative step at ahead h, in entry order (R173, R174); dist: the template of a branch. -/
def predictInputs (l : Lane) (c : Fin 8) (h : Nat) (dist : Option (Fin 3)) (s : State) : Calc (List Word) := do
  let r := (s.lane l).ra.ctx[c]
  let t := fPeriod (u32 (recD s 0x40 c.val) 0)
  let ft ← fMul (nodeVal l (u16 (raRec c s) 4) s) t
  let phi ← fMul ft (F32.ofInt h)
  (List.range 4).foldlM (fun ins j =>
    match raTriad c j s with
    | none => pure ins
    | some (ia, ib, ic, flags) =>
      if flags % 2 = 0 then pure ins
      else do
        let d := if flags / 4 % 2 = 1 then dist.map fun k => (k, raSize c k s) else none
        let ph ← predictTriad phi t d (r.inputs.getD ia 0) (r.inputs.getD ib 0) (r.inputs.getD ic 0)
        pure (((ins.set ia (ph.getD 0 0)).set ib (ph.getD 1 0)).set ic (ph.getD 2 0))) r.inputs

/-! ### Jobs (R170) -/

/-- The ahead of a job's predicted inputs. -/
def jobAhead : SpecJob → Nat
  | .horizon h => h
  | .armed _ => 1
  | .next _ => 2

/-- The template of a branch. -/
def jobTpl : SpecJob → Option (Fin 3)
  | .horizon _ => none
  | .armed t => some t
  | .next t => some t

/-- The horizon step whose checkpoint is a job's root, 0: the committed state. -/
def jobRoot : SpecJob → Nat
  | .horizon h => h - 1
  | .armed _ => 0
  | .next _ => 1

/-- The valid checkpoint of horizon step h of a context. -/
def ckOf (l : Lane) (c : Fin 8) (h : Nat) (s : State) : Option Checkpoint :=
  (s.lane l).ra.slot.toList.findSome? fun x => x.bind fun k =>
    if k.valid && k.ctx == c && k.ahead == h then some k else none

/-- The first job of R170's list that is not done. -/
def nextJob (l : Lane) (c : Fin 8) (s : State) : Option SpecJob :=
  let r := (s.lane l).ra.ctx[c]
  let on := (idx 3).filter fun t => raTpl c t s
  let armed := (on.filter fun t => (r.armed[t]).isNone).map SpecJob.armed
  let h1 := if r.hDone = 0 && 1 ≤ raHorizon c s then [SpecJob.horizon 1] else []
  let next := if raNextEn c s && 1 ≤ r.hDone then
    (on.filter fun t => (r.next[t]).isNone).map SpecJob.next else []
  let hn := if 1 ≤ r.hDone && r.hDone < raHorizon c s then [SpecJob.horizon (r.hDone + 1)] else []
  (armed ++ h1 ++ next ++ hn).head?

/-- The job in flight, or the next one. -/
def jobNow (l : Lane) (c : Fin 8) (s : State) : Option (SpecJob × Nat) :=
  (((s.lane l).ra.ctx[c]).flight).or ((nextJob l c s).map fun j => (j, 0))

/-! ### Issue of levels (R172) -/

/-- t_k of R182. -/
def restoreCycles (g : Graph) : Nat := 8 + (g.nodeCount + 31) / 32

/-- A committed step of a lane is ready or runs. -/
def laneBusy (l : Lane) (s : State) : Bool :=
  (idx 8).any fun c => let x := (s.lane l).eng.ctx[c]; x.vec.isSome || x.run.isSome

/-- Ticks until the start of the next committed step of a lane (R172); none: no trigger is scheduled. -/
def nextStart (l : Lane) (s : State) : Option Nat :=
  (idx 8).foldl (fun best c =>
    let x := (s.lane l).eng.ctx[c]
    let own := if !ctxUsed l c s then none
      else if x.vecDue then some (x.trigAt + inputTicks c s - s.now)
      else (s.time.nextTrig[c]).map fun n => (n.toNat - s.raw.toNat) + inputTicks c s
    match best, own with
    | none, o => o
    | b, none => b
    | some a, some b => some (min a b)) none

/-- Ticks of the level that a context would issue next; none: it has none. -/
def nextLevel (l : Lane) (c : Fin 8) (s : State) : Option Nat :=
  match graphOf c s, jobNow l c s with
  | some g, some (_, n) => ((cutLevels g.levels g.ops)[n]?).map fun ops => engTicks l (levelCycles (fmaUnits l s) ops) s
  | _, _ => none

/-- A level of the context may be issued now (R172). -/
def mayIssue (l : Lane) (c : Fin 8) (s : State) : Bool :=
  laneUp l s && ((s.lane l).ra.ctx[c]).on && !laneBusy l s &&
    match nextLevel l c s with
    | none => false
    | some n => match nextStart l s with
      | none => true
      | some m => decide (n ≤ m)

/-- The run-ahead unit issues the next level of a context, or suspends the step whose level would not end in time
(R170, R172). -/
def specLevelIssue (l : Lane) (c : Fin 8) (s : State) : State :=
  if (idx 8).any fun d => ctxBefore d c s && mayIssue l d s then s
  else if mayIssue l c s then
    match nextLevel l c s, jobNow l c s with
    | some n, some (j, k) =>
      modRaCtx l c (fun r => { r with flight := some (j, k + 1), suspended := false }) (advance n s)
    | _, _ => s
  else modRaCtx l c (fun r => { r with suspended := r.flight.isSome }) s

/-- A level is issued. -/
def execSpecLevelIssue (l : Lane) (ctx : Fin 8) (s : State) : Out := .next (specLevelIssue l ctx s)

/-! ### A completed step (R169, R170, R175, R183, R184) -/

/-- A node lies in the range of a graph. -/
def ownNode (g : Graph) (k : Nat) : Bool := decide (g.nodeBase ≤ k) && decide (k < g.nodeBase + g.nodeCount)

/-- The root of a job: the committed nodes, or those of a checkpoint in the context's own range. -/
def rootNode (l : Lane) (c : Fin 8) (g : Graph) (j : SpecJob) (s : State) : Nat → Word :=
  match ckOf l c (jobRoot j) s with
  | none => fun k => nodeVal l k s
  | some ck => fun k => if ownNode g k then sparseGet 0 ck.nodes k else nodeVal l k s

/-- The own nodes of a root, in sparse form. -/
def rootOwn (l : Lane) (c : Fin 8) (g : Graph) (j : SpecJob) (s : State) : List (Nat × Word) :=
  match ckOf l c (jobRoot j) s with
  | none => (s.lane l).eng.nodes.filter fun e => ownNode g e.1
  | some ck => ck.nodes

/-- What a speculative step computes: its inputs, its buffer and its own nodes at the end. -/
structure SpecResult where
  inputs : List Word
  buf : StepBuf
  nodes : List (Nat × Word)

/-- A speculative step is computed from its root (R173 to R175, R197). -/
def specRun (l : Lane) (c : Fin 8) (g : Graph) (j : SpecJob) (s : State) : SpecResult :=
  let (ins, n) := (predictInputs l c (jobAhead j) (jobTpl j) s).run 0
  let br := match jobTpl j with
    | none => f0
    | some t => branchCode t
  let env := stepEnv l c ((s.lane l).gf.behav).val (rootNode l c g j s) s
  let given := branchInput c br s ++ (g.ins.zip ins).map fun x => (x.1.node, x.2)
  let b := runGraph env g given
  { inputs := ins, buf := { b with subs := b.subs + n },
    nodes := b.buf.reverse.foldl (fun m x => sparsePut 0 m x.1 x.2) (rootOwn l c g j s) }

/-- The output set of a branch: offset and value, in list order. -/
def branchOuts (l : Lane) (g : Graph) (nodes : List (Nat × Word)) (s : State) : List (Nat × Word) :=
  g.outs.map fun o => (o.offset, if ownNode g o.node then sparseGet 0 nodes o.node else nodeVal l o.node s)

/-- A horizon step is kept in the first slot that holds no valid checkpoint (R183). -/
def saveCheckpoint (l : Lane) (c : Fin 8) (h : Nat) (nodes : List (Nat × Word)) (s : State) : State :=
  match (idx 16).find? fun i => match (s.lane l).ra.slot[i] with
    | none => true
    | some k => !k.valid with
  | none => s
  | some i => modRa l (fun r => { r with slot := upd r.slot i (some ⟨true, c, h, nodes⟩) }) s

/-- The entries of taps with SPEC at the end of a speculative step, with the number of the root's committed step (R163,
R184). -/
def specTrace (l : Lane) (c : Fin 8) (g : Graph) (j : SpecJob) (nodes : List (Nat × Word)) (s : State) : State :=
  let step := ((s.lane l).eng.ctx[c]).commitNo
  foldS (idx 8) (fun t u =>
    let x := (u.lane l).eng.tap[tapIdx c t]
    if tapRecords x && x.spec then
      let k := x.node.toNat
      let v := if ownNode g k then sparseGet 0 nodes k else nodeVal l k s
      match jobTpl j with
      | none => traceWrite l c t v 2 0 (jobAhead j) step u
      | some b => traceWrite l c t v 3 (b.val + 1) (jobAhead j) step u
    else u) s

/-- NUM_SUBST of a step: counted, and raised once (R158). -/
def noteSubs (l : Lane) (c : Fin 8) (n : Nat) (s : State) : State :=
  if n = 0 then s
  else raise (.eng l) 2 (modCtx l c (fun x => { x with numSub := wd (satAdd 32 x.numSub.toNat n) }) s)

/-- The result of a completed job enters its set. -/
def keepJob (l : Lane) (c : Fin 8) (g : Graph) (j : SpecJob) (r : SpecResult) (s : State) : State :=
  let out : BranchOut := { outs := branchOuts l g r.nodes s, nodes := r.nodes }
  match j with
  | .horizon h =>
    saveCheckpoint l c h r.nodes (modRaCtx l c (fun x => { x with
      hDone := h, predicted := if h = 1 then r.inputs else x.predicted }) s)
  | .armed t => modRaCtx l c (fun x => { x with armed := upd x.armed t (some out) }) s
  | .next t => modRaCtx l c (fun x => { x with next := upd x.next t (some out) }) s

/-- The speculative step in flight has issued its last level and completes, where that delays no committed step (R169,
R170, R172, R184); of the GFMSTEP context only committed steps note substitutions (R158, R197). -/
def specStepDone (l : Lane) (c : Fin 8) (s : State) : State :=
  match graphOf c s, ((s.lane l).ra.ctx[c]).flight with
  | some g, some (j, n) =>
    let tail := engTicks l (16 + g.nOut + restoreCycles g) s
    if n < (cutLevels g.levels g.ops).length then s
    else if laneBusy l s || (match nextStart l s with | none => false | some m => decide (m < tail)) then
      modRaCtx l c (fun r => { r with suspended := true }) s
    else
      let s1 := advance tail s
      let r := specRun l c g j s1
      let s2 := modRaCtx l c (fun x => { x with flight := none, suspended := false }) s1
      let s3 := when (!g.ops.any fun o => o.opcode == 0x30) (noteSubs l c r.buf.subs) (keepJob l c g j r s2)
      specTrace l c g j r.nodes s3
  | _, _ => s

/-- A speculative step completes. -/
def execSpecStepDone (l : Lane) (ctx : Fin 8) (s : State) : Out := .next (specStepDone l ctx s)

/-! ### What empties the sets (R171, R181) -/

/-- Every checkpoint of a context is released (R171). -/
def releaseSlots (l : Lane) (c : Fin 8) (s : State) : State :=
  modRa l (fun r => { r with slot := r.slot.map fun x => x.map fun k =>
    if k.ctx = c then { k with valid := false } else k }) s

/-- The sets of a context are discarded. -/
def clearSets (l : Lane) (c : Fin 8) (s : State) : State :=
  releaseSlots l c (modRaCtx l c (fun r => { r with
    armed := Vector.replicate 3 none, next := Vector.replicate 3 none, hDone := 0, predicted := [] }) s)

/-- A change of coefficients or parameters empties the sets at the step where it takes effect, and they are rebuilt
(R181, R210). -/
def raInvalidate (l : Lane) (c : Fin 8) (s : State) : State :=
  if ((s.lane l).ra.ctx[c]).on then
    modRaCtx l c (fun r => { r with cause := 2, invalidated := true }) (clearSets l c (squash l c s))
  else s

/-- The run-ahead of a context starts (R181): a rebuild with CAUSE 0. -/
def raStart (l : Lane) (c : Fin 8) (s : State) : State :=
  if hasRec s 0x42 c.val && ctxUsed l c s && laneUp l s && !((s.lane l).ra.ctx[c]).on then
    modRaCtx l c (fun r => { r with on := true, cause := 0, taken := false, invalidated := false }) (clearSets l c s)
  else s

/-- The run-ahead of a context stops and discards every set (R181). -/
def raStop (l : Lane) (c : Fin 8) (s : State) : State :=
  if ((s.lane l).ra.ctx[c]).on then
    modRaCtx l c (fun r => { r with on := false }) (clearSets l c (squash l c s))
  else s

/-- The entry into a mode (R181): M5 to M10 run the run-ahead, every other mode stops it. -/
def raMode (s : State) : State :=
  let run := decide (5 ≤ s.md) && decide (s.md ≤ 10)
  foldS lanes (fun l t => foldS (idx 8) (fun c u => if run then raStart l c u else raStop l c u) t) s

end Sys2Proof.Machine
end

