-- ==== Sys2Proof/Machine/RunAhead.lean ====
section
/-! DEFINITION. The classifier, branch commits and what a committed step does to the sets (R16, R146, R171, R176 to R182,
R209). -/

namespace Sys2Proof.Machine

/-! ### Outputs (R146, R160, R209, R217) -/

/-- A loop output that names PSET, QSET, VSET or FSET (R209): it takes effect at the next committed step, a value outside
its range is refused (R208). -/
def loopParam (l : Lane) (i : Nat) (v : Word) (s : State) : State :=
  if gfRange i v then modGf l (fun g => { g with loopVal := put' g.loopVal i (some v) }) s else raise (.gf l) 0 s

/-- One output is written in its own lane. -/
def writeOutput (l : Lane) (off : Nat) (v : Word) (s : State) : State :=
  if off < 0x60000 then loopParam l ((off - 0x50010) / 4) v s
  else
    let g : Fin 16 := Fin.ofNat 16 ((off - 0x60100) / 0x40)
    match (off - 0x60100) % 0x40 with
    | 0 => stagePer l g v s
    | 4 => stageDuty l g v s
    | _ => stageDutyf l g v s

/-- The generators that an output list writes, each once, in the order of their numbers. -/
def outGens (outs : List (Nat × Word)) : List (Fin 16) :=
  (idx 16).filter fun g => outs.any fun o =>
    decide (0x60100 ≤ o.1) && decide ((o.1 - 0x60100) / 0x40 = g.val)

/-- Outputs in list order, then the tokens of the generators they wrote (R146). -/
def writeOutputs (l : Lane) (outs : List (Nat × Word)) (tok : Lane → Fin 16 → State → State) (s : State) : State :=
  foldS (outGens outs) (tok l) (foldS outs (fun o => writeOutput l o.1 o.2) s)

/-! ### The classifier (R176) -/

/-- The pins of a triad in a context. -/
def triadPins (c : Fin 8) (j : Nat) (s : State) : List (Fin 32) :=
  match graphOf c s, raTriad c j s with
  | some g, some (a, b, d, _) => [a, b, d].filterMap fun i => (g.ins[i]?).map fun e => Fin.ofNat 32 e.pin
  | _, _ => []

/-- A triad classifies. -/
def triadClassifies (c : Fin 8) (j : Nat) (s : State) : Bool :=
  match raTriad c j s with
  | none => false
  | some (_, _, _, flags) => flags / 2 % 2 == 1

/-- The pins that the classifier of a context watches. -/
def watchedPins (c : Fin 8) (s : State) : List (Fin 32) :=
  let tri := ((List.range 4).filter fun j => triadClassifies c j s).flatMap fun j => triadPins c j s
  (idx 32).filter fun p => tri.contains p ||
    (idx 3).any fun t => raTpl c t s && raMask c t s / 2 ^ p.val % 2 == 1

/-- Magnitude and angle of the αβ vector of three values, each formula rounded once (R176, R400). -/
def magAngle (a b c : Word) : Word × Word :=
  let va := F32.val a
  let vb := F32.val b
  let vc := F32.val c
  let al := F32.ofRat ((2 * va - vb - vc) / 3)
  let be := F32.ofRat (F32.addSqrt3 0 ((vb - vc) / 3))
  (F32.ofRat (F32.sqrtApprox 200 (F32.val al * F32.val al + F32.val be * F32.val be)), (F32.atan2 be al).w)

/-- The scaled last sample of a lane's own converter of a pin (R136, R176). -/
def ownScaled (l : Lane) (p : Fin 32) (s : State) : Word :=
  let w := winCfg (pinRec p s)
  scaleOut (codeF32 ((s.lane l).meas.pin[p]).own) w.scale w.offset

/-- The least-squares slope, in hertz, of values in turns at 100 ns, the newest first (R176). -/
def slopeHz (d : List Word) : Rat :=
  let n : Rat := (d.length : Nat)
  let ys := d.reverse.map F32.val
  let xm := (n - 1) / 2
  let pts := (List.range d.length).zip ys
  let num := pts.foldl (fun a p => a + ((p.1 : Rat) - xm) * p.2) 0
  let den := pts.foldl (fun a p => a + ((p.1 : Rat) - xm) * ((p.1 : Rat) - xm)) 0
  num / den * 10000000

/-- A value has the sign of SIZE and at least the magnitude THR. -/
def beyond (x size thr : Rat) : Bool :=
  if 0 < size then decide (thr ≤ x) else decide (thr ≤ -x)

/-- One sample of a triad (R176): the runs of consecutive qualifying samples per template. -/
def classifyTriad (l : Lane) (c : Fin 8) (j : Fin 4) (s : State) : State :=
  match triadPins c j.val s with
  | [pa, pb, pc] =>
    let r := (s.lane l).ra.ctx[c]
    let x := r.triad[j]
    let (m, th) := magAngle (ownScaled l pa s) (ownScaled l pb s) (ownScaled l pc s)
    let f := F32.val (nodeVal l (u16 (raRec c s) 4) s)
    let dt : Rat := mkRat ((s.now - r.refAt : Nat) * 25) (10 ^ 10)
    let d := F32.wrapTurns (F32.ofRat (F32.val th - F32.val x.theta - f * dt))
    let n := u16 (raRec c s) 76
    let dth := if raTpl c 2 s then (d :: x.dth).take n else []
    let thr := fun t => F32.val (raThr c t s)
    let size := fun t => F32.val (raSize c t s)
    let q0 := decide (F32.val m < (1 - thr 0) * F32.val x.mag)
    let q1 := beyond (F32.val d) (size 1) (thr 1)
    let q2 := decide (dth.length = n) && beyond (slopeHz dth) (size 2) (thr 2)
    let step := fun (q : Bool) (t : Fin 3) => if q && raTpl c t s then x.runs[t] + 1 else 0
    modRaCtx l c (fun r => { r with triad := upd r.triad j { x with
      dth := dth, runs := #v[step q0 0, step q1 1, step q2 2] } }) s
  | _ => s

/-- A template qualifies in a context on a source, at the last sample (R176). -/
def qualifiesOn (l : Lane) (c : Fin 8) (t : Fin 3) (src : BranchSource) (s : State) : Bool :=
  raTpl c t s && match src with
    | .triad j => triadClassifies c j.val s &&
        decide (u8 (raRec c s) 3 ≤ (((s.lane l).ra.ctx[c]).triad[j]).runs[t])
    | .window => (idx 32).any fun p =>
        raMask c t s / 2 ^ p.val % 2 == 1 && ((s.lane l).meas.pin[p]).winRaw != 0

/-- A template qualifies in a context on any source. -/
def qualifies (l : Lane) (c : Fin 8) (t : Fin 3) (s : State) : Bool :=
  ([BranchSource.triad 0, .triad 1, .triad 2, .triad 3, .window]).any fun x => qualifiesOn l c t x s

/-- A blocked template that has failed to qualify on CONFIRM consecutive samples is blocked no longer (R177). -/
def countUnqual (l : Lane) (c : Fin 8) (t : Fin 3) (s : State) : State :=
  let n := if qualifies l c t s then 0 else (((s.lane l).ra.ctx[c]).unqual[t]) + 1
  modRaCtx l c (fun r => { r with
    unqual := upd r.unqual t n,
    blocked := if u8 (raRec c s) 3 ≤ n then upd r.blocked t false else r.blocked }) s

/-- Pins have all delivered the sample of the grid instant that pin has just delivered. -/
def sampledWith (l : Lane) (pin : Fin 32) (ps : List (Fin 32)) (s : State) : Bool :=
  ps.contains pin && ps.all fun p => ((s.lane l).meas.pin[p]).nextAt == ((s.lane l).meas.pin[pin]).nextAt

/-- The classifier takes a sample (R176): each triad once its three samples of the instant are there, and the run of
instants without qualification once every watched converter of the lane has delivered (R177). -/
def classify (l : Lane) (pin : Fin 32) (s : State) : State :=
  foldS (idx 8) (fun c t =>
    if ((t.lane l).ra.ctx[c]).on then
      let t1 := foldS (idx 4) (fun j u =>
        if triadClassifies c j.val u && sampledWith l pin (triadPins c j.val u) u then classifyTriad l c j u else u) t
      when (sampledWith l pin ((watchedPins c t).filter fun p => converterOn l p t) t) (foldS (idx 3) (countUnqual l c)) t1
    else t) s

/-! ### Branch commits (R177 to R180, R182, R184) -/

/-- Commits are enabled in a lane (R179). -/
def commitEn (l : Lane) (s : State) : Bool :=
  decide (7 ≤ s.md) && decide (s.md ≤ 9) && !(s.lane l).ra.inhibit

/-- The ARMED branch of a template that may commit in a context. -/
def armedNow (l : Lane) (c : Fin 8) (t : Fin 3) (s : State) : Option BranchOut :=
  let r := (s.lane l).ra.ctx[c]
  if r.on && !r.blocked[t] then r.armed[t] else none

/-- A template qualifies in some context of a lane. -/
def qualifiesAny (l : Lane) (t : Fin 3) (s : State) : Bool :=
  (idx 8).any fun c => ((s.lane l).ra.ctx[c]).on && qualifies l c t s

/-- A context takes a commit of a template (R177): one between two committed steps, and none where it could take one of
higher precedence that qualifies on the same sample. -/
def takesCommit (l : Lane) (c : Fin 8) (t : Fin 3) (s : State) : Option BranchOut :=
  let r := (s.lane l).ra.ctx[c]
  if r.taken || (idx 3).any fun u => decide (u < t) && qualifiesAny l u s && (armedNow l c u s).isSome then none
  else armedNow l c t s

/-- The entries of a context's taps at a commit (R184). -/
def branchTrace (l : Lane) (c : Fin 8) (t : Fin 3) (b : BranchOut) (s : State) : State :=
  let step := ((s.lane l).eng.ctx[c]).commitNo
  foldS (idx 8) (fun k u =>
    let x := (u.lane l).eng.tap[tapIdx c k]
    if tapRecords x then
      let v := match graphOf c u with
        | none => nodeVal l x.node.toNat u
        | some g => if ownNode g x.node.toNat then sparseGet 0 b.nodes x.node.toNat else nodeVal l x.node.toNat u
      traceWrite l c k v 1 (t.val + 1) 0 step u
    else u) s

/-- A commit is reported to the other lane, where it matches one of the same template and context not older than 1 µs
(R180). -/
def reportCommit (l : Lane) (c : Fin 8) (t : Fin 3) (s : State) : State :=
  let same := fun (x : Fin 8 × Fin 3 × Nat) => x.1 == c && x.2.1 == t && decide (s.now ≤ x.2.2 + us 1)
  if tsuUp s && ((s.lane (otherLane l)).ra.unmatched.any same) then
    modRa (otherLane l) (fun r => { r with unmatched := r.unmatched.eraseP same }) s
  else modRa l (fun r => { r with unmatched := r.unmatched ++ [(c, t, s.now)] }) s

/-- A context commits a branch (R178, R182); the outputs that a committed step writes at the same instant stand. -/
def commitBranch (l : Lane) (c : Fin 8) (t : Fin 3) (b : BranchOut) (s : State) : State :=
  let s1 := when (((s.lane l).eng.ctx[c]).wroteAt != some s.now) (writeOutputs l b.outs branchToken) s
  let s2 := modRaCtx l c (fun r => { r with taken := true, commits := satInc r.commits }) s1
  let s3 := raiseIf (decide (((s.lane l).ra.ctx[c]).hDone < raHorizon c s)) (.ra l) 5 s2
  reportCommit l c t (branchTrace l c t b s3)

/-- The mark of a qualifying template (R178, R179, R342). -/
def branchMark (l : Lane) (t : Fin 3) (tag : Nat) (ctxs : Nat) (s : State) : State :=
  recMark l s.raw 0 3 tag 0 (t.val + 1 + 256 * ctxs) s

/-- The instant of a lane's last sample. -/
def lastSample (l : Lane) (s : State) : Nat :=
  (s.lane l).meas.pin.toList.foldl (fun a p => max a p.lastConv) 0

/-- The source code of RA_LASTCOM. -/
def sourceCode : BranchSource → Nat
  | .triad j => j.val
  | .window => 4

/-- A template qualifies in a lane on a source (R177 to R180). -/
def branchCommit (l : Lane) (t : Fin 3) (src : BranchSource) (latency : Nat) (s : State) : State :=
  let on := (idx 8).filter fun c => ((s.lane l).ra.ctx[c]).on && qualifiesOn l c t src s
  if on.isEmpty then s
  else
    let s1 := elapseTo (lastSample l s + latency) s
    let lacking := on.filter fun c =>
      !(((s1.lane l).ra.ctx[c]).blocked[t]) && (((s1.lane l).ra.ctx[c]).armed[t]).isNone
    let takers := (idx 8).filter fun c => (takesCommit l c t s1).isSome
    let mask := (takers.map fun c => 2 ^ c.val).foldl (· + ·) 0
    let s2 := when (decide (7 ≤ s1.md) && decide (s1.md ≤ 9)) (foldS lacking fun c u => raise (.ra l) 1
      (modRaCtx l c (fun r => { r with noBranch := satInc r.noBranch }) u)) s1
    if !commitEn l s1 then branchMark l t 1 mask s2
    else
      if takers.isEmpty then branchMark l t 1 0 s2
      else
        let s3 := foldS takers (fun c u => match takesCommit l c t u with
          | none => u
          | some b => commitBranch l c t b u) s2
        let s4 := raise (.ra l) 0 (modRa l (fun r => { r with
          lastBranch := BitVec.ofNat 2 (t.val + 1), lastSource := BitVec.ofNat 4 (sourceCode src),
          lastCtxs := BitVec.ofNat 8 mask, lastLatency := BitVec.ofNat 16 (min latency 0xFFFF) }) s3)
        trigger .rideThrough (noteTrig l 112 s4.raw (branchMark l t 0 mask s4))

/-- A template qualifies. -/
def execBranchCommit (l : Lane) (tpl : Fin 3) (src : BranchSource) (latency : Nat) (s : State) : Out :=
  .next (branchCommit l tpl src latency s)

/-- A commit of a lane stays unmatched for 1 µs (R180). -/
def laneDiff (l : Lane) (c : Fin 8) (t : Fin 3) (s : State) : State :=
  let same := fun (x : Fin 8 × Fin 3 × Nat) => x.1 == c && x.2.1 == t
  match (s.lane l).ra.unmatched.find? same with
  | none => s
  | some x => raise (.ra l) 4 (modRa l (fun r => { r with
      unmatched := r.unmatched.eraseP same, laneDiff := satInc r.laneDiff }) (elapseTo (x.2.2 + us 1) s))

/-- LANE_DIFF is raised. -/
def execLaneDiff (l : Lane) (ctx : Fin 8) (tpl : Fin 3) (s : State) : Out := .next (laneDiff l ctx tpl s)

/-- RA_CTL in one lane (R179). -/
def setInhibit (l : Lane) (v : Word) (s : State) : State := modRa l (fun r => { r with inhibit := bit v 0 }) s

/-- RA_CTL is written; the write takes effect in both lanes (R179). -/
def raCtlWrite (l : Lane) (v : Word) (s : State) : State := mirror l (.raCtl v) (setInhibit l v s)

/-- RA_CTL is written. -/
def execRaCtlWrite (l : Lane) (v : Word) (s : State) : Out := .next (raCtlWrite l v s)

/-! ### The commit of a committed step (R171, R177, R182) -/

/-- The prediction of horizon step 1 holds (R171). -/
def predHolds (l : Lane) (c : Fin 8) (inputs : List Word) (s : State) : Bool :=
  let r := (s.lane l).ra.ctx[c]
  let tol := F32.val (w32 (raRec c s) 8)
  let close := fun (i : Nat) =>
    let d := F32.val (inputs.getD i 0) - F32.val (r.predicted.getD i 0)
    decide (d ≤ tol) && decide (-d ≤ tol)
  decide (1 ≤ r.hDone) &&
    (idx 3).all (fun t => !(raNextEn c s && raTpl c t s) || (r.next[t]).isSome) &&
    (List.range 4).all fun j => match raTriad c j s with
      | none => true
      | some (a, b, d, flags) => flags % 2 == 0 || (close a && close b && close d)

/-- The reference vectors of the classifier from the agreed inputs of a committed step (R176). -/
def refTriads (c : Fin 8) (inputs : List Word) (s : State) (x : Vector TriadState 4) : Vector TriadState 4 :=
  (idx 4).foldl (fun v j => match raTriad c j.val s with
    | none => v
    | some (a, b, d, _) =>
      let (m, th) := magAngle (inputs.getD a 0) (inputs.getD b 0) (inputs.getD d 0)
      modAt v j fun y => { y with mag := m, theta := th }) x

/-- What a committed step's commit does to the run-ahead of its context (R171, R177, R182). -/
def raCommit (l : Lane) (c : Fin 8) (inputs : List Word) (s : State) : State :=
  if !hasRec s 0x42 c.val then s
  else
    let r := (s.lane l).ra.ctx[c]
    let at0 := ((s.lane l).eng.ctx[c]).trigAt
    let note := fun (r : RaCtx) => { r with inputs := inputs, refAt := at0, triad := refTriads c inputs s r.triad }
    if !r.on then modRaCtx l c note s
    else
      let ok := predHolds l c inputs s
      let qual := fun t => raTpl c t s && qualifies l c t s
      let s1 := raiseIf (decide (r.hDone < raHorizon c s)) (.ra l) 5 s
      let s2 := releaseSlots l c (squash l c s1)
      let s3 := modRaCtx l c (fun r => note { r with
        armed := if ok then r.next else Vector.replicate 3 none,
        next := Vector.replicate 3 none, hDone := 0, predicted := [], predOk := ok,
        cause := if ok then r.cause else if r.invalidated then 2 else 1, invalidated := false, misses := if ok then r.misses else satInc r.misses,
        taken := false,
        unqual := #v[if qual 0 then 0 else r.unqual[0], if qual 1 then 0 else r.unqual[1],
          if qual 2 then 0 else r.unqual[2]],
        blocked := #v[r.blocked[0] || qual 0, r.blocked[1] || qual 1, r.blocked[2] || qual 2] }) s2
      raiseIf (!ok) (.ra l) 2 s3

end Sys2Proof.Machine
end

