-- ==== Sys2Proof/Machine/GridForm.lean ====
section
/-! DEFINITION. The grid-forming function around GFMSTEP (R198 to R213): behaviours, parameters, what each committed step
reports, and the checks of the mode controller. -/

namespace Sys2Proof.Machine

/-! ### Behaviour and record (R198) -/

/-- The grid-forming record. -/
def gfRec (s : State) : List Byte := recD s 0x60 0

/-- The context that holds GFMSTEP. -/
def gfCtx (s : State) : Option (Fin 8) := if hasRec s 0x60 0 then some (Fin.ofNat 8 (u8 (gfRec s) 16)) else none

/-- The behaviour of a mode other than M10 (R198). -/
def behavOf (m : Nat) : Fin 7 :=
  match m with
  | 4 => 1
  | 5 => 2
  | 6 => 3
  | 7 => 4
  | 8 => 5
  | 9 => 6
  | _ => 0

/-- The behaviour of the block: M10 keeps that of the mode it was entered from (R198). -/
def behaviour (s : State) : Fin 7 := if s.md = 10 then behavOf s.mode.degrFrom.toNat else behavOf s.md

/-- Lanes whose grid-forming block runs. -/
def gfLanes (s : State) : List Lane :=
  match gfCtx s with
  | none => []
  | some c => lanes.filter fun l => laneUp l s && ctxUsed l c s

/-- The lane whose block signals the mode controller. -/
def gfSenior (l : Lane) (s : State) : Bool := decide (l = seniorLane s) || !(gfLanes s).contains (seniorLane s)

/-- A binary32 time in seconds as ticks, rounded up. -/
def ticksOf (w : Word) : Nat := (F32.val w * 400000000).ceil.toNat

/-- A source of TRIP_MASK is marked as a trip (R211). -/
def tripMask (k : Nat) (s : State) : Bool := u8 (gfRec s) 19 / 2 ^ k % 2 == 1

/-! ### Parameters (R208 to R210) -/

/-- A parameter staged in one lane. -/
def stageParam (l : Lane) (i : Fin 17) (v : Word) (s : State) : State :=
  modGf l (fun g => { g with staged := upd g.staged i (some v) }) s

/-- A write of a parameter (R208): staged in both lanes, or refused outside its range. -/
def gfParamWrite (l : Lane) (i : Fin 17) (v : Word) (s : State) : State :=
  if gfRange i.val v then mirror l (.gfParam i v) (stageParam l i v s) else raise (.gf l) 0 s

/-- A parameter is written. -/
def execGfParamWrite (l : Lane) (i : Fin 17) (v : Word) (s : State) : Out := .next (gfParamWrite l i v s)

/-- The values that a lane has staged. -/
def stagedVals (g : GfState) : List (Fin 17 × Word) := (idx 17).filterMap fun i => (g.staged[i]).map fun v => (i, v)

/-- GF_COMMIT.TOKEN (R208): the values staged so far take effect in both lanes at the start of the same committed step. -/
def gfCommitToken (l : Lane) (s : State) : State :=
  match gfCtx s with
  | none => s
  | some c =>
    let vals := stagedVals (s.lane l).gf
    mirror l (.gfCommit vals) (modGf l (fun g => { g with
      tokens := g.tokens ++ [(pendTag c s, l, vals)], staged := Vector.replicate 17 none }) s)

/-- GF_COMMIT is written. -/
def execGfCommit (l : Lane) (s : State) : Out := .next (gfCommitToken l s)

/-- The oldest token without a tag is given one. -/
def tagToken (n : Nat) : List (Option Nat × Lane × List (Fin 17 × Word)) → List (Option Nat × Lane × List (Fin 17 × Word))
  | [] => []
  | (none, x) :: r => (some n, x) :: r
  | e :: r => e :: tagToken n r

/-- A mirrored token arrives in lane l with the values it commits: both lanes tag it with a step (R208, R257). -/
def gfCommitArrival (l : Lane) (vals : List (Fin 17 × Word)) (s : State) : State :=
  match gfCtx s with
  | none => s
  | some c =>
    let n := nextTarget c s
    modGf (otherLane l) (fun g => { g with tokens := tagToken n g.tokens })
      (modGf l (fun g => { g with
        tokens := g.tokens ++ [(some n, otherLane l, vals)],
        staged := Vector.ofFn fun i => if vals.any fun v => v.1 = i ∧ g.staged[i] = some v.2 then none else g.staged[i] }) s)

/-- A token acts at the start of step n (R208). -/
def tokenReady (n : Nat) (s : State) (t : Option Nat × Lane × List (Fin 17 × Word)) : Bool :=
  match t.1 with
  | some k => decide (k ≤ n)
  | none => !tsuUp s

/-- The host values that the tokens of step n commit in a lane, in the same order in both: those received by lane A
first. -/
def committedVals (l : Lane) (n : Nat) (s : State) : List (Fin 17 × Word) :=
  let due := ((s.lane l).gf.tokens).filter (tokenReady n s)
  ((due.filter fun t => t.2.1 == .a) ++ due.filter fun t => t.2.1 == .b).flatMap fun t => t.2.2

/-- The value that the last of a list of commits gives a parameter. -/
def hostVal (vals : List (Fin 17 × Word)) (i : Fin 17) : Option Word :=
  (vals.reverse.find? fun v => v.1 == i).map (·.2)

/-- The value that a parameter takes at the start of a step: a loop output's, a committed host value, or the old one. -/
def newParam (vals : List (Fin 17 × Word)) (g : GfState) (i : Fin 17) : Word :=
  (at' g.loopVal i.val none).getD ((hostVal vals i).getD g.par[i])

/-- The parameters at the start of step n of the GFMSTEP context in one lane (R208 to R210). -/
def gfStepStart (l : Lane) (c : Fin 8) (n : Nat) (s : State) : State :=
  let g := (s.lane l).gf
  let vals := committedVals l n s
  let both := (idx 17).any fun i => (hostVal vals i).isSome && (at' g.loopVal i.val none).isSome
  let changed := (idx 17).any fun i =>
    (at' g.loopVal i.val none).isNone && decide ((hostVal vals i).getD g.par[i] ≠ g.par[i])
  let s1 := modGf l (fun g => { g with
    par := Vector.ofFn fun i => newParam vals g i, loopVal := Vector.replicate 4 none,
    tokens := g.tokens.filter fun t => !tokenReady n s t }) s
  when changed (raInvalidate l c) (raiseIf both (.gf l) 0 s1)

/-! ### Limits and criteria -/

/-- The synchronise criteria (R202); constants as the nearest binary32 values (log entry 30). -/
def syncCriteria (g : GfState) : Bool :=
  F32.le (F32.abs g.sph) (fConst 1 180) && F32.le (F32.abs g.sfr) (fConst 5 100) && F32.le (F32.abs g.smg) (fConst 2 100)

/-- A profile's limit at t seconds since the entry: linear between points, constant after the last (R205). -/
def profileAt : List (Rat × Rat) → Rat → Rat
  | [], _ => 0
  | [(_, v)], _ => v
  | (t0, v0) :: (t1, v1) :: r, t =>
    if t < t1 then v0 + (v1 - v0) * (t - t0) / (t1 - t0) else profileAt ((t1, v1) :: r) t

/-- The points of a profile of the record. -/
def profile (p : List Byte) (off n : Nat) : List (Rat × Rat) :=
  (List.range n).map fun k => (F32.val (w32 p (off + 8 * k)), F32.val (w32 p (off + 8 * k + 4)))

/-- |G+| lies outside the profile, a time since the M9 entry (R205). -/
def profileExceeded (p : List Byte) (elapsed : Nat) (vgp : Word) : Bool :=
  let t : Rat := mkRat (elapsed * 25) (10 ^ 10)
  decide (F32.val vgp < profileAt (profile p 152 (u8 p 148)) t) ||
    decide (profileAt (profile p 216 (u8 p 149)) t < F32.val vgp)

/-- Since when a condition has held. -/
def sinceIf (c : Bool) (now : Nat) (x : Option Nat) : Option Nat := if c then some (x.getD now) else none

/-- The timers of the criteria in behaviour 3 (R202). -/
def syncTimers (beh : Fin 7) (now : Nat) (g : GfState) : GfState :=
  let ok := beh == 3 && syncCriteria g
  { g with syncSince := sinceIf ok now g.syncSince, syncOk := g.syncOk && ok }

/-! ### One committed step (R195, R200 to R202, R205 to R207, R212) -/

/-- The registers and timers of the block after a committed step. -/
def gfRegisters (beh : Fin 7) (now : Nat) (band : Word × Word) (r : GfResult) (g : GfState) : GfState :=
  let above := F32.le (fConst 8 10) r.vgp
  let below := F32.lt r.vgp (fConst 1 10)
  syncTimers beh now { g with
    behav := beh, p := r.pf, q := r.qf, freq := r.fhz, e := r.e, vgp := r.vgp, vgn := r.vgn, vdc := r.vdc, chd := r.chd,
    sph := r.sph, smg := r.smg, iLim := F32.lt r.thr r.imag,
    above := sinceIf above now g.above, below := sinceIf below now g.below,
    present := g.present && above, absent := g.absent && below,
    recSince := sinceIf (beh == 6 && F32.le band.1 r.vgp && F32.le r.vgp band.2) now g.recSince }

/-- GF_STAT (R213). -/
def gfStat (l : Lane) (s : State) : Word :=
  let g := (s.lane l).gf
  pack [(16, g.behav.val), (7, b2n (decide (0 < F32.val g.chd))), (6, b2n g.rtAt.isSome), (5, b2n g.syncOk),
    (4, b2n (s.md == 6 && g.syncOk)), (3, b2n g.bkrClosed), (2, b2n g.present), (1, b2n g.absent), (0, b2n g.iLim)]

/-- GF_RTTIME (R213): microseconds since the entry into M9. -/
def rtTime (l : Lane) (s : State) : Word :=
  match (s.lane l).gf.rtAt with
  | none => 0
  | some t => if s.md = 9 then wd (min 4294967295 ((s.now - t) / 400)) else 0

/-- A committed step updates the registers of kind RO (R212). -/
def showGf (l : Lane) (s : State) : State := modGf l (fun g => { g with stat := gfStat l s, rtUs := rtTime l s }) s

/-- What a committed step of the GFMSTEP context does beside its nodes and outputs (R197). A ramp that completed in M10 asks
for M8 at the first committed step after the return to M5 (R70, R201; log entry 29). -/
def gfCommitted (l : Lane) (r : GfResult) (s : State) : State :=
  let p := gfRec s
  let beh := behaviour s
  let was := (s.lane l).gf
  let s1 := modGf l (gfRegisters beh s.now (recBand p) r) s
  let s2 := raiseIf (F32.lt r.thr r.imag && !was.iLim) (.gf l) 1
    (when (was.syncOk && !((s1.lane l).gf.syncOk)) refreshFn s1)
  let sig := fun (t : Trigger) (x : State) => when (gfSenior l x) (trigger t) x
  let done := beh == 2 && !was.bsDone && F32.val r.e == F32.val r.etgt
  let s3 := when done (fun x => raise (.gf l) 2 (modGf l (fun g => { g with bsDone := true, bsWait := true }) x)) s2
  let s4 := when (((s3.lane l).gf.bsWait) && decide (s3.md = 5)) (fun x =>
    sig (.auto 5 8 2) (modGf l (fun g => { g with bsWait := false }) x)) s3
  let entry := (s.md == 7 || s.md == 8) && !was.rtIn &&
    (F32.lt r.vgp (w32 p 116) || F32.lt (w32 p 120) r.vgp)
  let s5 := when entry (fun x =>
    sig .rideThrough (raise (.gf l) 8 (modGf l (fun g => { g with rtIn := true }) x))) s4
  let out := match was.rtAt with
    | none => false
    | some t => beh == 6 && !was.rtOut && profileExceeded p (s.now - t) r.vgp
  showGf l (when out (fun x => sig (.stop 10 5) (raise (.gf l) 9 (modGf l (fun g => { g with rtOut := true }) x))) s5)

/-! ### Timed rows (R200 to R206) -/

/-- The grid has been present, or absent, for 20 ms (R200). -/
def gridStateTimer (present : Bool) (s : State) : State :=
  foldS (gfLanes s) (fun l t =>
    let g := (t.lane l).gf
    match if present then g.above else g.below with
    | none => t
    | some t0 => modGf l (fun g => if present then { g with present := true } else { g with absent := true })
        (elapseTo (t0 + ms 20) t)) s

/-- The grid state changes. -/
def execGridStateTimer (present : Bool) (s : State) : Out := .next (gridStateTimer present s)

/-- The criteria have held for SYNC_HOLD (R202): SYNC_OK, and the close permission. -/
def syncReached (s : State) : State :=
  refreshFn (foldS (gfLanes s) (fun l t =>
    let g := (t.lane l).gf
    match g.syncSince with
    | none => t
    | some t0 =>
      if g.syncOk then t
      else raise (.gf l) 4 ((fun u => modGf l (fun g => { g with syncOk := true, syncSet := g.syncSet.or (some u.now) }) u)
        (elapseTo (t0 + ticksOf (w32 (gfRec t) 100)) t))) s)

/-- SYNC_OK sets. -/
def execSyncReached (s : State) : Out := .next (syncReached s)

/-- SYNC_OK has not set within SYNC_TIME of entering M6 (R202). -/
def syncTo (s : State) : State :=
  foldS (gfLanes s) (fun l t =>
    let g := (t.lane l).gf
    let due := g.syncAt + ticksOf (w32 (gfRec t) 104)
    if behaviour t = 3 && !(g.syncSet.any fun n => decide (n ≤ due)) && !g.syncToSeen then
      let t1 := raise (.gf l) 5 (modGf l (fun g => { g with syncToSeen := true }) (elapseTo due t))
      when (tripMask 3 t && gfSenior l t) protectionTrip t1
    else t) s

/-- Synchronising takes too long. -/
def execSyncTo (s : State) : Out := .next (syncTo s)

/-- The ramp is not complete within 2 × RAMPT of entering M5 (R201). -/
def bsFail (s : State) : State :=
  foldS (gfLanes s) (fun l t =>
    let g := (t.lane l).gf
    if behaviour t = 2 && !g.bsDone then
      let t1 := raise (.gf l) 3 (modGf l (fun g => { g with bsDone := true })
        (elapseTo (g.bsAt + 2 * ticksOf g.par[16]) t))
      when (gfSenior l t) protectionTrip t1
    else t) s

/-- The black start fails. -/
def execBsFail (s : State) : Out := .next (bsFail s)

/-- Grid loss in M7 (R204): by frequency after ISL_T, or by the breaker reading open. -/
def gridLoss (freq : Bool) (s : State) : State :=
  if s.md ≠ 7 then s
  else
    foldS (gfLanes s) (fun l t =>
      let g := (t.lane l).gf
      let at0 := if freq then g.islSince.map fun t0 => t0 + ticksOf (w32 (gfRec t) 112)
        else if g.bkrClosed then none else some t.now
      match at0 with
      | none => t
      | some t0 =>
        let t1 := raise (.gf l) 7 (elapseTo t0 t)
        when (gfSenior l t) (trigger (.auto 7 8 2)) t1) s

/-- Grid loss is declared. -/
def execGridLoss (freq : Bool) (s : State) : Out := .next (gridLoss freq s)

/-- |G+| has stayed within the recovery band for RT_REC_T (R206): M9 returns to the mode it came from. -/
def rtRecover (s : State) : State :=
  if s.md ≠ 9 then s
  else
    foldS (gfLanes s) (fun l t =>
      match ((t.lane l).gf).recSince with
      | none => t
      | some t0 =>
        let t1 := raise (.gf l) 10 (modGf l (fun g => { g with recSince := none })
          (elapseTo (t0 + ticksOf (w32 (gfRec t) 124)) t))
        when (gfSenior l t) (trigger (.auto 9 s.mode.rideFrom 2)) t1) s

/-- M9 recovers. -/
def execRtRecover (s : State) : Out := .next (rtRecover s)

/-! ### The 1 ms tick of the mode controller (R199, R202 to R204, R207) -/

/-- The kind of the mode controller's tick. -/
def tkMode : Nat := 19

/-- SFR from SPH now and 10 ms before (R202), rounded once; before ten ticks it keeps its value. -/
def nextSfr (g : GfState) : Word :=
  match g.sphHist[9]? with
  | none => g.sfr
  | some old => F32.ofRat ((F32.val g.sph - F32.val old) * 100)

/-- The chopper model one tick on (R207), rounded once. -/
def nextChw (p : List Byte) (g : GfState) : Word :=
  let v := F32.val g.vdc * F32.val (w32 p 12)
  F32.ofRat (F32.val g.chw * F32.expNeg (1 / 1000 / F32.val (w32 p 140)) +
    F32.val g.chd * (v * v) / F32.val (w32 p 136) / 1000)

/-- The frequency error exceeds ISL_DF (R204). -/
def islanding (p : List Byte) (g : GfState) : Bool :=
  let d := F32.val g.freq - F32.val (w32 p 8) - F32.val g.par[3]
  decide (F32.val (w32 p 108) < d) || decide (F32.val (w32 p 108) < -d)

/-- The quantities of one lane at the tick. -/
def tickGf (beh : Fin 7) (now : Nat) (closed : Bool) (p : List Byte) (g : GfState) : GfState :=
  syncTimers beh now { g with
    sfr := nextSfr g, sphHist := (g.sph :: g.sphHist).take 10, chw := nextChw p g, bkrClosed := closed,
    dcReady := F32.le (w32 p 28) g.vdc, islSince := sinceIf (beh == 4 && islanding p g) now g.islSince }

/-- The breaker feedback has closed (R203): accepted in M6 with SYNC_OK, and in M5 or M8 with the grid absent; else, with
the grid not absent, CLOSE_UNSYNC. -/
def closeUnsync (s : State) (g : GfState) : Bool :=
  !(s.md == 6 && g.syncOk) && !g.absent

/-- One lane at the tick. -/
def modeTickLane (closed : Bool) (l : Lane) (s : State) : State :=
  let was := (s.lane l).gf
  let s1 := modGf l (tickGf (behaviour s) s.now closed (gfRec s)) s
  let g := (s1.lane l).gf
  let unsync := closed && !was.bkrClosed && closeUnsync s g
  let s2 := when unsync (fun t => when (gfSenior l t) protectionTrip (raise (.gf l) 6 t)) s1
  let close := s.md == 6 && closed && g.syncOk && !unsync
  let s3 := when (close && gfSenior l s && !s.mode.busy) (trigger (.auto 6 7 2)) s2
  let hot := F32.lt (w32 (gfRec s) 144) g.chw
  let s4 := modGf l (fun g => { g with chopSeen := hot }) s3
  when (hot && !was.chopSeen) (fun t =>
    when (tripMask 2 t && gfSenior l t) protectionTrip (raise (.gf l) 11 t)) s4

/-- The tick of the mode controller. -/
def modeCtrlTick (s : State) : State :=
  if s.md < 3 then s
  else
    let s1 := periodic tkMode (ms 1) s
    let bk := u8 (gfRec s1) 17
    refreshFn (foldS (gfLanes s1) (modeTickLane (hasRec s1 0x60 0 && diByNum bk s1)) s1)

/-- The 1 ms tick. -/
def execModeCtrlTick (s : State) : Out := .next (modeCtrlTick s)

/-! ### The entry into a mode (R198, R201, R202, R205) -/

/-- The timers of the block when the mode has changed from `old`; M10 lets them run on, and so does the return from it. An
entry into the profile that has not led to M9 is looked for anew after M10 (R205). -/
def gfModeEntry (old : Nat) (s : State) : State :=
  let m := s.md
  if m = 10 || (old = 10 && m = s.mode.degrFrom.toNat) then
    foldS lanes (fun l => modGf l fun g => { g with rtIn := g.rtIn && behaviour s == 6 }) s
  else
    foldS lanes (fun l t => modGf l (fun g => { g with
      bsAt := if m = 5 then t.now else g.bsAt, bsDone := if m = 5 then false else g.bsDone, bsWait := false,
      syncAt := if m = 6 then t.now else g.syncAt, syncSet := if m = 6 then none else g.syncSet, syncToSeen := if m = 6 then false else g.syncToSeen,
      syncSince := none, syncOk := false, islSince := none,
      rtAt := if m = 9 then some t.now else none, recSince := none, rtOut := false,
      rtIn := m = 9 && g.rtIn }) t) s

end Sys2Proof.Machine
end

