-- ==== Sys2Proof/Machine/Recorder.lean ====
section
/-! DEFINITION. The disturbance recorder of each lane (R335 to R349): raw and decimated frames, triggers, records and
segments. -/

namespace Sys2Proof.Machine

/-! ### The recorder record (TYPE 0x0090) -/

/-- NSEG. -/
def recNseg (s : State) : Nat := max 1 (u8 (recRec s) 4)

/-- RAW_MASK. -/
def recMask (s : State) : Nat := u32 (recRec s) 0

/-- Pins recorded. -/
def recPins (s : State) : List (Fin 32) := (idx 32).filter fun p => recMask s / 2 ^ p.val % 2 == 1

/-- FRAME_BYTES of a raw frame (R336). -/
def recFrameBytes (s : State) : Nat := rawFrameBytes s.key.records (recMask s)

/-- C of R336. -/
def recCap (s : State) : Nat := max 1 (rawCapacity (recNseg s) (max 1 (recFrameBytes s)))

/-- The decimated record exists. -/
def recDec (s : State) : Bool := u8 (recRec s) 7 != 0xFF

/-- N_DEC. -/
def recNdec (s : State) : Nat := u8 (recRec s) 18

/-- Decimated frames per segment. -/
def recDecCap (s : State) : Nat := max 1 (decCapacity (recNseg s) (u16 (recRec s) 20) (recNdec s))

/-- The base of decimated segment k (R337). -/
def decSegBase (s : State) (k : Nat) : Nat :=
  let size := u16 (recRec s) 20 * 65536
  0x01800000 - size + size / recNseg s * k

/-- TIME_MODE 1. -/
def recOldTime (s : State) : Bool := u8 (recRec s) 5 == 1

/-- The running record changed. -/
def modRun (l : Lane) (f : RecRun → RecRun) (s : State) : State := modRec l (fun r => { r with run := f r.run }) s

/-! ### Segments (R345, R346) -/

/-- A segment starts recording at a time; the dead time before it is measured (R345). -/
def startSegment (l : Lane) (k : Fin 8) (at0 : Nat) (s : State) : State :=
  modRec l (fun r =>
    let dead := (at0 - r.deadFrom) * 5 / 2
    { r with
      seg := upd r.seg k 1, cur := some k, lastDead := wd (min 0xFFFFFFFF dead),
      run := { startAt := at0, deadNs := dead, missed := r.nextMissed, missTicks := r.nextMissTicks },
      nextMissed := 0, nextMissTicks := 0 }) s

/-- The lowest-numbered free segment. -/
def freeSegment (l : Lane) (s : State) : Option (Fin 8) :=
  (idx 8).find? fun k => decide (k.val < recNseg s) && ((s.lane l).rcd.seg[k]) == 0

/-- The recorder arms at the entry into M3 that ends a start (R335). The sampling offsets that step 14 measured are free
values (R341; log entry 4). -/
def recArm (l : Lane) (s : State) : State :=
  if !hasRec s 0x90 0 || !laneUp l s then s
  else
    let skew : Vector Half 32 := Vector.ofFn fun p => BitVec.ofNat 16 (u16 (recRec s) (216 + 2 * p.val))
    let old := (s.lane l).rcd
    let (n, s0) := takeFree s
    let meas : Vector Half 32 := Vector.ofFn fun p => BitVec.ofNat 16 (n / 2 ^ (16 * p.val))
    let s1 := modRec l (fun _ => { running := true, skew := skew, meas := meas, sel := old.sel, deadFrom := s.now }) s0
    modRec l (fun r => { r with lastDead := 0 }) (startSegment l 0 s.now s1)

/-- A part of the post-trigger frames is filled: `n` frames written, the trigger frame's number, frames after it. -/
def partFull (n : Nat) (trig : Option Nat) (post : Nat) : Bool :=
  match trig with
  | none => false
  | some t => decide (t + post < n)

/-- The pins whose codes reach the raw frames of a lane: those with a converter, and interleaved ones with the other lane's
(R336, R366). -/
def recHeard (l : Lane) (s : State) : List (Fin 32) :=
  (recPins s).filter fun p => converterOn l p s || (pinIlv p s && converterOn (otherLane l) p s)

/-- Both parts of the running record are filled (R343). -/
def recFull (l : Lane) (s : State) (r : RecRun) : Bool :=
  ((recHeard l s).isEmpty || partFull r.raw r.rawTrig r.postRaw) && (!recDec s || partFull r.dec r.decTrig r.postDec)

/-- The record is noted as complete when both parts are filled. -/
def noteFull (l : Lane) (s : State) : State :=
  modRun l (fun r => if r.doneAt.isNone && recFull l s r then { r with doneAt := some s.now } else r) s

/-- A recorder that writes frames now, and its segment. -/
def recActive (l : Lane) (s : State) : Option (Fin 8) :=
  let r := (s.lane l).rcd
  if r.running && decide (r.run.startAt ≤ s.now) && decide (3 ≤ s.md) then r.cur else none

/-- A frame at a raw tick lies at or after a trigger (R343). -/
def afterTrigger (t : RecTrigger) (raw : Long) : Bool :=
  decide (t.ticks.toNat < raw.toNat) || (decide (t.ticks = raw) && t.frac == 0)

/-- An extension limited to min(4 × POST, C − 1) frames after the trigger frame (R344). -/
def extendPost (n trig post cap : Nat) : Nat := min (n - trig + post) (min (4 * post) (cap - 1))

/-! ### Frames (R336, R337, R343, R344) -/

/-- The trigger frame is found, and an extension takes effect, at raw frame number n of the instant `raw`. -/
def noteRaw (s : State) (raw : Long) (r : RecRun) : RecRun :=
  let r1 := match r.trig, r.rawTrig with
    | some t, none => if afterTrigger t raw then { r with rawTrig := some r.raw } else r
    | _, _ => r
  match r1.extRaw, r1.rawTrig with
  | some t, some n =>
    if decide (t.toNat ≤ raw.toNat) then
      { r1 with extRaw := none, postRaw := max r1.postRaw (extendPost r1.raw n (u32 (recRec s) 8) (recCap s)) }
    else r1
  | _, _ => r1

/-- A raw frame of a sample instant is written (R336). -/
def writeRaw (l : Lane) (inst : Nat) (bs : List Byte) (s : State) : State :=
  match recActive l s with
  | none => s
  | some k =>
    let r := (s.lane l).rcd.run
    if partFull r.raw r.rawTrig r.postRaw then s
    else
      let fb := recFrameBytes s
      let off := rawSegBase (recNseg s) k.val + 4096 + fb * (r.raw % recCap s)
      let s1 := laneWrite l off (slice bs 0 fb) s
      noteFull l (modRun l (fun r => { noteRaw s (s.raw - BitVec.ofNat 64 (s.now - inst)) r with raw := r.raw + 1 }) s1)

/-- The bytes of one pin in a raw frame; a pin whose converter is absent stands with the code that MEAS_RAW holds (R336, R366;
log entry 75). -/
def rawCodes (l : Lane) (fr : List (Nat × List Byte)) (s : State) (p : Fin 32) : List Byte :=
  let own := leBytes 2 ((s.lane l).meas.pin[p]).own.toNat
  ((fr.find? fun e => e.1 == p.val).map (·.2)).getD (if pinIlv p s then own ++ own else own)

/-- The codes of one pin join the raw frame of their sample instant (R336). -/
def rawSample (l : Lane) (pin : Fin 32) (inst : Nat) (codes : List Byte) (s : State) : State :=
  if !(recPins s).contains pin || !(s.lane l).rcd.running then s
  else
    let s1 := modRec l (fun r => { r with
      frame := (if r.frameAt = inst then r.frame.filter fun e => e.1 != pin.val else []) ++ [(pin.val, codes)],
      frameAt := inst }) s
    let fr := (s1.lane l).rcd.frame
    if fr.length < (recHeard l s).length then s1
    else
      let bs := (recPins s).flatMap (rawCodes l fr s)
      writeRaw l inst bs (modRec l (fun r => { r with frame := [] }) s1)

/-- The trigger frame and an extension at a decimated frame whose step's trigger fell at `raw`. -/
def noteDec (s : State) (raw : Long) (r : RecRun) : RecRun :=
  let r1 := match r.trig, r.decTrig with
    | some t, none => if afterTrigger t raw then { r with decTrig := some r.dec } else r
    | _, _ => r
  match r1.extDec, r1.decTrig with
  | some t, some n =>
    if decide (t.toNat ≤ raw.toNat) then
      { r1 with extDec := none, postDec := max r1.postDec (extendPost r1.dec n (u32 (recRec s) 12) (recDecCap s)) }
    else r1
  | _, _ => r1

/-- A decimated frame after a committed step of DEC_CTX (R337); only the senior lane writes its bytes. -/
def decFrame (l : Lane) (c : Fin 8) (step : Nat) (trigRaw : Long) (s : State) : State :=
  if !(s.lane l).rcd.running || !recDec s || u8 (recRec s) 7 ≠ c.val then s
  else
    let n := (s.lane l).rcd.decCnt + 1
    let div := max 1 (u16 (recRec s) 16)
    let s1 := modRec l (fun r => { r with decCnt := if div ≤ n then 0 else n }) s
    match recActive l s1 with
    | none => s1
    | some k =>
      let r := (s1.lane l).rcd.run
      if n < div || partFull r.dec r.decTrig r.postDec then s1
      else
        let fb := 4 + 4 * recNdec s
        let vals := (List.range (recNdec s)).flatMap fun i =>
          leBytes 4 (nodeVal l (u16 (recRec s) (24 + 2 * i)) s).toNat
        let bs := leBytes 4 (step % 2 ^ 24 + 2 ^ 24 * laneNum l) ++ vals
        let off := decSegBase s k.val + 64 + fb * (r.dec % recDecCap s)
        let s2 := when (decide (l = seniorLane s)) (sharedWrite off bs) s1
        noteFull l (modRun l (fun r => { noteDec s trigRaw r with dec := r.dec + 1 }) s2)

/-! ### Triggers (R338 to R340, R344, R345) -/

/-- A trigger during the dead time starts nothing (R345). -/
def missTrigger (l : Lane) (t : RecTrigger) (s : State) : State :=
  raise (.rcd l) 3 (modRec l (fun r =>
    if r.cur.isNone then { r with
      missed := satInc r.missed, nextMissed := satInc r.nextMissed,
      nextMissTicks := if r.nextMissed = 0 then t.ticks else r.nextMissTicks }
    else { r with
      missed := satInc r.missed, run := { r.run with
        missed := satInc r.run.missed, missTicks := if r.run.missed = 0 then t.ticks else r.run.missTicks } }) s)

/-- The raw tick at which the running segment started. -/
def segStartRaw (l : Lane) (s : State) : Int := (s.raw.toNat : Int) - ((s.now : Int) - ((s.lane l).rcd.run.startAt : Int))

/-- A trigger reaches the recorder of a lane; `cross`: it came over the Tsuin link, or crosses it (R339). -/
def takeTrigger (l : Lane) (t : RecTrigger) (cross fromOther : Bool) (s : State) : State :=
  let r := (s.lane l).rcd
  match r.cur with
  | none => missTrigger l t s
  | some k =>
    if (t.ticks.toNat : Int) < segStartRaw l s then missTrigger l t s
    else match r.run.trig with
      | none =>
        let s1 := recMark l t.ticks t.frac 1 0 t.src 0 s
        let s2 := modRec l (fun r => { r with seg := upd r.seg k 2, run := { r.run with
          trig := some t, xlane := cross, postRaw := u32 (recRec s) 8, postDec := u32 (recRec s) 12 } }) s1
        let s3 := when (cross && !fromOther) (modRec (otherLane l) fun r => { r with xin := r.xin ++ [t] }) s2
        raise (.rcd l) 0 s3
      | some t0 =>
        if fromOther && t0.src = t.src then modRun l (fun r => { r with xlane := true }) s
        else
          let ext := u8 (recRec s) 6 == 1
          let s1 := recMark l t.ticks t.frac 2 0 t.src 0 s
          raise (.rcd l) 1 (modRun l (fun r => { r with
            retrig := satInc r.retrig, extended := r.extended || ext,
            extRaw := if ext then some t.ticks else r.extRaw, extDec := if ext then some t.ticks else r.extDec }) s1)

/-- The recorder of a lane stamps a source that has become active, and triggers (R338, R340). -/
def recTrig (l : Lane) (src frac : Nat) (s : State) : State :=
  match (s.lane l).rcd.due.find? fun d => d.1 == src with
  | none => s
  | some d =>
    takeTrigger l ⟨d.2, if recOldTime s then 0 else frac, src⟩ (tsuUp s && (s.lane (otherLane l)).rcd.running) false
      (modRec l (fun r => { r with due := r.due.eraseP fun d => d.1 == src }) s)

/-- A source that has become active is stamped. -/
def execRecTrig (l : Lane) (src : Fin 118) (frac : Fin 100) (s : State) : Out := .next (recTrig l src.val frac.val s)

/-- The other lane's oldest trigger arrives (R339). -/
def xlaneTrigger (l : Lane) (s : State) : State :=
  match (s.lane l).rcd.xin with
  | [] => s
  | t :: rest => takeTrigger l t true true (modRec l (fun r => { r with xin := rest }) s)

/-- A trigger crosses the link. -/
def execXlaneTrigger (l : Lane) (s : State) : Out := .next (xlaneTrigger l s)

/-- REC_CMD.TRIG: source 116 (R338); the fraction of its stamp is open (log entry 4). -/
def recCmdTrig (l : Lane) (s : State) : State :=
  let (n, s1) := takeFree s
  recTrig l 116 (n % 100) (noteTrig l 116 s1.raw s1)

/-- REC_CMD.TRIG is written. -/
def execRecCmdTrig (l : Lane) (s : State) : Out := .next (recCmdTrig l s)

/-! ### Completion and release (R343, R345, R346) -/

/-- Frames before the trigger frame that a ring of capacity c still holds. -/
def preFrames (trig post c : Nat) : Nat := min trig (c - 1 - post)

/-- The header of a raw segment (R346). -/
def rawHeader (l : Lane) (seq : Nat) (s : State) : List Byte :=
  let r := (s.lane l).rcd
  let x := r.run
  let c := recCap s
  let trig := x.rawTrig.getD 0
  let pre := preFrames trig x.postRaw c
  let t := x.trig.getD ⟨0, 0, 0⟩
  let ilv := ((recPins s).filter fun p => pinIlv p s).map (·.val)
  let flags := packBits [x.xlane, recOldTime s, decide (l = .b), decide (pre = c - 1 - x.postRaw), x.extended, x.marksLost]
  let offs := (idx 32).flatMap fun p =>
    leBytes 2 (if (recPins s).contains p then (if recOldTime s then r.skew[p] else r.meas[p]).toNat else 0)
  let body := leBytes 4 0x43525A49 ++ leBytes 4 seq ++ leBytes 8 t.ticks.toNat ++ leBytes 1 t.frac ++ leBytes 1 t.src
    ++ leBytes 2 flags ++ leBytes 4 pre ++ leBytes 4 x.postRaw ++ leBytes 4 ((trig - pre) % c) ++ leBytes 8 x.deadNs
    ++ leBytes 8 x.missTicks.toNat ++ leBytes 2 x.missed.toNat ++ leBytes 2 x.retrig.toNat
    ++ leBytes 1 (recFrameBytes s) ++ leBytes 1 ((recPins s).length + ilv.length) ++ leBytes 2 (min 240 x.marks)
    ++ leBytes 4 (recMask s) ++ leBytes 4 (ilv.map (2 ^ ·)).sum ++ offs ++ leBytes 124 0
  body ++ leBytes 4 (crc32c body)

/-- The header of a decimated segment. -/
def decHeader (l : Lane) (seq : Nat) (s : State) : List Byte :=
  let x := (s.lane l).rcd.run
  let c := recDecCap s
  let trig := x.decTrig.getD 0
  let pre := preFrames trig x.postDec c
  let body := leBytes 4 0x44525A49 ++ leBytes 4 seq ++ leBytes 4 (trig % c) ++ leBytes 4 ((trig - pre) % c)
    ++ leBytes 4 pre ++ leBytes 4 x.postDec ++ leBytes 2 (recNdec s) ++ leBytes 2 (4 + 4 * recNdec s) ++ leBytes 32 0
  body ++ leBytes 4 (crc32c body)

/-- A record is complete (R345): its segment is held, and the next one starts within 1 µs (log entry 4), or none is
free. -/
def recDone (l : Lane) (s : State) : State :=
  let r := (s.lane l).rcd
  match r.cur, r.run.doneAt with
  | some k, some t =>
    let s0 := elapseTo t s
    let seq := r.seq + 1
    let s1 := laneWrite l (rawSegBase (recNseg s) k.val) (rawHeader l seq s0) s0
    let s2 := when (recDec s && decide (l = seniorLane s)) (sharedWrite (decSegBase s k.val) (decHeader l seq s0)) s1
    let s3 := raise (.rcd l) 2 (modRec l (fun r => { r with
      seg := upd r.seg k 3, cur := none, run := { }, deadFrom := t, seq := seq,
      lastSeq := BitVec.ofNat 24 seq, lastSeg := BitVec.ofNat 3 k.val })
        (opEvent 5 (laneNum l) 0 (BitVec.ofNat 24 seq |>.setWidth 32, wd k.val) [] s2))
    match freeSegment l s3 with
    | none => raise (.rcd l) 4 s3
    | some j =>
      let (n, s4) := takeFree s3
      startSegment l j (t + n % 401) s4
  | _, _ => s

/-- A record is complete. -/
def execRecDone (l : Lane) (s : State) : Out := .next (recDone l s)

/-- Held segments of one lane are released; a recorder without a segment starts one (R345, R346). -/
def releaseIn (l : Lane) (mask : Byte) (s : State) : State :=
  let s1 := modRec l (fun r =>
    let free := fun (k : Fin 8) => if bit mask k.val && r.seg[k] == 3 then (0 : Fin 4) else r.seg[k]
    { r with seg := Vector.ofFn free }) s
  if (s1.lane l).rcd.running && (s1.lane l).rcd.cur.isNone then
    match freeSegment l s1 with
    | none => s1
    | some k => startSegment l k s1.now s1
  else s1

/-- REC_CMD.REL (R346), carried to the other lane. -/
def recRelease (l : Lane) (mask : Byte) (s : State) : State := mirror l (.recRelease mask) (releaseIn l mask s)

/-- REC_CMD.REL is written. -/
def execRecRelease (l : Lane) (mask : Byte) (s : State) : Out := .next (recRelease l mask s)

/-- The kind of the periodic measurement of sampling offsets. -/
def tkOffs (l : Lane) : Nat := 22 + laneNum l

/-- Every 1 s the sampling offsets are measured (R341), in 25 ps. -/
def execRecOffsetMeasure (l : Lane) (offs : List Int) (s : State) : Out :=
  .next (if (s.lane l).rcd.running then
    modRec l (fun r => { r with meas := Vector.ofFn fun p => BitVec.ofInt 16 (offs.getD p.val 0) })
      (periodic (tkOffs l) (secs 1) s)
  else s)

end Sys2Proof.Machine
end

