-- ==== Sys2Proof/Machine/Commit.lean ====
section
/-! DEFINITION. Converter samples with all that they feed, committed steps from start to commit, and the writes of dead
time and minimum pulse (R11, R123, R131, R144 to R154, R158, R163, R171, R176, R197, R223, R254, R336, R337). -/

namespace Sys2Proof.Machine

/-! ### Samples (R123, R131, R134, R136, R176, R336) -/

/-- A comparator that a sample takes out of its band triggers its own lane's recorder (R338). -/
def noteExits (pin : Fin 32) (before s : State) : State :=
  foldS lanes (fun l t =>
    let w := ((s.lane l).meas.pin[pin]).win
    if w ≠ 0 ∧ w ≠ ((before.lane l).meas.pin[pin]).win then noteTrig l (16 + pin.val) t.raw t else t) s

/-- A code joins the raw frame of its instant; an interleaved pin's two codes join together (R336). -/
def recordCode (pin : Fin 32) (inst : Nat) (x : StreamCode) (s : State) : State :=
  if !pinIlv pin s then rawSample x.lane pin inst (leBytes 2 x.code.toNat) s
  else if x.first then s
  else rawSample x.lane pin inst (leBytes 2 ((s.lane x.lane).meas.pin[pin]).pairA.toNat ++ leBytes 2 x.code.toNat) s

/-- A converter samples: the chain, the comparator, the classifier and the recorder take the code. -/
def converterSample (l : Lane) (pin : Fin 32) (legP legN : Int) (lost : Bool) (s : State) : State :=
  if !sampleDue l pin s then s
  else
    let due := ((s.lane l).meas.pin[pin]).nextAt
    let off := ilvOffset l pin s
    let s1 := elapseTo (due + off) s
    let inst := due + 40 * ((s1.now - off - due) / 40)
    let (code, s2) := sampleCode l pin legP legN s1
    let s3 := takeSample l pin inst code (legOver legP legN) lost s2
    let s4 := classify l pin (refreshWin pin (noteExits pin s2 s3))
    foldS (streamCodes l pin code lost s2) (recordCode pin inst) s4

/-- A converter samples. -/
def execConverterSample (l : Lane) (pin : Fin 32) (legs : Int × Int) (lost : Bool) (s : State) : Out :=
  .next (converterSample l pin legs.1 legs.2 lost s)

/-! ### The start of a committed step (R144, R145, R153, R154, R208) -/

/-- The waiting changes of a context that are due take effect, in order (R153 to R155). -/
def applyChanges (l : Lane) (c : Fin 8) (n : Nat) (s : State) : State :=
  let x := (s.lane l).eng.ctx[c]
  let due := x.pend.filter (pendReady n s)
  let s1 := modCtx l c (fun x => { x with
    pend := x.pend.filter fun p => !pendReady n s p, live := x.livePend.getD x.live, livePend := none }) s
  let s2 := foldS due (fun p => applyPend l c p.2) s1
  when (!due.isEmpty) (raInvalidate l c) s2

/-- A committed step starts once the engine has reached a level boundary of the step it suspends (R144, R145). -/
def stepStart (l : Lane) (c : Fin 8) (s : State) : State :=
  let x := (s.lane l).eng.ctx[c]
  match x.vec with
  | none => s
  | some v =>
    if x.run.isSome || preempted l c s || !laneUp l s then s
    else
      let s1 := applyChanges l c x.stepNo (elapseTo (engineFree l s) s)
      let s2 := when (decide (gfCtx s = some c)) (gfStepStart l c x.stepNo) s1
      let r : RunStep := { startAt := s2.now, since := some s2.now, inputs := v, settled := x.vecSettled }
      modCtx l c (fun y => { y with run := some r, vec := none, startedNo := y.stepNo }) s2

/-- A committed step starts. -/
def execCommittedStepStart (l : Lane) (ctx : Fin 8) (s : State) : Out := .next (stepStart l ctx s)

/-! ### The commit (R146 to R151, R158, R163, R171, R254) -/

/-- When a running step ends that has run since a time: suspended time is no work (R144). -/
def stepEnd (l : Lane) (g : Graph) (r : RunStep) (since : Nat) (s : State) : Nat :=
  max s.now (since + engTicks l (stepCycles (fmaUnits l s) g - r.work) s)

/-- The signature of a committed step: CRC-32C over its node range and its outputs (R254). -/
def stepSignature (l : Lane) (g : Graph) (outs : List (Nat × Word)) (s : State) : Word :=
  let ns := (List.range g.nodeCount).flatMap fun k => leBytes 4 (nodeVal l (g.nodeBase + k) s).toNat
  wd (crc32c (ns ++ outs.flatMap fun o => leBytes 4 o.2.toNat))

/-- Counters of a context at a commit at a time; `wrote`: it writes its outputs. -/
def countStep (cycles clamps now : Nat) (wrote : Bool) (x : EngCtx) : EngCtx :=
  let cyc := BitVec.ofNat 16 (min 0xFFFF cycles)
  { x with
    run := none, missRun := 0, commitNo := x.startedNo, wroteAt := if wrote then some now else x.wroteAt,
    steps := satInc x.steps, cycLast := cyc,
    cycMax := if x.cycMax.toNat < cyc.toNat then cyc else x.cycMax,
    clamps := wd (satAdd 32 x.clamps.toNat clamps) }

/-- The running step of a context commits, unless it is suspended or ends after its DEADLINE. -/
def stepCommit (l : Lane) (c : Fin 8) (s : State) : State :=
  match graphOf c s, ((s.lane l).eng.ctx[c]).run, ((s.lane l).eng.ctx[c]).run.bind (·.since) with
  | some g, some r, some t =>
    let x := (s.lane l).eng.ctx[c]
    let fin := stepEnd l g r t s
    if x.trigAt + g.deadline < fin then s
    else
      let s1 := elapseTo fin s
      let beh := behaviour s1
      let env := stepEnv l c beh.val (fun k => nodeVal l k s1) s1
      let b := runGraph env g (branchInput c f0 s1 ++ r.inputs)
      let s2 := putNodes l b.buf.reverse s1
      let ok := r.settled
      let outs := g.outs.map fun o => (o.offset, nodeVal l o.node s2)
      let s3 := modCtx l c (countStep (stepCycles (fmaUnits l s) g) b.clamps s1.now ok) s2
      let s4 := when ok (writeOutputs l outs token) s3
      let s5 := noteSubs l c b.subs s4
      let s6 := when (g.oscNode != 0xFFFF)
        (modCtx l c fun y => { y with oscBuf := nodeVal l g.oscNode s2 :: y.oscBuf }) s5
      let s7 := traceCommit l c x.stepNo s6
      let s8 := match b.gf with
        | none => s7
        | some gr => when (decide (gfCtx s = some c)) (gfCommitted l gr) s7
      let s9 := raCommit l c (r.inputs.map (·.2)) s8
      let nodes := (List.range g.nodeCount).map fun k => nodeVal l (g.nodeBase + k) s2
      let s10 := opEvent 3 (laneNum l) c.val (wd x.stepNo, wd g.nodeCount) nodes
        (modLc l (fun k => { k with sigs := k.sigs ++ [(c, x.stepNo, stepSignature l g outs s2)] }) s9)
      resumeRuns l (decFrame l c x.stepNo (s10.raw - BitVec.ofNat 64 (s10.now - x.trigAt)) s10)
  | _, _, _ => s

/-- A committed step commits. -/
def execCommittedStepCommit (l : Lane) (ctx : Fin 8) (s : State) : Out := .next (stepCommit l ctx s)

/-! ### PWM_DT and PWM_MINP (R98, R223) -/

/-- PWM_DT inside a session (R223). -/
def setDt (l : Lane) (g : Fin 16) (v : Word) (s : State) : State :=
  let x := (s.lane l).pwm.gen[g]
  let n := fld v 0 17
  if 128000 < n then s
  else if dtFits x.accPer n (x.minpNext.getD x.minp) then modGen l g (fun x => { x with dtNext := some n }) s
  else raise (.pwm l) 6 s

/-- PWM_MINP inside a session (R223). -/
def setMinp (l : Lane) (g : Fin 16) (v : Word) (s : State) : State :=
  let x := (s.lane l).pwm.gen[g]
  let n := fld v 0 15
  if 25600 < n then s
  else if dtFits x.accPer (x.dtNext.getD x.dt) n then modGen l g (fun x => { x with minpNext := some n }) s
  else raise (.pwm l) 6 s

/-- The address of a register of a lane window. -/
def laneAddr (l : Lane) (off : Nat) : Word := laneBase l + wd off

/-- PWM_DT is written. -/
def execPwmDtWrite (l : Lane) (g : Fin 16) (m : Master) (v : Word) (s : State) : Out :=
  byMaster m s (rwkWrite m (laneAddr l (0x60100 + 0x40 * g.val + 0x0C)) (setDt l g v))

/-- PWM_MINP is written. -/
def execPwmMinpWrite (l : Lane) (g : Fin 16) (m : Master) (v : Word) (s : State) : Out :=
  byMaster m s (rwkWrite m (laneAddr l (0x60100 + 0x40 * g.val + 0x10)) (setMinp l g v))

end Sys2Proof.Machine
end

