-- ==== Sys2Proof/Machine/Clock.lean ====
section
/-! DEFINITION. Clock islands and synthesis (R50 to R68, R395): references, PLLs, island sources and SPARE. -/

namespace Sys2Proof.Machine

/-! ### PLLs and references -/

/-- One PLL. -/
def pllOf (s : State) : Pll → PllState
  | .sysA => s.clock.sysA
  | .sysB => s.clock.sysB
  | .net => s.clock.net
  | .iso => s.clock.iso
  | .spare => s.clock.spare

/-- One PLL changed. -/
def modPll (p : Pll) (f : PllState → PllState) (s : State) : State :=
  modClock (fun c => match p with
    | .sysA => { c with sysA := f c.sysA }
    | .sysB => { c with sysB := f c.sysB }
    | .net => { c with net := f c.net }
    | .iso => { c with iso := f c.iso }
    | .spare => { c with spare := f c.spare }) s

/-- Every PLL. -/
def plls : List Pll := [.sysA, .sysB, .net, .iso, .spare]

/-- The bit of CLK_EVT and the code of SPARE_USE of a PLL (R67, R68). -/
def pllCode : Pll → Nat
  | .sysA => 1
  | .sysB => 2
  | .net => 3
  | .iso => 4
  | .spare => 5

/-- The reference a PLL uses: that of the image where it runs, else a TCXO that runs, the primary first (R51, R395);
none: holdover (R52). -/
def refFor (c : ClockState) (img : ClkRef) : Option ClkRef :=
  let fallback := if c.tcxoP then some ClkRef.primary else if c.tcxoS then some ClkRef.spare else none
  match img with
  | .primary => fallback
  | .spare => if c.tcxoS then some .spare else fallback
  | .ref10 => if c.ref10 then some .ref10 else fallback

/-- One island's clock changed. -/
def modIslClk (i : Fin 22) (f : IslandClock → IslandClock) (s : State) : State :=
  modClock (fun c => { c with isl := modAt c.isl i f }) s

/-- The islands whose source is a TCXO (R17). -/
def tcxoIslands : List (Fin 22) := [0, 18, 19]

/-- The source that AON, SAFE or FIO must take: its assigned TCXO, else the other one, else its ring oscillator (R50, R51,
R395): 0 primary, 1 spare, 2 ring. -/
def tcxoWant (c : ClockState) (i : Fin 22) : Fin 3 :=
  if i = 18 then (if c.tcxoS then 1 else if c.tcxoP then 0 else 2)
  else if c.tcxoP then 0 else if c.tcxoS then 1 else 2

/-- The source that AON, SAFE or FIO runs from. -/
def tcxoSrc (c : ClockState) (i : Fin 22) : Fin 3 :=
  if i = 18 then (if c.safeRing then 2 else if c.safeSrc then 0 else 1)
  else if i = 19 then c.fioSrc else c.aonSrc

/-- AON, SAFE or FIO starts the source it must take, at its handshake boundary (R57). -/
def startTcxo (i : Fin 22) (s : State) : State :=
  let r := tcxoWant s.clock i
  modIslClk i (fun x => { x with
      src := if r = 2 then 2 else 0, next := none,
      fallbacks := if r = 2 && x.src ≠ 2 then satInc x.fallbacks else x.fallbacks })
    (modClock (fun c =>
      if i = 18 then { c with safeRing := decide (r = 2), safeSrc := if r = 2 then c.safeSrc else decide (r = 0) }
      else if i = 19 then { c with fioSrc := r }
      else { c with aonSrc := r }) s)

/-- A PLL takes its reference, or goes into holdover where it has none (R51, R52, R395). -/
def takeRef (p : Pll) (s : State) : State :=
  modPll p (fun x => match refFor s.clock x.imageRef with
    | some r => { x with ref := r, holdover := false }
    | none => { x with holdover := true, holdAt := if x.holdover then x.holdAt else s.now }) s

/-- After a reference came or went every PLL takes its reference, and AON, FIO and SAFE change their source at their next
handshake boundary (R51, R57, R395). -/
def refreshRefs (s : State) : State :=
  foldS plls takeRef (foldS tcxoIslands (fun i t =>
    let r := tcxoWant t.clock i
    modIslClk i (fun x => { x with next := if tcxoSrc t.clock i = r then none else some r }) t) s)

/-! ### Islands -/

/-- Islands whose source is a PLL: all but AON, SAFE and FIO (R17). -/
def pllIslands : List (Fin 22) := (idx 22).filter fun i => i.val ≠ 0 && i.val ≠ 18 && i.val ≠ 19

/-- The islands of a lane (R49). -/
def laneIslands (l : Lane) : List (Fin 22) :=
  (idx 22).filter fun i => decide (1 + 6 * laneNum l ≤ i.val) && decide (i.val ≤ 6 + 6 * laneNum l)

/-- SPARE serves a PLL (R62). -/
def spareServes (s : State) (p : Pll) : Bool := s.clock.spareUse.val == pllCode p && s.clock.spareUse.val != 0

/-- The source an island on fallback returns to (R61). -/
def returnSource (s : State) (x : IslandClock) : Option (Fin 3) :=
  let own := (pllOf s x.own).locked
  let sp := spareServes s x.own && s.clock.spare.locked
  if own && sp then some (if x.viaSpare then 1 else 0)
  else if sp then some 1
  else if own then some 0
  else none

/-- Islands on fallback take a PLL source that is locked (R61). -/
def returnIslands (s : State) : State :=
  foldS pllIslands (fun i t =>
    let x := t.clock.isl[i]
    if x.src = 2 then
      match returnSource t x with
      | some r => modIslClk i (fun x => { x with next := some r }) t
      | none => t
    else t) s

/-- The lane's islands run on a source: its own PLL (0) or SPARE (1) (R59). -/
def laneRunsOn (s : State) (l : Lane) (src : Fin 3) : Bool := (laneIslands l).any fun i => (s.clock.isl[i]).src = src

/-- The SYS PLL of a lane. -/
def sysOf : Lane → Pll
  | .a => .sysA
  | .b => .sysB

/-- The lane's islands run on a locked PLL or on SPARE (R262). -/
def laneLocked (s : State) (l : Lane) : Bool :=
  (laneIslands l).all fun i =>
    let x := s.clock.isl[i]
    (x.src = 0 && (pllOf s x.own).locked) || (x.src = 1 && s.clock.spare.locked)

/-- The frequency SPARE must run at for a PLL: 2.5 GHz for NET (R62). -/
def targetFor (p : Pll) : Bool := p = .net

/-- A target of SPARE in units of 500 Hz (R53). -/
def targetUnits (tgt : Bool) : Nat := if tgt then 5000000 else 6400000

/-- What a walk moves in one tick, in units of 500 Hz: 0.2 % of the new target per µs (R65). -/
def walkStep (tgt : Bool) : Nat := if tgt then 25 else 32

/-- The present frequency of SPARE in units of 500 Hz (R65). -/
def spareUnits (s : State) : Nat :=
  let c := s.clock
  let goal := targetUnits c.spareTgt
  let way := (s.now - c.walkAt) * walkStep c.spareTgt
  if c.walkFrom ≤ goal then min goal (c.walkFrom + way) else max goal (c.walkFrom - way)

/-- The ticks of a walk from a frequency to a target (R65). -/
def walkTicks (units : Nat) (tgt : Bool) : Nat :=
  let gap := (units - targetUnits tgt) + (targetUnits tgt - units)
  (gap + walkStep tgt - 1) / walkStep tgt

/-- SPARE is retargeted (R62, R65): it walks from its present frequency, and is not locked until the walk has ended, its
output has settled and has stayed locked (log entry 60). -/
def retarget (tgt : Bool) (s : State) : State :=
  if s.clock.spareTgt = tgt then s
  else
    let units := spareUnits s
    modClock (fun c => { c with
      spareTgt := tgt, walkAt := s.now, walkFrom := units,
      spare := { c.spare with locked := false, lockFrom := s.now + walkTicks units tgt + us 20 } }) s

/-- SPARE takes over a PLL (R62): SPARE_TAKE, logged as a swap (R362). -/
def takeSpare (p : Pll) (s : State) : State :=
  let s1 := retarget (targetFor p) (modClock (fun c => { c with
    spareUse := Fin.ofNat 4 (pllCode p), spare := { c.spare with spread := (pllOf s p).spread } }) s)
  let s2 := foldS pllIslands (fun i t =>
    if (t.clock.isl[i]).own = p then modIslClk i (fun x => { x with viaSpare := true }) t else t) s1
  raise .clk 9 (hingeSwap 6 2 (pllCode p - 1) 0 1 0 s2)

/-- SPARE serves no PLL: it is idle, without spread (R53, R62). -/
def spareIdle (c : ClockState) : ClockState := { c with spareUse := 0, spare := { c.spare with spread := {} } }

/-- The use of the one SPARE, or of the one spare TCXO, ends. -/
def freeSpare (res : Nat) (s : State) : State :=
  modWear (fun w => { w with used := put' w.used (3 * res + 2) 0 }) s

/-- A loss asks for SPARE (R62). -/
def callSpare (p : Pll) (s : State) : State :=
  if s.clock.spare.lost then raise .clk 10 (noSpare 6 2 (pllCode p - 1) 1 0 s)
  else if s.clock.spareUse = 0 then takeSpare p s
  else if spareServes s p then s
  else if s.clock.spareUse = 3 && p ≠ .net then
    let s1 := foldS pllIslands (fun i t =>
      let x := t.clock.isl[i]
      if x.own = .net && x.src = 1 then modIslClk i (fun x => { x with next := some 2, viaSpare := false }) t else t) s
    takeSpare p (freeSpare 6 (raise .clk 10 s1))
  else raise .clk 10 (noSpare 6 2 (pllCode p - 1) 1 0 s)

/-- With ISO lost each gate-power converter and pump goes on from its own fallback oscillator (R64). -/
def convFallback (p : Pll) (s : State) : State :=
  when (p = .iso) (modClock fun c => { c with convOwn := true }) s

/-- With ISO locked again the converters return to it at their next switching cycle (R64): at a time within one cycle of
1.4 MHz − 2 % that the spec leaves open (log entry 4). -/
def convReturn (p : Pll) (s : State) : State :=
  if p = .iso && s.clock.convOwn then
    let (n, s1) := takeFree s
    modClock (fun c => { c with convOwn := false, convBackAt := s.now + n % 293 }) s1
  else s

/-- The converters and pumps switch at the ISO clock (R35, R64). -/
def convOnIso (s : State) : Bool := !s.clock.convOwn && decide (s.clock.convBackAt ≤ s.now)

/-- The nominal switching frequency of the converters and pumps in kHz: 2 MHz from ISO, 1.4 MHz from their own
oscillators (R35, R64). -/
def convKhz (s : State) : Nat := if convOnIso s then 2000 else 1400

/-- The phase of converter nn behind converter 0 in tenths of a degree; from their own oscillators the converters have no
fixed phase (R35, R64). -/
def convPhase (s : State) (nn : Fin 16) : Option Nat := if convOnIso s then some (225 * nn.val) else none

/-- A PLL output is declared lost (R55, R58, R59, R62). -/
def losePll (p : Pll) (s : State) : State :=
  if (pllOf s p).lost then s
  else
    let laneHit (l : Lane) : Bool :=
      if p = .spare then spareServes s (sysOf l) && laneRunsOn s l 1 else p = sysOf l && laneRunsOn s l 0
    let s1 := convFallback p (raise .clk (3 + pllCode p) (modPll p (fun x => { x with
      locked := false, lost := true, lockFrom := max x.lockFrom (s.now + us 10) }) s))
    let s2 := foldS pllIslands (fun i t =>
      let x := t.clock.isl[i]
      if p = .spare then
        (if x.src = 1 then
          modIslClk i (fun x => { x with next := some (if (pllOf t x.own).locked then 0 else 2) }) t
         else t)
      else if x.own = p && x.src = 0 then modIslClk i (fun x => { x with next := some 2 }) t
      else t) s1
    let s3 := foldS lanes (fun l t => when (laneHit l) (faultLane l 1) t) s2
    if p = .sysA || p = .sysB || p = .net then callSpare p s3 else s3

/-- The monitor declares a PLL output lost. -/
def execPllLoss (p : Pll) (s : State) : Out := .next (losePll p s)

/-- The 10 ms holdover of a PLL without a reference ends: its output is lost (R51, R52, R55). -/
def execPllHoldoverEnd (p : Pll) (s : State) : Out :=
  let x := pllOf s p
  if x.holdover && !x.lost then .next (losePll p (elapseTo (x.holdAt + ms 10) s)) else .next s

/-- A PLL output is locked (R55), no earlier than its loss or its walk allows and never without a reference: SPARE resumes
or becomes idle after its own loss (R62), converters return to ISO (R64), and islands on fallback return (R61). -/
def execPllLock (p : Pll) (s : State) : Out :=
  let x := pllOf s p
  if x.locked || x.holdover then .next s
  else
    let s1 := convReturn p (modPll p (fun x => { x with locked := true, lost := false }) (elapseTo x.lockFrom s))
    let served : Bool := [Pll.sysA, .sysB, .net].any fun q => spareServes s1 q && (pllOf s1 q).locked
    let s2 := if p = .spare && x.lost && served then
        retarget s.clock.idleTgt (freeSpare 6 (modClock spareIdle s1))
      else s1
    .next (returnIslands s2)

/-! ### TCXOs, REF10 and calibration -/

/-- A TCXO fails (R51); with both failed, REF_ALL_LOST, and the stop of R75. -/
def execTcxoFail (t : Tcxo) (s : State) : Out :=
  let ok := if t = .primary then s.clock.tcxoP else s.clock.tcxoS
  if !ok then .next s
  else
    let s1 := modClock (fun c =>
      if t = .primary then { c with tcxoP := false, tcxoPAt := s.now } else { c with tcxoS := false, tcxoSAt := s.now }) s
    let both := !s1.clock.tcxoP && !s1.clock.tcxoS
    let s2 := refreshRefs (raise .clk 0 s1)
    if both then
      let s3 := raise .clk 11 (noSpare 5 2 0 1 0 s2)
      let sys10 := s3.clock.ref10 && (s3.clock.sysA.ref == .ref10 || s3.clock.sysB.ref == .ref10)
      .next (if sys10 then s3 else trigger (.stop 7 4) s3)
    else if t = .primary then .next (hingeSwap 5 2 0 0 1 0 s2)
    else .next s2

/-- A failed TCXO has run for 1 s without a gap (R395): islands and PLLs return to it. It cannot have done so earlier than
1 s after it failed. -/
def execTcxoReturn (t : Tcxo) (s : State) : Out :=
  let ok := if t = .primary then s.clock.tcxoP else s.clock.tcxoS
  if ok || !s.power.powered then .next s
  else
    let from0 := if t = .primary then s.clock.tcxoPAt else s.clock.tcxoSAt
    let s1 := modClock (fun c => if t = .primary then { c with tcxoP := true } else { c with tcxoS := true })
      (elapseTo (from0 + secs 1) s)
    .next (refreshRefs (when (t = .primary) (freeSpare 5) s1))

/-- The TCXOs disagree by more than 5 ppm over 10 s (R51): reported only. While REF10 is not qualified CLK_STAT.DRIFT_SEL
keeps its value, the model's choice (log entry 61). -/
def execTcxoDrift (ppb : Nat) (spareFurther : Bool) (s : State) : Out :=
  if 5000 < ppb && s.clock.tcxoP && s.clock.tcxoS then
    .next (raise .clk 1 (modClock (fun c => { c with driftSel := if c.ref10 then spareFurther else c.driftSel }) s))
  else .next s

/-- REF10 is lost (R51). -/
def execRefLoss (s : State) : Out :=
  if s.clock.ref10 then
    .next (refreshRefs (raise .clk 2 (modClock (fun c => { c with ref10 := false, ref10From := s.now }) s)))
  else .next s

/-- REF10 becomes qualified once it has stayed within its limits for 1 s (R51), no earlier than 1 s after its loss or the
start; the PLLs whose image names it take it (log entry 22). -/
def execRef10Qualified (s : State) : Out :=
  if s.power.powered && !s.clock.ref10 then
    .next (refreshRefs (modClock (fun c => { c with ref10 := true }) (elapseTo (s.clock.ref10From + secs 1) s)))
  else .next s

/-- The 1 s calibration. -/
def tkRing : Nat := 3

/-- A ring oscillator runs at 70 % of nominal within 2 % of it (R56): 686 to 714 in 0.1 %. -/
def ringBound (pm : Nat) : BitVec 10 := BitVec.ofNat 10 (max 686 (min 714 pm))

/-- Every 1 s each ring oscillator is calibrated while its PLL is locked (R56); those of AON, SAFE and FIO, which have no PLL,
while a TCXO runs, the model's choice (log entry 62). An island without a value in the list keeps its last one. -/
def calibrateRings (pm : List Nat) (s : State) : State :=
  foldS (idx 22) (fun i t =>
    let x := t.clock.isl[i]
    let ok := if i.val = 0 || i.val = 18 || i.val = 19 then t.clock.tcxoP || t.clock.tcxoS else (pllOf t x.own).locked
    match pm[i.val]? with
    | some v => if ok then modIslClk i (fun x => { x with ringPm := ringBound v }) t else t
    | none => t) s

/-- The calibration of every second (R56). -/
def execRingCalibrate (pm : List Nat) (s : State) : Out := .next (calibrateRings pm (periodic tkRing (secs 1) s))

/-- CLK_SPARECTL.IDLE_TGT (R62). -/
def execSpareIdleTgtWrite (tgt : Bool) (s : State) : Out :=
  let s1 := modClock (fun c => { c with idleTgt := tgt }) s
  .next (if s.clock.spareUse = 0 then retarget tgt s1 else s1)

/-- CLK_SPARECTL.RELEASE (R63): only with the served PLL locked, and its lane not senior. A release while SPARE is idle, and
serves no PLL, fails these conditions too: the model's choice (log entry 63). -/
def execSpareRelease (s : State) : Out :=
  let served := [Pll.sysA, .sysB, .net].find? fun q => spareServes s q
  let ok := match served with
    | none => false
    | some q => (pllOf s q).locked && (q = .net || sysOf (seniorLane s) ≠ q)
  if !ok then .next (raise .clk 12 s)
  else
    let s1 := foldS pllIslands (fun i t =>
      let x := t.clock.isl[i]
      if some x.own = served then
        modIslClk i (fun x => { x with next := if x.src = 1 then some 0 else x.next, viaSpare := false }) t
      else t) s
    .next (retarget s.clock.idleTgt (freeSpare 6 (modClock spareIdle s1)))

/-! ### Clock outputs (R65, R66) -/

/-- What feeds a clock output. -/
inductive CkoFeed where
  | net125 | net156 | ref10 | pps | tcxo
  /-- The 400 MHz timebase of a lane, from its own PLL or from SPARE. -/
  | timebase (l : Lane) (spare : Bool)
  deriving DecidableEq, Repr

/-- The timebase of a lane as an output can take it (R65, R66): none while the lane's islands are on fallback or the PLL they
run from is not locked; it follows SPARE with them. -/
def timebaseFeed (l : Lane) (s : State) : Option CkoFeed :=
  if laneRunsOn s l 2 || !laneLocked s l then none else some (.timebase l (laneRunsOn s l 1))

/-- What a clock output delivers, and by how much it is divided (R65, R66); none: it is disabled, or held low because its
source is absent, lost, walking or relocking. It never delivers a ring-oscillator clock. -/
def ckoFeed (n : Fin 4) (s : State) : Option (CkoFeed × Nat) :=
  let c := s.clock
  let x := c.cko[n]
  let feed : Option CkoFeed := match x.src.toNat with
    | 0 => if c.net.locked then some .net125 else none
    | 1 => if c.net.locked then some .net156 else none
    | 2 => timebaseFeed .a s
    | 3 => timebaseFeed .b s
    | 4 => if c.ref10 then some .ref10 else none
    | 5 => if c.pps then some .pps else none
    | 6 => if c.tcxoP then some .tcxo else none
    | _ => none
  if x.en then feed.map (·, x.div.toNat + 1) else none

end Sys2Proof.Machine
end

