-- ==== Sys2Proof/Machine/Lanes.lean ====
section
/-! DEFINITION. Lanes, latch claims, tumblers and the Tsuin link (R76, R251 to R267). -/

namespace Sys2Proof.Machine

/-! ### Lane faults (R253) -/

/-- The junior lane (R252). -/
def juniorLane (s : State) : Lane := otherLane (seniorLane s)

/-- Spare rows used in a bank, with those of swaps that run. -/
def rowsTaken (l : Lane) (bank : Nat) (s : State) : Nat :=
  (sparseGet 0 s.wear.rowsUsed (64 * laneNum l + bank)).toNat
    + (s.wear.rowSwaps.filter fun x => x.1 = l && x.2.1 == bank).length

/-- A swap of the row or of its bank runs (R363). -/
def sramSwapRuns (l : Lane) (bank row : Nat) (s : State) : Bool :=
  (s.wear.rowSwaps.any fun x => x.1 == l && x.2.1 == bank && x.2.2.1 == row) ||
    s.wear.bankSwaps.any fun x => x.1 == l && x.2.1 == bank

/-- A row needs repair (R362, R367): a spare row of its bank, else a spare bank. -/
def repairRow (l : Lane) (bank row ind : Nat) (s : State) : State :=
  if sramSwapRuns l bank row s then s
  else if rowsTaken l bank s < 16 then
    modWear (fun w => { w with rowSwaps := w.rowSwaps ++ [(l, bank, row, s.now)] }) s
  else if (s.wear.bankSwaps.filter fun x => x.1 = l).length < spareLeft 2 (laneNum l) s then
    modWear (fun w => { w with bankSwaps := w.bankSwaps ++ [(l, bank, s.now)] }) s
  else noSpare 2 (laneNum l) bank 2 ind s

/-- An uncorrectable error starts the repair of its row (R362); which row it is, no operand says (log entry 4). -/
def repairAny (l : Lane) (s : State) : State :=
  let (n, s1) := takeFree s
  repairRow l (n % 50) (n / 50 % 256) 1 s1

/-- A lane is faulted; causes 5 to 7 fault no lane but the junior one. -/
def execLaneFault (l : Lane) (cause : Fin 10) (s : State) : Out :=
  .next (if cause = 0 || (5 ≤ cause.val && cause.val ≤ 7 && l != juniorLane s) then s
    else when (decide (cause = 4) && laneUp l s) (repairAny l) (faultLane l cause.val s))

/-- An event that R265 waits out. -/
def notGood (s : State) : State :=
  modLc .a (fun x => { x with goodSince := s.now }) (modLc .b (fun x => { x with goodSince := s.now }) s)

/-! ### Contexts at a start (R150, R152) -/

/-- The coefficients of a context as the image gives them, appended to the other contexts'. -/
def imageCoefs (c : Fin 8) (s : State) (m : List (Nat × Word)) : List (Nat × Word) :=
  [false, true].foldl (fun m b =>
    let p := recD s 0x41 (2 * c.val + b2n b)
    sparsePutAll 0 m (coefKey c b 0) ((List.range 512).map fun i => w32 p (4 * i))) m

/-- The nodes of a context: 0.0, then the initial-value list (R150). -/
def imageNodes (g : Graph) (m : List (Nat × Word)) : List (Nat × Word) :=
  g.init.foldl (fun m x => sparsePut 0 m x.1 x.2) (m.filter fun e => !ownNode g e.1)

/-- A context of a lane goes back to the initial values of the image (R150, R152, R263). -/
def contextImage (l : Lane) (c : Fin 8) (s : State) : State :=
  match graphOf c s with
  | none => s
  | some g =>
    modCtx l c (fun x => { x with bank := g.initBank == 1, live := g.coefMode == 1, livePend := none, pend := [] })
      (modEng l (fun e => { e with nodes := imageNodes g e.nodes, coefs := imageCoefs c s e.coefs }) s)

/-- A generator of a lane as its record gives it (R230 table); one that runs free starts from its PHASE at the first
boundary. -/
def configGen (l : Lane) (g : Fin 16) (s : State) : State :=
  if !hasRec s 0x51 g.val then s
  else
    let p := recD s 0x51 g.val
    modGen l g (fun _ => {
      on := true, start := s.now, fresh := true, per := u32 p 0, accPer := u32 p 0, duty := u32 p 4,
      dutyf := dutyFrac (u32 p 0) (u32 p 4), dt := u32 p 8, minp := u16 p 12 }) s

/-- The grid-forming parameters of a lane as the record gives them (R208). -/
def configGf (l : Lane) (s : State) : State :=
  if hasRec s 0x60 0 then
    modGf l (fun g => { g with
      par := Vector.ofFn fun i : Fin 17 => w32 (recD s 0x60 0) (32 + 4 * i.val),
      staged := Vector.replicate 17 none, tokens := [], loopVal := Vector.replicate 4 none }) s
  else s

/-- A lane starts from the image's initial values instead of a mirror (R263): all that a mirror would bring (R262). -/
def laneImage (l : Lane) (s : State) : State :=
  let s1 := foldS ((idx 8).filter fun c => hasRec s 0x40 c.val) (contextImage l) s
  let s2 := configGf l (foldS (idx 16) (configGen l) s1)
  foldS (idx 32) (fun p t => when (pinOn p t && pinChain p t) (modPin l p (startChain p t)) t) s2

/-! ### Recovery (R262, R263) -/

/-- The contexts in use. -/
def usedCtxs (s : State) : List (Fin 8) := (idx 8).filter fun c => hasRec s 0x40 c.val

/-- The lane claims 0x40 by recovery (R262). -/
def laneRecovered (l : Lane) (s : State) : State :=
  raise .clm 7 (modGate (fun g => { g with allOff := s.plk.locked }) (modLc l (fun x => { x with
    claim := 0x40, health := .healthy, goodSince := s.now, recoveries := satInc x.recoveries, sigs := [] }) s))

/-- A matching lane has matched three steps of every context (R262). -/
def tryRecover (l : Lane) (s : State) : State :=
  let x := s.lc l
  if x.health = .matching && (usedCtxs s).all fun c => x.matched[c] == 3 then laneRecovered l s else s

/-- The match phase starts. -/
def startMatch (l : Lane) (s : State) : State :=
  tryRecover l (modLc l (fun x => { x with
    health := .matching, matched := Vector.replicate 8 0, lastMatch := Vector.replicate 8 0, sigs := [] }) s)

/-- The cause of a lane's fault has cleared, and its islands run on a locked PLL or SPARE (R262). -/
def mayRecover (l : Lane) (s : State) : Bool :=
  laneLocked s l && (match l with
    | .a => s.power.laneAPwr
    | .b => s.power.laneBPwr)

/-- A faulted lane starts recovery (R262): the self-check. -/
def recoveryStart (l : Lane) (s : State) : State :=
  let x := s.lc l
  if x.health = .faulted && !x.offline && mayRecover l s then
    modLc l (fun x => { x with health := .selfCheck, checkAt := s.now, mirrored := 0 }) s
  else s

/-- Recovery starts. -/
def execRecoveryStart (l : Lane) (s : State) : Out := .next (recoveryStart l s)

/-- The self-check of 2 ms is done (R262, R263): the FMA units that failed their test pass have left (R166); the mirror
follows, or, with no lane above 0x00, the image's initial values in M3 or M11. -/
def selfCheckDone (l : Lane) (failed : List (Fin 18)) (s : State) : State :=
  let x := s.lc l
  if x.health ≠ .selfCheck then s
  else
    let s1 := foldS failed (loseUnit l) (elapseTo (x.checkAt + ms 2) s)
    if (s1.lc (otherLane l)).claim ≠ 0 then
      let s2 := modLc l (fun x => { x with health := .mirror, mirrored := 0 }) s1
      if (usedCtxs s1).isEmpty && tsuUp s1 then startMatch l s2 else s2
    else if inStop s1 then startMatch l (applyBlocks (laneImage l s1))
    else s1

/-- The self-check is done. -/
def execSelfCheckDone (check : SelfCheck) (s : State) : Out := .next (selfCheckDone check.lane check.failed s)

/-- What a mirror brings of one generator: the PWM pairs with carries and refill state (R262). -/
def mirrorGen (src dst : GenState) : GenState :=
  { dst with
    per := src.per, duty := src.duty, dutyf := src.dutyf, accPer := src.accPer, stPer := src.stPer, stDuty := src.stDuty,
    pend := src.pend, perNext := src.perNext, splitPend := src.splitPend, carry := src.carry, carryIn := src.carryIn,
    acc := src.acc, n := src.n, refill := src.refill }

/-- What a mirror brings of one pin: the filter-chain state (R262). -/
def mirrorPin (src dst : PinState) : PinState :=
  { dst with
    run := src.run, settled := src.settled, inputs := src.inputs, phase := src.phase, integ := src.integ, comb := src.comb,
    hist := src.hist, dcE := src.dcE, code := src.code, out := src.out, out2 := src.out2,
    undo := none }

/-- The coefficients of a context taken from another list. -/
def copyCoefs (c : Fin 8) (src dst : List (Nat × Word)) : List (Nat × Word) :=
  let mine := fun (e : Nat × Word) => decide (1024 * c.val ≤ e.1) && decide (e.1 < 1024 * (c.val + 1))
  (src.filter mine).foldl (fun m e => sparsePut 0 m e.1 e.2) (dst.filter fun e => !mine e)

/-- The senior lane's mirror of a context overwrites the state of a recovering lane (R262). -/
def takeMirror (l : Lane) (c : Fin 8) (g : Graph) (s : State) : State :=
  let o := s.lane (otherLane l)
  let x := s.lane l
  let nodes := (o.eng.nodes.filter fun e => ownNode g e.1).foldl (fun m e => sparsePut 0 m e.1 e.2)
    (x.eng.nodes.filter fun e => !ownNode g e.1)
  let oc := o.eng.ctx[c]
  s.setLane l { x with
    eng := { x.eng with
      nodes := nodes, coefs := copyCoefs c o.eng.coefs x.eng.coefs,
      ctx := modAt x.eng.ctx c fun y => { y with bank := oc.bank, live := oc.live, stepNo := oc.stepNo, pend := oc.pend } },
    pwm := { x.pwm with gen := Vector.ofFn fun k => mirrorGen o.pwm.gen[k] x.pwm.gen[k] },
    meas := { x.meas with pin := Vector.ofFn fun k => mirrorPin o.meas.pin[k] x.meas.pin[k] },
    gf := { x.gf with par := o.gf.par, staged := o.gf.staged, tokens := o.gf.tokens, loopVal := o.gf.loopVal } }

/-- A mirror of a context arrives (R262); once every context has been mirrored the match starts. -/
def mirrorReceived (l : Lane) (c : Fin 8) (s : State) : State :=
  match graphOf c s with
  | none => s
  | some g =>
    if (s.lc l).health ≠ .mirror || !tsuUp s then s
    else
      let s1 := modLc l (fun x => { x with mirrored := putBit x.mirrored c.val true }) (takeMirror l c g s)
      if (usedCtxs s).all fun d => bit (s1.lc l).mirrored d.val then startMatch l s1 else s1

/-- A mirror arrives. -/
def execMirrorReceived (l : Lane) (ctx : Fin 8) (s : State) : Out := .next (mirrorReceived l ctx s)

/-! ### Signatures and the timebase (R254, R255) -/

/-- A signature of a recovering lane and the next one in step count toward its three consecutive matches; any other match
starts the count anew, and a difference clears it (R262). -/
def countMatch (c : Fin 8) (step : Nat) (same : Bool) (x : LaneClaim) : LaneClaim :=
  let n : Fin 4 := x.matched[c]
  let m : Fin 4 := if !same then 0 else if n = 0 || step ≠ x.lastMatch[c] + 1 then 1 else if n.val < 3 then n + 1 else n
  { x with matched := upd x.matched c m, lastMatch := upd x.lastMatch c step }

/-- The other lane's signature is compared with the own one (R254); a recovering lane counts what it receives (R262). -/
def signatureReceived (l : Lane) (c : Fin 8) (step : Nat) (sig : Word) (s : State) : State :=
  match (s.lc l).sigs.find? fun x => x.1 == c && x.2.1 == step with
  | none => s
  | some own =>
    let same := decide (own.2.2 = sig)
    let s1 := modLc l (fun x => { x with sigs := x.sigs.filter fun y => !(y.1 == c && decide (y.2.1 ≤ step)) }) s
    match lanes.find? fun k => (s.lc k).health == .matching with
    | some r => if r = l then tryRecover l (modLc l (countMatch c step same) s1) else s1
    | none =>
      if same || !((s.lc .a).health == .healthy && (s.lc .b).health == .healthy) then s1
      else faultLane (juniorLane s) 5 (notGood (raise .clm 9 s1))

/-- A signature arrives. -/
def execSignatureReceived (l : Lane) (ctx : Fin 8) (step : Nat) (sig : Word) (s : State) : Out :=
  .next (signatureReceived l ctx step sig s)

/-- The kind of the periodic comparison of the timebases. -/
def tkTimebase : Nat := 24

/-- Every 1.28 µs the lanes' timebases are compared (R255): above 6.4 units of 78.125 ps TB_SKEW, above 32 a fault. -/
def timebaseCompare (err : Int) (s : State) : State :=
  if !((s.lc .a).health == .healthy && (s.lc .b).health == .healthy) then s
  else
    let s1 := periodic tkTimebase 512 s
    let m := err.natAbs
    let s2 := modClaim (fun k => { k with
      skewErr := BitVec.ofInt 16 (clampInt (-32768) 32767 err),
      skewMax := if k.skewMax.toNat < m then BitVec.ofNat 16 (min m 0xFFFF) else k.skewMax }) s1
    let s3 := when (decide (64 < 10 * m)) (fun t => notGood (raise .clm 10 t)) s2
    when (decide (32 < m)) (faultLane (juniorLane s) 7) s3

/-- The timebases are compared. -/
def execTimebaseCompare (err : Int) (s : State) : Out := .next (timebaseCompare err s)

/-! ### The Tsuin link (R256 to R258) -/

/-- The lane that a channel leaves. -/
def tsuFrom (toB : Bool) : Lane := if toB then .a else .b

/-- Working serial lanes of a channel. -/
def tsuGood (t : TsuChannel) : Nat := ((List.range 5).filter fun k => bit t.good k).length

/-- A channel goes down (R257, R258): what the link carried is lost, and the junior lane is faulted with cause 6. -/
def tsuDown (l : Lane) (s : State) : State :=
  if !(tsuOut s l).up then s
  else
    let s1 := modTsu (otherLane l) (fun t => { t with queue := [] }) (modTsu l (fun t => { t with up := false, queue := [] }) s)
    faultLane (juniorLane s) 6 (raise .clm 12 s1)

/-- A serial lane is swapped out (R258): the spare takes its role where it is free, and a channel with fewer than four
working lanes is down. -/
def tsuinSwap (toB : Bool) (k : Fin 5) (lostLock : Bool) (hdrErrors : Nat) (s : State) : State :=
  let l := tsuFrom toB
  let t := tsuOut s l
  if !(lostLock || decide (16 ≤ hdrErrors)) || !bit t.good k.val then s
  else
    let s1 := modTsu l (fun t => { t with good := putBit t.good k.val false }) s
    let takes := decide (k.val < 4) && !t.spareUsed && bit t.good 4
    let unit := k.val + 5 * laneNum l
    let s2 := if takes then
        raise .clm 11 (hingeSwap 8 2 unit (laneNum l) (if lostLock then 1 else 2) hdrErrors
          (modTsu l (fun t => { t with spareUsed := true }) s1))
      else if k.val < 4 || t.spareUsed then noSpare 8 2 unit (if lostLock then 1 else 2) hdrErrors s1
      else s1
    when (decide (tsuGood (tsuOut s2 l) < 4)) (tsuDown l) s2

/-- A serial lane fails. -/
def execTsuinSwap (toB : Bool) (k : Fin 5) (lostLock : Bool) (hdrErrors : Nat) (s : State) : Out :=
  .next (tsuinSwap toB k lostLock hdrErrors s)

/-- The TSUIN island runs on its ring oscillator (R59, R258). -/
def tsuOnRing (s : State) : Bool := (at' s.clock.isl 13 {}).src == 2

/-- The link retrains once both ends run on locked clocks (R258): a channel with four working lanes is up again. -/
def tsuinRetrained (s : State) : State :=
  if tsuOnRing s || !laneLocked s .a || !laneLocked s .b || !(laneUp .a s && laneUp .b s) then s
  else foldS lanes (fun l t => modTsu l (fun c => { c with up := c.up || decide (4 ≤ tsuGood c) }) t) s

/-- The link is retrained. -/
def execTsuinRetrained (s : State) : Out := .next (tsuinRetrained s)

/-- The oldest mirrored write arrives in a lane (R153, R179, R208, R217, R232, R257, R346). -/
def applyMirrored (l : Lane) (w : MirrorWrite) (s : State) : State :=
  match w with
  | .coef c bank i v => coefArrival l c (.coef bank i v) s
  | .bankSwap c => coefArrival l c .swap s
  | .raCtl v => setInhibit l v s
  | .gfParam i v => stageParam l i v s
  | .gfCommit vals => gfCommitArrival l vals s
  | .pwmPer g v => stagePer l g v s
  | .pwmDuty g v => stageDuty l g v s
  | .pwmDutyf g v => stageDutyf l g v s
  | .pwmCommit mask => tokens l mask s
  | .fgClr mask => clearGroups mask s
  | .recRelease mask => releaseIn l mask s

/-- A mirrored write is lost on its way (R257; log entry 74): the lane that received it applies it alone. -/
def dropMirrored (l : Lane) (w : MirrorWrite) (s : State) : State :=
  match w with
  | .coef c bank i v => modCtx l c (fun x => { x with pend := tagFirst (nextTarget c s) (.coef bank i v) x.pend }) s
  | .bankSwap c => modCtx l c (fun x => { x with pend := tagFirst (nextTarget c s) .swap x.pend }) s
  | .gfCommit _ => match gfCtx s with
    | none => s
    | some c => modGf l (fun g => { g with tokens := tagToken (nextTarget c s) g.tokens }) s
  | _ => s

/-- The oldest mirrored write arrives: a transfer with a CRC error is repeated at most 4 times. -/
def execMirroredWriteArrival (rx : MirrorRx) (s : State) : Out :=
  let from0 := otherLane rx.lane
  .next (match (tsuOut s from0).queue with
    | [] => s
    | w :: rest =>
      let s1 := crcErrors from0 (min rx.crcErrs 5) (modTsu from0 (fun t => { t with queue := rest }) s)
      if 5 ≤ rx.crcErrs then dropMirrored from0 w s1 else applyMirrored rx.lane w s1)

/-! ### Claims (R265, R267) -/

/-- The preferred lane (R251). -/
def prefLane (s : State) : Lane := if s.claim.prefB then .b else .a

/-- A lane has met the condition of R265. -/
def raiseReady (l : Lane) (s : State) : Bool :=
  let x := s.lc l
  x.health == .healthy && x.claim == 0x40 && !s.claim.noRevert && decide (x.goodSince + secs 2 ≤ s.now)

/-- The preferred lane raises its claim to 0xC0 (R265). -/
def claimRaise (s : State) : State :=
  let l := prefLane s
  let x := s.lc l
  if x.health == .healthy && x.claim == 0x40 && !s.claim.noRevert then
    modLc l (fun x => { x with claim := 0xC0 }) (elapseTo (x.goodSince + secs 2) s)
  else s

/-- The claim is raised. -/
def execClaimRaise (s : State) : Out := .next (claimRaise s)

/-- CLM_CTL in a session (R265, R267). -/
def setClmCtl (v : Word) (s : State) : State :=
  let n := fld v 0 4
  if n = 0 || 8 < n then raise .clm 13 s
  else
    let old := prefLane s
    let s1 := modClaim (fun k => { k with holdN := BitVec.ofNat 4 n, prefB := bit v 4, noRevert := bit v 5 }) s
    let new := prefLane s1
    if old = new then s1
    else
      let s2 := modLc old (fun x => if x.claim = 0xC0 then { x with claim := 0x40, goodSince := s.now } else x) s1
      if raiseReady new s2 then modLc new (fun x => { x with claim := 0xC0 }) s2 else s2

/-- The address of CLM_CTL. -/
def clmCtlAddr : Word := 0x60008#32

/-- CLM_CTL is written. -/
def execClmCtlWrite (m : Master) (v : Word) (s : State) : Out := byMaster m s (rwkWrite m clmCtlAddr (setClmCtl v))

/-- CLM_CMD.OFFLINE of a lane (R253, R267). -/
def offlineCmd (key : Half) (l : Lane) (s : State) : State :=
  if key = 0x434C && 0x40 ≤ ((s.lc (otherLane l)).claim).toNat then faultLane l 9 s else raise .clm 13 s

/-- A lane is taken offline. -/
def execOffline (key : Half) (l : Lane) (s : State) : Out := .next (offlineCmd key l s)

/-- CLM_CMD.RECOVER of a lane (R262, R264, R267). -/
def recoverCmd (key : Half) (l : Lane) (s : State) : State :=
  let x := s.lc l
  if key = 0x434C && (x.health == .faulted || x.health == .parked) then
    recoveryStart l (modLc l (fun x => { x with health := .faulted, offline := false }) s)
  else raise .clm 13 s

/-- A lane is told to recover. -/
def execRecover (key : Half) (l : Lane) (s : State) : Out := .next (recoverCmd key l s)

/-! ### Tumblers (R76, R259 to R261) -/

/-- The gate of a channel follows the tumbler that has just changed (R259, R260): it ends where nothing lets it stand or
where a hold has no recorded period, and falls where the pattern now says. -/
def followTum (c : Fin 32) (s : State) : State :=
  if !gateOn s c then s
  else if (s.claim.tum[c]).hold && (s.claim.tum[c]).record.isNone then cutGate c s
  else followFall c s

/-- How one tumbler reacts to the claims (R259); a flag group does not end a hold (R261). -/
def tumReact (c : Fin 32) (s : State) : State :=
  let t := s.claim.tum[c]
  let own := ((s.lc t.src).claim).toNat
  let oth := ((s.lc (otherLane t.src)).claim).toNat
  if t.hold && modeRuns c s then s
  else if !tumRuns c s then modTum c (fun t => { t with
    hold := false, planned := false, record := none, src := if own < oth then otherLane t.src else t.src }) s
  else if own = 0 then
    followTum c (modTum c (fun t => { t with
      hold := true, planned := false,
      base := match chanGen c s with
        | none => s.now
        | some (_, x) => x.start }) s)
  else modTum c (fun t => { t with planned := decide (own < oth) }) s

/-- A change of the senior lane is marked in both lanes (R337); the spec gives the mark no source, and it carries the number
of SWITCHOVER (log entry 75). -/
def noteSenior (s : State) : State :=
  let l := seniorLane s
  if s.claim.senior = l then s
  else foldS lanes (fun m => recMark m s.raw 0 6 0 117 0) (modClaim (fun k => { k with senior := l }) s)

/-- Each tumbler reacts to the claims the lanes now drive (R259), HOLD and CLAIM_TIE being raised once per change; the window
exits are those of the lanes that have a claim (R134). -/
def claimChange (s : State) : State :=
  noteSenior (judgeClaims s)
where
  /-- The tumblers, the windows and the counters follow the claims. -/
  judgeClaims (s : State) : State :=
  if s.claim.seenA = s.claim.a.claim && s.claim.seenB = s.claim.b.claim then s
  else
    let held := fun (x : State) => (idx 32).any fun c => (x.claim.tum[c]).hold
    let fresh := (idx 32).any fun c => tumRuns c s && !(s.claim.tum[c]).hold && ((s.lc (s.claim.tum[c]).src).claim == 0)
    let tie := s.claim.a.claim == s.claim.b.claim && s.claim.a.claim != 0
    let s1 := foldS (idx 32) tumReact s
    let s2 := modClaim (fun k => { k with
      seenA := k.a.claim, seenB := k.b.claim, ties := if tie then satInc k.ties else k.ties }) s1
    foldS (idx 32) refreshWin (raiseIf tie .clm 6 (raiseIf (fresh && held s2) .clm 3 s2))

/-- The claims change. -/
def execClaimChange (s : State) : Out := .next (claimChange s)

/-- The tumblers that share the carrier boundary of a tumbler's generator. -/
def sameGen (ch : Fin 32) (s : State) : List (Fin 32) := (idx 32).filter fun c => tumGen c s == tumGen ch s

/-- The planned handover at the carrier boundary of the other lane's generator (R259). -/
def revertTumbler (ch : Fin 32) (s : State) : State :=
  let t := s.claim.tum[ch]
  if !t.planned then s
  else
    let at0 := match tumGen ch s with
      | none => s.now
      | some g => let x := (s.lane (otherLane t.src)).pwm.gen[g]; if x.on then x.start + periodLen x else s.now
    let s1 := elapseTo at0 s
    let s2 := foldS ((sameGen ch s).filter fun c => (s.claim.tum[c]).planned)
      (fun c x => followTum c (modTum c (fun t => { t with src := otherLane t.src, planned := false, record := none }) x)) s1
    noteSenior (raise .clm 5 (modClaim (fun k => { k with switches := satInc k.switches }) s2))

/-- A planned handover takes place. -/
def execRevert (ch : Fin 32) (s : State) : Out := .next (revertTumbler ch s)

/-- R76: no lane claims above 0x00 at the end of hold. -/
def lanesLost (s : State) : State := trigger (.stop 8 6) (settleGates (modGate (fun g => { g with allOff := true }) s))

/-- The length of the periods of a hold in steps: the recorded one, or without one that of the generator of its source (R260;
log entry 71). -/
def holdLen (c : Fin 32) (s : State) : Nat :=
  match (s.claim.tum[c]).record, chanGen c s with
  | some r, _ => r.len
  | none, some (_, x) => 32 * periodLen x
  | none, none => 0

/-- The HOLD_N-th replayed boundary of a tumbler (R76, R260). -/
def switchover (ch : Fin 32) (s : State) : State :=
  let t := s.claim.tum[ch]
  if !t.hold then s
  else
    let s1 := elapseTo (t.base + (s.claim.holdN.toNat * holdLen ch s + 31) / 32) s
    let mine := (sameGen ch s).filter fun c => (s.claim.tum[c]).hold
    let s2 := foldS mine (fun c x => match tumChoice (x.claim.tum[c]).src x with
      | none => modTum c (fun t => { t with hold := false }) x
      | some d => followTum c (modTum c (fun t => { t with hold := false, src := d, record := none }) x)) s1
    if (tumChoice t.src s1).isNone then lanesLost s2
    else
      let s3 := raise .clm 4 (modClaim (fun k => { k with switches := satInc k.switches }) s2)
      noteTrigs 117 (foldS lanes (fun l => recMark l s3.raw 0 6 0 117 0) { s3 with claim := { s3.claim with senior := seniorLane s3 } })

/-- A tumbler leaves hold. -/
def execSwitchover (ch : Fin 32) (s : State) : Out := .next (switchover ch s)

end Sys2Proof.Machine
end

