-- ==== Sys2Proof/Machine/Net.lean ====
section
/-! DEFINITION. Ethernet ports (R268 to R276): links, redundancy, frames received and sent, peer delay. -/

namespace Sys2Proof.Machine

/-- The network-port record of port 0. -/
def netRec (s : State) : List Byte := recD s 0x70 0

/-- One port changed. -/
def modPort (p : Fin 2) (f : NetPort → NetPort) (s : State) : State := modNet (fun n => { n with port := modAt n.port p f }) s

/-- A counter of a port raised by 1 (NET_CNTSEL.INDEX). -/
def countNet (p : Fin 2) (i : Nat) (s : State) : State :=
  modPort p (fun x => { x with cnt := put' x.cnt i (satInc (at' x.cnt i 0)) }) s

/-- A port is in use: port 0, and port 1 with redundancy (R269). -/
def portUsed (p : Fin 2) (s : State) : Bool := s.net.on && (p == 0 || s.net.mode != 0)

/-- The link of a port is up. -/
def linkUp (p : Fin 2) (s : State) : Bool := (s.net.port[p]).link && !s.net.stopped

/-- The other port. -/
def otherPort (p : Fin 2) : Fin 2 := if p = 0 then 1 else 0

/-! ### Links (R268, R269) -/

/-- The condition of R271 is judged anew: both links must be up for it. -/
def forgetHeard (s : State) : State := modNet (fun n => { n with heard := [], lanFault := none }) s

/-- The link of a port goes down: LINK_DOWN where it was up. -/
def dropLink (p : Fin 2) (s : State) : State :=
  raiseIf (s.net.port[p]).link .net 0 (modPort p (fun x => { x with link := false, speed := 0 }) (forgetHeard s))

/-- The medium and the SPEED of a port's record offer a speed (R268, R287): 1000BASE-X runs at 1000 Mbit/s alone. -/
def speedOffered (p : Fin 2) (speed : Fin 3) (s : State) : Bool :=
  let r := recD s 0x70 p.val
  speed != 0 && (u8 r 0 == 1 || speed == 2) && (u8 r 1 == 0 || u8 r 1 == speed.val)

/-- A link comes up or goes down (R268, R269): both ports run at one speed, and HSR at 1000 Mbit/s. -/
def linkChange (p : Fin 2) (up : Bool) (speed : Fin 3) (s : State) : State :=
  if !portUsed p s || s.net.stopped then s
  else if !up || !speedOffered p speed s then dropLink p s
  else
    let o := s.net.port[otherPort p]
    let bad := (s.net.mode == 2 && speed != 2) || (s.net.mode != 0 && o.link && o.speed != speed)
    if bad then raise .net 0 (modPort p (fun x => { x with link := false, speed := 0 }) (forgetHeard s))
    else modPort p (fun x => { x with link := true, speed := speed }) s

/-- A link changes. -/
def execLinkChange (p : Fin 2) (up : Bool) (speed : Fin 3) (s : State) : Out := .next (linkChange p up speed s)

/-! ### Frames sent (R269, R272, R274) -/

/-- The 802.1Q tag of a frame that leaves a port (R272): PTP and pennant-protocol frames carry the record's VLAN_PCP and
VLAN_ID, unless VLAN_ID is 0. -/
def vlanTag (p : Fin 2) (kind : Nat) (s : State) : Option Half :=
  let r := recD s 0x70 p.val
  if (kind == 3 || kind == 4) && u16 r 4 != 0 then some (BitVec.ofNat 16 (u8 r 3 % 8 * 8192 + u16 r 4 % 4096)) else none

/-- A frame leaves one port whose link is up. -/
def sendPort (p : Fin 2) (kind dst : Nat) (seq : Option Half) (payload : List Byte) (s : State) : State :=
  if linkUp p s then countNet p 1 (send (.eth p.val kind dst seq (vlanTag p kind s) payload) s) else s

/-- A frame is sent: on port 0, or on both ports with one sequence number (R269). -/
def sendNet (kind dst : Nat) (payload : List Byte) (s : State) : State :=
  if s.net.mode = 0 then sendPort 0 kind dst none payload s
  else
    let q := some s.net.txSeq
    modNet (fun n => { n with txSeq := n.txSeq + 1 }) (sendPort 1 kind dst q payload (sendPort 0 kind dst q payload s))

/-- The kinds of the periodic Pdelay_Req and supervision frames. -/
def tkPdelay : Nat := 25

/-- The kind of the periodic supervision frame. -/
def tkSuper : Nat := 26

/-- Every 2 s a supervision frame goes out in MODE 1 and MODE 2 (R269). -/
def execSupervisionTx (s : State) : Out :=
  .next (if s.net.on && s.net.mode ≠ 0 && !s.net.stopped then
    sendNet 5 0x01154E000100 (beBytes 6 s.net.mac.toNat) (periodic tkSuper (secs 2) s)
  else s)

/-- Every 1 s a Pdelay_Req goes out on each port with a link (R274). -/
def pdelayTx (s : State) : State :=
  if !s.net.on || s.net.stopped then s
  else
    foldS (idx 2) (fun p t =>
      if portUsed p t && linkUp p t then
        modPort p (fun x => { x with pdelaySeq := x.pdelaySeq + 1 })
          (sendPort p 4 0x0180C200000E none (beBytes 2 (t.net.port[p]).pdelaySeq.toNat) t)
      else t) (periodic tkPdelay (secs 1) s)

/-- Pdelay_Req goes out. -/
def execPdelayTx (s : State) : Out := .next (pdelayTx s)

/-- A latency of the record of a port, 0.1 ns, in 78.125 ps steps. -/
def latSteps (p : Fin 2) (off : Nat) (s : State) : Int := ((u16 (recD s 0x70 p.val) off * 32 / 25 : Nat) : Int)

/-- A peer-delay exchange is complete (R274, R275): INGRESS_LAT is taken from the receive stamp, EGRESS_LAT added to the
transmit stamp. -/
def pdelayResp (p : Fin 2) (t1 t2 t3 t4 : Int) (s : State) : State :=
  if !linkUp p s then s
  else
    let d := ((t4 - latSteps p 6 s) - (t1 + latSteps p 8 s) - (t3 - t2)) / 2
    modPort p (fun x => { x with peerDelay := d }) s

/-- A peer-delay response arrives. -/
def execPdelayRespRx (p : Fin 2) (t1 t2 t3 t4 : Int) (s : State) : Out := .next (pdelayResp p t1 t2 t3 t4 s)

/-! ### Duplicates (R270, R271) -/

/-- The distance of a sequence number behind the newest of its source. -/
def seqBehind (e : DupEntry) (q : Half) : Nat := (e.last - q).toNat

/-- A sequence number lies in the window of its source and has been received (R270). -/
def seqSeen (e : DupEntry) (q : Half) : Bool := decide (seqBehind e q < 64) && bit e.window (seqBehind e q)

/-- A new sequence number enters the window. -/
def seqTake (e : DupEntry) (q : Half) : DupEntry :=
  let ahead := (q - e.last).toNat
  if seqBehind e q < 64 then { e with window := putBit e.window (seqBehind e q) true }
  else if ahead < 0x8000 then { e with last := q, window := (e.window <<< ahead) ||| 1#64 }
  else { e with last := q, window := 1 }

/-- The entry heard least recently. -/
def oldestEntry (es : List DupEntry) : Option DupEntry :=
  es.foldl (fun best e => match best with
    | none => some e
    | some b => if e.heardAt < b.heardAt then some e else some b) none

/-- The entries that received nothing for 400 ms are forgotten (R270). -/
def dupForget (s : State) : State :=
  modNet (fun n => { n with dup := n.dup.filter fun e => decide (s.now < e.heardAt + ms 400) }) s

/-- A tagged frame passes the duplicate table (R270): whether it is a duplicate. -/
def dupCheck (p : Fin 2) (src : BitVec 48) (q : Half) (s0 : State) : Bool × State :=
  let s := dupForget s0
  match s.net.dup.find? fun e => e.src == src with
  | some e =>
    let seen := seqSeen e q
    let e' := { if seen then e else seqTake e q with heardAt := s.now, port := p }
    (seen, modNet (fun n => { n with dup := n.dup.map fun x => if x.src = src then e' else x }) s)
  | none =>
    let e : DupEntry := { src := src, last := q, window := 1, heardAt := s.now, port := p }
    if s.net.dup.length < 512 then (false, modNet (fun n => { n with dup := n.dup ++ [e] }) s)
    else match oldestEntry s.net.dup with
      | none => (false, s)
      | some o =>
        (false, raise .net 2 (countNet p 9 (modNet (fun n => { n with
          dup := n.dup.filter (fun x => x.src != o.src) ++ [e] }) s)))

/-- An entry that receives nothing for 400 ms is forgotten (R270). -/
def execDupEntryExpire (src : BitVec 48) (s : State) : Out :=
  .next (match s.net.dup.find? fun e => e.src == src with
    | none => s
    | some e => modNet (fun n => { n with dup := n.dup.filter fun x => x.src != src }) (elapseTo (e.heardAt + ms 400) s))

/-- A supervision interval (R269). -/
def superTicks : Nat := secs 2

/-- A frame of a source arrives in MODE 1 while both links are up (R271): heard on the other port, or after an interval of
silence, the source begins anew and no longer sets LAN_FAULT. -/
def hearLan (p : Fin 2) (src : BitVec 48) (s : State) : State :=
  if s.net.mode ≠ 1 || !linkUp 0 s || !linkUp 1 s then s
  else
    let live := s.net.heard.filter fun e => decide (s.now ≤ e.lastAt + superTicks)
    let others := live.filter fun e => e.src != src
    let same := live.find? fun e => e.src == src && e.port == p
    let since := match same with
      | none => s.now
      | some x => x.since
    let e : LanHeard := ⟨src, p, since, s.now⟩
    let heard := if same.isNone then none else s.net.lanFault
    modNet (fun n => { n with
      heard := others ++ [e],
      lanFault := match n.lanFault with
        | none => none
        | some f => if f = src then heard else if live.any (fun x => x.src == f) then some f else none }) s

/-- A source has been heard on one port only for 3 supervision intervals, both links up, in MODE 1 (R271). -/
def lanSilent (src : BitVec 48) (s : State) : State :=
  match s.net.heard.find? fun e => e.src == src with
  | none => s
  | some e =>
    if s.net.mode ≠ 1 || !linkUp 0 s || !linkUp 1 s || s.net.lanFault == some src
        || decide (e.lastAt < e.since + 2 * superTicks) then s
    else
      let s1 := elapseTo (e.since + 3 * superTicks) s
      if e.lastAt + superTicks < s1.now then s1
      else raise .net 1 (countNet e.port 5 (modNet (fun n => { n with lanFault := some src }) s1))

/-- A source is missing on one LAN. -/
def execLanFault (src : BitVec 48) (s : State) : Out := .next (lanSilent src s)

/-! ### Frames received (R268 to R272, R276) -/

/-- The correctionField of a forwarded Sync or Follow_Up grows by the residence time, which is open (log entry 4), and
the peer delay of the link it arrived on (R276). -/
def correctPtp (p : Fin 2) (bs : List Byte) (s : State) : List Byte × State :=
  let kind := u8 bs 0 % 16
  let twoStep := u8 bs 6 / 2 % 2 == 1
  if bs.length < 16 || !((kind == 0 && !twoStep) || kind == 8) then (bs, s)
  else
    let (n, s1) := takeFree s
    let add : Int := ((n % 2 ^ 32 : Nat) : Int) + (s.net.port[p]).peerDelay * 5120
    let c := BitVec.ofInt 64 ((beNat (slice bs 8 8) : Int) + add)
    (bs.take 8 ++ beBytes 8 c.toNat ++ bs.drop 16, s1)

/-- A frame is addressed to the module: its own address, or a group address. -/
def forUs (f : EthFrame) (s : State) : Bool := f.dst == s.net.mac || bit f.dst 40

/-- A frame is forwarded in HSR to the other port (R271, R276). -/
def forwardRing (p : Fin 2) (f : EthFrame) (s : State) : State :=
  let o := otherPort p
  if s.net.mode ≠ 2 || f.dst == s.net.mac || !linkUp o s then s
  else
    let (bs, s1) := if f.kind = 4 then correctPtp p f.payload s else (f.payload, s)
    countNet o 6 (sendPort o 6 f.dst.toNat f.seq bs s1)

/-- A datagram that the module serves: the pennant protocol, and the frames of a connection over Ethernet from its peer's
address, first octet in byte 0 (R272, R330). -/
def udpServed (port : Half) (ipSrc : Word) (s : State) : Bool :=
  port == 50114 || (List.range 8).any fun k =>
    let r := recD s 0xA0 0
    u8 r (64 + 16 * k) == 1 && u32 r (72 + 16 * k) == port.toNat
      && beNat (slice r (76 + 16 * k) 4) == ipSrc.toNat

/-- The ARP reply to a request for the module's address (R272); a request for another address gets none. -/
def arpReply (f : EthFrame) (s : State) : State :=
  if beNat (slice f.payload 24 4) ≠ s.net.ip.toNat then s
  else sendNet 1 f.src.toNat (f.payload.take 6 ++ [0, 2] ++ beBytes 6 s.net.mac.toNat ++ beBytes 4 s.net.ip.toNat
    ++ slice f.payload 8 10) s

/-- A received frame is served by its type (R272); requests, safety frames and PTP messages have rows of their own. -/
def serveFrame (p : Fin 2) (f : EthFrame) (s : State) : State :=
  if !forUs f s then s
  else match f.kind with
    | 1 => arpReply f s
    | 2 => sendNet 2 f.src.toNat f.payload s
    | 3 => if udpServed f.udpPort f.ipSrc s then s else countNet p 8 s
    | 4 => countNet p 7 s
    | _ => s

/-- An Ethernet frame is received (R268, R270 to R272). -/
def ethFrameRx (p : Fin 2) (f : EthFrame) (s : State) : State :=
  if !portUsed p s || !linkUp p s then s
  else if 1528 < f.lenBytes || !f.fcsOk then countNet p 2 s
  else
    let s2 := hearLan p f.src (countNet p 0 s)
    if s.net.mode = 0 then serveFrame p f s2
    else if s.net.mode = 2 && f.src == s.net.mac then s2
    else match f.seq with
      | none => serveFrame p f (countNet p 4 (forwardRing p f s2))
      | some q =>
        if s.net.mode = 1 && f.kind = 4 then serveFrame p f s2
        else
          let (d, s3) := dupCheck p f.src q s2
          if d then countNet p 3 s3 else serveFrame p f (forwardRing p f s3)

/-- An Ethernet frame is received. -/
def execEthFrameRx (p : Fin 2) (f : EthFrame) (s : State) : Out := .next (ethFrameRx p f s)

/-! ### Start and stop (R269, R273, R286) -/

/-- The ports as step 14 of a start leaves them. -/
def netStart (s : State) : State :=
  let p := netRec s
  let mac := beNat (slice p 24 6)
  if !hasRec s 0x70 0 then s
  else modNet (fun n => { n with
    on := true, mode := Fin.ofNat 4 (u8 p 2), mac := if mac = 0 then Config.factoryMac else BitVec.ofNat 48 mac,
    ip := BitVec.ofNat 32 (beNat (slice p 12 4)) }) s

/-- The ports stop, or restart, with the NET islands (R273). -/
def netStopped (b : Bool) (s : State) : State :=
  if s.net.stopped = b || !s.net.on then s
  else if b then
    raise .net 3 (modNet (fun n => { n with
      stopped := true, heard := [], lanFault := none, port := n.port.map fun x => { x with link := false, speed := 0 } }) s)
  else modNet (fun n => { n with stopped := false }) s

end Sys2Proof.Machine
end

