-- ==== Sys2Proof/Machine/Time.lean ====
section
/-! DEFINITION. Time domains, the servo, selection, PPS and the conversion unit (R274 to R288). -/

namespace Sys2Proof.Machine

/-- One domain changed. -/
def modDom (k : Fin 2) (f : TimeDomain → TimeDomain) (s : State) : State :=
  modTime (fun t => { t with dom := modAt t.dom k f }) s

/-- The other domain. -/
def otherDom (k : Fin 2) : Fin 2 := if k = 0 then 1 else 0

/-- The state code of a domain (R279). -/
def domState (k : Fin 2) (s : State) : Nat := ((s.time.dom[k]).state).val

/-- A step of the timeline is allowed: M0 to M3 and M11 (R280, R281). -/
def stepOk (s : State) : Bool := decide (s.md ≤ 3) || s.md == 11

/-- Sixty-four seconds of the raw counter (R284). -/
def keepTicks : Nat := secs 64

/-- Earlier anchors that the conversion unit still keeps. -/
def prune {α : Type} (raw : Long) (h : List (Long × α)) : List (Long × α) :=
  h.filter fun x => decide (raw.toNat ≤ x.1.toNat + keepTicks)

/-- A domain is re-anchored at the present raw value (R278): its time moves by `move` ns and its rate becomes `rate`. -/
def reanchor (k : Fin 2) (move : Int) (rate : Int) (s : State) : State :=
  modDom k (fun d => { d with
    history := (s.raw, d.anchor) :: prune s.raw d.history,
    anchor := { raw := s.raw, t := d.anchor.at s.raw + move * nsUnit, rate := rate } }) s

/-- ±200 ppm in units of 2⁻⁴⁰ (R278). -/
def rateLimit : Nat := 219902325

/-- The servo's new RATE is a free value within ±200 ppm (R278, R280; log entry 4). -/
def freeRate (s : State) : Int × State :=
  let (n, s1) := takeFree s
  ((n % (2 * rateLimit + 1) : Nat) - (rateLimit : Int), s1)

/-! ### Selection (R281) -/

/-- The residual becomes r; the selection and the residual up to now are kept for conversions. -/
def setResid (k : Fin 2) (r : Int) (s : State) : State :=
  modTime (fun t => { t with
    selHistory := (s.raw, t.sel, t.resid, t.residAt) :: prune s.raw t.selHistory,
    sel := k, resid := r, residAt := s.raw }) s

/-- The residual is set to 0 at once: a step of the timeline where it was not 0 (R281, R285). -/
def zeroResid (s : State) : State :=
  if residNow s = 0 then s else realign (setResid s.time.sel 0 s)

/-- A domain is selected (R281): R keeps the timeline where it stood; where a step is allowed R is set to 0 at once. -/
def selectDom (k : Fin 2) (s : State) : State :=
  if s.time.sel = k then s
  else
    let s1 := raise .time 0 (setResid k (timelineNow s - domNow k s) s)
    if stepOk s then zeroResid s1 else s1

/-- The selection is judged again (R281). -/
def reselect (s : State) : State :=
  match s.time.force.toNat with
  | 1 => selectDom 0 s
  | 2 => selectDom 1 s
  | _ =>
    let o := otherDom s.time.sel
    if domState s.time.sel s ≠ 3 && domState o s == 3 then selectDom o s else s

/-! ### The proof interval (R325) -/

/-- The days of PROOF_D in seconds. -/
def proofSecs (s : State) : Nat := 86400 * u16 (recD s 0xA0 0) 10

/-- A domain is locked with a UTC offset from its master. -/
def utcLocked (s : State) : Bool := (idx 2).any fun k => domState k s == 3 && (s.time.dom[k]).utcValid

/-- A test that is due for a power cycle is settled once a domain is locked with UTC_VALID and a passed test of this
safety record lies within PROOF_D days of the selected domain's present time (R325). -/
def proofCheck (s : State) : State :=
  let now : Int := (secOf (domNow s.time.sel s)).toNat
  let within := match s.plk.passedSec with
    | none => false
    | some p => decide ((now - (p : Int)).natAbs ≤ proofSecs s)
  if s.plk.testDue && s.plk.testCause == 3 && utcLocked s && s.plk.passedRec == some (recD s 0xA0 0) && within then
    modPlk (fun p => { p with testDue := false, testCause := 0 }) s
  else s

/-! ### States of a domain and its servo (R279, R280) -/

/-- A domain acquires a source. -/
def acquire (k : Fin 2) (s : State) : State :=
  reselect (modDom k (fun d => { d with state := 2, good := 0, bad := 0 }) s)

/-- A domain locks (R279). -/
def lockDom (k : Fin 2) (s : State) : State :=
  proofCheck (reselect (raise .time 3 (modDom k (fun d => { d with state := 3, bad := 0, lockedAt := s.now }) s)))

/-- A domain that follows a source enters holdover (R279): it keeps its RATE. -/
def holdoverDom (k : Fin 2) (s : State) : State :=
  if domState k s = 2 || domState k s = 3 then
    reselect (raise .time 2 (modDom k (fun d => { d with state := 4, good := 0, bad := 0, deferred := false }) s))
  else s

/-- A measured offset is corrected (R280): a step where one is allowed, else the servo slews; a step of the selected
domain that a switching bridge holds back raises STEP_DEFERRED once. -/
def correct (k : Fin 2) (off : Int) (s : State) : State :=
  let d := s.time.dom[k]
  let large := decide (s.time.stepThr < off.natAbs)
  if large && (s.time.sel ≠ k || stepOk s) then
    let s1 := raise .time 4 (modDom k (fun x => { x with deferred := false }) (reanchor k (-off) d.anchor.rate s))
    if s.time.sel = k then realign s1 else s1
  else
    let (r, s1) := freeRate s
    let s2 := reanchor k 0 r s1
    let s3 := raiseIf (large && !d.deferred) .time 6 s2
    modDom k (fun x => { x with deferred := large }) s3

/-- An offset within 1 µs counts toward a lock, and one beyond 10 µs toward its loss (R279). -/
def judge (k : Fin 2) (off : Int) (s : State) : State :=
  let s1 := modDom k (fun d => { d with
    good := if off.natAbs ≤ 1000 then d.good + 1 else 0,
    bad := if 10000 < off.natAbs then d.bad + 1 else 0 }) s
  let d := s1.time.dom[k]
  if d.state = 2 && decide (4 ≤ d.good) then lockDom k s1
  else if d.state = 3 && decide (2 ≤ d.bad) then acquire k s1
  else s1

/-- A measured offset of a domain, in ns: stored, corrected and judged (R279, R280). -/
def servo (k : Fin 2) (off : Int) (s : State) : State :=
  judge k off (correct k off (modDom k (fun d => { d with offset := off, lastSync := s.raw }) s))

/-- A Sync of a domain's master is received on a port (R274, R279). -/
def ptpSyncRx (k p : Fin 2) (off : Int) (s : State) : State :=
  let d := s.time.dom[k]
  if !linkUp p s || d.source ≠ 1 || (d.state ≠ 2 && d.state ≠ 3) || (s.net.mode == 1 && d.port ≠ p) then s
  else servo k off s

/-- A Sync message is received. -/
def execPtpSyncRx (k : Fin 2) (p : Fin 2) (offsetNs : Int) (s : State) : Out := .next (ptpSyncRx k p offsetNs s)

/-! ### Announce and the best master (R274) -/

/-- The key of the data-set comparison, the better one first (R274; log entry 53). -/
def announceKey (a : Announce) : List Nat :=
  [a.prio1.toNat, a.clockClass.toNat, a.accuracy.toNat, a.variance.toNat, a.prio2.toNat, a.gmId.toNat, a.steps.toNat]

/-- The first list comes before the second one. -/
def lexLt : List Nat → List Nat → Bool
  | x :: xs, y :: ys => if x = y then lexLt xs ys else decide (x < y)
  | _, _ => false

/-- A master's data set is taken over. -/
def takeMaster (k p : Fin 2) (a : Announce) (s : State) : State :=
  modDom k (fun d => { d with
    master := some a, announceAt := s.now, port := p, gmId := a.gmId, utcOffset := a.utcOffset, utcValid := a.utcValid }) s

/-- An Announce of a domain is received on a port (R274, R279): the first one qualifies its master, a better master
changes the grandmaster, and one heard in holdover brings the source back. -/
def ptpAnnounceRx (k p : Fin 2) (a : Announce) (s : State) : State :=
  let d := s.time.dom[k]
  if !linkUp p s || d.source ≠ 1 then s
  else match d.master with
    | none => acquire k (takeMaster k p a s)
    | some m =>
      if m.gmId = a.gmId then
        if d.state = 4 then acquire k (takeMaster k p a s)
        else if s.net.mode == 1 && d.port ≠ p then s
        else proofCheck (takeMaster k p a s)
      else if d.state = 4 || lexLt (announceKey a) (announceKey m) then
        acquire k (raise .time 1 (takeMaster k p a s))
      else s

/-- An Announce is received. -/
def execPtpAnnounceRx (k : Fin 2) (p : Fin 2) (ann : Announce) (s : State) : Out := .next (ptpAnnounceRx k p ann s)

/-- An announce interval in ticks (R274). -/
def announceTicks (logInterval : Int) : Nat :=
  if 0 ≤ logInterval then secs (2 ^ logInterval.toNat) else secs 1 / 2 ^ (-logInterval).toNat

/-- The announce receipt timeout of a domain: 3 announce intervals after its master's last Announce (R274, R279). -/
def announceTimeout (k : Fin 2) (s : State) : State :=
  let d := s.time.dom[k]
  match d.master with
  | none => s
  | some m =>
    if d.source ≠ 1 || (d.state ≠ 2 && d.state ≠ 3) then s
    else holdoverDom k (elapseTo (d.announceAt + 3 * announceTicks m.logInterval) s)

/-- The announce receipt timeout. -/
def execAnnounceTimeout (k : Fin 2) (s : State) : Out := .next (announceTimeout k s)

/-- Every PTP domain enters holdover with the ports (R273). -/
def ptpHoldover (s : State) : State :=
  foldS (idx 2) (fun k t => if (t.time.dom[k]).source = 1 then holdoverDom k t else t) s

/-- D0 has been locked for REVERT_S and is selected again (R281). -/
def domainRevert (s : State) : State :=
  let d := s.time.dom[(0 : Fin 2)]
  if s.time.force = 0 && !s.time.noRevert && s.time.sel == 1 && d.state == 3 then
    selectDom 0 (elapseTo (d.lockedAt + secs s.time.revertS) s)
  else s

/-- The selection reverts to D0. -/
def execDomainRevert (s : State) : Out := .next (domainRevert s)

/-! ### PPS (R282) -/

/-- A pulse of PPS_IN: it marks 0 ns of the second of TIME_PPSSEC, and its stamp is interpolated within the raw tick by
a free value of 0 to 31 steps of 78.125 ps (R275, R277; log entry 4). -/
def ppsEdge (s0 : State) : State :=
  let s := modTime (fun t => { t with ppsAt := s0.now }) (modClock (fun c => { c with pps := s0.power.powered }) s0)
  let d := s.time.dom[(1 : Fin 2)]
  if d.source ≠ 2 then s
  else
    let (n, s1) := takeFree s
    let t := domNow 1 s1 + ((n % 32 : Nat) : Int) * 5 * (1099511627776 + d.anchor.rate) / 32
    let off := toNs t - (s.time.ppsSec.toNat : Int) * 1000000000
    let s2 := modTime (fun x => { x with ppsSec := x.ppsSec + 1#32 }) s1
    let s3 := if d.state = 1 || d.state = 4 then acquire 1 s2 else s2
    servo 1 off s3

/-- A rising edge of PPS_IN. -/
def execPpsEdge (s : State) : Out := .next (ppsEdge s)

/-- PPS_IN is lost (R51, R279). -/
def ppsHoldover (s : State) : State := if (s.time.dom[(1 : Fin 2)]).source = 2 then holdoverDom 1 s else s

/-- TIME_PPSSEC is written with the key gate open. -/
def execTimePpssecWrite (m : Master) (v : Word) (s : State) : Out :=
  byMaster m s (rwkWrite m 0x7012C (modTime fun t => { t with ppsSec := v }))

/-! ### Registers of the time block (R281, R283, R284) -/

/-- TIME_CTL takes a value; FORCE 3 is discarded (R288). -/
def setTimeCtl (v : Word) (s : State) : State :=
  if fld v 0 2 = 3 then s
  else reselect (modTime (fun t => { t with force := BitVec.ofNat 2 (fld v 0 2), noRevert := bit v 4 }) s)

/-- TIME_CTL is written with the key gate open. -/
def execTimeCtlWrite (m : Master) (v : Word) (s : State) : Out := byMaster m s (rwkWrite m 0x70108 (setTimeCtl v))

/-- The time that TIME_SECLO (0), D0_SECLO (1) and D1_SECLO (2) read (R283). -/
def timeOf (which : Nat) (s : State) : Int :=
  match which with
  | 0 => timelineNow s
  | 1 => domNow 0 s
  | _ => domNow 1 s

/-- A read of TIME_SECLO, D0_SECLO, D1_SECLO or TIME_RAWLO latches its partners (R283, R288). -/
def timeLatch (which : Fin 4) (s : State) : State :=
  if which = 3 then modTime (fun t => { t with rawHi := BitVec.ofNat 32 (s.raw.toNat / 2 ^ 32) }) s
  else
    let t := timeOf which.val s
    modTime (fun x => { x with
      secHi := put' x.secHi which.val (BitVec.ofNat 16 ((secOf t).toNat / 2 ^ 32)),
      nsec := put' x.nsec which.val (nsecOf t) }) s

/-- A latching read. -/
def execTimeLatchRead (which : Fin 4) (s : State) : Out := .next (timeLatch which s)

/-- TIME_CVCTL starts a conversion and clears DONE; DOM 3 is discarded (R284, R288). -/
def cvStart (v : Word) (s : State) : State :=
  if fld v 0 2 = 3 then s
  else modTime (fun t => { t with cvBusy := some (Fin.ofNat 3 (fld v 0 2)), cvAt := s.now, cvDone := false }) s

/-- TIME_CVCTL is written. -/
def execTimeCvctl (v : Word) (s : State) : Out := .next (cvStart v s)

/-- What held at a raw value: the oldest earlier item that held beyond it, else the present one (R284). -/
def heldAt {α : Type} (v : Long) (now : α) (h : List (Long × α)) : α :=
  h.foldl (fun acc x => if v.toNat < x.1.toNat then x.2 else acc) now

/-- A domain's time at a raw value, from the anchor that held there, or from the present one (R284). -/
def domAt (k : Fin 2) (v : Long) (old : Bool) (s : State) : Int :=
  let d := s.time.dom[k]
  (if old then d.anchor else heldAt v d.anchor d.history).at v

/-- The timeline at a raw value: the domain selected there plus the residual of that time (R281, R284). -/
def timelineAt (v : Long) (old : Bool) (s : State) : Int :=
  let now := (s.time.sel, s.time.resid, s.time.residAt)
  let (k, r, a) := if old then now else heldAt v now s.time.selHistory
  domAt k v old s + (if a.toNat ≤ v.toNat then residAfter r a v s.time.slewMax else r)

/-- The conversion in progress completes within 1 µs, at a time the spec leaves open (R284; log entry 4): values older
than 64 s and future ones set OLD. -/
def cvFinish (s0 : State) : State :=
  match s0.time.cvBusy with
  | none => s0
  | some k =>
    let (n, sf) := takeFree s0
    let s := elapseTo (s0.time.cvAt + n % (us 1 + 1)) sf
    let v := s.time.cvRaw
    let old := decide (s.raw.toNat < v.toNat ∨ v.toNat + keepTicks < s.raw.toNat)
    let t := if k = 0 then domAt 0 v old s else if k = 1 then domAt 1 v old s else timelineAt v old s
    modTime (fun x => { x with
      cvBusy := none, cvDone := true, cvOld := old, cvSec := secOf t, cvNsec := nsecOf t }) s

/-- The conversion result appears. -/
def execConversionDone (s : State) : Out := .next (cvFinish s)

/-! ### Start and mode changes (R278, R280, R281) -/

/-- The domains at every start: Off or Free-running by SRC, on the raw counter (R278, R279). -/
def timeStart (s : State) : State :=
  let p := recD s 0x71 0
  let dom (k : Nat) : TimeDomain := {
    state := if u8 p k = 0 then 0 else 1, source := Fin.ofNat 3 (u8 p k),
    domain := BitVec.ofNat 8 (u8 p (2 + k)) }
  modTime (fun t => { t with
    dom := #v[dom 0, dom 1], sel := 0, resid := 0, residAt := s.raw, selHistory := [],
    stepThr := if hasRec s 0x71 0 then u32 p 4 else t.stepThr,
    slewMax := if u16 p 8 = 0 then 1000 else u16 p 8,
    revertS := if u16 p 10 = 0 then 60 else u16 p 10 }) s

/-- Entry into M3 or M11 (R280, R281): the residual goes to 0, and an offset still beyond STEP_THR is stepped. -/
def timeModeEntry (s : State) : State :=
  if !inStop s then s
  else
    let s1 := zeroResid s
    let k := s1.time.sel
    let d := s1.time.dom[k]
    if d.deferred then correct k d.offset s1 else s1

end Sys2Proof.Machine
end

