-- ==== Sys2Proof/Machine/Can.lean ====
section
/-! DEFINITION. The CAN FD ports (R289 to R302). -/

namespace Sys2Proof.Machine

/-- The event register of a port. -/
def canReg (p : Fin 2) : EvReg := if p = 0 then .can0 else .can1

/-- The CAN-port record of a port. -/
def canRecord (p : Fin 2) (s : State) : List Byte := recD s 0x78 p.val

/-- FLAGS bits of the record: 0 FD_EN, 3 AUTO_REC, 4 start in MODE 1. -/
def canFlag (p : Fin 2) (k : Nat) (s : State) : Bool := (u8 (canRecord p s) 10).testBit k

/-- The port runs in M3 to M11 with a record, unless it failed its start (R77). -/
def canOn (p : Fin 2) (s : State) : Bool :=
  hasRec s 0x78 p.val && decide (3 ≤ s.md) && !(s.can[p]).absent

/-- The nominal bit time at 125, 250, 500, 800 and 1000 kbit/s, in ticks. -/
def rateTicks (r : Nat) : Nat := [3200, 1600, 800, 500, 400].getD r 400

/-- The nominal bit time in ticks (R290, R295): of the rate being tried or found in MODE 2, of a detected rate in force, else
of the record. -/
def canBitTicks (p : Fin 2) (s : State) : Nat :=
  let c := s.can[p]
  let r := canRecord p s
  if c.mode = 2 then rateTicks c.tryRate.val
  else if c.rate ≠ 0 then rateTicks (c.rate.val - 1)
  else u8 r 0 * (1 + u16 r 2 + u8 r 4) * 10

/-- A transmit buffer changed. -/
def modBuf (p : Fin 2) (b : Fin 8) (f : CanTx → CanTx) (s : State) : State :=
  modCan p (fun c => { c with buf := modAt c.buf b f }) s

/-- What arbitration compares, the winner lowest: the base identifier, IDE, then the extension. -/
def arbKey (hdr info : Word) : Nat :=
  if bit info 12 then fld hdr 18 11 * 2 ^ 19 + 2 ^ 18 + fld hdr 0 18 else fld hdr 0 11 * 2 ^ 19

/-- The pending buffer that wins arbitration, the lower index between equal frames (R294). -/
def canWinner (c : CanState) : Option (Fin 8) :=
  ((idx 8).filter fun b => (c.buf[b]).pend).foldl (fun best b =>
    match best with
    | none => some b
    | some a =>
      if arbKey (c.buf[b]).hdr (c.buf[b]).info < arbKey (c.buf[a]).hdr (c.buf[a]).info then some b else some a) none

/-- An attempt starts where the port may send and none runs (R294; log entry 54). -/
def canAttempt (p : Fin 2) (s : State) : State :=
  modCan p (fun c =>
    if c.onBus.isNone && c.mode == 0 && (c.state == 2 || c.state == 3) then { c with onBus := canWinner c } else c) s

/-- The error state that the counters give (R296; log entry 55). -/
def canErrState (c : CanState) : Fin 6 :=
  if 256 ≤ c.txErr then 4 else if 128 ≤ c.txErr || 128 ≤ c.rxErr then 3 else 2

/-- The port takes the error state of its counters: CAN_PASSIVE and CAN_BUSOFF at their entry. -/
def canSettle (p : Fin 2) (s : State) : State :=
  let old := (s.can[p]).state
  let new := canErrState s.can[p]
  let s1 := modCan p (fun c => { c with
    state := new, onBus := if new = 4 then none else c.onBus,
    waitFrom := if new = 4 && old ≠ 4 then s.now else c.waitFrom }) s
  raiseIf (new == 4 && old != 4) (canReg p) 3 (raiseIf (new == 3 && old != 3 && old != 4) (canReg p) 2 s1)

/-- A buffer leaves the queue unsent: aborted, or RETX reached. -/
def canFail (p : Fin 2) (b : Fin 8) (s : State) : State :=
  modBuf p b (fun x => { x with pend := false, failed := true, abort := false }) s

/-- Payload bytes of a frame by its DLC. -/
def dlcLen (fdf : Bool) (dlc : Nat) : Nat :=
  if dlc ≤ 8 then dlc
  else if !fdf then 8
  else match dlc with
    | 9 => 12 | 10 => 16 | 11 => 20 | 12 => 24 | 13 => 32 | 14 => 48 | _ => 64

/-- The stamp of a start of frame: a raw value up to the present one that no operand gives (R293; log entry 4). -/
def sofStamp (s : State) : Long × State :=
  let (n, s1) := takeFree s
  (BitVec.ofNat 64 (n % (s.raw.toNat + 1)), s1)

/-! ### Receiving (R292, R293, R295, R330) -/

/-- A frame is a safety command of a connection on this port (R330). -/
def canSafety (p : Fin 2) (f : CanFrame) (s : State) : Bool :=
  f.fdf && f.dlc == 11 && (List.range 8).any fun k =>
    let r := recD s 0xA0 0
    u8 r (64 + 16 * k) == 2 + p.val && u32 r (72 + 16 * k) == f.id.toNat + b2n f.ide * 2 ^ 31

/-- The first filter that a frame matches (R292). -/
def canFilter (p : Fin 2) (f : CanFrame) (s : State) : Option Nat :=
  let r := canRecord p s
  if u8 r 12 = 0 then some 0
  else (List.range (u8 r 12)).find? fun k =>
    let i := u32 r (16 + 8 * k)
    (Nat.land (Nat.xor f.id.toNat (i % 2 ^ 29)) (u32 r (20 + 8 * k))) == 0 && f.ide == decide (2 ^ 31 ≤ i)

/-- A frame enters the FIFO, or is lost to a full one. -/
def canStore (p : Fin 2) (f : CanFrame) (k : Nat) (stamp : Long) (s : State) : State :=
  if 64 ≤ ((s.can[p]).rx).length then
    raise (canReg p) 1 (modCan p (fun c => { c with ovf := satInc c.ovf }) s)
  else
    modCan p (fun c => { c with rx := c.rx ++ [{
      frame := { f with data := f.data.take (dlcLen f.fdf f.dlc.toNat) },
      filter := BitVec.ofNat 4 k, stamp := stamp }] }) s

/-- REC after a frame received without error: a value from 119 to 127 where it was above 127 (log entries 4 and 55). -/
def recGood (p : Fin 2) (s : State) : State :=
  let r := (s.can[p]).rxErr
  if r ≤ 127 then modCan p (fun c => { c with rxErr := r - 1 }) s
  else
    let (n, s1) := takeFree s
    modCan p (fun c => { c with rxErr := 119 + n % 9 }) s1

/-- A rate is found (R295). -/
def canFound (p : Fin 2) (s : State) : State :=
  if (s.can[p]).mode = 2 && !(s.can[p]).found then
    raise (canReg p) 6 (modCan p (fun c => { c with found := true, detRate := Fin.ofNat 6 (c.tryRate.val + 1) }) s)
  else s

/-- An attempt that a frame of another node has ended: an aborted buffer is not retried. -/
def canLost (p : Fin 2) (s : State) : State :=
  match (s.can[p]).onBus with
  | none => s
  | some b =>
    let s1 := modCan p (fun c => { c with onBus := none }) s
    if ((s.can[p]).buf[b]).abort then canFail p b s1 else s1

/-- A frame is received without error. -/
def canFrameRx (p : Fin 2) (f : CanFrame) (s : State) : State :=
  let c := s.can[p]
  let listens := c.state == 2 || c.state == 3 || (c.mode == 2 && c.state == 1)
  if !canOn p s || !listens then s
  else
    let s1 := canFound p (canLost p (recGood p s))
    let s2 := modCan p (fun c => { c with ackRun := 0, alone := false }) s1
    let s3 := if c.state = 1 then s2 else canSettle p s2
    let s4 :=
      if (f.rtr && !f.fdf) || canSafety p f s then s3
      else match canFilter p f s with
        | none => s3
        | some k =>
          let (t, s5) := sofStamp s3
          canStore p f k t s5
    canAttempt p s4

/-- A CAN frame is received. -/
def execCanFrameRx (p : Fin 2) (f : CanFrame) (s : State) : Out := .next (canFrameRx p f s)

/-- The oldest frame of the FIFO is released (R292). -/
def execCanRxpop (p : Fin 2) (s : State) : Out := .next (modCan p (fun c => { c with rx := c.rx.drop 1 }) s)

/-! ### Transmitting (R293, R294, R296 to R298) -/

/-- The buffer's frame is sent: its stamp, TX_DONE, the counters, and the next attempt. -/
def canTxDone (p : Fin 2) (b : Fin 8) (s : State) : State :=
  let c := s.can[p]
  if c.onBus ≠ some b then s
  else
    let x := c.buf[b]
    let info := if c.state = 3 then x.info else putBit x.info 9 false
    let n := dlcLen (bit x.info 11) (fld x.info 0 4)
    let (t, s1) := sofStamp s
    let s2 := modBuf p b (fun x => { x with pend := false, done := true, stamp := t, abort := false }) s1
    let s3 := modCan p (fun c => { c with txErr := c.txErr - 1, ackRun := 0, alone := false, onBus := none }) s2
    let s4 := send (.can p.val x.hdr info ((ofWords x.data.toList).take n)) s3
    let s5 := opEvent 7 p.val b.val (wd t.toNat, wd (t.toNat / 2 ^ 32)) [] s4
    canAttempt p (raise (canReg p) 0 (canSettle p s5))

/-- A buffer is sent. -/
def execCanTxDone (p : Fin 2) (b : Fin 8) (s : State) : Out := .next (canTxDone p b s)

/-- CAN_STAT.LEC of an error. -/
def lecCode : CanError → BitVec 3
  | .stuff => 1 | .form => 2 | .ack => 3 | .bitRecessive => 4 | .bitDominant => 5 | .crc => 6

/-- An error of the port's own attempt: TEC rises by 8, but for an ACK error of a passive port (R298) and a stuff error
within arbitration (log entry 55). -/
def canTxErr (p : Fin 2) (e : CanError) (afterArb : Bool) (s : State) : State :=
  modCan p (fun c => { c with
    txErr := if (e = .ack && c.state == 3) || (e = .stuff && !afterArb) then c.txErr else min 256 (c.txErr + 8),
    ackRun := if e = .ack then satInc c.ackRun else 0 }) s

/-- ALONE at the 32nd attempt in a row without acknowledgement (R298). -/
def canAlone (p : Fin 2) (s : State) : State :=
  if (s.can[p]).ackRun = 32 && !(s.can[p]).alone then
    raise (canReg p) 4 (modCan p (fun c => { c with alone := true }) s)
  else s

/-- A failed attempt is retried unless RETX is reached or the buffer was aborted (R294). -/
def canRetry (p : Fin 2) (b : Fin 8) (s : State) : State :=
  let s1 := modCan p (fun c => { c with onBus := none }) (modBuf p b (fun x => { x with attempts := x.attempts + 1 }) s)
  let x := (s1.can[p]).buf[b]
  let retx := u8 (canRecord p s) 11
  if x.abort || (retx ≠ 0 && decide (retx ≤ x.attempts)) then canFail p b s1 else s1

/-- A bit error after the arbitration field (R297). -/
def dataBitErr (p : Fin 2) (s : State) : State :=
  raise (canReg p) 5 (modCan p (fun c => { c with bitErr := satInc c.bitErr }) s)

/-- An error is detected (R296 to R298). -/
def canBusError (p : Fin 2) (e : CanError) (tx : Option (Fin 8)) (afterArb major : Bool) (s : State) : State :=
  let c := s.can[p]
  if !canOn p s || (c.state ≠ 2 && c.state ≠ 3) then s
  else
    let s1 := modCan p (fun c => { c with lec := lecCode e }) s
    match tx with
    | none =>
      canSettle p (modCan p (fun c => { c with rxErr := min 255 (c.rxErr + if major then 8 else 1) }) s1)
    | some b =>
      if c.onBus ≠ some b then s
      else
        let isBit := decide (e = .bitRecessive) || decide (e = .bitDominant)
        let s2 := canSettle p (canTxErr p e afterArb (if isBit && afterArb then dataBitErr p s1 else s1))
        canAttempt p (canRetry p b (canAlone p s2))

/-- A CAN error is detected. -/
def execCanBusError (p : Fin 2) (e : CanError) (tx : Option (Fin 8)) (afterArb major : Bool) (s : State) : Out :=
  .next (canBusError p e tx afterArb major s)

/-- Bus-off recovery completes after 128 occurrences of 11 recessive bits (R296). -/
def canRecovered (p : Fin 2) (s : State) : State :=
  let c := s.can[p]
  if c.state = 4 && (canFlag p 3 s || c.recovering) then
    canAttempt p (modCan p (fun c => { c with state := 2, txErr := 0, rxErr := 0, recovering := false })
      (elapseTo (c.waitFrom + 128 * 11 * canBitTicks p s) s))
  else s

/-- The port has recovered from bus-off. -/
def execCanBusoffRecovered (p : Fin 2) (s : State) : Out := .next (canRecovered p s)

/-- CAN_CTL.RECOVER (R296). -/
def canRecover (p : Fin 2) (s : State) : State :=
  let c := s.can[p]
  if c.state ≠ 4 || c.recovering || canFlag p 3 s then s
  else modCan p (fun c => { c with recovering := true, waitFrom := s.now }) s

/-- A write of 1 to CAN_CTL.RECOVER. -/
def execCanRecover (p : Fin 2) (s : State) : Out := .next (canRecover p s)

/-- A buffer is requested: an FD frame without FD_EN is refused (R294). -/
def canReq (p : Fin 2) (b : Fin 8) (s : State) : State :=
  let x := (s.can[p]).buf[b]
  if x.pend then s
  else if bit x.info 11 && !canFlag p 0 s then raise (canReg p) 9 s
  else modBuf p b (fun x => { x with pend := true, done := false, failed := false, attempts := 0, abort := false }) s

/-- Numbers of the bits that are set in a mask of 8. -/
def bits8 (mask : Byte) : List (Fin 8) := (idx 8).filter fun b => bit mask b.val

/-- CAN_TXREQ is written. -/
def canTxreq (p : Fin 2) (mask : Byte) (s : State) : State := canAttempt p (foldS (bits8 mask) (canReq p) s)

/-- CAN_TXREQ is written. -/
def execCanTxreq (p : Fin 2) (mask : Byte) (s : State) : Out := .next (canTxreq p mask s)

/-- An abort removes a pending buffer at once, unless its frame is on the bus (R294). -/
def canAbort (p : Fin 2) (b : Fin 8) (s : State) : State :=
  if !((s.can[p]).buf[b]).pend then s
  else if (s.can[p]).onBus = some b then modBuf p b (fun x => { x with abort := true }) s
  else canFail p b s

/-- CAN_TXABORT is written. -/
def canTxabort (p : Fin 2) (mask : Byte) (s : State) : State := foldS (bits8 mask) (canAbort p) s

/-- CAN_TXABORT is written. -/
def execCanTxabort (p : Fin 2) (mask : Byte) (s : State) : Out := .next (canTxabort p mask s)

/-- A word of a transmit buffer is written; a pending buffer refuses it (R294). Words 2 to 15 hold nothing to write. -/
def canTxbufWrite (p : Fin 2) (b : Fin 8) (w : Fin 32) (v : Word) (s : State) : State :=
  if ((s.can[p]).buf[b]).pend then raise (canReg p) 9 s
  else if w.val = 0 then modBuf p b (fun x => { x with hdr := v &&& 0x1FFFFFFF }) s
  else if w.val = 1 then modBuf p b (fun x => { x with info := v &&& 0x1E0F }) s
  else if w.val < 16 then s
  else modBuf p b (fun x => { x with data := put' x.data (w.val - 16) v }) s

/-- A word of a transmit buffer is written. -/
def execCanTxbufWrite (p : Fin 2) (b : Fin 8) (w : Fin 32) (v : Word) (s : State) : Out :=
  .next (canTxbufWrite p b w v s)

/-! ### Modes, integration and suspension (R295, R299) -/

/-- The state in which a port starts a mode: off, or integrating. -/
def canEntry (mode : BitVec 2) : Fin 6 := if mode = 3 then 0 else 1

/-- CAN_CTL.MODE and USE_DET take a value. A changed mode starts over: the port integrates, rate detection begins with
125 kbit/s, and a change to MODE 0 with USE_DET set runs at the detected rate until the next start. A suspended port stays
suspended, and an attempt that runs ends. -/
def canSetMode (p : Fin 2) (v : Word) (s : State) : State :=
  let mode := BitVec.ofNat 2 (fld v 0 2)
  let s1 := modCan p (fun c => { c with useDet := bit v 8 }) s
  if mode = (s.can[p]).mode then s1
  else
    let live := canOn p s
    modCan p (fun c => { c with
      mode := mode, found := false, tryRate := 0, tryAt := s.now, waitFrom := s.now,
      rate := if mode = 0 && c.useDet && c.detRate ≠ 0 then c.detRate else c.rate,
      state := if !live then 0 else if c.state = 5 then 5 else canEntry mode }) (canLost p s1)

/-- CAN_CTL is written. -/
def canCtl (p : Fin 2) (v : Word) (s : State) : State := (if bit v 4 then canRecover p else id) (canSetMode p v s)

/-- CAN_CTL is written. -/
def execCanModeWrite (p : Fin 2) (v : Word) (s : State) : Out := .next (canCtl p v s)

/-- A rate has been tried for 1 s (R295). -/
def rateTry (p : Fin 2) (s : State) : State :=
  let c := s.can[p]
  if !canOn p s || c.mode ≠ 2 || c.found || c.state = 5 then s
  else
    let s1 := elapseTo (c.tryAt + secs 1) s
    let last := c.tryRate == 4
    raiseIf last (canReg p) 8
      (modCan p (fun x => { x with tryRate := if last then 0 else Fin.ofNat 5 (x.tryRate.val + 1), tryAt := s1.now }) s1)

/-- A rate has been tried without success. -/
def execRateTryTimeout (p : Fin 2) (s : State) : Out := .next (rateTry p s)

/-- The port has integrated on 11 recessive bits (R299). -/
def canIntegrated (p : Fin 2) (s : State) : State :=
  if (s.can[p]).state = 1 then
    canAttempt p (modCan p (fun c => { c with state := canErrState c })
      (elapseTo ((s.can[p]).waitFrom + 11 * canBitTicks p s) s))
  else s

/-- The port has integrated. -/
def execCanIntegrationDone (p : Fin 2) (s : State) : Out := .next (canIntegrated p s)

/-- The port is suspended while its island runs on the ring oscillator, and integrates again after (R299). -/
def canSuspend (on : Bool) (p : Fin 2) (s : State) : State :=
  let c := s.can[p]
  if on then
    if c.state = 0 || c.state = 5 then s
    else raise (canReg p) 7 (modCan p (fun c => { c with state := 5 }) (canLost p s))
  else if c.state = 5 then modCan p (fun c => { c with state := canEntry c.mode, tryAt := s.now, waitFrom := s.now }) s
  else s

/-- Step 14 of a start (R77): a port with a record integrates in the mode that its record names. -/
def canStart (p : Fin 2) (failed : Bool) (s : State) : State :=
  let mode : BitVec 2 := if canFlag p 4 s then 1 else 0
  modCan p (fun c => { c with
    absent := failed, mode := mode, tryAt := s.now, waitFrom := s.now,
    state := if hasRec s 0x78 p.val && !failed then 1 else 0 }) s

end Sys2Proof.Machine
end

