-- ==== Sys2Proof/Machine/PulseLock.lean ====
section
/-! DEFINITION. The pulse-lock safety function (R317 to R334): demands, diagnostics, the start-up test, resets and the
black-channel connections. -/

namespace Sys2Proof.Machine

/-- The safety record. -/
def safeRec (s : State) : List Byte := recD s 0xA0 0

/-- SAFE runs with a record in M3 to M11. -/
def safeOn (s : State) : Bool := hasRec s 0xA0 0 && decide (3 ≤ s.md)

/-- Periodic kinds of SAFE: its cycle, the supply pulse and the self-test (log entry 3). -/
def tkSafe : Nat := 27
def tkPulse : Nat := 28
def tkSelf : Nat := 29

/-- One connection changed. -/
def modConn (k : Fin 8) (f : Conn → Conn) (s : State) : State := modPlk (fun p => { p with conn := modAt p.conn k f }) s

/-- TRANSPORT, ON_LOSS and TEXP of a connection. -/
def conTransport (k : Fin 8) (s : State) : Nat := u8 (safeRec s) (64 + 16 * k.val)
def conReduces (k : Fin 8) (s : State) : Bool := u8 (safeRec s) (65 + 16 * k.val) == 1
def conTexp (k : Fin 8) (s : State) : Nat := u16 (safeRec s) (66 + 16 * k.val)

/-! ### Demands (R320, R322) -/

/-- A field input reads 0 to SAFE; none (0xFF) never does. -/
def inputLow (n : Nat) (s : State) : Bool := n < 16 && !diByNum n s

/-- The time of a raw stamp that lies in the past. -/
def stampTime (t : Long) (s : State) : Nat := s.now - (s.raw - t).toNat

/-- When an input last fell. -/
def fallTime (n : Nat) (s : State) : Nat := if h : n < 16 then stampTime (s.fio.inp[n]).fallTs s else 0

/-- SAFE masks the input (R322): during a supply pulse and 20 µs after it, and for a low that began in it until the
demand filter has run from the end of the mask. -/
def masked (n : Nat) (s : State) : Bool :=
  let p := s.plk
  p.pulseRun || decide (s.now < p.maskUntil) ||
    (decide (lastTick tkPulse s ≤ fallTime n s ∧ fallTime n s < p.maskUntil) &&
      decide (s.now < p.maskUntil + us (u16 (safeRec s) 6)))

/-- The demand of an input: held as last seen while it is masked. -/
def inputDemand (bitNo n : Nat) (s : State) : Bool :=
  if n = 0xFF then false else if masked n s then bit s.plk.seen bitNo else inputLow n s

/-- Some connection satisfies f. -/
def anyConn (s : State) (f : Fin 8 → Conn → Bool) : Bool :=
  (idx 8).any fun k => conTransport k s != 0 && f k s.plk.conn[k]

/-- A diagnostic failure with the reaction Demand (R322). -/
def diagDemand (s : State) : Bool := s.plk.self || s.plk.readback || s.plk.pulse || s.clock.safeRing

/-- The active demands by source number (R320): 1 DEM_DI, 2 GUARD_DI, 3 frame, 4 connection lost, 5 diagnostic,
8 start-up unit failure; 15: SAFE on its ring oscillator. -/
def activeDemands (s : State) : BitVec 16 :=
  let p := safeRec s
  BitVec.ofNat 16 (packBits [false, inputDemand 1 (u8 p 0) s, inputDemand 2 (u8 p 1) s,
    anyConn s (fun _ c => c.state == 2 && !c.run), anyConn s (fun k c => c.state != 2 && !conReduces k s),
    diagDemand s, false, false, s.plk.startFail, false, false, false, false, false, false, s.clock.safeRing])

/-- A demand is active. -/
def demandActive (s : State) : Bool := safeOn s && activeDemands s != 0

/-- PLK_STAT.RESET_READY (R324, R334). -/
def resetReady (s : State) : Bool := safeOn s && !demandActive s && !s.plk.self && !s.plk.readback

/-- The demand is acted on (R319): every enable line stops, the supervisor blocks every channel, and M11 is requested. -/
def actDemand (src : Nat) (at0 : Nat) (s : State) : State :=
  let s1 := modPlk (fun p => { p with source := BitVec.ofNat 4 src }) s
  if s.plk.locked then s1
  else
    let s2 := modPlk (fun p => { p with
      locked := true, lines := 0, stopAt := s.now, demandAt := at0, respRun := true }) s1
    trigger .demand (settleGates (raise .plk 0 (modGate (fun g => { g with allOff := true }) s2)))

/-- When the cause of a demand began: the stamp of an input's fall or the arrival of a frame (R321); else now. -/
def demandSince (src : Nat) (s : State) : Nat :=
  match src with
  | 1 => fallTime (u8 (safeRec s) 0) s
  | 2 => fallTime (u8 (safeRec s) 1) s
  | _ => s.now

/-- The reduced diagnosis (R322): SAFE on the primary TCXO, or a connection with ON_LOSS 1 not running. -/
def reducedNow (s : State) : Bool :=
  safeOn s && ((s.clock.safeSrc && !s.clock.safeRing) || anyConn s (fun k c => c.state != 2 && conReduces k s))

/-- The reduced diagnosis is judged (R322, R323): DIAG_REDUCED and M10 when it begins, the mode left for M10 when it ends. -/
def judgeReduced (s : State) : State :=
  let r := reducedNow s
  if r = s.plk.reduced then s
  else
    let s1 := modPlk (fun p => { p with reduced := r }) s
    if r then trigger .degraded (raise .plk 5 s1) else trigger (.auto 10 s.mode.degrFrom 2) s1

/-- The demands are judged: a source that has become active, or any while the outputs are not locked, is acted on. -/
def safeEval (s : State) : State :=
  if !safeOn s then s
  else
    let act := activeDemands s
    let fresh := if s.plk.locked then act &&& ~~~s.plk.seen else act
    let s1 := raiseIf (bit act 15 && !bit s.plk.seen 15) .plk 4 (modPlk (fun p => { p with seen := act }) s)
    let s2 := match [1, 2, 3, 4, 5, 8].find? fun k => bit fresh k with
      | none => s1
      | some k => actDemand k (demandSince k s1) s1
    judgeReduced s2

/-- A diagnostic failure with the reaction Demand. -/
def diagFail (f : PlkState → PlkState) (s : State) : State := safeEval (raise .plk 4 (modPlk f s))

/-! ### Enable lines and the SAFE cycle (R318, R321, R322, R326) -/

/-- A channel reads off (R317): its detector is reported off, or its gate power is not in regulation. -/
def readsOff (s : State) (c : Fin 32) : Bool := !bit s.plk.reported c.val || !powered s c

/-- Every channel reads off. -/
def allReadOff (s : State) : Bool := (idx 32).all (readsOff s)

/-- The response time is measured once every channel reads off (R321): up to an instant between the last detector's
turning off and this cycle, which is open (log entry 4), in whole µs. -/
def measureResp (s : State) : State :=
  if s.plk.respRun && allReadOff s then
    let (n, s1) := takeFree s
    let lo := (s.plk.stopAt - s.plk.demandAt) / 400
    let hi := (s.now - s.plk.demandAt) / 400
    modPlk (fun p => { p with
      respRun := false, resp := BitVec.ofNat 16 (min 65535 (lo + n % (hi - lo + 1))) }) s1
  else s

/-- A channel still reads enabled 30 µs after its line stopped (R322). -/
def readbackBad (s : State) : Bool :=
  decide (s.plk.stopAt + us 30 ≤ s.now) &&
    (idx 32).any fun c => !bit s.plk.lines c.val && !readsOff s c

/-- The start-up test passes (R326, R328). -/
def testPass (s : State) : State :=
  let sec := (secOf (timelineNow s)).toNat
  plkLog 2 8 0 (safetyCrc s) (safetyCrc s) (raise .plk 2 (modPlk (fun p => { p with
    testDue := false, testCause := 0, lastTest := wd sec,
    passedRec := some (safeRec s), passedSec := some sec }) s))

/-- The start-up test fails (R326, R328): READBACK is latched. -/
def testFail (s : State) : State :=
  diagFail (fun p => { p with readback := true, guardFail := true })
    (plkLog 3 8 0 (safetyCrc s) (safetyCrc s) (raise .plk 3 s))

/-- The start-up test is judged by GUARD_DI and the channels (R326). -/
def judgeTest (s : State) : State :=
  let g := u8 (safeRec s) 1
  if masked g s then s
  else if inputLow g s then
    let since := s.plk.guardLow.getD (fallTime g s)
    let s1 := modPlk (fun p => { p with
      guardLow := some since, guardFail := p.guardFail && p.guardLow.isSome,
      guardOff := (p.guardLow.isSome && p.guardOff) || (allReadOff s && decide (s.now ≤ since + us 500)) }) s
    if !s1.plk.guardOff && !s1.plk.guardFail && decide (since + us 500 < s.now) then testFail s1 else s1
  else match s.plk.guardLow with
    | none => s
    | some t =>
      let s1 := modPlk (fun p => { p with guardLow := none, guardOff := false, guardFail := false }) s
      if s.plk.guardOff && decide (t + ms 10 ≤ s.now) then testPass s1 else s1

/-- One 50 µs cycle of SAFE (R321). -/
def safeCycle (reported : Word) (s : State) : State :=
  if !safeOn s then s
  else
    let s1 := modPlk (fun p => { p with reported := reported }) (periodic tkSafe (us 50) s)
    let s2 := judgeTest (measureResp (safeEval s1))
    if readbackBad s2 && !s2.plk.readback then diagFail (fun p => { p with readback := true }) s2 else s2

/-- A cycle of SAFE. -/
def execSafeCycle (reported : Word) (s : State) : Out := .next (safeCycle reported s)

/-- An enable detector turns its channel off 20 µs after the toggling stops (R318). -/
def detectOff (c : Fin 32) (s : State) : State :=
  if bit s.plk.lines c.val || !bit s.plk.enabled c.val then s
  else
    let s1 := elapseTo (s.plk.stopAt + us 20) s
    cutGate c (modPlk (fun p => { p with enabled := putBit p.enabled c.val false }) s1)

/-- An enable detector turns its channel off. -/
def execEnableDetectOff (ch : Fin 32) (s : State) : Out := .next (detectOff ch s)

/-! ### Supply pulse and self-test (R322) -/

/-- SUP_DQ is switched off for 100 µs. -/
def supplyPulse (s : State) : State :=
  if !safeOn s then s else refreshFn (modPlk (fun p => { p with pulseRun := true }) (periodic tkPulse (secs 1) s))

/-- A supply pulse starts. -/
def execSupplyPulse (s : State) : Out := .next (supplyPulse s)

/-- The pulse ends: both inputs must have fallen. -/
def supplyPulseEnd (demLow guardLow : Bool) (s : State) : State :=
  if !s.plk.pulseRun then s
  else
    let s1 := elapseTo (lastTick tkPulse s + us 100) s
    let bad := !guardLow || (u8 (safeRec s) 0 != 0xFF && !demLow)
    let s2 := refreshFn (modPlk (fun p => { p with pulseRun := false, maskUntil := s1.now + us 20, pulse := bad }) s1)
    if bad then diagFail id s2 else s2

/-- A supply pulse ends. -/
def execSupplyPulseEnd (demLow guardLow : Bool) (s : State) : Out := .next (supplyPulseEnd demLow guardLow s)

/-- The self-test of SAFE: a mismatch is latched. -/
def safeSelfTest (ok : Bool) (s : State) : State :=
  if !safeOn s then s
  else
    let s1 := periodic tkSelf (secs 10) s
    if ok then s1 else diagFail (fun p => { p with self := true }) s1

/-- The self-test of SAFE. -/
def execSafeSelfTest (ok : Bool) (s : State) : Out := .next (safeSelfTest ok s)

/-! ### Commands and resets (R320, R324) -/

/-- PLK_CMD.DEMAND with its key. -/
def plkDemand (key : Half) (s : State) : State :=
  if key = 0x504C && safeOn s then actDemand 7 s.now s else s

/-- PLK_CMD.DEMAND is written. -/
def execPlkCmdDemand (key : Half) (s : State) : Out := .next (plkDemand key s)

/-- An accepted reset (R324): the lines toggle again, and M11 is left for M3. -/
def acceptReset (s : State) : State :=
  let lost := s.claim.a.claim == 0 && s.claim.b.claim == 0
  let s1 := plkLog 6 8 0 (safetyCrc s) (safetyCrc s) (raise .plk 1 s)
  let s2 := modGate (fun g => { g with allOff := lost }) (modPlk (fun p => { p with
    locked := false, lines := 0xFFFFFFFF, enabled := 0xFFFFFFFF, respRun := false }) s1)
  trigger (.auto 11 3 2) s2

/-- A reset that reaches SAFE: accepted, or discarded with RESET_REFUSED (R324). -/
def askReset (ok : Bool) (s : State) : State := if ok && resetReady s then acceptReset s else raise .plk 9 s

/-- The pattern of R324: high for 0.1 s to 2 s. -/
def resetPattern (high : Nat) : Bool := decide (ms 100 ≤ high ∧ high ≤ ms 2000)

/-- The last fall of RST_DI is judged once, by the stamps of its rise and its fall (R307, R324). -/
def resetByInput (n : Fin 16) (s : State) : State :=
  let x := s.fio.inp[n]
  if !diValid n s || x.level || x.fallTs == s.plk.rstSeen then s
  else
    let s1 := modPlk (fun p => { p with rstSeen := x.fallTs }) s
    if x.riseTs.toNat < x.fallTs.toNat && resetPattern (x.fallTs - x.riseTs).toNat then askReset true s1 else s1

/-- The last fall of the RESET bit of a running connection is judged once (R324). -/
def resetByFrame (k : Fin 8) (s : State) : State :=
  let c := s.plk.conn[k]
  match c.resetLen with
  | none => s
  | some high =>
    let s1 := modConn k (fun c => { c with resetLen := none }) s
    if c.state == 2 && resetPattern high then askReset true s1 else s1

/-- A reset by a field input, a frame or the host (R324); a write with a wrong key, and a pattern of another length, is
no reset. -/
def plkReset (src : ResetSource) (s : State) : State :=
  if !safeOn s then s
  else match src with
    | .rstDi => if h : u8 (safeRec s) 2 < 16 then resetByInput ⟨_, h⟩ s else s
    | .frame k => resetByFrame k s
    | .host key => if key = 0x504C then askReset ((u8 (safeRec s) 5).testBit 0) s else s

/-- A reset is asked for. -/
def execPlkReset (src : ResetSource) (s : State) : Out := .next (plkReset src s)

/-! ### The proof interval and the password (R325, R327) -/

/-- A running module passes the end of PROOF_D (R325): the test is due, and the mode does not change. -/
def proofExpired (s : State) : State :=
  match s.plk.passedSec with
  | none => s
  | some p =>
    if !safeOn s || s.plk.testDue || !utcLocked s then s
    else
      let s1 := advance (ticksUntil (((p + proofSecs s : Nat) : Int) * 1000000000 * nsUnit) s) s
      modPlk (fun p => { p with testDue := true, testCause := 4 }) s1

/-- The proof interval ends. -/
def execProofExpired (s : State) : Out := .next (proofExpired s)

/-- The lockout of SAFEAUTH ends (R327). -/
def lockoutEnd (s : State) : State :=
  match s.plk.lockEnd with
  | none => s
  | some t => modPlk (fun p => { p with lockEnd := none }) (elapseTo t s)

/-- The lockout ends. -/
def execPwLockoutEnd (s : State) : Out := .next (lockoutEnd s)

/-! ### Black-channel connections (R329 to R331) -/

/-- A connection fails (R331): counted, CON_ERR, and ON_LOSS acts. -/
def conFail (k : Fin 8) (err : BitVec 4) (s : State) : State :=
  safeEval (raise .plk 6 (modConn k (fun c => { c with
    state := 3, err := err, fails := satInc c.fails, good := 0, resetAt := none, resetLen := none }) s))

/-- A frame is well-formed: length, VERSION, KIND and CRC (R331). -/
def frameOk (b : List Byte) : Bool :=
  b.length == 20 && u8 b 0 == 1 && u8 b 1 == 1 && u32 b 16 == crc32c (b.take 16)

/-- A frame is accepted: its fields are kept, and the third one in sequence makes the connection run (R331). -/
def conAccept (k : Fin 8) (b : List Byte) (first : Bool) (s : State) : State :=
  safeEval (modConn k (fun c =>
    let n := if first then 1 else c.good + 1
    let bit := (u16 b 14).testBit 1
    { c with
      resetAt := if bit then (if c.state = 2 then some (c.resetAt.getD s.now) else none) else none,
      resetLen := if bit then c.resetLen else (c.resetAt.map fun t => s.now - t).or c.resetLen,
      state := if c.state = 2 || 3 ≤ n then 2 else 1, good := n, seq := BitVec.ofNat 16 (u16 b 2),
      run := (u16 b 14).testBit 0, reset := bit, lastAt := s.now }) s)

/-- A frame that comes later than TEXP after the last accepted one finds its connection failed (R331). -/
def conLate (k : Fin 8) (s : State) : State :=
  let c := s.plk.conn[k]
  if c.good ≠ 0 && (c.state == 1 || c.state == 2) && decide (c.lastAt + ms (conTexp k s) < s.now) then conFail k 4 s else s

/-- A safety frame is received and judged (R331). -/
def safetyFrameRx (k : Fin 8) (b : List Byte) (s0 : State) : State :=
  let s := if !safeOn s0 || conTransport k s0 = 0 then s0 else conLate k s0
  let c := s.plk.conn[k]
  let p := safeRec s
  if !safeOn s || conTransport k s = 0 then s
  else if !frameOk b then modConn k (fun c => { c with crcCnt := satInc c.crcCnt }) s
  else if u32 b 4 ≠ u32 p (68 + 16 * k.val) || u32 b 8 ≠ u32 p 12 then conFail k 2 s
  else
    let first := c.state == 3 || c.good == 0
    let seq := BitVec.ofNat 16 (u16 b 2)
    if !first && seq == c.seq then s
    else if !first && seq != c.seq + 1#16 then conFail k 3 s
    else if u16 b 12 ≠ conTexp k s then conFail k 5 s
    else conAccept k b first s

/-- A safety frame is received. -/
def execSafetyFrameRx (k : Fin 8) (bytes : List Byte) (s : State) : Out := .next (safetyFrameRx k bytes s)

/-- The transport of a connection can carry a frame now. -/
def conCarries (k : Fin 8) (s : State) : Bool :=
  match conTransport k s with
  | 1 => linkUp 0 s || (portUsed 1 s && linkUp 1 s)
  | 2 => (s.can[(0 : Fin 2)]).mode == 0 && ((s.can[(0 : Fin 2)]).state == 2 || (s.can[(0 : Fin 2)]).state == 3)
  | 3 => (s.can[(1 : Fin 2)]).mode == 0 && ((s.can[(1 : Fin 2)]).state == 2 || (s.can[(1 : Fin 2)]).state == 3)
  | _ => false

/-- The status frame of a connection (R329). -/
def statusFrame (k : Fin 8) (s : State) : List Byte :=
  let p := safeRec s
  let flags := packBits [s.md == 11, resetReady s, s.md == 10]
  let body := leBytes 1 1 ++ leBytes 1 2 ++ leBytes 2 ((s.plk.conn[k]).txSeq).toNat ++ leBytes 4 (u32 p 12)
    ++ leBytes 4 (u32 p (68 + 16 * k.val)) ++ leBytes 2 (conTexp k s) ++ leBytes 2 flags
  body ++ leBytes 4 (crc32c body)

/-- A status frame goes out every max(1 ms, ⌊TEXP / 2⌋) on a starting or running connection (R329). -/
def safetyStatusTx (k : Fin 8) (s : State) : State :=
  let c := s.plk.conn[k]
  if !safeOn s || conTransport k s = 0 || (c.state ≠ 1 && c.state ≠ 2) then s
  else
    let s1 := elapseTo (c.txAt + ms (max 1 (conTexp k s / 2))) s
    let s2 := when (conCarries k s1) (send (.safety k.val (statusFrame k s1))) s1
    modConn k (fun c => { c with txSeq := c.txSeq + 1#16, txAt := s1.now }) s2

/-- A status frame is sent. -/
def execSafetyStatusTx (k : Fin 8) (s : State) : Out := .next (safetyStatusTx k s)

/-- No new valid frame within TEXP of the last (R331). -/
def connTimeout (k : Fin 8) (s : State) : State :=
  let c := s.plk.conn[k]
  if !safeOn s || c.good = 0 || (c.state ≠ 1 && c.state ≠ 2) then s
  else conFail k 4 (elapseTo (c.lastAt + ms (conTexp k s)) s)

/-- A connection times out. -/
def execConnectionTimeout (k : Fin 8) (s : State) : Out := .next (connTimeout k s)

/-! ### The degraded-mode limit (R323) -/

/-- DEGR_MS in ticks. -/
def degrLimit (s : State) : Nat := let n := u16 (safeRec s) 8; ms (if n = 0 then 3000 else n)

/-- The entry into M10 and the leaving of it: within 60 s the count resumes from the value it had. -/
def degrOnMode (old : Nat) (s : State) : State :=
  if s.md = 10 && old ≠ 10 then
    let resume := match s.plk.degrLeftAt with
      | none => false
      | some t => decide (s.now ≤ t + secs 60)
    modMode (fun m => { m with degrAt := s.now }) (modPlk (fun p => { p with
      degrLeft := if resume then p.degrLeft else degrLimit s, degrLeftAt := none }) s)
  else if old = 10 && s.md ≠ 10 then
    modPlk (fun p => { p with degrLeft := p.degrLeft - (s.now - s.mode.degrAt), degrLeftAt := some s.now }) s
  else s

/-- The limit runs out in M10: a demand, and M11 (R70, R320, R323). -/
def degrExpired (s : State) : State :=
  if s.md ≠ 10 then s
  else
    let s1 := elapseTo (s.mode.degrAt + s.plk.degrLeft) s
    let s2 := actDemand 6 s1.now s1
    modMode (fun m => if !s.plk.locked && m.busy && m.target = 11 then { m with nextCause := 5, nextEvt := 0x80 } else m) s2

/-- The degraded-mode limit runs out. -/
def execDegrExpired (s : State) : Out := .next (degrExpired s)

/-! ### Starts (R77, R325) -/

/-- Step 15 of a start: SAFE begins anew, the lines toggle, every connection starts, and the start-up test is due by
R325. What the log area and the wear log hold stays; so does an open test. -/
def plkStart (failed cold : Bool) (s : State) : State :=
  let p := s.plk
  let cause : BitVec 4 :=
    if p.testDue && p.testCause = 2 then 2
    else if p.passedRec ≠ some (safeRec s) then 1
    else if cold then 3
    else if p.testDue then p.testCause else 0
  let conn := Vector.ofFn fun k : Fin 8 => ({ state := if conTransport k s = 0 then 0 else 1, txAt := s.now } : Conn)
  startTick tkSafe (startTick tkPulse (startTick tkSelf (modGate (fun g => { g with allOff := false }) (modPlk (fun p => {
    p with
    locked := false, source := 0, testDue := cause ≠ 0, testCause := cause, reduced := false, self := false,
    readback := false, pulse := false, startFail := failed, seen := 0, lines := 0xFFFFFFFF, enabled := 0xFFFFFFFF,
    reported := 0xFFFFFFFF, respRun := false, resp := 0, pulseRun := false, maskUntil := 0, guardLow := none,
    guardOff := false, guardFail := false, conn := conn, degrLeft := 0, degrLeftAt := none }) s))))

end Sys2Proof.Machine
end

