-- ==== Sys2Proof/Machine/Wear.lean ====
section
/-! DEFINITION. Corrected errors, SRAM and coupler-lane swaps, the repair map and the swap log (R362 to R370). -/

namespace Sys2Proof.Machine

/-- The lane number of an SRAM: 0 A, 1 B, 2 shared. -/
def sramNum : Option Lane → Fin 3
  | some .a => 0
  | some .b => 1
  | none => 2

/-- Corrected errors of an SRAM within a time before now. -/
def eccWithin (n : Fin 3) (t : Nat) (s : State) : Nat :=
  (s.wear.eccLog.filter fun e => e.1 = n && decide (s.now < e.2.2.2 + t)).length

/-- Corrected errors of one row within 24 h (R362). -/
def rowErrors (n : Fin 3) (bank row : Nat) (s : State) : Nat :=
  (s.wear.eccLog.filter fun e => e.1 = n && e.2.1 == bank && e.2.2.1 == row && decide (s.now < e.2.2.2 + secs 86400)).length

/-- A corrected error (R362, R370): counted, more than 10 within 1 h raise ECC_TREND, and three in one row of a lane
within 24 h start its repair. -/
def eccCorrected (wh : Option Lane) (bank row : Nat) (s : State) : State :=
  let n := sramNum wh
  let before := eccWithin n (secs 3600) s
  let s1 := modWear (fun w => { w with
    ecc := modAt w.ecc n satInc,
    eccLog := (n, bank, row, s.now) :: w.eccLog.filter fun e => decide (s.now < e.2.2.2 + secs 86400) }) s
  let s2 := raiseIf (before == 10) .wear 4 s1
  match wh with
  | none => s2
  | some l => if 3 ≤ rowErrors n bank row s2 then repairRow l bank row (rowErrors n bank row s2) s2 else s2

/-- A corrected error. -/
def execEccCorrected (wh : Option Lane) (bank : Fin 50) (row : Nat) (s : State) : Out :=
  .next (eccCorrected wh bank.val row s)

/-- A started swap does not complete (R368, R370): the unit stays in use. -/
def swapFailed (res lane unit : Nat) (s : State) : State := raise .wear 3 (logSwap res lane unit 0xFF 2 0 s)

/-- A swap ends within its longest time from its start, at a time the spec leaves open (log entry 4). -/
def swapElapse (from0 most : Nat) (s : State) : State :=
  let (n, s1) := takeFree s
  elapseTo (from0 + n % (most + 1)) s1

/-- The row swap of a lane that started first ends, within 100 µs (R362). A repaired row starts with no errors. -/
def rowSwapDone (l : Lane) (ok : Bool) (s0 : State) : State :=
  match s0.wear.rowSwaps.find? fun x => x.1 = l with
  | none => s0
  | some (_, bank, row, at0) =>
    let s := swapElapse at0 (us 100) s0
    let n := sramNum (some l)
    let unit := bank * 256 + row
    let s1 := modWear (fun w => { w with rowSwaps := w.rowSwaps.erase (l, bank, row, at0) }) s
    if !ok then swapFailed 1 (laneNum l) unit s1
    else
      let key := 64 * laneNum l + bank
      let k := (sparseGet 0 s.wear.rowsUsed key).toNat
      let s2 := hingeSwap 1 (laneNum l) unit k 2 (rowErrors n bank row s) s1
      modWear (fun w => { w with
        rowsUsed := sparsePut 0 w.rowsUsed key (BitVec.ofNat 16 (k + 1)),
        eccLog := w.eccLog.filter fun e => !(e.1 = n && e.2.1 == bank && e.2.2.1 == row) }) s2

/-- A row swap ends. -/
def execRowSwapDone (l : Lane) (ok : Bool) (s : State) : Out := .next (rowSwapDone l ok s)

/-- The bank swap of a lane that started first ends, within 20 ms (R362). -/
def bankSwapDone (l : Lane) (ok : Bool) (s0 : State) : State :=
  match s0.wear.bankSwaps.find? fun x => x.1 = l with
  | none => s0
  | some (_, bank, at0) =>
    let s := swapElapse at0 (ms 20) s0
    let n := sramNum (some l)
    let s1 := modWear (fun w => { w with bankSwaps := w.bankSwaps.erase (l, bank, at0) }) s
    if !ok then swapFailed 2 (laneNum l) bank s1
    else
      let k := (sparseGet 0 s.wear.rowsUsed (64 * laneNum l + bank)).toNat
      modWear (fun w => { w with eccLog := w.eccLog.filter fun e => !(e.1 = n && e.2.1 == bank) })
        (hingeSwap 2 (laneNum l) bank (spareUsed 2 (laneNum l) s) 2 k s1)

/-- A bank swap ends. -/
def execBankSwapDone (l : Lane) (ok : Bool) (s : State) : Out := .next (bankSwapDone l ok s)

/-- CRC errors of a coupler lane within 1 s (R362): the spare lane takes over at the next exchange; with none left, the
exchange fails (R303, R367). Lanes 0 to 3 carry the exchange, lane 4 is the spare. -/
def couplerSwap (k : Fin 5) (errors : Nat) (s : State) : State :=
  if !s.fio.on || errors < 8 || (k.val = 4 && !s.fio.spareLane) then s
  else if s.fio.spareLane then noSpare 9 2 k.val 1 errors s
  else hingeSwap 9 2 k.val 0 1 errors (modFio (fun f => { f with spareLane := true }) s)

/-- A coupler lane fails. -/
def execCouplerLaneSwap (k : Fin 5) (errors : Nat) (s : State) : Out := .next (couplerSwap k errors s)

/-- The repair map is written within 50 ms: its copy in the log area is the one in force (R364). -/
def mapWritten (s : State) : State :=
  match s.wear.mapDirty with
  | none => s
  | some t =>
    modWear (fun w => { w with written := w.repairs, mapGen := satInc w.mapGen, mapDirty := none })
      (swapElapse t (ms 50) s)

/-- The repair map is written. -/
def execRepairMapWritten (s : State) : Out := .next (mapWritten s)

/-- The repair map has not been written within 50 ms (R364, R370); it stays to be written. -/
def mapFail (s : State) : State :=
  match s.wear.mapDirty with
  | none => s
  | some t =>
    let s1 := elapseTo (t + ms 50) s
    raise .wear 6 (modWear (fun w => { w with mapDirty := some s1.now }) s1)

/-- The repair map is not written in time. -/
def execMapFail (s : State) : Out := .next (mapFail s)

/-- The bytes of a swap-log entry (R368). -/
def swapBytes (e : SwapEntry) (seq : Word) : List Byte :=
  let body := leBytes 4 seq.toNat ++ leBytes 1 e.res.toNat ++ leBytes 1 e.lane.toNat ++ leBytes 2 e.unit.toNat
    ++ leBytes 1 e.spare.toNat ++ leBytes 1 e.trigger.toNat ++ leBytes 2 e.left.toNat ++ leBytes 6 e.sec.toNat
    ++ leBytes 2 e.mode.toNat ++ leBytes 4 e.nsec.toNat ++ leBytes 4 e.indicator.toNat
  body ++ leBytes 4 (crc32c body)

/-- The oldest waiting entry is written to the ring, behind a keyring command that runs; without room it is dropped
(R367, R368). -/
def swapLogWrite (room : Bool) (s : State) : State :=
  if s.key.running.isSome then s
  else match s.wear.queue with
    | [] => s
    | e :: rest =>
      let s1 := modWear (fun w => { w with queue := rest }) s
      if room then modWear (fun w => { w with
        log := (swapBytes e w.logCnt :: w.log).take 16384, logCnt := satInc w.logCnt }) s1
      else raise .wear 5 s1

/-- The oldest waiting entry is written. -/
def execSwapLogWrite (room : Bool) (s : State) : Out := .next (swapLogWrite room s)

/-! ### Starts (R364) -/

/-- Spares in use by an assignment list. -/
def usedBy (rs : List Repair) (res lane : Nat) : Half :=
  BitVec.ofNat 16 ((rs.filter fun r => r.res.toNat == res && r.lane.toNat == lane).length)

/-- The wear manager when the power comes back: the log area is kept, and of the repair map what was written (R364). -/
def wearCold (w : WearState) : WearState :=
  { log := w.log, logCnt := w.logCnt, written := w.written, repairs := w.written, mapGen := w.mapGen,
    brownRecords := w.brownRecords }

/-- The wear manager over a restart without a loss of power. -/
def wearKeep (w : WearState) : WearState :=
  { wearCold w with
    repairs := w.repairs, queue := w.queue, mapDirty := w.mapDirty, flashDue := w.flashDue }

/-- Steps 7, 12 and 14 of a start: the assignments of the repair map are counted as spares in use (R364). -/
def wearStart (s : State) : State :=
  let rs := s.wear.repairs
  let rows := rs.filter fun r => r.res.toNat == 1
  let used := rows.foldl (fun m r =>
    let k := 64 * r.lane.toNat + r.unit.toNat / 256
    sparsePut 0 m k (sparseGet 0 m k + 1#16)) []
  modWear (fun w => { w with
    used := Vector.ofFn (fun i : Fin 30 => usedBy rs (i.val / 3) (i.val % 3)), rowsUsed := used }) s

/-- The restored assignments take effect (R364): FMA units leave the pool, converters and output stages are replaced. -/
def restoreRepairs (s : State) : State :=
  foldS s.wear.repairs (fun r t =>
    let l := laneOf r.lane.toNat
    let u := r.unit.toNat
    match r.res.toNat with
    | 0 => if h : u < 18 then modEng l (fun e => { e with fmaLost := e.fmaLost ++ [⟨u, h⟩] }) t else t
    | 3 =>
      if h : u < 32 then
        modMeas l (fun m => { m with
          spareUsed := put' m.spareUsed r.spare.toNat true,
          pin := modAt m.pin ⟨u, h⟩ fun p => { p with conv := Fin.ofNat 5 (r.spare.toNat + 1) } }) t
      else t
    | 4 => if h : u < 32 then modCh ⟨u, h⟩ (fun x => { x with spare := true }) t else t
    | _ => t) s

end Sys2Proof.Machine
end

