-- ==== Sys2Proof/Machine/Islands.lean ====
section
/-! DEFINITION. What a change of an island's clock source does to the blocks in it, and the loss of PPS_IN (R51, R57, R58,
R61, R258, R273, R299). -/

namespace Sys2Proof.Machine

/-- The block of an island goes onto its ring oscillator, or leaves it: the Tsuin channels are down (R258), the Ethernet
ports stop and the PTP domains enter holdover (R273), the CAN ports are suspended (R299). -/
def islandEffect (i : Fin 22) (ring : Bool) (s : State) : State :=
  match i.val with
  | 13 => if ring then tsuDown .b (tsuDown .a s) else s
  | 15 => if ring then ptpHoldover (netStopped true s) else netStopped false s
  | 16 => foldS (idx 2) (canSuspend ring) s
  | _ => s

/-- The source that starts where r waits: a PLL that is no longer locked gives way to the ring oscillator (R58). -/
def startsWith (i : Fin 22) (r : Fin 3) (s : State) : Fin 3 :=
  let x := s.clock.isl[i]
  if r = 0 && !(pllOf s x.own).locked then 2
  else if r = 1 && !(spareServes s x.own && s.clock.spare.locked) then 2
  else r

/-- At the handshake boundary the waiting source starts (R57); an island that has come onto its ring oscillator takes a
PLL source as soon as one is locked (R61). -/
def islandChange (i : Fin 22) (s : State) : State :=
  let x := s.clock.isl[i]
  match x.next with
  | none => s
  | some w =>
    if tcxoIslands.contains i then startTcxo i s else
    let r := startsWith i w s
    let s1 := modIslClk i (fun x => { x with
      src := r, next := none, viaSpare := x.viaSpare && r != 0,
      fallbacks := if r = 2 && x.src ≠ 2 then satInc x.fallbacks else x.fallbacks }) s
    let s2 := if (r == 2) != (x.src == 2) then islandEffect i (r == 2) s1 else s1
    returnIslands s2

/-- An island changes its clock source. -/
def execIslandSourceChange (isl : Fin 22) (s : State) : Out := .next (islandChange isl s)

/-- PPS_IN shows no pulse for 1.1 s (R51, R279). -/
def ppsLoss (s : State) : State :=
  if !s.clock.pps then s
  else
    let s1 := elapseTo (s.time.ppsAt + 440000000) s
    ppsHoldover (raise .clk 3 (modClock (fun c => { c with pps := false }) s1))

/-- PPS_IN is lost. -/
def execPpsLoss (s : State) : Out := .next (ppsLoss s)

end Sys2Proof.Machine
end

