-- ==== Sys2Proof/Machine/Start.lean ====
section
/-! DEFINITION. Starts (R34, R77 to R79, R95, R379): what a cold start, a warm restart and a wake reset, Keycheck, and the
configuration by the records of the running image. -/

namespace Sys2Proof.Machine

/-! ### Resets (R379) -/

/-- The keyring after a reset: its flash and fuses stay; KEY_RES.SEQ stays over a restart (R379), and so does a command that
runs: it completes and posts its result (R97, R398). -/
def keyReset (cold : Bool) (k : KeyState) : KeyState :=
  { running := if cold then none else k.running, slotState := k.slotState, slotDigest := k.slotDigest, rollback := k.rollback, flash := k.flash,
    seq := if cold then 0 else k.seq, resSeq := if cold then 0 else k.resSeq }

/-- The pulse lock after a reset: its log, the last passed test, the password failures and an open test stay (R325,
R327, R328). -/
def plkReset0 (p : PlkState) : PlkState :=
  { testDue := p.testDue, testCause := p.testCause, passedRec := p.passedRec, passedSec := p.passedSec,
    pwFails := p.pwFails, lockLen := p.lockLen, lockEnd := p.lockEnd, log := p.log, logCnt := p.logCnt }

/-- The clock synthesis over a restart: the TCXOs and their users run on, and FALLBACKS stays (R79, R379). -/
def clockKeep (c : ClockState) : ClockState :=
  { tcxoP := c.tcxoP, tcxoS := c.tcxoS, ref10 := c.ref10, pps := c.pps, tcxoPAt := c.tcxoPAt, tcxoSAt := c.tcxoSAt,
    ref10From := c.ref10From, aonSrc := c.aonSrc, fioSrc := c.fioSrc,
    safeSrc := c.safeSrc, safeRing := c.safeRing,
    isl := Vector.ofFn fun i : Fin 22 =>
      let x := c.isl[i]
      if tcxoIslands.contains i then { fallbacks := x.fallbacks, src := x.src, next := x.next }
      else { fallbacks := x.fallbacks } }

/-- Every supply has gone (R34): what flash, fuses and the log area hold stays. -/
def coldState (s : State) : State :=
  { State.reset with
    now := s.now, fresh := s.fresh, pending := s.pending, outbox := s.outbox,
    key := keyReset true s.key, wear := wearCold s.wear, plk := plkReset0 s.plk }

/-- The registers after a warm restart or a wake (R379): AON keeps the mode controller, the power manager and the raw
counter, with their event registers. -/
def restartState (s : State) : State :=
  { State.reset with
    now := s.now, raw := s.raw, fresh := s.fresh, ticks := s.ticks, pending := s.pending, outbox := s.outbox,
    events := put' (put' (Vector.replicate 30 0) EvReg.mode.slot (eventsOf .mode s)) EvReg.pwr.slot (eventsOf .pwr s),
    power := s.power, clock := clockKeep s.clock, mode := s.mode,
    key := keyReset false s.key, wear := wearKeep s.wear, plk := plkReset0 s.plk }

/-- VBUS rises through 26 V (R29, R70, R77, R397): AON starts, both TCXOs run, and the start continues into M1. A module
whose aux input was reversed resumes in the same way once the polarity is right (R33). -/
def vbusRise (vbusMv : Nat) (auxMv : Int) (s : State) : State :=
  if s.power.powered || vbusMv < 26000 then s
  else
    let s1 := coldState s
    let s2 := { s1 with
      power := { s1.power with
        powered := true, vbusMv := vbusMv, auxMv := auxMv, aonAt := s.now },
      clock := { s1.clock with
        tcxoP := true, tcxoS := true, ref10From := s.now },
      mode := { s1.mode with
        mode := 1, prev := 0, cause := 2, startAt := s.now, cold := true, fullStart := true } }
    raise .mode 1 s2

/-- VBUS rises. -/
def execVbusRise (vbusMv : Nat) (auxMv : Int) (s : State) : Out := .next (vbusRise vbusMv auxMv s)

/-- VBUS falls to 24 V (R34): every supply stops at once, and what a reversed aux input leaves without its hold-up
capacitor ends here too (R33). -/
def vbusFall (vbusMv : Nat) (s : State) : State := if s.power.powered && vbusMv ≤ 24000 then coldState s else s

/-- VBUS falls. -/
def execVbusFall (vbusMv : Nat) (s : State) : Out := .next (vbusFall vbusMv s)

/-! ### Keycheck (R94, R95) -/

/-- The page that a first page and its fallback give: the page that verifies, and whether it is the other one. -/
def tryPages (k : KeyState) (fw : Bool) (ok : Fin 2 → Bool) : Option (Fin 2 × Bool) :=
  match firstPage k fw with
  | none => none
  | some n =>
    if ok n then some (n, false)
    else
      let o := otherPage n
      if pageState (k.flash[pageIdx fw o]) = 1 && ok o then some (o, true) else none

/-- The first-tried page failed, and the other committed one is tried (R95). -/
def triedOther (k : KeyState) (fw : Bool) (ok : Fin 2 → Bool) : Bool :=
  match firstPage k fw with
  | none => false
  | some n => !ok n && pageState (k.flash[pageIdx fw (otherPage n)]) == 1

/-- The image of a key page, where it verifies. -/
def goodImage (k : KeyState) (n : Fin 2) : Option ImgGood :=
  match verifyImage k k.flash[pageIdx false n] with
  | .ok g => some g
  | .error _ => none

/-- The failure that Keycheck reports for a key page it has tried (R94): its code in KEY_RES and the failing record in
KEY_BADREC. No KEY_CMD write stands behind it, so SEQ keeps its value and OP reads 0 (log entry 67). -/
def reportFail (n : Fin 2) (s : State) : State :=
  match verifyImage s.key s.key.flash[pageIdx false n] with
  | .ok _ => s
  | .error e => modKey (fun k => { k with
      resOp := 0, resCode := BitVec.ofNat 8 e.code, badIndex := BitVec.ofNat 16 e.index,
      badType := BitVec.ofNat 16 e.type }) s

/-- A transition of a start, at once and with MODE_CHANGE (R70, R397); a session opened in M1 ends with it (R97). -/
def startMode (m : BitVec 4) (cause : Byte) (s : State) : State :=
  raise .mode 1 (modMode (fun x => { x with mode := m, prev := x.mode, cause := cause }) (endSession true s))

/-- No page verifies: the module is held in M1 (R70, R95). -/
def holdM1 (s : State) : State := raise .key 0 (modKey (fun k => { k with heldM1 := true }) s)

/-- Step 13 of a start (R77, R303, R304): the field-I/O die starts and its supply is checked. -/
def fioStart (s : State) : State :=
  modFio (fun _ => { on := hasRec s 0x80 0, linkOk := true, lastExch := s.now }) s

/-- A page was taken, and it is the fallback page (R95, R103). -/
def fellBack (t : Option (Fin 2 × Bool)) : Bool := (t.map (·.2)).getD false

/-- The key pages are tried once the firmware is selected (R95): a verified one leads to M2. -/
def keycheckKey (s : State) : State :=
  let k := s.key
  let ok (n : Fin 2) : Bool := (goodImage k n).isSome
  let fall := triedOther k false ok
  let took := tryPages k false ok
  let s0 := match firstPage k false with
    | none => s
    | some n => when fall (reportFail (otherPage n)) (reportFail n s)
  let s1 := raiseIf fall .key 1 (modKey (fun k => { k with
    triedKey := firstPage k false, keyFallback := fellBack took }) s0)
  match took with
  | none => holdM1 s1
  | some (n, _) =>
    match goodImage k n with
    | none => s1
    | some g =>
      startMode 2 2 (fioStart (modKey (fun k => { k with
        verified := upd k.verified (pageIdx false n) true, runKey := some n, records := g.records, serial := g.serial, imgRollback := g.rollback,
        signer := BitVec.ofNat 4 g.slot }) s1))

/-- Keycheck (R95): the firmware page is selected first, then the key page. Where no firmware page verifies the key pages are
not tried, the model's choice (log entry 68). -/
def keycheck (fw0 fw1 : Bool) (s : State) : State :=
  if s.md ≠ 1 || s.key.heldM1 || s.mode.busy then s
  else
    let k := s.key
    let ok (n : Fin 2) : Bool := if n = 0 then fw0 else fw1
    let took := tryPages k true ok
    let s1 := raiseIf (triedOther k true ok) .key 1 (modKey (fun k => { k with
      triedFw := firstPage k true, fwFallback := fellBack took }) s)
    match took with
    | none => holdM1 s1
    | some (f, _) => keycheckKey (modKey (fun k => { k with
        runFw := some f, verified := upd k.verified (pageIdx true f) true }) s1)

/-- Keycheck completes. -/
def execKeycheckDone (fw0Ok fw1Ok : Bool) (s : State) : Out := .next (keycheck fw0Ok fw1Ok s)

end Sys2Proof.Machine
end

