-- ==== Sys2Proof/Machine/Mode.lean ====
section
/-! DEFINITION. The mode controller (R69 to R76, R199, R323): requests, transitions and what the entry into a mode does. -/

namespace Sys2Proof.Machine

/-! ### The entry into a mode -/

/-- Every island stands no lower than its lowest state in the new mode (R41). -/
def raiseIslands (s : State) : State :=
  foldS (idx 22) (fun i t =>
    let low := lowestState t i.val
    modIsl i (fun x => if low.val < x.state.val then { x with state := low, idleFrom := t.now } else x) t) s

/-- What the mode controller keeps of the mode it comes from (R70, R74, R199, R323). With AUX_DROP already set at the entry
into M4 the hold time of R74 starts at the entry, the model's choice (log entry 64). -/
def modeFields (old : BitVec 4) (s : State) : State :=
  let m := s.md
  let wasRun := decide (4 ≤ old.toNat ∧ old.toNat ≤ 10)
  modMode (fun x => { x with
    rideFrom := if m = 9 ∧ old ≠ 10 then old else x.rideFrom,
    degrFrom := if m = 10 then old else x.degrFrom,
    prechargeAt := if m = 4 ∧ old ≠ 10 then s.now else x.prechargeAt,
    brownAt := if !inRun s then none else if !wasRun && s.power.auxDrop then some s.now else x.brownAt }) s

/-- A demand that holds, and a reduced diagnosis, act on the mode that has just been entered (R320, R323). -/
def safeOnMode (s : State) : State :=
  let s1 := if s.plk.locked then trigger .demand s else s
  if s1.plk.reduced then trigger .degraded s1 else s1

/-- The recorder sources that a mode entry activates (R338). -/
def modeTrigs (old : Nat) (s : State) : State :=
  if s.md = 9 then noteTrigs 113 s
  else if s.md = 3 && decide (4 ≤ old) && decide (old ≤ 10) then noteTrigs 114 s
  else if s.md = 11 then noteTrigs 115 s
  else s

/-- What the entry into a mode from another one does in every block. -/
def modeEffects (old : BitVec 4) (s : State) : State :=
  let s1 := degrOnMode old.toNat (modeFields old (endSession true s))
  let s2 := gfModeEntry old.toNat (raMode (applyBlocks s1))
  let s3 := if s2.md = 9 || s2.md = 3 then freezeOnMode s2 else s2
  let s4 := modeTrigs old.toNat (foldS lanes (fun l t => recMark l t.raw 0 4 0 t.md 0 t) s3)
  refreshFn (raiseIslands (timeModeEntry s4))

/-- The entry into M0 (R79): gate power stops, and every island but AON is powered down. The access tables stay in force
until the next entry into M1 (R89). -/
def enterDormant (s : State) : State :=
  raiseIslands' (modPower (fun p => { p with
    gpEn := 0, convOk := 0, pumpOk := 0, convSoft := 0, pumpSoft := 0 })
      { restartState s with mesh := { accOn := s.mesh.accOn, access := s.mesh.access } })
where
  /-- Islands 1 to 21 are off. -/
  raiseIslands' (s : State) : State :=
    modPower (fun p => { p with isl := Vector.ofFn fun i : Fin 22 =>
      { p.isl[i] with state := if i.val = 0 then 0 else 3, waking := false } }) s

/-- The entry into M1 by a warm restart or a wake (R79, R379): every island is Active again. -/
def enterRestart (s : State) : State :=
  modPower (fun p => { p with isl := p.isl.map fun x => { x with state := 0, waking := false } }) (restartState s)

/-! ### Host requests (R70, R73, R80, R396) -/

/-- The targets a host may request, and the modes it may request them from (R70, R73). -/
def hostRow (target : Nat) (s : State) : Bool :=
  match target with
  | 0 => s.md == 3
  | 1 => inStop s
  | 3 => inRun s
  | 4 => s.md == 3
  | 5 => s.md == 4
  | 6 => s.md == 4 || s.md == 8
  | _ => false

/-- The senior lane's grid-forming block. -/
def seniorGf (s : State) : GfState := (s.lane (seniorLane s)).gf

/-- A TCXO runs: without one the module stays in M3 (R75). -/
def refLeft (s : State) : Bool := s.clock.tcxoP || s.clock.tcxoS

/-- The condition of a row of R70; without a grid-forming record targets 4, 5 and 6 have none (R396). -/
def hostCondition (target : Nat) (s : State) : Bool :=
  match target with
  | 0 => refLeft s
  | 1 => s.md == 11 || refLeft s
  | 4 => hasRec s 0x60 0 && !demandActive s && !s.plk.locked && !s.plk.testDue && refLeft s
  | 5 => hasRec s 0x60 0 && (seniorGf s).dcReady && (seniorGf s).absent
  | 6 => hasRec s 0x60 0 && (seniorGf s).dcReady && (seniorGf s).present
  | _ => true

/-- REFUSE of a request: 0 permits it (R80). An image without a grid-forming record refuses targets 4, 5 and 6 with 3 in
every mode (R396). -/
def refusal (target : Nat) (s : State) : Nat :=
  if decide (3 ≤ s.md) && decide (4 ≤ target) && decide (target ≤ 6) && !hasRec s 0x60 0 then 3
  else if !hostRow target s then 1 else if !hostCondition target s then 3 else 0

/-- A request is refused (R69, R80). -/
def refuseMode (code : Nat) (s : State) : State :=
  raise .mode 2 (modMode (fun m => { m with refuse := BitVec.ofNat 8 code }) s)

/-- A request is judged: its transition starts, or it is refused. A warm restart times the start from here (R80). -/
def judgeRequest (target : BitVec 4) (s : State) : State :=
  let code := refusal target.toNat s
  if code ≠ 0 then refuseMode code s
  else
    let s1 := if target = 1 then modMode (fun m => { m with startAt := s.now, cold := false, fullStart := false }) s else s
    let s2 := beginTransition ⟨target, 1, 0⟩ s1
    if target.toNat < 4 then applyBlocks s2 else s2

/-- MODE_REQ is written (R70, R72, R73, R80): a wrong KEY and a target that is never accepted are refused at once, and a
request made while BUSY is 1 is held. -/
def requestMode (key : Half) (target : BitVec 4) (s : State) : State :=
  if s.md = 0 then s
  else if key ≠ 0x4D4F then refuseMode 2 s
  else if !([0, 1, 3, 4, 5, 6].contains target.toNat) then refuseMode 1 s
  else if s.mode.busy then modMode (fun m => { m with held := m.held ++ [.host target] }) s
  else judgeRequest target s

/-- MODE_REQ with target 0. -/
def execModeReqDormant (key : Half) (s : State) : Out := .next (requestMode key 0 s)

/-- MODE_REQ with target 1. -/
def execModeReqRestart (key : Half) (s : State) : Out := .next (requestMode key 1 s)

/-- MODE_REQ with target 3. -/
def execModeReqBlocked (key : Half) (s : State) : Out := .next (requestMode key 3 s)

/-- MODE_REQ with target 4. -/
def execModeReqPrecharge (key : Half) (s : State) : Out := .next (requestMode key 4 s)

/-- MODE_REQ with target 5. -/
def execModeReqBlackStart (key : Half) (s : State) : Out := .next (requestMode key 5 s)

/-- MODE_REQ with target 6. -/
def execModeReqSynchronise (key : Half) (s : State) : Out := .next (requestMode key 6 s)

/-- MODE_REQ with a target that R73 does not accept. -/
def execModeReqUnaccepted (key : Half) (target : BitVec 4) (s : State) : Out := .next (requestMode key target s)

/-! ### Transitions (R70, R72) -/

/-- A held trigger is evaluated against the new mode (R72): a diagnosis that has been restored, or reduced again, is no
trigger any more, and a return from M9 or M10 leads to the mode that was left. -/
def evalTrigger (t : Trigger) (s : State) : State :=
  match t with
  | .host target => judgeRequest target s
  | .degraded => if s.plk.reduced then trigger t s else s
  | .auto src _ c =>
    if src = 10 then (if s.plk.reduced then s else trigger (.auto 10 s.mode.degrFrom c) s)
    else if src = 9 then trigger (.auto 9 s.mode.rideFrom c) s
    else trigger t s
  | _ => trigger t s

/-- Held triggers in the order of R72; the first one that starts a transition leaves the rest held. -/
def evalHeld : List Trigger → State → State
  | [], s => s
  | t :: ts, s =>
    let s1 := evalTrigger t s
    if s1.mode.busy then modMode (fun m => { m with held := ts ++ m.held }) s1 else evalHeld ts s1

/-- Triggers by precedence, in the order of their arrival within one (R72). -/
def byRank (ts : List Trigger) : List Trigger := (List.range 8).flatMap fun r => ts.filter fun t => t.rank == r

/-- The brown-out record, within 2 ms of M3 (R74). -/
def brownRecord (evt : Word) (s : State) : State :=
  if bit evt 3 then modWear (fun w => { w with brownRecords := w.brownRecords + 1 }) s else s

/-- A transition that a demand has ended in the mode it would have left (R72): nothing changes but BUSY, and the held
triggers are evaluated. -/
def transitionCut (s : State) : State :=
  evalHeld (byRank s.mode.held) (safeOnMode (modMode (fun x => { x with busy := false, nextEvt := 0, held := [] }) s))

/-- A transition in progress ends (R70, R72): the new mode, its events, its effects, then the held triggers. -/
def transitionDone (s : State) : State :=
  if !s.mode.busy then s
  else if s.mode.target = s.mode.mode then transitionCut s
  else
    let m := s.mode
    let s1 := match m.target.toNat with
      | 0 => enterDormant s
      | 1 => enterRestart s
      | _ => s
    let s2 := modMode (fun x => { x with
      mode := m.target, prev := m.mode, cause := m.nextCause, busy := false, nextEvt := 0, held := [] }) s1
    let s3 := foldS ((List.range 9).filter fun k => bit m.nextEvt k) (fun k t => raise .mode k t) s2
    let s4 := raise .mode 1 s3
    let s5 := if m.target.toNat < 2 then s4 else safeOnMode (modeEffects m.mode (brownRecord m.nextEvt s4))
    if s5.mode.busy then modMode (fun x => { x with held := x.held ++ byRank m.held }) s5
    else evalHeld (byRank m.held) s5

/-- A transition ends. -/
def execModeTransitionDone (s : State) : Out := .next (transitionDone s)

/-- HSP_CSN has been low in M0 (R70): from 10 µs on the module wakes; it starts as after a cold start (R325). -/
def hspWake (lowNs : Nat) (s : State) : State :=
  if !s.power.powered || s.md ≠ 0 || s.mode.busy || lowNs < 10000 then s
  else beginTransition ⟨1, 1, 0⟩ (modMode (fun m => { m with startAt := s.now, cold := true, fullStart := false }) s)

/-- HSP_CSN wakes the module. -/
def execHspWake (lowNs : Nat) (s : State) : Out := .next (hspWake lowNs s)

/-! ### Stops (R70, R74, R199) -/

/-- PRE_TIME in ticks (R199). -/
def preTime (s : State) : Nat := secs (u16 (recD s 0x60 0) 26)

/-- The DC link is not ready within the precharge time (R70, R199). -/
def prechargeTo (s : State) : State :=
  if s.md ≠ 4 || (seniorGf s).dcReady then s
  else trigger (.auto 4 3 9) (elapseTo (s.mode.prechargeAt + preTime s) s)

/-- The precharge time ends. -/
def execPrechargeTo (s : State) : Out := .next (prechargeTo s)

/-- The brown-out hold time (R74, R86). -/
def brownHold (s : State) : Nat := let n := u16 (recD s 0x10 0) 180; ms (if n = 0xFFFF then 8 else n)

/-- The hold time ends with AUX_DROP still set, or VBUS falls below 28 V (R74). -/
def brownStop (s : State) : State :=
  match s.mode.brownAt with
  | none => s
  | some t =>
    if !inRun s then s
    else
      let s1 := if s.power.vbusMv < 28000 then s else elapseTo (t + brownHold s) s
      applyBlocks (trigger (.stop 6 3) (modMode (fun m => { m with brownAt := none }) s1))

/-- A brown-out stop. -/
def execBrownStop (s : State) : Out := .next (brownStop s)

end Sys2Proof.Machine
end

