-- ==== Sys2Proof/Machine/Configure.lean ====
section
/-! DEFINITION. The end of a start (R77, R89, R251, R335): the records of the running image are applied, and the module
enters M3, or M11 where a safety-relevant unit failed. -/

namespace Sys2Proof.Machine

/-! ### Units that failed (R77) -/

/-- A unit whose failure ends the start in M11 (R77): SAFE, its record, the field-I/O die, the enable line of a channel
with a record. -/
def safetyRelevant (s : State) : StartUnit → Bool
  | .safetyIsland | .safetyRecord | .fieldIo => true
  | .enableLine c => hasRec s 0x52 c.val
  | _ => false

/-- Two of the coupler lanes fail: the exchange then fails, and with it the die (R77, R362, R367; log entry 76). -/
def couplerLost (failed : List StartUnit) : Bool :=
  decide (2 ≤ ((idx 5).filter fun k => failed.contains (.couplerLane k)).length)

/-- A lane is present. -/
def lanePresent (failed : List StartUnit) (l : Lane) : Bool := !failed.contains (.lane l)

/-! ### Records applied (R48, R77, R87) -/

/-- A reference code of the clock record. -/
def refCode : Nat → ClkRef
  | 0 => .primary
  | 1 => .spare
  | _ => .ref10

/-- The PLL that an island takes its clock from (R17, R87). -/
def islandPll (hub : Nat) (i : Nat) : Pll :=
  let bitOf (k : Nat) : Pll := if hub.testBit k then .sysB else .sysA
  match i with
  | 13 => bitOf 0 | 14 => bitOf 1 | 16 => bitOf 2 | 17 => bitOf 3 | 20 => bitOf 4 | 21 => bitOf 5
  | 15 => .net
  | n => if 7 ≤ n ∧ n ≤ 12 then .sysB else .sysA

/-- A clock output as its record word gives it (R66). -/
def ckoOf (w : Nat) : CkoState :=
  { div := BitVec.ofNat 8 (w / 256), src := BitVec.ofNat 3 (w / 16), level := BitVec.ofNat 2 (w / 2), en := w % 2 == 1 }

/-- Step 6 calibrates each ring oscillator (R56, R77): 70 % of nominal within 2 % of it, the value itself open (log
entry 4). -/
def rollCallRings (s : State) : State :=
  let pm (i : Fin 22) : BitVec 10 := BitVec.ofNat 10 (686 + Config.freeNat (s.fresh + i.val) % 29)
  modClock (fun c => { c with isl := Vector.ofFn fun i : Fin 22 => { c.isl[i] with ringPm := pm i } })
    { s with fresh := s.fresh + 22 }

/-- Steps 5, 6 and 10 for the clocks: every PLL is locked on its reference, every island on its own PLL. -/
def configClock (s : State) : State :=
  let p := recD s 0x11 0
  let pll (k : Nat) (sp : Spread) : PllState := { imageRef := refCode (u8 p k), locked := true, spread := sp }
  let sup (k : Nat) : Spread := { depth := BitVec.ofNat 8 (u8 p k), rateHz := if u8 p k = 0 then 0 else 31250 }
  let isoSp : Spread := if u8 p 8 = 0 then {} else { depth := BitVec.ofNat 8 (u8 p 8), rateHz := 1000 * u8 p 9, down := true }
  let hub := u8 p 5
  refreshRefs (modClock (fun c => { c with
    sysA := pll 0 (sup 6), sysB := pll 1 (sup 7), net := pll 2 {}, iso := pll 3 isoSp, spare := pll 4 {}, spareUse := 0,
    spareTgt := false, idleTgt := false, walkAt := s.now, walkFrom := targetUnits false, convOwn := false, convBackAt := 0,
    isl := Vector.ofFn fun i : Fin 22 => { c.isl[i] with
      own := islandPll hub i.val, src := if tcxoIslands.contains i then c.isl[i].src else 0,
      next := if tcxoIslands.contains i then c.isl[i].next else none,
      viaSpare := false },
    cko := Vector.ofFn fun n : Fin 4 => ckoOf (u32 p (12 + 4 * n.val)) }) (rollCallRings s))

/-- Steps 10 and 11: PWR_GPCTL is written, and the soft starts are complete (R37, R48, R77). -/
def configPower (s : State) : State :=
  let s1 := refreshHupLow (setGpCtl (BitVec.ofNat 16 (u16 (recD s 0x10 0) 176)) s)
  modPower (fun p =>
    if p.gpCut then { p with convSoft := 0, pumpSoft := 0 }
    else { p with
      convOk := p.gpEn &&& ~~~p.convFlt, pumpOk := p.gpEn &&& ~~~p.pumpFlt, convSoft := 0, pumpSoft := 0 }) s1

/-- Step 10 for the mesh: the slot tables, each shadow a copy of its active table, and the access tables (R89, R108, R110). -/
def configMesh (s : State) : State :=
  modMesh (fun m => { m with
    active := slotTables (recD s 0x21 0), shadow := slotTables (recD s 0x21 0), access := recD s 0x22 0 }) s

/-- At the cold start a high side waits for its bootstrap to pass 15.5 V (R237). -/
def bootWaits (s : State) (c : Fin 32) : Bool := s.mode.cold && decide (c.val < 16) && hasRec s 0x52 c.val

/-- It is blocked by that wait, its gate power being there. -/
def bootBlocked (s : State) (c : Fin 32) : Bool := bootWaits s c && powered s c

/-- Step 12: each channel with a record stands unpowered or armed, and at the cold start a high side blocked (R237, R240).
That block makes its fault source active, but it is no crossing: it raises nothing and latches no group (log entry 73). -/
def configGate (s : State) : State :=
  modGate (fun g => { g with
    fg := { g.fg with active := g.fg.active ++ ((idx 32).filter (bootBlocked s)).map fun c => 64 + c.val },
    ch := Vector.ofFn fun c : Fin 32 => { g.ch[c] with
      state := if !hasRec s 0x52 c.val then 0 else if bootBlocked s c then 6 else if powered s c then 2 else 1,
      cause := if bootBlocked s c then 6 else 0, lowPos := bootWaits s c, boot := bootWaits s c } }) s

/-- A trace tap as its word of the graph record gives it (R163). -/
def tapOf (w : Nat) : TraceTap :=
  { en := w % 65536 != 0xFFFF, spec := w.testBit 24, decim := BitVec.ofNat 8 (w / 2 ^ 16), node := BitVec.ofNat 12 w }

/-- A context of a lane at the start: initial values, running, its detector armed where it has a node. -/
def configCtx (l : Lane) (c : Fin 8) (s : State) : State :=
  match graphOf c s with
  | none => s
  | some g =>
    let s1 := modCtx l c (fun x => { x with state := 2, osc := if g.oscNode = 0xFFFF then 0 else 1 }) (contextImage l c s)
    foldS (idx 8) (fun t => modTap l (tapIdx c t) fun _ => tapOf (g.taps.getD t.val 0)) s1

/-- Step 14 for one lane. -/
def configLane (l : Lane) (s : State) : State :=
  let s1 := foldS (idx 32) (fun p t => modPin l p (fun _ => pinAtStart p 0 t) t) s
  let s2 := foldS (idx 8) (configCtx l) s1
  configGf l (foldS (idx 16) (configGen l) s2)

/-- Step 9 and the claims of step 15 (R77, R251, R258). -/
def configClaims (a b : Bool) (s : State) : State :=
  let rec1 (here : Bool) (claim : Byte) : LaneClaim :=
    if here then { claim := claim, health := .healthy, goodSince := s.now } else {}
  let chan : TsuChannel := { good := if a && b then 31 else 0, up := a && b }
  let src : Lane := if a || !b then .a else .b
  modClaim (fun c => { c with
    a := rec1 a 0xC0, b := rec1 b 0x40, trained := a && b, ab := chan, ba := chan,
    seenA := if a then 0xC0 else 0, seenB := if b then 0x40 else 0,
    tum := Vector.replicate 32 { src := src } }) s

/-- Every record applied (R77). -/
def configure (failed : List StartUnit) (s : State) : State :=
  let a := lanePresent failed .a
  let b := lanePresent failed .b
  let s1 := configClaims a b (configMesh (configPower (configClock (wearStart s))))
  let s2 := configGate s1
  let s3 := when b (configLane .b) (when a (configLane .a) s2)
  let s4 := restoreRepairs s3
  let s5 := netStart (timeStart s4)
  foldS (idx 2) (fun p t => canStart p (failed.contains (.canPort p)) t) s5

/-! ### What a failed unit leaves (R77, R362, R366) -/

/-- A converter that fails its calibration: a spare replaces it, or it is absent and the other lane's takes the pin. -/
def failConverter (l : Lane) (pin : Fin 32) (s : State) : State :=
  if !pinOn pin s || !laneUp l s then s
  else match firstSpare l s with
    | some i =>
      let s1 := modMeas l (fun m => { m with
        spareUsed := put' m.spareUsed i.val true,
        pin := modAt m.pin pin fun p => { p with conv := Fin.ofNat 5 (i.val + 1) } }) s
      raise (.meas l) 3 (hingeSwap 3 (laneNum l) pin.val i.val 4 0 s1)
    | none =>
      let s1 := raise (.meas l) 4 (noSpare 3 (laneNum l) pin.val 4 0 s)
      modPins pin (fun p => if p.primaryB = decide (l = .b) then { p with primaryB := !p.primaryB } else p)
        (modPin l pin (fun p => { p with absent := true }) s1)

/-- A lane claims 0x00 from the start, on a cause of R253. -/
def failLane (l : Lane) (cause : Byte) (s : State) : State :=
  if (s.lc l).health = .absent then s
  else raise .clm (clmFaultBit l) (modLc l (fun x => { x with claim := 0, health := .faulted, cause := cause }) s)

/-- A channel with neither stage, or with an open sense path, stays latched (R247, R250, R366, R389). -/
def failChannel (c : Fin 32) (s : State) : State :=
  if hasRec s 0x52 c.val then
    raise .gch 1 (setChState c 5 (modCh c (fun x => { x with cause := 5, absent := true }) (raise .gch 8 s)))
  else s

/-- A primary stage that fails its start test (R247): the spare replaces it, unless the repair map has restored it already. -/
def failPrimary (c : Fin 32) (s : State) : State :=
  if !hasRec s 0x52 c.val then s
  else
    let s1 := raise .gch 8 s
    if (s1.gate.ch[c]).spare then s1 else switchStage c 3 0 s1

/-- A serial lane that does not train (R258): the spare takes its role where it is free. -/
def failSerial (toB : Bool) (k : Fin 5) (s : State) : State :=
  if !s.claim.trained then s else tsuinSwap toB k true 0 s

/-- A coupler lane fails its test at step 13 (R362): the spare takes over, and with none left the exchange fails. -/
def failCoupler (k : Fin 5) (s : State) : State :=
  if !s.fio.on then s
  else if k.val = 4 && !s.fio.spareLane then modFio (fun f => { f with spareLane := true }) s
  else if s.fio.spareLane then
    modFio (fun f => { f with on := false }) (noSpare 9 2 k.val 3 0 s)
  else hingeSwap 9 2 k.val 0 3 0 (modFio (fun f => { f with spareLane := true }) s)

/-- What one failed unit leaves: a unit whose records read back otherwise in step 14 is held at reset (R77, R94). -/
def failUnit (u : StartUnit) (s : State) : State :=
  match u with
  | .pll p => losePll p s
  | .sramRow l => failLane l 4 s
  | .stagePrimary c => failPrimary c s
  | .stageBoth c | .senseOpen c => failChannel c s
  | .converter l pin => failConverter l pin s
  | .serialLane toB k => failSerial toB k s
  | .fieldIo => modFio (fun f => { f with on := false }) s
  | .couplerLane k => failCoupler k s
  | .context l c => modRaCtx l c (fun _ => {}) (modCtx l c (fun _ => {}) s)
  | .generator l g => modGen l g (fun _ => {}) s
  | .gridForming l => modGf l (fun _ => {}) s
  | .network => modNet (fun n => { n with on := false }) s
  | .lane _ | .canPort _ | .safetyIsland | .safetyRecord | .enableLine _ | .recorder _ => s

/-! ### The end of a start -/

/-- Periodic events are counted from the end of the start (log entry 3). -/
def startTicks (s : State) : State :=
  { s with ticks := ((List.range 27).filter (fun k => 1 ≤ k && k ≠ 2)).foldl (fun m k => sparsePut 0 m k s.now) s.ticks }

/-- The longest start in ms: 1.2 s from VBUS rising, 1.19 s from a warm restart or a wake, and up to 150 ms more with a
fallback (R77, R79). -/
def startMax (s : State) : Nat :=
  (if s.mode.fullStart then 1200 else 1190) + (if s.key.keyFallback || s.key.fwFallback then 150 else 0)

/-- The start ends within its longest time from its trigger, at a time the spec leaves open (log entry 4). -/
def startElapse (s : State) : State :=
  let (n, s1) := takeFree s
  elapseTo (s.mode.startAt + n % (ms (startMax s) + 1)) s1

/-- The mode that ends the start (R77, R397): M3, or M11 with a demand of source 8. -/
def enterFirst (bad : Bool) (s : State) : State :=
  let s1 := raise .mode 0 (modMode (fun m => { m with startTime := wd ((s.now - m.startAt) / 4000) }) s)
  if bad then actDemand 8 s.now (startMode 11 4 s1) else startMode 3 0 s1

/-- The last step of a start completes (R77). -/
def startDone (failed : List StartUnit) (s0 : State) : State :=
  if s0.md ≠ 2 then s0
  else
    let s := startTicks (startElapse s0)
    let bad := couplerLost failed || failed.any (safetyRelevant s)
    let s1 := plkStart bad s.mode.cold (configure failed s)
    let s2 := enterFirst bad (foldS failed failUnit s1)
    let s3 := modMesh (fun m => { m with accOn := true }) s2
    let s4 := foldS (idx 8) scheduleFirst s3
    let s5 := foldS (lanes.filter fun l => !failed.contains (.recorder l)) recArm (applyBlocks s4)
    judgeReduced (refreshFn (raiseIslands s5))

/-- The start ends. -/
def execStartDone (failed : List StartUnit) (s : State) : Out := .next (startDone failed s)

end Sys2Proof.Machine
end

