-- ==== Sys2Proof/Machine/HubRead.lean ====
section
/-! DEFINITION. What a read of a register of the shared blocks returns, effects of the read apart (R6, R7, R372 and the
register tables of the owning chapters). -/

namespace Sys2Proof.Machine

/-- A flag for every index of an array, index 0 in bit 0. -/
def mapBits {α : Type} {n : Nat} (v : Vector α n) (f : α → Bool) : Nat := packBits (v.toList.map f)

/-- Milliseconds of ticks, rounded up. -/
def msUp (t : Nat) : Nat := (t + 399999) / 400000

/-- Seconds of ticks, rounded up. -/
def secUp (t : Nat) : Nat := (t + 399999999) / 400000000

/-! ### Identity, mode, pennant board (R80, R361) -/

/-- MODE_STAT (R80). -/
def modeStat (s : State) : Word :=
  let m := s.mode
  pack [(24, m.refuse.toNat), (16, m.cause.toNat), (8, m.prev.toNat), (4, b2n m.busy), (0, m.mode.toNat)]

/-- DEGR_LEFT (R80, R323): milliseconds left in M10, rounded up. -/
def degrLeftReg (s : State) : Word :=
  if s.md = 10 then wd (min 65535 (msUp (s.plk.degrLeft - (s.now - s.mode.degrAt)))) else 0

/-- Identity and global mode control (R80, R383). -/
def readMode (off : Nat) (s : State) : Word :=
  match off with
  | 0x00 => 0x53470016#32
  | 0x04 => 0x03020100#32
  | 0x10 => modeStat s
  | 0x18 => eventsOf .mode s
  | 0x20 => s.mode.startTime
  | 0x24 => degrLeftReg s
  | _ => 0

/-- 32 of the 256 bits of a bitmap. -/
def wordOf (v : BitVec 256) (i : Nat) : Word := v.extractLsb' (32 * i) 32

/-- Pennant board (R361). -/
def readPnt (off : Nat) (s : State) : Word :=
  let h := s.host
  if off < 0x20 then wordOf h.raised (off / 4)
  else if off < 0x40 then wordOf h.hsp.sub (off / 4 - 8)
  else if off < 0x60 then wordOf h.net.sub (off / 4 - 16)
  else match off with
    | 0x60 => h.cntSel.setWidth 32
    | 0x64 => (sparseGet 0 h.counts h.cntSel.toNat).setWidth 32
    | 0x68 => pack [(16, h.net.nseq.toNat % 65536), (0, h.hsp.nseq.toNat % 65536)]
    | _ => 0

/-! ### Power manager (R45 to R49) -/

/-- PWR_STAT (R45). -/
def pwrStat (s : State) : Word :=
  let p := s.power
  wd (packBits [p.auxOk, p.auxDrop, p.auxHigh, p.hupRdy, p.hupLow, p.tempWarn, p.tempHigh, p.gpCut, p.laneAPwr, p.laneBPwr])

/-- Power manager (R45 to R49). -/
def readPwr (off : Nat) (s : State) : Word :=
  let p := s.power
  match off with
  | 0x00 => pwrStat s
  | 0x04 => eventsOf .pwr s
  | 0x08 => p.auxV.setWidth 32
  | 0x0C => p.vbus.setWidth 32
  | 0x10 => p.hupV.setWidth 32
  | 0x14 => p.hupC.setWidth 32
  | 0x18 => p.pin.setWidth 32
  | 0x1C => p.temp.setWidth 32
  | 0x20 => p.gpEn.setWidth 32
  | 0x24 => pack [(16, p.pumpOk.toNat), (0, p.convOk.toNat)]
  | 0x28 => pack [(16, p.pumpFlt.toNat), (0, p.convFlt.toNat)]
  | 0x30 => p.islSel.setWidth 32
  | 0x34 =>
    let x := at' p.isl p.islSel.toNat {}
    pack [(16, x.wakes.toNat), (2, (lowestState s p.islSel.toNat).val), (0, x.state.val)]
  | _ => 0

/-! ### Clock synthesis (R67, R68) -/

/-- CLK_STAT (R67). -/
def clkStat (s : State) : Word :=
  let c := s.clock
  pack [(22, c.fioSrc.val), (20, b2n c.safeRing), (19, b2n c.driftSel), (18, b2n c.safeSrc), (16, c.aonSrc.val),
    (12, c.spareUse.val), (8, b2n c.spare.locked), (7, b2n c.iso.locked), (6, b2n c.net.locked), (5, b2n c.sysB.locked),
    (4, b2n c.sysA.locked), (3, b2n c.pps), (2, b2n c.ref10), (1, b2n c.tcxoS), (0, b2n c.tcxoP)]

/-- CLK_CKOn (R68). -/
def ckoWord (x : CkoState) : Word :=
  pack [(8, x.div.toNat), (4, x.src.toNat), (1, x.level.toNat), (0, b2n x.en)]

/-- Clock synthesis (R67, R68). -/
def readClk (off : Nat) (s : State) : Word :=
  let c := s.clock
  match off with
  | 0x00 => clkStat s
  | 0x04 => eventsOf .clk s
  | 0x08 => pack [(1, b2n c.idleTgt)]
  | 0x20 => c.islSel.setWidth 32
  | 0x24 =>
    let x := at' c.isl c.islSel.toNat {}
    pack [(24, x.fallbacks.toNat), (8, x.ringPm.toNat), (0, x.src.val)]
  | 0x30 => ckoWord c.cko[0]
  | 0x34 => ckoWord c.cko[1]
  | 0x38 => ckoWord c.cko[2]
  | 0x3C => ckoWord c.cko[3]
  | _ => 0

/-! ### Keyring (R102, R103) -/

/-- KEY_PAGEn (R103). -/
def keyPage (n : Fin 2) (s : State) : Word :=
  let k := s.key
  let page := k.flash[pageIdx false n]
  let st := pageState page
  pack [(30, st), (29, b2n (k.runKey == some n)), (28, b2n k.verified[pageIdx false n]),
    (0, if st = 0 then 0 else pageGen page)]

/-- KEY_STAT (R103). -/
def keyStat (s : State) : Word :=
  let k := s.key
  pack [(16, secUp (idleLeft s)), (10, b2n k.fwFallback), (9, (k.runFw.getD 0).val), (8, (k.runKey.getD 0).val),
    (7, b2n k.keyFallback), (6, b2n k.safeAuth), (5, b2n k.running.isSome), (1, k.owner.toNat), (0, b2n k.session)]

/-- KEY_SLOTS (R103). -/
def keySlots (s : State) : Word :=
  let k := s.key
  pack [(16, k.signer.toNat), (8, k.rollback), (6, k.slotState[3].val), (4, k.slotState[2].val), (2, k.slotState[1].val),
    (0, k.slotState[0].val)]

/-- Keyring and flash (R102, R103). -/
def readKey (off : Nat) (s : State) : Word :=
  let k := s.key
  if 0x1000 ≤ off then (if off < 0x2000 then wd (leNat (sparseRange 0 k.buf (off - 0x1000) 4)) else 0)
  else match off with
    | 0x00 => keyStat s
    | 0x04 => eventsOf .key s
    | 0x0C => k.arg
    | 0x10 => pack [(16, k.resSeq.toNat), (8, k.resOp.toNat), (0, k.resCode.toNat)]
    | 0x14 => keyPage 0 s
    | 0x18 => keyPage 1 s
    | 0x1C => keySlots s
    | 0x20 => wd Config.moduleUid
    | 0x24 => wd (Config.moduleUid / 2 ^ 32)
    | 0x28 => wd (Config.moduleUid / 2 ^ 64)
    | 0x2C => wd (Config.moduleUid / 2 ^ 96)
    | 0x30 => k.serial
    | 0x34 => pack [(16, k.badIndex.toNat), (0, k.badType.toNat)]
    | 0x38 => k.rwkAddr
    | _ => 0

/-! ### Mesh and access (R121, R122) -/

/-- The entry of the selected segment and slot. -/
def slotEntry (t : Vector (List (Nat × Half)) 4) (s : State) : Word :=
  (sparseGet 0 t[s.mesh.segSel.toFin] s.mesh.slotSel.toNat).setWidth 32

/-- Hinge mesh, the locks apart (R121, R122). -/
def readMesh (off : Nat) (s : State) : Word :=
  let m := s.mesh
  let c := at' m.cnt m.cntSel.toNat {}
  match off with
  | 0x00 => m.swapPend.setWidth 32
  | 0x04 => eventsOf .mesh s
  | 0x10 => pack [(16, m.segSel.toNat), (0, m.slotSel.toNat)]
  | 0x14 => slotEntry m.active s
  | 0x18 => slotEntry m.shadow s
  | 0x20 => m.cntSel.setWidth 32
  | 0x24 => c.grants
  | 0x28 => c.waits
  | 0x2C => c.maxWait
  | 0x40 => pack [(22, b2n m.cycNoLock), (16, m.cycLock.toNat), (12, m.cycVictim.toNat), (8, m.cycLength.toNat),
      (0, m.cycCount.toNat)]
  | _ => 0

/-- Access block (R121, R122). -/
def readAcc (off : Nat) (s : State) : Word :=
  let m := s.mesh
  let w := accessWord m.access m.accSel.toNat
  match off with
  | 0x00 => eventsOf .acc s
  | 0x04 => m.vcount.setWidth 32
  | 0x08 => m.vlog0
  | 0x0C => m.vlog1
  | 0x10 => m.accSel.setWidth 32
  | 0x14 => wd w
  | 0x18 => wd (w / 2 ^ 32)
  | _ => 0

/-! ### Gate channels (R249, R250) -/

/-- RETRIES of GCH_STAT: a latched channel shows the count that latched it (R242, R250). -/
def retries (c : Fin 32) (s : State) : Nat :=
  if (s.gate.ch[c]).state = 5 then min 4 ((chanRec c s).rtMax + 1) else min 4 (recentEvents s c)

/-- Ticks left of the retry wait of a channel (R241, R250): none outside state 4. -/
def waitLeft (c : Fin 32) (s : State) : Nat :=
  match s.gate.faults.find? fun e => e.chans.contains c && e.waitEnd.isSome && (s.gate.ch[c]).state == 4 with
  | some e => e.waitEnd.getD 0 - s.now
  | none => 0

/-- GCH_STAT of the selected channel (R250). -/
def gchStat (s : State) : Word :=
  let c := selCh s
  let x := s.gate.ch[c]
  pack [(16, min 65535 (waitLeft c s / 400000)), (12, retries c s), (8, x.cause.val), (6, b2n (x.warnPos || x.warnNeg)),
    (5, b2n (gateOn s c)), (4, b2n x.spare), (0, x.state.val)]

/-- Gate supervisor and channels (R250). -/
def readGch (off : Nat) (s : State) : Word :=
  let g := s.gate
  let c := selCh s
  let x := g.ch[c]
  let k := chanRec c s
  let has := hasRec s 0x52 c.val
  let cfg (w : Word) : Word := if has then w else 0
  match off with
  | 0x00 => wd (mapBits g.ch fun x => decide (3 ≤ x.state.val))
  | 0x04 => eventsOf .gch s
  | 0x08 => wd (mapBits g.ch fun x => x.state == 5)
  | 0x0C => wd (mapBits g.ch fun x => x.spare)
  | 0x10 => g.sel.setWidth 32
  | 0x14 => gchStat s
  | 0x1C => pack [(16, x.repNeg.toNat), (0, x.repPos.toNat)]
  | 0x20 => x.repA.setWidth 32
  | 0x24 => pack [(16, x.ogRun.toNat), (0, x.repQg.toNat)]
  | 0x28 => x.trips.setWidth 32
  | 0x30 => cfg (pack [(16, k.ls), (0, k.scVth)])
  | 0x34 => cfg (pack [(16, k.iHard), (0, k.iSc)])
  | 0x38 => cfg (pack [(16, k.blank), (0, k.rtWait)])
  | 0x3C => cfg (pack [(16, k.qgMax), (0, k.qgMin)])
  | 0x40 => cfg (pack [(16, k.softT), (8, k.softI), (4, k.ogCnt - 1), (3, b2n k.spareAuto), (0, k.rtMax)])
  | _ => 0

/-! ### Claims and the Tsuin link (R266, R267) -/

/-- STATE_A and STATE_B of CLM_STAT (R267): the senior healthy lane is the active one, the other the standby. -/
def laneStateCode (l : Lane) (s : State) : Nat :=
  match (s.lc l).health with
  | .absent => 0
  | .faulted => 1
  | .selfCheck | .mirror | .matching => 2
  | .healthy => if seniorLane s = l then 4 else 3
  | .parked => 5

/-- CLM_STAT (R267). -/
def clmStat (s : State) : Word :=
  let k := s.claim
  let b := forwards .b s
  pack [(24, k.b.claim.toNat), (16, k.a.claim.toNat), (12, b2n k.prefB), (11, b2n (decide (0 < b ∧ b < 32))),
    (10, b2n (k.tum.toList.any (·.hold))), (9, b2n (decide (16 < b))), (4, laneStateCode .b s), (0, laneStateCode .a s)]

/-- CLM_CAUSE (R267). -/
def clmCause (s : State) : Word := pack [(8, s.claim.b.cause.toNat), (0, s.claim.a.cause.toNat)]

/-- A channel of TSU_STAT. -/
def tsuBits (t : TsuChannel) : Nat := t.good.toNat + 32 * b2n t.spareUsed + 64 * b2n t.up

/-- Lanes, claims and Tsuin (R267). -/
def readClm (off : Nat) (s : State) : Word :=
  let k := s.claim
  match off with
  | 0x00 => clmStat s
  | 0x04 => eventsOf .clm s
  | 0x08 => pack [(5, b2n k.noRevert), (4, b2n k.prefB), (0, k.holdN.toNat)]
  | 0x10 => clmCause s
  | 0x14 => wd (mapBits k.tum fun t => decide (t.src = .b))
  | 0x18 => wd (mapBits k.tum fun t => t.hold)
  | 0x1C => pack [(16, k.switches.toNat), (0, k.ties.toNat)]
  | 0x20 => pack [(8, k.b.recoveries.toNat), (0, k.a.recoveries.toNat)]
  | 0x24 => pack [(16, k.skewMax.toNat), (0, k.skewErr.toNat)]
  | 0x40 => pack [(16, b2n k.trained), (8, tsuBits k.ba), (0, tsuBits k.ab)]
  | 0x44 => pack [(16, k.ba.errs.toNat), (0, k.ab.errs.toNat)]
  | 0x48 => k.unagreed
  | _ => 0

end Sys2Proof.Machine
end

