-- ==== Sys2Proof/Machine/NetRead.lean ====
section
/-! DEFINITION. What a read of a register of the network, time, CAN, field, pulse-lock, host and wear blocks returns,
effects of the read apart (R288, R302, R316, R334, R361, R370). -/

namespace Sys2Proof.Machine

/-! ### Network and time (R287, R288) -/

/-- NET_STAT (R288). -/
def netStat (s : State) : Word :=
  let n := s.net
  pack [(9, b2n n.lanFault.isSome), (8, b2n n.stopped), (6, n.mode.val), (4, n.port[1].speed.val),
    (2, n.port[0].speed.val), (1, b2n n.port[1].link), (0, b2n n.port[0].link)]

/-- A signed number that saturates at 32 bits. -/
def satInt32 (i : Int) : Word := wdInt (clampInt (-2147483648) 2147483647 i)

/-- TIME_STAT (R288). -/
def timeStat (s : State) : Word :=
  let t := s.time
  pack [(14, b2n (t.dom[t.sel]).utcValid), (13, b2n (decide (s.md ≤ 3 ∨ s.md = 11))), (12, b2n (residNow s != 0)),
    (8, t.dom[1].state.val), (4, t.dom[0].state.val), (0, t.sel.val)]

/-- A register of a time domain (R288). -/
def readDomain (k : Fin 2) (off : Nat) (s : State) : Word :=
  let d := s.time.dom[k]
  match off with
  | 0x00 => wd (secOf (domNow k s)).toNat
  | 0x04 => (at' s.time.secHi (1 + k.val) 0).setWidth 32
  | 0x08 => at' s.time.nsec (1 + k.val) 0
  | 0x0C => satInt32 d.offset
  | 0x10 => satInt32 d.anchor.rate
  | 0x14 => pack [(16, d.domain.toNat), (8, d.source.val), (4, d.port.val), (0, d.state.val)]
  | 0x18 => wd (d.gmId.toNat / 2 ^ 32)
  | 0x1C => wd d.gmId.toNat
  | _ => 0

/-- The time registers (R288), offsets from 0x0007_0100. -/
def readTime (off : Nat) (s : State) : Word :=
  let t := s.time
  if 0x40 ≤ off && off < 0x80 then readDomain (Fin.ofNat 2 ((off - 0x40) / 0x20)) (off % 0x20) s
  else match off with
    | 0x00 => timeStat s
    | 0x04 => eventsOf .time s
    | 0x08 => pack [(4, b2n t.noRevert), (0, t.force.toNat)]
    | 0x0C => satInt32 (toNs (residNow s))
    | 0x10 => wd s.raw.toNat
    | 0x14 => t.rawHi
    | 0x18 => wd (secOf (timelineNow s)).toNat
    | 0x1C => (at' t.secHi 0 0).setWidth 32
    | 0x20 => at' t.nsec 0 0
    | 0x24 => wdInt (toNs (timelineNow s))
    | 0x28 => (t.dom[t.sel]).utcOffset.setWidth 32
    | 0x2C => t.ppsSec
    | 0x80 => wd t.cvRaw.toNat
    | 0x84 => wd (t.cvRaw.toNat / 2 ^ 32)
    | 0x8C => wd t.cvSec.toNat
    | 0x90 => t.cvNsec
    | 0x94 => pack [(31, b2n t.cvDone), (30, b2n t.cvOld), (0, t.cvSec.toNat / 2 ^ 32)]
    | _ => 0

/-- Network ports and time (R287, R288). -/
def readNet (off : Nat) (s : State) : Word :=
  let n := s.net
  if 0x100 ≤ off then readTime (off - 0x100) s
  else match off with
    | 0x00 => netStat s
    | 0x04 => eventsOf .net s
    | 0x08 => wd n.mac.toNat
    | 0x0C => wd (n.mac.toNat / 2 ^ 32)
    | 0x10 => n.ip
    | 0x20 => pack [(8, b2n n.cntPort), (0, n.cntIndex.toNat)]
    | 0x24 => at' (if n.cntPort then n.port[1] else n.port[0]).cnt n.cntIndex.toNat 0
    | _ => 0

/-! ### CAN (R301, R302) -/

/-- Word n of a frame's data; bytes beyond its DLC read 0. -/
def canWord (data : List Byte) (n : Nat) : Word := w32 data (4 * n)

/-- CAN_RXHDR of the head of the FIFO. -/
def rxHdr (x : CanRx) : Word := pack [(31, 1), (0, x.frame.id.toNat)]

/-- CAN_RXINFO of the head of the FIFO. -/
def rxInfo (x : CanRx) : Word :=
  let f := x.frame
  pack [(12, b2n f.ide), (11, b2n f.fdf), (10, b2n f.brs), (9, b2n f.esi), (4, x.filter.toNat), (0, f.dlc.toNat)]

/-- A register of the head of the receive FIFO (R302); an empty FIFO reads 0. -/
def readRx (off : Nat) (c : CanState) : Word :=
  match c.rx with
  | [] => 0
  | x :: _ =>
    if 0x140 ≤ off && off < 0x180 then canWord x.frame.data (off / 4 % 16)
    else match off with
      | 0x100 => rxHdr x
      | 0x104 => rxInfo x
      | 0x108 => wd x.stamp.toNat
      | 0x10C => wd (x.stamp.toNat / 2 ^ 32)
      | _ => 0

/-- A register of a transmit buffer (R301). -/
def readTx (off : Nat) (b : CanTx) : Word :=
  if 0x40 ≤ off then at' b.data (off / 4 % 16) 0
  else match off with
    | 0x00 => b.hdr
    | 0x04 => b.info
    | 0x08 => wd b.stamp.toNat
    | 0x0C => wd (b.stamp.toNat / 2 ^ 32)
    | _ => 0

/-- CAN port p (R301, R302). -/
def readCan (p : Fin 2) (off : Nat) (s : State) : Word :=
  let c := s.can[p]
  if 0x200 ≤ off then (if off < 0x600 then readTx (off % 0x80) (at' c.buf ((off - 0x200) / 0x80) {}) else 0)
  else if 0x100 ≤ off then readRx off c
  else match off with
    | 0x00 => pack [(16, c.lec.toNat), (12, c.detRate.val), (8, b2n c.alone), (0, c.state.val)]
    | 0x04 => eventsOf (canReg p) s
    | 0x08 => pack [(8, b2n c.useDet), (0, c.mode.toNat)]
    | 0x0C => pack [(24, c.ackRun.toNat), (16, min 255 c.rxErr), (9, c.bitErr.toNat), (0, min 511 c.txErr)]
    | 0x10 => pack [(16, c.rx.length), (0, c.ovf.toNat)]
    | 0x20 => pack [(16, mapBits c.buf (·.pend)), (8, mapBits c.buf (·.done)), (0, mapBits c.buf (·.failed))]
    | _ => 0

/-! ### Field I/O (R315, R316) -/

/-- Field inputs and outputs (R316). -/
def readFio (off : Nat) (s : State) : Word :=
  let f := s.fio
  let x := f.inp[f.sel.toFin]
  let ins (g : Fin 16 → Bool) : Nat := packBits ((idx 16).map g)
  let outs (g : Fin 8 → Bool) : Nat := packBits ((idx 8).map g)
  match off with
  | 0x00 => pack [(11, b2n f.testLight), (8, f.testOut.val), (7, b2n f.testBusy), (4, b2n f.linkOk), (2, b2n f.fsHigh),
      (0, f.fs.val)]
  | 0x04 => eventsOf .fio s
  | 0x08 => pack [(16, ins fun i => diValid i s), (0, ins fun i => diReads i s)]
  | 0x0C => wd (mapBits f.inp (·.wb))
  | 0x10 => wd (mapBits f.out (·.cmd))
  | 0x14 => pack [(16, outs fun j => dqOwned j s), (8, mapBits f.out (·.readback)), (0, outs fun j => dqOn j s)]
  | 0x18 => pack [(24, mapBits f.out (·.lightFail)), (16, mapBits f.out (·.darkFail)), (8, mapBits f.out (·.ext)),
      (0, outs fun j => dqOvl j s)]
  | 0x1C => f.lpv.setWidth 32
  | 0x20 => f.sel.setWidth 32
  | 0x24 => wd x.riseTs.toNat
  | 0x28 => wd (x.riseTs.toNat / 2 ^ 32)
  | 0x2C => wd x.fallTs.toNat
  | 0x30 => wd (x.fallTs.toNat / 2 ^ 32)
  | 0x34 => pack [(16, x.edges.toNat), (0, x.ua.toNat)]
  | 0x38 => pack [(16, f.passed.toNat), (0, f.discards.toNat)]
  | _ => 0

/-! ### Pulse lock (R333, R334) -/

/-- PLK_STAT (R334). -/
def plkStat (s : State) : Word :=
  let p := s.plk
  pack [(15, b2n p.testDue), (13, b2n (resetReady s)), (12, b2n (demandActive s)), (8, p.testCause.toNat),
    (7, b2n p.reduced), (0, p.source.toNat)]

/-- PLK_DIAG (R334). -/
def plkDiag (s : State) : Word :=
  let p := s.plk
  wd (packBits [anyConn s (fun k c => c.state != 2 && conReduces k s), safeOn s && (s.clock.safeSrc || s.clock.safeRing),
    s.fio.on && !s.fio.linkOk, p.pulse, p.readback, p.self])

/-- Pulse lock (R333, R334). -/
def readPlk (off : Nat) (s : State) : Word :=
  let p := s.plk
  let c := p.conn[p.conSel.toFin]
  match off with
  | 0x00 => plkStat s
  | 0x04 => eventsOf .plk s
  | 0x0C => plkDiag s
  | 0x10 => p.enabled
  | 0x14 => p.resp.setWidth 32
  | 0x18 => p.lastTest
  | 0x20 => p.conSel.setWidth 32
  | 0x24 => pack [(16, c.seq.toNat), (8, c.err.toNat), (4, b2n c.run), (0, c.state.val)]
  | 0x28 => pack [(16, c.crcCnt.toNat), (0, c.fails.toNat)]
  | 0x30 => pack [(4, p.logEntry.toNat), (0, p.logWord.toNat)]
  | 0x34 => w32 (p.log.getD p.logEntry.toNat []) (4 * p.logWord.toNat)
  | 0x38 => pack [(8, match p.lockEnd with
      | none => 0
      | some e => secUp (e - s.now)), (0, p.pwFails.toNat)]
  | 0x3C => p.logCnt
  | _ => 0

/-! ### Host command processor (R360, R361) -/

/-- The status word of a mailbox as a result read returns it (R358, R361). -/
def mboxWord (x : Mailbox) : Word :=
  pack [(16, x.seq.toNat), (8, x.op.toNat), (4, x.status.toNat), (2, b2n x.running.isSome), (1, b2n x.readMark),
    (0, b2n (x.posted && x.running.isNone))]

/-- Host command processor (R361). -/
def readHcp (off : Nat) (s : State) : Word :=
  let h := s.host
  match off with
  | 0x00 => pack [(8, h.net.out.length), (0, h.hsp.out.length)]
  | 0x04 => eventsOf .hcp s
  | 0x0C => pack [(8, h.dbStatus.toNat), (0, h.dbTarget.toNat)]
  | 0x10 => h.mbSel.setWidth 32
  | 0x14 => mboxWord h.mbox[h.mbSel.toFin]
  | 0x20 => h.latched[0]
  | 0x24 => h.latched[1]
  | 0x28 => h.latched[2]
  | 0x2C => h.latched[3]
  | 0x30 => pack [(16, h.net.errCnt.toNat), (0, h.hsp.errCnt.toNat)]
  | _ => 0

/-! ### Wear (R369, R370) -/

/-- Resource and lane of WEAR_SEL. -/
def wearRes (s : State) : Nat := fld s.wear.sel 0 4
def wearLane (s : State) : Nat := fld s.wear.sel 8 2

/-- The lanes that hold spares of a resource. -/
def wearLanes (res : Nat) : List Nat := (List.range 3).filter fun l => decide (0 < spareTotal res l)

/-- Wear, spares and hinge swaps (R370). -/
def readWear (off : Nat) (s : State) : Word :=
  let w := s.wear
  match off with
  | 0x00 => pack [
      (16, packBits ((List.range 10).map fun r => (wearLanes r).any fun l => spareLeft r l s == 0)),
      (0, packBits ((List.range 10).map fun r => (wearLanes r).any fun l => decide (0 < spareUsed r l s)))]
  | 0x04 => eventsOf .wear s
  | 0x10 => w.sel
  | 0x14 => pack [(16, spareTotal (wearRes s) (wearLane s)), (0, spareUsed (wearRes s) (wearLane s) s)]
  | 0x18 => at' w.ecc (wearLane s) 0
  | 0x20 => w.logCnt
  | 0x24 => w.logSel
  | 0x28 => w32 (w.log.getD (fld w.logSel 4 14) []) (4 * fld w.logSel 0 3)
  | 0x2C => w.mapGen
  | _ => 0

end Sys2Proof.Machine
end

