-- ==== Sys2Proof/Machine/LaneRead.lean ====
section
/-! DEFINITION. What a read of a register of a lane's blocks returns, effects of the read apart (R142, R168, R186, R213,
R233, R349, R373, R374). -/

namespace Sys2Proof.Machine

/-! ### Measurement and filters (R141, R142) -/

/-- MEAS_PINSTAT (R142). -/
def pinStat (l : Lane) (pin : Fin 32) (s : State) : Word :=
  let p := (s.lane l).meas.pin[pin]
  let vote := ((s.lane .a).meas.pin[pin]).vote.isSome || ((s.lane .b).meas.pin[pin]).vote.isSome
  let mode := if !measRuns l s then 0 else if !pinOn pin s then 3 else if pinIlv pin s then 2 else if pinTrig pin s then 1 else 0
  pack [(13, b2n vote), (12, b2n p.xchkBad), (11, b2n p.ovr), (10, b2n p.opened), (8, p.win.val), (4, p.conv.val),
    (3, b2n p.asleep), (2, b2n p.primaryB), (0, mode)]

/-- Measurement block (R142). -/
def readMeas (l : Lane) (off : Nat) (s : State) : Word :=
  let m := (s.lane l).meas
  let pin : Fin 32 := m.pinSel.toFin
  let p := m.pin[pin]
  match off with
  | 0x00 => pack [(28, ((idx 4).filter fun i => spareFree l i s).length), (16, m.slips.toNat), (3, b2n m.anchored),
      (0, ((anchorOf s).getD 0).val)]
  | 0x04 => eventsOf (.meas l) s
  | 0x10 => m.pinSel.setWidth 32
  | 0x14 => pinStat l pin s
  | 0x18 => pack [(16, p.other.toNat), (0, p.own.toNat)]
  | 0x1C => pack [(16, p.xchkCount.toNat), (0, p.xchkMax.toNat)]
  | 0x20 => p.winLo.setWidth 32
  | 0x24 => p.winHi.setWidth 32
  | 0x28 => p.skew.setWidth 32
  | _ => 0

/-- FLT_CFG of a pin (R142): a pin without a filter chain reads 0. -/
def fltCfg (pin : Fin 32) (s : State) : Word :=
  if !pinChain pin s then 0
  else
    let c := chainCfg (recD s 0x31 pin.val)
    pack [(20, c.taps), (16, c.firDec - 1), (4, c.cicDec - 1), (3, b2n c.dcEn), (0, c.order)]

/-- FLT_STAT of a pin (R142). -/
def fltStat (l : Lane) (pin : Fin 32) (s : State) : Word :=
  let p := (s.lane l).meas.pin[pin]
  let c := chainCfg (recD s 0x31 pin.val)
  let m9 := s.md == 9
  let has := pinChain pin s
  wd (packBits [p.run, p.settled, has && dcFrozen c p m9, has && (c.dcFreeze % 2 == 1 && p.win != 0),
    has && (c.dcFreeze / 2 % 2 == 1 && m9), p.freeze])

/-- Filter block (R142). -/
def readFlt (l : Lane) (off : Nat) (s : State) : Word :=
  let m := (s.lane l).meas
  let pin : Fin 32 := m.fltSel.toFin
  let p := m.pin[pin]
  match off with
  | 0x00 => m.fltSel.setWidth 32
  | 0x04 => pack [(1, b2n p.freeze), (0, b2n p.run)]
  | 0x08 => fltStat l pin s
  | 0x0C => fltCfg pin s
  | 0x10 => p.coefSel.setWidth 32
  | 0x14 => (p.coef.getD p.coefSel.toNat 0).setWidth 32
  | 0x18 => p.out
  | 0x1C => F32.ofRat (fval p.dcE * mkRat 3125 10000000 * fval (winCfg (pinRec pin s)).scale)
  | 0x20 => eventsOf (.flt l) s
  | _ => 0

/-! ### Loop engine and traces (R167, R168) -/

/-- Every chain that feeds a context of a lane is settled now (R149). -/
def chainsSettled (l : Lane) (c : Fin 8) (s : State) : Bool :=
  (ctxPins c s).all fun pin =>
    ((s.lane (vectorLane l pin (if samplesCut l s then ctxPins c s else []) s)).meas.pin[pin]).settled

/-- ENG_CTXSTAT (R149, R168): STATE reads 3 while an input's chain is not settled. -/
def ctxStat (l : Lane) (c : Fin 8) (s : State) : Word :=
  let x := (s.lane l).eng.ctx[c]
  let state := if x.state = 2 && !chainsSettled l c s then 3 else x.state.val
  let swap := x.pend.any fun e => decide (e.2 = .swap)
  pack [(16, x.osc.val), (8, x.missRun.val), (5, b2n x.live), (4, b2n swap), (3, b2n x.bank), (0, state)]

/-- Loop engine (R168). -/
def readEng (l : Lane) (off : Nat) (s : State) : Word :=
  let e := (s.lane l).eng
  let c : Fin 8 := e.ctxSel.toFin
  let x := e.ctx[c]
  match off with
  | 0x00 => pack [(24, fmaSpares l s), (16, fmaUnits l s), (8, b2n e.laneFault), (0, mapBits e.ctx fun x => decide (2 ≤ x.state.val))]
  | 0x04 => eventsOf (.eng l) s
  | 0x10 => e.ctxSel.setWidth 32
  | 0x14 => ctxStat l c s
  | 0x18 => w32 (recD s 0x40 c.val) 0
  | 0x1C => w32 (recD s 0x40 c.val) 4
  | 0x20 => x.steps
  | 0x24 => x.misses.setWidth 32
  | 0x28 => pack [(16, x.cycMax.toNat), (0, x.cycLast.toNat)]
  | 0x2C => x.numSub
  | 0x30 => x.clamps
  | 0x40 => pack [(16, b2n e.coefBank), (0, e.coefIndex.toNat)]
  | 0x44 => coefVal l c e.coefBank e.coefIndex.toNat s
  | 0x4C => wd (b2n x.live)
  | 0x50 => e.nodeSel.setWidth 32
  | 0x54 => nodeVal l e.nodeSel.toNat s
  | 0x60 => x.oscBand
  | 0x64 => x.oscRatio
  | _ => 0

/-- Trace taps (R168). -/
def readTrc (l : Lane) (off : Nat) (s : State) : Word :=
  let e := (s.lane l).eng
  let x := e.tap[tapIdx e.trcCtx.toFin e.trcTap.toFin]
  match off with
  | 0x00 => pack [(4, e.trcCtx.toNat), (0, e.trcTap.toNat)]
  | 0x04 => pack [(2, x.freezeOn.toNat), (0, b2n x.run)]
  | 0x08 => pack [(17, b2n x.frozen), (16, b2n x.wrapped), (0, x.wptr.toNat)]
  | 0x0C => pack [(31, b2n x.en), (24, b2n x.spec), (16, x.decim.toNat), (0, x.node.toNat)]
  | _ => 0

/-! ### Run-ahead (R185, R186) -/

/-- STATE of RA_CTXSTAT (R186). -/
def raStateCode (l : Lane) (c : Fin 8) (s : State) : Nat :=
  if !hasRec s 0x42 c.val then 0
  else if !((s.lane l).ra.ctx[c]).on then 1
  else if commitEn l s then 2
  else 3

/-- A checkpoint slot reads a node (R183, R184): what it holds in its context's node range, 0 in a slot never used. Of a
released slot, and outside the range, the value is open: none (log entry 4). -/
def ckRead (l : Lane) (s : State) : Option Word :=
  let r := (s.lane l).ra
  match r.slot[r.ckSlot.toFin] with
  | none => some 0
  | some k =>
    match graphOf k.ctx s with
    | none => none
    | some g => if k.valid && ownNode g r.ckNode.toNat then some (sparseGet 0 k.nodes r.ckNode.toNat) else none

/-- Run-ahead unit (R186), RA_CKDAT apart. -/
def readRa (l : Lane) (off : Nat) (s : State) : Word :=
  let r := (s.lane l).ra
  let c : Fin 8 := r.ctxSel.toFin
  let x := r.ctx[c]
  match off with
  | 0x00 => pack [(8, b2n (commitEn l s)), (0, mapBits r.ctx (·.on))]
  | 0x04 => eventsOf (.ra l) s
  | 0x08 => wd (b2n r.inhibit)
  | 0x10 => r.ctxSel.setWidth 32
  | 0x14 => pack [(24, x.hDone), (20, mapBits x.next (·.isSome)), (16, mapBits x.armed (·.isSome)), (12, mapBits x.blocked id),
      (8, x.cause.val), (4, b2n x.predOk), (0, raStateCode l c s)]
  | 0x18 => pack [(30, r.lastBranch.toNat), (24, r.lastSource.toNat), (16, r.lastCtxs.toNat), (0, r.lastLatency.toNat)]
  | 0x20 => x.commits
  | 0x24 => x.noBranch.setWidth 32
  | 0x28 => x.misses
  | 0x2C => x.squashes
  | 0x30 => r.laneDiff.setWidth 32
  | 0x40 => pack [(16, r.ckSlot.toNat), (0, r.ckNode.toNat)]
  | 0x44 => (ckRead l s).getD 0
  | 0x48 =>
    match r.slot[r.ckSlot.toFin] with
    | none => 0
    | some k => pack [(31, b2n k.valid), (8, k.ctx.val), (0, k.ahead)]
  | _ => 0

/-! ### Grid-forming (R212, R213) -/

/-- The parameter at an offset (R208, R213): GF_PSET to GF_FSET, then GF_H to GF_RAMPT. -/
def gfParIdx (off : Nat) : Option (Fin 17) :=
  if 0x10 ≤ off && off < 0x20 then some (Fin.ofNat 17 ((off - 0x10) / 4))
  else if 0x20 ≤ off && off < 0x54 then some (Fin.ofNat 17 (4 + (off - 0x20) / 4))
  else none

/-- Grid-forming block (R212, R213). -/
def readGf (l : Lane) (off : Nat) (s : State) : Word :=
  let g := (s.lane l).gf
  match gfParIdx off with
  | some i => g.par[i]
  | none =>
    match off with
    | 0x00 => g.stat
    | 0x04 => eventsOf (.gf l) s
    | 0x60 => g.p
    | 0x64 => g.q
    | 0x68 => g.freq
    | 0x6C => g.e
    | 0x70 => g.vgp
    | 0x74 => g.vgn
    | 0x78 => g.vdc
    | 0x7C => g.chd
    | 0x80 => g.sph
    | 0x84 => g.sfr
    | 0x88 => g.smg
    | 0x8C => g.chw
    | 0x90 => g.rtUs
    | _ => 0

/-! ### PWM generators and flag groups (R232, R233) -/

/-- PWM_GSTAT (R233). -/
def genStat (x : GenState) : Word :=
  pack [(8, x.n), (7, b2n x.splitPend), (6, b2n x.pend.isSome), (5, b2n x.refill), (2, x.short.val), (0, x.block.val)]

/-- A generator of a lane (R233). -/
def readGen (l : Lane) (g : Fin 16) (off : Nat) (s : State) : Word :=
  let x := (s.lane l).pwm.gen[g]
  let c := genRec g s
  let cfg (w : Word) : Word := if hasRec s 0x51 g.val then w else 0
  match off with
  | 0x00 => wd x.per
  | 0x04 => wd x.duty
  | 0x08 => x.dutyf
  | 0x0C => wd x.dt
  | 0x10 => wd x.minp
  | 0x14 => cfg (pack [(31, b2n c.refillEn), (24, c.refillN), (16, c.syncCtx), (3, b2n c.upd), (0, c.policy)])
  | 0x18 => genStat x
  | 0x1C => wdInt x.carry
  | 0x20 => wd (genCount s x)
  | 0x24 => x.shorts
  | 0x28 => x.refills
  | 0x2C => cfg (pack [(16, c.refillLim), (0, c.refillNs)])
  | 0x30 => cfg (wd c.phase)
  | _ => 0

/-- A generator drives at least one half-bridge (R233). -/
def switching (s : State) (g : Fin 16) (x : GenState) : Bool := x.on && x.block == 0 && !(hbsOf g s).isEmpty

/-- PWM block and flag groups (R233). -/
def readPwm (l : Lane) (off : Nat) (s : State) : Word :=
  let gens := (s.lane l).pwm.gen
  let fg := s.gate.fg
  if 0x100 ≤ off then (if off < 0x500 then readGen l (Fin.ofNat 16 ((off - 0x100) / 0x40)) (off % 0x40) s else 0)
  else match off with
    | 0x00 => pack [(16, mapBits gens fun x => x.block != 0), (0, packBits ((idx 16).map fun g => switching s g gens[g]))]
    | 0x04 => eventsOf (.pwm l) s
    | 0x10 => pack [(8, fg.healthy.toNat), (4, fg.latched.toNat), (0, packBits ((List.range 4).map (groupActive s)))]
    | 0x18 => wd (leNat fg.first.toList)
    | _ => 0

/-! ### Recorder (R348, R349) -/

/-- REC_SEGSTAT (R349). -/
def segStat (r : RecState) : Nat := r.seg.toList.foldr (fun x acc => x.val + 4 * acc) 0

/-- Recorder (R349). -/
def readRec (l : Lane) (off : Nat) (s : State) : Word :=
  let r := (s.lane l).rcd
  let on := hasRec s 0x90 0
  let pin : Fin 32 := r.sel.toFin
  match off with
  | 0x00 => pack [(16, (r.seg.toList.take (if on then recNseg s else 0)).filter (· == 0) |>.length),
      (9, b2n (r.running && tsuUp s && (s.lane (otherLane l)).rcd.running)), (8, b2n r.running), (0, (r.cur.getD 0).val)]
  | 0x04 => eventsOf (.rcd l) s
  | 0x0C => wd (segStat r)
  | 0x10 => pack [(8, r.lastSeq.toNat), (0, r.lastSeg.toNat)]
  | 0x14 => r.lastDead
  | 0x18 => r.missed
  | 0x1C => if on then wd (recCap s) else 0
  | 0x20 => if on && recDec s then wd (recDecCap s) else 0
  | 0x24 => r.sel.setWidth 32
  | 0x28 => pack [(16, r.meas[pin].toNat), (0, r.skew[pin].toNat)]
  | _ => 0

/-! ### Lane status (R374) -/

/-- Aliases of shared registers. -/
def readLaneStat (off : Nat) (s : State) : Word :=
  match off with
  | 0x00 => readMode 0x00 s
  | 0x04 => readMode 0x04 s
  | 0x08 => modeStat s
  | 0x0C => clmStat s
  | 0x10 => clmCause s
  | 0x14 => pwrStat s
  | _ => 0

/-- A register of a lane window (R373). -/
def readLane (l : Lane) (off : Nat) (s : State) : Word :=
  let o := off % 0x10000
  match off / 0x10000 with
  | 0 => readLaneStat o s
  | 1 => readMeas l o s
  | 2 => readFlt l o s
  | 3 => readEng l o s
  | 4 => readRa l o s
  | 5 => readGf l o s
  | 6 => readPwm l o s
  | 7 => readRec l o s
  | 8 => readTrc l o s
  | _ => 0

end Sys2Proof.Machine
end

