-- ==== Sys2Proof/Machine/Mailbox.lean ====
section
/-! DEFINITION. Result mailboxes and the deadbolt's arbiter (R357 to R359). -/

namespace Sys2Proof.Machine

/-- One mailbox changed. -/
def modMbox (k : Fin 16) (f : Mailbox → Mailbox) (s : State) : State :=
  modHost (fun h => { h with mbox := modAt h.mbox k f }) s

/-- A result is posted (R357): it takes the next SEQ, is unread, and RESULT_READY is raised. -/
def postResult (k : Fin 16) (op status : Nat) (r0 r1 : Word) (s : State) : State :=
  let seq := s.host.seq + 1
  raise .hcp 0 (modMbox k (fun x => { x with
    running := none, posted := true, readMark := false, seq := seq, op := BitVec.ofNat 8 op,
    status := BitVec.ofNat 4 status, res := #v[r0, r1, 0, 0] }) (modHost (fun h => { h with seq := seq }) s))

/-- A result read marks what the mailbox last posted as read (R358). -/
def markRead (k : Fin 16) (s : State) : State := modMbox k (fun x => { x with readMark := x.posted }) s

/-- A read of HCP_MBSTAT (R358): the status word, the words it latches, and the read mark. -/
def mbstatRead (s : State) : Word × State :=
  let k : Fin 16 := s.host.mbSel.toFin
  let x := s.host.mbox[k]
  (mboxWord x, markRead k (modHost (fun h => { h with latched := x.res }) s))

/-- HCP_MBSTAT is read. -/
def execMbstatRead (s : State) : Out := .next (mbstatRead s).2

/-! ### The deadbolt's arbiter (R359) -/

/-- HCP_DBRES takes an outcome. -/
def boltResult (target : Byte) (status : Nat) (s : State) : State :=
  modHost (fun h => { h with dbTarget := target, dbStatus := BitVec.ofNat 4 status }) s

/-- What a deadbolt of a target is decided to be (R359): 9 the abort commits first, 10 the target's result has, and
still stands unread, 8 the target does not run, 3 no such target. -/
def boltDecision (target : Byte) (s : State) : Nat :=
  if target = 0x80 then (if s.key.running.isSome then 9 else 8)
  else if h : target.toNat < 16 then
    let x := s.host.mbox[target.toNat]
    if x.running.isSome then 9 else if x.posted && !x.readMark then 10 else 8
  else 3

/-- A deadbolt is decided (R359): one that aborts waits for its target to stop, the others are over at once. -/
def decideBolt (b : PendingBolt) (s : State) : State :=
  match boltDecision b.target s with
  | 9 => modHost (fun h => { h with bolts := h.bolts ++ [b] }) s
  | 10 => raise .hcp 5 (boltResult b.target 10 s)
  | 8 => boltResult b.target 8 s
  | _ => s

/-- A write of HCP_DBOLT: a wrong KEY discards it (R361). -/
def boltWrite (v : Word) (s : State) : State :=
  if fld v 16 16 = 0x4442 then decideBolt { target := BitVec.ofNat 8 (fld v 0 8), port := none, tag := 0, req := {}, at0 := s.now } s
  else s

/-- A target has a deadbolt that waits for it to stop. -/
def boltWaits (target : Byte) (s : State) : Bool := s.host.bolts.any fun b => b.target == target

end Sys2Proof.Machine
end

