-- ==== Sys2Proof/Machine/RegWrite.lean ====
section
/-! DEFINITION. What a write to a register does (R6, R98 and the register tables of the owning chapters): registers of the
shared blocks and of a lane window. A register without an arm is read-only, reserved or unlisted, and keeps its value
(R6, R377). -/

namespace Sys2Proof.Machine

/-- The state a command leads to. -/
def nextOf (o : Out) (s : State) : State :=
  match o with
  | .next t => t
  | _ => s

/-! ### Shared blocks -/

/-- Identity and global mode control (R80). -/
def writeMode (off : Nat) (v : Word) (s : State) : State :=
  match off with
  | 0x14 => requestMode (BitVec.ofNat 16 (fld v 16 16)) (BitVec.ofNat 4 (fld v 0 4)) s
  | 0x18 => clearEvents .mode v s
  | _ => s

/-- 32 of the 256 bits of a bitmap replaced. -/
def setWordOf (b : BitVec 256) (i : Nat) (v : Word) : BitVec 256 :=
  (b &&& ~~~(0xFFFFFFFF#256 <<< (32 * i))) ||| (v.setWidth 256 <<< (32 * i))

/-- Pennant board (R361). -/
def writePnt (off : Nat) (v : Word) (s : State) : State :=
  if off < 0x20 then modHost (fun h => { h with raised := h.raised &&& ~~~(v.setWidth 256 <<< (8 * off)) }) s
  else if off < 0x40 then modHost (fun h => { h with hsp := { h.hsp with sub := setWordOf h.hsp.sub (off / 4 - 8) v } }) s
  else if off < 0x60 then modHost (fun h => { h with net := { h.net with sub := setWordOf h.net.sub (off / 4 - 16) v } }) s
  else if off = 0x60 then modHost (fun h => { h with cntSel := BitVec.ofNat 8 (fld v 0 8) }) s
  else s

/-- Power manager (R38, R39, R46 to R49). -/
def writePwr (off : Nat) (v : Word) (s : State) : State :=
  match off with
  | 0x04 =>
    let s1 := clearEvents .pwr (v &&& 0xFFFFFF7F) s
    if bit v 7 then nextOf (execGpCutRearm s1) s1 else s1
  | 0x20 => nextOf (execGpCtlWrite v s) s
  | 0x28 => nextOf (execGpFaultClear v s) s
  | 0x30 => if fld v 0 5 < 22 then modPower (fun p => { p with islSel := BitVec.ofNat 5 (fld v 0 5) }) s else s
  | _ => s

/-- EN of a clock output (R66, R68). -/
def setCko (n : Fin 4) (v : Word) (s : State) : State :=
  modClock (fun c => { c with cko := modAt c.cko n fun x => { x with en := bit v 0 } }) s

/-- Clock synthesis (R62, R63, R67, R68). -/
def writeClk (off : Nat) (v : Word) (s : State) : State :=
  match off with
  | 0x04 => clearEvents .clk v s
  | 0x08 =>
    let s1 := nextOf (execSpareIdleTgtWrite (bit v 1) s) s
    if bit v 0 then nextOf (execSpareRelease s1) s1 else s1
  | 0x20 => if fld v 0 5 < 22 then modClock (fun c => { c with islSel := BitVec.ofNat 5 (fld v 0 5) }) s else s
  | 0x30 => setCko 0 v s
  | 0x34 => setCko 1 v s
  | 0x38 => setCko 2 v s
  | 0x3C => setCko 3 v s
  | _ => s

/-- A write of KEY_CMD (R99, R103). -/
def keyCmd (m : Master) (v : Word) (s : State) : State :=
  let key := BitVec.ofNat 16 (fld v 16 16)
  let fw := bit v 8
  match fld v 0 8 with
  | 1 => openCmd m key fw s
  | 2 => nextOf (execKeyClose m key fw s) s
  | 3 => nextOf (execKeyErase m key fw s) s
  | 4 => nextOf (execKeyProgram m key fw s) s
  | 5 => nextOf (execKeyVerify m key fw s) s
  | 6 => nextOf (execKeyCommit m key fw s) s
  | 7 => nextOf (execKeySafeauth m key fw s) s
  | 8 => nextOf (execKeyAdvance m key fw s) s
  | 9 => nextOf (execKeyProgslot m key fw s) s
  | 10 => nextOf (execKeyRevoke m key fw s) s
  | op => nextOf (execKeyCmdUnlisted m key fw (BitVec.ofNat 8 op) s) s

/-- Keyring and flash (R96, R102, R103). -/
def writeKey (m : Master) (off : Nat) (v : Word) (s : State) : State :=
  if 0x1000 ≤ off && off < 0x2000 then keyBufWord m ((off - 0x1000) / 4) v s
  else match off with
    | 0x04 => clearEvents .key v s
    | 0x08 => keyCmd m v s
    | 0x0C => modKey (fun k => { k with arg := v }) s
    | _ => s

/-- The selected entry of the shadow table takes a value (R110). -/
def setShadow (v : Word) (s : State) : State :=
  modMesh (fun x => { x with
    shadow := modAt x.shadow x.segSel.toFin fun t => sparsePut 0 t x.slotSel.toNat (BitVec.ofNat 16 (fld v 0 16)) }) s

/-- Hinge mesh (R110, R115, R116, R122). -/
def writeMesh (m : Master) (off : Nat) (v : Word) (s : State) : State :=
  if 0x100 ≤ off && off < 0x200 then (if bit v 0 then releaseLock m (Fin.ofNat 64 (off / 4 % 64)) s else s)
  else match off with
    | 0x04 => clearEvents .mesh v s
    | 0x08 => swapSlots m (BitVec.ofNat 4 (fld v 0 4)) s
    | 0x10 => modMesh (fun x => { x with
        segSel := BitVec.ofNat 2 (fld v 16 2), slotSel := BitVec.ofNat 9 (fld v 0 9) }) s
    | 0x18 => rwkWrite m (wd (0x40000 + off)) (setShadow v) s
    | 0x20 => if fld v 0 4 < 14 then modMesh (fun x => { x with cntSel := BitVec.ofNat 4 (fld v 0 4) }) s else s
    | 0x30 => if bit v 0 then nextOf (execMeshCntclr s) s else s
    | _ => s

/-- Access block (R120, R122). -/
def writeAcc (off : Nat) (v : Word) (s : State) : State :=
  match off with
  | 0x00 => clearEvents .acc v s
  | 0x10 => if (segOf (fld v 0 6)).isSome then modMesh (fun x => { x with accSel := BitVec.ofNat 6 (fld v 0 6) }) s else s
  | _ => s

/-- A CLEAR of the selected channel; what the self-test it may need measures is open (R244; log entry 4). -/
def gchClearWrite (s : State) : State :=
  let (n, s1) := takeFree s
  nextOf (execGchClear (n % 4096, n / 4096 % 4096) (n / 16777216 % 4096) s1) s1

/-- Gate supervisor and channels (R244, R247, R250). -/
def writeGch (off : Nat) (v : Word) (s : State) : State :=
  match off with
  | 0x04 => clearEvents .gch v s
  | 0x10 => modGate (fun g => { g with sel := BitVec.ofNat 5 (fld v 0 5) }) s
  | 0x18 =>
    let s1 := if bit v 0 then gchClearWrite s else s
    if bit v 1 then nextOf (execGchSelftest s1) s1 else s1
  | _ => s

/-- A write of CLM_CMD (R267). -/
def clmCmd (v : Word) (s : State) : State :=
  let key : Half := BitVec.ofNat 16 (fld v 16 16)
  if key ≠ 0x434C then raise .clm 13 s
  else
    let s1 := if bit v 0 then offlineCmd key .a s else s
    let s2 := if bit v 1 then offlineCmd key .b s1 else s1
    let s3 := if bit v 2 then recoverCmd key .a s2 else s2
    if bit v 3 then recoverCmd key .b s3 else s3

/-- Lanes, claims and Tsuin (R265, R267). -/
def writeClm (m : Master) (off : Nat) (v : Word) (s : State) : State :=
  match off with
  | 0x04 => clearEvents .clm v s
  | 0x08 => rwkWrite m clmCtlAddr (setClmCtl v) s
  | 0x0C => clmCmd v s
  | _ => s

/-- TIME_PPSSEC (R282). -/
def setPpsSec (v : Word) (s : State) : State := modTime (fun t => { t with ppsSec := v }) s

/-- Network ports and time (R281, R282, R284, R288). -/
def writeNet (m : Master) (off : Nat) (v : Word) (s : State) : State :=
  match off with
  | 0x004 => clearEvents .net v s
  | 0x020 => if fld v 0 4 < 10 then modNet (fun n => { n with
      cntPort := bit v 8, cntIndex := BitVec.ofNat 4 (fld v 0 4) }) s else s
  | 0x104 => clearEvents .time v s
  | 0x108 => rwkWrite m 0x70108 (setTimeCtl v) s
  | 0x12C => rwkWrite m 0x7012C (setPpsSec v) s
  | 0x180 => modTime (fun t => { t with cvRaw := BitVec.ofNat 64 (t.cvRaw.toNat / 2 ^ 32 * 2 ^ 32 + v.toNat) }) s
  | 0x184 => modTime (fun t => { t with cvRaw := BitVec.ofNat 64 (t.cvRaw.toNat % 2 ^ 32 + v.toNat * 2 ^ 32) }) s
  | 0x188 => cvStart v s
  | _ => s

/-- A CAN port (R292, R294 to R296, R302). -/
def writeCan (p : Fin 2) (off : Nat) (v : Word) (s : State) : State :=
  if 0x200 ≤ off && off < 0x600 then
    let b : Fin 8 := Fin.ofNat 8 ((off - 0x200) / 0x80)
    let w := off / 4 % 32
    if w < 2 || 16 ≤ w then canTxbufWrite p b (Fin.ofNat 32 w) v s else s
  else match off with
    | 0x04 => clearEvents (canReg p) v s
    | 0x08 => canCtl p v s
    | 0x14 => if bit v 0 then nextOf (execCanRxpop p s) s else s
    | 0x18 => canTxreq p (BitVec.ofNat 8 (fld v 0 8)) s
    | 0x1C => canTxabort p (BitVec.ofNat 8 (fld v 0 8)) s
    | _ => s

/-- Field inputs and outputs (R310, R316). -/
def writeFio (off : Nat) (v : Word) (s : State) : State :=
  match off with
  | 0x04 => clearEvents .fio v s
  | 0x10 => fioDqset v s
  | 0x20 => modFio (fun f => { f with sel := BitVec.ofNat 4 (fld v 0 4) }) s
  | _ => s

/-- Pulse lock (R320, R324, R334). -/
def writePlk (off : Nat) (v : Word) (s : State) : State :=
  match off with
  | 0x04 => clearEvents .plk v s
  | 0x08 =>
    let key : Half := BitVec.ofNat 16 (fld v 16 16)
    let s1 := if bit v 1 then plkDemand key s else s
    if bit v 0 then plkReset (.host key) s1 else s1
  | 0x20 => modPlk (fun p => { p with conSel := BitVec.ofNat 3 (fld v 0 3) }) s
  | 0x30 => modPlk (fun p => { p with
      logEntry := BitVec.ofNat 10 (fld v 4 10), logWord := BitVec.ofNat 4 (fld v 0 4) }) s
  | _ => s

/-- Host command processor (R359, R361). -/
def writeHcp (off : Nat) (v : Word) (s : State) : State :=
  match off with
  | 0x04 => clearEvents .hcp v s
  | 0x08 => boltWrite v s
  | 0x10 => modHost (fun h => { h with mbSel := BitVec.ofNat 4 (fld v 0 4) }) s
  | _ => s

/-- Wear (R370). -/
def writeWear (off : Nat) (v : Word) (s : State) : State :=
  match off with
  | 0x04 => clearEvents .wear v s
  | 0x10 => if fld v 0 4 < 10 then modWear (fun w => { w with sel := v &&& 0x30F }) s else s
  | 0x24 => modWear (fun w => { w with logSel := v &&& 0x3FFF7 }) s
  | _ => s

/-! ### Lane blocks -/

/-- A window threshold or the trim of the selected pin (R129, R134, R142). -/
def setPin (l : Lane) (f : PinState → PinState) (s : State) : State := modPin l (s.lane l).meas.pinSel.toFin f s

/-- Measurement block (R124, R129, R134, R142). -/
def writeMeas (m : Master) (l : Lane) (off : Nat) (v : Word) (s : State) : State :=
  let a := laneAddr l (0x10000 + off)
  match off with
  | 0x04 => clearEvents (.meas l) v s
  | 0x10 => modMeas l (fun x => { x with pinSel := BitVec.ofNat 5 (fld v 0 5) }) s
  | 0x20 => rwkWrite m a (setPin l fun p => { p with winLo := BitVec.ofNat 16 (fld v 0 16) }) s
  | 0x24 => rwkWrite m a (setPin l fun p => { p with winHi := BitVec.ofNat 16 (fld v 0 16) }) s
  | 0x28 =>
    rwkWrite m a (when (pinIlv (s.lane l).meas.pinSel.toFin s) (setPin l fun p => { p with
      skew := BitVec.ofNat 6 (fld v 0 6) })) s
  | 0x2C => if bit v 0 then owTestStart l s else s
  | _ => s

/-- FLT_COEFSEL takes a tap of the selected pin (R142). -/
def setCoefSel (l : Lane) (v : Word) (s : State) : State :=
  let pin : Fin 32 := (s.lane l).meas.fltSel.toFin
  if fld v 0 7 < ((s.lane l).meas.pin[pin]).coef.length then
    modPin l pin (fun p => { p with coefSel := BitVec.ofNat 7 (fld v 0 7) }) s
  else s

/-- Filter block (R139, R142). -/
def writeFlt (m : Master) (l : Lane) (off : Nat) (v : Word) (s : State) : State :=
  match off with
  | 0x00 => modMeas l (fun x => { x with fltSel := BitVec.ofNat 5 (fld v 0 5) }) s
  | 0x04 => fltCtl l v s
  | 0x10 => setCoefSel l v s
  | 0x14 => fltCoefdat l m v s
  | 0x20 => clearEvents (.flt l) v s
  | _ => s

/-- ENG_COEFMODE (R155). -/
def setCoefMode (l : Lane) (v : Word) (s : State) : State :=
  modCtx l (s.lane l).eng.ctxSel.toFin (fun x => { x with livePend := some (bit v 0) }) s

/-- Loop engine (R153 to R155, R168). -/
def writeEng (m : Master) (l : Lane) (off : Nat) (v : Word) (s : State) : State :=
  match off with
  | 0x04 => clearEvents (.eng l) v s
  | 0x10 => modEng l (fun e => { e with ctxSel := BitVec.ofNat 3 (fld v 0 3) }) s
  | 0x40 => modEng l (fun e => { e with coefBank := bit v 16, coefIndex := BitVec.ofNat 9 (fld v 0 9) }) s
  | 0x44 => coefWrite l v s
  | 0x48 => if bit v 0 then nextOf (execBankSwapReq l s) s else s
  | 0x4C => rwkWrite m (laneAddr l (0x30000 + off)) (setCoefMode l v) s
  | 0x50 => modEng l (fun e => { e with nodeSel := BitVec.ofNat 12 (fld v 0 12) }) s
  | _ => s

/-- TRC_CFG (R163, R168). -/
def setTrcCfg (l : Lane) (v : Word) (s : State) : State :=
  let e := (s.lane l).eng
  modTap l (tapIdx e.trcCtx.toFin e.trcTap.toFin) (fun x => { x with
    en := bit v 31, spec := bit v 24, decim := BitVec.ofNat 8 (fld v 16 8), node := BitVec.ofNat 12 (fld v 0 12) }) s

/-- Trace taps (R163, R168). -/
def writeTrc (m : Master) (l : Lane) (off : Nat) (v : Word) (s : State) : State :=
  match off with
  | 0x00 => modEng l (fun e => { e with trcCtx := BitVec.ofNat 3 (fld v 4 3), trcTap := BitVec.ofNat 3 (fld v 0 3) }) s
  | 0x04 => trcCtl l v s
  | 0x0C => rwkWrite m (laneAddr l (0x80000 + off)) (setTrcCfg l v) s
  | _ => s

/-- Run-ahead unit (R179, R186). -/
def writeRa (l : Lane) (off : Nat) (v : Word) (s : State) : State :=
  match off with
  | 0x04 => clearEvents (.ra l) v s
  | 0x08 => raCtlWrite l v s
  | 0x10 => modRa l (fun r => { r with ctxSel := BitVec.ofNat 3 (fld v 0 3) }) s
  | 0x40 => modRa l (fun r => { r with ckSlot := BitVec.ofNat 4 (fld v 16 4), ckNode := BitVec.ofNat 12 (fld v 0 12) }) s
  | _ => s

/-- Grid-forming block (R208, R213). -/
def writeGf (l : Lane) (off : Nat) (v : Word) (s : State) : State :=
  match gfParIdx off with
  | some i => gfParamWrite l i v s
  | none =>
    match off with
    | 0x04 => clearEvents (.gf l) v s
    | 0x08 => if bit v 0 then gfCommitToken l s else s
    | _ => s

/-- A generator (R217, R223). -/
def writeGen (m : Master) (l : Lane) (g : Fin 16) (off : Nat) (v : Word) (s : State) : State :=
  let a := laneAddr l (0x60100 + 0x40 * g.val + off)
  match off with
  | 0x00 => mirror l (.pwmPer g v) (stagePer l g v s)
  | 0x04 => mirror l (.pwmDuty g v) (stageDuty l g v s)
  | 0x08 => nextOf (execPwmDutyfWrite l g v s) s
  | 0x0C => rwkWrite m a (setDt l g v) s
  | 0x10 => rwkWrite m a (setMinp l g v) s
  | _ => s

/-- PWM block and flag groups (R217, R218, R223, R229, R232). -/
def writePwm (m : Master) (l : Lane) (off : Nat) (v : Word) (s : State) : State :=
  if 0x100 ≤ off && off < 0x500 then writeGen m l (Fin.ofNat 16 ((off - 0x100) / 0x40)) (off % 0x40) v s
  else match off with
    | 0x04 => clearEvents (.pwm l) v s
    | 0x08 => nextOf (execPwmCommit l (BitVec.ofNat 16 (fld v 0 16)) s) s
    | 0x14 => clearGroups (BitVec.ofNat 4 (fld v 0 4)) s
    | _ => s

/-- REC_SKEW (R341, R349). -/
def setRecSkew (l : Lane) (v : Word) (s : State) : State :=
  modRec l (fun r => { r with skew := upd r.skew r.sel.toFin (BitVec.ofNat 16 (fld v 0 16)) }) s

/-- Recorder (R338, R341, R346, R349). -/
def writeRec (m : Master) (l : Lane) (off : Nat) (v : Word) (s : State) : State :=
  match off with
  | 0x04 => clearEvents (.rcd l) v s
  | 0x08 =>
    let s1 := if bit v 0 then recCmdTrig l s else s
    if fld v 8 8 = 0 then s1 else recRelease l (BitVec.ofNat 8 (fld v 8 8)) s1
  | 0x24 => modRec l (fun r => { r with sel := BitVec.ofNat 5 (fld v 0 5) }) s
  | 0x28 => rwkWrite m (laneAddr l (0x70000 + off)) (setRecSkew l v) s
  | _ => s

/-- A register of a lane window (R373); the lane status block has no effect on a write (R374). -/
def writeLane (m : Master) (l : Lane) (off : Nat) (v : Word) (s : State) : State :=
  let o := off % 0x10000
  match off / 0x10000 with
  | 1 => writeMeas m l o v s
  | 2 => writeFlt m l o v s
  | 3 => writeEng m l o v s
  | 4 => writeRa l o v s
  | 5 => writeGf l o v s
  | 6 => writePwm m l o v s
  | 7 => writeRec m l o v s
  | 8 => writeTrc m l o v s
  | _ => s

end Sys2Proof.Machine
end

