-- ==== Sys2Proof/Machine/Bus.lean ====
section
/-! DEFINITION. Transfers of the hinge mesh (R6, R89, R104 to R112, R119, R120, R371 to R378, R394): the checks, what a
read or a write of one register does, what a transfer of several words or of SRAM does, and its arbitration. -/

namespace Sys2Proof.Machine

/-! ### One register -/

/-- The lane of a lane-window address, with the offset in the window. -/
def laneOffset (a : Nat) : Lane × Nat := if a < 0x20000000 then (.a, a - 0x10000000) else (.b, a - 0x20000000)

/-- A register of the address space, effects of the read apart; unlisted offsets read 0 (R377). -/
def readReg (a : Nat) (s : State) : Word :=
  match targetOf a with
  | none => 0
  | some t =>
    match t with
    | 0 => readMode a s
    | 1 => readPnt (a - 0x1000) s
    | 2 => readPwr (a - 0x10000) s
    | 3 => readClk (a - 0x20000) s
    | 4 => readKey (a - 0x30000) s
    | 5 => readMesh (a - 0x40000) s
    | 6 => readAcc (a - 0x48000) s
    | 7 => readGch (a - 0x50000) s
    | 8 => readClm (a - 0x60000) s
    | 9 => readNet (a - 0x70000) s
    | 10 => readCan 0 (a - 0x80000) s
    | 11 => readCan 1 (a - 0x84000) s
    | 12 => readFio (a - 0x90000) s
    | 13 => readPlk (a - 0xA0000) s
    | 14 => readHcp (a - 0xB0000) s
    | 15 => readWear (a - 0xC0000) s
    | _ => readLane (laneOffset a).1 (laneOffset a).2 s

/-- The lock at an address. -/
def lockAt (a : Nat) : Option (Fin 64) :=
  if 0x40100 ≤ a && a < 0x40200 then some (Fin.ofNat 64 ((a - 0x40100) / 4)) else none

/-- Which latch a read of an address sets (R283). -/
def latchAt (a : Nat) : Option (Fin 4) :=
  match a with
  | 0x70118 => some 0
  | 0x70140 => some 1
  | 0x70160 => some 2
  | 0x70110 => some 3
  | _ => none

/-- The run-ahead unit whose RA_CKDAT stands at an address. -/
def ckdatAt (a : Nat) : Option Lane :=
  if a = 0x10040044 then some .a else if a = 0x20040044 then some .b else none

/-- A read of one register with its effects (R116, R283, R358); none: it stalls. -/
def readWord (m : Master) (a : Nat) (s : State) : Option Word × State :=
  match lockAt a with
  | some n => readLock m n s
  | none =>
    match latchAt a with
    | some k => (some (readReg a s), timeLatch k s)
    | none =>
      if a = 0xB0014 then
        let (w, t) := mbstatRead s
        (some w, t)
      else match ckdatAt a with
        | none => (some (readReg a s), s)
        | some l =>
          match ckRead l s with
          | some w => (some w, s)
          | none =>
            let (n, t) := takeFree s
            (some (wd n), t)

/-- A write of one register (R6). -/
def writeWord (m : Master) (a : Nat) (v : Word) (s : State) : State :=
  match targetOf a with
  | none => s
  | some t =>
    match t with
    | 0 => writeMode a v s
    | 1 => writePnt (a - 0x1000) v s
    | 2 => writePwr (a - 0x10000) v s
    | 3 => writeClk (a - 0x20000) v s
    | 4 => writeKey m (a - 0x30000) v s
    | 5 => writeMesh m (a - 0x40000) v s
    | 6 => writeAcc (a - 0x48000) v s
    | 7 => writeGch (a - 0x50000) v s
    | 8 => writeClm m (a - 0x60000) v s
    | 9 => writeNet m (a - 0x70000) v s
    | 10 => writeCan 0 (a - 0x80000) v s
    | 11 => writeCan 1 (a - 0x84000) v s
    | 12 => writeFio (a - 0x90000) v s
    | 13 => writePlk (a - 0xA0000) v s
    | 14 => writeHcp (a - 0xB0000) v s
    | 15 => writeWear (a - 0xC0000) v s
    | _ => writeLane m (laneOffset a).1 (laneOffset a).2 v s

/-- Registers of access WO (R372, R373). -/
def writeOnly (a : Nat) : Bool :=
  if a < 0xD0000 then
    [0x14, 0x30008, 0x40008, 0x40030, 0x50018, 0x6000C, 0x70188, 0x80014, 0x80018, 0x8001C, 0x84014, 0x84018, 0x8401C,
      0xA0008, 0xB0008].contains a
  else [0x1002C, 0x30048, 0x50008, 0x60008, 0x60014, 0x70008].contains (laneOffset a).2

/-- Registers of access RWK (R372, R373). -/
def rwkReg (a : Nat) : Bool :=
  if a < 0xD0000 then [0x40018, 0x60008, 0x70108, 0x7012C].contains a
  else
    let off := (laneOffset a).2
    (targetOf a).isSome &&
      ([0x10020, 0x10024, 0x10028, 0x20014, 0x3004C, 0x70028, 0x8000C].contains off ||
        (0x60100 ≤ off && off < 0x60500 && (off % 0x40 == 0x0C || off % 0x40 == 0x10)))

/-- An RWK register is written (R98); no other register stands behind this command. -/
def execRwkWrite (m : Master) (addr v : Word) (s : State) : Out :=
  byMaster m s fun s => if rwkReg addr.toNat then writeWord m addr.toNat v s else s

/-! ### The checks of a transfer -/

/-- How a transfer ends. -/
inductive Access where
  /-- Complete, with the bytes read. -/
  | done (bs : List Byte)
  /-- Refused by the access table or by R375 (R120). -/
  | refused
  /-- A bus error of R376 or R378. -/
  | busErr
  /-- Refused by the mode (R69, R394). -/
  | byMode
  /-- The read of the lock at an address stalls; the bytes read before it, and the words left from there on. -/
  | stall (addr left : Nat) (got : List Byte)
  deriving DecidableEq, Repr

/-- A target is SRAM. -/
def sramTarget (t : Nat) : Bool := t == 16 || t == 41 || t == 57

/-- Natural alignment (R376): the address is a multiple of the largest power of two that divides the size. -/
def aligned (a bytes : Nat) : Bool :=
  [2, 4, 8, 16, 32, 64, 128].all fun k => bytes % k != 0 || a % k == 0

/-- The shape of an access fits its target (R376): whole aligned words of a register block, SRAM naturally aligned, and
every byte in the one target. -/
def shapeOk (t a bytes : Nat) : Bool :=
  decide (1 ≤ bytes) && decide (targetOf (a + bytes - 1) = some t) &&
    (if sramTarget t then aligned a bytes else bytes % 4 == 0 && a % 4 == 0)

/-- A write that R375 restricts, by a master it does not admit. -/
def sramBarred (m : Master) (t a bytes : Nat) (s : State) : Bool :=
  if t = 16 then
    hasRec s 0x90 0 && recDec s && decide (decSegBase s 0 < a + bytes) && m != 9 && m != 10
  else if t = 41 || t = 57 then
    let off := (laneOffset a).2
    let n := if t = 41 then 0 else 1
    if off < 0x1600000 then m.toNat != n && m.toNat != 4 + n && m != 11
    else if 0x1800000 ≤ off then m.toNat != 9 + n
    else false
  else false

/-- A write that the mode refuses a host master (R69, R394), and every host transfer in M0. -/
def modeBars (m : Master) (t : Nat) (write : Bool) (s : State) : Bool :=
  (m == 6 || m == 7) &&
    (s.md == 0 || (write && (s.md == 2 || (s.md == 1 && !([1, 4, 14].contains t)))))

/-- Every register that a transfer of a register block writes is of access WO (R119, R376). -/
def allWriteOnly (a bytes : Nat) : Bool :=
  writeOnly a && (List.range (bytes / 4)).all fun k => writeOnly (a + 4 * k)

/-- The KIND of the violation of a transfer, 0: none. Under the tables the safety island writes no other block's settings
(R89, R333). -/
def transferKind (m : Master) (t a bytes : Nat) (write : Bool) (s : State) : Nat :=
  let wo := !sramTarget t && allWriteOnly a bytes
  let k := violation (codeFor s m t) write wo
  if k ≠ 0 then k
  else if s.mesh.accOn && write && m = 8 && t ≠ 13 && !sramTarget t && !wo then 2
  else if write && sramBarred m t a bytes s then 2
  else 0

/-- What stops a transfer before it reaches its target, and the state after that (R69, R120, R376, R378, R394). -/
def checkAccess (m : Master) (a bytes : Nat) (write : Bool) (s : State) : Option Access × State :=
  match targetOf a with
  | none => (some .busErr, s)
  | some t =>
    if modeBars m t write s then (some .byMode, raise .mode 2 s)
    else
      let k := transferKind m t a bytes write s
      if k ≠ 0 then (some .refused, logViolation m t (wd a) write k s)
      else if !shapeOk t a bytes then (some .busErr, s)
      else (none, s)

/-! ### The effect of a transfer -/

/-- Words of a register block, one read each in ascending order (R376). -/
def readWords (m : Master) : Nat → Nat → List Byte → State → Access × State
  | 0, _, got, s => (.done got, s)
  | n + 1, a, got, s =>
    match readWord m a s with
    | (none, t) => (.stall a (n + 1) got, t)
    | (some w, t) => readWords m n (a + 4) (got ++ leBytes 4 w.toNat) t

/-- Words written to a register block, one write each in ascending order (R376). -/
def writeWords (m : Master) (a : Nat) : List Word → State → State
  | [], s => s
  | w :: ws, s => writeWords m (a + 4) ws (writeWord m a w s)

/-- SRAM at an address. -/
def readSram (t a n : Nat) (s : State) : List Byte :=
  if t = 16 then sharedBytes a n s else laneBytes (laneOffset a).1 (laneOffset a).2 n s

/-- SRAM written at an address. -/
def writeSram (t a : Nat) (bs : List Byte) (s : State) : State :=
  if t = 16 then sharedWrite a bs s else laneWrite (laneOffset a).1 (laneOffset a).2 bs s

/-- A transfer that passed its checks reaches its target. A host's write of PWR_GPCTL that R39 discards is refused by the
mode (R69, R354). -/
def perform (m : Master) (a bytes : Nat) (data : Option (List Byte)) (s : State) : Access × State :=
  let t := (targetOf a).getD 0
  match data with
  | none => if sramTarget t then (.done (readSram t a bytes s), s) else readWords m (bytes / 4) a [] s
  | some bs =>
    if sramTarget t then (.done [], writeSram t a bs s)
    else
      let barred := (m == 6 || m == 7) && decide (a ≤ 0x10020) && decide (0x10020 < a + bytes) && !inStop s
      if barred then (.byMode, raise .mode 2 (writeWords m a (toWords bs) s))
      else (.done [], writeWords m a (toWords bs) s)

/-- A transfer outside arbitration: its checks, its way to the target, then its effect. -/
def access (m : Master) (a bytes : Nat) (data : Option (List Byte)) (s : State) : Access × State :=
  match checkAccess m a bytes data.isSome s with
  | (some r, t) => (r, t)
  | (none, t) => perform m a bytes data (arrive m ((targetOf a).getD 0) 0 t)

/-- The answer of a transfer goes to its master; a stalled read is kept until the lock is free (R116, R120). -/
def finishAccess (m : Master) (bytes : Nat) (write : Bool) (r : Access × State) : State :=
  match r.1 with
  | .done bs => send (.bus m bs false) r.2
  | .stall a n got => modMesh (fun x => { x with stalls := x.stalls ++ [⟨m, a, n, got, none⟩] }) r.2
  | _ => send (.bus m (if write then [] else List.replicate bytes 0) true) r.2

/-- A write to a register acts according to its access code (R6). -/
def execRegisterWrite (m : Master) (addr v : Word) (s : State) : Out :=
  byMaster m s fun s => finishAccess m 4 true (access m addr.toNat 4 (some (leBytes 4 v.toNat)) s)

/-! ### Arbitration (R104 to R108, R111, R112, R115) -/

/-- A best-effort grant spends a credit per beat (R111). -/
def spendCredits (m : Master) (t n : Nat) (s : State) : State :=
  let k := 16 * t + m.toNat
  modMesh (fun x => { x with spent := sparsePut 0 x.spent k (sparseGet 0 x.spent k + min n (credits s t m)) }) s

/-- A transfer is granted and runs. -/
def grantNow (m : Master) (t a bytes : Nat) (data : Option (List Byte)) (reserved : Bool) (waited : Nat) (s : State) :
    State :=
  let s1 := arrive m t waited (if reserved then s else spendCredits m t (beats bytes) s)
  finishAccess m bytes data.isSome (perform m a bytes data s1)

/-- A transfer is requested (R104, R107, R112): checked first; in a slot of its own it is granted at once, so is a
best-effort one on an idle port that it fits; any other one waits. -/
def requestTransfer (m : Master) (addr : Word) (bytes : Nat) (data : Option (List Byte)) (slot : Nat) (busy : Bool)
    (s : State) : State :=
  let a := addr.toNat
  match checkAccess m a bytes data.isSome s with
  | (some r, s1) => finishAccess m bytes data.isSome (r, s1)
  | (none, s1) =>
    let t := (targetOf a).getD 0
    let n := beats bytes
    let idle := !busy && s1.mesh.waiting.all fun w => decide (targetOf w.addr.toNat ≠ some t)
    if !busy && ownsSlots s1 m t slot n then grantNow m t a bytes data true 0 s1
    else if idle && fitsSlots s1 t slot n then grantNow m t a bytes data false 0 s1
    else modMesh (fun x => { x with waiting := x.waiting ++ [⟨m, addr, bytes, data, 0⟩] }) s1

/-- A master requests a transfer. -/
def execMeshTransfer (m : Master) (addr : Word) (bytes : Nat) (data : Option (List Byte)) (slot : Fin 512) (busy : Bool)
    (s : State) : Out := byMaster m s (requestTransfer m addr bytes data slot.val busy)

/-- Of two requesters the one that the arbiter prefers (R112): the fuller credit counter, then the lower ID. -/
def prefer (s : State) (t : Nat) (x y : MeshWait) : MeshWait :=
  let cx := credits s t x.master
  let cy := credits s t y.master
  if cx < cy || (cx = cy && y.master.toNat < x.master.toNat) then y else x

/-- The transfer that the arbiter of a port grants at a slot: the owner of the slot, else the preferred one of those that
fit; one without credits only where no requester with credits waits (R107, R112). -/
def arbitrate (t slot : Nat) (s : State) : Option MeshWait :=
  let ws := s.mesh.waiting.filter fun w => decide (targetOf w.addr.toNat = some t)
  match ws.find? fun w => ownsSlots s w.master t slot (beats w.bytes) with
  | some w => some w
  | none =>
    let rich := ws.filter fun w => decide (0 < credits s t w.master)
    match (if rich.isEmpty then ws else rich).filter fun w => fitsSlots s t slot (beats w.bytes) with
    | [] => none
    | w :: rest => some (rest.foldl (prefer s t) w)

/-- The arbiter of a target port decides, some slots after its last decision (R112, R115). -/
def meshGrant (t slot waited : Nat) (s : State) : State :=
  let later (w : MeshWait) : MeshWait :=
    if targetOf w.addr.toNat = some t then { w with slots := w.slots + waited } else w
  let s1 := modMesh (fun x => { x with waiting := x.waiting.map later }) s
  match arbitrate t slot s1 with
  | none => s1
  | some w =>
    let s2 := modMesh (fun x => { x with waiting := x.waiting.erase w }) s1
    let own := ownsSlots s1 w.master t slot (beats w.bytes)
    grantNow w.master t w.addr.toNat w.bytes w.data own w.slots s2

/-- The arbiter of a target port decides. -/
def execMeshGrant (t : BitVec 6) (slot : Fin 512) (waited : Nat) (s : State) : Out :=
  .next (meshGrant t.toNat slot.val waited s)

end Sys2Proof.Machine
end

