-- ==== Sys2Proof/Machine/Host.lean ====
section
/-! DEFINITION. The pennant protocol (R350 to R356, R394): frames, queues and responses, READ and WRITE, the pennant board
and notifications. -/

namespace Sys2Proof.Machine

/-! ### Frames (R352) -/

/-- A frame with its CRC. -/
def frameBytes (kind tag cmd status : Nat) (payload : List Byte) : List Byte :=
  let b := leBytes 2 0x5A49 ++ leBytes 1 1 ++ leBytes 1 kind ++ leBytes 2 tag ++ leBytes 1 cmd ++ leBytes 1 status
    ++ leBytes 2 payload.length ++ leBytes 2 0 ++ payload
  b ++ leBytes 4 (crc32c b)

/-- A frame is whole: MAGIC, VERSION, LEN, the reserved field and the CRC (R352). -/
def pennantOk (bs : List Byte) : Bool :=
  let len := u16 bs 8
  u16 bs 0 == 0x5A49 && u8 bs 2 == 1 && u16 bs 10 == 0 && len % 4 == 0 && decide (len ≤ 1024) &&
    decide (16 + len ≤ bs.length) && u32 bs (12 + len) == crc32c (bs.take (12 + len))

/-- The request of a whole frame of KIND 1. -/
def frameRequest (bs : List Byte) (ip : Word) (sport : Half) : HostRequest :=
  { tag := BitVec.ofNat 16 (u16 bs 4), cmd := BitVec.ofNat 8 (u8 bs 6), payload := slice bs 12 (u16 bs 8), ip := ip,
    sport := sport }

/-! ### Ports, queues and responses (R350, R351, R353) -/

/-- One host port. -/
def hostPort (p : HostPort) (s : State) : HostPortState :=
  match p with
  | .hsp => s.host.hsp
  | .net => s.host.net

/-- One host port changed. -/
def modHostPort (p : HostPort) (f : HostPortState → HostPortState) (s : State) : State :=
  match p with
  | .hsp => modHost (fun h => { h with hsp := f h.hsp }) s
  | .net => modHost (fun h => { h with net := f h.net }) s

/-- The network carries frames: a port is up and the ports have not stopped (R272, R273). -/
def netCarries (s : State) : Bool := s.net.on && (idx 2).any fun p => portUsed p s && linkUp p s

/-- A port works: not in M0 (R79, R350), the network only with a link. -/
def portAlive (p : HostPort) (s : State) : Bool :=
  s.md != 0 && (match p with
    | .hsp => true
    | .net => netCarries s)

/-- Requests accepted and not yet answered (R353). -/
def unanswered (p : HostPort) (s : State) : Nat :=
  (hostPort p s).queue.length + (s.host.bolts.filter fun b => decide (b.port = some p)).length

/-- The outbound queue of 32 frames has a free place beside those reserved for responses (R353). -/
def outRoom (p : HostPort) (s : State) : Bool := decide ((hostPort p s).out.length + unanswered p s < 32)

/-- Where a frame of the network port goes. -/
def netDst (f : HostFrame) : Nat := f.ip.toNat * 65536 + f.sport.toNat

/-- Frames of the network port leave while a link is up. -/
def flushNet (s : State) : State :=
  if netCarries s then
    modHostPort .net (fun x => { x with out := [] }) (foldS s.host.net.out (fun f => sendNet 3 (netDst f) f.bytes) s)
  else s

/-- A frame enters an outbound queue. -/
def queueFrame (p : HostPort) (f : HostFrame) (s : State) : State :=
  let s1 := modHostPort p (fun x => { x with out := x.out ++ [f] }) s
  match p with
  | .hsp => s1
  | .net => flushNet s1

/-- The network port keeps the responses of the last 8 requests of each source (R351). -/
def storeResponse (tag : Half) (f : HostFrame) (st : List (Half × HostFrame)) : List (Half × HostFrame) :=
  let mine := st.filter fun e => e.2.ip == f.ip && e.2.sport == f.sport
  let rest := st.filter fun e => !(e.2.ip == f.ip && e.2.sport == f.sport)
  (tag, f) :: (mine.take 7 ++ rest)

/-- The response to a request is queued. -/
def reply (p : HostPort) (r : HostRequest) (status : Nat) (payload : List Byte) (s : State) : State :=
  let f : HostFrame := {
    bytes := frameBytes 2 r.tag.toNat r.cmd.toNat status payload, ip := r.ip, sport := r.sport }
  let s1 := match p with
    | .hsp => s
    | .net => modHostPort .net (fun x => { x with store := storeResponse r.tag f x.store }) s
  queueFrame p f s1

/-- The request at the head of a port's queue is answered. -/
def respond (p : HostPort) (r : HostRequest) (status : Nat) (payload : List Byte) (s : State) : State :=
  reply p r status payload (modHostPort p (fun x => { x with queue := x.queue.drop 1 }) s)

/-- A request is accepted into the queue, or discarded with HOST_OVF (R353). -/
def acceptRequest (p : HostPort) (r : HostRequest) (s : State) : State :=
  if unanswered p s < 8 && outRoom p s then modHostPort p (fun x => { x with queue := x.queue ++ [r] }) s
  else raise .hcp 3 s

/-- The request at the head of the queue is a READ that stalls at a lock. -/
def portStalled (p : HostPort) (s : State) : Bool := s.mesh.stalls.any fun t => decide (t.port = some p)

/-- A request of a command runs when it is the one at the head of its port's queue, or arrives at an empty queue; any
other one joins the queue (R353). -/
def runRequest (p : HostPort) (r : HostRequest) (same : HostRequest → Bool) (run : HostRequest → State → State)
    (s : State) : State :=
  if !portAlive p s then s
  else if portStalled p s then acceptRequest p r s
  else match (hostPort p s).queue with
    | h :: _ => if same h then run h s else acceptRequest p r s
    | [] =>
      let s1 := acceptRequest p r s
      match (hostPort p s1).queue with
      | h :: _ => if same h then run h s1 else s1
      | [] => s1

/-- Tag, command and payload of a request are those of another. -/
def sameRequest (r h : HostRequest) : Bool := h.tag == r.tag && h.cmd == r.cmd && h.payload == r.payload

/-- A frame that is not whole is discarded (R352). -/
def badFrame (p : HostPort) (s : State) : State :=
  raise .hcp 2 (modHostPort p (fun x => { x with errCnt := satInc x.errCnt }) s)

/-- An HSP frame-in transaction (R350): a request joins the queue, a frame of another KIND is no request. -/
def hspFrameIn (bytes : List Byte) (s : State) : State :=
  if s.md = 0 then s
  else if !pennantOk bytes then badFrame .hsp s
  else if u8 bytes 3 = 1 then acceptRequest .hsp (frameRequest bytes 0 0) s
  else s

/-- A frame arrives on HSP. -/
def execHspFrameIn (bytes : List Byte) (s : State) : Out := .next (hspFrameIn bytes s)

/-- An HSP frame-out transaction (R350): the oldest frame leaves once its last CRC byte is clocked; an empty queue sends
an empty frame. -/
def hspFrameOut (complete : Bool) (s : State) : State :=
  if s.md = 0 || !complete then s
  else match s.host.hsp.out with
    | [] => send (.hsp (frameBytes 0 0 0 0 [])) s
    | f :: _ => send (.hsp f.bytes) (modHostPort .hsp (fun x => { x with out := x.out.drop 1 }) s)

/-- A frame is clocked out on HSP. -/
def execHspFrameOut (complete : Bool) (s : State) : Out := .next (hspFrameOut complete s)

/-- A repeated request (R351): the stored response goes out again, or the request still waits for its response. -/
def repeated (r : HostRequest) (s : State) : Option (Option HostFrame) :=
  match s.host.net.store.find? fun e => e.1 == r.tag && e.2.ip == r.ip && e.2.sport == r.sport with
  | some e => some (some e.2)
  | none =>
    let own (h : HostRequest) : Bool := h.tag == r.tag && h.ip == r.ip && h.sport == r.sport
    if s.host.net.queue.any own || s.host.bolts.any (fun b => decide (b.port = some .net) && own b.req) then some none
    else none

/-- A datagram to UDP port 50114 (R351): exactly one frame, executed once. -/
def udpRequest (ip : Word) (sport : Half) (bytes : List Byte) (s : State) : State :=
  if !portAlive .net s then s
  else if bytes.length ≠ 16 + u16 bytes 8 then modHostPort .net (fun x => { x with errCnt := satInc x.errCnt }) s
  else if !pennantOk bytes then badFrame .net s
  else if u8 bytes 3 ≠ 1 then s
  else
    let r := frameRequest bytes ip sport
    match repeated r s with
    | some (some f) => raise .hcp 6 (queueFrame .net f s)
    | some none => raise .hcp 6 s
    | none => acceptRequest .net r s

/-- A datagram arrives. -/
def execUdpRequest (ip : Word) (sport : Half) (bytes : List Byte) (s : State) : Out := .next (udpRequest ip sport bytes s)

/-! ### READ and WRITE (R353, R354) -/

/-- The status code of a transfer that does not complete (R354). -/
def statusOf : Access → Nat
  | .done _ => 0
  | .refused => 4
  | .busErr => 11
  | .byMode => 5
  | .stall _ _ _ => 11

/-- One transfer of a host master, granted on an idle port (R111, R115). -/
def hostAccess (m : Master) (a bytes : Nat) (data : Option (List Byte)) (s : State) : Access × State :=
  match checkAccess m a bytes data.isSome s with
  | (some r, t) => (r, t)
  | (none, t) => perform m a bytes data (arrive m ((targetOf a).getD 0) 0 (spendCredits m ((targetOf a).getD 0) (beats bytes) t))

/-- READ from a word on: it stops at the first bus error, and waits at a lock (R116, R354). -/
def hostRead (p : HostPort) (r : HostRequest) : Nat → Nat → List Byte → State → State
  | 0, _, got, s => respond p r 0 got s
  | n + 1, a, got, s =>
    match hostAccess (portMaster p) (a % 2 ^ 32) 4 none s with
    | (.done bs, t) => hostRead p r n (a + 4) (got ++ bs) t
    | (.stall b _ _, t) => modMesh (fun x => { x with stalls := x.stalls ++ [⟨portMaster p, b, n + 1, got, some p⟩] }) t
    | (e, t) => respond p r (statusOf e) got t

/-- The READ command (R353): N from 1 to 255. -/
def readCmd (p : HostPort) (r : HostRequest) (s : State) : State :=
  let n := u32 r.payload 4
  if n = 0 || 255 < n then respond p r 3 [] s else hostRead p r n (u32 r.payload 0) [] s

/-- The READ command arrives. -/
def execRead (p : HostPort) (tag : Half) (addr n : Word) (s : State) : Out :=
  let r : HostRequest := { tag := tag, cmd := 0x01, payload := ofWords [addr, n] }
  .next (runRequest p r (sameRequest r) (readCmd p) s)

/-- WRITE from a word on: it stops at the first bus error (R354). -/
def hostWrite (p : HostPort) (r : HostRequest) (a count : Nat) : List Word → State → State
  | [], s => respond p r 0 (leBytes 4 count) s
  | w :: ws, s =>
    match hostAccess (portMaster p) (a % 2 ^ 32) 4 (some (leBytes 4 w.toNat)) s with
    | (.done _, t) => hostWrite p r (a + 4) (count + 1) ws t
    | (e, t) => respond p r (statusOf e) (leBytes 4 count) t

/-- The WRITE command (R353): N from 1 to 254. -/
def writeCmd (p : HostPort) (r : HostRequest) (s : State) : State :=
  let n := u32 r.payload 4
  if n = 0 || 254 < n then respond p r 3 [] s
  else hostWrite p r (u32 r.payload 0) 0 (toWords (r.payload.drop 8)) s

/-- The WRITE command arrives. -/
def execWrite (p : HostPort) (tag : Half) (addr : Word) (ws : List Word) (s : State) : Out :=
  let r : HostRequest := { tag := tag, cmd := 0x02, payload := ofWords (addr :: wd ws.length :: ws) }
  .next (runRequest p r (sameRequest r) (writeCmd p) s)

/-! ### The pennant board (R353, R355, R356) -/

/-- PNT_GET: the raised bitmap. -/
def execPntGet (p : HostPort) (tag : Half) (s : State) : Out :=
  let r : HostRequest := { tag := tag, cmd := 0x10 }
  .next (runRequest p r (sameRequest r) (fun h t => respond p h 0 (leBytes 32 t.host.raised.toNat) t) s)

/-- A command that writes registers of the board: M2 refuses it (R394). -/
def boardCmd (p : HostPort) (h : HostRequest) (f : State → State) (s : State) : State :=
  if s.md = 2 then respond p h 5 [] (raise .mode 2 s) else respond p h 0 [] (f s)

/-- PNT_CLEAR: the ones of the mask clear their pennants. -/
def execPntClear (p : HostPort) (tag : Half) (mask : BitVec 256) (s : State) : Out :=
  let r : HostRequest := { tag := tag, cmd := 0x11, payload := leBytes 32 mask.toNat }
  .next (runRequest p r (sameRequest r) (fun h => boardCmd p h fun t =>
    modHost (fun x => { x with raised := x.raised &&& ~~~mask }) t) s)

/-- SUBSCRIBE: the port's mask, and on the network where notifications go (R356). -/
def subscribe (p : HostPort) (h : HostRequest) (mask : BitVec 256) (s : State) : State :=
  modHostPort p (fun x => { x with
    sub := mask, destIp := if p = .net then h.ip else x.destIp, destPort := if p = .net then h.sport else x.destPort }) s

/-- SUBSCRIBE arrives. -/
def execSubscribe (p : HostPort) (tag : Half) (mask : BitVec 256) (s : State) : Out :=
  let r : HostRequest := { tag := tag, cmd := 0x12, payload := leBytes 32 mask.toNat }
  .next (runRequest p r (sameRequest r) (fun h => boardCmd p h (subscribe p h mask)) s)

/-- A request that is no listed command, or whose payload has not the length of its command (R353). -/
def malformed (r : HostRequest) : Bool :=
  let n := r.payload.length
  match r.cmd.toNat with
  | 0x01 => n != 8
  | 0x02 => n < 8 || n != 8 + 4 * u32 r.payload 4
  | 0x10 => n != 0
  | 0x11 => n != 32
  | 0x12 => n != 32
  | 0x20 => n != 20 || u8 r.payload 3 != 0 || u8 r.payload 1 == 0 || decide (8 < u8 r.payload 1)
  | 0x21 => n != 4
  | 0x22 => n != 4
  | _ => true

/-- An unknown command, operation or argument is answered with STATUS 3 (R354). -/
def execUnknownCommand (p : HostPort) (tag : Half) (cmd : Byte) (s : State) : Out :=
  let r : HostRequest := { tag := tag, cmd := cmd }
  .next (runRequest p r (fun h => h.tag == tag && h.cmd == cmd && malformed h) (fun h => respond p h 3 []) s)

/-- Ticks between notifications of a port (R356). -/
def notifGap : HostPort → Nat
  | .hsp => us 100
  | .net => ms 1

/-- Where notifications of a port go is known (R356). -/
def hasDest (p : HostPort) (x : HostPortState) : Bool := decide (p = .hsp) || x.destPort != 0

/-- A notification is queued, at most once per interval, or dropped with NOTIF_LOST where no place is free (R356). -/
def notificationTx (p : HostPort) (s : State) : State :=
  let x := hostPort p s
  if !portAlive p s || x.pend = 0 || !hasDest p x then s
  else
    let s1 := match x.lastNotif with
      | none => s
      | some t => elapseTo (t + notifGap p) s
    let mark := modHostPort p fun y => { y with lastNotif := some s1.now }
    if !outRoom p s1 then raise .hcp 4 (mark s1)
    else
      let n := x.nseq + 1
      let payload := leBytes 4 n.toNat ++ leBytes 8 x.first.toNat ++ leBytes 32 x.pend.toNat
      let f : HostFrame := { bytes := frameBytes 3 0 0 0 payload, ip := x.destIp, sport := x.destPort }
      queueFrame p f (modHostPort p (fun y => { y with nseq := n, pend := 0 }) (mark s1))

/-- A notification goes out. -/
def execNotificationTx (p : HostPort) (s : State) : Out := .next (notificationTx p s)

end Sys2Proof.Machine
end

