-- ==== Sys2Proof/Machine/Operations.lean ====
section
/-! DEFINITION. The operations of the result mailboxes, result reads and the deadbolt (R357 to R359). -/

namespace Sys2Proof.Machine

/-! ### OPSTART (R357) -/

/-- The request that an OPSTART row stands for. -/
def opRequest (tag : Half) (mb : Byte) (op : Nat) (force : Bool) (a : Word × Word × Word × Word) : HostRequest :=
  { tag := tag, cmd := 0x20, payload :=
      leBytes 1 mb.toNat ++ leBytes 1 op ++ leBytes 1 (b2n force) ++ leBytes 1 0 ++ ofWords [a.1, a.2.1, a.2.2.1, a.2.2.2] }

/-- ARG n of an OPSTART request. -/
def opArg (r : HostRequest) (n : Nat) : Word := wd (u32 r.payload (4 + 4 * n))

/-- A queued request is this OPSTART: mailbox, operation, FORCE and the n arguments that the operation uses. -/
def sameOp (n : Nat) (r h : HostRequest) : Bool :=
  h.tag == r.tag && h.cmd == r.cmd && !malformed h && u8 h.payload 0 == u8 r.payload 0 && u8 h.payload 1 == u8 r.payload 1 &&
    u8 h.payload 2 % 2 == u8 r.payload 2 % 2 && (List.range n).all fun i => opArg h i == opArg r i

/-- A destination of some bytes lies in shared SRAM. -/
def inShared (a n : Nat) : Bool := decide (0x1000000 ≤ a) && decide (a + n ≤ 0x1800000)

/-- The size of the node range of a context, none where the lane number is none or the context runs no graph. -/
def opNodes (l c : Word) (s : State) : Option Nat :=
  if l.toNat < 2 && c.toNat < 8 then (graphOf (Fin.ofNat 8 c.toNat) s).map (·.nodeCount) else none

/-- The arguments of an operation are in their ranges (R357). -/
def opArgsOk (op : Nat) (a b c : Word) (s : State) : Bool :=
  match op with
  | 1 => c.toNat % 8 == 0 && decide (c.toNat ≤ 1048576)
  | 2 => b.toNat % 4 == 0 && decide (b.toNat ≤ 8388608)
  | 3 => match opNodes a b s with
    | none => false
    | some n => inShared c.toNat (4 * n)
  | 4 => match opNodes a b s with
    | none => false
    | some n => inShared c.toNat (4 * n)
  | 5 => decide (a.toNat < 2) && decide (1 ≤ b.toNat) && decide (b.toNat ≤ 600000)
  | 6 => inShared a.toNat 168
  | 7 => decide (a.toNat < 2) && decide (b.toNat < 8)
  | 8 => true
  | _ => false

/-- The mode stops an OPSTART: M2 every one, M1 those of units that are stopped there (R394). -/
def opBarred (op : Nat) (s : State) : Bool := s.md == 2 || (s.md == 1 && [3, 4, 5, 7, 8].contains op)

/-- How many timeout-bound ms an operation has, and whether it has any. -/
def opTimeout (o : RunningOp) : Option Nat :=
  match o.op.toNat with
  | 5 => some o.args.2.1.toNat
  | 7 => some o.args.2.2.1.toNat
  | 8 => some o.args.2.1.toNat
  | _ => none




/-- What an operation does as it starts: CAN_SEND requests its buffer, NET_ECHO sends its echo request; a refused request
of a buffer ends the operation. -/
def opBegin (p : HostPort) (k : Fin 16) (op : Nat) (a b : Word) (s : State) : State :=
  match op with
  | 7 =>
    match hostAccess (portMaster p) (0x80018 + 0x4000 * a.toNat) 4 (some (leBytes 4 (2 ^ b.toNat))) s with
    | (.done _, t) => t
    | (e, t) => postResult k op (statusOf e) 0 0 t
  | 8 => sendNet 7 a.toNat [] s
  | _ => s

/-- An OPSTART request is judged and started (R357, R394). -/
def opStart (p : HostPort) (h : HostRequest) (s : State) : State :=
  let mb := u8 h.payload 0
  let op := u8 h.payload 1
  let a := opArg h 0
  let b := opArg h 1
  let c := opArg h 2
  if opBarred op s then respond p h 5 [] (raise .mode 2 s)
  else if mb > 15 || !opArgsOk op a b c s then respond p h 3 [] s
  else
    let k : Fin 16 := Fin.ofNat 16 mb
    let x := s.host.mbox[k]
    if x.running.isSome then respond p h 6 [] s
    else if x.posted && !x.readMark && u8 h.payload 2 % 2 == 0 then respond p h 7 [] s
    else
      let o : RunningOp := {
        op := BitVec.ofNat 8 op, port := p, args := (a, b, c, opArg h 3), startedAt := s.now }
      opBegin p k op a b (respond p h 1 [] (modMbox k (fun x => { x with running := some o }) s))

/-- An OPSTART row of an operation that uses n arguments. -/
def opRow (p : HostPort) (n : Nat) (r : HostRequest) (s : State) : Out := .next (runRequest p r (sameOp n r) (opStart p) s)

/-- OPSTART of COPY. -/
def execOpCopy (p : HostPort) (tag : Half) (mb : Byte) (force : Bool) (a0 a1 a2 : Word) (s : State) : Out :=
  opRow p 3 (opRequest tag mb 1 force (a0, a1, a2, 0)) s

/-- OPSTART of CRC. -/
def execOpCrc (p : HostPort) (tag : Half) (mb : Byte) (force : Bool) (a0 a1 : Word) (s : State) : Out :=
  opRow p 2 (opRequest tag mb 2 force (a0, a1, 0, 0)) s

/-- OPSTART of SNAPSHOT. -/
def execOpSnapshot (p : HostPort) (tag : Half) (mb : Byte) (force : Bool) (a0 a1 a2 : Word) (s : State) : Out :=
  opRow p 3 (opRequest tag mb 3 force (a0, a1, a2, 0)) s

/-- OPSTART of CKPT_COPY. -/
def execOpCkptCopy (p : HostPort) (tag : Half) (mb : Byte) (force : Bool) (a0 a1 a2 : Word) (s : State) : Out :=
  opRow p 3 (opRequest tag mb 4 force (a0, a1, a2, 0)) s

/-- OPSTART of REC_WAIT. -/
def execOpRecWait (p : HostPort) (tag : Half) (mb : Byte) (force : Bool) (a0 a1 : Word) (s : State) : Out :=
  opRow p 2 (opRequest tag mb 5 force (a0, a1, 0, 0)) s

/-- OPSTART of MESH_SNAP. -/
def execOpMeshSnap (p : HostPort) (tag : Half) (mb : Byte) (force : Bool) (a0 : Word) (s : State) : Out :=
  opRow p 1 (opRequest tag mb 6 force (a0, 0, 0, 0)) s

/-- OPSTART of CAN_SEND. -/
def execOpCanSend (p : HostPort) (tag : Half) (mb : Byte) (force : Bool) (a0 a1 a2 : Word) (s : State) : Out :=
  opRow p 3 (opRequest tag mb 7 force (a0, a1, a2, 0)) s

/-- OPSTART of NET_ECHO. -/
def execOpNetEcho (p : HostPort) (tag : Half) (mb : Byte) (force : Bool) (a0 a1 : Word) (s : State) : Out :=
  opRow p 2 (opRequest tag mb 8 force (a0, a1, 0, 0)) s

/-! ### What an operation transfers (R357) -/

/-- What an operation has done: how its last transfer ended, and its result words. -/
structure OpEnd where
  last : Access
  r0 : Word
  r1 : Word
  after : State

/-- COPY moves 8 bytes at a time; where a read stalls, the state is that before the read. -/
def opCopies (m : Master) : Nat → Nat → Nat → Nat → State → OpEnd
  | 0, _, _, cnt, s => ⟨.done [], wd cnt, 0, s⟩
  | n + 1, src, dst, cnt, s =>
    match hostAccess m (src % 2 ^ 32) 8 none s with
    | (.done bs, t) =>
      match hostAccess m (dst % 2 ^ 32) 8 (some bs) t with
      | (.done _, u) => opCopies m n (src + 8) (dst + 8) (cnt + 8) u
      | (e, u) => ⟨e, wd cnt, 0, u⟩
    | (.stall a l g, _) => ⟨.stall a l g, wd cnt, 0, s⟩
    | (e, t) => ⟨e, wd cnt, 0, t⟩

/-- CRC reads a word at a time. -/
def opReads (m : Master) : Nat → Nat → List Byte → State → OpEnd
  | 0, _, got, s => ⟨.done [], wd (crc32c got), wd got.length, s⟩
  | n + 1, a, got, s =>
    match hostAccess m (a % 2 ^ 32) 4 none s with
    | (.done bs, t) => opReads m n (a + 4) (got ++ bs) t
    | (.stall b l g, _) => ⟨.stall b l g, wd (crc32c got), wd got.length, s⟩
    | (e, t) => ⟨e, wd (crc32c got), wd got.length, t⟩

/-- Words written to shared SRAM: how the last transfer ended, and the words written. -/
def opStores (m : Master) (a cnt : Nat) : List Word → State → Access × Nat × State
  | [], s => (.done [], cnt, s)
  | w :: ws, s =>
    match hostAccess m (a % 2 ^ 32) 4 (some (leBytes 4 w.toNat)) s with
    | (.done _, t) => opStores m (a + 4) (cnt + 1) ws t
    | (e, t) => (e, cnt, t)

/-- The node ranges of a context's valid checkpoint slots, in slot order (R183). -/
def ckptWords (l : Lane) (c : Fin 8) (s : State) : List Word :=
  match graphOf c s with
  | none => []
  | some g => (idx 16).flatMap fun i =>
    match (s.lane l).ra.slot[i] with
    | none => []
    | some k => if k.valid && k.ctx == c then (List.range g.nodeCount).map fun n => sparseGet 0 k.nodes (g.nodeBase + n)
      else []

/-- Grants, waits and longest wait of IDs 0 to 13 (R115). -/
def meshWords (s : State) : List Word :=
  (List.range 14).flatMap fun m =>
    let c := at' s.mesh.cnt m {}
    [c.grants, c.waits, c.maxWait]

/-- Words written by an operation that copies units of some words: RES0 or RES1 counts whole units. -/
def opUnits (m : Master) (a unit most : Nat) (ws : List Word) (s : State) : Access × Word × State :=
  let r := opStores m a 0 (ws.take (unit * most)) s
  (r.1, wd (r.2.1 / max 1 unit), r.2.2)

/-- What a running operation transfers, at most so many bytes or units of it. -/
def opWork (o : RunningOp) (most : Nat) (s : State) : OpEnd :=
  let m := portMaster o.port
  let a := o.args.1
  let b := o.args.2.1
  let c := o.args.2.2.1
  match o.op.toNat with
  | 1 => opCopies m (min most c.toNat / 8) a.toNat b.toNat 0 s
  | 2 => opReads m (min most b.toNat / 4) a.toNat [] s
  | 3 =>
    let r := opUnits m c.toNat 1 most o.taken s
    ⟨r.1, (o.done.getD (0, 0)).1, r.2.1, r.2.2⟩
  | 4 =>
    let n := (opNodes a b s).getD 0
    let r := opUnits m c.toNat n most (ckptWords (laneOf a.toNat) (Fin.ofNat 8 b.toNat) s) s
    ⟨r.1, r.2.1, 0, r.2.2⟩
  | 6 =>
    let r := opUnits m a.toNat 3 most (meshWords s) s
    ⟨r.1, r.2.1, 0, r.2.2⟩
  | _ => ⟨.done [], (o.done.getD (0, 0)).1, (o.done.getD (0, 0)).2, s⟩

/-! ### Completion and timeout (R357) -/

/-- An operation has what it needs to complete: SNAPSHOT its step, REC_WAIT its record, CAN_SEND its frame; no deadbolt
has won against it. -/
def opReady (k : Fin 16) (o : RunningOp) (s : State) : Bool :=
  !boltWaits (BitVec.ofNat 8 k.val) s && (!([3, 5, 7].contains o.op.toNat) || o.done.isSome)

/-- The operation of a mailbox completes and posts its result; one whose read stalls goes on. -/
def opComplete (k : Fin 16) (echoUs : Nat) (s : State) : State :=
  match s.host.mbox[k].running with
  | none => s
  | some o =>
    if !opReady k o s then s
    else if o.op = 8 then
      (if 1000 * o.args.2.1.toNat < echoUs then s
       else postResult k 8 0 (wd echoUs) 0 (elapseTo (o.startedAt + us echoUs) s))
    else
      let e := opWork o (2 ^ 32) s
      match e.last with
      | .stall _ _ _ => s
      | r => postResult k o.op.toNat (statusOf r) e.r0 e.r1 e.after

/-- An operation completes. -/
def execOperationComplete (mb : Fin 16) (echoUs : Nat) (s : State) : Out := .next (opComplete mb echoUs s)

/-- An operation passes its timeout. -/
def opExpire (k : Fin 16) (s : State) : State :=
  match s.host.mbox[k].running with
  | none => s
  | some o =>
    match opTimeout o with
    | none => s
    | some t =>
      if o.done.isSome || boltWaits (BitVec.ofNat 8 k.val) s then s
      else postResult k o.op.toNat 12 0 0 (elapseTo (o.startedAt + ms t) s)

/-- An operation passes its timeout. -/
def execOperationTimeout (mb : Fin 16) (s : State) : Out := .next (opExpire mb s)

/-! ### RESULT (R358) -/

/-- The RESULT command: the status word and the four result words, then the read mark. -/
def resultCmd (p : HostPort) (h : HostRequest) (s : State) : State :=
  let mb := u32 h.payload 0
  if mb > 15 then respond p h 3 [] s
  else
    let k : Fin 16 := Fin.ofNat 16 mb
    let x := s.host.mbox[k]
    respond p h 0 (ofWords (mboxWord x :: x.res.toList)) (markRead k s)

/-- The RESULT command arrives. -/
def execResult (p : HostPort) (tag : Half) (mb : Word) (s : State) : Out :=
  let r : HostRequest := { tag := tag, cmd := 0x21, payload := ofWords [mb] }
  .next (runRequest p r (sameRequest r) (resultCmd p) s)

/-! ### DEADBOLT (R353, R359) -/

/-- The word of HCP_DBRES. -/
def dbresWord (s : State) : Word := pack [(8, s.host.dbStatus.toNat), (0, s.host.dbTarget.toNat)]

/-- A deadbolt that a port accepted: access, mode and target are judged, then the arbiter decides; the response of one
that aborts waits for the abort. -/
def boltCmd (p : HostPort) (h : HostRequest) (s : State) : State :=
  let w := u32 h.payload 0
  let code := codeFor s (portMaster p) 14
  if w ≠ 0x80 && 15 < w then reply p h 3 [] s
  else if s.md = 2 then reply p h 5 [] (raise .mode 2 s)
  else if code < 2 || 4 < code then reply p h 4 [] s
  else
    let t : Byte := BitVec.ofNat 8 w
    let k := boltDecision t s
    let s1 := decideBolt { target := t, port := some p, tag := h.tag, req := h, at0 := s.now } s
    if k = 9 then s1 else reply p h k (ofWords [dbresWord s1]) s1

/-- DEADBOLT overtakes the queue of its port (R353): the queued request, or one that arrives now where the port takes
one more. -/
def deadboltCmd (p : HostPort) (r : HostRequest) (s : State) : State :=
  if !portAlive p s then s
  else match (hostPort p s).queue.find? (sameRequest r) with
    | some h => boltCmd p h (modHostPort p (fun x => { x with queue := x.queue.eraseP (sameRequest r) }) s)
    | none => if unanswered p s < 8 && outRoom p s then boltCmd p r s else raise .hcp 3 s

/-- The DEADBOLT command arrives. -/
def execDeadbolt (p : HostPort) (tag : Half) (target : Word) (s : State) : Out :=
  .next (deadboltCmd p { tag := tag, cmd := 0x22, payload := ofWords [target] } s)

/-- The operation of a mailbox stops after so many bytes or units, and posts STATUS 9. -/
def abortOp (k : Fin 16) (done : Nat) (s : State) : State :=
  match s.host.mbox[k].running with
  | none => s
  | some o =>
    match o.op.toNat with
    | 5 => postResult k 5 9 0 0 s
    | 7 =>
      let p : Fin 2 := Fin.ofNat 2 o.args.1.toNat
      postResult k 7 9 0 0 (canTxabort p (BitVec.ofNat 8 (2 ^ o.args.2.1.toNat)) s)
    | 8 => postResult k 8 9 0 0 s
    | n =>
      let e := opWork o done s
      postResult k n 9 e.r0 e.r1 e.after

/-- A deadbolt that waited for the abort is over (R359). -/
def boltOver (b : PendingBolt) (s : State) : State :=
  let s1 := raise .hcp 1 (boltResult b.target 9 s)
  match b.port with
  | none => s1
  | some p => reply p b.req 9 (ofWords [dbresWord s1]) s1

/-- The longest time from a deadbolt to the end of its abort (R359). -/
def boltLimit (target : Byte) (s : State) : Nat :=
  if target = 0x80 then ms 20
  else match s.host.mbox[(Fin.ofNat 16 target.toNat)].running with
    | none => us 4
    | some o => if o.op.toNat = 7 || o.op.toNat = 8 then us 50 else us 4

/-- The target of the oldest waiting deadbolt stops within its longest time, at a time the spec leaves open (R359; log
entry 4); every deadbolt of that target is over. -/
def deadboltAbort (done : Nat) (s0 : State) : State :=
  match s0.host.bolts with
  | [] => s0
  | b :: _ =>
    let (n, sf) := takeFree s0
    let s := elapseTo (b.at0 + n % (boltLimit b.target s0 + 1)) sf
    let s1 := if b.target = 0x80 then abortKey s else abortOp (Fin.ofNat 16 b.target.toNat) done s
    let mine := s1.host.bolts.filter fun x => x.target == b.target
    foldS mine boltOver (modHost (fun h => { h with bolts := h.bolts.filter fun x => x.target != b.target }) s1)

/-- The aborted operation stops. -/
def execDeadboltAbort (done : Nat) (s : State) : Out := .next (deadboltAbort done s)

end Sys2Proof.Machine
end

