-- ==== Sys2Proof/Machine/Waits.lean ====
section
/-! DEFINITION. Reads that wait at a lock, and the cycle probe that breaks a circle of waits (R116, R117). -/

namespace Sys2Proof.Machine

/-! ### A stalled read goes on (R116) -/

/-- The read of a master that stalls at a lock, where it is part of a transfer. -/
def stallOf (m : Master) (s : State) : Option MeshStall := s.mesh.stalls.find? fun t => t.master == m

/-- Bytes of a stalled transfer from its first one on. -/
def stallBytes (t : MeshStall) : Nat := t.got.length + 4 * t.left

/-- A stalled transfer is no longer kept. -/
def dropStall (m : Master) (s : State) : State :=
  modMesh (fun x => { x with stalls := x.stalls.filter fun t => t.master != m }) s

/-- The stalled read has its lock word: the rest of its transfer follows. -/
def resume (t : MeshStall) (w : Word) (s : State) : State :=
  let got := t.got ++ leBytes 4 w.toNat
  match t.port with
  | none => finishAccess t.master (stallBytes t) false (readWords t.master (t.left - 1) (t.addr + 4) got s)
  | some p =>
    match (hostPort p s).queue with
    | [] => s
    | h :: _ => hostRead p h (t.left - 1) (t.addr + 4) got s

/-- A free lock goes to a master whose read stalls at it (R116). -/
def wakeLock (m : Master) (n : Fin 64) (s : State) : State :=
  let k := s.mesh.lock[n]
  if k.holder.isSome || !k.waiters.contains m then s
  else
    let s1 := modLock n (fun k => { k with holder := some m, waiters := k.waiters.erase m }) s
    match stallOf m s with
    | none => answer m (some (lockGranted m), s1)
    | some t => resume t (lockGranted m) (dropStall m s1)

/-- A stalled read acquires its lock. -/
def execLockWaitAcquired (m : Master) (n : Fin 64) (s : State) : Out := byMaster m s (wakeLock m n)

/-! ### The cycle probe (R117, R118) -/

/-- The first circle of waits, from its master of lowest ID. -/
def circleOf (s : State) (flow : List (Master × BitVec 6)) : Option (List Master) :=
  (List.range 14).findSome? fun m => follow (waitsOn s flow) (BitVec.ofNat 4 m) 14 (BitVec.ofNat 4 m)

/-- The lock at which a read of a master stalls. -/
def lockWait (s : State) (v : Master) : Option (Fin 64) := (idx 64).find? fun n => (s.mesh.lock[n]).waiters.contains v

/-- Address and bytes of the read of a master that stalls at lock n, from its first byte on. -/
def lockRead (s : State) (v : Master) (n : Fin 64) : Nat × Nat :=
  match stallOf v s with
  | some t => (t.addr - t.got.length, stallBytes t)
  | none => (0x40100 + 4 * n.val, 4)

/-- The read of a master that stalls at a lock is over with a bus error (R117): it returns 0; no lock is released. -/
def abortLockRead (v : Master) (n : Fin 64) (s : State) : State :=
  let s1 := dropStall v (modLock n (fun k => { k with waiters := k.waiters.filter (· != v) }) s)
  match stallOf v s with
  | some t =>
    match t.port with
    | none => send (.bus v (List.replicate (stallBytes t) 0) true) s1
    | some p =>
      match (hostPort p s1).queue with
      | [] => s1
      | h :: _ => respond p h 11 t.got s1
  | none => send (.bus v (List.replicate 4 0) true) s1

/-- The transfer of a master that flow control stalls is over with a bus error (R117): a read returns 0, a write is
discarded. -/
def abortTransfer (w : MeshWait) (s : State) : State :=
  send (.bus w.master (if w.data.isSome then [] else List.replicate w.bytes 0) true)
    (modMesh (fun x => { x with waiting := x.waiting.erase w }) s)

/-- The supervisors of the two lanes (R18). -/
def isSupervisor (m : Master) : Bool := m == 0 || m == 1

/-- A supervisor that received the bus error of the probe releases every lock it holds, and retries its operation after
100 µs (R118). -/
def supervisorRetry (w : MeshWait) (s : State) : State :=
  if !isSupervisor w.master then s
  else modMesh (fun x => { x with
    lock := x.lock.map fun k => if k.holder = some w.master then { k with holder := none } else k,
    retries := x.retries ++ [⟨s.now + us 100, { w with slots := 0 }⟩] }) s

/-- The waiting transfer of the victim is aborted (R117, R118): the read at a lock, else the one that flow control stalls. -/
def abortWait (v : Master) (flow : List (Master × BitVec 6)) (s : State) : State :=
  match lockWait s v with
  | some n =>
    let (a, bytes) := lockRead s v n
    supervisorRetry ⟨v, wd a, bytes, none, 0⟩ (abortLockRead v n s)
  | none =>
    match flowStall s flow v with
    | some (_, w) => supervisorRetry w (abortTransfer w s)
    | none => s

/-- The operations of the supervisors whose 100 µs have passed are requested again (R118). -/
def retryDue (s : State) : State :=
  modMesh (fun x => { x with
    waiting := x.waiting ++ (x.retries.filter fun r => decide (r.due ≤ s.now)).map (·.wait),
    retries := x.retries.filter fun r => decide (s.now < r.due) }) s

/-- The lock of highest class that a master holds. -/
def topLock (s : State) (v : Master) : Option (Fin 64) :=
  (locksOf s v).find? fun n => lockClass s n.val + 1 == lockRank s v

/-- The probe breaks a circle: it aborts one wait and logs it. -/
def breakCircle (c : List Master) (flow : List (Master × BitVec 6)) (s : State) : State :=
  match c with
  | [] => s
  | m :: ms =>
    let v := victim s ms m
    let top := topLock s v
    raise .mesh 3 (modMesh (fun x => { x with
      cycNoLock := top.isNone, cycLock := BitVec.ofNat 6 ((top.map (·.val)).getD 0), cycVictim := v,
      cycLength := BitVec.ofNat 4 c.length, cycCount := satInc x.cycCount }) (abortWait v flow s))

/-- The probe follows the waits. -/
def execCycleProbe (flow : List (Master × BitVec 6)) (s : State) : Out :=
  let s1 := retryDue (periodic tkProbe (us 5) s)
  .next (match circleOf s1 flow with
    | none => s1
    | some c => breakCircle c flow s1)

end Sys2Proof.Machine
end

