-- ==== Sys2Proof/Machine/Dispatch.lean ====
section
/-! DEFINITION. The dispatch: one arm per command, each one direct call of its meaning. -/

namespace Sys2Proof.Machine

/-- What a command does to everything but the queue. -/
def exec (i : Instr) (s : State) : Host.Outcome State Fault Refusal :=
  match i with
  | .vbusRise vbusMv auxMv => Sys2Proof.Machine.execVbusRise vbusMv auxMv s
  | .vbusFall vbusMv => Sys2Proof.Machine.execVbusFall vbusMv s
  | .auxDrop auxMv vbusMv holdNs => Sys2Proof.Machine.execAuxDrop auxMv vbusMv holdNs s
  | .auxDropClear auxMv vbusMv holdNs => Sys2Proof.Machine.execAuxDropClear auxMv vbusMv holdNs s
  | .auxHigh auxMv => Sys2Proof.Machine.execAuxHigh auxMv s
  | .hupCapEstimate fromMv toMv chargeUc => Sys2Proof.Machine.execHupCapEstimate fromMv toMv chargeUc s
  | .powerMeasure auxMv vbusMv hupMv powerDw tempDc laneA laneB => Sys2Proof.Machine.execPowerMeasure auxMv vbusMv hupMv powerDw tempDc laneA laneB s
  | .gpFault pump hb => Sys2Proof.Machine.execGpFault pump hb s
  | .gpFaultClear v => Sys2Proof.Machine.execGpFaultClear v s
  | .gpSoftstartDone pump hb => Sys2Proof.Machine.execGpSoftstartDone pump hb s
  | .tempWarn tempDc => Sys2Proof.Machine.execTempWarn tempDc s
  | .tempHigh tempDc => Sys2Proof.Machine.execTempHigh tempDc s
  | .gpCut tempDc => Sys2Proof.Machine.execGpCut tempDc s
  | .gpCutRearm => Sys2Proof.Machine.execGpCutRearm s
  | .gpCtlWrite v => Sys2Proof.Machine.execGpCtlWrite v s
  | .islandIdleStepDown isl => Sys2Proof.Machine.execIslandIdleStepDown isl s
  | .islandWake isl => Sys2Proof.Machine.execIslandWake isl s
  | .islandWakeDone isl => Sys2Proof.Machine.execIslandWakeDone isl s
  | .tcxoFail t => Sys2Proof.Machine.execTcxoFail t s
  | .tcxoReturn t => Sys2Proof.Machine.execTcxoReturn t s
  | .tcxoDrift ppb spareFurther => Sys2Proof.Machine.execTcxoDrift ppb spareFurther s
  | .refLoss => Sys2Proof.Machine.execRefLoss s
  | .ref10Qualified => Sys2Proof.Machine.execRef10Qualified s
  | .ppsLoss => Sys2Proof.Machine.execPpsLoss s
  | .pllHoldoverEnd p => Sys2Proof.Machine.execPllHoldoverEnd p s
  | .pllLoss p => Sys2Proof.Machine.execPllLoss p s
  | .pllLock p => Sys2Proof.Machine.execPllLock p s
  | .islandSourceChange isl => Sys2Proof.Machine.execIslandSourceChange isl s
  | .ringCalibrate pm => Sys2Proof.Machine.execRingCalibrate pm s
  | .spareIdleTgtWrite tgt => Sys2Proof.Machine.execSpareIdleTgtWrite tgt s
  | .spareRelease => Sys2Proof.Machine.execSpareRelease s
  | .modeReqDormant key => Sys2Proof.Machine.execModeReqDormant key s
  | .modeReqRestart key => Sys2Proof.Machine.execModeReqRestart key s
  | .modeReqBlocked key => Sys2Proof.Machine.execModeReqBlocked key s
  | .modeReqPrecharge key => Sys2Proof.Machine.execModeReqPrecharge key s
  | .modeReqBlackStart key => Sys2Proof.Machine.execModeReqBlackStart key s
  | .modeReqSynchronise key => Sys2Proof.Machine.execModeReqSynchronise key s
  | .modeReqUnaccepted key target => Sys2Proof.Machine.execModeReqUnaccepted key target s
  | .modeTransitionDone => Sys2Proof.Machine.execModeTransitionDone s
  | .hspWake lowNs => Sys2Proof.Machine.execHspWake lowNs s
  | .keycheckDone fw0Ok fw1Ok => Sys2Proof.Machine.execKeycheckDone fw0Ok fw1Ok s
  | .startDone failed => Sys2Proof.Machine.execStartDone failed s
  | .prechargeTo => Sys2Proof.Machine.execPrechargeTo s
  | .brownStop => Sys2Proof.Machine.execBrownStop s
  | .degrExpired => Sys2Proof.Machine.execDegrExpired s
  | .modeCtrlTick => Sys2Proof.Machine.execModeCtrlTick s
  | .gridStateTimer present => Sys2Proof.Machine.execGridStateTimer present s
  | .syncReached => Sys2Proof.Machine.execSyncReached s
  | .syncTo => Sys2Proof.Machine.execSyncTo s
  | .bsFail => Sys2Proof.Machine.execBsFail s
  | .gridLoss freq => Sys2Proof.Machine.execGridLoss freq s
  | .rtRecover => Sys2Proof.Machine.execRtRecover s
  | .keyCmdUnlisted m key fw op => Sys2Proof.Machine.execKeyCmdUnlisted m key fw op s
  | .keyOpen m key fw => Sys2Proof.Machine.execKeyOpen m key fw s
  | .keyClose m key fw => Sys2Proof.Machine.execKeyClose m key fw s
  | .keyErase m key fw => Sys2Proof.Machine.execKeyErase m key fw s
  | .keyProgram m key fw => Sys2Proof.Machine.execKeyProgram m key fw s
  | .keyVerify m key fw => Sys2Proof.Machine.execKeyVerify m key fw s
  | .keyCommit m key fw => Sys2Proof.Machine.execKeyCommit m key fw s
  | .keySafeauth m key fw => Sys2Proof.Machine.execKeySafeauth m key fw s
  | .keyAdvance m key fw => Sys2Proof.Machine.execKeyAdvance m key fw s
  | .keyProgslot m key fw => Sys2Proof.Machine.execKeyProgslot m key fw s
  | .keyRevoke m key fw => Sys2Proof.Machine.execKeyRevoke m key fw s
  | .keyCmdComplete flash => Sys2Proof.Machine.execKeyCmdComplete flash s
  | .sessionTimeout => Sys2Proof.Machine.execSessionTimeout s
  | .keyBufWrite m idx v => Sys2Proof.Machine.execKeyBufWrite m idx v s
  | .rwkWrite m addr v => Sys2Proof.Machine.execRwkWrite m addr v s
  | .meshTransfer m addr bytes data slot busy => Sys2Proof.Machine.execMeshTransfer m addr bytes data slot busy s
  | .meshGrant t slot waited => Sys2Proof.Machine.execMeshGrant t slot waited s
  | .frameBoundary seg => Sys2Proof.Machine.execFrameBoundary seg s
  | .meshSwap m req => Sys2Proof.Machine.execMeshSwap m req s
  | .meshCntclr => Sys2Proof.Machine.execMeshCntclr s
  | .lockAcquire m n => Sys2Proof.Machine.execLockAcquire m n s
  | .lockWaitAcquired m n => Sys2Proof.Machine.execLockWaitAcquired m n s
  | .lockRelease m n => Sys2Proof.Machine.execLockRelease m n s
  | .cycleProbe flow => Sys2Proof.Machine.execCycleProbe flow s
  | .accViolClear => Sys2Proof.Machine.execAccViolClear s
  | .loopTrigger ctx leadNs => Sys2Proof.Machine.execLoopTrigger ctx leadNs s
  | .converterSample l pin legs lost => Sys2Proof.Machine.execConverterSample l pin legs lost s
  | .converterPowerDown l pin => Sys2Proof.Machine.execConverterPowerDown l pin s
  | .winExit l pin => Sys2Proof.Machine.execWinExit l pin s
  | .openWire l pin => Sys2Proof.Machine.execOpenWire l pin s
  | .owTestStart l => Sys2Proof.Machine.execOwTestStart l s
  | .owTestEnd l pin => Sys2Proof.Machine.execOwTestEnd l pin s
  | .xchkFail l pin => Sys2Proof.Machine.execXchkFail l pin s
  | .voteDone pin sumPrimary sumCross sumSpare => Sys2Proof.Machine.execVoteDone pin sumPrimary sumCross sumSpare s
  | .spareIn l pin => Sys2Proof.Machine.execSpareIn l pin s
  | .spareCalibrate l => Sys2Proof.Machine.execSpareCalibrate l s
  | .fltCtlWrite l v => Sys2Proof.Machine.execFltCtlWrite l v s
  | .fltCoefdatWrite l m v => Sys2Proof.Machine.execFltCoefdatWrite l m v s
  | .vectorDue ctx missA missB => Sys2Proof.Machine.execVectorDue ctx missA missB s
  | .committedStepStart l ctx => Sys2Proof.Machine.execCommittedStepStart l ctx s
  | .committedStepCommit l ctx => Sys2Proof.Machine.execCommittedStepCommit l ctx s
  | .deadlineMiss l ctx => Sys2Proof.Machine.execDeadlineMiss l ctx s
  | .coefWrite l v => Sys2Proof.Machine.execCoefWrite l v s
  | .bankSwapReq l => Sys2Proof.Machine.execBankSwapReq l s
  | .mirroredWriteArrival rx => Sys2Proof.Machine.execMirroredWriteArrival rx s
  | .fmaErr l unit wh => Sys2Proof.Machine.execFmaErr l unit wh s
  | .fmaTestPass l failed => Sys2Proof.Machine.execFmaTestPass l failed s
  | .oscWindowEnd l ctx => Sys2Proof.Machine.execOscWindowEnd l ctx s
  | .trcCtlWrite l v => Sys2Proof.Machine.execTrcCtlWrite l v s
  | .specLevelIssue l ctx => Sys2Proof.Machine.execSpecLevelIssue l ctx s
  | .specStepDone l ctx => Sys2Proof.Machine.execSpecStepDone l ctx s
  | .branchCommit l tpl src latency => Sys2Proof.Machine.execBranchCommit l tpl src latency s
  | .laneDiff l ctx tpl => Sys2Proof.Machine.execLaneDiff l ctx tpl s
  | .raCtlWrite l v => Sys2Proof.Machine.execRaCtlWrite l v s
  | .gfParamWrite l n v => Sys2Proof.Machine.execGfParamWrite l n v s
  | .gfCommit l => Sys2Proof.Machine.execGfCommit l s
  | .carrierBoundary l g => Sys2Proof.Machine.execCarrierBoundary l g s
  | .midPeriodUpdate l g => Sys2Proof.Machine.execMidPeriodUpdate l g s
  | .pwmPerWrite l g v => Sys2Proof.Machine.execPwmPerWrite l g v s
  | .pwmDutyWrite l g v => Sys2Proof.Machine.execPwmDutyWrite l g v s
  | .pwmDutyfWrite l g v => Sys2Proof.Machine.execPwmDutyfWrite l g v s
  | .pwmCommit l mask => Sys2Proof.Machine.execPwmCommit l mask s
  | .pwmDtWrite l g m v => Sys2Proof.Machine.execPwmDtWrite l g m v s
  | .pwmMinpWrite l g m v => Sys2Proof.Machine.execPwmMinpWrite l g m v s
  | .faultSourceChange src active => Sys2Proof.Machine.execFaultSourceChange src active s
  | .fltinChange n mv holdNs => Sys2Proof.Machine.execFltinChange n mv holdNs s
  | .fgClr l mask => Sys2Proof.Machine.execFgClr l mask s
  | .gateTurnOn ch chargeNc posMv => Sys2Proof.Machine.execGateTurnOn ch chargeNc posMv s
  | .blankEnd ch sense => Sys2Proof.Machine.execBlankEnd ch sense s
  | .scTrip ch path sense mv => Sys2Proof.Machine.execScTrip ch path sense mv s
  | .softOffEnd ch => Sys2Proof.Machine.execSoftOffEnd ch s
  | .faultEventClose => Sys2Proof.Machine.execFaultEventClose s
  | .retryWaitEnd => Sys2Proof.Machine.execRetryWaitEnd s
  | .railCrossing ch posMv negMv => Sys2Proof.Machine.execRailCrossing ch posMv negMv s
  | .gchClear stageNs snOhm => Sys2Proof.Machine.execGchClear stageNs snOhm s
  | .gchSelftest => Sys2Proof.Machine.execGchSelftest s
  | .selftestDone ch primaryNs spareNs snOhm => Sys2Proof.Machine.execSelftestDone ch primaryNs spareNs snOhm s
  | .stageSwap ch lastsNs => Sys2Proof.Machine.execStageSwap ch lastsNs s
  | .laneFault l cause => Sys2Proof.Machine.execLaneFault l cause s
  | .signatureReceived l ctx step sig => Sys2Proof.Machine.execSignatureReceived l ctx step sig s
  | .timebaseCompare err => Sys2Proof.Machine.execTimebaseCompare err s
  | .tsuinSwap toB k lostLock hdrErrors => Sys2Proof.Machine.execTsuinSwap toB k lostLock hdrErrors s
  | .tsuinRetrained => Sys2Proof.Machine.execTsuinRetrained s
  | .claimChange => Sys2Proof.Machine.execClaimChange s
  | .revert ch => Sys2Proof.Machine.execRevert ch s
  | .switchover ch => Sys2Proof.Machine.execSwitchover ch s
  | .recoveryStart l => Sys2Proof.Machine.execRecoveryStart l s
  | .selfCheckDone check => Sys2Proof.Machine.execSelfCheckDone check s
  | .mirrorReceived l ctx => Sys2Proof.Machine.execMirrorReceived l ctx s
  | .claimRaise => Sys2Proof.Machine.execClaimRaise s
  | .clmCtlWrite m v => Sys2Proof.Machine.execClmCtlWrite m v s
  | .offline key l => Sys2Proof.Machine.execOffline key l s
  | .recover key l => Sys2Proof.Machine.execRecover key l s
  | .linkChange p up speed => Sys2Proof.Machine.execLinkChange p up speed s
  | .ethFrameRx p f => Sys2Proof.Machine.execEthFrameRx p f s
  | .dupEntryExpire src => Sys2Proof.Machine.execDupEntryExpire src s
  | .supervisionTx => Sys2Proof.Machine.execSupervisionTx s
  | .lanFault src => Sys2Proof.Machine.execLanFault src s
  | .ptpSyncRx k p offsetNs => Sys2Proof.Machine.execPtpSyncRx k p offsetNs s
  | .ptpAnnounceRx k p ann => Sys2Proof.Machine.execPtpAnnounceRx k p ann s
  | .announceTimeout k => Sys2Proof.Machine.execAnnounceTimeout k s
  | .domainRevert => Sys2Proof.Machine.execDomainRevert s
  | .pdelayTx => Sys2Proof.Machine.execPdelayTx s
  | .pdelayRespRx p t1 t2 t3 t4 => Sys2Proof.Machine.execPdelayRespRx p t1 t2 t3 t4 s
  | .ppsEdge => Sys2Proof.Machine.execPpsEdge s
  | .timeLatchRead which => Sys2Proof.Machine.execTimeLatchRead which s
  | .timeCvctl v => Sys2Proof.Machine.execTimeCvctl v s
  | .conversionDone => Sys2Proof.Machine.execConversionDone s
  | .timeCtlWrite m v => Sys2Proof.Machine.execTimeCtlWrite m v s
  | .timePpssecWrite m v => Sys2Proof.Machine.execTimePpssecWrite m v s
  | .canFrameRx p f => Sys2Proof.Machine.execCanFrameRx p f s
  | .canTxDone p b => Sys2Proof.Machine.execCanTxDone p b s
  | .canBusError p e tx afterArb major => Sys2Proof.Machine.execCanBusError p e tx afterArb major s
  | .canBusoffRecovered p => Sys2Proof.Machine.execCanBusoffRecovered p s
  | .rateTryTimeout p => Sys2Proof.Machine.execRateTryTimeout p s
  | .canTxreq p mask => Sys2Proof.Machine.execCanTxreq p mask s
  | .canTxabort p mask => Sys2Proof.Machine.execCanTxabort p mask s
  | .canTxbufWrite p b w v => Sys2Proof.Machine.execCanTxbufWrite p b w v s
  | .canRxpop p => Sys2Proof.Machine.execCanRxpop p s
  | .canRecover p => Sys2Proof.Machine.execCanRecover p s
  | .canModeWrite p v => Sys2Proof.Machine.execCanModeWrite p v s
  | .fioExchange pinsMv => Sys2Proof.Machine.execFioExchange pinsMv s
  | .fioLink => Sys2Proof.Machine.execFioLink s
  | .fieldSupplySample mv => Sys2Proof.Machine.execFieldSupplySample mv s
  | .fsLost mv highUs => Sys2Proof.Machine.execFsLost mv highUs s
  | .fsRecover => Sys2Proof.Machine.execFsRecover s
  | .diChange n level holdUs stamp => Sys2Proof.Machine.execDiChange n level holdUs stamp s
  | .wireBreak n ua10 holdUs => Sys2Proof.Machine.execWireBreak n ua10 holdUs s
  | .fioDqset v => Sys2Proof.Machine.execFioDqset v s
  | .outOvl j inLimit thermal => Sys2Proof.Machine.execOutOvl j inLimit thermal s
  | .extDrive j mv holdUs => Sys2Proof.Machine.execExtDrive j mv holdUs s
  | .testRound => Sys2Proof.Machine.execTestRound s
  | .testPulseEnd mv => Sys2Proof.Machine.execTestPulseEnd mv s
  | .safeCycle reported => Sys2Proof.Machine.execSafeCycle reported s
  | .enableDetectOff ch => Sys2Proof.Machine.execEnableDetectOff ch s
  | .supplyPulse => Sys2Proof.Machine.execSupplyPulse s
  | .supplyPulseEnd demLow guardLow => Sys2Proof.Machine.execSupplyPulseEnd demLow guardLow s
  | .safeSelfTest ok => Sys2Proof.Machine.execSafeSelfTest ok s
  | .plkCmdDemand key => Sys2Proof.Machine.execPlkCmdDemand key s
  | .plkReset src => Sys2Proof.Machine.execPlkReset src s
  | .proofExpired => Sys2Proof.Machine.execProofExpired s
  | .pwLockoutEnd => Sys2Proof.Machine.execPwLockoutEnd s
  | .safetyFrameRx k bytes => Sys2Proof.Machine.execSafetyFrameRx k bytes s
  | .safetyStatusTx k => Sys2Proof.Machine.execSafetyStatusTx k s
  | .connectionTimeout k => Sys2Proof.Machine.execConnectionTimeout k s
  | .recTrig l src frac => Sys2Proof.Machine.execRecTrig l src frac s
  | .xlaneTrigger l => Sys2Proof.Machine.execXlaneTrigger l s
  | .recDone l => Sys2Proof.Machine.execRecDone l s
  | .recRelease l mask => Sys2Proof.Machine.execRecRelease l mask s
  | .recCmdTrig l => Sys2Proof.Machine.execRecCmdTrig l s
  | .recOffsetMeasure l offs => Sys2Proof.Machine.execRecOffsetMeasure l offs s
  | .hspFrameIn bytes => Sys2Proof.Machine.execHspFrameIn bytes s
  | .hspFrameOut complete => Sys2Proof.Machine.execHspFrameOut complete s
  | .udpRequest ip sport bytes => Sys2Proof.Machine.execUdpRequest ip sport bytes s
  | .read p tag addr n => Sys2Proof.Machine.execRead p tag addr n s
  | .write p tag addr ws => Sys2Proof.Machine.execWrite p tag addr ws s
  | .pntGet p tag => Sys2Proof.Machine.execPntGet p tag s
  | .pntClear p tag mask => Sys2Proof.Machine.execPntClear p tag mask s
  | .subscribe p tag mask => Sys2Proof.Machine.execSubscribe p tag mask s
  | .unknownCommand p tag cmd => Sys2Proof.Machine.execUnknownCommand p tag cmd s
  | .opCopy p tag mb force a0 a1 a2 => Sys2Proof.Machine.execOpCopy p tag mb force a0 a1 a2 s
  | .opCrc p tag mb force a0 a1 => Sys2Proof.Machine.execOpCrc p tag mb force a0 a1 s
  | .opSnapshot p tag mb force a0 a1 a2 => Sys2Proof.Machine.execOpSnapshot p tag mb force a0 a1 a2 s
  | .opCkptCopy p tag mb force a0 a1 a2 => Sys2Proof.Machine.execOpCkptCopy p tag mb force a0 a1 a2 s
  | .opRecWait p tag mb force a0 a1 => Sys2Proof.Machine.execOpRecWait p tag mb force a0 a1 s
  | .opMeshSnap p tag mb force a0 => Sys2Proof.Machine.execOpMeshSnap p tag mb force a0 s
  | .opCanSend p tag mb force a0 a1 a2 => Sys2Proof.Machine.execOpCanSend p tag mb force a0 a1 a2 s
  | .opNetEcho p tag mb force a0 a1 => Sys2Proof.Machine.execOpNetEcho p tag mb force a0 a1 s
  | .operationComplete mb echoUs => Sys2Proof.Machine.execOperationComplete mb echoUs s
  | .operationTimeout mb => Sys2Proof.Machine.execOperationTimeout mb s
  | .result p tag mb => Sys2Proof.Machine.execResult p tag mb s
  | .mbstatRead => Sys2Proof.Machine.execMbstatRead s
  | .deadbolt p tag target => Sys2Proof.Machine.execDeadbolt p tag target s
  | .deadboltAbort done => Sys2Proof.Machine.execDeadboltAbort done s
  | .notificationTx p => Sys2Proof.Machine.execNotificationTx p s
  | .eccCorrected wh bank row => Sys2Proof.Machine.execEccCorrected wh bank row s
  | .rowSwapDone l ok => Sys2Proof.Machine.execRowSwapDone l ok s
  | .bankSwapDone l ok => Sys2Proof.Machine.execBankSwapDone l ok s
  | .couplerLaneSwap k errors => Sys2Proof.Machine.execCouplerLaneSwap k errors s
  | .repairMapWritten => Sys2Proof.Machine.execRepairMapWritten s
  | .mapFail => Sys2Proof.Machine.execMapFail s
  | .swapLogWrite room => Sys2Proof.Machine.execSwapLogWrite room s
  | .registerWrite m addr v => Sys2Proof.Machine.execRegisterWrite m addr v s
  | .canIntegrationDone p => Sys2Proof.Machine.execCanIntegrationDone p s
  | .coolingRestart j => Sys2Proof.Machine.execCoolingRestart j s
  | .testPulseStart j => Sys2Proof.Machine.execTestPulseStart j s
  | .channelTelemetry pos neg => Sys2Proof.Machine.execChannelTelemetry pos neg s

end Sys2Proof.Machine
end

