-- ==== Sys2Proof/Safety.lean ====
section
/-! DEFINITION. What counts as a sound state of the block: the terms in which the claims about every step are stated. -/

namespace Sys2Proof.Machine

/-- Every addressed memory is in its canonical form: shared SRAM, the SRAM of each lane, the transfer buffer and the four
flash pages. -/
def Memory.wf (s : State) : Bool :=
  sparseWf 0 s.sram && sparseWf 0 s.laneA.sram && sparseWf 0 s.laneB.sram && sparseWf 0 s.key.buf &&
    (idx 4).all fun p => sparseWf 0xFF s.key.flash[p]

/-- The rows of R70 that a start takes. -/
def startRows : List (Nat × Nat) := [(0, 1), (1, 2), (2, 3), (2, 11)]

/-- The rows of R70 that take a transition time, from the mode of the first number to that of the second. -/
def transitionRows : List (Nat × Nat) :=
  [(0, 1), (3, 0), (3, 1), (11, 1), (3, 4), (4, 5), (4, 6), (8, 6), (4, 3), (5, 8), (6, 7), (7, 8), (7, 9), (8, 9),
    (9, 7), (9, 8), (9, 3), (4, 10), (5, 10), (6, 10), (7, 10), (8, 10), (9, 10), (10, 4), (10, 5), (10, 6), (10, 7),
    (10, 8), (10, 9), (10, 11), (3, 11), (4, 11), (5, 11), (6, 11), (7, 11), (8, 11), (9, 11), (11, 3), (5, 3), (6, 3),
    (7, 3), (8, 3), (10, 3)]

/-- A trigger that waits leads along a row of R70 when it is evaluated; a return from M9 or M10 takes its target then. -/
def Trigger.sound : Trigger → Bool
  | .auto src dst _ => src == 9 || src == 10 || transitionRows.contains (src.toNat, dst.toNat)
  | _ => true

/-- The mode controller is sound: without supply the mode is 0; a transition in progress follows a row of R70, so do the
triggers that wait, and M9 and M10 know the modes they return to. -/
def Mode.sound (s : State) : Bool :=
  (s.power.powered || (s.md == 0 && !s.mode.busy)) && decide (s.md ≤ 11) &&
    (!s.mode.busy || transitionRows.contains (s.md, s.mode.target.toNat)) && s.mode.held.all Trigger.sound &&
    (s.md != 10 || (decide (4 ≤ s.mode.degrFrom.toNat) && decide (s.mode.degrFrom.toNat ≤ 9))) &&
    (!(s.md == 9 || (s.md == 10 && s.mode.degrFrom == 9)) || s.mode.rideFrom == 7 || s.mode.rideFrom == 8)

/-- A host port keeps its limits (R353): at most 8 requests without a response, and a place in the outbound queue of 32
frames for the response of each. -/
def Port.bounded (p : HostPort) (s : State) : Bool :=
  decide (unanswered p s ≤ 8) && decide ((hostPort p s).out.length + unanswered p s ≤ 32)

/-! ### Frames -/

/-- The parts of the state that a frame names. -/
inductive Part where
  | time | free | queue | events | board | host | power | clock | mode | key | mesh | laneA | laneB | sramA | sramB | sram
  | gate | claim | net | timebase | can | fio | plk | wear | outbox
  deriving DecidableEq, Repr

/-- The part of a lane's blocks. -/
def lanePart : Lane → Part
  | .a => .laneA
  | .b => .laneB

/-- The part of a lane's SRAM. -/
def sramPart : Lane → Part
  | .a => .sramA
  | .b => .sramB

/-- The host command processor without the pennant board: raised pennants, counts and what waits to be notified. -/
def hostRest (s : State) : HostState :=
  { s.host with
    raised := 0, counts := [], hsp := { s.host.hsp with pend := 0, first := 0 },
    net := { s.host.net with pend := 0, first := 0 } }

/-- A lane without its SRAM. -/
def laneRest (x : LaneState) : LaneState := { x with sram := [] }

/-- A part of the state is the same in two states. -/
def Part.same (s t : State) : Part → Prop
  | .time => t.now = s.now ∧ t.raw = s.raw ∧ t.ticks = s.ticks
  | .free => t.fresh = s.fresh
  | .queue => t.pending = s.pending
  | .events => t.events = s.events
  | .board => t.host.raised = s.host.raised ∧ t.host.counts = s.host.counts ∧ t.host.hsp.pend = s.host.hsp.pend ∧
      t.host.net.pend = s.host.net.pend
  | .host => hostRest t = hostRest s
  | .power => t.power = s.power
  | .clock => t.clock = s.clock
  | .mode => t.mode = s.mode
  | .key => t.key = s.key
  | .mesh => t.mesh = s.mesh
  | .laneA => laneRest t.laneA = laneRest s.laneA
  | .laneB => laneRest t.laneB = laneRest s.laneB
  | .sramA => t.laneA.sram = s.laneA.sram
  | .sramB => t.laneB.sram = s.laneB.sram
  | .sram => t.sram = s.sram
  | .gate => t.gate = s.gate
  | .claim => t.claim = s.claim
  | .net => t.net = s.net
  | .timebase => t.time = s.time
  | .can => t.can = s.can
  | .fio => t.fio = s.fio
  | .plk => t.plk = s.plk
  | .wear => t.wear = s.wear
  | .outbox => t.outbox = s.outbox

/-- Only the named parts may differ: every register, queue and memory outside them is unchanged. -/
def Frame (ps : List Part) (s t : State) : Prop := ∀ p : Part, p ∉ ps → p.same s t

/-- An event is latched: its bit in the event register reads 1. -/
def Latched (r : EvReg) (k : Nat) (t : State) : Prop := bit (eventsOf r t) k = true

end Sys2Proof.Machine
end

