-- ==== Sys2Proof/WellFormed.lean ====
section
/-! DEFINITION. Which commands are well formed: masters that exist (R18) and lists of the length their command gives
them. The meanings read a short list as if it ended in zeros. -/

namespace Sys2Proof

/-- A master ID that can be issued (R18). -/
def Master.exists' (m : Master) : Bool := decide (m.toNat < 14)

/-- A CAN frame carries as many bytes as its DLC names (R289). -/
def CanFrame.sized (f : CanFrame) : Bool := decide (f.data.length ≤ 64) && (f.fdf || decide (f.data.length ≤ 8))

/-- The command has the shape that its row of the table gives it. -/
def Instr.wellFormed : Instr → Bool
  | .ringCalibrate pm => pm.length == 22
  | .keyCmdUnlisted m _ _ _ => m.exists'
  | .keyOpen m _ _ => m.exists'
  | .keyClose m _ _ => m.exists'
  | .keyErase m _ _ => m.exists'
  | .keyProgram m _ _ => m.exists'
  | .keyVerify m _ _ => m.exists'
  | .keyCommit m _ _ => m.exists'
  | .keySafeauth m _ _ => m.exists'
  | .keyAdvance m _ _ => m.exists'
  | .keyProgslot m _ _ => m.exists'
  | .keyRevoke m _ _ => m.exists'
  | .keyBufWrite m _ _ => m.exists'
  | .rwkWrite m _ _ => m.exists'
  | .meshTransfer m _ bytes data _ _ =>
    m.exists' && decide (1 ≤ bytes) && decide (bytes ≤ 128) &&
      (match data with
        | none => true
        | some d => d.length == bytes)
  | .meshSwap m _ => m.exists'
  | .lockAcquire m _ => m.exists'
  | .lockWaitAcquired m _ => m.exists'
  | .lockRelease m _ => m.exists'
  | .cycleProbe flow => flow.all fun f => f.1.exists'
  | .fltCoefdatWrite _ m _ => m.exists'
  | .pwmDtWrite _ _ m _ => m.exists'
  | .pwmMinpWrite _ _ m _ => m.exists'
  | .clmCtlWrite m _ => m.exists'
  | .timeCtlWrite m _ => m.exists'
  | .timePpssecWrite m _ => m.exists'
  | .canFrameRx _ f => f.sized
  | .fioExchange pins => pins.length == 8
  | .recOffsetMeasure _ offs => offs.length == 32
  | .registerWrite m _ _ => m.exists'
  | .channelTelemetry pos neg => pos.length == 32 && neg.length == 32
  | _ => true

end Sys2Proof
end

