-- ==== Sys2Proof/Certificates/Slice0/Obligations.lean ====
section
/-! DEFINITION. The statements for the provers. A statement over several rules of one chapter is the conjunction of the
claims it names. -/

open Sys2Proof Sys2Proof.Machine

/-- The command at the front of the queue runs on the queue's rest. -/
def Obligations.StepRunsFrontCommand : Prop :=
  ∀ (c : Instr) (rest : List Instr) (s : State),
    step { s with pending := c :: rest } = exec c { s with pending := rest }

/-- On an empty queue one tick of 2.5 ns passes, in the raw counter too where it counts, and nothing else happens. The tick is
the model's choice (log entry 3). -/
def Obligations.EmptyQueueLetsOneTickPass : Prop :=
  ∀ s : State, s.pending = [] → ∃ t, step s = .next t ∧ t.now = s.now + 1 ∧
    (rawRuns s = true → t.raw = s.raw + 1) ∧ (rawRuns s = false → t.raw = s.raw) ∧ t.ticks = s.ticks ∧ Frame [.time] s t

/-- The state after reset: nothing waits, no supply, M0, every event register, pennant and counter 0, no lock held, and the
invariants of the block hold.
Values that the spec does not give at reset are the model's (log entry 1). -/
def Obligations.ResetStateIsSound : Prop :=
  State.reset.pending = [] ∧ State.reset.power.powered = false ∧ State.reset.md = 0 ∧
    (∀ r : EvReg, eventsOf r .reset = 0) ∧ State.reset.host.raised = 0 ∧ State.reset.host.counts = [] ∧
    (∀ n : Fin 64, (State.reset.mesh.lock[n]).holder = none) ∧ State.reset.claim.a.claim = 0 ∧
    State.reset.claim.b.claim = 0 ∧ State.reset.plk.locked = false ∧
    Memory.wf .reset = true ∧ Mode.sound .reset = true ∧ ∀ p, Port.bounded p .reset = true

/-- Every well-formed command has its effect: exec answers a next state; a command of master 14 or 15, which R18 never
issues, faults, and nothing else stops. -/
def Obligations.EveryWellFormedCommandCompletes : Prop :=
  (∀ (c : Instr) (s : State), c.wellFormed = true → ∃ t, exec c s = .next t) ∧
  (∀ (c : Instr) (s : State) (r : Refusal), exec c s ≠ .refused r) ∧
  (∀ (m : Master) (a v : Word) (n : Fin 64) (k : Half) (b : Bool) (s : State), 14 ≤ m.toNat →
    exec (.registerWrite m a v) s = .fault .neverIssued ∧ exec (.lockAcquire m n) s = .fault .neverIssued ∧
    exec (.lockRelease m n) s = .fault .neverIssued ∧ exec (.keyOpen m k b) s = .fault .neverIssued ∧
    exec (.meshSwap m 0) s = .fault .neverIssued ∧ exec (.clmCtlWrite m v) s = .fault .neverIssued)

/-- An event latches its bit and the pennant of number BASE + bit, counts it, and marks it for the ports that subscribe to it;
clearing the bit leaves the pennant (R355, R356, R361). -/
def Obligations.EventsLatchTheirPennant : Prop :=
  ∀ (r : EvReg) (k : Nat) (s : State), k < 32 → r.base + k < 256 →
    Latched r k (raise r k s) ∧ bit (raise r k s).host.raised (r.base + k) = true ∧
    (∀ j : Nat, j < 32 → j ≠ k → bit (eventsOf r (raise r k s)) j = bit (eventsOf r s) j) ∧
    (∀ q : EvReg, q ≠ r → eventsOf q (raise r k s) = eventsOf q s) ∧
    (∀ j : Nat, j < 256 → j ≠ r.base + k → bit (raise r k s).host.raised j = bit s.host.raised j) ∧
    sparseGet 0 (raise r k s).host.counts (r.base + k) = satInc (sparseGet 0 s.host.counts (r.base + k)) ∧
    (∀ p : HostPort, bit (hostPort p s).sub (r.base + k) = true →
      bit (hostPort p (raise r k s)).pend (r.base + k) = true ∧
      ((hostPort p s).pend = 0 → (hostPort p (raise r k s)).first = s.raw)) ∧
    (∀ p : HostPort, bit (hostPort p s).sub (r.base + k) = false → hostPort p (raise r k s) = hostPort p s) ∧
    Frame [.events, .board] s (raise r k s) ∧
    (∀ v : Word, bit v k = true → bit (eventsOf r (clearEvents r v s)) k = false ∧
      (clearEvents r v s).host = s.host ∧ Frame [.events] s (clearEvents r v s))

/-- Every step keeps the canonical form of every addressed memory. -/
def Obligations.EveryStepKeepsMemoryCanonical : Prop :=
  ∀ s t : State, Memory.wf s = true → step s = .next t → Memory.wf t = true

/-- Every step keeps the mode controller sound, and the mode changes only along a row of R70 or with the loss of VBUS. -/
def Obligations.ModesChangeOnlyAlongTheirRows : Prop :=
  ∀ s t : State, Mode.sound s = true → step s = .next t → Mode.sound t = true ∧
    (t.md = s.md ∨ (s.md, t.md) ∈ startRows ++ transitionRows ∨ t.power.powered = false)

/-- Every step keeps the limits of both host ports: at most 8 requests wait for a response, and each has its place among the
32 frames of the outbound queue (R353). -/
def Obligations.HostPortsStayWithinTheirQueues : Prop :=
  ∀ s t : State, (∀ p, Port.bounded p s = true) → step s = .next t → ∀ p, Port.bounded p t = true

/-- The thresholds of the aux supply (R29, R30, R32, R33): AUX_DROP and AUX_HIGH, each with its event and the live bits
AUX_OK and HUP_RDY, and nothing else: the module goes on at over-voltage. The hold-up estimate and HUP_LOW. -/
def Sys2Proof.Claim.SupplyThresholdsSetTheStatus : Prop :=
  ∀ (s : State), s.power.powered = true →
    (∀ (aux : Int) (vbus hold : Nat), s.power.auxDrop = false → 20000 ≤ hold → (aux < 27000 ∨ aux + 2000 ≤ (vbus : Int)) →
      ∃ t, exec (.auxDrop aux vbus hold) s = .next t ∧ Latched .pwr 1 t ∧
        (s.power.measured = true → (t.power.auxOk = true ↔ 28000 ≤ aux ∧ aux ≤ 90000)) ∧
        t = raise .pwr 1 { s with
          mode := { s.mode with brownAt := if inRun s then some s.now else none },
          power := { s.power with
            auxMv := aux, vbusMv := vbus, auxDrop := true, hupRdy := false, auxOk := t.power.auxOk } }) ∧
    (∀ (aux : Int) (vbus hold : Nat), s.power.auxDrop = true → 20000 ≤ hold → 28000 ≤ aux → (vbus : Int) ≤ aux + 1000 →
      ∃ t, exec (.auxDropClear aux vbus hold) s = .next t ∧ Latched .pwr 10 t ∧
        (s.power.measured = true → (t.power.auxOk = true ↔ aux ≤ 90000)) ∧
        (s.power.measured = true →
          (t.power.hupRdy = true ↔ aux - 1000 ≤ s.power.hupMv ∧ (s.power.hupMv : Int) ≤ aux + 1000)) ∧
        t = raise .pwr 10 { s with
          mode := { s.mode with brownAt := none },
          power := { s.power with
            auxMv := aux, vbusMv := vbus, auxDrop := false, hupRdy := t.power.hupRdy, auxOk := t.power.auxOk } }) ∧
    (∀ aux : Int, s.power.auxHigh = false → 90500 < aux →
      ∃ t, exec (.auxHigh aux) s = .next t ∧ Latched .pwr 2 t ∧ (s.power.measured = true → t.power.auxOk = false) ∧
        t = raise .pwr 2 { s with
          power := { s.power with auxMv := aux, auxHigh := true, hupRdy := t.power.hupRdy, auxOk := t.power.auxOk } }) ∧
    (∀ aux : Int, s.power.auxHigh = true → aux < 90000 →
      ∃ t, exec (.auxHigh aux) s = .next t ∧ t.power.auxHigh = false ∧
        (s.power.measured = true → (t.power.auxOk = true ↔ 28000 ≤ aux)) ∧
        t = { s with power := { s.power with
          auxMv := aux, auxHigh := false, hupRdy := t.power.hupRdy, auxOk := t.power.auxOk } }) ∧
    (∀ lo hi uc : Nat, lo + 10000 ≤ hi → uc * 100 / (hi - lo) < 65536 →
      ∃ t, exec (.hupCapEstimate lo hi uc) s = .next t ∧ t.power.hupC.toNat = uc * 100 / (hi - lo) ∧
        (t.power.hupLow = true ↔ 2 * (uc * 100 / (hi - lo)) < u16 (recD s 0x10 0) 178) ∧
        t = raiseIf (t.power.hupLow && !s.power.hupLow) .pwr 4
          { s with power := { s.power with hupC := t.power.hupC, hupLow := t.power.hupLow } })

/-- A fall of VBUS to 24 V stops every supply (R34); above it, it does nothing. -/
def Sys2Proof.Claim.VbusFallStopsEverySupply : Prop :=
  ∀ (s : State) (mv : Nat), s.power.powered = true →
    (24000 < mv → exec (.vbusFall mv) s = .next s) ∧
    (mv ≤ 24000 → ∃ t, exec (.vbusFall mv) s = .next t ∧ t.power = {} ∧ t.gate = {} ∧ t.laneA = {} ∧ t.laneB = {} ∧
      t.claim = {} ∧ t.md = 0 ∧ t.sram = [] ∧ t.key.flash = s.key.flash ∧ t.key.rollback = s.key.rollback ∧
      t.plk.log = s.plk.log ∧ t.wear.log = s.wear.log ∧ t.now = s.now ∧ t.pending = s.pending ∧ t.outbox = s.outbox)

/-- Supply thresholds set the status, and a fall of VBUS stops every supply. -/
def Obligations.SupplyThresholdsAct : Prop :=
  Claim.SupplyThresholdsSetTheStatus ∧
    Claim.VbusFallStopsEverySupply

/-- Every 100 µs the measurement registers and the live status of the power manager are written (R45, R47), for the first
time 1 ms after AON starts. -/
def Sys2Proof.Claim.PowerMeasurementsAreRead : Prop :=
  ∀ (s : State) (aux : Int) (vbus hup dw : Nat) (dc : Int) (la lb : Bool), s.power.powered = true →
    0 ≤ aux → aux < 120000 → vbus < 120000 → hup < 120000 → dw < 65536 →
    ∃ t, exec (.powerMeasure aux vbus hup dw dc la lb) s = .next t ∧
      t.power.auxV.toNat = aux.toNat / 10 ∧ t.power.vbus.toNat = vbus / 10 ∧ t.power.hupV.toNat = hup / 10 ∧
      t.power.pin.toNat = dw ∧ t.power.temp = BitVec.ofInt 16 dc ∧
      (t.power.auxOk = true ↔ 28000 ≤ aux ∧ aux ≤ 90000) ∧
      (t.power.hupRdy = true ↔ s.power.auxDrop = false ∧ aux - 1000 ≤ hup ∧ (hup : Int) ≤ aux + 1000) ∧
      t.power.laneAPwr = la ∧ t.power.laneBPwr = lb ∧ t.power.measured = true ∧
      (s.power.measured = false → t.now = max s.now (s.power.aonAt + 400000)) ∧
      t = { s with
        now := t.now, raw := t.raw, ticks := t.ticks,
        power := { t.power with gpEn := s.power.gpEn, convOk := s.power.convOk, pumpOk := s.power.pumpOk, isl := s.power.isl } }

/-- A converter that stops on a fault, the end of a soft start, and what a cleared fault starts (R37). -/
def Sys2Proof.Claim.GatePowerFaultsStopAndRestart : Prop :=
  ∀ (s : State) (hb : Fin 16),
    (bit s.power.convOk hb.val = true →
      exec (.gpFault false hb) s = .next (raisePennant 250 { s with power := { s.power with
        convOk := putBit s.power.convOk hb.val false, convSoft := putBit s.power.convSoft hb.val false,
        convFlt := putBit s.power.convFlt hb.val true } })) ∧
    (bit s.power.pumpOk hb.val = true →
      exec (.gpFault true hb) s = .next (raisePennant 250 { s with power := { s.power with
        pumpOk := putBit s.power.pumpOk hb.val false, pumpSoft := putBit s.power.pumpSoft hb.val false,
        pumpFlt := putBit s.power.pumpFlt hb.val true } })) ∧
    (bit s.power.convSoft hb.val = true →
      ∃ t, exec (.gpSoftstartDone false hb) s = .next t ∧ bit t.power.convOk hb.val = true ∧
        bit t.power.convSoft hb.val = false ∧ t.now = max s.now (s.power.convSoftAt[hb] + 20000000) ∧
        t.power = { s.power with convOk := t.power.convOk, convSoft := t.power.convSoft }) ∧
    (∀ v : Word, s.power.gpCut = true →
      exec (.gpFaultClear v) s = .next { s with power := { s.power with
        convFlt := s.power.convFlt &&& ~~~(v.setWidth 16), pumpFlt := s.power.pumpFlt &&& ~~~((v >>> 16).setWidth 16) } }) ∧
    (s.power.gpCut = false → bit s.power.gpEn hb.val = true → bit s.power.convFlt hb.val = true →
      bit s.power.convOk hb.val = false →
      ∃ t, exec (.gpFaultClear (BitVec.ofNat 32 (2 ^ hb.val))) s = .next t ∧ bit t.power.convFlt hb.val = false ∧
        bit t.power.convSoft hb.val = true)

/-- Temperature thresholds, the cut of gate power at 140 °C and its re-arming (R38). -/
def Sys2Proof.Claim.TemperatureThresholdsAndCut : Prop :=
  ∀ (s : State) (dc : Int),
    (s.power.tempWarn = false → 1200 ≤ dc → exec (.tempWarn dc) s =
      .next (raise .pwr 5 { s with power := { s.power with tempDc := dc, tempWarn := true } })) ∧
    (s.power.tempWarn = true → dc ≤ 1150 → exec (.tempWarn dc) s =
      .next { s with power := { s.power with tempDc := dc, tempWarn := false } }) ∧
    (s.power.tempHigh = false → 1280 ≤ dc → exec (.tempHigh dc) s =
      .next (raise .pwr 6 { s with power := { s.power with tempDc := dc, tempHigh := true } })) ∧
    (s.power.tempHigh = true → dc ≤ 1200 → exec (.tempHigh dc) s =
      .next { s with power := { s.power with tempDc := dc, tempHigh := false } }) ∧
    (s.power.gpCut = false → 1400 ≤ dc → exec (.gpCut dc) s =
      .next (raise .pwr 7 { s with power := { s.power with
        tempDc := dc, gpCut := true, convOk := 0, pumpOk := 0, convSoft := 0, pumpSoft := 0 } })) ∧
    (s.power.gpCut = true → (1200 ≤ s.power.tempDc ∨ s.power.auxMv < 28000) → exec .gpCutRearm s = .next s) ∧
    (s.power.gpCut = true → s.power.tempDc < 1200 → 28000 ≤ s.power.auxMv →
      ∃ t, exec .gpCutRearm s = .next t ∧ t.power.gpCut = false ∧ bit (eventsOf .pwr t) 7 = false ∧
        ∀ hb : Fin 16, bit s.power.gpEn hb.val = true → bit s.power.convFlt hb.val = false →
          bit s.power.convOk hb.val = false → bit t.power.convSoft hb.val = true)

/-- Power measurements, temperature thresholds and the gate-power cut. -/
def Obligations.PowerAndTemperatureAreWatched : Prop :=
  Claim.PowerMeasurementsAreRead ∧
    Claim.TemperatureThresholdsAndCut

/-- R39: PWR_GPCTL takes effect in M3 and M11 only; elsewhere the write is discarded and GP_REFUSED raised. -/
def Obligations.GatePowerControlOnlyInStop : Prop :=
  ∀ (s : State) (v : Word),
    ((s.md = 3 ∨ s.md = 11) → ∃ t, exec (.gpCtlWrite v) s = .next t ∧ t.power.gpEn = v.setWidth 16 ∧
      t.power.convOk = s.power.convOk &&& v.setWidth 16 ∧ t.power.pumpOk = s.power.pumpOk &&& v.setWidth 16) ∧
    (¬(s.md = 3 ∨ s.md = 11) → exec (.gpCtlWrite v) s = .next (raisePennant 251 s))

/-- Islands step down after the idle delay of their policy, wake and become Active (R40 to R42, R86). -/
def Sys2Proof.Claim.IslandPowerSteps : Prop :=
  ∀ (s : State) (i : Fin 22),
    (s.power.isl[i].state.val < (lowestState s i.val).val → s.power.isl[i].waking = false →
      ∃ t, exec (.islandIdleStepDown i) s = .next t ∧
        t.now = max s.now (s.power.isl[i].idleFrom + idleDelay s i.val s.power.isl[i].state) ∧
        t.power = { s.power with
          isl := s.power.isl.set i.val { s.power.isl[i] with state := s.power.isl[i].state + 1, idleFrom := t.now } } ∧
        Frame [.time, .power] s t) ∧
    ((lowestState s i.val).val ≤ s.power.isl[i].state.val → exec (.islandIdleStepDown i) s = .next s) ∧
    (s.power.isl[i].state ≠ 0 → s.power.isl[i].waking = false →
      exec (.islandWake i) s = .next { s with power := { s.power with
        isl := s.power.isl.set i.val { s.power.isl[i] with waking := true, wakes := satInc s.power.isl[i].wakes } } }) ∧
    (s.power.isl[i].waking = true → s.power.isl[i].state = 2 →
      ∃ t, exec (.islandWakeDone i) s = .next t ∧ t.now = s.now + 400 ∧
        t.power = { s.power with
          isl := s.power.isl.set i.val { s.power.isl[i] with waking := false, state := 0, idleFrom := t.now } } ∧
        Frame [.time, .power] s t) ∧
    (4 ≤ s.md → s.md ≤ 11 → [2, 4, 5, 8, 10, 11, 13, 20].contains i.val = true → (lowestState s i.val).val ≤ 1)

/-- Gate-power converters stop and restart; islands step down and wake. -/
def Obligations.GatePowerAndIslandPower : Prop :=
  Claim.GatePowerFaultsStopAndRestart ∧
    Claim.IslandPowerSteps

/-- A TCXO that fails, one that returns no earlier than 1 s after it failed, and the drift report (R51, R57, R395): AON, SAFE
and FIO change their source at their next handshake boundary, the PLLs at once. While REF10 is not qualified DRIFT_SEL keeps
its value, the model's choice (log entry 61). -/
def Sys2Proof.Claim.TcxoFailsAndReturns : Prop :=
  ∀ (s : State),
    (s.clock.tcxoP = true → s.clock.tcxoS = true → ∃ t, exec (.tcxoFail .primary) s = .next t ∧
      t.clock.tcxoP = false ∧ t.clock.tcxoPAt = s.now ∧ Latched .clk 0 t ∧
      (∀ i : Fin 22, i = 0 ∨ i = 19 → tcxoSrc s.clock i ≠ 1 → t.clock.isl[i].next = some 1) ∧
      (∀ p, (pllOf s p).imageRef = .primary → (pllOf t p).ref = .spare ∧ (pllOf t p).holdover = false) ∧
      Frame [.clock, .events, .board, .wear] s t) ∧
    (s.clock.tcxoP = false → s.clock.tcxoS = true → ∃ t, exec (.tcxoFail .spare) s = .next t ∧
      t.clock.tcxoS = false ∧ t.clock.tcxoSAt = s.now ∧ Latched .clk 0 t ∧ Latched .clk 11 t ∧
      (∀ i : Fin 22, i = 0 ∨ i = 18 ∨ i = 19 → tcxoSrc s.clock i ≠ 2 → t.clock.isl[i].next = some 2) ∧
      (∀ p, refFor t.clock (pllOf s p).imageRef = none → (pllOf t p).holdover = true ∧
        ((pllOf s p).holdover = false → (pllOf t p).holdAt = s.now))) ∧
    (s.clock.tcxoP = false → s.power.powered = true → ∃ t, exec (.tcxoReturn .primary) s = .next t ∧
      t.clock.tcxoP = true ∧ t.now = max s.now (s.clock.tcxoPAt + 400000000) ∧
      (∀ i : Fin 22, i = 0 ∨ i = 19 → tcxoSrc s.clock i ≠ 0 → t.clock.isl[i].next = some 0) ∧
      (∀ p, (pllOf s p).imageRef = .primary → (pllOf t p).ref = .primary ∧ (pllOf t p).holdover = false) ∧
      Frame [.time, .clock, .wear] s t) ∧
    (s.clock.tcxoS = false → s.clock.tcxoP = true → s.power.powered = true → ∃ t, exec (.tcxoReturn .spare) s = .next t ∧
      t.clock.tcxoS = true ∧ t.now = max s.now (s.clock.tcxoSAt + 400000000) ∧
      (tcxoSrc s.clock 18 ≠ 1 → t.clock.isl[(18 : Fin 22)].next = some 1) ∧ Frame [.time, .clock] s t) ∧
    (∀ (ppb : Nat) (b : Bool), s.clock.tcxoP = true → s.clock.tcxoS = true → 5000 < ppb →
      exec (.tcxoDrift ppb b) s = .next (raise .clk 1
        { s with clock := { s.clock with driftSel := if s.clock.ref10 then b else s.clock.driftSel } })) ∧
    (∀ (ppb : Nat) (b : Bool), ppb ≤ 5000 → exec (.tcxoDrift ppb b) s = .next s)

/-- REF10 and PPS_IN: lost, and qualified no earlier than 1 s after the loss (R51, R279).
The time up to a due event passes as the model counts it (log entry 3). -/
def Sys2Proof.Claim.ExternalReferencesComeAndGo : Prop :=
  ∀ (s : State),
    (s.clock.ref10 = true → ∃ t, exec .refLoss s = .next t ∧ t.clock.ref10 = false ∧ t.clock.ref10From = s.now ∧
      Latched .clk 2 t ∧
      (∀ p, (pllOf s p).imageRef = .ref10 → s.clock.tcxoP = true → (pllOf t p).ref = .primary ∧ (pllOf t p).holdover = false) ∧
      Frame [.clock, .events, .board] s t) ∧
    (s.clock.ref10 = false → s.power.powered = true → ∃ t, exec .ref10Qualified s = .next t ∧ t.clock.ref10 = true ∧
      t.now = max s.now (s.clock.ref10From + 400000000) ∧
      (∀ p, (pllOf s p).imageRef = .ref10 → (pllOf t p).ref = .ref10 ∧ (pllOf t p).holdover = false) ∧
      Frame [.time, .clock] s t) ∧
    (s.clock.pps = true → ∃ t, exec .ppsLoss s = .next t ∧ t.clock.pps = false ∧ Latched .clk 3 t ∧
      t.now = max s.now (s.time.ppsAt + 440000000)) ∧
    (s.clock.pps = false → exec .ppsLoss s = .next s)

/-- TCXOs and external references fail and return. -/
def Obligations.ReferencesComeAndGo : Prop :=
  Claim.TcxoFailsAndReturns ∧
    Claim.ExternalReferencesComeAndGo

/-- A PLL output that is declared lost, the loss after 10 ms of holdover, and the lock, which never comes while there is no
reference nor before the output can have settled (R52, R55, R62, R65). -/
def Sys2Proof.Claim.PllLossAndLock : Prop :=
  ∀ (s : State) (p : Pll),
    ((pllOf s p).lost = false → ∃ t, exec (.pllLoss p) s = .next t ∧ (pllOf t p).lost = true ∧
      (pllOf t p).locked = false ∧ s.now + 4000 ≤ (pllOf t p).lockFrom ∧ Latched .clk (3 + pllCode p) t ∧
      Frame [.clock, .events, .board, .wear, .claim] s t) ∧
    ((pllOf s p).lost = true → exec (.pllLoss p) s = .next s) ∧
    ((pllOf s p).lost = false → (pllOf s p).holdover = true → ∃ t, exec (.pllHoldoverEnd p) s = .next t ∧
      t.now = max s.now ((pllOf s p).holdAt + 4000000) ∧ (pllOf t p).lost = true ∧ (pllOf t p).locked = false ∧
      Latched .clk (3 + pllCode p) t ∧ Frame [.time, .clock, .events, .board, .wear, .claim] s t) ∧
    ((pllOf s p).holdover = false → exec (.pllHoldoverEnd p) s = .next s) ∧
    ((pllOf s p).locked = false → (pllOf s p).holdover = false → ∃ t, exec (.pllLock p) s = .next t ∧
      (pllOf t p).lost = false ∧ t.now = max s.now (pllOf s p).lockFrom ∧
      (p ≠ .spare ∨ (pllOf s p).lost = false → (pllOf t p).locked = true) ∧
      (p ≠ .spare → ∀ i : Fin 22, i ∈ pllIslands → s.clock.isl[i].own = p → s.clock.isl[i].src = 2 →
        s.clock.spareUse = 0 → t.clock.isl[i].next = some 0) ∧ Frame [.time, .free, .clock, .wear] s t) ∧
    ((pllOf s p).holdover = true → exec (.pllLock p) s = .next s)

/-- An island starts the source that waits for it (R57, R58): a PLL that is locked, the ring oscillator in place of one that
is not, with the fallback counted; and the ring oscillators are calibrated every second within their limits (R56). That those of
AON, SAFE and FIO are calibrated while a TCXO runs is the model's choice (log entry 62). -/
def Sys2Proof.Claim.IslandSourcesChange : Prop :=
  ∀ (s : State) (i : Fin 22),
    (s.clock.isl[i].next = none → exec (.islandSourceChange i) s = .next s) ∧
    (i ∈ pllIslands → i.val ≠ 13 → i.val ≠ 15 → i.val ≠ 16 → s.clock.isl[i].next = some 0 →
      (pllOf s s.clock.isl[i].own).locked = true →
      ∃ t, exec (.islandSourceChange i) s = .next t ∧ t.clock.isl[i].src = 0 ∧ t.clock.isl[i].next = none ∧
        t.clock.isl[i].fallbacks = s.clock.isl[i].fallbacks ∧ Frame [.clock] s t) ∧
    (i ∈ pllIslands → i.val ≠ 13 → i.val ≠ 15 → i.val ≠ 16 → s.clock.isl[i].src ≠ 2 →
      (s.clock.isl[i].next = some 2 ∨ s.clock.isl[i].next = some 0 ∧ (pllOf s s.clock.isl[i].own).locked = false) →
      ∃ t, exec (.islandSourceChange i) s = .next t ∧ t.clock.isl[i].src = 2 ∧
        t.clock.isl[i].fallbacks = satInc s.clock.isl[i].fallbacks ∧ Frame [.clock] s t) ∧
    (i ∈ tcxoIslands → s.clock.isl[i].next ≠ none → ∃ t, exec (.islandSourceChange i) s = .next t ∧
      tcxoSrc t.clock i = tcxoWant s.clock i ∧ t.clock.isl[i].next = none ∧ Frame [.clock] s t) ∧
    (∀ pm : List Nat, pm.length = 22 → 686 ≤ pm.getD i.val 0 → pm.getD i.val 0 ≤ 714 →
      ∃ t, exec (.ringCalibrate pm) s = .next t ∧
        (i ∈ pllIslands → (pllOf s s.clock.isl[i].own).locked = true → t.clock.isl[i].ringPm.toNat = pm.getD i.val 0) ∧
        (i ∈ pllIslands → (pllOf s s.clock.isl[i].own).locked = false → t.clock.isl[i] = s.clock.isl[i]) ∧
        (i ∈ tcxoIslands → s.clock.tcxoP = true → t.clock.isl[i].ringPm.toNat = pm.getD i.val 0) ∧
        Frame [.clock, .time] s t)

/-- CLK_SPARECTL: the idle target and the release of SPARE (R62, R63, R65). A release while SPARE is idle is refused, the
model's choice (log entry 63), and a walk settles within 20 µs of its end (log entry 60). -/
def Sys2Proof.Claim.SpareControl : Prop :=
  ∀ (s : State),
    (∀ tgt : Bool, s.clock.spareUse ≠ 0 →
      exec (.spareIdleTgtWrite tgt) s = .next { s with clock := { s.clock with idleTgt := tgt } }) ∧
    (∀ tgt : Bool, s.clock.spareUse = 0 → s.clock.spareTgt ≠ tgt →
      exec (.spareIdleTgtWrite tgt) s = .next { s with clock := { s.clock with
        idleTgt := tgt, spareTgt := tgt, walkAt := s.now, walkFrom := spareUnits s,
        spare := { s.clock.spare with
          locked := false, lockFrom := s.now + walkTicks (spareUnits s) tgt + 8000 } } }) ∧
    (s.clock.spareUse = 0 → exec .spareRelease s = .next (raise .clk 12 s)) ∧
    (s.clock.spareUse = 3 → s.clock.net.locked = true → ∃ t, exec .spareRelease s = .next t ∧ t.clock.spareUse = 0 ∧
      t.clock.spareTgt = s.clock.idleTgt ∧ t.clock.spare.spread = {} ∧
      (∀ i : Fin 22, i ∈ pllIslands → s.clock.isl[i].own = .net → s.clock.isl[i].src = 1 →
        t.clock.isl[i].next = some 0) ∧ Frame [.clock, .wear] s t) ∧
    (s.clock.spareUse = 3 → s.clock.net.locked = false → exec .spareRelease s = .next (raise .clk 12 s))

/-- The clock outputs (R65, R66): a disabled one delivers nothing, the timebase of a lane follows SPARE with the lane's
islands, and is held low on fallback; no output delivers more than its source gives. -/
def Sys2Proof.Claim.ClockOutputsFollowTheirSource : Prop :=
  ∀ (s : State) (n : Fin 4),
    (s.clock.cko[n].en = false → ckoFeed n s = none) ∧
    (∀ (f : CkoFeed) (d : Nat), ckoFeed n s = some (f, d) → s.clock.cko[n].en = true ∧ d = s.clock.cko[n].div.toNat + 1 ∧
      (f = .net125 ∨ f = .net156 → s.clock.net.locked = true) ∧ (f = .ref10 → s.clock.ref10 = true) ∧
      (f = .pps → s.clock.pps = true) ∧ (f = .tcxo → s.clock.tcxoP = true) ∧
      (∀ l sp, f = .timebase l sp → laneRunsOn s l 2 = false ∧ laneLocked s l = true ∧ laneRunsOn s l 1 = sp)) ∧
    (s.clock.cko[n].en = true → s.clock.cko[n].src = 2 → laneRunsOn s .a 2 = false → laneLocked s .a = true →
      ckoFeed n s = some (.timebase .a (laneRunsOn s .a 1), s.clock.cko[n].div.toNat + 1)) ∧
    (s.clock.cko[n].src = 2 → laneRunsOn s .a 2 = true → ckoFeed n s = none)

/-- PLL loss and lock, island sources, the spare PLL and the clock outputs. -/
def Obligations.PllsLockAndIslandsMove : Prop :=
  Claim.PllLossAndLock ∧
    Claim.IslandSourcesChange ∧
    Claim.SpareControl ∧
    Claim.ClockOutputsFollowTheirSource

/-- MODE_REQ: a wrong KEY, a target that is never accepted, a request made while a transition runs,
and refusals: from M11 (R73), targets 4 to 6 without a grid-forming record (R396), M3 without a TCXO (R72, R73, R75, R80). -/
def Sys2Proof.Claim.ModeRequestsAreJudged : Prop :=
  ∀ (s : State) (key : Half) (target : BitVec 4), s.md ≠ 0 →
    (key ≠ 0x4D4F → ∀ c : Instr, c ∈ [Instr.modeReqDormant key, .modeReqRestart key, .modeReqBlocked key, .modeReqPrecharge key,
        .modeReqBlackStart key, .modeReqSynchronise key, .modeReqUnaccepted key target] →
      exec c s = .next (raise .mode 2 { s with mode := { s.mode with refuse := 2 } })) ∧
    (key = 0x4D4F → [0, 1, 3, 4, 5, 6].contains target.toNat = false →
      exec (.modeReqUnaccepted key target) s = .next (raise .mode 2 { s with mode := { s.mode with refuse := 1 } })) ∧
    (key = 0x4D4F → s.mode.busy = true → ∀ (c : Instr) (n : BitVec 4), (c, n) ∈ [(Instr.modeReqDormant key, 0#4), (.modeReqRestart key, 1#4),
        (.modeReqBlocked key, 3#4), (.modeReqPrecharge key, 4#4), (.modeReqBlackStart key, 5#4),
        (.modeReqSynchronise key, 6#4)] →
      exec c s = .next { s with mode := { s.mode with held := s.mode.held ++ [.host n] } }) ∧
    (key = 0x4D4F → s.mode.busy = false → s.md = 3 → s.plk.testDue = true → hasRec s 0x60 0 = true →
      exec (.modeReqPrecharge key) s = .next (raise .mode 2 { s with mode := { s.mode with refuse := 3 } })) ∧
    (key = 0x4D4F → s.mode.busy = false → s.md = 11 → ∀ c : Instr, c ∈ [Instr.modeReqDormant key, .modeReqBlocked key] →
      exec c s = .next (raise .mode 2 { s with mode := { s.mode with refuse := 1 } })) ∧
    (key = 0x4D4F → s.mode.busy = false → s.md = 11 → ∀ c : Instr, c ∈ [Instr.modeReqPrecharge key,
        .modeReqBlackStart key, .modeReqSynchronise key] →
      exec c s = .next (raise .mode 2 { s with
        mode := { s.mode with refuse := if hasRec s 0x60 0 then 1 else 3 } })) ∧
    (key = 0x4D4F → s.mode.busy = false → s.md = 3 → s.clock.tcxoP = false → s.clock.tcxoS = false →
      ∀ c : Instr, c ∈ [Instr.modeReqDormant key, .modeReqRestart key] →
      exec c s = .next (raise .mode 2 { s with mode := { s.mode with refuse := 3 } }))

/-- The rows of R70 that MODE_REQ takes: each request starts its transition, from M3 only with a TCXO running (R75). -/
def Sys2Proof.Claim.ModeRequestsStartTransitions : Prop :=
  ∀ (s : State) (m : ModeState), s.mode.busy = false →
    m = { s.mode with busy := true, nextCause := 1, nextEvt := 0 } →
    (s.md = 3 → refLeft s = true → exec (.modeReqDormant 0x4D4F) s = .next (applyBlocks { s with mode := { m with target := 0 } })) ∧
    ((s.md = 3 ∧ refLeft s = true ∨ s.md = 11) → exec (.modeReqRestart 0x4D4F) s = .next (applyBlocks { s with
      mode := { m with target := 1, startAt := s.now, cold := false, fullStart := false } })) ∧
    (4 ≤ s.md → s.md ≤ 10 → exec (.modeReqBlocked 0x4D4F) s = .next (applyBlocks { s with mode := { m with target := 3 } })) ∧
    (s.md = 3 → hasRec s 0x60 0 = true → demandActive s = false → s.plk.locked = false → s.plk.testDue = false →
      refLeft s = true → exec (.modeReqPrecharge 0x4D4F) s = .next { s with mode := { m with target := 4 } }) ∧
    (s.md = 4 → hasRec s 0x60 0 = true → (seniorGf s).dcReady = true → (seniorGf s).absent = true →
      exec (.modeReqBlackStart 0x4D4F) s = .next { s with mode := { m with target := 5 } }) ∧
    ((s.md = 4 ∨ s.md = 8) → hasRec s 0x60 0 = true → (seniorGf s).dcReady = true → (seniorGf s).present = true →
      exec (.modeReqSynchronise 0x4D4F) s = .next { s with mode := { m with target := 6 } })

/-- The end of a transition: the new mode, PREV, CAUSE and MODE_CHANGE; without held triggers and demands nothing new
starts (R70, R72, R80). A transition that a demand has cut off in its own mode leaves the mode as it is. -/
def Sys2Proof.Claim.ModeTransitionEnds : Prop :=
  ∀ (s : State),
    (s.mode.busy = false → exec .modeTransitionDone s = .next s) ∧
    (s.mode.busy = true → s.mode.target ≠ s.mode.mode → ∃ t, exec .modeTransitionDone s = .next t ∧ t.mode.mode = s.mode.target ∧
      t.mode.prev = s.mode.mode ∧ t.mode.cause = s.mode.nextCause ∧ Latched .mode 1 t ∧ t.pending = s.pending ∧
      (∀ k : Nat, k < 9 → bit s.mode.nextEvt k = true → Latched .mode k t)) ∧
    (s.mode.busy = true → 2 ≤ s.mode.target.toNat → s.mode.held = [] → s.plk.locked = false → s.plk.reduced = false →
      ∃ t, exec .modeTransitionDone s = .next t ∧ t.mode.busy = false) ∧
    (s.mode.busy = true → s.mode.target = s.mode.mode → s.mode.held = [] → s.plk.locked = false → s.plk.reduced = false →
      exec .modeTransitionDone s = .next { s with mode := { s.mode with busy := false, nextEvt := 0, held := [] } }) ∧
    (s.mode.busy = true → s.mode.target = 0 → s.md ≠ 0 → s.mode.held = [] → ∃ t, exec .modeTransitionDone s = .next t ∧
      t.power.gpEn = 0 ∧ t.power.convOk = 0 ∧ (∀ i : Fin 22, i.val ≠ 0 → t.power.isl[i].state = 3) ∧
      t.raw = s.raw ∧ t.key.flash = s.key.flash ∧ t.key.session = false)

/-- Mode requests are judged, start transitions, and transitions end. -/
def Obligations.ModeRequestsAndTransitions : Prop :=
  Claim.ModeRequestsAreJudged ∧
    Claim.ModeRequestsStartTransitions ∧
    Claim.ModeTransitionEnds

/-- The stops of R70 and R74, and the wake of M0: what starts which transition.
The time up to a due event passes as the model counts it (log entry 3). -/
def Sys2Proof.Claim.StopsAndWakes : Prop :=
  ∀ (s : State),
    (∀ ns : Nat, s.power.powered = true → s.md = 0 → s.mode.busy = false → 10000 ≤ ns →
      exec (.hspWake ns) s = .next { s with mode := { s.mode with
        startAt := s.now, cold := true, fullStart := false, busy := true, target := 1, nextCause := 1, nextEvt := 0 } }) ∧
    (∀ ns : Nat, ns < 10000 → exec (.hspWake ns) s = .next s) ∧
    (s.md = 4 → (seniorGf s).dcReady = false → s.mode.busy = false → ∃ t, exec .prechargeTo s = .next t ∧
      t.mode.busy = true ∧ t.mode.target = 3 ∧ t.mode.nextEvt = 0x100 ∧
      t.now = max s.now (s.mode.prechargeAt + 400000000 * u16 (recD s 0x60 0) 26) ∧ Frame [.mode, .time] s t) ∧
    (s.md = 4 → (seniorGf s).dcReady = true → exec .prechargeTo s = .next s) ∧
    (∀ t0 : Nat, s.mode.brownAt = some t0 → inRun s = true → s.mode.busy = false → 28000 ≤ s.power.vbusMv →
      u16 (recD s 0x10 0) 180 = 0xFFFF → ∃ t, exec .brownStop s = .next t ∧ t.mode.busy = true ∧ t.mode.target = 3 ∧
      t.mode.nextCause = 6 ∧ t.mode.nextEvt = 8 ∧ t.now = max s.now (t0 + 3200000)) ∧
    (s.mode.brownAt = none → exec .brownStop s = .next s)

/-- Plant stops and wakes move the mode. -/
def Obligations.StopsAndWakesMoveTheMode : Prop :=
  Claim.StopsAndWakes

/-- A cold start from VBUS rising through 26 V: M0, then M1 with PREV 0 and CAUSE 2 (R29, R70, R397). -/
def Sys2Proof.Claim.ColdStartEntersKeycheck : Prop :=
  ∀ (s : State) (mv : Nat) (aux : Int), s.power.powered = false →
    (mv < 26000 → exec (.vbusRise mv aux) s = .next s) ∧
    (26000 ≤ mv → ∃ t, exec (.vbusRise mv aux) s = .next t ∧ t.power.powered = true ∧ t.md = 1 ∧ t.mode.prev = 0 ∧
      t.mode.cause = 2 ∧ t.mode.startAt = s.now ∧ t.clock.tcxoP = true ∧ t.clock.tcxoS = true ∧ Latched .mode 1 t ∧
      t.key.flash = s.key.flash ∧ t.key.slotState = s.key.slotState ∧ t.wear.log = s.wear.log ∧ t.plk.log = s.plk.log ∧
      t.raw = 0 ∧ t.sram = [] ∧ t.laneA.sram = [] ∧ t.laneB.sram = [] ∧ t.pending = s.pending)

/-- Keycheck: no verified page holds the module in M1, a verified one leads to M2 with its records (R70, R94, R95, R397). -/
def Sys2Proof.Claim.KeycheckSelectsTheImage : Prop :=
  ∀ (s : State) (fw0 fw1 : Bool), s.md = 1 → s.key.heldM1 = false → s.mode.busy = false →
    (tryPages s.key true (fun n => if n = 0 then fw0 else fw1) = none → ∃ t, exec (.keycheckDone fw0 fw1) s = .next t ∧
      t.md = 1 ∧ t.key.heldM1 = true ∧ Latched .key 0 t ∧ Frame [.key, .events, .board] s t) ∧
    (∀ (f : Fin 2) (b : Bool), tryPages s.key true (fun n => if n = 0 then fw0 else fw1) = some (f, b) →
      ∃ t, exec (.keycheckDone fw0 fw1) s = .next t ∧ t.key.runFw = some f ∧ Frame [.key, .mode, .fio, .events, .board] s t ∧
        match (tryPages s.key false (fun n => (goodImage s.key n).isSome)).bind
            (fun x => (goodImage s.key x.1).map fun g => (x.1, g)) with
        | some (n, g) => t.md = 2 ∧ t.mode.prev = 1 ∧ t.mode.cause = 2 ∧ t.key.runKey = some n ∧ t.key.records = g.records ∧
          t.key.serial = g.serial ∧ t.key.imgRollback = g.rollback ∧ Latched .mode 1 t
        | none => t.md = 1 ∧ t.key.heldM1 = true ∧ Latched .key 0 t ∧ Frame [.key, .events, .board] s t) ∧
    exec (.keycheckDone fw0 fw1) { s with key := { s.key with heldM1 := true } } =
      .next { s with key := { s.key with heldM1 := true } }

/-- The last step of a start leads to M3 with START_DONE, or to M11 where a safety-relevant unit failed (R70, R77, R397). -/
def Sys2Proof.Claim.StartEndsBlockedOrLocked : Prop :=
  ∀ (s : State), s.md = 2 → s.mode.busy = false →
    (∃ t, exec (.startDone []) s = .next t ∧ t.md = 3 ∧ t.mode.prev = 2 ∧ t.mode.cause = 0 ∧ Latched .mode 0 t ∧
      Latched .mode 1 t ∧ t.mesh.accOn = true ∧ t.pending = s.pending ∧ t.sram = s.sram) ∧
    (hasRec s 0x80 0 = true → ∃ t, exec (.startDone [.fieldIo]) s = .next t ∧ t.md = 11 ∧ t.mode.prev = 2 ∧
      t.mode.cause = 4 ∧ Latched .mode 0 t ∧ t.plk.locked = true)

/-- A start runs through Keycheck into M3 or M11. -/
def Obligations.StartsRunToBlockedOrLocked : Prop :=
  Claim.ColdStartEntersKeycheck ∧
    Claim.KeycheckSelectsTheImage ∧
    Claim.StartEndsBlockedOrLocked

/-- The key commands of the table with their OP. -/
def Sys2Proof.Claim.keyCommands (m : Master) (key : Half) (fw : Bool) : List (Instr × Byte) :=
  [(.keyOpen m key fw, 1), (.keyClose m key fw, 2), (.keyErase m key fw, 3), (.keyProgram m key fw, 4),
    (.keyVerify m key fw, 5), (.keyCommit m key fw, 6), (.keySafeauth m key fw, 7), (.keyAdvance m key fw, 8),
    (.keyProgslot m key fw, 9), (.keyRevoke m key fw, 10)]

/-- A refused KEY_CMD posts its result and changes nothing else; the owner's write restarts the idle count (R97, R398). -/
def Sys2Proof.Claim.refusedKey (m : Master) (op code : Byte) (s : State) : State :=
  { s with key := { s.key with
    seq := s.key.seq + 1, resSeq := s.key.seq + 1, resOp := op, resCode := code,
    idleLeft := if owns s m then 60 * 400000000 else s.key.idleLeft,
    idleFrom := if owns s m then s.now else s.key.idleFrom } }

/-- Every KEY_CMD write takes the next SEQ; the refusals that every command meets post their code at once (R69, R96, R99, R398);
an OPEN that the mode refuses raises MODE_REFUSED as well.
The order of the refusals is the model's (log entry 33). -/
def Sys2Proof.Claim.KeyCommandsAreCountedAndRefused : Prop :=
  ∀ (s : State) (m : Master) (key : Half) (fw : Bool), m.toNat < 14 →
    ∀ (c : Instr) (op : Byte), (c, op) ∈ Claim.keyCommands m key fw →
      (∃ t, exec c s = .next t ∧ t.key.seq = s.key.seq + 1) ∧
      (key ≠ 0x4B59 → exec c s = .next (Claim.refusedKey m op 4 s)) ∧
      (key = 0x4B59 → s.key.running.isSome = true → exec c s = .next (Claim.refusedKey m op 1 s)) ∧
      (key = 0x4B59 → s.key.running = none → op ≠ 1 → s.key.session = false →
        exec c s = .next (Claim.refusedKey m op 2 s)) ∧
      (key = 0x4B59 → s.key.running = none → op ≠ 1 → s.key.session = true → s.key.owner ≠ m →
        exec c s = .next (Claim.refusedKey m op 3 s)) ∧
      (key = 0x4B59 → s.key.running = none → op = 1 → m ≠ 6 → m ≠ 7 →
        exec c s = .next (Claim.refusedKey m op 3 s)) ∧
      (key = 0x4B59 → s.key.running = none → op = 1 → (m = 6 ∨ m = 7) → s.md ≠ 3 → (s.md ≠ 1 ∨ s.key.heldM1 = false) →
        exec c s = .next (raise .mode 2 (Claim.refusedKey m op 5 s))) ∧
      (key = 0x4B59 → s.key.running = none → op = 1 → (m = 6 ∨ m = 7) → s.md = 3 → s.key.session = true →
        s.key.owner ≠ m → exec c s = .next (Claim.refusedKey m op 3 s)) ∧
      (key = 0x4B59 → s.key.running = none → s.md = 3 → s.key.session = true → s.key.owner = m → (m = 6 ∨ m = 7) →
        exec (.keyOpen m key fw) s = .next (Claim.refusedKey m 1 0 s))

/-- An OP that the table does not list: the write is counted and refused with code 20 (R99, R398). -/
def Sys2Proof.Claim.UnlistedKeyCommandsAreRefused : Prop :=
  ∀ (s : State) (m : Master) (fw : Bool) (op : Byte), m.toNat < 14 → op = 0 ∨ 11 ≤ op.toNat →
    s.key.running = none → s.key.session = true → s.key.owner = m →
      exec (.keyCmdUnlisted m 0x4B59 fw op) s = .next (Claim.refusedKey m op 20 s)

/-- Keyring commands are counted and refused in order. -/
def Obligations.KeyCommandsAreJudged : Prop :=
  Claim.KeyCommandsAreCountedAndRefused ∧
    Claim.UnlistedKeyCommandsAreRefused

/-- An accepted key command of the owner runs: BUSY with its OP, SEQ and argument (R96, R97, R99, R100, R398). -/
def Sys2Proof.Claim.KeyCommandsRun : Prop :=
  ∀ (s : State) (m : Master) (fw : Bool) (k : KeyState), s.key.running = none → m.toNat < 14 →
    k = { s.key with seq := s.key.seq + 1, idleLeft := 60 * 400000000, idleFrom := s.now } →
    ((m = 6 ∨ m = 7) → s.md = 3 → s.key.session = false → exec (.keyOpen m 0x4B59 fw) s = .next { s with
      mesh := { s.mesh with shadow := s.mesh.active },
      key := { k with session := true, owner := m, safeAuth := false, running := some ⟨1, k.seq, fw, s.key.arg, m, standby fw s, s.key.buf⟩ } }) ∧
    (s.key.session = true → s.key.owner = m →
      (exec (.keyClose m 0x4B59 fw) s = .next { s with key := { k with
        session := false, owner := 0, safeAuth := false, idleLeft := 0,
        running := some ⟨2, k.seq, fw, s.key.arg, m, standby fw s, s.key.buf⟩ } }) ∧
      (s.key.arg.toNat ≤ 0xFF0000 → s.key.arg.toNat % 0x10000 = 0 → ∃ t, exec (.keyErase m 0x4B59 fw) s = .next t ∧
        t.key.running = some ⟨3, k.seq, fw, s.key.arg, m, standby fw s, s.key.buf⟩ ∧ t.key.verified[standby fw s] = false ∧
        (sparseWf 0xFF s.key.flash[standby fw s] = true → pageState t.key.flash[standby fw s] = 2) ∧ (∀ p : Fin 4, p ≠ standby fw s → t.key.flash[p] = s.key.flash[p]) ∧
        Frame [.key] s t) ∧
      (s.key.arg.toNat ≤ 0xFFE000 → s.key.arg.toNat % 0x1000 = 0 → exec (.keyProgram m 0x4B59 fw) s = .next { s with
        key := { k with running := some ⟨4, k.seq, fw, s.key.arg, m, standby fw s, s.key.buf⟩ } }) ∧
      (exec (.keyVerify m 0x4B59 fw) s = .next { s with key := { k with
        running := some ⟨5, k.seq, fw, s.key.arg, m, standby fw s, s.key.buf⟩ } }) ∧
      (s.key.verified[standby fw s] = true → runGen s.key fw < 0xFFFFFF → (fw = false → safetyDiffers s = true →
        s.key.safeAuth = true) → exec (.keyCommit m 0x4B59 fw) s = .next { s with key := { k with
          running := some ⟨6, k.seq, fw, s.key.arg, m, standby fw s, s.key.buf⟩ } }) ∧
      (exec (.keySafeauth m 0x4B59 fw) s = .next { s with key := { k with
        running := some ⟨7, k.seq, fw, s.key.arg, m, standby fw s, s.key.buf⟩ } }) ∧
      (s.key.runKey.isSome = true → s.key.rollback < s.key.imgRollback → exec (.keyAdvance m 0x4B59 fw) s = .next { s with
        key := { k with running := some ⟨8, k.seq, fw, s.key.arg, m, standby fw s, s.key.buf⟩ } }) ∧
      (∀ n : Fin 4, n ≠ 0 → s.key.arg = wd n.val → s.key.slotState[n] = 0 → exec (.keyProgslot m 0x4B59 fw) s =
        .next { s with key := { k with running := some ⟨9, k.seq, fw, s.key.arg, m, standby fw s, s.key.buf⟩ } }) ∧
      (∀ n : Fin 4, s.key.arg = wd n.val → (s.key.runKey = none ∨ s.key.signer.toNat ≠ n.val) →
        (∃ j : Fin 4, j ≠ n ∧ s.key.slotState[j] = 1) → exec (.keyRevoke m 0x4B59 fw) s = .next { s with
          key := { k with running := some ⟨10, k.seq, fw, s.key.arg, m, standby fw s, s.key.buf⟩ } }) ∧
      (s.key.verified[standby fw s] = false → exec (.keyCommit m 0x4B59 fw) s =
        .next (Claim.refusedKey m 6 15 s)) ∧
      (s.key.arg.toNat % 0x1000 ≠ 0 → exec (.keyProgram m 0x4B59 fw) s = .next (Claim.refusedKey m 4 20 s)))

/-- The running command posts exactly one result, its own, when it completes, with its effect on the page, the fuses and the
session (R91, R93, R94, R99, R100, R362, R398). It works on the page and on the contents of KEY_BUF as they were at its acceptance, the
model's choice (log entry 65). -/
def Sys2Proof.Claim.KeyCommandsComplete : Prop :=
  ∀ (s : State) (worn : List (Fin 256)) (ok : Bool) (r : KeyRun), s.key.running = some r → s.host.bolts = [] →
    (∃ t, exec (.keyCmdComplete ⟨worn, ok⟩) s = .next t ∧ t.key.running = none ∧ t.key.resSeq = r.seq ∧ t.key.resOp = r.op ∧
      t.key.seq = s.key.seq ∧ t.pending = s.pending ∧ t.now = s.now ∧
      (∀ p : Fin 4, p ≠ r.page → t.key.flash[p] = s.key.flash[p]) ∧
      (r.op = 3 → ok = true → worn = [] → t.key.resCode = 0 ∧
        (∀ a : Nat, r.arg.toNat ≤ a → a < r.arg.toNat + 0x10000 → sparseGet 0xFF t.key.flash[r.page] a = 0xFF)) ∧
      (r.op = 3 → ok = false → t.key.resCode = 18) ∧
      (r.op = 4 → (∀ e ∈ s.key.flash[r.page], e.1 < r.arg.toNat ∨ r.arg.toNat + 4096 ≤ e.1) → ok = true → worn = [] →
        t.key.resCode = 0 ∧ t.key.verified[r.page] = false ∧ (sparseWf 0xFF s.key.flash[r.page] = true →
          sparseWf 0 r.buf = true → ∀ j : Nat, j < 4096 →
          sparseGet 0xFF t.key.flash[r.page] (r.arg.toNat + j) = sparseGet 0 r.buf j)) ∧
      (r.op = 4 → (∃ e ∈ s.key.flash[r.page], r.arg.toNat ≤ e.1 ∧ e.1 < r.arg.toNat + 4096) →
        t.key.resCode = 19 ∧ t.key.flash = s.key.flash) ∧
      (r.op = 5 → r.fw = false → (∀ g, verifyImage s.key s.key.flash[r.page] = .ok g →
          t.key.resCode = 0 ∧ t.key.verified[r.page] = true) ∧
        (∀ e, verifyImage s.key s.key.flash[r.page] = .error e → t.key.resCode = BitVec.ofNat 8 e.code ∧
          t.key.badIndex = BitVec.ofNat 16 e.index ∧ t.key.badType = BitVec.ofNat 16 e.type)) ∧
      (r.op = 6 → (∃ e ∈ s.key.flash[r.page], 0xFFF000 ≤ e.1) → t.key.resCode = 19 ∧ t.key.flash = s.key.flash) ∧
      (r.op = 6 → (∀ e ∈ s.key.flash[r.page], e.1 < 0xFFF000) → ok = true → worn = [] → t.key.resCode = 0 ∧
        t.key.flash[r.page] = sparsePutAll 0xFF s.key.flash[r.page] 0xFFF000
          (descriptor (runGen s.key r.fw + 1) (u32 (sparseRange 0xFF s.key.flash[r.page] 0 12) 8))) ∧
      (r.op = 7 → t.key.buf = []) ∧
      (r.op = 7 → s.plk.lockEnd.isSome = true → t.key.resCode = 19) ∧
      (r.op = 8 → t.key.rollback = s.key.imgRollback ∧ t.key.resCode = 0 ∧ Latched .key 6 t) ∧
      (r.op = 9 → ∀ n : Fin 4, r.arg = wd n.val → t.key.slotState[n] = 1 ∧ t.key.resCode = 0) ∧
      (r.op = 10 → ∀ n : Fin 4, r.arg = wd n.val → t.key.slotState[n] = 2 ∧ t.key.resCode = 0))

/-- Keyring commands run and complete with their results. -/
def Obligations.KeyCommandsRunAndComplete : Prop :=
  Claim.KeyCommandsRun ∧
    Claim.KeyCommandsComplete

/-- The session ends 60 s after the owner's last write while no command runs (R97); a KEY_BUF or RWK write of another
master is discarded (R96, R98).
The time up to a due event passes as the model counts it (log entry 3). -/
def Obligations.KeySessionsGuardWrites : Prop :=
  ∀ (s : State),
    (s.key.session = true → s.key.running = none → ∃ t, exec .sessionTimeout s = .next t ∧ t.key.session = false ∧
      t.key.owner = 0 ∧ t.key.safeAuth = false ∧ t.now = max s.now (s.key.idleFrom + s.key.idleLeft) ∧ Latched .key 3 t ∧
      Frame [.key, .time, .events, .board] s t) ∧
    (s.key.session = true → s.key.running.isSome = true → exec .sessionTimeout s = .next s) ∧
    (∀ (m : Master) (n : Fin 1024) (v : Word), m.toNat < 14 →
      (s.key.session = true → s.key.owner = m → exec (.keyBufWrite m n v) s = .next { s with key := { s.key with
        buf := sparsePutAll 0 s.key.buf (4 * n.val) (leBytes 4 v.toNat) } }) ∧
      (s.key.session = false ∨ s.key.owner ≠ m → exec (.keyBufWrite m n v) s =
        .next (raise .key 2 { s with key := { s.key with rwkAddr := wd (0x31000 + 4 * n.val) } }))) ∧
    (∀ (m : Master) (v : Word), m.toNat < 14 →
      (s.key.session = false ∨ s.key.owner ≠ m → ∀ a ∈ [0x40018#32, 0x60008, 0x70108, 0x7012C],
        exec (.rwkWrite m a v) s = .next (raise .key 2 { s with key := { s.key with rwkAddr := a } })) ∧
      (s.key.session = true → s.key.owner = m → s.md = 1 → ∀ a ∈ [0x40018#32, 0x60008, 0x70108, 0x7012C],
        exec (.rwkWrite m a v) s = .next (raise .key 2 { s with key := { s.key with
          rwkAddr := a, idleLeft := 60 * 400000000, idleFrom := s.now } })) ∧
      (s.key.session = true → s.key.owner = m → s.md ≠ 1 → exec (.rwkWrite m 0x7012C v) s = .next { s with
        key := { s.key with idleLeft := 60 * 400000000, idleFrom := s.now }, time := { s.time with ppsSec := v } }))

/-- A transfer of a master comes to a target in island i (R40, R42, R115): the island is Active after its wake time, the other
islands stay, and the transfer is counted for its master. -/
@[reducible] def Sys2Proof.Claim.Arrived (m : Master) (i : Fin 22) (s t : State) : Prop :=
  t.now = s.now + wakeTime i.val s.power.isl[i].state ∧ t.power.isl[i].state = 0 ∧
    (∀ j : Fin 22, j ≠ i → t.power.isl[j] = s.power.isl[j]) ∧
    (at' t.mesh.cnt m.toNat {}).grants = satInc (at' s.mesh.cnt m.toNat {}).grants ∧
    (∀ k : Fin 16, k.val ≠ m.toNat → t.mesh.cnt[k] = s.mesh.cnt[k])

/-- A read of MESH_LOCKn is judged in the four steps of R116: the holder, the class rule with LOCK_ORDER, the stall, the
grant; a stalled read acquires the free lock, and only the holder's RELEASE frees it. -/
def Obligations.LockReadsAreJudgedInOrder : Prop :=
  ∀ (s : State) (m : Master) (n : Fin 64), m.toNat < 14 →
    (s.mesh.lock[n].holder = some m → ∃ t, exec (.lockAcquire m n) s = .next t ∧ Claim.Arrived m 13 s t ∧
      t.mesh = { s.mesh with cnt := t.mesh.cnt } ∧
      t.outbox = s.outbox ++ [.bus m (leBytes 4 (0x80000000 + 256 * m.toNat)) false] ∧
      Frame [.time, .power, .mesh, .outbox] s t) ∧
    (s.mesh.lock[n].holder ≠ some m → (∃ j : Fin 64, s.mesh.lock[j].holder = some m ∧ lockClass s n ≤ lockClass s j) →
      ∃ t, exec (.lockAcquire m n) s = .next t ∧ Claim.Arrived m 13 s t ∧ t.mesh = { s.mesh with cnt := t.mesh.cnt } ∧
        t.outbox = s.outbox ++ [.bus m (leBytes 4 0x40000000) false] ∧
        Latched .mesh 2 t ∧ Frame [.time, .power, .mesh, .outbox, .events, .board] s t) ∧
    ((∀ j : Fin 64, s.mesh.lock[j].holder = some m → lockClass s j < lockClass s n) →
      (∀ k : Master, k ≠ m → s.mesh.lock[n].holder = some k → ∃ t, exec (.lockAcquire m n) s = .next t ∧
        Claim.Arrived m 13 s t ∧ t.mesh.lock[n].holder = some k ∧
        t.mesh.lock[n].waiters = s.mesh.lock[n].waiters ++ [m] ∧
        (∀ j : Fin 64, j ≠ n → t.mesh.lock[j] = s.mesh.lock[j]) ∧ Frame [.time, .power, .mesh] s t) ∧
      (s.mesh.lock[n].holder = none → ∃ t, exec (.lockAcquire m n) s = .next t ∧ Claim.Arrived m 13 s t ∧
        t.mesh.lock[n].holder = some m ∧
        t.mesh.lock[n].waiters = s.mesh.lock[n].waiters ∧ (∀ j : Fin 64, j ≠ n → t.mesh.lock[j] = s.mesh.lock[j]) ∧
        t.outbox = s.outbox ++ [.bus m (leBytes 4 (0x80000000 + 256 * m.toNat)) false] ∧
        Frame [.time, .power, .mesh, .outbox] s t)) ∧
    (s.mesh.lock[n].holder = none → m ∈ s.mesh.lock[n].waiters → s.mesh.stalls = [] →
      ∃ t, exec (.lockWaitAcquired m n) s = .next t ∧ t.mesh.lock[n].holder = some m ∧
        t.mesh.lock[n].waiters = s.mesh.lock[n].waiters.erase m ∧ (∀ j : Fin 64, j ≠ n → t.mesh.lock[j] = s.mesh.lock[j]) ∧
        t.outbox = s.outbox ++ [.bus m (leBytes 4 (0x80000000 + 256 * m.toNat)) false] ∧ Frame [.mesh, .outbox] s t) ∧
    (s.mesh.lock[n].holder = some m → ∃ t, exec (.lockRelease m n) s = .next t ∧ Claim.Arrived m 13 s t ∧
      t.mesh.lock[n].holder = none ∧
      t.mesh.lock[n].waiters = s.mesh.lock[n].waiters ∧ (∀ j : Fin 64, j ≠ n → t.mesh.lock[j] = s.mesh.lock[j]) ∧
      Frame [.time, .power, .mesh] s t) ∧
    (s.mesh.lock[n].holder ≠ some m → ∃ t, exec (.lockRelease m n) s = .next t ∧ Claim.Arrived m 13 s t ∧
      t.mesh = { s.mesh with cnt := t.mesh.cnt } ∧ Frame [.time, .power, .mesh] s t)

/-- Slot tables: a swap is judged at once, only for the session owner, and takes place at the frame boundary, which also
sets the credits of its segment back; MESH_CNTCLR clears the selected master's counters (R110, R111, R115).
The time up to a due event passes as the model counts it (log entry 3). -/
def Sys2Proof.Claim.SlotTablesSwapAtTheFrame : Prop :=
  ∀ (s : State),
    (∀ (m : Master) (g : Fin 4), m.toNat < 14 →
      (s.key.session = true → s.key.owner = m → slotTableOk (recD s 0x20 0) s.mesh.access g s.mesh.shadow[g] = true →
        ∃ t, exec (.meshSwap m (BitVec.ofNat 4 (2 ^ g.val))) s = .next t ∧ bit t.mesh.swapPend g = true ∧
          t.mesh.active = s.mesh.active ∧ t.mesh.shadow = s.mesh.shadow ∧ Frame [.mesh] s t) ∧
      (s.key.session = true → s.key.owner = m → slotTableOk (recD s 0x20 0) s.mesh.access g s.mesh.shadow[g] = false →
        exec (.meshSwap m (BitVec.ofNat 4 (2 ^ g.val))) s = .next (raise .mesh 1 s)) ∧
      (s.key.session = false ∨ s.key.owner ≠ m →
        exec (.meshSwap m (BitVec.ofNat 4 (2 ^ g.val))) s = .next (raise .mesh 1 s))) ∧
    (∀ g : Fin 4, ∃ t, exec (.frameBoundary g) s = .next t ∧ s.now ≤ t.now ∧
      (∀ e ∈ t.mesh.spent, segOf (e.1 / 16) ≠ some g.val) ∧ t.mesh.lock = s.mesh.lock ∧
      (bit s.mesh.swapPend g = true → t.mesh.active[g] = s.mesh.shadow[g] ∧ t.mesh.shadow[g] = s.mesh.active[g] ∧
        bit t.mesh.swapPend g = false ∧ Latched .mesh 0 t) ∧
      (bit s.mesh.swapPend g = false → t.mesh.active = s.mesh.active ∧ t.mesh.shadow = s.mesh.shadow ∧
        t.events = s.events) ∧ Frame [.mesh, .time, .events, .board] s t) ∧
    (∃ t, exec .meshCntclr s = .next t ∧ (∀ j : Fin 16, t.mesh.cnt[j] = if j.val = s.mesh.cntSel.toNat then {}
      else s.mesh.cnt[j]) ∧ Frame [.mesh] s t)

/-- The codes of R119, as a predicate on an access: none permits nothing, read reads, write writes, read-write both,
command reads, and writes only registers of access WO. -/
def Sys2Proof.Claim.permits (code : Nat) (write wo : Bool) : Bool :=
  if code = 1 then !write else if code = 2 then write else if code = 3 then true
  else if code = 4 then !write || wo else false

/-- Access codes: what a code permits, what a refused transfer answers, and the log of the first violation (R119, R120). -/
def Obligations.AccessTablesGuardTransfers : Prop :=
  (∀ code write wo, violation code write wo = 0 ↔ Claim.permits code write wo = true) ∧
  (∀ (s : State) (m : Master) (a : Word) (v : Word) (tg k : Nat), m.toNat < 14 → targetOf a.toNat = some tg →
    modeBars m tg true s = false → transferKind m tg a.toNat 4 true s = k → k ≠ 0 →
    ∃ t, exec (.registerWrite m a v) s = .next t ∧ t.outbox = s.outbox ++ [.bus m [] true] ∧ Latched .acc 0 t ∧
      t.mesh.vcount = satInc s.mesh.vcount ∧
      (bit (eventsOf .acc s) 0 = false → t.mesh.vlog0 = a ∧ t.mesh.vlog1 = pack [(0, m.toNat), (4, tg), (10, 1), (11, k)]) ∧
      (bit (eventsOf .acc s) 0 = true → t.mesh.vlog0 = s.mesh.vlog0 ∧ t.mesh.vlog1 = s.mesh.vlog1) ∧
      Frame [.mesh, .outbox, .events, .board] s t) ∧
  (∀ (s : State) (m : Master) (a : Word) (n : Nat) (slot : Fin 512) (busy : Bool) (tg k : Nat), m.toNat < 14 →
    targetOf a.toNat = some tg → modeBars m tg false s = false → transferKind m tg a.toNat n false s = k → k ≠ 0 →
    ∃ t, exec (.meshTransfer m a n none slot busy) s = .next t ∧
      t.outbox = s.outbox ++ [.bus m (List.replicate n 0) true] ∧ Latched .acc 0 t ∧
      t.mesh.vcount = satInc s.mesh.vcount ∧ Frame [.mesh, .outbox, .events, .board] s t) ∧
  (∀ s : State, ∃ t, exec .accViolClear s = .next t ∧ bit (eventsOf .acc t) 0 = false ∧
    t.mesh.vcount = s.mesh.vcount ∧ t.mesh.vlog0 = s.mesh.vlog0 ∧ t.mesh.vlog1 = s.mesh.vlog1 ∧
    Frame [.events] s t)

/-- A transfer that is permitted writes shared SRAM at once where it fits the port's slots, and waits where the port is
busy; the arbiter then grants it and counts the wait. As it arrives it wakes the island of its target, and waits the wake
time (R42, R104, R107, R111, R112, R115). -/
def Sys2Proof.Claim.MeshTransfersRunOrWait : Prop :=
  ∀ (s : State) (m : Master) (a : Word) (bs : List Byte) (slot : Fin 512), m.toNat < 14 → 0x1000000 ≤ a.toNat →
    a.toNat < 0x1800000 → (bs.length = 1 ∨ (bs.length = 8 ∧ a.toNat % 8 = 0)) → modeBars m 16 true s = false →
    transferKind m 16 a.toNat bs.length true s = 0 →
    (∃ t, exec (.meshTransfer m a bs.length (some bs) slot true) s = .next t ∧
      t.mesh.waiting = s.mesh.waiting ++ [⟨m, a, bs.length, some bs, 0⟩] ∧ Frame [.mesh] s t) ∧
    (s.mesh.waiting = [] → fitsSlots s 16 slot (beats bs.length) = true →
      ∃ t, exec (.meshTransfer m a bs.length (some bs) slot false) s = .next t ∧ t.mesh.waiting = [] ∧
        Claim.Arrived m 14 s t ∧ t.outbox = s.outbox ++ [.bus m [] false] ∧
        t.sram = (sharedWrite a.toNat bs s).sram ∧
        (sparseWf 0 s.sram = true → ∀ b : Nat, sparseGet 0 t.sram b =
          if a.toNat ≤ b ∧ b < a.toNat + bs.length then bs.getD (b - a.toNat) 0 else sparseGet 0 s.sram b) ∧
        Frame [.time, .power, .mesh, .sram, .outbox] s t) ∧
    (∀ (w : Nat) (n : Nat), s.mesh.waiting = [⟨m, a, bs.length, some bs, w⟩] →
      fitsSlots s 16 slot (beats bs.length) = true → ∃ t, exec (.meshGrant 16 slot n) s = .next t ∧ t.mesh.waiting = [] ∧
        Claim.Arrived m 14 s t ∧ t.sram = (sharedWrite a.toNat bs s).sram ∧
        t.outbox = s.outbox ++ [.bus m [] false] ∧ Frame [.time, .power, .mesh, .sram, .outbox] s t)

/-- A write of one register by a master that its table permits wakes the register's island, has the register's effect and is
answered (R6, R42, R119). -/
def Sys2Proof.Claim.RegisterWritesTakeEffect : Prop :=
  ∀ (s : State) (m : Master) (v : Word), m.toNat < 14 → (m = 6 ∨ m = 7 → s.md ≠ 0 ∧ s.md ≠ 2) → m ≠ 8 →
    (codeFor s m 4 = 2 ∨ codeFor s m 4 = 3 → ∃ t, exec (.registerWrite m 0x3000C v) s = .next t ∧
      Claim.Arrived m 21 s t ∧ t.key = { s.key with arg := v } ∧ t.outbox = s.outbox ++ [.bus m [] false] ∧
      t.mesh = { s.mesh with cnt := t.mesh.cnt } ∧ Frame [.time, .power, .mesh, .key, .outbox] s t) ∧
    (codeFor s m 4 = 2 ∨ codeFor s m 4 = 3 → ∀ b : Nat, b < 7 → v = BitVec.ofNat 32 (2 ^ b) →
      ∃ t, exec (.registerWrite m 0x30004 v) s = .next t ∧ bit (eventsOf .key t) b = false ∧
        (∀ j : Nat, j < 7 → j ≠ b → bit (eventsOf .key t) j = bit (eventsOf .key s) j) ∧
        (∀ q : EvReg, q ≠ .key → eventsOf q t = eventsOf q s) ∧ Claim.Arrived m 21 s t ∧
        t.mesh = { s.mesh with cnt := t.mesh.cnt } ∧ Frame [.time, .power, .mesh, .events, .outbox] s t)

/-- Mesh transfers run or wait, register writes take effect. -/
def Obligations.TransfersAndRegisterWrites : Prop :=
  Claim.MeshTransfersRunOrWait ∧
    Claim.RegisterWritesTakeEffect

/-- The cycle probe: without a circle nothing changes but the time, and the due retries of the supervisors are requested
again; in a circle of two masters each holding the lock the other stalls at, the one whose highest lock has the lower class
is aborted; no lock is released, but a supervisor then releases its own and retries its read after 100 µs (R117, R118).
The time up to a due event passes as the model counts it (log entry 3). -/
def Sys2Proof.Claim.CycleProbeBreaksOneWait : Prop :=
  ∀ (s : State),
    ((∀ n : Fin 64, s.mesh.lock[n].waiters = []) → ∃ t, exec (.cycleProbe []) s = .next t ∧ s.now ≤ t.now ∧
      t.mesh = { s.mesh with
        waiting := s.mesh.waiting ++ (s.mesh.retries.filter fun r => decide (r.due ≤ t.now)).map (·.wait),
        retries := s.mesh.retries.filter fun r => decide (t.now < r.due) } ∧ Frame [.time, .mesh] s t) ∧
    (∀ (p q : Fin 64) (x y : Master), p ≠ q → x.toNat < 14 → y.toNat < 14 → x ≠ y → s.mesh.stalls = [] →
      s.mesh.lock[p].holder = some x → s.mesh.lock[q].holder = some y → s.mesh.lock[p].waiters = [y] →
      s.mesh.lock[q].waiters = [x] → (∀ n : Fin 64, n ≠ p → n ≠ q → s.mesh.lock[n] = {}) →
      lockClass s p < lockClass s q → ∃ t, exec (.cycleProbe []) s = .next t ∧ Latched .mesh 3 t ∧
        t.mesh.cycVictim = x ∧ t.mesh.cycLock = BitVec.ofNat 6 p.val ∧ t.mesh.cycLength = 2 ∧
        t.mesh.cycCount = satInc s.mesh.cycCount ∧ t.mesh.lock[q].waiters = [] ∧ t.mesh.lock[p].waiters = [y] ∧
        (∀ n : Fin 64, n ≠ p → t.mesh.lock[n].holder = s.mesh.lock[n].holder) ∧
        (2 ≤ x.toNat → t.mesh.lock[p].holder = some x) ∧
        (x.toNat < 2 → t.mesh.lock[p].holder = none ∧
          (⟨t.now + 40000, ⟨x, wd (0x40100 + 4 * q.val), 4, none, 0⟩⟩ : MeshRetry) ∈ t.mesh.retries) ∧
        t.outbox = s.outbox ++ [.bus x [0, 0, 0, 0] true])

/-- Slot tables swap at the frame; the cycle probe breaks one wait. -/
def Obligations.SlotTablesAndTheCycleProbe : Prop :=
  Claim.SlotTablesSwapAtTheFrame ∧
    Claim.CycleProbeBreaksOneWait

/-- One pin of a lane. -/
def Sys2Proof.Claim.pinOf (l : Lane) (p : Fin 32) (s : State) : PinState := (s.lane l).meas.pin[p]

/-- A trigger falls at its scheduled instant, starts the burst of each triggered pin of its context, re-phases the grid of
the anchor loop and begins the context's step; LATE_START and GRID_SLIP say what R131 and R132 ask for. A
step that is still open at the trigger has missed its deadline (R147; that TRIG_REALIGN may bring a trigger so early is the
model's reading, log entry 70). -/
def Sys2Proof.Claim.TriggersStartBurstsAndSteps : Prop :=
  ∀ (s : State) (c : Fin 8) (lead : Nat) (n : Long),
    (s.time.nextTrig[c] = none → exec (.loopTrigger c lead) s = .next s) ∧
    (s.time.nextTrig[c] = some n → (∀ l : Lane, stepOpen ((s.lane l).eng.ctx[c]) = false) →
      ∃ t, exec (.loopTrigger c lead) s = .next t ∧ t.time.lastTrig[c] = some n ∧
      t.now = s.now + (n.toNat - s.raw.toNat) ∧ (∀ d : Fin 8, d ≠ c → t.time.nextTrig[d] = s.time.nextTrig[d]) ∧
      (∀ l : Lane, laneUp l s = true →
        (ctxUsed l c s = true → (t.lane l).eng.ctx[c].stepNo = (s.lane l).eng.ctx[c].stepNo + 1 ∧
          (t.lane l).eng.ctx[c].trigAt = t.now ∧ (t.lane l).eng.ctx[c].vecDue = true ∧
          (t.lane l).eng.ctx[c].vec = none) ∧
        (∀ p : Fin 32, 3 ≤ s.md → pinOn p s = true → pinTrig p s = true → u8 (pinRec p s) 2 = c.val →
          (Claim.pinOf l p t).burstLeft = u8 (pinRec p s) 3 ∧ (Claim.pinOf l p t).asleep = false ∧
          (40 ≤ lead → (Claim.pinOf l p t).nextAt = t.now) ∧ (lead < 40 → Latched (.meas l) 7 t)) ∧
        (3 ≤ s.md → anchorOf s = some c → (t.lane l).meas.anchored = true ∧
          ∀ p : Fin 32, pinOn p s = true → pinTrig p s = false →
            (Claim.pinOf l p t).nextAt = t.now ∨ (Claim.pinOf l p t).nextAt = t.now + 40 ∧
              t.now + 1 < (Claim.pinOf l p s).nextAt)) ∧
      Frame [.time, .timebase, .laneA, .laneB, .sramA, .sramB, .sram, .events, .board] s t) ∧
    (s.time.nextTrig[c] = some n → ∃ t, exec (.loopTrigger c lead) s = .next t ∧ t.time.lastTrig[c] = some n ∧
      ∀ l : Lane, laneUp l s = true → ctxUsed l c s = true → stepOpen ((s.lane l).eng.ctx[c]) = true →
        Latched (.eng l) 0 t ∧ (t.lane l).eng.ctx[c].misses = satInc (s.lane l).eng.ctx[c].misses ∧
        (t.lane l).eng.ctx[c].run = none)

/-- A converter samples only when a sample is due: its code is that of the difference of its legs, the next one follows on
the 100 ns grid, an end code raises OVR, a leg beyond 12.5 V gives an end code, and a sample that is lost on its way to the
other lane of an interleaved pin raises ILV_HALF there (R123, R125, R129, R130, R131); a triggered converter idle for 200 ns
powers down (R132).
The time up to a due event passes as the model counts it (log entry 3). -/
def Sys2Proof.Claim.ConvertersSampleAndSleep : Prop :=
  ∀ (s : State) (l : Lane) (p : Fin 32) (vp vn : Int) (lost : Bool),
    (s.md < 3 ∨ laneUp l s = false ∨ pinOn p s = false ∨ (Claim.pinOf l p s).absent = true →
      exec (.converterSample l p (vp, vn) lost) s = .next s) ∧
    (3 ≤ s.md → laneUp l s = true → pinOn p s = true → (Claim.pinOf l p s).absent = false →
      (pinTrig p s = false ∨ 0 < (Claim.pinOf l p s).burstLeft) →
      (vp.natAbs ≤ 12500000000 → vn.natAbs ≤ 12500000000 → codeTie (vp - vn) = false →
        (Claim.pinOf l p s).overdrive = false → (Claim.pinOf l p s).recoverTo ≤ s.now →
        disturbed l p s = false → ∃ t, exec (.converterSample l p (vp, vn) lost) s = .next t ∧
        (Claim.pinOf l p t).own = codeOf false (vp - vn) ∧
        t.now = max s.now ((Claim.pinOf l p s).nextAt + ilvOffset l p s) ∧
        (Claim.pinOf l p t).nextAt = (Claim.pinOf l p s).nextAt +
          40 * ((t.now - ilvOffset l p s - (Claim.pinOf l p s).nextAt) / 40 + 1) ∧
        (Claim.pinOf l p t).burstLeft = (Claim.pinOf l p s).burstLeft - 1 ∧
        (endCode (codeOf false (vp - vn)) = true → Latched (.meas l) 8 t) ∧
        (pinIlv p s = true → lost = true → converterOn (otherLane l) p s = true → Latched (.meas (otherLane l)) 5 t) ∧
        (pinIlv p s = true → converterOn (otherLane l) p s = false → Latched (.meas l) 5 t) ∧
        (∀ q : Fin 32, q ≠ p → Claim.pinOf l q t = Claim.pinOf l q s) ∧ t.pending = s.pending) ∧
      (12500000000 < vp.natAbs ∨ 12500000000 < vn.natAbs → vp ≠ vn →
        ∃ t, exec (.converterSample l p (vp, vn) lost) s = .next t ∧
        (Claim.pinOf l p t).own = (if vn < vp then 0x7FFF else 0x8000) ∧
        (Claim.pinOf l p t).overdrive = true ∧ Latched (.meas l) 8 t ∧ t.pending = s.pending)) ∧
    (3 ≤ s.md → laneUp l s = true → pinOn p s = true → pinTrig p s = true → (Claim.pinOf l p s).asleep = false →
      (Claim.pinOf l p s).burstLeft = 0 → ∃ t, exec (.converterPowerDown l p) s = .next t ∧
        Claim.pinOf l p t = { Claim.pinOf l p s with asleep := true } ∧
        t.now = max s.now ((Claim.pinOf l p s).lastConv + 80) ∧
        (∀ q : Fin 32, q ≠ p → Claim.pinOf l q t = Claim.pinOf l q s) ∧
        Frame [lanePart l, .time] s t)

/-- Triggers start bursts and steps; converters sample and sleep. -/
def Obligations.ConvertersTriggerAndSample : Prop :=
  Claim.TriggersStartBurstsAndSteps ∧
    Claim.ConvertersSampleAndSleep

/-- Window exits, open wires and the open-wire test of a pin (R124, R134).
The time up to a due event passes as the model counts it (log entry 3). -/
def Sys2Proof.Claim.WindowsAndOpenWiresReport : Prop :=
  ∀ (s : State) (l : Lane) (p : Fin 32),
    ((Claim.pinOf l p s).winExit ≠ 0 → ∃ t, exec (.winExit l p) s = .next t ∧ Latched (.meas l) 0 t ∧
      Claim.pinOf l p t = { Claim.pinOf l p s with winExit := 0 } ∧
      (∀ q : Fin 32, q ≠ p → Claim.pinOf l q t = Claim.pinOf l q s) ∧
      Frame [lanePart l, .events, .board] s t) ∧
    ((Claim.pinOf l p s).winExit = 0 → exec (.winExit l p) s = .next s) ∧
    (∀ at0 : Nat, (Claim.pinOf l p s).fullSince = some at0 → pinOn p s = true → owEn p s = true →
      (Claim.pinOf l p s).opened = false → ∃ t, exec (.openWire l p) s = .next t ∧ Latched (.meas l) 1 t ∧
      Claim.pinOf l p t = { Claim.pinOf l p s with opened := true } ∧
      t.now = max s.now (at0 + 40000 * u16 (pinRec p s) 16) ∧ Frame [lanePart l, .time, .events, .board] s t) ∧
    ((Claim.pinOf l p s).fullSince = none → exec (.openWire l p) s = .next s) ∧
    (s.md ≠ 3 → exec (.owTestStart l) s = .next s) ∧
    (s.md = 3 → (s.lane l).meas.pinSel.toNat = p.val → pinOn p s = true → ∃ t, exec (.owTestStart l) s = .next t ∧
      (∀ x : Lane, Claim.pinOf x p t = { Claim.pinOf x p s with owTest := some (s.now + 400000) }) ∧
      Frame [.laneA, .laneB] s t) ∧
    (∀ end0 : Nat, (Claim.pinOf l p s).owTest = some end0 → ∃ t, exec (.owTestEnd l p) s = .next t ∧
      t.now = max s.now end0 ∧ (Claim.pinOf l p t).owTest = none ∧
      ((Claim.pinOf l p t).opened = true ↔ (Claim.pinOf l p s).own = 0x8000) ∧
      (∀ q : Fin 32, q ≠ p → Claim.pinOf l q t = Claim.pinOf l q s) ∧
      Frame [lanePart l, .time] s t)

/-- A run of cross-check differences raises XCHK_FAIL and starts a vote on the first free spare, lane A first; without a
spare SPARE_NONE; the vote's outcome as R127 lists it, and the take-over of a spare (R127, R128).
The time up to a due event passes as the model counts it (log entry 3). -/
def Sys2Proof.Claim.CrossChecksVoteAndReplace : Prop :=
  ∀ (s : State) (p : Fin 32) (tol : Nat), tol = 64 * u16 (pinRec p s) 12 → (∀ x : Lane, (Claim.pinOf x p s).vote = none) →
    (∀ (l : Lane) (k : Fin 4), (Claim.pinOf l p s).xchkDue = true → firstSpare .a s = some k →
      ∃ t, exec (.xchkFail l p) s = .next t ∧ Latched (.meas l) 2 t ∧ (Claim.pinOf l p t).xchkBad = true ∧
        (∀ x : Lane, (Claim.pinOf x p t).vote = some (.a, k)) ∧ Frame [.laneA, .laneB, .events, .board] s t) ∧
    (∀ l : Lane, (Claim.pinOf l p s).xchkDue = true → firstSpare .a s = none → firstSpare .b s = none →
      ∃ t, exec (.xchkFail l p) s = .next t ∧ Latched (.meas l) 2 t ∧ Latched (.meas l) 4 t ∧
        (Claim.pinOf l p t).xchkBad = true ∧ ∀ x : Lane, (Claim.pinOf x p t).vote = none) ∧
    (∀ l : Lane, (Claim.pinOf l p s).xchkDue = false → exec (.xchkFail l p) s = .next s) ∧
    (∀ (sp sc ss : Int) (k : Fin 4) (v : State), v = modPins p (fun q => { q with vote := some (.a, k) }) s →
      (Claim.pinOf .a p s).primaryB = false → (Claim.pinOf .b p s).primaryB = false →
      (tol < (sp - ss).natAbs → (sc - ss).natAbs ≤ tol → ∃ t, exec (.voteDone p sp sc ss) v = .next t ∧
        (∀ x : Lane, (Claim.pinOf x p t).primaryB = true ∧ (Claim.pinOf x p t).vote = none) ∧
        (Claim.pinOf .a p t).swap = some (k, true)) ∧
      (((sp - ss).natAbs ≤ tol ↔ (sc - ss).natAbs ≤ tol) → ∃ t, exec (.voteDone p sp sc ss) v = .next t ∧
        ∀ x : Lane, Claim.pinOf x p t = Claim.pinOf x p s)) ∧
    (∀ (l : Lane) (k : Fin 4) (w : Bool), (Claim.pinOf l p s).swap = some (k, w) →
      (Claim.pinOf l p s).swapDue = true → ∃ t, exec (.spareIn l p) s = .next t ∧ Latched (.meas l) 3 t ∧ (Claim.pinOf l p t).swap = none ∧
        (Claim.pinOf l p t).conv = k.succ ∧ (t.lane l).meas.spareUsed[k] = true ∧
        (Claim.pinOf l p t).hist = (Claim.pinOf l p s).hist ∧
        (w = true → ∀ x : Lane, (Claim.pinOf x p t).xchkBad = false)) ∧
    (∀ l : Lane, (Claim.pinOf l p s).swapDue = false → exec (.spareIn l p) s = .next s) ∧
    (∀ l : Lane, laneUp l s = true → 3 ≤ s.md → ∃ t, exec (.spareCalibrate l) s = .next t ∧ s.now ≤ t.now ∧
      Frame [.time] s t)

/-- Windows, open wires and cross-checks. -/
def Obligations.MeasurementFaultsAreReported : Prop :=
  Claim.WindowsAndOpenWiresReport ∧
    Claim.CrossChecksVoteAndReplace

/-- FLT_CTL starts and stops a chain in M3 and M11 only, and FLT_COEFDAT takes a coefficient of a stopped chain only
(R137, R139, R140). -/
def Obligations.FilterChainsAreControlled : Prop :=
  ∀ (s : State) (l : Lane) (p : Fin 32), (s.lane l).meas.fltSel.toNat = p.val → pinOn p s = true →
    (pinChain p s = false → ∀ (v : Word) (m : Master), m.toNat < 14 → exec (.fltCtlWrite l v) s = .next s ∧
      exec (.fltCoefdatWrite l m v) s = .next s) ∧
    (pinChain p s = true →
      (∀ v : Word, bit v 0 ≠ (Claim.pinOf l p s).run → s.md ≠ 3 → s.md ≠ 11 →
        ∃ t, exec (.fltCtlWrite l v) s = .next t ∧ Latched (.flt l) 1 t ∧
          Claim.pinOf l p t = { Claim.pinOf l p s with freeze := bit v 1 } ∧
          Frame [lanePart l, .events, .board] s t) ∧
      (∀ v : Word, (s.md = 3 ∨ s.md = 11) → bit v 0 = false → (Claim.pinOf l p s).run = true →
        ∃ t, exec (.fltCtlWrite l v) s = .next t ∧ (Claim.pinOf l p t).run = false ∧
          (Claim.pinOf l p t).settled = false ∧ (Claim.pinOf l p t).hist = [] ∧
          (∀ j : Fin 5, (Claim.pinOf l p t).integ[j] = 0 ∧ (Claim.pinOf l p t).comb[j] = 0) ∧
          (Claim.pinOf l p t).out = (Claim.pinOf l p s).out ∧
          (Claim.pinOf l p t).dcE = (Claim.pinOf l p s).dcE ∧ Frame [lanePart l] s t) ∧
      (∀ v : Word, (s.md = 3 ∨ s.md = 11) → bit v 0 = true → (Claim.pinOf l p s).run = false →
        ∃ t, exec (.fltCtlWrite l v) s = .next t ∧ (Claim.pinOf l p t).run = true ∧
          (Claim.pinOf l p t).settled = false ∧ (Claim.pinOf l p t).out = (Claim.pinOf l p s).out ∧
          Frame [lanePart l] s t) ∧
      (∀ (m : Master) (v : Word), m.toNat < 14 → s.key.session = true → s.key.owner = m → s.md = 3 →
        ((Claim.pinOf l p s).run = true → ∃ t, exec (.fltCoefdatWrite l m v) s = .next t ∧ Latched (.flt l) 0 t ∧
          (Claim.pinOf l p t).coef = (Claim.pinOf l p s).coef ∧ Frame [.key, .events, .board] s t) ∧
        ((Claim.pinOf l p s).run = false → (Claim.pinOf l p s).coefSel.toNat < (Claim.pinOf l p s).coef.length →
          ∃ t, exec (.fltCoefdatWrite l m v) s = .next t ∧ (Claim.pinOf l p t).coef =
            (Claim.pinOf l p s).coef.set (Claim.pinOf l p s).coefSel.toNat (BitVec.ofNat 24 (v.toNat % 2 ^ 24)) ∧
          Frame [lanePart l, .key] s t)))

/-- One context of a lane's engine. -/
def Sys2Proof.Claim.ctxOf (l : Lane) (c : Fin 8) (s : State) : EngCtx := (s.lane l).eng.ctx[c]

/-- The agreed vector of a context: with every sample in place both lanes take the primary converters' values as they stood
at the loop read; with samples missing a lane takes its own, and the vector is marked unagreed (R11, R12, R126, R129).
The time up to a due event passes as the model counts it (log entry 3). -/
def Sys2Proof.Claim.AgreedVectorsFallDue : Prop :=
  ∀ (s : State) (c : Fin 8) (g : Graph), graphOf c s = some g → laneUp .a s = true → laneUp .b s = true →
    (tsuOut s .a).up = true → (tsuOut s .b).up = true → (∀ l : Lane, (Claim.ctxOf l c s).vecDue = true) →
    (∃ t, exec (.vectorDue c [] []) s = .next t ∧ (∀ l : Lane, (Claim.ctxOf l c t).vecDue = false ∧
        (Claim.ctxOf l c t).vecUnagreed = false ∧ (Claim.ctxOf l c t).vec = some (g.ins.map fun e =>
          let pin : Fin 32 := Fin.ofNat 32 e.pin
          let own : Bool := pinIlv pin s
          (e.node, pinOut (if own then l else if ((s.lane l).meas.pin[pin]).primaryB then .b else .a) c pin e.entry s))) ∧
      t.now = max s.now (max (Claim.ctxOf .a c s).trigAt (Claim.ctxOf .b c s).trigAt + inputTicks c s)) ∧
    (∀ p : Fin 32, p ∈ ctxPins c s → ∃ t, exec (.vectorDue c [] [p]) s = .next t ∧ Latched .clm 0 t ∧
      (Claim.ctxOf .b c t).vecUnagreed = true ∧ (Claim.ctxOf .a c t).vecUnagreed = false ∧
      t.claim.unagreed = satInc s.claim.unagreed ∧
      (∀ e ∈ g.ins, Fin.ofNat 32 e.pin = p → ∃ v, (Claim.ctxOf .b c t).vec = some v ∧
        (e.node, pinOut .b c p e.entry s) ∈ v))

/-- A committed step starts on its vector, once the engine has left the step it suspends, with the waiting changes applied,
and commits in time with its counters and its place among the steps; while its inputs are not settled it writes no output; a
suspended step, and one that would end after its deadline, do not commit (R144 to R149, R154, R171).
The time up to a due event passes as the model counts it (log entry 3). -/
def Sys2Proof.Claim.StepsStartAndCommit : Prop :=
  ∀ (s : State) (l : Lane) (c : Fin 8), laneUp l s = true → preempted l c s = false →
    (∀ v : List (Nat × Word), (Claim.ctxOf l c s).vec = some v → (Claim.ctxOf l c s).run = none → gfCtx s ≠ some c →
      ((Claim.ctxOf l c s).pend = [] → ∃ t, exec (.committedStepStart l c) s = .next t ∧
        t.now = max s.now (engineFree l s) ∧ Claim.ctxOf l c t = { Claim.ctxOf l c s with
          run := some ⟨t.now, 0, some t.now, 0, v, (Claim.ctxOf l c s).vecSettled⟩, vec := none,
          startedNo := (Claim.ctxOf l c s).stepNo, livePend := none,
          live := (Claim.ctxOf l c s).livePend.getD (Claim.ctxOf l c s).live } ∧
        (∀ d : Fin 8, d ≠ c → Claim.ctxOf l d t = Claim.ctxOf l d s) ∧
        Frame [lanePart l, .time] s t) ∧
      (∀ n : Nat, (Claim.ctxOf l c s).pend = [(some n, .swap)] → n ≤ (Claim.ctxOf l c s).stepNo →
        ∃ t, exec (.committedStepStart l c) s = .next t ∧ Latched (.eng l) 3 t ∧ (Claim.ctxOf l c t).pend = [] ∧
          (Claim.ctxOf l c t).bank = !(Claim.ctxOf l c s).bank ∧
          (Claim.ctxOf l c t).run = some ⟨t.now, 0, some t.now, 0, v, (Claim.ctxOf l c s).vecSettled⟩)) ∧
    ((Claim.ctxOf l c s).vec = none → exec (.committedStepStart l c) s = .next s) ∧
    (∀ (g : Graph) (r : RunStep), graphOf c s = some g → (Claim.ctxOf l c s).run = some r →
      (r.since = none → exec (.committedStepCommit l c) s = .next s) ∧
      (∀ t0 : Nat, r.since = some t0 →
        (stepEnd l g r t0 s ≤ (Claim.ctxOf l c s).trigAt + g.deadline → ∃ t,
          exec (.committedStepCommit l c) s = .next t ∧ (Claim.ctxOf l c t).run = none ∧
          (Claim.ctxOf l c t).missRun = 0 ∧
          (Claim.ctxOf l c t).steps = satInc (Claim.ctxOf l c s).steps ∧
          (Claim.ctxOf l c t).commitNo = (Claim.ctxOf l c s).startedNo ∧
          (Claim.ctxOf l c t).wroteAt = (if r.settled then some t.now else (Claim.ctxOf l c s).wroteAt) ∧
          (gfCtx s ≠ some c → r.settled = false → (t.lane l).pwm = (s.lane l).pwm) ∧
          (Claim.ctxOf l c t).cycLast.toNat = min 0xFFFF (stepCycles (fmaUnits l s) g) ∧
          t.now = stepEnd l g r t0 s ∧ s.now ≤ t.now) ∧
        ((Claim.ctxOf l c s).trigAt + g.deadline < stepEnd l g r t0 s →
          exec (.committedStepCommit l c) s = .next s)))

/-- Agreed vectors fall due, steps start and commit. -/
def Obligations.StepsFallDueAndCommit : Prop :=
  Claim.AgreedVectorsFallDue ∧
    Claim.StepsStartAndCommit

/-- A missed deadline discards the step, counts it and raises DEADLINE_MISS; of the other contexts only suspended steps go on
(R144); the third in a row faults the lane on cause 2
(R147, R148).
The time up to a due event passes as the model counts it (log entry 3). -/
def Sys2Proof.Claim.MissedDeadlinesFaultTheLane : Prop :=
  ∀ (s : State) (l : Lane) (c : Fin 8), ctxUsed l c s = true → stepOpen (Claim.ctxOf l c s) = true →
    ∃ t, exec (.deadlineMiss l c) s = .next t ∧ Latched (.eng l) 0 t ∧
      (Claim.ctxOf l c t).misses = satInc (Claim.ctxOf l c s).misses ∧
      (Claim.ctxOf l c t).run = none ∧ (Claim.ctxOf l c t).vec = none ∧
      (Claim.ctxOf l c t).vecDue = false ∧
      t.now = max s.now ((Claim.ctxOf l c s).trigAt + u32 (recD s 0x40 c.val) 4) ∧
      (∀ d : Fin 8, d ≠ c →
        Claim.ctxOf l d t = { Claim.ctxOf l d s with run := (Claim.ctxOf l d t).run } ∧
        (Claim.ctxOf l d t).run = (Claim.ctxOf l d s).run.map fun x => { x with
          since := ((Claim.ctxOf l d t).run.map (·.since)).getD none }) ∧
      ((Claim.ctxOf l c s).missRun.val < 2 →
        (Claim.ctxOf l c t).missRun.val = (Claim.ctxOf l c s).missRun.val + 1 ∧ t.claim = s.claim ∧
        (t.lane l).eng.nodes = (s.lane l).eng.nodes ∧ (t.lane l).pwm = (s.lane l).pwm) ∧
      ((Claim.ctxOf l c s).missRun.val = 2 → Latched (.eng l) 1 t ∧ (t.lane l).eng.laneFault = true ∧
        ((s.lc l).health = .healthy ∨ (s.lc l).health = .matching ∨ (s.lc l).health = .mirror →
          (t.lc l).claim = 0 ∧ (t.lc l).cause = 2 ∧ Latched .clm (clmFaultBit l) t))

/-- FMA units: a unit that fails leaves the pool and a spare enters, counted and logged; without a spare the engine goes on
with fewer; the periodic pass of a lane without failures changes nothing (R166, R362, R367).
The time up to a due event passes as the model counts it (log entry 3). -/
def Sys2Proof.Claim.FmaUnitsAreReplaced : Prop :=
  ∀ (s : State) (l : Lane) (u : Fin 18), laneUp l s = true →
    ((s.lane l).eng.fmaLost = [] → u.val < 16 → ∃ t, exec (.fmaErr l u .testPass) s = .next t ∧
      (t.lane l).eng.fmaLost = [u] ∧ fmaUnits l t = 16 ∧ Latched (.eng l) 8 t ∧ Latched (.eng l) 9 t ∧
      Frame [lanePart l, .wear, .events, .board] s t) ∧
    (∀ x y : Fin 18, (s.lane l).eng.fmaLost = [x, y] → x ≠ y → u ≠ x → u ≠ y → ∃ t,
      exec (.fmaErr l u .testPass) s = .next t ∧ (t.lane l).eng.fmaLost = [u, x, y] ∧ fmaUnits l t = 15 ∧
        Latched (.eng l) 8 t ∧ Latched (.eng l) 10 t) ∧
    (u ∈ (s.lane l).eng.fmaLost → ∀ w : FmaWhere, exec (.fmaErr l u w) s = .next s) ∧
    (∀ c : Fin 8, u ∉ (s.lane l).eng.fmaLost → (Claim.ctxOf l c s).run.isSome = true →
      (Claim.ctxOf l c s).missRun.val < 2 → ∃ t, exec (.fmaErr l u (.committed c)) s = .next t ∧
        (Claim.ctxOf l c t).run = none ∧ (Claim.ctxOf l c t).misses = (Claim.ctxOf l c s).misses ∧
        (Claim.ctxOf l c t).missRun.val = (Claim.ctxOf l c s).missRun.val + 1 ∧ Latched (.eng l) 8 t) ∧
    (3 ≤ s.md → ∃ t, exec (.fmaTestPass l []) s = .next t ∧ s.now ≤ t.now ∧ Frame [.time] s t)

/-- Missed deadlines and FMA residue failures. -/
def Obligations.DeadlinesAndFmaUnits : Prop :=
  Claim.MissedDeadlinesFaultTheLane ∧
    Claim.FmaUnitsAreReplaced

/-- Coefficient writes and bank swaps wait for the step that both lanes agree on: they are judged in the lane that receives
them, mirrored with up to 4 repeats after a CRC error and applied by both lanes (R257), and refused for a subnormal or infinite value, in a mode that does not permit them, and while a swap waits (R153, R154). -/
def Sys2Proof.Claim.CoefficientChangesWait : Prop :=
  ∀ (s : State) (l : Lane) (c : Fin 8) (x : EngState), x = (s.lane l).eng → x.ctxSel.toNat = c.val →
    (tsuOut s l).up = true →
    (∀ v : Word, normalWord v = true → (s.md = 3 ∨ s.md = 11) → ((Claim.ctxOf l c s).live = true ∨
        (Claim.ctxOf l c s).bank ≠ x.coefBank) → ∃ t, exec (.coefWrite l v) s = .next t ∧
      (Claim.ctxOf l c t).pend =
        (Claim.ctxOf l c s).pend ++ [(none, .coef x.coefBank x.coefIndex.toNat v)] ∧
      (tsuOut t l).queue = (tsuOut s l).queue ++ [.coef c x.coefBank x.coefIndex.toNat v] ∧
      (t.lane l).eng.coefs = x.coefs ∧ Frame [lanePart l, .claim] s t) ∧
    (∀ v : Word, normalWord v = false → exec (.coefWrite l v) s = .next (raise (.eng l) 4 s)) ∧
    (∀ v : Word, (Claim.ctxOf l c s).live = false → (Claim.ctxOf l c s).bank = x.coefBank →
      exec (.coefWrite l v) s = .next (raise (.eng l) 4 s)) ∧
    (u8 (recD s 0x40 c.val) 20 ≠ 1 → s.md ≠ 3 → s.md ≠ 11 →
      exec (.bankSwapReq l) s = .next (raise (.eng l) 4 s)) ∧
    ((s.md = 3 ∨ s.md = 11) → swapWaits (Claim.ctxOf l c s) = true →
      exec (.bankSwapReq l) s = .next (raise (.eng l) 5 s)) ∧
    ((s.md = 3 ∨ s.md = 11) → swapWaits (Claim.ctxOf l c s) = false → ∃ t, exec (.bankSwapReq l) s = .next t ∧
      swapWaits (Claim.ctxOf l c t) = true ∧ (tsuOut t l).queue = (tsuOut s l).queue ++ [.bankSwap c] ∧
      Frame [lanePart l, .claim] s t) ∧
    (∀ (w : Word) (rest : List MirrorWrite) (crc : Nat), (tsuOut s l).queue = .coef c x.coefBank 5 w :: rest → crc < 5 →
      (Claim.ctxOf l c s).pend = [(none, .coef x.coefBank 5 w)] → ∃ t,
      exec (.mirroredWriteArrival ⟨otherLane l, crc⟩) s = .next t ∧
        (tsuOut t l).errs.toNat = min 65535 ((tsuOut s l).errs.toNat + crc) ∧ (tsuOut t l).queue = rest ∧
        (Claim.ctxOf l c t).pend = [(some (nextTarget c s), .coef x.coefBank 5 w)] ∧
        (Claim.ctxOf (otherLane l) c t).pend =
          (Claim.ctxOf (otherLane l) c s).pend ++ [(some (nextTarget c s), .coef x.coefBank 5 w)])

/-- Trace taps and the oscillation detector: TRC_CTL freezes and resumes a tap, and a complete window is judged, where the
band energy the manual does not state is free (R163 to R165). -/
def Sys2Proof.Claim.TapsAndWindowsFollowTheirRules : Prop :=
  ∀ (s : State) (l : Lane) (c : Fin 8),
    (∀ (v : Word) (k : Fin 64), k = tapIdx (s.lane l).eng.trcCtx.toFin (s.lane l).eng.trcTap.toFin →
      ∃ t, exec (.trcCtlWrite l v) s = .next t ∧ ((t.lane l).eng.tap[k]).run = bit v 0 ∧
        ((t.lane l).eng.tap[k]).frozen = (((s.lane l).eng.tap[k]).frozen && !bit v 0) ∧
        ((t.lane l).eng.tap[k]).freezeOn.toNat = v.toNat / 4 % 4 ∧
        ((t.lane l).eng.tap[k]).wptr = ((s.lane l).eng.tap[k]).wptr ∧
        (∀ j : Fin 64, j ≠ k → (t.lane l).eng.tap[j] = (s.lane l).eng.tap[j]) ∧ Frame [lanePart l] s t) ∧
    (∀ g : Graph, graphOf c s = some g →
      (g.oscNode = 0xFFFF ∨ (Claim.ctxOf l c s).oscBuf.length < g.oscWin → exec (.oscWindowEnd l c) s = .next s) ∧
      (g.oscNode ≠ 0xFFFF → g.oscWin ≤ (Claim.ctxOf l c s).oscBuf.length → (Claim.ctxOf l c s).osc ≠ 1 →
        ∃ t, exec (.oscWindowEnd l c) s = .next t ∧
          (Claim.ctxOf l c t).oscWindows = (Claim.ctxOf l c s).oscWindows + 1 ∧
          (Claim.ctxOf l c t).oscBuf.length = (Claim.ctxOf l c s).oscBuf.length - g.oscWin ∧
          (∀ d : Fin 8, d ≠ c → Claim.ctxOf l d t = Claim.ctxOf l d s) ∧
          Frame [lanePart l] s t))

/-- Coefficient changes, taps and parameter windows of the engine. -/
def Obligations.CoefficientsTapsAndWindows : Prop :=
  Claim.CoefficientChangesWait ∧
    Claim.TapsAndWindowsFollowTheirRules

/-- The run-ahead of one context of a lane. -/
def Sys2Proof.Claim.raOf (l : Lane) (c : Fin 8) (s : State) : RaCtx := (s.lane l).ra.ctx[c]

/-- Speculative steps give way to committed ones, advance level by level, and when complete only fill the sets, where that delays no committed step: no committed
node, output or other lane changes (R169 to R172, R183). -/
def Obligations.SpeculationNeverTouchesCommittedState : Prop :=
  ∀ (s : State) (l : Lane) (c : Fin 8),
    (laneBusy l s = true → ∃ t, exec (.specLevelIssue l c) s = .next t ∧
      Claim.raOf l c t = { Claim.raOf l c s with suspended := (Claim.raOf l c s).flight.isSome } ∧
      t.now = s.now ∧ (∀ d : Fin 8, d ≠ c → Claim.raOf l d t = Claim.raOf l d s) ∧
      Frame [lanePart l] s t) ∧
    (∀ (j : SpecJob) (k n : Nat), (∀ d : Fin 8, ctxBefore d c s = true → (Claim.raOf l d s).on = false) →
      mayIssue l c s = true → nextLevel l c s = some n → jobNow l c s = some (j, k) →
      ∃ t, exec (.specLevelIssue l c) s = .next t ∧ (Claim.raOf l c t).flight = some (j, k + 1) ∧
        (Claim.raOf l c t).suspended = false ∧ t.now = s.now + n ∧ Frame [lanePart l, .time] s t) ∧
    (∀ (g : Graph) (j : SpecJob) (n : Nat), graphOf c s = some g → (Claim.raOf l c s).flight = some (j, n) →
      (n < (cutLevels g.levels g.ops).length → exec (.specStepDone l c) s = .next s) ∧
      ((cutLevels g.levels g.ops).length ≤ n → (laneBusy l s = true ∨ (nextStart l s).any (fun m =>
          decide (m < engTicks l (16 + g.nOut + restoreCycles g) s)) = true) → ∃ t, exec (.specStepDone l c) s = .next t ∧
        Claim.raOf l c t = { Claim.raOf l c s with suspended := true } ∧ t.now = s.now ∧
        (∀ d : Fin 8, d ≠ c → Claim.raOf l d t = Claim.raOf l d s) ∧ Frame [lanePart l] s t) ∧
      ((cutLevels g.levels g.ops).length ≤ n → laneBusy l s = false → (nextStart l s).any (fun m =>
          decide (m < engTicks l (16 + g.nOut + restoreCycles g) s)) = false → ∃ t, exec (.specStepDone l c) s = .next t ∧
        (Claim.raOf l c t).flight = none ∧ (t.lane l).eng.nodes = (s.lane l).eng.nodes ∧
        (t.lane l).pwm = (s.lane l).pwm ∧ t.now = s.now + engTicks l (16 + g.nOut + restoreCycles g) s ∧
        (∀ h : Nat, j = .horizon h → (Claim.raOf l c t).hDone = h) ∧
        (∀ b : Fin 3, j = .armed b → ((Claim.raOf l c t).armed[b]).isSome = true ∧
          ∀ d : Fin 3, d ≠ b → (Claim.raOf l c t).armed[d] = (Claim.raOf l c s).armed[d]) ∧
        (∀ b : Fin 3, j = .next b → ((Claim.raOf l c t).next[b]).isSome = true ∧
          (Claim.raOf l c t).armed = (Claim.raOf l c s).armed) ∧
        (∀ d : Fin 8, d ≠ c → Claim.raOf l d t = Claim.raOf l d s) ∧ t.gate = s.gate ∧ t.mode = s.mode ∧
        (t.lane (otherLane l)).eng = (s.lane (otherLane l)).eng ∧ (t.lane (otherLane l)).ra = (s.lane (otherLane l)).ra))

/-- A template that qualifies in one context commits the branch armed there, once between two committed steps; outside M7 to
M9, or inhibited, it only leaves a mark (R177 to R180, R342); in M7 to M9 without a branch NO_BRANCH is counted, while
COMMIT_INH is 1 too (log entry 28). -/
def Sys2Proof.Claim.BranchesCommitWhereArmed : Prop :=
  ∀ (s : State) (l : Lane) (b : Fin 3) (src : BranchSource) (lat : Nat) (c : Fin 8),
    ((∀ d : Fin 8, (Claim.raOf l d s).on = false) → exec (.branchCommit l b src lat) s = .next s) ∧
    ((Claim.raOf l c s).on = true → qualifiesOn l c b src s = true →
      (∀ d : Fin 8, d ≠ c → (Claim.raOf l d s).on = false) →
      ((s.md < 7 ∨ 9 < s.md) → ∃ t, exec (.branchCommit l b src lat) s = .next t ∧
        t.now = max s.now (lastSample l s + lat) ∧ (t.lane l).ra = (s.lane l).ra ∧ (t.lane l).pwm = (s.lane l).pwm ∧ (t.lane l).eng = (s.lane l).eng ∧
        t.mode = s.mode ∧ t.gate = s.gate ∧ eventsOf (.ra l) t = eventsOf (.ra l) s) ∧
      (7 ≤ s.md → s.md ≤ 9 → (s.lane l).ra.inhibit = true →
        ((Claim.raOf l c s).blocked[b] = true ∨ ((Claim.raOf l c s).armed[b]).isSome = true) →
        ∃ t, exec (.branchCommit l b src lat) s = .next t ∧ (t.lane l).ra = (s.lane l).ra ∧
          (t.lane l).pwm = (s.lane l).pwm ∧ eventsOf (.ra l) t = eventsOf (.ra l) s) ∧
      (7 ≤ s.md → s.md ≤ 9 → (Claim.raOf l c s).blocked[b] = false →
        ((Claim.raOf l c s).armed[b] = none → ∃ t, exec (.branchCommit l b src lat) s = .next t ∧
          Latched (.ra l) 1 t ∧ (Claim.raOf l c t).noBranch = satInc (Claim.raOf l c s).noBranch ∧
          (Claim.raOf l c t).commits = (Claim.raOf l c s).commits ∧ (t.lane l).pwm = (s.lane l).pwm) ∧
        (((Claim.raOf l c s).armed[b]).isSome = true → (Claim.raOf l c s).taken = false →
          (s.lane l).ra.inhibit = false →
          (∀ u : Fin 3, u < b → (Claim.raOf l c s).armed[u] = none) →
          ∃ t, exec (.branchCommit l b src lat) s = .next t ∧ Latched (.ra l) 0 t ∧
            ((s.md = 7 ∨ s.md = 8) → s.mode.busy = false → t.mode.busy = true ∧ t.mode.target = 9) ∧
            (Claim.raOf l c t).commits = satInc (Claim.raOf l c s).commits ∧
            (Claim.raOf l c t).taken = true ∧ (t.lane l).ra.lastBranch.toNat = b.val + 1 ∧
            (t.lane l).ra.lastCtxs.toNat = 2 ^ c.val ∧ (t.lane l).ra.lastLatency.toNat = min lat 0xFFFF ∧
            (t.lane l).eng.nodes = (s.lane l).eng.nodes)))

/-- A commit that the other lane does not match for 1 µs raises LANE_DIFF (R180), and RA_CTL inhibits commits in its lane at
once and in the other one as a mirrored write (R179).
The time up to a due event passes as the model counts it (log entry 3). -/
def Sys2Proof.Claim.UnmatchedCommitsAndInhibition : Prop :=
  ∀ (s : State) (l : Lane) (c : Fin 8) (b : Fin 3),
    ((∀ x ∈ (s.lane l).ra.unmatched, x.1 ≠ c ∨ x.2.1 ≠ b) → exec (.laneDiff l c b) s = .next s) ∧
    (∀ (at0 : Nat) (rest : List (Fin 8 × Fin 3 × Nat)), (s.lane l).ra.unmatched = (c, b, at0) :: rest →
      ∃ t, exec (.laneDiff l c b) s = .next t ∧ (t.lane l).ra.unmatched = rest ∧
        (t.lane l).ra.laneDiff = satInc (s.lane l).ra.laneDiff ∧ t.now = max s.now (at0 + 400) ∧ Latched (.ra l) 4 t ∧
        Frame [lanePart l, .time, .events, .board] s t) ∧
    (∀ v : Word, (tsuOut s l).up = true → ∃ t, exec (.raCtlWrite l v) s = .next t ∧
      (t.lane l).ra = { (s.lane l).ra with inhibit := bit v 0 } ∧
      (tsuOut t l).queue = (tsuOut s l).queue ++ [.raCtl v] ∧ Frame [lanePart l, .claim] s t)

/-- Branches commit where armed; unmatched commits and inhibition. -/
def Obligations.BranchesCommitOrAreUnmatched : Prop :=
  Claim.BranchesCommitWhereArmed ∧
    Claim.UnmatchedCommitsAndInhibition

/-- A parameter in range is staged and mirrored, one outside it refused with PAR_REFUSED; the token makes every value
staged so far take effect together, in both lanes at the start of the same step, where a value the loop wrote wins (R208, R209). -/
def Sys2Proof.Claim.GridFormingParametersCommitTogether : Prop :=
  ∀ (s : State) (l : Lane),
    (∀ (n : Fin 17) (v : Word), (tsuOut s l).up = true →
      (gfRange n.val v = true → ∃ t, exec (.gfParamWrite l n v) s = .next t ∧ (t.lane l).gf.staged[n] = some v ∧
        (t.lane l).gf.par = (s.lane l).gf.par ∧ (tsuOut t l).queue = (tsuOut s l).queue ++ [.gfParam n v] ∧
        (∀ k : Fin 17, k ≠ n → (t.lane l).gf.staged[k] = (s.lane l).gf.staged[k]) ∧
        Frame [lanePart l, .claim] s t) ∧
      (gfRange n.val v = false → exec (.gfParamWrite l n v) s = .next (raise (.gf l) 0 s))) ∧
    (gfCtx s = none → exec (.gfCommit l) s = .next s) ∧
    (∀ c : Fin 8, gfCtx s = some c → (tsuOut s l).up = true → ∃ t, exec (.gfCommit l) s = .next t ∧
      (t.lane l).gf.tokens = (s.lane l).gf.tokens ++ [(pendTag c s, l, stagedVals (s.lane l).gf)] ∧
      (∀ n : Fin 17, (t.lane l).gf.staged[n] = none) ∧ (t.lane l).gf.par = (s.lane l).gf.par ∧
      (tsuOut t l).queue = (tsuOut s l).queue ++ [.gfCommit (stagedVals (s.lane l).gf)] ∧ Frame [lanePart l, .claim] s t) ∧
    (∀ (c : Fin 8) (k : Nat) (v : List (Nat × Word)) (w : Lane) (vals : List (Fin 17 × Word)), gfCtx s = some c →
      laneUp l s = true → preempted l c s = false →
      (s.lane l).eng.ctx[c].vec = some v → (s.lane l).eng.ctx[c].run = none → (s.lane l).eng.ctx[c].pend = [] →
      (s.lane l).gf.tokens = [(some k, w, vals)] → k ≤ (s.lane l).eng.ctx[c].stepNo →
      ∃ t, exec (.committedStepStart l c) s = .next t ∧ (t.lane l).gf.tokens = [] ∧
        (t.lane l).gf.staged = (s.lane l).gf.staged ∧
        (∀ n : Fin 17, 4 ≤ n.val → (t.lane l).gf.par[n] = (hostVal vals n).getD (s.lane l).gf.par[n]) ∧
        (∀ (n : Fin 4) (w : Word), (s.lane l).gf.loopVal[n] = some w → (t.lane l).gf.par[n.castLE (by decide : 4 ≤ 17)] = w))

/-- The grid states of R200, the synchronise criteria with their timeout, and the black start's end (R200 to R202, R211):
each lane that runs the block reports it, and the senior lane's trips follow the trip mask.
The time up to a due event passes as the model counts it (log entry 3). -/
def Sys2Proof.Claim.GridTimersReport : Prop :=
  ∀ (s : State) (l : Lane), l ∈ gfLanes s → seniorLane s = l → s.mode.busy = false →
    (∀ (present : Bool) (at0 : Nat), (if present then (s.lane l).gf.above else (s.lane l).gf.below) = some at0 →
      ∃ t, exec (.gridStateTimer present) s = .next t ∧ max s.now (at0 + 8000000) ≤ t.now ∧
        (if present then (t.lane l).gf.present else (t.lane l).gf.absent) = true ∧ t.events = s.events ∧
        Frame [.laneA, .laneB, .time] s t) ∧
    (∀ at0 : Nat, (s.lane l).gf.syncSince = some at0 → (s.lane l).gf.syncOk = false → ∃ t, exec .syncReached s = .next t ∧
      (t.lane l).gf.syncOk = true ∧ Latched (.gf l) 4 t ∧ t.mode = s.mode ∧
      max s.now (at0 + ticksOf (w32 (recD s 0x60 0) 100)) ≤ t.now) ∧
    (s.md = 6 → (s.lane l).gf.syncToSeen = false → ((s.lane l).gf.syncSet).any (fun n =>
        decide (n ≤ (s.lane l).gf.syncAt + ticksOf (w32 (recD s 0x60 0) 104))) = false → ∃ t, exec .syncTo s = .next t ∧
      Latched (.gf l) 5 t ∧ (t.lane l).gf.syncToSeen = true ∧
      (u8 (recD s 0x60 0) 19 / 8 % 2 = 1 → t.mode.busy = true ∧ t.mode.target = 3 ∧ t.mode.nextCause = 3) ∧
      (u8 (recD s 0x60 0) 19 / 8 % 2 = 0 → t.mode = s.mode)) ∧
    ((∀ x ∈ gfLanes s, (s.lane x).gf.syncToSeen = true) → exec .syncTo s = .next s) ∧
    (s.md = 5 → (s.lane l).gf.bsDone = false → ∃ t, exec .bsFail s = .next t ∧ Latched (.gf l) 3 t ∧
      t.mode.busy = true ∧ t.mode.target = 3 ∧ t.mode.nextCause = 3 ∧
      max s.now ((s.lane l).gf.bsAt + 2 * ticksOf (s.lane l).gf.par[16]) ≤ t.now) ∧
    ((∀ x ∈ gfLanes s, (s.lane x).gf.bsDone = true) → exec .bsFail s = .next s)

/-- Grid-forming parameters commit together; grid timers report. -/
def Obligations.GridFormingParametersAndTimers : Prop :=
  Claim.GridFormingParametersCommitTogether ∧
    Claim.GridTimersReport

/-- Grid loss leads M7 to M8, recovery leads M9 back to the mode it came from, and neither acts in another mode
(R204, R206).
The time up to a due event passes as the model counts it (log entry 3). -/
def Sys2Proof.Claim.GridLossAndRecoveryChangeTheMode : Prop :=
  ∀ (s : State) (l : Lane), l ∈ gfLanes s → seniorLane s = l → s.mode.busy = false →
    (s.md ≠ 7 → ∀ f : Bool, exec (.gridLoss f) s = .next s) ∧
    (s.md = 7 → (s.lane l).gf.bkrClosed = false → ∃ t, exec (.gridLoss false) s = .next t ∧ Latched (.gf l) 7 t ∧
      t.mode = { s.mode with busy := true, target := 8, nextCause := 2, nextEvt := 0 } ∧
      Frame [.mode, .events, .board] s t) ∧
    (s.md = 7 → (∀ x ∈ gfLanes s, (s.lane x).gf.bkrClosed = true) → exec (.gridLoss false) s = .next s) ∧
    (∀ at0 : Nat, s.md = 7 → (s.lane l).gf.islSince = some at0 → ∃ t, exec (.gridLoss true) s = .next t ∧
      Latched (.gf l) 7 t ∧ t.mode.busy = true ∧ t.mode.target = 8 ∧
      max s.now (at0 + ticksOf (w32 (recD s 0x60 0) 112)) ≤ t.now) ∧
    (s.md ≠ 9 → exec .rtRecover s = .next s) ∧
    (∀ at0 : Nat, s.md = 9 → (s.lane l).gf.recSince = some at0 → ∃ t, exec .rtRecover s = .next t ∧
      Latched (.gf l) 10 t ∧ t.mode = { s.mode with busy := true, target := s.mode.rideFrom, nextCause := 2, nextEvt := 0 } ∧
      max s.now (at0 + ticksOf (w32 (recD s 0x60 0) 124)) ≤ t.now ∧
      Frame [.mode, .laneA, .laneB, .time, .events, .board] s t)

/-- The 1 ms tick of the mode controller: the DC link's readiness, the breaker's feedback with CLOSE_UNSYNC, and the way from
M6 to M7 (R199, R203).
The time up to a due event passes as the model counts it (log entry 3). -/
def Sys2Proof.Claim.ModeControllerTicks : Prop :=
  ∀ (s : State) (l : Lane), (s.md < 3 → exec .modeCtrlTick s = .next s) ∧
    (3 ≤ s.md → l ∈ gfLanes s → seniorLane s = l → s.mode.busy = false →
      ∃ t, exec .modeCtrlTick s = .next t ∧ s.now ≤ t.now ∧
        (t.lane l).gf.dcReady = F32.le (w32 (recD s 0x60 0) 28) (s.lane l).gf.vdc ∧
        (t.lane l).gf.bkrClosed = diByNum (u8 (recD s 0x60 0) 17) s ∧
        (t.lane l).gf.sphHist = ((s.lane l).gf.sph :: (s.lane l).gf.sphHist).take 10 ∧
        (diByNum (u8 (recD s 0x60 0) 17) s = true → (s.lane l).gf.bkrClosed = false → s.md ≠ 6 →
          (s.lane l).gf.absent = false → Latched (.gf l) 6 t ∧ (4 ≤ s.md → s.md ≤ 10 → t.mode.busy = true ∧
            t.mode.target = 3 ∧ t.mode.nextCause = 3)) ∧
        (s.md = 6 → diByNum (u8 (recD s 0x60 0) 17) s = true → (t.lane l).gf.syncOk = true → t.mode.busy = true ∧
          (t.mode.target = 7 ∨ t.mode.target = 3)) ∧
        (diByNum (u8 (recD s 0x60 0) 17) s = false → u8 (recD s 0x60 0) 19 / 4 % 2 = 0 → t.mode = s.mode))

/-- Grid loss, recovery and the ticks of the mode controller. -/
def Obligations.GridLossAndModeTicks : Prop :=
  Claim.GridLossAndRecoveryChangeTheMode ∧
    Claim.ModeControllerTicks

/-- One PWM generator of a lane. -/
def Sys2Proof.Claim.genOf (l : Lane) (g : Fin 16) (s : State) : GenState := (s.lane l).pwm.gen[g]

/-- Host writes of PER and duty land in the shadow and are mirrored; a commit token takes each complete pair of its mask, or
refuses it as a split commit (R217, R218, R223); dead time and minimum pulse wait for the carrier boundary (R223). -/
def Sys2Proof.Claim.PwmShadowsCommitAsPairs : Prop :=
  ∀ (s : State) (l : Lane) (g : Fin 16) (x : GenState), x = Claim.genOf l g s → (tsuOut s l).up = true →
    (∀ v : Word, 2000 ≤ v.toNat → v.toNat ≤ 6666666 → ∃ t, exec (.pwmPerWrite l g v) s = .next t ∧
      Claim.genOf l g t = { x with stPer := some v.toNat } ∧
      (tsuOut t l).queue = (tsuOut s l).queue ++ [.pwmPer g v] ∧ Frame [lanePart l, .claim] s t) ∧
    (∀ v : Word, v.toNat < 2 ^ 29 → ∃ t, exec (.pwmDutyWrite l g v) s = .next t ∧
      Claim.genOf l g t = { x with stDuty := some (.steps v.toNat) } ∧
      (tsuOut t l).queue = (tsuOut s l).queue ++ [.pwmDuty g v] ∧ Frame [lanePart l, .claim] s t) ∧
    (∀ v : Word, (F32.isFinite v = true → ∃ t, exec (.pwmDutyfWrite l g v) s = .next t ∧
        Claim.genOf l g t = { x with stDuty := some (.frac v) } ∧
        (tsuOut t l).queue = (tsuOut s l).queue ++ [.pwmDutyf g v] ∧ Frame [lanePart l, .claim] s t) ∧
      (F32.isFinite v = false → exec (.pwmDutyfWrite l g v) s = .next (raise (.pwm l) 1 s))) ∧
    (∀ mask : Half, bit mask g.val = true → x.on = true → ∃ t, exec (.pwmCommit l mask) s = .next t ∧
      (tsuOut t l).queue = (tsuOut s l).queue ++ [.pwmCommit mask] ∧
      (∀ h : Fin 16, bit mask h.val = false → Claim.genOf l h t = Claim.genOf l h s) ∧
      (∀ d : DutyVal, x.stDuty = some d →
        2 * (x.dtNext.getD x.dt + x.minpNext.getD x.minp) ≤ 32 * x.stPer.getD x.accPer →
        Claim.genOf l g t = { x with
          pend := some (x.stPer.getD x.accPer, d), pendAt := s.now, accPer := x.stPer.getD x.accPer, stPer := none, stDuty := none,
          splitPend := false }) ∧
      (∀ n : Nat, x.stDuty = none → x.stPer = some n → Latched (.pwm l) 0 t ∧
        Claim.genOf l g t = { x with splitPend := true }) ∧
      (x.stDuty = none → x.stPer = none → Claim.genOf l g t = x) ∧
      Frame [lanePart l, .claim, .events, .board] s t) ∧
    (∀ (m : Master) (v : Word), m.toNat < 14 → s.key.session = true → s.key.owner = m → s.md = 3 →
      (v.toNat ≤ 128000 → 2 * (v.toNat + x.minpNext.getD x.minp) ≤ 32 * x.accPer →
        ∃ t, exec (.pwmDtWrite l g m v) s = .next t ∧ Claim.genOf l g t = { x with dtNext := some v.toNat } ∧
          Frame [lanePart l, .key] s t) ∧
      (v.toNat ≤ 25600 → 2 * (x.dtNext.getD x.dt + v.toNat) ≤ 32 * x.accPer →
        ∃ t, exec (.pwmMinpWrite l g m v) s = .next t ∧ Claim.genOf l g t = { x with minpNext := some v.toNat } ∧
          Frame [lanePart l, .key] s t) ∧
      (v.toNat ≤ 25600 → 32 * x.accPer < 2 * (x.dtNext.getD x.dt + v.toNat) →
        ∃ t, exec (.pwmMinpWrite l g m v) s = .next t ∧ Claim.genOf l g t = x ∧ Latched (.pwm l) 6 t))

/-- The short-pulse rules: CARRY keeps the volt-seconds, STRETCH gives both switches at least MINP, CLAMP-OFF keeps the
duty (R221). -/
def Sys2Proof.Claim.ShortPulsesKeepTheirPolicy : Prop :=
  ∀ (T dt minp : Nat) (d : Int), 2 * (dt + max minp 1) ≤ T →
    (((shortRules 0 T dt minp d).fall : Int) + (shortRules 0 T dt minp d).carry = d) ∧
    ((shortRules 1 T dt minp d).carry = 0 ∧ ((shortRules 1 T dt minp d).fall = 0 ∨ (shortRules 1 T dt minp d).fall = T ∨
      (dt + max minp 1 ≤ (shortRules 1 T dt minp d).fall ∧
        (shortRules 1 T dt minp d).fall + dt + max minp 1 ≤ T))) ∧
    ((shortRules 2 T dt minp d).carry = 0 ∧
      ((shortRules 2 T dt minp d).fall : Int) = (if d ≤ 0 then (0 : Int) else if (T : Int) ≤ d then (T : Int) else d))

/-- PWM shadows commit as pairs; short pulses keep their policy. -/
def Obligations.PulsesAreShapedPerPeriod : Prop :=
  Claim.PwmShadowsCommitAsPairs ∧
    Claim.ShortPulsesKeepTheirPolicy

/-- A carrier boundary ends the running period, takes the pending values, and blocks or computes the next period; a
generator that is blocked keeps both sides off (R215, R219, R221, R227).
The time up to a due event passes as the model counts it (log entry 3). -/
def Obligations.CarrierBoundariesComputeThePeriod : Prop :=
  ∀ (s : State) (l : Lane) (g : Fin 16) (x : GenState), x = Claim.genOf l g s →
    (x.on = false → exec (.carrierBoundary l g) s = .next s ∧ exec (.midPeriodUpdate l g) s = .next s) ∧
    (x.on = true → x.pend = none → x.perNext = none → x.dtNext = none → x.minpNext = none → x.errLeft = 0 → x.fresh = false →
      x.duty ≤ 32 * x.per →
      ∃ t, exec (.carrierBoundary l g) s = .next t ∧ t.now = max s.now (x.start + periodLen x) ∧
        (Claim.genOf l g t).start = x.start + periodLen x ∧ (Claim.genOf l g t).per = x.per ∧
        (Claim.genOf l g t).duty = x.duty ∧
        (∀ h : Fin 16, h ≠ g → Claim.genOf l h t = Claim.genOf l h s) ∧
        ((Claim.genOf l g t).block = blockReason s g) ∧
        (blockReason s g ≠ 0 → (Claim.genOf l g t).hOff = true ∧ (Claim.genOf l g t).lOff = true ∧
          (Claim.genOf l g t).carry = 0 ∧ (Claim.genOf l g t).refill = false) ∧
        (blockReason s g = 0 → (genRec g s).refillEn = false →
          (Claim.genOf l g t).rFall = (shortRules (genRec g s).policy (32 * x.per) x.dt x.minp
            ((x.duty : Int) + x.carry - x.acc)).fall ∧
          (Claim.genOf l g t).carry = (shortRules (genRec g s).policy (32 * x.per) x.dt x.minp
            ((x.duty : Int) + x.carry - x.acc)).carry) ∧
        Frame [lanePart l, .claim, .time, .events, .board, .gate] s t) ∧
    (∀ p d : Nat, x.on = true → x.pend = some (p, .steps d) → d ≤ 32 * p → ∃ t,
      exec (.carrierBoundary l g) s = .next t ∧ (Claim.genOf l g t).per = p ∧
        (Claim.genOf l g t).duty = d ∧ (Claim.genOf l g t).pend = none) ∧
    (∀ p d : Nat, x.on = true → x.pend = some (p, .steps d) → d ≤ 32 * p → (genRec g s).upd = true → x.refill = false →
      x.pendAt ≤ x.start + x.per / 2 → ∃ t, exec (.midPeriodUpdate l g) s = .next t ∧ t.now = max s.now (x.start + x.per / 2) ∧
        (Claim.genOf l g t).duty = d ∧ (Claim.genOf l g t).perNext = some p ∧
        (Claim.genOf l g t).pend = none ∧ (Claim.genOf l g t).start = x.start) ∧
    (x.on = true → (genRec g s).upd = false → ∃ t, exec (.midPeriodUpdate l g) s = .next t ∧
      Claim.genOf l g t = x ∧ Frame [.time] s t)

/-- Fault sources and flag groups: a source that asserts holds its groups, latches them where its entry says so and blocks
the generators of each group at once; it releases a latch only by FG_CLR and only while no source of the group is active;
FLTIN follows its two levels after its filter (R28, R227 to R229). -/
def Obligations.FaultSourcesHoldTheirGroups : Prop :=
  ∀ (s : State) (src : Fin 104) (k : Fin 4),
    (src.val ∈ s.gate.fg.active → exec (.faultSourceChange src true) s = .next s) ∧
    (src.val ∉ s.gate.fg.active → exec (.faultSourceChange src false) s = .next s) ∧
    (∀ v : Bool, sourceHolds src.val s ≠ v → exec (.faultSourceChange src v) s = .next s) ∧
    (src.val ∈ s.gate.fg.active → sourceHolds src.val s = false →
      ∃ t, exec (.faultSourceChange src false) s = .next t ∧ src.val ∉ t.gate.fg.active ∧
      t.gate.fg.latched = s.gate.fg.latched ∧ t.gate.fg.first = s.gate.fg.first ∧ Frame [.gate] s t) ∧
    (∀ (n : Nat) (latch trip : Bool), src.val ∉ s.gate.fg.active → sourceHolds src.val s = true →
      srcEntry src.val s = some (n, latch, trip) →
      n / 2 ^ k.val % 2 = 1 → ∃ t, exec (.faultSourceChange src true) s = .next t ∧
        t.gate.fg.active = s.gate.fg.active ++ [src.val] ∧ groupActive t k.val = true ∧
        (latch = true → bit t.gate.fg.latched k.val = true) ∧
        (latch = false → t.gate.fg.latched = s.gate.fg.latched) ∧
        (groupActive s k.val = false → t.gate.fg.first[k] = BitVec.ofNat 8 src.val ∧ Latched (.pwm .a) 5 t ∧
          Latched (.pwm .b) 5 t) ∧
        (groupActive s k.val = true → t.gate.fg.first[k] = s.gate.fg.first[k]) ∧
        (∀ (l : Lane) (g : Fin 16), u16 (recD s 0x50 0) (20 + 4 * k.val) / 2 ^ g.val % 2 = 1 →
          (t.lane l).pwm.gen[g].block ≠ 0 ∧ (t.lane l).pwm.gen[g].hOff = true ∧
          (t.lane l).pwm.gen[g].lOff = true) ∧
        (trip = true → inRun s = true → s.mode.busy = false → t.mode.busy = true ∧ t.mode.target = 3 ∧
          t.mode.nextCause = 3)) ∧
    (∀ l : Lane, ∃ t, exec (.fgClr l (BitVec.ofNat 4 (2 ^ k.val))) s = .next t ∧
      t.gate.fg.active = s.gate.fg.active ∧ t.gate.fg.first = s.gate.fg.first ∧
      ((∀ n ∈ s.gate.fg.active, ∀ e : Nat × Bool × Bool, srcEntry n s = some e → e.1 / 2 ^ k.val % 2 = 0) →
        bit t.gate.fg.latched k.val = false) ∧
      ((∃ n ∈ s.gate.fg.active, ∃ e, srcEntry n s = some e ∧ e.1 / 2 ^ k.val % 2 = 1) →
        t.gate.fg.latched = s.gate.fg.latched) ∧
      (∀ j : Fin 4, j ≠ k → bit t.gate.fg.latched j.val = bit s.gate.fg.latched j.val) ∧ Frame [.gate] s t) ∧
    (∀ (mv : Int) (hold : Nat), (hold < 25 * max 4 (u8 (recD s 0x50 0) (16 + k.val)) ∨ (800 < mv ∧ mv < 2000) →
        exec (.fltinChange k mv hold) s = .next s) ∧
      (25 * max 4 (u8 (recD s 0x50 0) (16 + k.val)) ≤ hold → mv ≤ 800 → ∃ t, exec (.fltinChange k mv hold) s = .next t ∧
        k.val ∈ t.gate.fg.active ∧ bit t.gate.fg.healthy k.val = false) ∧
      (25 * max 4 (u8 (recD s 0x50 0) (16 + k.val)) ≤ hold → 2000 ≤ mv → ∃ t, exec (.fltinChange k mv hold) s = .next t ∧
        k.val ∉ t.gate.fg.active ∧ bit t.gate.fg.healthy k.val = true ∧ t.gate.fg.latched = s.gate.fg.latched ∧
        Frame [.gate] s t))

/-- One gate channel. -/
def Sys2Proof.Claim.chOf (c : Fin 32) (s : State) : Channel := s.gate.ch[c]

/-- The current estimate of a channel after its sense voltage was integrated, and the instant up to which it then is. -/
def Sys2Proof.Claim.estAfter (c : Fin 32) (v : List (Int × Nat)) (s : State) : Int :=
  v.foldl (estStep (chanRec c s).ls) (s.gate.ch[c]).est

def Sys2Proof.Claim.senseEnd (c : Fin 32) (v : List (Int × Nat)) (s : State) : Nat :=
  (s.gate.ch[c]).estAt + (v.foldl (fun n e => n + e.2) 0) * 2 / 5

/-- The edge that a channel takes next starts its blanking and its integrator, and a judged charge inside the window clears
the run of bad ones, while a rail that the charge takes below its block level blocks the channel (R237, R238, R239, R245); blanking lasts BLANK (R239); a detection path trips into the soft turn-off: the
hard limit always, the comparator and the estimate only after blanking, an estimate above I_SC at its end at once (R238 to
R241). The time up to a due event passes as the model counts it (log entry 3), and a judged pulse that runs past the carrier
boundary counts up to it (log entry 72). -/
def Sys2Proof.Claim.GatesBlankAndTrip : Prop :=
  ∀ (s : State) (c : Fin 32) (x : Channel), x = Claim.chOf c s →
    (∀ (q : Nat) (pv : Int), dueEdge c s = none → exec (.gateTurnOn c q pv) s = .next s) ∧
    (∀ (q : Nat) (pv : Int) (e : Nat × Option Nat), dueEdge c s = some e → hasRec s 0x52 c.val = true →
      x.lowPos = false → x.lowNeg = false → x.negMv ≤ -3500 →
      (16000 ≤ pv → x.state = 2 → judges c e s = false →
        ∃ t, exec (.gateTurnOn c q pv) s = .next t ∧ t.now = max s.now e.1 ∧ Claim.chOf c t = { x with
          blanking := true, onUntil := e.2, onAt := max s.now e.1, edgeAt := e.1, est := 0, estAt := max s.now e.1,
          posMv := pv, warnPos := false, warnNeg := false, boot := false } ∧ Frame [.gate, .time] s t) ∧
      (14500 ≤ pv → x.state = 6 → judges c e s = false → ∃ t, exec (.gateTurnOn c q pv) s = .next t ∧
        (Claim.chOf c t).state = 2 ∧ (Claim.chOf c t).blanking = true ∧ 64 + c.val ∉ t.gate.fg.active) ∧
      (16000 ≤ pv → x.state = 2 → judges c e s = true → q < 65536 → (chanRec c s).qgMin ≤ q → q ≤ (chanRec c s).qgMax →
        ∃ t, exec (.gateTurnOn c q pv) s = .next t ∧ t.now = max s.now e.1 ∧ Claim.chOf c t = { x with
          blanking := true, onUntil := e.2, onAt := max s.now e.1, edgeAt := e.1, est := 0, estAt := max s.now e.1,
          qg := BitVec.ofNat 16 q, ogRun := 0, posMv := pv, warnPos := false, warnNeg := false, boot := false } ∧
          Frame [.gate, .time] s t) ∧
      (pv < 14500 → x.state = 2 → judges c e s = false → ∃ t, exec (.gateTurnOn c q pv) s = .next t ∧
        (Claim.chOf c t).state = 6 ∧ (Claim.chOf c t).cause = 6 ∧ (Claim.chOf c t).lowPos = true ∧
        Latched .gch 7 t ∧ 64 + c.val ∈ t.gate.fg.active) ∧
      (x.state = 2 → judges c e s = true → q < (chanRec c s).qgMin →
        (chanRec c s).ogCnt ≤ (satInc x.ogRun).toNat → ∃ t, exec (.gateTurnOn c q pv) s = .next t ∧ Latched .gch 3 t)) ∧
    (x.blanking = false → ∀ v : List (Int × Nat), exec (.blankEnd c v) s = .next s) ∧
    (∀ v : List (Int × Nat), x.blanking = true → Claim.estAfter c v s ≤ (chanRec c s).iSc * 65536 →
      ∃ t, exec (.blankEnd c v) s = .next t ∧
        t.now = max (max s.now (Claim.senseEnd c v s)) (x.onAt + (chanRec c s).blank * 2 / 5) ∧
        Claim.chOf c t = { x with
          blanking := false, est := Claim.estAfter c v s, estAt := Claim.senseEnd c v s } ∧
        Frame [.gate, .time] s t) ∧
    (∀ (v : List (Int × Nat)) (mv : Int) (B T : Nat) (cmd : Instr) (cause : Fin 7), B = x.onAt + (chanRec c s).blank * 2 / 5 →
      x.state = 2 → cmdAllowed c s = true → x.onUntil.all (fun u => decide (T < u)) = true →
      (cmd = .blankEnd c v ∧ cause = 2 ∧ T = max (max s.now (Claim.senseEnd c v s)) B ∧ x.blanking = true ∧
        (chanRec c s).iSc * 65536 < Claim.estAfter c v s) ∨
      (T = max s.now (Claim.senseEnd c v s) ∧
        ((cmd = .scTrip c .comparator v mv ∧ cause = 1 ∧ (x.blanking = false ∨ B ≤ T) ∧
            ((chanRec c s).scVth : Int) < mv) ∨
          (cmd = .scTrip c .estimate v mv ∧ cause = 2 ∧ (x.blanking = false ∨ B ≤ T) ∧
            (chanRec c s).iSc * 65536 < Claim.estAfter c v s) ∨
          (cmd = .scTrip c .hard v mv ∧ cause = 3 ∧ (chanRec c s).iHard * 65536 < Claim.estAfter c v s))) →
      ∃ t, exec cmd s = .next t ∧ (Claim.chOf c t).state = 3 ∧ (Claim.chOf c t).cause = cause ∧
        (Claim.chOf c t).trips = satInc x.trips ∧
        (Claim.chOf c t).onUntil.any (fun u => decide (u ≤ t.now)) = true ∧
        (Claim.chOf c t).blanking = false ∧ Latched .gch 0 t ∧ 64 + c.val ∈ t.gate.fg.active ∧
        T + (chanRec c s).softT * 2 / 5 ≤ (Claim.chOf c t).softEnd ∧
        (Claim.chOf c t).softEnd ≤ T + 48 + (chanRec c s).softT * 2 / 5 ∧
        (∃ e, t.gate.faults.getLast? = some e ∧ c ∈ e.chans) ∧ t.now = T) ∧
    (∀ (v : List (Int × Nat)) (mv : Int), x.state = 2 → gateOn s c = true → x.blanking = true →
      max s.now (Claim.senseEnd c v s) < x.onAt + (chanRec c s).blank * 2 / 5 →
      ∃ t, exec (.scTrip c .comparator v mv) s = .next t ∧ exec (.scTrip c .estimate v mv) s = .next t ∧
        Claim.chOf c t = { x with est := Claim.estAfter c v s, estAt := Claim.senseEnd c v s } ∧
        Frame [.gate, .time] s t) ∧
    (∀ (p : TripPath) (v : List (Int × Nat)) (mv : Int), takesTrip c s = false → exec (.scTrip c p v mv) s = .next s)

/-- The soft turn-off ends in the retry wait, or latched after more events than RT_MAX; the wait re-arms the channel; an
event closes 10 µs after its start (R240 to R243).
The time up to a due event passes as the model counts it (log entry 3). -/
def Sys2Proof.Claim.SoftTurnOffsRetryOrLatch : Prop :=
  ∀ (s : State) (c : Fin 32) (x : Channel), x = Claim.chOf c s →
    (x.state ≠ 3 → exec (.softOffEnd c) s = .next s) ∧
    (x.state = 3 → x.cause ≠ 4 → 64 + c.val ∈ s.gate.fg.active → (∀ k : Nat, (x.events.filter fun t =>
        decide (max s.now x.softEnd < t + 24000000000)).length = k →
      (k ≤ (chanRec c s).rtMax → ∃ t, exec (.softOffEnd c) s = .next t ∧ (Claim.chOf c t).state = 4 ∧
        t.now = max s.now x.softEnd ∧ t.mode = s.mode ∧ t.events = s.events ∧
        (∀ d : Fin 32, d ≠ c → Claim.chOf d t = Claim.chOf d s)) ∧
      ((chanRec c s).rtMax < k → ∃ t, exec (.softOffEnd c) s = .next t ∧ (Claim.chOf c t).state = 5 ∧
        Latched .gch 1 t ∧ (inRun s = true → s.mode.busy = false → t.mode.busy = true ∧ t.mode.target = 3 ∧
          t.mode.nextCause = 3)))) ∧
    (∀ e : FaultEvent, s.gate.faults = [e] →
      (e.closed = false → ∃ t, exec .faultEventClose s = .next t ∧ t.gate.faults = [{ e with closed := true }] ∧
        t.now = max s.now (e.start + 4000) ∧ t.gate.ch = s.gate.ch ∧ Frame [.gate, .time] s t) ∧
      (e.closed = true → exec .faultEventClose s = .next s) ∧
      (e.waitEnd = none → exec .retryWaitEnd s = .next s) ∧
      (∀ at0 : Nat, e.waitEnd = some at0 → e.chans = [c] → x.state = 4 → hasRec s 0x52 c.val = true →
        x.lowPos = false → x.lowNeg = false → (x.events.filter fun t =>
          decide (max s.now at0 < t + 24000000000)).length ≤ (chanRec c s).rtMax →
        ∃ t, exec .retryWaitEnd s = .next t ∧ (Claim.chOf c t).state = 2 ∧ t.gate.faults = [] ∧ Latched .gch 2 t ∧
          t.now = max s.now at0 ∧ 64 + c.val ∉ t.gate.fg.active))

/-- Gate channels blank, trip, turn off softly, retry or latch. -/
def Obligations.GateChannelsTripAndRetry : Prop :=
  Claim.GatesBlankAndTrip ∧
    Claim.SoftTurnOffsRetryOrLatch

/-- The rails of a channel warn and block with their hysteresis, and the telemetry is renewed every 100 µs (R237, R249).
The time up to a due event passes as the model counts it (log entry 3). -/
def Sys2Proof.Claim.RailsWarnAndBlock : Prop :=
  ∀ (s : State) (c : Fin 32) (x : Channel) (pos neg : Int), x = Claim.chOf c s →
    (hasRec s 0x52 c.val = false → exec (.railCrossing c pos neg) s = .next s) ∧
    (hasRec s 0x52 c.val = true → x.state = 2 → x.lowPos = false → x.lowNeg = false → x.warnPos = false →
      x.warnNeg = false →
      (16000 ≤ pos → neg ≤ -3500 → ∃ t, exec (.railCrossing c pos neg) s = .next t ∧
        Claim.chOf c t = { x with posMv := pos, negMv := neg, boot := false } ∧ Frame [.gate] s t) ∧
      (14500 ≤ pos → pos < 16000 → neg ≤ -3500 → ∃ t, exec (.railCrossing c pos neg) s = .next t ∧
        (Claim.chOf c t).state = 2 ∧ (Claim.chOf c t).warnPos = true ∧ Latched .gch 6 t ∧
        bit (eventsOf .gch t) 7 = bit (eventsOf .gch s) 7) ∧
      (pos < 14500 ∨ -2500 < neg → ∃ t, exec (.railCrossing c pos neg) s = .next t ∧
        (Claim.chOf c t).state = 6 ∧ (Claim.chOf c t).cause = 6 ∧ Latched .gch 6 t ∧ Latched .gch 7 t ∧
        (Claim.chOf c t).onUntil.any (fun u => decide (u ≤ s.now)) = true ∧ 64 + c.val ∈ t.gate.fg.active)) ∧
    (hasRec s 0x52 c.val = true → x.state = 6 → x.lowPos = true → pos ≤ 15500 →
      ∃ t, exec (.railCrossing c pos neg) s = .next t ∧ (Claim.chOf c t).state = 6 ∧
        (Claim.chOf c t).lowPos = true) ∧
    (hasRec s 0x52 c.val = true → x.state = 6 → x.boot = true → 15500 < pos → neg < -3000 →
      ∃ t, exec (.railCrossing c pos neg) s = .next t ∧ (Claim.chOf c t).state = 2 ∧
        (Claim.chOf c t).boot = false ∧ 64 + c.val ∉ t.gate.fg.active) ∧
    (∀ ps ns : List Int, ∃ t, exec (.channelTelemetry ps ns) s = .next t ∧ s.now ≤ t.now ∧
      (Claim.chOf c t) = { x with
        repPos := BitVec.ofInt 16 (ps.getD c.val 0 / 10), repNeg := BitVec.ofInt 16 (ns.getD c.val 0 / 10),
        repA := x.tripA, repQg := x.qg } ∧
      t.gate.faults = s.gate.faults ∧ t.gate.fg = s.gate.fg ∧ Frame [.gate, .time] s t)

/-- A stage is tested in M3, replaced by its spare in an off-time of 200 ns within 50 ns, and a latch released in M3 or M11 after the
self-test that its cause requires (R244, R246, R247). -/
def Sys2Proof.Claim.GateStagesAreTestedAndReplaced : Prop :=
  ∀ (s : State) (c : Fin 32) (x : Channel), x = Claim.chOf c s →
    (∀ n : Nat, x.swapPend = none ∨ gateOn s c = true → exec (.stageSwap c n) s = .next s) ∧
    (∀ (n : Nat) (p : Nat × Nat) (e : Nat × Option Nat), x.swapPend = some p → dueEdge c s = some e →
      e.1 < x.onUntil.getD s.now + 80 → exec (.stageSwap c n) s = .next s) ∧
    (∀ (n : Nat) (p : Nat × Nat), x.swapPend = some p → gateOn s c = false →
      (dueEdge c s).all (fun e => decide (x.onUntil.getD s.now + 80 ≤ e.1)) = true →
      (x.spare = false → ∃ t, exec (.stageSwap c n) s = .next t ∧ (Claim.chOf c t).spare = true ∧
        (Claim.chOf c t).swapPend = none ∧ (Claim.chOf c t).state = x.state ∧ Latched .gch 4 t ∧
        t.now = max s.now (x.onUntil.getD s.now + 80) + min n 50 * 2 / 5 ∧ Frame [.gate, .wear, .events, .board, .time] s t) ∧
      (x.spare = true → ∃ t, exec (.stageSwap c n) s = .next t ∧
        (Claim.chOf c t).state = 5 ∧ (Claim.chOf c t).cause = 5 ∧ Latched .gch 5 t ∧ Latched .gch 1 t)) ∧
    (s.gate.sel.toNat = c.val →
      (s.md ≠ 3 → exec .gchSelftest s = .next s) ∧
      (s.md = 3 → powered s c = true → hasRec s 0x52 c.val = true → ∃ t, exec .gchSelftest s = .next t ∧
        Claim.chOf c t = { x with selfTest := true } ∧ Frame [.gate] s t) ∧
      (∀ p q sn : Nat, s.md ≠ 3 → s.md ≠ 11 → exec (.gchClear (p, q) sn) s = .next s) ∧
      (s.md = 3 ∨ s.md = 11 → x.state = 5 → 64 + c.val ∈ s.gate.fg.active → hasRec s 0x52 c.val = true →
        x.lowPos = false → x.lowNeg = false → x.onUntil.any (fun u => decide (u ≤ s.now)) = true →
        (∀ p q sn : Nat, x.cause ≠ 4 → x.cause ≠ 5 → ∃ t, exec (.gchClear (p, q) sn) s = .next t ∧
          Claim.chOf c t = { x with
            state := 2, events := [], ogRun := 0, swapPend := none, edgeAt := max x.edgeAt s.now } ∧
          64 + c.val ∉ t.gate.fg.active ∧ Frame [.gate] s t) ∧
        (∀ p q sn : Nat, x.cause = 4 ∨ x.cause = 5 → (2000 < p ∧ 2000 < q) ∨ 100 < sn →
          exec (.gchClear (p, q) sn) s = .next (raise .gch 8 s)) ∧
        (∀ p q sn : Nat, x.cause = 4 ∨ x.cause = 5 → p ≤ 2000 → q ≤ 2000 → sn ≤ 100 →
          ∃ t, exec (.gchClear (p, q) sn) s = .next t ∧ (Claim.chOf c t).state = 2 ∧
          (Claim.chOf c t).spare = x.spare))) ∧
    (∀ p q sn : Nat, x.selfTest = false → exec (.selftestDone c p q sn) s = .next s) ∧
    (∀ p q sn : Nat, x.selfTest = true → p ≤ 2000 → q ≤ 2000 → sn ≤ 100 →
      ∃ t, exec (.selftestDone c p q sn) s = .next t ∧ Claim.chOf c t = { x with selfTest := false } ∧
        Frame [.gate] s t) ∧
    (∀ p q sn : Nat, x.selfTest = true → x.state ≠ 5 → 2000 < p → q ≤ 2000 → sn ≤ 100 → x.spare = false →
      ∃ t, exec (.selftestDone c p q sn) s = .next t ∧ (Claim.chOf c t).swapPend = some (1, p) ∧
        (Claim.chOf c t).state = x.state ∧ Latched .gch 8 t)

/-- Gate rails, self-tests and spare stages. -/
def Obligations.GateRailsAndStages : Prop :=
  Claim.RailsWarnAndBlock ∧
    Claim.GateStagesAreTestedAndReplaced

/-- A lane fault drops the claim to 0x00 with its cause and pennant, the fourth within 600 s parks the lane, OFFLINE counts
no fault and needs a lane to carry on, and an absent lane takes none (R253, R264, R267). -/
def Sys2Proof.Claim.LaneFaultsDropTheClaim : Prop :=
  ∀ (s : State) (l : Lane) (cause : Fin 10),
    ((s.lc l).health = .absent → exec (.laneFault l cause) s = .next s) ∧
    ((s.lc l).health = .healthy → (s.lc (otherLane l)).health = .healthy →
      (cause.val ≠ 0 → cause.val ≠ 9 → ((s.lc l).faults.filter fun t => decide (s.now < t + 240000000000)).length < 3 →
        ∃ t, exec (.laneFault l cause) s = .next t ∧ (t.lc l).claim = 0 ∧ (t.lc l).health = .faulted ∧
          (t.lc l).cause.toNat = cause.val ∧ s.now ∈ (t.lc l).faults ∧ Latched .clm (1 + if l = .a then 0 else 1) t ∧
          t.lc (otherLane l) = s.lc (otherLane l) ∧ t.claim.tum = s.claim.tum ∧ Frame [.claim, .events, .board] s t) ∧
      (cause.val ≠ 0 → cause.val ≠ 9 → 3 ≤ ((s.lc l).faults.filter fun t => decide (s.now < t + 240000000000)).length →
        ∃ t, exec (.laneFault l cause) s = .next t ∧ (t.lc l).claim = 0 ∧ (t.lc l).health = .parked ∧ Latched .clm 8 t) ∧
      (∀ key : Half, (key = 0x434C → 0x40 ≤ (s.lc (otherLane l)).claim.toNat → ∃ t, exec (.offline key l) s = .next t ∧
          (t.lc l).claim = 0 ∧ (t.lc l).offline = true ∧ (t.lc l).cause = 9 ∧ (t.lc l).faults = (s.lc l).faults ∧
          Frame [.claim, .events, .board] s t) ∧
        (key ≠ 0x434C ∨ (s.lc (otherLane l)).claim.toNat < 0x40 →
          exec (.offline key l) s = .next (raise .clm 13 s))))

/-- Recovery: self-check, mirror, match on three steps of every context, and the claim of 0x40; RECOVER releases a parked or
offline lane, and the keyed commands refuse a wrong key (R262 to R264, R267).
The time up to a due event passes as the model counts it (log entry 3). -/
def Sys2Proof.Claim.LanesRecoverInThreePhases : Prop :=
  ∀ (s : State) (l : Lane),
    ((s.lc l).health = .faulted → (s.lc l).offline = false → mayRecover l s = true →
      ∃ t, exec (.recoveryStart l) s = .next t ∧ t.lc l = { s.lc l with
        health := .selfCheck, checkAt := s.now, mirrored := 0 } ∧ Frame [.claim] s t) ∧
    ((s.lc l).health ≠ .faulted ∨ (s.lc l).offline = true ∨ mayRecover l s = false →
      exec (.recoveryStart l) s = .next s) ∧
    (∀ failed : List (Fin 18), (s.lc l).health = .selfCheck →
      ((s.lc (otherLane l)).claim ≠ 0 → (∃ c : Fin 8, hasRec s 0x40 c.val = true) →
        ∃ t, exec (.selfCheckDone ⟨l, failed⟩) s = .next t ∧ (t.lc l).health = .mirror ∧
          t.now = max s.now ((s.lc l).checkAt + 800000) ∧ (∀ u ∈ failed, u ∈ (t.lane l).eng.fmaLost) ∧
          Frame [.claim, .time, lanePart l, .wear, .events, .board] s t) ∧
      ((s.lc (otherLane l)).claim = 0 → s.md ≠ 3 → s.md ≠ 11 →
        ∃ t, exec (.selfCheckDone ⟨l, failed⟩) s = .next t ∧ (t.lc l).health = .selfCheck ∧
          (∀ u ∈ failed, u ∈ (t.lane l).eng.fmaLost) ∧ Frame [.time, lanePart l, .wear, .events, .board] s t) ∧
      ((s.lc (otherLane l)).claim = 0 → s.md = 3 → (∃ c : Fin 8, hasRec s 0x40 c.val = true) → hasRec s 0x60 0 = true →
        ∃ t, exec (.selfCheckDone ⟨l, failed⟩) s = .next t ∧ (t.lc l).health = .matching ∧
          ∀ i : Fin 17, (t.lane l).gf.par[i] = w32 (recD s 0x60 0) (32 + 4 * i.val))) ∧
    (∀ (c : Fin 8) (g : Graph), graphOf c s = some g → (s.lc l).health = .mirror → tsuUp s = true →
      (∃ d : Fin 8, d ≠ c ∧ hasRec s 0x40 d.val = true ∧ bit (s.lc l).mirrored d.val = false) →
      ∃ t, exec (.mirrorReceived l c) s = .next t ∧ (t.lc l).health = .mirror ∧ bit (t.lc l).mirrored c.val = true ∧
        (t.lane l).gf.par = (s.lane (otherLane l)).gf.par ∧
        (∀ g : Fin 16, (t.lane l).pwm.gen[g].duty = (s.lane (otherLane l)).pwm.gen[g].duty ∧
          (t.lane l).pwm.gen[g].carry = (s.lane (otherLane l)).pwm.gen[g].carry) ∧
        t.lane (otherLane l) = s.lane (otherLane l) ∧ Frame [.claim, lanePart l] s t) ∧
    (∀ key : Half, ((s.lc l).health = .parked → key = 0x434C → mayRecover l s = true →
        ∃ t, exec (.recover key l) s = .next t ∧ (t.lc l).health = .selfCheck ∧ (t.lc l).offline = false) ∧
      (key ≠ 0x434C ∨ (s.lc l).health = .healthy → exec (.recover key l) s = .next (raise .clm 13 s)))

/-- Lane faults drop the claim; lanes recover in three phases. -/
def Obligations.LaneFaultsAndRecovery : Prop :=
  Claim.LaneFaultsDropTheClaim ∧
    Claim.LanesRecoverInThreePhases

/-- Step signatures and timebases are compared between two healthy lanes: equal signatures change nothing but the list, a
divergence and a timebase beyond 2.5 ns fault the junior lane on causes 5 and 7 (R254, R255); in the match phase the third
equal signature of consecutive steps of the one context recovers the lane, and a gap or a difference starts the count anew
(R262). -/
def Sys2Proof.Claim.DivergenceFaultsTheJuniorLane : Prop :=
  ∀ (s : State) (l : Lane) (c : Fin 8) (n : Nat) (own sig : Word), (s.lc l).sigs = [(c, n, own)] →
    ((∀ x : Lane, (s.lc x).health = .healthy) →
      (own = sig → ∃ t, exec (.signatureReceived l c n sig) s = .next t ∧ (t.lc l).sigs = [] ∧
        (t.lc l).claim = (s.lc l).claim ∧ t.events = s.events ∧ Frame [.claim] s t) ∧
      (own ≠ sig → ∃ t, exec (.signatureReceived l c n sig) s = .next t ∧ Latched .clm 9 t ∧
        (t.lc (otherLane (seniorLane s))).claim = 0 ∧ (t.lc (otherLane (seniorLane s))).cause = 5 ∧
        (t.lc (seniorLane s)).claim = (s.lc (seniorLane s)).claim) ∧
      (∀ e : Int, e.natAbs ≤ 6 → ∃ t, exec (.timebaseCompare e) s = .next t ∧ t.events = s.events ∧
        t.claim.skewErr = BitVec.ofInt 16 e ∧ (t.lc l).claim = (s.lc l).claim ∧ Frame [.claim, .time] s t) ∧
      (∀ e : Int, 7 ≤ e.natAbs → e.natAbs ≤ 32 → ∃ t, exec (.timebaseCompare e) s = .next t ∧ Latched .clm 10 t ∧
        ∀ x : Lane, (t.lc x).claim = (s.lc x).claim) ∧
      (∀ e : Int, 32 < e.natAbs → ∃ t, exec (.timebaseCompare e) s = .next t ∧ Latched .clm 10 t ∧
        (t.lc (otherLane (seniorLane s))).claim = 0 ∧ (t.lc (otherLane (seniorLane s))).cause = 7)) ∧
    ((s.lc l).health = .matching → (s.lc (otherLane l)).health = .healthy →
      (∀ d : Fin 8, hasRec s 0x40 d.val = true ↔ d = c) →
      ((s.lc l).matched[c] = 2 → n = (s.lc l).lastMatch[c] + 1 → own = sig →
        ∃ t, exec (.signatureReceived l c n sig) s = .next t ∧ (t.lc l).claim = 0x40 ∧
          (t.lc l).health = .healthy ∧ Latched .clm 7 t) ∧
      (n ≠ (s.lc l).lastMatch[c] + 1 → own = sig → ∃ t, exec (.signatureReceived l c n sig) s = .next t ∧
        (t.lc l).matched[c] = 1 ∧ (t.lc l).lastMatch[c] = n ∧ (t.lc l).health = .matching ∧ Frame [.claim] s t) ∧
      (own ≠ sig → ∃ t, exec (.signatureReceived l c n sig) s = .next t ∧
        (t.lc l).matched[c] = 0 ∧ (t.lc l).health = .matching ∧ Frame [.claim] s t))

/-- The Tsuin link: a serial lane that fails gives way to the spare, fewer than four working lanes take the channel down and
fault the junior lane, and retraining brings a channel with four of them back (R257, R258). -/
def Sys2Proof.Claim.TsuinLanesSwapAndRetrain : Prop :=
  ∀ (s : State) (toB : Bool) (k : Fin 5) (ch : Lane), ch = (if toB then .a else .b) →
    (bit (tsuOut s ch).good k.val = false → ∀ (b : Bool) (n : Nat), exec (.tsuinSwap toB k b n) s = .next s) ∧
    (∀ n : Nat, n < 16 → exec (.tsuinSwap toB k false n) s = .next s) ∧
    (∀ (lost : Bool) (n : Nat), (lost = true ∨ 16 ≤ n) → (tsuOut s ch).good = 0x1F →
      (k.val < 4 → (tsuOut s ch).spareUsed = false → ∃ t, exec (.tsuinSwap toB k lost n) s = .next t ∧
        bit (tsuOut t ch).good k.val = false ∧ (tsuOut t ch).spareUsed = true ∧ (tsuOut t ch).up = (tsuOut s ch).up ∧
        (tsuOut t ch).queue = (tsuOut s ch).queue ∧ Latched .clm 11 t ∧ Frame [.claim, .wear, .events, .board] s t)) ∧
    (∀ n : Nat, k.val < 4 → (tsuOut s ch).good = 0x0F → (tsuOut s ch).up = true →
      (∀ x : Lane, (s.lc x).health = .healthy) → ∃ t, exec (.tsuinSwap toB k true n) s = .next t ∧
        (tsuOut t ch).up = false ∧ (tsuOut t ch).queue = [] ∧ Latched .clm 12 t ∧
        (t.lc (otherLane (seniorLane s))).claim = 0 ∧ (t.lc (otherLane (seniorLane s))).cause = 6) ∧
    (tsuOnRing s = true ∨ laneLocked s .a = false ∨ laneLocked s .b = false → exec .tsuinRetrained s = .next s) ∧
    (tsuOnRing s = false → (∀ x : Lane, laneLocked s x = true ∧ laneUp x s = true) → (tsuOut s ch).good = 0x0F →
      ∃ t, exec .tsuinRetrained s = .next t ∧ (tsuOut t ch).up = true ∧ (tsuOut t ch).queue = (tsuOut s ch).queue ∧
        Frame [.claim] s t)

/-- Divergence and Tsuin failures fault the junior lane. -/
def Obligations.DivergenceAndTsuinFaults : Prop :=
  Claim.DivergenceFaultsTheJuniorLane ∧
    Claim.TsuinLanesSwapAndRetrain

/-- The claim of the preferred lane rises to 0xC0 after 2 s at 0x40, unless NOREVERT; CLM_CTL moves PREF with the claims in
the same cycle and refuses a HOLD_N outside 1 to 8 (R251, R265, R267).
The time up to a due event passes as the model counts it (log entry 3). -/
def Sys2Proof.Claim.ClaimsFollowThePreference : Prop :=
  ∀ (s : State) (m : Master) (v : Word),
    (s.claim.noRevert = true ∨ (s.lc (prefLane s)).claim ≠ 0x40 ∨ (s.lc (prefLane s)).health ≠ .healthy →
      exec .claimRaise s = .next s) ∧
    (s.claim.noRevert = false → (s.lc (prefLane s)).claim = 0x40 → (s.lc (prefLane s)).health = .healthy →
      ∃ t, exec .claimRaise s = .next t ∧ t.lc (prefLane s) = { s.lc (prefLane s) with claim := 0xC0 } ∧
        t.lc (otherLane (prefLane s)) = s.lc (otherLane (prefLane s)) ∧
        t.now = max s.now ((s.lc (prefLane s)).goodSince + 800000000) ∧ Frame [.claim, .time] s t) ∧
    (m.toNat < 14 → s.key.session = true → s.key.owner = m → s.md = 3 →
      (v.toNat % 16 = 0 ∨ 8 < v.toNat % 16 → ∃ t, exec (.clmCtlWrite m v) s = .next t ∧ Latched .clm 13 t ∧
        t.claim = s.claim ∧ Frame [.key, .events, .board] s t) ∧
      (1 ≤ v.toNat % 16 → v.toNat % 16 ≤ 8 → ∃ t, exec (.clmCtlWrite m v) s = .next t ∧
        t.claim.holdN.toNat = v.toNat % 16 ∧ t.claim.prefB = bit v 4 ∧ t.claim.noRevert = bit v 5 ∧
        (s.claim.prefB ≠ bit v 4 → (s.lc (prefLane s)).claim = 0xC0 → (t.lc (prefLane s)).claim = 0x40) ∧
        (s.claim.prefB = bit v 4 → ∀ x : Lane, t.lc x = s.lc x) ∧ Frame [.key, .claim] s t))

/-- Tumblers: a source that falls to 0x00 is held and replayed, and at the end of hold the tumbler takes the other lane; a
rise of the other claim leads to a planned handover; without a lane above 0x00 the gates are off and the mode stops
(R76, R259, R260).
The time up to a due event passes as the model counts it (log entry 3). -/
def Sys2Proof.Claim.TumblersHoldAndHandOver : Prop :=
  ∀ (s : State) (c : Fin 32) (x : Tumbler), x = s.claim.tum[c] →
    (s.claim.seenA = s.claim.a.claim → s.claim.seenB = s.claim.b.claim →
      (s.claim.senior = seniorLane s → exec .claimChange s = .next s) ∧
      (s.claim.senior ≠ seniorLane s → ∃ t, exec .claimChange s = .next t ∧
        t.claim = { s.claim with senior := seniorLane s } ∧ t.gate = s.gate ∧ t.mode = s.mode)) ∧
    (s.claim.seenA ≠ s.claim.a.claim ∨ s.claim.seenB ≠ s.claim.b.claim →
      (∀ p : Fin 32, winSource p s = s.gate.fg.active.contains (16 + p.val)) →
      (tumRuns c s = true → x.hold = false → (s.lc x.src).claim = 0 → ∃ t, exec .claimChange s = .next t ∧
        (t.claim.tum[c]).hold = true ∧ (t.claim.tum[c]).src = x.src ∧ (t.claim.tum[c]).record = x.record ∧
        Latched .clm 3 t ∧ Frame [.claim, .gate, .events, .board, .laneA, .laneB, .sramA, .sramB] s t) ∧
      (tumRuns c s = true → x.hold = false → 0 < (s.lc x.src).claim.toNat →
        (s.lc x.src).claim.toNat < (s.lc (otherLane x.src)).claim.toNat → ∃ t, exec .claimChange s = .next t ∧
        t.claim.tum[c] = { x with planned := true }) ∧
      (tumRuns c s = false → x.hold = false → (s.lc x.src).claim.toNat < (s.lc (otherLane x.src)).claim.toNat →
        ∃ t, exec .claimChange s = .next t ∧ (t.claim.tum[c]).src = otherLane x.src ∧ (t.claim.tum[c]).hold = false)) ∧
    (x.planned = false → exec (.revert c) s = .next s) ∧
    (x.planned = true → ∃ t, exec (.revert c) s = .next t ∧ (t.claim.tum[c]).src = otherLane x.src ∧
      (t.claim.tum[c]).planned = false ∧ Latched .clm 5 t ∧ t.claim.switches = satInc s.claim.switches ∧ s.now ≤ t.now ∧
      Frame [.claim, .gate, .time, .events, .board, .laneA, .laneB, .sramA, .sramB] s t) ∧
    (x.hold = false → exec (.switchover c) s = .next s) ∧
    (x.hold = true → (s.lc (otherLane x.src)).claim ≠ 0 → ∃ t, exec (.switchover c) s = .next t ∧
      (t.claim.tum[c]).src = otherLane x.src ∧ (t.claim.tum[c]).hold = false ∧ Latched .clm 4 t ∧
      t.claim.switches = satInc s.claim.switches ∧ t.gate.fg = s.gate.fg ∧ t.mode = s.mode ∧
      t.now = max s.now (x.base + (s.claim.holdN.toNat * holdLen c s + 31) / 32)) ∧
    (x.hold = true → (∀ l : Lane, (s.lc l).claim = 0) → inRun s = true → s.mode.busy = false →
      ∃ t, exec (.switchover c) s = .next t ∧ (t.claim.tum[c]).hold = false ∧ t.gate.allOff = true ∧
        t.mode.busy = true ∧ t.mode.target = 3 ∧ t.mode.nextCause = 8)

/-- Claims follow the preference; tumblers hold and hand over. -/
def Obligations.ClaimsAndTumblers : Prop :=
  Claim.ClaimsFollowThePreference ∧
    Claim.TumblersHoldAndHandOver

/-- R252: of two lanes the one with the lower claim is the junior, on equal claims the one that forwards fewer channels through
the tumblers, and then lane B; the other lane is the senior. -/
def Obligations.TheJuniorLaneHasTheLowerClaim : Prop :=
  ∀ s : State, ∀ fwd : Lane → Nat, (∀ l : Lane, fwd l = ((idx 32).filter fun c => (s.claim.tum[c]).src = l).length) →
    ((s.lc .a).claim.toNat < (s.lc .b).claim.toNat → seniorLane s = .b ∧ otherLane (seniorLane s) = .a) ∧
    ((s.lc .b).claim.toNat < (s.lc .a).claim.toNat → seniorLane s = .a ∧ otherLane (seniorLane s) = .b) ∧
    ((s.lc .a).claim = (s.lc .b).claim →
      (fwd .a < fwd .b → seniorLane s = .b ∧ otherLane (seniorLane s) = .a) ∧
      (fwd .b < fwd .a → seniorLane s = .a ∧ otherLane (seniorLane s) = .b) ∧
      (fwd .a = fwd .b → seniorLane s = .a ∧ otherLane (seniorLane s) = .b))

/-- One port, and one time domain. -/
def Sys2Proof.Claim.portOf (p : Fin 2) (s : State) : NetPort := s.net.port[p]

def Sys2Proof.Claim.domOf (k : Fin 2) (s : State) : TimeDomain := s.time.dom[k]

/-- Links come up at a permitted speed and raise LINK_DOWN when they fail; the periodic frames leave each port with a link,
and a peer-delay exchange gives the link's delay (R268, R269, R274, R275).
The time up to a due event passes as the model counts it (log entry 3).
The destinations of the frames are the model's (log entry 39). -/
def Sys2Proof.Claim.PortsLinkAndSend : Prop :=
  ∀ (s : State) (p : Fin 2),
    (portUsed p s = false → ∀ (up : Bool) (sp : Fin 3), exec (.linkChange p up sp) s = .next s) ∧
    (portUsed p s = true → s.net.stopped = false →
      (∀ sp : Fin 3, speedOffered p sp s = true → (s.net.mode = 2 → sp = 2) →
        (s.net.mode = 0 ∨ (Claim.portOf (otherPort p) s).link = false ∨
          (Claim.portOf (otherPort p) s).speed = sp) → ∃ t, exec (.linkChange p true sp) s = .next t ∧
          Claim.portOf p t = { Claim.portOf p s with link := true, speed := sp } ∧ Frame [.net] s t) ∧
      (∀ sp : Fin 3, speedOffered p sp s = false → (Claim.portOf p s).link = true →
        ∃ t, exec (.linkChange p true sp) s = .next t ∧ (Claim.portOf p t).link = false ∧ Latched .net 0 t) ∧
      (s.net.mode = 2 → speedOffered p 1 s = true → ∃ t, exec (.linkChange p true 1) s = .next t ∧ (Claim.portOf p t).link = false ∧
        Latched .net 0 t) ∧
      (∀ sp : Fin 3, (Claim.portOf p s).link = true → ∃ t, exec (.linkChange p false sp) s = .next t ∧
        (Claim.portOf p t).link = false ∧ Latched .net 0 t ∧ Frame [.net, .events, .board] s t)) ∧
    (s.net.on = true → s.net.stopped = false →
      (s.net.mode = 0 → exec .supervisionTx s = .next s) ∧
      (s.net.mode ≠ 0 → (∀ q : Fin 2, (Claim.portOf q s).link = true) → ∃ t, exec .supervisionTx s = .next t ∧
        t.outbox = s.outbox ++ [.eth 0 5 0x01154E000100 (some s.net.txSeq) none (beBytes 6 s.net.mac.toNat),
          .eth 1 5 0x01154E000100 (some s.net.txSeq) none (beBytes 6 s.net.mac.toNat)] ∧
        t.net.txSeq = s.net.txSeq + 1 ∧ s.now ≤ t.now ∧ Frame [.net, .outbox, .time] s t) ∧
      (s.net.mode = 0 → (Claim.portOf 0 s).link = true → ∃ t, exec .pdelayTx s = .next t ∧
        t.outbox = s.outbox ++ [.eth 0 4 0x0180C200000E none (vlanTag 0 4 s)
          (beBytes 2 (Claim.portOf 0 s).pdelaySeq.toNat)] ∧
        (Claim.portOf 0 t).pdelaySeq = (Claim.portOf 0 s).pdelaySeq + 1 ∧
        Frame [.net, .outbox, .time] s t)) ∧
    (linkUp p s = true → ∀ t1 t2 t3 t4 : Int, ∃ t, exec (.pdelayRespRx p t1 t2 t3 t4) s = .next t ∧
      Claim.portOf p t = { Claim.portOf p s with
        peerDelay := ((t4 - latSteps p 6 s) - (t1 + latSteps p 8 s) - (t3 - t2)) / 2 } ∧ Frame [.net] s t) ∧
    (linkUp p s = false → ∀ t1 t2 t3 t4 : Int, exec (.pdelayRespRx p t1 t2 t3 t4) s = .next s)

/-- Received frames: a bad or oversized one is counted only; an ARP request to the module is answered; with redundancy the
first copy of a sequence number passes and every later one within the window is a counted duplicate; an entry is forgotten
after 400 ms, and a source heard on one port only is reported (R268, R270 to R272).
The time up to a due event passes as the model counts it (log entry 3). -/
def Sys2Proof.Claim.FramesAreCheckedAndDeduplicated : Prop :=
  ∀ (s : State) (p : Fin 2) (f : EthFrame), portUsed p s = true → linkUp p s = true →
    (1528 < f.lenBytes ∨ f.fcsOk = false → ∃ t, exec (.ethFrameRx p f) s = .next t ∧
      (Claim.portOf p t).cnt = put' (Claim.portOf p s).cnt 2 (satInc (at' (Claim.portOf p s).cnt 2 0)) ∧
      t.net.dup = s.net.dup ∧ t.outbox = s.outbox ∧ Frame [.net] s t) ∧
    (f.lenBytes ≤ 1528 → f.fcsOk = true →
      (s.net.mode = 0 → p = 0 → f.kind = 1 → f.dst = s.net.mac →
        (beNat (slice f.payload 24 4) = s.net.ip.toNat → ∃ t, exec (.ethFrameRx p f) s = .next t ∧
          t.outbox = s.outbox ++ [.eth 0 1 f.src.toNat none none (f.payload.take 6 ++ [0, 2]
            ++ beBytes 6 s.net.mac.toNat ++ beBytes 4 s.net.ip.toNat ++ slice f.payload 8 10)] ∧
          Frame [.net, .outbox] s t) ∧
        (beNat (slice f.payload 24 4) ≠ s.net.ip.toNat → ∃ t, exec (.ethFrameRx p f) s = .next t ∧
          t.outbox = s.outbox ∧ Frame [.net] s t)) ∧
      (∀ q : Half, s.net.mode = 1 → f.seq = some q → f.kind = 0 → (∀ e ∈ s.net.dup, e.src ≠ f.src) →
        s.net.dup.length < 512 → ∃ t, exec (.ethFrameRx p f) s = .next t ∧
          (∃ e ∈ t.net.dup, e.src = f.src ∧ seqSeen e q = true ∧ e.port = p ∧ e.heardAt = s.now) ∧
          at' (Claim.portOf p t).cnt 3 0 = at' (Claim.portOf p s).cnt 3 0) ∧
      (∀ (q : Half) (e : DupEntry), s.net.mode = 1 → f.seq = some q → f.kind = 1 → s.net.dup = [e] → e.src = f.src →
        s.now < e.heardAt + 160000000 → seqSeen e q = true → ∃ t, exec (.ethFrameRx p f) s = .next t ∧ t.outbox = s.outbox ∧
          at' (Claim.portOf p t).cnt 3 0 = satInc (at' (Claim.portOf p s).cnt 3 0) ∧
          t.net.dup = [{ e with heardAt := s.now, port := p }])) ∧
    (∀ e : DupEntry, s.net.dup = [e] → ∃ t, exec (.dupEntryExpire e.src) s = .next t ∧ t.net.dup = [] ∧
      t.now = max s.now (e.heardAt + 160000000) ∧ Frame [.net, .time] s t) ∧
    (∀ e : LanHeard, s.net.mode = 1 → (∀ q : Fin 2, linkUp q s = true) → s.net.heard = [e] → s.net.lanFault ≠ some e.src →
      (e.since + 1600000000 ≤ e.lastAt → max s.now (e.since + 2400000000) ≤ e.lastAt + 800000000 →
        ∃ t, exec (.lanFault e.src) s = .next t ∧ Latched .net 1 t ∧ t.net.lanFault = some e.src ∧
          at' (Claim.portOf e.port t).cnt 5 0 = satInc (at' (Claim.portOf e.port s).cnt 5 0) ∧
          t.now = max s.now (e.since + 2400000000) ∧ Frame [.net, .time, .events, .board] s t) ∧
      (e.lastAt < e.since + 1600000000 → exec (.lanFault e.src) s = .next s)) ∧
    (s.net.mode ≠ 1 → ∀ src : BitVec 48, exec (.lanFault src) s = .next s)

/-- Network ports link and send; frames are checked and deduplicated. -/
def Obligations.NetworkPortsAndFrames : Prop :=
  Claim.PortsLinkAndSend ∧
    Claim.FramesAreCheckedAndDeduplicated

/-- A domain acquires its first master, locks after four offsets within 1 µs, loses its lock after two beyond 10 µs and
holds over without Announce or pulse; the servo's rate is free within its limit; D0 is selected again after REVERT_S
(R274, R278 to R282).
The time up to a due event passes as the model counts it (log entry 3).
The PPS second and the change of selection are the model's reading (log entry 41). -/
def Sys2Proof.Claim.DomainsAcquireLockAndHold : Prop :=
  ∀ (s : State) (k p : Fin 2) (d : TimeDomain), d = Claim.domOf k s → d.source = 1 → s.net.mode = 0 →
    linkUp p s = true →
    (∀ a : Announce, d.master = none → ∃ t, exec (.ptpAnnounceRx k p a) s = .next t ∧
      (Claim.domOf k t).master = some a ∧ (Claim.domOf k t).state = 2 ∧
      (Claim.domOf k t).gmId = a.gmId) ∧
    (∀ m a : Announce, d.master = some m → d.state = 2 ∨ d.state = 3 → m.gmId ≠ a.gmId →
      (lexLt (announceKey a) (announceKey m) = false → exec (.ptpAnnounceRx k p a) s = .next s) ∧
      (lexLt (announceKey a) (announceKey m) = true → ∃ t, exec (.ptpAnnounceRx k p a) s = .next t ∧
        Latched .time 1 t ∧ (Claim.domOf k t).master = some a ∧ (Claim.domOf k t).state = 2)) ∧
    (d.state = 0 ∨ d.state = 1 ∨ d.state = 4 → ∀ off : Int, exec (.ptpSyncRx k p off) s = .next s) ∧
    (∀ off : Int, d.state = 2 → d.good = 3 → off.natAbs ≤ 1000 → off.natAbs ≤ s.time.stepThr →
      ∃ t, exec (.ptpSyncRx k p off) s = .next t ∧ (Claim.domOf k t).state = 3 ∧ Latched .time 3 t ∧
        (Claim.domOf k t).offset = off ∧ (Claim.domOf k t).anchor.raw = s.raw ∧
        (Claim.domOf k t).anchor.t = d.anchor.at s.raw ∧
        (Claim.domOf k t).anchor.rate.natAbs ≤ rateLimit) ∧
    (∀ off : Int, d.state = 3 → d.bad = 1 → 10000 < off.natAbs → ∃ t, exec (.ptpSyncRx k p off) s = .next t ∧
      (Claim.domOf k t).state = 2) ∧
    (∀ off : Int, d.state = 2 → s.time.stepThr < off.natAbs → s.time.sel = k → 4 ≤ s.md → s.md ≤ 10 → d.deferred = false →
      ∃ t, exec (.ptpSyncRx k p off) s = .next t ∧ Latched .time 6 t ∧ (Claim.domOf k t).deferred = true ∧
        (Claim.domOf k t).anchor.t = d.anchor.at s.raw) ∧
    (∀ m : Announce, d.master = some m → d.state = 2 ∨ d.state = 3 → ∃ t, exec (.announceTimeout k) s = .next t ∧
      (Claim.domOf k t).state = 4 ∧ Latched .time 2 t ∧ (Claim.domOf k t).anchor = d.anchor ∧
      t.now = max s.now (d.announceAt + 3 * announceTicks m.logInterval)) ∧
    (d.state ≠ 2 → d.state ≠ 3 → exec (.announceTimeout k) s = .next s) ∧
    (k = 0 → s.time.force = 0 → s.time.noRevert = false → s.time.sel = 1 → d.state = 3 →
      ∃ t, exec .domainRevert s = .next t ∧ t.time.sel = 0 ∧ Latched .time 0 t ∧
        max s.now (d.lockedAt + 400000000 * s.time.revertS) ≤ t.now) ∧
    (s.time.sel = 0 → exec .domainRevert s = .next s) ∧
    ((Claim.domOf 1 s).source = 2 → ∃ t, exec .ppsEdge s = .next t ∧ t.time.ppsSec = s.time.ppsSec + 1 ∧
      t.time.ppsAt = s.now ∧ ((Claim.domOf 1 s).state = 1 → (Claim.domOf 1 s).good = 0 →
        (Claim.domOf 1 t).state = 2))

/-- The time registers: a read latches its partners, a conversion reports the time at a raw value with OLD for one that is
not kept, and TIME_CTL and TIME_PPSSEC take effect inside a session only (R98, R281 to R284, R288). -/
def Sys2Proof.Claim.TimeRegistersLatchAndConvert : Prop :=
  ∀ (s : State) (m : Master) (v : Word),
    (∃ t, exec (.timeLatchRead 3) s = .next t ∧ t.time = { s.time with rawHi := BitVec.ofNat 32 (s.raw.toNat / 2 ^ 32) } ∧
      Frame [.timebase] s t) ∧
    (∀ k : Fin 2, ∃ t, exec (.timeLatchRead k.succ.castSucc) s = .next t ∧
      t.time.secHi[k.val + 1] = BitVec.ofNat 16 ((secOf (domNow k s)).toNat / 2 ^ 32) ∧
      t.time.nsec[k.val + 1] = nsecOf (domNow k s) ∧ t.time.secHi[0] = s.time.secHi[0] ∧ Frame [.timebase] s t) ∧
    (∃ t, exec (.timeLatchRead 0) s = .next t ∧ t.time.nsec[0] = nsecOf (timelineNow s) ∧ Frame [.timebase] s t) ∧
    (v.toNat % 4 = 3 → exec (.timeCvctl v) s = .next s) ∧
    (v.toNat % 4 ≠ 3 → ∃ t, exec (.timeCvctl v) s = .next t ∧ t.time.cvDone = false ∧
      t.time.cvBusy.map (·.val) = some (v.toNat % 4) ∧ Frame [.timebase] s t) ∧
    (s.time.cvBusy = none → exec .conversionDone s = .next s) ∧
    (∀ k : Fin 2, s.time.cvBusy = some (k.castSucc) → s.time.cvAt ≤ s.now → s.time.cvRaw.toNat ≤ s.raw.toNat →
      s.raw.toNat + 400 ≤ s.time.cvRaw.toNat + 25600000000 → s.raw.toNat + 400 < 2 ^ 64 → (Claim.domOf k s).history = [] →
      ∃ t, exec .conversionDone s = .next t ∧ t.time.cvDone = true ∧ t.time.cvOld = false ∧ t.time.cvBusy = none ∧
        t.time.cvSec = secOf ((Claim.domOf k s).anchor.at s.time.cvRaw) ∧
        t.time.cvNsec = nsecOf ((Claim.domOf k s).anchor.at s.time.cvRaw) ∧ s.now ≤ t.now ∧ t.now ≤ s.now + 400 ∧
        Frame [.timebase, .time, .free] s t) ∧
    (∀ k : Fin 3, s.time.cvBusy = some k → s.time.cvAt ≤ s.now → s.raw.toNat + 400 < s.time.cvRaw.toNat → ∃ t, exec .conversionDone s = .next t ∧
      t.time.cvOld = true ∧ t.time.cvDone = true) ∧
    (m.toNat < 14 → s.md = 3 → s.key.session = true → s.key.owner = m →
      (exec (.timePpssecWrite m v) s = .next { s with
        key := { s.key with idleLeft := 60 * 400000000, idleFrom := s.now }, time := { s.time with ppsSec := v } }) ∧
      (v.toNat % 4 = 0 → ((Claim.domOf s.time.sel s).state = 3 ∨ (Claim.domOf (otherDom s.time.sel) s).state ≠ 3) →
        ∃ t, exec (.timeCtlWrite m v) s = .next t ∧ t.time = { s.time with force := 0, noRevert := bit v 4 } ∧
          Frame [.key, .timebase] s t) ∧
      (v.toNat % 4 = 3 → ∃ t, exec (.timeCtlWrite m v) s = .next t ∧ t.time = s.time ∧ Frame [.key] s t)) ∧
    (m.toNat < 14 → s.key.session = false → exec (.timeCtlWrite m v) s =
      .next (raise .key 2 { s with key := { s.key with rwkAddr := 0x70108 } }))

/-- Time domains acquire, lock and hold; time registers latch and convert. -/
def Obligations.TimeDomainsAndRegisters : Prop :=
  Claim.DomainsAcquireLockAndHold ∧
    Claim.TimeRegistersLatchAndConvert

/-- One CAN port. -/
def Sys2Proof.Claim.canOf (p : Fin 2) (s : State) : CanState := s.can[p]

/-- The pennant register of a CAN port. -/
def Sys2Proof.Claim.canEv (p : Fin 2) : EvReg := if p = 0 then .can0 else .can1

/-- A received frame enters the FIFO under the first filter it matches, is lost to a full one with RX_OVF, and is found as
the rate in MODE 2; RXPOP releases the oldest (R292, R293, R295).
The counters are those of ISO 11898-1 (log entry 55). -/
def Sys2Proof.Claim.CanFramesEnterTheFifo : Prop :=
  ∀ (s : State) (p : Fin 2) (f : CanFrame) (c : CanState), c = Claim.canOf p s →
    (canOn p s = false ∨ c.state = 0 ∨ c.state = 4 ∨ c.state = 5 → exec (.canFrameRx p f) s = .next s) ∧
    (canOn p s = true → c.state = 2 → c.mode ≠ 2 → c.rxErr ≤ 127 → c.txErr < 128 → c.onBus = none → canSafety p f s = false →
      f.rtr = false →
      (∀ k : Nat, canFilter p f s = some k → c.rx.length < 64 → ∃ t, exec (.canFrameRx p f) s = .next t ∧
        (∃ st : Long, st.toNat ≤ s.raw.toNat ∧ (Claim.canOf p t).rx = c.rx ++ [{
          frame := { f with data := f.data.take (dlcLen f.fdf f.dlc.toNat) }, filter := BitVec.ofNat 4 k, stamp := st }]) ∧
        (Claim.canOf p t).rxErr = c.rxErr - 1 ∧ (Claim.canOf p t).buf = c.buf ∧ t.events = s.events ∧
        Frame [.can, .free] s t) ∧
      (∀ k : Nat, canFilter p f s = some k → c.rx.length = 64 → ∃ t, exec (.canFrameRx p f) s = .next t ∧
        (Claim.canOf p t).rx = c.rx ∧ (Claim.canOf p t).ovf = satInc c.ovf ∧
        Latched (Claim.canEv p) 1 t) ∧
      (canFilter p f s = none → ∃ t, exec (.canFrameRx p f) s = .next t ∧ (Claim.canOf p t).rx = c.rx ∧
        t.events = s.events ∧ Frame [.can] s t)) ∧
    (canOn p s = true → c.state = 1 → c.mode = 2 → c.found = false → ∃ t, exec (.canFrameRx p f) s = .next t ∧
      (Claim.canOf p t).found = true ∧ (Claim.canOf p t).detRate.val = c.tryRate.val + 1 ∧
      (Claim.canOf p t).state = 1 ∧ Latched (Claim.canEv p) 6 t) ∧
    (∃ t, exec (.canRxpop p) s = .next t ∧ Claim.canOf p t = { c with rx := c.rx.drop 1 } ∧ Frame [.can] s t)

/-- Transmit buffers: a request starts the attempt of the lowest identifier, a buffer that is sent is done with its stamp, an
abort fails a waiting buffer at once and one on the bus only when its attempt ends, and a pending buffer refuses writes
(R293, R294).
The counters are those of ISO 11898-1, and the start of an attempt is the model's (log entries 54 and 55). -/
def Sys2Proof.Claim.CanBuffersAreSentOrFail : Prop :=
  ∀ (s : State) (p : Fin 2) (b : Fin 8) (c : CanState), c = Claim.canOf p s →
    (∀ (w : Fin 32) (v : Word),
      ((c.buf[b]).pend = true → exec (.canTxbufWrite p b w v) s = .next (raise (Claim.canEv p) 9 s)) ∧
      ((c.buf[b]).pend = false → ∃ t, exec (.canTxbufWrite p b w v) s = .next t ∧
        (w.val = 0 → (Claim.canOf p t).buf[b] = { c.buf[b] with hdr := v &&& 0x1FFFFFFF }) ∧
        (w.val = 1 → (Claim.canOf p t).buf[b] = { c.buf[b] with info := v &&& 0x1E0F }) ∧
        (2 ≤ w.val → w.val < 16 → t = s) ∧
        (∀ k : Fin 16, w.val = k.val + 16 → ((Claim.canOf p t).buf[b]).data[k] = v ∧
          ((Claim.canOf p t).buf[b]).hdr = (c.buf[b]).hdr) ∧
        (∀ d : Fin 8, d ≠ b → (Claim.canOf p t).buf[d] = c.buf[d]) ∧ Frame [.can] s t)) ∧
    ((∀ d : Fin 8, (c.buf[d]).pend = false) → c.onBus = none → c.mode = 0 → c.state = 2 →
      bit (c.buf[b]).info 11 = false → ∃ t, exec (.canTxreq p (BitVec.ofNat 8 (2 ^ b.val))) s = .next t ∧
        ((Claim.canOf p t).buf[b]).pend = true ∧ ((Claim.canOf p t).buf[b]).done = false ∧
        (Claim.canOf p t).onBus = some b ∧
        (∀ d : Fin 8, d ≠ b → (Claim.canOf p t).buf[d] = c.buf[d]) ∧ Frame [.can] s t) ∧
    ((c.buf[b]).pend = false → bit (c.buf[b]).info 11 = true → canFlag p 0 s = false →
      ∃ t, exec (.canTxreq p (BitVec.ofNat 8 (2 ^ b.val))) s = .next t ∧ Latched (Claim.canEv p) 9 t ∧
        (Claim.canOf p t).buf = c.buf) ∧
    (c.onBus ≠ some b → exec (.canTxDone p b) s = .next s) ∧
    (c.onBus = some b → c.state = 2 → c.txErr ≤ 128 → c.rxErr < 128 → ∃ t, exec (.canTxDone p b) s = .next t ∧
      ((Claim.canOf p t).buf[b]).pend = false ∧ ((Claim.canOf p t).buf[b]).done = true ∧
      ((Claim.canOf p t).buf[b]).stamp.toNat ≤ s.raw.toNat ∧ (Claim.canOf p t).txErr = c.txErr - 1 ∧
      (Claim.canOf p t).onBus ≠ some b ∧ Latched (Claim.canEv p) 0 t) ∧
    ((c.buf[b]).pend = false → exec (.canTxabort p (BitVec.ofNat 8 (2 ^ b.val))) s = .next s) ∧
    ((c.buf[b]).pend = true → ∃ t, exec (.canTxabort p (BitVec.ofNat 8 (2 ^ b.val))) s = .next t ∧
      (c.onBus = some b → (Claim.canOf p t).buf[b] = { c.buf[b] with abort := true }) ∧
      (c.onBus ≠ some b → (Claim.canOf p t).buf[b] = { c.buf[b] with pend := false, failed := true, abort := false }) ∧
      (Claim.canOf p t).onBus = c.onBus ∧ Frame [.can] s t)

/-- CAN frames enter the FIFO; transmit buffers are sent or fail. -/
def Obligations.CanFramesAndBuffers : Prop :=
  Claim.CanFramesEnterTheFifo ∧
    Claim.CanBuffersAreSentOrFail

/-- Errors move the counters and the state of a port; bus-off is left on AUTO_REC or RECOVER; a mode starts over with
integration, and rate detection goes through five rates and reports failure after the last (R295 to R299).
The time up to a due event passes as the model counts it (log entry 3).
The counters are those of ISO 11898-1 (log entry 55). -/
def Obligations.CanErrorsAndModesMoveThePort : Prop :=
  ∀ (s : State) (p : Fin 2) (c : CanState), c = Claim.canOf p s →
    (canOn p s = true → c.state = 2 → c.txErr < 128 → ∀ (e : CanError) (major : Bool),
      (c.rxErr + (if major then 8 else 1) < 128 → ∃ t, exec (.canBusError p e none true major) s = .next t ∧
        (Claim.canOf p t).rxErr = c.rxErr + (if major then 8 else 1) ∧ (Claim.canOf p t).state = 2 ∧
        (Claim.canOf p t).lec = lecCode e ∧ t.events = s.events ∧ Frame [.can] s t) ∧
      (128 ≤ c.rxErr + (if major then 8 else 1) → ∃ t, exec (.canBusError p e none true major) s = .next t ∧
        (Claim.canOf p t).state = 3 ∧ Latched (Claim.canEv p) 2 t)) ∧
    (∀ b : Fin 8, canOn p s = true → c.state = 3 → c.onBus = some b → 248 ≤ c.txErr → (c.buf[b]).pend = true →
      ∃ t, exec (.canBusError p .bitDominant (some b) true false) s = .next t ∧ (Claim.canOf p t).state = 4 ∧
        (Claim.canOf p t).onBus = none ∧ Latched (Claim.canEv p) 3 t ∧ Latched (Claim.canEv p) 5 t) ∧
    (∀ b : Fin 8, canOn p s = true → c.state = 2 → c.onBus = some b → c.ackRun = 31 → c.alone = false →
      ∃ t, exec (.canBusError p .ack (some b) true false) s = .next t ∧ (Claim.canOf p t).alone = true ∧
        Latched (Claim.canEv p) 4 t) ∧
    (c.state = 4 → canFlag p 3 s = true ∨ c.recovering = true → ∃ t, exec (.canBusoffRecovered p) s = .next t ∧
      (Claim.canOf p t).state = 2 ∧ (Claim.canOf p t).txErr = 0 ∧ (Claim.canOf p t).rxErr = 0 ∧
      t.now = max s.now (c.waitFrom + 1408 * canBitTicks p s) ∧ Frame [.can, .time] s t) ∧
    (c.state = 4 → canFlag p 3 s = false → c.recovering = false → exec (.canBusoffRecovered p) s = .next s) ∧
    (c.state = 4 → c.recovering = false → canFlag p 3 s = false → ∃ t, exec (.canRecover p) s = .next t ∧
      Claim.canOf p t = { c with recovering := true, waitFrom := s.now } ∧ Frame [.can] s t) ∧
    (c.state ≠ 4 ∨ c.recovering = true ∨ canFlag p 3 s = true → exec (.canRecover p) s = .next s) ∧
    (∀ m : Fin 4, c.mode.toNat ≠ m.val → canOn p s = true → c.state ≠ 5 → c.onBus = none →
      ∃ t, exec (.canModeWrite p (BitVec.ofNat 32 m.val)) s = .next t ∧ (Claim.canOf p t).mode.toNat = m.val ∧
        (Claim.canOf p t).state = (if m = 3 then 0 else 1) ∧ (Claim.canOf p t).found = false ∧
        (Claim.canOf p t).tryRate = 0 ∧ (Claim.canOf p t).useDet = false ∧
        (Claim.canOf p t).buf = c.buf ∧ Frame [.can] s t) ∧
    (canOn p s = true → c.mode = 2 → c.found = false → c.state ≠ 5 → ∃ t, exec (.rateTryTimeout p) s = .next t ∧
      (Claim.canOf p t).tryRate.val = (c.tryRate.val + 1) % 5 ∧ t.now = max s.now (c.tryAt + 400000000) ∧
      (c.tryRate = 4 → Latched (Claim.canEv p) 8 t) ∧ (c.tryRate ≠ 4 → t.events = s.events)) ∧
    (c.state = 1 → ∃ t, exec (.canIntegrationDone p) s = .next t ∧
      (Claim.canOf p t).state = (if 256 ≤ c.txErr then 4 else if 128 ≤ c.txErr ∨ 128 ≤ c.rxErr then 3 else 2) ∧
      t.now = max s.now (c.waitFrom + 11 * canBitTicks p s) ∧ Frame [.can, .time] s t) ∧
    (c.state ≠ 1 → exec (.canIntegrationDone p) s = .next s)

/-- One field input, and one field output. -/
def Sys2Proof.Claim.inOf (n : Fin 16) (s : State) : FieldIn := s.fio.inp[n]

def Sys2Proof.Claim.outOf (j : Fin 8) (s : State) : FieldOut := s.fio.out[j]

/-- An input follows a level it has held for its filter time, with stamps in multiples of 100 ns and a saturating edge
count; a broken wire makes it invalid until its current returns (R306 to R308). -/
def Sys2Proof.Claim.FieldInputsFollowTheirFilters : Prop :=
  ∀ (s : State) (n : Fin 16) (x : FieldIn), x = Claim.inOf n s →
    (∀ (b : Bool) (us0 : Nat) (st : Long), us0 < fioUs (diFilt n s) s → exec (.diChange n b us0 st) s = .next s) ∧
    (s.fio.on = true → s.fio.linkOk = true → s.fio.fs.val < 2 → ∀ (us0 : Nat) (st : Long), fioUs (diFilt n s) s ≤ us0 →
      (x.passed = false → ∀ b : Bool, ∃ t, exec (.diChange n b us0 st) s = .next t ∧
        t.now = max s.now (s.fio.recoverAt + 400 * fioUs (diFilt n s) s) ∧ (Claim.inOf n t).passed = true ∧
        (Claim.inOf n t).level = b ∧ Frame [.fio, .time] s t) ∧
      (∀ b : Bool, x.passed = true → b = x.level → ∃ t, exec (.diChange n b us0 st) s = .next t ∧
        Claim.inOf n t = x ∧ Frame [.fio] s t) ∧
      (x.passed = true → x.level = false → ∃ t, exec (.diChange n true us0 st) s = .next t ∧ Claim.inOf n t = { x with
        level := true, riseTs := BitVec.ofNat 64 (st.toNat / 40 * 40), edges := satInc x.edges } ∧
        (∀ k : Fin 16, k ≠ n → Claim.inOf k t = Claim.inOf k s) ∧ Frame [.fio] s t) ∧
      (x.passed = true → x.level = true → ∃ t, exec (.diChange n false us0 st) s = .next t ∧ Claim.inOf n t = { x with
        level := false, fallTs := BitVec.ofNat 64 (st.toNat / 40 * 40), edges := satInc x.edges } ∧
        Frame [.fio] s t)) ∧
    (s.fio.on = true → ∀ ua us0 : Nat,
      (wbEn n s = true → ua < 35 → 5000 ≤ us0 → ∃ t, exec (.wireBreak n ua us0) s = .next t ∧
        Claim.inOf n t = { x with wb := true, ua := BitVec.ofNat 12 ua } ∧ (x.wb = false → Latched .fio 3 t) ∧
        (x.wb = true → t.events = s.events) ∧ diValid n t = false) ∧
      (80 < ua → ua < 4096 → 5000 ≤ us0 → ∃ t, exec (.wireBreak n ua us0) s = .next t ∧
        Claim.inOf n t = { x with wb := false, ua := BitVec.ofNat 12 ua } ∧ Frame [.fio] s t) ∧
      (us0 < 5000 → ua < 4096 → ∃ t, exec (.wireBreak n ua us0) s = .next t ∧
        Claim.inOf n t = { x with ua := BitVec.ofNat 12 ua } ∧ Frame [.fio] s t))

/-- Outputs: FIO_DQSET commands the outputs that no function owns and refuses the others; overload, cooling and an external
drive are reported (R309 to R311, R313). -/
def Sys2Proof.Claim.FieldOutputsObeyTheirOwner : Prop :=
  ∀ (s : State) (j : Fin 8) (x : FieldOut), x = Claim.outOf j s →
    (∀ v : Word, ∃ t, exec (.fioDqset v) s = .next t ∧
      (bit v (8 + j.val) = true → dqOwned j s = false → (Claim.outOf j t).cmd = bit v j.val) ∧
      (bit v (8 + j.val) = true → dqOwned j s = true → Latched .fio 9 t ∧ (Claim.outOf j t).cmd = x.cmd ∧
        (Claim.outOf j t).fn = x.fn) ∧
      (bit v (8 + j.val) = false → (Claim.outOf j t).cmd = x.cmd) ∧
      (bit v (8 + j.val) = true → dqOwned j s = false → testRuns j s = true → t.fio.testBusy = false ∧
        t.fio.discards = satInc s.fio.discards ∧ Latched .fio 8 t ∧ (Claim.outOf j t).notBefore = s.now + 400000000) ∧
      Frame [.fio, .events, .board] s t) ∧
    (dqDriven j s = true → ∀ lim th : Bool, ∃ t, exec (.outOvl j lim th) s = .next t ∧
      Claim.outOf j t = { x with limit := lim, thermal := x.thermal || th } ∧
      ((lim = true ∧ x.limit = false) ∨ (th = true ∧ x.thermal = false) → Latched .fio 4 t) ∧
      Frame [.fio, .events, .board] s t) ∧
    (dqDriven j s = false → ∀ lim th : Bool, exec (.outOvl j lim th) s = .next s) ∧
    (∃ t, exec (.coolingRestart j) s = .next t ∧ Claim.outOf j t = { x with thermal := false } ∧ Frame [.fio] s t) ∧
    (s.fio.on = true → s.fio.linkOk = true → s.fio.fs.val < 2 → s.fio.lastTestEnd = 0 → ∀ (mv : Int) (us0 : Nat),
      (mv < 7000 → ∃ t, exec (.extDrive j mv us0) s = .next t ∧ Claim.outOf j t = { x with ext := false } ∧
        Frame [.fio] s t) ∧
      (7000 ≤ mv → mv ≤ 9000 → exec (.extDrive j mv us0) s = .next s) ∧
      (9000 < mv → 1000 ≤ us0 → dqCmd j s = false → testRuns j s = false → ∃ t, exec (.extDrive j mv us0) s = .next t ∧
        Claim.outOf j t = { x with ext := true } ∧ (x.ext = false → Latched .fio 5 t)))

/-- The barrier and the field supply: an exchange keeps the link, 1 ms without one breaks it, the supply states change at
their levels and the recovery needs 10 ms (R303 to R305).
The time up to a due event passes as the model counts it (log entry 3). -/
def Sys2Proof.Claim.FieldSupplyAndLinkFollowTheirLevels : Prop :=
  ∀ (s : State), (s.fio.on = false → ∀ mv us0 ps, exec (.fieldSupplySample mv) s = .next s ∧
      exec (.fsLost mv us0) s = .next s ∧ exec (.fioExchange ps) s = .next s ∧ exec .fioLink s = .next s) ∧
    (s.fio.on = true →
      (∀ (ps : List Int) (j : Fin 8), ∃ t, exec (.fioExchange ps) s = .next t ∧ t.fio.linkOk = true ∧
        t.fio.lastExch = t.now ∧ (Claim.outOf j t).readback = decide (9000 < ps.getD j.val 0) ∧
        Frame [.fio, .time] s t) ∧
      (s.fio.linkOk = true → ∃ t, exec .fioLink s = .next t ∧ t.fio.linkOk = false ∧ Latched .fio 10 t ∧
        t.now = max s.now (s.fio.lastExch + 400000) ∧ (∀ n : Fin 16, diValid n t = false)) ∧
      (s.fio.fs = 0 → ∀ mv : Int, (18000 ≤ mv → mv ≤ 30000 → ∃ t, exec (.fieldSupplySample mv) s = .next t ∧
          t.fio.fs = 0 ∧ t.fio.lpMv = mv ∧ t.events = s.events ∧ Frame [.fio, .time] s t) ∧
        ((15000 ≤ mv ∧ mv < 18000) ∨ (30000 < mv ∧ mv ≤ 33000) → ∃ t, exec (.fieldSupplySample mv) s = .next t ∧
          t.fio.fs = 1 ∧ Latched .fio 0 t) ∧
        (mv < 15000 → s.fio.first = false → ∃ t, exec (.fieldSupplySample mv) s = .next t ∧ t.fio.fs = 2 ∧
          Latched .fio 1 t ∧ (∀ n : Fin 16, (Claim.inOf n t).passed = false) ∧
          (∀ j : Fin 8, dqOwned j s = false → (Claim.outOf j t).cmd = false))) ∧
      (s.fio.fs = 1 → ∀ mv : Int, 18000 ≤ mv → mv ≤ 30000 → ∃ t, exec (.fieldSupplySample mv) s = .next t ∧ t.fio.fs = 0) ∧
      (s.fio.fs = 2 → ∀ mv : Int, (17000 ≤ mv → mv ≤ 31000 → ∃ t, exec (.fieldSupplySample mv) s = .next t ∧
          t.fio.fs = 3 ∧ t.fio.okSince = some t.now) ∧
        (mv < 17000 ∨ 31000 < mv → ∃ t, exec (.fieldSupplySample mv) s = .next t ∧ t.fio.fs = 2)) ∧
      (s.fio.fs ≠ 2 → ∀ (mv : Int) (us0 : Nat), mv < 15000 ∨ (33000 < mv ∧ 100 ≤ us0) →
        ∃ t, exec (.fsLost mv us0) s = .next t ∧ t.fio.fs = 2 ∧ t.fio.lpMv = mv ∧
          (∀ n : Fin 16, diValid n t = false) ∧ Frame [.fio, .events, .board] s t) ∧
      (∀ at0 : Nat, s.fio.okSince = some at0 → s.fio.fs = 3 → ∃ t, exec .fsRecover s = .next t ∧
        t.now = max s.now (at0 + 4000000) ∧ (18000 ≤ s.fio.lpMv → s.fio.lpMv ≤ 30000 → t.fio.fs = 0) ∧
        (s.fio.lpMv < 18000 ∨ 30000 < s.fio.lpMv → t.fio.fs = 1 ∧ Latched .fio 0 t) ∧
        (s.fio.first = false → Latched .fio 2 t)))

/-- Field inputs, the field supply and the barrier link. -/
def Obligations.FieldInputsAndSupply : Prop :=
  Claim.FieldInputsFollowTheirFilters ∧
    Claim.FieldSupplyAndLinkFollowTheirLevels

/-- Output tests: a round lists the enabled outputs, a pulse runs for its width, and its end judges the level, dark below
7 V, light above L+ − 3 V (R312).
The time up to a due event passes as the model counts it (log entry 3). -/
def Sys2Proof.Claim.FieldOutputTestsAreJudged : Prop :=
  ∀ (s : State) (j : Fin 8),
    (s.fio.roundAt = none → exec .testRound s = .next s) ∧
    (∀ at0 : Nat, s.fio.roundAt = some at0 → fioDrives s = true → ∃ t, exec .testRound s = .next t ∧
      t.now = max s.now at0 ∧ (j ∈ t.fio.roundLeft ↔ testEnabled j s = true) ∧
      t.fio.roundAt = some (t.now + 400000000 * u16 (recD s 0x80 0) 96) ∧ Frame [.fio, .time] s t) ∧
    (∀ rest : List (Fin 8), s.fio.roundLeft = j :: rest → s.fio.testBusy = false → fioDrives s = true →
      testEnabled j s = true → (Claim.outOf j s).notBefore = 0 → s.fio.lastTestEnd = 0 →
      ∃ t, exec (.testPulseStart j) s = .next t ∧ t.fio.testBusy = true ∧ t.fio.testOut = j ∧
        t.fio.testLight = !dqOn j s ∧ t.fio.testAt = s.now ∧ j ∉ t.fio.roundLeft ∧ Frame [.fio] s t) ∧
    (s.fio.testBusy = true → exec (.testPulseStart j) s = .next s) ∧
    (s.fio.testBusy = false → ∀ mv, exec (.testPulseEnd mv) s = .next s) ∧
    (s.fio.testBusy = true → s.fio.testOut = j → ∀ mv : Int,
      (s.fio.testLight = false → ∃ t, exec (.testPulseEnd mv) s = .next t ∧ t.fio.testBusy = false ∧
        t.now = max s.now (s.fio.testAt + 400 * pulseUs false s) ∧ t.fio.lastTestEnd = t.now ∧
        (mv < 7000 → t.fio.passed = satInc s.fio.passed ∧ (Claim.outOf j t).darkFail = false ∧ t.events = s.events) ∧
        (7000 ≤ mv → t.fio.passed = s.fio.passed ∧ (Claim.outOf j t).darkFail = true ∧ Latched .fio 6 t)) ∧
      (s.fio.testLight = true → ∃ t, exec (.testPulseEnd mv) s = .next t ∧ t.fio.testBusy = false ∧
        (s.fio.lpMv - 3000 < mv → (Claim.outOf j t).lightFail = false ∧ t.events = s.events) ∧
        (mv ≤ s.fio.lpMv - 3000 → (Claim.outOf j t).lightFail = true ∧ Latched .fio 7 t)))

/-- Field outputs and their open-load tests. -/
def Obligations.FieldOutputsAndTests : Prop :=
  Claim.FieldOutputsObeyTheirOwner ∧
    Claim.FieldOutputTestsAreJudged

/-- A demand locks the outputs: every enable line stops, the gate supervisor blocks every channel, the source and the
pennant say why, and M11 is requested (R318 to R320, R323).
The time up to a due event passes as the model counts it (log entry 3).
That inputs act in the cycle of SAFE is the model's reading (log entry 44). -/
def Sys2Proof.Claim.DemandsLockTheOutputs : Prop :=
  ∀ (s : State),
    (∀ key : Half, key ≠ 0x504C ∨ safeOn s = false → exec (.plkCmdDemand key) s = .next s) ∧
    (safeOn s = true → s.plk.locked = false →
      (∃ t, exec (.plkCmdDemand 0x504C) s = .next t ∧ t.plk.locked = true ∧ t.plk.lines = 0 ∧ t.plk.source = 7 ∧
        t.plk.stopAt = s.now ∧ t.gate.allOff = true ∧ t.gate.fg = s.gate.fg ∧ (∀ c : Fin 32, gateOn t c = false) ∧
        Latched .plk 0 t ∧
        (s.md ≤ 10 → (s.mode.busy = false ∨ s.mode.target ≠ 11) → t.mode.busy = true ∧ t.mode.target = 11 ∧
          t.mode.nextCause = 4) ∧ Frame [.plk, .gate, .mode, .events, .board] s t) ∧
      (∀ (n : Nat) (v : Word), u8 (recD s 0xA0 0) 0 = n → n < 16 → diByNum n s = false → s.plk.pulseRun = false →
        s.plk.maskUntil = 0 → ∃ t, exec (.safeCycle v) s = .next t ∧ t.plk.locked = true ∧ t.plk.lines = 0 ∧
          t.gate.allOff = true ∧ Latched .plk 0 t ∧
          (diByNum (u8 (recD s 0xA0 0) 1) s = true → t.plk.source = 1))) ∧
    (s.md ≠ 10 → exec .degrExpired s = .next s) ∧
    (s.md = 10 → s.plk.locked = false → (s.mode.busy = false ∨ s.mode.target ≠ 11) → ∃ t, exec .degrExpired s = .next t ∧
      t.plk.locked = true ∧ t.plk.source = 6 ∧ t.plk.lines = 0 ∧ t.gate.allOff = true ∧ t.mode.busy = true ∧
      t.mode.target = 11 ∧ t.mode.nextCause = 5 ∧ t.mode.nextEvt = 0x80 ∧
      t.now = max s.now (s.mode.degrAt + s.plk.degrLeft))

/-- A quiet SAFE cycle only takes the reported detectors; a stopped line turns its channel off 20 µs later; the supply pulse
and the self-test watch the function itself (R318, R321, R322).
The time up to a due event passes as the model counts it (log entry 3). -/
def Sys2Proof.Claim.SafeCyclesWatchTheChannels : Prop :=
  ∀ (s : State), (safeOn s = false → ∀ (v : Word) (b : Bool), exec (.safeCycle v) s = .next s ∧ exec .supplyPulse s = .next s ∧
      exec (.safeSelfTest b) s = .next s) ∧
    (safeOn s = true →
      (∀ (v : Word) (n : Fin 16), u8 (recD s 0xA0 0) 0 = 0xFF → u8 (recD s 0xA0 0) 1 = n.val → diReads n s = true →
        s.plk.pulseRun = false → s.plk.maskUntil = 0 → (∀ k : Fin 8, conTransport k s = 0) → s.plk.self = false →
        s.plk.readback = false → s.plk.pulse = false → s.plk.startFail = false → s.clock.safeRing = false →
        reducedNow s = s.plk.reduced → s.plk.respRun = false → s.plk.guardLow = none → s.plk.lines = 0xFFFFFFFF →
        ∃ t, exec (.safeCycle v) s = .next t ∧ t.plk = { s.plk with reported := v, seen := 0 } ∧ s.now ≤ t.now ∧
          Frame [.plk, .time] s t) ∧
      (∃ t, exec .supplyPulse s = .next t ∧ t.plk = { s.plk with pulseRun := true } ∧ s.now ≤ t.now ∧ t.mode = s.mode) ∧
      (s.plk.pulseRun = true → (∃ t, exec (.supplyPulseEnd true true) s = .next t ∧ t.plk.pulseRun = false ∧
          t.plk.pulse = false ∧ t.plk.maskUntil = t.now + 8000 ∧ t.plk.locked = s.plk.locked ∧ t.mode = s.mode) ∧
        (∃ t, exec (.supplyPulseEnd true false) s = .next t ∧ t.plk.pulse = true ∧ t.plk.locked = true ∧
          Latched .plk 4 t)) ∧
      (∃ t, exec (.safeSelfTest true) s = .next t ∧ t.plk = s.plk ∧ Frame [.time] s t) ∧
      (∃ t, exec (.safeSelfTest false) s = .next t ∧ t.plk.self = true ∧ t.plk.locked = true ∧ Latched .plk 4 t)) ∧
    (∀ c : Fin 32, (bit s.plk.lines c.val = true ∨ bit s.plk.enabled c.val = false →
        exec (.enableDetectOff c) s = .next s) ∧
      (bit s.plk.lines c.val = false → bit s.plk.enabled c.val = true → ∃ t, exec (.enableDetectOff c) s = .next t ∧
        bit t.plk.enabled c.val = false ∧ (∀ d : Fin 32, d ≠ c → bit t.plk.enabled d.val = bit s.plk.enabled d.val) ∧
        (t.gate.ch[c]).onUntil.any (fun u => decide (u ≤ t.now)) = true ∧ t.now = max s.now (s.plk.stopAt + 8000) ∧
        Frame [.plk, .gate, .time] s t))

/-- Demands lock the outputs; safe cycles watch the channels. -/
def Obligations.DemandsAndSafeCycles : Prop :=
  Claim.DemandsLockTheOutputs ∧
    Claim.SafeCyclesWatchTheChannels

/-- A reset that R324 permits comes: RST_DI, or the RESET bit of a running connection, has fallen after 0.1 s to 2 s, or the
host's RESET with its key where HOST_RESET is set. -/
def Sys2Proof.Claim.resetComes (src : ResetSource) (s : State) : Bool :=
  match src with
  | .rstDi => (idx 16).any fun n =>
    let x := s.fio.inp[n]
    decide (u8 (recD s 0xA0 0) 2 = n.val) && diValid n s && !x.level && x.fallTs != s.plk.rstSeen &&
      decide (x.riseTs.toNat < x.fallTs.toNat) && decide (40000000 ≤ (x.fallTs - x.riseTs).toNat) &&
      decide ((x.fallTs - x.riseTs).toNat ≤ 800000000)
  | .frame k => decide ((s.plk.conn[k]).state = 2) &&
    ((s.plk.conn[k]).resetLen).any fun n => decide (40000000 ≤ n) && decide (n ≤ 800000000)
  | .host key => decide (key = 0x504C) && (u8 (recD s 0xA0 0) 5).testBit 0

/-- A reset is accepted from a field input, a frame or the host where R324 permits it, logged, and leads M11 to M3; a refused
one only raises its pennant, and a wrong key or pattern is none (R324, R328).
What wrong patterns and keys do is the model's reading (log entry 45). -/
def Sys2Proof.Claim.ResetsAreJudged : Prop :=
  ∀ (s : State), safeOn s = true →
    (Claim.resetComes .rstDi s = false → ∃ t, exec (.plkReset .rstDi) s = .next t ∧
      t.plk.locked = s.plk.locked ∧ Frame [.plk] s t) ∧
    (∀ k : Fin 8, Claim.resetComes (.frame k) s = false → ∃ t, exec (.plkReset (.frame k)) s = .next t ∧
      t.plk.locked = s.plk.locked ∧ (t.plk.conn[k]).resetLen = none ∧ Frame [.plk] s t) ∧
    (∀ key : Half, key ≠ 0x504C → exec (.plkReset (.host key)) s = .next s) ∧
    (∀ src : ResetSource, Claim.resetComes src s = true →
      (resetReady s = false → ∃ t, exec (.plkReset src) s = .next t ∧ Latched .plk 9 t ∧
        t.plk.locked = s.plk.locked ∧ Claim.resetComes .rstDi t = (decide (src ≠ .rstDi) && Claim.resetComes .rstDi s) ∧
        Frame [.plk, .events, .board] s t) ∧
      (resetReady s = true → ∃ t, exec (.plkReset src) s = .next t ∧ t.plk.locked = false ∧
        t.plk.lines = 0xFFFFFFFF ∧ t.plk.enabled = 0xFFFFFFFF ∧ Latched .plk 1 t ∧
        t.plk.logCnt = satInc s.plk.logCnt ∧ (s.gate.ch = t.gate.ch) ∧
        (s.md = 11 → s.mode.busy = false → t.mode.busy = true ∧ t.mode.target = 3 ∧ t.mode.nextCause = 2) ∧
        (t.gate.allOff = true ↔ s.claim.a.claim = 0 ∧ s.claim.b.claim = 0))) ∧
    ((u8 (recD s 0xA0 0) 5).testBit 0 = false → exec (.plkReset (.host 0x504C)) s = .next (raise .plk 9 s))

/-- The proof interval makes the start-up test due in a running module without changing the mode, and a lockout of
SAFEAUTH ends after its length (R325, R327).
The time up to a due event passes as the model counts it (log entry 3). -/
def Sys2Proof.Claim.ProofIntervalAndLockoutEnd : Prop :=
  ∀ (s : State),
    (s.plk.passedSec = none → exec .proofExpired s = .next s) ∧
    (s.plk.testDue = true → exec .proofExpired s = .next s) ∧
    (∀ n : Nat, s.plk.passedSec = some n → safeOn s = true → s.plk.testDue = false → utcLocked s = true →
      ∃ t, exec .proofExpired s = .next t ∧ t.plk = { s.plk with testDue := true, testCause := 4 } ∧ s.now ≤ t.now ∧
        Frame [.plk, .time] s t) ∧
    (s.plk.lockEnd = none → exec .pwLockoutEnd s = .next s) ∧
    (∀ at0 : Nat, s.plk.lockEnd = some at0 → ∃ t, exec .pwLockoutEnd s = .next t ∧
      t.plk = { s.plk with lockEnd := none } ∧ t.now = max s.now at0 ∧ Frame [.plk, .time] s t)

/-- Resets are judged; proof interval and lockout end. -/
def Obligations.ResetsAndProofIntervals : Prop :=
  Claim.ResetsAreJudged ∧
    Claim.ProofIntervalAndLockoutEnd

/-- Black-channel connections: a malformed frame is counted only, a wrong identity, sequence or time-out length fails the
connection, the third frame in sequence makes it run, silence beyond TEXP fails it, and its status goes out on time
(R329 to R331).
The time up to a due event passes as the model counts it (log entry 3). -/
def Obligations.ConnectionsJudgeTheirFrames : Prop :=
  ∀ (s : State) (k : Fin 8) (c : Conn), c = s.plk.conn[k] → safeOn s = true → conTransport k s ≠ 0 →
    (∀ b : List Byte, frameOk b = false → 0 < c.good → c.state = 2 → c.lastAt + 400000 * conTexp k s < s.now →
      ∃ t, exec (.safetyFrameRx k b) s = .next t ∧ (t.plk.conn[k]).state = 3 ∧ (t.plk.conn[k]).err = 4 ∧
        (t.plk.conn[k]).fails = satInc c.fails ∧ (t.plk.conn[k]).crcCnt = satInc c.crcCnt ∧ Latched .plk 6 t) ∧
    (∀ b : List Byte, c.good = 0 ∨ s.now ≤ c.lastAt + 400000 * conTexp k s → frameOk b = false → ∃ t, exec (.safetyFrameRx k b) s = .next t ∧
      t.plk.conn[k] = { c with crcCnt := satInc c.crcCnt } ∧ Frame [.plk] s t) ∧
    (∀ b : List Byte, c.good = 0 ∨ s.now ≤ c.lastAt + 400000 * conTexp k s → frameOk b = true →
      (u32 b 4 ≠ u32 (recD s 0xA0 0) (68 + 16 * k.val) ∨ u32 b 8 ≠ u32 (recD s 0xA0 0) 12 →
        ∃ t, exec (.safetyFrameRx k b) s = .next t ∧ (t.plk.conn[k]).state = 3 ∧ (t.plk.conn[k]).err = 2 ∧
          (t.plk.conn[k]).fails = satInc c.fails ∧ Latched .plk 6 t ∧ (conReduces k s = false → t.plk.locked = true)) ∧
      (u32 b 4 = u32 (recD s 0xA0 0) (68 + 16 * k.val) → u32 b 8 = u32 (recD s 0xA0 0) 12 → c.state ≠ 3 → 0 < c.good →
        (BitVec.ofNat 16 (u16 b 2) = c.seq → exec (.safetyFrameRx k b) s = .next s) ∧
        (BitVec.ofNat 16 (u16 b 2) ≠ c.seq → BitVec.ofNat 16 (u16 b 2) ≠ c.seq + 1 →
          ∃ t, exec (.safetyFrameRx k b) s = .next t ∧ (t.plk.conn[k]).state = 3 ∧ (t.plk.conn[k]).err = 3) ∧
        (BitVec.ofNat 16 (u16 b 2) = c.seq + 1 → u16 b 12 = u16 (recD s 0xA0 0) (66 + 16 * k.val) → c.good = 2 →
          ∃ t, exec (.safetyFrameRx k b) s = .next t ∧ (t.plk.conn[k]).state = 2 ∧ (t.plk.conn[k]).good = 3 ∧
            (t.plk.conn[k]).run = (u16 b 14).testBit 0 ∧ (t.plk.conn[k]).seq = c.seq + 1 ∧
            (t.plk.conn[k]).lastAt = s.now))) ∧
    (c.state = 1 ∨ c.state = 2 →
      (c.good = 0 → exec (.connectionTimeout k) s = .next s) ∧
      (0 < c.good → ∃ t, exec (.connectionTimeout k) s = .next t ∧ (t.plk.conn[k]).state = 3 ∧
        (t.plk.conn[k]).err = 4 ∧ (t.plk.conn[k]).fails = satInc c.fails ∧ Latched .plk 6 t ∧
        t.now = max s.now (c.lastAt + 400000 * conTexp k s) ∧ (conReduces k s = false → t.plk.locked = true)) ∧
      (∃ t, exec (.safetyStatusTx k) s = .next t ∧
        t.plk.conn[k] = { c with txSeq := c.txSeq + 1, txAt := t.now } ∧
        t.now = max s.now (c.txAt + 400000 * max 1 (conTexp k s / 2)) ∧
        (conCarries k s = true → ∃ bs : List Byte, t.outbox = s.outbox ++ [.safety k.val bs] ∧ bs.length = 20 ∧
          u8 bs 0 = 1 ∧ u8 bs 1 = 2 ∧ u16 bs 2 = c.txSeq.toNat ∧ u32 bs 4 = u32 (recD s 0xA0 0) 12 ∧
          u32 bs 16 = crc32c (bs.take 16)) ∧
        (conCarries k s = false → t.outbox = s.outbox) ∧ Frame [.plk, .time, .outbox] s t)) ∧
    (c.state = 0 ∨ c.state = 3 → exec (.safetyStatusTx k) s = .next s ∧ exec (.connectionTimeout k) s = .next s)

/-- The recorder of a lane. -/
def Sys2Proof.Claim.recOf (l : Lane) (s : State) : RecState := (s.lane l).rcd

/-- The first enabled trigger of a segment stamps it with REC_TRIG and crosses the link; a second one counts as a retrigger,
and one in the dead time as missed; a source that the record does not list starts nothing (R338 to R340, R344, R345). -/
def Sys2Proof.Claim.RecorderTriggersAreTakenOnce : Prop :=
  ∀ (s : State) (l : Lane) (src : Fin 118) (frac : Fin 100) (r : RecState), r = Claim.recOf l s →
    (r.due.all (fun d => d.1 != src.val) = true → exec (.recTrig l src frac) s = .next s) ∧
    (∀ (at0 : Long) (rest : List (Nat × Long)), r.due = (src.val, at0) :: rest →
      (∀ k : Fin 8, r.cur = some k → segStartRaw l s ≤ (at0.toNat : Int) →
        (r.run.trig = none → ∃ t, exec (.recTrig l src frac) s = .next t ∧ Latched (.rcd l) 0 t ∧
          (Claim.recOf l t).seg[k] = 2 ∧ (Claim.recOf l t).cur = some k ∧ (Claim.recOf l t).due = rest ∧
          (Claim.recOf l t).run.trig = some ⟨at0, if recOldTime s then 0 else frac.val, src.val⟩ ∧
          (Claim.recOf l t).run.postRaw = u32 (recD s 0x90 0) 8 ∧
          (Claim.recOf l t).run.postDec = u32 (recD s 0x90 0) 12 ∧
          (tsuUp s = true → (Claim.recOf (otherLane l) s).running = true →
            (Claim.recOf (otherLane l) t).xin =
              (Claim.recOf (otherLane l) s).xin ++ [⟨at0, if recOldTime s then 0 else frac.val, src.val⟩])) ∧
        (∀ x : RecTrigger, r.run.trig = some x → ∃ t, exec (.recTrig l src frac) s = .next t ∧ Latched (.rcd l) 1 t ∧
          (Claim.recOf l t).run.retrig = satInc r.run.retrig ∧ (Claim.recOf l t).run.trig = some x ∧
          (Claim.recOf l t).run.extended = (r.run.extended || u8 (recD s 0x90 0) 6 == 1) ∧
          (Claim.recOf l t).seg = r.seg)) ∧
      (r.cur = none → ∃ t, exec (.recTrig l src frac) s = .next t ∧ Latched (.rcd l) 3 t ∧
        (Claim.recOf l t).missed = satInc r.missed ∧ (Claim.recOf l t).seg = r.seg)) ∧
    (r.xin = [] → exec (.xlaneTrigger l) s = .next s) ∧
    (∀ (x : RecTrigger) (rest : List RecTrigger) (k : Fin 8), r.xin = x :: rest → r.cur = some k → r.run.trig = none →
      segStartRaw l s ≤ (x.ticks.toNat : Int) → ∃ t, exec (.xlaneTrigger l) s = .next t ∧
        (Claim.recOf l t).xin = rest ∧ (Claim.recOf l t).run.trig = some x ∧
        (Claim.recOf l t).run.xlane = true ∧ Latched (.rcd l) 0 t) ∧
    (r.running = false ∨ recTrigOn 116 s = false → r.due.all (fun d => d.1 != 116) = true →
      ∃ t, exec (.recCmdTrig l) s = .next t ∧ Frame [.free] s t) ∧
    (r.running = true → recTrigOn 116 s = true → r.due.all (fun d => d.1 != 116) = true → r.cur = none →
      ∃ t, exec (.recCmdTrig l) s = .next t ∧
      Latched (.rcd l) 3 t ∧ (Claim.recOf l t).missed = satInc r.missed) ∧
    (∀ k : Fin 8, r.running = true → recTrigOn 116 s = true → r.due.all (fun d => d.1 != 116) = true → r.cur = some k →
      r.run.trig = none → segStartRaw l s ≤ (s.raw.toNat : Int) → ∃ t, exec (.recCmdTrig l) s = .next t ∧ Latched (.rcd l) 0 t ∧
        ∃ f : Nat, f < 100 ∧ (Claim.recOf l t).run.trig = some ⟨s.raw, if recOldTime s then 0 else f, 116⟩)

/-- A complete record holds its segment under the next sequence number and the lowest free segment goes on within 1 µs, or
REC_FULL is raised; a release frees held segments only; the offsets are measured every second (R341, R343, R345, R346).
The time up to a due event passes as the model counts it (log entry 3). -/
def Sys2Proof.Claim.RecordsCompleteAndAreReleased : Prop :=
  ∀ (s : State) (l : Lane) (r : RecState), r = Claim.recOf l s →
    (r.run.doneAt = none → exec (.recDone l) s = .next s) ∧
    (∀ (k : Fin 8) (at0 : Nat), r.cur = some k → r.run.doneAt = some at0 → ∃ t, exec (.recDone l) s = .next t ∧
      (Claim.recOf l t).seg[k] = 3 ∧ (Claim.recOf l t).seq = r.seq + 1 ∧
      (Claim.recOf l t).lastSeg.toNat = k.val ∧ (Claim.recOf l t).lastSeq = BitVec.ofNat 24 (r.seq + 1) ∧
      Latched (.rcd l) 2 t ∧ t.now = max s.now at0 ∧
      ((∀ j : Fin 8, j ≠ k → j.val < recNseg s → r.seg[j] ≠ 0) → (Claim.recOf l t).cur = none ∧
        Latched (.rcd l) 4 t) ∧
      (∀ j : Fin 8, j ≠ k → j.val < recNseg s → r.seg[j] = 0 → (∀ i : Fin 8, i < j → i ≠ k → r.seg[i] ≠ 0) →
        (Claim.recOf l t).cur = some j ∧ (Claim.recOf l t).seg[j] = 1 ∧
        at0 ≤ (Claim.recOf l t).run.startAt ∧ (Claim.recOf l t).run.startAt ≤ at0 + 400 ∧
        (Claim.recOf l t).run.trig = none)) ∧
    (∀ mask : Byte, ∃ t, exec (.recRelease l mask) s = .next t ∧
      (tsuOut s l).queue.length ≤ (tsuOut t l).queue.length ∧
      (∀ k : Fin 8, bit mask k.val = false → r.seg[k] ≠ 0 → (Claim.recOf l t).seg[k] = r.seg[k]) ∧
      (∀ k : Fin 8, r.seg[k] = 2 → (Claim.recOf l t).seg[k] = 2) ∧
      (∀ k : Fin 8, bit mask k.val = true → r.seg[k] = 3 → r.cur.isSome = true → (Claim.recOf l t).seg[k] = 0) ∧
      Frame [lanePart l, .claim] s t) ∧
    (∀ offs : List Int, (r.running = false → exec (.recOffsetMeasure l offs) s = .next s) ∧
      (r.running = true → ∃ t, exec (.recOffsetMeasure l offs) s = .next t ∧
        (∀ p : Fin 32, (Claim.recOf l t).meas[p] = BitVec.ofInt 16 (offs.getD p.val 0)) ∧
        (Claim.recOf l t).run = r.run ∧ Frame [lanePart l, .time] s t))

/-- Recorder triggers are taken once; records complete and are released. -/
def Obligations.RecorderTriggersAndRecords : Prop :=
  Claim.RecorderTriggersAreTakenOnce ∧
    Claim.RecordsCompleteAndAreReleased

/-- A port that answers at once: it works, nothing waits or stalls on it, and a response has its place (R353). -/
@[reducible] def Sys2Proof.Claim.idlePort (p : HostPort) (s : State) : Prop :=
  portAlive p s = true ∧ (hostPort p s).queue = [] ∧ portStalled p s = false ∧ unanswered p s < 8 ∧ outRoom p s = true

/-- The frame that answers a request (R351, R353). -/
def Sys2Proof.Claim.reply (r : HostRequest) (status : Nat) (payload : List Byte) : HostFrame :=
  { bytes := frameBytes 2 r.tag.toNat r.cmd.toNat status payload, ip := r.ip, sport := r.sport }

/-- The response of a request has been queued: on HSP it is the last frame of the outbound queue, on the network it is the
newest stored response (R351 to R353). -/
@[reducible] def Sys2Proof.Claim.answered (p : HostPort) (r : HostRequest) (status : Nat) (payload : List Byte)
    (s t : State) : Prop :=
  (hostPort p t).queue = (hostPort p s).queue ∧
    (p = .hsp → t.host.hsp.out = s.host.hsp.out ++ [Claim.reply r status payload]) ∧
    (p = .net → t.host.net.store.head? = some (r.tag, Claim.reply r status payload))

/-- Frames are checked, requests join their queue or are discarded with HOST_OVF, a frame leaves HSP only whole, and a
repeated datagram is not executed again (R350 to R353). -/
def Sys2Proof.Claim.HostFramesAreCheckedAndQueued : Prop :=
  ∀ (s : State) (bs : List Byte),
    (s.md = 0 → exec (.hspFrameIn bs) s = .next s ∧ ∀ c : Bool, exec (.hspFrameOut c) s = .next s) ∧
    (s.md ≠ 0 →
      (pennantOk bs = false → ∃ t, exec (.hspFrameIn bs) s = .next t ∧ Latched .hcp 2 t ∧
        t.host.hsp.errCnt = satInc s.host.hsp.errCnt ∧ t.host.hsp.queue = s.host.hsp.queue ∧
        Frame [.host, .events, .board] s t) ∧
      (pennantOk bs = true → u8 bs 3 ≠ 1 → exec (.hspFrameIn bs) s = .next s) ∧
      (pennantOk bs = true → u8 bs 3 = 1 → unanswered .hsp s < 8 → outRoom .hsp s = true →
        ∃ t, exec (.hspFrameIn bs) s = .next t ∧ t.host.hsp.queue = s.host.hsp.queue ++ [frameRequest bs 0 0] ∧
          t.events = s.events ∧ Frame [.host] s t) ∧
      (pennantOk bs = true → u8 bs 3 = 1 → 8 ≤ unanswered .hsp s → ∃ t, exec (.hspFrameIn bs) s = .next t ∧
        Latched .hcp 3 t ∧ t.host.hsp.queue = s.host.hsp.queue ∧ Frame [.events, .board] s t) ∧
      exec (.hspFrameOut false) s = .next s ∧
      (s.host.hsp.out = [] → exec (.hspFrameOut true) s = .next { s with
        outbox := s.outbox ++ [.hsp (frameBytes 0 0 0 0 [])] }) ∧
      (∀ (f : HostFrame) (rest : List HostFrame), s.host.hsp.out = f :: rest → ∃ t, exec (.hspFrameOut true) s = .next t ∧ t.host.hsp.out = rest ∧
        t.outbox = s.outbox ++ [.hsp f.bytes] ∧ Frame [.host, .outbox] s t)) ∧
    (∀ (ip : Word) (sp : Half), (portAlive .net s = false → exec (.udpRequest ip sp bs) s = .next s) ∧
      (portAlive .net s = true →
        (bs.length ≠ 16 + u16 bs 8 → ∃ t, exec (.udpRequest ip sp bs) s = .next t ∧
          t.host.net.errCnt = satInc s.host.net.errCnt ∧ t.host.net.queue = s.host.net.queue ∧ Frame [.host] s t) ∧
        (bs.length = 16 + u16 bs 8 → pennantOk bs = true → u8 bs 3 = 1 →
          (∀ f : HostFrame, repeated (frameRequest bs ip sp) s = some (some f) → ∃ t,
            exec (.udpRequest ip sp bs) s = .next t ∧ Latched .hcp 6 t ∧ t.host.net.queue = s.host.net.queue ∧
            Frame [.host, .net, .outbox, .events, .board] s t) ∧
          (repeated (frameRequest bs ip sp) s = none → unanswered .net s < 8 → outRoom .net s = true → ∃ t,
            exec (.udpRequest ip sp bs) s = .next t ∧
            t.host.net.queue = s.host.net.queue ++ [frameRequest bs ip sp] ∧ Frame [.host] s t))))

/-- READ and WRITE of shared SRAM, their refusals, the board commands, and the STATUS 3 of what is unknown (R353, R354,
R394). -/
def Obligations.PortCommandsAreAnswered : Prop :=
  ∀ (s : State) (p : HostPort) (tag : Half), Claim.idlePort p s →
    (∀ (a n : Word), ∀ r : HostRequest, r = { tag := tag, cmd := 0x01, payload := ofWords [a, n] } →
      (n = 0 ∨ 255 < n.toNat → ∃ t, exec (.read p tag a n) s = .next t ∧ Claim.answered p r 3 [] s t ∧
        Frame [.host, .net, .outbox] s t) ∧
      (0 < n.toNat → n.toNat ≤ 255 →
        (targetOf a.toNat = none → ∃ t, exec (.read p tag a n) s = .next t ∧ Claim.answered p r 11 [] s t) ∧
        (∀ tg : Nat, targetOf a.toNat = some tg → transferKind (portMaster p) tg a.toNat 4 false s ≠ 0 → ∃ t,
          exec (.read p tag a n) s = .next t ∧ Claim.answered p r 4 [] s t ∧ Latched .acc 0 t ∧
          t.mesh.vcount = satInc s.mesh.vcount ∧ Frame [.host, .net, .outbox, .mesh, .events, .board] s t) ∧
        (a.toNat % 4 = 0 → 0x1000000 ≤ a.toNat → a.toNat + 4 * n.toNat ≤ 0x1800000 →
          codeFor s (portMaster p) 16 = 1 ∨ codeFor s (portMaster p) 16 = 3 → ∃ t,
          exec (.read p tag a n) s = .next t ∧ Claim.answered p r 0 (sharedBytes a.toNat (4 * n.toNat) s) s t ∧
          Frame [.host, .net, .outbox, .mesh, .power, .time] s t))) ∧
    (∀ (a : Word) (ws : List Word), ∀ r : HostRequest,
      r = { tag := tag, cmd := 0x02, payload := ofWords (a :: wd ws.length :: ws) } →
      (ws = [] ∨ (254 < ws.length ∧ ws.length < 1024) → ∃ t, exec (.write p tag a ws) s = .next t ∧
        Claim.answered p r 3 [] s t ∧ Frame [.host, .net, .outbox] s t) ∧
      (0 < ws.length → ws.length ≤ 254 →
        (∀ tg : Nat, targetOf a.toNat = some tg → modeBars (portMaster p) tg true s = true → ∃ t,
          exec (.write p tag a ws) s = .next t ∧ Claim.answered p r 5 (leBytes 4 0) s t ∧ Latched .mode 2 t ∧
          Frame [.host, .net, .outbox, .events, .board] s t) ∧
        (a.toNat % 4 = 0 → 0x1000000 ≤ a.toNat → a.toNat + 4 * ws.length ≤ 0x1800000 →
          modeBars (portMaster p) 16 true s = false →
          (∀ k, k < ws.length → transferKind (portMaster p) 16 (a.toNat + 4 * k) 4 true s = 0) → ∃ t,
          exec (.write p tag a ws) s = .next t ∧ Claim.answered p r 0 (leBytes 4 ws.length) s t ∧
          t.sram = sparsePutAll 0 s.sram a.toNat (ofWords ws) ∧
          (∀ x : Nat, x < a.toNat ∨ a.toNat + 4 * ws.length ≤ x → sparseGet 0 t.sram x = sparseGet 0 s.sram x) ∧
          Frame [.host, .net, .outbox, .mesh, .sram, .power, .time] s t))) ∧
    (∃ t, exec (.pntGet p tag) s = .next t ∧
      Claim.answered p { tag := tag, cmd := 0x10 } 0 (leBytes 32 s.host.raised.toNat) s t ∧
      Frame [.host, .net, .outbox] s t) ∧
    (∀ mask : BitVec 256, ∃ t, exec (.pntClear p tag mask) s = .next t ∧
      ∃ u, exec (.subscribe p tag mask) s = .next u ∧
      (s.md ≠ 2 → t.host.raised = s.host.raised &&& ~~~mask ∧ t.events = s.events ∧
        Claim.answered p { tag := tag, cmd := 0x11, payload := leBytes 32 mask.toNat } 0 [] s t ∧
        (hostPort p u).sub = mask ∧ (∀ q, q ≠ p → (hostPort q u).sub = (hostPort q s).sub) ∧
        Claim.answered p { tag := tag, cmd := 0x12, payload := leBytes 32 mask.toNat } 0 [] s u ∧
        Frame [.host, .net, .outbox] s u) ∧
      (s.md = 2 → Latched .mode 2 t ∧ Latched .mode 2 u ∧ (hostPort p u).sub = (hostPort p s).sub ∧
        Claim.answered p { tag := tag, cmd := 0x11, payload := leBytes 32 mask.toNat } 5 [] s t ∧
        Claim.answered p { tag := tag, cmd := 0x12, payload := leBytes 32 mask.toNat } 5 [] s u)) ∧
    (∀ cmd : Byte, cmd ≠ 0x10 → ∃ t, exec (.unknownCommand p tag cmd) s = .next t ∧
      Claim.answered p { tag := tag, cmd := cmd } 3 [] s t ∧ Frame [.host, .net, .outbox] s t)

/-- A notification goes out no sooner than the interval of its port, with the next NSEQ, the tick of the first pennant and
the bitmap; without a place it is dropped and its pennants are kept (R356).
The time up to a due event passes as the model counts it (log entry 3). -/
def Sys2Proof.Claim.NotificationsKeepTheirInterval : Prop :=
  ∀ (s : State) (p : HostPort) (x : HostPortState), x = hostPort p s →
    (portAlive p s = false ∨ x.pend = 0 ∨ hasDest p x = false → exec (.notificationTx p) s = .next s) ∧
    (portAlive p s = true → x.pend ≠ 0 → hasDest p x = true → ∃ t, exec (.notificationTx p) s = .next t ∧
      t.now = (match x.lastNotif with
        | none => s.now
        | some q => max s.now (q + notifGap p)) ∧
      (hostPort p t).lastNotif = some t.now ∧
      (outRoom p s = true → (hostPort p t).nseq = x.nseq + 1 ∧ (hostPort p t).pend = 0 ∧ t.events = s.events ∧
        (p = .hsp → t.host.hsp.out = x.out ++ [{
          bytes := frameBytes 3 0 0 0 (leBytes 4 (x.nseq + 1).toNat ++ leBytes 8 x.first.toNat ++ leBytes 32 x.pend.toNat),
          ip := x.destIp, sport := x.destPort }])) ∧
      (outRoom p s = false → Latched .hcp 4 t ∧ (hostPort p t).nseq = x.nseq ∧ (hostPort p t).pend &&& x.pend = x.pend ∧
        (hostPort p t).out = x.out) ∧
      Frame [.time, .host, .net, .outbox, .events, .board] s t)

/-- Host frames are checked and queued; notifications keep their interval. -/
def Obligations.HostFramesAndNotifications : Prop :=
  Claim.HostFramesAreCheckedAndQueued ∧
    Claim.NotificationsKeepTheirInterval

/-- The mailbox of a number. -/
def Sys2Proof.Claim.mboxOf (k : Fin 16) (s : State) : Mailbox := s.host.mbox[k]

/-- A mailbox has posted a result: the next SEQ of the module, unread, and RESULT_READY (R357). -/
@[reducible] def Sys2Proof.Claim.posted (k : Fin 16) (op status : Nat) (r0 r1 : Word) (s t : State) : Prop :=
  Claim.mboxOf k t = {
    running := none, posted := true, readMark := false, seq := s.host.seq + 1, op := BitVec.ofNat 8 op,
    status := BitVec.ofNat 4 status, res := #v[r0, r1, 0, 0] } ∧
  t.host.seq = s.host.seq + 1 ∧ Latched .hcp 0 t ∧ ∀ j : Fin 16, j ≠ k → Claim.mboxOf j t = Claim.mboxOf j s

/-- The OPSTART rows: the number of the operation, the arguments it uses, and its command. -/
def Sys2Proof.Claim.opRows (p : HostPort) (tag : Half) (mb : Byte) (force : Bool) (a b c : Word) :
    List (Nat × (Word × Word × Word × Word) × Instr) :=
  [(1, (a, b, c, 0), .opCopy p tag mb force a b c), (2, (a, b, 0, 0), .opCrc p tag mb force a b),
    (3, (a, b, c, 0), .opSnapshot p tag mb force a b c), (4, (a, b, c, 0), .opCkptCopy p tag mb force a b c),
    (5, (a, b, 0, 0), .opRecWait p tag mb force a b), (6, (a, 0, 0, 0), .opMeshSnap p tag mb force a),
    (7, (a, b, c, 0), .opCanSend p tag mb force a b c), (8, (a, b, 0, 0), .opNetEcho p tag mb force a b)]

/-- An operation may start in mailbox k: its arguments and the mode permit it, and the mailbox is free or its result may be
dropped (R357). -/
@[reducible] def Sys2Proof.Claim.mayStart (n : Nat) (x : Word × Word × Word × Word) (k : Fin 16) (mb : Byte) (force : Bool)
    (s : State) : Prop :=
  mb.toNat = k.val ∧ opArgsOk n x.1 x.2.1 x.2.2.1 s = true ∧ opBarred n s = false ∧
    (Claim.mboxOf k s).running = none ∧
    ((Claim.mboxOf k s).posted = false ∨ (Claim.mboxOf k s).readMark = true ∨ force = true)

/-- An operation has started: STATUS 1, and its mailbox runs it (R357). -/
@[reducible] def Sys2Proof.Claim.started (n : Nat) (x : Word × Word × Word × Word) (k : Fin 16) (p : HostPort) (tag : Half)
    (mb : Byte) (force : Bool) (s t : State) : Prop :=
  Claim.answered p (opRequest tag mb n force x) 1 [] s t ∧
    Claim.mboxOf k t = { Claim.mboxOf k s with
      running := some { op := BitVec.ofNat 8 n, port := p, args := x, startedAt := s.now } } ∧
    (∀ j : Fin 16, j ≠ k → Claim.mboxOf j t = Claim.mboxOf j s) ∧ t.sram = s.sram

/-- OPSTART starts an operation with STATUS 1, or answers 3, 5, 6 or 7 and starts nothing (R357, R394); each of the eight
operations starts where its arguments, the mode and its mailbox permit it.
The order of the refusals is the model's reading (log entry 50). -/
def Sys2Proof.Claim.OperationsStartOrAreRefused : Prop :=
  ∀ (s : State) (p : HostPort) (tag : Half) (k : Fin 16) (force : Bool) (a b c : Word) (mb : Byte),
    Claim.idlePort p s →
    (∀ (row : Nat × (Word × Word × Word × Word) × Instr) (r : HostRequest),
      row ∈ Claim.opRows p tag mb force a b c → r = opRequest tag mb row.1 force row.2.1 →
      (15 < mb.toNat ∨ opArgsOk row.1 row.2.1.1 row.2.1.2.1 row.2.1.2.2.1 s = false → ∃ t, exec row.2.2 s = .next t ∧
        Claim.answered p r 3 [] s t ∧ t.host.mbox = s.host.mbox ∧ Frame [.host, .net, .outbox] s t) ∧
      (mb.toNat = k.val → opArgsOk row.1 row.2.1.1 row.2.1.2.1 row.2.1.2.2.1 s = true →
        (opBarred row.1 s = true → ∃ t, exec row.2.2 s = .next t ∧ Claim.answered p r 5 [] s t ∧
          Latched .mode 2 t ∧ t.host.mbox = s.host.mbox ∧ Frame [.host, .net, .outbox, .events, .board] s t) ∧
        (opBarred row.1 s = false →
          ((Claim.mboxOf k s).running.isSome = true → ∃ t, exec row.2.2 s = .next t ∧
            Claim.answered p r 6 [] s t ∧ t.host.mbox = s.host.mbox ∧ Frame [.host, .net, .outbox] s t) ∧
          ((Claim.mboxOf k s).running = none → (Claim.mboxOf k s).posted = true →
            (Claim.mboxOf k s).readMark = false → force = false → ∃ t, exec row.2.2 s = .next t ∧
            Claim.answered p r 7 [] s t ∧ t.host.mbox = s.host.mbox ∧ Frame [.host, .net, .outbox] s t)))) ∧
    (Claim.mayStart 1 (a, b, c, 0) k mb force s → ∃ t, exec (.opCopy p tag mb force a b c) s = .next t ∧
      Claim.started 1 (a, b, c, 0) k p tag mb force s t ∧
      Frame [.host, .net, .outbox] s t) ∧
    (Claim.mayStart 2 (a, b, 0, 0) k mb force s → ∃ t, exec (.opCrc p tag mb force a b) s = .next t ∧
      Claim.started 2 (a, b, 0, 0) k p tag mb force s t ∧
      Frame [.host, .net, .outbox] s t) ∧
    (Claim.mayStart 3 (a, b, c, 0) k mb force s → ∃ t, exec (.opSnapshot p tag mb force a b c) s = .next t ∧
      Claim.started 3 (a, b, c, 0) k p tag mb force s t ∧
      Frame [.host, .net, .outbox] s t) ∧
    (Claim.mayStart 4 (a, b, c, 0) k mb force s → ∃ t, exec (.opCkptCopy p tag mb force a b c) s = .next t ∧
      Claim.started 4 (a, b, c, 0) k p tag mb force s t ∧
      Frame [.host, .net, .outbox] s t) ∧
    (Claim.mayStart 5 (a, b, 0, 0) k mb force s → ∃ t, exec (.opRecWait p tag mb force a b) s = .next t ∧
      Claim.started 5 (a, b, 0, 0) k p tag mb force s t ∧
      Frame [.host, .net, .outbox] s t) ∧
    (Claim.mayStart 6 (a, 0, 0, 0) k mb force s → ∃ t, exec (.opMeshSnap p tag mb force a) s = .next t ∧
      Claim.started 6 (a, 0, 0, 0) k p tag mb force s t ∧
      Frame [.host, .net, .outbox] s t) ∧
    (Claim.mayStart 7 (a, b, c, 0) k mb force s →
      transferKind (portMaster p) ((targetOf (0x80018 + 0x4000 * a.toNat)).getD 0) (0x80018 + 0x4000 * a.toNat) 4 true s = 0 →
      ∃ t, exec (.opCanSend p tag mb force a b c) s = .next t ∧
      Claim.started 7 (a, b, c, 0) k p tag mb force s t) ∧
    (Claim.mayStart 8 (a, b, 0, 0) k mb force s → ∃ t, exec (.opNetEcho p tag mb force a b) s = .next t ∧
      Claim.started 8 (a, b, 0, 0) k p tag mb force s t ∧
      Frame [.host, .net, .outbox] s t)

/-- A running operation completes with its result words, or passes its timeout with STATUS 12; the others go on (R357).
The time up to a due event passes as the model counts it (log entry 3). -/
def Sys2Proof.Claim.OperationsCompleteOrTimeOut : Prop :=
  ∀ (s : State) (k : Fin 16) (echo : Nat),
    ((Claim.mboxOf k s).running = none → exec (.operationComplete k echo) s = .next s ∧
      exec (.operationTimeout k) s = .next s) ∧
    (∀ o : RunningOp, (Claim.mboxOf k s).running = some o →
      (opReady k o s = false → exec (.operationComplete k echo) s = .next s) ∧
      (boltWaits (BitVec.ofNat 8 k.val) s = false →
        (o.op = 8 → echo ≤ 1000 * o.args.2.1.toNat → ∃ t, exec (.operationComplete k echo) s = .next t ∧
          Claim.posted k 8 0 (wd echo) 0 s t ∧ t.now = max s.now (o.startedAt + 400 * echo)) ∧
        (o.op = 5 ∨ o.op = 7 → ∀ r0 r1 : Word, o.done = some (r0, r1) → ∃ t, exec (.operationComplete k echo) s = .next t ∧
          Claim.posted k o.op.toNat 0 r0 r1 s t ∧ Frame [.host, .events, .board] s t) ∧
        (∀ m : Master, m = portMaster o.port → ∀ a b c : Word, a = o.args.1 → b = o.args.2.1 → c = o.args.2.2.1 →
          s.md ≠ 0 →
          (o.op = 2 → a.toNat % 4 = 0 → b.toNat % 4 = 0 → 0x1000000 ≤ a.toNat → a.toNat + b.toNat ≤ 0x1800000 →
            codeFor s m 16 = 1 ∨ codeFor s m 16 = 3 → ∃ t, exec (.operationComplete k echo) s = .next t ∧
            Claim.posted k 2 0 (wd (crc32c (sharedBytes a.toNat b.toNat s))) b s t ∧
            Frame [.host, .mesh, .events, .board, .power, .time] s t) ∧
          (o.op = 1 → a.toNat % 8 = 0 → b.toNat % 8 = 0 → c.toNat % 8 = 0 → 0x1000000 ≤ a.toNat → 0x1000000 ≤ b.toNat →
            a.toNat + c.toNat ≤ b.toNat ∨ b.toNat + c.toNat ≤ a.toNat → a.toNat + c.toNat ≤ 0x1800000 →
            b.toNat + c.toNat ≤ 0x1800000 → codeFor s m 16 = 3 → hasRec s 0x90 0 = false →
            modeBars m 16 true s = false → ∃ t, exec (.operationComplete k echo) s = .next t ∧
            Claim.posted k 1 0 c 0 s t ∧
            (∀ i, i < c.toNat → sparseWf 0 s.sram = true →
              sparseGet 0 t.sram (b.toNat + i) = sparseGet 0 s.sram (a.toNat + i)) ∧
            (∀ x, x < b.toNat ∨ b.toNat + c.toNat ≤ x → sparseGet 0 t.sram x = sparseGet 0 s.sram x) ∧
            Frame [.host, .mesh, .events, .board, .sram, .power, .time] s t) ∧
          (o.op = 6 → a.toNat % 4 = 0 → 0x1000000 ≤ a.toNat → a.toNat + 168 ≤ 0x1800000 → codeFor s m 16 = 3 →
            hasRec s 0x90 0 = false → modeBars m 16 true s = false → ∃ t,
            exec (.operationComplete k echo) s = .next t ∧ Claim.posted k 6 0 14 0 s t ∧
            t.sram = sparsePutAll 0 s.sram a.toNat (ofWords (meshWords s))))) ∧
      (∀ q : Nat, opTimeout o = some q → o.done = none → boltWaits (BitVec.ofNat 8 k.val) s = false → ∃ t,
        exec (.operationTimeout k) s = .next t ∧ Claim.posted k o.op.toNat 12 0 0 s t ∧
        t.now = max s.now (o.startedAt + 400000 * q) ∧ Frame [.time, .host, .events, .board] s t) ∧
      (opTimeout o = none ∨ o.done.isSome = true → exec (.operationTimeout k) s = .next s))

/-- Mailbox operations start, complete or time out. -/
def Obligations.OperationsStartAndComplete : Prop :=
  Claim.OperationsStartOrAreRefused ∧
    Claim.OperationsCompleteOrTimeOut

/-- A result read, by RESULT or through HCP_MBSTAT, returns the status word and the result words as they stand, and changes
nothing but the read mark (R358). -/
def Obligations.ResultReadsChangeOnlyTheReadMark : Prop :=
  (∀ x : Mailbox, (mboxWord x).toNat / 65536 = x.seq.toNat ∧ bit (mboxWord x) 1 = x.readMark ∧
    bit (mboxWord x) 0 = (x.posted && x.running.isNone) ∧ bit (mboxWord x) 2 = x.running.isSome) ∧
  (∀ k : Fin 16, mboxWord (Claim.mboxOf k .reset) = 0 ∧ (Claim.mboxOf k .reset).res = #v[0, 0, 0, 0]) ∧
  (∀ (s : State) (p : HostPort) (tag : Half) (mb : Word) (r : HostRequest), Claim.idlePort p s →
    r = { tag := tag, cmd := 0x21, payload := ofWords [mb] } →
    (15 < mb.toNat → ∃ t, exec (.result p tag mb) s = .next t ∧ Claim.answered p r 3 [] s t) ∧
    (∀ k : Fin 16, mb.toNat = k.val → ∃ t, exec (.result p tag mb) s = .next t ∧
      Claim.answered p r 0
        (ofWords (mboxWord (Claim.mboxOf k s) :: (Claim.mboxOf k s).res.toList)) s t ∧
      Claim.mboxOf k t = { Claim.mboxOf k s with readMark := (Claim.mboxOf k s).posted } ∧
      (∀ j : Fin 16, j ≠ k → Claim.mboxOf j t = Claim.mboxOf j s) ∧ Frame [.host, .net, .outbox] s t)) ∧
  (∀ (s : State) (k : Fin 16), s.host.mbSel.toNat = k.val → ∃ t, exec .mbstatRead s = .next t ∧
    t.host.latched = (Claim.mboxOf k s).res ∧ t.host.seq = s.host.seq ∧
    Claim.mboxOf k t = { Claim.mboxOf k s with readMark := (Claim.mboxOf k s).posted } ∧
    (∀ j : Fin 16, j ≠ k → Claim.mboxOf j t = Claim.mboxOf j s) ∧ Frame [.host] s t)

/-- Deadbolts: a completed unread result wins with STATUS 10, an idle target gives 8, a running one is aborted with STATUS 9
when it stops; bad targets, M2 and missing access are refused (R359).
When an aborted target stops within its longest time is free (log entry 4).
The order of the refusals is the model's reading (log entry 51). -/
def Obligations.DeadboltsAreDecidedOnce : Prop :=
  (∀ (s : State) (p : HostPort) (tag : Half) (w : Word) (r : HostRequest), Claim.idlePort p s →
    r = { tag := tag, cmd := 0x22, payload := ofWords [w] } →
    (w ≠ 0x80 → 15 < w.toNat → ∃ t, exec (.deadbolt p tag w) s = .next t ∧ Claim.answered p r 3 [] s t ∧
      t.host.bolts = s.host.bolts) ∧
    (w = 0x80 ∨ w.toNat ≤ 15 → s.md = 2 → ∃ t, exec (.deadbolt p tag w) s = .next t ∧
      Claim.answered p r 5 [] s t ∧ Latched .mode 2 t ∧ t.host.bolts = s.host.bolts) ∧
    (w = 0x80 ∨ w.toNat ≤ 15 → s.md ≠ 2 →
      (codeFor s (portMaster p) 14 < 2 → ∃ t, exec (.deadbolt p tag w) s = .next t ∧
        Claim.answered p r 4 [] s t ∧ t.host.bolts = s.host.bolts) ∧
      (2 ≤ codeFor s (portMaster p) 14 → codeFor s (portMaster p) 14 ≤ 4 →
        (w = 0x80 → s.key.running.isSome = true → ∃ t, exec (.deadbolt p tag w) s = .next t ∧
          t.host.bolts = s.host.bolts ++ [{ target := 0x80, port := some p, tag := tag, req := r, at0 := s.now }] ∧
          (hostPort p t).out = (hostPort p s).out ∧ Frame [.host] s t) ∧
        (w = 0x80 → s.key.running = none → ∃ t, exec (.deadbolt p tag w) s = .next t ∧
          Claim.answered p r 8 (ofWords [pack [(8, 8), (0, 0x80)]]) s t ∧ t.host.bolts = s.host.bolts ∧
          Frame [.host, .net, .outbox] s t) ∧
        (∀ k : Fin 16, w.toNat = k.val →
          ((Claim.mboxOf k s).running.isSome = true → ∃ t, exec (.deadbolt p tag w) s = .next t ∧
            t.host.bolts = s.host.bolts ++ [{
              target := BitVec.ofNat 8 k.val, port := some p, tag := tag, req := r, at0 := s.now }] ∧
            t.host.mbox = s.host.mbox ∧ (hostPort p t).out = (hostPort p s).out ∧ Frame [.host] s t) ∧
          ((Claim.mboxOf k s).running = none → (Claim.mboxOf k s).posted = true →
            (Claim.mboxOf k s).readMark = false → ∃ t, exec (.deadbolt p tag w) s = .next t ∧
            Claim.answered p r 10 (ofWords [pack [(8, 10), (0, k.val)]]) s t ∧ Latched .hcp 5 t ∧
            t.host.mbox = s.host.mbox ∧ t.host.bolts = s.host.bolts ∧
            Frame [.host, .net, .outbox, .events, .board] s t) ∧
          ((Claim.mboxOf k s).running = none →
            (Claim.mboxOf k s).posted = false ∨ (Claim.mboxOf k s).readMark = true → ∃ t,
            exec (.deadbolt p tag w) s = .next t ∧
            Claim.answered p r 8 (ofWords [pack [(8, 8), (0, k.val)]]) s t ∧ t.host.mbox = s.host.mbox ∧
            Frame [.host, .net, .outbox] s t))))) ∧
  (∀ (s : State) (done : Nat), (s.host.bolts = [] → exec (.deadboltAbort done) s = .next s) ∧
    (∀ (p : HostPort) (r : HostRequest) (tag : Half) (k : Fin 16) (o : RunningOp) (q : Nat),
      s.host.bolts = [{ target := BitVec.ofNat 8 k.val, port := some p, tag := tag, req := r, at0 := q }] →
      (Claim.mboxOf k s).running = some o → o.op = 5 ∨ o.op = 8 → ∃ t, exec (.deadboltAbort done) s = .next t ∧
        Claim.posted k o.op.toNat 9 0 0 s t ∧ Latched .hcp 1 t ∧ t.host.bolts = [] ∧
        Claim.answered p r 9 (ofWords [pack [(8, 9), (0, k.val)]]) s t ∧
        s.now ≤ t.now ∧ t.now ≤ max s.now (q + if o.op = 8 then 20000 else 1600) ∧
        Frame [.host, .net, .outbox, .events, .board, .time, .free] s t) ∧
    (∀ (p : HostPort) (r : HostRequest) (tag : Half) (x : KeyRun) (q : Nat),
      s.host.bolts = [{ target := 0x80, port := some p, tag := tag, req := r, at0 := q }] → s.key.running = some x → ∃ t,
        exec (.deadboltAbort done) s = .next t ∧ t.key.running = none ∧ Latched .key 4 t ∧ Latched .hcp 1 t ∧
        t.host.bolts = [] ∧ s.now ≤ t.now ∧ t.now ≤ max s.now (q + 8000000) ∧
        Claim.answered p r 9 (ofWords [pack [(8, 9), (0, 0x80)]]) s t))

/-- Corrected errors are counted, more than 10 in an hour raise ECC_TREND, and the third one of a row within 24 h starts its
repair: a spare row, else a spare bank, else SPARE_OUT (R362, R367, R370). -/
def Sys2Proof.Claim.CorrectedErrorsStartRepairs : Prop :=
  ∀ (s : State) (wh : Option Lane) (bank : Fin 50) (row : Nat), ∃ t, exec (.eccCorrected wh bank row) s = .next t ∧
    t.wear.ecc[sramNum wh] = satInc s.wear.ecc[sramNum wh] ∧
    (∀ j : Fin 3, j ≠ sramNum wh → t.wear.ecc[j] = s.wear.ecc[j]) ∧
    (eccWithin (sramNum wh) (secs 3600) s = 10 → Latched .wear 4 t) ∧
    (wh = none → t.wear.rowSwaps = s.wear.rowSwaps ∧ t.wear.bankSwaps = s.wear.bankSwaps) ∧
    (∀ l : Lane, wh = some l →
      (rowErrors (sramNum wh) bank.val row s + 1 < 3 ∨ sramSwapRuns l bank.val row s = true →
        t.wear.rowSwaps = s.wear.rowSwaps ∧ t.wear.bankSwaps = s.wear.bankSwaps) ∧
      (2 ≤ rowErrors (sramNum wh) bank.val row s → sramSwapRuns l bank.val row s = false →
        (rowsTaken l bank.val s < 16 → t.wear.rowSwaps = s.wear.rowSwaps ++ [(l, bank.val, row, s.now)] ∧
          t.wear.bankSwaps = s.wear.bankSwaps) ∧
        (16 ≤ rowsTaken l bank.val s →
          ((s.wear.bankSwaps.filter fun x => x.1 = l).length < spareLeft 2 (laneNum l) s →
            t.wear.bankSwaps = s.wear.bankSwaps ++ [(l, bank.val, s.now)] ∧ t.wear.rowSwaps = s.wear.rowSwaps) ∧
          (spareLeft 2 (laneNum l) s ≤ (s.wear.bankSwaps.filter fun x => x.1 = l).length →
            at' s.wear.outSeen (6 + laneNum l) false = false → Latched .wear 2 t ∧
            t.wear.queue.length = s.wear.queue.length + 1 ∧ t.wear.bankSwaps = s.wear.bankSwaps)))) ∧
    Frame [.wear, .events, .board] s t

/-- A swap that completes takes its spare, is logged, raises HINGE_SWAP and joins the repair map; one that does not complete
raises SWAP_FAIL and takes none (R362, R364, R367, R368). When a swap ends within its longest time is free (log entry 4). -/
def Sys2Proof.Claim.HingeSwapsTakeASpare : Prop :=
  ∀ (s : State) (l : Lane),
    (s.wear.rowSwaps = [] → ∀ ok : Bool, exec (.rowSwapDone l ok) s = .next s) ∧
    (s.wear.bankSwaps = [] → ∀ ok : Bool, exec (.bankSwapDone l ok) s = .next s) ∧
    (∀ (bank row at0 : Nat) (rest : List (Lane × Nat × Nat × Nat)), s.wear.rowSwaps = (l, bank, row, at0) :: rest →
      (∃ t, exec (.rowSwapDone l false) s = .next t ∧ t.wear.rowSwaps = rest ∧ s.now ≤ t.now ∧ t.now ≤ max s.now (at0 + 40000) ∧ Latched .wear 3 t ∧
        t.wear.used = s.wear.used ∧ t.wear.repairs = s.wear.repairs ∧
        t.wear.queue.length = s.wear.queue.length + 1 ∧ Frame [.wear, .events, .board, .time, .free] s t) ∧
      (spareUsed 1 (laneNum l) s < 768 → (sparseGet 0 s.wear.rowsUsed (64 * laneNum l + bank)).toNat < 16 → ∃ t,
        exec (.rowSwapDone l true) s = .next t ∧ t.wear.rowSwaps = rest ∧ s.now ≤ t.now ∧ t.now ≤ max s.now (at0 + 40000) ∧ Latched .wear 0 t ∧
        spareUsed 1 (laneNum l) t = spareUsed 1 (laneNum l) s + 1 ∧
        (spareLeft 1 (laneNum l) s = 1 → Latched .wear 1 t) ∧
        sparseGet 0 t.wear.rowsUsed (64 * laneNum l + bank) = sparseGet 0 s.wear.rowsUsed (64 * laneNum l + bank) + 1 ∧
        rowErrors (sramNum (some l)) bank row t = 0 ∧
        t.wear.repairs = s.wear.repairs ++ [⟨1, BitVec.ofNat 8 (laneNum l), BitVec.ofNat 16 (bank * 256 + row),
          BitVec.ofNat 8 (sparseGet 0 s.wear.rowsUsed (64 * laneNum l + bank)).toNat⟩] ∧
        t.wear.mapDirty = some (s.wear.mapDirty.getD t.now) ∧ t.wear.queue.length = s.wear.queue.length + 1 ∧
        Frame [.wear, .events, .board, .time, .free] s t)) ∧
    (∀ (bank at0 : Nat) (rest : List (Lane × Nat × Nat)), s.wear.bankSwaps = (l, bank, at0) :: rest →
      (∃ t, exec (.bankSwapDone l false) s = .next t ∧ t.wear.bankSwaps = rest ∧ s.now ≤ t.now ∧ t.now ≤ max s.now (at0 + 8000000) ∧ Latched .wear 3 t ∧
        t.wear.used = s.wear.used ∧ Frame [.wear, .events, .board, .time, .free] s t) ∧
      (spareUsed 2 (laneNum l) s < 2 → ∃ t, exec (.bankSwapDone l true) s = .next t ∧ t.wear.bankSwaps = rest ∧ s.now ≤ t.now ∧ t.now ≤ max s.now (at0 + 8000000) ∧
        Latched .wear 0 t ∧ spareUsed 2 (laneNum l) t = spareUsed 2 (laneNum l) s + 1 ∧
        (spareLeft 2 (laneNum l) s = 1 → Latched .wear 1 t) ∧
        (∀ row : Nat, rowErrors (sramNum (some l)) bank row t = 0) ∧ Frame [.wear, .events, .board, .time, .free] s t)) ∧
    (∀ (k : Fin 5) (errors : Nat),
      (s.fio.on = false ∨ errors < 8 ∨ (k = 4 ∧ s.fio.spareLane = false) → exec (.couplerLaneSwap k errors) s = .next s) ∧
      (s.fio.on = true → 8 ≤ errors → s.fio.spareLane = false → spareUsed 9 2 s = 0 → k.val < 4 → ∃ t,
        exec (.couplerLaneSwap k errors) s = .next t ∧ t.fio = { s.fio with spareLane := true } ∧ Latched .wear 0 t ∧
        Latched .wear 1 t ∧ t.wear.repairs = s.wear.repairs ∧ Frame [.fio, .wear, .events, .board] s t) ∧
      (s.fio.on = true → 8 ≤ errors → s.fio.spareLane = true → at' s.wear.outSeen 29 false = false → ∃ t,
        exec (.couplerLaneSwap k errors) s = .next t ∧ Latched .wear 2 t ∧ Frame [.wear, .events, .board] s t) ∧
      (s.fio.on = true → 8 ≤ errors → s.fio.spareLane = true → at' s.wear.outSeen 29 false = true →
        exec (.couplerLaneSwap k errors) s = .next s))

/-- Corrected errors start repairs; swaps take a spare. -/
def Obligations.SpareSwapsAndRepairs : Prop :=
  Claim.CorrectedErrorsStartRepairs ∧
    Claim.HingeSwapsTakeASpare

/-- The repair map is written with the next generation, or MAP_FAIL after 50 ms; the oldest log entry is written behind the
keyring's commands, or dropped without room (R364, R367, R368, R370).
The time up to a due event passes as the model counts it (log entry 3); when the map is written is free (log entry 4).
That MAP_FAIL starts its time anew is the model's reading (log entry 47). -/
def Obligations.RepairMapAndSwapLogAreWritten : Prop :=
  ∀ (s : State),
    (s.wear.mapDirty = none → exec .repairMapWritten s = .next s ∧ exec .mapFail s = .next s) ∧
    (∀ t0 : Nat, s.wear.mapDirty = some t0 →
      (∃ t, exec .repairMapWritten s = .next t ∧ t.wear = { s.wear with
        written := s.wear.repairs, mapGen := satInc s.wear.mapGen, mapDirty := none } ∧
        s.now ≤ t.now ∧ t.now ≤ max s.now (t0 + 20000000) ∧ Frame [.wear, .time, .free] s t) ∧
      ∃ t, exec .mapFail s = .next t ∧ t.now = max s.now (t0 + 20000000) ∧ t.wear.mapDirty = some t.now ∧
        Latched .wear 6 t ∧ t.wear.written = s.wear.written ∧ t.wear.repairs = s.wear.repairs ∧
        Frame [.time, .wear, .events, .board] s t) ∧
    (∀ room : Bool, (s.key.running.isSome = true ∨ s.wear.queue = [] → exec (.swapLogWrite room) s = .next s) ∧
      (s.key.running = none → ∀ (e : SwapEntry) (rest : List SwapEntry), s.wear.queue = e :: rest → ∃ t, exec (.swapLogWrite room) s = .next t ∧
        t.wear.queue = rest ∧
        (room = true → t.wear.log.head? = some (swapBytes e s.wear.logCnt) ∧ t.wear.logCnt = satInc s.wear.logCnt ∧
          t.wear.log.length ≤ 16384 ∧ t.events = s.events) ∧
        (room = false → t.wear.log = s.wear.log ∧ t.wear.logCnt = s.wear.logCnt ∧ Latched .wear 5 t) ∧
        Frame [.wear, .events, .board] s t))
end

