-- ==== Sys2Proof/Laws/State.lean ====
section
/-! SUPPORT. What each update of the state leaves: for every update one lemma over the fields it does not touch, and its
own field. All are true by unfolding. -/

namespace Sys2Proof.Machine

@[simp] theorem modPower_frame (f : PowerState → PowerState) (s : State) :
    (modPower f s).now = s.now ∧ (modPower f s).raw = s.raw ∧ (modPower f s).fresh = s.fresh ∧ (modPower f s).ticks = s.ticks ∧ (modPower f s).events = s.events ∧ (modPower f s).pending = s.pending ∧ (modPower f s).clock = s.clock ∧ (modPower f s).mode = s.mode ∧ (modPower f s).key = s.key ∧ (modPower f s).mesh = s.mesh ∧ (modPower f s).laneA = s.laneA ∧ (modPower f s).laneB = s.laneB ∧ (modPower f s).gate = s.gate ∧ (modPower f s).claim = s.claim ∧ (modPower f s).net = s.net ∧ (modPower f s).time = s.time ∧ (modPower f s).can = s.can ∧ (modPower f s).fio = s.fio ∧ (modPower f s).plk = s.plk ∧ (modPower f s).host = s.host ∧ (modPower f s).wear = s.wear ∧ (modPower f s).sram = s.sram ∧ (modPower f s).outbox = s.outbox :=
  ⟨rfl, rfl, rfl, rfl, rfl, rfl, rfl, rfl, rfl, rfl, rfl, rfl, rfl, rfl, rfl, rfl, rfl, rfl, rfl, rfl, rfl, rfl, rfl⟩

@[simp] theorem modPower_power (f : PowerState → PowerState) (s : State) : (modPower f s).power = f s.power := rfl

@[simp] theorem modClock_frame (f : ClockState → ClockState) (s : State) :
    (modClock f s).now = s.now ∧ (modClock f s).raw = s.raw ∧ (modClock f s).fresh = s.fresh ∧ (modClock f s).ticks = s.ticks ∧ (modClock f s).events = s.events ∧ (modClock f s).pending = s.pending ∧ (modClock f s).power = s.power ∧ (modClock f s).mode = s.mode ∧ (modClock f s).key = s.key ∧ (modClock f s).mesh = s.mesh ∧ (modClock f s).laneA = s.laneA ∧ (modClock f s).laneB = s.laneB ∧ (modClock f s).gate = s.gate ∧ (modClock f s).claim = s.claim ∧ (modClock f s).net = s.net ∧ (modClock f s).time = s.time ∧ (modClock f s).can = s.can ∧ (modClock f s).fio = s.fio ∧ (modClock f s).plk = s.plk ∧ (modClock f s).host = s.host ∧ (modClock f s).wear = s.wear ∧ (modClock f s).sram = s.sram ∧ (modClock f s).outbox = s.outbox :=
  ⟨rfl, rfl, rfl, rfl, rfl, rfl, rfl, rfl, rfl, rfl, rfl, rfl, rfl, rfl, rfl, rfl, rfl, rfl, rfl, rfl, rfl, rfl, rfl⟩

@[simp] theorem modClock_clock (f : ClockState → ClockState) (s : State) : (modClock f s).clock = f s.clock := rfl

@[simp] theorem modMode_frame (f : ModeState → ModeState) (s : State) :
    (modMode f s).now = s.now ∧ (modMode f s).raw = s.raw ∧ (modMode f s).fresh = s.fresh ∧ (modMode f s).ticks = s.ticks ∧ (modMode f s).events = s.events ∧ (modMode f s).pending = s.pending ∧ (modMode f s).power = s.power ∧ (modMode f s).clock = s.clock ∧ (modMode f s).key = s.key ∧ (modMode f s).mesh = s.mesh ∧ (modMode f s).laneA = s.laneA ∧ (modMode f s).laneB = s.laneB ∧ (modMode f s).gate = s.gate ∧ (modMode f s).claim = s.claim ∧ (modMode f s).net = s.net ∧ (modMode f s).time = s.time ∧ (modMode f s).can = s.can ∧ (modMode f s).fio = s.fio ∧ (modMode f s).plk = s.plk ∧ (modMode f s).host = s.host ∧ (modMode f s).wear = s.wear ∧ (modMode f s).sram = s.sram ∧ (modMode f s).outbox = s.outbox :=
  ⟨rfl, rfl, rfl, rfl, rfl, rfl, rfl, rfl, rfl, rfl, rfl, rfl, rfl, rfl, rfl, rfl, rfl, rfl, rfl, rfl, rfl, rfl, rfl⟩

@[simp] theorem modMode_mode (f : ModeState → ModeState) (s : State) : (modMode f s).mode = f s.mode := rfl

@[simp] theorem modKey_frame (f : KeyState → KeyState) (s : State) :
    (modKey f s).now = s.now ∧ (modKey f s).raw = s.raw ∧ (modKey f s).fresh = s.fresh ∧ (modKey f s).ticks = s.ticks ∧ (modKey f s).events = s.events ∧ (modKey f s).pending = s.pending ∧ (modKey f s).power = s.power ∧ (modKey f s).clock = s.clock ∧ (modKey f s).mode = s.mode ∧ (modKey f s).mesh = s.mesh ∧ (modKey f s).laneA = s.laneA ∧ (modKey f s).laneB = s.laneB ∧ (modKey f s).gate = s.gate ∧ (modKey f s).claim = s.claim ∧ (modKey f s).net = s.net ∧ (modKey f s).time = s.time ∧ (modKey f s).can = s.can ∧ (modKey f s).fio = s.fio ∧ (modKey f s).plk = s.plk ∧ (modKey f s).host = s.host ∧ (modKey f s).wear = s.wear ∧ (modKey f s).sram = s.sram ∧ (modKey f s).outbox = s.outbox :=
  ⟨rfl, rfl, rfl, rfl, rfl, rfl, rfl, rfl, rfl, rfl, rfl, rfl, rfl, rfl, rfl, rfl, rfl, rfl, rfl, rfl, rfl, rfl, rfl⟩

@[simp] theorem modKey_key (f : KeyState → KeyState) (s : State) : (modKey f s).key = f s.key := rfl

@[simp] theorem modMesh_frame (f : MeshState → MeshState) (s : State) :
    (modMesh f s).now = s.now ∧ (modMesh f s).raw = s.raw ∧ (modMesh f s).fresh = s.fresh ∧ (modMesh f s).ticks = s.ticks ∧ (modMesh f s).events = s.events ∧ (modMesh f s).pending = s.pending ∧ (modMesh f s).power = s.power ∧ (modMesh f s).clock = s.clock ∧ (modMesh f s).mode = s.mode ∧ (modMesh f s).key = s.key ∧ (modMesh f s).laneA = s.laneA ∧ (modMesh f s).laneB = s.laneB ∧ (modMesh f s).gate = s.gate ∧ (modMesh f s).claim = s.claim ∧ (modMesh f s).net = s.net ∧ (modMesh f s).time = s.time ∧ (modMesh f s).can = s.can ∧ (modMesh f s).fio = s.fio ∧ (modMesh f s).plk = s.plk ∧ (modMesh f s).host = s.host ∧ (modMesh f s).wear = s.wear ∧ (modMesh f s).sram = s.sram ∧ (modMesh f s).outbox = s.outbox :=
  ⟨rfl, rfl, rfl, rfl, rfl, rfl, rfl, rfl, rfl, rfl, rfl, rfl, rfl, rfl, rfl, rfl, rfl, rfl, rfl, rfl, rfl, rfl, rfl⟩

@[simp] theorem modMesh_mesh (f : MeshState → MeshState) (s : State) : (modMesh f s).mesh = f s.mesh := rfl

@[simp] theorem modGate_frame (f : GateState → GateState) (s : State) :
    (modGate f s).now = s.now ∧ (modGate f s).raw = s.raw ∧ (modGate f s).fresh = s.fresh ∧ (modGate f s).ticks = s.ticks ∧ (modGate f s).events = s.events ∧ (modGate f s).pending = s.pending ∧ (modGate f s).power = s.power ∧ (modGate f s).clock = s.clock ∧ (modGate f s).mode = s.mode ∧ (modGate f s).key = s.key ∧ (modGate f s).mesh = s.mesh ∧ (modGate f s).laneA = s.laneA ∧ (modGate f s).laneB = s.laneB ∧ (modGate f s).claim = s.claim ∧ (modGate f s).net = s.net ∧ (modGate f s).time = s.time ∧ (modGate f s).can = s.can ∧ (modGate f s).fio = s.fio ∧ (modGate f s).plk = s.plk ∧ (modGate f s).host = s.host ∧ (modGate f s).wear = s.wear ∧ (modGate f s).sram = s.sram ∧ (modGate f s).outbox = s.outbox :=
  ⟨rfl, rfl, rfl, rfl, rfl, rfl, rfl, rfl, rfl, rfl, rfl, rfl, rfl, rfl, rfl, rfl, rfl, rfl, rfl, rfl, rfl, rfl, rfl⟩

@[simp] theorem modGate_gate (f : GateState → GateState) (s : State) : (modGate f s).gate = f s.gate := rfl

@[simp] theorem modClaim_frame (f : ClaimState → ClaimState) (s : State) :
    (modClaim f s).now = s.now ∧ (modClaim f s).raw = s.raw ∧ (modClaim f s).fresh = s.fresh ∧ (modClaim f s).ticks = s.ticks ∧ (modClaim f s).events = s.events ∧ (modClaim f s).pending = s.pending ∧ (modClaim f s).power = s.power ∧ (modClaim f s).clock = s.clock ∧ (modClaim f s).mode = s.mode ∧ (modClaim f s).key = s.key ∧ (modClaim f s).mesh = s.mesh ∧ (modClaim f s).laneA = s.laneA ∧ (modClaim f s).laneB = s.laneB ∧ (modClaim f s).gate = s.gate ∧ (modClaim f s).net = s.net ∧ (modClaim f s).time = s.time ∧ (modClaim f s).can = s.can ∧ (modClaim f s).fio = s.fio ∧ (modClaim f s).plk = s.plk ∧ (modClaim f s).host = s.host ∧ (modClaim f s).wear = s.wear ∧ (modClaim f s).sram = s.sram ∧ (modClaim f s).outbox = s.outbox :=
  ⟨rfl, rfl, rfl, rfl, rfl, rfl, rfl, rfl, rfl, rfl, rfl, rfl, rfl, rfl, rfl, rfl, rfl, rfl, rfl, rfl, rfl, rfl, rfl⟩

@[simp] theorem modClaim_claim (f : ClaimState → ClaimState) (s : State) : (modClaim f s).claim = f s.claim := rfl

@[simp] theorem modNet_frame (f : NetState → NetState) (s : State) :
    (modNet f s).now = s.now ∧ (modNet f s).raw = s.raw ∧ (modNet f s).fresh = s.fresh ∧ (modNet f s).ticks = s.ticks ∧ (modNet f s).events = s.events ∧ (modNet f s).pending = s.pending ∧ (modNet f s).power = s.power ∧ (modNet f s).clock = s.clock ∧ (modNet f s).mode = s.mode ∧ (modNet f s).key = s.key ∧ (modNet f s).mesh = s.mesh ∧ (modNet f s).laneA = s.laneA ∧ (modNet f s).laneB = s.laneB ∧ (modNet f s).gate = s.gate ∧ (modNet f s).claim = s.claim ∧ (modNet f s).time = s.time ∧ (modNet f s).can = s.can ∧ (modNet f s).fio = s.fio ∧ (modNet f s).plk = s.plk ∧ (modNet f s).host = s.host ∧ (modNet f s).wear = s.wear ∧ (modNet f s).sram = s.sram ∧ (modNet f s).outbox = s.outbox :=
  ⟨rfl, rfl, rfl, rfl, rfl, rfl, rfl, rfl, rfl, rfl, rfl, rfl, rfl, rfl, rfl, rfl, rfl, rfl, rfl, rfl, rfl, rfl, rfl⟩

@[simp] theorem modNet_net (f : NetState → NetState) (s : State) : (modNet f s).net = f s.net := rfl

@[simp] theorem modTime_frame (f : TimeState → TimeState) (s : State) :
    (modTime f s).now = s.now ∧ (modTime f s).raw = s.raw ∧ (modTime f s).fresh = s.fresh ∧ (modTime f s).ticks = s.ticks ∧ (modTime f s).events = s.events ∧ (modTime f s).pending = s.pending ∧ (modTime f s).power = s.power ∧ (modTime f s).clock = s.clock ∧ (modTime f s).mode = s.mode ∧ (modTime f s).key = s.key ∧ (modTime f s).mesh = s.mesh ∧ (modTime f s).laneA = s.laneA ∧ (modTime f s).laneB = s.laneB ∧ (modTime f s).gate = s.gate ∧ (modTime f s).claim = s.claim ∧ (modTime f s).net = s.net ∧ (modTime f s).can = s.can ∧ (modTime f s).fio = s.fio ∧ (modTime f s).plk = s.plk ∧ (modTime f s).host = s.host ∧ (modTime f s).wear = s.wear ∧ (modTime f s).sram = s.sram ∧ (modTime f s).outbox = s.outbox :=
  ⟨rfl, rfl, rfl, rfl, rfl, rfl, rfl, rfl, rfl, rfl, rfl, rfl, rfl, rfl, rfl, rfl, rfl, rfl, rfl, rfl, rfl, rfl, rfl⟩

@[simp] theorem modTime_time (f : TimeState → TimeState) (s : State) : (modTime f s).time = f s.time := rfl

@[simp] theorem modFio_frame (f : FioState → FioState) (s : State) :
    (modFio f s).now = s.now ∧ (modFio f s).raw = s.raw ∧ (modFio f s).fresh = s.fresh ∧ (modFio f s).ticks = s.ticks ∧ (modFio f s).events = s.events ∧ (modFio f s).pending = s.pending ∧ (modFio f s).power = s.power ∧ (modFio f s).clock = s.clock ∧ (modFio f s).mode = s.mode ∧ (modFio f s).key = s.key ∧ (modFio f s).mesh = s.mesh ∧ (modFio f s).laneA = s.laneA ∧ (modFio f s).laneB = s.laneB ∧ (modFio f s).gate = s.gate ∧ (modFio f s).claim = s.claim ∧ (modFio f s).net = s.net ∧ (modFio f s).time = s.time ∧ (modFio f s).can = s.can ∧ (modFio f s).plk = s.plk ∧ (modFio f s).host = s.host ∧ (modFio f s).wear = s.wear ∧ (modFio f s).sram = s.sram ∧ (modFio f s).outbox = s.outbox :=
  ⟨rfl, rfl, rfl, rfl, rfl, rfl, rfl, rfl, rfl, rfl, rfl, rfl, rfl, rfl, rfl, rfl, rfl, rfl, rfl, rfl, rfl, rfl, rfl⟩

@[simp] theorem modFio_fio (f : FioState → FioState) (s : State) : (modFio f s).fio = f s.fio := rfl

@[simp] theorem modPlk_frame (f : PlkState → PlkState) (s : State) :
    (modPlk f s).now = s.now ∧ (modPlk f s).raw = s.raw ∧ (modPlk f s).fresh = s.fresh ∧ (modPlk f s).ticks = s.ticks ∧ (modPlk f s).events = s.events ∧ (modPlk f s).pending = s.pending ∧ (modPlk f s).power = s.power ∧ (modPlk f s).clock = s.clock ∧ (modPlk f s).mode = s.mode ∧ (modPlk f s).key = s.key ∧ (modPlk f s).mesh = s.mesh ∧ (modPlk f s).laneA = s.laneA ∧ (modPlk f s).laneB = s.laneB ∧ (modPlk f s).gate = s.gate ∧ (modPlk f s).claim = s.claim ∧ (modPlk f s).net = s.net ∧ (modPlk f s).time = s.time ∧ (modPlk f s).can = s.can ∧ (modPlk f s).fio = s.fio ∧ (modPlk f s).host = s.host ∧ (modPlk f s).wear = s.wear ∧ (modPlk f s).sram = s.sram ∧ (modPlk f s).outbox = s.outbox :=
  ⟨rfl, rfl, rfl, rfl, rfl, rfl, rfl, rfl, rfl, rfl, rfl, rfl, rfl, rfl, rfl, rfl, rfl, rfl, rfl, rfl, rfl, rfl, rfl⟩

@[simp] theorem modPlk_plk (f : PlkState → PlkState) (s : State) : (modPlk f s).plk = f s.plk := rfl

@[simp] theorem modHost_frame (f : HostState → HostState) (s : State) :
    (modHost f s).now = s.now ∧ (modHost f s).raw = s.raw ∧ (modHost f s).fresh = s.fresh ∧ (modHost f s).ticks = s.ticks ∧ (modHost f s).events = s.events ∧ (modHost f s).pending = s.pending ∧ (modHost f s).power = s.power ∧ (modHost f s).clock = s.clock ∧ (modHost f s).mode = s.mode ∧ (modHost f s).key = s.key ∧ (modHost f s).mesh = s.mesh ∧ (modHost f s).laneA = s.laneA ∧ (modHost f s).laneB = s.laneB ∧ (modHost f s).gate = s.gate ∧ (modHost f s).claim = s.claim ∧ (modHost f s).net = s.net ∧ (modHost f s).time = s.time ∧ (modHost f s).can = s.can ∧ (modHost f s).fio = s.fio ∧ (modHost f s).plk = s.plk ∧ (modHost f s).wear = s.wear ∧ (modHost f s).sram = s.sram ∧ (modHost f s).outbox = s.outbox :=
  ⟨rfl, rfl, rfl, rfl, rfl, rfl, rfl, rfl, rfl, rfl, rfl, rfl, rfl, rfl, rfl, rfl, rfl, rfl, rfl, rfl, rfl, rfl, rfl⟩

@[simp] theorem modHost_host (f : HostState → HostState) (s : State) : (modHost f s).host = f s.host := rfl

@[simp] theorem modWear_frame (f : WearState → WearState) (s : State) :
    (modWear f s).now = s.now ∧ (modWear f s).raw = s.raw ∧ (modWear f s).fresh = s.fresh ∧ (modWear f s).ticks = s.ticks ∧ (modWear f s).events = s.events ∧ (modWear f s).pending = s.pending ∧ (modWear f s).power = s.power ∧ (modWear f s).clock = s.clock ∧ (modWear f s).mode = s.mode ∧ (modWear f s).key = s.key ∧ (modWear f s).mesh = s.mesh ∧ (modWear f s).laneA = s.laneA ∧ (modWear f s).laneB = s.laneB ∧ (modWear f s).gate = s.gate ∧ (modWear f s).claim = s.claim ∧ (modWear f s).net = s.net ∧ (modWear f s).time = s.time ∧ (modWear f s).can = s.can ∧ (modWear f s).fio = s.fio ∧ (modWear f s).plk = s.plk ∧ (modWear f s).host = s.host ∧ (modWear f s).sram = s.sram ∧ (modWear f s).outbox = s.outbox :=
  ⟨rfl, rfl, rfl, rfl, rfl, rfl, rfl, rfl, rfl, rfl, rfl, rfl, rfl, rfl, rfl, rfl, rfl, rfl, rfl, rfl, rfl, rfl, rfl⟩

@[simp] theorem modWear_wear (f : WearState → WearState) (s : State) : (modWear f s).wear = f s.wear := rfl

@[simp] theorem modCan_frame (p : Fin 2) (f : CanState → CanState) (s : State) :
    (modCan p f s).now = s.now ∧ (modCan p f s).raw = s.raw ∧ (modCan p f s).fresh = s.fresh ∧ (modCan p f s).ticks = s.ticks ∧ (modCan p f s).events = s.events ∧ (modCan p f s).pending = s.pending ∧ (modCan p f s).power = s.power ∧ (modCan p f s).clock = s.clock ∧ (modCan p f s).mode = s.mode ∧ (modCan p f s).key = s.key ∧ (modCan p f s).mesh = s.mesh ∧ (modCan p f s).laneA = s.laneA ∧ (modCan p f s).laneB = s.laneB ∧ (modCan p f s).gate = s.gate ∧ (modCan p f s).claim = s.claim ∧ (modCan p f s).net = s.net ∧ (modCan p f s).time = s.time ∧ (modCan p f s).fio = s.fio ∧ (modCan p f s).plk = s.plk ∧ (modCan p f s).host = s.host ∧ (modCan p f s).wear = s.wear ∧ (modCan p f s).sram = s.sram ∧ (modCan p f s).outbox = s.outbox :=
  ⟨rfl, rfl, rfl, rfl, rfl, rfl, rfl, rfl, rfl, rfl, rfl, rfl, rfl, rfl, rfl, rfl, rfl, rfl, rfl, rfl, rfl, rfl, rfl⟩

@[simp] theorem modCan_can (p : Fin 2) (f : CanState → CanState) (s : State) : (modCan p f s).can = modAt s.can p f := rfl

@[simp] theorem send_frame (x : Sent) (s : State) :
    (send x s).now = s.now ∧ (send x s).raw = s.raw ∧ (send x s).fresh = s.fresh ∧ (send x s).ticks = s.ticks ∧ (send x s).events = s.events ∧ (send x s).pending = s.pending ∧ (send x s).power = s.power ∧ (send x s).clock = s.clock ∧ (send x s).mode = s.mode ∧ (send x s).key = s.key ∧ (send x s).mesh = s.mesh ∧ (send x s).laneA = s.laneA ∧ (send x s).laneB = s.laneB ∧ (send x s).gate = s.gate ∧ (send x s).claim = s.claim ∧ (send x s).net = s.net ∧ (send x s).time = s.time ∧ (send x s).can = s.can ∧ (send x s).fio = s.fio ∧ (send x s).plk = s.plk ∧ (send x s).host = s.host ∧ (send x s).wear = s.wear ∧ (send x s).sram = s.sram :=
  ⟨rfl, rfl, rfl, rfl, rfl, rfl, rfl, rfl, rfl, rfl, rfl, rfl, rfl, rfl, rfl, rfl, rfl, rfl, rfl, rfl, rfl, rfl, rfl⟩

@[simp] theorem send_outbox (x : Sent) (s : State) : (send x s).outbox = s.outbox ++ [x] := rfl

@[simp] theorem sharedWrite_frame (a : Nat) (bs : List Byte) (s : State) :
    (sharedWrite a bs s).now = s.now ∧ (sharedWrite a bs s).raw = s.raw ∧ (sharedWrite a bs s).fresh = s.fresh ∧ (sharedWrite a bs s).ticks = s.ticks ∧ (sharedWrite a bs s).events = s.events ∧ (sharedWrite a bs s).pending = s.pending ∧ (sharedWrite a bs s).power = s.power ∧ (sharedWrite a bs s).clock = s.clock ∧ (sharedWrite a bs s).mode = s.mode ∧ (sharedWrite a bs s).key = s.key ∧ (sharedWrite a bs s).mesh = s.mesh ∧ (sharedWrite a bs s).laneA = s.laneA ∧ (sharedWrite a bs s).laneB = s.laneB ∧ (sharedWrite a bs s).gate = s.gate ∧ (sharedWrite a bs s).claim = s.claim ∧ (sharedWrite a bs s).net = s.net ∧ (sharedWrite a bs s).time = s.time ∧ (sharedWrite a bs s).can = s.can ∧ (sharedWrite a bs s).fio = s.fio ∧ (sharedWrite a bs s).plk = s.plk ∧ (sharedWrite a bs s).host = s.host ∧ (sharedWrite a bs s).wear = s.wear ∧ (sharedWrite a bs s).outbox = s.outbox :=
  ⟨rfl, rfl, rfl, rfl, rfl, rfl, rfl, rfl, rfl, rfl, rfl, rfl, rfl, rfl, rfl, rfl, rfl, rfl, rfl, rfl, rfl, rfl, rfl⟩

@[simp] theorem sharedWrite_sram (a : Nat) (bs : List Byte) (s : State) : (sharedWrite a bs s).sram = sparsePutAll 0 s.sram a bs := rfl

@[simp] theorem clearEvents_frame (r : EvReg) (v : Word) (s : State) :
    (clearEvents r v s).now = s.now ∧ (clearEvents r v s).raw = s.raw ∧ (clearEvents r v s).fresh = s.fresh ∧ (clearEvents r v s).ticks = s.ticks ∧ (clearEvents r v s).pending = s.pending ∧ (clearEvents r v s).power = s.power ∧ (clearEvents r v s).clock = s.clock ∧ (clearEvents r v s).mode = s.mode ∧ (clearEvents r v s).key = s.key ∧ (clearEvents r v s).mesh = s.mesh ∧ (clearEvents r v s).laneA = s.laneA ∧ (clearEvents r v s).laneB = s.laneB ∧ (clearEvents r v s).gate = s.gate ∧ (clearEvents r v s).claim = s.claim ∧ (clearEvents r v s).net = s.net ∧ (clearEvents r v s).time = s.time ∧ (clearEvents r v s).can = s.can ∧ (clearEvents r v s).fio = s.fio ∧ (clearEvents r v s).plk = s.plk ∧ (clearEvents r v s).host = s.host ∧ (clearEvents r v s).wear = s.wear ∧ (clearEvents r v s).sram = s.sram ∧ (clearEvents r v s).outbox = s.outbox :=
  ⟨rfl, rfl, rfl, rfl, rfl, rfl, rfl, rfl, rfl, rfl, rfl, rfl, rfl, rfl, rfl, rfl, rfl, rfl, rfl, rfl, rfl, rfl, rfl⟩

@[simp] theorem advance_frame (n : Nat) (s : State) :
    (advance n s).fresh = s.fresh ∧ (advance n s).ticks = s.ticks ∧ (advance n s).events = s.events ∧ (advance n s).pending = s.pending ∧ (advance n s).power = s.power ∧ (advance n s).clock = s.clock ∧ (advance n s).mode = s.mode ∧ (advance n s).key = s.key ∧ (advance n s).mesh = s.mesh ∧ (advance n s).laneA = s.laneA ∧ (advance n s).laneB = s.laneB ∧ (advance n s).gate = s.gate ∧ (advance n s).claim = s.claim ∧ (advance n s).net = s.net ∧ (advance n s).time = s.time ∧ (advance n s).can = s.can ∧ (advance n s).fio = s.fio ∧ (advance n s).plk = s.plk ∧ (advance n s).host = s.host ∧ (advance n s).wear = s.wear ∧ (advance n s).sram = s.sram ∧ (advance n s).outbox = s.outbox :=
  ⟨rfl, rfl, rfl, rfl, rfl, rfl, rfl, rfl, rfl, rfl, rfl, rfl, rfl, rfl, rfl, rfl, rfl, rfl, rfl, rfl, rfl, rfl⟩

@[simp] theorem advance_now (n : Nat) (s : State) : (advance n s).now = s.now + n := rfl

@[simp] theorem elapseTo_frame (t : Nat) (s : State) :
    (elapseTo t s).fresh = s.fresh ∧ (elapseTo t s).ticks = s.ticks ∧ (elapseTo t s).events = s.events ∧ (elapseTo t s).pending = s.pending ∧ (elapseTo t s).power = s.power ∧ (elapseTo t s).clock = s.clock ∧ (elapseTo t s).mode = s.mode ∧ (elapseTo t s).key = s.key ∧ (elapseTo t s).mesh = s.mesh ∧ (elapseTo t s).laneA = s.laneA ∧ (elapseTo t s).laneB = s.laneB ∧ (elapseTo t s).gate = s.gate ∧ (elapseTo t s).claim = s.claim ∧ (elapseTo t s).net = s.net ∧ (elapseTo t s).time = s.time ∧ (elapseTo t s).can = s.can ∧ (elapseTo t s).fio = s.fio ∧ (elapseTo t s).plk = s.plk ∧ (elapseTo t s).host = s.host ∧ (elapseTo t s).wear = s.wear ∧ (elapseTo t s).sram = s.sram ∧ (elapseTo t s).outbox = s.outbox :=
  ⟨rfl, rfl, rfl, rfl, rfl, rfl, rfl, rfl, rfl, rfl, rfl, rfl, rfl, rfl, rfl, rfl, rfl, rfl, rfl, rfl, rfl, rfl⟩

@[simp] theorem elapseTo_now (t : Nat) (s : State) : (elapseTo t s).now = s.now + (t - s.now) := rfl

@[simp] theorem startTick_frame (k : Nat) (s : State) :
    (startTick k s).now = s.now ∧ (startTick k s).raw = s.raw ∧ (startTick k s).fresh = s.fresh ∧ (startTick k s).events = s.events ∧ (startTick k s).pending = s.pending ∧ (startTick k s).power = s.power ∧ (startTick k s).clock = s.clock ∧ (startTick k s).mode = s.mode ∧ (startTick k s).key = s.key ∧ (startTick k s).mesh = s.mesh ∧ (startTick k s).laneA = s.laneA ∧ (startTick k s).laneB = s.laneB ∧ (startTick k s).gate = s.gate ∧ (startTick k s).claim = s.claim ∧ (startTick k s).net = s.net ∧ (startTick k s).time = s.time ∧ (startTick k s).can = s.can ∧ (startTick k s).fio = s.fio ∧ (startTick k s).plk = s.plk ∧ (startTick k s).host = s.host ∧ (startTick k s).wear = s.wear ∧ (startTick k s).sram = s.sram ∧ (startTick k s).outbox = s.outbox :=
  ⟨rfl, rfl, rfl, rfl, rfl, rfl, rfl, rfl, rfl, rfl, rfl, rfl, rfl, rfl, rfl, rfl, rfl, rfl, rfl, rfl, rfl, rfl, rfl⟩

@[simp] theorem notePort_frame (raw : Long) (n : Nat) (p : HostPortState) :
    (notePort raw n p).queue = p.queue ∧ (notePort raw n p).out = p.out := by
  unfold notePort; split <;> exact ⟨rfl, rfl⟩

@[simp] theorem raisePennant_frame (n : Nat) (s : State) :
    (raisePennant n s).now = s.now ∧ (raisePennant n s).raw = s.raw ∧ (raisePennant n s).fresh = s.fresh ∧ (raisePennant n s).ticks = s.ticks ∧ (raisePennant n s).events = s.events ∧ (raisePennant n s).pending = s.pending ∧ (raisePennant n s).power = s.power ∧ (raisePennant n s).clock = s.clock ∧ (raisePennant n s).mode = s.mode ∧ (raisePennant n s).key = s.key ∧ (raisePennant n s).mesh = s.mesh ∧ (raisePennant n s).laneA = s.laneA ∧ (raisePennant n s).laneB = s.laneB ∧ (raisePennant n s).gate = s.gate ∧ (raisePennant n s).claim = s.claim ∧ (raisePennant n s).net = s.net ∧ (raisePennant n s).time = s.time ∧ (raisePennant n s).can = s.can ∧ (raisePennant n s).fio = s.fio ∧ (raisePennant n s).plk = s.plk ∧ (raisePennant n s).wear = s.wear ∧ (raisePennant n s).sram = s.sram ∧ (raisePennant n s).outbox = s.outbox ∧ (raisePennant n s).host.hsp.queue = s.host.hsp.queue ∧ (raisePennant n s).host.hsp.out = s.host.hsp.out ∧ (raisePennant n s).host.net.queue = s.host.net.queue ∧ (raisePennant n s).host.net.out = s.host.net.out ∧ (raisePennant n s).host.bolts = s.host.bolts :=
  by
  simp [raisePennant]

@[simp] theorem raise_frame (r : EvReg) (k : Nat) (s : State) :
    (raise r k s).now = s.now ∧ (raise r k s).raw = s.raw ∧ (raise r k s).fresh = s.fresh ∧ (raise r k s).ticks = s.ticks ∧ (raise r k s).pending = s.pending ∧ (raise r k s).power = s.power ∧ (raise r k s).clock = s.clock ∧ (raise r k s).mode = s.mode ∧ (raise r k s).key = s.key ∧ (raise r k s).mesh = s.mesh ∧ (raise r k s).laneA = s.laneA ∧ (raise r k s).laneB = s.laneB ∧ (raise r k s).gate = s.gate ∧ (raise r k s).claim = s.claim ∧ (raise r k s).net = s.net ∧ (raise r k s).time = s.time ∧ (raise r k s).can = s.can ∧ (raise r k s).fio = s.fio ∧ (raise r k s).plk = s.plk ∧ (raise r k s).wear = s.wear ∧ (raise r k s).sram = s.sram ∧ (raise r k s).outbox = s.outbox ∧ (raise r k s).host.hsp.queue = s.host.hsp.queue ∧ (raise r k s).host.hsp.out = s.host.hsp.out ∧ (raise r k s).host.net.queue = s.host.net.queue ∧ (raise r k s).host.net.out = s.host.net.out ∧ (raise r k s).host.bolts = s.host.bolts :=
  by simp [raise, raisePennant]

@[simp] theorem raise_events (r : EvReg) (k : Nat) (s : State) : (raise r k s).events = put' s.events r.slot (putBit (at' s.events r.slot 0) k true) := by simp [raise, raisePennant]

@[simp] theorem setLane_frame (l : Lane) (x : LaneState) (s : State) :
    (s.setLane l x).now = s.now ∧ (s.setLane l x).raw = s.raw ∧ (s.setLane l x).fresh = s.fresh ∧ (s.setLane l x).ticks = s.ticks ∧ (s.setLane l x).events = s.events ∧ (s.setLane l x).pending = s.pending ∧ (s.setLane l x).power = s.power ∧ (s.setLane l x).clock = s.clock ∧ (s.setLane l x).mode = s.mode ∧ (s.setLane l x).key = s.key ∧ (s.setLane l x).mesh = s.mesh ∧ (s.setLane l x).gate = s.gate ∧ (s.setLane l x).claim = s.claim ∧ (s.setLane l x).net = s.net ∧ (s.setLane l x).time = s.time ∧ (s.setLane l x).can = s.can ∧ (s.setLane l x).fio = s.fio ∧ (s.setLane l x).plk = s.plk ∧ (s.setLane l x).host = s.host ∧ (s.setLane l x).wear = s.wear ∧ (s.setLane l x).sram = s.sram ∧ (s.setLane l x).outbox = s.outbox :=
  by cases l <;> simp [State.setLane]

@[simp] theorem setLane_same (s : State) (l : Lane) (x : LaneState) : (s.setLane l x).lane l = x := by cases l <;> rfl

@[simp] theorem setLane_other (s : State) (l : Lane) (x : LaneState) :
    (s.setLane l x).lane (otherLane l) = s.lane (otherLane l) := by cases l <;> rfl

@[simp] theorem modMeas_frame (l : Lane) (f : MeasState → MeasState) (s : State) :
    (modMeas l f s).now = s.now ∧ (modMeas l f s).raw = s.raw ∧ (modMeas l f s).fresh = s.fresh ∧ (modMeas l f s).ticks = s.ticks ∧ (modMeas l f s).events = s.events ∧ (modMeas l f s).pending = s.pending ∧ (modMeas l f s).power = s.power ∧ (modMeas l f s).clock = s.clock ∧ (modMeas l f s).mode = s.mode ∧ (modMeas l f s).key = s.key ∧ (modMeas l f s).mesh = s.mesh ∧ (modMeas l f s).gate = s.gate ∧ (modMeas l f s).claim = s.claim ∧ (modMeas l f s).net = s.net ∧ (modMeas l f s).time = s.time ∧ (modMeas l f s).can = s.can ∧ (modMeas l f s).fio = s.fio ∧ (modMeas l f s).plk = s.plk ∧ (modMeas l f s).host = s.host ∧ (modMeas l f s).wear = s.wear ∧ (modMeas l f s).sram = s.sram ∧ (modMeas l f s).outbox = s.outbox ∧ (modMeas l f s).laneA.sram = s.laneA.sram ∧ (modMeas l f s).laneB.sram = s.laneB.sram :=
  by cases l <;> simp [modMeas, State.setLane, State.lane]

@[simp] theorem modMeas_same (l : Lane) (f : MeasState → MeasState) (s : State) :
    ((modMeas l f s).lane l).meas = f (s.lane l).meas := by cases l <;> rfl

@[simp] theorem modEng_frame (l : Lane) (f : EngState → EngState) (s : State) :
    (modEng l f s).now = s.now ∧ (modEng l f s).raw = s.raw ∧ (modEng l f s).fresh = s.fresh ∧ (modEng l f s).ticks = s.ticks ∧ (modEng l f s).events = s.events ∧ (modEng l f s).pending = s.pending ∧ (modEng l f s).power = s.power ∧ (modEng l f s).clock = s.clock ∧ (modEng l f s).mode = s.mode ∧ (modEng l f s).key = s.key ∧ (modEng l f s).mesh = s.mesh ∧ (modEng l f s).gate = s.gate ∧ (modEng l f s).claim = s.claim ∧ (modEng l f s).net = s.net ∧ (modEng l f s).time = s.time ∧ (modEng l f s).can = s.can ∧ (modEng l f s).fio = s.fio ∧ (modEng l f s).plk = s.plk ∧ (modEng l f s).host = s.host ∧ (modEng l f s).wear = s.wear ∧ (modEng l f s).sram = s.sram ∧ (modEng l f s).outbox = s.outbox ∧ (modEng l f s).laneA.sram = s.laneA.sram ∧ (modEng l f s).laneB.sram = s.laneB.sram :=
  by cases l <;> simp [modEng, State.setLane, State.lane]

@[simp] theorem modEng_same (l : Lane) (f : EngState → EngState) (s : State) :
    ((modEng l f s).lane l).eng = f (s.lane l).eng := by cases l <;> rfl

@[simp] theorem modRa_frame (l : Lane) (f : RaState → RaState) (s : State) :
    (modRa l f s).now = s.now ∧ (modRa l f s).raw = s.raw ∧ (modRa l f s).fresh = s.fresh ∧ (modRa l f s).ticks = s.ticks ∧ (modRa l f s).events = s.events ∧ (modRa l f s).pending = s.pending ∧ (modRa l f s).power = s.power ∧ (modRa l f s).clock = s.clock ∧ (modRa l f s).mode = s.mode ∧ (modRa l f s).key = s.key ∧ (modRa l f s).mesh = s.mesh ∧ (modRa l f s).gate = s.gate ∧ (modRa l f s).claim = s.claim ∧ (modRa l f s).net = s.net ∧ (modRa l f s).time = s.time ∧ (modRa l f s).can = s.can ∧ (modRa l f s).fio = s.fio ∧ (modRa l f s).plk = s.plk ∧ (modRa l f s).host = s.host ∧ (modRa l f s).wear = s.wear ∧ (modRa l f s).sram = s.sram ∧ (modRa l f s).outbox = s.outbox ∧ (modRa l f s).laneA.sram = s.laneA.sram ∧ (modRa l f s).laneB.sram = s.laneB.sram :=
  by cases l <;> simp [modRa, State.setLane, State.lane]

@[simp] theorem modRa_same (l : Lane) (f : RaState → RaState) (s : State) :
    ((modRa l f s).lane l).ra = f (s.lane l).ra := by cases l <;> rfl

@[simp] theorem modGf_frame (l : Lane) (f : GfState → GfState) (s : State) :
    (modGf l f s).now = s.now ∧ (modGf l f s).raw = s.raw ∧ (modGf l f s).fresh = s.fresh ∧ (modGf l f s).ticks = s.ticks ∧ (modGf l f s).events = s.events ∧ (modGf l f s).pending = s.pending ∧ (modGf l f s).power = s.power ∧ (modGf l f s).clock = s.clock ∧ (modGf l f s).mode = s.mode ∧ (modGf l f s).key = s.key ∧ (modGf l f s).mesh = s.mesh ∧ (modGf l f s).gate = s.gate ∧ (modGf l f s).claim = s.claim ∧ (modGf l f s).net = s.net ∧ (modGf l f s).time = s.time ∧ (modGf l f s).can = s.can ∧ (modGf l f s).fio = s.fio ∧ (modGf l f s).plk = s.plk ∧ (modGf l f s).host = s.host ∧ (modGf l f s).wear = s.wear ∧ (modGf l f s).sram = s.sram ∧ (modGf l f s).outbox = s.outbox ∧ (modGf l f s).laneA.sram = s.laneA.sram ∧ (modGf l f s).laneB.sram = s.laneB.sram :=
  by cases l <;> simp [modGf, State.setLane, State.lane]

@[simp] theorem modGf_same (l : Lane) (f : GfState → GfState) (s : State) :
    ((modGf l f s).lane l).gf = f (s.lane l).gf := by cases l <;> rfl

@[simp] theorem modRec_frame (l : Lane) (f : RecState → RecState) (s : State) :
    (modRec l f s).now = s.now ∧ (modRec l f s).raw = s.raw ∧ (modRec l f s).fresh = s.fresh ∧ (modRec l f s).ticks = s.ticks ∧ (modRec l f s).events = s.events ∧ (modRec l f s).pending = s.pending ∧ (modRec l f s).power = s.power ∧ (modRec l f s).clock = s.clock ∧ (modRec l f s).mode = s.mode ∧ (modRec l f s).key = s.key ∧ (modRec l f s).mesh = s.mesh ∧ (modRec l f s).gate = s.gate ∧ (modRec l f s).claim = s.claim ∧ (modRec l f s).net = s.net ∧ (modRec l f s).time = s.time ∧ (modRec l f s).can = s.can ∧ (modRec l f s).fio = s.fio ∧ (modRec l f s).plk = s.plk ∧ (modRec l f s).host = s.host ∧ (modRec l f s).wear = s.wear ∧ (modRec l f s).sram = s.sram ∧ (modRec l f s).outbox = s.outbox ∧ (modRec l f s).laneA.sram = s.laneA.sram ∧ (modRec l f s).laneB.sram = s.laneB.sram :=
  by cases l <;> simp [modRec, State.setLane, State.lane]

@[simp] theorem modRec_same (l : Lane) (f : RecState → RecState) (s : State) :
    ((modRec l f s).lane l).rcd = f (s.lane l).rcd := by cases l <;> rfl

@[simp] theorem modPin_frame (l : Lane) (p : Fin 32) (f : PinState → PinState) (s : State) :
    (modPin l p f s).now = s.now ∧ (modPin l p f s).raw = s.raw ∧ (modPin l p f s).fresh = s.fresh ∧ (modPin l p f s).ticks = s.ticks ∧ (modPin l p f s).events = s.events ∧ (modPin l p f s).pending = s.pending ∧ (modPin l p f s).power = s.power ∧ (modPin l p f s).clock = s.clock ∧ (modPin l p f s).mode = s.mode ∧ (modPin l p f s).key = s.key ∧ (modPin l p f s).mesh = s.mesh ∧ (modPin l p f s).gate = s.gate ∧ (modPin l p f s).claim = s.claim ∧ (modPin l p f s).net = s.net ∧ (modPin l p f s).time = s.time ∧ (modPin l p f s).can = s.can ∧ (modPin l p f s).fio = s.fio ∧ (modPin l p f s).plk = s.plk ∧ (modPin l p f s).host = s.host ∧ (modPin l p f s).wear = s.wear ∧ (modPin l p f s).sram = s.sram ∧ (modPin l p f s).outbox = s.outbox ∧ (modPin l p f s).laneA.sram = s.laneA.sram ∧ (modPin l p f s).laneB.sram = s.laneB.sram :=
  by
  cases l <;> simp [modPin, modMeas, State.setLane, State.lane]

@[simp] theorem modCtx_frame (l : Lane) (c : Fin 8) (f : EngCtx → EngCtx) (s : State) :
    (modCtx l c f s).now = s.now ∧ (modCtx l c f s).raw = s.raw ∧ (modCtx l c f s).fresh = s.fresh ∧ (modCtx l c f s).ticks = s.ticks ∧ (modCtx l c f s).events = s.events ∧ (modCtx l c f s).pending = s.pending ∧ (modCtx l c f s).power = s.power ∧ (modCtx l c f s).clock = s.clock ∧ (modCtx l c f s).mode = s.mode ∧ (modCtx l c f s).key = s.key ∧ (modCtx l c f s).mesh = s.mesh ∧ (modCtx l c f s).gate = s.gate ∧ (modCtx l c f s).claim = s.claim ∧ (modCtx l c f s).net = s.net ∧ (modCtx l c f s).time = s.time ∧ (modCtx l c f s).can = s.can ∧ (modCtx l c f s).fio = s.fio ∧ (modCtx l c f s).plk = s.plk ∧ (modCtx l c f s).host = s.host ∧ (modCtx l c f s).wear = s.wear ∧ (modCtx l c f s).sram = s.sram ∧ (modCtx l c f s).outbox = s.outbox ∧ (modCtx l c f s).laneA.sram = s.laneA.sram ∧ (modCtx l c f s).laneB.sram = s.laneB.sram :=
  by
  cases l <;> simp [modCtx, modEng, State.setLane, State.lane]

@[simp] theorem modRaCtx_frame (l : Lane) (c : Fin 8) (f : RaCtx → RaCtx) (s : State) :
    (modRaCtx l c f s).now = s.now ∧ (modRaCtx l c f s).raw = s.raw ∧ (modRaCtx l c f s).fresh = s.fresh ∧ (modRaCtx l c f s).ticks = s.ticks ∧ (modRaCtx l c f s).events = s.events ∧ (modRaCtx l c f s).pending = s.pending ∧ (modRaCtx l c f s).power = s.power ∧ (modRaCtx l c f s).clock = s.clock ∧ (modRaCtx l c f s).mode = s.mode ∧ (modRaCtx l c f s).key = s.key ∧ (modRaCtx l c f s).mesh = s.mesh ∧ (modRaCtx l c f s).gate = s.gate ∧ (modRaCtx l c f s).claim = s.claim ∧ (modRaCtx l c f s).net = s.net ∧ (modRaCtx l c f s).time = s.time ∧ (modRaCtx l c f s).can = s.can ∧ (modRaCtx l c f s).fio = s.fio ∧ (modRaCtx l c f s).plk = s.plk ∧ (modRaCtx l c f s).host = s.host ∧ (modRaCtx l c f s).wear = s.wear ∧ (modRaCtx l c f s).sram = s.sram ∧ (modRaCtx l c f s).outbox = s.outbox ∧ (modRaCtx l c f s).laneA.sram = s.laneA.sram ∧ (modRaCtx l c f s).laneB.sram = s.laneB.sram :=
  by
  cases l <;> simp [modRaCtx, modRa, State.setLane, State.lane]

@[simp] theorem modGen_frame (l : Lane) (g : Fin 16) (f : GenState → GenState) (s : State) :
    (modGen l g f s).now = s.now ∧ (modGen l g f s).raw = s.raw ∧ (modGen l g f s).fresh = s.fresh ∧ (modGen l g f s).ticks = s.ticks ∧ (modGen l g f s).events = s.events ∧ (modGen l g f s).pending = s.pending ∧ (modGen l g f s).power = s.power ∧ (modGen l g f s).clock = s.clock ∧ (modGen l g f s).mode = s.mode ∧ (modGen l g f s).key = s.key ∧ (modGen l g f s).mesh = s.mesh ∧ (modGen l g f s).gate = s.gate ∧ (modGen l g f s).claim = s.claim ∧ (modGen l g f s).net = s.net ∧ (modGen l g f s).time = s.time ∧ (modGen l g f s).can = s.can ∧ (modGen l g f s).fio = s.fio ∧ (modGen l g f s).plk = s.plk ∧ (modGen l g f s).host = s.host ∧ (modGen l g f s).wear = s.wear ∧ (modGen l g f s).sram = s.sram ∧ (modGen l g f s).outbox = s.outbox ∧ (modGen l g f s).laneA.sram = s.laneA.sram ∧ (modGen l g f s).laneB.sram = s.laneB.sram :=
  by
  cases l <;> simp [modGen, State.setLane, State.lane]

@[simp] theorem laneWrite_frame (l : Lane) (off : Nat) (bs : List Byte) (s : State) :
    (laneWrite l off bs s).now = s.now ∧ (laneWrite l off bs s).raw = s.raw ∧ (laneWrite l off bs s).fresh = s.fresh ∧ (laneWrite l off bs s).ticks = s.ticks ∧ (laneWrite l off bs s).events = s.events ∧ (laneWrite l off bs s).pending = s.pending ∧ (laneWrite l off bs s).power = s.power ∧ (laneWrite l off bs s).clock = s.clock ∧ (laneWrite l off bs s).mode = s.mode ∧ (laneWrite l off bs s).key = s.key ∧ (laneWrite l off bs s).mesh = s.mesh ∧ (laneWrite l off bs s).gate = s.gate ∧ (laneWrite l off bs s).claim = s.claim ∧ (laneWrite l off bs s).net = s.net ∧ (laneWrite l off bs s).time = s.time ∧ (laneWrite l off bs s).can = s.can ∧ (laneWrite l off bs s).fio = s.fio ∧ (laneWrite l off bs s).plk = s.plk ∧ (laneWrite l off bs s).host = s.host ∧ (laneWrite l off bs s).wear = s.wear ∧ (laneWrite l off bs s).sram = s.sram ∧ (laneWrite l off bs s).outbox = s.outbox :=
  by cases l <;> simp [laneWrite, State.setLane, State.lane]

@[simp] theorem modCh_frame (c : Fin 32) (f : Channel → Channel) (s : State) :
    (modCh c f s).now = s.now ∧ (modCh c f s).raw = s.raw ∧ (modCh c f s).fresh = s.fresh ∧ (modCh c f s).ticks = s.ticks ∧ (modCh c f s).events = s.events ∧ (modCh c f s).pending = s.pending ∧ (modCh c f s).power = s.power ∧ (modCh c f s).clock = s.clock ∧ (modCh c f s).mode = s.mode ∧ (modCh c f s).key = s.key ∧ (modCh c f s).mesh = s.mesh ∧ (modCh c f s).laneA = s.laneA ∧ (modCh c f s).laneB = s.laneB ∧ (modCh c f s).claim = s.claim ∧ (modCh c f s).net = s.net ∧ (modCh c f s).time = s.time ∧ (modCh c f s).can = s.can ∧ (modCh c f s).fio = s.fio ∧ (modCh c f s).plk = s.plk ∧ (modCh c f s).host = s.host ∧ (modCh c f s).wear = s.wear ∧ (modCh c f s).sram = s.sram ∧ (modCh c f s).outbox = s.outbox :=
  ⟨rfl, rfl, rfl, rfl, rfl, rfl, rfl, rfl, rfl, rfl, rfl, rfl, rfl, rfl, rfl, rfl, rfl, rfl, rfl, rfl, rfl, rfl, rfl⟩

@[simp] theorem modLc_frame (l : Lane) (f : LaneClaim → LaneClaim) (s : State) :
    (modLc l f s).now = s.now ∧ (modLc l f s).raw = s.raw ∧ (modLc l f s).fresh = s.fresh ∧ (modLc l f s).ticks = s.ticks ∧ (modLc l f s).events = s.events ∧ (modLc l f s).pending = s.pending ∧ (modLc l f s).power = s.power ∧ (modLc l f s).clock = s.clock ∧ (modLc l f s).mode = s.mode ∧ (modLc l f s).key = s.key ∧ (modLc l f s).mesh = s.mesh ∧ (modLc l f s).laneA = s.laneA ∧ (modLc l f s).laneB = s.laneB ∧ (modLc l f s).gate = s.gate ∧ (modLc l f s).net = s.net ∧ (modLc l f s).time = s.time ∧ (modLc l f s).can = s.can ∧ (modLc l f s).fio = s.fio ∧ (modLc l f s).plk = s.plk ∧ (modLc l f s).host = s.host ∧ (modLc l f s).wear = s.wear ∧ (modLc l f s).sram = s.sram ∧ (modLc l f s).outbox = s.outbox :=
  by cases l <;> simp [modLc]

@[simp] theorem modTsu_frame (l : Lane) (f : TsuChannel → TsuChannel) (s : State) :
    (modTsu l f s).now = s.now ∧ (modTsu l f s).raw = s.raw ∧ (modTsu l f s).fresh = s.fresh ∧ (modTsu l f s).ticks = s.ticks ∧ (modTsu l f s).events = s.events ∧ (modTsu l f s).pending = s.pending ∧ (modTsu l f s).power = s.power ∧ (modTsu l f s).clock = s.clock ∧ (modTsu l f s).mode = s.mode ∧ (modTsu l f s).key = s.key ∧ (modTsu l f s).mesh = s.mesh ∧ (modTsu l f s).laneA = s.laneA ∧ (modTsu l f s).laneB = s.laneB ∧ (modTsu l f s).gate = s.gate ∧ (modTsu l f s).net = s.net ∧ (modTsu l f s).time = s.time ∧ (modTsu l f s).can = s.can ∧ (modTsu l f s).fio = s.fio ∧ (modTsu l f s).plk = s.plk ∧ (modTsu l f s).host = s.host ∧ (modTsu l f s).wear = s.wear ∧ (modTsu l f s).sram = s.sram ∧ (modTsu l f s).outbox = s.outbox :=
  by cases l <;> simp [modTsu]

/-! ### A choice, a fold and a conditional change -/

theorem ite_frame (c : Prop) [Decidable c] (a b : State) :
    (if c then a else b).now = (if c then a.now else b.now) ∧
    (if c then a else b).raw = (if c then a.raw else b.raw) ∧
    (if c then a else b).fresh = (if c then a.fresh else b.fresh) ∧
    (if c then a else b).ticks = (if c then a.ticks else b.ticks) ∧
    (if c then a else b).events = (if c then a.events else b.events) ∧
    (if c then a else b).pending = (if c then a.pending else b.pending) ∧
    (if c then a else b).power = (if c then a.power else b.power) ∧
    (if c then a else b).clock = (if c then a.clock else b.clock) ∧
    (if c then a else b).mode = (if c then a.mode else b.mode) ∧
    (if c then a else b).key = (if c then a.key else b.key) ∧
    (if c then a else b).mesh = (if c then a.mesh else b.mesh) ∧
    (if c then a else b).laneA = (if c then a.laneA else b.laneA) ∧
    (if c then a else b).laneB = (if c then a.laneB else b.laneB) ∧
    (if c then a else b).gate = (if c then a.gate else b.gate) ∧
    (if c then a else b).claim = (if c then a.claim else b.claim) ∧
    (if c then a else b).net = (if c then a.net else b.net) ∧
    (if c then a else b).time = (if c then a.time else b.time) ∧
    (if c then a else b).can = (if c then a.can else b.can) ∧
    (if c then a else b).fio = (if c then a.fio else b.fio) ∧
    (if c then a else b).plk = (if c then a.plk else b.plk) ∧
    (if c then a else b).host = (if c then a.host else b.host) ∧
    (if c then a else b).wear = (if c then a.wear else b.wear) ∧
    (if c then a else b).sram = (if c then a.sram else b.sram) ∧
    (if c then a else b).outbox = (if c then a.outbox else b.outbox) := by
  split <;> simp

theorem ite_snd {A B : Type} (c : Prop) [Decidable c] (p q : A × B) :
    (if c then p else q).2 = if c then p.2 else q.2 := by split <;> rfl

theorem ModeState_ite_mode (c : Prop) [Decidable c] (a b : ModeState) :
    (if c then a else b).mode = if c then a.mode else b.mode := by split <;> rfl

theorem LaneState_ite_sram (c : Prop) [Decidable c] (a b : LaneState) :
    (if c then a else b).sram = if c then a.sram else b.sram := by split <;> rfl

theorem HostState_ite_hsp (c : Prop) [Decidable c] (a b : HostState) :
    (if c then a else b).hsp = if c then a.hsp else b.hsp := by split <;> rfl

theorem HostState_ite_net (c : Prop) [Decidable c] (a b : HostState) :
    (if c then a else b).net = if c then a.net else b.net := by split <;> rfl

theorem HostState_ite_bolts (c : Prop) [Decidable c] (a b : HostState) :
    (if c then a else b).bolts = if c then a.bolts else b.bolts := by split <;> rfl

theorem HostPortState_ite_queue (c : Prop) [Decidable c] (a b : HostPortState) :
    (if c then a else b).queue = if c then a.queue else b.queue := by split <;> rfl

theorem HostPortState_ite_out (c : Prop) [Decidable c] (a b : HostPortState) :
    (if c then a else b).out = if c then a.out else b.out := by split <;> rfl

/-- What each change of a fold leaves, the fold leaves. -/
theorem foldS_keeps {T β : Type} (p : State → β) (xs : List T) (g : T → State → State) (s : State)
    (h : ∀ x t, p (g x t) = p t) : p (foldS xs g s) = p s := by
  unfold foldS
  induction xs generalizing s with
  | nil => rfl
  | cons x xs ih => simp only [List.foldl_cons]; rw [ih, h]

/-- A fold establishes what one of its changes establishes and the others keep, under what all of them keep. -/
theorem foldS_establishes {T : Type} (P Q : State → Prop) (a : T) (xs : List T) (g : T → State → State) (s : State)
    (hQ : ∀ x t, Q t → Q (g x t)) (hP : ∀ x t, P t → P (g x t)) (hset : ∀ t, Q t → P (g a t)) (ha : a ∈ xs) (hs : Q s) :
    P (foldS xs g s) := by
  have keep : ∀ (ys : List T) (t : State), P t → P (foldS ys g t) := by
    intro ys
    unfold foldS
    induction ys with
    | nil => exact fun t h => h
    | cons y ys ih => exact fun t h => ih _ (hP y t h)
  induction xs generalizing s with
  | nil => cases ha
  | cons x xs ih =>
    rcases List.mem_cons.1 ha with rfl | ha
    · exact keep xs _ (hset s hs)
    · exact ih (g x s) ha (hQ x s hs)

/-- What a change leaves, it leaves where it is made on a condition. -/
theorem when_keeps {β : Type} (p : State → β) (c : Bool) (g : State → State) (s : State) (h : p (g s) = p s) :
    p (when c g s) = p s := by
  cases c <;> simp [when, h]

@[simp] theorem foldS_now (T : Type) (xs : List T) (g : T → State → State) (s : State)
    (h : ∀ x t, (g x t).now = t.now) : (foldS xs g s).now = s.now := foldS_keeps (fun t => t.now) xs g s h

@[simp] theorem when_now (c : Bool) (g : State → State) (s : State) (h : (g s).now = s.now) :
    (when c g s).now = s.now := when_keeps (fun t => t.now) c g s h

@[simp] theorem foldS_raw (T : Type) (xs : List T) (g : T → State → State) (s : State)
    (h : ∀ x t, (g x t).raw = t.raw) : (foldS xs g s).raw = s.raw := foldS_keeps (fun t => t.raw) xs g s h

@[simp] theorem when_raw (c : Bool) (g : State → State) (s : State) (h : (g s).raw = s.raw) :
    (when c g s).raw = s.raw := when_keeps (fun t => t.raw) c g s h

@[simp] theorem foldS_fresh (T : Type) (xs : List T) (g : T → State → State) (s : State)
    (h : ∀ x t, (g x t).fresh = t.fresh) : (foldS xs g s).fresh = s.fresh := foldS_keeps (fun t => t.fresh) xs g s h

@[simp] theorem when_fresh (c : Bool) (g : State → State) (s : State) (h : (g s).fresh = s.fresh) :
    (when c g s).fresh = s.fresh := when_keeps (fun t => t.fresh) c g s h

@[simp] theorem foldS_ticks (T : Type) (xs : List T) (g : T → State → State) (s : State)
    (h : ∀ x t, (g x t).ticks = t.ticks) : (foldS xs g s).ticks = s.ticks := foldS_keeps (fun t => t.ticks) xs g s h

@[simp] theorem when_ticks (c : Bool) (g : State → State) (s : State) (h : (g s).ticks = s.ticks) :
    (when c g s).ticks = s.ticks := when_keeps (fun t => t.ticks) c g s h

@[simp] theorem foldS_events (T : Type) (xs : List T) (g : T → State → State) (s : State)
    (h : ∀ x t, (g x t).events = t.events) : (foldS xs g s).events = s.events := foldS_keeps (fun t => t.events) xs g s h

@[simp] theorem when_events (c : Bool) (g : State → State) (s : State) (h : (g s).events = s.events) :
    (when c g s).events = s.events := when_keeps (fun t => t.events) c g s h

@[simp] theorem foldS_pending (T : Type) (xs : List T) (g : T → State → State) (s : State)
    (h : ∀ x t, (g x t).pending = t.pending) : (foldS xs g s).pending = s.pending := foldS_keeps (fun t => t.pending) xs g s h

@[simp] theorem when_pending (c : Bool) (g : State → State) (s : State) (h : (g s).pending = s.pending) :
    (when c g s).pending = s.pending := when_keeps (fun t => t.pending) c g s h

@[simp] theorem foldS_power (T : Type) (xs : List T) (g : T → State → State) (s : State)
    (h : ∀ x t, (g x t).power = t.power) : (foldS xs g s).power = s.power := foldS_keeps (fun t => t.power) xs g s h

@[simp] theorem when_power (c : Bool) (g : State → State) (s : State) (h : (g s).power = s.power) :
    (when c g s).power = s.power := when_keeps (fun t => t.power) c g s h

@[simp] theorem foldS_clock (T : Type) (xs : List T) (g : T → State → State) (s : State)
    (h : ∀ x t, (g x t).clock = t.clock) : (foldS xs g s).clock = s.clock := foldS_keeps (fun t => t.clock) xs g s h

@[simp] theorem when_clock (c : Bool) (g : State → State) (s : State) (h : (g s).clock = s.clock) :
    (when c g s).clock = s.clock := when_keeps (fun t => t.clock) c g s h

@[simp] theorem foldS_mode (T : Type) (xs : List T) (g : T → State → State) (s : State)
    (h : ∀ x t, (g x t).mode = t.mode) : (foldS xs g s).mode = s.mode := foldS_keeps (fun t => t.mode) xs g s h

@[simp] theorem when_mode (c : Bool) (g : State → State) (s : State) (h : (g s).mode = s.mode) :
    (when c g s).mode = s.mode := when_keeps (fun t => t.mode) c g s h

@[simp] theorem foldS_key (T : Type) (xs : List T) (g : T → State → State) (s : State)
    (h : ∀ x t, (g x t).key = t.key) : (foldS xs g s).key = s.key := foldS_keeps (fun t => t.key) xs g s h

@[simp] theorem when_key (c : Bool) (g : State → State) (s : State) (h : (g s).key = s.key) :
    (when c g s).key = s.key := when_keeps (fun t => t.key) c g s h

@[simp] theorem foldS_mesh (T : Type) (xs : List T) (g : T → State → State) (s : State)
    (h : ∀ x t, (g x t).mesh = t.mesh) : (foldS xs g s).mesh = s.mesh := foldS_keeps (fun t => t.mesh) xs g s h

@[simp] theorem when_mesh (c : Bool) (g : State → State) (s : State) (h : (g s).mesh = s.mesh) :
    (when c g s).mesh = s.mesh := when_keeps (fun t => t.mesh) c g s h

@[simp] theorem foldS_laneA (T : Type) (xs : List T) (g : T → State → State) (s : State)
    (h : ∀ x t, (g x t).laneA = t.laneA) : (foldS xs g s).laneA = s.laneA := foldS_keeps (fun t => t.laneA) xs g s h

@[simp] theorem when_laneA (c : Bool) (g : State → State) (s : State) (h : (g s).laneA = s.laneA) :
    (when c g s).laneA = s.laneA := when_keeps (fun t => t.laneA) c g s h

@[simp] theorem foldS_laneB (T : Type) (xs : List T) (g : T → State → State) (s : State)
    (h : ∀ x t, (g x t).laneB = t.laneB) : (foldS xs g s).laneB = s.laneB := foldS_keeps (fun t => t.laneB) xs g s h

@[simp] theorem when_laneB (c : Bool) (g : State → State) (s : State) (h : (g s).laneB = s.laneB) :
    (when c g s).laneB = s.laneB := when_keeps (fun t => t.laneB) c g s h

@[simp] theorem foldS_gate (T : Type) (xs : List T) (g : T → State → State) (s : State)
    (h : ∀ x t, (g x t).gate = t.gate) : (foldS xs g s).gate = s.gate := foldS_keeps (fun t => t.gate) xs g s h

@[simp] theorem when_gate (c : Bool) (g : State → State) (s : State) (h : (g s).gate = s.gate) :
    (when c g s).gate = s.gate := when_keeps (fun t => t.gate) c g s h

@[simp] theorem foldS_claim (T : Type) (xs : List T) (g : T → State → State) (s : State)
    (h : ∀ x t, (g x t).claim = t.claim) : (foldS xs g s).claim = s.claim := foldS_keeps (fun t => t.claim) xs g s h

@[simp] theorem when_claim (c : Bool) (g : State → State) (s : State) (h : (g s).claim = s.claim) :
    (when c g s).claim = s.claim := when_keeps (fun t => t.claim) c g s h

@[simp] theorem foldS_net (T : Type) (xs : List T) (g : T → State → State) (s : State)
    (h : ∀ x t, (g x t).net = t.net) : (foldS xs g s).net = s.net := foldS_keeps (fun t => t.net) xs g s h

@[simp] theorem when_net (c : Bool) (g : State → State) (s : State) (h : (g s).net = s.net) :
    (when c g s).net = s.net := when_keeps (fun t => t.net) c g s h

@[simp] theorem foldS_time (T : Type) (xs : List T) (g : T → State → State) (s : State)
    (h : ∀ x t, (g x t).time = t.time) : (foldS xs g s).time = s.time := foldS_keeps (fun t => t.time) xs g s h

@[simp] theorem when_time (c : Bool) (g : State → State) (s : State) (h : (g s).time = s.time) :
    (when c g s).time = s.time := when_keeps (fun t => t.time) c g s h

@[simp] theorem foldS_can (T : Type) (xs : List T) (g : T → State → State) (s : State)
    (h : ∀ x t, (g x t).can = t.can) : (foldS xs g s).can = s.can := foldS_keeps (fun t => t.can) xs g s h

@[simp] theorem when_can (c : Bool) (g : State → State) (s : State) (h : (g s).can = s.can) :
    (when c g s).can = s.can := when_keeps (fun t => t.can) c g s h

@[simp] theorem foldS_fio (T : Type) (xs : List T) (g : T → State → State) (s : State)
    (h : ∀ x t, (g x t).fio = t.fio) : (foldS xs g s).fio = s.fio := foldS_keeps (fun t => t.fio) xs g s h

@[simp] theorem when_fio (c : Bool) (g : State → State) (s : State) (h : (g s).fio = s.fio) :
    (when c g s).fio = s.fio := when_keeps (fun t => t.fio) c g s h

@[simp] theorem foldS_plk (T : Type) (xs : List T) (g : T → State → State) (s : State)
    (h : ∀ x t, (g x t).plk = t.plk) : (foldS xs g s).plk = s.plk := foldS_keeps (fun t => t.plk) xs g s h

@[simp] theorem when_plk (c : Bool) (g : State → State) (s : State) (h : (g s).plk = s.plk) :
    (when c g s).plk = s.plk := when_keeps (fun t => t.plk) c g s h

@[simp] theorem foldS_host (T : Type) (xs : List T) (g : T → State → State) (s : State)
    (h : ∀ x t, (g x t).host = t.host) : (foldS xs g s).host = s.host := foldS_keeps (fun t => t.host) xs g s h

@[simp] theorem when_host (c : Bool) (g : State → State) (s : State) (h : (g s).host = s.host) :
    (when c g s).host = s.host := when_keeps (fun t => t.host) c g s h

@[simp] theorem foldS_wear (T : Type) (xs : List T) (g : T → State → State) (s : State)
    (h : ∀ x t, (g x t).wear = t.wear) : (foldS xs g s).wear = s.wear := foldS_keeps (fun t => t.wear) xs g s h

@[simp] theorem when_wear (c : Bool) (g : State → State) (s : State) (h : (g s).wear = s.wear) :
    (when c g s).wear = s.wear := when_keeps (fun t => t.wear) c g s h

@[simp] theorem foldS_sram (T : Type) (xs : List T) (g : T → State → State) (s : State)
    (h : ∀ x t, (g x t).sram = t.sram) : (foldS xs g s).sram = s.sram := foldS_keeps (fun t => t.sram) xs g s h

@[simp] theorem when_sram (c : Bool) (g : State → State) (s : State) (h : (g s).sram = s.sram) :
    (when c g s).sram = s.sram := when_keeps (fun t => t.sram) c g s h

@[simp] theorem foldS_outbox (T : Type) (xs : List T) (g : T → State → State) (s : State)
    (h : ∀ x t, (g x t).outbox = t.outbox) : (foldS xs g s).outbox = s.outbox := foldS_keeps (fun t => t.outbox) xs g s h

@[simp] theorem when_outbox (c : Bool) (g : State → State) (s : State) (h : (g s).outbox = s.outbox) :
    (when c g s).outbox = s.outbox := when_keeps (fun t => t.outbox) c g s h

@[simp] theorem foldS_mode_mode (T : Type) (xs : List T) (g : T → State → State) (s : State)
    (h : ∀ x t, (g x t).mode.mode = t.mode.mode) : (foldS xs g s).mode.mode = s.mode.mode := foldS_keeps (fun t => t.mode.mode) xs g s h

@[simp] theorem when_mode_mode (c : Bool) (g : State → State) (s : State) (h : (g s).mode.mode = s.mode.mode) :
    (when c g s).mode.mode = s.mode.mode := when_keeps (fun t => t.mode.mode) c g s h

@[simp] theorem foldS_laneA_sram (T : Type) (xs : List T) (g : T → State → State) (s : State)
    (h : ∀ x t, (g x t).laneA.sram = t.laneA.sram) : (foldS xs g s).laneA.sram = s.laneA.sram := foldS_keeps (fun t => t.laneA.sram) xs g s h

@[simp] theorem when_laneA_sram (c : Bool) (g : State → State) (s : State) (h : (g s).laneA.sram = s.laneA.sram) :
    (when c g s).laneA.sram = s.laneA.sram := when_keeps (fun t => t.laneA.sram) c g s h

@[simp] theorem foldS_laneB_sram (T : Type) (xs : List T) (g : T → State → State) (s : State)
    (h : ∀ x t, (g x t).laneB.sram = t.laneB.sram) : (foldS xs g s).laneB.sram = s.laneB.sram := foldS_keeps (fun t => t.laneB.sram) xs g s h

@[simp] theorem when_laneB_sram (c : Bool) (g : State → State) (s : State) (h : (g s).laneB.sram = s.laneB.sram) :
    (when c g s).laneB.sram = s.laneB.sram := when_keeps (fun t => t.laneB.sram) c g s h

@[simp] theorem foldS_hsp_queue (T : Type) (xs : List T) (g : T → State → State) (s : State)
    (h : ∀ x t, (g x t).host.hsp.queue = t.host.hsp.queue) : (foldS xs g s).host.hsp.queue = s.host.hsp.queue := foldS_keeps (fun t => t.host.hsp.queue) xs g s h

@[simp] theorem when_hsp_queue (c : Bool) (g : State → State) (s : State) (h : (g s).host.hsp.queue = s.host.hsp.queue) :
    (when c g s).host.hsp.queue = s.host.hsp.queue := when_keeps (fun t => t.host.hsp.queue) c g s h

@[simp] theorem foldS_hsp_out (T : Type) (xs : List T) (g : T → State → State) (s : State)
    (h : ∀ x t, (g x t).host.hsp.out = t.host.hsp.out) : (foldS xs g s).host.hsp.out = s.host.hsp.out := foldS_keeps (fun t => t.host.hsp.out) xs g s h

@[simp] theorem when_hsp_out (c : Bool) (g : State → State) (s : State) (h : (g s).host.hsp.out = s.host.hsp.out) :
    (when c g s).host.hsp.out = s.host.hsp.out := when_keeps (fun t => t.host.hsp.out) c g s h

@[simp] theorem foldS_net_queue (T : Type) (xs : List T) (g : T → State → State) (s : State)
    (h : ∀ x t, (g x t).host.net.queue = t.host.net.queue) : (foldS xs g s).host.net.queue = s.host.net.queue := foldS_keeps (fun t => t.host.net.queue) xs g s h

@[simp] theorem when_net_queue (c : Bool) (g : State → State) (s : State) (h : (g s).host.net.queue = s.host.net.queue) :
    (when c g s).host.net.queue = s.host.net.queue := when_keeps (fun t => t.host.net.queue) c g s h

@[simp] theorem foldS_net_out (T : Type) (xs : List T) (g : T → State → State) (s : State)
    (h : ∀ x t, (g x t).host.net.out = t.host.net.out) : (foldS xs g s).host.net.out = s.host.net.out := foldS_keeps (fun t => t.host.net.out) xs g s h

@[simp] theorem when_net_out (c : Bool) (g : State → State) (s : State) (h : (g s).host.net.out = s.host.net.out) :
    (when c g s).host.net.out = s.host.net.out := when_keeps (fun t => t.host.net.out) c g s h

@[simp] theorem foldS_host_bolts (T : Type) (xs : List T) (g : T → State → State) (s : State)
    (h : ∀ x t, (g x t).host.bolts = t.host.bolts) : (foldS xs g s).host.bolts = s.host.bolts := foldS_keeps (fun t => t.host.bolts) xs g s h

@[simp] theorem when_host_bolts (c : Bool) (g : State → State) (s : State) (h : (g s).host.bolts = s.host.bolts) :
    (when c g s).host.bolts = s.host.bolts := when_keeps (fun t => t.host.bolts) c g s h

end Sys2Proof.Machine
end

