-- ==== Sys2Proof/Laws/Events.lean ====
section
/-! SUPPORT. Bits of a register, and what raising and clearing an event do to the event registers, the pennant board and the
host ports. -/

namespace Sys2Proof.Machine

/-- A bit that is put is the bit that is read, and no other one changes. -/
theorem bit_putBit {w : Nat} (v : BitVec w) (j k : Nat) (b : Bool) (hj : j < w) :
    bit (putBit v j b) k = if k = j then b else bit v k := by
  by_cases h : k = j
  · subst h; cases b <;> simp [bit, putBit, hj]
  · by_cases hk : k < w
    · cases b <;> simp [bit, putBit, h, hk] <;> intros <;> omega
    · have := BitVec.getLsbD_of_ge v k (by omega)
      cases b <;> simp [bit, putBit, h, hk, this]

/-- The entry that is put is the entry that is read. -/
theorem at_put {α : Type} {n : Nat} (v : Vector α n) (k : Nat) (x d : α) (h : k < n) : at' (put' v k x) k d = x := by
  simp [at', put', h]

/-- Putting an entry leaves every other one alone. -/
theorem at_put_other {α : Type} {n : Nat} (v : Vector α n) (k j : Nat) (x d : α) (h : j ≠ k) :
    at' (put' v k x) j d = at' v j d := by
  have : ¬ k = j := fun e => h e.symm
  by_cases hk : k < n <;> by_cases hj : j < n <;> simp [at', put', hk, hj, this]

/-- Every event register has its place. -/
theorem slot_lt (r : EvReg) : r.slot < 30 := by
  cases r <;> (try rename_i l; cases l) <;> simp [EvReg.slot, laneOff]

/-- Two event registers have two places. -/
theorem slot_inj (q r : EvReg) (h : q ≠ r) : q.slot ≠ r.slot := by
  revert h
  cases q <;> (try rename_i x; cases x) <;> cases r <;> (try rename_i y; cases y) <;> decide

/-- A raised event is latched. -/
theorem latched_raise (r : EvReg) (k : Nat) (s : State) (hk : k < 32) : Latched r k (raise r k s) := by
  simp [Latched, eventsOf, raise_events, at_put _ _ _ _ (slot_lt r), bit_putBit _ _ _ _ hk]

/-- A latched event stays latched whatever is raised. -/
theorem latched_raise_other (q r : EvReg) (j k : Nat) (s : State) (hk : k < 32) (h : Latched q j s) :
    Latched q j (raise r k s) := by
  simp only [Latched, eventsOf, raise_events] at h ⊢
  by_cases e : q = r
  · subst e
    rw [at_put _ _ _ _ (slot_lt q), bit_putBit _ _ _ _ hk]
    split <;> simp_all
  · rw [at_put_other _ _ _ _ _ (slot_inj q r e)]
    exact h

/-- An event is latched wherever the event registers are the same. -/
theorem latched_of_events {r : EvReg} {k : Nat} {s t : State} (h : t.events = s.events) (hs : Latched r k s) :
    Latched r k t := by simpa [Latched, eventsOf, h] using hs

/-- Raising an event leaves the other bits of its register. -/
theorem eventsOf_raise (r : EvReg) (k j : Nat) (s : State) (hk : k < 32) :
    bit (eventsOf r (raise r k s)) j = if j = k then true else bit (eventsOf r s) j := by
  simp only [eventsOf, raise_events, at_put _ _ _ _ (slot_lt r), bit_putBit _ _ _ _ hk]

/-- Raising an event leaves the other registers. -/
theorem eventsOf_raise_other (q r : EvReg) (k : Nat) (s : State) (h : q ≠ r) :
    eventsOf q (raise r k s) = eventsOf q s := by
  simp only [eventsOf, raise_events, at_put_other _ _ _ _ _ (slot_inj q r h)]

/-- A one written to an event register clears its bit. -/
theorem eventsOf_clear (r : EvReg) (v : Word) (s : State) : eventsOf r (clearEvents r v s) = eventsOf r s &&& ~~~v := by
  simp [eventsOf, clearEvents, at_put _ _ _ _ (slot_lt r)]

/-- The host command processor without the board is the same where a pennant is raised. -/
@[simp] theorem hostRest_raisePennant (n : Nat) (s : State) : hostRest (raisePennant n s) = hostRest s := by
  simp only [hostRest, raisePennant, notePort]
  by_cases h : bit s.host.hsp.sub n = true <;> by_cases h' : bit s.host.net.sub n = true <;> simp [h, h']

/-- The host command processor without the board is the same where an event is raised. -/
@[simp] theorem hostRest_raise (r : EvReg) (k : Nat) (s : State) : hostRest (raise r k s) = hostRest s := by
  simp only [raise, hostRest_raisePennant]
  rfl

/-- The host command processor without the board depends on the host's state alone. -/
theorem hostRest_of_host {s t : State} (h : t.host = s.host) : hostRest t = hostRest s := by simp [hostRest, h]

end Sys2Proof.Machine
end

