-- ==== Sys2Proof/Laws/Frames.lean ====
section
/-! SUPPORT. Frames: how they compose, and what each shared operation may change. -/

namespace Sys2Proof.Machine

/-- Every part of a state is the same as itself. -/
@[simp] theorem Part.same_self (p : Part) (s : State) : p.same s s := by
  cases p <;> simp [Part.same]

/-- A part that two steps leave alone is the same after both. -/
theorem Part.same_trans {p : Part} {s t u : State} (h : p.same s t) (k : p.same t u) : p.same s u := by
  cases p <;> simp_all [Part.same]

/-- Nothing changes. -/
@[simp] theorem Frame.refl (ps : List Part) (s : State) : Frame ps s s := fun p _ => p.same_self s

/-- A frame of fewer parts is one of more. -/
theorem Frame.mono {ps qs : List Part} {s t : State} (h : Frame ps s t) (hs : ∀ p, p ∈ ps → p ∈ qs) : Frame qs s t :=
  fun p hp => h p fun hm => hp (hs p hm)

/-- Two changes change the parts of both. -/
theorem Frame.trans {ps qs rs : List Part} {s t u : State} (h : Frame ps s t) (k : Frame qs t u)
    (hp : ∀ p, p ∈ ps → p ∈ rs) (hq : ∀ p, p ∈ qs → p ∈ rs) : Frame rs s u :=
  fun p hm => Part.same_trans (h p fun x => hm (hp p x)) (k p fun x => hm (hq p x))

/-- Two changes of the same parts. -/
theorem Frame.comp {ps : List Part} {s t u : State} (h : Frame ps s t) (k : Frame ps t u) : Frame ps s u :=
  h.trans k (fun _ hp => hp) (fun _ hp => hp)

/-- A change made where a condition holds. -/
theorem Frame.when {ps : List Part} {c : Bool} {f : State → State} {s : State} (h : Frame ps s (f s)) :
    Frame ps s (Machine.when c f s) := by
  unfold Machine.when
  split
  · exact h
  · exact Frame.refl ps s

/-- A change repeated over a list. -/
theorem Frame.foldS {α : Type} {ps : List Part} (xs : List α) (f : α → State → State) (s : State)
    (h : ∀ x t, Frame ps t (f x t)) : Frame ps s (Machine.foldS xs f s) := by
  unfold Machine.foldS
  induction xs generalizing s with
  | nil => exact Frame.refl ps s
  | cons x xs ih => exact (h x s).comp (ih (f x s))

/-- Only this block changes. -/
theorem modPower_only (f : PowerState → PowerState) (s : State) : Frame [.power] s (modPower f s) := by
  intro p hp
  cases p <;> first
    | rfl
    | exact ⟨rfl, rfl, rfl⟩
    | exact ⟨rfl, rfl, rfl, rfl⟩
    | exact absurd hp (by simp)

/-- Only this block changes. -/
theorem modClock_only (f : ClockState → ClockState) (s : State) : Frame [.clock] s (modClock f s) := by
  intro p hp
  cases p <;> first
    | rfl
    | exact ⟨rfl, rfl, rfl⟩
    | exact ⟨rfl, rfl, rfl, rfl⟩
    | exact absurd hp (by simp)

/-- Only this block changes. -/
theorem modMode_only (f : ModeState → ModeState) (s : State) : Frame [.mode] s (modMode f s) := by
  intro p hp
  cases p <;> first
    | rfl
    | exact ⟨rfl, rfl, rfl⟩
    | exact ⟨rfl, rfl, rfl, rfl⟩
    | exact absurd hp (by simp)

/-- Only this block changes. -/
theorem modKey_only (f : KeyState → KeyState) (s : State) : Frame [.key] s (modKey f s) := by
  intro p hp
  cases p <;> first
    | rfl
    | exact ⟨rfl, rfl, rfl⟩
    | exact ⟨rfl, rfl, rfl, rfl⟩
    | exact absurd hp (by simp)

/-- Only this block changes. -/
theorem modMesh_only (f : MeshState → MeshState) (s : State) : Frame [.mesh] s (modMesh f s) := by
  intro p hp
  cases p <;> first
    | rfl
    | exact ⟨rfl, rfl, rfl⟩
    | exact ⟨rfl, rfl, rfl, rfl⟩
    | exact absurd hp (by simp)

/-- Only this block changes. -/
theorem modGate_only (f : GateState → GateState) (s : State) : Frame [.gate] s (modGate f s) := by
  intro p hp
  cases p <;> first
    | rfl
    | exact ⟨rfl, rfl, rfl⟩
    | exact ⟨rfl, rfl, rfl, rfl⟩
    | exact absurd hp (by simp)

/-- Only this block changes. -/
theorem modClaim_only (f : ClaimState → ClaimState) (s : State) : Frame [.claim] s (modClaim f s) := by
  intro p hp
  cases p <;> first
    | rfl
    | exact ⟨rfl, rfl, rfl⟩
    | exact ⟨rfl, rfl, rfl, rfl⟩
    | exact absurd hp (by simp)

/-- Only this block changes. -/
theorem modNet_only (f : NetState → NetState) (s : State) : Frame [.net] s (modNet f s) := by
  intro p hp
  cases p <;> first
    | rfl
    | exact ⟨rfl, rfl, rfl⟩
    | exact ⟨rfl, rfl, rfl, rfl⟩
    | exact absurd hp (by simp)

/-- Only this block changes. -/
theorem modTime_only (f : TimeState → TimeState) (s : State) : Frame [.timebase] s (modTime f s) := by
  intro p hp
  cases p <;> first
    | rfl
    | exact ⟨rfl, rfl, rfl⟩
    | exact ⟨rfl, rfl, rfl, rfl⟩
    | exact absurd hp (by simp)

/-- Only this block changes. -/
theorem modFio_only (f : FioState → FioState) (s : State) : Frame [.fio] s (modFio f s) := by
  intro p hp
  cases p <;> first
    | rfl
    | exact ⟨rfl, rfl, rfl⟩
    | exact ⟨rfl, rfl, rfl, rfl⟩
    | exact absurd hp (by simp)

/-- Only this block changes. -/
theorem modPlk_only (f : PlkState → PlkState) (s : State) : Frame [.plk] s (modPlk f s) := by
  intro p hp
  cases p <;> first
    | rfl
    | exact ⟨rfl, rfl, rfl⟩
    | exact ⟨rfl, rfl, rfl, rfl⟩
    | exact absurd hp (by simp)

/-- Only this block changes. -/
theorem modWear_only (f : WearState → WearState) (s : State) : Frame [.wear] s (modWear f s) := by
  intro p hp
  cases p <;> first
    | rfl
    | exact ⟨rfl, rfl, rfl⟩
    | exact ⟨rfl, rfl, rfl, rfl⟩
    | exact absurd hp (by simp)

/-- Only the host command processor and the board change. -/
theorem modHost_only (f : HostState → HostState) (s : State) : Frame [.host, .board] s (modHost f s) := by
  intro p hp
  cases p <;> first
    | rfl
    | exact ⟨rfl, rfl, rfl⟩
    | exact ⟨rfl, rfl, rfl, rfl⟩
    | exact absurd hp (by simp)

/-- Only the CAN ports change. -/
theorem modCan_only (q : Fin 2) (f : CanState → CanState) (s : State) : Frame [.can] s (modCan q f s) := by
  intro p hp
  cases p <;> first
    | rfl
    | exact ⟨rfl, rfl, rfl⟩
    | exact ⟨rfl, rfl, rfl, rfl⟩
    | exact absurd hp (by simp)

/-- Only the gate channels change. -/
theorem modCh_only (c : Fin 32) (f : Channel → Channel) (s : State) : Frame [.gate] s (modCh c f s) := by
  intro p hp
  cases p <;> first
    | rfl
    | exact ⟨rfl, rfl, rfl⟩
    | exact ⟨rfl, rfl, rfl, rfl⟩
    | exact absurd hp (by simp)

/-- Only the outbox changes. -/
theorem send_only (x : Sent) (s : State) : Frame [.outbox] s (send x s) := by
  intro p hp
  cases p <;> first
    | rfl
    | exact ⟨rfl, rfl, rfl⟩
    | exact ⟨rfl, rfl, rfl, rfl⟩
    | exact absurd hp (by simp)

/-- Only the time changes. -/
theorem advance_only (n : Nat) (s : State) : Frame [.time] s (advance n s) := by
  intro p hp
  cases p <;> first
    | rfl
    | exact ⟨rfl, rfl, rfl⟩
    | exact ⟨rfl, rfl, rfl, rfl⟩
    | exact absurd hp (by simp)

/-- Only the time changes. -/
theorem elapseTo_only (n : Nat) (s : State) : Frame [.time] s (elapseTo n s) := by
  intro p hp
  cases p <;> first
    | rfl
    | exact ⟨rfl, rfl, rfl⟩
    | exact ⟨rfl, rfl, rfl, rfl⟩
    | exact absurd hp (by simp)

/-- Only the time changes. -/
theorem periodic_only (k n : Nat) (s : State) : Frame [.time] s (periodic k n s) := by
  intro p hp
  cases p <;> first
    | rfl
    | exact ⟨rfl, rfl, rfl⟩
    | exact ⟨rfl, rfl, rfl, rfl⟩
    | exact absurd hp (by simp)

/-- Only the time changes. -/
theorem startTick_only (k : Nat) (s : State) : Frame [.time] s (startTick k s) := by
  intro p hp
  cases p <;> first
    | rfl
    | exact ⟨rfl, rfl, rfl⟩
    | exact ⟨rfl, rfl, rfl, rfl⟩
    | exact absurd hp (by simp)

/-- Only the event registers change. -/
theorem clearEvents_only (r : EvReg) (v : Word) (s : State) : Frame [.events] s (clearEvents r v s) := by
  intro p hp
  cases p <;> first
    | rfl
    | exact ⟨rfl, rfl, rfl⟩
    | exact ⟨rfl, rfl, rfl, rfl⟩
    | exact absurd hp (by simp)

/-- Only the pennant board changes. -/
theorem raisePennant_only (n : Nat) (s : State) : Frame [.board] s (raisePennant n s) := by
  intro p hp
  cases p <;> first
    | rfl
    | exact ⟨rfl, rfl, rfl⟩
    | exact ⟨rfl, rfl, rfl, rfl⟩
    | exact hostRest_raisePennant n s
    | exact absurd hp (by simp)

/-- Only the event registers and the pennant board change. -/
theorem raise_only (r : EvReg) (k : Nat) (s : State) : Frame [.events, .board] s (raise r k s) := by
  intro p hp
  cases p <;> first
    | rfl
    | exact ⟨rfl, rfl, rfl⟩
    | exact ⟨rfl, rfl, rfl, rfl⟩
    | exact hostRest_raise r k s
    | exact absurd hp (by simp)

/-- Only the event registers and the pennant board change. -/
theorem raiseIf_only (c : Bool) (r : EvReg) (k : Nat) (s : State) : Frame [.events, .board] s (raiseIf c r k s) := by
  unfold raiseIf
  split
  · exact raise_only r k s
  · exact Frame.refl _ s

/-- Only the count of free values changes. -/
theorem takeFree_only (s : State) : Frame [.free] s (takeFree s).2 := by
  intro p hp
  cases p <;> first
    | rfl
    | exact ⟨rfl, rfl, rfl⟩
    | exact ⟨rfl, rfl, rfl, rfl⟩
    | exact absurd hp (by simp)

/-- Only the blocks of this lane change. -/
theorem modMeas_only (l : Lane) (f : MeasState → MeasState) (s : State) : Frame [lanePart l] s (modMeas l f s) := by
  intro p hp
  cases l <;> cases p <;> first
    | rfl
    | exact ⟨rfl, rfl, rfl⟩
    | exact ⟨rfl, rfl, rfl, rfl⟩
    | exact absurd hp (by simp [lanePart])

/-- Only the blocks of this lane change. -/
theorem modPin_only (l : Lane) (q : Fin 32) (f : PinState → PinState) (s : State) : Frame [lanePart l] s (modPin l q f s) := by
  intro p hp
  cases l <;> cases p <;> first
    | rfl
    | exact ⟨rfl, rfl, rfl⟩
    | exact ⟨rfl, rfl, rfl, rfl⟩
    | exact absurd hp (by simp [lanePart])

/-- Only the blocks of this lane change. -/
theorem modEng_only (l : Lane) (f : EngState → EngState) (s : State) : Frame [lanePart l] s (modEng l f s) := by
  intro p hp
  cases l <;> cases p <;> first
    | rfl
    | exact ⟨rfl, rfl, rfl⟩
    | exact ⟨rfl, rfl, rfl, rfl⟩
    | exact absurd hp (by simp [lanePart])

/-- Only the blocks of this lane change. -/
theorem modCtx_only (l : Lane) (c : Fin 8) (f : EngCtx → EngCtx) (s : State) : Frame [lanePart l] s (modCtx l c f s) := by
  intro p hp
  cases l <;> cases p <;> first
    | rfl
    | exact ⟨rfl, rfl, rfl⟩
    | exact ⟨rfl, rfl, rfl, rfl⟩
    | exact absurd hp (by simp [lanePart])

/-- Only the blocks of this lane change. -/
theorem modRa_only (l : Lane) (f : RaState → RaState) (s : State) : Frame [lanePart l] s (modRa l f s) := by
  intro p hp
  cases l <;> cases p <;> first
    | rfl
    | exact ⟨rfl, rfl, rfl⟩
    | exact ⟨rfl, rfl, rfl, rfl⟩
    | exact absurd hp (by simp [lanePart])

/-- Only the blocks of this lane change. -/
theorem modRaCtx_only (l : Lane) (c : Fin 8) (f : RaCtx → RaCtx) (s : State) : Frame [lanePart l] s (modRaCtx l c f s) := by
  intro p hp
  cases l <;> cases p <;> first
    | rfl
    | exact ⟨rfl, rfl, rfl⟩
    | exact ⟨rfl, rfl, rfl, rfl⟩
    | exact absurd hp (by simp [lanePart])

/-- Only the blocks of this lane change. -/
theorem modGf_only (l : Lane) (f : GfState → GfState) (s : State) : Frame [lanePart l] s (modGf l f s) := by
  intro p hp
  cases l <;> cases p <;> first
    | rfl
    | exact ⟨rfl, rfl, rfl⟩
    | exact ⟨rfl, rfl, rfl, rfl⟩
    | exact absurd hp (by simp [lanePart])

/-- Only the blocks of this lane change. -/
theorem modGen_only (l : Lane) (g : Fin 16) (f : GenState → GenState) (s : State) : Frame [lanePart l] s (modGen l g f s) := by
  intro p hp
  cases l <;> cases p <;> first
    | rfl
    | exact ⟨rfl, rfl, rfl⟩
    | exact ⟨rfl, rfl, rfl, rfl⟩
    | exact absurd hp (by simp [lanePart])

/-- Only the blocks of this lane change. -/
theorem modRec_only (l : Lane) (f : RecState → RecState) (s : State) : Frame [lanePart l] s (modRec l f s) := by
  intro p hp
  cases l <;> cases p <;> first
    | rfl
    | exact ⟨rfl, rfl, rfl⟩
    | exact ⟨rfl, rfl, rfl, rfl⟩
    | exact absurd hp (by simp [lanePart])

/-- Only this lane's SRAM changes. -/
theorem laneWrite_only (l : Lane) (off : Nat) (bs : List Byte) (s : State) : Frame [sramPart l] s (laneWrite l off bs s) := by
  intro p hp
  cases l <;> cases p <;> first
    | rfl
    | exact ⟨rfl, rfl, rfl⟩
    | exact ⟨rfl, rfl, rfl, rfl⟩
    | exact absurd hp (by simp [sramPart])

/-- Only the claims change. -/
theorem modLc_only (l : Lane) (f : LaneClaim → LaneClaim) (s : State) : Frame [.claim] s (modLc l f s) := by
  intro p hp
  cases l <;> cases p <;> first
    | rfl
    | exact ⟨rfl, rfl, rfl⟩
    | exact ⟨rfl, rfl, rfl, rfl⟩
    | exact absurd hp (by simp)

/-- Only the claims change. -/
theorem modTsu_only (l : Lane) (f : TsuChannel → TsuChannel) (s : State) : Frame [.claim] s (modTsu l f s) := by
  intro p hp
  cases l <;> cases p <;> first
    | rfl
    | exact ⟨rfl, rfl, rfl⟩
    | exact ⟨rfl, rfl, rfl, rfl⟩
    | exact absurd hp (by simp)

/-- Only shared SRAM changes. -/
theorem sharedWrite_only (a : Nat) (bs : List Byte) (s : State) : Frame [.sram] s (sharedWrite a bs s) := by
  intro p hp
  cases p <;> first
    | rfl
    | exact ⟨rfl, rfl, rfl⟩
    | exact ⟨rfl, rfl, rfl, rfl⟩
    | exact absurd hp (by simp)

/-- Only the claims change. -/
theorem mirror_only (l : Lane) (w : MirrorWrite) (s : State) : Frame [.claim] s (mirror l w s) := by
  unfold mirror
  split
  · exact modTsu_only l _ s
  · exact Frame.refl _ s

/-- Only the mode controller changes. -/
theorem beginTransition_only (x : Transition) (s : State) : Frame [.mode] s (beginTransition x s) :=
  modMode_only (fun m => { m with busy := true, target := x.dst, nextCause := x.cause, nextEvt := x.evt }) s

/-- A trigger starts a transition along its row, is held, or does nothing: what it changes is BUSY, the target with its cause
and events, and the held triggers. -/
theorem trigger_cases (x : Trigger) (s : State) :
    trigger x s = s ∨ (∃ r, x.row s = some r ∧ trigger x s = beginTransition r s) ∨
      (s.mode.busy = true ∧ trigger x s = { s with mode := { s.mode with held := s.mode.held ++ [x] } }) := by
  unfold trigger
  split
  · split
    · rename_i h
      simp only [Bool.and_eq_true] at h
      exact .inr (.inr ⟨h.1, rfl⟩)
    · exact .inl rfl
  · rename_i r hr
    split
    · split
      · exact .inl rfl
      · exact .inr (.inl ⟨r, hr, rfl⟩)
    · split
      · exact .inr (.inr ⟨‹_›, rfl⟩)
      · exact .inr (.inl ⟨r, hr, rfl⟩)

/-- Only the mode controller changes. -/
theorem trigger_only (x : Trigger) (s : State) : Frame [.mode] s (trigger x s) := by
  obtain h | ⟨r, -, h⟩ | ⟨-, h⟩ := trigger_cases x s <;> rw [h]
  · exact Frame.refl _ s
  · exact beginTransition_only r s
  · exact modMode_only (fun m => { m with held := m.held ++ [x] }) s

/-- Only the claims, the event registers and the board change. -/
theorem faultLane_only (l : Lane) (cause : Nat) (s : State) : Frame [.claim, .events, .board] s (faultLane l cause s) := by
  have up {t u : State} (h : Frame [.claim] t u) : Frame [.claim, .events, .board] t u := h.mono (by simp)
  have ev {t u : State} (h : Frame [.events, .board] t u) : Frame [.claim, .events, .board] t u :=
    h.mono fun p hp => List.mem_cons_of_mem _ hp
  unfold faultLane
  extract_lets lc fs park health s1 s2
  split
  · exact Frame.refl _ s
  · split
    · exact up (modLc_only l _ s)
    · exact ((up (modLc_only l _ s)).comp (up (modLc_only (otherLane l) _ s1))).comp
        ((ev (raise_only _ _ s2)).comp (ev (raiseIf_only _ _ _ _)))

/-- Only the wear manager changes. -/
theorem logSwap_only (res lane unit spare trig ind : Nat) (s : State) :
    Frame [.wear] s (logSwap res lane unit spare trig ind s) :=
  modWear_only (fun w => { w with queue := (logSwap res lane unit spare trig ind s).wear.queue }) s

/-- Only the wear manager, the event registers and the board change. -/
theorem hingeSwap_only (res lane unit spare trig ind : Nat) (s : State) :
    Frame [.wear, .events, .board] s (hingeSwap res lane unit spare trig ind s) := by
  have up {t u : State} (h : Frame [.wear] t u) : Frame [.wear, .events, .board] t u := h.mono (by simp)
  have ev {t u : State} (h : Frame [.events, .board] t u) : Frame [.wear, .events, .board] t u :=
    h.mono fun p hp => List.mem_cons_of_mem _ hp
  unfold hingeSwap
  extract_lets s1 s2 s3
  have h3 : Frame [.wear, .events, .board] s s3 :=
    ((up (modWear_only _ s)).comp (up (logSwap_only res lane unit spare trig ind s1))).comp
      ((ev (raise_only _ _ s2)).comp (ev (raiseIf_only _ _ _ _)))
  split
  · exact h3.comp (up (modWear_only (fun w => { w with
      repairs := w.repairs ++ [⟨BitVec.ofNat 8 res, BitVec.ofNat 8 lane, BitVec.ofNat 16 unit, BitVec.ofNat 8 spare⟩],
      mapDirty := some (w.mapDirty.getD s3.now) }) s3))
  · exact h3

/-- Only the wear manager, the event registers and the board change. -/
theorem noSpare_only (res lane unit trig ind : Nat) (s : State) :
    Frame [.wear, .events, .board] s (noSpare res lane unit trig ind s) := by
  have up {t u : State} (h : Frame [.wear] t u) : Frame [.wear, .events, .board] t u := h.mono (by simp)
  have ev {t u : State} (h : Frame [.events, .board] t u) : Frame [.wear, .events, .board] t u :=
    h.mono fun p hp => List.mem_cons_of_mem _ hp
  unfold noSpare
  split
  · exact Frame.refl _ s
  · exact ((up (modWear_only (fun w => { w with outSeen := put' w.outSeen (3 * res + lane) true }) s)).comp
      (up (logSwap_only _ _ _ _ _ _ _))).comp (ev (raise_only _ _ _))

end Sys2Proof.Machine
end

