-- ==== Sys2Proof/Laws/FramesBase.lean ====
section
/-! SUPPORT. Frames composed: how the frame of an operation is read off its definition. -/

namespace Sys2Proof.Machine

/-- A frame after a frame, the first of fewer parts. -/
theorem Frame.under {ps rs : List Part} {s t u : State} (h : Frame ps t u) (hs : ∀ p, p ∈ ps → p ∈ rs) (k : Frame rs s t) : Frame rs s u :=
  k.comp (h.mono hs)

/-- The state of a pair that an equation names. -/
theorem Frame.snd {α : Type} {ps : List Part} {s t : State} {x : α × State} {a : α} (h : x = (a, t)) (k : Frame ps s x.2) : Frame ps s t := by
  subst h; exact k

/-- Parts of a list, one by one. -/
theorem sub_cons {a : Part} {ps rs : List Part} (h : a ∈ rs) (k : ∀ p, p ∈ ps → p ∈ rs) : ∀ p, p ∈ a :: ps → p ∈ rs := by
  intro p hp; cases hp with
  | head => exact h
  | tail _ hp => exact k p hp

/-- No part. -/
theorem sub_nil (rs : List Part) : ∀ p, p ∈ ([] : List Part) → p ∈ rs := by simp

/-- The part of a lane in a list that holds both. -/
theorem lanePart_mem (l : Lane) {rs : List Part} (h : .laneA ∈ rs) (k : .laneB ∈ rs) : lanePart l ∈ rs := by cases l <;> assumption

/-- The part of a lane's SRAM in a list that holds both. -/
theorem sramPart_mem (l : Lane) {rs : List Part} (h : .sramA ∈ rs) (k : .sramB ∈ rs) : sramPart l ∈ rs := by cases l <;> assumption

/-- Where an outcome is a next state, it differs from the state before only in the parts listed. -/
def FrameOut (ps : List Part) (s : State) (o : Host.Outcome State Fault Refusal) : Prop := ∀ t, o = .next t → Frame ps s t

/-- The frame of a next state. -/
theorem FrameOut.next {ps : List Part} {s t : State} (k : Frame ps s t) : FrameOut ps s (.next t) := by
  intro u h; cases h; exact k

/-- A fault changes nothing. -/
theorem FrameOut.fault (ps : List Part) (s : State) (r : Fault) : FrameOut ps s (.fault r) := by
  intro u h; cases h

/-- A refusal changes nothing. -/
theorem FrameOut.refused (ps : List Part) (s : State) (r : Refusal) : FrameOut ps s (.refused r) := by
  intro u h; cases h

/-- The frame of an outcome after a frame. -/
theorem FrameOut.under {ps rs : List Part} {s t : State} {o} (h : FrameOut ps t o) (hs : ∀ p, p ∈ ps → p ∈ rs) (k : Frame rs s t) : FrameOut rs s o := by
  intro u hu; exact k.comp ((h u hu).mono hs)

/-- The field alone. -/
theorem mode_set (s : State) (x) : Frame [.mode] s { s with mode := x } := by
  intro p hp
  cases p <;> first | rfl | exact ⟨rfl, rfl, rfl⟩ | exact ⟨rfl, rfl, rfl, rfl⟩ | exact absurd hp (by simp)

/-- The field alone. -/
theorem wear_set (s : State) (x) : Frame [.wear] s { s with wear := x } := by
  intro p hp
  cases p <;> first | rfl | exact ⟨rfl, rfl, rfl⟩ | exact ⟨rfl, rfl, rfl, rfl⟩ | exact absurd hp (by simp)

/-- The field alone. -/
theorem host_set (s : State) (x) : Frame [.host, .board] s { s with host := x } := by
  intro p hp
  cases p <;> first | rfl | exact ⟨rfl, rfl, rfl⟩ | exact ⟨rfl, rfl, rfl, rfl⟩ | exact absurd hp (by simp)

/-- The field alone. -/
theorem events_set (s : State) (x) : Frame [.events] s { s with events := x } := by
  intro p hp
  cases p <;> first | rfl | exact ⟨rfl, rfl, rfl⟩ | exact ⟨rfl, rfl, rfl, rfl⟩ | exact absurd hp (by simp)

/-- The field alone. -/
theorem gate_set (s : State) (x) : Frame [.gate] s { s with gate := x } := by
  intro p hp
  cases p <;> first | rfl | exact ⟨rfl, rfl, rfl⟩ | exact ⟨rfl, rfl, rfl, rfl⟩ | exact absurd hp (by simp)

/-- The field alone. -/
theorem claim_set (s : State) (x) : Frame [.claim] s { s with claim := x } := by
  intro p hp
  cases p <;> first | rfl | exact ⟨rfl, rfl, rfl⟩ | exact ⟨rfl, rfl, rfl, rfl⟩ | exact absurd hp (by simp)

/-- The field alone. -/
theorem power_set (s : State) (x) : Frame [.power] s { s with power := x } := by
  intro p hp
  cases p <;> first | rfl | exact ⟨rfl, rfl, rfl⟩ | exact ⟨rfl, rfl, rfl, rfl⟩ | exact absurd hp (by simp)

/-- The field alone. -/
theorem clock_set (s : State) (x) : Frame [.clock] s { s with clock := x } := by
  intro p hp
  cases p <;> first | rfl | exact ⟨rfl, rfl, rfl⟩ | exact ⟨rfl, rfl, rfl, rfl⟩ | exact absurd hp (by simp)

/-- The field alone. -/
theorem plk_set (s : State) (x) : Frame [.plk] s { s with plk := x } := by
  intro p hp
  cases p <;> first | rfl | exact ⟨rfl, rfl, rfl⟩ | exact ⟨rfl, rfl, rfl, rfl⟩ | exact absurd hp (by simp)

/-- The field alone. -/
theorem fresh_set (s : State) (x) : Frame [.free] s { s with fresh := x } := by
  intro p hp
  cases p <;> first | rfl | exact ⟨rfl, rfl, rfl⟩ | exact ⟨rfl, rfl, rfl, rfl⟩ | exact absurd hp (by simp)

/-- A lane's blocks replaced, its SRAM kept. -/
theorem setLane_keep (s : State) (l : Lane) (x : LaneState) (h : x.sram = (s.lane l).sram) : Frame [lanePart l] s (s.setLane l x) := by
  intro p hp
  cases l <;> cases p <;> first
    | rfl
    | exact h
    | exact ⟨rfl, rfl, rfl⟩
    | exact ⟨rfl, rfl, rfl, rfl⟩
    | exact absurd hp (by simp [lanePart])

/-- The field alone. -/
theorem ticks_set (s : State) (x) : Frame [.time] s { s with ticks := x } := by
  intro p hp
  cases p <;> first | rfl | exact ⟨rfl, rfl, rfl⟩ | exact ⟨rfl, rfl, rfl, rfl⟩ | exact absurd hp (by simp)

/-- The field alone. -/
theorem time_set (s : State) (x) : Frame [.timebase] s { s with time := x } := by
  intro p hp
  cases p <;> first | rfl | exact ⟨rfl, rfl, rfl⟩ | exact ⟨rfl, rfl, rfl, rfl⟩ | exact absurd hp (by simp)

/-- The field alone. -/
theorem outbox_set (s : State) (x) : Frame [.outbox] s { s with outbox := x } := by
  intro p hp
  cases p <;> first | rfl | exact ⟨rfl, rfl, rfl⟩ | exact ⟨rfl, rfl, rfl, rfl⟩ | exact absurd hp (by simp)

end Sys2Proof.Machine
end

