-- ==== Sys2Proof/Laws/FramesBlocks.lean ====
section
/-! SUPPORT. What each operation of the shared operations, the power, clock, mesh, image and keyring blocks can change: one frame lemma per operation and command, read off its definition. -/

set_option linter.unusedTactic false
set_option linter.unreachableTactic false

namespace Sys2Proof.Machine

/-- What `opEvent` can change. -/
theorem opEvent_only (op a0 a1 : Nat) (r : Word × Word) (taken : List Word) (s : State) : Frame [.board, .host] s (opEvent op a0 a1 r taken s) := by
  unfold opEvent
  refine Frame.under (host_set _ _) (by simp) ?_
  exact Frame.refl _ _

/-- What `protectionTrip` can change. -/
theorem protectionTrip_only (s : State) : Frame [.mode] s (protectionTrip s) := by
  unfold protectionTrip
  refine Frame.under (trigger_only _ _) (by simp) ?_
  exact Frame.refl _ _

/-- What `crcErrors` can change. -/
theorem crcErrors_only (l : Lane) (n : Nat) (s : State) : Frame [.claim] s (crcErrors l n s) := by
  unfold crcErrors
  refine Frame.under (modTsu_only _ _ _) (by simp) ?_
  exact Frame.refl _ _

/-- What `noteRepair` can change. -/
theorem noteRepair_only (r : Repair) (s : State) : Frame [.wear] s (noteRepair r s) := by
  unfold noteRepair
  refine Frame.under (wear_set _ _) (by simp) ?_
  exact Frame.refl _ _

/-- What `noteTrig` can change. -/
theorem noteTrig_only (l : Lane) (src : Nat) (ticks : Long) (s : State) : Frame [lanePart l] s (noteTrig l src ticks s) := by
  unfold noteTrig
  split
  · refine Frame.under (modRec_only _ _ _) (by simp) ?_
    exact Frame.refl _ _
  · exact Frame.refl _ _

/-- What `noteTrigsAt` can change. -/
theorem noteTrigsAt_only (src : Nat) (ticks : Long) (s : State) : Frame [.laneA, .laneB] s (noteTrigsAt src ticks s) := by
  unfold noteTrigsAt
  refine Frame.comp ?_ (Frame.foldS _ _ _ fun _ _ => ?_)
  · exact Frame.refl _ _
  · refine Frame.under (noteTrig_only _ _ _ _) (by repeat' first | exact sub_nil _ | (refine lanePart_mem _ ?_ ?_ <;> (simp; done)) | (refine sramPart_mem _ ?_ ?_ <;> (simp; done)) | refine sub_cons ?_ ?_ | (simp; done)) ?_
    exact Frame.refl _ _

/-- What `noteTrigs` can change. -/
theorem noteTrigs_only (src : Nat) (s : State) : Frame [.laneA, .laneB] s (noteTrigs src s) := by
  unfold noteTrigs
  refine Frame.under (noteTrigsAt_only _ _ _) (by simp) ?_
  exact Frame.refl _ _

/-- What `recMark` can change. -/
theorem recMark_only (l : Lane) (ticks : Long) (fracN kind tag src : Nat) (data : Nat) (s : State) : Frame [.events, .board, lanePart l, sramPart l] s (recMark l ticks fracN kind tag src data s) := by
  unfold recMark
  dsimp only
  split
  · exact Frame.refl _ _
  · split
    · exact Frame.refl _ _
    · split
      · refine Frame.under (raise_only _ _ _) (by simp) ?_
        refine Frame.under (modRec_only _ _ _) (by simp) ?_
        exact Frame.refl _ _
      · refine Frame.under (modRec_only _ _ _) (by simp) ?_
        refine Frame.under (laneWrite_only _ _ _ _) (by simp) ?_
        exact Frame.refl _ _

/-- What `plkLog` can change. -/
theorem plkLog_only (kind : Nat) (m : Nat) (code : Nat) (oldCrc newCrc : Nat) (s : State) : Frame [.plk] s (plkLog kind m code oldCrc newCrc s) := by
  unfold plkLog
  dsimp only
  refine Frame.under (plk_set _ _) (by simp) ?_
  exact Frame.refl _ _

/-- What `scheduleNext` can change. -/
theorem scheduleNext_only (c : Fin 8) (s : State) : Frame [.timebase] s (scheduleNext c s) := by
  unfold scheduleNext
  refine Frame.under (modTime_only _ _) (by simp) ?_
  exact Frame.refl _ _

/-- What `scheduleFirst` can change. -/
theorem scheduleFirst_only (c : Fin 8) (s : State) : Frame [.timebase] s (scheduleFirst c s) := by
  unfold scheduleFirst
  split
  · refine Frame.under (scheduleNext_only _ _) (by simp) ?_
    exact Frame.refl _ _
  · exact Frame.refl _ _

/-- What `elapseToRaw` can change. -/
theorem elapseToRaw_only (n : Long) (s : State) : Frame [.time] s (elapseToRaw n s) := by
  unfold elapseToRaw
  refine Frame.under (advance_only _ _) (by simp) ?_
  exact Frame.refl _ _

/-- What `realign` can change. -/
theorem realign_only (s : State) : Frame [.events, .board, .laneA, .laneB, .timebase] s (realign s) := by
  unfold realign
  dsimp only
  refine Frame.under (raise_only _ _ _) (by simp) ?_
  refine Frame.comp ?_ (Frame.foldS _ _ _ fun _ _ => ?_)
  · refine Frame.comp ?_ (Frame.foldS _ _ _ fun _ _ => ?_)
    · exact Frame.refl _ _
    · split
      · exact Frame.refl _ _
      · refine Frame.under (modTime_only _ _) (by simp) ?_
        exact Frame.refl _ _
  · refine Frame.under (modMeas_only _ _ _) (by repeat' first | exact sub_nil _ | (refine lanePart_mem _ ?_ ?_ <;> (simp; done)) | (refine sramPart_mem _ ?_ ?_ <;> (simp; done)) | refine sub_cons ?_ ?_ | (simp; done)) ?_
    exact Frame.refl _ _

/-- What `modTum` can change. -/
theorem modTum_only (c : Fin 32) (f : Tumbler → Tumbler) (s : State) : Frame [.claim] s (modTum c f s) := by
  unfold modTum
  refine Frame.under (modClaim_only _ _) (by simp) ?_
  exact Frame.refl _ _

/-- What `cutGate` can change. -/
theorem cutGate_only (c : Fin 32) (s : State) : Frame [.gate] s (cutGate c s) := by
  unfold cutGate
  refine Frame.under (modCh_only _ _ _) (by simp) ?_
  exact Frame.refl _ _

/-- What `followFall` can change. -/
theorem followFall_only (c : Fin 32) (s : State) : Frame [.gate] s (followFall c s) := by
  unfold followFall
  split
  · dsimp only
    refine Frame.under (modCh_only _ _ _) (by simp) ?_
    exact Frame.refl _ _
  · exact Frame.refl _ _

/-- What `settleGates` can change. -/
theorem settleGates_only (s : State) : Frame [.gate] s (settleGates s) := by
  unfold settleGates
  refine Frame.comp ?_ (Frame.foldS _ _ _ fun _ _ => ?_)
  · exact Frame.refl _ _
  · split
    · refine Frame.under (cutGate_only _ _) (by simp) ?_
      exact Frame.refl _ _
    · exact Frame.refl _ _

/-- What `settleTumblers` can change. -/
theorem settleTumblers_only (s : State) : Frame [.claim] s (settleTumblers s) := by
  unfold settleTumblers
  refine Frame.comp ?_ (Frame.foldS _ _ _ fun _ _ => ?_)
  · exact Frame.refl _ _
  · dsimp only
    split
    · refine Frame.under (modTum_only _ _ _) (by simp) ?_
      exact Frame.refl _ _
    · split
      · refine Frame.under (modTum_only _ _ _) (by simp) ?_
        exact Frame.refl _ _
      · exact Frame.refl _ _

/-- What `applyBlocks` can change. -/
theorem applyBlocks_only (s : State) : Frame [.laneA, .laneB, .gate, .claim] s (applyBlocks s) := by
  unfold applyBlocks
  refine Frame.under (settleGates_only _) (by simp) ?_
  refine Frame.under (settleTumblers_only _) (by simp) ?_
  refine Frame.comp ?_ (Frame.foldS _ _ _ fun _ _ => ?_)
  · exact Frame.refl _ _
  · refine Frame.comp ?_ (Frame.foldS _ _ _ fun _ _ => ?_)
    · exact Frame.refl _ _
    · dsimp only
      split
      · exact Frame.refl _ _
      · refine Frame.under (modGen_only _ _ _ _) (by repeat' first | exact sub_nil _ | (refine lanePart_mem _ ?_ ?_ <;> (simp; done)) | (refine sramPart_mem _ ?_ ?_ <;> (simp; done)) | refine sub_cons ?_ ?_ | (simp; done)) ?_
        exact Frame.refl _ _

/-- What `setSourceAt` can change. -/
theorem setSourceAt_only (src : Nat) (on : Bool) (ticks : Long) (s : State) : Frame [.events, .board, .mode, .laneA, .laneB, .gate, .claim] s (setSourceAt src on ticks s) := by
  unfold setSourceAt
  dsimp only
  split
  · exact Frame.refl _ _
  · split
    · refine Frame.under (settleGates_only _) (by simp) ?_
      refine Frame.under (modGate_only _ _) (by simp) ?_
      exact Frame.refl _ _
    · split
      · split
        · refine Frame.under (protectionTrip_only _) (by simp) ?_
          refine Frame.comp ?_ (Frame.when ?_)
          · refine Frame.under (modGate_only _ _) (by simp) ?_
            exact Frame.refl _ _
          · refine Frame.under (noteTrigsAt_only _ _ _) (by simp) ?_
            exact Frame.refl _ _
        · refine Frame.comp ?_ (Frame.when ?_)
          · refine Frame.under (modGate_only _ _) (by simp) ?_
            exact Frame.refl _ _
          · refine Frame.under (noteTrigsAt_only _ _ _) (by simp) ?_
            exact Frame.refl _ _
      · refine Frame.under (applyBlocks_only _) (by simp) ?_
        refine Frame.comp ?_ (Frame.when ?_)
        · split
          · refine Frame.under (modGate_only _ _) (by simp) ?_
            refine Frame.comp ?_ (Frame.when ?_)
            · refine Frame.under (modGate_only _ _) (by simp) ?_
              exact Frame.refl _ _
            · refine Frame.under (noteTrigsAt_only _ _ _) (by simp) ?_
              exact Frame.refl _ _
          · refine Frame.under (raise_only _ _ _) (by simp) ?_
            refine Frame.under (raise_only _ _ _) (by simp) ?_
            refine Frame.under (modGate_only _ _) (by simp) ?_
            refine Frame.comp ?_ (Frame.when ?_)
            · refine Frame.under (modGate_only _ _) (by simp) ?_
              exact Frame.refl _ _
            · refine Frame.under (noteTrigsAt_only _ _ _) (by simp) ?_
              exact Frame.refl _ _
        · refine Frame.under (protectionTrip_only _) (by simp) ?_
          exact Frame.refl _ _

/-- What `setSource` can change. -/
theorem setSource_only (src : Nat) (on : Bool) (s : State) : Frame [.events, .board, .mode, .laneA, .laneB, .gate, .claim] s (setSource src on s) := by
  unfold setSource
  refine Frame.under (setSourceAt_only _ _ _ _) (by simp) ?_
  exact Frame.refl _ _

/-- What `refreshWin` can change. -/
theorem refreshWin_only (pin : Fin 32) (s : State) : Frame [.events, .board, .mode, .laneA, .laneB, .gate, .claim] s (refreshWin pin s) := by
  unfold refreshWin
  refine Frame.under (setSource_only _ _ _) (by simp) ?_
  exact Frame.refl _ _

/-- What `takeDuty` can change. -/
theorem takeDuty_only (l : Lane) (g : Fin 16) (per : Nat) (d : DutyVal) (s : State) : Frame [.events, .board, lanePart l] s (takeDuty l g per d s) := by
  unfold takeDuty
  dsimp only
  refine Frame.under (raiseIf_only _ _ _ _) (by simp) ?_
  refine Frame.under (modGen_only _ _ _ _) (by simp) ?_
  exact Frame.refl _ _

/-- What `computePeriod` can change. -/
theorem computePeriod_only (l : Lane) (g : Fin 16) (s : State) : Frame [.events, .board, lanePart l] s (computePeriod l g s) := by
  unfold computePeriod
  dsimp only
  split
  · split
    · split
      · refine Frame.under (modGen_only _ _ _ _) (by simp) ?_
        exact Frame.refl _ _
      · refine Frame.under (raiseIf_only _ _ _ _) (by simp) ?_
        refine Frame.under (modGen_only _ _ _ _) (by simp) ?_
        exact Frame.refl _ _
    · refine Frame.under (modGen_only _ _ _ _) (by simp) ?_
      exact Frame.refl _ _
  · split
    · split
      · refine Frame.under (modGen_only _ _ _ _) (by simp) ?_
        exact Frame.refl _ _
      · refine Frame.under (raiseIf_only _ _ _ _) (by simp) ?_
        refine Frame.under (modGen_only _ _ _ _) (by simp) ?_
        exact Frame.refl _ _
    · refine Frame.under (modGen_only _ _ _ _) (by simp) ?_
      exact Frame.refl _ _

/-- What `replace` can change. -/
theorem replace_only (l : Lane) (g : Fin 16) (p : Period) (s : State) : Frame [.gate, lanePart l] s (replace l g p s) := by
  unfold replace
  dsimp only
  refine Frame.comp ?_ (Frame.foldS _ _ _ fun _ _ => ?_)
  · refine Frame.under (modGen_only _ _ _ _) (by simp) ?_
    exact Frame.refl _ _
  · refine Frame.under (followFall_only _ _) (by simp) ?_
    exact Frame.refl _ _

/-- What `updateNow` can change. -/
theorem updateNow_only (l : Lane) (g : Fin 16) (s : State) : Frame [.events, .board, .gate, lanePart l] s (updateNow l g s) := by
  unfold updateNow
  dsimp only
  split
  · exact Frame.refl _ _
  · split
    · refine Frame.under (raiseIf_only _ _ _ _) (by simp) ?_
      refine Frame.under (modGen_only _ _ _ _) (by simp) ?_
      exact Frame.refl _ _
    · refine Frame.under (raiseIf_only _ _ _ _) (by simp) ?_
      refine Frame.under (replace_only _ _ _ _) (by simp) ?_
      refine Frame.under (raiseIf_only _ _ _ _) (by simp) ?_
      refine Frame.under (modGen_only _ _ _ _) (by simp) ?_
      exact Frame.refl _ _

/-- What `token` can change. -/
theorem token_only (l : Lane) (g : Fin 16) (s : State) : Frame [.events, .board, lanePart l] s (token l g s) := by
  unfold token
  dsimp only
  split
  · exact Frame.refl _ _
  · split
    · split
      · refine Frame.under (modGen_only _ _ _ _) (by simp) ?_
        exact Frame.refl _ _
      · refine Frame.under (raise_only _ _ _) (by simp) ?_
        refine Frame.under (modGen_only _ _ _ _) (by simp) ?_
        exact Frame.refl _ _
    · split
      · refine Frame.under (raise_only _ _ _) (by simp) ?_
        refine Frame.under (modGen_only _ _ _ _) (by simp) ?_
        exact Frame.refl _ _
      · exact Frame.refl _ _

/-- What `branchToken` can change. -/
theorem branchToken_only (l : Lane) (g : Fin 16) (s : State) : Frame [.events, .board, .gate, lanePart l] s (branchToken l g s) := by
  unfold branchToken
  dsimp only
  split
  · refine Frame.under (token_only _ _ _) (by simp) ?_
    exact Frame.refl _ _
  · split
    · refine Frame.under (token_only _ _ _) (by simp) ?_
      exact Frame.refl _ _
    · split
      · refine Frame.under (token_only _ _ _) (by simp) ?_
        exact Frame.refl _ _
      · refine Frame.under (updateNow_only _ _ _) (by simp) ?_
        refine Frame.under (token_only _ _ _) (by simp) ?_
        exact Frame.refl _ _

/-- What `recordPeriods` can change. -/
theorem recordPeriods_only (l : Lane) (g : Fin 16) (s : State) : Frame [.claim] s (recordPeriods l g s) := by
  unfold recordPeriods
  dsimp only
  refine Frame.comp ?_ (Frame.foldS _ _ _ fun _ _ => ?_)
  · exact Frame.refl _ _
  · refine Frame.comp ?_ (Frame.foldS _ _ _ fun _ _ => ?_)
    · exact Frame.refl _ _
    · refine Frame.under (modClaim_only _ _) (by simp) ?_
      exact Frame.refl _ _

/-- What `takePending` can change. -/
theorem takePending_only (l : Lane) (g : Fin 16) (s : State) : Frame [.events, .board, lanePart l] s (takePending l g s) := by
  unfold takePending
  dsimp only
  split
  · refine Frame.under (modGen_only _ _ _ _) (by simp) ?_
    exact Frame.refl _ _
  · refine Frame.under (takeDuty_only _ _ _ _ _) (by simp) ?_
    refine Frame.under (modGen_only _ _ _ _) (by simp) ?_
    refine Frame.under (modGen_only _ _ _ _) (by simp) ?_
    exact Frame.refl _ _

/-- What `execCarrierBoundary` can change. -/
theorem execCarrierBoundary_only (l : Lane) (g : Fin 16) (s : State) : FrameOut [.time, .events, .board, .gate, .claim, lanePart l] s (execCarrierBoundary l g s) := by
  unfold execCarrierBoundary
  dsimp only
  split
  · refine FrameOut.next ?_
    exact Frame.refl _ _
  · split
    · refine FrameOut.next ?_
      refine Frame.under (settleGates_only _) (by simp) ?_
      refine Frame.under (modGen_only _ _ _ _) (by simp) ?_
      refine Frame.under (modGen_only _ _ _ _) (by simp) ?_
      refine Frame.under (takePending_only _ _ _) (by simp) ?_
      refine Frame.under (recordPeriods_only _ _ _) (by simp) ?_
      refine Frame.under (elapseTo_only _ _) (by simp) ?_
      exact Frame.refl _ _
    · refine FrameOut.next ?_
      refine Frame.comp ?_ (Frame.foldS _ _ _ fun _ _ => ?_)
      · refine Frame.under (settleGates_only _) (by simp) ?_
        refine Frame.under (computePeriod_only _ _ _) (by simp) ?_
        refine Frame.under (modGen_only _ _ _ _) (by simp) ?_
        refine Frame.under (modGen_only _ _ _ _) (by simp) ?_
        refine Frame.under (takePending_only _ _ _) (by simp) ?_
        refine Frame.under (recordPeriods_only _ _ _) (by simp) ?_
        refine Frame.under (elapseTo_only _ _) (by simp) ?_
        exact Frame.refl _ _
      · refine Frame.under (followFall_only _ _) (by simp) ?_
        exact Frame.refl _ _

/-- What `execMidPeriodUpdate` can change. -/
theorem execMidPeriodUpdate_only (l : Lane) (g : Fin 16) (s : State) : FrameOut [.time, .events, .board, .gate, lanePart l] s (execMidPeriodUpdate l g s) := by
  unfold execMidPeriodUpdate
  dsimp only
  split
  · refine FrameOut.next ?_
    exact Frame.refl _ _
  · split
    · refine FrameOut.next ?_
      refine Frame.under (updateNow_only _ _ _) (by simp) ?_
      refine Frame.under (elapseTo_only _ _) (by simp) ?_
      exact Frame.refl _ _
    · refine FrameOut.next ?_
      refine Frame.under (elapseTo_only _ _) (by simp) ?_
      exact Frame.refl _ _

/-- What `refit` can change. -/
theorem refit_only (l : Lane) (g : Fin 16) (old : Nat) (s : State) : Frame [.gate, lanePart l] s (refit l g old s) := by
  unfold refit
  dsimp only
  split
  · exact Frame.refl _ _
  · split
    · refine Frame.comp ?_ (Frame.foldS _ _ _ fun _ _ => ?_)
      · refine Frame.under (modGen_only _ _ _ _) (by simp) ?_
        exact Frame.refl _ _
      · refine Frame.under (followFall_only _ _) (by simp) ?_
        exact Frame.refl _ _
    · refine Frame.under (replace_only _ _ _ _) (by simp) ?_
      exact Frame.refl _ _

/-- What `alignCarriers` can change. -/
theorem alignCarriers_only (l : Lane) (ctx : Fin 8) (step : Nat) (s : State) : Frame [.events, .board, .gate, lanePart l] s (alignCarriers l ctx step s) := by
  unfold alignCarriers
  dsimp only
  refine Frame.comp ?_ (Frame.foldS _ _ _ fun _ _ => ?_)
  · exact Frame.refl _ _
  · split
    · refine Frame.under (raiseIf_only _ _ _ _) (by simp) ?_
      refine Frame.under (refit_only _ _ _ _) (by simp) ?_
      refine Frame.under (modGen_only _ _ _ _) (by simp) ?_
      exact Frame.refl _ _
    · exact Frame.refl _ _

/-- What `stagePer` can change. -/
theorem stagePer_only (l : Lane) (g : Fin 16) (v : Word) (s : State) : Frame [lanePart l] s (stagePer l g v s) := by
  unfold stagePer
  dsimp only
  split
  · refine Frame.under (modGen_only _ _ _ _) (by simp) ?_
    exact Frame.refl _ _
  · exact Frame.refl _ _

/-- What `stageDuty` can change. -/
theorem stageDuty_only (l : Lane) (g : Fin 16) (v : Word) (s : State) : Frame [lanePart l] s (stageDuty l g v s) := by
  unfold stageDuty
  refine Frame.under (modGen_only _ _ _ _) (by simp) ?_
  exact Frame.refl _ _

/-- What `stageDutyf` can change. -/
theorem stageDutyf_only (l : Lane) (g : Fin 16) (v : Word) (s : State) : Frame [.events, .board, lanePart l] s (stageDutyf l g v s) := by
  unfold stageDutyf
  split
  · refine Frame.under (modGen_only _ _ _ _) (by simp) ?_
    exact Frame.refl _ _
  · refine Frame.under (raise_only _ _ _) (by simp) ?_
    exact Frame.refl _ _

/-- What `execPwmPerWrite` can change. -/
theorem execPwmPerWrite_only (l : Lane) (g : Fin 16) (v : Word) (s : State) : FrameOut [.claim, lanePart l] s (execPwmPerWrite l g v s) := by
  unfold execPwmPerWrite
  refine FrameOut.next ?_
  refine Frame.under (mirror_only _ _ _) (by simp) ?_
  refine Frame.under (stagePer_only _ _ _ _) (by simp) ?_
  exact Frame.refl _ _

/-- What `execPwmDutyWrite` can change. -/
theorem execPwmDutyWrite_only (l : Lane) (g : Fin 16) (v : Word) (s : State) : FrameOut [.claim, lanePart l] s (execPwmDutyWrite l g v s) := by
  unfold execPwmDutyWrite
  refine FrameOut.next ?_
  refine Frame.under (mirror_only _ _ _) (by simp) ?_
  refine Frame.under (stageDuty_only _ _ _ _) (by simp) ?_
  exact Frame.refl _ _

/-- What `execPwmDutyfWrite` can change. -/
theorem execPwmDutyfWrite_only (l : Lane) (g : Fin 16) (v : Word) (s : State) : FrameOut [.events, .board, .claim, lanePart l] s (execPwmDutyfWrite l g v s) := by
  unfold execPwmDutyfWrite
  refine FrameOut.next ?_
  split
  · refine Frame.under (mirror_only _ _ _) (by simp) ?_
    refine Frame.under (stageDutyf_only _ _ _ _) (by simp) ?_
    exact Frame.refl _ _
  · refine Frame.under (stageDutyf_only _ _ _ _) (by simp) ?_
    exact Frame.refl _ _

/-- What `tokens` can change. -/
theorem tokens_only (l : Lane) (mask : Half) (s : State) : Frame [.events, .board, lanePart l] s (tokens l mask s) := by
  unfold tokens
  refine Frame.comp ?_ (Frame.foldS _ _ _ fun _ _ => ?_)
  · exact Frame.refl _ _
  · split
    · refine Frame.under (token_only _ _ _) (by simp) ?_
      exact Frame.refl _ _
    · exact Frame.refl _ _

/-- What `execPwmCommit` can change. -/
theorem execPwmCommit_only (l : Lane) (mask : Half) (s : State) : FrameOut [.events, .board, .claim, lanePart l] s (execPwmCommit l mask s) := by
  unfold execPwmCommit
  refine FrameOut.next ?_
  refine Frame.under (mirror_only _ _ _) (by simp) ?_
  refine Frame.under (tokens_only _ _ _) (by simp) ?_
  exact Frame.refl _ _

/-- What `clearGroups` can change. -/
theorem clearGroups_only (mask : BitVec 4) (s : State) : Frame [.gate] s (clearGroups mask s) := by
  unfold clearGroups
  refine Frame.comp ?_ (Frame.foldS _ _ _ fun _ _ => ?_)
  · exact Frame.refl _ _
  · dsimp only
    split
    · refine Frame.under (settleGates_only _) (by simp) ?_
      refine Frame.under (modGate_only _ _) (by simp) ?_
      exact Frame.refl _ _
    · exact Frame.refl _ _

/-- What `execFgClr` can change. -/
theorem execFgClr_only (_l : Lane) (mask : BitVec 4) (s : State) : FrameOut [.gate] s (execFgClr _l mask s) := by
  unfold execFgClr
  refine FrameOut.next ?_
  refine Frame.under (clearGroups_only _ _) (by simp) ?_
  exact Frame.refl _ _

/-- What `execFaultSourceChange` can change. -/
theorem execFaultSourceChange_only (src : Fin 104) (active : Bool) (s : State) : FrameOut [.events, .board, .mode, .laneA, .laneB, .gate, .claim] s (execFaultSourceChange src active s) := by
  unfold execFaultSourceChange
  refine FrameOut.next ?_
  refine Frame.comp ?_ (Frame.when ?_)
  · exact Frame.refl _ _
  · refine Frame.under (setSource_only _ _ _) (by simp) ?_
    exact Frame.refl _ _

/-- What `fltinStamp` can change. -/
theorem fltinStamp_only (holdNs : Nat) (s : State) : Frame [.free] s (fltinStamp holdNs s).2 := by
  unfold fltinStamp
  split
  dsimp only
  refine Frame.under (Frame.snd (by assumption) (takeFree_only _)) (by simp) ?_
  exact Frame.refl _ _

/-- What `execFltinChange` can change. -/
theorem execFltinChange_only (i : Fin 4) (mv : Int) (holdNs : Nat) (s : State) : FrameOut [.free, .events, .board, .mode, .laneA, .laneB, .gate, .claim] s (execFltinChange i mv holdNs s) := by
  unfold execFltinChange
  dsimp only
  split
  · refine FrameOut.next ?_
    exact Frame.refl _ _
  · split
    · refine FrameOut.next ?_
      refine Frame.under (setSourceAt_only _ _ _ _) (by simp) ?_
      refine Frame.under (modGate_only _ _) (by simp) ?_
      refine Frame.under (fltinStamp_only _ _) (by simp) ?_
      exact Frame.refl _ _
    · split
      · refine FrameOut.next ?_
        refine Frame.under (setSource_only _ _ _) (by simp) ?_
        refine Frame.under (modGate_only _ _) (by simp) ?_
        exact Frame.refl _ _
      · refine FrameOut.next ?_
        exact Frame.refl _ _

/-- What `setChState` can change. -/
theorem setChState_only (c : Fin 32) (st : Fin 7) (s : State) : Frame [.events, .board, .mode, .laneA, .laneB, .gate, .claim] s (setChState c st s) := by
  unfold setChState
  refine Frame.under (setSource_only _ _ _) (by simp) ?_
  refine Frame.under (modCh_only _ _ _) (by simp) ?_
  exact Frame.refl _ _

/-- What `passEdges` can change. -/
theorem passEdges_only (c : Fin 32) (s : State) : Frame [.gate] s (passEdges c s) := by
  unfold passEdges
  refine Frame.under (modCh_only _ _ _) (by simp) ?_
  exact Frame.refl _ _

/-- What `latchCh` can change. -/
theorem latchCh_only (c : Fin 32) (s : State) : Frame [.events, .board, .mode, .laneA, .laneB, .gate, .claim] s (latchCh c s) := by
  unfold latchCh
  refine Frame.under (protectionTrip_only _) (by simp) ?_
  refine Frame.under (raise_only _ _ _) (by simp) ?_
  refine Frame.under (setChState_only _ _ _) (by simp) ?_
  exact Frame.refl _ _

/-- What `joinEvent` can change. -/
theorem joinEvent_only (c : Fin 32) (s : State) : Frame [.gate] s (joinEvent c s) := by
  unfold joinEvent
  split
  · dsimp only
    split
    · split
      · refine Frame.under (modGate_only _ _) (by simp) ?_
        exact Frame.refl _ _
      · refine Frame.under (modCh_only _ _ _) (by simp) ?_
        refine Frame.under (modGate_only _ _) (by simp) ?_
        exact Frame.refl _ _
    · split
      · refine Frame.under (modGate_only _ _) (by simp) ?_
        exact Frame.refl _ _
      · refine Frame.under (modCh_only _ _ _) (by simp) ?_
        refine Frame.under (modGate_only _ _) (by simp) ?_
        exact Frame.refl _ _
  · refine Frame.under (modCh_only _ _ _) (by simp) ?_
    refine Frame.under (modGate_only _ _) (by simp) ?_
    exact Frame.refl _ _

/-- What `softOff` can change. -/
theorem softOff_only (c : Fin 32) (cause : Fin 7) (s : State) : Frame [.free, .events, .board, .mode, .laneA, .laneB, .gate, .claim] s (softOff c cause s) := by
  unfold softOff
  split
  dsimp only
  refine Frame.under (setChState_only _ _ _) (by simp) ?_
  refine Frame.under (modCh_only _ _ _) (by simp) ?_
  refine Frame.under (cutGate_only _ _) (by simp) ?_
  refine Frame.under (Frame.snd (by assumption) (takeFree_only _)) (by simp) ?_
  exact Frame.refl _ _

/-- What `tripCh` can change. -/
theorem tripCh_only (c : Fin 32) (cause : Fin 7) (s : State) : Frame [.free, .events, .board, .mode, .laneA, .laneB, .gate, .claim] s (tripCh c cause s) := by
  unfold tripCh
  dsimp only
  refine Frame.under (raise_only _ _ _) (by simp) ?_
  refine Frame.under (joinEvent_only _ _) (by simp) ?_
  refine Frame.under (softOff_only _ _ _) (by simp) ?_
  refine Frame.under (modCh_only _ _ _) (by simp) ?_
  exact Frame.refl _ _

/-- What `openGate` can change. -/
theorem openGate_only (c : Fin 32) (s : State) : Frame [.free, .events, .board, .mode, .laneA, .laneB, .gate, .claim] s (openGate c s) := by
  unfold openGate
  dsimp only
  split
  · refine Frame.under (modCh_only _ _ _) (by simp) ?_
    refine Frame.under (raise_only _ _ _) (by simp) ?_
    exact Frame.refl _ _
  · refine Frame.under (softOff_only _ _ _) (by simp) ?_
    refine Frame.under (raise_only _ _ _) (by simp) ?_
    exact Frame.refl _ _

/-- What `sensed` can change. -/
theorem sensed_only (c : Fin 32) (v : List (Int × Nat)) (s : State) : Frame [.time, .gate] s (sensed c v s) := by
  unfold sensed
  dsimp only
  refine Frame.under (modCh_only _ _ _) (by simp) ?_
  refine Frame.under (elapseTo_only _ _) (by simp) ?_
  exact Frame.refl _ _

/-- What `railCrossing` can change. -/
theorem railCrossing_only (ch : Fin 32) (posMv negMv : Int) (s : State) : Frame [.events, .board, .mode, .laneA, .laneB, .gate, .claim] s (railCrossing ch posMv negMv s) := by
  unfold railCrossing
  dsimp only
  split
  · exact Frame.refl _ _
  · split
    · refine Frame.under (setChState_only _ _ _) (by simp) ?_
      refine Frame.under (modCh_only _ _ _) (by simp) ?_
      refine Frame.under (cutGate_only _ _) (by simp) ?_
      refine Frame.under (raiseIf_only _ _ _ _) (by simp) ?_
      refine Frame.under (raiseIf_only _ _ _ _) (by simp) ?_
      refine Frame.under (modCh_only _ _ _) (by simp) ?_
      exact Frame.refl _ _
    · split
      · refine Frame.under (setChState_only _ _ _) (by simp) ?_
        refine Frame.under (raiseIf_only _ _ _ _) (by simp) ?_
        refine Frame.under (raiseIf_only _ _ _ _) (by simp) ?_
        refine Frame.under (modCh_only _ _ _) (by simp) ?_
        exact Frame.refl _ _
      · refine Frame.under (raiseIf_only _ _ _ _) (by simp) ?_
        refine Frame.under (raiseIf_only _ _ _ _) (by simp) ?_
        refine Frame.under (modCh_only _ _ _) (by simp) ?_
        exact Frame.refl _ _

/-- What `execGateTurnOn` can change. -/
theorem execGateTurnOn_only (ch : Fin 32) (chargeNc : Nat) (posMv : Int) (s : State) : FrameOut [.time, .free, .events, .board, .mode, .laneA, .laneB, .gate, .claim] s (execGateTurnOn ch chargeNc posMv s) := by
  unfold execGateTurnOn
  split
  · refine FrameOut.next ?_
    exact Frame.refl _ _
  · dsimp only
    refine FrameOut.next ?_
    refine Frame.under (railCrossing_only _ _ _ _) (by simp) ?_
    refine Frame.comp ?_ (Frame.when ?_)
    · refine Frame.under (modCh_only _ _ _) (by simp) ?_
      refine Frame.comp ?_ (Frame.when ?_)
      · refine Frame.under (elapseTo_only _ _) (by simp) ?_
        exact Frame.refl _ _
      · refine Frame.under (setChState_only _ _ _) (by simp) ?_
        exact Frame.refl _ _
    · refine Frame.under (openGate_only _ _) (by simp) ?_
      exact Frame.refl _ _

/-- What `execBlankEnd` can change. -/
theorem execBlankEnd_only (ch : Fin 32) (sense : List (Int × Nat)) (s : State) : FrameOut [.time, .free, .events, .board, .mode, .laneA, .laneB, .gate, .claim] s (execBlankEnd ch sense s) := by
  unfold execBlankEnd
  split
  · refine FrameOut.next ?_
    exact Frame.refl _ _
  · dsimp only
    split
    · refine FrameOut.next ?_
      refine Frame.under (tripCh_only _ _ _) (by simp) ?_
      refine Frame.under (modCh_only _ _ _) (by simp) ?_
      refine Frame.under (elapseTo_only _ _) (by simp) ?_
      refine Frame.under (sensed_only _ _ _) (by simp) ?_
      exact Frame.refl _ _
    · refine FrameOut.next ?_
      refine Frame.under (modCh_only _ _ _) (by simp) ?_
      refine Frame.under (elapseTo_only _ _) (by simp) ?_
      refine Frame.under (sensed_only _ _ _) (by simp) ?_
      exact Frame.refl _ _

/-- What `execScTrip` can change. -/
theorem execScTrip_only (ch : Fin 32) (path : TripPath) (sense : List (Int × Nat)) (mv : Int) (s : State) : FrameOut [.time, .free, .events, .board, .mode, .laneA, .laneB, .gate, .claim] s (execScTrip ch path sense mv s) := by
  unfold execScTrip
  split
  · refine FrameOut.next ?_
    exact Frame.refl _ _
  · dsimp only
    split
    · split
      · refine FrameOut.next ?_
        refine Frame.under (tripCh_only _ _ _) (by simp) ?_
        refine Frame.under (sensed_only _ _ _) (by simp) ?_
        exact Frame.refl _ _
      · refine FrameOut.next ?_
        refine Frame.under (sensed_only _ _ _) (by simp) ?_
        exact Frame.refl _ _
    · split
      · refine FrameOut.next ?_
        refine Frame.under (tripCh_only _ _ _) (by simp) ?_
        refine Frame.under (sensed_only _ _ _) (by simp) ?_
        exact Frame.refl _ _
      · refine FrameOut.next ?_
        refine Frame.under (sensed_only _ _ _) (by simp) ?_
        exact Frame.refl _ _
    · split
      · refine FrameOut.next ?_
        refine Frame.under (tripCh_only _ _ _) (by simp) ?_
        refine Frame.under (sensed_only _ _ _) (by simp) ?_
        exact Frame.refl _ _
      · refine FrameOut.next ?_
        refine Frame.under (sensed_only _ _ _) (by simp) ?_
        exact Frame.refl _ _

/-- What `startWait` can change. -/
theorem startWait_only (c : Fin 32) (s : State) : Frame [.gate] s (startWait c s) := by
  unfold startWait
  refine Frame.under (modGate_only _ _) (by simp) ?_
  exact Frame.refl _ _

/-- What `execSoftOffEnd` can change. -/
theorem execSoftOffEnd_only (ch : Fin 32) (s : State) : FrameOut [.time, .events, .board, .mode, .laneA, .laneB, .gate, .claim] s (execSoftOffEnd ch s) := by
  unfold execSoftOffEnd
  dsimp only
  split
  · refine FrameOut.next ?_
    exact Frame.refl _ _
  · split
    · refine FrameOut.next ?_
      refine Frame.under (startWait_only _ _) (by simp) ?_
      refine Frame.under (latchCh_only _ _) (by simp) ?_
      refine Frame.under (elapseTo_only _ _) (by simp) ?_
      exact Frame.refl _ _
    · refine FrameOut.next ?_
      refine Frame.under (startWait_only _ _) (by simp) ?_
      refine Frame.under (setChState_only _ _ _) (by simp) ?_
      refine Frame.under (elapseTo_only _ _) (by simp) ?_
      exact Frame.refl _ _

/-- What `execFaultEventClose` can change. -/
theorem execFaultEventClose_only (s : State) : FrameOut [.time, .gate] s (execFaultEventClose s) := by
  unfold execFaultEventClose
  split
  · refine FrameOut.next ?_
    exact Frame.refl _ _
  · refine FrameOut.next ?_
    refine Frame.under (modGate_only _ _) (by simp) ?_
    refine Frame.under (elapseTo_only _ _) (by simp) ?_
    exact Frame.refl _ _

/-- What `execRetryWaitEnd` can change. -/
theorem execRetryWaitEnd_only (s : State) : FrameOut [.time, .events, .board, .mode, .laneA, .laneB, .gate, .claim] s (execRetryWaitEnd s) := by
  unfold execRetryWaitEnd
  split
  · refine FrameOut.next ?_
    exact Frame.refl _ _
  · dsimp only
    refine FrameOut.next ?_
    refine Frame.under (modGate_only _ _) (by simp) ?_
    refine Frame.comp ?_ (Frame.foldS _ _ _ fun _ _ => ?_)
    · refine Frame.under (elapseTo_only _ _) (by simp) ?_
      exact Frame.refl _ _
    · split
      · exact Frame.refl _ _
      · split
        · refine Frame.under (latchCh_only _ _) (by simp) ?_
          exact Frame.refl _ _
        · refine Frame.under (raise_only _ _ _) (by simp) ?_
          refine Frame.under (passEdges_only _ _) (by simp) ?_
          refine Frame.under (setChState_only _ _ _) (by simp) ?_
          exact Frame.refl _ _

/-- What `execRailCrossing` can change. -/
theorem execRailCrossing_only (ch : Fin 32) (posMv negMv : Int) (s : State) : FrameOut [.events, .board, .mode, .laneA, .laneB, .gate, .claim] s (execRailCrossing ch posMv negMv s) := by
  unfold execRailCrossing
  refine FrameOut.next ?_
  refine Frame.under (railCrossing_only _ _ _ _) (by simp) ?_
  exact Frame.refl _ _

/-- What `stageFail` can change. -/
theorem stageFail_only (c : Fin 32) (s : State) : Frame [.events, .board, .mode, .laneA, .laneB, .gate, .claim] s (stageFail c s) := by
  unfold stageFail
  refine Frame.under (latchCh_only _ _) (by simp) ?_
  refine Frame.under (modCh_only _ _ _) (by simp) ?_
  refine Frame.under (cutGate_only _ _) (by simp) ?_
  exact Frame.refl _ _

/-- What `switchStage` can change. -/
theorem switchStage_only (c : Fin 32) (trig indicator : Nat) (s : State) : Frame [.events, .board, .mode, .laneA, .laneB, .gate, .claim, .wear] s (switchStage c trig indicator s) := by
  unfold switchStage
  split
  · refine Frame.under (stageFail_only _ _) (by simp) ?_
    refine Frame.under (raise_only _ _ _) (by simp) ?_
    refine Frame.under (noSpare_only _ _ _ _ _ _) (by simp) ?_
    exact Frame.refl _ _
  · refine Frame.under (hingeSwap_only _ _ _ _ _ _ _) (by simp) ?_
    refine Frame.under (raise_only _ _ _) (by simp) ?_
    refine Frame.under (modCh_only _ _ _) (by simp) ?_
    exact Frame.refl _ _

/-- What `execStageSwap` can change. -/
theorem execStageSwap_only (ch : Fin 32) (lastsNs : Nat) (s : State) : FrameOut [.time, .events, .board, .mode, .laneA, .laneB, .gate, .claim, .wear] s (execStageSwap ch lastsNs s) := by
  unfold execStageSwap
  dsimp only
  split
  · refine FrameOut.next ?_
    exact Frame.refl _ _
  · split
    · refine FrameOut.next ?_
      exact Frame.refl _ _
    · refine FrameOut.next ?_
      split
      · refine Frame.under (switchStage_only _ _ _ _) (by simp) ?_
        refine Frame.under (elapseTo_only _ _) (by simp) ?_
        exact Frame.refl _ _
      · refine Frame.under (elapseTo_only _ _) (by simp) ?_
        refine Frame.under (switchStage_only _ _ _ _) (by simp) ?_
        refine Frame.under (elapseTo_only _ _) (by simp) ?_
        exact Frame.refl _ _

/-- What `execGchClear` can change. -/
theorem execGchClear_only (stageNs : Nat × Nat) (snOhm : Nat) (s : State) : FrameOut [.events, .board, .mode, .laneA, .laneB, .gate, .claim, .wear] s (execGchClear stageNs snOhm s) := by
  unfold execGchClear
  dsimp only
  split
  · refine FrameOut.next ?_
    exact Frame.refl _ _
  · split
    · refine FrameOut.next ?_
      refine Frame.under (raise_only _ _ _) (by simp) ?_
      exact Frame.refl _ _
    · refine FrameOut.next ?_
      refine Frame.under (passEdges_only _ _) (by simp) ?_
      refine Frame.under (setChState_only _ _ _) (by simp) ?_
      refine Frame.under (modCh_only _ _ _) (by simp) ?_
      split
      · refine Frame.under (switchStage_only _ _ _ _) (by simp) ?_
        refine Frame.under (raiseIf_only _ _ _ _) (by simp) ?_
        exact Frame.refl _ _
      · split
        · refine Frame.under (modCh_only _ _ _) (by simp) ?_
          refine Frame.under (raiseIf_only _ _ _ _) (by simp) ?_
          exact Frame.refl _ _
        · refine Frame.under (raiseIf_only _ _ _ _) (by simp) ?_
          exact Frame.refl _ _

/-- What `execGchSelftest` can change. -/
theorem execGchSelftest_only (s : State) : FrameOut [.gate] s (execGchSelftest s) := by
  unfold execGchSelftest
  dsimp only
  split
  · refine FrameOut.next ?_
    refine Frame.under (modCh_only _ _ _) (by simp) ?_
    exact Frame.refl _ _
  · refine FrameOut.next ?_
    exact Frame.refl _ _

/-- What `execSelftestDone` can change. -/
theorem execSelftestDone_only (ch : Fin 32) (primaryNs spareNs snOhm : Nat) (s : State) : FrameOut [.events, .board, .mode, .laneA, .laneB, .gate, .claim] s (execSelftestDone ch primaryNs spareNs snOhm s) := by
  unfold execSelftestDone
  dsimp only
  split
  · refine FrameOut.next ?_
    exact Frame.refl _ _
  · split
    · refine FrameOut.next ?_
      refine Frame.under (raiseIf_only _ _ _ _) (by simp) ?_
      refine Frame.under (modCh_only _ _ _) (by simp) ?_
      exact Frame.refl _ _
    · split
      · refine FrameOut.next ?_
        refine Frame.under (stageFail_only _ _) (by simp) ?_
        refine Frame.under (raiseIf_only _ _ _ _) (by simp) ?_
        refine Frame.under (modCh_only _ _ _) (by simp) ?_
        exact Frame.refl _ _
      · split
        · refine FrameOut.next ?_
          refine Frame.under (modCh_only _ _ _) (by simp) ?_
          refine Frame.under (raiseIf_only _ _ _ _) (by simp) ?_
          refine Frame.under (modCh_only _ _ _) (by simp) ?_
          exact Frame.refl _ _
        · split
          · refine FrameOut.next ?_
            refine Frame.under (modCh_only _ _ _) (by simp) ?_
            refine Frame.under (raiseIf_only _ _ _ _) (by simp) ?_
            refine Frame.under (modCh_only _ _ _) (by simp) ?_
            exact Frame.refl _ _
          · refine FrameOut.next ?_
            refine Frame.under (raiseIf_only _ _ _ _) (by simp) ?_
            refine Frame.under (modCh_only _ _ _) (by simp) ?_
            exact Frame.refl _ _

/-- What `execChannelTelemetry` can change. -/
theorem execChannelTelemetry_only (pos neg : List Int) (s : State) : FrameOut [.time, .gate] s (execChannelTelemetry pos neg s) := by
  unfold execChannelTelemetry
  refine FrameOut.next ?_
  refine Frame.comp ?_ (Frame.foldS _ _ _ fun _ _ => ?_)
  · refine Frame.under (periodic_only _ _ _) (by simp) ?_
    exact Frame.refl _ _
  · refine Frame.under (modCh_only _ _ _) (by simp) ?_
    exact Frame.refl _ _

/-- What `execAuxDrop` can change. -/
theorem execAuxDrop_only (auxMv : Int) (vbusMv holdNs : Nat) (s : State) : FrameOut [.events, .board, .power, .mode] s (execAuxDrop auxMv vbusMv holdNs s) := by
  unfold execAuxDrop
  split
  · refine FrameOut.next ?_
    refine Frame.under (raise_only _ _ _) (by simp) ?_
    refine Frame.under (modMode_only _ _) (by simp) ?_
    refine Frame.under (modPower_only _ _) (by simp) ?_
    exact Frame.refl _ _
  · refine FrameOut.next ?_
    exact Frame.refl _ _

/-- What `execAuxDropClear` can change. -/
theorem execAuxDropClear_only (auxMv : Int) (vbusMv holdNs : Nat) (s : State) : FrameOut [.events, .board, .power, .mode] s (execAuxDropClear auxMv vbusMv holdNs s) := by
  unfold execAuxDropClear
  split
  · refine FrameOut.next ?_
    refine Frame.under (raise_only _ _ _) (by simp) ?_
    refine Frame.under (modMode_only _ _) (by simp) ?_
    refine Frame.under (modPower_only _ _) (by simp) ?_
    exact Frame.refl _ _
  · refine FrameOut.next ?_
    exact Frame.refl _ _

/-- What `execAuxHigh` can change. -/
theorem execAuxHigh_only (auxMv : Int) (s : State) : FrameOut [.events, .board, .power] s (execAuxHigh auxMv s) := by
  unfold execAuxHigh
  dsimp only
  split
  · refine FrameOut.next ?_
    exact Frame.refl _ _
  · split
    · refine FrameOut.next ?_
      refine Frame.under (raise_only _ _ _) (by simp) ?_
      refine Frame.under (modPower_only _ _) (by simp) ?_
      refine Frame.under (modPower_only _ _) (by simp) ?_
      exact Frame.refl _ _
    · split
      · refine FrameOut.next ?_
        refine Frame.under (modPower_only _ _) (by simp) ?_
        refine Frame.under (modPower_only _ _) (by simp) ?_
        exact Frame.refl _ _
      · refine FrameOut.next ?_
        refine Frame.under (modPower_only _ _) (by simp) ?_
        exact Frame.refl _ _

/-- What `refreshHupLow` can change. -/
theorem refreshHupLow_only (s : State) : Frame [.events, .board, .power] s (refreshHupLow s) := by
  unfold refreshHupLow
  dsimp only
  refine Frame.under (raiseIf_only _ _ _ _) (by simp) ?_
  refine Frame.under (modPower_only _ _) (by simp) ?_
  exact Frame.refl _ _

/-- What `execHupCapEstimate` can change. -/
theorem execHupCapEstimate_only (fromMv toMv chargeUc : Nat) (s : State) : FrameOut [.events, .board, .power] s (execHupCapEstimate fromMv toMv chargeUc s) := by
  unfold execHupCapEstimate
  split
  · dsimp only
    refine FrameOut.next ?_
    refine Frame.under (refreshHupLow_only _) (by simp) ?_
    refine Frame.under (modPower_only _ _) (by simp) ?_
    exact Frame.refl _ _
  · refine FrameOut.next ?_
    exact Frame.refl _ _

/-- What `measureDue` can change. -/
theorem measureDue_only (s : State) : Frame [.time] s (measureDue s) := by
  unfold measureDue
  split
  · refine Frame.under (periodic_only _ _ _) (by simp) ?_
    exact Frame.refl _ _
  · refine Frame.under (startTick_only _ _) (by simp) ?_
    refine Frame.under (elapseTo_only _ _) (by simp) ?_
    exact Frame.refl _ _

/-- What `execPowerMeasure` can change. -/
theorem execPowerMeasure_only (auxMv : Int) (vbusMv hupMv powerDw : Nat) (tempDc : Int) (laneA laneB : Bool) (s : State) : FrameOut [.time, .power] s (execPowerMeasure auxMv vbusMv hupMv powerDw tempDc laneA laneB s) := by
  unfold execPowerMeasure
  split
  · refine FrameOut.next ?_
    exact Frame.refl _ _
  · refine FrameOut.next ?_
    refine Frame.under (modPower_only _ _) (by simp) ?_
    refine Frame.under (measureDue_only _) (by simp) ?_
    exact Frame.refl _ _

/-- What `gateOff` can change. -/
theorem gateOff_only (hb : Fin 16) (s : State) : Frame [.events, .board, .mode, .laneA, .laneB, .gate, .claim] s (gateOff hb s) := by
  unfold gateOff
  refine Frame.comp ?_ (Frame.foldS _ _ _ fun _ _ => ?_)
  · exact Frame.refl _ _
  · dsimp only
    split
    · exact Frame.refl _ _
    · split
      · refine Frame.under (modCh_only _ _ _) (by simp) ?_
        refine Frame.under (cutGate_only _ _) (by simp) ?_
        exact Frame.refl _ _
      · refine Frame.under (setChState_only _ _ _) (by simp) ?_
        refine Frame.under (modCh_only _ _ _) (by simp) ?_
        refine Frame.under (cutGate_only _ _) (by simp) ?_
        exact Frame.refl _ _

/-- What `softStart` can change. -/
theorem softStart_only (pump : Bool) (hb : Fin 16) (s : State) : Frame [.power] s (softStart pump hb s) := by
  unfold softStart
  refine Frame.under (modPower_only _ _) (by simp) ?_
  exact Frame.refl _ _

/-- What `execGpFault` can change. -/
theorem execGpFault_only (pump : Bool) (hb : Fin 16) (s : State) : FrameOut [.board, .power] s (execGpFault pump hb s) := by
  unfold execGpFault
  dsimp only
  split
  · split
    · refine FrameOut.next ?_
      exact Frame.refl _ _
    · refine FrameOut.next ?_
      refine Frame.under (raisePennant_only _ _) (by simp) ?_
      refine Frame.under (modPower_only _ _) (by simp) ?_
      exact Frame.refl _ _
  · split
    · refine FrameOut.next ?_
      exact Frame.refl _ _
    · refine FrameOut.next ?_
      refine Frame.under (raisePennant_only _ _) (by simp) ?_
      refine Frame.under (modPower_only _ _) (by simp) ?_
      exact Frame.refl _ _

/-- What `startEnabled` can change. -/
theorem startEnabled_only (only : Word) (s : State) : Frame [.power] s (startEnabled only s) := by
  unfold startEnabled
  split
  · exact Frame.refl _ _
  · refine Frame.comp ?_ (Frame.foldS _ _ _ fun _ _ => ?_)
    · exact Frame.refl _ _
    · dsimp only
      refine Frame.comp ?_ (Frame.when ?_)
      · refine Frame.comp ?_ (Frame.when ?_)
        · exact Frame.refl _ _
        · refine Frame.under (softStart_only _ _ _) (by simp) ?_
          exact Frame.refl _ _
      · refine Frame.under (softStart_only _ _ _) (by simp) ?_
        exact Frame.refl _ _

/-- What `execGpFaultClear` can change. -/
theorem execGpFaultClear_only (v : Word) (s : State) : FrameOut [.power] s (execGpFaultClear v s) := by
  unfold execGpFaultClear
  dsimp only
  refine FrameOut.next ?_
  refine Frame.under (startEnabled_only _ _) (by simp) ?_
  refine Frame.under (modPower_only _ _) (by simp) ?_
  exact Frame.refl _ _

/-- What `powerUp` can change. -/
theorem powerUp_only (c : Fin 32) (s : State) : Frame [.events, .board, .mode, .laneA, .laneB, .gate, .claim] s (powerUp c s) := by
  unfold powerUp
  split
  · refine Frame.under (passEdges_only _ _) (by simp) ?_
    refine Frame.under (setChState_only _ _ _) (by simp) ?_
    exact Frame.refl _ _
  · exact Frame.refl _ _

/-- What `execGpSoftstartDone` can change. -/
theorem execGpSoftstartDone_only (pump : Bool) (hb : Fin 16) (s : State) : FrameOut [.time, .events, .board, .power, .mode, .laneA, .laneB, .gate, .claim] s (execGpSoftstartDone pump hb s) := by
  unfold execGpSoftstartDone
  dsimp only
  split
  · split
    · refine FrameOut.next ?_
      exact Frame.refl _ _
    · refine FrameOut.next ?_
      refine Frame.under (powerUp_only _ _) (by simp) ?_
      refine Frame.under (powerUp_only _ _) (by simp) ?_
      refine Frame.under (modPower_only _ _) (by simp) ?_
      refine Frame.under (elapseTo_only _ _) (by simp) ?_
      exact Frame.refl _ _
  · split
    · refine FrameOut.next ?_
      exact Frame.refl _ _
    · refine FrameOut.next ?_
      refine Frame.under (powerUp_only _ _) (by simp) ?_
      refine Frame.under (powerUp_only _ _) (by simp) ?_
      refine Frame.under (modPower_only _ _) (by simp) ?_
      refine Frame.under (elapseTo_only _ _) (by simp) ?_
      exact Frame.refl _ _

/-- What `execTempWarn` can change. -/
theorem execTempWarn_only (tempDc : Int) (s : State) : FrameOut [.events, .board, .power] s (execTempWarn tempDc s) := by
  unfold execTempWarn
  dsimp only
  split
  · refine FrameOut.next ?_
    refine Frame.under (raise_only _ _ _) (by simp) ?_
    refine Frame.under (modPower_only _ _) (by simp) ?_
    refine Frame.under (modPower_only _ _) (by simp) ?_
    exact Frame.refl _ _
  · split
    · refine FrameOut.next ?_
      refine Frame.under (modPower_only _ _) (by simp) ?_
      refine Frame.under (modPower_only _ _) (by simp) ?_
      exact Frame.refl _ _
    · refine FrameOut.next ?_
      refine Frame.under (modPower_only _ _) (by simp) ?_
      exact Frame.refl _ _

/-- What `execTempHigh` can change. -/
theorem execTempHigh_only (tempDc : Int) (s : State) : FrameOut [.events, .board, .power] s (execTempHigh tempDc s) := by
  unfold execTempHigh
  dsimp only
  split
  · refine FrameOut.next ?_
    refine Frame.under (raise_only _ _ _) (by simp) ?_
    refine Frame.under (modPower_only _ _) (by simp) ?_
    refine Frame.under (modPower_only _ _) (by simp) ?_
    exact Frame.refl _ _
  · split
    · refine FrameOut.next ?_
      refine Frame.under (modPower_only _ _) (by simp) ?_
      refine Frame.under (modPower_only _ _) (by simp) ?_
      exact Frame.refl _ _
    · refine FrameOut.next ?_
      refine Frame.under (modPower_only _ _) (by simp) ?_
      exact Frame.refl _ _

/-- What `execGpCut` can change. -/
theorem execGpCut_only (tempDc : Int) (s : State) : FrameOut [.events, .board, .power] s (execGpCut tempDc s) := by
  unfold execGpCut
  split
  · refine FrameOut.next ?_
    refine Frame.under (raise_only _ _ _) (by simp) ?_
    refine Frame.under (modPower_only _ _) (by simp) ?_
    exact Frame.refl _ _
  · refine FrameOut.next ?_
    exact Frame.refl _ _

/-- What `execGpCutRearm` can change. -/
theorem execGpCutRearm_only (s : State) : FrameOut [.events, .power] s (execGpCutRearm s) := by
  unfold execGpCutRearm
  split
  · refine FrameOut.next ?_
    refine Frame.under (clearEvents_only _ _ _) (by simp) ?_
    exact Frame.refl _ _
  · split
    · refine FrameOut.next ?_
      refine Frame.under (startEnabled_only _ _) (by simp) ?_
      refine Frame.under (modPower_only _ _) (by simp) ?_
      refine Frame.under (clearEvents_only _ _ _) (by simp) ?_
      exact Frame.refl _ _
    · refine FrameOut.next ?_
      exact Frame.refl _ _

/-- What `setGpCtl` can change. -/
theorem setGpCtl_only (en : Half) (s : State) : Frame [.events, .board, .power, .mode, .laneA, .laneB, .gate, .claim] s (setGpCtl en s) := by
  unfold setGpCtl
  dsimp only
  refine Frame.under (startEnabled_only _ _) (by simp) ?_
  refine Frame.comp ?_ (Frame.foldS _ _ _ fun _ _ => ?_)
  · refine Frame.under (modPower_only _ _) (by simp) ?_
    exact Frame.refl _ _
  · split
    · refine Frame.under (gateOff_only _ _) (by simp) ?_
      exact Frame.refl _ _
    · exact Frame.refl _ _

/-- What `execGpCtlWrite` can change. -/
theorem execGpCtlWrite_only (v : Word) (s : State) : FrameOut [.events, .board, .power, .mode, .laneA, .laneB, .gate, .claim] s (execGpCtlWrite v s) := by
  unfold execGpCtlWrite
  split
  · refine FrameOut.next ?_
    refine Frame.under (setGpCtl_only _ _) (by simp) ?_
    exact Frame.refl _ _
  · refine FrameOut.next ?_
    refine Frame.under (raisePennant_only _ _) (by simp) ?_
    exact Frame.refl _ _

/-- What `modIsl` can change. -/
theorem modIsl_only (i : Fin 22) (f : IslandPower → IslandPower) (s : State) : Frame [.power] s (modIsl i f s) := by
  unfold modIsl
  refine Frame.under (modPower_only _ _) (by simp) ?_
  exact Frame.refl _ _

/-- What `execIslandIdleStepDown` can change. -/
theorem execIslandIdleStepDown_only (isl : Fin 22) (s : State) : FrameOut [.time, .power] s (execIslandIdleStepDown isl s) := by
  unfold execIslandIdleStepDown
  dsimp only
  split
  · refine FrameOut.next ?_
    refine Frame.under (modIsl_only _ _ _) (by simp) ?_
    refine Frame.under (elapseTo_only _ _) (by simp) ?_
    exact Frame.refl _ _
  · refine FrameOut.next ?_
    exact Frame.refl _ _

/-- What `execIslandWake` can change. -/
theorem execIslandWake_only (isl : Fin 22) (s : State) : FrameOut [.power] s (execIslandWake isl s) := by
  unfold execIslandWake
  dsimp only
  split
  · refine FrameOut.next ?_
    exact Frame.refl _ _
  · refine FrameOut.next ?_
    refine Frame.under (modIsl_only _ _ _) (by simp) ?_
    exact Frame.refl _ _

/-- What `islandWork` can change. -/
theorem islandWork_only (isl : Fin 22) (s : State) : Frame [.time, .power] s (islandWork isl s) := by
  unfold islandWork
  dsimp only
  refine Frame.under (modIsl_only _ _ _) (by simp) ?_
  refine Frame.under (advance_only _ _) (by simp) ?_
  exact Frame.refl _ _

/-- What `execIslandWakeDone` can change. -/
theorem execIslandWakeDone_only (isl : Fin 22) (s : State) : FrameOut [.time, .power] s (execIslandWakeDone isl s) := by
  unfold execIslandWakeDone
  dsimp only
  split
  · refine FrameOut.next ?_
    exact Frame.refl _ _
  · refine FrameOut.next ?_
    refine Frame.under (modIsl_only _ _ _) (by simp) ?_
    refine Frame.under (advance_only _ _) (by simp) ?_
    exact Frame.refl _ _

/-- What `modPll` can change. -/
theorem modPll_only (p : Pll) (f : PllState → PllState) (s : State) : Frame [.clock] s (modPll p f s) := by
  unfold modPll
  refine Frame.under (modClock_only _ _) (by simp) ?_
  exact Frame.refl _ _

/-- What `modIslClk` can change. -/
theorem modIslClk_only (i : Fin 22) (f : IslandClock → IslandClock) (s : State) : Frame [.clock] s (modIslClk i f s) := by
  unfold modIslClk
  refine Frame.under (modClock_only _ _) (by simp) ?_
  exact Frame.refl _ _

/-- What `startTcxo` can change. -/
theorem startTcxo_only (i : Fin 22) (s : State) : Frame [.clock] s (startTcxo i s) := by
  unfold startTcxo
  dsimp only
  refine Frame.under (modIslClk_only _ _ _) (by simp) ?_
  refine Frame.under (modClock_only _ _) (by simp) ?_
  exact Frame.refl _ _

/-- What `takeRef` can change. -/
theorem takeRef_only (p : Pll) (s : State) : Frame [.clock] s (takeRef p s) := by
  unfold takeRef
  refine Frame.under (modPll_only _ _ _) (by simp) ?_
  exact Frame.refl _ _

/-- What `refreshRefs` can change. -/
theorem refreshRefs_only (s : State) : Frame [.clock] s (refreshRefs s) := by
  unfold refreshRefs
  refine Frame.comp ?_ (Frame.foldS _ _ _ fun _ _ => ?_)
  · refine Frame.comp ?_ (Frame.foldS _ _ _ fun _ _ => ?_)
    · exact Frame.refl _ _
    · dsimp only
      refine Frame.under (modIslClk_only _ _ _) (by simp) ?_
      exact Frame.refl _ _
  · refine Frame.under (takeRef_only _ _) (by simp) ?_
    exact Frame.refl _ _

/-- What `returnIslands` can change. -/
theorem returnIslands_only (s : State) : Frame [.clock] s (returnIslands s) := by
  unfold returnIslands
  refine Frame.comp ?_ (Frame.foldS _ _ _ fun _ _ => ?_)
  · exact Frame.refl _ _
  · dsimp only
    split
    · split
      · refine Frame.under (modIslClk_only _ _ _) (by simp) ?_
        exact Frame.refl _ _
      · exact Frame.refl _ _
    · exact Frame.refl _ _

/-- What `retarget` can change. -/
theorem retarget_only (tgt : Bool) (s : State) : Frame [.clock] s (retarget tgt s) := by
  unfold retarget
  split
  · exact Frame.refl _ _
  · dsimp only
    refine Frame.under (modClock_only _ _) (by simp) ?_
    exact Frame.refl _ _

/-- What `takeSpare` can change. -/
theorem takeSpare_only (p : Pll) (s : State) : Frame [.events, .board, .clock, .wear] s (takeSpare p s) := by
  unfold takeSpare
  dsimp only
  refine Frame.under (raise_only _ _ _) (by simp) ?_
  refine Frame.under (hingeSwap_only _ _ _ _ _ _ _) (by simp) ?_
  refine Frame.comp ?_ (Frame.foldS _ _ _ fun _ _ => ?_)
  · refine Frame.under (retarget_only _ _) (by simp) ?_
    refine Frame.under (modClock_only _ _) (by simp) ?_
    exact Frame.refl _ _
  · split
    · refine Frame.under (modIslClk_only _ _ _) (by simp) ?_
      exact Frame.refl _ _
    · exact Frame.refl _ _

/-- What `freeSpare` can change. -/
theorem freeSpare_only (res : Nat) (s : State) : Frame [.wear] s (freeSpare res s) := by
  unfold freeSpare
  refine Frame.under (modWear_only _ _) (by simp) ?_
  exact Frame.refl _ _

/-- What `callSpare` can change. -/
theorem callSpare_only (p : Pll) (s : State) : Frame [.events, .board, .clock, .wear] s (callSpare p s) := by
  unfold callSpare
  split
  · refine Frame.under (raise_only _ _ _) (by simp) ?_
    refine Frame.under (noSpare_only _ _ _ _ _ _) (by simp) ?_
    exact Frame.refl _ _
  · split
    · refine Frame.under (takeSpare_only _ _) (by simp) ?_
      exact Frame.refl _ _
    · split
      · exact Frame.refl _ _
      · split
        · dsimp only
          refine Frame.under (takeSpare_only _ _) (by simp) ?_
          refine Frame.under (freeSpare_only _ _) (by simp) ?_
          refine Frame.under (raise_only _ _ _) (by simp) ?_
          refine Frame.comp ?_ (Frame.foldS _ _ _ fun _ _ => ?_)
          · exact Frame.refl _ _
          · split
            · refine Frame.under (modIslClk_only _ _ _) (by simp) ?_
              exact Frame.refl _ _
            · exact Frame.refl _ _
        · refine Frame.under (raise_only _ _ _) (by simp) ?_
          refine Frame.under (noSpare_only _ _ _ _ _ _) (by simp) ?_
          exact Frame.refl _ _

/-- What `convFallback` can change. -/
theorem convFallback_only (p : Pll) (s : State) : Frame [.clock] s (convFallback p s) := by
  unfold convFallback
  refine Frame.comp ?_ (Frame.when ?_)
  · exact Frame.refl _ _
  · refine Frame.under (modClock_only _ _) (by simp) ?_
    exact Frame.refl _ _

/-- What `convReturn` can change. -/
theorem convReturn_only (p : Pll) (s : State) : Frame [.free, .clock] s (convReturn p s) := by
  unfold convReturn
  split
  · split
    refine Frame.under (modClock_only _ _) (by simp) ?_
    refine Frame.under (Frame.snd (by assumption) (takeFree_only _)) (by simp) ?_
    exact Frame.refl _ _
  · exact Frame.refl _ _

/-- What `losePll` can change. -/
theorem losePll_only (p : Pll) (s : State) : Frame [.events, .board, .clock, .claim, .wear] s (losePll p s) := by
  unfold losePll
  split
  · exact Frame.refl _ _
  · dsimp only
    split
    · refine Frame.under (callSpare_only _ _) (by simp) ?_
      refine Frame.comp ?_ (Frame.foldS _ _ _ fun _ _ => ?_)
      · refine Frame.comp ?_ (Frame.foldS _ _ _ fun _ _ => ?_)
        · refine Frame.under (convFallback_only _ _) (by simp) ?_
          refine Frame.under (raise_only _ _ _) (by simp) ?_
          refine Frame.under (modPll_only _ _ _) (by simp) ?_
          exact Frame.refl _ _
        · split
          · split
            · refine Frame.under (modIslClk_only _ _ _) (by simp) ?_
              exact Frame.refl _ _
            · exact Frame.refl _ _
          · split
            · refine Frame.under (modIslClk_only _ _ _) (by simp) ?_
              exact Frame.refl _ _
            · exact Frame.refl _ _
      · refine Frame.comp ?_ (Frame.when ?_)
        · exact Frame.refl _ _
        · refine Frame.under (faultLane_only _ _ _) (by simp) ?_
          exact Frame.refl _ _
    · refine Frame.comp ?_ (Frame.foldS _ _ _ fun _ _ => ?_)
      · refine Frame.comp ?_ (Frame.foldS _ _ _ fun _ _ => ?_)
        · refine Frame.under (convFallback_only _ _) (by simp) ?_
          refine Frame.under (raise_only _ _ _) (by simp) ?_
          refine Frame.under (modPll_only _ _ _) (by simp) ?_
          exact Frame.refl _ _
        · split
          · split
            · refine Frame.under (modIslClk_only _ _ _) (by simp) ?_
              exact Frame.refl _ _
            · exact Frame.refl _ _
          · split
            · refine Frame.under (modIslClk_only _ _ _) (by simp) ?_
              exact Frame.refl _ _
            · exact Frame.refl _ _
      · refine Frame.comp ?_ (Frame.when ?_)
        · exact Frame.refl _ _
        · refine Frame.under (faultLane_only _ _ _) (by simp) ?_
          exact Frame.refl _ _

/-- What `execPllLoss` can change. -/
theorem execPllLoss_only (p : Pll) (s : State) : FrameOut [.events, .board, .clock, .claim, .wear] s (execPllLoss p s) := by
  unfold execPllLoss
  refine FrameOut.next ?_
  refine Frame.under (losePll_only _ _) (by simp) ?_
  exact Frame.refl _ _

/-- What `execPllHoldoverEnd` can change. -/
theorem execPllHoldoverEnd_only (p : Pll) (s : State) : FrameOut [.time, .events, .board, .clock, .claim, .wear] s (execPllHoldoverEnd p s) := by
  unfold execPllHoldoverEnd
  dsimp only
  split
  · refine FrameOut.next ?_
    refine Frame.under (losePll_only _ _) (by simp) ?_
    refine Frame.under (elapseTo_only _ _) (by simp) ?_
    exact Frame.refl _ _
  · refine FrameOut.next ?_
    exact Frame.refl _ _

/-- What `execPllLock` can change. -/
theorem execPllLock_only (p : Pll) (s : State) : FrameOut [.time, .free, .clock, .wear] s (execPllLock p s) := by
  unfold execPllLock
  dsimp only
  split
  · refine FrameOut.next ?_
    exact Frame.refl _ _
  · refine FrameOut.next ?_
    refine Frame.under (returnIslands_only _) (by simp) ?_
    split
    · refine Frame.under (retarget_only _ _) (by simp) ?_
      refine Frame.under (freeSpare_only _ _) (by simp) ?_
      refine Frame.under (modClock_only _ _) (by simp) ?_
      refine Frame.under (convReturn_only _ _) (by simp) ?_
      refine Frame.under (modPll_only _ _ _) (by simp) ?_
      refine Frame.under (elapseTo_only _ _) (by simp) ?_
      exact Frame.refl _ _
    · refine Frame.under (convReturn_only _ _) (by simp) ?_
      refine Frame.under (modPll_only _ _ _) (by simp) ?_
      refine Frame.under (elapseTo_only _ _) (by simp) ?_
      exact Frame.refl _ _

/-- What `execTcxoFail` can change. -/
theorem execTcxoFail_only (t : Tcxo) (s : State) : FrameOut [.events, .board, .clock, .mode, .wear] s (execTcxoFail t s) := by
  unfold execTcxoFail
  dsimp only
  split
  · split
    · refine FrameOut.next ?_
      exact Frame.refl _ _
    · split
      · refine FrameOut.next ?_
        split
        · refine Frame.under (raise_only _ _ _) (by simp) ?_
          refine Frame.under (noSpare_only _ _ _ _ _ _) (by simp) ?_
          refine Frame.under (refreshRefs_only _) (by simp) ?_
          refine Frame.under (raise_only _ _ _) (by simp) ?_
          refine Frame.under (modClock_only _ _) (by simp) ?_
          exact Frame.refl _ _
        · refine Frame.under (trigger_only _ _) (by simp) ?_
          refine Frame.under (raise_only _ _ _) (by simp) ?_
          refine Frame.under (noSpare_only _ _ _ _ _ _) (by simp) ?_
          refine Frame.under (refreshRefs_only _) (by simp) ?_
          refine Frame.under (raise_only _ _ _) (by simp) ?_
          refine Frame.under (modClock_only _ _) (by simp) ?_
          exact Frame.refl _ _
      · refine FrameOut.next ?_
        refine Frame.under (hingeSwap_only _ _ _ _ _ _ _) (by simp) ?_
        refine Frame.under (refreshRefs_only _) (by simp) ?_
        refine Frame.under (raise_only _ _ _) (by simp) ?_
        refine Frame.under (modClock_only _ _) (by simp) ?_
        exact Frame.refl _ _
  · split
    · refine FrameOut.next ?_
      exact Frame.refl _ _
    · split
      · refine FrameOut.next ?_
        split
        · refine Frame.under (raise_only _ _ _) (by simp) ?_
          refine Frame.under (noSpare_only _ _ _ _ _ _) (by simp) ?_
          refine Frame.under (refreshRefs_only _) (by simp) ?_
          refine Frame.under (raise_only _ _ _) (by simp) ?_
          refine Frame.under (modClock_only _ _) (by simp) ?_
          exact Frame.refl _ _
        · refine Frame.under (trigger_only _ _) (by simp) ?_
          refine Frame.under (raise_only _ _ _) (by simp) ?_
          refine Frame.under (noSpare_only _ _ _ _ _ _) (by simp) ?_
          refine Frame.under (refreshRefs_only _) (by simp) ?_
          refine Frame.under (raise_only _ _ _) (by simp) ?_
          refine Frame.under (modClock_only _ _) (by simp) ?_
          exact Frame.refl _ _
      · refine FrameOut.next ?_
        refine Frame.under (refreshRefs_only _) (by simp) ?_
        refine Frame.under (raise_only _ _ _) (by simp) ?_
        refine Frame.under (modClock_only _ _) (by simp) ?_
        exact Frame.refl _ _

/-- What `execTcxoReturn` can change. -/
theorem execTcxoReturn_only (t : Tcxo) (s : State) : FrameOut [.time, .clock, .wear] s (execTcxoReturn t s) := by
  unfold execTcxoReturn
  dsimp only
  split
  · split
    · refine FrameOut.next ?_
      exact Frame.refl _ _
    · refine FrameOut.next ?_
      refine Frame.under (refreshRefs_only _) (by simp) ?_
      refine Frame.comp ?_ (Frame.when ?_)
      · refine Frame.under (modClock_only _ _) (by simp) ?_
        refine Frame.under (elapseTo_only _ _) (by simp) ?_
        exact Frame.refl _ _
      · refine Frame.under (freeSpare_only _ _) (by simp) ?_
        exact Frame.refl _ _
  · split
    · refine FrameOut.next ?_
      exact Frame.refl _ _
    · refine FrameOut.next ?_
      refine Frame.under (refreshRefs_only _) (by simp) ?_
      refine Frame.comp ?_ (Frame.when ?_)
      · refine Frame.under (modClock_only _ _) (by simp) ?_
        refine Frame.under (elapseTo_only _ _) (by simp) ?_
        exact Frame.refl _ _
      · refine Frame.under (freeSpare_only _ _) (by simp) ?_
        exact Frame.refl _ _

/-- What `execTcxoDrift` can change. -/
theorem execTcxoDrift_only (ppb : Nat) (spareFurther : Bool) (s : State) : FrameOut [.events, .board, .clock] s (execTcxoDrift ppb spareFurther s) := by
  unfold execTcxoDrift
  split
  · refine FrameOut.next ?_
    refine Frame.under (raise_only _ _ _) (by simp) ?_
    refine Frame.under (modClock_only _ _) (by simp) ?_
    exact Frame.refl _ _
  · refine FrameOut.next ?_
    exact Frame.refl _ _

/-- What `execRefLoss` can change. -/
theorem execRefLoss_only (s : State) : FrameOut [.events, .board, .clock] s (execRefLoss s) := by
  unfold execRefLoss
  split
  · refine FrameOut.next ?_
    refine Frame.under (refreshRefs_only _) (by simp) ?_
    refine Frame.under (raise_only _ _ _) (by simp) ?_
    refine Frame.under (modClock_only _ _) (by simp) ?_
    exact Frame.refl _ _
  · refine FrameOut.next ?_
    exact Frame.refl _ _

/-- What `execRef10Qualified` can change. -/
theorem execRef10Qualified_only (s : State) : FrameOut [.time, .clock] s (execRef10Qualified s) := by
  unfold execRef10Qualified
  split
  · refine FrameOut.next ?_
    refine Frame.under (refreshRefs_only _) (by simp) ?_
    refine Frame.under (modClock_only _ _) (by simp) ?_
    refine Frame.under (elapseTo_only _ _) (by simp) ?_
    exact Frame.refl _ _
  · refine FrameOut.next ?_
    exact Frame.refl _ _

/-- What `calibrateRings` can change. -/
theorem calibrateRings_only (pm : List Nat) (s : State) : Frame [.clock] s (calibrateRings pm s) := by
  unfold calibrateRings
  refine Frame.comp ?_ (Frame.foldS _ _ _ fun _ _ => ?_)
  · exact Frame.refl _ _
  · dsimp only
    split
    · split
      · split
        · refine Frame.under (modIslClk_only _ _ _) (by simp) ?_
          exact Frame.refl _ _
        · exact Frame.refl _ _
      · split
        · refine Frame.under (modIslClk_only _ _ _) (by simp) ?_
          exact Frame.refl _ _
        · exact Frame.refl _ _
    · exact Frame.refl _ _

/-- What `execRingCalibrate` can change. -/
theorem execRingCalibrate_only (pm : List Nat) (s : State) : FrameOut [.time, .clock] s (execRingCalibrate pm s) := by
  unfold execRingCalibrate
  refine FrameOut.next ?_
  refine Frame.under (calibrateRings_only _ _) (by simp) ?_
  refine Frame.under (periodic_only _ _ _) (by simp) ?_
  exact Frame.refl _ _

/-- What `execSpareIdleTgtWrite` can change. -/
theorem execSpareIdleTgtWrite_only (tgt : Bool) (s : State) : FrameOut [.clock] s (execSpareIdleTgtWrite tgt s) := by
  unfold execSpareIdleTgtWrite
  dsimp only
  refine FrameOut.next ?_
  split
  · refine Frame.under (retarget_only _ _) (by simp) ?_
    refine Frame.under (modClock_only _ _) (by simp) ?_
    exact Frame.refl _ _
  · refine Frame.under (modClock_only _ _) (by simp) ?_
    exact Frame.refl _ _

/-- What `execSpareRelease` can change. -/
theorem execSpareRelease_only (s : State) : FrameOut [.events, .board, .clock, .wear] s (execSpareRelease s) := by
  unfold execSpareRelease
  dsimp only
  split
  · split
    · refine FrameOut.next ?_
      refine Frame.under (raise_only _ _ _) (by simp) ?_
      exact Frame.refl _ _
    · refine FrameOut.next ?_
      refine Frame.under (retarget_only _ _) (by simp) ?_
      refine Frame.under (freeSpare_only _ _) (by simp) ?_
      refine Frame.under (modClock_only _ _) (by simp) ?_
      refine Frame.comp ?_ (Frame.foldS _ _ _ fun _ _ => ?_)
      · exact Frame.refl _ _
      · split
        · refine Frame.under (modIslClk_only _ _ _) (by simp) ?_
          exact Frame.refl _ _
        · exact Frame.refl _ _
  · split
    · refine FrameOut.next ?_
      refine Frame.under (raise_only _ _ _) (by simp) ?_
      exact Frame.refl _ _
    · refine FrameOut.next ?_
      refine Frame.under (retarget_only _ _) (by simp) ?_
      refine Frame.under (freeSpare_only _ _) (by simp) ?_
      refine Frame.under (modClock_only _ _) (by simp) ?_
      refine Frame.comp ?_ (Frame.foldS _ _ _ fun _ _ => ?_)
      · exact Frame.refl _ _
      · split
        · refine Frame.under (modIslClk_only _ _ _) (by simp) ?_
          exact Frame.refl _ _
        · exact Frame.refl _ _

/-- What `logViolation` can change. -/
theorem logViolation_only (m : Master) (t : Nat) (addr : Word) (write : Bool) (kind : Nat) (s : State) : Frame [.events, .board, .mesh] s (logViolation m t addr write kind s) := by
  unfold logViolation
  dsimp only
  refine Frame.under (raise_only _ _ _) (by simp) ?_
  refine Frame.under (modMesh_only _ _) (by simp) ?_
  exact Frame.refl _ _

/-- What `execAccViolClear` can change. -/
theorem execAccViolClear_only (s : State) : FrameOut [.events] s (execAccViolClear s) := by
  unfold execAccViolClear
  refine FrameOut.next ?_
  refine Frame.under (clearEvents_only _ _ _) (by simp) ?_
  exact Frame.refl _ _

/-- What `swapSlots` can change. -/
theorem swapSlots_only (m : Master) (req : BitVec 4) (s : State) : Frame [.events, .board, .mesh] s (swapSlots m req s) := by
  unfold swapSlots
  split
  · refine Frame.under (raise_only _ _ _) (by simp) ?_
    exact Frame.refl _ _
  · refine Frame.comp ?_ (Frame.foldS _ _ _ fun _ _ => ?_)
    · exact Frame.refl _ _
    · split
      · exact Frame.refl _ _
      · split
        · refine Frame.under (modMesh_only _ _) (by simp) ?_
          exact Frame.refl _ _
        · refine Frame.under (raise_only _ _ _) (by simp) ?_
          exact Frame.refl _ _

/-- What `execMeshSwap` can change. -/
theorem execMeshSwap_only (m : Master) (req : BitVec 4) (s : State) : FrameOut [.events, .board, .mesh] s (execMeshSwap m req s) := by
  unfold execMeshSwap
  unfold byMaster
  split
  · refine FrameOut.next ?_
    refine Frame.under (swapSlots_only _ _ _) (by simp) ?_
    exact Frame.refl _ _
  · exact FrameOut.fault _ _ _

/-- What `execFrameBoundary` can change. -/
theorem execFrameBoundary_only (seg : Fin 4) (s : State) : FrameOut [.time, .events, .board, .mesh] s (execFrameBoundary seg s) := by
  unfold execFrameBoundary
  dsimp only
  split
  · refine FrameOut.next ?_
    refine Frame.under (raise_only _ _ _) (by simp) ?_
    refine Frame.under (modMesh_only _ _) (by simp) ?_
    refine Frame.under (modMesh_only _ _) (by simp) ?_
    refine Frame.under (periodic_only _ _ _) (by simp) ?_
    exact Frame.refl _ _
  · refine FrameOut.next ?_
    refine Frame.under (modMesh_only _ _) (by simp) ?_
    refine Frame.under (periodic_only _ _ _) (by simp) ?_
    exact Frame.refl _ _

/-- What `countGrant` can change. -/
theorem countGrant_only (m : Master) (waited : Nat) (s : State) : Frame [.mesh] s (countGrant m waited s) := by
  unfold countGrant
  refine Frame.under (modMesh_only _ _) (by simp) ?_
  exact Frame.refl _ _

/-- What `arrive` can change. -/
theorem arrive_only (m : Master) (t waited : Nat) (s : State) : Frame [.time, .power, .mesh] s (arrive m t waited s) := by
  unfold arrive
  split
  · refine Frame.under (countGrant_only _ _ _) (by simp) ?_
    exact Frame.refl _ _
  · refine Frame.under (countGrant_only _ _ _) (by simp) ?_
    refine Frame.under (islandWork_only _ _) (by simp) ?_
    exact Frame.refl _ _

/-- What `execMeshCntclr` can change. -/
theorem execMeshCntclr_only (s : State) : FrameOut [.mesh] s (execMeshCntclr s) := by
  unfold execMeshCntclr
  refine FrameOut.next ?_
  refine Frame.under (modMesh_only _ _) (by simp) ?_
  exact Frame.refl _ _

/-- What `modLock` can change. -/
theorem modLock_only (n : Fin 64) (f : MeshLock → MeshLock) (s : State) : Frame [.mesh] s (modLock n f s) := by
  unfold modLock
  refine Frame.under (modMesh_only _ _) (by simp) ?_
  exact Frame.refl _ _

/-- What `readLock` can change. -/
theorem readLock_only (m : Master) (n : Fin 64) (s : State) : Frame [.events, .board, .mesh] s (readLock m n s).2 := by
  unfold readLock
  dsimp only
  split
  · dsimp only
    exact Frame.refl _ _
  · split
    · dsimp only
      refine Frame.under (raise_only _ _ _) (by simp) ?_
      exact Frame.refl _ _
    · split
      · dsimp only
        refine Frame.under (modLock_only _ _ _) (by simp) ?_
        exact Frame.refl _ _
      · dsimp only
        refine Frame.under (modLock_only _ _ _) (by simp) ?_
        exact Frame.refl _ _

/-- What `execLockAcquire` can change. -/
theorem execLockAcquire_only (m : Master) (n : Fin 64) (s : State) : FrameOut [.time, .events, .board, .power, .mesh, .outbox] s (execLockAcquire m n s) := by
  unfold execLockAcquire
  unfold byMaster
  split
  · refine FrameOut.next ?_
    dsimp only
    unfold answer
    split
    · refine Frame.under (readLock_only _ _ _) (by simp) ?_
      refine Frame.under (arrive_only _ _ _ _) (by simp) ?_
      exact Frame.refl _ _
    · refine Frame.under (send_only _ _) (by simp) ?_
      refine Frame.under (readLock_only _ _ _) (by simp) ?_
      refine Frame.under (arrive_only _ _ _ _) (by simp) ?_
      exact Frame.refl _ _
  · exact FrameOut.fault _ _ _

/-- What `releaseLock` can change. -/
theorem releaseLock_only (m : Master) (n : Fin 64) (s : State) : Frame [.mesh] s (releaseLock m n s) := by
  unfold releaseLock
  split
  · refine Frame.under (modLock_only _ _ _) (by simp) ?_
    exact Frame.refl _ _
  · exact Frame.refl _ _

/-- What `execLockRelease` can change. -/
theorem execLockRelease_only (m : Master) (n : Fin 64) (s : State) : FrameOut [.time, .power, .mesh] s (execLockRelease m n s) := by
  unfold execLockRelease
  unfold byMaster
  split
  · refine FrameOut.next ?_
    dsimp only
    refine Frame.under (releaseLock_only _ _ _) (by simp) ?_
    refine Frame.under (arrive_only _ _ _ _) (by simp) ?_
    exact Frame.refl _ _
  · exact FrameOut.fault _ _ _

/-- What `touchSession` can change. -/
theorem touchSession_only (s : State) : Frame [.key] s (touchSession s) := by
  unfold touchSession
  refine Frame.under (modKey_only _ _) (by simp) ?_
  exact Frame.refl _ _

/-- What `endSession` can change. -/
theorem endSession_only (event : Bool) (s : State) : Frame [.events, .board, .key] s (endSession event s) := by
  unfold endSession
  refine Frame.under (raiseIf_only _ _ _ _) (by simp) ?_
  refine Frame.under (modKey_only _ _) (by simp) ?_
  exact Frame.refl _ _

/-- What `openSession` can change. -/
theorem openSession_only (m : Master) (s : State) : Frame [.key, .mesh] s (openSession m s) := by
  unfold openSession
  refine Frame.under (modMesh_only _ _) (by simp) ?_
  refine Frame.under (modKey_only _ _) (by simp) ?_
  exact Frame.refl _ _

/-- What `rwkDiscard` can change. -/
theorem rwkDiscard_only (addr : Word) (s : State) : Frame [.events, .board, .key] s (rwkDiscard addr s) := by
  unfold rwkDiscard
  refine Frame.under (raise_only _ _ _) (by simp) ?_
  refine Frame.under (modKey_only _ _) (by simp) ?_
  exact Frame.refl _ _

/-- What `keyBufWord` can change. -/
theorem keyBufWord_only (m : Master) (i : Nat) (v : Word) (s : State) : Frame [.events, .board, .key] s (keyBufWord m i v s) := by
  unfold keyBufWord
  split
  · refine Frame.under (modKey_only _ _) (by simp) ?_
    exact Frame.refl _ _
  · refine Frame.under (rwkDiscard_only _ _) (by simp) ?_
    exact Frame.refl _ _

/-- What `execKeyBufWrite` can change. -/
theorem execKeyBufWrite_only (m : Master) (idx : Fin 1024) (v : Word) (s : State) : FrameOut [.events, .board, .key] s (execKeyBufWrite m idx v s) := by
  unfold execKeyBufWrite
  unfold byMaster
  split
  · refine FrameOut.next ?_
    refine Frame.under (keyBufWord_only _ _ _ _) (by simp) ?_
    exact Frame.refl _ _
  · exact FrameOut.fault _ _ _

/-- What `execSessionTimeout` can change. -/
theorem execSessionTimeout_only (s : State) : FrameOut [.time, .events, .board, .key] s (execSessionTimeout s) := by
  unfold execSessionTimeout
  refine FrameOut.next ?_
  split
  · refine Frame.under (endSession_only _ _) (by simp) ?_
    refine Frame.under (elapseTo_only _ _) (by simp) ?_
    exact Frame.refl _ _
  · exact Frame.refl _ _

/-- What `postKey` can change. -/
theorem postKey_only (op : Nat) (seq : Half) (code : Nat) (s : State) : Frame [.key] s (postKey op seq code s) := by
  unfold postKey
  refine Frame.under (modKey_only _ _) (by simp) ?_
  exact Frame.refl _ _

/-- What `execKeyCmdUnlisted` can change. -/
theorem execKeyCmdUnlisted_only (m : Master) (key : Half) (fw : Bool) (op : Byte) (s : State) : FrameOut [.events, .board, .key] s (execKeyCmdUnlisted m key fw op s) := by
  unfold execKeyCmdUnlisted
  unfold byMaster
  split
  · refine FrameOut.next ?_
    unfold keyCommand
    dsimp only
    split
    · refine Frame.under (raiseIf_only _ _ _ _) (by simp) ?_
      refine Frame.under (postKey_only _ _ _ _) (by simp) ?_
      refine Frame.comp ?_ (Frame.when ?_)
      · refine Frame.under (modKey_only _ _) (by simp) ?_
        exact Frame.refl _ _
      · refine Frame.under (touchSession_only _) (by simp) ?_
        exact Frame.refl _ _
    · split
      · refine Frame.under (raiseIf_only _ _ _ _) (by simp) ?_
        refine Frame.under (postKey_only _ _ _ _) (by simp) ?_
        refine Frame.comp ?_ (Frame.when ?_)
        · refine Frame.under (modKey_only _ _) (by simp) ?_
          exact Frame.refl _ _
        · refine Frame.under (touchSession_only _) (by simp) ?_
          exact Frame.refl _ _
      · unfold id
        refine Frame.under (modKey_only _ _) (by simp) ?_
        refine Frame.comp ?_ (Frame.when ?_)
        · refine Frame.under (modKey_only _ _) (by simp) ?_
          exact Frame.refl _ _
        · refine Frame.under (touchSession_only _) (by simp) ?_
          exact Frame.refl _ _
  · exact FrameOut.fault _ _ _

/-- What `openCmd` can change. -/
theorem openCmd_only (m : Master) (key : Half) (fw : Bool) (s : State) : Frame [.events, .board, .key, .mesh] s (openCmd m key fw s) := by
  unfold openCmd
  split
  · dsimp only
    refine Frame.under (postKey_only _ _ _ _) (by simp) ?_
    refine Frame.under (touchSession_only _) (by simp) ?_
    refine Frame.under (modKey_only _ _) (by simp) ?_
    exact Frame.refl _ _
  · unfold keyCommand
    dsimp only
    split
    · refine Frame.under (raiseIf_only _ _ _ _) (by simp) ?_
      refine Frame.under (postKey_only _ _ _ _) (by simp) ?_
      refine Frame.comp ?_ (Frame.when ?_)
      · refine Frame.under (modKey_only _ _) (by simp) ?_
        exact Frame.refl _ _
      · refine Frame.under (touchSession_only _) (by simp) ?_
        exact Frame.refl _ _
    · split
      · refine Frame.under (raiseIf_only _ _ _ _) (by simp) ?_
        refine Frame.under (postKey_only _ _ _ _) (by simp) ?_
        refine Frame.comp ?_ (Frame.when ?_)
        · refine Frame.under (modKey_only _ _) (by simp) ?_
          exact Frame.refl _ _
        · refine Frame.under (touchSession_only _) (by simp) ?_
          exact Frame.refl _ _
      · refine Frame.under (openSession_only _ _) (by simp) ?_
        refine Frame.under (modKey_only _ _) (by simp) ?_
        refine Frame.comp ?_ (Frame.when ?_)
        · refine Frame.under (modKey_only _ _) (by simp) ?_
          exact Frame.refl _ _
        · refine Frame.under (touchSession_only _) (by simp) ?_
          exact Frame.refl _ _

/-- What `execKeyOpen` can change. -/
theorem execKeyOpen_only (m : Master) (key : Half) (fw : Bool) (s : State) : FrameOut [.events, .board, .key, .mesh] s (execKeyOpen m key fw s) := by
  unfold execKeyOpen
  unfold byMaster
  split
  · refine FrameOut.next ?_
    refine Frame.under (openCmd_only _ _ _ _) (by simp) ?_
    exact Frame.refl _ _
  · exact FrameOut.fault _ _ _

/-- What `execKeyClose` can change. -/
theorem execKeyClose_only (m : Master) (key : Half) (fw : Bool) (s : State) : FrameOut [.events, .board, .key] s (execKeyClose m key fw s) := by
  unfold execKeyClose
  unfold byMaster
  split
  · refine FrameOut.next ?_
    unfold keyCommand
    dsimp only
    split
    · refine Frame.under (raiseIf_only _ _ _ _) (by simp) ?_
      refine Frame.under (postKey_only _ _ _ _) (by simp) ?_
      refine Frame.comp ?_ (Frame.when ?_)
      · refine Frame.under (modKey_only _ _) (by simp) ?_
        exact Frame.refl _ _
      · refine Frame.under (touchSession_only _) (by simp) ?_
        exact Frame.refl _ _
    · split
      · refine Frame.under (raiseIf_only _ _ _ _) (by simp) ?_
        refine Frame.under (postKey_only _ _ _ _) (by simp) ?_
        refine Frame.comp ?_ (Frame.when ?_)
        · refine Frame.under (modKey_only _ _) (by simp) ?_
          exact Frame.refl _ _
        · refine Frame.under (touchSession_only _) (by simp) ?_
          exact Frame.refl _ _
      · refine Frame.under (endSession_only _ _) (by simp) ?_
        refine Frame.under (modKey_only _ _) (by simp) ?_
        refine Frame.comp ?_ (Frame.when ?_)
        · refine Frame.under (modKey_only _ _) (by simp) ?_
          exact Frame.refl _ _
        · refine Frame.under (touchSession_only _) (by simp) ?_
          exact Frame.refl _ _
  · exact FrameOut.fault _ _ _

/-- What `modPage` can change. -/
theorem modPage_only (i : Fin 4) (f : List (Nat × Byte) → List (Nat × Byte)) (s : State) : Frame [.key] s (modPage i f s) := by
  unfold modPage
  refine Frame.under (modKey_only _ _) (by simp) ?_
  exact Frame.refl _ _

/-- What `setVerified` can change. -/
theorem setVerified_only (i : Fin 4) (v : Bool) (s : State) : Frame [.key] s (setVerified i v s) := by
  unfold setVerified
  refine Frame.under (modKey_only _ _) (by simp) ?_
  exact Frame.refl _ _

/-- What `execKeyErase` can change. -/
theorem execKeyErase_only (m : Master) (key : Half) (fw : Bool) (s : State) : FrameOut [.events, .board, .key] s (execKeyErase m key fw s) := by
  unfold execKeyErase
  unfold byMaster
  split
  · refine FrameOut.next ?_
    unfold keyCommand
    dsimp only
    split
    · refine Frame.under (raiseIf_only _ _ _ _) (by simp) ?_
      refine Frame.under (postKey_only _ _ _ _) (by simp) ?_
      refine Frame.comp ?_ (Frame.when ?_)
      · refine Frame.under (modKey_only _ _) (by simp) ?_
        exact Frame.refl _ _
      · refine Frame.under (touchSession_only _) (by simp) ?_
        exact Frame.refl _ _
    · split
      · refine Frame.under (raiseIf_only _ _ _ _) (by simp) ?_
        refine Frame.under (postKey_only _ _ _ _) (by simp) ?_
        refine Frame.comp ?_ (Frame.when ?_)
        · refine Frame.under (modKey_only _ _) (by simp) ?_
          exact Frame.refl _ _
        · refine Frame.under (touchSession_only _) (by simp) ?_
          exact Frame.refl _ _
      · refine Frame.under (setVerified_only _ _ _) (by simp) ?_
        refine Frame.under (modPage_only _ _ _) (by simp) ?_
        refine Frame.under (modKey_only _ _) (by simp) ?_
        refine Frame.comp ?_ (Frame.when ?_)
        · refine Frame.under (modKey_only _ _) (by simp) ?_
          exact Frame.refl _ _
        · refine Frame.under (touchSession_only _) (by simp) ?_
          exact Frame.refl _ _
  · exact FrameOut.fault _ _ _

/-- What `execKeyProgram` can change. -/
theorem execKeyProgram_only (m : Master) (key : Half) (fw : Bool) (s : State) : FrameOut [.events, .board, .key] s (execKeyProgram m key fw s) := by
  unfold execKeyProgram
  unfold byMaster
  split
  · refine FrameOut.next ?_
    unfold keyCommand
    dsimp only
    split
    · refine Frame.under (raiseIf_only _ _ _ _) (by simp) ?_
      refine Frame.under (postKey_only _ _ _ _) (by simp) ?_
      refine Frame.comp ?_ (Frame.when ?_)
      · refine Frame.under (modKey_only _ _) (by simp) ?_
        exact Frame.refl _ _
      · refine Frame.under (touchSession_only _) (by simp) ?_
        exact Frame.refl _ _
    · split
      · refine Frame.under (raiseIf_only _ _ _ _) (by simp) ?_
        refine Frame.under (postKey_only _ _ _ _) (by simp) ?_
        refine Frame.comp ?_ (Frame.when ?_)
        · refine Frame.under (modKey_only _ _) (by simp) ?_
          exact Frame.refl _ _
        · refine Frame.under (touchSession_only _) (by simp) ?_
          exact Frame.refl _ _
      · unfold id
        refine Frame.under (modKey_only _ _) (by simp) ?_
        refine Frame.comp ?_ (Frame.when ?_)
        · refine Frame.under (modKey_only _ _) (by simp) ?_
          exact Frame.refl _ _
        · refine Frame.under (touchSession_only _) (by simp) ?_
          exact Frame.refl _ _
  · exact FrameOut.fault _ _ _

/-- What `execKeyVerify` can change. -/
theorem execKeyVerify_only (m : Master) (key : Half) (fw : Bool) (s : State) : FrameOut [.events, .board, .key] s (execKeyVerify m key fw s) := by
  unfold execKeyVerify
  unfold byMaster
  split
  · refine FrameOut.next ?_
    unfold keyCommand
    dsimp only
    split
    · refine Frame.under (raiseIf_only _ _ _ _) (by simp) ?_
      refine Frame.under (postKey_only _ _ _ _) (by simp) ?_
      refine Frame.comp ?_ (Frame.when ?_)
      · refine Frame.under (modKey_only _ _) (by simp) ?_
        exact Frame.refl _ _
      · refine Frame.under (touchSession_only _) (by simp) ?_
        exact Frame.refl _ _
    · split
      · refine Frame.under (raiseIf_only _ _ _ _) (by simp) ?_
        refine Frame.under (postKey_only _ _ _ _) (by simp) ?_
        refine Frame.comp ?_ (Frame.when ?_)
        · refine Frame.under (modKey_only _ _) (by simp) ?_
          exact Frame.refl _ _
        · refine Frame.under (touchSession_only _) (by simp) ?_
          exact Frame.refl _ _
      · unfold id
        refine Frame.under (modKey_only _ _) (by simp) ?_
        refine Frame.comp ?_ (Frame.when ?_)
        · refine Frame.under (modKey_only _ _) (by simp) ?_
          exact Frame.refl _ _
        · refine Frame.under (touchSession_only _) (by simp) ?_
          exact Frame.refl _ _
  · exact FrameOut.fault _ _ _

/-- What `execKeyCommit` can change. -/
theorem execKeyCommit_only (m : Master) (key : Half) (fw : Bool) (s : State) : FrameOut [.events, .board, .key] s (execKeyCommit m key fw s) := by
  unfold execKeyCommit
  unfold byMaster
  split
  · refine FrameOut.next ?_
    unfold keyCommand
    dsimp only
    split
    · refine Frame.under (raiseIf_only _ _ _ _) (by simp) ?_
      refine Frame.under (postKey_only _ _ _ _) (by simp) ?_
      refine Frame.comp ?_ (Frame.when ?_)
      · refine Frame.under (modKey_only _ _) (by simp) ?_
        exact Frame.refl _ _
      · refine Frame.under (touchSession_only _) (by simp) ?_
        exact Frame.refl _ _
    · split
      · refine Frame.under (raiseIf_only _ _ _ _) (by simp) ?_
        refine Frame.under (postKey_only _ _ _ _) (by simp) ?_
        refine Frame.comp ?_ (Frame.when ?_)
        · refine Frame.under (modKey_only _ _) (by simp) ?_
          exact Frame.refl _ _
        · refine Frame.under (touchSession_only _) (by simp) ?_
          exact Frame.refl _ _
      · unfold id
        refine Frame.under (modKey_only _ _) (by simp) ?_
        refine Frame.comp ?_ (Frame.when ?_)
        · refine Frame.under (modKey_only _ _) (by simp) ?_
          exact Frame.refl _ _
        · refine Frame.under (touchSession_only _) (by simp) ?_
          exact Frame.refl _ _
  · exact FrameOut.fault _ _ _

/-- What `execKeySafeauth` can change. -/
theorem execKeySafeauth_only (m : Master) (key : Half) (fw : Bool) (s : State) : FrameOut [.events, .board, .key] s (execKeySafeauth m key fw s) := by
  unfold execKeySafeauth
  unfold byMaster
  split
  · refine FrameOut.next ?_
    unfold keyCommand
    dsimp only
    split
    · refine Frame.under (raiseIf_only _ _ _ _) (by simp) ?_
      refine Frame.under (postKey_only _ _ _ _) (by simp) ?_
      refine Frame.comp ?_ (Frame.when ?_)
      · refine Frame.under (modKey_only _ _) (by simp) ?_
        exact Frame.refl _ _
      · refine Frame.under (touchSession_only _) (by simp) ?_
        exact Frame.refl _ _
    · split
      · refine Frame.under (raiseIf_only _ _ _ _) (by simp) ?_
        refine Frame.under (postKey_only _ _ _ _) (by simp) ?_
        refine Frame.comp ?_ (Frame.when ?_)
        · refine Frame.under (modKey_only _ _) (by simp) ?_
          exact Frame.refl _ _
        · refine Frame.under (touchSession_only _) (by simp) ?_
          exact Frame.refl _ _
      · unfold id
        refine Frame.under (modKey_only _ _) (by simp) ?_
        refine Frame.comp ?_ (Frame.when ?_)
        · refine Frame.under (modKey_only _ _) (by simp) ?_
          exact Frame.refl _ _
        · refine Frame.under (touchSession_only _) (by simp) ?_
          exact Frame.refl _ _
  · exact FrameOut.fault _ _ _

/-- What `execKeyAdvance` can change. -/
theorem execKeyAdvance_only (m : Master) (key : Half) (fw : Bool) (s : State) : FrameOut [.events, .board, .key] s (execKeyAdvance m key fw s) := by
  unfold execKeyAdvance
  unfold byMaster
  split
  · refine FrameOut.next ?_
    unfold keyCommand
    dsimp only
    split
    · refine Frame.under (raiseIf_only _ _ _ _) (by simp) ?_
      refine Frame.under (postKey_only _ _ _ _) (by simp) ?_
      refine Frame.comp ?_ (Frame.when ?_)
      · refine Frame.under (modKey_only _ _) (by simp) ?_
        exact Frame.refl _ _
      · refine Frame.under (touchSession_only _) (by simp) ?_
        exact Frame.refl _ _
    · split
      · refine Frame.under (raiseIf_only _ _ _ _) (by simp) ?_
        refine Frame.under (postKey_only _ _ _ _) (by simp) ?_
        refine Frame.comp ?_ (Frame.when ?_)
        · refine Frame.under (modKey_only _ _) (by simp) ?_
          exact Frame.refl _ _
        · refine Frame.under (touchSession_only _) (by simp) ?_
          exact Frame.refl _ _
      · unfold id
        refine Frame.under (modKey_only _ _) (by simp) ?_
        refine Frame.comp ?_ (Frame.when ?_)
        · refine Frame.under (modKey_only _ _) (by simp) ?_
          exact Frame.refl _ _
        · refine Frame.under (touchSession_only _) (by simp) ?_
          exact Frame.refl _ _
  · exact FrameOut.fault _ _ _

/-- What `execKeyProgslot` can change. -/
theorem execKeyProgslot_only (m : Master) (key : Half) (fw : Bool) (s : State) : FrameOut [.events, .board, .key] s (execKeyProgslot m key fw s) := by
  unfold execKeyProgslot
  unfold byMaster
  split
  · refine FrameOut.next ?_
    unfold keyCommand
    dsimp only
    split
    · refine Frame.under (raiseIf_only _ _ _ _) (by simp) ?_
      refine Frame.under (postKey_only _ _ _ _) (by simp) ?_
      refine Frame.comp ?_ (Frame.when ?_)
      · refine Frame.under (modKey_only _ _) (by simp) ?_
        exact Frame.refl _ _
      · refine Frame.under (touchSession_only _) (by simp) ?_
        exact Frame.refl _ _
    · split
      · refine Frame.under (raiseIf_only _ _ _ _) (by simp) ?_
        refine Frame.under (postKey_only _ _ _ _) (by simp) ?_
        refine Frame.comp ?_ (Frame.when ?_)
        · refine Frame.under (modKey_only _ _) (by simp) ?_
          exact Frame.refl _ _
        · refine Frame.under (touchSession_only _) (by simp) ?_
          exact Frame.refl _ _
      · unfold id
        refine Frame.under (modKey_only _ _) (by simp) ?_
        refine Frame.comp ?_ (Frame.when ?_)
        · refine Frame.under (modKey_only _ _) (by simp) ?_
          exact Frame.refl _ _
        · refine Frame.under (touchSession_only _) (by simp) ?_
          exact Frame.refl _ _
  · exact FrameOut.fault _ _ _

/-- What `execKeyRevoke` can change. -/
theorem execKeyRevoke_only (m : Master) (key : Half) (fw : Bool) (s : State) : FrameOut [.events, .board, .key] s (execKeyRevoke m key fw s) := by
  unfold execKeyRevoke
  unfold byMaster
  split
  · refine FrameOut.next ?_
    unfold keyCommand
    dsimp only
    split
    · refine Frame.under (raiseIf_only _ _ _ _) (by simp) ?_
      refine Frame.under (postKey_only _ _ _ _) (by simp) ?_
      refine Frame.comp ?_ (Frame.when ?_)
      · refine Frame.under (modKey_only _ _) (by simp) ?_
        exact Frame.refl _ _
      · refine Frame.under (touchSession_only _) (by simp) ?_
        exact Frame.refl _ _
    · split
      · refine Frame.under (raiseIf_only _ _ _ _) (by simp) ?_
        refine Frame.under (postKey_only _ _ _ _) (by simp) ?_
        refine Frame.comp ?_ (Frame.when ?_)
        · refine Frame.under (modKey_only _ _) (by simp) ?_
          exact Frame.refl _ _
        · refine Frame.under (touchSession_only _) (by simp) ?_
          exact Frame.refl _ _
      · unfold id
        refine Frame.under (modKey_only _ _) (by simp) ?_
        refine Frame.comp ?_ (Frame.when ?_)
        · refine Frame.under (modKey_only _ _) (by simp) ?_
          exact Frame.refl _ _
        · refine Frame.under (touchSession_only _) (by simp) ?_
          exact Frame.refl _ _
  · exact FrameOut.fault _ _ _

/-- What `takeBytes` can change. -/
theorem takeBytes_only (n : Nat) (s : State) : Frame [.free] s (takeBytes n s).2 := by
  unfold takeBytes
  dsimp only
  refine Frame.under (fresh_set _ _) (by simp) ?_
  exact Frame.refl _ _

/-- What `flashFail` can change. -/
theorem flashFail_only (i : Fin 4) (off n : Nat) (s : State) : Frame [.free, .key] s (flashFail i off n s) := by
  unfold flashFail
  split
  refine Frame.under (modPage_only _ _ _) (by simp) ?_
  refine Frame.under (Frame.snd (by assumption) (takeBytes_only _ _)) (by simp) ?_
  exact Frame.refl _ _

/-- What `doErase` can change. -/
theorem doErase_only (r : KeyRun) (flashOk : Bool) (s : State) : Frame [.free, .key] s (doErase r flashOk s).2 := by
  unfold doErase
  dsimp only
  split
  · dsimp only
    refine Frame.under (modPage_only _ _ _) (by simp) ?_
    exact Frame.refl _ _
  · dsimp only
    refine Frame.under (flashFail_only _ _ _ _) (by simp) ?_
    exact Frame.refl _ _

/-- What `doProgram` can change. -/
theorem doProgram_only (r : KeyRun) (flashOk : Bool) (s : State) : Frame [.free, .key] s (doProgram r flashOk s).2 := by
  unfold doProgram
  dsimp only
  split
  · dsimp only
    exact Frame.refl _ _
  · split
    · dsimp only
      refine Frame.under (setVerified_only _ _ _) (by simp) ?_
      refine Frame.under (modPage_only _ _ _) (by simp) ?_
      exact Frame.refl _ _
    · dsimp only
      refine Frame.under (setVerified_only _ _ _) (by simp) ?_
      refine Frame.under (flashFail_only _ _ _ _) (by simp) ?_
      exact Frame.refl _ _

/-- What `doVerify` can change. -/
theorem doVerify_only (r : KeyRun) (s : State) : Frame [.free, .key] s (doVerify r s).2 := by
  unfold doVerify
  dsimp only
  split
  · split
    · dsimp only
      refine Frame.under (setVerified_only _ _ _) (by simp) ?_
      refine Frame.under (takeFree_only _) (by simp) ?_
      exact Frame.refl _ _
    · dsimp only
      refine Frame.under (modKey_only _ _) (by simp) ?_
      refine Frame.under (takeFree_only _) (by simp) ?_
      exact Frame.refl _ _
  · split
    · dsimp only
      refine Frame.under (setVerified_only _ _ _) (by simp) ?_
      exact Frame.refl _ _
    · dsimp only
      refine Frame.under (modKey_only _ _) (by simp) ?_
      exact Frame.refl _ _

/-- What `doCommit` can change. -/
theorem doCommit_only (r : KeyRun) (flashOk : Bool) (s : State) : Frame [.free, .events, .board, .key, .plk] s (doCommit r flashOk s).2 := by
  unfold doCommit
  dsimp only
  split
  · dsimp only
    exact Frame.refl _ _
  · split
    · dsimp only
      refine Frame.under (flashFail_only _ _ _ _) (by simp) ?_
      exact Frame.refl _ _
    · dsimp only
      refine Frame.comp ?_ (Frame.when ?_)
      · refine Frame.comp ?_ (Frame.when ?_)
        · refine Frame.under (modPage_only _ _ _) (by simp) ?_
          exact Frame.refl _ _
        · refine Frame.under (raise_only _ _ _) (by simp) ?_
          refine Frame.under (plkLog_only _ _ _ _ _ _) (by simp) ?_
          refine Frame.under (modPlk_only _ _) (by simp) ?_
          exact Frame.refl _ _
      · refine Frame.under (modKey_only _ _) (by simp) ?_
        exact Frame.refl _ _

/-- What `passwordOk` can change. -/
theorem passwordOk_only (r : KeyRun) (s : State) : Frame [.free] s (passwordOk r s).2 := by
  unfold passwordOk
  split
  · split
    dsimp only
    refine Frame.under (Frame.snd (by assumption) (takeFree_only _)) (by simp) ?_
    exact Frame.refl _ _
  · dsimp only
    split
    · dsimp only
      exact Frame.refl _ _
    · dsimp only
      exact Frame.refl _ _

/-- What `authFailed` can change. -/
theorem authFailed_only (r : KeyRun) (s : State) : Frame [.events, .board, .plk] s (authFailed r s) := by
  unfold authFailed
  dsimp only
  refine Frame.comp ?_ (Frame.when ?_)
  · refine Frame.under (raise_only _ _ _) (by simp) ?_
    refine Frame.under (plkLog_only _ _ _ _ _ _) (by simp) ?_
    refine Frame.under (modPlk_only _ _) (by simp) ?_
    exact Frame.refl _ _
  · refine Frame.under (raise_only _ _ _) (by simp) ?_
    refine Frame.under (plkLog_only _ _ _ _ _ _) (by simp) ?_
    refine Frame.under (modPlk_only _ _) (by simp) ?_
    exact Frame.refl _ _

/-- What `doSafeauth` can change. -/
theorem doSafeauth_only (r : KeyRun) (s : State) : Frame [.free, .events, .board, .key, .plk] s (doSafeauth r s).2 := by
  unfold doSafeauth
  dsimp only
  split
  · dsimp only
    refine Frame.under (modKey_only _ _) (by simp) ?_
    exact Frame.refl _ _
  · split
    · dsimp only
      refine Frame.under (modKey_only _ _) (by simp) ?_
      refine Frame.under (modPlk_only _ _) (by simp) ?_
      refine Frame.under (modKey_only _ _) (by simp) ?_
      refine Frame.under (passwordOk_only _ _) (by simp) ?_
      exact Frame.refl _ _
    · dsimp only
      refine Frame.under (authFailed_only _ _) (by simp) ?_
      refine Frame.under (modKey_only _ _) (by simp) ?_
      refine Frame.under (passwordOk_only _ _) (by simp) ?_
      exact Frame.refl _ _

/-- What `swapFlash` can change. -/
theorem swapFlash_only (blk trig : Nat) (s : State) : Frame [.events, .board, .wear] s (swapFlash blk trig s).2 := by
  unfold swapFlash
  split
  · dsimp only
    refine Frame.under (noSpare_only _ _ _ _ _ _) (by simp) ?_
    exact Frame.refl _ _
  · dsimp only
    refine Frame.under (hingeSwap_only _ _ _ _ _ _ _) (by simp) ?_
    exact Frame.refl _ _

/-- What `flashWear` can change. -/
theorem flashWear_only (r : KeyRun) (worn : List (Fin 256)) (s : State) : Frame [.events, .board, .wear] s (flashWear r worn s).2 := by
  unfold flashWear
  dsimp only
  split
  · dsimp only
    refine Frame.under (modWear_only _ _) (by simp) ?_
    exact Frame.refl _ _
  · split
    · refine Frame.under (swapFlash_only _ _ _) (by simp) ?_
      refine Frame.comp ?_ (Frame.when ?_)
      · exact Frame.refl _ _
      · refine Frame.under (swapFlash_only _ _ _) (by simp) ?_
        refine Frame.under (modWear_only _ _) (by simp) ?_
        exact Frame.refl _ _
    · dsimp only
      refine Frame.comp ?_ (Frame.when ?_)
      · exact Frame.refl _ _
      · refine Frame.under (swapFlash_only _ _ _) (by simp) ?_
        refine Frame.under (modWear_only _ _) (by simp) ?_
        exact Frame.refl _ _
  · split
    · refine Frame.under (swapFlash_only _ _ _) (by simp) ?_
      refine Frame.comp ?_ (Frame.when ?_)
      · exact Frame.refl _ _
      · refine Frame.under (swapFlash_only _ _ _) (by simp) ?_
        refine Frame.under (modWear_only _ _) (by simp) ?_
        exact Frame.refl _ _
    · dsimp only
      refine Frame.comp ?_ (Frame.when ?_)
      · exact Frame.refl _ _
      · refine Frame.under (swapFlash_only _ _ _) (by simp) ?_
        refine Frame.under (modWear_only _ _) (by simp) ?_
        exact Frame.refl _ _
  · split
    · refine Frame.under (swapFlash_only _ _ _) (by simp) ?_
      refine Frame.comp ?_ (Frame.when ?_)
      · exact Frame.refl _ _
      · refine Frame.under (swapFlash_only _ _ _) (by simp) ?_
        refine Frame.under (modWear_only _ _) (by simp) ?_
        exact Frame.refl _ _
    · dsimp only
      refine Frame.comp ?_ (Frame.when ?_)
      · exact Frame.refl _ _
      · refine Frame.under (swapFlash_only _ _ _) (by simp) ?_
        refine Frame.under (modWear_only _ _) (by simp) ?_
        exact Frame.refl _ _
  · dsimp only
    exact Frame.refl _ _

/-- What `finishKey` can change. -/
theorem finishKey_only (r : KeyRun) (flashOk : Bool) (s : State) : Frame [.free, .events, .board, .key, .plk] s (finishKey r flashOk s).2 := by
  unfold finishKey
  split
  · refine Frame.under (doErase_only _ _ _) (by simp) ?_
    exact Frame.refl _ _
  · refine Frame.under (doProgram_only _ _ _) (by simp) ?_
    exact Frame.refl _ _
  · refine Frame.under (doVerify_only _ _) (by simp) ?_
    exact Frame.refl _ _
  · refine Frame.under (doCommit_only _ _ _) (by simp) ?_
    exact Frame.refl _ _
  · refine Frame.under (doSafeauth_only _ _) (by simp) ?_
    exact Frame.refl _ _
  · dsimp only
    refine Frame.under (raise_only _ _ _) (by simp) ?_
    refine Frame.under (modKey_only _ _) (by simp) ?_
    exact Frame.refl _ _
  · dsimp only
    refine Frame.under (modKey_only _ _) (by simp) ?_
    exact Frame.refl _ _
  · dsimp only
    refine Frame.under (modKey_only _ _) (by simp) ?_
    exact Frame.refl _ _
  · dsimp only
    exact Frame.refl _ _

/-- What `execKeyCmdComplete` can change. -/
theorem execKeyCmdComplete_only (flash : FlashResult) (s : State) : FrameOut [.free, .events, .board, .key, .plk, .wear] s (execKeyCmdComplete flash s) := by
  unfold execKeyCmdComplete
  refine FrameOut.next ?_
  split
  · exact Frame.refl _ _
  · split
    · exact Frame.refl _ _
    · split
      split
      refine Frame.under (postKey_only _ _ _ _) (by simp) ?_
      refine Frame.under (modKey_only _ _) (by simp) ?_
      refine Frame.under (Frame.snd (by assumption) (finishKey_only _ _ _)) (by simp) ?_
      refine Frame.under (Frame.snd (by assumption) (flashWear_only _ _ _)) (by simp) ?_
      exact Frame.refl _ _

/-- What `abortKey` can change. -/
theorem abortKey_only (s : State) : Frame [.events, .board, .key] s (abortKey s) := by
  unfold abortKey
  split
  · exact Frame.refl _ _
  · dsimp only
    refine Frame.under (raise_only _ _ _) (by simp) ?_
    refine Frame.under (postKey_only _ _ _ _) (by simp) ?_
    refine Frame.under (modKey_only _ _) (by simp) ?_
    split
    · refine Frame.under (setVerified_only _ _ _) (by simp) ?_
      refine Frame.under (modPage_only _ _ _) (by simp) ?_
      exact Frame.refl _ _
    · exact Frame.refl _ _

end Sys2Proof.Machine
end

