-- ==== Sys2Proof/Laws/FramesLanes.lean ====
section
/-! SUPPORT. What each operation of the blocks of the lanes, the field I/O, the commit and the lane claim can change: one frame lemma per operation and command, read off its definition. -/

set_option linter.unusedTactic false
set_option linter.unreachableTactic false

namespace Sys2Proof.Machine

/-- What `modPins` can change. -/
theorem modPins_only (p : Fin 32) (f : PinState → PinState) (s : State) : Frame [.laneA, .laneB] s (modPins p f s) := by
  unfold modPins
  refine Frame.under (modPin_only _ _ _ _) (by repeat' first | exact sub_nil _ | (refine lanePart_mem _ ?_ ?_ <;> (simp; done)) | (refine sramPart_mem _ ?_ ?_ <;> (simp; done)) | refine sub_cons ?_ ?_ | (simp; done)) ?_
  refine Frame.under (modPin_only _ _ _ _) (by repeat' first | exact sub_nil _ | (refine lanePart_mem _ ?_ ?_ <;> (simp; done)) | (refine sramPart_mem _ ?_ ?_ <;> (simp; done)) | refine sub_cons ?_ ?_ | (simp; done)) ?_
  exact Frame.refl _ _

/-- What `convert` can change. -/
theorem convert_only (nv : Int) (s : State) : Frame [.free] s (convert nv s).2 := by
  unfold convert
  split
  · split
    dsimp only
    refine Frame.under (Frame.snd (by assumption) (takeFree_only _)) (by simp) ?_
    exact Frame.refl _ _
  · dsimp only
    exact Frame.refl _ _

/-- What `sampleCode` can change. -/
theorem sampleCode_only (l : Lane) (pin : Fin 32) (legP legN : Int) (s : State) : Frame [.free] s (sampleCode l pin legP legN s).2 := by
  unfold sampleCode
  dsimp only
  split
  · dsimp only
    refine Frame.under (takeFree_only _) (by simp) ?_
    exact Frame.refl _ _
  · split
    · dsimp only
      refine Frame.under (takeFree_only _) (by simp) ?_
      exact Frame.refl _ _
    · split
      · dsimp only
        refine Frame.under (takeFree_only _) (by simp) ?_
        refine Frame.under (convert_only _ _) (by simp) ?_
        exact Frame.refl _ _
      · dsimp only
        refine Frame.under (convert_only _ _) (by simp) ?_
        exact Frame.refl _ _

/-- What `noteReads` can change. -/
theorem noteReads_only (l : Lane) (pin : Fin 32) (inst : Nat) (first : Bool) (s : State) : Frame [lanePart l] s (noteReads l pin inst first s) := by
  unfold noteReads
  refine Frame.comp ?_ (Frame.foldS _ _ _ fun _ _ => ?_)
  · exact Frame.refl _ _
  · dsimp only
    split
    · refine Frame.under (modCtx_only _ _ _ _) (by simp) ?_
      exact Frame.refl _ _
    · exact Frame.refl _ _

/-- What `streamSample` can change. -/
theorem streamSample_only (pin : Fin 32) (inst : Nat) (x : StreamCode) (s : State) : Frame [.events, .board, .laneA, .laneB] s (streamSample pin inst x s) := by
  unfold streamSample
  refine Frame.under (raiseIf_only _ _ _ _) (by simp) ?_
  refine Frame.under (noteReads_only _ _ _ _ _) (by repeat' first | exact sub_nil _ | (refine lanePart_mem _ ?_ ?_ <;> (simp; done)) | (refine sramPart_mem _ ?_ ?_ <;> (simp; done)) | refine sub_cons ?_ ?_ | (simp; done)) ?_
  refine Frame.under (modPin_only _ _ _ _) (by repeat' first | exact sub_nil _ | (refine lanePart_mem _ ?_ ?_ <;> (simp; done)) | (refine sramPart_mem _ ?_ ?_ <;> (simp; done)) | refine sub_cons ?_ ?_ | (simp; done)) ?_
  exact Frame.refl _ _

/-- What `takeSample` can change. -/
theorem takeSample_only (l : Lane) (pin : Fin 32) (inst : Nat) (code : Half) (beyond lost : Bool) (s : State) : Frame [.events, .board, .laneA, .laneB, .claim] s (takeSample l pin inst code beyond lost s) := by
  unfold takeSample
  dsimp only
  refine Frame.comp ?_ (Frame.when ?_)
  · refine Frame.comp ?_ (Frame.foldS _ _ _ fun _ _ => ?_)
    · refine Frame.under (raiseIf_only _ _ _ _) (by simp) ?_
      refine Frame.under (modPin_only _ _ _ _) (by repeat' first | exact sub_nil _ | (refine lanePart_mem _ ?_ ?_ <;> (simp; done)) | (refine sramPart_mem _ ?_ ?_ <;> (simp; done)) | refine sub_cons ?_ ?_ | (simp; done)) ?_
      exact Frame.refl _ _
    · refine Frame.under (streamSample_only _ _ _ _) (by simp) ?_
      exact Frame.refl _ _
  · split
    · split
      · refine Frame.under (crcErrors_only _ _ _) (by simp) ?_
        exact Frame.refl _ _
      · refine Frame.under (modPin_only _ _ _ _) (by repeat' first | exact sub_nil _ | (refine lanePart_mem _ ?_ ?_ <;> (simp; done)) | (refine sramPart_mem _ ?_ ?_ <;> (simp; done)) | refine sub_cons ?_ ?_ | (simp; done)) ?_
        exact Frame.refl _ _
    · split
      · refine Frame.under (crcErrors_only _ _ _) (by simp) ?_
        exact Frame.refl _ _
      · refine Frame.under (modPin_only _ _ _ _) (by repeat' first | exact sub_nil _ | (refine lanePart_mem _ ?_ ?_ <;> (simp; done)) | (refine sramPart_mem _ ?_ ?_ <;> (simp; done)) | refine sub_cons ?_ ?_ | (simp; done)) ?_
        exact Frame.refl _ _

/-- What `execConverterPowerDown` can change. -/
theorem execConverterPowerDown_only (l : Lane) (pin : Fin 32) (s : State) : FrameOut [.time, lanePart l] s (execConverterPowerDown l pin s) := by
  unfold execConverterPowerDown
  dsimp only
  refine FrameOut.next ?_
  split
  · refine Frame.under (modPin_only _ _ _ _) (by simp) ?_
    refine Frame.under (elapseTo_only _ _) (by simp) ?_
    exact Frame.refl _ _
  · exact Frame.refl _ _

/-- What `execWinExit` can change. -/
theorem execWinExit_only (l : Lane) (pin : Fin 32) (s : State) : FrameOut [.events, .board, lanePart l] s (execWinExit l pin s) := by
  unfold execWinExit
  refine FrameOut.next ?_
  split
  · refine Frame.under (raise_only _ _ _) (by simp) ?_
    refine Frame.under (modPin_only _ _ _ _) (by simp) ?_
    exact Frame.refl _ _
  · exact Frame.refl _ _

/-- What `execOpenWire` can change. -/
theorem execOpenWire_only (l : Lane) (pin : Fin 32) (s : State) : FrameOut [.time, .events, .board, lanePart l] s (execOpenWire l pin s) := by
  unfold execOpenWire
  dsimp only
  refine FrameOut.next ?_
  split
  · exact Frame.refl _ _
  · split
    · refine Frame.under (raise_only _ _ _) (by simp) ?_
      refine Frame.under (modPin_only _ _ _ _) (by simp) ?_
      refine Frame.under (elapseTo_only _ _) (by simp) ?_
      exact Frame.refl _ _
    · exact Frame.refl _ _

/-- What `owTestStart` can change. -/
theorem owTestStart_only (l : Lane) (s : State) : Frame [.laneA, .laneB] s (owTestStart l s) := by
  unfold owTestStart
  dsimp only
  split
  · refine Frame.under (modPins_only _ _ _) (by simp) ?_
    exact Frame.refl _ _
  · exact Frame.refl _ _

/-- What `execOwTestStart` can change. -/
theorem execOwTestStart_only (l : Lane) (s : State) : FrameOut [.laneA, .laneB] s (execOwTestStart l s) := by
  unfold execOwTestStart
  refine FrameOut.next ?_
  refine Frame.under (owTestStart_only _ _) (by simp) ?_
  exact Frame.refl _ _

/-- What `execOwTestEnd` can change. -/
theorem execOwTestEnd_only (l : Lane) (pin : Fin 32) (s : State) : FrameOut [.time, lanePart l] s (execOwTestEnd l pin s) := by
  unfold execOwTestEnd
  dsimp only
  refine FrameOut.next ?_
  split
  · exact Frame.refl _ _
  · refine Frame.under (modPin_only _ _ _ _) (by simp) ?_
    refine Frame.under (elapseTo_only _ _) (by simp) ?_
    exact Frame.refl _ _

/-- What `startVote` can change. -/
theorem startVote_only (l : Lane) (pin : Fin 32) (s : State) : Frame [.events, .board, .laneA, .laneB, .wear] s (startVote l pin s) := by
  unfold startVote
  split
  · exact Frame.refl _ _
  · split
    · refine Frame.under (modPins_only _ _ _) (by simp) ?_
      exact Frame.refl _ _
    · refine Frame.under (modPins_only _ _ _) (by simp) ?_
      exact Frame.refl _ _
    · refine Frame.under (raise_only _ _ _) (by simp) ?_
      refine Frame.under (noSpare_only _ _ _ _ _ _) (by simp) ?_
      exact Frame.refl _ _

/-- What `xchkTrend` can change. -/
theorem xchkTrend_only (l : Lane) (pin : Fin 32) (s : State) : Frame [.events, .board, .laneA, .laneB, .wear] s (xchkTrend l pin s) := by
  unfold xchkTrend
  dsimp only
  split
  · exact Frame.refl _ _
  · refine Frame.comp ?_ (Frame.when ?_)
    · refine Frame.under (modPin_only _ _ _ _) (by repeat' first | exact sub_nil _ | (refine lanePart_mem _ ?_ ?_ <;> (simp; done)) | (refine sramPart_mem _ ?_ ?_ <;> (simp; done)) | refine sub_cons ?_ ?_ | (simp; done)) ?_
      exact Frame.refl _ _
    · refine Frame.under (startVote_only _ _ _) (by simp) ?_
      exact Frame.refl _ _

/-- What `crossCheck` can change. -/
theorem crossCheck_only (c : Fin 8) (s : State) : Frame [.events, .board, .laneA, .laneB, .wear] s (crossCheck c s) := by
  unfold crossCheck
  split
  · exact Frame.refl _ _
  · refine Frame.comp ?_ (Frame.foldS _ _ _ fun _ _ => ?_)
    · exact Frame.refl _ _
    · split
      · exact Frame.refl _ _
      · dsimp only
        refine Frame.under (xchkTrend_only _ _ _) (by simp) ?_
        refine Frame.under (xchkTrend_only _ _ _) (by simp) ?_
        refine Frame.under (modPins_only _ _ _) (by simp) ?_
        exact Frame.refl _ _

/-- What `execXchkFail` can change. -/
theorem execXchkFail_only (l : Lane) (pin : Fin 32) (s : State) : FrameOut [.events, .board, .laneA, .laneB, .wear] s (execXchkFail l pin s) := by
  unfold execXchkFail
  refine FrameOut.next ?_
  split
  · refine Frame.under (startVote_only _ _ _) (by simp) ?_
    refine Frame.under (raise_only _ _ _) (by simp) ?_
    refine Frame.under (modPin_only _ _ _ _) (by repeat' first | exact sub_nil _ | (refine lanePart_mem _ ?_ ?_ <;> (simp; done)) | (refine sramPart_mem _ ?_ ?_ <;> (simp; done)) | refine sub_cons ?_ ?_ | (simp; done)) ?_
    exact Frame.refl _ _
  · exact Frame.refl _ _

/-- What `requestSwap` can change. -/
theorem requestSwap_only (l : Lane) (pin : Fin 32) (v : Lane × Fin 4) (s : State) : Frame [.events, .board, .wear, lanePart l] s (requestSwap l pin v s) := by
  unfold requestSwap
  split
  · refine Frame.under (modPin_only _ _ _ _) (by simp) ?_
    exact Frame.refl _ _
  · refine Frame.under (raise_only _ _ _) (by simp) ?_
    refine Frame.under (noSpare_only _ _ _ _ _ _) (by simp) ?_
    exact Frame.refl _ _

/-- What `voteDone` can change. -/
theorem voteDone_only (pin : Fin 32) (sumP sumC sumS : Int) (s : State) : Frame [.events, .board, .laneA, .laneB, .wear] s (voteDone pin sumP sumC sumS s) := by
  unfold voteDone
  split
  · exact Frame.refl _ _
  · dsimp only
    split
    · refine Frame.under (requestSwap_only _ _ _ _) (by repeat' first | exact sub_nil _ | (refine lanePart_mem _ ?_ ?_ <;> (simp; done)) | (refine sramPart_mem _ ?_ ?_ <;> (simp; done)) | refine sub_cons ?_ ?_ | (simp; done)) ?_
      refine Frame.under (modPins_only _ _ _) (by simp) ?_
      refine Frame.under (modPins_only _ _ _) (by simp) ?_
      exact Frame.refl _ _
    · split
      · refine Frame.under (requestSwap_only _ _ _ _) (by repeat' first | exact sub_nil _ | (refine lanePart_mem _ ?_ ?_ <;> (simp; done)) | (refine sramPart_mem _ ?_ ?_ <;> (simp; done)) | refine sub_cons ?_ ?_ | (simp; done)) ?_
        refine Frame.under (modPins_only _ _ _) (by simp) ?_
        exact Frame.refl _ _
      · refine Frame.under (modPins_only _ _ _) (by simp) ?_
        exact Frame.refl _ _

/-- What `execVoteDone` can change. -/
theorem execVoteDone_only (pin : Fin 32) (sumPrimary sumCross sumSpare : Int) (s : State) : FrameOut [.events, .board, .laneA, .laneB, .wear] s (execVoteDone pin sumPrimary sumCross sumSpare s) := by
  unfold execVoteDone
  refine FrameOut.next ?_
  refine Frame.under (voteDone_only _ _ _ _ _) (by simp) ?_
  exact Frame.refl _ _

/-- What `spareIn` can change. -/
theorem spareIn_only (l : Lane) (pin : Fin 32) (s : State) : Frame [.events, .board, .laneA, .laneB, .wear] s (spareIn l pin s) := by
  unfold spareIn
  dsimp only
  split
  · exact Frame.refl _ _
  · refine Frame.under (raise_only _ _ _) (by simp) ?_
    refine Frame.under (hingeSwap_only _ _ _ _ _ _ _) (by simp) ?_
    refine Frame.comp ?_ (Frame.when ?_)
    · refine Frame.under (modPin_only _ _ _ _) (by repeat' first | exact sub_nil _ | (refine lanePart_mem _ ?_ ?_ <;> (simp; done)) | (refine sramPart_mem _ ?_ ?_ <;> (simp; done)) | refine sub_cons ?_ ?_ | (simp; done)) ?_
      refine Frame.under (modMeas_only _ _ _) (by repeat' first | exact sub_nil _ | (refine lanePart_mem _ ?_ ?_ <;> (simp; done)) | (refine sramPart_mem _ ?_ ?_ <;> (simp; done)) | refine sub_cons ?_ ?_ | (simp; done)) ?_
      exact Frame.refl _ _
    · refine Frame.under (modPins_only _ _ _) (by simp) ?_
      exact Frame.refl _ _

/-- What `execSpareIn` can change. -/
theorem execSpareIn_only (l : Lane) (pin : Fin 32) (s : State) : FrameOut [.events, .board, .laneA, .laneB, .wear] s (execSpareIn l pin s) := by
  unfold execSpareIn
  refine FrameOut.next ?_
  refine Frame.comp ?_ (Frame.when ?_)
  · exact Frame.refl _ _
  · refine Frame.under (spareIn_only _ _ _) (by simp) ?_
    exact Frame.refl _ _

/-- What `execSpareCalibrate` can change. -/
theorem execSpareCalibrate_only (l : Lane) (s : State) : FrameOut [.time] s (execSpareCalibrate l s) := by
  unfold execSpareCalibrate
  refine FrameOut.next ?_
  split
  · refine Frame.under (periodic_only _ _ _) (by simp) ?_
    exact Frame.refl _ _
  · exact Frame.refl _ _

/-- What `rephase` can change. -/
theorem rephase_only (l : Lane) (s : State) : Frame [.events, .board, lanePart l, sramPart l] s (rephase l s) := by
  unfold rephase
  dsimp only
  refine Frame.comp ?_ (Frame.when ?_)
  · refine Frame.under (modMeas_only _ _ _) (by simp) ?_
    refine Frame.comp ?_ (Frame.foldS _ _ _ fun _ _ => ?_)
    · refine Frame.comp ?_ (Frame.foldS _ _ _ fun _ _ => ?_)
      · exact Frame.refl _ _
      · refine Frame.under (modPin_only _ _ _ _) (by simp) ?_
        exact Frame.refl _ _
    · refine Frame.under (modPin_only _ _ _ _) (by simp) ?_
      exact Frame.refl _ _
  · refine Frame.under (recMark_only _ _ _ _ _ _ _ _) (by simp) ?_
    refine Frame.under (raise_only _ _ _) (by simp) ?_
    exact Frame.refl _ _

/-- What `triggerMeas` can change. -/
theorem triggerMeas_only (l : Lane) (c : Fin 8) (leadNs : Nat) (s : State) : Frame [.events, .board, lanePart l, sramPart l] s (triggerMeas l c leadNs s) := by
  unfold triggerMeas
  split
  · exact Frame.refl _ _
  · dsimp only
    refine Frame.comp ?_ (Frame.when ?_)
    · refine Frame.under (raiseIf_only _ _ _ _) (by simp) ?_
      refine Frame.comp ?_ (Frame.foldS _ _ _ fun _ _ => ?_)
      · exact Frame.refl _ _
      · refine Frame.under (modPin_only _ _ _ _) (by simp) ?_
        exact Frame.refl _ _
    · refine Frame.under (rephase_only _ _) (by simp) ?_
      exact Frame.refl _ _

/-- What `fltCtl` can change. -/
theorem fltCtl_only (l : Lane) (v : Word) (s : State) : Frame [.events, .board, lanePart l] s (fltCtl l v s) := by
  unfold fltCtl
  dsimp only
  split
  · exact Frame.refl _ _
  · split
    · refine Frame.under (modPin_only _ _ _ _) (by simp) ?_
      exact Frame.refl _ _
    · split
      · refine Frame.under (raise_only _ _ _) (by simp) ?_
        refine Frame.under (modPin_only _ _ _ _) (by simp) ?_
        exact Frame.refl _ _
      · split
        · refine Frame.under (modPin_only _ _ _ _) (by simp) ?_
          refine Frame.under (modPin_only _ _ _ _) (by simp) ?_
          exact Frame.refl _ _
        · refine Frame.under (modPin_only _ _ _ _) (by simp) ?_
          refine Frame.under (modPin_only _ _ _ _) (by simp) ?_
          exact Frame.refl _ _

/-- What `execFltCtlWrite` can change. -/
theorem execFltCtlWrite_only (l : Lane) (v : Word) (s : State) : FrameOut [.events, .board, lanePart l] s (execFltCtlWrite l v s) := by
  unfold execFltCtlWrite
  refine FrameOut.next ?_
  refine Frame.under (fltCtl_only _ _ _) (by simp) ?_
  exact Frame.refl _ _

/-- What `fltCoefdat` can change. -/
theorem fltCoefdat_only (l : Lane) (m : Master) (v : Word) (s : State) : Frame [.events, .board, .key, lanePart l] s (fltCoefdat l m v s) := by
  unfold fltCoefdat
  dsimp only
  split
  · exact Frame.refl _ _
  · unfold rwkWrite
    dsimp only
    split
    · split
      · refine Frame.comp ?_ (Frame.when ?_)
        · exact Frame.refl _ _
        · refine Frame.under (touchSession_only _) (by simp) ?_
          exact Frame.refl _ _
      · split
        · refine Frame.under (raise_only _ _ _) (by simp) ?_
          refine Frame.comp ?_ (Frame.when ?_)
          · exact Frame.refl _ _
          · refine Frame.under (touchSession_only _) (by simp) ?_
            exact Frame.refl _ _
        · refine Frame.under (modPin_only _ _ _ _) (by simp) ?_
          refine Frame.comp ?_ (Frame.when ?_)
          · exact Frame.refl _ _
          · refine Frame.under (touchSession_only _) (by simp) ?_
            exact Frame.refl _ _
    · refine Frame.under (rwkDiscard_only _ _) (by simp) ?_
      refine Frame.comp ?_ (Frame.when ?_)
      · exact Frame.refl _ _
      · refine Frame.under (touchSession_only _) (by simp) ?_
        exact Frame.refl _ _

/-- What `execFltCoefdatWrite` can change. -/
theorem execFltCoefdatWrite_only (l : Lane) (m : Master) (v : Word) (s : State) : FrameOut [.events, .board, .key, lanePart l] s (execFltCoefdatWrite l m v s) := by
  unfold execFltCoefdatWrite
  unfold byMaster
  split
  · refine FrameOut.next ?_
    refine Frame.under (fltCoefdat_only _ _ _ _) (by simp) ?_
    exact Frame.refl _ _
  · exact FrameOut.fault _ _ _

/-- What `putNodes` can change. -/
theorem putNodes_only (l : Lane) (ns : List (Nat × Word)) (s : State) : Frame [lanePart l] s (putNodes l ns s) := by
  unfold putNodes
  refine Frame.under (modEng_only _ _ _) (by simp) ?_
  exact Frame.refl _ _

/-- What `suspendLower` can change. -/
theorem suspendLower_only (l : Lane) (d : Fin 8) (s : State) : Frame [lanePart l] s (suspendLower l d s) := by
  unfold suspendLower
  refine Frame.comp ?_ (Frame.foldS _ _ _ fun _ _ => ?_)
  · exact Frame.refl _ _
  · split
    · exact Frame.refl _ _
    · split
      · refine Frame.under (modCtx_only _ _ _ _) (by simp) ?_
        exact Frame.refl _ _
      · exact Frame.refl _ _

/-- What `resumeRuns` can change. -/
theorem resumeRuns_only (l : Lane) (s : State) : Frame [lanePart l] s (resumeRuns l s) := by
  unfold resumeRuns
  refine Frame.comp ?_ (Frame.foldS _ _ _ fun _ _ => ?_)
  · exact Frame.refl _ _
  · split
    · exact Frame.refl _ _
    · refine Frame.under (modCtx_only _ _ _ _) (by simp) ?_
      exact Frame.refl _ _

/-- What `modTap` can change. -/
theorem modTap_only (l : Lane) (i : Fin 64) (f : TraceTap → TraceTap) (s : State) : Frame [lanePart l] s (modTap l i f s) := by
  unfold modTap
  refine Frame.under (modEng_only _ _ _) (by simp) ?_
  exact Frame.refl _ _

/-- What `traceWrite` can change. -/
theorem traceWrite_only (l : Lane) (c : Fin 8) (t : Fin 8) (v : Word) (tag branch ahead step : Nat) (s : State) : Frame [lanePart l, sramPart l] s (traceWrite l c t v tag branch ahead step s) := by
  unfold traceWrite
  dsimp only
  refine Frame.under (modTap_only _ _ _ _) (by simp) ?_
  refine Frame.under (laneWrite_only _ _ _ _) (by simp) ?_
  exact Frame.refl _ _

/-- What `traceCommit` can change. -/
theorem traceCommit_only (l : Lane) (c : Fin 8) (step : Nat) (s : State) : Frame [lanePart l, sramPart l] s (traceCommit l c step s) := by
  unfold traceCommit
  refine Frame.comp ?_ (Frame.foldS _ _ _ fun _ _ => ?_)
  · exact Frame.refl _ _
  · dsimp only
    split
    · exact Frame.refl _ _
    · refine Frame.under (modTap_only _ _ _ _) (by simp) ?_
      refine Frame.comp ?_ (Frame.when ?_)
      · refine Frame.under (modTap_only _ _ _ _) (by simp) ?_
        exact Frame.refl _ _
      · refine Frame.under (traceWrite_only _ _ _ _ _ _ _ _ _) (by simp) ?_
        exact Frame.refl _ _

/-- What `freezeTaps` can change. -/
theorem freezeTaps_only (l : Lane) (c : Fin 8) (event : Nat) (pending : Bool) (s : State) : Frame [lanePart l] s (freezeTaps l c event pending s) := by
  unfold freezeTaps
  refine Frame.comp ?_ (Frame.foldS _ _ _ fun _ _ => ?_)
  · exact Frame.refl _ _
  · refine Frame.under (modTap_only _ _ _ _) (by simp) ?_
    exact Frame.refl _ _

/-- What `settleFreeze` can change. -/
theorem settleFreeze_only (l : Lane) (c : Fin 8) (s : State) : Frame [lanePart l] s (settleFreeze l c s) := by
  unfold settleFreeze
  refine Frame.comp ?_ (Frame.foldS _ _ _ fun _ _ => ?_)
  · exact Frame.refl _ _
  · refine Frame.under (modTap_only _ _ _ _) (by simp) ?_
    exact Frame.refl _ _

/-- What `freezeOnMode` can change. -/
theorem freezeOnMode_only (s : State) : Frame [.laneA, .laneB] s (freezeOnMode s) := by
  unfold freezeOnMode
  refine Frame.comp ?_ (Frame.foldS _ _ _ fun _ _ => ?_)
  · exact Frame.refl _ _
  · refine Frame.comp ?_ (Frame.foldS _ _ _ fun _ _ => ?_)
    · exact Frame.refl _ _
    · dsimp only
      refine Frame.under (freezeTaps_only _ _ _ _ _) (by repeat' first | exact sub_nil _ | (refine lanePart_mem _ ?_ ?_ <;> (simp; done)) | (refine sramPart_mem _ ?_ ?_ <;> (simp; done)) | refine sub_cons ?_ ?_ | (simp; done)) ?_
      exact Frame.refl _ _

/-- What `trcCtl` can change. -/
theorem trcCtl_only (l : Lane) (v : Word) (s : State) : Frame [lanePart l] s (trcCtl l v s) := by
  unfold trcCtl
  dsimp only
  refine Frame.under (modTap_only _ _ _ _) (by simp) ?_
  exact Frame.refl _ _

/-- What `execTrcCtlWrite` can change. -/
theorem execTrcCtlWrite_only (l : Lane) (v : Word) (s : State) : FrameOut [lanePart l] s (execTrcCtlWrite l v s) := by
  unfold execTrcCtlWrite
  refine FrameOut.next ?_
  refine Frame.under (trcCtl_only _ _ _) (by simp) ?_
  exact Frame.refl _ _

/-- What `failStep` can change. -/
theorem failStep_only (l : Lane) (c : Fin 8) (s : State) : Frame [.events, .board, .claim, lanePart l] s (failStep l c s) := by
  unfold failStep
  dsimp only
  refine Frame.comp ?_ (Frame.when ?_)
  · refine Frame.under (resumeRuns_only _ _) (by simp) ?_
    refine Frame.under (settleFreeze_only _ _ _) (by simp) ?_
    refine Frame.under (modCtx_only _ _ _ _) (by simp) ?_
    exact Frame.refl _ _
  · refine Frame.under (faultLane_only _ _ _) (by simp) ?_
    refine Frame.under (raise_only _ _ _) (by simp) ?_
    refine Frame.under (modEng_only _ _ _) (by simp) ?_
    exact Frame.refl _ _

/-- What `missStep` can change. -/
theorem missStep_only (l : Lane) (c : Fin 8) (s : State) : Frame [.events, .board, .claim, lanePart l] s (missStep l c s) := by
  unfold missStep
  refine Frame.under (failStep_only _ _ _) (by simp) ?_
  refine Frame.under (freezeTaps_only _ _ _ _ _) (by simp) ?_
  refine Frame.under (raise_only _ _ _) (by simp) ?_
  refine Frame.under (modCtx_only _ _ _ _) (by simp) ?_
  exact Frame.refl _ _

/-- What `execDeadlineMiss` can change. -/
theorem execDeadlineMiss_only (l : Lane) (ctx : Fin 8) (s : State) : FrameOut [.time, .events, .board, .claim, lanePart l] s (execDeadlineMiss l ctx s) := by
  unfold execDeadlineMiss
  dsimp only
  refine FrameOut.next ?_
  split
  · refine Frame.under (missStep_only _ _ _) (by simp) ?_
    refine Frame.under (elapseTo_only _ _) (by simp) ?_
    exact Frame.refl _ _
  · exact Frame.refl _ _

/-- What `triggerEng` can change. -/
theorem triggerEng_only (l : Lane) (c : Fin 8) (s : State) : Frame [.events, .board, .claim, lanePart l] s (triggerEng l c s) := by
  unfold triggerEng
  split
  · refine Frame.under (modCtx_only _ _ _ _) (by simp) ?_
    refine Frame.comp ?_ (Frame.when ?_)
    · exact Frame.refl _ _
    · refine Frame.under (missStep_only _ _ _) (by simp) ?_
      exact Frame.refl _ _
  · exact Frame.refl _ _

/-- What `loopTrigger` can change. -/
theorem loopTrigger_only (c : Fin 8) (leadNs : Nat) (s : State) : Frame [.time, .events, .board, .laneA, .laneB, .sramA, .sramB, .gate, .claim, .timebase] s (loopTrigger c leadNs s) := by
  unfold loopTrigger
  split
  · exact Frame.refl _ _
  · dsimp only
    refine Frame.comp ?_ (Frame.foldS _ _ _ fun _ _ => ?_)
    · refine Frame.under (scheduleNext_only _ _) (by simp) ?_
      refine Frame.under (modTime_only _ _) (by simp) ?_
      refine Frame.under (elapseToRaw_only _ _) (by simp) ?_
      exact Frame.refl _ _
    · split
      · refine Frame.under (alignCarriers_only _ _ _ _) (by repeat' first | exact sub_nil _ | (refine lanePart_mem _ ?_ ?_ <;> (simp; done)) | (refine sramPart_mem _ ?_ ?_ <;> (simp; done)) | refine sub_cons ?_ ?_ | (simp; done)) ?_
        refine Frame.under (triggerEng_only _ _ _) (by repeat' first | exact sub_nil _ | (refine lanePart_mem _ ?_ ?_ <;> (simp; done)) | (refine sramPart_mem _ ?_ ?_ <;> (simp; done)) | refine sub_cons ?_ ?_ | (simp; done)) ?_
        refine Frame.under (triggerMeas_only _ _ _ _) (by repeat' first | exact sub_nil _ | (refine lanePart_mem _ ?_ ?_ <;> (simp; done)) | (refine sramPart_mem _ ?_ ?_ <;> (simp; done)) | refine sub_cons ?_ ?_ | (simp; done)) ?_
        exact Frame.refl _ _
      · refine Frame.under (triggerEng_only _ _ _) (by repeat' first | exact sub_nil _ | (refine lanePart_mem _ ?_ ?_ <;> (simp; done)) | (refine sramPart_mem _ ?_ ?_ <;> (simp; done)) | refine sub_cons ?_ ?_ | (simp; done)) ?_
        refine Frame.under (triggerMeas_only _ _ _ _) (by repeat' first | exact sub_nil _ | (refine lanePart_mem _ ?_ ?_ <;> (simp; done)) | (refine sramPart_mem _ ?_ ?_ <;> (simp; done)) | refine sub_cons ?_ ?_ | (simp; done)) ?_
        exact Frame.refl _ _

/-- What `execLoopTrigger` can change. -/
theorem execLoopTrigger_only (ctx : Fin 8) (leadNs : Nat) (s : State) : FrameOut [.time, .events, .board, .laneA, .laneB, .sramA, .sramB, .gate, .claim, .timebase] s (execLoopTrigger ctx leadNs s) := by
  unfold execLoopTrigger
  refine FrameOut.next ?_
  refine Frame.under (loopTrigger_only _ _ _) (by simp) ?_
  exact Frame.refl _ _

/-- What `vectorIn` can change. -/
theorem vectorIn_only (l : Lane) (c : Fin 8) (given : List (Fin 32)) (s : State) : Frame [.events, .board, .claim, lanePart l] s (vectorIn l c given s) := by
  unfold vectorIn
  split
  · exact Frame.refl _ _
  · split
    · exact Frame.refl _ _
    · dsimp only
      refine Frame.comp ?_ (Frame.when ?_)
      · refine Frame.under (suspendLower_only _ _ _) (by simp) ?_
        refine Frame.under (modCtx_only _ _ _ _) (by simp) ?_
        refine Frame.comp ?_ (Frame.when ?_)
        · exact Frame.refl _ _
        · refine Frame.under (crcErrors_only _ _ _) (by simp) ?_
          exact Frame.refl _ _
      · refine Frame.under (raise_only _ _ _) (by simp) ?_
        refine Frame.under (modClaim_only _ _) (by simp) ?_
        exact Frame.refl _ _

/-- What `vectorDue` can change. -/
theorem vectorDue_only (c : Fin 8) (missA missB : List (Fin 32)) (s : State) : Frame [.time, .events, .board, .laneA, .laneB, .claim, .wear] s (vectorDue c missA missB s) := by
  unfold vectorDue
  dsimp only
  split
  · exact Frame.refl _ _
  · split
    · refine Frame.under (vectorIn_only _ _ _ _) (by repeat' first | exact sub_nil _ | (refine lanePart_mem _ ?_ ?_ <;> (simp; done)) | (refine sramPart_mem _ ?_ ?_ <;> (simp; done)) | refine sub_cons ?_ ?_ | (simp; done)) ?_
      refine Frame.under (vectorIn_only _ _ _ _) (by repeat' first | exact sub_nil _ | (refine lanePart_mem _ ?_ ?_ <;> (simp; done)) | (refine sramPart_mem _ ?_ ?_ <;> (simp; done)) | refine sub_cons ?_ ?_ | (simp; done)) ?_
      refine Frame.under (elapseTo_only _ _) (by simp) ?_
      exact Frame.refl _ _
    · refine Frame.under (crossCheck_only _ _) (by simp) ?_
      refine Frame.under (vectorIn_only _ _ _ _) (by repeat' first | exact sub_nil _ | (refine lanePart_mem _ ?_ ?_ <;> (simp; done)) | (refine sramPart_mem _ ?_ ?_ <;> (simp; done)) | refine sub_cons ?_ ?_ | (simp; done)) ?_
      refine Frame.under (vectorIn_only _ _ _ _) (by repeat' first | exact sub_nil _ | (refine lanePart_mem _ ?_ ?_ <;> (simp; done)) | (refine sramPart_mem _ ?_ ?_ <;> (simp; done)) | refine sub_cons ?_ ?_ | (simp; done)) ?_
      refine Frame.under (elapseTo_only _ _) (by simp) ?_
      exact Frame.refl _ _

/-- What `execVectorDue` can change. -/
theorem execVectorDue_only (ctx : Fin 8) (missA missB : List (Fin 32)) (s : State) : FrameOut [.time, .events, .board, .laneA, .laneB, .claim, .wear] s (execVectorDue ctx missA missB s) := by
  unfold execVectorDue
  refine FrameOut.next ?_
  refine Frame.under (vectorDue_only _ _ _ _) (by simp) ?_
  exact Frame.refl _ _

/-- What `loseUnit` can change. -/
theorem loseUnit_only (l : Lane) (u : Fin 18) (s : State) : Frame [.events, .board, .wear, lanePart l] s (loseUnit l u s) := by
  unfold loseUnit
  dsimp only
  split
  · exact Frame.refl _ _
  · split
    · refine Frame.under (modWear_only _ _) (by simp) ?_
      refine Frame.under (raise_only _ _ _) (by simp) ?_
      refine Frame.under (modEng_only _ _ _) (by simp) ?_
      exact Frame.refl _ _
    · split
      · refine Frame.under (hingeSwap_only _ _ _ _ _ _ _) (by simp) ?_
        refine Frame.under (raise_only _ _ _) (by simp) ?_
        refine Frame.under (raise_only _ _ _) (by simp) ?_
        refine Frame.under (modEng_only _ _ _) (by simp) ?_
        exact Frame.refl _ _
      · refine Frame.under (noSpare_only _ _ _ _ _ _) (by simp) ?_
        refine Frame.under (raise_only _ _ _) (by simp) ?_
        refine Frame.under (raise_only _ _ _) (by simp) ?_
        refine Frame.under (modEng_only _ _ _) (by simp) ?_
        exact Frame.refl _ _

/-- What `squash` can change. -/
theorem squash_only (l : Lane) (c : Fin 8) (s : State) : Frame [.events, .board, lanePart l] s (squash l c s) := by
  unfold squash
  split
  · exact Frame.refl _ _
  · refine Frame.under (raise_only _ _ _) (by simp) ?_
    refine Frame.under (modRaCtx_only _ _ _ _) (by simp) ?_
    exact Frame.refl _ _

/-- What `execFmaErr` can change. -/
theorem execFmaErr_only (l : Lane) (unit : Fin 18) (wh : FmaWhere) (s : State) : FrameOut [.events, .board, .claim, .wear, lanePart l] s (execFmaErr l unit wh s) := by
  unfold execFmaErr
  refine FrameOut.next ?_
  split
  · exact Frame.refl _ _
  · refine Frame.under (loseUnit_only _ _ _) (by simp) ?_
    split
    · split
      · refine Frame.under (failStep_only _ _ _) (by simp) ?_
        exact Frame.refl _ _
      · exact Frame.refl _ _
    · refine Frame.under (squash_only _ _ _) (by simp) ?_
      exact Frame.refl _ _
    · exact Frame.refl _ _

/-- What `execFmaTestPass` can change. -/
theorem execFmaTestPass_only (l : Lane) (failed : List (Fin 18)) (s : State) : FrameOut [.time, .events, .board, .wear, lanePart l] s (execFmaTestPass l failed s) := by
  unfold execFmaTestPass
  refine FrameOut.next ?_
  split
  · refine Frame.comp ?_ (Frame.foldS _ _ _ fun _ _ => ?_)
    · refine Frame.under (periodic_only _ _ _) (by simp) ?_
      exact Frame.refl _ _
    · refine Frame.under (loseUnit_only _ _ _) (by simp) ?_
      exact Frame.refl _ _
  · exact Frame.refl _ _

/-- What `addPend` can change. -/
theorem addPend_only (l : Lane) (c : Fin 8) (t : Option Nat) (w : PendWrite) (s : State) : Frame [lanePart l] s (addPend l c t w s) := by
  unfold addPend
  refine Frame.under (modCtx_only _ _ _ _) (by simp) ?_
  exact Frame.refl _ _

/-- What `coefWrite` can change. -/
theorem coefWrite_only (l : Lane) (v : Word) (s : State) : Frame [.events, .board, .claim, lanePart l] s (coefWrite l v s) := by
  unfold coefWrite
  dsimp only
  split
  · refine Frame.under (mirror_only _ _ _) (by simp) ?_
    refine Frame.under (addPend_only _ _ _ _ _) (by simp) ?_
    exact Frame.refl _ _
  · refine Frame.under (raise_only _ _ _) (by simp) ?_
    exact Frame.refl _ _

/-- What `execCoefWrite` can change. -/
theorem execCoefWrite_only (l : Lane) (v : Word) (s : State) : FrameOut [.events, .board, .claim, lanePart l] s (execCoefWrite l v s) := by
  unfold execCoefWrite
  refine FrameOut.next ?_
  refine Frame.under (coefWrite_only _ _ _) (by simp) ?_
  exact Frame.refl _ _

/-- What `rearmOsc` can change. -/
theorem rearmOsc_only (l : Lane) (c : Fin 8) (s : State) : Frame [lanePart l] s (rearmOsc l c s) := by
  unfold rearmOsc
  refine Frame.under (modCtx_only _ _ _ _) (by simp) ?_
  exact Frame.refl _ _

/-- What `bankSwapReq` can change. -/
theorem bankSwapReq_only (l : Lane) (s : State) : Frame [.events, .board, .claim, lanePart l] s (bankSwapReq l s) := by
  unfold bankSwapReq
  dsimp only
  split
  · refine Frame.under (raise_only _ _ _) (by simp) ?_
    exact Frame.refl _ _
  · split
    · refine Frame.under (raise_only _ _ _) (by simp) ?_
      exact Frame.refl _ _
    · refine Frame.under (mirror_only _ _ _) (by simp) ?_
      refine Frame.under (rearmOsc_only _ _ _) (by simp) ?_
      refine Frame.under (addPend_only _ _ _ _ _) (by simp) ?_
      exact Frame.refl _ _

/-- What `execBankSwapReq` can change. -/
theorem execBankSwapReq_only (l : Lane) (s : State) : FrameOut [.events, .board, .claim, lanePart l] s (execBankSwapReq l s) := by
  unfold execBankSwapReq
  refine FrameOut.next ?_
  refine Frame.under (bankSwapReq_only _ _) (by simp) ?_
  exact Frame.refl _ _

/-- What `coefArrival` can change. -/
theorem coefArrival_only (l : Lane) (c : Fin 8) (w : PendWrite) (s : State) : Frame [lanePart (otherLane l), lanePart l] s (coefArrival l c w s) := by
  unfold coefArrival
  dsimp only
  split
  · refine Frame.under (addPend_only _ _ _ _ _) (by simp) ?_
    refine Frame.under (modCtx_only _ _ _ _) (by simp) ?_
    exact Frame.refl _ _
  · refine Frame.under (rearmOsc_only _ _ _) (by simp) ?_
    refine Frame.under (addPend_only _ _ _ _ _) (by simp) ?_
    refine Frame.under (modCtx_only _ _ _ _) (by simp) ?_
    exact Frame.refl _ _

/-- What `applyPend` can change. -/
theorem applyPend_only (l : Lane) (c : Fin 8) (w : PendWrite) (s : State) : Frame [.events, .board, lanePart l] s (applyPend l c w s) := by
  unfold applyPend
  split
  · refine Frame.under (modEng_only _ _ _) (by simp) ?_
    exact Frame.refl _ _
  · refine Frame.under (raise_only _ _ _) (by simp) ?_
    refine Frame.under (modCtx_only _ _ _ _) (by simp) ?_
    exact Frame.refl _ _

/-- What `oscAct` can change. -/
theorem oscAct_only (l : Lane) (c : Fin 8) (action : Nat) (s : State) : Frame [.events, .board, .mode, .laneA, .laneB, .gate, .claim] s (oscAct l c action s) := by
  unfold oscAct
  dsimp only
  split
  · refine Frame.under (freezeTaps_only _ _ _ _ _) (by repeat' first | exact sub_nil _ | (refine lanePart_mem _ ?_ ?_ <;> (simp; done)) | (refine sramPart_mem _ ?_ ?_ <;> (simp; done)) | refine sub_cons ?_ ?_ | (simp; done)) ?_
    refine Frame.under (raise_only _ _ _) (by simp) ?_
    exact Frame.refl _ _
  · refine Frame.under (modCtx_only _ _ _ _) (by repeat' first | exact sub_nil _ | (refine lanePart_mem _ ?_ ?_ <;> (simp; done)) | (refine sramPart_mem _ ?_ ?_ <;> (simp; done)) | refine sub_cons ?_ ?_ | (simp; done)) ?_
    refine Frame.under (raiseIf_only _ _ _ _) (by simp) ?_
    refine Frame.under (freezeTaps_only _ _ _ _ _) (by repeat' first | exact sub_nil _ | (refine lanePart_mem _ ?_ ?_ <;> (simp; done)) | (refine sramPart_mem _ ?_ ?_ <;> (simp; done)) | refine sub_cons ?_ ?_ | (simp; done)) ?_
    refine Frame.under (raise_only _ _ _) (by simp) ?_
    exact Frame.refl _ _
  · refine Frame.under (setSource_only _ _ _) (by simp) ?_
    refine Frame.under (raise_only _ _ _) (by simp) ?_
    refine Frame.under (modCtx_only _ _ _ _) (by repeat' first | exact sub_nil _ | (refine lanePart_mem _ ?_ ?_ <;> (simp; done)) | (refine sramPart_mem _ ?_ ?_ <;> (simp; done)) | refine sub_cons ?_ ?_ | (simp; done)) ?_
    refine Frame.under (freezeTaps_only _ _ _ _ _) (by repeat' first | exact sub_nil _ | (refine lanePart_mem _ ?_ ?_ <;> (simp; done)) | (refine sramPart_mem _ ?_ ?_ <;> (simp; done)) | refine sub_cons ?_ ?_ | (simp; done)) ?_
    refine Frame.under (raise_only _ _ _) (by simp) ?_
    exact Frame.refl _ _

/-- What `oscWindowEnd` can change. -/
theorem oscWindowEnd_only (l : Lane) (c : Fin 8) (s : State) : Frame [.events, .board, .mode, .laneA, .laneB, .gate, .claim] s (oscWindowEnd l c s) := by
  unfold oscWindowEnd
  split
  · exact Frame.refl _ _
  · dsimp only
    split
    · exact Frame.refl _ _
    · refine Frame.comp ?_ (Frame.when ?_)
      · refine Frame.under (modCtx_only _ _ _ _) (by repeat' first | exact sub_nil _ | (refine lanePart_mem _ ?_ ?_ <;> (simp; done)) | (refine sramPart_mem _ ?_ ?_ <;> (simp; done)) | refine sub_cons ?_ ?_ | (simp; done)) ?_
        exact Frame.refl _ _
      · refine Frame.under (oscAct_only _ _ _ _) (by simp) ?_
        exact Frame.refl _ _

/-- What `execOscWindowEnd` can change. -/
theorem execOscWindowEnd_only (l : Lane) (ctx : Fin 8) (s : State) : FrameOut [.events, .board, .mode, .laneA, .laneB, .gate, .claim] s (execOscWindowEnd l ctx s) := by
  unfold execOscWindowEnd
  refine FrameOut.next ?_
  refine Frame.under (oscWindowEnd_only _ _ _) (by simp) ?_
  exact Frame.refl _ _

/-- What `specLevelIssue` can change. -/
theorem specLevelIssue_only (l : Lane) (c : Fin 8) (s : State) : Frame [.time, lanePart l] s (specLevelIssue l c s) := by
  unfold specLevelIssue
  split
  · exact Frame.refl _ _
  · split
    · split
      · refine Frame.under (modRaCtx_only _ _ _ _) (by simp) ?_
        refine Frame.under (advance_only _ _) (by simp) ?_
        exact Frame.refl _ _
      · exact Frame.refl _ _
    · refine Frame.under (modRaCtx_only _ _ _ _) (by simp) ?_
      exact Frame.refl _ _

/-- What `execSpecLevelIssue` can change. -/
theorem execSpecLevelIssue_only (l : Lane) (ctx : Fin 8) (s : State) : FrameOut [.time, lanePart l] s (execSpecLevelIssue l ctx s) := by
  unfold execSpecLevelIssue
  refine FrameOut.next ?_
  refine Frame.under (specLevelIssue_only _ _ _) (by simp) ?_
  exact Frame.refl _ _

/-- What `saveCheckpoint` can change. -/
theorem saveCheckpoint_only (l : Lane) (c : Fin 8) (h : Nat) (nodes : List (Nat × Word)) (s : State) : Frame [lanePart l] s (saveCheckpoint l c h nodes s) := by
  unfold saveCheckpoint
  split
  · exact Frame.refl _ _
  · refine Frame.under (modRa_only _ _ _) (by simp) ?_
    exact Frame.refl _ _

/-- What `specTrace` can change. -/
theorem specTrace_only (l : Lane) (c : Fin 8) (g : Graph) (j : SpecJob) (nodes : List (Nat × Word)) (s : State) : Frame [lanePart l, sramPart l] s (specTrace l c g j nodes s) := by
  unfold specTrace
  dsimp only
  refine Frame.comp ?_ (Frame.foldS _ _ _ fun _ _ => ?_)
  · exact Frame.refl _ _
  · split
    · split
      · refine Frame.under (traceWrite_only _ _ _ _ _ _ _ _ _) (by simp) ?_
        exact Frame.refl _ _
      · refine Frame.under (traceWrite_only _ _ _ _ _ _ _ _ _) (by simp) ?_
        exact Frame.refl _ _
    · exact Frame.refl _ _

/-- What `noteSubs` can change. -/
theorem noteSubs_only (l : Lane) (c : Fin 8) (n : Nat) (s : State) : Frame [.events, .board, lanePart l] s (noteSubs l c n s) := by
  unfold noteSubs
  split
  · exact Frame.refl _ _
  · refine Frame.under (raise_only _ _ _) (by simp) ?_
    refine Frame.under (modCtx_only _ _ _ _) (by simp) ?_
    exact Frame.refl _ _

/-- What `keepJob` can change. -/
theorem keepJob_only (l : Lane) (c : Fin 8) (g : Graph) (j : SpecJob) (r : SpecResult) (s : State) : Frame [lanePart l] s (keepJob l c g j r s) := by
  unfold keepJob
  dsimp only
  split
  · refine Frame.under (saveCheckpoint_only _ _ _ _ _) (by simp) ?_
    refine Frame.under (modRaCtx_only _ _ _ _) (by simp) ?_
    exact Frame.refl _ _
  · refine Frame.under (modRaCtx_only _ _ _ _) (by simp) ?_
    exact Frame.refl _ _
  · refine Frame.under (modRaCtx_only _ _ _ _) (by simp) ?_
    exact Frame.refl _ _

/-- What `specStepDone` can change. -/
theorem specStepDone_only (l : Lane) (c : Fin 8) (s : State) : Frame [.time, .events, .board, lanePart l, sramPart l] s (specStepDone l c s) := by
  unfold specStepDone
  split
  · dsimp only
    split
    · exact Frame.refl _ _
    · split
      · split
        · refine Frame.under (modRaCtx_only _ _ _ _) (by simp) ?_
          exact Frame.refl _ _
        · refine Frame.under (specTrace_only _ _ _ _ _ _) (by simp) ?_
          refine Frame.comp ?_ (Frame.when ?_)
          · refine Frame.under (keepJob_only _ _ _ _ _ _) (by simp) ?_
            refine Frame.under (modRaCtx_only _ _ _ _) (by simp) ?_
            refine Frame.under (advance_only _ _) (by simp) ?_
            exact Frame.refl _ _
          · refine Frame.under (noteSubs_only _ _ _ _) (by simp) ?_
            exact Frame.refl _ _
      · split
        · refine Frame.under (modRaCtx_only _ _ _ _) (by simp) ?_
          exact Frame.refl _ _
        · refine Frame.under (specTrace_only _ _ _ _ _ _) (by simp) ?_
          refine Frame.comp ?_ (Frame.when ?_)
          · refine Frame.under (keepJob_only _ _ _ _ _ _) (by simp) ?_
            refine Frame.under (modRaCtx_only _ _ _ _) (by simp) ?_
            refine Frame.under (advance_only _ _) (by simp) ?_
            exact Frame.refl _ _
          · refine Frame.under (noteSubs_only _ _ _ _) (by simp) ?_
            exact Frame.refl _ _
  · exact Frame.refl _ _

/-- What `execSpecStepDone` can change. -/
theorem execSpecStepDone_only (l : Lane) (ctx : Fin 8) (s : State) : FrameOut [.time, .events, .board, lanePart l, sramPart l] s (execSpecStepDone l ctx s) := by
  unfold execSpecStepDone
  refine FrameOut.next ?_
  refine Frame.under (specStepDone_only _ _ _) (by simp) ?_
  exact Frame.refl _ _

/-- What `releaseSlots` can change. -/
theorem releaseSlots_only (l : Lane) (c : Fin 8) (s : State) : Frame [lanePart l] s (releaseSlots l c s) := by
  unfold releaseSlots
  refine Frame.under (modRa_only _ _ _) (by simp) ?_
  exact Frame.refl _ _

/-- What `clearSets` can change. -/
theorem clearSets_only (l : Lane) (c : Fin 8) (s : State) : Frame [lanePart l] s (clearSets l c s) := by
  unfold clearSets
  refine Frame.under (releaseSlots_only _ _ _) (by simp) ?_
  refine Frame.under (modRaCtx_only _ _ _ _) (by simp) ?_
  exact Frame.refl _ _

/-- What `raInvalidate` can change. -/
theorem raInvalidate_only (l : Lane) (c : Fin 8) (s : State) : Frame [.events, .board, lanePart l] s (raInvalidate l c s) := by
  unfold raInvalidate
  split
  · refine Frame.under (modRaCtx_only _ _ _ _) (by simp) ?_
    refine Frame.under (clearSets_only _ _ _) (by simp) ?_
    refine Frame.under (squash_only _ _ _) (by simp) ?_
    exact Frame.refl _ _
  · exact Frame.refl _ _

/-- What `raStart` can change. -/
theorem raStart_only (l : Lane) (c : Fin 8) (s : State) : Frame [lanePart l] s (raStart l c s) := by
  unfold raStart
  split
  · refine Frame.under (modRaCtx_only _ _ _ _) (by simp) ?_
    refine Frame.under (clearSets_only _ _ _) (by simp) ?_
    exact Frame.refl _ _
  · exact Frame.refl _ _

/-- What `raStop` can change. -/
theorem raStop_only (l : Lane) (c : Fin 8) (s : State) : Frame [.events, .board, lanePart l] s (raStop l c s) := by
  unfold raStop
  split
  · refine Frame.under (modRaCtx_only _ _ _ _) (by simp) ?_
    refine Frame.under (clearSets_only _ _ _) (by simp) ?_
    refine Frame.under (squash_only _ _ _) (by simp) ?_
    exact Frame.refl _ _
  · exact Frame.refl _ _

/-- What `raMode` can change. -/
theorem raMode_only (s : State) : Frame [.events, .board, .laneA, .laneB] s (raMode s) := by
  unfold raMode
  dsimp only
  refine Frame.comp ?_ (Frame.foldS _ _ _ fun _ _ => ?_)
  · exact Frame.refl _ _
  · refine Frame.comp ?_ (Frame.foldS _ _ _ fun _ _ => ?_)
    · exact Frame.refl _ _
    · split
      · refine Frame.under (raStart_only _ _ _) (by repeat' first | exact sub_nil _ | (refine lanePart_mem _ ?_ ?_ <;> (simp; done)) | (refine sramPart_mem _ ?_ ?_ <;> (simp; done)) | refine sub_cons ?_ ?_ | (simp; done)) ?_
        exact Frame.refl _ _
      · refine Frame.under (raStop_only _ _ _) (by repeat' first | exact sub_nil _ | (refine lanePart_mem _ ?_ ?_ <;> (simp; done)) | (refine sramPart_mem _ ?_ ?_ <;> (simp; done)) | refine sub_cons ?_ ?_ | (simp; done)) ?_
        exact Frame.refl _ _

/-- What `loopParam` can change. -/
theorem loopParam_only (l : Lane) (i : Nat) (v : Word) (s : State) : Frame [.events, .board, lanePart l] s (loopParam l i v s) := by
  unfold loopParam
  split
  · refine Frame.under (modGf_only _ _ _) (by simp) ?_
    exact Frame.refl _ _
  · refine Frame.under (raise_only _ _ _) (by simp) ?_
    exact Frame.refl _ _

/-- What `writeOutput` can change. -/
theorem writeOutput_only (l : Lane) (off : Nat) (v : Word) (s : State) : Frame [.events, .board, lanePart l] s (writeOutput l off v s) := by
  unfold writeOutput
  split
  · refine Frame.under (loopParam_only _ _ _ _) (by simp) ?_
    exact Frame.refl _ _
  · dsimp only
    split
    · refine Frame.under (stagePer_only _ _ _ _) (by simp) ?_
      exact Frame.refl _ _
    · refine Frame.under (stageDuty_only _ _ _ _) (by simp) ?_
      exact Frame.refl _ _
    · refine Frame.under (stageDutyf_only _ _ _ _) (by simp) ?_
      exact Frame.refl _ _

/-- What `classifyTriad` can change. -/
theorem classifyTriad_only (l : Lane) (c : Fin 8) (j : Fin 4) (s : State) : Frame [lanePart l] s (classifyTriad l c j s) := by
  unfold classifyTriad
  split
  · dsimp only
    refine Frame.under (modRaCtx_only _ _ _ _) (by simp) ?_
    exact Frame.refl _ _
  · exact Frame.refl _ _

/-- What `countUnqual` can change. -/
theorem countUnqual_only (l : Lane) (c : Fin 8) (t : Fin 3) (s : State) : Frame [lanePart l] s (countUnqual l c t s) := by
  unfold countUnqual
  dsimp only
  refine Frame.under (modRaCtx_only _ _ _ _) (by simp) ?_
  exact Frame.refl _ _

/-- What `classify` can change. -/
theorem classify_only (l : Lane) (pin : Fin 32) (s : State) : Frame [lanePart l] s (classify l pin s) := by
  unfold classify
  refine Frame.comp ?_ (Frame.foldS _ _ _ fun _ _ => ?_)
  · exact Frame.refl _ _
  · split
    · dsimp only
      refine Frame.comp ?_ (Frame.when ?_)
      · refine Frame.comp ?_ (Frame.foldS _ _ _ fun _ _ => ?_)
        · exact Frame.refl _ _
        · split
          · refine Frame.under (classifyTriad_only _ _ _ _) (by simp) ?_
            exact Frame.refl _ _
          · exact Frame.refl _ _
      · refine Frame.comp ?_ (Frame.foldS _ _ _ fun _ _ => ?_)
        · exact Frame.refl _ _
        · refine Frame.under (countUnqual_only _ _ _ _) (by simp) ?_
          exact Frame.refl _ _
    · exact Frame.refl _ _

/-- What `branchTrace` can change. -/
theorem branchTrace_only (l : Lane) (c : Fin 8) (t : Fin 3) (b : BranchOut) (s : State) : Frame [lanePart l, sramPart l] s (branchTrace l c t b s) := by
  unfold branchTrace
  dsimp only
  refine Frame.comp ?_ (Frame.foldS _ _ _ fun _ _ => ?_)
  · exact Frame.refl _ _
  · split
    · refine Frame.under (traceWrite_only _ _ _ _ _ _ _ _ _) (by simp) ?_
      exact Frame.refl _ _
    · exact Frame.refl _ _

/-- What `reportCommit` can change. -/
theorem reportCommit_only (l : Lane) (c : Fin 8) (t : Fin 3) (s : State) : Frame [lanePart (otherLane l), lanePart l] s (reportCommit l c t s) := by
  unfold reportCommit
  dsimp only
  split
  · refine Frame.under (modRa_only _ _ _) (by simp) ?_
    exact Frame.refl _ _
  · refine Frame.under (modRa_only _ _ _) (by simp) ?_
    exact Frame.refl _ _

/-- What `commitBranch` can change. -/
theorem commitBranch_only (l : Lane) (c : Fin 8) (t : Fin 3) (b : BranchOut) (s : State) : Frame [.events, .board, .laneA, .laneB, .gate, sramPart l] s (commitBranch l c t b s) := by
  unfold commitBranch
  dsimp only
  refine Frame.under (reportCommit_only _ _ _ _) (by repeat' first | exact sub_nil _ | (refine lanePart_mem _ ?_ ?_ <;> (simp; done)) | (refine sramPart_mem _ ?_ ?_ <;> (simp; done)) | refine sub_cons ?_ ?_ | (simp; done)) ?_
  refine Frame.under (branchTrace_only _ _ _ _ _) (by repeat' first | exact sub_nil _ | (refine lanePart_mem _ ?_ ?_ <;> (simp; done)) | (refine sramPart_mem _ ?_ ?_ <;> (simp; done)) | refine sub_cons ?_ ?_ | (simp; done)) ?_
  refine Frame.under (raiseIf_only _ _ _ _) (by simp) ?_
  refine Frame.under (modRaCtx_only _ _ _ _) (by repeat' first | exact sub_nil _ | (refine lanePart_mem _ ?_ ?_ <;> (simp; done)) | (refine sramPart_mem _ ?_ ?_ <;> (simp; done)) | refine sub_cons ?_ ?_ | (simp; done)) ?_
  refine Frame.comp ?_ (Frame.when ?_)
  · exact Frame.refl _ _
  · unfold writeOutputs
    refine Frame.comp ?_ (Frame.foldS _ _ _ fun _ _ => ?_)
    · refine Frame.comp ?_ (Frame.foldS _ _ _ fun _ _ => ?_)
      · exact Frame.refl _ _
      · refine Frame.under (writeOutput_only _ _ _ _) (by repeat' first | exact sub_nil _ | (refine lanePart_mem _ ?_ ?_ <;> (simp; done)) | (refine sramPart_mem _ ?_ ?_ <;> (simp; done)) | refine sub_cons ?_ ?_ | (simp; done)) ?_
        exact Frame.refl _ _
    · refine Frame.under (branchToken_only _ _ _) (by repeat' first | exact sub_nil _ | (refine lanePart_mem _ ?_ ?_ <;> (simp; done)) | (refine sramPart_mem _ ?_ ?_ <;> (simp; done)) | refine sub_cons ?_ ?_ | (simp; done)) ?_
      exact Frame.refl _ _

/-- What `branchMark` can change. -/
theorem branchMark_only (l : Lane) (t : Fin 3) (tag : Nat) (ctxs : Nat) (s : State) : Frame [.events, .board, lanePart l, sramPart l] s (branchMark l t tag ctxs s) := by
  unfold branchMark
  refine Frame.under (recMark_only _ _ _ _ _ _ _ _) (by simp) ?_
  exact Frame.refl _ _

/-- What `branchCommit` can change. -/
theorem branchCommit_only (l : Lane) (t : Fin 3) (src : BranchSource) (latency : Nat) (s : State) : Frame [.time, .events, .board, .mode, .laneA, .laneB, .gate, sramPart l] s (branchCommit l t src latency s) := by
  unfold branchCommit
  dsimp only
  split
  · exact Frame.refl _ _
  · split
    · refine Frame.under (branchMark_only _ _ _ _ _) (by repeat' first | exact sub_nil _ | (refine lanePart_mem _ ?_ ?_ <;> (simp; done)) | (refine sramPart_mem _ ?_ ?_ <;> (simp; done)) | refine sub_cons ?_ ?_ | (simp; done)) ?_
      refine Frame.comp ?_ (Frame.when ?_)
      · refine Frame.under (elapseTo_only _ _) (by simp) ?_
        exact Frame.refl _ _
      · refine Frame.comp ?_ (Frame.foldS _ _ _ fun _ _ => ?_)
        · exact Frame.refl _ _
        · refine Frame.under (raise_only _ _ _) (by simp) ?_
          refine Frame.under (modRaCtx_only _ _ _ _) (by repeat' first | exact sub_nil _ | (refine lanePart_mem _ ?_ ?_ <;> (simp; done)) | (refine sramPart_mem _ ?_ ?_ <;> (simp; done)) | refine sub_cons ?_ ?_ | (simp; done)) ?_
          exact Frame.refl _ _
    · split
      · refine Frame.under (branchMark_only _ _ _ _ _) (by repeat' first | exact sub_nil _ | (refine lanePart_mem _ ?_ ?_ <;> (simp; done)) | (refine sramPart_mem _ ?_ ?_ <;> (simp; done)) | refine sub_cons ?_ ?_ | (simp; done)) ?_
        refine Frame.comp ?_ (Frame.when ?_)
        · refine Frame.under (elapseTo_only _ _) (by simp) ?_
          exact Frame.refl _ _
        · refine Frame.comp ?_ (Frame.foldS _ _ _ fun _ _ => ?_)
          · exact Frame.refl _ _
          · refine Frame.under (raise_only _ _ _) (by simp) ?_
            refine Frame.under (modRaCtx_only _ _ _ _) (by repeat' first | exact sub_nil _ | (refine lanePart_mem _ ?_ ?_ <;> (simp; done)) | (refine sramPart_mem _ ?_ ?_ <;> (simp; done)) | refine sub_cons ?_ ?_ | (simp; done)) ?_
            exact Frame.refl _ _
      · refine Frame.under (trigger_only _ _) (by simp) ?_
        refine Frame.under (noteTrig_only _ _ _ _) (by repeat' first | exact sub_nil _ | (refine lanePart_mem _ ?_ ?_ <;> (simp; done)) | (refine sramPart_mem _ ?_ ?_ <;> (simp; done)) | refine sub_cons ?_ ?_ | (simp; done)) ?_
        refine Frame.under (branchMark_only _ _ _ _ _) (by repeat' first | exact sub_nil _ | (refine lanePart_mem _ ?_ ?_ <;> (simp; done)) | (refine sramPart_mem _ ?_ ?_ <;> (simp; done)) | refine sub_cons ?_ ?_ | (simp; done)) ?_
        refine Frame.under (raise_only _ _ _) (by simp) ?_
        refine Frame.under (modRa_only _ _ _) (by repeat' first | exact sub_nil _ | (refine lanePart_mem _ ?_ ?_ <;> (simp; done)) | (refine sramPart_mem _ ?_ ?_ <;> (simp; done)) | refine sub_cons ?_ ?_ | (simp; done)) ?_
        refine Frame.comp ?_ (Frame.foldS _ _ _ fun _ _ => ?_)
        · refine Frame.comp ?_ (Frame.when ?_)
          · refine Frame.under (elapseTo_only _ _) (by simp) ?_
            exact Frame.refl _ _
          · refine Frame.comp ?_ (Frame.foldS _ _ _ fun _ _ => ?_)
            · exact Frame.refl _ _
            · refine Frame.under (raise_only _ _ _) (by simp) ?_
              refine Frame.under (modRaCtx_only _ _ _ _) (by repeat' first | exact sub_nil _ | (refine lanePart_mem _ ?_ ?_ <;> (simp; done)) | (refine sramPart_mem _ ?_ ?_ <;> (simp; done)) | refine sub_cons ?_ ?_ | (simp; done)) ?_
              exact Frame.refl _ _
        · split
          · exact Frame.refl _ _
          · refine Frame.under (commitBranch_only _ _ _ _ _) (by simp) ?_
            exact Frame.refl _ _

/-- What `execBranchCommit` can change. -/
theorem execBranchCommit_only (l : Lane) (tpl : Fin 3) (src : BranchSource) (latency : Nat) (s : State) : FrameOut [.time, .events, .board, .mode, .laneA, .laneB, .gate, sramPart l] s (execBranchCommit l tpl src latency s) := by
  unfold execBranchCommit
  refine FrameOut.next ?_
  refine Frame.under (branchCommit_only _ _ _ _ _) (by simp) ?_
  exact Frame.refl _ _

/-- What `laneDiff` can change. -/
theorem laneDiff_only (l : Lane) (c : Fin 8) (t : Fin 3) (s : State) : Frame [.time, .events, .board, lanePart l] s (laneDiff l c t s) := by
  unfold laneDiff
  dsimp only
  split
  · exact Frame.refl _ _
  · refine Frame.under (raise_only _ _ _) (by simp) ?_
    refine Frame.under (modRa_only _ _ _) (by simp) ?_
    refine Frame.under (elapseTo_only _ _) (by simp) ?_
    exact Frame.refl _ _

/-- What `execLaneDiff` can change. -/
theorem execLaneDiff_only (l : Lane) (ctx : Fin 8) (tpl : Fin 3) (s : State) : FrameOut [.time, .events, .board, lanePart l] s (execLaneDiff l ctx tpl s) := by
  unfold execLaneDiff
  refine FrameOut.next ?_
  refine Frame.under (laneDiff_only _ _ _ _) (by simp) ?_
  exact Frame.refl _ _

/-- What `setInhibit` can change. -/
theorem setInhibit_only (l : Lane) (v : Word) (s : State) : Frame [lanePart l] s (setInhibit l v s) := by
  unfold setInhibit
  refine Frame.under (modRa_only _ _ _) (by simp) ?_
  exact Frame.refl _ _

/-- What `raCtlWrite` can change. -/
theorem raCtlWrite_only (l : Lane) (v : Word) (s : State) : Frame [.claim, lanePart l] s (raCtlWrite l v s) := by
  unfold raCtlWrite
  refine Frame.under (mirror_only _ _ _) (by simp) ?_
  refine Frame.under (setInhibit_only _ _ _) (by simp) ?_
  exact Frame.refl _ _

/-- What `execRaCtlWrite` can change. -/
theorem execRaCtlWrite_only (l : Lane) (v : Word) (s : State) : FrameOut [.claim, lanePart l] s (execRaCtlWrite l v s) := by
  unfold execRaCtlWrite
  refine FrameOut.next ?_
  refine Frame.under (raCtlWrite_only _ _ _) (by simp) ?_
  exact Frame.refl _ _

/-- What `raCommit` can change. -/
theorem raCommit_only (l : Lane) (c : Fin 8) (inputs : List Word) (s : State) : Frame [.events, .board, lanePart l] s (raCommit l c inputs s) := by
  unfold raCommit
  split
  · exact Frame.refl _ _
  · dsimp only
    split
    · refine Frame.under (modRaCtx_only _ _ _ _) (by simp) ?_
      exact Frame.refl _ _
    · refine Frame.under (raiseIf_only _ _ _ _) (by simp) ?_
      refine Frame.under (modRaCtx_only _ _ _ _) (by simp) ?_
      refine Frame.under (releaseSlots_only _ _ _) (by simp) ?_
      refine Frame.under (squash_only _ _ _) (by simp) ?_
      refine Frame.under (raiseIf_only _ _ _ _) (by simp) ?_
      exact Frame.refl _ _

/-- What `modIn` can change. -/
theorem modIn_only (i : Fin 16) (f : FieldIn → FieldIn) (s : State) : Frame [.fio] s (modIn i f s) := by
  unfold modIn
  refine Frame.under (modFio_only _ _) (by simp) ?_
  exact Frame.refl _ _

/-- What `modDq` can change. -/
theorem modDq_only (j : Fin 8) (f : FieldOut → FieldOut) (s : State) : Frame [.fio] s (modDq j f s) := by
  unfold modDq
  refine Frame.under (modFio_only _ _) (by simp) ?_
  exact Frame.refl _ _

/-- What `diChange` can change. -/
theorem diChange_only (i : Fin 16) (level : Bool) (holdUs : Nat) (stamp : Long) (s : State) : Frame [.time, .fio] s (diChange i level holdUs stamp s) := by
  unfold diChange
  split
  · exact Frame.refl _ _
  · dsimp only
    refine Frame.under (modIn_only _ _ _) (by simp) ?_
    split
    · exact Frame.refl _ _
    · refine Frame.under (elapseTo_only _ _) (by simp) ?_
      exact Frame.refl _ _

/-- What `execDiChange` can change. -/
theorem execDiChange_only (i : Fin 16) (level : Bool) (holdUs : Nat) (stamp : Long) (s : State) : FrameOut [.time, .fio] s (execDiChange i level holdUs stamp s) := by
  unfold execDiChange
  refine FrameOut.next ?_
  refine Frame.under (diChange_only _ _ _ _ _) (by simp) ?_
  exact Frame.refl _ _

/-- What `wireBreak` can change. -/
theorem wireBreak_only (i : Fin 16) (ua10 holdUs : Nat) (s : State) : Frame [.events, .board, .fio] s (wireBreak i ua10 holdUs s) := by
  unfold wireBreak
  split
  · exact Frame.refl _ _
  · dsimp only
    refine Frame.under (raiseIf_only _ _ _ _) (by simp) ?_
    refine Frame.under (modIn_only _ _ _) (by simp) ?_
    exact Frame.refl _ _

/-- What `execWireBreak` can change. -/
theorem execWireBreak_only (i : Fin 16) (ua10 holdUs : Nat) (s : State) : FrameOut [.events, .board, .fio] s (execWireBreak i ua10 holdUs s) := by
  unfold execWireBreak
  refine FrameOut.next ?_
  refine Frame.under (wireBreak_only _ _ _ _) (by simp) ?_
  exact Frame.refl _ _

/-- What `dqDemand` can change. -/
theorem dqDemand_only (j : Fin 8) (s : State) : Frame [.events, .board, .fio] s (dqDemand j s) := by
  unfold dqDemand
  split
  · refine Frame.under (raise_only _ _ _) (by simp) ?_
    refine Frame.under (modFio_only _ _) (by simp) ?_
    exact Frame.refl _ _
  · exact Frame.refl _ _

/-- What `setFn` can change. -/
theorem setFn_only (j : Fin 8) (b : Bool) (s : State) : Frame [.events, .board, .fio] s (setFn j b s) := by
  unfold setFn
  split
  · exact Frame.refl _ _
  · refine Frame.under (modDq_only _ _ _) (by simp) ?_
    refine Frame.under (dqDemand_only _ _) (by simp) ?_
    exact Frame.refl _ _

/-- What `refreshFn` can change. -/
theorem refreshFn_only (s : State) : Frame [.events, .board, .fio] s (refreshFn s) := by
  unfold refreshFn
  refine Frame.comp ?_ (Frame.foldS _ _ _ fun _ _ => ?_)
  · exact Frame.refl _ _
  · split
    · refine Frame.under (setFn_only _ _ _) (by simp) ?_
      exact Frame.refl _ _
    · exact Frame.refl _ _

/-- What `fioDqset` can change. -/
theorem fioDqset_only (v : Word) (s : State) : Frame [.events, .board, .fio] s (fioDqset v s) := by
  unfold fioDqset
  dsimp only
  refine Frame.under (raiseIf_only _ _ _ _) (by simp) ?_
  refine Frame.comp ?_ (Frame.foldS _ _ _ fun _ _ => ?_)
  · exact Frame.refl _ _
  · split
    · refine Frame.under (modDq_only _ _ _) (by simp) ?_
      refine Frame.under (dqDemand_only _ _) (by simp) ?_
      exact Frame.refl _ _
    · exact Frame.refl _ _

/-- What `execFioDqset` can change. -/
theorem execFioDqset_only (v : Word) (s : State) : FrameOut [.events, .board, .fio] s (execFioDqset v s) := by
  unfold execFioDqset
  refine FrameOut.next ?_
  refine Frame.under (fioDqset_only _ _) (by simp) ?_
  exact Frame.refl _ _

/-- What `execOutOvl` can change. -/
theorem execOutOvl_only (j : Fin 8) (inLimit thermal : Bool) (s : State) : FrameOut [.events, .board, .fio] s (execOutOvl j inLimit thermal s) := by
  unfold execOutOvl
  dsimp only
  refine FrameOut.next ?_
  split
  · exact Frame.refl _ _
  · refine Frame.under (raiseIf_only _ _ _ _) (by simp) ?_
    refine Frame.under (modDq_only _ _ _) (by simp) ?_
    exact Frame.refl _ _

/-- What `execCoolingRestart` can change. -/
theorem execCoolingRestart_only (j : Fin 8) (s : State) : FrameOut [.fio] s (execCoolingRestart j s) := by
  unfold execCoolingRestart
  refine FrameOut.next ?_
  refine Frame.under (modDq_only _ _ _) (by simp) ?_
  exact Frame.refl _ _

/-- What `extDrive` can change. -/
theorem extDrive_only (j : Fin 8) (mv : Int) (holdUs : Nat) (s : State) : Frame [.events, .board, .fio] s (extDrive j mv holdUs s) := by
  unfold extDrive
  dsimp only
  split
  · exact Frame.refl _ _
  · split
    · refine Frame.under (modDq_only _ _ _) (by simp) ?_
      exact Frame.refl _ _
    · split
      · split
        · refine Frame.under (raiseIf_only _ _ _ _) (by simp) ?_
          refine Frame.under (modDq_only _ _ _) (by simp) ?_
          exact Frame.refl _ _
        · exact Frame.refl _ _
      · split
        · refine Frame.under (raiseIf_only _ _ _ _) (by simp) ?_
          refine Frame.under (modDq_only _ _ _) (by simp) ?_
          exact Frame.refl _ _
        · exact Frame.refl _ _

/-- What `execExtDrive` can change. -/
theorem execExtDrive_only (j : Fin 8) (mv : Int) (holdUs : Nat) (s : State) : FrameOut [.events, .board, .fio] s (execExtDrive j mv holdUs s) := by
  unfold execExtDrive
  refine FrameOut.next ?_
  refine Frame.under (extDrive_only _ _ _ _) (by simp) ?_
  exact Frame.refl _ _

/-- What `fioExchange` can change. -/
theorem fioExchange_only (pinsMv : List Int) (s : State) : Frame [.time, .fio] s (fioExchange pinsMv s) := by
  unfold fioExchange
  split
  · exact Frame.refl _ _
  · dsimp only
    refine Frame.comp ?_ (Frame.foldS _ _ _ fun _ _ => ?_)
    · refine Frame.under (modFio_only _ _) (by simp) ?_
      refine Frame.under (periodic_only _ _ _) (by simp) ?_
      exact Frame.refl _ _
    · refine Frame.under (modDq_only _ _ _) (by simp) ?_
      exact Frame.refl _ _

/-- What `execFioExchange` can change. -/
theorem execFioExchange_only (pinsMv : List Int) (s : State) : FrameOut [.time, .fio] s (execFioExchange pinsMv s) := by
  unfold execFioExchange
  refine FrameOut.next ?_
  refine Frame.under (fioExchange_only _ _) (by simp) ?_
  exact Frame.refl _ _

/-- What `execFioLink` can change. -/
theorem execFioLink_only (s : State) : FrameOut [.time, .events, .board, .fio] s (execFioLink s) := by
  unfold execFioLink
  refine FrameOut.next ?_
  split
  · refine Frame.under (raise_only _ _ _) (by simp) ?_
    refine Frame.under (modFio_only _ _) (by simp) ?_
    refine Frame.under (elapseTo_only _ _) (by simp) ?_
    exact Frame.refl _ _
  · exact Frame.refl _ _

/-- What `enterLost` can change. -/
theorem enterLost_only (mv : Int) (s : State) : Frame [.events, .board, .fio] s (enterLost mv s) := by
  unfold enterLost
  dsimp only
  refine Frame.under (raiseIf_only _ _ _ _) (by simp) ?_
  refine Frame.under (modFio_only _ _) (by simp) ?_
  refine Frame.comp ?_ (Frame.foldS _ _ _ fun _ _ => ?_)
  · refine Frame.comp ?_ (Frame.foldS _ _ _ fun _ _ => ?_)
    · exact Frame.refl _ _
    · refine Frame.under (modDq_only _ _ _) (by simp) ?_
      exact Frame.refl _ _
  · refine Frame.under (modIn_only _ _ _) (by simp) ?_
    exact Frame.refl _ _

/-- What `supplyAt` can change. -/
theorem supplyAt_only (mv : Int) (s : State) : Frame [.events, .board, .fio] s (supplyAt mv s) := by
  unfold supplyAt
  dsimp only
  split
  · split
    · refine Frame.under (modFio_only _ _) (by simp) ?_
      refine Frame.under (modFio_only _ _) (by simp) ?_
      exact Frame.refl _ _
    · refine Frame.under (modFio_only _ _) (by simp) ?_
      exact Frame.refl _ _
  · split
    · split
      · refine Frame.under (enterLost_only _ _) (by simp) ?_
        refine Frame.under (modFio_only _ _) (by simp) ?_
        exact Frame.refl _ _
      · split
        · refine Frame.under (modFio_only _ _) (by simp) ?_
          refine Frame.under (modFio_only _ _) (by simp) ?_
          exact Frame.refl _ _
        · refine Frame.under (modFio_only _ _) (by simp) ?_
          refine Frame.under (modFio_only _ _) (by simp) ?_
          exact Frame.refl _ _
    · split
      · refine Frame.under (enterLost_only _ _) (by simp) ?_
        refine Frame.under (modFio_only _ _) (by simp) ?_
        exact Frame.refl _ _
      · split
        · refine Frame.under (modFio_only _ _) (by simp) ?_
          refine Frame.under (modFio_only _ _) (by simp) ?_
          exact Frame.refl _ _
        · refine Frame.under (modFio_only _ _) (by simp) ?_
          refine Frame.under (modFio_only _ _) (by simp) ?_
          exact Frame.refl _ _
  · split
    · split
      · refine Frame.under (enterLost_only _ _) (by simp) ?_
        refine Frame.under (modFio_only _ _) (by simp) ?_
        exact Frame.refl _ _
      · split
        · refine Frame.under (raise_only _ _ _) (by simp) ?_
          refine Frame.under (modFio_only _ _) (by simp) ?_
          refine Frame.under (modFio_only _ _) (by simp) ?_
          exact Frame.refl _ _
        · refine Frame.under (modFio_only _ _) (by simp) ?_
          exact Frame.refl _ _
    · split
      · refine Frame.under (enterLost_only _ _) (by simp) ?_
        refine Frame.under (modFio_only _ _) (by simp) ?_
        exact Frame.refl _ _
      · split
        · refine Frame.under (raise_only _ _ _) (by simp) ?_
          refine Frame.under (modFio_only _ _) (by simp) ?_
          refine Frame.under (modFio_only _ _) (by simp) ?_
          exact Frame.refl _ _
        · refine Frame.under (modFio_only _ _) (by simp) ?_
          exact Frame.refl _ _
  · split
    · split
      · refine Frame.under (enterLost_only _ _) (by simp) ?_
        refine Frame.under (modFio_only _ _) (by simp) ?_
        exact Frame.refl _ _
      · split
        · refine Frame.under (modFio_only _ _) (by simp) ?_
          exact Frame.refl _ _
        · refine Frame.under (modFio_only _ _) (by simp) ?_
          refine Frame.under (modFio_only _ _) (by simp) ?_
          exact Frame.refl _ _
    · split
      · refine Frame.under (enterLost_only _ _) (by simp) ?_
        refine Frame.under (modFio_only _ _) (by simp) ?_
        exact Frame.refl _ _
      · split
        · refine Frame.under (modFio_only _ _) (by simp) ?_
          exact Frame.refl _ _
        · refine Frame.under (modFio_only _ _) (by simp) ?_
          refine Frame.under (modFio_only _ _) (by simp) ?_
          exact Frame.refl _ _

/-- What `execFieldSupplySample` can change. -/
theorem execFieldSupplySample_only (mv : Int) (s : State) : FrameOut [.time, .events, .board, .fio] s (execFieldSupplySample mv s) := by
  unfold execFieldSupplySample
  refine FrameOut.next ?_
  split
  · refine Frame.under (supplyAt_only _ _) (by simp) ?_
    refine Frame.under (periodic_only _ _ _) (by simp) ?_
    exact Frame.refl _ _
  · exact Frame.refl _ _

/-- What `execFsLost` can change. -/
theorem execFsLost_only (mv : Int) (highUs : Nat) (s : State) : FrameOut [.events, .board, .fio] s (execFsLost mv highUs s) := by
  unfold execFsLost
  refine FrameOut.next ?_
  split
  · refine Frame.under (enterLost_only _ _) (by simp) ?_
    refine Frame.under (modFio_only _ _) (by simp) ?_
    exact Frame.refl _ _
  · exact Frame.refl _ _

/-- What `fsRecover` can change. -/
theorem fsRecover_only (s : State) : Frame [.time, .events, .board, .fio] s (fsRecover s) := by
  unfold fsRecover
  split
  · exact Frame.refl _ _
  · split
    · exact Frame.refl _ _
    · dsimp only
      refine Frame.under (raiseIf_only _ _ _ _) (by simp) ?_
      refine Frame.under (raiseIf_only _ _ _ _) (by simp) ?_
      refine Frame.under (modFio_only _ _) (by simp) ?_
      refine Frame.under (elapseTo_only _ _) (by simp) ?_
      exact Frame.refl _ _

/-- What `execFsRecover` can change. -/
theorem execFsRecover_only (s : State) : FrameOut [.time, .events, .board, .fio] s (execFsRecover s) := by
  unfold execFsRecover
  refine FrameOut.next ?_
  refine Frame.under (fsRecover_only _) (by simp) ?_
  exact Frame.refl _ _

/-- What `execTestRound` can change. -/
theorem execTestRound_only (s : State) : FrameOut [.time, .fio] s (execTestRound s) := by
  unfold execTestRound
  refine FrameOut.next ?_
  split
  · exact Frame.refl _ _
  · split
    · exact Frame.refl _ _
    · dsimp only
      refine Frame.under (modFio_only _ _) (by simp) ?_
      refine Frame.under (elapseTo_only _ _) (by simp) ?_
      exact Frame.refl _ _

/-- What `testPulseStart` can change. -/
theorem testPulseStart_only (j : Fin 8) (s : State) : Frame [.time, .fio] s (testPulseStart j s) := by
  unfold testPulseStart
  dsimp only
  split
  · exact Frame.refl _ _
  · refine Frame.under (modFio_only _ _) (by simp) ?_
    refine Frame.under (elapseTo_only _ _) (by simp) ?_
    exact Frame.refl _ _

/-- What `execTestPulseStart` can change. -/
theorem execTestPulseStart_only (j : Fin 8) (s : State) : FrameOut [.time, .fio] s (execTestPulseStart j s) := by
  unfold execTestPulseStart
  refine FrameOut.next ?_
  refine Frame.under (testPulseStart_only _ _) (by simp) ?_
  exact Frame.refl _ _

/-- What `testPulseEnd` can change. -/
theorem testPulseEnd_only (mv : Int) (s : State) : Frame [.time, .events, .board, .fio] s (testPulseEnd mv s) := by
  unfold testPulseEnd
  split
  · exact Frame.refl _ _
  · dsimp only
    refine Frame.under (raiseIf_only _ _ _ _) (by simp) ?_
    refine Frame.under (modFio_only _ _) (by simp) ?_
    refine Frame.under (elapseTo_only _ _) (by simp) ?_
    exact Frame.refl _ _

/-- What `execTestPulseEnd` can change. -/
theorem execTestPulseEnd_only (mv : Int) (s : State) : FrameOut [.time, .events, .board, .fio] s (execTestPulseEnd mv s) := by
  unfold execTestPulseEnd
  refine FrameOut.next ?_
  refine Frame.under (testPulseEnd_only _ _) (by simp) ?_
  exact Frame.refl _ _

/-- What `stageParam` can change. -/
theorem stageParam_only (l : Lane) (i : Fin 17) (v : Word) (s : State) : Frame [lanePart l] s (stageParam l i v s) := by
  unfold stageParam
  refine Frame.under (modGf_only _ _ _) (by simp) ?_
  exact Frame.refl _ _

/-- What `gfParamWrite` can change. -/
theorem gfParamWrite_only (l : Lane) (i : Fin 17) (v : Word) (s : State) : Frame [.events, .board, .claim, lanePart l] s (gfParamWrite l i v s) := by
  unfold gfParamWrite
  split
  · refine Frame.under (mirror_only _ _ _) (by simp) ?_
    refine Frame.under (stageParam_only _ _ _ _) (by simp) ?_
    exact Frame.refl _ _
  · refine Frame.under (raise_only _ _ _) (by simp) ?_
    exact Frame.refl _ _

/-- What `execGfParamWrite` can change. -/
theorem execGfParamWrite_only (l : Lane) (i : Fin 17) (v : Word) (s : State) : FrameOut [.events, .board, .claim, lanePart l] s (execGfParamWrite l i v s) := by
  unfold execGfParamWrite
  refine FrameOut.next ?_
  refine Frame.under (gfParamWrite_only _ _ _ _) (by simp) ?_
  exact Frame.refl _ _

/-- What `gfCommitToken` can change. -/
theorem gfCommitToken_only (l : Lane) (s : State) : Frame [.events, .board, .laneA, .laneB, .claim] s (gfCommitToken l s) := by
  unfold gfCommitToken
  split
  · exact Frame.refl _ _
  · dsimp only
    refine Frame.under (mirror_only _ _ _) (by simp) ?_
    refine Frame.under (modGf_only _ _ _) (by repeat' first | exact sub_nil _ | (refine lanePart_mem _ ?_ ?_ <;> (simp; done)) | (refine sramPart_mem _ ?_ ?_ <;> (simp; done)) | refine sub_cons ?_ ?_ | (simp; done)) ?_
    exact Frame.refl _ _

/-- What `execGfCommit` can change. -/
theorem execGfCommit_only (l : Lane) (s : State) : FrameOut [.events, .board, .laneA, .laneB, .claim] s (execGfCommit l s) := by
  unfold execGfCommit
  refine FrameOut.next ?_
  refine Frame.under (gfCommitToken_only _ _) (by simp) ?_
  exact Frame.refl _ _

/-- What `gfCommitArrival` can change. -/
theorem gfCommitArrival_only (l : Lane) (vals : List (Fin 17 × Word)) (s : State) : Frame [.events, .board, .laneA, .laneB] s (gfCommitArrival l vals s) := by
  unfold gfCommitArrival
  split
  · exact Frame.refl _ _
  · dsimp only
    refine Frame.under (modGf_only _ _ _) (by repeat' first | exact sub_nil _ | (refine lanePart_mem _ ?_ ?_ <;> (simp; done)) | (refine sramPart_mem _ ?_ ?_ <;> (simp; done)) | refine sub_cons ?_ ?_ | (simp; done)) ?_
    refine Frame.under (modGf_only _ _ _) (by repeat' first | exact sub_nil _ | (refine lanePart_mem _ ?_ ?_ <;> (simp; done)) | (refine sramPart_mem _ ?_ ?_ <;> (simp; done)) | refine sub_cons ?_ ?_ | (simp; done)) ?_
    exact Frame.refl _ _

/-- What `gfStepStart` can change. -/
theorem gfStepStart_only (l : Lane) (c : Fin 8) (n : Nat) (s : State) : Frame [.events, .board, .laneA, .laneB] s (gfStepStart l c n s) := by
  unfold gfStepStart
  dsimp only
  refine Frame.comp ?_ (Frame.when ?_)
  · refine Frame.under (raiseIf_only _ _ _ _) (by simp) ?_
    refine Frame.under (modGf_only _ _ _) (by repeat' first | exact sub_nil _ | (refine lanePart_mem _ ?_ ?_ <;> (simp; done)) | (refine sramPart_mem _ ?_ ?_ <;> (simp; done)) | refine sub_cons ?_ ?_ | (simp; done)) ?_
    exact Frame.refl _ _
  · refine Frame.under (raInvalidate_only _ _ _) (by repeat' first | exact sub_nil _ | (refine lanePart_mem _ ?_ ?_ <;> (simp; done)) | (refine sramPart_mem _ ?_ ?_ <;> (simp; done)) | refine sub_cons ?_ ?_ | (simp; done)) ?_
    exact Frame.refl _ _

/-- What `showGf` can change. -/
theorem showGf_only (l : Lane) (s : State) : Frame [lanePart l] s (showGf l s) := by
  unfold showGf
  refine Frame.under (modGf_only _ _ _) (by simp) ?_
  exact Frame.refl _ _

/-- What `gfCommitted` can change. -/
theorem gfCommitted_only (l : Lane) (r : GfResult) (s : State) : Frame [.events, .board, .mode, .fio, lanePart l] s (gfCommitted l r s) := by
  unfold gfCommitted
  dsimp only
  refine Frame.under (showGf_only _ _) (by simp) ?_
  refine Frame.comp ?_ (Frame.when ?_)
  · refine Frame.comp ?_ (Frame.when ?_)
    · refine Frame.comp ?_ (Frame.when ?_)
      · refine Frame.comp ?_ (Frame.when ?_)
        · refine Frame.under (raiseIf_only _ _ _ _) (by simp) ?_
          refine Frame.comp ?_ (Frame.when ?_)
          · refine Frame.under (modGf_only _ _ _) (by simp) ?_
            exact Frame.refl _ _
          · refine Frame.under (refreshFn_only _) (by simp) ?_
            exact Frame.refl _ _
        · refine Frame.under (raise_only _ _ _) (by simp) ?_
          refine Frame.under (modGf_only _ _ _) (by simp) ?_
          exact Frame.refl _ _
      · refine Frame.comp ?_ (Frame.when ?_)
        · refine Frame.under (modGf_only _ _ _) (by simp) ?_
          exact Frame.refl _ _
        · refine Frame.under (trigger_only _ _) (by simp) ?_
          exact Frame.refl _ _
    · refine Frame.comp ?_ (Frame.when ?_)
      · refine Frame.under (raise_only _ _ _) (by simp) ?_
        refine Frame.under (modGf_only _ _ _) (by simp) ?_
        exact Frame.refl _ _
      · refine Frame.under (trigger_only _ _) (by simp) ?_
        exact Frame.refl _ _
  · refine Frame.comp ?_ (Frame.when ?_)
    · refine Frame.under (raise_only _ _ _) (by simp) ?_
      refine Frame.under (modGf_only _ _ _) (by simp) ?_
      exact Frame.refl _ _
    · refine Frame.under (trigger_only _ _) (by simp) ?_
      exact Frame.refl _ _

/-- What `gridStateTimer` can change. -/
theorem gridStateTimer_only (present : Bool) (s : State) : Frame [.time, .laneA, .laneB] s (gridStateTimer present s) := by
  unfold gridStateTimer
  refine Frame.comp ?_ (Frame.foldS _ _ _ fun _ _ => ?_)
  · exact Frame.refl _ _
  · dsimp only
    split
    · exact Frame.refl _ _
    · refine Frame.under (modGf_only _ _ _) (by repeat' first | exact sub_nil _ | (refine lanePart_mem _ ?_ ?_ <;> (simp; done)) | (refine sramPart_mem _ ?_ ?_ <;> (simp; done)) | refine sub_cons ?_ ?_ | (simp; done)) ?_
      refine Frame.under (elapseTo_only _ _) (by simp) ?_
      exact Frame.refl _ _

/-- What `execGridStateTimer` can change. -/
theorem execGridStateTimer_only (present : Bool) (s : State) : FrameOut [.time, .laneA, .laneB] s (execGridStateTimer present s) := by
  unfold execGridStateTimer
  refine FrameOut.next ?_
  refine Frame.under (gridStateTimer_only _ _) (by simp) ?_
  exact Frame.refl _ _

/-- What `syncReached` can change. -/
theorem syncReached_only (s : State) : Frame [.time, .events, .board, .laneA, .laneB, .fio] s (syncReached s) := by
  unfold syncReached
  refine Frame.under (refreshFn_only _) (by simp) ?_
  refine Frame.comp ?_ (Frame.foldS _ _ _ fun _ _ => ?_)
  · exact Frame.refl _ _
  · dsimp only
    split
    · exact Frame.refl _ _
    · split
      · exact Frame.refl _ _
      · refine Frame.under (raise_only _ _ _) (by simp) ?_
        refine Frame.under (modGf_only _ _ _) (by repeat' first | exact sub_nil _ | (refine lanePart_mem _ ?_ ?_ <;> (simp; done)) | (refine sramPart_mem _ ?_ ?_ <;> (simp; done)) | refine sub_cons ?_ ?_ | (simp; done)) ?_
        refine Frame.under (elapseTo_only _ _) (by simp) ?_
        exact Frame.refl _ _

/-- What `execSyncReached` can change. -/
theorem execSyncReached_only (s : State) : FrameOut [.time, .events, .board, .laneA, .laneB, .fio] s (execSyncReached s) := by
  unfold execSyncReached
  refine FrameOut.next ?_
  refine Frame.under (syncReached_only _) (by simp) ?_
  exact Frame.refl _ _

/-- What `syncTo` can change. -/
theorem syncTo_only (s : State) : Frame [.time, .events, .board, .mode, .laneA, .laneB] s (syncTo s) := by
  unfold syncTo
  refine Frame.comp ?_ (Frame.foldS _ _ _ fun _ _ => ?_)
  · exact Frame.refl _ _
  · dsimp only
    split
    · refine Frame.comp ?_ (Frame.when ?_)
      · refine Frame.under (raise_only _ _ _) (by simp) ?_
        refine Frame.under (modGf_only _ _ _) (by repeat' first | exact sub_nil _ | (refine lanePart_mem _ ?_ ?_ <;> (simp; done)) | (refine sramPart_mem _ ?_ ?_ <;> (simp; done)) | refine sub_cons ?_ ?_ | (simp; done)) ?_
        refine Frame.under (elapseTo_only _ _) (by simp) ?_
        exact Frame.refl _ _
      · refine Frame.under (protectionTrip_only _) (by simp) ?_
        exact Frame.refl _ _
    · exact Frame.refl _ _

/-- What `execSyncTo` can change. -/
theorem execSyncTo_only (s : State) : FrameOut [.time, .events, .board, .mode, .laneA, .laneB] s (execSyncTo s) := by
  unfold execSyncTo
  refine FrameOut.next ?_
  refine Frame.under (syncTo_only _) (by simp) ?_
  exact Frame.refl _ _

/-- What `bsFail` can change. -/
theorem bsFail_only (s : State) : Frame [.time, .events, .board, .mode, .laneA, .laneB] s (bsFail s) := by
  unfold bsFail
  refine Frame.comp ?_ (Frame.foldS _ _ _ fun _ _ => ?_)
  · exact Frame.refl _ _
  · dsimp only
    split
    · refine Frame.comp ?_ (Frame.when ?_)
      · refine Frame.under (raise_only _ _ _) (by simp) ?_
        refine Frame.under (modGf_only _ _ _) (by repeat' first | exact sub_nil _ | (refine lanePart_mem _ ?_ ?_ <;> (simp; done)) | (refine sramPart_mem _ ?_ ?_ <;> (simp; done)) | refine sub_cons ?_ ?_ | (simp; done)) ?_
        refine Frame.under (elapseTo_only _ _) (by simp) ?_
        exact Frame.refl _ _
      · refine Frame.under (protectionTrip_only _) (by simp) ?_
        exact Frame.refl _ _
    · exact Frame.refl _ _

/-- What `execBsFail` can change. -/
theorem execBsFail_only (s : State) : FrameOut [.time, .events, .board, .mode, .laneA, .laneB] s (execBsFail s) := by
  unfold execBsFail
  refine FrameOut.next ?_
  refine Frame.under (bsFail_only _) (by simp) ?_
  exact Frame.refl _ _

/-- What `gridLoss` can change. -/
theorem gridLoss_only (freq : Bool) (s : State) : Frame [.time, .events, .board, .mode] s (gridLoss freq s) := by
  unfold gridLoss
  split
  · exact Frame.refl _ _
  · refine Frame.comp ?_ (Frame.foldS _ _ _ fun _ _ => ?_)
    · exact Frame.refl _ _
    · dsimp only
      split
      · exact Frame.refl _ _
      · refine Frame.comp ?_ (Frame.when ?_)
        · refine Frame.under (raise_only _ _ _) (by simp) ?_
          refine Frame.under (elapseTo_only _ _) (by simp) ?_
          exact Frame.refl _ _
        · refine Frame.under (trigger_only _ _) (by simp) ?_
          exact Frame.refl _ _

/-- What `execGridLoss` can change. -/
theorem execGridLoss_only (freq : Bool) (s : State) : FrameOut [.time, .events, .board, .mode] s (execGridLoss freq s) := by
  unfold execGridLoss
  refine FrameOut.next ?_
  refine Frame.under (gridLoss_only _ _) (by simp) ?_
  exact Frame.refl _ _

/-- What `rtRecover` can change. -/
theorem rtRecover_only (s : State) : Frame [.time, .events, .board, .mode, .laneA, .laneB] s (rtRecover s) := by
  unfold rtRecover
  split
  · exact Frame.refl _ _
  · refine Frame.comp ?_ (Frame.foldS _ _ _ fun _ _ => ?_)
    · exact Frame.refl _ _
    · split
      · exact Frame.refl _ _
      · dsimp only
        refine Frame.comp ?_ (Frame.when ?_)
        · refine Frame.under (raise_only _ _ _) (by simp) ?_
          refine Frame.under (modGf_only _ _ _) (by repeat' first | exact sub_nil _ | (refine lanePart_mem _ ?_ ?_ <;> (simp; done)) | (refine sramPart_mem _ ?_ ?_ <;> (simp; done)) | refine sub_cons ?_ ?_ | (simp; done)) ?_
          refine Frame.under (elapseTo_only _ _) (by simp) ?_
          exact Frame.refl _ _
        · refine Frame.under (trigger_only _ _) (by simp) ?_
          exact Frame.refl _ _

/-- What `execRtRecover` can change. -/
theorem execRtRecover_only (s : State) : FrameOut [.time, .events, .board, .mode, .laneA, .laneB] s (execRtRecover s) := by
  unfold execRtRecover
  refine FrameOut.next ?_
  refine Frame.under (rtRecover_only _) (by simp) ?_
  exact Frame.refl _ _

/-- What `modeTickLane` can change. -/
theorem modeTickLane_only (closed : Bool) (l : Lane) (s : State) : Frame [.events, .board, .mode, lanePart l] s (modeTickLane closed l s) := by
  unfold modeTickLane
  dsimp only
  refine Frame.comp ?_ (Frame.when ?_)
  · refine Frame.under (modGf_only _ _ _) (by simp) ?_
    refine Frame.comp ?_ (Frame.when ?_)
    · refine Frame.comp ?_ (Frame.when ?_)
      · refine Frame.under (modGf_only _ _ _) (by simp) ?_
        exact Frame.refl _ _
      · refine Frame.comp ?_ (Frame.when ?_)
        · refine Frame.under (raise_only _ _ _) (by simp) ?_
          exact Frame.refl _ _
        · refine Frame.under (protectionTrip_only _) (by simp) ?_
          exact Frame.refl _ _
    · refine Frame.under (trigger_only _ _) (by simp) ?_
      exact Frame.refl _ _
  · refine Frame.comp ?_ (Frame.when ?_)
    · refine Frame.under (raise_only _ _ _) (by simp) ?_
      exact Frame.refl _ _
    · refine Frame.under (protectionTrip_only _) (by simp) ?_
      exact Frame.refl _ _

/-- What `modeCtrlTick` can change. -/
theorem modeCtrlTick_only (s : State) : Frame [.time, .events, .board, .mode, .laneA, .laneB, .fio] s (modeCtrlTick s) := by
  unfold modeCtrlTick
  split
  · exact Frame.refl _ _
  · dsimp only
    refine Frame.under (refreshFn_only _) (by simp) ?_
    refine Frame.comp ?_ (Frame.foldS _ _ _ fun _ _ => ?_)
    · refine Frame.under (periodic_only _ _ _) (by simp) ?_
      exact Frame.refl _ _
    · refine Frame.under (modeTickLane_only _ _ _) (by repeat' first | exact sub_nil _ | (refine lanePart_mem _ ?_ ?_ <;> (simp; done)) | (refine sramPart_mem _ ?_ ?_ <;> (simp; done)) | refine sub_cons ?_ ?_ | (simp; done)) ?_
      exact Frame.refl _ _

/-- What `execModeCtrlTick` can change. -/
theorem execModeCtrlTick_only (s : State) : FrameOut [.time, .events, .board, .mode, .laneA, .laneB, .fio] s (execModeCtrlTick s) := by
  unfold execModeCtrlTick
  refine FrameOut.next ?_
  refine Frame.under (modeCtrlTick_only _) (by simp) ?_
  exact Frame.refl _ _

/-- What `gfModeEntry` can change. -/
theorem gfModeEntry_only (old : Nat) (s : State) : Frame [.laneA, .laneB] s (gfModeEntry old s) := by
  unfold gfModeEntry
  dsimp only
  split
  · refine Frame.comp ?_ (Frame.foldS _ _ _ fun _ _ => ?_)
    · exact Frame.refl _ _
    · refine Frame.under (modGf_only _ _ _) (by repeat' first | exact sub_nil _ | (refine lanePart_mem _ ?_ ?_ <;> (simp; done)) | (refine sramPart_mem _ ?_ ?_ <;> (simp; done)) | refine sub_cons ?_ ?_ | (simp; done)) ?_
      exact Frame.refl _ _
  · refine Frame.comp ?_ (Frame.foldS _ _ _ fun _ _ => ?_)
    · exact Frame.refl _ _
    · refine Frame.under (modGf_only _ _ _) (by repeat' first | exact sub_nil _ | (refine lanePart_mem _ ?_ ?_ <;> (simp; done)) | (refine sramPart_mem _ ?_ ?_ <;> (simp; done)) | refine sub_cons ?_ ?_ | (simp; done)) ?_
      exact Frame.refl _ _

/-- What `modRun` can change. -/
theorem modRun_only (l : Lane) (f : RecRun → RecRun) (s : State) : Frame [lanePart l] s (modRun l f s) := by
  unfold modRun
  refine Frame.under (modRec_only _ _ _) (by simp) ?_
  exact Frame.refl _ _

/-- What `startSegment` can change. -/
theorem startSegment_only (l : Lane) (k : Fin 8) (at0 : Nat) (s : State) : Frame [lanePart l] s (startSegment l k at0 s) := by
  unfold startSegment
  refine Frame.under (modRec_only _ _ _) (by simp) ?_
  exact Frame.refl _ _

/-- What `recArm` can change. -/
theorem recArm_only (l : Lane) (s : State) : Frame [.free, lanePart l] s (recArm l s) := by
  unfold recArm
  split
  · exact Frame.refl _ _
  · dsimp only
    refine Frame.under (modRec_only _ _ _) (by simp) ?_
    refine Frame.under (startSegment_only _ _ _ _) (by simp) ?_
    refine Frame.under (modRec_only _ _ _) (by simp) ?_
    refine Frame.under (takeFree_only _) (by simp) ?_
    exact Frame.refl _ _

/-- What `noteFull` can change. -/
theorem noteFull_only (l : Lane) (s : State) : Frame [lanePart l] s (noteFull l s) := by
  unfold noteFull
  refine Frame.under (modRun_only _ _ _) (by simp) ?_
  exact Frame.refl _ _

/-- What `writeRaw` can change. -/
theorem writeRaw_only (l : Lane) (inst : Nat) (bs : List Byte) (s : State) : Frame [lanePart l, sramPart l] s (writeRaw l inst bs s) := by
  unfold writeRaw
  split
  · exact Frame.refl _ _
  · dsimp only
    split
    · exact Frame.refl _ _
    · refine Frame.under (noteFull_only _ _) (by simp) ?_
      refine Frame.under (modRun_only _ _ _) (by simp) ?_
      refine Frame.under (laneWrite_only _ _ _ _) (by simp) ?_
      exact Frame.refl _ _

/-- What `rawSample` can change. -/
theorem rawSample_only (l : Lane) (pin : Fin 32) (inst : Nat) (codes : List Byte) (s : State) : Frame [lanePart l, sramPart l] s (rawSample l pin inst codes s) := by
  unfold rawSample
  split
  · exact Frame.refl _ _
  · dsimp only
    split
    · refine Frame.under (modRec_only _ _ _) (by simp) ?_
      exact Frame.refl _ _
    · refine Frame.under (writeRaw_only _ _ _ _) (by simp) ?_
      refine Frame.under (modRec_only _ _ _) (by simp) ?_
      refine Frame.under (modRec_only _ _ _) (by simp) ?_
      exact Frame.refl _ _

/-- What `decFrame` can change. -/
theorem decFrame_only (l : Lane) (c : Fin 8) (step : Nat) (trigRaw : Long) (s : State) : Frame [.sram, lanePart l] s (decFrame l c step trigRaw s) := by
  unfold decFrame
  split
  · exact Frame.refl _ _
  · dsimp only
    split
    · refine Frame.under (modRec_only _ _ _) (by simp) ?_
      exact Frame.refl _ _
    · split
      · split
        · refine Frame.under (modRec_only _ _ _) (by simp) ?_
          exact Frame.refl _ _
        · refine Frame.under (noteFull_only _ _) (by simp) ?_
          refine Frame.under (modRun_only _ _ _) (by simp) ?_
          refine Frame.comp ?_ (Frame.when ?_)
          · refine Frame.under (modRec_only _ _ _) (by simp) ?_
            exact Frame.refl _ _
          · refine Frame.under (sharedWrite_only _ _ _) (by simp) ?_
            exact Frame.refl _ _
      · split
        · refine Frame.under (modRec_only _ _ _) (by simp) ?_
          exact Frame.refl _ _
        · refine Frame.under (noteFull_only _ _) (by simp) ?_
          refine Frame.under (modRun_only _ _ _) (by simp) ?_
          refine Frame.comp ?_ (Frame.when ?_)
          · refine Frame.under (modRec_only _ _ _) (by simp) ?_
            exact Frame.refl _ _
          · refine Frame.under (sharedWrite_only _ _ _) (by simp) ?_
            exact Frame.refl _ _

/-- What `missTrigger` can change. -/
theorem missTrigger_only (l : Lane) (t : RecTrigger) (s : State) : Frame [.events, .board, lanePart l] s (missTrigger l t s) := by
  unfold missTrigger
  refine Frame.under (raise_only _ _ _) (by simp) ?_
  refine Frame.under (modRec_only _ _ _) (by simp) ?_
  exact Frame.refl _ _

/-- What `takeTrigger` can change. -/
theorem takeTrigger_only (l : Lane) (t : RecTrigger) (cross fromOther : Bool) (s : State) : Frame [.events, .board, lanePart (otherLane l), lanePart l, sramPart l] s (takeTrigger l t cross fromOther s) := by
  unfold takeTrigger
  dsimp only
  split
  · refine Frame.under (missTrigger_only _ _ _) (by simp) ?_
    exact Frame.refl _ _
  · split
    · refine Frame.under (missTrigger_only _ _ _) (by simp) ?_
      exact Frame.refl _ _
    · split
      · refine Frame.under (raise_only _ _ _) (by simp) ?_
        refine Frame.comp ?_ (Frame.when ?_)
        · refine Frame.under (modRec_only _ _ _) (by simp) ?_
          refine Frame.under (recMark_only _ _ _ _ _ _ _ _) (by simp) ?_
          exact Frame.refl _ _
        · refine Frame.under (modRec_only _ _ _) (by simp) ?_
          exact Frame.refl _ _
      · split
        · refine Frame.under (modRun_only _ _ _) (by simp) ?_
          exact Frame.refl _ _
        · refine Frame.under (raise_only _ _ _) (by simp) ?_
          refine Frame.under (modRun_only _ _ _) (by simp) ?_
          refine Frame.under (recMark_only _ _ _ _ _ _ _ _) (by simp) ?_
          exact Frame.refl _ _

/-- What `recTrig` can change. -/
theorem recTrig_only (l : Lane) (src frac : Nat) (s : State) : Frame [.events, .board, lanePart (otherLane l), lanePart l, sramPart l] s (recTrig l src frac s) := by
  unfold recTrig
  split
  · exact Frame.refl _ _
  · refine Frame.under (takeTrigger_only _ _ _ _ _) (by simp) ?_
    refine Frame.under (modRec_only _ _ _) (by simp) ?_
    exact Frame.refl _ _

/-- What `execRecTrig` can change. -/
theorem execRecTrig_only (l : Lane) (src : Fin 118) (frac : Fin 100) (s : State) : FrameOut [.events, .board, lanePart (otherLane l), lanePart l, sramPart l] s (execRecTrig l src frac s) := by
  unfold execRecTrig
  refine FrameOut.next ?_
  refine Frame.under (recTrig_only _ _ _ _) (by simp) ?_
  exact Frame.refl _ _

/-- What `xlaneTrigger` can change. -/
theorem xlaneTrigger_only (l : Lane) (s : State) : Frame [.events, .board, lanePart (otherLane l), lanePart l, sramPart l] s (xlaneTrigger l s) := by
  unfold xlaneTrigger
  split
  · exact Frame.refl _ _
  · refine Frame.under (takeTrigger_only _ _ _ _ _) (by simp) ?_
    refine Frame.under (modRec_only _ _ _) (by simp) ?_
    exact Frame.refl _ _

/-- What `execXlaneTrigger` can change. -/
theorem execXlaneTrigger_only (l : Lane) (s : State) : FrameOut [.events, .board, lanePart (otherLane l), lanePart l, sramPart l] s (execXlaneTrigger l s) := by
  unfold execXlaneTrigger
  refine FrameOut.next ?_
  refine Frame.under (xlaneTrigger_only _ _) (by simp) ?_
  exact Frame.refl _ _

/-- What `recCmdTrig` can change. -/
theorem recCmdTrig_only (l : Lane) (s : State) : Frame [.free, .events, .board, lanePart (otherLane l), lanePart l, sramPart l] s (recCmdTrig l s) := by
  unfold recCmdTrig
  split
  refine Frame.under (recTrig_only _ _ _ _) (by simp) ?_
  refine Frame.under (noteTrig_only _ _ _ _) (by simp) ?_
  refine Frame.under (Frame.snd (by assumption) (takeFree_only _)) (by simp) ?_
  exact Frame.refl _ _

/-- What `execRecCmdTrig` can change. -/
theorem execRecCmdTrig_only (l : Lane) (s : State) : FrameOut [.free, .events, .board, lanePart (otherLane l), lanePart l, sramPart l] s (execRecCmdTrig l s) := by
  unfold execRecCmdTrig
  refine FrameOut.next ?_
  refine Frame.under (recCmdTrig_only _ _) (by simp) ?_
  exact Frame.refl _ _

/-- What `recDone` can change. -/
theorem recDone_only (l : Lane) (s : State) : Frame [.time, .free, .events, .board, .host, .sram, lanePart l, sramPart l] s (recDone l s) := by
  unfold recDone
  dsimp only
  split
  · split
    · refine Frame.under (raise_only _ _ _) (by simp) ?_
      refine Frame.under (raise_only _ _ _) (by simp) ?_
      refine Frame.under (modRec_only _ _ _) (by simp) ?_
      refine Frame.under (opEvent_only _ _ _ _ _ _) (by simp) ?_
      refine Frame.comp ?_ (Frame.when ?_)
      · refine Frame.under (laneWrite_only _ _ _ _) (by simp) ?_
        refine Frame.under (elapseTo_only _ _) (by simp) ?_
        exact Frame.refl _ _
      · refine Frame.under (sharedWrite_only _ _ _) (by simp) ?_
        exact Frame.refl _ _
    · refine Frame.under (startSegment_only _ _ _ _) (by simp) ?_
      refine Frame.under (takeFree_only _) (by simp) ?_
      refine Frame.under (raise_only _ _ _) (by simp) ?_
      refine Frame.under (modRec_only _ _ _) (by simp) ?_
      refine Frame.under (opEvent_only _ _ _ _ _ _) (by simp) ?_
      refine Frame.comp ?_ (Frame.when ?_)
      · refine Frame.under (laneWrite_only _ _ _ _) (by simp) ?_
        refine Frame.under (elapseTo_only _ _) (by simp) ?_
        exact Frame.refl _ _
      · refine Frame.under (sharedWrite_only _ _ _) (by simp) ?_
        exact Frame.refl _ _
  · exact Frame.refl _ _

/-- What `execRecDone` can change. -/
theorem execRecDone_only (l : Lane) (s : State) : FrameOut [.time, .free, .events, .board, .host, .sram, lanePart l, sramPart l] s (execRecDone l s) := by
  unfold execRecDone
  refine FrameOut.next ?_
  refine Frame.under (recDone_only _ _) (by simp) ?_
  exact Frame.refl _ _

/-- What `releaseIn` can change. -/
theorem releaseIn_only (l : Lane) (mask : Byte) (s : State) : Frame [lanePart l] s (releaseIn l mask s) := by
  unfold releaseIn
  dsimp only
  split
  · split
    · refine Frame.under (modRec_only _ _ _) (by simp) ?_
      exact Frame.refl _ _
    · refine Frame.under (startSegment_only _ _ _ _) (by simp) ?_
      refine Frame.under (modRec_only _ _ _) (by simp) ?_
      exact Frame.refl _ _
  · refine Frame.under (modRec_only _ _ _) (by simp) ?_
    exact Frame.refl _ _

/-- What `recRelease` can change. -/
theorem recRelease_only (l : Lane) (mask : Byte) (s : State) : Frame [.claim, lanePart l] s (recRelease l mask s) := by
  unfold recRelease
  refine Frame.under (mirror_only _ _ _) (by simp) ?_
  refine Frame.under (releaseIn_only _ _ _) (by simp) ?_
  exact Frame.refl _ _

/-- What `execRecRelease` can change. -/
theorem execRecRelease_only (l : Lane) (mask : Byte) (s : State) : FrameOut [.claim, lanePart l] s (execRecRelease l mask s) := by
  unfold execRecRelease
  refine FrameOut.next ?_
  refine Frame.under (recRelease_only _ _ _) (by simp) ?_
  exact Frame.refl _ _

/-- What `execRecOffsetMeasure` can change. -/
theorem execRecOffsetMeasure_only (l : Lane) (offs : List Int) (s : State) : FrameOut [.time, lanePart l] s (execRecOffsetMeasure l offs s) := by
  unfold execRecOffsetMeasure
  refine FrameOut.next ?_
  split
  · refine Frame.under (modRec_only _ _ _) (by simp) ?_
    refine Frame.under (periodic_only _ _ _) (by simp) ?_
    exact Frame.refl _ _
  · exact Frame.refl _ _

/-- What `noteExits` can change. -/
theorem noteExits_only (pin : Fin 32) (before s : State) : Frame [.laneA, .laneB] s (noteExits pin before s) := by
  unfold noteExits
  refine Frame.comp ?_ (Frame.foldS _ _ _ fun _ _ => ?_)
  · exact Frame.refl _ _
  · dsimp only
    split
    · refine Frame.under (noteTrig_only _ _ _ _) (by repeat' first | exact sub_nil _ | (refine lanePart_mem _ ?_ ?_ <;> (simp; done)) | (refine sramPart_mem _ ?_ ?_ <;> (simp; done)) | refine sub_cons ?_ ?_ | (simp; done)) ?_
      exact Frame.refl _ _
    · exact Frame.refl _ _

/-- What `recordCode` can change. -/
theorem recordCode_only (pin : Fin 32) (inst : Nat) (x : StreamCode) (s : State) : Frame [.laneA, .laneB, .sramA, .sramB] s (recordCode pin inst x s) := by
  unfold recordCode
  split
  · refine Frame.under (rawSample_only _ _ _ _ _) (by repeat' first | exact sub_nil _ | (refine lanePart_mem _ ?_ ?_ <;> (simp; done)) | (refine sramPart_mem _ ?_ ?_ <;> (simp; done)) | refine sub_cons ?_ ?_ | (simp; done)) ?_
    exact Frame.refl _ _
  · split
    · exact Frame.refl _ _
    · refine Frame.under (rawSample_only _ _ _ _ _) (by repeat' first | exact sub_nil _ | (refine lanePart_mem _ ?_ ?_ <;> (simp; done)) | (refine sramPart_mem _ ?_ ?_ <;> (simp; done)) | refine sub_cons ?_ ?_ | (simp; done)) ?_
      exact Frame.refl _ _

/-- What `converterSample` can change. -/
theorem converterSample_only (l : Lane) (pin : Fin 32) (legP legN : Int) (lost : Bool) (s : State) : Frame [.time, .free, .events, .board, .mode, .laneA, .laneB, .sramA, .sramB, .gate, .claim] s (converterSample l pin legP legN lost s) := by
  unfold converterSample
  split
  · exact Frame.refl _ _
  · dsimp only
    refine Frame.comp ?_ (Frame.foldS _ _ _ fun _ _ => ?_)
    · refine Frame.under (classify_only _ _ _) (by repeat' first | exact sub_nil _ | (refine lanePart_mem _ ?_ ?_ <;> (simp; done)) | (refine sramPart_mem _ ?_ ?_ <;> (simp; done)) | refine sub_cons ?_ ?_ | (simp; done)) ?_
      refine Frame.under (refreshWin_only _ _) (by simp) ?_
      refine Frame.under (noteExits_only _ _ _) (by simp) ?_
      refine Frame.under (takeSample_only _ _ _ _ _ _ _) (by simp) ?_
      refine Frame.under (sampleCode_only _ _ _ _ _) (by simp) ?_
      refine Frame.under (elapseTo_only _ _) (by simp) ?_
      exact Frame.refl _ _
    · refine Frame.under (recordCode_only _ _ _ _) (by simp) ?_
      exact Frame.refl _ _

/-- What `execConverterSample` can change. -/
theorem execConverterSample_only (l : Lane) (pin : Fin 32) (legs : Int × Int) (lost : Bool) (s : State) : FrameOut [.time, .free, .events, .board, .mode, .laneA, .laneB, .sramA, .sramB, .gate, .claim] s (execConverterSample l pin legs lost s) := by
  unfold execConverterSample
  refine FrameOut.next ?_
  refine Frame.under (converterSample_only _ _ _ _ _ _) (by simp) ?_
  exact Frame.refl _ _

/-- What `applyChanges` can change. -/
theorem applyChanges_only (l : Lane) (c : Fin 8) (n : Nat) (s : State) : Frame [.events, .board, lanePart l] s (applyChanges l c n s) := by
  unfold applyChanges
  dsimp only
  refine Frame.comp ?_ (Frame.when ?_)
  · refine Frame.comp ?_ (Frame.foldS _ _ _ fun _ _ => ?_)
    · refine Frame.under (modCtx_only _ _ _ _) (by simp) ?_
      exact Frame.refl _ _
    · refine Frame.under (applyPend_only _ _ _ _) (by simp) ?_
      exact Frame.refl _ _
  · refine Frame.under (raInvalidate_only _ _ _) (by simp) ?_
    exact Frame.refl _ _

/-- What `stepStart` can change. -/
theorem stepStart_only (l : Lane) (c : Fin 8) (s : State) : Frame [.time, .events, .board, .laneA, .laneB] s (stepStart l c s) := by
  unfold stepStart
  dsimp only
  split
  · exact Frame.refl _ _
  · split
    · exact Frame.refl _ _
    · refine Frame.under (modCtx_only _ _ _ _) (by repeat' first | exact sub_nil _ | (refine lanePart_mem _ ?_ ?_ <;> (simp; done)) | (refine sramPart_mem _ ?_ ?_ <;> (simp; done)) | refine sub_cons ?_ ?_ | (simp; done)) ?_
      refine Frame.comp ?_ (Frame.when ?_)
      · refine Frame.under (applyChanges_only _ _ _ _) (by repeat' first | exact sub_nil _ | (refine lanePart_mem _ ?_ ?_ <;> (simp; done)) | (refine sramPart_mem _ ?_ ?_ <;> (simp; done)) | refine sub_cons ?_ ?_ | (simp; done)) ?_
        refine Frame.under (elapseTo_only _ _) (by simp) ?_
        exact Frame.refl _ _
      · refine Frame.under (gfStepStart_only _ _ _ _) (by simp) ?_
        exact Frame.refl _ _

/-- What `execCommittedStepStart` can change. -/
theorem execCommittedStepStart_only (l : Lane) (ctx : Fin 8) (s : State) : FrameOut [.time, .events, .board, .laneA, .laneB] s (execCommittedStepStart l ctx s) := by
  unfold execCommittedStepStart
  refine FrameOut.next ?_
  refine Frame.under (stepStart_only _ _ _) (by simp) ?_
  exact Frame.refl _ _

/-- What `stepCommit` can change. -/
theorem stepCommit_only (l : Lane) (c : Fin 8) (s : State) : Frame [.time, .events, .board, .host, .mode, .laneA, .laneB, .sram, .claim, .fio, sramPart l] s (stepCommit l c s) := by
  unfold stepCommit
  split
  · dsimp only
    split
    · exact Frame.refl _ _
    · refine Frame.under (resumeRuns_only _ _) (by repeat' first | exact sub_nil _ | (refine lanePart_mem _ ?_ ?_ <;> (simp; done)) | (refine sramPart_mem _ ?_ ?_ <;> (simp; done)) | refine sub_cons ?_ ?_ | (simp; done)) ?_
      refine Frame.under (decFrame_only _ _ _ _ _) (by repeat' first | exact sub_nil _ | (refine lanePart_mem _ ?_ ?_ <;> (simp; done)) | (refine sramPart_mem _ ?_ ?_ <;> (simp; done)) | refine sub_cons ?_ ?_ | (simp; done)) ?_
      refine Frame.under (opEvent_only _ _ _ _ _ _) (by simp) ?_
      refine Frame.under (modLc_only _ _ _) (by simp) ?_
      refine Frame.under (raCommit_only _ _ _ _) (by repeat' first | exact sub_nil _ | (refine lanePart_mem _ ?_ ?_ <;> (simp; done)) | (refine sramPart_mem _ ?_ ?_ <;> (simp; done)) | refine sub_cons ?_ ?_ | (simp; done)) ?_
      split
      · refine Frame.under (traceCommit_only _ _ _ _) (by repeat' first | exact sub_nil _ | (refine lanePart_mem _ ?_ ?_ <;> (simp; done)) | (refine sramPart_mem _ ?_ ?_ <;> (simp; done)) | refine sub_cons ?_ ?_ | (simp; done)) ?_
        refine Frame.comp ?_ (Frame.when ?_)
        · refine Frame.under (noteSubs_only _ _ _ _) (by repeat' first | exact sub_nil _ | (refine lanePart_mem _ ?_ ?_ <;> (simp; done)) | (refine sramPart_mem _ ?_ ?_ <;> (simp; done)) | refine sub_cons ?_ ?_ | (simp; done)) ?_
          refine Frame.comp ?_ (Frame.when ?_)
          · refine Frame.under (modCtx_only _ _ _ _) (by repeat' first | exact sub_nil _ | (refine lanePart_mem _ ?_ ?_ <;> (simp; done)) | (refine sramPart_mem _ ?_ ?_ <;> (simp; done)) | refine sub_cons ?_ ?_ | (simp; done)) ?_
            refine Frame.under (putNodes_only _ _ _) (by repeat' first | exact sub_nil _ | (refine lanePart_mem _ ?_ ?_ <;> (simp; done)) | (refine sramPart_mem _ ?_ ?_ <;> (simp; done)) | refine sub_cons ?_ ?_ | (simp; done)) ?_
            refine Frame.under (elapseTo_only _ _) (by simp) ?_
            exact Frame.refl _ _
          · unfold writeOutputs
            refine Frame.comp ?_ (Frame.foldS _ _ _ fun _ _ => ?_)
            · refine Frame.comp ?_ (Frame.foldS _ _ _ fun _ _ => ?_)
              · exact Frame.refl _ _
              · refine Frame.under (writeOutput_only _ _ _ _) (by repeat' first | exact sub_nil _ | (refine lanePart_mem _ ?_ ?_ <;> (simp; done)) | (refine sramPart_mem _ ?_ ?_ <;> (simp; done)) | refine sub_cons ?_ ?_ | (simp; done)) ?_
                exact Frame.refl _ _
            · refine Frame.under (token_only _ _ _) (by repeat' first | exact sub_nil _ | (refine lanePart_mem _ ?_ ?_ <;> (simp; done)) | (refine sramPart_mem _ ?_ ?_ <;> (simp; done)) | refine sub_cons ?_ ?_ | (simp; done)) ?_
              exact Frame.refl _ _
        · refine Frame.under (modCtx_only _ _ _ _) (by repeat' first | exact sub_nil _ | (refine lanePart_mem _ ?_ ?_ <;> (simp; done)) | (refine sramPart_mem _ ?_ ?_ <;> (simp; done)) | refine sub_cons ?_ ?_ | (simp; done)) ?_
          exact Frame.refl _ _
      · refine Frame.comp ?_ (Frame.when ?_)
        · refine Frame.under (traceCommit_only _ _ _ _) (by repeat' first | exact sub_nil _ | (refine lanePart_mem _ ?_ ?_ <;> (simp; done)) | (refine sramPart_mem _ ?_ ?_ <;> (simp; done)) | refine sub_cons ?_ ?_ | (simp; done)) ?_
          refine Frame.comp ?_ (Frame.when ?_)
          · refine Frame.under (noteSubs_only _ _ _ _) (by repeat' first | exact sub_nil _ | (refine lanePart_mem _ ?_ ?_ <;> (simp; done)) | (refine sramPart_mem _ ?_ ?_ <;> (simp; done)) | refine sub_cons ?_ ?_ | (simp; done)) ?_
            refine Frame.comp ?_ (Frame.when ?_)
            · refine Frame.under (modCtx_only _ _ _ _) (by repeat' first | exact sub_nil _ | (refine lanePart_mem _ ?_ ?_ <;> (simp; done)) | (refine sramPart_mem _ ?_ ?_ <;> (simp; done)) | refine sub_cons ?_ ?_ | (simp; done)) ?_
              refine Frame.under (putNodes_only _ _ _) (by repeat' first | exact sub_nil _ | (refine lanePart_mem _ ?_ ?_ <;> (simp; done)) | (refine sramPart_mem _ ?_ ?_ <;> (simp; done)) | refine sub_cons ?_ ?_ | (simp; done)) ?_
              refine Frame.under (elapseTo_only _ _) (by simp) ?_
              exact Frame.refl _ _
            · unfold writeOutputs
              refine Frame.comp ?_ (Frame.foldS _ _ _ fun _ _ => ?_)
              · refine Frame.comp ?_ (Frame.foldS _ _ _ fun _ _ => ?_)
                · exact Frame.refl _ _
                · refine Frame.under (writeOutput_only _ _ _ _) (by repeat' first | exact sub_nil _ | (refine lanePart_mem _ ?_ ?_ <;> (simp; done)) | (refine sramPart_mem _ ?_ ?_ <;> (simp; done)) | refine sub_cons ?_ ?_ | (simp; done)) ?_
                  exact Frame.refl _ _
              · refine Frame.under (token_only _ _ _) (by repeat' first | exact sub_nil _ | (refine lanePart_mem _ ?_ ?_ <;> (simp; done)) | (refine sramPart_mem _ ?_ ?_ <;> (simp; done)) | refine sub_cons ?_ ?_ | (simp; done)) ?_
                exact Frame.refl _ _
          · refine Frame.under (modCtx_only _ _ _ _) (by repeat' first | exact sub_nil _ | (refine lanePart_mem _ ?_ ?_ <;> (simp; done)) | (refine sramPart_mem _ ?_ ?_ <;> (simp; done)) | refine sub_cons ?_ ?_ | (simp; done)) ?_
            exact Frame.refl _ _
        · refine Frame.under (gfCommitted_only _ _ _) (by repeat' first | exact sub_nil _ | (refine lanePart_mem _ ?_ ?_ <;> (simp; done)) | (refine sramPart_mem _ ?_ ?_ <;> (simp; done)) | refine sub_cons ?_ ?_ | (simp; done)) ?_
          exact Frame.refl _ _
  · exact Frame.refl _ _

/-- What `execCommittedStepCommit` can change. -/
theorem execCommittedStepCommit_only (l : Lane) (ctx : Fin 8) (s : State) : FrameOut [.time, .events, .board, .host, .mode, .laneA, .laneB, .sram, .claim, .fio, sramPart l] s (execCommittedStepCommit l ctx s) := by
  unfold execCommittedStepCommit
  refine FrameOut.next ?_
  refine Frame.under (stepCommit_only _ _ _) (by simp) ?_
  exact Frame.refl _ _

/-- What `setDt` can change. -/
theorem setDt_only (l : Lane) (g : Fin 16) (v : Word) (s : State) : Frame [.events, .board, lanePart l] s (setDt l g v s) := by
  unfold setDt
  dsimp only
  split
  · exact Frame.refl _ _
  · split
    · refine Frame.under (modGen_only _ _ _ _) (by simp) ?_
      exact Frame.refl _ _
    · refine Frame.under (raise_only _ _ _) (by simp) ?_
      exact Frame.refl _ _

/-- What `setMinp` can change. -/
theorem setMinp_only (l : Lane) (g : Fin 16) (v : Word) (s : State) : Frame [.events, .board, lanePart l] s (setMinp l g v s) := by
  unfold setMinp
  dsimp only
  split
  · exact Frame.refl _ _
  · split
    · refine Frame.under (modGen_only _ _ _ _) (by simp) ?_
      exact Frame.refl _ _
    · refine Frame.under (raise_only _ _ _) (by simp) ?_
      exact Frame.refl _ _

/-- What `execPwmDtWrite` can change. -/
theorem execPwmDtWrite_only (l : Lane) (g : Fin 16) (m : Master) (v : Word) (s : State) : FrameOut [.events, .board, .key, lanePart l] s (execPwmDtWrite l g m v s) := by
  unfold execPwmDtWrite
  unfold byMaster
  split
  · refine FrameOut.next ?_
    unfold rwkWrite
    dsimp only
    split
    · refine Frame.under (setDt_only _ _ _ _) (by simp) ?_
      refine Frame.comp ?_ (Frame.when ?_)
      · exact Frame.refl _ _
      · refine Frame.under (touchSession_only _) (by simp) ?_
        exact Frame.refl _ _
    · refine Frame.under (rwkDiscard_only _ _) (by simp) ?_
      refine Frame.comp ?_ (Frame.when ?_)
      · exact Frame.refl _ _
      · refine Frame.under (touchSession_only _) (by simp) ?_
        exact Frame.refl _ _
  · exact FrameOut.fault _ _ _

/-- What `execPwmMinpWrite` can change. -/
theorem execPwmMinpWrite_only (l : Lane) (g : Fin 16) (m : Master) (v : Word) (s : State) : FrameOut [.events, .board, .key, lanePart l] s (execPwmMinpWrite l g m v s) := by
  unfold execPwmMinpWrite
  unfold byMaster
  split
  · refine FrameOut.next ?_
    unfold rwkWrite
    dsimp only
    split
    · refine Frame.under (setMinp_only _ _ _ _) (by simp) ?_
      refine Frame.comp ?_ (Frame.when ?_)
      · exact Frame.refl _ _
      · refine Frame.under (touchSession_only _) (by simp) ?_
        exact Frame.refl _ _
    · refine Frame.under (rwkDiscard_only _ _) (by simp) ?_
      refine Frame.comp ?_ (Frame.when ?_)
      · exact Frame.refl _ _
      · refine Frame.under (touchSession_only _) (by simp) ?_
        exact Frame.refl _ _
  · exact FrameOut.fault _ _ _

/-- What `takeMirror` can change. -/
theorem takeMirror_only (l : Lane) (c : Fin 8) (g : Graph) (s : State) : Frame [lanePart l] s (takeMirror l c g s) :=
  setLane_keep _ _ _ rfl

/-- What `repairRow` can change. -/
theorem repairRow_only (l : Lane) (bank row ind : Nat) (s : State) : Frame [.events, .board, .wear] s (repairRow l bank row ind s) := by
  unfold repairRow
  split
  · exact Frame.refl _ _
  · split
    · refine Frame.under (modWear_only _ _) (by simp) ?_
      exact Frame.refl _ _
    · split
      · refine Frame.under (modWear_only _ _) (by simp) ?_
        exact Frame.refl _ _
      · refine Frame.under (noSpare_only _ _ _ _ _ _) (by simp) ?_
        exact Frame.refl _ _

/-- What `repairAny` can change. -/
theorem repairAny_only (l : Lane) (s : State) : Frame [.free, .events, .board, .wear] s (repairAny l s) := by
  unfold repairAny
  split
  refine Frame.under (repairRow_only _ _ _ _ _) (by simp) ?_
  refine Frame.under (Frame.snd (by assumption) (takeFree_only _)) (by simp) ?_
  exact Frame.refl _ _

/-- What `execLaneFault` can change. -/
theorem execLaneFault_only (l : Lane) (cause : Fin 10) (s : State) : FrameOut [.free, .events, .board, .claim, .wear] s (execLaneFault l cause s) := by
  unfold execLaneFault
  refine FrameOut.next ?_
  split
  · exact Frame.refl _ _
  · refine Frame.comp ?_ (Frame.when ?_)
    · refine Frame.under (faultLane_only _ _ _) (by simp) ?_
      exact Frame.refl _ _
    · refine Frame.under (repairAny_only _ _) (by simp) ?_
      exact Frame.refl _ _

/-- What `notGood` can change. -/
theorem notGood_only (s : State) : Frame [.claim] s (notGood s) := by
  unfold notGood
  refine Frame.under (modLc_only _ _ _) (by simp) ?_
  refine Frame.under (modLc_only _ _ _) (by simp) ?_
  exact Frame.refl _ _

/-- What `contextImage` can change. -/
theorem contextImage_only (l : Lane) (c : Fin 8) (s : State) : Frame [lanePart l] s (contextImage l c s) := by
  unfold contextImage
  split
  · exact Frame.refl _ _
  · refine Frame.under (modCtx_only _ _ _ _) (by simp) ?_
    refine Frame.under (modEng_only _ _ _) (by simp) ?_
    exact Frame.refl _ _

/-- What `configGen` can change. -/
theorem configGen_only (l : Lane) (g : Fin 16) (s : State) : Frame [lanePart l] s (configGen l g s) := by
  unfold configGen
  split
  · exact Frame.refl _ _
  · dsimp only
    refine Frame.under (modGen_only _ _ _ _) (by simp) ?_
    exact Frame.refl _ _

/-- What `configGf` can change. -/
theorem configGf_only (l : Lane) (s : State) : Frame [.events, .board, .laneA, .laneB] s (configGf l s) := by
  unfold configGf
  split
  · refine Frame.under (modGf_only _ _ _) (by repeat' first | exact sub_nil _ | (refine lanePart_mem _ ?_ ?_ <;> (simp; done)) | (refine sramPart_mem _ ?_ ?_ <;> (simp; done)) | refine sub_cons ?_ ?_ | (simp; done)) ?_
    exact Frame.refl _ _
  · exact Frame.refl _ _

/-- What `laneImage` can change. -/
theorem laneImage_only (l : Lane) (s : State) : Frame [.events, .board, .laneA, .laneB] s (laneImage l s) := by
  unfold laneImage
  dsimp only
  refine Frame.comp ?_ (Frame.foldS _ _ _ fun _ _ => ?_)
  · refine Frame.under (configGf_only _ _) (by simp) ?_
    refine Frame.comp ?_ (Frame.foldS _ _ _ fun _ _ => ?_)
    · refine Frame.comp ?_ (Frame.foldS _ _ _ fun _ _ => ?_)
      · exact Frame.refl _ _
      · refine Frame.under (contextImage_only _ _ _) (by repeat' first | exact sub_nil _ | (refine lanePart_mem _ ?_ ?_ <;> (simp; done)) | (refine sramPart_mem _ ?_ ?_ <;> (simp; done)) | refine sub_cons ?_ ?_ | (simp; done)) ?_
        exact Frame.refl _ _
    · refine Frame.under (configGen_only _ _ _) (by repeat' first | exact sub_nil _ | (refine lanePart_mem _ ?_ ?_ <;> (simp; done)) | (refine sramPart_mem _ ?_ ?_ <;> (simp; done)) | refine sub_cons ?_ ?_ | (simp; done)) ?_
      exact Frame.refl _ _
  · refine Frame.comp ?_ (Frame.when ?_)
    · exact Frame.refl _ _
    · refine Frame.under (modPin_only _ _ _ _) (by repeat' first | exact sub_nil _ | (refine lanePart_mem _ ?_ ?_ <;> (simp; done)) | (refine sramPart_mem _ ?_ ?_ <;> (simp; done)) | refine sub_cons ?_ ?_ | (simp; done)) ?_
      exact Frame.refl _ _

/-- What `laneRecovered` can change. -/
theorem laneRecovered_only (l : Lane) (s : State) : Frame [.events, .board, .gate, .claim] s (laneRecovered l s) := by
  unfold laneRecovered
  refine Frame.under (raise_only _ _ _) (by simp) ?_
  refine Frame.under (modGate_only _ _) (by simp) ?_
  refine Frame.under (modLc_only _ _ _) (by simp) ?_
  exact Frame.refl _ _

/-- What `tryRecover` can change. -/
theorem tryRecover_only (l : Lane) (s : State) : Frame [.events, .board, .gate, .claim] s (tryRecover l s) := by
  unfold tryRecover
  dsimp only
  split
  · refine Frame.under (laneRecovered_only _ _) (by simp) ?_
    exact Frame.refl _ _
  · exact Frame.refl _ _

/-- What `startMatch` can change. -/
theorem startMatch_only (l : Lane) (s : State) : Frame [.events, .board, .gate, .claim] s (startMatch l s) := by
  unfold startMatch
  refine Frame.under (tryRecover_only _ _) (by simp) ?_
  refine Frame.under (modLc_only _ _ _) (by simp) ?_
  exact Frame.refl _ _

/-- What `recoveryStart` can change. -/
theorem recoveryStart_only (l : Lane) (s : State) : Frame [.claim] s (recoveryStart l s) := by
  unfold recoveryStart
  dsimp only
  split
  · refine Frame.under (modLc_only _ _ _) (by simp) ?_
    exact Frame.refl _ _
  · exact Frame.refl _ _

/-- What `execRecoveryStart` can change. -/
theorem execRecoveryStart_only (l : Lane) (s : State) : FrameOut [.claim] s (execRecoveryStart l s) := by
  unfold execRecoveryStart
  refine FrameOut.next ?_
  refine Frame.under (recoveryStart_only _ _) (by simp) ?_
  exact Frame.refl _ _

/-- What `selfCheckDone` can change. -/
theorem selfCheckDone_only (l : Lane) (failed : List (Fin 18)) (s : State) : Frame [.time, .events, .board, .laneA, .laneB, .gate, .claim, .wear] s (selfCheckDone l failed s) := by
  unfold selfCheckDone
  dsimp only
  split
  · exact Frame.refl _ _
  · split
    · split
      · refine Frame.under (startMatch_only _ _) (by simp) ?_
        refine Frame.under (modLc_only _ _ _) (by simp) ?_
        refine Frame.comp ?_ (Frame.foldS _ _ _ fun _ _ => ?_)
        · refine Frame.under (elapseTo_only _ _) (by simp) ?_
          exact Frame.refl _ _
        · refine Frame.under (loseUnit_only _ _ _) (by repeat' first | exact sub_nil _ | (refine lanePart_mem _ ?_ ?_ <;> (simp; done)) | (refine sramPart_mem _ ?_ ?_ <;> (simp; done)) | refine sub_cons ?_ ?_ | (simp; done)) ?_
          exact Frame.refl _ _
      · refine Frame.under (modLc_only _ _ _) (by simp) ?_
        refine Frame.comp ?_ (Frame.foldS _ _ _ fun _ _ => ?_)
        · refine Frame.under (elapseTo_only _ _) (by simp) ?_
          exact Frame.refl _ _
        · refine Frame.under (loseUnit_only _ _ _) (by repeat' first | exact sub_nil _ | (refine lanePart_mem _ ?_ ?_ <;> (simp; done)) | (refine sramPart_mem _ ?_ ?_ <;> (simp; done)) | refine sub_cons ?_ ?_ | (simp; done)) ?_
          exact Frame.refl _ _
    · split
      · refine Frame.under (startMatch_only _ _) (by simp) ?_
        refine Frame.under (applyBlocks_only _) (by simp) ?_
        refine Frame.under (laneImage_only _ _) (by simp) ?_
        refine Frame.comp ?_ (Frame.foldS _ _ _ fun _ _ => ?_)
        · refine Frame.under (elapseTo_only _ _) (by simp) ?_
          exact Frame.refl _ _
        · refine Frame.under (loseUnit_only _ _ _) (by repeat' first | exact sub_nil _ | (refine lanePart_mem _ ?_ ?_ <;> (simp; done)) | (refine sramPart_mem _ ?_ ?_ <;> (simp; done)) | refine sub_cons ?_ ?_ | (simp; done)) ?_
          exact Frame.refl _ _
      · refine Frame.comp ?_ (Frame.foldS _ _ _ fun _ _ => ?_)
        · refine Frame.under (elapseTo_only _ _) (by simp) ?_
          exact Frame.refl _ _
        · refine Frame.under (loseUnit_only _ _ _) (by repeat' first | exact sub_nil _ | (refine lanePart_mem _ ?_ ?_ <;> (simp; done)) | (refine sramPart_mem _ ?_ ?_ <;> (simp; done)) | refine sub_cons ?_ ?_ | (simp; done)) ?_
          exact Frame.refl _ _

/-- What `execSelfCheckDone` can change. -/
theorem execSelfCheckDone_only (check : SelfCheck) (s : State) : FrameOut [.time, .events, .board, .laneA, .laneB, .gate, .claim, .wear] s (execSelfCheckDone check s) := by
  unfold execSelfCheckDone
  refine FrameOut.next ?_
  refine Frame.under (selfCheckDone_only _ _ _) (by simp) ?_
  exact Frame.refl _ _

/-- What `mirrorReceived` can change. -/
theorem mirrorReceived_only (l : Lane) (c : Fin 8) (s : State) : Frame [.events, .board, .laneA, .laneB, .sramA, .sramB, .gate, .claim] s (mirrorReceived l c s) := by
  unfold mirrorReceived
  split
  · exact Frame.refl _ _
  · split
    · exact Frame.refl _ _
    · dsimp only
      split
      · refine Frame.under (startMatch_only _ _) (by simp) ?_
        refine Frame.under (modLc_only _ _ _) (by simp) ?_
        refine Frame.under (takeMirror_only _ _ _ _) (by repeat' first | exact sub_nil _ | (refine lanePart_mem _ ?_ ?_ <;> (simp; done)) | (refine sramPart_mem _ ?_ ?_ <;> (simp; done)) | refine sub_cons ?_ ?_ | (simp; done)) ?_
        exact Frame.refl _ _
      · refine Frame.under (modLc_only _ _ _) (by simp) ?_
        refine Frame.under (takeMirror_only _ _ _ _) (by repeat' first | exact sub_nil _ | (refine lanePart_mem _ ?_ ?_ <;> (simp; done)) | (refine sramPart_mem _ ?_ ?_ <;> (simp; done)) | refine sub_cons ?_ ?_ | (simp; done)) ?_
        exact Frame.refl _ _

/-- What `execMirrorReceived` can change. -/
theorem execMirrorReceived_only (l : Lane) (ctx : Fin 8) (s : State) : FrameOut [.events, .board, .laneA, .laneB, .sramA, .sramB, .gate, .claim] s (execMirrorReceived l ctx s) := by
  unfold execMirrorReceived
  refine FrameOut.next ?_
  refine Frame.under (mirrorReceived_only _ _ _) (by simp) ?_
  exact Frame.refl _ _

/-- What `signatureReceived` can change. -/
theorem signatureReceived_only (l : Lane) (c : Fin 8) (step : Nat) (sig : Word) (s : State) : Frame [.events, .board, .gate, .claim] s (signatureReceived l c step sig s) := by
  unfold signatureReceived
  split
  · exact Frame.refl _ _
  · dsimp only
    split
    · split
      · refine Frame.under (tryRecover_only _ _) (by simp) ?_
        refine Frame.under (modLc_only _ _ _) (by simp) ?_
        refine Frame.under (modLc_only _ _ _) (by simp) ?_
        exact Frame.refl _ _
      · refine Frame.under (modLc_only _ _ _) (by simp) ?_
        exact Frame.refl _ _
    · split
      · refine Frame.under (modLc_only _ _ _) (by simp) ?_
        exact Frame.refl _ _
      · refine Frame.under (faultLane_only _ _ _) (by simp) ?_
        refine Frame.under (notGood_only _) (by simp) ?_
        refine Frame.under (raise_only _ _ _) (by simp) ?_
        refine Frame.under (modLc_only _ _ _) (by simp) ?_
        exact Frame.refl _ _

/-- What `execSignatureReceived` can change. -/
theorem execSignatureReceived_only (l : Lane) (ctx : Fin 8) (step : Nat) (sig : Word) (s : State) : FrameOut [.events, .board, .gate, .claim] s (execSignatureReceived l ctx step sig s) := by
  unfold execSignatureReceived
  refine FrameOut.next ?_
  refine Frame.under (signatureReceived_only _ _ _ _ _) (by simp) ?_
  exact Frame.refl _ _

/-- What `timebaseCompare` can change. -/
theorem timebaseCompare_only (err : Int) (s : State) : Frame [.time, .events, .board, .claim] s (timebaseCompare err s) := by
  unfold timebaseCompare
  split
  · exact Frame.refl _ _
  · dsimp only
    refine Frame.comp ?_ (Frame.when ?_)
    · refine Frame.comp ?_ (Frame.when ?_)
      · refine Frame.under (modClaim_only _ _) (by simp) ?_
        refine Frame.under (periodic_only _ _ _) (by simp) ?_
        exact Frame.refl _ _
      · refine Frame.under (notGood_only _) (by simp) ?_
        refine Frame.under (raise_only _ _ _) (by simp) ?_
        exact Frame.refl _ _
    · refine Frame.under (faultLane_only _ _ _) (by simp) ?_
      exact Frame.refl _ _

/-- What `execTimebaseCompare` can change. -/
theorem execTimebaseCompare_only (err : Int) (s : State) : FrameOut [.time, .events, .board, .claim] s (execTimebaseCompare err s) := by
  unfold execTimebaseCompare
  refine FrameOut.next ?_
  refine Frame.under (timebaseCompare_only _ _) (by simp) ?_
  exact Frame.refl _ _

/-- What `tsuDown` can change. -/
theorem tsuDown_only (l : Lane) (s : State) : Frame [.events, .board, .claim] s (tsuDown l s) := by
  unfold tsuDown
  split
  · exact Frame.refl _ _
  · dsimp only
    refine Frame.under (faultLane_only _ _ _) (by simp) ?_
    refine Frame.under (raise_only _ _ _) (by simp) ?_
    refine Frame.under (modTsu_only _ _ _) (by simp) ?_
    refine Frame.under (modTsu_only _ _ _) (by simp) ?_
    exact Frame.refl _ _

/-- What `tsuinSwap` can change. -/
theorem tsuinSwap_only (toB : Bool) (k : Fin 5) (lostLock : Bool) (hdrErrors : Nat) (s : State) : Frame [.events, .board, .claim, .wear] s (tsuinSwap toB k lostLock hdrErrors s) := by
  unfold tsuinSwap
  dsimp only
  split
  · exact Frame.refl _ _
  · refine Frame.comp ?_ (Frame.when ?_)
    · split
      · refine Frame.under (raise_only _ _ _) (by simp) ?_
        refine Frame.under (hingeSwap_only _ _ _ _ _ _ _) (by simp) ?_
        refine Frame.under (modTsu_only _ _ _) (by simp) ?_
        refine Frame.under (modTsu_only _ _ _) (by simp) ?_
        exact Frame.refl _ _
      · split
        · refine Frame.under (noSpare_only _ _ _ _ _ _) (by simp) ?_
          refine Frame.under (modTsu_only _ _ _) (by simp) ?_
          exact Frame.refl _ _
        · refine Frame.under (modTsu_only _ _ _) (by simp) ?_
          exact Frame.refl _ _
    · refine Frame.under (tsuDown_only _ _) (by simp) ?_
      exact Frame.refl _ _

/-- What `execTsuinSwap` can change. -/
theorem execTsuinSwap_only (toB : Bool) (k : Fin 5) (lostLock : Bool) (hdrErrors : Nat) (s : State) : FrameOut [.events, .board, .claim, .wear] s (execTsuinSwap toB k lostLock hdrErrors s) := by
  unfold execTsuinSwap
  refine FrameOut.next ?_
  refine Frame.under (tsuinSwap_only _ _ _ _ _) (by simp) ?_
  exact Frame.refl _ _

/-- What `tsuinRetrained` can change. -/
theorem tsuinRetrained_only (s : State) : Frame [.claim] s (tsuinRetrained s) := by
  unfold tsuinRetrained
  split
  · exact Frame.refl _ _
  · refine Frame.comp ?_ (Frame.foldS _ _ _ fun _ _ => ?_)
    · exact Frame.refl _ _
    · refine Frame.under (modTsu_only _ _ _) (by simp) ?_
      exact Frame.refl _ _

/-- What `execTsuinRetrained` can change. -/
theorem execTsuinRetrained_only (s : State) : FrameOut [.claim] s (execTsuinRetrained s) := by
  unfold execTsuinRetrained
  refine FrameOut.next ?_
  refine Frame.under (tsuinRetrained_only _) (by simp) ?_
  exact Frame.refl _ _

/-- What `applyMirrored` can change. -/
theorem applyMirrored_only (l : Lane) (w : MirrorWrite) (s : State) : Frame [.events, .board, .laneA, .laneB, .gate] s (applyMirrored l w s) := by
  unfold applyMirrored
  split
  · refine Frame.under (coefArrival_only _ _ _ _) (by repeat' first | exact sub_nil _ | (refine lanePart_mem _ ?_ ?_ <;> (simp; done)) | (refine sramPart_mem _ ?_ ?_ <;> (simp; done)) | refine sub_cons ?_ ?_ | (simp; done)) ?_
    exact Frame.refl _ _
  · refine Frame.under (coefArrival_only _ _ _ _) (by repeat' first | exact sub_nil _ | (refine lanePart_mem _ ?_ ?_ <;> (simp; done)) | (refine sramPart_mem _ ?_ ?_ <;> (simp; done)) | refine sub_cons ?_ ?_ | (simp; done)) ?_
    exact Frame.refl _ _
  · refine Frame.under (setInhibit_only _ _ _) (by repeat' first | exact sub_nil _ | (refine lanePart_mem _ ?_ ?_ <;> (simp; done)) | (refine sramPart_mem _ ?_ ?_ <;> (simp; done)) | refine sub_cons ?_ ?_ | (simp; done)) ?_
    exact Frame.refl _ _
  · refine Frame.under (stageParam_only _ _ _ _) (by repeat' first | exact sub_nil _ | (refine lanePart_mem _ ?_ ?_ <;> (simp; done)) | (refine sramPart_mem _ ?_ ?_ <;> (simp; done)) | refine sub_cons ?_ ?_ | (simp; done)) ?_
    exact Frame.refl _ _
  · refine Frame.under (gfCommitArrival_only _ _ _) (by simp) ?_
    exact Frame.refl _ _
  · refine Frame.under (stagePer_only _ _ _ _) (by repeat' first | exact sub_nil _ | (refine lanePart_mem _ ?_ ?_ <;> (simp; done)) | (refine sramPart_mem _ ?_ ?_ <;> (simp; done)) | refine sub_cons ?_ ?_ | (simp; done)) ?_
    exact Frame.refl _ _
  · refine Frame.under (stageDuty_only _ _ _ _) (by repeat' first | exact sub_nil _ | (refine lanePart_mem _ ?_ ?_ <;> (simp; done)) | (refine sramPart_mem _ ?_ ?_ <;> (simp; done)) | refine sub_cons ?_ ?_ | (simp; done)) ?_
    exact Frame.refl _ _
  · refine Frame.under (stageDutyf_only _ _ _ _) (by repeat' first | exact sub_nil _ | (refine lanePart_mem _ ?_ ?_ <;> (simp; done)) | (refine sramPart_mem _ ?_ ?_ <;> (simp; done)) | refine sub_cons ?_ ?_ | (simp; done)) ?_
    exact Frame.refl _ _
  · refine Frame.under (tokens_only _ _ _) (by repeat' first | exact sub_nil _ | (refine lanePart_mem _ ?_ ?_ <;> (simp; done)) | (refine sramPart_mem _ ?_ ?_ <;> (simp; done)) | refine sub_cons ?_ ?_ | (simp; done)) ?_
    exact Frame.refl _ _
  · refine Frame.under (clearGroups_only _ _) (by simp) ?_
    exact Frame.refl _ _
  · refine Frame.under (releaseIn_only _ _ _) (by repeat' first | exact sub_nil _ | (refine lanePart_mem _ ?_ ?_ <;> (simp; done)) | (refine sramPart_mem _ ?_ ?_ <;> (simp; done)) | refine sub_cons ?_ ?_ | (simp; done)) ?_
    exact Frame.refl _ _

/-- What `dropMirrored` can change. -/
theorem dropMirrored_only (l : Lane) (w : MirrorWrite) (s : State) : Frame [.events, .board, .laneA, .laneB] s (dropMirrored l w s) := by
  unfold dropMirrored
  split
  · refine Frame.under (modCtx_only _ _ _ _) (by repeat' first | exact sub_nil _ | (refine lanePart_mem _ ?_ ?_ <;> (simp; done)) | (refine sramPart_mem _ ?_ ?_ <;> (simp; done)) | refine sub_cons ?_ ?_ | (simp; done)) ?_
    exact Frame.refl _ _
  · refine Frame.under (modCtx_only _ _ _ _) (by repeat' first | exact sub_nil _ | (refine lanePart_mem _ ?_ ?_ <;> (simp; done)) | (refine sramPart_mem _ ?_ ?_ <;> (simp; done)) | refine sub_cons ?_ ?_ | (simp; done)) ?_
    exact Frame.refl _ _
  · split
    · exact Frame.refl _ _
    · refine Frame.under (modGf_only _ _ _) (by repeat' first | exact sub_nil _ | (refine lanePart_mem _ ?_ ?_ <;> (simp; done)) | (refine sramPart_mem _ ?_ ?_ <;> (simp; done)) | refine sub_cons ?_ ?_ | (simp; done)) ?_
      exact Frame.refl _ _
  · exact Frame.refl _ _

/-- What `execMirroredWriteArrival` can change. -/
theorem execMirroredWriteArrival_only (rx : MirrorRx) (s : State) : FrameOut [.events, .board, .laneA, .laneB, .gate, .claim] s (execMirroredWriteArrival rx s) := by
  unfold execMirroredWriteArrival
  dsimp only
  refine FrameOut.next ?_
  split
  · exact Frame.refl _ _
  · split
    · refine Frame.under (dropMirrored_only _ _ _) (by simp) ?_
      refine Frame.under (crcErrors_only _ _ _) (by simp) ?_
      refine Frame.under (modTsu_only _ _ _) (by simp) ?_
      exact Frame.refl _ _
    · refine Frame.under (applyMirrored_only _ _ _) (by simp) ?_
      refine Frame.under (crcErrors_only _ _ _) (by simp) ?_
      refine Frame.under (modTsu_only _ _ _) (by simp) ?_
      exact Frame.refl _ _

/-- What `claimRaise` can change. -/
theorem claimRaise_only (s : State) : Frame [.time, .claim] s (claimRaise s) := by
  unfold claimRaise
  dsimp only
  split
  · refine Frame.under (modLc_only _ _ _) (by simp) ?_
    refine Frame.under (elapseTo_only _ _) (by simp) ?_
    exact Frame.refl _ _
  · exact Frame.refl _ _

/-- What `execClaimRaise` can change. -/
theorem execClaimRaise_only (s : State) : FrameOut [.time, .claim] s (execClaimRaise s) := by
  unfold execClaimRaise
  refine FrameOut.next ?_
  refine Frame.under (claimRaise_only _) (by simp) ?_
  exact Frame.refl _ _

/-- What `setClmCtl` can change. -/
theorem setClmCtl_only (v : Word) (s : State) : Frame [.events, .board, .claim] s (setClmCtl v s) := by
  unfold setClmCtl
  dsimp only
  split
  · refine Frame.under (raise_only _ _ _) (by simp) ?_
    exact Frame.refl _ _
  · split
    · refine Frame.under (modClaim_only _ _) (by simp) ?_
      exact Frame.refl _ _
    · split
      · refine Frame.under (modLc_only _ _ _) (by simp) ?_
        refine Frame.under (modLc_only _ _ _) (by simp) ?_
        refine Frame.under (modClaim_only _ _) (by simp) ?_
        exact Frame.refl _ _
      · refine Frame.under (modLc_only _ _ _) (by simp) ?_
        refine Frame.under (modClaim_only _ _) (by simp) ?_
        exact Frame.refl _ _

/-- What `execClmCtlWrite` can change. -/
theorem execClmCtlWrite_only (m : Master) (v : Word) (s : State) : FrameOut [.events, .board, .key, .claim] s (execClmCtlWrite m v s) := by
  unfold execClmCtlWrite
  unfold byMaster
  split
  · refine FrameOut.next ?_
    unfold rwkWrite
    dsimp only
    split
    · refine Frame.under (setClmCtl_only _ _) (by simp) ?_
      refine Frame.comp ?_ (Frame.when ?_)
      · exact Frame.refl _ _
      · refine Frame.under (touchSession_only _) (by simp) ?_
        exact Frame.refl _ _
    · refine Frame.under (rwkDiscard_only _ _) (by simp) ?_
      refine Frame.comp ?_ (Frame.when ?_)
      · exact Frame.refl _ _
      · refine Frame.under (touchSession_only _) (by simp) ?_
        exact Frame.refl _ _
  · exact FrameOut.fault _ _ _

/-- What `offlineCmd` can change. -/
theorem offlineCmd_only (key : Half) (l : Lane) (s : State) : Frame [.events, .board, .claim] s (offlineCmd key l s) := by
  unfold offlineCmd
  split
  · refine Frame.under (faultLane_only _ _ _) (by simp) ?_
    exact Frame.refl _ _
  · refine Frame.under (raise_only _ _ _) (by simp) ?_
    exact Frame.refl _ _

/-- What `execOffline` can change. -/
theorem execOffline_only (key : Half) (l : Lane) (s : State) : FrameOut [.events, .board, .claim] s (execOffline key l s) := by
  unfold execOffline
  refine FrameOut.next ?_
  refine Frame.under (offlineCmd_only _ _ _) (by simp) ?_
  exact Frame.refl _ _

/-- What `recoverCmd` can change. -/
theorem recoverCmd_only (key : Half) (l : Lane) (s : State) : Frame [.events, .board, .claim] s (recoverCmd key l s) := by
  unfold recoverCmd
  dsimp only
  split
  · refine Frame.under (recoveryStart_only _ _) (by simp) ?_
    refine Frame.under (modLc_only _ _ _) (by simp) ?_
    exact Frame.refl _ _
  · refine Frame.under (raise_only _ _ _) (by simp) ?_
    exact Frame.refl _ _

/-- What `execRecover` can change. -/
theorem execRecover_only (key : Half) (l : Lane) (s : State) : FrameOut [.events, .board, .claim] s (execRecover key l s) := by
  unfold execRecover
  refine FrameOut.next ?_
  refine Frame.under (recoverCmd_only _ _ _) (by simp) ?_
  exact Frame.refl _ _

/-- What `followTum` can change. -/
theorem followTum_only (c : Fin 32) (s : State) : Frame [.gate] s (followTum c s) := by
  unfold followTum
  split
  · exact Frame.refl _ _
  · split
    · refine Frame.under (cutGate_only _ _) (by simp) ?_
      exact Frame.refl _ _
    · refine Frame.under (followFall_only _ _) (by simp) ?_
      exact Frame.refl _ _

/-- What `tumReact` can change. -/
theorem tumReact_only (c : Fin 32) (s : State) : Frame [.gate, .claim] s (tumReact c s) := by
  unfold tumReact
  dsimp only
  split
  · exact Frame.refl _ _
  · split
    · refine Frame.under (modTum_only _ _ _) (by simp) ?_
      exact Frame.refl _ _
    · split
      · refine Frame.under (followTum_only _ _) (by simp) ?_
        refine Frame.under (modTum_only _ _ _) (by simp) ?_
        exact Frame.refl _ _
      · refine Frame.under (modTum_only _ _ _) (by simp) ?_
        exact Frame.refl _ _

/-- What `noteSenior` can change. -/
theorem noteSenior_only (s : State) : Frame [.events, .board, .laneA, .laneB, .sramA, .sramB, .claim] s (noteSenior s) := by
  unfold noteSenior
  dsimp only
  split
  · exact Frame.refl _ _
  · refine Frame.comp ?_ (Frame.foldS _ _ _ fun _ _ => ?_)
    · refine Frame.under (modClaim_only _ _) (by simp) ?_
      exact Frame.refl _ _
    · refine Frame.under (recMark_only _ _ _ _ _ _ _ _) (by repeat' first | exact sub_nil _ | (refine lanePart_mem _ ?_ ?_ <;> (simp; done)) | (refine sramPart_mem _ ?_ ?_ <;> (simp; done)) | refine sub_cons ?_ ?_ | (simp; done)) ?_
      exact Frame.refl _ _

/-- What `claimChange` can change. -/
theorem claimChange_only (s : State) : Frame [.events, .board, .mode, .laneA, .laneB, .sramA, .sramB, .gate, .claim] s (claimChange s) := by
  unfold claimChange
  refine Frame.under (noteSenior_only _) (by simp) ?_
  unfold claimChange.judgeClaims
  split
  · exact Frame.refl _ _
  · dsimp only
    refine Frame.comp ?_ (Frame.foldS _ _ _ fun _ _ => ?_)
    · refine Frame.under (raiseIf_only _ _ _ _) (by simp) ?_
      refine Frame.under (raiseIf_only _ _ _ _) (by simp) ?_
      refine Frame.under (modClaim_only _ _) (by simp) ?_
      refine Frame.comp ?_ (Frame.foldS _ _ _ fun _ _ => ?_)
      · exact Frame.refl _ _
      · refine Frame.under (tumReact_only _ _) (by simp) ?_
        exact Frame.refl _ _
    · refine Frame.under (refreshWin_only _ _) (by simp) ?_
      exact Frame.refl _ _

/-- What `execClaimChange` can change. -/
theorem execClaimChange_only (s : State) : FrameOut [.events, .board, .mode, .laneA, .laneB, .sramA, .sramB, .gate, .claim] s (execClaimChange s) := by
  unfold execClaimChange
  refine FrameOut.next ?_
  refine Frame.under (claimChange_only _) (by simp) ?_
  exact Frame.refl _ _

/-- What `revertTumbler` can change. -/
theorem revertTumbler_only (ch : Fin 32) (s : State) : Frame [.time, .events, .board, .laneA, .laneB, .sramA, .sramB, .gate, .claim] s (revertTumbler ch s) := by
  unfold revertTumbler
  dsimp only
  split
  · exact Frame.refl _ _
  · refine Frame.under (noteSenior_only _) (by simp) ?_
    refine Frame.under (raise_only _ _ _) (by simp) ?_
    refine Frame.under (modClaim_only _ _) (by simp) ?_
    refine Frame.comp ?_ (Frame.foldS _ _ _ fun _ _ => ?_)
    · refine Frame.under (elapseTo_only _ _) (by simp) ?_
      exact Frame.refl _ _
    · refine Frame.under (followTum_only _ _) (by simp) ?_
      refine Frame.under (modTum_only _ _ _) (by simp) ?_
      exact Frame.refl _ _

/-- What `execRevert` can change. -/
theorem execRevert_only (ch : Fin 32) (s : State) : FrameOut [.time, .events, .board, .laneA, .laneB, .sramA, .sramB, .gate, .claim] s (execRevert ch s) := by
  unfold execRevert
  refine FrameOut.next ?_
  refine Frame.under (revertTumbler_only _ _) (by simp) ?_
  exact Frame.refl _ _

/-- What `lanesLost` can change. -/
theorem lanesLost_only (s : State) : Frame [.mode, .gate] s (lanesLost s) := by
  unfold lanesLost
  refine Frame.under (trigger_only _ _) (by simp) ?_
  refine Frame.under (settleGates_only _) (by simp) ?_
  refine Frame.under (modGate_only _ _) (by simp) ?_
  exact Frame.refl _ _

/-- What `switchover` can change. -/
theorem switchover_only (ch : Fin 32) (s : State) : Frame [.time, .events, .board, .mode, .laneA, .laneB, .sramA, .sramB, .gate, .claim] s (switchover ch s) := by
  unfold switchover
  dsimp only
  split
  · exact Frame.refl _ _
  · split
    · refine Frame.under (lanesLost_only _) (by simp) ?_
      refine Frame.comp ?_ (Frame.foldS _ _ _ fun _ _ => ?_)
      · refine Frame.under (elapseTo_only _ _) (by simp) ?_
        exact Frame.refl _ _
      · split
        · refine Frame.under (modTum_only _ _ _) (by simp) ?_
          exact Frame.refl _ _
        · refine Frame.under (followTum_only _ _) (by simp) ?_
          refine Frame.under (modTum_only _ _ _) (by simp) ?_
          exact Frame.refl _ _
    · refine Frame.under (noteTrigs_only _ _) (by simp) ?_
      refine Frame.comp ?_ (Frame.foldS _ _ _ fun _ _ => ?_)
      · refine Frame.under (claim_set _ _) (by simp) ?_
        refine Frame.under (raise_only _ _ _) (by simp) ?_
        refine Frame.under (modClaim_only _ _) (by simp) ?_
        refine Frame.comp ?_ (Frame.foldS _ _ _ fun _ _ => ?_)
        · refine Frame.under (elapseTo_only _ _) (by simp) ?_
          exact Frame.refl _ _
        · split
          · refine Frame.under (modTum_only _ _ _) (by simp) ?_
            exact Frame.refl _ _
          · refine Frame.under (followTum_only _ _) (by simp) ?_
            refine Frame.under (modTum_only _ _ _) (by simp) ?_
            exact Frame.refl _ _
      · refine Frame.under (recMark_only _ _ _ _ _ _ _ _) (by repeat' first | exact sub_nil _ | (refine lanePart_mem _ ?_ ?_ <;> (simp; done)) | (refine sramPart_mem _ ?_ ?_ <;> (simp; done)) | refine sub_cons ?_ ?_ | (simp; done)) ?_
        exact Frame.refl _ _

/-- What `execSwitchover` can change. -/
theorem execSwitchover_only (ch : Fin 32) (s : State) : FrameOut [.time, .events, .board, .mode, .laneA, .laneB, .sramA, .sramB, .gate, .claim] s (execSwitchover ch s) := by
  unfold execSwitchover
  refine FrameOut.next ?_
  refine Frame.under (switchover_only _ _) (by simp) ?_
  exact Frame.refl _ _

end Sys2Proof.Machine
end

