-- ==== Sys2Proof/Laws/FramesHub.lean ====
section
/-! SUPPORT. What each operation of the network, time, CAN, PulseLock and wear blocks, the islands, the start and the modes can change: one frame lemma per operation and command, read off its definition. -/

set_option linter.unusedTactic false
set_option linter.unreachableTactic false

namespace Sys2Proof.Machine

/-- What `modPort` can change. -/
theorem modPort_only (p : Fin 2) (f : NetPort → NetPort) (s : State) : Frame [.net] s (modPort p f s) := by
  unfold modPort
  refine Frame.under (modNet_only _ _) (by simp) ?_
  exact Frame.refl _ _

/-- What `countNet` can change. -/
theorem countNet_only (p : Fin 2) (i : Nat) (s : State) : Frame [.net] s (countNet p i s) := by
  unfold countNet
  refine Frame.under (modPort_only _ _ _) (by simp) ?_
  exact Frame.refl _ _

/-- What `forgetHeard` can change. -/
theorem forgetHeard_only (s : State) : Frame [.net] s (forgetHeard s) := by
  unfold forgetHeard
  refine Frame.under (modNet_only _ _) (by simp) ?_
  exact Frame.refl _ _

/-- What `dropLink` can change. -/
theorem dropLink_only (p : Fin 2) (s : State) : Frame [.events, .board, .net] s (dropLink p s) := by
  unfold dropLink
  refine Frame.under (raiseIf_only _ _ _ _) (by simp) ?_
  refine Frame.under (modPort_only _ _ _) (by simp) ?_
  refine Frame.under (forgetHeard_only _) (by simp) ?_
  exact Frame.refl _ _

/-- What `linkChange` can change. -/
theorem linkChange_only (p : Fin 2) (up : Bool) (speed : Fin 3) (s : State) : Frame [.events, .board, .net] s (linkChange p up speed s) := by
  unfold linkChange
  split
  · exact Frame.refl _ _
  · split
    · refine Frame.under (dropLink_only _ _) (by simp) ?_
      exact Frame.refl _ _
    · dsimp only
      split
      · refine Frame.under (raise_only _ _ _) (by simp) ?_
        refine Frame.under (modPort_only _ _ _) (by simp) ?_
        refine Frame.under (forgetHeard_only _) (by simp) ?_
        exact Frame.refl _ _
      · refine Frame.under (modPort_only _ _ _) (by simp) ?_
        exact Frame.refl _ _

/-- What `execLinkChange` can change. -/
theorem execLinkChange_only (p : Fin 2) (up : Bool) (speed : Fin 3) (s : State) : FrameOut [.events, .board, .net] s (execLinkChange p up speed s) := by
  unfold execLinkChange
  refine FrameOut.next ?_
  refine Frame.under (linkChange_only _ _ _ _) (by simp) ?_
  exact Frame.refl _ _

/-- What `sendPort` can change. -/
theorem sendPort_only (p : Fin 2) (kind dst : Nat) (seq : Option Half) (payload : List Byte) (s : State) : Frame [.net, .outbox] s (sendPort p kind dst seq payload s) := by
  unfold sendPort
  split
  · refine Frame.under (countNet_only _ _ _) (by simp) ?_
    refine Frame.under (send_only _ _) (by simp) ?_
    exact Frame.refl _ _
  · exact Frame.refl _ _

/-- What `sendNet` can change. -/
theorem sendNet_only (kind dst : Nat) (payload : List Byte) (s : State) : Frame [.net, .outbox] s (sendNet kind dst payload s) := by
  unfold sendNet
  split
  · refine Frame.under (sendPort_only _ _ _ _ _ _) (by simp) ?_
    exact Frame.refl _ _
  · dsimp only
    refine Frame.under (modNet_only _ _) (by simp) ?_
    refine Frame.under (sendPort_only _ _ _ _ _ _) (by simp) ?_
    refine Frame.under (sendPort_only _ _ _ _ _ _) (by simp) ?_
    exact Frame.refl _ _

/-- What `execSupervisionTx` can change. -/
theorem execSupervisionTx_only (s : State) : FrameOut [.time, .net, .outbox] s (execSupervisionTx s) := by
  unfold execSupervisionTx
  refine FrameOut.next ?_
  split
  · refine Frame.under (sendNet_only _ _ _ _) (by simp) ?_
    refine Frame.under (periodic_only _ _ _) (by simp) ?_
    exact Frame.refl _ _
  · exact Frame.refl _ _

/-- What `pdelayTx` can change. -/
theorem pdelayTx_only (s : State) : Frame [.time, .net, .outbox] s (pdelayTx s) := by
  unfold pdelayTx
  split
  · exact Frame.refl _ _
  · refine Frame.comp ?_ (Frame.foldS _ _ _ fun _ _ => ?_)
    · refine Frame.under (periodic_only _ _ _) (by simp) ?_
      exact Frame.refl _ _
    · split
      · refine Frame.under (modPort_only _ _ _) (by simp) ?_
        refine Frame.under (sendPort_only _ _ _ _ _ _) (by simp) ?_
        exact Frame.refl _ _
      · exact Frame.refl _ _

/-- What `execPdelayTx` can change. -/
theorem execPdelayTx_only (s : State) : FrameOut [.time, .net, .outbox] s (execPdelayTx s) := by
  unfold execPdelayTx
  refine FrameOut.next ?_
  refine Frame.under (pdelayTx_only _) (by simp) ?_
  exact Frame.refl _ _

/-- What `pdelayResp` can change. -/
theorem pdelayResp_only (p : Fin 2) (t1 t2 t3 t4 : Int) (s : State) : Frame [.net] s (pdelayResp p t1 t2 t3 t4 s) := by
  unfold pdelayResp
  split
  · exact Frame.refl _ _
  · dsimp only
    refine Frame.under (modPort_only _ _ _) (by simp) ?_
    exact Frame.refl _ _

/-- What `execPdelayRespRx` can change. -/
theorem execPdelayRespRx_only (p : Fin 2) (t1 t2 t3 t4 : Int) (s : State) : FrameOut [.net] s (execPdelayRespRx p t1 t2 t3 t4 s) := by
  unfold execPdelayRespRx
  refine FrameOut.next ?_
  refine Frame.under (pdelayResp_only _ _ _ _ _ _) (by simp) ?_
  exact Frame.refl _ _

/-- What `dupForget` can change. -/
theorem dupForget_only (s : State) : Frame [.net] s (dupForget s) := by
  unfold dupForget
  refine Frame.under (modNet_only _ _) (by simp) ?_
  exact Frame.refl _ _

/-- What `dupCheck` can change. -/
theorem dupCheck_only (p : Fin 2) (src : BitVec 48) (q : Half) (s0 : State) : Frame [.events, .board, .net] s0 (dupCheck p src q s0).2 := by
  unfold dupCheck
  dsimp only
  split
  · dsimp only
    refine Frame.under (modNet_only _ _) (by simp) ?_
    refine Frame.under (dupForget_only _) (by simp) ?_
    exact Frame.refl _ _
  · split
    · dsimp only
      refine Frame.under (modNet_only _ _) (by simp) ?_
      refine Frame.under (dupForget_only _) (by simp) ?_
      exact Frame.refl _ _
    · split
      · dsimp only
        refine Frame.under (dupForget_only _) (by simp) ?_
        exact Frame.refl _ _
      · dsimp only
        refine Frame.under (raise_only _ _ _) (by simp) ?_
        refine Frame.under (countNet_only _ _ _) (by simp) ?_
        refine Frame.under (modNet_only _ _) (by simp) ?_
        refine Frame.under (dupForget_only _) (by simp) ?_
        exact Frame.refl _ _

/-- What `execDupEntryExpire` can change. -/
theorem execDupEntryExpire_only (src : BitVec 48) (s : State) : FrameOut [.time, .net] s (execDupEntryExpire src s) := by
  unfold execDupEntryExpire
  refine FrameOut.next ?_
  split
  · exact Frame.refl _ _
  · refine Frame.under (modNet_only _ _) (by simp) ?_
    refine Frame.under (elapseTo_only _ _) (by simp) ?_
    exact Frame.refl _ _

/-- What `hearLan` can change. -/
theorem hearLan_only (p : Fin 2) (src : BitVec 48) (s : State) : Frame [.net] s (hearLan p src s) := by
  unfold hearLan
  split
  · exact Frame.refl _ _
  · dsimp only
    refine Frame.under (modNet_only _ _) (by simp) ?_
    exact Frame.refl _ _

/-- What `lanSilent` can change. -/
theorem lanSilent_only (src : BitVec 48) (s : State) : Frame [.time, .events, .board, .net] s (lanSilent src s) := by
  unfold lanSilent
  split
  · exact Frame.refl _ _
  · split
    · exact Frame.refl _ _
    · dsimp only
      split
      · refine Frame.under (elapseTo_only _ _) (by simp) ?_
        exact Frame.refl _ _
      · refine Frame.under (raise_only _ _ _) (by simp) ?_
        refine Frame.under (countNet_only _ _ _) (by simp) ?_
        refine Frame.under (modNet_only _ _) (by simp) ?_
        refine Frame.under (elapseTo_only _ _) (by simp) ?_
        exact Frame.refl _ _

/-- What `execLanFault` can change. -/
theorem execLanFault_only (src : BitVec 48) (s : State) : FrameOut [.time, .events, .board, .net] s (execLanFault src s) := by
  unfold execLanFault
  refine FrameOut.next ?_
  refine Frame.under (lanSilent_only _ _) (by simp) ?_
  exact Frame.refl _ _

/-- What `correctPtp` can change. -/
theorem correctPtp_only (p : Fin 2) (bs : List Byte) (s : State) : Frame [.free] s (correctPtp p bs s).2 := by
  unfold correctPtp
  dsimp only
  split
  · dsimp only
    exact Frame.refl _ _
  · dsimp only
    refine Frame.under (takeFree_only _) (by simp) ?_
    exact Frame.refl _ _

/-- What `forwardRing` can change. -/
theorem forwardRing_only (p : Fin 2) (f : EthFrame) (s : State) : Frame [.free, .net, .outbox] s (forwardRing p f s) := by
  unfold forwardRing
  dsimp only
  split
  · exact Frame.refl _ _
  · refine Frame.under (countNet_only _ _ _) (by simp) ?_
    refine Frame.under (sendPort_only _ _ _ _ _ _) (by simp) ?_
    split
    · refine Frame.under (correctPtp_only _ _ _) (by simp) ?_
      exact Frame.refl _ _
    · dsimp only
      exact Frame.refl _ _

/-- What `arpReply` can change. -/
theorem arpReply_only (f : EthFrame) (s : State) : Frame [.net, .outbox] s (arpReply f s) := by
  unfold arpReply
  split
  · exact Frame.refl _ _
  · refine Frame.under (sendNet_only _ _ _ _) (by simp) ?_
    exact Frame.refl _ _

/-- What `serveFrame` can change. -/
theorem serveFrame_only (p : Fin 2) (f : EthFrame) (s : State) : Frame [.net, .outbox] s (serveFrame p f s) := by
  unfold serveFrame
  split
  · exact Frame.refl _ _
  · split
    · refine Frame.under (arpReply_only _ _) (by simp) ?_
      exact Frame.refl _ _
    · refine Frame.under (sendNet_only _ _ _ _) (by simp) ?_
      exact Frame.refl _ _
    · split
      · exact Frame.refl _ _
      · refine Frame.under (countNet_only _ _ _) (by simp) ?_
        exact Frame.refl _ _
    · refine Frame.under (countNet_only _ _ _) (by simp) ?_
      exact Frame.refl _ _
    · exact Frame.refl _ _

/-- What `ethFrameRx` can change. -/
theorem ethFrameRx_only (p : Fin 2) (f : EthFrame) (s : State) : Frame [.free, .events, .board, .net, .outbox] s (ethFrameRx p f s) := by
  unfold ethFrameRx
  split
  · exact Frame.refl _ _
  · split
    · refine Frame.under (countNet_only _ _ _) (by simp) ?_
      exact Frame.refl _ _
    · dsimp only
      split
      · refine Frame.under (serveFrame_only _ _ _) (by simp) ?_
        refine Frame.under (hearLan_only _ _ _) (by simp) ?_
        refine Frame.under (countNet_only _ _ _) (by simp) ?_
        exact Frame.refl _ _
      · split
        · refine Frame.under (hearLan_only _ _ _) (by simp) ?_
          refine Frame.under (countNet_only _ _ _) (by simp) ?_
          exact Frame.refl _ _
        · split
          · refine Frame.under (serveFrame_only _ _ _) (by simp) ?_
            refine Frame.under (countNet_only _ _ _) (by simp) ?_
            refine Frame.under (forwardRing_only _ _ _) (by simp) ?_
            refine Frame.under (hearLan_only _ _ _) (by simp) ?_
            refine Frame.under (countNet_only _ _ _) (by simp) ?_
            exact Frame.refl _ _
          · split
            · refine Frame.under (serveFrame_only _ _ _) (by simp) ?_
              refine Frame.under (hearLan_only _ _ _) (by simp) ?_
              refine Frame.under (countNet_only _ _ _) (by simp) ?_
              exact Frame.refl _ _
            · split
              · refine Frame.under (countNet_only _ _ _) (by simp) ?_
                refine Frame.under (dupCheck_only _ _ _ _) (by simp) ?_
                refine Frame.under (hearLan_only _ _ _) (by simp) ?_
                refine Frame.under (countNet_only _ _ _) (by simp) ?_
                exact Frame.refl _ _
              · refine Frame.under (serveFrame_only _ _ _) (by simp) ?_
                refine Frame.under (forwardRing_only _ _ _) (by simp) ?_
                refine Frame.under (dupCheck_only _ _ _ _) (by simp) ?_
                refine Frame.under (hearLan_only _ _ _) (by simp) ?_
                refine Frame.under (countNet_only _ _ _) (by simp) ?_
                exact Frame.refl _ _

/-- What `execEthFrameRx` can change. -/
theorem execEthFrameRx_only (p : Fin 2) (f : EthFrame) (s : State) : FrameOut [.free, .events, .board, .net, .outbox] s (execEthFrameRx p f s) := by
  unfold execEthFrameRx
  refine FrameOut.next ?_
  refine Frame.under (ethFrameRx_only _ _ _) (by simp) ?_
  exact Frame.refl _ _

/-- What `netStart` can change. -/
theorem netStart_only (s : State) : Frame [.net] s (netStart s) := by
  unfold netStart
  dsimp only
  split
  · exact Frame.refl _ _
  · refine Frame.under (modNet_only _ _) (by simp) ?_
    exact Frame.refl _ _

/-- What `netStopped` can change. -/
theorem netStopped_only (b : Bool) (s : State) : Frame [.events, .board, .net] s (netStopped b s) := by
  unfold netStopped
  split
  · exact Frame.refl _ _
  · split
    · refine Frame.under (raise_only _ _ _) (by simp) ?_
      refine Frame.under (modNet_only _ _) (by simp) ?_
      exact Frame.refl _ _
    · refine Frame.under (modNet_only _ _) (by simp) ?_
      exact Frame.refl _ _

/-- What `modDom` can change. -/
theorem modDom_only (k : Fin 2) (f : TimeDomain → TimeDomain) (s : State) : Frame [.timebase] s (modDom k f s) := by
  unfold modDom
  refine Frame.under (modTime_only _ _) (by simp) ?_
  exact Frame.refl _ _

/-- What `reanchor` can change. -/
theorem reanchor_only (k : Fin 2) (move : Int) (rate : Int) (s : State) : Frame [.timebase] s (reanchor k move rate s) := by
  unfold reanchor
  refine Frame.under (modDom_only _ _ _) (by simp) ?_
  exact Frame.refl _ _

/-- What `freeRate` can change. -/
theorem freeRate_only (s : State) : Frame [.free] s (freeRate s).2 := by
  unfold freeRate
  split
  dsimp only
  refine Frame.under (Frame.snd (by assumption) (takeFree_only _)) (by simp) ?_
  exact Frame.refl _ _

/-- What `setResid` can change. -/
theorem setResid_only (k : Fin 2) (r : Int) (s : State) : Frame [.timebase] s (setResid k r s) := by
  unfold setResid
  refine Frame.under (modTime_only _ _) (by simp) ?_
  exact Frame.refl _ _

/-- What `zeroResid` can change. -/
theorem zeroResid_only (s : State) : Frame [.events, .board, .laneA, .laneB, .timebase] s (zeroResid s) := by
  unfold zeroResid
  split
  · exact Frame.refl _ _
  · refine Frame.under (realign_only _) (by simp) ?_
    refine Frame.under (setResid_only _ _ _) (by simp) ?_
    exact Frame.refl _ _

/-- What `selectDom` can change. -/
theorem selectDom_only (k : Fin 2) (s : State) : Frame [.events, .board, .laneA, .laneB, .timebase] s (selectDom k s) := by
  unfold selectDom
  split
  · exact Frame.refl _ _
  · dsimp only
    split
    · refine Frame.under (zeroResid_only _) (by simp) ?_
      refine Frame.under (raise_only _ _ _) (by simp) ?_
      refine Frame.under (setResid_only _ _ _) (by simp) ?_
      exact Frame.refl _ _
    · refine Frame.under (raise_only _ _ _) (by simp) ?_
      refine Frame.under (setResid_only _ _ _) (by simp) ?_
      exact Frame.refl _ _

/-- What `reselect` can change. -/
theorem reselect_only (s : State) : Frame [.events, .board, .laneA, .laneB, .timebase] s (reselect s) := by
  unfold reselect
  split
  · refine Frame.under (selectDom_only _ _) (by simp) ?_
    exact Frame.refl _ _
  · refine Frame.under (selectDom_only _ _) (by simp) ?_
    exact Frame.refl _ _
  · dsimp only
    split
    · refine Frame.under (selectDom_only _ _) (by simp) ?_
      exact Frame.refl _ _
    · exact Frame.refl _ _

/-- What `proofCheck` can change. -/
theorem proofCheck_only (s : State) : Frame [.plk] s (proofCheck s) := by
  unfold proofCheck
  dsimp only
  split
  · split
    · refine Frame.under (modPlk_only _ _) (by simp) ?_
      exact Frame.refl _ _
    · exact Frame.refl _ _
  · split
    · refine Frame.under (modPlk_only _ _) (by simp) ?_
      exact Frame.refl _ _
    · exact Frame.refl _ _

/-- What `acquire` can change. -/
theorem acquire_only (k : Fin 2) (s : State) : Frame [.events, .board, .laneA, .laneB, .timebase] s (acquire k s) := by
  unfold acquire
  refine Frame.under (reselect_only _) (by simp) ?_
  refine Frame.under (modDom_only _ _ _) (by simp) ?_
  exact Frame.refl _ _

/-- What `lockDom` can change. -/
theorem lockDom_only (k : Fin 2) (s : State) : Frame [.events, .board, .laneA, .laneB, .timebase, .plk] s (lockDom k s) := by
  unfold lockDom
  refine Frame.under (proofCheck_only _) (by simp) ?_
  refine Frame.under (reselect_only _) (by simp) ?_
  refine Frame.under (raise_only _ _ _) (by simp) ?_
  refine Frame.under (modDom_only _ _ _) (by simp) ?_
  exact Frame.refl _ _

/-- What `holdoverDom` can change. -/
theorem holdoverDom_only (k : Fin 2) (s : State) : Frame [.events, .board, .laneA, .laneB, .timebase] s (holdoverDom k s) := by
  unfold holdoverDom
  split
  · refine Frame.under (reselect_only _) (by simp) ?_
    refine Frame.under (raise_only _ _ _) (by simp) ?_
    refine Frame.under (modDom_only _ _ _) (by simp) ?_
    exact Frame.refl _ _
  · exact Frame.refl _ _

/-- What `correct` can change. -/
theorem correct_only (k : Fin 2) (off : Int) (s : State) : Frame [.free, .events, .board, .laneA, .laneB, .timebase] s (correct k off s) := by
  unfold correct
  dsimp only
  split
  · split
    · refine Frame.under (realign_only _) (by simp) ?_
      refine Frame.under (raise_only _ _ _) (by simp) ?_
      refine Frame.under (modDom_only _ _ _) (by simp) ?_
      refine Frame.under (reanchor_only _ _ _ _) (by simp) ?_
      exact Frame.refl _ _
    · refine Frame.under (raise_only _ _ _) (by simp) ?_
      refine Frame.under (modDom_only _ _ _) (by simp) ?_
      refine Frame.under (reanchor_only _ _ _ _) (by simp) ?_
      exact Frame.refl _ _
  · refine Frame.under (modDom_only _ _ _) (by simp) ?_
    refine Frame.under (raiseIf_only _ _ _ _) (by simp) ?_
    refine Frame.under (reanchor_only _ _ _ _) (by simp) ?_
    refine Frame.under (freeRate_only _) (by simp) ?_
    exact Frame.refl _ _

/-- What `judge` can change. -/
theorem judge_only (k : Fin 2) (off : Int) (s : State) : Frame [.events, .board, .laneA, .laneB, .timebase, .plk] s (judge k off s) := by
  unfold judge
  dsimp only
  split
  · split
    · split
      · refine Frame.under (lockDom_only _ _) (by simp) ?_
        refine Frame.under (modDom_only _ _ _) (by simp) ?_
        exact Frame.refl _ _
      · split
        · refine Frame.under (acquire_only _ _) (by simp) ?_
          refine Frame.under (modDom_only _ _ _) (by simp) ?_
          exact Frame.refl _ _
        · refine Frame.under (modDom_only _ _ _) (by simp) ?_
          exact Frame.refl _ _
    · split
      · refine Frame.under (lockDom_only _ _) (by simp) ?_
        refine Frame.under (modDom_only _ _ _) (by simp) ?_
        exact Frame.refl _ _
      · split
        · refine Frame.under (acquire_only _ _) (by simp) ?_
          refine Frame.under (modDom_only _ _ _) (by simp) ?_
          exact Frame.refl _ _
        · refine Frame.under (modDom_only _ _ _) (by simp) ?_
          exact Frame.refl _ _
  · split
    · split
      · refine Frame.under (lockDom_only _ _) (by simp) ?_
        refine Frame.under (modDom_only _ _ _) (by simp) ?_
        exact Frame.refl _ _
      · split
        · refine Frame.under (acquire_only _ _) (by simp) ?_
          refine Frame.under (modDom_only _ _ _) (by simp) ?_
          exact Frame.refl _ _
        · refine Frame.under (modDom_only _ _ _) (by simp) ?_
          exact Frame.refl _ _
    · split
      · refine Frame.under (lockDom_only _ _) (by simp) ?_
        refine Frame.under (modDom_only _ _ _) (by simp) ?_
        exact Frame.refl _ _
      · split
        · refine Frame.under (acquire_only _ _) (by simp) ?_
          refine Frame.under (modDom_only _ _ _) (by simp) ?_
          exact Frame.refl _ _
        · refine Frame.under (modDom_only _ _ _) (by simp) ?_
          exact Frame.refl _ _

/-- What `servo` can change. -/
theorem servo_only (k : Fin 2) (off : Int) (s : State) : Frame [.free, .events, .board, .laneA, .laneB, .timebase, .plk] s (servo k off s) := by
  unfold servo
  refine Frame.under (judge_only _ _ _) (by simp) ?_
  refine Frame.under (correct_only _ _ _) (by simp) ?_
  refine Frame.under (modDom_only _ _ _) (by simp) ?_
  exact Frame.refl _ _

/-- What `ptpSyncRx` can change. -/
theorem ptpSyncRx_only (k p : Fin 2) (off : Int) (s : State) : Frame [.free, .events, .board, .laneA, .laneB, .timebase, .plk] s (ptpSyncRx k p off s) := by
  unfold ptpSyncRx
  dsimp only
  split
  · exact Frame.refl _ _
  · refine Frame.under (servo_only _ _ _) (by simp) ?_
    exact Frame.refl _ _

/-- What `execPtpSyncRx` can change. -/
theorem execPtpSyncRx_only (k : Fin 2) (p : Fin 2) (offsetNs : Int) (s : State) : FrameOut [.free, .events, .board, .laneA, .laneB, .timebase, .plk] s (execPtpSyncRx k p offsetNs s) := by
  unfold execPtpSyncRx
  refine FrameOut.next ?_
  refine Frame.under (ptpSyncRx_only _ _ _ _) (by simp) ?_
  exact Frame.refl _ _

/-- What `takeMaster` can change. -/
theorem takeMaster_only (k p : Fin 2) (a : Announce) (s : State) : Frame [.timebase] s (takeMaster k p a s) := by
  unfold takeMaster
  refine Frame.under (modDom_only _ _ _) (by simp) ?_
  exact Frame.refl _ _

/-- What `ptpAnnounceRx` can change. -/
theorem ptpAnnounceRx_only (k p : Fin 2) (a : Announce) (s : State) : Frame [.events, .board, .laneA, .laneB, .timebase, .plk] s (ptpAnnounceRx k p a s) := by
  unfold ptpAnnounceRx
  dsimp only
  split
  · exact Frame.refl _ _
  · split
    · refine Frame.under (acquire_only _ _) (by simp) ?_
      refine Frame.under (takeMaster_only _ _ _ _) (by simp) ?_
      exact Frame.refl _ _
    · split
      · split
        · refine Frame.under (acquire_only _ _) (by simp) ?_
          refine Frame.under (takeMaster_only _ _ _ _) (by simp) ?_
          exact Frame.refl _ _
        · split
          · exact Frame.refl _ _
          · refine Frame.under (proofCheck_only _) (by simp) ?_
            refine Frame.under (takeMaster_only _ _ _ _) (by simp) ?_
            exact Frame.refl _ _
      · split
        · refine Frame.under (acquire_only _ _) (by simp) ?_
          refine Frame.under (raise_only _ _ _) (by simp) ?_
          refine Frame.under (takeMaster_only _ _ _ _) (by simp) ?_
          exact Frame.refl _ _
        · exact Frame.refl _ _

/-- What `execPtpAnnounceRx` can change. -/
theorem execPtpAnnounceRx_only (k : Fin 2) (p : Fin 2) (ann : Announce) (s : State) : FrameOut [.events, .board, .laneA, .laneB, .timebase, .plk] s (execPtpAnnounceRx k p ann s) := by
  unfold execPtpAnnounceRx
  refine FrameOut.next ?_
  refine Frame.under (ptpAnnounceRx_only _ _ _ _) (by simp) ?_
  exact Frame.refl _ _

/-- What `announceTimeout` can change. -/
theorem announceTimeout_only (k : Fin 2) (s : State) : Frame [.time, .events, .board, .laneA, .laneB, .timebase] s (announceTimeout k s) := by
  unfold announceTimeout
  dsimp only
  split
  · exact Frame.refl _ _
  · split
    · exact Frame.refl _ _
    · refine Frame.under (holdoverDom_only _ _) (by simp) ?_
      refine Frame.under (elapseTo_only _ _) (by simp) ?_
      exact Frame.refl _ _

/-- What `execAnnounceTimeout` can change. -/
theorem execAnnounceTimeout_only (k : Fin 2) (s : State) : FrameOut [.time, .events, .board, .laneA, .laneB, .timebase] s (execAnnounceTimeout k s) := by
  unfold execAnnounceTimeout
  refine FrameOut.next ?_
  refine Frame.under (announceTimeout_only _ _) (by simp) ?_
  exact Frame.refl _ _

/-- What `ptpHoldover` can change. -/
theorem ptpHoldover_only (s : State) : Frame [.events, .board, .laneA, .laneB, .timebase] s (ptpHoldover s) := by
  unfold ptpHoldover
  refine Frame.comp ?_ (Frame.foldS _ _ _ fun _ _ => ?_)
  · exact Frame.refl _ _
  · split
    · refine Frame.under (holdoverDom_only _ _) (by simp) ?_
      exact Frame.refl _ _
    · exact Frame.refl _ _

/-- What `domainRevert` can change. -/
theorem domainRevert_only (s : State) : Frame [.time, .events, .board, .laneA, .laneB, .timebase] s (domainRevert s) := by
  unfold domainRevert
  dsimp only
  split
  · refine Frame.under (selectDom_only _ _) (by simp) ?_
    refine Frame.under (elapseTo_only _ _) (by simp) ?_
    exact Frame.refl _ _
  · exact Frame.refl _ _

/-- What `execDomainRevert` can change. -/
theorem execDomainRevert_only (s : State) : FrameOut [.time, .events, .board, .laneA, .laneB, .timebase] s (execDomainRevert s) := by
  unfold execDomainRevert
  refine FrameOut.next ?_
  refine Frame.under (domainRevert_only _) (by simp) ?_
  exact Frame.refl _ _

/-- What `ppsEdge` can change. -/
theorem ppsEdge_only (s0 : State) : Frame [.free, .events, .board, .clock, .laneA, .laneB, .timebase, .plk] s0 (ppsEdge s0) := by
  unfold ppsEdge
  dsimp only
  split
  · refine Frame.under (modTime_only _ _) (by simp) ?_
    refine Frame.under (modClock_only _ _) (by simp) ?_
    exact Frame.refl _ _
  · refine Frame.under (servo_only _ _ _) (by simp) ?_
    split
    · refine Frame.under (acquire_only _ _) (by simp) ?_
      refine Frame.under (modTime_only _ _) (by simp) ?_
      refine Frame.under (takeFree_only _) (by simp) ?_
      refine Frame.under (modTime_only _ _) (by simp) ?_
      refine Frame.under (modClock_only _ _) (by simp) ?_
      exact Frame.refl _ _
    · refine Frame.under (modTime_only _ _) (by simp) ?_
      refine Frame.under (takeFree_only _) (by simp) ?_
      refine Frame.under (modTime_only _ _) (by simp) ?_
      refine Frame.under (modClock_only _ _) (by simp) ?_
      exact Frame.refl _ _

/-- What `execPpsEdge` can change. -/
theorem execPpsEdge_only (s : State) : FrameOut [.free, .events, .board, .clock, .laneA, .laneB, .timebase, .plk] s (execPpsEdge s) := by
  unfold execPpsEdge
  refine FrameOut.next ?_
  refine Frame.under (ppsEdge_only _) (by simp) ?_
  exact Frame.refl _ _

/-- What `ppsHoldover` can change. -/
theorem ppsHoldover_only (s : State) : Frame [.events, .board, .laneA, .laneB, .timebase] s (ppsHoldover s) := by
  unfold ppsHoldover
  split
  · refine Frame.under (holdoverDom_only _ _) (by simp) ?_
    exact Frame.refl _ _
  · exact Frame.refl _ _

/-- What `execTimePpssecWrite` can change. -/
theorem execTimePpssecWrite_only (m : Master) (v : Word) (s : State) : FrameOut [.events, .board, .key, .timebase] s (execTimePpssecWrite m v s) := by
  unfold execTimePpssecWrite
  unfold byMaster
  split
  · refine FrameOut.next ?_
    unfold rwkWrite
    dsimp only
    split
    · refine Frame.under (modTime_only _ _) (by simp) ?_
      refine Frame.comp ?_ (Frame.when ?_)
      · exact Frame.refl _ _
      · refine Frame.under (touchSession_only _) (by simp) ?_
        exact Frame.refl _ _
    · refine Frame.under (rwkDiscard_only _ _) (by simp) ?_
      refine Frame.comp ?_ (Frame.when ?_)
      · exact Frame.refl _ _
      · refine Frame.under (touchSession_only _) (by simp) ?_
        exact Frame.refl _ _
  · exact FrameOut.fault _ _ _

/-- What `setTimeCtl` can change. -/
theorem setTimeCtl_only (v : Word) (s : State) : Frame [.events, .board, .laneA, .laneB, .timebase] s (setTimeCtl v s) := by
  unfold setTimeCtl
  split
  · exact Frame.refl _ _
  · refine Frame.under (reselect_only _) (by simp) ?_
    refine Frame.under (modTime_only _ _) (by simp) ?_
    exact Frame.refl _ _

/-- What `execTimeCtlWrite` can change. -/
theorem execTimeCtlWrite_only (m : Master) (v : Word) (s : State) : FrameOut [.events, .board, .key, .laneA, .laneB, .timebase] s (execTimeCtlWrite m v s) := by
  unfold execTimeCtlWrite
  unfold byMaster
  split
  · refine FrameOut.next ?_
    unfold rwkWrite
    dsimp only
    split
    · refine Frame.under (setTimeCtl_only _ _) (by simp) ?_
      refine Frame.comp ?_ (Frame.when ?_)
      · exact Frame.refl _ _
      · refine Frame.under (touchSession_only _) (by simp) ?_
        exact Frame.refl _ _
    · refine Frame.under (rwkDiscard_only _ _) (by simp) ?_
      refine Frame.comp ?_ (Frame.when ?_)
      · exact Frame.refl _ _
      · refine Frame.under (touchSession_only _) (by simp) ?_
        exact Frame.refl _ _
  · exact FrameOut.fault _ _ _

/-- What `timeLatch` can change. -/
theorem timeLatch_only (which : Fin 4) (s : State) : Frame [.timebase] s (timeLatch which s) := by
  unfold timeLatch
  split
  · refine Frame.under (modTime_only _ _) (by simp) ?_
    exact Frame.refl _ _
  · dsimp only
    refine Frame.under (modTime_only _ _) (by simp) ?_
    exact Frame.refl _ _

/-- What `execTimeLatchRead` can change. -/
theorem execTimeLatchRead_only (which : Fin 4) (s : State) : FrameOut [.timebase] s (execTimeLatchRead which s) := by
  unfold execTimeLatchRead
  refine FrameOut.next ?_
  refine Frame.under (timeLatch_only _ _) (by simp) ?_
  exact Frame.refl _ _

/-- What `cvStart` can change. -/
theorem cvStart_only (v : Word) (s : State) : Frame [.timebase] s (cvStart v s) := by
  unfold cvStart
  split
  · exact Frame.refl _ _
  · refine Frame.under (modTime_only _ _) (by simp) ?_
    exact Frame.refl _ _

/-- What `execTimeCvctl` can change. -/
theorem execTimeCvctl_only (v : Word) (s : State) : FrameOut [.timebase] s (execTimeCvctl v s) := by
  unfold execTimeCvctl
  refine FrameOut.next ?_
  refine Frame.under (cvStart_only _ _) (by simp) ?_
  exact Frame.refl _ _

/-- What `cvFinish` can change. -/
theorem cvFinish_only (s0 : State) : Frame [.time, .free, .timebase] s0 (cvFinish s0) := by
  unfold cvFinish
  split
  · exact Frame.refl _ _
  · split
    dsimp only
    refine Frame.under (modTime_only _ _) (by simp) ?_
    refine Frame.under (elapseTo_only _ _) (by simp) ?_
    refine Frame.under (Frame.snd (by assumption) (takeFree_only _)) (by simp) ?_
    exact Frame.refl _ _

/-- What `execConversionDone` can change. -/
theorem execConversionDone_only (s : State) : FrameOut [.time, .free, .timebase] s (execConversionDone s) := by
  unfold execConversionDone
  refine FrameOut.next ?_
  refine Frame.under (cvFinish_only _) (by simp) ?_
  exact Frame.refl _ _

/-- What `timeStart` can change. -/
theorem timeStart_only (s : State) : Frame [.timebase] s (timeStart s) := by
  unfold timeStart
  dsimp only
  refine Frame.under (modTime_only _ _) (by simp) ?_
  exact Frame.refl _ _

/-- What `timeModeEntry` can change. -/
theorem timeModeEntry_only (s : State) : Frame [.free, .events, .board, .laneA, .laneB, .timebase] s (timeModeEntry s) := by
  unfold timeModeEntry
  split
  · exact Frame.refl _ _
  · dsimp only
    split
    · refine Frame.under (correct_only _ _ _) (by simp) ?_
      refine Frame.under (zeroResid_only _) (by simp) ?_
      exact Frame.refl _ _
    · refine Frame.under (zeroResid_only _) (by simp) ?_
      exact Frame.refl _ _

/-- What `modBuf` can change. -/
theorem modBuf_only (p : Fin 2) (b : Fin 8) (f : CanTx → CanTx) (s : State) : Frame [.can] s (modBuf p b f s) := by
  unfold modBuf
  refine Frame.under (modCan_only _ _ _) (by simp) ?_
  exact Frame.refl _ _

/-- What `canAttempt` can change. -/
theorem canAttempt_only (p : Fin 2) (s : State) : Frame [.can] s (canAttempt p s) := by
  unfold canAttempt
  refine Frame.under (modCan_only _ _ _) (by simp) ?_
  exact Frame.refl _ _

/-- What `canSettle` can change. -/
theorem canSettle_only (p : Fin 2) (s : State) : Frame [.events, .board, .can] s (canSettle p s) := by
  unfold canSettle
  dsimp only
  refine Frame.under (raiseIf_only _ _ _ _) (by simp) ?_
  refine Frame.under (raiseIf_only _ _ _ _) (by simp) ?_
  refine Frame.under (modCan_only _ _ _) (by simp) ?_
  exact Frame.refl _ _

/-- What `canFail` can change. -/
theorem canFail_only (p : Fin 2) (b : Fin 8) (s : State) : Frame [.can] s (canFail p b s) := by
  unfold canFail
  refine Frame.under (modBuf_only _ _ _ _) (by simp) ?_
  exact Frame.refl _ _

/-- What `sofStamp` can change. -/
theorem sofStamp_only (s : State) : Frame [.free] s (sofStamp s).2 := by
  unfold sofStamp
  split
  dsimp only
  refine Frame.under (Frame.snd (by assumption) (takeFree_only _)) (by simp) ?_
  exact Frame.refl _ _

/-- What `canStore` can change. -/
theorem canStore_only (p : Fin 2) (f : CanFrame) (k : Nat) (stamp : Long) (s : State) : Frame [.events, .board, .can] s (canStore p f k stamp s) := by
  unfold canStore
  split
  · refine Frame.under (raise_only _ _ _) (by simp) ?_
    refine Frame.under (modCan_only _ _ _) (by simp) ?_
    exact Frame.refl _ _
  · refine Frame.under (modCan_only _ _ _) (by simp) ?_
    exact Frame.refl _ _

/-- What `recGood` can change. -/
theorem recGood_only (p : Fin 2) (s : State) : Frame [.free, .can] s (recGood p s) := by
  unfold recGood
  dsimp only
  split
  · refine Frame.under (modCan_only _ _ _) (by simp) ?_
    exact Frame.refl _ _
  · refine Frame.under (modCan_only _ _ _) (by simp) ?_
    refine Frame.under (takeFree_only _) (by simp) ?_
    exact Frame.refl _ _

/-- What `canFound` can change. -/
theorem canFound_only (p : Fin 2) (s : State) : Frame [.events, .board, .can] s (canFound p s) := by
  unfold canFound
  split
  · refine Frame.under (raise_only _ _ _) (by simp) ?_
    refine Frame.under (modCan_only _ _ _) (by simp) ?_
    exact Frame.refl _ _
  · exact Frame.refl _ _

/-- What `canLost` can change. -/
theorem canLost_only (p : Fin 2) (s : State) : Frame [.can] s (canLost p s) := by
  unfold canLost
  split
  · exact Frame.refl _ _
  · dsimp only
    split
    · refine Frame.under (canFail_only _ _ _) (by simp) ?_
      refine Frame.under (modCan_only _ _ _) (by simp) ?_
      exact Frame.refl _ _
    · refine Frame.under (modCan_only _ _ _) (by simp) ?_
      exact Frame.refl _ _

/-- What `canFrameRx` can change. -/
theorem canFrameRx_only (p : Fin 2) (f : CanFrame) (s : State) : Frame [.free, .events, .board, .can] s (canFrameRx p f s) := by
  unfold canFrameRx
  dsimp only
  split
  · exact Frame.refl _ _
  · refine Frame.under (canAttempt_only _ _) (by simp) ?_
    split
    · split
      · refine Frame.under (modCan_only _ _ _) (by simp) ?_
        refine Frame.under (canFound_only _ _) (by simp) ?_
        refine Frame.under (canLost_only _ _) (by simp) ?_
        refine Frame.under (recGood_only _ _) (by simp) ?_
        exact Frame.refl _ _
      · refine Frame.under (canSettle_only _ _) (by simp) ?_
        refine Frame.under (modCan_only _ _ _) (by simp) ?_
        refine Frame.under (canFound_only _ _) (by simp) ?_
        refine Frame.under (canLost_only _ _) (by simp) ?_
        refine Frame.under (recGood_only _ _) (by simp) ?_
        exact Frame.refl _ _
    · split
      · split
        · refine Frame.under (modCan_only _ _ _) (by simp) ?_
          refine Frame.under (canFound_only _ _) (by simp) ?_
          refine Frame.under (canLost_only _ _) (by simp) ?_
          refine Frame.under (recGood_only _ _) (by simp) ?_
          exact Frame.refl _ _
        · refine Frame.under (canSettle_only _ _) (by simp) ?_
          refine Frame.under (modCan_only _ _ _) (by simp) ?_
          refine Frame.under (canFound_only _ _) (by simp) ?_
          refine Frame.under (canLost_only _ _) (by simp) ?_
          refine Frame.under (recGood_only _ _) (by simp) ?_
          exact Frame.refl _ _
      · refine Frame.under (canStore_only _ _ _ _ _) (by simp) ?_
        refine Frame.under (sofStamp_only _) (by simp) ?_
        split
        · refine Frame.under (modCan_only _ _ _) (by simp) ?_
          refine Frame.under (canFound_only _ _) (by simp) ?_
          refine Frame.under (canLost_only _ _) (by simp) ?_
          refine Frame.under (recGood_only _ _) (by simp) ?_
          exact Frame.refl _ _
        · refine Frame.under (canSettle_only _ _) (by simp) ?_
          refine Frame.under (modCan_only _ _ _) (by simp) ?_
          refine Frame.under (canFound_only _ _) (by simp) ?_
          refine Frame.under (canLost_only _ _) (by simp) ?_
          refine Frame.under (recGood_only _ _) (by simp) ?_
          exact Frame.refl _ _

/-- What `execCanFrameRx` can change. -/
theorem execCanFrameRx_only (p : Fin 2) (f : CanFrame) (s : State) : FrameOut [.free, .events, .board, .can] s (execCanFrameRx p f s) := by
  unfold execCanFrameRx
  refine FrameOut.next ?_
  refine Frame.under (canFrameRx_only _ _ _) (by simp) ?_
  exact Frame.refl _ _

/-- What `execCanRxpop` can change. -/
theorem execCanRxpop_only (p : Fin 2) (s : State) : FrameOut [.can] s (execCanRxpop p s) := by
  unfold execCanRxpop
  refine FrameOut.next ?_
  refine Frame.under (modCan_only _ _ _) (by simp) ?_
  exact Frame.refl _ _

/-- What `canTxDone` can change. -/
theorem canTxDone_only (p : Fin 2) (b : Fin 8) (s : State) : Frame [.free, .events, .board, .host, .can, .outbox] s (canTxDone p b s) := by
  unfold canTxDone
  dsimp only
  split
  · exact Frame.refl _ _
  · refine Frame.under (canAttempt_only _ _) (by simp) ?_
    refine Frame.under (raise_only _ _ _) (by simp) ?_
    refine Frame.under (canSettle_only _ _) (by simp) ?_
    refine Frame.under (opEvent_only _ _ _ _ _ _) (by simp) ?_
    refine Frame.under (send_only _ _) (by simp) ?_
    refine Frame.under (modCan_only _ _ _) (by simp) ?_
    refine Frame.under (modBuf_only _ _ _ _) (by simp) ?_
    refine Frame.under (sofStamp_only _) (by simp) ?_
    exact Frame.refl _ _

/-- What `execCanTxDone` can change. -/
theorem execCanTxDone_only (p : Fin 2) (b : Fin 8) (s : State) : FrameOut [.free, .events, .board, .host, .can, .outbox] s (execCanTxDone p b s) := by
  unfold execCanTxDone
  refine FrameOut.next ?_
  refine Frame.under (canTxDone_only _ _ _) (by simp) ?_
  exact Frame.refl _ _

/-- What `canTxErr` can change. -/
theorem canTxErr_only (p : Fin 2) (e : CanError) (afterArb : Bool) (s : State) : Frame [.can] s (canTxErr p e afterArb s) := by
  unfold canTxErr
  refine Frame.under (modCan_only _ _ _) (by simp) ?_
  exact Frame.refl _ _

/-- What `canAlone` can change. -/
theorem canAlone_only (p : Fin 2) (s : State) : Frame [.events, .board, .can] s (canAlone p s) := by
  unfold canAlone
  split
  · refine Frame.under (raise_only _ _ _) (by simp) ?_
    refine Frame.under (modCan_only _ _ _) (by simp) ?_
    exact Frame.refl _ _
  · exact Frame.refl _ _

/-- What `canRetry` can change. -/
theorem canRetry_only (p : Fin 2) (b : Fin 8) (s : State) : Frame [.can] s (canRetry p b s) := by
  unfold canRetry
  dsimp only
  split
  · refine Frame.under (canFail_only _ _ _) (by simp) ?_
    refine Frame.under (modCan_only _ _ _) (by simp) ?_
    refine Frame.under (modBuf_only _ _ _ _) (by simp) ?_
    exact Frame.refl _ _
  · refine Frame.under (modCan_only _ _ _) (by simp) ?_
    refine Frame.under (modBuf_only _ _ _ _) (by simp) ?_
    exact Frame.refl _ _

/-- What `dataBitErr` can change. -/
theorem dataBitErr_only (p : Fin 2) (s : State) : Frame [.events, .board, .can] s (dataBitErr p s) := by
  unfold dataBitErr
  refine Frame.under (raise_only _ _ _) (by simp) ?_
  refine Frame.under (modCan_only _ _ _) (by simp) ?_
  exact Frame.refl _ _

/-- What `canBusError` can change. -/
theorem canBusError_only (p : Fin 2) (e : CanError) (tx : Option (Fin 8)) (afterArb major : Bool) (s : State) : Frame [.events, .board, .can] s (canBusError p e tx afterArb major s) := by
  unfold canBusError
  dsimp only
  split
  · exact Frame.refl _ _
  · split
    · refine Frame.under (canSettle_only _ _) (by simp) ?_
      refine Frame.under (modCan_only _ _ _) (by simp) ?_
      refine Frame.under (modCan_only _ _ _) (by simp) ?_
      exact Frame.refl _ _
    · split
      · exact Frame.refl _ _
      · refine Frame.under (canAttempt_only _ _) (by simp) ?_
        refine Frame.under (canRetry_only _ _ _) (by simp) ?_
        refine Frame.under (canAlone_only _ _) (by simp) ?_
        refine Frame.under (canSettle_only _ _) (by simp) ?_
        refine Frame.under (canTxErr_only _ _ _ _) (by simp) ?_
        split
        · refine Frame.under (dataBitErr_only _ _) (by simp) ?_
          refine Frame.under (modCan_only _ _ _) (by simp) ?_
          exact Frame.refl _ _
        · refine Frame.under (modCan_only _ _ _) (by simp) ?_
          exact Frame.refl _ _

/-- What `execCanBusError` can change. -/
theorem execCanBusError_only (p : Fin 2) (e : CanError) (tx : Option (Fin 8)) (afterArb major : Bool) (s : State) : FrameOut [.events, .board, .can] s (execCanBusError p e tx afterArb major s) := by
  unfold execCanBusError
  refine FrameOut.next ?_
  refine Frame.under (canBusError_only _ _ _ _ _ _) (by simp) ?_
  exact Frame.refl _ _

/-- What `canRecovered` can change. -/
theorem canRecovered_only (p : Fin 2) (s : State) : Frame [.time, .can] s (canRecovered p s) := by
  unfold canRecovered
  dsimp only
  split
  · refine Frame.under (canAttempt_only _ _) (by simp) ?_
    refine Frame.under (modCan_only _ _ _) (by simp) ?_
    refine Frame.under (elapseTo_only _ _) (by simp) ?_
    exact Frame.refl _ _
  · exact Frame.refl _ _

/-- What `execCanBusoffRecovered` can change. -/
theorem execCanBusoffRecovered_only (p : Fin 2) (s : State) : FrameOut [.time, .can] s (execCanBusoffRecovered p s) := by
  unfold execCanBusoffRecovered
  refine FrameOut.next ?_
  refine Frame.under (canRecovered_only _ _) (by simp) ?_
  exact Frame.refl _ _

/-- What `canRecover` can change. -/
theorem canRecover_only (p : Fin 2) (s : State) : Frame [.can] s (canRecover p s) := by
  unfold canRecover
  dsimp only
  split
  · exact Frame.refl _ _
  · refine Frame.under (modCan_only _ _ _) (by simp) ?_
    exact Frame.refl _ _

/-- What `execCanRecover` can change. -/
theorem execCanRecover_only (p : Fin 2) (s : State) : FrameOut [.can] s (execCanRecover p s) := by
  unfold execCanRecover
  refine FrameOut.next ?_
  refine Frame.under (canRecover_only _ _) (by simp) ?_
  exact Frame.refl _ _

/-- What `canReq` can change. -/
theorem canReq_only (p : Fin 2) (b : Fin 8) (s : State) : Frame [.events, .board, .can] s (canReq p b s) := by
  unfold canReq
  dsimp only
  split
  · exact Frame.refl _ _
  · split
    · refine Frame.under (raise_only _ _ _) (by simp) ?_
      exact Frame.refl _ _
    · refine Frame.under (modBuf_only _ _ _ _) (by simp) ?_
      exact Frame.refl _ _

/-- What `canTxreq` can change. -/
theorem canTxreq_only (p : Fin 2) (mask : Byte) (s : State) : Frame [.events, .board, .can] s (canTxreq p mask s) := by
  unfold canTxreq
  refine Frame.under (canAttempt_only _ _) (by simp) ?_
  refine Frame.comp ?_ (Frame.foldS _ _ _ fun _ _ => ?_)
  · exact Frame.refl _ _
  · refine Frame.under (canReq_only _ _ _) (by simp) ?_
    exact Frame.refl _ _

/-- What `execCanTxreq` can change. -/
theorem execCanTxreq_only (p : Fin 2) (mask : Byte) (s : State) : FrameOut [.events, .board, .can] s (execCanTxreq p mask s) := by
  unfold execCanTxreq
  refine FrameOut.next ?_
  refine Frame.under (canTxreq_only _ _ _) (by simp) ?_
  exact Frame.refl _ _

/-- What `canAbort` can change. -/
theorem canAbort_only (p : Fin 2) (b : Fin 8) (s : State) : Frame [.can] s (canAbort p b s) := by
  unfold canAbort
  split
  · exact Frame.refl _ _
  · split
    · refine Frame.under (modBuf_only _ _ _ _) (by simp) ?_
      exact Frame.refl _ _
    · refine Frame.under (canFail_only _ _ _) (by simp) ?_
      exact Frame.refl _ _

/-- What `canTxabort` can change. -/
theorem canTxabort_only (p : Fin 2) (mask : Byte) (s : State) : Frame [.can] s (canTxabort p mask s) := by
  unfold canTxabort
  refine Frame.comp ?_ (Frame.foldS _ _ _ fun _ _ => ?_)
  · exact Frame.refl _ _
  · refine Frame.under (canAbort_only _ _ _) (by simp) ?_
    exact Frame.refl _ _

/-- What `execCanTxabort` can change. -/
theorem execCanTxabort_only (p : Fin 2) (mask : Byte) (s : State) : FrameOut [.can] s (execCanTxabort p mask s) := by
  unfold execCanTxabort
  refine FrameOut.next ?_
  refine Frame.under (canTxabort_only _ _ _) (by simp) ?_
  exact Frame.refl _ _

/-- What `canTxbufWrite` can change. -/
theorem canTxbufWrite_only (p : Fin 2) (b : Fin 8) (w : Fin 32) (v : Word) (s : State) : Frame [.events, .board, .can] s (canTxbufWrite p b w v s) := by
  unfold canTxbufWrite
  split
  · refine Frame.under (raise_only _ _ _) (by simp) ?_
    exact Frame.refl _ _
  · split
    · refine Frame.under (modBuf_only _ _ _ _) (by simp) ?_
      exact Frame.refl _ _
    · split
      · refine Frame.under (modBuf_only _ _ _ _) (by simp) ?_
        exact Frame.refl _ _
      · split
        · exact Frame.refl _ _
        · refine Frame.under (modBuf_only _ _ _ _) (by simp) ?_
          exact Frame.refl _ _

/-- What `execCanTxbufWrite` can change. -/
theorem execCanTxbufWrite_only (p : Fin 2) (b : Fin 8) (w : Fin 32) (v : Word) (s : State) : FrameOut [.events, .board, .can] s (execCanTxbufWrite p b w v s) := by
  unfold execCanTxbufWrite
  refine FrameOut.next ?_
  refine Frame.under (canTxbufWrite_only _ _ _ _ _) (by simp) ?_
  exact Frame.refl _ _

/-- What `canSetMode` can change. -/
theorem canSetMode_only (p : Fin 2) (v : Word) (s : State) : Frame [.can] s (canSetMode p v s) := by
  unfold canSetMode
  dsimp only
  split
  · refine Frame.under (modCan_only _ _ _) (by simp) ?_
    exact Frame.refl _ _
  · refine Frame.under (modCan_only _ _ _) (by simp) ?_
    refine Frame.under (canLost_only _ _) (by simp) ?_
    refine Frame.under (modCan_only _ _ _) (by simp) ?_
    exact Frame.refl _ _

/-- What `canCtl` can change. -/
theorem canCtl_only (p : Fin 2) (v : Word) (s : State) : Frame [.can] s (canCtl p v s) := by
  unfold canCtl
  split
  · refine Frame.under (canRecover_only _ _) (by simp) ?_
    refine Frame.under (canSetMode_only _ _ _) (by simp) ?_
    exact Frame.refl _ _
  · unfold id
    refine Frame.under (canSetMode_only _ _ _) (by simp) ?_
    exact Frame.refl _ _

/-- What `execCanModeWrite` can change. -/
theorem execCanModeWrite_only (p : Fin 2) (v : Word) (s : State) : FrameOut [.can] s (execCanModeWrite p v s) := by
  unfold execCanModeWrite
  refine FrameOut.next ?_
  refine Frame.under (canCtl_only _ _ _) (by simp) ?_
  exact Frame.refl _ _

/-- What `rateTry` can change. -/
theorem rateTry_only (p : Fin 2) (s : State) : Frame [.time, .events, .board, .can] s (rateTry p s) := by
  unfold rateTry
  dsimp only
  split
  · exact Frame.refl _ _
  · refine Frame.under (raiseIf_only _ _ _ _) (by simp) ?_
    refine Frame.under (modCan_only _ _ _) (by simp) ?_
    refine Frame.under (elapseTo_only _ _) (by simp) ?_
    exact Frame.refl _ _

/-- What `execRateTryTimeout` can change. -/
theorem execRateTryTimeout_only (p : Fin 2) (s : State) : FrameOut [.time, .events, .board, .can] s (execRateTryTimeout p s) := by
  unfold execRateTryTimeout
  refine FrameOut.next ?_
  refine Frame.under (rateTry_only _ _) (by simp) ?_
  exact Frame.refl _ _

/-- What `canIntegrated` can change. -/
theorem canIntegrated_only (p : Fin 2) (s : State) : Frame [.time, .can] s (canIntegrated p s) := by
  unfold canIntegrated
  split
  · refine Frame.under (canAttempt_only _ _) (by simp) ?_
    refine Frame.under (modCan_only _ _ _) (by simp) ?_
    refine Frame.under (elapseTo_only _ _) (by simp) ?_
    exact Frame.refl _ _
  · exact Frame.refl _ _

/-- What `execCanIntegrationDone` can change. -/
theorem execCanIntegrationDone_only (p : Fin 2) (s : State) : FrameOut [.time, .can] s (execCanIntegrationDone p s) := by
  unfold execCanIntegrationDone
  refine FrameOut.next ?_
  refine Frame.under (canIntegrated_only _ _) (by simp) ?_
  exact Frame.refl _ _

/-- What `canSuspend` can change. -/
theorem canSuspend_only (on : Bool) (p : Fin 2) (s : State) : Frame [.events, .board, .can] s (canSuspend on p s) := by
  unfold canSuspend
  dsimp only
  split
  · split
    · exact Frame.refl _ _
    · refine Frame.under (raise_only _ _ _) (by simp) ?_
      refine Frame.under (modCan_only _ _ _) (by simp) ?_
      refine Frame.under (canLost_only _ _) (by simp) ?_
      exact Frame.refl _ _
  · split
    · refine Frame.under (modCan_only _ _ _) (by simp) ?_
      exact Frame.refl _ _
    · exact Frame.refl _ _

/-- What `canStart` can change. -/
theorem canStart_only (p : Fin 2) (failed : Bool) (s : State) : Frame [.can] s (canStart p failed s) := by
  unfold canStart
  dsimp only
  refine Frame.under (modCan_only _ _ _) (by simp) ?_
  exact Frame.refl _ _

/-- What `modConn` can change. -/
theorem modConn_only (k : Fin 8) (f : Conn → Conn) (s : State) : Frame [.plk] s (modConn k f s) := by
  unfold modConn
  refine Frame.under (modPlk_only _ _) (by simp) ?_
  exact Frame.refl _ _

/-- What `actDemand` can change. -/
theorem actDemand_only (src : Nat) (at0 : Nat) (s : State) : Frame [.events, .board, .mode, .gate, .plk] s (actDemand src at0 s) := by
  unfold actDemand
  dsimp only
  split
  · refine Frame.under (modPlk_only _ _) (by simp) ?_
    exact Frame.refl _ _
  · refine Frame.under (trigger_only _ _) (by simp) ?_
    refine Frame.under (settleGates_only _) (by simp) ?_
    refine Frame.under (raise_only _ _ _) (by simp) ?_
    refine Frame.under (modGate_only _ _) (by simp) ?_
    refine Frame.under (modPlk_only _ _) (by simp) ?_
    refine Frame.under (modPlk_only _ _) (by simp) ?_
    exact Frame.refl _ _

/-- What `judgeReduced` can change. -/
theorem judgeReduced_only (s : State) : Frame [.events, .board, .mode, .plk] s (judgeReduced s) := by
  unfold judgeReduced
  dsimp only
  split
  · exact Frame.refl _ _
  · split
    · refine Frame.under (trigger_only _ _) (by simp) ?_
      refine Frame.under (raise_only _ _ _) (by simp) ?_
      refine Frame.under (modPlk_only _ _) (by simp) ?_
      exact Frame.refl _ _
    · refine Frame.under (trigger_only _ _) (by simp) ?_
      refine Frame.under (modPlk_only _ _) (by simp) ?_
      exact Frame.refl _ _

/-- What `safeEval` can change. -/
theorem safeEval_only (s : State) : Frame [.events, .board, .mode, .gate, .plk] s (safeEval s) := by
  unfold safeEval
  split
  · exact Frame.refl _ _
  · dsimp only
    refine Frame.under (judgeReduced_only _) (by simp) ?_
    split
    · refine Frame.under (raiseIf_only _ _ _ _) (by simp) ?_
      refine Frame.under (modPlk_only _ _) (by simp) ?_
      exact Frame.refl _ _
    · refine Frame.under (actDemand_only _ _ _) (by simp) ?_
      refine Frame.under (raiseIf_only _ _ _ _) (by simp) ?_
      refine Frame.under (modPlk_only _ _) (by simp) ?_
      exact Frame.refl _ _

/-- What `diagFail` can change. -/
theorem diagFail_only (f : PlkState → PlkState) (s : State) : Frame [.events, .board, .mode, .gate, .plk] s (diagFail f s) := by
  unfold diagFail
  refine Frame.under (safeEval_only _) (by simp) ?_
  refine Frame.under (raise_only _ _ _) (by simp) ?_
  refine Frame.under (modPlk_only _ _) (by simp) ?_
  exact Frame.refl _ _

/-- What `measureResp` can change. -/
theorem measureResp_only (s : State) : Frame [.free, .plk] s (measureResp s) := by
  unfold measureResp
  split
  · split
    dsimp only
    refine Frame.under (modPlk_only _ _) (by simp) ?_
    refine Frame.under (Frame.snd (by assumption) (takeFree_only _)) (by simp) ?_
    exact Frame.refl _ _
  · exact Frame.refl _ _

/-- What `testPass` can change. -/
theorem testPass_only (s : State) : Frame [.events, .board, .plk] s (testPass s) := by
  unfold testPass
  dsimp only
  refine Frame.under (plkLog_only _ _ _ _ _ _) (by simp) ?_
  refine Frame.under (raise_only _ _ _) (by simp) ?_
  refine Frame.under (modPlk_only _ _) (by simp) ?_
  exact Frame.refl _ _

/-- What `testFail` can change. -/
theorem testFail_only (s : State) : Frame [.events, .board, .mode, .gate, .plk] s (testFail s) := by
  unfold testFail
  refine Frame.under (diagFail_only _ _) (by simp) ?_
  refine Frame.under (plkLog_only _ _ _ _ _ _) (by simp) ?_
  refine Frame.under (raise_only _ _ _) (by simp) ?_
  exact Frame.refl _ _

/-- What `judgeTest` can change. -/
theorem judgeTest_only (s : State) : Frame [.events, .board, .mode, .gate, .plk] s (judgeTest s) := by
  unfold judgeTest
  dsimp only
  split
  · exact Frame.refl _ _
  · split
    · split
      · refine Frame.under (testFail_only _) (by simp) ?_
        refine Frame.under (modPlk_only _ _) (by simp) ?_
        exact Frame.refl _ _
      · refine Frame.under (modPlk_only _ _) (by simp) ?_
        exact Frame.refl _ _
    · split
      · exact Frame.refl _ _
      · split
        · refine Frame.under (testPass_only _) (by simp) ?_
          refine Frame.under (modPlk_only _ _) (by simp) ?_
          exact Frame.refl _ _
        · refine Frame.under (modPlk_only _ _) (by simp) ?_
          exact Frame.refl _ _

/-- What `safeCycle` can change. -/
theorem safeCycle_only (reported : Word) (s : State) : Frame [.time, .free, .events, .board, .mode, .gate, .plk] s (safeCycle reported s) := by
  unfold safeCycle
  split
  · exact Frame.refl _ _
  · dsimp only
    split
    · refine Frame.under (diagFail_only _ _) (by simp) ?_
      refine Frame.under (judgeTest_only _) (by simp) ?_
      refine Frame.under (measureResp_only _) (by simp) ?_
      refine Frame.under (safeEval_only _) (by simp) ?_
      refine Frame.under (modPlk_only _ _) (by simp) ?_
      refine Frame.under (periodic_only _ _ _) (by simp) ?_
      exact Frame.refl _ _
    · refine Frame.under (judgeTest_only _) (by simp) ?_
      refine Frame.under (measureResp_only _) (by simp) ?_
      refine Frame.under (safeEval_only _) (by simp) ?_
      refine Frame.under (modPlk_only _ _) (by simp) ?_
      refine Frame.under (periodic_only _ _ _) (by simp) ?_
      exact Frame.refl _ _

/-- What `execSafeCycle` can change. -/
theorem execSafeCycle_only (reported : Word) (s : State) : FrameOut [.time, .free, .events, .board, .mode, .gate, .plk] s (execSafeCycle reported s) := by
  unfold execSafeCycle
  refine FrameOut.next ?_
  refine Frame.under (safeCycle_only _ _) (by simp) ?_
  exact Frame.refl _ _

/-- What `detectOff` can change. -/
theorem detectOff_only (c : Fin 32) (s : State) : Frame [.time, .gate, .plk] s (detectOff c s) := by
  unfold detectOff
  split
  · exact Frame.refl _ _
  · dsimp only
    refine Frame.under (cutGate_only _ _) (by simp) ?_
    refine Frame.under (modPlk_only _ _) (by simp) ?_
    refine Frame.under (elapseTo_only _ _) (by simp) ?_
    exact Frame.refl _ _

/-- What `execEnableDetectOff` can change. -/
theorem execEnableDetectOff_only (ch : Fin 32) (s : State) : FrameOut [.time, .gate, .plk] s (execEnableDetectOff ch s) := by
  unfold execEnableDetectOff
  refine FrameOut.next ?_
  refine Frame.under (detectOff_only _ _) (by simp) ?_
  exact Frame.refl _ _

/-- What `supplyPulse` can change. -/
theorem supplyPulse_only (s : State) : Frame [.time, .events, .board, .fio, .plk] s (supplyPulse s) := by
  unfold supplyPulse
  split
  · exact Frame.refl _ _
  · refine Frame.under (refreshFn_only _) (by simp) ?_
    refine Frame.under (modPlk_only _ _) (by simp) ?_
    refine Frame.under (periodic_only _ _ _) (by simp) ?_
    exact Frame.refl _ _

/-- What `execSupplyPulse` can change. -/
theorem execSupplyPulse_only (s : State) : FrameOut [.time, .events, .board, .fio, .plk] s (execSupplyPulse s) := by
  unfold execSupplyPulse
  refine FrameOut.next ?_
  refine Frame.under (supplyPulse_only _) (by simp) ?_
  exact Frame.refl _ _

/-- What `supplyPulseEnd` can change. -/
theorem supplyPulseEnd_only (demLow guardLow : Bool) (s : State) : Frame [.time, .events, .board, .mode, .gate, .fio, .plk] s (supplyPulseEnd demLow guardLow s) := by
  unfold supplyPulseEnd
  split
  · exact Frame.refl _ _
  · dsimp only
    split
    · refine Frame.under (diagFail_only _ _) (by simp) ?_
      refine Frame.under (refreshFn_only _) (by simp) ?_
      refine Frame.under (modPlk_only _ _) (by simp) ?_
      refine Frame.under (elapseTo_only _ _) (by simp) ?_
      exact Frame.refl _ _
    · refine Frame.under (refreshFn_only _) (by simp) ?_
      refine Frame.under (modPlk_only _ _) (by simp) ?_
      refine Frame.under (elapseTo_only _ _) (by simp) ?_
      exact Frame.refl _ _

/-- What `execSupplyPulseEnd` can change. -/
theorem execSupplyPulseEnd_only (demLow guardLow : Bool) (s : State) : FrameOut [.time, .events, .board, .mode, .gate, .fio, .plk] s (execSupplyPulseEnd demLow guardLow s) := by
  unfold execSupplyPulseEnd
  refine FrameOut.next ?_
  refine Frame.under (supplyPulseEnd_only _ _ _) (by simp) ?_
  exact Frame.refl _ _

/-- What `safeSelfTest` can change. -/
theorem safeSelfTest_only (ok : Bool) (s : State) : Frame [.time, .events, .board, .mode, .gate, .plk] s (safeSelfTest ok s) := by
  unfold safeSelfTest
  split
  · exact Frame.refl _ _
  · dsimp only
    split
    · refine Frame.under (periodic_only _ _ _) (by simp) ?_
      exact Frame.refl _ _
    · refine Frame.under (diagFail_only _ _) (by simp) ?_
      refine Frame.under (periodic_only _ _ _) (by simp) ?_
      exact Frame.refl _ _

/-- What `execSafeSelfTest` can change. -/
theorem execSafeSelfTest_only (ok : Bool) (s : State) : FrameOut [.time, .events, .board, .mode, .gate, .plk] s (execSafeSelfTest ok s) := by
  unfold execSafeSelfTest
  refine FrameOut.next ?_
  refine Frame.under (safeSelfTest_only _ _) (by simp) ?_
  exact Frame.refl _ _

/-- What `plkDemand` can change. -/
theorem plkDemand_only (key : Half) (s : State) : Frame [.events, .board, .mode, .gate, .plk] s (plkDemand key s) := by
  unfold plkDemand
  split
  · refine Frame.under (actDemand_only _ _ _) (by simp) ?_
    exact Frame.refl _ _
  · exact Frame.refl _ _

/-- What `execPlkCmdDemand` can change. -/
theorem execPlkCmdDemand_only (key : Half) (s : State) : FrameOut [.events, .board, .mode, .gate, .plk] s (execPlkCmdDemand key s) := by
  unfold execPlkCmdDemand
  refine FrameOut.next ?_
  refine Frame.under (plkDemand_only _ _) (by simp) ?_
  exact Frame.refl _ _

/-- What `acceptReset` can change. -/
theorem acceptReset_only (s : State) : Frame [.events, .board, .mode, .gate, .plk] s (acceptReset s) := by
  unfold acceptReset
  dsimp only
  refine Frame.under (trigger_only _ _) (by simp) ?_
  refine Frame.under (modGate_only _ _) (by simp) ?_
  refine Frame.under (modPlk_only _ _) (by simp) ?_
  refine Frame.under (plkLog_only _ _ _ _ _ _) (by simp) ?_
  refine Frame.under (raise_only _ _ _) (by simp) ?_
  exact Frame.refl _ _

/-- What `askReset` can change. -/
theorem askReset_only (ok : Bool) (s : State) : Frame [.events, .board, .mode, .gate, .plk] s (askReset ok s) := by
  unfold askReset
  split
  · refine Frame.under (acceptReset_only _) (by simp) ?_
    exact Frame.refl _ _
  · refine Frame.under (raise_only _ _ _) (by simp) ?_
    exact Frame.refl _ _

/-- What `resetByInput` can change. -/
theorem resetByInput_only (n : Fin 16) (s : State) : Frame [.events, .board, .mode, .gate, .plk] s (resetByInput n s) := by
  unfold resetByInput
  dsimp only
  split
  · exact Frame.refl _ _
  · split
    · refine Frame.under (askReset_only _ _) (by simp) ?_
      refine Frame.under (modPlk_only _ _) (by simp) ?_
      exact Frame.refl _ _
    · refine Frame.under (modPlk_only _ _) (by simp) ?_
      exact Frame.refl _ _

/-- What `resetByFrame` can change. -/
theorem resetByFrame_only (k : Fin 8) (s : State) : Frame [.events, .board, .mode, .gate, .plk] s (resetByFrame k s) := by
  unfold resetByFrame
  dsimp only
  split
  · exact Frame.refl _ _
  · split
    · refine Frame.under (askReset_only _ _) (by simp) ?_
      refine Frame.under (modConn_only _ _ _) (by simp) ?_
      exact Frame.refl _ _
    · refine Frame.under (modConn_only _ _ _) (by simp) ?_
      exact Frame.refl _ _

/-- What `plkReset` can change. -/
theorem plkReset_only (src : ResetSource) (s : State) : Frame [.events, .board, .mode, .gate, .plk] s (plkReset src s) := by
  unfold plkReset
  split
  · exact Frame.refl _ _
  · split
    · split
      · refine Frame.under (resetByInput_only _ _) (by simp) ?_
        exact Frame.refl _ _
      · exact Frame.refl _ _
    · refine Frame.under (resetByFrame_only _ _) (by simp) ?_
      exact Frame.refl _ _
    · split
      · refine Frame.under (askReset_only _ _) (by simp) ?_
        exact Frame.refl _ _
      · exact Frame.refl _ _

/-- What `execPlkReset` can change. -/
theorem execPlkReset_only (src : ResetSource) (s : State) : FrameOut [.events, .board, .mode, .gate, .plk] s (execPlkReset src s) := by
  unfold execPlkReset
  refine FrameOut.next ?_
  refine Frame.under (plkReset_only _ _) (by simp) ?_
  exact Frame.refl _ _

/-- What `proofExpired` can change. -/
theorem proofExpired_only (s : State) : Frame [.time, .plk] s (proofExpired s) := by
  unfold proofExpired
  split
  · exact Frame.refl _ _
  · split
    · exact Frame.refl _ _
    · dsimp only
      refine Frame.under (modPlk_only _ _) (by simp) ?_
      refine Frame.under (advance_only _ _) (by simp) ?_
      exact Frame.refl _ _

/-- What `execProofExpired` can change. -/
theorem execProofExpired_only (s : State) : FrameOut [.time, .plk] s (execProofExpired s) := by
  unfold execProofExpired
  refine FrameOut.next ?_
  refine Frame.under (proofExpired_only _) (by simp) ?_
  exact Frame.refl _ _

/-- What `lockoutEnd` can change. -/
theorem lockoutEnd_only (s : State) : Frame [.time, .plk] s (lockoutEnd s) := by
  unfold lockoutEnd
  split
  · exact Frame.refl _ _
  · refine Frame.under (modPlk_only _ _) (by simp) ?_
    refine Frame.under (elapseTo_only _ _) (by simp) ?_
    exact Frame.refl _ _

/-- What `execPwLockoutEnd` can change. -/
theorem execPwLockoutEnd_only (s : State) : FrameOut [.time, .plk] s (execPwLockoutEnd s) := by
  unfold execPwLockoutEnd
  refine FrameOut.next ?_
  refine Frame.under (lockoutEnd_only _) (by simp) ?_
  exact Frame.refl _ _

/-- What `conFail` can change. -/
theorem conFail_only (k : Fin 8) (err : BitVec 4) (s : State) : Frame [.events, .board, .mode, .gate, .plk] s (conFail k err s) := by
  unfold conFail
  refine Frame.under (safeEval_only _) (by simp) ?_
  refine Frame.under (raise_only _ _ _) (by simp) ?_
  refine Frame.under (modConn_only _ _ _) (by simp) ?_
  exact Frame.refl _ _

/-- What `conAccept` can change. -/
theorem conAccept_only (k : Fin 8) (b : List Byte) (first : Bool) (s : State) : Frame [.events, .board, .mode, .gate, .plk] s (conAccept k b first s) := by
  unfold conAccept
  refine Frame.under (safeEval_only _) (by simp) ?_
  refine Frame.under (modConn_only _ _ _) (by simp) ?_
  exact Frame.refl _ _

/-- What `conLate` can change. -/
theorem conLate_only (k : Fin 8) (s : State) : Frame [.events, .board, .mode, .gate, .plk] s (conLate k s) := by
  unfold conLate
  dsimp only
  split
  · refine Frame.under (conFail_only _ _ _) (by simp) ?_
    exact Frame.refl _ _
  · exact Frame.refl _ _

/-- What `safetyFrameRx` can change. -/
theorem safetyFrameRx_only (k : Fin 8) (b : List Byte) (s0 : State) : Frame [.events, .board, .mode, .gate, .plk] s0 (safetyFrameRx k b s0) := by
  unfold safetyFrameRx
  dsimp only
  split
  · exact Frame.refl _ _
  · split
    · refine Frame.under (conLate_only _ _) (by simp) ?_
      exact Frame.refl _ _
    · split
      · refine Frame.under (modConn_only _ _ _) (by simp) ?_
        refine Frame.under (conLate_only _ _) (by simp) ?_
        exact Frame.refl _ _
      · split
        · refine Frame.under (conFail_only _ _ _) (by simp) ?_
          refine Frame.under (conLate_only _ _) (by simp) ?_
          exact Frame.refl _ _
        · split
          · refine Frame.under (conLate_only _ _) (by simp) ?_
            exact Frame.refl _ _
          · split
            · refine Frame.under (conFail_only _ _ _) (by simp) ?_
              refine Frame.under (conLate_only _ _) (by simp) ?_
              exact Frame.refl _ _
            · split
              · refine Frame.under (conFail_only _ _ _) (by simp) ?_
                refine Frame.under (conLate_only _ _) (by simp) ?_
                exact Frame.refl _ _
              · refine Frame.under (conAccept_only _ _ _ _) (by simp) ?_
                refine Frame.under (conLate_only _ _) (by simp) ?_
                exact Frame.refl _ _

/-- What `execSafetyFrameRx` can change. -/
theorem execSafetyFrameRx_only (k : Fin 8) (bytes : List Byte) (s : State) : FrameOut [.events, .board, .mode, .gate, .plk] s (execSafetyFrameRx k bytes s) := by
  unfold execSafetyFrameRx
  refine FrameOut.next ?_
  refine Frame.under (safetyFrameRx_only _ _ _) (by simp) ?_
  exact Frame.refl _ _

/-- What `safetyStatusTx` can change. -/
theorem safetyStatusTx_only (k : Fin 8) (s : State) : Frame [.time, .plk, .outbox] s (safetyStatusTx k s) := by
  unfold safetyStatusTx
  dsimp only
  split
  · exact Frame.refl _ _
  · refine Frame.under (modConn_only _ _ _) (by simp) ?_
    refine Frame.comp ?_ (Frame.when ?_)
    · refine Frame.under (elapseTo_only _ _) (by simp) ?_
      exact Frame.refl _ _
    · refine Frame.under (send_only _ _) (by simp) ?_
      exact Frame.refl _ _

/-- What `execSafetyStatusTx` can change. -/
theorem execSafetyStatusTx_only (k : Fin 8) (s : State) : FrameOut [.time, .plk, .outbox] s (execSafetyStatusTx k s) := by
  unfold execSafetyStatusTx
  refine FrameOut.next ?_
  refine Frame.under (safetyStatusTx_only _ _) (by simp) ?_
  exact Frame.refl _ _

/-- What `connTimeout` can change. -/
theorem connTimeout_only (k : Fin 8) (s : State) : Frame [.time, .events, .board, .mode, .gate, .plk] s (connTimeout k s) := by
  unfold connTimeout
  dsimp only
  split
  · exact Frame.refl _ _
  · refine Frame.under (conFail_only _ _ _) (by simp) ?_
    refine Frame.under (elapseTo_only _ _) (by simp) ?_
    exact Frame.refl _ _

/-- What `execConnectionTimeout` can change. -/
theorem execConnectionTimeout_only (k : Fin 8) (s : State) : FrameOut [.time, .events, .board, .mode, .gate, .plk] s (execConnectionTimeout k s) := by
  unfold execConnectionTimeout
  refine FrameOut.next ?_
  refine Frame.under (connTimeout_only _ _) (by simp) ?_
  exact Frame.refl _ _

/-- What `degrOnMode` can change. -/
theorem degrOnMode_only (old : Nat) (s : State) : Frame [.mode, .plk] s (degrOnMode old s) := by
  unfold degrOnMode
  split
  · dsimp only
    refine Frame.under (modMode_only _ _) (by simp) ?_
    refine Frame.under (modPlk_only _ _) (by simp) ?_
    exact Frame.refl _ _
  · split
    · refine Frame.under (modPlk_only _ _) (by simp) ?_
      exact Frame.refl _ _
    · exact Frame.refl _ _

/-- What `degrExpired` can change. -/
theorem degrExpired_only (s : State) : Frame [.time, .events, .board, .mode, .gate, .plk] s (degrExpired s) := by
  unfold degrExpired
  split
  · exact Frame.refl _ _
  · dsimp only
    refine Frame.under (modMode_only _ _) (by simp) ?_
    refine Frame.under (actDemand_only _ _ _) (by simp) ?_
    refine Frame.under (elapseTo_only _ _) (by simp) ?_
    exact Frame.refl _ _

/-- What `execDegrExpired` can change. -/
theorem execDegrExpired_only (s : State) : FrameOut [.time, .events, .board, .mode, .gate, .plk] s (execDegrExpired s) := by
  unfold execDegrExpired
  refine FrameOut.next ?_
  refine Frame.under (degrExpired_only _) (by simp) ?_
  exact Frame.refl _ _

/-- What `plkStart` can change. -/
theorem plkStart_only (failed cold : Bool) (s : State) : Frame [.time, .gate, .plk] s (plkStart failed cold s) := by
  unfold plkStart
  dsimp only
  refine Frame.under (startTick_only _ _) (by simp) ?_
  refine Frame.under (startTick_only _ _) (by simp) ?_
  refine Frame.under (startTick_only _ _) (by simp) ?_
  refine Frame.under (modGate_only _ _) (by simp) ?_
  refine Frame.under (modPlk_only _ _) (by simp) ?_
  exact Frame.refl _ _

/-- What `eccCorrected` can change. -/
theorem eccCorrected_only (wh : Option Lane) (bank row : Nat) (s : State) : Frame [.events, .board, .wear] s (eccCorrected wh bank row s) := by
  unfold eccCorrected
  dsimp only
  split
  · refine Frame.under (raiseIf_only _ _ _ _) (by simp) ?_
    refine Frame.under (modWear_only _ _) (by simp) ?_
    exact Frame.refl _ _
  · split
    · refine Frame.under (repairRow_only _ _ _ _ _) (by simp) ?_
      refine Frame.under (raiseIf_only _ _ _ _) (by simp) ?_
      refine Frame.under (modWear_only _ _) (by simp) ?_
      exact Frame.refl _ _
    · refine Frame.under (raiseIf_only _ _ _ _) (by simp) ?_
      refine Frame.under (modWear_only _ _) (by simp) ?_
      exact Frame.refl _ _

/-- What `execEccCorrected` can change. -/
theorem execEccCorrected_only (wh : Option Lane) (bank : Fin 50) (row : Nat) (s : State) : FrameOut [.events, .board, .wear] s (execEccCorrected wh bank row s) := by
  unfold execEccCorrected
  refine FrameOut.next ?_
  refine Frame.under (eccCorrected_only _ _ _ _) (by simp) ?_
  exact Frame.refl _ _

/-- What `swapFailed` can change. -/
theorem swapFailed_only (res lane unit : Nat) (s : State) : Frame [.events, .board, .wear] s (swapFailed res lane unit s) := by
  unfold swapFailed
  refine Frame.under (raise_only _ _ _) (by simp) ?_
  refine Frame.under (logSwap_only _ _ _ _ _ _ _) (by simp) ?_
  exact Frame.refl _ _

/-- What `swapElapse` can change. -/
theorem swapElapse_only (from0 most : Nat) (s : State) : Frame [.time, .free] s (swapElapse from0 most s) := by
  unfold swapElapse
  split
  refine Frame.under (elapseTo_only _ _) (by simp) ?_
  refine Frame.under (Frame.snd (by assumption) (takeFree_only _)) (by simp) ?_
  exact Frame.refl _ _

/-- What `rowSwapDone` can change. -/
theorem rowSwapDone_only (l : Lane) (ok : Bool) (s0 : State) : Frame [.time, .free, .events, .board, .wear] s0 (rowSwapDone l ok s0) := by
  unfold rowSwapDone
  split
  · exact Frame.refl _ _
  · dsimp only
    split
    · refine Frame.under (swapFailed_only _ _ _ _) (by simp) ?_
      refine Frame.under (modWear_only _ _) (by simp) ?_
      refine Frame.under (swapElapse_only _ _ _) (by simp) ?_
      exact Frame.refl _ _
    · refine Frame.under (modWear_only _ _) (by simp) ?_
      refine Frame.under (hingeSwap_only _ _ _ _ _ _ _) (by simp) ?_
      refine Frame.under (modWear_only _ _) (by simp) ?_
      refine Frame.under (swapElapse_only _ _ _) (by simp) ?_
      exact Frame.refl _ _

/-- What `execRowSwapDone` can change. -/
theorem execRowSwapDone_only (l : Lane) (ok : Bool) (s : State) : FrameOut [.time, .free, .events, .board, .wear] s (execRowSwapDone l ok s) := by
  unfold execRowSwapDone
  refine FrameOut.next ?_
  refine Frame.under (rowSwapDone_only _ _ _) (by simp) ?_
  exact Frame.refl _ _

/-- What `bankSwapDone` can change. -/
theorem bankSwapDone_only (l : Lane) (ok : Bool) (s0 : State) : Frame [.time, .free, .events, .board, .wear] s0 (bankSwapDone l ok s0) := by
  unfold bankSwapDone
  split
  · exact Frame.refl _ _
  · dsimp only
    split
    · refine Frame.under (swapFailed_only _ _ _ _) (by simp) ?_
      refine Frame.under (modWear_only _ _) (by simp) ?_
      refine Frame.under (swapElapse_only _ _ _) (by simp) ?_
      exact Frame.refl _ _
    · refine Frame.under (modWear_only _ _) (by simp) ?_
      refine Frame.under (hingeSwap_only _ _ _ _ _ _ _) (by simp) ?_
      refine Frame.under (modWear_only _ _) (by simp) ?_
      refine Frame.under (swapElapse_only _ _ _) (by simp) ?_
      exact Frame.refl _ _

/-- What `execBankSwapDone` can change. -/
theorem execBankSwapDone_only (l : Lane) (ok : Bool) (s : State) : FrameOut [.time, .free, .events, .board, .wear] s (execBankSwapDone l ok s) := by
  unfold execBankSwapDone
  refine FrameOut.next ?_
  refine Frame.under (bankSwapDone_only _ _ _) (by simp) ?_
  exact Frame.refl _ _

/-- What `couplerSwap` can change. -/
theorem couplerSwap_only (k : Fin 5) (errors : Nat) (s : State) : Frame [.events, .board, .fio, .wear] s (couplerSwap k errors s) := by
  unfold couplerSwap
  split
  · exact Frame.refl _ _
  · split
    · refine Frame.under (noSpare_only _ _ _ _ _ _) (by simp) ?_
      exact Frame.refl _ _
    · refine Frame.under (hingeSwap_only _ _ _ _ _ _ _) (by simp) ?_
      refine Frame.under (modFio_only _ _) (by simp) ?_
      exact Frame.refl _ _

/-- What `execCouplerLaneSwap` can change. -/
theorem execCouplerLaneSwap_only (k : Fin 5) (errors : Nat) (s : State) : FrameOut [.events, .board, .fio, .wear] s (execCouplerLaneSwap k errors s) := by
  unfold execCouplerLaneSwap
  refine FrameOut.next ?_
  refine Frame.under (couplerSwap_only _ _ _) (by simp) ?_
  exact Frame.refl _ _

/-- What `mapWritten` can change. -/
theorem mapWritten_only (s : State) : Frame [.time, .free, .wear] s (mapWritten s) := by
  unfold mapWritten
  split
  · exact Frame.refl _ _
  · refine Frame.under (modWear_only _ _) (by simp) ?_
    refine Frame.under (swapElapse_only _ _ _) (by simp) ?_
    exact Frame.refl _ _

/-- What `execRepairMapWritten` can change. -/
theorem execRepairMapWritten_only (s : State) : FrameOut [.time, .free, .wear] s (execRepairMapWritten s) := by
  unfold execRepairMapWritten
  refine FrameOut.next ?_
  refine Frame.under (mapWritten_only _) (by simp) ?_
  exact Frame.refl _ _

/-- What `mapFail` can change. -/
theorem mapFail_only (s : State) : Frame [.time, .events, .board, .wear] s (mapFail s) := by
  unfold mapFail
  split
  · exact Frame.refl _ _
  · dsimp only
    refine Frame.under (raise_only _ _ _) (by simp) ?_
    refine Frame.under (modWear_only _ _) (by simp) ?_
    refine Frame.under (elapseTo_only _ _) (by simp) ?_
    exact Frame.refl _ _

/-- What `execMapFail` can change. -/
theorem execMapFail_only (s : State) : FrameOut [.time, .events, .board, .wear] s (execMapFail s) := by
  unfold execMapFail
  refine FrameOut.next ?_
  refine Frame.under (mapFail_only _) (by simp) ?_
  exact Frame.refl _ _

/-- What `swapLogWrite` can change. -/
theorem swapLogWrite_only (room : Bool) (s : State) : Frame [.events, .board, .wear] s (swapLogWrite room s) := by
  unfold swapLogWrite
  split
  · exact Frame.refl _ _
  · split
    · exact Frame.refl _ _
    · dsimp only
      split
      · refine Frame.under (modWear_only _ _) (by simp) ?_
        refine Frame.under (modWear_only _ _) (by simp) ?_
        exact Frame.refl _ _
      · refine Frame.under (raise_only _ _ _) (by simp) ?_
        refine Frame.under (modWear_only _ _) (by simp) ?_
        exact Frame.refl _ _

/-- What `execSwapLogWrite` can change. -/
theorem execSwapLogWrite_only (room : Bool) (s : State) : FrameOut [.events, .board, .wear] s (execSwapLogWrite room s) := by
  unfold execSwapLogWrite
  refine FrameOut.next ?_
  refine Frame.under (swapLogWrite_only _ _) (by simp) ?_
  exact Frame.refl _ _

/-- What `wearStart` can change. -/
theorem wearStart_only (s : State) : Frame [.wear] s (wearStart s) := by
  unfold wearStart
  dsimp only
  refine Frame.under (modWear_only _ _) (by simp) ?_
  exact Frame.refl _ _

/-- What `restoreRepairs` can change. -/
theorem restoreRepairs_only (s : State) : Frame [.laneA, .laneB, .gate] s (restoreRepairs s) := by
  unfold restoreRepairs
  refine Frame.comp ?_ (Frame.foldS _ _ _ fun _ _ => ?_)
  · exact Frame.refl _ _
  · dsimp only
    split
    · split
      · refine Frame.under (modEng_only _ _ _) (by repeat' first | exact sub_nil _ | (refine lanePart_mem _ ?_ ?_ <;> (simp; done)) | (refine sramPart_mem _ ?_ ?_ <;> (simp; done)) | refine sub_cons ?_ ?_ | (simp; done)) ?_
        exact Frame.refl _ _
      · exact Frame.refl _ _
    · split
      · refine Frame.under (modMeas_only _ _ _) (by repeat' first | exact sub_nil _ | (refine lanePart_mem _ ?_ ?_ <;> (simp; done)) | (refine sramPart_mem _ ?_ ?_ <;> (simp; done)) | refine sub_cons ?_ ?_ | (simp; done)) ?_
        exact Frame.refl _ _
      · exact Frame.refl _ _
    · split
      · refine Frame.under (modCh_only _ _ _) (by simp) ?_
        exact Frame.refl _ _
      · exact Frame.refl _ _
    · exact Frame.refl _ _

/-- What `islandEffect` can change. -/
theorem islandEffect_only (i : Fin 22) (ring : Bool) (s : State) : Frame [.events, .board, .laneA, .laneB, .claim, .net, .timebase, .can] s (islandEffect i ring s) := by
  unfold islandEffect
  split
  · split
    · refine Frame.under (tsuDown_only _ _) (by simp) ?_
      refine Frame.under (tsuDown_only _ _) (by simp) ?_
      exact Frame.refl _ _
    · exact Frame.refl _ _
  · split
    · refine Frame.under (ptpHoldover_only _) (by simp) ?_
      refine Frame.under (netStopped_only _ _) (by simp) ?_
      exact Frame.refl _ _
    · refine Frame.under (netStopped_only _ _) (by simp) ?_
      exact Frame.refl _ _
  · refine Frame.comp ?_ (Frame.foldS _ _ _ fun _ _ => ?_)
    · exact Frame.refl _ _
    · refine Frame.under (canSuspend_only _ _ _) (by simp) ?_
      exact Frame.refl _ _
  · exact Frame.refl _ _

/-- What `islandChange` can change. -/
theorem islandChange_only (i : Fin 22) (s : State) : Frame [.events, .board, .clock, .laneA, .laneB, .claim, .net, .timebase, .can] s (islandChange i s) := by
  unfold islandChange
  dsimp only
  split
  · exact Frame.refl _ _
  · split
    · refine Frame.under (startTcxo_only _ _) (by simp) ?_
      exact Frame.refl _ _
    · refine Frame.under (returnIslands_only _) (by simp) ?_
      split
      · refine Frame.under (islandEffect_only _ _ _) (by simp) ?_
        refine Frame.under (modIslClk_only _ _ _) (by simp) ?_
        exact Frame.refl _ _
      · refine Frame.under (modIslClk_only _ _ _) (by simp) ?_
        exact Frame.refl _ _

/-- What `execIslandSourceChange` can change. -/
theorem execIslandSourceChange_only (isl : Fin 22) (s : State) : FrameOut [.events, .board, .clock, .laneA, .laneB, .claim, .net, .timebase, .can] s (execIslandSourceChange isl s) := by
  unfold execIslandSourceChange
  refine FrameOut.next ?_
  refine Frame.under (islandChange_only _ _) (by simp) ?_
  exact Frame.refl _ _

/-- What `ppsLoss` can change. -/
theorem ppsLoss_only (s : State) : Frame [.time, .events, .board, .clock, .laneA, .laneB, .timebase] s (ppsLoss s) := by
  unfold ppsLoss
  split
  · exact Frame.refl _ _
  · dsimp only
    refine Frame.under (ppsHoldover_only _) (by simp) ?_
    refine Frame.under (raise_only _ _ _) (by simp) ?_
    refine Frame.under (modClock_only _ _) (by simp) ?_
    refine Frame.under (elapseTo_only _ _) (by simp) ?_
    exact Frame.refl _ _

/-- What `execPpsLoss` can change. -/
theorem execPpsLoss_only (s : State) : FrameOut [.time, .events, .board, .clock, .laneA, .laneB, .timebase] s (execPpsLoss s) := by
  unfold execPpsLoss
  refine FrameOut.next ?_
  refine Frame.under (ppsLoss_only _) (by simp) ?_
  exact Frame.refl _ _

theorem raw_ticks_events_power_clock_mode_key_mesh_laneA_laneB_gate_claim_net_time_can_fio_plk_host_wear_sram_set (s : State) (x0 x1 x2 x3 x4 x5 x6 x7 x8 x9 x10 x11 x12 x13 x14 x15 x16 x17 x18 x19) : Frame [.time, .events, .power, .clock, .mode, .key, .mesh, .laneA, .sramA, .laneB, .sramB, .gate, .claim, .net, .timebase, .can, .fio, .plk, .host, .board, .wear, .sram] s { s with raw := x0, ticks := x1, events := x2, power := x3, clock := x4, mode := x5, key := x6, mesh := x7, laneA := x8, laneB := x9, gate := x10, claim := x11, net := x12, time := x13, can := x14, fio := x15, plk := x16, host := x17, wear := x18, sram := x19 } := by
  intro p hp
  cases p <;> first | rfl | exact ⟨rfl, rfl, rfl⟩ | exact ⟨rfl, rfl, rfl, rfl⟩ | exact absurd hp (by simp)
theorem events_clock_key_mesh_laneA_laneB_gate_claim_net_time_can_fio_plk_host_wear_sram_set (s : State) (x0 x1 x2 x3 x4 x5 x6 x7 x8 x9 x10 x11 x12 x13 x14 x15) : Frame [.events, .clock, .key, .mesh, .laneA, .sramA, .laneB, .sramB, .gate, .claim, .net, .timebase, .can, .fio, .plk, .host, .board, .wear, .sram] s { s with events := x0, clock := x1, key := x2, mesh := x3, laneA := x4, laneB := x5, gate := x6, claim := x7, net := x8, time := x9, can := x10, fio := x11, plk := x12, host := x13, wear := x14, sram := x15 } := by
  intro p hp
  cases p <;> first | rfl | exact ⟨rfl, rfl, rfl⟩ | exact ⟨rfl, rfl, rfl, rfl⟩ | exact absurd hp (by simp)
theorem power_clock_mode_set (s : State) (x0 x1 x2) : Frame [.power, .clock, .mode] s { s with power := x0, clock := x1, mode := x2 } := by
  intro p hp
  cases p <;> first | rfl | exact ⟨rfl, rfl, rfl⟩ | exact ⟨rfl, rfl, rfl, rfl⟩ | exact absurd hp (by simp)

/-- What `coldState` can change. -/
theorem coldState_only (s : State) : Frame [.time, .free, .queue, .events, .board, .host, .power, .clock, .mode, .key, .mesh, .laneA, .laneB, .sramA, .sramB, .sram, .gate, .claim, .net, .timebase, .can, .fio, .plk, .wear, .outbox] s (coldState s) := by
  intro p hp
  cases p <;> exact absurd hp (by simp)

/-- What `restartState` can change. -/
theorem restartState_only (s : State) : Frame [.time, .free, .queue, .events, .board, .host, .power, .clock, .mode, .key, .mesh, .laneA, .laneB, .sramA, .sramB, .sram, .gate, .claim, .net, .timebase, .can, .fio, .plk, .wear, .outbox] s (restartState s) := by
  intro p hp
  cases p <;> exact absurd hp (by simp)

/-- What `vbusRise` can change. -/
theorem vbusRise_only (vbusMv : Nat) (auxMv : Int) (s : State) : Frame [.time, .free, .queue, .events, .board, .host, .power, .clock, .mode, .key, .mesh, .laneA, .laneB, .sramA, .sramB, .sram, .gate, .claim, .net, .timebase, .can, .fio, .plk, .wear, .outbox] s (vbusRise vbusMv auxMv s) := by
  intro p hp
  cases p <;> exact absurd hp (by simp)

/-- What `execVbusRise` can change. -/
theorem execVbusRise_only (vbusMv : Nat) (auxMv : Int) (s : State) : FrameOut [.time, .free, .queue, .events, .board, .host, .power, .clock, .mode, .key, .mesh, .laneA, .laneB, .sramA, .sramB, .sram, .gate, .claim, .net, .timebase, .can, .fio, .plk, .wear, .outbox] s (execVbusRise vbusMv auxMv s) := by
  intro _ _ p hp
  cases p <;> exact absurd hp (by simp)

/-- What `vbusFall` can change. -/
theorem vbusFall_only (vbusMv : Nat) (s : State) : Frame [.time, .free, .queue, .events, .board, .host, .power, .clock, .mode, .key, .mesh, .laneA, .laneB, .sramA, .sramB, .sram, .gate, .claim, .net, .timebase, .can, .fio, .plk, .wear, .outbox] s (vbusFall vbusMv s) := by
  intro p hp
  cases p <;> exact absurd hp (by simp)

/-- What `execVbusFall` can change. -/
theorem execVbusFall_only (vbusMv : Nat) (s : State) : FrameOut [.time, .free, .queue, .events, .board, .host, .power, .clock, .mode, .key, .mesh, .laneA, .laneB, .sramA, .sramB, .sram, .gate, .claim, .net, .timebase, .can, .fio, .plk, .wear, .outbox] s (execVbusFall vbusMv s) := by
  intro _ _ p hp
  cases p <;> exact absurd hp (by simp)

/-- What `reportFail` can change. -/
theorem reportFail_only (n : Fin 2) (s : State) : Frame [.key] s (reportFail n s) := by
  unfold reportFail
  split
  · exact Frame.refl _ _
  · refine Frame.under (modKey_only _ _) (by simp) ?_
    exact Frame.refl _ _

/-- What `startMode` can change. -/
theorem startMode_only (m : BitVec 4) (cause : Byte) (s : State) : Frame [.events, .board, .mode, .key] s (startMode m cause s) := by
  unfold startMode
  refine Frame.under (raise_only _ _ _) (by simp) ?_
  refine Frame.under (modMode_only _ _) (by simp) ?_
  refine Frame.under (endSession_only _ _) (by simp) ?_
  exact Frame.refl _ _

/-- What `holdM1` can change. -/
theorem holdM1_only (s : State) : Frame [.events, .board, .key] s (holdM1 s) := by
  unfold holdM1
  refine Frame.under (raise_only _ _ _) (by simp) ?_
  refine Frame.under (modKey_only _ _) (by simp) ?_
  exact Frame.refl _ _

/-- What `fioStart` can change. -/
theorem fioStart_only (s : State) : Frame [.fio] s (fioStart s) := by
  unfold fioStart
  refine Frame.under (modFio_only _ _) (by simp) ?_
  exact Frame.refl _ _

/-- What `keycheckKey` can change. -/
theorem keycheckKey_only (s : State) : Frame [.events, .board, .mode, .key, .fio] s (keycheckKey s) := by
  unfold keycheckKey
  dsimp only
  split
  · refine Frame.under (holdM1_only _) (by simp) ?_
    refine Frame.under (raiseIf_only _ _ _ _) (by simp) ?_
    refine Frame.under (modKey_only _ _) (by simp) ?_
    split
    · exact Frame.refl _ _
    · refine Frame.comp ?_ (Frame.when ?_)
      · refine Frame.under (reportFail_only _ _) (by simp) ?_
        exact Frame.refl _ _
      · refine Frame.under (reportFail_only _ _) (by simp) ?_
        exact Frame.refl _ _
  · split
    · refine Frame.under (raiseIf_only _ _ _ _) (by simp) ?_
      refine Frame.under (modKey_only _ _) (by simp) ?_
      split
      · exact Frame.refl _ _
      · refine Frame.comp ?_ (Frame.when ?_)
        · refine Frame.under (reportFail_only _ _) (by simp) ?_
          exact Frame.refl _ _
        · refine Frame.under (reportFail_only _ _) (by simp) ?_
          exact Frame.refl _ _
    · refine Frame.under (startMode_only _ _ _) (by simp) ?_
      refine Frame.under (fioStart_only _) (by simp) ?_
      refine Frame.under (modKey_only _ _) (by simp) ?_
      refine Frame.under (raiseIf_only _ _ _ _) (by simp) ?_
      refine Frame.under (modKey_only _ _) (by simp) ?_
      split
      · exact Frame.refl _ _
      · refine Frame.comp ?_ (Frame.when ?_)
        · refine Frame.under (reportFail_only _ _) (by simp) ?_
          exact Frame.refl _ _
        · refine Frame.under (reportFail_only _ _) (by simp) ?_
          exact Frame.refl _ _

/-- What `keycheck` can change. -/
theorem keycheck_only (fw0 fw1 : Bool) (s : State) : Frame [.events, .board, .mode, .key, .fio] s (keycheck fw0 fw1 s) := by
  unfold keycheck
  split
  · exact Frame.refl _ _
  · dsimp only
    split
    · refine Frame.under (holdM1_only _) (by simp) ?_
      refine Frame.under (raiseIf_only _ _ _ _) (by simp) ?_
      refine Frame.under (modKey_only _ _) (by simp) ?_
      exact Frame.refl _ _
    · refine Frame.under (keycheckKey_only _) (by simp) ?_
      refine Frame.under (modKey_only _ _) (by simp) ?_
      refine Frame.under (raiseIf_only _ _ _ _) (by simp) ?_
      refine Frame.under (modKey_only _ _) (by simp) ?_
      exact Frame.refl _ _

/-- What `execKeycheckDone` can change. -/
theorem execKeycheckDone_only (fw0Ok fw1Ok : Bool) (s : State) : FrameOut [.events, .board, .mode, .key, .fio] s (execKeycheckDone fw0Ok fw1Ok s) := by
  unfold execKeycheckDone
  refine FrameOut.next ?_
  refine Frame.under (keycheck_only _ _ _) (by simp) ?_
  exact Frame.refl _ _

/-- What `raiseIslands` can change. -/
theorem raiseIslands_only (s : State) : Frame [.power] s (raiseIslands s) := by
  unfold raiseIslands
  refine Frame.comp ?_ (Frame.foldS _ _ _ fun _ _ => ?_)
  · exact Frame.refl _ _
  · dsimp only
    refine Frame.under (modIsl_only _ _ _) (by simp) ?_
    exact Frame.refl _ _

/-- What `modeFields` can change. -/
theorem modeFields_only (old : BitVec 4) (s : State) : Frame [.mode] s (modeFields old s) := by
  unfold modeFields
  dsimp only
  refine Frame.under (modMode_only _ _) (by simp) ?_
  exact Frame.refl _ _

/-- What `safeOnMode` can change. -/
theorem safeOnMode_only (s : State) : Frame [.mode] s (safeOnMode s) := by
  unfold safeOnMode
  dsimp only
  split
  · split
    · refine Frame.under (trigger_only _ _) (by simp) ?_
      refine Frame.under (trigger_only _ _) (by simp) ?_
      exact Frame.refl _ _
    · refine Frame.under (trigger_only _ _) (by simp) ?_
      exact Frame.refl _ _
  · split
    · refine Frame.under (trigger_only _ _) (by simp) ?_
      exact Frame.refl _ _
    · exact Frame.refl _ _

/-- What `modeTrigs` can change. -/
theorem modeTrigs_only (old : Nat) (s : State) : Frame [.laneA, .laneB] s (modeTrigs old s) := by
  unfold modeTrigs
  split
  · refine Frame.under (noteTrigs_only _ _) (by simp) ?_
    exact Frame.refl _ _
  · split
    · refine Frame.under (noteTrigs_only _ _) (by simp) ?_
      exact Frame.refl _ _
    · split
      · refine Frame.under (noteTrigs_only _ _) (by simp) ?_
        exact Frame.refl _ _
      · exact Frame.refl _ _

/-- What `modeEffects` can change. -/
theorem modeEffects_only (old : BitVec 4) (s : State) : Frame [.free, .events, .board, .power, .mode, .key, .laneA, .laneB, .sramA, .sramB, .gate, .claim, .timebase, .fio, .plk] s (modeEffects old s) := by
  unfold modeEffects
  dsimp only
  refine Frame.under (refreshFn_only _) (by simp) ?_
  refine Frame.under (raiseIslands_only _) (by simp) ?_
  refine Frame.under (timeModeEntry_only _) (by simp) ?_
  refine Frame.under (modeTrigs_only _ _) (by simp) ?_
  refine Frame.comp ?_ (Frame.foldS _ _ _ fun _ _ => ?_)
  · split
    · refine Frame.under (freezeOnMode_only _) (by simp) ?_
      refine Frame.under (gfModeEntry_only _ _) (by simp) ?_
      refine Frame.under (raMode_only _) (by simp) ?_
      refine Frame.under (applyBlocks_only _) (by simp) ?_
      refine Frame.under (degrOnMode_only _ _) (by simp) ?_
      refine Frame.under (modeFields_only _ _) (by simp) ?_
      refine Frame.under (endSession_only _ _) (by simp) ?_
      exact Frame.refl _ _
    · refine Frame.under (gfModeEntry_only _ _) (by simp) ?_
      refine Frame.under (raMode_only _) (by simp) ?_
      refine Frame.under (applyBlocks_only _) (by simp) ?_
      refine Frame.under (degrOnMode_only _ _) (by simp) ?_
      refine Frame.under (modeFields_only _ _) (by simp) ?_
      refine Frame.under (endSession_only _ _) (by simp) ?_
      exact Frame.refl _ _
  · refine Frame.under (recMark_only _ _ _ _ _ _ _ _) (by repeat' first | exact sub_nil _ | (refine lanePart_mem _ ?_ ?_ <;> (simp; done)) | (refine sramPart_mem _ ?_ ?_ <;> (simp; done)) | refine sub_cons ?_ ?_ | (simp; done)) ?_
    exact Frame.refl _ _

/-- What `enterDormant` can change. -/
theorem enterDormant_only (s : State) : Frame [.time, .free, .queue, .events, .board, .host, .power, .clock, .mode, .key, .mesh, .laneA, .laneB, .sramA, .sramB, .sram, .gate, .claim, .net, .timebase, .can, .fio, .plk, .wear, .outbox] s (enterDormant s) := by
  intro p hp
  cases p <;> exact absurd hp (by simp)

/-- What `enterRestart` can change. -/
theorem enterRestart_only (s : State) : Frame [.time, .free, .queue, .events, .board, .host, .power, .clock, .mode, .key, .mesh, .laneA, .laneB, .sramA, .sramB, .sram, .gate, .claim, .net, .timebase, .can, .fio, .plk, .wear, .outbox] s (enterRestart s) := by
  intro p hp
  cases p <;> exact absurd hp (by simp)

/-- What `refuseMode` can change. -/
theorem refuseMode_only (code : Nat) (s : State) : Frame [.events, .board, .mode] s (refuseMode code s) := by
  unfold refuseMode
  refine Frame.under (raise_only _ _ _) (by simp) ?_
  refine Frame.under (modMode_only _ _) (by simp) ?_
  exact Frame.refl _ _

/-- What `judgeRequest` can change. -/
theorem judgeRequest_only (target : BitVec 4) (s : State) : Frame [.events, .board, .mode, .laneA, .laneB, .gate, .claim] s (judgeRequest target s) := by
  unfold judgeRequest
  dsimp only
  split
  · refine Frame.under (refuseMode_only _ _) (by simp) ?_
    exact Frame.refl _ _
  · split
    · refine Frame.under (applyBlocks_only _) (by simp) ?_
      refine Frame.under (beginTransition_only _ _) (by simp) ?_
      split
      · refine Frame.under (modMode_only _ _) (by simp) ?_
        exact Frame.refl _ _
      · exact Frame.refl _ _
    · refine Frame.under (beginTransition_only _ _) (by simp) ?_
      split
      · refine Frame.under (modMode_only _ _) (by simp) ?_
        exact Frame.refl _ _
      · exact Frame.refl _ _

/-- What `requestMode` can change. -/
theorem requestMode_only (key : Half) (target : BitVec 4) (s : State) : Frame [.events, .board, .mode, .laneA, .laneB, .gate, .claim] s (requestMode key target s) := by
  unfold requestMode
  split
  · exact Frame.refl _ _
  · split
    · refine Frame.under (refuseMode_only _ _) (by simp) ?_
      exact Frame.refl _ _
    · split
      · refine Frame.under (refuseMode_only _ _) (by simp) ?_
        exact Frame.refl _ _
      · split
        · refine Frame.under (modMode_only _ _) (by simp) ?_
          exact Frame.refl _ _
        · refine Frame.under (judgeRequest_only _ _) (by simp) ?_
          exact Frame.refl _ _

/-- What `execModeReqDormant` can change. -/
theorem execModeReqDormant_only (key : Half) (s : State) : FrameOut [.events, .board, .mode, .laneA, .laneB, .gate, .claim] s (execModeReqDormant key s) := by
  unfold execModeReqDormant
  refine FrameOut.next ?_
  refine Frame.under (requestMode_only _ _ _) (by simp) ?_
  exact Frame.refl _ _

/-- What `execModeReqRestart` can change. -/
theorem execModeReqRestart_only (key : Half) (s : State) : FrameOut [.events, .board, .mode, .laneA, .laneB, .gate, .claim] s (execModeReqRestart key s) := by
  unfold execModeReqRestart
  refine FrameOut.next ?_
  refine Frame.under (requestMode_only _ _ _) (by simp) ?_
  exact Frame.refl _ _

/-- What `execModeReqBlocked` can change. -/
theorem execModeReqBlocked_only (key : Half) (s : State) : FrameOut [.events, .board, .mode, .laneA, .laneB, .gate, .claim] s (execModeReqBlocked key s) := by
  unfold execModeReqBlocked
  refine FrameOut.next ?_
  refine Frame.under (requestMode_only _ _ _) (by simp) ?_
  exact Frame.refl _ _

/-- What `execModeReqPrecharge` can change. -/
theorem execModeReqPrecharge_only (key : Half) (s : State) : FrameOut [.events, .board, .mode, .laneA, .laneB, .gate, .claim] s (execModeReqPrecharge key s) := by
  unfold execModeReqPrecharge
  refine FrameOut.next ?_
  refine Frame.under (requestMode_only _ _ _) (by simp) ?_
  exact Frame.refl _ _

/-- What `execModeReqBlackStart` can change. -/
theorem execModeReqBlackStart_only (key : Half) (s : State) : FrameOut [.events, .board, .mode, .laneA, .laneB, .gate, .claim] s (execModeReqBlackStart key s) := by
  unfold execModeReqBlackStart
  refine FrameOut.next ?_
  refine Frame.under (requestMode_only _ _ _) (by simp) ?_
  exact Frame.refl _ _

/-- What `execModeReqSynchronise` can change. -/
theorem execModeReqSynchronise_only (key : Half) (s : State) : FrameOut [.events, .board, .mode, .laneA, .laneB, .gate, .claim] s (execModeReqSynchronise key s) := by
  unfold execModeReqSynchronise
  refine FrameOut.next ?_
  refine Frame.under (requestMode_only _ _ _) (by simp) ?_
  exact Frame.refl _ _

/-- What `execModeReqUnaccepted` can change. -/
theorem execModeReqUnaccepted_only (key : Half) (target : BitVec 4) (s : State) : FrameOut [.events, .board, .mode, .laneA, .laneB, .gate, .claim] s (execModeReqUnaccepted key target s) := by
  unfold execModeReqUnaccepted
  refine FrameOut.next ?_
  refine Frame.under (requestMode_only _ _ _) (by simp) ?_
  exact Frame.refl _ _

/-- What `evalTrigger` can change. -/
theorem evalTrigger_only (t : Trigger) (s : State) : Frame [.events, .board, .mode, .laneA, .laneB, .gate, .claim] s (evalTrigger t s) := by
  unfold evalTrigger
  split
  · refine Frame.under (judgeRequest_only _ _) (by simp) ?_
    exact Frame.refl _ _
  · split
    · refine Frame.under (trigger_only _ _) (by simp) ?_
      exact Frame.refl _ _
    · exact Frame.refl _ _
  · split
    · split
      · exact Frame.refl _ _
      · refine Frame.under (trigger_only _ _) (by simp) ?_
        exact Frame.refl _ _
    · split
      · refine Frame.under (trigger_only _ _) (by simp) ?_
        exact Frame.refl _ _
      · refine Frame.under (trigger_only _ _) (by simp) ?_
        exact Frame.refl _ _
  · refine Frame.under (trigger_only _ _) (by simp) ?_
    exact Frame.refl _ _

/-- What `evalHeld` can change. -/
theorem evalHeld_only : ∀ (ts : List Trigger) (s : State), Frame [.events, .board, .mode, .laneA, .laneB, .gate, .claim] s (evalHeld ts s)
  | [], _ => Frame.refl _ _
  | t :: ts, s => by
    unfold evalHeld
    dsimp only
    split
    · exact ((evalTrigger_only _ _).mono (by simp)).comp ((modMode_only _ _).mono (by simp))
    · exact ((evalTrigger_only _ _).mono (by simp)).comp (evalHeld_only ts _)

/-- What `brownRecord` can change. -/
theorem brownRecord_only (evt : Word) (s : State) : Frame [.wear] s (brownRecord evt s) := by
  unfold brownRecord
  split
  · refine Frame.under (modWear_only _ _) (by simp) ?_
    exact Frame.refl _ _
  · exact Frame.refl _ _

/-- What `transitionCut` can change. -/
theorem transitionCut_only (s : State) : Frame [.events, .board, .mode, .laneA, .laneB, .gate, .claim] s (transitionCut s) := by
  unfold transitionCut
  refine Frame.under (evalHeld_only _ _) (by simp) ?_
  refine Frame.under (safeOnMode_only _) (by simp) ?_
  refine Frame.under (modMode_only _ _) (by simp) ?_
  exact Frame.refl _ _

/-- What `transitionDone` can change. -/
theorem transitionDone_only (s : State) : Frame [.time, .free, .queue, .events, .board, .host, .power, .clock, .mode, .key, .mesh, .laneA, .laneB, .sramA, .sramB, .sram, .gate, .claim, .net, .timebase, .can, .fio, .plk, .wear, .outbox] s (transitionDone s) := by
  intro p hp
  cases p <;> exact absurd hp (by simp)

/-- What `execModeTransitionDone` can change. -/
theorem execModeTransitionDone_only (s : State) : FrameOut [.time, .free, .queue, .events, .board, .host, .power, .clock, .mode, .key, .mesh, .laneA, .laneB, .sramA, .sramB, .sram, .gate, .claim, .net, .timebase, .can, .fio, .plk, .wear, .outbox] s (execModeTransitionDone s) := by
  intro _ _ p hp
  cases p <;> exact absurd hp (by simp)

/-- What `hspWake` can change. -/
theorem hspWake_only (lowNs : Nat) (s : State) : Frame [.mode] s (hspWake lowNs s) := by
  unfold hspWake
  split
  · exact Frame.refl _ _
  · refine Frame.under (beginTransition_only _ _) (by simp) ?_
    refine Frame.under (modMode_only _ _) (by simp) ?_
    exact Frame.refl _ _

/-- What `execHspWake` can change. -/
theorem execHspWake_only (lowNs : Nat) (s : State) : FrameOut [.mode] s (execHspWake lowNs s) := by
  unfold execHspWake
  refine FrameOut.next ?_
  refine Frame.under (hspWake_only _ _) (by simp) ?_
  exact Frame.refl _ _

/-- What `prechargeTo` can change. -/
theorem prechargeTo_only (s : State) : Frame [.time, .mode] s (prechargeTo s) := by
  unfold prechargeTo
  split
  · exact Frame.refl _ _
  · refine Frame.under (trigger_only _ _) (by simp) ?_
    refine Frame.under (elapseTo_only _ _) (by simp) ?_
    exact Frame.refl _ _

/-- What `execPrechargeTo` can change. -/
theorem execPrechargeTo_only (s : State) : FrameOut [.time, .mode] s (execPrechargeTo s) := by
  unfold execPrechargeTo
  refine FrameOut.next ?_
  refine Frame.under (prechargeTo_only _) (by simp) ?_
  exact Frame.refl _ _

/-- What `brownStop` can change. -/
theorem brownStop_only (s : State) : Frame [.time, .mode, .laneA, .laneB, .gate, .claim] s (brownStop s) := by
  unfold brownStop
  split
  · exact Frame.refl _ _
  · split
    · exact Frame.refl _ _
    · dsimp only
      refine Frame.under (applyBlocks_only _) (by simp) ?_
      refine Frame.under (trigger_only _ _) (by simp) ?_
      refine Frame.under (modMode_only _ _) (by simp) ?_
      split
      · exact Frame.refl _ _
      · refine Frame.under (elapseTo_only _ _) (by simp) ?_
        exact Frame.refl _ _

/-- What `execBrownStop` can change. -/
theorem execBrownStop_only (s : State) : FrameOut [.time, .mode, .laneA, .laneB, .gate, .claim] s (execBrownStop s) := by
  unfold execBrownStop
  refine FrameOut.next ?_
  refine Frame.under (brownStop_only _) (by simp) ?_
  exact Frame.refl _ _

/-- What `rollCallRings` can change. -/
theorem rollCallRings_only (s : State) : Frame [.free, .clock] s (rollCallRings s) := by
  unfold rollCallRings
  dsimp only
  refine Frame.under (modClock_only _ _) (by simp) ?_
  refine Frame.under (fresh_set _ _) (by simp) ?_
  exact Frame.refl _ _

/-- What `configClock` can change. -/
theorem configClock_only (s : State) : Frame [.free, .clock] s (configClock s) := by
  unfold configClock
  dsimp only
  refine Frame.under (refreshRefs_only _) (by simp) ?_
  refine Frame.under (modClock_only _ _) (by simp) ?_
  refine Frame.under (rollCallRings_only _) (by simp) ?_
  exact Frame.refl _ _

/-- What `configPower` can change. -/
theorem configPower_only (s : State) : Frame [.events, .board, .power, .mode, .laneA, .laneB, .gate, .claim] s (configPower s) := by
  unfold configPower
  dsimp only
  refine Frame.under (modPower_only _ _) (by simp) ?_
  refine Frame.under (refreshHupLow_only _) (by simp) ?_
  refine Frame.under (setGpCtl_only _ _) (by simp) ?_
  exact Frame.refl _ _

/-- What `configMesh` can change. -/
theorem configMesh_only (s : State) : Frame [.mesh] s (configMesh s) := by
  unfold configMesh
  refine Frame.under (modMesh_only _ _) (by simp) ?_
  exact Frame.refl _ _

/-- What `configGate` can change. -/
theorem configGate_only (s : State) : Frame [.gate] s (configGate s) := by
  unfold configGate
  refine Frame.under (modGate_only _ _) (by simp) ?_
  exact Frame.refl _ _

/-- What `configCtx` can change. -/
theorem configCtx_only (l : Lane) (c : Fin 8) (s : State) : Frame [lanePart l] s (configCtx l c s) := by
  unfold configCtx
  split
  · exact Frame.refl _ _
  · dsimp only
    refine Frame.comp ?_ (Frame.foldS _ _ _ fun _ _ => ?_)
    · refine Frame.under (modCtx_only _ _ _ _) (by simp) ?_
      refine Frame.under (contextImage_only _ _ _) (by simp) ?_
      exact Frame.refl _ _
    · refine Frame.under (modTap_only _ _ _ _) (by simp) ?_
      exact Frame.refl _ _

/-- What `configLane` can change. -/
theorem configLane_only (l : Lane) (s : State) : Frame [.events, .board, .laneA, .laneB] s (configLane l s) := by
  unfold configLane
  dsimp only
  refine Frame.under (configGf_only _ _) (by simp) ?_
  refine Frame.comp ?_ (Frame.foldS _ _ _ fun _ _ => ?_)
  · refine Frame.comp ?_ (Frame.foldS _ _ _ fun _ _ => ?_)
    · refine Frame.comp ?_ (Frame.foldS _ _ _ fun _ _ => ?_)
      · exact Frame.refl _ _
      · refine Frame.under (modPin_only _ _ _ _) (by repeat' first | exact sub_nil _ | (refine lanePart_mem _ ?_ ?_ <;> (simp; done)) | (refine sramPart_mem _ ?_ ?_ <;> (simp; done)) | refine sub_cons ?_ ?_ | (simp; done)) ?_
        exact Frame.refl _ _
    · refine Frame.under (configCtx_only _ _ _) (by repeat' first | exact sub_nil _ | (refine lanePart_mem _ ?_ ?_ <;> (simp; done)) | (refine sramPart_mem _ ?_ ?_ <;> (simp; done)) | refine sub_cons ?_ ?_ | (simp; done)) ?_
      exact Frame.refl _ _
  · refine Frame.under (configGen_only _ _ _) (by repeat' first | exact sub_nil _ | (refine lanePart_mem _ ?_ ?_ <;> (simp; done)) | (refine sramPart_mem _ ?_ ?_ <;> (simp; done)) | refine sub_cons ?_ ?_ | (simp; done)) ?_
    exact Frame.refl _ _

/-- What `configClaims` can change. -/
theorem configClaims_only (a b : Bool) (s : State) : Frame [.claim] s (configClaims a b s) := by
  unfold configClaims
  dsimp only
  refine Frame.under (modClaim_only _ _) (by simp) ?_
  exact Frame.refl _ _

/-- What `configure` can change. -/
theorem configure_only (failed : List StartUnit) (s : State) : Frame [.free, .events, .board, .power, .clock, .mode, .mesh, .laneA, .laneB, .gate, .claim, .net, .timebase, .can, .wear] s (configure failed s) := by
  unfold configure
  dsimp only
  refine Frame.comp ?_ (Frame.foldS _ _ _ fun _ _ => ?_)
  · refine Frame.under (netStart_only _) (by simp) ?_
    refine Frame.under (timeStart_only _) (by simp) ?_
    refine Frame.under (restoreRepairs_only _) (by simp) ?_
    refine Frame.comp ?_ (Frame.when ?_)
    · refine Frame.comp ?_ (Frame.when ?_)
      · refine Frame.under (configGate_only _) (by simp) ?_
        refine Frame.under (configClaims_only _ _ _) (by simp) ?_
        refine Frame.under (configMesh_only _) (by simp) ?_
        refine Frame.under (configPower_only _) (by simp) ?_
        refine Frame.under (configClock_only _) (by simp) ?_
        refine Frame.under (wearStart_only _) (by simp) ?_
        exact Frame.refl _ _
      · refine Frame.under (configLane_only _ _) (by simp) ?_
        exact Frame.refl _ _
    · refine Frame.under (configLane_only _ _) (by simp) ?_
      exact Frame.refl _ _
  · refine Frame.under (canStart_only _ _ _) (by simp) ?_
    exact Frame.refl _ _

/-- What `failConverter` can change. -/
theorem failConverter_only (l : Lane) (pin : Fin 32) (s : State) : Frame [.events, .board, .laneA, .laneB, .wear] s (failConverter l pin s) := by
  unfold failConverter
  split
  · exact Frame.refl _ _
  · split
    · dsimp only
      refine Frame.under (raise_only _ _ _) (by simp) ?_
      refine Frame.under (hingeSwap_only _ _ _ _ _ _ _) (by simp) ?_
      refine Frame.under (modMeas_only _ _ _) (by repeat' first | exact sub_nil _ | (refine lanePart_mem _ ?_ ?_ <;> (simp; done)) | (refine sramPart_mem _ ?_ ?_ <;> (simp; done)) | refine sub_cons ?_ ?_ | (simp; done)) ?_
      exact Frame.refl _ _
    · dsimp only
      refine Frame.under (modPins_only _ _ _) (by simp) ?_
      refine Frame.under (modPin_only _ _ _ _) (by repeat' first | exact sub_nil _ | (refine lanePart_mem _ ?_ ?_ <;> (simp; done)) | (refine sramPart_mem _ ?_ ?_ <;> (simp; done)) | refine sub_cons ?_ ?_ | (simp; done)) ?_
      refine Frame.under (raise_only _ _ _) (by simp) ?_
      refine Frame.under (noSpare_only _ _ _ _ _ _) (by simp) ?_
      exact Frame.refl _ _

/-- What `failLane` can change. -/
theorem failLane_only (l : Lane) (cause : Byte) (s : State) : Frame [.events, .board, .claim] s (failLane l cause s) := by
  unfold failLane
  split
  · exact Frame.refl _ _
  · refine Frame.under (raise_only _ _ _) (by simp) ?_
    refine Frame.under (modLc_only _ _ _) (by simp) ?_
    exact Frame.refl _ _

/-- What `failChannel` can change. -/
theorem failChannel_only (c : Fin 32) (s : State) : Frame [.events, .board, .mode, .laneA, .laneB, .gate, .claim] s (failChannel c s) := by
  unfold failChannel
  split
  · refine Frame.under (raise_only _ _ _) (by simp) ?_
    refine Frame.under (setChState_only _ _ _) (by simp) ?_
    refine Frame.under (modCh_only _ _ _) (by simp) ?_
    refine Frame.under (raise_only _ _ _) (by simp) ?_
    exact Frame.refl _ _
  · exact Frame.refl _ _

/-- What `failPrimary` can change. -/
theorem failPrimary_only (c : Fin 32) (s : State) : Frame [.events, .board, .mode, .laneA, .laneB, .gate, .claim, .wear] s (failPrimary c s) := by
  unfold failPrimary
  split
  · exact Frame.refl _ _
  · dsimp only
    split
    · refine Frame.under (raise_only _ _ _) (by simp) ?_
      exact Frame.refl _ _
    · refine Frame.under (switchStage_only _ _ _ _) (by simp) ?_
      refine Frame.under (raise_only _ _ _) (by simp) ?_
      exact Frame.refl _ _

/-- What `failSerial` can change. -/
theorem failSerial_only (toB : Bool) (k : Fin 5) (s : State) : Frame [.events, .board, .claim, .wear] s (failSerial toB k s) := by
  unfold failSerial
  split
  · exact Frame.refl _ _
  · refine Frame.under (tsuinSwap_only _ _ _ _ _) (by simp) ?_
    exact Frame.refl _ _

/-- What `failCoupler` can change. -/
theorem failCoupler_only (k : Fin 5) (s : State) : Frame [.events, .board, .fio, .wear] s (failCoupler k s) := by
  unfold failCoupler
  split
  · exact Frame.refl _ _
  · split
    · refine Frame.under (modFio_only _ _) (by simp) ?_
      exact Frame.refl _ _
    · split
      · refine Frame.under (modFio_only _ _) (by simp) ?_
        refine Frame.under (noSpare_only _ _ _ _ _ _) (by simp) ?_
        exact Frame.refl _ _
      · refine Frame.under (hingeSwap_only _ _ _ _ _ _ _) (by simp) ?_
        refine Frame.under (modFio_only _ _) (by simp) ?_
        exact Frame.refl _ _

/-- What `failUnit` can change. -/
theorem failUnit_only (u : StartUnit) (s : State) : Frame [.events, .board, .clock, .mode, .laneA, .laneB, .gate, .claim, .net, .fio, .wear] s (failUnit u s) := by
  unfold failUnit
  split
  · refine Frame.under (losePll_only _ _) (by simp) ?_
    exact Frame.refl _ _
  · refine Frame.under (failLane_only _ _ _) (by simp) ?_
    exact Frame.refl _ _
  · refine Frame.under (failPrimary_only _ _) (by simp) ?_
    exact Frame.refl _ _
  · refine Frame.under (failChannel_only _ _) (by simp) ?_
    exact Frame.refl _ _
  · refine Frame.under (failChannel_only _ _) (by simp) ?_
    exact Frame.refl _ _
  · refine Frame.under (failConverter_only _ _ _) (by simp) ?_
    exact Frame.refl _ _
  · refine Frame.under (failSerial_only _ _ _) (by simp) ?_
    exact Frame.refl _ _
  · refine Frame.under (modFio_only _ _) (by simp) ?_
    exact Frame.refl _ _
  · refine Frame.under (failCoupler_only _ _) (by simp) ?_
    exact Frame.refl _ _
  · refine Frame.under (modRaCtx_only _ _ _ _) (by repeat' first | exact sub_nil _ | (refine lanePart_mem _ ?_ ?_ <;> (simp; done)) | (refine sramPart_mem _ ?_ ?_ <;> (simp; done)) | refine sub_cons ?_ ?_ | (simp; done)) ?_
    refine Frame.under (modCtx_only _ _ _ _) (by repeat' first | exact sub_nil _ | (refine lanePart_mem _ ?_ ?_ <;> (simp; done)) | (refine sramPart_mem _ ?_ ?_ <;> (simp; done)) | refine sub_cons ?_ ?_ | (simp; done)) ?_
    exact Frame.refl _ _
  · refine Frame.under (modGen_only _ _ _ _) (by repeat' first | exact sub_nil _ | (refine lanePart_mem _ ?_ ?_ <;> (simp; done)) | (refine sramPart_mem _ ?_ ?_ <;> (simp; done)) | refine sub_cons ?_ ?_ | (simp; done)) ?_
    exact Frame.refl _ _
  · refine Frame.under (modGf_only _ _ _) (by repeat' first | exact sub_nil _ | (refine lanePart_mem _ ?_ ?_ <;> (simp; done)) | (refine sramPart_mem _ ?_ ?_ <;> (simp; done)) | refine sub_cons ?_ ?_ | (simp; done)) ?_
    exact Frame.refl _ _
  · refine Frame.under (modNet_only _ _) (by simp) ?_
    exact Frame.refl _ _
  · exact Frame.refl _ _
  · exact Frame.refl _ _
  · exact Frame.refl _ _
  · exact Frame.refl _ _
  · exact Frame.refl _ _
  · exact Frame.refl _ _

/-- What `startTicks` can change. -/
theorem startTicks_only (s : State) : Frame [.time] s (startTicks s) := by
  unfold startTicks
  refine Frame.under (ticks_set _ _) (by simp) ?_
  exact Frame.refl _ _

/-- What `startElapse` can change. -/
theorem startElapse_only (s : State) : Frame [.time, .free] s (startElapse s) := by
  unfold startElapse
  split
  refine Frame.under (elapseTo_only _ _) (by simp) ?_
  refine Frame.under (Frame.snd (by assumption) (takeFree_only _)) (by simp) ?_
  exact Frame.refl _ _

/-- What `enterFirst` can change. -/
theorem enterFirst_only (bad : Bool) (s : State) : Frame [.events, .board, .mode, .key, .gate, .plk] s (enterFirst bad s) := by
  unfold enterFirst
  dsimp only
  split
  · refine Frame.under (actDemand_only _ _ _) (by simp) ?_
    refine Frame.under (startMode_only _ _ _) (by simp) ?_
    refine Frame.under (raise_only _ _ _) (by simp) ?_
    refine Frame.under (modMode_only _ _) (by simp) ?_
    exact Frame.refl _ _
  · refine Frame.under (startMode_only _ _ _) (by simp) ?_
    refine Frame.under (raise_only _ _ _) (by simp) ?_
    refine Frame.under (modMode_only _ _) (by simp) ?_
    exact Frame.refl _ _

/-- What `startDone` can change. -/
theorem startDone_only (failed : List StartUnit) (s0 : State) : Frame [.time, .free, .events, .board, .power, .clock, .mode, .key, .mesh, .laneA, .laneB, .gate, .claim, .net, .timebase, .can, .fio, .plk, .wear] s0 (startDone failed s0) := by
  unfold startDone
  split
  · exact Frame.refl _ _
  · dsimp only
    refine Frame.under (judgeReduced_only _) (by simp) ?_
    refine Frame.under (refreshFn_only _) (by simp) ?_
    refine Frame.under (raiseIslands_only _) (by simp) ?_
    refine Frame.comp ?_ (Frame.foldS _ _ _ fun _ _ => ?_)
    · refine Frame.under (applyBlocks_only _) (by simp) ?_
      refine Frame.comp ?_ (Frame.foldS _ _ _ fun _ _ => ?_)
      · refine Frame.under (modMesh_only _ _) (by simp) ?_
        refine Frame.under (enterFirst_only _ _) (by simp) ?_
        refine Frame.comp ?_ (Frame.foldS _ _ _ fun _ _ => ?_)
        · refine Frame.under (plkStart_only _ _ _) (by simp) ?_
          refine Frame.under (configure_only _ _) (by simp) ?_
          refine Frame.under (startTicks_only _) (by simp) ?_
          refine Frame.under (startElapse_only _) (by simp) ?_
          exact Frame.refl _ _
        · refine Frame.under (failUnit_only _ _) (by simp) ?_
          exact Frame.refl _ _
      · refine Frame.under (scheduleFirst_only _ _) (by simp) ?_
        exact Frame.refl _ _
    · refine Frame.under (recArm_only _ _) (by repeat' first | exact sub_nil _ | (refine lanePart_mem _ ?_ ?_ <;> (simp; done)) | (refine sramPart_mem _ ?_ ?_ <;> (simp; done)) | refine sub_cons ?_ ?_ | (simp; done)) ?_
      exact Frame.refl _ _

/-- What `execStartDone` can change. -/
theorem execStartDone_only (failed : List StartUnit) (s : State) : FrameOut [.time, .free, .events, .board, .power, .clock, .mode, .key, .mesh, .laneA, .laneB, .gate, .claim, .net, .timebase, .can, .fio, .plk, .wear] s (execStartDone failed s) := by
  unfold execStartDone
  refine FrameOut.next ?_
  refine Frame.under (startDone_only _ _) (by simp) ?_
  exact Frame.refl _ _

end Sys2Proof.Machine
end

