-- ==== Sys2Proof/Laws/FramesHost.lean ====
section
/-! SUPPORT. What each operation of register accesses, the host ports and the operations can change: one frame lemma per operation and command, read off its definition. -/

set_option linter.unusedTactic false
set_option linter.unreachableTactic false

namespace Sys2Proof.Machine

/-- What `modMbox` can change. -/
theorem modMbox_only (k : Fin 16) (f : Mailbox → Mailbox) (s : State) : Frame [.board, .host] s (modMbox k f s) := by
  unfold modMbox
  refine Frame.under (modHost_only _ _) (by simp) ?_
  exact Frame.refl _ _

/-- What `postResult` can change. -/
theorem postResult_only (k : Fin 16) (op status : Nat) (r0 r1 : Word) (s : State) : Frame [.events, .board, .host] s (postResult k op status r0 r1 s) := by
  unfold postResult
  dsimp only
  refine Frame.under (raise_only _ _ _) (by simp) ?_
  refine Frame.under (modMbox_only _ _ _) (by simp) ?_
  refine Frame.under (modHost_only _ _) (by simp) ?_
  exact Frame.refl _ _

/-- What `markRead` can change. -/
theorem markRead_only (k : Fin 16) (s : State) : Frame [.board, .host] s (markRead k s) := by
  unfold markRead
  refine Frame.under (modMbox_only _ _ _) (by simp) ?_
  exact Frame.refl _ _

/-- What `mbstatRead` can change. -/
theorem mbstatRead_only (s : State) : Frame [.board, .host] s (mbstatRead s).2 := by
  unfold mbstatRead
  dsimp only
  refine Frame.under (markRead_only _ _) (by simp) ?_
  refine Frame.under (modHost_only _ _) (by simp) ?_
  exact Frame.refl _ _

/-- What `execMbstatRead` can change. -/
theorem execMbstatRead_only (s : State) : FrameOut [.board, .host] s (execMbstatRead s) := by
  unfold execMbstatRead
  refine FrameOut.next ?_
  refine Frame.under (mbstatRead_only _) (by simp) ?_
  exact Frame.refl _ _

/-- What `boltResult` can change. -/
theorem boltResult_only (target : Byte) (status : Nat) (s : State) : Frame [.board, .host] s (boltResult target status s) := by
  unfold boltResult
  refine Frame.under (modHost_only _ _) (by simp) ?_
  exact Frame.refl _ _

/-- What `decideBolt` can change. -/
theorem decideBolt_only (b : PendingBolt) (s : State) : Frame [.events, .board, .host] s (decideBolt b s) := by
  unfold decideBolt
  split
  · refine Frame.under (modHost_only _ _) (by simp) ?_
    exact Frame.refl _ _
  · refine Frame.under (raise_only _ _ _) (by simp) ?_
    refine Frame.under (boltResult_only _ _ _) (by simp) ?_
    exact Frame.refl _ _
  · refine Frame.under (boltResult_only _ _ _) (by simp) ?_
    exact Frame.refl _ _
  · exact Frame.refl _ _

/-- What `boltWrite` can change. -/
theorem boltWrite_only (v : Word) (s : State) : Frame [.events, .board, .host] s (boltWrite v s) := by
  unfold boltWrite
  split
  · refine Frame.under (decideBolt_only _ _) (by simp) ?_
    exact Frame.refl _ _
  · exact Frame.refl _ _

theorem Frame.nextOf {rs : List Part} {s u : State} {o : Out} (k : Frame rs s u) (h : FrameOut rs u o) : Frame rs s (nextOf o u) := by
  unfold Sys2Proof.Machine.nextOf
  cases o with
  | next t => exact k.comp (h t rfl)
  | fault _ => exact k
  | refused _ => exact k

/-- What `writeMode` can change. -/
theorem writeMode_only (off : Nat) (v : Word) (s : State) : Frame [.events, .board, .mode, .laneA, .laneB, .gate, .claim] s (writeMode off v s) := by
  unfold writeMode
  split
  · refine Frame.under (requestMode_only _ _ _) (by simp) ?_
    exact Frame.refl _ _
  · refine Frame.under (clearEvents_only _ _ _) (by simp) ?_
    exact Frame.refl _ _
  · exact Frame.refl _ _

/-- What `writePnt` can change. -/
theorem writePnt_only (off : Nat) (v : Word) (s : State) : Frame [.board, .host] s (writePnt off v s) := by
  unfold writePnt
  split
  · refine Frame.under (modHost_only _ _) (by simp) ?_
    exact Frame.refl _ _
  · split
    · refine Frame.under (modHost_only _ _) (by simp) ?_
      exact Frame.refl _ _
    · split
      · refine Frame.under (modHost_only _ _) (by simp) ?_
        exact Frame.refl _ _
      · split
        · refine Frame.under (modHost_only _ _) (by simp) ?_
          exact Frame.refl _ _
        · exact Frame.refl _ _

/-- What `writePwr` can change. -/
theorem writePwr_only (off : Nat) (v : Word) (s : State) : Frame [.events, .board, .power, .mode, .laneA, .laneB, .gate, .claim] s (writePwr off v s) := by
  unfold writePwr
  split
  · dsimp only
    split
    · refine Frame.nextOf ?_ ?_
      · refine Frame.under (clearEvents_only _ _ _) (by simp) ?_
        exact Frame.refl _ _
      · refine FrameOut.under (execGpCutRearm_only _) (by simp) ?_
        exact Frame.refl _ _
    · refine Frame.under (clearEvents_only _ _ _) (by simp) ?_
      exact Frame.refl _ _
  · refine Frame.nextOf ?_ ?_
    · exact Frame.refl _ _
    · refine FrameOut.under (execGpCtlWrite_only _ _) (by simp) ?_
      exact Frame.refl _ _
  · refine Frame.nextOf ?_ ?_
    · exact Frame.refl _ _
    · refine FrameOut.under (execGpFaultClear_only _ _) (by simp) ?_
      exact Frame.refl _ _
  · split
    · refine Frame.under (modPower_only _ _) (by simp) ?_
      exact Frame.refl _ _
    · exact Frame.refl _ _
  · exact Frame.refl _ _

/-- What `setCko` can change. -/
theorem setCko_only (n : Fin 4) (v : Word) (s : State) : Frame [.clock] s (setCko n v s) := by
  unfold setCko
  refine Frame.under (modClock_only _ _) (by simp) ?_
  exact Frame.refl _ _

/-- What `writeClk` can change. -/
theorem writeClk_only (off : Nat) (v : Word) (s : State) : Frame [.events, .board, .clock, .wear] s (writeClk off v s) := by
  unfold writeClk
  split
  · refine Frame.under (clearEvents_only _ _ _) (by simp) ?_
    exact Frame.refl _ _
  · dsimp only
    split
    · refine Frame.nextOf ?_ ?_
      · refine Frame.nextOf ?_ ?_
        · exact Frame.refl _ _
        · refine FrameOut.under (execSpareIdleTgtWrite_only _ _) (by simp) ?_
          exact Frame.refl _ _
      · refine FrameOut.under (execSpareRelease_only _) (by simp) ?_
        exact Frame.refl _ _
    · refine Frame.nextOf ?_ ?_
      · exact Frame.refl _ _
      · refine FrameOut.under (execSpareIdleTgtWrite_only _ _) (by simp) ?_
        exact Frame.refl _ _
  · split
    · refine Frame.under (modClock_only _ _) (by simp) ?_
      exact Frame.refl _ _
    · exact Frame.refl _ _
  · refine Frame.under (setCko_only _ _ _) (by simp) ?_
    exact Frame.refl _ _
  · refine Frame.under (setCko_only _ _ _) (by simp) ?_
    exact Frame.refl _ _
  · refine Frame.under (setCko_only _ _ _) (by simp) ?_
    exact Frame.refl _ _
  · refine Frame.under (setCko_only _ _ _) (by simp) ?_
    exact Frame.refl _ _
  · exact Frame.refl _ _

/-- What `keyCmd` can change. -/
theorem keyCmd_only (m : Master) (v : Word) (s : State) : Frame [.events, .board, .key, .mesh] s (keyCmd m v s) := by
  unfold keyCmd
  dsimp only
  split
  · refine Frame.under (openCmd_only _ _ _ _) (by simp) ?_
    exact Frame.refl _ _
  · refine Frame.nextOf ?_ ?_
    · exact Frame.refl _ _
    · refine FrameOut.under (execKeyClose_only _ _ _ _) (by simp) ?_
      exact Frame.refl _ _
  · refine Frame.nextOf ?_ ?_
    · exact Frame.refl _ _
    · refine FrameOut.under (execKeyErase_only _ _ _ _) (by simp) ?_
      exact Frame.refl _ _
  · refine Frame.nextOf ?_ ?_
    · exact Frame.refl _ _
    · refine FrameOut.under (execKeyProgram_only _ _ _ _) (by simp) ?_
      exact Frame.refl _ _
  · refine Frame.nextOf ?_ ?_
    · exact Frame.refl _ _
    · refine FrameOut.under (execKeyVerify_only _ _ _ _) (by simp) ?_
      exact Frame.refl _ _
  · refine Frame.nextOf ?_ ?_
    · exact Frame.refl _ _
    · refine FrameOut.under (execKeyCommit_only _ _ _ _) (by simp) ?_
      exact Frame.refl _ _
  · refine Frame.nextOf ?_ ?_
    · exact Frame.refl _ _
    · refine FrameOut.under (execKeySafeauth_only _ _ _ _) (by simp) ?_
      exact Frame.refl _ _
  · refine Frame.nextOf ?_ ?_
    · exact Frame.refl _ _
    · refine FrameOut.under (execKeyAdvance_only _ _ _ _) (by simp) ?_
      exact Frame.refl _ _
  · refine Frame.nextOf ?_ ?_
    · exact Frame.refl _ _
    · refine FrameOut.under (execKeyProgslot_only _ _ _ _) (by simp) ?_
      exact Frame.refl _ _
  · refine Frame.nextOf ?_ ?_
    · exact Frame.refl _ _
    · refine FrameOut.under (execKeyRevoke_only _ _ _ _) (by simp) ?_
      exact Frame.refl _ _
  · refine Frame.nextOf ?_ ?_
    · exact Frame.refl _ _
    · refine FrameOut.under (execKeyCmdUnlisted_only _ _ _ _ _) (by simp) ?_
      exact Frame.refl _ _

/-- What `writeKey` can change. -/
theorem writeKey_only (m : Master) (off : Nat) (v : Word) (s : State) : Frame [.events, .board, .key, .mesh] s (writeKey m off v s) := by
  unfold writeKey
  split
  · refine Frame.under (keyBufWord_only _ _ _ _) (by simp) ?_
    exact Frame.refl _ _
  · split
    · refine Frame.under (clearEvents_only _ _ _) (by simp) ?_
      exact Frame.refl _ _
    · refine Frame.under (keyCmd_only _ _ _) (by simp) ?_
      exact Frame.refl _ _
    · refine Frame.under (modKey_only _ _) (by simp) ?_
      exact Frame.refl _ _
    · exact Frame.refl _ _

/-- What `setShadow` can change. -/
theorem setShadow_only (v : Word) (s : State) : Frame [.mesh] s (setShadow v s) := by
  unfold setShadow
  refine Frame.under (modMesh_only _ _) (by simp) ?_
  exact Frame.refl _ _

/-- What `writeMesh` can change. -/
theorem writeMesh_only (m : Master) (off : Nat) (v : Word) (s : State) : Frame [.events, .board, .key, .mesh] s (writeMesh m off v s) := by
  unfold writeMesh
  split
  · split
    · refine Frame.under (releaseLock_only _ _ _) (by simp) ?_
      exact Frame.refl _ _
    · exact Frame.refl _ _
  · split
    · refine Frame.under (clearEvents_only _ _ _) (by simp) ?_
      exact Frame.refl _ _
    · refine Frame.under (swapSlots_only _ _ _) (by simp) ?_
      exact Frame.refl _ _
    · refine Frame.under (modMesh_only _ _) (by simp) ?_
      exact Frame.refl _ _
    · unfold rwkWrite
      dsimp only
      split
      · refine Frame.under (setShadow_only _ _) (by simp) ?_
        refine Frame.comp ?_ (Frame.when ?_)
        · exact Frame.refl _ _
        · refine Frame.under (touchSession_only _) (by simp) ?_
          exact Frame.refl _ _
      · refine Frame.under (rwkDiscard_only _ _) (by simp) ?_
        refine Frame.comp ?_ (Frame.when ?_)
        · exact Frame.refl _ _
        · refine Frame.under (touchSession_only _) (by simp) ?_
          exact Frame.refl _ _
    · split
      · refine Frame.under (modMesh_only _ _) (by simp) ?_
        exact Frame.refl _ _
      · exact Frame.refl _ _
    · split
      · refine Frame.nextOf ?_ ?_
        · exact Frame.refl _ _
        · refine FrameOut.under (execMeshCntclr_only _) (by simp) ?_
          exact Frame.refl _ _
      · exact Frame.refl _ _
    · exact Frame.refl _ _

/-- What `writeAcc` can change. -/
theorem writeAcc_only (off : Nat) (v : Word) (s : State) : Frame [.events, .mesh] s (writeAcc off v s) := by
  unfold writeAcc
  split
  · refine Frame.under (clearEvents_only _ _ _) (by simp) ?_
    exact Frame.refl _ _
  · split
    · refine Frame.under (modMesh_only _ _) (by simp) ?_
      exact Frame.refl _ _
    · exact Frame.refl _ _
  · exact Frame.refl _ _

/-- What `gchClearWrite` can change. -/
theorem gchClearWrite_only (s : State) : Frame [.free, .events, .board, .mode, .laneA, .laneB, .gate, .claim, .wear] s (gchClearWrite s) := by
  unfold gchClearWrite
  split
  refine Frame.nextOf ?_ ?_
  · refine Frame.under (Frame.snd (by assumption) (takeFree_only _)) (by simp) ?_
    exact Frame.refl _ _
  · refine FrameOut.under (execGchClear_only _ _ _) (by simp) ?_
    exact Frame.refl _ _

/-- What `writeGch` can change. -/
theorem writeGch_only (off : Nat) (v : Word) (s : State) : Frame [.free, .events, .board, .mode, .laneA, .laneB, .gate, .claim, .wear] s (writeGch off v s) := by
  unfold writeGch
  split
  · refine Frame.under (clearEvents_only _ _ _) (by simp) ?_
    exact Frame.refl _ _
  · refine Frame.under (modGate_only _ _) (by simp) ?_
    exact Frame.refl _ _
  · dsimp only
    split
    · refine Frame.nextOf ?_ ?_
      · split
        · refine Frame.under (gchClearWrite_only _) (by simp) ?_
          exact Frame.refl _ _
        · exact Frame.refl _ _
      · refine FrameOut.under (execGchSelftest_only _) (by simp) ?_
        exact Frame.refl _ _
    · split
      · refine Frame.under (gchClearWrite_only _) (by simp) ?_
        exact Frame.refl _ _
      · exact Frame.refl _ _
  · exact Frame.refl _ _

/-- What `clmCmd` can change. -/
theorem clmCmd_only (v : Word) (s : State) : Frame [.events, .board, .claim] s (clmCmd v s) := by
  unfold clmCmd
  dsimp only
  split
  · refine Frame.under (raise_only _ _ _) (by simp) ?_
    exact Frame.refl _ _
  · split
    · refine Frame.under (recoverCmd_only _ _ _) (by simp) ?_
      split
      · refine Frame.under (recoverCmd_only _ _ _) (by simp) ?_
        split
        · refine Frame.under (offlineCmd_only _ _ _) (by simp) ?_
          split
          · refine Frame.under (offlineCmd_only _ _ _) (by simp) ?_
            exact Frame.refl _ _
          · exact Frame.refl _ _
        · split
          · refine Frame.under (offlineCmd_only _ _ _) (by simp) ?_
            exact Frame.refl _ _
          · exact Frame.refl _ _
      · split
        · refine Frame.under (offlineCmd_only _ _ _) (by simp) ?_
          split
          · refine Frame.under (offlineCmd_only _ _ _) (by simp) ?_
            exact Frame.refl _ _
          · exact Frame.refl _ _
        · split
          · refine Frame.under (offlineCmd_only _ _ _) (by simp) ?_
            exact Frame.refl _ _
          · exact Frame.refl _ _
    · split
      · refine Frame.under (recoverCmd_only _ _ _) (by simp) ?_
        split
        · refine Frame.under (offlineCmd_only _ _ _) (by simp) ?_
          split
          · refine Frame.under (offlineCmd_only _ _ _) (by simp) ?_
            exact Frame.refl _ _
          · exact Frame.refl _ _
        · split
          · refine Frame.under (offlineCmd_only _ _ _) (by simp) ?_
            exact Frame.refl _ _
          · exact Frame.refl _ _
      · split
        · refine Frame.under (offlineCmd_only _ _ _) (by simp) ?_
          split
          · refine Frame.under (offlineCmd_only _ _ _) (by simp) ?_
            exact Frame.refl _ _
          · exact Frame.refl _ _
        · split
          · refine Frame.under (offlineCmd_only _ _ _) (by simp) ?_
            exact Frame.refl _ _
          · exact Frame.refl _ _

/-- What `writeClm` can change. -/
theorem writeClm_only (m : Master) (off : Nat) (v : Word) (s : State) : Frame [.events, .board, .key, .claim] s (writeClm m off v s) := by
  unfold writeClm
  split
  · refine Frame.under (clearEvents_only _ _ _) (by simp) ?_
    exact Frame.refl _ _
  · unfold rwkWrite
    dsimp only
    split
    · refine Frame.under (setClmCtl_only _ _) (by simp) ?_
      refine Frame.comp ?_ (Frame.when ?_)
      · exact Frame.refl _ _
      · refine Frame.under (touchSession_only _) (by simp) ?_
        exact Frame.refl _ _
    · refine Frame.under (rwkDiscard_only _ _) (by simp) ?_
      refine Frame.comp ?_ (Frame.when ?_)
      · exact Frame.refl _ _
      · refine Frame.under (touchSession_only _) (by simp) ?_
        exact Frame.refl _ _
  · refine Frame.under (clmCmd_only _ _) (by simp) ?_
    exact Frame.refl _ _
  · exact Frame.refl _ _

/-- What `setPpsSec` can change. -/
theorem setPpsSec_only (v : Word) (s : State) : Frame [.timebase] s (setPpsSec v s) := by
  unfold setPpsSec
  refine Frame.under (modTime_only _ _) (by simp) ?_
  exact Frame.refl _ _

/-- What `writeNet` can change. -/
theorem writeNet_only (m : Master) (off : Nat) (v : Word) (s : State) : Frame [.events, .board, .key, .laneA, .laneB, .net, .timebase] s (writeNet m off v s) := by
  unfold writeNet
  split
  · refine Frame.under (clearEvents_only _ _ _) (by simp) ?_
    exact Frame.refl _ _
  · split
    · refine Frame.under (modNet_only _ _) (by simp) ?_
      exact Frame.refl _ _
    · exact Frame.refl _ _
  · refine Frame.under (clearEvents_only _ _ _) (by simp) ?_
    exact Frame.refl _ _
  · unfold rwkWrite
    dsimp only
    split
    · refine Frame.under (setTimeCtl_only _ _) (by simp) ?_
      refine Frame.comp ?_ (Frame.when ?_)
      · exact Frame.refl _ _
      · refine Frame.under (touchSession_only _) (by simp) ?_
        exact Frame.refl _ _
    · refine Frame.under (rwkDiscard_only _ _) (by simp) ?_
      refine Frame.comp ?_ (Frame.when ?_)
      · exact Frame.refl _ _
      · refine Frame.under (touchSession_only _) (by simp) ?_
        exact Frame.refl _ _
  · unfold rwkWrite
    dsimp only
    split
    · refine Frame.under (setPpsSec_only _ _) (by simp) ?_
      refine Frame.comp ?_ (Frame.when ?_)
      · exact Frame.refl _ _
      · refine Frame.under (touchSession_only _) (by simp) ?_
        exact Frame.refl _ _
    · refine Frame.under (rwkDiscard_only _ _) (by simp) ?_
      refine Frame.comp ?_ (Frame.when ?_)
      · exact Frame.refl _ _
      · refine Frame.under (touchSession_only _) (by simp) ?_
        exact Frame.refl _ _
  · refine Frame.under (modTime_only _ _) (by simp) ?_
    exact Frame.refl _ _
  · refine Frame.under (modTime_only _ _) (by simp) ?_
    exact Frame.refl _ _
  · refine Frame.under (cvStart_only _ _) (by simp) ?_
    exact Frame.refl _ _
  · exact Frame.refl _ _

/-- What `writeCan` can change. -/
theorem writeCan_only (p : Fin 2) (off : Nat) (v : Word) (s : State) : Frame [.events, .board, .can] s (writeCan p off v s) := by
  unfold writeCan
  split
  · dsimp only
    split
    · refine Frame.under (canTxbufWrite_only _ _ _ _ _) (by simp) ?_
      exact Frame.refl _ _
    · exact Frame.refl _ _
  · split
    · refine Frame.under (clearEvents_only _ _ _) (by simp) ?_
      exact Frame.refl _ _
    · refine Frame.under (canCtl_only _ _ _) (by simp) ?_
      exact Frame.refl _ _
    · split
      · refine Frame.nextOf ?_ ?_
        · exact Frame.refl _ _
        · refine FrameOut.under (execCanRxpop_only _ _) (by simp) ?_
          exact Frame.refl _ _
      · exact Frame.refl _ _
    · refine Frame.under (canTxreq_only _ _ _) (by simp) ?_
      exact Frame.refl _ _
    · refine Frame.under (canTxabort_only _ _ _) (by simp) ?_
      exact Frame.refl _ _
    · exact Frame.refl _ _

/-- What `writeFio` can change. -/
theorem writeFio_only (off : Nat) (v : Word) (s : State) : Frame [.events, .board, .fio] s (writeFio off v s) := by
  unfold writeFio
  split
  · refine Frame.under (clearEvents_only _ _ _) (by simp) ?_
    exact Frame.refl _ _
  · refine Frame.under (fioDqset_only _ _) (by simp) ?_
    exact Frame.refl _ _
  · refine Frame.under (modFio_only _ _) (by simp) ?_
    exact Frame.refl _ _
  · exact Frame.refl _ _

/-- What `writePlk` can change. -/
theorem writePlk_only (off : Nat) (v : Word) (s : State) : Frame [.events, .board, .mode, .gate, .plk] s (writePlk off v s) := by
  unfold writePlk
  split
  · refine Frame.under (clearEvents_only _ _ _) (by simp) ?_
    exact Frame.refl _ _
  · dsimp only
    split
    · refine Frame.under (plkReset_only _ _) (by simp) ?_
      split
      · refine Frame.under (plkDemand_only _ _) (by simp) ?_
        exact Frame.refl _ _
      · exact Frame.refl _ _
    · split
      · refine Frame.under (plkDemand_only _ _) (by simp) ?_
        exact Frame.refl _ _
      · exact Frame.refl _ _
  · refine Frame.under (modPlk_only _ _) (by simp) ?_
    exact Frame.refl _ _
  · refine Frame.under (modPlk_only _ _) (by simp) ?_
    exact Frame.refl _ _
  · exact Frame.refl _ _

/-- What `writeHcp` can change. -/
theorem writeHcp_only (off : Nat) (v : Word) (s : State) : Frame [.events, .board, .host] s (writeHcp off v s) := by
  unfold writeHcp
  split
  · refine Frame.under (clearEvents_only _ _ _) (by simp) ?_
    exact Frame.refl _ _
  · refine Frame.under (boltWrite_only _ _) (by simp) ?_
    exact Frame.refl _ _
  · refine Frame.under (modHost_only _ _) (by simp) ?_
    exact Frame.refl _ _
  · exact Frame.refl _ _

/-- What `writeWear` can change. -/
theorem writeWear_only (off : Nat) (v : Word) (s : State) : Frame [.events, .wear] s (writeWear off v s) := by
  unfold writeWear
  split
  · refine Frame.under (clearEvents_only _ _ _) (by simp) ?_
    exact Frame.refl _ _
  · split
    · refine Frame.under (modWear_only _ _) (by simp) ?_
      exact Frame.refl _ _
    · exact Frame.refl _ _
  · refine Frame.under (modWear_only _ _) (by simp) ?_
    exact Frame.refl _ _
  · exact Frame.refl _ _

/-- What `setPin` can change. -/
theorem setPin_only (l : Lane) (f : PinState → PinState) (s : State) : Frame [lanePart l] s (setPin l f s) := by
  unfold setPin
  refine Frame.under (modPin_only _ _ _ _) (by simp) ?_
  exact Frame.refl _ _

/-- What `writeMeas` can change. -/
theorem writeMeas_only (m : Master) (l : Lane) (off : Nat) (v : Word) (s : State) : Frame [.events, .board, .key, .laneA, .laneB] s (writeMeas m l off v s) := by
  unfold writeMeas
  dsimp only
  split
  · refine Frame.under (clearEvents_only _ _ _) (by simp) ?_
    exact Frame.refl _ _
  · refine Frame.under (modMeas_only _ _ _) (by repeat' first | exact sub_nil _ | (refine lanePart_mem _ ?_ ?_ <;> (simp; done)) | (refine sramPart_mem _ ?_ ?_ <;> (simp; done)) | refine sub_cons ?_ ?_ | (simp; done)) ?_
    exact Frame.refl _ _
  · unfold rwkWrite
    dsimp only
    split
    · refine Frame.under (setPin_only _ _ _) (by repeat' first | exact sub_nil _ | (refine lanePart_mem _ ?_ ?_ <;> (simp; done)) | (refine sramPart_mem _ ?_ ?_ <;> (simp; done)) | refine sub_cons ?_ ?_ | (simp; done)) ?_
      refine Frame.comp ?_ (Frame.when ?_)
      · exact Frame.refl _ _
      · refine Frame.under (touchSession_only _) (by simp) ?_
        exact Frame.refl _ _
    · refine Frame.under (rwkDiscard_only _ _) (by simp) ?_
      refine Frame.comp ?_ (Frame.when ?_)
      · exact Frame.refl _ _
      · refine Frame.under (touchSession_only _) (by simp) ?_
        exact Frame.refl _ _
  · unfold rwkWrite
    dsimp only
    split
    · refine Frame.under (setPin_only _ _ _) (by repeat' first | exact sub_nil _ | (refine lanePart_mem _ ?_ ?_ <;> (simp; done)) | (refine sramPart_mem _ ?_ ?_ <;> (simp; done)) | refine sub_cons ?_ ?_ | (simp; done)) ?_
      refine Frame.comp ?_ (Frame.when ?_)
      · exact Frame.refl _ _
      · refine Frame.under (touchSession_only _) (by simp) ?_
        exact Frame.refl _ _
    · refine Frame.under (rwkDiscard_only _ _) (by simp) ?_
      refine Frame.comp ?_ (Frame.when ?_)
      · exact Frame.refl _ _
      · refine Frame.under (touchSession_only _) (by simp) ?_
        exact Frame.refl _ _
  · unfold rwkWrite
    dsimp only
    split
    · refine Frame.comp ?_ (Frame.when ?_)
      · refine Frame.comp ?_ (Frame.when ?_)
        · exact Frame.refl _ _
        · refine Frame.under (touchSession_only _) (by simp) ?_
          exact Frame.refl _ _
      · refine Frame.under (setPin_only _ _ _) (by repeat' first | exact sub_nil _ | (refine lanePart_mem _ ?_ ?_ <;> (simp; done)) | (refine sramPart_mem _ ?_ ?_ <;> (simp; done)) | refine sub_cons ?_ ?_ | (simp; done)) ?_
        exact Frame.refl _ _
    · refine Frame.under (rwkDiscard_only _ _) (by simp) ?_
      refine Frame.comp ?_ (Frame.when ?_)
      · exact Frame.refl _ _
      · refine Frame.under (touchSession_only _) (by simp) ?_
        exact Frame.refl _ _
  · split
    · refine Frame.under (owTestStart_only _ _) (by simp) ?_
      exact Frame.refl _ _
    · exact Frame.refl _ _
  · exact Frame.refl _ _

/-- What `setCoefSel` can change. -/
theorem setCoefSel_only (l : Lane) (v : Word) (s : State) : Frame [lanePart l] s (setCoefSel l v s) := by
  unfold setCoefSel
  dsimp only
  split
  · refine Frame.under (modPin_only _ _ _ _) (by simp) ?_
    exact Frame.refl _ _
  · exact Frame.refl _ _

/-- What `writeFlt` can change. -/
theorem writeFlt_only (m : Master) (l : Lane) (off : Nat) (v : Word) (s : State) : Frame [.events, .board, .key, lanePart l] s (writeFlt m l off v s) := by
  unfold writeFlt
  split
  · refine Frame.under (modMeas_only _ _ _) (by simp) ?_
    exact Frame.refl _ _
  · refine Frame.under (fltCtl_only _ _ _) (by simp) ?_
    exact Frame.refl _ _
  · refine Frame.under (setCoefSel_only _ _ _) (by simp) ?_
    exact Frame.refl _ _
  · refine Frame.under (fltCoefdat_only _ _ _ _) (by simp) ?_
    exact Frame.refl _ _
  · refine Frame.under (clearEvents_only _ _ _) (by simp) ?_
    exact Frame.refl _ _
  · exact Frame.refl _ _

/-- What `setCoefMode` can change. -/
theorem setCoefMode_only (l : Lane) (v : Word) (s : State) : Frame [lanePart l] s (setCoefMode l v s) := by
  unfold setCoefMode
  refine Frame.under (modCtx_only _ _ _ _) (by simp) ?_
  exact Frame.refl _ _

/-- What `writeEng` can change. -/
theorem writeEng_only (m : Master) (l : Lane) (off : Nat) (v : Word) (s : State) : Frame [.events, .board, .key, .claim, lanePart l] s (writeEng m l off v s) := by
  unfold writeEng
  split
  · refine Frame.under (clearEvents_only _ _ _) (by simp) ?_
    exact Frame.refl _ _
  · refine Frame.under (modEng_only _ _ _) (by simp) ?_
    exact Frame.refl _ _
  · refine Frame.under (modEng_only _ _ _) (by simp) ?_
    exact Frame.refl _ _
  · refine Frame.under (coefWrite_only _ _ _) (by simp) ?_
    exact Frame.refl _ _
  · split
    · refine Frame.nextOf ?_ ?_
      · exact Frame.refl _ _
      · refine FrameOut.under (execBankSwapReq_only _ _) (by simp) ?_
        exact Frame.refl _ _
    · exact Frame.refl _ _
  · unfold rwkWrite
    dsimp only
    split
    · refine Frame.under (setCoefMode_only _ _ _) (by simp) ?_
      refine Frame.comp ?_ (Frame.when ?_)
      · exact Frame.refl _ _
      · refine Frame.under (touchSession_only _) (by simp) ?_
        exact Frame.refl _ _
    · refine Frame.under (rwkDiscard_only _ _) (by simp) ?_
      refine Frame.comp ?_ (Frame.when ?_)
      · exact Frame.refl _ _
      · refine Frame.under (touchSession_only _) (by simp) ?_
        exact Frame.refl _ _
  · refine Frame.under (modEng_only _ _ _) (by simp) ?_
    exact Frame.refl _ _
  · exact Frame.refl _ _

/-- What `setTrcCfg` can change. -/
theorem setTrcCfg_only (l : Lane) (v : Word) (s : State) : Frame [lanePart l] s (setTrcCfg l v s) := by
  unfold setTrcCfg
  dsimp only
  refine Frame.under (modTap_only _ _ _ _) (by simp) ?_
  exact Frame.refl _ _

/-- What `writeTrc` can change. -/
theorem writeTrc_only (m : Master) (l : Lane) (off : Nat) (v : Word) (s : State) : Frame [.events, .board, .key, lanePart l] s (writeTrc m l off v s) := by
  unfold writeTrc
  split
  · refine Frame.under (modEng_only _ _ _) (by simp) ?_
    exact Frame.refl _ _
  · refine Frame.under (trcCtl_only _ _ _) (by simp) ?_
    exact Frame.refl _ _
  · unfold rwkWrite
    dsimp only
    split
    · refine Frame.under (setTrcCfg_only _ _ _) (by simp) ?_
      refine Frame.comp ?_ (Frame.when ?_)
      · exact Frame.refl _ _
      · refine Frame.under (touchSession_only _) (by simp) ?_
        exact Frame.refl _ _
    · refine Frame.under (rwkDiscard_only _ _) (by simp) ?_
      refine Frame.comp ?_ (Frame.when ?_)
      · exact Frame.refl _ _
      · refine Frame.under (touchSession_only _) (by simp) ?_
        exact Frame.refl _ _
  · exact Frame.refl _ _

/-- What `writeRa` can change. -/
theorem writeRa_only (l : Lane) (off : Nat) (v : Word) (s : State) : Frame [.events, .claim, lanePart l] s (writeRa l off v s) := by
  unfold writeRa
  split
  · refine Frame.under (clearEvents_only _ _ _) (by simp) ?_
    exact Frame.refl _ _
  · refine Frame.under (raCtlWrite_only _ _ _) (by simp) ?_
    exact Frame.refl _ _
  · refine Frame.under (modRa_only _ _ _) (by simp) ?_
    exact Frame.refl _ _
  · refine Frame.under (modRa_only _ _ _) (by simp) ?_
    exact Frame.refl _ _
  · exact Frame.refl _ _

/-- What `writeGf` can change. -/
theorem writeGf_only (l : Lane) (off : Nat) (v : Word) (s : State) : Frame [.events, .board, .laneA, .laneB, .claim] s (writeGf l off v s) := by
  unfold writeGf
  split
  · refine Frame.under (gfParamWrite_only _ _ _ _) (by repeat' first | exact sub_nil _ | (refine lanePart_mem _ ?_ ?_ <;> (simp; done)) | (refine sramPart_mem _ ?_ ?_ <;> (simp; done)) | refine sub_cons ?_ ?_ | (simp; done)) ?_
    exact Frame.refl _ _
  · split
    · refine Frame.under (clearEvents_only _ _ _) (by simp) ?_
      exact Frame.refl _ _
    · split
      · refine Frame.under (gfCommitToken_only _ _) (by simp) ?_
        exact Frame.refl _ _
      · exact Frame.refl _ _
    · exact Frame.refl _ _

/-- What `writeGen` can change. -/
theorem writeGen_only (m : Master) (l : Lane) (g : Fin 16) (off : Nat) (v : Word) (s : State) : Frame [.events, .board, .key, .claim, lanePart l] s (writeGen m l g off v s) := by
  unfold writeGen
  dsimp only
  split
  · refine Frame.under (mirror_only _ _ _) (by simp) ?_
    refine Frame.under (stagePer_only _ _ _ _) (by simp) ?_
    exact Frame.refl _ _
  · refine Frame.under (mirror_only _ _ _) (by simp) ?_
    refine Frame.under (stageDuty_only _ _ _ _) (by simp) ?_
    exact Frame.refl _ _
  · refine Frame.nextOf ?_ ?_
    · exact Frame.refl _ _
    · refine FrameOut.under (execPwmDutyfWrite_only _ _ _ _) (by simp) ?_
      exact Frame.refl _ _
  · unfold rwkWrite
    dsimp only
    split
    · refine Frame.under (setDt_only _ _ _ _) (by simp) ?_
      refine Frame.comp ?_ (Frame.when ?_)
      · exact Frame.refl _ _
      · refine Frame.under (touchSession_only _) (by simp) ?_
        exact Frame.refl _ _
    · refine Frame.under (rwkDiscard_only _ _) (by simp) ?_
      refine Frame.comp ?_ (Frame.when ?_)
      · exact Frame.refl _ _
      · refine Frame.under (touchSession_only _) (by simp) ?_
        exact Frame.refl _ _
  · unfold rwkWrite
    dsimp only
    split
    · refine Frame.under (setMinp_only _ _ _ _) (by simp) ?_
      refine Frame.comp ?_ (Frame.when ?_)
      · exact Frame.refl _ _
      · refine Frame.under (touchSession_only _) (by simp) ?_
        exact Frame.refl _ _
    · refine Frame.under (rwkDiscard_only _ _) (by simp) ?_
      refine Frame.comp ?_ (Frame.when ?_)
      · exact Frame.refl _ _
      · refine Frame.under (touchSession_only _) (by simp) ?_
        exact Frame.refl _ _
  · exact Frame.refl _ _

/-- What `writePwm` can change. -/
theorem writePwm_only (m : Master) (l : Lane) (off : Nat) (v : Word) (s : State) : Frame [.events, .board, .key, .gate, .claim, lanePart l] s (writePwm m l off v s) := by
  unfold writePwm
  split
  · refine Frame.under (writeGen_only _ _ _ _ _ _) (by simp) ?_
    exact Frame.refl _ _
  · split
    · refine Frame.under (clearEvents_only _ _ _) (by simp) ?_
      exact Frame.refl _ _
    · refine Frame.nextOf ?_ ?_
      · exact Frame.refl _ _
      · refine FrameOut.under (execPwmCommit_only _ _ _) (by simp) ?_
        exact Frame.refl _ _
    · refine Frame.under (clearGroups_only _ _) (by simp) ?_
      exact Frame.refl _ _
    · exact Frame.refl _ _

/-- What `setRecSkew` can change. -/
theorem setRecSkew_only (l : Lane) (v : Word) (s : State) : Frame [lanePart l] s (setRecSkew l v s) := by
  unfold setRecSkew
  refine Frame.under (modRec_only _ _ _) (by simp) ?_
  exact Frame.refl _ _

/-- What `writeRec` can change. -/
theorem writeRec_only (m : Master) (l : Lane) (off : Nat) (v : Word) (s : State) : Frame [.free, .events, .board, .key, .claim, lanePart (otherLane l), lanePart l, sramPart l] s (writeRec m l off v s) := by
  unfold writeRec
  split
  · refine Frame.under (clearEvents_only _ _ _) (by simp) ?_
    exact Frame.refl _ _
  · dsimp only
    split
    · split
      · refine Frame.under (recCmdTrig_only _ _) (by simp) ?_
        exact Frame.refl _ _
      · exact Frame.refl _ _
    · refine Frame.under (recRelease_only _ _ _) (by simp) ?_
      split
      · refine Frame.under (recCmdTrig_only _ _) (by simp) ?_
        exact Frame.refl _ _
      · exact Frame.refl _ _
  · refine Frame.under (modRec_only _ _ _) (by simp) ?_
    exact Frame.refl _ _
  · unfold rwkWrite
    dsimp only
    split
    · refine Frame.under (setRecSkew_only _ _ _) (by simp) ?_
      refine Frame.comp ?_ (Frame.when ?_)
      · exact Frame.refl _ _
      · refine Frame.under (touchSession_only _) (by simp) ?_
        exact Frame.refl _ _
    · refine Frame.under (rwkDiscard_only _ _) (by simp) ?_
      refine Frame.comp ?_ (Frame.when ?_)
      · exact Frame.refl _ _
      · refine Frame.under (touchSession_only _) (by simp) ?_
        exact Frame.refl _ _
  · exact Frame.refl _ _

/-- What `writeLane` can change. -/
theorem writeLane_only (m : Master) (l : Lane) (off : Nat) (v : Word) (s : State) : Frame [.free, .events, .board, .key, .laneA, .laneB, .gate, .claim, sramPart l] s (writeLane m l off v s) := by
  unfold writeLane
  dsimp only
  split
  · refine Frame.under (writeMeas_only _ _ _ _ _) (by simp) ?_
    exact Frame.refl _ _
  · refine Frame.under (writeFlt_only _ _ _ _ _) (by repeat' first | exact sub_nil _ | (refine lanePart_mem _ ?_ ?_ <;> (simp; done)) | (refine sramPart_mem _ ?_ ?_ <;> (simp; done)) | refine sub_cons ?_ ?_ | (simp; done)) ?_
    exact Frame.refl _ _
  · refine Frame.under (writeEng_only _ _ _ _ _) (by repeat' first | exact sub_nil _ | (refine lanePart_mem _ ?_ ?_ <;> (simp; done)) | (refine sramPart_mem _ ?_ ?_ <;> (simp; done)) | refine sub_cons ?_ ?_ | (simp; done)) ?_
    exact Frame.refl _ _
  · refine Frame.under (writeRa_only _ _ _ _) (by repeat' first | exact sub_nil _ | (refine lanePart_mem _ ?_ ?_ <;> (simp; done)) | (refine sramPart_mem _ ?_ ?_ <;> (simp; done)) | refine sub_cons ?_ ?_ | (simp; done)) ?_
    exact Frame.refl _ _
  · refine Frame.under (writeGf_only _ _ _ _) (by simp) ?_
    exact Frame.refl _ _
  · refine Frame.under (writePwm_only _ _ _ _ _) (by repeat' first | exact sub_nil _ | (refine lanePart_mem _ ?_ ?_ <;> (simp; done)) | (refine sramPart_mem _ ?_ ?_ <;> (simp; done)) | refine sub_cons ?_ ?_ | (simp; done)) ?_
    exact Frame.refl _ _
  · refine Frame.under (writeRec_only _ _ _ _ _) (by repeat' first | exact sub_nil _ | (refine lanePart_mem _ ?_ ?_ <;> (simp; done)) | (refine sramPart_mem _ ?_ ?_ <;> (simp; done)) | refine sub_cons ?_ ?_ | (simp; done)) ?_
    exact Frame.refl _ _
  · refine Frame.under (writeTrc_only _ _ _ _ _) (by repeat' first | exact sub_nil _ | (refine lanePart_mem _ ?_ ?_ <;> (simp; done)) | (refine sramPart_mem _ ?_ ?_ <;> (simp; done)) | refine sub_cons ?_ ?_ | (simp; done)) ?_
    exact Frame.refl _ _
  · exact Frame.refl _ _

/-- What `readWord` can change. -/
theorem readWord_only (m : Master) (a : Nat) (s : State) : Frame [.free, .events, .board, .host, .mesh, .timebase] s (readWord m a s).2 := by
  unfold readWord
  split
  · refine Frame.under (readLock_only _ _ _) (by simp) ?_
    exact Frame.refl _ _
  · split
    · dsimp only
      refine Frame.under (timeLatch_only _ _) (by simp) ?_
      exact Frame.refl _ _
    · split
      · split
        dsimp only
        refine Frame.under (Frame.snd (by assumption) (mbstatRead_only _)) (by simp) ?_
        exact Frame.refl _ _
      · split
        · dsimp only
          exact Frame.refl _ _
        · split
          · dsimp only
            exact Frame.refl _ _
          · split
            dsimp only
            refine Frame.under (Frame.snd (by assumption) (takeFree_only _)) (by simp) ?_
            exact Frame.refl _ _

/-- What `writeWord` can change. -/
theorem writeWord_only (m : Master) (a : Nat) (v : Word) (s : State) : Frame [.free, .events, .board, .host, .power, .clock, .mode, .key, .mesh, .laneA, .laneB, .sramA, .sramB, .gate, .claim, .net, .timebase, .can, .fio, .plk, .wear] s (writeWord m a v s) := by
  unfold writeWord
  split
  · exact Frame.refl _ _
  · split
    · refine Frame.under (writeMode_only _ _ _) (by simp) ?_
      exact Frame.refl _ _
    · refine Frame.under (writePnt_only _ _ _) (by simp) ?_
      exact Frame.refl _ _
    · refine Frame.under (writePwr_only _ _ _) (by simp) ?_
      exact Frame.refl _ _
    · refine Frame.under (writeClk_only _ _ _) (by simp) ?_
      exact Frame.refl _ _
    · refine Frame.under (writeKey_only _ _ _ _) (by simp) ?_
      exact Frame.refl _ _
    · refine Frame.under (writeMesh_only _ _ _ _) (by simp) ?_
      exact Frame.refl _ _
    · refine Frame.under (writeAcc_only _ _ _) (by simp) ?_
      exact Frame.refl _ _
    · refine Frame.under (writeGch_only _ _ _) (by simp) ?_
      exact Frame.refl _ _
    · refine Frame.under (writeClm_only _ _ _ _) (by simp) ?_
      exact Frame.refl _ _
    · refine Frame.under (writeNet_only _ _ _ _) (by simp) ?_
      exact Frame.refl _ _
    · refine Frame.under (writeCan_only _ _ _ _) (by simp) ?_
      exact Frame.refl _ _
    · refine Frame.under (writeCan_only _ _ _ _) (by simp) ?_
      exact Frame.refl _ _
    · refine Frame.under (writeFio_only _ _ _) (by simp) ?_
      exact Frame.refl _ _
    · refine Frame.under (writePlk_only _ _ _) (by simp) ?_
      exact Frame.refl _ _
    · refine Frame.under (writeHcp_only _ _ _) (by simp) ?_
      exact Frame.refl _ _
    · refine Frame.under (writeWear_only _ _ _) (by simp) ?_
      exact Frame.refl _ _
    · refine Frame.under (writeLane_only _ _ _ _ _) (by repeat' first | exact sub_nil _ | (refine lanePart_mem _ ?_ ?_ <;> (simp; done)) | (refine sramPart_mem _ ?_ ?_ <;> (simp; done)) | refine sub_cons ?_ ?_ | (simp; done)) ?_
      exact Frame.refl _ _

/-- What `execRwkWrite` can change. -/
theorem execRwkWrite_only (m : Master) (addr v : Word) (s : State) : FrameOut [.free, .events, .board, .host, .power, .clock, .mode, .key, .mesh, .laneA, .laneB, .sramA, .sramB, .gate, .claim, .net, .timebase, .can, .fio, .plk, .wear] s (execRwkWrite m addr v s) := by
  unfold execRwkWrite
  unfold byMaster
  split
  · refine FrameOut.next ?_
    dsimp only
    split
    · refine Frame.under (writeWord_only _ _ _ _) (by simp) ?_
      exact Frame.refl _ _
    · exact Frame.refl _ _
  · exact FrameOut.fault _ _ _

/-- What `checkAccess` can change. -/
theorem checkAccess_only (m : Master) (a bytes : Nat) (write : Bool) (s : State) : Frame [.events, .board, .mesh] s (checkAccess m a bytes write s).2 := by
  unfold checkAccess
  split
  · dsimp only
    exact Frame.refl _ _
  · split
    · dsimp only
      refine Frame.under (raise_only _ _ _) (by simp) ?_
      exact Frame.refl _ _
    · dsimp only
      split
      · dsimp only
        refine Frame.under (logViolation_only _ _ _ _ _ _) (by simp) ?_
        exact Frame.refl _ _
      · split
        · dsimp only
          exact Frame.refl _ _
        · dsimp only
          exact Frame.refl _ _

/-- What `readWords` can change. -/
theorem readWords_only (m : Master) : ∀ (n a : Nat) (got : List Byte) (s : State), Frame [.free, .events, .board, .host, .mesh, .timebase] s (readWords m n a got s).2
  | 0, _, _, _ => Frame.refl _ _
  | n + 1, a, got, s => by
    unfold readWords
    split
    · exact (Frame.snd (by assumption) (readWord_only _ _ _)).mono (by simp)
    · exact ((Frame.snd (by assumption) (readWord_only _ _ _)).mono (by simp)).comp (readWords_only m n _ _ _)

/-- What `writeWords` can change. -/
theorem writeWords_only (m : Master) : ∀ (a : Nat) (ws : List Word) (s : State), Frame [.free, .events, .board, .host, .power, .clock, .mode, .key, .mesh, .laneA, .laneB, .sramA, .sramB, .gate, .claim, .net, .timebase, .can, .fio, .plk, .wear] s (writeWords m a ws s)
  | _, [], _ => Frame.refl _ _
  | a, w :: ws, s => by
    unfold writeWords
    exact ((writeWord_only _ _ _ _).mono (by simp)).comp (writeWords_only m _ ws _)

/-- What `writeSram` can change. -/
theorem writeSram_only (t a : Nat) (bs : List Byte) (s : State) : Frame [.sramA, .sramB, .sram] s (writeSram t a bs s) := by
  unfold writeSram
  split
  · refine Frame.under (sharedWrite_only _ _ _) (by simp) ?_
    exact Frame.refl _ _
  · refine Frame.under (laneWrite_only _ _ _ _) (by repeat' first | exact sub_nil _ | (refine lanePart_mem _ ?_ ?_ <;> (simp; done)) | (refine sramPart_mem _ ?_ ?_ <;> (simp; done)) | refine sub_cons ?_ ?_ | (simp; done)) ?_
    exact Frame.refl _ _

/-- What `perform` can change. -/
theorem perform_only (m : Master) (a bytes : Nat) (data : Option (List Byte)) (s : State) : Frame [.free, .events, .board, .host, .power, .clock, .mode, .key, .mesh, .laneA, .laneB, .sramA, .sramB, .sram, .gate, .claim, .net, .timebase, .can, .fio, .plk, .wear] s (perform m a bytes data s).2 := by
  unfold perform
  dsimp only
  split
  · split
    · dsimp only
      exact Frame.refl _ _
    · refine Frame.under (readWords_only _ _ _ _ _) (by simp) ?_
      exact Frame.refl _ _
  · split
    · dsimp only
      refine Frame.under (writeSram_only _ _ _ _) (by simp) ?_
      exact Frame.refl _ _
    · split
      · dsimp only
        refine Frame.under (raise_only _ _ _) (by simp) ?_
        refine Frame.under (writeWords_only _ _ _ _) (by simp) ?_
        exact Frame.refl _ _
      · dsimp only
        refine Frame.under (writeWords_only _ _ _ _) (by simp) ?_
        exact Frame.refl _ _

/-- What `access` can change. -/
theorem access_only (m : Master) (a bytes : Nat) (data : Option (List Byte)) (s : State) : Frame [.time, .free, .events, .board, .host, .power, .clock, .mode, .key, .mesh, .laneA, .laneB, .sramA, .sramB, .sram, .gate, .claim, .net, .timebase, .can, .fio, .plk, .wear] s (access m a bytes data s).2 := by
  unfold access
  split
  · dsimp only
    refine Frame.under (Frame.snd (by assumption) (checkAccess_only _ _ _ _ _)) (by simp) ?_
    exact Frame.refl _ _
  · refine Frame.under (perform_only _ _ _ _ _) (by simp) ?_
    refine Frame.under (arrive_only _ _ _ _) (by simp) ?_
    refine Frame.under (Frame.snd (by assumption) (checkAccess_only _ _ _ _ _)) (by simp) ?_
    exact Frame.refl _ _

/-- What `execRegisterWrite` can change. -/
theorem execRegisterWrite_only (m : Master) (addr v : Word) (s : State) : FrameOut [.time, .free, .events, .board, .host, .power, .clock, .mode, .key, .mesh, .laneA, .laneB, .sramA, .sramB, .sram, .gate, .claim, .net, .timebase, .can, .fio, .plk, .wear, .outbox] s (execRegisterWrite m addr v s) := by
  unfold execRegisterWrite
  unfold byMaster
  split
  · refine FrameOut.next ?_
    dsimp only
    unfold finishAccess
    split
    · refine Frame.under (send_only _ _) (by simp) ?_
      refine Frame.under (access_only _ _ _ _ _) (by simp) ?_
      exact Frame.refl _ _
    · refine Frame.under (modMesh_only _ _) (by simp) ?_
      refine Frame.under (access_only _ _ _ _ _) (by simp) ?_
      exact Frame.refl _ _
    · refine Frame.under (send_only _ _) (by simp) ?_
      refine Frame.under (access_only _ _ _ _ _) (by simp) ?_
      exact Frame.refl _ _
  · exact FrameOut.fault _ _ _

/-- What `spendCredits` can change. -/
theorem spendCredits_only (m : Master) (t n : Nat) (s : State) : Frame [.mesh] s (spendCredits m t n s) := by
  unfold spendCredits
  dsimp only
  refine Frame.under (modMesh_only _ _) (by simp) ?_
  exact Frame.refl _ _

/-- What `grantNow` can change. -/
theorem grantNow_only (m : Master) (t a bytes : Nat) (data : Option (List Byte)) (reserved : Bool) (waited : Nat) (s : State) : Frame [.time, .free, .events, .board, .host, .power, .clock, .mode, .key, .mesh, .laneA, .laneB, .sramA, .sramB, .sram, .gate, .claim, .net, .timebase, .can, .fio, .plk, .wear, .outbox] s (grantNow m t a bytes data reserved waited s) := by
  unfold grantNow
  dsimp only
  unfold finishAccess
  split
  · refine Frame.under (send_only _ _) (by simp) ?_
    refine Frame.under (perform_only _ _ _ _ _) (by simp) ?_
    refine Frame.under (arrive_only _ _ _ _) (by simp) ?_
    split
    · exact Frame.refl _ _
    · refine Frame.under (spendCredits_only _ _ _ _) (by simp) ?_
      exact Frame.refl _ _
  · refine Frame.under (modMesh_only _ _) (by simp) ?_
    refine Frame.under (perform_only _ _ _ _ _) (by simp) ?_
    refine Frame.under (arrive_only _ _ _ _) (by simp) ?_
    split
    · exact Frame.refl _ _
    · refine Frame.under (spendCredits_only _ _ _ _) (by simp) ?_
      exact Frame.refl _ _
  · refine Frame.under (send_only _ _) (by simp) ?_
    refine Frame.under (perform_only _ _ _ _ _) (by simp) ?_
    refine Frame.under (arrive_only _ _ _ _) (by simp) ?_
    split
    · exact Frame.refl _ _
    · refine Frame.under (spendCredits_only _ _ _ _) (by simp) ?_
      exact Frame.refl _ _

/-- What `requestTransfer` can change. -/
theorem requestTransfer_only (m : Master) (addr : Word) (bytes : Nat) (data : Option (List Byte)) (slot : Nat) (busy : Bool) (s : State) : Frame [.time, .free, .events, .board, .host, .power, .clock, .mode, .key, .mesh, .laneA, .laneB, .sramA, .sramB, .sram, .gate, .claim, .net, .timebase, .can, .fio, .plk, .wear, .outbox] s (requestTransfer m addr bytes data slot busy s) := by
  unfold requestTransfer
  dsimp only
  split
  · unfold finishAccess
    split
    · refine Frame.under (send_only _ _) (by simp) ?_
      dsimp only
      refine Frame.under (Frame.snd (by assumption) (checkAccess_only _ _ _ _ _)) (by simp) ?_
      exact Frame.refl _ _
    · refine Frame.under (modMesh_only _ _) (by simp) ?_
      dsimp only
      refine Frame.under (Frame.snd (by assumption) (checkAccess_only _ _ _ _ _)) (by simp) ?_
      exact Frame.refl _ _
    · refine Frame.under (send_only _ _) (by simp) ?_
      dsimp only
      refine Frame.under (Frame.snd (by assumption) (checkAccess_only _ _ _ _ _)) (by simp) ?_
      exact Frame.refl _ _
  · split
    · refine Frame.under (grantNow_only _ _ _ _ _ _ _ _) (by simp) ?_
      refine Frame.under (Frame.snd (by assumption) (checkAccess_only _ _ _ _ _)) (by simp) ?_
      exact Frame.refl _ _
    · split
      · refine Frame.under (grantNow_only _ _ _ _ _ _ _ _) (by simp) ?_
        refine Frame.under (Frame.snd (by assumption) (checkAccess_only _ _ _ _ _)) (by simp) ?_
        exact Frame.refl _ _
      · refine Frame.under (modMesh_only _ _) (by simp) ?_
        refine Frame.under (Frame.snd (by assumption) (checkAccess_only _ _ _ _ _)) (by simp) ?_
        exact Frame.refl _ _

/-- What `execMeshTransfer` can change. -/
theorem execMeshTransfer_only (m : Master) (addr : Word) (bytes : Nat) (data : Option (List Byte)) (slot : Fin 512) (busy : Bool) (s : State) : FrameOut [.time, .free, .events, .board, .host, .power, .clock, .mode, .key, .mesh, .laneA, .laneB, .sramA, .sramB, .sram, .gate, .claim, .net, .timebase, .can, .fio, .plk, .wear, .outbox] s (execMeshTransfer m addr bytes data slot busy s) := by
  unfold execMeshTransfer
  unfold byMaster
  split
  · refine FrameOut.next ?_
    refine Frame.under (requestTransfer_only _ _ _ _ _ _ _) (by simp) ?_
    exact Frame.refl _ _
  · exact FrameOut.fault _ _ _

/-- What `meshGrant` can change. -/
theorem meshGrant_only (t slot waited : Nat) (s : State) : Frame [.time, .free, .events, .board, .host, .power, .clock, .mode, .key, .mesh, .laneA, .laneB, .sramA, .sramB, .sram, .gate, .claim, .net, .timebase, .can, .fio, .plk, .wear, .outbox] s (meshGrant t slot waited s) := by
  unfold meshGrant
  dsimp only
  split
  · refine Frame.under (modMesh_only _ _) (by simp) ?_
    exact Frame.refl _ _
  · refine Frame.under (grantNow_only _ _ _ _ _ _ _ _) (by simp) ?_
    refine Frame.under (modMesh_only _ _) (by simp) ?_
    refine Frame.under (modMesh_only _ _) (by simp) ?_
    exact Frame.refl _ _

/-- What `execMeshGrant` can change. -/
theorem execMeshGrant_only (t : BitVec 6) (slot : Fin 512) (waited : Nat) (s : State) : FrameOut [.time, .free, .events, .board, .host, .power, .clock, .mode, .key, .mesh, .laneA, .laneB, .sramA, .sramB, .sram, .gate, .claim, .net, .timebase, .can, .fio, .plk, .wear, .outbox] s (execMeshGrant t slot waited s) := by
  unfold execMeshGrant
  refine FrameOut.next ?_
  refine Frame.under (meshGrant_only _ _ _ _) (by simp) ?_
  exact Frame.refl _ _

/-- What `modHostPort` can change. -/
theorem modHostPort_only (p : HostPort) (f : HostPortState → HostPortState) (s : State) : Frame [.board, .host] s (modHostPort p f s) := by
  unfold modHostPort
  split
  · refine Frame.under (modHost_only _ _) (by simp) ?_
    exact Frame.refl _ _
  · refine Frame.under (modHost_only _ _) (by simp) ?_
    exact Frame.refl _ _

/-- What `flushNet` can change. -/
theorem flushNet_only (s : State) : Frame [.board, .host, .net, .outbox] s (flushNet s) := by
  unfold flushNet
  split
  · refine Frame.under (modHostPort_only _ _ _) (by simp) ?_
    refine Frame.comp ?_ (Frame.foldS _ _ _ fun _ _ => ?_)
    · exact Frame.refl _ _
    · refine Frame.under (sendNet_only _ _ _ _) (by simp) ?_
      exact Frame.refl _ _
  · exact Frame.refl _ _

/-- What `queueFrame` can change. -/
theorem queueFrame_only (p : HostPort) (f : HostFrame) (s : State) : Frame [.board, .host, .net, .outbox] s (queueFrame p f s) := by
  unfold queueFrame
  dsimp only
  split
  · refine Frame.under (modHostPort_only _ _ _) (by simp) ?_
    exact Frame.refl _ _
  · refine Frame.under (flushNet_only _) (by simp) ?_
    refine Frame.under (modHostPort_only _ _ _) (by simp) ?_
    exact Frame.refl _ _

/-- What `reply` can change. -/
theorem reply_only (p : HostPort) (r : HostRequest) (status : Nat) (payload : List Byte) (s : State) : Frame [.board, .host, .net, .outbox] s (reply p r status payload s) := by
  unfold reply
  dsimp only
  refine Frame.under (queueFrame_only _ _ _) (by simp) ?_
  split
  · exact Frame.refl _ _
  · refine Frame.under (modHostPort_only _ _ _) (by simp) ?_
    exact Frame.refl _ _

/-- What `respond` can change. -/
theorem respond_only (p : HostPort) (r : HostRequest) (status : Nat) (payload : List Byte) (s : State) : Frame [.board, .host, .net, .outbox] s (respond p r status payload s) := by
  unfold respond
  refine Frame.under (reply_only _ _ _ _ _) (by simp) ?_
  refine Frame.under (modHostPort_only _ _ _) (by simp) ?_
  exact Frame.refl _ _

/-- What `acceptRequest` can change. -/
theorem acceptRequest_only (p : HostPort) (r : HostRequest) (s : State) : Frame [.events, .board, .host] s (acceptRequest p r s) := by
  unfold acceptRequest
  split
  · refine Frame.under (modHostPort_only _ _ _) (by simp) ?_
    exact Frame.refl _ _
  · refine Frame.under (raise_only _ _ _) (by simp) ?_
    exact Frame.refl _ _

/-- What `badFrame` can change. -/
theorem badFrame_only (p : HostPort) (s : State) : Frame [.events, .board, .host] s (badFrame p s) := by
  unfold badFrame
  refine Frame.under (raise_only _ _ _) (by simp) ?_
  refine Frame.under (modHostPort_only _ _ _) (by simp) ?_
  exact Frame.refl _ _

/-- What `hspFrameIn` can change. -/
theorem hspFrameIn_only (bytes : List Byte) (s : State) : Frame [.events, .board, .host] s (hspFrameIn bytes s) := by
  unfold hspFrameIn
  split
  · exact Frame.refl _ _
  · split
    · refine Frame.under (badFrame_only _ _) (by simp) ?_
      exact Frame.refl _ _
    · split
      · refine Frame.under (acceptRequest_only _ _ _) (by simp) ?_
        exact Frame.refl _ _
      · exact Frame.refl _ _

/-- What `execHspFrameIn` can change. -/
theorem execHspFrameIn_only (bytes : List Byte) (s : State) : FrameOut [.events, .board, .host] s (execHspFrameIn bytes s) := by
  unfold execHspFrameIn
  refine FrameOut.next ?_
  refine Frame.under (hspFrameIn_only _ _) (by simp) ?_
  exact Frame.refl _ _

/-- What `hspFrameOut` can change. -/
theorem hspFrameOut_only (complete : Bool) (s : State) : Frame [.board, .host, .outbox] s (hspFrameOut complete s) := by
  unfold hspFrameOut
  split
  · exact Frame.refl _ _
  · split
    · refine Frame.under (send_only _ _) (by simp) ?_
      exact Frame.refl _ _
    · refine Frame.under (send_only _ _) (by simp) ?_
      refine Frame.under (modHostPort_only _ _ _) (by simp) ?_
      exact Frame.refl _ _

/-- What `execHspFrameOut` can change. -/
theorem execHspFrameOut_only (complete : Bool) (s : State) : FrameOut [.board, .host, .outbox] s (execHspFrameOut complete s) := by
  unfold execHspFrameOut
  refine FrameOut.next ?_
  refine Frame.under (hspFrameOut_only _ _) (by simp) ?_
  exact Frame.refl _ _

/-- What `udpRequest` can change. -/
theorem udpRequest_only (ip : Word) (sport : Half) (bytes : List Byte) (s : State) : Frame [.events, .board, .host, .net, .outbox] s (udpRequest ip sport bytes s) := by
  unfold udpRequest
  split
  · exact Frame.refl _ _
  · split
    · refine Frame.under (modHostPort_only _ _ _) (by simp) ?_
      exact Frame.refl _ _
    · split
      · refine Frame.under (badFrame_only _ _) (by simp) ?_
        exact Frame.refl _ _
      · split
        · exact Frame.refl _ _
        · dsimp only
          split
          · refine Frame.under (raise_only _ _ _) (by simp) ?_
            refine Frame.under (queueFrame_only _ _ _) (by simp) ?_
            exact Frame.refl _ _
          · refine Frame.under (raise_only _ _ _) (by simp) ?_
            exact Frame.refl _ _
          · refine Frame.under (acceptRequest_only _ _ _) (by simp) ?_
            exact Frame.refl _ _

/-- What `execUdpRequest` can change. -/
theorem execUdpRequest_only (ip : Word) (sport : Half) (bytes : List Byte) (s : State) : FrameOut [.events, .board, .host, .net, .outbox] s (execUdpRequest ip sport bytes s) := by
  unfold execUdpRequest
  refine FrameOut.next ?_
  refine Frame.under (udpRequest_only _ _ _ _) (by simp) ?_
  exact Frame.refl _ _

/-- What `hostAccess` can change. -/
theorem hostAccess_only (m : Master) (a bytes : Nat) (data : Option (List Byte)) (s : State) : Frame [.time, .free, .events, .board, .host, .power, .clock, .mode, .key, .mesh, .laneA, .laneB, .sramA, .sramB, .sram, .gate, .claim, .net, .timebase, .can, .fio, .plk, .wear] s (hostAccess m a bytes data s).2 := by
  unfold hostAccess
  split
  · dsimp only
    refine Frame.under (Frame.snd (by assumption) (checkAccess_only _ _ _ _ _)) (by simp) ?_
    exact Frame.refl _ _
  · refine Frame.under (perform_only _ _ _ _ _) (by simp) ?_
    refine Frame.under (arrive_only _ _ _ _) (by simp) ?_
    refine Frame.under (spendCredits_only _ _ _ _) (by simp) ?_
    refine Frame.under (Frame.snd (by assumption) (checkAccess_only _ _ _ _ _)) (by simp) ?_
    exact Frame.refl _ _

/-- What `hostRead` can change. -/
theorem hostRead_only (p : HostPort) (r : HostRequest) : ∀ (n a : Nat) (got : List Byte) (s : State), Frame [.time, .free, .events, .board, .host, .power, .clock, .mode, .key, .mesh, .laneA, .laneB, .sramA, .sramB, .sram, .gate, .claim, .net, .timebase, .can, .fio, .plk, .wear, .outbox] s (hostRead p r n a got s)
  | 0, _, _, _ => (respond_only _ _ _ _ _).mono (by simp)
  | n + 1, a, got, s => by
    unfold hostRead
    split
    · exact ((Frame.snd (by assumption) (hostAccess_only _ _ _ _ _)).mono (by simp)).comp (hostRead_only p r n _ _ _)
    · exact ((Frame.snd (by assumption) (hostAccess_only _ _ _ _ _)).mono (by simp)).comp ((modMesh_only _ _).mono (by simp))
    · exact ((Frame.snd (by assumption) (hostAccess_only _ _ _ _ _)).mono (by simp)).comp ((respond_only _ _ _ _ _).mono (by simp))

/-- What `readCmd` can change. -/
theorem readCmd_only (p : HostPort) (r : HostRequest) (s : State) : Frame [.time, .free, .events, .board, .host, .power, .clock, .mode, .key, .mesh, .laneA, .laneB, .sramA, .sramB, .sram, .gate, .claim, .net, .timebase, .can, .fio, .plk, .wear, .outbox] s (readCmd p r s) := by
  unfold readCmd
  dsimp only
  split
  · refine Frame.under (respond_only _ _ _ _ _) (by simp) ?_
    exact Frame.refl _ _
  · refine Frame.under (hostRead_only _ _ _ _ _ _) (by simp) ?_
    exact Frame.refl _ _

/-- What `execRead` can change. -/
theorem execRead_only (p : HostPort) (tag : Half) (addr n : Word) (s : State) : FrameOut [.time, .free, .events, .board, .host, .power, .clock, .mode, .key, .mesh, .laneA, .laneB, .sramA, .sramB, .sram, .gate, .claim, .net, .timebase, .can, .fio, .plk, .wear, .outbox] s (execRead p tag addr n s) := by
  unfold execRead
  dsimp only
  refine FrameOut.next ?_
  unfold runRequest
  split
  · exact Frame.refl _ _
  · split
    · refine Frame.under (acceptRequest_only _ _ _) (by simp) ?_
      exact Frame.refl _ _
    · split
      · split
        · refine Frame.under (readCmd_only _ _ _) (by simp) ?_
          exact Frame.refl _ _
        · refine Frame.under (acceptRequest_only _ _ _) (by simp) ?_
          exact Frame.refl _ _
      · dsimp only
        split
        · split
          · refine Frame.under (readCmd_only _ _ _) (by simp) ?_
            refine Frame.under (acceptRequest_only _ _ _) (by simp) ?_
            exact Frame.refl _ _
          · refine Frame.under (acceptRequest_only _ _ _) (by simp) ?_
            exact Frame.refl _ _
        · refine Frame.under (acceptRequest_only _ _ _) (by simp) ?_
          exact Frame.refl _ _

/-- What `hostWrite` can change. -/
theorem hostWrite_only (p : HostPort) (r : HostRequest) : ∀ (a count : Nat) (ws : List Word) (s : State), Frame [.time, .free, .events, .board, .host, .power, .clock, .mode, .key, .mesh, .laneA, .laneB, .sramA, .sramB, .sram, .gate, .claim, .net, .timebase, .can, .fio, .plk, .wear, .outbox] s (hostWrite p r a count ws s)
  | _, _, [], _ => (respond_only _ _ _ _ _).mono (by simp)
  | a, count, w :: ws, s => by
    unfold hostWrite
    split
    · exact ((Frame.snd (by assumption) (hostAccess_only _ _ _ _ _)).mono (by simp)).comp (hostWrite_only p r _ _ ws _)
    · exact ((Frame.snd (by assumption) (hostAccess_only _ _ _ _ _)).mono (by simp)).comp ((respond_only _ _ _ _ _).mono (by simp))

/-- What `writeCmd` can change. -/
theorem writeCmd_only (p : HostPort) (r : HostRequest) (s : State) : Frame [.time, .free, .events, .board, .host, .power, .clock, .mode, .key, .mesh, .laneA, .laneB, .sramA, .sramB, .sram, .gate, .claim, .net, .timebase, .can, .fio, .plk, .wear, .outbox] s (writeCmd p r s) := by
  unfold writeCmd
  dsimp only
  split
  · refine Frame.under (respond_only _ _ _ _ _) (by simp) ?_
    exact Frame.refl _ _
  · refine Frame.under (hostWrite_only _ _ _ _ _ _) (by simp) ?_
    exact Frame.refl _ _

/-- What `execWrite` can change. -/
theorem execWrite_only (p : HostPort) (tag : Half) (addr : Word) (ws : List Word) (s : State) : FrameOut [.time, .free, .events, .board, .host, .power, .clock, .mode, .key, .mesh, .laneA, .laneB, .sramA, .sramB, .sram, .gate, .claim, .net, .timebase, .can, .fio, .plk, .wear, .outbox] s (execWrite p tag addr ws s) := by
  unfold execWrite
  dsimp only
  refine FrameOut.next ?_
  unfold runRequest
  split
  · exact Frame.refl _ _
  · split
    · refine Frame.under (acceptRequest_only _ _ _) (by simp) ?_
      exact Frame.refl _ _
    · split
      · split
        · refine Frame.under (writeCmd_only _ _ _) (by simp) ?_
          exact Frame.refl _ _
        · refine Frame.under (acceptRequest_only _ _ _) (by simp) ?_
          exact Frame.refl _ _
      · dsimp only
        split
        · split
          · refine Frame.under (writeCmd_only _ _ _) (by simp) ?_
            refine Frame.under (acceptRequest_only _ _ _) (by simp) ?_
            exact Frame.refl _ _
          · refine Frame.under (acceptRequest_only _ _ _) (by simp) ?_
            exact Frame.refl _ _
        · refine Frame.under (acceptRequest_only _ _ _) (by simp) ?_
          exact Frame.refl _ _

/-- What `execPntGet` can change. -/
theorem execPntGet_only (p : HostPort) (tag : Half) (s : State) : FrameOut [.events, .board, .host, .net, .outbox] s (execPntGet p tag s) := by
  unfold execPntGet
  dsimp only
  refine FrameOut.next ?_
  unfold runRequest
  split
  · exact Frame.refl _ _
  · split
    · refine Frame.under (acceptRequest_only _ _ _) (by simp) ?_
      exact Frame.refl _ _
    · split
      · split
        · dsimp only
          refine Frame.under (respond_only _ _ _ _ _) (by simp) ?_
          exact Frame.refl _ _
        · refine Frame.under (acceptRequest_only _ _ _) (by simp) ?_
          exact Frame.refl _ _
      · dsimp only
        split
        · split
          · refine Frame.under (respond_only _ _ _ _ _) (by simp) ?_
            refine Frame.under (acceptRequest_only _ _ _) (by simp) ?_
            exact Frame.refl _ _
          · refine Frame.under (acceptRequest_only _ _ _) (by simp) ?_
            exact Frame.refl _ _
        · refine Frame.under (acceptRequest_only _ _ _) (by simp) ?_
          exact Frame.refl _ _

/-- What `execPntClear` can change. -/
theorem execPntClear_only (p : HostPort) (tag : Half) (mask : BitVec 256) (s : State) : FrameOut [.events, .board, .host, .net, .outbox] s (execPntClear p tag mask s) := by
  unfold execPntClear
  dsimp only
  refine FrameOut.next ?_
  unfold runRequest
  split
  · exact Frame.refl _ _
  · split
    · refine Frame.under (acceptRequest_only _ _ _) (by simp) ?_
      exact Frame.refl _ _
    · split
      · split
        · dsimp only
          unfold boardCmd
          split
          · refine Frame.under (respond_only _ _ _ _ _) (by simp) ?_
            refine Frame.under (raise_only _ _ _) (by simp) ?_
            exact Frame.refl _ _
          · refine Frame.under (respond_only _ _ _ _ _) (by simp) ?_
            dsimp only
            refine Frame.under (modHost_only _ _) (by simp) ?_
            exact Frame.refl _ _
        · refine Frame.under (acceptRequest_only _ _ _) (by simp) ?_
          exact Frame.refl _ _
      · dsimp only
        split
        · split
          · unfold boardCmd
            split
            · refine Frame.under (respond_only _ _ _ _ _) (by simp) ?_
              refine Frame.under (raise_only _ _ _) (by simp) ?_
              refine Frame.under (acceptRequest_only _ _ _) (by simp) ?_
              exact Frame.refl _ _
            · refine Frame.under (respond_only _ _ _ _ _) (by simp) ?_
              dsimp only
              refine Frame.under (modHost_only _ _) (by simp) ?_
              refine Frame.under (acceptRequest_only _ _ _) (by simp) ?_
              exact Frame.refl _ _
          · refine Frame.under (acceptRequest_only _ _ _) (by simp) ?_
            exact Frame.refl _ _
        · refine Frame.under (acceptRequest_only _ _ _) (by simp) ?_
          exact Frame.refl _ _

/-- What `subscribe` can change. -/
theorem subscribe_only (p : HostPort) (h : HostRequest) (mask : BitVec 256) (s : State) : Frame [.board, .host] s (subscribe p h mask s) := by
  unfold subscribe
  refine Frame.under (modHostPort_only _ _ _) (by simp) ?_
  exact Frame.refl _ _

/-- What `execSubscribe` can change. -/
theorem execSubscribe_only (p : HostPort) (tag : Half) (mask : BitVec 256) (s : State) : FrameOut [.events, .board, .host, .net, .outbox] s (execSubscribe p tag mask s) := by
  unfold execSubscribe
  dsimp only
  refine FrameOut.next ?_
  unfold runRequest
  split
  · exact Frame.refl _ _
  · split
    · refine Frame.under (acceptRequest_only _ _ _) (by simp) ?_
      exact Frame.refl _ _
    · split
      · split
        · dsimp only
          unfold boardCmd
          split
          · refine Frame.under (respond_only _ _ _ _ _) (by simp) ?_
            refine Frame.under (raise_only _ _ _) (by simp) ?_
            exact Frame.refl _ _
          · refine Frame.under (respond_only _ _ _ _ _) (by simp) ?_
            refine Frame.under (subscribe_only _ _ _ _) (by simp) ?_
            exact Frame.refl _ _
        · refine Frame.under (acceptRequest_only _ _ _) (by simp) ?_
          exact Frame.refl _ _
      · dsimp only
        split
        · split
          · unfold boardCmd
            split
            · refine Frame.under (respond_only _ _ _ _ _) (by simp) ?_
              refine Frame.under (raise_only _ _ _) (by simp) ?_
              refine Frame.under (acceptRequest_only _ _ _) (by simp) ?_
              exact Frame.refl _ _
            · refine Frame.under (respond_only _ _ _ _ _) (by simp) ?_
              refine Frame.under (subscribe_only _ _ _ _) (by simp) ?_
              refine Frame.under (acceptRequest_only _ _ _) (by simp) ?_
              exact Frame.refl _ _
          · refine Frame.under (acceptRequest_only _ _ _) (by simp) ?_
            exact Frame.refl _ _
        · refine Frame.under (acceptRequest_only _ _ _) (by simp) ?_
          exact Frame.refl _ _

/-- What `execUnknownCommand` can change. -/
theorem execUnknownCommand_only (p : HostPort) (tag : Half) (cmd : Byte) (s : State) : FrameOut [.events, .board, .host, .net, .outbox] s (execUnknownCommand p tag cmd s) := by
  unfold execUnknownCommand
  dsimp only
  refine FrameOut.next ?_
  unfold runRequest
  split
  · exact Frame.refl _ _
  · split
    · refine Frame.under (acceptRequest_only _ _ _) (by simp) ?_
      exact Frame.refl _ _
    · split
      · split
        · dsimp only
          refine Frame.under (respond_only _ _ _ _ _) (by simp) ?_
          exact Frame.refl _ _
        · refine Frame.under (acceptRequest_only _ _ _) (by simp) ?_
          exact Frame.refl _ _
      · dsimp only
        split
        · split
          · refine Frame.under (respond_only _ _ _ _ _) (by simp) ?_
            refine Frame.under (acceptRequest_only _ _ _) (by simp) ?_
            exact Frame.refl _ _
          · refine Frame.under (acceptRequest_only _ _ _) (by simp) ?_
            exact Frame.refl _ _
        · refine Frame.under (acceptRequest_only _ _ _) (by simp) ?_
          exact Frame.refl _ _

/-- What `notificationTx` can change. -/
theorem notificationTx_only (p : HostPort) (s : State) : Frame [.time, .events, .board, .host, .net, .outbox] s (notificationTx p s) := by
  unfold notificationTx
  dsimp only
  split
  · exact Frame.refl _ _
  · split
    · split
      · refine Frame.under (raise_only _ _ _) (by simp) ?_
        refine Frame.under (modHostPort_only _ _ _) (by simp) ?_
        exact Frame.refl _ _
      · refine Frame.under (queueFrame_only _ _ _) (by simp) ?_
        refine Frame.under (modHostPort_only _ _ _) (by simp) ?_
        refine Frame.under (modHostPort_only _ _ _) (by simp) ?_
        exact Frame.refl _ _
    · split
      · refine Frame.under (raise_only _ _ _) (by simp) ?_
        refine Frame.under (modHostPort_only _ _ _) (by simp) ?_
        refine Frame.under (elapseTo_only _ _) (by simp) ?_
        exact Frame.refl _ _
      · refine Frame.under (queueFrame_only _ _ _) (by simp) ?_
        refine Frame.under (modHostPort_only _ _ _) (by simp) ?_
        refine Frame.under (modHostPort_only _ _ _) (by simp) ?_
        refine Frame.under (elapseTo_only _ _) (by simp) ?_
        exact Frame.refl _ _

/-- What `execNotificationTx` can change. -/
theorem execNotificationTx_only (p : HostPort) (s : State) : FrameOut [.time, .events, .board, .host, .net, .outbox] s (execNotificationTx p s) := by
  unfold execNotificationTx
  refine FrameOut.next ?_
  refine Frame.under (notificationTx_only _ _) (by simp) ?_
  exact Frame.refl _ _

/-- What `opBegin` can change. -/
theorem opBegin_only (p : HostPort) (k : Fin 16) (op : Nat) (a b : Word) (s : State) : Frame [.time, .free, .events, .board, .host, .power, .clock, .mode, .key, .mesh, .laneA, .laneB, .sramA, .sramB, .sram, .gate, .claim, .net, .timebase, .can, .fio, .plk, .wear, .outbox] s (opBegin p k op a b s) := by
  unfold opBegin
  split
  · split
    · refine Frame.under (Frame.snd (by assumption) (hostAccess_only _ _ _ _ _)) (by simp) ?_
      exact Frame.refl _ _
    · refine Frame.under (postResult_only _ _ _ _ _ _) (by simp) ?_
      refine Frame.under (Frame.snd (by assumption) (hostAccess_only _ _ _ _ _)) (by simp) ?_
      exact Frame.refl _ _
  · refine Frame.under (sendNet_only _ _ _ _) (by simp) ?_
    exact Frame.refl _ _
  · exact Frame.refl _ _

/-- What `opStart` can change. -/
theorem opStart_only (p : HostPort) (h : HostRequest) (s : State) : Frame [.time, .free, .events, .board, .host, .power, .clock, .mode, .key, .mesh, .laneA, .laneB, .sramA, .sramB, .sram, .gate, .claim, .net, .timebase, .can, .fio, .plk, .wear, .outbox] s (opStart p h s) := by
  unfold opStart
  dsimp only
  split
  · refine Frame.under (respond_only _ _ _ _ _) (by simp) ?_
    refine Frame.under (raise_only _ _ _) (by simp) ?_
    exact Frame.refl _ _
  · split
    · refine Frame.under (respond_only _ _ _ _ _) (by simp) ?_
      exact Frame.refl _ _
    · split
      · refine Frame.under (respond_only _ _ _ _ _) (by simp) ?_
        exact Frame.refl _ _
      · split
        · refine Frame.under (respond_only _ _ _ _ _) (by simp) ?_
          exact Frame.refl _ _
        · refine Frame.under (opBegin_only _ _ _ _ _ _) (by simp) ?_
          refine Frame.under (respond_only _ _ _ _ _) (by simp) ?_
          refine Frame.under (modMbox_only _ _ _) (by simp) ?_
          exact Frame.refl _ _

/-- What `opRow` can change. -/
theorem opRow_only (p : HostPort) (n : Nat) (r : HostRequest) (s : State) : FrameOut [.time, .free, .events, .board, .host, .power, .clock, .mode, .key, .mesh, .laneA, .laneB, .sramA, .sramB, .sram, .gate, .claim, .net, .timebase, .can, .fio, .plk, .wear, .outbox] s (opRow p n r s) := by
  unfold opRow
  refine FrameOut.next ?_
  unfold runRequest
  split
  · exact Frame.refl _ _
  · split
    · refine Frame.under (acceptRequest_only _ _ _) (by simp) ?_
      exact Frame.refl _ _
    · split
      · split
        · refine Frame.under (opStart_only _ _ _) (by simp) ?_
          exact Frame.refl _ _
        · refine Frame.under (acceptRequest_only _ _ _) (by simp) ?_
          exact Frame.refl _ _
      · dsimp only
        split
        · split
          · refine Frame.under (opStart_only _ _ _) (by simp) ?_
            refine Frame.under (acceptRequest_only _ _ _) (by simp) ?_
            exact Frame.refl _ _
          · refine Frame.under (acceptRequest_only _ _ _) (by simp) ?_
            exact Frame.refl _ _
        · refine Frame.under (acceptRequest_only _ _ _) (by simp) ?_
          exact Frame.refl _ _

/-- What `execOpCopy` can change. -/
theorem execOpCopy_only (p : HostPort) (tag : Half) (mb : Byte) (force : Bool) (a0 a1 a2 : Word) (s : State) : FrameOut [.time, .free, .events, .board, .host, .power, .clock, .mode, .key, .mesh, .laneA, .laneB, .sramA, .sramB, .sram, .gate, .claim, .net, .timebase, .can, .fio, .plk, .wear, .outbox] s (execOpCopy p tag mb force a0 a1 a2 s) := by
  unfold execOpCopy
  refine FrameOut.under (opRow_only _ _ _ _) (by simp) ?_
  exact Frame.refl _ _

/-- What `execOpCrc` can change. -/
theorem execOpCrc_only (p : HostPort) (tag : Half) (mb : Byte) (force : Bool) (a0 a1 : Word) (s : State) : FrameOut [.time, .free, .events, .board, .host, .power, .clock, .mode, .key, .mesh, .laneA, .laneB, .sramA, .sramB, .sram, .gate, .claim, .net, .timebase, .can, .fio, .plk, .wear, .outbox] s (execOpCrc p tag mb force a0 a1 s) := by
  unfold execOpCrc
  refine FrameOut.under (opRow_only _ _ _ _) (by simp) ?_
  exact Frame.refl _ _

/-- What `execOpSnapshot` can change. -/
theorem execOpSnapshot_only (p : HostPort) (tag : Half) (mb : Byte) (force : Bool) (a0 a1 a2 : Word) (s : State) : FrameOut [.time, .free, .events, .board, .host, .power, .clock, .mode, .key, .mesh, .laneA, .laneB, .sramA, .sramB, .sram, .gate, .claim, .net, .timebase, .can, .fio, .plk, .wear, .outbox] s (execOpSnapshot p tag mb force a0 a1 a2 s) := by
  unfold execOpSnapshot
  refine FrameOut.under (opRow_only _ _ _ _) (by simp) ?_
  exact Frame.refl _ _

/-- What `execOpCkptCopy` can change. -/
theorem execOpCkptCopy_only (p : HostPort) (tag : Half) (mb : Byte) (force : Bool) (a0 a1 a2 : Word) (s : State) : FrameOut [.time, .free, .events, .board, .host, .power, .clock, .mode, .key, .mesh, .laneA, .laneB, .sramA, .sramB, .sram, .gate, .claim, .net, .timebase, .can, .fio, .plk, .wear, .outbox] s (execOpCkptCopy p tag mb force a0 a1 a2 s) := by
  unfold execOpCkptCopy
  refine FrameOut.under (opRow_only _ _ _ _) (by simp) ?_
  exact Frame.refl _ _

/-- What `execOpRecWait` can change. -/
theorem execOpRecWait_only (p : HostPort) (tag : Half) (mb : Byte) (force : Bool) (a0 a1 : Word) (s : State) : FrameOut [.time, .free, .events, .board, .host, .power, .clock, .mode, .key, .mesh, .laneA, .laneB, .sramA, .sramB, .sram, .gate, .claim, .net, .timebase, .can, .fio, .plk, .wear, .outbox] s (execOpRecWait p tag mb force a0 a1 s) := by
  unfold execOpRecWait
  refine FrameOut.under (opRow_only _ _ _ _) (by simp) ?_
  exact Frame.refl _ _

/-- What `execOpMeshSnap` can change. -/
theorem execOpMeshSnap_only (p : HostPort) (tag : Half) (mb : Byte) (force : Bool) (a0 : Word) (s : State) : FrameOut [.time, .free, .events, .board, .host, .power, .clock, .mode, .key, .mesh, .laneA, .laneB, .sramA, .sramB, .sram, .gate, .claim, .net, .timebase, .can, .fio, .plk, .wear, .outbox] s (execOpMeshSnap p tag mb force a0 s) := by
  unfold execOpMeshSnap
  refine FrameOut.under (opRow_only _ _ _ _) (by simp) ?_
  exact Frame.refl _ _

/-- What `execOpCanSend` can change. -/
theorem execOpCanSend_only (p : HostPort) (tag : Half) (mb : Byte) (force : Bool) (a0 a1 a2 : Word) (s : State) : FrameOut [.time, .free, .events, .board, .host, .power, .clock, .mode, .key, .mesh, .laneA, .laneB, .sramA, .sramB, .sram, .gate, .claim, .net, .timebase, .can, .fio, .plk, .wear, .outbox] s (execOpCanSend p tag mb force a0 a1 a2 s) := by
  unfold execOpCanSend
  refine FrameOut.under (opRow_only _ _ _ _) (by simp) ?_
  exact Frame.refl _ _

/-- What `execOpNetEcho` can change. -/
theorem execOpNetEcho_only (p : HostPort) (tag : Half) (mb : Byte) (force : Bool) (a0 a1 : Word) (s : State) : FrameOut [.time, .free, .events, .board, .host, .power, .clock, .mode, .key, .mesh, .laneA, .laneB, .sramA, .sramB, .sram, .gate, .claim, .net, .timebase, .can, .fio, .plk, .wear, .outbox] s (execOpNetEcho p tag mb force a0 a1 s) := by
  unfold execOpNetEcho
  refine FrameOut.under (opRow_only _ _ _ _) (by simp) ?_
  exact Frame.refl _ _

/-- What `opCopies` can change. -/
theorem opCopies_only (m : Master) : ∀ (n src dst cnt : Nat) (s : State), Frame [.time, .free, .events, .board, .host, .power, .clock, .mode, .key, .mesh, .laneA, .laneB, .sramA, .sramB, .sram, .gate, .claim, .net, .timebase, .can, .fio, .plk, .wear] s (opCopies m n src dst cnt s).after
  | 0, _, _, _, _ => Frame.refl _ _
  | n + 1, src, dst, cnt, s => by
    unfold opCopies
    split
    · split
      · exact (((Frame.snd (by assumption) (hostAccess_only _ _ _ _ _)).mono (by simp)).comp ((Frame.snd (by assumption) (hostAccess_only _ _ _ _ _)).mono (by simp))).comp (opCopies_only m n _ _ _ _)
      · exact ((Frame.snd (by assumption) (hostAccess_only _ _ _ _ _)).mono (by simp)).comp ((Frame.snd (by assumption) (hostAccess_only _ _ _ _ _)).mono (by simp))
    · exact Frame.refl _ _
    · exact (Frame.snd (by assumption) (hostAccess_only _ _ _ _ _)).mono (by simp)

/-- What `opReads` can change. -/
theorem opReads_only (m : Master) : ∀ (n a : Nat) (got : List Byte) (s : State), Frame [.time, .free, .events, .board, .host, .power, .clock, .mode, .key, .mesh, .laneA, .laneB, .sramA, .sramB, .sram, .gate, .claim, .net, .timebase, .can, .fio, .plk, .wear] s (opReads m n a got s).after
  | 0, _, _, _ => Frame.refl _ _
  | n + 1, a, got, s => by
    unfold opReads
    split
    · exact ((Frame.snd (by assumption) (hostAccess_only _ _ _ _ _)).mono (by simp)).comp (opReads_only m n _ _ _)
    · exact Frame.refl _ _
    · exact (Frame.snd (by assumption) (hostAccess_only _ _ _ _ _)).mono (by simp)

/-- What `opStores` can change. -/
theorem opStores_only (m : Master) : ∀ (a cnt : Nat) (ws : List Word) (s : State), Frame [.time, .free, .events, .board, .host, .power, .clock, .mode, .key, .mesh, .laneA, .laneB, .sramA, .sramB, .sram, .gate, .claim, .net, .timebase, .can, .fio, .plk, .wear] s (opStores m a cnt ws s).2.2
  | _, _, [], _ => Frame.refl _ _
  | a, cnt, w :: ws, s => by
    unfold opStores
    split
    · exact ((Frame.snd (by assumption) (hostAccess_only _ _ _ _ _)).mono (by simp)).comp (opStores_only m _ _ ws _)
    · exact (Frame.snd (by assumption) (hostAccess_only _ _ _ _ _)).mono (by simp)

/-- What `opUnits` can change. -/
theorem opUnits_only (m : Master) (a unit most : Nat) (ws : List Word) (s : State) : Frame [.time, .free, .events, .board, .host, .power, .clock, .mode, .key, .mesh, .laneA, .laneB, .sramA, .sramB, .sram, .gate, .claim, .net, .timebase, .can, .fio, .plk, .wear] s (opUnits m a unit most ws s).2.2 := by
  unfold opUnits
  dsimp only
  refine Frame.under (opStores_only _ _ _ _ _) (by simp) ?_
  exact Frame.refl _ _

/-- What `opWork` can change. -/
theorem opWork_only (o : RunningOp) (most : Nat) (s : State) : Frame [.time, .free, .events, .board, .host, .power, .clock, .mode, .key, .mesh, .laneA, .laneB, .sramA, .sramB, .sram, .gate, .claim, .net, .timebase, .can, .fio, .plk, .wear] s (opWork o most s).after := by
  unfold opWork
  dsimp only
  split
  · refine Frame.under (opCopies_only _ _ _ _ _ _) (by simp) ?_
    exact Frame.refl _ _
  · refine Frame.under (opReads_only _ _ _ _ _) (by simp) ?_
    exact Frame.refl _ _
  · dsimp only
    refine Frame.under (opUnits_only _ _ _ _ _ _) (by simp) ?_
    exact Frame.refl _ _
  · dsimp only
    refine Frame.under (opUnits_only _ _ _ _ _ _) (by simp) ?_
    exact Frame.refl _ _
  · dsimp only
    refine Frame.under (opUnits_only _ _ _ _ _ _) (by simp) ?_
    exact Frame.refl _ _
  · dsimp only
    exact Frame.refl _ _

/-- What `opComplete` can change. -/
theorem opComplete_only (k : Fin 16) (echoUs : Nat) (s : State) : Frame [.time, .free, .events, .board, .host, .power, .clock, .mode, .key, .mesh, .laneA, .laneB, .sramA, .sramB, .sram, .gate, .claim, .net, .timebase, .can, .fio, .plk, .wear] s (opComplete k echoUs s) := by
  unfold opComplete
  split
  · exact Frame.refl _ _
  · split
    · exact Frame.refl _ _
    · split
      · split
        · exact Frame.refl _ _
        · refine Frame.under (postResult_only _ _ _ _ _ _) (by simp) ?_
          refine Frame.under (elapseTo_only _ _) (by simp) ?_
          exact Frame.refl _ _
      · dsimp only
        split
        · exact Frame.refl _ _
        · refine Frame.under (postResult_only _ _ _ _ _ _) (by simp) ?_
          refine Frame.under (opWork_only _ _ _) (by simp) ?_
          exact Frame.refl _ _

/-- What `execOperationComplete` can change. -/
theorem execOperationComplete_only (mb : Fin 16) (echoUs : Nat) (s : State) : FrameOut [.time, .free, .events, .board, .host, .power, .clock, .mode, .key, .mesh, .laneA, .laneB, .sramA, .sramB, .sram, .gate, .claim, .net, .timebase, .can, .fio, .plk, .wear] s (execOperationComplete mb echoUs s) := by
  unfold execOperationComplete
  refine FrameOut.next ?_
  refine Frame.under (opComplete_only _ _ _) (by simp) ?_
  exact Frame.refl _ _

/-- What `opExpire` can change. -/
theorem opExpire_only (k : Fin 16) (s : State) : Frame [.time, .events, .board, .host] s (opExpire k s) := by
  unfold opExpire
  split
  · exact Frame.refl _ _
  · split
    · exact Frame.refl _ _
    · split
      · exact Frame.refl _ _
      · refine Frame.under (postResult_only _ _ _ _ _ _) (by simp) ?_
        refine Frame.under (elapseTo_only _ _) (by simp) ?_
        exact Frame.refl _ _

/-- What `execOperationTimeout` can change. -/
theorem execOperationTimeout_only (mb : Fin 16) (s : State) : FrameOut [.time, .events, .board, .host] s (execOperationTimeout mb s) := by
  unfold execOperationTimeout
  refine FrameOut.next ?_
  refine Frame.under (opExpire_only _ _) (by simp) ?_
  exact Frame.refl _ _

/-- What `resultCmd` can change. -/
theorem resultCmd_only (p : HostPort) (h : HostRequest) (s : State) : Frame [.board, .host, .net, .outbox] s (resultCmd p h s) := by
  unfold resultCmd
  dsimp only
  split
  · refine Frame.under (respond_only _ _ _ _ _) (by simp) ?_
    exact Frame.refl _ _
  · refine Frame.under (respond_only _ _ _ _ _) (by simp) ?_
    refine Frame.under (markRead_only _ _) (by simp) ?_
    exact Frame.refl _ _

/-- What `execResult` can change. -/
theorem execResult_only (p : HostPort) (tag : Half) (mb : Word) (s : State) : FrameOut [.events, .board, .host, .net, .outbox] s (execResult p tag mb s) := by
  unfold execResult
  dsimp only
  refine FrameOut.next ?_
  unfold runRequest
  split
  · exact Frame.refl _ _
  · split
    · refine Frame.under (acceptRequest_only _ _ _) (by simp) ?_
      exact Frame.refl _ _
    · split
      · split
        · refine Frame.under (resultCmd_only _ _ _) (by simp) ?_
          exact Frame.refl _ _
        · refine Frame.under (acceptRequest_only _ _ _) (by simp) ?_
          exact Frame.refl _ _
      · dsimp only
        split
        · split
          · refine Frame.under (resultCmd_only _ _ _) (by simp) ?_
            refine Frame.under (acceptRequest_only _ _ _) (by simp) ?_
            exact Frame.refl _ _
          · refine Frame.under (acceptRequest_only _ _ _) (by simp) ?_
            exact Frame.refl _ _
        · refine Frame.under (acceptRequest_only _ _ _) (by simp) ?_
          exact Frame.refl _ _

/-- What `boltCmd` can change. -/
theorem boltCmd_only (p : HostPort) (h : HostRequest) (s : State) : Frame [.events, .board, .host, .net, .outbox] s (boltCmd p h s) := by
  unfold boltCmd
  dsimp only
  split
  · refine Frame.under (reply_only _ _ _ _ _) (by simp) ?_
    exact Frame.refl _ _
  · split
    · refine Frame.under (reply_only _ _ _ _ _) (by simp) ?_
      refine Frame.under (raise_only _ _ _) (by simp) ?_
      exact Frame.refl _ _
    · split
      · refine Frame.under (reply_only _ _ _ _ _) (by simp) ?_
        exact Frame.refl _ _
      · split
        · refine Frame.under (decideBolt_only _ _) (by simp) ?_
          exact Frame.refl _ _
        · refine Frame.under (reply_only _ _ _ _ _) (by simp) ?_
          refine Frame.under (decideBolt_only _ _) (by simp) ?_
          exact Frame.refl _ _

/-- What `deadboltCmd` can change. -/
theorem deadboltCmd_only (p : HostPort) (r : HostRequest) (s : State) : Frame [.events, .board, .host, .net, .outbox] s (deadboltCmd p r s) := by
  unfold deadboltCmd
  split
  · exact Frame.refl _ _
  · split
    · refine Frame.under (boltCmd_only _ _ _) (by simp) ?_
      refine Frame.under (modHostPort_only _ _ _) (by simp) ?_
      exact Frame.refl _ _
    · split
      · refine Frame.under (boltCmd_only _ _ _) (by simp) ?_
        exact Frame.refl _ _
      · refine Frame.under (raise_only _ _ _) (by simp) ?_
        exact Frame.refl _ _

/-- What `execDeadbolt` can change. -/
theorem execDeadbolt_only (p : HostPort) (tag : Half) (target : Word) (s : State) : FrameOut [.events, .board, .host, .net, .outbox] s (execDeadbolt p tag target s) := by
  unfold execDeadbolt
  refine FrameOut.next ?_
  refine Frame.under (deadboltCmd_only _ _ _) (by simp) ?_
  exact Frame.refl _ _

/-- What `abortOp` can change. -/
theorem abortOp_only (k : Fin 16) (done : Nat) (s : State) : Frame [.time, .free, .events, .board, .host, .power, .clock, .mode, .key, .mesh, .laneA, .laneB, .sramA, .sramB, .sram, .gate, .claim, .net, .timebase, .can, .fio, .plk, .wear] s (abortOp k done s) := by
  unfold abortOp
  split
  · exact Frame.refl _ _
  · split
    · refine Frame.under (postResult_only _ _ _ _ _ _) (by simp) ?_
      exact Frame.refl _ _
    · dsimp only
      refine Frame.under (postResult_only _ _ _ _ _ _) (by simp) ?_
      refine Frame.under (canTxabort_only _ _ _) (by simp) ?_
      exact Frame.refl _ _
    · refine Frame.under (postResult_only _ _ _ _ _ _) (by simp) ?_
      exact Frame.refl _ _
    · dsimp only
      refine Frame.under (postResult_only _ _ _ _ _ _) (by simp) ?_
      refine Frame.under (opWork_only _ _ _) (by simp) ?_
      exact Frame.refl _ _

/-- What `boltOver` can change. -/
theorem boltOver_only (b : PendingBolt) (s : State) : Frame [.events, .board, .host, .net, .outbox] s (boltOver b s) := by
  unfold boltOver
  dsimp only
  split
  · refine Frame.under (raise_only _ _ _) (by simp) ?_
    refine Frame.under (boltResult_only _ _ _) (by simp) ?_
    exact Frame.refl _ _
  · refine Frame.under (reply_only _ _ _ _ _) (by simp) ?_
    refine Frame.under (raise_only _ _ _) (by simp) ?_
    refine Frame.under (boltResult_only _ _ _) (by simp) ?_
    exact Frame.refl _ _

/-- What `deadboltAbort` can change. -/
theorem deadboltAbort_only (done : Nat) (s0 : State) : Frame [.time, .free, .events, .board, .host, .power, .clock, .mode, .key, .mesh, .laneA, .laneB, .sramA, .sramB, .sram, .gate, .claim, .net, .timebase, .can, .fio, .plk, .wear, .outbox] s0 (deadboltAbort done s0) := by
  unfold deadboltAbort
  split
  · exact Frame.refl _ _
  · split
    dsimp only
    refine Frame.comp ?_ (Frame.foldS _ _ _ fun _ _ => ?_)
    · refine Frame.under (modHost_only _ _) (by simp) ?_
      split
      · refine Frame.under (abortKey_only _) (by simp) ?_
        refine Frame.under (elapseTo_only _ _) (by simp) ?_
        refine Frame.under (Frame.snd (by assumption) (takeFree_only _)) (by simp) ?_
        exact Frame.refl _ _
      · refine Frame.under (abortOp_only _ _ _) (by simp) ?_
        refine Frame.under (elapseTo_only _ _) (by simp) ?_
        refine Frame.under (Frame.snd (by assumption) (takeFree_only _)) (by simp) ?_
        exact Frame.refl _ _
    · refine Frame.under (boltOver_only _ _) (by simp) ?_
      exact Frame.refl _ _

/-- What `execDeadboltAbort` can change. -/
theorem execDeadboltAbort_only (done : Nat) (s : State) : FrameOut [.time, .free, .events, .board, .host, .power, .clock, .mode, .key, .mesh, .laneA, .laneB, .sramA, .sramB, .sram, .gate, .claim, .net, .timebase, .can, .fio, .plk, .wear, .outbox] s (execDeadboltAbort done s) := by
  unfold execDeadboltAbort
  refine FrameOut.next ?_
  refine Frame.under (deadboltAbort_only _ _) (by simp) ?_
  exact Frame.refl _ _

/-- What `dropStall` can change. -/
theorem dropStall_only (m : Master) (s : State) : Frame [.mesh] s (dropStall m s) := by
  unfold dropStall
  refine Frame.under (modMesh_only _ _) (by simp) ?_
  exact Frame.refl _ _

/-- What `resume` can change. -/
theorem resume_only (t : MeshStall) (w : Word) (s : State) : Frame [.time, .free, .events, .board, .host, .power, .clock, .mode, .key, .mesh, .laneA, .laneB, .sramA, .sramB, .sram, .gate, .claim, .net, .timebase, .can, .fio, .plk, .wear, .outbox] s (resume t w s) := by
  unfold resume
  dsimp only
  split
  · unfold finishAccess
    split
    · refine Frame.under (send_only _ _) (by simp) ?_
      refine Frame.under (readWords_only _ _ _ _ _) (by simp) ?_
      exact Frame.refl _ _
    · refine Frame.under (modMesh_only _ _) (by simp) ?_
      refine Frame.under (readWords_only _ _ _ _ _) (by simp) ?_
      exact Frame.refl _ _
    · refine Frame.under (send_only _ _) (by simp) ?_
      refine Frame.under (readWords_only _ _ _ _ _) (by simp) ?_
      exact Frame.refl _ _
  · split
    · exact Frame.refl _ _
    · refine Frame.under (hostRead_only _ _ _ _ _ _) (by simp) ?_
      exact Frame.refl _ _

/-- What `wakeLock` can change. -/
theorem wakeLock_only (m : Master) (n : Fin 64) (s : State) : Frame [.time, .free, .events, .board, .host, .power, .clock, .mode, .key, .mesh, .laneA, .laneB, .sramA, .sramB, .sram, .gate, .claim, .net, .timebase, .can, .fio, .plk, .wear, .outbox] s (wakeLock m n s) := by
  unfold wakeLock
  dsimp only
  split
  · exact Frame.refl _ _
  · split
    · unfold answer
      split
      · dsimp only
        refine Frame.under (modLock_only _ _ _) (by simp) ?_
        exact Frame.refl _ _
      · refine Frame.under (send_only _ _) (by simp) ?_
        dsimp only
        refine Frame.under (modLock_only _ _ _) (by simp) ?_
        exact Frame.refl _ _
    · refine Frame.under (resume_only _ _ _) (by simp) ?_
      refine Frame.under (dropStall_only _ _) (by simp) ?_
      refine Frame.under (modLock_only _ _ _) (by simp) ?_
      exact Frame.refl _ _

/-- What `execLockWaitAcquired` can change. -/
theorem execLockWaitAcquired_only (m : Master) (n : Fin 64) (s : State) : FrameOut [.time, .free, .events, .board, .host, .power, .clock, .mode, .key, .mesh, .laneA, .laneB, .sramA, .sramB, .sram, .gate, .claim, .net, .timebase, .can, .fio, .plk, .wear, .outbox] s (execLockWaitAcquired m n s) := by
  unfold execLockWaitAcquired
  unfold byMaster
  split
  · refine FrameOut.next ?_
    refine Frame.under (wakeLock_only _ _ _) (by simp) ?_
    exact Frame.refl _ _
  · exact FrameOut.fault _ _ _

/-- What `abortLockRead` can change. -/
theorem abortLockRead_only (v : Master) (n : Fin 64) (s : State) : Frame [.board, .host, .mesh, .net, .outbox] s (abortLockRead v n s) := by
  unfold abortLockRead
  dsimp only
  split
  · split
    · refine Frame.under (send_only _ _) (by simp) ?_
      refine Frame.under (dropStall_only _ _) (by simp) ?_
      refine Frame.under (modLock_only _ _ _) (by simp) ?_
      exact Frame.refl _ _
    · split
      · refine Frame.under (dropStall_only _ _) (by simp) ?_
        refine Frame.under (modLock_only _ _ _) (by simp) ?_
        exact Frame.refl _ _
      · refine Frame.under (respond_only _ _ _ _ _) (by simp) ?_
        refine Frame.under (dropStall_only _ _) (by simp) ?_
        refine Frame.under (modLock_only _ _ _) (by simp) ?_
        exact Frame.refl _ _
  · refine Frame.under (send_only _ _) (by simp) ?_
    refine Frame.under (dropStall_only _ _) (by simp) ?_
    refine Frame.under (modLock_only _ _ _) (by simp) ?_
    exact Frame.refl _ _

/-- What `abortTransfer` can change. -/
theorem abortTransfer_only (w : MeshWait) (s : State) : Frame [.mesh, .outbox] s (abortTransfer w s) := by
  unfold abortTransfer
  refine Frame.under (send_only _ _) (by simp) ?_
  refine Frame.under (modMesh_only _ _) (by simp) ?_
  exact Frame.refl _ _

/-- What `supervisorRetry` can change. -/
theorem supervisorRetry_only (w : MeshWait) (s : State) : Frame [.mesh] s (supervisorRetry w s) := by
  unfold supervisorRetry
  split
  · exact Frame.refl _ _
  · refine Frame.under (modMesh_only _ _) (by simp) ?_
    exact Frame.refl _ _

/-- What `abortWait` can change. -/
theorem abortWait_only (v : Master) (flow : List (Master × BitVec 6)) (s : State) : Frame [.board, .host, .mesh, .net, .outbox] s (abortWait v flow s) := by
  unfold abortWait
  split
  · split
    refine Frame.under (supervisorRetry_only _ _) (by simp) ?_
    refine Frame.under (abortLockRead_only _ _ _) (by simp) ?_
    exact Frame.refl _ _
  · split
    · refine Frame.under (supervisorRetry_only _ _) (by simp) ?_
      refine Frame.under (abortTransfer_only _ _) (by simp) ?_
      exact Frame.refl _ _
    · exact Frame.refl _ _

/-- What `retryDue` can change. -/
theorem retryDue_only (s : State) : Frame [.mesh] s (retryDue s) := by
  unfold retryDue
  refine Frame.under (modMesh_only _ _) (by simp) ?_
  exact Frame.refl _ _

/-- What `breakCircle` can change. -/
theorem breakCircle_only (c : List Master) (flow : List (Master × BitVec 6)) (s : State) : Frame [.events, .board, .host, .mesh, .net, .outbox] s (breakCircle c flow s) := by
  unfold breakCircle
  split
  · exact Frame.refl _ _
  · dsimp only
    refine Frame.under (raise_only _ _ _) (by simp) ?_
    refine Frame.under (modMesh_only _ _) (by simp) ?_
    refine Frame.under (abortWait_only _ _ _) (by simp) ?_
    exact Frame.refl _ _

/-- What `execCycleProbe` can change. -/
theorem execCycleProbe_only (flow : List (Master × BitVec 6)) (s : State) : FrameOut [.time, .events, .board, .host, .mesh, .net, .outbox] s (execCycleProbe flow s) := by
  unfold execCycleProbe
  dsimp only
  refine FrameOut.next ?_
  split
  · refine Frame.under (retryDue_only _) (by simp) ?_
    refine Frame.under (periodic_only _ _ _) (by simp) ?_
    exact Frame.refl _ _
  · refine Frame.under (breakCircle_only _ _ _) (by simp) ?_
    refine Frame.under (retryDue_only _) (by simp) ?_
    refine Frame.under (periodic_only _ _ _) (by simp) ?_
    exact Frame.refl _ _

end Sys2Proof.Machine
end

