-- ==== Sys2Proof/Laws/Sparse.lean ====
section
/-! SUPPORT. Sparse memories: a write keeps the canonical form, is read back, and leaves every other place alone. -/

namespace Sys2Proof.Machine

variable {α : Type} [DecidableEq α]

/-- The canonical form above a bound is the one above every lower bound. -/
theorem sparseWfFrom_mono (d : α) (m : List (Nat × α)) (a b : Nat) (hab : a ≤ b) (h : sparseWfFrom d (some b) m = true) :
    sparseWfFrom d (some a) m = true := by
  cases m with
  | nil => rfl
  | cons e m =>
    simp only [sparseWfFrom, Bool.and_eq_true, decide_eq_true_eq] at h ⊢
    exact ⟨⟨by omega, h.1.2⟩, h.2⟩

/-- The canonical form above a bound is a canonical form. -/
theorem sparseWfFrom_none (d : α) (m : List (Nat × α)) (b : Option Nat) (h : sparseWfFrom d b m = true) :
    sparseWfFrom d none m = true := by
  cases b with
  | none => exact h
  | some b =>
    cases m with
    | nil => rfl
    | cons e m =>
      simp only [sparseWfFrom, Bool.and_eq_true, decide_eq_true_eq] at h ⊢
      exact ⟨h.1.2, h.2⟩

/-- A write above the bound keeps the canonical form above it. -/
theorem sparsePut_wfFrom (d : α) (m : List (Nat × α)) (b : Option Nat) (k : Nat) (v : α) (hb : ∀ x, b = some x → x < k)
    (h : sparseWfFrom d b m = true) : sparseWfFrom d b (sparsePut d m k v) = true := by
  induction m generalizing b with
  | nil =>
    by_cases hv : v = d
    · simp [sparsePut, hv, sparseWfFrom]
    · cases b with
      | none => simp [sparsePut, hv, sparseWfFrom]
      | some x => simp [sparsePut, hv, sparseWfFrom, hb x rfl]
  | cons e m ih =>
    obtain ⟨a, x⟩ := e
    have h0 : x ≠ d ∧ sparseWfFrom d (some a) m = true ∧ (∀ y, b = some y → y < a) := by
      cases b with
      | none => simp only [sparseWfFrom, Bool.and_eq_true, decide_eq_true_eq] at h; exact ⟨h.1, h.2, by simp⟩
      | some y =>
        simp only [sparseWfFrom, Bool.and_eq_true, decide_eq_true_eq] at h
        exact ⟨h.1.2, h.2, by intro z hz; cases hz; exact h.1.1⟩
    have cons (c : Nat) (z : α) (l : List (Nat × α)) (hc : ∀ y, b = some y → y < c) (hz : z ≠ d)
        (hl : sparseWfFrom d (some c) l = true) : sparseWfFrom d b ((c, z) :: l) = true := by
      cases b with
      | none => simp [sparseWfFrom, hz, hl]
      | some y => simp [sparseWfFrom, hz, hl, hc y rfl]
    unfold sparsePut
    split
    · split
      · exact h
      · exact cons _ _ _ hb ‹_› (by simp [sparseWfFrom, h0.1, h0.2.1, *])
    · split
      · split
        · cases b with
          | none => exact sparseWfFrom_none d m _ h0.2.1
          | some y => exact sparseWfFrom_mono d m y a (Nat.le_of_lt (h0.2.2 y rfl)) h0.2.1
        · rename_i hk hv
          subst hk
          exact cons _ _ _ hb hv h0.2.1
      · exact cons _ _ _ h0.2.2 h0.1 (ih (some a) (by intro z hz; cases hz; omega) h0.2.1)

/-- A write keeps the canonical form. -/
theorem sparsePut_wf (d : α) (m : List (Nat × α)) (k : Nat) (v : α) (h : sparseWf d m = true) :
    sparseWf d (sparsePut d m k v) = true := sparsePut_wfFrom d m none k v (by simp) h

/-- Consecutive writes keep the canonical form. -/
theorem sparsePutAll_wf (d : α) (m : List (Nat × α)) (k : Nat) (xs : List α) (h : sparseWf d m = true) :
    sparseWf d (sparsePutAll d m k xs) = true := by
  induction xs generalizing m k with
  | nil => exact h
  | cons x xs ih => exact ih _ _ (sparsePut_wf d m k x h)

/-- Bytes written one after another into a canonical memory leave it canonical. -/
theorem sparsePut_foldl_wf (d : α) (bs : List (Nat × α)) (m : List (Nat × α)) (h : sparseWf d m = true) :
    sparseWf d (bs.foldl (fun m e => sparsePut d m e.1 e.2) m) = true := by
  induction bs generalizing m with
  | nil => exact h
  | cons e r ih => exact ih _ (sparsePut_wf d m e.1 e.2 h)

/-- Nothing is listed below the bound of a canonical form. -/
theorem sparseGet_below (d : α) (m : List (Nat × α)) (b k : Nat) (hk : k ≤ b) (h : sparseWfFrom d (some b) m = true) :
    sparseGet d m k = d := by
  induction m generalizing b with
  | nil => rfl
  | cons e m ih =>
    simp only [sparseWfFrom, Bool.and_eq_true, decide_eq_true_eq] at h
    have : e.1 ≠ k := by omega
    simp only [sparseGet, this, if_false]
    exact ih e.1 (by omega) h.2

/-- A write leaves every other place alone. -/
theorem sparseGet_put_other (d : α) (m : List (Nat × α)) (k j : Nat) (v : α) (hj : j ≠ k) :
    sparseGet d (sparsePut d m k v) j = sparseGet d m j := by
  have hk : ¬ k = j := fun h => hj h.symm
  induction m with
  | nil => by_cases hv : v = d <;> simp [sparsePut, hv, sparseGet, hk]
  | cons e m ih =>
    obtain ⟨a, x⟩ := e
    unfold sparsePut
    split
    · split <;> simp [sparseGet, hk]
    · split
      · rename_i ha
        subst ha
        split <;> simp [sparseGet, hk]
      · simp only [sparseGet, ih]

/-- A write is read back. -/
theorem sparseGet_put (d : α) (m : List (Nat × α)) (k : Nat) (v : α) (h : sparseWf d m = true) :
    sparseGet d (sparsePut d m k v) k = v := by
  unfold sparseWf at h
  generalize hb : (none : Option Nat) = b at h
  clear hb
  induction m generalizing b with
  | nil => by_cases hv : v = d <;> simp [sparsePut, hv, sparseGet]
  | cons e m ih =>
    obtain ⟨a, x⟩ := e
    have h0 : sparseWfFrom d (some a) m = true := by
      cases b <;> simp only [sparseWfFrom, Bool.and_eq_true] at h <;> exact h.2
    unfold sparsePut
    split
    · rename_i hk
      split
      · rename_i hv
        have : ¬ a = k := by omega
        simp only [sparseGet, this, if_false, hv]
        exact sparseGet_below d m a k (by omega) h0
      · simp [sparseGet]
    · split
      · rename_i ha
        subst ha
        split
        · rename_i hv
          rw [hv]
          exact sparseGet_below d m k k (Nat.le_refl k) h0
        · simp [sparseGet]
      · rename_i ha
        have : ¬ a = k := fun h => ha h.symm
        simp only [sparseGet, this, if_false]
        exact ih (some a) h0

/-- A value that an unlisted place does not read is read back even from a list that is not canonical. -/
theorem sparseGet_put_ne (d : α) (m : List (Nat × α)) (k : Nat) (v : α) (hv : v ≠ d) :
    sparseGet d (sparsePut d m k v) k = v := by
  induction m with
  | nil => simp [sparsePut, hv, sparseGet]
  | cons e m ih =>
    obtain ⟨a, x⟩ := e
    unfold sparsePut
    simp only [if_neg hv]
    split
    · simp [sparseGet]
    · split
      · simp [sparseGet]
      · rename_i ha
        have : ¬ a = k := fun h => ha h.symm
        simp only [sparseGet, this, if_false, ih]

/-- Consecutive writes leave every place outside them alone. -/
theorem sparseGet_putAll_other (d : α) (m : List (Nat × α)) (k j : Nat) (xs : List α) (hj : j < k ∨ k + xs.length ≤ j) :
    sparseGet d (sparsePutAll d m k xs) j = sparseGet d m j := by
  induction xs generalizing m k with
  | nil => rfl
  | cons x xs ih =>
    simp only [List.length_cons] at hj
    rw [sparsePutAll, ih _ _ (by omega), sparseGet_put_other d m k j x (by omega)]

/-- Writes of two stretches, one behind the other, are one write. -/
theorem sparsePutAll_append (d : α) (m : List (Nat × α)) (k : Nat) (xs ys : List α) :
    sparsePutAll d m k (xs ++ ys) = sparsePutAll d (sparsePutAll d m k xs) (k + xs.length) ys := by
  induction xs generalizing m k with
  | nil => rfl
  | cons x xs ih =>
    rw [List.cons_append, sparsePutAll, sparsePutAll, ih, List.length_cons]
    congr 1
    omega

/-- Consecutive writes are read back. -/
theorem sparseGet_putAll (d : α) (m : List (Nat × α)) (k : Nat) (xs : List α) (i : Nat) (hi : i < xs.length)
    (h : sparseWf d m = true) : sparseGet d (sparsePutAll d m k xs) (k + i) = xs[i] := by
  induction xs generalizing m k i with
  | nil => simp at hi
  | cons x xs ih =>
    rw [sparsePutAll]
    cases i with
    | zero =>
      rw [sparseGet_putAll_other d _ _ _ _ (by omega)]
      exact sparseGet_put d m k x h
    | succ i =>
      have := ih (sparsePut d m k x) (k + 1) i (by simpa using hi) (sparsePut_wf d m k x h)
      rw [show k + (i + 1) = k + 1 + i by omega]
      simpa using this

omit [DecidableEq α] in
/-- What lies below a place does not matter to a read there. -/
theorem sparseGet_dropWhile (d : α) (m : List (Nat × α)) (k j : Nat) (hj : k ≤ j) :
    sparseGet d (m.dropWhile fun e => decide (e.1 < k)) j = sparseGet d m j := by
  induction m with
  | nil => rfl
  | cons e m ih =>
    by_cases h : e.1 < k
    · have : e.1 ≠ j := by omega
      simp [h, sparseGet, this, ih]
    · simp [h]

/-- The canonical form is kept where a front is dropped. -/
theorem sparseWfFrom_dropWhile (d : α) (m : List (Nat × α)) (b : Option Nat) (k : Nat) (h : sparseWfFrom d b m = true) :
    sparseWfFrom d none (m.dropWhile fun e => decide (e.1 < k)) = true := by
  induction m generalizing b with
  | nil => rfl
  | cons e m ih =>
    by_cases hk : e.1 < k
    · have h1 : sparseWfFrom d (some e.1) m = true := by
        cases b <;> simp only [sparseWfFrom, Bool.and_eq_true] at h <;> exact h.2
      simpa [List.dropWhile_cons, hk] using ih (some e.1) h1
    · simpa [List.dropWhile_cons, hk] using sparseWfFrom_none d (e :: m) b h

/-- Consecutive entries are the reads of their places. -/
theorem sparseRange_eq (d : α) (m : List (Nat × α)) (k n : Nat) (h : sparseWf d m = true) :
    sparseRange d m k n = (List.range n).map fun i => sparseGet d m (k + i) := by
  induction n generalizing m k with
  | zero => rfl
  | succ n ih =>
    have hw := sparseWfFrom_dropWhile d m none k h
    have hd : ∀ j, k ≤ j → sparseGet d (m.dropWhile fun e => decide (e.1 < k)) j = sparseGet d m j :=
      fun j hj => sparseGet_dropWhile d m k j hj
    have hf : ∀ e rest, (m.dropWhile fun e => decide (e.1 < k)) = e :: rest → k ≤ e.1 := by
      intro e rest he
      have := List.head_dropWhile_not (fun e : Nat × α => decide (e.1 < k)) (l := m) (by rw [he]; simp)
      simp only [he, List.head_cons, decide_eq_false_iff_not] at this
      omega
    simp only [sparseRange, ih _ (k + 1) hw, List.range_succ_eq_map, List.map_cons, List.map_map]
    congr 1
    · rw [Nat.add_zero, ← hd k (Nat.le_refl k)]
      generalize hm : (m.dropWhile fun e => decide (e.1 < k)) = m' at *
      match m' with
      | [] => rfl
      | (a, x) :: r =>
        have ha := hf (a, x) r rfl
        by_cases hak : a = k
        · simp [sparseGet, hak]
        · have : k ≤ a := ha
          simp only [hak, if_false, sparseGet]
          simp only [sparseWfFrom, Bool.and_eq_true] at hw
          exact (sparseGet_below d r a k ha hw.2).symm
    · apply List.map_congr_left
      intro i _
      rw [hd _ (by omega)]
      simp only [Function.comp, Nat.succ_eq_add_one]
      congr 1
      omega

end Sys2Proof.Machine
end

