-- ==== Sys2Proof/Tests/Slice0.lean ====
section
/-! SUPPORT. Tests: for every statement with hypotheses a concrete state and operands that meet them, clause by clause; one
ill-formed command for each check of WellFormed; single steps on small states. The witnesses are built from the state after
reset. -/

open Sys2Proof Sys2Proof.Machine

set_option maxRecDepth 20000
set_option linter.unreachableTactic false
set_option linter.unusedTactic false

namespace Sys2Proof.Tests

/-! ### Small states -/

def withRec (t i : Nat) (p : List Byte) (s : State) : State := { s with key := { s.key with records := [⟨t, i, p⟩] } }
def inMode (m : BitVec 4) (s : State) : State := { s with mode := { s.mode with mode := m, busy := false } }
def allOn (s : State) : State := { s with
  power := { s.power with powered := true }
  clock := { s.clock with tcxoP := true } }
def addRec (t i : Nat) (p : List Byte) (s : State) : State := { s with key := { s.key with records := s.key.records ++ [⟨t, i, p⟩] } }
def noRecs (s : State) : State := { s with key := { s.key with records := [] } }
def lanesUp (s : State) : State := { s with claim := { s.claim with
  a := { s.claim.a with health := .healthy, claim := 1 }
  b := { s.claim.b with health := .healthy, claim := 1 }
  ab := { s.claim.ab with up := true }
  ba := { s.claim.ba with up := true } } }
def setPin (l : Lane) (p : Fin 32) (x : PinState) (s : State) : State := modMeas l (fun m => { m with pin := m.pin.set p.val x }) s
def setCtx (l : Lane) (c : Fin 8) (x : EngCtx) (s : State) : State := modEng l (fun m => { m with ctx := m.ctx.set c.val x }) s
def pay (n : Nat) (xs : List (Nat × Byte)) : List Byte := xs.foldl (fun p e => p.set e.1 e.2) (List.replicate n 0)
def gPay : List Byte := pay 200 [(0, 200), (4, 0x00), (5, 0x10), (10, 8), (16, 1), (12, 1), (14, 1), (25, 0xFF), (24, 0xFF), (80, 1), (82, 4), (84, 1), (95, 2), (89, 0x10)]
def gOsc : List Byte := pay 200 [(0, 200), (10, 8), (16, 1), (24, 1), (26, 2), (28, 2), (80, 1), (82, 4)]
def setRa (l : Lane) (c : Fin 8) (x : RaCtx) (s : State) : State := modRa l (fun m => { m with ctx := m.ctx.set c.val x }) s
def clearEng (s : State) : State := { s with laneA := { s.laneA with eng := { s.laneA.eng with ctx := Vector.replicate 8 {} }, ra := { s.laneA.ra with ctx := Vector.replicate 8 {} } } }
def gfOn (s : State) : State := setCtx .a 2 { s.laneA.eng.ctx[2] with state := 2 } { s with
  mode := { s.mode with busy := false }
  claim := { s.claim with b := {}, a := {} } }
def setGen (l : Lane) (g : Fin 16) (x : GenState) (s : State) : State := modGen l g (fun _ => x) s
def setCh (c : Fin 32) (x : Channel) (s : State) : State := modCh c (fun _ => x) s
def cPay : List Byte := pay 32 [(2, 100), (8, 200), (11, 1), (14, 2), (16, 10), (18, 100)]
def fgPay : List Byte := pay 64 [(20, 1), (36, 2), (40, 2), (41, 1), (42, 3), (44, 65), (45, 1)]
def owner6 (s : State) : State := { s with key := { s.key with session := true, owner := 6 } }
def setLc (l : Lane) (x : LaneClaim) (s : State) : State := modLc l (fun _ => x) s
def locked (s : State) : State := { s with clock := { s.clock with
  net := { locked := true }
  isl := Vector.replicate 22 { own := .net } } }
def ready (s : State) : State := { locked s with power := { s.power with laneAPwr := true, laneBPwr := true } }
def pair (x y : LaneClaim) (s : State) : State := setLc .a x (setLc .b y s)
def seen (s : State) : State := { s with claim := { s.claim with seenA := s.claim.a.claim + 1, tum := s.claim.tum.set 31 {} } }
def net (m : Fin 4) (s : State) : State := { s with net := { s.net with on := true, stopped := false, mode := m, mac := 5, txSeq := 3, port := Vector.replicate 2 { link := true, speed := 2 } } }
def setDom (k : Fin 2) (x : TimeDomain) (s : State) : State := { s with time := { s.time with dom := s.time.dom.set k.val x } }
def setCan (p : Fin 2) (x : CanState) (s : State) : State := { s with can := s.can.set p.val x }
def fr (k : Fin 6) (q : Option Half) (n : Nat) (ok : Bool) : EthFrame :=
  { src := 9, dst := 5, seq := q, lenBytes := n, fcsOk := ok, kind := k, udpPort := 0, ipSrc := 0, payload := [1] }
def ann (g : Long) (p : Byte) : Announce :=
  { logInterval := 0, prio1 := p, clockClass := 6, accuracy := 0x20, variance := 0, prio2 := 128, gmId := g, steps := 1, utcOffset := 37, utcValid := true }
def cf (d : List Byte) : CanFrame := { id := 0x123, ide := false, fdf := false, brs := false, esi := false, rtr := false, dlc := 8, data := d }
def canUp (p : Fin 2) (x : CanState) (s : State) : State := withRec 0x78 p.val (pay 80 []) (inMode 4 (setCan p { x with absent := false } s))
def cb (x : CanState) (k : Fin 8) (y : CanTx) : CanState := { x with buf := x.buf.set k.val y }
def safe (r : List (Nat × Byte)) (s : State) : State := withRec 0xA0 0 (pay 200 r) (inMode 4 s)
def setPlk (f : PlkState → PlkState) (s : State) : State := { s with plk := f s.plk }
def setConn (k : Fin 8) (x : Conn) (s : State) : State := setPlk (fun p => { p with conn := p.conn.set k.val x }) s
def sfr (q con id texp flags : Nat) : List Byte :=
  let b := leBytes 1 1 ++ leBytes 1 1 ++ leBytes 2 q ++ leBytes 4 con ++ leBytes 4 id ++ leBytes 2 texp ++ leBytes 2 flags
  b ++ leBytes 4 (crc32c b)
def quiet (p : PlkState) : PlkState := { p with self := false, readback := false, pulse := false, startFail := false, pulseRun := false, maskUntil := 0, reduced := false, respRun := false, guardLow := none, lines := 0xFFFFFFFF }
def diHigh (n : Fin 16) (s : State) : State := { s with fio := { s.fio with on := true, linkOk := true, fs := 0, inp := s.fio.inp.set n.val { level := true, passed := true } } }
def clkOk (s : State) : State := { s with clock := { s.clock with safeRing := false, safeSrc := false } }
def rcd (l : Lane) (f : RecState → RecState) (s : State) : State := modRec l f s
def rpay : List Byte := pay 200 [(0, 3), (4, 4), (8, 2), (12, 1), (19, 2), (88, 9), (92, 116)]
def tb (s : State) : State := { s with raw := 1000, now := 1000 }
def seg8 (a b c d : Fin 4) : Vector (Fin 4) 8 := (((Vector.replicate 8 0).set 0 a |>.set 1 b).set 2 c).set 3 d
def hport (p : HostPort) (f : HostPortState → HostPortState) (s : State) : State := modHostPort p f s
def hostNet (s : State) : State := { s with net := { s.net with on := true, stopped := false, mode := 1, mac := 5, port := Vector.replicate 2 { link := true, speed := 2 } } }
def hostIdle (s : State) : State := hostNet (hport .hsp (fun x => { x with queue := [], out := [] }) (hport .net (fun x => { x with queue := [], out := [], store := [] }) (inMode 4 { s with mesh := { s.mesh with stalls := [], accOn := false }, host := { s.host with bolts := [] } })))
def setMb (k : Fin 16) (x : Mailbox) (s : State) : State := modHost (fun h => { h with mbox := h.mbox.set k.val x }) s
def runs (op : Byte) (a b c : Word) (d : Option (Word × Word)) : Mailbox := { running := some { op := op, port := .hsp, args := (a, b, c, 0), startedAt := 7, done := d } }
def bolts (xs : List PendingBolt) (s : State) : State := modHost (fun h => { h with bolts := xs }) s
def wear (f : WearState → WearState) (s : State) : State := { s with wear := f s.wear }
def sw0 : SwapEntry := ⟨1, 0, 5, 0, 2, 9, 0, 3, 0, 0⟩
def shut (s : State) : State := { s with
  laneA := { s.laneA with eng := { s.laneA.eng with ctx := s.laneA.eng.ctx.map fun x => { x with vecDue := false, vec := none, run := none } } }
  laneB := { s.laneB with eng := { s.laneB.eng with ctx := s.laneB.eng.ctx.map fun x => { x with vecDue := false, vec := none, run := none } } } }
def setOnly (l : Lane) (p : Fin 32) (x : PinState) (s : State) : State :=
  modMeas l (fun m => { m with pin := (m.pin.map fun q => { q with overdrive := false }).set p.val x }) s
def gateRun (rf : Nat) (x : Channel) (s : State) : State :=
  addRec 0x50 0 (pay 64 [(15, 15)]) (withRec 0x52 15 cPay (setCh 15 x (setGen .a 15 { per := 4000, on := true, start := s.now, dt := 320, rFall := rf, block := 0 } (inMode 8 { s with
    gate := { s.gate with allOff := false, fg := {} }
    plk := { s.plk with enabled := BitVec.allOnes _ }
    claim := { s.claim with tum := s.claim.tum.set 15 {} } }))))
def chA (b : State) : Channel := { b.gate.ch[15] with state := 2, onUntil := some 0, edgeAt := 0 }
def calm (s : State) : State := { s with gate := { s.gate with fg := { s.gate.fg with active := ((idx 32).filter fun p => winSource p s).map fun p => 16 + p.val } } }
def rstPulse (k : Nat) (s : State) : State := { s with
  plk := { s.plk with rstSeen := 0 }
  fio := { s.fio with on := true, linkOk := true, fs := 0, inp := s.fio.inp.set 4 { level := false, passed := true, riseTs := 40, fallTs := BitVec.ofNat 64 (40 + k) } } }
def accessOn (s : State) : State := { s with mesh := { s.mesh with accOn := true, access := [] } }

/-! ### The hypotheses of the statements can be met -/

/-- A well-formed command, and one of a master that does not exist. -/
theorem witness_EveryWellFormedCommandCompletes : (∃ c : Instr, c.wellFormed = true) ∧ (∃ m : Master, 14 ≤ m.toNat) :=
  ⟨⟨.registerWrite 13 0 0, by decide⟩, ⟨14, by decide⟩⟩

/-- A state with canonical memory whose step answers a next state. -/
theorem witness_EveryStepKeepsMemoryCanonical : ∃ s t : State, Memory.wf s = true ∧ step s = .next t :=
  ⟨{ State.reset with pending := [.supervisionTx], sram := [(0x1000000, 7)], key := { State.reset.key with
      flash := .replicate 4 [] } },
    { State.reset with sram := [(0x1000000, 7)], key := { State.reset.key with flash := .replicate 4 [] } },
    by decide +kernel, rfl⟩

/-- A sound mode controller in a state whose step answers a next state. -/
theorem witness_ModesChangeOnlyAlongTheirRows : ∃ s t : State, Mode.sound s = true ∧ step s = .next t :=
  ⟨{ State.reset with pending := [.supervisionTx] }, State.reset, by decide +kernel, rfl⟩

/-- Bounded queues in a state whose step answers a next state. -/
theorem witness_HostPortsStayWithinTheirQueues : ∃ s t : State,
    (∀ p : HostPort, Port.bounded p s = true) ∧ step s = .next t :=
  ⟨hport .hsp (fun x => { x with out := List.replicate 31 {} }) { State.reset with pending := [.hspFrameOut false] },
    hport .hsp (fun x => { x with out := List.replicate 31 {} }) .reset, fun p => by cases p <;> decide, rfl⟩

/-- The cases of a corrected error: the eleventh of an hour; the third of a row with a free spare row, with a spare bank
only, and with neither. -/
theorem witness_CorrectedErrorsStartRepairs :
    (∃ s : State, eccWithin (sramNum none) (secs 3600) s = 10) ∧
    (∃ s : State, 2 ≤ rowErrors (sramNum (some .a)) 5 9 s ∧ sramSwapRuns .a 5 9 s = false ∧ rowsTaken .a 5 s < 16) ∧
    (∃ s : State, 2 ≤ rowErrors (sramNum (some .a)) 5 9 s ∧ sramSwapRuns .a 5 9 s = false ∧ 16 ≤ rowsTaken .a 5 s ∧
      (s.wear.bankSwaps.filter fun x => x.1 = .a).length < spareLeft 2 (laneNum .a) s) ∧
    (∃ s : State, 2 ≤ rowErrors (sramNum (some .a)) 5 9 s ∧ sramSwapRuns .a 5 9 s = false ∧ 16 ≤ rowsTaken .a 5 s ∧
      spareLeft 2 (laneNum .a) s ≤ (s.wear.bankSwaps.filter fun x => x.1 = .a).length ∧
      at' s.wear.outSeen (6 + laneNum .a) false = false) :=
  ⟨⟨wear (fun w => { w with eccLog := List.replicate 10 (2, 5, 9, 0) }) .reset, by decide⟩,
    ⟨wear (fun w => { w with eccLog := [(0, 5, 9, 0), (0, 5, 9, 0)] }) .reset, by decide⟩,
    ⟨wear (fun w => { w with eccLog := [(0, 5, 9, 0), (0, 5, 9, 0)], rowsUsed := [(5, 16)] }) .reset, by decide⟩,
    ⟨wear (fun w => { w with eccLog := [(0, 5, 9, 0), (0, 5, 9, 0)], rowsUsed := [(5, 16)], used := w.used.set 6 2 }) .reset,
      by decide⟩⟩

theorem witness_EmptyQueueLetsOneTickPass :
    (∃ (s : State), s.pending = []) :=
  ⟨{State.reset with pending := []}, by decide⟩

theorem witness_EventsLatchTheirPennant :
    (∃ (r : EvReg) (k : Nat), k < 32 ∧ r.base + k < 256) ∧
    (∃ (r : EvReg) (k : Nat), k < 32 ∧ r.base + k < 256) ∧
    (∃ (r : EvReg) (k : Nat) (j : Nat), k < 32 ∧ r.base + k < 256 ∧ j < 32 ∧ j ≠ k) ∧
    (∃ (r : EvReg) (k : Nat) (q : EvReg), k < 32 ∧ r.base + k < 256 ∧ q ≠ r) ∧
    (∃ (r : EvReg) (k : Nat) (j : Nat), k < 32 ∧ r.base + k < 256 ∧ j < 256 ∧ j ≠ r.base + k) ∧
    (∃ (r : EvReg) (k : Nat), k < 32 ∧ r.base + k < 256) ∧
    (∃ (r : EvReg) (k : Nat) (s : State) (p : HostPort), k < 32 ∧ r.base + k < 256 ∧ bit (hostPort p s).sub (r.base + k) = true) ∧
    (∃ (r : EvReg) (k : Nat) (s : State) (p : HostPort), k < 32 ∧ r.base + k < 256 ∧ bit (hostPort p s).sub (r.base + k) = true ∧ (hostPort p s).pend = 0) ∧
    (∃ (r : EvReg) (k : Nat) (s : State) (p : HostPort), k < 32 ∧ r.base + k < 256 ∧ bit (hostPort p s).sub (r.base + k) = false) ∧
    (∃ (r : EvReg) (k : Nat), k < 32 ∧ r.base + k < 256) ∧
    (∃ (r : EvReg) (k : Nat) (v : Word), k < 32 ∧ r.base + k < 256 ∧ bit v k = true) :=
  ⟨⟨.pwr, 3, by decide⟩,
    ⟨.pwr, 3, by decide⟩,
    ⟨.pwr, 3, 31, by decide⟩,
    ⟨.pwr, 3, .clk, by decide⟩,
    ⟨.pwr, 3, 255, by decide⟩,
    ⟨.pwr, 3, by decide⟩,
    ⟨.pwr, 3, {State.reset with host := {State.reset.host with hsp := {State.reset.host.hsp with sub := BitVec.allOnes _}}}, .hsp, by decide⟩,
    ⟨.pwr, 3, {State.reset with host := {State.reset.host with hsp := {State.reset.host.hsp with pend := 0, sub := BitVec.allOnes _}}}, .hsp, by decide⟩,
    ⟨.pwr, 3, State.reset, .net, by decide⟩,
    ⟨.pwr, 3, by decide⟩,
    ⟨.pwr, 3, 8, by decide⟩⟩


theorem witness_SupplyThresholdsSetTheStatus :
    (∃ (s : State) (aux : Int) (vbus : Nat) (hold : Nat), s.power.powered = true ∧ s.power.auxDrop = false ∧ 20000 ≤ hold ∧ ((aux < 27000 ∨ aux + 2000 ≤ (vbus : Int)))) ∧
    (∃ (s : State) (aux : Int) (vbus : Nat) (hold : Nat), s.power.powered = true ∧ s.power.auxDrop = true ∧ 20000 ≤ hold ∧ 28000 ≤ aux ∧ (vbus : Int) ≤ aux + 1000) ∧
    (∃ (s : State) (aux : Int), s.power.powered = true ∧ s.power.auxHigh = false ∧ 90500 < aux) ∧
    (∃ (s : State) (aux : Int), s.power.powered = true ∧ s.power.auxHigh = true ∧ aux < 90000) ∧
    (∃ (s : State) (lo : Nat) (hi : Nat) (uc : Nat), s.power.powered = true ∧ lo + 10000 ≤ hi ∧ uc * 100 / (hi - lo) < 65536) :=
  ⟨⟨{State.reset with power := {State.reset.power with powered := true, auxDrop := false}}, 26999, 28000, 20000, by decide⟩,
    ⟨{State.reset with power := {State.reset.power with powered := true, auxDrop := true}}, 28000, 29000, 20000, by decide⟩,
    ⟨{State.reset with power := {State.reset.power with powered := true, auxHigh := false}}, 90501, by decide⟩,
    ⟨{State.reset with power := {State.reset.power with powered := true, auxHigh := true}}, 89999, by decide⟩,
    ⟨{State.reset with power := {State.reset.power with powered := true}}, 1000, 11000, 10000, by decide⟩⟩

theorem witness_VbusFallStopsEverySupply :
    (∃ (s : State) (mv : Nat), s.power.powered = true ∧ 24000 < mv) ∧
    (∃ (s : State) (mv : Nat), s.power.powered = true ∧ mv ≤ 24000) :=
  ⟨⟨{State.reset with power := {State.reset.power with powered := true}}, 24001, by decide⟩,
    ⟨{State.reset with power := {State.reset.power with powered := true}}, 24000, by decide⟩⟩

theorem witness_PowerMeasurementsAreRead :
    (∃ (s : State) (aux : Int) (vbus : Nat) (hup : Nat) (dw : Nat), s.power.powered = true ∧ 0 ≤ aux ∧ aux < 120000 ∧ vbus < 120000 ∧ hup < 120000 ∧ dw < 65536) :=
  ⟨{State.reset with power := {State.reset.power with powered := true}}, 28000, 28000, 27000, 30, by decide⟩

theorem witness_GatePowerFaultsStopAndRestart :
    (∃ (s : State) (hb : Fin 16), bit s.power.convOk hb.val = true) ∧
    (∃ (s : State) (hb : Fin 16), bit s.power.pumpOk hb.val = true) ∧
    (∃ (s : State) (hb : Fin 16), bit s.power.convSoft hb.val = true) ∧
    (∃ (s : State), s.power.gpCut = true) ∧
    (∃ (s : State) (hb : Fin 16), s.power.gpCut = false ∧ bit s.power.gpEn hb.val = true ∧ bit s.power.convFlt hb.val = true ∧ bit s.power.convOk hb.val = false) :=
  ⟨⟨{State.reset with power := {State.reset.power with convOk := 8}}, 3, by decide⟩,
    ⟨{State.reset with power := {State.reset.power with pumpOk := 8}}, 3, by decide⟩,
    ⟨{State.reset with power := {State.reset.power with convSoft := 8}}, 3, by decide⟩,
    ⟨{State.reset with power := {State.reset.power with gpCut := true}}, by decide⟩,
    ⟨{State.reset with power := {State.reset.power with gpCut := false, gpEn := 8, convFlt := 8, convOk := 0}}, 3, by decide⟩⟩

theorem witness_TemperatureThresholdsAndCut :
    (∃ (s : State) (dc : Int), s.power.tempWarn = false ∧ 1200 ≤ dc) ∧
    (∃ (s : State) (dc : Int), s.power.tempWarn = true ∧ dc ≤ 1150) ∧
    (∃ (s : State) (dc : Int), s.power.tempHigh = false ∧ 1280 ≤ dc) ∧
    (∃ (s : State) (dc : Int), s.power.tempHigh = true ∧ dc ≤ 1200) ∧
    (∃ (s : State) (dc : Int), s.power.gpCut = false ∧ 1400 ≤ dc) ∧
    (∃ (s : State), s.power.gpCut = true ∧ ((1200 ≤ s.power.tempDc ∨ s.power.auxMv < 28000))) ∧
    (∃ (s : State), s.power.gpCut = true ∧ s.power.tempDc < 1200 ∧ 28000 ≤ s.power.auxMv) :=
  ⟨⟨{State.reset with power := {State.reset.power with tempWarn := false}}, 1200, by decide⟩,
    ⟨{State.reset with power := {State.reset.power with tempWarn := true}}, 1150, by decide⟩,
    ⟨{State.reset with power := {State.reset.power with tempHigh := false}}, 1280, by decide⟩,
    ⟨{State.reset with power := {State.reset.power with tempHigh := true}}, 1200, by decide⟩,
    ⟨{State.reset with power := {State.reset.power with gpCut := false}}, 1400, by decide⟩,
    ⟨{State.reset with power := {State.reset.power with gpCut := true, tempDc := 1200}}, by decide⟩,
    ⟨{State.reset with power := {State.reset.power with gpCut := true, tempDc := 1199, auxMv := 28000}}, by decide⟩⟩

theorem witness_GatePowerControlOnlyInStop :
    (∃ (s : State), ((s.md = 3 ∨ s.md = 11))) ∧
    (∃ (s : State), (¬(s.md = 3 ∨ s.md = 11))) :=
  ⟨⟨{State.reset with mode := {State.reset.mode with mode := 3}}, by decide⟩,
    ⟨{State.reset with mode := {State.reset.mode with mode := 8}}, by decide⟩⟩

theorem witness_IslandPowerSteps :
    (∃ (s : State) (i : Fin 22), s.power.isl[i].state.val < (lowestState s i.val).val ∧ s.power.isl[i].waking = false) ∧
    (∃ (s : State) (i : Fin 22), (lowestState s i.val).val ≤ s.power.isl[i].state.val) ∧
    (∃ (s : State) (i : Fin 22), s.power.isl[i].state ≠ 0 ∧ s.power.isl[i].waking = false) ∧
    (∃ (s : State) (i : Fin 22), s.power.isl[i].waking = true ∧ s.power.isl[i].state = 2) ∧
    (∃ (s : State) (i : Fin 22), 4 ≤ s.md ∧ s.md ≤ 11 ∧ [2, 4, 5, 8, 10, 11, 13, 20].contains i.val = true) :=
  ⟨⟨{State.reset with power := {State.reset.power with isl := State.reset.power.isl.set 9 {}}}, 9, by decide⟩,
    ⟨{State.reset with power := {State.reset.power with isl := State.reset.power.isl.set 0 {}}}, 0, by decide⟩,
    ⟨{State.reset with power := {State.reset.power with isl := State.reset.power.isl.set 9 {state := 2}}}, 9, by decide⟩,
    ⟨{State.reset with power := {State.reset.power with isl := State.reset.power.isl.set 9 {state := 2, waking := true}}}, 9, by decide⟩,
    ⟨{State.reset with mode := {State.reset.mode with mode := 5}}, 4, by decide⟩⟩


theorem witness_TcxoFailsAndReturns :
    (∃ (s : State), s.clock.tcxoP = true ∧ s.clock.tcxoS = true) ∧
    (∃ (s : State), s.clock.tcxoP = false ∧ s.clock.tcxoS = true) ∧
    (∃ (s : State), s.clock.tcxoP = false ∧ s.power.powered = true) ∧
    (∃ (s : State), s.clock.tcxoS = false ∧ s.clock.tcxoP = true ∧ s.power.powered = true) ∧
    (∃ (s : State) (ppb : Nat), s.clock.tcxoP = true ∧ s.clock.tcxoS = true ∧ 5000 < ppb) ∧
    (∃ (ppb : Nat), ppb ≤ 5000) :=
  ⟨⟨{State.reset with clock := {State.reset.clock with tcxoP := true, tcxoS := true}}, by decide⟩,
    ⟨{State.reset with clock := {State.reset.clock with tcxoP := false, tcxoS := true}}, by decide⟩,
    ⟨{State.reset with clock := {State.reset.clock with tcxoP := false}, power := {State.reset.power with powered := true}}, by decide⟩,
    ⟨{State.reset with clock := {State.reset.clock with tcxoS := false, tcxoP := true}, power := {State.reset.power with powered := true}}, by decide⟩,
    ⟨{State.reset with clock := {State.reset.clock with tcxoP := true, tcxoS := true}}, 5001, by decide⟩,
    ⟨5000, by decide⟩⟩

theorem witness_ExternalReferencesComeAndGo :
    (∃ (s : State), s.clock.ref10 = true) ∧
    (∃ (s : State), s.clock.ref10 = false ∧ s.power.powered = true) ∧
    (∃ (s : State), s.clock.pps = true) ∧
    (∃ (s : State), s.clock.pps = false) :=
  ⟨⟨{State.reset with clock := {State.reset.clock with ref10 := true}}, by decide⟩,
    ⟨{State.reset with clock := {State.reset.clock with ref10 := false}, power := {State.reset.power with powered := true}}, by decide⟩,
    ⟨{State.reset with clock := {State.reset.clock with pps := true}}, by decide⟩,
    ⟨{State.reset with clock := {State.reset.clock with pps := false}}, by decide⟩⟩

theorem witness_PllLossAndLock :
    (∃ (s : State) (p : Pll), (pllOf s p).lost = false) ∧
    (∃ (s : State) (p : Pll), (pllOf s p).lost = true) ∧
    (∃ (s : State) (p : Pll), (pllOf s p).lost = false ∧ (pllOf s p).holdover = true) ∧
    (∃ (s : State) (p : Pll), (pllOf s p).holdover = false) ∧
    (∃ (s : State) (p : Pll), (pllOf s p).locked = false ∧ (pllOf s p).holdover = false) ∧
    (∃ (s : State) (p : Pll), (pllOf s p).holdover = true) :=
  ⟨⟨State.reset, .net, by decide⟩,
    ⟨{State.reset with clock := {State.reset.clock with net := {State.reset.clock.net with lost := true}}}, .net, by decide⟩,
    ⟨{State.reset with clock := {State.reset.clock with net := {State.reset.clock.net with lost := false, holdover := true}}}, .net, by decide⟩,
    ⟨State.reset, .net, by decide⟩,
    ⟨State.reset, .net, by decide⟩,
    ⟨{State.reset with clock := {State.reset.clock with net := {State.reset.clock.net with holdover := true}}}, .net, by decide⟩⟩

theorem witness_IslandSourcesChange :
    (∃ (s : State) (i : Fin 22), s.clock.isl[i].next = none) ∧
    (∃ (s : State) (i : Fin 22), i ∈ pllIslands ∧ i.val ≠ 13 ∧ i.val ≠ 15 ∧ i.val ≠ 16 ∧ s.clock.isl[i].next = some 0 ∧ (pllOf s s.clock.isl[i].own).locked = true) ∧
    (∃ (s : State) (i : Fin 22), i ∈ pllIslands ∧ i.val ≠ 13 ∧ i.val ≠ 15 ∧ i.val ≠ 16 ∧ s.clock.isl[i].src ≠ 2 ∧ ((s.clock.isl[i].next = some 2 ∨ s.clock.isl[i].next = some 0 ∧ (pllOf s s.clock.isl[i].own).locked = false))) ∧
    (∃ (s : State) (i : Fin 22), i ∈ tcxoIslands ∧ s.clock.isl[i].next ≠ none) ∧
    (∃ (i : Fin 22) (pm : List Nat), pm.length = 22 ∧ 686 ≤ pm.getD i.val 0 ∧ pm.getD i.val 0 ≤ 714) ∧
    (∃ (i : Fin 22) (pm : List Nat), pm.length = 22 ∧ 686 ≤ pm.getD i.val 0 ∧ pm.getD i.val 0 ≤ 714) :=
  ⟨⟨State.reset, 2, by decide⟩,
    ⟨{State.reset with clock := {State.reset.clock with isl := State.reset.clock.isl.set 2 {State.reset.clock.isl[2] with own := .net, next := some 0}, net := {locked := true}}}, 2, by decide⟩,
    ⟨{State.reset with clock := {State.reset.clock with isl := State.reset.clock.isl.set 2 {next := some 2, src := 0}}}, 2, by decide⟩,
    ⟨{State.reset with clock := {State.reset.clock with isl := State.reset.clock.isl.set 18 {State.reset.clock.isl[18] with next := some 2}}}, 18, by decide⟩,
    ⟨2, (List.replicate 22 700), by decide⟩,
    ⟨2, (List.replicate 22 700), by decide⟩⟩

theorem witness_SpareControl :
    (∃ (s : State), s.clock.spareUse ≠ 0) ∧
    (∃ (s : State) (tgt : Bool), s.clock.spareUse = 0 ∧ s.clock.spareTgt ≠ tgt) ∧
    (∃ (s : State), s.clock.spareUse = 0) ∧
    (∃ (s : State), s.clock.spareUse = 3 ∧ s.clock.net.locked = true) ∧
    (∃ (s : State), s.clock.spareUse = 3 ∧ s.clock.net.locked = false) :=
  ⟨⟨{State.reset with clock := {State.reset.clock with spareUse := 1}}, by decide⟩,
    ⟨{State.reset with clock := {State.reset.clock with spareUse := 0, spareTgt := false}}, true, by decide⟩,
    ⟨{State.reset with clock := {State.reset.clock with spareUse := 0}}, by decide⟩,
    ⟨{State.reset with clock := {State.reset.clock with spareUse := 3, net := {locked := true}}}, by decide⟩,
    ⟨{State.reset with clock := {State.reset.clock with spareUse := 3, net := {locked := false}}}, by decide⟩⟩

theorem witness_ClockOutputsFollowTheirSource :
    (∃ (s : State) (n : Fin 4), s.clock.cko[n].en = false) ∧
    (∃ (s : State) (n : Fin 4) (f : CkoFeed) (d : Nat), ckoFeed n s = some (f, d)) ∧
    (∃ (s : State) (n : Fin 4) (f : CkoFeed) (d : Nat), ckoFeed n s = some (f, d)) ∧
    (∃ (s : State) (n : Fin 4) (f : CkoFeed) (d : Nat), ckoFeed n s = some (f, d) ∧ (f = .net125 ∨ f = .net156)) ∧
    (∃ (s : State) (n : Fin 4) (f : CkoFeed) (d : Nat), ckoFeed n s = some (f, d) ∧ f = .ref10) ∧
    (∃ (s : State) (n : Fin 4) (f : CkoFeed) (d : Nat), ckoFeed n s = some (f, d) ∧ f = .pps) ∧
    (∃ (s : State) (n : Fin 4) (f : CkoFeed) (d : Nat), ckoFeed n s = some (f, d) ∧ f = .tcxo) ∧
    (∃ (s : State) (n : Fin 4) (f : CkoFeed) (d : Nat), ckoFeed n s = some (f, d)) ∧
    (∃ (s : State) (n : Fin 4), s.clock.cko[n].en = true ∧ s.clock.cko[n].src = 2 ∧ laneRunsOn s .a 2 = false ∧ laneLocked s .a = true) ∧
    (∃ (s : State) (n : Fin 4), s.clock.cko[n].src = 2 ∧ laneRunsOn s .a 2 = true) :=
  ⟨⟨{State.reset with clock := {State.reset.clock with cko := State.reset.clock.cko.set 1 {}}}, 1, by decide⟩,
    ⟨{State.reset with clock := {State.reset.clock with ref10 := true, cko := State.reset.clock.cko.set 1 {en := true, src := 4}}}, 1, .ref10, 1, by decide⟩,
    ⟨{State.reset with clock := {State.reset.clock with ref10 := true, cko := State.reset.clock.cko.set 1 {en := true, src := 4}}}, 1, .ref10, 1, by decide⟩,
    ⟨{State.reset with clock := {State.reset.clock with net := {State.reset.clock.net with locked := true}, cko := State.reset.clock.cko.set 1 {en := true, src := 0}}}, 1, .net125, 1, by decide⟩,
    ⟨{State.reset with clock := {State.reset.clock with ref10 := true, cko := State.reset.clock.cko.set 1 {en := true, src := 4}}}, 1, .ref10, 1, by decide⟩,
    ⟨{State.reset with clock := {State.reset.clock with pps := true, cko := State.reset.clock.cko.set 1 {en := true, src := 5}}}, 1, .pps, 1, by decide⟩,
    ⟨{State.reset with clock := {State.reset.clock with tcxoP := true, cko := State.reset.clock.cko.set 1 {en := true, src := 6}}}, 1, .tcxo, 1, by decide⟩,
    ⟨{State.reset with clock := {State.reset.clock with ref10 := true, cko := State.reset.clock.cko.set 1 {en := true, src := 4}}}, 1, .ref10, 1, by decide⟩,
    ⟨{locked State.reset with clock := {(locked State.reset).clock with cko := State.reset.clock.cko.set 1 {en := true, src := 2}}}, 1, by decide⟩,
    ⟨{State.reset with clock := {State.reset.clock with cko := State.reset.clock.cko.set 1 {src := 2, en := true}, isl := State.reset.clock.isl.set 1 {src := 2}}}, 1, by decide⟩⟩


theorem witness_ModeRequestsAreJudged :
    (∃ (s : State) (key : Half) (target : BitVec 4) (c : Instr), s.md ≠ 0 ∧ key ≠ 0x4D4F ∧ c ∈ [Instr.modeReqDormant key, .modeReqRestart key, .modeReqBlocked key, .modeReqPrecharge key, .modeReqBlackStart key, .modeReqSynchronise key, .modeReqUnaccepted key target]) ∧
    (∃ (s : State) (key : Half) (target : BitVec 4), s.md ≠ 0 ∧ key = 0x4D4F ∧ [0, 1, 3, 4, 5, 6].contains target.toNat = false) ∧
    (∃ (s : State) (key : Half) (target : BitVec 4), s.md ≠ 0 ∧ key = 0x4D4F ∧ [0, 1, 3, 4, 5, 6].contains target.toNat = false) ∧
    (∃ (s : State) (key : Half) (c : Instr) (n : BitVec 4), s.md ≠ 0 ∧ key = 0x4D4F ∧ s.mode.busy = true ∧ (c, n) ∈ [(Instr.modeReqDormant key, 0#4), (.modeReqRestart key, 1#4), (.modeReqBlocked key, 3#4), (.modeReqPrecharge key, 4#4), (.modeReqBlackStart key, 5#4), (.modeReqSynchronise key, 6#4)]) ∧
    (∃ (s : State) (key : Half), s.md ≠ 0 ∧ key = 0x4D4F ∧ s.mode.busy = false ∧ s.md = 3 ∧ s.plk.testDue = true ∧ hasRec s 0x60 0 = true) ∧
    (∃ (s : State) (key : Half) (c : Instr), s.md ≠ 0 ∧ key = 0x4D4F ∧ s.mode.busy = false ∧ s.md = 11 ∧ c ∈ [Instr.modeReqDormant key, .modeReqBlocked key]) ∧
    (∃ (s : State) (key : Half) (c : Instr), s.md ≠ 0 ∧ key = 0x4D4F ∧ s.mode.busy = false ∧ s.md = 11 ∧ c ∈ [Instr.modeReqPrecharge key, .modeReqBlackStart key, .modeReqSynchronise key]) ∧
    (∃ (s : State) (key : Half) (c : Instr), s.md ≠ 0 ∧ key = 0x4D4F ∧ s.mode.busy = false ∧ s.md = 3 ∧ s.clock.tcxoP = false ∧ s.clock.tcxoS = false ∧ c ∈ [Instr.modeReqDormant key, .modeReqRestart key]) :=
  ⟨⟨(inMode 3 State.reset), 0x4D4E, 3, (.modeReqRestart (0x4D4E : Half)), by decide⟩,
    ⟨(inMode 3 State.reset), 0x4D4F, 7, by decide⟩,
    ⟨(inMode 4 State.reset), 0x4D4F, 2, by decide⟩,
    ⟨{State.reset with mode := {State.reset.mode with mode := 3, busy := true}}, 0x4D4F, (.modeReqBlocked (0x4D4F : Half)), 3, by decide⟩,
    ⟨{withRec 0x60 0 [] (inMode 3 State.reset) with plk := {State.reset.plk with testDue := true}}, 0x4D4F, by decide⟩,
    ⟨(inMode 11 State.reset), 0x4D4F, (.modeReqBlocked (0x4D4F : Half)), by decide⟩,
    ⟨(inMode 11 State.reset), 0x4D4F, (.modeReqPrecharge (0x4D4F : Half)), by decide⟩,
    ⟨{inMode 3 State.reset with clock := {State.reset.clock with tcxoP := false, tcxoS := false}}, 0x4D4F, (.modeReqRestart (0x4D4F : Half)), by decide⟩⟩

theorem witness_ModeRequestsStartTransitions :
    (∃ (s : State) (m : ModeState), s.mode.busy = false ∧ m = { s.mode with busy := true, nextCause := 1, nextEvt := 0 } ∧ s.md = 3 ∧ refLeft s = true) ∧
    (∃ (s : State) (m : ModeState), s.mode.busy = false ∧ m = { s.mode with busy := true, nextCause := 1, nextEvt := 0 } ∧ ((s.md = 3 ∧ refLeft s = true ∨ s.md = 11))) ∧
    (∃ (s : State) (m : ModeState), s.mode.busy = false ∧ m = { s.mode with busy := true, nextCause := 1, nextEvt := 0 } ∧ ((s.md = 3 ∧ refLeft s = true ∨ s.md = 11))) ∧
    (∃ (s : State) (m : ModeState), s.mode.busy = false ∧ m = { s.mode with busy := true, nextCause := 1, nextEvt := 0 } ∧ 4 ≤ s.md ∧ s.md ≤ 10) ∧
    (∃ (s : State) (m : ModeState), s.mode.busy = false ∧ m = { s.mode with busy := true, nextCause := 1, nextEvt := 0 } ∧ 4 ≤ s.md ∧ s.md ≤ 10) ∧
    (∃ (s : State) (m : ModeState), s.mode.busy = false ∧ m = { s.mode with busy := true, nextCause := 1, nextEvt := 0 } ∧ s.md = 3 ∧ hasRec s 0x60 0 = true ∧ demandActive s = false ∧ s.plk.locked = false ∧ s.plk.testDue = false ∧ refLeft s = true) ∧
    (∃ (s : State) (m : ModeState), s.mode.busy = false ∧ m = { s.mode with busy := true, nextCause := 1, nextEvt := 0 } ∧ s.md = 4 ∧ hasRec s 0x60 0 = true ∧ (seniorGf s).dcReady = true ∧ (seniorGf s).absent = true) ∧
    (∃ (s : State) (m : ModeState), s.mode.busy = false ∧ m = { s.mode with busy := true, nextCause := 1, nextEvt := 0 } ∧ ((s.md = 4 ∨ s.md = 8)) ∧ hasRec s 0x60 0 = true ∧ (seniorGf s).dcReady = true ∧ (seniorGf s).present = true) :=
  ⟨⟨(inMode 3 (allOn State.reset)), {((inMode 3 (allOn State.reset)) : State).mode with busy := true, nextCause := 1, nextEvt := 0}, by decide⟩,
    ⟨(inMode 11 State.reset), {((inMode 11 State.reset) : State).mode with busy := true, nextCause := 1, nextEvt := 0}, by decide⟩,
    ⟨(inMode 3 (allOn State.reset)), {((inMode 3 (allOn State.reset)) : State).mode with busy := true, nextCause := 1, nextEvt := 0}, by decide⟩,
    ⟨(inMode 4 State.reset), {((inMode 4 State.reset) : State).mode with busy := true, nextCause := 1, nextEvt := 0}, by decide⟩,
    ⟨(inMode 10 State.reset), {((inMode 10 State.reset) : State).mode with busy := true, nextCause := 1, nextEvt := 0}, by decide⟩,
    ⟨{withRec 0x60 0 [] (inMode 3 (allOn State.reset)) with plk := {}}, {({withRec 0x60 0 [] (inMode 3 (allOn State.reset)) with plk := {}} : State).mode with busy := true, nextCause := 1, nextEvt := 0}, by decide⟩,
    ⟨{withRec 0x60 0 [] (inMode 4 State.reset) with claim := {}, laneA := {State.reset.laneA with gf := {dcReady := true, absent := true}}}, {({withRec 0x60 0 [] (inMode 4 State.reset) with claim := {}, laneA := {State.reset.laneA with gf := {dcReady := true, absent := true}}} : State).mode with busy := true, nextCause := 1, nextEvt := 0}, by decide⟩,
    ⟨{withRec 0x60 0 [] (inMode 8 State.reset) with claim := {}, laneA := {State.reset.laneA with gf := {dcReady := true, present := true}}}, {({withRec 0x60 0 [] (inMode 8 State.reset) with claim := {}, laneA := {State.reset.laneA with gf := {dcReady := true, present := true}}} : State).mode with busy := true, nextCause := 1, nextEvt := 0}, by decide⟩⟩

theorem witness_ModeTransitionEnds :
    (∃ (s : State), s.mode.busy = false) ∧
    (∃ (s : State), s.mode.busy = true ∧ s.mode.target ≠ s.mode.mode) ∧
    (∃ (s : State), s.mode.busy = true ∧ s.mode.target ≠ s.mode.mode) ∧
    (∃ (s : State), s.mode.busy = true ∧ 2 ≤ s.mode.target.toNat ∧ s.mode.held = [] ∧ s.plk.locked = false ∧ s.plk.reduced = false) ∧
    (∃ (s : State), s.mode.busy = true ∧ s.mode.target = s.mode.mode ∧ s.mode.held = [] ∧ s.plk.locked = false ∧ s.plk.reduced = false) ∧
    (∃ (s : State), s.mode.busy = true ∧ s.mode.target = 0 ∧ s.md ≠ 0 ∧ s.mode.held = []) :=
  ⟨⟨(inMode 3 State.reset), by decide⟩,
    ⟨{State.reset with mode := {State.reset.mode with busy := true, target := 4, nextEvt := 0x100}}, by decide⟩,
    ⟨{State.reset with mode := {State.reset.mode with mode := 3, busy := true, target := 4}}, by decide⟩,
    ⟨{State.reset with mode := {mode := 4, busy := true, target := 5}, plk := {}}, by decide⟩,
    ⟨{State.reset with mode := {mode := 3, busy := true, target := 3}, plk := {}}, by decide⟩,
    ⟨{State.reset with mode := {mode := 3, busy := true, target := 0}}, by decide⟩⟩

theorem witness_StopsAndWakes :
    (∃ (s : State) (ns : Nat), s.power.powered = true ∧ s.md = 0 ∧ s.mode.busy = false ∧ 10000 ≤ ns) ∧
    (∃ (ns : Nat), ns < 10000) ∧
    (∃ (s : State), s.md = 4 ∧ (seniorGf s).dcReady = false ∧ s.mode.busy = false) ∧
    (∃ (s : State), s.md = 4 ∧ (seniorGf s).dcReady = true) ∧
    (∃ (s : State) (t0 : Nat), s.mode.brownAt = some t0 ∧ inRun s = true ∧ s.mode.busy = false ∧ 28000 ≤ s.power.vbusMv ∧ u16 (recD s 0x10 0) 180 = 0xFFFF) ∧
    (∃ (s : State), s.mode.brownAt = none) :=
  ⟨⟨{inMode 0 State.reset with power := {State.reset.power with powered := true}}, 10000, by decide⟩,
    ⟨9999, by decide⟩,
    ⟨{withRec 0x60 0 [] (inMode 4 State.reset) with claim := {}, laneA := {}}, by decide⟩,
    ⟨{withRec 0x60 0 [] (inMode 4 State.reset) with claim := {}, laneA := {gf := {dcReady := true}}}, by decide⟩,
    ⟨{withRec 0x10 0 (List.replicate 192 0xFF) {State.reset with mode := {mode := 5, brownAt := some 7}} with power := {State.reset.power with vbusMv := 28000}}, 7, by decide⟩,
    ⟨{State.reset with mode := {State.reset.mode with brownAt := none}}, by decide⟩⟩

theorem witness_ColdStartEntersKeycheck :
    (∃ (s : State) (mv : Nat), s.power.powered = false ∧ mv < 26000) ∧
    (∃ (s : State) (mv : Nat), s.power.powered = false ∧ 26000 ≤ mv) :=
  ⟨⟨{State.reset with power := {State.reset.power with powered := false}}, 25999, by decide⟩,
    ⟨{State.reset with power := {State.reset.power with powered := false}}, 26000, by decide⟩⟩

theorem witness_KeycheckSelectsTheImage :
    (∃ (s : State) (fw0 : Bool) (fw1 : Bool), s.md = 1 ∧ s.key.heldM1 = false ∧ s.mode.busy = false ∧ tryPages s.key true (fun n => if n = 0 then fw0 else fw1) = none) ∧
    (∃ (s : State) (fw0 : Bool) (fw1 : Bool) (f : Fin 2) (b : Bool), s.md = 1 ∧ s.key.heldM1 = false ∧ s.mode.busy = false ∧ tryPages s.key true (fun n => if n = 0 then fw0 else fw1) = some (f, b)) ∧
    (∃ (s : State), s.md = 1 ∧ s.key.heldM1 = false ∧ s.mode.busy = false) :=
  ⟨⟨{inMode 1 State.reset with key := {State.reset.key with heldM1 := false, flash := Vector.replicate 4 []}}, true, true, by decide⟩,
    ⟨{inMode 1 State.reset with key := {State.reset.key with heldM1 := false, flash := (Vector.replicate 4 []).set 2 (sparsePutAll 0xFF [] descOff (descriptor 1 0))}}, true, true, 0, false, by decide⟩,
    ⟨{inMode 1 State.reset with key := {State.reset.key with heldM1 := false}}, by decide⟩⟩

theorem witness_StartEndsBlockedOrLocked :
    (∃ (s : State), s.md = 2 ∧ s.mode.busy = false) ∧
    (∃ (s : State), s.md = 2 ∧ s.mode.busy = false ∧ hasRec s 0x80 0 = true) :=
  ⟨⟨(inMode 2 State.reset), by decide⟩,
    ⟨(withRec 0x80 0 [] (inMode 2 State.reset)), by decide⟩⟩


theorem witness_KeyCommandsAreCountedAndRefused :
    (∃ (m : Master) (key : Half) (fw : Bool) (c : Instr) (op : Byte), m.toNat < 14 ∧ (c, op) ∈ Claim.keyCommands m key fw) ∧
    (∃ (m : Master) (key : Half) (fw : Bool) (c : Instr) (op : Byte), m.toNat < 14 ∧ (c, op) ∈ Claim.keyCommands m key fw) ∧
    (∃ (m : Master) (key : Half) (fw : Bool) (c : Instr) (op : Byte), m.toNat < 14 ∧ (c, op) ∈ Claim.keyCommands m key fw ∧ key ≠ 0x4B59) ∧
    (∃ (m : Master) (key : Half) (fw : Bool) (c : Instr) (op : Byte), m.toNat < 14 ∧ (c, op) ∈ Claim.keyCommands m key fw ∧ key ≠ 0x4B59) ∧
    (∃ (s : State) (m : Master) (key : Half) (fw : Bool) (c : Instr) (op : Byte), m.toNat < 14 ∧ (c, op) ∈ Claim.keyCommands m key fw ∧ key = 0x4B59 ∧ s.key.running.isSome = true) ∧
    (∃ (s : State) (m : Master) (key : Half) (fw : Bool) (c : Instr) (op : Byte), m.toNat < 14 ∧ (c, op) ∈ Claim.keyCommands m key fw ∧ key = 0x4B59 ∧ s.key.running.isSome = true) ∧
    (∃ (s : State) (m : Master) (key : Half) (fw : Bool) (c : Instr) (op : Byte), m.toNat < 14 ∧ (c, op) ∈ Claim.keyCommands m key fw ∧ key = 0x4B59 ∧ s.key.running = none ∧ op ≠ 1 ∧ s.key.session = false) ∧
    (∃ (s : State) (m : Master) (key : Half) (fw : Bool) (c : Instr) (op : Byte), m.toNat < 14 ∧ (c, op) ∈ Claim.keyCommands m key fw ∧ key = 0x4B59 ∧ s.key.running = none ∧ op ≠ 1 ∧ s.key.session = false) ∧
    (∃ (s : State) (m : Master) (key : Half) (fw : Bool) (c : Instr) (op : Byte), m.toNat < 14 ∧ (c, op) ∈ Claim.keyCommands m key fw ∧ key = 0x4B59 ∧ s.key.running = none ∧ op ≠ 1 ∧ s.key.session = true ∧ s.key.owner ≠ m) ∧
    (∃ (s : State) (m : Master) (key : Half) (fw : Bool) (c : Instr) (op : Byte), m.toNat < 14 ∧ (c, op) ∈ Claim.keyCommands m key fw ∧ key = 0x4B59 ∧ s.key.running = none ∧ op ≠ 1 ∧ s.key.session = true ∧ s.key.owner ≠ m) ∧
    (∃ (s : State) (m : Master) (key : Half) (fw : Bool) (c : Instr) (op : Byte), m.toNat < 14 ∧ (c, op) ∈ Claim.keyCommands m key fw ∧ key = 0x4B59 ∧ s.key.running = none ∧ op = 1 ∧ m ≠ 6 ∧ m ≠ 7) ∧
    (∃ (s : State) (m : Master) (key : Half) (fw : Bool) (c : Instr) (op : Byte), m.toNat < 14 ∧ (c, op) ∈ Claim.keyCommands m key fw ∧ key = 0x4B59 ∧ s.key.running = none ∧ op = 1 ∧ ((m = 6 ∨ m = 7)) ∧ s.md ≠ 3 ∧ ((s.md ≠ 1 ∨ s.key.heldM1 = false))) ∧
    (∃ (s : State) (m : Master) (key : Half) (fw : Bool) (c : Instr) (op : Byte), m.toNat < 14 ∧ (c, op) ∈ Claim.keyCommands m key fw ∧ key = 0x4B59 ∧ s.key.running = none ∧ op = 1 ∧ ((m = 6 ∨ m = 7)) ∧ s.md ≠ 3 ∧ ((s.md ≠ 1 ∨ s.key.heldM1 = false))) ∧
    (∃ (s : State) (m : Master) (key : Half) (fw : Bool) (c : Instr) (op : Byte), m.toNat < 14 ∧ (c, op) ∈ Claim.keyCommands m key fw ∧ key = 0x4B59 ∧ s.key.running = none ∧ op = 1 ∧ ((m = 6 ∨ m = 7)) ∧ s.md = 3 ∧ s.key.session = true ∧ s.key.owner ≠ m) ∧
    (∃ (s : State) (m : Master) (key : Half) (fw : Bool) (c : Instr) (op : Byte), m.toNat < 14 ∧ (c, op) ∈ Claim.keyCommands m key fw ∧ key = 0x4B59 ∧ s.key.running = none ∧ s.md = 3 ∧ s.key.session = true ∧ s.key.owner = m ∧ ((m = 6 ∨ m = 7))) :=
  ⟨⟨7, 0x4B59, false, (.keyOpen (7 : Master) (0x4B59 : Half) (false : Bool)), 1, by decide⟩,
    ⟨7, 0x4B59, false, (.keyClose (7 : Master) (0x4B59 : Half) (false : Bool)), 2, by decide⟩,
    ⟨7, 0, false, (.keyOpen (7 : Master) (0 : Half) (false : Bool)), 1, by decide⟩,
    ⟨7, 0, false, (.keyClose (7 : Master) (0 : Half) (false : Bool)), 2, by decide⟩,
    ⟨{State.reset with key := {State.reset.key with running := some ⟨1, 1, true, 0, 6, 0, []⟩}}, 7, 0x4B59, false, (.keyOpen (7 : Master) (0x4B59 : Half) (false : Bool)), 1, by decide⟩,
    ⟨{State.reset with key := {State.reset.key with running := some ⟨1, 1, true, 0, 6, 0, []⟩}}, 7, 0x4B59, false, (.keyClose (7 : Master) (0x4B59 : Half) (false : Bool)), 2, by decide⟩,
    ⟨{State.reset with key := {State.reset.key with running := none, session := false}}, 7, 0x4B59, false, (.keyClose (7 : Master) (0x4B59 : Half) (false : Bool)), 2, by decide⟩,
    ⟨{State.reset with key := {State.reset.key with running := none, session := false}}, 7, 0x4B59, false, (.keyErase (7 : Master) (0x4B59 : Half) (false : Bool)), 3, by decide⟩,
    ⟨{State.reset with key := {State.reset.key with running := none, session := true, owner := 6}}, 7, 0x4B59, false, (.keyClose (7 : Master) (0x4B59 : Half) (false : Bool)), 2, by decide⟩,
    ⟨{State.reset with key := {State.reset.key with running := none, session := true, owner := 6}}, 7, 0x4B59, false, (.keyErase (7 : Master) (0x4B59 : Half) (false : Bool)), 3, by decide⟩,
    ⟨{State.reset with key := {State.reset.key with running := none}}, 3, 0x4B59, false, (.keyOpen (3 : Master) (0x4B59 : Half) (false : Bool)), 1, by decide⟩,
    ⟨{inMode 4 State.reset with key := {State.reset.key with running := none}}, 6, 0x4B59, false, (.keyOpen (6 : Master) (0x4B59 : Half) (false : Bool)), 1, by decide⟩,
    ⟨{inMode 1 State.reset with key := {State.reset.key with running := none, heldM1 := false}}, 6, 0x4B59, false, (.keyOpen (6 : Master) (0x4B59 : Half) (false : Bool)), 1, by decide⟩,
    ⟨{inMode 3 State.reset with key := {State.reset.key with running := none, session := true, owner := 7}}, 6, 0x4B59, false, (.keyOpen (6 : Master) (0x4B59 : Half) (false : Bool)), 1, by decide⟩,
    ⟨{inMode 3 State.reset with key := {State.reset.key with running := none, session := true, owner := 6}}, 6, 0x4B59, false, (.keyOpen (6 : Master) (0x4B59 : Half) (false : Bool)), 1, by decide⟩⟩

theorem witness_UnlistedKeyCommandsAreRefused :
    (∃ (s : State) (m : Master) (op : Byte), m.toNat < 14 ∧ (op = 0 ∨ 11 ≤ op.toNat) ∧ s.key.running = none ∧ s.key.session = true ∧ s.key.owner = m) ∧
    (∃ (s : State) (m : Master) (op : Byte), m.toNat < 14 ∧ (op = 0 ∨ 11 ≤ op.toNat) ∧ s.key.running = none ∧ s.key.session = true ∧ s.key.owner = m) :=
  ⟨⟨{State.reset with key := {State.reset.key with running := none, session := true, owner := 6}}, 6, 0, by decide⟩,
    ⟨{State.reset with key := {State.reset.key with running := none, session := true, owner := 6}}, 6, 11, by decide⟩⟩

theorem witness_KeyCommandsRun :
    (∃ (s : State) (m : Master) (k : KeyState), s.key.running = none ∧ m.toNat < 14 ∧ k = { s.key with seq := s.key.seq + 1, idleLeft := 60 * 400000000, idleFrom := s.now } ∧ ((m = 6 ∨ m = 7)) ∧ s.md = 3 ∧ s.key.session = false) ∧
    (∃ (s : State) (m : Master) (k : KeyState), s.key.running = none ∧ m.toNat < 14 ∧ k = { s.key with seq := s.key.seq + 1, idleLeft := 60 * 400000000, idleFrom := s.now } ∧ s.key.session = true ∧ s.key.owner = m) ∧
    (∃ (s : State) (m : Master) (k : KeyState), s.key.running = none ∧ m.toNat < 14 ∧ k = { s.key with seq := s.key.seq + 1, idleLeft := 60 * 400000000, idleFrom := s.now } ∧ s.key.session = true ∧ s.key.owner = m ∧ s.key.arg.toNat ≤ 0xFF0000 ∧ s.key.arg.toNat % 0x10000 = 0) ∧
    (∃ (s : State) (m : Master) (k : KeyState), s.key.running = none ∧ m.toNat < 14 ∧ k = { s.key with seq := s.key.seq + 1, idleLeft := 60 * 400000000, idleFrom := s.now } ∧ s.key.session = true ∧ s.key.owner = m ∧ s.key.arg.toNat ≤ 0xFFE000 ∧ s.key.arg.toNat % 0x1000 = 0) ∧
    (∃ (s : State) (m : Master) (k : KeyState), s.key.running = none ∧ m.toNat < 14 ∧ k = { s.key with seq := s.key.seq + 1, idleLeft := 60 * 400000000, idleFrom := s.now } ∧ s.key.session = true ∧ s.key.owner = m) ∧
    (∃ (s : State) (m : Master) (fw : Bool) (k : KeyState), s.key.running = none ∧ m.toNat < 14 ∧ k = { s.key with seq := s.key.seq + 1, idleLeft := 60 * 400000000, idleFrom := s.now } ∧ s.key.session = true ∧ s.key.owner = m ∧ s.key.verified[standby fw s] = true ∧ runGen s.key fw < 0xFFFFFF ∧ ((fw = false → safetyDiffers s = true → s.key.safeAuth = true))) ∧
    (∃ (s : State) (m : Master) (k : KeyState), s.key.running = none ∧ m.toNat < 14 ∧ k = { s.key with seq := s.key.seq + 1, idleLeft := 60 * 400000000, idleFrom := s.now } ∧ s.key.session = true ∧ s.key.owner = m) ∧
    (∃ (s : State) (m : Master) (k : KeyState), s.key.running = none ∧ m.toNat < 14 ∧ k = { s.key with seq := s.key.seq + 1, idleLeft := 60 * 400000000, idleFrom := s.now } ∧ s.key.session = true ∧ s.key.owner = m ∧ s.key.runKey.isSome = true ∧ s.key.rollback < s.key.imgRollback) ∧
    (∃ (s : State) (m : Master) (k : KeyState) (n : Fin 4), s.key.running = none ∧ m.toNat < 14 ∧ k = { s.key with seq := s.key.seq + 1, idleLeft := 60 * 400000000, idleFrom := s.now } ∧ s.key.session = true ∧ s.key.owner = m ∧ n ≠ 0 ∧ s.key.arg = wd n.val ∧ s.key.slotState[n] = 0) ∧
    (∃ (s : State) (m : Master) (k : KeyState) (n : Fin 4), s.key.running = none ∧ m.toNat < 14 ∧ k = { s.key with seq := s.key.seq + 1, idleLeft := 60 * 400000000, idleFrom := s.now } ∧ s.key.session = true ∧ s.key.owner = m ∧ s.key.arg = wd n.val ∧ ((s.key.runKey = none ∨ s.key.signer.toNat ≠ n.val)) ∧ (∃ j : Fin 4, j ≠ n ∧ s.key.slotState[j] = 1)) ∧
    (∃ (s : State) (m : Master) (fw : Bool) (k : KeyState), s.key.running = none ∧ m.toNat < 14 ∧ k = { s.key with seq := s.key.seq + 1, idleLeft := 60 * 400000000, idleFrom := s.now } ∧ s.key.session = true ∧ s.key.owner = m ∧ s.key.verified[standby fw s] = false) ∧
    (∃ (s : State) (m : Master) (k : KeyState), s.key.running = none ∧ m.toNat < 14 ∧ k = { s.key with seq := s.key.seq + 1, idleLeft := 60 * 400000000, idleFrom := s.now } ∧ s.key.session = true ∧ s.key.owner = m ∧ s.key.arg.toNat % 0x1000 ≠ 0) :=
  ⟨⟨{inMode 3 State.reset with key := {State.reset.key with running := none, session := false}}, 6, {({inMode 3 State.reset with key := {State.reset.key with running := none, session := false}} : State).key with seq := ({inMode 3 State.reset with key := {State.reset.key with running := none, session := false}} : State).key.seq + 1, idleLeft := 60 * 400000000, idleFrom := ({inMode 3 State.reset with key := {State.reset.key with running := none, session := false}} : State).now}, by
      and_intros <;> first | rfl | decide | exact ⟨_, rfl⟩ | (intro x; cases x <;> first | rfl | decide | decide +kernel) | decide +kernel⟩,
    ⟨{State.reset with key := {State.reset.key with running := none, session := true, owner := 6}}, 6, {({State.reset with key := {State.reset.key with running := none, session := true, owner := 6}} : State).key with seq := ({State.reset with key := {State.reset.key with running := none, session := true, owner := 6}} : State).key.seq + 1, idleLeft := 60 * 400000000, idleFrom := ({State.reset with key := {State.reset.key with running := none, session := true, owner := 6}} : State).now}, by
      and_intros <;> first | rfl | decide | exact ⟨_, rfl⟩ | (intro x; cases x <;> first | rfl | decide | decide +kernel) | decide +kernel⟩,
    ⟨{State.reset with key := {State.reset.key with running := none, session := true, owner := 6, arg := 0xFF0000}}, 6, {({State.reset with key := {State.reset.key with running := none, session := true, owner := 6, arg := 0xFF0000}} : State).key with seq := ({State.reset with key := {State.reset.key with running := none, session := true, owner := 6, arg := 0xFF0000}} : State).key.seq + 1, idleLeft := 60 * 400000000, idleFrom := ({State.reset with key := {State.reset.key with running := none, session := true, owner := 6, arg := 0xFF0000}} : State).now}, by
      and_intros <;> first | rfl | decide | exact ⟨_, rfl⟩ | (intro x; cases x <;> first | rfl | decide | decide +kernel) | decide +kernel⟩,
    ⟨{State.reset with key := {State.reset.key with running := none, session := true, owner := 6, arg := 0xFFE000}}, 6, {({State.reset with key := {State.reset.key with running := none, session := true, owner := 6, arg := 0xFFE000}} : State).key with seq := ({State.reset with key := {State.reset.key with running := none, session := true, owner := 6, arg := 0xFFE000}} : State).key.seq + 1, idleLeft := 60 * 400000000, idleFrom := ({State.reset with key := {State.reset.key with running := none, session := true, owner := 6, arg := 0xFFE000}} : State).now}, by
      and_intros <;> first | rfl | decide | exact ⟨_, rfl⟩ | (intro x; cases x <;> first | rfl | decide | decide +kernel) | decide +kernel⟩,
    ⟨{State.reset with key := {State.reset.key with running := none, session := true, owner := 6}}, 6, {({State.reset with key := {State.reset.key with running := none, session := true, owner := 6}} : State).key with seq := ({State.reset with key := {State.reset.key with running := none, session := true, owner := 6}} : State).key.seq + 1, idleLeft := 60 * 400000000, idleFrom := ({State.reset with key := {State.reset.key with running := none, session := true, owner := 6}} : State).now}, by
      and_intros <;> first | rfl | decide | exact ⟨_, rfl⟩ | (intro x; cases x <;> first | rfl | decide | decide +kernel) | decide +kernel⟩,
    ⟨{State.reset with key := {State.reset.key with running := none, session := true, owner := 6, verified := Vector.replicate 4 true, runFw := none, runKey := none, flash := Vector.replicate 4 []}}, 6, false, {({State.reset with key := {State.reset.key with running := none, session := true, owner := 6, verified := Vector.replicate 4 true, runFw := none, runKey := none, flash := Vector.replicate 4 []}} : State).key with seq := ({State.reset with key := {State.reset.key with running := none, session := true, owner := 6, verified := Vector.replicate 4 true, runFw := none, runKey := none, flash := Vector.replicate 4 []}} : State).key.seq + 1, idleLeft := 60 * 400000000, idleFrom := ({State.reset with key := {State.reset.key with running := none, session := true, owner := 6, verified := Vector.replicate 4 true, runFw := none, runKey := none, flash := Vector.replicate 4 []}} : State).now}, by
      and_intros <;> first | rfl | decide | exact ⟨_, rfl⟩ | (intro x; cases x <;> first | rfl | decide | decide +kernel) | decide +kernel⟩,
    ⟨{State.reset with key := {State.reset.key with running := none, session := true, owner := 6}}, 6, {({State.reset with key := {State.reset.key with running := none, session := true, owner := 6}} : State).key with seq := ({State.reset with key := {State.reset.key with running := none, session := true, owner := 6}} : State).key.seq + 1, idleLeft := 60 * 400000000, idleFrom := ({State.reset with key := {State.reset.key with running := none, session := true, owner := 6}} : State).now}, by
      and_intros <;> first | rfl | decide | exact ⟨_, rfl⟩ | (intro x; cases x <;> first | rfl | decide | decide +kernel) | decide +kernel⟩,
    ⟨{State.reset with key := {State.reset.key with running := none, session := true, owner := 6, runKey := some 0, rollback := 3, imgRollback := 4}}, 6, {({State.reset with key := {State.reset.key with running := none, session := true, owner := 6, runKey := some 0, rollback := 3, imgRollback := 4}} : State).key with seq := ({State.reset with key := {State.reset.key with running := none, session := true, owner := 6, runKey := some 0, rollback := 3, imgRollback := 4}} : State).key.seq + 1, idleLeft := 60 * 400000000, idleFrom := ({State.reset with key := {State.reset.key with running := none, session := true, owner := 6, runKey := some 0, rollback := 3, imgRollback := 4}} : State).now}, by
      and_intros <;> first | rfl | decide | exact ⟨_, rfl⟩ | (intro x; cases x <;> first | rfl | decide | decide +kernel) | decide +kernel⟩,
    ⟨{State.reset with key := {State.reset.key with running := none, session := true, owner := 6, arg := 3, slotState := Vector.replicate 4 0}}, 6, {({State.reset with key := {State.reset.key with running := none, session := true, owner := 6, arg := 3, slotState := Vector.replicate 4 0}} : State).key with seq := ({State.reset with key := {State.reset.key with running := none, session := true, owner := 6, arg := 3, slotState := Vector.replicate 4 0}} : State).key.seq + 1, idleLeft := 60 * 400000000, idleFrom := ({State.reset with key := {State.reset.key with running := none, session := true, owner := 6, arg := 3, slotState := Vector.replicate 4 0}} : State).now}, 3, by
      and_intros <;> first | rfl | decide | exact ⟨_, rfl⟩ | (intro x; cases x <;> first | rfl | decide | decide +kernel) | decide +kernel⟩,
    ⟨{State.reset with key := {State.reset.key with running := none, session := true, owner := 6, arg := 0, runKey := none, slotState := Vector.replicate 4 1}}, 6, {({State.reset with key := {State.reset.key with running := none, session := true, owner := 6, arg := 0, runKey := none, slotState := Vector.replicate 4 1}} : State).key with seq := ({State.reset with key := {State.reset.key with running := none, session := true, owner := 6, arg := 0, runKey := none, slotState := Vector.replicate 4 1}} : State).key.seq + 1, idleLeft := 60 * 400000000, idleFrom := ({State.reset with key := {State.reset.key with running := none, session := true, owner := 6, arg := 0, runKey := none, slotState := Vector.replicate 4 1}} : State).now}, 0, by
      and_intros <;> first | rfl | decide | exact ⟨_, rfl⟩ | (intro x; cases x <;> first | rfl | decide | decide +kernel) | decide +kernel⟩,
    ⟨{State.reset with key := {State.reset.key with running := none, session := true, owner := 6, verified := Vector.replicate 4 false}}, 6, false, {({State.reset with key := {State.reset.key with running := none, session := true, owner := 6, verified := Vector.replicate 4 false}} : State).key with seq := ({State.reset with key := {State.reset.key with running := none, session := true, owner := 6, verified := Vector.replicate 4 false}} : State).key.seq + 1, idleLeft := 60 * 400000000, idleFrom := ({State.reset with key := {State.reset.key with running := none, session := true, owner := 6, verified := Vector.replicate 4 false}} : State).now}, by
      and_intros <;> first | rfl | decide | exact ⟨_, rfl⟩ | (intro x; cases x <;> first | rfl | decide | decide +kernel) | decide +kernel⟩,
    ⟨{State.reset with key := {State.reset.key with running := none, session := true, owner := 6, arg := 0xFFF}}, 6, {({State.reset with key := {State.reset.key with running := none, session := true, owner := 6, arg := 0xFFF}} : State).key with seq := ({State.reset with key := {State.reset.key with running := none, session := true, owner := 6, arg := 0xFFF}} : State).key.seq + 1, idleLeft := 60 * 400000000, idleFrom := ({State.reset with key := {State.reset.key with running := none, session := true, owner := 6, arg := 0xFFF}} : State).now}, by
      and_intros <;> first | rfl | decide | exact ⟨_, rfl⟩ | (intro x; cases x <;> first | rfl | decide | decide +kernel) | decide +kernel⟩⟩

theorem witness_KeyCommandsComplete :
    (∃ (s : State) (r : KeyRun), s.key.running = some r ∧ s.host.bolts = []) ∧
    (∃ (s : State) (r : KeyRun), s.key.running = some r ∧ s.host.bolts = []) :=
  ⟨⟨{State.reset with key := {State.reset.key with running := some ⟨3, 5, false, 0x1000, 6, 0, []⟩}, host := {State.reset.host with bolts := []}}, ⟨3, 5, false, 0x1000, 6, 0, []⟩, by decide⟩,
    ⟨{State.reset with key := {State.reset.key with running := some ⟨4, 5, false, 0x1000, 6, 0, []⟩}, host := {State.reset.host with bolts := []}}, ⟨4, 5, false, 0x1000, 6, 0, []⟩, by decide⟩⟩

theorem witness_KeySessionsGuardWrites :
    (∃ (s : State), s.key.session = true ∧ s.key.running = none) ∧
    (∃ (s : State), s.key.session = true ∧ s.key.running.isSome = true) ∧
    (∃ (s : State) (m : Master), m.toNat < 14 ∧ s.key.session = true ∧ s.key.owner = m) ∧
    (∃ (s : State) (m : Master), m.toNat < 14 ∧ (s.key.session = false ∨ s.key.owner ≠ m)) ∧
    (∃ (s : State) (m : Master), m.toNat < 14 ∧ (s.key.session = false ∨ s.key.owner ≠ m)) ∧
    (∃ (s : State) (m : Master), m.toNat < 14 ∧ s.key.session = true ∧ s.key.owner = m ∧ s.md = 1) ∧
    (∃ (s : State) (m : Master), m.toNat < 14 ∧ s.key.session = true ∧ s.key.owner = m ∧ s.md ≠ 1) :=
  ⟨⟨{State.reset with key := {State.reset.key with running := none, session := true}}, by decide⟩,
    ⟨{State.reset with key := {State.reset.key with running := some ⟨1, 1, true, 0, 6, 0, []⟩, session := true}}, by decide⟩,
    ⟨{State.reset with key := {State.reset.key with session := true, owner := 6}}, 6, by decide⟩,
    ⟨{State.reset with key := {State.reset.key with session := true, owner := 6}}, 7, by decide⟩,
    ⟨{State.reset with key := {State.reset.key with session := true, owner := 6}}, 7, by decide⟩,
    ⟨{inMode 1 State.reset with key := {State.reset.key with session := true, owner := 6}}, 6, by decide⟩,
    ⟨{inMode 3 State.reset with key := {State.reset.key with session := true, owner := 6}}, 6, by decide⟩⟩


theorem witness_LockReadsAreJudgedInOrder :
    (∃ (s : State) (m : Master) (n : Fin 64), m.toNat < 14 ∧ s.mesh.lock[n].holder = some m) ∧
    (∃ (s : State) (m : Master) (n : Fin 64), m.toNat < 14 ∧ s.mesh.lock[n].holder ≠ some m ∧ (∃ j : Fin 64, s.mesh.lock[j].holder = some m ∧ lockClass s n ≤ lockClass s j)) ∧
    (∃ (s : State) (m : Master) (n : Fin 64) (k : Master), m.toNat < 14 ∧ ((∀ j : Fin 64, s.mesh.lock[j].holder = some m → lockClass s j < lockClass s n)) ∧ k ≠ m ∧ s.mesh.lock[n].holder = some k) ∧
    (∃ (s : State) (m : Master) (n : Fin 64), m.toNat < 14 ∧ ((∀ j : Fin 64, s.mesh.lock[j].holder = some m → lockClass s j < lockClass s n)) ∧ s.mesh.lock[n].holder = none) ∧
    (∃ (s : State) (m : Master) (n : Fin 64), m.toNat < 14 ∧ s.mesh.lock[n].holder = none ∧ m ∈ s.mesh.lock[n].waiters ∧ s.mesh.stalls = []) ∧
    (∃ (s : State) (m : Master) (n : Fin 64), m.toNat < 14 ∧ s.mesh.lock[n].holder = some m) ∧
    (∃ (s : State) (m : Master) (n : Fin 64), m.toNat < 14 ∧ s.mesh.lock[n].holder ≠ some m) :=
  ⟨⟨{State.reset with mesh := {State.reset.mesh with lock := State.reset.mesh.lock.set 63 {holder := some 5}}}, 5, 63, by decide⟩,
    ⟨{State.reset with mesh := {State.reset.mesh with lock := (State.reset.mesh.lock.set 63 {holder := some 5}).set 0 {holder := some 4}}}, 5, 0, by decide⟩,
    ⟨{State.reset with mesh := {State.reset.mesh with lock := (Vector.replicate 64 {}).set 0 {holder := some 4}}}, 5, 0, 4, by decide⟩,
    ⟨{State.reset with mesh := {State.reset.mesh with lock := (Vector.replicate 64 {}).set 7 {holder := some 4}}}, 5, 0, by decide⟩,
    ⟨{State.reset with mesh := {State.reset.mesh with stalls := [], lock := State.reset.mesh.lock.set 9 {waiters := [3, 5]}}}, 5, 9, by decide⟩,
    ⟨{State.reset with mesh := {State.reset.mesh with lock := State.reset.mesh.lock.set 9 {holder := some 5, waiters := [3]}}}, 5, 9, by decide⟩,
    ⟨{State.reset with mesh := {State.reset.mesh with lock := State.reset.mesh.lock.set 9 {holder := some 4, waiters := [3]}}}, 5, 9, by decide⟩⟩

theorem witness_SlotTablesSwapAtTheFrame :
    (∃ (s : State) (m : Master) (g : Fin 4), m.toNat < 14 ∧ s.key.session = true ∧ s.key.owner = m ∧ slotTableOk (recD s 0x20 0) s.mesh.access g s.mesh.shadow[g] = true) ∧
    (∃ (s : State) (m : Master) (g : Fin 4), m.toNat < 14 ∧ s.key.session = true ∧ s.key.owner = m ∧ slotTableOk (recD s 0x20 0) s.mesh.access g s.mesh.shadow[g] = false) ∧
    (∃ (s : State) (m : Master), m.toNat < 14 ∧ (s.key.session = false ∨ s.key.owner ≠ m)) :=
  ⟨⟨{withRec 0x99 0 [] State.reset with key := {State.reset.key with records := [], session := true, owner := 6}, mesh := {State.reset.mesh with access := [], shadow := Vector.replicate 4 []}}, 6, 3, by decide⟩,
    ⟨{State.reset with key := {State.reset.key with records := [], session := true, owner := 6}, mesh := {State.reset.mesh with access := [], shadow := Vector.replicate 4 [(0, 0x8F3F)]}}, 6, 3, by decide⟩,
    ⟨{State.reset with key := {State.reset.key with session := true, owner := 7}}, 6, by decide⟩⟩

theorem witness_AccessTablesGuardTransfers :
    (∃ (s : State) (m : Master) (a : Word) (tg : Nat) (k : Nat), m.toNat < 14 ∧ targetOf a.toNat = some tg ∧ modeBars m tg true s = false ∧ transferKind m tg a.toNat 4 true s = k ∧ k ≠ 0) ∧
    (∃ (s : State) (m : Master) (a : Word) (tg : Nat) (k : Nat), m.toNat < 14 ∧ targetOf a.toNat = some tg ∧ modeBars m tg true s = false ∧ transferKind m tg a.toNat 4 true s = k ∧ k ≠ 0) ∧
    (∃ (s : State) (m : Master) (a : Word) (n : Nat) (tg : Nat) (k : Nat), m.toNat < 14 ∧ targetOf a.toNat = some tg ∧ modeBars m tg false s = false ∧ transferKind m tg a.toNat n false s = k ∧ k ≠ 0) :=
  ⟨⟨{State.reset with mesh := {State.reset.mesh with accOn := false}, mode := {State.reset.mode with mode := 3}}, 12, 0x3000C, ((targetOf (0x3000C : Word).toNat).getD 0), (transferKind (12 : Master) (((targetOf (0x3000C : Word).toNat).getD 0) : Nat) (0x3000C : Word).toNat 4 true ({State.reset with mesh := {State.reset.mesh with accOn := false}, mode := {State.reset.mode with mode := 3}} : State)), by decide⟩,
    ⟨{State.reset with mesh := {State.reset.mesh with accOn := true, access := []}, key := {State.reset.key with records := []}, mode := {State.reset.mode with mode := 3}}, 5, 0x3000D, ((targetOf (0x3000D : Word).toNat).getD 0), (transferKind (5 : Master) (((targetOf (0x3000D : Word).toNat).getD 0) : Nat) (0x3000D : Word).toNat 4 true ({State.reset with mesh := {State.reset.mesh with accOn := true, access := []}, key := {State.reset.key with records := []}, mode := {State.reset.mode with mode := 3}} : State)), by decide⟩,
    ⟨{State.reset with mesh := {State.reset.mesh with accOn := false}, mode := {State.reset.mode with mode := 3}}, 12, 0x3000C, 8, ((targetOf (0x3000C : Word).toNat).getD 0), (transferKind (12 : Master) (((targetOf (0x3000C : Word).toNat).getD 0) : Nat) (0x3000C : Word).toNat (8 : Nat) false ({State.reset with mesh := {State.reset.mesh with accOn := false}, mode := {State.reset.mode with mode := 3}} : State)), by decide⟩⟩

theorem witness_MeshTransfersRunOrWait :
    (∃ (s : State) (m : Master) (a : Word) (bs : List Byte), m.toNat < 14 ∧ 0x1000000 ≤ a.toNat ∧ a.toNat < 0x1800000 ∧ ((bs.length = 1 ∨ (bs.length = 8 ∧ a.toNat % 8 = 0))) ∧ modeBars m 16 true s = false ∧ transferKind m 16 a.toNat bs.length true s = 0) ∧
    (∃ (s : State) (m : Master) (a : Word) (bs : List Byte), m.toNat < 14 ∧ 0x1000000 ≤ a.toNat ∧ a.toNat < 0x1800000 ∧ ((bs.length = 1 ∨ (bs.length = 8 ∧ a.toNat % 8 = 0))) ∧ modeBars m 16 true s = false ∧ transferKind m 16 a.toNat bs.length true s = 0) ∧
    (∃ (s : State) (m : Master) (a : Word) (bs : List Byte) (slot : Fin 512), m.toNat < 14 ∧ 0x1000000 ≤ a.toNat ∧ a.toNat < 0x1800000 ∧ ((bs.length = 1 ∨ (bs.length = 8 ∧ a.toNat % 8 = 0))) ∧ modeBars m 16 true s = false ∧ transferKind m 16 a.toNat bs.length true s = 0 ∧ s.mesh.waiting = [] ∧ fitsSlots s 16 slot (beats bs.length) = true) ∧
    (∃ (s : State) (m : Master) (a : Word) (bs : List Byte) (slot : Fin 512), m.toNat < 14 ∧ 0x1000000 ≤ a.toNat ∧ a.toNat < 0x1800000 ∧ ((bs.length = 1 ∨ (bs.length = 8 ∧ a.toNat % 8 = 0))) ∧ modeBars m 16 true s = false ∧ transferKind m 16 a.toNat bs.length true s = 0 ∧ s.mesh.waiting = [] ∧ fitsSlots s 16 slot (beats bs.length) = true) ∧
    (∃ (s : State) (m : Master) (a : Word) (bs : List Byte) (slot : Fin 512) (w : Nat), m.toNat < 14 ∧ 0x1000000 ≤ a.toNat ∧ a.toNat < 0x1800000 ∧ ((bs.length = 1 ∨ (bs.length = 8 ∧ a.toNat % 8 = 0))) ∧ modeBars m 16 true s = false ∧ transferKind m 16 a.toNat bs.length true s = 0 ∧ s.mesh.waiting = [⟨m, a, bs.length, some bs, w⟩] ∧ fitsSlots s 16 slot (beats bs.length) = true) :=
  ⟨⟨{State.reset with mesh := {State.reset.mesh with accOn := false}, mode := {State.reset.mode with mode := 3}}, 5, 0x1000000, ([1]), by decide⟩,
    ⟨{State.reset with mesh := {State.reset.mesh with accOn := false}, mode := {State.reset.mode with mode := 3}}, 5, 0x17FFFF8, ([1, 2, 3, 4, 5, 6, 7, 8]), by decide⟩,
    ⟨{State.reset with mesh := {State.reset.mesh with accOn := false, waiting := [], active := Vector.replicate 4 []}, mode := {State.reset.mode with mode := 3}}, 5, 0x17FFFF8, ([1, 2, 3, 4, 5, 6, 7, 8]), 511, by decide⟩,
    ⟨{State.reset with mesh := {State.reset.mesh with accOn := false, waiting := [], active := Vector.replicate 4 []}, mode := {State.reset.mode with mode := 3}}, 5, 0x17FFFFF, ([1]), 511, by decide⟩,
    ⟨{State.reset with mesh := {State.reset.mesh with accOn := false, waiting := [⟨5, 0x17FFFF8, 8, some [1, 2, 3, 4, 5, 6, 7, 8], 3⟩], active := Vector.replicate 4 []}, mode := {State.reset.mode with mode := 3}}, 5, 0x17FFFF8, ([1, 2, 3, 4, 5, 6, 7, 8]), 511, 3, by decide⟩⟩

theorem witness_RegisterWritesTakeEffect :
    (∃ (s : State) (m : Master), m.toNat < 14 ∧ ((m = 6 ∨ m = 7 → s.md ≠ 0 ∧ s.md ≠ 2)) ∧ m ≠ 8 ∧ (codeFor s m 4 = 2 ∨ codeFor s m 4 = 3)) ∧
    (∃ (s : State) (m : Master) (v : Word) (b : Nat), m.toNat < 14 ∧ ((m = 6 ∨ m = 7 → s.md ≠ 0 ∧ s.md ≠ 2)) ∧ m ≠ 8 ∧ (codeFor s m 4 = 2 ∨ codeFor s m 4 = 3) ∧ b < 7 ∧ v = BitVec.ofNat 32 (2 ^ b)) :=
  ⟨⟨{State.reset with mesh := {State.reset.mesh with accOn := false}, mode := {State.reset.mode with mode := 3}}, 6, by decide⟩,
    ⟨{State.reset with mesh := {State.reset.mesh with accOn := false}, mode := {State.reset.mode with mode := 3}}, 5, 64, 6, by decide⟩⟩

theorem witness_CycleProbeBreaksOneWait :
    (∃ (s : State), (∀ n : Fin 64, s.mesh.lock[n].waiters = [])) ∧
    (∃ (s : State) (p : Fin 64) (q : Fin 64) (x : Master) (y : Master), p ≠ q ∧ x.toNat < 14 ∧ y.toNat < 14 ∧ x ≠ y ∧ s.mesh.stalls = [] ∧ s.mesh.lock[p].holder = some x ∧ s.mesh.lock[q].holder = some y ∧ s.mesh.lock[p].waiters = [y] ∧ s.mesh.lock[q].waiters = [x] ∧ ((∀ n : Fin 64, n ≠ p → n ≠ q → s.mesh.lock[n] = {})) ∧ lockClass s p < lockClass s q) ∧
    (∃ (s : State) (p : Fin 64) (q : Fin 64) (x : Master) (y : Master), p ≠ q ∧ x.toNat < 14 ∧ y.toNat < 14 ∧ x ≠ y ∧ s.mesh.stalls = [] ∧ s.mesh.lock[p].holder = some x ∧ s.mesh.lock[q].holder = some y ∧ s.mesh.lock[p].waiters = [y] ∧ s.mesh.lock[q].waiters = [x] ∧ ((∀ n : Fin 64, n ≠ p → n ≠ q → s.mesh.lock[n] = {})) ∧ lockClass s p < lockClass s q) :=
  ⟨⟨{State.reset with mesh := {State.reset.mesh with lock := State.reset.mesh.lock.map fun x => {x with waiters := []}}}, by decide +kernel⟩,
    ⟨{State.reset with mesh := {State.reset.mesh with stalls := [], lock := ((Vector.replicate 64 {}).set 2 {holder := some 4, waiters := [5]}).set 9 {holder := some 5, waiters := [4]}}, key := {State.reset.key with records := [⟨0x20, 0, pay 64 [(2,1),(9,2)]⟩]}}, 2, 9, 4, 5, by decide⟩,
    ⟨{State.reset with mesh := {State.reset.mesh with stalls := [], lock := ((Vector.replicate 64 {}).set 2 {holder := some 1, waiters := [5]}).set 9 {holder := some 5, waiters := [1]}}, key := {State.reset.key with records := [⟨0x20, 0, pay 64 [(2,1),(9,2)]⟩]}}, 2, 9, 1, 5, by decide⟩⟩


theorem witness_TriggersStartBurstsAndSteps :
    (∃ (s : State) (c : Fin 8), s.time.nextTrig[c] = none) ∧
    (∃ (s : State) (c : Fin 8) (n : Long), s.time.nextTrig[c] = some n ∧ (∀ l : Lane, stepOpen ((s.lane l).eng.ctx[c]) = false)) ∧
    (∃ (s : State) (c : Fin 8) (n : Long), s.time.nextTrig[c] = some n ∧ (∀ l : Lane, stepOpen ((s.lane l).eng.ctx[c]) = false)) ∧
    (∃ (s : State) (c : Fin 8) (n : Long), s.time.nextTrig[c] = some n) ∧
    (∃ (s : State) (c : Fin 8) (n : Long), s.time.nextTrig[c] = some n) :=
  ⟨⟨{State.reset with time := {State.reset.time with nextTrig := State.reset.time.nextTrig.set 7 none}}, 7, by decide⟩,
    ⟨(shut ({State.reset with raw := 5, time := {State.reset.time with nextTrig := State.reset.time.nextTrig.set 3 (some 9)}})), 3, 9, by
      and_intros <;> first | rfl | decide | exact ⟨_, rfl⟩ | (intro x; cases x <;> first | rfl | decide | decide +kernel) | decide +kernel⟩,
    ⟨(shut (withRec 0x40 3 [] {lanesUp (inMode 3 State.reset) with raw := 5, time := {State.reset.time with nextTrig := State.reset.time.nextTrig.set 3 (some 9)}})), 3, 9, by
      and_intros <;> first | rfl | decide | exact ⟨_, rfl⟩ | (intro x; cases x <;> first | rfl | decide | decide +kernel) | decide +kernel⟩,
    ⟨{State.reset with raw := 5, time := {State.reset.time with nextTrig := State.reset.time.nextTrig.set 3 (some 9)}}, 3, 9, by decide⟩,
    ⟨(setCtx .a 3 {State.reset.laneA.eng.ctx[3] with vecDue := true} (withRec 0x40 3 [] {lanesUp (inMode 3 State.reset) with raw := 5, time := {State.reset.time with nextTrig := State.reset.time.nextTrig.set 3 (some 9)}})), 3, 9, by decide⟩⟩

theorem witness_ConvertersSampleAndSleep :
    (∃ (s : State) (l : Lane) (p : Fin 32), (s.md < 3 ∨ laneUp l s = false ∨ pinOn p s = false ∨ (Claim.pinOf l p s).absent = true)) ∧
    (∃ (s : State) (l : Lane) (p : Fin 32) (vp : Int) (vn : Int), 3 ≤ s.md ∧ laneUp l s = true ∧ pinOn p s = true ∧ (Claim.pinOf l p s).absent = false ∧ ((pinTrig p s = false ∨ 0 < (Claim.pinOf l p s).burstLeft)) ∧ vp.natAbs ≤ 12500000000 ∧ vn.natAbs ≤ 12500000000 ∧ codeTie (vp - vn) = false ∧ (Claim.pinOf l p s).overdrive = false ∧ (Claim.pinOf l p s).recoverTo ≤ s.now ∧ disturbed l p s = false) ∧
    (∃ (s : State) (l : Lane) (p : Fin 32) (vp : Int) (vn : Int), 3 ≤ s.md ∧ laneUp l s = true ∧ pinOn p s = true ∧ (Claim.pinOf l p s).absent = false ∧ ((pinTrig p s = false ∨ 0 < (Claim.pinOf l p s).burstLeft)) ∧ vp.natAbs ≤ 12500000000 ∧ vn.natAbs ≤ 12500000000 ∧ codeTie (vp - vn) = false ∧ (Claim.pinOf l p s).overdrive = false ∧ (Claim.pinOf l p s).recoverTo ≤ s.now ∧ disturbed l p s = false) ∧
    (∃ (s : State) (l : Lane) (p : Fin 32) (vp : Int) (vn : Int), 3 ≤ s.md ∧ laneUp l s = true ∧ pinOn p s = true ∧ (Claim.pinOf l p s).absent = false ∧ ((pinTrig p s = false ∨ 0 < (Claim.pinOf l p s).burstLeft)) ∧ (12500000000 < vp.natAbs ∨ 12500000000 < vn.natAbs) ∧ vp ≠ vn) ∧
    (∃ (s : State) (l : Lane) (p : Fin 32), 3 ≤ s.md ∧ laneUp l s = true ∧ pinOn p s = true ∧ pinTrig p s = true ∧ (Claim.pinOf l p s).asleep = false ∧ (Claim.pinOf l p s).burstLeft = 0) :=
  ⟨⟨(inMode 2 State.reset), .a, 31, by decide⟩,
    ⟨(setOnly .b 31 {State.reset.laneB.meas.pin[31] with absent := false, overdrive := false, recoverTo := 0} (withRec 0x30 31 [] (lanesUp (inMode 3 State.reset)))), .b, 31, 32000, 0, by decide +kernel⟩,
    ⟨(setOnly .b 31 {State.reset.laneB.meas.pin[31] with absent := false, overdrive := false, recoverTo := 0, burstLeft := 1} (withRec 0x30 31 (pay 32 [(0, 1), (1, 2)]) (lanesUp (inMode 3 State.reset)))), .b, 31, 32000, 0, by decide +kernel⟩,
    ⟨(setPin .b 31 {State.reset.laneB.meas.pin[31] with absent := false} (withRec 0x30 31 [] (lanesUp (inMode 3 State.reset)))), .b, 31, 12500000001, 0, by decide⟩,
    ⟨(setPin .b 31 {State.reset.laneB.meas.pin[31] with asleep := false, burstLeft := 0} (withRec 0x30 31 (pay 32 [(0, 1)]) (lanesUp (inMode 3 State.reset)))), .b, 31, by decide⟩⟩

theorem witness_WindowsAndOpenWiresReport :
    (∃ (s : State) (l : Lane) (p : Fin 32), (Claim.pinOf l p s).winExit ≠ 0) ∧
    (∃ (s : State) (l : Lane) (p : Fin 32), (Claim.pinOf l p s).winExit = 0) ∧
    (∃ (s : State) (l : Lane) (p : Fin 32) (at0 : Nat), (Claim.pinOf l p s).fullSince = some at0 ∧ pinOn p s = true ∧ owEn p s = true ∧ (Claim.pinOf l p s).opened = false) ∧
    (∃ (s : State) (l : Lane) (p : Fin 32), (Claim.pinOf l p s).fullSince = none) ∧
    (∃ (s : State), s.md ≠ 3) ∧
    (∃ (s : State) (l : Lane) (p : Fin 32), s.md = 3 ∧ (s.lane l).meas.pinSel.toNat = p.val ∧ pinOn p s = true) ∧
    (∃ (s : State) (l : Lane) (p : Fin 32) (end0 : Nat), (Claim.pinOf l p s).owTest = some end0) :=
  ⟨⟨(setPin .a 0 {State.reset.laneA.meas.pin[0] with winExit := 1} State.reset), .a, 0, by decide⟩,
    ⟨(setPin .a 0 {State.reset.laneA.meas.pin[0] with winExit := 0} State.reset), .a, 0, by decide⟩,
    ⟨(setPin .a 0 {State.reset.laneA.meas.pin[0] with fullSince := some 5, opened := false} (withRec 0x30 0 (pay 32 [(15, 1), (16, 9)]) State.reset)), .a, 0, 5, by decide⟩,
    ⟨(setPin .a 0 {State.reset.laneA.meas.pin[0] with fullSince := none, opened := false} State.reset), .a, 0, by decide⟩,
    ⟨(inMode 4 State.reset), by decide⟩,
    ⟨(modMeas .b (fun m => {m with pinSel := 7}) (withRec 0x30 7 [] (inMode 3 State.reset))), .b, 7, by decide⟩,
    ⟨(setPin .b 7 {State.reset.laneB.meas.pin[7] with owTest := some 6} State.reset), .b, 7, 6, by decide⟩⟩

theorem witness_CrossChecksVoteAndReplace :
    (∃ (s : State) (p : Fin 32) (tol : Nat) (l : Lane) (k : Fin 4), tol = 64 * u16 (pinRec p s) 12 ∧ (∀ x : Lane, (Claim.pinOf x p s).vote = none) ∧ (Claim.pinOf l p s).xchkDue = true ∧ firstSpare .a s = some k) ∧
    (∃ (s : State) (p : Fin 32) (tol : Nat) (l : Lane), tol = 64 * u16 (pinRec p s) 12 ∧ (∀ x : Lane, (Claim.pinOf x p s).vote = none) ∧ (Claim.pinOf l p s).xchkDue = true ∧ firstSpare .a s = none ∧ firstSpare .b s = none) ∧
    (∃ (s : State) (p : Fin 32) (tol : Nat) (l : Lane), tol = 64 * u16 (pinRec p s) 12 ∧ (∀ x : Lane, (Claim.pinOf x p s).vote = none) ∧ (Claim.pinOf l p s).xchkDue = false) ∧
    (∃ (s : State) (p : Fin 32) (tol : Nat) (sp : Int) (sc : Int) (ss : Int) (k : Fin 4) (v : State), tol = 64 * u16 (pinRec p s) 12 ∧ (∀ x : Lane, (Claim.pinOf x p s).vote = none) ∧ v = modPins p (fun q => { q with vote := some (.a, k) }) s ∧ (Claim.pinOf .a p s).primaryB = false ∧ (Claim.pinOf .b p s).primaryB = false ∧ tol < (sp - ss).natAbs ∧ (sc - ss).natAbs ≤ tol) ∧
    (∃ (s : State) (p : Fin 32) (tol : Nat) (sp : Int) (sc : Int) (ss : Int) (k : Fin 4) (v : State), tol = 64 * u16 (pinRec p s) 12 ∧ (∀ x : Lane, (Claim.pinOf x p s).vote = none) ∧ v = modPins p (fun q => { q with vote := some (.a, k) }) s ∧ (Claim.pinOf .a p s).primaryB = false ∧ (Claim.pinOf .b p s).primaryB = false ∧ (((sp - ss).natAbs ≤ tol ↔ (sc - ss).natAbs ≤ tol))) ∧
    (∃ (s : State) (p : Fin 32) (tol : Nat) (l : Lane) (k : Fin 4) (w : Bool), tol = 64 * u16 (pinRec p s) 12 ∧ (∀ x : Lane, (Claim.pinOf x p s).vote = none) ∧ (Claim.pinOf l p s).swap = some (k, w) ∧ (Claim.pinOf l p s).swapDue = true) ∧
    (∃ (s : State) (p : Fin 32) (tol : Nat) (l : Lane) (k : Fin 4) (w : Bool), tol = 64 * u16 (pinRec p s) 12 ∧ (∀ x : Lane, (Claim.pinOf x p s).vote = none) ∧ (Claim.pinOf l p s).swap = some (k, w) ∧ (Claim.pinOf l p s).swapDue = true) ∧
    (∃ (s : State) (p : Fin 32) (tol : Nat) (l : Lane), tol = 64 * u16 (pinRec p s) 12 ∧ (∀ x : Lane, (Claim.pinOf x p s).vote = none) ∧ (Claim.pinOf l p s).swapDue = false) ∧
    (∃ (s : State) (p : Fin 32) (tol : Nat) (l : Lane), tol = 64 * u16 (pinRec p s) 12 ∧ (∀ x : Lane, (Claim.pinOf x p s).vote = none) ∧ laneUp l s = true ∧ 3 ≤ s.md) :=
  ⟨⟨(modMeas .a (fun m => {m with pin := m.pin.map (fun q => {q with vote := none, xchkDue := true, swap := none, conv := 0}), spareUsed := Vector.replicate 4 false}) (modMeas .b (fun m => {m with pin := m.pin.map (fun q => {q with vote := none})}) State.reset)), 3, (64 * u16 (pinRec 3 ((modMeas .a (fun m => {m with pin := m.pin.map (fun q => {q with vote := none, xchkDue := true, swap := none, conv := 0}), spareUsed := Vector.replicate 4 false}) (modMeas .b (fun m => {m with pin := m.pin.map (fun q => {q with vote := none})}) State.reset)) : State)) 12), .a, 0, by
      and_intros <;> first | rfl | decide | exact ⟨_, rfl⟩ | (intro x; cases x <;> first | rfl | decide | decide +kernel) | decide +kernel⟩,
    ⟨(modMeas .a (fun m => {m with pin := m.pin.map (fun q => {q with vote := none, xchkDue := true}), spareUsed := Vector.replicate 4 true}) (modMeas .b (fun m => {m with pin := m.pin.map (fun q => {q with vote := none}), spareUsed := Vector.replicate 4 true}) State.reset)), 3, (64 * u16 (pinRec 3 ((modMeas .a (fun m => {m with pin := m.pin.map (fun q => {q with vote := none, xchkDue := true}), spareUsed := Vector.replicate 4 true}) (modMeas .b (fun m => {m with pin := m.pin.map (fun q => {q with vote := none}), spareUsed := Vector.replicate 4 true}) State.reset)) : State)) 12), .a, by
      and_intros <;> first | rfl | decide | exact ⟨_, rfl⟩ | (intro x; cases x <;> first | rfl | decide | decide +kernel) | decide +kernel⟩,
    ⟨(modMeas .a (fun m => {m with pin := m.pin.map (fun q => {q with vote := none, xchkDue := false})}) (modMeas .b (fun m => {m with pin := m.pin.map (fun q => {q with vote := none})}) State.reset)), 3, (64 * u16 (pinRec 3 ((modMeas .a (fun m => {m with pin := m.pin.map (fun q => {q with vote := none, xchkDue := false})}) (modMeas .b (fun m => {m with pin := m.pin.map (fun q => {q with vote := none})}) State.reset)) : State)) 12), .a, by
      and_intros <;> first | rfl | decide | exact ⟨_, rfl⟩ | (intro x; cases x <;> first | rfl | decide | decide +kernel) | decide +kernel⟩,
    ⟨(withRec 0x30 3 (pay 32 [(12, 1)]) (modMeas .a (fun m => {m with pin := m.pin.map (fun q => {q with vote := none, primaryB := false})}) (modMeas .b (fun m => {m with pin := m.pin.map (fun q => {q with vote := none, primaryB := false})}) State.reset))), 3, (64 * u16 (pinRec 3 ((withRec 0x30 3 (pay 32 [(12, 1)]) (modMeas .a (fun m => {m with pin := m.pin.map (fun q => {q with vote := none, primaryB := false})}) (modMeas .b (fun m => {m with pin := m.pin.map (fun q => {q with vote := none, primaryB := false})}) State.reset))) : State)) 12), 165, 36, 100, 2, (modPins (3 : Fin 32) (fun q => { q with vote := some (.a, (2 : Fin 4)) }) ((withRec 0x30 3 (pay 32 [(12, 1)]) (modMeas .a (fun m => {m with pin := m.pin.map (fun q => {q with vote := none, primaryB := false})}) (modMeas .b (fun m => {m with pin := m.pin.map (fun q => {q with vote := none, primaryB := false})}) State.reset))) : State)), by
      and_intros <;> first | rfl | decide | exact ⟨_, rfl⟩ | (intro x; cases x <;> first | rfl | decide | decide +kernel) | decide +kernel⟩,
    ⟨(withRec 0x30 3 (pay 32 [(12, 1)]) (modMeas .a (fun m => {m with pin := m.pin.map (fun q => {q with vote := none, primaryB := false})}) (modMeas .b (fun m => {m with pin := m.pin.map (fun q => {q with vote := none, primaryB := false})}) State.reset))), 3, (64 * u16 (pinRec 3 ((withRec 0x30 3 (pay 32 [(12, 1)]) (modMeas .a (fun m => {m with pin := m.pin.map (fun q => {q with vote := none, primaryB := false})}) (modMeas .b (fun m => {m with pin := m.pin.map (fun q => {q with vote := none, primaryB := false})}) State.reset))) : State)) 12), 165, 35, 100, 2, (modPins (3 : Fin 32) (fun q => { q with vote := some (.a, (2 : Fin 4)) }) ((withRec 0x30 3 (pay 32 [(12, 1)]) (modMeas .a (fun m => {m with pin := m.pin.map (fun q => {q with vote := none, primaryB := false})}) (modMeas .b (fun m => {m with pin := m.pin.map (fun q => {q with vote := none, primaryB := false})}) State.reset))) : State)), by
      and_intros <;> first | rfl | decide | exact ⟨_, rfl⟩ | (intro x; cases x <;> first | rfl | decide | decide +kernel) | decide +kernel⟩,
    ⟨(modMeas .a (fun m => {m with pin := m.pin.map (fun q => {q with vote := none, swap := some (2, true), swapDue := true})}) (modMeas .b (fun m => {m with pin := m.pin.map (fun q => {q with vote := none})}) State.reset)), 3, (64 * u16 (pinRec 3 ((modMeas .a (fun m => {m with pin := m.pin.map (fun q => {q with vote := none, swap := some (2, true), swapDue := true})}) (modMeas .b (fun m => {m with pin := m.pin.map (fun q => {q with vote := none})}) State.reset)) : State)) 12), .a, 2, true, by
      and_intros <;> first | rfl | decide | exact ⟨_, rfl⟩ | (intro x; cases x <;> first | rfl | decide | decide +kernel) | decide +kernel⟩,
    ⟨(modMeas .a (fun m => {m with pin := m.pin.map (fun q => {q with vote := none, swap := some (2, false), swapDue := true})}) (modMeas .b (fun m => {m with pin := m.pin.map (fun q => {q with vote := none})}) State.reset)), 3, (64 * u16 (pinRec 3 ((modMeas .a (fun m => {m with pin := m.pin.map (fun q => {q with vote := none, swap := some (2, false), swapDue := true})}) (modMeas .b (fun m => {m with pin := m.pin.map (fun q => {q with vote := none})}) State.reset)) : State)) 12), .a, 2, false, by
      and_intros <;> first | rfl | decide | exact ⟨_, rfl⟩ | (intro x; cases x <;> first | rfl | decide | decide +kernel) | decide +kernel⟩,
    ⟨(modMeas .a (fun m => {m with pin := m.pin.map (fun q => {q with vote := none, swap := some (2, false), swapDue := false})}) (modMeas .b (fun m => {m with pin := m.pin.map (fun q => {q with vote := none})}) State.reset)), 3, (64 * u16 (pinRec 3 ((modMeas .a (fun m => {m with pin := m.pin.map (fun q => {q with vote := none, swap := some (2, false), swapDue := false})}) (modMeas .b (fun m => {m with pin := m.pin.map (fun q => {q with vote := none})}) State.reset)) : State)) 12), .a, by
      and_intros <;> first | rfl | decide | exact ⟨_, rfl⟩ | (intro x; cases x <;> first | rfl | decide | decide +kernel) | decide +kernel⟩,
    ⟨(lanesUp (inMode 3 (modMeas .a (fun m => {m with pin := m.pin.map (fun q => {q with vote := none})}) (modMeas .b (fun m => {m with pin := m.pin.map (fun q => {q with vote := none})}) State.reset)))), 3, (64 * u16 (pinRec 3 ((lanesUp (inMode 3 (modMeas .a (fun m => {m with pin := m.pin.map (fun q => {q with vote := none})}) (modMeas .b (fun m => {m with pin := m.pin.map (fun q => {q with vote := none})}) State.reset)))) : State)) 12), .a, by
      and_intros <;> first | rfl | decide | exact ⟨_, rfl⟩ | (intro x; cases x <;> first | rfl | decide | decide +kernel) | decide +kernel⟩⟩

theorem witness_FilterChainsAreControlled :
    (∃ (s : State) (l : Lane) (p : Fin 32) (m : Master), (s.lane l).meas.fltSel.toNat = p.val ∧ pinOn p s = true ∧ pinChain p s = false ∧ m.toNat < 14) ∧
    (∃ (s : State) (l : Lane) (p : Fin 32) (v : Word), (s.lane l).meas.fltSel.toNat = p.val ∧ pinOn p s = true ∧ pinChain p s = true ∧ bit v 0 ≠ (Claim.pinOf l p s).run ∧ s.md ≠ 3 ∧ s.md ≠ 11) ∧
    (∃ (s : State) (l : Lane) (p : Fin 32) (v : Word), (s.lane l).meas.fltSel.toNat = p.val ∧ pinOn p s = true ∧ pinChain p s = true ∧ ((s.md = 3 ∨ s.md = 11)) ∧ bit v 0 = false ∧ (Claim.pinOf l p s).run = true) ∧
    (∃ (s : State) (l : Lane) (p : Fin 32) (v : Word), (s.lane l).meas.fltSel.toNat = p.val ∧ pinOn p s = true ∧ pinChain p s = true ∧ ((s.md = 3 ∨ s.md = 11)) ∧ bit v 0 = true ∧ (Claim.pinOf l p s).run = false) ∧
    (∃ (s : State) (l : Lane) (p : Fin 32) (m : Master), (s.lane l).meas.fltSel.toNat = p.val ∧ pinOn p s = true ∧ pinChain p s = true ∧ m.toNat < 14 ∧ s.key.session = true ∧ s.key.owner = m ∧ s.md = 3 ∧ (Claim.pinOf l p s).run = true) ∧
    (∃ (s : State) (l : Lane) (p : Fin 32) (m : Master), (s.lane l).meas.fltSel.toNat = p.val ∧ pinOn p s = true ∧ pinChain p s = true ∧ m.toNat < 14 ∧ s.key.session = true ∧ s.key.owner = m ∧ s.md = 3 ∧ (Claim.pinOf l p s).run = false ∧ (Claim.pinOf l p s).coefSel.toNat < (Claim.pinOf l p s).coef.length) :=
  ⟨⟨(modMeas .a (fun m => {m with fltSel := 5}) (withRec 0x30 5 [] State.reset)), .a, 5, 6, by decide⟩,
    ⟨(setPin .a 5 {State.reset.laneA.meas.pin[5] with run := false} (modMeas .a (fun m => {m with fltSel := 5}) (addRec 0x31 5 [] (withRec 0x30 5 [] (inMode 4 State.reset))))), .a, 5, 3, by decide⟩,
    ⟨(setPin .a 5 {State.reset.laneA.meas.pin[5] with run := true} (modMeas .a (fun m => {m with fltSel := 5}) (addRec 0x31 5 [] (withRec 0x30 5 [] (inMode 11 State.reset))))), .a, 5, 2, by decide⟩,
    ⟨(setPin .a 5 {State.reset.laneA.meas.pin[5] with run := false} (modMeas .a (fun m => {m with fltSel := 5}) (addRec 0x31 5 [] (withRec 0x30 5 [] (inMode 11 State.reset))))), .a, 5, 3, by decide⟩,
    ⟨{setPin .a 5 {State.reset.laneA.meas.pin[5] with run := true} (modMeas .a (fun m => {m with fltSel := 5}) (addRec 0x31 5 [] (withRec 0x30 5 [] (inMode 3 State.reset)))) with key := {State.reset.key with records := [⟨0x30, 5, []⟩, ⟨0x31, 5, []⟩], session := true, owner := 6}}, .a, 5, 6, by decide⟩,
    ⟨{setPin .a 5 {State.reset.laneA.meas.pin[5] with run := false, coefSel := 1, coef := [0, 1]} (modMeas .a (fun m => {m with fltSel := 5}) (addRec 0x31 5 [] (withRec 0x30 5 [] (inMode 3 State.reset)))) with key := {State.reset.key with records := [⟨0x30, 5, []⟩, ⟨0x31, 5, []⟩], session := true, owner := 6}}, .a, 5, 6, by decide⟩⟩


theorem witness_AgreedVectorsFallDue :
    (∃ (s : State) (c : Fin 8) (g : Graph), graphOf c s = some g ∧ laneUp .a s = true ∧ laneUp .b s = true ∧ (tsuOut s .a).up = true ∧ (tsuOut s .b).up = true ∧ (∀ l : Lane, (Claim.ctxOf l c s).vecDue = true)) ∧
    (∃ (s : State) (c : Fin 8) (g : Graph), graphOf c s = some g ∧ laneUp .a s = true ∧ laneUp .b s = true ∧ (tsuOut s .a).up = true ∧ (tsuOut s .b).up = true ∧ (∀ l : Lane, (Claim.ctxOf l c s).vecDue = true)) ∧
    (∃ (s : State) (c : Fin 8) (g : Graph) (p : Fin 32), graphOf c s = some g ∧ laneUp .a s = true ∧ laneUp .b s = true ∧ (tsuOut s .a).up = true ∧ (tsuOut s .b).up = true ∧ (∀ l : Lane, (Claim.ctxOf l c s).vecDue = true) ∧ p ∈ ctxPins c s) :=
  ⟨⟨(addRec 0x30 4 [] (withRec 0x40 2 gPay (lanesUp (setCtx .b 2 {State.reset.laneB.eng.ctx[2] with vecDue := true} (setCtx .a 2 {State.reset.laneA.eng.ctx[2] with vecDue := true} State.reset))))), 2, (parseGraph gPay), by
      and_intros <;> first | rfl | decide | exact ⟨_, rfl⟩ | (intro x; cases x <;> first | rfl | decide | decide +kernel) | decide +kernel⟩,
    ⟨(addRec 0x30 4 (pay 32 [(1, 2)]) (withRec 0x40 2 gPay (lanesUp (setCtx .b 2 {State.reset.laneB.eng.ctx[2] with vecDue := true} (setCtx .a 2 {State.reset.laneA.eng.ctx[2] with vecDue := true} State.reset))))), 2, (parseGraph gPay), by
      and_intros <;> first | rfl | decide | exact ⟨_, rfl⟩ | (intro x; cases x <;> first | rfl | decide | decide +kernel) | decide +kernel⟩,
    ⟨(addRec 0x30 4 [] (withRec 0x40 2 gPay (lanesUp (setCtx .b 2 {State.reset.laneB.eng.ctx[2] with vecDue := true} (setCtx .a 2 {State.reset.laneA.eng.ctx[2] with vecDue := true} State.reset))))), 2, (parseGraph gPay), 4, by
      and_intros <;> first | rfl | decide | exact ⟨_, rfl⟩ | (intro x; cases x <;> first | rfl | decide | decide +kernel) | decide +kernel⟩⟩

theorem witness_StepsStartAndCommit :
    (∃ (s : State) (l : Lane) (c : Fin 8) (v : List (Nat × Word)), laneUp l s = true ∧ preempted l c s = false ∧ (Claim.ctxOf l c s).vec = some v ∧ (Claim.ctxOf l c s).run = none ∧ gfCtx s ≠ some c ∧ (Claim.ctxOf l c s).pend = []) ∧
    (∃ (s : State) (l : Lane) (c : Fin 8) (v : List (Nat × Word)) (n : Nat), laneUp l s = true ∧ preempted l c s = false ∧ (Claim.ctxOf l c s).vec = some v ∧ (Claim.ctxOf l c s).run = none ∧ gfCtx s ≠ some c ∧ (Claim.ctxOf l c s).pend = [(some n, .swap)] ∧ n ≤ (Claim.ctxOf l c s).stepNo) ∧
    (∃ (s : State) (l : Lane) (c : Fin 8), laneUp l s = true ∧ preempted l c s = false ∧ (Claim.ctxOf l c s).vec = none) ∧
    (∃ (s : State) (l : Lane) (c : Fin 8) (g : Graph) (r : RunStep), laneUp l s = true ∧ preempted l c s = false ∧ graphOf c s = some g ∧ (Claim.ctxOf l c s).run = some r ∧ r.since = none) ∧
    (∃ (s : State) (l : Lane) (c : Fin 8) (g : Graph) (r : RunStep) (t0 : Nat), laneUp l s = true ∧ preempted l c s = false ∧ graphOf c s = some g ∧ (Claim.ctxOf l c s).run = some r ∧ r.since = some t0 ∧ stepEnd l g r t0 s ≤ (Claim.ctxOf l c s).trigAt + g.deadline) ∧
    (∃ (s : State) (l : Lane) (c : Fin 8) (g : Graph) (r : RunStep) (t0 : Nat), laneUp l s = true ∧ preempted l c s = false ∧ graphOf c s = some g ∧ (Claim.ctxOf l c s).run = some r ∧ r.since = some t0 ∧ stepEnd l g r t0 s ≤ (Claim.ctxOf l c s).trigAt + g.deadline) ∧
    (∃ (s : State) (l : Lane) (c : Fin 8) (g : Graph) (r : RunStep) (t0 : Nat), laneUp l s = true ∧ preempted l c s = false ∧ graphOf c s = some g ∧ (Claim.ctxOf l c s).run = some r ∧ r.since = some t0 ∧ (Claim.ctxOf l c s).trigAt + g.deadline < stepEnd l g r t0 s) :=
  ⟨⟨(lanesUp (setCtx .a 2 {State.reset.laneA.eng.ctx[2] with vec := some [], run := none, pend := []} (noRecs {State.reset with laneA := {State.reset.laneA with eng := {State.reset.laneA.eng with ctx := Vector.replicate 8 {}}}}))), .a, 2, ([]), by decide⟩,
    ⟨(lanesUp (setCtx .a 2 {State.reset.laneA.eng.ctx[2] with vec := some [], run := none, pend := [(some 3, .swap)], stepNo := 3} (noRecs {State.reset with laneA := {State.reset.laneA with eng := {State.reset.laneA.eng with ctx := Vector.replicate 8 {}}}}))), .a, 2, ([]), 3, by decide⟩,
    ⟨(lanesUp (setCtx .a 2 {State.reset.laneA.eng.ctx[2] with vec := none} (noRecs {State.reset with laneA := {State.reset.laneA with eng := {State.reset.laneA.eng with ctx := Vector.replicate 8 {}}}}))), .a, 2, by decide⟩,
    ⟨(lanesUp (setCtx .a 2 {State.reset.laneA.eng.ctx[2] with trigAt := 4000, run := some ⟨5, 0, none, 0, [(1, 0)], true⟩} (addRec 0x30 4 [] (withRec 0x40 2 gPay {State.reset with now := 10, laneA := {State.reset.laneA with eng := {State.reset.laneA.eng with fmaLost := [], ctx := Vector.replicate 8 {}}}})))), .a, 2, (parseGraph gPay), ⟨5, 0, none, 0, [(1, 0)], true⟩, by decide⟩,
    ⟨(lanesUp (setCtx .a 2 {State.reset.laneA.eng.ctx[2] with trigAt := 4000, run := some ⟨5, 0, some 5, 0, [(1, 0)], true⟩} (addRec 0x30 4 [] (withRec 0x40 2 gPay {State.reset with now := 10, laneA := {State.reset.laneA with eng := {State.reset.laneA.eng with fmaLost := [], ctx := Vector.replicate 8 {}}}})))), .a, 2, (parseGraph gPay), ⟨5, 0, some 5, 0, [(1, 0)], true⟩, 5, by decide⟩,
    ⟨(lanesUp (setCtx .a 2 {State.reset.laneA.eng.ctx[2] with trigAt := 4000, run := some ⟨5, 0, some 5, 0, [(1, 0)], false⟩} (addRec 0x30 4 [] (withRec 0x40 2 gPay {State.reset with now := 10, laneA := {State.reset.laneA with eng := {State.reset.laneA.eng with fmaLost := [], ctx := Vector.replicate 8 {}}}})))), .a, 2, (parseGraph gPay), ⟨5, 0, some 5, 0, [(1, 0)], false⟩, 5, by decide⟩,
    ⟨(lanesUp (setCtx .a 2 {State.reset.laneA.eng.ctx[2] with trigAt := 10, run := some ⟨5, 0, some 5, 0, [(1, 0)], true⟩} (addRec 0x30 4 [] (withRec 0x40 2 gPay {State.reset with now := 10000, laneA := {State.reset.laneA with eng := {State.reset.laneA.eng with ctx := Vector.replicate 8 {}}}})))), .a, 2, (parseGraph gPay), ⟨5, 0, some 5, 0, [(1, 0)], true⟩, 5, by decide⟩⟩

theorem witness_MissedDeadlinesFaultTheLane :
    (∃ (s : State) (l : Lane) (c : Fin 8), ctxUsed l c s = true ∧ stepOpen (Claim.ctxOf l c s) = true) ∧
    (∃ (s : State) (l : Lane) (c : Fin 8), ctxUsed l c s = true ∧ stepOpen (Claim.ctxOf l c s) = true) :=
  ⟨⟨(lanesUp (setCtx .a 2 {State.reset.laneA.eng.ctx[2] with state := 2, run := some ⟨5, 0, some 5, 0, [], true⟩, missRun := 1} State.reset)), .a, 2, by decide⟩,
    ⟨(lanesUp (setCtx .a 2 {State.reset.laneA.eng.ctx[2] with state := 2, run := some ⟨5, 0, some 5, 0, [], true⟩, missRun := 2} State.reset)), .a, 2, by decide⟩⟩

theorem witness_FmaUnitsAreReplaced :
    (∃ (s : State) (l : Lane) (u : Fin 18), laneUp l s = true ∧ (s.lane l).eng.fmaLost = [] ∧ u.val < 16) ∧
    (∃ (s : State) (l : Lane) (u : Fin 18) (x : Fin 18) (y : Fin 18), laneUp l s = true ∧ (s.lane l).eng.fmaLost = [x, y] ∧ x ≠ y ∧ u ≠ x ∧ u ≠ y) ∧
    (∃ (s : State) (l : Lane) (u : Fin 18), laneUp l s = true ∧ u ∈ (s.lane l).eng.fmaLost) ∧
    (∃ (s : State) (l : Lane) (u : Fin 18) (c : Fin 8), laneUp l s = true ∧ u ∉ (s.lane l).eng.fmaLost ∧ (Claim.ctxOf l c s).run.isSome = true ∧ (Claim.ctxOf l c s).missRun.val < 2) ∧
    (∃ (s : State) (l : Lane), laneUp l s = true ∧ 3 ≤ s.md) :=
  ⟨⟨(modEng .b (fun m => {m with fmaLost := []}) (lanesUp State.reset)), .b, 15, by decide⟩,
    ⟨(modEng .b (fun m => {m with fmaLost := [3, 4]}) (lanesUp State.reset)), .b, 17, 3, 4, by decide⟩,
    ⟨(modEng .b (fun m => {m with fmaLost := [3, 4]}) (lanesUp State.reset)), .b, 3, by decide⟩,
    ⟨(lanesUp (setCtx .a 2 {State.reset.laneA.eng.ctx[2] with run := some ⟨5, 0, some 5, 0, [], true⟩, missRun := 1} (modEng .a (fun m => {m with fmaLost := []}) State.reset))), .a, 0, 2, by decide⟩,
    ⟨(lanesUp (inMode 3 State.reset)), .a, by decide⟩⟩

theorem witness_CoefficientChangesWait :
    (∃ (s : State) (l : Lane) (c : Fin 8) (x : EngState) (v : Word), x = (s.lane l).eng ∧ x.ctxSel.toNat = c.val ∧ (tsuOut s l).up = true ∧ normalWord v = true ∧ ((s.md = 3 ∨ s.md = 11)) ∧ (((Claim.ctxOf l c s).live = true ∨ (Claim.ctxOf l c s).bank ≠ x.coefBank))) ∧
    (∃ (s : State) (l : Lane) (c : Fin 8) (x : EngState) (v : Word), x = (s.lane l).eng ∧ x.ctxSel.toNat = c.val ∧ (tsuOut s l).up = true ∧ normalWord v = false) ∧
    (∃ (s : State) (l : Lane) (c : Fin 8) (x : EngState), x = (s.lane l).eng ∧ x.ctxSel.toNat = c.val ∧ (tsuOut s l).up = true ∧ (Claim.ctxOf l c s).live = false ∧ (Claim.ctxOf l c s).bank = x.coefBank) ∧
    (∃ (s : State) (l : Lane) (c : Fin 8) (x : EngState), x = (s.lane l).eng ∧ x.ctxSel.toNat = c.val ∧ (tsuOut s l).up = true ∧ u8 (recD s 0x40 c.val) 20 ≠ 1 ∧ s.md ≠ 3 ∧ s.md ≠ 11) ∧
    (∃ (s : State) (l : Lane) (c : Fin 8) (x : EngState), x = (s.lane l).eng ∧ x.ctxSel.toNat = c.val ∧ (tsuOut s l).up = true ∧ ((s.md = 3 ∨ s.md = 11)) ∧ swapWaits (Claim.ctxOf l c s) = true) ∧
    (∃ (s : State) (l : Lane) (c : Fin 8) (x : EngState), x = (s.lane l).eng ∧ x.ctxSel.toNat = c.val ∧ (tsuOut s l).up = true ∧ ((s.md = 3 ∨ s.md = 11)) ∧ swapWaits (Claim.ctxOf l c s) = false) ∧
    (∃ (s : State) (l : Lane) (c : Fin 8) (x : EngState) (w : Word) (rest : List MirrorWrite) (crc : Nat), x = (s.lane l).eng ∧ x.ctxSel.toNat = c.val ∧ (tsuOut s l).up = true ∧ (tsuOut s l).queue = .coef c x.coefBank 5 w :: rest ∧ crc < 5 ∧ (Claim.ctxOf l c s).pend = [(none, .coef x.coefBank 5 w)]) :=
  ⟨⟨(inMode 3 (lanesUp (setCtx .a 2 {State.reset.laneA.eng.ctx[2] with live := true} (modEng .a (fun m => {m with ctxSel := 2}) State.reset)))), .a, 2, ((((inMode 3 (lanesUp (setCtx .a 2 {State.reset.laneA.eng.ctx[2] with live := true} (modEng .a (fun m => {m with ctxSel := 2}) State.reset)))) : State).lane .a).eng), 0x3F800000, by decide⟩,
    ⟨(inMode 3 (lanesUp (modEng .a (fun m => {m with ctxSel := 2}) State.reset))), .a, 2, ((((inMode 3 (lanesUp (modEng .a (fun m => {m with ctxSel := 2}) State.reset))) : State).lane .a).eng), 0x7F800000, by decide⟩,
    ⟨(inMode 3 (lanesUp (setCtx .a 2 {State.reset.laneA.eng.ctx[2] with live := false, bank := false} (modEng .a (fun m => {m with ctxSel := 2, coefBank := false}) State.reset)))), .a, 2, ((((inMode 3 (lanesUp (setCtx .a 2 {State.reset.laneA.eng.ctx[2] with live := false, bank := false} (modEng .a (fun m => {m with ctxSel := 2, coefBank := false}) State.reset)))) : State).lane .a).eng), by decide⟩,
    ⟨(inMode 8 (lanesUp (noRecs (modEng .a (fun m => {m with ctxSel := 2}) State.reset)))), .a, 2, ((((inMode 8 (lanesUp (noRecs (modEng .a (fun m => {m with ctxSel := 2}) State.reset)))) : State).lane .a).eng), by decide⟩,
    ⟨(inMode 11 (lanesUp (setCtx .a 2 {State.reset.laneA.eng.ctx[2] with pend := [(none, .swap)]} (modEng .a (fun m => {m with ctxSel := 2}) State.reset)))), .a, 2, ((((inMode 11 (lanesUp (setCtx .a 2 {State.reset.laneA.eng.ctx[2] with pend := [(none, .swap)]} (modEng .a (fun m => {m with ctxSel := 2}) State.reset)))) : State).lane .a).eng), by decide⟩,
    ⟨(inMode 11 (lanesUp (setCtx .a 2 {State.reset.laneA.eng.ctx[2] with pend := []} (modEng .a (fun m => {m with ctxSel := 2}) State.reset)))), .a, 2, ((((inMode 11 (lanesUp (setCtx .a 2 {State.reset.laneA.eng.ctx[2] with pend := []} (modEng .a (fun m => {m with ctxSel := 2}) State.reset)))) : State).lane .a).eng), by decide⟩,
    ⟨{inMode 11 (lanesUp (setCtx .b 2 {State.reset.laneB.eng.ctx[2] with live := true} (setCtx .a 2 {State.reset.laneA.eng.ctx[2] with pend := [(none, .coef false 5 0x3F800000)]} (modEng .a (fun m => {m with ctxSel := 2, coefBank := false}) State.reset)))) with claim := {(lanesUp State.reset).claim with ab := {up := true, queue := [.coef 2 false 5 0x3F800000, .bankSwap 1]}}}, .a, 2, ((({inMode 11 (lanesUp (setCtx .b 2 {State.reset.laneB.eng.ctx[2] with live := true} (setCtx .a 2 {State.reset.laneA.eng.ctx[2] with pend := [(none, .coef false 5 0x3F800000)]} (modEng .a (fun m => {m with ctxSel := 2, coefBank := false}) State.reset)))) with claim := {(lanesUp State.reset).claim with ab := {up := true, queue := [.coef 2 false 5 0x3F800000, .bankSwap 1]}}} : State).lane .a).eng), 0x3F800000, ([.bankSwap 1]), 4, by decide⟩⟩

theorem witness_TapsAndWindowsFollowTheirRules :
    (∃ (s : State) (l : Lane) (k : Fin 64), k = tapIdx (s.lane l).eng.trcCtx.toFin (s.lane l).eng.trcTap.toFin) ∧
    (∃ (s : State) (l : Lane) (c : Fin 8) (g : Graph), graphOf c s = some g ∧ (g.oscNode = 0xFFFF ∨ (Claim.ctxOf l c s).oscBuf.length < g.oscWin)) ∧
    (∃ (s : State) (l : Lane) (c : Fin 8) (g : Graph), graphOf c s = some g ∧ g.oscNode ≠ 0xFFFF ∧ g.oscWin ≤ (Claim.ctxOf l c s).oscBuf.length ∧ (Claim.ctxOf l c s).osc ≠ 1) :=
  ⟨⟨(modEng .a (fun m => {m with trcCtx := 7, trcTap := 7}) State.reset), .a, (tapIdx (((modEng .a (fun m => {m with trcCtx := 7, trcTap := 7}) State.reset) : State).lane (.a : Lane)).eng.trcCtx.toFin (((modEng .a (fun m => {m with trcCtx := 7, trcTap := 7}) State.reset) : State).lane (.a : Lane)).eng.trcTap.toFin), by decide⟩,
    ⟨(withRec 0x40 2 gPay State.reset), .a, 2, (parseGraph gPay), by decide⟩,
    ⟨(setCtx .a 2 {State.reset.laneA.eng.ctx[2] with osc := 0, oscBuf := [1, 2, 3]} (withRec 0x40 2 gOsc State.reset)), .a, 2, (parseGraph gOsc), by decide⟩⟩


theorem witness_SpeculationNeverTouchesCommittedState :
    (∃ (s : State) (l : Lane), laneBusy l s = true) ∧
    (∃ (s : State) (l : Lane) (c : Fin 8) (j : SpecJob) (k : Nat) (n : Nat), ((∀ d : Fin 8, ctxBefore d c s = true → (Claim.raOf l d s).on = false)) ∧ mayIssue l c s = true ∧ nextLevel l c s = some n ∧ jobNow l c s = some (j, k)) ∧
    (∃ (s : State) (l : Lane) (c : Fin 8) (g : Graph) (j : SpecJob) (n : Nat), graphOf c s = some g ∧ (Claim.raOf l c s).flight = some (j, n) ∧ n < (cutLevels g.levels g.ops).length) ∧
    (∃ (s : State) (l : Lane) (c : Fin 8) (g : Graph) (j : SpecJob) (n : Nat), graphOf c s = some g ∧ (Claim.raOf l c s).flight = some (j, n) ∧ (cutLevels g.levels g.ops).length ≤ n ∧ ((laneBusy l s = true ∨ (nextStart l s).any (fun m => decide (m < engTicks l (16 + g.nOut + restoreCycles g) s)) = true))) ∧
    (∃ (s : State) (l : Lane) (c : Fin 8) (g : Graph) (j : SpecJob) (n : Nat), graphOf c s = some g ∧ (Claim.raOf l c s).flight = some (j, n) ∧ (cutLevels g.levels g.ops).length ≤ n ∧ laneBusy l s = false ∧ (nextStart l s).any (fun m => decide (m < engTicks l (16 + g.nOut + restoreCycles g) s)) = false) ∧
    (∃ (s : State) (l : Lane) (c : Fin 8) (g : Graph) (j : SpecJob) (n : Nat), graphOf c s = some g ∧ (Claim.raOf l c s).flight = some (j, n) ∧ (cutLevels g.levels g.ops).length ≤ n ∧ laneBusy l s = false ∧ (nextStart l s).any (fun m => decide (m < engTicks l (16 + g.nOut + restoreCycles g) s)) = false) :=
  ⟨⟨(setCtx .a 5 {State.reset.laneA.eng.ctx[5] with vec := some []} State.reset), .a, by decide⟩,
    ⟨(setRa .a 2 {State.reset.laneA.ra.ctx[2] with on := true, flight := some (.horizon 1, 0)} (addRec 0x30 4 [] (withRec 0x40 2 gPay (lanesUp (clearEng {State.reset with time := {State.reset.time with nextTrig := Vector.replicate 8 none}}))))), .a, 2, (.horizon 1), 0, ((nextLevel (.a : Lane) (2 : Fin 8) ((setRa .a 2 {State.reset.laneA.ra.ctx[2] with on := true, flight := some (.horizon 1, 0)} (addRec 0x30 4 [] (withRec 0x40 2 gPay (lanesUp (clearEng {State.reset with time := {State.reset.time with nextTrig := Vector.replicate 8 none}}))))) : State)).getD 0), by decide⟩,
    ⟨(setRa .a 2 {State.reset.laneA.ra.ctx[2] with on := true, flight := some (.horizon 1, 0)} (addRec 0x30 4 [] (withRec 0x40 2 gPay (lanesUp (clearEng State.reset))))), .a, 2, (parseGraph gPay), (.horizon 1), 0, by decide⟩,
    ⟨(setRa .a 2 {State.reset.laneA.ra.ctx[2] with on := true, flight := some (.horizon 1, 1)} (addRec 0x30 4 [] (withRec 0x40 2 gPay (lanesUp (setCtx .a 4 {State.reset.laneA.eng.ctx[4] with vec := some []} State.reset))))), .a, 2, (parseGraph gPay), (.horizon 1), 1, by decide⟩,
    ⟨(setRa .a 2 {State.reset.laneA.ra.ctx[2] with on := true, flight := some (.horizon 1, 1)} (addRec 0x30 4 [] (withRec 0x40 2 gPay (lanesUp (clearEng {State.reset with time := {State.reset.time with nextTrig := Vector.replicate 8 none}}))))), .a, 2, (parseGraph gPay), (.horizon 1), 1, by decide⟩,
    ⟨(setRa .a 2 {State.reset.laneA.ra.ctx[2] with on := true, flight := some (.horizon 1, 1)} (addRec 0x30 4 [] (withRec 0x40 2 gPay (lanesUp (clearEng {State.reset with time := {State.reset.time with nextTrig := Vector.replicate 8 none}}))))), .a, 2, (parseGraph gPay), (.horizon 1), 1, by decide⟩⟩

theorem witness_BranchesCommitWhereArmed :
    (∃ (s : State) (l : Lane), (∀ d : Fin 8, (Claim.raOf l d s).on = false)) ∧
    (∃ (s : State) (l : Lane) (b : Fin 3) (src : BranchSource) (c : Fin 8), (Claim.raOf l c s).on = true ∧ qualifiesOn l c b src s = true ∧ ((∀ d : Fin 8, d ≠ c → (Claim.raOf l d s).on = false)) ∧ ((s.md < 7 ∨ 9 < s.md))) ∧
    (∃ (s : State) (l : Lane) (b : Fin 3) (src : BranchSource) (c : Fin 8), (Claim.raOf l c s).on = true ∧ qualifiesOn l c b src s = true ∧ ((∀ d : Fin 8, d ≠ c → (Claim.raOf l d s).on = false)) ∧ 7 ≤ s.md ∧ s.md ≤ 9 ∧ (s.lane l).ra.inhibit = true ∧ (((Claim.raOf l c s).blocked[b] = true ∨ ((Claim.raOf l c s).armed[b]).isSome = true))) ∧
    (∃ (s : State) (l : Lane) (b : Fin 3) (src : BranchSource) (c : Fin 8), (Claim.raOf l c s).on = true ∧ qualifiesOn l c b src s = true ∧ ((∀ d : Fin 8, d ≠ c → (Claim.raOf l d s).on = false)) ∧ 7 ≤ s.md ∧ s.md ≤ 9 ∧ (Claim.raOf l c s).blocked[b] = false ∧ (Claim.raOf l c s).armed[b] = none) ∧
    (∃ (s : State) (l : Lane) (b : Fin 3) (src : BranchSource) (c : Fin 8), (Claim.raOf l c s).on = true ∧ qualifiesOn l c b src s = true ∧ ((∀ d : Fin 8, d ≠ c → (Claim.raOf l d s).on = false)) ∧ 7 ≤ s.md ∧ s.md ≤ 9 ∧ (Claim.raOf l c s).blocked[b] = false ∧ ((Claim.raOf l c s).armed[b]).isSome = true ∧ (Claim.raOf l c s).taken = false ∧ (s.lane l).ra.inhibit = false ∧ ((∀ u : Fin 3, u < b → (Claim.raOf l c s).armed[u] = none))) :=
  ⟨⟨(clearEng State.reset), .a, by decide⟩,
    ⟨(setPin .a 3 {State.reset.laneA.meas.pin[3] with winRaw := 1} (setRa .a 4 {State.reset.laneA.ra.ctx[4] with on := true} (withRec 0x42 4 (pay 100 [(0, 2), (1, 2), (56, 8)]) (inMode 10 (clearEng State.reset))))), .a, 1, .window, 4, by decide⟩,
    ⟨(setPin .a 3 {State.reset.laneA.meas.pin[3] with winRaw := 1} (setRa .a 4 {State.reset.laneA.ra.ctx[4] with on := true, blocked := Vector.replicate 3 true} (withRec 0x42 4 (pay 100 [(0, 2), (1, 2), (56, 8)]) (inMode 7 (clearEng {State.reset with laneA := {State.reset.laneA with ra := {inhibit := true}}}))))), .a, 1, .window, 4, by decide⟩,
    ⟨(setPin .a 3 {State.reset.laneA.meas.pin[3] with winRaw := 1} (setRa .a 4 {State.reset.laneA.ra.ctx[4] with on := true, blocked := Vector.replicate 3 false, armed := Vector.replicate 3 none} (withRec 0x42 4 (pay 100 [(0, 2), (1, 2), (56, 8)]) (inMode 7 (clearEng {State.reset with laneA := {State.reset.laneA with ra := {}}}))))), .a, 1, .window, 4, by decide⟩,
    ⟨(setPin .a 3 {State.reset.laneA.meas.pin[3] with winRaw := 1} (setRa .a 4 {State.reset.laneA.ra.ctx[4] with on := true, taken := false, blocked := Vector.replicate 3 false, armed := (Vector.replicate 3 none).set 1 (some ⟨[], []⟩)} (withRec 0x42 4 (pay 100 [(0, 2), (1, 2), (56, 8)]) (inMode 9 (clearEng {State.reset with laneA := {State.reset.laneA with ra := {}}}))))), .a, 1, .window, 4, by decide⟩⟩

theorem witness_UnmatchedCommitsAndInhibition :
    (∃ (s : State) (l : Lane) (c : Fin 8) (b : Fin 3), ((∀ x ∈ (s.lane l).ra.unmatched, x.1 ≠ c ∨ x.2.1 ≠ b))) ∧
    (∃ (s : State) (l : Lane) (c : Fin 8) (b : Fin 3) (at0 : Nat) (rest : List (Fin 8 × Fin 3 × Nat)), (s.lane l).ra.unmatched = (c, b, at0) :: rest) ∧
    (∃ (s : State) (l : Lane), (tsuOut s l).up = true) :=
  ⟨⟨(modRa .a (fun m => {m with unmatched := [(0, 1, 5)]}) State.reset), .a, 1, 1, by decide⟩,
    ⟨(modRa .a (fun m => {m with unmatched := [(1, 1, 5), (0, 1, 5)]}) State.reset), .a, 1, 1, 5, ([(0, 1, 5)]), by decide⟩,
    ⟨(lanesUp State.reset), .a, by decide⟩⟩


theorem witness_GridFormingParametersCommitTogether :
    (∃ (s : State) (l : Lane) (n : Fin 17) (v : Word), (tsuOut s l).up = true ∧ gfRange n.val v = true) ∧
    (∃ (s : State) (l : Lane) (n : Fin 17) (v : Word), (tsuOut s l).up = true ∧ gfRange n.val v = false) ∧
    (∃ (s : State), gfCtx s = none) ∧
    (∃ (s : State) (l : Lane) (c : Fin 8), gfCtx s = some c ∧ (tsuOut s l).up = true) ∧
    (∃ (s : State) (l : Lane) (c : Fin 8) (k : Nat) (v : List (Nat × Word)) (w : Lane) (vals : List (Fin 17 × Word)), gfCtx s = some c ∧ laneUp l s = true ∧ preempted l c s = false ∧ (s.lane l).eng.ctx[c].vec = some v ∧ (s.lane l).eng.ctx[c].run = none ∧ (s.lane l).eng.ctx[c].pend = [] ∧ (s.lane l).gf.tokens = [(some k, w, vals)] ∧ k ≤ (s.lane l).eng.ctx[c].stepNo) :=
  ⟨⟨(lanesUp State.reset), .b, 16, 0x3F800000, by decide +kernel⟩,
    ⟨(lanesUp State.reset), .b, 16, 0, by decide +kernel⟩,
    ⟨(noRecs State.reset), by decide⟩,
    ⟨(withRec 0x60 0 (pay 200 [(16, 2)]) (lanesUp State.reset)), .a, 2, by decide⟩,
    ⟨(setCtx .a 2 {State.reset.laneA.eng.ctx[2] with vec := some [], run := none, pend := [], stepNo := 7} (withRec 0x60 0 (pay 200 [(16, 2)]) (lanesUp (clearEng {State.reset with laneA := {State.reset.laneA with gf := {State.reset.laneA.gf with tokens := [(some 7, .b, [(4, 0x3F800000)])]}}})))), .a, 2, 7, ([]), .b, ([(4, 0x3F800000)]), by decide⟩⟩

theorem witness_GridTimersReport :
    (∃ (s : State) (l : Lane) (present : Bool) (at0 : Nat), l ∈ gfLanes s ∧ seniorLane s = l ∧ s.mode.busy = false ∧ (if present then (s.lane l).gf.above else (s.lane l).gf.below) = some at0) ∧
    (∃ (s : State) (l : Lane) (present : Bool) (at0 : Nat), l ∈ gfLanes s ∧ seniorLane s = l ∧ s.mode.busy = false ∧ (if present then (s.lane l).gf.above else (s.lane l).gf.below) = some at0) ∧
    (∃ (s : State) (l : Lane) (at0 : Nat), l ∈ gfLanes s ∧ seniorLane s = l ∧ s.mode.busy = false ∧ (s.lane l).gf.syncSince = some at0 ∧ (s.lane l).gf.syncOk = false) ∧
    (∃ (s : State) (l : Lane), l ∈ gfLanes s ∧ seniorLane s = l ∧ s.mode.busy = false ∧ s.md = 6 ∧ (s.lane l).gf.syncToSeen = false ∧ ((s.lane l).gf.syncSet).any (fun n => decide (n ≤ (s.lane l).gf.syncAt + ticksOf (w32 (recD s 0x60 0) 104))) = false) ∧
    (∃ (s : State) (l : Lane), l ∈ gfLanes s ∧ seniorLane s = l ∧ s.mode.busy = false ∧ (∀ x ∈ gfLanes s, (s.lane x).gf.syncToSeen = true)) ∧
    (∃ (s : State) (l : Lane), l ∈ gfLanes s ∧ seniorLane s = l ∧ s.mode.busy = false ∧ s.md = 5 ∧ (s.lane l).gf.bsDone = false) ∧
    (∃ (s : State) (l : Lane), l ∈ gfLanes s ∧ seniorLane s = l ∧ s.mode.busy = false ∧ (∀ x ∈ gfLanes s, (s.lane x).gf.bsDone = true)) :=
  ⟨⟨(withRec 0x60 0 (pay 200 [(16, 2), (19, 8)]) (lanesUp (gfOn {State.reset with laneA := {State.reset.laneA with gf := {State.reset.laneA.gf with above := some 6}}}))), .a, true, 6, by decide⟩,
    ⟨(withRec 0x60 0 (pay 200 [(16, 2), (19, 8)]) (lanesUp (gfOn {State.reset with laneA := {State.reset.laneA with gf := {State.reset.laneA.gf with below := some 6}}}))), .a, false, 6, by decide⟩,
    ⟨(withRec 0x60 0 (pay 200 [(16, 2), (19, 8)]) (lanesUp (gfOn {State.reset with laneA := {State.reset.laneA with gf := {State.reset.laneA.gf with syncSince := some 6, syncOk := false}}}))), .a, 6, by decide⟩,
    ⟨(withRec 0x60 0 (pay 200 [(16, 2), (19, 8)]) (lanesUp (gfOn (inMode 6 {State.reset with laneA := {State.reset.laneA with gf := {State.reset.laneA.gf with syncToSeen := false, syncSet := none}}})))), .a, by decide⟩,
    ⟨(withRec 0x60 0 (pay 200 [(16, 2), (19, 8)]) (lanesUp (gfOn (inMode 6 {State.reset with laneA := {State.reset.laneA with gf := {State.reset.laneA.gf with syncToSeen := true}}, laneB := {State.reset.laneB with gf := {State.reset.laneB.gf with syncToSeen := true}}})))), .a, by decide⟩,
    ⟨(withRec 0x60 0 (pay 200 [(16, 2), (19, 8)]) (lanesUp (gfOn (inMode 5 {State.reset with laneA := {State.reset.laneA with gf := {State.reset.laneA.gf with bsDone := false}}})))), .a, by decide⟩,
    ⟨(withRec 0x60 0 (pay 200 [(16, 2), (19, 8)]) (lanesUp (gfOn (inMode 5 {State.reset with laneA := {State.reset.laneA with gf := {State.reset.laneA.gf with bsDone := true}}, laneB := {State.reset.laneB with gf := {State.reset.laneB.gf with bsDone := true}}})))), .a, by decide⟩⟩

theorem witness_GridLossAndRecoveryChangeTheMode :
    (∃ (s : State) (l : Lane), l ∈ gfLanes s ∧ seniorLane s = l ∧ s.mode.busy = false ∧ s.md ≠ 7) ∧
    (∃ (s : State) (l : Lane), l ∈ gfLanes s ∧ seniorLane s = l ∧ s.mode.busy = false ∧ s.md = 7 ∧ (s.lane l).gf.bkrClosed = false) ∧
    (∃ (s : State) (l : Lane), l ∈ gfLanes s ∧ seniorLane s = l ∧ s.mode.busy = false ∧ s.md = 7 ∧ (∀ x ∈ gfLanes s, (s.lane x).gf.bkrClosed = true)) ∧
    (∃ (s : State) (l : Lane) (at0 : Nat), l ∈ gfLanes s ∧ seniorLane s = l ∧ s.mode.busy = false ∧ s.md = 7 ∧ (s.lane l).gf.islSince = some at0) ∧
    (∃ (s : State) (l : Lane), l ∈ gfLanes s ∧ seniorLane s = l ∧ s.mode.busy = false ∧ s.md ≠ 9) ∧
    (∃ (s : State) (l : Lane) (at0 : Nat), l ∈ gfLanes s ∧ seniorLane s = l ∧ s.mode.busy = false ∧ s.md = 9 ∧ (s.lane l).gf.recSince = some at0) :=
  ⟨⟨(withRec 0x60 0 (pay 200 [(16, 2), (19, 8)]) (lanesUp (gfOn (inMode 8 State.reset)))), .a, by decide⟩,
    ⟨(withRec 0x60 0 (pay 200 [(16, 2), (19, 8)]) (lanesUp (gfOn (inMode 7 {State.reset with laneA := {State.reset.laneA with gf := {State.reset.laneA.gf with bkrClosed := false}}})))), .a, by decide⟩,
    ⟨(withRec 0x60 0 (pay 200 [(16, 2), (19, 8)]) (lanesUp (gfOn (inMode 7 {State.reset with laneA := {State.reset.laneA with gf := {State.reset.laneA.gf with bkrClosed := true}}, laneB := {State.reset.laneB with gf := {State.reset.laneB.gf with bkrClosed := true}}})))), .a, by decide⟩,
    ⟨(withRec 0x60 0 (pay 200 [(16, 2), (19, 8)]) (lanesUp (gfOn (inMode 7 {State.reset with laneA := {State.reset.laneA with gf := {State.reset.laneA.gf with islSince := some 8}}})))), .a, 8, by decide⟩,
    ⟨(withRec 0x60 0 (pay 200 [(16, 2), (19, 8)]) (lanesUp (gfOn (inMode 8 State.reset)))), .a, by decide⟩,
    ⟨(withRec 0x60 0 (pay 200 [(16, 2), (19, 8)]) (lanesUp (gfOn (inMode 9 {State.reset with laneA := {State.reset.laneA with gf := {State.reset.laneA.gf with recSince := some 8}}})))), .a, 8, by decide⟩⟩

theorem witness_ModeControllerTicks :
    (∃ (s : State), s.md < 3) ∧
    (∃ (s : State) (l : Lane), 3 ≤ s.md ∧ l ∈ gfLanes s ∧ seniorLane s = l ∧ s.mode.busy = false) ∧
    (∃ (s : State) (l : Lane), 3 ≤ s.md ∧ l ∈ gfLanes s ∧ seniorLane s = l ∧ s.mode.busy = false) :=
  ⟨⟨(inMode 2 State.reset), by decide⟩,
    ⟨(withRec 0x60 0 (pay 200 [(16, 2), (19, 8)]) (lanesUp (gfOn (inMode 3 State.reset)))), .a, by decide⟩,
    ⟨(withRec 0x60 0 (pay 200 [(16, 2), (19, 8)]) (lanesUp (gfOn (inMode 6 State.reset)))), .a, by decide⟩⟩


theorem witness_PwmShadowsCommitAsPairs :
    (∃ (s : State) (l : Lane) (g : Fin 16) (x : GenState) (v : Word), x = Claim.genOf l g s ∧ (tsuOut s l).up = true ∧ 2000 ≤ v.toNat ∧ v.toNat ≤ 6666666) ∧
    (∃ (s : State) (l : Lane) (g : Fin 16) (x : GenState) (v : Word), x = Claim.genOf l g s ∧ (tsuOut s l).up = true ∧ 2000 ≤ v.toNat ∧ v.toNat ≤ 6666666) ∧
    (∃ (s : State) (l : Lane) (g : Fin 16) (x : GenState) (v : Word), x = Claim.genOf l g s ∧ (tsuOut s l).up = true ∧ v.toNat < 2 ^ 29) ∧
    (∃ (s : State) (l : Lane) (g : Fin 16) (x : GenState) (v : Word), x = Claim.genOf l g s ∧ (tsuOut s l).up = true ∧ F32.isFinite v = true) ∧
    (∃ (s : State) (l : Lane) (g : Fin 16) (x : GenState) (v : Word), x = Claim.genOf l g s ∧ (tsuOut s l).up = true ∧ F32.isFinite v = false) ∧
    (∃ (s : State) (l : Lane) (g : Fin 16) (x : GenState) (mask : Half), x = Claim.genOf l g s ∧ (tsuOut s l).up = true ∧ bit mask g.val = true ∧ x.on = true) ∧
    (∃ (s : State) (l : Lane) (g : Fin 16) (x : GenState) (mask : Half), x = Claim.genOf l g s ∧ (tsuOut s l).up = true ∧ bit mask g.val = true ∧ x.on = true) ∧
    (∃ (s : State) (l : Lane) (g : Fin 16) (x : GenState) (m : Master) (v : Word), x = Claim.genOf l g s ∧ (tsuOut s l).up = true ∧ m.toNat < 14 ∧ s.key.session = true ∧ s.key.owner = m ∧ s.md = 3 ∧ v.toNat ≤ 128000 ∧ 2 * (v.toNat + x.minpNext.getD x.minp) ≤ 32 * x.accPer) ∧
    (∃ (s : State) (l : Lane) (g : Fin 16) (x : GenState) (m : Master) (v : Word), x = Claim.genOf l g s ∧ (tsuOut s l).up = true ∧ m.toNat < 14 ∧ s.key.session = true ∧ s.key.owner = m ∧ s.md = 3 ∧ v.toNat ≤ 25600 ∧ 2 * (x.dtNext.getD x.dt + v.toNat) ≤ 32 * x.accPer) ∧
    (∃ (s : State) (l : Lane) (g : Fin 16) (x : GenState) (m : Master) (v : Word), x = Claim.genOf l g s ∧ (tsuOut s l).up = true ∧ m.toNat < 14 ∧ s.key.session = true ∧ s.key.owner = m ∧ s.md = 3 ∧ v.toNat ≤ 25600 ∧ 32 * x.accPer < 2 * (x.dtNext.getD x.dt + v.toNat)) :=
  ⟨⟨(lanesUp State.reset), .a, 15, ((((lanesUp State.reset) : State).lane (.a : Lane)).pwm.gen[(15 : Fin 16)]), 2000, by decide⟩,
    ⟨(lanesUp State.reset), .a, 15, ((((lanesUp State.reset) : State).lane (.a : Lane)).pwm.gen[(15 : Fin 16)]), 6666666, by decide⟩,
    ⟨(lanesUp State.reset), .a, 15, ((((lanesUp State.reset) : State).lane (.a : Lane)).pwm.gen[(15 : Fin 16)]), 0x1FFFFFFF, by decide⟩,
    ⟨(lanesUp State.reset), .a, 15, ((((lanesUp State.reset) : State).lane (.a : Lane)).pwm.gen[(15 : Fin 16)]), 0x3F000000, by decide⟩,
    ⟨(lanesUp State.reset), .a, 15, ((((lanesUp State.reset) : State).lane (.a : Lane)).pwm.gen[(15 : Fin 16)]), 0x7F800000, by decide⟩,
    ⟨(setGen .a 15 {State.reset.laneA.pwm.gen[15] with on := true, accPer := 4000, stDuty := some (.steps 5), stPer := none, dtNext := none, minpNext := none, dt := 20, minp := 30} (lanesUp State.reset)), .a, 15, ((((setGen .a 15 {State.reset.laneA.pwm.gen[15] with on := true, accPer := 4000, stDuty := some (.steps 5), stPer := none, dtNext := none, minpNext := none, dt := 20, minp := 30} (lanesUp State.reset)) : State).lane (.a : Lane)).pwm.gen[(15 : Fin 16)]), 0x8000, by decide⟩,
    ⟨(setGen .a 15 {State.reset.laneA.pwm.gen[15] with on := true, stPer := some 4000, stDuty := none} (lanesUp State.reset)), .a, 15, ((((setGen .a 15 {State.reset.laneA.pwm.gen[15] with on := true, stPer := some 4000, stDuty := none} (lanesUp State.reset)) : State).lane (.a : Lane)).pwm.gen[(15 : Fin 16)]), 0x8001, by decide⟩,
    ⟨(owner6 (inMode 3 (setGen .a 15 {State.reset.laneA.pwm.gen[15] with accPer := 8000, minp := 0, minpNext := none} (lanesUp State.reset)))), .a, 15, ((((owner6 (inMode 3 (setGen .a 15 {State.reset.laneA.pwm.gen[15] with accPer := 8000, minp := 0, minpNext := none} (lanesUp State.reset)))) : State).lane (.a : Lane)).pwm.gen[(15 : Fin 16)]), 6, 128000, by decide⟩,
    ⟨(owner6 (inMode 3 (setGen .a 15 {State.reset.laneA.pwm.gen[15] with accPer := 8000, dt := 0, dtNext := none} (lanesUp State.reset)))), .a, 15, ((((owner6 (inMode 3 (setGen .a 15 {State.reset.laneA.pwm.gen[15] with accPer := 8000, dt := 0, dtNext := none} (lanesUp State.reset)))) : State).lane (.a : Lane)).pwm.gen[(15 : Fin 16)]), 6, 25600, by decide⟩,
    ⟨(owner6 (inMode 3 (setGen .a 15 {State.reset.laneA.pwm.gen[15] with accPer := 0, dt := 1, dtNext := none} (lanesUp State.reset)))), .a, 15, ((((owner6 (inMode 3 (setGen .a 15 {State.reset.laneA.pwm.gen[15] with accPer := 0, dt := 1, dtNext := none} (lanesUp State.reset)))) : State).lane (.a : Lane)).pwm.gen[(15 : Fin 16)]), 6, 0, by decide⟩⟩

theorem witness_ShortPulsesKeepTheirPolicy :
    (∃ (T : Nat) (dt : Nat) (minp : Nat), 2 * (dt + max minp 1) ≤ T) ∧
    (∃ (T : Nat) (dt : Nat) (minp : Nat), 2 * (dt + max minp 1) ≤ T) :=
  ⟨⟨1000, 30, 40, by decide⟩,
    ⟨1000, 30, 40, by decide⟩⟩

theorem witness_CarrierBoundariesComputeThePeriod :
    (∃ (s : State) (l : Lane) (g : Fin 16) (x : GenState), x = Claim.genOf l g s ∧ x.on = false) ∧
    (∃ (s : State) (l : Lane) (g : Fin 16) (x : GenState), x = Claim.genOf l g s ∧ x.on = true ∧ x.pend = none ∧ x.perNext = none ∧ x.dtNext = none ∧ x.minpNext = none ∧ x.errLeft = 0 ∧ x.fresh = false ∧ x.duty ≤ 32 * x.per) ∧
    (∃ (s : State) (l : Lane) (g : Fin 16) (x : GenState), x = Claim.genOf l g s ∧ x.on = true ∧ x.pend = none ∧ x.perNext = none ∧ x.dtNext = none ∧ x.minpNext = none ∧ x.errLeft = 0 ∧ x.fresh = false ∧ x.duty ≤ 32 * x.per) ∧
    (∃ (s : State) (l : Lane) (g : Fin 16) (x : GenState) (p : Nat) (d : Nat), x = Claim.genOf l g s ∧ x.on = true ∧ x.pend = some (p, .steps d) ∧ d ≤ 32 * p) ∧
    (∃ (s : State) (l : Lane) (g : Fin 16) (x : GenState) (p : Nat) (d : Nat), x = Claim.genOf l g s ∧ x.on = true ∧ x.pend = some (p, .steps d) ∧ d ≤ 32 * p ∧ (genRec g s).upd = true ∧ x.refill = false ∧ x.pendAt ≤ x.start + x.per / 2) ∧
    (∃ (s : State) (l : Lane) (g : Fin 16) (x : GenState), x = Claim.genOf l g s ∧ x.on = true ∧ (genRec g s).upd = false) :=
  ⟨⟨(setGen .a 15 {State.reset.laneA.pwm.gen[15] with on := false} State.reset), .a, 15, ((((setGen .a 15 {State.reset.laneA.pwm.gen[15] with on := false} State.reset) : State).lane (.a : Lane)).pwm.gen[(15 : Fin 16)]), by decide⟩,
    ⟨(setGen .a 15 {State.reset.laneA.pwm.gen[15] with on := true, pend := none, perNext := none, dtNext := none, minpNext := none, errLeft := 0, fresh := false, duty := 0} State.reset), .a, 15, ((((setGen .a 15 {State.reset.laneA.pwm.gen[15] with on := true, pend := none, perNext := none, dtNext := none, minpNext := none, errLeft := 0, fresh := false, duty := 0} State.reset) : State).lane (.a : Lane)).pwm.gen[(15 : Fin 16)]), by decide⟩,
    ⟨(setGen .a 15 {State.reset.laneA.pwm.gen[15] with on := true, pend := none, perNext := none, dtNext := none, minpNext := none, errLeft := 0, fresh := false, per := 4000, duty := 60000, dt := 200, minp := 100, carry := 5, acc := 3} (noRecs (inMode 8 {State.reset with gate := {State.reset.gate with fg := {active := []}}}))), .a, 15, ((((setGen .a 15 {State.reset.laneA.pwm.gen[15] with on := true, pend := none, perNext := none, dtNext := none, minpNext := none, errLeft := 0, fresh := false, per := 4000, duty := 60000, dt := 200, minp := 100, carry := 5, acc := 3} (noRecs (inMode 8 {State.reset with gate := {State.reset.gate with fg := {active := []}}}))) : State).lane (.a : Lane)).pwm.gen[(15 : Fin 16)]), by decide⟩,
    ⟨(setGen .a 15 {State.reset.laneA.pwm.gen[15] with on := true, pend := some (4000, .steps 128000)} State.reset), .a, 15, ((((setGen .a 15 {State.reset.laneA.pwm.gen[15] with on := true, pend := some (4000, .steps 128000)} State.reset) : State).lane (.a : Lane)).pwm.gen[(15 : Fin 16)]), 4000, 128000, by decide⟩,
    ⟨(setGen .a 15 {State.reset.laneA.pwm.gen[15] with on := true, refill := false, start := 10, pendAt := 5, pend := some (4000, .steps 128000)} (withRec 0x51 15 (pay 32 [(15, 1)]) State.reset)), .a, 15, ((((setGen .a 15 {State.reset.laneA.pwm.gen[15] with on := true, refill := false, start := 10, pendAt := 5, pend := some (4000, .steps 128000)} (withRec 0x51 15 (pay 32 [(15, 1)]) State.reset)) : State).lane (.a : Lane)).pwm.gen[(15 : Fin 16)]), 4000, 128000, by decide⟩,
    ⟨(setGen .a 15 {State.reset.laneA.pwm.gen[15] with on := true} (withRec 0x51 15 (pay 32 []) State.reset)), .a, 15, ((((setGen .a 15 {State.reset.laneA.pwm.gen[15] with on := true} (withRec 0x51 15 (pay 32 []) State.reset)) : State).lane (.a : Lane)).pwm.gen[(15 : Fin 16)]), by decide⟩⟩

theorem witness_FaultSourcesHoldTheirGroups :
    (∃ (s : State) (src : Fin 104), src.val ∈ s.gate.fg.active) ∧
    (∃ (s : State) (src : Fin 104), src.val ∉ s.gate.fg.active) ∧
    (∃ (s : State) (src : Fin 104) (v : Bool), sourceHolds src.val s ≠ v) ∧
    (∃ (s : State) (src : Fin 104), src.val ∈ s.gate.fg.active ∧ sourceHolds src.val s = false) ∧
    (∃ (s : State) (src : Fin 104), src.val ∈ s.gate.fg.active ∧ sourceHolds src.val s = false) ∧
    (∃ (s : State) (src : Fin 104) (k : Fin 4) (n : Nat) (latch : Bool) (trip : Bool), src.val ∉ s.gate.fg.active ∧ sourceHolds src.val s = true ∧ srcEntry src.val s = some (n, latch, trip) ∧ n / 2 ^ k.val % 2 = 1) ∧
    (∃ (s : State) (src : Fin 104) (k : Fin 4) (n : Nat) (latch : Bool) (trip : Bool), src.val ∉ s.gate.fg.active ∧ sourceHolds src.val s = true ∧ srcEntry src.val s = some (n, latch, trip) ∧ n / 2 ^ k.val % 2 = 1) ∧
    (∃ (s : State) (k : Fin 4) (mv : Int) (hold : Nat), (hold < 25 * max 4 (u8 (recD s 0x50 0) (16 + k.val)) ∨ (800 < mv ∧ mv < 2000))) ∧
    (∃ (s : State) (k : Fin 4) (mv : Int) (hold : Nat), 25 * max 4 (u8 (recD s 0x50 0) (16 + k.val)) ≤ hold ∧ mv ≤ 800) ∧
    (∃ (s : State) (k : Fin 4) (mv : Int) (hold : Nat), 25 * max 4 (u8 (recD s 0x50 0) (16 + k.val)) ≤ hold ∧ 2000 ≤ mv) :=
  ⟨⟨{State.reset with gate := {State.reset.gate with fg := {State.reset.gate.fg with active := [103, 4]}}}, 103, by decide⟩,
    ⟨{State.reset with gate := {State.reset.gate with fg := {State.reset.gate.fg with active := [102, 4]}}}, 103, by decide⟩,
    ⟨{State.reset with gate := {State.reset.gate with fg := {State.reset.gate.fg with active := [103, 4]}}}, 4, true, by decide⟩,
    ⟨{State.reset with gate := {State.reset.gate with fg := {State.reset.gate.fg with active := [5, 4], healthy := 0xF}}}, 4, by decide⟩,
    ⟨{State.reset with gate := {State.reset.gate with fg := {State.reset.gate.fg with active := [3, 4], healthy := 0xF}}}, 3, by decide⟩,
    ⟨(withRec 0x50 0 fgPay {State.reset with gate := {State.reset.gate with fg := {State.reset.gate.fg with active := [], healthy := 0}}}), 2, 0, 1, true, true, by decide⟩,
    ⟨(inMode 8 (withRec 0x50 0 fgPay {State.reset with gate := {State.reset.gate with fg := {State.reset.gate.fg with active := [65], healthy := 0}}})), 2, 0, 1, true, true, by decide⟩,
    ⟨(noRecs State.reset), 3, 801, 100, by decide⟩,
    ⟨(noRecs State.reset), 3, 800, 100, by decide⟩,
    ⟨(noRecs State.reset), 3, 2000, 100, by decide⟩⟩


theorem witness_GatesBlankAndTrip :
    (∃ (s : State) (c : Fin 32) (x : Channel), x = Claim.chOf c s ∧ dueEdge c s = none) ∧
    (∃ (s : State) (c : Fin 32) (x : Channel) (pv : Int) (e : Nat × Option Nat), x = Claim.chOf c s ∧ dueEdge c s = some e ∧ hasRec s 0x52 c.val = true ∧ x.lowPos = false ∧ x.lowNeg = false ∧ x.negMv ≤ -3500 ∧ 16000 ≤ pv ∧ x.state = 2 ∧ judges c e s = false) ∧
    (∃ (s : State) (c : Fin 32) (x : Channel) (pv : Int) (e : Nat × Option Nat), x = Claim.chOf c s ∧ dueEdge c s = some e ∧ hasRec s 0x52 c.val = true ∧ x.lowPos = false ∧ x.lowNeg = false ∧ x.negMv ≤ -3500 ∧ 14500 ≤ pv ∧ x.state = 6 ∧ judges c e s = false) ∧
    (∃ (s : State) (c : Fin 32) (x : Channel) (q : Nat) (pv : Int) (e : Nat × Option Nat), x = Claim.chOf c s ∧ dueEdge c s = some e ∧ hasRec s 0x52 c.val = true ∧ x.lowPos = false ∧ x.lowNeg = false ∧ x.negMv ≤ -3500 ∧ 16000 ≤ pv ∧ x.state = 2 ∧ judges c e s = true ∧ q < 65536 ∧ (chanRec c s).qgMin ≤ q ∧ q ≤ (chanRec c s).qgMax) ∧
    (∃ (s : State) (c : Fin 32) (x : Channel) (q : Nat) (pv : Int) (e : Nat × Option Nat), x = Claim.chOf c s ∧ dueEdge c s = some e ∧ hasRec s 0x52 c.val = true ∧ x.lowPos = false ∧ x.lowNeg = false ∧ x.negMv ≤ -3500 ∧ 16000 ≤ pv ∧ x.state = 2 ∧ judges c e s = true ∧ q < 65536 ∧ (chanRec c s).qgMin ≤ q ∧ q ≤ (chanRec c s).qgMax) ∧
    (∃ (s : State) (c : Fin 32) (x : Channel) (pv : Int) (e : Nat × Option Nat), x = Claim.chOf c s ∧ dueEdge c s = some e ∧ hasRec s 0x52 c.val = true ∧ x.lowPos = false ∧ x.lowNeg = false ∧ x.negMv ≤ -3500 ∧ pv < 14500 ∧ x.state = 2 ∧ judges c e s = false) ∧
    (∃ (s : State) (c : Fin 32) (x : Channel) (q : Nat) (e : Nat × Option Nat), x = Claim.chOf c s ∧ dueEdge c s = some e ∧ hasRec s 0x52 c.val = true ∧ x.lowPos = false ∧ x.lowNeg = false ∧ x.negMv ≤ -3500 ∧ x.state = 2 ∧ judges c e s = true ∧ q < (chanRec c s).qgMin ∧ (chanRec c s).ogCnt ≤ (satInc x.ogRun).toNat) ∧
    (∃ (s : State) (c : Fin 32) (x : Channel), x = Claim.chOf c s ∧ x.blanking = false) ∧
    (∃ (s : State) (c : Fin 32) (x : Channel) (v : List (Int × Nat)), x = Claim.chOf c s ∧ x.blanking = true ∧ Claim.estAfter c v s ≤ (chanRec c s).iSc * 65536) ∧
    (∃ (s : State) (c : Fin 32) (x : Channel) (v : List (Int × Nat)), x = Claim.chOf c s ∧ x.blanking = true ∧ Claim.estAfter c v s ≤ (chanRec c s).iSc * 65536) ∧
    (∃ (s : State) (c : Fin 32) (x : Channel) (v : List (Int × Nat)) (mv : Int) (B : Nat) (T : Nat) (cmd : Instr) (cause : Fin 7), x = Claim.chOf c s ∧ B = x.onAt + (chanRec c s).blank * 2 / 5 ∧ x.state = 2 ∧ cmdAllowed c s = true ∧ x.onUntil.all (fun u => decide (T < u)) = true ∧ ((cmd = .blankEnd c v ∧ cause = 2 ∧ T = max (max s.now (Claim.senseEnd c v s)) B ∧ x.blanking = true ∧ (chanRec c s).iSc * 65536 < Claim.estAfter c v s) ∨ (T = max s.now (Claim.senseEnd c v s) ∧ ((cmd = .scTrip c .comparator v mv ∧ cause = 1 ∧ (x.blanking = false ∨ B ≤ T) ∧ ((chanRec c s).scVth : Int) < mv) ∨ (cmd = .scTrip c .estimate v mv ∧ cause = 2 ∧ (x.blanking = false ∨ B ≤ T) ∧ (chanRec c s).iSc * 65536 < Claim.estAfter c v s) ∨ (cmd = .scTrip c .hard v mv ∧ cause = 3 ∧ (chanRec c s).iHard * 65536 < Claim.estAfter c v s))))) ∧
    (∃ (s : State) (c : Fin 32) (x : Channel) (v : List (Int × Nat)) (mv : Int) (B : Nat) (T : Nat) (cmd : Instr) (cause : Fin 7), x = Claim.chOf c s ∧ B = x.onAt + (chanRec c s).blank * 2 / 5 ∧ x.state = 2 ∧ cmdAllowed c s = true ∧ x.onUntil.all (fun u => decide (T < u)) = true ∧ ((cmd = .blankEnd c v ∧ cause = 2 ∧ T = max (max s.now (Claim.senseEnd c v s)) B ∧ x.blanking = true ∧ (chanRec c s).iSc * 65536 < Claim.estAfter c v s) ∨ (T = max s.now (Claim.senseEnd c v s) ∧ ((cmd = .scTrip c .comparator v mv ∧ cause = 1 ∧ (x.blanking = false ∨ B ≤ T) ∧ ((chanRec c s).scVth : Int) < mv) ∨ (cmd = .scTrip c .estimate v mv ∧ cause = 2 ∧ (x.blanking = false ∨ B ≤ T) ∧ (chanRec c s).iSc * 65536 < Claim.estAfter c v s) ∨ (cmd = .scTrip c .hard v mv ∧ cause = 3 ∧ (chanRec c s).iHard * 65536 < Claim.estAfter c v s))))) ∧
    (∃ (s : State) (c : Fin 32) (x : Channel) (v : List (Int × Nat)) (mv : Int) (B : Nat) (T : Nat) (cmd : Instr) (cause : Fin 7), x = Claim.chOf c s ∧ B = x.onAt + (chanRec c s).blank * 2 / 5 ∧ x.state = 2 ∧ cmdAllowed c s = true ∧ x.onUntil.all (fun u => decide (T < u)) = true ∧ ((cmd = .blankEnd c v ∧ cause = 2 ∧ T = max (max s.now (Claim.senseEnd c v s)) B ∧ x.blanking = true ∧ (chanRec c s).iSc * 65536 < Claim.estAfter c v s) ∨ (T = max s.now (Claim.senseEnd c v s) ∧ ((cmd = .scTrip c .comparator v mv ∧ cause = 1 ∧ (x.blanking = false ∨ B ≤ T) ∧ ((chanRec c s).scVth : Int) < mv) ∨ (cmd = .scTrip c .estimate v mv ∧ cause = 2 ∧ (x.blanking = false ∨ B ≤ T) ∧ (chanRec c s).iSc * 65536 < Claim.estAfter c v s) ∨ (cmd = .scTrip c .hard v mv ∧ cause = 3 ∧ (chanRec c s).iHard * 65536 < Claim.estAfter c v s))))) ∧
    (∃ (s : State) (c : Fin 32) (x : Channel) (v : List (Int × Nat)) (mv : Int) (B : Nat) (T : Nat) (cmd : Instr) (cause : Fin 7), x = Claim.chOf c s ∧ B = x.onAt + (chanRec c s).blank * 2 / 5 ∧ x.state = 2 ∧ cmdAllowed c s = true ∧ x.onUntil.all (fun u => decide (T < u)) = true ∧ ((cmd = .blankEnd c v ∧ cause = 2 ∧ T = max (max s.now (Claim.senseEnd c v s)) B ∧ x.blanking = true ∧ (chanRec c s).iSc * 65536 < Claim.estAfter c v s) ∨ (T = max s.now (Claim.senseEnd c v s) ∧ ((cmd = .scTrip c .comparator v mv ∧ cause = 1 ∧ (x.blanking = false ∨ B ≤ T) ∧ ((chanRec c s).scVth : Int) < mv) ∨ (cmd = .scTrip c .estimate v mv ∧ cause = 2 ∧ (x.blanking = false ∨ B ≤ T) ∧ (chanRec c s).iSc * 65536 < Claim.estAfter c v s) ∨ (cmd = .scTrip c .hard v mv ∧ cause = 3 ∧ (chanRec c s).iHard * 65536 < Claim.estAfter c v s))))) ∧
    (∃ (s : State) (c : Fin 32) (x : Channel) (v : List (Int × Nat)), x = Claim.chOf c s ∧ x.state = 2 ∧ gateOn s c = true ∧ x.blanking = true ∧ max s.now (Claim.senseEnd c v s) < x.onAt + (chanRec c s).blank * 2 / 5) ∧
    (∃ (s : State) (c : Fin 32) (x : Channel), x = Claim.chOf c s ∧ takesTrip c s = false) :=
  ⟨⟨{State.reset with gate := {State.reset.gate with allOff := true}}, 31, (({State.reset with gate := {State.reset.gate with allOff := true}} : State).gate.ch[(31 : Fin 32)]), by decide⟩,
    ⟨(gateRun 3200 {chA State.reset with negMv := -3500, lowPos := false, lowNeg := false} State.reset), 15, (((gateRun 3200 {chA State.reset with negMv := -3500, lowPos := false, lowNeg := false} State.reset) : State).gate.ch[(15 : Fin 32)]), 16000, ((State.reset.now + 10, some (State.reset.now + 100))), by decide⟩,
    ⟨(gateRun 3200 {chA State.reset with state := 6, negMv := -3500, lowPos := false, lowNeg := false} State.reset), 15, (((gateRun 3200 {chA State.reset with state := 6, negMv := -3500, lowPos := false, lowNeg := false} State.reset) : State).gate.ch[(15 : Fin 32)]), 14500, ((State.reset.now + 10, some (State.reset.now + 100))), by decide⟩,
    ⟨(gateRun 64000 {chA State.reset with negMv := -3500, lowPos := false, lowNeg := false} State.reset), 15, (((gateRun 64000 {chA State.reset with negMv := -3500, lowPos := false, lowNeg := false} State.reset) : State).gate.ch[(15 : Fin 32)]), 10, 16000, ((State.reset.now + 10, some (State.reset.now + 2000))), by decide⟩,
    ⟨(gateRun 64000 {chA State.reset with negMv := -3500, lowPos := false, lowNeg := false} State.reset), 15, (((gateRun 64000 {chA State.reset with negMv := -3500, lowPos := false, lowNeg := false} State.reset) : State).gate.ch[(15 : Fin 32)]), 100, 16000, ((State.reset.now + 10, some (State.reset.now + 2000))), by decide⟩,
    ⟨(gateRun 3200 {chA State.reset with negMv := -3500, lowPos := false, lowNeg := false} State.reset), 15, (((gateRun 3200 {chA State.reset with negMv := -3500, lowPos := false, lowNeg := false} State.reset) : State).gate.ch[(15 : Fin 32)]), 14499, ((State.reset.now + 10, some (State.reset.now + 100))), by decide⟩,
    ⟨(gateRun 64000 {chA State.reset with ogRun := 200, negMv := -3500, lowPos := false, lowNeg := false} State.reset), 15, (((gateRun 64000 {chA State.reset with ogRun := 200, negMv := -3500, lowPos := false, lowNeg := false} State.reset) : State).gate.ch[(15 : Fin 32)]), 9, ((State.reset.now + 10, some (State.reset.now + 2000))), by decide⟩,
    ⟨(setCh 31 {State.reset.gate.ch[31] with blanking := false} State.reset), 31, (((setCh 31 {State.reset.gate.ch[31] with blanking := false} State.reset) : State).gate.ch[(31 : Fin 32)]), by decide⟩,
    ⟨(gateRun 3200 {chA State.reset with blanking := true, est := 200 * 65536} State.reset), 15, (((gateRun 3200 {chA State.reset with blanking := true, est := 200 * 65536} State.reset) : State).gate.ch[(15 : Fin 32)]), ([]), by decide⟩,
    ⟨(gateRun 3200 {chA State.reset with blanking := true, est := 0} State.reset), 15, (((gateRun 3200 {chA State.reset with blanking := true, est := 0} State.reset) : State).gate.ch[(15 : Fin 32)]), ([(-5, 400), (7, 100)]), by decide +kernel⟩,
    ⟨(gateRun 3200 {chA State.reset with blanking := true, onUntil := none, est := 200 * 65536 + 1} State.reset), 15, (((gateRun 3200 {chA State.reset with blanking := true, onUntil := none, est := 200 * 65536 + 1} State.reset) : State).gate.ch[(15 : Fin 32)]), ([]), 1000, (((((gateRun 3200 {chA State.reset with blanking := true, onUntil := none, est := 200 * 65536 + 1} State.reset) : State).gate.ch[(15 : Fin 32)]) : Channel).onAt + (chanRec (15 : Fin 32) ((gateRun 3200 {chA State.reset with blanking := true, onUntil := none, est := 200 * 65536 + 1} State.reset) : State)).blank * 2 / 5), (max (max ((gateRun 3200 {chA State.reset with blanking := true, onUntil := none, est := 200 * 65536 + 1} State.reset) : State).now (Claim.senseEnd (15 : Fin 32) (([]) : List (Int × Nat)) ((gateRun 3200 {chA State.reset with blanking := true, onUntil := none, est := 200 * 65536 + 1} State.reset) : State))) ((((((gateRun 3200 {chA State.reset with blanking := true, onUntil := none, est := 200 * 65536 + 1} State.reset) : State).gate.ch[(15 : Fin 32)]) : Channel).onAt + (chanRec (15 : Fin 32) ((gateRun 3200 {chA State.reset with blanking := true, onUntil := none, est := 200 * 65536 + 1} State.reset) : State)).blank * 2 / 5) : Nat)), (.blankEnd (15 : Fin 32) (([]) : List (Int × Nat))), 2, by decide⟩,
    ⟨(gateRun 3200 {chA State.reset with blanking := false, onUntil := none} State.reset), 15, (((gateRun 3200 {chA State.reset with blanking := false, onUntil := none} State.reset) : State).gate.ch[(15 : Fin 32)]), ([(7, 10)]), 101, (((((gateRun 3200 {chA State.reset with blanking := false, onUntil := none} State.reset) : State).gate.ch[(15 : Fin 32)]) : Channel).onAt + (chanRec (15 : Fin 32) ((gateRun 3200 {chA State.reset with blanking := false, onUntil := none} State.reset) : State)).blank * 2 / 5), (max ((gateRun 3200 {chA State.reset with blanking := false, onUntil := none} State.reset) : State).now (Claim.senseEnd (15 : Fin 32) (([(7, 10)]) : List (Int × Nat)) ((gateRun 3200 {chA State.reset with blanking := false, onUntil := none} State.reset) : State))), (.scTrip (15 : Fin 32) .comparator (([(7, 10)]) : List (Int × Nat)) (101 : Int)), 1, by decide⟩,
    ⟨(gateRun 3200 {chA State.reset with blanking := false, onUntil := none, est := 201 * 65536} State.reset), 15, (((gateRun 3200 {chA State.reset with blanking := false, onUntil := none, est := 201 * 65536} State.reset) : State).gate.ch[(15 : Fin 32)]), ([]), 1000, (((((gateRun 3200 {chA State.reset with blanking := false, onUntil := none, est := 201 * 65536} State.reset) : State).gate.ch[(15 : Fin 32)]) : Channel).onAt + (chanRec (15 : Fin 32) ((gateRun 3200 {chA State.reset with blanking := false, onUntil := none, est := 201 * 65536} State.reset) : State)).blank * 2 / 5), (max ((gateRun 3200 {chA State.reset with blanking := false, onUntil := none, est := 201 * 65536} State.reset) : State).now (Claim.senseEnd (15 : Fin 32) (([]) : List (Int × Nat)) ((gateRun 3200 {chA State.reset with blanking := false, onUntil := none, est := 201 * 65536} State.reset) : State))), (.scTrip (15 : Fin 32) .estimate (([]) : List (Int × Nat)) (1000 : Int)), 2, by decide⟩,
    ⟨(gateRun 3200 {chA State.reset with blanking := true, onUntil := none, est := 257 * 65536} State.reset), 15, (((gateRun 3200 {chA State.reset with blanking := true, onUntil := none, est := 257 * 65536} State.reset) : State).gate.ch[(15 : Fin 32)]), ([]), 1000, (((((gateRun 3200 {chA State.reset with blanking := true, onUntil := none, est := 257 * 65536} State.reset) : State).gate.ch[(15 : Fin 32)]) : Channel).onAt + (chanRec (15 : Fin 32) ((gateRun 3200 {chA State.reset with blanking := true, onUntil := none, est := 257 * 65536} State.reset) : State)).blank * 2 / 5), (max ((gateRun 3200 {chA State.reset with blanking := true, onUntil := none, est := 257 * 65536} State.reset) : State).now (Claim.senseEnd (15 : Fin 32) (([]) : List (Int × Nat)) ((gateRun 3200 {chA State.reset with blanking := true, onUntil := none, est := 257 * 65536} State.reset) : State))), (.scTrip (15 : Fin 32) .hard (([]) : List (Int × Nat)) (1000 : Int)), 3, by decide⟩,
    ⟨(gateRun 3200 {chA State.reset with blanking := true, onUntil := none, onAt := State.reset.now, estAt := State.reset.now, est := 65536} State.reset), 15, (((gateRun 3200 {chA State.reset with blanking := true, onUntil := none, onAt := State.reset.now, estAt := State.reset.now, est := 65536} State.reset) : State).gate.ch[(15 : Fin 32)]), ([(1000, 200)]), by decide⟩,
    ⟨(setCh 31 {State.reset.gate.ch[31] with blanking := true, state := 1} State.reset), 31, (((setCh 31 {State.reset.gate.ch[31] with blanking := true, state := 1} State.reset) : State).gate.ch[(31 : Fin 32)]), by decide⟩⟩

theorem witness_SoftTurnOffsRetryOrLatch :
    (∃ (s : State) (c : Fin 32) (x : Channel), x = Claim.chOf c s ∧ x.state ≠ 3) ∧
    (∃ (s : State) (c : Fin 32) (x : Channel) (k : Nat), x = Claim.chOf c s ∧ x.state = 3 ∧ x.cause ≠ 4 ∧ 64 + c.val ∈ s.gate.fg.active ∧ (x.events.filter fun t => decide (max s.now x.softEnd < t + 24000000000)).length = k ∧ k ≤ (chanRec c s).rtMax) ∧
    (∃ (s : State) (c : Fin 32) (x : Channel) (k : Nat), x = Claim.chOf c s ∧ x.state = 3 ∧ x.cause ≠ 4 ∧ 64 + c.val ∈ s.gate.fg.active ∧ (x.events.filter fun t => decide (max s.now x.softEnd < t + 24000000000)).length = k ∧ (chanRec c s).rtMax < k) ∧
    (∃ (s : State) (c : Fin 32) (x : Channel) (e : FaultEvent), x = Claim.chOf c s ∧ s.gate.faults = [e] ∧ e.closed = false) ∧
    (∃ (s : State) (c : Fin 32) (x : Channel) (e : FaultEvent), x = Claim.chOf c s ∧ s.gate.faults = [e] ∧ e.closed = true) ∧
    (∃ (s : State) (c : Fin 32) (x : Channel) (e : FaultEvent), x = Claim.chOf c s ∧ s.gate.faults = [e] ∧ e.waitEnd = none) ∧
    (∃ (s : State) (c : Fin 32) (x : Channel) (e : FaultEvent) (at0 : Nat), x = Claim.chOf c s ∧ s.gate.faults = [e] ∧ e.waitEnd = some at0 ∧ e.chans = [c] ∧ x.state = 4 ∧ hasRec s 0x52 c.val = true ∧ x.lowPos = false ∧ x.lowNeg = false ∧ (x.events.filter fun t => decide (max s.now at0 < t + 24000000000)).length ≤ (chanRec c s).rtMax) :=
  ⟨⟨(setCh 31 {State.reset.gate.ch[31] with state := 4} State.reset), 31, (((setCh 31 {State.reset.gate.ch[31] with state := 4} State.reset) : State).gate.ch[(31 : Fin 32)]), by decide⟩,
    ⟨(withRec 0x52 31 cPay (setCh 31 {State.reset.gate.ch[31] with state := 3, cause := 2, events := [State.reset.now, State.reset.now]} {State.reset with gate := {State.reset.gate with fg := {State.reset.gate.fg with active := [95]}}})), 31, (((withRec 0x52 31 cPay (setCh 31 {State.reset.gate.ch[31] with state := 3, cause := 2, events := [State.reset.now, State.reset.now]} {State.reset with gate := {State.reset.gate with fg := {State.reset.gate.fg with active := [95]}}})) : State).gate.ch[(31 : Fin 32)]), ((((((withRec 0x52 31 cPay (setCh 31 {State.reset.gate.ch[31] with state := 3, cause := 2, events := [State.reset.now, State.reset.now]} {State.reset with gate := {State.reset.gate with fg := {State.reset.gate.fg with active := [95]}}})) : State).gate.ch[(31 : Fin 32)]) : Channel).events.filter fun t => decide (max ((withRec 0x52 31 cPay (setCh 31 {State.reset.gate.ch[31] with state := 3, cause := 2, events := [State.reset.now, State.reset.now]} {State.reset with gate := {State.reset.gate with fg := {State.reset.gate.fg with active := [95]}}})) : State).now ((((withRec 0x52 31 cPay (setCh 31 {State.reset.gate.ch[31] with state := 3, cause := 2, events := [State.reset.now, State.reset.now]} {State.reset with gate := {State.reset.gate with fg := {State.reset.gate.fg with active := [95]}}})) : State).gate.ch[(31 : Fin 32)]) : Channel).softEnd < t + 24000000000)).length), by decide⟩,
    ⟨(withRec 0x52 31 cPay (setCh 31 {State.reset.gate.ch[31] with state := 3, softEnd := State.reset.now, cause := 2, events := [State.reset.now, State.reset.now, State.reset.now]} {State.reset with gate := {State.reset.gate with fg := {State.reset.gate.fg with active := [95]}}})), 31, (((withRec 0x52 31 cPay (setCh 31 {State.reset.gate.ch[31] with state := 3, softEnd := State.reset.now, cause := 2, events := [State.reset.now, State.reset.now, State.reset.now]} {State.reset with gate := {State.reset.gate with fg := {State.reset.gate.fg with active := [95]}}})) : State).gate.ch[(31 : Fin 32)]), 3, by decide⟩,
    ⟨{State.reset with gate := {State.reset.gate with faults := [⟨4, [31], false, none⟩]}}, 31, (({State.reset with gate := {State.reset.gate with faults := [⟨4, [31], false, none⟩]}} : State).gate.ch[(31 : Fin 32)]), ⟨4, [31], false, none⟩, by decide⟩,
    ⟨{State.reset with gate := {State.reset.gate with faults := [⟨4, [31], true, none⟩]}}, 31, (({State.reset with gate := {State.reset.gate with faults := [⟨4, [31], true, none⟩]}} : State).gate.ch[(31 : Fin 32)]), ⟨4, [31], true, none⟩, by decide⟩,
    ⟨{State.reset with gate := {State.reset.gate with faults := [⟨4, [31], true, none⟩]}}, 31, (({State.reset with gate := {State.reset.gate with faults := [⟨4, [31], true, none⟩]}} : State).gate.ch[(31 : Fin 32)]), ⟨4, [31], true, none⟩, by decide⟩,
    ⟨(withRec 0x52 31 cPay (setCh 31 {State.reset.gate.ch[31] with state := 4, lowPos := false, lowNeg := false, events := []} {State.reset with gate := {State.reset.gate with faults := [⟨4, [31], true, some 7⟩]}})), 31, (((withRec 0x52 31 cPay (setCh 31 {State.reset.gate.ch[31] with state := 4, lowPos := false, lowNeg := false, events := []} {State.reset with gate := {State.reset.gate with faults := [⟨4, [31], true, some 7⟩]}})) : State).gate.ch[(31 : Fin 32)]), ⟨4, [31], true, some 7⟩, 7, by decide⟩⟩

theorem witness_RailsWarnAndBlock :
    (∃ (s : State) (c : Fin 32) (x : Channel), x = Claim.chOf c s ∧ hasRec s 0x52 c.val = false) ∧
    (∃ (s : State) (c : Fin 32) (x : Channel) (pos : Int) (neg : Int), x = Claim.chOf c s ∧ hasRec s 0x52 c.val = true ∧ x.state = 2 ∧ x.lowPos = false ∧ x.lowNeg = false ∧ x.warnPos = false ∧ x.warnNeg = false ∧ 16000 ≤ pos ∧ neg ≤ -3500) ∧
    (∃ (s : State) (c : Fin 32) (x : Channel) (pos : Int) (neg : Int), x = Claim.chOf c s ∧ hasRec s 0x52 c.val = true ∧ x.state = 2 ∧ x.lowPos = false ∧ x.lowNeg = false ∧ x.warnPos = false ∧ x.warnNeg = false ∧ 14500 ≤ pos ∧ pos < 16000 ∧ neg ≤ -3500) ∧
    (∃ (s : State) (c : Fin 32) (x : Channel) (pos : Int) (neg : Int), x = Claim.chOf c s ∧ hasRec s 0x52 c.val = true ∧ x.state = 2 ∧ x.lowPos = false ∧ x.lowNeg = false ∧ x.warnPos = false ∧ x.warnNeg = false ∧ (pos < 14500 ∨ -2500 < neg)) ∧
    (∃ (s : State) (c : Fin 32) (x : Channel) (pos : Int) (neg : Int), x = Claim.chOf c s ∧ hasRec s 0x52 c.val = true ∧ x.state = 2 ∧ x.lowPos = false ∧ x.lowNeg = false ∧ x.warnPos = false ∧ x.warnNeg = false ∧ (pos < 14500 ∨ -2500 < neg)) ∧
    (∃ (s : State) (c : Fin 32) (x : Channel) (pos : Int), x = Claim.chOf c s ∧ hasRec s 0x52 c.val = true ∧ x.state = 6 ∧ x.lowPos = true ∧ pos ≤ 15500) ∧
    (∃ (s : State) (c : Fin 32) (x : Channel) (pos : Int) (neg : Int), x = Claim.chOf c s ∧ hasRec s 0x52 c.val = true ∧ x.state = 6 ∧ x.boot = true ∧ 15500 < pos ∧ neg < -3000) ∧
    (∃ (s : State) (c : Fin 32) (x : Channel), x = Claim.chOf c s) :=
  ⟨⟨(noRecs State.reset), 31, (((noRecs State.reset) : State).gate.ch[(31 : Fin 32)]), by decide⟩,
    ⟨(withRec 0x52 31 cPay (setCh 31 {State.reset.gate.ch[31] with state := 2, lowPos := false, lowNeg := false, warnPos := false, warnNeg := false} State.reset)), 31, (((withRec 0x52 31 cPay (setCh 31 {State.reset.gate.ch[31] with state := 2, lowPos := false, lowNeg := false, warnPos := false, warnNeg := false} State.reset)) : State).gate.ch[(31 : Fin 32)]), 16000, (-3500), by decide⟩,
    ⟨(withRec 0x52 31 cPay (setCh 31 {State.reset.gate.ch[31] with state := 2, lowPos := false, lowNeg := false, warnPos := false, warnNeg := false} State.reset)), 31, (((withRec 0x52 31 cPay (setCh 31 {State.reset.gate.ch[31] with state := 2, lowPos := false, lowNeg := false, warnPos := false, warnNeg := false} State.reset)) : State).gate.ch[(31 : Fin 32)]), 14500, (-3500), by decide⟩,
    ⟨(withRec 0x52 31 cPay (setCh 31 {State.reset.gate.ch[31] with state := 2, lowPos := false, lowNeg := false, warnPos := false, warnNeg := false} State.reset)), 31, (((withRec 0x52 31 cPay (setCh 31 {State.reset.gate.ch[31] with state := 2, lowPos := false, lowNeg := false, warnPos := false, warnNeg := false} State.reset)) : State).gate.ch[(31 : Fin 32)]), 14499, ((-2499)), by decide⟩,
    ⟨(withRec 0x52 31 cPay (setCh 31 {State.reset.gate.ch[31] with state := 2, lowPos := false, lowNeg := false, warnPos := false, warnNeg := false} State.reset)), 31, (((withRec 0x52 31 cPay (setCh 31 {State.reset.gate.ch[31] with state := 2, lowPos := false, lowNeg := false, warnPos := false, warnNeg := false} State.reset)) : State).gate.ch[(31 : Fin 32)]), 20000, (-2499), by decide⟩,
    ⟨(withRec 0x52 31 cPay (setCh 31 {State.reset.gate.ch[31] with state := 6, lowPos := true} State.reset)), 31, (((withRec 0x52 31 cPay (setCh 31 {State.reset.gate.ch[31] with state := 6, lowPos := true} State.reset)) : State).gate.ch[(31 : Fin 32)]), 15500, by decide⟩,
    ⟨(withRec 0x52 31 cPay (setCh 31 {State.reset.gate.ch[31] with state := 6, boot := true} State.reset)), 31, (((withRec 0x52 31 cPay (setCh 31 {State.reset.gate.ch[31] with state := 6, boot := true} State.reset)) : State).gate.ch[(31 : Fin 32)]), 15501, (-3001), by decide⟩,
    ⟨State.reset, 31, ((State.reset : State).gate.ch[(31 : Fin 32)]), by decide⟩⟩

theorem witness_GateStagesAreTestedAndReplaced :
    (∃ (s : State) (c : Fin 32) (x : Channel), x = Claim.chOf c s ∧ (x.swapPend = none ∨ gateOn s c = true)) ∧
    (∃ (s : State) (c : Fin 32) (x : Channel) (p : Nat × Nat) (e : Nat × Option Nat), x = Claim.chOf c s ∧ x.swapPend = some p ∧ dueEdge c s = some e ∧ e.1 < x.onUntil.getD s.now + 80) ∧
    (∃ (s : State) (c : Fin 32) (x : Channel) (p : Nat × Nat), x = Claim.chOf c s ∧ x.swapPend = some p ∧ gateOn s c = false ∧ (dueEdge c s).all (fun e => decide (x.onUntil.getD s.now + 80 ≤ e.1)) = true ∧ x.spare = false) ∧
    (∃ (s : State) (c : Fin 32) (x : Channel) (p : Nat × Nat), x = Claim.chOf c s ∧ x.swapPend = some p ∧ gateOn s c = false ∧ (dueEdge c s).all (fun e => decide (x.onUntil.getD s.now + 80 ≤ e.1)) = true ∧ x.spare = true) ∧
    (∃ (s : State) (c : Fin 32) (x : Channel), x = Claim.chOf c s ∧ s.gate.sel.toNat = c.val ∧ s.md ≠ 3) ∧
    (∃ (s : State) (c : Fin 32) (x : Channel), x = Claim.chOf c s ∧ s.gate.sel.toNat = c.val ∧ s.md = 3 ∧ powered s c = true ∧ hasRec s 0x52 c.val = true) ∧
    (∃ (s : State) (c : Fin 32) (x : Channel), x = Claim.chOf c s ∧ s.gate.sel.toNat = c.val ∧ s.md ≠ 3 ∧ s.md ≠ 11) ∧
    (∃ (s : State) (c : Fin 32) (x : Channel), x = Claim.chOf c s ∧ s.gate.sel.toNat = c.val ∧ (s.md = 3 ∨ s.md = 11) ∧ x.state = 5 ∧ 64 + c.val ∈ s.gate.fg.active ∧ hasRec s 0x52 c.val = true ∧ x.lowPos = false ∧ x.lowNeg = false ∧ x.onUntil.any (fun u => decide (u ≤ s.now)) = true ∧ x.cause ≠ 4 ∧ x.cause ≠ 5) ∧
    (∃ (s : State) (c : Fin 32) (x : Channel) (p : Nat) (q : Nat) (sn : Nat), x = Claim.chOf c s ∧ s.gate.sel.toNat = c.val ∧ (s.md = 3 ∨ s.md = 11) ∧ x.state = 5 ∧ 64 + c.val ∈ s.gate.fg.active ∧ hasRec s 0x52 c.val = true ∧ x.lowPos = false ∧ x.lowNeg = false ∧ x.onUntil.any (fun u => decide (u ≤ s.now)) = true ∧ (x.cause = 4 ∨ x.cause = 5) ∧ ((2000 < p ∧ 2000 < q) ∨ 100 < sn)) ∧
    (∃ (s : State) (c : Fin 32) (x : Channel) (p : Nat) (q : Nat) (sn : Nat), x = Claim.chOf c s ∧ s.gate.sel.toNat = c.val ∧ (s.md = 3 ∨ s.md = 11) ∧ x.state = 5 ∧ 64 + c.val ∈ s.gate.fg.active ∧ hasRec s 0x52 c.val = true ∧ x.lowPos = false ∧ x.lowNeg = false ∧ x.onUntil.any (fun u => decide (u ≤ s.now)) = true ∧ (x.cause = 4 ∨ x.cause = 5) ∧ ((2000 < p ∧ 2000 < q) ∨ 100 < sn)) ∧
    (∃ (s : State) (c : Fin 32) (x : Channel) (p : Nat) (q : Nat) (sn : Nat), x = Claim.chOf c s ∧ s.gate.sel.toNat = c.val ∧ (s.md = 3 ∨ s.md = 11) ∧ x.state = 5 ∧ 64 + c.val ∈ s.gate.fg.active ∧ hasRec s 0x52 c.val = true ∧ x.lowPos = false ∧ x.lowNeg = false ∧ x.onUntil.any (fun u => decide (u ≤ s.now)) = true ∧ (x.cause = 4 ∨ x.cause = 5) ∧ p ≤ 2000 ∧ q ≤ 2000 ∧ sn ≤ 100) ∧
    (∃ (s : State) (c : Fin 32) (x : Channel), x = Claim.chOf c s ∧ x.selfTest = false) ∧
    (∃ (s : State) (c : Fin 32) (x : Channel) (p : Nat) (q : Nat) (sn : Nat), x = Claim.chOf c s ∧ x.selfTest = true ∧ p ≤ 2000 ∧ q ≤ 2000 ∧ sn ≤ 100) ∧
    (∃ (s : State) (c : Fin 32) (x : Channel) (p : Nat) (q : Nat) (sn : Nat), x = Claim.chOf c s ∧ x.selfTest = true ∧ x.state ≠ 5 ∧ 2000 < p ∧ q ≤ 2000 ∧ sn ≤ 100 ∧ x.spare = false) :=
  ⟨⟨(setCh 31 {State.reset.gate.ch[31] with swapPend := none} State.reset), 31, (((setCh 31 {State.reset.gate.ch[31] with swapPend := none} State.reset) : State).gate.ch[(31 : Fin 32)]), by decide⟩,
    ⟨(gateRun 3200 {chA State.reset with swapPend := some (1, 1), onUntil := some State.reset.now} State.reset), 15, (((gateRun 3200 {chA State.reset with swapPend := some (1, 1), onUntil := some State.reset.now} State.reset) : State).gate.ch[(15 : Fin 32)]), ((1, 1)), ((State.reset.now + 10, some (State.reset.now + 100))), by decide⟩,
    ⟨(setCh 31 {State.reset.gate.ch[31] with swapPend := some (1, 1), onUntil := some State.reset.now, spare := false} {State.reset with plk := {State.reset.plk with enabled := 0}}), 31, (((setCh 31 {State.reset.gate.ch[31] with swapPend := some (1, 1), onUntil := some State.reset.now, spare := false} {State.reset with plk := {State.reset.plk with enabled := 0}}) : State).gate.ch[(31 : Fin 32)]), ((1, 1)), by decide⟩,
    ⟨(setCh 31 {State.reset.gate.ch[31] with swapPend := some (1, 1), onUntil := some State.reset.now, spare := true} {State.reset with plk := {State.reset.plk with enabled := 0}}), 31, (((setCh 31 {State.reset.gate.ch[31] with swapPend := some (1, 1), onUntil := some State.reset.now, spare := true} {State.reset with plk := {State.reset.plk with enabled := 0}}) : State).gate.ch[(31 : Fin 32)]), ((1, 1)), by decide⟩,
    ⟨(inMode 11 {State.reset with gate := {State.reset.gate with sel := 31}}), 31, (((inMode 11 {State.reset with gate := {State.reset.gate with sel := 31}}) : State).gate.ch[(31 : Fin 32)]), by decide⟩,
    ⟨(withRec 0x52 31 cPay (inMode 3 {State.reset with gate := {State.reset.gate with sel := 31}, power := {State.reset.power with convOk := 0x8000}})), 31, (((withRec 0x52 31 cPay (inMode 3 {State.reset with gate := {State.reset.gate with sel := 31}, power := {State.reset.power with convOk := 0x8000}})) : State).gate.ch[(31 : Fin 32)]), by decide⟩,
    ⟨(inMode 8 {State.reset with gate := {State.reset.gate with sel := 31}}), 31, (((inMode 8 {State.reset with gate := {State.reset.gate with sel := 31}}) : State).gate.ch[(31 : Fin 32)]), by decide⟩,
    ⟨(withRec 0x52 31 cPay (inMode 11 (setCh 31 {State.reset.gate.ch[31] with state := 5, cause := 1, lowPos := false, lowNeg := false, onUntil := some 0} {State.reset with gate := {State.reset.gate with sel := 31, fg := {State.reset.gate.fg with active := [95]}}}))), 31, (((withRec 0x52 31 cPay (inMode 11 (setCh 31 {State.reset.gate.ch[31] with state := 5, cause := 1, lowPos := false, lowNeg := false, onUntil := some 0} {State.reset with gate := {State.reset.gate with sel := 31, fg := {State.reset.gate.fg with active := [95]}}}))) : State).gate.ch[(31 : Fin 32)]), by decide⟩,
    ⟨(withRec 0x52 31 cPay (inMode 11 (setCh 31 {State.reset.gate.ch[31] with state := 5, cause := 4, lowPos := false, lowNeg := false, onUntil := some 0} {State.reset with gate := {State.reset.gate with sel := 31, fg := {State.reset.gate.fg with active := [95]}}}))), 31, (((withRec 0x52 31 cPay (inMode 11 (setCh 31 {State.reset.gate.ch[31] with state := 5, cause := 4, lowPos := false, lowNeg := false, onUntil := some 0} {State.reset with gate := {State.reset.gate with sel := 31, fg := {State.reset.gate.fg with active := [95]}}}))) : State).gate.ch[(31 : Fin 32)]), 2001, 2001, 1, by decide⟩,
    ⟨(withRec 0x52 31 cPay (inMode 3 (setCh 31 {State.reset.gate.ch[31] with state := 5, cause := 5, lowPos := false, lowNeg := false, onUntil := some 0} {State.reset with gate := {State.reset.gate with sel := 31, fg := {State.reset.gate.fg with active := [95]}}}))), 31, (((withRec 0x52 31 cPay (inMode 3 (setCh 31 {State.reset.gate.ch[31] with state := 5, cause := 5, lowPos := false, lowNeg := false, onUntil := some 0} {State.reset with gate := {State.reset.gate with sel := 31, fg := {State.reset.gate.fg with active := [95]}}}))) : State).gate.ch[(31 : Fin 32)]), 1, 2, 101, by decide⟩,
    ⟨(withRec 0x52 31 cPay (inMode 3 (setCh 31 {State.reset.gate.ch[31] with state := 5, cause := 5, lowPos := false, lowNeg := false, onUntil := some 0} {State.reset with gate := {State.reset.gate with sel := 31, fg := {State.reset.gate.fg with active := [95]}}}))), 31, (((withRec 0x52 31 cPay (inMode 3 (setCh 31 {State.reset.gate.ch[31] with state := 5, cause := 5, lowPos := false, lowNeg := false, onUntil := some 0} {State.reset with gate := {State.reset.gate with sel := 31, fg := {State.reset.gate.fg with active := [95]}}}))) : State).gate.ch[(31 : Fin 32)]), 2000, 2000, 100, by decide⟩,
    ⟨(setCh 31 {State.reset.gate.ch[31] with selfTest := false} State.reset), 31, (((setCh 31 {State.reset.gate.ch[31] with selfTest := false} State.reset) : State).gate.ch[(31 : Fin 32)]), by decide⟩,
    ⟨(setCh 31 {State.reset.gate.ch[31] with selfTest := true} State.reset), 31, (((setCh 31 {State.reset.gate.ch[31] with selfTest := true} State.reset) : State).gate.ch[(31 : Fin 32)]), 2000, 2000, 100, by decide⟩,
    ⟨(setCh 31 {State.reset.gate.ch[31] with selfTest := true, state := 2, spare := false} State.reset), 31, (((setCh 31 {State.reset.gate.ch[31] with selfTest := true, state := 2, spare := false} State.reset) : State).gate.ch[(31 : Fin 32)]), 2001, 2000, 100, by decide⟩⟩


theorem witness_LaneFaultsDropTheClaim :
    (∃ (s : State) (l : Lane), (s.lc l).health = .absent) ∧
    (∃ (s : State) (l : Lane) (cause : Fin 10), (s.lc l).health = .healthy ∧ (s.lc (otherLane l)).health = .healthy ∧ cause.val ≠ 0 ∧ cause.val ≠ 9 ∧ ((s.lc l).faults.filter fun t => decide (s.now < t + 240000000000)).length < 3) ∧
    (∃ (s : State) (l : Lane) (cause : Fin 10), (s.lc l).health = .healthy ∧ (s.lc (otherLane l)).health = .healthy ∧ cause.val ≠ 0 ∧ cause.val ≠ 9 ∧ 3 ≤ ((s.lc l).faults.filter fun t => decide (s.now < t + 240000000000)).length) ∧
    (∃ (s : State) (l : Lane) (key : Half), (s.lc l).health = .healthy ∧ (s.lc (otherLane l)).health = .healthy ∧ key = 0x434C ∧ 0x40 ≤ (s.lc (otherLane l)).claim.toNat) ∧
    (∃ (s : State) (l : Lane) (key : Half), (s.lc l).health = .healthy ∧ (s.lc (otherLane l)).health = .healthy ∧ (key ≠ 0x434C ∨ (s.lc (otherLane l)).claim.toNat < 0x40)) ∧
    (∃ (s : State) (l : Lane) (key : Half), (s.lc l).health = .healthy ∧ (s.lc (otherLane l)).health = .healthy ∧ (key ≠ 0x434C ∨ (s.lc (otherLane l)).claim.toNat < 0x40)) :=
  ⟨⟨(setLc .b {} State.reset), .b, by decide⟩,
    ⟨(pair {health := .healthy, claim := 0x40, faults := [State.reset.now]} {health := .healthy, claim := 0x40} State.reset), .a, 8, by decide⟩,
    ⟨(pair {health := .healthy, claim := 0x40, faults := [State.reset.now, State.reset.now, State.reset.now]} {health := .healthy, claim := 0x40} State.reset), .a, 1, by decide⟩,
    ⟨(pair {health := .healthy, claim := 0x40} {health := .healthy, claim := 0x40} State.reset), .a, 0x434C, by decide⟩,
    ⟨(pair {health := .healthy, claim := 0x40} {health := .healthy, claim := 0x3F} State.reset), .a, 0x434C, by decide⟩,
    ⟨(pair {health := .healthy, claim := 0x40} {health := .healthy, claim := 0x40} State.reset), .b, 0x434D, by decide⟩⟩

theorem witness_LanesRecoverInThreePhases :
    (∃ (s : State) (l : Lane), (s.lc l).health = .faulted ∧ (s.lc l).offline = false ∧ mayRecover l s = true) ∧
    (∃ (s : State) (l : Lane), ((s.lc l).health ≠ .faulted ∨ (s.lc l).offline = true ∨ mayRecover l s = false)) ∧
    (∃ (s : State) (l : Lane), (s.lc l).health = .selfCheck ∧ (s.lc (otherLane l)).claim ≠ 0 ∧ (∃ c : Fin 8, hasRec s 0x40 c.val = true)) ∧
    (∃ (s : State) (l : Lane), (s.lc l).health = .selfCheck ∧ (s.lc (otherLane l)).claim ≠ 0 ∧ (∃ c : Fin 8, hasRec s 0x40 c.val = true)) ∧
    (∃ (s : State) (l : Lane), (s.lc l).health = .selfCheck ∧ (s.lc (otherLane l)).claim = 0 ∧ s.md ≠ 3 ∧ s.md ≠ 11) ∧
    (∃ (s : State) (l : Lane), (s.lc l).health = .selfCheck ∧ (s.lc (otherLane l)).claim = 0 ∧ s.md = 3 ∧ (∃ c : Fin 8, hasRec s 0x40 c.val = true) ∧ hasRec s 0x60 0 = true) ∧
    (∃ (s : State) (l : Lane) (c : Fin 8) (g : Graph), graphOf c s = some g ∧ (s.lc l).health = .mirror ∧ tsuUp s = true ∧ (∃ d : Fin 8, d ≠ c ∧ hasRec s 0x40 d.val = true ∧ bit (s.lc l).mirrored d.val = false)) ∧
    (∃ (s : State) (l : Lane) (key : Half), (s.lc l).health = .parked ∧ key = 0x434C ∧ mayRecover l s = true) ∧
    (∃ (s : State) (l : Lane) (key : Half), (key ≠ 0x434C ∨ (s.lc l).health = .healthy)) ∧
    (∃ (s : State) (l : Lane) (key : Half), (key ≠ 0x434C ∨ (s.lc l).health = .healthy)) :=
  ⟨⟨(ready (setLc .b {health := .faulted, claim := 0, cause := 3} State.reset)), .b, by decide⟩,
    ⟨(setLc .b {health := .parked} State.reset), .b, by decide⟩,
    ⟨(withRec 0x40 1 [] (pair {health := .healthy, claim := 1} {health := .selfCheck, checkAt := 9} State.reset)), .b, by decide⟩,
    ⟨(withRec 0x40 1 [] (pair {health := .healthy, claim := 1} {health := .selfCheck, checkAt := 9} State.reset)), .b, by decide⟩,
    ⟨(inMode 8 (pair {health := .healthy, claim := 0} {health := .selfCheck, checkAt := 9} State.reset)), .b, by decide⟩,
    ⟨(addRec 0x60 0 (pay 200 [(32, 5)]) (withRec 0x40 1 gPay (inMode 3 (pair {health := .healthy, claim := 0} {health := .selfCheck, checkAt := 9} State.reset)))), .b, by decide⟩,
    ⟨(addRec 0x40 1 [] (withRec 0x40 2 gPay (lanesUp State.reset)) |> pair {health := .healthy, claim := 64} {health := .mirror}), .b, 2, (parseGraph gPay), by decide⟩,
    ⟨(ready (setLc .b {health := .parked} State.reset)), .b, 0x434C, by decide⟩,
    ⟨(setLc .b {health := .healthy} State.reset), .b, 0x434C, by decide⟩,
    ⟨State.reset, .b, 0, by decide⟩⟩

theorem witness_DivergenceFaultsTheJuniorLane :
    (∃ (s : State) (l : Lane) (c : Fin 8) (n : Nat) (own : Word) (sig : Word), (s.lc l).sigs = [(c, n, own)] ∧ (∀ x : Lane, (s.lc x).health = .healthy) ∧ own = sig) ∧
    (∃ (s : State) (l : Lane) (c : Fin 8) (n : Nat) (own : Word) (sig : Word), (s.lc l).sigs = [(c, n, own)] ∧ (∀ x : Lane, (s.lc x).health = .healthy) ∧ own ≠ sig) ∧
    (∃ (s : State) (l : Lane) (c : Fin 8) (n : Nat) (own : Word) (e : Int), (s.lc l).sigs = [(c, n, own)] ∧ (∀ x : Lane, (s.lc x).health = .healthy) ∧ e.natAbs ≤ 6) ∧
    (∃ (s : State) (l : Lane) (c : Fin 8) (n : Nat) (own : Word) (e : Int), (s.lc l).sigs = [(c, n, own)] ∧ (∀ x : Lane, (s.lc x).health = .healthy) ∧ 7 ≤ e.natAbs ∧ e.natAbs ≤ 32) ∧
    (∃ (s : State) (l : Lane) (c : Fin 8) (n : Nat) (own : Word) (e : Int), (s.lc l).sigs = [(c, n, own)] ∧ (∀ x : Lane, (s.lc x).health = .healthy) ∧ 7 ≤ e.natAbs ∧ e.natAbs ≤ 32) ∧
    (∃ (s : State) (l : Lane) (c : Fin 8) (n : Nat) (own : Word) (e : Int), (s.lc l).sigs = [(c, n, own)] ∧ (∀ x : Lane, (s.lc x).health = .healthy) ∧ 32 < e.natAbs) ∧
    (∃ (s : State) (l : Lane) (c : Fin 8) (n : Nat) (own : Word) (sig : Word), (s.lc l).sigs = [(c, n, own)] ∧ (s.lc l).health = .matching ∧ (s.lc (otherLane l)).health = .healthy ∧ ((∀ d : Fin 8, hasRec s 0x40 d.val = true ↔ d = c)) ∧ (s.lc l).matched[c] = 2 ∧ n = (s.lc l).lastMatch[c] + 1 ∧ own = sig) ∧
    (∃ (s : State) (l : Lane) (c : Fin 8) (n : Nat) (own : Word) (sig : Word), (s.lc l).sigs = [(c, n, own)] ∧ (s.lc l).health = .matching ∧ (s.lc (otherLane l)).health = .healthy ∧ ((∀ d : Fin 8, hasRec s 0x40 d.val = true ↔ d = c)) ∧ n ≠ (s.lc l).lastMatch[c] + 1 ∧ own = sig) ∧
    (∃ (s : State) (l : Lane) (c : Fin 8) (n : Nat) (own : Word) (sig : Word), (s.lc l).sigs = [(c, n, own)] ∧ (s.lc l).health = .matching ∧ (s.lc (otherLane l)).health = .healthy ∧ ((∀ d : Fin 8, hasRec s 0x40 d.val = true ↔ d = c)) ∧ own ≠ sig) :=
  ⟨⟨(pair {health := .healthy, sigs := [(2, 5, 9)]} {health := .healthy} State.reset), .a, 2, 5, 9, 9, by
      and_intros <;> first | rfl | decide | exact ⟨_, rfl⟩ | (intro x; cases x <;> first | rfl | decide | decide +kernel) | decide +kernel⟩,
    ⟨(pair {health := .healthy, claim := 0x40, sigs := [(2, 5, 9)]} {health := .healthy, claim := 0xC0} State.reset), .a, 2, 5, 9, 8, by
      and_intros <;> first | rfl | decide | exact ⟨_, rfl⟩ | (intro x; cases x <;> first | rfl | decide | decide +kernel) | decide +kernel⟩,
    ⟨(pair {health := .healthy, sigs := [(2, 5, 9)]} {health := .healthy} State.reset), .a, 2, 5, 9, (-6), by
      and_intros <;> first | rfl | decide | exact ⟨_, rfl⟩ | (intro x; cases x <;> first | rfl | decide | decide +kernel) | decide +kernel⟩,
    ⟨(pair {health := .healthy, sigs := [(2, 5, 9)]} {health := .healthy} State.reset), .a, 2, 5, 9, (-7), by
      and_intros <;> first | rfl | decide | exact ⟨_, rfl⟩ | (intro x; cases x <;> first | rfl | decide | decide +kernel) | decide +kernel⟩,
    ⟨(pair {health := .healthy, sigs := [(2, 5, 9)]} {health := .healthy} State.reset), .a, 2, 5, 9, 32, by
      and_intros <;> first | rfl | decide | exact ⟨_, rfl⟩ | (intro x; cases x <;> first | rfl | decide | decide +kernel) | decide +kernel⟩,
    ⟨(pair {health := .healthy, sigs := [(2, 5, 9)]} {health := .healthy} State.reset), .a, 2, 5, 9, (-33), by
      and_intros <;> first | rfl | decide | exact ⟨_, rfl⟩ | (intro x; cases x <;> first | rfl | decide | decide +kernel) | decide +kernel⟩,
    ⟨(withRec 0x40 2 [] (pair {health := .matching, matched := Vector.replicate 8 2, lastMatch := Vector.replicate 8 4, sigs := [(2, 5, 9)]} {health := .healthy, claim := 0x40} State.reset)), .a, 2, 5, 9, 9, by decide⟩,
    ⟨(withRec 0x40 2 [] (pair {health := .matching, matched := Vector.replicate 8 2, lastMatch := Vector.replicate 8 3, sigs := [(2, 5, 9)]} {health := .healthy, claim := 0x40} State.reset)), .a, 2, 5, 9, 9, by decide⟩,
    ⟨(withRec 0x40 2 [] (pair {health := .matching, matched := Vector.replicate 8 2, sigs := [(2, 5, 9)]} {health := .healthy, claim := 0x40} State.reset)), .a, 2, 5, 9, 8, by decide⟩⟩

theorem witness_TsuinLanesSwapAndRetrain :
    (∃ (s : State) (toB : Bool) (k : Fin 5) (ch : Lane), ch = (if toB then .a else .b) ∧ bit (tsuOut s ch).good k.val = false) ∧
    (∃ (s : State) (toB : Bool) (k : Fin 5) (ch : Lane), ch = (if toB then .a else .b) ∧ bit (tsuOut s ch).good k.val = false) ∧
    (∃ (toB : Bool) (ch : Lane) (n : Nat), ch = (if toB then .a else .b) ∧ n < 16) ∧
    (∃ (s : State) (toB : Bool) (k : Fin 5) (ch : Lane) (lost : Bool) (n : Nat), ch = (if toB then .a else .b) ∧ ((lost = true ∨ 16 ≤ n)) ∧ (tsuOut s ch).good = 0x1F ∧ k.val < 4 ∧ (tsuOut s ch).spareUsed = false) ∧
    (∃ (s : State) (toB : Bool) (k : Fin 5) (ch : Lane), ch = (if toB then .a else .b) ∧ k.val < 4 ∧ (tsuOut s ch).good = 0x0F ∧ (tsuOut s ch).up = true ∧ (∀ x : Lane, (s.lc x).health = .healthy)) ∧
    (∃ (s : State) (toB : Bool) (ch : Lane), ch = (if toB then .a else .b) ∧ (tsuOnRing s = true ∨ laneLocked s .a = false ∨ laneLocked s .b = false)) ∧
    (∃ (s : State) (toB : Bool) (ch : Lane), ch = (if toB then .a else .b) ∧ tsuOnRing s = false ∧ (∀ x : Lane, laneLocked s x = true ∧ laneUp x s = true) ∧ (tsuOut s ch).good = 0x0F) :=
  ⟨⟨State.reset, true, 4, (if (true : Bool) then .a else .b), by decide⟩,
    ⟨{State.reset with claim := {State.reset.claim with ab := {good := 0}}}, true, 4, .a, by decide⟩,
    ⟨true, (if (true : Bool) then .a else .b), 15, by decide⟩,
    ⟨{State.reset with claim := {State.reset.claim with ab := {good := 0x1F, up := true}}}, true, 3, .a, false, 16, by decide⟩,
    ⟨(pair {health := .healthy, claim := 64} {health := .healthy, claim := 64} {State.reset with claim := {State.reset.claim with ab := {good := 0xF, up := true}}}), true, 3, .a, by
      and_intros <;> first | rfl | decide | exact ⟨_, rfl⟩ | (intro x; cases x <;> first | rfl | decide | decide +kernel) | decide +kernel⟩,
    ⟨{State.reset with clock := {State.reset.clock with isl := State.reset.clock.isl.set 13 {src := 2}}}, true, .a, by decide⟩,
    ⟨(pair {health := .healthy, claim := 64} {health := .healthy, claim := 64} (locked {State.reset with claim := {State.reset.claim with ab := {good := 0xF, up := false}}})), true, .a, by
      and_intros <;> first | rfl | decide | exact ⟨_, rfl⟩ | (intro x; cases x <;> first | rfl | decide | decide +kernel) | decide +kernel⟩⟩

theorem witness_ClaimsFollowThePreference :
    (∃ (s : State), (s.claim.noRevert = true ∨ (s.lc (prefLane s)).claim ≠ 0x40 ∨ (s.lc (prefLane s)).health ≠ .healthy)) ∧
    (∃ (s : State), s.claim.noRevert = false ∧ (s.lc (prefLane s)).claim = 0x40 ∧ (s.lc (prefLane s)).health = .healthy) ∧
    (∃ (s : State) (m : Master) (v : Word), m.toNat < 14 ∧ s.key.session = true ∧ s.key.owner = m ∧ s.md = 3 ∧ (v.toNat % 16 = 0 ∨ 8 < v.toNat % 16)) ∧
    (∃ (s : State) (m : Master) (v : Word), m.toNat < 14 ∧ s.key.session = true ∧ s.key.owner = m ∧ s.md = 3 ∧ (v.toNat % 16 = 0 ∨ 8 < v.toNat % 16)) ∧
    (∃ (s : State) (m : Master) (v : Word), m.toNat < 14 ∧ s.key.session = true ∧ s.key.owner = m ∧ s.md = 3 ∧ 1 ≤ v.toNat % 16 ∧ v.toNat % 16 ≤ 8) ∧
    (∃ (s : State) (m : Master) (v : Word), m.toNat < 14 ∧ s.key.session = true ∧ s.key.owner = m ∧ s.md = 3 ∧ 1 ≤ v.toNat % 16 ∧ v.toNat % 16 ≤ 8) :=
  ⟨⟨{State.reset with claim := {State.reset.claim with noRevert := true}}, by decide⟩,
    ⟨(pair {health := .healthy, claim := 0x40} {health := .healthy, claim := 0x40} {State.reset with claim := {State.reset.claim with noRevert := false}}), by decide⟩,
    ⟨(owner6 (inMode 3 State.reset)), 6, 0, by decide⟩,
    ⟨(owner6 (inMode 3 State.reset)), 6, 0x39, by decide⟩,
    ⟨(owner6 (inMode 3 State.reset)), 6, 0x18, by decide⟩,
    ⟨(owner6 (inMode 3 (pair {health := .healthy, claim := 0xC0} {health := .healthy, claim := 0x40} {State.reset with claim := {State.reset.claim with prefB := false}}))), 6, 0x11, by decide⟩⟩

theorem witness_TumblersHoldAndHandOver :
    (∃ (s : State) (c : Fin 32) (x : Tumbler), x = s.claim.tum[c] ∧ s.claim.seenA = s.claim.a.claim ∧ s.claim.seenB = s.claim.b.claim ∧ s.claim.senior = seniorLane s) ∧
    (∃ (s : State) (c : Fin 32) (x : Tumbler), x = s.claim.tum[c] ∧ s.claim.seenA = s.claim.a.claim ∧ s.claim.seenB = s.claim.b.claim ∧ s.claim.senior ≠ seniorLane s) ∧
    (∃ (s : State) (c : Fin 32) (x : Tumbler), x = s.claim.tum[c] ∧ (s.claim.seenA ≠ s.claim.a.claim ∨ s.claim.seenB ≠ s.claim.b.claim) ∧ (∀ p : Fin 32, winSource p s = s.gate.fg.active.contains (16 + p.val)) ∧ tumRuns c s = true ∧ x.hold = false ∧ (s.lc x.src).claim = 0) ∧
    (∃ (s : State) (c : Fin 32) (x : Tumbler), x = s.claim.tum[c] ∧ (s.claim.seenA ≠ s.claim.a.claim ∨ s.claim.seenB ≠ s.claim.b.claim) ∧ (∀ p : Fin 32, winSource p s = s.gate.fg.active.contains (16 + p.val)) ∧ tumRuns c s = true ∧ x.hold = false ∧ 0 < (s.lc x.src).claim.toNat ∧ (s.lc x.src).claim.toNat < (s.lc (otherLane x.src)).claim.toNat) ∧
    (∃ (s : State) (c : Fin 32) (x : Tumbler), x = s.claim.tum[c] ∧ (s.claim.seenA ≠ s.claim.a.claim ∨ s.claim.seenB ≠ s.claim.b.claim) ∧ (∀ p : Fin 32, winSource p s = s.gate.fg.active.contains (16 + p.val)) ∧ tumRuns c s = false ∧ x.hold = false ∧ (s.lc x.src).claim.toNat < (s.lc (otherLane x.src)).claim.toNat) ∧
    (∃ (s : State) (c : Fin 32) (x : Tumbler), x = s.claim.tum[c] ∧ x.planned = false) ∧
    (∃ (s : State) (c : Fin 32) (x : Tumbler), x = s.claim.tum[c] ∧ x.planned = true) ∧
    (∃ (s : State) (c : Fin 32) (x : Tumbler), x = s.claim.tum[c] ∧ x.hold = false) ∧
    (∃ (s : State) (c : Fin 32) (x : Tumbler), x = s.claim.tum[c] ∧ x.hold = true ∧ (s.lc (otherLane x.src)).claim ≠ 0) ∧
    (∃ (s : State) (c : Fin 32) (x : Tumbler), x = s.claim.tum[c] ∧ x.hold = true ∧ (∀ l : Lane, (s.lc l).claim = 0) ∧ inRun s = true ∧ s.mode.busy = false) :=
  ⟨⟨{State.reset with claim := {State.reset.claim with seenA := State.reset.claim.a.claim, seenB := State.reset.claim.b.claim, senior := seniorLane State.reset}}, 0, (({State.reset with claim := {State.reset.claim with seenA := State.reset.claim.a.claim, seenB := State.reset.claim.b.claim, senior := seniorLane State.reset}} : State).claim.tum[(0 : Fin 32)]), by decide⟩,
    ⟨{State.reset with claim := {State.reset.claim with seenA := State.reset.claim.a.claim, seenB := State.reset.claim.b.claim, senior := otherLane (seniorLane State.reset)}}, 0, (({State.reset with claim := {State.reset.claim with seenA := State.reset.claim.a.claim, seenB := State.reset.claim.b.claim, senior := otherLane (seniorLane State.reset)}} : State).claim.tum[(0 : Fin 32)]), by decide⟩,
    ⟨(calm (gateRun 3200 (chA State.reset) (seen (pair {health := .faulted, claim := 0} {health := .healthy, claim := 64} State.reset)))), 15, (((calm (gateRun 3200 (chA State.reset) (seen (pair {health := .faulted, claim := 0} {health := .healthy, claim := 64} State.reset)))) : State).claim.tum[(15 : Fin 32)]), by decide⟩,
    ⟨(calm (gateRun 3200 (chA State.reset) (seen (pair {health := .healthy, claim := 1} {health := .healthy, claim := 64} State.reset)))), 15, (((calm (gateRun 3200 (chA State.reset) (seen (pair {health := .healthy, claim := 1} {health := .healthy, claim := 64} State.reset)))) : State).claim.tum[(15 : Fin 32)]), by decide⟩,
    ⟨(calm (noRecs (seen (pair {health := .healthy, claim := 1} {health := .healthy, claim := 64} State.reset)))), 31, (((calm (noRecs (seen (pair {health := .healthy, claim := 1} {health := .healthy, claim := 64} State.reset)))) : State).claim.tum[(31 : Fin 32)]), by decide⟩,
    ⟨{State.reset with claim := {State.reset.claim with tum := State.reset.claim.tum.set 31 {planned := false}}}, 31, (({State.reset with claim := {State.reset.claim with tum := State.reset.claim.tum.set 31 {planned := false}}} : State).claim.tum[(31 : Fin 32)]), by decide⟩,
    ⟨{State.reset with claim := {State.reset.claim with tum := State.reset.claim.tum.set 31 {planned := true}}}, 31, (({State.reset with claim := {State.reset.claim with tum := State.reset.claim.tum.set 31 {planned := true}}} : State).claim.tum[(31 : Fin 32)]), by decide⟩,
    ⟨{State.reset with claim := {State.reset.claim with tum := State.reset.claim.tum.set 31 {hold := false}}}, 31, (({State.reset with claim := {State.reset.claim with tum := State.reset.claim.tum.set 31 {hold := false}}} : State).claim.tum[(31 : Fin 32)]), by decide⟩,
    ⟨(pair {health := .faulted, claim := 0} {health := .healthy, claim := 64} {State.reset with claim := {State.reset.claim with tum := State.reset.claim.tum.set 31 {hold := true}}}), 31, (((pair {health := .faulted, claim := 0} {health := .healthy, claim := 64} {State.reset with claim := {State.reset.claim with tum := State.reset.claim.tum.set 31 {hold := true}}}) : State).claim.tum[(31 : Fin 32)]), by decide⟩,
    ⟨(inMode 8 (pair {health := .faulted, claim := 0} {health := .faulted, claim := 0} {State.reset with claim := {State.reset.claim with tum := State.reset.claim.tum.set 31 {hold := true}}})), 31, (((inMode 8 (pair {health := .faulted, claim := 0} {health := .faulted, claim := 0} {State.reset with claim := {State.reset.claim with tum := State.reset.claim.tum.set 31 {hold := true}}})) : State).claim.tum[(31 : Fin 32)]), by
      and_intros <;> first | rfl | decide | exact ⟨_, rfl⟩ | (intro x; cases x <;> first | rfl | decide | decide +kernel) | decide +kernel⟩⟩

theorem witness_TheJuniorLaneHasTheLowerClaim :
    (∃ (s : State) (fwd : Lane → Nat), (∀ l : Lane, fwd l = ((idx 32).filter fun c => (s.claim.tum[c]).src = l).length) ∧ (s.lc .a).claim.toNat < (s.lc .b).claim.toNat) ∧
    (∃ (s : State) (fwd : Lane → Nat), (∀ l : Lane, fwd l = ((idx 32).filter fun c => (s.claim.tum[c]).src = l).length) ∧ (s.lc .b).claim.toNat < (s.lc .a).claim.toNat) ∧
    (∃ (s : State) (fwd : Lane → Nat), (∀ l : Lane, fwd l = ((idx 32).filter fun c => (s.claim.tum[c]).src = l).length) ∧ (s.lc .a).claim = (s.lc .b).claim ∧ fwd .a < fwd .b) ∧
    (∃ (s : State) (fwd : Lane → Nat), (∀ l : Lane, fwd l = ((idx 32).filter fun c => (s.claim.tum[c]).src = l).length) ∧ (s.lc .a).claim = (s.lc .b).claim ∧ fwd .b < fwd .a) ∧
    (∃ (s : State) (fwd : Lane → Nat), (∀ l : Lane, fwd l = ((idx 32).filter fun c => (s.claim.tum[c]).src = l).length) ∧ (s.lc .a).claim = (s.lc .b).claim ∧ fwd .a = fwd .b) :=
  ⟨⟨(pair {claim := 0x40} {claim := 0xC0} State.reset), (fun l => ((idx 32).filter fun (c : Fin 32) => decide ((((pair {claim := 0x40} {claim := 0xC0} State.reset) : State).claim.tum[c]).src = l)).length), by
      and_intros <;> first | rfl | decide | exact ⟨_, rfl⟩ | (intro x; cases x <;> first | rfl | decide | decide +kernel) | decide +kernel⟩,
    ⟨(pair {claim := 0xC0} {claim := 0x40} State.reset), (fun l => ((idx 32).filter fun (c : Fin 32) => decide ((((pair {claim := 0xC0} {claim := 0x40} State.reset) : State).claim.tum[c]).src = l)).length), by
      and_intros <;> first | rfl | decide | exact ⟨_, rfl⟩ | (intro x; cases x <;> first | rfl | decide | decide +kernel) | decide +kernel⟩,
    ⟨(pair {claim := 0x40} {claim := 0x40} {State.reset with claim := {State.reset.claim with tum := Vector.replicate 32 ({src := .b} : Tumbler)}}), (fun l => ((idx 32).filter fun (c : Fin 32) => decide ((((pair {claim := 0x40} {claim := 0x40} {State.reset with claim := {State.reset.claim with tum := Vector.replicate 32 ({src := .b} : Tumbler)}}) : State).claim.tum[c]).src = l)).length), by
      and_intros <;> first | rfl | decide | exact ⟨_, rfl⟩ | (intro x; cases x <;> first | rfl | decide | decide +kernel) | decide +kernel⟩,
    ⟨(pair {claim := 0x40} {claim := 0x40} {State.reset with claim := {State.reset.claim with tum := Vector.replicate 32 ({src := .a} : Tumbler)}}), (fun l => ((idx 32).filter fun (c : Fin 32) => decide ((((pair {claim := 0x40} {claim := 0x40} {State.reset with claim := {State.reset.claim with tum := Vector.replicate 32 ({src := .a} : Tumbler)}}) : State).claim.tum[c]).src = l)).length), by
      and_intros <;> first | rfl | decide | exact ⟨_, rfl⟩ | (intro x; cases x <;> first | rfl | decide | decide +kernel) | decide +kernel⟩,
    ⟨(pair {claim := 0x40} {claim := 0x40} {State.reset with claim := {State.reset.claim with tum := Vector.ofFn fun i => ({src := if i.val < 16 then .a else .b} : Tumbler)}}), (fun l => ((idx 32).filter fun (c : Fin 32) => decide ((((pair {claim := 0x40} {claim := 0x40} {State.reset with claim := {State.reset.claim with tum := Vector.ofFn fun i => ({src := if i.val < 16 then .a else .b} : Tumbler)}}) : State).claim.tum[c]).src = l)).length), by
      and_intros <;> first | rfl | decide | exact ⟨_, rfl⟩ | (intro x; cases x <;> first | rfl | decide | decide +kernel) | decide +kernel⟩⟩


theorem witness_PortsLinkAndSend :
    (∃ (s : State) (p : Fin 2), portUsed p s = false) ∧
    (∃ (s : State) (p : Fin 2) (sp : Fin 3), portUsed p s = true ∧ s.net.stopped = false ∧ speedOffered p sp s = true ∧ ((s.net.mode = 2 → sp = 2)) ∧ ((s.net.mode = 0 ∨ (Claim.portOf (otherPort p) s).link = false ∨ (Claim.portOf (otherPort p) s).speed = sp))) ∧
    (∃ (s : State) (p : Fin 2) (sp : Fin 3), portUsed p s = true ∧ s.net.stopped = false ∧ speedOffered p sp s = true ∧ ((s.net.mode = 2 → sp = 2)) ∧ ((s.net.mode = 0 ∨ (Claim.portOf (otherPort p) s).link = false ∨ (Claim.portOf (otherPort p) s).speed = sp))) ∧
    (∃ (s : State) (p : Fin 2) (sp : Fin 3), portUsed p s = true ∧ s.net.stopped = false ∧ speedOffered p sp s = false ∧ (Claim.portOf p s).link = true) ∧
    (∃ (s : State) (p : Fin 2), portUsed p s = true ∧ s.net.stopped = false ∧ s.net.mode = 2 ∧ speedOffered p 1 s = true) ∧
    (∃ (s : State) (p : Fin 2), portUsed p s = true ∧ s.net.stopped = false ∧ (Claim.portOf p s).link = true) ∧
    (∃ (s : State), s.net.on = true ∧ s.net.stopped = false ∧ s.net.mode = 0) ∧
    (∃ (s : State), s.net.on = true ∧ s.net.stopped = false ∧ s.net.mode ≠ 0 ∧ (∀ q : Fin 2, (Claim.portOf q s).link = true)) ∧
    (∃ (s : State), s.net.on = true ∧ s.net.stopped = false ∧ s.net.mode = 0 ∧ (Claim.portOf 0 s).link = true) ∧
    (∃ (s : State) (p : Fin 2), linkUp p s = true) ∧
    (∃ (s : State) (p : Fin 2), linkUp p s = false) :=
  ⟨⟨{State.reset with net := {State.reset.net with on := false}}, 1, by decide⟩,
    ⟨(addRec 0x70 1 (pay 40 []) (withRec 0x70 0 (pay 40 []) (net 1 State.reset))), 0, 2, by decide⟩,
    ⟨(withRec 0x70 0 (pay 40 [(0, 1)]) (net 0 State.reset)), 0, 1, by decide⟩,
    ⟨(withRec 0x70 1 (pay 40 []) (net 2 State.reset)), 1, 1, by decide⟩,
    ⟨(withRec 0x70 1 (pay 40 [(0, 1)]) (net 2 State.reset)), 1, by decide⟩,
    ⟨(net 2 State.reset), 1, by decide⟩,
    ⟨(net 0 State.reset), by decide⟩,
    ⟨(net 1 State.reset), by decide⟩,
    ⟨(net 0 State.reset), by decide⟩,
    ⟨(net 1 State.reset), 0, by decide⟩,
    ⟨{State.reset with net := {State.reset.net with stopped := true}}, 0, by decide⟩⟩

theorem witness_FramesAreCheckedAndDeduplicated :
    (∃ (s : State) (p : Fin 2) (f : EthFrame), portUsed p s = true ∧ linkUp p s = true ∧ (1528 < f.lenBytes ∨ f.fcsOk = false)) ∧
    (∃ (s : State) (p : Fin 2) (f : EthFrame), portUsed p s = true ∧ linkUp p s = true ∧ (1528 < f.lenBytes ∨ f.fcsOk = false)) ∧
    (∃ (s : State) (p : Fin 2) (f : EthFrame), portUsed p s = true ∧ linkUp p s = true ∧ f.lenBytes ≤ 1528 ∧ f.fcsOk = true ∧ s.net.mode = 0 ∧ p = 0 ∧ f.kind = 1 ∧ f.dst = s.net.mac ∧ beNat (slice f.payload 24 4) = s.net.ip.toNat) ∧
    (∃ (s : State) (p : Fin 2) (f : EthFrame), portUsed p s = true ∧ linkUp p s = true ∧ f.lenBytes ≤ 1528 ∧ f.fcsOk = true ∧ s.net.mode = 0 ∧ p = 0 ∧ f.kind = 1 ∧ f.dst = s.net.mac ∧ beNat (slice f.payload 24 4) ≠ s.net.ip.toNat) ∧
    (∃ (s : State) (p : Fin 2) (f : EthFrame) (q : Half), portUsed p s = true ∧ linkUp p s = true ∧ f.lenBytes ≤ 1528 ∧ f.fcsOk = true ∧ s.net.mode = 1 ∧ f.seq = some q ∧ f.kind = 0 ∧ (∀ e ∈ s.net.dup, e.src ≠ f.src) ∧ s.net.dup.length < 512) ∧
    (∃ (s : State) (p : Fin 2) (f : EthFrame) (q : Half), portUsed p s = true ∧ linkUp p s = true ∧ f.lenBytes ≤ 1528 ∧ f.fcsOk = true ∧ s.net.mode = 1 ∧ f.seq = some q ∧ f.kind = 0 ∧ (∀ e ∈ s.net.dup, e.src ≠ f.src) ∧ s.net.dup.length < 512) ∧
    (∃ (s : State) (p : Fin 2) (f : EthFrame) (q : Half) (e : DupEntry), portUsed p s = true ∧ linkUp p s = true ∧ f.lenBytes ≤ 1528 ∧ f.fcsOk = true ∧ s.net.mode = 1 ∧ f.seq = some q ∧ f.kind = 1 ∧ s.net.dup = [e] ∧ e.src = f.src ∧ s.now < e.heardAt + 160000000 ∧ seqSeen e q = true) ∧
    (∃ (s : State) (p : Fin 2) (f : EthFrame) (q : Half) (e : DupEntry), portUsed p s = true ∧ linkUp p s = true ∧ f.lenBytes ≤ 1528 ∧ f.fcsOk = true ∧ s.net.mode = 1 ∧ f.seq = some q ∧ f.kind = 1 ∧ s.net.dup = [e] ∧ e.src = f.src ∧ s.now < e.heardAt + 160000000 ∧ seqSeen e q = true) ∧
    (∃ (s : State) (p : Fin 2) (e : DupEntry), portUsed p s = true ∧ linkUp p s = true ∧ s.net.dup = [e]) ∧
    (∃ (s : State) (p : Fin 2) (e : LanHeard), portUsed p s = true ∧ linkUp p s = true ∧ s.net.mode = 1 ∧ (∀ q : Fin 2, linkUp q s = true) ∧ s.net.heard = [e] ∧ s.net.lanFault ≠ some e.src ∧ e.since + 1600000000 ≤ e.lastAt ∧ max s.now (e.since + 2400000000) ≤ e.lastAt + 800000000) ∧
    (∃ (s : State) (p : Fin 2) (e : LanHeard), portUsed p s = true ∧ linkUp p s = true ∧ s.net.mode = 1 ∧ (∀ q : Fin 2, linkUp q s = true) ∧ s.net.heard = [e] ∧ s.net.lanFault ≠ some e.src ∧ e.lastAt < e.since + 1600000000) ∧
    (∃ (s : State) (p : Fin 2), portUsed p s = true ∧ linkUp p s = true ∧ s.net.mode ≠ 1) :=
  ⟨⟨(net 1 State.reset), 0, (fr 1 none 1529 true), by decide⟩,
    ⟨(net 1 State.reset), 0, (fr 1 none 100 false), by decide⟩,
    ⟨{net 0 State.reset with net := {(net 0 State.reset).net with ip := 7}}, 0, {fr 1 none 1528 true with payload := pay 28 [(27, 7)]}, by decide⟩,
    ⟨{net 0 State.reset with net := {(net 0 State.reset).net with ip := 8}}, 0, {fr 1 none 1528 true with payload := pay 28 [(27, 7)]}, by decide⟩,
    ⟨(net 1 {State.reset with net := {State.reset.net with dup := []}}), 0, (fr 0 (some 7) 1528 true), 7, by decide⟩,
    ⟨(net 1 {State.reset with net := {State.reset.net with dup := [⟨4, 3, 1, 0, 0⟩]}}), 0, (fr 0 (some 7) 1528 true), 7, by decide⟩,
    ⟨(net 1 {State.reset with net := {State.reset.net with dup := [⟨9, 7, 1, State.reset.now, 0⟩]}}), 1, (fr 1 (some 7) 1528 true), 7, ⟨9, 7, 1, State.reset.now, 0⟩, by decide⟩,
    ⟨(net 1 {State.reset with net := {State.reset.net with dup := [⟨9, 70, 1#64 <<< 63, State.reset.now, 0⟩]}}), 1, (fr 1 (some 7) 1528 true), 7, ⟨9, 70, 1#64 <<< 63, State.reset.now, 0⟩, by decide⟩,
    ⟨(net 1 {State.reset with net := {State.reset.net with dup := [⟨9, 7, 1, 0, 0⟩]}}), 1, ⟨9, 7, 1, 0, 0⟩, by decide⟩,
    ⟨{net 1 State.reset with now := 1600000000, net := {(net 1 State.reset).net with heard := [⟨4, 1, 0, 1600000000⟩], lanFault := none}}, 0, ⟨4, 1, 0, 1600000000⟩, by decide⟩,
    ⟨{net 1 State.reset with net := {(net 1 State.reset).net with heard := [⟨4, 1, 0, 1599999999⟩], lanFault := none}}, 0, ⟨4, 1, 0, 1599999999⟩, by decide⟩,
    ⟨(net 2 State.reset), 0, by decide⟩⟩

theorem witness_DomainsAcquireLockAndHold :
    (∃ (s : State) (k : Fin 2) (p : Fin 2) (d : TimeDomain), d = Claim.domOf k s ∧ d.source = 1 ∧ s.net.mode = 0 ∧ linkUp p s = true ∧ d.master = none) ∧
    (∃ (s : State) (k : Fin 2) (p : Fin 2) (d : TimeDomain), d = Claim.domOf k s ∧ d.source = 1 ∧ s.net.mode = 0 ∧ linkUp p s = true ∧ d.master = none) ∧
    (∃ (s : State) (k : Fin 2) (p : Fin 2) (d : TimeDomain) (m : Announce) (a : Announce), d = Claim.domOf k s ∧ d.source = 1 ∧ s.net.mode = 0 ∧ linkUp p s = true ∧ d.master = some m ∧ (d.state = 2 ∨ d.state = 3) ∧ m.gmId ≠ a.gmId ∧ lexLt (announceKey a) (announceKey m) = false) ∧
    (∃ (s : State) (k : Fin 2) (p : Fin 2) (d : TimeDomain) (m : Announce) (a : Announce), d = Claim.domOf k s ∧ d.source = 1 ∧ s.net.mode = 0 ∧ linkUp p s = true ∧ d.master = some m ∧ (d.state = 2 ∨ d.state = 3) ∧ m.gmId ≠ a.gmId ∧ lexLt (announceKey a) (announceKey m) = true) ∧
    (∃ (s : State) (k : Fin 2) (p : Fin 2) (d : TimeDomain), d = Claim.domOf k s ∧ d.source = 1 ∧ s.net.mode = 0 ∧ linkUp p s = true ∧ (d.state = 0 ∨ d.state = 1 ∨ d.state = 4)) ∧
    (∃ (s : State) (k : Fin 2) (p : Fin 2) (d : TimeDomain) (off : Int), d = Claim.domOf k s ∧ d.source = 1 ∧ s.net.mode = 0 ∧ linkUp p s = true ∧ d.state = 2 ∧ d.good = 3 ∧ off.natAbs ≤ 1000 ∧ off.natAbs ≤ s.time.stepThr) ∧
    (∃ (s : State) (k : Fin 2) (p : Fin 2) (d : TimeDomain) (off : Int), d = Claim.domOf k s ∧ d.source = 1 ∧ s.net.mode = 0 ∧ linkUp p s = true ∧ d.state = 3 ∧ d.bad = 1 ∧ 10000 < off.natAbs) ∧
    (∃ (s : State) (k : Fin 2) (p : Fin 2) (d : TimeDomain) (off : Int), d = Claim.domOf k s ∧ d.source = 1 ∧ s.net.mode = 0 ∧ linkUp p s = true ∧ d.state = 2 ∧ s.time.stepThr < off.natAbs ∧ s.time.sel = k ∧ 4 ≤ s.md ∧ s.md ≤ 10 ∧ d.deferred = false) ∧
    (∃ (s : State) (k : Fin 2) (p : Fin 2) (d : TimeDomain) (m : Announce), d = Claim.domOf k s ∧ d.source = 1 ∧ s.net.mode = 0 ∧ linkUp p s = true ∧ d.master = some m ∧ (d.state = 2 ∨ d.state = 3)) ∧
    (∃ (s : State) (k : Fin 2) (p : Fin 2) (d : TimeDomain), d = Claim.domOf k s ∧ d.source = 1 ∧ s.net.mode = 0 ∧ linkUp p s = true ∧ d.state ≠ 2 ∧ d.state ≠ 3) ∧
    (∃ (s : State) (k : Fin 2) (p : Fin 2) (d : TimeDomain), d = Claim.domOf k s ∧ d.source = 1 ∧ s.net.mode = 0 ∧ linkUp p s = true ∧ k = 0 ∧ s.time.force = 0 ∧ s.time.noRevert = false ∧ s.time.sel = 1 ∧ d.state = 3) ∧
    (∃ (s : State) (k : Fin 2) (p : Fin 2) (d : TimeDomain), d = Claim.domOf k s ∧ d.source = 1 ∧ s.net.mode = 0 ∧ linkUp p s = true ∧ s.time.sel = 0) ∧
    (∃ (s : State) (k : Fin 2) (p : Fin 2) (d : TimeDomain), d = Claim.domOf k s ∧ d.source = 1 ∧ s.net.mode = 0 ∧ linkUp p s = true ∧ (Claim.domOf 1 s).source = 2) ∧
    (∃ (s : State) (k : Fin 2) (p : Fin 2) (d : TimeDomain), d = Claim.domOf k s ∧ d.source = 1 ∧ s.net.mode = 0 ∧ linkUp p s = true ∧ (Claim.domOf 1 s).source = 2) :=
  ⟨⟨(setDom 1 {State.reset.time.dom[1] with source := 1, master := none} (net 0 State.reset)), 1, 0, (((setDom 1 {State.reset.time.dom[1] with source := 1, master := none} (net 0 State.reset)) : State).time.dom[(1 : Fin 2)]), by decide⟩,
    ⟨(setDom 0 {State.reset.time.dom[0] with source := 1, master := none} (net 0 State.reset)), 0, 0, (((setDom 0 {State.reset.time.dom[0] with source := 1, master := none} (net 0 State.reset)) : State).time.dom[(0 : Fin 2)]), by decide⟩,
    ⟨(setDom 1 {State.reset.time.dom[1] with source := 1, state := 2, master := some (ann 4 5)} (net 0 State.reset)), 1, 0, (((setDom 1 {State.reset.time.dom[1] with source := 1, state := 2, master := some (ann 4 5)} (net 0 State.reset)) : State).time.dom[(1 : Fin 2)]), (ann 4 5), (ann 5 5), by decide⟩,
    ⟨(setDom 1 {State.reset.time.dom[1] with source := 1, state := 3, master := some (ann 4 5)} (net 0 State.reset)), 1, 0, (((setDom 1 {State.reset.time.dom[1] with source := 1, state := 3, master := some (ann 4 5)} (net 0 State.reset)) : State).time.dom[(1 : Fin 2)]), (ann 4 5), (ann 5 4), by decide⟩,
    ⟨(setDom 1 {State.reset.time.dom[1] with source := 1, state := 4} (net 0 State.reset)), 1, 0, (((setDom 1 {State.reset.time.dom[1] with source := 1, state := 4} (net 0 State.reset)) : State).time.dom[(1 : Fin 2)]), by decide⟩,
    ⟨(setDom 1 {State.reset.time.dom[1] with source := 1, state := 2, good := 3} (net 0 {State.reset with time := {State.reset.time with stepThr := 100000}})), 1, 0, (((setDom 1 {State.reset.time.dom[1] with source := 1, state := 2, good := 3} (net 0 {State.reset with time := {State.reset.time with stepThr := 100000}})) : State).time.dom[(1 : Fin 2)]), (-1000), by decide⟩,
    ⟨(setDom 1 {State.reset.time.dom[1] with source := 1, state := 3, bad := 1} (net 0 State.reset)), 1, 0, (((setDom 1 {State.reset.time.dom[1] with source := 1, state := 3, bad := 1} (net 0 State.reset)) : State).time.dom[(1 : Fin 2)]), 10001, by decide⟩,
    ⟨(setDom 1 {State.reset.time.dom[1] with source := 1, state := 2, deferred := false} (net 0 (inMode 5 {State.reset with time := {State.reset.time with sel := 1, stepThr := 100000}}))), 1, 0, (((setDom 1 {State.reset.time.dom[1] with source := 1, state := 2, deferred := false} (net 0 (inMode 5 {State.reset with time := {State.reset.time with sel := 1, stepThr := 100000}}))) : State).time.dom[(1 : Fin 2)]), 100001, by decide⟩,
    ⟨(setDom 1 {State.reset.time.dom[1] with source := 1, state := 3, master := some (ann 4 5)} (net 0 State.reset)), 1, 0, (((setDom 1 {State.reset.time.dom[1] with source := 1, state := 3, master := some (ann 4 5)} (net 0 State.reset)) : State).time.dom[(1 : Fin 2)]), (ann 4 5), by decide⟩,
    ⟨(setDom 1 {State.reset.time.dom[1] with source := 1, state := 4} (net 0 State.reset)), 1, 0, (((setDom 1 {State.reset.time.dom[1] with source := 1, state := 4} (net 0 State.reset)) : State).time.dom[(1 : Fin 2)]), by decide⟩,
    ⟨(setDom 0 {State.reset.time.dom[0] with source := 1, state := 3} (net 0 {State.reset with time := {State.reset.time with force := 0, noRevert := false, sel := 1}})), 0, 0, (((setDom 0 {State.reset.time.dom[0] with source := 1, state := 3} (net 0 {State.reset with time := {State.reset.time with force := 0, noRevert := false, sel := 1}})) : State).time.dom[(0 : Fin 2)]), by decide⟩,
    ⟨(setDom 1 {State.reset.time.dom[1] with source := 1, state := 4} (net 0 {State.reset with time := {State.reset.time with sel := 0}})), 1, 0, (((setDom 1 {State.reset.time.dom[1] with source := 1, state := 4} (net 0 {State.reset with time := {State.reset.time with sel := 0}})) : State).time.dom[(1 : Fin 2)]), by decide⟩,
    ⟨(setDom 0 {State.reset.time.dom[0] with source := 1} (setDom 1 {State.reset.time.dom[1] with source := 2, state := 1, good := 0} (net 0 State.reset))), 0, 0, (((setDom 0 {State.reset.time.dom[0] with source := 1} (setDom 1 {State.reset.time.dom[1] with source := 2, state := 1, good := 0} (net 0 State.reset))) : State).time.dom[(0 : Fin 2)]), by decide⟩,
    ⟨(setDom 0 {State.reset.time.dom[0] with source := 1} (setDom 1 {State.reset.time.dom[1] with source := 2} (net 0 State.reset))), 0, 0, (((setDom 0 {State.reset.time.dom[0] with source := 1} (setDom 1 {State.reset.time.dom[1] with source := 2} (net 0 State.reset))) : State).time.dom[(0 : Fin 2)]), by decide⟩⟩

theorem witness_TimeRegistersLatchAndConvert :
    (∃ (v : Word), v.toNat % 4 = 3) ∧
    (∃ (v : Word), v.toNat % 4 ≠ 3) ∧
    (∃ (s : State), s.time.cvBusy = none) ∧
    (∃ (s : State) (k : Fin 2), s.time.cvBusy = some (k.castSucc) ∧ s.time.cvAt ≤ s.now ∧ s.time.cvRaw.toNat ≤ s.raw.toNat ∧ s.raw.toNat + 400 ≤ s.time.cvRaw.toNat + 25600000000 ∧ s.raw.toNat + 400 < 2 ^ 64 ∧ (Claim.domOf k s).history = []) ∧
    (∃ (s : State) (k : Fin 3), s.time.cvBusy = some k ∧ s.time.cvAt ≤ s.now ∧ s.raw.toNat + 400 < s.time.cvRaw.toNat) ∧
    (∃ (s : State) (m : Master), m.toNat < 14 ∧ s.md = 3 ∧ s.key.session = true ∧ s.key.owner = m) ∧
    (∃ (s : State) (m : Master) (v : Word), m.toNat < 14 ∧ s.md = 3 ∧ s.key.session = true ∧ s.key.owner = m ∧ v.toNat % 4 = 0 ∧ (((Claim.domOf s.time.sel s).state = 3 ∨ (Claim.domOf (otherDom s.time.sel) s).state ≠ 3))) ∧
    (∃ (s : State) (m : Master) (v : Word), m.toNat < 14 ∧ s.md = 3 ∧ s.key.session = true ∧ s.key.owner = m ∧ v.toNat % 4 = 3) ∧
    (∃ (s : State) (m : Master), m.toNat < 14 ∧ s.key.session = false) :=
  ⟨⟨7, by decide⟩,
    ⟨2, by decide⟩,
    ⟨{State.reset with time := {State.reset.time with cvBusy := none}}, by decide⟩,
    ⟨(setDom 1 {State.reset.time.dom[1] with history := []} {State.reset with time := {State.reset.time with cvBusy := some 1, cvRaw := State.reset.raw, cvAt := 0}}), 1, by decide⟩,
    ⟨{State.reset with raw := 4, time := {State.reset.time with cvBusy := some 2, cvRaw := 405, cvAt := 0}}, 2, by decide⟩,
    ⟨(owner6 (inMode 3 State.reset)), 6, by decide⟩,
    ⟨(setDom 1 {State.reset.time.dom[1] with state := 3} (owner6 (inMode 3 {State.reset with time := {State.reset.time with sel := 1}}))), 6, 16, by decide⟩,
    ⟨(owner6 (inMode 3 State.reset)), 6, 19, by decide⟩,
    ⟨{State.reset with key := {State.reset.key with session := false}}, 13, by decide⟩⟩


theorem witness_CanFramesEnterTheFifo :
    (∃ (s : State) (p : Fin 2) (c : CanState), c = Claim.canOf p s ∧ (canOn p s = false ∨ c.state = 0 ∨ c.state = 4 ∨ c.state = 5)) ∧
    (∃ (s : State) (p : Fin 2) (f : CanFrame) (c : CanState) (k : Nat), c = Claim.canOf p s ∧ canOn p s = true ∧ c.state = 2 ∧ c.mode ≠ 2 ∧ c.rxErr ≤ 127 ∧ c.txErr < 128 ∧ c.onBus = none ∧ canSafety p f s = false ∧ f.rtr = false ∧ canFilter p f s = some k ∧ c.rx.length < 64) ∧
    (∃ (s : State) (p : Fin 2) (f : CanFrame) (c : CanState) (k : Nat), c = Claim.canOf p s ∧ canOn p s = true ∧ c.state = 2 ∧ c.mode ≠ 2 ∧ c.rxErr ≤ 127 ∧ c.txErr < 128 ∧ c.onBus = none ∧ canSafety p f s = false ∧ f.rtr = false ∧ canFilter p f s = some k ∧ c.rx.length < 64) ∧
    (∃ (s : State) (p : Fin 2) (f : CanFrame) (c : CanState) (k : Nat), c = Claim.canOf p s ∧ canOn p s = true ∧ c.state = 2 ∧ c.mode ≠ 2 ∧ c.rxErr ≤ 127 ∧ c.txErr < 128 ∧ c.onBus = none ∧ canSafety p f s = false ∧ f.rtr = false ∧ canFilter p f s = some k ∧ c.rx.length = 64) ∧
    (∃ (s : State) (p : Fin 2) (f : CanFrame) (c : CanState), c = Claim.canOf p s ∧ canOn p s = true ∧ c.state = 2 ∧ c.mode ≠ 2 ∧ c.rxErr ≤ 127 ∧ c.txErr < 128 ∧ c.onBus = none ∧ canSafety p f s = false ∧ f.rtr = false ∧ canFilter p f s = none) ∧
    (∃ (s : State) (p : Fin 2) (c : CanState), c = Claim.canOf p s ∧ canOn p s = true ∧ c.state = 1 ∧ c.mode = 2 ∧ c.found = false) ∧
    (∃ (s : State) (p : Fin 2) (c : CanState), c = Claim.canOf p s) :=
  ⟨⟨(setCan 1 {State.reset.can[1] with state := 4} State.reset), 1, (((setCan 1 {State.reset.can[1] with state := 4} State.reset) : State).can[1]), by decide⟩,
    ⟨(canUp 1 {State.reset.can[1] with state := 2, mode := 0, rxErr := 5, txErr := 127, onBus := none, rx := []} State.reset), 1, (cf [1, 2, 3, 4, 5, 6, 7, 8]), (((canUp 1 {State.reset.can[1] with state := 2, mode := 0, rxErr := 5, txErr := 127, onBus := none, rx := []} State.reset) : State).can[1]), 0, by decide⟩,
    ⟨(canUp 1 {State.reset.can[1] with state := 2, mode := 0, rxErr := 127, txErr := 0, onBus := none, rx := []} State.reset), 1, (cf [1]), (((canUp 1 {State.reset.can[1] with state := 2, mode := 0, rxErr := 127, txErr := 0, onBus := none, rx := []} State.reset) : State).can[1]), 0, by decide⟩,
    ⟨(canUp 0 {State.reset.can[0] with state := 2, mode := 1, rxErr := 0, txErr := 127, onBus := none, rx := List.replicate 64 ⟨cf [], 0, 0⟩} State.reset), 0, (cf [1]), (((canUp 0 {State.reset.can[0] with state := 2, mode := 1, rxErr := 0, txErr := 127, onBus := none, rx := List.replicate 64 ⟨cf [], 0, 0⟩} State.reset) : State).can[0]), 0, by decide⟩,
    ⟨(withRec 0x78 0 (pay 80 [(12, 1), (20, 0xFF)]) (canUp 0 {State.reset.can[0] with state := 2, mode := 1, rxErr := 0, txErr := 127, onBus := none} State.reset)), 0, (cf [1]), (((withRec 0x78 0 (pay 80 [(12, 1), (20, 0xFF)]) (canUp 0 {State.reset.can[0] with state := 2, mode := 1, rxErr := 0, txErr := 127, onBus := none} State.reset)) : State).can[0]), by decide⟩,
    ⟨(canUp 1 {State.reset.can[1] with state := 1, mode := 2, found := false} State.reset), 1, (((canUp 1 {State.reset.can[1] with state := 1, mode := 2, found := false} State.reset) : State).can[1]), by decide⟩,
    ⟨State.reset, 1, ((State.reset : State).can[(1 : Fin 2)]), by decide⟩⟩

theorem witness_CanBuffersAreSentOrFail :
    (∃ (s : State) (p : Fin 2) (b : Fin 8) (c : CanState), c = Claim.canOf p s ∧ (c.buf[b]).pend = true) ∧
    (∃ (s : State) (p : Fin 2) (b : Fin 8) (c : CanState), c = Claim.canOf p s ∧ (c.buf[b]).pend = false) ∧
    (∃ (s : State) (p : Fin 2) (b : Fin 8) (c : CanState), c = Claim.canOf p s ∧ (c.buf[b]).pend = false) ∧
    (∃ (s : State) (p : Fin 2) (b : Fin 8) (c : CanState), c = Claim.canOf p s ∧ (∀ d : Fin 8, (c.buf[d]).pend = false) ∧ c.onBus = none ∧ c.mode = 0 ∧ c.state = 2 ∧ bit (c.buf[b]).info 11 = false) ∧
    (∃ (s : State) (p : Fin 2) (b : Fin 8) (c : CanState), c = Claim.canOf p s ∧ (c.buf[b]).pend = false ∧ bit (c.buf[b]).info 11 = true ∧ canFlag p 0 s = false) ∧
    (∃ (s : State) (p : Fin 2) (b : Fin 8) (c : CanState), c = Claim.canOf p s ∧ c.onBus ≠ some b) ∧
    (∃ (s : State) (p : Fin 2) (b : Fin 8) (c : CanState), c = Claim.canOf p s ∧ c.onBus = some b ∧ c.state = 2 ∧ c.txErr ≤ 128 ∧ c.rxErr < 128) ∧
    (∃ (s : State) (p : Fin 2) (b : Fin 8) (c : CanState), c = Claim.canOf p s ∧ (c.buf[b]).pend = false) ∧
    (∃ (s : State) (p : Fin 2) (b : Fin 8) (c : CanState), c = Claim.canOf p s ∧ (c.buf[b]).pend = true) ∧
    (∃ (s : State) (p : Fin 2) (b : Fin 8) (c : CanState), c = Claim.canOf p s ∧ (c.buf[b]).pend = true) :=
  ⟨⟨(setCan 1 (cb State.reset.can[1] 3 {State.reset.can[1].buf[3] with pend := true}) State.reset), 1, 3, (((setCan 1 (cb State.reset.can[1] 3 {State.reset.can[1].buf[3] with pend := true}) State.reset) : State).can[1]), by decide⟩,
    ⟨(setCan 1 (cb State.reset.can[1] 3 {State.reset.can[1].buf[3] with pend := false}) State.reset), 1, 3, (((setCan 1 (cb State.reset.can[1] 3 {State.reset.can[1].buf[3] with pend := false}) State.reset) : State).can[1]), by decide⟩,
    ⟨(setCan 1 (cb State.reset.can[1] 3 {State.reset.can[1].buf[3] with pend := false}) State.reset), 1, 3, (((setCan 1 (cb State.reset.can[1] 3 {State.reset.can[1].buf[3] with pend := false}) State.reset) : State).can[1]), by decide⟩,
    ⟨(setCan 1 {State.reset.can[1] with state := 2, mode := 0, onBus := none, buf := Vector.replicate 8 {}} State.reset), 1, 7, (((setCan 1 {State.reset.can[1] with state := 2, mode := 0, onBus := none, buf := Vector.replicate 8 {}} State.reset) : State).can[1]), by decide⟩,
    ⟨(noRecs (setCan 1 (cb State.reset.can[1] 3 {State.reset.can[1].buf[3] with pend := false, info := 0x800}) State.reset)), 1, 3, (((noRecs (setCan 1 (cb State.reset.can[1] 3 {State.reset.can[1].buf[3] with pend := false, info := 0x800}) State.reset)) : State).can[1]), by decide⟩,
    ⟨(setCan 1 {State.reset.can[1] with onBus := some 2} State.reset), 1, 3, (((setCan 1 {State.reset.can[1] with onBus := some 2} State.reset) : State).can[1]), by decide⟩,
    ⟨(setCan 1 {State.reset.can[1] with onBus := some 3, state := 2, txErr := 128, rxErr := 127} State.reset), 1, 3, (((setCan 1 {State.reset.can[1] with onBus := some 3, state := 2, txErr := 128, rxErr := 127} State.reset) : State).can[1]), by decide⟩,
    ⟨(setCan 1 (cb State.reset.can[1] 3 {State.reset.can[1].buf[3] with pend := false}) State.reset), 1, 3, (((setCan 1 (cb State.reset.can[1] 3 {State.reset.can[1].buf[3] with pend := false}) State.reset) : State).can[1]), by decide⟩,
    ⟨(setCan 1 (cb {State.reset.can[1] with onBus := some 3} 3 {State.reset.can[1].buf[3] with pend := true}) State.reset), 1, 3, (((setCan 1 (cb {State.reset.can[1] with onBus := some 3} 3 {State.reset.can[1].buf[3] with pend := true}) State.reset) : State).can[1]), by decide⟩,
    ⟨(setCan 1 (cb {State.reset.can[1] with onBus := none} 3 {State.reset.can[1].buf[3] with pend := true}) State.reset), 1, 3, (((setCan 1 (cb {State.reset.can[1] with onBus := none} 3 {State.reset.can[1].buf[3] with pend := true}) State.reset) : State).can[1]), by decide⟩⟩

theorem witness_CanErrorsAndModesMoveThePort :
    (∃ (s : State) (p : Fin 2) (c : CanState) (major : Bool), c = Claim.canOf p s ∧ canOn p s = true ∧ c.state = 2 ∧ c.txErr < 128 ∧ c.rxErr + (if major then 8 else 1) < 128) ∧
    (∃ (s : State) (p : Fin 2) (c : CanState) (major : Bool), c = Claim.canOf p s ∧ canOn p s = true ∧ c.state = 2 ∧ c.txErr < 128 ∧ 128 ≤ c.rxErr + (if major then 8 else 1)) ∧
    (∃ (s : State) (p : Fin 2) (c : CanState) (b : Fin 8), c = Claim.canOf p s ∧ canOn p s = true ∧ c.state = 3 ∧ c.onBus = some b ∧ 248 ≤ c.txErr ∧ (c.buf[b]).pend = true) ∧
    (∃ (s : State) (p : Fin 2) (c : CanState) (b : Fin 8), c = Claim.canOf p s ∧ canOn p s = true ∧ c.state = 2 ∧ c.onBus = some b ∧ c.ackRun = 31 ∧ c.alone = false) ∧
    (∃ (s : State) (p : Fin 2) (c : CanState), c = Claim.canOf p s ∧ c.state = 4 ∧ (canFlag p 3 s = true ∨ c.recovering = true)) ∧
    (∃ (s : State) (p : Fin 2) (c : CanState), c = Claim.canOf p s ∧ c.state = 4 ∧ (canFlag p 3 s = true ∨ c.recovering = true)) ∧
    (∃ (s : State) (p : Fin 2) (c : CanState), c = Claim.canOf p s ∧ c.state = 4 ∧ canFlag p 3 s = false ∧ c.recovering = false) ∧
    (∃ (s : State) (p : Fin 2) (c : CanState), c = Claim.canOf p s ∧ c.state = 4 ∧ c.recovering = false ∧ canFlag p 3 s = false) ∧
    (∃ (s : State) (p : Fin 2) (c : CanState), c = Claim.canOf p s ∧ (c.state ≠ 4 ∨ c.recovering = true ∨ canFlag p 3 s = true)) ∧
    (∃ (s : State) (p : Fin 2) (c : CanState) (m : Fin 4), c = Claim.canOf p s ∧ c.mode.toNat ≠ m.val ∧ canOn p s = true ∧ c.state ≠ 5 ∧ c.onBus = none) ∧
    (∃ (s : State) (p : Fin 2) (c : CanState) (m : Fin 4), c = Claim.canOf p s ∧ c.mode.toNat ≠ m.val ∧ canOn p s = true ∧ c.state ≠ 5 ∧ c.onBus = none) ∧
    (∃ (s : State) (p : Fin 2) (c : CanState), c = Claim.canOf p s ∧ canOn p s = true ∧ c.mode = 2 ∧ c.found = false ∧ c.state ≠ 5) ∧
    (∃ (s : State) (p : Fin 2) (c : CanState), c = Claim.canOf p s ∧ canOn p s = true ∧ c.mode = 2 ∧ c.found = false ∧ c.state ≠ 5) ∧
    (∃ (s : State) (p : Fin 2) (c : CanState), c = Claim.canOf p s ∧ c.state = 1) ∧
    (∃ (s : State) (p : Fin 2) (c : CanState), c = Claim.canOf p s ∧ c.state ≠ 1) :=
  ⟨⟨(canUp 1 {State.reset.can[1] with state := 2, txErr := 127, rxErr := 119} State.reset), 1, (((canUp 1 {State.reset.can[1] with state := 2, txErr := 127, rxErr := 119} State.reset) : State).can[1]), true, by decide⟩,
    ⟨(canUp 1 {State.reset.can[1] with state := 2, txErr := 127, rxErr := 127} State.reset), 1, (((canUp 1 {State.reset.can[1] with state := 2, txErr := 127, rxErr := 127} State.reset) : State).can[1]), false, by decide⟩,
    ⟨(canUp 1 (cb {State.reset.can[1] with state := 3, txErr := 248, onBus := some 2} 2 {State.reset.can[1].buf[2] with pend := true}) State.reset), 1, (((canUp 1 (cb {State.reset.can[1] with state := 3, txErr := 248, onBus := some 2} 2 {State.reset.can[1].buf[2] with pend := true}) State.reset) : State).can[1]), 2, by decide⟩,
    ⟨(canUp 1 {State.reset.can[1] with state := 2, onBus := some 2, ackRun := 31, alone := false} State.reset), 1, (((canUp 1 {State.reset.can[1] with state := 2, onBus := some 2, ackRun := 31, alone := false} State.reset) : State).can[1]), 2, by decide⟩,
    ⟨(setCan 1 {State.reset.can[1] with state := 4, recovering := true} State.reset), 1, (((setCan 1 {State.reset.can[1] with state := 4, recovering := true} State.reset) : State).can[1]), by decide⟩,
    ⟨(withRec 0x78 1 (pay 80 [(10, 8)]) (setCan 1 {State.reset.can[1] with state := 4, recovering := false} State.reset)), 1, (((withRec 0x78 1 (pay 80 [(10, 8)]) (setCan 1 {State.reset.can[1] with state := 4, recovering := false} State.reset)) : State).can[1]), by decide⟩,
    ⟨(noRecs (setCan 1 {State.reset.can[1] with state := 4, recovering := false} State.reset)), 1, (((noRecs (setCan 1 {State.reset.can[1] with state := 4, recovering := false} State.reset)) : State).can[1]), by decide⟩,
    ⟨(noRecs (setCan 1 {State.reset.can[1] with state := 4, recovering := false} State.reset)), 1, (((noRecs (setCan 1 {State.reset.can[1] with state := 4, recovering := false} State.reset)) : State).can[1]), by decide⟩,
    ⟨(setCan 1 {State.reset.can[1] with state := 3} State.reset), 1, (((setCan 1 {State.reset.can[1] with state := 3} State.reset) : State).can[1]), by decide⟩,
    ⟨(canUp 1 {State.reset.can[1] with state := 4, mode := 1, onBus := none} State.reset), 1, (((canUp 1 {State.reset.can[1] with state := 4, mode := 1, onBus := none} State.reset) : State).can[1]), 3, by decide⟩,
    ⟨(canUp 1 {State.reset.can[1] with state := 2, mode := 1, onBus := none} State.reset), 1, (((canUp 1 {State.reset.can[1] with state := 2, mode := 1, onBus := none} State.reset) : State).can[1]), 2, by decide⟩,
    ⟨(canUp 1 {State.reset.can[1] with state := 1, mode := 2, found := false, tryRate := 4} State.reset), 1, (((canUp 1 {State.reset.can[1] with state := 1, mode := 2, found := false, tryRate := 4} State.reset) : State).can[1]), by decide⟩,
    ⟨(canUp 1 {State.reset.can[1] with state := 2, mode := 2, found := false, tryRate := 1} State.reset), 1, (((canUp 1 {State.reset.can[1] with state := 2, mode := 2, found := false, tryRate := 1} State.reset) : State).can[1]), by decide⟩,
    ⟨(setCan 1 {State.reset.can[1] with state := 1} State.reset), 1, (((setCan 1 {State.reset.can[1] with state := 1} State.reset) : State).can[1]), by decide⟩,
    ⟨(setCan 1 {State.reset.can[1] with state := 2} State.reset), 1, (((setCan 1 {State.reset.can[1] with state := 2} State.reset) : State).can[1]), by decide⟩⟩


theorem witness_FieldInputsFollowTheirFilters :
    (∃ (s : State) (n : Fin 16) (x : FieldIn) (us0 : Nat), x = Claim.inOf n s ∧ us0 < fioUs (diFilt n s) s) ∧
    (∃ (s : State) (n : Fin 16) (x : FieldIn) (us0 : Nat), x = Claim.inOf n s ∧ s.fio.on = true ∧ s.fio.linkOk = true ∧ s.fio.fs.val < 2 ∧ fioUs (diFilt n s) s ≤ us0 ∧ x.passed = false) ∧
    (∃ (s : State) (n : Fin 16) (x : FieldIn) (us0 : Nat) (b : Bool), x = Claim.inOf n s ∧ s.fio.on = true ∧ s.fio.linkOk = true ∧ s.fio.fs.val < 2 ∧ fioUs (diFilt n s) s ≤ us0 ∧ x.passed = true ∧ b = x.level) ∧
    (∃ (s : State) (n : Fin 16) (x : FieldIn) (us0 : Nat), x = Claim.inOf n s ∧ s.fio.on = true ∧ s.fio.linkOk = true ∧ s.fio.fs.val < 2 ∧ fioUs (diFilt n s) s ≤ us0 ∧ x.passed = true ∧ x.level = false) ∧
    (∃ (s : State) (n : Fin 16) (x : FieldIn) (us0 : Nat), x = Claim.inOf n s ∧ s.fio.on = true ∧ s.fio.linkOk = true ∧ s.fio.fs.val < 2 ∧ fioUs (diFilt n s) s ≤ us0 ∧ x.passed = true ∧ x.level = true) ∧
    (∃ (s : State) (n : Fin 16) (x : FieldIn) (ua : Nat) (us0 : Nat), x = Claim.inOf n s ∧ s.fio.on = true ∧ wbEn n s = true ∧ ua < 35 ∧ 5000 ≤ us0) ∧
    (∃ (s : State) (n : Fin 16) (x : FieldIn) (ua : Nat) (us0 : Nat), x = Claim.inOf n s ∧ s.fio.on = true ∧ 80 < ua ∧ ua < 4096 ∧ 5000 ≤ us0) ∧
    (∃ (s : State) (n : Fin 16) (x : FieldIn) (ua : Nat) (us0 : Nat), x = Claim.inOf n s ∧ s.fio.on = true ∧ us0 < 5000 ∧ ua < 4096) :=
  ⟨⟨(withRec 0x80 0 (pay 104 [(4, 50)]) State.reset), 1, (((withRec 0x80 0 (pay 104 [(4, 50)]) State.reset) : State).fio.inp[(1 : Fin 16)]), 0, by decide⟩,
    ⟨{State.reset with fio := {State.reset.fio with on := true, linkOk := true, fs := 1, inp := State.reset.fio.inp.set 3 {State.reset.fio.inp[3] with passed := false}}}, 3, (({State.reset with fio := {State.reset.fio with on := true, linkOk := true, fs := 1, inp := State.reset.fio.inp.set 3 {State.reset.fio.inp[3] with passed := false}}} : State).fio.inp[(3 : Fin 16)]), 100000, by decide⟩,
    ⟨{State.reset with fio := {State.reset.fio with on := true, linkOk := true, fs := 1, inp := State.reset.fio.inp.set 3 {State.reset.fio.inp[3] with passed := true}}}, 3, (({State.reset with fio := {State.reset.fio with on := true, linkOk := true, fs := 1, inp := State.reset.fio.inp.set 3 {State.reset.fio.inp[3] with passed := true}}} : State).fio.inp[(3 : Fin 16)]), 100000, ((({State.reset with fio := {State.reset.fio with on := true, linkOk := true, fs := 1, inp := State.reset.fio.inp.set 3 {State.reset.fio.inp[3] with passed := true}}} : State).fio.inp[(3 : Fin 16)]) : FieldIn).level, by decide⟩,
    ⟨{State.reset with fio := {State.reset.fio with on := true, linkOk := true, fs := 1, inp := State.reset.fio.inp.set 3 {State.reset.fio.inp[3] with level := false, passed := true}}}, 3, (({State.reset with fio := {State.reset.fio with on := true, linkOk := true, fs := 1, inp := State.reset.fio.inp.set 3 {State.reset.fio.inp[3] with level := false, passed := true}}} : State).fio.inp[(3 : Fin 16)]), 100000, by decide⟩,
    ⟨{State.reset with fio := {State.reset.fio with on := true, linkOk := true, fs := 1, inp := State.reset.fio.inp.set 3 {State.reset.fio.inp[3] with level := true, passed := true}}}, 3, (({State.reset with fio := {State.reset.fio with on := true, linkOk := true, fs := 1, inp := State.reset.fio.inp.set 3 {State.reset.fio.inp[3] with level := true, passed := true}}} : State).fio.inp[(3 : Fin 16)]), 100000, by decide⟩,
    ⟨(withRec 0x80 0 (pay 104 [(14, 1)]) {State.reset with fio := {State.reset.fio with on := true}}), 3, (((withRec 0x80 0 (pay 104 [(14, 1)]) {State.reset with fio := {State.reset.fio with on := true}}) : State).fio.inp[(3 : Fin 16)]), 34, 5000, by decide⟩,
    ⟨{State.reset with fio := {State.reset.fio with on := true}}, 3, (({State.reset with fio := {State.reset.fio with on := true}} : State).fio.inp[(3 : Fin 16)]), 81, 5000, by decide⟩,
    ⟨{State.reset with fio := {State.reset.fio with on := true}}, 3, (({State.reset with fio := {State.reset.fio with on := true}} : State).fio.inp[(3 : Fin 16)]), 4095, 4999, by decide⟩⟩

theorem witness_FieldOutputsObeyTheirOwner :
    (∃ (s : State) (j : Fin 8) (x : FieldOut), x = Claim.outOf j s) ∧
    (∃ (s : State) (j : Fin 8) (x : FieldOut), x = Claim.outOf j s) ∧
    (∃ (s : State) (j : Fin 8) (x : FieldOut), x = Claim.outOf j s ∧ dqDriven j s = true) ∧
    (∃ (s : State) (j : Fin 8) (x : FieldOut), x = Claim.outOf j s ∧ dqDriven j s = false) ∧
    (∃ (s : State) (j : Fin 8) (x : FieldOut), x = Claim.outOf j s) ∧
    (∃ (s : State) (j : Fin 8) (x : FieldOut) (mv : Int), x = Claim.outOf j s ∧ s.fio.on = true ∧ s.fio.linkOk = true ∧ s.fio.fs.val < 2 ∧ s.fio.lastTestEnd = 0 ∧ mv < 7000) ∧
    (∃ (s : State) (j : Fin 8) (x : FieldOut) (mv : Int), x = Claim.outOf j s ∧ s.fio.on = true ∧ s.fio.linkOk = true ∧ s.fio.fs.val < 2 ∧ s.fio.lastTestEnd = 0 ∧ 7000 ≤ mv ∧ mv ≤ 9000) ∧
    (∃ (s : State) (j : Fin 8) (x : FieldOut) (mv : Int), x = Claim.outOf j s ∧ s.fio.on = true ∧ s.fio.linkOk = true ∧ s.fio.fs.val < 2 ∧ s.fio.lastTestEnd = 0 ∧ 7000 ≤ mv ∧ mv ≤ 9000) ∧
    (∃ (s : State) (j : Fin 8) (x : FieldOut) (mv : Int) (us0 : Nat), x = Claim.outOf j s ∧ s.fio.on = true ∧ s.fio.linkOk = true ∧ s.fio.fs.val < 2 ∧ s.fio.lastTestEnd = 0 ∧ 9000 < mv ∧ 1000 ≤ us0 ∧ dqCmd j s = false ∧ testRuns j s = false) :=
  ⟨⟨State.reset, 7, ((State.reset : State).fio.out[(7 : Fin 8)]), by decide⟩,
    ⟨(noRecs State.reset), 7, (((noRecs State.reset) : State).fio.out[(7 : Fin 8)]), by decide⟩,
    ⟨{State.reset with fio := {State.reset.fio with testBusy := true, testOut := 7, testLight := true}}, 7, (({State.reset with fio := {State.reset.fio with testBusy := true, testOut := 7, testLight := true}} : State).fio.out[(7 : Fin 8)]), by decide⟩,
    ⟨{State.reset with fio := {State.reset.fio with testBusy := true, testOut := 7, testLight := false}}, 7, (({State.reset with fio := {State.reset.fio with testBusy := true, testOut := 7, testLight := false}} : State).fio.out[(7 : Fin 8)]), by decide⟩,
    ⟨State.reset, 7, ((State.reset : State).fio.out[(7 : Fin 8)]), by decide⟩,
    ⟨{State.reset with fio := {State.reset.fio with on := true, linkOk := true, fs := 1, lastTestEnd := 0}}, 7, (({State.reset with fio := {State.reset.fio with on := true, linkOk := true, fs := 1, lastTestEnd := 0}} : State).fio.out[(7 : Fin 8)]), 6999, by decide⟩,
    ⟨{State.reset with fio := {State.reset.fio with on := true, linkOk := true, fs := 1, lastTestEnd := 0}}, 7, (({State.reset with fio := {State.reset.fio with on := true, linkOk := true, fs := 1, lastTestEnd := 0}} : State).fio.out[(7 : Fin 8)]), 7000, by decide⟩,
    ⟨{State.reset with fio := {State.reset.fio with on := true, linkOk := true, fs := 1, lastTestEnd := 0}}, 7, (({State.reset with fio := {State.reset.fio with on := true, linkOk := true, fs := 1, lastTestEnd := 0}} : State).fio.out[(7 : Fin 8)]), 9000, by decide⟩,
    ⟨(noRecs {State.reset with fio := {State.reset.fio with on := true, linkOk := true, fs := 1, lastTestEnd := 0, testBusy := false, out := State.reset.fio.out.set 7 {}}}), 7, (((noRecs {State.reset with fio := {State.reset.fio with on := true, linkOk := true, fs := 1, lastTestEnd := 0, testBusy := false, out := State.reset.fio.out.set 7 {}}}) : State).fio.out[(7 : Fin 8)]), 9001, 1000, by decide⟩⟩

theorem witness_FieldSupplyAndLinkFollowTheirLevels :
    (∃ (s : State), s.fio.on = false) ∧
    (∃ (s : State), s.fio.on = true) ∧
    (∃ (s : State), s.fio.on = true ∧ s.fio.linkOk = true) ∧
    (∃ (s : State) (mv : Int), s.fio.on = true ∧ s.fio.fs = 0 ∧ 18000 ≤ mv ∧ mv ≤ 30000) ∧
    (∃ (s : State) (mv : Int), s.fio.on = true ∧ s.fio.fs = 0 ∧ 18000 ≤ mv ∧ mv ≤ 30000) ∧
    (∃ (s : State) (mv : Int), s.fio.on = true ∧ s.fio.fs = 0 ∧ ((15000 ≤ mv ∧ mv < 18000) ∨ (30000 < mv ∧ mv ≤ 33000))) ∧
    (∃ (s : State) (mv : Int), s.fio.on = true ∧ s.fio.fs = 0 ∧ ((15000 ≤ mv ∧ mv < 18000) ∨ (30000 < mv ∧ mv ≤ 33000))) ∧
    (∃ (s : State) (mv : Int), s.fio.on = true ∧ s.fio.fs = 0 ∧ mv < 15000 ∧ s.fio.first = false) ∧
    (∃ (s : State) (mv : Int), s.fio.on = true ∧ s.fio.fs = 1 ∧ 18000 ≤ mv ∧ mv ≤ 30000) ∧
    (∃ (s : State) (mv : Int), s.fio.on = true ∧ s.fio.fs = 2 ∧ 17000 ≤ mv ∧ mv ≤ 31000) ∧
    (∃ (s : State) (mv : Int), s.fio.on = true ∧ s.fio.fs = 2 ∧ 17000 ≤ mv ∧ mv ≤ 31000) ∧
    (∃ (s : State) (mv : Int), s.fio.on = true ∧ s.fio.fs = 2 ∧ (mv < 17000 ∨ 31000 < mv)) ∧
    (∃ (s : State) (mv : Int) (us0 : Nat), s.fio.on = true ∧ s.fio.fs ≠ 2 ∧ (mv < 15000 ∨ (33000 < mv ∧ 100 ≤ us0))) ∧
    (∃ (s : State) (mv : Int) (us0 : Nat), s.fio.on = true ∧ s.fio.fs ≠ 2 ∧ (mv < 15000 ∨ (33000 < mv ∧ 100 ≤ us0))) ∧
    (∃ (s : State) (at0 : Nat), s.fio.on = true ∧ s.fio.okSince = some at0 ∧ s.fio.fs = 3) :=
  ⟨⟨{State.reset with fio := {State.reset.fio with on := false}}, by decide⟩,
    ⟨{State.reset with fio := {State.reset.fio with on := true}}, by decide⟩,
    ⟨{State.reset with fio := {State.reset.fio with on := true, linkOk := true}}, by decide⟩,
    ⟨{State.reset with fio := {State.reset.fio with on := true, fs := 0}}, 18000, by decide⟩,
    ⟨{State.reset with fio := {State.reset.fio with on := true, fs := 0}}, 30000, by decide⟩,
    ⟨{State.reset with fio := {State.reset.fio with on := true, fs := 0}}, 15000, by decide⟩,
    ⟨{State.reset with fio := {State.reset.fio with on := true, fs := 0}}, 33000, by decide⟩,
    ⟨{State.reset with fio := {State.reset.fio with on := true, fs := 0, first := false}}, 14999, by decide⟩,
    ⟨{State.reset with fio := {State.reset.fio with on := true, fs := 1}}, 30000, by decide⟩,
    ⟨{State.reset with fio := {State.reset.fio with on := true, fs := 2}}, 17000, by decide⟩,
    ⟨{State.reset with fio := {State.reset.fio with on := true, fs := 2}}, 31000, by decide⟩,
    ⟨{State.reset with fio := {State.reset.fio with on := true, fs := 2}}, 31001, by decide⟩,
    ⟨{State.reset with fio := {State.reset.fio with on := true, fs := 0}}, 33001, 100, by decide⟩,
    ⟨{State.reset with fio := {State.reset.fio with on := true, fs := 3}}, 14999, 0, by decide⟩,
    ⟨{State.reset with fio := {State.reset.fio with on := true, fs := 3, okSince := some 5}}, 5, by decide⟩⟩

theorem witness_FieldOutputTestsAreJudged :
    (∃ (s : State), s.fio.roundAt = none) ∧
    (∃ (s : State) (at0 : Nat), s.fio.roundAt = some at0 ∧ fioDrives s = true) ∧
    (∃ (s : State) (at0 : Nat), s.fio.roundAt = some at0 ∧ fioDrives s = true) ∧
    (∃ (s : State) (j : Fin 8) (rest : List (Fin 8)), s.fio.roundLeft = j :: rest ∧ s.fio.testBusy = false ∧ fioDrives s = true ∧ testEnabled j s = true ∧ (Claim.outOf j s).notBefore = 0 ∧ s.fio.lastTestEnd = 0) ∧
    (∃ (s : State), s.fio.testBusy = true) ∧
    (∃ (s : State), s.fio.testBusy = false) ∧
    (∃ (s : State) (j : Fin 8), s.fio.testBusy = true ∧ s.fio.testOut = j ∧ s.fio.testLight = false) ∧
    (∃ (s : State) (j : Fin 8), s.fio.testBusy = true ∧ s.fio.testOut = j ∧ s.fio.testLight = false) ∧
    (∃ (s : State) (j : Fin 8), s.fio.testBusy = true ∧ s.fio.testOut = j ∧ s.fio.testLight = true) ∧
    (∃ (s : State) (j : Fin 8), s.fio.testBusy = true ∧ s.fio.testOut = j ∧ s.fio.testLight = true) :=
  ⟨⟨{State.reset with fio := {State.reset.fio with roundAt := none}}, by decide⟩,
    ⟨((inMode 4 {State.reset with fio := {State.reset.fio with on := true, linkOk := true, fs := 1, roundAt := some 9}})), 9, by decide⟩,
    ⟨(withRec 0x80 0 (pay 104 [(98, 255), (99, 255), (92, 255), (93, 255)]) (inMode 4 {State.reset with fio := {State.reset.fio with on := true, linkOk := true, fs := 1, roundAt := some 9}})), 9, by decide⟩,
    ⟨(withRec 0x80 0 (List.replicate 104 255) (inMode 4 {State.reset with fio := {State.reset.fio with on := true, linkOk := true, fs := 1, roundLeft := [3, 4], testBusy := false, lastTestEnd := 0, out := State.reset.fio.out.set 3 {}}})), 3, ([4]), by decide⟩,
    ⟨{State.reset with fio := {State.reset.fio with testBusy := true}}, by decide⟩,
    ⟨{State.reset with fio := {State.reset.fio with testBusy := false}}, by decide⟩,
    ⟨{State.reset with fio := {State.reset.fio with testBusy := true, testOut := 3, testLight := false}}, 3, by decide⟩,
    ⟨{State.reset with fio := {State.reset.fio with testBusy := true, testOut := 3, testLight := false}}, 3, by decide⟩,
    ⟨{State.reset with fio := {State.reset.fio with testBusy := true, testOut := 3, testLight := true, lpMv := 24000}}, 3, by decide⟩,
    ⟨{State.reset with fio := {State.reset.fio with testBusy := true, testOut := 3, testLight := true, lpMv := 24000}}, 3, by decide⟩⟩


theorem witness_DemandsLockTheOutputs :
    (∃ (s : State) (key : Half), (key ≠ 0x504C ∨ safeOn s = false)) ∧
    (∃ (s : State) (key : Half), (key ≠ 0x504C ∨ safeOn s = false)) ∧
    (∃ (s : State), safeOn s = true ∧ s.plk.locked = false) ∧
    (∃ (s : State), safeOn s = true ∧ s.plk.locked = false) ∧
    (∃ (s : State) (n : Nat), safeOn s = true ∧ s.plk.locked = false ∧ u8 (recD s 0xA0 0) 0 = n ∧ n < 16 ∧ diByNum n s = false ∧ s.plk.pulseRun = false ∧ s.plk.maskUntil = 0) ∧
    (∃ (s : State) (n : Nat), safeOn s = true ∧ s.plk.locked = false ∧ u8 (recD s 0xA0 0) 0 = n ∧ n < 16 ∧ diByNum n s = false ∧ s.plk.pulseRun = false ∧ s.plk.maskUntil = 0) ∧
    (∃ (s : State), s.md ≠ 10) ∧
    (∃ (s : State), s.md = 10 ∧ s.plk.locked = false ∧ ((s.mode.busy = false ∨ s.mode.target ≠ 11))) :=
  ⟨⟨(safe [] State.reset), 5, by decide⟩,
    ⟨(noRecs State.reset), 0x504C, by decide⟩,
    ⟨(safe [] (setPlk (fun p => { p with locked := false }) State.reset)), by decide⟩,
    ⟨(inMode 11 (safe [] (setPlk (fun p => { p with locked := false }) State.reset))), by decide⟩,
    ⟨(safe [(1, 5)] (diHigh 5 (setPlk (fun p => { p with locked := false, pulseRun := false, maskUntil := 0 }) {State.reset with fio := {State.reset.fio with on := true, inp := State.reset.fio.inp.set 0 {}}}))), 0, by decide⟩,
    ⟨(safe [(0, 5), (1, 6)] (diHigh 6 (setPlk (fun p => { p with locked := false, pulseRun := false, maskUntil := 0 }) {State.reset with fio := {State.reset.fio with inp := State.reset.fio.inp.set 5 {}}}))), 5, by decide⟩,
    ⟨(inMode 9 State.reset), by decide⟩,
    ⟨(inMode 10 (setPlk (fun p => { p with locked := false }) State.reset)), by decide⟩⟩

theorem witness_SafeCyclesWatchTheChannels :
    (∃ (s : State), safeOn s = false) ∧
    (∃ (s : State) (n : Fin 16), safeOn s = true ∧ u8 (recD s 0xA0 0) 0 = 0xFF ∧ u8 (recD s 0xA0 0) 1 = n.val ∧ diReads n s = true ∧ s.plk.pulseRun = false ∧ s.plk.maskUntil = 0 ∧ (∀ k : Fin 8, conTransport k s = 0) ∧ s.plk.self = false ∧ s.plk.readback = false ∧ s.plk.pulse = false ∧ s.plk.startFail = false ∧ s.clock.safeRing = false ∧ reducedNow s = s.plk.reduced ∧ s.plk.respRun = false ∧ s.plk.guardLow = none ∧ s.plk.lines = 0xFFFFFFFF) ∧
    (∃ (s : State), safeOn s = true) ∧
    (∃ (s : State), safeOn s = true ∧ s.plk.pulseRun = true) ∧
    (∃ (s : State), safeOn s = true ∧ s.plk.pulseRun = true) ∧
    (∃ (s : State), safeOn s = true ∧ s.plk.pulseRun = true) ∧
    (∃ (s : State), safeOn s = true) ∧
    (∃ (s : State), safeOn s = true) ∧
    (∃ (s : State) (c : Fin 32), (bit s.plk.lines c.val = true ∨ bit s.plk.enabled c.val = false)) ∧
    (∃ (s : State) (c : Fin 32), bit s.plk.lines c.val = false ∧ bit s.plk.enabled c.val = true) :=
  ⟨⟨(noRecs State.reset), by decide⟩,
    ⟨(safe [(0, 255), (1, 3)] (diHigh 3 (clkOk (setPlk quiet State.reset)))), 3, by decide⟩,
    ⟨(safe [(0, 255), (1, 3)] State.reset), by decide⟩,
    ⟨(safe [(0, 255), (1, 3)] (setPlk (fun p => { p with pulseRun := true }) State.reset)), by decide⟩,
    ⟨(safe [(0, 2), (1, 3)] (setPlk (fun p => { p with pulseRun := true }) State.reset)), by decide⟩,
    ⟨(safe [(0, 255), (1, 3)] (setPlk (fun p => { p with pulseRun := true }) State.reset)), by decide⟩,
    ⟨(safe [(0, 255), (1, 3)] State.reset), by decide⟩,
    ⟨(safe [(0, 255), (1, 3)] State.reset), by decide⟩,
    ⟨(setPlk (fun p => { p with lines := 0xFFFFFFFF }) State.reset), 31, by decide⟩,
    ⟨(setPlk (fun p => { p with lines := 0, enabled := 0xFFFFFFFF }) State.reset), 31, by decide⟩⟩

theorem witness_ResetsAreJudged :
    (∃ (s : State), safeOn s = true ∧ Claim.resetComes .rstDi s = false) ∧
    (∃ (s : State), safeOn s = true ∧ Claim.resetComes .rstDi s = false) ∧
    (∃ (s : State) (k : Fin 8), safeOn s = true ∧ Claim.resetComes (.frame k) s = false) ∧
    (∃ (s : State) (k : Fin 8), safeOn s = true ∧ Claim.resetComes (.frame k) s = false) ∧
    (∃ (s : State) (key : Half), safeOn s = true ∧ key ≠ 0x504C) ∧
    (∃ (s : State) (src : ResetSource), safeOn s = true ∧ Claim.resetComes src s = true ∧ resetReady s = false) ∧
    (∃ (s : State) (src : ResetSource), safeOn s = true ∧ Claim.resetComes src s = true ∧ resetReady s = false) ∧
    (∃ (s : State) (src : ResetSource), safeOn s = true ∧ Claim.resetComes src s = true ∧ resetReady s = true) ∧
    (∃ (s : State) (src : ResetSource), safeOn s = true ∧ Claim.resetComes src s = true ∧ resetReady s = true) ∧
    (∃ (s : State), safeOn s = true ∧ (u8 (recD s 0xA0 0) 5).testBit 0 = false) :=
  ⟨⟨(safe [(0, 255), (1, 3), (2, 4)] (rstPulse 39999999 State.reset)), by decide⟩,
    ⟨(safe [(0, 255), (1, 3), (2, 255)] State.reset), by decide⟩,
    ⟨(safe [(0, 255), (1, 3)] (setConn 3 {State.reset.plk.conn[3] with state := 2, resetLen := some 39999999} State.reset)), 3, by decide⟩,
    ⟨(safe [(0, 255), (1, 3)] (setConn 3 {State.reset.plk.conn[3] with state := 2, resetLen := some 800000001} State.reset)), 3, by decide⟩,
    ⟨(safe [(0, 255), (1, 3)] State.reset), 5, by decide⟩,
    ⟨(safe [(0, 255), (1, 3), (2, 4)] (rstPulse 40000000 (setPlk (fun p => { p with self := true }) State.reset))), .rstDi, by decide⟩,
    ⟨(safe [(0, 255), (1, 3), (2, 4)] (setConn 3 {State.reset.plk.conn[3] with state := 2, resetLen := some 800000000} (setPlk (fun p => { p with self := true }) State.reset))), (.frame 3), by decide⟩,
    ⟨(safe [(0, 255), (1, 3), (2, 4), (5, 1)] (rstPulse 800000000 (diHigh 3 (clkOk (setPlk quiet State.reset))))), .rstDi, by decide⟩,
    ⟨(safe [(0, 255), (1, 3), (2, 4), (5, 1)] (rstPulse 800000000 (diHigh 3 (clkOk (setPlk quiet State.reset))))), (.host 0x504C), by decide⟩,
    ⟨(safe [(0, 255), (1, 3)] State.reset), by decide⟩⟩

theorem witness_ProofIntervalAndLockoutEnd :
    (∃ (s : State), s.plk.passedSec = none) ∧
    (∃ (s : State), s.plk.testDue = true) ∧
    (∃ (s : State) (n : Nat), s.plk.passedSec = some n ∧ safeOn s = true ∧ s.plk.testDue = false ∧ utcLocked s = true) ∧
    (∃ (s : State), s.plk.lockEnd = none) ∧
    (∃ (s : State) (at0 : Nat), s.plk.lockEnd = some at0) :=
  ⟨⟨(setPlk (fun p => { p with passedSec := none }) State.reset), by decide⟩,
    ⟨(setPlk (fun p => { p with testDue := true }) State.reset), by decide⟩,
    ⟨(safe [] (setDom 1 {State.reset.time.dom[1] with state := 3, source := 1, utcValid := true} (setPlk (fun p => { p with testDue := false, passedSec := some 7 }) State.reset))), 7, by decide⟩,
    ⟨(setPlk (fun p => { p with lockEnd := none }) State.reset), by decide⟩,
    ⟨(setPlk (fun p => { p with lockEnd := some 77 }) State.reset), 77, by decide⟩⟩

theorem witness_ConnectionsJudgeTheirFrames :
    (∃ (s : State) (k : Fin 8) (c : Conn) (b : List Byte), c = s.plk.conn[k] ∧ safeOn s = true ∧ conTransport k s ≠ 0 ∧ frameOk b = false ∧ 0 < c.good ∧ c.state = 2 ∧ c.lastAt + 400000 * conTexp k s < s.now) ∧
    (∃ (s : State) (k : Fin 8) (c : Conn) (b : List Byte), c = s.plk.conn[k] ∧ safeOn s = true ∧ conTransport k s ≠ 0 ∧ (c.good = 0 ∨ s.now ≤ c.lastAt + 400000 * conTexp k s) ∧ frameOk b = false) ∧
    (∃ (s : State) (k : Fin 8) (c : Conn) (b : List Byte), c = s.plk.conn[k] ∧ safeOn s = true ∧ conTransport k s ≠ 0 ∧ (c.good = 0 ∨ s.now ≤ c.lastAt + 400000 * conTexp k s) ∧ frameOk b = true ∧ (u32 b 4 ≠ u32 (recD s 0xA0 0) (68 + 16 * k.val) ∨ u32 b 8 ≠ u32 (recD s 0xA0 0) 12)) ∧
    (∃ (s : State) (k : Fin 8) (c : Conn) (b : List Byte), c = s.plk.conn[k] ∧ safeOn s = true ∧ conTransport k s ≠ 0 ∧ (c.good = 0 ∨ s.now ≤ c.lastAt + 400000 * conTexp k s) ∧ frameOk b = true ∧ (u32 b 4 ≠ u32 (recD s 0xA0 0) (68 + 16 * k.val) ∨ u32 b 8 ≠ u32 (recD s 0xA0 0) 12)) ∧
    (∃ (s : State) (k : Fin 8) (c : Conn) (b : List Byte), c = s.plk.conn[k] ∧ safeOn s = true ∧ conTransport k s ≠ 0 ∧ (c.good = 0 ∨ s.now ≤ c.lastAt + 400000 * conTexp k s) ∧ frameOk b = true ∧ u32 b 4 = u32 (recD s 0xA0 0) (68 + 16 * k.val) ∧ u32 b 8 = u32 (recD s 0xA0 0) 12 ∧ c.state ≠ 3 ∧ 0 < c.good ∧ BitVec.ofNat 16 (u16 b 2) = c.seq) ∧
    (∃ (s : State) (k : Fin 8) (c : Conn) (b : List Byte), c = s.plk.conn[k] ∧ safeOn s = true ∧ conTransport k s ≠ 0 ∧ (c.good = 0 ∨ s.now ≤ c.lastAt + 400000 * conTexp k s) ∧ frameOk b = true ∧ u32 b 4 = u32 (recD s 0xA0 0) (68 + 16 * k.val) ∧ u32 b 8 = u32 (recD s 0xA0 0) 12 ∧ c.state ≠ 3 ∧ 0 < c.good ∧ BitVec.ofNat 16 (u16 b 2) ≠ c.seq ∧ BitVec.ofNat 16 (u16 b 2) ≠ c.seq + 1) ∧
    (∃ (s : State) (k : Fin 8) (c : Conn) (b : List Byte), c = s.plk.conn[k] ∧ safeOn s = true ∧ conTransport k s ≠ 0 ∧ (c.good = 0 ∨ s.now ≤ c.lastAt + 400000 * conTexp k s) ∧ frameOk b = true ∧ u32 b 4 = u32 (recD s 0xA0 0) (68 + 16 * k.val) ∧ u32 b 8 = u32 (recD s 0xA0 0) 12 ∧ c.state ≠ 3 ∧ 0 < c.good ∧ BitVec.ofNat 16 (u16 b 2) = c.seq + 1 ∧ u16 b 12 = u16 (recD s 0xA0 0) (66 + 16 * k.val) ∧ c.good = 2) ∧
    (∃ (s : State) (k : Fin 8) (c : Conn), c = s.plk.conn[k] ∧ safeOn s = true ∧ conTransport k s ≠ 0 ∧ (c.state = 1 ∨ c.state = 2) ∧ c.good = 0) ∧
    (∃ (s : State) (k : Fin 8) (c : Conn), c = s.plk.conn[k] ∧ safeOn s = true ∧ conTransport k s ≠ 0 ∧ (c.state = 1 ∨ c.state = 2) ∧ 0 < c.good) ∧
    (∃ (s : State) (k : Fin 8) (c : Conn), c = s.plk.conn[k] ∧ safeOn s = true ∧ conTransport k s ≠ 0 ∧ (c.state = 1 ∨ c.state = 2) ∧ 0 < c.good) ∧
    (∃ (s : State) (k : Fin 8) (c : Conn), c = s.plk.conn[k] ∧ safeOn s = true ∧ conTransport k s ≠ 0 ∧ (c.state = 1 ∨ c.state = 2)) ∧
    (∃ (s : State) (k : Fin 8) (c : Conn), c = s.plk.conn[k] ∧ safeOn s = true ∧ conTransport k s ≠ 0 ∧ (c.state = 0 ∨ c.state = 3)) :=
  ⟨⟨(safe [(112, 2), (113, 1), (114, 2)] (setConn 3 {State.reset.plk.conn[3] with state := 2, good := 1, lastAt := 0} {State.reset with now := 800001})), 3, (((safe [(112, 2), (113, 1), (114, 2)] (setConn 3 {State.reset.plk.conn[3] with state := 2, good := 1, lastAt := 0} {State.reset with now := 800001})) : State).plk.conn[(3 : Fin 8)]), ([1, 2, 3]), by decide⟩,
    ⟨(safe [(112, 1)] (setConn 3 {State.reset.plk.conn[3] with good := 0} State.reset)), 3, (((safe [(112, 1)] (setConn 3 {State.reset.plk.conn[3] with good := 0} State.reset)) : State).plk.conn[(3 : Fin 8)]), ([1, 2, 3]), by decide⟩,
    ⟨(safe [(112, 1)] (setConn 3 {State.reset.plk.conn[3] with good := 0} State.reset)), 3, (((safe [(112, 1)] (setConn 3 {State.reset.plk.conn[3] with good := 0} State.reset)) : State).plk.conn[(3 : Fin 8)]), (sfr 5 1 0 0 0), by decide⟩,
    ⟨(safe [(112, 2), (113, 1)] (setConn 3 {State.reset.plk.conn[3] with good := 0} State.reset)), 3, (((safe [(112, 2), (113, 1)] (setConn 3 {State.reset.plk.conn[3] with good := 0} State.reset)) : State).plk.conn[(3 : Fin 8)]), (sfr 5 0 1 0 0), by decide⟩,
    ⟨(safe [(112, 2), (113, 1)] (setConn 3 {State.reset.plk.conn[3] with state := 2, good := 1, lastAt := State.reset.now, seq := 5} State.reset)), 3, (((safe [(112, 2), (113, 1)] (setConn 3 {State.reset.plk.conn[3] with state := 2, good := 1, lastAt := State.reset.now, seq := 5} State.reset)) : State).plk.conn[(3 : Fin 8)]), (sfr 5 0 0 0 0), by decide⟩,
    ⟨(safe [(112, 2), (113, 1)] (setConn 3 {State.reset.plk.conn[3] with state := 2, good := 1, lastAt := State.reset.now, seq := 5} State.reset)), 3, (((safe [(112, 2), (113, 1)] (setConn 3 {State.reset.plk.conn[3] with state := 2, good := 1, lastAt := State.reset.now, seq := 5} State.reset)) : State).plk.conn[(3 : Fin 8)]), (sfr 7 0 0 0 0), by decide⟩,
    ⟨(safe [(112, 2), (113, 1)] (setConn 3 {State.reset.plk.conn[3] with state := 1, good := 2, lastAt := State.reset.now, seq := 0xFFFF} State.reset)), 3, (((safe [(112, 2), (113, 1)] (setConn 3 {State.reset.plk.conn[3] with state := 1, good := 2, lastAt := State.reset.now, seq := 0xFFFF} State.reset)) : State).plk.conn[(3 : Fin 8)]), (sfr 0 0 0 0 1), by decide⟩,
    ⟨(safe [(112, 2), (113, 1)] (setConn 3 {State.reset.plk.conn[3] with state := 1, good := 0} State.reset)), 3, (((safe [(112, 2), (113, 1)] (setConn 3 {State.reset.plk.conn[3] with state := 1, good := 0} State.reset)) : State).plk.conn[(3 : Fin 8)]), by decide⟩,
    ⟨(safe [(112, 2), (113, 1)] (setConn 3 {State.reset.plk.conn[3] with state := 2, good := 1} State.reset)), 3, (((safe [(112, 2), (113, 1)] (setConn 3 {State.reset.plk.conn[3] with state := 2, good := 1} State.reset)) : State).plk.conn[(3 : Fin 8)]), by decide⟩,
    ⟨(safe [(112, 2), (113, 0)] (setConn 3 {State.reset.plk.conn[3] with state := 2, good := 1} State.reset)), 3, (((safe [(112, 2), (113, 0)] (setConn 3 {State.reset.plk.conn[3] with state := 2, good := 1} State.reset)) : State).plk.conn[(3 : Fin 8)]), by decide⟩,
    ⟨(safe [(112, 2), (113, 1)] (setConn 3 {State.reset.plk.conn[3] with state := 2} State.reset)), 3, (((safe [(112, 2), (113, 1)] (setConn 3 {State.reset.plk.conn[3] with state := 2} State.reset)) : State).plk.conn[(3 : Fin 8)]), by decide⟩,
    ⟨(safe [(112, 2), (113, 1)] (setConn 3 {State.reset.plk.conn[3] with state := 3} State.reset)), 3, (((safe [(112, 2), (113, 1)] (setConn 3 {State.reset.plk.conn[3] with state := 3} State.reset)) : State).plk.conn[(3 : Fin 8)]), by decide⟩⟩


theorem witness_RecorderTriggersAreTakenOnce :
    (∃ (s : State) (l : Lane) (src : Fin 118) (r : RecState), r = Claim.recOf l s ∧ r.due.all (fun d => d.1 != src.val) = true) ∧
    (∃ (s : State) (l : Lane) (src : Fin 118) (r : RecState), r = Claim.recOf l s ∧ r.due.all (fun d => d.1 != src.val) = true) ∧
    (∃ (s : State) (l : Lane) (src : Fin 118) (r : RecState) (at0 : Long) (rest : List (Nat × Long)) (k : Fin 8), r = Claim.recOf l s ∧ r.due = (src.val, at0) :: rest ∧ r.cur = some k ∧ segStartRaw l s ≤ (at0.toNat : Int) ∧ r.run.trig = none) ∧
    (∃ (s : State) (l : Lane) (src : Fin 118) (r : RecState) (at0 : Long) (rest : List (Nat × Long)) (k : Fin 8), r = Claim.recOf l s ∧ r.due = (src.val, at0) :: rest ∧ r.cur = some k ∧ segStartRaw l s ≤ (at0.toNat : Int) ∧ r.run.trig = none) ∧
    (∃ (s : State) (l : Lane) (src : Fin 118) (r : RecState) (at0 : Long) (rest : List (Nat × Long)) (k : Fin 8) (x : RecTrigger), r = Claim.recOf l s ∧ r.due = (src.val, at0) :: rest ∧ r.cur = some k ∧ segStartRaw l s ≤ (at0.toNat : Int) ∧ r.run.trig = some x) ∧
    (∃ (s : State) (l : Lane) (src : Fin 118) (r : RecState) (at0 : Long) (rest : List (Nat × Long)), r = Claim.recOf l s ∧ r.due = (src.val, at0) :: rest ∧ r.cur = none) ∧
    (∃ (s : State) (l : Lane) (r : RecState), r = Claim.recOf l s ∧ r.xin = []) ∧
    (∃ (s : State) (l : Lane) (r : RecState) (x : RecTrigger) (rest : List RecTrigger) (k : Fin 8), r = Claim.recOf l s ∧ r.xin = x :: rest ∧ r.cur = some k ∧ r.run.trig = none ∧ segStartRaw l s ≤ (x.ticks.toNat : Int)) ∧
    (∃ (s : State) (l : Lane) (r : RecState), r = Claim.recOf l s ∧ (r.running = false ∨ recTrigOn 116 s = false) ∧ r.due.all (fun d => d.1 != 116) = true) ∧
    (∃ (s : State) (l : Lane) (r : RecState), r = Claim.recOf l s ∧ r.running = true ∧ recTrigOn 116 s = true ∧ r.due.all (fun d => d.1 != 116) = true ∧ r.cur = none) ∧
    (∃ (s : State) (l : Lane) (r : RecState) (k : Fin 8), r = Claim.recOf l s ∧ r.running = true ∧ recTrigOn 116 s = true ∧ r.due.all (fun d => d.1 != 116) = true ∧ r.cur = some k ∧ r.run.trig = none ∧ segStartRaw l s ≤ (s.raw.toNat : Int)) :=
  ⟨⟨(rcd .b (fun r => { r with due := [] }) State.reset), .b, 9, ((((rcd .b (fun r => { r with due := [] }) State.reset) : State).lane (.b : Lane)).rcd), by decide⟩,
    ⟨(rcd .b (fun r => { r with due := [(7, 3)] }) State.reset), .b, 9, ((((rcd .b (fun r => { r with due := [(7, 3)] }) State.reset) : State).lane (.b : Lane)).rcd), by decide⟩,
    ⟨(tb (withRec 0x90 0 rpay (rcd .b (fun r => { r with running := true, due := [(9, 955), (8, 3)], cur := some 3, run := { r.run with trig := none, startAt := 900 } }) State.reset))), .b, 9, ((((tb (withRec 0x90 0 rpay (rcd .b (fun r => { r with running := true, due := [(9, 955), (8, 3)], cur := some 3, run := { r.run with trig := none, startAt := 900 } }) State.reset))) : State).lane (.b : Lane)).rcd), 955, ([(8, 3)]), 3, by decide⟩,
    ⟨(rcd .a (fun r => { r with running := true }) (lanesUp (tb (withRec 0x90 0 rpay (rcd .b (fun r => { r with running := true, due := [(9, 955), (8, 3)], cur := some 3, run := { r.run with trig := none, startAt := 900 } }) State.reset))))), .b, 9, ((((rcd .a (fun r => { r with running := true }) (lanesUp (tb (withRec 0x90 0 rpay (rcd .b (fun r => { r with running := true, due := [(9, 955), (8, 3)], cur := some 3, run := { r.run with trig := none, startAt := 900 } }) State.reset))))) : State).lane (.b : Lane)).rcd), 955, ([(8, 3)]), 3, by decide⟩,
    ⟨(tb (withRec 0x90 0 rpay (rcd .b (fun r => { r with running := true, due := [(9, 955), (8, 3)], cur := some 3, run := { r.run with trig := some ⟨950, 0, 9⟩, startAt := 900 } }) State.reset))), .b, 9, ((((tb (withRec 0x90 0 rpay (rcd .b (fun r => { r with running := true, due := [(9, 955), (8, 3)], cur := some 3, run := { r.run with trig := some ⟨950, 0, 9⟩, startAt := 900 } }) State.reset))) : State).lane (.b : Lane)).rcd), 955, ([(8, 3)]), 3, ⟨950, 0, 9⟩, by decide⟩,
    ⟨(tb (withRec 0x90 0 rpay (rcd .b (fun r => { r with running := true, due := [(9, 955), (8, 3)], cur := none }) State.reset))), .b, 9, ((((tb (withRec 0x90 0 rpay (rcd .b (fun r => { r with running := true, due := [(9, 955), (8, 3)], cur := none }) State.reset))) : State).lane (.b : Lane)).rcd), 955, ([(8, 3)]), by decide⟩,
    ⟨(rcd .b (fun r => { r with xin := [] }) State.reset), .b, ((((rcd .b (fun r => { r with xin := [] }) State.reset) : State).lane (.b : Lane)).rcd), by decide⟩,
    ⟨(tb (withRec 0x90 0 rpay (rcd .b (fun r => { r with xin := [⟨950, 3, 9⟩], cur := some 3, run := { r.run with trig := none, startAt := 900 } }) State.reset))), .b, ((((tb (withRec 0x90 0 rpay (rcd .b (fun r => { r with xin := [⟨950, 3, 9⟩], cur := some 3, run := { r.run with trig := none, startAt := 900 } }) State.reset))) : State).lane (.b : Lane)).rcd), ⟨950, 3, 9⟩, ([]), 3, by decide⟩,
    ⟨(noRecs (rcd .b (fun r => { r with due := [(9, 955)] }) State.reset)), .b, ((((noRecs (rcd .b (fun r => { r with due := [(9, 955)] }) State.reset)) : State).lane (.b : Lane)).rcd), by decide⟩,
    ⟨(tb (withRec 0x90 0 rpay (rcd .b (fun r => { r with running := true, due := [], cur := none }) State.reset))), .b, ((((tb (withRec 0x90 0 rpay (rcd .b (fun r => { r with running := true, due := [], cur := none }) State.reset))) : State).lane (.b : Lane)).rcd), by decide⟩,
    ⟨(tb (withRec 0x90 0 rpay (rcd .b (fun r => { r with running := true, due := [(7, 5)], cur := some 3, run := { r.run with trig := none, startAt := 900 } }) State.reset))), .b, ((((tb (withRec 0x90 0 rpay (rcd .b (fun r => { r with running := true, due := [(7, 5)], cur := some 3, run := { r.run with trig := none, startAt := 900 } }) State.reset))) : State).lane (.b : Lane)).rcd), 3, by decide⟩⟩

theorem witness_RecordsCompleteAndAreReleased :
    (∃ (s : State) (l : Lane) (r : RecState), r = Claim.recOf l s ∧ r.run.doneAt = none) ∧
    (∃ (s : State) (l : Lane) (r : RecState) (k : Fin 8) (at0 : Nat), r = Claim.recOf l s ∧ r.cur = some k ∧ r.run.doneAt = some at0) ∧
    (∃ (s : State) (l : Lane) (r : RecState) (k : Fin 8) (at0 : Nat), r = Claim.recOf l s ∧ r.cur = some k ∧ r.run.doneAt = some at0) ∧
    (∃ (s : State) (l : Lane) (r : RecState), r = Claim.recOf l s) ∧
    (∃ (s : State) (l : Lane) (r : RecState), r = Claim.recOf l s) ∧
    (∃ (s : State) (l : Lane) (r : RecState), r = Claim.recOf l s ∧ r.running = false) ∧
    (∃ (s : State) (l : Lane) (r : RecState), r = Claim.recOf l s ∧ r.running = true) :=
  ⟨⟨(rcd .b (fun r => { r with run := { r.run with doneAt := none } }) State.reset), .b, ((((rcd .b (fun r => { r with run := { r.run with doneAt := none } }) State.reset) : State).lane (.b : Lane)).rcd), by decide⟩,
    ⟨(tb (withRec 0x90 0 rpay (rcd .b (fun r => { r with seg := seg8 2 0 3 0, cur := some 0, run := { r.run with doneAt := some 900 } }) State.reset))), .b, ((((tb (withRec 0x90 0 rpay (rcd .b (fun r => { r with seg := seg8 2 0 3 0, cur := some 0, run := { r.run with doneAt := some 900 } }) State.reset))) : State).lane (.b : Lane)).rcd), 0, 900, by decide⟩,
    ⟨(tb (withRec 0x90 0 rpay (rcd .b (fun r => { r with seg := seg8 3 2 3 3, cur := some 1, run := { r.run with doneAt := some 900 } }) State.reset))), .b, ((((tb (withRec 0x90 0 rpay (rcd .b (fun r => { r with seg := seg8 3 2 3 3, cur := some 1, run := { r.run with doneAt := some 900 } }) State.reset))) : State).lane (.b : Lane)).rcd), 1, 900, by decide⟩,
    ⟨State.reset, .b, (((State.reset : State).lane (.b : Lane)).rcd), by decide⟩,
    ⟨(tb (withRec 0x90 0 rpay (rcd .b (fun r => { r with seg := seg8 2 3 3 3, cur := some 0 }) State.reset))), .b, ((((tb (withRec 0x90 0 rpay (rcd .b (fun r => { r with seg := seg8 2 3 3 3, cur := some 0 }) State.reset))) : State).lane (.b : Lane)).rcd), by decide⟩,
    ⟨(rcd .b (fun r => { r with running := false }) State.reset), .b, ((((rcd .b (fun r => { r with running := false }) State.reset) : State).lane (.b : Lane)).rcd), by decide⟩,
    ⟨(rcd .b (fun r => { r with running := true }) State.reset), .b, ((((rcd .b (fun r => { r with running := true }) State.reset) : State).lane (.b : Lane)).rcd), by decide⟩⟩


theorem witness_HostFramesAreCheckedAndQueued :
    (∃ (s : State), s.md = 0) ∧
    (∃ (s : State), s.md = 0) ∧
    (∃ (s : State) (bs : List Byte), s.md ≠ 0 ∧ pennantOk bs = false) ∧
    (∃ (s : State) (bs : List Byte), s.md ≠ 0 ∧ pennantOk bs = true ∧ u8 bs 3 ≠ 1) ∧
    (∃ (s : State) (bs : List Byte), s.md ≠ 0 ∧ pennantOk bs = true ∧ u8 bs 3 = 1 ∧ unanswered .hsp s < 8 ∧ outRoom .hsp s = true) ∧
    (∃ (s : State) (bs : List Byte), s.md ≠ 0 ∧ pennantOk bs = true ∧ u8 bs 3 = 1 ∧ 8 ≤ unanswered .hsp s) ∧
    (∃ (s : State), s.md ≠ 0) ∧
    (∃ (s : State), s.md ≠ 0 ∧ s.host.hsp.out = []) ∧
    (∃ (s : State) (f : HostFrame) (rest : List HostFrame), s.md ≠ 0 ∧ s.host.hsp.out = f :: rest) ∧
    (∃ (s : State), portAlive .net s = false) ∧
    (∃ (s : State) (bs : List Byte), portAlive .net s = true ∧ bs.length ≠ 16 + u16 bs 8) ∧
    (∃ (s : State) (bs : List Byte) (ip : Word) (sp : Half) (f : HostFrame), portAlive .net s = true ∧ bs.length = 16 + u16 bs 8 ∧ pennantOk bs = true ∧ u8 bs 3 = 1 ∧ repeated (frameRequest bs ip sp) s = some (some f)) ∧
    (∃ (s : State) (bs : List Byte) (ip : Word) (sp : Half), portAlive .net s = true ∧ bs.length = 16 + u16 bs 8 ∧ pennantOk bs = true ∧ u8 bs 3 = 1 ∧ repeated (frameRequest bs ip sp) s = none ∧ unanswered .net s < 8 ∧ outRoom .net s = true) :=
  ⟨⟨(inMode 0 State.reset), by decide⟩,
    ⟨(inMode 0 State.reset), by decide⟩,
    ⟨(inMode 2 State.reset), ([1, 2]), by decide⟩,
    ⟨(inMode 2 State.reset), (frameBytes 2 5 1 0 []), by decide⟩,
    ⟨(hostIdle State.reset), (frameBytes 1 5 1 0 [1, 2, 3, 4]), by decide⟩,
    ⟨(hport .hsp (fun x => { x with queue := List.replicate 8 {} }) (hostIdle State.reset)), (frameBytes 1 5 1 0 [1, 2, 3, 4]), by decide⟩,
    ⟨(hostIdle State.reset), by decide⟩,
    ⟨(hostIdle State.reset), by decide⟩,
    ⟨(hport .hsp (fun x => { x with out := [{ bytes := [1, 2], ip := 0, sport := 0 }, {}] }) (hostIdle State.reset)), { bytes := [1, 2], ip := 0, sport := 0 }, ([{}]), by decide⟩,
    ⟨(inMode 0 State.reset), by decide⟩,
    ⟨(hostIdle State.reset), (frameBytes 1 5 1 0 [1, 2, 3, 4] ++ [0]), by decide⟩,
    ⟨(hport .net (fun x => { x with store := [(5, { bytes := [7], ip := 5, sport := 6 })] }) (hostIdle State.reset)), (frameBytes 1 5 1 0 [1, 2, 3, 4]), 5, 6, { bytes := [7], ip := 5, sport := 6 }, by decide⟩,
    ⟨(hostIdle State.reset), (frameBytes 1 5 1 0 [1, 2, 3, 4]), 5, 6, by decide⟩⟩

theorem witness_PortCommandsAreAnswered :
    (∃ (s : State) (p : HostPort) (tag : Half) (a : Word) (n : Word) (r : HostRequest), Claim.idlePort p s ∧ r = { tag := tag, cmd := 0x01, payload := ofWords [a, n] } ∧ (n = 0 ∨ 255 < n.toNat)) ∧
    (∃ (s : State) (p : HostPort) (tag : Half) (a : Word) (n : Word) (r : HostRequest), Claim.idlePort p s ∧ r = { tag := tag, cmd := 0x01, payload := ofWords [a, n] } ∧ (n = 0 ∨ 255 < n.toNat)) ∧
    (∃ (s : State) (p : HostPort) (tag : Half) (a : Word) (n : Word) (r : HostRequest), Claim.idlePort p s ∧ r = { tag := tag, cmd := 0x01, payload := ofWords [a, n] } ∧ 0 < n.toNat ∧ n.toNat ≤ 255 ∧ targetOf a.toNat = none) ∧
    (∃ (s : State) (p : HostPort) (tag : Half) (a : Word) (n : Word) (r : HostRequest) (tg : Nat), Claim.idlePort p s ∧ r = { tag := tag, cmd := 0x01, payload := ofWords [a, n] } ∧ 0 < n.toNat ∧ n.toNat ≤ 255 ∧ targetOf a.toNat = some tg ∧ transferKind (portMaster p) tg a.toNat 4 false s ≠ 0) ∧
    (∃ (s : State) (p : HostPort) (tag : Half) (a : Word) (n : Word) (r : HostRequest), Claim.idlePort p s ∧ r = { tag := tag, cmd := 0x01, payload := ofWords [a, n] } ∧ 0 < n.toNat ∧ n.toNat ≤ 255 ∧ a.toNat % 4 = 0 ∧ 0x1000000 ≤ a.toNat ∧ a.toNat + 4 * n.toNat ≤ 0x1800000 ∧ (codeFor s (portMaster p) 16 = 1 ∨ codeFor s (portMaster p) 16 = 3)) ∧
    (∃ (s : State) (p : HostPort) (tag : Half) (a : Word) (n : Word) (r : HostRequest), Claim.idlePort p s ∧ r = { tag := tag, cmd := 0x01, payload := ofWords [a, n] } ∧ 0 < n.toNat ∧ n.toNat ≤ 255 ∧ a.toNat % 4 = 0 ∧ 0x1000000 ≤ a.toNat ∧ a.toNat + 4 * n.toNat ≤ 0x1800000 ∧ (codeFor s (portMaster p) 16 = 1 ∨ codeFor s (portMaster p) 16 = 3)) ∧
    (∃ (s : State) (p : HostPort) (tag : Half) (a : Word) (ws : List Word) (r : HostRequest), Claim.idlePort p s ∧ r = { tag := tag, cmd := 0x02, payload := ofWords (a :: wd ws.length :: ws) } ∧ (ws = [] ∨ (254 < ws.length ∧ ws.length < 1024))) ∧
    (∃ (s : State) (p : HostPort) (tag : Half) (a : Word) (ws : List Word) (r : HostRequest), Claim.idlePort p s ∧ r = { tag := tag, cmd := 0x02, payload := ofWords (a :: wd ws.length :: ws) } ∧ (ws = [] ∨ (254 < ws.length ∧ ws.length < 1024))) ∧
    (∃ (s : State) (p : HostPort) (tag : Half) (a : Word) (ws : List Word) (r : HostRequest) (tg : Nat), Claim.idlePort p s ∧ r = { tag := tag, cmd := 0x02, payload := ofWords (a :: wd ws.length :: ws) } ∧ 0 < ws.length ∧ ws.length ≤ 254 ∧ targetOf a.toNat = some tg ∧ modeBars (portMaster p) tg true s = true) ∧
    (∃ (s : State) (p : HostPort) (tag : Half) (a : Word) (ws : List Word) (r : HostRequest), Claim.idlePort p s ∧ r = { tag := tag, cmd := 0x02, payload := ofWords (a :: wd ws.length :: ws) } ∧ 0 < ws.length ∧ ws.length ≤ 254 ∧ a.toNat % 4 = 0 ∧ 0x1000000 ≤ a.toNat ∧ a.toNat + 4 * ws.length ≤ 0x1800000 ∧ modeBars (portMaster p) 16 true s = false ∧ ((∀ k, k < ws.length → transferKind (portMaster p) 16 (a.toNat + 4 * k) 4 true s = 0))) ∧
    (∃ (s : State) (p : HostPort), Claim.idlePort p s) ∧
    (∃ (s : State) (p : HostPort), Claim.idlePort p s) ∧
    (∃ (s : State) (p : HostPort), Claim.idlePort p s) ∧
    (∃ (s : State) (p : HostPort) (cmd : Byte), Claim.idlePort p s ∧ cmd ≠ 0x10) :=
  ⟨⟨(hostIdle State.reset), .net, 5, 9, 256, { tag := (5 : Half), cmd := 0x01, payload := ofWords [(9 : Word), (256 : Word)] }, by decide⟩,
    ⟨(hostIdle State.reset), .net, 5, 9, 0, { tag := (5 : Half), cmd := 0x01, payload := ofWords [(9 : Word), (0 : Word)] }, by decide⟩,
    ⟨(hostIdle State.reset), .net, 5, 0x00D00000, 255, { tag := (5 : Half), cmd := 0x01, payload := ofWords [(0x00D00000 : Word), (255 : Word)] }, by decide⟩,
    ⟨(accessOn (hostIdle (noRecs State.reset))), .net, 5, 0x70000, 255, { tag := (5 : Half), cmd := 0x01, payload := ofWords [(0x70000 : Word), (255 : Word)] }, ((targetOf (0x70000 : Word).toNat).getD 0), by decide⟩,
    ⟨(hostIdle {State.reset with sram := [(0x1000003, 9)]}), .net, 5, 0x1000000, 2, { tag := (5 : Half), cmd := 0x01, payload := ofWords [(0x1000000 : Word), (2 : Word)] }, by decide⟩,
    ⟨(hostIdle {State.reset with sram := [(0x17FFFFF, 9)]}), .net, 5, 0x17FFFFC, 1, { tag := (5 : Half), cmd := 0x01, payload := ofWords [(0x17FFFFC : Word), (1 : Word)] }, by decide⟩,
    ⟨(hostIdle State.reset), .net, 5, 9, ([]), { tag := (5 : Half), cmd := 0x02, payload := ofWords ((9 : Word) :: wd (([]) : List Word).length :: (([]) : List Word)) }, by decide⟩,
    ⟨(hostIdle State.reset), .net, 5, 9, (List.replicate 255 7), { tag := (5 : Half), cmd := 0x02, payload := ofWords ((9 : Word) :: wd ((List.replicate 255 7) : List Word).length :: ((List.replicate 255 7) : List Word)) }, by decide⟩,
    ⟨(inMode 2 (hostIdle State.reset)), .net, 5, 0x70000, ([5]), { tag := (5 : Half), cmd := 0x02, payload := ofWords ((0x70000 : Word) :: wd (([5]) : List Word).length :: (([5]) : List Word)) }, ((targetOf (0x70000 : Word).toNat).getD 0), by decide⟩,
    ⟨(hostIdle (noRecs {State.reset with sram := [(0x1000003, 9)]})), .net, 5, 0x1000000, ([5, 0]), { tag := (5 : Half), cmd := 0x02, payload := ofWords ((0x1000000 : Word) :: wd (([5, 0]) : List Word).length :: (([5, 0]) : List Word)) }, by decide⟩,
    ⟨(hostIdle State.reset), .net, by decide⟩,
    ⟨(hostIdle State.reset), .net, by decide⟩,
    ⟨(inMode 2 (hostIdle State.reset)), .net, by decide⟩,
    ⟨(hostIdle State.reset), .net, 0x33, by decide⟩⟩

theorem witness_NotificationsKeepTheirInterval :
    (∃ (s : State) (p : HostPort) (x : HostPortState), x = hostPort p s ∧ (portAlive p s = false ∨ x.pend = 0 ∨ hasDest p x = false)) ∧
    (∃ (s : State) (p : HostPort) (x : HostPortState), x = hostPort p s ∧ (portAlive p s = false ∨ x.pend = 0 ∨ hasDest p x = false)) ∧
    (∃ (s : State) (p : HostPort) (x : HostPortState), x = hostPort p s ∧ portAlive p s = true ∧ x.pend ≠ 0 ∧ hasDest p x = true) ∧
    (∃ (s : State) (p : HostPort) (x : HostPortState), x = hostPort p s ∧ portAlive p s = true ∧ x.pend ≠ 0 ∧ hasDest p x = true) :=
  ⟨⟨(hport .net (fun x => { x with pend := 0 }) (hostIdle State.reset)), .net, (hostPort (.net : HostPort) ((hport .net (fun x => { x with pend := 0 }) (hostIdle State.reset)) : State)), by decide⟩,
    ⟨(hport .net (fun x => { x with destPort := 0 }) (hostIdle State.reset)), .net, (hostPort (.net : HostPort) ((hport .net (fun x => { x with destPort := 0 }) (hostIdle State.reset)) : State)), by decide⟩,
    ⟨(hport .net (fun x => { x with pend := 5, destPort := 9 }) (hostIdle State.reset)), .net, (hostPort (.net : HostPort) ((hport .net (fun x => { x with pend := 5, destPort := 9 }) (hostIdle State.reset)) : State)), by decide⟩,
    ⟨(hport .hsp (fun x => { x with pend := 5 }) (hostIdle State.reset)), .hsp, (hostPort (.hsp : HostPort) ((hport .hsp (fun x => { x with pend := 5 }) (hostIdle State.reset)) : State)), by decide⟩⟩

theorem witness_OperationsStartOrAreRefused :
    (∃ (s : State) (p : HostPort) (tag : Half) (force : Bool) (a : Word) (b : Word) (c : Word) (mb : Byte) (row : Nat × (Word × Word × Word × Word) × Instr) (r : HostRequest), Claim.idlePort p s ∧ row ∈ Claim.opRows p tag mb force a b c ∧ r = opRequest tag mb row.1 force row.2.1 ∧ (15 < mb.toNat ∨ opArgsOk row.1 row.2.1.1 row.2.1.2.1 row.2.1.2.2.1 s = false)) ∧
    (∃ (s : State) (p : HostPort) (tag : Half) (force : Bool) (a : Word) (b : Word) (c : Word) (mb : Byte) (row : Nat × (Word × Word × Word × Word) × Instr) (r : HostRequest), Claim.idlePort p s ∧ row ∈ Claim.opRows p tag mb force a b c ∧ r = opRequest tag mb row.1 force row.2.1 ∧ (15 < mb.toNat ∨ opArgsOk row.1 row.2.1.1 row.2.1.2.1 row.2.1.2.2.1 s = false)) ∧
    (∃ (s : State) (p : HostPort) (tag : Half) (k : Fin 16) (force : Bool) (a : Word) (b : Word) (c : Word) (mb : Byte) (row : Nat × (Word × Word × Word × Word) × Instr) (r : HostRequest), Claim.idlePort p s ∧ row ∈ Claim.opRows p tag mb force a b c ∧ r = opRequest tag mb row.1 force row.2.1 ∧ mb.toNat = k.val ∧ opArgsOk row.1 row.2.1.1 row.2.1.2.1 row.2.1.2.2.1 s = true ∧ opBarred row.1 s = true) ∧
    (∃ (s : State) (p : HostPort) (tag : Half) (k : Fin 16) (force : Bool) (a : Word) (b : Word) (c : Word) (mb : Byte) (row : Nat × (Word × Word × Word × Word) × Instr) (r : HostRequest), Claim.idlePort p s ∧ row ∈ Claim.opRows p tag mb force a b c ∧ r = opRequest tag mb row.1 force row.2.1 ∧ mb.toNat = k.val ∧ opArgsOk row.1 row.2.1.1 row.2.1.2.1 row.2.1.2.2.1 s = true ∧ opBarred row.1 s = false ∧ (Claim.mboxOf k s).running.isSome = true) ∧
    (∃ (s : State) (p : HostPort) (tag : Half) (k : Fin 16) (force : Bool) (a : Word) (b : Word) (c : Word) (mb : Byte) (row : Nat × (Word × Word × Word × Word) × Instr) (r : HostRequest), Claim.idlePort p s ∧ row ∈ Claim.opRows p tag mb force a b c ∧ r = opRequest tag mb row.1 force row.2.1 ∧ mb.toNat = k.val ∧ opArgsOk row.1 row.2.1.1 row.2.1.2.1 row.2.1.2.2.1 s = true ∧ opBarred row.1 s = false ∧ (Claim.mboxOf k s).running = none ∧ (Claim.mboxOf k s).posted = true ∧ (Claim.mboxOf k s).readMark = false ∧ force = false) ∧
    (∃ (s : State) (p : HostPort) (k : Fin 16) (force : Bool) (a : Word) (b : Word) (c : Word) (mb : Byte), Claim.idlePort p s ∧ Claim.mayStart 1 (a, b, c, 0) k mb force s) ∧
    (∃ (s : State) (p : HostPort) (k : Fin 16) (force : Bool) (a : Word) (b : Word) (c : Word) (mb : Byte), Claim.idlePort p s ∧ Claim.mayStart 1 (a, b, c, 0) k mb force s) ∧
    (∃ (s : State) (p : HostPort) (tag : Half) (k : Fin 16) (force : Bool) (a : Word) (b : Word) (c : Word) (mb : Byte) (row : Nat × (Word × Word × Word × Word) × Instr) (r : HostRequest), Claim.idlePort p s ∧ row ∈ Claim.opRows p tag mb force a b c ∧ r = opRequest tag mb row.1 force row.2.1 ∧ mb.toNat = k.val ∧ opArgsOk row.1 row.2.1.1 row.2.1.2.1 row.2.1.2.2.1 s = true ∧ opBarred row.1 s = true) ∧
    (∃ (s : State) (p : HostPort) (tag : Half) (k : Fin 16) (force : Bool) (a : Word) (b : Word) (c : Word) (mb : Byte) (row : Nat × (Word × Word × Word × Word) × Instr) (r : HostRequest), Claim.idlePort p s ∧ row ∈ Claim.opRows p tag mb force a b c ∧ r = opRequest tag mb row.1 force row.2.1 ∧ mb.toNat = k.val ∧ opArgsOk row.1 row.2.1.1 row.2.1.2.1 row.2.1.2.2.1 s = true ∧ opBarred row.1 s = false ∧ (Claim.mboxOf k s).running.isSome = true) ∧
    (∃ (s : State) (p : HostPort) (tag : Half) (k : Fin 16) (force : Bool) (a : Word) (b : Word) (c : Word) (mb : Byte) (row : Nat × (Word × Word × Word × Word) × Instr) (r : HostRequest), Claim.idlePort p s ∧ row ∈ Claim.opRows p tag mb force a b c ∧ r = opRequest tag mb row.1 force row.2.1 ∧ mb.toNat = k.val ∧ opArgsOk row.1 row.2.1.1 row.2.1.2.1 row.2.1.2.2.1 s = true ∧ opBarred row.1 s = false ∧ (Claim.mboxOf k s).running = none ∧ (Claim.mboxOf k s).posted = true ∧ (Claim.mboxOf k s).readMark = false ∧ force = false) ∧
    (∃ (s : State) (p : HostPort) (k : Fin 16) (force : Bool) (a : Word) (b : Word) (mb : Byte), Claim.idlePort p s ∧ Claim.mayStart 2 (a, b, 0, 0) k mb force s) ∧
    (∃ (s : State) (p : HostPort) (k : Fin 16) (force : Bool) (a : Word) (b : Word) (mb : Byte), Claim.idlePort p s ∧ Claim.mayStart 2 (a, b, 0, 0) k mb force s) ∧
    (∃ (s : State) (p : HostPort) (k : Fin 16) (force : Bool) (a : Word) (b : Word) (mb : Byte), Claim.idlePort p s ∧ Claim.mayStart 5 (a, b, 0, 0) k mb force s) ∧
    (∃ (s : State) (p : HostPort) (k : Fin 16) (force : Bool) (a : Word) (b : Word) (mb : Byte), Claim.idlePort p s ∧ Claim.mayStart 5 (a, b, 0, 0) k mb force s) ∧
    (∃ (s : State) (p : HostPort) (k : Fin 16) (force : Bool) (a : Word) (mb : Byte), Claim.idlePort p s ∧ Claim.mayStart 6 (a, 0, 0, 0) k mb force s) ∧
    (∃ (s : State) (p : HostPort) (k : Fin 16) (force : Bool) (a : Word) (mb : Byte), Claim.idlePort p s ∧ Claim.mayStart 6 (a, 0, 0, 0) k mb force s) ∧
    (∃ (s : State) (p : HostPort) (k : Fin 16) (force : Bool) (a : Word) (b : Word) (c : Word) (mb : Byte), Claim.idlePort p s ∧ Claim.mayStart 7 (a, b, c, 0) k mb force s ∧ transferKind (portMaster p) ((targetOf (0x80018 + 0x4000 * a.toNat)).getD 0) (0x80018 + 0x4000 * a.toNat) 4 true s = 0) ∧
    (∃ (s : State) (p : HostPort) (k : Fin 16) (force : Bool) (a : Word) (b : Word) (c : Word) (mb : Byte), Claim.idlePort p s ∧ Claim.mayStart 7 (a, b, c, 0) k mb force s ∧ transferKind (portMaster p) ((targetOf (0x80018 + 0x4000 * a.toNat)).getD 0) (0x80018 + 0x4000 * a.toNat) 4 true s = 0) ∧
    (∃ (s : State) (p : HostPort) (k : Fin 16) (force : Bool) (a : Word) (b : Word) (mb : Byte), Claim.idlePort p s ∧ Claim.mayStart 8 (a, b, 0, 0) k mb force s) ∧
    (∃ (s : State) (p : HostPort) (k : Fin 16) (force : Bool) (a : Word) (b : Word) (mb : Byte), Claim.idlePort p s ∧ Claim.mayStart 8 (a, b, 0, 0) k mb force s) ∧
    (∃ (s : State) (p : HostPort) (k : Fin 16) (force : Bool) (a : Word) (b : Word) (c : Word) (mb : Byte), Claim.idlePort p s ∧ Claim.mayStart 3 (a, b, c, 0) k mb force s) ∧
    (∃ (s : State) (p : HostPort) (k : Fin 16) (force : Bool) (a : Word) (b : Word) (c : Word) (mb : Byte), Claim.idlePort p s ∧ Claim.mayStart 4 (a, b, c, 0) k mb force s) :=
  ⟨⟨(hostIdle State.reset), .net, 5, true, 1, 2, 3, 16, ((Claim.opRows (.net : HostPort) (5 : Half) (16 : Byte) (true : Bool) (1 : Word) (2 : Word) (3 : Word)).getD 0 (0, (0, 0, 0, 0), .hspFrameOut true)), (opRequest (5 : Half) (16 : Byte) (((Claim.opRows (.net : HostPort) (5 : Half) (16 : Byte) (true : Bool) (1 : Word) (2 : Word) (3 : Word)).getD 0 (0, (0, 0, 0, 0), .hspFrameOut true)) : Nat × (Word × Word × Word × Word) × Instr).1 (true : Bool) (((Claim.opRows (.net : HostPort) (5 : Half) (16 : Byte) (true : Bool) (1 : Word) (2 : Word) (3 : Word)).getD 0 (0, (0, 0, 0, 0), .hspFrameOut true)) : Nat × (Word × Word × Word × Word) × Instr).2.1), by decide⟩,
    ⟨(hostIdle State.reset), .net, 5, true, 2, 1, 3, 5, ((Claim.opRows (.net : HostPort) (5 : Half) (5 : Byte) (true : Bool) (2 : Word) (1 : Word) (3 : Word)).getD 4 (0, (0, 0, 0, 0), .hspFrameOut true)), (opRequest (5 : Half) (5 : Byte) (((Claim.opRows (.net : HostPort) (5 : Half) (5 : Byte) (true : Bool) (2 : Word) (1 : Word) (3 : Word)).getD 4 (0, (0, 0, 0, 0), .hspFrameOut true)) : Nat × (Word × Word × Word × Word) × Instr).1 (true : Bool) (((Claim.opRows (.net : HostPort) (5 : Half) (5 : Byte) (true : Bool) (2 : Word) (1 : Word) (3 : Word)).getD 4 (0, (0, 0, 0, 0), .hspFrameOut true)) : Nat × (Word × Word × Word × Word) × Instr).2.1), by decide⟩,
    ⟨(inMode 2 (hostIdle State.reset)), .net, 5, 3, true, 0x1000000, 0x1000100, 8, 3, ((Claim.opRows (.net : HostPort) (5 : Half) (3 : Byte) (true : Bool) (0x1000000 : Word) (0x1000100 : Word) (8 : Word)).getD 0 (0, (0, 0, 0, 0), .hspFrameOut true)), (opRequest (5 : Half) (3 : Byte) (((Claim.opRows (.net : HostPort) (5 : Half) (3 : Byte) (true : Bool) (0x1000000 : Word) (0x1000100 : Word) (8 : Word)).getD 0 (0, (0, 0, 0, 0), .hspFrameOut true)) : Nat × (Word × Word × Word × Word) × Instr).1 (true : Bool) (((Claim.opRows (.net : HostPort) (5 : Half) (3 : Byte) (true : Bool) (0x1000000 : Word) (0x1000100 : Word) (8 : Word)).getD 0 (0, (0, 0, 0, 0), .hspFrameOut true)) : Nat × (Word × Word × Word × Word) × Instr).2.1), by decide⟩,
    ⟨(setMb 3 (runs 1 0 0 0 none) (hostIdle State.reset)), .net, 5, 3, true, 0x1000000, 0x1000100, 8, 3, ((Claim.opRows (.net : HostPort) (5 : Half) (3 : Byte) (true : Bool) (0x1000000 : Word) (0x1000100 : Word) (8 : Word)).getD 0 (0, (0, 0, 0, 0), .hspFrameOut true)), (opRequest (5 : Half) (3 : Byte) (((Claim.opRows (.net : HostPort) (5 : Half) (3 : Byte) (true : Bool) (0x1000000 : Word) (0x1000100 : Word) (8 : Word)).getD 0 (0, (0, 0, 0, 0), .hspFrameOut true)) : Nat × (Word × Word × Word × Word) × Instr).1 (true : Bool) (((Claim.opRows (.net : HostPort) (5 : Half) (3 : Byte) (true : Bool) (0x1000000 : Word) (0x1000100 : Word) (8 : Word)).getD 0 (0, (0, 0, 0, 0), .hspFrameOut true)) : Nat × (Word × Word × Word × Word) × Instr).2.1), by decide⟩,
    ⟨(setMb 3 { posted := true } (hostIdle State.reset)), .net, 5, 3, false, 0x1000000, 0x1000100, 8, 3, ((Claim.opRows (.net : HostPort) (5 : Half) (3 : Byte) (false : Bool) (0x1000000 : Word) (0x1000100 : Word) (8 : Word)).getD 0 (0, (0, 0, 0, 0), .hspFrameOut true)), (opRequest (5 : Half) (3 : Byte) (((Claim.opRows (.net : HostPort) (5 : Half) (3 : Byte) (false : Bool) (0x1000000 : Word) (0x1000100 : Word) (8 : Word)).getD 0 (0, (0, 0, 0, 0), .hspFrameOut true)) : Nat × (Word × Word × Word × Word) × Instr).1 (false : Bool) (((Claim.opRows (.net : HostPort) (5 : Half) (3 : Byte) (false : Bool) (0x1000000 : Word) (0x1000100 : Word) (8 : Word)).getD 0 (0, (0, 0, 0, 0), .hspFrameOut true)) : Nat × (Word × Word × Word × Word) × Instr).2.1), by decide⟩,
    ⟨(setMb 3 { posted := true } (hostIdle State.reset)), .net, 3, true, 0x1000000, 0x1000100, 8, 3, by decide⟩,
    ⟨(setMb 3 { posted := true, readMark := true } (hostIdle State.reset)), .net, 3, false, 0x1000000, 0x1000100, 8, 3, by decide⟩,
    ⟨(inMode 2 (hostIdle State.reset)), .net, 5, 3, true, 0x1000000, 8, 0, 3, ((Claim.opRows (.net : HostPort) (5 : Half) (3 : Byte) (true : Bool) (0x1000000 : Word) (8 : Word) (0 : Word)).getD 1 (0, (0, 0, 0, 0), .hspFrameOut true)), (opRequest (5 : Half) (3 : Byte) (((Claim.opRows (.net : HostPort) (5 : Half) (3 : Byte) (true : Bool) (0x1000000 : Word) (8 : Word) (0 : Word)).getD 1 (0, (0, 0, 0, 0), .hspFrameOut true)) : Nat × (Word × Word × Word × Word) × Instr).1 (true : Bool) (((Claim.opRows (.net : HostPort) (5 : Half) (3 : Byte) (true : Bool) (0x1000000 : Word) (8 : Word) (0 : Word)).getD 1 (0, (0, 0, 0, 0), .hspFrameOut true)) : Nat × (Word × Word × Word × Word) × Instr).2.1), by decide⟩,
    ⟨(setMb 3 (runs 1 0 0 0 none) (hostIdle State.reset)), .net, 5, 3, true, 0x1000000, 8, 0, 3, ((Claim.opRows (.net : HostPort) (5 : Half) (3 : Byte) (true : Bool) (0x1000000 : Word) (8 : Word) (0 : Word)).getD 1 (0, (0, 0, 0, 0), .hspFrameOut true)), (opRequest (5 : Half) (3 : Byte) (((Claim.opRows (.net : HostPort) (5 : Half) (3 : Byte) (true : Bool) (0x1000000 : Word) (8 : Word) (0 : Word)).getD 1 (0, (0, 0, 0, 0), .hspFrameOut true)) : Nat × (Word × Word × Word × Word) × Instr).1 (true : Bool) (((Claim.opRows (.net : HostPort) (5 : Half) (3 : Byte) (true : Bool) (0x1000000 : Word) (8 : Word) (0 : Word)).getD 1 (0, (0, 0, 0, 0), .hspFrameOut true)) : Nat × (Word × Word × Word × Word) × Instr).2.1), by decide⟩,
    ⟨(setMb 3 { posted := true } (hostIdle State.reset)), .net, 5, 3, false, 0x1000000, 8, 0, 3, ((Claim.opRows (.net : HostPort) (5 : Half) (3 : Byte) (false : Bool) (0x1000000 : Word) (8 : Word) (0 : Word)).getD 1 (0, (0, 0, 0, 0), .hspFrameOut true)), (opRequest (5 : Half) (3 : Byte) (((Claim.opRows (.net : HostPort) (5 : Half) (3 : Byte) (false : Bool) (0x1000000 : Word) (8 : Word) (0 : Word)).getD 1 (0, (0, 0, 0, 0), .hspFrameOut true)) : Nat × (Word × Word × Word × Word) × Instr).1 (false : Bool) (((Claim.opRows (.net : HostPort) (5 : Half) (3 : Byte) (false : Bool) (0x1000000 : Word) (8 : Word) (0 : Word)).getD 1 (0, (0, 0, 0, 0), .hspFrameOut true)) : Nat × (Word × Word × Word × Word) × Instr).2.1), by decide⟩,
    ⟨(setMb 3 { posted := true } (hostIdle State.reset)), .net, 3, true, 0x1000000, 8, 3, by decide⟩,
    ⟨(setMb 3 { posted := true, readMark := true } (hostIdle State.reset)), .net, 3, false, 0x1000000, 8, 3, by decide⟩,
    ⟨(setMb 3 { posted := true } (hostIdle State.reset)), .net, 3, true, 1, 600000, 3, by decide⟩,
    ⟨(setMb 3 { posted := true, readMark := true } (hostIdle State.reset)), .net, 3, false, 1, 600000, 3, by decide⟩,
    ⟨(setMb 3 { posted := true } (hostIdle State.reset)), .net, 3, true, 0x1000000, 3, by decide⟩,
    ⟨(setMb 3 { posted := true, readMark := true } (hostIdle State.reset)), .net, 3, false, 0x1000000, 3, by decide⟩,
    ⟨(setMb 3 { posted := true } (hostIdle State.reset)), .net, 3, true, 1, 7, 5, 3, by decide⟩,
    ⟨(setMb 3 { posted := true, readMark := true } (hostIdle State.reset)), .net, 3, false, 1, 7, 5, 3, by decide⟩,
    ⟨(setMb 3 { posted := true } (hostIdle State.reset)), .net, 3, true, 5, 100, 3, by decide⟩,
    ⟨(setMb 3 { posted := true, readMark := true } (hostIdle State.reset)), .net, 3, false, 5, 100, 3, by decide⟩,
    ⟨(addRec 0x40 2 gPay (setMb 3 { posted := false } (hostIdle (noRecs State.reset)))), .net, 3, false, 1, 2, 0x1000000, 3, by decide⟩,
    ⟨(addRec 0x40 2 gPay (setMb 3 { posted := false } (hostIdle (noRecs State.reset)))), .net, 3, false, 1, 2, 0x1000000, 3, by decide⟩⟩

theorem witness_OperationsCompleteOrTimeOut :
    (∃ (s : State) (k : Fin 16), (Claim.mboxOf k s).running = none) ∧
    (∃ (s : State) (k : Fin 16) (o : RunningOp), (Claim.mboxOf k s).running = some o ∧ opReady k o s = false) ∧
    (∃ (s : State) (k : Fin 16) (echo : Nat) (o : RunningOp), (Claim.mboxOf k s).running = some o ∧ boltWaits (BitVec.ofNat 8 k.val) s = false ∧ o.op = 8 ∧ echo ≤ 1000 * o.args.2.1.toNat) ∧
    (∃ (s : State) (k : Fin 16) (o : RunningOp) (r0 : Word) (r1 : Word), (Claim.mboxOf k s).running = some o ∧ boltWaits (BitVec.ofNat 8 k.val) s = false ∧ (o.op = 5 ∨ o.op = 7) ∧ o.done = some (r0, r1)) ∧
    (∃ (s : State) (k : Fin 16) (o : RunningOp) (m : Master) (a : Word) (b : Word) (c : Word), (Claim.mboxOf k s).running = some o ∧ boltWaits (BitVec.ofNat 8 k.val) s = false ∧ m = portMaster o.port ∧ a = o.args.1 ∧ b = o.args.2.1 ∧ c = o.args.2.2.1 ∧ s.md ≠ 0 ∧ o.op = 2 ∧ a.toNat % 4 = 0 ∧ b.toNat % 4 = 0 ∧ 0x1000000 ≤ a.toNat ∧ a.toNat + b.toNat ≤ 0x1800000 ∧ (codeFor s m 16 = 1 ∨ codeFor s m 16 = 3)) ∧
    (∃ (s : State) (k : Fin 16) (o : RunningOp) (m : Master) (a : Word) (b : Word) (c : Word), (Claim.mboxOf k s).running = some o ∧ boltWaits (BitVec.ofNat 8 k.val) s = false ∧ m = portMaster o.port ∧ a = o.args.1 ∧ b = o.args.2.1 ∧ c = o.args.2.2.1 ∧ s.md ≠ 0 ∧ o.op = 1 ∧ a.toNat % 8 = 0 ∧ b.toNat % 8 = 0 ∧ c.toNat % 8 = 0 ∧ 0x1000000 ≤ a.toNat ∧ 0x1000000 ≤ b.toNat ∧ (a.toNat + c.toNat ≤ b.toNat ∨ b.toNat + c.toNat ≤ a.toNat) ∧ a.toNat + c.toNat ≤ 0x1800000 ∧ b.toNat + c.toNat ≤ 0x1800000 ∧ codeFor s m 16 = 3 ∧ hasRec s 0x90 0 = false ∧ modeBars m 16 true s = false) ∧
    (∃ (s : State) (k : Fin 16) (o : RunningOp) (m : Master) (a : Word) (b : Word) (c : Word), (Claim.mboxOf k s).running = some o ∧ boltWaits (BitVec.ofNat 8 k.val) s = false ∧ m = portMaster o.port ∧ a = o.args.1 ∧ b = o.args.2.1 ∧ c = o.args.2.2.1 ∧ s.md ≠ 0 ∧ o.op = 1 ∧ a.toNat % 8 = 0 ∧ b.toNat % 8 = 0 ∧ c.toNat % 8 = 0 ∧ 0x1000000 ≤ a.toNat ∧ 0x1000000 ≤ b.toNat ∧ (a.toNat + c.toNat ≤ b.toNat ∨ b.toNat + c.toNat ≤ a.toNat) ∧ a.toNat + c.toNat ≤ 0x1800000 ∧ b.toNat + c.toNat ≤ 0x1800000 ∧ codeFor s m 16 = 3 ∧ hasRec s 0x90 0 = false ∧ modeBars m 16 true s = false) ∧
    (∃ (s : State) (k : Fin 16) (o : RunningOp) (m : Master) (a : Word) (b : Word) (c : Word), (Claim.mboxOf k s).running = some o ∧ boltWaits (BitVec.ofNat 8 k.val) s = false ∧ m = portMaster o.port ∧ a = o.args.1 ∧ b = o.args.2.1 ∧ c = o.args.2.2.1 ∧ s.md ≠ 0 ∧ o.op = 6 ∧ a.toNat % 4 = 0 ∧ 0x1000000 ≤ a.toNat ∧ a.toNat + 168 ≤ 0x1800000 ∧ codeFor s m 16 = 3 ∧ hasRec s 0x90 0 = false ∧ modeBars m 16 true s = false) ∧
    (∃ (s : State) (k : Fin 16) (o : RunningOp) (q : Nat), (Claim.mboxOf k s).running = some o ∧ opTimeout o = some q ∧ o.done = none ∧ boltWaits (BitVec.ofNat 8 k.val) s = false) ∧
    (∃ (s : State) (k : Fin 16) (o : RunningOp), (Claim.mboxOf k s).running = some o ∧ (opTimeout o = none ∨ o.done.isSome = true)) :=
  ⟨⟨(setMb 3 {} State.reset), 3, by decide⟩,
    ⟨(setMb 3 (runs 5 1 2 3 none) State.reset), 3, { op := 5, port := .hsp, args := (1, 2, 3, 0), startedAt := 7 }, by decide⟩,
    ⟨(setMb 3 (runs 8 1 2 3 none) (bolts [] State.reset)), 3, 2000, { op := 8, port := .hsp, args := (1, 2, 3, 0), startedAt := 7 }, by decide⟩,
    ⟨(setMb 3 (runs 7 1 2 3 (some (4, 5))) (bolts [] State.reset)), 3, { op := 7, port := .hsp, args := (1, 2, 3, 0), startedAt := 7, done := some (4, 5) }, 4, 5, by decide⟩,
    ⟨(setMb 3 (runs 2 0x1000000 8 0 none) (hostIdle (noRecs {State.reset with sram := [(0x1000003, 9)]}))), 3, { op := 2, port := .hsp, args := (0x1000000, 8, 0, 0), startedAt := 7 }, 6, 0x1000000, 8, 0, by decide⟩,
    ⟨(setMb 3 (runs 1 0x1000000 0x1000010 8 none) (hostIdle (noRecs {State.reset with sram := [(0x1000003, 9), (0x1000011, 8)]}))), 3, { op := 1, port := .hsp, args := (0x1000000, 0x1000010, 8, 0), startedAt := 7 }, 6, 0x1000000, 0x1000010, 8, by decide⟩,
    ⟨(setMb 3 (runs 1 0x1000000 0x1000008 8 none) (hostIdle (noRecs State.reset))), 3, { op := 1, port := .hsp, args := (0x1000000, 0x1000008, 8, 0), startedAt := 7 }, 6, 0x1000000, 0x1000008, 8, by decide⟩,
    ⟨(setMb 3 (runs 6 0x1000000 0 0 none) (hostIdle (noRecs State.reset))), 3, { op := 6, port := .hsp, args := (0x1000000, 0, 0, 0), startedAt := 7 }, 6, 0x1000000, 0, 0, by decide⟩,
    ⟨(setMb 3 (runs 5 1 2 3 none) (bolts [] State.reset)), 3, { op := 5, port := .hsp, args := (1, 2, 3, 0), startedAt := 7 }, 2, by decide⟩,
    ⟨(setMb 3 (runs 2 1 2 3 none) (bolts [] State.reset)), 3, { op := 2, port := .hsp, args := (1, 2, 3, 0), startedAt := 7 }, by decide⟩⟩

theorem witness_ResultReadsChangeOnlyTheReadMark :
    (∃ (s : State) (p : HostPort) (tag : Half) (mb : Word) (r : HostRequest), Claim.idlePort p s ∧ r = { tag := tag, cmd := 0x21, payload := ofWords [mb] } ∧ 15 < mb.toNat) ∧
    (∃ (s : State) (p : HostPort) (tag : Half) (mb : Word) (r : HostRequest) (k : Fin 16), Claim.idlePort p s ∧ r = { tag := tag, cmd := 0x21, payload := ofWords [mb] } ∧ mb.toNat = k.val) ∧
    (∃ (s : State) (p : HostPort) (tag : Half) (mb : Word) (r : HostRequest) (k : Fin 16), Claim.idlePort p s ∧ r = { tag := tag, cmd := 0x21, payload := ofWords [mb] } ∧ mb.toNat = k.val) ∧
    (∃ (s : State) (k : Fin 16), s.host.mbSel.toNat = k.val) :=
  ⟨⟨(hostIdle State.reset), .net, 5, 16, { tag := (5 : Half), cmd := 0x21, payload := ofWords [(16 : Word)] }, by decide⟩,
    ⟨(setMb 3 { posted := true, seq := 7 } (hostIdle State.reset)), .net, 5, 3, { tag := (5 : Half), cmd := 0x21, payload := ofWords [(3 : Word)] }, 3, by decide⟩,
    ⟨(hostIdle State.reset), .net, 5, 15, { tag := (5 : Half), cmd := 0x21, payload := ofWords [(15 : Word)] }, 15, by decide⟩,
    ⟨(modHost (fun h => { h with mbSel := 9 }) State.reset), 9, by decide⟩⟩

theorem witness_DeadboltsAreDecidedOnce :
    (∃ (s : State) (p : HostPort) (tag : Half) (w : Word) (r : HostRequest), Claim.idlePort p s ∧ r = { tag := tag, cmd := 0x22, payload := ofWords [w] } ∧ w ≠ 0x80 ∧ 15 < w.toNat) ∧
    (∃ (s : State) (p : HostPort) (tag : Half) (w : Word) (r : HostRequest), Claim.idlePort p s ∧ r = { tag := tag, cmd := 0x22, payload := ofWords [w] } ∧ w ≠ 0x80 ∧ 15 < w.toNat) ∧
    (∃ (s : State) (p : HostPort) (tag : Half) (w : Word) (r : HostRequest), Claim.idlePort p s ∧ r = { tag := tag, cmd := 0x22, payload := ofWords [w] } ∧ (w = 0x80 ∨ w.toNat ≤ 15) ∧ s.md = 2) ∧
    (∃ (s : State) (p : HostPort) (tag : Half) (w : Word) (r : HostRequest), Claim.idlePort p s ∧ r = { tag := tag, cmd := 0x22, payload := ofWords [w] } ∧ (w = 0x80 ∨ w.toNat ≤ 15) ∧ s.md ≠ 2 ∧ codeFor s (portMaster p) 14 < 2) ∧
    (∃ (s : State) (p : HostPort) (tag : Half) (w : Word) (r : HostRequest), Claim.idlePort p s ∧ r = { tag := tag, cmd := 0x22, payload := ofWords [w] } ∧ (w = 0x80 ∨ w.toNat ≤ 15) ∧ s.md ≠ 2 ∧ 2 ≤ codeFor s (portMaster p) 14 ∧ codeFor s (portMaster p) 14 ≤ 4 ∧ w = 0x80 ∧ s.key.running.isSome = true) ∧
    (∃ (s : State) (p : HostPort) (tag : Half) (w : Word) (r : HostRequest), Claim.idlePort p s ∧ r = { tag := tag, cmd := 0x22, payload := ofWords [w] } ∧ (w = 0x80 ∨ w.toNat ≤ 15) ∧ s.md ≠ 2 ∧ 2 ≤ codeFor s (portMaster p) 14 ∧ codeFor s (portMaster p) 14 ≤ 4 ∧ w = 0x80 ∧ s.key.running = none) ∧
    (∃ (s : State) (p : HostPort) (tag : Half) (w : Word) (r : HostRequest) (k : Fin 16), Claim.idlePort p s ∧ r = { tag := tag, cmd := 0x22, payload := ofWords [w] } ∧ (w = 0x80 ∨ w.toNat ≤ 15) ∧ s.md ≠ 2 ∧ 2 ≤ codeFor s (portMaster p) 14 ∧ codeFor s (portMaster p) 14 ≤ 4 ∧ w.toNat = k.val ∧ (Claim.mboxOf k s).running.isSome = true) ∧
    (∃ (s : State) (p : HostPort) (tag : Half) (w : Word) (r : HostRequest) (k : Fin 16), Claim.idlePort p s ∧ r = { tag := tag, cmd := 0x22, payload := ofWords [w] } ∧ (w = 0x80 ∨ w.toNat ≤ 15) ∧ s.md ≠ 2 ∧ 2 ≤ codeFor s (portMaster p) 14 ∧ codeFor s (portMaster p) 14 ≤ 4 ∧ w.toNat = k.val ∧ (Claim.mboxOf k s).running = none ∧ (Claim.mboxOf k s).posted = true ∧ (Claim.mboxOf k s).readMark = false) ∧
    (∃ (s : State) (p : HostPort) (tag : Half) (w : Word) (r : HostRequest) (k : Fin 16), Claim.idlePort p s ∧ r = { tag := tag, cmd := 0x22, payload := ofWords [w] } ∧ (w = 0x80 ∨ w.toNat ≤ 15) ∧ s.md ≠ 2 ∧ 2 ≤ codeFor s (portMaster p) 14 ∧ codeFor s (portMaster p) 14 ≤ 4 ∧ w.toNat = k.val ∧ (Claim.mboxOf k s).running = none ∧ ((Claim.mboxOf k s).posted = false ∨ (Claim.mboxOf k s).readMark = true)) ∧
    (∃ (s : State), s.host.bolts = []) ∧
    (∃ (s : State) (p : HostPort) (r : HostRequest) (tag : Half) (k : Fin 16) (o : RunningOp) (q : Nat), s.host.bolts = [{ target := BitVec.ofNat 8 k.val, port := some p, tag := tag, req := r, at0 := q }] ∧ (Claim.mboxOf k s).running = some o ∧ (o.op = 5 ∨ o.op = 8)) ∧
    (∃ (s : State) (p : HostPort) (r : HostRequest) (tag : Half) (x : KeyRun) (q : Nat), s.host.bolts = [{ target := 0x80, port := some p, tag := tag, req := r, at0 := q }] ∧ s.key.running = some x) :=
  ⟨⟨(hostIdle State.reset), .net, 5, 16, { tag := (5 : Half), cmd := 0x22, payload := ofWords [(16 : Word)] }, by decide⟩,
    ⟨(hostIdle State.reset), .net, 5, 0x81, { tag := (5 : Half), cmd := 0x22, payload := ofWords [(0x81 : Word)] }, by decide⟩,
    ⟨(inMode 2 (hostIdle State.reset)), .net, 5, 0x80, { tag := (5 : Half), cmd := 0x22, payload := ofWords [(0x80 : Word)] }, by decide⟩,
    ⟨(accessOn (hostIdle (noRecs State.reset))), .net, 5, 15, { tag := (5 : Half), cmd := 0x22, payload := ofWords [(15 : Word)] }, by decide⟩,
    ⟨{hostIdle State.reset with key := {State.reset.key with running := some { op := 3, seq := 5, fw := false, arg := 0x1000, master := 6 }}}, .net, 5, 0x80, { tag := (5 : Half), cmd := 0x22, payload := ofWords [(0x80 : Word)] }, by decide⟩,
    ⟨{hostIdle State.reset with key := {State.reset.key with running := none}}, .net, 5, 0x80, { tag := (5 : Half), cmd := 0x22, payload := ofWords [(0x80 : Word)] }, by decide⟩,
    ⟨(setMb 3 (runs 8 1 2 3 none) (hostIdle State.reset)), .net, 5, 3, { tag := (5 : Half), cmd := 0x22, payload := ofWords [(3 : Word)] }, 3, by decide⟩,
    ⟨(setMb 3 { posted := true } (hostIdle State.reset)), .net, 5, 3, { tag := (5 : Half), cmd := 0x22, payload := ofWords [(3 : Word)] }, 3, by decide⟩,
    ⟨(setMb 3 { posted := true, readMark := true } (hostIdle State.reset)), .net, 5, 3, { tag := (5 : Half), cmd := 0x22, payload := ofWords [(3 : Word)] }, 3, by decide⟩,
    ⟨(bolts [] State.reset), by decide⟩,
    ⟨(setMb 3 (runs 8 1 2 3 none) (bolts [⟨3, some .net, 5, { tag := 5, cmd := 0x22, payload := ofWords [3] }, 7⟩] (hostIdle State.reset))), .net, { tag := 5, cmd := 0x22, payload := ofWords [3] }, 5, 3, { op := 8, port := .hsp, args := (1, 2, 3, 0), startedAt := 7 }, 7, by decide⟩,
    ⟨(bolts [⟨0x80, some .net, 5, { tag := 5, cmd := 0x22, payload := ofWords [0x80] }, 7⟩] {hostIdle State.reset with key := {State.reset.key with running := some { op := 3, seq := 5, fw := false, arg := 0x1000, master := 6 }}}), .net, { tag := 5, cmd := 0x22, payload := ofWords [0x80] }, 5, { op := 3, seq := 5, fw := false, arg := 0x1000, master := 6 }, 7, by decide⟩⟩


theorem witness_HingeSwapsTakeASpare :
    (∃ (s : State), s.wear.rowSwaps = []) ∧
    (∃ (s : State), s.wear.bankSwaps = []) ∧
    (∃ (s : State) (l : Lane) (bank : Nat) (row : Nat) (at0 : Nat) (rest : List (Lane × Nat × Nat × Nat)), s.wear.rowSwaps = (l, bank, row, at0) :: rest) ∧
    (∃ (s : State) (l : Lane) (bank : Nat) (row : Nat) (at0 : Nat) (rest : List (Lane × Nat × Nat × Nat)), s.wear.rowSwaps = (l, bank, row, at0) :: rest ∧ spareUsed 1 (laneNum l) s < 768 ∧ (sparseGet 0 s.wear.rowsUsed (64 * laneNum l + bank)).toNat < 16) ∧
    (∃ (s : State) (l : Lane) (bank : Nat) (row : Nat) (at0 : Nat) (rest : List (Lane × Nat × Nat × Nat)), s.wear.rowSwaps = (l, bank, row, at0) :: rest ∧ spareUsed 1 (laneNum l) s < 768 ∧ (sparseGet 0 s.wear.rowsUsed (64 * laneNum l + bank)).toNat < 16) ∧
    (∃ (s : State) (l : Lane) (bank : Nat) (at0 : Nat) (rest : List (Lane × Nat × Nat)), s.wear.bankSwaps = (l, bank, at0) :: rest) ∧
    (∃ (s : State) (l : Lane) (bank : Nat) (at0 : Nat) (rest : List (Lane × Nat × Nat)), s.wear.bankSwaps = (l, bank, at0) :: rest ∧ spareUsed 2 (laneNum l) s < 2) ∧
    (∃ (s : State) (k : Fin 5) (errors : Nat), (s.fio.on = false ∨ errors < 8 ∨ (k = 4 ∧ s.fio.spareLane = false))) ∧
    (∃ (s : State) (k : Fin 5) (errors : Nat), (s.fio.on = false ∨ errors < 8 ∨ (k = 4 ∧ s.fio.spareLane = false))) ∧
    (∃ (s : State) (k : Fin 5) (errors : Nat), s.fio.on = true ∧ 8 ≤ errors ∧ s.fio.spareLane = false ∧ spareUsed 9 2 s = 0 ∧ k.val < 4) ∧
    (∃ (s : State) (errors : Nat), s.fio.on = true ∧ 8 ≤ errors ∧ s.fio.spareLane = true ∧ at' s.wear.outSeen 29 false = false) ∧
    (∃ (s : State) (errors : Nat), s.fio.on = true ∧ 8 ≤ errors ∧ s.fio.spareLane = true ∧ at' s.wear.outSeen 29 false = true) :=
  ⟨⟨(wear (fun w => { w with rowSwaps := [] }) State.reset), by decide⟩,
    ⟨(wear (fun w => { w with bankSwaps := [] }) State.reset), by decide⟩,
    ⟨(wear (fun w => { w with rowSwaps := [(.b, 5, 9, 7)] }) State.reset), .b, 5, 9, 7, ([]), by decide⟩,
    ⟨(wear (fun w => { w with rowSwaps := [(.b, 5, 9, 7)], rowsUsed := [(69, 15)], used := w.used.set 4 767 }) State.reset), .b, 5, 9, 7, ([]), by decide⟩,
    ⟨(wear (fun w => { w with rowSwaps := [(.a, 5, 9, 7), (.b, 5, 9, 8)], rowsUsed := [(69, 15)], used := w.used.set 3 7 }) State.reset), .a, 5, 9, 7, ([(.b, 5, 9, 8)]), by decide⟩,
    ⟨(wear (fun w => { w with bankSwaps := [(.b, 5, 7)] }) State.reset), .b, 5, 7, ([]), by decide⟩,
    ⟨(wear (fun w => { w with bankSwaps := [(.b, 5, 7)], used := w.used.set 7 1, eccLog := [(1, 5, 9, State.reset.now)] }) State.reset), .b, 5, 7, ([]), by decide⟩,
    ⟨{State.reset with fio := {State.reset.fio with on := false}}, 3, 9, by decide⟩,
    ⟨State.reset, 3, 7, by decide⟩,
    ⟨(wear (fun w => { w with used := Vector.replicate 30 0 }) {State.reset with fio := {State.reset.fio with on := true, spareLane := false}}), 3, 8, by decide⟩,
    ⟨(wear (fun w => { w with outSeen := Vector.replicate 30 false }) {State.reset with fio := {State.reset.fio with on := true, spareLane := true}}), 8, by decide⟩,
    ⟨(wear (fun w => { w with outSeen := Vector.replicate 30 true }) {State.reset with fio := {State.reset.fio with on := true, spareLane := true}}), 8, by decide⟩⟩

theorem witness_RepairMapAndSwapLogAreWritten :
    (∃ (s : State), s.wear.mapDirty = none) ∧
    (∃ (s : State) (t0 : Nat), s.wear.mapDirty = some t0) ∧
    (∃ (s : State) (t0 : Nat), s.wear.mapDirty = some t0) ∧
    (∃ (s : State), (s.key.running.isSome = true ∨ s.wear.queue = [])) ∧
    (∃ (s : State) (e : SwapEntry) (rest : List SwapEntry), s.key.running = none ∧ s.wear.queue = e :: rest) :=
  ⟨⟨(wear (fun w => { w with mapDirty := none }) State.reset), by decide⟩,
    ⟨(wear (fun w => { w with mapDirty := some 77 }) State.reset), 77, by decide⟩,
    ⟨(wear (fun w => { w with mapDirty := some 77 }) State.reset), 77, by decide⟩,
    ⟨(wear (fun w => { w with queue := [] }) State.reset), by decide⟩,
    ⟨(wear (fun w => { w with queue := [sw0] }) {State.reset with key := {State.reset.key with running := none}}), sw0, ([]), by decide⟩⟩


/-! ### Ill-formed commands -/

/-- One ill-formed command for each check of `Instr.wellFormed`: a master that does not exist, or a list of another
length than its row gives it. -/
def illFormed : List Instr := [
  .ringCalibrate [700], .keyCmdUnlisted 14 0 false 0x20, .keyOpen 14 0 false, .keyClose 15 0 false, .keyErase 14 0 false,
  .keyProgram 14 0 false, .keyVerify 14 0 false, .keyCommit 14 0 false, .keySafeauth 14 0 false, .keyAdvance 14 0 false,
  .keyProgslot 14 0 false, .keyRevoke 15 0 false, .keyBufWrite 14 0 0, .rwkWrite 14 0 0,
  .meshTransfer 14 0 4 none 0 false, .meshTransfer 0 0 0 none 0 false, .meshTransfer 0 0 129 none 0 false,
  .meshTransfer 0 0 4 (some [1, 2]) 0 false, .meshSwap 14 0, .lockAcquire 14 0, .lockWaitAcquired 14 0, .lockRelease 15 0,
  .cycleProbe [(14, 0)], .fltCoefdatWrite .a 14 0, .pwmDtWrite .a 0 14 0, .pwmMinpWrite .a 0 14 0, .clmCtlWrite 14 0,
  .timeCtlWrite 14 0, .timePpssecWrite 15 0, .canFrameRx 0 (cf (List.replicate 65 0)),
  .canFrameRx 0 (cf (List.replicate 9 0)), .fioExchange [0, 0], .recOffsetMeasure .a [1], .registerWrite 14 0 0,
  .channelTelemetry [1] [], .channelTelemetry (List.replicate 32 0) []]

/-- The check refuses every one of them. -/
theorem test_illformed_refused : illFormed.all (fun c => !c.wellFormed) = true := by decide

/-- Their well-formed neighbours pass. -/
theorem test_wellformed_accepted :
    ([.ringCalibrate (List.replicate 22 700), .keyOpen 13 0 false, .meshTransfer 13 0 128 none 0 false,
      .meshTransfer 0 0 2 (some [1, 2]) 0 false, .canFrameRx 0 (cf (List.replicate 8 0)), .fioExchange (List.replicate 8 0),
      .recOffsetMeasure .a (List.replicate 32 0), .registerWrite 0 0 0] : List Instr).all (·.wellFormed) = true := by
  decide

/-! ### Single steps

The expected results are the spec's, worked out by hand from the rules named. -/

/-- What holds after a command that answers a next state. -/
def after (o : Out) (p : State → Bool) : Bool :=
  match o with
  | .next t => p t
  | _ => false

/-- The front command runs and leaves the queue. -/
theorem test_step_takes_the_front : after (step { State.reset with pending := [.hspFrameOut false, .supervisionTx] })
    (fun t => t.pending == [.supervisionTx]) = true := by decide

/-- R39: in M4 a write of PWR_GPCTL only raises GP_REFUSED. -/
theorem test_gpctl_refused_in_m4 : after (exec (.gpCtlWrite 0xFFFF) (inMode 4 (allOn .reset)))
    (fun t => t.power == (allOn .reset).power && bit t.host.raised 251) = true := by decide

/-- R116, R117: a free lock goes to the first master, a second one is refused without waiting on the same lock. -/
theorem test_lock_acquired : after (exec (.lockAcquire 3 5) (inMode 4 .reset))
    (fun t => t.mesh.lock[5].holder == some 3) = true := by decide

/-- R353, R394: WRITE and READ of shared SRAM over HSP; an unwritten byte reads 0. -/
theorem test_write_then_read : after (exec (.write .hsp 1 0x1000004 [0x12345678]) (inMode 4 .reset))
    (fun t => sharedBytes 0x1000004 4 t == [0x78, 0x56, 0x34, 0x12] && sharedBytes 0x1000008 4 t == [0, 0, 0, 0]) = true := by
  decide

/-- Writing zero leaves the memory's canonical form: no entry. -/
theorem test_write_zero_lists_nothing : after (exec (.write .hsp 1 0x1000004 [0]) (inMode 4 .reset))
    (fun t => t.sram == []) = true := by decide

/-- R352: a frame with a broken CRC counts as a frame error. -/
theorem test_bad_frame_counts : after (exec (.hspFrameIn [0x49, 0x5A, 1, 1]) (inMode 3 .reset))
    (fun t => t.host.hsp.errCnt == 1 && t.host.hsp.queue == [] && bit (eventsOf .hcp t) 2) = true := by decide

/-- R307: a rise that has lasted the filter time is stamped in multiples of 40 ticks. -/
theorem test_input_rises : after (exec (.diChange 3 true 100000 79) { State.reset with
      fio := { State.reset.fio with on := true, linkOk := true, fs := 0 } })
    (fun t => t.fio.inp[3].level && t.fio.inp[3].riseTs == 40 && t.fio.inp[3].edges == 1) = true := by decide

/-- R318 to R320: a demand of the host stops every enable line and requests M11. -/
theorem test_demand_locks : after (exec (.plkCmdDemand 0x504C) (safe [] .reset))
    (fun t => t.plk.locked && t.plk.lines == 0 && t.gate.allOff && t.mode.busy && t.mode.target == 11) = true := by decide

/-- R293: a full receive FIFO loses the frame. -/
theorem test_full_fifo_loses_the_frame : after (exec (.canFrameRx 0 (cf [1])) (canUp 0 { State.reset.can[0] with
      state := 2, rx := List.replicate 64 ⟨cf [], 0, 0⟩ } .reset))
    (fun t => t.can[0].rx.length == 64 && t.can[0].ovf == 1) = true := by decide

/-- R362: the third corrected error of a row within 24 h starts its repair. -/
theorem test_third_error_starts_a_repair : after (exec (.eccCorrected (some .a) 5 9) (wear (fun w => { w with
      eccLog := [(0, 5, 9, 0), (0, 5, 9, 0)] }) .reset))
    (fun t => t.wear.rowSwaps == [(.a, 5, 9, 0)] && t.wear.ecc[0] == 1) = true := by decide

/-- R18: masters 14 and 15 are never issued. -/
theorem test_master_14_faults : exec (.registerWrite 14 0 0) .reset = .fault .neverIssued := by rfl

/-! ### Published check values -/

/-- CRC-32C of "123456789" is E3069283H, the polynomial's published check value. -/
theorem test_crc32c_check_value :
    crc32c [0x31, 0x32, 0x33, 0x34, 0x35, 0x36, 0x37, 0x38, 0x39] = 0xE3069283 := by decide +kernel

/-- SHA-256 of "abc" (FIPS 180-4). -/
theorem test_sha256_abc : (sha256 [0x61, 0x62, 0x63]).take 4 = [0xBA, 0x78, 0x16, 0xBF] := by decide +kernel

/-- SHA-384 of "abc" (FIPS 180-4). -/
theorem test_sha384_abc : (sha384 [0x61, 0x62, 0x63]).take 4 = [0xCB, 0x00, 0x75, 0x3F] := by decide +kernel

/-- The generator of P-384 lies on the curve, and the group's order takes it to the neutral element. -/
theorem test_p384_generator : onCurve g384.1 g384.2 = true := by decide +kernel

end Sys2Proof.Tests
end

section
/-! PROOFS. The state after reset is sound (O3): its registers stand at 0, and it meets the invariants that every step keeps. -/

namespace Sys2Proof.Machine

/-- Every event register reads 0 at reset. -/
theorem eventsOf_reset (r : EvReg) : eventsOf r .reset = 0 := by
  simp [eventsOf, at', State.reset, slot_lt r]

/-- No master holds a lock at reset. -/
theorem lock_reset (n : Fin 64) : ((State.reset).mesh.lock[n]).holder = none := by
  simp [State.reset]

/-- A flash page as delivered is canonical, whatever bytes it holds. -/
theorem pageFrom_wf (bs : List (Nat × Byte)) : sparseWf 0xFF (pageFrom bs) = true := sparsePut_foldl_wf 0xFF bs [] rfl

/-- The delivered flash pages are canonical. -/
theorem factoryPages_wf (p : Fin 4) : sparseWf 0xFF factoryPages[p] = true :=
  match p with
  | 0 => pageFrom_wf _
  | 1 => rfl
  | 2 => pageFrom_wf _
  | 3 => pageFrom_wf _

/-- Every memory is canonical at reset: the SRAMs and the buffer are empty, the flash holds the delivered pages. -/
theorem memory_wf_reset : Memory.wf .reset = true := by
  have hflash : ((idx 4).all fun p => sparseWf 0xFF (State.reset).key.flash[p]) = true :=
    List.all_eq_true.mpr fun p _ => factoryPages_wf p
  rw [Memory.wf, hflash]
  rfl

/-- No request waits at a host port at reset. -/
theorem port_bounded_reset (p : HostPort) : Port.bounded p .reset = true := by cases p <;> rfl

/-- Settles O3: the reset values are read off the state, and the delivered flash pages are canonical because they are built by
canonical writes. -/
theorem resetStateIsSound : Obligations.ResetStateIsSound :=
  ⟨rfl, rfl, rfl, eventsOf_reset, rfl, rfl, lock_reset, rfl, rfl, rfl, memory_wf_reset, rfl, port_bounded_reset⟩

end Sys2Proof.Machine
end

section
/-! PROOFS. Transfers at the hinge mesh: what the arrival of a transfer at its target changes, which transfers pass the
checks, and what a permitted write of a register or of shared SRAM leads to (R6, R42, R104 to R115, R119). -/

namespace Sys2Proof.Machine

/-! ### Entries of an array -/

/-- The entry that is changed. -/
theorem modAt_getElem_self {α : Type} {n : Nat} (v : Vector α n) (i : Fin n) (f : α → α) : (modAt v i f)[i] = f v[i] := by
  simp [modAt, upd]

/-- Changing an entry leaves every other one alone. -/
theorem modAt_getElem_other {α : Type} {n : Nat} (v : Vector α n) (i j : Fin n) (f : α → α) (h : j ≠ i) :
    (modAt v i f)[j] = v[j] := by
  have hv : i.val ≠ j.val := fun e => h (Fin.ext e.symm)
  simp [modAt, upd, Vector.getElem_set_ne _ _ hv]

/-- Putting an entry leaves every other one alone. -/
theorem put_getElem_other {α : Type} {n : Nat} (v : Vector α n) (k : Nat) (x : α) (j : Fin n) (h : j.val ≠ k) :
    (put' v k x)[j] = v[j] := by
  unfold put'
  split
  · simp [Vector.getElem_set_ne _ _ h.symm]
  · rfl

/-! ### Arrival -/

/-- Work at an island makes it Active. -/
theorem islandWork_isl_self (i : Fin 22) (s : State) : ((islandWork i s).power.isl[i]).state = 0 := by
  simp only [islandWork, modIsl, modPower_power, modAt_getElem_self]

/-- Work at an island leaves the other islands alone. -/
theorem islandWork_isl_other (i j : Fin 22) (s : State) (h : j ≠ i) :
    (islandWork i s).power.isl[j] = s.power.isl[j] := modAt_getElem_other _ _ _ _ h

/-- A grant is counted once for its master. -/
theorem countGrant_grants (m : Master) (w : Nat) (s : State) :
    (at' (countGrant m w s).mesh.cnt m.toNat {}).grants = satInc (at' s.mesh.cnt m.toNat {}).grants := by
  simp only [countGrant, modMesh_mesh, at_put _ _ _ _ m.isLt]

/-- The counters of the other masters stay. -/
theorem countGrant_cnt_other (m : Master) (w : Nat) (s : State) (k : Fin 16) (h : k.val ≠ m.toNat) :
    (countGrant m w s).mesh.cnt[k] = s.mesh.cnt[k] :=
  put_getElem_other _ _ _ k h

/-- A transfer arrives at a target that stands in an island: the island's work, counted with the wake time. -/
theorem arrive_of_island {t : Nat} {i : Fin 22} (h : islandOf t = some i) (m : Master) (w : Nat) (s : State) :
    arrive m t w s = countGrant m (w + wakeTime i.val s.power.isl[i].state) (islandWork i s) := by
  simp only [arrive, h]

/-- What R42 and R115 ask of an arrival. -/
theorem arrive_arrived {t : Nat} {i : Fin 22} (h : islandOf t = some i) (m : Master) (w : Nat) (s : State) :
    Claim.Arrived m i s (arrive m t w s) := by
  rw [arrive_of_island h]
  exact ⟨rfl, islandWork_isl_self i s, fun j hj => islandWork_isl_other i j s hj, countGrant_grants m _ _,
    fun k hk => countGrant_cnt_other m _ _ k hk⟩

/-- Of the mesh an arrival changes the counters alone. -/
theorem arrive_mesh (m : Master) (t w : Nat) (s : State) :
    (arrive m t w s).mesh = { s.mesh with cnt := (arrive m t w s).mesh.cnt } := by
  unfold arrive
  split <;> rfl

/-- What waits at the ports stays as a transfer arrives. -/
theorem arrive_waiting (m : Master) (t w : Nat) (s : State) : (arrive m t w s).mesh.waiting = s.mesh.waiting := by
  rw [arrive_mesh]

/-- An arrival speaks of the time, the power manager and the mesh counters alone. -/
theorem arrived_congr {m : Master} {i : Fin 22} {s s' t t' : State} (h : Claim.Arrived m i s t)
    (hs : s'.now = s.now ∧ s'.power = s.power ∧ s'.mesh.cnt = s.mesh.cnt)
    (ht : t'.now = t.now ∧ t'.power = t.power ∧ t'.mesh.cnt = t.mesh.cnt) : Claim.Arrived m i s' t' := by
  obtain ⟨hs1, hs2, hs3⟩ := hs
  obtain ⟨ht1, ht2, ht3⟩ := ht
  rw [Claim.Arrived, hs1, hs2, hs3, ht1, ht2, ht3]
  exact h

/-! ### The checks of a transfer -/

/-- A transfer that the mode, the access tables and its shape admit passes the checks. -/
theorem checkAccess_pass {m : Master} {a n t : Nat} {write : Bool} {s : State} (ht : targetOf a = some t)
    (hb : modeBars m t write s = false) (hk : transferKind m t a n write s = 0) (hs : shapeOk t a n = true) :
    checkAccess m a n write s = (none, s) := by
  simp [checkAccess, ht, hb, hk, hs]

/-- Codes 2 and 3 permit every write (R119). -/
theorem violation_write {code : Nat} (h : code = 2 ∨ code = 3) (wo : Bool) : violation code true wo = 0 := by
  simp [violation, h]

/-- A write of a register block by a master with code 2 or 3 that is not the safety island breaks no rule (R89, R119). -/
theorem transferKind_write {m : Master} {t a n : Nat} {s : State} (hc : codeFor s m t = 2 ∨ codeFor s m t = 3)
    (hm : m ≠ 8) (hb : sramBarred m t a n s = false) : transferKind m t a n true s = 0 := by
  have h8 : (m = 8#4) = False := eq_false hm
  simp [transferKind, violation_write hc, h8, hb]

/-- The mode admits a write of the keyring unless a host master asks for it in M0 or M2 (R69). -/
theorem modeBars_keyring {m : Master} {s : State} (h : m = 6 ∨ m = 7 → s.md ≠ 0 ∧ s.md ≠ 2) :
    modeBars m 4 true s = false := by
  simpa [modeBars] using h

/-- The addresses of shared SRAM. -/
theorem targetOf_shared {a : Nat} (lo : 0x1000000 ≤ a) (hi : a < 0x1800000) : targetOf a = some 16 := by
  have : ¬ a < 0xD0000 := by omega
  simp [targetOf, this, lo, hi]

/-- A byte, or eight bytes on a multiple of eight, fits shared SRAM (R376). -/
theorem shapeOk_shared {a n : Nat} (lo : 0x1000000 ≤ a) (hi : a < 0x1800000) (hn : n = 1 ∨ (n = 8 ∧ a % 8 = 0)) :
    shapeOk 16 a n = true := by
  have ht : targetOf (a + n - 1) = some 16 := targetOf_shared (by omega) (by omega)
  have hal : aligned a n = true := by
    obtain rfl | ⟨rfl, h8⟩ := hn
    · simp [aligned]
    · have h2 : a % 2 = 0 := by omega
      have h4 : a % 4 = 0 := by omega
      simp [aligned, h2, h4, h8]
  have h1 : 1 ≤ n := by omega
  simp [shapeOk, ht, sramTarget, hal, h1]

/-! ### Effects -/

/-- The four bytes of a register value spell it. -/
theorem toWords_leBytes (v : Word) : toWords (leBytes 4 v.toNat) = [v] := by
  have hv := v.isLt
  simp only [leBytes, toWords, leNat, wd, List.cons.injEq, and_true]
  apply BitVec.eq_of_toNat_eq
  simp only [BitVec.toNat_ofNat]
  omega

/-- A write of shared SRAM that reaches it. -/
theorem perform_shared {a : Nat} (ha : targetOf a = some 16) (m : Master) (n : Nat) (bs : List Byte) (s : State) :
    perform m a n (some bs) s = (.done [], sharedWrite a bs s) := by
  simp [perform, ha, sramTarget, writeSram]

/-- A write of one register that reaches it; PWR_GPCTL, which R39 guards, stands at 10020H. -/
theorem perform_register {a t : Nat} (ha : targetOf a = some t) (ht : sramTarget t = false) (hg : 0x10020 < a)
    (m : Master) (v : Word) (s : State) :
    perform m a 4 (some (leBytes 4 v.toNat)) s = (.done [], writeWord m a v s) := by
  have : ¬ a ≤ 0x10020 := by omega
  simp [perform, ha, ht, this, toWords_leBytes, writeWords]

/-- A transfer that is done answers its master. -/
@[simp] theorem finishAccess_done (m : Master) (n : Nat) (write : Bool) (bs : List Byte) (s : State) :
    finishAccess m n write (.done bs, s) = send (.bus m bs false) s := rfl

/-- A permitted write of one register: it arrives, the register takes it, the master is answered. -/
theorem exec_registerWrite_permitted {m : Master} {a : Word} {t : Nat} {s : State} (hm : m.toNat < 14)
    (ha : targetOf a.toNat = some t) (ht : sramTarget t = false) (hg : 0x10020 < a.toNat)
    (hb : modeBars m t true s = false) (hk : transferKind m t a.toNat 4 true s = 0)
    (hs : shapeOk t a.toNat 4 = true) (v : Word) :
    exec (.registerWrite m a v) s = .next (send (.bus m [] false) (writeWord m a.toNat v (arrive m t 0 s))) := by
  have hex : exec (.registerWrite m a v) s = execRegisterWrite m a v s := rfl
  simp [hex, execRegisterWrite, byMaster, hm, access, checkAccess_pass ha hb hk hs, perform_register ha ht hg, ha]

/-- A granted write of shared SRAM: it arrives, the bytes are written, the master is answered. -/
theorem grantNow_shared {a : Nat} (ha : targetOf a = some 16) (m : Master) (n : Nat) (bs : List Byte) (own : Bool) (w : Nat)
    (s : State) : grantNow m 16 a n (some bs) own w s = send (.bus m [] false)
      (sharedWrite a bs (arrive m 16 w (if own then s else spendCredits m 16 (beats n) s))) := by
  simp [grantNow, perform_shared ha]

/-- What a sparse memory holds after consecutive writes. -/
theorem sparseGet_putAll_eq {α : Type} [DecidableEq α] (d : α) (m : List (Nat × α)) (k : Nat) (xs : List α)
    (h : sparseWf d m = true) (j : Nat) :
    sparseGet d (sparsePutAll d m k xs) j = if k ≤ j ∧ j < k + xs.length then xs.getD (j - k) d else sparseGet d m j := by
  split
  · rename_i hj
    obtain ⟨i, rfl⟩ := Nat.exists_eq_add_of_le hj.1
    have hi : i < xs.length := by omega
    simp [sparseGet_putAll d m k xs i hi h, hi]
  · exact sparseGet_putAll_other d m k j xs (by omega)

/-! ### Arbitration -/

/-- The result of a granted write of shared SRAM (R42, R104, R115): beside the arrival and the bytes it answers its master, and
what waits stays. -/
theorem grantNow_shared_effect {a : Nat} (ha : targetOf a = some 16) (m : Master) (n : Nat) (bs : List Byte) (own : Bool)
    (w : Nat) (s : State) :
    (grantNow m 16 a n (some bs) own w s).mesh.waiting = s.mesh.waiting ∧
      Claim.Arrived m 14 s (grantNow m 16 a n (some bs) own w s) ∧
      (grantNow m 16 a n (some bs) own w s).outbox = s.outbox ++ [.bus m [] false] ∧
      (grantNow m 16 a n (some bs) own w s).sram = (sharedWrite a bs s).sram ∧
      Frame [.time, .power, .mesh, .sram, .outbox] s (grantNow m 16 a n (some bs) own w s) := by
  rw [grantNow_shared ha]
  generalize hu : (if own then s else spendCredits m 16 (beats n) s) = u
  have same : u.now = s.now ∧ u.power = s.power ∧ u.mesh.cnt = s.mesh.cnt ∧ u.mesh.waiting = s.mesh.waiting ∧
      u.outbox = s.outbox ∧ u.sram = s.sram ∧ Frame [.mesh] s u := by
    subst hu
    cases own
    · exact ⟨rfl, rfl, rfl, rfl, rfl, rfl, spendCredits_only m 16 (beats n) s⟩
    · exact ⟨rfl, rfl, rfl, rfl, rfl, rfl, Frame.refl _ s⟩
  obtain ⟨hnow, hpow, hcnt, hwait, hout, hsram, hframe⟩ := same
  have harr := arrive_only m 16 w u
  refine ⟨?_, ?_, ?_, ?_, ?_⟩
  · exact (arrive_waiting m 16 w u).trans hwait
  · exact arrived_congr (arrive_arrived (t := 16) rfl m w u) ⟨hnow.symm, hpow.symm, hcnt.symm⟩ ⟨rfl, rfl, rfl⟩
  · have h : (arrive m 16 w u).outbox = u.outbox := harr .outbox (by simp)
    simp [h, hout]
  · have h : (arrive m 16 w u).sram = u.sram := harr .sram (by simp)
    simp [h, hsram]
  · exact (((hframe.mono (by simp)).comp (harr.mono (by simp))).comp
      ((sharedWrite_only a bs _).mono (by simp))).comp ((send_only _ _).mono (by simp))

/-- A checked transfer waits where the port is busy (R104, R112). -/
theorem requestTransfer_busy {m : Master} {a : Word} {n : Nat} {data : Option (List Byte)} {s : State}
    (h : checkAccess m a.toNat n data.isSome s = (none, s)) (slot : Nat) :
    requestTransfer m a n data slot true s =
      modMesh (fun x => { x with waiting := x.waiting ++ [⟨m, a, n, data, 0⟩] }) s := by
  simp [requestTransfer, h]

/-- A checked transfer that fits the slots of an idle port is granted at once, in its own slots or as best effort (R107, R112). -/
theorem requestTransfer_idle {m : Master} {a : Word} {n t : Nat} {data : Option (List Byte)} {slot : Nat} {s : State}
    (h : checkAccess m a.toNat n data.isSome s = (none, s)) (ha : targetOf a.toNat = some t) (hw : s.mesh.waiting = [])
    (hf : fitsSlots s t slot (beats n) = true) :
    ∃ own, requestTransfer m a n data slot false s = grantNow m t a.toNat n data own 0 s := by
  by_cases ho : ownsSlots s m t slot (beats n) = true
  · exact ⟨true, by simp [requestTransfer, h, ha, ho]⟩
  · exact ⟨false, by simp [requestTransfer, h, ha, ho, hw, hf]⟩

/-- The only transfer that waits at a port wins its arbitration where it fits the slots, with credits or without (R112). -/
theorem arbitrate_single {t slot : Nat} {s : State} {w : MeshWait} (hw : s.mesh.waiting = [w])
    (ha : targetOf w.addr.toNat = some t) (hf : fitsSlots s t slot (beats w.bytes) = true) :
    arbitrate t slot s = some w := by
  by_cases ho : ownsSlots s w.master t slot (beats w.bytes) = true
  · simp [arbitrate, hw, ha, ho]
  · by_cases hc : 0 < credits s t w.master <;> simp [arbitrate, hw, ha, ho, hc, hf]

/-- The arbiter grants the only transfer that waits, with the slots it has waited in all (R112, R115). -/
theorem meshGrant_single {t slot : Nat} {s : State} {w : MeshWait} (hw : s.mesh.waiting = [w])
    (ha : targetOf w.addr.toNat = some t) (hf : fitsSlots s t slot (beats w.bytes) = true) (n : Nat) :
    ∃ own, meshGrant t slot n s = grantNow w.master t w.addr.toNat w.bytes w.data own (w.slots + n)
      (modMesh (fun x => { x with waiting := [] }) s) := by
  have harb := arbitrate_single (s := modMesh (fun x => { x with waiting := [{ w with slots := w.slots + n }] }) s)
    rfl ha hf
  refine ⟨ownsSlots (modMesh (fun x => { x with waiting := [{ w with slots := w.slots + n }] }) s) w.master t slot
    (beats w.bytes), ?_⟩
  simp only [modMesh] at harb ⊢
  simp [meshGrant, modMesh, hw, ha, harb]

/-! ### Transfers to shared SRAM -/

/-- A permitted transfer to shared SRAM waits at a busy port, runs at once where it fits an idle one, and runs when the arbiter
grants it. -/
theorem meshTransfersRunOrWait : Claim.MeshTransfersRunOrWait := by
  intro s m a bs slot hm lo hi hn hb hk
  have ha : targetOf a.toNat = some 16 := targetOf_shared lo hi
  have hchk : checkAccess m a.toNat bs.length (some bs).isSome s = (none, s) :=
    checkAccess_pass ha hb hk (shapeOk_shared lo hi hn)
  have hreq (busy : Bool) : exec (.meshTransfer m a bs.length (some bs) slot busy) s =
      .next (requestTransfer m a bs.length (some bs) slot.val busy s) := if_pos hm
  refine ⟨?_, ?_, ?_⟩
  · rw [hreq, requestTransfer_busy hchk]
    exact ⟨_, rfl, rfl, modMesh_only _ s⟩
  · intro hw hf
    obtain ⟨own, hg⟩ := requestTransfer_idle hchk ha hw hf
    obtain ⟨hwait, harr, hout, hsram, hframe⟩ := grantNow_shared_effect ha m bs.length bs own 0 s
    rw [hreq, hg]
    refine ⟨_, rfl, hwait.trans hw, harr, hout, hsram, fun hwf b => ?_, hframe⟩
    rw [hsram]
    exact sparseGet_putAll_eq 0 s.sram a.toNat bs hwf b
  · intro w n hw hf
    obtain ⟨own, hg⟩ := meshGrant_single hw ha hf n
    obtain ⟨hwait, harr, hout, hsram, hframe⟩ := grantNow_shared_effect ha m bs.length bs own (w + n)
      (modMesh (fun x => { x with waiting := [] }) s)
    exact ⟨_, congrArg Host.Outcome.next hg, hwait, harr, hsram, hout,
      ((modMesh_only _ s).mono (by simp)).comp hframe⟩

/-! ### Writes of keyring registers -/

/-- Clearing an event register leaves the other ones. -/
theorem eventsOf_clear_other (q r : EvReg) (v : Word) (s : State) (h : q ≠ r) :
    eventsOf q (clearEvents r v s) = eventsOf q s := at_put_other _ _ _ _ _ (slot_inj q r h)

/-- A one in bit k alone, written to an event register, clears bit k alone (R6). -/
theorem eventsOf_clear_bit (r : EvReg) (k j : Nat) (s : State) :
    bit (eventsOf r (clearEvents r (BitVec.ofNat 32 (2 ^ k)) s)) j = (bit (eventsOf r s) j && decide (j ≠ k)) := by
  rw [eventsOf_clear]
  simp only [bit, BitVec.getLsbD_and, BitVec.getLsbD_not, BitVec.getLsbD_ofNat, Nat.testBit_two_pow]
  by_cases hj : j < 32
  · simp [hj, eq_comm]
  · simp [BitVec.getLsbD_of_ge _ j (Nat.le_of_not_lt hj)]

/-- KEY_ARG takes the value written (R6, R102). -/
theorem writeKey_keyArg (m : Master) (v : Word) (s : State) :
    writeKey m 0x0C v s = modKey (fun k => { k with arg := v }) s := rfl

/-- KEY_EVT is W1C (R6). -/
theorem writeKey_keyEvt (m : Master) (v : Word) (s : State) : writeKey m 0x04 v s = clearEvents .key v s := rfl

/-- A permitted write of a keyring register arrives in the flash island, has the effect of its offset and is answered. -/
theorem exec_keyringWrite {m : Master} {a : Word} {s : State} (hm : m.toNat < 14)
    (hmd : m = 6 ∨ m = 7 → s.md ≠ 0 ∧ s.md ≠ 2) (h8 : m ≠ 8) (hc : codeFor s m 4 = 2 ∨ codeFor s m 4 = 3)
    (ha : targetOf a.toNat = some 4) (hs : shapeOk 4 a.toNat 4 = true) (hg : 0x10020 < a.toNat) (v : Word) :
    exec (.registerWrite m a v) s =
      .next (send (.bus m [] false) (writeKey m (a.toNat - 0x30000) v (arrive m 4 0 s))) := by
  have hk : transferKind m 4 a.toNat 4 true s = 0 := transferKind_write hc h8 rfl
  rw [exec_registerWrite_permitted hm ha rfl hg (modeBars_keyring hmd) hk hs v]
  simp [writeWord, ha]

/-- A permitted write of KEY_ARG and of KEY_EVT arrives, has its register's effect and is answered. -/
theorem registerWritesTakeEffect : Claim.RegisterWritesTakeEffect := by
  intro s m v hm hmd h8
  have harr : Claim.Arrived m 21 s (arrive m 4 0 s) := arrive_arrived rfl m 0 s
  have hmesh := arrive_mesh m 4 0 s
  have hframe := arrive_only m 4 0 s
  have hout : (arrive m 4 0 s).outbox = s.outbox := hframe .outbox (by simp)
  have hkey : (arrive m 4 0 s).key = s.key := hframe .key (by simp)
  have hev (q : EvReg) : eventsOf q (arrive m 4 0 s) = eventsOf q s :=
    congrArg (at' · q.slot 0) (hframe .events (by simp))
  refine ⟨fun hc => ?_, fun hc b hb hv => ?_⟩
  · have hrun := exec_keyringWrite (a := 0x3000C) hm hmd h8 hc (by decide) (by decide) (by decide) v
    rw [show (0x3000C : Word).toNat - 0x30000 = 0x0C from rfl, writeKey_keyArg] at hrun
    refine ⟨_, hrun, harr, ?_, ?_, hmesh, ?_⟩
    · exact congrArg (fun k : KeyState => { k with arg := v }) hkey
    · exact congrArg (· ++ [.bus m [] false]) hout
    · exact ((hframe.mono (by simp)).comp ((modKey_only _ _).mono (by simp))).comp ((send_only _ _).mono (by simp))
  · have hrun := exec_keyringWrite (a := 0x30004) hm hmd h8 hc (by decide) (by decide) (by decide) v
    rw [show (0x30004 : Word).toNat - 0x30000 = 0x04 from rfl, writeKey_keyEvt] at hrun
    subst hv
    refine ⟨_, hrun, ?_, ?_, ?_, harr, hmesh, ?_⟩
    · exact (eventsOf_clear_bit .key b b _).trans (by simp)
    · intro j hj hjb
      exact (eventsOf_clear_bit .key b j _).trans (by simp [hjb, hev])
    · intro q hq
      exact (eventsOf_clear_other q .key _ _ hq).trans (hev q)
    · exact ((hframe.mono (by simp)).comp ((clearEvents_only _ _ _).mono (by simp))).comp ((send_only _ _).mono (by simp))

/-- Settles O24: a transfer that passes the checks is one grant, whoever asks for it, and the grant is an arrival, the write and
the answer; a register write is the same with the register's own effect. -/
theorem transfersAndRegisterWrites : Obligations.TransfersAndRegisterWrites :=
  ⟨meshTransfersRunOrWait, registerWritesTakeEffect⟩

end Sys2Proof.Machine
end

section
/-! PROOFS. What a command answers: one that no master issues completes, one that a master issues completes where the master
exists (R18). -/

namespace Sys2Proof.Machine

/-- An outcome is a next state. -/
def Completes (o : Out) : Prop := ∃ t, o = .next t

/-- A next state completes. -/
theorem Completes.next {t : State} : Completes (.next t) := ⟨t, rfl⟩

/-- A choice completes where both sides do. -/
theorem Completes.ite {c : Prop} [Decidable c] {a b : Out} (ha : Completes a) (hb : Completes b) :
    Completes (if c then a else b) := by
  split
  · exact ha
  · exact hb

/-- The master that a command names (R18). -/
def issuer : Instr → Option Master
  | .keyCmdUnlisted m _ _ _ | .keyOpen m _ _ | .keyClose m _ _ | .keyErase m _ _ | .keyProgram m _ _ | .keyVerify m _ _
  | .keyCommit m _ _ | .keySafeauth m _ _ | .keyAdvance m _ _ | .keyProgslot m _ _ | .keyRevoke m _ _
  | .keyBufWrite m _ _ | .rwkWrite m _ _ | .meshTransfer m _ _ _ _ _ | .meshSwap m _ | .lockAcquire m _
  | .lockWaitAcquired m _ | .lockRelease m _ | .fltCoefdatWrite _ m _ | .pwmDtWrite _ _ m _ | .pwmMinpWrite _ _ m _
  | .clmCtlWrite m _ | .timeCtlWrite m _ | .timePpssecWrite m _ | .registerWrite m _ _ => some m
  | _ => none

/-- A well-formed command names a master that exists. -/
theorem issuer_lt_of_wellFormed {c : Instr} {m : Master} (h : issuer c = some m) (hw : c.wellFormed = true) :
    m.toNat < 14 := by
  cases c
  case meshTransfer =>
    cases h
    simp only [Instr.wellFormed, Bool.and_eq_true] at hw
    obtain ⟨⟨⟨hm, _⟩, _⟩, _⟩ := hw
    exact of_decide_eq_true hm
  all_goals cases h
  all_goals exact of_decide_eq_true hw

/-- A command of a master that exists completes. -/
theorem exec_completes_of_issued {c : Instr} {m : Master} (h : issuer c = some m) (hm : m.toNat < 14) (s : State) :
    Completes (exec c s) := by
  cases c
  all_goals cases h
  all_goals exact ⟨_, if_pos hm⟩

/-- A command of master 14 or 15 faults (R18). -/
theorem exec_neverIssued {c : Instr} {m : Master} (h : issuer c = some m) (hm : 14 ≤ m.toNat) (s : State) :
    exec c s = .fault .neverIssued := by
  cases c
  all_goals cases h
  all_goals exact if_neg (Nat.not_lt.mpr hm)

/-- A turn-on at a gate completes, with an edge that is due and without one. -/
theorem execGateTurnOn_completes (ch : Fin 32) (q : Nat) (mv : Int) (s : State) : Completes (execGateTurnOn ch q mv s) := by
  unfold execGateTurnOn
  cases dueEdge ch s
  · exact .next
  · exact .next

/-- The end of a fault event completes, with an open event and without one. -/
theorem execFaultEventClose_completes (s : State) : Completes (execFaultEventClose s) := by
  unfold execFaultEventClose
  cases s.gate.faults.find? (fun e => !e.closed)
  · exact .next
  · exact .next

/-- The end of a retry wait completes, with a wait and without one. -/
theorem execRetryWaitEnd_completes (s : State) : Completes (execRetryWaitEnd s) := by
  unfold execRetryWaitEnd
  cases firstWait s.gate.faults
  · exact .next
  · exact .next

/-- A swap of a gate stage completes, with a swap that waits and without one. -/
theorem execStageSwap_completes (ch : Fin 32) (n : Nat) (s : State) : Completes (execStageSwap ch n s) := by
  unfold execStageSwap
  dsimp only
  cases (s.gate.ch[ch]).swapPend
  · exact .next
  · exact .ite .next .next

/-- A command that names no master completes: whichever branch its meaning takes, it answers a next state. The cases named
here are the commands whose meaning chooses between outcomes; the meaning of every other one is a single next state. -/
theorem exec_completes {c : Instr} (h : issuer c = none) (s : State) : Completes (exec c s) := by
  cases c
  case gateTurnOn => exact execGateTurnOn_completes _ _ _ s
  case faultEventClose => exact execFaultEventClose_completes s
  case retryWaitEnd => exact execRetryWaitEnd_completes s
  case stageSwap => exact execStageSwap_completes _ _ s
  case carrierBoundary => exact .ite .next (.ite .next .next)
  case midPeriodUpdate => exact .ite .next (.ite .next .next)
  case fltinChange => exact .ite .next (.ite .next (.ite .next .next))
  case blankEnd => exact .ite .next (.ite .next .next)
  case scTrip => exact .ite .next (.ite .next .next)
  case softOffEnd => exact .ite .next (.ite .next .next)
  case gchClear => exact .ite .next (.ite .next .next)
  case gchSelftest => exact .ite .next .next
  case selftestDone => exact .ite .next (.ite .next (.ite .next (.ite .next (.ite .next .next))))
  case auxDrop => exact .ite .next .next
  case auxDropClear => exact .ite .next .next
  case auxHigh => exact .ite .next (.ite .next (.ite .next .next))
  case hupCapEstimate => exact .ite .next .next
  case powerMeasure => exact .ite .next .next
  case gpFault => exact .ite .next .next
  case gpSoftstartDone => exact .ite .next .next
  case tempWarn => exact .ite .next (.ite .next .next)
  case tempHigh => exact .ite .next (.ite .next .next)
  case gpCut => exact .ite .next .next
  case gpCutRearm => exact .ite .next (.ite .next .next)
  case gpCtlWrite => exact .ite .next .next
  case islandIdleStepDown => exact .ite .next .next
  case islandWake => exact .ite .next .next
  case islandWakeDone => exact .ite .next .next
  case frameBoundary => exact .ite .next .next
  case pllHoldoverEnd => exact .ite .next .next
  case pllLock => exact .ite .next .next
  case tcxoFail => exact .ite .next (.ite .next (.ite .next .next))
  case tcxoReturn => exact .ite .next .next
  case tcxoDrift => exact .ite .next .next
  case refLoss => exact .ite .next .next
  case ref10Qualified => exact .ite .next .next
  case spareRelease => exact .ite .next .next
  all_goals cases h
  all_goals exact ⟨_, rfl⟩

/-- A well-formed command completes. -/
theorem exec_completes_of_wellFormed {c : Instr} (hw : c.wellFormed = true) (s : State) : Completes (exec c s) :=
  match h : issuer c with
  | none => exec_completes h s
  | some _ => exec_completes_of_issued h (issuer_lt_of_wellFormed h hw) s

/-- A command completes or faults for its master. -/
theorem exec_cases (c : Instr) (s : State) : Completes (exec c s) ∨ exec c s = .fault .neverIssued :=
  match h : issuer c with
  | none => .inl (exec_completes h s)
  | some m => (Nat.lt_or_ge m.toNat 14).imp (exec_completes_of_issued h · s) (exec_neverIssued h · s)

/-- No command is refused. -/
theorem exec_not_refused (c : Instr) (s : State) (r : Refusal) : exec c s ≠ .refused r := by
  obtain ⟨t, h⟩ | h := exec_cases c s
  · simp [h]
  · simp [h]

/-- Settles O4: a command that names no master answers a next state on every branch of its meaning, and one that names a
master does so exactly where the master exists. -/
theorem everyWellFormedCommandCompletes : Obligations.EveryWellFormedCommandCompletes :=
  ⟨fun _ s hw => exec_completes_of_wellFormed hw s, exec_not_refused, fun _ _ _ _ _ _ s hm =>
    ⟨exec_neverIssued rfl hm s, exec_neverIssued rfl hm s, exec_neverIssued rfl hm s, exec_neverIssued rfl hm s,
      exec_neverIssued rfl hm s, exec_neverIssued rfl hm s⟩⟩

end Sys2Proof.Machine
end

section
/-! PROOFS. The engine contexts of a lane: which operations leave them, the generators and the time alone, and how a change
of one context reads back. -/

namespace Sys2Proof.Machine

/-! ### Blocks of a lane that a frame leaves -/

/-- A frame that does not name a lane leaves its blocks. -/
theorem Frame.lane_eq {ps : List Part} {s t : State} (h : Frame ps s t) {l : Lane} (hl : lanePart l ∉ ps) :
    laneRest (t.lane l) = laneRest (s.lane l) := by
  have hp := h _ hl
  cases l
  · exact hp
  · exact hp

/-- What is read of a lane's blocks stays where a frame does not name the lane. -/
theorem Frame.lane_keeps {β : Type} (p : LaneState → β) (hp : ∀ x, p (laneRest x) = p x) {ps : List Part} {s t : State}
    (h : Frame ps s t) {l : Lane} (hl : lanePart l ∉ ps) : p (t.lane l) = p (s.lane l) := by
  rw [← hp (t.lane l), h.lane_eq hl, hp]

/-- A frame that does not name the time leaves it. -/
theorem Frame.now_eq {ps : List Part} {s t : State} (h : Frame ps s t) (hp : .time ∉ ps) : t.now = s.now := (h _ hp).1

/-- Time is no part of a lane. -/
theorem time_notMem_lanePart (l : Lane) : Part.time ∉ [lanePart l] := by cases l <;> simp [lanePart]

/-- A lane's blocks replaced read back wherever the replacement keeps what is read. -/
theorem setLane_keeps {β : Type} (p : LaneState → β) (s : State) (l k : Lane) (x : LaneState) (h : p x = p (s.lane l)) :
    p ((s.setLane l x).lane k) = p (s.lane k) := by
  cases l
  · cases k
    · exact h
    · rfl
  · cases k
    · rfl
    · exact h

/-! ### One context -/

/-- The context that is changed. -/
@[simp] theorem ctxOf_modCtx_self (l : Lane) (c : Fin 8) (f : EngCtx → EngCtx) (s : State) :
    Claim.ctxOf l c (modCtx l c f s) = f (Claim.ctxOf l c s) := by
  simp only [Claim.ctxOf, modCtx, modEng_same, modAt_getElem_self]

/-- The other contexts of the lane stay. -/
theorem ctxOf_modCtx_other (l : Lane) {c d : Fin 8} (h : d ≠ c) (f : EngCtx → EngCtx) (s : State) :
    Claim.ctxOf l d (modCtx l c f s) = Claim.ctxOf l d s := by
  simp only [Claim.ctxOf, modCtx, modEng_same]
  exact modAt_getElem_other _ _ _ _ h

/-- A change of a context leaves the time. -/
theorem modCtx_now (l : Lane) (c : Fin 8) (f : EngCtx → EngCtx) (s : State) : (modCtx l c f s).now = s.now :=
  (modCtx_only l c f s).now_eq (time_notMem_lanePart l)

/-- A change of a context leaves the generators. -/
theorem modCtx_pwm (l k : Lane) (c : Fin 8) (f : EngCtx → EngCtx) (s : State) :
    ((modCtx l c f s).lane k).pwm = (s.lane k).pwm := setLane_keeps LaneState.pwm s l k _ rfl

/-- A change of a context leaves the chains. -/
theorem modCtx_meas (l k : Lane) (c : Fin 8) (f : EngCtx → EngCtx) (s : State) :
    ((modCtx l c f s).lane k).meas = (s.lane k).meas := setLane_keeps LaneState.meas s l k _ rfl

/-- A context is the same where a frame leaves its lane. -/
theorem Frame.ctxOf_eq {ps : List Part} {s t : State} (h : Frame ps s t) {l : Lane} (hl : lanePart l ∉ ps) (c : Fin 8) :
    Claim.ctxOf l c t = Claim.ctxOf l c s := h.lane_keeps (fun x => x.eng.ctx[c]) (fun _ => rfl) hl

/-! ### Time -/

/-- Time passes up to a due time and never back. -/
theorem elapseTo_now_eq_max (n : Nat) (s : State) : (elapseTo n s).now = max s.now n := by
  rw [elapseTo_now]
  omega

/-- The blocks of a lane stay as time passes. -/
@[simp] theorem elapseTo_lane (n : Nat) (s : State) (l : Lane) : (elapseTo n s).lane l = s.lane l := by cases l <;> rfl

/-- A context stays as time passes. -/
@[simp] theorem ctxOf_elapseTo (l : Lane) (c : Fin 8) (n : Nat) (s : State) :
    Claim.ctxOf l c (elapseTo n s) = Claim.ctxOf l c s := by rw [Claim.ctxOf, elapseTo_lane, Claim.ctxOf]

/-! ### Operations that leave time, contexts and generators alone -/

/-- Time and the contexts of lane k stay, and but where outputs are written its generators too. -/
structure EngineQuiet (wrote : Bool) (k : Lane) (s t : State) : Prop where
  now : t.now = s.now
  ctx : (t.lane k).eng.ctx = (s.lane k).eng.ctx
  pwm : wrote = false → (t.lane k).pwm = (s.lane k).pwm

namespace EngineQuiet
variable {w : Bool} {k : Lane} {s t u : State}

theorem refl (s : State) : EngineQuiet w k s s := ⟨rfl, rfl, fun _ => rfl⟩

theorem trans (h : EngineQuiet w k s t) (h' : EngineQuiet w k t u) : EngineQuiet w k s u :=
  ⟨h'.now.trans h.now, h'.ctx.trans h.ctx, fun hw => (h'.pwm hw).trans (h.pwm hw)⟩

theorem ctxOf_eq (h : EngineQuiet w k s t) (c : Fin 8) : Claim.ctxOf k c t = Claim.ctxOf k c s :=
  congrArg (fun v : Vector EngCtx 8 => v[c]) h.ctx

/-- Where a frame names neither a lane nor the time. -/
theorem of_frame {ps : List Part} (h : Frame ps s t) (hps : .laneA ∉ ps ∧ .laneB ∉ ps ∧ .time ∉ ps) :
    EngineQuiet w k s t := by
  obtain ⟨ha, hb, ht⟩ := hps
  have hl : lanePart k ∉ ps := by
    cases k
    · exact ha
    · exact hb
  exact ⟨h.now_eq ht, h.lane_keeps (fun x => x.eng.ctx) (fun _ => rfl) hl,
    fun _ => h.lane_keeps LaneState.pwm (fun _ => rfl) hl⟩

/-- Where another block of a lane is replaced. -/
theorem setLane {l : Lane} {x : LaneState} (hc : x.eng.ctx = (s.lane l).eng.ctx)
    (hp : w = false → x.pwm = (s.lane l).pwm) :
    EngineQuiet w k s (s.setLane l x) :=
  ⟨by cases l <;> rfl, setLane_keeps (fun x => x.eng.ctx) s l k x hc, fun hw => setLane_keeps LaneState.pwm s l k x (hp hw)⟩

theorem when {b : Bool} {f : State → State} (h : EngineQuiet w k s (f s)) : EngineQuiet w k s (when b f s) := by
  cases b
  · exact refl s
  · exact h

theorem ite {p : Prop} [Decidable p] (h : EngineQuiet w k s t) (h' : EngineQuiet w k s u) :
    EngineQuiet w k s (if p then t else u) := by
  split
  · exact h
  · exact h'

theorem foldS {α : Type} (xs : List α) {f : α → State → State} (h : ∀ x t, EngineQuiet w k t (f x t)) (s : State) :
    EngineQuiet w k s (foldS xs f s) := by
  induction xs generalizing s with
  | nil => exact refl s
  | cons x xs ih => exact (h x s).trans (ih (f x s))

end EngineQuiet

/-! What each operation of a step does to the engine is read off its definition, one lemma per operation. -/

section
variable {w : Bool} (k l : Lane) (c : Fin 8) (s : State)

theorem raise_quiet (r : EvReg) (n : Nat) : EngineQuiet w k s (raise r n s) :=
  .of_frame (raise_only r n s) (by simp)

theorem raiseIf_quiet (b : Bool) (r : EvReg) (n : Nat) : EngineQuiet w k s (raiseIf b r n s) :=
  .ite (raise_quiet k s r n) (.refl s)

theorem opEvent_quiet (op a0 a1 : Nat) (r : Word × Word) (taken : List Word) :
    EngineQuiet w k s (opEvent op a0 a1 r taken s) := .of_frame (opEvent_only op a0 a1 r taken s) (by simp)

theorem modLc_quiet (f : LaneClaim → LaneClaim) : EngineQuiet w k s (modLc l f s) := .of_frame (modLc_only l f s) (by simp)

theorem modPin_quiet (p : Fin 32) (f : PinState → PinState) : EngineQuiet w k s (modPin l p f s) := .setLane rfl fun _ => rfl

theorem modRa_quiet (f : RaState → RaState) : EngineQuiet w k s (modRa l f s) := .setLane rfl fun _ => rfl

theorem modRaCtx_quiet (f : RaCtx → RaCtx) : EngineQuiet w k s (modRaCtx l c f s) := modRa_quiet k l s _

theorem modGf_quiet (f : GfState → GfState) : EngineQuiet w k s (modGf l f s) := .setLane rfl fun _ => rfl

theorem modRec_quiet (f : RecState → RecState) : EngineQuiet w k s (modRec l f s) := .setLane rfl fun _ => rfl

theorem laneWrite_quiet (off : Nat) (bs : List Byte) : EngineQuiet w k s (laneWrite l off bs s) := .setLane rfl fun _ => rfl

theorem modTap_quiet (i : Fin 64) (f : TraceTap → TraceTap) : EngineQuiet w k s (modTap l i f s) := .setLane rfl fun _ => rfl

theorem putNodes_quiet (ns : List (Nat × Word)) : EngineQuiet w k s (putNodes l ns s) := .setLane rfl fun _ => rfl

theorem modPins_quiet (p : Fin 32) (f : PinState → PinState) : EngineQuiet w k s (modPins p f s) :=
  (modPin_quiet k .a s p f).trans (modPin_quiet k .b _ p f)

theorem traceWrite_quiet (t : Fin 8) (v : Word) (tag branch ahead step : Nat) :
    EngineQuiet w k s (traceWrite l c t v tag branch ahead step s) :=
  (laneWrite_quiet k l s _ _).trans (modTap_quiet k l _ _ _)

theorem traceCommit_quiet (step : Nat) : EngineQuiet w k s (traceCommit l c step s) :=
  .foldS _ (fun _ u => .ite (.refl u)
    (((modTap_quiet k l u _ _).trans (.when (traceWrite_quiet k l c _ _ _ _ _ _ _))).trans (modTap_quiet k l _ _ _))) s

theorem squash_quiet : EngineQuiet w k s (squash l c s) :=
  .ite (.refl s) ((modRaCtx_quiet k l c s _).trans (raise_quiet k _ _ _))

theorem releaseSlots_quiet : EngineQuiet w k s (releaseSlots l c s) := modRa_quiet k l s _

theorem clearSets_quiet : EngineQuiet w k s (clearSets l c s) :=
  (modRaCtx_quiet k l c s _).trans (releaseSlots_quiet k l c _)

theorem raInvalidate_quiet : EngineQuiet w k s (raInvalidate l c s) :=
  .ite (((squash_quiet k l c s).trans (clearSets_quiet k l c _)).trans (modRaCtx_quiet k l c _ _)) (.refl s)

theorem raCommit_quiet (inputs : List Word) : EngineQuiet w k s (raCommit l c inputs s) :=
  .ite (.refl s) (.ite (modRaCtx_quiet k l c s _)
    (((((raiseIf_quiet k s _ _ _).trans (squash_quiet k l c _)).trans (releaseSlots_quiet k l c _)).trans
      (modRaCtx_quiet k l c _ _)).trans (raiseIf_quiet k _ _ _ _)))

theorem trigger_quiet (x : Trigger) : EngineQuiet w k s (trigger x s) :=
  .of_frame (trigger_only x s) (by simp)

theorem refreshFn_quiet : EngineQuiet w k s (refreshFn s) :=
  .of_frame (refreshFn_only s) (by simp)

theorem sharedWrite_quiet (a : Nat) (bs : List Byte) : EngineQuiet w k s (sharedWrite a bs s) :=
  .of_frame (sharedWrite_only a bs s) (by simp)

theorem showGf_quiet : EngineQuiet w k s (showGf l s) := modGf_quiet k l s _

theorem gfCommitted_quiet (r : GfResult) : EngineQuiet w k s (gfCommitted l r s) :=
  (((((((modGf_quiet k l s _).trans (.when (refreshFn_quiet k _))).trans (raiseIf_quiet k _ _ _ _)).trans
    (.when ((modGf_quiet k l _ _).trans (raise_quiet k _ _ _)))).trans
    (.when ((modGf_quiet k l _ _).trans (.when (trigger_quiet k _ _))))).trans
    (.when (((modGf_quiet k l _ _).trans (raise_quiet k _ _ _)).trans (.when (trigger_quiet k _ _))))).trans
    (.when (((modGf_quiet k l _ _).trans (raise_quiet k _ _ _)).trans (.when (trigger_quiet k _ _))))).trans
    (showGf_quiet k l _)

theorem modRun_quiet (f : RecRun → RecRun) : EngineQuiet w k s (modRun l f s) := modRec_quiet k l s _

theorem noteFull_quiet : EngineQuiet w k s (noteFull l s) := modRun_quiet k l s _

theorem decFrame_quiet (step : Nat) (raw : Long) : EngineQuiet w k s (decFrame l c step raw s) := by
  unfold decFrame
  refine .ite (.refl s) ?_
  dsimp only
  have hcnt (f : RecState → RecState) : EngineQuiet w k s (modRec l f s) := modRec_quiet k l s f
  split
  · exact hcnt _
  · exact .ite (hcnt _) (((((hcnt _).trans (.when (sharedWrite_quiet k _ _ _))).trans
      (modRec_quiet k l _ _)).trans (noteFull_quiet k l _)))

theorem noSpare_quiet (res lane unit trig ind : Nat) : EngineQuiet w k s (noSpare res lane unit trig ind s) :=
  .of_frame (noSpare_only res lane unit trig ind s) (by simp)

theorem startVote_quiet (pin : Fin 32) : EngineQuiet w k s (startVote l pin s) := by
  unfold startVote
  refine .ite (.refl s) ?_
  split
  · exact modPins_quiet k s pin _
  · exact modPins_quiet k s pin _
  · exact (noSpare_quiet k s ..).trans (raise_quiet k _ _ _)

theorem xchkTrend_quiet (pin : Fin 32) : EngineQuiet w k s (xchkTrend l pin s) :=
  .ite (.refl s) ((modPin_quiet k l s pin _).trans (.when (startVote_quiet k l _ pin)))

theorem crossCheck_quiet : EngineQuiet w k s (crossCheck c s) :=
  .ite (.refl s) (.foldS _ (fun pin t => .ite (.refl t)
    (((modPins_quiet k t pin _).trans (xchkTrend_quiet k .a _ pin)).trans (xchkTrend_quiet k .b _ pin))) s)


/-! ### Outputs -/

theorem modGen_quiet (g : Fin 16) (f : GenState → GenState) : EngineQuiet true k s (modGen l g f s) :=
  .setLane rfl nofun

theorem loopParam_quiet (i : Nat) (v : Word) : EngineQuiet true k s (loopParam l i v s) :=
  .ite (modGf_quiet k l s _) (raise_quiet k s _ _)

theorem writeOutput_quiet (off : Nat) (v : Word) : EngineQuiet true k s (writeOutput l off v s) := by
  unfold writeOutput
  refine .ite (loopParam_quiet k l s _ v) ?_
  dsimp only
  split
  · exact .ite (modGen_quiet k l s _ _) (.refl s)
  · exact modGen_quiet k l s _ _
  · exact .ite (modGen_quiet k l s _ _) (raise_quiet k s _ _)

theorem token_quiet (g : Fin 16) : EngineQuiet true k s (token l g s) := by
  have split_quiet : EngineQuiet true k s (raise (.pwm l) 0 (modGen l g (fun x => { x with splitPend := true }) s)) :=
    (modGen_quiet k l s g _).trans (raise_quiet k _ _ _)
  unfold token
  refine .ite (.refl s) ?_
  split
  · exact .ite (modGen_quiet k l s g _) split_quiet
  · exact .ite split_quiet (.refl s)

theorem writeOutputs_quiet (outs : List (Nat × Word)) : EngineQuiet true k s (writeOutputs l outs token s) :=
  (EngineQuiet.foldS outs (fun o t => writeOutput_quiet k l t o.1 o.2) s).trans
    (.foldS _ (fun g t => token_quiet k l t g) _)

/-- A step whose inputs are not settled writes no output (R149). -/
theorem when_writeOutputs_quiet (settled : Bool) (outs : List (Nat × Word)) :
    EngineQuiet settled k s (when settled (writeOutputs l outs token) s) := by
  cases settled
  · exact .refl s
  · exact writeOutputs_quiet k l s outs

end

end Sys2Proof.Machine
end

section
/-! PROOFS. Committed steps from start to commit (R144 to R149, R153, R154, R171). -/

namespace Sys2Proof.Machine

/-! ### What follows the counting of a commit -/

/-- A property that every change of a list keeps holds after all of them. -/
theorem foldS_invariant {α : Type} (P : State → Prop) (xs : List α) {f : α → State → State}
    (h : ∀ x t, P t → P (f x t)) {s : State} (hs : P s) : P (foldS xs f s) := by
  induction xs generalizing s with
  | nil => exact hs
  | cons x xs ih => exact ih (h x s hs)

/-- A context without the substitutions and oscillation samples that a step notes beside its counters. -/
def tally (x : EngCtx) : EngCtx := { x with numSub := 0, oscBuf := [] }

/-- What a commit leaves once its step is counted: the time, the context's tally, and but where outputs are written the
generators. -/
structure CommitKept (wrote : Bool) (l : Lane) (c : Fin 8) (s t : State) : Prop where
  now : t.now = s.now
  tally : tally (Claim.ctxOf l c t) = tally (Claim.ctxOf l c s)
  pwm : wrote = false → (t.lane l).pwm = (s.lane l).pwm

theorem EngineQuiet.commitKept {w : Bool} {l : Lane} {s t : State} (h : EngineQuiet w l s t) (c : Fin 8) :
    CommitKept w l c s t := ⟨h.now, congrArg tally (h.ctxOf_eq c), h.pwm⟩

/-- What an operation that leaves the engine alone adds. -/
theorem CommitKept.step {w : Bool} {l : Lane} {c : Fin 8} {s t u : State} (h : CommitKept w l c s t)
    (h' : EngineQuiet w l t u) : CommitKept w l c s u :=
  ⟨h'.now.trans h.now, (congrArg _ (h'.ctxOf_eq c)).trans h.tally, fun hw => (h'.pwm hw).trans (h.pwm hw)⟩

theorem CommitKept.trans {w : Bool} {l : Lane} {c : Fin 8} {s t u : State} (h : CommitKept w l c s t)
    (h' : CommitKept w l c t u) : CommitKept w l c s u :=
  ⟨h'.now.trans h.now, h'.tally.trans h.tally, fun hw => (h'.pwm hw).trans (h.pwm hw)⟩

section
variable {w : Bool} (l : Lane) (c : Fin 8) (s : State)

/-- A change of the context that its tally does not show. -/
theorem modCtx_commitKept {f : EngCtx → EngCtx} (hf : ∀ x, tally (f x) = tally x) :
    CommitKept w l c s (modCtx l c f s) :=
  ⟨modCtx_now l c f s, by rw [ctxOf_modCtx_self, hf], fun _ => modCtx_pwm l l c f s⟩

/-! One lemma for each thing that a step notes after its count. -/

theorem noteSubs_commitKept (n : Nat) : CommitKept w l c s (noteSubs l c n s) := by
  unfold noteSubs
  split
  · exact (EngineQuiet.refl s).commitKept c
  · exact (modCtx_commitKept l c s (f := fun x => { x with numSub := wd (satAdd 32 x.numSub.toNat n) })
      fun _ => rfl).step (raise_quiet l _ _ _)

theorem noteOsc_commitKept (b : Bool) (v : Word) :
    CommitKept w l c s (when b (modCtx l c fun y => { y with oscBuf := v :: y.oscBuf }) s) := by
  cases b
  · exact (EngineQuiet.refl s).commitKept c
  · exact modCtx_commitKept l c s fun _ => rfl

/-- Without a running step there is none to change. -/
theorem map_run_of_none {x : EngCtx} (h : x.run = none) (f : RunStep → RunStep) : { x with run := x.run.map f } = x := by
  cases x
  simp_all

/-- A context without a running step stays where others resume. -/
theorem resumeRuns_ctxOf (h : (Claim.ctxOf l c s).run = none) : Claim.ctxOf l c (resumeRuns l s) = Claim.ctxOf l c s := by
  refine foldS_invariant (fun t => Claim.ctxOf l c t = Claim.ctxOf l c s) _ (fun d t ht => ?_) rfl
  split
  · exact ht
  · by_cases hd : c = d
    · subst hd
      rw [ctxOf_modCtx_self, ht]
      exact map_run_of_none h _
    · rw [ctxOf_modCtx_other l hd, ht]

theorem resumeRuns_pwm : ((resumeRuns l s).lane l).pwm = (s.lane l).pwm := by
  refine foldS_keeps (fun t => (t.lane l).pwm) _ _ s fun d t => ?_
  split
  · rfl
  · exact modCtx_pwm l l d _ t

/-- Others resume after a commit. -/
theorem CommitKept.resume {t : State} (h : CommitKept w l c s t) (hs : (Claim.ctxOf l c s).run = none) :
    CommitKept w l c s (resumeRuns l t) := by
  have hrun : (Claim.ctxOf l c t).run = none := (congrArg EngCtx.run h.tally).trans hs
  exact h.trans ⟨(resumeRuns_only l t).now_eq (time_notMem_lanePart l), congrArg _ (resumeRuns_ctxOf l c t hrun),
    fun _ => resumeRuns_pwm l t⟩

/-- Outputs, substitutions, the oscillation sample and the trace of a committed step. -/
theorem stepNotes_commitKept (outs : List (Nat × Word)) (subs step : Nat) (osc : Bool) (v : Word) :
    CommitKept w l c s (traceCommit l c step (when osc (modCtx l c fun y => { y with oscBuf := v :: y.oscBuf })
      (noteSubs l c subs (when w (writeOutputs l outs token) s)))) :=
  ((((when_writeOutputs_quiet l l s w outs).commitKept c).trans (noteSubs_commitKept l c _ subs)).trans
    (noteOsc_commitKept l c _ osc v)).step (traceCommit_quiet l l c _ step)

end

/-! ### The count of a step -/

/-- What a running step computes on a state (R150, R151). -/
def stepBuffer (l : Lane) (c : Fin 8) (g : Graph) (r : RunStep) (s : State) : StepBuf :=
  runGraph (stepEnv l c (behaviour s).val (fun k => nodeVal l k s) s) g (branchInput c f0 s ++ r.inputs)

/-- A state in which a running step has just been counted: its nodes are committed, its outputs not yet written. -/
def stepCounted (l : Lane) (c : Fin 8) (g : Graph) (r : RunStep) (cycles : Nat) (s : State) : State :=
  modCtx l c (countStep cycles (stepBuffer l c g r s).clamps s.now r.settled)
    (putNodes l (stepBuffer l c g r s).buf.reverse s)

/-- The context of a step that has just been counted. -/
theorem ctxOf_stepCounted (l : Lane) (c : Fin 8) (g : Graph) (r : RunStep) (cycles : Nat) (s : State) :
    Claim.ctxOf l c (stepCounted l c g r cycles s) =
      countStep cycles (stepBuffer l c g r s).clamps s.now r.settled (Claim.ctxOf l c s) := by
  rw [stepCounted, ctxOf_modCtx_self, (putNodes_quiet (w := false) l l s _).ctxOf_eq c]

/-- A running step that ends by its deadline commits (R146 to R151): at its end it is counted, and what follows keeps the
count. -/
theorem stepCommit_commitKept {l : Lane} {c : Fin 8} {s : State} {g : Graph} {r : RunStep} {t0 : Nat}
    (hg : graphOf c s = some g) (hr : (Claim.ctxOf l c s).run = some r) (ht : r.since = some t0)
    (hd : stepEnd l g r t0 s ≤ (Claim.ctxOf l c s).trigAt + g.deadline) :
    CommitKept r.settled l c
      (stepCounted l c g r (stepCycles (fmaUnits l s) g) (elapseTo (stepEnd l g r t0 s) s)) (stepCommit l c s) := by
  have hr' : ((s.lane l).eng.ctx[c]).run = some r := hr
  have hd' : ¬ ((s.lane l).eng.ctx[c]).trigAt + g.deadline < stepEnd l g r t0 s := Nat.not_lt.mpr hd
  unfold stepCommit
  rw [hr', hg]
  simp only [Option.bind_some, ht, if_neg hd']
  refine CommitKept.resume l c _ ?_ (by rw [ctxOf_stepCounted]; rfl)
  refine .step ?_ (decFrame_quiet l l c _ _ _)
  refine .step ?_ (opEvent_quiet l _ _ _ _ _ _)
  refine .step ?_ (modLc_quiet l l _ _)
  refine .step ?_ (raCommit_quiet l l c _ _)
  split
  · exact stepNotes_commitKept l c _ _ _ _ _ _
  · exact (stepNotes_commitKept l c _ _ _ _ _ _).step (.when (gfCommitted_quiet l l _ _))

section
variable (l : Lane) (c : Fin 8) (s : State)

/-! ### The commit -/

/-- Counting a step takes no time. -/
theorem stepCounted_now (g : Graph) (r : RunStep) (cycles : Nat) : (stepCounted l c g r cycles s).now = s.now :=
  (modCtx_now l c _ _).trans (putNodes_quiet (w := false) l l s _).now

/-- Counting a step leaves the generators. -/
theorem stepCounted_pwm (g : Graph) (r : RunStep) (cycles : Nat) :
    ((stepCounted l c g r cycles s).lane l).pwm = (s.lane l).pwm :=
  (modCtx_pwm l l c _ _).trans ((putNodes_quiet (w := false) l l s _).pwm rfl)

/-- A step ends no earlier than now. -/
theorem now_le_stepEnd (g : Graph) (r : RunStep) (t0 : Nat) : s.now ≤ stepEnd l g r t0 s := Nat.le_max_left _ _

/-- The time passes up to the end of a step. -/
theorem elapseTo_stepEnd_now (g : Graph) (r : RunStep) (t0 : Nat) :
    (elapseTo (stepEnd l g r t0 s) s).now = stepEnd l g r t0 s :=
  (elapseTo_now_eq_max _ s).trans (Nat.max_eq_right (now_le_stepEnd l s g r t0))

/-- A step that ends by its deadline commits at its end, and a context's tally shows it counted (R146, R149); while its inputs
are not settled the generators stay. -/
theorem stepCommit_effect {g : Graph} {r : RunStep} {t0 : Nat}
    (hg : graphOf c s = some g) (hr : (Claim.ctxOf l c s).run = some r) (ht : r.since = some t0)
    (hd : stepEnd l g r t0 s ≤ (Claim.ctxOf l c s).trigAt + g.deadline) :
    (stepCommit l c s).now = stepEnd l g r t0 s ∧
      (r.settled = false → ((stepCommit l c s).lane l).pwm = (s.lane l).pwm) ∧
      ∃ clamps, tally (Claim.ctxOf l c (stepCommit l c s)) = tally (countStep (stepCycles (fmaUnits l s) g) clamps
        (stepEnd l g r t0 s) r.settled (Claim.ctxOf l c s)) := by
  obtain ⟨hnow, htally, hpwm⟩ := stepCommit_commitKept hg hr ht hd
  refine ⟨?_, fun hs => ?_, ?_⟩
  · rw [hnow, stepCounted_now, elapseTo_stepEnd_now]
  · rw [hpwm hs, stepCounted_pwm, elapseTo_lane]
  · rw [ctxOf_stepCounted, ctxOf_elapseTo, elapseTo_stepEnd_now] at htally
    exact ⟨_, htally⟩

/-- A suspended step does not commit (R144). -/
theorem stepCommit_of_suspended {r : RunStep} (hr : (Claim.ctxOf l c s).run = some r) (ht : r.since = none) :
    stepCommit l c s = s := by
  have hr' : ((s.lane l).eng.ctx[c]).run = some r := hr
  unfold stepCommit
  rw [hr', Option.bind_some, ht]
  cases graphOf c s <;> rfl

/-- A step that would end after its deadline does not commit (R147). -/
theorem stepCommit_of_late {g : Graph} {r : RunStep} {t0 : Nat}
    (hg : graphOf c s = some g) (hr : (Claim.ctxOf l c s).run = some r) (ht : r.since = some t0)
    (hd : (Claim.ctxOf l c s).trigAt + g.deadline < stepEnd l g r t0 s) : stepCommit l c s = s := by
  have hr' : ((s.lane l).eng.ctx[c]).run = some r := hr
  unfold stepCommit
  rw [hr', hg, Option.bind_some, ht]
  exact if_pos hd

/-! ### Waiting changes -/

/-- What every start does to its context's changes: those that are ready leave the queue, and a COEF mode becomes live. -/
def takeChanges (n : Nat) (s : State) (x : EngCtx) : EngCtx :=
  { x with pend := x.pend.filter fun p => !pendReady n s p, live := x.livePend.getD x.live, livePend := none }

/-- Without waiting changes a start only makes a COEF mode live. -/
theorem applyChanges_of_no_pend (n : Nat) (h : (Claim.ctxOf l c s).pend = []) :
    applyChanges l c n s = modCtx l c (takeChanges n s) s := by
  have h' : ((s.lane l).eng.ctx[c]).pend = [] := h
  simp only [applyChanges, h', List.filter_nil]
  rfl

/-- A swap that is ready is the one change that takes effect (R154). -/
theorem applyChanges_of_swap {n k : Nat} (h : (Claim.ctxOf l c s).pend = [(some k, .swap)]) (hk : k ≤ n) :
    applyChanges l c n s = raInvalidate l c (raise (.eng l) 3
      (modCtx l c (fun x => { x with bank := !x.bank }) (modCtx l c (takeChanges n s) s))) := by
  have h' : ((s.lane l).eng.ctx[c]).pend = [(some k, .swap)] := h
  have hready : pendReady n s (some k, .swap) = true := decide_eq_true hk
  simp only [applyChanges, h', List.filter_cons, hready]
  rfl

/-- A latched event stays latched where the run-ahead is invalidated. -/
theorem latched_raInvalidate {r : EvReg} {k : Nat} (h : Latched r k s) : Latched r k (raInvalidate l c s) := by
  have hsquash : Latched r k (squash l c s) := by
    unfold squash
    split
    · exact h
    · refine latched_raise_other r _ _ _ _ (by decide) (latched_of_events ?_ h)
      exact (modRaCtx_only l c _ s) .events (by cases l <;> simp [lanePart])
  unfold raInvalidate
  split
  · refine latched_of_events ?_ hsquash
    exact ((clearSets_only l c _).comp (modRaCtx_only l c _ _)) .events (by cases l <;> simp [lanePart])
  · exact h

/-! ### The start -/

/-- A step starts on a vector. -/
def startRun (now : Nat) (v : List (Nat × Word)) (settled : Bool) (y : EngCtx) : EngCtx :=
  { y with run := some { startAt := now, since := some now, inputs := v, settled := settled }, vec := none,
           startedNo := y.stepNo }

/-- Without a vector no step starts. -/
theorem stepStart_of_no_vec (hv : (Claim.ctxOf l c s).vec = none) : stepStart l c s = s := by
  have hv' : ((s.lane l).eng.ctx[c]).vec = none := hv
  simp only [stepStart, hv']

/-- The changes that take effect at a start take no time. -/
theorem applyChanges_now (n : Nat) : (applyChanges l c n s).now = s.now :=
  (applyChanges_only l c n s).now_eq (by cases l <;> simp [lanePart])

variable {v : List (Nat × Word)} (hu : laneUp l s = true) (hp : preempted l c s = false)
  (hv : (Claim.ctxOf l c s).vec = some v) (hr : (Claim.ctxOf l c s).run = none) (hg : gfCtx s ≠ some c)
include hu hp hv hr hg

/-- A step that no other one precedes starts on its vector, outside grid forming, with the waiting changes applied. -/
theorem stepStart_eq :
    stepStart l c s =
      modCtx l c (startRun (max s.now (engineFree l s)) v (Claim.ctxOf l c s).vecSettled)
        (applyChanges l c (Claim.ctxOf l c s).stepNo (elapseTo (engineFree l s) s)) := by
  rw [← elapseTo_now_eq_max, ← applyChanges_now l c (elapseTo (engineFree l s) s) (Claim.ctxOf l c s).stepNo]
  have hv' : ((s.lane l).eng.ctx[c]).vec = some v := hv
  have hr' : ((s.lane l).eng.ctx[c]).run = none := hr
  simp only [stepStart, hv', hr', hp, hu, hg, when]
  rfl

/-- The start of a step takes the time up to where the engine is free. -/
theorem stepStart_now :
    (stepStart l c s).now = max s.now (engineFree l s) := by
  rw [stepStart_eq l c s hu hp hv hr hg]
  exact (modCtx_now l c _ _).trans ((applyChanges_now l c _ _).trans (elapseTo_now_eq_max _ s))

/-- A start without waiting changes: the context takes its vector, the other ones stay (R144, R145, R155). -/
theorem stepStart_effect_of_no_pend
    (h : (Claim.ctxOf l c s).pend = []) :
    Claim.ctxOf l c (stepStart l c s) = { Claim.ctxOf l c s with
        run := some ⟨(stepStart l c s).now, 0, some (stepStart l c s).now, 0, v, (Claim.ctxOf l c s).vecSettled⟩,
        vec := none, startedNo := (Claim.ctxOf l c s).stepNo, livePend := none,
        live := (Claim.ctxOf l c s).livePend.getD (Claim.ctxOf l c s).live } ∧
      (∀ d : Fin 8, d ≠ c → Claim.ctxOf l d (stepStart l c s) = Claim.ctxOf l d s) ∧
      Frame [lanePart l, .time] s (stepStart l c s) := by
  rw [stepStart_now l c s hu hp hv hr hg, stepStart_eq l c s hu hp hv hr hg,
    applyChanges_of_no_pend l c _ _ ((congrArg _ (ctxOf_elapseTo l c _ s)).trans h)]
  refine ⟨?_, fun d hd => ?_, ?_⟩
  · simp only [ctxOf_modCtx_self, ctxOf_elapseTo, startRun, takeChanges, h, List.filter_nil]
  · rw [ctxOf_modCtx_other l hd, ctxOf_modCtx_other l hd, ctxOf_elapseTo]
  · exact (((elapseTo_only _ s).mono (by simp)).comp ((modCtx_only l c _ _).mono (by simp))).comp
      ((modCtx_only l c _ _).mono (by simp))

/-- A start with a swap that is ready: it raises COEF_SWAPPED and changes the bank (R154). -/
theorem stepStart_effect_of_swap {n : Nat}
    (h : (Claim.ctxOf l c s).pend = [(some n, .swap)]) (hn : n ≤ (Claim.ctxOf l c s).stepNo) :
    Latched (.eng l) 3 (stepStart l c s) ∧ (Claim.ctxOf l c (stepStart l c s)).pend = [] ∧
      (Claim.ctxOf l c (stepStart l c s)).bank = !(Claim.ctxOf l c s).bank ∧
      (Claim.ctxOf l c (stepStart l c s)).run =
        some ⟨(stepStart l c s).now, 0, some (stepStart l c s).now, 0, v, (Claim.ctxOf l c s).vecSettled⟩ := by
  have hready (t : State) : pendReady (Claim.ctxOf l c s).stepNo t (some n, .swap) = true := decide_eq_true hn
  rw [stepStart_now l c s hu hp hv hr hg, stepStart_eq l c s hu hp hv hr hg,
    applyChanges_of_swap l c _ ((congrArg _ (ctxOf_elapseTo l c _ s)).trans h) hn]
  refine ⟨?_, ?_⟩
  · exact latched_of_events ((modCtx_only l c _ _) .events (by cases l <;> simp [lanePart]))
      (latched_raInvalidate l c _ (latched_raise _ _ _ (by decide)))
  · rw [ctxOf_modCtx_self, (raInvalidate_quiet (w := false) l l c _).ctxOf_eq c,
      (raise_quiet (w := false) l _ _ _).ctxOf_eq c]
    simp [startRun, takeChanges, h, hready]

end

/-- Steps start and commit: each clause is what the lemmas on the start and the commit say. -/
theorem stepsStartAndCommit : Claim.StepsStartAndCommit := by
  intro s l c hu hp
  refine ⟨fun v hv hr hg => ⟨fun h => ?_, fun n h hn => ?_⟩, fun hv => ?_,
    fun g r hg hr => ⟨fun ht => ?_, fun t0 ht => ⟨fun hd => ?_, fun hd => ?_⟩⟩⟩
  · exact ⟨_, rfl, stepStart_now l c s hu hp hv hr hg, stepStart_effect_of_no_pend l c s hu hp hv hr hg h⟩
  · exact ⟨_, rfl, stepStart_effect_of_swap l c s hu hp hv hr hg h hn⟩
  · exact congrArg Host.Outcome.next (stepStart_of_no_vec l c s hv)
  · exact congrArg Host.Outcome.next (stepCommit_of_suspended l c s hr ht)
  · obtain ⟨hnow, hpwm, clamps, h⟩ := stepCommit_effect l c s hg hr ht hd
    refine ⟨_, rfl, congrArg EngCtx.run h, congrArg EngCtx.missRun h, congrArg EngCtx.steps h, congrArg EngCtx.commitNo h,
      ?_, fun _ => hpwm, ?_, hnow, ?_⟩
    · rw [hnow]
      exact congrArg EngCtx.wroteAt h
    · have hcyc : (Claim.ctxOf l c (stepCommit l c s)).cycLast =
          BitVec.ofNat 16 (min 0xFFFF (stepCycles (fmaUnits l s) g)) := congrArg EngCtx.cycLast h
      rw [hcyc, BitVec.toNat_ofNat]
      exact Nat.mod_eq_of_lt (Nat.lt_succ_of_le (Nat.min_le_left _ _))
    · rw [hnow]
      exact now_le_stepEnd l s g r t0
  · exact congrArg Host.Outcome.next (stepCommit_of_late l c s hg hr ht hd)

end Sys2Proof.Machine
end

section
/-! PROOFS. Agreed vectors (R11, R12, R126, R129). -/

namespace Sys2Proof.Machine

/-! ### What a vector is read from -/

/-- Two states give a context the same samples: the image, the loop reads and the chains of both lanes are the same. -/
structure SameSamples (c : Fin 8) (s t : State) : Prop where
  key : t.key = s.key
  reads : ∀ l, (Claim.ctxOf l c t).reads = (Claim.ctxOf l c s).reads
  meas : ∀ l, (t.lane l).meas = (s.lane l).meas

section
variable {c : Fin 8} {s t u : State}

theorem SameSamples.trans (h : SameSamples c s t) (h' : SameSamples c t u) : SameSamples c s u :=
  ⟨h'.key.trans h.key, fun l => (h'.reads l).trans (h.reads l), fun l => (h'.meas l).trans (h.meas l)⟩

/-- A record of the image is the same where the keyring is. -/
theorem recOf_of_key (h : t.key = s.key) (type inst : Nat) : recOf t type inst = recOf s type inst := by
  rw [recOf, h, recOf]

theorem SameSamples.graphOf (h : SameSamples c s t) : graphOf c t = graphOf c s :=
  congrArg (Option.map parseGraph) (recOf_of_key h.key _ _)

theorem SameSamples.ctxPins (h : SameSamples c s t) : ctxPins c t = ctxPins c s := by
  rw [Machine.ctxPins, h.graphOf, Machine.ctxPins]

theorem SameSamples.pinIlv (h : SameSamples c s t) (pin : Fin 32) : pinIlv pin t = pinIlv pin s :=
  congrArg (fun p : Option (List Byte) => u8 (p.getD []) 1 == 2) (recOf_of_key h.key _ _)

theorem SameSamples.readOf (h : SameSamples c s t) (l : Lane) (pin : Fin 32) : readOf l c pin t = readOf l c pin s := by
  have hr : ((t.lane l).eng.ctx[c]).reads = ((s.lane l).eng.ctx[c]).reads := h.reads l
  rw [Machine.readOf, hr, h.meas, Machine.readOf]

theorem SameSamples.pinOut (h : SameSamples c s t) (l : Lane) (pin : Fin 32) (entry : Nat) :
    pinOut l c pin entry t = pinOut l c pin entry s := by
  have hc : pinChain pin t = pinChain pin s := congrArg Option.isSome (recOf_of_key h.key _ _)
  rw [Machine.pinOut, h.readOf, h.pinIlv, hc, Machine.pinOut]

theorem SameSamples.agreedVector (h : SameSamples c s t) (l : Lane) (g : Graph) (missing : List (Fin 32)) :
    agreedVector l c g missing t = agreedVector l c g missing s := by
  have hl (pin : Fin 32) : vectorLane l pin missing t = vectorLane l pin missing s := by
    rw [vectorLane, h.pinIlv, h.meas, vectorLane]
  simp only [Machine.agreedVector, h.pinOut, hl]

end

/-- The passing of time changes no sample. -/
theorem elapseTo_sameSamples (c : Fin 8) (n : Nat) (s : State) : SameSamples c s (elapseTo n s) :=
  ⟨rfl, fun l => by rw [ctxOf_elapseTo], fun l => by rw [elapseTo_lane]⟩

/-! ### A vector taken in one lane -/

/-- A context takes its vector. -/
def takeVector (v : List (Nat × Word)) (unagreed settled : Bool) (x : EngCtx) : EngCtx :=
  { x with vecDue := false, vec := some v, vecUnagreed := unagreed, vecSettled := settled }

/-- An unagreed vector is counted and raised, and both lanes' good time begins again (R12, R265). -/
def noteUnagreed (t : State) : State :=
  raise .clm 0 (modClaim (fun k => { k with
    unagreed := satInc k.unagreed, a := { k.a with goodSince := t.now }, b := { k.b with goodSince := t.now } }) t)

theorem noteUnagreed_only (s : State) : Frame [.claim, .events, .board] s (noteUnagreed s) :=
  ((modClaim_only _ s).mono (by simp)).comp ((raise_only _ _ _).mono (by simp))

theorem noteUnagreed_unagreed (s : State) : (noteUnagreed s).claim.unagreed = satInc s.claim.unagreed := by
  simp [noteUnagreed]

section
variable (l : Lane) (c : Fin 8) (s : State)

/-- A step suspends no step of its own context. -/
theorem ctxBefore_self : ctxBefore c c s = false := by simp [ctxBefore]

/-- A context stays where it suspends the lower ones. -/
theorem suspendLower_ctxOf : Claim.ctxOf l c (suspendLower l c s) = Claim.ctxOf l c s := by
  refine foldS_keeps (Claim.ctxOf l c) _ _ s fun d t => ?_
  split
  · rfl
  · split
    next hb =>
      have hd : c ≠ d := by
        rintro rfl
        simp [ctxBefore_self] at hb
      exact ctxOf_modCtx_other l hd _ t
    next => rfl

/-- The chains stay where steps are suspended. -/
theorem suspendLower_meas (k : Lane) : ((suspendLower l c s).lane k).meas = (s.lane k).meas := by
  refine foldS_keeps (fun t => (t.lane k).meas) _ _ s fun d t => ?_
  split
  · rfl
  · split
    · exact modCtx_meas l k d _ t
    · rfl

/-- A vector that is due is taken with the samples of the other lane that have arrived; one with samples missing is noted as
unagreed (R11, R12). -/
theorem vectorIn_eq {g : Graph} (hg : graphOf c s = some g) (hu : laneUp l s = true)
    (hd : (Claim.ctxOf l c s).vecDue = true) (hc : samplesCut l s = false) (given missing : List (Fin 32))
    (hm : (ctxPins c s).filter given.contains = missing) :
    ∃ settled, vectorIn l c given s = when (!missing.isEmpty) noteUnagreed (suspendLower l c
      (modCtx l c (takeVector (agreedVector l c g missing s) (!missing.isEmpty) settled)
        (crcErrors (otherLane l) missing.length s))) := by
  have hd' : ((s.lane l).eng.ctx[c]).vecDue = true := hd
  refine ⟨inputsSettled l c g missing s, ?_⟩
  simp only [vectorIn, hg, hu, hd', hc, hm]
  rfl

/-- The context that takes its vector. -/
theorem ctxOf_vectorIn {g : Graph} (hg : graphOf c s = some g) (hu : laneUp l s = true)
    (hd : (Claim.ctxOf l c s).vecDue = true) (hc : samplesCut l s = false) (given missing : List (Fin 32))
    (hm : (ctxPins c s).filter given.contains = missing) :
    ∃ settled, Claim.ctxOf l c (vectorIn l c given s) =
      takeVector (agreedVector l c g missing s) (!missing.isEmpty) settled (Claim.ctxOf l c s) := by
  obtain ⟨settled, h⟩ := vectorIn_eq l c s hg hu hd hc given missing hm
  have hnote (t : State) : EngineQuiet false l t (when (!missing.isEmpty) noteUnagreed t) :=
    .when (.of_frame (noteUnagreed_only t) (by simp))
  have hcrc : EngineQuiet false l s (crcErrors (otherLane l) missing.length s) :=
    .of_frame (crcErrors_only _ _ s) (by simp)
  exact ⟨settled, by rw [h, (hnote _).ctxOf_eq, suspendLower_ctxOf, ctxOf_modCtx_self, hcrc.ctxOf_eq]⟩

/-- With every sample in place there is no vector to note. -/
theorem vectorIn_nil_eq {g : Graph} (hg : graphOf c s = some g) (hu : laneUp l s = true)
    (hd : (Claim.ctxOf l c s).vecDue = true) (hc : samplesCut l s = false) :
    ∃ settled, vectorIn l c [] s = suspendLower l c
      (modCtx l c (takeVector (agreedVector l c g [] s) false settled) (crcErrors (otherLane l) 0 s)) :=
  vectorIn_eq l c s hg hu hd hc [] [] (by simp)

end

/-! ### The link between the lanes -/

/-- The health of the lanes, the state of both channels and the count of unagreed vectors stay. -/
structure SameLink (s t : State) : Prop where
  health : ∀ k, (t.lc k).health = (s.lc k).health
  up : ∀ k, (tsuOut t k).up = (tsuOut s k).up
  unagreed : t.claim.unagreed = s.claim.unagreed

section
variable {s t u : State}

theorem SameLink.trans (h : SameLink s t) (h' : SameLink t u) : SameLink s u :=
  ⟨fun k => (h'.health k).trans (h.health k), fun k => (h'.up k).trans (h.up k), h'.unagreed.trans h.unagreed⟩

theorem SameLink.of_claim (h : t.claim = s.claim) : SameLink s t :=
  ⟨fun k => by cases k <;> simp [State.lc, h], fun k => by cases k <;> simp [tsuOut, h], by rw [h]⟩

theorem SameLink.laneUp (h : SameLink s t) (l : Lane) : laneUp l t = laneUp l s := by
  rw [Machine.laneUp, h.health, Machine.laneUp]

theorem SameLink.samplesCut (h : SameLink s t) (l : Lane) : samplesCut l t = samplesCut l s := by
  rw [Machine.samplesCut, h.laneUp, h.up, Machine.samplesCut]

end

/-- Errors counted at a channel leave the link. -/
theorem crcErrors_sameLink (l : Lane) (n : Nat) (s : State) : SameLink s (crcErrors l n s) :=
  ⟨fun k => by cases l <;> cases k <;> rfl, fun k => by cases l <;> cases k <;> rfl, by cases l <;> rfl⟩

section
variable (l : Lane) (c : Fin 8) (s : State)

/-- What a lane does as it takes a vector leaves the link, but for the note. -/
theorem suspendLower_modCtx_sameLink (f : EngCtx → EngCtx) (k : Lane) (n : Nat) :
    SameLink s (suspendLower l c (modCtx l c f (crcErrors k n s))) :=
  (crcErrors_sameLink k n s).trans (.of_claim
    (((modCtx_only l c f _).comp (suspendLower_only l c _)) .claim (by cases l <;> simp [lanePart])))

variable {g : Graph} (hg : graphOf c s = some g) (hu : laneUp l s = true)
  (hd : (Claim.ctxOf l c s).vecDue = true) (hc : samplesCut l s = false)
include hg hu hd hc

/-- A vector taken with every sample in place leaves the link. -/
theorem vectorIn_nil_sameLink : SameLink s (vectorIn l c [] s) := by
  obtain ⟨settled, h⟩ := vectorIn_nil_eq l c s hg hu hd hc
  rw [h]
  exact suspendLower_modCtx_sameLink l c s _ _ _

/-- A vector taken with every sample in place leaves the samples. -/
theorem vectorIn_nil_sameSamples : SameSamples c s (vectorIn l c [] s) := by
  obtain ⟨settled, hctx⟩ := ctxOf_vectorIn l c s hg hu hd hc [] [] (by simp)
  have hframe := vectorIn_only l c [] s
  have hother {k : Lane} (hk : k ≠ l) : lanePart k ∉ [.events, .board, .claim, lanePart l] := by
    cases l <;> cases k <;> simp_all [lanePart]
  refine ⟨hframe .key (by cases l <;> simp [lanePart]), fun k => ?_, fun k => ?_⟩
  · by_cases hk : k = l
    · subst hk
      rw [hctx]
      rfl
    · rw [hframe.ctxOf_eq (hother hk)]
  · by_cases hk : k = l
    · obtain ⟨settled, h⟩ := vectorIn_nil_eq l c s hg hu hd hc
      rw [h, suspendLower_meas, modCtx_meas]
      exact (crcErrors_only _ _ s).lane_keeps LaneState.meas (fun _ => rfl) (by cases k <;> simp [lanePart])
    · exact hframe.lane_keeps LaneState.meas (fun _ => rfl) (hother hk)

/-- A vector with samples missing is raised and counted (R12). -/
theorem vectorIn_unagreed {given missing : List (Fin 32)} (hm : (ctxPins c s).filter given.contains = missing)
    (hne : missing ≠ []) : Latched .clm 0 (vectorIn l c given s) ∧
      (vectorIn l c given s).claim.unagreed = satInc s.claim.unagreed := by
  obtain ⟨settled, h⟩ := vectorIn_eq l c s hg hu hd hc given missing hm
  have hbad : (!missing.isEmpty) = true := by simpa using hne
  rw [h, hbad]
  exact ⟨latched_raise _ _ _ (by decide), (noteUnagreed_unagreed _).trans
    (congrArg satInc (suspendLower_modCtx_sameLink l c s _ _ _).unagreed)⟩

end

/-! ### Both lanes -/

/-- Both lanes have taken their vectors: lane A with every sample in place, lane B with the given ones missing. -/
def vectorsTaken (c : Fin 8) (given : List (Fin 32)) (s : State) : State :=
  vectorIn .b c given (vectorIn .a c []
    (elapseTo (max (Claim.ctxOf .a c s).trigAt (Claim.ctxOf .b c s).trigAt + inputTicks c s) s))

section
variable {c : Fin 8} {s : State} {g : Graph} (hg : graphOf c s = some g) (hua : laneUp .a s = true)
  (hub : laneUp .b s = true) (hta : (tsuOut s .a).up = true) (htb : (tsuOut s .b).up = true)
  (hd : ∀ l : Lane, (Claim.ctxOf l c s).vecDue = true) {given missing : List (Fin 32)}
  (hm : (ctxPins c s).filter given.contains = missing)

/-- Both lanes take the time of the loop read and nothing more. -/
theorem vectorsTaken_now (c : Fin 8) (given : List (Fin 32)) (s : State) : (vectorsTaken c given s).now =
    max s.now (max (Claim.ctxOf .a c s).trigAt (Claim.ctxOf .b c s).trigAt + inputTicks c s) :=
  ((vectorIn_only .b c given _).now_eq (by simp [lanePart])).trans
    (((vectorIn_only .a c [] _).now_eq (by simp [lanePart])).trans (elapseTo_now_eq_max _ s))

include hg hua hub hta htb hd hm

/-- What both lanes' contexts hold after their vectors, and what a vector with samples missing adds (R11, R12). -/
theorem vectorsTaken_effect :
    (∃ settled, Claim.ctxOf .a c (vectorsTaken c given s) =
      takeVector (agreedVector .a c g [] s) false settled (Claim.ctxOf .a c s)) ∧
    (∃ settled, Claim.ctxOf .b c (vectorsTaken c given s) =
      takeVector (agreedVector .b c g missing s) (!missing.isEmpty) settled (Claim.ctxOf .b c s)) ∧
    (missing ≠ [] → Latched .clm 0 (vectorsTaken c given s) ∧
      (vectorsTaken c given s).claim.unagreed = satInc s.claim.unagreed) := by
  unfold vectorsTaken
  generalize max (Claim.ctxOf .a c s).trigAt (Claim.ctxOf .b c s).trigAt + inputTicks c s = n
  have hcut (l : Lane) : samplesCut l s = false := by cases l <;> simp [samplesCut, otherLane, *]
  have hda : (Claim.ctxOf .a c (elapseTo n s)).vecDue = true := by rw [ctxOf_elapseTo, hd]
  have h1 := elapseTo_sameSamples c n s
  have h2 := vectorIn_nil_sameSamples .a c (elapseTo n s) hg hua hda (hcut .a)
  have hlink := vectorIn_nil_sameLink .a c (elapseTo n s) hg hua hda (hcut .a)
  have h12 := h1.trans h2
  have hB : Claim.ctxOf .b c (vectorIn .a c [] (elapseTo n s)) = Claim.ctxOf .b c s :=
    ((vectorIn_only .a c [] _).ctxOf_eq (by simp [lanePart]) c).trans (ctxOf_elapseTo .b c n s)
  have hgB := h12.graphOf.trans hg
  have huB := (hlink.laneUp .b).trans hub
  have hdB := (congrArg EngCtx.vecDue hB).trans (hd .b)
  have hcB := (hlink.samplesCut .b).trans (hcut .b)
  have hmB := (congrArg (List.filter given.contains) h12.ctxPins).trans hm
  refine ⟨?_, ?_, fun hne => ?_⟩
  · rw [(vectorIn_only .b c given _).ctxOf_eq (by simp [lanePart])]
    obtain ⟨settled, h⟩ := ctxOf_vectorIn .a c (elapseTo n s) hg hua hda (hcut .a) [] [] (by simp)
    exact ⟨settled, by rw [h, h1.agreedVector, ctxOf_elapseTo, List.isEmpty_nil, Bool.not_true]⟩
  · obtain ⟨settled, h⟩ := ctxOf_vectorIn .b c _ hgB huB hdB hcB given missing hmB
    exact ⟨settled, by rw [h, h12.agreedVector, hB]⟩
  · obtain ⟨hlatched, hcount⟩ := vectorIn_unagreed .b c _ hgB huB hdB hcB hmB hne
    exact ⟨hlatched, hcount.trans (congrArg satInc hlink.unagreed)⟩

/-- The cross-check follows where both vectors are agreed (R127). -/
theorem vectorDue_eq : vectorDue c [] given s =
    if missing = [] then crossCheck c (vectorsTaken c given s) else vectorsTaken c given s := by
  obtain ⟨⟨_, ha⟩, ⟨_, hb⟩, _⟩ := vectorsTaken_effect hg hua hub hta htb hd hm
  have ha' : (((vectorsTaken c given s).lane .a).eng.ctx[c]).vecUnagreed = false := congrArg EngCtx.vecUnagreed ha
  have hb' : (((vectorsTaken c given s).lane .b).eng.ctx[c]).vecUnagreed = !missing.isEmpty :=
    congrArg EngCtx.vecUnagreed hb
  have hda : ((s.lane .a).eng.ctx[c]).vecDue = true := hd .a
  unfold vectorDue
  simp only [hda]
  change (if (((vectorsTaken c given s).lane .a).eng.ctx[c]).vecUnagreed ||
    (((vectorsTaken c given s).lane .b).eng.ctx[c]).vecUnagreed then _ else _) = _
  rw [ha', hb']
  cases missing <;> rfl

end

/-- The entry of an input in the vector of a lane with every sample in place: the primary converter's, or its own where the pin
is interleaved (R11, R129). -/
theorem agreedVector_nil (l : Lane) (c : Fin 8) (g : Graph) (s : State) : agreedVector l c g [] s = g.ins.map fun e =>
    (e.node, pinOut (if pinIlv (Fin.ofNat 32 e.pin) s then l
      else if ((s.lane l).meas.pin[Fin.ofNat 32 e.pin]).primaryB then .b else .a) c (Fin.ofNat 32 e.pin) e.entry s) := by
  simp [agreedVector, vectorLane]

/-- Where a sample is missing the lane takes its own (R12). -/
theorem mem_agreedVector_of_missing {l : Lane} {c : Fin 8} {g : Graph} {s : State} {missing : List (Fin 32)} {e : GraphIn}
    (he : e ∈ g.ins) (hp : Fin.ofNat 32 e.pin ∈ missing) :
    (e.node, pinOut l c (Fin.ofNat 32 e.pin) e.entry s) ∈ agreedVector l c g missing s := by
  have hl : vectorLane l (Fin.ofNat 32 e.pin) missing s = l := by
    rw [vectorLane, List.contains_iff_mem.mpr hp, Bool.true_or, if_pos rfl]
  exact List.mem_map.mpr ⟨e, he, congrArg (fun k => (e.node, pinOut k c (Fin.ofNat 32 e.pin) e.entry s)) hl⟩

/-- The agreed vectors of a context fall due in both lanes. -/
theorem agreedVectorsFallDue : Claim.AgreedVectorsFallDue := by
  intro s c g hg hua hub hta htb hd
  refine ⟨?_, fun p hp => ?_⟩
  · have hm : (ctxPins c s).filter ([] : List (Fin 32)).contains = [] := by simp
    obtain ⟨⟨σa, ha⟩, ⟨σb, hb⟩, _⟩ := vectorsTaken_effect hg hua hub hta htb hd hm
    have hex : exec (.vectorDue c [] []) s = .next (crossCheck c (vectorsTaken c [] s)) :=
      congrArg Host.Outcome.next (vectorDue_eq hg hua hub hta htb hd hm)
    have hquiet (l : Lane) := crossCheck_quiet (w := false) l c (vectorsTaken c [] s)
    refine ⟨_, hex, fun l => ?_, (hquiet .a).now.trans (vectorsTaken_now c [] s)⟩
    rw [(hquiet l).ctxOf_eq, ← agreedVector_nil]
    cases l
    · rw [ha]
      exact ⟨rfl, rfl, rfl⟩
    · rw [hb]
      exact ⟨rfl, rfl, rfl⟩
  · have hm : p ∈ (ctxPins c s).filter [p].contains := by simpa using hp
    have hne : (ctxPins c s).filter [p].contains ≠ [] := List.ne_nil_of_mem hm
    obtain ⟨⟨σa, ha⟩, ⟨σb, hb⟩, hnote⟩ := vectorsTaken_effect hg hua hub hta htb hd (given := [p]) rfl
    obtain ⟨hlatched, hcount⟩ := hnote hne
    have hex : exec (.vectorDue c [] [p]) s = .next (vectorsTaken c [p] s) :=
      congrArg Host.Outcome.next ((vectorDue_eq hg hua hub hta htb hd (given := [p]) rfl).trans (if_neg hne))
    refine ⟨_, hex, hlatched, ?_, congrArg EngCtx.vecUnagreed ha, hcount, fun e he hep => ⟨_, congrArg EngCtx.vec hb, ?_⟩⟩
    · exact (congrArg EngCtx.vecUnagreed hb).trans (by rw [List.isEmpty_eq_false_iff.mpr hne]; rfl)
    · subst hep
      exact mem_agreedVector_of_missing he hm

/-- Settles O28: the vectors are taken lane by lane from the same samples, and a start and a commit are each one change of
their context that what surrounds it keeps. -/
theorem stepsFallDueAndCommit : Obligations.StepsFallDueAndCommit := ⟨agreedVectorsFallDue, stepsStartAndCommit⟩

end Sys2Proof.Machine
end

section
/-! PROOFS. Supply and hold-up (R29 to R34): the estimate of the hold-up capacitance. -/

namespace Sys2Proof.Machine

/-- A powered module whose image gives the hold-up capacitors a nominal capacitance above 0. -/
def holdupModule : State :=
  { State.reset with
    power := { powered := true }
    key := { State.reset.key with records := [⟨0x10, 0, List.replicate 180 1⟩] } }

/-- HUP_LOW follows the estimate in force. -/
theorem refreshHupLow_hupLow (s : State) : (refreshHupLow s).power.hupLow = hupLowOf s s.power.hupC := by
  simp only [refreshHupLow, raiseIf]
  split
  · simp
  · rfl

/-- An estimate of 0 is no measurement and sets no HUP_LOW (R47, log entry 58). -/
theorem hupLowOf_zero (s : State) : hupLowOf s 0 = false := rfl

/-- The nominal capacitance of the module is above 0. -/
theorem holdupModule_nominal : 0 < u16 (recD holdupModule 0x10 0) 178 := by decide

/-- Refutes O9: on a module with a nominal capacitance above 0 a charge of 99 µC over 10 V, 9.9 µF, gives the estimate 0 in units
of 10 µF. It lies below half the nominal value, but HUP_LOW stays 0, because an estimate of 0 counts as not measured. -/
theorem not_supplyThresholdsAct : ¬ Obligations.SupplyThresholdsAct := by
  rintro ⟨hset, -⟩
  obtain ⟨-, -, -, -, hcap⟩ := hset holdupModule rfl
  obtain ⟨t, hex, -, hlow, -⟩ := hcap 0 10000 99 (by decide) (by decide)
  have ht : refreshHupLow (modPower (fun p => { p with hupC := 0 }) holdupModule) = t := Host.Outcome.next.inj hex
  have hoff : t.power.hupLow = false := by
    rw [← ht, refreshHupLow_hupLow]
    exact hupLowOf_zero _
  exact Bool.false_ne_true (hoff.symm.trans (hlow.mpr holdupModule_nominal))

end Sys2Proof.Machine
end

section
/-! PROOFS. The power manager (R37 to R47): measurements, temperature, gate power and island power. -/

namespace Sys2Proof.Machine

/-! ### Soft starts -/

/-- The power manager without its soft starts: what a start of gate power leaves alone. -/
def notStarting (p : PowerState) : PowerState :=
  { p with
    convSoft := 0, pumpSoft := 0, convSoftAt := Vector.replicate 16 0, pumpSoftAt := Vector.replicate 16 0 }

/-- Enables, faults and what is in regulation are no part of a soft start. -/
theorem enables_of_notStarting {p q : PowerState} (h : notStarting p = notStarting q) :
    p.gpEn = q.gpEn ∧ p.convFlt = q.convFlt ∧ p.convOk = q.convOk ∧ p.pumpOk = q.pumpOk :=
  have field {β : Type} (f : PowerState → β) : f (notStarting p) = f (notStarting q) := congrArg f h
  ⟨field (·.gpEn), field (·.convFlt), field (·.convOk), field (·.pumpOk)⟩

/-- A soft start changes nothing else of the power manager. -/
theorem notStarting_softStart (pump : Bool) (hb : Fin 16) (s : State) :
    notStarting (softStart pump hb s).power = notStarting s.power := by
  cases pump
  · rfl
  · rfl

/-- What is enabled starts, and nothing else of the power manager changes. -/
theorem notStarting_startEnabled (only : Word) (s : State) :
    notStarting (startEnabled only s).power = notStarting s.power := by
  unfold startEnabled
  split
  · rfl
  · refine foldS_keeps (fun t => notStarting t.power) _ _ s fun hb t => ?_
    refine (when_keeps (fun t => notStarting t.power) _ _ _ (notStarting_softStart true hb _)).trans ?_
    exact when_keeps (fun t => notStarting t.power) _ _ _ (notStarting_softStart false hb t)

/-- The soft start of a converter stands. -/
theorem softStart_convSoft_self (hb : Fin 16) (s : State) :
    bit (softStart false hb s).power.convSoft hb.val = true := by
  simp [softStart, bit_putBit _ _ _ _ hb.isLt]

/-- A soft start ends no other one. -/
theorem softStart_convSoft_mono (pump : Bool) (hb x : Fin 16) (s : State) (h : bit s.power.convSoft x.val = true) :
    bit (softStart pump hb s).power.convSoft x.val = true := by
  cases pump
  · simp [softStart, bit_putBit _ _ _ _ hb.isLt, h]
  · exact h

/-- A soft start that begins on a condition ends no other one. -/
theorem when_softStart_convSoft_mono (c pump : Bool) (hb x : Fin 16) (s : State)
    (h : bit s.power.convSoft x.val = true) : bit (when c (softStart pump hb) s).power.convSoft x.val = true := by
  cases c
  · exact h
  · exact softStart_convSoft_mono pump hb x s h

/-- A soft start that begins on a condition changes nothing else of the power manager. -/
theorem notStarting_when_softStart (c pump : Bool) (hb : Fin 16) (s : State) :
    notStarting (when c (softStart pump hb) s).power = notStarting s.power :=
  when_keeps (fun t => notStarting t.power) c _ s (notStarting_softStart pump hb s)

/-- A converter that is enabled, without a fault and not in regulation has its soft start once gate power starts (R37). -/
theorem startEnabled_convSoft {only : Word} {s : State} {hb : Fin 16} (hcut : s.power.gpCut = false)
    (ho : bit only hb.val = true) (hen : bit s.power.gpEn hb.val = true) (hflt : bit s.power.convFlt hb.val = false)
    (hok : bit s.power.convOk hb.val = false) : bit (startEnabled only s).power.convSoft hb.val = true := by
  rw [startEnabled, if_neg (by simp [hcut])]
  refine foldS_establishes (fun t => bit t.power.convSoft hb.val = true) (fun t => notStarting t.power = notStarting s.power)
    hb (idx 16) _ s ?_ ?_ ?_ (List.mem_finRange hb) rfl
  · exact fun x t ht => (notStarting_when_softStart _ _ x _).trans ((notStarting_when_softStart _ _ x t).trans ht)
  · exact fun x t ht => when_softStart_convSoft_mono _ _ x hb _ (when_softStart_convSoft_mono _ _ x hb t ht)
  · intro t ht
    obtain ⟨hen', hflt', hok', -⟩ := enables_of_notStarting ht
    refine when_softStart_convSoft_mono _ _ hb hb _ ?_
    simp only [hen', hflt', hok', ho, hen, hflt, hok, Bool.true_and, Bool.not_false]
    cases hs : bit t.power.convSoft hb.val
    · exact softStart_convSoft_self hb t
    · exact hs

/-- With gate power cut nothing starts (R38). -/
theorem startEnabled_of_cut {only : Word} {s : State} (h : s.power.gpCut = true) : startEnabled only s = s := if_pos h

/-! ### Measurements (R45, R47) -/

/-- The power manager as a measurement leaves it. -/
def measuredPower (aux : Int) (vbus hup dw : Nat) (dc : Int) (la lb : Bool) (p : PowerState) : PowerState :=
  { p with
    measured := true, auxMv := aux, hupMv := hup, vbusMv := vbus, tempDc := dc,
    auxV := BitVec.ofNat 16 (min 65535 (aux.toNat / 10)), vbus := BitVec.ofNat 16 (min 65535 (vbus / 10)),
    hupV := BitVec.ofNat 16 (min 65535 (hup / 10)), pin := inputPower aux dw, temp := BitVec.ofInt 16 dc,
    laneAPwr := la, laneBPwr := lb, auxOk := decide (28000 ≤ aux) && decide (aux ≤ 90000),
    hupRdy := !p.auxDrop && decide ((aux - hup).natAbs ≤ 1000) }

/-- A powered module takes each measurement when it is due. -/
theorem exec_powerMeasure {s : State} (hp : s.power.powered = true) (aux : Int) (vbus hup dw : Nat) (dc : Int)
    (la lb : Bool) : exec (.powerMeasure aux vbus hup dw dc la lb) s =
      .next (modPower (measuredPower aux vbus hup dw dc la lb) (measureDue s)) := if_neg (by simp [hp])

/-- What changes the power manager after the wait for a measurement, which changes the time alone. -/
theorem modPower_measureDue (f : PowerState → PowerState) (s : State) : modPower f (measureDue s) =
    { s with
      now := (measureDue s).now, raw := (measureDue s).raw, ticks := (measureDue s).ticks, power := f s.power } := by
  have periodic_eq (k n : Nat) : modPower f (periodic k n s) = { s with
      now := (periodic k n s).now, raw := (periodic k n s).raw, ticks := (periodic k n s).ticks, power := f s.power } := rfl
  have startTick_eq (k n : Nat) : modPower f (startTick k (elapseTo n s)) = { s with
      now := (startTick k (elapseTo n s)).now, raw := (startTick k (elapseTo n s)).raw,
      ticks := (startTick k (elapseTo n s)).ticks, power := f s.power } := rfl
  unfold measureDue
  split
  · exact periodic_eq tkPower (us 100)
  · exact startTick_eq tkPower (s.power.aonAt + ms 1)

/-- The first measurement comes 1 ms after AON starts. -/
theorem measureDue_now_of_first {s : State} (h : s.power.measured = false) :
    (measureDue s).now = max s.now (s.power.aonAt + 400000) := by
  rw [measureDue, if_neg (by simp [h])]
  exact elapseTo_now_eq_max _ s

/-- A register of 16 bits shows every value that fits it. -/
theorem toNat_ofNat_min {n : Nat} (h : n < 65536) : (BitVec.ofNat 16 (min 65535 n)).toNat = n := by
  simp only [BitVec.toNat_ofNat]
  omega

/-- A measurement writes the measurement registers and the live status, and nothing else. -/
theorem powerMeasurementsAreRead : Claim.PowerMeasurementsAreRead := by
  intro s aux vbus hup dw dc la lb hp h0 haux hvbus hhup hdw
  have hpin : inputPower aux dw = BitVec.ofNat 16 (min 65535 dw) := if_neg (by omega)
  have hex := (exec_powerMeasure hp aux vbus hup dw dc la lb).trans (congrArg Host.Outcome.next (modPower_measureDue _ s))
  refine ⟨_, hex, toNat_ofNat_min (by omega), toNat_ofNat_min (by omega),
    toNat_ofNat_min (by omega), ?_, rfl, ?_, ?_, rfl, rfl, rfl, measureDue_now_of_first, rfl⟩
  · exact (congrArg BitVec.toNat hpin).trans (toNat_ofNat_min hdw)
  · simp [measuredPower]
  · simp only [measuredPower, Bool.and_eq_true, Bool.not_eq_true', decide_eq_true_eq]
    exact and_congr_right fun _ => by omega

/-! ### Temperature (R38) -/

/-- Gate power that is re-armed starts again what is enabled. -/
theorem exec_gpCutRearm {s : State} (hc : s.power.gpCut = true) (ht : s.power.tempDc < 1200) (ha : 28000 ≤ s.power.auxMv) :
    exec .gpCutRearm s =
      .next (startEnabled 0xFFFFFFFF (modPower (fun p => { p with gpCut := false }) (clearEvents .pwr 0x80 s))) := by
  change execGpCutRearm s = _
  simp [execGpCutRearm, hc, ht, ha]

/-- Every bit of a register of ones is set. -/
theorem bit_ones {k : Nat} (h : k < 32) : bit (0xFFFFFFFF : Word) k = true := by
  have hones : (0xFFFFFFFF : Word) = BitVec.allOnes 32 := rfl
  rw [bit, hones, BitVec.getLsbD_allOnes]
  exact decide_eq_true h

/-- Temperature thresholds have hysteresis; the cut of gate power latches and is re-armed by its conditions alone. -/
theorem temperatureThresholdsAndCut : Claim.TemperatureThresholdsAndCut := by
  intro s dc
  refine ⟨fun hw hd => ?_, fun hw hd => ?_, fun hw hd => ?_, fun hw hd => ?_, fun hc hd => ?_, fun hc hn => ?_,
    fun hc ht ha => ⟨_, exec_gpCutRearm hc ht ha, ?_, ?_, fun hb hen hflt hok => ?_⟩⟩
  · change execTempWarn dc s = _
    simp [execTempWarn, hw, hd, modPower]
  · change execTempWarn dc s = _
    simp [execTempWarn, hw, hd, modPower]
  · change execTempHigh dc s = _
    simp [execTempHigh, hw, hd, modPower]
  · change execTempHigh dc s = _
    simp [execTempHigh, hw, hd, modPower]
  · change execGpCut dc s = _
    simp [execGpCut, hc, hd, modPower]
  · change execGpCutRearm s = _
    have hnot : ¬ (s.power.tempDc < 1200 ∧ 28000 ≤ s.power.auxMv) := by omega
    simp [execGpCutRearm, hc, hnot]
  · exact congrArg PowerState.gpCut (notStarting_startEnabled 0xFFFFFFFF _)
  · have hev : eventsOf .pwr (startEnabled 0xFFFFFFFF (modPower (fun p => { p with gpCut := false })
        (clearEvents .pwr 0x80 s))) = eventsOf .pwr (clearEvents .pwr (BitVec.ofNat 32 (2 ^ 7)) s) :=
      congrArg (at' · EvReg.pwr.slot 0) (startEnabled_only 0xFFFFFFFF _ .events (by simp))
    rw [hev, eventsOf_clear_bit]
    simp
  · exact startEnabled_convSoft rfl (bit_ones (by omega)) hen hflt hok

/-- Settles O10: a measurement is one change of the power manager at its due time; the thresholds are read off the commands,
and gate power that is re-armed starts what is enabled. -/
theorem powerAndTemperatureAreWatched : Obligations.PowerAndTemperatureAreWatched :=
  ⟨powerMeasurementsAreRead, temperatureThresholdsAndCut⟩

/-! ### PWR_GPCTL (R39) -/

/-- Of the power manager a write of PWR_GPCTL that takes effect changes the enables and what they end or start. -/
theorem notStarting_setGpCtl (en : Half) (s : State) : notStarting (setGpCtl en s).power = notStarting { s.power with
    gpEn := en, convOk := s.power.convOk &&& en, pumpOk := s.power.pumpOk &&& en } := by
  refine (notStarting_startEnabled _ _).trans ((congrArg notStarting (foldS_power _ _ _ _ fun hb t => ?_)).trans rfl)
  split
  · exact gateOff_only hb t .power (by simp)
  · rfl

/-- Settles O11: in M3 and M11 the write sets the enables and ends what they no longer enable; elsewhere its pennant is all. -/
theorem gatePowerControlOnlyInStop : Obligations.GatePowerControlOnlyInStop := by
  intro s v
  have hstop : inStop s = true ↔ s.md = 3 ∨ s.md = 11 := by simp [inStop]
  obtain ⟨hen, -, hconv, hpump⟩ := enables_of_notStarting (notStarting_setGpCtl (v.setWidth 16) s)
  exact ⟨fun h => ⟨_, if_pos (hstop.mpr h), hen, hconv, hpump⟩, fun h => if_neg (mt hstop.mp h)⟩

end Sys2Proof.Machine
end

section
/-! PROOFS. Gate power that fails and restarts, and the power states of the islands (R37, R40 to R42). -/

namespace Sys2Proof.Machine

/-! ### Gate power (R37) -/

/-- The power manager with a converter that has come into regulation. -/
def converterReady (hb : Fin 16) (p : PowerState) : PowerState :=
  { p with convSoft := putBit p.convSoft hb.val false, convOk := putBit p.convOk hb.val true }

/-- The power manager with the faults of a mask cleared. -/
def faultsCleared (v : Word) (p : PowerState) : PowerState :=
  { p with convFlt := p.convFlt &&& ~~~(v.setWidth 16), pumpFlt := p.pumpFlt &&& ~~~((v >>> 16).setWidth 16) }

/-- Channels that leave the unpowered state change neither the power manager nor the time. -/
theorem powerUp_keeps (c : Fin 32) (s : State) : (powerUp c s).power = s.power ∧ (powerUp c s).now = s.now :=
  ⟨powerUp_only c s .power (by simp), (powerUp_only c s).now_eq (by simp)⟩

/-- The power manager changed after a wait. -/
theorem modPower_elapseTo (f : PowerState → PowerState) (n : Nat) (s : State) :
    (modPower f (elapseTo n s)).power = f s.power ∧ (modPower f (elapseTo n s)).now = max s.now n :=
  ⟨rfl, elapseTo_now_eq_max n s⟩

/-- The soft start of a converter ends 50 ms after it began: of the power manager it brings the converter into regulation. -/
theorem exec_gpSoftstartDone_converter {s : State} {hb : Fin 16} (h : bit s.power.convSoft hb.val = true) :
    ∃ t, exec (.gpSoftstartDone false hb) s = .next t ∧ t.power = converterReady hb s.power ∧
      t.now = max s.now (s.power.convSoftAt[hb] + ms 50) := by
  have hex : exec (.gpSoftstartDone false hb) s = .next (powerUp (lowSide hb) (powerUp (highSide hb)
      (modPower (converterReady hb) (elapseTo (s.power.convSoftAt[hb] + ms 50) s)))) := by
    change execGpSoftstartDone false hb s = _
    simp only [execGpSoftstartDone, h, Bool.false_eq_true, if_false, Bool.not_true]
    rfl
  obtain ⟨hlow, hlow'⟩ := powerUp_keeps (lowSide hb) (powerUp (highSide hb)
    (modPower (converterReady hb) (elapseTo (s.power.convSoftAt[hb] + ms 50) s)))
  obtain ⟨hhigh, hhigh'⟩ := powerUp_keeps (highSide hb)
    (modPower (converterReady hb) (elapseTo (s.power.convSoftAt[hb] + ms 50) s))
  obtain ⟨hpow, hnow⟩ := modPower_elapseTo (converterReady hb) (s.power.convSoftAt[hb] + ms 50) s
  exact ⟨_, hex, (hlow.trans hhigh).trans hpow, (hlow'.trans hhigh').trans hnow⟩

/-- The bit of a power of two. -/
theorem getLsbD_two_pow {k : Nat} (h : k < 32) : (BitVec.ofNat 32 (2 ^ k)).getLsbD k = true := by
  rw [BitVec.getLsbD_ofNat, Nat.testBit_two_pow_self, decide_eq_true h, Bool.and_self]

/-- A 1 written to the bit of a converter's fault selects that fault. -/
theorem bit_selected_convFlt (p : PowerState) (hb : Fin 16) (h : bit p.convFlt hb.val = true) :
    bit (BitVec.ofNat 32 (2 ^ hb.val) &&& (p.pumpFlt ++ p.convFlt : BitVec 32)) hb.val = true := by
  have hv := getLsbD_two_pow (k := hb.val) (by omega)
  have hf : (p.pumpFlt ++ p.convFlt).getLsbD hb.val = true := by
    rw [BitVec.getLsbD_append, if_pos hb.isLt]
    exact h
  exact (BitVec.getLsbD_and ..).trans (by rw [hv, hf, Bool.and_self])

/-- A 1 written to the bit of a converter's fault clears it. -/
theorem bit_faultsCleared_convFlt (p : PowerState) (hb : Fin 16) :
    bit (faultsCleared (BitVec.ofNat 32 (2 ^ hb.val)) p).convFlt hb.val = false := by
  have hv := getLsbD_two_pow (k := hb.val) (by omega)
  rw [bit, faultsCleared, BitVec.getLsbD_and, BitVec.getLsbD_not, BitVec.getLsbD_setWidth, hv]
  simp

/-- A converter or pump that fails stops, one whose soft start ends is in regulation, and a cleared fault starts what is
enabled unless gate power is cut. -/
theorem gatePowerFaultsStopAndRestart : Claim.GatePowerFaultsStopAndRestart := by
  intro s hb
  refine ⟨fun h => if_neg (by simp [h]), fun h => if_neg (by simp [h]), fun h => ?_,
    fun v h => congrArg Host.Outcome.next (startEnabled_of_cut h), fun hcut hen hflt hok => ⟨_, rfl, ?_, ?_⟩⟩
  · obtain ⟨t, hex, hpow, hnow⟩ := exec_gpSoftstartDone_converter h
    have hms : ms 50 = 20000000 := rfl
    refine ⟨t, hex, ?_, ?_, hms ▸ hnow, ?_⟩
    · simp [hpow, converterReady, bit_putBit _ _ _ _ hb.isLt]
    · simp [hpow, converterReady, bit_putBit _ _ _ _ hb.isLt]
    · rw [hpow]
      rfl
  · obtain ⟨-, hkeep, -, -⟩ := enables_of_notStarting (notStarting_startEnabled
      (BitVec.ofNat 32 (2 ^ hb.val) &&& (s.power.pumpFlt ++ s.power.convFlt : BitVec 32))
      (modPower (faultsCleared (BitVec.ofNat 32 (2 ^ hb.val))) s))
    exact (congrArg (bit · hb.val) hkeep).trans (bit_faultsCleared_convFlt s.power hb)
  · exact startEnabled_convSoft (s := modPower (faultsCleared (BitVec.ofNat 32 (2 ^ hb.val))) s) hcut
      (bit_selected_convFlt s.power hb hflt) hen (bit_faultsCleared_convFlt s.power hb) hok

/-! ### Island power (R40 to R42) -/

/-- A change of an island's power that follows a wait is a frame of the time and the power manager. -/
theorem modIsl_after {s t : State} (h : Frame [.time] s t) (i : Fin 22) (f : IslandPower → IslandPower) :
    Frame [.time, .power] s (modIsl i f t) := (h.mono (by simp)).comp ((modIsl_only i f t).mono (by simp))

/-- In M4 to M11 the policy of these islands goes no lower than Gated (R41). -/
theorem lowestState_le_gated {s : State} {i : Nat} (h4 : 4 ≤ s.md)
    (hi : [2, 4, 5, 8, 10, 11, 13, 20].contains i = true) : (lowestState s i).val ≤ 1 := by
  have h0 : i ≠ 0 := by rintro rfl; exact absurd hi (by decide)
  have h18 : i ≠ 18 := by rintro rfl; exact absurd hi (by decide)
  have hmd : s.md ≠ 0 := by omega
  have hlim : (decide (4 ≤ s.md) && [2, 4, 5, 8, 10, 11, 13, 20].contains i) = true := by
    simp only [hi, h4, decide_true, Bool.and_self]
  rw [lowestState, if_neg h0, if_neg hmd, if_neg h18, if_pos hlim]
  split
  · exact Nat.zero_le 1
  · exact Nat.le_refl 1

/-- An island steps down after its idle delay and no lower than its policy lets it, wakes, and is Active after its wake time. -/
theorem islandPowerSteps : Claim.IslandPowerSteps := by
  intro s i
  refine ⟨fun hlow hw => ?_, fun hlow => if_neg ?_, fun hst hw => if_neg ?_, fun hw hst => ?_,
    fun h4 _ hi => lowestState_le_gated h4 hi⟩
  · have hex : exec (.islandIdleStepDown i) s = .next (modIsl i (fun x => { x with
          state := x.state + 1,
          idleFrom := (elapseTo (s.power.isl[i].idleFrom + idleDelay s i.val s.power.isl[i].state) s).now })
        (elapseTo (s.power.isl[i].idleFrom + idleDelay s i.val s.power.isl[i].state) s)) :=
      if_pos (by simp only [hlow, hw, decide_true, Bool.not_false, Bool.and_self])
    exact ⟨_, hex, elapseTo_now_eq_max _ s, rfl, modIsl_after (elapseTo_only _ s) i _⟩
  · simp only [Nat.not_lt.mpr hlow, decide_false, Bool.false_and, Bool.false_eq_true, not_false_eq_true]
  · simp only [hst, hw, decide_false, Bool.or_self, Bool.false_eq_true, not_false_eq_true]
  · have hex : exec (.islandWakeDone i) s = .next (modIsl i (fun x => { x with
          waking := false, state := 0, idleFrom := (advance (wakeTime i.val s.power.isl[i].state) s).now })
        (advance (wakeTime i.val s.power.isl[i].state) s)) :=
      if_neg (by simp only [hw, Bool.not_true, Bool.false_eq_true, not_false_eq_true])
    have hwake : wakeTime i.val s.power.isl[i].state = 400 := congrArg (wakeTime i.val) hst
    exact ⟨_, hex, congrArg (s.now + ·) hwake, rfl, modIsl_after (advance_only _ s) i _⟩

/-- Settles O12: a converter's faults and starts are changes of its own bits that the channels it feeds leave alone, and an
island's steps are one change of its record after the wait. -/
theorem gatePowerAndIslandPower : Obligations.GatePowerAndIslandPower := ⟨gatePowerFaultsStopAndRestart, islandPowerSteps⟩

end Sys2Proof.Machine
end

section
/-! PROOFS. Fault sources and flag groups (R28, R227 to R229): what a change of a source leaves of the flag groups, and how the
blocks that it begins reach the generators. -/

namespace Sys2Proof.Machine

/-! ### What reads the key records -/

/-- A record's payload is that of the running image. -/
theorem recD_of_key {s t : State} (h : t.key = s.key) (type inst : Nat) : recD t type inst = recD s type inst :=
  congrArg (Option.getD · []) (recOf_of_key h type inst)

/-- The entry of a source is that of the running image. -/
theorem srcEntry_of_key {s t : State} (h : t.key = s.key) (src : Nat) : srcEntry src t = srcEntry src s := by
  rw [srcEntry, recD_of_key h, srcEntry]

/-! ### Active groups -/

/-- A source of group k is active. -/
def groupLive (s : State) (k : Nat) : Bool :=
  s.gate.fg.active.any fun src => (srcEntry src s).elim false fun e => e.1 / 2 ^ k % 2 == 1

/-- The active source, with its entry. -/
theorem groupLive_iff {s : State} {k : Nat} : groupLive s k = true ↔
    ∃ n ∈ s.gate.fg.active, ∃ e, srcEntry n s = some e ∧ e.1 / 2 ^ k % 2 = 1 := by
  rw [groupLive, List.any_eq_true]
  refine exists_congr fun n => and_congr_right fun _ => ?_
  cases srcEntry n s <;> simp

/-- A latch holds a group, or one of its sources is active (R228, R229). -/
theorem groupActive_eq (s : State) (k : Nat) : groupActive s k = (bit s.gate.fg.latched k || groupLive s k) := by
  rw [groupActive, groupLive]
  congr 2
  funext src
  cases srcEntry src s <;> rfl

/-- Whether a group is active depends on the flag groups and the running image alone. -/
theorem groupActive_congr {s t : State} (hk : t.key = s.key) (hf : t.gate.fg = s.gate.fg) (k : Nat) :
    groupActive t k = groupActive s k := by
  simp only [groupActive_eq, groupLive, hf, srcEntry_of_key hk]

/-! ### Gates and tumblers leave the flag groups alone -/

/-- Commands that end leave the flag groups. -/
theorem settleGates_fg (s : State) : (settleGates s).gate.fg = s.gate.fg := by
  rw [settleGates]
  refine foldS_keeps (fun t => t.gate.fg) _ _ s fun c t => ?_
  split
  · rfl
  · rfl

/-- The blocks that begin leave the flag groups. -/
theorem applyBlocks_fg (s : State) : (applyBlocks s).gate.fg = s.gate.fg := by
  rw [applyBlocks, settleGates_fg, settleTumblers_only _ .gate (by simp)]
  refine foldS_keeps (fun t => t.gate.fg) _ _ s fun l t => foldS_keeps (fun t => t.gate.fg) _ _ t fun g u => ?_
  dsimp only
  split
  · rfl
  · simp

/-! ### A change of a source -/

/-- A source that stands as it is said to changes nothing. -/
theorem setSource_same {src : Nat} {on : Bool} {s : State} (h : s.gate.fg.active.contains src = on) (ticks : Long) :
    setSourceAt src on ticks s = s := if_pos h.symm

/-- A source that clears leaves the active ones. -/
theorem setSource_clear {src : Nat} {s : State} (h : src ∈ s.gate.fg.active) (ticks : Long) :
    setSourceAt src false ticks s = settleGates (modGate (fun g => { g with fg := { g.fg with
      active := g.fg.active.filter (· != src) } }) s) := by
  have hc : s.gate.fg.active.contains src = true := List.contains_iff_mem.mpr h
  rw [setSourceAt, if_neg (by rw [hc]; exact Bool.false_ne_true), if_pos Bool.not_false]

/-- The groups that a source makes active. -/
def newGroups (groups : Nat) (s : State) : List Nat :=
  (List.range 4).filter fun k => groups / 2 ^ k % 2 == 1 && !groupActive s k

/-- A source that asserts joins the active ones, and the recorders note it. -/
def sourceNoted (src : Nat) (ticks : Long) (s : State) : State :=
  when (!(decide (16 ≤ src) && decide (src < 48))) (noteTrigsAt src ticks)
    (modGate (fun g => { g with fg := { g.fg with active := g.fg.active ++ [src] } }) s)

/-- A source that asserts enters its groups: they latch where its entry says so, and those that it makes active take its
number. -/
def groupsTaken (src groups : Nat) (latch : Bool) (ticks : Long) (s : State) : State :=
  let held := modGate (fun g => { g with fg := { g.fg with
    latched := if latch then g.fg.latched ||| BitVec.ofNat 4 groups else g.fg.latched,
    first := (newGroups groups s).foldl (fun f k => put' f k (BitVec.ofNat 8 src)) g.fg.first } }) (sourceNoted src ticks s)
  if (newGroups groups s).isEmpty then held else raise (.pwm .a) 5 (raise (.pwm .b) 5 held)

/-- A source with an entry asserts: it enters its groups, trips where its entry says so, and the blocks begin. -/
theorem setSource_assert {src groups : Nat} {latch trip : Bool} {s : State} (h : src ∉ s.gate.fg.active)
    (he : srcEntry src s = some (groups, latch, trip)) (ticks : Long) :
    setSourceAt src true ticks s = applyBlocks (when (trip || (decide (96 ≤ src) && decide (src ≤ 103))) protectionTrip
      (groupsTaken src groups latch ticks s)) := by
  have hc : ¬ true = s.gate.fg.active.contains src := fun e => h (List.contains_iff_mem.mp e.symm)
  rw [setSourceAt, if_neg hc, if_neg (by simp), he]
  rfl

/-- A source without an entry asserts: it trips where it is an oscillation, and no group changes. -/
theorem setSource_assert_none {src : Nat} {s : State} (h : src ∉ s.gate.fg.active) (he : srcEntry src s = none)
    (ticks : Long) : setSourceAt src true ticks s =
      when (decide (96 ≤ src) && decide (src ≤ 103)) protectionTrip (sourceNoted src ticks s) := by
  have hc : ¬ true = s.gate.fg.active.contains src := fun e => h (List.contains_iff_mem.mp e.symm)
  rw [setSourceAt, if_neg hc, if_neg (by simp), he]
  rfl

/-- Of the flag groups a noted source changes the active ones. -/
theorem sourceNoted_fg (src : Nat) (ticks : Long) (s : State) : (sourceNoted src ticks s).gate.fg =
    { s.gate.fg with active := s.gate.fg.active ++ [src] } :=
  congrArg GateState.fg (when_gate _ _ _ (noteTrigsAt_only src ticks _ .gate (by simp)))

/-- Only the gates and the lanes change. -/
theorem sourceNoted_only (src : Nat) (ticks : Long) (s : State) :
    Frame [.laneA, .laneB, .gate] s (sourceNoted src ticks s) :=
  ((modGate_only _ s).mono (by simp)).comp (.when ((noteTrigsAt_only src ticks _).mono (by simp)))

/-- The flag groups that a source has entered. -/
def groupsHeld (src groups : Nat) (latch : Bool) (s : State) : FlagGroups :=
  { s.gate.fg with
    active := s.gate.fg.active ++ [src]
    latched := if latch then s.gate.fg.latched ||| BitVec.ofNat 4 groups else s.gate.fg.latched
    first := (newGroups groups s).foldl (fun f k => put' f k (BitVec.ofNat 8 src)) s.gate.fg.first }

section
variable (src groups : Nat) (latch : Bool) (ticks : Long) (s : State)

/-- What a source that asserts leaves of the flag groups. -/
theorem groupsTaken_fg : (groupsTaken src groups latch ticks s).gate.fg = groupsHeld src groups latch s := by
  have hnoted := sourceNoted_fg src ticks s
  rw [groupsTaken]
  split
  · rw [modGate_gate, hnoted]
    rfl
  · simp only [raise_frame, modGate_gate, hnoted]
    rfl

/-- Entering its groups a source changes the gates, the lanes and the events alone. -/
theorem groupsTaken_only :
    Frame [.events, .board, .laneA, .laneB, .gate] s (groupsTaken src groups latch ticks s) := by
  have hheld {f : GateState → GateState} :
      Frame [.events, .board, .laneA, .laneB, .gate] s (modGate f (sourceNoted src ticks s)) :=
    ((sourceNoted_only src ticks s).mono (by simp)).comp ((modGate_only _ _).mono (by simp))
  rw [groupsTaken]
  split
  · exact hheld
  · exact (hheld.comp ((raise_only _ _ _).mono (by simp))).comp ((raise_only _ _ _).mono (by simp))

/-- A source that makes a group active raises FLAG_GROUP in both lanes (R229). -/
theorem groupsTaken_latched (h : newGroups groups s ≠ []) :
    Latched (.pwm .a) 5 (groupsTaken src groups latch ticks s) ∧
      Latched (.pwm .b) 5 (groupsTaken src groups latch ticks s) := by
  rw [groupsTaken, if_neg (by simpa using h)]
  exact ⟨latched_raise _ _ _ (by omega), latched_raise_other _ _ _ _ _ (by omega) (latched_raise _ _ _ (by omega))⟩

end

/-- The groups that are put take the number; the others keep theirs. -/
theorem foldl_put_getElem {α : Type} {n : Nat} (ks : List Nat) (x : α) (v : Vector α n) (j : Fin n) :
    (ks.foldl (fun f k => put' f k x) v)[j] = if j.val ∈ ks then x else v[j] := by
  induction ks generalizing v with
  | nil => rfl
  | cons k ks ih =>
    rw [List.foldl_cons, ih]
    by_cases hks : j.val ∈ ks
    · simp [hks]
    · by_cases hk : j.val = k
      · subst hk
        simp [hks, put']
      · rw [put_getElem_other v k x j hk]
        simp [hks, hk]

/-- The groups of a source that were not active. -/
theorem mem_newGroups {groups k : Nat} {s : State} (hk : k < 4) :
    k ∈ newGroups groups s ↔ groups / 2 ^ k % 2 = 1 ∧ groupActive s k = false := by
  simp [newGroups, hk]

/-- A source that has asserted is active, and the inputs' health stays. -/
theorem setSource_assert_active (src : Nat) (ticks : Long) (s : State) :
    src ∈ (setSourceAt src true ticks s).gate.fg.active ∧
      (setSourceAt src true ticks s).gate.fg.healthy = s.gate.fg.healthy := by
  by_cases h : src ∈ s.gate.fg.active
  · rw [setSource_same (List.contains_iff_mem.mpr h)]
    exact ⟨h, rfl⟩
  · have htrip (b : Bool) (t : State) : (when b protectionTrip t).gate = t.gate :=
      when_gate _ _ _ (protectionTrip_only t .gate (by simp))
    cases he : srcEntry src s with
    | none =>
      rw [setSource_assert_none h he, htrip, sourceNoted_fg]
      exact ⟨List.mem_append_right _ (List.mem_singleton_self _), rfl⟩
    | some e =>
      obtain ⟨groups, latch, trip⟩ := e
      rw [setSource_assert h he, applyBlocks_fg, htrip, groupsTaken_fg]
      exact ⟨List.mem_append_right _ (List.mem_singleton_self _), rfl⟩

/-- A source that has cleared is not active; the latches and the inputs' health stay, and the gates alone change. -/
theorem setSource_clear_effect (src : Nat) (ticks : Long) (s : State) :
    src ∉ (setSourceAt src false ticks s).gate.fg.active ∧
      (setSourceAt src false ticks s).gate.fg.latched = s.gate.fg.latched ∧
      (setSourceAt src false ticks s).gate.fg.first = s.gate.fg.first ∧
      (setSourceAt src false ticks s).gate.fg.healthy = s.gate.fg.healthy ∧
      Frame [.gate] s (setSourceAt src false ticks s) := by
  by_cases h : src ∈ s.gate.fg.active
  · rw [setSource_clear h, settleGates_fg]
    exact ⟨by simp, rfl, rfl, rfl, (modGate_only _ s).comp (settleGates_only _)⟩
  · rw [setSource_same (by simpa using h)]
    exact ⟨h, rfl, rfl, rfl, Frame.refl _ s⟩

/-! ### Blocks reach the generators (R227, R228) -/

/-- A generator that is blocked keeps both sides off. -/
def Blocked (x : GenState) : Prop := x.block ≠ 0 ∧ x.hOff = true ∧ x.lOff = true

/-- A generator becomes blocked for a reason that is not 0. -/
theorem blockGen_blocked {why : Fin 4} (h : why ≠ 0) (now : Nat) (x : GenState) : Blocked (blockGen why now x) :=
  ⟨h, rfl, rfl⟩

/-- An active group holds the generators of its mask. -/
theorem mem_holdsGen {s : State} {g k : Nat} (hk : k < 4) (ha : groupActive s k = true)
    (hm : u16 (recD s 0x50 0) (20 + 4 * k) / 2 ^ g % 2 = 1) : k ∈ holdsGen s g := by
  simp [holdsGen, hk, ha, hm]

/-- A generator that a group holds is blocked for some reason. -/
theorem blockReason_ne_zero {s : State} {g : Fin 16} (h : holdsGen s g.val ≠ []) : blockReason s g ≠ 0 := by
  have hne : (holdsGen s g.val).isEmpty = false := by simpa using h
  rw [blockReason, hne]
  split
  · decide
  · split
    · decide
    · decide

/-- A generator of a lane that is changed. -/
theorem modGen_self (l : Lane) (g : Fin 16) (f : GenState → GenState) (s : State) :
    ((modGen l g f s).lane l).pwm.gen[g] = f (s.lane l).pwm.gen[g] := by
  rw [modGen, setLane_same]
  exact modAt_getElem_self _ _ _

/-- The generators that are not changed. -/
theorem modGen_other {l k : Lane} {g h : Fin 16} (hne : ¬ (k = l ∧ h = g)) (f : GenState → GenState) (s : State) :
    ((modGen l g f s).lane k).pwm.gen[h] = (s.lane k).pwm.gen[h] := by
  by_cases hl : k = l
  · subst hl
    rw [modGen, setLane_same]
    exact modAt_getElem_other _ _ _ _ fun e => hne ⟨rfl, e⟩
  · refine (modGen_only l g f s).lane_keeps (fun x => x.pwm.gen[h]) (fun _ => rfl) fun hmem => hl ?_
    cases k <;> cases l <;> simp_all [lanePart]

/-- A generator of a lane is blocked where there is a reason to (R227). -/
def blockWhereHeld (l : Lane) (g : Fin 16) (t : State) : State :=
  if blockReason t g = 0 then t else modGen l g (blockGen (blockReason t g) t.now) t

/-- Blocks begin generator by generator; then the tumblers and the gates follow. -/
theorem applyBlocks_eq (s : State) : applyBlocks s =
    settleGates (settleTumblers (foldS lanes (fun l => foldS (idx 16) (blockWhereHeld l)) s)) := rfl

/-- Only the lanes change. -/
theorem blockWhereHeld_only (l : Lane) (g : Fin 16) (s : State) : Frame [.laneA, .laneB] s (blockWhereHeld l g s) := by
  rw [blockWhereHeld]
  split
  · exact Frame.refl _ s
  · exact (modGen_only l g _ s).mono (by cases l <;> simp [lanePart])

/-- A generator stays blocked while blocks begin. -/
theorem blockWhereHeld_keeps (l k : Lane) (g h : Fin 16) (s : State) (hb : Blocked (s.lane k).pwm.gen[h]) :
    Blocked ((blockWhereHeld l g s).lane k).pwm.gen[h] := by
  rw [blockWhereHeld]
  split
  · exact hb
  · rename_i hwhy
    by_cases he : k = l ∧ h = g
    · obtain ⟨rfl, rfl⟩ := he
      rw [modGen_self]
      exact blockGen_blocked hwhy _ _
    · rw [modGen_other he]
      exact hb

/-- A generator with a reason is blocked. -/
theorem blockWhereHeld_blocked (l : Lane) (g : Fin 16) (s : State) (h : blockReason s g ≠ 0) :
    Blocked ((blockWhereHeld l g s).lane l).pwm.gen[g] := by
  rw [blockWhereHeld, if_neg h, modGen_self]
  exact blockGen_blocked h _ _

/-- The generators that an active group holds are blocked at once, in both lanes (R227, R228). -/
theorem applyBlocks_blocked {s : State} {k : Nat} (hk : k < 4) (ha : groupActive s k = true) (l : Lane) (g : Fin 16)
    (hm : u16 (recD s 0x50 0) (20 + 4 * k) / 2 ^ g.val % 2 = 1) : Blocked ((applyBlocks s).lane l).pwm.gen[g] := by
  have hheld (t : State) (ht : Frame [.laneA, .laneB] s t) : blockReason t g ≠ 0 := by
    have hkey : t.key = s.key := ht .key (by simp)
    have hgate : t.gate.fg = s.gate.fg := congrArg GateState.fg (ht .gate (by simp))
    refine blockReason_ne_zero (List.ne_nil_of_mem (mem_holdsGen hk ?_ ?_))
    · rw [groupActive_congr hkey hgate, ha]
    · rw [recD_of_key hkey, hm]
  have hafter (t : State) : (settleGates (settleTumblers t)).lane l |>.pwm.gen[g] = (t.lane l).pwm.gen[g] :=
    (((settleTumblers_only t).mono (by simp)).comp ((settleGates_only _).mono (by simp)) :
      Frame [.gate, .claim] t _).lane_keeps (fun x => x.pwm.gen[g]) (fun _ => rfl) (by cases l <;> simp [lanePart])
  have honly (k : Lane) (t : State) : Frame [.laneA, .laneB] t (foldS (idx 16) (blockWhereHeld k) t) :=
    Frame.foldS _ _ t fun h u => blockWhereHeld_only k h u
  rw [applyBlocks_eq, hafter]
  refine foldS_establishes (fun t => Blocked (t.lane l).pwm.gen[g]) (Frame [.laneA, .laneB] s) l lanes _ s
    (fun k t ht => ht.comp (honly k t)) (fun k t hb => foldS_invariant _ _ (fun h u => blockWhereHeld_keeps k l h g u) hb)
    (fun t ht => ?_) (by cases l <;> simp [lanes]) (Frame.refl _ s)
  exact foldS_establishes (fun t => Blocked (t.lane l).pwm.gen[g]) (Frame [.laneA, .laneB] s) g (idx 16) _ t
    (fun h u hu => hu.comp (blockWhereHeld_only l h u)) (fun h u => blockWhereHeld_keeps l l h g u)
    (fun u hu => blockWhereHeld_blocked l g u (hheld u hu)) (List.mem_finRange g) ht

/-! ### FG_CLR (R229) -/

/-- A fold of changes that do nothing. -/
theorem foldS_of_idle {α : Type} {xs : List α} {f : α → State → State} (h : ∀ x ∈ xs, ∀ t, f x t = t) (s : State) :
    foldS xs f s = s := by
  induction xs generalizing s with
  | nil => rfl
  | cons x xs ih =>
    refine (ih (fun y hy => h y (List.mem_cons_of_mem x hy)) (f x s)).trans (h x (List.mem_cons_self) s)

/-- A fold in which one change alone does something. -/
theorem foldS_single {α : Type} {a : α} {xs : List α} {f : α → State → State} (h : ∀ x ≠ a, ∀ t, f x t = t)
    (hx : xs.Nodup) (ha : a ∈ xs) (s : State) : foldS xs f s = f a s := by
  induction xs generalizing s with
  | nil => cases ha
  | cons x xs ih =>
    obtain ⟨hnot, hxs⟩ := List.nodup_cons.mp hx
    obtain rfl | ha := List.mem_cons.mp ha
    · exact foldS_of_idle (fun y hy => h y (ne_of_mem_of_not_mem hy hnot)) (f a s)
    · refine (ih hxs ha (f x s)).trans (congrArg (f a) (h x (ne_of_mem_of_not_mem ha hnot).symm s))

/-- The latch of a group is released. -/
def latchReleased (k : Nat) (s : State) : State :=
  settleGates (modGate (fun g => { g with fg := { g.fg with latched := putBit g.fg.latched k false } }) s)

/-- Of the flag groups a released latch changes its bit. -/
theorem latchReleased_fg (k : Nat) (s : State) :
    (latchReleased k s).gate.fg = { s.gate.fg with latched := putBit s.gate.fg.latched k false } := by
  rw [latchReleased, settleGates_fg]
  rfl

/-- Only the gates change. -/
theorem latchReleased_only (k : Nat) (s : State) : Frame [.gate] s (latchReleased k s) := by
  rw [latchReleased]
  exact (modGate_only _ s).comp (settleGates_only _)

/-- FG_CLR goes through the groups of its mask (R229). -/
theorem clearGroups_eq (mask : BitVec 4) (s : State) : clearGroups mask s = foldS (List.range 4) (fun k t =>
    if bit mask k && !groupLive t k then latchReleased k t else t) s := by
  have hlive (k : Nat) (t : State) : groupLive t k = t.gate.fg.active.any fun src => match srcEntry src t with
      | none => false
      | some e => e.1 / 2 ^ k % 2 == 1 := by
    rw [groupLive]
    congr 1
    funext src
    cases srcEntry src t <;> rfl
  simp only [hlive]
  rfl

/-- FG_CLR acts on the gate supervisor, whichever lane it is written in (R229, R232). -/
theorem exec_fgClr (l : Lane) (mask : BitVec 4) (s : State) : exec (.fgClr l mask) s = .next (clearGroups mask s) := rfl

/-- The bit of a group in its mask. -/
theorem bit_group (k : Fin 4) (j : Nat) : bit (BitVec.ofNat 4 (2 ^ k.val)) j = decide (j = k.val) := by
  rw [bit, BitVec.getLsbD_ofNat, Nat.testBit_two_pow, ← Bool.decide_and, decide_eq_decide]
  omega

/-- FG_CLR with the bit of one group releases its latch where no source of the group is active. -/
theorem clearGroups_single (k : Fin 4) (s : State) : clearGroups (BitVec.ofNat 4 (2 ^ k.val)) s =
    if groupLive s k.val then s else latchReleased k.val s := by
  have hstep (j : Nat) (t : State) : (if bit (BitVec.ofNat 4 (2 ^ k.val)) j && !groupLive t j then latchReleased j t else t) =
      if j = k.val ∧ groupLive t j = false then latchReleased j t else t := by
    simp only [bit_group, Bool.and_eq_true, decide_eq_true_eq, Bool.not_eq_true']
  rw [clearGroups_eq]
  refine (foldS_single (a := k.val) (fun j hj t => (hstep j t).trans (if_neg fun h => hj h.1)) List.nodup_range
    (List.mem_range.mpr k.isLt) s).trans ((hstep k.val s).trans ?_)
  cases groupLive s k.val <;> simp

/-- FG_CLR of one group acts on its latch alone, and only while no source of the group is active. -/
theorem fgClr_effect (l : Lane) (k : Fin 4) (s : State) : ∃ t, exec (.fgClr l (BitVec.ofNat 4 (2 ^ k.val))) s = .next t ∧
    t.gate.fg.active = s.gate.fg.active ∧ t.gate.fg.first = s.gate.fg.first ∧
    (groupLive s k.val = false → bit t.gate.fg.latched k.val = false) ∧
    (groupLive s k.val = true → t.gate.fg.latched = s.gate.fg.latched) ∧
    (∀ j : Fin 4, j ≠ k → bit t.gate.fg.latched j.val = bit s.gate.fg.latched j.val) ∧ Frame [.gate] s t := by
  rw [exec_fgClr, clearGroups_single]
  refine ⟨_, rfl, ?_⟩
  have hput (j : Fin 4) : bit (putBit s.gate.fg.latched k.val false) j.val =
      if j.val = k.val then false else bit s.gate.fg.latched j.val := bit_putBit _ _ _ _ k.isLt
  cases hlive : groupLive s k.val
  · rw [if_neg Bool.false_ne_true, latchReleased_fg]
    refine ⟨rfl, rfl, fun _ => (hput k).trans (if_pos rfl), nofun, fun j hj => (hput j).trans (if_neg (Fin.val_ne_of_ne hj)),
      latchReleased_only k.val s⟩
  · exact ⟨rfl, rfl, nofun, fun _ => rfl, fun _ _ => rfl, Frame.refl _ s⟩

/-! ### FLTIN (R28, R228) -/

/-- The filter time of a FLTIN input, in ns. -/
def fltinFilter (k : Fin 4) (s : State) : Nat := 25 * max 4 (u8 (recD s 0x50 0) (16 + k.val))

/-- An input that the filter passes as a fault asserts its source. -/
theorem exec_fltinChange_fault {k : Fin 4} {mv : Int} {hold : Nat} {s : State} (hf : fltinFilter k s ≤ hold) (hm : mv ≤ 800) :
    exec (.fltinChange k mv hold) s = .next (setSourceAt k.val true (fltinStamp hold s).1 (modGate (fun g => { g with
      fg := { g.fg with healthy := putBit g.fg.healthy k.val false } }) (fltinStamp hold s).2)) :=
  (if_neg (Nat.not_lt.mpr hf)).trans (if_pos hm)

/-- An input that the filter passes as healthy clears its source. -/
theorem exec_fltinChange_healthy {k : Fin 4} {mv : Int} {hold : Nat} {s : State} (hf : fltinFilter k s ≤ hold)
    (hm : 2000 ≤ mv) : exec (.fltinChange k mv hold) s = .next (setSource k.val false (modGate (fun g => { g with
      fg := { g.fg with healthy := putBit g.fg.healthy k.val true } }) s)) :=
  (if_neg (Nat.not_lt.mpr hf)).trans ((if_neg (by omega)).trans (if_pos hm))

/-- An input that has not stood long enough, or stands between the levels, changes nothing. -/
theorem exec_fltinChange_none {k : Fin 4} {mv : Int} {hold : Nat} {s : State}
    (h : hold < fltinFilter k s ∨ (800 < mv ∧ mv < 2000)) : exec (.fltinChange k mv hold) s = .next s := by
  by_cases hf : hold < fltinFilter k s
  · exact if_pos hf
  · obtain ⟨hlo, hhi⟩ := h.resolve_left hf
    exact (if_neg hf).trans ((if_neg (by omega)).trans (if_neg (by omega)))

/-! ### The statement -/

/-- A trip in M4 to M10 leads to M3 with cause 3 (R71). -/
theorem protectionTrip_begins {s : State} (hr : inRun s = true) (hb : s.mode.busy = false) :
    protectionTrip s = beginTransition ⟨3, 3, 1#32 <<< 5⟩ s := by
  simp [protectionTrip, trigger, Trigger.row, Trigger.rank, hr, hb]

/-- A change of a source whose condition has changed so. -/
theorem exec_faultSourceChange {src : Fin 104} {v : Bool} {s : State} (h : sourceHolds src.val s = v) :
    exec (.faultSourceChange src v) s = .next (setSource src.val v s) := by
  change execFaultSourceChange src v s = _
  rw [execFaultSourceChange, when, if_pos (decide_eq_true h)]

/-- A change of a source that nothing has changed. -/
theorem exec_faultSourceChange_none {src : Fin 104} {v : Bool} {s : State}
    (h : sourceHolds src.val s ≠ v ∨ s.gate.fg.active.contains src.val = v) :
    exec (.faultSourceChange src v) s = .next s := by
  by_cases hv : sourceHolds src.val s = v
  · exact (exec_faultSourceChange hv).trans (congrArg Host.Outcome.next (setSource_same (h.resolve_left (not_not.mpr hv)) _))
  · change execFaultSourceChange src v s = _
    rw [execFaultSourceChange, when, if_neg (by simpa using hv)]

/-- The bit of a group in the groups of an entry. -/
theorem bit_groups {n : Nat} (k : Fin 4) (h : n / 2 ^ k.val % 2 = 1) : bit (BitVec.ofNat 4 n) k.val = true := by
  rw [bit, BitVec.getLsbD_ofNat, decide_eq_true k.isLt, Bool.true_and, Nat.testBit_eq_decide_div_mod_eq, decide_eq_true h]

/-- The state in which the blocks of a source that asserts begin: it has entered its groups and tripped where it trips. -/
def sourceTaken (src groups : Nat) (latch trip : Bool) (s : State) : State :=
  when (trip || (decide (96 ≤ src) && decide (src ≤ 103))) protectionTrip (groupsTaken src groups latch s.raw s)

section
variable {src n : Nat} {latch trip : Bool} {s : State}

/-- A trip changes the mode controller alone. -/
theorem sourceTaken_of_groups : Frame [.mode] (groupsTaken src n latch s.raw s) (sourceTaken src n latch trip s) :=
  .when (protectionTrip_only _)

/-- Before its blocks begin a source changes neither the image nor anything else outside these parts. -/
theorem sourceTaken_only : Frame [.mode, .events, .board, .laneA, .laneB, .gate] s (sourceTaken src n latch trip s) :=
  ((groupsTaken_only src n latch s.raw s).mono (by simp)).comp (sourceTaken_of_groups.mono (by simp))

/-- The flag groups that the blocks of a source begin with. -/
theorem sourceTaken_fg : (sourceTaken src n latch trip s).gate.fg = groupsHeld src n latch s := by
  rw [sourceTaken_of_groups .gate (by simp), groupsTaken_fg]

/-- A source that trips leads from M4 to M10 to M3 with cause 3 (R71). -/
theorem sourceTaken_trips (hr : inRun s = true) (hb : s.mode.busy = false) :
    (sourceTaken src n latch true s).mode.busy = true ∧ (sourceTaken src n latch true s).mode.target = 3 ∧
      (sourceTaken src n latch true s).mode.nextCause = 3 := by
  have hmode : (groupsTaken src n latch s.raw s).mode = s.mode := groupsTaken_only src n latch s.raw s .mode (by simp)
  have hr' : inRun (groupsTaken src n latch s.raw s) = true := by
    rw [inRun, State.md, hmode]
    exact hr
  have htaken : sourceTaken src n latch true s = protectionTrip (groupsTaken src n latch s.raw s) := rfl
  rw [htaken, protectionTrip_begins hr' (hmode ▸ hb)]
  exact ⟨rfl, rfl, rfl⟩

/-- A group of an active source is active. -/
theorem groupActive_of_held {t : State} {k : Nat} (hkey : t.key = s.key) (hfg : t.gate.fg = groupsHeld src n latch s)
    (he : srcEntry src s = some (n, latch, trip)) (hn : n / 2 ^ k % 2 = 1) : groupActive t k = true := by
  have hact : src ∈ t.gate.fg.active := by
    rw [hfg]
    exact List.mem_append_right _ (List.mem_singleton_self src)
  have hlive : groupLive t k = true :=
    groupLive_iff.mpr ⟨src, hact, (n, latch, trip), (srcEntry_of_key hkey src).trans he, hn⟩
  rw [groupActive_eq, hlive, Bool.or_true]

variable (hna : src ∉ s.gate.fg.active) (he : srcEntry src s = some (n, latch, trip))
include hna he

/-- A source that asserts enters its groups, and their blocks begin. -/
theorem setSource_eq : setSource src true s = applyBlocks (sourceTaken src n latch trip s) := setSource_assert hna he s.raw

/-- The flag groups after a source has asserted. -/
theorem setSource_fg : (setSource src true s).gate.fg = groupsHeld src n latch s := by
  rw [setSource_eq hna he, applyBlocks_fg, sourceTaken_fg]

/-- A group of the source is active. -/
theorem setSource_groupActive {k : Nat} (hn : n / 2 ^ k % 2 = 1) : groupActive (setSource src true s) k = true :=
  groupActive_of_held (setSource_only src true s .key (by simp)) (setSource_fg hna he) he hn

/-- A group that the source makes active raises FLAG_GROUP in both lanes. -/
theorem setSource_latched {k : Nat} (hk : k < 4) (hn : n / 2 ^ k % 2 = 1) (hidle : groupActive s k = false) :
    Latched (.pwm .a) 5 (setSource src true s) ∧ Latched (.pwm .b) 5 (setSource src true s) := by
  obtain ⟨ha, hb⟩ := groupsTaken_latched src n latch s.raw s (List.ne_nil_of_mem ((mem_newGroups hk).mpr ⟨hn, hidle⟩))
  have hev : (setSource src true s).events = (groupsTaken src n latch s.raw s).events := by
    rw [setSource_eq hna he, applyBlocks_only _ .events (by simp), sourceTaken_of_groups .events (by simp)]
  exact ⟨latched_of_events hev ha, latched_of_events hev hb⟩

/-- The generators of the source's groups are blocked. -/
theorem setSource_blocked {k : Nat} (hk : k < 4) (hn : n / 2 ^ k % 2 = 1) (l : Lane) (g : Fin 16)
    (hg : u16 (recD s 0x50 0) (20 + 4 * k) / 2 ^ g.val % 2 = 1) :
    Blocked ((setSource src true s).lane l).pwm.gen[g] := by
  have hkey : (sourceTaken src n latch trip s).key = s.key := sourceTaken_only .key (by simp)
  rw [setSource_eq hna he]
  exact applyBlocks_blocked hk (groupActive_of_held hkey sourceTaken_fg he hn) l g (by rw [recD_of_key hkey, hg])

/-- The mode controller as the source's trip leaves it. -/
theorem setSource_mode : (setSource src true s).mode = (sourceTaken src n latch trip s).mode := by
  rw [setSource_eq hna he, applyBlocks_only _ .mode (by simp)]

end

/-- The source that first held each group that it has made active. -/
theorem groupsHeld_first {src n : Nat} {latch : Bool} {s : State} (k : Fin 4) (hn : n / 2 ^ k.val % 2 = 1) :
    (groupsHeld src n latch s).first[k] = if groupActive s k.val = false then BitVec.ofNat 8 src else s.gate.fg.first[k] := by
  refine (foldl_put_getElem _ _ _ k).trans ?_
  simp only [mem_newGroups k.isLt, hn, true_and]

/-- Settles O37: a source that asserts enters its groups, and every generator of an active group has a reason to be blocked when
the blocks are gone through; one that clears leaves the latches, which FG_CLR releases group by group; FLTIN asserts and clears
its source. -/
theorem faultSourcesHoldTheirGroups : Obligations.FaultSourcesHoldTheirGroups := by
  intro s src k
  refine ⟨fun h => exec_faultSourceChange_none (.inr (List.contains_iff_mem.mpr h)),
    fun h => exec_faultSourceChange_none (.inr (by simpa using h)), fun v h => exec_faultSourceChange_none (.inl h),
    fun h hs => ?_, fun n latch trip hna hs he hn => ?_, fun l => ?_, fun mv hold => ⟨exec_fltinChange_none,
      fun hf hm => ?_, fun hf hm => ?_⟩⟩
  · obtain ⟨hact, hlat, hfirst, -, hframe⟩ := setSource_clear_effect src.val s.raw s
    exact ⟨_, exec_faultSourceChange hs, hact, hlat, hfirst, hframe⟩
  · have hfg := setSource_fg hna he
    refine ⟨_, exec_faultSourceChange hs, by rw [hfg]; rfl, setSource_groupActive hna he hn, fun hl => ?_, fun hl => ?_,
      fun hidle => ⟨?_, setSource_latched hna he k.isLt hn hidle⟩, fun hheld => ?_,
      fun l g => setSource_blocked hna he k.isLt hn l g, fun ht hr hb => ?_⟩
    · rw [hfg, groupsHeld, hl, if_pos rfl, bit, BitVec.getLsbD_or]
      exact (congrArg _ (bit_groups k hn)).trans (Bool.or_true _)
    · rw [hfg, groupsHeld, hl, if_neg Bool.false_ne_true]
    · rw [hfg, groupsHeld_first k hn, if_pos hidle]
    · rw [hfg, groupsHeld_first k hn, if_neg (by simp [hheld])]
    · subst ht
      rw [setSource_mode hna he]
      exact sourceTaken_trips hr hb
  · obtain ⟨t, hex, hact, hfirst, hoff, hon, hother, hframe⟩ := fgClr_effect l k s
    refine ⟨t, hex, hact, hfirst, fun h => hoff ?_, fun h => hon (groupLive_iff.mpr h), hother, hframe⟩
    rw [← Bool.not_eq_true, groupLive_iff]
    rintro ⟨m, hm, e, hme, hbit⟩
    exact absurd (h m hm e hme) (by rw [hbit]; exact Nat.one_ne_zero)
  · obtain ⟨hact, hhealth⟩ := setSource_assert_active k.val (fltinStamp hold s).1 (modGate (fun g => { g with
      fg := { g.fg with healthy := putBit g.fg.healthy k.val false } }) (fltinStamp hold s).2)
    refine ⟨_, exec_fltinChange_fault hf hm, hact, ?_⟩
    rw [hhealth]
    exact (bit_putBit _ _ _ _ k.isLt).trans (if_pos rfl)
  · obtain ⟨hact, hlat, -, hhealth, hframe⟩ := setSource_clear_effect k.val s.raw (modGate (fun g => { g with
      fg := { g.fg with healthy := putBit g.fg.healthy k.val true } }) s)
    refine ⟨_, exec_fltinChange_healthy hf hm, hact, ?_, hlat, (modGate_only _ s).comp hframe⟩
    exact (congrArg (bit · k.val) hhealth).trans ((bit_putBit _ _ _ _ k.isLt).trans (if_pos rfl))

end Sys2Proof.Machine
end

section
/-! PROOFS. The start of the module: from VBUS rising through Keycheck (R29, R70, R94, R95, R397). -/

namespace Sys2Proof.Machine

/-! ### A cold start (R29, R70) -/

/-- VBUS below 26 V starts nothing; from 26 V on an unpowered module starts from its cold state into M1. -/
theorem coldStartEntersKeycheck : Claim.ColdStartEntersKeycheck := by
  intro s mv aux hoff
  refine ⟨fun hlow => congrArg Host.Outcome.next (if_pos (by simp [hlow])), fun hmv => ?_⟩
  have hrise : ¬ (s.power.powered || decide (mv < 26000)) = true := by simp [hoff, hmv]
  exact ⟨_, congrArg Host.Outcome.next (if_neg hrise), rfl, rfl, rfl, rfl, rfl, rfl, rfl, latched_raise _ _ _ (by omega),
    rfl, rfl, rfl, rfl, rfl, rfl, rfl, rfl, rfl⟩

/-! ### Keycheck (R94, R95) -/

/-- A page that is taken verifies. -/
theorem tryPages_ok {k : KeyState} {fw b : Bool} {ok : Fin 2 → Bool} {n : Fin 2} (h : tryPages k fw ok = some (n, b)) :
    ok n = true := by
  unfold tryPages at h
  dsimp only at h
  cases hp : firstPage k fw with
  | none => simp [hp] at h
  | some m =>
    simp only [hp] at h
    split at h
    · simp only [Option.some.injEq, Prod.mk.injEq] at h
      obtain ⟨rfl, -⟩ := h
      assumption
    · split at h
      · rename_i hok
        simp only [Option.some.injEq, Prod.mk.injEq] at h
        obtain ⟨rfl, -⟩ := h
        exact (Bool.and_eq_true_iff.mp hok).2
      · cases h

/-- A raised event leaves the keyring. -/
theorem raiseIf_key (c : Bool) (r : EvReg) (k : Nat) (s : State) : (raiseIf c r k s).key = s.key :=
  raiseIf_only c r k s .key (by simp)

/-- The module is held in M1 with KEY_FAIL, and of the keyring nothing else changes (R70, R95). -/
theorem holdM1_effect (s : State) : (holdM1 s).key = { s.key with heldM1 := true } ∧ Latched .key 0 (holdM1 s) :=
  ⟨rfl, latched_raise _ _ _ (by omega)⟩

/-- The firmware pages that Keycheck has tried. -/
def firmwareTried (fw0 fw1 : Bool) (s : State) : State :=
  let ok (n : Fin 2) : Bool := if n = 0 then fw0 else fw1
  raiseIf (triedOther s.key true ok) .key 1 (modKey (fun k => { k with
    triedFw := firstPage k true, fwFallback := fellBack (tryPages s.key true ok) }) s)

/-- Trying the firmware pages changes the keyring and its events alone. -/
theorem firmwareTried_only (fw0 fw1 : Bool) (s : State) : Frame [.key, .events, .board] s (firmwareTried fw0 fw1 s) :=
  ((modKey_only _ s).mono (by simp)).comp ((raiseIf_only _ _ _ _).mono (by simp))

/-- The firmware page that Keycheck has selected. -/
def firmwareTaken (f : Fin 2) (fw0 fw1 : Bool) (s : State) : State :=
  modKey (fun k => { k with runFw := some f, verified := upd k.verified (pageIdx true f) true }) (firmwareTried fw0 fw1 s)

section
variable {fw0 fw1 : Bool} {s : State} (hmd : s.md = 1) (hheld : s.key.heldM1 = false) (hbusy : s.mode.busy = false)
include hmd hheld hbusy

/-- Without a firmware page that verifies the module is held in M1. -/
theorem keycheck_of_no_firmware (h : tryPages s.key true (fun n => if n = 0 then fw0 else fw1) = none) :
    keycheck fw0 fw1 s = holdM1 (firmwareTried fw0 fw1 s) := by
  rw [keycheck, if_neg (by simp [hmd, hheld, hbusy])]
  simp only [firmwareTried, h]

/-- With one Keycheck goes on to the key pages. -/
theorem keycheck_of_firmware {f : Fin 2} {b : Bool}
    (h : tryPages s.key true (fun n => if n = 0 then fw0 else fw1) = some (f, b)) :
    keycheck fw0 fw1 s = keycheckKey (firmwareTaken f fw0 fw1 s) := by
  rw [keycheck, if_neg (by simp [hmd, hheld, hbusy])]
  simp only [firmwareTaken, firmwareTried, h]

end

/-- Of the keyring the selection of a firmware page changes what it notes of the pages. -/
theorem firmwareTaken_key (f : Fin 2) (fw0 fw1 : Bool) (s : State) : ∃ tried fell, (firmwareTaken f fw0 fw1 s).key =
    { s.key with
      triedFw := tried, fwFallback := fell, runFw := some f, verified := upd s.key.verified (pageIdx true f) true } := by
  refine ⟨firstPage s.key true, fellBack (tryPages s.key true fun n => if n = 0 then fw0 else fw1), ?_⟩
  simp only [firmwareTaken, firmwareTried, modKey_key, raiseIf_key]

/-- The key pages that Keycheck has tried, with what it reports of those that fail. -/
def keysTried (s : State) : State :=
  let ok (n : Fin 2) : Bool := (goodImage s.key n).isSome
  raiseIf (triedOther s.key false ok) .key 1 (modKey (fun k => { k with
    triedKey := firstPage k false, keyFallback := fellBack (tryPages s.key false ok) })
    (match firstPage s.key false with
      | none => s
      | some n => when (triedOther s.key false ok) (reportFail (otherPage n)) (reportFail n s)))

/-- A report of a failed page leaves the running pages. -/
theorem reportFail_runFw (n : Fin 2) (s : State) : (reportFail n s).key.runFw = s.key.runFw := by
  rw [reportFail]
  split
  · rfl
  · rfl

/-- A report that is made on a condition leaves them too. -/
theorem when_reportFail_runFw (c : Bool) (n : Fin 2) (s : State) : (when c (reportFail n) s).key.runFw = s.key.runFw :=
  when_keeps (fun t => t.key.runFw) c (reportFail n) s (reportFail_runFw n s)

/-- Trying the key pages leaves the running firmware page. -/
theorem keysTried_runFw (s : State) : (keysTried s).key.runFw = s.key.runFw := by
  cases hf : firstPage s.key false with
  | none => simp only [keysTried, hf, raiseIf_key, modKey_key]
  | some n => simp only [keysTried, hf, raiseIf_key, modKey_key, when_reportFail_runFw, reportFail_runFw]

/-- Trying the key pages changes the keyring and its events alone. -/
theorem keysTried_only (s : State) : Frame [.key, .events, .board] s (keysTried s) := by
  rw [keysTried]
  refine .under (raiseIf_only _ _ _ _) (by simp) (.under (modKey_only _ _) (by simp) ?_)
  split
  · exact Frame.refl _ s
  · exact ((reportFail_only _ s).mono (by simp)).comp (.when ((reportFail_only _ _).mono (by simp)))

/-- The records of a verified key page are taken. -/
def imageTaken (n : Fin 2) (g : ImgGood) (s : State) : State :=
  modKey (fun k => { k with
    verified := upd k.verified (pageIdx false n) true, runKey := some n, records := g.records, serial := g.serial,
    imgRollback := g.rollback, signer := BitVec.ofNat 4 g.slot }) (keysTried s)

/-- Without a key page that verifies the module is held in M1. -/
theorem keycheckKey_of_no_image {s : State} (h : tryPages s.key false (fun n => (goodImage s.key n).isSome) = none) :
    keycheckKey s = holdM1 (keysTried s) := by
  cases hf : firstPage s.key false with
  | none => simp only [keycheckKey, keysTried, h, hf]
  | some n => simp only [keycheckKey, keysTried, h, hf]

/-- With one its records are taken, and the start goes on in M2. -/
theorem keycheckKey_of_image {s : State} {n : Fin 2} {b : Bool} {g : ImgGood}
    (h : tryPages s.key false (fun n => (goodImage s.key n).isSome) = some (n, b)) (hg : goodImage s.key n = some g) :
    keycheckKey s = startMode 2 2 (fioStart (imageTaken n g s)) := by
  cases hf : firstPage s.key false with
  | none => simp only [keycheckKey, imageTaken, keysTried, h, hg, hf]
  | some m => simp only [keycheckKey, imageTaken, keysTried, h, hg, hf]

/-! ### The keyring that Keycheck reads -/

/-- The flash pages, key slots and counter by which a page is judged are the same. -/
structure SamePages (k k' : KeyState) : Prop where
  flash : k'.flash = k.flash
  slotState : k'.slotState = k.slotState
  slotDigest : k'.slotDigest = k.slotDigest
  rollback : k'.rollback = k.rollback

/-- The page that is tried first follows the flash. -/
theorem SamePages.firstPage {k k' : KeyState} (h : SamePages k k') (fw : Bool) : firstPage k' fw = firstPage k fw := by
  simp only [Machine.firstPage, h.flash]

/-- The page that is taken follows the flash and what verifies. -/
theorem SamePages.tryPages {k k' : KeyState} (h : SamePages k k') (fw : Bool) (ok : Fin 2 → Bool) :
    tryPages k' fw ok = tryPages k fw ok := by
  simp only [Machine.tryPages, h.firstPage, h.flash]

/-- A page verifies by the same key slots and counter. -/
theorem SamePages.goodImage {k k' : KeyState} (h : SamePages k k') (n : Fin 2) : goodImage k' n = goodImage k n := by
  simp only [Machine.goodImage, verifyImage, checkSignature, h.flash, h.slotState, h.slotDigest, h.rollback]

/-- The selection of a firmware page leaves what the key pages are judged by. -/
theorem firmwareTaken_samePages (f : Fin 2) (fw0 fw1 : Bool) (s : State) :
    SamePages s.key (firmwareTaken f fw0 fw1 s).key := by
  obtain ⟨tried, fell, hkey⟩ := firmwareTaken_key f fw0 fw1 s
  rw [hkey]
  exact ⟨rfl, rfl, rfl, rfl⟩

/-- The key page that is taken does not depend on the firmware page that was selected. -/
theorem tryPages_firmwareTaken (f : Fin 2) (fw0 fw1 : Bool) (s : State) :
    tryPages (firmwareTaken f fw0 fw1 s).key false (fun n => (goodImage (firmwareTaken f fw0 fw1 s).key n).isSome) =
      tryPages s.key false (fun n => (goodImage s.key n).isSome) := by
  have h := firmwareTaken_samePages f fw0 fw1 s
  simp only [h.tryPages, h.goodImage]

/-- The selection of a firmware page changes the keyring and its events alone, and that page runs. -/
theorem firmwareTaken_effect (f : Fin 2) (fw0 fw1 : Bool) (s : State) :
    (firmwareTaken f fw0 fw1 s).key.runFw = some f ∧ Frame [.key, .events, .board] s (firmwareTaken f fw0 fw1 s) :=
  ⟨rfl, (firmwareTried_only fw0 fw1 s).comp ((modKey_only _ _).mono (by simp))⟩

/-! ### The mode of a start -/

/-- The end of a session leaves the mode. -/
theorem endSession_mode (e : Bool) (s : State) : (endSession e s).mode = s.mode := endSession_only e s .mode (by simp)

/-- A step of a start moves the mode along. -/
theorem startMode_mode (m : BitVec 4) (cause : Byte) (s : State) :
    (startMode m cause s).mode = { s.mode with mode := m, prev := s.mode.mode, cause := cause } := by
  simp only [startMode, raise_frame, modMode_mode, endSession_mode]

/-- Of the keyring a step of a start ends the session. -/
theorem startMode_key (m : BitVec 4) (cause : Byte) (s : State) : (startMode m cause s).key =
    { s.key with session := false, owner := 0, safeAuth := false, idleLeft := 0 } := by
  simp only [startMode, raise_frame, modMode_frame, endSession, raiseIf_key, modKey_key]

/-- A step of a start raises MODE_CHANGE. -/
theorem startMode_latched (m : BitVec 4) (cause : Byte) (s : State) : Latched .mode 1 (startMode m cause s) :=
  latched_raise _ _ _ (by omega)

/-- The code of the present mode. -/
theorem mode_of_md {s : State} {n : Nat} (h : s.md = n) : s.mode.mode = BitVec.ofNat 4 n := by
  rw [← h, State.md, BitVec.ofNat_toNat, BitVec.setWidth_eq]

/-- The module is held in M1: KEY_FAIL, and the keyring and its events alone change. -/
theorem holdM1_after {s t : State} (hmd : s.md = 1) (h : Frame [.key, .events, .board] s t) :
    (holdM1 t).key.runFw = t.key.runFw ∧ (holdM1 t).md = 1 ∧ (holdM1 t).key.heldM1 = true ∧ Latched .key 0 (holdM1 t) ∧
      Frame [.key, .events, .board] s (holdM1 t) := by
  obtain ⟨hkey, hlatched⟩ := holdM1_effect t
  have hframe : Frame [.key, .events, .board] s (holdM1 t) := h.comp ((holdM1_only t).mono (by simp))
  have hmode : (holdM1 t).mode = s.mode := hframe .mode (by simp)
  refine ⟨by rw [hkey], ?_, congrArg KeyState.heldM1 hkey, hlatched, hframe⟩
  rw [State.md, hmode]
  exact hmd

/-- The keyring in which a start with a verified image goes on. -/
theorem imageStarted_key (n : Fin 2) (g : ImgGood) (s : State) : (startMode 2 2 (fioStart (imageTaken n g s))).key =
    { (keysTried s).key with
      verified := upd (keysTried s).key.verified (pageIdx false n) true, runKey := some n, records := g.records,
      serial := g.serial, imgRollback := g.rollback, signer := BitVec.ofNat 4 g.slot, session := false, owner := 0,
      safeAuth := false, idleLeft := 0 } := by
  simp only [startMode_key, fioStart, modFio_frame, imageTaken, modKey_key]

/-- The mode in which it goes on. -/
theorem imageStarted_mode (n : Fin 2) (g : ImgGood) (s : State) : (startMode 2 2 (fioStart (imageTaken n g s))).mode =
    { s.mode with mode := 2, prev := s.mode.mode, cause := 2 } := by
  have hmode : (keysTried s).mode = s.mode := keysTried_only s .mode (by simp)
  simp only [startMode_mode, fioStart, modFio_frame, imageTaken, modKey_frame, hmode]

/-- A verified image leads from M1 to M2 with its records. -/
theorem imageStarted_after {s t u : State} {n : Fin 2} {g : ImgGood} (hmd : s.md = 1)
    (h : Frame [.key, .events, .board] s t) (hu : u = startMode 2 2 (fioStart (imageTaken n g t))) :
    u.key.runFw = t.key.runFw ∧ Frame [.key, .mode, .fio, .events, .board] s u ∧ u.md = 2 ∧ u.mode.prev = 1 ∧
      u.mode.cause = 2 ∧ u.key.runKey = some n ∧ u.key.records = g.records ∧ u.key.serial = g.serial ∧
      u.key.imgRollback = g.rollback ∧ Latched .mode 1 u := by
  have htaken : Frame [.key, .events, .board] s (imageTaken n g t) :=
    (h.comp (keysTried_only t)).comp ((modKey_only _ _).mono (by simp))
  have hfio : Frame [.key, .mode, .fio, .events, .board] s (fioStart (imageTaken n g t)) :=
    (htaken.mono (by simp)).comp ((fioStart_only _).mono (by simp))
  have hkey := imageStarted_key n g t
  have hmode := imageStarted_mode n g t
  rw [← hu] at hkey hmode
  refine ⟨?_, hu ▸ hfio.comp ((startMode_only _ _ _).mono (by simp)), ?_, ?_, ?_, ?_, ?_, ?_, ?_,
    hu ▸ startMode_latched _ _ _⟩
  · rw [hkey, keysTried_runFw]
  · rw [State.md, hmode]
    rfl
  · rw [hmode, h .mode (by simp)]
    exact mode_of_md hmd
  · rw [hmode]
  · rw [hkey]
  · rw [hkey]
  · rw [hkey]
  · rw [hkey]

/-- Keycheck holds the module in M1 where no firmware page or no key page verifies, and leads to M2 where one of each does. -/
theorem keycheckSelectsTheImage : Claim.KeycheckSelectsTheImage := by
  intro s fw0 fw1 hmd hheld hbusy
  refine ⟨fun h => ?_, fun f b h => ?_, congrArg Host.Outcome.next (if_pos (by simp))⟩
  · obtain ⟨-, hafter⟩ := holdM1_after hmd (firmwareTried_only fw0 fw1 s)
    exact ⟨_, congrArg Host.Outcome.next (keycheck_of_no_firmware hmd hheld hbusy h), hafter⟩
  · obtain ⟨hrun, hframe⟩ := firmwareTaken_effect f fw0 fw1 s
    have hex : exec (.keycheckDone fw0 fw1) s = .next (keycheckKey (firmwareTaken f fw0 fw1 s)) :=
      congrArg Host.Outcome.next (keycheck_of_firmware hmd hheld hbusy h)
    have htry := tryPages_firmwareTaken f fw0 fw1 s
    cases hp : tryPages s.key false (fun n => (goodImage s.key n).isSome) with
    | none =>
      obtain ⟨hfw, hmd', hheld', hlatched, hframe'⟩ :=
        holdM1_after hmd (hframe.comp (keysTried_only (firmwareTaken f fw0 fw1 s)))
      rw [keycheckKey_of_no_image (htry.trans hp)] at hex
      refine ⟨_, hex, hfw.trans ((keysTried_runFw _).trans hrun), hframe'.mono (by simp), ?_⟩
      simp only [Option.bind_none]
      exact ⟨hmd', hheld', hlatched, hframe'⟩
    | some p =>
      obtain ⟨n, fell⟩ := p
      obtain ⟨g, hg⟩ := Option.isSome_iff_exists.mp (tryPages_ok hp)
      have hg' : goodImage (firmwareTaken f fw0 fw1 s).key n = some g :=
        ((firmwareTaken_samePages f fw0 fw1 s).goodImage n).trans hg
      obtain ⟨hfw, hframe', hrest⟩ := imageStarted_after (n := n) (g := g) hmd hframe rfl
      rw [keycheckKey_of_image (htry.trans hp) hg'] at hex
      refine ⟨_, hex, hfw.trans hrun, hframe', ?_⟩
      simp only [Option.bind_some, hg, Option.map_some]
      exact hrest

end Sys2Proof.Machine
end

section
/-! PROOFS. The end of a start (R70, R77, R397): the records applied leave the mode, and what follows the entry into M3 or M11
keeps it with its events. -/

namespace Sys2Proof.Machine

/-! ### What triggers leave of the mode -/

/-- The mode controller without its transition and the triggers that wait. -/
def modeCodes (m : ModeState) : ModeState := { m with busy := false, target := 0, nextCause := 0, nextEvt := 0, held := [] }

/-- Present mode, previous mode and cause are no part of a transition. -/
theorem codes_of_modeCodes {m m' : ModeState} (h : modeCodes m = modeCodes m') :
    m.mode = m'.mode ∧ m.prev = m'.prev ∧ m.cause = m'.cause :=
  have field {β : Type} (f : ModeState → β) : f (modeCodes m) = f (modeCodes m') := congrArg f h
  ⟨field (·.mode), field (·.prev), field (·.cause)⟩

/-- A frame without the mode controller. -/
theorem Frame.modeCodes_eq {ps : List Part} {s t : State} (h : Frame ps s t) (hp : .mode ∉ ps) :
    modeCodes t.mode = modeCodes s.mode := congrArg modeCodes (h _ hp)

/-- A trigger starts a transition or waits. -/
theorem trigger_modeCodes (x : Trigger) (s : State) : modeCodes (trigger x s).mode = modeCodes s.mode := by
  obtain h | ⟨r, -, h⟩ | ⟨-, h⟩ := trigger_cases x s
  · rw [h]
  · rw [h]
    rfl
  · rw [h]
    rfl

/-- A trip on a condition. -/
theorem when_protectionTrip_modeCodes (c : Bool) (s : State) :
    modeCodes (when c protectionTrip s).mode = modeCodes s.mode :=
  when_keeps (fun t => modeCodes t.mode) c protectionTrip s (trigger_modeCodes _ s)

/-- A fault source trips at most. -/
theorem setSourceAt_modeCodes (src : Nat) (on : Bool) (ticks : Long) (s : State) :
    modeCodes (setSourceAt src on ticks s).mode = modeCodes s.mode := by
  cases on with
  | false =>
    obtain ⟨-, -, -, -, hframe⟩ := setSource_clear_effect src ticks s
    exact hframe.modeCodes_eq (by simp)
  | true =>
    by_cases h : src ∈ s.gate.fg.active
    · rw [setSource_same (List.contains_iff_mem.mpr h)]
    · cases he : srcEntry src s with
      | none =>
        rw [setSource_assert_none h he, when_protectionTrip_modeCodes]
        exact (sourceNoted_only src ticks s).modeCodes_eq (by simp)
      | some e =>
        obtain ⟨groups, latch, trip⟩ := e
        rw [setSource_assert h he, (applyBlocks_only _).modeCodes_eq (by simp), when_protectionTrip_modeCodes]
        exact (groupsTaken_only src groups latch ticks s).modeCodes_eq (by simp)

/-- A channel that changes its state trips at most. -/
theorem setChState_modeCodes (c : Fin 32) (st : Fin 7) (s : State) :
    modeCodes (setChState c st s).mode = modeCodes s.mode := by
  rw [setChState, setSource, setSourceAt_modeCodes, (modCh_only _ _ _).modeCodes_eq (by simp)]

/-- Channels that lose their gate power trip at most. -/
theorem gateOff_modeCodes (hb : Fin 16) (s : State) : modeCodes (gateOff hb s).mode = modeCodes s.mode := by
  rw [gateOff]
  refine foldS_keeps (fun t => modeCodes t.mode) _ _ s fun c t => ?_
  have hoff : modeCodes (modCh c (fun x => { x with lowPos := decide (c.val < 16) }) (cutGate c t)).mode = modeCodes t.mode :=
    ((cutGate_only c t).comp (modCh_only _ _ _)).modeCodes_eq (by simp)
  dsimp only
  split
  · rfl
  · split
    · exact hoff
    · rw [setChState_modeCodes, hoff]

/-- A change of the enables trips at most. -/
theorem setGpCtl_modeCodes (en : Half) (s : State) : modeCodes (setGpCtl en s).mode = modeCodes s.mode := by
  rw [setGpCtl, (startEnabled_only _ _).modeCodes_eq (by simp)]
  refine foldS_keeps (fun t => modeCodes t.mode) _ _ _ fun hb t => ?_
  split
  · exact gateOff_modeCodes hb t
  · rfl

/-- The power record trips at most. -/
theorem configPower_modeCodes (s : State) : modeCodes (configPower s).mode = modeCodes s.mode := by
  rw [configPower, (modPower_only _ _).modeCodes_eq (by simp), (refreshHupLow_only _).modeCodes_eq (by simp),
    setGpCtl_modeCodes]

/-- After the power record nothing that a start applies reaches the mode controller. -/
theorem configure_after_power (failed : List StartUnit) (s : State) :
    Frame [.free, .events, .board, .power, .clock, .mesh, .laneA, .laneB, .gate, .claim, .net, .timebase, .can]
      (configPower (configClock (wearStart s))) (configure failed s) := by
  unfold configure
  dsimp only
  refine .comp ?_ (.foldS _ _ _ fun p t => (canStart_only p _ t).mono (by simp))
  refine .under (netStart_only _) (by simp) (.under (timeStart_only _) (by simp) (.under (restoreRepairs_only _) (by simp) ?_))
  refine .comp (.comp ?_ (.when ((configLane_only .a _).mono (by simp)))) (.when ((configLane_only .b _).mono (by simp)))
  exact .under (configGate_only _) (by simp) (.under (configClaims_only _ _ _) (by simp) ((configMesh_only _).mono (by simp)))

/-- The records of the image leave the mode. -/
theorem configure_modeCodes (failed : List StartUnit) (s : State) :
    modeCodes (configure failed s).mode = modeCodes s.mode := by
  rw [(configure_after_power failed s).modeCodes_eq (by simp), configPower_modeCodes,
    (configClock_only _).modeCodes_eq (by simp), (wearStart_only s).modeCodes_eq (by simp)]

/-! ### Events that stay latched -/

/-- What is latched stays latched. -/
def EventsKept (s t : State) : Prop := ∀ (r : EvReg) (k : Nat), Latched r k s → Latched r k t

/-- One step that keeps what is latched after another. -/
theorem EventsKept.trans {s t u : State} (h : EventsKept s t) (h' : EventsKept t u) : EventsKept s u :=
  fun r k hk => h' r k (h r k hk)

/-- A frame without the event registers. -/
theorem Frame.eventsKept {ps : List Part} {s t : State} (h : Frame ps s t) (hp : .events ∉ ps) : EventsKept s t :=
  fun _ _ hk => latched_of_events (h _ hp) hk

/-- An event that is raised clears none. -/
theorem raise_eventsKept (q : EvReg) (j : Nat) (hj : j < 32) (s : State) : EventsKept s (raise q j s) :=
  fun r k hk => latched_raise_other r q k j s hj hk

/-- An event that is raised on a condition clears none. -/
theorem raiseIf_eventsKept (c : Bool) (q : EvReg) (j : Nat) (hj : j < 32) (s : State) : EventsKept s (raiseIf c q j s) := by
  cases c
  · exact fun _ _ hk => hk
  · exact raise_eventsKept q j hj s

/-- A function that commands its output clears no event. -/
theorem setFn_eventsKept (j : Fin 8) (b : Bool) (s : State) : EventsKept s (setFn j b s) := by
  have hdemand : EventsKept s (dqDemand j s) := by
    rw [dqDemand]
    split
    · exact ((modFio_only _ s).eventsKept (by simp)).trans (raise_eventsKept _ _ (by omega) _)
    · exact fun _ _ hk => hk
  rw [setFn]
  split
  · exact fun _ _ hk => hk
  · exact hdemand.trans ((modDq_only _ _ _).eventsKept (by simp))

/-- The functions command their outputs and clear no event. -/
theorem refreshFn_eventsKept (s : State) : EventsKept s (refreshFn s) := by
  intro r k hk
  rw [refreshFn]
  refine foldS_invariant (Latched r k) _ (fun j t ht => ?_) hk
  split
  · exact setFn_eventsKept j _ t r k ht
  · exact ht

/-- The judgement of the reduced diagnosis clears no event, starts a transition at most, and neither locks nor unlocks. -/
theorem judgeReduced_effect (s : State) : EventsKept s (judgeReduced s) ∧
    modeCodes (judgeReduced s).mode = modeCodes s.mode ∧ (judgeReduced s).plk.locked = s.plk.locked := by
  have hplk : Frame [.plk] s (modPlk (fun p => { p with reduced := reducedNow s }) s) := modPlk_only _ s
  have htrig (x : Trigger) (t : State) : (trigger x t).plk.locked = t.plk.locked :=
    congrArg PlkState.locked (trigger_only x t .plk (by simp))
  rw [judgeReduced]
  dsimp only
  split
  · exact ⟨fun _ _ hk => hk, rfl, rfl⟩
  · split
    · refine ⟨((hplk.eventsKept (by simp)).trans (raise_eventsKept _ _ (by omega) _)).trans
        ((trigger_only _ _).eventsKept (by simp)), ?_, ?_⟩
      · rw [trigger_modeCodes, (raise_only _ _ _).modeCodes_eq (by simp), hplk.modeCodes_eq (by simp)]
      · rw [htrig, raise_only _ _ _ .plk (by simp)]
        rfl
    · refine ⟨(hplk.eventsKept (by simp)).trans ((trigger_only _ _).eventsKept (by simp)), ?_, htrig _ _⟩
      rw [trigger_modeCodes, hplk.modeCodes_eq (by simp)]

/-- A demand clears no event, starts a transition at most, and locks. -/
theorem actDemand_effect (src at0 : Nat) (s : State) (h : s.plk.locked = false) : EventsKept s (actDemand src at0 s) ∧
    modeCodes (actDemand src at0 s).mode = modeCodes s.mode ∧ (actDemand src at0 s).plk.locked = true := by
  have hstop (t : State) : Frame [.events, .board, .gate] t
      (settleGates (raise .plk 0 (modGate (fun g => { g with allOff := true }) t))) :=
    (((modGate_only _ t).mono (by simp)).comp ((raise_only _ _ _).mono (by simp))).comp ((settleGates_only _).mono (by simp))
  have hkept (t : State) : EventsKept t
      (settleGates (raise .plk 0 (modGate (fun g => { g with allOff := true }) t))) :=
    (((modGate_only _ t).eventsKept (by simp)).trans (raise_eventsKept _ _ (by omega) _)).trans
      ((settleGates_only _).eventsKept (by simp))
  rw [actDemand, if_neg (by simp [h])]
  dsimp only
  refine ⟨?_, ?_, ?_⟩
  · exact ((((modPlk_only _ s).comp (modPlk_only _ _)).eventsKept (by simp)).trans (hkept _)).trans
      ((trigger_only _ _).eventsKept (by simp))
  · rw [trigger_modeCodes, (hstop _).modeCodes_eq (by simp), (modPlk_only _ _).modeCodes_eq (by simp),
      (modPlk_only _ _).modeCodes_eq (by simp)]
  · rw [trigger_only _ _ .plk (by simp), hstop _ .plk (by simp)]
    rfl

/-! ### The end of a start (R77, R397) -/

/-- What follows the first mode of a start up to its outputs: accesses are judged, the contexts' triggers are scheduled, the
blocks of the mode begin, the recorders are armed. -/
def startArmed (failed : List StartUnit) (s : State) : State :=
  raiseIslands (foldS (lanes.filter fun l => !failed.contains (.recorder l)) recArm
    (applyBlocks (foldS (idx 8) scheduleFirst (modMesh (fun m => { m with accOn := true }) s))))

/-- All that follows it: the functions command their outputs too, and the reduced diagnosis is judged. -/
def startSettled (failed : List StartUnit) (s : State) : State := judgeReduced (refreshFn (startArmed failed s))

/-- The state in which the first mode of a start is entered: the records applied, and what failed units leave. -/
def startConfigured (failed : List StartUnit) (bad : Bool) (s : State) : State :=
  foldS failed failUnit (plkStart bad s.mode.cold (configure failed s))

/-- The last step of a start. -/
theorem startDone_eq {failed : List StartUnit} {bad : Bool} {s : State} (hmd : s.md = 2)
    (hbad : (couplerLost failed || failed.any (safetyRelevant (startTicks (startElapse s)))) = bad) :
    startDone failed s = startSettled failed (enterFirst bad (startConfigured failed bad (startTicks (startElapse s)))) := by
  subst hbad
  rw [startDone, if_neg (by simp [hmd])]
  rfl

/-- Up to the outputs neither the mode nor its events nor the pulse lock change, and transfers are judged. -/
theorem startArmed_effect (failed : List StartUnit) (s : State) : (startArmed failed s).mesh.accOn = true ∧
    Frame [.mesh, .timebase, .laneA, .laneB, .gate, .claim, .free, .power] s (startArmed failed s) := by
  have hafter : Frame [.timebase, .laneA, .laneB, .gate, .claim, .free, .power]
      (modMesh (fun m => { m with accOn := true }) s) (startArmed failed s) := by
    rw [startArmed]
    refine .under (raiseIslands_only _) (by simp) (.comp (.under (applyBlocks_only _) (by simp) ?_)
      (.foldS _ _ _ fun l t => (recArm_only l t).mono (by cases l <;> simp [lanePart])))
    exact .foldS _ _ _ fun c t => (scheduleFirst_only c t).mono (by simp)
  refine ⟨?_, ((modMesh_only _ s).mono (by simp)).comp (hafter.mono (by simp))⟩
  rw [hafter .mesh (by simp)]
  rfl

/-- What follows the first mode of a start keeps its events, its mode and its lock, and lets transfers be judged. -/
theorem startSettled_effect (failed : List StartUnit) (s : State) : EventsKept s (startSettled failed s) ∧
    modeCodes (startSettled failed s).mode = modeCodes s.mode ∧
    (startSettled failed s).plk.locked = s.plk.locked ∧ (startSettled failed s).mesh.accOn = true := by
  obtain ⟨hacc, harmed⟩ := startArmed_effect failed s
  have hfn := refreshFn_only (startArmed failed s)
  obtain ⟨hkept, hcodes, hlocked⟩ := judgeReduced_effect (refreshFn (startArmed failed s))
  rw [startSettled]
  refine ⟨((harmed.eventsKept (by simp)).trans (refreshFn_eventsKept _)).trans hkept, ?_, ?_, ?_⟩
  · rw [hcodes, hfn.modeCodes_eq (by simp), harmed.modeCodes_eq (by simp)]
  · rw [hlocked, hfn .plk (by simp), harmed .plk (by simp)]
  · rw [judgeReduced_only _ .mesh (by simp), hfn .mesh (by simp), hacc]

/-- A step of a start keeps what is latched. -/
theorem startMode_eventsKept (m : BitVec 4) (cause : Byte) (s : State) : EventsKept s (startMode m cause s) := by
  have hend : EventsKept s (endSession true s) :=
    ((modKey_only _ s).eventsKept (by simp)).trans (raiseIf_eventsKept _ _ _ (by omega) _)
  exact (hend.trans ((modMode_only _ _).eventsKept (by simp))).trans (raise_eventsKept _ _ (by omega) _)

/-- The first mode of a start is entered: its code and cause, the mode it comes from, START_DONE and MODE_CHANGE. -/
structure FirstMode (m : BitVec 4) (cause : Byte) (s t : State) : Prop where
  done : Latched .mode 0 t
  change : Latched .mode 1 t
  mode : t.mode.mode = m
  prev : t.mode.prev = s.mode.mode
  cause : t.mode.cause = cause

/-- What keeps the events and the codes of the mode keeps the first mode. -/
theorem FirstMode.kept {m : BitVec 4} {cause : Byte} {s t u : State} (h : FirstMode m cause s t) (hev : EventsKept t u)
    (hcodes : modeCodes u.mode = modeCodes t.mode) : FirstMode m cause s u := by
  obtain ⟨hmode, hprev, hcause⟩ := codes_of_modeCodes hcodes
  exact ⟨hev _ _ h.done, hev _ _ h.change, hmode.trans h.mode, hprev.trans h.prev, hcause.trans h.cause⟩

/-- The start's time is noted, with START_DONE. -/
def startNoted (s : State) : State :=
  raise .mode 0 (modMode (fun m => { m with startTime := wd ((s.now - m.startAt) / 4000) }) s)

/-- The first mode is entered as the start ends. -/
theorem startMode_firstMode (m : BitVec 4) (cause : Byte) (s : State) :
    FirstMode m cause s (startMode m cause (startNoted s)) ∧ (startMode m cause (startNoted s)).plk = s.plk := by
  have hnoted : (startNoted s).mode.mode = s.mode.mode := by
    rw [startNoted, raise_only _ _ _ .mode (by simp)]
    rfl
  have hplk : (startNoted s).plk = s.plk := by
    rw [startNoted, raise_only _ _ _ .plk (by simp)]
    rfl
  have hmode := startMode_mode m cause (startNoted s)
  refine ⟨⟨startMode_eventsKept m cause _ _ _ (latched_raise _ _ _ (by omega)), startMode_latched m cause _, ?_, ?_, ?_⟩,
    (startMode_only m cause _ .plk (by simp)).trans hplk⟩
  · rw [hmode]
  · rw [hmode, hnoted]
  · rw [hmode]

/-- Where no safety-relevant unit failed a start ends in M3. -/
theorem enterFirst_blocked (s : State) : FirstMode 3 0 s (enterFirst false s) := (startMode_firstMode 3 0 s).1

/-- Where one failed it ends in M11, locked. -/
theorem enterFirst_locked {s : State} (h : s.plk.locked = false) :
    FirstMode 11 4 s (enterFirst true s) ∧ (enterFirst true s).plk.locked = true := by
  obtain ⟨hfirst, hplk⟩ := startMode_firstMode 11 4 s
  obtain ⟨hev, hcodes, hlocked⟩ := actDemand_effect 8 s.now (startMode 11 4 (startNoted s)) (by rw [hplk, h])
  exact ⟨hfirst.kept hev hcodes, hlocked⟩

/-- The mode before the first one is that in which the start's last step began. -/
theorem startConfigured_mode {failed : List StartUnit} {bad : Bool} {s : State}
    (hunits : ∀ t, (foldS failed failUnit t).mode = t.mode) :
    (startConfigured failed bad (startTicks (startElapse s))).mode.mode = s.mode.mode := by
  have hcodes : modeCodes (startConfigured failed bad (startTicks (startElapse s))).mode = modeCodes s.mode := by
    rw [startConfigured, hunits, (plkStart_only _ _ _).modeCodes_eq (by simp), configure_modeCodes,
      (startTicks_only _).modeCodes_eq (by simp), (startElapse_only s).modeCodes_eq (by simp)]
  exact (codes_of_modeCodes hcodes).1

/-- The last step of a start leads from M2 to M3, or to M11 where the field-I/O die failed. -/
theorem startEndsBlockedOrLocked : Claim.StartEndsBlockedOrLocked := by
  intro s hmd _
  have hM2 : s.mode.mode = 2 := mode_of_md hmd
  refine ⟨?_, fun _ => ?_⟩
  · have hex : exec (.startDone []) s = .next (startSettled [] (enterFirst false (startConfigured [] false
        (startTicks (startElapse s))))) := congrArg Host.Outcome.next (startDone_eq hmd rfl)
    have hframe := startDone_only [] s
    rw [startDone_eq (bad := false) hmd rfl] at hframe
    obtain ⟨hev, hcodes, -, hacc⟩ := startSettled_effect [] (enterFirst false (startConfigured [] false
      (startTicks (startElapse s))))
    have hfirst := (enterFirst_blocked _).kept hev hcodes
    have hprev := hfirst.prev.trans ((startConfigured_mode fun _ => rfl).trans hM2)
    exact ⟨_, hex, congrArg BitVec.toNat hfirst.mode, hprev, hfirst.cause, hfirst.done, hfirst.change, hacc,
      hframe .queue (by simp), hframe .sram (by simp)⟩
  · have hex : exec (.startDone [.fieldIo]) s = .next (startSettled [.fieldIo] (enterFirst true (startConfigured [.fieldIo] true
        (startTicks (startElapse s))))) := congrArg Host.Outcome.next (startDone_eq hmd rfl)
    obtain ⟨hev, hcodes, hlocked, -⟩ := startSettled_effect [.fieldIo] (enterFirst true (startConfigured [.fieldIo] true
      (startTicks (startElapse s))))
    obtain ⟨hfirst, hlock⟩ := enterFirst_locked (s := startConfigured [.fieldIo] true (startTicks (startElapse s))) rfl
    have hfirst := hfirst.kept hev hcodes
    have hprev := hfirst.prev.trans ((startConfigured_mode fun _ => rfl).trans hM2)
    exact ⟨_, hex, congrArg BitVec.toNat hfirst.mode, hprev, hfirst.cause, hfirst.done, hlocked.trans hlock⟩

/-- Settles O17: VBUS leads from the cold state into M1, Keycheck takes the pages that verify whatever it notes of them, and the
last step of a start changes the mode only where it enters its first one. -/
theorem startsRunToBlockedOrLocked : Obligations.StartsRunToBlockedOrLocked :=
  ⟨coldStartEntersKeycheck, keycheckSelectsTheImage, startEndsBlockedOrLocked⟩

end Sys2Proof.Machine
end

section
/-! PROOFS. Clock synthesis: what a change of one PLL or of one island's clock leaves of the rest, and what a walk over the
PLLs or the islands makes of each of them (R51, R52, R56, R57, R61, R395). -/

namespace Sys2Proof.Machine

/-! ### One PLL, one island's clock -/

/-- The PLL that is changed. -/
@[simp] theorem pllOf_modPll_self (p : Pll) (f : PllState → PllState) (s : State) : pllOf (modPll p f s) p = f (pllOf s p) := by
  cases p <;> rfl

/-- Changing a PLL leaves every other one alone. -/
theorem pllOf_modPll_other {p q : Pll} (h : q ≠ p) (f : PllState → PllState) (s : State) :
    pllOf (modPll p f s) q = pllOf s q := by
  cases p <;> cases q <;> simp [pllOf, modPll] at h ⊢

/-- The PLLs belong to the clocks. -/
theorem pllOf_of_clock {s t : State} (h : t.clock = s.clock) (p : Pll) : pllOf t p = pllOf s p := by
  cases p <;> simp only [pllOf, h]

/-- A PLL is the same where a frame leaves the clocks. -/
theorem Frame.pllOf_eq {ps : List Part} {s t : State} (h : Frame ps s t) (hp : .clock ∉ ps) (p : Pll) :
    pllOf t p = pllOf s p := pllOf_of_clock (h _ hp) p

/-- The state without the clocks of the islands. -/
def islandless (s : State) : State := { s with clock := { s.clock with isl := Vector.replicate 22 {} } }

/-- The state without its PLLs. -/
def pllless (s : State) : State :=
  { s with clock := { s.clock with sysA := {}, sysB := {}, net := {}, iso := {}, spare := {} } }

/-- The PLLs are no part of the islands' clocks. -/
@[simp] theorem pllOf_islandless (s : State) (p : Pll) : pllOf (islandless s) p = pllOf s p := by cases p <;> rfl

/-- The PLLs are the same where all but the islands' clocks is. -/
theorem pllOf_of_islandless {s t : State} (h : islandless t = islandless s) (p : Pll) : pllOf t p = pllOf s p := by
  rw [← pllOf_islandless t, h, pllOf_islandless]

/-- A change of an island's clock leaves everything else. -/
@[simp] theorem islandless_modIslClk (i : Fin 22) (f : IslandClock → IslandClock) (s : State) :
    islandless (modIslClk i f s) = islandless s := rfl

/-- A change of a PLL leaves everything else. -/
@[simp] theorem pllless_modPll (p : Pll) (f : PllState → PllState) (s : State) : pllless (modPll p f s) = pllless s := by
  cases p <;> rfl

/-- A change of a PLL leaves the clocks of the islands. -/
@[simp] theorem modPll_isl (p : Pll) (f : PllState → PllState) (s : State) : (modPll p f s).clock.isl = s.clock.isl := by
  cases p <;> rfl

/-- The island's clock that is changed. -/
@[simp] theorem modIslClk_isl_self (i : Fin 22) (f : IslandClock → IslandClock) (s : State) :
    (modIslClk i f s).clock.isl[i] = f s.clock.isl[i] := modAt_getElem_self _ i f

/-- Changing an island's clock leaves every other one alone. -/
theorem modIslClk_isl_other {i j : Fin 22} (h : j ≠ i) (f : IslandClock → IslandClock) (s : State) :
    (modIslClk i f s).clock.isl[j] = s.clock.isl[j] := modAt_getElem_other _ i j f h

/-- A change of an island's clock is told by what it makes of the present one. -/
theorem modIslClk_congr {i : Fin 22} {f g : IslandClock → IslandClock} {s : State} (h : f s.clock.isl[i] = g s.clock.isl[i]) :
    modIslClk i f s = modIslClk i g s := by
  simp only [modIslClk, modClock, modAt, h]

/-- A change that leaves an island's clock as it is changes nothing. -/
theorem modIslClk_of_idle {i : Fin 22} {f : IslandClock → IslandClock} {s : State} (h : f s.clock.isl[i] = s.clock.isl[i]) :
    modIslClk i f s = s := by
  have hset : modAt s.clock.isl i f = s.clock.isl := by
    rw [modAt, h]
    exact Vector.set_getElem_self _
  simp only [modIslClk, modClock, hset]

/-! ### Walks -/

/-- A walk over other entries leaves what shows one entry. -/
theorem foldS_entry_of_notMem {ι β : Type} {view : State → β} {g : ι → State → State} {a : ι}
    (hother : ∀ x, x ≠ a → ∀ t, view (g x t) = view t) {xs : List ι} (ha : a ∉ xs) (s : State) :
    view (foldS xs g s) = view s := by
  induction xs generalizing s with
  | nil => rfl
  | cons x xs ih =>
    have hx : x ≠ a := (List.ne_of_not_mem_cons ha).symm
    exact (ih (List.not_mem_of_not_mem_cons ha) (g x s)).trans (hother x hx s)

/-- A walk whose steps each change their own entry, by what the rest of the state shows, makes of an entry what its own step
makes of it. -/
theorem foldS_entry {ι ε β : Type} {env : State → ε} {view : State → β} {g : ι → State → State} {F : ε → β → β}
    {a : ι} (henv : ∀ x t, env (g x t) = env t) (hother : ∀ x, x ≠ a → ∀ t, view (g x t) = view t)
    (hself : ∀ t, view (g a t) = F (env t) (view t)) {xs : List ι} (hx : xs.Nodup) (ha : a ∈ xs) (s : State) :
    view (foldS xs g s) = F (env s) (view s) := by
  induction xs generalizing s with
  | nil => cases ha
  | cons x xs ih =>
    obtain ⟨hnot, hxs⟩ := List.nodup_cons.mp hx
    obtain rfl | ha := List.mem_cons.mp ha
    · exact (foldS_entry_of_notMem hother hnot (g a s)).trans (hself s)
    · calc view (foldS xs g (g x s)) = F (env (g x s)) (view (g x s)) := ih hxs ha (g x s)
        _ = F (env s) (view s) := by rw [henv, hother x (ne_of_mem_of_not_mem ha hnot).symm]

/-- Each step changes the clock of its own island alone, by what the rest of the state shows. -/
def StepsPerIsland (g : Fin 22 → State → State) (F : State → Fin 22 → IslandClock → IslandClock) : Prop :=
  ∀ i t, g i t = modIslClk i (F (islandless t) i) t

section
variable {g : Fin 22 → State → State} {F : State → Fin 22 → IslandClock → IslandClock} (h : StepsPerIsland g F)
include h

/-- A walk over islands leaves everything but their clocks. -/
theorem StepsPerIsland.islandless_eq (xs : List (Fin 22)) (s : State) : islandless (foldS xs g s) = islandless s :=
  foldS_keeps islandless xs g s fun i t => by rw [h i t, islandless_modIslClk]

/-- A walk over islands makes of each what its own step makes of it. -/
theorem StepsPerIsland.isl_eq {xs : List (Fin 22)} (hx : xs.Nodup) {i : Fin 22} (hi : i ∈ xs) (s : State) :
    (foldS xs g s).clock.isl[i] = F (islandless s) i s.clock.isl[i] :=
  foldS_entry (env := islandless) (view := fun t => t.clock.isl[i]) (F := fun u => F u i)
    (fun j t => by rw [h j t, islandless_modIslClk])
    (fun j hj t => by rw [h j t]; exact modIslClk_isl_other (Ne.symm hj) _ t)
    (fun t => by rw [h i t, modIslClk_isl_self]) hx hi s

end

/-- No island is listed twice. -/
theorem pllIslands_nodup : pllIslands.Nodup := (List.nodup_finRange 22).filter _

/-- An island's source is a PLL where it is no TCXO (R17). -/
theorem mem_pllIslands {i : Fin 22} : i ∈ pllIslands ↔ i ∉ tcxoIslands := by
  revert i; decide

/-! ### References (R51, R52, R395) -/

/-- A PLL with the reference that its image and the running references give it (R51, R52). -/
def refTaken (s : State) (x : PllState) : PllState :=
  match refFor s.clock x.imageRef with
  | some r => { x with ref := r, holdover := false }
  | none => { x with holdover := true, holdAt := if x.holdover then x.holdAt else s.now }

/-- The source that AON, SAFE or FIO has to take waits (R57). -/
def tcxoAsked (s : State) (i : Fin 22) (x : IslandClock) : IslandClock :=
  { x with next := if tcxoSrc s.clock i = tcxoWant s.clock i then none else some (tcxoWant s.clock i) }

/-- An island whose source is a TCXO asks for the one that it has to take (R57). -/
def askTcxo (i : Fin 22) (t : State) : State := modIslClk i (tcxoAsked t i) t

/-- What is asked for an island depends on the TCXOs alone. -/
theorem askTcxo_perIsland : StepsPerIsland askTcxo tcxoAsked := fun _ _ => rfl

/-- The islands ask first, then the PLLs take their references. -/
theorem refreshRefs_eq (s : State) : refreshRefs s = foldS plls takeRef (foldS tcxoIslands askTcxo s) := rfl

/-- After a reference came or went each PLL has taken the one that it is given. -/
theorem pllOf_refreshRefs (p : Pll) (s : State) : pllOf (refreshRefs s) p = refTaken s (pllOf s p) := by
  rw [refreshRefs_eq]
  have hrest : islandless (foldS tcxoIslands askTcxo s) = islandless s := askTcxo_perIsland.islandless_eq _ s
  generalize foldS tcxoIslands askTcxo s = u at hrest ⊢
  have hwalk : pllOf (foldS plls takeRef u) p = refTaken (pllless u) (pllOf u p) :=
    foldS_entry (env := pllless) (view := fun t => pllOf t p) (F := refTaken)
      (fun q t => pllless_modPll q _ t) (fun q hq t => pllOf_modPll_other (Ne.symm hq) _ t)
      (fun t => pllOf_modPll_self p _ t) (by decide) (by cases p <;> decide) u
  have henv : refTaken (islandless u) = refTaken (islandless s) := congrArg refTaken hrest
  rw [hwalk, pllOf_of_islandless hrest]
  exact congrFun henv (pllOf s p)

/-- The PLLs leave what the islands ask for. -/
theorem refreshRefs_isl (s : State) : (refreshRefs s).clock.isl = (foldS tcxoIslands askTcxo s).clock.isl := by
  rw [refreshRefs_eq]
  exact foldS_keeps (fun t => t.clock.isl) plls takeRef _ fun p t => modPll_isl p _ t

/-- What shows neither a PLL nor an island's clock stays while the references are taken. -/
theorem refreshRefs_keeps {β : Type} (p : State → β) (hp : ∀ t, p (pllless (islandless t)) = p t) (s : State) :
    p (refreshRefs s) = p s := by
  have hrest : pllless (islandless (refreshRefs s)) = pllless (islandless s) := by
    rw [refreshRefs_eq]
    exact (foldS_keeps (fun t => pllless (islandless t)) plls takeRef _ fun q t => by cases q <;> rfl).trans
      (congrArg pllless (askTcxo_perIsland.islandless_eq tcxoIslands s))
  rw [← hp, hrest, hp]

/-- A PLL that is given a reference runs from it. -/
theorem pllOf_refreshRefs_of_ref {s : State} {p : Pll} {r : ClkRef} (h : refFor s.clock (pllOf s p).imageRef = some r) :
    (pllOf (refreshRefs s) p).ref = r ∧ (pllOf (refreshRefs s) p).holdover = false := by
  simp only [pllOf_refreshRefs, refTaken, h, and_self]

/-- A PLL that is given none is in holdover, from now on where it was not before. -/
theorem pllOf_refreshRefs_of_none {s : State} {p : Pll} (h : refFor s.clock (pllOf s p).imageRef = none) :
    (pllOf (refreshRefs s) p).holdover = true ∧
      ((pllOf s p).holdover = false → (pllOf (refreshRefs s) p).holdAt = s.now) := by
  simp only [pllOf_refreshRefs, refTaken, h, true_and]
  exact fun hh => by rw [hh]; rfl

/-- An island that runs from another source than it has to take asks for that one. -/
theorem refreshRefs_next {s : State} {i : Fin 22} {w : Fin 3} (hi : i ∈ tcxoIslands) (hw : tcxoWant s.clock i = w)
    (hsrc : tcxoSrc s.clock i ≠ w) : (refreshRefs s).clock.isl[i].next = some w := by
  subst hw
  have hentry : (refreshRefs s).clock.isl[i] = tcxoAsked (islandless s) i s.clock.isl[i] := by
    rw [refreshRefs_isl]
    exact askTcxo_perIsland.isl_eq (by decide) hi s
  rw [hentry]
  exact if_neg hsrc

end Sys2Proof.Machine
end

section
/-! PROOFS. References fail and return (O13): TCXOs, REF10 and PPS_IN (R51, R57, R279, R395). -/

namespace Sys2Proof.Machine

/-! ### Events stay latched -/

/-- Each step of a walk clears no event, so the walk clears none. -/
theorem foldS_eventsKept {α : Type} (xs : List α) {g : α → State → State} (h : ∀ x t, EventsKept t (g x t)) (s : State) :
    EventsKept s (foldS xs g s) :=
  fun r k hk => foldS_invariant (Latched r k) xs (fun x t => h x t r k) hk

/-- A swap clears no event. -/
theorem hingeSwap_eventsKept (res lane unit spare trig ind : Nat) (s : State) :
    EventsKept s (hingeSwap res lane unit spare trig ind s) := by
  unfold hingeSwap
  extract_lets s1 s2 s3
  have h2 : EventsKept s s2 :=
    ((modWear_only _ s).eventsKept (by simp)).trans ((logSwap_only res lane unit spare trig ind s1).eventsKept (by simp))
  have h3 : EventsKept s s3 := h2.trans ((raise_eventsKept _ _ (by omega) s2).trans (raiseIf_eventsKept _ _ _ (by omega) _))
  split
  · exact h3.trans ((wear_set s3 _).eventsKept (by simp))
  · exact h3

/-- A trigger that finds no spare clears no event. -/
theorem noSpare_eventsKept (res lane unit trig ind : Nat) (s : State) : EventsKept s (noSpare res lane unit trig ind s) := by
  unfold noSpare
  split
  · exact fun _ _ hk => hk
  · exact (((wear_set s _).eventsKept (by simp)).trans ((logSwap_only _ _ _ _ _ _ _).eventsKept (by simp))).trans
      (raise_eventsKept _ _ (by omega) _)

/-- A realignment of the triggers clears no event. -/
theorem realign_eventsKept (s : State) : EventsKept s (realign s) := by
  unfold realign
  refine EventsKept.trans (EventsKept.trans (foldS_eventsKept _ (fun c t => ?_) s) (foldS_eventsKept _ (fun l t => ?_) _))
    (raise_eventsKept _ _ (by omega) _)
  · split
    · exact fun _ _ hk => hk
    · exact (modTime_only _ t).eventsKept (by simp)
  · exact (modMeas_only l _ t).eventsKept (by cases l <;> simp [lanePart])

/-- The selection of a time domain clears no event. -/
theorem selectDom_eventsKept (k : Fin 2) (s : State) : EventsKept s (selectDom k s) := by
  have hsel (r : Int) : EventsKept s (raise .time 0 (setResid k r s)) :=
    ((setResid_only k r s).eventsKept (by simp)).trans (raise_eventsKept _ _ (by omega) _)
  have hzero (t : State) : EventsKept t (zeroResid t) := by
    unfold zeroResid
    split
    · exact fun _ _ hk => hk
    · exact ((setResid_only _ _ t).eventsKept (by simp)).trans (realign_eventsKept _)
  unfold selectDom
  split
  · exact fun _ _ hk => hk
  · dsimp only
    split
    · exact (hsel _).trans (hzero _)
    · exact hsel _

/-- The holdover of the time domain that follows PPS_IN clears no event. -/
theorem ppsHoldover_eventsKept (s : State) : EventsKept s (ppsHoldover s) := by
  have hreselect (t : State) : EventsKept t (reselect t) := by
    unfold reselect
    split
    · exact selectDom_eventsKept 0 t
    · exact selectDom_eventsKept 1 t
    · dsimp only
      split
      · exact selectDom_eventsKept _ t
      · exact fun _ _ hk => hk
  unfold ppsHoldover holdoverDom
  split
  · split
    · exact (((modDom_only _ _ s).eventsKept (by simp)).trans (raise_eventsKept _ _ (by omega) _)).trans (hreselect _)
    · exact fun _ _ hk => hk
  · exact fun _ _ hk => hk

/-! ### TCXOs -/

/-- A second in ticks of 2.5 ns. -/
theorem secs_one : secs 1 = 400000000 := rfl

/-- A TCXO has failed: the time is noted and TCXO_FAIL raised. -/
def tcxoFailed (t : Tcxo) (s : State) : State :=
  raise .clk 0 (modClock (fun c => match t with
    | .primary => { c with tcxoP := false, tcxoPAt := s.now }
    | .spare => { c with tcxoS := false, tcxoSAt := s.now }) s)

/-- Only the clocks, the event registers and the board change. -/
theorem tcxoFailed_only (t : Tcxo) (s : State) : Frame [.clock, .events, .board] s (tcxoFailed t s) :=
  ((modClock_only _ s).mono (by simp)).comp ((raise_only _ _ _).mono (by simp))

/-- TCXO_FAIL stays latched while the references are taken. -/
theorem latched_tcxoFailed (t : Tcxo) (s : State) : Latched .clk 0 (refreshRefs (tcxoFailed t s)) :=
  (refreshRefs_only _).eventsKept (by simp) _ _ (latched_raise _ _ _ (by omega))

/-- The PLLs are no part of a TCXO. -/
theorem pllOf_tcxoFailed (t : Tcxo) (s : State) (p : Pll) : pllOf (tcxoFailed t s) p = pllOf s p := by
  cases t <;> cases p <;> rfl

/-- Where the spare TCXO runs it takes over from the primary one, as a swap. -/
theorem exec_tcxoFail_primary {s : State} (hP : s.clock.tcxoP = true) (hS : s.clock.tcxoS = true) :
    exec (.tcxoFail .primary) s = .next (hingeSwap 5 2 0 0 1 0 (refreshRefs (tcxoFailed .primary s))) := by
  change execTcxoFail .primary s = _
  simp [execTcxoFail, tcxoFailed, hP, hS]

/-- The failure of the last TCXO raises REF_ALL_LOST, and leaves the clocks as the failure itself does. -/
theorem exec_tcxoFail_last {s : State} (hP : s.clock.tcxoP = false) (hS : s.clock.tcxoS = true) :
    ∃ t, exec (.tcxoFail .spare) s = .next t ∧ Latched .clk 0 t ∧ Latched .clk 11 t ∧
      t.clock = (refreshRefs (tcxoFailed .spare s)).clock := by
  generalize hu : refreshRefs (tcxoFailed .spare s) = u
  have h0 : Latched .clk 0 u := hu ▸ latched_tcxoFailed .spare s
  generalize hv : raise .clk 11 (noSpare 5 2 0 1 0 u) = v
  have hkept : EventsKept u v := hv ▸ (noSpare_eventsKept _ _ _ _ _ u).trans (raise_eventsKept _ _ (by omega) _)
  have h11 : Latched .clk 11 v := hv ▸ latched_raise _ _ _ (by omega)
  have hclock : v.clock = u.clock := hv ▸ (noSpare_only _ _ _ _ _ u) .clock (by simp)
  have hex : exec (.tcxoFail .spare) s = .next (if v.clock.ref10 && (v.clock.sysA.ref == .ref10 || v.clock.sysB.ref == .ref10)
      then v else trigger (.stop 7 4) v) := by
    subst hv hu
    change execTcxoFail .spare s = _
    simp [execTcxoFail, tcxoFailed, hP, hS]
  refine ⟨_, hex, ?_⟩
  split
  · exact ⟨hkept _ _ h0, h11, hclock⟩
  · have htrig := trigger_only (.stop 7 4) v
    exact ⟨htrig.eventsKept (by simp) _ _ (hkept _ _ h0), htrig.eventsKept (by simp) _ _ h11,
      (htrig .clock (by simp)).trans hclock⟩

/-- A TCXO that failed has run for 1 s, at the earliest 1 s after its failure. -/
def tcxoBack (t : Tcxo) (s : State) : State :=
  match t with
  | .primary => freeSpare 5 (modClock (fun c => { c with tcxoP := true }) (elapseTo (s.clock.tcxoPAt + secs 1) s))
  | .spare => modClock (fun c => { c with tcxoS := true }) (elapseTo (s.clock.tcxoSAt + secs 1) s)

/-- The primary TCXO runs again. -/
theorem tcxoBack_primary_clock (s : State) : (tcxoBack .primary s).clock = { s.clock with tcxoP := true } := by
  simp only [tcxoBack, freeSpare, modWear_frame, modClock_clock, elapseTo_frame]

/-- The spare TCXO runs again. -/
theorem tcxoBack_spare_clock (s : State) : (tcxoBack .spare s).clock = { s.clock with tcxoS := true } := by
  simp only [tcxoBack, modClock_clock, elapseTo_frame]

/-- The PLLs are no part of a TCXO. -/
theorem pllOf_tcxoBack (t : Tcxo) (s : State) (p : Pll) : pllOf (tcxoBack t s) p = pllOf s p := by
  cases t <;> cases p <;> simp only [pllOf, tcxoBack_primary_clock, tcxoBack_spare_clock]

/-- The primary TCXO is back no earlier than 1 s after its failure. -/
theorem tcxoBack_primary_now (s : State) : (tcxoBack .primary s).now = max s.now (s.clock.tcxoPAt + 400000000) := by
  simp only [tcxoBack, freeSpare, modWear_frame, modClock_frame, elapseTo_now_eq_max, secs_one]

/-- The spare TCXO is back no earlier than 1 s after its failure. -/
theorem tcxoBack_spare_now (s : State) : (tcxoBack .spare s).now = max s.now (s.clock.tcxoSAt + 400000000) := by
  simp only [tcxoBack, modClock_frame, elapseTo_now_eq_max, secs_one]

/-- The primary TCXO returns. -/
theorem exec_tcxoReturn_primary {s : State} (hP : s.clock.tcxoP = false) (hpow : s.power.powered = true) :
    exec (.tcxoReturn .primary) s = .next (refreshRefs (tcxoBack .primary s)) := by
  change execTcxoReturn _ s = _
  simp [execTcxoReturn, tcxoBack, hP, hpow, Machine.when]

/-- The spare TCXO returns. -/
theorem exec_tcxoReturn_spare {s : State} (hS : s.clock.tcxoS = false) (hpow : s.power.powered = true) :
    exec (.tcxoReturn .spare) s = .next (refreshRefs (tcxoBack .spare s)) := by
  change execTcxoReturn _ s = _
  simp [execTcxoReturn, tcxoBack, hS, hpow, Machine.when]

/-- AON and FIO ask for the spare TCXO once the primary one has failed. -/
theorem tcxoFailed_primary_next {s : State} {i : Fin 22} (hS : s.clock.tcxoS = true) (hi : i = 0 ∨ i = 19)
    (hsrc : tcxoSrc s.clock i ≠ 1) : (refreshRefs (tcxoFailed .primary s)).clock.isl[i].next = some 1 := by
  have hmem : i ∈ tcxoIslands := by obtain rfl | rfl := hi <;> decide
  have hwant : tcxoWant (tcxoFailed .primary s).clock i = 1 := by
    obtain rfl | rfl := hi <;> simp [tcxoWant, tcxoFailed, hS]
  exact refreshRefs_next hmem hwant hsrc

/-- AON, SAFE and FIO ask for their ring oscillators once both TCXOs have failed. -/
theorem tcxoFailed_last_next {s : State} {i : Fin 22} (hP : s.clock.tcxoP = false) (hi : i = 0 ∨ i = 18 ∨ i = 19)
    (hsrc : tcxoSrc s.clock i ≠ 2) : (refreshRefs (tcxoFailed .spare s)).clock.isl[i].next = some 2 := by
  have hmem : i ∈ tcxoIslands := by obtain rfl | rfl | rfl := hi <;> decide
  have hwant : tcxoWant (tcxoFailed .spare s).clock i = 2 := by
    obtain rfl | rfl | rfl := hi <;> simp [tcxoWant, tcxoFailed, hP]
  exact refreshRefs_next hmem hwant hsrc

/-- AON and FIO ask for the primary TCXO once it is back. -/
theorem tcxoBack_primary_next {s : State} {i : Fin 22} (hi : i = 0 ∨ i = 19) (hsrc : tcxoSrc s.clock i ≠ 0) :
    (refreshRefs (tcxoBack .primary s)).clock.isl[i].next = some 0 := by
  have hmem : i ∈ tcxoIslands := by obtain rfl | rfl := hi <;> decide
  have hwant : tcxoWant (tcxoBack .primary s).clock i = 0 := by
    obtain rfl | rfl := hi <;> simp [tcxoWant, tcxoBack_primary_clock]
  exact refreshRefs_next hmem hwant (by rwa [tcxoBack_primary_clock])

/-- SAFE asks for the spare TCXO once it is back. -/
theorem tcxoBack_spare_next {s : State} (hsrc : tcxoSrc s.clock 18 ≠ 1) :
    (refreshRefs (tcxoBack .spare s)).clock.isl[(18 : Fin 22)].next = some 1 := by
  have hwant : tcxoWant (tcxoBack .spare s).clock 18 = 1 := by simp [tcxoWant, tcxoBack_spare_clock]
  exact refreshRefs_next (by decide) hwant (by rwa [tcxoBack_spare_clock])

/-- The PLLs of the primary TCXO go over to the spare one. -/
theorem pllOf_tcxoFailed_primary {s : State} {p : Pll} (hS : s.clock.tcxoS = true) (hp : (pllOf s p).imageRef = .primary) :
    (pllOf (refreshRefs (tcxoFailed .primary s)) p).ref = .spare ∧
      (pllOf (refreshRefs (tcxoFailed .primary s)) p).holdover = false := by
  refine pllOf_refreshRefs_of_ref ?_
  rw [pllOf_tcxoFailed, hp]
  simp [refFor, tcxoFailed, hS]

/-- The PLLs of the primary TCXO return to it. -/
theorem pllOf_tcxoBack_primary {s : State} {p : Pll} (hp : (pllOf s p).imageRef = .primary) :
    (pllOf (refreshRefs (tcxoBack .primary s)) p).ref = .primary ∧
      (pllOf (refreshRefs (tcxoBack .primary s)) p).holdover = false := by
  refine pllOf_refreshRefs_of_ref ?_
  rw [pllOf_tcxoBack, hp]
  simp [refFor, tcxoBack_primary_clock]

/-- TCXOs fail and return: AON, SAFE and FIO ask for the source they have to take, the PLLs take their reference at once. -/
theorem tcxoFailsAndReturns : Claim.TcxoFailsAndReturns := by
  intro s
  refine ⟨fun hP hS => ?_, fun hP hS => ?_, fun hP hpow => ?_, fun hS hP hpow => ?_, fun ppb b hP hS hppb => ?_,
    fun ppb b hppb => ?_⟩
  · have hswap := hingeSwap_only 5 2 0 0 1 0 (refreshRefs (tcxoFailed .primary s))
    have hclock := hswap .clock (by simp)
    refine ⟨_, exec_tcxoFail_primary hP hS, ?_, ?_, ?_, fun i hi hsrc => ?_, fun p hp => ?_, ?_⟩
    · exact (congrArg ClockState.tcxoP hclock).trans (refreshRefs_keeps (fun t => t.clock.tcxoP) (fun _ => rfl) _)
    · exact (congrArg ClockState.tcxoPAt hclock).trans (refreshRefs_keeps (fun t => t.clock.tcxoPAt) (fun _ => rfl) _)
    · exact hingeSwap_eventsKept _ _ _ _ _ _ _ _ _ (latched_tcxoFailed .primary s)
    · rw [hclock]
      exact tcxoFailed_primary_next hS hi hsrc
    · rw [hswap.pllOf_eq (by simp)]
      exact pllOf_tcxoFailed_primary hS hp
    · exact (((tcxoFailed_only _ s).mono (by simp)).comp ((refreshRefs_only _).mono (by simp))).comp (hswap.mono (by simp))
  · obtain ⟨t, hex, h0, h11, hclock⟩ := exec_tcxoFail_last hP hS
    refine ⟨t, hex, ?_, ?_, h0, h11, fun i hi hsrc => ?_, fun p hp => ?_⟩
    · exact (congrArg ClockState.tcxoS hclock).trans (refreshRefs_keeps (fun t => t.clock.tcxoS) (fun _ => rfl) _)
    · exact (congrArg ClockState.tcxoSAt hclock).trans (refreshRefs_keeps (fun t => t.clock.tcxoSAt) (fun _ => rfl) _)
    · rw [hclock]
      exact tcxoFailed_last_next hP hi hsrc
    · have href : refFor (tcxoFailed .spare s).clock (pllOf (tcxoFailed .spare s) p).imageRef = none := by
        rw [pllOf_tcxoFailed, ← hp, hclock]
        exact (refreshRefs_keeps (fun t => refFor t.clock (pllOf s p).imageRef) (fun _ => rfl) _).symm
      have hhold := pllOf_refreshRefs_of_none href
      rw [pllOf_tcxoFailed] at hhold
      rwa [pllOf_of_clock hclock]
  · have hex := exec_tcxoReturn_primary hP hpow
    refine ⟨_, hex, ?_, ?_, fun i hi hsrc => tcxoBack_primary_next hi hsrc, fun p hp => pllOf_tcxoBack_primary hp,
      execTcxoReturn_only .primary s _ hex⟩
    · exact (refreshRefs_keeps (fun t => t.clock.tcxoP) (fun _ => rfl) _).trans
        (congrArg ClockState.tcxoP (tcxoBack_primary_clock s))
    · exact (refreshRefs_keeps State.now (fun _ => rfl) _).trans (tcxoBack_primary_now s)
  · refine ⟨_, exec_tcxoReturn_spare hS hpow, ?_, ?_, tcxoBack_spare_next, ?_⟩
    · exact (refreshRefs_keeps (fun t => t.clock.tcxoS) (fun _ => rfl) _).trans
        (congrArg ClockState.tcxoS (tcxoBack_spare_clock s))
    · exact (refreshRefs_keeps State.now (fun _ => rfl) _).trans (tcxoBack_spare_now s)
    · exact (((elapseTo_only _ s).mono (by simp)).comp ((modClock_only _ _).mono (by simp))).comp
        ((refreshRefs_only _).mono (by simp))
  · change execTcxoDrift ppb b s = _
    simp [execTcxoDrift, modClock, hP, hS, hppb]
  · change execTcxoDrift ppb b s = _
    simp [execTcxoDrift, Nat.not_lt.mpr hppb]

/-! ### REF10 and PPS_IN -/

/-- REF10 is lost: the time is noted and REF_LOSS raised. -/
def ref10Lost (s : State) : State := raise .clk 2 (modClock (fun c => { c with ref10 := false, ref10From := s.now }) s)

/-- REF10 has stayed within its limits for 1 s, at the earliest 1 s after its loss. -/
def ref10Back (s : State) : State := modClock (fun c => { c with ref10 := true }) (elapseTo (s.clock.ref10From + secs 1) s)

/-- The PLLs are no part of REF10. -/
theorem pllOf_ref10Lost (s : State) (p : Pll) : pllOf (ref10Lost s) p = pllOf s p := by cases p <;> rfl

/-- REF10 is there again. -/
theorem ref10Back_clock (s : State) : (ref10Back s).clock = { s.clock with ref10 := true } := by
  simp only [ref10Back, modClock_clock, elapseTo_frame]

/-- The PLLs are no part of REF10. -/
theorem pllOf_ref10Back (s : State) (p : Pll) : pllOf (ref10Back s) p = pllOf s p := by
  cases p <;> simp only [pllOf, ref10Back_clock]

/-- REF10 is back no earlier than 1 s after its loss. -/
theorem ref10Back_now (s : State) : (ref10Back s).now = max s.now (s.clock.ref10From + 400000000) := by
  simp only [ref10Back, modClock_frame, elapseTo_now_eq_max, secs_one]

/-- REF10 is lost where it was there. -/
theorem exec_refLoss {s : State} (h : s.clock.ref10 = true) : exec .refLoss s = .next (refreshRefs (ref10Lost s)) := by
  change execRefLoss s = _
  simp [execRefLoss, ref10Lost, h]

/-- REF10 becomes qualified where it was not. -/
theorem exec_ref10Qualified {s : State} (h : s.clock.ref10 = false) (hpow : s.power.powered = true) :
    exec .ref10Qualified s = .next (refreshRefs (ref10Back s)) := by
  change execRef10Qualified s = _
  simp [execRef10Qualified, ref10Back, h, hpow]

/-- PPS_IN has shown no pulse for 1.1 s: PPS_LOSS. -/
def ppsGone (s : State) : State :=
  raise .clk 3 (modClock (fun c => { c with pps := false }) (elapseTo (s.time.ppsAt + 440000000) s))

/-- PPS_IN is lost no earlier than 1.1 s after its last pulse. -/
theorem ppsGone_now (s : State) : (ppsGone s).now = max s.now (s.time.ppsAt + 440000000) := by
  simp only [ppsGone, raise_frame, modClock_frame, elapseTo_now_eq_max]

/-- PPS_IN is lost where it was there. -/
theorem exec_ppsLoss {s : State} (h : s.clock.pps = true) : exec .ppsLoss s = .next (ppsHoldover (ppsGone s)) := by
  change execPpsLoss s = _
  simp [execPpsLoss, ppsLoss, ppsGone, h]

/-- REF10 and PPS_IN come and go: the PLLs whose image names REF10 follow it at once. -/
theorem externalReferencesComeAndGo : Claim.ExternalReferencesComeAndGo := by
  intro s
  refine ⟨fun h => ?_, fun h hpow => ?_, fun h => ?_, fun h => ?_⟩
  · have hex := exec_refLoss h
    refine ⟨_, hex, ?_, ?_, ?_, fun p hp hP => ?_, ?_⟩
    · exact refreshRefs_keeps (fun t => t.clock.ref10) (fun _ => rfl) _
    · exact refreshRefs_keeps (fun t => t.clock.ref10From) (fun _ => rfl) _
    · exact (refreshRefs_only _).eventsKept (by simp) _ _ (latched_raise _ _ _ (by omega))
    · refine pllOf_refreshRefs_of_ref ?_
      rw [pllOf_ref10Lost, hp]
      simp [refFor, ref10Lost, hP]
    · exact (execRefLoss_only s _ hex).mono (by simp)
  · have hex := exec_ref10Qualified h hpow
    refine ⟨_, hex, ?_, ?_, fun p hp => ?_, ?_⟩
    · exact refreshRefs_keeps (fun t => t.clock.ref10) (fun _ => rfl) _
    · exact (refreshRefs_keeps State.now (fun _ => rfl) _).trans (ref10Back_now s)
    · refine pllOf_refreshRefs_of_ref ?_
      rw [pllOf_ref10Back, hp]
      simp [refFor, ref10Back_clock]
    · exact execRef10Qualified_only s _ hex
  · have honly := ppsHoldover_only (ppsGone s)
    refine ⟨_, exec_ppsLoss h, ?_, ?_, ?_⟩
    · exact congrArg ClockState.pps (honly .clock (by simp))
    · exact ppsHoldover_eventsKept _ _ _ (latched_raise _ _ _ (by omega))
    · exact (honly.now_eq (by simp)).trans (ppsGone_now s)
  · change execPpsLoss s = _
    simp [execPpsLoss, ppsLoss, h]

/-- Settles O13: what is left of the clocks stays while each PLL takes its reference and AON, SAFE and FIO ask for their source. -/
theorem referencesComeAndGo : Obligations.ReferencesComeAndGo := ⟨tcxoFailsAndReturns, externalReferencesComeAndGo⟩

end Sys2Proof.Machine
end

section
/-! PROOFS. Loss and lock of a PLL (O14): what SPARE, the lanes and the islands do at a loss leaves the PLL that is lost, and
islands on fallback return at a lock (R52, R55, R58, R61, R62, R64). -/

namespace Sys2Proof.Machine

/-! ### PLLs beside other changes -/

/-- The PLLs beside SPARE are the same where each of them is. -/
theorem pllOf_of_fields {p : Pll} (hp : p ≠ .spare) {s t : State} (ha : t.clock.sysA = s.clock.sysA)
    (hb : t.clock.sysB = s.clock.sysB) (hn : t.clock.net = s.clock.net) (hi : t.clock.iso = s.clock.iso) :
    pllOf t p = pllOf s p :=
  match p with
  | .sysA => ha
  | .sysB => hb
  | .net => hn
  | .iso => hi

/-- SPARE that is retargeted is no other PLL. -/
theorem pllOf_retarget {p : Pll} (hp : p ≠ .spare) (tgt : Bool) (s : State) : pllOf (retarget tgt s) p = pllOf s p := by
  unfold retarget
  split
  · rfl
  · exact pllOf_of_fields hp rfl rfl rfl rfl

/-- A step of a walk that changes an island's clock on a condition leaves everything else. -/
theorem islandless_ite (c : Prop) [Decidable c] (i : Fin 22) (f : IslandClock → IslandClock) (s : State) :
    islandless (if c then modIslClk i f s else s) = islandless s := by
  split <;> rfl

/-- A change of the islands' clocks alone clears no event. -/
theorem eventsKept_of_islandless {s t : State} (h : islandless t = islandless s) : EventsKept s t := fun _ _ hk =>
  have hev : (islandless t).events = (islandless s).events := congrArg State.events h
  latched_of_events hev hk

/-- SPARE that takes over a PLL is no other PLL. -/
theorem pllOf_takeSpare {p : Pll} (hp : p ≠ .spare) (q : Pll) (s : State) : pllOf (takeSpare q s) p = pllOf s p := by
  unfold takeSpare
  extract_lets s1 s2
  have h1 : pllOf s1 p = pllOf s p :=
    (pllOf_retarget hp _ _).trans (pllOf_of_fields hp rfl rfl rfl rfl)
  have h2 : islandless s2 = islandless s1 := foldS_keeps islandless _ _ s1 fun i t => islandless_ite _ i _ t
  rw [(raise_only _ _ _).pllOf_eq (by simp), (hingeSwap_only _ _ _ _ _ _ _).pllOf_eq (by simp), pllOf_of_islandless h2, h1]

/-- SPARE that takes over a PLL clears no event. -/
theorem takeSpare_eventsKept (q : Pll) (s : State) : EventsKept s (takeSpare q s) := by
  unfold takeSpare
  extract_lets s1 s2
  have h1 : Frame [.clock] s s1 := (modClock_only _ s).comp (retarget_only _ _)
  have h2 : islandless s2 = islandless s1 := foldS_keeps islandless _ _ s1 fun i t => islandless_ite _ i _ t
  exact ((h1.eventsKept (by simp)).trans (eventsKept_of_islandless h2)).trans
    ((hingeSwap_eventsKept _ _ _ _ _ _ _).trans (raise_eventsKept _ _ (by omega) _))

/-- What an operation at a loss leaves: latched events, and every PLL but SPARE. -/
def LossKeeps (s t : State) : Prop := EventsKept s t ∧ ∀ p, p ≠ .spare → pllOf t p = pllOf s p

/-- One operation after another. -/
theorem LossKeeps.trans {s t u : State} (h : LossKeeps s t) (k : LossKeeps t u) : LossKeeps s u :=
  ⟨h.1.trans k.1, fun p hp => (k.2 p hp).trans (h.2 p hp)⟩

/-- A frame without the clocks. -/
theorem LossKeeps.of_frame {ps : List Part} {s t : State} (h : Frame ps s t) (hp : .clock ∉ ps) (k : EventsKept s t) :
    LossKeeps s t := ⟨k, fun p _ => h.pllOf_eq hp p⟩

/-- A change of the islands' clocks alone. -/
theorem LossKeeps.of_islandless {s t : State} (h : islandless t = islandless s) : LossKeeps s t :=
  ⟨eventsKept_of_islandless h, fun p _ => pllOf_of_islandless h p⟩

/-- A call for SPARE clears no event and changes no PLL but SPARE. -/
theorem callSpare_keeps (q : Pll) (s : State) : LossKeeps s (callSpare q s) := by
  have hraise (t : State) : LossKeeps t (raise .clk 10 t) :=
    .of_frame (raise_only _ _ t) (by simp) (raise_eventsKept _ _ (by omega) t)
  have htake (t : State) : LossKeeps t (takeSpare q t) := ⟨takeSpare_eventsKept q t, fun p hp => pllOf_takeSpare hp q t⟩
  have hnone (t : State) : LossKeeps t (raise .clk 10 (noSpare 6 2 (pllCode q - 1) 1 0 t)) :=
    (LossKeeps.of_frame (noSpare_only _ _ _ _ _ t) (by simp) (noSpare_eventsKept _ _ _ _ _ t)).trans (hraise _)
  have hfree (t : State) : LossKeeps t (freeSpare 6 t) :=
    .of_frame (freeSpare_only 6 t) (by simp) ((freeSpare_only 6 t).eventsKept (by simp))
  unfold callSpare
  split
  · exact hnone s
  · split
    · exact htake s
    · split
      · exact ⟨fun _ _ hk => hk, fun _ _ => rfl⟩
      · split
        · refine LossKeeps.trans (LossKeeps.of_islandless ?_) (((hraise _).trans (hfree _)).trans (htake _))
          exact foldS_keeps islandless _ _ s fun i t => islandless_ite _ i _ t
        · exact hnone s

/-- A fault of a lane clears no event. -/
theorem faultLane_eventsKept (l : Lane) (cause : Nat) (s : State) : EventsKept s (faultLane l cause s) := by
  unfold faultLane
  extract_lets lc fs park health s1 s2
  split
  · exact fun _ _ hk => hk
  · split
    · exact (modLc_only l _ s).eventsKept (by simp)
    · have h2 : EventsKept s s2 := ((modLc_only l _ s).comp (modLc_only _ _ s1)).eventsKept (by simp)
      have hbit : clmFaultBit l < 32 := by cases l <;> decide
      exact h2.trans ((raise_eventsKept _ _ hbit s2).trans (raiseIf_eventsKept _ _ _ (by omega) _))

/-! ### Loss (R52, R55) -/

/-- An output is declared lost: it is not locked for at least 10 µs, and its event is raised. -/
def lossNoted (p : Pll) (s : State) : State :=
  raise .clk (3 + pllCode p) (modPll p (fun x => { x with
    locked := false, lost := true, lockFrom := max x.lockFrom (s.now + us 10) }) s)

/-- The PLL whose loss is noted. -/
theorem pllOf_lossNoted (p : Pll) (s : State) : pllOf (lossNoted p s) p =
    { pllOf s p with locked := false, lost := true, lockFrom := max (pllOf s p).lockFrom (s.now + us 10) } :=
  ((raise_only _ _ _).pllOf_eq (by simp) p).trans (pllOf_modPll_self p _ s)

/-- What a loss does beside noting it clears no event and leaves the PLL that is lost. -/
theorem losePll_keeps {p : Pll} {s : State} (h : (pllOf s p).lost = false) :
    EventsKept (lossNoted p s) (losePll p s) ∧ pllOf (losePll p s) p = pllOf (lossNoted p s) p := by
  unfold losePll
  rw [if_neg (by simp [h])]
  extract_lets hit s1 s2 s3
  have h1 : Frame [.clock] (lossNoted p s) s1 := convFallback_only p _
  have hp1 : pllOf s1 p = pllOf (lossNoted p s) p := by
    show pllOf (convFallback p (lossNoted p s)) p = _
    unfold convFallback Machine.when
    split
    · cases p <;> rfl
    · rfl
  have h2 : islandless s2 = islandless s1 := foldS_keeps islandless _ _ s1 fun i t => by
    dsimp only
    split
    · exact islandless_ite _ i _ t
    · exact islandless_ite _ i _ t
  have hfault (l : Lane) (t : State) : EventsKept t (Machine.when (hit l) (faultLane l 1) t) := by
    unfold Machine.when
    split
    · exact faultLane_eventsKept l 1 t
    · exact fun _ _ hk => hk
  have hkept : EventsKept (lossNoted p s) s3 :=
    ((h1.eventsKept (by simp)).trans (eventsKept_of_islandless h2)).trans (foldS_eventsKept lanes hfault s2)
  have h3 : Frame [.claim, .events, .board] s2 s3 := Frame.foldS _ _ _ fun l t => (faultLane_only l 1 t).when
  have hpll : pllOf s3 p = pllOf (lossNoted p s) p :=
    ((h3.pllOf_eq (by simp) p).trans (pllOf_of_islandless h2 p)).trans hp1
  split
  · rename_i hcall
    have hp : p ≠ .spare := by rintro rfl; simp at hcall
    obtain ⟨hev, hother⟩ := callSpare_keeps p s3
    exact ⟨hkept.trans hev, (hother p hp).trans hpll⟩
  · exact ⟨hkept, hpll⟩

/-- A PLL output that is declared lost: lost, not locked, settled no earlier than 10 µs from now, with its event. -/
theorem losePll_effect {p : Pll} {s : State} (h : (pllOf s p).lost = false) :
    (pllOf (losePll p s) p).lost = true ∧ (pllOf (losePll p s) p).locked = false ∧
      s.now + 4000 ≤ (pllOf (losePll p s) p).lockFrom ∧ Latched .clk (3 + pllCode p) (losePll p s) := by
  obtain ⟨hev, hpll⟩ := losePll_keeps h
  have hcode : 3 + pllCode p < 32 := by cases p <;> decide
  rw [hpll, pllOf_lossNoted]
  exact ⟨rfl, rfl, Nat.le_max_right _ _, hev _ _ (latched_raise _ _ _ hcode)⟩

/-! ### Islands on fallback (R61) -/

/-- An island on fallback asks for the source to which it can return. -/
def returned (s : State) (_ : Fin 22) (x : IslandClock) : IslandClock :=
  { x with next := if x.src = 2 then (returnSource s x).or x.next else x.next }

/-- One island asks for the source to which it can return. -/
def askReturn (i : Fin 22) (t : State) : State := modIslClk i (returned t i) t

/-- The source to which an island can return is told by the PLLs and SPARE. -/
theorem returnSource_islandless (s : State) (x : IslandClock) : returnSource (islandless s) x = returnSource s x := by
  unfold returnSource
  rw [pllOf_islandless]
  rfl

/-- An island that is not on fallback, or has no source to return to, asks for none. -/
theorem returned_of_idle {s : State} {x : IslandClock} (h : x.src = 2 → returnSource s x = none) (i : Fin 22) :
    returned s i x = x := by
  have hnext : (if x.src = 2 then (returnSource s x).or x.next else x.next) = x.next := by
    split
    · rename_i hsrc
      rw [h hsrc, Option.none_or]
    · rfl
  rw [returned, hnext]

/-- Each island's step is told by the PLLs and SPARE. -/
theorem askReturn_perIsland : StepsPerIsland askReturn returned := fun i t =>
  modIslClk_congr (by simp only [returned, returnSource_islandless])

/-- Each island on fallback asks for the source to which it can return. -/
theorem returnIslands_eq (s : State) : returnIslands s = foldS pllIslands askReturn s := by
  have hstep (i : Fin 22) (t : State) : (if t.clock.isl[i].src = 2 then
      match returnSource t t.clock.isl[i] with
      | some r => modIslClk i (fun x => { x with next := some r }) t
      | none => t
    else t) = askReturn i t := by
    unfold askReturn
    split
    · rename_i hsrc
      split
      · rename_i r hr
        exact modIslClk_congr (by rw [returned, if_pos hsrc, hr, Option.some_or])
      · rename_i hr
        exact (modIslClk_of_idle (returned_of_idle (fun _ => hr) i)).symm
    · rename_i hsrc
      exact (modIslClk_of_idle (returned_of_idle (fun h => absurd h hsrc) i)).symm
  exact congrArg (fun g => foldS pllIslands g s) (funext fun i => funext (hstep i))

/-- What the return makes of an island's clock. -/
theorem returnIslands_isl {i : Fin 22} (hi : i ∈ pllIslands) (s : State) :
    (returnIslands s).clock.isl[i] = returned (islandless s) i s.clock.isl[i] := by
  rw [returnIslands_eq]
  exact askReturn_perIsland.isl_eq pllIslands_nodup hi s

/-- The return changes the islands' clocks alone. -/
theorem islandless_returnIslands (s : State) : islandless (returnIslands s) = islandless s := by
  rw [returnIslands_eq]
  exact askReturn_perIsland.islandless_eq _ s

/-- An island on fallback whose own PLL is locked asks for it while SPARE is idle. -/
theorem returnIslands_next {s : State} {i : Fin 22} (hi : i ∈ pllIslands) (hsrc : s.clock.isl[i].src = 2)
    (hlock : (pllOf s s.clock.isl[i].own).locked = true) (hspare : s.clock.spareUse = 0) :
    (returnIslands s).clock.isl[i].next = some 0 := by
  have hret : returnSource (islandless s) s.clock.isl[i] = some 0 := by
    rw [returnSource_islandless, returnSource, hlock, spareServes, hspare]
    simp
  rw [returnIslands_isl hi, returned, if_pos hsrc, hret, Option.some_or]

/-! ### Lock (R55, R62, R64) -/

/-- The converters that return to ISO change nothing else of the clocks. -/
theorem convReturn_clock (p : Pll) (s : State) : ∃ own back,
    (convReturn p s).clock = { s.clock with convOwn := own, convBackAt := back } := by
  unfold convReturn
  split
  · exact ⟨_, _, rfl⟩
  · exact ⟨_, _, rfl⟩

/-- An output is locked as soon as its loss or its walk allows. -/
def lockNoted (p : Pll) (s : State) : State :=
  convReturn p (modPll p (fun x => { x with locked := true, lost := false }) (elapseTo (pllOf s p).lockFrom s))

/-- A lock is noted at its time, for its PLL, and leaves the islands and the use of SPARE. -/
theorem lockNoted_effect (p : Pll) (s : State) : (lockNoted p s).now = max s.now (pllOf s p).lockFrom ∧
    pllOf (lockNoted p s) p = { pllOf s p with locked := true, lost := false } ∧
    (lockNoted p s).clock.isl = s.clock.isl ∧ (lockNoted p s).clock.spareUse = s.clock.spareUse := by
  have helapse := elapseTo_only (pllOf s p).lockFrom s
  obtain ⟨own, back, hclock⟩ := convReturn_clock p
    (modPll p (fun x => { x with locked := true, lost := false }) (elapseTo (pllOf s p).lockFrom s))
  change (lockNoted p s).clock = _ at hclock
  refine ⟨?_, ?_, ?_, ?_⟩
  · have h1 := (convReturn_only p (modPll p (fun x => { x with locked := true, lost := false })
      (elapseTo (pllOf s p).lockFrom s))).now_eq (by simp)
    have h2 := (modPll_only p (fun x => { x with locked := true, lost := false })
      (elapseTo (pllOf s p).lockFrom s)).now_eq (by simp)
    exact (h1.trans h2).trans (elapseTo_now_eq_max _ s)
  · have hpll : pllOf (lockNoted p s) p =
        pllOf (modPll p (fun x => { x with locked := true, lost := false }) (elapseTo (pllOf s p).lockFrom s)) p := by
      cases p <;> simp only [pllOf, hclock]
    rw [hpll, pllOf_modPll_self, helapse.pllOf_eq (by simp)]
  · rw [hclock]
    exact modPll_isl p _ _
  · rw [hclock]
    cases p <;> rfl

/-- SPARE is idle again after its own loss, and walks to its idle target. -/
def spareFreed (tgt : Bool) (s : State) : State := retarget tgt (freeSpare 6 (modClock spareIdle s))

/-- Only the clocks and the wear manager change. -/
theorem spareFreed_only (tgt : Bool) (s : State) : Frame [.clock, .wear] s (spareFreed tgt s) :=
  ((modClock_only _ s).mono (by simp)).comp (((freeSpare_only _ _).mono (by simp)).comp ((retarget_only _ _).mono (by simp)))

/-- The walk of SPARE does not bring its loss back. -/
theorem spareFreed_lost (tgt : Bool) (s : State) : (pllOf (spareFreed tgt s) .spare).lost = (pllOf s .spare).lost := by
  unfold spareFreed retarget
  split <;> rfl

/-- A lock that comes: SPARE after its own loss may be freed, and the islands return. -/
theorem exec_pllLock {p : Pll} {s : State} (hl : (pllOf s p).locked = false) (hh : (pllOf s p).holdover = false) :
    ∃ t, exec (.pllLock p) s = .next (returnIslands t) ∧
      (t = lockNoted p s ∨ p = .spare ∧ (pllOf s p).lost = true ∧ t = spareFreed s.clock.idleTgt (lockNoted p s)) := by
  change ∃ t, execPllLock p s = _ ∧ _
  unfold execPllLock
  extract_lets x s1 served s2
  rw [if_neg (by simp [x, hl, hh])]
  refine ⟨s2, rfl, ?_⟩
  unfold s2
  split
  · rename_i h
    simp only [Bool.and_eq_true, decide_eq_true_eq] at h
    obtain ⟨⟨hp, hlost⟩, -⟩ := h
    exact .inr ⟨hp, hlost, rfl⟩
  · exact .inl rfl

/-- A PLL is lost, ends its holdover and locks. -/
theorem pllLossAndLock : Claim.PllLossAndLock := by
  intro s p
  refine ⟨fun h => ?_, fun h => ?_, fun h hh => ?_, fun hh => ?_, fun hl hh => ?_, fun hh => ?_⟩
  · obtain ⟨hlost, hlocked, hfrom, hev⟩ := losePll_effect h
    exact ⟨_, rfl, hlost, hlocked, hfrom, hev, (losePll_only p s).mono (by simp)⟩
  · exact congrArg Host.Outcome.next (if_pos h)
  · have helapse := elapseTo_only ((pllOf s p).holdAt + ms 10) s
    have hlost : (pllOf (elapseTo ((pllOf s p).holdAt + ms 10) s) p).lost = false := by
      rw [helapse.pllOf_eq (by simp), h]
    obtain ⟨hlost, hlocked, -, hev⟩ := losePll_effect hlost
    have hex : exec (.pllHoldoverEnd p) s = .next (losePll p (elapseTo ((pllOf s p).holdAt + ms 10) s)) := by
      change execPllHoldoverEnd p s = _
      simp [execPllHoldoverEnd, h, hh]
    refine ⟨_, hex, ?_, hlost, hlocked, hev, (execPllHoldoverEnd_only p s _ hex).mono (by simp)⟩
    exact ((losePll_only p _).now_eq (by simp)).trans (elapseTo_now_eq_max _ s)
  · change execPllHoldoverEnd p s = _
    simp [execPllHoldoverEnd, hh]
  · obtain ⟨t, hex, ht⟩ := exec_pllLock hl hh
    obtain ⟨hnow, hpll, hisl, huse⟩ := lockNoted_effect p s
    have hret := pllOf_of_islandless (islandless_returnIslands t)
    refine ⟨_, hex, ?_, ?_, fun hp => ?_, fun hp i hi hown hsrc hspare => ?_, execPllLock_only p s _ hex⟩
    · rw [hret]
      obtain rfl | ⟨rfl, -, rfl⟩ := ht
      · rw [hpll]
      · rw [spareFreed_lost, hpll]
    · rw [(returnIslands_only t).now_eq (by simp), ← hnow]
      obtain rfl | ⟨rfl, -, rfl⟩ := ht
      · rfl
      · exact (spareFreed_only _ _).now_eq (by simp)
    · obtain rfl | ⟨hsp, hlost, -⟩ := ht
      · rw [hret, hpll]
      · obtain hp | hp := hp
        · exact absurd hsp hp
        · simp [hp] at hlost
    · obtain rfl | ⟨hsp, -, -⟩ := ht
      · refine returnIslands_next hi ?_ ?_ (huse.trans hspare)
        · rw [hisl, hsrc]
        · rw [hisl, hown, hpll]
      · exact absurd hsp hp
  · change execPllLock p s = _
    simp [execPllLock, hh]

end Sys2Proof.Machine
end

section
/-! PROOFS. Island sources and ring oscillators, SPARE's release and the clock outputs (O14; R56 to R66). -/

namespace Sys2Proof.Machine

/-! ### Sources of islands (R57, R58) -/

/-- The source that starts in an island, a fallback counted. -/
def started (r : Fin 3) (x : IslandClock) : IslandClock :=
  { x with
    src := r, next := none, viaSpare := x.viaSpare && r != 0,
    fallbacks := if r = 2 && x.src ≠ 2 then satInc x.fallbacks else x.fallbacks }

/-- The islands whose blocks no source change disturbs. -/
theorem islandEffect_of_plain {i : Fin 22} (h13 : i.val ≠ 13) (h15 : i.val ≠ 15) (h16 : i.val ≠ 16) (ring : Bool) (s : State) :
    islandEffect i ring s = s := by
  unfold islandEffect
  split
  · exact absurd ‹_› h13
  · exact absurd ‹_› h15
  · exact absurd ‹_› h16
  · rfl

/-- The waiting source starts in an island on a PLL, and islands on fallback return. -/
theorem islandChange_of_plain {i : Fin 22} {w : Fin 3} {s : State} (hi : i ∈ pllIslands) (h13 : i.val ≠ 13)
    (h15 : i.val ≠ 15) (h16 : i.val ≠ 16) (hw : s.clock.isl[i].next = some w) :
    islandChange i s = returnIslands (modIslClk i (started (startsWith i w s)) s) := by
  have htcxo : ¬ tcxoIslands.contains i = true := by simpa using mem_pllIslands.mp hi
  unfold islandChange
  simp only [hw, if_neg htcxo, islandEffect_of_plain h13 h15 h16, ite_self]
  rfl

/-- What the start of a source makes of the island: it runs from it, and asks only for a source to return to. -/
theorem islandChange_effect {i : Fin 22} {w : Fin 3} {s : State} (hi : i ∈ pllIslands) (h13 : i.val ≠ 13)
    (h15 : i.val ≠ 15) (h16 : i.val ≠ 16) (hw : s.clock.isl[i].next = some w) :
    (islandChange i s).clock.isl[i] = returned s i (started (startsWith i w s) s.clock.isl[i]) ∧
      Frame [.clock] s (islandChange i s) := by
  rw [islandChange_of_plain hi h13 h15 h16 hw, returnIslands_isl hi, modIslClk_isl_self, islandless_modIslClk]
  refine ⟨?_, (modIslClk_only i _ s).comp (returnIslands_only _)⟩
  simp only [returned, returnSource_islandless]

/-- The own PLL starts in an island where it is locked. -/
theorem startsWith_of_locked {i : Fin 22} {s : State} (h : (pllOf s s.clock.isl[i].own).locked = true) :
    startsWith i 0 s = 0 := by
  rw [startsWith, h]
  rfl

/-- The ring oscillator starts in place of a PLL that is not locked (R58). -/
theorem startsWith_of_unlocked {i : Fin 22} {s : State} (h : (pllOf s s.clock.isl[i].own).locked = false) :
    startsWith i 0 s = 2 := by
  rw [startsWith, h]
  rfl

/-- AON, SAFE or FIO runs from the source it has to take. -/
theorem tcxoSrc_startTcxo {i : Fin 22} (hi : i ∈ tcxoIslands) (s : State) :
    tcxoSrc (startTcxo i s).clock i = tcxoWant s.clock i := by
  have htaken (r : Fin 3) : r = 0 ∨ r = 1 ∨ r = 2 := by revert r; decide
  have hi : i = 0 ∨ i = 18 ∨ i = 19 := by simpa [tcxoIslands] using hi
  rw [startTcxo]
  obtain rfl | rfl | rfl := hi
  · rfl
  · obtain hr | hr | hr := htaken (tcxoWant s.clock 18) <;> rw [hr] <;> rfl
  · rfl

/-! ### Calibration of the ring oscillators (R56) -/

/-- The reference of a ring oscillator's calibration runs. -/
def ringReferenced (s : State) (i : Fin 22) (x : IslandClock) : Bool :=
  if i.val = 0 || i.val = 18 || i.val = 19 then s.clock.tcxoP || s.clock.tcxoS else (pllOf s x.own).locked

/-- An island's ring oscillator calibrated to a value of the list. -/
def calibrated (pm : List Nat) (s : State) (i : Fin 22) (x : IslandClock) : IslandClock :=
  if ringReferenced s i x then { x with ringPm := (pm[i.val]?.map ringBound).getD x.ringPm } else x

/-- One ring oscillator is calibrated. -/
def calibrate (pm : List Nat) (i : Fin 22) (t : State) : State := modIslClk i (calibrated pm t i) t

/-- The reference is told by the clocks. -/
theorem ringReferenced_of_clock {s t : State} (h : t.clock = s.clock) (i : Fin 22) (x : IslandClock) :
    ringReferenced t i x = ringReferenced s i x := by
  rw [ringReferenced, pllOf_of_clock h, h, ringReferenced]

/-- The other islands' clocks tell nothing of the reference. -/
theorem ringReferenced_islandless (s : State) (i : Fin 22) (x : IslandClock) :
    ringReferenced (islandless s) i x = ringReferenced s i x := by
  unfold ringReferenced
  rw [pllOf_islandless]
  rfl

/-- Each ring oscillator's step is told by its reference. -/
theorem calibrate_perIsland (pm : List Nat) : StepsPerIsland (calibrate pm) (calibrated pm) := fun i t =>
  modIslClk_congr (by simp only [calibrated, ringReferenced_islandless])

/-- Each ring oscillator is calibrated where its reference runs. -/
theorem calibrateRings_eq (pm : List Nat) (s : State) : calibrateRings pm s = foldS (idx 22) (calibrate pm) s := by
  have hstep (i : Fin 22) (t : State) : (match pm[i.val]? with
      | some v => if ringReferenced t i t.clock.isl[i] then modIslClk i (fun x => { x with ringPm := ringBound v }) t else t
      | none => t) = calibrate pm i t := by
    unfold calibrate
    split
    · rename_i v hv
      split
      · rename_i hok
        exact modIslClk_congr (by rw [calibrated, if_pos hok, hv]; rfl)
      · rename_i hok
        exact (modIslClk_of_idle (if_neg hok)).symm
    · rename_i hv
      exact (modIslClk_of_idle (by rw [calibrated, hv]; exact ite_self _)).symm
  exact congrArg (fun g => foldS (idx 22) g s) (funext fun i => funext (hstep i))

/-- What the calibration of every second makes of a ring oscillator. -/
theorem ringCalibrate_isl (pm : List Nat) (s : State) (i : Fin 22) :
    (calibrateRings pm (periodic tkRing (secs 1) s)).clock.isl[i] = calibrated pm s i s.clock.isl[i] := by
  have hclock : (periodic tkRing (secs 1) s).clock = s.clock := periodic_only tkRing (secs 1) s .clock (by simp)
  generalize periodic tkRing (secs 1) s = t at hclock
  rw [calibrateRings_eq, (calibrate_perIsland pm).isl_eq (xs := idx 22) (List.nodup_finRange 22) (List.mem_finRange i), hclock]
  simp only [calibrated, ringReferenced_islandless, ringReferenced_of_clock hclock]

/-- A value within its limits is taken as it is. -/
theorem ringBound_toNat {v : Nat} (hlo : 686 ≤ v) (hhi : v ≤ 714) : (ringBound v).toNat = v := by
  rw [ringBound, BitVec.toNat_ofNat]
  omega

/-- A ring oscillator whose reference runs takes its value of the list. -/
theorem calibrated_ringPm {pm : List Nat} {s : State} {i : Fin 22} {x : IslandClock} (hlen : pm.length = 22)
    (hlo : 686 ≤ pm.getD i.val 0) (hhi : pm.getD i.val 0 ≤ 714) (href : ringReferenced s i x = true) :
    (calibrated pm s i x).ringPm.toNat = pm.getD i.val 0 := by
  have hget : pm[i.val]? = some (pm.getD i.val 0) := by
    have hi : i.val < pm.length := by rw [hlen]; exact i.isLt
    rw [List.getD_eq_getElem _ _ hi, List.getElem?_eq_getElem hi]
  rw [calibrated, if_pos href, hget]
  exact ringBound_toNat hlo hhi

/-- The reference of an island on a PLL is that PLL. -/
theorem ringReferenced_of_pll {i : Fin 22} (hi : i ∈ pllIslands) (s : State) (x : IslandClock) :
    ringReferenced s i x = (pllOf s x.own).locked := by
  have hno : (i.val = 0 || i.val = 18 || i.val = 19) = false := by
    revert i; decide
  rw [ringReferenced, hno]
  rfl

/-- The reference of AON, SAFE and FIO is any TCXO (log entry 62). -/
theorem ringReferenced_of_tcxo {i : Fin 22} (hi : i ∈ tcxoIslands) (s : State) (x : IslandClock) :
    ringReferenced s i x = (s.clock.tcxoP || s.clock.tcxoS) := by
  have hyes : (i.val = 0 || i.val = 18 || i.val = 19) = true := by
    revert i; decide
  rw [ringReferenced, hyes]
  rfl

/-- Islands change their source at the handshake boundary, and ring oscillators are calibrated. -/
theorem islandSourcesChange : Claim.IslandSourcesChange := by
  intro s i
  refine ⟨fun hnext => ?_, fun hi h13 h15 h16 hnext hlock => ?_, fun hi h13 h15 h16 hsrc hnext => ?_, fun hi hnext => ?_,
    fun pm hlen hlo hhi => ?_⟩
  · change Host.Outcome.next (islandChange i s) = _
    rw [islandChange, hnext]
  · obtain ⟨hisl, hframe⟩ := islandChange_effect hi h13 h15 h16 hnext
    rw [startsWith_of_locked hlock] at hisl
    refine ⟨_, rfl, ?_⟩
    rw [hisl]
    exact ⟨rfl, rfl, rfl, hframe⟩
  · have hstart : ∃ w, s.clock.isl[i].next = some w ∧ startsWith i w s = 2 := by
      obtain hnext | ⟨hnext, hlock⟩ := hnext
      · exact ⟨2, hnext, rfl⟩
      · exact ⟨0, hnext, startsWith_of_unlocked hlock⟩
    obtain ⟨w, hw, hstart⟩ := hstart
    obtain ⟨hisl, hframe⟩ := islandChange_effect hi h13 h15 h16 hw
    rw [hstart] at hisl
    refine ⟨_, rfl, ?_⟩
    rw [hisl]
    exact ⟨rfl, if_pos (by simpa using hsrc), hframe⟩
  · obtain ⟨w, hw⟩ := Option.ne_none_iff_exists'.mp hnext
    have hex : exec (.islandSourceChange i) s = .next (startTcxo i s) := by
      change Host.Outcome.next (islandChange i s) = _
      rw [islandChange, hw]
      exact congrArg Host.Outcome.next (if_pos (by simpa using hi))
    refine ⟨_, hex, tcxoSrc_startTcxo hi s, ?_, startTcxo_only i s⟩
    rw [startTcxo, modIslClk_isl_self]
  · have hisl := ringCalibrate_isl pm s i
    refine ⟨_, rfl, fun hi hlock => ?_, fun hi hlock => ?_, fun hi hP => ?_,
      (execRingCalibrate_only pm s _ rfl).mono (by simp)⟩
    · rw [hisl]
      exact calibrated_ringPm hlen hlo hhi ((ringReferenced_of_pll hi s _).trans hlock)
    · rw [hisl, calibrated, ringReferenced_of_pll hi, hlock]
      rfl
    · rw [hisl]
      exact calibrated_ringPm hlen hlo hhi (by rw [ringReferenced_of_tcxo hi, hP, Bool.true_or])

/-! ### SPARE (R62, R63, R65) -/

/-- An island of the PLL that SPARE has served leaves SPARE. -/
def leftSpare (served : Pll) (_ : State) (_ : Fin 22) (x : IslandClock) : IslandClock :=
  if x.own = served then { x with next := if x.src = 1 then some 0 else x.next, viaSpare := false } else x

/-- One island leaves SPARE. -/
def leaveSpare (served : Pll) (i : Fin 22) (t : State) : State := modIslClk i (leftSpare served t i) t

/-- Each island leaves SPARE by what it runs from itself. -/
theorem leaveSpare_perIsland (served : Pll) : StepsPerIsland (leaveSpare served) (leftSpare served) := fun _ _ => rfl

/-- A release while SPARE serves NET, whose PLL is locked. -/
theorem exec_spareRelease_net {s : State} (huse : s.clock.spareUse = 3) (hlock : s.clock.net.locked = true) :
    exec .spareRelease s = .next (spareFreed s.clock.idleTgt (foldS pllIslands (leaveSpare .net) s)) := by
  have hserved : [Pll.sysA, .sysB, .net].find? (fun q => spareServes s q) = some .net := by
    simp [spareServes, huse, pllCode, List.find?]
  have hstep (i : Fin 22) (t : State) : (if some (t.clock.isl[i]).own = some Pll.net then
      modIslClk i (fun x => { x with next := if x.src = 1 then some 0 else x.next, viaSpare := false }) t else t) =
      leaveSpare .net i t := by
    unfold leaveSpare
    split
    · rename_i h
      exact modIslClk_congr (if_pos (Option.some.inj h)).symm
    · rename_i h
      exact (modIslClk_of_idle (if_neg fun e => h (congrArg some e))).symm
  change execSpareRelease s = _
  unfold execSpareRelease
  simp only [hserved, hstep]
  simp [pllOf, hlock, spareFreed]

/-- A release that SPARE or its PLL does not allow is refused. -/
theorem exec_spareRelease_refused {s : State} (h : s.clock.spareUse = 0 ∨ s.clock.spareUse = 3 ∧ s.clock.net.locked = false) :
    exec .spareRelease s = .next (raise .clk 12 s) := by
  change execSpareRelease s = _
  obtain huse | ⟨huse, hlock⟩ := h
  · simp [execSpareRelease, spareServes, huse, List.find?]
  · simp [execSpareRelease, spareServes, huse, pllCode, List.find?, pllOf, hlock]

/-- SPARE that is freed is idle, without spread, and walks to its idle target. -/
theorem spareFreed_clock (tgt : Bool) (s : State) : (spareFreed tgt s).clock.spareUse = 0 ∧
    (spareFreed tgt s).clock.spareTgt = tgt ∧ (spareFreed tgt s).clock.spare.spread = {} ∧
    (spareFreed tgt s).clock.isl = s.clock.isl := by
  unfold spareFreed retarget
  split
  · rename_i h
    exact ⟨rfl, h, rfl, rfl⟩
  · exact ⟨rfl, rfl, rfl, rfl⟩

/-- SPARE takes its idle target, and is released. -/
theorem spareControl : Claim.SpareControl := by
  intro s
  refine ⟨fun tgt huse => ?_, fun tgt huse htgt => ?_, fun huse => ?_, fun huse hlock => ?_, fun huse hlock => ?_⟩
  · exact congrArg Host.Outcome.next (if_neg huse)
  · exact congrArg Host.Outcome.next ((if_pos huse).trans (if_neg htgt))
  · exact exec_spareRelease_refused (.inl huse)
  · obtain ⟨hidle, htgt, hspread, hisl⟩ := spareFreed_clock s.clock.idleTgt (foldS pllIslands (leaveSpare .net) s)
    have hex := exec_spareRelease_net huse hlock
    refine ⟨_, hex, hidle, htgt, hspread, fun i hi hown hsrc => ?_, ?_⟩
    · rw [hisl, (leaveSpare_perIsland .net).isl_eq pllIslands_nodup hi, leftSpare, if_pos hown, hsrc]
      rfl
    · have hleave : Frame [.clock] s (foldS pllIslands (leaveSpare .net) s) :=
        Frame.foldS _ _ _ fun i t => modIslClk_only i _ t
      exact (hleave.mono (by simp)).comp (spareFreed_only _ _)
  · exact exec_spareRelease_refused (.inr ⟨huse, hlock⟩)

/-! ### Clock outputs (R65, R66) -/

/-- The source of an output is there: its PLL is locked, its reference runs, or the lane's islands run from a locked PLL. -/
def FeedRuns (s : State) : CkoFeed → Prop
  | .net125 => s.clock.net.locked = true
  | .net156 => s.clock.net.locked = true
  | .ref10 => s.clock.ref10 = true
  | .pps => s.clock.pps = true
  | .tcxo => s.clock.tcxoP = true
  | .timebase l sp => laneRunsOn s l 2 = false ∧ laneLocked s l = true ∧ laneRunsOn s l 1 = sp

/-- A lane's timebase is delivered while none of its islands is on fallback and their PLL is locked. -/
theorem timebaseFeed_runs {l : Lane} {s : State} {f : CkoFeed} (h : timebaseFeed l s = some f) : FeedRuns s f := by
  unfold timebaseFeed at h
  split at h
  · cases h
  · rename_i hrun
    cases h
    simpa [FeedRuns] using hrun

/-- A source that is delivered on a condition is there where the condition says so. -/
theorem feedRuns_of_ite {c : Bool} {f g : CkoFeed} {s : State} (hc : c = true → FeedRuns s f)
    (h : (if c then some f else none) = some g) : FeedRuns s g := by
  obtain ⟨hcond, hfg⟩ := Option.ite_none_right_eq_some.mp h
  cases hfg
  exact hc hcond

/-- An output that delivers is enabled, divides as it is set, and its source is there. -/
theorem ckoFeed_runs {n : Fin 4} {s : State} {f : CkoFeed} {d : Nat} (h : ckoFeed n s = some (f, d)) :
    s.clock.cko[n].en = true ∧ d = s.clock.cko[n].div.toNat + 1 ∧ FeedRuns s f := by
  unfold ckoFeed at h
  extract_lets c x feed at h
  have hfeed (g : CkoFeed) (hg : feed = some g) : FeedRuns s g := by
    unfold feed at hg
    split at hg
    · exact feedRuns_of_ite id hg
    · exact feedRuns_of_ite id hg
    · exact timebaseFeed_runs hg
    · exact timebaseFeed_runs hg
    · exact feedRuns_of_ite id hg
    · exact feedRuns_of_ite id hg
    · exact feedRuns_of_ite id hg
    · cases hg
  obtain ⟨hen, hmap⟩ := Option.ite_none_right_eq_some.mp h
  obtain ⟨g, hg, hgd⟩ := Option.map_eq_some_iff.mp hmap
  cases hgd
  exact ⟨hen, rfl, hfeed _ hg⟩

/-- An output set to the timebase of lane A delivers it as the lane has it. -/
theorem ckoFeed_timebase {n : Fin 4} {s : State} (hsrc : s.clock.cko[n].src = 2) : ckoFeed n s =
    if s.clock.cko[n].en then (timebaseFeed .a s).map (·, s.clock.cko[n].div.toNat + 1) else none := by
  rw [ckoFeed, hsrc]
  rfl

/-- The clock outputs follow their source. -/
theorem clockOutputsFollowTheirSource : Claim.ClockOutputsFollowTheirSource := by
  intro s n
  refine ⟨fun hen => ?_, fun f d h => ?_, fun hen hsrc hring hlock => ?_, fun hsrc hring => ?_⟩
  · exact if_neg (by rw [hen]; exact Bool.false_ne_true)
  · obtain ⟨hen, hd, hrun⟩ := ckoFeed_runs h
    refine ⟨hen, hd, ?_, ?_, ?_, ?_, ?_⟩
    · rintro (rfl | rfl) <;> exact hrun
    · rintro rfl
      exact hrun
    · rintro rfl
      exact hrun
    · rintro rfl
      exact hrun
    · rintro l sp rfl
      exact hrun
  · rw [ckoFeed_timebase hsrc, if_pos hen, timebaseFeed, hring, hlock]
    rfl
  · rw [ckoFeed_timebase hsrc, timebaseFeed, hring]
    exact ite_self _

/-- Settles O14: what a loss does beside noting it leaves the PLL that is lost, and each walk over the islands makes of every island
what its own step makes of it. -/
theorem pllsLockAndIslandsMove : Obligations.PllsLockAndIslandsMove :=
  ⟨pllLossAndLock, islandSourcesChange, spareControl, clockOutputsFollowTheirSource⟩

end Sys2Proof.Machine
end

section
/-! PROOFS. A demand that meets a transition out of M11 (O7; R70, R72, R319): it turns the transition back to M11, and no row of
R70 leads from M11 to itself. -/

namespace Sys2Proof.Machine

/-- A demand during a transition that leaves M11 ends it in M11 (R72). -/
theorem trigger_demand_of_leavingM11 {s : State} (hmd : s.md = 11) (hbusy : s.mode.busy = true) (ht : s.mode.target ≠ 11#4) :
    trigger .demand s = beginTransition ⟨11, 4, 0⟩ s := by
  have hrow : Trigger.row .demand s = some ⟨11, 4, 0⟩ := if_pos (by simp [hmd, hbusy])
  have hgoes : ¬ (s.mode.busy && s.mode.target == 11#4) = true := by simp [ht]
  unfold trigger
  rw [hrow]
  exact (if_pos rfl).trans (if_neg hgoes)

/-- A demand that is acted on stops the enable lines and the gates, and is a trigger to the mode controller (R319). -/
theorem actDemand_eq_trigger {s : State} (src at0 : Nat) (hlock : s.plk.locked = false) :
    ∃ u, actDemand src at0 s = trigger .demand u ∧ Frame [.plk, .events, .board, .gate] s u := by
  rw [actDemand, if_neg (by simp [hlock])]
  refine ⟨_, rfl, ?_⟩
  exact .under (settleGates_only _) (by simp) (.under (raise_only _ _ _) (by simp) (.under (modGate_only _ _) (by simp)
    (((modPlk_only _ _).comp (modPlk_only _ _)).mono (by simp))))

/-- So a demand that is acted on turns such a transition back. -/
theorem actDemand_mode_of_leavingM11 {s : State} (src at0 : Nat) (hlock : s.plk.locked = false) (hmd : s.md = 11)
    (hbusy : s.mode.busy = true) (ht : s.mode.target ≠ 11#4) :
    (actDemand src at0 s).mode = { s.mode with busy := true, target := 11, nextCause := 4, nextEvt := 0 } := by
  obtain ⟨u, hu, hframe⟩ := actDemand_eq_trigger src at0 hlock
  have hmode : u.mode = s.mode := hframe .mode (by simp)
  rw [hu, trigger_demand_of_leavingM11 (by rw [State.md, hmode]; exact hmd) (hmode ▸ hbusy) (hmode ▸ ht), beginTransition,
    hmode]

/-- A transition from M11 to M11 is no row of R70. -/
theorem not_sound_of_turnedBack {t : State} (hmd : t.md = 11) (hbusy : t.mode.busy = true) (ht : t.mode.target = 11) :
    Mode.sound t = false := by
  have hrow : (11, 11) ∉ transitionRows := by decide
  simp [Mode.sound, hmd, hbusy, ht, hrow]

/-- A module with a safety record that has accepted a reset in M11 and is on its way to M3 (R324), when the host demands. -/
def resetAccepted : State :=
  { State.reset with
    power := { State.reset.power with powered := true }
    key := { State.reset.key with records := [⟨0xA0, 0, []⟩] }
    mode := { mode := 11, busy := true, target := 3, nextCause := 2 }
    pending := [.plkCmdDemand 0x504C] }

/-- The demand reaches the safety function. -/
theorem step_resetAccepted : step resetAccepted =
    .next (actDemand 7 resetAccepted.now { resetAccepted with pending := [] }) :=
  congrArg Host.Outcome.next (if_pos (by decide))

/-- Refutes O7: from a sound state in M11, on its way to M3, a demand of the host leads to a transition from M11 to M11 (R72),
which `Mode.sound` does not list. -/
theorem not_modesChangeOnlyAlongTheirRows : ¬ Obligations.ModesChangeOnlyAlongTheirRows := by
  intro h
  obtain ⟨hsound, -⟩ := h resetAccepted _ (by decide) step_resetAccepted
  have hmode := actDemand_mode_of_leavingM11 (s := { resetAccepted with pending := [] }) 7 resetAccepted.now rfl rfl rfl (by decide)
  have hunsound := not_sound_of_turnedBack (t := actDemand 7 resetAccepted.now { resetAccepted with pending := [] })
    (by rw [State.md, hmode]; rfl) (by rw [hmode]) (by rw [hmode])
  exact absurd (hsound.symm.trans hunsound) (by decide)

end Sys2Proof.Machine
end

section
/-! PROOFS. KEY_CMD writes are counted, and refused in order (O18; R69, R96, R97, R99, R398; log entries 32 and 33). -/

namespace Sys2Proof.Machine

/-! ### The result of a write -/

/-- A command of a master that exists has its effect. -/
theorem byMaster_of_lt {m : Master} (hm : m.toNat < 14) (s : State) (f : State → State) : byMaster m s f = .next (f s) :=
  if_pos hm

/-- A write that posts its result at once takes the next SEQ, and its owner restarts the idle count (R97, R398). -/
theorem postKey_counted (op code : Nat) (m : Master) (s : State) :
    postKey op (s.key.seq + 1) code (when (owns s m) touchSession (modKey (fun k => { k with seq := s.key.seq + 1 }) s)) =
      Claim.refusedKey m (BitVec.ofNat 8 op) (BitVec.ofNat 8 code) s := by
  cases h : owns s m <;> simp only [Claim.refusedKey, h, when, if_true, if_false, Bool.false_eq_true] <;> rfl

/-- What a refusal leaves: its result, with MODE_REFUSED where the mode refuses an OPEN of a host port (R69). -/
def keyRefused (m : Master) (op : Byte) (code : Nat) (s : State) : State :=
  raiseIf (code == 5 && (m == 6 || m == 7)) .mode 2 (Claim.refusedKey m op (BitVec.ofNat 8 code) s)

/-- Every refusal but that by the mode raises nothing. -/
theorem keyRefused_of_ne {code : Nat} (h : code ≠ 5) (m : Master) (op : Byte) (s : State) :
    keyRefused m op code s = Claim.refusedKey m op (BitVec.ofNat 8 code) s := by
  have hno : (code == 5 && (m == 6 || m == 7)) = false := by simp [h]
  rw [keyRefused, hno]
  rfl

/-- An OPEN that the mode refuses to a host port raises MODE_REFUSED (R69). -/
theorem keyRefused_by_mode {m : Master} (hm : m = 6 ∨ m = 7) (op : Byte) (s : State) :
    keyRefused m op 5 s = raise .mode 2 (Claim.refusedKey m op 5 s) := by
  have hyes : (5 == 5 && (m == 6 || m == 7)) = true := by simpa using hm
  rw [keyRefused, hyes]
  rfl

/-- A refused write takes the next SEQ. -/
theorem keyRefused_seq (m : Master) (op : Byte) (code : Nat) (s : State) : (keyRefused m op code s).key.seq = s.key.seq + 1 := by
  rw [keyRefused, raiseIf_key]
  rfl

/-! ### One KEY_CMD write -/

section
variable {op : Nat} {m : Master} {key : Half} {fw : Bool} {refuse : State → Nat} {start : State → State} {s : State} {code : Nat}

/-- What refuses every command refuses this one, before its own conditions. -/
theorem keyCommand_of_gate (hg : keyGate m key op s = code) (hc : code ≠ 0) :
    keyCommand op m key fw refuse start s = keyRefused m (BitVec.ofNat 8 op) code s := by
  simp only [keyCommand, hg, if_pos hc, postKey_counted]
  rfl

/-- Where nothing refuses every command, its own conditions do. -/
theorem keyCommand_of_refusal (hg : keyGate m key op s = 0) (hr : refuse s = code) (hc : code ≠ 0) :
    keyCommand op m key fw refuse start s = keyRefused m (BitVec.ofNat 8 op) code s := by
  simp only [keyCommand, hg, hr, ne_eq, not_true_eq_false, if_false, if_pos hc, postKey_counted]
  rfl

/-- A KEY_CMD write takes the next SEQ, whatever becomes of it (R398). -/
theorem keyCommand_seq (hstart : ∀ t, (start t).key.seq = t.key.seq) :
    (keyCommand op m key fw refuse start s).key.seq = s.key.seq + 1 := by
  by_cases hg : keyGate m key op s = 0
  · by_cases hr : refuse s = 0
    · simp only [keyCommand, hg, hr, ne_eq, not_true_eq_false, if_false, hstart]
      exact when_keeps (fun t => t.key.seq) _ _ _ rfl
    · rw [keyCommand_of_refusal hg rfl hr, keyRefused_seq]
  · rw [keyCommand_of_gate rfl hg, keyRefused_seq]

end

/-! ### OPEN -/

/-- What refuses every command refuses an OPEN. -/
theorem openCmd_of_gate {m : Master} {key : Half} {fw : Bool} {s : State} {code : Nat} (hg : keyGate m key 1 s = code)
    (hc : code ≠ 0) : openCmd m key fw s = keyRefused m 1 code s := by
  have hnot : ¬ (decide (keyGate m key 1 s = 0) && owns s m) = true := by simp [hg, hc]
  rw [openCmd, if_neg hnot]
  exact keyCommand_of_gate hg hc

/-- The owner's OPEN answers at once (R96). -/
theorem openCmd_of_owner {m : Master} {key : Half} {fw : Bool} {s : State} (hg : keyGate m key 1 s = 0) (ho : owns s m = true) :
    openCmd m key fw s = Claim.refusedKey m 1 0 s := by
  have hyes : (decide (keyGate m key 1 s = 0) && owns s m) = true := by simp [hg, ho]
  have hpost := postKey_counted 1 0 m s
  rw [ho] at hpost
  rw [openCmd, if_pos hyes]
  exact hpost

/-- OPEN takes the next SEQ. -/
theorem openCmd_seq (m : Master) (key : Half) (fw : Bool) (s : State) : (openCmd m key fw s).key.seq = s.key.seq + 1 := by
  rw [openCmd]
  split
  · rfl
  · exact keyCommand_seq fun _ => rfl

/-! ### The commands of the table -/

section
variable {m : Master} {key : Half} {fw : Bool} {s : State} {c : Instr} {op : Byte} (hm : m.toNat < 14)
  (h : (c, op) ∈ Claim.keyCommands m key fw)
include hm h

/-- A command of the table is OPEN, or one that runs by its own conditions and its own start, which keeps SEQ. -/
theorem exec_keyCommand_cases (s : State) : op = 1 ∧ exec c s = .next (openCmd m key fw s) ∨
    ∃ refuse start, (∀ t, (start t).key.seq = t.key.seq) ∧ exec c s = .next (keyCommand op.toNat m key fw refuse start s) := by
  have hseq (t : State) : (endSession false t).key.seq = t.key.seq := by rw [endSession, raiseIf_key]; rfl
  have run (f : State → State) := byMaster_of_lt hm s f
  simp only [Claim.keyCommands, List.mem_cons, List.not_mem_nil, or_false, Prod.mk.injEq] at h
  obtain ⟨rfl, rfl⟩ | ⟨rfl, rfl⟩ | ⟨rfl, rfl⟩ | ⟨rfl, rfl⟩ | ⟨rfl, rfl⟩ | ⟨rfl, rfl⟩ | ⟨rfl, rfl⟩ | ⟨rfl, rfl⟩ | ⟨rfl, rfl⟩ |
    ⟨rfl, rfl⟩ := h
  case inl => exact .inl ⟨rfl, run _⟩
  case inr.inl => exact .inr ⟨_, _, hseq, run _⟩
  all_goals
    refine .inr ⟨_, _, ?_, run _⟩
    exact fun _ => rfl

/-- What refuses every command refuses each one of the table. -/
theorem exec_keyCommand_of_gate {code : Nat} (hg : keyGate m key op.toNat s = code) (hc : code ≠ 0) :
    exec c s = .next (keyRefused m op code s) := by
  obtain ⟨rfl, hex⟩ | ⟨refuse, start, -, hex⟩ := exec_keyCommand_cases hm h s
  · rw [hex, openCmd_of_gate hg hc]
  · rw [hex, keyCommand_of_gate hg hc, BitVec.ofNat_toNat, BitVec.setWidth_eq]

/-- Each command of the table takes the next SEQ. -/
theorem exec_keyCommand_seq (s : State) : ∃ t, exec c s = .next t ∧ t.key.seq = s.key.seq + 1 := by
  obtain ⟨-, hex⟩ | ⟨refuse, start, hseq, hex⟩ := exec_keyCommand_cases hm h s
  · exact ⟨_, hex, openCmd_seq m key fw s⟩
  · exact ⟨_, hex, keyCommand_seq hseq⟩

end

/-! ### What refuses every command -/

/-- The number of an OP is that of OPEN only where the OP is. -/
theorem op_toNat_ne_one {op : Byte} (h : op ≠ 1) : op.toNat ≠ 1 := fun e => h (BitVec.eq_of_toNat_eq e)

section
variable {m : Master} {op : Nat} {s : State}

/-- A wrong KEY. -/
theorem keyGate_of_wrongKey {key : Half} (h : key ≠ 0x4B59) : keyGate m key op s = 4 := if_pos h

/-- A command that runs. -/
theorem keyGate_of_running (h : s.key.running.isSome = true) : keyGate m 0x4B59 op s = 1 := by simp [keyGate, h]

/-- No session is open. -/
theorem keyGate_of_no_session (h : s.key.running = none) (hop : op ≠ 1) (hs : s.key.session = false) :
    keyGate m 0x4B59 op s = 2 := by simp [keyGate, h, hop, hs]

/-- Another master owns the session. -/
theorem keyGate_of_not_owner (h : s.key.running = none) (hop : op ≠ 1) (hs : s.key.session = true) (ho : s.key.owner ≠ m) :
    keyGate m 0x4B59 op s = 3 := by simp [keyGate, h, hop, hs, ho]

/-- The owner's command is judged by its own conditions. -/
theorem keyGate_of_owner (h : s.key.running = none) (hop : op ≠ 1) (hs : s.key.session = true) (ho : s.key.owner = m) :
    keyGate m 0x4B59 op s = 0 := by simp [keyGate, h, hop, hs, ho]

/-- OPEN by a master that is no host port. -/
theorem keyGate_open_of_master (h : s.key.running = none) (h6 : m ≠ 6) (h7 : m ≠ 7) : keyGate m 0x4B59 1 s = 3 := by
  rw [keyGate, if_neg (by simp), if_neg (by simp [h]), if_pos rfl, if_pos (by simpa using ⟨h6, h7⟩)]

/-- OPEN by a host port is judged by the mode, then by the owner of an open session. -/
theorem keyGate_open_of_host (h : s.key.running = none) (hm : m = 6 ∨ m = 7) :
    keyGate m 0x4B59 1 s = if !openMode s then 5 else if s.key.session && s.key.owner ≠ m then 3 else 0 := by
  have hhost : ¬ (decide (m ≠ 6) && decide (m ≠ 7)) = true := by simpa [or_iff_not_imp_left] using hm
  rw [keyGate, if_neg (by simp), if_neg (by simp [h]), if_pos rfl, if_neg hhost]

/-- OPEN in a mode that does not permit it. -/
theorem keyGate_open_of_mode (h : s.key.running = none) (hm : m = 6 ∨ m = 7) (hmode : openMode s = false) :
    keyGate m 0x4B59 1 s = 5 := by
  rw [keyGate_open_of_host h hm, if_pos (by simp [hmode])]

/-- OPEN by the other host port during a session. -/
theorem keyGate_open_of_not_owner (h : s.key.running = none) (hm : m = 6 ∨ m = 7) (hmode : openMode s = true)
    (hs : s.key.session = true) (ho : s.key.owner ≠ m) : keyGate m 0x4B59 1 s = 3 := by
  rw [keyGate_open_of_host h hm, if_neg (by simp [hmode]), if_pos (by simp [hs, ho])]

/-- OPEN by the owner. -/
theorem keyGate_open_of_owner (h : s.key.running = none) (hm : m = 6 ∨ m = 7) (hmode : openMode s = true)
    (ho : s.key.owner = m) : keyGate m 0x4B59 1 s = 0 := by
  rw [keyGate_open_of_host h hm, if_neg (by simp [hmode]), if_neg (by simp [ho])]

end

/-- In M3 OPEN is permitted. -/
theorem openMode_of_M3 {s : State} (h : s.md = 3) : openMode s = true := by simp [openMode, h]

/-- Out of M3 it is permitted in a held M1 alone. -/
theorem openMode_of_not_M3 {s : State} (h : s.md ≠ 3) (h1 : s.md ≠ 1 ∨ s.key.heldM1 = false) : openMode s = false := by
  simpa [openMode, h, or_iff_not_imp_left] using h1

/-! ### The statement -/

/-- Each command of the table is counted, and refused by what refuses every command. -/
theorem keyCommandsAreCountedAndRefused : Claim.KeyCommandsAreCountedAndRefused := by
  intro s m key fw hm c op h
  refine ⟨exec_keyCommand_seq hm h s, fun hkey => ?_, ?_, ?_, ?_, ?_, ?_, ?_, ?_⟩
  · rw [exec_keyCommand_of_gate hm h (keyGate_of_wrongKey hkey) (by omega), keyRefused_of_ne (by omega)]
    rfl
  · rintro rfl hrun
    rw [exec_keyCommand_of_gate hm h (keyGate_of_running hrun) (by omega), keyRefused_of_ne (by omega)]
    rfl
  · rintro rfl hrun hop hs
    rw [exec_keyCommand_of_gate hm h (keyGate_of_no_session hrun (op_toNat_ne_one hop) hs) (by omega),
      keyRefused_of_ne (by omega)]
    rfl
  · rintro rfl hrun hop hs ho
    rw [exec_keyCommand_of_gate hm h (keyGate_of_not_owner hrun (op_toNat_ne_one hop) hs ho) (by omega),
      keyRefused_of_ne (by omega)]
    rfl
  · rintro rfl hrun rfl h6 h7
    rw [exec_keyCommand_of_gate hm h (keyGate_open_of_master hrun h6 h7) (by omega), keyRefused_of_ne (by omega)]
    rfl
  · rintro rfl hrun rfl hhost h3 h1
    rw [exec_keyCommand_of_gate hm h (keyGate_open_of_mode hrun hhost (openMode_of_not_M3 h3 h1)) (by omega),
      keyRefused_by_mode hhost]
  · rintro rfl hrun rfl hhost h3 hs ho
    rw [exec_keyCommand_of_gate hm h (keyGate_open_of_not_owner hrun hhost (openMode_of_M3 h3) hs ho) (by omega),
      keyRefused_of_ne (by omega)]
    rfl
  · rintro rfl hrun h3 hs ho hhost
    have howns : owns s m = true := by simp [owns, hs, ho]
    exact (byMaster_of_lt hm s _).trans
      (congrArg Host.Outcome.next (openCmd_of_owner (keyGate_open_of_owner hrun hhost (openMode_of_M3 h3) ho) howns))

/-- An OP outside the table is counted and refused with code 20. -/
theorem unlistedKeyCommandsAreRefused : Claim.UnlistedKeyCommandsAreRefused := by
  intro s m fw op hm hop hrun hs ho
  have hne : op.toNat ≠ 1 := by
    rintro h
    obtain rfl | hop := hop
    · exact absurd h (by decide)
    · omega
  have hgate := keyGate_of_owner hrun hne hs ho
  have hcmd : keyCommand op.toNat m 0x4B59 fw (fun _ => 20) id s = keyRefused m (BitVec.ofNat 8 op.toNat) 20 s :=
    keyCommand_of_refusal hgate rfl (by omega)
  rw [BitVec.ofNat_toNat, BitVec.setWidth_eq, keyRefused_of_ne (by omega)] at hcmd
  exact (byMaster_of_lt hm s _).trans (congrArg Host.Outcome.next hcmd)

/-- Settles O18: one judgement, `keyGate`, refuses every command of the table before its own conditions, and what a refusal
leaves is its result alone. -/
theorem keyCommandsAreJudged : Obligations.KeyCommandsAreJudged :=
  ⟨keyCommandsAreCountedAndRefused, unlistedKeyCommandsAreRefused⟩

end Sys2Proof.Machine
end

section
/-! PROOFS. Stops and wakes move the mode (O16; R70, R74, R199; log entries 3 and 11). -/

namespace Sys2Proof.Machine

/-- While no transition runs, a trigger with a row starts its transition at once (R72). -/
theorem trigger_begins {x : Trigger} {r : Transition} {s : State} (hrow : x.row s = some r) (hb : s.mode.busy = false) :
    trigger x s = beginTransition r s := by
  simp [trigger, hrow, hb]

/-- HSP_CSN low for less than 10 µs is no wake (R70). -/
theorem hspWake_of_short {ns : Nat} (h : ns < 10000) (s : State) : hspWake ns s = s := if_pos (by simp [h])

/-- From 10 µs on it wakes a module in M0, which starts as after a cold start (R70, R325). -/
theorem hspWake_of_long {ns : Nat} {s : State} (hp : s.power.powered = true) (hmd : s.md = 0) (hb : s.mode.busy = false)
    (h : 10000 ≤ ns) : hspWake ns s =
      beginTransition ⟨1, 1, 0⟩ (modMode (fun m => { m with startAt := s.now, cold := true, fullStart := false }) s) :=
  if_neg (by simp [hp, hmd, hb, h])

/-- The precharge time ends without DC_READY: back to M3 (R70, R199). -/
theorem prechargeTo_of_not_ready {s : State} (hmd : s.md = 4) (hr : (seniorGf s).dcReady = false) (hb : s.mode.busy = false) :
    prechargeTo s = beginTransition ⟨3, 9, 0x100⟩ (elapseTo (s.mode.prechargeAt + preTime s) s) := by
  have hrow : Trigger.row (.auto 4 3 9) (elapseTo (s.mode.prechargeAt + preTime s) s) = some ⟨3, 9, 0x100⟩ :=
    if_pos (beq_iff_eq.mpr (mode_of_md hmd))
  have hgo : ¬ (decide (s.md ≠ 4) || (seniorGf s).dcReady) = true := by simp [hmd, hr]
  exact (if_neg hgo).trans (trigger_begins hrow hb)

/-- The hold time of R74 where the power record names none. -/
theorem brownHold_of_default {s : State} (h : u16 (recD s 0x10 0) 180 = 0xFFFF) : brownHold s = 3200000 := by
  simp [brownHold, h, ms]

/-- The hold time ends with AUX_DROP still set: a stop to M3 (R70, R74). -/
theorem brownStop_of_held {s : State} {t0 : Nat} (hat : s.mode.brownAt = some t0) (hrun : inRun s = true)
    (hb : s.mode.busy = false) (hv : 28000 ≤ s.power.vbusMv) :
    brownStop s = applyBlocks (beginTransition ⟨3, 6, 8⟩ (modMode (fun m => { m with brownAt := none })
      (elapseTo (t0 + brownHold s) s))) := by
  have hrow : Trigger.row (.stop 6 3) (modMode (fun m => { m with brownAt := none }) (elapseTo (t0 + brownHold s) s)) =
      some ⟨3, 6, 8⟩ := if_pos (by rw [Bool.and_eq_true]; exact ⟨hrun, rfl⟩)
  simp only [brownStop, hat, hrun, Bool.not_true, Bool.false_eq_true, if_false, if_neg (Nat.not_lt.mpr hv)]
  rw [trigger_begins hrow hb]

/-- Wakes and stops start their transitions. -/
theorem stopsAndWakes : Claim.StopsAndWakes := by
  intro s
  refine ⟨fun ns hp hmd hb hns => ?_, fun ns hns => congrArg Host.Outcome.next (hspWake_of_short hns s),
    fun hmd hr hb => ?_, fun _ hr => congrArg Host.Outcome.next (if_pos (by simp [hr])), fun t0 hat hrun hb hv hrec => ?_,
    fun hat => ?_⟩
  · exact congrArg Host.Outcome.next (hspWake_of_long hp hmd hb hns)
  · refine ⟨_, congrArg Host.Outcome.next (prechargeTo_of_not_ready hmd hr hb), rfl, rfl, rfl, ?_, ?_⟩
    · exact elapseTo_now_eq_max _ s
    · exact ((elapseTo_only _ s).mono (by simp)).comp ((beginTransition_only _ _).mono (by simp))
  · refine ⟨_, congrArg Host.Outcome.next (brownStop_of_held hat hrun hb hv), ?_⟩
    have hblocks := applyBlocks_only (beginTransition ⟨3, 6, 8⟩ (modMode (fun m => { m with brownAt := none })
      (elapseTo (t0 + brownHold s) s)))
    have hmode := hblocks .mode (by simp)
    rw [hmode, hblocks.now_eq (by simp), brownHold_of_default hrec]
    exact ⟨rfl, rfl, rfl, rfl, elapseTo_now_eq_max _ s⟩
  · exact congrArg Host.Outcome.next (by simp only [brownStop, hat])

/-- Settles O16: each of these triggers has its row in the mode it finds, and while no transition runs it starts at once. -/
theorem stopsAndWakesMoveTheMode : Obligations.StopsAndWakesMoveTheMode := stopsAndWakes

end Sys2Proof.Machine
end

section
/-! PROOFS. Host requests to the mode controller (O15; R70, R73, R75, R80, R396). -/

namespace Sys2Proof.Machine

/-! ### The judgement of a request -/

/-- The requests that MODE_REQ can make, with their targets. -/
def modeRequests (key : Half) : List (Instr × BitVec 4) :=
  [(.modeReqDormant key, 0#4), (.modeReqRestart key, 1#4), (.modeReqBlocked key, 3#4), (.modeReqPrecharge key, 4#4),
    (.modeReqBlackStart key, 5#4), (.modeReqSynchronise key, 6#4)]

/-- Each of them is a request of its target, and a target that the host may name. -/
theorem exec_modeRequest {key : Half} {c : Instr} {n : BitVec 4} (h : (c, n) ∈ modeRequests key) (s : State) :
    exec c s = .next (requestMode key n s) ∧ [0, 1, 3, 4, 5, 6].contains n.toNat = true := by
  simp only [modeRequests, List.mem_cons, List.not_mem_nil, or_false, Prod.mk.injEq] at h
  obtain ⟨rfl, rfl⟩ | ⟨rfl, rfl⟩ | ⟨rfl, rfl⟩ | ⟨rfl, rfl⟩ | ⟨rfl, rfl⟩ | ⟨rfl, rfl⟩ := h
  all_goals exact ⟨rfl, by decide⟩

section
variable {key : Half} {n : BitVec 4} {s : State} (h0 : s.md ≠ 0)
include h0

/-- A wrong KEY is refused with code 2. -/
theorem requestMode_of_wrongKey (hk : key ≠ 0x4D4F) : requestMode key n s = refuseMode 2 s := by
  rw [requestMode, if_neg h0, if_pos hk]

/-- A target that is never accepted is refused with code 1. -/
theorem requestMode_of_unaccepted (hn : [0, 1, 3, 4, 5, 6].contains n.toNat = false) :
    requestMode 0x4D4F n s = refuseMode 1 s := by
  rw [requestMode, if_neg h0, if_neg (by simp), if_pos (by rw [hn]; rfl)]

/-- A request that arrives during a transition waits. -/
theorem requestMode_of_busy (hn : [0, 1, 3, 4, 5, 6].contains n.toNat = true) (hb : s.mode.busy = true) :
    requestMode 0x4D4F n s = modMode (fun m => { m with held := m.held ++ [.host n] }) s := by
  rw [requestMode, if_neg h0, if_neg (by simp), if_neg (by rw [hn]; decide), if_pos hb]

/-- Any other one is judged at once. -/
theorem requestMode_of_idle (hn : [0, 1, 3, 4, 5, 6].contains n.toNat = true) (hb : s.mode.busy = false) :
    requestMode 0x4D4F n s = judgeRequest n s := by
  rw [requestMode, if_neg h0, if_neg (by simp), if_neg (by rw [hn]; decide), if_neg (by simp [hb])]

/-- So a request that its judgement refuses is refused with that code. -/
theorem exec_modeRequest_refused {c : Instr} {code : Nat} (h : (c, n) ∈ modeRequests 0x4D4F) (hb : s.mode.busy = false)
    (hr : refusal n.toNat s = code) (hc : code ≠ 0) : exec c s = .next (refuseMode code s) := by
  obtain ⟨hex, hn⟩ := exec_modeRequest h s
  rw [hex, requestMode_of_idle h0 hn hb, judgeRequest, hr, if_pos hc]

/-- One that its judgement permits starts its transition; those of targets below 4 stop pulses. -/
theorem exec_modeRequest_permitted {c : Instr} (h : (c, n) ∈ modeRequests 0x4D4F) (hb : s.mode.busy = false)
    (hr : refusal n.toNat s = 0) : exec c s = .next (
      let s1 := beginTransition ⟨n, 1, 0⟩
        (if n = 1 then modMode (fun m => { m with startAt := s.now, cold := false, fullStart := false }) s else s)
      if n.toNat < 4 then applyBlocks s1 else s1) := by
  obtain ⟨hex, hn⟩ := exec_modeRequest h s
  rw [hex, requestMode_of_idle h0 hn hb, judgeRequest, hr, if_neg (by simp)]

end

/-! ### Codes of a refusal -/

section
variable {s : State}

/-- The targets that need no grid-forming record are judged by their row and its condition. -/
theorem refusal_of_row {n : Nat} (hn : n < 4) :
    refusal n s = if !hostRow n s then 1 else if !hostCondition n s then 3 else 0 := by
  have hno : ¬ 4 ≤ n := by omega
  simp [refusal, hno]

/-- So are the others where the image has one. -/
theorem refusal_of_gridForming (hrec : hasRec s 0x60 0 = true) (n : Nat) :
    refusal n s = if !hostRow n s then 1 else if !hostCondition n s then 3 else 0 := by
  simp [refusal, hrec]

/-- Without one they are refused with code 3 (R396). -/
theorem refusal_of_no_gridForming {n : Nat} (hmd : 3 ≤ s.md) (h4 : 4 ≤ n) (h6 : n ≤ 6) (hrec : hasRec s 0x60 0 = false) :
    refusal n s = 3 := by
  simp [refusal, hmd, h4, h6, hrec]

/-- From M11 only a warm restart has a row (R73). -/
theorem hostRow_of_M11 (hmd : s.md = 11) {n : Nat} (hn : n ≠ 1) : hostRow n s = false := by
  unfold hostRow
  split <;> simp_all [inRun]

/-- From M11 every target of a grid-forming module is refused (R73, R396). -/
theorem refusal_of_M11 (hmd : s.md = 11) {n : Nat} (h4 : 4 ≤ n) (h6 : n ≤ 6) :
    refusal n s = if hasRec s 0x60 0 then 1 else 3 := by
  cases hrec : hasRec s 0x60 0 with
  | true => rw [refusal_of_gridForming hrec, hostRow_of_M11 hmd (by omega)]; rfl
  | false => exact refusal_of_no_gridForming (by omega) h4 h6 hrec

end

/-- Requests are refused, or wait, as they are judged. -/
theorem modeRequestsAreJudged : Claim.ModeRequestsAreJudged := by
  intro s key target h0
  refine ⟨fun hk c hc => ?_, ?_, ?_, ?_, ?_, ?_, ?_⟩
  · have hall (n : BitVec 4) : requestMode key n s = refuseMode 2 s := requestMode_of_wrongKey h0 hk
    simp only [List.mem_cons, List.not_mem_nil, or_false] at hc
    obtain rfl | rfl | rfl | rfl | rfl | rfl | rfl := hc
    all_goals exact congrArg Host.Outcome.next (hall _)
  · rintro rfl hn
    exact congrArg Host.Outcome.next (requestMode_of_unaccepted h0 hn)
  · rintro rfl hb c n hc
    obtain ⟨hex, hn⟩ := exec_modeRequest (key := 0x4D4F) hc s
    rw [hex, requestMode_of_busy h0 hn hb]
    rfl
  · rintro rfl hb hmd htest hrec
    refine exec_modeRequest_refused (n := 4#4) h0 (by simp [modeRequests]) hb (code := 3) ?_ (by omega)
    have hcond : hostCondition 4 s = false := by simp [hostCondition, htest]
    have hrow : hostRow 4 s = true := beq_iff_eq.mpr hmd
    exact (refusal_of_gridForming hrec 4).trans (by rw [hrow, hcond]; rfl)
  · rintro rfl hb hmd c hc
    have refused {n : BitVec 4} (h : (c, n) ∈ modeRequests 0x4D4F) (hn : n.toNat < 4) (h1 : n.toNat ≠ 1) :
        exec c s = .next (refuseMode 1 s) :=
      exec_modeRequest_refused h0 h hb (by rw [refusal_of_row hn, hostRow_of_M11 hmd h1]; rfl) (by omega)
    simp only [List.mem_cons, List.not_mem_nil, or_false] at hc
    obtain rfl | rfl := hc
    · exact refused (n := 0#4) (by simp [modeRequests]) (by decide) (by decide)
    · exact refused (n := 3#4) (by simp [modeRequests]) (by decide) (by decide)
  · rintro rfl hb hmd c hc
    have refused {n : BitVec 4} (h : (c, n) ∈ modeRequests 0x4D4F) (h4 : 4 ≤ n.toNat) (h6 : n.toNat ≤ 6) :
        exec c s = .next (refuseMode (if hasRec s 0x60 0 then 1 else 3) s) :=
      exec_modeRequest_refused h0 h hb (refusal_of_M11 hmd h4 h6) (by split <;> omega)
    have hcode : refuseMode (if hasRec s 0x60 0 then 1 else 3) s =
        raise .mode 2 { s with mode := { s.mode with refuse := if hasRec s 0x60 0 then 1 else 3 } } := by
      split <;> rfl
    rw [← hcode]
    simp only [List.mem_cons, List.not_mem_nil, or_false] at hc
    obtain rfl | rfl | rfl := hc
    · exact refused (n := 4#4) (by simp [modeRequests]) (by decide) (by decide)
    · exact refused (n := 5#4) (by simp [modeRequests]) (by decide) (by decide)
    · exact refused (n := 6#4) (by simp [modeRequests]) (by decide) (by decide)
  · rintro rfl hb hmd hP hS c hc
    have hleft : refLeft s = false := by simp [refLeft, hP, hS]
    simp only [List.mem_cons, List.not_mem_nil, or_false] at hc
    obtain rfl | rfl := hc
    · refine exec_modeRequest_refused (n := 0#4) h0 (by simp [modeRequests]) hb (code := 3) ?_ (by omega)
      exact (refusal_of_row (by decide)).trans (by simp [hostRow, hmd, hostCondition, hleft])
    · refine exec_modeRequest_refused (n := 1#4) h0 (by simp [modeRequests]) hb (code := 3) ?_ (by omega)
      exact (refusal_of_row (by decide)).trans (by simp [hostRow, inStop, hmd, hostCondition, hleft])

/-- Requests that are permitted start their transitions. -/
theorem modeRequestsStartTransitions : Claim.ModeRequestsStartTransitions := by
  rintro s m hb rfl
  refine ⟨fun hmd hleft => ?_, fun hfrom => ?_, fun h4 h10 => ?_, fun hmd hrec hdem hlock htest hleft => ?_,
    fun hmd hrec hdc habs => ?_, fun hfrom hrec hdc hpres => ?_⟩
  · refine exec_modeRequest_permitted (n := 0#4) (by omega) (by simp [modeRequests]) hb ?_
    exact (refusal_of_row (by decide)).trans (by simp [hostRow, hmd, hostCondition, hleft])
  · refine exec_modeRequest_permitted (n := 1#4) (by omega) (by simp [modeRequests]) hb ?_
    refine (refusal_of_row (by decide)).trans ?_
    obtain ⟨hmd, hleft⟩ | hmd := hfrom
    · simp [hostRow, inStop, hmd, hostCondition, hleft]
    · simp [hostRow, inStop, hmd, hostCondition]
  · refine exec_modeRequest_permitted (n := 3#4) (by omega) (by simp [modeRequests]) hb ?_
    exact (refusal_of_row (by decide)).trans (by simp [hostRow, inRun, h4, h10, hostCondition])
  · refine exec_modeRequest_permitted (n := 4#4) (by omega) (by simp [modeRequests]) hb ?_
    exact (refusal_of_gridForming hrec 4).trans (by simp [hostRow, hmd, hostCondition, hrec, hdem, hlock, htest, hleft])
  · refine exec_modeRequest_permitted (n := 5#4) (by omega) (by simp [modeRequests]) hb ?_
    exact (refusal_of_gridForming hrec 5).trans (by simp [hostRow, hmd, hostCondition, hrec, hdc, habs])
  · refine exec_modeRequest_permitted (n := 6#4) (by omega) (by simp [modeRequests]) hb ?_
    refine (refusal_of_gridForming hrec 6).trans ?_
    have hrow : hostRow 6 s = true := by simpa [hostRow] using hfrom
    simp [hrow, hostCondition, hrec, hdc, hpres]

end Sys2Proof.Machine
end

section
/-! PROOFS. What the entry into a mode keeps of the mode controller and of the events (O15; R70, R72, R74, R80; log entry 11). -/

namespace Sys2Proof.Machine

/-! ### Events stay latched at the entry into a mode -/

/-- The blocks of a lane hold no event register. -/
theorem events_notMem_lanePart (l : Lane) : Part.events ∉ [lanePart l] := by cases l <;> simp [lanePart]

/-- Nor does its SRAM. -/
theorem events_notMem_sramPart (l : Lane) : Part.events ∉ [sramPart l] := by cases l <;> simp [sramPart]

/-- A session that ends clears no event. -/
theorem endSession_eventsKept (e : Bool) (s : State) : EventsKept s (endSession e s) :=
  ((modKey_only _ s).eventsKept (by simp)).trans (raiseIf_eventsKept _ _ _ (by omega) _)

/-- Speculative work that is squashed clears no event. -/
theorem squash_eventsKept (l : Lane) (c : Fin 8) (s : State) : EventsKept s (squash l c s) := by
  unfold squash
  split
  · exact fun _ _ hk => hk
  · exact ((modRaCtx_only l c _ s).eventsKept (events_notMem_lanePart l)).trans (raise_eventsKept _ _ (by omega) _)

/-- The run-ahead that stops clears no event. -/
theorem raStop_eventsKept (l : Lane) (c : Fin 8) (s : State) : EventsKept s (raStop l c s) := by
  unfold raStop
  split
  · exact (squash_eventsKept l c s).trans
      (((clearSets_only l c _).comp (modRaCtx_only l c _ _)).eventsKept (events_notMem_lanePart l))
  · exact fun _ _ hk => hk

/-- The run-ahead follows the mode and clears no event. -/
theorem raMode_eventsKept (s : State) : EventsKept s (raMode s) := by
  refine foldS_eventsKept _ (fun l t => foldS_eventsKept _ (fun c u => ?_) t) s
  split
  · exact (raStart_only l c u).eventsKept (events_notMem_lanePart l)
  · exact raStop_eventsKept l c u

/-- A mark of the recorder clears no event. -/
theorem recMark_eventsKept (l : Lane) (ticks : Long) (fracN kind tag src data : Nat) (s : State) :
    EventsKept s (recMark l ticks fracN kind tag src data s) := by
  have hrec (f : RecState → RecState) (t : State) : EventsKept t (modRec l f t) :=
    (modRec_only l f t).eventsKept (events_notMem_lanePart l)
  unfold recMark
  dsimp only
  split
  · exact fun _ _ hk => hk
  · split
    · exact fun _ _ hk => hk
    · split
      · exact (hrec _ s).trans (raise_eventsKept _ _ (by omega) _)
      · exact ((laneWrite_only l _ _ s).eventsKept (events_notMem_sramPart l)).trans (hrec _ _)

/-- A residual that goes to 0 clears no event. -/
theorem zeroResid_eventsKept (s : State) : EventsKept s (zeroResid s) := by
  unfold zeroResid
  split
  · exact fun _ _ hk => hk
  · exact ((setResid_only _ _ s).eventsKept (by simp)).trans (realign_eventsKept _)

/-- The correction of a time domain clears no event. -/
theorem correct_eventsKept (k : Fin 2) (off : Int) (s : State) : EventsKept s (correct k off s) := by
  unfold correct
  dsimp only
  split
  · have hstep (f : TimeDomain → TimeDomain) (t : State) : EventsKept s t → EventsKept s (raise .time 4 (modDom k f t)) :=
      fun h => (h.trans ((modDom_only k f t).eventsKept (by simp))).trans (raise_eventsKept _ _ (by omega) _)
    have hre := hstep (fun x => { x with deferred := false }) _
      ((reanchor_only k (-off) s.time.dom[k].anchor.rate s).eventsKept (by simp))
    split
    · exact hre.trans (realign_eventsKept _)
    · exact hre
  · exact ((((freeRate_only s).eventsKept (by simp)).trans ((reanchor_only k 0 _ _).eventsKept (by simp))).trans
      (raiseIf_eventsKept _ _ _ (by omega) _)).trans ((modDom_only k _ _).eventsKept (by simp))

/-- The time block at the entry into a mode clears no event. -/
theorem timeModeEntry_eventsKept (s : State) : EventsKept s (timeModeEntry s) := by
  unfold timeModeEntry
  dsimp only
  split
  · exact fun _ _ hk => hk
  · split
    · exact (zeroResid_eventsKept s).trans (correct_eventsKept _ _ _)
    · exact zeroResid_eventsKept s

/-! ### The entry into a mode -/

/-- The mode controller without what it keeps of the mode it comes from. -/
def entryFields (m : ModeState) : ModeState :=
  { m with rideFrom := 0, degrFrom := 0, prechargeAt := 0, brownAt := none, degrAt := 0 }

/-- The entry's own part of the mode controller and the pulse lock: what is kept of the mode before, and the limit of M10. -/
def entryNoted (old : BitVec 4) (s : State) : State := degrOnMode old.toNat (modeFields old (endSession true s))

/-- The limit of M10 notes its own count and time. -/
theorem degrOnMode_effect (old : Nat) (s : State) : entryFields (degrOnMode old s).mode = entryFields s.mode ∧
    (degrOnMode old s).plk.locked = s.plk.locked ∧ (degrOnMode old s).plk.reduced = s.plk.reduced := by
  unfold degrOnMode
  split
  · exact ⟨rfl, rfl, rfl⟩
  · split
    · exact ⟨rfl, rfl, rfl⟩
    · exact ⟨rfl, rfl, rfl⟩

/-- The entry's own part leaves the code, the transition and the lock. -/
theorem entryNoted_effect (old : BitVec 4) (s : State) : EventsKept s (entryNoted old s) ∧
    entryFields (entryNoted old s).mode = entryFields s.mode ∧ (entryNoted old s).plk.locked = s.plk.locked ∧
    (entryNoted old s).plk.reduced = s.plk.reduced := by
  obtain ⟨hmode, hlocked, hreduced⟩ := degrOnMode_effect old.toNat (modeFields old (endSession true s))
  have hplk : (modeFields old (endSession true s)).plk = s.plk :=
    (((endSession_only true s).mono (by simp)).comp ((modeFields_only old _).mono (by simp)) :
      Frame [.events, .board, .key, .mode] _ _) .plk (by simp)
  rw [hplk] at hlocked hreduced
  have hfields : entryFields (modeFields old (endSession true s)).mode = entryFields (endSession true s).mode := rfl
  rw [hfields, endSession_mode] at hmode
  refine ⟨?_, hmode, hlocked, hreduced⟩
  exact ((endSession_eventsKept true s).trans ((modeFields_only old _).eventsKept (by simp))).trans
    ((degrOnMode_only _ _).eventsKept (by simp))

/-- The other blocks at the entry into a mode, up to the recorders. -/
def entrySettled (old : BitVec 4) (t : State) : State :=
  let s2 := gfModeEntry old.toNat (raMode (applyBlocks t))
  if s2.md = 9 || s2.md = 3 then freezeOnMode s2 else s2

/-- The recorders, the time block, the islands and the outputs at the entry into a mode. -/
def entryMarked (old : BitVec 4) (t : State) : State :=
  refreshFn (raiseIslands (timeModeEntry (modeTrigs old.toNat
    (foldS lanes (fun l u => recMark l u.raw 0 4 0 u.md 0 u) t))))

/-- The entry into a mode. -/
theorem modeEffects_eq (old : BitVec 4) (s : State) :
    modeEffects old s = entryMarked old (entrySettled old (entryNoted old s)) := rfl

/-- The other blocks leave the mode controller, the pulse lock and the events. -/
theorem entrySettled_effect (old : BitVec 4) (t : State) : EventsKept t (entrySettled old t) ∧
    Frame [.events, .board, .laneA, .laneB, .gate, .claim] t (entrySettled old t) := by
  have hkept : EventsKept t (gfModeEntry old.toNat (raMode (applyBlocks t))) :=
    (((applyBlocks_only t).eventsKept (by simp)).trans (raMode_eventsKept _)).trans
      ((gfModeEntry_only _ _).eventsKept (by simp))
  have hframe : Frame [.events, .board, .laneA, .laneB, .gate, .claim] t (gfModeEntry old.toNat (raMode (applyBlocks t))) :=
    .under (gfModeEntry_only _ _) (by simp) (.under (raMode_only _) (by simp) ((applyBlocks_only t).mono (by simp)))
  unfold entrySettled
  dsimp only
  split
  · exact ⟨hkept.trans ((freezeOnMode_only _).eventsKept (by simp)), .under (freezeOnMode_only _) (by simp) hframe⟩
  · exact ⟨hkept, hframe⟩

/-- So do the recorders and what follows them. -/
theorem entryMarked_effect (old : BitVec 4) (t : State) : EventsKept t (entryMarked old t) ∧
    Frame [.free, .events, .board, .power, .laneA, .laneB, .sramA, .sramB, .timebase, .fio] t (entryMarked old t) := by
  have hmarks := foldS_eventsKept lanes (fun l u => recMark_eventsKept l u.raw 0 4 0 u.md 0 u) t
  refine ⟨?_, ?_⟩
  · exact ((((hmarks.trans ((modeTrigs_only _ _).eventsKept (by simp))).trans (timeModeEntry_eventsKept _)).trans
      ((raiseIslands_only _).eventsKept (by simp))).trans (refreshFn_eventsKept _))
  · exact .under (refreshFn_only _) (by simp) (.under (raiseIslands_only _) (by simp) (.under (timeModeEntry_only _) (by simp)
      (.under (modeTrigs_only _ _) (by simp) (.foldS _ _ _ fun l u =>
        (recMark_only l _ _ _ _ _ _ u).mono (by cases l <;> simp [lanePart, sramPart])))))

/-- The entry into a mode clears no event, and of the mode controller and the lock it leaves all but what it notes. -/
theorem modeEffects_effect (old : BitVec 4) (s : State) : EventsKept s (modeEffects old s) ∧
    entryFields (modeEffects old s).mode = entryFields s.mode ∧ (modeEffects old s).plk.locked = s.plk.locked ∧
    (modeEffects old s).plk.reduced = s.plk.reduced := by
  obtain ⟨hkept, hmode, hlocked, hreduced⟩ := entryNoted_effect old s
  obtain ⟨hkept', hframe'⟩ := entrySettled_effect old (entryNoted old s)
  obtain ⟨hkept'', hframe''⟩ := entryMarked_effect old (entrySettled old (entryNoted old s))
  have hm : (modeEffects old s).mode = (entryNoted old s).mode := (hframe'' .mode (by simp)).trans (hframe' .mode (by simp))
  have hp : (modeEffects old s).plk = (entryNoted old s).plk := (hframe'' .plk (by simp)).trans (hframe' .plk (by simp))
  exact ⟨(hkept.trans hkept').trans hkept'', (congrArg entryFields hm).trans hmode,
    (congrArg PlkState.locked hp).trans hlocked, (congrArg PlkState.reduced hp).trans hreduced⟩

end Sys2Proof.Machine
end

section
/-! PROOFS. The end of a transition (O15; R70, R72, R79, R80; log entries 11 and 13). -/

namespace Sys2Proof.Machine

/-! ### What stays of the mode that has been entered -/

/-- The mode that has been entered, the one before it and the cause stay, and so do the events. -/
structure EntryKept (s t : State) : Prop where
  events : EventsKept s t
  mode : t.mode.mode = s.mode.mode
  prev : t.mode.prev = s.mode.prev
  cause : t.mode.cause = s.mode.cause

/-- One step after another. -/
theorem EntryKept.trans {s t u : State} (h : EntryKept s t) (k : EntryKept t u) : EntryKept s u :=
  ⟨h.events.trans k.events, k.mode.trans h.mode, k.prev.trans h.prev, k.cause.trans h.cause⟩

/-- Nothing changes. -/
theorem EntryKept.refl (s : State) : EntryKept s s := ⟨fun _ _ hk => hk, rfl, rfl, rfl⟩

/-- What leaves the mode controller and clears no event. -/
theorem EntryKept.of_mode {s t : State} (h : t.mode = s.mode) (k : EventsKept s t) : EntryKept s t :=
  ⟨k, congrArg ModeState.mode h, congrArg ModeState.prev h, congrArg ModeState.cause h⟩

/-- What changes the transition and the triggers that wait alone. -/
theorem EntryKept.of_modeCodes {s t : State} (h : modeCodes t.mode = modeCodes s.mode) (k : EventsKept s t) :
    EntryKept s t := by
  obtain ⟨hmode, hprev, hcause⟩ := codes_of_modeCodes h
  exact ⟨k, hmode, hprev, hcause⟩

/-- The entry into the mode. -/
theorem EntryKept.of_entryFields {s t : State} (h : entryFields t.mode = entryFields s.mode) (k : EventsKept s t) :
    EntryKept s t :=
  have field {β : Type} (f : ModeState → β) : f (entryFields t.mode) = f (entryFields s.mode) := congrArg f h
  ⟨k, field (·.mode), field (·.prev), field (·.cause)⟩

/-- A trigger starts a transition or waits. -/
theorem trigger_entryKept (x : Trigger) (s : State) : EntryKept s (trigger x s) :=
  .of_modeCodes (trigger_modeCodes x s) ((trigger_only x s).eventsKept (by simp))

/-- Blocks that begin leave the mode. -/
theorem applyBlocks_entryKept (s : State) : EntryKept s (applyBlocks s) :=
  .of_mode (applyBlocks_only s .mode (by simp)) ((applyBlocks_only s).eventsKept (by simp))

/-- A change of the mode controller beside the mode that has been entered. -/
theorem modMode_entryKept {f : ModeState → ModeState} {s : State} (hm : (f s.mode).mode = s.mode.mode)
    (hp : (f s.mode).prev = s.mode.prev) (hc : (f s.mode).cause = s.mode.cause) : EntryKept s (modMode f s) :=
  ⟨(modMode_only f s).eventsKept (by simp), hm, hp, hc⟩

/-- A transition that starts leaves the mode. -/
theorem beginTransition_entryKept (r : Transition) (s : State) : EntryKept s (beginTransition r s) :=
  ⟨(beginTransition_only r s).eventsKept (by simp), rfl, rfl, rfl⟩

/-- A refusal leaves the mode. -/
theorem refuseMode_entryKept (code : Nat) (s : State) : EntryKept s (refuseMode code s) :=
  ⟨((modMode_only _ s).eventsKept (by simp)).trans (raise_eventsKept _ _ (by omega) _), rfl, rfl, rfl⟩

/-- A request that is judged starts a transition or is refused. -/
theorem judgeRequest_entryKept (n : BitVec 4) (s : State) : EntryKept s (judgeRequest n s) := by
  have htimed : EntryKept s
      (if n = 1 then modMode (fun m => { m with startAt := s.now, cold := false, fullStart := false }) s else s) := by
    split
    · exact modMode_entryKept rfl rfl rfl
    · exact .refl s
  have hbegun := htimed.trans (beginTransition_entryKept ⟨n, 1, 0⟩ _)
  unfold judgeRequest
  dsimp only
  split
  · exact refuseMode_entryKept _ s
  · split
    · exact hbegun.trans (applyBlocks_entryKept _)
    · exact hbegun

/-- A held trigger that is evaluated leaves the mode that has been entered. -/
theorem evalTrigger_entryKept (x : Trigger) (s : State) : EntryKept s (evalTrigger x s) := by
  cases x with
  | host n => exact judgeRequest_entryKept n s
  | degraded =>
    simp only [evalTrigger]
    split
    · exact trigger_entryKept _ s
    · exact .refl s
  | auto src dst c =>
    simp only [evalTrigger]
    split
    · split
      · exact .refl s
      · exact trigger_entryKept _ s
    · split
      · exact trigger_entryKept _ s
      · exact trigger_entryKept _ s
  | demand => exact trigger_entryKept _ s
  | degrExpired => exact trigger_entryKept _ s
  | stop c e => exact trigger_entryKept _ s
  | rideThrough => exact trigger_entryKept _ s

/-- The held triggers leave the mode that has been entered. -/
theorem evalHeld_entryKept (ts : List Trigger) (s : State) : EntryKept s (evalHeld ts s) := by
  induction ts generalizing s with
  | nil => exact .refl s
  | cons x ts ih =>
    unfold evalHeld
    dsimp only
    split
    · exact (evalTrigger_entryKept x s).trans (modMode_entryKept rfl rfl rfl)
    · exact (evalTrigger_entryKept x s).trans (ih _)

/-- A demand that holds and a reduced diagnosis leave it too. -/
theorem safeOnMode_entryKept (s : State) : EntryKept s (safeOnMode s) := by
  have hlock : EntryKept s (if s.plk.locked then trigger .demand s else s) := by
    split
    · exact trigger_entryKept _ s
    · exact .refl s
  unfold safeOnMode
  extract_lets s1
  split
  · exact hlock.trans (trigger_entryKept _ _)
  · exact hlock

/-- Without either of them nothing happens. -/
theorem safeOnMode_of_quiet {s : State} (hl : s.plk.locked = false) (hr : s.plk.reduced = false) : safeOnMode s = s := by
  simp [safeOnMode, hl, hr]

/-! ### The steps of a transition's end -/

/-- What an entry into M0 or M1 has reset. -/
def transitionReset (s : State) : State :=
  match s.mode.target.toNat with
  | 0 => enterDormant s
  | 1 => enterRestart s
  | _ => s

/-- The events of a transition. -/
def transitionEvents (evt : Word) (s : State) : State :=
  foldS ((List.range 9).filter fun k => bit evt k) (fun k t => raise .mode k t) s

/-- The new mode has been entered, with its events. -/
def transitionEntered (s : State) : State :=
  raise .mode 1 (transitionEvents s.mode.nextEvt (modMode (fun x => { x with
    mode := s.mode.target, prev := s.mode.mode, cause := s.mode.nextCause, busy := false, nextEvt := 0, held := [] })
    (transitionReset s)))

/-- And every block has followed it. -/
def transitionSettled (s : State) : State :=
  if s.mode.target.toNat < 2 then transitionEntered s
  else safeOnMode (modeEffects s.mode.mode (brownRecord s.mode.nextEvt (transitionEntered s)))

/-- The end of a transition to another mode. -/
theorem transitionDone_eq {s : State} (hb : s.mode.busy = true) (ht : s.mode.target ≠ s.mode.mode) : transitionDone s =
    if (transitionSettled s).mode.busy then
      modMode (fun x => { x with held := x.held ++ byRank s.mode.held }) (transitionSettled s)
    else evalHeld (byRank s.mode.held) (transitionSettled s) := by
  rw [transitionDone, if_neg (by simp [hb]), if_neg ht]
  rfl

/-- No trigger waits. -/
theorem byRank_nil : byRank [] = [] := rfl

/-- Without held triggers the blocks are the last to follow. -/
theorem transitionDone_of_no_held {s : State} (hb : s.mode.busy = true) (ht : s.mode.target ≠ s.mode.mode)
    (hh : s.mode.held = []) (hidle : (transitionSettled s).mode.busy = false) : transitionDone s = transitionSettled s := by
  rw [transitionDone_eq hb ht, if_neg (by simp [hidle]), hh]
  rfl

/-- A reset leaves the mode controller and the queue. -/
theorem transitionReset_keeps (s : State) :
    (transitionReset s).mode = s.mode ∧ (transitionReset s).pending = s.pending := by
  unfold transitionReset
  split
  · exact ⟨rfl, rfl⟩
  · exact ⟨rfl, rfl⟩
  · exact ⟨rfl, rfl⟩

/-- Modes other than M0 and M1 reset nothing. -/
theorem transitionReset_of_running {s : State} (h : 2 ≤ s.mode.target.toNat) : transitionReset s = s := by
  unfold transitionReset
  split
  · omega
  · omega
  · rfl

/-- The events of a transition are raised. -/
theorem transitionEvents_latched {evt : Word} {k : Nat} (hk : k < 9) (he : bit evt k = true) (s : State) :
    Latched .mode k (transitionEvents evt s) := by
  have kept (j : Nat) (t : State) (hj : Latched .mode k t) : Latched .mode k (raise .mode j t) := by
    simp only [Latched, eventsOf, raise_events, at_put _ _ _ _ (slot_lt .mode)] at hj ⊢
    simp only [bit, putBit, if_true, BitVec.getLsbD_or, Bool.or_eq_true]
    exact .inl hj
  exact foldS_establishes (Latched .mode k) (fun _ => True) k _ _ s (fun _ _ _ => trivial) kept
    (fun t _ => latched_raise _ _ t (by omega)) (by simpa using ⟨hk, he⟩) trivial

/-- They change the event registers and the board alone. -/
theorem transitionEvents_only (evt : Word) (s : State) : Frame [.events, .board] s (transitionEvents evt s) :=
  .foldS _ _ _ fun k t => raise_only .mode k t

/-- The new mode has been entered. -/
theorem transitionEntered_effect (s : State) :
    (transitionEntered s).mode = { s.mode with
      mode := s.mode.target, prev := s.mode.mode, cause := s.mode.nextCause, busy := false, nextEvt := 0, held := [] } ∧
    Latched .mode 1 (transitionEntered s) ∧
    (∀ k, k < 9 → bit s.mode.nextEvt k = true → Latched .mode k (transitionEntered s)) ∧
    Frame [.mode, .events, .board] (transitionReset s) (transitionEntered s) := by
  have hraise (t : State) : Frame [.events, .board] t (raise .mode 1 (transitionEvents s.mode.nextEvt t)) :=
    (transitionEvents_only _ t).comp (raise_only _ _ _)
  refine ⟨?_, latched_raise _ _ _ (by omega), fun k hk he => ?_, ?_⟩
  · rw [transitionEntered, hraise _ .mode (by simp), modMode_mode, (transitionReset_keeps s).1]
  · exact raise_eventsKept _ _ (by omega) _ _ _ (transitionEvents_latched hk he _)
  · exact ((modMode_only _ _).mono (by simp)).comp ((hraise _).mono (by simp))

/-- The entered mode stays while every block follows it. -/
theorem transitionSettled_entryKept (s : State) : EntryKept (transitionEntered s) (transitionSettled s) := by
  unfold transitionSettled
  split
  · exact .refl _
  · obtain ⟨hkept, hfields, -⟩ := modeEffects_effect s.mode.mode (brownRecord s.mode.nextEvt (transitionEntered s))
    have hbrown := brownRecord_only s.mode.nextEvt (transitionEntered s)
    exact ((EntryKept.of_mode (hbrown .mode (by simp)) (hbrown.eventsKept (by simp))).trans
      (.of_entryFields hfields hkept)).trans (safeOnMode_entryKept _)

/-- What is kept of the mode before is no part of a transition. -/
theorem busy_of_entryFields {m m' : ModeState} (h : entryFields m = entryFields m') : m.busy = m'.busy :=
  have hbusy : (entryFields m).busy = (entryFields m').busy := congrArg ModeState.busy h
  hbusy

/-- Without a demand or a reduced diagnosis the entry into a running mode starts no transition. -/
theorem transitionSettled_idle {s : State} (h2 : 2 ≤ s.mode.target.toNat) (hl : s.plk.locked = false)
    (hr : s.plk.reduced = false) : (transitionSettled s).mode.busy = false := by
  obtain ⟨hmode, -, -, hframe⟩ := transitionEntered_effect s
  have hbrown := brownRecord_only s.mode.nextEvt (transitionEntered s)
  obtain ⟨-, hfields, hlocked, hreduced⟩ := modeEffects_effect s.mode.mode (brownRecord s.mode.nextEvt (transitionEntered s))
  have hplk : (brownRecord s.mode.nextEvt (transitionEntered s)).plk = s.plk := by
    rw [hbrown .plk (by simp), hframe .plk (by simp), transitionReset_of_running h2]
  rw [hplk] at hlocked hreduced
  rw [transitionSettled, if_neg (by omega), safeOnMode_of_quiet (hlocked.trans hl) (hreduced.trans hr),
    busy_of_entryFields hfields, hbrown .mode (by simp), hmode]

/-- What follows the entry leaves the commands that wait. -/
theorem transitionDone_pending {s : State} (hb : s.mode.busy = true) (ht : s.mode.target ≠ s.mode.mode) :
    (transitionDone s).pending = s.pending := by
  obtain ⟨-, -, -, hframe⟩ := transitionEntered_effect s
  have hentered : (transitionEntered s).pending = s.pending :=
    (hframe .queue (by simp)).trans (transitionReset_keeps s).2
  have hsettled : (transitionSettled s).pending = s.pending := by
    rw [transitionSettled]
    split
    · exact hentered
    · rw [safeOnMode_only _ .queue (by simp), modeEffects_only _ _ .queue (by simp), brownRecord_only _ _ .queue (by simp),
        hentered]
  rw [transitionDone_eq hb ht]
  split
  · exact hsettled
  · rw [evalHeld_only _ _ .queue (by simp), hsettled]

/-- The entered mode stays to the end of the transition. -/
theorem transitionDone_entryKept {s : State} (hb : s.mode.busy = true) (ht : s.mode.target ≠ s.mode.mode) :
    EntryKept (transitionEntered s) (transitionDone s) := by
  rw [transitionDone_eq hb ht]
  split
  · exact (transitionSettled_entryKept s).trans (modMode_entryKept rfl rfl rfl)
  · exact (transitionSettled_entryKept s).trans (evalHeld_entryKept _ _)

/-- A transition that a demand has cut off in its own mode ends, and nothing else does (R72). -/
theorem transitionDone_of_cut {s : State} (hb : s.mode.busy = true) (ht : s.mode.target = s.mode.mode) (hh : s.mode.held = [])
    (hl : s.plk.locked = false) (hr : s.plk.reduced = false) :
    transitionDone s = modMode (fun x => { x with busy := false, nextEvt := 0, held := [] }) s := by
  rw [transitionDone, if_neg (by simp [hb]), if_pos ht, transitionCut,
    safeOnMode_of_quiet (s := modMode _ s) hl hr, hh]
  rfl

/-- The end of a transition, to another mode, to M0, and cut off. -/
theorem modeTransitionEnds : Claim.ModeTransitionEnds := by
  intro s
  refine ⟨fun hb => congrArg Host.Outcome.next (if_pos (by simp [hb])), fun hb ht => ⟨_, rfl, ?_⟩,
    fun hb h2 hh hl hr => ⟨_, rfl, ?_⟩, fun hb ht hh hl hr => congrArg Host.Outcome.next (transitionDone_of_cut hb ht hh hl hr),
    fun hb h0 hmd hh => ⟨_, rfl, ?_⟩⟩
  · obtain ⟨hmode, hchange, hevt, -⟩ := transitionEntered_effect s
    obtain ⟨hkept, hcode, hprev, hcause⟩ := transitionDone_entryKept hb ht
    rw [hmode] at hcode hprev hcause
    exact ⟨hcode, hprev, hcause, hkept _ _ hchange, transitionDone_pending hb ht, fun k hk he => hkept _ _ (hevt k hk he)⟩
  · by_cases ht : s.mode.target = s.mode.mode
    · rw [transitionDone_of_cut hb ht hh hl hr]
      rfl
    · have hidle := transitionSettled_idle h2 hl hr
      rw [transitionDone_of_no_held hb ht hh hidle, hidle]
  · have ht : s.mode.target ≠ s.mode.mode := fun e => hmd (by rw [State.md, ← e, h0]; rfl)
    have hreset : transitionReset s = enterDormant s := by rw [transitionReset, h0]; rfl
    have hsettled : transitionSettled s = transitionEntered s := if_pos (by rw [h0]; decide)
    obtain ⟨hmode, -, -, hframe⟩ := transitionEntered_effect s
    rw [hreset] at hframe
    have hdone : transitionDone s = transitionEntered s := by
      rw [transitionDone_of_no_held hb ht hh (by rw [hsettled, hmode]), hsettled]
    have hpower : (transitionDone s).power = (enterDormant s).power := hdone ▸ hframe .power (by simp)
    have hkey : (transitionDone s).key = (enterDormant s).key := hdone ▸ hframe .key (by simp)
    obtain ⟨-, hraw, -⟩ : (transitionEntered s).now = _ ∧ (transitionEntered s).raw = _ ∧ _ := hframe .time (by simp)
    rw [hpower, hkey, hdone, hraw]
    refine ⟨rfl, rfl, fun i hi => ?_, rfl, rfl, rfl⟩
    have hi0 : ¬ i = 0 := fun e => hi (congrArg Fin.val e)
    simp [enterDormant, enterDormant.raiseIslands', hi0]

/-- Settles O15: a request is judged by its row and its condition alone; and after the entry into a mode nothing that follows
moves the mode or clears an event. -/
theorem modeRequestsAndTransitions : Obligations.ModeRequestsAndTransitions :=
  ⟨modeRequestsAreJudged, modeRequestsStartTransitions, modeTransitionEnds⟩

end Sys2Proof.Machine
end

section
/-! PROOFS. Claims follow the preference (O42; R251, R265, R267; log entry 3). -/

namespace Sys2Proof.Machine

/-! ### The claim of one lane -/

/-- The claim of a lane that is changed. -/
theorem modLc_lc_self (l : Lane) (f : LaneClaim → LaneClaim) (s : State) : (modLc l f s).lc l = f (s.lc l) := by
  cases l <;> rfl

/-- The other lane's claim stays. -/
theorem modLc_lc_other {l x : Lane} (h : x ≠ l) (f : LaneClaim → LaneClaim) (s : State) : (modLc l f s).lc x = s.lc x :=
  match l, x, h with
  | .a, .b, _ => rfl
  | .b, .a, _ => rfl

/-- Time that passes leaves the claims. -/
theorem elapseTo_lc (n : Nat) (s : State) (l : Lane) : (elapseTo n s).lc l = s.lc l := by cases l <;> rfl

/-- A lane is not the other one. -/
theorem otherLane_ne (l : Lane) : otherLane l ≠ l := by cases l <;> decide

/-- The settings of CLM_CTL and the tumblers are no lane's claim. -/
theorem modLc_settings (l : Lane) (f : LaneClaim → LaneClaim) (s : State) :
    (modLc l f s).claim.holdN = s.claim.holdN ∧ (modLc l f s).claim.prefB = s.claim.prefB ∧
    (modLc l f s).claim.noRevert = s.claim.noRevert := by cases l <;> exact ⟨rfl, rfl, rfl⟩

/-- Two seconds in ticks of 2.5 ns. -/
theorem secs_two : secs 2 = 800000000 := rfl

/-! ### The rise of the preferred lane (R265) -/

/-- Without its condition no claim rises. -/
theorem claimRaise_of_not_ready {s : State}
    (h : s.claim.noRevert = true ∨ (s.lc (prefLane s)).claim ≠ 0x40 ∨ (s.lc (prefLane s)).health ≠ .healthy) :
    claimRaise s = s := by
  refine if_neg fun hc => ?_
  simp only [Bool.and_eq_true, beq_iff_eq, Bool.not_eq_true'] at hc
  obtain ⟨⟨hhealth, hclaim⟩, hrevert⟩ := hc
  obtain h | h | h := h
  · exact absurd (h.symm.trans hrevert) (by decide)
  · exact h hclaim
  · exact h hhealth

/-- With it the preferred lane claims 0xC0 once 2 s have passed. -/
theorem claimRaise_of_ready {s : State} (hn : s.claim.noRevert = false) (hc : (s.lc (prefLane s)).claim = 0x40)
    (hh : (s.lc (prefLane s)).health = .healthy) : claimRaise s =
      modLc (prefLane s) (fun x => { x with claim := 0xC0 }) (elapseTo ((s.lc (prefLane s)).goodSince + secs 2) s) :=
  if_pos (by simp [hn, hc, hh])

/-! ### CLM_CTL (R265, R267) -/

/-- An RWK write of the session's owner out of M1 takes effect (R98). -/
theorem rwkWrite_of_owner {m : Master} {s : State} (hs : s.key.session = true) (ho : s.key.owner = m) (h1 : s.md ≠ 1)
    (a : Word) (f : State → State) : rwkWrite m a f s = f (touchSession s) := by
  have howns : owns s m = true := by simp [owns, hs, ho]
  have hm : (s.mode.mode != 1#4) = true := bne_iff_ne.mpr fun e => h1 (by rw [State.md, e]; rfl)
  have hok : rwkOk m s = true := by rw [rwkOk, howns, hm]; rfl
  rw [rwkWrite, howns, hok]
  rfl

/-- HOLD_N of a word. -/
theorem fld_holdN (v : Word) : fld v 0 4 = v.toNat % 16 := by simp [fld]

/-- A HOLD_N outside 1 to 8 is refused with CLM_REFUSED. -/
theorem setClmCtl_refused {v : Word} (h : v.toNat % 16 = 0 ∨ 8 < v.toNat % 16) (s : State) :
    setClmCtl v s = raise .clm 13 s := by
  rw [← fld_holdN] at h
  exact if_pos (by simpa using h)

/-- The settings of CLM_CTL as a word gives them. -/
def settingsTaken (v : Word) (s : State) : State :=
  modClaim (fun k => { k with holdN := BitVec.ofNat 4 (fld v 0 4), prefB := bit v 4, noRevert := bit v 5 }) s

/-- A lane that is no longer preferred gives up its claim of 0xC0. -/
def preferenceLeft (l : Lane) (now : Nat) (s : State) : State :=
  modLc l (fun x => if x.claim = 0xC0 then { x with claim := 0x40, goodSince := now } else x) s

/-- The lane that is preferred now claims 0xC0 where it has met the condition of R265. -/
def preferenceTaken (l : Lane) (s : State) : State :=
  if raiseReady l s then modLc l (fun x => { x with claim := 0xC0 }) s else s

/-- A HOLD_N of 1 to 8 is taken with the settings; a change of PREF moves the claims in the same cycle. -/
theorem setClmCtl_taken {v : Word} (h1 : 1 ≤ v.toNat % 16) (h8 : v.toNat % 16 ≤ 8) (s : State) : setClmCtl v s =
    if prefLane s = prefLane (settingsTaken v s) then settingsTaken v s
    else preferenceTaken (prefLane (settingsTaken v s)) (preferenceLeft (prefLane s) s.now (settingsTaken v s)) := by
  rw [← fld_holdN] at h1 h8
  have hok : ¬ (decide (fld v 0 4 = 0) || decide (8 < fld v 0 4)) = true := by
    simp only [Bool.or_eq_true, decide_eq_true_eq]
    omega
  rw [setClmCtl]
  exact if_neg hok

/-- The preferred lane changes with PREF. -/
theorem prefLane_settingsTaken (v : Word) (s : State) :
    prefLane s = prefLane (settingsTaken v s) ↔ s.claim.prefB = bit v 4 := by
  have hnew : prefLane (settingsTaken v s) = if bit v 4 then .b else .a := rfl
  rw [hnew, prefLane]
  cases s.claim.prefB <;> cases bit v 4 <;> decide

/-- A move of the claims leaves the settings. -/
theorem preference_settings (l k : Lane) (now : Nat) (s : State) :
    (preferenceTaken l (preferenceLeft k now s)).claim.holdN = s.claim.holdN ∧
    (preferenceTaken l (preferenceLeft k now s)).claim.prefB = s.claim.prefB ∧
    (preferenceTaken l (preferenceLeft k now s)).claim.noRevert = s.claim.noRevert := by
  have hleft : (preferenceLeft k now s).claim.holdN = s.claim.holdN ∧ (preferenceLeft k now s).claim.prefB = s.claim.prefB ∧
    (preferenceLeft k now s).claim.noRevert = s.claim.noRevert := modLc_settings k _ s
  rw [preferenceTaken]
  split
  · obtain ⟨hh, hp, hn⟩ := modLc_settings l (fun x => { x with claim := 0xC0 }) (preferenceLeft k now s)
    rw [hh, hp, hn]
    exact hleft
  · exact hleft

/-- The lane that loses the preference falls to 0x40, whatever the other one does. -/
theorem preference_claim {l k : Lane} (hne : k ≠ l) (now : Nat) (s : State) (h : (s.lc k).claim = 0xC0) :
    ((preferenceTaken l (preferenceLeft k now s)).lc k).claim = 0x40 := by
  have hleft : ((preferenceLeft k now s).lc k).claim = 0x40 := by rw [preferenceLeft, modLc_lc_self, if_pos h]
  rw [preferenceTaken]
  split
  · rw [modLc_lc_other hne, hleft]
  · exact hleft

/-- A move of the claims changes the claims alone. -/
theorem preference_only (l k : Lane) (now : Nat) (s : State) :
    Frame [.claim] s (preferenceTaken l (preferenceLeft k now s)) := by
  have hleft : Frame [.claim] s (preferenceLeft k now s) := modLc_only k _ s
  rw [preferenceTaken]
  split
  · exact hleft.comp (modLc_only l _ _)
  · exact hleft

/-- HOLD_N of 1 to 8 fits its field. -/
theorem holdN_toNat {v : Word} (h8 : v.toNat % 16 ≤ 8) : (BitVec.ofNat 4 (fld v 0 4)).toNat = v.toNat % 16 := by
  rw [fld_holdN, BitVec.toNat_ofNat]
  omega

/-- What a CLM_CTL that is taken leaves. -/
theorem setClmCtl_effect {v : Word} (h1 : 1 ≤ v.toNat % 16) (h8 : v.toNat % 16 ≤ 8) (s : State) :
    (setClmCtl v s).claim.holdN.toNat = v.toNat % 16 ∧ (setClmCtl v s).claim.prefB = bit v 4 ∧
    (setClmCtl v s).claim.noRevert = bit v 5 ∧
    (s.claim.prefB ≠ bit v 4 → (s.lc (prefLane s)).claim = 0xC0 → ((setClmCtl v s).lc (prefLane s)).claim = 0x40) ∧
    (s.claim.prefB = bit v 4 → ∀ x : Lane, (setClmCtl v s).lc x = s.lc x) ∧ Frame [.claim] s (setClmCtl v s) := by
  have hset : Frame [.claim] s (settingsTaken v s) := modClaim_only _ s
  have hlc (x : Lane) : (settingsTaken v s).lc x = s.lc x := by cases x <;> rfl
  have hpref := prefLane_settingsTaken v s
  rw [setClmCtl_taken h1 h8]
  split
  case isTrue heq =>
    exact ⟨holdN_toNat h8, rfl, rfl, fun hne => absurd (hpref.mp heq) hne, fun _ => hlc, hset⟩
  case isFalse hne =>
    obtain ⟨hh, hp, hn⟩ := preference_settings (prefLane (settingsTaken v s)) (prefLane s) s.now (settingsTaken v s)
    rw [hh, hp, hn]
    refine ⟨holdN_toNat h8, rfl, rfl, fun _ hc => ?_, fun heq => absurd (hpref.mpr heq) hne,
      hset.comp (preference_only _ _ _ _)⟩
    exact preference_claim hne _ _ (by rw [hlc]; exact hc)

/-- Claims follow the preference. -/
theorem claimsFollowThePreference : Claim.ClaimsFollowThePreference := by
  intro s m v
  refine ⟨fun h => congrArg Host.Outcome.next (claimRaise_of_not_ready h), fun hn hc hh => ?_, fun hm hs ho hmd => ?_⟩
  · refine ⟨_, congrArg Host.Outcome.next (claimRaise_of_ready hn hc hh), ?_, ?_, ?_, ?_⟩
    · rw [modLc_lc_self, elapseTo_lc]
    · rw [modLc_lc_other (otherLane_ne _), elapseTo_lc]
    · rw [(modLc_only _ _ _).now_eq (by simp), elapseTo_now_eq_max, secs_two]
    · exact ((elapseTo_only _ s).mono (by simp)).comp ((modLc_only _ _ _).mono (by simp))
  · have hex : exec (.clmCtlWrite m v) s = .next (setClmCtl v (touchSession s)) :=
      (byMaster_of_lt hm s _).trans
        (congrArg Host.Outcome.next (rwkWrite_of_owner hs ho (by omega) clmCtlAddr (setClmCtl v)))
    have htouch : Frame [.key] s (touchSession s) := modKey_only _ s
    refine ⟨fun hbad => ?_, fun h1 h8 => ?_⟩
    · rw [setClmCtl_refused hbad] at hex
      exact ⟨_, hex, latched_raise _ _ _ (by omega), raise_only _ _ _ .claim (by simp),
        (htouch.mono (by simp)).comp ((raise_only _ _ _).mono (by simp))⟩
    · obtain ⟨hhold, hpref, hrevert, hmove, hstay, hframe⟩ := setClmCtl_effect h1 h8 (touchSession s)
      exact ⟨_, hex, hhold, hpref, hrevert, hmove, hstay, (htouch.mono (by simp)).comp (hframe.mono (by simp))⟩

end Sys2Proof.Machine
end

section
/-! PROOFS. One tumbler beside the others (O42; R259 to R261): what a walk over the tumblers leaves, and what decides whether a
tumbler forwards edges. -/

namespace Sys2Proof.Machine

/-! ### What changes of tumblers and gate commands leave -/

/-- The state without its tumblers and gate commands. -/
def tumless (s : State) : State :=
  { s with
    claim := { s.claim with tum := Vector.replicate 32 {} }
    gate := { s.gate with ch := Vector.replicate 32 {} } }

/-- What a state shows without its tumblers and gate commands is the same where that rest is. -/
theorem of_tumless {β : Type} (p : State → β) (hp : ∀ u, p (tumless u) = p u) {s t : State} (h : tumless t = tumless s) :
    p t = p s :=
  calc p t = p (tumless t) := (hp t).symm
    _ = p (tumless s) := congrArg p h
    _ = p s := hp s

/-- The claims of the lanes are no tumblers. -/
theorem lc_of_tumless {s t : State} (h : tumless t = tumless s) (l : Lane) : t.lc l = s.lc l :=
  of_tumless (·.lc l) (fun u => by cases l <;> rfl) h

/-- Nor are the lanes' blocks. -/
theorem lane_of_tumless {s t : State} (h : tumless t = tumless s) (l : Lane) : t.lane l = s.lane l :=
  of_tumless (·.lane l) (fun u => by cases l <;> rfl) h

/-- A tumbler that is changed. -/
theorem modTum_tum_self (c : Fin 32) (f : Tumbler → Tumbler) (s : State) :
    (modTum c f s).claim.tum[c] = f s.claim.tum[c] := modAt_getElem_self _ c f

/-- Another one stays. -/
theorem modTum_tum_other {c d : Fin 32} (h : d ≠ c) (f : Tumbler → Tumbler) (s : State) :
    (modTum c f s).claim.tum[d] = s.claim.tum[d] := modAt_getElem_other _ c d f h

/-- The same claims show the same tumblers. -/
theorem tum_of_claim {s t : State} (h : t.claim = s.claim) (c : Fin 32) : t.claim.tum[c] = s.claim.tum[c] :=
  congrArg (fun k : ClaimState => k.tum[c]) h

/-- The change of a tumbler leaves the rest. -/
theorem modTum_tumless (c : Fin 32) (f : Tumbler → Tumbler) (s : State) : tumless (modTum c f s) = tumless s := rfl

/-- A gate command that follows its tumbler leaves the claims, and the rest too. -/
theorem followTum_keeps (c : Fin 32) (s : State) :
    (followTum c s).claim = s.claim ∧ tumless (followTum c s) = tumless s := by
  refine ⟨followTum_only c s .claim (by simp), ?_⟩
  unfold followTum
  split
  · rfl
  · split
    · rfl
    · unfold followFall
      split
      · rfl
      · rfl

/-! ### Walks over tumblers -/

/-- No index is listed twice. -/
theorem idx_nodup (n : Nat) : (idx n).Nodup := List.nodup_finRange n

/-- Each one is listed. -/
theorem mem_idx {n : Nat} (i : Fin n) : i ∈ idx n := List.mem_finRange i

/-- A walk whose steps each change their own entry makes of an entry what its own step makes of it, in a state that shows the
same rest and the same entry. -/
theorem foldS_entry_step {ι ε β : Type} {env : State → ε} {view : State → β} {g : ι → State → State} {a : ι}
    (henv : ∀ x t, env (g x t) = env t) (hother : ∀ x, x ≠ a → ∀ t, view (g x t) = view t) {xs : List ι} (hx : xs.Nodup)
    (ha : a ∈ xs) (s : State) :
    ∃ t, env t = env s ∧ view t = view s ∧ view (foldS xs g s) = view (g a t) := by
  induction xs generalizing s with
  | nil => cases ha
  | cons x xs ih =>
    obtain ⟨hnot, hxs⟩ := List.nodup_cons.mp hx
    obtain rfl | ha := List.mem_cons.mp ha
    · exact ⟨s, rfl, rfl, foldS_entry_of_notMem hother hnot (g a s)⟩
    · obtain ⟨t, htenv, htview, hfold⟩ := ih hxs ha (g x s)
      exact ⟨t, htenv.trans (henv x s), htview.trans (hother x (ne_of_mem_of_not_mem ha hnot).symm s), hfold⟩

/-- A walk whose steps change nothing. -/
theorem foldS_of_fixed {α : Type} {f : α → State → State} {s : State} (h : ∀ x, f x s = s) (xs : List α) : foldS xs f s = s := by
  induction xs with
  | nil => rfl
  | cons x xs ih =>
    change foldS xs f (f x s) = s
    rw [h x, ih]

/-- The tumblers that share a generator's boundary are listed once, and the tumbler itself is one of them. -/
theorem sameGen_nodup (c : Fin 32) (s : State) : (sameGen c s).Nodup := (idx_nodup 32).filter _

/-- A tumbler shares its own generator. -/
theorem mem_sameGen_self (c : Fin 32) (s : State) : c ∈ sameGen c s :=
  List.mem_filter.mpr ⟨mem_idx c, beq_self_eq_true _⟩

/-! ### What decides whether a tumbler forwards edges (R227, R259) -/

section
variable {s t : State} (hkey : t.key = s.key) (hmode : t.mode = s.mode) (hfg : t.gate.fg = s.gate.fg)
include hkey hmode hfg

/-- A generator is blocked by the records, the mode and the flag groups. -/
theorem blockReason_congr (g : Fin 16) : blockReason t g = blockReason s g := by
  have hholds : holdsGen t g.val = holdsGen s g.val := by
    simp only [holdsGen, groupActive_congr hkey hfg, recD_of_key hkey]
  have hmd : t.md = s.md := congrArg (fun m : ModeState => m.mode.toNat) hmode
  have hpulses : modePulses t = modePulses s := by rw [modePulses, modePulses, inRun, inRun, hmd, hmode]
  have hpre (n : Nat) : inPreSet t n = inPreSet s n := by simp only [inPreSet, recD_of_key hkey]
  have hhbs : hbsOf g t = hbsOf g s := by simp only [hbsOf, hasRec, recOf_of_key hkey, recD_of_key hkey]
  simp only [blockReason, hholds, hpulses, hpre, hhbs, hmd]

end

/-- The generator of a channel follows from the records, and its state from the lane that its tumbler forwards. -/
theorem chanGen_of_tumless {s t : State} (h : tumless t = tumless s) {c : Fin 32} (hc : t.claim.tum[c] = s.claim.tum[c]) :
    chanGen c t = chanGen c s := by
  have hkey : t.key = s.key := of_tumless (·.key) (fun _ => rfl) h
  have hgen : tumGen c t = tumGen c s := by
    rw [tumGen, tumGen, genOfHb, genOfHb, hasRec, hasRec, recOf_of_key hkey, recD_of_key hkey]
  simp only [chanGen, hgen, hc, lane_of_tumless h]

/-- No block by the mode depends on another tumbler. -/
theorem modeRuns_of_tumless {s t : State} (h : tumless t = tumless s) {c : Fin 32} (hc : t.claim.tum[c] = s.claim.tum[c]) :
    modeRuns c t = modeRuns c s := by
  have hkey : t.key = s.key := of_tumless (·.key) (fun _ => rfl) h
  have hmode : t.mode = s.mode := of_tumless (·.mode) (fun _ => rfl) h
  have hmd : t.md = s.md := of_tumless (·.md) (fun _ => rfl) h
  have hblock := blockReason_congr hkey hmode (of_tumless (·.gate.fg) (fun _ => rfl) h)
  have hout (x : GenState) (n : Nat) : hbOut x n t = hbOut x n s := by
    simp only [hbOut, inPreSet, hmd, recD_of_key hkey]
  simp only [modeRuns, chanGen_of_tumless h hc, hblock, hout]

/-- Nor does whether a tumbler forwards edges. -/
theorem tumRuns_of_tumless {s t : State} (h : tumless t = tumless s) {c : Fin 32} (hc : t.claim.tum[c] = s.claim.tum[c]) :
    tumRuns c t = tumRuns c s := by
  have hblock := blockReason_congr (of_tumless (·.key) (fun _ => rfl) h) (of_tumless (·.mode) (fun _ => rfl) h)
    (of_tumless (·.gate.fg) (fun _ => rfl) h)
  simp only [tumRuns, chanGen_of_tumless h hc, modeRuns_of_tumless h hc, hblock]

end Sys2Proof.Machine
end

section
/-! PROOFS. Tumblers react to the claims (O42; R134, R259, R337; log entry 37). -/

namespace Sys2Proof.Machine

/-! ### One tumbler -/

/-- The reaction of a tumbler leaves the rest. -/
theorem tumReact_tumless (c : Fin 32) (s : State) : tumless (tumReact c s) = tumless s := by
  unfold tumReact
  dsimp only
  split
  · rfl
  · split
    · rfl
    · split
      · exact (followTum_keeps c _).2
      · rfl

/-- It leaves the other tumblers. -/
theorem tumReact_tum_other {c d : Fin 32} (h : d ≠ c) (s : State) : (tumReact c s).claim.tum[d] = s.claim.tum[d] := by
  unfold tumReact
  dsimp only
  split
  · rfl
  · split
    · exact modTum_tum_other h _ s
    · split
      · exact (tum_of_claim (followTum_keeps c _).1 d).trans (modTum_tum_other h _ s)
      · exact modTum_tum_other h _ s

section
variable {c : Fin 32} {s : State} (hh : (s.claim.tum[c]).hold = false)
include hh

/-- Where its source has fallen to 0x00, a tumbler that forwards edges is held, with its source and its recorded period. -/
theorem tumReact_of_fall (hr : tumRuns c s = true) (h0 : (s.lc (s.claim.tum[c]).src).claim = 0) :
    ∃ base, (tumReact c s).claim.tum[c] = { s.claim.tum[c] with hold := true, planned := false, base := base } := by
  have hnum : (s.lc (s.claim.tum[c]).src).claim.toNat = 0 := by rw [h0]; rfl
  rw [tumReact, if_neg (by rw [hh]; exact Bool.false_ne_true), if_neg (by simp [hr]), if_pos hnum]
  exact ⟨_, (tum_of_claim (followTum_keeps c _).1 c).trans (modTum_tum_self c _ s)⟩

/-- While its source claims, a tumbler that forwards edges plans a handover to a higher claim. -/
theorem tumReact_of_rise (hr : tumRuns c s = true) (h0 : 0 < (s.lc (s.claim.tum[c]).src).claim.toNat)
    (hlt : (s.lc (s.claim.tum[c]).src).claim.toNat < (s.lc (otherLane (s.claim.tum[c]).src)).claim.toNat) :
    (tumReact c s).claim.tum[c] = { s.claim.tum[c] with planned := true } := by
  rw [tumReact, if_neg (by rw [hh]; exact Bool.false_ne_true), if_neg (by simp [hr]), if_neg (by omega), modTum_tum_self, decide_eq_true hlt]

/-- A tumbler that forwards none takes the higher claim at once. -/
theorem tumReact_of_idle (hr : tumRuns c s = false)
    (hlt : (s.lc (s.claim.tum[c]).src).claim.toNat < (s.lc (otherLane (s.claim.tum[c]).src)).claim.toNat) :
    (tumReact c s).claim.tum[c] =
      { s.claim.tum[c] with hold := false, planned := false, record := none, src := otherLane (s.claim.tum[c]).src } := by
  rw [tumReact, if_neg (by rw [hh]; exact Bool.false_ne_true), if_pos (by simp [hr]), modTum_tum_self, if_pos hlt]

end

/-! ### All of them -/

/-- Every tumbler has reacted; kept folded, for no lemma needs its thirty-two steps. -/
@[irreducible] def allReacted (s : State) : State := foldS (idx 32) tumReact s

/-- The reactions leave the rest. -/
theorem allReacted_tumless (s : State) : tumless (allReacted s) = tumless s := by
  unfold allReacted
  exact foldS_keeps tumless _ _ s tumReact_tumless

/-- Each tumbler reacts as it would alone. -/
theorem allReacted_tum (c : Fin 32) (s : State) : ∃ t, tumless t = tumless s ∧ t.claim.tum[c] = s.claim.tum[c] ∧
    (allReacted s).claim.tum[c] = (tumReact c t).claim.tum[c] := by
  unfold allReacted
  exact foldS_entry_step (env := tumless) (view := fun t => t.claim.tum[c]) tumReact_tumless
    (fun _ hd t => tumReact_tum_other hd.symm t) (idx_nodup 32) (mem_idx c) s

/-- The reactions change the claims and the gate commands alone. -/
theorem allReacted_only (s : State) : Frame [.gate, .claim] s (allReacted s) := by
  unfold allReacted
  exact .foldS _ _ _ tumReact_only

section
variable {c : Fin 32} {s : State} (hh : (s.claim.tum[c]).hold = false)
include hh

/-- A tumbler whose source has fallen to 0x00 is held. -/
theorem allReacted_of_fall (hr : tumRuns c s = true) (h0 : (s.lc (s.claim.tum[c]).src).claim = 0) :
    ∃ base, (allReacted s).claim.tum[c] = { s.claim.tum[c] with hold := true, planned := false, base := base } := by
  obtain ⟨t, ht, hc, hstep⟩ := allReacted_tum c s
  obtain ⟨base, hbase⟩ := tumReact_of_fall (by rw [hc]; exact hh) ((tumRuns_of_tumless ht hc).trans hr)
    (by rw [lc_of_tumless ht, hc]; exact h0)
  exact ⟨base, by rw [hstep, hbase, hc]⟩

/-- A tumbler that sees a higher claim plans a handover. -/
theorem allReacted_of_rise (hr : tumRuns c s = true) (h0 : 0 < (s.lc (s.claim.tum[c]).src).claim.toNat)
    (hlt : (s.lc (s.claim.tum[c]).src).claim.toNat < (s.lc (otherLane (s.claim.tum[c]).src)).claim.toNat) :
    (allReacted s).claim.tum[c] = { s.claim.tum[c] with planned := true } := by
  obtain ⟨t, ht, hc, hstep⟩ := allReacted_tum c s
  rw [hstep, tumReact_of_rise (by rw [hc]; exact hh) ((tumRuns_of_tumless ht hc).trans hr)
    (by rw [lc_of_tumless ht, hc]; exact h0) (by rw [lc_of_tumless ht, lc_of_tumless ht, hc]; exact hlt), hc]

/-- A tumbler that forwards no edges takes the higher claim. -/
theorem allReacted_of_idle (hr : tumRuns c s = false)
    (hlt : (s.lc (s.claim.tum[c]).src).claim.toNat < (s.lc (otherLane (s.claim.tum[c]).src)).claim.toNat) :
    (allReacted s).claim.tum[c] =
      { s.claim.tum[c] with hold := false, planned := false, record := none, src := otherLane (s.claim.tum[c]).src } := by
  obtain ⟨t, ht, hc, hstep⟩ := allReacted_tum c s
  rw [hstep, tumReact_of_idle (by rw [hc]; exact hh) ((tumRuns_of_tumless ht hc).trans hr)
    (by rw [lc_of_tumless ht, lc_of_tumless ht, hc]; exact hlt), hc]

end

/-! ### The senior lane (R337) -/

/-- The change of the senior lane is noted in the claims, and marked by the recorders. -/
theorem noteSenior_effect (s : State) : (noteSenior s).claim = { s.claim with senior := seniorLane s } ∧
    EventsKept s (noteSenior s) := by
  unfold noteSenior
  dsimp only
  split
  case isTrue heq => exact ⟨by rw [← heq], fun _ _ hk => hk⟩
  case isFalse =>
    refine ⟨?_, EventsKept.trans ((modClaim_only _ s).eventsKept (by simp))
      (foldS_eventsKept _ (fun l t => recMark_eventsKept l _ _ _ _ _ _ t) _)⟩
    exact foldS_keeps (fun t => t.claim) _ _ _ fun l t =>
      recMark_only l _ _ _ _ _ _ t .claim (by cases l <;> simp [lanePart, sramPart])

/-! ### A change of the claims (R259) -/

/-- A tumbler that forwards edges has lost its source. -/
def sourceFell (s : State) : Bool :=
  (idx 32).any fun c => tumRuns c s && !(s.claim.tum[c]).hold && ((s.lc (s.claim.tum[c]).src).claim == 0)

/-- Both lanes claim the same above 0x00. -/
def claimsTie (s : State) : Bool := s.claim.a.claim == s.claim.b.claim && s.claim.a.claim != 0

/-- The reactions and what is counted of the claims. -/
def claimsSeen (s : State) : State :=
  modClaim (fun k => { k with
    seenA := k.a.claim, seenB := k.b.claim, ties := if claimsTie s then satInc k.ties else k.ties }) (allReacted s)

/-- They raise HOLD and CLAIM_TIE. -/
def claimsJudged (s : State) : State :=
  raiseIf (claimsTie s) .clm 6
    (raiseIf (sourceFell s && (idx 32).any fun c => ((claimsSeen s).claim.tum[c]).hold) .clm 3 (claimsSeen s))

/-- Window exits that stand as the comparators say change nothing (R134). -/
theorem refreshWins_of_settled {s : State} (h : ∀ p : Fin 32, winSource p s = s.gate.fg.active.contains (16 + p.val)) :
    foldS (idx 32) refreshWin s = s :=
  have hfixed (p : Fin 32) : refreshWin p s = s := setSource_same (h p).symm s.raw
  foldS_of_fixed hfixed _

/-- The judgement of the claims changes the claims, the gate commands and the events alone. -/
theorem claimsJudged_only (s : State) : Frame [.claim, .gate, .events, .board] s (claimsJudged s) := by
  exact .under (raiseIf_only _ _ _ _) (by simp) (.under (raiseIf_only _ _ _ _) (by simp)
    (.under (modClaim_only _ _) (by simp) ((allReacted_only s).mono (by simp))))

/-- It raises events: of the claims and the gate channels it leaves what the reactions made of them. -/
theorem claimsJudged_claim (s : State) : (claimsJudged s).claim = (claimsSeen s).claim ∧
    (claimsJudged s).gate = (allReacted s).gate := by
  have hraised : Frame [.events, .board] (claimsSeen s) (claimsJudged s) :=
    (raiseIf_only _ _ _ _).comp (raiseIf_only _ _ _ _)
  exact ⟨hraised .claim (by simp), (hraised .gate (by simp)).trans (modClaim_only _ _ .gate (by simp))⟩

/-- The claims of the lanes are those before. -/
theorem claimsJudged_lc (l : Lane) (s : State) : (claimsJudged s).lc l = s.lc l := by
  have hlc := lc_of_tumless (allReacted_tumless s) l
  cases l <;> simp only [State.lc, (claimsJudged_claim s).1, claimsSeen, modClaim_claim] at hlc ⊢ <;> exact hlc

/-- The comparators and what they feed stand as before. -/
theorem winSource_claimsJudged (p : Fin 32) (s : State) : winSource p (claimsJudged s) = winSource p s ∧
    (claimsJudged s).gate.fg = s.gate.fg := by
  have hmeas (l : Lane) : ((claimsJudged s).lane l).meas = (s.lane l).meas :=
    (claimsJudged_only s).lane_keeps (·.meas) (fun _ => rfl) (by cases l <;> simp [lanePart])
  refine ⟨by simp only [winSource, claimsJudged_lc, hmeas], ?_⟩
  rw [(claimsJudged_claim s).2]
  exact of_tumless (·.gate.fg) (fun _ => rfl) (allReacted_tumless s)

/-- The claims have not changed since the tumblers last reacted. -/
theorem claimChange_of_seen {s : State} (ha : s.claim.seenA = s.claim.a.claim) (hb : s.claim.seenB = s.claim.b.claim) :
    claimChange s = noteSenior s :=
  congrArg noteSenior (if_pos (by simp [ha, hb]))

/-- They have, while the window exits stand as the comparators say. -/
theorem claimChange_of_unseen {s : State} (h : s.claim.seenA ≠ s.claim.a.claim ∨ s.claim.seenB ≠ s.claim.b.claim)
    (hwin : ∀ p : Fin 32, winSource p s = s.gate.fg.active.contains (16 + p.val)) :
    claimChange s = noteSenior (claimsJudged s) := by
  have hnew : ¬ (decide (s.claim.seenA = s.claim.a.claim) && decide (s.claim.seenB = s.claim.b.claim)) = true := by
    rw [Bool.and_eq_true, decide_eq_true_eq, decide_eq_true_eq]
    exact fun ⟨ha, hb⟩ => h.elim (fun hn => hn ha) (fun hn => hn hb)
  have hjudge : claimChange.judgeClaims s = foldS (idx 32) refreshWin (claimsJudged s) := by
    unfold claimsJudged claimsSeen allReacted
    exact if_neg hnew
  have hidle := refreshWins_of_settled (s := claimsJudged s) fun p => by
    obtain ⟨hsource, hfg⟩ := winSource_claimsJudged p s
    rw [hsource, hfg]
    exact hwin p
  rw [claimChange, hjudge, hidle]

/-- What a change of the claims leaves of the tumblers, of the rest and of the events. -/
theorem claimChange_effect {s : State} (h : s.claim.seenA ≠ s.claim.a.claim ∨ s.claim.seenB ≠ s.claim.b.claim)
    (hwin : ∀ p : Fin 32, winSource p s = s.gate.fg.active.contains (16 + p.val)) :
    (claimChange s).claim.tum = (allReacted s).claim.tum ∧ EventsKept (claimsJudged s) (claimChange s) ∧
    Frame [.claim, .gate, .events, .board, .laneA, .laneB, .sramA, .sramB] s (claimChange s) := by
  obtain ⟨hclaim, hkept⟩ := noteSenior_effect (claimsJudged s)
  rw [claimChange_of_unseen h hwin]
  refine ⟨?_, hkept, ((claimsJudged_only s).mono (by simp)).comp ((noteSenior_only _).mono (by simp))⟩
  rw [hclaim, (claimsJudged_claim s).1, claimsSeen, modClaim_claim]

/-- HOLD is raised where a source fell and its tumbler is held. -/
theorem claimsJudged_hold {c : Fin 32} {s : State} (hr : tumRuns c s = true) (hh : (s.claim.tum[c]).hold = false)
    (h0 : (s.lc (s.claim.tum[c]).src).claim = 0) (hheld : ((allReacted s).claim.tum[c]).hold = true) :
    Latched .clm 3 (claimsJudged s) := by
  have hfell : sourceFell s = true := List.any_eq_true.mpr ⟨c, mem_idx c, by
    rw [hr, hh, h0]; rfl⟩
  have hany : ((idx 32).any fun c => ((claimsSeen s).claim.tum[c]).hold) = true :=
    List.any_eq_true.mpr ⟨c, mem_idx c, by rw [claimsSeen, modClaim_claim]; exact hheld⟩
  have hraise : Latched .clm 3 (raiseIf (sourceFell s && (idx 32).any fun c => ((claimsSeen s).claim.tum[c]).hold) .clm 3
      (claimsSeen s)) := by
    rw [hfell, hany]
    exact latched_raise _ _ _ (by omega)
  exact raiseIf_eventsKept _ _ _ (by omega) _ _ _ hraise

end Sys2Proof.Machine
end

section
/-! PROOFS. Tumblers hand over (O42; R76, R259, R260; log entries 3, 37, 71). -/

namespace Sys2Proof.Machine

/-! ### A planned handover (R259) -/

/-- One tumbler takes the other lane, and its gate follows. -/
def handOver (c : Fin 32) (s : State) : State :=
  followTum c (modTum c (fun t => { t with src := otherLane t.src, planned := false, record := none }) s)

/-- A handover leaves the rest. -/
theorem handOver_tumless (c : Fin 32) (s : State) : tumless (handOver c s) = tumless s := (followTum_keeps c _).2

/-- It leaves the other tumblers. -/
theorem handOver_tum_other {c d : Fin 32} (h : d ≠ c) (s : State) : (handOver c s).claim.tum[d] = s.claim.tum[d] :=
  (tum_of_claim (followTum_keeps c _).1 d).trans (modTum_tum_other h _ s)

/-- The tumbler forwards the other lane. -/
theorem handOver_tum_self (c : Fin 32) (s : State) : (handOver c s).claim.tum[c] =
    { s.claim.tum[c] with src := otherLane (s.claim.tum[c]).src, planned := false, record := none } :=
  (tum_of_claim (followTum_keeps c _).1 c).trans (modTum_tum_self c _ s)

/-- The tumblers of a generator that wait for their handover. -/
def plannedWith (c : Fin 32) (s : State) : List (Fin 32) := (sameGen c s).filter fun d => (s.claim.tum[d]).planned

/-- They have handed over, at a time. -/
def plannedDone (c : Fin 32) (at0 : Nat) (s : State) : State := foldS (plannedWith c s) handOver (elapseTo at0 s)

/-- A planned handover takes place at the carrier boundary of the other lane's generator. -/
theorem revertTumbler_of_planned {c : Fin 32} {s : State} (h : (s.claim.tum[c]).planned = true) : ∃ at0, revertTumbler c s =
    noteSenior (raise .clm 5 (modClaim (fun k => { k with switches := satInc k.switches }) (plannedDone c at0 s))) :=
  ⟨_, if_neg (by rw [h]; decide)⟩

/-- The handovers of a generator leave the rest, and the tumbler forwards the other lane. -/
theorem plannedDone_effect {c : Fin 32} {s : State} (at0 : Nat) (h : (s.claim.tum[c]).planned = true) :
    tumless (plannedDone c at0 s) = tumless (elapseTo at0 s) ∧ (plannedDone c at0 s).claim.tum[c] =
      { s.claim.tum[c] with src := otherLane (s.claim.tum[c]).src, planned := false, record := none } := by
  refine ⟨foldS_keeps tumless _ _ _ handOver_tumless, ?_⟩
  have hmem : c ∈ plannedWith c s := List.mem_filter.mpr ⟨mem_sameGen_self c s, h⟩
  obtain ⟨t, -, hc, hstep⟩ := foldS_entry_step (env := tumless) (view := fun t => t.claim.tum[c]) (g := handOver) (a := c)
    handOver_tumless (fun _ hd t => handOver_tum_other hd.symm t) ((sameGen_nodup c s).filter _) hmem (elapseTo at0 s)
  rw [handOver_tum_self, hc] at hstep
  exact hstep

/-- What a planned handover leaves. -/
theorem revertTumbler_effect {c : Fin 32} {s : State} (h : (s.claim.tum[c]).planned = true) :
    ((revertTumbler c s).claim.tum[c]).src = otherLane (s.claim.tum[c]).src ∧
    ((revertTumbler c s).claim.tum[c]).planned = false ∧ Latched .clm 5 (revertTumbler c s) ∧
    (revertTumbler c s).claim.switches = satInc s.claim.switches ∧ s.now ≤ (revertTumbler c s).now := by
  obtain ⟨at0, hrevert⟩ := revertTumbler_of_planned h
  obtain ⟨hrest, htum⟩ := plannedDone_effect at0 h
  have hswitches : (plannedDone c at0 s).claim.switches = s.claim.switches :=
    (of_tumless (·.claim.switches) (fun _ => rfl) hrest).trans rfl
  have hnow : (plannedDone c at0 s).now = max s.now at0 :=
    (of_tumless (·.now) (fun _ => rfl) hrest).trans (elapseTo_now_eq_max at0 s)
  rw [hrevert]
  generalize plannedDone c at0 s = u at htum hswitches hnow ⊢
  obtain ⟨hclaim, hkept⟩ := noteSenior_effect (raise .clm 5 (modClaim (fun k => { k with switches := satInc k.switches }) u))
  have hsame : (noteSenior (raise .clm 5 (modClaim (fun k => { k with switches := satInc k.switches }) u))).claim.tum[c] =
      u.claim.tum[c] := (congrArg (fun k : ClaimState => k.tum[c]) hclaim).trans rfl
  refine ⟨?_, ?_, hkept _ _ (latched_raise _ _ _ (by omega)), ?_, ?_⟩
  · rw [hsame, htum]
  · rw [hsame, htum]
  · rw [hclaim, ← hswitches]
    rfl
  · have hlast : (noteSenior (raise .clm 5 (modClaim (fun k => { k with switches := satInc k.switches }) u))).now = u.now :=
      (noteSenior_only _).now_eq (by simp)
    omega

/-! ### The end of a hold (R76, R260) -/

/-- One tumbler leaves its hold: it takes a lane that claims above 0x00, where there is one. -/
def leaveHold (c : Fin 32) (s : State) : State :=
  match tumChoice (s.claim.tum[c]).src s with
  | none => modTum c (fun t => { t with hold := false }) s
  | some d => followTum c (modTum c (fun t => { t with hold := false, src := d, record := none }) s)

/-- The end of a hold leaves the rest. -/
theorem leaveHold_tumless (c : Fin 32) (s : State) : tumless (leaveHold c s) = tumless s := by
  unfold leaveHold
  split
  · rfl
  · exact (followTum_keeps c _).2

/-- It leaves the other tumblers. -/
theorem leaveHold_tum_other {c d : Fin 32} (h : d ≠ c) (s : State) : (leaveHold c s).claim.tum[d] = s.claim.tum[d] := by
  unfold leaveHold
  split
  · exact modTum_tum_other h _ s
  · exact (tum_of_claim (followTum_keeps c _).1 d).trans (modTum_tum_other h _ s)

/-- No hold is left, and the source is the lane that was chosen. -/
theorem leaveHold_tum_self (c : Fin 32) (s : State) : ((leaveHold c s).claim.tum[c]).hold = false ∧
    ∀ d, tumChoice (s.claim.tum[c]).src s = some d → ((leaveHold c s).claim.tum[c]).src = d := by
  unfold leaveHold
  split
  case h_1 hnone =>
    rw [modTum_tum_self]
    exact ⟨rfl, fun d hd => by rw [hnone] at hd; cases hd⟩
  case h_2 d hsome =>
    rw [tum_of_claim (followTum_keeps c _).1 c, modTum_tum_self]
    exact ⟨rfl, fun e he => Option.some.inj (hsome.symm.trans he)⟩

/-- The choice of a lane is made by the claims. -/
theorem tumChoice_congr {s t : State} (h : ∀ l, t.lc l = s.lc l) (src : Lane) : tumChoice src t = tumChoice src s := by
  rw [tumChoice, tumChoice, h, h]

/-- The other lane is taken where it claims. -/
theorem tumChoice_of_other {src : Lane} {s : State} (h : (s.lc (otherLane src)).claim ≠ 0) :
    tumChoice src s = some (otherLane src) := if_pos h

/-- None is taken where neither claims. -/
theorem tumChoice_of_none {s : State} (h : ∀ l : Lane, (s.lc l).claim = 0) (src : Lane) : tumChoice src s = none := by
  simp [tumChoice, h]

/-- The tumblers of a generator that are held. -/
def heldWith (c : Fin 32) (s : State) : List (Fin 32) := (sameGen c s).filter fun d => (s.claim.tum[d]).hold

/-- The end of a tumbler's hold: the HOLD_N-th replayed boundary. -/
def holdEnd (c : Fin 32) (s : State) : Nat := (s.claim.tum[c]).base + (s.claim.holdN.toNat * holdLen c s + 31) / 32

/-- The tumblers of a generator have left their holds at its end. -/
def holdsLeft (c : Fin 32) (s : State) : State := foldS (heldWith c s) leaveHold (elapseTo (holdEnd c s) s)

/-- A switchover is counted, noted and marked. -/
def switchNoted (s : State) : State :=
  let s3 := raise .clm 4 (modClaim (fun k => { k with switches := satInc k.switches }) s)
  noteTrigs 117 (foldS lanes (fun l => recMark l s3.raw 0 6 0 117 0) { s3 with claim := { s3.claim with senior := seniorLane s3 } })

/-- The end of a hold: the generator's tumblers leave theirs, and a switchover is noted, or the lanes are lost. -/
theorem switchover_of_hold {c : Fin 32} {s : State} (h : (s.claim.tum[c]).hold = true) : switchover c s =
    if (tumChoice (s.claim.tum[c]).src s).isNone then lanesLost (holdsLeft c s) else switchNoted (holdsLeft c s) := by
  rw [← tumChoice_congr fun l => elapseTo_lc (holdEnd c s) s l]
  exact if_neg (by rw [h]; decide)

/-- The ends of the holds leave the rest; the tumbler is held no more, and forwards the lane that was chosen. -/
theorem holdsLeft_effect {c : Fin 32} {s : State} (h : (s.claim.tum[c]).hold = true) :
    tumless (holdsLeft c s) = tumless (elapseTo (holdEnd c s) s) ∧ ((holdsLeft c s).claim.tum[c]).hold = false ∧
    ∀ d, tumChoice (s.claim.tum[c]).src s = some d → ((holdsLeft c s).claim.tum[c]).src = d := by
  refine ⟨foldS_keeps tumless _ _ _ leaveHold_tumless, ?_⟩
  have hmem : c ∈ heldWith c s := List.mem_filter.mpr ⟨mem_sameGen_self c s, h⟩
  obtain ⟨t, ht, hc, hstep⟩ := foldS_entry_step (env := tumless) (view := fun t => t.claim.tum[c]) (g := leaveHold) (a := c)
    leaveHold_tumless (fun _ hd t => leaveHold_tum_other hd.symm t) ((sameGen_nodup c s).filter _) hmem
    (elapseTo (holdEnd c s) s)
  have hlc (l : Lane) : t.lc l = s.lc l := (lc_of_tumless ht l).trans (elapseTo_lc _ s l)
  have hsrc : t.claim.tum[c] = s.claim.tum[c] := hc
  obtain ⟨hhold, hchoice⟩ := leaveHold_tum_self c t
  have hleft : (holdsLeft c s).claim.tum[c] = (leaveHold c t).claim.tum[c] := hstep
  rw [hsrc, tumChoice_congr hlc] at hchoice
  rw [hleft]
  exact ⟨hhold, hchoice⟩

/-- What the note of a switchover leaves. -/
theorem switchNoted_effect (s : State) : (∀ c : Fin 32, (switchNoted s).claim.tum[c] = s.claim.tum[c]) ∧
    Latched .clm 4 (switchNoted s) ∧ (switchNoted s).claim.switches = satInc s.claim.switches ∧
    Frame [.claim, .events, .board, .laneA, .laneB, .sramA, .sramB] s (switchNoted s) := by
  unfold switchNoted
  extract_lets s3
  generalize hu : ({ s3 with claim := { s3.claim with senior := seniorLane s3 } } : State) = u
  have hmarked : Frame [.events, .board, .laneA, .laneB, .sramA, .sramB] u
      (noteTrigs 117 (foldS lanes (fun l => recMark l s3.raw 0 6 0 117 0) u)) :=
    .under (noteTrigs_only _ _) (by simp) (.foldS _ _ _ fun l t =>
      (recMark_only l _ _ _ _ _ _ t).mono (by cases l <;> simp [lanePart, sramPart]))
  have hkept : EventsKept u (noteTrigs 117 (foldS lanes (fun l => recMark l s3.raw 0 6 0 117 0) u)) :=
    EventsKept.trans (foldS_eventsKept _ (fun l t => recMark_eventsKept l _ _ _ _ _ _ t) u)
      ((noteTrigs_only _ _).eventsKept (by simp))
  have hclaim := hmarked .claim (by simp)
  have hcounted : Frame [.claim, .events, .board] s u := hu ▸
    .under (claim_set s3 _) (by simp) (.under (raise_only _ _ _) (by simp) ((modClaim_only _ s).mono (by simp)))
  refine ⟨fun c => ?_, hkept _ _ ?_, ?_, (hcounted.mono (by simp)).comp (hmarked.mono (by simp))⟩
  · rw [tum_of_claim hclaim, ← hu]
    rfl
  · rw [← hu]
    exact latched_raise _ _ _ (by omega)
  · rw [hclaim, ← hu]
    rfl

/-- Without a lane that claims the gates are off, and the mode stops where it runs (R76). -/
theorem lanesLost_effect (s : State) (hr : inRun s = true) (hb : s.mode.busy = false) :
    (lanesLost s).gate.allOff = true ∧ (lanesLost s).claim = s.claim ∧ (lanesLost s).mode.busy = true ∧
    (lanesLost s).mode.target = 3 ∧ (lanesLost s).mode.nextCause = 8 := by
  generalize hu : settleGates (modGate (fun g => { g with allOff := true }) s) = u
  have hoff : u.gate.allOff = true := by
    rw [← hu, settleGates]
    refine foldS_keeps (fun t => t.gate.allOff) _ _ _ fun c t => ?_
    split
    · rfl
    · rfl
  have hmode : u.mode = s.mode := hu ▸ ((modGate_only _ s).comp (settleGates_only _)) .mode (by simp)
  have hrun : inRun u = true := by rw [← hr, inRun, inRun, State.md, State.md, hmode]
  have hrow : Trigger.row (.stop 8 6) u = some ⟨3, 8, 1#32 <<< 6⟩ := if_pos (by rw [hrun]; rfl)
  have hlost : lanesLost s = beginTransition ⟨3, 8, 1#32 <<< 6⟩ u := by
    rw [lanesLost, hu, trigger_begins hrow (by rw [hmode]; exact hb)]
  refine ⟨?_, lanesLost_only s .claim (by simp), ?_⟩
  · rw [hlost]
    exact hoff
  · rw [hlost]
    exact ⟨rfl, rfl, rfl⟩

/-! ### The statement -/

/-- Tumblers hold and hand over. -/
theorem tumblersHoldAndHandOver : Claim.TumblersHoldAndHandOver := by
  rintro s c x rfl
  refine ⟨fun ha hb => ⟨fun hs => ?_, fun _ => ?_⟩, fun hne hwin => ⟨fun hr hh h0 => ?_, fun hr hh h0 hlt => ?_,
    fun hr hh hlt => ?_⟩, fun hp => ?_, fun hp => ?_, fun hh => ?_, fun hh hc => ?_, fun hh h0 hr hb => ?_⟩
  · have hnote : noteSenior s = s := if_pos hs
    exact congrArg Host.Outcome.next ((claimChange_of_seen ha hb).trans hnote)
  · refine ⟨_, congrArg Host.Outcome.next (claimChange_of_seen ha hb), (noteSenior_effect s).1, ?_, ?_⟩
    · exact noteSenior_only s .gate (by simp)
    · exact noteSenior_only s .mode (by simp)
  · obtain ⟨htum, hkept, hframe⟩ := claimChange_effect hne hwin
    obtain ⟨base, hfall⟩ := allReacted_of_fall hh hr h0
    have hlatched := claimsJudged_hold hr hh h0 (by rw [hfall])
    refine ⟨_, rfl, ?_, ?_, ?_, hkept _ _ hlatched, hframe⟩
    all_goals simp only [htum, hfall]
  · obtain ⟨htum, -, -⟩ := claimChange_effect hne hwin
    have hrise := allReacted_of_rise hh hr h0 hlt
    exact ⟨_, rfl, by simp only [htum, hrise]⟩
  · obtain ⟨htum, -, -⟩ := claimChange_effect hne hwin
    have hidle := allReacted_of_idle hh hr hlt
    refine ⟨_, rfl, ?_, ?_⟩
    all_goals simp only [htum, hidle]
  · exact congrArg Host.Outcome.next (if_pos (by rw [hp]; rfl))
  · obtain ⟨hsrc, hplanned, hlatched, hswitches, hnow⟩ := revertTumbler_effect hp
    exact ⟨_, rfl, hsrc, hplanned, hlatched, hswitches, hnow, (revertTumbler_only c s).mono (by simp)⟩
  · exact congrArg Host.Outcome.next (if_pos (by rw [hh]; rfl))
  · obtain ⟨hrest, hhold, hchoice⟩ := holdsLeft_effect hh
    obtain ⟨htum, hlatched, hswitches, hframe⟩ := switchNoted_effect (holdsLeft c s)
    have htaken := tumChoice_of_other hc
    have hswitch : switchover c s = switchNoted (holdsLeft c s) :=
      (switchover_of_hold hh).trans (if_neg (by rw [htaken]; exact Bool.false_ne_true))
    have hrest' {β : Type} (p : State → β) (hp : ∀ u, p (tumless u) = p u) := of_tumless p hp hrest
    refine ⟨_, congrArg Host.Outcome.next hswitch, ?_, ?_, hlatched, ?_, ?_, ?_, ?_⟩
    · rw [htum]
      exact hchoice _ htaken
    · rw [htum]
      exact hhold
    · rw [hswitches, hrest' (·.claim.switches) fun _ => rfl]
      rfl
    · rw [hframe .gate (by simp)]
      exact hrest' (·.gate.fg) fun _ => rfl
    · rw [hframe .mode (by simp)]
      exact hrest' (·.mode) fun _ => rfl
    · rw [hframe.now_eq (by simp), hrest' (·.now) fun _ => rfl]
      exact elapseTo_now_eq_max _ s
  · obtain ⟨hrest, hhold, -⟩ := holdsLeft_effect hh
    have hmode : (holdsLeft c s).mode = s.mode := (of_tumless (·.mode) (fun _ => rfl) hrest).trans rfl
    have hrun : inRun (holdsLeft c s) = true := by rw [← hr, inRun, inRun, State.md, State.md, hmode]
    obtain ⟨hoff, hclaim, hstop⟩ := lanesLost_effect (holdsLeft c s) hrun (by rw [hmode]; exact hb)
    have hswitch : switchover c s = lanesLost (holdsLeft c s) :=
      (switchover_of_hold hh).trans (if_pos (by rw [tumChoice_of_none h0]; rfl))
    exact ⟨_, congrArg Host.Outcome.next hswitch, by rw [tum_of_claim hclaim]; exact hhold, hoff, hstop⟩

/-- Settles O42: CLM_CTL moves two claims and the settings; and each walk over the tumblers makes of every tumbler what its own
step makes of it, whatever the others do. -/
theorem claimsAndTumblers : Obligations.ClaimsAndTumblers := ⟨claimsFollowThePreference, tumblersHoldAndHandOver⟩

end Sys2Proof.Machine
end

section
/-! PROOFS. Sessions of the keyring and what they guard (O20; R96 to R98; log entries 3 and 32). -/

namespace Sys2Proof.Machine

/-! ### The owner of a session -/

/-- The owner of the open session owns it. -/
theorem owns_of_owner {m : Master} {s : State} (hs : s.key.session = true) (ho : s.key.owner = m) : owns s m = true := by
  simp [owns, hs, ho]

/-- No master owns a session that is closed or another's. -/
theorem owns_of_not_owner {m : Master} {s : State} (h : s.key.session = false ∨ s.key.owner ≠ m) : owns s m = false := by
  obtain hs | ho := h
  · simp [owns, hs]
  · simp [owns, ho]

/-! ### RWK writes (R98) -/

section
variable {m : Master} {s : State} (a : Word) (f : State → State)

/-- An RWK write of a master that does not own the session is discarded. -/
theorem rwkWrite_of_not_owner (h : s.key.session = false ∨ s.key.owner ≠ m) : rwkWrite m a f s = rwkDiscard a s := by
  rw [rwkWrite, rwkOk, owns_of_not_owner h]
  rfl

/-- In M1 the owner's is discarded too, and restarts the idle count (R97; log entry 32). -/
theorem rwkWrite_of_owner_in_M1 (hs : s.key.session = true) (ho : s.key.owner = m) (h1 : s.md = 1) :
    rwkWrite m a f s = rwkDiscard a (touchSession s) := by
  have hmode : s.mode.mode = 1#4 := BitVec.eq_of_toNat_eq h1
  rw [rwkWrite, rwkOk, owns_of_owner hs ho, hmode]
  rfl

end

/-- A write of an RWK register reaches its register. -/
theorem exec_rwkWrite {m : Master} (hm : m.toNat < 14) {a : Word} (ha : rwkReg a.toNat = true) (v : Word) (s : State) :
    exec (.rwkWrite m a v) s = .next (writeWord m a.toNat v s) :=
  (byMaster_of_lt hm s _).trans (congrArg Host.Outcome.next (if_pos ha))

/-- A write in the mesh block. -/
theorem writeWord_mesh {a off : Nat} (ht : targetOf a = some 5) (ho : a - 0x40000 = off) (m : Master) (v : Word) (s : State) :
    writeWord m a v s = writeMesh m off v s := by
  simp only [writeWord, ht, ho]

/-- A write in the block of the claims. -/
theorem writeWord_clm {a off : Nat} (ht : targetOf a = some 8) (ho : a - 0x60000 = off) (m : Master) (v : Word) (s : State) :
    writeWord m a v s = writeClm m off v s := by
  simp only [writeWord, ht, ho]

/-- A write in the block of the network ports and the time. -/
theorem writeWord_net {a off : Nat} (ht : targetOf a = some 9) (ho : a - 0x70000 = off) (m : Master) (v : Word) (s : State) :
    writeWord m a v s = writeNet m off v s := by
  simp only [writeWord, ht, ho]

/-- A write of TIME_PPSSEC is gated by R98 and sets the second. -/
theorem writeWord_ppsSec (m : Master) (v : Word) (s : State) :
    writeWord m (0x7012C : Word).toNat v s = rwkWrite m 0x7012C (setPpsSec v) s :=
  writeWord_net (off := 0x12C) (by decide) (by decide) m v s

/-- A write of an RWK register of the shared blocks has one effect behind the gate of R98. -/
theorem exec_rwkWrite_shared {m : Master} (hm : m.toNat < 14) {a : Word} (ha : a ∈ [0x40018#32, 0x60008, 0x70108, 0x7012C])
    (v : Word) (s : State) : ∃ f, exec (.rwkWrite m a v) s = .next (rwkWrite m a f s) := by
  have hex {a : Word} {f : State → State} (hr : rwkReg a.toNat = true) (h : writeWord m a.toNat v s = rwkWrite m a f s) :
      ∃ f, exec (.rwkWrite m a v) s = .next (rwkWrite m a f s) := ⟨f, (exec_rwkWrite hm hr v s).trans (congrArg _ h)⟩
  simp only [List.mem_cons, List.not_mem_nil, or_false] at ha
  obtain rfl | rfl | rfl | rfl := ha
  · exact hex (f := setShadow v) (by decide) (writeWord_mesh (off := 0x18) (by decide) (by decide) m v s)
  · exact hex (f := setClmCtl v) (by decide) (writeWord_clm (off := 0x08) (by decide) (by decide) m v s)
  · exact hex (f := setTimeCtl v) (by decide) (writeWord_net (off := 0x108) (by decide) (by decide) m v s)
  · exact hex (by decide) (writeWord_ppsSec m v s)

/-! ### KEY_BUF (R96) -/

/-- The owner's write fills a word of the transfer buffer. -/
theorem keyBufWord_of_owner {m : Master} {s : State} (hs : s.key.session = true) (ho : s.key.owner = m) (i : Nat) (v : Word) :
    keyBufWord m i v s = modKey (fun k => { k with buf := sparsePutAll 0 k.buf (4 * i) (leBytes 4 v.toNat) }) s :=
  if_pos (owns_of_owner hs ho)

/-- Another master's write is discarded. -/
theorem keyBufWord_of_not_owner {m : Master} {s : State} (h : s.key.session = false ∨ s.key.owner ≠ m) (i : Nat) (v : Word) :
    keyBufWord m i v s = rwkDiscard (keyBufAddr i) s :=
  if_neg (by simp [owns_of_not_owner h])

/-! ### The end of a session (R97) -/

/-- A session that ends is closed, and an event tells of it. -/
theorem endSession_effect (s : State) (h : s.key.session = true) : (endSession true s).key =
    { s.key with session := false, owner := 0, safeAuth := false, idleLeft := 0 } ∧ Latched .key 3 (endSession true s) := by
  have hraise : endSession true s =
      raise .key 3 (modKey (fun k => { k with session := false, owner := 0, safeAuth := false, idleLeft := 0 }) s) := by
    rw [endSession, h]
    rfl
  rw [hraise]
  exact ⟨raise_only _ _ _ .key (by simp), latched_raise _ _ _ (by omega)⟩

/-- While no command runs the session ends when its idle time is over. -/
theorem exec_sessionTimeout {s : State} (hs : s.key.session = true) (hr : s.key.running = none) :
    exec .sessionTimeout s = .next (endSession true (elapseTo (s.key.idleFrom + s.key.idleLeft) s)) :=
  congrArg Host.Outcome.next (if_pos (by simp [hs, hr]))

/-- A command that runs stops the idle count. -/
theorem exec_sessionTimeout_of_running {s : State} (hr : s.key.running.isSome = true) : exec .sessionTimeout s = .next s := by
  obtain ⟨r, hr⟩ := Option.isSome_iff_exists.mp hr
  exact congrArg Host.Outcome.next (if_neg (by simp [hr]))

/-- Settles O20: what a write does is decided by the owner of the session alone, and with it, in M1, by the mode; the session
ends at its due time, at which nothing else happens. -/
theorem keySessionsGuardWrites : Obligations.KeySessionsGuardWrites := by
  intro s
  refine ⟨fun hs hr => ?_, fun _ hr => exec_sessionTimeout_of_running hr,
    fun m n v hm => ⟨fun hs ho => ?_, fun h => ?_⟩,
    fun m v hm => ⟨fun h a ha => ?_, fun hs ho h1 a ha => ?_, fun hs ho h1 => ?_⟩⟩
  · obtain ⟨hkey, hlatched⟩ := endSession_effect (elapseTo (s.key.idleFrom + s.key.idleLeft) s) hs
    have hframe := endSession_only true (elapseTo (s.key.idleFrom + s.key.idleLeft) s)
    refine ⟨_, exec_sessionTimeout hs hr, ?_, ?_, ?_, ?_, hlatched, ?_⟩
    · rw [hkey]
    · rw [hkey]
    · rw [hkey]
    · rw [hframe.now_eq (by simp), elapseTo_now_eq_max]
    · exact (elapseTo_only _ s).trans hframe (by simp) (by simp)
  · exact (byMaster_of_lt hm s _).trans (congrArg Host.Outcome.next (keyBufWord_of_owner hs ho n.val v))
  · exact (byMaster_of_lt hm s _).trans (congrArg Host.Outcome.next (keyBufWord_of_not_owner h n.val v))
  · obtain ⟨f, hexec⟩ := exec_rwkWrite_shared hm ha v s
    rw [hexec, rwkWrite_of_not_owner a f h]
    rfl
  · obtain ⟨f, hexec⟩ := exec_rwkWrite_shared hm ha v s
    rw [hexec, rwkWrite_of_owner_in_M1 a f hs ho h1]
    rfl
  · rw [exec_rwkWrite hm (by decide), writeWord_ppsSec, rwkWrite_of_owner hs ho h1]
    rfl

end Sys2Proof.Machine
end

section
/-! PROOFS. Accepted key commands run (O19; R91, R93, R96, R97, R99, R100, R398; log entries 14 and 65). -/

namespace Sys2Proof.Machine

/-! ### Stale pages (R95, R99) -/

/-- The front of consecutive entries is consecutive entries. -/
theorem take_sparseRange {α : Type} (d : α) (m : List (Nat × α)) (k n j : Nat) :
    (sparseRange d m k n).take j = sparseRange d m k (min j n) := by
  induction n generalizing m k j with
  | zero => simp [sparseRange]
  | succ n ih =>
    cases j with
    | zero => simp [sparseRange]
    | succ j => simp [sparseRange, ih, Nat.succ_min_succ]

/-- Entries that are written one after another are read back together. -/
theorem sparseRange_putAll {α : Type} [DecidableEq α] (d : α) (m : List (Nat × α)) (k : Nat) (xs : List α)
    (h : sparseWf d m = true) : sparseRange d (sparsePutAll d m k xs) k xs.length = xs := by
  rw [sparseRange_eq d _ k _ (sparsePutAll_wf d m k xs h)]
  refine List.ext_getElem (by simp) fun i hi hx => ?_
  simp [sparseGet_putAll d m k xs i hx h]

/-- A page that is marked stale is stale. -/
theorem pageState_markStale {page : List (Nat × Byte)} (h : sparseWf 0xFF page = true) : pageState (markStale page) = 2 := by
  have hfront : (descBytes (markStale page)).take 4 = leBytes 4 0 :=
    (take_sparseRange _ _ _ _ _).trans (sparseRange_putAll _ _ _ (leBytes 4 0) h)
  have hword : u32 (descBytes (markStale page)) 0 = 0 := by
    rw [u32, slice, List.drop_zero, hfront]
    rfl
  simp [pageState, hword]

/-- What an ERASE marks at its acceptance: the page is stale afterwards. -/
theorem pageState_staled {page : List (Nat × Byte)} (h : sparseWf 0xFF page = true) :
    pageState (if pageState page = 2 then page else markStale page) = 2 := by
  split
  · assumption
  · exact pageState_markStale h

/-! ### Fuse slots (R91) -/

/-- An entry of an array at its index. -/
theorem at_fin {α : Type} {n : Nat} (v : Vector α n) (i : Fin n) (d : α) : at' v i.val d = v[i] := by simp [at']

/-- An entry of an array that is put at its index. -/
theorem put_getElem_self {α : Type} {n : Nat} (v : Vector α n) (i : Fin n) (x : α) : (put' v i.val x)[i] = x := by
  simp [put']

/-- The number of a slot as an argument. -/
theorem wd_fin_toNat (n : Fin 4) : (wd n.val).toNat = n.val := by
  rw [wd, BitVec.toNat_ofNat]
  omega

/-- Where a second slot is programmed, none is the last one. -/
theorem programmed_slots_ne_one {v : Vector (Fin 3) 4} {n j : Fin 4} (hne : j ≠ n) (hn : v[n] = 1) (hj : v[j] = 1) :
    (v.toList.filter (· == 1)).length ≠ 1 := by
  have hdup : List.Duplicate 1 v.toList := by
    rw [List.duplicate_iff_exists_distinct_get]
    obtain hlt | hlt := lt_or_gt_of_ne hne
    · exact ⟨⟨j, by simp⟩, ⟨n, by simp⟩, hlt, by simpa using hj.symm, by simpa using hn.symm⟩
    · exact ⟨⟨n, by simp⟩, ⟨j, by simp⟩, hlt, by simpa using hn.symm, by simpa using hj.symm⟩
  have htwo := List.duplicate_iff_two_le_count.mp hdup
  rw [List.count, List.countP_eq_length_filter] at htwo
  omega

/-! ### What an accepted command leaves -/

/-- The command that runs after its acceptance: its OP, SEQ and argument, and the page and the buffer as they stand. -/
def keyTaken (op : Byte) (m : Master) (fw : Bool) (s : State) : KeyRun :=
  ⟨op, s.key.seq + 1, fw, s.key.arg, m, standby fw s, s.key.buf⟩

/-- The state in which the owner's command is accepted: it is counted, the idle count restarts, and the command runs. -/
def keyAccepted (op : Byte) (m : Master) (fw : Bool) (s : State) : State :=
  { s with key := { s.key with
    seq := s.key.seq + 1, idleLeft := 60 * 400000000, idleFrom := s.now, running := some (keyTaken op m fw s) } }

section
variable {op : Nat} {m : Master} {fw : Bool} {refuse : State → Nat} {start : State → State} {s : State}

/-- A command of the owner that nothing refuses is accepted, and starts. -/
theorem keyCommand_of_owner (hr : s.key.running = none) (hs : s.key.session = true) (ho : s.key.owner = m) (hop : op ≠ 1)
    (hc : refuse s = 0) : keyCommand op m 0x4B59 fw refuse start s = start (keyAccepted (BitVec.ofNat 8 op) m fw s) := by
  simp only [keyCommand, keyGate_of_owner hr hop hs ho, hc, owns_of_owner hs ho]
  rfl

/-- A command of the owner that its own conditions refuse posts their code. -/
theorem keyCommand_of_owner_refused {code : Nat} (hr : s.key.running = none) (hs : s.key.session = true) (ho : s.key.owner = m)
    (hop : op ≠ 1) (hc : refuse s = code) (h0 : code ≠ 0) (h5 : code ≠ 5) :
    keyCommand op m 0x4B59 fw refuse start s = Claim.refusedKey m (BitVec.ofNat 8 op) (BitVec.ofNat 8 code) s :=
  (keyCommand_of_refusal (keyGate_of_owner hr hop hs ho) hc h0).trans (keyRefused_of_ne h5 _ _ _)

end

/-- An OPEN of a host port in M3 opens the session (R96, R110). -/
theorem openCmd_opens {m : Master} {s : State} (fw : Bool) (hr : s.key.running = none) (hm : m = 6 ∨ m = 7) (h3 : s.md = 3)
    (hs : s.key.session = false) : openCmd m 0x4B59 fw s = openSession m (modKey (fun k => { k with
      seq := s.key.seq + 1, running := some (keyTaken 1 m fw s) }) s) := by
  have hgate : keyGate m 0x4B59 1 s = 0 := by
    rw [keyGate_open_of_host hr hm, openMode_of_M3 h3, hs]
    rfl
  have howns : owns s m = false := owns_of_not_owner (.inl hs)
  simp only [openCmd, keyCommand, hgate, howns]
  rfl

/-! ### The conditions of each command -/

section
variable {s : State} {fw : Bool}

/-- ERASE takes a block of 64 KB. -/
theorem eraseRefusal_of_block (h : s.key.arg.toNat ≤ 0xFF0000) (h0 : s.key.arg.toNat % 0x10000 = 0) : eraseRefusal s = 0 :=
  if_pos (by simp [h, h0])

/-- PROGRAM takes a sector of 4 KB below the descriptor. -/
theorem programRefusal_of_sector (h : s.key.arg.toNat ≤ 0xFFE000) (h0 : s.key.arg.toNat % 0x1000 = 0) :
    programRefusal s = 0 :=
  if_pos (by simp [h, h0])

/-- PROGRAM refuses a misaligned argument. -/
theorem programRefusal_of_misaligned (h : s.key.arg.toNat % 0x1000 ≠ 0) : programRefusal s = 20 := if_neg (by simp [h])

/-- COMMIT takes a verified page below the last generation, with SAFEAUTH where the safety record changes. -/
theorem commitRefusal_of_verified (hv : s.key.verified[standby fw s] = true) (hg : runGen s.key fw < 0xFFFFFF)
    (ha : fw = false → safetyDiffers s = true → s.key.safeAuth = true) : commitRefusal fw s = 0 := by
  have hauth : ¬ (!fw && safetyDiffers s && !s.key.safeAuth) = true := by
    simp only [Bool.and_eq_true, Bool.not_eq_true']
    rintro ⟨⟨hfw, hd⟩, hno⟩
    exact absurd (hno.symm.trans (ha hfw hd)) (by decide)
  rw [commitRefusal, if_neg (by rw [hv]; decide), if_neg (by omega), if_neg hauth]

/-- COMMIT refuses a page that is not verified. -/
theorem commitRefusal_of_unverified (hv : s.key.verified[standby fw s] = false) : commitRefusal fw s = 15 :=
  if_pos (by rw [hv]; rfl)

/-- ADVANCE takes a counter below that of the running image. -/
theorem advanceRefusal_of_below (hk : s.key.runKey.isSome = true) (h : s.key.rollback < s.key.imgRollback) :
    advanceRefusal s = 0 :=
  if_pos (by simp [hk, h])

/-- PROGSLOT takes an empty slot from 1 to 3. -/
theorem progslotRefusal_of_empty {n : Fin 4} (hn : n ≠ 0) (ha : s.key.arg = wd n.val) (h : s.key.slotState[n] = 0) :
    progslotRefusal s = 0 := by
  have hpos : n.val ≠ 0 := fun e => hn (Fin.ext e)
  have hin : within 1 3 n.val = true := by
    simp only [within, Bool.and_eq_true, decide_eq_true_eq]
    omega
  rw [progslotRefusal, ha, wd_fin_toNat, hin, at_fin, h]
  rfl

/-- REVOKE takes a slot that signed no running image and is not the last programmed one. -/
theorem revokeRefusal_of_other {n : Fin 4} (ha : s.key.arg = wd n.val)
    (hsig : s.key.runKey = none ∨ s.key.signer.toNat ≠ n.val) (hj : ∃ j : Fin 4, j ≠ n ∧ s.key.slotState[j] = 1) :
    revokeRefusal s = 0 := by
  obtain ⟨j, hne, hj⟩ := hj
  have hsigner : ¬ (s.key.runKey.isSome && decide (s.key.signer.toNat = n.val)) = true := by
    obtain h | h := hsig
    · simp [h]
    · simp [h]
  have hlast : ¬ (decide (s.key.slotState[n] = 1) &&
      decide ((s.key.slotState.toList.filter (· == 1)).length = 1)) = true := by
    simp only [Bool.and_eq_true, decide_eq_true_eq]
    exact fun ⟨hn, hone⟩ => programmed_slots_ne_one hne hn hj hone
  simp only [revokeRefusal, ha, wd_fin_toNat, at_fin]
  rw [if_neg (by omega), if_neg hsigner, if_neg hlast]

end

/-- What the acceptance of an ERASE does to its page: it is not verified, and stale. -/
theorem eraseStart_effect (p : Fin 4) (s : State) (f : List (Nat × Byte) → List (Nat × Byte)) :
    (setVerified p false (modPage p f s)).key.verified[p] = false ∧
    (setVerified p false (modPage p f s)).key.flash[p] = f s.key.flash[p] ∧
    ∀ q : Fin 4, q ≠ p → (setVerified p false (modPage p f s)).key.flash[q] = s.key.flash[q] :=
  ⟨by simp [setVerified, upd], modAt_getElem_self _ _ _, fun _ h => modAt_getElem_other _ _ _ _ h⟩

/-- Accepted commands run. -/
theorem keyCommandsRun : Claim.KeyCommandsRun := by
  rintro s m fw k hr hm rfl
  have run {c : Instr} {f : State → State} {t : State} (hex : exec c s = byMaster m s f) (h : f s = t) : exec c s = .next t :=
    hex.trans ((byMaster_of_lt hm s f).trans (congrArg _ h))
  refine ⟨fun hhost h3 hs => run rfl (openCmd_opens fw hr hhost h3 hs), fun hs ho => ?_⟩
  refine ⟨?_, fun hle h0 => ?_, fun hle h0 => ?_, ?_, fun hv hg ha => ?_, ?_, fun hk hb => ?_, fun n hn ha he => ?_,
    fun n ha hsig hj => ?_, fun hv => ?_, fun h => ?_⟩
  · exact run rfl (keyCommand_of_owner hr hs ho (by omega) rfl)
  · obtain ⟨hver, hpage, hother⟩ := eraseStart_effect (standby fw s) (keyAccepted 3 m fw s)
      fun p => if pageState p = 2 then p else markStale p
    refine ⟨_, run rfl (keyCommand_of_owner hr hs ho (by omega) (eraseRefusal_of_block hle h0)), rfl, hver, fun hwf => ?_,
      hother, ?_⟩
    · exact (congrArg pageState hpage).trans (pageState_staled hwf)
    · exact (modKey_only (fun _ => (keyAccepted 3 m fw s).key) s).comp
        ((modPage_only _ _ _).comp (setVerified_only _ _ _))
  · exact run rfl (keyCommand_of_owner hr hs ho (by omega) (programRefusal_of_sector hle h0))
  · exact run rfl (keyCommand_of_owner hr hs ho (by omega) rfl)
  · exact run rfl (keyCommand_of_owner hr hs ho (by omega) (commitRefusal_of_verified hv hg ha))
  · exact run rfl (keyCommand_of_owner hr hs ho (by omega) rfl)
  · exact run rfl (keyCommand_of_owner hr hs ho (by omega) (advanceRefusal_of_below hk hb))
  · exact run rfl (keyCommand_of_owner hr hs ho (by omega) (progslotRefusal_of_empty hn ha he))
  · exact run rfl (keyCommand_of_owner hr hs ho (by omega) (revokeRefusal_of_other ha hsig hj))
  · exact run rfl (keyCommand_of_owner_refused (code := 15) hr hs ho (by omega) (commitRefusal_of_unverified hv)
      (by omega) (by omega))
  · exact run rfl (keyCommand_of_owner_refused (code := 20) hr hs ho (by omega) (programRefusal_of_misaligned h)
      (by omega) (by omega))

end Sys2Proof.Machine
end

section
/-! PROOFS. Key commands complete (O19; R91, R93, R94, R99, R100, R362, R398; log entry 65). -/

namespace Sys2Proof.Machine

/-! ### What a completing command leaves of the keyring -/

/-- The work of a command on a page leaves the count of the commands and the other pages. -/
def PageWork (p : Fin 4) (s t : State) : Prop :=
  t.key.seq = s.key.seq ∧ ∀ q : Fin 4, q ≠ p → t.key.flash[q] = s.key.flash[q]

/-- One step of the work after another. -/
theorem PageWork.trans {p : Fin 4} {s t u : State} (h : PageWork p s t) (h' : PageWork p t u) : PageWork p s u := by
  obtain ⟨hseq, hflash⟩ := h
  obtain ⟨hseq', hflash'⟩ := h'
  exact ⟨hseq'.trans hseq, fun q hq => (hflash' q hq).trans (hflash q hq)⟩

/-- What leaves the keyring leaves its pages. -/
theorem Frame.pageWork {ps : List Part} {s t : State} (h : Frame ps s t) (hp : .key ∉ ps) (p : Fin 4) : PageWork p s t := by
  have hkey : t.key = s.key := h .key hp
  exact ⟨by rw [hkey], fun q _ => by rw [hkey]⟩

/-- The page itself is changed. -/
theorem modPage_pageWork (p : Fin 4) (f : List (Nat × Byte) → List (Nat × Byte)) (s : State) : PageWork p s (modPage p f s) :=
  ⟨rfl, fun _ h => modAt_getElem_other _ _ _ _ h⟩

/-- It takes its change. -/
theorem modPage_flash_self (p : Fin 4) (f : List (Nat × Byte) → List (Nat × Byte)) (s : State) :
    (modPage p f s).key.flash[p] = f s.key.flash[p] := modAt_getElem_self _ _ _

/-- VERIFIED is no page. -/
theorem setVerified_pageWork (p i : Fin 4) (v : Bool) (s : State) : PageWork p s (setVerified i v s) := ⟨rfl, fun _ _ => rfl⟩

/-- A flash failure is one of the page. -/
theorem flashFail_pageWork (p : Fin 4) (off n : Nat) (s : State) : PageWork p s (flashFail p off n s) :=
  ((takeBytes_only n s).pageWork (by simp) p).trans (modPage_pageWork p _ _)

section
variable (r : KeyRun) (ok : Bool) (s : State)

/-- ERASE works on its page. -/
theorem doErase_pageWork : PageWork r.page s (doErase r ok s).2 := by
  unfold doErase
  dsimp only
  split
  · exact modPage_pageWork _ _ s
  · exact flashFail_pageWork _ _ _ s

/-- PROGRAM works on its page. -/
theorem doProgram_pageWork : PageWork r.page s (doProgram r ok s).2 := by
  unfold doProgram
  dsimp only
  split
  · exact ⟨rfl, fun _ _ => rfl⟩
  · split
    · exact (modPage_pageWork _ _ s).trans (setVerified_pageWork _ _ _ _)
    · exact (flashFail_pageWork _ _ _ s).trans (setVerified_pageWork _ _ _ _)

/-- VERIFY changes no page. -/
theorem doVerify_pageWork : PageWork r.page s (doVerify r s).2 := by
  unfold doVerify
  dsimp only
  split
  · split <;> exact ⟨rfl, fun _ _ => rfl⟩
  · split <;> exact ⟨rfl, fun _ _ => rfl⟩

/-- A change of the safety record at a COMMIT: the start-up test is due, and the change is logged (R100, R325). -/
def safetyChanged (newCrc : Nat) (t : State) : State :=
  raise .key 5 (plkLog 1 r.master.toNat 0 (safetyCrc t) newCrc (modPlk (fun p => { p with testDue := true, testCause := 2 }) t))

/-- What a COMMIT does beside its page: a change of the safety record is noted, and in M1 Keycheck restarts (R100, R101). -/
def commitNoted (t : State) : State :=
  when (s.md == 1) (modKey fun k => { k with heldM1 := false })
    (when (!r.fw && safetyDiffers s)
      (safetyChanged r (crc32c ((payOf (pageRecords s.key.flash[r.page]) 0xA0 0).getD []))) t)

/-- The descriptor that a COMMIT writes: the next generation, and the image's length (R95, R100). -/
def nextDescriptor : List Byte :=
  descriptor (runGen s.key r.fw + 1) (u32 (sparseRange 0xFF s.key.flash[r.page] 0 12) 8)

/-- The page with that descriptor. -/
def descriptorWritten : State := modPage r.page (fun p => sparsePutAll 0xFF p descOff (nextDescriptor r s)) s

/-- It is work on the page. -/
theorem descriptorWritten_pageWork : PageWork r.page s (descriptorWritten r s) := modPage_pageWork _ _ s

/-- The page holds the descriptor. -/
theorem descriptorWritten_flash : (descriptorWritten r s).key.flash[r.page] =
    sparsePutAll 0xFF s.key.flash[r.page] descOff (nextDescriptor r s) := modPage_flash_self r.page _ s

/-- Beside its page a COMMIT changes at most the hold of M1. -/
theorem commitNoted_key (t : State) :
    (commitNoted r s t).key.seq = t.key.seq ∧ (commitNoted r s t).key.flash = t.key.flash := by
  have hsafe (b : Bool) (crc : Nat) : (when b (safetyChanged r crc) t).key = t.key :=
    when_keeps (·.key) b _ t (raise_only _ _ _ .key (by simp))
  exact ⟨(when_keeps (·.key.seq) _ _ _ rfl).trans (congrArg (·.seq) (hsafe _ _)),
    (when_keeps (·.key.flash) _ _ _ rfl).trans (congrArg (·.flash) (hsafe _ _))⟩

/-- A COMMIT finds its descriptor block written, fails, or commits its page. -/
theorem doCommit_eq : doCommit r ok s =
    if s.key.flash[r.page].any (fun e => descOff ≤ e.1) then (19, s)
    else if ok then (0, commitNoted r s (descriptorWritten r s))
    else (18, flashFail r.page descOff 16 s) := by
  simp only [doCommit]
  split
  · rfl
  · cases ok <;> rfl

/-- COMMIT works on its page. -/
theorem doCommit_pageWork : PageWork r.page s (doCommit r ok s).2 := by
  rw [doCommit_eq]
  split
  · exact ⟨rfl, fun _ _ => rfl⟩
  · split
    · obtain ⟨hseq, hflash⟩ := commitNoted_key r s (descriptorWritten r s)
      exact (descriptorWritten_pageWork r s).trans ⟨hseq, fun q _ => by rw [hflash]⟩
    · exact flashFail_pageWork _ _ _ s

/-- SAFEAUTH clears KEY_BUF and changes no page. -/
theorem doSafeauth_key : (doSafeauth r s).2.key.seq = s.key.seq ∧ (doSafeauth r s).2.key.flash = s.key.flash ∧
    (doSafeauth r s).2.key.buf = [] := by
  have hpass : (passwordOk r s).2.key = s.key := passwordOk_only r s .key (by simp)
  unfold doSafeauth
  dsimp only
  split
  · exact ⟨rfl, rfl, rfl⟩
  · split
    · exact ⟨congrArg (·.seq) hpass, congrArg (·.flash) hpass, rfl⟩
    · have hfail (t : State) : (authFailed r t).key = t.key := authFailed_only r t .key (by simp)
      simp only [hfail]
      exact ⟨congrArg (·.seq) hpass, congrArg (·.flash) hpass, rfl⟩

/-- Each command works on the page it was accepted for. -/
theorem finishKey_pageWork : PageWork r.page s (finishKey r ok s).2 := by
  unfold finishKey
  split
  case h_1 => exact doErase_pageWork r ok s
  case h_2 => exact doProgram_pageWork r ok s
  case h_3 => exact doVerify_pageWork r s
  case h_4 => exact doCommit_pageWork r ok s
  case h_5 =>
    obtain ⟨hseq, hflash, -⟩ := doSafeauth_key r s
    exact ⟨hseq, fun q _ => by rw [hflash]⟩
  all_goals exact ⟨rfl, fun _ _ => rfl⟩

end

/-! ### The result of each command -/

section
variable {r : KeyRun} {s : State}

/-- A sparse memory that lists nothing at a place reads its default there. -/
theorem sparseGet_of_forall_ne {α : Type} (d : α) {m : List (Nat × α)} {k : Nat} (h : ∀ e ∈ m, e.1 ≠ k) :
    sparseGet d m k = d := by
  induction m with
  | nil => rfl
  | cons e m ih =>
    rw [sparseGet, if_neg (h e List.mem_cons_self)]
    exact ih fun x hx => h x (List.mem_cons_of_mem _ hx)

/-- An ERASE that the flash takes erases its block. -/
theorem doErase_erased : (doErase r true s).1 = 0 ∧ ∀ a : Nat, r.arg.toNat ≤ a → a < r.arg.toNat + 0x10000 →
    sparseGet 0xFF (doErase r true s).2.key.flash[r.page] a = 0xFF := by
  refine ⟨rfl, fun a hlo hhi => ?_⟩
  have hpage : (doErase r true s).2.key.flash[r.page] =
      s.key.flash[r.page].filter fun e => e.1 < r.arg.toNat || r.arg.toNat + 0x10000 ≤ e.1 := modPage_flash_self r.page _ s
  rw [hpage]
  refine sparseGet_of_forall_ne _ fun e he => ?_
  have hout := (List.mem_filter.mp he).2
  simp only [Bool.or_eq_true, decide_eq_true_eq] at hout
  omega

/-- One that fails in the flash ends with code 18. -/
theorem doErase_failed : (doErase r false s).1 = 18 := rfl

/-- VERIFIED of the page that is set or cleared. -/
theorem setVerified_verified (i : Fin 4) (v : Bool) (t : State) : (setVerified i v t).key.verified[i] = v := by
  simp [setVerified, upd]

/-- A PROGRAM of erased bytes that the flash takes writes the buffer as it was accepted. -/
theorem doProgram_erased (h : ∀ e ∈ s.key.flash[r.page], e.1 < r.arg.toNat ∨ r.arg.toNat + 4096 ≤ e.1) :
    (doProgram r true s).1 = 0 ∧ (doProgram r true s).2.key.verified[r.page] = false ∧
    (doProgram r true s).2.key.flash[r.page] = sparsePutAll 0xFF s.key.flash[r.page] r.arg.toNat (keyBuf r) := by
  have hnone : ¬ s.key.flash[r.page].any (fun e => r.arg.toNat ≤ e.1 && e.1 < r.arg.toNat + 4096) = true := by
    simp only [List.any_eq_true, Bool.and_eq_true, decide_eq_true_eq, not_exists, not_and]
    intro e he hlo hhi
    have := h e he
    omega
  have hdone : doProgram r true s = (0, setVerified r.page false
      (modPage r.page (fun p => sparsePutAll 0xFF p r.arg.toNat (keyBuf r)) s)) := if_neg hnone
  rw [hdone]
  exact ⟨rfl, setVerified_verified _ _ _,
    modPage_flash_self r.page (fun p => sparsePutAll 0xFF p r.arg.toNat (keyBuf r)) s⟩

/-- A PROGRAM of bytes that are not erased is refused, and leaves the pages. -/
theorem doProgram_written (ok : Bool) (h : ∃ e ∈ s.key.flash[r.page], r.arg.toNat ≤ e.1 ∧ e.1 < r.arg.toNat + 4096) :
    doProgram r ok s = (19, s) := by
  refine if_pos ?_
  simpa only [List.any_eq_true, Bool.and_eq_true, decide_eq_true_eq] using h

/-- The buffer as it was accepted, byte by byte. -/
theorem keyBuf_eq (h : sparseWf 0 r.buf = true) : keyBuf r = (List.range 4096).map fun i => sparseGet 0 r.buf (0 + i) :=
  sparseRange_eq 0 r.buf 0 4096 h

/-- The page then reads what the buffer held. -/
theorem doProgram_reads (hp : sparseWf 0xFF s.key.flash[r.page] = true) (hb : sparseWf 0 r.buf = true) {j : Nat}
    (hj : j < 4096) : sparseGet 0xFF (sparsePutAll 0xFF s.key.flash[r.page] r.arg.toNat (keyBuf r)) (r.arg.toNat + j) =
      sparseGet 0 r.buf j := by
  rw [keyBuf_eq hb, sparseGet_putAll _ _ _ _ j (by simpa using hj) hp, List.getElem_map, List.getElem_range, Nat.zero_add]

/-- A VERIFY of a key page whose image verifies sets VERIFIED. -/
theorem doVerify_of_ok {g : ImgGood} (hf : r.fw = false) (h : verifyImage s.key s.key.flash[r.page] = .ok g) :
    doVerify r s = (0, setVerified r.page true s) := by
  simp only [doVerify, hf, h]
  rfl

/-- One whose image does not verify names the record at which it fails. -/
theorem doVerify_of_error {e : ImgFail} (hf : r.fw = false) (h : verifyImage s.key s.key.flash[r.page] = .error e) :
    doVerify r s = (e.code, modKey (fun k => { k with
      badIndex := BitVec.ofNat 16 e.index, badType := BitVec.ofNat 16 e.type }) s) := by
  simp only [doVerify, hf, h]
  rfl

/-- A COMMIT whose descriptor block is not erased is refused, and leaves the pages. -/
theorem doCommit_written (ok : Bool) (h : ∃ e ∈ s.key.flash[r.page], descOff ≤ e.1) : doCommit r ok s = (19, s) := by
  rw [doCommit_eq, if_pos]
  simpa only [List.any_eq_true, decide_eq_true_eq] using h

/-- A COMMIT that the flash takes writes the descriptor of the next generation. -/
theorem doCommit_erased (h : ∀ e ∈ s.key.flash[r.page], e.1 < descOff) : (doCommit r true s).1 = 0 ∧
    (doCommit r true s).2.key.flash[r.page] = sparsePutAll 0xFF s.key.flash[r.page] descOff (nextDescriptor r s) := by
  have hnone : ¬ s.key.flash[r.page].any (fun e => descOff ≤ e.1) = true := by
    simpa only [List.any_eq_true, decide_eq_true_eq, not_exists, not_and, Nat.not_le] using h
  obtain ⟨-, hflash⟩ := commitNoted_key r s (descriptorWritten r s)
  rw [doCommit_eq, if_neg hnone, if_pos rfl]
  exact ⟨rfl, by rw [hflash, descriptorWritten_flash]⟩

/-- During a lockout a SAFEAUTH is refused. -/
theorem doSafeauth_locked (h : s.plk.lockEnd.isSome = true) : (doSafeauth r s).1 = 19 := by
  rw [doSafeauth, if_pos h]

end

/-! ### The table of the commands -/

section
variable {r : KeyRun} (ok : Bool) (s : State)

/-- ERASE is OP 3 (R99). -/
theorem finishKey_erase (h : r.op = 3) : finishKey r ok s = doErase r ok s := by
  rw [finishKey, h]
  rfl

/-- PROGRAM is OP 4 (R99). -/
theorem finishKey_program (h : r.op = 4) : finishKey r ok s = doProgram r ok s := by
  rw [finishKey, h]
  rfl

/-- VERIFY is OP 5 (R99). -/
theorem finishKey_verify (h : r.op = 5) : finishKey r ok s = doVerify r s := by
  rw [finishKey, h]
  rfl

/-- COMMIT is OP 6 (R99). -/
theorem finishKey_commit (h : r.op = 6) : finishKey r ok s = doCommit r ok s := by
  rw [finishKey, h]
  rfl

/-- SAFEAUTH is OP 7 (R99). -/
theorem finishKey_safeauth (h : r.op = 7) : finishKey r ok s = doSafeauth r s := by
  rw [finishKey, h]
  rfl

/-- OP 8 raises the rollback counter to that of the running image, and an event tells of it (R93). -/
theorem finishKey_advance (h : r.op = 8) : (finishKey r ok s).1 = 0 ∧
    (finishKey r ok s).2.key.rollback = s.key.imgRollback ∧ Latched .key 6 (finishKey r ok s).2 := by
  have hop : finishKey r ok s = (0, raise .key 6 (modKey (fun k => { k with rollback := k.imgRollback }) s)) := by
    rw [finishKey, h]
    rfl
  rw [hop]
  exact ⟨rfl, congrArg (·.rollback) (raise_only _ _ _ .key (by simp)), latched_raise _ _ _ (by omega)⟩

/-- OP 9 programs its slot (R91). -/
theorem finishKey_progslot (h : r.op = 9) {n : Fin 4} (ha : r.arg = wd n.val) :
    (finishKey r ok s).1 = 0 ∧ (finishKey r ok s).2.key.slotState[n] = 1 := by
  have hop : finishKey r ok s = (0, modKey (fun k => { k with
      slotState := put' k.slotState r.arg.toNat 1,
      slotDigest := put' k.slotDigest r.arg.toNat (beNat (slice (keyBuf r) 0 48)) }) s) := by
    rw [finishKey, h]
    rfl
  rw [hop, ha, wd_fin_toNat]
  exact ⟨rfl, put_getElem_self _ _ _⟩

/-- OP 10 revokes its slot (R91). -/
theorem finishKey_revoke (h : r.op = 10) {n : Fin 4} (ha : r.arg = wd n.val) :
    (finishKey r ok s).1 = 0 ∧ (finishKey r ok s).2.key.slotState[n] = 2 := by
  have hop : finishKey r ok s = (0, modKey (fun k => { k with slotState := put' k.slotState r.arg.toNat 2 }) s) := by
    rw [finishKey, h]
    rfl
  rw [hop, ha, wd_fin_toNat]
  exact ⟨rfl, put_getElem_self _ _ _⟩

end

/-! ### The completion (R398) -/

/-- The blocks that were worn are what a command finds; without one the flash takes its work. -/
theorem flashWear_of_sound (r : KeyRun) (s : State) : (flashWear r [] s).1 = true := by
  unfold flashWear
  split <;> rfl

/-- What the running command leaves as it completes: its code and its effect, on the flash as it finds it. -/
def keyFinished (r : KeyRun) (worn : List (Fin 256)) (ok : Bool) (s : State) : Nat × State :=
  finishKey r (ok && (flashWear r worn s).1) (flashWear r worn s).2

/-- The state with the result posted. -/
def keyCompleted (r : KeyRun) (x : Nat × State) : State :=
  postKey r.op.toNat r.seq x.1 (modKey (fun k => { k with running := none, idleFrom := x.2.now }) x.2)

/-- Without a deadbolt the running command completes. -/
theorem exec_keyCmdComplete {s : State} {r : KeyRun} (hr : s.key.running = some r) (hb : s.host.bolts = [])
    (worn : List (Fin 256)) (ok : Bool) :
    exec (.keyCmdComplete ⟨worn, ok⟩) s = .next (keyCompleted r (keyFinished r worn ok s)) := by
  have hex : exec (.keyCmdComplete ⟨worn, ok⟩) s = execKeyCmdComplete ⟨worn, ok⟩ s := rfl
  simp only [hex, execKeyCmdComplete, hr, hb]
  rfl

/-- A completed key command leaves the time and the commands that wait. -/
theorem keyCompleted_frame (r : KeyRun) (worn : List (Fin 256)) (ok : Bool) (s : State) :
    Frame [.free, .events, .board, .key, .plk, .wear] s (keyCompleted r (keyFinished r worn ok s)) :=
  ((((flashWear_only r worn s).mono (by simp)).comp ((finishKey_only r _ _).mono (by simp))).comp
    ((modKey_only _ _).mono (by simp))).comp ((postKey_only _ _ _ _).mono (by simp))

/-- On flash that takes its work, and that is not worn, a command has its own effect. -/
theorem keyFinished_of_sound (r : KeyRun) (s : State) :
    keyFinished r [] true s = finishKey r true (flashWear r [] s).2 := by
  rw [keyFinished, flashWear_of_sound, Bool.and_self]

/-- Each command that runs completes with its own result and its own effect. -/
theorem keyCommandsComplete : Claim.KeyCommandsComplete := by
  intro s worn ok r hr hb
  have hkey (ws : List (Fin 256)) : (flashWear r ws s).2.key = s.key := flashWear_only r ws s .key (by simp)
  have hplk : (flashWear r worn s).2.plk = s.plk := flashWear_only r worn s .plk (by simp)
  have hframe := keyCompleted_frame r worn ok s
  obtain ⟨hseq, hpages⟩ := finishKey_pageWork r (ok && (flashWear r worn s).1) (flashWear r worn s).2
  rw [hkey] at hseq hpages
  refine ⟨_, exec_keyCmdComplete hr hb worn ok, rfl, rfl, ?_, hseq, hframe .queue (by simp), hframe.now_eq (by simp), hpages,
    ?_, ?_, ?_, ?_, fun hop hf => ⟨fun g hg => ?_, fun e he => ?_⟩, ?_, ?_, fun hop => ?_, fun hop hl => ?_, fun hop => ?_,
    fun hop n ha => ?_, fun hop n ha => ?_⟩
  · exact (BitVec.ofNat_toNat _ _).trans (BitVec.setWidth_eq _)
  · rintro hop rfl rfl
    obtain ⟨hcode, herased⟩ := doErase_erased (r := r) (s := (flashWear r [] s).2)
    rw [keyFinished_of_sound, finishKey_erase _ _ hop]
    exact ⟨congrArg (BitVec.ofNat 8) hcode, herased⟩
  · rintro hop rfl
    rw [keyFinished, Bool.false_and, finishKey_erase _ _ hop]
    exact congrArg (BitVec.ofNat 8) doErase_failed
  · rintro hop herased rfl rfl
    obtain ⟨hcode, hver, hpage⟩ := doProgram_erased (r := r) (s := (flashWear r [] s).2) (by rw [hkey]; exact herased)
    rw [hkey] at hpage
    rw [keyFinished_of_sound, finishKey_program _ _ hop]
    refine ⟨congrArg (BitVec.ofNat 8) hcode, hver, fun hp hbuf j hj => ?_⟩
    have hread := doProgram_reads hp hbuf hj
    rw [← hpage] at hread
    exact hread
  · rintro hop hwritten
    rw [keyFinished, finishKey_program _ _ hop, doProgram_written _ (by rw [hkey]; exact hwritten)]
    exact ⟨rfl, congrArg (·.flash) (hkey worn)⟩
  · rw [keyFinished, finishKey_verify _ _ hop, doVerify_of_ok hf (by rw [hkey]; exact hg)]
    exact ⟨rfl, setVerified_verified _ _ _⟩
  · rw [keyFinished, finishKey_verify _ _ hop, doVerify_of_error hf (by rw [hkey]; exact he)]
    exact ⟨rfl, rfl, rfl⟩
  · rintro hop hwritten
    rw [keyFinished, finishKey_commit _ _ hop, doCommit_written _ (by rw [hkey]; exact hwritten)]
    exact ⟨rfl, congrArg (·.flash) (hkey worn)⟩
  · rintro hop herased rfl rfl
    obtain ⟨hcode, hpage⟩ := doCommit_erased (r := r) (s := (flashWear r [] s).2) (by rw [hkey]; exact herased)
    rw [nextDescriptor, hkey] at hpage
    rw [keyFinished_of_sound, finishKey_commit _ _ hop]
    exact ⟨congrArg (BitVec.ofNat 8) hcode, hpage⟩
  · obtain ⟨-, -, hbuf⟩ := doSafeauth_key r (flashWear r worn s).2
    rw [keyFinished, finishKey_safeauth _ _ hop]
    exact hbuf
  · rw [keyFinished, finishKey_safeauth _ _ hop]
    exact congrArg (BitVec.ofNat 8) (doSafeauth_locked (by rw [hplk]; exact hl))
  · obtain ⟨hcode, hroll, hlatched⟩ := finishKey_advance (ok && (flashWear r worn s).1) (flashWear r worn s).2 hop
    rw [hkey] at hroll
    exact ⟨hroll, congrArg (BitVec.ofNat 8) hcode, latched_of_events rfl hlatched⟩
  · obtain ⟨hcode, hslot⟩ := finishKey_progslot (ok && (flashWear r worn s).1) (flashWear r worn s).2 hop ha
    exact ⟨hslot, congrArg (BitVec.ofNat 8) hcode⟩
  · obtain ⟨hcode, hslot⟩ := finishKey_revoke (ok && (flashWear r worn s).1) (flashWear r worn s).2 hop ha
    exact ⟨hslot, congrArg (BitVec.ofNat 8) hcode⟩

/-- Settles O19: an accepted command is one state with the command noted, from which each OP starts; and a completion is the
work of one OP on the page that was noted, followed by its result. -/
theorem keyCommandsRunAndComplete : Obligations.KeyCommandsRunAndComplete := ⟨keyCommandsRun, keyCommandsComplete⟩

end Sys2Proof.Machine
end

section
/-! PROOFS. Selection and correction of time domains (O45; R278 to R281, R285; log entries 4 and 41). -/

namespace Sys2Proof.Machine

/-! ### The selection beside the domains (R281, R285) -/

/-- The time block without the triggers of the contexts. -/
def trigless (x : TimeState) : TimeState := { x with nextTrig := Vector.replicate 8 none }

/-- The time block without the selection, its residual, and the triggers that follow the timeline. -/
def selectionless (x : TimeState) : TimeState := { trigless x with sel := 0, resid := 0, residAt := 0, selHistory := [] }

section
variable {x y : TimeState}

/-- The selected domain is no trigger. -/
theorem sel_of_trigless (h : trigless x = trigless y) : x.sel = y.sel := by
  have hsel := congrArg TimeState.sel h
  exact hsel

/-- Nor is anything beside the selection. -/
theorem selectionless_of_trigless (h : trigless x = trigless y) : selectionless x = selectionless y := by
  have hrest := congrArg (fun z : TimeState => { z with sel := 0, resid := 0, residAt := 0, selHistory := [] }) h
  exact hrest

/-- The domains are no selection. -/
theorem dom_of_selectionless (h : selectionless x = selectionless y) : x.dom = y.dom := by
  have hdom := congrArg TimeState.dom h
  exact hdom

end

/-- A raised event leaves the time block. -/
theorem raise_time (r : EvReg) (k : Nat) (s : State) : (raise r k s).time = s.time := raise_only r k s .timebase (by simp)

/-- A step of the timeline moves the triggers alone. -/
theorem realign_trigless (s : State) : trigless (realign s).time = trigless s.time := by
  unfold realign
  dsimp only
  rw [raise_time]
  refine (foldS_keeps (fun t => trigless t.time) lanes _ _ fun l t => ?_).trans
    (foldS_keeps (fun t => trigless t.time) (idx 8) _ s fun c t => ?_)
  · cases l <;> rfl
  · split <;> rfl

/-- A residual that goes to 0 leaves the selected domain. -/
theorem zeroResid_sel (s : State) : (zeroResid s).time.sel = s.time.sel := by
  unfold zeroResid
  split
  · rfl
  · exact (sel_of_trigless (realign_trigless _)).trans rfl

/-- The residual is part of the selection. -/
theorem zeroResid_selectionless (s : State) : selectionless (zeroResid s).time = selectionless s.time := by
  unfold zeroResid
  split
  · rfl
  · exact (selectionless_of_trigless (realign_trigless _)).trans rfl

/-- What a change of the selection leaves: the domains and their settings, what is latched, the time and the mode. -/
structure Selects (s t : State) : Prop where
  frame : Frame [.free, .events, .board, .laneA, .laneB, .timebase, .plk] s t
  events : EventsKept s t
  time : selectionless t.time = selectionless s.time

namespace Selects

variable {s t u : State}

/-- Nothing changes. -/
theorem refl (s : State) : Selects s s := ⟨.refl _ _, fun _ _ h => h, rfl⟩

/-- One change after another. -/
theorem trans (h : Selects s t) (h' : Selects t u) : Selects s u :=
  ⟨h.frame.comp h'.frame, h.events.trans h'.events, h'.time.trans h.time⟩

/-- The domains stay. -/
theorem domOf_eq (h : Selects s t) (k : Fin 2) : Claim.domOf k t = Claim.domOf k s :=
  congrArg (·[k]) (dom_of_selectionless h.time)

/-- Time does not pass. -/
theorem now_eq (h : Selects s t) : t.now = s.now := h.frame.now_eq (by simp)

/-- A raised event. -/
theorem raise (r : EvReg) (k : Nat) (hk : k < 32) (s : State) : Selects s (Machine.raise r k s) :=
  ⟨(raise_only r k s).mono (by simp), raise_eventsKept r k hk s, congrArg selectionless (raise_time r k s)⟩

/-- A new residual. -/
theorem setResid (k : Fin 2) (r : Int) (s : State) : Selects s (Machine.setResid k r s) :=
  ⟨(setResid_only k r s).mono (by simp), fun _ _ h => h, rfl⟩

/-- A step of the timeline. -/
theorem realign (s : State) : Selects s (Machine.realign s) :=
  ⟨(realign_only s).mono (by simp), realign_eventsKept s, selectionless_of_trigless (realign_trigless s)⟩

/-- A residual that goes to 0. -/
theorem zeroResid (s : State) : Selects s (Machine.zeroResid s) :=
  ⟨(zeroResid_only s).mono (by simp), zeroResid_eventsKept s, zeroResid_selectionless s⟩

/-- The check of the proof interval. -/
theorem proofCheck (s : State) : Selects s (Machine.proofCheck s) :=
  ⟨(proofCheck_only s).mono (by simp), (proofCheck_only s).eventsKept (by simp),
    congrArg selectionless (proofCheck_only s .timebase (by simp))⟩

end Selects

/-- A domain that was not selected is selected, with an event. -/
theorem selectDom_selected {k : Fin 2} {s : State} (h : s.time.sel ≠ k) :
    Selects s (selectDom k s) ∧ (selectDom k s).time.sel = k ∧ Latched .time 0 (selectDom k s) := by
  have hset : Selects s (raise .time 0 (setResid k (timelineNow s - domNow k s) s)) :=
    (Selects.setResid _ _ s).trans (.raise .time 0 (by omega) _)
  have hsel : (raise .time 0 (setResid k (timelineNow s - domNow k s) s)).time.sel = k :=
    congrArg (·.sel) (raise_time _ _ _)
  have hlatched := latched_raise .time 0 (setResid k (timelineNow s - domNow k s) s) (by omega)
  simp only [selectDom, if_neg h]
  split
  · exact ⟨hset.trans (.zeroResid _), (zeroResid_sel _).trans hsel, zeroResid_eventsKept _ _ _ hlatched⟩
  · exact ⟨hset, hsel, hlatched⟩

/-- The selection of a domain. -/
theorem selectDom_selects (k : Fin 2) (s : State) : Selects s (selectDom k s) := by
  by_cases h : s.time.sel = k
  · rw [selectDom, if_pos h]
    exact .refl s
  · exact (selectDom_selected h).1

/-- The selection that is judged again. -/
theorem reselect_selects (s : State) : Selects s (reselect s) := by
  unfold reselect
  split
  · exact selectDom_selects 0 s
  · exact selectDom_selects 1 s
  · dsimp only
    split
    · exact selectDom_selects _ s
    · exact .refl s

/-- Without FORCE it stays where the selected domain is locked, and where the other one is not. -/
theorem reselect_of_settled {s : State} (hf : s.time.force = 0)
    (h : (Claim.domOf s.time.sel s).state = 3 ∨ (Claim.domOf (otherDom s.time.sel) s).state ≠ 3) : reselect s = s := by
  have hstate (k : Fin 2) : domState k s = 3 ↔ (Claim.domOf k s).state = 3 :=
    ⟨fun e => Fin.ext e, fun e => congrArg Fin.val e⟩
  have hstay : ¬ (decide (domState s.time.sel s ≠ 3) && domState (otherDom s.time.sel) s == 3) = true := by
    simp only [Bool.and_eq_true, decide_eq_true_eq, beq_iff_eq, hstate, ne_eq, not_and]
    exact fun hn => h.resolve_left hn
  simp only [reselect, hf]
  exact if_neg hstay

/-! ### One domain changed -/

/-- The domain that is changed. -/
theorem domOf_modDom (k : Fin 2) (f : TimeDomain → TimeDomain) (s : State) :
    Claim.domOf k (modDom k f s) = f (Claim.domOf k s) := modAt_getElem_self s.time.dom k f

/-- A domain that acquires a source. -/
theorem domOf_acquire (k : Fin 2) (s : State) :
    Claim.domOf k (acquire k s) = { Claim.domOf k s with state := 2, good := 0, bad := 0 } :=
  ((reselect_selects _).domOf_eq k).trans (domOf_modDom k _ s)

/-- An acquisition clears no event. -/
theorem acquire_eventsKept (k : Fin 2) (s : State) : EventsKept s (acquire k s) :=
  ((modDom_only k _ s).eventsKept (by simp)).trans (reselect_selects _).events

/-- A domain that locks, and the event that tells of it. -/
theorem lockDom_effect (k : Fin 2) (s : State) :
    Claim.domOf k (lockDom k s) = { Claim.domOf k s with state := 3, bad := 0, lockedAt := s.now } ∧
    EventsKept s (lockDom k s) ∧ Latched .time 3 (lockDom k s) := by
  have hsel (t : State) : Selects (raise .time 3 t) (proofCheck (reselect (raise .time 3 t))) :=
    (reselect_selects _).trans (.proofCheck _)
  have hmod := modDom_only k (fun d => { d with state := 3, bad := 0, lockedAt := s.now }) s
  exact ⟨(((Selects.raise .time 3 (by omega) _).trans (hsel _)).domOf_eq k).trans (domOf_modDom k _ s),
    (hmod.eventsKept (by simp)).trans ((raise_eventsKept _ _ (by omega) _).trans (hsel _).events),
    (hsel _).events _ _ (latched_raise _ _ _ (by omega))⟩

/-- A domain that follows a source and loses it holds over: it keeps its anchor (R279). -/
theorem holdoverDom_effect {k : Fin 2} {s : State}
    (h : (Claim.domOf k s).state = 2 ∨ (Claim.domOf k s).state = 3) :
    Claim.domOf k (holdoverDom k s) = { Claim.domOf k s with state := 4, good := 0, bad := 0, deferred := false } ∧
    (holdoverDom k s).now = s.now ∧ Latched .time 2 (holdoverDom k s) := by
  have hstate : domState k s = 2 ∨ domState k s = 3 := h.imp (congrArg Fin.val) (congrArg Fin.val)
  rw [holdoverDom, if_pos (by simpa using hstate)]
  have hsel (t : State) : Selects t (reselect (raise .time 2 t)) :=
    (Selects.raise .time 2 (by omega) t).trans (reselect_selects _)
  exact ⟨((hsel _).domOf_eq k).trans (domOf_modDom k _ s), (hsel _).now_eq,
    (reselect_selects _).events _ _ (latched_raise _ _ _ (by omega))⟩

/-! ### The servo (R279, R280) -/

/-- The servo's RATE lies within ±200 ppm. -/
theorem freeRate_natAbs_le (s : State) : (freeRate s).1.natAbs ≤ rateLimit := by
  have hlt : Config.freeNat s.fresh % (2 * rateLimit + 1) < 2 * rateLimit + 1 := Nat.mod_lt _ (by omega)
  have hrate : (freeRate s).1 = (Config.freeNat s.fresh % (2 * rateLimit + 1) : Nat) - (rateLimit : Int) := rfl
  rw [hrate]
  omega

/-- The measured offset is larger than STEP_THR. -/
def offsetLarge (off : Int) (s : State) : Bool := decide (s.time.stepThr < off.natAbs)

/-- A correction by the servo's rate. -/
def slewed (k : Fin 2) (off : Int) (s : State) : State :=
  modDom k (fun x => { x with deferred := offsetLarge off s })
    (raiseIf (offsetLarge off s && !(Claim.domOf k s).deferred) .time 6 (reanchor k 0 (freeRate s).1 (freeRate s).2))

/-- A correction by a step of the domain; one of the selected domain is a step of the timeline. -/
def stepped (k : Fin 2) (off : Int) (s : State) : State :=
  when (decide (s.time.sel = k)) realign (raise .time 4 (modDom k (fun x => { x with deferred := false })
    (reanchor k (-off) (Claim.domOf k s).anchor.rate s)))

/-- An offset is stepped where it is large and a step is allowed; otherwise the servo slews. -/
theorem correct_eq (k : Fin 2) (off : Int) (s : State) : correct k off s =
    if offsetLarge off s && (decide (s.time.sel ≠ k) || stepOk s) then stepped k off s else slewed k off s := by
  simp only [correct, stepped, when, decide_eq_true_eq]
  rfl

/-- What a slewed domain is: anchored at the present raw value, where its time does not jump. -/
theorem domOf_slewed (k : Fin 2) (off : Int) (s : State) : Claim.domOf k (slewed k off s) = { Claim.domOf k s with
    history := (s.raw, (Claim.domOf k s).anchor) :: prune s.raw (Claim.domOf k s).history,
    anchor := ⟨s.raw, (Claim.domOf k s).anchor.at s.raw, (freeRate s).1⟩, deferred := offsetLarge off s } := by
  have hraise (c : Bool) (t : State) : Claim.domOf k (raiseIf c .time 6 t) = Claim.domOf k t :=
    congrArg (fun x : TimeState => x.dom[k]) (raiseIf_only c .time 6 t .timebase (by simp))
  rw [slewed, domOf_modDom, hraise, reanchor, domOf_modDom]
  simp only [Int.zero_mul, Int.add_zero]
  rfl

/-- What the judgement of an offset reads of a domain: no correction reaches it. -/
def judged (d : TimeDomain) : TimeDomain := { d with anchor := {}, history := [], deferred := false }

/-- A correction leaves the state of its domain and the counts of its offsets. -/
theorem correct_judged (k : Fin 2) (off : Int) (s : State) :
    judged (Claim.domOf k (correct k off s)) = judged (Claim.domOf k s) := by
  have hstepped : Claim.domOf k (stepped k off s) = Claim.domOf k (modDom k (fun x => { x with deferred := false })
      (reanchor k (-off) (Claim.domOf k s).anchor.rate s)) := by
    rw [stepped, when]
    split
    · exact ((Selects.raise .time 4 (by omega) _).trans (.realign _)).domOf_eq k
    · exact (Selects.raise .time 4 (by omega) _).domOf_eq k
  rw [correct_eq]
  split
  · rw [hstepped, domOf_modDom, reanchor, domOf_modDom]
    rfl
  · rw [domOf_slewed]
    rfl

/-- The offset is counted (R279). -/
def offsetCounted (k : Fin 2) (off : Int) (s : State) : State :=
  modDom k (fun d => { d with
    good := if off.natAbs ≤ 1000 then d.good + 1 else 0,
    bad := if 10000 < off.natAbs then d.bad + 1 else 0 }) s

/-- The counted offset decides. -/
theorem judge_eq (k : Fin 2) (off : Int) (s : State) : judge k off s =
    if (Claim.domOf k (offsetCounted k off s)).state = 2 && decide (4 ≤ (Claim.domOf k (offsetCounted k off s)).good) then
      lockDom k (offsetCounted k off s)
    else if (Claim.domOf k (offsetCounted k off s)).state = 3 && decide (2 ≤ (Claim.domOf k (offsetCounted k off s)).bad) then
      acquire k (offsetCounted k off s)
    else offsetCounted k off s := rfl

section
variable {k : Fin 2} {off : Int} {s : State}

/-- The fourth offset within 1 µs locks. -/
theorem judge_locks (h2 : (Claim.domOf k s).state = 2) (hg : (Claim.domOf k s).good = 3) (hoff : off.natAbs ≤ 1000) :
    judge k off s = lockDom k (offsetCounted k off s) := by
  have hdom := domOf_modDom k (fun d => { d with
    good := if off.natAbs ≤ 1000 then d.good + 1 else 0, bad := if 10000 < off.natAbs then d.bad + 1 else 0 }) s
  rw [judge_eq, offsetCounted, hdom, if_pos]
  simp [h2, hg, hoff]

/-- The second one beyond 10 µs loses the lock. -/
theorem judge_unlocks (h3 : (Claim.domOf k s).state = 3) (hb : (Claim.domOf k s).bad = 1) (hoff : 10000 < off.natAbs) :
    judge k off s = acquire k (offsetCounted k off s) := by
  have hdom := domOf_modDom k (fun d => { d with
    good := if off.natAbs ≤ 1000 then d.good + 1 else 0, bad := if 10000 < off.natAbs then d.bad + 1 else 0 }) s
  rw [judge_eq, offsetCounted, hdom, if_neg (by simp [h3]), if_pos]
  simp [h3, hb, hoff]

/-- A domain that has counted none before goes on acquiring. -/
theorem judge_acquires (h2 : (Claim.domOf k s).state = 2) (hg : (Claim.domOf k s).good = 0) :
    judge k off s = offsetCounted k off s := by
  have hdom := domOf_modDom k (fun d => { d with
    good := if off.natAbs ≤ 1000 then d.good + 1 else 0, bad := if 10000 < off.natAbs then d.bad + 1 else 0 }) s
  have hfew : ¬ 4 ≤ (if off.natAbs ≤ 1000 then (Claim.domOf k s).good + 1 else 0) := by
    split <;> omega
  rw [judge_eq, offsetCounted, hdom, if_neg (by simp [hfew]), if_neg (by simp [h2])]

/-- Whatever is judged, the anchor and a step that is held stay, and no event is cleared. -/
theorem judge_keeps (k : Fin 2) (off : Int) (s : State) :
    (Claim.domOf k (judge k off s)).anchor = (Claim.domOf k s).anchor ∧
    (Claim.domOf k (judge k off s)).deferred = (Claim.domOf k s).deferred ∧ EventsKept s (judge k off s) := by
  have hdom : Claim.domOf k (offsetCounted k off s) = _ := domOf_modDom k _ s
  have hev : EventsKept s (offsetCounted k off s) := (modDom_only k _ s).eventsKept (by simp)
  rw [judge_eq]
  split
  · obtain ⟨hlock, hkept, -⟩ := lockDom_effect k (offsetCounted k off s)
    rw [hlock, hdom]
    exact ⟨rfl, rfl, hev.trans hkept⟩
  · split
    · rw [domOf_acquire, hdom]
      exact ⟨rfl, rfl, hev.trans (acquire_eventsKept _ _)⟩
    · rw [hdom]
      exact ⟨rfl, rfl, hev⟩

end

end Sys2Proof.Machine
end

section
/-! PROOFS. Time domains acquire, lock and hold over (O45; R274, R278 to R282; log entries 3 and 41). -/

namespace Sys2Proof.Machine

/-! ### Sync messages (R274, R279, R280) -/

/-- The offset is noted. -/
def measured (k : Fin 2) (off : Int) (s : State) : State := modDom k (fun d => { d with offset := off, lastSync := s.raw }) s

/-- An offset is noted, corrected and judged. -/
theorem servo_eq (k : Fin 2) (off : Int) (s : State) : servo k off s = judge k off (correct k off (measured k off s)) := rfl

/-- The domain with its offset noted. -/
theorem domOf_measured (k : Fin 2) (off : Int) (s : State) :
    Claim.domOf k (measured k off s) = { Claim.domOf k s with offset := off, lastSync := s.raw } := domOf_modDom k _ s

section
variable {k p : Fin 2} {s : State}

/-- A Sync reaches a domain of PTP that follows its master. -/
theorem ptpSyncRx_of_following (hl : linkUp p s = true) (hsrc : (Claim.domOf k s).source = 1) (hn : s.net.mode = 0)
    (h : (Claim.domOf k s).state = 2 ∨ (Claim.domOf k s).state = 3) (off : Int) : ptpSyncRx k p off s = servo k off s := by
  refine if_neg ?_
  simp only [Claim.domOf] at hsrc h
  simpa [-Fin.getElem_fin, hl, hsrc, hn, or_iff_not_imp_left] using h

/-- It does not reach one that follows none. -/
theorem ptpSyncRx_of_idle (h : (Claim.domOf k s).state = 0 ∨ (Claim.domOf k s).state = 1 ∨ (Claim.domOf k s).state = 4)
    (off : Int) : ptpSyncRx k p off s = s := by
  refine if_pos ?_
  simp only [Claim.domOf] at h
  obtain h | h | h := h
  all_goals simp [-Fin.getElem_fin, h]

/-- The fourth offset within 1 µs, corrected by the servo, locks the domain: its time does not jump, and its rate keeps the
limit. -/
theorem servo_locks {off : Int} (h2 : (Claim.domOf k s).state = 2) (hg : (Claim.domOf k s).good = 3)
    (hoff : off.natAbs ≤ 1000) (hthr : off.natAbs ≤ s.time.stepThr) :
    (Claim.domOf k (servo k off s)).state = 3 ∧ Latched .time 3 (servo k off s) ∧
    (Claim.domOf k (servo k off s)).offset = off ∧ (Claim.domOf k (servo k off s)).anchor.raw = s.raw ∧
    (Claim.domOf k (servo k off s)).anchor.t = (Claim.domOf k s).anchor.at s.raw ∧
    (Claim.domOf k (servo k off s)).anchor.rate.natAbs ≤ rateLimit := by
  have hsmall : offsetLarge off (measured k off s) = false := decide_eq_false (Nat.not_lt.mpr hthr)
  have hslew : correct k off (measured k off s) = slewed k off (measured k off s) := by
    rw [correct_eq, hsmall]
    rfl
  have hdom := domOf_slewed k off (measured k off s)
  rw [domOf_measured] at hdom
  have hjudge : servo k off s = lockDom k (offsetCounted k off (slewed k off (measured k off s))) := by
    rw [servo_eq, hslew]
    exact judge_locks (by rw [hdom]; exact h2) (by rw [hdom]; exact hg) hoff
  obtain ⟨hlock, -, hlatched⟩ := lockDom_effect k (offsetCounted k off (slewed k off (measured k off s)))
  rw [offsetCounted, domOf_modDom, hdom] at hlock
  rw [hjudge]
  rw [offsetCounted] at hlatched ⊢
  rw [hlock]
  exact ⟨rfl, hlatched, rfl, rfl, rfl, freeRate_natAbs_le _⟩

/-- The second offset beyond 10 µs ends the lock. -/
theorem servo_unlocks {off : Int} (h3 : (Claim.domOf k s).state = 3) (hb : (Claim.domOf k s).bad = 1)
    (hoff : 10000 < off.natAbs) : (Claim.domOf k (servo k off s)).state = 2 := by
  have hkept := correct_judged k off (measured k off s)
  rw [domOf_measured] at hkept
  have hstate := (congrArg TimeDomain.state hkept).trans h3
  have hbad := (congrArg TimeDomain.bad hkept).trans hb
  rw [servo_eq, judge_unlocks hstate hbad hoff, domOf_acquire]

/-- While a bridge may switch a large offset of the selected domain is not stepped: the step is held, once with an event. -/
theorem servo_defers {off : Int} (hthr : s.time.stepThr < off.natAbs) (hsel : s.time.sel = k) (h4 : 4 ≤ s.md)
    (h10 : s.md ≤ 10) (hd : (Claim.domOf k s).deferred = false) :
    Latched .time 6 (servo k off s) ∧ (Claim.domOf k (servo k off s)).deferred = true ∧
    (Claim.domOf k (servo k off s)).anchor.t = (Claim.domOf k s).anchor.at s.raw := by
  have hlarge : offsetLarge off (measured k off s) = true := decide_eq_true hthr
  have hselected : (measured k off s).time.sel = k := hsel
  have hbar : stepOk (measured k off s) = false := by
    have hmd : (measured k off s).md = s.md := rfl
    rw [stepOk, hmd]
    simp only [Bool.or_eq_false_iff, decide_eq_false_iff_not, beq_eq_false_iff_ne]
    omega
  have hslew : correct k off (measured k off s) = slewed k off (measured k off s) := by
    rw [correct_eq, hlarge, hbar, hselected]
    exact if_neg (by simp)
  have hdom := domOf_slewed k off (measured k off s)
  have hdeferred : (Claim.domOf k (measured k off s)).deferred = false := by rw [domOf_measured]; exact hd
  have hlatched : Latched .time 6 (slewed k off (measured k off s)) := by
    rw [slewed, hlarge, hdeferred]
    exact (modDom_only _ _ _).eventsKept (by simp) _ _ (latched_raise _ _ _ (by omega))
  rw [domOf_measured, hlarge] at hdom
  obtain ⟨hanchor, hheld, hkept⟩ := judge_keeps k off (slewed k off (measured k off s))
  rw [hdom] at hanchor hheld
  rw [servo_eq, hslew]
  exact ⟨hkept _ _ hlatched, hheld, by rw [hanchor]; rfl⟩

/-! ### Announce messages (R274) -/

/-- The master whose data set is taken over. -/
theorem domOf_takeMaster (k p : Fin 2) (a : Announce) (s : State) : Claim.domOf k (takeMaster k p a s) =
    { Claim.domOf k s with
      master := some a, announceAt := s.now, port := p, gmId := a.gmId, utcOffset := a.utcOffset, utcValid := a.utcValid } :=
  domOf_modDom k _ s

/-- The first Announce qualifies its master. -/
theorem ptpAnnounceRx_first (hl : linkUp p s = true) (hsrc : (Claim.domOf k s).source = 1)
    (hm : (Claim.domOf k s).master = none) (a : Announce) : ptpAnnounceRx k p a s = acquire k (takeMaster k p a s) := by
  simp only [Claim.domOf] at hsrc hm
  have hgo : ¬ (!linkUp p s || decide (s.time.dom[k].source ≠ 1)) = true := by simp [-Fin.getElem_fin, hl, hsrc]
  simp only [ptpAnnounceRx, if_neg hgo, hm]

/-- Another master's Announce counts where it is the better one. -/
theorem ptpAnnounceRx_other (hl : linkUp p s = true) (hsrc : (Claim.domOf k s).source = 1) {m a : Announce}
    (hm : (Claim.domOf k s).master = some m) (hfol : (Claim.domOf k s).state = 2 ∨ (Claim.domOf k s).state = 3)
    (hid : m.gmId ≠ a.gmId) : ptpAnnounceRx k p a s =
      if lexLt (announceKey a) (announceKey m) then acquire k (raise .time 1 (takeMaster k p a s)) else s := by
  simp only [Claim.domOf] at hsrc hm hfol
  have hgo : ¬ (!linkUp p s || decide (s.time.dom[k].source ≠ 1)) = true := by simp [-Fin.getElem_fin, hl, hsrc]
  have hhold : decide (s.time.dom[k].state = 4) = false := by
    obtain h | h := hfol
    · rw [h]; rfl
    · rw [h]; rfl
  simp only [ptpAnnounceRx, if_neg hgo, hm, if_neg hid, hhold, Bool.false_or]

/-- The announce receipt timeout of a domain that follows its master. -/
theorem announceTimeout_of_following (hsrc : (Claim.domOf k s).source = 1) {m : Announce}
    (hm : (Claim.domOf k s).master = some m) (hfol : (Claim.domOf k s).state = 2 ∨ (Claim.domOf k s).state = 3) :
    announceTimeout k s =
      holdoverDom k (elapseTo ((Claim.domOf k s).announceAt + 3 * announceTicks m.logInterval) s) := by
  simp only [Claim.domOf] at hsrc hm hfol
  have hgo : ¬ (decide (s.time.dom[k].source ≠ 1) ||
      (decide (s.time.dom[k].state ≠ 2) && decide (s.time.dom[k].state ≠ 3))) = true := by
    simpa [-Fin.getElem_fin, hsrc, or_iff_not_imp_left] using hfol
  simp only [announceTimeout, hm, if_neg hgo]
  rfl

/-- One that follows none has no timeout. -/
theorem announceTimeout_of_idle (h2 : (Claim.domOf k s).state ≠ 2) (h3 : (Claim.domOf k s).state ≠ 3) :
    announceTimeout k s = s := by
  simp only [Claim.domOf] at h2 h3
  have hstop : (decide (s.time.dom[k].source ≠ 1) ||
      (decide (s.time.dom[k].state ≠ 2) && decide (s.time.dom[k].state ≠ 3))) = true := by
    simp [-Fin.getElem_fin, h2, h3]
  unfold announceTimeout
  dsimp only
  split
  · rfl
  · exact if_pos hstop

end

/-! ### The revert to D0 (R281) -/

/-- D0, locked and without FORCE or NOREVERT, is selected when REVERT_S is over. -/
theorem domainRevert_of_locked {s : State} (hf : s.time.force = 0) (hr : s.time.noRevert = false) (hsel : s.time.sel = 1)
    (h3 : (Claim.domOf 0 s).state = 3) :
    domainRevert s = selectDom 0 (elapseTo ((Claim.domOf 0 s).lockedAt + secs s.time.revertS) s) :=
  if_pos (by
    simp only [Claim.domOf] at h3
    simp [-Fin.getElem_fin, hf, hr, hsel, h3])

/-- While D0 is selected there is nothing to revert. -/
theorem domainRevert_of_selected {s : State} (hsel : s.time.sel = 0) : domainRevert s = s := if_neg (by simp [hsel])

/-! ### PPS (R282) -/

/-- The time block without the domains and the selection. -/
def domainless (x : TimeState) : TimeState := { selectionless x with dom := Vector.replicate 2 {} }

/-- What leaves all but the selection leaves what is neither domain nor selection. -/
theorem Selects.domainless_eq {s t : State} (h : Selects s t) : domainless t.time = domainless s.time := by
  have hrest := congrArg (fun z : TimeState => { z with dom := Vector.replicate 2 {} }) h.time
  exact hrest

/-- A change of a domain leaves the rest of the time block. -/
theorem modDom_domainless (k : Fin 2) (f : TimeDomain → TimeDomain) (s : State) :
    domainless (modDom k f s).time = domainless s.time := rfl

/-- An acquisition is one of a domain and of the selection. -/
theorem acquire_domainless (k : Fin 2) (s : State) : domainless (acquire k s).time = domainless s.time :=
  (reselect_selects _).domainless_eq.trans (modDom_domainless k _ s)

/-- So is a lock. -/
theorem lockDom_domainless (k : Fin 2) (s : State) : domainless (lockDom k s).time = domainless s.time :=
  (((Selects.raise .time 3 (by omega) _).trans (reselect_selects _)).trans (.proofCheck _)).domainless_eq.trans
    (modDom_domainless k _ s)

/-- So is what the servo does. -/
theorem servo_domainless (k : Fin 2) (off : Int) (s : State) : domainless (servo k off s).time = domainless s.time := by
  have hjudge (t : State) : domainless (judge k off t).time = domainless t.time := by
    rw [judge_eq]
    split
    · exact lockDom_domainless k _
    · split
      · exact acquire_domainless k _
      · rfl
  have hcorrect (t : State) : domainless (correct k off t).time = domainless t.time := by
    rw [correct_eq]
    split
    · rw [stepped, when]
      split
      · exact ((Selects.raise .time 4 (by omega) _).trans (.realign _)).domainless_eq
      · exact (Selects.raise .time 4 (by omega) _).domainless_eq
    · have hraise (c : Bool) (u : State) : (raiseIf c .time 6 u).time = u.time := raiseIf_only c .time 6 u .timebase (by simp)
      rw [slewed, modDom_domainless, hraise]
      rfl
  rw [servo_eq, hjudge, hcorrect]
  rfl

/-- The pulse is noted: its time, and the second that the next one marks. -/
def pulseNoted (s : State) : State :=
  modTime (fun x => { x with ppsSec := x.ppsSec + 1#32 })
    (takeFree (modTime (fun t => { t with ppsAt := s.now }) (modClock (fun c => { c with pps := s.power.powered }) s))).2

/-- A domain of PPS_IN that follows nothing yet, or holds over, acquires the pulse. -/
def pulseTaken (s : State) : State :=
  if (Claim.domOf 1 s).state = 1 || (Claim.domOf 1 s).state = 4 then acquire 1 (pulseNoted s) else pulseNoted s

/-- A pulse of PPS_IN measures one offset of D1. -/
theorem ppsEdge_eq {s : State} (h : (Claim.domOf 1 s).source = 2) : ∃ off, ppsEdge s = servo 1 off (pulseTaken s) :=
  ⟨_, if_neg (not_not.mpr h)⟩

/-- The pulse that is taken counts the second, and D1 acquires it out of Free-running. -/
theorem pulseTaken_effect (s : State) :
    domainless (pulseTaken s).time = domainless { s.time with ppsAt := s.now, ppsSec := s.time.ppsSec + 1 } ∧
    ((Claim.domOf 1 s).state = 1 → (Claim.domOf 1 (pulseTaken s)).state = 2 ∧ (Claim.domOf 1 (pulseTaken s)).good = 0) := by
  refine ⟨?_, fun h => ?_⟩
  · rw [pulseTaken]
    split
    · exact acquire_domainless 1 _
    · rfl
  · rw [pulseTaken, if_pos (by rw [h]; rfl), domOf_acquire]
    exact ⟨rfl, rfl⟩

/-- A pulse counts the second, and out of Free-running D1 acquires it. -/
theorem ppsEdge_effect {s : State} (h : (Claim.domOf 1 s).source = 2) :
    (ppsEdge s).time.ppsSec = s.time.ppsSec + 1 ∧ (ppsEdge s).time.ppsAt = s.now ∧
    ((Claim.domOf 1 s).state = 1 → (Claim.domOf 1 (ppsEdge s)).state = 2) := by
  obtain ⟨off, heq⟩ := ppsEdge_eq h
  obtain ⟨hrest, htaken⟩ := pulseTaken_effect s
  have htime := (servo_domainless 1 off (pulseTaken s)).trans hrest
  rw [heq]
  refine ⟨congrArg (·.ppsSec) htime, congrArg (·.ppsAt) htime, fun h1 => ?_⟩
  obtain ⟨h2, hg⟩ := htaken h1
  have hkept := correct_judged 1 off (measured 1 off (pulseTaken s))
  rw [domOf_measured] at hkept
  have hstate := (congrArg TimeDomain.state hkept).trans h2
  rw [servo_eq, judge_acquires hstate ((congrArg TimeDomain.good hkept).trans hg), offsetCounted, domOf_modDom]
  exact hstate

/-! ### The statement -/

/-- Domains acquire, lock, hold over and are selected again. -/
theorem domainsAcquireLockAndHold : Claim.DomainsAcquireLockAndHold := by
  rintro s k p d rfl hsrc hn hl
  refine ⟨fun a hm => ?_, fun m a hm hfol hid => ⟨fun hw => ?_, fun hb => ?_⟩, fun h off => ?_,
    fun off h2 hg hoff hthr => ?_, fun off h3 hb hoff => ?_, fun off h2 hthr hsel h4 h10 hd => ?_, fun m hm hfol => ?_,
    fun h2 h3 => ?_, ?_, fun hsel => ?_, fun hpps => ?_⟩
  · refine ⟨_, congrArg Host.Outcome.next (ptpAnnounceRx_first hl hsrc hm a), ?_⟩
    rw [domOf_acquire, domOf_takeMaster]
    exact ⟨rfl, rfl, rfl⟩
  · refine congrArg Host.Outcome.next ((ptpAnnounceRx_other hl hsrc hm hfol hid).trans ?_)
    rw [hw]
    rfl
  · refine ⟨_, congrArg Host.Outcome.next ((ptpAnnounceRx_other hl hsrc hm hfol hid).trans (if_pos hb)), ?_, ?_⟩
    · exact acquire_eventsKept _ _ _ _ (latched_raise _ _ _ (by omega))
    · rw [domOf_acquire, (Selects.raise .time 1 (by omega) _).domOf_eq, domOf_takeMaster]
      exact ⟨rfl, rfl⟩
  · exact congrArg Host.Outcome.next (ptpSyncRx_of_idle h off)
  · exact ⟨_, congrArg Host.Outcome.next (ptpSyncRx_of_following hl hsrc hn (.inl h2) off), servo_locks h2 hg hoff hthr⟩
  · exact ⟨_, congrArg Host.Outcome.next (ptpSyncRx_of_following hl hsrc hn (.inr h3) off), servo_unlocks h3 hb hoff⟩
  · exact ⟨_, congrArg Host.Outcome.next (ptpSyncRx_of_following hl hsrc hn (.inl h2) off),
      servo_defers hthr hsel h4 h10 hd⟩
  · obtain ⟨hdom, hnow, hlatched⟩ := holdoverDom_effect (k := k)
      (s := elapseTo ((Claim.domOf k s).announceAt + 3 * announceTicks m.logInterval) s) hfol
    refine ⟨_, congrArg Host.Outcome.next (announceTimeout_of_following hsrc hm hfol), ?_, hlatched, ?_,
      hnow.trans (elapseTo_now_eq_max _ s)⟩
    · rw [hdom]
    · rw [hdom]
      rfl
  · exact congrArg Host.Outcome.next (announceTimeout_of_idle h2 h3)
  · rintro rfl hf hr hsel h3
    obtain ⟨hsels, hzero, hlatched⟩ := selectDom_selected (k := 0)
      (s := elapseTo ((Claim.domOf 0 s).lockedAt + secs s.time.revertS) s) (ne_of_eq_of_ne hsel (by decide))
    refine ⟨_, congrArg Host.Outcome.next (domainRevert_of_locked hf hr hsel h3), hzero, hlatched, ?_⟩
    rw [hsels.now_eq, elapseTo_now_eq_max]
    exact le_rfl
  · exact congrArg Host.Outcome.next (domainRevert_of_selected hsel)
  · obtain ⟨hsec, hat, hacq⟩ := ppsEdge_effect hpps
    exact ⟨_, rfl, hsec, hat, fun h1 _ => hacq h1⟩

end Sys2Proof.Machine
end

section
/-! PROOFS. Time registers latch and convert (O45; R98, R281 to R284, R288; log entries 3, 4 and 41). -/

namespace Sys2Proof.Machine

/-- The selector in the two lowest bits of a word. -/
theorem fld_select (v : Word) : fld v 0 2 = v.toNat % 4 := by simp [fld]

/-! ### Latching reads (R283) -/

/-- A read of a seconds register latches the rest of the same time. -/
theorem timeLatch_seconds (w : Fin 3) (s : State) : timeLatch w.castSucc s = modTime (fun x => { x with
    secHi := put' x.secHi w.val (BitVec.ofNat 16 ((secOf (timeOf w.val s)).toNat / 2 ^ 32)),
    nsec := put' x.nsec w.val (nsecOf (timeOf w.val s)) }) s :=
  if_neg (Fin.ne_of_lt w.isLt)

/-- The time that a seconds register of a domain reads. -/
theorem timeOf_domain (k : Fin 2) (s : State) : timeOf (k.val + 1) s = domNow k s :=
  match k with
  | 0 => rfl
  | 1 => rfl

/-! ### Conversions (R284) -/

/-- TIME_CVCTL without a domain is discarded. -/
theorem cvStart_discarded {v : Word} (h : v.toNat % 4 = 3) (s : State) : cvStart v s = s := if_pos ((fld_select v).trans h)

/-- With one it starts a conversion there. -/
theorem cvStart_taken {v : Word} (h : v.toNat % 4 ≠ 3) (s : State) : cvStart v s =
    modTime (fun t => { t with cvBusy := some (Fin.ofNat 3 (v.toNat % 4)), cvAt := s.now, cvDone := false }) s := by
  rw [cvStart, fld_select, if_neg h]

/-- The state in which a conversion completes: up to 1 µs after its start. -/
def cvElapsed (s : State) : State := elapseTo (s.time.cvAt + (takeFree s).1 % (us 1 + 1)) (takeFree s).2

/-- The raw value of a conversion is not kept in a state: it lies in the future or more than 64 s back. -/
def cvStale (s : State) : Bool := decide (s.raw.toNat < s.time.cvRaw.toNat ∨ s.time.cvRaw.toNat + keepTicks < s.raw.toNat)

/-- The time that a conversion of a domain, or of the timeline, reports in a state. -/
def cvTime (k : Fin 3) (s : State) : Int :=
  if k = 0 then domAt 0 s.time.cvRaw (cvStale s) s
  else if k = 1 then domAt 1 s.time.cvRaw (cvStale s) s
  else timelineAt s.time.cvRaw (cvStale s) s

/-- A conversion in progress reports its time as it completes. -/
theorem cvFinish_of_busy {k : Fin 3} {s : State} (h : s.time.cvBusy = some k) : cvFinish s = modTime (fun x => { x with
    cvBusy := none, cvDone := true, cvOld := cvStale (cvElapsed s), cvSec := secOf (cvTime k (cvElapsed s)),
    cvNsec := nsecOf (cvTime k (cvElapsed s)) }) (cvElapsed s) := by
  simp only [cvFinish, h]
  rfl

/-- Without one nothing appears. -/
theorem cvFinish_of_idle {s : State} (h : s.time.cvBusy = none) : cvFinish s = s := by
  simp only [cvFinish, h]

/-- The raw counter after a time that does not overflow it has advanced by at most that time. -/
theorem advance_raw_bounds {n : Nat} {s : State} (h : s.raw.toNat + n < 2 ^ 64) :
    s.raw.toNat ≤ (advance n s).raw.toNat ∧ (advance n s).raw.toNat ≤ s.raw.toNat + n := by
  have hraw : (advance n s).raw = if rawRuns s then s.raw + BitVec.ofNat 64 n else s.raw := rfl
  rw [hraw]
  split
  · rw [BitVec.toNat_add, BitVec.toNat_ofNat]
    omega
  · omega

/-- A conversion that has started completes within 1 µs, in the present time block. -/
theorem cvElapsed_bounds {s : State} (hat : s.time.cvAt ≤ s.now) (h : s.raw.toNat + 400 < 2 ^ 64) :
    (cvElapsed s).time = s.time ∧ s.now ≤ (cvElapsed s).now ∧ (cvElapsed s).now ≤ s.now + 400 ∧
    s.raw.toNat ≤ (cvElapsed s).raw.toNat ∧ (cvElapsed s).raw.toNat ≤ s.raw.toNat + 400 := by
  have hfree : (takeFree s).1 % (us 1 + 1) < 401 := Nat.mod_lt _ (by decide)
  have hwait : s.time.cvAt + (takeFree s).1 % (us 1 + 1) - s.now ≤ 400 := by omega
  have hnow : (cvElapsed s).now = s.now + (s.time.cvAt + (takeFree s).1 % (us 1 + 1) - s.now) := rfl
  have hraw := advance_raw_bounds (n := s.time.cvAt + (takeFree s).1 % (us 1 + 1) - s.now) (s := (takeFree s).2)
    (Nat.lt_of_le_of_lt (Nat.add_le_add_left hwait _) h)
  exact ⟨rfl, by omega, by omega, hraw.1, hraw.2.trans (Nat.add_le_add_left hwait _)⟩

/-- 64 s in raw ticks. -/
theorem keepTicks_eq : keepTicks = 25600000000 := rfl

/-- A domain without earlier anchors is converted from the present one. -/
theorem cvTime_of_domain {k : Fin 2} {s : State} (hh : (Claim.domOf k s).history = []) (hold : cvStale s = false) :
    cvTime k.castSucc s = (Claim.domOf k s).anchor.at s.time.cvRaw := by
  have hdom : domAt k s.time.cvRaw false s = (Claim.domOf k s).anchor.at s.time.cvRaw := by
    have hheld : domAt k s.time.cvRaw false s =
        (heldAt s.time.cvRaw (Claim.domOf k s).anchor (Claim.domOf k s).history).at s.time.cvRaw := rfl
    rw [hheld, hh]
    rfl
  rw [cvTime, hold, ← hdom]
  match k with
  | 0 => rfl
  | 1 => rfl

/-- A kept raw value is converted from the anchor that held there. -/
theorem conversionDone_kept {k : Fin 2} {s : State} (hb : s.time.cvBusy = some k.castSucc) (hat : s.time.cvAt ≤ s.now)
    (hpast : s.time.cvRaw.toNat ≤ s.raw.toNat) (hkept : s.raw.toNat + 400 ≤ s.time.cvRaw.toNat + 25600000000)
    (hmax : s.raw.toNat + 400 < 2 ^ 64) (hh : (Claim.domOf k s).history = []) :
    (cvFinish s).time.cvDone = true ∧ (cvFinish s).time.cvOld = false ∧ (cvFinish s).time.cvBusy = none ∧
    (cvFinish s).time.cvSec = secOf ((Claim.domOf k s).anchor.at s.time.cvRaw) ∧
    (cvFinish s).time.cvNsec = nsecOf ((Claim.domOf k s).anchor.at s.time.cvRaw) ∧ s.now ≤ (cvFinish s).now ∧
    (cvFinish s).now ≤ s.now + 400 := by
  obtain ⟨htime, hlo, hhi, hrlo, hrhi⟩ := cvElapsed_bounds hat hmax
  have hfresh : cvStale (cvElapsed s) = false := by
    rw [cvStale, htime, keepTicks_eq, decide_eq_false_iff_not]
    omega
  have hdom : Claim.domOf k (cvElapsed s) = Claim.domOf k s := congrArg (fun x : TimeState => x.dom[k]) htime
  have hval : cvTime k.castSucc (cvElapsed s) = (Claim.domOf k s).anchor.at s.time.cvRaw := by
    rw [cvTime_of_domain (by rw [hdom]; exact hh) hfresh, hdom, htime]
  rw [cvFinish_of_busy hb, hfresh, hval]
  exact ⟨rfl, rfl, rfl, rfl, rfl, hlo, hhi⟩

/-- One in the future sets OLD. -/
theorem conversionDone_future {k : Fin 3} {s : State} (hb : s.time.cvBusy = some k) (hat : s.time.cvAt ≤ s.now)
    (hfut : s.raw.toNat + 400 < s.time.cvRaw.toNat) :
    (cvFinish s).time.cvOld = true ∧ (cvFinish s).time.cvDone = true := by
  obtain ⟨htime, -, -, -, hrhi⟩ := cvElapsed_bounds hat (Nat.lt_trans hfut s.time.cvRaw.isLt)
  have hstale : cvStale (cvElapsed s) = true := by
    rw [cvStale, htime]
    exact decide_eq_true (.inl (by omega))
  rw [cvFinish_of_busy hb, hstale]
  exact ⟨rfl, rfl⟩

/-! ### TIME_CTL (R281, R288) -/

/-- FORCE 0 where the selection is settled takes the settings alone. -/
theorem setTimeCtl_settled {v : Word} {s : State} (hv : v.toNat % 4 = 0)
    (h : (Claim.domOf s.time.sel s).state = 3 ∨ (Claim.domOf (otherDom s.time.sel) s).state ≠ 3) :
    setTimeCtl v s = modTime (fun t => { t with force := 0, noRevert := bit v 4 }) s := by
  have hstay : reselect (modTime (fun t => { t with force := 0, noRevert := bit v 4 }) s) =
      modTime (fun t => { t with force := 0, noRevert := bit v 4 }) s := reselect_of_settled rfl h
  rw [setTimeCtl, fld_select, hv, if_neg (by omega)]
  exact hstay

/-- FORCE 3 is discarded. -/
theorem setTimeCtl_discarded {v : Word} (hv : v.toNat % 4 = 3) (s : State) : setTimeCtl v s = s :=
  if_pos ((fld_select v).trans hv)

/-! ### The statement -/

/-- The time registers latch, convert and take their writes. -/
theorem timeRegistersLatchAndConvert : Claim.TimeRegistersLatchAndConvert := by
  intro s m v
  refine ⟨⟨_, rfl, rfl, timeLatch_only 3 s⟩, fun k => ?_, ?_, fun hv => ?_, fun hv => ?_, fun hb => ?_,
    fun k hb hat hpast hkept hmax hh => ?_, fun k hb hat hfut => ?_, fun hm h3 hs ho => ?_, fun hm hs => ?_⟩
  · refine ⟨_, congrArg Host.Outcome.next (timeLatch_seconds k.succ s), ?_, ?_, ?_, modTime_only _ s⟩
    · rw [← timeOf_domain]
      exact put_getElem_self s.time.secHi k.succ _
    · rw [← timeOf_domain]
      exact put_getElem_self s.time.nsec k.succ _
    · exact put_getElem_other s.time.secHi k.succ.val _ 0 (Nat.succ_ne_zero k.val).symm
  · exact ⟨_, congrArg Host.Outcome.next (timeLatch_seconds 0 s), put_getElem_self s.time.nsec 0 _, modTime_only _ s⟩
  · exact congrArg Host.Outcome.next (cvStart_discarded hv s)
  · refine ⟨_, congrArg Host.Outcome.next (cvStart_taken hv s), rfl, congrArg some (Nat.mod_eq_of_lt ?_), modTime_only _ s⟩
    omega
  · exact congrArg Host.Outcome.next (cvFinish_of_idle hb)
  · obtain ⟨hdone, hold, hbusy, hsec, hnsec, hlo, hhi⟩ := conversionDone_kept hb hat hpast hkept hmax hh
    exact ⟨_, rfl, hdone, hold, hbusy, hsec, hnsec, hlo, hhi, (cvFinish_only s).mono (by simp)⟩
  · exact ⟨_, rfl, conversionDone_future hb hat hfut⟩
  · have h1 : s.md ≠ 1 := by omega
    have hwrite (f : State → State) (a : Word) : byMaster m s (rwkWrite m a f) = .next (f (touchSession s)) :=
      (byMaster_of_lt hm s _).trans (congrArg Host.Outcome.next (rwkWrite_of_owner hs ho h1 a f))
    refine ⟨hwrite _ _, fun hv h => ?_, fun hv => ?_⟩
    · refine ⟨_, (hwrite _ _).trans (congrArg Host.Outcome.next (setTimeCtl_settled hv h)), rfl, ?_⟩
      exact (touchSession_only s).trans (modTime_only _ _) (by simp) (by simp)
    · exact ⟨_, (hwrite _ _).trans (congrArg Host.Outcome.next (setTimeCtl_discarded hv _)), rfl, touchSession_only s⟩
  · exact (byMaster_of_lt hm s _).trans (congrArg Host.Outcome.next (rwkWrite_of_not_owner _ _ (.inl hs)))

/-- Settles O45: whatever a domain does, the selection that follows it leaves the domains alone; a Sync is one correction,
which leaves the state, and one judgement, which leaves the anchor; and a conversion reads the state at its end. -/
theorem timeDomainsAndRegisters : Obligations.TimeDomainsAndRegisters :=
  ⟨domainsAcquireLockAndHold, timeRegistersLatchAndConvert⟩

end Sys2Proof.Machine
end

section
/-! PROOFS. Access tables (R119, R120): what a code permits, and how a transfer that its table refuses is answered and logged. -/

namespace Sys2Proof.Machine

/-- An access has no KIND of violation exactly where its code permits it (R119). -/
theorem violation_eq_zero_iff (code : Nat) (write wo : Bool) :
    violation code write wo = 0 ↔ Claim.permits code write wo = true := by
  match code with
  | 0 | 1 | 2 | 3 | 4 => revert write wo; decide
  | n + 5 => cases write <;> simp [violation, Claim.permits]

/-! ### The log of violations (R120) -/

/-- The first violation is logged with its address, master, target, direction and KIND. -/
theorem logViolation_first {s : State} (h : bit (eventsOf .acc s) 0 = false) (m : Master) (t : Nat) (a : Word)
    (write : Bool) (k : Nat) : (logViolation m t a write k s).mesh.vlog0 = a ∧
      (logViolation m t a write k s).mesh.vlog1 = pack [(0, m.toNat), (4, t), (10, b2n write), (11, k)] := by
  unfold logViolation
  rw [h]
  exact ⟨rfl, rfl⟩

/-- While ACC_VIOL stands, the log keeps the first violation. -/
theorem logViolation_later {s : State} (h : bit (eventsOf .acc s) 0 = true) (m : Master) (t : Nat) (a : Word)
    (write : Bool) (k : Nat) : (logViolation m t a write k s).mesh.vlog0 = s.mesh.vlog0 ∧
      (logViolation m t a write k s).mesh.vlog1 = s.mesh.vlog1 := by
  unfold logViolation
  rw [h]
  exact ⟨rfl, rfl⟩

/-- A violation raises ACC_VIOL. -/
theorem latched_logViolation (m : Master) (t : Nat) (a : Word) (write : Bool) (k : Nat) (s : State) :
    Latched .acc 0 (logViolation m t a write k s) :=
  latched_raise .acc 0 _ (by decide)

/-- A transfer that the table of its target refuses: it is logged, and ends on the bus with a bus error and zeros. -/
def transferRefused (m : Master) (t a n : Nat) (write : Bool) (k : Nat) (s : State) : State :=
  send (.bus m (if write then [] else List.replicate n 0) true) (logViolation m t (wd a) write k s)

/-- A refused transfer answers its master and leaves everything but the log alone. -/
theorem transferRefused_effect (m : Master) (t a n : Nat) (write : Bool) (k : Nat) (s : State) :
    (transferRefused m t a n write k s).outbox = s.outbox ++ [.bus m (if write then [] else List.replicate n 0) true] ∧
      Latched .acc 0 (transferRefused m t a n write k s) ∧
      (transferRefused m t a n write k s).mesh.vcount = satInc s.mesh.vcount ∧
      Frame [.mesh, .outbox, .events, .board] s (transferRefused m t a n write k s) :=
  ⟨congrArg (· ++ _) (logViolation_only m t (wd a) write k s .outbox (by simp)), latched_logViolation m t (wd a) write k s,
    rfl, (logViolation_only m t (wd a) write k s).trans (send_only _ _) (by simp) (by simp)⟩

/-! ### Refused transfers -/

/-- The checks stop a transfer that its table refuses, and log it (R120). -/
theorem checkAccess_refused {m : Master} {a n t : Nat} {write : Bool} {s : State} (ht : targetOf a = some t)
    (hb : modeBars m t write s = false) (hk : transferKind m t a n write s ≠ 0) :
    checkAccess m a n write s =
      (some .refused, logViolation m t (wd a) write (transferKind m t a n write s) s) := by
  simp [checkAccess, ht, hb, hk]

/-- A refused write of one register. -/
theorem exec_registerWrite_refused {m : Master} {a : Word} {t : Nat} {s : State} (hm : m.toNat < 14)
    (ht : targetOf a.toNat = some t) (hb : modeBars m t true s = false) (hk : transferKind m t a.toNat 4 true s ≠ 0)
    (v : Word) : exec (.registerWrite m a v) s =
      .next (transferRefused m t a.toNat 4 true (transferKind m t a.toNat 4 true s) s) := by
  change byMaster m s (fun u => finishAccess m 4 true (access m a.toNat 4 (some (leBytes 4 v.toNat)) u)) = _
  simp only [byMaster_of_lt hm, access, Option.isSome_some, checkAccess_refused ht hb hk]
  rfl

/-- A refused read, whatever the slot and the port. -/
theorem exec_meshTransfer_refused {m : Master} {a : Word} {n t : Nat} {s : State} (hm : m.toNat < 14)
    (ht : targetOf a.toNat = some t) (hb : modeBars m t false s = false) (hk : transferKind m t a.toNat n false s ≠ 0)
    (slot : Fin 512) (busy : Bool) : exec (.meshTransfer m a n none slot busy) s =
      .next (transferRefused m t a.toNat n false (transferKind m t a.toNat n false s) s) := by
  change byMaster m s (requestTransfer m a n none slot.val busy) = _
  simp only [byMaster_of_lt hm, requestTransfer, Option.isSome_none, checkAccess_refused ht hb hk]
  rfl

/-! ### The statement -/

/-- Settles O23: what the checks refuse is one violation, whoever asks and however; the log takes it only while ACC_VIOL does
not stand. -/
theorem accessTablesGuardTransfers : Obligations.AccessTablesGuardTransfers := by
  refine ⟨violation_eq_zero_iff, ?_, ?_, fun s => ?_⟩
  · intro s m a v t k hm ht hb hk hk0
    subst hk
    obtain ⟨hout, hlatch, hcount, hframe⟩ :=
      transferRefused_effect m t a.toNat 4 true (transferKind m t a.toNat 4 true s) s
    have ha : wd a.toNat = a := BitVec.ofNat_toNat 32 a
    rw [exec_registerWrite_refused hm ht hb hk0 v]
    refine ⟨_, rfl, hout, hlatch, hcount, fun hfree => ?_, fun hheld => logViolation_later hheld m t _ true _, hframe⟩
    obtain ⟨hlog0, hlog1⟩ := logViolation_first hfree m t (wd a.toNat) true (transferKind m t a.toNat 4 true s)
    exact ⟨hlog0.trans ha, hlog1⟩
  · intro s m a n slot busy t k hm ht hb hk hk0
    subst hk
    exact ⟨_, exec_meshTransfer_refused hm ht hb hk0 slot busy,
      transferRefused_effect m t a.toNat n false (transferKind m t a.toNat n false s) s⟩
  · exact ⟨_, rfl, (eventsOf_clear_bit .acc 0 0 s).trans (by simp), rfl, rfl, rfl, clearEvents_only .acc 1 s⟩

end Sys2Proof.Machine
end

section
/-! PROOFS. Locks of the hinge mesh (R116): the four steps in which a read of a lock is judged, the wait for a held lock, and
its release. -/

namespace Sys2Proof.Machine

/-! ### One lock changed -/

/-- The lock that is changed. -/
theorem modLock_lock_self (n : Fin 64) (f : MeshLock → MeshLock) (s : State) :
    (modLock n f s).mesh.lock[n] = f s.mesh.lock[n] := modAt_getElem_self _ n f

/-- Changing a lock leaves the other locks alone. -/
theorem modLock_lock_other {n j : Fin 64} (h : j ≠ n) (f : MeshLock → MeshLock) (s : State) :
    (modLock n f s).mesh.lock[j] = s.mesh.lock[j] := modAt_getElem_other _ n j f h

/-! ### What a read of a lock finds -/

/-- A master holds the locks that name it as their holder. -/
theorem mem_locksOf {s : State} {m : Master} {j : Fin 64} : j ∈ locksOf s m ↔ s.mesh.lock[j].holder = some m := by
  simp [locksOf, idx]

/-- The class rule stands against a read of a lock where its master holds one whose class is not lower (R116). -/
theorem locksOf_any_iff {s : State} {m : Master} {n : Fin 64} :
    ((locksOf s m).any fun j => decide (lockClass s n.val ≤ lockClass s j.val)) = true ↔
      ∃ j : Fin 64, s.mesh.lock[j].holder = some m ∧ lockClass s n ≤ lockClass s j := by
  simp only [List.any_eq_true, mem_locksOf, decide_eq_true_eq]

/-- The word of a granted lock: GRANTED and the holder (R122). -/
theorem lockGranted_toNat (m : Master) : (lockGranted m).toNat = 0x80000000 + 256 * m.toNat := by
  have hm := m.isLt
  simp only [lockGranted, pack, wd, List.foldl_cons, List.foldl_nil, BitVec.toNat_ofNat]
  omega

section
variable {s : State} {m : Master} {n : Fin 64}

/-- Step 1: the holder reads GRANTED, whatever else it holds. -/
theorem readLock_of_holder (h : s.mesh.lock[n].holder = some m) : readLock m n s = (some (lockGranted m), s) := if_pos h

/-- Step 2: the class rule refuses, and LOCK_ORDER is raised. -/
theorem readLock_of_class (h : s.mesh.lock[n].holder ≠ some m)
    (hj : ∃ j : Fin 64, s.mesh.lock[j].holder = some m ∧ lockClass s n ≤ lockClass s j) :
    readLock m n s = (some lockRefused, raise .mesh 2 s) :=
  (if_neg h).trans (if_pos (locksOf_any_iff.mpr hj))

section
variable (h : ∀ j : Fin 64, s.mesh.lock[j].holder = some m → lockClass s j < lockClass s n)
include h

/-- A lock above every lock of a master is not among them. -/
theorem holder_ne_of_rising : s.mesh.lock[n].holder ≠ some m := fun e => Nat.lt_irrefl _ (h n e)

/-- The class rule does not stand against a read in rising class. -/
theorem locksOf_any_of_rising :
    ¬ ((locksOf s m).any fun j => decide (lockClass s n.val ≤ lockClass s j.val)) = true := by
  rw [locksOf_any_iff]
  rintro ⟨j, hj, hle⟩
  exact Nat.not_le.mpr (h j hj) hle

/-- Step 3: a read of a lock that another master holds stalls. -/
theorem readLock_of_held {k : Master} (hk : s.mesh.lock[n].holder = some k) :
    readLock m n s = (none, modLock n (fun k => { k with waiters := k.waiters ++ [m] }) s) := by
  rw [readLock, if_neg (holder_ne_of_rising h), if_neg (locksOf_any_of_rising h), hk]

/-- Step 4: a read of a free lock acquires it. -/
theorem readLock_of_free (hk : s.mesh.lock[n].holder = none) :
    readLock m n s = (some (lockGranted m), modLock n (fun k => { k with holder := some m }) s) := by
  rw [readLock, if_neg (holder_ne_of_rising h), if_neg (locksOf_any_of_rising h), hk]

end

/-- A stalled read acquires a free lock; its master waits in no transfer of several reads. -/
theorem wakeLock_acquires (hfree : s.mesh.lock[n].holder = none) (hmem : m ∈ s.mesh.lock[n].waiters)
    (hstall : s.mesh.stalls = []) : wakeLock m n s = answer m (some (lockGranted m),
      modLock n (fun k => { k with holder := some m, waiters := k.waiters.erase m }) s) := by
  have hnone : stallOf m s = none := by rw [stallOf, hstall]; rfl
  have hgo : ¬ (s.mesh.lock[n].holder.isSome || !s.mesh.lock[n].waiters.contains m) = true := by
    rw [hfree, List.contains_iff_mem.mpr hmem]
    decide
  rw [wakeLock, if_neg hgo, hnone]

end

/-! ### Arrival at the mesh block -/

/-- An arrival leaves the locks alone. -/
theorem lock_arrive (m : Master) (t w : Nat) (s : State) (j : Fin 64) :
    (arrive m t w s).mesh.lock[j] = s.mesh.lock[j] := by rw [arrive_mesh]

/-- The holders of the locks stay as a transfer arrives. -/
theorem holder_arrive (m : Master) (t w : Nat) (s : State) (j : Fin 64) :
    (arrive m t w s).mesh.lock[j].holder = s.mesh.lock[j].holder := by rw [arrive_mesh]

/-- The locks keep their classes as a transfer arrives. -/
theorem lockClass_arrive (m : Master) (t w : Nat) (s : State) (n : Nat) :
    lockClass (arrive m t w s) n = lockClass s n := by
  rw [lockClass, recD_of_key (arrive_only m t w s .key (by simp)), lockClass]

/-- An arrival sends nothing. -/
theorem arrive_outbox (m : Master) (t w : Nat) (s : State) : (arrive m t w s).outbox = s.outbox :=
  arrive_only m t w s .outbox (by simp)

/-- A transfer that changes one lock as it arrives at the mesh island leaves the other locks as they were. -/
theorem modLock_arrive_effect (m : Master) (n : Fin 64) (f : MeshLock → MeshLock) (s : State) :
    Claim.Arrived m 13 s (modLock n f (arrive m 5 0 s)) ∧
      (modLock n f (arrive m 5 0 s)).mesh.lock[n] = f s.mesh.lock[n] ∧
      (∀ j : Fin 64, j ≠ n → (modLock n f (arrive m 5 0 s)).mesh.lock[j] = s.mesh.lock[j]) ∧
      Frame [.time, .power, .mesh] s (modLock n f (arrive m 5 0 s)) :=
  ⟨arrived_congr (arrive_arrived (t := 5) rfl m 0 s) ⟨rfl, rfl, rfl⟩ ⟨rfl, rfl, rfl⟩,
    (modLock_lock_self n f _).trans (congrArg f (lock_arrive m 5 0 s n)),
    fun j hj => (modLock_lock_other hj f _).trans (lock_arrive m 5 0 s j),
    (arrive_only m 5 0 s).trans (modLock_only n f _) (by simp) (by simp)⟩

/-- What a granted read answers. -/
theorem answer_granted_outbox (m : Master) (s : State) : (answer m (some (lockGranted m), s)).outbox =
    s.outbox ++ [.bus m (leBytes 4 (0x80000000 + 256 * m.toNat)) false] := by
  rw [← lockGranted_toNat]
  rfl

/-! ### The commands -/

section
variable {s : State} {m : Master} {n : Fin 64} (hm : m.toNat < 14)
include hm

/-- A read of a lock is judged as it arrives. -/
theorem exec_lockAcquire : exec (.lockAcquire m n) s = .next (answer m (readLock m n (arrive m 5 0 s))) := if_pos hm

/-- A RELEASE is judged as it arrives. -/
theorem exec_lockRelease : exec (.lockRelease m n) s = .next (releaseLock m n (arrive m 5 0 s)) := if_pos hm

/-- The holder polls its own lock. -/
theorem lockAcquire_of_holder (h : s.mesh.lock[n].holder = some m) :
    ∃ t, exec (.lockAcquire m n) s = .next t ∧ Claim.Arrived m 13 s t ∧ t.mesh = { s.mesh with cnt := t.mesh.cnt } ∧
      t.outbox = s.outbox ++ [.bus m (leBytes 4 (0x80000000 + 256 * m.toNat)) false] ∧
      Frame [.time, .power, .mesh, .outbox] s t := by
  rw [exec_lockAcquire hm, readLock_of_holder ((holder_arrive m 5 0 s n).trans h)]
  refine ⟨_, rfl, arrive_arrived (t := 5) rfl m 0 s, arrive_mesh m 5 0 s, ?_, ?_⟩
  · rw [answer_granted_outbox, arrive_outbox]
  · exact (arrive_only m 5 0 s).trans (send_only _ _) (by simp) (by simp)

/-- A read against the class rule is refused. -/
theorem lockAcquire_of_class (h : s.mesh.lock[n].holder ≠ some m)
    (hj : ∃ j : Fin 64, s.mesh.lock[j].holder = some m ∧ lockClass s n ≤ lockClass s j) :
    ∃ t, exec (.lockAcquire m n) s = .next t ∧ Claim.Arrived m 13 s t ∧ t.mesh = { s.mesh with cnt := t.mesh.cnt } ∧
      t.outbox = s.outbox ++ [.bus m (leBytes 4 0x40000000) false] ∧ Latched .mesh 2 t ∧
      Frame [.time, .power, .mesh, .outbox, .events, .board] s t := by
  have hread := readLock_of_class (s := arrive m 5 0 s) (m := m) (n := n)
    (by rwa [holder_arrive]) (by simpa only [holder_arrive, lockClass_arrive] using hj)
  rw [exec_lockAcquire hm, hread]
  refine ⟨_, rfl, arrived_congr (arrive_arrived (t := 5) rfl m 0 s) ⟨rfl, rfl, rfl⟩ ⟨rfl, rfl, rfl⟩, arrive_mesh m 5 0 s,
    congrArg (· ++ _) (arrive_outbox m 5 0 s), latched_raise .mesh 2 _ (by decide), ?_⟩
  exact ((arrive_only m 5 0 s).trans (raise_only .mesh 2 _) (by simp) (by simp)).trans (send_only _ _) (fun _ h => h)
    (by simp)

section
variable (h : ∀ j : Fin 64, s.mesh.lock[j].holder = some m → lockClass s j < lockClass s n)
include h

/-- A read in rising class stalls where another master holds the lock. -/
theorem lockAcquire_of_held {k : Master} (hk : s.mesh.lock[n].holder = some k) :
    ∃ t, exec (.lockAcquire m n) s = .next t ∧ Claim.Arrived m 13 s t ∧ t.mesh.lock[n].holder = some k ∧
      t.mesh.lock[n].waiters = s.mesh.lock[n].waiters ++ [m] ∧
      (∀ j : Fin 64, j ≠ n → t.mesh.lock[j] = s.mesh.lock[j]) ∧ Frame [.time, .power, .mesh] s t := by
  have hread := readLock_of_held (s := arrive m 5 0 s) (m := m) (n := n)
    (by simpa only [holder_arrive, lockClass_arrive] using h) ((holder_arrive m 5 0 s n).trans hk)
  obtain ⟨harr, hself, hother, hframe⟩ := modLock_arrive_effect m n (fun k => { k with waiters := k.waiters ++ [m] }) s
  rw [exec_lockAcquire hm, hread]
  exact ⟨_, rfl, harr, (congrArg MeshLock.holder hself).trans hk, congrArg MeshLock.waiters hself, hother, hframe⟩

/-- A read in rising class acquires a free lock. -/
theorem lockAcquire_of_free (hk : s.mesh.lock[n].holder = none) :
    ∃ t, exec (.lockAcquire m n) s = .next t ∧ Claim.Arrived m 13 s t ∧ t.mesh.lock[n].holder = some m ∧
      t.mesh.lock[n].waiters = s.mesh.lock[n].waiters ∧ (∀ j : Fin 64, j ≠ n → t.mesh.lock[j] = s.mesh.lock[j]) ∧
      t.outbox = s.outbox ++ [.bus m (leBytes 4 (0x80000000 + 256 * m.toNat)) false] ∧
      Frame [.time, .power, .mesh, .outbox] s t := by
  have hread := readLock_of_free (s := arrive m 5 0 s) (m := m) (n := n)
    (by simpa only [holder_arrive, lockClass_arrive] using h) ((holder_arrive m 5 0 s n).trans hk)
  obtain ⟨harr, hself, hother, hframe⟩ := modLock_arrive_effect m n (fun k => { k with holder := some m }) s
  have hout := hframe .outbox (by simp)
  rw [exec_lockAcquire hm, hread]
  refine ⟨_, rfl, harr, (congrArg MeshLock.holder hself :), (congrArg MeshLock.waiters hself :), hother, ?_,
    hframe.trans (send_only _ _) (by simp) (by simp)⟩
  rw [answer_granted_outbox, hout]

end

/-- A stalled read acquires the free lock. -/
theorem lockWaitAcquired_acquires (hfree : s.mesh.lock[n].holder = none) (hmem : m ∈ s.mesh.lock[n].waiters)
    (hstall : s.mesh.stalls = []) :
    ∃ t, exec (.lockWaitAcquired m n) s = .next t ∧ t.mesh.lock[n].holder = some m ∧
      t.mesh.lock[n].waiters = s.mesh.lock[n].waiters.erase m ∧ (∀ j : Fin 64, j ≠ n → t.mesh.lock[j] = s.mesh.lock[j]) ∧
      t.outbox = s.outbox ++ [.bus m (leBytes 4 (0x80000000 + 256 * m.toNat)) false] ∧ Frame [.mesh, .outbox] s t := by
  have hself := modLock_lock_self n (fun k => { k with holder := some m, waiters := k.waiters.erase m }) s
  have hexec : exec (.lockWaitAcquired m n) s = .next (wakeLock m n s) := if_pos hm
  rw [hexec, wakeLock_acquires hfree hmem hstall]
  exact ⟨_, rfl, (congrArg MeshLock.holder hself :), (congrArg MeshLock.waiters hself :),
    fun j hj => modLock_lock_other hj _ s, answer_granted_outbox m _,
    (modLock_only n _ s).trans (send_only _ _) (by simp) (by simp)⟩

/-- The holder's RELEASE frees the lock. -/
theorem lockRelease_of_holder (h : s.mesh.lock[n].holder = some m) :
    ∃ t, exec (.lockRelease m n) s = .next t ∧ Claim.Arrived m 13 s t ∧ t.mesh.lock[n].holder = none ∧
      t.mesh.lock[n].waiters = s.mesh.lock[n].waiters ∧ (∀ j : Fin 64, j ≠ n → t.mesh.lock[j] = s.mesh.lock[j]) ∧
      Frame [.time, .power, .mesh] s t := by
  obtain ⟨harr, hself, hother, hframe⟩ := modLock_arrive_effect m n (fun k => { k with holder := none }) s
  rw [exec_lockRelease hm, releaseLock, if_pos ((holder_arrive m 5 0 s n).trans h)]
  exact ⟨_, rfl, harr, (congrArg MeshLock.holder hself :), (congrArg MeshLock.waiters hself :), hother, hframe⟩

/-- The RELEASE of any other master is discarded. -/
theorem lockRelease_of_other (h : s.mesh.lock[n].holder ≠ some m) :
    ∃ t, exec (.lockRelease m n) s = .next t ∧ Claim.Arrived m 13 s t ∧ t.mesh = { s.mesh with cnt := t.mesh.cnt } ∧
      Frame [.time, .power, .mesh] s t := by
  rw [exec_lockRelease hm, releaseLock, if_neg (by rwa [holder_arrive])]
  exact ⟨_, rfl, arrive_arrived rfl m 0 s, arrive_mesh m 5 0 s, arrive_only m 5 0 s⟩

end

/-! ### The statement -/

/-- Settles O21: an arrival changes neither the locks nor their classes, so that the read is judged on the state it was issued
in, by the first of the four steps that applies. -/
theorem lockReadsAreJudgedInOrder : Obligations.LockReadsAreJudgedInOrder := by
  intro s m n hm
  exact ⟨lockAcquire_of_holder hm, lockAcquire_of_class hm,
    fun hrise => ⟨fun _ _ hk => lockAcquire_of_held hm hrise hk, lockAcquire_of_free hm hrise⟩,
    lockWaitAcquired_acquires hm, lockRelease_of_holder hm, lockRelease_of_other hm⟩

end Sys2Proof.Machine
end

section
/-! PROOFS. Slot tables (R106 to R111): the swap of one segment, the frame boundary at which it takes place, and the counters
that MESH_CNTCLR clears (R115). -/

namespace Sys2Proof.Machine

/-! ### MESH_SWAP (R110) -/

/-- The check of a requested segment: it becomes pending, or the request is refused. -/
def judgeSwap (g : Fin 4) (s : State) : State :=
  if slotTableOk (recD s 0x20 0) s.mesh.access g.val s.mesh.shadow[g] then
    modMesh (fun x => { x with swapPend := putBit x.swapPend g.val true }) s
  else raise .mesh 1 s

/-- The owner's request for one segment is the check of that segment. -/
theorem swapSlots_single {m : Master} {s : State} (hs : s.key.session = true) (ho : s.key.owner = m) (g : Fin 4) :
    swapSlots m (BitVec.ofNat 4 (2 ^ g.val)) s = judgeSwap g s := by
  have hown : (!owns s m) = false := by simp [owns, hs, ho]
  have hother (j : Fin 4) (hj : j ≠ g) : (!bit (BitVec.ofNat 4 (2 ^ g.val)) j.val) = true := by
    rw [bit_group, decide_eq_false (Fin.val_ne_of_ne hj)]
    rfl
  have hself : ¬ (!bit (BitVec.ofNat 4 (2 ^ g.val)) g.val) = true := by
    rw [bit_group, decide_eq_true rfl]
    decide
  rw [swapSlots, hown]
  exact (foldS_single (a := g) (fun j hj t => if_pos (hother j hj)) (List.nodup_finRange 4) (List.mem_finRange g) s).trans
    (if_neg hself)

/-- A request of a master that does not own a session is refused. -/
theorem swapSlots_of_not_owner {m : Master} {s : State} (h : s.key.session = false ∨ s.key.owner ≠ m) (req : BitVec 4) :
    swapSlots m req s = raise .mesh 1 s := by
  have hown : (!owns s m) = true := by
    obtain h | h := h <;> simp [owns, h]
  exact if_pos hown

/-! ### The frame boundary (R106, R110, R111) -/

/-- The frame of a segment ends: its credits are set back. -/
def frameEnded (g : Fin 4) (s : State) : State :=
  modMesh (fun x => { x with spent := x.spent.filter fun e => segOf (e.1 / 16) ≠ some g.val })
    (periodic (tkFrame g.val) 512 s)

/-- The tables of a segment exchange. -/
def tablesSwapped (g : Fin 4) (s : State) : State :=
  raise .mesh 0 (modMesh (fun x => { x with
    active := upd x.active g x.shadow[g], shadow := upd x.shadow g x.active[g],
    swapPend := putBit x.swapPend g.val false }) s)

/-- At the frame boundary the frame ends, and a pending swap takes place. -/
theorem exec_frameBoundary (g : Fin 4) (s : State) : exec (.frameBoundary g) s =
    if bit s.mesh.swapPend g.val then .next (tablesSwapped g (frameEnded g s)) else .next (frameEnded g s) := rfl

/-- Time does not run backwards at a periodic event. -/
theorem now_le_periodic (k n : Nat) (s : State) : s.now ≤ (periodic k n s).now := Nat.le_add_right _ _

/-- The end of a frame spends nothing of its segment. -/
theorem frameEnded_spent (g : Fin 4) (s : State) : ∀ e ∈ (frameEnded g s).mesh.spent, segOf (e.1 / 16) ≠ some g.val :=
  fun _ he => of_decide_eq_true (List.mem_filter.mp he).2

/-- The end of a frame changes the time and the mesh alone. -/
theorem frameEnded_only (g : Fin 4) (s : State) : Frame [.mesh, .time] s (frameEnded g s) :=
  (periodic_only _ 512 s).trans (modMesh_only _ _) (by simp) (by simp)

/-- The exchange of two tables. -/
theorem tablesSwapped_tables (g : Fin 4) (s : State) :
    (tablesSwapped g s).mesh.active[g] = s.mesh.shadow[g] ∧ (tablesSwapped g s).mesh.shadow[g] = s.mesh.active[g] ∧
      bit (tablesSwapped g s).mesh.swapPend g.val = false ∧ Latched .mesh 0 (tablesSwapped g s) :=
  ⟨modAt_getElem_self s.mesh.active g fun _ => s.mesh.shadow[g],
    modAt_getElem_self s.mesh.shadow g fun _ => s.mesh.active[g],
    (bit_putBit s.mesh.swapPend g.val g.val false g.isLt).trans (if_pos rfl), latched_raise .mesh 0 _ (by decide)⟩

/-- An exchange changes the mesh and its event alone. -/
theorem tablesSwapped_only (g : Fin 4) (s : State) : Frame [.mesh, .events, .board] s (tablesSwapped g s) :=
  (modMesh_only _ s).trans (raise_only .mesh 0 _) (by simp) (by simp)

/-! ### The statement -/

/-- A swap is judged at once and takes place at the frame boundary; MESH_CNTCLR clears one master's counters. -/
theorem slotTablesSwapAtTheFrame : Claim.SlotTablesSwapAtTheFrame := by
  refine fun s => ⟨fun m g hm => ⟨fun hs ho hok => ?_, fun hs ho hbad => ?_, fun h => ?_⟩, fun g => ?_, ?_⟩
  · refine ⟨judgeSwap g s, (if_pos hm).trans (congrArg _ (swapSlots_single hs ho g)), ?_⟩
    rw [judgeSwap, if_pos hok]
    exact ⟨(bit_putBit _ _ _ _ g.isLt).trans (if_pos rfl), rfl, rfl, modMesh_only _ s⟩
  · refine (if_pos hm).trans (congrArg _ ((swapSlots_single hs ho g).trans (if_neg ?_)))
    rw [hbad]
    decide
  · exact (if_pos hm).trans (congrArg _ (swapSlots_of_not_owner h _))
  · rw [exec_frameBoundary]
    cases hp : bit s.mesh.swapPend g.val
    · exact ⟨_, rfl, now_le_periodic _ _ s, frameEnded_spent g s, rfl, nofun, fun _ => ⟨rfl, rfl, rfl⟩,
        (frameEnded_only g s).mono (by simp)⟩
    · exact ⟨_, rfl, now_le_periodic _ _ s, frameEnded_spent g s, rfl, fun _ => tablesSwapped_tables g (frameEnded g s), nofun,
        (frameEnded_only g s).trans (tablesSwapped_only g _) (by simp) (by simp)⟩
  · refine ⟨_, rfl, fun j => ?_, modMesh_only _ s⟩
    split
    · next h =>
      change (put' s.mesh.cnt s.mesh.cntSel.toNat {})[j] = {}
      rw [← h]
      exact put_getElem_self _ j _
    · next h => exact put_getElem_other _ _ _ j h

end Sys2Proof.Machine
end

section
/-! PROOFS. The cycle probe (R117, R118): what it finds where no read stalls and where two masters stall at each other's lock,
and what the abort of one read leaves. -/

namespace Sys2Proof.Machine

/-! ### Waits -/

/-- Where no target stalls a transfer, a master waits on the holder of the lock it stalls at. -/
theorem waitsOn_nil (s : State) (m : Master) :
    waitsOn s [] m = (lockWait s m).bind fun n => s.mesh.lock[n].holder := by
  have hflow : flowStall s [] m = none := rfl
  rw [waitsOn, hflow, ← lockWait]
  cases lockWait s m <;> rfl

/-- A master that stalls at one lock alone waits there. -/
theorem lockWait_eq_some {s : State} {v : Master} {n : Fin 64} (h : ∀ j : Fin 64, v ∈ s.mesh.lock[j].waiters ↔ j = n) :
    lockWait s v = some n := by
  rw [lockWait, idx, ← Fin.find?_eq_find?_finRange, Fin.find?_eq_some_iff]
  refine ⟨List.contains_iff_mem.mpr ((h n).mpr rfl), fun j hj => Bool.eq_false_iff.mpr fun hc => ?_⟩
  exact Fin.ne_of_lt hj ((h j).mp (List.contains_iff_mem.mp hc))

/-- A master that stalls at no lock waits nowhere. -/
theorem lockWait_eq_none {s : State} {v : Master} (h : ∀ j : Fin 64, v ∉ s.mesh.lock[j].waiters) : lockWait s v = none :=
  List.find?_eq_none.mpr fun j _ hj => h j (List.contains_iff_mem.mp hj)

/-- Where no read stalls there is no circle. -/
theorem circleOf_of_idle {s : State} (h : ∀ n : Fin 64, s.mesh.lock[n].waiters = []) : circleOf s [] = none := by
  refine List.findSome?_eq_none_iff.mpr fun m _ => ?_
  have hwait : waitsOn s [] (BitVec.ofNat 4 m) = none := by
    rw [waitsOn_nil, lockWait_eq_none fun j hj => List.not_mem_nil (h j ▸ hj)]
    rfl
  rw [follow, hwait]

/-! ### A circle of two -/

/-- Two masters each hold one lock and stall at the other's; nobody else holds a lock or stalls. -/
structure MutualWait (p q : Fin 64) (x y : Master) (s : State) : Prop where
  locks : p ≠ q
  masters : x ≠ y
  holder : s.mesh.lock[p].holder = some x
  holder' : s.mesh.lock[q].holder = some y
  waiters : s.mesh.lock[p].waiters = [y]
  waiters' : s.mesh.lock[q].waiters = [x]
  idle : ∀ n : Fin 64, n ≠ p → n ≠ q → s.mesh.lock[n] = {}

namespace MutualWait
variable {p q : Fin 64} {x y : Master} {s : State}

/-- The two masters stand in the same relation to each other. -/
theorem symm (h : MutualWait p q x y s) : MutualWait q p y x s :=
  ⟨h.locks.symm, h.masters.symm, h.holder', h.holder, h.waiters', h.waiters, fun n hq hp => h.idle n hp hq⟩

/-- The first master holds the first lock alone. -/
theorem holder_iff (h : MutualWait p q x y s) (n : Fin 64) : s.mesh.lock[n].holder = some x ↔ n = p := by
  refine ⟨fun hn => ?_, fun hn => hn ▸ h.holder⟩
  by_contra hp
  by_cases hq : n = q
  · rw [hq, h.holder'] at hn
    exact h.masters (Option.some.inj hn).symm
  · rw [h.idle n hp hq] at hn
    cases hn

/-- A master stalls at the second lock if it is the first of the two, at the first lock if it is the other. -/
theorem mem_waiters_iff (h : MutualWait p q x y s) (n : Fin 64) : x ∈ s.mesh.lock[n].waiters ↔ n = q := by
  refine ⟨fun hn => ?_, fun hn => ?_⟩
  · by_contra hq
    by_cases hp : n = p
    · rw [hp, h.waiters, List.mem_singleton] at hn
      exact h.masters hn
    · rw [h.idle n hp hq] at hn
      cases hn
  · rw [hn, h.waiters']
    exact List.mem_singleton_self x

/-- Nobody but the two masters stalls. -/
theorem not_mem_waiters (h : MutualWait p q x y s) {v : Master} (hx : v ≠ x) (hy : v ≠ y) (n : Fin 64) :
    v ∉ s.mesh.lock[n].waiters := by
  intro hn
  by_cases hp : n = p
  · rw [hp, h.waiters, List.mem_singleton] at hn
    exact hy hn
  · by_cases hq : n = q
    · rw [hq, h.waiters', List.mem_singleton] at hn
      exact hx hn
    · rw [h.idle n hp hq] at hn
      cases hn

/-- The first master's read stalls at the second lock. -/
theorem lockWait_eq (h : MutualWait p q x y s) : lockWait s x = some q := lockWait_eq_some h.mem_waiters_iff

/-- The first master waits on the second one. -/
theorem waitsOn_eq (h : MutualWait p q x y s) : waitsOn s [] x = some y := by
  rw [waitsOn_nil, h.lockWait_eq]
  exact h.holder'

/-- Nobody but the two masters waits. -/
theorem waitsOn_other (h : MutualWait p q x y s) {v : Master} (hx : v ≠ x) (hy : v ≠ y) : waitsOn s [] v = none := by
  rw [waitsOn_nil, lockWait_eq_none (h.not_mem_waiters hx hy)]
  rfl

/-- The waits lead from the first master to the second one and back. -/
theorem follow_eq (h : MutualWait p q x y s) (k : Nat) : follow (waitsOn s []) x (k + 2) x = some [x, y] := by
  simp only [follow, h.waitsOn_eq, h.symm.waitsOn_eq, if_neg h.masters.symm, if_true, Option.map_some]

/-- The probe finds the circle of the two masters, from one of them. -/
theorem circleOf_eq (h : MutualWait p q x y s) (hx : x.toNat < 14) :
    circleOf s [] = some [x, y] ∨ circleOf s [] = some [y, x] := by
  have hfound : (circleOf s []).isSome := by
    refine List.findSome?_isSome_iff.mpr ⟨x.toNat, List.mem_range.mpr hx, ?_⟩
    rw [BitVec.ofNat_toNat, BitVec.setWidth_eq, h.follow_eq]
    rfl
  obtain ⟨c, hc⟩ := Option.isSome_iff_exists.mp hfound
  obtain ⟨m, -, hm⟩ := List.exists_of_findSome?_eq_some hc
  rw [hc]
  by_cases hmx : BitVec.ofNat 4 m = x
  · rw [hmx, h.follow_eq] at hm
    exact .inl hm.symm
  · by_cases hmy : BitVec.ofNat 4 m = y
    · rw [hmy, h.symm.follow_eq] at hm
      exact .inr hm.symm
    · rw [follow, h.waitsOn_other hmx hmy] at hm
      cases hm

/-! ### The victim -/

/-- The list of its locks. -/
theorem locksOf_eq (h : MutualWait p q x y s) : locksOf s x = [p] := by
  have hpred : (fun n : Fin 64 => decide (s.mesh.lock[n].holder = some x)) = (· == p) := by
    funext n
    rw [Bool.eq_iff_iff, decide_eq_true_eq, h.holder_iff n, beq_iff_eq]
  rw [locksOf, hpred, idx, List.filter_beq, List.count_eq_one_of_mem (List.nodup_finRange 64) (List.mem_finRange p)]
  rfl

/-- Its rank is the class of that lock. -/
theorem lockRank_eq (h : MutualWait p q x y s) : lockRank s x = lockClass s p + 1 := by
  simp [lockRank, h.locksOf_eq]

/-- The lock of highest class that it holds. -/
theorem topLock_eq (h : MutualWait p q x y s) : topLock s x = some p := by
  simp [topLock, h.locksOf_eq, h.lockRank_eq]

/-- Of the circle the master whose lock has the lower class is aborted, from whichever master the probe starts. -/
theorem victim_eq (h : MutualWait p q x y s) (hclass : lockClass s p < lockClass s q) :
    victim s [y] x = x ∧ victim s [x] y = x := by
  have hrank : lockRank s x < lockRank s y := by
    rw [h.lockRank_eq, h.symm.lockRank_eq]
    omega
  have hnot : ¬ lockRank s y < lockRank s x := by omega
  have hne : lockRank s y ≠ lockRank s x := by omega
  simp [victim, hrank, hnot, hne]

end MutualWait

/-! ### The abort of a read (R117, R118) -/

/-- The stalled read of a master, in no longer transfer, ends with a bus error. -/
def readAborted (v : Master) (n : Fin 64) (s : State) : State :=
  send (.bus v [0, 0, 0, 0] true)
    (dropStall v (modLock n (fun k => { k with waiters := k.waiters.filter (· != v) }) s))

/-- The wait of a master at a lock is aborted, and a supervisor gives way. -/
theorem abortWait_of_lockWait {s : State} {v : Master} {n : Fin 64} (h : lockWait s v = some n) (hs : s.mesh.stalls = []) :
    abortWait v [] s = supervisorRetry ⟨v, wd (0x40100 + 4 * n.val), 4, none, 0⟩ (readAborted v n s) := by
  have hnone : stallOf v s = none := by rw [stallOf, hs]; rfl
  simp only [abortWait, h, lockRead, abortLockRead, hnone]
  rfl

/-- Of the locks the abort changes the one at which the read stalls. -/
theorem readAborted_lock (v : Master) (n : Fin 64) (s : State) : (readAborted v n s).mesh.lock =
    modAt s.mesh.lock n fun k => { k with waiters := k.waiters.filter (· != v) } := by
  simp only [readAborted, send_frame, dropStall, modLock, modMesh_mesh]

/-- The abort takes the master from the waiters of the lock. -/
theorem readAborted_lock_self (v : Master) (n : Fin 64) (s : State) : (readAborted v n s).mesh.lock[n] =
    { s.mesh.lock[n] with waiters := s.mesh.lock[n].waiters.filter (· != v) } := by
  rw [readAborted_lock, modAt_getElem_self]

/-- The abort leaves the other locks alone. -/
theorem readAborted_lock_other {n j : Fin 64} (h : j ≠ n) (v : Master) (s : State) :
    (readAborted v n s).mesh.lock[j] = s.mesh.lock[j] := by
  rw [readAborted_lock, modAt_getElem_other _ _ _ _ h]

/-- The abort releases no lock. -/
theorem readAborted_holder (v : Master) (n j : Fin 64) (s : State) :
    (readAborted v n s).mesh.lock[j].holder = s.mesh.lock[j].holder := by
  by_cases h : j = n
  · rw [h, readAborted_lock_self]
  · rw [readAborted_lock_other h]

/-- A master that is no supervisor does not give way. -/
theorem supervisorRetry_of_other {w : MeshWait} (h : isSupervisor w.master = false) (s : State) :
    supervisorRetry w s = s := by
  rw [supervisorRetry, h]
  rfl

/-- A supervisor releases the locks that name it and retries after 100 µs. -/
theorem supervisorRetry_of_supervisor {w : MeshWait} (h : isSupervisor w.master = true) (s : State) :
    supervisorRetry w s = modMesh (fun x => { x with
      lock := x.lock.map fun k => if k.holder = some w.master then { k with holder := none } else k,
      retries := x.retries ++ [⟨s.now + 40000, { w with slots := 0 }⟩] }) s := by
  rw [supervisorRetry, h]
  rfl

/-- Only the locks that name a supervisor as their holder are released as it gives way. -/
theorem supervisorRetry_lock_other {w : MeshWait} {s : State} {n : Fin 64} (h : s.mesh.lock[n].holder ≠ some w.master) :
    (supervisorRetry w s).mesh.lock[n] = s.mesh.lock[n] := by
  cases hw : isSupervisor w.master
  · rw [supervisorRetry_of_other hw]
  · rw [supervisorRetry_of_supervisor hw, modMesh_mesh, Fin.getElem_fin, Vector.getElem_map]
    exact if_neg h

/-- A lock that names the supervisor is free after that. -/
theorem supervisorRetry_lock_self {w : MeshWait} {s : State} {n : Fin 64} (hw : isSupervisor w.master = true)
    (h : s.mesh.lock[n].holder = some w.master) :
    (supervisorRetry w s).mesh.lock[n] = { s.mesh.lock[n] with holder := none } := by
  rw [supervisorRetry_of_supervisor hw, modMesh_mesh, Fin.getElem_fin, Vector.getElem_map]
  exact if_pos h

/-- The waiters stay as a supervisor gives way. -/
theorem supervisorRetry_waiters (w : MeshWait) (s : State) (n : Fin 64) :
    (supervisorRetry w s).mesh.lock[n].waiters = s.mesh.lock[n].waiters := by
  by_cases h : s.mesh.lock[n].holder = some w.master
  · cases hw : isSupervisor w.master
    · rw [supervisorRetry_of_other hw]
    · rw [supervisorRetry_lock_self hw h]
  · rw [supervisorRetry_lock_other h]

/-- The log of circles stays as a supervisor gives way. -/
theorem supervisorRetry_cycCount (w : MeshWait) (s : State) :
    (supervisorRetry w s).mesh.cycCount = s.mesh.cycCount := by
  cases hw : isSupervisor w.master
  · rw [supervisorRetry_of_other hw]
  · rw [supervisorRetry_of_supervisor hw]
    rfl

/-- The supervisors are masters 0 and 1 (R18). -/
theorem isSupervisor_iff (m : Master) : isSupervisor m = true ↔ m.toNat < 2 := by
  revert m
  decide

/-! ### The probe breaks the circle -/

/-- What the probe logs of a circle of two: the victim and the lock it holds. -/
def circleLogged (v : Master) (n : Fin 64) (s : State) : State :=
  raise .mesh 3 (modMesh (fun x => { x with
    cycNoLock := false, cycLock := BitVec.ofNat 6 n.val, cycVictim := v, cycLength := 2,
    cycCount := satInc x.cycCount }) s)

/-- Logging a circle changes the log of the mesh alone. -/
theorem circleLogged_mesh (v : Master) (n : Fin 64) (s : State) : (circleLogged v n s).mesh = { s.mesh with
    cycNoLock := false, cycLock := BitVec.ofNat 6 n.val, cycVictim := v, cycLength := 2,
    cycCount := satInc s.mesh.cycCount } := by
  simp only [circleLogged, raise_frame, modMesh_mesh]

/-- Logging a circle takes no time and sends nothing. -/
theorem circleLogged_quiet (v : Master) (n : Fin 64) (s : State) :
    (circleLogged v n s).now = s.now ∧ (circleLogged v n s).outbox = s.outbox := by
  simp only [circleLogged, raise_frame, modMesh_frame, and_self]

namespace MutualWait
variable {p q : Fin 64} {x y : Master} {s : State}

/-- After the abort the victim's wait is gone and the other master's stands. -/
theorem abort_waiters (h : MutualWait p q x y s) (w : MeshWait) :
    (supervisorRetry w (readAborted x q s)).mesh.lock[q].waiters = [] ∧
      (supervisorRetry w (readAborted x q s)).mesh.lock[p].waiters = [y] := by
  constructor
  · rw [supervisorRetry_waiters, readAborted_lock_self, h.waiters']
    simp
  · rw [supervisorRetry_waiters, readAborted_lock_other h.locks, h.waiters]

/-- No lock but the victim's own may change its holder. -/
theorem abort_holder_other (h : MutualWait p q x y s) {w : MeshWait} (hw : w.master = x) {n : Fin 64} (hn : n ≠ p) :
    (supervisorRetry w (readAborted x q s)).mesh.lock[n].holder = s.mesh.lock[n].holder := by
  have hnot : (readAborted x q s).mesh.lock[n].holder ≠ some w.master := by
    rw [readAborted_holder, hw]
    exact fun e => hn ((h.holder_iff n).mp e)
  rw [supervisorRetry_lock_other hnot, readAborted_holder]

/-- A victim that is no supervisor keeps its lock. -/
theorem abort_holder_kept (h : MutualWait p q x y s) {w : MeshWait} (hw : w.master = x) (hx : 2 ≤ x.toNat) :
    (supervisorRetry w (readAborted x q s)).mesh.lock[p].holder = some x := by
  have hno : isSupervisor w.master = false := by
    rw [Bool.eq_false_iff, Ne, isSupervisor_iff, hw]
    omega
  rw [supervisorRetry_of_other hno, readAborted_holder, h.holder]

/-- A supervisor releases its lock. -/
theorem abort_holder_released (h : MutualWait p q x y s) {w : MeshWait} (hw : w.master = x) (hx : x.toNat < 2) :
    (supervisorRetry w (readAborted x q s)).mesh.lock[p].holder = none := by
  have hheld : (readAborted x q s).mesh.lock[p].holder = some w.master := by rw [readAborted_holder, h.holder, hw]
  rw [supervisorRetry_lock_self ((isSupervisor_iff _).mpr (hw ▸ hx)) hheld]

end MutualWait

/-! ### The statement -/

/-- The victim's read is aborted, a supervisor gives way, and the circle is logged. -/
def waitBroken (x : Master) (p q : Fin 64) (s : State) : State :=
  circleLogged x p (supervisorRetry ⟨x, wd (0x40100 + 4 * q.val), 4, none, 0⟩ (readAborted x q s))

/-- A broken wait answers the victim with zeros and a bus error. -/
theorem waitBroken_outbox (x : Master) (p q : Fin 64) (s : State) :
    (waitBroken x p q s).outbox = s.outbox ++ [Sent.bus x [0, 0, 0, 0] true] := by
  have hretry : (supervisorRetry ⟨x, wd (0x40100 + 4 * q.val), 4, none, 0⟩ (readAborted x q s)).outbox =
      (readAborted x q s).outbox := supervisorRetry_only _ _ .outbox (by simp)
  rw [waitBroken, (circleLogged_quiet _ _ _).2, hretry]
  rfl

/-- A supervisor's read is kept to be retried after 100 µs. -/
theorem waitBroken_retries {x : Master} (hx : x.toNat < 2) (p q : Fin 64) (s : State) :
    (⟨(waitBroken x p q s).now + 40000, ⟨x, wd (0x40100 + 4 * q.val), 4, none, 0⟩⟩ : MeshRetry) ∈
      (waitBroken x p q s).mesh.retries := by
  rw [waitBroken, (circleLogged_quiet _ _ _).1, circleLogged_mesh,
    supervisorRetry_of_supervisor ((isSupervisor_iff x).mpr hx), modMesh_mesh]
  exact List.mem_append_right _ (List.mem_singleton_self _)

/-- The probe breaks the circle of two masters at the one whose lock has the lower class, from whichever master it starts. -/
theorem MutualWait.breakCircle_eq {p q : Fin 64} {x y : Master} {s : State} (h : MutualWait p q x y s)
    (hclass : lockClass s p < lockClass s q) (hs : s.mesh.stalls = []) {c : List Master} (hc : c = [x, y] ∨ c = [y, x]) :
    breakCircle c [] s = waitBroken x p q s := by
  obtain ⟨hv, hv'⟩ := h.victim_eq hclass
  obtain rfl | rfl := hc
  · simp only [breakCircle, hv, h.topLock_eq, abortWait_of_lockWait h.lockWait_eq hs]
    rfl
  · simp only [breakCircle, hv', h.topLock_eq, abortWait_of_lockWait h.lockWait_eq hs]
    rfl

/-- The state at which the probe follows the waits: its period has passed, and the due retries are requested again. -/
def probed (s : State) : State := retryDue (periodic tkProbe (us 5) s)

/-- Up to the probe only the time and the retries change. -/
theorem probed_only (s : State) : Frame [.time, .mesh] s (probed s) :=
  (periodic_only _ _ s).trans (retryDue_only _) (by simp) (by simp)

/-- The classes of the locks are the same at the probe. -/
theorem lockClass_probed (s : State) (n : Nat) : lockClass (probed s) n = lockClass s n := by
  rw [lockClass, recD_of_key (probed_only s .key (by simp)), lockClass]

/-- The probe that finds no circle does nothing more. -/
theorem exec_cycleProbe_of_none {flow : List (Master × BitVec 6)} {s : State} (h : circleOf (probed s) flow = none) :
    exec (.cycleProbe flow) s = .next (probed s) := by
  change execCycleProbe flow s = _
  rw [probed] at h
  simp only [execCycleProbe, h, probed]

/-- The probe breaks the circle that it finds. -/
theorem exec_cycleProbe_of_some {flow : List (Master × BitVec 6)} {s : State} {c : List Master}
    (h : circleOf (probed s) flow = some c) : exec (.cycleProbe flow) s = .next (breakCircle c flow (probed s)) := by
  change execCycleProbe flow s = _
  rw [probed] at h
  simp only [execCycleProbe, h, probed]

/-- The probe breaks one wait of a circle, and finds none where nobody stalls. -/
theorem cycleProbeBreaksOneWait : Claim.CycleProbeBreaksOneWait := by
  refine fun s => ⟨fun hidle => ?_, fun p q x y hpq hx hy hxy hs hp hq hwp hwq hrest hclass => ?_⟩
  · exact ⟨_, exec_cycleProbe_of_none (circleOf_of_idle (s := probed s) hidle), now_le_periodic _ _ s, rfl, probed_only s⟩
  · have h : MutualWait p q x y (probed s) := ⟨hpq, hxy, hp, hq, hwp, hwq, hrest⟩
    replace hclass : lockClass (probed s) p < lockClass (probed s) q := by simpa only [lockClass_probed] using hclass
    have hrun : exec (.cycleProbe []) s = .next (waitBroken x p q (probed s)) := by
      obtain hc | hc := h.circleOf_eq hx
      · rw [exec_cycleProbe_of_some hc, h.breakCircle_eq hclass hs (.inl rfl)]
      · rw [exec_cycleProbe_of_some hc, h.breakCircle_eq hclass hs (.inr rfl)]
    obtain ⟨hwq', hwp'⟩ := h.abort_waiters ⟨x, wd (0x40100 + 4 * q.val), 4, none, 0⟩
    have hlatch : Latched .mesh 3 (waitBroken x p q (probed s)) := latched_raise .mesh 3 _ (by decide)
    refine ⟨_, hrun, hlatch, ?_⟩
    rw [waitBroken_outbox, waitBroken, circleLogged_mesh, supervisorRetry_cycCount]
    exact ⟨rfl, rfl, rfl, rfl, hwq', hwp', fun n hn => h.abort_holder_other rfl hn, fun h2 => h.abort_holder_kept rfl h2,
      fun h2 => ⟨h.abort_holder_released rfl h2, waitBroken_retries h2 p q _⟩, rfl⟩

/-- Settles O22: a swap is one check and one exchange of a segment; two masters that stall at each other's lock stand in one
relation, which is symmetric, so that the probe finds the same victim from either of them. -/
theorem slotTablesAndTheCycleProbe : Obligations.SlotTablesAndTheCycleProbe :=
  ⟨slotTablesSwapAtTheFrame, cycleProbeBreaksOneWait⟩

end Sys2Proof.Machine
end

section
/-! PROOFS. Triggers and converters (O25): a trigger corrects the carriers aligned to its context (R230), and a
correction moves the edges of gate commands that are on. -/

namespace Sys2Proof.Machine

/-- The image of a module in which generator 0 drives every half-bridge, is aligned to context 0 and compensates its
bootstraps (R224, R230). -/
def refillImage : List ImgRec :=
  [⟨0x40, 0, leBytes 4 2000⟩, ⟨0x50, 0, List.replicate 40 0⟩, ⟨0x51, 0, (List.replicate 32 0).set 21 1⟩]

/-- Generator 0 in the last period of a refill: PER 1000, a duty above REFILL_LIM, and the refill pulse of 500 ns at the
end of the period, at count 800. -/
def refillGen : GenState :=
  { on := true, per := 1000, accPer := 1000, duty := 31800, refill := true, rWas := 1, rFall := 25600 }

/-- A module in M8 at count 20 of that period, with the gate command of GH00 on and the trigger of context 0 due now. -/
def refillRun : State :=
  { State.reset with
    now := 20
    raw := 20
    key := { State.reset.key with records := refillImage }
    mode := { State.reset.mode with mode := 8, busy := false }
    claim := { State.reset.claim with a := { State.reset.claim.a with health := .healthy, claim := 1 } }
    plk := { State.reset.plk with enabled := BitVec.allOnes 32 }
    time := { State.reset.time with nextTrig := upd State.reset.time.nextTrig 0 (some 20) }
    gate := { State.reset.gate with ch := modAt State.reset.gate.ch 0 fun x => { x with onUntil := some 800 } }
    laneA := { State.reset.laneA with pwm := { gen := upd State.reset.laneA.pwm.gen 0 refillGen } } }

/-- The trigger finds the counter 20 counts late and lengthens the period by as much (R230): the refill pulse keeps its place
before the end of the period, and the command of GH00 ends at 820 where it ended at 800. -/
theorem loopTrigger_refillRun_onUntil : ((loopTrigger 0 40 refillRun).gate.ch[(0 : Fin 32)]).onUntil = some 820 := by
  decide +kernel

/-- Refutes O25: no step of context 0 is open, yet its trigger changes the gate channels, which the statement's frame leaves
out: the carrier's correction moves the end of a gate command that is on. -/
theorem not_convertersTriggerAndSample : ¬ Obligations.ConvertersTriggerAndSample := by
  rintro ⟨htrigger, -⟩
  obtain ⟨-, hfalls, -⟩ := htrigger refillRun 0 40 20
  obtain ⟨t, hex, -, -, -, -, hframe⟩ := hfalls rfl fun l => by cases l <;> rfl
  have ht : loopTrigger 0 40 refillRun = t := Host.Outcome.next.inj hex
  have hgate : t.gate = refillRun.gate := hframe .gate (by simp)
  have hbefore : (refillRun.gate.ch[(0 : Fin 32)]).onUntil = some 800 := rfl
  rw [← hgate, ← ht, loopTrigger_refillRun_onUntil] at hbefore
  exact absurd hbefore (by decide)

end Sys2Proof.Machine
end

section
/-! PROOFS. One pin of a lane: how a change of a pin reads back, and which operations leave the pins alone. -/

namespace Sys2Proof.Machine

/-! ### Frames -/

/-- A frame that does not name a lane leaves its measurement block. -/
theorem Frame.meas_eq {ps : List Part} {s t : State} (h : Frame ps s t) {l : Lane} (hl : lanePart l ∉ ps) :
    (t.lane l).meas = (s.lane l).meas := h.lane_keeps LaneState.meas (fun _ => rfl) hl

/-- A pin is the same where a frame leaves its lane. -/
theorem Frame.pinOf_eq {ps : List Part} {s t : State} (h : Frame ps s t) {l : Lane} (hl : lanePart l ∉ ps) (q : Fin 32) :
    Claim.pinOf l q t = Claim.pinOf l q s := by rw [Claim.pinOf, h.meas_eq hl, Claim.pinOf]

/-- Events and the board are no part of a lane. -/
theorem lanePart_notMem_events (l : Lane) : lanePart l ∉ [Part.events, .board] := by cases l <;> simp [lanePart]

/-- The wear manager is no part of a lane. -/
theorem lanePart_notMem_wear (l : Lane) : lanePart l ∉ [Part.wear, .events, .board] := by cases l <;> simp [lanePart]

section
variable (l k : Lane) (p q : Fin 32) (f : PinState → PinState) (s : State)

/-- An event leaves the measurement blocks. -/
@[simp] theorem raise_meas (r : EvReg) (n : Nat) : ((raise r n s).lane l).meas = (s.lane l).meas :=
  (raise_only r n s).meas_eq (lanePart_notMem_events l)

/-- An event leaves the pins. -/
@[simp] theorem pinOf_raise (r : EvReg) (n : Nat) : Claim.pinOf l q (raise r n s) = Claim.pinOf l q s :=
  (raise_only r n s).pinOf_eq (lanePart_notMem_events l) q

/-- A pin stays as time passes. -/
@[simp] theorem pinOf_elapseTo (n : Nat) : Claim.pinOf l q (elapseTo n s) = Claim.pinOf l q s := by
  rw [Claim.pinOf, elapseTo_lane, Claim.pinOf]

/-- A swap leaves the measurement blocks. -/
@[simp] theorem hingeSwap_meas (res lane unit spare trig ind : Nat) :
    ((hingeSwap res lane unit spare trig ind s).lane l).meas = (s.lane l).meas :=
  (hingeSwap_only res lane unit spare trig ind s).meas_eq (lanePart_notMem_wear l)

/-- A swap leaves the pins. -/
@[simp] theorem pinOf_hingeSwap (res lane unit spare trig ind : Nat) :
    Claim.pinOf l q (hingeSwap res lane unit spare trig ind s) = Claim.pinOf l q s :=
  (hingeSwap_only res lane unit spare trig ind s).pinOf_eq (lanePart_notMem_wear l) q

/-- A missing spare leaves the pins. -/
@[simp] theorem pinOf_noSpare (res lane unit trig ind : Nat) :
    Claim.pinOf l q (noSpare res lane unit trig ind s) = Claim.pinOf l q s :=
  (noSpare_only res lane unit trig ind s).pinOf_eq (lanePart_notMem_wear l) q

/-! ### One pin changed -/

/-- The pin that is changed. -/
@[simp] theorem pinOf_modPin_self : Claim.pinOf l p (modPin l p f s) = f (Claim.pinOf l p s) := by
  simp only [Claim.pinOf, modPin, modMeas_same, modAt_getElem_self]

/-- The other pins of both lanes stay. -/
theorem pinOf_modPin_other {p q : Fin 32} (h : q ≠ p) : Claim.pinOf k q (modPin l p f s) = Claim.pinOf k q s :=
  setLane_keeps (fun x => x.meas.pin[q]) s l k _ (modAt_getElem_other _ _ _ _ h)

/-- What a change of a pin keeps of it reads the same for every pin. -/
theorem pinOf_modPin_keeps {β : Type} (g : PinState → β) (h : ∀ x, g (f x) = g x) :
    g (Claim.pinOf k q (modPin l p f s)) = g (Claim.pinOf k q s) := by
  refine setLane_keeps (fun x => g x.meas.pin[q]) s l k _ ?_
  obtain rfl | hq := eq_or_ne q p
  · exact (congrArg g (modAt_getElem_self _ _ _)).trans (h _)
  · exact congrArg g (modAt_getElem_other _ _ _ _ hq)

/-- The spares in use stay where a pin changes. -/
theorem modPin_spareUsed : ((modPin l p f s).lane k).meas.spareUsed = (s.lane k).meas.spareUsed :=
  setLane_keeps (fun x => x.meas.spareUsed) s l k _ rfl

/-- A change of a pin in both lanes. -/
@[simp] theorem pinOf_modPins_self : Claim.pinOf l p (modPins p f s) = f (Claim.pinOf l p s) := by
  cases l
  · exact pinOf_modPin_self .a p f s
  · exact pinOf_modPin_self .b p f (modPin .a p f s)

/-- The spares in use stay where a pin changes in both lanes. -/
theorem modPins_spareUsed : ((modPins p f s).lane k).meas.spareUsed = (s.lane k).meas.spareUsed :=
  (modPin_spareUsed .b k p f _).trans (modPin_spareUsed .a k p f s)

end

end Sys2Proof.Machine
end

section
/-! PROOFS. Windows, open wires and the open-wire test (R124, R134). -/

namespace Sys2Proof.Machine

section
variable {l : Lane} {p : Fin 32} {s : State}

/-- A value that has left its band is reported once. -/
theorem exec_winExit_of_exit (h : (Claim.pinOf l p s).winExit ≠ 0) :
    exec (.winExit l p) s = .next (raise (.meas l) 0 (modPin l p (fun x => { x with winExit := 0 }) s)) :=
  congrArg Host.Outcome.next (if_pos h)

/-- Without an exit there is nothing to report. -/
theorem exec_winExit_of_none (h : (Claim.pinOf l p s).winExit = 0) : exec (.winExit l p) s = .next s :=
  congrArg Host.Outcome.next (if_neg (not_not.mpr h))

/-- A run at full scale that has lasted OW_TIME reports an open wire. -/
theorem exec_openWire_of_run {at0 : Nat} (h : (Claim.pinOf l p s).fullSince = some at0) (hon : pinOn p s = true)
    (how : owEn p s = true) (hopen : (Claim.pinOf l p s).opened = false) :
    exec (.openWire l p) s = .next (raise (.meas l) 1 (modPin l p (fun x => { x with opened := true })
      (elapseTo (at0 + 40000 * u16 (pinRec p s) 16) s))) := by
  have hfull : ((s.lane l).meas.pin[p]).fullSince = some at0 := h
  have hclosed : ((s.lane l).meas.pin[p]).opened = false := hopen
  change execOpenWire l p s = _
  simp only [execOpenWire, hfull, hon, how, hclosed, Bool.not_false, Bool.and_self, if_true]

/-- A pin that does not read full scale has no open wire. -/
theorem exec_openWire_of_none (h : (Claim.pinOf l p s).fullSince = none) : exec (.openWire l p) s = .next s := by
  have hfull : ((s.lane l).meas.pin[p]).fullSince = none := h
  change execOpenWire l p s = _
  simp only [execOpenWire, hfull]

/-- Outside M3 no test starts. -/
theorem exec_owTestStart_of_other (h : s.md ≠ 3) : exec (.owTestStart l) s = .next s := by
  change Host.Outcome.next (owTestStart l s) = _
  simp [owTestStart, h]

/-- In M3 the selected pin is biased for 1 ms in both lanes. -/
theorem exec_owTestStart_of_m3 (h : s.md = 3) (hsel : (s.lane l).meas.pinSel.toNat = p.val) (hon : pinOn p s = true) :
    exec (.owTestStart l) s = .next (modPins p (fun x => { x with owTest := some (s.now + 400000) }) s) := by
  have hp : (s.lane l).meas.pinSel.toFin = p := Fin.ext hsel
  change Host.Outcome.next (owTestStart l s) = _
  simp [owTestStart, h, hp, hon, ms]

/-- The end of a test judges the last sample. -/
theorem exec_owTestEnd_of_running {end0 : Nat} (h : (Claim.pinOf l p s).owTest = some end0) :
    exec (.owTestEnd l p) s = .next (modPin l p
      (fun x => { x with owTest := none, opened := (Claim.pinOf l p s).own == 0x8000#16 }) (elapseTo end0 s)) := by
  have htest : ((s.lane l).meas.pin[p]).owTest = some end0 := h
  change execOwTestEnd l p s = _
  simp only [execOwTestEnd, htest]
  rfl

end

/-- Each report is one change of its pin, and the test one of the pin in both lanes. -/
theorem windowsAndOpenWiresReport : Claim.WindowsAndOpenWiresReport := by
  refine fun s l p => ⟨fun hexit => ?_, exec_winExit_of_none, fun at0 hfull hon how hopen => ?_, exec_openWire_of_none,
    exec_owTestStart_of_other, fun hm3 hsel hon => ?_, fun end0 htest => ?_⟩
  · refine ⟨_, exec_winExit_of_exit hexit, latched_raise _ _ _ (by decide), by simp, fun q hq => ?_, ?_⟩
    · rw [pinOf_raise, pinOf_modPin_other _ _ _ _ hq]
    · exact (modPin_only l p _ s).trans (raise_only _ _ _) (by simp) (by simp)
  · refine ⟨_, exec_openWire_of_run hfull hon how hopen, latched_raise _ _ _ (by decide), by simp, ?_, ?_⟩
    · rw [(raise_only _ _ _).now_eq (by simp), (modPin_only _ _ _ _).now_eq (time_notMem_lanePart l),
        elapseTo_now_eq_max]
    · exact ((elapseTo_only _ s).trans (modPin_only l p _ _) (rs := [lanePart l, .time]) (by simp) (by simp)).trans
        (raise_only _ _ _) (by simp) (by simp)
  · exact ⟨_, exec_owTestStart_of_m3 hm3 hsel hon, fun x => pinOf_modPins_self x p _ s, modPins_only p _ s⟩
  · refine ⟨_, exec_owTestEnd_of_running htest, ?_, by simp, by simp, fun q hq => ?_, ?_⟩
    · rw [(modPin_only _ _ _ _).now_eq (time_notMem_lanePart l), elapseTo_now_eq_max]
    · rw [pinOf_modPin_other _ _ _ _ hq, pinOf_elapseTo]
    · exact (elapseTo_only _ s).trans (modPin_only l p _ _) (by simp) (by simp)

end Sys2Proof.Machine
end

section
/-! PROOFS. The cross-check, its votes and the spares (O26; R127, R128, R134). -/

namespace Sys2Proof.Machine

/-! ### Free spares -/

/-- The free spares of a lane are read from the spares in use and from the votes and swaps of the pins. -/
theorem firstSpare_congr {s t : State} (hused : ∀ k, (t.lane k).meas.spareUsed = (s.lane k).meas.spareUsed)
    (hvote : ∀ k q, (Claim.pinOf k q t).vote = (Claim.pinOf k q s).vote)
    (hswap : ∀ k q, (Claim.pinOf k q t).swap = (Claim.pinOf k q s).swap) (l : Lane) : firstSpare l t = firstSpare l s := by
  simp only [Claim.pinOf] at hvote hswap
  simp only [firstSpare, spareFree, hused, hvote, hswap]

/-! ### Reports of the cross-check (R127) -/

/-- A run of differences has been reported for a pin. -/
def xchkReported (l : Lane) (p : Fin 32) (s : State) : State :=
  raise (.meas l) 2 (modPin l p (fun x => { x with xchkDue := false, xchkBad := true, xchkGood := 0 }) s)

section
variable {l : Lane} {p : Fin 32} {s : State}

/-- A report that is due leads to a vote. -/
theorem exec_xchkFail_of_due (h : (Claim.pinOf l p s).xchkDue = true) :
    exec (.xchkFail l p) s = .next (startVote l p (xchkReported l p s)) := congrArg Host.Outcome.next (if_pos h)

/-- Without a run of differences there is nothing to report. -/
theorem exec_xchkFail_of_idle (h : (Claim.pinOf l p s).xchkDue = false) : exec (.xchkFail l p) s = .next s :=
  congrArg Host.Outcome.next (if_neg (Bool.eq_false_iff.mp h))

/-- A report leaves the votes. -/
theorem xchkReported_vote (k : Lane) (q : Fin 32) :
    (Claim.pinOf k q (xchkReported l p s)).vote = (Claim.pinOf k q s).vote := by
  rw [xchkReported, pinOf_raise]
  exact pinOf_modPin_keeps _ _ _ _ _ _ PinState.vote fun _ => rfl

/-- A report leaves the spares. -/
theorem firstSpare_xchkReported (k : Lane) : firstSpare k (xchkReported l p s) = firstSpare k s := by
  refine firstSpare_congr (fun k => ?_) xchkReported_vote (fun k q => ?_) k
  · rw [xchkReported, raise_meas, modPin_spareUsed]
  · rw [xchkReported, pinOf_raise]
    exact pinOf_modPin_keeps _ _ _ _ _ _ PinState.swap fun _ => rfl

/-- The pin that is reported. -/
theorem xchkReported_bad : (Claim.pinOf l p (xchkReported l p s)).xchkBad = true := by simp [xchkReported]

/-- The report. -/
theorem latched_xchkReported : Latched (.meas l) 2 (xchkReported l p s) := latched_raise _ _ _ (by decide)

/-- A report changes its lane and the events alone. -/
theorem xchkReported_only : Frame [.laneA, .laneB, .events, .board] s (xchkReported l p s) :=
  .under (raise_only _ _ _) (by simp) ((modPin_only l p _ s).mono (by cases l <;> simp [lanePart]))

/-! ### Votes (R127) -/

/-- A vote takes the first free spare of lane A. -/
theorem startVote_of_spare {k : Fin 4} (hv : ∀ x, (Claim.pinOf x p s).vote = none) (hk : firstSpare .a s = some k) :
    startVote l p s = modPins p (fun x => { x with vote := some (.a, k) }) s := by
  have ha : ((s.lane .a).meas.pin[p]).vote = none := hv .a
  have hb : ((s.lane .b).meas.pin[p]).vote = none := hv .b
  simp only [startVote, ha, hb, hk, Option.isSome_none, Bool.or_self, Bool.false_eq_true, if_false]

/-- Without a free spare in either lane no vote starts. -/
theorem startVote_of_no_spare (hv : ∀ x, (Claim.pinOf x p s).vote = none) (ha0 : firstSpare .a s = none)
    (hb0 : firstSpare .b s = none) : startVote l p s =
      raise (.meas l) 4 (noSpare 3 (laneNum l) p.val 5 (Claim.pinOf l p s).xchkMax.toNat s) := by
  have ha : ((s.lane .a).meas.pin[p]).vote = none := hv .a
  have hb : ((s.lane .b).meas.pin[p]).vote = none := hv .b
  simp only [startVote, ha, hb, ha0, hb0, Option.isSome_none, Bool.or_self, Bool.false_eq_true, if_false, Claim.pinOf]

/-- The vote of a pin has ended. -/
def voteEnded (p : Fin 32) (s : State) : State := modPins p (fun x => { x with vote := none }) s

/-- Spare k of the lane is to take over for a pin that a vote found faulty. -/
def swapAsked (k : Fin 4) (x : PinState) : PinState := { x with swap := some (k, true), swapLeft := 16, swapDue := false }

variable {k : Fin 4} {sp sc ss : Int}

/-- A vote that finds the primary converter of lane A alone faulty makes lane B's the primary one, and asks for the voting
spare of lane A in its place (R127, R128). -/
theorem voteDone_of_primary_faulty (hv : (Claim.pinOf .a p s).vote = some (.a, k))
    (hp : (Claim.pinOf .a p s).primaryB = false) (hbad : 64 * xchkTol p s < (sp - ss).natAbs)
    (hgood : (sc - ss).natAbs ≤ 64 * xchkTol p s) :
    voteDone p sp sc ss s = modPin .a p (swapAsked k)
      (modPins p (fun x => { x with primaryB := !x.primaryB }) (voteEnded p s)) := by
  have hv' : ((s.lane .a).meas.pin[p]).vote = some (.a, k) := hv
  have hp' : ((s.lane .a).meas.pin[p]).primaryB = false := hp
  simp only [voteDone, hv', hp', Option.some_or, hbad, Nat.not_lt.mpr hgood]
  rfl

/-- A vote that finds both converters or neither faulty changes nothing but its own end (R127). -/
theorem voteDone_of_undecided {v : Lane × Fin 4} (hv : (Claim.pinOf .a p s).vote = some v)
    (h : (sp - ss).natAbs ≤ 64 * xchkTol p s ↔ (sc - ss).natAbs ≤ 64 * xchkTol p s) :
    voteDone p sp sc ss s = voteEnded p s := by
  have hv' : ((s.lane .a).meas.pin[p]).vote = some v := hv
  have hsame : decide (64 * xchkTol p s < (sc - ss).natAbs) = decide (64 * xchkTol p s < (sp - ss).natAbs) :=
    decide_eq_decide.mpr (by omega)
  simp only [voteDone, hv', hsame, Option.some_or, Bool.and_not_self, Bool.false_eq_true, if_false, voteEnded]

/-! ### Spares that take over (R128) -/

/-- Spare k of a lane serves a pin in place of its converter; a vote that asked for it is settled. -/
def spareConnected (l : Lane) (p : Fin 32) (k : Fin 4) (voted : Bool) (s : State) : State :=
  when voted (modPins p fun x => { x with xchkBad := false, xchkRun := 0, xchkGood := 0 })
    (modPin l p (fun x => { x with swap := none, swapDue := false, conv := k.succ })
      (modMeas l (fun m => { m with spareUsed := upd m.spareUsed k true }) s))

/-- A spare that is due takes over. -/
theorem exec_spareIn_of_due {w : Bool} (hs : (Claim.pinOf l p s).swap = some (k, w))
    (hd : (Claim.pinOf l p s).swapDue = true) : exec (.spareIn l p) s =
      .next (raise (.meas l) 3 (hingeSwap 3 (laneNum l) p.val k.val (if w then 5 else 4)
        (Claim.pinOf l p s).xchkMax.toNat (spareConnected l p k w s))) := by
  have hs' : ((s.lane l).meas.pin[p]).swap = some (k, w) := hs
  have hd' : ((s.lane l).meas.pin[p]).swapDue = true := hd
  change Host.Outcome.next (when ((s.lane l).meas.pin[p]).swapDue (spareIn l p) s) = _
  rw [hd', when, if_pos rfl, spareIn, hs']
  rfl

/-- A spare that is not due waits. -/
theorem exec_spareIn_of_waiting (hd : (Claim.pinOf l p s).swapDue = false) : exec (.spareIn l p) s = .next s :=
  congrArg Host.Outcome.next (if_neg (Bool.eq_false_iff.mp hd))

/-- The pin that a spare serves: its chain goes on. -/
theorem pinOf_spareConnected (w : Bool) : (Claim.pinOf l p (spareConnected l p k w s)).swap = none ∧
    (Claim.pinOf l p (spareConnected l p k w s)).conv = k.succ ∧
    (Claim.pinOf l p (spareConnected l p k w s)).hist = (Claim.pinOf l p s).hist := by
  have hpin : Claim.pinOf l p (modMeas l (fun m => { m with spareUsed := upd m.spareUsed k true }) s) = Claim.pinOf l p s :=
    setLane_keeps (fun x => x.meas.pin[p]) s l l _ rfl
  cases w <;> simp [spareConnected, when, hpin]

/-- The spare is in use. -/
theorem spareConnected_used (w : Bool) : ((spareConnected l p k w s).lane l).meas.spareUsed[k] = true := by
  have hset : (upd (s.lane l).meas.spareUsed k true)[k] = true := modAt_getElem_self _ k fun _ => true
  cases w <;> simp [spareConnected, when, modPins_spareUsed, modPin_spareUsed, hset]

/-- A settled vote clears XCHK_BAD in both lanes. -/
theorem spareConnected_voted (x : Lane) : (Claim.pinOf x p (spareConnected l p k true s)).xchkBad = false := by
  simp [spareConnected, when]

/-- The spares of a lane whose converters run are calibrated every second. -/
theorem exec_spareCalibrate_of_running (hup : laneUp l s = true) (hmd : 3 ≤ s.md) :
    exec (.spareCalibrate l) s = .next (periodic (tkSpareCal l) (secs 1) s) :=
  congrArg Host.Outcome.next (if_pos (by simp [measRuns, hup, hmd]))

end

/-! ### The statement -/

/-- A report leaves what a vote is started from, and a vote or a take-over is one change of its pin in both lanes. -/
theorem crossChecksVoteAndReplace : Claim.CrossChecksVoteAndReplace := by
  refine fun s p tol htol hv => ⟨fun l k hdue hk => ?_, fun l hdue ha hb => ?_, fun l => exec_xchkFail_of_idle,
    fun sp sc ss k v hvote hpa hpb => ⟨fun hbad hgood => ?_, fun hsame => ?_⟩, fun l k w hswap hdue => ?_,
    fun l => exec_spareIn_of_waiting, fun l hup hmd => ?_⟩
  · have hvote (x : Lane) : (Claim.pinOf x p (xchkReported l p s)).vote = none := (xchkReported_vote x p).trans (hv x)
    have hex := exec_xchkFail_of_due hdue
    rw [startVote_of_spare hvote ((firstSpare_xchkReported .a).trans hk)] at hex
    refine ⟨_, hex, (modPins_only _ _ _).eventsKept (by simp) _ _ latched_xchkReported, ?_, fun x => ?_, ?_⟩
    · rw [pinOf_modPins_self]
      exact xchkReported_bad
    · rw [pinOf_modPins_self]
    · exact .under (modPins_only _ _ _) (by simp) xchkReported_only
  · have hvote (x : Lane) : (Claim.pinOf x p (xchkReported l p s)).vote = none := (xchkReported_vote x p).trans (hv x)
    have hex := exec_xchkFail_of_due hdue
    rw [startVote_of_no_spare hvote ((firstSpare_xchkReported .a).trans ha) ((firstSpare_xchkReported .b).trans hb)] at hex
    refine ⟨_, hex, ?_, latched_raise _ _ _ (by decide), ?_, fun x => ?_⟩
    · exact raise_eventsKept _ _ (by decide) _ _ _ (noSpare_eventsKept _ _ _ _ _ _ _ _ latched_xchkReported)
    · rw [pinOf_raise, pinOf_noSpare]
      exact xchkReported_bad
    · rw [pinOf_raise, pinOf_noSpare, hvote]
  · subst hvote htol
    refine ⟨_, congrArg Host.Outcome.next (voteDone_of_primary_faulty (k := k) (by simp) (by simpa using hpa) hbad hgood),
      fun x => ⟨?_, ?_⟩, by simp [swapAsked]⟩
    · have hprimary : (Claim.pinOf x p s).primaryB = false := by
        cases x
        · exact hpa
        · exact hpb
      rw [pinOf_modPin_keeps .a x p p (swapAsked k) _ PinState.primaryB fun _ => rfl]
      simp [voteEnded, hprimary]
    · rw [pinOf_modPin_keeps .a x p p (swapAsked k) _ PinState.vote fun _ => rfl]
      simp [voteEnded]
  · subst hvote htol
    refine ⟨_, congrArg Host.Outcome.next (voteDone_of_undecided (v := (.a, k)) (by simp) hsame), fun x => ?_⟩
    have hnone := hv x
    simp only [voteEnded, pinOf_modPins_self]
    rw [← hnone]
  · obtain ⟨hswap', hconv, hhist⟩ := pinOf_spareConnected (l := l) (p := p) (s := s) (k := k) w
    refine ⟨_, exec_spareIn_of_due hswap hdue, latched_raise _ _ _ (by decide), ?_, ?_, ?_, ?_, ?_⟩
    · rw [pinOf_raise, pinOf_hingeSwap, hswap']
    · rw [pinOf_raise, pinOf_hingeSwap, hconv]
    · rw [raise_meas, hingeSwap_meas, spareConnected_used]
    · rw [pinOf_raise, pinOf_hingeSwap, hhist]
    · rintro rfl x
      rw [pinOf_raise, pinOf_hingeSwap, spareConnected_voted]
  · exact ⟨_, exec_spareCalibrate_of_running hup hmd, now_le_periodic _ _ s, periodic_only _ _ s⟩

/-- Settles O26: a report, a vote and a take-over are each a change of one pin, in its lane or in both, that the events
raised beside it leave alone. -/
theorem measurementFaultsAreReported : Obligations.MeasurementFaultsAreReported :=
  ⟨windowsAndOpenWiresReport, crossChecksVoteAndReplace⟩

end Sys2Proof.Machine
end

section
/-! PROOFS. Steps that fail and FMA units (O29): a missed deadline, the third in a row (R144, R147, R148), and units that leave
the pool (R166, R362, R367; log entry 36). -/

namespace Sys2Proof.Machine

/-! ### A step given up -/

/-- A context gives up its step, and its run of misses grows (R147, R148). -/
def giveUp (x : EngCtx) : EngCtx :=
  { x with run := none, vec := none, vecDue := false, missRun := if x.missRun.val < 3 then x.missRun + 1 else x.missRun }

/-- Below the third miss the run grows by one. -/
theorem giveUp_missRun {x : EngCtx} (h : x.missRun.val < 2) : (giveUp x).missRun.val = x.missRun.val + 1 := by
  simp only [giveUp, if_pos (Nat.lt_succ_of_lt h), Fin.val_add, Fin.val_one]
  omega

/-- The third miss in a row marks and faults the lane (R148). -/
def reportLane (l : Lane) (s : State) : State :=
  faultLane l 2 (raise (.eng l) 1 (modEng l (fun e => { e with laneFault := true }) s))

/-- A context may have resumed its suspended step: at most the time since when it runs differs (R144). -/
def Resumed (x y : EngCtx) : Prop :=
  ∃ f : RunStep → Option Nat, y = { x with run := x.run.map fun r => { r with since := f r } }

theorem Resumed.refl (x : EngCtx) : Resumed x x := ⟨fun r => r.since, by simp⟩

/-- A step whose time is set anew is still the same step. -/
theorem Resumed.setSince {x y : EngCtx} (h : Resumed x y) (f : RunStep → Option Nat) :
    Resumed x { y with run := y.run.map fun r => { r with since := f r } } := by
  obtain ⟨g, rfl⟩ := h
  exact ⟨fun r => f { r with since := g r }, by simp [Function.comp_def]⟩

/-- All but the step stays, and of the step all but its time. -/
theorem Resumed.run_eq {x y : EngCtx} (h : Resumed x y) : y = { x with run := y.run } ∧
    y.run = x.run.map fun r => { r with since := (y.run.map (·.since)).getD none } := by
  obtain ⟨f, rfl⟩ := h
  exact ⟨rfl, by cases x.run <;> rfl⟩

section
variable (l : Lane) (c d : Fin 8) (s : State)

/-- Where steps resume, every context keeps all but the time since when its step runs. -/
theorem resumeRuns_resumed : Resumed (Claim.ctxOf l d s) (Claim.ctxOf l d (resumeRuns l s)) := by
  refine foldS_invariant (fun t => Resumed (Claim.ctxOf l d s) (Claim.ctxOf l d t)) _ (fun e t ht => ?_) (.refl _)
  split
  · exact ht
  · by_cases he : d = e
    · subst he
      rw [ctxOf_modCtx_self]
      exact ht.setSince fun r => r.since.or (some t.now)
    · rwa [ctxOf_modCtx_other l he]

theorem freezeTaps_quiet {w : Bool} (k : Lane) (event : Nat) (pending : Bool) :
    EngineQuiet w k s (freezeTaps l c event pending s) := .foldS _ (fun _ t => modTap_quiet k l t _ _) s

theorem settleFreeze_quiet {w : Bool} (k : Lane) : EngineQuiet w k s (settleFreeze l c s) :=
  .foldS _ (fun _ t => modTap_quiet k l t _ _) s

theorem reportLane_quiet {w : Bool} (k : Lane) : EngineQuiet w k s (reportLane l s) := by
  have hmark : EngineQuiet w k s (modEng l (fun e => { e with laneFault := true }) s) := .setLane rfl fun _ => rfl
  exact (hmark.trans (raise_quiet k _ _ _)).trans (.of_frame (faultLane_only l 2 _) (by simp))

/-- A step given up: the context changes, waiting freezes settle, others resume, and a third miss is reported. -/
theorem failStep_eq : failStep l c s = when (decide ((Claim.ctxOf l c s).missRun.val = 2)) (reportLane l)
    (resumeRuns l (settleFreeze l c (modCtx l c giveUp s))) := rfl

/-- Before the third miss nothing is reported. -/
theorem failStep_of_few {s : State} (h : (Claim.ctxOf l c s).missRun.val < 2) :
    failStep l c s = resumeRuns l (settleFreeze l c (modCtx l c giveUp s)) := by
  rw [failStep_eq, decide_eq_false h.ne]
  rfl

/-- The context that gives up its step. -/
theorem ctxOf_failStep_self : Claim.ctxOf l c (failStep l c s) = giveUp (Claim.ctxOf l c s) := by
  have hctx : Claim.ctxOf l c (settleFreeze l c (modCtx l c giveUp s)) = giveUp (Claim.ctxOf l c s) := by
    rw [(settleFreeze_quiet (w := false) l c _ l).ctxOf_eq, ctxOf_modCtx_self]
  rw [failStep_eq, (EngineQuiet.when (w := false) (reportLane_quiet l _ l)).ctxOf_eq,
    resumeRuns_ctxOf l c _ (congrArg EngCtx.run hctx), hctx]

/-- Of the other contexts only suspended steps go on (R144). -/
theorem failStep_resumed {c d : Fin 8} (h : d ≠ c) : Resumed (Claim.ctxOf l d s) (Claim.ctxOf l d (failStep l c s)) := by
  have hctx : Claim.ctxOf l d (settleFreeze l c (modCtx l c giveUp s)) = Claim.ctxOf l d s := by
    rw [(settleFreeze_quiet (w := false) l c _ l).ctxOf_eq, ctxOf_modCtx_other l h]
  rw [failStep_eq, (EngineQuiet.when (w := false) (reportLane_quiet l _ l)).ctxOf_eq, ← hctx]
  exact resumeRuns_resumed l d _

/-- A step given up clears no event. -/
theorem failStep_eventsKept : EventsKept s (failStep l c s) := by
  have hframe : Frame [lanePart l] s (resumeRuns l (settleFreeze l c (modCtx l c giveUp s))) :=
    ((modCtx_only l c _ s).comp (settleFreeze_only l c _)).comp (resumeRuns_only l _)
  have hlane : EventsKept s (resumeRuns l (settleFreeze l c (modCtx l c giveUp s))) :=
    hframe.eventsKept (by cases l <;> simp [lanePart])
  have hreport (t : State) : EventsKept t (reportLane l t) :=
    (((modEng_only l _ t).eventsKept (by cases l <;> simp [lanePart])).trans (raise_eventsKept _ _ (by decide) _)).trans
      (faultLane_eventsKept l 2 _)
  rw [failStep_eq]
  cases decide ((Claim.ctxOf l c s).missRun.val = 2)
  · exact hlane
  · exact hlane.trans (hreport _)

end

/-! ### What a lane keeps -/

/-- A lane without its SRAM, and without the contexts and taps of its engine. -/
def stepless (x : LaneState) : LaneState :=
  { x with sram := [], eng := { x.eng with ctx := Vector.replicate 8 {}, tap := Vector.replicate 64 {} } }

section
variable (l k : Lane) (c : Fin 8) (s : State)

theorem stepless_modCtx (f : EngCtx → EngCtx) : stepless ((modCtx l c f s).lane k) = stepless (s.lane k) :=
  setLane_keeps stepless s l k _ rfl

theorem stepless_modTap (i : Fin 64) (f : TraceTap → TraceTap) :
    stepless ((modTap l i f s).lane k) = stepless (s.lane k) := setLane_keeps stepless s l k _ rfl

theorem stepless_freezeTaps (event : Nat) (pending : Bool) :
    stepless ((freezeTaps l c event pending s).lane k) = stepless (s.lane k) :=
  foldS_keeps (fun t => stepless (t.lane k)) _ _ s fun _ t => stepless_modTap l k t _ _

theorem stepless_settleFreeze : stepless ((settleFreeze l c s).lane k) = stepless (s.lane k) :=
  foldS_keeps (fun t => stepless (t.lane k)) _ _ s fun _ t => stepless_modTap l k t _ _

theorem stepless_resumeRuns : stepless ((resumeRuns l s).lane k) = stepless (s.lane k) := by
  refine foldS_keeps (fun t => stepless (t.lane k)) _ _ s fun d t => ?_
  split
  · rfl
  · exact stepless_modCtx l k d t _

/-- Before the third miss a step given up leaves nodes, generators and units: all but contexts and taps. -/
theorem stepless_failStep {s : State} (h : (Claim.ctxOf l c s).missRun.val < 2) :
    stepless ((failStep l c s).lane k) = stepless (s.lane k) := by
  rw [failStep_of_few l c h, stepless_resumeRuns, stepless_settleFreeze, stepless_modCtx]

end

/-! ### The third miss -/

/-- The claim of a lane stays where a frame leaves the claims. -/
theorem Frame.lc_eq {ps : List Part} {s t : State} (h : Frame ps s t) (hp : .claim ∉ ps) (l : Lane) : t.lc l = s.lc l := by
  have hclaim : t.claim = s.claim := h _ hp
  cases l <;> simp [State.lc, hclaim]

/-- A lane that takes part is faulted: its claim falls, the cause is recorded and its event raised (R253). -/
theorem faultLane_effect {l : Lane} (cause : Nat) {s : State}
    (h : (s.lc l).health = .healthy ∨ (s.lc l).health = .matching ∨ (s.lc l).health = .mirror) :
    ((faultLane l cause s).lc l).claim = 0 ∧ ((faultLane l cause s).lc l).cause = BitVec.ofNat 8 cause ∧
      Latched .clm (clmFaultBit l) (faultLane l cause s) := by
  have hbit : clmFaultBit l < 32 := by cases l <;> decide
  have hpresent : (s.lc l).health ≠ .absent := by intro h'; simp [h'] at h
  have hactive : ¬ ((s.lc l).health = .faulted || (s.lc l).health = .parked) = true := by
    obtain h | h | h := h <;> simp [h]
  unfold faultLane
  rw [if_neg hpresent, if_neg hactive]
  extract_lets fs park health s1 s2
  have hlc : (raiseIf park .clm 8 (raise .clm (clmFaultBit l) s2)).lc l = s1.lc l :=
    (((raise_only _ _ s2).comp (raiseIf_only _ _ _ _)).lc_eq (by simp) l).trans (modLc_lc_other (otherLane_ne l).symm _ s1)
  rw [hlc, modLc_lc_self]
  exact ⟨rfl, rfl, raiseIf_eventsKept _ _ _ (by decide) _ _ _ (latched_raise _ _ _ hbit)⟩

/-- A report marks the lane, raises DEADLINE_FAULT and faults a lane that takes part on cause 2 (R148). -/
theorem reportLane_effect (l : Lane) (s : State) :
    Latched (.eng l) 1 (reportLane l s) ∧ ((reportLane l s).lane l).eng.laneFault = true ∧
      ((s.lc l).health = .healthy ∨ (s.lc l).health = .matching ∨ (s.lc l).health = .mirror →
        ((reportLane l s).lc l).claim = 0 ∧ ((reportLane l s).lc l).cause = 2 ∧
          Latched .clm (clmFaultBit l) (reportLane l s)) := by
  refine ⟨faultLane_eventsKept l 2 _ _ _ (latched_raise _ _ _ (by decide)), ?_, fun h => ?_⟩
  · have hframe := ((raise_only (.eng l) 1 (modEng l (fun e => { e with laneFault := true }) s)).mono
      fun p hp => List.mem_cons_of_mem _ hp).comp (faultLane_only l 2 _)
    rw [reportLane, hframe.lane_keeps (fun x => x.eng.laneFault) (fun _ => rfl) (by cases l <;> simp [lanePart]),
      modEng_same]
  · have hlc : (raise (.eng l) 1 (modEng l (fun e => { e with laneFault := true }) s)).lc l = s.lc l :=
      ((raise_only _ _ _).lc_eq (by simp) l).trans ((modEng_only l _ s).lc_eq (by cases l <;> simp [lanePart]) l)
    rw [← hlc] at h
    exact faultLane_effect 2 h

/-! ### Missed deadlines -/

/-- A miss is counted and raised, and the taps that wait for it freeze (R147, R163). -/
def noteMiss (l : Lane) (c : Fin 8) (s : State) : State :=
  freezeTaps l c 1 false (raise (.eng l) 0 (modCtx l c (fun x => { x with misses := satInc x.misses }) s))

section
variable (l : Lane) (c : Fin 8) (s : State)

theorem missStep_eq : missStep l c s = failStep l c (noteMiss l c s) := rfl

theorem noteMiss_latched : Latched (.eng l) 0 (noteMiss l c s) :=
  (freezeTaps_only l c 1 false _).eventsKept (by cases l <;> simp [lanePart]) _ _ (latched_raise _ _ _ (by decide))

/-- A miss is counted in its context. -/
theorem ctxOf_noteMiss_self :
    Claim.ctxOf l c (noteMiss l c s) = { Claim.ctxOf l c s with misses := satInc (Claim.ctxOf l c s).misses } := by
  rw [noteMiss, (freezeTaps_quiet (w := false) l c _ l 1 false).ctxOf_eq, (raise_quiet (w := false) l _ _ _).ctxOf_eq,
    ctxOf_modCtx_self]

/-- The other contexts count no miss. -/
theorem ctxOf_noteMiss_other {c d : Fin 8} (h : d ≠ c) : Claim.ctxOf l d (noteMiss l c s) = Claim.ctxOf l d s := by
  rw [noteMiss, (freezeTaps_quiet (w := false) l c _ l 1 false).ctxOf_eq, (raise_quiet (w := false) l _ _ _).ctxOf_eq,
    ctxOf_modCtx_other l h]

theorem noteMiss_claim : (noteMiss l c s).claim = s.claim :=
  (((modCtx_only l c _ s).mono (by simp)).comp (((raise_only _ _ _).mono (by simp)).comp
    ((freezeTaps_only l c 1 false _).mono (by simp))) : Frame [lanePart l, .events, .board] s (noteMiss l c s))
    .claim (by cases l <;> simp [lanePart])

theorem stepless_noteMiss (k : Lane) : stepless ((noteMiss l c s).lane k) = stepless (s.lane k) := by
  rw [noteMiss, stepless_freezeTaps, (raise_only _ _ _).lane_keeps stepless (fun _ => rfl) (lanePart_notMem_events k),
    stepless_modCtx]

/-- The context of a step that misses its DEADLINE. -/
theorem ctxOf_missStep_self : Claim.ctxOf l c (missStep l c s) =
    giveUp { Claim.ctxOf l c s with misses := satInc (Claim.ctxOf l c s).misses } := by
  rw [missStep_eq, ctxOf_failStep_self, ctxOf_noteMiss_self]

/-- Before the third miss only the engine's steps and taps change: the claims, the nodes and the generators stay. -/
theorem missStep_of_few {s : State} (h : (Claim.ctxOf l c s).missRun.val < 2) :
    (missStep l c s).claim = s.claim ∧ stepless ((missStep l c s).lane l) = stepless (s.lane l) := by
  have h' : (Claim.ctxOf l c (noteMiss l c s)).missRun.val < 2 := by rwa [ctxOf_noteMiss_self]
  rw [missStep_eq]
  refine ⟨?_, (stepless_failStep l l c h').trans (stepless_noteMiss l c s l)⟩
  rw [failStep_of_few l c h', ← noteMiss_claim l c s]
  exact (((modCtx_only l c _ _).comp (settleFreeze_only l c _)).comp (resumeRuns_only l _)) .claim
    (by cases l <;> simp [lanePart])

/-- The third miss in a row is a report (R148). -/
theorem missStep_of_third {s : State} (h : (Claim.ctxOf l c s).missRun.val = 2) :
    ∃ t, missStep l c s = reportLane l t ∧ t.lc l = s.lc l := by
  have h' : (Claim.ctxOf l c (noteMiss l c s)).missRun.val = 2 := by rwa [ctxOf_noteMiss_self]
  refine ⟨resumeRuns l (settleFreeze l c (modCtx l c giveUp (noteMiss l c s))), ?_, ?_⟩
  · rw [missStep_eq, failStep_eq, decide_eq_true h']
    rfl
  · have hnote : (noteMiss l c s).lc l = s.lc l := by cases l <;> simp [State.lc, noteMiss_claim]
    rw [← hnote]
    exact (((modCtx_only l c _ _).comp (settleFreeze_only l c _)).comp (resumeRuns_only l _)).lc_eq
      (by cases l <;> simp [lanePart]) l

end

/-- An open step misses its DEADLINE when that has passed (R147). -/
theorem exec_deadlineMiss_of_open {l : Lane} {c : Fin 8} {s : State} (hused : ctxUsed l c s = true)
    (hopen : stepOpen (Claim.ctxOf l c s) = true) : exec (.deadlineMiss l c) s =
      .next (missStep l c (elapseTo ((Claim.ctxOf l c s).trigAt + u32 (recD s 0x40 c.val) 4) s)) :=
  congrArg Host.Outcome.next (if_pos (Bool.and_eq_true_iff.mpr ⟨hused, hopen⟩))

/-- A missed deadline is one step given up at its due time, and a third in a row is reported. -/
theorem missedDeadlinesFaultTheLane : Claim.MissedDeadlinesFaultTheLane := by
  intro s l c hused hopen
  refine ⟨_, exec_deadlineMiss_of_open hused hopen, ?_⟩
  rw [← elapseTo_now_eq_max]
  generalize hs' : elapseTo ((Claim.ctxOf l c s).trigAt + u32 (recD s 0x40 c.val) 4) s = s'
  have hctx (d : Fin 8) : Claim.ctxOf l d s = Claim.ctxOf l d s' := by rw [← hs', ctxOf_elapseTo]
  have hlane : s.lane l = s'.lane l := by rw [← hs', elapseTo_lane]
  have hclaim : s.claim = s'.claim := by rw [← hs']; rfl
  have hlc : s.lc l = s'.lc l := by rw [← hs', elapseTo_lc]
  simp only [hctx, hlane, hclaim, hlc]
  have hself := ctxOf_missStep_self l c s'
  refine ⟨failStep_eventsKept l c _ _ _ (noteMiss_latched l c s'), congrArg EngCtx.misses hself, congrArg EngCtx.run hself,
    congrArg EngCtx.vec hself, congrArg EngCtx.vecDue hself, (missStep_only l c s').now_eq (by cases l <;> simp [lanePart]),
    fun d hd => ?_, fun hfew => ?_, fun hthird => ?_⟩
  · rw [← ctxOf_noteMiss_other l s' hd]
    exact (failStep_resumed l _ hd).run_eq
  · obtain ⟨hkept, hrest⟩ := missStep_of_few l c hfew
    refine ⟨?_, hkept, congrArg (fun x => x.eng.nodes) hrest, congrArg (fun x => x.pwm) hrest⟩
    rw [hself]
    exact giveUp_missRun hfew
  · obtain ⟨t, ht, htlc⟩ := missStep_of_third l c hthird
    rw [ht, ← htlc]
    exact reportLane_effect l t

/-! ### FMA units -/

/-- A unit leaves the pool: noted, and FMA_ERR raised (R166). -/
def unitOut (l : Lane) (u : Fin 18) (s : State) : State :=
  raise (.eng l) 8 (modEng l (fun e => { e with fmaLost := u :: e.fmaLost }) s)

section
variable {l : Lane} {u : Fin 18} {s : State}

/-- A unit outside the pool has no place that a spare takes: it is withdrawn. -/
theorem loseUnit_of_idle (hu : u ∉ (s.lane l).eng.fmaLost) (hp : u ∉ fmaPool (s.lane l).eng.fmaLost) :
    loseUnit l u s = modWear (fun w => { w with
      used := put' w.used (laneNum l) (BitVec.ofNat 16 (spareUsed 0 (laneNum l) s + 1)) }) (unitOut l u s) := by
  simp [loseUnit, unitOut, hu, hp]

/-- While fewer than two units are lost a spare takes the place of a unit of the pool (R362). -/
theorem loseUnit_of_spare (hu : u ∉ (s.lane l).eng.fmaLost) (hp : u ∈ fmaPool (s.lane l).eng.fmaLost)
    (hl : (s.lane l).eng.fmaLost.length < 2) :
    loseUnit l u s = hingeSwap 0 (laneNum l) u.val (spareUsed 0 (laneNum l) s) 1 1 (raise (.eng l) 9 (unitOut l u s)) := by
  simp [loseUnit, unitOut, hu, hp, hl]

/-- Without a spare the engine goes on with fewer units (R367). -/
theorem loseUnit_of_no_spare (hu : u ∉ (s.lane l).eng.fmaLost) (hp : u ∈ fmaPool (s.lane l).eng.fmaLost)
    (hl : ¬ (s.lane l).eng.fmaLost.length < 2) :
    loseUnit l u s = noSpare 0 (laneNum l) u.val 1 1 (raise (.eng l) 10 (unitOut l u s)) := by
  simp [loseUnit, unitOut, hu, hp, hl]

/-- Whatever takes the place of a unit that leaves, the lanes stay and no event is cleared. -/
theorem loseUnit_after_unitOut (hu : u ∉ (s.lane l).eng.fmaLost) :
    Frame [.wear, .events, .board] (unitOut l u s) (loseUnit l u s) ∧ EventsKept (unitOut l u s) (loseUnit l u s) := by
  have hraise (k : Nat) : Frame [.wear, .events, .board] (unitOut l u s) (raise (.eng l) k (unitOut l u s)) :=
    (raise_only _ _ _).mono fun p hp => List.mem_cons_of_mem _ hp
  by_cases hp : u ∈ fmaPool (s.lane l).eng.fmaLost
  · by_cases hl : (s.lane l).eng.fmaLost.length < 2
    · rw [loseUnit_of_spare hu hp hl]
      exact ⟨(hraise 9).comp (hingeSwap_only _ _ _ _ _ _ _),
        (raise_eventsKept (.eng l) 9 (by decide) _).trans (hingeSwap_eventsKept _ _ _ _ _ _ _)⟩
    · rw [loseUnit_of_no_spare hu hp hl]
      exact ⟨(hraise 10).comp (noSpare_only _ _ _ _ _ _),
        (raise_eventsKept (.eng l) 10 (by decide) _).trans (noSpare_eventsKept _ _ _ _ _ _)⟩
  · rw [loseUnit_of_idle hu hp]
    exact ⟨(modWear_only _ _).mono (by simp), (modWear_only _ _).eventsKept (by simp)⟩

/-- A unit that leaves is noted and its event raised, and the contexts stay. -/
theorem loseUnit_effect (hu : u ∉ (s.lane l).eng.fmaLost) :
    ((loseUnit l u s).lane l).eng.fmaLost = u :: (s.lane l).eng.fmaLost ∧ Latched (.eng l) 8 (loseUnit l u s) ∧
      ∀ c, Claim.ctxOf l c (loseUnit l u s) = Claim.ctxOf l c s := by
  obtain ⟨hframe, hkept⟩ := loseUnit_after_unitOut hu
  refine ⟨?_, hkept _ _ (latched_raise _ _ _ (by decide)), fun c => ?_⟩
  · rw [hframe.lane_keeps (fun x => x.eng.fmaLost) (fun _ => rfl) (lanePart_notMem_wear l), unitOut,
      (raise_only _ _ _).lane_keeps (fun x => x.eng.fmaLost) (fun _ => rfl) (lanePart_notMem_events l), modEng_same]
  · have hpool : EngineQuiet false l s (modEng l (fun e => { e with fmaLost := u :: e.fmaLost }) s) :=
      .setLane rfl fun _ => rfl
    rw [hframe.ctxOf_eq (lanePart_notMem_wear l), unitOut, (hpool.trans (raise_quiet l _ _ _)).ctxOf_eq]

/-- While no unit is lost the first 16 work in the pool. -/
theorem mem_fmaPool_nil : ∀ v : Fin 18, v.val < 16 → v ∈ fmaPool [] := by decide

/-- With two units lost every other one works in the pool. -/
theorem mem_fmaPool {lost : List (Fin 18)} (hn : lost.Nodup) (hl : 2 ≤ lost.length) (hu : u ∉ lost) : u ∈ fmaPool lost := by
  have hsub : lost ⊆ (idx 18).filter fun v => lost.contains v := fun v hv => by simp [idx, hv]
  have hin : lost.length ≤ ((idx 18).filter fun v => lost.contains v).length := (hn.subperm hsub).length_le
  have hall := List.length_eq_length_filter_add (l := idx 18) fun v => lost.contains v
  have hcount : (idx 18).length = 18 := List.length_finRange
  rw [fmaPool, List.take_of_length_le (by omega)]
  simp [idx, hu]

/-- A failed test makes its unit leave (R166). -/
theorem exec_fmaErr_testPass (hup : laneUp l s = true) (hu : u ∉ (s.lane l).eng.fmaLost) :
    exec (.fmaErr l u .testPass) s = .next (loseUnit l u s) :=
  congrArg Host.Outcome.next (if_neg (by simp [hup, hu]))

/-- A unit that has left fails no more. -/
theorem exec_fmaErr_of_lost (hu : u ∈ (s.lane l).eng.fmaLost) (w : FmaWhere) : exec (.fmaErr l u w) s = .next s :=
  congrArg Host.Outcome.next (if_pos (by simp [hu]))

/-- A mismatch in a committed step gives up that step too (log entry 36). -/
theorem exec_fmaErr_committed {c : Fin 8} (hup : laneUp l s = true) (hu : u ∉ (s.lane l).eng.fmaLost)
    (hr : (Claim.ctxOf l c s).run.isSome = true) :
    exec (.fmaErr l u (.committed c)) s = .next (loseUnit l u (failStep l c s)) :=
  (congrArg Host.Outcome.next (if_neg (by simp [hup, hu]))).trans
    (congrArg (fun t => Host.Outcome.next (loseUnit l u t)) (if_pos hr))

end

/-- A unit that fails is one change of the lane, with the spare that takes its place or the note that there is none. -/
theorem fmaUnitsAreReplaced : Claim.FmaUnitsAreReplaced := by
  intro s l u hup
  refine ⟨fun hlost hu16 => ?_, fun x y hlost hxy hux huy => ?_, fun hu w => exec_fmaErr_of_lost hu w,
    fun c hu hr hfew => ?_, fun hmd => ?_⟩
  · have hu : u ∉ (s.lane l).eng.fmaLost := by simp [hlost]
    have hp : u ∈ fmaPool (s.lane l).eng.fmaLost := by
      rw [hlost]
      exact mem_fmaPool_nil u hu16
    obtain ⟨hout, hlatched, -⟩ := loseUnit_effect hu
    rw [hlost] at hout
    refine ⟨_, exec_fmaErr_testPass hup hu, hout, by simp [fmaUnits, hout], hlatched, ?_,
      (loseUnit_only l u s).mono (by simp)⟩
    rw [loseUnit_of_spare hu hp (by simp [hlost])]
    exact hingeSwap_eventsKept _ _ _ _ _ _ _ _ _ (latched_raise _ _ _ (by decide))
  · have hu : u ∉ (s.lane l).eng.fmaLost := by simp [hlost, hux, huy]
    have hp : u ∈ fmaPool (s.lane l).eng.fmaLost := mem_fmaPool (by simp [hlost, hxy]) (by simp [hlost]) hu
    obtain ⟨hout, hlatched, -⟩ := loseUnit_effect hu
    rw [hlost] at hout
    refine ⟨_, exec_fmaErr_testPass hup hu, hout, by simp [fmaUnits, hout], hlatched, ?_⟩
    rw [loseUnit_of_no_spare hu hp (by simp [hlost])]
    exact noSpare_eventsKept _ _ _ _ _ _ _ _ (latched_raise _ _ _ (by decide))
  · have hlost : ((failStep l c s).lane l).eng.fmaLost = (s.lane l).eng.fmaLost :=
      congrArg (fun x => x.eng.fmaLost) (stepless_failStep l l c hfew)
    obtain ⟨-, hlatched, hctx⟩ := loseUnit_effect (s := failStep l c s) (hlost ▸ hu)
    refine ⟨_, exec_fmaErr_committed hup hu hr, ?_⟩
    rw [hctx, ctxOf_failStep_self]
    exact ⟨rfl, rfl, giveUp_missRun hfew, hlatched⟩
  · exact ⟨_, congrArg Host.Outcome.next (if_pos (by simp [hup, hmd])), now_le_periodic _ _ s, periodic_only _ _ s⟩

/-- Settles O29: a step given up changes its own context, lets suspended steps go on and at the third time reports the lane; and
whatever takes the place of a unit that leaves keeps the lanes and the events. -/
theorem deadlinesAndFmaUnits : Obligations.DeadlinesAndFmaUnits :=
  ⟨missedDeadlinesFaultTheLane, fmaUnitsAreReplaced⟩

end Sys2Proof.Machine
end

section
/-! PROOFS. Coefficient writes (O30): one that is taken waits with the step tag that the link between the lanes allows (R153,
R257). -/

namespace Sys2Proof.Machine

/-- A write that is taken waits behind what waits already (R153). -/
theorem ctxOf_coefWrite_pend {l : Lane} {c : Fin 8} {v : Word} {s : State} (hc : (s.lane l).eng.ctxSel.toFin = c)
    (h : coefTaken l c (s.lane l).eng.coefBank v s = true) :
    (Claim.ctxOf l c (coefWrite l v s)).pend = (Claim.ctxOf l c s).pend ++
      [(pendTag c s, .coef (s.lane l).eng.coefBank (s.lane l).eng.coefIndex.toNat v)] := by
  subst hc
  rw [coefWrite, if_pos h, (mirror_only _ _ _).ctxOf_eq (by cases l <;> simp [lanePart]), addPend, ctxOf_modCtx_self]

/-- While a channel is down a change is tagged at once: no mirrored write is on its way (R257). -/
theorem pendTag_of_link_down {s : State} (h : tsuUp s = false) (c : Fin 8) : pendTag c s = some (nextTarget c s) :=
  if_neg (by simp [h])

/-- A module in M3 whose channel from lane A to lane B is up and whose channel back is down, with context 0 of lane A in LIVE
mode (R155). -/
def oneChannelUp : State :=
  { State.reset with
    mode := { State.reset.mode with mode := 3 }
    claim := { State.reset.claim with ab := { up := true } }
    laneA := { State.reset.laneA with eng := { ctx := modAt (Vector.replicate 8 {}) 0 fun x => { x with live := true } } } }

/-- Refutes O30: the statement asks only for the channel that carries the mirrored write. With the other channel down, which
acknowledges it, nothing is mirrored (R257), and a write of 0.0 in lane A waits with a step tag where the statement has none. -/
theorem not_coefficientsTapsAndWindows : ¬ Obligations.CoefficientsTapsAndWindows := by
  rintro ⟨hwaits, -⟩
  obtain ⟨hwrite, -⟩ := hwaits oneChannelUp .a 0 _ rfl rfl rfl
  obtain ⟨t, hex, hpend, -⟩ := hwrite 0 (by decide) (.inl rfl) (.inl rfl)
  have ht : coefWrite .a 0 oneChannelUp = t := Host.Outcome.next.inj hex
  have htagged := ctxOf_coefWrite_pend (l := .a) (c := 0) (v := 0) (s := oneChannelUp) rfl (by decide)
  rw [pendTag_of_link_down rfl, ht, hpend] at htagged
  simp at htagged

end Sys2Proof.Machine
end

section
/-! PROOFS. Speculative work (O31; R169 to R172, R183): the issue of levels and the end of a step leave the committed nodes, the
generators and the other lane, and fill the sets of their own context alone. -/

namespace Sys2Proof.Machine

/-! ### The run-ahead of one context -/

section
variable (l k : Lane) (s : State)

/-- The context that is changed. -/
@[simp] theorem raOf_modRaCtx_self (c : Fin 8) (f : RaCtx → RaCtx) :
    Claim.raOf l c (modRaCtx l c f s) = f (Claim.raOf l c s) := by
  simp only [Claim.raOf, modRaCtx, modRa_same, modAt_getElem_self]

/-- The other contexts stay. -/
theorem raOf_modRaCtx_other {c d : Fin 8} (h : d ≠ c) (f : RaCtx → RaCtx) :
    Claim.raOf k d (modRaCtx l c f s) = Claim.raOf k d s :=
  setLane_keeps (fun x => x.ra.ctx[d]) s l k _ (modAt_getElem_other _ _ _ _ h)

/-- The blocks of a lane stay as time passes. -/
theorem advance_lane (n : Nat) : (advance n s).lane k = s.lane k := by cases k <;> rfl

/-- The run-ahead of a context stays as time passes. -/
theorem raOf_advance (c : Fin 8) (n : Nat) : Claim.raOf k c (advance n s) = Claim.raOf k c s := by
  rw [Claim.raOf, advance_lane, Claim.raOf]

/-- What a lane keeps beside the contexts and taps of its engine holds its run-ahead. -/
theorem raOf_eq_of_stepless {l : Lane} {s t : State} (h : stepless (t.lane l) = stepless (s.lane l)) (c : Fin 8) :
    Claim.raOf l c t = Claim.raOf l c s := by
  have hra : (t.lane l).ra = (s.lane l).ra := (congrArg LaneState.ra h :)
  rw [Claim.raOf, hra, Claim.raOf]

end

/-! ### The issue of levels (R172) -/

section
variable {l : Lane} {c : Fin 8} {s : State}

/-- While a committed step is ready or runs no level is issued. -/
theorem mayIssue_of_busy (h : laneBusy l s = true) (c : Fin 8) : mayIssue l c s = false := by simp [mayIssue, h]

/-- A context whose run-ahead is off issues no level. -/
theorem mayIssue_of_off (h : (Claim.raOf l c s).on = false) : mayIssue l c s = false := by
  have hoff : ((s.lane l).ra.ctx[c]).on = false := h
  simp only [mayIssue, hoff, Bool.and_false, Bool.false_and]

/-- A busy lane suspends the speculative step of a context. -/
theorem exec_specLevelIssue_of_busy (h : laneBusy l s = true) : exec (.specLevelIssue l c) s =
    .next (modRaCtx l c (fun r => { r with suspended := r.flight.isSome }) s) := by
  change Host.Outcome.next (specLevelIssue l c s) = _
  simp [specLevelIssue, mayIssue_of_busy h]

/-- A level that may be issued, and that none of higher priority precedes, takes its time. -/
theorem exec_specLevelIssue_of_first {j : SpecJob} {k n : Nat}
    (hfirst : ∀ d, ctxBefore d c s = true → (Claim.raOf l d s).on = false) (hissue : mayIssue l c s = true)
    (hlevel : nextLevel l c s = some n) (hjob : jobNow l c s = some (j, k)) : exec (.specLevelIssue l c) s =
    .next (modRaCtx l c (fun r => { r with flight := some (j, k + 1), suspended := false }) (advance n s)) := by
  have hnone : ((idx 8).any fun d => ctxBefore d c s && mayIssue l d s) = false := by
    refine List.any_eq_false.mpr fun d _ => ?_
    cases hd : ctxBefore d c s
    · simp
    · simp [mayIssue_of_off (hfirst d hd)]
  change Host.Outcome.next (specLevelIssue l c s) = _
  simp only [specLevelIssue, hnone, hissue, hlevel, hjob, Bool.false_eq_true, if_false, if_true]

end

/-! ### What a completed step writes (R169, R183) -/

section
variable (l k : Lane) (c : Fin 8) (g : Graph) (j : SpecJob) (s : State)

/-- A trace entry leaves the nodes, the run-ahead and the generators. -/
theorem stepless_traceWrite (t : Fin 8) (v : Word) (tag branch ahead step : Nat) :
    stepless ((traceWrite l c t v tag branch ahead step s).lane k) = stepless (s.lane k) :=
  (stepless_modTap l k _ _ _).trans (setLane_keeps stepless s l k _ rfl)

/-- The trace entries of a speculative step leave the nodes, the run-ahead and the generators. -/
theorem stepless_specTrace (nodes : List (Nat × Word)) :
    stepless ((specTrace l c g j nodes s).lane k) = stepless (s.lane k) := by
  refine foldS_keeps (fun t => stepless (t.lane k)) _ _ s fun t u => ?_
  dsimp only
  split
  · split
    · exact stepless_traceWrite l k c u _ _ _ _ _ _
    · exact stepless_traceWrite l k c u _ _ _ _ _ _
  · rfl

/-- Substitutions that are noted leave the nodes, the run-ahead and the generators. -/
theorem stepless_noteSubs (n : Nat) : stepless ((noteSubs l c n s).lane k) = stepless (s.lane k) := by
  unfold noteSubs
  split
  · rfl
  · rw [(raise_only _ _ _).lane_keeps stepless (fun _ => rfl) (lanePart_notMem_events k), stepless_modCtx]

/-- A checkpoint takes a slot and leaves the contexts (R183). -/
theorem raOf_saveCheckpoint (d : Fin 8) (h : Nat) (nodes : List (Nat × Word)) :
    Claim.raOf k d (saveCheckpoint l c h nodes s) = Claim.raOf k d s := by
  unfold saveCheckpoint
  split
  · rfl
  · exact setLane_keeps (fun x => x.ra.ctx[d]) s l k _ rfl

/-- A lane without its run-ahead unit: what a speculative step may not write (R169). -/
def unspeculated (x : LaneState) : LaneState := { x with ra := {} }

/-- The run-ahead unit is written, and nothing beside it. -/
theorem unspeculated_modRa (f : RaState → RaState) :
    unspeculated ((modRa l f s).lane k) = unspeculated (s.lane k) := setLane_keeps unspeculated s l k _ rfl

/-- A checkpoint is written into the run-ahead unit alone (R183). -/
theorem unspeculated_saveCheckpoint (h : Nat) (nodes : List (Nat × Word)) :
    unspeculated ((saveCheckpoint l c h nodes s).lane k) = unspeculated (s.lane k) := by
  unfold saveCheckpoint
  split
  · rfl
  · exact unspeculated_modRa l k s _

/-- A result is written into the run-ahead unit alone (R169). -/
theorem unspeculated_keepJob (r : SpecResult) :
    unspeculated ((keepJob l c g j r s).lane k) = unspeculated (s.lane k) := by
  cases j with
  | horizon h =>
    exact (unspeculated_saveCheckpoint l k c _ h r.nodes).trans (unspeculated_modRa l k s _)
  | armed t => exact unspeculated_modRa l k s _
  | next t => exact unspeculated_modRa l k s _

/-! ### The sets (R170) -/

/-- A context whose set has taken the result of a job: predicted inputs and an output set. -/
def withResult (inputs : List Word) (out : BranchOut) (x : RaCtx) : SpecJob → RaCtx
  | .horizon h => { x with hDone := h, predicted := if h = 1 then inputs else x.predicted }
  | .armed t => { x with armed := upd x.armed t (some out) }
  | .next t => { x with next := upd x.next t (some out) }

/-- A result enters the set of its job. -/
theorem raOf_keepJob_self (r : SpecResult) : Claim.raOf l c (keepJob l c g j r s) =
    withResult r.inputs ⟨branchOuts l g r.nodes s, r.nodes⟩ (Claim.raOf l c s) j := by
  cases j with
  | horizon h => exact (raOf_saveCheckpoint l l c _ c h r.nodes).trans (raOf_modRaCtx_self l s c _)
  | armed t => exact raOf_modRaCtx_self l s c _
  | next t => exact raOf_modRaCtx_self l s c _

/-- The sets of the other contexts stay. -/
theorem raOf_keepJob_other {c d : Fin 8} (h : d ≠ c) (r : SpecResult) :
    Claim.raOf l d (keepJob l c g j r s) = Claim.raOf l d s := by
  cases j with
  | horizon n => exact (raOf_saveCheckpoint l l c _ d n r.nodes).trans (raOf_modRaCtx_other l l s h _)
  | armed t => exact raOf_modRaCtx_other l l s h _
  | next t => exact raOf_modRaCtx_other l l s h _

end

/-- The step in flight is no part of the sets. -/
theorem withResult_flight (inputs : List Word) (out : BranchOut) (x : RaCtx) (j : SpecJob) :
    (withResult inputs out x j).flight = x.flight := by cases j <;> rfl

/-! ### The end of a step (R172) -/

/-- A context whose step in flight has ended. -/
def flightEnded (x : RaCtx) : RaCtx := { x with flight := none, suspended := false }

/-- The result of a job is taken at its end: the flight ends, the set is filled, substitutions are noted and traced. -/
def specTaken (l : Lane) (c : Fin 8) (g : Graph) (j : SpecJob) (r : SpecResult) (s : State) : State :=
  specTrace l c g j r.nodes (when (!g.ops.any fun o => o.opcode == 0x30) (noteSubs l c r.buf.subs)
    (keepJob l c g j r (modRaCtx l c flightEnded s)))

section
variable (l k : Lane) (c : Fin 8) (g : Graph) (j : SpecJob) (r : SpecResult) (s : State)

/-- After the result is kept only contexts and taps of the engine change. -/
theorem stepless_specTaken : stepless ((specTaken l c g j r s).lane k) = 
    stepless ((keepJob l c g j r (modRaCtx l c flightEnded s)).lane k) := by
  rw [specTaken, stepless_specTrace, when]
  split
  · exact stepless_noteSubs l k c _ _
  · rfl

/-- The context whose result is taken. -/
theorem raOf_specTaken_self : Claim.raOf l c (specTaken l c g j r s) =
    withResult r.inputs ⟨branchOuts l g r.nodes (modRaCtx l c flightEnded s), r.nodes⟩ (flightEnded (Claim.raOf l c s)) j := by
  rw [raOf_eq_of_stepless (stepless_specTaken l l c g j r s), raOf_keepJob_self, raOf_modRaCtx_self]

/-- The other contexts of the lane stay. -/
theorem raOf_specTaken_other {c d : Fin 8} (h : d ≠ c) :
    Claim.raOf l d (specTaken l c g j r s) = Claim.raOf l d s := by
  rw [raOf_eq_of_stepless (stepless_specTaken l l c g j r s), raOf_keepJob_other l g j _ h, raOf_modRaCtx_other l l s h]

/-- The committed nodes and the generators of both lanes stay (R169). -/
theorem specTaken_committed : ((specTaken l c g j r s).lane k).eng.nodes = (s.lane k).eng.nodes ∧
    ((specTaken l c g j r s).lane k).pwm = (s.lane k).pwm := by
  have hlater := stepless_specTaken l k c g j r s
  have hkept := (unspeculated_keepJob l k c g j (modRaCtx l c flightEnded s) r).trans (unspeculated_modRa l k s _)
  exact ⟨(congrArg (fun x => x.eng.nodes) hlater :).trans (congrArg (fun x => x.eng.nodes) hkept :),
    (congrArg LaneState.pwm hlater :).trans (congrArg LaneState.pwm hkept :)⟩

/-- A result is taken at one instant, within its lane and its events. -/
theorem specTaken_only : Frame [.events, .board, lanePart l, sramPart l] s (specTaken l c g j r s) :=
  .under (specTrace_only l c g j r.nodes _) (by simp) (.under (.when (noteSubs_only l c _ _)) (by simp)
    (((modRaCtx_only l c _ s).comp (keepJob_only l c g j r _)).mono (by simp)))

end

section
variable {l : Lane} {c : Fin 8} {g : Graph} {j : SpecJob} {n : Nat} {s : State}

/-- The ticks that the end of a step takes (R161, R182). -/
def tailTicks (l : Lane) (g : Graph) (s : State) : Nat := engTicks l (16 + g.nOut + restoreCycles g) s

/-- What the end of the step in flight does: nothing before its last level, a suspension where it would delay a committed step,
else the result is taken. -/
theorem specStepDone_of_flight (hg : graphOf c s = some g) (hf : (Claim.raOf l c s).flight = some (j, n)) :
    specStepDone l c s =
      if n < (cutLevels g.levels g.ops).length then s
      else if laneBusy l s || (nextStart l s).any (fun m => decide (m < tailTicks l g s)) then
        modRaCtx l c (fun r => { r with suspended := true }) s
      else specTaken l c g j (specRun l c g j (advance (tailTicks l g s) s)) (advance (tailTicks l g s) s) := by
  have hflight : ((s.lane l).ra.ctx[c]).flight = some (j, n) := hf
  simp only [specStepDone, hg, hflight]
  cases nextStart l s <;> rfl

variable (hg : graphOf c s = some g) (hf : (Claim.raOf l c s).flight = some (j, n))
include hg hf

/-- Before its last level a step does not end. -/
theorem exec_specStepDone_of_unfinished (h : n < (cutLevels g.levels g.ops).length) :
    exec (.specStepDone l c) s = .next s :=
  congrArg Host.Outcome.next ((specStepDone_of_flight hg hf).trans (if_pos h))

/-- An end that would delay a committed step waits. -/
theorem exec_specStepDone_of_delay (h : (cutLevels g.levels g.ops).length ≤ n)
    (hdelay : laneBusy l s = true ∨ (nextStart l s).any (fun m => decide (m < tailTicks l g s)) = true) :
    exec (.specStepDone l c) s = .next (modRaCtx l c (fun r => { r with suspended := true }) s) := by
  refine congrArg Host.Outcome.next ((specStepDone_of_flight hg hf).trans ?_)
  rw [if_neg h.not_gt, if_pos (Bool.or_eq_true_iff.mpr hdelay)]

/-- An end that delays nothing takes its time and its result. -/
theorem exec_specStepDone_of_free (h : (cutLevels g.levels g.ops).length ≤ n) (hbusy : laneBusy l s = false)
    (hnext : (nextStart l s).any (fun m => decide (m < tailTicks l g s)) = false) :
    exec (.specStepDone l c) s = .next
      (specTaken l c g j (specRun l c g j (advance (tailTicks l g s) s)) (advance (tailTicks l g s) s)) := by
  refine congrArg Host.Outcome.next ((specStepDone_of_flight hg hf).trans ?_)
  rw [if_neg h.not_gt, if_neg (by simp [hbusy, hnext])]

end

/-- Settles O31: a level that is issued or given up is one change of its context's run-ahead; and the end of a step writes its
result into the set of its job, while all that follows touches the contexts' counts and the taps alone. -/
theorem speculationNeverTouchesCommittedState : Obligations.SpeculationNeverTouchesCommittedState := by
  refine fun s l c => ⟨fun hbusy => ?_, fun j k n hfirst hissue hlevel hjob => ?_, fun g j n hg hf =>
    ⟨exec_specStepDone_of_unfinished hg hf, fun hdone hdelay => ?_, fun hdone hbusy hnext => ?_⟩⟩
  · exact ⟨_, exec_specLevelIssue_of_busy hbusy, raOf_modRaCtx_self l s c _,
      (modRaCtx_only l c _ s).now_eq (time_notMem_lanePart l), fun d hd => raOf_modRaCtx_other l l s hd _,
      modRaCtx_only l c _ s⟩
  · refine ⟨_, exec_specLevelIssue_of_first hfirst hissue hlevel hjob, ?_, ?_,
      (modRaCtx_only l c _ _).now_eq (time_notMem_lanePart l),
      (advance_only n s).trans (modRaCtx_only l c _ _) (by simp) (by simp)⟩
    · rw [raOf_modRaCtx_self]
    · rw [raOf_modRaCtx_self]
  · exact ⟨_, exec_specStepDone_of_delay hg hf hdone hdelay, raOf_modRaCtx_self l s c _,
      (modRaCtx_only l c _ s).now_eq (time_notMem_lanePart l), fun d hd => raOf_modRaCtx_other l l s hd _,
      modRaCtx_only l c _ s⟩
  · have hex := exec_specStepDone_of_free hg hf hdone hbusy hnext
    generalize specRun l c g j (advance (tailTicks l g s) s) = r at hex
    have hself := raOf_specTaken_self l c g j r (advance (tailTicks l g s) s)
    rw [raOf_advance] at hself
    obtain ⟨hnodes, hpwm⟩ := specTaken_committed l l c g j r (advance (tailTicks l g s) s)
    rw [advance_lane] at hnodes hpwm
    have hframe := specTaken_only l c g j r (advance (tailTicks l g s) s)
    have hother : lanePart (otherLane l) ∉ [.events, .board, lanePart l, sramPart l] := by cases l <;> decide
    refine ⟨_, hex, ?_, hnodes, hpwm, hframe.now_eq (by cases l <;> decide), ?_, ?_, ?_, fun d hd => ?_,
      hframe .gate (by cases l <;> decide), hframe .mode (by cases l <;> decide), ?_, ?_⟩
    · rw [hself, withResult_flight, flightEnded]
    · rintro h rfl
      rw [hself]
      rfl
    · rintro b rfl
      rw [hself]
      exact ⟨by simp [withResult, upd], fun d hd => modAt_getElem_other _ b d (fun _ => _) hd⟩
    · rintro b rfl
      rw [hself]
      exact ⟨by simp [withResult, upd], rfl⟩
    · rw [raOf_specTaken_other l g j r _ hd, raOf_advance]
    · rw [hframe.lane_keeps LaneState.eng (fun _ => rfl) hother, advance_lane]
    · rw [hframe.lane_keeps LaneState.ra (fun _ => rfl) hother, advance_lane]

end Sys2Proof.Machine
end

section
/-! PROOFS. The inhibition of branch commits (O32): a write of RA_CTL is carried to the other lane while both channels of the
link are up (R179, R257). -/

namespace Sys2Proof.Machine

/-- While a channel is down no write is mirrored (R257; log entry 74). -/
theorem mirror_of_link_down {s : State} (h : tsuUp s = false) (l : Lane) (w : MirrorWrite) : mirror l w s = s :=
  if_neg (by simp [h])

/-- While a channel is down a write of RA_CTL acts in its own lane alone (R179, R257). -/
theorem raCtlWrite_of_link_down {s : State} (h : tsuUp s = false) (l : Lane) (v : Word) :
    raCtlWrite l v s = setInhibit l v s := by
  have hlink : tsuUp (setInhibit l v s) = tsuUp s := by cases l <;> rfl
  exact mirror_of_link_down (hlink.trans h) l _

/-- The inhibition of a lane leaves the link. -/
theorem setInhibit_claim (l : Lane) (v : Word) (s : State) : (setInhibit l v s).claim = s.claim :=
  modRa_only l _ s .claim (by cases l <;> decide)

/-- Refutes O32: the statement asks only for the channel that carries the write to be up. With the other channel down, which
acknowledges it, nothing is mirrored (R257), and a write of 1 in lane A enters no queue. -/
theorem not_branchesCommitOrAreUnmatched : ¬ Obligations.BranchesCommitOrAreUnmatched := by
  rintro ⟨-, hunmatched⟩
  obtain ⟨-, -, hwrite⟩ := hunmatched oneChannelUp .a 0 0
  obtain ⟨t, hex, -, hqueue, -⟩ := hwrite 1 rfl
  have ht : raCtlWrite .a 1 oneChannelUp = t := Host.Outcome.next.inj hex
  rw [raCtlWrite_of_link_down rfl] at ht
  rw [← ht, tsuOut, setInhibit_claim] at hqueue
  simp [tsuOut] at hqueue

end Sys2Proof.Machine
end

section
/-! PROOFS. Writes of grid-forming parameters (O33): a write that is staged is carried to the other lane while both channels of
the link are up (R208, R257). -/

namespace Sys2Proof.Machine

/-- A staged parameter leaves the link. -/
theorem stageParam_claim (l : Lane) (n : Fin 17) (v : Word) (s : State) : (stageParam l n v s).claim = s.claim :=
  stageParam_only l n v s .claim (by cases l <;> decide)

/-- While a channel is down a parameter in range is staged in its own lane alone (R208, R257; log entry 74). -/
theorem gfParamWrite_of_link_down {s : State} (h : tsuUp s = false) {n : Fin 17} {v : Word} (hv : gfRange n.val v = true)
    (l : Lane) : gfParamWrite l n v s = stageParam l n v s := by
  have hlink : tsuUp (stageParam l n v s) = false := by rw [tsuUp, stageParam_claim, ← tsuUp, h]
  exact (if_pos hv).trans (mirror_of_link_down hlink l _)

/-- 0.0 lies in the range of PSET. -/
theorem gfRange_pset_zero : gfRange (0 : Fin 17).val 0 = true := by decide +kernel

/-- Refutes O33: the statement asks only for the channel that carries the write to be up. With the other channel down, which
acknowledges it, nothing is mirrored (R257), and a PSET of 0.0 written in lane A enters no queue. -/
theorem not_gridFormingParametersAndTimers : ¬ Obligations.GridFormingParametersAndTimers := by
  rintro ⟨hparameters, -⟩
  obtain ⟨hwrite, -⟩ := hparameters oneChannelUp .a
  obtain ⟨hstaged, -⟩ := hwrite 0 0 rfl
  obtain ⟨t, hex, -, -, hqueue, -⟩ := hstaged gfRange_pset_zero
  have ht : gfParamWrite .a 0 0 oneChannelUp = t := Host.Outcome.next.inj hex
  rw [gfParamWrite_of_link_down rfl gfRange_pset_zero] at ht
  rw [← ht, tsuOut, stageParam_claim] at hqueue
  simp [tsuOut] at hqueue

end Sys2Proof.Machine
end

section
/-! PROOFS. Reports of the grid-forming block (O34; R197, R252; log entry 3): of the lanes that run the block the senior one alone
signals the mode controller, and what goes on beside it leaves it alone. -/

namespace Sys2Proof.Machine

/-! ### Which lanes run the block, and which one signals -/

/-- What decides which lanes run the grid-forming block and which of them signals: the image, the claims and the contexts of
both lanes. -/
def gfView (s : State) : KeyState × ClaimState × EngState × EngState := (s.key, s.claim, s.laneA.eng, s.laneB.eng)

section
variable {s t : State} (h : gfView t = gfView s)
include h

/-- The running image is the same. -/
theorem key_of_gfView : t.key = s.key := congrArg (·.1) h

/-- The senior lane is the same (R252). -/
theorem seniorLane_of_gfView : seniorLane t = seniorLane s := by
  have hclaim : t.claim = s.claim := congrArg (·.2.1) h
  unfold seniorLane forwards
  rw [hclaim]

/-- The same lanes run the block. -/
theorem gfLanes_of_gfView : gfLanes t = gfLanes s := by
  have hclaim : t.claim = s.claim := congrArg (·.2.1) h
  have hup (x : Lane) : laneUp x t = laneUp x s := by simp only [laneUp, State.lc, hclaim]
  have heng (x : Lane) : (t.lane x).eng = (s.lane x).eng := by
    cases x
    · exact congrArg (·.2.2.1) h
    · exact congrArg (·.2.2.2) h
  have hctx : gfCtx t = gfCtx s := by
    have hhas : hasRec t 0x60 0 = hasRec s 0x60 0 := congrArg Option.isSome (recOf_of_key (key_of_gfView h) _ _)
    rw [gfCtx, gfCtx, hhas, gfRec, gfRec, recD_of_key (key_of_gfView h)]
  have hruns (c : Fin 8) (x : Lane) : (laneUp x t && ctxUsed x c t) = (laneUp x s && ctxUsed x c s) := by
    rw [hup, ctxUsed, heng, ctxUsed]
  unfold gfLanes
  rw [hctx]
  cases gfCtx s with
  | none => rfl
  | some c => exact congrArg (lanes.filter ·) (funext (hruns c))

/-- The same lane signals (R197). -/
theorem gfSenior_of_gfView (x : Lane) : gfSenior x t = gfSenior x s := by
  rw [gfSenior, seniorLane_of_gfView h, gfLanes_of_gfView h, gfSenior]

/-- The record is the same. -/
theorem gfRec_of_gfView : gfRec t = gfRec s := recD_of_key (key_of_gfView h) _ _

end

@[simp] theorem gfView_modGf (x : Lane) (f : GfState → GfState) (s : State) : gfView (modGf x f s) = gfView s := by
  cases x <;> rfl

@[simp] theorem gfView_raise (r : EvReg) (k : Nat) (s : State) : gfView (raise r k s) = gfView s := rfl

@[simp] theorem gfView_elapseTo (n : Nat) (s : State) : gfView (elapseTo n s) = gfView s := rfl

@[simp] theorem gfView_trigger (x : Trigger) (s : State) : gfView (trigger x s) = gfView s := by
  obtain h | ⟨r, -, h⟩ | ⟨-, h⟩ := trigger_cases x s
  · rw [h]
  · rw [h]
    rfl
  · rw [h]
    rfl

/-- A frame that names neither the image nor the claims nor a lane. -/
theorem Frame.gfView_eq {ps : List Part} {s t : State} (h : Frame ps s t) (hkey : .key ∉ ps) (hclaim : .claim ∉ ps)
    (hlane : ∀ x, lanePart x ∉ ps) : gfView t = gfView s := by
  have hk : t.key = s.key := h .key hkey
  have hc : t.claim = s.claim := h .claim hclaim
  have heng (x : Lane) : (t.lane x).eng = (s.lane x).eng := h.lane_keeps LaneState.eng (fun _ => rfl) (hlane x)
  exact Prod.ext hk (Prod.ext hc (Prod.ext (heng .a) (heng .b)))

/-- The senior lane signals (R197). -/
theorem gfSenior_self {l : Lane} {s : State} (hsen : seniorLane s = l) : gfSenior l s = true := by simp [gfSenior, hsen]

/-- Beside a senior lane that runs the block no other lane signals. -/
theorem gfSenior_other {l x : Lane} {s : State} (hl : l ∈ gfLanes s) (hsen : seniorLane s = l) (hx : x ≠ l) :
    gfSenior x s = false := by simp [gfSenior, hsen, hl, hx]

/-- The lanes that run the block are listed once. -/
theorem gfLanes_nodup (s : State) : (gfLanes s).Nodup := by
  rw [gfLanes]
  split
  · exact List.nodup_nil
  · exact List.Nodup.filter _ (by decide)

/-- Where a lane runs the block the image has its record (R211). -/
theorem hasRec_of_mem_gfLanes {l : Lane} {s : State} (hl : l ∈ gfLanes s) : hasRec s 0x60 0 = true := by
  by_contra hno
  simp [gfLanes, gfCtx, hno] at hl

/-- Two lanes have two parts. -/
theorem lanePart_inj {l x : Lane} (h : lanePart l = lanePart x) : l = x := by
  cases l <;> cases x
  · rfl
  · cases h
  · cases h
  · rfl

/-! ### What a report leaves to the lane that signals -/

/-- Which lane signals, the mode controller, the block of lane l and what is latched stay, and time does not go back. -/
structure GfKept (l : Lane) (s t : State) : Prop where
  view : gfView t = gfView s
  mode : t.mode = s.mode
  gf : (t.lane l).gf = (s.lane l).gf
  events : EventsKept s t
  now : s.now ≤ t.now

namespace GfKept
variable {l : Lane} {s t u : State}

theorem refl (l : Lane) (s : State) : GfKept l s s := ⟨rfl, rfl, rfl, fun _ _ hk => hk, le_rfl⟩

theorem trans (h : GfKept l s t) (h' : GfKept l t u) : GfKept l s u :=
  ⟨h'.view.trans h.view, h'.mode.trans h.mode, h'.gf.trans h.gf, h.events.trans h'.events, h.now.trans h'.now⟩

/-- Another lane's block may change. -/
theorem modGf {x : Lane} (hx : x ≠ l) (f : GfState → GfState) (s : State) : GfKept l s (modGf x f s) := by
  have hpart : lanePart l ∉ [lanePart x] := fun h => hx (lanePart_inj (List.mem_singleton.mp h)).symm
  exact ⟨gfView_modGf x f s, modGf_only x f s .mode (by cases x <;> decide),
    (modGf_only x f s).lane_keeps LaneState.gf (fun _ => rfl) hpart,
    (modGf_only x f s).eventsKept (by cases x <;> decide), ((modGf_only x f s).now_eq (time_notMem_lanePart x)).ge⟩

theorem elapseTo (l : Lane) (n : Nat) (s : State) : GfKept l s (elapseTo n s) :=
  ⟨rfl, rfl, by rw [elapseTo_lane], (elapseTo_only n s).eventsKept (by decide), Nat.le_add_right _ _⟩

theorem periodic (l : Lane) (k n : Nat) (s : State) : GfKept l s (periodic k n s) :=
  ⟨rfl, rfl, by cases l <;> rfl, (periodic_only k n s).eventsKept (by decide), now_le_periodic k n s⟩

theorem raise (l : Lane) (r : EvReg) {k : Nat} (hk : k < 32) (s : State) : GfKept l s (raise r k s) :=
  ⟨rfl, rfl, by cases l <;> rfl, raise_eventsKept r k hk s, le_rfl⟩

/-- The functions of the field outputs command them anew. -/
theorem refreshFn (l : Lane) (s : State) : GfKept l s (refreshFn s) := by
  have hframe := refreshFn_only s
  exact ⟨hframe.gfView_eq (by decide) (by decide) (fun x => by cases x <;> decide), hframe .mode (by decide),
    hframe.lane_keeps LaneState.gf (fun _ => rfl) (by cases l <;> decide), refreshFn_eventsKept s,
    (hframe.now_eq (by decide)).ge⟩

theorem when {c : Bool} {f : State → State} (h : c = true → GfKept l s (f s)) : GfKept l s (when c f s) := by
  cases c
  · exact refl l s
  · exact h rfl

/-- Visits to other lanes. -/
theorem foldS {f : Lane → State → State} {s₀ : State}
    (hother : ∀ x ≠ l, ∀ t, gfView t = gfView s₀ → GfKept l t (f x t)) {xs : List Lane} (hl : l ∉ xs) {s : State}
    (hs : gfView s = gfView s₀) : GfKept l s (foldS xs f s) := by
  induction xs generalizing s with
  | nil => exact refl l s
  | cons x xs ih =>
    have hx := hother x (List.ne_of_not_mem_cons hl).symm s hs
    exact hx.trans (ih (List.not_mem_of_not_mem_cons hl) (hx.view.trans hs))

end GfKept

/-- A walk over the lanes that run the block is, for one of them, its own visit among visits that leave it alone. -/
theorem foldS_gfLanes {l : Lane} {s : State} (hl : l ∈ gfLanes s) {f : Lane → State → State}
    (hself : ∀ t, gfView (f l t) = gfView t) (hother : ∀ x ≠ l, ∀ t, gfView t = gfView s → GfKept l t (f x t)) :
    ∃ t, GfKept l s t ∧ GfKept l (f l t) (foldS (gfLanes s) f s) := by
  obtain ⟨before, after, hsplit⟩ := List.append_of_mem hl
  have hnodup := gfLanes_nodup s
  rw [hsplit, List.nodup_middle, List.nodup_cons, List.mem_append, not_or] at hnodup
  obtain ⟨⟨hbefore, hafter⟩, -⟩ := hnodup
  have hkept := GfKept.foldS hother hbefore rfl
  have hwalk : foldS (gfLanes s) f s = foldS after f (f l (foldS before f s)) := by
    simp only [hsplit, Machine.foldS, List.foldl_append, List.foldl_cons]
  exact ⟨_, hkept, hwalk ▸ GfKept.foldS hother hafter ((hself _).trans hkept.view)⟩

/-- A walk whose visits each leave the state as it is. -/
theorem foldS_of_fixed_mem {α : Type} {f : α → State → State} {s : State} {xs : List α} (h : ∀ x ∈ xs, f x s = s) :
    foldS xs f s = s := by
  induction xs with
  | nil => rfl
  | cons x xs ih =>
    change foldS xs f (f x s) = s
    rw [h x List.mem_cons_self, ih fun y hy => h y (List.mem_cons_of_mem x hy)]

/-! ### One report of a lane's block -/

/-- A lane's block raises an event and, where it signals, triggers the mode controller (R197). -/
def gfReport (l : Lane) (k : Nat) (x : Trigger) (signals : Bool) (s : State) : State :=
  when signals (trigger x) (raise (.gf l) k s)

section
variable (l : Lane) (k : Nat) (x : Trigger) (signals : Bool) (s : State)

@[simp] theorem gfView_gfReport : gfView (gfReport l k x signals s) = gfView s :=
  when_keeps gfView signals _ _ (gfView_trigger _ _)

/-- A report changes the mode controller and the events alone. -/
theorem gfReport_only : Frame [.mode, .events, .board] s (gfReport l k x signals s) :=
  ((raise_only _ _ s).mono (by simp)).comp (.when ((trigger_only _ _).mono (by simp)))

@[simp] theorem gfReport_gf (y : Lane) : ((gfReport l k x signals s).lane y).gf = (s.lane y).gf :=
  (gfReport_only l k x signals s).lane_keeps LaneState.gf (fun _ => rfl) (by cases y <;> decide)

@[simp] theorem gfReport_now : (gfReport l k x signals s).now = s.now := (gfReport_only l k x signals s).now_eq (by decide)

/-- A trigger on a condition clears no event. -/
theorem when_trigger_eventsKept : EventsKept s (when signals (trigger x) s) :=
  (Frame.when (trigger_only x s)).eventsKept (by decide)

variable {k} (hk : k < 32)
include hk

/-- The event that is reported is latched. -/
theorem gfReport_latched : Latched (.gf l) k (gfReport l k x signals s) :=
  when_trigger_eventsKept x signals _ _ _ (latched_raise _ _ _ hk)

theorem gfReport_eventsKept : EventsKept s (gfReport l k x signals s) :=
  (raise_eventsKept _ _ hk s).trans (when_trigger_eventsKept x signals _)

/-- A lane that does not signal leaves the mode controller. -/
theorem gfReport_quiet (y : Lane) : GfKept y s (gfReport l k x false s) := .raise y _ hk s

end

/-- A report that signals starts its transition while none runs (R70, R72). -/
theorem gfReport_begins {l : Lane} {k : Nat} {x : Trigger} {r : Transition} {s : State} (hrow : x.row s = some r)
    (hb : s.mode.busy = false) :
    (gfReport l k x true s).mode = { s.mode with busy := true, target := r.dst, nextCause := r.cause, nextEvt := r.evt } :=
  congrArg State.mode (trigger_begins (s := raise (.gf l) k s) hrow hb)

/-- A row of R70 that the mode controller takes of itself from the present mode. -/
theorem row_auto {s : State} {src : BitVec 4} (hmd : s.mode.mode = src) (dst : BitVec 4) :
    Trigger.row (.auto src dst 2) s = some ⟨dst, 2, 0⟩ := if_pos (beq_iff_eq.mpr hmd)

/-! ### A report that falls due -/

/-- A lane's block reports what is due: time passes up to the due instant, and the block notes the report. -/
def dueReport (k : Nat) (x : Trigger) (note : GfState → GfState) (due : Lane → State → Option Nat) (l : Lane) (s : State) :
    State :=
  match due l s with
  | none => s
  | some t0 => gfReport l k x (gfSenior l s) (modGf l note (elapseTo t0 s))

section
variable {k : Nat} {x : Trigger} {note : GfState → GfState} {due : Lane → State → Option Nat} {l : Lane} {s : State}

theorem dueReport_of_none (h : due l s = none) : dueReport k x note due l s = s := by rw [dueReport, h]

theorem dueReport_of_some {t0 : Nat} (h : due l s = some t0) :
    dueReport k x note due l s = gfReport l k x (gfSenior l s) (modGf l note (elapseTo t0 s)) := by rw [dueReport, h]

theorem gfView_dueReport : gfView (dueReport k x note due l s) = gfView s := by
  cases h : due l s with
  | none => rw [dueReport_of_none h]
  | some t0 => rw [dueReport_of_some h, gfView_gfReport, gfView_modGf, gfView_elapseTo]

/-- A lane that does not signal reports for itself alone. -/
theorem dueReport_quiet (hk : k < 32) {y : Lane} (hy : y ≠ l) (hsig : gfSenior y s = false) :
    GfKept l s (dueReport k x note due y s) := by
  cases h : due y s with
  | none =>
    rw [dueReport_of_none h]
    exact .refl l s
  | some t0 =>
    rw [dueReport_of_some h, hsig]
    exact ((GfKept.elapseTo l t0 s).trans (.modGf hy note _)).trans (gfReport_quiet y x _ hk l)

end

section
variable {s : State} {l : Lane} (hsen : seniorLane s = l)
include hsen

/-- The senior lane signals, as long as what decides it stays. -/
theorem gfSenior_self_of_gfView {t : State} (h : gfView t = gfView s) : gfSenior l t = true :=
  (gfSenior_of_gfView h l).trans (gfSenior_self hsen)

variable (hl : l ∈ gfLanes s)
include hl

/-- Beside a senior lane that runs the block no other lane signals, as long as what decides it stays. -/
theorem gfSenior_other_of_gfView {t : State} (h : gfView t = gfView s) {x : Lane} (hx : x ≠ l) : gfSenior x t = false :=
  (gfSenior_of_gfView h x).trans (gfSenior_other hl hsen hx)

/-- What is due in the senior lane is reported, and takes its row of R70. -/
theorem dueReports_begin (hb : s.mode.busy = false) {k : Nat} (hk : k < 32) {note : GfState → GfState}
    {due : Lane → State → Option Nat} {src dst : BitVec 4} (hmd : s.mode.mode = src) {t0 : Nat}
    (hdue : ∀ t, GfKept l s t → ∃ t1, due l t = some t1 ∧ t0 ≤ max t.now t1) {f : Lane → State → State}
    (hf : f = dueReport k (.auto src dst 2) note due) :
    Latched (.gf l) k (foldS (gfLanes s) f s) ∧
      (foldS (gfLanes s) f s).mode = { s.mode with busy := true, target := dst, nextCause := 2, nextEvt := 0 } ∧
      max s.now t0 ≤ (foldS (gfLanes s) f s).now := by
  subst hf
  obtain ⟨u, hbefore, hafter⟩ := foldS_gfLanes hl (f := dueReport k (.auto src dst 2) note due) (fun t => gfView_dueReport)
    fun x hx t ht => dueReport_quiet hk hx (gfSenior_other_of_gfView hsen hl ht hx)
  obtain ⟨t1, hsome, hlate⟩ := hdue u hbefore
  rw [dueReport_of_some hsome, gfSenior_self_of_gfView hsen hbefore.view] at hafter
  have hmode : (modGf l note (elapseTo t1 u)).mode = s.mode :=
    Eq.trans (modGf_only l note _ .mode (by cases l <;> decide)) hbefore.mode
  refine ⟨hafter.events _ _ (gfReport_latched _ _ _ _ hk), ?_, ?_⟩
  · rw [hafter.mode, gfReport_begins (row_auto (by rw [hmode, hmd]) dst) (by rw [hmode, hb]), hmode]
  · have hpast := hbefore.now
    have hself := hafter.now
    rw [gfReport_now, (modGf_only l note _).now_eq (time_notMem_lanePart l), elapseTo_now_eq_max] at hself
    omega

end

end Sys2Proof.Machine
end

section
/-! PROOFS. Grid loss and recovery change the mode (O34; R204, R206; log entry 3). -/

namespace Sys2Proof.Machine

/-! ### Grid loss (R204) -/

/-- When the block of a lane declares grid loss: ISL_T after the frequency error began, or at once where the breaker reads
open. -/
def gridLossAt (freq : Bool) (l : Lane) (s : State) : Option Nat :=
  if freq then (s.lane l).gf.islSince.map fun t0 => t0 + ticksOf (w32 (gfRec s) 112)
  else if (s.lane l).gf.bkrClosed then none else some s.now

/-- What one lane declares. -/
def gridLossIn (freq : Bool) : Lane → State → State := dueReport 7 (.auto 7 8 2) id (gridLossAt freq)

/-- A block that notes nothing stays. -/
theorem modGf_id (l : Lane) (s : State) : modGf l id s = s := by cases l <;> rfl

/-- No time passes up to the present. -/
theorem elapseTo_self (s : State) : elapseTo s.now s = s := by simp [elapseTo, advance]

/-- Outside M7 no grid loss is declared. -/
theorem exec_gridLoss_elsewhere {s : State} (h : s.md ≠ 7) (freq : Bool) : exec (.gridLoss freq) s = .next s :=
  congrArg Host.Outcome.next (if_pos h)

/-- In M7 each lane that runs the block declares what it sees. -/
theorem exec_gridLoss {s : State} (h : s.md = 7) (freq : Bool) :
    exec (.gridLoss freq) s = .next (foldS (gfLanes s) (gridLossIn freq) s) := by
  refine congrArg Host.Outcome.next ((if_neg (not_not.mpr h)).trans ?_)
  refine congrArg (foldS (gfLanes s) · s) (funext fun l => funext fun t => ?_)
  cases hat : gridLossAt freq l t with
  | none =>
    rw [gridLossIn, dueReport_of_none hat]
    simp only [gridLossAt] at hat
    simp only [hat]
  | some t0 =>
    rw [gridLossIn, dueReport_of_some hat, modGf_id]
    simp only [gridLossAt] at hat
    simp only [hat]
    rfl

/-- A breaker that reads open takes no time. -/
theorem gridLossIn_breaker_only (l : Lane) (s : State) : Frame [.mode, .events, .board] s (gridLossIn false l s) := by
  cases hc : (s.lane l).gf.bkrClosed
  · rw [gridLossIn, dueReport_of_some (show gridLossAt false l s = some s.now by simp [gridLossAt, hc]), elapseTo_self, modGf_id]
    exact gfReport_only _ _ _ _ s
  · rw [gridLossIn, dueReport_of_none (by simp [gridLossAt, hc])]
    exact .refl _ s

/-! ### Recovery from M9 (R206) -/

/-- When the block of a lane has recovered: RT_REC_T after |G+| came into the recovery band. -/
def rtRecoverAt (l : Lane) (s : State) : Option Nat :=
  (s.lane l).gf.recSince.map fun t0 => t0 + ticksOf (w32 (gfRec s) 124)

/-- What one lane reports of its recovery to a mode. -/
def rtRecoverIn (back : BitVec 4) : Lane → State → State :=
  dueReport 10 (.auto 9 back 2) (fun g => { g with recSince := none }) rtRecoverAt

/-- Outside M9 nothing recovers. -/
theorem exec_rtRecover_elsewhere {s : State} (h : s.md ≠ 9) : exec .rtRecover s = .next s :=
  congrArg Host.Outcome.next (if_pos h)

/-- In M9 each lane that runs the block reports its recovery. -/
theorem exec_rtRecover {s : State} (h : s.md = 9) :
    exec .rtRecover s = .next (foldS (gfLanes s) (rtRecoverIn s.mode.rideFrom) s) := by
  refine congrArg Host.Outcome.next ((if_neg (not_not.mpr h)).trans ?_)
  refine congrArg (foldS (gfLanes s) · s) (funext fun l => funext fun t => ?_)
  cases hsince : (t.lane l).gf.recSince with
  | none => rw [rtRecoverIn, dueReport_of_none (by rw [rtRecoverAt, hsince]; rfl)]
  | some t0 =>
    rw [rtRecoverIn, dueReport_of_some (by rw [rtRecoverAt, hsince]; rfl)]
    rfl

/-- Where the breaker reads closed in every lane that runs the block, none declares grid loss by it. -/
theorem gridLossIn_breaker_closed {s : State} (h : ∀ x ∈ gfLanes s, (s.lane x).gf.bkrClosed = true) :
    foldS (gfLanes s) (gridLossIn false) s = s :=
  foldS_of_fixed_mem fun x hx => dueReport_of_none (by simp [gridLossAt, h x hx])

/-- Grid loss and recovery (R204, R206): what the senior lane reports takes its row of R70, whatever the other lane reports
before or after it. -/
theorem gridLossAndRecoveryChangeTheMode : Claim.GridLossAndRecoveryChangeTheMode := by
  intro s l hl hsen hb
  have hrec {t : State} (h : GfKept l s t) : gfRec t = recD s 0x60 0 := gfRec_of_gfView h.view
  refine ⟨exec_gridLoss_elsewhere, fun hmd hopen => ?_, fun hmd hclosed => ?_, fun at0 hmd hsince => ?_,
    exec_rtRecover_elsewhere, fun at0 hmd hsince => ?_⟩
  · have hdue (t : State) (ht : GfKept l s t) : ∃ t1, gridLossAt false l t = some t1 ∧ 0 ≤ max t.now t1 :=
      ⟨t.now, by simp [gridLossAt, ht.gf, hopen], Nat.zero_le _⟩
    obtain ⟨hlatched, hmode, -⟩ := dueReports_begin hsen hl hb (by decide) (mode_of_md hmd) hdue
      (f := gridLossIn false) rfl
    exact ⟨_, exec_gridLoss hmd false, hlatched, hmode, Frame.foldS _ _ _ gridLossIn_breaker_only⟩
  · rw [exec_gridLoss hmd false, gridLossIn_breaker_closed hclosed]
  · have hdue (t : State) (ht : GfKept l s t) : ∃ t1, gridLossAt true l t = some t1 ∧
        at0 + ticksOf (w32 (recD s 0x60 0) 112) ≤ max t.now t1 :=
      ⟨_, by simp [gridLossAt, ht.gf, hsince, hrec ht], Nat.le_max_right _ _⟩
    obtain ⟨hlatched, hmode, hnow⟩ := dueReports_begin hsen hl hb (by decide) (mode_of_md hmd) hdue
      (f := gridLossIn true) rfl
    exact ⟨_, exec_gridLoss hmd true, hlatched, by rw [hmode], by rw [hmode], hnow⟩
  · have hdue (t : State) (ht : GfKept l s t) : ∃ t1, rtRecoverAt l t = some t1 ∧
        at0 + ticksOf (w32 (recD s 0x60 0) 124) ≤ max t.now t1 :=
      ⟨_, by simp [rtRecoverAt, ht.gf, hsince, hrec ht], Nat.le_max_right _ _⟩
    obtain ⟨hlatched, hmode, hnow⟩ := dueReports_begin hsen hl hb (by decide) (mode_of_md hmd) hdue
      (f := rtRecoverIn s.mode.rideFrom) rfl
    exact ⟨_, exec_rtRecover hmd, hlatched, hmode, hnow, (execRtRecover_only s _ (exec_rtRecover hmd)).mono (by decide)⟩

end Sys2Proof.Machine
end

section
/-! PROOFS. The 1 ms tick of the mode controller (O34; R199, R203, R207; log entries 3 and 29). -/

namespace Sys2Proof.Machine

/-! ### One lane at the tick (R199, R203, R207) -/

/-- The quantities of a lane at the tick (R199, R202, R204, R207). -/
def gfTicked (closed : Bool) (l : Lane) (s : State) : State :=
  modGf l (tickGf (behaviour s) s.now closed (gfRec s)) s

/-- The breaker has closed where it should not (R203). -/
def closedUnsync (closed : Bool) (l : Lane) (s : State) : Bool :=
  closed && !(s.lane l).gf.bkrClosed && closeUnsync s ((gfTicked closed l s).lane l).gf

/-- The breaker is closed in M6 with SYNC_OK (R203). -/
def closedInSync (closed : Bool) (l : Lane) (s : State) : Bool :=
  s.md == 6 && closed && ((gfTicked closed l s).lane l).gf.syncOk && !closedUnsync closed l s

/-- The report of a breaker that has closed where it should not. -/
def breakerReported (closed : Bool) (l : Lane) (s : State) : State :=
  when (closedUnsync closed l s) (gfReport l 6 (.stop 3 5) (gfSenior l (gfTicked closed l s))) (gfTicked closed l s)

/-- What the breaker's feedback leads to (R203). -/
def breakerJudged (closed : Bool) (l : Lane) (s : State) : State :=
  when (closedInSync closed l s && gfSenior l s && !s.mode.busy) (trigger (.auto 6 7 2)) (breakerReported closed l s)

/-- The state of the chopper's model is noted. -/
def chopperNoted (hot : Bool) (l : Lane) (s : State) : State := modGf l (fun g => { g with chopSeen := hot }) s

/-- What the chopper's model leads to (R207). -/
def chopperJudged (hot seen : Bool) (l : Lane) (s : State) : State :=
  when (hot && !seen) (gfReport l 11 (.stop 3 5) (tripMask 2 (chopperNoted hot l s) && gfSenior l (chopperNoted hot l s)))
    (chopperNoted hot l s)

/-- A lane's tick judges the breaker, then the chopper. -/
theorem modeTickLane_eq (closed : Bool) (l : Lane) (s : State) : modeTickLane closed l s =
    chopperJudged (F32.lt (w32 (gfRec s) 144) ((gfTicked closed l s).lane l).gf.chw) (s.lane l).gf.chopSeen l
      (breakerJudged closed l s) := rfl

section
variable (closed hot seen : Bool) (l : Lane) (s : State)

@[simp] theorem gfView_gfTicked : gfView (gfTicked closed l s) = gfView s := gfView_modGf l _ s

@[simp] theorem gfTicked_mode : (gfTicked closed l s).mode = s.mode := modGf_only l _ s .mode (by cases l <;> decide)

theorem gfTicked_gf : ((gfTicked closed l s).lane l).gf = tickGf (behaviour s) s.now closed (gfRec s) (s.lane l).gf :=
  modGf_same l _ s

theorem gfView_breakerJudged : gfView (breakerJudged closed l s) = gfView s := by
  rw [breakerJudged, when_keeps gfView _ _ _ (gfView_trigger _ _), breakerReported,
    when_keeps gfView _ _ _ (gfView_gfReport _ _ _ _ _), gfView_gfTicked]

/-- What the breaker leads to leaves the quantities of the tick. -/
theorem breakerJudged_gf :
    ((breakerJudged closed l s).lane l).gf = tickGf (behaviour s) s.now closed (gfRec s) (s.lane l).gf := by
  have htrigger (t : State) : ((trigger (.auto 6 7 2) t).lane l).gf = (t.lane l).gf :=
    (trigger_only _ t).lane_keeps LaneState.gf (fun _ => rfl) (by cases l <;> decide)
  rw [breakerJudged, when_keeps (fun t => (t.lane l).gf) _ _ _ (htrigger _), breakerReported,
    when_keeps (fun t => (t.lane l).gf) _ _ _ (gfReport_gf _ _ _ _ _ _), gfTicked_gf]

@[simp] theorem gfView_chopperNoted : gfView (chopperNoted hot l s) = gfView s := gfView_modGf l _ s

@[simp] theorem chopperNoted_mode : (chopperNoted hot l s).mode = s.mode := modGf_only l _ s .mode (by cases l <;> decide)

theorem gfView_chopperJudged : gfView (chopperJudged hot seen l s) = gfView s := by
  rw [chopperJudged, when_keeps gfView _ _ _ (gfView_gfReport _ _ _ _ _), gfView_chopperNoted]

/-- Of its lane's block the chopper changes its own note alone. -/
theorem chopperJudged_gf : ((chopperJudged hot seen l s).lane l).gf = { (s.lane l).gf with chopSeen := hot } := by
  rw [chopperJudged, when_keeps (fun t => (t.lane l).gf) _ _ _ (gfReport_gf _ _ _ _ _ _), chopperNoted, modGf_same]

/-- The chopper's report clears no event. -/
theorem chopperJudged_eventsKept : EventsKept s (chopperJudged hot seen l s) := by
  have hnoted : EventsKept s (chopperNoted hot l s) := (modGf_only l _ s).eventsKept (by cases l <;> decide)
  rw [chopperJudged]
  cases hot && !seen
  · exact hnoted
  · exact hnoted.trans (gfReport_eventsKept _ _ _ _ (by decide))

theorem gfView_modeTickLane : gfView (modeTickLane closed l s) = gfView s := by
  rw [modeTickLane_eq, gfView_chopperJudged, gfView_breakerJudged]

/-- What the breaker has raised stays latched. -/
theorem modeTickLane_eventsKept : EventsKept (breakerJudged closed l s) (modeTickLane closed l s) :=
  modeTickLane_eq closed l s ▸ chopperJudged_eventsKept _ _ _ _

end

/-- Of the block of its lane the tick leaves what the quantities are, but for the note on the chopper. -/
theorem modeTickLane_gf (closed : Bool) (l : Lane) (s : State) : ∃ hot, ((modeTickLane closed l s).lane l).gf =
    { tickGf (behaviour s) s.now closed (gfRec s) (s.lane l).gf with chopSeen := hot } :=
  ⟨_, by rw [modeTickLane_eq, chopperJudged_gf, breakerJudged_gf]⟩

section
variable {closed hot seen : Bool} {l x : Lane} {s : State}

/-- A lane that does not signal leaves the mode controller and the other lane at its tick. -/
theorem modeTickLane_quiet (hx : x ≠ l) (hsig : gfSenior x s = false) : GfKept l s (modeTickLane closed x s) := by
  have hreport (k : Nat) (hk : k < 32) (c : Bool) (t : State) : GfKept l t (when c (gfReport x k (.stop 3 5) false) t) :=
    .when fun _ => gfReport_quiet x _ t hk l
  have hticked : gfSenior x (gfTicked closed x s) = false := (gfSenior_of_gfView (gfView_gfTicked _ _ _) x).trans hsig
  have hbreaker : GfKept l s (breakerJudged closed x s) := by
    rw [breakerJudged, hsig, Bool.and_false, Bool.false_and, breakerReported, hticked]
    exact (GfKept.modGf hx _ s).trans (hreport 6 (by decide) _ _)
  rw [modeTickLane_eq, chopperJudged, gfSenior_of_gfView ((gfView_chopperNoted _ _ _).trans (gfView_breakerJudged _ _ _)) x,
    hsig, Bool.and_false]
  exact (hbreaker.trans (.modGf hx _ _)).trans (hreport 11 (by decide) _ _)

/-- A breaker that closes unsynchronised is reported, and trips the module (R71, R203). -/
theorem breakerJudged_of_unsync (h : closedUnsync closed l s = true) (hsig : gfSenior l s = true) :
    breakerJudged closed l s = gfReport l 6 (.stop 3 5) true (gfTicked closed l s) := by
  have hsync : closedInSync closed l s = false := by rw [closedInSync, h, Bool.not_true, Bool.and_false]
  rw [breakerJudged, hsync, breakerReported, h, gfSenior_of_gfView (gfView_gfTicked _ _ _) l, hsig]
  rfl

/-- A breaker that is closed in step leads from M6 to M7 (R70, R203). -/
theorem breakerJudged_of_sync (h : closedInSync closed l s = true) (hsig : gfSenior l s = true) (hb : s.mode.busy = false) :
    breakerJudged closed l s = trigger (.auto 6 7 2) (gfTicked closed l s) := by
  have hunsync : closedUnsync closed l s = false := by
    rw [closedInSync, Bool.and_eq_true, Bool.not_eq_true'] at h
    exact h.2
  rw [breakerJudged, h, hsig, hb, breakerReported, hunsync]
  rfl

/-- An open breaker leads nowhere. -/
theorem breakerJudged_of_open : breakerJudged false l s = gfTicked false l s := by
  simp [breakerJudged, breakerReported, closedInSync, closedUnsync, when]

/-- During a transition a trip waits (R72). -/
theorem when_stop_waits {c : Byte} {e : Fin 9} (hb : s.mode.busy = true) (b : Bool) :
    ∃ held, (when b (trigger (.stop c e)) s).mode = { s.mode with held := held } := by
  cases b
  · exact ⟨_, rfl⟩
  · refine ⟨s.mode.held ++ [.stop c e], ?_⟩
    simp only [when, if_true, trigger, hb, Trigger.rank]
    split
    · rfl
    · rfl

/-- A transition that the breaker has begun goes on while the chopper trips. -/
theorem chopperJudged_of_busy (hb : s.mode.busy = true) :
    ∃ held, (chopperJudged hot seen l s).mode = { s.mode with held := held } := by
  rw [chopperJudged]
  cases hot && !seen
  · exact ⟨_, chopperNoted_mode hot l s⟩
  · obtain ⟨held, hmode⟩ := when_stop_waits (c := 3) (e := 5) (s := raise (.gf l) 11 (chopperNoted hot l s))
      (Eq.trans (congrArg _ (chopperNoted_mode hot l s)) hb) (tripMask 2 (chopperNoted hot l s) && gfSenior l (chopperNoted hot l s))
    exact ⟨held, hmode.trans (congrArg (fun m : ModeState => { m with held := held }) (chopperNoted_mode hot l s))⟩

/-- A chopper that the image does not let trip leaves the mode controller (R207, R211). -/
theorem chopperJudged_of_no_trip (h : tripMask 2 s = false) : (chopperJudged hot seen l s).mode = s.mode := by
  have hmask : tripMask 2 (chopperNoted hot l s) = false := by
    rw [tripMask, gfRec_of_gfView (gfView_chopperNoted hot l s)]
    exact h
  rw [chopperJudged, hmask, Bool.false_and,
    when_keeps State.mode _ _ _ (gfReport_quiet l _ _ (by decide) l).mode, chopperNoted_mode]

end

/-! ### The tick of the mode controller (R199, R203) -/

/-- The mode is the same. -/
theorem GfKept.md_eq {l : Lane} {s t : State} (h : GfKept l s t) : t.md = s.md :=
  congrArg (fun m : ModeState => m.mode.toNat) h.mode

/-- Before M3 the mode controller does not tick. -/
theorem exec_modeCtrlTick_before {s : State} (h : s.md < 3) : exec .modeCtrlTick s = .next s :=
  congrArg Host.Outcome.next (if_pos h)

/-- The breaker's feedback (R203). -/
def breakerFeedback (s : State) : Bool := diByNum (u8 (gfRec s) 17) s

/-- The state in which the mode controller ticks: 1 ms has passed since it last did. -/
def tickTime (s : State) : State := periodic tkMode (ms 1) s

/-- The feedback does not change while time passes. -/
theorem breakerFeedback_of_frame {ps : List Part} {s t : State} (h : Frame ps s t) (hkey : .key ∉ ps) (hfio : .fio ∉ ps) :
    breakerFeedback t = breakerFeedback s := by
  have hin : t.fio = s.fio := h .fio hfio
  have hrec : gfRec t = gfRec s := recD_of_key (h .key hkey) _ _
  simp only [breakerFeedback, hrec, diByNum, diReads, diValid, fsOk, hin]

/-- From M3 on the tick is one visit to each lane that runs the block, between the time that passes and the field outputs. -/
theorem exec_modeCtrlTick {s : State} (hmd : 3 ≤ s.md) : exec .modeCtrlTick s = .next (refreshFn
    (foldS (gfLanes (tickTime s)) (modeTickLane (hasRec (tickTime s) 0x60 0 && breakerFeedback (tickTime s))) (tickTime s))) :=
  congrArg Host.Outcome.next (if_neg (Nat.not_lt.mpr hmd))

/-- For the senior lane the tick is its own visit, among what leaves it alone. -/
theorem modeCtrlTick_visits {s : State} {l : Lane} (hl : l ∈ gfLanes s) (hsen : seniorLane s = l) (hmd : 3 ≤ s.md) :
    ∃ t u, exec .modeCtrlTick s = .next u ∧ GfKept l s t ∧ GfKept l (modeTickLane (breakerFeedback s) l t) u := by
  have hperiod : GfKept l s (tickTime s) := .periodic l tkMode (ms 1) s
  have hl' : l ∈ gfLanes (tickTime s) := by
    rw [gfLanes_of_gfView hperiod.view]
    exact hl
  obtain ⟨t, hbefore, hafter⟩ := foldS_gfLanes hl' (gfView_modeTickLane (breakerFeedback s) l)
    fun x hx t ht => modeTickLane_quiet hx (gfSenior_other_of_gfView hsen hl (ht.trans hperiod.view) hx)
  have hclosed : (hasRec (tickTime s) 0x60 0 && breakerFeedback (tickTime s)) = breakerFeedback s := by
    rw [hasRec_of_mem_gfLanes hl', Bool.true_and]
    exact breakerFeedback_of_frame (periodic_only tkMode (ms 1) s) (by decide) (by decide)
  exact ⟨t, _, hclosed ▸ exec_modeCtrlTick hmd, hperiod.trans hbefore, hafter.trans (.refreshFn l _)⟩

section
variable {closed : Bool} {l : Lane} {s t u : State} (hafter : GfKept l (modeTickLane closed l t) u)
include hafter

/-- A transition that the breaker begins stands after the tick. -/
theorem tick_begun {r : Transition} (h : (breakerJudged closed l t).mode =
    { s.mode with busy := true, target := r.dst, nextCause := r.cause, nextEvt := r.evt }) :
    u.mode.busy = true ∧ u.mode.target = r.dst ∧ u.mode.nextCause = r.cause := by
  obtain ⟨held, hmode⟩ := chopperJudged_of_busy (hot := F32.lt (w32 (gfRec t) 144) ((gfTicked closed l t).lane l).gf.chw)
    (seen := (t.lane l).gf.chopSeen) (l := l) (congrArg ModeState.busy h)
  rw [hafter.mode, modeTickLane_eq, hmode, h]
  exact ⟨rfl, rfl, rfl⟩

variable (hbefore : GfKept l s t)
include hbefore

/-- What the tick leaves of the senior lane's block. -/
theorem tick_gf : ∃ (beh : Fin 7) (hot : Bool),
    (u.lane l).gf = { tickGf beh t.now closed (recD s 0x60 0) (s.lane l).gf with chopSeen := hot } := by
  obtain ⟨hot, hgf⟩ := modeTickLane_gf closed l t
  exact ⟨behaviour t, hot, by rw [hafter.gf, hgf, hbefore.gf, gfRec_of_gfView hbefore.view, gfRec]⟩

/-- A breaker that has closed out of M6 while the grid is not absent (R203): reported, and a trip in M4 to M10. -/
theorem tick_unsync (hsen : seniorLane s = l) (hb : s.mode.busy = false) (hclosed : closed = true)
    (hwas : (s.lane l).gf.bkrClosed = false) (hmd : s.md ≠ 6) (hgrid : (s.lane l).gf.absent = false) :
    Latched (.gf l) 6 u ∧ (4 ≤ s.md → s.md ≤ 10 → u.mode.busy = true ∧ u.mode.target = 3 ∧ u.mode.nextCause = 3) := by
  have hgrid' : ((gfTicked true l t).lane l).gf.absent = false := by
    rw [gfTicked_gf, hbefore.gf]
    exact hgrid
  have hunsync : closedUnsync closed l t = true := by
    simp [closedUnsync, closeUnsync, hclosed, hbefore.gf, hwas, hbefore.md_eq, hmd, hgrid']
  have hjudged := breakerJudged_of_unsync hunsync (gfSenior_self_of_gfView hsen hbefore.view)
  have hmode : (gfTicked closed l t).mode = s.mode := (gfTicked_mode closed l t).trans hbefore.mode
  refine ⟨hafter.events _ _ (modeTickLane_eventsKept closed l t _ _ (hjudged ▸ gfReport_latched _ _ _ _ (by decide))),
    fun h4 h10 => ?_⟩
  have hrun : inRun (gfTicked closed l t) = true := by
    rw [inRun, State.md, hmode]
    exact decide_eq_true ⟨h4, h10⟩
  have hrow : Trigger.row (.stop 3 5) (gfTicked closed l t) = some ⟨3, 3, 1#32 <<< 5⟩ := if_pos (by rw [hrun]; rfl)
  exact tick_begun hafter (r := ⟨3, 3, 1#32 <<< 5⟩) (by rw [hjudged, gfReport_begins hrow (hmode ▸ hb), hmode])

/-- A breaker that is closed in M6 with SYNC_OK (R203): from M6 to M7. -/
theorem tick_sync (hsen : seniorLane s = l) (hb : s.mode.busy = false) (hclosed : closed = true) (hmd : s.md = 6)
    (hok : (u.lane l).gf.syncOk = true) : u.mode.busy = true ∧ u.mode.target = 7 := by
  subst hclosed
  have hok' : ((gfTicked true l t).lane l).gf.syncOk = true := by
    obtain ⟨hot, hgf⟩ := modeTickLane_gf true l t
    rw [hafter.gf, hgf] at hok
    rw [gfTicked_gf]
    exact hok
  have hsync : closedInSync true l t = true := by
    simp [closedInSync, closedUnsync, closeUnsync, hok', hbefore.md_eq, hmd]
  have hmode : (gfTicked true l t).mode = s.mode := (gfTicked_mode true l t).trans hbefore.mode
  have hrow := row_auto (s := gfTicked true l t) (by rw [hmode, mode_of_md hmd]) 7
  have hjudged := (breakerJudged_of_sync hsync (gfSenior_self_of_gfView hsen hbefore.view) (hbefore.mode ▸ hb)).trans
    (trigger_begins hrow (hmode ▸ hb))
  obtain ⟨hbusy, htarget, -⟩ := tick_begun hafter (r := ⟨7, 2, 0⟩) (by rw [hjudged, beginTransition, hmode])
  exact ⟨hbusy, htarget⟩

/-- With the breaker open and no trip by the chopper the mode controller stays (R207). -/
theorem tick_open (hclosed : closed = false) (hmask : u8 (recD s 0x60 0) 19 / 4 % 2 = 0) : u.mode = s.mode := by
  have hjudged : breakerJudged closed l t = gfTicked closed l t := hclosed ▸ breakerJudged_of_open
  have htrip : tripMask 2 (breakerJudged closed l t) = false := by
    rw [tripMask, gfRec_of_gfView ((gfView_breakerJudged closed l t).trans hbefore.view), gfRec, Nat.pow_two, hmask]
    rfl
  rw [hafter.mode, modeTickLane_eq, chopperJudged_of_no_trip htrip, hjudged, gfTicked_mode, hbefore.mode]

end

/-- The tick (R199, R203): the senior lane's visit judges the breaker and the chopper, and no other lane signals. -/
theorem modeControllerTicks : Claim.ModeControllerTicks := by
  intro s l
  refine ⟨exec_modeCtrlTick_before, fun hmd hl hsen hb => ?_⟩
  obtain ⟨t, u, hex, hbefore, hafter⟩ := modeCtrlTick_visits hl hsen hmd
  have hnow : (modeTickLane (breakerFeedback s) l t).now = t.now :=
    (modeTickLane_only _ l t).now_eq (by cases l <;> decide)
  obtain ⟨beh, hot, hgf⟩ := tick_gf hafter hbefore
  refine ⟨u, hex, hbefore.now.trans (hnow ▸ hafter.now), by rw [hgf]; rfl, by rw [hgf]; rfl, by rw [hgf]; rfl, ?_, ?_, ?_⟩
  · exact tick_unsync hafter hbefore hsen hb
  · intro hmd6 hclosed hok
    obtain ⟨hbusy, htarget⟩ := tick_sync hafter hbefore hsen hb hclosed hmd6 hok
    exact ⟨hbusy, .inl htarget⟩
  · exact tick_open hafter hbefore

/-- Settles O34: of the lanes that run the block the senior one alone signals, so that what goes on beside it leaves the mode
controller to the row that it takes. -/
theorem gridLossAndModeTicks : Obligations.GridLossAndModeTicks :=
  ⟨gridLossAndRecoveryChangeTheMode, modeControllerTicks⟩

end Sys2Proof.Machine
end

section
/-! PROOFS. One step of the block (O1, O2; log entry 3) and the junior lane (O43; R252). -/

namespace Sys2Proof.Machine

/-- Settles O1: a step looks at the front of the queue alone. -/
theorem stepRunsFrontCommand : Obligations.StepRunsFrontCommand := fun _ _ _ => rfl

/-- Settles O2: an idle step lets one tick pass, and the raw counter goes with the time where it counts. -/
theorem emptyQueueLetsOneTickPass : Obligations.EmptyQueueLetsOneTickPass := by
  intro s hq
  have hstep : step s = .next (advance 1 s) := by rw [step, hq]
  have hraw : (advance 1 s).raw = if rawRuns s then s.raw + 1 else s.raw := rfl
  exact ⟨_, hstep, rfl, fun h => by rw [hraw, if_pos h], fun h => by rw [hraw, h]; rfl, rfl, advance_only 1 s⟩

/-- The lane with the higher claim is the senior one. -/
theorem seniorLane_of_claim_lt (s : State) :
    ((s.lc .a).claim.toNat < (s.lc .b).claim.toNat → seniorLane s = .b) ∧
      ((s.lc .b).claim.toNat < (s.lc .a).claim.toNat → seniorLane s = .a) :=
  ⟨fun h => (if_neg (Nat.lt_asymm h)).trans (if_pos h), fun h => if_pos h⟩

/-- On equal claims the lane that forwards more channels is the senior one, and lane A where they forward as many. -/
theorem seniorLane_of_claim_eq {s : State} (h : (s.lc .a).claim = (s.lc .b).claim) :
    seniorLane s = if forwards .a s < forwards .b s then .b else .a := by
  have hab : ¬ s.claim.b.claim.toNat < s.claim.a.claim.toNat := by
    rw [show s.claim.a.claim = s.claim.b.claim from h]; exact Nat.lt_irrefl _
  have hba : ¬ s.claim.a.claim.toNat < s.claim.b.claim.toNat := by
    rw [show s.claim.a.claim = s.claim.b.claim from h]; exact Nat.lt_irrefl _
  rw [seniorLane, if_neg hab, if_neg hba]

/-- Settles O43: the other lane is found from the senior one. -/
theorem theJuniorLaneHasTheLowerClaim : Obligations.TheJuniorLaneHasTheLowerClaim := by
  intro s fwd hf
  obtain rfl : fwd = fun l => forwards l s := funext hf
  obtain ⟨hlt, hgt⟩ := seniorLane_of_claim_lt s
  have other {l : Lane} (h : seniorLane s = l) : seniorLane s = l ∧ otherLane (seniorLane s) = otherLane l :=
    ⟨h, congrArg otherLane h⟩
  refine ⟨fun h => other (hlt h), fun h => other (hgt h), fun h => ?_⟩
  have heq := seniorLane_of_claim_eq h
  exact ⟨fun hc => other (heq.trans (if_pos hc)), fun hc => other (heq.trans (if_neg (Nat.lt_asymm hc))),
    fun hc => other (heq.trans (if_neg (by dsimp only at hc; omega)))⟩

end Sys2Proof.Machine
end

section
/-! PROOFS. Events and their pennants (O5; R6, R355, R356, R361). -/

namespace Sys2Proof.Machine

/-- A counter that has been raised is not 0. -/
theorem satInc_ne_zero {w : Nat} (hw : 0 < w) (v : BitVec w) : satInc v ≠ 0 := by
  have hp : 2 ≤ 2 ^ w := Nat.le_self_pow hw.ne' 2
  unfold satInc
  split
  case isTrue h =>
    intro h0
    have := congrArg BitVec.toNat h0
    rw [BitVec.toNat_add_of_lt (by simpa [Nat.mod_eq_of_lt (show 1 < 2 ^ w by omega)] using h)] at this
    simp [Nat.mod_eq_of_lt (show 1 < 2 ^ w by omega)] at this
  case isFalse h =>
    rintro rfl
    simp at h
    omega

/-- What a raised pennant does to a host port (R356): the port notes it. -/
theorem hostPort_raise (p : HostPort) (r : EvReg) (k : Nat) (s : State) :
    hostPort p (raise r k s) = notePort s.raw (r.base + k) (hostPort p s) := by
  cases p <;> rfl

/-- A port that subscribes to a pennant marks it, with the raw tick of the first one (R356). -/
theorem notePort_subscribed {n : Nat} {p : HostPortState} (raw : Long) (hn : n < 256) (h : bit p.sub n = true) :
    bit (notePort raw n p).pend n = true ∧ (p.pend = 0 → (notePort raw n p).first = raw) := by
  rw [notePort, if_pos h]
  exact ⟨by rw [bit_putBit _ _ _ _ hn, if_pos rfl], fun h0 => if_pos h0⟩

/-- A bit of a mask is cleared in the register (R6). -/
theorem eventsOf_clear_of_bit {v : Word} {k : Nat} (r : EvReg) (s : State) (h : bit v k = true) :
    bit (eventsOf r (clearEvents r v s)) k = false := by
  rw [eventsOf_clear]
  simp only [bit] at h
  simp [bit, h]

/-- Settles O5: the event register, the board and the ports are written side by side, and clearing touches the register
alone. -/
theorem eventsLatchTheirPennant : Obligations.EventsLatchTheirPennant := by
  intro r k s hk hn
  have hraised : (raise r k s).host.raised = putBit s.host.raised (r.base + k) true := rfl
  have hcounts : (raise r k s).host.counts =
      sparsePut 0 s.host.counts (r.base + k) (satInc (sparseGet 0 s.host.counts (r.base + k))) := rfl
  refine ⟨latched_raise r k s hk, ?_, fun j _ hj => ?_, fun q hq => eventsOf_raise_other q r k s hq, fun j _ hj => ?_, ?_,
    fun p hp => ?_, fun p hp => ?_, raise_only r k s, fun v hv => ⟨eventsOf_clear_of_bit r s hv, rfl, clearEvents_only r v s⟩⟩
  · rw [hraised, bit_putBit _ _ _ _ hn, if_pos rfl]
  · rw [eventsOf_raise r k j s hk, if_neg hj]
  · rw [hraised, bit_putBit _ _ _ _ hn, if_neg hj]
  · rw [hcounts]
    exact sparseGet_put_ne 0 _ _ _ (satInc_ne_zero (by decide) _)
  · rw [hostPort_raise]
    exact notePort_subscribed s.raw hn hp
  · rw [hostPort_raise, notePort, if_neg (by simp [hp])]

end Sys2Proof.Machine
end

section
/-! PROOFS. What every step keeps (O6, O8): the canonical form of the addressed memories, and what the host ports hold of requests,
responses and deadbolts. Most operations leave the ports as they are; this is the relation in which they compose. -/

-- One theorem at a time: each waits for the default arguments of `Frame.kept` and `Kept.under`, and a thread that waits holds its stack.
set_option Elab.async false

namespace Sys2Proof.Machine

/-! ### The relation -/

/-- What the limits of the host ports count (R353): requests, outbound frames, and the deadbolts that came through a port. -/
def portView (s : State) : (List HostRequest × List HostFrame) × (List HostRequest × List HostFrame) × List PendingBolt :=
  ((s.host.hsp.queue, s.host.hsp.out), (s.host.net.queue, s.host.net.out), s.host.bolts.filter (·.port.isSome))

/-- The addressed memories stay canonical, and the host ports hold what they held. -/
structure Kept (s t : State) : Prop where
  memory : Memory.wf s = true → Memory.wf t = true
  ports : portView t = portView s

/-- Nothing changes. -/
theorem Kept.refl (s : State) : Kept s s := ⟨id, rfl⟩

/-- One change after another. -/
theorem Kept.trans {s t u : State} (h : Kept s t) (k : Kept t u) : Kept s u :=
  ⟨k.memory ∘ h.memory, k.ports.trans h.ports⟩

/-- A change made where a condition holds. -/
theorem Kept.when {c : Bool} {f : State → State} {s : State} (h : Kept s (f s)) : Kept s (Machine.when c f s) := by
  cases c
  · exact .refl s
  · exact h

/-- A choice between two changes. -/
theorem Kept.ite {c : Prop} [Decidable c] {s t u : State} (h : Kept s t) (k : Kept s u) : Kept s (if c then t else u) := by
  split
  · exact h
  · exact k

/-- A change repeated over a list. -/
theorem Kept.foldS {α : Type} (xs : List α) (f : α → State → State) (s : State) (h : ∀ x t, Kept t (f x t)) :
    Kept s (Machine.foldS xs f s) := by
  unfold Machine.foldS
  induction xs generalizing s with
  | nil => exact .refl s
  | cons x xs ih => exact (h x s).trans (ih (f x s))

/-- The state of a pair that an equation names. -/
theorem Kept.snd {α : Type} {s t : State} {x : α × State} {a : α} (h : x = (a, t)) (k : Kept s x.2) : Kept s t := by
  subst h; exact k

/-- Where an outcome is a next state, it keeps what is kept. -/
def KeptOut (s : State) (o : Out) : Prop := ∀ t, o = .next t → Kept s t

/-- A next state. -/
theorem KeptOut.next {s t : State} (h : Kept s t) : KeptOut s (.next t) := by
  rintro u ⟨⟩
  exact h

/-- A fault leads to no state. -/
theorem KeptOut.fault (s : State) (r : Fault) : KeptOut s (.fault r) := by
  rintro u ⟨⟩

/-- A command of a master. -/
theorem KeptOut.byMaster {m : Master} {s : State} {f : State → State} (h : Kept s (f s)) : KeptOut s (byMaster m s f) := by
  unfold Machine.byMaster
  split
  · exact .next h
  · exact .fault s _

/-- The state a command leads to. -/
theorem KeptOut.nextOf {s : State} {o : Out} (h : KeptOut s o) : Kept s (nextOf o s) := by
  unfold Machine.nextOf
  split
  · exact h _ rfl
  · exact .refl s

/-! ### Memories -/

/-- The canonical form, memory by memory. -/
theorem memory_wf_iff (s : State) : Memory.wf s = true ↔ sparseWf 0 s.sram = true ∧ sparseWf 0 s.laneA.sram = true ∧
    sparseWf 0 s.laneB.sram = true ∧ sparseWf 0 s.key.buf = true ∧ ∀ p : Fin 4, sparseWf 0xFF s.key.flash[p] = true := by
  simp [Memory.wf, idx, and_assoc]

/-- The canonical form depends on the memories alone. -/
theorem memory_wf_congr {s t : State} (hsram : t.sram = s.sram) (ha : t.laneA.sram = s.laneA.sram)
    (hb : t.laneB.sram = s.laneB.sram) (hbuf : t.key.buf = s.key.buf) (hflash : t.key.flash = s.key.flash) :
    Memory.wf t = Memory.wf s := by
  rw [Memory.wf, Memory.wf, hsram, ha, hb, hbuf, hflash]

/-- What the ports hold is part of the host command processor beside the board. -/
theorem portView_of_hostRest {s t : State} (h : hostRest t = hostRest s) : portView t = portView s := by
  have q1 := congrArg (·.hsp.queue) h
  have q2 := congrArg (·.hsp.out) h
  have q3 := congrArg (·.net.queue) h
  have q4 := congrArg (·.net.out) h
  have q5 := congrArg (·.bolts) h
  simp only [hostRest] at q1 q2 q3 q4 q5
  rw [portView, portView, q1, q2, q3, q4, q5]

/-- The parts that hold an addressed memory or the host ports. -/
def Part.held : Part → Bool
  | .host | .key | .sramA | .sramB | .sram => true
  | _ => false

/-- No other part holds any. -/
@[simp] theorem held_rest :
    Part.held .time = false ∧ Part.held .free = false ∧ Part.held .queue = false ∧ Part.held .events = false ∧ Part.held .board = false ∧ Part.held .power = false ∧ Part.held .clock = false ∧ Part.held .mode = false ∧ Part.held .mesh = false ∧ Part.held .laneA = false ∧ Part.held .laneB = false ∧ Part.held .gate = false ∧ Part.held .claim = false ∧ Part.held .net = false ∧ Part.held .timebase = false ∧ Part.held .can = false ∧ Part.held .fio = false ∧ Part.held .plk = false ∧ Part.held .wear = false ∧ Part.held .outbox = false :=
  ⟨rfl, rfl, rfl, rfl, rfl, rfl, rfl, rfl, rfl, rfl, rfl, rfl, rfl, rfl, rfl, rfl, rfl, rfl, rfl, rfl⟩

/-- A lane's blocks hold none of them. -/
@[simp] theorem held_lanePart (l : Lane) : (lanePart l).held = false := by cases l <;> rfl

/-- A change that stays outside those parts. -/
theorem Frame.kept {ps : List Part} {s t : State} (h : Frame ps s t)
    (hp : ∀ p, p ∈ ps → p.held = false := by simp) : Kept s t := by
  have out {p : Part} (hh : p.held = true) : p ∉ ps := fun hm => by simp [hp p hm] at hh
  have hkey : t.key = s.key := h .key (out rfl)
  refine ⟨fun hw => ?_, portView_of_hostRest (h .host (out rfl))⟩
  rw [memory_wf_congr (h .sram (out rfl)) (h .sramA (out rfl)) (h .sramB (out rfl)) (congrArg _ hkey) (congrArg _ hkey), hw]

/-- A command whose change stays outside those parts. -/
theorem FrameOut.kept {ps : List Part} {s : State} {o : Out} (h : FrameOut ps s o)
    (hp : ∀ p, p ∈ ps → p.held = false := by simp) : KeptOut s o :=
  fun t ht => (h t ht).kept hp

/-- A change that stays outside those parts, after one that keeps what is kept. -/
theorem Kept.under {ps : List Part} {s t u : State} (h : Frame ps t u) (k : Kept s t)
    (hp : ∀ p, p ∈ ps → p.held = false := by simp) : Kept s u :=
  k.trans (h.kept hp)

/-- An event is raised. -/
theorem kept_raise (r : EvReg) (k : Nat) (s : State) : Kept s (raise r k s) := (raise_only r k s).kept

/-- An event is raised on a condition. -/
theorem kept_raiseIf (c : Bool) (r : EvReg) (k : Nat) (s : State) : Kept s (raiseIf c r k s) := (raiseIf_only c r k s).kept

/-- The keyring changes, its buffer and its flash stay canonical. -/
theorem kept_modKey {f : KeyState → KeyState} {s : State} (hbuf : sparseWf 0 s.key.buf = true → sparseWf 0 (f s.key).buf = true)
    (hflash : (∀ p : Fin 4, sparseWf 0xFF s.key.flash[p] = true) → ∀ p : Fin 4, sparseWf 0xFF (f s.key).flash[p] = true) :
    Kept s (modKey f s) := by
  refine ⟨fun hw => ?_, rfl⟩
  obtain ⟨hsram, ha, hb, hkb, hkf⟩ := (memory_wf_iff s).mp hw
  exact (memory_wf_iff _).mpr ⟨hsram, ha, hb, hbuf hkb, hflash hkf⟩

/-- The keyring changes beside its buffer and its flash. -/
theorem kept_modKey_rest {f : KeyState → KeyState} {s : State} (hbuf : (f s.key).buf = s.key.buf)
    (hflash : (f s.key).flash = s.key.flash) : Kept s (modKey f s) :=
  kept_modKey (fun h => hbuf ▸ h) (fun h => hflash ▸ h)

/-- A lane's SRAM is written. -/
theorem kept_laneWrite (l : Lane) (off : Nat) (bs : List Byte) (s : State) : Kept s (laneWrite l off bs s) := by
  refine ⟨fun hw => ?_, by cases l <;> rfl⟩
  obtain ⟨hsram, ha, hb, hkb, hkf⟩ := (memory_wf_iff s).mp hw
  cases l
  · exact (memory_wf_iff _).mpr ⟨hsram, sparsePutAll_wf _ _ _ _ ha, hb, hkb, hkf⟩
  · exact (memory_wf_iff _).mpr ⟨hsram, ha, sparsePutAll_wf _ _ _ _ hb, hkb, hkf⟩

/-- Shared SRAM is written. -/
theorem kept_sharedWrite (a : Nat) (bs : List Byte) (s : State) : Kept s (sharedWrite a bs s) := by
  refine ⟨fun hw => ?_, rfl⟩
  obtain ⟨hsram, ha, hb, hkb, hkf⟩ := (memory_wf_iff s).mp hw
  exact (memory_wf_iff _).mpr ⟨sparsePutAll_wf _ _ _ _ hsram, ha, hb, hkb, hkf⟩

/-- The host command processor changes beside the ports. -/
theorem kept_modHost {f : HostState → HostState} {s : State} (h : portView (modHost f s) = portView s) : Kept s (modHost f s) :=
  ⟨id, h⟩

/-! ### Key sessions and key commands (R96 to R99) -/

/-- The owner's write restarts the idle count. -/
theorem kept_touchSession (s : State) : Kept s (touchSession s) := kept_modKey_rest rfl rfl

/-- A session ends. -/
theorem kept_endSession (event : Bool) (s : State) : Kept s (endSession event s) :=
  (kept_modKey_rest rfl rfl).trans (kept_raiseIf _ _ _ _)

/-- A session opens. -/
theorem kept_openSession (m : Master) (s : State) : Kept s (openSession m s) :=
  (kept_modKey_rest rfl rfl).trans ((modMesh_only _ _).kept)

/-- A guarded write is discarded. -/
theorem kept_rwkDiscard (addr : Word) (s : State) : Kept s (rwkDiscard addr s) :=
  (kept_modKey_rest rfl rfl).trans (kept_raise _ _ _)

/-- A guarded write keeps what its effect keeps. -/
theorem kept_rwkWrite (m : Master) (addr : Word) {f : State → State} (s : State) (h : ∀ t, Kept t (f t)) :
    Kept s (rwkWrite m addr f s) := by
  unfold rwkWrite
  have h1 : Kept s (when (owns s m) touchSession s) := .when (kept_touchSession s)
  exact .ite (h1.trans (h _)) (h1.trans (kept_rwkDiscard _ _))

/-- A word of the transfer buffer is written. -/
theorem kept_keyBufWord (m : Master) (i : Nat) (v : Word) (s : State) : Kept s (keyBufWord m i v s) :=
  .ite (kept_modKey (sparsePutAll_wf _ _ _ _) id) (kept_rwkDiscard _ _)

/-- A result is posted. -/
theorem kept_postKey (op : Nat) (seq : Half) (code : Nat) (s : State) : Kept s (postKey op seq code s) :=
  kept_modKey_rest rfl rfl

/-- A key command keeps what its start keeps. -/
theorem kept_keyCommand (op : Nat) (m : Master) (key : Half) (fw : Bool) (refuse : State → Nat) {start : State → State} (s : State)
    (h : ∀ t, Kept t (start t)) : Kept s (keyCommand op m key fw refuse start s) := by
  unfold keyCommand
  have h1 : Kept s (when (owns s m) touchSession (modKey (fun k => { k with seq := s.key.seq + 1 }) s)) :=
    (kept_modKey_rest rfl rfl).trans (.when (kept_touchSession _))
  exact .ite (h1.trans ((kept_postKey _ _ _ _).trans (kept_raiseIf _ _ _ _)))
    (h1.trans ((kept_modKey_rest rfl rfl).trans (h _)))

/-- OPEN. -/
theorem kept_openCmd (m : Master) (key : Half) (fw : Bool) (s : State) : Kept s (openCmd m key fw s) := by
  unfold openCmd
  exact .ite (((kept_modKey_rest rfl rfl).trans (kept_touchSession _)).trans (kept_postKey _ _ _ _))
    (kept_keyCommand _ _ _ _ _ _ (kept_openSession m))

/-- A flash page changes and stays canonical. -/
theorem kept_modPage (i : Fin 4) {f : List (Nat × Byte) → List (Nat × Byte)} (s : State)
    (h : ∀ p, sparseWf 0xFF p = true → sparseWf 0xFF (f p) = true) : Kept s (modPage i f s) := by
  refine kept_modKey id fun hf p => ?_
  by_cases hp : p = i
  · subst hp
    rw [modAt_getElem_self]
    exact h _ (hf p)
  · rw [modAt_getElem_other _ _ _ _ hp]
    exact hf p

/-- VERIFIED of a page changes. -/
theorem kept_setVerified (i : Fin 4) (v : Bool) (s : State) : Kept s (setVerified i v s) := kept_modKey_rest rfl rfl

/-- Entries taken out of a canonical memory leave it canonical above every bound. -/
theorem sparseWfFrom_filter {α : Type} [DecidableEq α] (d : α) (q : Nat × α → Bool) (m : List (Nat × α)) (b : Option Nat)
    (h : sparseWfFrom d b m = true) : sparseWfFrom d b (m.filter q) = true := by
  induction m generalizing b with
  | nil => rfl
  | cons e m ih =>
    obtain ⟨a, x⟩ := e
    have hlow (b' : Option Nat) (hb : b' = b) : sparseWfFrom d (some a) m = true ∧
        (∀ m', sparseWfFrom d (some a) m' = true → sparseWfFrom d b' ((a, x) :: m') = true ∧ sparseWfFrom d b' m' = true) := by
      subst hb
      cases b' with
      | none =>
        simp only [sparseWfFrom, Bool.and_eq_true] at h ⊢
        exact ⟨h.2, fun m' hm => ⟨⟨h.1, hm⟩, sparseWfFrom_none d m' _ hm⟩⟩
      | some c =>
        simp only [sparseWfFrom, Bool.and_eq_true, decide_eq_true_eq] at h ⊢
        exact ⟨h.2, fun m' hm => ⟨⟨h.1, hm⟩, sparseWfFrom_mono d m' c a (Nat.le_of_lt h.1.1) hm⟩⟩
    obtain ⟨hm, hcons⟩ := hlow b rfl
    rw [List.filter_cons]
    split
    · exact (hcons _ (ih _ hm)).1
    · exact (hcons _ (ih _ hm)).2

/-- A page marked stale is canonical. -/
theorem markStale_wf (p : List (Nat × Byte)) (h : sparseWf 0xFF p = true) : sparseWf 0xFF (markStale p) = true :=
  sparsePutAll_wf _ _ _ _ h

/-- Each key command keeps what is kept. -/
theorem kept_keyClose (m : Master) (key : Half) (fw : Bool) (s : State) : KeptOut s (execKeyClose m key fw s) :=
  .byMaster (kept_keyCommand _ _ _ _ _ _ (kept_endSession false))

/-- ERASE marks the descriptor stale. -/
theorem kept_keyErase (m : Master) (key : Half) (fw : Bool) (s : State) : KeptOut s (execKeyErase m key fw s) := by
  refine .byMaster (kept_keyCommand _ _ _ _ _ _ fun t => (kept_modPage _ t fun p hp => ?_).trans (kept_setVerified _ _ _))
  split
  · exact hp
  · exact markStale_wf p hp

/-- A key command that only runs. -/
theorem kept_keyRun (op : Nat) (m : Master) (key : Half) (fw : Bool) (refuse : State → Nat) (s : State) :
    KeptOut s (byMaster m s (keyCommand op m key fw refuse id)) :=
  .byMaster (kept_keyCommand _ _ _ _ _ _ .refl)

/-- A flash failure leaves bytes of a page open. -/
theorem kept_flashFail (i : Fin 4) (off n : Nat) (s : State) : Kept s (flashFail i off n s) :=
  ((fresh_set s _).kept).trans (kept_modPage i _ fun _ => sparsePutAll_wf _ _ _ _)

/-- ERASE completes. -/
theorem kept_doErase (r : KeyRun) (ok : Bool) (s : State) : Kept s (doErase r ok s).2 := by
  unfold doErase
  cases ok
  · exact kept_flashFail _ _ _ _
  · exact kept_modPage _ s fun p => sparseWfFrom_filter _ _ p none

/-- PROGRAM completes. -/
theorem kept_doProgram (r : KeyRun) (ok : Bool) (s : State) : Kept s (doProgram r ok s).2 := by
  unfold doProgram
  dsimp only
  split
  · exact .refl s
  · split
    · exact (kept_modPage _ s fun _ => sparsePutAll_wf _ _ _ _).trans (kept_setVerified _ _ _)
    · exact (kept_flashFail _ _ _ _).trans (kept_setVerified _ _ _)

/-- VERIFY completes. -/
theorem kept_doVerify (r : KeyRun) (s : State) : Kept s (doVerify r s).2 := by
  have free : Kept s (takeFree s).2 := (takeFree_only s).kept
  unfold doVerify
  dsimp only
  split
  · split
    · exact free.trans (kept_setVerified _ _ _)
    · dsimp only
      exact free.trans (kept_modKey_rest rfl rfl)
  · split
    · exact kept_setVerified _ _ _
    · dsimp only
      exact kept_modKey_rest rfl rfl

/-- COMMIT completes. -/
theorem kept_doCommit (r : KeyRun) (ok : Bool) (s : State) : Kept s (doCommit r ok s).2 := by
  unfold doCommit
  dsimp only
  split
  · exact .refl s
  · split
    · exact kept_flashFail _ _ _ _
    · refine (kept_modPage r.page s fun _ => sparsePutAll_wf _ _ _ _).trans (Kept.trans (.when ?_) (.when (kept_modKey_rest rfl rfl)))
      exact (((modPlk_only _ _).kept).trans ((plkLog_only _ _ _ _ _ _).kept)).trans (kept_raise _ _ _)

/-- SAFEAUTH completes, and the buffer is cleared. -/
theorem kept_doSafeauth (r : KeyRun) (s : State) : Kept s (doSafeauth r s).2 := by
  have cleared (t : State) : Kept t (modKey (fun k => { k with buf := [] }) t) := kept_modKey (fun _ => rfl) id
  have pw : Kept s (passwordOk r s).2 := (passwordOk_only r s).kept
  unfold doSafeauth
  dsimp only
  split
  · exact cleared s
  · split
    · dsimp only
      exact ((pw.trans (cleared _)).trans ((modPlk_only _ _).kept)).trans (kept_modKey_rest rfl rfl)
    · exact (pw.trans (cleared _)).trans ((authFailed_only r _).kept)

/-- The running command completes. -/
theorem kept_finishKey (r : KeyRun) (ok : Bool) (s : State) : Kept s (finishKey r ok s).2 := by
  unfold finishKey
  split
  · exact kept_doErase r ok s
  · exact kept_doProgram r ok s
  · exact kept_doVerify r s
  · exact kept_doCommit r ok s
  · exact kept_doSafeauth r s
  · exact Kept.trans (kept_modKey_rest rfl rfl : Kept s (modKey (fun k => { k with rollback := k.imgRollback }) s)) (kept_raise _ _ _)
  · dsimp only
    exact kept_modKey_rest rfl rfl
  · dsimp only
    exact kept_modKey_rest rfl rfl
  · exact .refl s

/-- The running command completes and posts its result. -/
theorem kept_keyCmdComplete (flash : FlashResult) (s : State) : KeptOut s (execKeyCmdComplete flash s) := by
  refine .next ?_
  split
  · exact .refl s
  · rename_i r _
    refine .ite (.refl s) ?_
    have wear : Kept s (flashWear r flash.worn s).2 := (flashWear_only _ _ _).kept
    exact ((wear.trans (kept_finishKey r _ _)).trans (kept_modKey_rest rfl rfl)).trans (kept_postKey _ _ _ _)

/-- A deadbolt stops the running command. -/
theorem kept_abortKey (s : State) : Kept s (abortKey s) := by
  unfold abortKey
  split
  · exact .refl s
  · rename_i r _
    refine Kept.trans (.ite ?_ (.refl s)) (((kept_modKey_rest rfl rfl).trans (kept_postKey _ _ _ _)).trans (kept_raise _ _ _))
    exact (kept_modPage _ s markStale_wf).trans (kept_setVerified _ _ _)

/-- A session of the keyring times out. -/
theorem kept_sessionTimeout (s : State) : KeptOut s (execSessionTimeout s) :=
  .next (.ite (((elapseTo_only _ _).kept).trans (kept_endSession _ _)) (.refl s))

end Sys2Proof.Machine
end

section
/-! PROOFS. What the lanes write into their SRAM keeps it canonical (O6): marks and records of the recorder, trace taps, and what a
step, a branch commit or a tumbler notes there (R163, R336, R342). -/

-- One theorem at a time: each waits for the default arguments of `Frame.kept` and `Kept.under`, and a thread that waits holds its stack.
set_option Elab.async false

namespace Sys2Proof.Machine

/-- A mark enters the mark list (R342). -/
theorem kept_recMark (l : Lane) (ticks : Long) (fracN kind tag src data : Nat) (s : State) :
    Kept s (recMark l ticks fracN kind tag src data s) := by
  unfold recMark
  dsimp only
  split
  · exact .refl s
  · exact .ite (.refl s) (.ite (.under (raise_only _ _ _) (modRec_only _ _ _).kept)
      (.under (modRec_only _ _ _) (kept_laneWrite _ _ _ _)))

/-- The sampling grid is phased anew (R131). -/
theorem kept_rephase (l : Lane) (s : State) : Kept s (rephase l s) := by
  unfold rephase
  have hpins (xs : List (Fin 32)) (f : Fin 32 → PinState → PinState) (t : State) :
      Kept t (foldS xs (fun p u => modPin l p (f p) u) t) := .foldS _ _ _ fun _ _ => (modPin_only _ _ _ _).kept
  refine Kept.trans (.under (modMeas_only _ _ _) ?_) (.when (.trans (kept_raise _ _ _) (kept_recMark _ _ _ _ _ _ _ _)))
  exact (hpins _ (fun _ => spareReady) _).trans (hpins _ (fun _ => rephasePin s.now _) _)

/-- A trigger reaches the measurement block (R131). -/
theorem kept_triggerMeas (l : Lane) (c : Fin 8) (leadNs : Nat) (s : State) : Kept s (triggerMeas l c leadNs s) := by
  unfold triggerMeas
  refine .ite (.refl s) (Kept.trans (.under (raiseIf_only _ _ _ _) ?_) (.when (kept_rephase _ _)))
  exact .foldS _ _ _ fun _ _ => (modPin_only _ _ _ _).kept

/-- A trigger of a context (R145, R230). -/
theorem kept_loopTrigger (c : Fin 8) (leadNs : Nat) (s : State) : Kept s (loopTrigger c leadNs s) := by
  unfold loopTrigger
  split
  · exact .refl s
  · refine Kept.trans (.under (scheduleNext_only _ _) (.under (modTime_only _ _) (elapseToRaw_only _ _).kept))
      (.foldS _ _ _ fun l t => ?_)
    have heng : Kept t (triggerEng l c (triggerMeas l c leadNs t)) :=
      .under (triggerEng_only _ _ _) (kept_triggerMeas _ _ _ _)
    exact .ite (.under (alignCarriers_only _ _ _ _) heng) heng

/-- A tap writes one entry of its trace (R163). -/
theorem kept_traceWrite (l : Lane) (c t : Fin 8) (v : Word) (tag branch ahead step : Nat) (s : State) :
    Kept s (traceWrite l c t v tag branch ahead step s) :=
  .under (modTap_only _ _ _ _) (kept_laneWrite _ _ _ _)

/-- The taps record a committed step (R163). -/
theorem kept_traceCommit (l : Lane) (c : Fin 8) (step : Nat) (s : State) : Kept s (traceCommit l c step s) := by
  refine .foldS _ _ _ fun t u => .ite (.refl u) (.under (modTap_only _ _ _ _) ?_)
  exact Kept.trans (modTap_only _ _ _ _).kept (.when (kept_traceWrite _ _ _ _ _ _ _ _ _))

/-- The taps record a speculative step (R163). -/
theorem kept_specTrace (l : Lane) (c : Fin 8) (g : Graph) (j : SpecJob) (nodes : List (Nat × Word)) (s : State) :
    Kept s (specTrace l c g j nodes s) := by
  refine .foldS _ _ _ fun t u => .ite ?_ (.refl u)
  cases jobTpl j
  · exact kept_traceWrite _ _ _ _ _ _ _ _ _
  · exact kept_traceWrite _ _ _ _ _ _ _ _ _

/-- A speculative step is done (R169). -/
theorem kept_specStepDone (l : Lane) (c : Fin 8) (s : State) : Kept s (specStepDone l c s) := by
  unfold specStepDone
  split
  · refine .ite (.refl s) (.ite (modRaCtx_only _ _ _ _).kept (Kept.trans ?_ (kept_specTrace _ _ _ _ _ _)))
    exact Kept.trans (.under (keepJob_only _ _ _ _ _ _) (.under (modRaCtx_only _ _ _ _) (advance_only _ _).kept))
      (.when (noteSubs_only _ _ _ _).kept)
  · exact .refl s

/-- The taps record a branch commit (R163). -/
theorem kept_branchTrace (l : Lane) (c : Fin 8) (t : Fin 3) (b : BranchOut) (s : State) : Kept s (branchTrace l c t b s) :=
  .foldS _ _ _ fun _ u => .ite (kept_traceWrite _ _ _ _ _ _ _ _ _) (.refl u)

/-- Outputs are written, and their tokens follow. -/
theorem kept_writeOutputs {mark : Lane → Fin 16 → State → State} (l : Lane) (outs : List (Nat × Word)) (s : State)
    (hm : ∀ g t, Kept t (mark l g t)) : Kept s (writeOutputs l outs mark s) := by
  unfold writeOutputs
  exact (Kept.foldS _ _ _ fun _ _ => (writeOutput_only _ _ _ _).kept).trans (.foldS _ _ _ fun _ _ => hm _ _)

/-- A branch commits in one context (R177). -/
theorem kept_commitBranch (l : Lane) (c : Fin 8) (t : Fin 3) (b : BranchOut) (s : State) : Kept s (commitBranch l c t b s) := by
  unfold commitBranch
  refine .under (reportCommit_only _ _ _ _) (Kept.trans (.under (raiseIf_only _ _ _ _) (.under (modRaCtx_only _ _ _ _) (.when ?_)))
    (kept_branchTrace _ _ _ _ _))
  exact kept_writeOutputs _ _ _ fun _ _ => (branchToken_only _ _ _).kept

/-- A branch commit marks the record (R342). -/
theorem kept_branchMark (l : Lane) (t : Fin 3) (tag ctxs : Nat) (s : State) : Kept s (branchMark l t tag ctxs s) :=
  kept_recMark _ _ _ _ _ _ _ _

/-- A qualified branch commits where it may (R177 to R180). -/
theorem kept_branchCommit (l : Lane) (t : Fin 3) (src : BranchSource) (latency : Nat) (s : State) :
    Kept s (branchCommit l t src latency s) := by
  unfold branchCommit
  extract_lets on s1 lacking takers mask s2 s3 s4
  have h2 : Kept s s2 := Kept.trans (elapseTo_only _ _).kept
    (.when (.foldS _ _ _ fun _ _ => .under (raise_only _ _ _) (modRaCtx_only _ _ _ _).kept))
  have h3 : Kept s2 s3 := .foldS _ _ _ fun c u => by
    cases takesCommit l c t u with
    | none => exact .refl u
    | some b => exact kept_commitBranch _ _ _ _ _
  have h4 : Kept s2 s4 := .under (raise_only _ _ _) (.under (modRa_only _ _ _) h3)
  refine .ite (.refl s) (.ite (h2.trans (kept_branchMark _ _ _ _ _)) (.ite (h2.trans (kept_branchMark _ _ _ _ _)) ?_))
  exact .under (trigger_only _ _) (.under (noteTrig_only _ _ _ _) ((h2.trans h4).trans (kept_branchMark _ _ _ _ _)))

/-- A frame of raw codes enters the record (R336). -/
theorem kept_writeRaw (l : Lane) (inst : Nat) (bs : List Byte) (s : State) : Kept s (writeRaw l inst bs s) := by
  unfold writeRaw
  split
  · exact .refl s
  · exact .ite (.refl s) (.under (noteFull_only _ _) (.under (modRun_only _ _ _) (kept_laneWrite _ _ _ _)))

/-- A raw code is heard (R336). -/
theorem kept_rawSample (l : Lane) (pin : Fin 32) (inst : Nat) (codes : List Byte) (s : State) :
    Kept s (rawSample l pin inst codes s) := by
  unfold rawSample
  refine .ite (.refl s) (.ite (modRec_only _ _ _).kept ?_)
  exact Kept.trans (.under (modRec_only _ _ _) (modRec_only _ _ _).kept) (kept_writeRaw _ _ _ _)

/-- A decimated frame enters the record in shared SRAM (R336). -/
theorem kept_decFrame (l : Lane) (c : Fin 8) (step : Nat) (trigRaw : Long) (s : State) :
    Kept s (decFrame l c step trigRaw s) := by
  unfold decFrame
  refine .ite (.refl s) ?_
  extract_lets n div s1
  have h1 : Kept s s1 := (modRec_only _ _ _).kept
  split
  · exact h1
  · exact .ite h1 (.under (noteFull_only _ _) (.under (modRun_only _ _ _) (h1.trans (.when (kept_sharedWrite _ _ _)))))

/-- A trigger is taken by the recorder (R338 to R340). -/
theorem kept_takeTrigger (l : Lane) (t : RecTrigger) (cross fromOther : Bool) (s : State) :
    Kept s (takeTrigger l t cross fromOther s) := by
  unfold takeTrigger
  dsimp only
  split
  · exact (missTrigger_only _ _ _).kept
  · refine .ite (missTrigger_only _ _ _).kept ?_
    split
    · exact .under (raise_only _ _ _) (Kept.trans (.under (modRec_only _ _ _) (kept_recMark _ _ _ _ _ _ _ _))
        (.when (modRec_only _ _ _).kept))
    · exact .ite (modRun_only _ _ _).kept (.under (raise_only _ _ _) (.under (modRun_only _ _ _) (kept_recMark _ _ _ _ _ _ _ _)))

/-- A source triggers a recorder. -/
theorem kept_recTrig (l : Lane) (src frac : Nat) (s : State) : Kept s (recTrig l src frac s) := by
  unfold recTrig
  split
  · exact .refl s
  · exact (modRec_only _ _ _).kept.trans (kept_takeTrigger _ _ _ _ _)

/-- A trigger crosses the link (R344). -/
theorem kept_xlaneTrigger (l : Lane) (s : State) : Kept s (xlaneTrigger l s) := by
  unfold xlaneTrigger
  split
  · exact .refl s
  · exact (modRec_only _ _ _).kept.trans (kept_takeTrigger _ _ _ _ _)

/-- The command triggers a recorder. -/
theorem kept_recCmdTrig (l : Lane) (s : State) : Kept s (recCmdTrig l s) :=
  Kept.trans (.under (noteTrig_only _ _ _ _) (takeFree_only s).kept) (kept_recTrig _ _ _ _)

/-- A mailbox operation is told of an event (R357). -/
theorem kept_opEvent (op a0 a1 : Nat) (r : Word × Word) (taken : List Word) (s : State) :
    Kept s (opEvent op a0 a1 r taken s) := ⟨id, rfl⟩

/-- A record is complete (R341). -/
theorem kept_recDone (l : Lane) (s : State) : Kept s (recDone l s) := by
  unfold recDone
  dsimp only
  split
  case h_2 => exact .refl s
  case h_1 k t _ _ =>
    set s0 := elapseTo t s
    have h1 (bs : List Byte) (d : Bool) (cs : List Byte) : Kept s (Machine.when d (sharedWrite (decSegBase s k.val) cs)
        (laneWrite l (rawSegBase (recNseg s) k.val) bs s0)) :=
      (elapseTo_only _ _).kept.trans ((kept_laneWrite _ _ _ _).trans (.when (kept_sharedWrite _ _ _)))
    split
    · exact .under (raise_only _ _ _) (.under (raise_only _ _ _) (.under (modRec_only _ _ _) ((h1 _ _ _).trans (kept_opEvent _ _ _ _ _ _))))
    · exact .under (startSegment_only _ _ _ _) (.under (takeFree_only _) (.under (raise_only _ _ _)
        (.under (modRec_only _ _ _) ((h1 _ _ _).trans (kept_opEvent _ _ _ _ _ _)))))

/-- A code of a stream is recorded. -/
theorem kept_recordCode (pin : Fin 32) (inst : Nat) (x : StreamCode) (s : State) : Kept s (recordCode pin inst x s) :=
  .ite (kept_rawSample _ _ _ _ _) (.ite (.refl s) (kept_rawSample _ _ _ _ _))

/-- A converter samples its pin. -/
theorem kept_converterSample (l : Lane) (pin : Fin 32) (legP legN : Int) (lost : Bool) (s : State) :
    Kept s (converterSample l pin legP legN lost s) := by
  unfold converterSample
  refine .ite (.refl s) (Kept.trans ?_ (.foldS _ _ _ fun _ _ => kept_recordCode _ _ _ _))
  exact .under (classify_only _ _ _) (.under (refreshWin_only _ _) (.under (noteExits_only _ _ _)
    (.under (takeSample_only _ _ _ _ _ _ _) (.under (sampleCode_only _ _ _ _ _) (elapseTo_only _ _).kept))))

/-- A committed step commits (R146). -/
theorem kept_stepCommit (l : Lane) (c : Fin 8) (s : State) : Kept s (stepCommit l c s) := by
  unfold stepCommit
  split
  case h_2 => exact .refl s
  case h_1 g r t _ _ _ =>
    refine .ite (.refl s) ?_
    extract_lets s1 beh env b s2 ok outs s3 s4 s5 s6 s7 s8 s9 nodes s10
    have h4 : Kept s s4 := Kept.trans (.under (modCtx_only _ _ _ _) (.under (putNodes_only _ _ _) (elapseTo_only _ _).kept))
      (.when (kept_writeOutputs _ _ _ fun _ _ => (token_only _ _ _).kept))
    have h7 : Kept s s7 := Kept.trans (Kept.trans (.under (noteSubs_only _ _ _ _) h4) (.when (modCtx_only _ _ _ _).kept))
      (kept_traceCommit _ _ _ _)
    have h8 : Kept s s8 := by
      dsimp only [s8]
      cases b.gf with
      | none => exact h7
      | some gr => exact h7.trans (.when (gfCommitted_only _ _ _).kept)
    refine .under (resumeRuns_only _ _) (Kept.trans (Kept.trans ?_ (kept_opEvent _ _ _ _ _ _)) (kept_decFrame _ _ _ _ _))
    exact .under (modLc_only _ _ _) (.under (raCommit_only _ _ _ _) h8)

/-- What a lane mirrors leaves the memories. -/
theorem kept_takeMirror (l : Lane) (c : Fin 8) (g : Graph) (s : State) : Kept s (takeMirror l c g s) :=
  (takeMirror_only l c g s).kept

/-- A lane under recovery receives the state of a context (R262). -/
theorem kept_mirrorReceived (l : Lane) (c : Fin 8) (s : State) : Kept s (mirrorReceived l c s) := by
  unfold mirrorReceived
  split
  · exact .refl s
  · refine .ite (.refl s) ?_
    have h1 (g : Graph) : Kept s (modLc l (fun x => { x with mirrored := putBit x.mirrored c.val true }) (takeMirror l c g s)) :=
      .under (modLc_only _ _ _) (kept_takeMirror _ _ _ _)
    exact .ite (.under (startMatch_only _ _) (h1 _)) (h1 _)

/-- The senior lane is noted, and marked in the records (R342). -/
theorem kept_noteSenior (s : State) : Kept s (noteSenior s) :=
  .ite (.refl s) ((modClaim_only _ _).kept.trans (.foldS _ _ _ fun _ _ => kept_recMark _ _ _ _ _ _ _ _))

/-- The claims change (R259). -/
theorem kept_claimChange (s : State) : Kept s (claimChange s) := by
  unfold claimChange
  refine Kept.trans ?_ (kept_noteSenior _)
  unfold claimChange.judgeClaims
  refine .ite (.refl s) (Kept.trans (.under (raiseIf_only _ _ _ _) (.under (raiseIf_only _ _ _ _) (.under (modClaim_only _ _) ?_)))
    (.foldS _ _ _ fun _ _ => (refreshWin_only _ _).kept))
  exact .foldS _ _ _ fun _ _ => (tumReact_only _ _).kept

/-- A tumbler reverts (R260). -/
theorem kept_revertTumbler (ch : Fin 32) (s : State) : Kept s (revertTumbler ch s) := by
  unfold revertTumbler
  refine .ite (.refl s) (Kept.trans (.under (raise_only _ _ _) (.under (modClaim_only _ _) ((elapseTo_only _ _).kept.trans
    (.foldS _ _ _ fun _ _ => .under (followTum_only _ _) (modTum_only _ _ _).kept)))) (kept_noteSenior _))

/-- A tumbler switches over (R259). -/
theorem kept_switchover (ch : Fin 32) (s : State) : Kept s (switchover ch s) := by
  unfold switchover
  extract_lets t s1 mine s2 s3
  have h2 : Kept s s2 := (elapseTo_only _ _).kept.trans (.foldS _ _ _ fun c x => by
    split
    · exact (modTum_only _ _ _).kept
    · exact .under (followTum_only _ _) (modTum_only _ _ _).kept)
  refine .ite (.refl s) (.ite (.under (lanesLost_only _) h2) (.under (noteTrigs_only _ _) (Kept.trans ?_
    (.foldS _ _ _ fun _ _ => kept_recMark _ _ _ _ _ _ _ _))))
  exact .under (claim_set _ _) (.under (raise_only _ _ _) (.under (modClaim_only _ _) h2))

/-- A filter coefficient is written (R140). -/
theorem kept_fltCoefdat (l : Lane) (m : Master) (v : Word) (s : State) : Kept s (fltCoefdat l m v s) :=
  .ite (.refl s) (kept_rwkWrite _ _ _ fun t => .ite (.refl t) (.ite (kept_raise _ _ _) (modPin_only _ _ _ _).kept))

/-- The frame of a CAN buffer has been sent (R294). -/
theorem kept_canTxDone (p : Fin 2) (b : Fin 8) (s : State) : Kept s (canTxDone p b s) := by
  unfold canTxDone
  refine .ite (.refl s) ?_
  have stamp : Kept s (sofStamp s).2 := (sofStamp_only s).kept
  exact .under (canAttempt_only _ _) (.under (raise_only _ _ _) (.under (canSettle_only _ _)
    (Kept.trans (.under (send_only _ _) (.under (modCan_only _ _ _) (.under (modBuf_only _ _ _ _) stamp))) (kept_opEvent _ _ _ _ _ _))))

end Sys2Proof.Machine
end

section
/-! PROOFS. What a register write, a transfer of the mesh and the end of a start or of a transition keep (O6, O8; R6, R98, R104 to
R120, R358, R359, R379). -/

-- One theorem at a time: each waits for the default arguments of `Frame.kept` and `Kept.under`, and a thread that waits holds its stack.
set_option Elab.async false

namespace Sys2Proof.Machine

/-! ### Mailboxes and deadbolts (R357 to R359) -/

/-- A mailbox changes. -/
theorem kept_modMbox (k : Fin 16) (f : Mailbox → Mailbox) (s : State) : Kept s (modMbox k f s) := by
  refine kept_modHost (f := fun h => { h with mbox := modAt h.mbox k f }) ?_
  rfl

/-- A result is posted. -/
theorem kept_postResult (k : Fin 16) (op status : Nat) (r0 r1 : Word) (s : State) : Kept s (postResult k op status r0 r1 s) := by
  refine .under (raise_only _ _ _) (Kept.trans ?_ (kept_modMbox _ _ _))
  exact kept_modHost rfl

/-- A result is read. -/
theorem kept_markRead (k : Fin 16) (s : State) : Kept s (markRead k s) := kept_modMbox _ _ _

/-- HCP_MBSTAT is read. -/
theorem kept_mbstatRead (s : State) : Kept s (mbstatRead s).2 := ⟨id, rfl⟩

/-- HCP_DBRES takes an outcome. -/
theorem kept_boltResult (target : Byte) (status : Nat) (s : State) : Kept s (boltResult target status s) := ⟨id, rfl⟩

/-- A deadbolt that no port has sent is decided; where it waits, no port waits for it. -/
theorem kept_decideBolt {b : PendingBolt} (hb : b.port = none) (s : State) : Kept s (decideBolt b s) := by
  unfold decideBolt
  split
  · exact ⟨id, by simp [portView, modHost, hb]⟩
  · exact (kept_boltResult _ _ _).trans (kept_raise _ _ _)
  · exact kept_boltResult _ _ _
  · exact .refl s

/-- A deadbolt is written to HCP_DBOLT. -/
theorem kept_boltWrite (v : Word) (s : State) : Kept s (boltWrite v s) := .ite (kept_decideBolt rfl s) (.refl s)

/-! ### Register writes (R6, R98) -/

/-- A write of the pennant board. -/
theorem kept_writePnt (off : Nat) (v : Word) (s : State) : Kept s (writePnt off v s) :=
  .ite ⟨id, rfl⟩ (.ite ⟨id, rfl⟩ (.ite ⟨id, rfl⟩ (.ite ⟨id, rfl⟩ (.refl s))))

/-- A write of KEY_CMD. -/
theorem kept_keyCmd (m : Master) (v : Word) (s : State) : Kept s (keyCmd m v s) := by
  unfold keyCmd
  split
  · exact kept_openCmd _ _ _ _
  · exact (kept_keyClose _ _ _ _).nextOf
  · exact (kept_keyErase _ _ _ _).nextOf
  all_goals exact (kept_keyRun _ _ _ _ _ _).nextOf

/-- A write of the keyring. -/
theorem kept_writeKey (m : Master) (off : Nat) (v : Word) (s : State) : Kept s (writeKey m off v s) := by
  unfold writeKey
  refine .ite (kept_keyBufWord _ _ _ _) ?_
  split
  · exact (clearEvents_only _ _ _).kept
  · exact kept_keyCmd _ _ _
  · exact kept_modKey_rest rfl rfl
  · exact .refl s

/-- A write of the mesh. -/
theorem kept_writeMesh (m : Master) (off : Nat) (v : Word) (s : State) : Kept s (writeMesh m off v s) := by
  unfold writeMesh
  refine .ite (.ite (releaseLock_only _ _ _).kept (.refl s)) ?_
  split
  · exact (clearEvents_only _ _ _).kept
  · exact (swapSlots_only _ _ _).kept
  · exact (modMesh_only _ _).kept
  · exact kept_rwkWrite _ _ _ fun t => (modMesh_only _ t).kept
  · exact .ite (modMesh_only _ _).kept (.refl s)
  · exact .ite (execMeshCntclr_only s).kept.nextOf (.refl s)
  · exact .refl s

/-- A write of the claims. -/
theorem kept_writeClm (m : Master) (off : Nat) (v : Word) (s : State) : Kept s (writeClm m off v s) := by
  unfold writeClm
  split
  · exact (clearEvents_only _ _ _).kept
  · exact kept_rwkWrite _ _ _ fun t => (setClmCtl_only v t).kept
  · exact (clmCmd_only _ _).kept
  · exact .refl s

/-- A write of the network and time registers. -/
theorem kept_writeNet (m : Master) (off : Nat) (v : Word) (s : State) : Kept s (writeNet m off v s) := by
  unfold writeNet
  split
  · exact (clearEvents_only _ _ _).kept
  · exact .ite (modNet_only _ _).kept (.refl s)
  · exact (clearEvents_only _ _ _).kept
  · exact kept_rwkWrite _ _ _ fun t => (setTimeCtl_only v t).kept
  · exact kept_rwkWrite _ _ _ fun t => (setPpsSec_only v t).kept
  · exact (modTime_only _ _).kept
  · exact (modTime_only _ _).kept
  · exact (cvStart_only _ _).kept
  · exact .refl s

/-- A write of the host command processor. -/
theorem kept_writeHcp (off : Nat) (v : Word) (s : State) : Kept s (writeHcp off v s) := by
  unfold writeHcp
  split
  · exact (clearEvents_only _ _ _).kept
  · exact kept_boltWrite _ _
  · exact ⟨id, rfl⟩
  · exact .refl s

/-- A write of the measurement block. -/
theorem kept_writeMeas (m : Master) (l : Lane) (off : Nat) (v : Word) (s : State) : Kept s (writeMeas m l off v s) := by
  have pin (f : PinState → PinState) (t : State) : Kept t (setPin l f t) := (modPin_only _ _ _ _).kept
  unfold writeMeas
  split
  · exact (clearEvents_only _ _ _).kept
  · exact (modMeas_only _ _ _).kept
  · exact kept_rwkWrite _ _ _ (pin _)
  · exact kept_rwkWrite _ _ _ (pin _)
  · exact kept_rwkWrite _ _ _ fun t => .when (pin _ t)
  · exact .ite (owTestStart_only l s).kept (.refl s)
  · exact .refl s

/-- A write of the filters. -/
theorem kept_writeFlt (m : Master) (l : Lane) (off : Nat) (v : Word) (s : State) : Kept s (writeFlt m l off v s) := by
  unfold writeFlt
  split
  · exact (modMeas_only _ _ _).kept
  · exact (fltCtl_only _ _ _).kept
  · exact (setCoefSel_only _ _ _).kept
  · exact kept_fltCoefdat _ _ _ _
  · exact (clearEvents_only _ _ _).kept
  · exact .refl s

/-- A write of the loop engine. -/
theorem kept_writeEng (m : Master) (l : Lane) (off : Nat) (v : Word) (s : State) : Kept s (writeEng m l off v s) := by
  unfold writeEng
  split
  · exact (clearEvents_only _ _ _).kept
  · exact (modEng_only _ _ _).kept
  · exact (modEng_only _ _ _).kept
  · exact (coefWrite_only _ _ _).kept
  · exact .ite (execBankSwapReq_only l s).kept.nextOf (.refl s)
  · exact kept_rwkWrite _ _ _ fun t => (setCoefMode_only l v t).kept
  · exact (modEng_only _ _ _).kept
  · exact .refl s

/-- A write of the trace taps. -/
theorem kept_writeTrc (m : Master) (l : Lane) (off : Nat) (v : Word) (s : State) : Kept s (writeTrc m l off v s) := by
  unfold writeTrc
  split
  · exact (modEng_only _ _ _).kept
  · exact (trcCtl_only _ _ _).kept
  · exact kept_rwkWrite _ _ _ fun t => (setTrcCfg_only l v t).kept
  · exact .refl s

/-- A write of a generator. -/
theorem kept_writeGen (m : Master) (l : Lane) (g : Fin 16) (off : Nat) (v : Word) (s : State) :
    Kept s (writeGen m l g off v s) := by
  unfold writeGen
  split
  · exact .under (mirror_only _ _ _) (stagePer_only _ _ _ _).kept
  · exact .under (mirror_only _ _ _) (stageDuty_only _ _ _ _).kept
  · exact (execPwmDutyfWrite_only l g v s).kept.nextOf
  · exact kept_rwkWrite _ _ _ fun t => (setDt_only l g v t).kept
  · exact kept_rwkWrite _ _ _ fun t => (setMinp_only l g v t).kept
  · exact .refl s

/-- A write of the PWM block. -/
theorem kept_writePwm (m : Master) (l : Lane) (off : Nat) (v : Word) (s : State) : Kept s (writePwm m l off v s) := by
  unfold writePwm
  refine .ite (kept_writeGen _ _ _ _ _ _) ?_
  split
  · exact (clearEvents_only _ _ _).kept
  · exact (execPwmCommit_only l _ s).kept.nextOf
  · exact (clearGroups_only _ _).kept
  · exact .refl s

/-- A write of a recorder. -/
theorem kept_writeRec (m : Master) (l : Lane) (off : Nat) (v : Word) (s : State) : Kept s (writeRec m l off v s) := by
  unfold writeRec
  split
  · exact (clearEvents_only _ _ _).kept
  · have h1 : Kept s (if bit v 0 then recCmdTrig l s else s) := .ite (kept_recCmdTrig l s) (.refl s)
    exact .ite h1 (.under (recRelease_only _ _ _) h1)
  · exact (modRec_only _ _ _).kept
  · exact kept_rwkWrite _ _ _ fun t => (setRecSkew_only l v t).kept
  · exact .refl s

/-- A write of a lane window. -/
theorem kept_writeLane (m : Master) (l : Lane) (off : Nat) (v : Word) (s : State) : Kept s (writeLane m l off v s) := by
  unfold writeLane
  split
  · exact kept_writeMeas _ _ _ _ _
  · exact kept_writeFlt _ _ _ _ _
  · exact kept_writeEng _ _ _ _ _
  · exact (writeRa_only _ _ _ _).kept
  · exact (writeGf_only _ _ _ _).kept
  · exact kept_writePwm _ _ _ _ _
  · exact kept_writeRec _ _ _ _ _
  · exact kept_writeTrc _ _ _ _ _
  · exact .refl s

/-- A write of one register. -/
theorem kept_writeWord (m : Master) (a : Nat) (v : Word) (s : State) : Kept s (writeWord m a v s) := by
  unfold writeWord
  split
  · exact .refl s
  · split
    · exact (writeMode_only _ _ _).kept
    · exact kept_writePnt _ _ _
    · exact (writePwr_only _ _ _).kept
    · exact (writeClk_only _ _ _).kept
    · exact kept_writeKey _ _ _ _
    · exact kept_writeMesh _ _ _ _
    · exact (writeAcc_only _ _ _).kept
    · exact (writeGch_only _ _ _).kept
    · exact kept_writeClm _ _ _ _
    · exact kept_writeNet _ _ _ _
    · exact (writeCan_only _ _ _ _).kept
    · exact (writeCan_only _ _ _ _).kept
    · exact (writeFio_only _ _ _).kept
    · exact (writePlk_only _ _ _).kept
    · exact kept_writeHcp _ _ _
    · exact (writeWear_only _ _ _).kept
    · exact kept_writeLane _ _ _ _ _

/-- A guarded register is written. -/
theorem kept_execRwkWrite (m : Master) (addr v : Word) (s : State) : KeptOut s (execRwkWrite m addr v s) :=
  .byMaster (.ite (kept_writeWord _ _ _ _) (.refl s))

/-! ### Transfers (R104 to R120) -/

/-- A read of one register, with its effects. -/
theorem kept_readWord (m : Master) (a : Nat) (s : State) : Kept s (readWord m a s).2 := by
  unfold readWord
  split
  · exact (readLock_only _ _ _).kept
  · split
    · exact (timeLatch_only _ _).kept
    · split
      · exact kept_mbstatRead s
      · split
        · exact .refl s
        · split
          · exact .refl s
          · exact (takeFree_only s).kept

/-- Words of a register block are read. -/
theorem kept_readWords (m : Master) (n a : Nat) (got : List Byte) (s : State) : Kept s (readWords m n a got s).2 := by
  induction n generalizing a got s with
  | zero => exact .refl s
  | succ n ih =>
    unfold readWords
    split
    case h_1 h => exact .snd h (kept_readWord _ _ _)
    case h_2 h => exact (Kept.snd h (kept_readWord _ _ _)).trans (ih _ _ _)

/-- Words are written to a register block. -/
theorem kept_writeWords (m : Master) (a : Nat) (ws : List Word) (s : State) : Kept s (writeWords m a ws s) := by
  induction ws generalizing a s with
  | nil => exact .refl s
  | cons w ws ih => exact (kept_writeWord _ _ _ _).trans (ih _ _)

/-- SRAM is written. -/
theorem kept_writeSram (t a : Nat) (bs : List Byte) (s : State) : Kept s (writeSram t a bs s) :=
  .ite (kept_sharedWrite _ _ _) (kept_laneWrite _ _ _ _)

/-- A transfer reaches its target. -/
theorem kept_perform (m : Master) (a bytes : Nat) (data : Option (List Byte)) (s : State) :
    Kept s (perform m a bytes data s).2 := by
  unfold perform
  dsimp only
  split
  · split
    · exact .refl s
    · exact kept_readWords _ _ _ _ _
  · split
    · exact kept_writeSram _ _ _ _
    · split
      · exact (kept_writeWords _ _ _ _).trans (kept_raise _ _ _)
      · exact kept_writeWords _ _ _ _

/-- The checks of a transfer. -/
theorem kept_checkAccess (m : Master) (a bytes : Nat) (write : Bool) (s : State) : Kept s (checkAccess m a bytes write s).2 :=
  (checkAccess_only m a bytes write s).kept

/-- A transfer outside arbitration. -/
theorem kept_access (m : Master) (a bytes : Nat) (data : Option (List Byte)) (s : State) : Kept s (access m a bytes data s).2 := by
  unfold access
  split
  case h_1 h => exact .snd h (kept_checkAccess _ _ _ _ _)
  case h_2 h => exact ((Kept.snd h (kept_checkAccess _ _ _ _ _)).trans (arrive_only _ _ _ _).kept).trans (kept_perform _ _ _ _ _)

/-- The answer of a transfer. -/
theorem kept_finishAccess (m : Master) (bytes : Nat) (write : Bool) (r : Access × State) : Kept r.2 (finishAccess m bytes write r) := by
  unfold finishAccess
  split
  · exact (send_only _ _).kept
  · exact (modMesh_only _ _).kept
  · exact (send_only _ _).kept

/-- A write by register address. -/
theorem kept_registerWrite (m : Master) (addr v : Word) (s : State) : KeptOut s (execRegisterWrite m addr v s) :=
  .byMaster ((kept_access _ _ _ _ _).trans (kept_finishAccess _ _ _ _))

/-- A transfer is granted and runs. -/
theorem kept_grantNow (m : Master) (t a bytes : Nat) (data : Option (List Byte)) (reserved : Bool) (waited : Nat) (s : State) :
    Kept s (grantNow m t a bytes data reserved waited s) := by
  unfold grantNow
  have h1 : Kept s (arrive m t waited (if reserved then s else spendCredits m t (beats bytes) s)) :=
    .under (arrive_only _ _ _ _) (.ite (.refl s) (spendCredits_only _ _ _ _).kept)
  exact (h1.trans (kept_perform _ _ _ _ _)).trans (kept_finishAccess _ _ _ _)

/-- A transfer is requested. -/
theorem kept_requestTransfer (m : Master) (addr : Word) (bytes : Nat) (data : Option (List Byte)) (slot : Nat) (busy : Bool)
    (s : State) : Kept s (requestTransfer m addr bytes data slot busy s) := by
  unfold requestTransfer
  dsimp only
  split
  case h_1 h => exact (Kept.snd h (kept_checkAccess _ _ _ _ _)).trans (kept_finishAccess _ _ _ (_, _))
  case h_2 h =>
    exact (Kept.snd h (kept_checkAccess _ _ _ _ _)).trans
      (.ite (kept_grantNow _ _ _ _ _ _ _ _) (.ite (kept_grantNow _ _ _ _ _ _ _ _) (modMesh_only _ _).kept))

/-- The arbiter decides. -/
theorem kept_meshGrant (t slot waited : Nat) (s : State) : Kept s (meshGrant t slot waited s) := by
  unfold meshGrant
  dsimp only
  split
  · exact (modMesh_only _ _).kept
  · exact Kept.trans (.under (modMesh_only _ _) (modMesh_only _ _).kept) (kept_grantNow _ _ _ _ _ _ _ _)

/-- A transfer of a host master. -/
theorem kept_hostAccess (m : Master) (a bytes : Nat) (data : Option (List Byte)) (s : State) :
    Kept s (hostAccess m a bytes data s).2 := by
  unfold hostAccess
  split
  case h_1 h => exact .snd h (kept_checkAccess _ _ _ _ _)
  case h_2 h =>
    exact Kept.trans (.under (arrive_only _ _ _ _) (.under (spendCredits_only _ _ _ _) (.snd h (kept_checkAccess _ _ _ _ _))))
      (kept_perform _ _ _ _ _)

/-! ### Starts and modes (R70, R79, R95) -/

/-- The failure of a key page is reported. -/
theorem kept_reportFail (n : Fin 2) (s : State) : Kept s (reportFail n s) := by
  unfold reportFail
  split
  · exact .refl s
  · exact kept_modKey_rest rfl rfl

/-- A transition of a start. -/
theorem kept_startMode (m : BitVec 4) (cause : Byte) (s : State) : Kept s (startMode m cause s) :=
  .under (raise_only _ _ _) (.under (modMode_only _ _) (kept_endSession _ _))

/-- The module is held in M1. -/
theorem kept_holdM1 (s : State) : Kept s (holdM1 s) := .under (raise_only _ _ _) (kept_modKey_rest rfl rfl)

/-- The key pages are tried. -/
theorem kept_keycheckKey (s : State) : Kept s (keycheckKey s) := by
  unfold keycheckKey
  extract_lets k ok fall took s0 s1
  clear_value took
  have h0 : Kept s s0 := by
    dsimp only [s0]
    cases firstPage k false with
    | none => exact .refl s
    | some n => exact (kept_reportFail _ _).trans (.when (kept_reportFail _ _))
  clear_value s0
  have h1 : Kept s s1 := .under (raiseIf_only _ _ _ _) (h0.trans (kept_modKey_rest rfl rfl))
  clear_value s1
  cases took with
  | none => exact h1.trans (kept_holdM1 _)
  | some n =>
    dsimp only
    cases goodImage k n.1 with
    | none => exact h1
    | some g =>
      refine Kept.trans (.under (modFio_only _ _) (h1.trans ?_)) (kept_startMode _ _ _)
      exact kept_modKey_rest rfl rfl

/-- Keycheck completes. -/
theorem kept_keycheck (fw0 fw1 : Bool) (s : State) : Kept s (keycheck fw0 fw1 s) := by
  unfold keycheck
  refine .ite (.refl s) ?_
  extract_lets k ok took s1
  clear_value took
  have h1 : Kept s s1 := .under (raiseIf_only _ _ _ _) (kept_modKey_rest rfl rfl)
  clear_value s1
  cases took with
  | none => exact h1.trans (kept_holdM1 _)
  | some f =>
    refine Kept.trans (h1.trans ?_) (kept_keycheckKey _)
    exact kept_modKey_rest rfl rfl

/-- The effects of a mode that is entered. -/
theorem kept_modeEffects (old : BitVec 4) (s : State) : Kept s (modeEffects old s) := by
  unfold modeEffects
  extract_lets s1 s2 s3 s4
  have h2 : Kept s s2 := .under (gfModeEntry_only _ _) (.under (raMode_only _) (.under (applyBlocks_only _)
    (.under (degrOnMode_only _ _) (.under (modeFields_only _ _) (kept_endSession _ _)))))
  have h3 : Kept s s3 := .ite (.under (freezeOnMode_only _) h2) h2
  exact .under (refreshFn_only _) (.under (raiseIslands_only _) (.under (timeModeEntry_only _) (.under (modeTrigs_only _ _)
    (h3.trans (.foldS _ _ _ fun _ _ => kept_recMark _ _ _ _ _ _ _ _)))))

/-- M3 or M11 is entered for the first time. -/
theorem kept_enterFirst (bad : Bool) (s : State) : Kept s (enterFirst bad s) := by
  unfold enterFirst
  have h1 (n : Word) : Kept s (raise .mode 0 (modMode (fun m => { m with startTime := n }) s)) :=
    .under (raise_only _ _ _) (modMode_only _ _).kept
  exact .ite (.under (actDemand_only _ _ _) ((h1 _).trans (kept_startMode _ _ _))) ((h1 _).trans (kept_startMode _ _ _))

/-- A start is over. -/
theorem kept_startDone (failed : List StartUnit) (s : State) : Kept s (startDone failed s) := by
  unfold startDone
  refine .ite (.refl s) ?_
  extract_lets s' bad s1 s2 s3 s4 s5
  have h1 : Kept s s1 := .under (plkStart_only _ _ _) (.under (configure_only _ _) (.under (startTicks_only _) (startElapse_only s).kept))
  have h2 : Kept s s2 := Kept.trans (h1.trans (.foldS _ _ _ fun _ _ => (failUnit_only _ _).kept)) (kept_enterFirst _ _)
  have h4 : Kept s s4 := Kept.trans (.under (modMesh_only _ _) h2) (.foldS _ _ _ fun _ _ => (scheduleFirst_only _ _).kept)
  have h5 : Kept s s5 := Kept.trans (.under (applyBlocks_only _) h4) (.foldS _ _ _ fun _ _ => (recArm_only _ _).kept)
  exact .under (judgeReduced_only _) (.under (refreshFn_only _) (.under (raiseIslands_only _) h5))

end Sys2Proof.Machine
end

section
/-! PROOFS. The host ports (O8; R350 to R353, R357 to R359): a response takes the place that its request has kept, so that the
limits of both queues hold. -/

-- One theorem at a time: each waits for the default arguments of `Frame.kept` and `Kept.under`, and a thread that waits holds its stack.
set_option Elab.async false

namespace Sys2Proof.Machine

/-! ### Soundness of a change -/

/-- Frames that wait to leave a port. -/
def outLen (p : HostPort) (s : State) : Nat := (hostPort p s).out.length

/-- The memories stay canonical and the host ports within their limits. -/
structure Sound (s t : State) : Prop where
  memory : Memory.wf s = true → Memory.wf t = true
  ports : (∀ p, Port.bounded p s = true) → ∀ p, Port.bounded p t = true

/-- The limits of a port (R353). -/
theorem bounded_iff (p : HostPort) (s : State) :
    Port.bounded p s = true ↔ unanswered p s ≤ 8 ∧ outLen p s + unanswered p s ≤ 32 := by
  simp [Port.bounded, outLen]

/-- Ports that hold the same have the same requests without a response. -/
theorem unanswered_of_portView {s t : State} (h : portView t = portView s) (p : HostPort) : unanswered p t = unanswered p s := by
  have deadbolts (u : State) : (u.host.bolts.filter fun b => decide (b.port = some p)) =
      (u.host.bolts.filter (·.port.isSome)).filter fun b => decide (b.port = some p) := by
    rw [List.filter_filter]
    congr 1
    funext b
    cases hb : b.port <;> simp
  simp only [portView, Prod.mk.injEq] at h
  obtain ⟨⟨hq, -⟩, ⟨nq, -⟩, hb⟩ := h
  rw [unanswered, unanswered, deadbolts, deadbolts, hb]
  cases p
  · rw [hostPort, hostPort, hq]
  · rw [hostPort, hostPort, nq]

/-- Ports that hold the same hold the same requests. -/
theorem queue_of_portView {s t : State} (h : portView t = portView s) (p : HostPort) :
    (hostPort p t).queue = (hostPort p s).queue := by
  simp only [portView, Prod.mk.injEq] at h
  cases p
  · exact h.1.1
  · exact h.2.1.1

/-- Ports that hold the same hold as many frames. -/
theorem outLen_of_portView {s t : State} (h : portView t = portView s) (p : HostPort) : outLen p t = outLen p s := by
  simp only [portView, Prod.mk.injEq] at h
  cases p
  · exact congrArg List.length h.1.2
  · exact congrArg List.length h.2.1.2

/-- What keeps the ports keeps their limits. -/
theorem Kept.sound {s t : State} (h : Kept s t) : Sound s t := by
  refine ⟨h.memory, fun hb p => ?_⟩
  rw [bounded_iff, unanswered_of_portView h.ports, outLen_of_portView h.ports, ← bounded_iff]
  exact hb p

/-- One change after another. -/
theorem Sound.trans {s t u : State} (h : Sound s t) (k : Sound t u) : Sound s u :=
  ⟨k.memory ∘ h.memory, k.ports ∘ h.ports⟩

/-- Nothing changes. -/
theorem Sound.refl (s : State) : Sound s s := ⟨id, id⟩

/-- A choice between two changes. -/
theorem Sound.ite {c : Prop} [Decidable c] {s t u : State} (h : Sound s t) (k : Sound s u) : Sound s (if c then t else u) := by
  split
  · exact h
  · exact k

/-- Where an outcome is a next state, the change to it is sound. -/
def SoundOut (s : State) (o : Out) : Prop := ∀ t, o = .next t → Sound s t

/-- A next state. -/
theorem SoundOut.next {s t : State} (h : Sound s t) : SoundOut s (.next t) := by
  rintro u ⟨⟩
  exact h

/-- What keeps the ports. -/
theorem KeptOut.sound {s : State} {o : Out} (h : KeptOut s o) : SoundOut s o := fun t ht => (h t ht).sound

/-! ### Ports and queues -/

/-- A port that is changed. -/
theorem hostPort_modHostPort_self (p : HostPort) (f : HostPortState → HostPortState) (s : State) :
    hostPort p (modHostPort p f s) = f (hostPort p s) := by cases p <;> rfl

/-- The other port stays. -/
theorem hostPort_modHostPort_other {p q : HostPort} (h : q ≠ p) (f : HostPortState → HostPortState) (s : State) :
    hostPort q (modHostPort p f s) = hostPort q s := by
  cases p <;> cases q
  · exact absurd rfl h
  · rfl
  · rfl
  · exact absurd rfl h

/-- The deadbolts stay as a port changes. -/
theorem bolts_modHostPort (p : HostPort) (f : HostPortState → HostPortState) (s : State) :
    (modHostPort p f s).host.bolts = s.host.bolts := by cases p <;> rfl

/-- The memories stay as a port changes. -/
theorem memory_modHostPort (p : HostPort) (f : HostPortState → HostPortState) (s : State) :
    Memory.wf (modHostPort p f s) = Memory.wf s := by cases p <;> rfl

/-- A change of a port that leaves its queues. -/
theorem kept_modHostPort (p : HostPort) {f : HostPortState → HostPortState} {s : State}
    (hq : (f (hostPort p s)).queue = (hostPort p s).queue) (ho : (f (hostPort p s)).out = (hostPort p s).out) :
    Kept s (modHostPort p f s) := by
  refine ⟨fun h => (memory_modHostPort p f s).trans h, ?_⟩
  cases p <;> simp only [hostPort] at hq ho <;> simp [portView, modHostPort, modHost, hq, ho]

/-- A frame joins the outbound queue of one port; the requests stay. -/
structure Queued (p : HostPort) (s t : State) : Prop where
  memory : Memory.wf s = true → Memory.wf t = true
  waits : ∀ q, unanswered q t = unanswered q s
  others : ∀ q, q ≠ p → outLen q t = outLen q s
  out : outLen p t ≤ outLen p s + 1

/-- The ports after the outbound queue of one has changed. -/
theorem unanswered_modHostPort_out (p q : HostPort) (f : List HostFrame → List HostFrame) (s : State) :
    unanswered q (modHostPort p (fun x => { x with out := f x.out }) s) = unanswered q s := by
  cases p <;> cases q <;> rfl

/-- Frames leave by the network. -/
theorem kept_sendNets (xs : List HostFrame) (s : State) : Kept s (foldS xs (fun f => sendNet 3 (netDst f) f.bytes) s) :=
  .foldS _ _ _ fun _ _ => (sendNet_only _ _ _ _).kept

/-- Frames of the network port leave while a link is up: its outbound queue is empty then, and stays otherwise. -/
theorem queued_flushNet {s t : State} (h : Queued .net s t) : Queued .net s (flushNet t) := by
  unfold flushNet
  split
  · have hk : Kept t _ := kept_sendNets t.host.net.out t
    refine ⟨fun hw => (memory_modHostPort _ _ _).trans (hk.memory (h.memory hw)), fun q => ?_, fun q hq => ?_, ?_⟩
    · exact ((unanswered_modHostPort_out .net q (fun _ => []) _).trans (unanswered_of_portView hk.ports q)).trans (h.waits q)
    · rw [outLen, hostPort_modHostPort_other hq]
      exact (outLen_of_portView hk.ports q).trans (h.others q hq)
    · rw [outLen, hostPort_modHostPort_self]
      exact Nat.zero_le _
  · exact h

/-- A frame enters an outbound queue. -/
theorem queued_queueFrame (p : HostPort) (f : HostFrame) (s : State) : Queued p s (queueFrame p f s) := by
  have h1 : Queued p s (modHostPort p (fun x => { x with out := x.out ++ [f] }) s) := by
    refine ⟨fun hw => (memory_modHostPort _ _ _).trans hw, fun q => unanswered_modHostPort_out p q (· ++ [f]) s, fun q hq => ?_, ?_⟩
    · rw [outLen, hostPort_modHostPort_other hq]
      rfl
    · rw [outLen, hostPort_modHostPort_self, List.length_append]
      exact Nat.le_refl _
  cases p
  · exact h1
  · exact queued_flushNet h1

/-- A frame after a change that keeps the ports. -/
theorem Queued.after {p : HostPort} {s t u : State} (h : Kept s t) (k : Queued p t u) : Queued p s u :=
  ⟨k.memory ∘ h.memory, fun q => (k.waits q).trans (unanswered_of_portView h.ports q),
    fun q hq => (k.others q hq).trans (outLen_of_portView h.ports q), outLen_of_portView h.ports p ▸ k.out⟩

/-- The response to a request is one frame in the queue of its port. -/
theorem queued_reply (p : HostPort) (r : HostRequest) (status : Nat) (payload : List Byte) (s : State) :
    Queued p s (reply p r status payload s) := by
  unfold reply
  cases p
  · exact queued_queueFrame _ _ _
  · exact .after (kept_modHostPort .net rfl rfl) (queued_queueFrame _ _ _)

/-- A frame goes where a place beside those reserved is free. -/
theorem Queued.sound {p : HostPort} {s t : State} (h : Queued p s t) (hp : outLen p s + unanswered p s < 32) : Sound s t := by
  refine ⟨h.memory, fun hb q => ?_⟩
  have hq := (bounded_iff q s).mp (hb q)
  rw [bounded_iff, h.waits]
  by_cases e : q = p
  · subst e
    have := h.out
    omega
  · rw [h.others q e]
    exact hq

/-- A request that waited has left its port: one fewer waits there. -/
structure Freed (p : HostPort) (s t : State) : Prop where
  memory : Memory.wf s = true → Memory.wf t = true
  others : ∀ q, q ≠ p → unanswered q t = unanswered q s
  waits : unanswered p t + 1 = unanswered p s
  out : ∀ q, outLen q t = outLen q s

/-- The response takes the place that its request has kept. -/
theorem Freed.queued {p : HostPort} {s t u : State} (h : Freed p s t) (k : Queued p t u) : Sound s u := by
  refine ⟨k.memory ∘ h.memory, fun hb q => ?_⟩
  have hq := (bounded_iff q s).mp (hb q)
  rw [bounded_iff, k.waits]
  by_cases e : q = p
  · subst e
    have h1 := h.waits
    have h2 := h.out q
    have h3 := k.out
    omega
  · rw [h.others q e, k.others q e, h.out q]
    exact hq

/-- A change of the requests of one port. -/
theorem freed_of_queue {p : HostPort} {f : List HostRequest → List HostRequest} {s : State}
    (h : (f (hostPort p s).queue).length + 1 = (hostPort p s).queue.length) :
    Freed p s (modHostPort p (fun x => { x with queue := f x.queue }) s) := by
  refine ⟨fun hw => (memory_modHostPort _ _ _).trans hw, fun q hq => ?_, ?_, fun q => ?_⟩
  · rw [unanswered, unanswered, hostPort_modHostPort_other hq, bolts_modHostPort]
  · rw [unanswered, unanswered, hostPort_modHostPort_self, bolts_modHostPort]
    dsimp only
    omega
  · by_cases e : q = p
    · subst e
      rw [outLen, hostPort_modHostPort_self]
      rfl
    · rw [outLen, hostPort_modHostPort_other e]
      rfl

/-- The request at the head of a port is answered. -/
theorem sound_respond {p : HostPort} {s : State} (hq : (hostPort p s).queue ≠ []) (r : HostRequest) (status : Nat)
    (payload : List Byte) : Sound s (respond p r status payload s) := by
  refine (freed_of_queue ?_).queued (queued_reply p r status payload _)
  have := List.length_pos_of_ne_nil hq
  rw [List.length_drop]
  omega

/-- It is answered after a change that keeps the ports. -/
theorem Kept.respond {p : HostPort} {s t : State} (h : Kept s t) (hq : (hostPort p s).queue ≠ []) (r : HostRequest) (status : Nat)
    (payload : List Byte) : Sound s (respond p r status payload t) :=
  h.sound.trans (sound_respond (queue_of_portView h.ports p ▸ hq) r status payload)

/-- A place is free beside those reserved for responses. -/
theorem outRoom_iff (p : HostPort) (s : State) : outRoom p s = true ↔ outLen p s + unanswered p s < 32 := decide_eq_true_iff

/-- One request more waits at a port that takes it. -/
theorem sound_of_accepted {p : HostPort} {s t : State} (hm : Memory.wf s = true → Memory.wf t = true)
    (ho : ∀ q, outLen q t = outLen q s) (hw : ∀ q, q ≠ p → unanswered q t = unanswered q s)
    (h1 : unanswered p t = unanswered p s + 1) (hfree : (unanswered p s < 8 && outRoom p s) = true) : Sound s t := by
  simp only [Bool.and_eq_true, decide_eq_true_eq, outRoom_iff] at hfree
  refine ⟨hm, fun hb q => ?_⟩
  have hq := (bounded_iff q s).mp (hb q)
  rw [bounded_iff, ho]
  by_cases e : q = p
  · subst e
    omega
  · rw [hw q e]
    exact hq

/-- A request is accepted, or discarded (R353). -/
theorem sound_acceptRequest (p : HostPort) (r : HostRequest) (s : State) : Sound s (acceptRequest p r s) := by
  unfold acceptRequest
  split
  case isFalse => exact (kept_raise _ _ _).sound
  case isTrue h =>
    refine sound_of_accepted (p := p) (fun hw => (memory_modHostPort _ _ _).trans hw) (fun q => ?_) (fun q hq => ?_) ?_ h
    · by_cases e : q = p
      · subst e
        rw [outLen, hostPort_modHostPort_self]
        rfl
      · rw [outLen, hostPort_modHostPort_other e]
        rfl
    · rw [unanswered, unanswered, hostPort_modHostPort_other hq, bolts_modHostPort]
    · rw [unanswered, unanswered, hostPort_modHostPort_self, bolts_modHostPort, List.length_append, List.length_singleton]
      omega

/-- A request of a command runs at the head of its queue, or joins it. -/
theorem sound_runRequest {p : HostPort} {r : HostRequest} {same : HostRequest → Bool} {run : HostRequest → State → State} {s : State}
    (h : ∀ x t, (hostPort p t).queue ≠ [] → Sound t (run x t)) : Sound s (runRequest p r same run s) := by
  unfold runRequest
  refine .ite (.refl s) (.ite (sound_acceptRequest p r s) ?_)
  split
  case h_1 x _ hq => exact .ite (h x s (by simp [hq])) (sound_acceptRequest p r s)
  case h_2 =>
    have h1 := sound_acceptRequest p r s
    dsimp only
    split
    case h_1 x _ hq => exact .ite (h1.trans (h x _ (by simp [hq]))) h1
    case h_2 => exact h1

/-! ### READ and WRITE -/

/-- READ answers its request, or goes on waiting at a lock. -/
theorem sound_hostRead {p : HostPort} (r : HostRequest) (n a : Nat) (got : List Byte) {s : State}
    (hq : (hostPort p s).queue ≠ []) : Sound s (hostRead p r n a got s) := by
  induction n generalizing a got s with
  | zero => exact sound_respond hq r 0 got
  | succ n ih =>
    unfold hostRead
    have hk : Kept s (hostAccess (portMaster p) (a % 2 ^ 32) 4 none s).2 := kept_hostAccess _ _ _ _ _
    split
    case h_1 h => exact (Kept.snd h hk).sound.trans (ih _ _ (queue_of_portView (Kept.snd h hk).ports p ▸ hq))
    case h_2 h => exact (Kept.under (modMesh_only _ _) (.snd h hk)).sound
    case h_3 h => exact (Kept.snd h hk).respond hq _ _ _

/-- WRITE answers its request. -/
theorem sound_hostWrite {p : HostPort} (r : HostRequest) (a count : Nat) (ws : List Word) {s : State}
    (hq : (hostPort p s).queue ≠ []) : Sound s (hostWrite p r a count ws s) := by
  induction ws generalizing a count s with
  | nil => exact sound_respond hq _ _ _
  | cons w ws ih =>
    unfold hostWrite
    have hk : Kept s (hostAccess (portMaster p) (a % 2 ^ 32) 4 (some (leBytes 4 w.toNat)) s).2 := kept_hostAccess _ _ _ _ _
    split
    case h_1 h => exact (Kept.snd h hk).sound.trans (ih _ _ (queue_of_portView (Kept.snd h hk).ports p ▸ hq))
    case h_2 h => exact (Kept.snd h hk).respond hq _ _ _

/-- A command of the board is answered. -/
theorem sound_boardCmd {p : HostPort} (h : HostRequest) {f : State → State} {s : State} (hq : (hostPort p s).queue ≠ [])
    (hf : Kept s (f s)) : Sound s (boardCmd p h f s) :=
  .ite ((kept_raise _ _ _).respond hq _ _ _) (hf.respond hq _ _ _)

/-! ### Frames and notifications -/

/-- A frame arrives on HSP. -/
theorem sound_hspFrameIn (bytes : List Byte) (s : State) : Sound s (hspFrameIn bytes s) :=
  .ite (.refl s) (.ite (Kept.under (raise_only _ _ _) (kept_modHostPort .hsp rfl rfl)).sound
    (.ite (sound_acceptRequest _ _ _) (.refl s)))

/-- A frame is clocked out on HSP. -/
theorem sound_hspFrameOut (complete : Bool) (s : State) : Sound s (hspFrameOut complete s) := by
  unfold hspFrameOut
  refine .ite (.refl s) ?_
  split
  · exact (send_only _ _).kept.sound
  · refine Sound.trans ?_ (send_only _ _).kept.sound
    refine ⟨fun hw => (memory_modHostPort _ _ _).trans hw, fun hb q => ?_⟩
    have hq := (bounded_iff q s).mp (hb q)
    rw [bounded_iff, unanswered_modHostPort_out .hsp q (·.drop 1)]
    by_cases e : q = .hsp
    · subst e
      rw [outLen, hostPort_modHostPort_self, List.length_drop]
      rw [outLen] at hq
      omega
    · rw [outLen, hostPort_modHostPort_other e]
      exact hq

/-- A port that works on the network carries frames. -/
theorem netCarries_of_alive {s : State} (h : portAlive .net s = true) : netCarries s = true := by
  simp only [portAlive, Bool.and_eq_true] at h
  exact h.2

/-- A frame of a network port that carries frames leaves at once. -/
theorem outLen_queueFrame_net {f : HostFrame} {s : State} (h : netCarries s = true) : outLen .net (queueFrame .net f s) = 0 := by
  have hc : netCarries (modHostPort .net (fun x => { x with out := x.out ++ [f] }) s) = true := h
  rw [queueFrame, flushNet, if_pos hc, outLen, hostPort_modHostPort_self]
  rfl

/-- A datagram arrives. -/
theorem sound_udpRequest (ip : Word) (sport : Half) (bytes : List Byte) (s : State) : Sound s (udpRequest ip sport bytes s) := by
  unfold udpRequest
  split
  case isTrue => exact .refl s
  case isFalse halive =>
    have hc : netCarries s = true := netCarries_of_alive (by simpa using halive)
    refine .ite (kept_modHostPort .net rfl rfl).sound
      (.ite (Kept.under (raise_only _ _ _) (kept_modHostPort .net rfl rfl)).sound (.ite (.refl s) ?_))
    dsimp only
    split
    case h_1 f _ =>
      refine Sound.trans ?_ (kept_raise _ _ _).sound
      have hk := queued_queueFrame .net f s
      refine ⟨hk.memory, fun hb q => ?_⟩
      have hq := (bounded_iff q s).mp (hb q)
      rw [bounded_iff, hk.waits]
      by_cases e : q = .net
      · subst e
        rw [outLen_queueFrame_net hc]
        omega
      · rw [hk.others q e]
        exact hq
    case h_2 => exact (kept_raise _ _ _).sound
    case h_3 => exact sound_acceptRequest _ _ _

/-- A notification takes a free place (R356). -/
theorem sound_notificationTx (p : HostPort) (s : State) : Sound s (notificationTx p s) := by
  unfold notificationTx
  extract_lets x s1 mark n payload f
  have h1 : Kept s s1 := by
    dsimp only [s1]
    split
    · exact .refl s
    · exact (elapseTo_only _ _).kept
  have hmark : Kept s1 (mark s1) := kept_modHostPort p rfl rfl
  refine .ite (.refl s) ?_
  split
  · exact ((h1.trans hmark).trans (kept_raise _ _ _)).sound
  · rename_i hroom
    have hfree := (outRoom_iff p s1).mp (by simpa using hroom)
    have hk : Kept s1 (modHostPort p (fun y => { y with nseq := n, pend := 0 }) (mark s1)) :=
      hmark.trans (kept_modHostPort p rfl rfl)
    exact h1.sound.trans ((Queued.after hk (queued_queueFrame p f _)).sound hfree)

end Sys2Proof.Machine
end

section
/-! PROOFS. Mailbox operations, deadbolts, reads that wait at a lock, and resets are sound (O6, O8; R34, R79, R116, R117, R357 to
R359, R379). -/

-- One theorem at a time: each waits for the default arguments of `Frame.kept` and `Kept.under`, and a thread that waits holds its stack.
set_option Elab.async false

namespace Sys2Proof.Machine

/-! ### Operations (R357) -/

/-- COPY transfers. -/
theorem kept_opCopies (m : Master) (n src dst cnt : Nat) (s : State) : Kept s (opCopies m n src dst cnt s).after := by
  induction n generalizing src dst cnt s with
  | zero => exact .refl s
  | succ n ih =>
    unfold opCopies
    have hread : Kept s (hostAccess m (src % 2 ^ 32) 8 none s).2 := kept_hostAccess _ _ _ _ _
    split
    case h_1 bs t h =>
      have hwrite : Kept t (hostAccess m (dst % 2 ^ 32) 8 (some bs) t).2 := kept_hostAccess _ _ _ _ _
      split
      case h_1 k => exact ((Kept.snd h hread).trans (.snd k hwrite)).trans (ih _ _ _ _)
      case h_2 k => exact (Kept.snd h hread).trans (.snd k hwrite)
    case h_2 => exact .refl s
    case h_3 h => exact .snd h hread

/-- CRC transfers. -/
theorem kept_opReads (m : Master) (n a : Nat) (got : List Byte) (s : State) : Kept s (opReads m n a got s).after := by
  induction n generalizing a got s with
  | zero => exact .refl s
  | succ n ih =>
    unfold opReads
    have hread : Kept s (hostAccess m (a % 2 ^ 32) 4 none s).2 := kept_hostAccess _ _ _ _ _
    split
    case h_1 h => exact (Kept.snd h hread).trans (ih _ _ _)
    case h_2 => exact .refl s
    case h_3 h => exact .snd h hread

/-- Words are stored. -/
theorem kept_opStores (m : Master) (a cnt : Nat) (ws : List Word) (s : State) : Kept s (opStores m a cnt ws s).2.2 := by
  induction ws generalizing a cnt s with
  | nil => exact .refl s
  | cons w ws ih =>
    unfold opStores
    have hwrite : Kept s (hostAccess m (a % 2 ^ 32) 4 (some (leBytes 4 w.toNat)) s).2 := kept_hostAccess _ _ _ _ _
    split
    case h_1 h => exact (Kept.snd h hwrite).trans (ih _ _ _)
    case h_2 h => exact .snd h hwrite

/-- An operation transfers. -/
theorem kept_opWork (o : RunningOp) (most : Nat) (s : State) : Kept s (opWork o most s).after := by
  unfold opWork
  dsimp only
  split
  · exact kept_opCopies _ _ _ _ _ _
  · exact kept_opReads _ _ _ _ _
  · exact kept_opStores _ _ _ _ _
  · exact kept_opStores _ _ _ _ _
  · exact kept_opStores _ _ _ _ _
  · exact .refl s

/-- An operation begins. -/
theorem kept_opBegin (p : HostPort) (k : Fin 16) (op : Nat) (a b : Word) (s : State) : Kept s (opBegin p k op a b s) := by
  unfold opBegin
  split
  · have hk : Kept s _ := kept_hostAccess (portMaster p) (0x80018 + 0x4000 * a.toNat) 4 (some (leBytes 4 (2 ^ b.toNat))) s
    split
    case h_1 h => exact .snd h hk
    case h_2 h => exact (Kept.snd h hk).trans (kept_postResult _ _ _ _ _ _)
  · exact (sendNet_only _ _ _ _).kept
  · exact .refl s

/-- An OPSTART is answered, and its operation begins. -/
theorem sound_opStart {p : HostPort} (h : HostRequest) {s : State} (hq : (hostPort p s).queue ≠ []) : Sound s (opStart p h s) := by
  have answer (status : Nat) : Sound s (respond p h status [] s) := sound_respond hq _ _ _
  unfold opStart
  refine .ite ((kept_raise _ _ _).respond hq _ _ _) (.ite (answer 3) (.ite (answer 6) (.ite (answer 7) ?_)))
  exact ((kept_modMbox _ _ _).respond hq _ _ _).trans (kept_opBegin _ _ _ _ _ _).sound

/-- An operation completes. -/
theorem kept_opComplete (k : Fin 16) (echoUs : Nat) (s : State) : Kept s (opComplete k echoUs s) := by
  unfold opComplete
  split
  · exact .refl s
  · refine .ite (.refl s) (.ite (.ite (.refl s) ((elapseTo_only _ _).kept.trans (kept_postResult _ _ _ _ _ _))) ?_)
    dsimp only
    split
    · exact .refl s
    · exact (kept_opWork _ _ _).trans (kept_postResult _ _ _ _ _ _)

/-- An operation passes its timeout. -/
theorem kept_opExpire (k : Fin 16) (s : State) : Kept s (opExpire k s) := by
  unfold opExpire
  split
  · exact .refl s
  · split
    · exact .refl s
    · exact .ite (.refl s) ((elapseTo_only _ _).kept.trans (kept_postResult _ _ _ _ _ _))

/-- RESULT is answered. -/
theorem sound_resultCmd {p : HostPort} (h : HostRequest) {s : State} (hq : (hostPort p s).queue ≠ []) :
    Sound s (resultCmd p h s) :=
  .ite (sound_respond hq _ _ _) ((kept_markRead _ _).respond hq _ _ _)

/-! ### Deadbolts (R359) -/

/-- What a deadbolt of a port decides, where it does not wait. -/
theorem kept_decideBolt_of_over {b : PendingBolt} {s : State} (h : boltDecision b.target s ≠ 9) : Kept s (decideBolt b s) := by
  unfold decideBolt
  split
  case h_1 h9 => exact absurd h9 h
  · exact (kept_boltResult _ _ _).trans (kept_raise _ _ _)
  · exact kept_boltResult _ _ _
  · exact .refl s

/-- A deadbolt that waits joins the deadbolts. -/
theorem decideBolt_of_waits {b : PendingBolt} {s : State} (h : boltDecision b.target s = 9) :
    decideBolt b s = modHost (fun h => { h with bolts := h.bolts ++ [b] }) s := by
  rw [decideBolt, h]
  rfl

/-- Deadbolts of a port that wait for their target. -/
def boltsOf (p : HostPort) (bs : List PendingBolt) : Nat := bs.countP fun b => decide (b.port = some p)

/-- What waits at a port: its queue and its deadbolts. -/
theorem unanswered_eq (p : HostPort) (s : State) :
    unanswered p s = (hostPort p s).queue.length + boltsOf p s.host.bolts := by
  rw [unanswered, boltsOf, List.countP_eq_length_filter]

/-- A port as the deadbolts change. -/
theorem hostPort_setBolts (p : HostPort) (f : List PendingBolt → List PendingBolt) (s : State) :
    hostPort p (modHost (fun h => { h with bolts := f h.bolts }) s) = hostPort p s := by cases p <;> rfl

/-- A deadbolt of a port that waits counts there as one request more. -/
theorem unanswered_addBolt (p q : HostPort) {b : PendingBolt} (hb : b.port = some p) (s : State) :
    unanswered q (modHost (fun h => { h with bolts := h.bolts ++ [b] }) s) = unanswered q s + (if q = p then 1 else 0) := by
  rw [unanswered_eq, unanswered_eq, hostPort_setBolts q (· ++ [b])]
  simp only [modHost_host, boltsOf, List.countP_append, List.countP_singleton, hb]
  by_cases e : q = p
  · subst e
    simp
    omega
  · have e' : ¬ p = q := fun h => e h.symm
    simp [e, e']

/-- A deadbolt that waits takes the place of the request it came in, or a free one. -/
theorem sound_addBolt_of_freed {p : HostPort} {b : PendingBolt} (hb : b.port = some p) {s t : State} (h : Freed p s t) :
    Sound s (modHost (fun h => { h with bolts := h.bolts ++ [b] }) t) := by
  refine ⟨h.memory, fun hbd q => ?_⟩
  have hq := (bounded_iff q s).mp (hbd q)
  rw [bounded_iff, unanswered_addBolt p q hb, outLen, hostPort_setBolts q (· ++ [b])]
  have ho := h.out q
  by_cases e : q = p
  · subst e
    have hw := h.waits
    rw [if_pos rfl]
    rw [outLen] at ho
    omega
  · rw [if_neg e, h.others q e]
    rw [outLen] at ho
    omega

/-- A deadbolt is judged: whatever it is answered, its place is one that was free or that it held before. -/
theorem sound_boltCmd {p : HostPort} (h : HostRequest) {s t : State}
    (reply : ∀ u v, Kept t u → Queued p u v → Sound s v)
    (wait : ∀ b, b.port = some p → Sound s (modHost (fun h => { h with bolts := h.bolts ++ [b] }) t)) :
    Sound s (boltCmd p h t) := by
  unfold boltCmd
  extract_lets w code target k s1
  have answer (status : Nat) : Sound s (Machine.reply p h status [] t) := reply t _ (.refl t) (queued_reply _ _ _ _ _)
  refine .ite (answer 3) (.ite (reply _ _ (kept_raise _ _ _) (queued_reply _ _ _ _ _)) (.ite (answer 4) ?_))
  split
  case isTrue h9 =>
    have : s1 = _ := decideBolt_of_waits h9
    rw [this]
    exact wait _ rfl
  case isFalse h9 => exact reply _ _ (kept_decideBolt_of_over h9) (queued_reply _ _ _ _ _)

/-- DEADBOLT overtakes the queue of its port. -/
theorem sound_deadboltCmd (p : HostPort) (r : HostRequest) (s : State) : Sound s (deadboltCmd p r s) := by
  unfold deadboltCmd
  refine .ite (.refl s) ?_
  split
  case h_1 x hx =>
    have hfreed : Freed p s (modHostPort p (fun x => { x with queue := x.queue.eraseP (sameRequest r) }) s) := by
      refine freed_of_queue ?_
      have hmem := List.mem_of_find?_eq_some hx
      have := List.length_pos_of_mem hmem
      rw [List.length_eraseP_of_mem hmem (List.find?_some hx)]
      omega
    refine sound_boltCmd x (fun u v hu hv => hfreed.queued (hv.after hu)) fun b hb => sound_addBolt_of_freed hb hfreed
  case h_2 =>
    split
    case isFalse => exact (kept_raise _ _ _).sound
    case isTrue hfree =>
      refine sound_boltCmd r (fun u v hu hv => (hv.after hu).sound ?_) fun b hb => ?_
      · simp only [Bool.and_eq_true, outRoom_iff] at hfree
        exact hfree.2
      · refine sound_of_accepted (p := p) id (fun q => ?_) (fun q hq => ?_) ?_ hfree
        · rw [outLen, hostPort_setBolts q (· ++ [b])]
          rfl
        · rw [unanswered_addBolt p q hb, if_neg hq]
          rfl
        · rw [unanswered_addBolt p p hb, if_pos rfl]

/-- An operation stops. -/
theorem kept_abortOp (k : Fin 16) (done : Nat) (s : State) : Kept s (abortOp k done s) := by
  unfold abortOp
  split
  · exact .refl s
  · split
    · exact kept_postResult _ _ _ _ _ _
    · exact (canTxabort_only _ _ _).kept.trans (kept_postResult _ _ _ _ _ _)
    · exact kept_postResult _ _ _ _ _ _
    · exact (kept_opWork _ _ _).trans (kept_postResult _ _ _ _ _ _)

/-- A deadbolt that waited is over: one frame more at its port. -/
theorem boltOver_queued (b : PendingBolt) (s : State) :
    (b.port = none → Kept s (boltOver b s)) ∧ ∀ p, b.port = some p → Queued p s (boltOver b s) := by
  have h1 : Kept s (raise .hcp 1 (boltResult b.target 9 s)) := (kept_boltResult _ _ _).trans (kept_raise _ _ _)
  unfold boltOver
  refine ⟨fun h => ?_, fun p h => ?_⟩
  · rw [h]
    exact h1
  · rw [h]
    exact .after h1 (queued_reply _ _ _ _ _)

/-- Answers to deadbolts leave the memories canonical. -/
theorem memory_boltsOver (bs : List PendingBolt) (s : State) (h : Memory.wf s = true) : Memory.wf (foldS bs boltOver s) = true := by
  unfold foldS
  induction bs generalizing s with
  | nil => exact h
  | cons b bs ih =>
    refine ih _ ?_
    obtain ⟨hnone, hsome⟩ := boltOver_queued b s
    cases hb : b.port with
    | none => exact (hnone hb).memory h
    | some q => exact (hsome q hb).memory h

/-- The deadbolts of a list hold their places until each is answered. -/
theorem bounded_boltsOver (bs : List PendingBolt) (s : State) (hw : ∀ p, unanswered p s ≤ 8)
    (ho : ∀ p, outLen p s + unanswered p s + boltsOf p bs ≤ 32) (p : HostPort) : Port.bounded p (foldS bs boltOver s) = true := by
  unfold foldS
  induction bs generalizing s with
  | nil => exact (bounded_iff p s).mpr ⟨hw p, ho p⟩
  | cons b bs ih =>
    obtain ⟨hnone, hsome⟩ := boltOver_queued b s
    have count (q : HostPort) : boltsOf q (b :: bs) = boltsOf q bs + (if b.port = some q then 1 else 0) := by
      simp [boltsOf, List.countP_cons]
    rw [List.foldl_cons]
    cases hb : b.port with
    | none =>
      have hports := (hnone hb).ports
      refine ih (boltOver b s) (fun q => unanswered_of_portView hports q ▸ hw q) fun q => ?_
      have := ho q
      rw [unanswered_of_portView hports, outLen_of_portView hports]
      rw [count] at this
      omega
    | some r =>
      have hk := hsome r hb
      refine ih (boltOver b s) (fun q => hk.waits q ▸ hw q) fun q => ?_
      have hq := ho q
      rw [count, hb] at hq
      rw [hk.waits]
      by_cases e : q = r
      · subst e
        have := hk.out
        rw [if_pos rfl] at hq
        omega
      · rw [hk.others q e]
        omega

/-- The deadbolts of one target are taken out, and then answered. -/
theorem sound_boltsOfTarget (target : Byte) (s : State) :
    Sound s (foldS (s.host.bolts.filter fun x => x.target == target) boltOver
      (modHost (fun h => { h with bolts := h.bolts.filter fun x => x.target != target }) s)) := by
  refine ⟨fun hw => memory_boltsOver _ _ hw, fun hb => bounded_boltsOver _ _ (fun q => ?_) fun q => ?_⟩
  all_goals
    have hsplit := s.host.bolts.countP_eq_countP_filter_add (fun b => decide (b.port = some q)) (fun x => x.target == target)
    have hq := (bounded_iff q s).mp (hb q)
    rw [unanswered_eq, boltsOf] at hq
    rw [unanswered_eq, hostPort_setBolts q (·.filter fun x => x.target != target)]
    simp only [modHost_host, boltsOf, outLen, bne] at hq ⊢
  · omega
  · rw [hostPort_setBolts q (·.filter fun x => !(x.target == target))]
    omega

/-- The aborted target stops, and its deadbolts are answered. -/
theorem sound_deadboltAbort (done : Nat) (s0 : State) : Sound s0 (deadboltAbort done s0) := by
  unfold deadboltAbort
  split
  · exact .refl s0
  · refine Sound.trans (Kept.sound ?_) (sound_boltsOfTarget _ _)
    exact Kept.trans (.under (elapseTo_only _ _) (takeFree_only s0).kept) (.ite (kept_abortKey _) (kept_abortOp _ _ _))

/-! ### Reads that wait at a lock (R116, R117) -/

/-- A stalled read goes on. -/
theorem sound_resume (t : MeshStall) (w : Word) (s : State) : Sound s (resume t w s) := by
  unfold resume
  dsimp only
  split
  · exact ((kept_readWords _ _ _ _ _).trans (kept_finishAccess _ _ _ _)).sound
  · split
    · exact .refl s
    · rename_i hq
      exact sound_hostRead _ _ _ _ (by simp [hq])

/-- A stalled read acquires its lock. -/
theorem sound_wakeLock (m : Master) (n : Fin 64) (s : State) : Sound s (wakeLock m n s) := by
  have lock (f : MeshLock → MeshLock) (t : State) : Kept t (modLock n f t) := (modLock_only _ _ _).kept
  unfold wakeLock
  refine .ite (.refl s) ?_
  dsimp only
  split
  · exact (Kept.under (send_only _ _) (lock _ _)).sound
  · exact (Kept.under (dropStall_only _ _) (lock _ _)).sound.trans (sound_resume _ _ _)

/-- The read of a master at a lock is over. -/
theorem sound_abortLockRead (v : Master) (n : Fin 64) (s : State) : Sound s (abortLockRead v n s) := by
  unfold abortLockRead
  extract_lets s1
  have h1 : Kept s s1 := .under (dropStall_only _ _) (modLock_only _ _ _).kept
  split
  · split
    · exact (Kept.under (send_only _ _) h1).sound
    · split
      · exact h1.sound
      · rename_i hq
        exact h1.sound.trans (sound_respond (by simp [hq]) _ _ _)
  · exact (Kept.under (send_only _ _) h1).sound

/-- One wait is aborted. -/
theorem sound_abortWait (v : Master) (flow : List (Master × BitVec 6)) (s : State) : Sound s (abortWait v flow s) := by
  unfold abortWait
  split
  · exact (sound_abortLockRead _ _ _).trans (supervisorRetry_only _ _).kept.sound
  · split
    · exact (Kept.under (supervisorRetry_only _ _) (abortTransfer_only _ _).kept).sound
    · exact .refl s

/-- The cycle probe breaks a circle, or finds none. -/
theorem sound_cycleProbe (flow : List (Master × BitVec 6)) (s : State) : SoundOut s (execCycleProbe flow s) := by
  have h1 : Kept s (retryDue (periodic tkProbe (us 5) s)) := .under (retryDue_only _) (periodic_only _ _ _).kept
  refine .next (h1.sound.trans ?_)
  split
  · exact .refl _
  · unfold breakCircle
    split
    · exact .refl _
    · exact (sound_abortWait _ _ _).trans (Kept.under (raise_only _ _ _) (modMesh_only _ _).kept).sound

/-! ### Resets (R34, R79, R379) -/

/-- Ports that hold nothing are within their limits. -/
theorem bounded_of_empty {s : State} (h : s.host = {}) (p : HostPort) : Port.bounded p s = true := by
  have hp : hostPort p s = {} := by cases p <;> simp [hostPort, h]
  rw [bounded_iff, unanswered_eq, outLen, hp, h]
  exact ⟨Nat.zero_le _, Nat.zero_le _⟩

/-- Without supply the SRAMs are empty, the flash stays. -/
theorem sound_coldState (s : State) : Sound s (coldState s) := by
  refine ⟨fun hw => ?_, fun _ => bounded_of_empty rfl⟩
  obtain ⟨-, -, -, -, hflash⟩ := (memory_wf_iff s).mp hw
  exact (memory_wf_iff _).mpr ⟨rfl, rfl, rfl, rfl, hflash⟩

/-- A restart empties the SRAMs, the flash stays. -/
theorem sound_restartState (s : State) : Sound s (restartState s) := by
  refine ⟨fun hw => ?_, fun _ => bounded_of_empty rfl⟩
  obtain ⟨-, -, -, -, hflash⟩ := (memory_wf_iff s).mp hw
  exact (memory_wf_iff _).mpr ⟨rfl, rfl, rfl, rfl, hflash⟩

/-- VBUS rises. -/
theorem sound_vbusRise (vbusMv : Nat) (auxMv : Int) (s : State) : Sound s (vbusRise vbusMv auxMv s) := by
  unfold vbusRise
  refine .ite (.refl s) ((sound_coldState s).trans (Kept.sound ?_))
  exact .under (raise_only _ _ _) (power_clock_mode_set _ _ _ _).kept

/-- VBUS falls. -/
theorem sound_vbusFall (vbusMv : Nat) (s : State) : Sound s (vbusFall vbusMv s) := .ite (sound_coldState s) (.refl s)

/-- M0 is entered. -/
theorem sound_enterDormant (s : State) : Sound s (enterDormant s) := by
  refine (sound_restartState s).trans (Kept.sound ?_)
  exact .under (modPower_only _ _) (.under (modPower_only _ _) (modMesh_only (fun _ => _) _).kept)

/-- M1 is entered again. -/
theorem sound_enterRestart (s : State) : Sound s (enterRestart s) :=
  (sound_restartState s).trans (modPower_only _ _).kept.sound

/-- A transition is over. -/
theorem sound_transitionDone (s : State) : Sound s (transitionDone s) := by
  unfold transitionDone
  refine .ite (.refl s) (.ite (transitionCut_only s).kept.sound ?_)
  extract_lets m s1 s2 s3 s4 s5
  have h1 : Sound s s1 := by
    dsimp only [s1]
    split
    · exact sound_enterDormant s
    · exact sound_enterRestart s
    · exact .refl s
  have h4 : Kept s1 s4 := .under (raise_only _ _ _) ((modMode_only _ _).kept.trans (.foldS _ _ _ fun _ _ => kept_raise _ _ _))
  have h5 : Kept s1 s5 := .ite h4 (.under (safeOnMode_only _) (Kept.trans (.under (brownRecord_only _ _) h4) (kept_modeEffects _ _)))
  exact h1.trans (Kept.ite (.under (modMode_only _ _) h5) (.under (evalHeld_only _ _) h5)).sound

end Sys2Proof.Machine
end

section
/-! PROOFS. Every step keeps the addressed memories canonical (O6) and the host ports within their limits (O8; R353). -/

-- One theorem at a time: each waits for the default arguments of `Frame.kept` and `Kept.under`, and a thread that waits holds its stack.
set_option Elab.async false

namespace Sys2Proof.Machine

/-- A command of a master. -/
theorem SoundOut.byMaster {m : Master} {s : State} {f : State → State} (h : Sound s (f s)) : SoundOut s (byMaster m s f) := by
  unfold Machine.byMaster
  split
  · exact .next h
  · rintro u ⟨⟩

/-- READ is answered, or waits. -/
theorem sound_readCmd {p : HostPort} (r : HostRequest) {s : State} (hq : (hostPort p s).queue ≠ []) : Sound s (readCmd p r s) :=
  .ite (sound_respond hq _ _ _) (sound_hostRead _ _ _ _ hq)

/-- WRITE is answered. -/
theorem sound_writeCmd {p : HostPort} (r : HostRequest) {s : State} (hq : (hostPort p s).queue ≠ []) : Sound s (writeCmd p r s) :=
  .ite (sound_respond hq _ _ _) (sound_hostWrite _ _ _ _ hq)

/-- Every command is sound: the frame of most leaves the memories and the host ports out, and the others are those of the keyring,
of the lanes' SRAM, of the mesh and of the ports. -/
theorem sound_exec (s : State) : (c : Instr) → SoundOut s (exec c s)
  | .vbusRise .. => .next (sound_vbusRise ..)
  | .vbusFall .. => .next (sound_vbusFall ..)
  | .auxDrop .. => (execAuxDrop_only _ _ _ s).kept.sound
  | .auxDropClear .. => (execAuxDropClear_only _ _ _ s).kept.sound
  | .auxHigh .. => (execAuxHigh_only _ s).kept.sound
  | .hupCapEstimate .. => (execHupCapEstimate_only _ _ _ s).kept.sound
  | .powerMeasure .. => (execPowerMeasure_only _ _ _ _ _ _ _ s).kept.sound
  | .gpFault .. => (execGpFault_only _ _ s).kept.sound
  | .gpFaultClear .. => (execGpFaultClear_only _ s).kept.sound
  | .gpSoftstartDone .. => (execGpSoftstartDone_only _ _ s).kept.sound
  | .tempWarn .. => (execTempWarn_only _ s).kept.sound
  | .tempHigh .. => (execTempHigh_only _ s).kept.sound
  | .gpCut .. => (execGpCut_only _ s).kept.sound
  | .gpCutRearm => (execGpCutRearm_only s).kept.sound
  | .gpCtlWrite .. => (execGpCtlWrite_only _ s).kept.sound
  | .islandIdleStepDown .. => (execIslandIdleStepDown_only _ s).kept.sound
  | .islandWake .. => (execIslandWake_only _ s).kept.sound
  | .islandWakeDone .. => (execIslandWakeDone_only _ s).kept.sound
  | .tcxoFail .. => (execTcxoFail_only _ s).kept.sound
  | .tcxoReturn .. => (execTcxoReturn_only _ s).kept.sound
  | .tcxoDrift .. => (execTcxoDrift_only _ _ s).kept.sound
  | .refLoss => (execRefLoss_only s).kept.sound
  | .ref10Qualified => (execRef10Qualified_only s).kept.sound
  | .ppsLoss => (execPpsLoss_only s).kept.sound
  | .pllHoldoverEnd .. => (execPllHoldoverEnd_only _ s).kept.sound
  | .pllLoss .. => (execPllLoss_only _ s).kept.sound
  | .pllLock .. => (execPllLock_only _ s).kept.sound
  | .islandSourceChange .. => (execIslandSourceChange_only _ s).kept.sound
  | .ringCalibrate .. => (execRingCalibrate_only _ s).kept.sound
  | .spareIdleTgtWrite .. => (execSpareIdleTgtWrite_only _ s).kept.sound
  | .spareRelease => (execSpareRelease_only s).kept.sound
  | .modeReqDormant .. => (execModeReqDormant_only _ s).kept.sound
  | .modeReqRestart .. => (execModeReqRestart_only _ s).kept.sound
  | .modeReqBlocked .. => (execModeReqBlocked_only _ s).kept.sound
  | .modeReqPrecharge .. => (execModeReqPrecharge_only _ s).kept.sound
  | .modeReqBlackStart .. => (execModeReqBlackStart_only _ s).kept.sound
  | .modeReqSynchronise .. => (execModeReqSynchronise_only _ s).kept.sound
  | .modeReqUnaccepted .. => (execModeReqUnaccepted_only _ _ s).kept.sound
  | .modeTransitionDone => .next (sound_transitionDone ..)
  | .hspWake .. => (execHspWake_only _ s).kept.sound
  | .keycheckDone .. => KeptOut.sound (.next (kept_keycheck ..))
  | .startDone .. => KeptOut.sound (.next (kept_startDone ..))
  | .prechargeTo => (execPrechargeTo_only s).kept.sound
  | .brownStop => (execBrownStop_only s).kept.sound
  | .degrExpired => (execDegrExpired_only s).kept.sound
  | .modeCtrlTick => (execModeCtrlTick_only s).kept.sound
  | .gridStateTimer .. => (execGridStateTimer_only _ s).kept.sound
  | .syncReached => (execSyncReached_only s).kept.sound
  | .syncTo => (execSyncTo_only s).kept.sound
  | .bsFail => (execBsFail_only s).kept.sound
  | .gridLoss .. => (execGridLoss_only _ s).kept.sound
  | .rtRecover => (execRtRecover_only s).kept.sound
  | .keyCmdUnlisted .. => (kept_keyRun _ _ _ _ _ s).sound
  | .keyOpen .. => KeptOut.sound (.byMaster (kept_openCmd ..))
  | .keyClose .. => (kept_keyClose _ _ _ s).sound
  | .keyErase .. => (kept_keyErase _ _ _ s).sound
  | .keyProgram .. => (kept_keyRun _ _ _ _ _ s).sound
  | .keyVerify .. => (kept_keyRun _ _ _ _ _ s).sound
  | .keyCommit .. => (kept_keyRun _ _ _ _ _ s).sound
  | .keySafeauth .. => (kept_keyRun _ _ _ _ _ s).sound
  | .keyAdvance .. => (kept_keyRun _ _ _ _ _ s).sound
  | .keyProgslot .. => (kept_keyRun _ _ _ _ _ s).sound
  | .keyRevoke .. => (kept_keyRun _ _ _ _ _ s).sound
  | .keyCmdComplete .. => (kept_keyCmdComplete _ s).sound
  | .sessionTimeout => (kept_sessionTimeout s).sound
  | .keyBufWrite .. => KeptOut.sound (.byMaster (kept_keyBufWord ..))
  | .rwkWrite .. => (kept_execRwkWrite _ _ _ s).sound
  | .meshTransfer .. => KeptOut.sound (.byMaster (kept_requestTransfer ..))
  | .meshGrant .. => KeptOut.sound (.next (kept_meshGrant ..))
  | .frameBoundary .. => (execFrameBoundary_only _ s).kept.sound
  | .meshSwap .. => (execMeshSwap_only _ _ s).kept.sound
  | .meshCntclr => (execMeshCntclr_only s).kept.sound
  | .lockAcquire .. => (execLockAcquire_only _ _ s).kept.sound
  | .lockWaitAcquired .. => .byMaster (sound_wakeLock ..)
  | .lockRelease .. => (execLockRelease_only _ _ s).kept.sound
  | .cycleProbe .. => sound_cycleProbe _ s
  | .accViolClear => (execAccViolClear_only s).kept.sound
  | .loopTrigger .. => KeptOut.sound (.next (kept_loopTrigger ..))
  | .converterSample .. => KeptOut.sound (.next (kept_converterSample ..))
  | .converterPowerDown .. => (execConverterPowerDown_only _ _ s).kept.sound
  | .winExit .. => (execWinExit_only _ _ s).kept.sound
  | .openWire .. => (execOpenWire_only _ _ s).kept.sound
  | .owTestStart .. => (execOwTestStart_only _ s).kept.sound
  | .owTestEnd .. => (execOwTestEnd_only _ _ s).kept.sound
  | .xchkFail .. => (execXchkFail_only _ _ s).kept.sound
  | .voteDone .. => (execVoteDone_only _ _ _ _ s).kept.sound
  | .spareIn .. => (execSpareIn_only _ _ s).kept.sound
  | .spareCalibrate .. => (execSpareCalibrate_only _ s).kept.sound
  | .fltCtlWrite .. => (execFltCtlWrite_only _ _ s).kept.sound
  | .fltCoefdatWrite .. => KeptOut.sound (.byMaster (kept_fltCoefdat ..))
  | .vectorDue .. => (execVectorDue_only _ _ _ s).kept.sound
  | .committedStepStart .. => (execCommittedStepStart_only _ _ s).kept.sound
  | .committedStepCommit .. => KeptOut.sound (.next (kept_stepCommit ..))
  | .deadlineMiss .. => (execDeadlineMiss_only _ _ s).kept.sound
  | .coefWrite .. => (execCoefWrite_only _ _ s).kept.sound
  | .bankSwapReq .. => (execBankSwapReq_only _ s).kept.sound
  | .mirroredWriteArrival .. => (execMirroredWriteArrival_only _ s).kept.sound
  | .fmaErr .. => (execFmaErr_only _ _ _ s).kept.sound
  | .fmaTestPass .. => (execFmaTestPass_only _ _ s).kept.sound
  | .oscWindowEnd .. => (execOscWindowEnd_only _ _ s).kept.sound
  | .trcCtlWrite .. => (execTrcCtlWrite_only _ _ s).kept.sound
  | .specLevelIssue .. => (execSpecLevelIssue_only _ _ s).kept.sound
  | .specStepDone .. => KeptOut.sound (.next (kept_specStepDone ..))
  | .branchCommit .. => KeptOut.sound (.next (kept_branchCommit ..))
  | .laneDiff .. => (execLaneDiff_only _ _ _ s).kept.sound
  | .raCtlWrite .. => (execRaCtlWrite_only _ _ s).kept.sound
  | .gfParamWrite .. => (execGfParamWrite_only _ _ _ s).kept.sound
  | .gfCommit .. => (execGfCommit_only _ s).kept.sound
  | .carrierBoundary .. => (execCarrierBoundary_only _ _ s).kept.sound
  | .midPeriodUpdate .. => (execMidPeriodUpdate_only _ _ s).kept.sound
  | .pwmPerWrite .. => (execPwmPerWrite_only _ _ _ s).kept.sound
  | .pwmDutyWrite .. => (execPwmDutyWrite_only _ _ _ s).kept.sound
  | .pwmDutyfWrite .. => (execPwmDutyfWrite_only _ _ _ s).kept.sound
  | .pwmCommit .. => (execPwmCommit_only _ _ s).kept.sound
  | .pwmDtWrite .. => KeptOut.sound (.byMaster (kept_rwkWrite _ _ s fun _ => (setDt_only _ _ _ _).kept))
  | .pwmMinpWrite .. => KeptOut.sound (.byMaster (kept_rwkWrite _ _ s fun _ => (setMinp_only _ _ _ _).kept))
  | .faultSourceChange .. => (execFaultSourceChange_only _ _ s).kept.sound
  | .fltinChange .. => (execFltinChange_only _ _ _ s).kept.sound
  | .fgClr .. => (execFgClr_only .a _ s).kept.sound
  | .gateTurnOn .. => (execGateTurnOn_only _ _ _ s).kept.sound
  | .blankEnd .. => (execBlankEnd_only _ _ s).kept.sound
  | .scTrip .. => (execScTrip_only _ _ _ _ s).kept.sound
  | .softOffEnd .. => (execSoftOffEnd_only _ s).kept.sound
  | .faultEventClose => (execFaultEventClose_only s).kept.sound
  | .retryWaitEnd => (execRetryWaitEnd_only s).kept.sound
  | .railCrossing .. => (execRailCrossing_only _ _ _ s).kept.sound
  | .gchClear .. => (execGchClear_only _ _ s).kept.sound
  | .gchSelftest => (execGchSelftest_only s).kept.sound
  | .selftestDone .. => (execSelftestDone_only _ _ _ _ s).kept.sound
  | .stageSwap .. => (execStageSwap_only _ _ s).kept.sound
  | .laneFault .. => (execLaneFault_only _ _ s).kept.sound
  | .signatureReceived .. => (execSignatureReceived_only _ _ _ _ s).kept.sound
  | .timebaseCompare .. => (execTimebaseCompare_only _ s).kept.sound
  | .tsuinSwap .. => (execTsuinSwap_only _ _ _ _ s).kept.sound
  | .tsuinRetrained => (execTsuinRetrained_only s).kept.sound
  | .claimChange => KeptOut.sound (.next (kept_claimChange ..))
  | .revert .. => KeptOut.sound (.next (kept_revertTumbler ..))
  | .switchover .. => KeptOut.sound (.next (kept_switchover ..))
  | .recoveryStart .. => (execRecoveryStart_only _ s).kept.sound
  | .selfCheckDone .. => (execSelfCheckDone_only _ s).kept.sound
  | .mirrorReceived .. => KeptOut.sound (.next (kept_mirrorReceived ..))
  | .claimRaise => (execClaimRaise_only s).kept.sound
  | .clmCtlWrite .. => KeptOut.sound (.byMaster (kept_rwkWrite _ _ s fun _ => (setClmCtl_only _ _).kept))
  | .offline .. => (execOffline_only _ _ s).kept.sound
  | .recover .. => (execRecover_only _ _ s).kept.sound
  | .linkChange .. => (execLinkChange_only _ _ _ s).kept.sound
  | .ethFrameRx .. => (execEthFrameRx_only _ _ s).kept.sound
  | .dupEntryExpire .. => (execDupEntryExpire_only _ s).kept.sound
  | .supervisionTx => (execSupervisionTx_only s).kept.sound
  | .lanFault .. => (execLanFault_only _ s).kept.sound
  | .ptpSyncRx .. => (execPtpSyncRx_only _ _ _ s).kept.sound
  | .ptpAnnounceRx .. => (execPtpAnnounceRx_only _ _ _ s).kept.sound
  | .announceTimeout .. => (execAnnounceTimeout_only _ s).kept.sound
  | .domainRevert => (execDomainRevert_only s).kept.sound
  | .pdelayTx => (execPdelayTx_only s).kept.sound
  | .pdelayRespRx .. => (execPdelayRespRx_only _ _ _ _ _ s).kept.sound
  | .ppsEdge => (execPpsEdge_only s).kept.sound
  | .timeLatchRead .. => (execTimeLatchRead_only _ s).kept.sound
  | .timeCvctl .. => (execTimeCvctl_only _ s).kept.sound
  | .conversionDone => (execConversionDone_only s).kept.sound
  | .timeCtlWrite .. => KeptOut.sound (.byMaster (kept_rwkWrite _ _ s fun _ => (setTimeCtl_only _ _).kept))
  | .timePpssecWrite .. => KeptOut.sound (.byMaster (kept_rwkWrite _ _ s fun _ => (modTime_only _ _).kept))
  | .canFrameRx .. => (execCanFrameRx_only _ _ s).kept.sound
  | .canTxDone .. => KeptOut.sound (.next (kept_canTxDone ..))
  | .canBusError .. => (execCanBusError_only _ _ _ _ _ s).kept.sound
  | .canBusoffRecovered .. => (execCanBusoffRecovered_only _ s).kept.sound
  | .rateTryTimeout .. => (execRateTryTimeout_only _ s).kept.sound
  | .canTxreq .. => (execCanTxreq_only _ _ s).kept.sound
  | .canTxabort .. => (execCanTxabort_only _ _ s).kept.sound
  | .canTxbufWrite .. => (execCanTxbufWrite_only _ _ _ _ s).kept.sound
  | .canRxpop .. => (execCanRxpop_only _ s).kept.sound
  | .canRecover .. => (execCanRecover_only _ s).kept.sound
  | .canModeWrite .. => (execCanModeWrite_only _ _ s).kept.sound
  | .fioExchange .. => (execFioExchange_only _ s).kept.sound
  | .fioLink => (execFioLink_only s).kept.sound
  | .fieldSupplySample .. => (execFieldSupplySample_only _ s).kept.sound
  | .fsLost .. => (execFsLost_only _ _ s).kept.sound
  | .fsRecover => (execFsRecover_only s).kept.sound
  | .diChange .. => (execDiChange_only _ _ _ _ s).kept.sound
  | .wireBreak .. => (execWireBreak_only _ _ _ s).kept.sound
  | .fioDqset .. => (execFioDqset_only _ s).kept.sound
  | .outOvl .. => (execOutOvl_only _ _ _ s).kept.sound
  | .extDrive .. => (execExtDrive_only _ _ _ s).kept.sound
  | .testRound => (execTestRound_only s).kept.sound
  | .testPulseEnd .. => (execTestPulseEnd_only _ s).kept.sound
  | .safeCycle .. => (execSafeCycle_only _ s).kept.sound
  | .enableDetectOff .. => (execEnableDetectOff_only _ s).kept.sound
  | .supplyPulse => (execSupplyPulse_only s).kept.sound
  | .supplyPulseEnd .. => (execSupplyPulseEnd_only _ _ s).kept.sound
  | .safeSelfTest .. => (execSafeSelfTest_only _ s).kept.sound
  | .plkCmdDemand .. => (execPlkCmdDemand_only _ s).kept.sound
  | .plkReset .. => (execPlkReset_only _ s).kept.sound
  | .proofExpired => (execProofExpired_only s).kept.sound
  | .pwLockoutEnd => (execPwLockoutEnd_only s).kept.sound
  | .safetyFrameRx .. => (execSafetyFrameRx_only _ _ s).kept.sound
  | .safetyStatusTx .. => (execSafetyStatusTx_only _ s).kept.sound
  | .connectionTimeout .. => (execConnectionTimeout_only _ s).kept.sound
  | .recTrig .. => KeptOut.sound (.next (kept_recTrig ..))
  | .xlaneTrigger .. => KeptOut.sound (.next (kept_xlaneTrigger ..))
  | .recDone .. => KeptOut.sound (.next (kept_recDone ..))
  | .recRelease .. => (execRecRelease_only _ _ s).kept.sound
  | .recCmdTrig .. => KeptOut.sound (.next (kept_recCmdTrig ..))
  | .recOffsetMeasure .. => (execRecOffsetMeasure_only _ _ s).kept.sound
  | .hspFrameIn .. => .next (sound_hspFrameIn ..)
  | .hspFrameOut .. => .next (sound_hspFrameOut ..)
  | .udpRequest .. => .next (sound_udpRequest ..)
  | .read .. => .next (sound_runRequest fun _ _ hq => sound_readCmd _ hq)
  | .write .. => .next (sound_runRequest fun _ _ hq => sound_writeCmd _ hq)
  | .pntGet .. => .next (sound_runRequest fun _ _ hq => sound_respond hq _ _ _)
  | .pntClear .. => .next (sound_runRequest fun _ _ hq => sound_boardCmd _ hq (kept_modHost rfl))
  | .subscribe .. => .next (sound_runRequest fun _ _ hq => sound_boardCmd _ hq (kept_modHostPort _ rfl rfl))
  | .unknownCommand .. => .next (sound_runRequest fun _ _ hq => sound_respond hq _ _ _)
  | .opCopy .. => .next (sound_runRequest fun _ _ hq => sound_opStart _ hq)
  | .opCrc .. => .next (sound_runRequest fun _ _ hq => sound_opStart _ hq)
  | .opSnapshot .. => .next (sound_runRequest fun _ _ hq => sound_opStart _ hq)
  | .opCkptCopy .. => .next (sound_runRequest fun _ _ hq => sound_opStart _ hq)
  | .opRecWait .. => .next (sound_runRequest fun _ _ hq => sound_opStart _ hq)
  | .opMeshSnap .. => .next (sound_runRequest fun _ _ hq => sound_opStart _ hq)
  | .opCanSend .. => .next (sound_runRequest fun _ _ hq => sound_opStart _ hq)
  | .opNetEcho .. => .next (sound_runRequest fun _ _ hq => sound_opStart _ hq)
  | .operationComplete .. => KeptOut.sound (.next (kept_opComplete ..))
  | .operationTimeout .. => KeptOut.sound (.next (kept_opExpire ..))
  | .result .. => .next (sound_runRequest fun _ _ hq => sound_resultCmd _ hq)
  | .mbstatRead => KeptOut.sound (.next (kept_mbstatRead ..))
  | .deadbolt .. => .next (sound_deadboltCmd ..)
  | .deadboltAbort .. => .next (sound_deadboltAbort ..)
  | .notificationTx .. => .next (sound_notificationTx ..)
  | .eccCorrected .. => (execEccCorrected_only _ _ _ s).kept.sound
  | .rowSwapDone .. => (execRowSwapDone_only _ _ s).kept.sound
  | .bankSwapDone .. => (execBankSwapDone_only _ _ s).kept.sound
  | .couplerLaneSwap .. => (execCouplerLaneSwap_only _ _ s).kept.sound
  | .repairMapWritten => (execRepairMapWritten_only s).kept.sound
  | .mapFail => (execMapFail_only s).kept.sound
  | .swapLogWrite .. => (execSwapLogWrite_only _ s).kept.sound
  | .registerWrite .. => (kept_registerWrite _ _ _ s).sound
  | .canIntegrationDone .. => (execCanIntegrationDone_only _ s).kept.sound
  | .coolingRestart .. => (execCoolingRestart_only _ s).kept.sound
  | .testPulseStart .. => (execTestPulseStart_only _ s).kept.sound
  | .channelTelemetry .. => (execChannelTelemetry_only _ _ s).kept.sound

/-- Every step is sound. -/
theorem sound_step {s t : State} (h : step s = .next t) : Sound s t := by
  unfold step at h
  split at h
  case h_1 =>
    cases h
    exact (advance_only 1 s).kept.sound
  case h_2 c rest _ =>
    have hq : Kept s { s with pending := rest } := ⟨id, rfl⟩
    exact hq.sound.trans (sound_exec _ c t h)

/-- Settles O8: a response takes the place that its request, or its deadbolt, has kept. -/
theorem hostPortsStayWithinTheirQueues : Obligations.HostPortsStayWithinTheirQueues :=
  fun _ _ hb h => (sound_step h).ports hb

/-- Settles O6: every command writes an addressed memory by canonical writes alone. -/
theorem everyStepKeepsMemoryCanonical : Obligations.EveryStepKeepsMemoryCanonical :=
  fun _ _ hw h => (sound_step h).memory hw

end Sys2Proof.Machine
end

section
/-! PROOFS. The shadow of a PWM generator (O35; R217, R223): a host write is mirrored only while both directions of the link
are up. -/

namespace Sys2Proof.Machine

/-- Refutes O35: the statement asks only for the channel that carries the mirrored write. With the other channel down, which
acknowledges it, nothing is mirrored (R257), and the period written in lane A of `oneChannelUp` does not join the queue. -/
theorem not_pulsesAreShapedPerPeriod : ¬ Obligations.PulsesAreShapedPerPeriod := by
  rintro ⟨hshadow, -⟩
  obtain ⟨hwrite, -⟩ := hshadow oneChannelUp .a 0 _ rfl rfl
  obtain ⟨t, hex, -, hqueue, -⟩ := hwrite 2000 (by decide) (by decide)
  have ht : mirror .a (.pwmPer 0 2000) (stagePer .a 0 2000 oneChannelUp) = t := Host.Outcome.next.inj hex
  have hclaim : (stagePer .a 0 2000 oneChannelUp).claim = oneChannelUp.claim :=
    stagePer_only .a 0 2000 oneChannelUp .claim (by decide)
  rw [← ht, mirror_of_link_down (by rw [tsuUp, hclaim]; rfl), tsuOut, tsuOut, hclaim] at hqueue
  exact List.cons_ne_nil _ _ (List.self_eq_append_right.mp hqueue)

end Sys2Proof.Machine
end

section
/-! PROOFS. Carrier boundaries (O36; R215, R219, R221, R227; log entry 3): the running period ends, the pending values are taken,
and the generator is blocked or its next period is computed. -/

namespace Sys2Proof.Machine

/-! ### One generator -/

section
variable (l : Lane) (g : Fin 16) (s : State)

/-- The generator that is changed. -/
theorem genOf_modGen_self (f : GenState → GenState) : Claim.genOf l g (modGen l g f s) = f (Claim.genOf l g s) :=
  modGen_self l g f s

/-- The other generators stay. -/
theorem genOf_modGen_other {h : Fin 16} (hh : h ≠ g) (f : GenState → GenState) :
    Claim.genOf l h (modGen l g f s) = Claim.genOf l h s :=
  modGen_other (fun e => hh e.2) f s

end

/-- A generator is the same where a frame leaves its lane. -/
theorem Frame.genOf_eq {ps : List Part} {s t : State} (h : Frame ps s t) {l : Lane}
    (hl : lanePart l ∉ ps) (g : Fin 16) : Claim.genOf l g t = Claim.genOf l g s :=
  h.lane_keeps (fun x => x.pwm.gen[g]) (fun _ => rfl) hl

/-- An event leaves the generators. -/
theorem genOf_raiseIf (l : Lane) (g : Fin 16) (b : Bool) (r : EvReg) (n : Nat) (s : State) :
    Claim.genOf l g (raiseIf b r n s) = Claim.genOf l g s :=
  (raiseIf_only b r n s).genOf_eq (by cases l <;> simp [lanePart]) g

/-- The gates follow without a change of the generators. -/
theorem genOf_settleGates (l : Lane) (g : Fin 16) (s : State) : Claim.genOf l g (settleGates s) = Claim.genOf l g s :=
  (settleGates_only s).genOf_eq (by cases l <;> simp [lanePart]) g

/-- Commands follow their patterns without a change of the generators. -/
theorem genOf_followFalls (l : Lane) (g : Fin 16) (cs : List (Fin 32)) (s : State) :
    Claim.genOf l g (foldS cs followFall s) = Claim.genOf l g s :=
  (Frame.foldS (ps := [.gate]) cs followFall s fun c u => followFall_only c u).genOf_eq (by cases l <;> simp [lanePart]) g

/-! ### What a boundary does before blocks are judged (R215, R219, R223) -/

/-- A generator as pending values leave it. -/
def takenGen (x : GenState) : GenState :=
  let y := { x with
    per := x.perNext.getD x.per, perNext := none, dt := x.dtNext.getD x.dt, dtNext := none,
    minp := x.minpNext.getD x.minp, minpNext := none }
  match x.pend with
  | none => y
  | some (per, d) => { y with
      per := per, pend := none, duty := (dutySteps per d).1, dutyf := dutyFrac per (dutySteps per d).1 }

/-- A pending pair that is taken. -/
theorem takenGen_pair {x : GenState} {per : Nat} {d : DutyVal} (h : x.pend = some (per, d)) :
    (takenGen x).per = per ∧ (takenGen x).duty = (dutySteps per d).1 ∧ (takenGen x).pend = none := by
  rw [takenGen, h]
  exact ⟨rfl, rfl, rfl⟩

/-- A generator whose period has ended at a tick. -/
def restartGen (c : GenCfg) (at0 : Nat) (pre : Bool) (x : GenState) : GenState :=
  { x with
    start := if x.fresh && c.syncCtx = 0xFF then at0 - c.phase else at0,
    fresh := false, corr := corrOf x.per x.errLeft, errLeft := x.errLeft - corrOf x.per x.errLeft, preOnly := pre,
    rWas := if x.block ≠ 0 then 2 else if 32 * (at0 - x.start) ≤ x.rFall then 1 else 0 }

/-- The state at the end of the running period, with the pending values taken. -/
def boundaryTaken (l : Lane) (g : Fin 16) (s : State) : State :=
  takePending l g (recordPeriods l g (elapseTo ((s.lane l).pwm.gen[g].start + periodLen (s.lane l).pwm.gen[g]) s))

/-- The state in which blocks are judged. -/
def atBoundary (l : Lane) (g : Fin 16) (s : State) : State :=
  modGen l g (restartGen (genRec g (boundaryTaken l g s)) ((s.lane l).pwm.gen[g].start + periodLen (s.lane l).pwm.gen[g])
    ((boundaryTaken l g s).md == 4)) (boundaryTaken l g s)

section
variable {l : Lane} {g : Fin 16} {s : State}

/-- Pending values are taken by the generator alone. -/
theorem genOf_takePending_self : Claim.genOf l g (takePending l g s) = takenGen (Claim.genOf l g s) := by
  have hx : (s.lane l).pwm.gen[g] = Claim.genOf l g s := rfl
  rw [takePending, takenGen, hx]
  cases hp : (Claim.genOf l g s).pend with
  | none =>
    dsimp only
    rw [genOf_modGen_self, hp]
  | some pd =>
    dsimp only
    rw [takeDuty, genOf_raiseIf, genOf_modGen_self, genOf_modGen_self, genOf_modGen_self]

/-- The other generators take none. -/
theorem genOf_takePending_other {h : Fin 16} (hh : h ≠ g) : Claim.genOf l h (takePending l g s) = Claim.genOf l h s := by
  rw [takePending]
  cases ((s.lane l).pwm.gen[g]).pend with
  | none =>
    dsimp only
    rw [genOf_modGen_other _ _ _ hh]
  | some pd =>
    dsimp only
    rw [takeDuty, genOf_raiseIf, genOf_modGen_other _ _ _ hh, genOf_modGen_other _ _ _ hh,
      genOf_modGen_other _ _ _ hh]

/-- Recording the period and the time that passes leave the generators. -/
theorem genOf_recorded (n : Nat) (h : Fin 16) :
    Claim.genOf l h (recordPeriods l g (elapseTo n s)) = Claim.genOf l h s := by
  rw [(recordPeriods_only l g (elapseTo n s)).genOf_eq (by cases l <;> simp [lanePart]), Claim.genOf, elapseTo_lane, Claim.genOf]

/-- The generator at its boundary. -/
theorem genOf_atBoundary_self : Claim.genOf l g (atBoundary l g s) =
    restartGen (genRec g (boundaryTaken l g s)) ((Claim.genOf l g s).start + periodLen (Claim.genOf l g s))
      ((boundaryTaken l g s).md == 4) (takenGen (Claim.genOf l g s)) := by
  rw [atBoundary, genOf_modGen_self, boundaryTaken, genOf_takePending_self, genOf_recorded]
  rfl

/-- The other generators at its boundary. -/
theorem genOf_atBoundary_other {h : Fin 16} (hh : h ≠ g) : Claim.genOf l h (atBoundary l g s) = Claim.genOf l h s := by
  rw [atBoundary, genOf_modGen_other _ _ _ hh, boundaryTaken, genOf_takePending_other hh, genOf_recorded]

/-- Up to the judgement of blocks a boundary changes neither the mode nor the flag groups nor the image. -/
theorem atBoundary_only : Frame [lanePart l, .claim, .time, .events, .board] s (atBoundary l g s) :=
  .under (modGen_only _ _ _ _) (by simp) (.under (takePending_only _ _ _) (by simp)
    (.under (recordPeriods_only _ _ _) (by simp) ((elapseTo_only _ _).mono (by simp))))

/-- Time passes up to the end of the running period. -/
theorem atBoundary_now :
    (atBoundary l g s).now = max s.now ((Claim.genOf l g s).start + periodLen (Claim.genOf l g s)) := by
  have hframe : Frame [lanePart l, .claim, .events, .board]
      (elapseTo ((Claim.genOf l g s).start + periodLen (Claim.genOf l g s)) s) (atBoundary l g s) :=
    .under (modGen_only _ _ _ _) (by simp) (.under (takePending_only _ _ _) (by simp)
      ((recordPeriods_only _ _ _).mono (by simp)))
  exact (hframe.now_eq (by cases l <;> simp [lanePart])).trans (elapseTo_now_eq_max _ s)

/-- Blocks are judged as before the boundary. -/
theorem blockReason_atBoundary : blockReason (atBoundary l g s) g = blockReason s g := by
  have hf := atBoundary_only (l := l) (g := g) (s := s)
  have out {p : Part} (hp : p ∉ [Part.laneA, .laneB, .claim, .time, .events, .board]) : p.same s (atBoundary l g s) :=
    hf p (by cases l <;> simp_all [lanePart])
  exact blockReason_congr (out (p := .key) (by simp)) (out (p := .mode) (by simp))
    (congrArg GateState.fg (out (p := .gate) (by simp))) g

/-- The settings of a generator stay. -/
theorem genRec_atBoundary : genRec g (atBoundary l g s) = genRec g s := by
  rw [genRec, genRec, recD_of_key (atBoundary_only .key (by cases l <;> simp [lanePart]))]

/-! ### The end of a boundary (R221, R227) -/

/-- A generator whose channels end or follow keeps its time and its generators. -/
theorem genOf_settled (cs : List (Fin 32)) (h : Fin 16) :
    Claim.genOf l h (foldS cs followFall (settleGates s)) = Claim.genOf l h s := by
  rw [genOf_followFalls, genOf_settleGates]

/-- A generator that does not run has no boundary. -/
theorem exec_carrierBoundary_off (hoff : (Claim.genOf l g s).on = false) : exec (.carrierBoundary l g) s = .next s :=
  if_pos (by simpa [Claim.genOf] using hoff)

/-- A blocked generator at its boundary. -/
theorem exec_carrierBoundary_blocked (hon : (Claim.genOf l g s).on = true) (hwhy : blockReason s g ≠ 0) :
    exec (.carrierBoundary l g) s = .next (settleGates
      (modGen l g (blockGen (blockReason s g) (atBoundary l g s).now) (atBoundary l g s))) := by
  rw [← blockReason_atBoundary (l := l)] at hwhy ⊢
  exact (if_neg (by simpa [Claim.genOf] using hon)).trans (if_pos hwhy)

/-- The state in which the next period of a generator is computed. -/
def unblocked (l : Lane) (g : Fin 16) (s : State) : State :=
  modGen l g (fun x => { x with block := 0, hOff := false, lOff := false }) (atBoundary l g s)

/-- A generator that nothing blocks, at its boundary. -/
theorem exec_carrierBoundary_free (hon : (Claim.genOf l g s).on = true) (hwhy : blockReason s g = 0) :
    ∃ cs, exec (.carrierBoundary l g) s = .next (foldS cs followFall (settleGates (computePeriod l g (unblocked l g s)))) := by
  rw [← blockReason_atBoundary (l := l)] at hwhy
  exact ⟨_, (if_neg (by simpa [Claim.genOf] using hon)).trans (if_neg (not_not.mpr hwhy))⟩

/-- What computing a period leaves of a generator. -/
def SettingsKept (x y : GenState) : Prop :=
  y.start = x.start ∧ y.per = x.per ∧ y.duty = x.duty ∧ y.pend = x.pend ∧ y.block = x.block

/-- A period is computed without a change of the settings. -/
theorem computePeriod_settingsKept (s : State) :
    SettingsKept (Claim.genOf l g s) (Claim.genOf l g (computePeriod l g s)) := by
  unfold computePeriod
  extract_lets c x T full d0 acc n wReq w p
  clear_value full d0
  split
  · split
    · rw [genOf_modGen_self]
      exact ⟨rfl, rfl, rfl, rfl, rfl⟩
    · rw [genOf_raiseIf, genOf_modGen_self]
      exact ⟨rfl, rfl, rfl, rfl, rfl⟩
  · rw [genOf_modGen_self]
    exact ⟨rfl, rfl, rfl, rfl, rfl⟩

/-- The other generators keep their periods. -/
theorem genOf_computePeriod_other {h : Fin 16} (hh : h ≠ g) (s : State) :
    Claim.genOf l h (computePeriod l g s) = Claim.genOf l h s := by
  unfold computePeriod
  extract_lets c x T full d0 acc n wReq w p
  clear_value full d0
  split
  · split
    · exact genOf_modGen_other _ _ _ hh _
    · rw [genOf_raiseIf, genOf_modGen_other _ _ _ hh]
  · exact genOf_modGen_other _ _ _ hh _

/-- Without refill a period follows the short-pulse rules (R221). -/
theorem computePeriod_noRefill {s : State} (hr : (genRec g s).refillEn = false) (hc : (Claim.genOf l g s).corr = 0)
    (hd : (Claim.genOf l g s).duty ≤ 32 * (Claim.genOf l g s).per) :
    ∃ y, Claim.genOf l g (computePeriod l g s) = withPeriod (shortRules (genRec g s).policy (32 * (Claim.genOf l g s).per)
      (Claim.genOf l g s).dt (Claim.genOf l g s).minp
      (((Claim.genOf l g s).duty : Int) + (Claim.genOf l g s).carry - (Claim.genOf l g s).acc)) y := by
  have hx : (s.lane l).pwm.gen[g] = Claim.genOf l g s := rfl
  have hlen : periodLen (Claim.genOf l g s) = (Claim.genOf l g s).per := by simp [periodLen, hc]
  have hfull : (if decide (32 * (Claim.genOf l g s).per ≤ (Claim.genOf l g s).duty) = true
      then ((32 * periodLen (Claim.genOf l g s) : Nat) : Int) else (Claim.genOf l g s).duty) = (Claim.genOf l g s).duty := by
    rw [hlen]
    split
    next h => exact_mod_cast Nat.le_antisymm (of_decide_eq_true h) hd
    next => rfl
  unfold computePeriod
  extract_lets c x T full d0 acc n wReq w p
  have hd0 : d0 = (Claim.genOf l g s).duty + (Claim.genOf l g s).carry := congrArg (· + (Claim.genOf l g s).carry) hfull
  have hp : p = shortRules (genRec g s).policy (32 * (Claim.genOf l g s).per) (Claim.genOf l g s).dt (Claim.genOf l g s).minp
      (((Claim.genOf l g s).duty : Int) + (Claim.genOf l g s).carry - (Claim.genOf l g s).acc) := by
    rw [← hlen, ← hd0]
    rfl
  rw [if_neg (by simp [c, hr]), genOf_modGen_self, hp]
  exact ⟨_, rfl⟩

end

/-! ### The mid-period update (R219, R220) -/

section
variable {l : Lane} {g : Fin 16} {s : State}

/-- The fall placed anew leaves duty, period and pending values. -/
theorem replace_kept (p : Period) (s : State) :
    (Claim.genOf l g (replace l g p s)).duty = (Claim.genOf l g s).duty ∧
      (Claim.genOf l g (replace l g p s)).perNext = (Claim.genOf l g s).perNext ∧
      (Claim.genOf l g (replace l g p s)).pend = (Claim.genOf l g s).pend ∧
      (Claim.genOf l g (replace l g p s)).start = (Claim.genOf l g s).start := by
  rw [replace, genOf_followFalls, genOf_modGen_self]
  exact ⟨rfl, rfl, rfl, rfl⟩

/-- A pending pair that acts at once. -/
theorem updateNow_taken {per : Nat} {d : DutyVal} (hp : (Claim.genOf l g s).pend = some (per, d)) :
    (Claim.genOf l g (updateNow l g s)).duty = (dutySteps per d).1 ∧
      (Claim.genOf l g (updateNow l g s)).perNext = some per ∧
      (Claim.genOf l g (updateNow l g s)).pend = none ∧
      (Claim.genOf l g (updateNow l g s)).start = (Claim.genOf l g s).start := by
  have hx : (s.lane l).pwm.gen[g] = Claim.genOf l g s := rfl
  unfold updateNow
  simp only [hx, hp]
  split
  · rw [genOf_raiseIf, genOf_modGen_self]
    exact ⟨rfl, rfl, rfl, rfl⟩
  · obtain ⟨hduty, hper, hpend, hstart⟩ := replace_kept (l := l) (g := g) (shortRules (genRec g s).policy
      (32 * periodLen (Claim.genOf l g s)) (Claim.genOf l g s).dt (Claim.genOf l g s).minp
      (((dutySteps per d).1 : Int) + (Claim.genOf l g s).carryIn)) (raiseIf (dutySteps per d).2 (.pwm l) 1
        (modGen l g (fun x => { x with
          duty := (dutySteps per d).1, dutyf := dutyFrac per (dutySteps per d).1, perNext := some per, pend := none,
          acc := 0, n := 0, refill := false }) s))
    rw [genOf_raiseIf, hduty, hper, hpend, hstart, genOf_raiseIf, genOf_modGen_self]
    exact ⟨rfl, rfl, rfl, rfl⟩

/-- A generator that does not run has no mid-period. -/
theorem exec_midPeriodUpdate_off (hoff : (Claim.genOf l g s).on = false) : exec (.midPeriodUpdate l g) s = .next s :=
  if_pos (by simpa [Claim.genOf] using hoff)

/-- A pair that arrived before mid-period acts there. -/
theorem exec_midPeriodUpdate_taken (hon : (Claim.genOf l g s).on = true) (hu : (genRec g s).upd = true)
    (hr : (Claim.genOf l g s).refill = false)
    (hp : (Claim.genOf l g s).pendAt ≤ (Claim.genOf l g s).start + (Claim.genOf l g s).per / 2) :
    exec (.midPeriodUpdate l g) s =
      .next (updateNow l g (elapseTo ((Claim.genOf l g s).start + (Claim.genOf l g s).per / 2) s)) := by
  have hgo : ((genRec g (elapseTo ((Claim.genOf l g s).start + (Claim.genOf l g s).per / 2) s)).upd &&
      !(Claim.genOf l g s).refill && decide ((Claim.genOf l g s).pendAt ≤
        (Claim.genOf l g s).start + (Claim.genOf l g s).per / 2)) = true := by
    rw [genRec, recD_of_key (elapseTo_only _ s .key (by simp)), ← genRec, hu, hr, decide_eq_true hp]
    rfl
  exact (if_neg (by simpa [Claim.genOf] using hon)).trans (if_pos hgo)

/-- With UPD 0 mid-period takes nothing. -/
theorem exec_midPeriodUpdate_none (hon : (Claim.genOf l g s).on = true) (hu : (genRec g s).upd = false) :
    exec (.midPeriodUpdate l g) s = .next (elapseTo ((Claim.genOf l g s).start + (Claim.genOf l g s).per / 2) s) := by
  have hgo : ¬ ((genRec g (elapseTo ((Claim.genOf l g s).start + (Claim.genOf l g s).per / 2) s)).upd &&
      !(Claim.genOf l g s).refill && decide ((Claim.genOf l g s).pendAt ≤
        (Claim.genOf l g s).start + (Claim.genOf l g s).per / 2)) = true := by
    rw [genRec, recD_of_key (elapseTo_only _ s .key (by simp)), ← genRec, hu]
    exact Bool.false_ne_true
  exact (if_neg (by simpa [Claim.genOf] using hon)).trans (if_neg hgo)

end

/-! ### The statement -/

section
variable {l : Lane} {g : Fin 16} {s : State}

/-- What a boundary does whatever blocks the generator: the time of the period's end, the generator as it was taken, and the
block that is judged. -/
theorem carrierBoundary_taken (hon : (Claim.genOf l g s).on = true) : ∃ t, exec (.carrierBoundary l g) s = .next t ∧
    t.now = max s.now ((Claim.genOf l g s).start + periodLen (Claim.genOf l g s)) ∧
    (∀ h : Fin 16, h ≠ g → Claim.genOf l h t = Claim.genOf l h s) ∧ (Claim.genOf l g t).block = blockReason s g ∧
    (Claim.genOf l g t).start = (Claim.genOf l g (atBoundary l g s)).start ∧
    (Claim.genOf l g t).per = (Claim.genOf l g (atBoundary l g s)).per ∧
    (Claim.genOf l g t).duty = (Claim.genOf l g (atBoundary l g s)).duty ∧
    (Claim.genOf l g t).pend = (Claim.genOf l g (atBoundary l g s)).pend := by
  by_cases hwhy : blockReason s g = 0
  · obtain ⟨cs, hex⟩ := exec_carrierBoundary_free hon hwhy
    obtain ⟨hstart, hper, hduty, hpend, hblock⟩ := computePeriod_settingsKept (l := l) (g := g) (unblocked l g s)
    refine ⟨_, hex, ?_, fun h hh => ?_, ?_, ?_, ?_, ?_, ?_⟩
    · have hframe : Frame [.gate, .events, .board, lanePart l] (atBoundary l g s)
          (foldS cs followFall (settleGates (computePeriod l g (unblocked l g s)))) :=
        .under (Frame.foldS (ps := [.gate]) cs followFall _ fun c u => followFall_only c u) (by simp)
          (.under (settleGates_only _) (by simp) (.under (computePeriod_only _ _ _) (by simp)
            ((modGen_only _ _ _ _).mono (by simp))))
      exact (hframe.now_eq (by cases l <;> simp [lanePart])).trans atBoundary_now
    · rw [genOf_settled, genOf_computePeriod_other hh, unblocked, genOf_modGen_other _ _ _ hh, genOf_atBoundary_other hh]
    · rw [genOf_settled, hblock, unblocked, genOf_modGen_self, hwhy]
    · rw [genOf_settled, hstart, unblocked, genOf_modGen_self]
    · rw [genOf_settled, hper, unblocked, genOf_modGen_self]
    · rw [genOf_settled, hduty, unblocked, genOf_modGen_self]
    · rw [genOf_settled, hpend, unblocked, genOf_modGen_self]
  · refine ⟨_, exec_carrierBoundary_blocked hon hwhy, ?_, fun h hh => ?_, ?_, ?_, ?_, ?_, ?_⟩
    · rw [(settleGates_only _).now_eq (by simp), (modGen_only l g _ _).now_eq (time_notMem_lanePart l), atBoundary_now]
    · rw [genOf_settleGates, genOf_modGen_other _ _ _ hh, genOf_atBoundary_other hh]
    · rw [genOf_settleGates, genOf_modGen_self, blockGen]
    · rw [genOf_settleGates, genOf_modGen_self, blockGen]
    · rw [genOf_settleGates, genOf_modGen_self, blockGen]
    · rw [genOf_settleGates, genOf_modGen_self, blockGen]
    · rw [genOf_settleGates, genOf_modGen_self, blockGen]

/-- A blocked generator keeps both sides off. -/
theorem carrierBoundary_blocked {t : State} (hon : (Claim.genOf l g s).on = true) (hwhy : blockReason s g ≠ 0)
    (hex : exec (.carrierBoundary l g) s = .next t) : (Claim.genOf l g t).hOff = true ∧ (Claim.genOf l g t).lOff = true ∧
      (Claim.genOf l g t).carry = 0 ∧ (Claim.genOf l g t).refill = false := by
  obtain rfl := Host.Outcome.next.inj ((exec_carrierBoundary_blocked hon hwhy).symm.trans hex)
  rw [genOf_settleGates, genOf_modGen_self]
  exact ⟨rfl, rfl, rfl, rfl⟩

/-- A generator with nothing pending, no correction and no phase to take, at its boundary. -/
theorem genOf_atBoundary_settled (hpend : (Claim.genOf l g s).pend = none) (hper : (Claim.genOf l g s).perNext = none)
    (hdt : (Claim.genOf l g s).dtNext = none) (hminp : (Claim.genOf l g s).minpNext = none)
    (herr : (Claim.genOf l g s).errLeft = 0) (hfresh : (Claim.genOf l g s).fresh = false) :
    let y := Claim.genOf l g (atBoundary l g s)
    let x := Claim.genOf l g s
    y.start = x.start + periodLen x ∧ y.per = x.per ∧ y.duty = x.duty ∧ y.corr = 0 ∧ y.dt = x.dt ∧ y.minp = x.minp ∧
      y.carry = x.carry ∧ y.acc = x.acc := by
  have hcorr (n : Nat) : corrOf n 0 = 0 := by
    rw [corrOf, clampInt]
    omega
  simp only [genOf_atBoundary_self, takenGen, restartGen, hpend, hper, hdt, hminp, herr, hfresh, hcorr, Option.getD_none,
    Bool.false_and, Bool.false_eq_true, if_false, and_self]

/-- Without refill the next period follows the short-pulse rules (R221). -/
theorem carrierBoundary_free {t : State} (hon : (Claim.genOf l g s).on = true) (hpend : (Claim.genOf l g s).pend = none)
    (hper : (Claim.genOf l g s).perNext = none) (hdt : (Claim.genOf l g s).dtNext = none)
    (hminp : (Claim.genOf l g s).minpNext = none) (herr : (Claim.genOf l g s).errLeft = 0)
    (hfresh : (Claim.genOf l g s).fresh = false) (hd : (Claim.genOf l g s).duty ≤ 32 * (Claim.genOf l g s).per)
    (hwhy : blockReason s g = 0) (hr : (genRec g s).refillEn = false) (hex : exec (.carrierBoundary l g) s = .next t) :
    let p := shortRules (genRec g s).policy (32 * (Claim.genOf l g s).per) (Claim.genOf l g s).dt (Claim.genOf l g s).minp
      (((Claim.genOf l g s).duty : Int) + (Claim.genOf l g s).carry - (Claim.genOf l g s).acc)
    (Claim.genOf l g t).rFall = p.fall ∧ (Claim.genOf l g t).carry = p.carry := by
  obtain ⟨-, yper, yduty, ycorr, ydt, yminp, ycarry, yacc⟩ := genOf_atBoundary_settled hpend hper hdt hminp herr hfresh
  obtain ⟨cs, hex'⟩ := exec_carrierBoundary_free hon hwhy
  obtain rfl := Host.Outcome.next.inj (hex'.symm.trans hex)
  have hrec : genRec g (unblocked l g s) = genRec g s := by
    rw [unblocked, genRec, recD_of_key ((modGen_only l g _ _) .key (by cases l <;> simp [lanePart])), ← genRec,
      genRec_atBoundary]
  obtain ⟨y, hy⟩ := computePeriod_noRefill (l := l) (g := g) (s := unblocked l g s) (by rw [hrec, hr])
    (by rw [unblocked, genOf_modGen_self]; exact ycorr)
    (by rw [unblocked, genOf_modGen_self]; exact (yper ▸ yduty ▸ hd))
  rw [genOf_settled, hy, hrec, unblocked, genOf_modGen_self]
  dsimp only [withPeriod]
  rw [yper, yduty, ydt, yminp, ycarry, yacc]
  exact ⟨rfl, rfl⟩

end

/-- A duty in steps within the period is not clamped. -/
theorem dutySteps_of_le {per n : Nat} (h : n ≤ 32 * per) : dutySteps per (.steps n) = (n, false) :=
  if_neg (Nat.not_lt.mpr h)

/-- Settles O36: the generator is followed to the judgement of blocks, which leaves its settings, and from there through the
block or the computed period. -/
theorem carrierBoundariesComputeThePeriod : Obligations.CarrierBoundariesComputeThePeriod := by
  rintro s l g x rfl
  refine ⟨fun hoff => ⟨exec_carrierBoundary_off hoff, exec_midPeriodUpdate_off hoff⟩,
    fun hon hpend hper hdt hminp herr hfresh hd => ?_, fun p d hon hpend hd => ?_, fun p d hon hpend hd hu hr hat => ?_,
    fun hon hu => ?_⟩
  · obtain ⟨t, hex, hnow, hother, hblock, hstart, hper', hduty, -⟩ := carrierBoundary_taken hon
    obtain ⟨ystart, yper, yduty, -⟩ := genOf_atBoundary_settled hpend hper hdt hminp herr hfresh
    exact ⟨t, hex, hnow, hstart.trans ystart, hper'.trans yper, hduty.trans yduty, hother, hblock,
      fun hwhy => carrierBoundary_blocked hon hwhy hex,
      fun hwhy hr => carrierBoundary_free hon hpend hper hdt hminp herr hfresh hd hwhy hr hex,
      (execCarrierBoundary_only l g s t hex).mono (by simp)⟩
  · obtain ⟨t, hex, -, -, -, -, hper, hduty, hpend'⟩ := carrierBoundary_taken hon
    obtain ⟨yper, yduty, ypend⟩ := takenGen_pair hpend
    rw [genOf_atBoundary_self] at hper hduty hpend'
    exact ⟨t, hex, hper.trans yper, hduty.trans (yduty.trans (by rw [dutySteps_of_le hd])), hpend'.trans ypend⟩
  · have hgen (h : Fin 16) : Claim.genOf l h (elapseTo ((Claim.genOf l g s).start + (Claim.genOf l g s).per / 2) s) =
        Claim.genOf l h s := by rw [Claim.genOf, elapseTo_lane, Claim.genOf]
    obtain ⟨hduty, hper, hpend', hstart⟩ := updateNow_taken (l := l) (g := g)
      (s := elapseTo ((Claim.genOf l g s).start + (Claim.genOf l g s).per / 2) s) ((hgen g).symm ▸ hpend)
    refine ⟨_, exec_midPeriodUpdate_taken hon hu hr hat, ?_, ?_, hper, hpend', hstart.trans (by rw [hgen])⟩
    · rw [(updateNow_only l g _).now_eq (by cases l <;> simp [lanePart]), elapseTo_now_eq_max]
    · rw [hduty, dutySteps_of_le hd]
  · refine ⟨_, exec_midPeriodUpdate_none hon hu, ?_, elapseTo_only _ s⟩
    rw [Claim.genOf, elapseTo_lane, Claim.genOf]

end Sys2Proof.Machine
end

section
/-! PROOFS. One gate channel (R237 to R247): how a change of a channel reads back, and what the blocks that a fault source begins or
ends leave of the channels. -/

namespace Sys2Proof.Machine

/-! ### One channel -/

/-- The channel that is changed. -/
theorem chOf_modCh_self (c : Fin 32) (f : Channel → Channel) (s : State) :
    Claim.chOf c (modCh c f s) = f (Claim.chOf c s) := modAt_getElem_self _ _ _

/-- The other channels stay. -/
theorem chOf_modCh_other {c d : Fin 32} (h : d ≠ c) (f : Channel → Channel) (s : State) :
    Claim.chOf d (modCh c f s) = Claim.chOf d s := modAt_getElem_other _ _ _ _ h

/-- A change of a channel leaves the flag groups. -/
theorem modCh_fg (c : Fin 32) (f : Channel → Channel) (s : State) : (modCh c f s).gate.fg = s.gate.fg := rfl

/-- A channel is the same where a frame leaves the gates. -/
theorem Frame.chOf_eq {ps : List Part} {s t : State} (h : Frame ps s t) (hp : .gate ∉ ps) (c : Fin 32) :
    Claim.chOf c t = Claim.chOf c s := congrArg (·.ch[c]) (h .gate hp : t.gate = s.gate)

/-- An event leaves the channels. -/
@[simp] theorem chOf_raise (c : Fin 32) (r : EvReg) (n : Nat) (s : State) : Claim.chOf c (raise r n s) = Claim.chOf c s :=
  (raise_only r n s).chOf_eq (by simp) c

@[simp] theorem chOf_raiseIf (c : Fin 32) (b : Bool) (r : EvReg) (n : Nat) (s : State) :
    Claim.chOf c (raiseIf b r n s) = Claim.chOf c s := (raiseIf_only b r n s).chOf_eq (by simp) c

/-- A trip of the mode controller leaves the channels. -/
@[simp] theorem chOf_protectionTrip (c : Fin 32) (s : State) : Claim.chOf c (protectionTrip s) = Claim.chOf c s :=
  (protectionTrip_only s).chOf_eq (by simp) c

/-- Time that passes leaves the channels. -/
@[simp] theorem chOf_elapseTo (c : Fin 32) (n : Nat) (s : State) : Claim.chOf c (elapseTo n s) = Claim.chOf c s :=
  (elapseTo_only n s).chOf_eq (by simp) c

/-- A channel's settings are those of the running image. -/
theorem chanRec_of_key {s t : State} (h : t.key = s.key) (c : Fin 32) : chanRec c t = chanRec c s := by
  rw [chanRec, chanRec, recD_of_key h]

/-- A record exists where the running image has it. -/
theorem hasRec_of_key {s t : State} (h : t.key = s.key) (type inst : Nat) : hasRec t type inst = hasRec s type inst := by
  rw [hasRec, hasRec, recOf_of_key h]

/-! ### Commands that end (R227) -/

/-- A channel whose command ends at a tick. -/
def cutChannel (n : Nat) (x : Channel) : Channel :=
  { x with onUntil := some (min (x.onUntil.getD n) n), edgeAt := max x.edgeAt n, blanking := false }

/-- A channel stays as it was, or its command, which was on, ends at a tick. -/
def Cut (n : Nat) (x y : Channel) : Prop := y = x ∨ (x.onUntil.all (fun u => decide (n < u)) = true ∧ y = cutChannel n x)

/-- The command of a channel is off at a tick. -/
def OffAt (n : Nat) (x : Channel) : Prop := x.onUntil.any (fun u => decide (u ≤ n)) = true

/-- A command that is cut is off. -/
theorem cutChannel_off (n : Nat) (x : Channel) : OffAt n (cutChannel n x) := by simp [OffAt, cutChannel]

/-- A command that is off is not on. -/
theorem OffAt.not_on {n : Nat} {x : Channel} (h : OffAt n x) : ¬ x.onUntil.all (fun u => decide (n < u)) = true := by
  unfold OffAt at h
  cases hx : x.onUntil with
  | none => simp [hx] at h
  | some u => simp_all

namespace Cut
variable {n : Nat} {x y : Channel}

/-- A command that is off is not cut. -/
theorem eq_of_off (h : Cut n x y) (hx : OffAt n x) : y = x := h.resolve_right fun hc => hx.not_on hc.1

/-- What a cut leaves of a channel. -/
theorem keeps {β : Type} (p : Channel → β) (h : Cut n x y) (hp : p (cutChannel n x) = p x := by rfl) : p y = p x := by
  rcases h with rfl | ⟨-, rfl⟩
  · rfl
  · exact hp

/-- A cut leaves a command off that is off. -/
theorem off (h : Cut n x y) (hx : OffAt n x) : OffAt n y := by rwa [h.eq_of_off hx]

end Cut

/-- Gates that follow their blocks keep each channel or cut it. -/
theorem chOf_settleGates (c : Fin 32) (s : State) : Cut s.now (Claim.chOf c s) (Claim.chOf c (settleGates s)) := by
  have hkept : (settleGates s).now = s.now ∧ Cut s.now (Claim.chOf c s) (Claim.chOf c (settleGates s)) := by
    rw [settleGates]
    refine foldS_invariant (fun t => t.now = s.now ∧ Cut s.now (Claim.chOf c s) (Claim.chOf c t)) _ (fun d t ht => ?_)
      ⟨rfl, .inl rfl⟩
    obtain ⟨hnow, hcut⟩ := ht
    split
    next hon =>
      obtain ⟨hall, -⟩ := (Bool.and_eq_true _ _).mp hon
      refine ⟨hnow, ?_⟩
      by_cases hd : c = d
      · subst hd
        rw [hnow] at hall
        have hx : Claim.chOf c t = Claim.chOf c s := by
          rcases hcut with hx | ⟨-, hx⟩
          · exact hx
          · exact absurd hall ((hx ▸ cutChannel_off s.now (Claim.chOf c s) : OffAt s.now (Claim.chOf c t)).not_on)
        exact .inr ⟨hx ▸ hall, by rw [cutGate, chOf_modCh_self, hx, hnow, cutChannel]⟩
      · rwa [cutGate, chOf_modCh_other hd]
    next => exact ⟨hnow, hcut⟩
  exact hkept.2

/-- The same where the channel stood so before other changes. -/
theorem chOf_settleGates_of {c : Fin 32} {s t : State} (hnow : t.now = s.now) (hch : Claim.chOf c t = Claim.chOf c s) :
    Cut s.now (Claim.chOf c s) (Claim.chOf c (settleGates t)) := by
  rw [← hnow, ← hch]
  exact chOf_settleGates c t

/-- A trip on a condition leaves the channels. -/
theorem chOf_whenTrip (c : Fin 32) (b : Bool) (s : State) : Claim.chOf c (when b protectionTrip s) = Claim.chOf c s := by
  cases b
  · rfl
  · exact chOf_protectionTrip c s

/-- A source that is noted leaves the channels. -/
theorem chOf_sourceNoted (c : Fin 32) (src : Nat) (ticks : Long) (s : State) :
    Claim.chOf c (sourceNoted src ticks s) = Claim.chOf c s :=
  (.when ((noteTrigsAt_only src ticks _).mono (by simp)) : Frame [.laneA, .laneB] _ (sourceNoted src ticks s)).chOf_eq
    (by simp) c

/-- A source that enters its groups leaves the channels. -/
theorem chOf_groupsTaken (c : Fin 32) (src groups : Nat) (latch : Bool) (ticks : Long) (s : State) :
    Claim.chOf c (groupsTaken src groups latch ticks s) = Claim.chOf c s := by
  rw [groupsTaken]
  split
  · exact chOf_sourceNoted c src ticks s
  · rw [chOf_raise, chOf_raise]
    exact chOf_sourceNoted c src ticks s

/-- Blocks that begin keep each channel or cut it. -/
theorem chOf_applyBlocks (c : Fin 32) (s : State) : Cut s.now (Claim.chOf c s) (Claim.chOf c (applyBlocks s)) := by
  have hbefore : Frame [.laneA, .laneB, .claim] s
      (settleTumblers (foldS lanes (fun l => foldS (idx 16) (blockWhereHeld l)) s)) :=
    .under (settleTumblers_only _) (by simp) (.foldS _ _ _ fun l v => .foldS _ _ _ fun g w =>
      (blockWhereHeld_only l g w).mono (by simp))
  rw [applyBlocks_eq, ← hbefore.chOf_eq (by simp) c, ← hbefore.now_eq (by simp)]
  exact chOf_settleGates c _

/-- A change of a fault source keeps each channel or cuts it. -/
theorem chOf_setSource (c : Fin 32) (src : Nat) (on : Bool) (s : State) :
    Cut s.now (Claim.chOf c s) (Claim.chOf c (setSource src on s)) := by
  rw [setSource]
  by_cases hsame : s.gate.fg.active.contains src = on
  · rw [setSource_same hsame]
    exact Or.inl rfl
  · cases on with
    | false =>
      rw [setSource_clear (by simpa using hsame)]
      exact chOf_settleGates_of rfl rfl
    | true =>
      have hna : src ∉ s.gate.fg.active := by simpa using hsame
      cases he : srcEntry src s with
      | none =>
        rw [setSource_assert_none hna he, chOf_whenTrip, chOf_sourceNoted]
        exact Or.inl rfl
      | some e =>
        obtain ⟨groups, latch, trip⟩ := e
        have hch : Claim.chOf c (sourceTaken src groups latch trip s) = Claim.chOf c s := by
          rw [sourceTaken, chOf_whenTrip, chOf_groupsTaken]
        have hnow : (sourceTaken src groups latch trip s).now = s.now := sourceTaken_only.now_eq (by simp)
        rw [setSource_assert hna he, ← sourceTaken, ← hch, ← hnow]
        exact chOf_applyBlocks c _

/-! ### A channel changes its state (R240) -/

/-- The channel takes the state, and where its fault source changes a block may cut it. -/
theorem chOf_setChState_self (c : Fin 32) (st : Fin 7) (s : State) :
    Cut s.now { Claim.chOf c s with state := st } (Claim.chOf c (setChState c st s)) := by
  have h := chOf_setSource c (64 + c.val) (decide (3 ≤ st.val)) (modCh c (fun x => { x with state := st }) s)
  rwa [chOf_modCh_self] at h

/-- The other channels stay, or a block cuts them. -/
theorem chOf_setChState_other {c d : Fin 32} (h : d ≠ c) (st : Fin 7) (s : State) :
    Cut s.now (Claim.chOf d s) (Claim.chOf d (setChState c st s)) := by
  have hcut := chOf_setSource d (64 + c.val) (decide (3 ≤ st.val)) (modCh c (fun x => { x with state := st }) s)
  rwa [chOf_modCh_other h] at hcut

/-- The fault source of a channel in a turn-off, a wait, a latch or a block is active. -/
theorem setChState_active {c : Fin 32} {st : Fin 7} (h : 3 ≤ st.val) (s : State) :
    64 + c.val ∈ (setChState c st s).gate.fg.active := by
  rw [setChState, decide_eq_true h]
  exact (setSource_assert_active _ _ _).1

/-- That of an armed channel is not. -/
theorem setChState_inactive {c : Fin 32} {st : Fin 7} (h : st.val < 3) (s : State) :
    64 + c.val ∉ (setChState c st s).gate.fg.active := by
  rw [setChState, decide_eq_false (by omega)]
  obtain ⟨hact, -⟩ := setSource_clear_effect (64 + c.val) (modCh c (fun x => { x with state := st }) s).raw
    (modCh c (fun x => { x with state := st }) s)
  exact hact

/-- A change between states in which the source stands changes the channel's state alone. -/
theorem setChState_of_active {c : Fin 32} {st : Fin 7} {s : State} (h : 3 ≤ st.val) (ha : 64 + c.val ∈ s.gate.fg.active) :
    setChState c st s = modCh c (fun x => { x with state := st }) s := by
  have hc : (modCh c (fun x => { x with state := st }) s).gate.fg.active.contains (64 + c.val) = true :=
    List.contains_iff_mem.mpr ha
  rw [setChState, decide_eq_true h, setSource, setSource_same hc]

/-- A channel is armed with the gates alone changed. -/
theorem setChState_inactive_only {c : Fin 32} {st : Fin 7} (h : st.val < 3) (s : State) :
    Frame [.gate] s (setChState c st s) := by
  rw [setChState, decide_eq_false (by omega)]
  obtain ⟨-, -, -, -, hframe⟩ := setSource_clear_effect (64 + c.val) (modCh c (fun x => { x with state := st }) s).raw
    (modCh c (fun x => { x with state := st }) s)
  exact (modCh_only _ _ _).comp hframe

end Sys2Proof.Machine
end

section
/-! PROOFS. The rails of a gate channel (R237): which crossings warn, which block the channel and which release it. -/

namespace Sys2Proof.Machine

/-! ### Events stay latched while a channel changes its state -/

/-- A change of a fault source clears no event. -/
theorem setSource_eventsKept (src : Nat) (on : Bool) (s : State) : EventsKept s (setSource src on s) := by
  have hnoted : EventsKept s (sourceNoted src s.raw s) := (sourceNoted_only src s.raw s).eventsKept (by simp)
  have htrip (b : Bool) (t : State) : EventsKept t (when b protectionTrip t) :=
    (Frame.when (protectionTrip_only t) : Frame [.mode] t _).eventsKept (by simp)
  rw [setSource]
  by_cases hsame : s.gate.fg.active.contains src = on
  · rw [setSource_same hsame]
    exact fun _ _ h => h
  · cases on with
    | false =>
      obtain ⟨-, -, -, -, hframe⟩ := setSource_clear_effect src s.raw s
      exact hframe.eventsKept (by simp)
    | true =>
      have hna : src ∉ s.gate.fg.active := by simpa using hsame
      cases he : srcEntry src s with
      | none =>
        rw [setSource_assert_none hna he]
        exact hnoted.trans (htrip _ _)
      | some e =>
        obtain ⟨groups, latch, trip⟩ := e
        rw [setSource_assert hna he]
        refine EventsKept.trans (EventsKept.trans ?_ (htrip _ _)) ((applyBlocks_only _).eventsKept (by simp))
        rw [groupsTaken]
        split
        · exact hnoted.trans ((modGate_only _ _).eventsKept (by simp))
        · exact ((hnoted.trans ((modGate_only _ _).eventsKept (by simp))).trans (raise_eventsKept _ _ (by omega) _)).trans
            (raise_eventsKept _ _ (by omega) _)

/-- A change of a channel's state clears no event. -/
theorem setChState_eventsKept (c : Fin 32) (st : Fin 7) (s : State) : EventsKept s (setChState c st s) :=
  ((modCh_only _ _ _).eventsKept (by simp)).trans (setSource_eventsKept _ _ _)

/-! ### The rails as the comparators see them -/

/-- A channel whose rails stand at these voltages at a tick (R237). -/
def railsSeen (pos neg : Int) (now : Nat) (x : Channel) : Channel :=
  let lowPos := decide (pos < 14500) || (x.lowPos && decide (pos ≤ 15500))
  let lowNeg := decide (-2500 < neg) || (x.lowNeg && decide (-3000 ≤ neg))
  { x with
    posMv := pos, negMv := neg, warnPos := decide (pos < 16000), warnNeg := decide (-3500 < neg),
    lowPos := lowPos, lowNeg := lowNeg, boot := x.boot && lowPos,
    edgeAt := if (x.lowPos || x.lowNeg) && !(lowPos || lowNeg) then max x.edgeAt now else x.edgeAt }

/-- A rail of the channel stands below its block level. -/
def railLow (x : Channel) : Bool := x.lowPos || x.lowNeg

/-- A rail crosses its warning level. -/
def railWarns (pos neg : Int) (x : Channel) : Bool :=
  (decide (pos < 16000) && !x.warnPos) || (decide (-3500 < neg) && !x.warnNeg)

/-- The rails are seen, with a warning where one crosses its warning level and another where one falls below its block level. -/
def railsWarned (c : Fin 32) (pos neg : Int) (s : State) : State :=
  raiseIf (railLow (railsSeen pos neg s.now (Claim.chOf c s)) && !railLow (Claim.chOf c s)) .gch 7
    (raiseIf (railWarns pos neg (Claim.chOf c s)) .gch 6 (modCh c (railsSeen pos neg s.now) s))

/-- A channel as a rail blocks it: its command ends, in an on-pulse at a tick that is kept (R240). -/
def railBlocked (on : Bool) (now : Nat) (x : Channel) : Channel := { x with cause := 6, cutAt := if on then some now else x.cutAt }

section
variable {c : Fin 32} {pos neg : Int} {s : State}

/-- A crossing, by what it does to the channel's state. -/
theorem railCrossing_eq (h : hasRec s 0x52 c.val = true) : railCrossing c pos neg s =
    if (Claim.chOf c s).state == 2 && railLow (railsSeen pos neg s.now (Claim.chOf c s)) then
      setChState c 6 (modCh c (railBlocked (gateOn s c) s.now) (cutGate c (railsWarned c pos neg s)))
    else if (Claim.chOf c s).state == 6 && (Claim.chOf c s).boot &&
        !(railsSeen pos neg s.now (Claim.chOf c s)).lowPos && !(railsSeen pos neg s.now (Claim.chOf c s)).lowNeg then
      setChState c 2 (railsWarned c pos neg s)
    else railsWarned c pos neg s :=
  if_neg (by simp [h])

/-- Without a record a crossing does nothing. -/
theorem railCrossing_of_noRec (h : hasRec s 0x52 c.val = false) : railCrossing c pos neg s = s :=
  if_pos (by simp [h])

/-- The channel with its rails seen. -/
theorem chOf_railsWarned : Claim.chOf c (railsWarned c pos neg s) = railsSeen pos neg s.now (Claim.chOf c s) := by
  rw [railsWarned, chOf_raiseIf, chOf_raiseIf, chOf_modCh_self]

/-- Warnings change the gates and the events alone. -/
theorem railsWarned_only : Frame [.gate, .events, .board] s (railsWarned c pos neg s) :=
  .under (raiseIf_only _ _ _ _) (by simp) (.under (raiseIf_only _ _ _ _) (by simp) ((modCh_only _ _ _).mono (by simp)))

/-- Warnings leave the flag groups. -/
theorem railsWarned_fg : (railsWarned c pos neg s).gate.fg = s.gate.fg := by
  have hev (b : Bool) (n : Nat) (t : State) : (raiseIf b .gch n t).gate = t.gate := raiseIf_only b .gch n t .gate (by simp)
  rw [railsWarned, hev, hev]
  rfl

/-- Warnings clear no event. -/
theorem railsWarned_eventsKept : EventsKept s (railsWarned c pos neg s) :=
  (((modCh_only _ _ _).eventsKept (by simp)).trans (raiseIf_eventsKept _ _ _ (by omega) _)).trans
    (raiseIf_eventsKept _ _ _ (by omega) _)

/-- A rail that crosses its warning level raises GATE_UV's warning. -/
theorem railsWarned_latched_warn (h : railWarns pos neg (Claim.chOf c s) = true) : Latched .gch 6 (railsWarned c pos neg s) := by
  rw [railsWarned, h]
  exact raiseIf_eventsKept _ _ _ (by omega) _ _ _ (latched_raise _ _ _ (by omega))

/-- A rail that falls below its block level raises the block's event. -/
theorem railsWarned_latched_block (hl : railLow (railsSeen pos neg s.now (Claim.chOf c s)) = true)
    (hx : railLow (Claim.chOf c s) = false) : Latched .gch 7 (railsWarned c pos neg s) := by
  rw [railsWarned, hl, hx]
  exact latched_raise _ _ _ (by omega)

/-- A rail that stays above its block level leaves the block's event. -/
theorem railsWarned_block_kept (hl : railLow (railsSeen pos neg s.now (Claim.chOf c s)) = false) :
    bit (eventsOf .gch (railsWarned c pos neg s)) 7 = bit (eventsOf .gch s) 7 := by
  rw [railsWarned, hl, Bool.false_and]
  change bit (eventsOf .gch (raiseIf _ .gch 6 _)) 7 = _
  cases railWarns pos neg (Claim.chOf c s)
  · rfl
  · exact (eventsOf_raise .gch 6 7 _ (by omega)).trans (if_neg (by omega))

/-- Rails that cross no level are seen without an event. -/
theorem railsWarned_quiet (hw : railWarns pos neg (Claim.chOf c s) = false)
    (hl : railLow (railsSeen pos neg s.now (Claim.chOf c s)) = false) :
    railsWarned c pos neg s = modCh c (railsSeen pos neg s.now) s := by
  rw [railsWarned, hw, hl]
  rfl

/-- A channel whose rails stay above their block levels keeps its state. -/
theorem railCrossing_armed (hrec : hasRec s 0x52 c.val = true) (hst : (Claim.chOf c s).state = 2)
    (hl : railLow (railsSeen pos neg s.now (Claim.chOf c s)) = false) :
    railCrossing c pos neg s = railsWarned c pos neg s := by
  rw [railCrossing_eq hrec, if_neg (by simp [hl]), if_neg (by simp [hst])]

/-- An armed channel one of whose rails falls below its block level is blocked. -/
theorem railCrossing_blocks (hrec : hasRec s 0x52 c.val = true) (hst : (Claim.chOf c s).state = 2)
    (hl : railLow (railsSeen pos neg s.now (Claim.chOf c s)) = true) : railCrossing c pos neg s =
      setChState c 6 (modCh c (railBlocked (gateOn s c) s.now) (cutGate c (railsWarned c pos neg s))) := by
  rw [railCrossing_eq hrec, if_pos (by simp [hst, hl])]

end

/-- What a block by a rail leaves: the channel is blocked with cause 6 and its command off, its source is active and its event
latched. -/
theorem railCrossing_blocks_effect {c : Fin 32} {pos neg : Int} {s : State} (hrec : hasRec s 0x52 c.val = true)
    (hst : (Claim.chOf c s).state = 2) (hx : railLow (Claim.chOf c s) = false)
    (hl : railLow (railsSeen pos neg s.now (Claim.chOf c s)) = true) :
    let t := railCrossing c pos neg s
    (Claim.chOf c t).state = 6 ∧ (Claim.chOf c t).cause = 6 ∧
      (Claim.chOf c t).lowPos = (railsSeen pos neg s.now (Claim.chOf c s)).lowPos ∧ OffAt s.now (Claim.chOf c t) ∧
      Latched .gch 7 t ∧ (railWarns pos neg (Claim.chOf c s) = true → Latched .gch 6 t) ∧ 64 + c.val ∈ t.gate.fg.active := by
  dsimp only
  rw [railCrossing_blocks hrec hst hl]
  have hnow : (railsWarned c pos neg s).now = s.now := railsWarned_only.now_eq (by simp)
  have hch : Claim.chOf c (modCh c (railBlocked (gateOn s c) s.now) (cutGate c (railsWarned c pos neg s))) =
      railBlocked (gateOn s c) s.now (cutChannel s.now (railsSeen pos neg s.now (Claim.chOf c s))) := by
    rw [chOf_modCh_self, cutGate, chOf_modCh_self, chOf_railsWarned, hnow, cutChannel]
  have hcut := chOf_setChState_self c 6 (modCh c (railBlocked (gateOn s c) s.now) (cutGate c (railsWarned c pos neg s)))
  have hkept : EventsKept (railsWarned c pos neg s)
      (setChState c 6 (modCh c (railBlocked (gateOn s c) s.now) (cutGate c (railsWarned c pos neg s)))) :=
    (((cutGate_only _ _).eventsKept (by simp)).trans ((modCh_only _ _ _).eventsKept (by simp))).trans
      (setChState_eventsKept _ _ _)
  rw [hch] at hcut
  have hoff : OffAt s.now { railBlocked (gateOn s c) s.now (cutChannel s.now (railsSeen pos neg s.now (Claim.chOf c s))) with
      state := 6 } := cutChannel_off s.now _
  have heq := hcut.eq_of_off (hnow.symm ▸ hoff)
  rw [heq]
  exact ⟨rfl, rfl, rfl, hoff, hkept _ _ (railsWarned_latched_block hl hx), fun hw => hkept _ _ (railsWarned_latched_warn hw),
    setChState_active (by decide) _⟩

/-- A blocked channel whose rails stay below leaves nothing but the rails seen. -/
theorem railCrossing_stays {c : Fin 32} {pos neg : Int} {s : State} (hrec : hasRec s 0x52 c.val = true)
    (hst : (Claim.chOf c s).state = 6) (hl : (railsSeen pos neg s.now (Claim.chOf c s)).lowPos = true) :
    railCrossing c pos neg s = railsWarned c pos neg s := by
  rw [railCrossing_eq hrec, if_neg (by simp [hst]), if_neg (by simp [hl])]

/-- A channel that waits for its bootstrap is armed once both rails stand above release. -/
theorem railCrossing_boots {c : Fin 32} {pos neg : Int} {s : State} (hrec : hasRec s 0x52 c.val = true)
    (hst : (Claim.chOf c s).state = 6) (hb : (Claim.chOf c s).boot = true)
    (hl : railLow (railsSeen pos neg s.now (Claim.chOf c s)) = false) :
    railCrossing c pos neg s = setChState c 2 (railsWarned c pos neg s) := by
  have hlow := (Bool.or_eq_false_iff).mp hl
  rw [railCrossing_eq hrec, if_neg (by simp [hst]), if_pos (by simp [hst, hb, hlow.1, hlow.2])]

/-! ### Telemetry (R249) -/

/-- A channel with its telemetry renewed. -/
def reported (c : Fin 32) (ps ns : List Int) (x : Channel) : Channel :=
  { x with
    repPos := BitVec.ofInt 16 (ps.getD c.val 0 / 10), repNeg := BitVec.ofInt 16 (ns.getD c.val 0 / 10),
    repA := x.tripA, repQg := x.qg }

/-- A walk over the channels that reports each leaves each reported. -/
theorem chOf_reportAll (c : Fin 32) (ps ns : List Int) (s : State) :
    Claim.chOf c (foldS (idx 32) (fun d => modCh d (reported d ps ns)) s) = reported c ps ns (Claim.chOf c s) := by
  have hrep (x : Channel) : reported c ps ns (reported c ps ns x) = reported c ps ns x := rfl
  have hstep (d : Fin 32) (t : State) (y : Channel) (h : reported c ps ns (Claim.chOf c t) = y) :
      reported c ps ns (Claim.chOf c (modCh d (reported d ps ns) t)) = y := by
    by_cases hd : c = d
    · subst hd
      rw [chOf_modCh_self, hrep, h]
    · rw [chOf_modCh_other hd, h]
  refine foldS_establishes (fun t => Claim.chOf c t = reported c ps ns (Claim.chOf c s))
    (fun t => reported c ps ns (Claim.chOf c t) = reported c ps ns (Claim.chOf c s)) c _ _ s (fun d t => hstep d t _)
    (fun d t ht => ?_) (fun t ht => ?_) (mem_idx c) rfl
  · by_cases hd : c = d
    · subst hd
      rw [chOf_modCh_self, ht, hrep]
    · rw [chOf_modCh_other hd, ht]
  · rw [chOf_modCh_self, ht]

/-- Rails warn, block and release as R237 has it, and the telemetry is renewed. -/
theorem railsWarnAndBlock : Claim.RailsWarnAndBlock := by
  rintro s c x pos neg rfl
  refine ⟨fun h => congrArg Host.Outcome.next (railCrossing_of_noRec h), fun hrec hst hp hn hwp hwn => ⟨fun hpos hneg => ?_,
    fun hpos hpos' hneg => ?_, fun hlow => ?_⟩, fun hrec hst hlow hpos => ?_, fun hrec hst hb hpos hneg => ?_, fun ps ns => ?_⟩
  · have hw : railWarns pos neg (Claim.chOf c s) = false := by
      rw [railWarns, decide_eq_false (by omega), decide_eq_false (by omega)]
      rfl
    have hseen : railsSeen pos neg s.now (Claim.chOf c s) =
        { Claim.chOf c s with posMv := pos, negMv := neg, boot := false } := by
      simp [railsSeen, hp, hn, hwp, hwn, show ¬ pos < 14500 by omega, show ¬ pos < 16000 by omega,
        show ¬ -2500 < neg by omega, show ¬ -3500 < neg by omega]
    have hl : railLow (railsSeen pos neg s.now (Claim.chOf c s)) = false := by
      rw [hseen, railLow, hp, hn, Bool.or_false]
    refine ⟨_, rfl, ?_, ?_⟩
    · rw [railCrossing_armed hrec hst hl, chOf_railsWarned, hseen]
    · rw [railCrossing_armed hrec hst hl, railsWarned_quiet hw hl]
      exact modCh_only _ _ _
  · have hw : railWarns pos neg (Claim.chOf c s) = true := by simp [railWarns, hwp, hpos']
    have hl : railLow (railsSeen pos neg s.now (Claim.chOf c s)) = false := by
      simp [railLow, railsSeen, hp, hn, show ¬ pos < 14500 by omega, show ¬ -2500 < neg by omega]
    refine ⟨_, rfl, ?_⟩
    rw [railCrossing_armed hrec hst hl, chOf_railsWarned]
    exact ⟨hst, decide_eq_true hpos', railsWarned_latched_warn hw, railsWarned_block_kept hl⟩
  · have hx : railLow (Claim.chOf c s) = false := by rw [railLow, hp, hn, Bool.or_false]
    have hl : railLow (railsSeen pos neg s.now (Claim.chOf c s)) = true := by simpa [railLow, railsSeen, hp, hn] using hlow
    have hw : railWarns pos neg (Claim.chOf c s) = true := by
      simp only [railWarns, hwp, hwn, Bool.not_false, Bool.and_true, Bool.or_eq_true, decide_eq_true_eq]
      omega
    obtain ⟨hst', hcause, -, hoff, h7, h6, hact⟩ := railCrossing_blocks_effect hrec hst hx hl
    exact ⟨_, rfl, hst', hcause, h6 hw, h7, hoff, hact⟩
  · have hl : (railsSeen pos neg s.now (Claim.chOf c s)).lowPos = true := by simp [railsSeen, hlow, hpos]
    refine ⟨_, rfl, ?_⟩
    rw [railCrossing_stays hrec hst hl, chOf_railsWarned]
    exact ⟨hst, hl⟩
  · have hl : railLow (railsSeen pos neg s.now (Claim.chOf c s)) = false := by
      simp [railLow, railsSeen, show ¬ pos < 14500 by omega, show ¬ pos ≤ 15500 by omega, show ¬ -2500 < neg by omega,
        show ¬ -3000 ≤ neg by omega]
    have hcut := chOf_setChState_self c 2 (railsWarned c pos neg s)
    rw [chOf_railsWarned] at hcut
    refine ⟨_, rfl, ?_⟩
    rw [railCrossing_boots hrec hst hb hl]
    refine ⟨hcut.keeps Channel.state, (hcut.keeps Channel.boot).trans ?_, setChState_inactive (by decide) _⟩
    have hlow : (railsSeen pos neg s.now (Claim.chOf c s)).lowPos = false := ((Bool.or_eq_false_iff).mp hl).1
    exact (congrArg ((Claim.chOf c s).boot && ·) hlow).trans (Bool.and_false _)
  · have hgate : (periodic tkGate (us 100) s).gate = s.gate := periodic_only tkGate (us 100) s .gate (by simp)
    have hkept : ((foldS (idx 32) (fun d => modCh d (reported d ps ns)) (periodic tkGate (us 100) s)).gate.faults,
        (foldS (idx 32) (fun d => modCh d (reported d ps ns)) (periodic tkGate (us 100) s)).gate.fg) =
        (s.gate.faults, s.gate.fg) := by
      rw [← hgate]
      exact foldS_keeps (fun t => (t.gate.faults, t.gate.fg)) _ _ _ fun _ _ => rfl
    obtain ⟨hfaults, hfg⟩ := Prod.mk.inj hkept
    have honly : Frame [.gate] (periodic tkGate (us 100) s)
        (foldS (idx 32) (fun d => modCh d (reported d ps ns)) (periodic tkGate (us 100) s)) :=
      .foldS _ _ _ fun d t => modCh_only d _ t
    refine ⟨_, rfl, ?_, ?_, hfaults, hfg, .comp ((periodic_only _ _ _).mono (by simp)) (honly.mono (by simp))⟩
    · refine le_trans ?_ (honly.now_eq (by simp)).ge
      exact Nat.le_add_right _ _
    · refine (chOf_reportAll c ps ns _).trans ?_
      rw [(periodic_only tkGate (us 100) s).chOf_eq (by simp)]
      rfl

end Sys2Proof.Machine
end

section
/-! PROOFS. Output stages and their spares (O39; R244, R246, R247; log entry 3): a switch-in, the self-tests, and the release of a
latch. -/

namespace Sys2Proof.Machine

/-! ### A channel latches (R71, R242) -/

/-- The channel is latched, its source active and SC_LATCH raised; no event is cleared. -/
theorem latchCh_effect (c : Fin 32) (s : State) :
    Cut s.now { Claim.chOf c s with state := 5 } (Claim.chOf c (latchCh c s)) ∧ Latched .gch 1 (latchCh c s) ∧
      EventsKept s (latchCh c s) ∧ 64 + c.val ∈ (latchCh c s).gate.fg.active := by
  have htrip : EventsKept (raise .gch 1 (setChState c 5 s)) (latchCh c s) := (protectionTrip_only _).eventsKept (by simp)
  have hfg : (latchCh c s).gate.fg = (setChState c 5 s).gate.fg := congrArg GateState.fg
    ((protectionTrip_only _ .gate (by simp)).trans (raise_only _ _ _ .gate (by simp)) :
      (latchCh c s).gate = (setChState c 5 s).gate)
  refine ⟨?_, htrip _ _ (latched_raise _ _ _ (by omega)),
    ((setChState_eventsKept _ _ _).trans (raise_eventsKept _ _ (by omega) _)).trans htrip,
    hfg ▸ setChState_active (by decide) _⟩
  rw [latchCh, chOf_protectionTrip, chOf_raise]
  exact chOf_setChState_self c 5 s

/-! ### Switch-in of the spare stage (R246) -/

/-- When a switch-in may take place: 200 ns after the command's end. -/
def swapFrom (c : Fin 32) (s : State) : Nat := (Claim.chOf c s).onUntil.getD s.now + 80

section
variable {c : Fin 32} {n : Nat} {s : State}

/-- Nothing is switched in while none waits, the command is on, or the next edge comes before. -/
theorem exec_stageSwap_none (h : ∀ p, (Claim.chOf c s).swapPend = some p →
    gateOn s c = true ∨ (dueEdge c s).any (fun e => decide (e.1 < swapFrom c s)) = true) :
    exec (.stageSwap c n) s = .next s := by
  change execStageSwap c n s = _
  have hx : s.gate.ch[c] = Claim.chOf c s := rfl
  unfold execStageSwap
  dsimp only
  rw [hx]
  cases hp : (Claim.chOf c s).swapPend with
  | none => rfl
  | some p =>
    refine if_pos (Bool.or_eq_true_iff.mpr ?_)
    exact h p hp

/-- A switch-in that takes place. -/
theorem exec_stageSwap {p : Nat × Nat} (hp : (Claim.chOf c s).swapPend = some p) (hoff : gateOn s c = false)
    (hedge : (dueEdge c s).all (fun e => decide (swapFrom c s ≤ e.1)) = true) : exec (.stageSwap c n) s =
      .next (if (Claim.chOf c s).spare then switchStage c p.1 p.2 (elapseTo (swapFrom c s) s)
        else elapseTo ((switchStage c p.1 p.2 (elapseTo (swapFrom c s) s)).now + min n 50 * 2 / 5)
          (switchStage c p.1 p.2 (elapseTo (swapFrom c s) s))) := by
  have hnone : ¬ (gateOn s c || (dueEdge c s).any fun e => decide (e.1 < swapFrom c s)) = true := by
    rw [hoff, Bool.false_or]
    cases hd : dueEdge c s with
    | none => simp
    | some e =>
      have hle : swapFrom c s ≤ e.1 := by simpa [hd] using hedge
      simpa using hle
  change execStageSwap c n s = _
  have hx : s.gate.ch[c] = Claim.chOf c s := rfl
  unfold execStageSwap
  dsimp only
  rw [hx, hp]
  exact if_neg hnone

/-- A spare stage takes over: the channel keeps all but the stage in use, and SPARE_IN is raised. -/
theorem switchStage_spare (trig ind : Nat) (h : (Claim.chOf c s).spare = false) :
    Claim.chOf c (switchStage c trig ind s) = { Claim.chOf c s with spare := true, swapPend := none } ∧
      Latched .gch 4 (switchStage c trig ind s) ∧ Frame [.gate, .wear, .events, .board] s (switchStage c trig ind s) := by
  have hs : switchStage c trig ind s = hingeSwap 4 2 c.val 0 trig ind
      (raise .gch 4 (modCh c (fun x => { x with spare := true, swapPend := none }) s)) :=
    if_neg (by simpa [Claim.chOf] using h)
  rw [hs]
  refine ⟨?_, hingeSwap_eventsKept _ _ _ _ _ _ _ _ _ (latched_raise _ _ _ (by omega)),
    .under (hingeSwap_only _ _ _ _ _ _ _) (by simp) (.under (raise_only _ _ _) (by simp)
      ((modCh_only _ _ _).mono (by simp)))⟩
  rw [(hingeSwap_only _ _ _ _ _ _ _).chOf_eq (by simp), chOf_raise, chOf_modCh_self]

/-- Without a spare stage the channel latches as a stage failure, and STAGE_NONE is raised. -/
theorem switchStage_none (trig ind : Nat) (h : (Claim.chOf c s).spare = true) :
    (Claim.chOf c (switchStage c trig ind s)).state = 5 ∧ (Claim.chOf c (switchStage c trig ind s)).cause = 5 ∧
      Latched .gch 5 (switchStage c trig ind s) ∧ Latched .gch 1 (switchStage c trig ind s) := by
  have hs : switchStage c trig ind s = stageFail c (raise .gch 5 (noSpare 4 2 c.val trig ind s)) :=
    if_pos (by simpa [Claim.chOf] using h)
  obtain ⟨hcut, h1, hkept, -⟩ := latchCh_effect c
    (modCh c (fun x => { x with cause := 5, swapPend := none }) (cutGate c (raise .gch 5 (noSpare 4 2 c.val trig ind s))))
  rw [hs]
  refine ⟨hcut.keeps Channel.state, (hcut.keeps Channel.cause).trans ?_, hkept _ _ ?_, h1⟩
  · rw [chOf_modCh_self]
  · exact ((cutGate_only _ _).eventsKept (by simp)).trans ((modCh_only _ _ _).eventsKept (by simp)) _ _
      (latched_raise _ _ _ (by omega))

end

/-! ### GCH_CTL on the selected channel (R244, R247) -/

/-- Outside M3 no self-test starts. -/
theorem exec_gchSelftest_none {s : State} (h : s.md ≠ 3) : exec .gchSelftest s = .next s :=
  if_neg (by simp [h])

/-- Outside M3 and M11 no latch is released. -/
theorem exec_gchClear_none {s : State} (h3 : s.md ≠ 3) (h11 : s.md ≠ 11) (p : Nat × Nat) (sn : Nat) :
    exec (.gchClear p sn) s = .next s :=
  if_pos (by simp [inStop, h3, h11])

section
variable {c : Fin 32} {s : State} (hsel : s.gate.sel.toNat = c.val)
include hsel

/-- The channel that GCH_SEL names. -/
theorem selCh_eq : selCh s = c := Fin.ext hsel

/-- In M3 a powered channel with a record starts its self-test. -/
theorem exec_gchSelftest (h : s.md = 3) (hp : powered s c = true) (hr : hasRec s 0x52 c.val = true) :
    exec .gchSelftest s = .next (modCh c (fun x => { x with selfTest := true }) s) := by
  obtain rfl := selCh_eq hsel
  exact if_pos (by simp [h, hp, hr])

/-- The state in which the latch of a channel is released. -/
def latchReset (c : Fin 32) (s : State) : State :=
  passEdges c (setChState c (restState s c) (modCh c (fun x => { x with events := [], ogRun := 0, swapPend := none }) s))

/-- A latch whose cause asks for no test, or whose test finds both stages and the sense path in order, is released. -/
theorem exec_gchClear_released (hmd : s.md = 3 ∨ s.md = 11) (hst : (Claim.chOf c s).state = 5) {p q sn : Nat}
    (ht : ((Claim.chOf c s).cause ≠ 4 ∧ (Claim.chOf c s).cause ≠ 5) ∨ (p ≤ 2000 ∧ q ≤ 2000 ∧ sn ≤ 100)) :
    exec (.gchClear (p, q) sn) s = .next (latchReset c s) := by
  obtain rfl := selCh_eq hsel
  have hx : s.gate.ch[selCh s] = Claim.chOf (selCh s) s := rfl
  have hstop : inStop s = true := by
    rcases hmd with h | h <;> simp [inStop, h]
  change execGchClear (p, q) sn s = _
  unfold execGchClear
  dsimp only
  rw [hx, if_neg (by simp [hstop, hst])]
  rcases ht with ⟨h4, h5⟩ | ⟨hp, hq, hsn⟩
  · have htest : ((Claim.chOf (selCh s) s).cause == 4 || (Claim.chOf (selCh s) s).cause == 5) = false := by simp [h4, h5]
    rw [htest]
    simp only [Bool.false_and, Bool.false_eq_true, if_false]
    rfl
  · have hpp : stagePasses p = true := decide_eq_true hp
    have hqq : stagePasses q = true := decide_eq_true hq
    rw [hpp, hqq, decide_eq_false (Nat.not_lt.mpr hsn)]
    simp only [Bool.not_true, Bool.and_false, Bool.false_and, Bool.or_self, Bool.false_eq_true, if_false]
    rfl

/-- A latch whose test finds no stage or no sense path stays, with the test's event. -/
theorem exec_gchClear_failed (hmd : s.md = 3 ∨ s.md = 11) (hst : (Claim.chOf c s).state = 5) {p q sn : Nat}
    (hc : (Claim.chOf c s).cause = 4 ∨ (Claim.chOf c s).cause = 5) (hf : (2000 < p ∧ 2000 < q) ∨ 100 < sn) :
    exec (.gchClear (p, q) sn) s = .next (raise .gch 8 s) := by
  obtain rfl := selCh_eq hsel
  have hx : s.gate.ch[selCh s] = Claim.chOf (selCh s) s := rfl
  have hstop : inStop s = true := by
    rcases hmd with h | h <;> simp [inStop, h]
  have htest : ((Claim.chOf (selCh s) s).cause == 4 || (Claim.chOf (selCh s) s).cause == 5) = true := by
    rcases hc with h | h <;> simp [h]
  change execGchClear (p, q) sn s = _
  unfold execGchClear
  dsimp only
  rw [hx, if_neg (by simp [hstop, hst]), htest]
  refine if_pos ?_
  simpa [stagePasses] using hf

end

/-- What the release of a latch leaves, of a channel with its command off and its rails up: the channel armed with its run of events
cleared, and its source inactive. -/
theorem latchReset_effect {c : Fin 32} {s : State} (hrec : hasRec s 0x52 c.val = true) (hx : railLow (Claim.chOf c s) = false)
    (hoff : OffAt s.now (Claim.chOf c s)) :
    Claim.chOf c (latchReset c s) = { Claim.chOf c s with
      state := 2, events := [], ogRun := 0, swapPend := none, edgeAt := max (Claim.chOf c s).edgeAt s.now } ∧
      64 + c.val ∉ (latchReset c s).gate.fg.active ∧ Frame [.gate] s (latchReset c s) := by
  have hrest : restState s c = 2 := by
    have hx' : (s.gate.ch[c].lowPos || s.gate.ch[c].lowNeg) = false := hx
    rw [restState, if_neg (by simp [hrec]), hx', if_neg Bool.false_ne_true]
  have hcut := chOf_setChState_self c 2 (modCh c (fun x => { x with events := [], ogRun := 0, swapPend := none }) s)
  rw [chOf_modCh_self] at hcut
  have hnow := (setChState_inactive_only (c := c) (st := 2) (by decide)
    (modCh c (fun x => { x with events := [], ogRun := 0, swapPend := none }) s)).now_eq (by simp)
  rw [latchReset, hrest]
  refine ⟨?_, setChState_inactive (by decide) _, (modCh_only _ _ _).comp
    ((setChState_inactive_only (by decide) _).comp (modCh_only _ _ _))⟩
  rw [passEdges, chOf_modCh_self, hcut.eq_of_off hoff, hnow]
  rfl

/-! ### A self-test completes (R247) -/

section
variable {c : Fin 32} {s : State}

/-- Without a running self-test nothing completes. -/
theorem exec_selftestDone_none (h : (Claim.chOf c s).selfTest = false) (p q sn : Nat) :
    exec (.selftestDone c p q sn) s = .next s :=
  if_pos (by simpa [Claim.chOf] using h)

/-- A self-test in order ends without more. -/
theorem exec_selftestDone_passed (h : (Claim.chOf c s).selfTest = true) {p q sn : Nat} (hp : p ≤ 2000) (hq : q ≤ 2000)
    (hsn : sn ≤ 100) :
    exec (.selftestDone c p q sn) s = .next (modCh c (fun x => { x with selfTest := false }) s) := by
  have hx : s.gate.ch[c] = Claim.chOf c s := rfl
  have hpp : stagePasses p = true := decide_eq_true hp
  have hqq : stagePasses q = true := decide_eq_true hq
  change execSelftestDone c p q sn s = _
  unfold execSelftestDone
  dsimp only
  rw [hx, hpp, hqq, decide_eq_false (Nat.not_lt.mpr hsn), if_neg (by simp [h])]
  have hraise (t : State) : raiseIf false .gch 8 t = t := rfl
  simp only [Bool.not_true, Bool.or_self, hraise, Bool.and_self, Bool.false_eq_true, if_false, Bool.false_and,
    ite_self]

/-- A primary stage that fails its test is to be switched over. -/
theorem exec_selftestDone_primary (h : (Claim.chOf c s).selfTest = true) (hst : (Claim.chOf c s).state ≠ 5)
    (hspare : (Claim.chOf c s).spare = false) {p q sn : Nat} (hp : 2000 < p) (hq : q ≤ 2000) (hsn : sn ≤ 100) :
    exec (.selftestDone c p q sn) s = .next (modCh c (fun x => { x with swapPend := some (1, p) })
      (raise .gch 8 (modCh c (fun x => { x with selfTest := false }) s))) := by
  have hx : s.gate.ch[c] = Claim.chOf c s := rfl
  have hpp : stagePasses p = false := decide_eq_false (Nat.not_le.mpr hp)
  have hqq : stagePasses q = true := decide_eq_true hq
  have hst' : ((Claim.chOf c s).state == 5) = false := by simp [hst]
  change execSelftestDone c p q sn s = _
  unfold execSelftestDone
  dsimp only
  rw [hx, hpp, hqq, hspare, hst', if_neg (by simp [h]), if_neg Bool.false_ne_true, if_neg (by simp; omega)]
  rfl

end

/-- Output stages are tested, replaced and released as R244 to R247 have it. -/
theorem gateStagesAreTestedAndReplaced : Claim.GateStagesAreTestedAndReplaced := by
  rintro s c x rfl
  refine ⟨fun n h => exec_stageSwap_none fun p hp => .inl (h.resolve_left (by simp [hp])),
    fun n p e hp he hlt => exec_stageSwap_none fun q hq => .inr ?_, fun n p hp hoff hedge => ⟨fun hs => ?_, fun hs => ?_⟩,
    fun hsel => ⟨exec_gchSelftest_none, fun h3 hp hr => ?_, fun p q sn h3 h11 => exec_gchClear_none h3 h11 _ _,
      fun hmd hst _ hrec hlp hln hoff => ⟨fun p q sn h4 h5 => ?_, fun p q sn hc hf => exec_gchClear_failed hsel hmd hst hc hf,
        fun p q sn hc hp hq hsn => ?_⟩⟩, fun p q sn h => exec_selftestDone_none h p q sn, fun p q sn h hp hq hsn => ?_,
    fun p q sn h hst hp hq hsn hs => ?_⟩
  · rw [he]
    exact decide_eq_true hlt
  · have hs' : (Claim.chOf c (elapseTo (swapFrom c s) s)).spare = false := by rw [chOf_elapseTo, hs]
    obtain ⟨hch, h4, hframe⟩ := switchStage_spare p.1 p.2 hs'
    have hnow : (switchStage c p.1 p.2 (elapseTo (swapFrom c s) s)).now = max s.now (swapFrom c s) :=
      (hframe.now_eq (by simp)).trans (elapseTo_now_eq_max _ _)
    rw [chOf_elapseTo] at hch
    rw [exec_stageSwap hp hoff hedge, if_neg (by simp [hs])]
    refine ⟨_, rfl, ?_, ?_, ?_, (elapseTo_only _ _).eventsKept (by simp) _ _ h4, ?_, ?_⟩
    · rw [chOf_elapseTo, hch]
    · rw [chOf_elapseTo, hch]
    · rw [chOf_elapseTo, hch]
    · rw [elapseTo_now_eq_max, hnow]
      exact Nat.max_eq_right (Nat.le_add_right _ _)
    · exact .under (elapseTo_only _ _) (by simp) (.comp ((elapseTo_only _ _).mono (by simp)) (hframe.mono (by simp)))
  · have hs' : (Claim.chOf c (elapseTo (swapFrom c s) s)).spare = true := by rw [chOf_elapseTo, hs]
    rw [exec_stageSwap hp hoff hedge, if_pos hs]
    exact ⟨_, rfl, switchStage_none p.1 p.2 hs'⟩
  · exact ⟨_, exec_gchSelftest hsel h3 hp hr, chOf_modCh_self c _ s, modCh_only _ _ _⟩
  · have hx : railLow (Claim.chOf c s) = false := by rw [railLow, hlp, hln, Bool.or_false]
    exact ⟨_, exec_gchClear_released hsel hmd hst (.inl ⟨h4, h5⟩), latchReset_effect hrec hx hoff⟩
  · have hx : railLow (Claim.chOf c s) = false := by rw [railLow, hlp, hln, Bool.or_false]
    obtain ⟨hch, -⟩ := latchReset_effect hrec hx hoff
    refine ⟨_, exec_gchClear_released hsel hmd hst (.inr ⟨hp, hq, hsn⟩), ?_, ?_⟩
    · rw [hch]
    · rw [hch]
  · exact ⟨_, exec_selftestDone_passed h hp hq hsn, chOf_modCh_self c _ s, modCh_only _ _ _⟩
  · refine ⟨_, exec_selftestDone_primary h hst hs hp hq hsn, ?_, ?_, ?_⟩
    · rw [chOf_modCh_self]
    · rw [chOf_modCh_self, chOf_raise, chOf_modCh_self]
    · exact (modCh_only _ _ _).eventsKept (by simp) _ _ (latched_raise _ _ _ (by omega))

/-- Settles O39: a crossing of the rails is one of four cases of the channel's state, and a stage's test, swap and release are
changes of its own channel alone. -/
theorem gateRailsAndStages : Obligations.GateRailsAndStages := ⟨railsWarnAndBlock, gateStagesAreTestedAndReplaced⟩

end Sys2Proof.Machine
end

section
/-! PROOFS. Turn-on, blanking and the detection paths of a gate channel (O38; R237 to R241, R245; log entries 3 and 72). -/

namespace Sys2Proof.Machine

/-! ### The next turn-on edge (R237, R239, R245) -/

/-- A channel that has taken an edge at a tick, its charge judged or not. -/
def edgeTaken (judged : Bool) (k : ChanCfg) (q : Nat) (e : Nat × Option Nat) (now : Nat) (x : Channel) : Channel :=
  { x with
    onUntil := e.2, onAt := now, edgeAt := e.1, est := 0, estAt := now, blanking := true,
    qg := if judged then BitVec.ofNat 16 (min q 65535) else x.qg,
    ogRun := if !judged then x.ogRun else if chargeBad k q then satInc x.ogRun else 0 }

/-- The state in which a channel has taken an edge. -/
def turnedOn (c : Fin 32) (q : Nat) (e : Nat × Option Nat) (s : State) : State :=
  modCh c (edgeTaken (judges c e s) (chanRec c s) q e (elapseTo e.1 s).now)
    (when ((Claim.chOf c s).state == 6) (setChState c 2) (elapseTo e.1 s))

section
variable {c : Fin 32} {q : Nat} {pv : Int} {e : Nat × Option Nat} {s : State}

/-- Without a due edge nothing turns on. -/
theorem exec_gateTurnOn_none (h : dueEdge c s = none) : exec (.gateTurnOn c q pv) s = .next s := by
  change execGateTurnOn c q pv s = _
  rw [execGateTurnOn, h]

/-- A due edge is taken: an open gate is seen where the run of bad charges is long enough, and the rails follow the charge. -/
theorem exec_gateTurnOn (h : dueEdge c s = some e) : exec (.gateTurnOn c q pv) s =
    .next (railCrossing c pv (Claim.chOf c s).negMv
      (when (judges c e s && decide ((chanRec c s).ogCnt ≤ ((Claim.chOf c (turnedOn c q e s)).ogRun).toNat)) (openGate c)
        (turnedOn c q e s))) := by
  change execGateTurnOn c q pv s = _
  rw [execGateTurnOn, h]
  rfl

/-- An armed channel takes the edge with the gates alone changed. -/
theorem turnedOn_of_armed (h : (Claim.chOf c s).state = 2) : turnedOn c q e s =
    modCh c (edgeTaken (judges c e s) (chanRec c s) q e (elapseTo e.1 s).now) (elapseTo e.1 s) := by
  rw [turnedOn, h]
  rfl

/-- Before its rails are seen an edge changes the gates and the time alone. -/
theorem turnedOn_only : Frame [.gate, .time] s (turnedOn c q e s) :=
  .under (modCh_only _ _ _) (by simp)
    (.comp ((elapseTo_only _ _).mono (by simp)) (.when ((setChState_inactive_only (by decide) _).mono (by simp))))

/-- The time at which an edge is taken. -/
theorem turnedOn_now : (turnedOn c q e s).now = max s.now e.1 := by
  have hf : Frame [.gate] (elapseTo e.1 s) (turnedOn c q e s) :=
    .under (modCh_only _ _ _) (by simp) (.when (setChState_inactive_only (by decide) _))
  exact (hf.now_eq (by simp)).trans (elapseTo_now_eq_max _ s)

/-- The image has the channel's record as before. -/
theorem turnedOn_hasRec (h : hasRec s 0x52 c.val = true) : hasRec (turnedOn c q e s) 0x52 c.val = true :=
  (hasRec_of_key (turnedOn_only .key (by simp)) _ _).trans h

end

/-- Rails above every level. -/
theorem railsSeen_high {pos neg : Int} {x : Channel} (hpos : 16000 ≤ pos) (hneg : neg ≤ -3500) (hp : x.lowPos = false)
    (hn : x.lowNeg = false) (n : Nat) : railsSeen pos neg n x =
      { x with posMv := pos, negMv := neg, warnPos := false, warnNeg := false, boot := false } := by
  simp [railsSeen, hp, hn, show ¬ pos < 14500 by omega, show ¬ pos < 16000 by omega, show ¬ -2500 < neg by omega,
    show ¬ -3500 < neg by omega]

/-- Rails above their block levels. -/
theorem railsSeen_not_low {pos neg : Int} {x : Channel} (hpos : 14500 ≤ pos) (hneg : neg ≤ -3500) (hp : x.lowPos = false)
    (hn : x.lowNeg = false) (n : Nat) : railLow (railsSeen pos neg n x) = false := by
  simp [railLow, railsSeen, hp, hn, show ¬ pos < 14500 by omega, show ¬ -2500 < neg by omega]

/-- Rails above their warning levels warn of nothing. -/
theorem railWarns_high {pos neg : Int} (hpos : 16000 ≤ pos) (hneg : neg ≤ -3500) (x : Channel) :
    railWarns pos neg x = false := by
  rw [railWarns, decide_eq_false (by omega), decide_eq_false (by omega)]
  rfl

/-- The run of bad charges that a record asks for is never empty (R245). -/
theorem ogCnt_pos (c : Fin 32) (s : State) : 0 < (chanRec c s).ogCnt := by
  simp only [chanRec, chanCfg, orDefault]
  split
  · decide
  · exact Nat.pos_of_ne_zero ‹_›

section
variable {c : Fin 32} {q : Nat} {pv : Int} {e : Nat × Option Nat} {s : State} (hdue : dueEdge c s = some e)
  (hrec : hasRec s 0x52 c.val = true) (hlp : (Claim.chOf c s).lowPos = false) (hln : (Claim.chOf c s).lowNeg = false)
  (hneg : (Claim.chOf c s).negMv ≤ -3500)
include hdue

/-- An edge without an open gate: the rails alone follow it. -/
theorem exec_gateTurnOn_closed
    (hog : (judges c e s && decide ((chanRec c s).ogCnt ≤ ((Claim.chOf c (turnedOn c q e s)).ogRun).toNat)) = false) :
    exec (.gateTurnOn c q pv) s = .next (railCrossing c pv (Claim.chOf c s).negMv (turnedOn c q e s)) := by
  rw [exec_gateTurnOn hdue, hog]
  rfl

include hrec hlp hln hneg

/-- An armed channel whose rails stay high takes the edge with the gates and the time alone changed. -/
theorem gateTurnOn_armed (hpv : 16000 ≤ pv) (hst : (Claim.chOf c s).state = 2)
    (hog : (judges c e s && decide ((chanRec c s).ogCnt ≤ ((Claim.chOf c (turnedOn c q e s)).ogRun).toNat)) = false) :
    ∃ t, exec (.gateTurnOn c q pv) s = .next t ∧ t.now = max s.now e.1 ∧
      Claim.chOf c t = { edgeTaken (judges c e s) (chanRec c s) q e (max s.now e.1) (Claim.chOf c s) with
        posMv := pv, warnPos := false, warnNeg := false, boot := false } ∧ Frame [.gate, .time] s t := by
  have hch : Claim.chOf c (turnedOn c q e s) =
      edgeTaken (judges c e s) (chanRec c s) q e (max s.now e.1) (Claim.chOf c s) := by
    rw [turnedOn_of_armed hst, chOf_modCh_self, chOf_elapseTo, elapseTo_now_eq_max]
  have hl : railLow (railsSeen pv (Claim.chOf c s).negMv (turnedOn c q e s).now (Claim.chOf c (turnedOn c q e s))) = false :=
    railsSeen_not_low (by omega) hneg (by rw [hch]; exact hlp) (by rw [hch]; exact hln) _
  have hcross : railCrossing c pv (Claim.chOf c s).negMv (turnedOn c q e s) =
      modCh c (railsSeen pv (Claim.chOf c s).negMv (turnedOn c q e s).now) (turnedOn c q e s) := by
    rw [railCrossing_armed (turnedOn_hasRec hrec) (by rw [hch]; exact hst) hl, railsWarned_quiet (railWarns_high hpv hneg _) hl]
  refine ⟨_, exec_gateTurnOn_closed hdue hog, ?_, ?_, ?_⟩
  · rw [hcross]
    exact turnedOn_now (q := q)
  · rw [hcross, chOf_modCh_self, hch, railsSeen_high hpv hneg (by exact hlp) (by exact hln)]
    rfl
  · rw [hcross]
    exact turnedOn_only.comp ((modCh_only _ _ _).mono (by simp))

/-- A blocked channel whose rails are back is armed by the edge (R237). -/
theorem gateTurnOn_rearmed (hpv : 14500 ≤ pv) (hst : (Claim.chOf c s).state = 6) (hj : judges c e s = false) :
    ∃ t, exec (.gateTurnOn c q pv) s = .next t ∧ (Claim.chOf c t).state = 2 ∧ (Claim.chOf c t).blanking = true ∧
      64 + c.val ∉ t.gate.fg.active := by
  have hon : turnedOn c q e s = modCh c (edgeTaken (judges c e s) (chanRec c s) q e (elapseTo e.1 s).now)
      (setChState c 2 (elapseTo e.1 s)) := by
    rw [turnedOn, hst]
    rfl
  have hcut := chOf_setChState_self c 2 (elapseTo e.1 s)
  rw [chOf_elapseTo] at hcut
  have hch : Claim.chOf c (turnedOn c q e s) = edgeTaken (judges c e s) (chanRec c s) q e (elapseTo e.1 s).now
      (Claim.chOf c (setChState c 2 (elapseTo e.1 s))) := by rw [hon, chOf_modCh_self]
  have hlow : (Claim.chOf c (turnedOn c q e s)).lowPos = false ∧ (Claim.chOf c (turnedOn c q e s)).lowNeg = false := by
    rw [hch]
    exact ⟨(hcut.keeps Channel.lowPos).trans hlp, (hcut.keeps Channel.lowNeg).trans hln⟩
  have hst' : (Claim.chOf c (turnedOn c q e s)).state = 2 := by
    rw [hch]
    exact hcut.keeps Channel.state
  have hl : railLow (railsSeen pv (Claim.chOf c s).negMv (turnedOn c q e s).now (Claim.chOf c (turnedOn c q e s))) = false :=
    railsSeen_not_low hpv hneg hlow.1 hlow.2 _
  refine ⟨_, exec_gateTurnOn_closed hdue (by rw [hj]; rfl), ?_⟩
  rw [railCrossing_armed (turnedOn_hasRec hrec) hst' hl, chOf_railsWarned, railsWarned_fg]
  refine ⟨hst', by rw [hch]; rfl, ?_⟩
  rw [hon]
  exact setChState_inactive (by decide) _

omit hneg
/-- The charge that takes the positive rail below its block level blocks the channel (R237). -/
theorem gateTurnOn_railLow (hpv : pv < 14500) (hst : (Claim.chOf c s).state = 2) (hj : judges c e s = false) :
    ∃ t, exec (.gateTurnOn c q pv) s = .next t ∧ (Claim.chOf c t).state = 6 ∧ (Claim.chOf c t).cause = 6 ∧
      (Claim.chOf c t).lowPos = true ∧ Latched .gch 7 t ∧ 64 + c.val ∈ t.gate.fg.active := by
  have hch : Claim.chOf c (turnedOn c q e s) =
      edgeTaken (judges c e s) (chanRec c s) q e (elapseTo e.1 s).now (Claim.chOf c s) := by
    rw [turnedOn_of_armed hst, chOf_modCh_self, chOf_elapseTo]
  have hx : railLow (Claim.chOf c (turnedOn c q e s)) = false := by
    rw [hch]
    exact (Bool.or_eq_false_iff).mpr ⟨hlp, hln⟩
  have hlow (n : Nat) (y : Channel) : (railsSeen pv (Claim.chOf c s).negMv n y).lowPos = true := by simp [railsSeen, hpv]
  obtain ⟨hst', hcause, hpos, -, h7, -, hact⟩ := railCrossing_blocks_effect (pos := pv) (neg := (Claim.chOf c s).negMv)
    (turnedOn_hasRec hrec) (by rw [hch]; exact hst) hx ((Bool.or_eq_true_iff).mpr (.inl (hlow _ _)))
  exact ⟨_, exec_gateTurnOn_closed hdue (by rw [hj]; rfl), hst', hcause, hpos.trans (hlow _ _), h7, hact⟩

end

/-! ### The soft turn-off (R240) -/

/-- A channel in its soft turn-off, which ends at a tick. -/
def turnedOff (cause : Fin 7) (now softEnd : Nat) (x : Channel) : Channel :=
  { cutChannel now x with state := 3, cause := cause, softEnd := softEnd }

/-- What the start of a soft turn-off leaves: the channel in it, for SOFT_T from at most 120 ns on, its source active, and every
event. -/
theorem softOff_effect (c : Fin 32) (cause : Fin 7) (s : State) : ∃ f : Nat,
    Claim.chOf c (softOff c cause s) =
      turnedOff cause s.now (s.now + f % 49 + (chanRec c s).softT * 2 / 5) (Claim.chOf c s) ∧
    64 + c.val ∈ (softOff c cause s).gate.fg.active ∧ EventsKept s (softOff c cause s) ∧ (softOff c cause s).now = s.now := by
  have hfree := takeFree_only s
  have hs : softOff c cause s = setChState c 3 (modCh c (fun x => { x with
      cause := cause, softEnd := s.now + (takeFree s).1 % 49 + (chanRec c s).softT * 2 / 5 }) (cutGate c (takeFree s).2)) := rfl
  have hnow : (takeFree s).2.now = s.now := hfree.now_eq (by simp)
  have hcut := chOf_setChState_self c 3 (modCh c (fun x => { x with
      cause := cause, softEnd := s.now + (takeFree s).1 % 49 + (chanRec c s).softT * 2 / 5 }) (cutGate c (takeFree s).2))
  rw [chOf_modCh_self, cutGate, chOf_modCh_self, hfree.chOf_eq (by simp), hnow] at hcut
  have hoff : OffAt s.now { cutChannel s.now (Claim.chOf c s) with
      state := 3, cause := cause, softEnd := s.now + (takeFree s).1 % 49 + (chanRec c s).softT * 2 / 5 } :=
    cutChannel_off s.now (Claim.chOf c s)
  refine ⟨(takeFree s).1, ?_, ?_, ?_, ?_⟩
  · rw [hs, cutGate, hnow]
    exact hcut.eq_of_off (hnow.symm ▸ hoff)
  · rw [hs]
    exact setChState_active (by decide) _
  · rw [hs]
    exact ((hfree.eventsKept (by simp)).trans (((cutGate_only _ _).eventsKept (by simp)).trans
      ((modCh_only _ _ _).eventsKept (by simp)))).trans (setChState_eventsKept _ _ _)
  · exact (softOff_only c cause s).now_eq (by simp)

/-- A channel whose gate is found open raises OPEN_GATE (R245). -/
theorem openGate_latched (c : Fin 32) (s : State) : Latched .gch 3 (openGate c s) := by
  obtain ⟨f, -, -, hkept, -⟩ := softOff_effect c 4 (raise .gch 3 s)
  unfold openGate
  dsimp only
  split
  · exact (modCh_only _ _ _).eventsKept (by simp) _ _ (latched_raise _ _ _ (by omega))
  · exact hkept _ _ (latched_raise _ _ _ (by omega))

/-- Rails that are seen clear no event. -/
theorem railCrossing_eventsKept (c : Fin 32) (pos neg : Int) (s : State) : EventsKept s (railCrossing c pos neg s) := by
  by_cases hrec : hasRec s 0x52 c.val = true
  · rw [railCrossing_eq hrec]
    have hwarn : EventsKept s (railsWarned c pos neg s) := railsWarned_eventsKept
    split
    · exact ((hwarn.trans ((cutGate_only _ _).eventsKept (by simp))).trans ((modCh_only _ _ _).eventsKept (by simp))).trans
        (setChState_eventsKept _ _ _)
    · split
      · exact hwarn.trans (setChState_eventsKept _ _ _)
      · exact hwarn
  · rw [railCrossing_of_noRec (by simpa using hrec)]
    exact fun _ _ h => h

/-- The charge that completes the run of bad ones raises OPEN_GATE (R245). -/
theorem gateTurnOn_openGate {c : Fin 32} {q : Nat} {pv : Int} {e : Nat × Option Nat} {s : State} (hdue : dueEdge c s = some e)
    (hst : (Claim.chOf c s).state = 2) (hj : judges c e s = true) (hq : q < (chanRec c s).qgMin)
    (hrun : (chanRec c s).ogCnt ≤ (satInc (Claim.chOf c s).ogRun).toNat) :
    ∃ t, exec (.gateTurnOn c q pv) s = .next t ∧ Latched .gch 3 t := by
  have hbad : chargeBad (chanRec c s) q = true := by
    have hmin : (chanRec c s).qgMin ≠ 0 := by omega
    simp [chargeBad, hmin, hq]
  have hch : (Claim.chOf c (turnedOn c q e s)).ogRun = satInc (Claim.chOf c s).ogRun := by
    rw [turnedOn_of_armed hst, chOf_modCh_self, chOf_elapseTo, edgeTaken, hj, hbad]
    rfl
  refine ⟨_, exec_gateTurnOn hdue, railCrossing_eventsKept _ _ _ _ _ _ ?_⟩
  rw [hj, hch, decide_eq_true hrun]
  exact openGate_latched c _

/-! ### Trips (R240, R241) -/

/-- A trip joins an event that holds its channel, and counts at the channel alone. -/
theorem joinEvent_effect (c : Fin 32) (s : State) :
    (∃ evs, Claim.chOf c (joinEvent c s) = { Claim.chOf c s with events := evs }) ∧
    (∃ e, (joinEvent c s).gate.faults.getLast? = some e ∧ c ∈ e.chans) ∧ (joinEvent c s).gate.fg = s.gate.fg := by
  unfold joinEvent eventOpen
  cases hlast : s.gate.faults.getLast? with
  | none =>
    simp only [Bool.false_eq_true, if_false]
    exact ⟨⟨_, chOf_modCh_self c _ _⟩, ⟨_, List.getLast?_concat .., List.mem_singleton_self c⟩, rfl⟩
  | some e =>
    dsimp only
    split
    · cases hhad : e.chans.contains c with
      | true =>
        exact ⟨⟨_, rfl⟩, ⟨{ e with waitEnd := none }, by simp [hlast], List.contains_iff_mem.mp hhad⟩, rfl⟩
      | false =>
        exact ⟨⟨_, chOf_modCh_self c _ _⟩, ⟨{ e with chans := e.chans ++ [c], waitEnd := none }, by simp [modCh, hlast],
          List.mem_append_right _ (List.mem_singleton_self c)⟩, rfl⟩
    · exact ⟨⟨_, chOf_modCh_self c _ _⟩, ⟨_, List.getLast?_concat .., List.mem_singleton_self c⟩, rfl⟩

/-- What a trip leaves: the channel in its soft turn-off with the trip's cause, counted, in an event of its own or the open one. -/
theorem tripCh_effect (c : Fin 32) (cause : Fin 7) (s : State) : ∃ f : Nat,
    let t := tripCh c cause s
    let y := Claim.chOf c t
    y.state = 3 ∧ y.cause = cause ∧ y.trips = satInc (Claim.chOf c s).trips ∧ OffAt s.now y ∧ y.blanking = false ∧
      y.softEnd = s.now + f % 49 + (chanRec c s).softT * 2 / 5 ∧ Latched .gch 0 t ∧ 64 + c.val ∈ t.gate.fg.active ∧
      (∃ e, t.gate.faults.getLast? = some e ∧ c ∈ e.chans) ∧ t.now = s.now := by
  set counted := modCh c (fun x => { x with
    trips := satInc x.trips, tripA := if cause = 1 then x.tripA else estAmps x.est }) s with hcounted
  have htrip : tripCh c cause s = raise .gch 0 (joinEvent c (softOff c cause counted)) := rfl
  obtain ⟨f, hoff, hact, -, hnow⟩ := softOff_effect c cause counted
  obtain ⟨⟨evs, hjoin⟩, hfault, hfg⟩ := joinEvent_effect c (softOff c cause counted)
  have hgate : (tripCh c cause s).gate = (joinEvent c (softOff c cause counted)).gate :=
    raise_only _ _ _ .gate (by simp)
  have hx : Claim.chOf c counted = { Claim.chOf c s with
      trips := satInc (Claim.chOf c s).trips,
      tripA := if cause = 1 then (Claim.chOf c s).tripA else estAmps (Claim.chOf c s).est } := chOf_modCh_self c _ s
  have hkey : chanRec c counted = chanRec c s := chanRec_of_key (modCh_only c _ s .key (by simp)) c
  have hy : Claim.chOf c (tripCh c cause s) = { turnedOff cause s.now (s.now + f % 49 + (chanRec c s).softT * 2 / 5)
      (Claim.chOf c counted) with events := evs } := by
    rw [htrip, chOf_raise, hjoin, hoff, hkey]
    rfl
  refine ⟨f, ?_⟩
  dsimp only
  rw [hy, hx, hgate, hfg]
  refine ⟨rfl, rfl, rfl, cutChannel_off s.now _, rfl, rfl, latched_raise _ _ _ (by omega), hact, hfault, ?_⟩
  exact ((raise_only _ _ _).now_eq (by simp)).trans (((joinEvent_only _ _).now_eq (by simp)).trans hnow)

/-! ### The sense voltage (R238) -/

section
variable {c : Fin 32} {v : List (Int × Nat)} {mv : Int} {s : State}

/-- The channel with its estimate renewed. -/
theorem chOf_sensed : Claim.chOf c (sensed c v s) =
    { Claim.chOf c s with est := Claim.estAfter c v s, estAt := Claim.senseEnd c v s } := by
  have hx : (elapseTo (Claim.senseEnd c v s) s).gate.ch[c] = Claim.chOf c s := chOf_elapseTo c _ s
  refine (chOf_modCh_self c _ _).trans ?_
  rw [chOf_elapseTo]
  rfl

/-- Time passes with the sense voltage. -/
theorem sensed_now : (sensed c v s).now = max s.now (Claim.senseEnd c v s) := elapseTo_now_eq_max _ s

/-- Neither time nor a change of a channel decides whether its command may be on. -/
theorem cmdAllowed_modCh (f : Channel → Channel) : cmdAllowed c (modCh c f s) = cmdAllowed c s := rfl

theorem cmdAllowed_elapseTo (n : Nat) : cmdAllowed c (elapseTo n s) = cmdAllowed c s := rfl

/-- A trip is taken while the channel is armed and its command is on. -/
theorem takesTrip_of_on (hst : (Claim.chOf c s).state = 2) (hcmd : cmdAllowed c s = true)
    (hon : (Claim.chOf c s).onUntil.all (fun u => decide (s.now < u)) = true) : takesTrip c s = true := by
  have hx : s.gate.ch[c] = Claim.chOf c s := rfl
  rw [takesTrip, gateOn, hx, hst, hcmd, hon]
  rfl

/-- A trip is taken after the sense voltage while the command stays on. -/
theorem takesTrip_sensed (hst : (Claim.chOf c s).state = 2) (hcmd : cmdAllowed c s = true)
    (hon : (Claim.chOf c s).onUntil.all (fun u => decide (max s.now (Claim.senseEnd c v s) < u)) = true) :
    takesTrip c (sensed c v s) = true := by
  refine takesTrip_of_on (by rw [chOf_sensed]; exact hst) hcmd ?_
  rw [chOf_sensed, sensed_now]
  exact hon

end

/-! ### Blanking ends (R239) -/

/-- The state in which blanking has ended. -/
def unblanked (c : Fin 32) (v : List (Int × Nat)) (s : State) : State :=
  modCh c (fun x => { x with blanking := false }) (elapseTo (blankUntil c s) (sensed c v s))

section
variable {c : Fin 32} {v : List (Int × Nat)} {mv : Int} {s : State}

/-- Without blanking nothing ends. -/
theorem exec_blankEnd_none (h : (Claim.chOf c s).blanking = false) : exec (.blankEnd c v) s = .next s :=
  if_pos (by simpa [Claim.chOf] using h)

/-- Blanking that ends trips where the estimate stands above I_SC. -/
theorem exec_blankEnd (h : (Claim.chOf c s).blanking = true) : exec (.blankEnd c v) s =
    if takesTrip c (unblanked c v s) && estAbove c (chanRec c (unblanked c v s)).iSc (unblanked c v s) then
      .next (tripCh c 2 (unblanked c v s)) else .next (unblanked c v s) :=
  if_neg (by simpa [Claim.chOf] using h)

/-- The channel without blanking. -/
theorem chOf_unblanked : Claim.chOf c (unblanked c v s) =
    { Claim.chOf c s with blanking := false, est := Claim.estAfter c v s, estAt := Claim.senseEnd c v s } := by
  rw [unblanked, chOf_modCh_self, chOf_elapseTo, chOf_sensed]

/-- The time at which blanking has ended. -/
theorem unblanked_now : (unblanked c v s).now = max (max s.now (Claim.senseEnd c v s)) (blankUntil c s) := by
  rw [← sensed_now, ← elapseTo_now_eq_max]
  rfl

/-- The end of blanking changes the gates and the time alone. -/
theorem unblanked_only : Frame [.gate, .time] s (unblanked c v s) :=
  .under (modCh_only _ _ _) (by simp) (.under (elapseTo_only _ _) (by simp) ((sensed_only c v s).mono (by simp)))

/-- The settings of the channel stay. -/
theorem chanRec_unblanked : chanRec c (unblanked c v s) = chanRec c s := chanRec_of_key (unblanked_only .key (by simp)) c

/-- An estimate that does not exceed I_SC lets blanking end. -/
theorem exec_blankEnd_quiet (h : (Claim.chOf c s).blanking = true)
    (he : Claim.estAfter c v s ≤ (chanRec c s).iSc * 65536) : exec (.blankEnd c v) s = .next (unblanked c v s) := by
  have hest : estAbove c (chanRec c (unblanked c v s)).iSc (unblanked c v s) = false := by
    rw [chanRec_unblanked]
    exact decide_eq_false (by rw [← Claim.chOf, chOf_unblanked]; exact Int.not_lt.mpr he)
  rw [exec_blankEnd h, hest, Bool.and_false, if_neg Bool.false_ne_true]

/-- An estimate above I_SC trips as blanking ends. -/
theorem exec_blankEnd_trips (h : (Claim.chOf c s).blanking = true) (hst : (Claim.chOf c s).state = 2)
    (hcmd : cmdAllowed c s = true) (he : (chanRec c s).iSc * 65536 < Claim.estAfter c v s)
    (hon : (Claim.chOf c s).onUntil.all
      (fun u => decide (max (max s.now (Claim.senseEnd c v s)) (blankUntil c s) < u)) = true) :
    exec (.blankEnd c v) s = .next (tripCh c 2 (unblanked c v s)) := by
  have htakes : takesTrip c (unblanked c v s) = true := by
    refine takesTrip_of_on (by rw [chOf_unblanked]; exact hst) hcmd ?_
    rw [chOf_unblanked, unblanked_now]
    exact hon
  have hest : estAbove c (chanRec c (unblanked c v s)).iSc (unblanked c v s) = true := by
    rw [chanRec_unblanked]
    exact decide_eq_true (by rw [← Claim.chOf, chOf_unblanked]; exact he)
  rw [exec_blankEnd h, htakes, hest]
  rfl

/-! ### Detection paths (R238, R239) -/

/-- Whether a path trips on what it senses, and with which cause: the comparator and the estimate are masked by blanking. -/
def pathTrip (c : Fin 32) (path : TripPath) (v : List (Int × Nat)) (mv : Int) (s : State) : Bool × Fin 7 :=
  let masked := (Claim.chOf c s).blanking && decide ((sensed c v s).now < blankUntil c s)
  match path with
  | .comparator => (!masked && decide (((chanRec c s).scVth : Int) < mv), 1)
  | .estimate => (!masked && estAbove c (chanRec c s).iSc (sensed c v s), 2)
  | .hard => (estAbove c (chanRec c s).iHard (sensed c v s), 3)

/-- A path at a channel that takes no trip does nothing. -/
theorem exec_scTrip_none (h : takesTrip c s = false) (p : TripPath) : exec (.scTrip c p v mv) s = .next s :=
  if_pos (by simp [h])

/-- A path at a channel that takes a trip. -/
theorem exec_scTrip (h : takesTrip c s = true) (p : TripPath) : exec (.scTrip c p v mv) s =
    if takesTrip c (sensed c v s) && (pathTrip c p v mv s).1 then .next (tripCh c (pathTrip c p v mv s).2 (sensed c v s))
    else .next (sensed c v s) :=
  if_neg (by simp [h])

/-- A path that trips. -/
theorem exec_scTrip_trips (hst : (Claim.chOf c s).state = 2) (hcmd : cmdAllowed c s = true)
    (hon : (Claim.chOf c s).onUntil.all (fun u => decide (max s.now (Claim.senseEnd c v s) < u)) = true) {p : TripPath}
    {cause : Fin 7} (hp : pathTrip c p v mv s = (true, cause)) :
    exec (.scTrip c p v mv) s = .next (tripCh c cause (sensed c v s)) := by
  have hnow : (Claim.chOf c s).onUntil.all (fun u => decide (s.now < u)) = true := by
    cases hu : (Claim.chOf c s).onUntil with
    | none => rfl
    | some u =>
      rw [hu] at hon
      exact decide_eq_true ((Nat.le_max_left _ _).trans_lt (of_decide_eq_true hon))
  rw [exec_scTrip (takesTrip_of_on hst hcmd hnow), takesTrip_sensed hst hcmd hon, hp]
  rfl

/-- A path that is masked. -/
theorem exec_scTrip_masked (h : takesTrip c s = true) {p : TripPath} (hp : (pathTrip c p v mv s).1 = false) :
    exec (.scTrip c p v mv) s = .next (sensed c v s) := by
  rw [exec_scTrip h, hp, Bool.and_false, if_neg Bool.false_ne_true]

/-- Blanking masks nothing once it has ended. -/
theorem not_masked (h : (Claim.chOf c s).blanking = false ∨ blankUntil c s ≤ max s.now (Claim.senseEnd c v s)) :
    ((Claim.chOf c s).blanking && decide ((sensed c v s).now < blankUntil c s)) = false := by
  rcases h with h | h
  · rw [h, Bool.false_and]
  · rw [sensed_now, decide_eq_false (Nat.not_lt.mpr h), Bool.and_false]

/-- The estimate above a limit. -/
theorem estAbove_sensed {n : Nat} (h : (n : Int) * 65536 < Claim.estAfter c v s) : estAbove c n (sensed c v s) = true :=
  decide_eq_true (by rw [← Claim.chOf, chOf_sensed]; exact h)

end

end Sys2Proof.Machine
end

section
/-! PROOFS. A gate channel trips, retries or latches (O38; R240 to R243; log entry 3). -/

namespace Sys2Proof.Machine

/-! ### Trips, as the statement has them -/

section
variable {c : Fin 32} {v : List (Int × Nat)} {mv : Int} {s : State}

/-- What the statement says of a trip at a tick. -/
def TripTaken (c : Fin 32) (cause : Fin 7) (T : Nat) (s t : State) : Prop :=
  (Claim.chOf c t).state = 3 ∧ (Claim.chOf c t).cause = cause ∧ (Claim.chOf c t).trips = satInc (Claim.chOf c s).trips ∧
    (Claim.chOf c t).onUntil.any (fun u => decide (u ≤ t.now)) = true ∧ (Claim.chOf c t).blanking = false ∧
    Latched .gch 0 t ∧ 64 + c.val ∈ t.gate.fg.active ∧ T + (chanRec c s).softT * 2 / 5 ≤ (Claim.chOf c t).softEnd ∧
    (Claim.chOf c t).softEnd ≤ T + 48 + (chanRec c s).softT * 2 / 5 ∧
    (∃ e, t.gate.faults.getLast? = some e ∧ c ∈ e.chans) ∧ t.now = T

/-- A trip in a state reached at a tick with the channel's count and the image as before. -/
theorem tripCh_taken {u : State} {T : Nat} (cause : Fin 7) (hnow : u.now = T)
    (htrips : (Claim.chOf c u).trips = (Claim.chOf c s).trips) (hkey : u.key = s.key) :
    TripTaken c cause T s (tripCh c cause u) := by
  obtain ⟨f, hst, hcause, hcount, hoff, hbl, hsoft, h0, hact, hfault, hnow'⟩ := tripCh_effect c cause u
  rw [hnow, chanRec_of_key hkey c] at hsoft
  rw [htrips] at hcount
  have hf : f % 49 < 49 := Nat.mod_lt _ (by decide)
  refine ⟨hst, hcause, hcount, ?_, hbl, h0, hact, ?_, ?_, hfault, hnow'.trans hnow⟩
  · rw [hnow']
    exact hoff
  · omega
  · omega

/-- Blanking that ends and the three paths trip where they may. -/
theorem path_trips {T : Nat} {cmd : Instr} {cause : Fin 7} (hst : (Claim.chOf c s).state = 2) (hcmd : cmdAllowed c s = true)
    (hon : (Claim.chOf c s).onUntil.all (fun u => decide (T < u)) = true)
    (h : (cmd = .blankEnd c v ∧ cause = 2 ∧ T = max (max s.now (Claim.senseEnd c v s)) (blankUntil c s) ∧
        (Claim.chOf c s).blanking = true ∧ (chanRec c s).iSc * 65536 < Claim.estAfter c v s) ∨
      (T = max s.now (Claim.senseEnd c v s) ∧
        ((cmd = .scTrip c .comparator v mv ∧ cause = 1 ∧ ((Claim.chOf c s).blanking = false ∨ blankUntil c s ≤ T) ∧
            ((chanRec c s).scVth : Int) < mv) ∨
          (cmd = .scTrip c .estimate v mv ∧ cause = 2 ∧ ((Claim.chOf c s).blanking = false ∨ blankUntil c s ≤ T) ∧
            (chanRec c s).iSc * 65536 < Claim.estAfter c v s) ∨
          (cmd = .scTrip c .hard v mv ∧ cause = 3 ∧ (chanRec c s).iHard * 65536 < Claim.estAfter c v s)))) :
    ∃ t, exec cmd s = .next t ∧ TripTaken c cause T s t := by
  have hsensed (cause : Fin 7) : TripTaken c cause (max s.now (Claim.senseEnd c v s)) s (tripCh c cause (sensed c v s)) :=
    tripCh_taken cause sensed_now (by rw [chOf_sensed]) (sensed_only c v s .key (by simp))
  rcases h with ⟨rfl, rfl, rfl, hbl, he⟩ | ⟨rfl, ⟨rfl, rfl, hm, hv⟩ | ⟨rfl, rfl, hm, he⟩ | ⟨rfl, rfl, he⟩⟩
  · exact ⟨_, exec_blankEnd_trips hbl hst hcmd he hon, tripCh_taken 2 unblanked_now (by rw [chOf_unblanked])
      (unblanked_only .key (by simp))⟩
  · refine ⟨_, exec_scTrip_trips hst hcmd hon ?_, hsensed 1⟩
    rw [pathTrip, not_masked hm, decide_eq_true hv]
    rfl
  · refine ⟨_, exec_scTrip_trips hst hcmd hon ?_, hsensed 2⟩
    rw [pathTrip, not_masked hm, estAbove_sensed he]
    rfl
  · refine ⟨_, exec_scTrip_trips hst hcmd hon ?_, hsensed 3⟩
    rw [pathTrip, estAbove_sensed he]

end

/-- Edges, blanking and the detection paths act as R237 to R241 have it. -/
theorem gatesBlankAndTrip : Claim.GatesBlankAndTrip := by
  rintro s c x rfl
  refine ⟨fun q pv h => exec_gateTurnOn_none h, fun q pv e hdue hrec hlp hln hneg => ⟨fun hpv hst hj => ?_,
    fun hpv hst hj => gateTurnOn_rearmed hdue hrec hlp hln hneg hpv hst hj, fun hpv hst hj hq hmin hmax => ?_,
    fun hpv hst hj => gateTurnOn_railLow hdue hrec hlp hln hpv hst hj,
    fun hst hj hq hrun => gateTurnOn_openGate hdue hst hj hq hrun⟩, fun h v => exec_blankEnd_none h,
    fun v hbl he => ⟨_, exec_blankEnd_quiet hbl he, unblanked_now, chOf_unblanked, unblanked_only⟩, ?_,
    fun v mv hst hon hbl hlt => ?_, fun p v mv h => exec_scTrip_none h p⟩
  · obtain ⟨t, hex, hnow, hch, hframe⟩ := gateTurnOn_armed (q := q) hdue hrec hlp hln hneg hpv hst (by rw [hj]; rfl)
    exact ⟨t, hex, hnow, hch.trans (by rw [edgeTaken, hj]; rfl), hframe⟩
  · have hgood : chargeBad (chanRec c s) q = false := by
      simp [chargeBad, show ¬ q < (chanRec c s).qgMin by omega, show ¬ (chanRec c s).qgMax < q by omega]
    have hrun : ((Claim.chOf c (turnedOn c q e s)).ogRun).toNat = 0 := by
      rw [turnedOn_of_armed hst, chOf_modCh_self, chOf_elapseTo, edgeTaken, hj, hgood]
      rfl
    obtain ⟨t, hex, hnow, hch, hframe⟩ := gateTurnOn_armed (q := q) hdue hrec hlp hln hneg hpv hst (by
      rw [hrun, decide_eq_false (Nat.not_le.mpr (ogCnt_pos c s)), Bool.and_false])
    refine ⟨t, hex, hnow, hch.trans ?_, hframe⟩
    rw [edgeTaken, hj, hgood, Nat.min_eq_left (by omega)]
    rfl
  · rintro v mv B T cmd cause rfl hst hcmd hon h
    exact path_trips hst hcmd hon h
  · have htakes : takesTrip c s = true := by
      have hx : s.gate.ch[c] = Claim.chOf c s := rfl
      rw [takesTrip, hon, hx, hst]
      rfl
    have hmasked : ((Claim.chOf c s).blanking && decide ((sensed c v s).now < blankUntil c s)) = true := by
      rw [hbl, sensed_now]
      exact decide_eq_true hlt
    refine ⟨_, exec_scTrip_masked htakes ?_, exec_scTrip_masked htakes ?_, chOf_sensed, (sensed_only c v s).mono (by simp)⟩
    · rw [pathTrip, hmasked]
      rfl
    · rw [pathTrip, hmasked]
      rfl

/-! ### The soft turn-off ends (R240 to R242) -/

/-- The wait of an event starts without a change of the channels or the flag groups. -/
theorem startWait_keeps (c d : Fin 32) (s : State) :
    Claim.chOf d (startWait c s) = Claim.chOf d s ∧ (startWait c s).gate.fg = s.gate.fg := ⟨rfl, rfl⟩

section
variable {c : Fin 32} {s : State}

/-- Outside a soft turn-off none ends. -/
theorem exec_softOffEnd_none (h : (Claim.chOf c s).state ≠ 3) : exec (.softOffEnd c) s = .next s :=
  if_pos (by simpa [Claim.chOf] using h)

/-- The events of the last 60 s when the soft turn-off ends. -/
def eventsAtEnd (c : Fin 32) (s : State) : Nat :=
  ((Claim.chOf c s).events.filter fun t => decide (max s.now (Claim.chOf c s).softEnd < t + 24000000000)).length

/-- They are the recent ones. -/
theorem recentEvents_atEnd : recentEvents (elapseTo (Claim.chOf c s).softEnd s) c = eventsAtEnd c s := by
  have hx : (elapseTo (Claim.chOf c s).softEnd s).gate.ch[c] = Claim.chOf c s := chOf_elapseTo c _ s
  rw [recentEvents, hx, elapseTo_now_eq_max, eventsAtEnd]
  rfl

variable (hst : (Claim.chOf c s).state = 3)
include hst

/-- A soft turn-off that ends within RT_MAX events leads to the retry wait. -/
theorem exec_softOffEnd_waits (hcause : (Claim.chOf c s).cause ≠ 4) (h : eventsAtEnd c s ≤ (chanRec c s).rtMax) :
    exec (.softOffEnd c) s = .next (startWait c (setChState c 4 (elapseTo (Claim.chOf c s).softEnd s))) := by
  have hx : s.gate.ch[c] = Claim.chOf c s := rfl
  change execSoftOffEnd c s = _
  unfold execSoftOffEnd
  dsimp only
  rw [hx, if_neg (by simp [hst]), recentEvents_atEnd, decide_eq_false (Nat.not_lt.mpr h), if_neg (by simp [hcause])]

/-- One that ends after more of them latches the channel. -/
theorem exec_softOffEnd_latches (h : (chanRec c s).rtMax < eventsAtEnd c s) :
    exec (.softOffEnd c) s = .next (startWait c (latchCh c (elapseTo (Claim.chOf c s).softEnd s))) := by
  have hx : s.gate.ch[c] = Claim.chOf c s := rfl
  change execSoftOffEnd c s = _
  unfold execSoftOffEnd
  dsimp only
  rw [hx, if_neg (by simp [hst]), recentEvents_atEnd, decide_eq_true h, if_pos (by simp)]

end

/-- A channel that latches in M4 to M10 leads to M3 with cause 3 (R71). -/
theorem latchCh_trips {c : Fin 32} {s : State} (ha : 64 + c.val ∈ s.gate.fg.active) (hr : inRun s = true)
    (hb : s.mode.busy = false) :
    (latchCh c s).mode.busy = true ∧ (latchCh c s).mode.target = 3 ∧ (latchCh c s).mode.nextCause = 3 := by
  have hmode : (raise .gch 1 (setChState c 5 s)).mode = s.mode := by
    rw [setChState_of_active (by decide) ha]
    exact raise_only .gch 1 _ .mode (by simp)
  have hr' : inRun (raise .gch 1 (setChState c 5 s)) = true := by
    rw [inRun, State.md, hmode]
    exact hr
  rw [latchCh, protectionTrip_begins hr' (hmode ▸ hb)]
  exact ⟨rfl, rfl, rfl⟩

/-! ### Fault events (R241, R243) -/

section
variable {e : FaultEvent} {s : State} (hf : s.gate.faults = [e])
include hf

/-- The only event closes 10 µs after its start. -/
theorem exec_faultEventClose (h : e.closed = false) : exec .faultEventClose s = .next
    (modGate (fun g => { g with faults := [{ e with closed := true }] }) (elapseTo (e.start + us 10) s)) := by
  change execFaultEventClose s = _
  have hg : (elapseTo (e.start + us 10) s).gate.faults = [e] := hf
  rw [execFaultEventClose, hf, List.find?_cons_of_pos (by simp [h])]
  simp only [modGate, hg, List.map_cons, List.map_nil, if_pos]

/-- A closed event closes no more. -/
theorem exec_faultEventClose_none (h : e.closed = true) : exec .faultEventClose s = .next s := by
  change execFaultEventClose s = _
  rw [execFaultEventClose, hf, List.find?_cons_of_neg (by simp [h]), List.find?_nil]

/-- Without a wait none ends. -/
theorem exec_retryWaitEnd_none (h : e.waitEnd = none) : exec .retryWaitEnd s = .next s := by
  have hw : firstWait [e] = none := by simp [firstWait, h]
  change execRetryWaitEnd s = _
  rw [execRetryWaitEnd, hf, hw]

/-- The wait of an event with one channel, which waits with few enough events, re-arms it. -/
theorem exec_retryWaitEnd_rearms {c : Fin 32} {at0 : Nat} (h : e.waitEnd = some at0) (hc : e.chans = [c])
    (hst : (Claim.chOf c s).state = 4)
    (hev : ((Claim.chOf c s).events.filter fun t => decide (max s.now at0 < t + 24000000000)).length ≤ (chanRec c s).rtMax) :
    exec .retryWaitEnd s = .next (modGate (fun g => { g with faults := g.faults.filter (· != e) })
      (raise .gch 2 (passEdges c (setChState c (restState (elapseTo at0 s) c) (elapseTo at0 s))))) := by
  have hw : firstWait [e] = some (e, at0) := by simp [firstWait, h]
  have hx : (elapseTo at0 s).gate.ch[c] = Claim.chOf c s := chOf_elapseTo c _ s
  have hrec : recentEvents (elapseTo at0 s) c ≤ (chanRec c (elapseTo at0 s)).rtMax := by
    rw [recentEvents, hx, elapseTo_now_eq_max]
    exact hev
  change execRetryWaitEnd s = _
  rw [execRetryWaitEnd, hf, hw]
  dsimp only
  rw [hc, foldS, List.foldl_cons, List.foldl_nil, hx, if_neg (by simp [hst]), decide_eq_false (Nat.not_lt.mpr hrec),
    if_neg Bool.false_ne_true]

end

/-- A channel that is armed leaves the fault events. -/
theorem setChState_inactive_faults {c : Fin 32} {st : Fin 7} (h : st.val < 3) (s : State) :
    (setChState c st s).gate.faults = s.gate.faults := by
  have hsettle (t : State) : (settleGates t).gate.faults = t.gate.faults := by
    rw [settleGates]
    refine foldS_keeps (fun t => t.gate.faults) _ _ t fun d u => ?_
    split
    · rfl
    · rfl
  rw [setChState, decide_eq_false (by omega), setSource]
  by_cases ha : 64 + c.val ∈ s.gate.fg.active
  · rw [setSource_clear (by exact ha), hsettle]
    rfl
  · have hc : (modCh c (fun x => { x with state := st }) s).gate.fg.active.contains (64 + c.val) = false := by
      rw [modCh_fg]
      simpa using ha
    rw [setSource_same hc]
    rfl

/-- Soft turn-offs end, events close and waits re-arm as R240 to R243 have it. -/
theorem softTurnOffsRetryOrLatch : Claim.SoftTurnOffsRetryOrLatch := by
  rintro s c x rfl
  refine ⟨exec_softOffEnd_none, ?_, fun e hf => ⟨fun hcl => ?_, exec_faultEventClose_none hf, exec_retryWaitEnd_none hf,
    fun at0 hw hc hst hrec hlp hln hev => ?_⟩⟩
  · rintro hst hcause hact k rfl
    have ha : 64 + c.val ∈ (elapseTo (Claim.chOf c s).softEnd s).gate.fg.active := hact
    refine ⟨fun hk => ?_, fun hk => ?_⟩
    · refine ⟨_, exec_softOffEnd_waits hst hcause hk, ?_⟩
      rw [setChState_of_active (by decide) ha]
      refine ⟨?_, elapseTo_now_eq_max _ s, rfl, rfl, fun d hd => ?_⟩
      · exact congrArg Channel.state (chOf_modCh_self c _ _)
      · exact (chOf_modCh_other hd _ _).trans (chOf_elapseTo d _ s)
    · obtain ⟨hcut, h1, -, -⟩ := latchCh_effect c (elapseTo (Claim.chOf c s).softEnd s)
      refine ⟨_, exec_softOffEnd_latches hst hk, hcut.keeps Channel.state, h1, fun hr hb => ?_⟩
      exact latchCh_trips ha hr hb
  · exact ⟨_, exec_faultEventClose hf hcl, rfl, elapseTo_now_eq_max _ s, rfl,
      .under (modGate_only _ _) (by simp) ((elapseTo_only _ _).mono (by simp))⟩
  · have hrest : restState (elapseTo at0 s) c = 2 := by
      have hx : (elapseTo at0 s).gate.ch[c] = Claim.chOf c s := chOf_elapseTo c _ s
      have hr : hasRec (elapseTo at0 s) 0x52 c.val = true := hrec
      rw [restState, hx, hr, hlp, hln]
      rfl
    have hcut := chOf_setChState_self c 2 (elapseTo at0 s)
    have honly : Frame [.gate] (elapseTo at0 s) (setChState c 2 (elapseTo at0 s)) := setChState_inactive_only (by decide) _
    refine ⟨_, exec_retryWaitEnd_rearms hf hw hc hst hev, ?_⟩
    rw [hrest]
    set t := raise .gch 2 (passEdges c (setChState c 2 (elapseTo at0 s))) with ht
    have hgate : t.gate = (passEdges c (setChState c 2 (elapseTo at0 s))).gate := raise_only _ _ _ .gate (by simp)
    have hframe : Frame [.gate, .events, .board] (elapseTo at0 s) t :=
      .under (raise_only _ _ _) (by simp) (.under (modCh_only _ _ _) (by simp) (honly.mono (by simp)))
    have hfaults : t.gate.faults = [e] := by
      rw [hgate]
      exact (setChState_inactive_faults (by decide) _).trans hf
    refine ⟨?_, ?_, (modGate_only _ _).eventsKept (by simp) _ _ (latched_raise _ _ _ (by omega)), ?_, ?_⟩
    · have hch : Claim.chOf c t = { Claim.chOf c (setChState c 2 (elapseTo at0 s)) with
          edgeAt := max (Claim.chOf c (setChState c 2 (elapseTo at0 s))).edgeAt (setChState c 2 (elapseTo at0 s)).now } := by
        rw [ht, chOf_raise]
        exact chOf_modCh_self c _ _
      exact (congrArg Channel.state hch).trans (hcut.keeps Channel.state)
    · change t.gate.faults.filter (· != e) = []
      rw [hfaults, List.filter_cons_of_neg (by simp), List.filter_nil]
    · exact (hframe.now_eq (by simp)).trans (elapseTo_now_eq_max _ s)
    · change 64 + c.val ∉ t.gate.fg.active
      rw [hgate]
      exact setChState_inactive (by decide) _

/-- Settles O38: an edge, the end of blanking and each detection path are followed to the trip they share, and a soft turn-off to
the wait or the latch. -/
theorem gateChannelsTripAndRetry : Obligations.GateChannelsTripAndRetry := ⟨gatesBlankAndTrip, softTurnOffsRetryOrLatch⟩

end Sys2Proof.Machine
end

section
/-! PROOFS. Lane faults (O40; R252 to R255): a divergence, a failed link and a skewed time base fault the junior lane alone. -/

namespace Sys2Proof.Machine

/-- The causes that fault the junior lane do nothing to the senior one (R254, R255, R258). -/
theorem exec_laneFault_senior {s : State} {l : Lane} {cause : Fin 10} (h5 : 5 ≤ cause.val) (h7 : cause.val ≤ 7)
    (hl : l ≠ juniorLane s) : exec (.laneFault l cause) s = .next s := by
  have hskip : (decide (cause = 0) || (decide (5 ≤ cause.val) && decide (cause.val ≤ 7) && l != juniorLane s)) = true := by
    simp [h5, h7, hl]
  exact congrArg Host.Outcome.next (if_pos hskip)

/-- Two healthy lanes, of which lane A holds the higher claim. -/
def laneASenior : State :=
  { State.reset with
    claim := { State.reset.claim with a := { health := .healthy, claim := 0x40 }, b := { health := .healthy } } }

/-- Refutes O40: the statement lets every cause but 0 and 9 fault either of two healthy lanes, but a divergence (cause 5) faults the
junior lane alone, and leaves lane A of `laneASenior`, the senior one, healthy. -/
theorem not_laneFaultsAndRecovery : ¬ Obligations.LaneFaultsAndRecovery := by
  rintro ⟨hfaults, -⟩
  obtain ⟨-, hhealthy⟩ := hfaults laneASenior .a 5
  obtain ⟨hfault, -⟩ := hhealthy rfl rfl
  obtain ⟨t, hex, -, hhealth, -⟩ := hfault (by decide) (by decide) (by decide)
  have hsame := exec_laneFault_senior (s := laneASenior) (l := .a) (cause := 5) (by decide) (by decide) (by decide)
  obtain rfl := Host.Outcome.next.inj (hsame.symm.trans hex)
  exact absurd hhealth (by decide)

end Sys2Proof.Machine
end

section
/-! PROOFS. Signatures and time bases of two lanes are compared (O41; R252, R254, R255, R262). -/

namespace Sys2Proof.Machine

/-- The claim of the lane that is not faulted stays. -/
theorem faultLane_claim_other (l : Lane) (cause : Nat) (s : State) :
    ((faultLane l cause s).lc (otherLane l)).claim = (s.lc (otherLane l)).claim := by
  unfold faultLane
  extract_lets lc fs park health s1 s2
  split
  · rfl
  · split
    · rw [modLc_lc_other (otherLane_ne l)]
    · have hframe : Frame [.events, .board] s2 (raiseIf park .clm 8 (raise .clm (clmFaultBit l) s2)) :=
        (raise_only _ _ _).comp (raiseIf_only _ _ _ _)
      rw [hframe.lc_eq (by simp), modLc_lc_self, modLc_lc_other (otherLane_ne l)]
      split
      · rfl
      · rfl

/-- A lane is no further than the other's other. -/
theorem otherLane_otherLane (l : Lane) : otherLane (otherLane l) = l := by cases l <;> rfl

/-- What the fault of the junior lane does to the claims of two lanes that stand as in an earlier state: the junior one falls, the
senior one stays. -/
theorem faultJunior_claims {s u : State} (cause : Nat) (hu : ∀ x, (u.lc x).claim = (s.lc x).claim)
    (hh : (u.lc (juniorLane s)).health = .healthy) :
    let t := faultLane (juniorLane s) cause u
    (t.lc (otherLane (seniorLane s))).claim = 0 ∧ (t.lc (otherLane (seniorLane s))).cause = BitVec.ofNat 8 cause ∧
      (t.lc (seniorLane s)).claim = (s.lc (seniorLane s)).claim := by
  obtain ⟨hclaim, hcause, -⟩ := faultLane_effect cause (.inl hh)
  have hother := faultLane_claim_other (juniorLane s) cause u
  rw [juniorLane, otherLane_otherLane, hu] at hother
  exact ⟨hclaim, hcause, hother⟩

/-- What starts the waiting time of R265 anew leaves the claims and the health. -/
theorem notGood_lc (x : Lane) (s : State) :
    ((notGood s).lc x).claim = (s.lc x).claim ∧ ((notGood s).lc x).health = (s.lc x).health := by
  cases x <;> exact ⟨rfl, rfl⟩

/-- It changes the claims alone. -/
theorem notGood_claim_only (s : State) : Frame [.claim] s (notGood s) := (modLc_only _ _ _).comp (modLc_only _ _ _)

/-! ### A signature arrives (R254, R262) -/

/-- The list without what is compared. -/
def signaturesTaken (c : Fin 8) (n : Nat) (x : LaneClaim) : LaneClaim :=
  { x with sigs := x.sigs.filter fun y => !(y.1 == c && decide (y.2.1 ≤ n)) }

section
variable {l : Lane} {c : Fin 8} {n : Nat} {own sig : Word} {s : State} (hsigs : (s.lc l).sigs = [(c, n, own)])
include hsigs

/-- The own signature of the step is found. -/
theorem signatureReceived_eq : signatureReceived l c n sig s =
    match lanes.find? fun k => (s.lc k).health == .matching with
    | some r => if r = l then tryRecover l (modLc l (countMatch c n (decide (own = sig))) (modLc l (signaturesTaken c n) s))
        else modLc l (signaturesTaken c n) s
    | none =>
      if decide (own = sig) || !((s.lc .a).health == .healthy && (s.lc .b).health == .healthy) then
        modLc l (signaturesTaken c n) s
      else faultLane (juniorLane s) 5 (notGood (raise .clm 9 (modLc l (signaturesTaken c n) s))) := by
  have hfind : (s.lc l).sigs.find? (fun x => x.1 == c && x.2.1 == n) = some (c, n, own) := by simp [hsigs]
  unfold signatureReceived
  rw [hfind]
  rfl

/-- It leaves the list empty. -/
theorem signaturesTaken_nil : (signaturesTaken c n (s.lc l)).sigs = [] := by simp [signaturesTaken, hsigs]

/-- Of two healthy lanes equal signatures change the list alone, and a difference faults the junior lane. -/
theorem signatureReceived_healthy (hh : ∀ x, (s.lc x).health = .healthy) : signatureReceived l c n sig s =
    if own = sig then modLc l (signaturesTaken c n) s
    else faultLane (juniorLane s) 5 (notGood (raise .clm 9 (modLc l (signaturesTaken c n) s))) := by
  have hnone : (lanes.find? fun k => (s.lc k).health == .matching) = none := by simp [lanes, hh]
  rw [signatureReceived_eq hsigs, hnone]
  simp [hh]

/-- In the match phase the recovering lane counts what it receives. -/
theorem signatureReceived_matching (hm : (s.lc l).health = .matching) (ho : (s.lc (otherLane l)).health = .healthy) :
    signatureReceived l c n sig s =
      tryRecover l (modLc l (countMatch c n (decide (own = sig))) (modLc l (signaturesTaken c n) s)) := by
  have hsome : (lanes.find? fun k => (s.lc k).health == .matching) = some l := by
    cases l
    · simp [lanes, hm]
    · have ho' : (s.lc .a).health = .healthy := ho
      simp [lanes, hm, ho']
  rw [signatureReceived_eq hsigs, hsome]
  exact if_pos rfl

end

/-! ### The match phase (R262) -/

section
variable {l : Lane} {c : Fin 8} {s : State} (hrec : ∀ d : Fin 8, hasRec s 0x40 d.val = true ↔ d = c)
include hrec

/-- A lane that has matched three steps of its one context recovers. -/
theorem tryRecover_third (hm : (s.lc l).health = .matching) (h : (s.lc l).matched[c] = 3) : tryRecover l s = laneRecovered l s := by
  have hall : (usedCtxs s).all (fun d => (s.lc l).matched[d] == 3) = true := by
    refine List.all_eq_true.mpr fun d hd => ?_
    obtain rfl := (hrec d).mp (List.mem_filter.mp hd).2
    exact beq_iff_eq.mpr h
  exact if_pos ((Bool.and_eq_true _ _).mpr ⟨decide_eq_true hm, hall⟩)

/-- One that has not does not. -/
theorem tryRecover_fewer (h : (s.lc l).matched[c] ≠ 3) : tryRecover l s = s := by
  have hall : (usedCtxs s).all (fun d => (s.lc l).matched[d] == 3) = false := by
    refine Bool.eq_false_iff.mpr fun hall => h ?_
    exact beq_iff_eq.mp (List.all_eq_true.mp hall c (List.mem_filter.mpr ⟨mem_idx c, (hrec c).mpr rfl⟩))
  exact if_neg fun hc => Bool.false_ne_true (hall.symm.trans ((Bool.and_eq_true _ _).mp hc).2)

end

/-- The count of a context and the step that is noted. -/
theorem countMatch_at (c : Fin 8) (n : Nat) (same : Bool) (x : LaneClaim) :
    (countMatch c n same x).matched[c] = (if !same then 0 else if x.matched[c] = 0 || n ≠ x.lastMatch[c] + 1 then 1
      else if x.matched[c].val < 3 then x.matched[c] + 1 else x.matched[c]) ∧
    (countMatch c n same x).lastMatch[c] = n ∧ (countMatch c n same x).health = x.health := by
  refine ⟨?_, ?_, rfl⟩
  · simp [countMatch, upd]
  · simp [countMatch, upd]

section
variable {l : Lane} {c : Fin 8} {n : Nat} {own sig : Word} {s : State} (hsigs : (s.lc l).sigs = [(c, n, own)])
  (hm : (s.lc l).health = .matching) (ho : (s.lc (otherLane l)).health = .healthy)
  (hrec : ∀ d : Fin 8, hasRec s 0x40 d.val = true ↔ d = c)

/-- The state in which a recovering lane has counted a signature. -/
def signatureCounted (l : Lane) (c : Fin 8) (n : Nat) (same : Bool) (s : State) : State :=
  modLc l (countMatch c n same) (modLc l (signaturesTaken c n) s)

/-- The recovering lane has counted. -/
theorem signatureCounted_lc (same : Bool) :
    (signatureCounted l c n same s).lc l = countMatch c n same (signaturesTaken c n (s.lc l)) := by
  rw [signatureCounted, modLc_lc_self, modLc_lc_self]

/-- Counting changes the claims alone. -/
theorem signatureCounted_only (same : Bool) : Frame [.claim] s (signatureCounted l c n same s) :=
  (modLc_only _ _ _).comp (modLc_only _ _ _)

/-- The records stay. -/
theorem signatureCounted_hasRec (same : Bool) (type inst : Nat) :
    hasRec (signatureCounted l c n same s) type inst = hasRec s type inst :=
  hasRec_of_key (signatureCounted_only same .key (by simp)) _ _

include hsigs hm ho hrec

/-- A signature that does not complete the count leaves the lane matching. -/
theorem matching_counts (h : ((signatureCounted l c n (decide (own = sig)) s).lc l).matched[c] ≠ 3) :
    exec (.signatureReceived l c n sig) s = .next (signatureCounted l c n (decide (own = sig)) s) := by
  have hrec' (d : Fin 8) : hasRec (signatureCounted l c n (decide (own = sig)) s) 0x40 d.val = true ↔ d = c := by
    rw [signatureCounted_hasRec, hrec]
  refine congrArg Host.Outcome.next ((signatureReceived_matching hsigs hm ho).trans ?_)
  exact tryRecover_fewer hrec' h

/-- The third equal signature in a row recovers the lane. -/
theorem matching_recovers (h : ((signatureCounted l c n (decide (own = sig)) s).lc l).matched[c] = 3) :
    exec (.signatureReceived l c n sig) s = .next (laneRecovered l (signatureCounted l c n (decide (own = sig)) s)) := by
  have hrec' (d : Fin 8) : hasRec (signatureCounted l c n (decide (own = sig)) s) 0x40 d.val = true ↔ d = c := by
    rw [signatureCounted_hasRec, hrec]
  refine congrArg Host.Outcome.next ((signatureReceived_matching hsigs hm ho).trans ?_)
  have hm' : ((signatureCounted l c n (decide (own = sig)) s).lc l).health = .matching := by
    rw [signatureCounted_lc, (countMatch_at _ _ _ _).2.2]
    exact hm
  exact tryRecover_third hrec' hm' h

end

/-- A lane that recovers claims 0x40 and raises RECOVERED. -/
theorem laneRecovered_effect (l : Lane) (s : State) : ((laneRecovered l s).lc l).claim = 0x40 ∧
    ((laneRecovered l s).lc l).health = .healthy ∧ Latched .clm 7 (laneRecovered l s) := by
  have hlc : (laneRecovered l s).lc l = { s.lc l with
      claim := 0x40, health := .healthy, goodSince := s.now, recoveries := satInc (s.lc l).recoveries, sigs := [] } := by
    rw [laneRecovered, ((raise_only _ _ _).lc_eq (by simp) l), ((modGate_only _ _).lc_eq (by simp) l), modLc_lc_self]
  rw [hlc]
  exact ⟨rfl, rfl, latched_raise _ _ _ (by omega)⟩

/-! ### The time bases (R255) -/

/-- The comparison of two time bases, noted. -/
def skewNoted (err : Int) (s : State) : State :=
  modClaim (fun k => { k with
    skewErr := BitVec.ofInt 16 (clampInt (-32768) 32767 err),
    skewMax := if k.skewMax.toNat < err.natAbs then BitVec.ofNat 16 (min err.natAbs 0xFFFF) else k.skewMax })
    (periodic tkTimebase 512 s)

section
variable {s : State} {err : Int}

/-- It changes the claims and the time alone. -/
theorem skewNoted_only : Frame [.claim, .time] s (skewNoted err s) :=
  .under (modClaim_only _ _) (by simp) ((periodic_only _ _ _).mono (by simp))

/-- No claim changes with it. -/
theorem skewNoted_lc (x : Lane) : (skewNoted err s).lc x = s.lc x := by cases x <;> rfl

/-- The time bases of two healthy lanes are compared. -/
theorem timebaseCompare_healthy (hh : ∀ x, (s.lc x).health = .healthy) : timebaseCompare err s =
    when (decide (32 < err.natAbs)) (faultLane (juniorLane s) 7)
      (when (decide (64 < 10 * err.natAbs)) (fun t => notGood (raise .clm 10 t)) (skewNoted err s)) :=
  if_neg (by simp [hh])

/-- Time bases within 6.4 units are noted alone. -/
theorem timebaseCompare_near (hh : ∀ x, (s.lc x).health = .healthy) (he : err.natAbs ≤ 6) :
    timebaseCompare err s = skewNoted err s := by
  rw [timebaseCompare_healthy hh, decide_eq_false (by omega), decide_eq_false (by omega)]
  rfl

/-- Beyond them TB_SKEW is raised. -/
theorem timebaseCompare_skewed (hh : ∀ x, (s.lc x).health = .healthy) (h7 : 7 ≤ err.natAbs) (h32 : err.natAbs ≤ 32) :
    timebaseCompare err s = notGood (raise .clm 10 (skewNoted err s)) := by
  rw [timebaseCompare_healthy hh, decide_eq_false (by omega), decide_eq_true (by omega)]
  rfl

/-- Beyond 32 units the junior lane is faulted besides. -/
theorem timebaseCompare_far (hh : ∀ x, (s.lc x).health = .healthy) (h32 : 32 < err.natAbs) :
    timebaseCompare err s = faultLane (juniorLane s) 7 (notGood (raise .clm 10 (skewNoted err s))) := by
  rw [timebaseCompare_healthy hh, decide_eq_true h32, decide_eq_true (by omega)]
  rfl

end

/-- A claim and its health where the waiting time of R265 has started anew with an event. -/
theorem notGood_raise_lc (x : Lane) (n : Nat) (s : State) :
    ((notGood (raise .clm n s)).lc x).claim = (s.lc x).claim ∧
      ((notGood (raise .clm n s)).lc x).health = (s.lc x).health := by
  obtain ⟨hclaim, hhealth⟩ := notGood_lc x (raise .clm n s)
  rw [(raise_only _ _ _).lc_eq (by simp)] at hclaim hhealth
  exact ⟨hclaim, hhealth⟩

/-- An event stays latched while the waiting time starts anew. -/
theorem notGood_raise_latched {n : Nat} (hn : n < 32) (s : State) : Latched .clm n (notGood (raise .clm n s)) :=
  (notGood_claim_only _).eventsKept (by simp) _ _ (latched_raise _ _ _ hn)

/-- Signatures and time bases are compared as R254, R255 and R262 have it. -/
theorem divergenceFaultsTheJuniorLane : Claim.DivergenceFaultsTheJuniorLane := by
  intro s l c n own sig hsigs
  have htaken (x : Lane) : ((modLc l (signaturesTaken c n) s).lc x).claim = (s.lc x).claim ∧
      ((modLc l (signaturesTaken c n) s).lc x).health = (s.lc x).health := by
    by_cases hx : x = l
    · subst hx
      rw [modLc_lc_self]
      exact ⟨rfl, rfl⟩
    · rw [modLc_lc_other hx]
      exact ⟨rfl, rfl⟩
  refine ⟨fun hh => ⟨fun he => ?_, fun he => ?_, fun e he => ?_, fun e h7 h32 => ?_, fun e h32 => ?_⟩,
    fun hm ho hrec => ⟨fun h2 hn he => ?_, fun hn he => ?_, fun he => ?_⟩⟩
  · refine ⟨_, congrArg Host.Outcome.next ((signatureReceived_healthy hsigs hh).trans (if_pos he)), ?_, (htaken l).1,
      modLc_only l _ s .events (by simp), modLc_only _ _ _⟩
    rw [modLc_lc_self, signaturesTaken_nil hsigs]
  · have hu (x : Lane) := notGood_raise_lc x 9 (modLc l (signaturesTaken c n) s)
    refine ⟨_, congrArg Host.Outcome.next ((signatureReceived_healthy hsigs hh).trans (if_neg he)),
      faultLane_eventsKept _ _ _ _ _ (notGood_raise_latched (by omega) _), ?_⟩
    exact faultJunior_claims 5 (fun x => (hu x).1.trans (htaken x).1) ((hu _).2.trans ((htaken _).2.trans (hh _)))
  · refine ⟨_, congrArg Host.Outcome.next (timebaseCompare_near hh he), skewNoted_only .events (by simp), ?_, ?_, skewNoted_only⟩
    · have hclamp : clampInt (-32768) 32767 e = e := by
        rw [clampInt]
        omega
      exact congrArg (BitVec.ofInt 16) hclamp
    · rw [skewNoted_lc]
  · refine ⟨_, congrArg Host.Outcome.next (timebaseCompare_skewed hh h7 h32), notGood_raise_latched (by omega) _, fun x => ?_⟩
    rw [(notGood_raise_lc x 10 _).1, skewNoted_lc]
  · have hu (x : Lane) := notGood_raise_lc x 10 (skewNoted e s)
    obtain ⟨hclaim, hcause, -⟩ := faultJunior_claims (s := s) 7 (fun x => (hu x).1.trans (congrArg _ (skewNoted_lc x)))
      ((hu _).2.trans ((congrArg _ (skewNoted_lc _)).trans (hh _)))
    exact ⟨_, congrArg Host.Outcome.next (timebaseCompare_far hh h32),
      faultLane_eventsKept _ _ _ _ _ (notGood_raise_latched (by omega) _), hclaim, hcause⟩
  · have h3 : ((signatureCounted l c n (decide (own = sig)) s).lc l).matched[c] = 3 := by
      rw [signatureCounted_lc, (countMatch_at _ _ _ _).1, decide_eq_true he]
      have h2' : (signaturesTaken c n (s.lc l)).matched[c] = 2 := h2
      have hn' : n = (signaturesTaken c n (s.lc l)).lastMatch[c] + 1 := hn
      rw [h2', ← hn']
      simp
    exact ⟨_, matching_recovers hsigs hm ho hrec h3, laneRecovered_effect _ _⟩
  · have h1 : ((signatureCounted l c n (decide (own = sig)) s).lc l).matched[c] = 1 := by
      rw [signatureCounted_lc, (countMatch_at _ _ _ _).1, decide_eq_true he]
      have hn' : n ≠ (signaturesTaken c n (s.lc l)).lastMatch[c] + 1 := hn
      rw [decide_eq_true hn', Bool.or_true]
      rfl
    refine ⟨_, matching_counts hsigs hm ho hrec (by rw [h1]; decide), h1, ?_, ?_, signatureCounted_only _⟩
    · rw [signatureCounted_lc, (countMatch_at _ _ _ _).2.1]
    · rw [signatureCounted_lc, (countMatch_at _ _ _ _).2.2]
      exact hm
  · have h0 : ((signatureCounted l c n (decide (own = sig)) s).lc l).matched[c] = 0 := by
      rw [signatureCounted_lc, (countMatch_at _ _ _ _).1, decide_eq_false he]
      rfl
    refine ⟨_, matching_counts hsigs hm ho hrec (by rw [h0]; decide), h0, ?_, signatureCounted_only _⟩
    rw [signatureCounted_lc, (countMatch_at _ _ _ _).2.2]
    exact hm

end Sys2Proof.Machine
end

section
/-! PROOFS. The Tsuin link between the lanes (O41; R257, R258): serial lanes that fail, and channels that go down and come back. -/

namespace Sys2Proof.Machine

/-! ### One channel -/

/-- The channel that is changed. -/
theorem tsuOut_modTsu_self (l : Lane) (f : TsuChannel → TsuChannel) (s : State) : tsuOut (modTsu l f s) l = f (tsuOut s l) := by
  cases l <;> rfl

/-- The other channel stays. -/
theorem tsuOut_modTsu_other {l x : Lane} (h : x ≠ l) (f : TsuChannel → TsuChannel) (s : State) :
    tsuOut (modTsu l f s) x = tsuOut s x :=
  match l, x, h with
  | .a, .b, _ => rfl
  | .b, .a, _ => rfl

/-- A change of a channel leaves the claims of the lanes. -/
theorem modTsu_lc (l x : Lane) (f : TsuChannel → TsuChannel) (s : State) : (modTsu l f s).lc x = s.lc x := by
  cases l <;> cases x <;> rfl

/-- A change of a channel leaves which lane is senior. -/
theorem seniorLane_modTsu (l : Lane) (f : TsuChannel → TsuChannel) (s : State) : seniorLane (modTsu l f s) = seniorLane s := by
  cases l <;> rfl

/-- Which lane is senior is a matter of the claims. -/
theorem seniorLane_of_claim {s t : State} (h : t.claim = s.claim) : seniorLane t = seniorLane s := by
  unfold seniorLane forwards
  rw [h]

/-- A channel is part of the claims. -/
theorem tsuOut_of_claim {s t : State} (h : t.claim = s.claim) (l : Lane) : tsuOut t l = tsuOut s l := by
  cases l <;> simp [tsuOut, h]

/-- A lane's claim and fault leave the channels. -/
theorem tsuOut_modLc (l x : Lane) (f : LaneClaim → LaneClaim) (s : State) : tsuOut (modLc l f s) x = tsuOut s x := by
  cases l <;> cases x <;> rfl

theorem tsuOut_faultLane (l x : Lane) (cause : Nat) (s : State) : tsuOut (faultLane l cause s) x = tsuOut s x := by
  unfold faultLane
  extract_lets lc fs park health s1 s2
  split
  · rfl
  · split
    · exact tsuOut_modLc _ _ _ _
    · have hframe : Frame [.events, .board] s2 (raiseIf park .clm 8 (raise .clm (clmFaultBit l) s2)) :=
        (raise_only _ _ _).comp (raiseIf_only _ _ _ _)
      rw [tsuOut_of_claim (hframe .claim (by simp)), tsuOut_modLc, tsuOut_modLc]

/-! ### A serial lane fails (R258) -/

/-- The state in which a serial lane of a channel is out. -/
def serialLost (l : Lane) (k : Nat) (s : State) : State := modTsu l (fun t => { t with good := putBit t.good k false }) s

/-- The spare that takes over for the serial lane, or the note that there is none. -/
def serialSwapped (l : Lane) (k : Nat) (lost : Bool) (n : Nat) (s : State) : State :=
  if decide (k < 4) && !(tsuOut s l).spareUsed && bit (tsuOut s l).good 4 then
    raise .clm 11 (hingeSwap 8 2 (k + 5 * laneNum l) (laneNum l) (if lost then 1 else 2) n
      (modTsu l (fun t => { t with spareUsed := true }) (serialLost l k s)))
  else if k < 4 || (tsuOut s l).spareUsed then
    noSpare 8 2 (k + 5 * laneNum l) (if lost then 1 else 2) n (serialLost l k s)
  else serialLost l k s

section
variable {toB lost : Bool} {k : Fin 5} {n : Nat} {s : State}

/-- A serial lane that is out, or has neither lost lock nor enough errors, fails no more. -/
theorem exec_tsuinSwap_none (h : (lost = false ∧ n < 16) ∨ bit (tsuOut s (tsuFrom toB)).good k.val = false) :
    exec (.tsuinSwap toB k lost n) s = .next s := by
  refine congrArg Host.Outcome.next (if_pos ?_)
  rcases h with ⟨hl, hn⟩ | hg
  · simp [hl, Nat.not_le.mpr hn]
  · simp [hg]

/-- One that works and fails. -/
theorem exec_tsuinSwap (h : lost = true ∨ 16 ≤ n) (hg : bit (tsuOut s (tsuFrom toB)).good k.val = true) :
    exec (.tsuinSwap toB k lost n) s =
      .next (when (decide (tsuGood (tsuOut (serialSwapped (tsuFrom toB) k.val lost n s) (tsuFrom toB)) < 4))
        (tsuDown (tsuFrom toB)) (serialSwapped (tsuFrom toB) k.val lost n s)) := by
  refine congrArg Host.Outcome.next (if_neg ?_)
  rcases h with hl | hn
  · simp [hl, hg]
  · simp [hn, hg]

end

/-- Of five serial lanes four are left, and of the first four three. -/
theorem tsuGood_lost : ∀ k : Fin 5, k.val < 4 →
    ((List.range 5).filter fun j => bit (putBit (0x1F#5) k.val false) j).length = 4 ∧
      ((List.range 5).filter fun j => bit (putBit (0x0F#5) k.val false) j).length = 3 ∧
      bit (0x1F#5) k.val = true ∧ bit (0x0F#5) k.val = true := by decide

section
variable {l : Lane} {k : Fin 5} {lost : Bool} {n : Nat} {s : State}

/-- The channel with the spare in the place of the serial lane. -/
theorem serialSwapped_spare (hk : k.val < 4) (hg : (tsuOut s l).good = 0x1F) (hs : (tsuOut s l).spareUsed = false) :
    tsuOut (serialSwapped l k.val lost n s) l =
        { tsuOut s l with good := putBit (tsuOut s l).good k.val false, spareUsed := true } ∧
      Latched .clm 11 (serialSwapped l k.val lost n s) ∧
      Frame [.claim, .wear, .events, .board] s (serialSwapped l k.val lost n s) := by
  have htakes : (decide (k.val < 4) && !(tsuOut s l).spareUsed && bit (tsuOut s l).good 4) = true := by
    rw [decide_eq_true hk, hs, hg]
    rfl
  rw [serialSwapped, htakes, if_pos rfl]
  have hafter : Frame [.wear, .events, .board] (modTsu l (fun t => { t with spareUsed := true }) (serialLost l k.val s))
      (raise .clm 11 (hingeSwap 8 2 (k.val + 5 * laneNum l) (laneNum l) (if lost then 1 else 2) n
        (modTsu l (fun t => { t with spareUsed := true }) (serialLost l k.val s)))) :=
    .under (raise_only _ _ _) (by simp) (hingeSwap_only _ _ _ _ _ _ _)
  refine ⟨?_, latched_raise _ _ _ (by omega), .comp (.under (modTsu_only _ _ _) (by simp)
    ((modTsu_only _ _ _).mono (by simp))) (hafter.mono (by simp))⟩
  rw [tsuOut_of_claim (hafter .claim (by simp)), tsuOut_modTsu_self, serialLost, tsuOut_modTsu_self]

/-- A channel whose spare is out loses the serial lane without a change of the claims besides. -/
theorem serialSwapped_none (hk : k.val < 4) (hg : (tsuOut s l).good = 0x0F) :
    serialSwapped l k.val lost n s = noSpare 8 2 (k.val + 5 * laneNum l) (if lost then 1 else 2) n (serialLost l k.val s) := by
  have htakes : (decide (k.val < 4) && !(tsuOut s l).spareUsed && bit (tsuOut s l).good 4) = false := by
    rw [hg]
    exact Bool.and_false _
  rw [serialSwapped, htakes, if_neg Bool.false_ne_true, if_pos (by simp [hk])]

end

/-- A channel that goes down loses what it carried, and the junior lane is faulted with cause 6 (R257, R258). -/
theorem tsuDown_effect {l : Lane} {s : State} (hup : (tsuOut s l).up = true) (hh : ∀ x, (s.lc x).health = .healthy) :
    (tsuOut (tsuDown l s) l).up = false ∧ (tsuOut (tsuDown l s) l).queue = [] ∧ Latched .clm 12 (tsuDown l s) ∧
      ((tsuDown l s).lc (otherLane (seniorLane s))).claim = 0 ∧
      ((tsuDown l s).lc (otherLane (seniorLane s))).cause = 6 := by
  have hdown : tsuDown l s = faultLane (juniorLane s) 6 (raise .clm 12
      (modTsu (otherLane l) (fun t => { t with queue := [] }) (modTsu l (fun t => { t with up := false, queue := [] }) s))) :=
    if_neg (by simp [hup])
  rw [hdown]
  have hlc (x : Lane) : (raise .clm 12 (modTsu (otherLane l) (fun t => { t with queue := [] })
      (modTsu l (fun t => { t with up := false, queue := [] }) s))).lc x = s.lc x := by
    rw [(raise_only _ _ _).lc_eq (by simp), modTsu_lc, modTsu_lc]
  obtain ⟨hclaim, hcause, -⟩ := faultJunior_claims (s := s) 6 (fun x => congrArg _ (hlc x))
    ((congrArg _ (hlc _)).trans (hh _))
  have hch : tsuOut (faultLane (juniorLane s) 6 (raise .clm 12 (modTsu (otherLane l) (fun t => { t with queue := [] })
      (modTsu l (fun t => { t with up := false, queue := [] }) s)))) l = { tsuOut s l with up := false, queue := [] } := by
    rw [tsuOut_faultLane, tsuOut_of_claim (raise_only _ _ _ .claim (by simp)), tsuOut_modTsu_other (otherLane_ne l).symm,
      tsuOut_modTsu_self]
  rw [hch]
  exact ⟨rfl, rfl, faultLane_eventsKept _ _ _ _ _ (latched_raise _ _ _ (by omega)), hclaim, hcause⟩

/-! ### Retraining (R258) -/

/-- A channel that is retrained: up with four working serial lanes. -/
def retrained (c : TsuChannel) : TsuChannel := { c with up := c.up || decide (4 ≤ tsuGood c) }

/-- Without locked clocks at both ends nothing retrains. -/
theorem exec_tsuinRetrained_none {s : State} (h : tsuOnRing s = true ∨ laneLocked s .a = false ∨ laneLocked s .b = false) :
    exec .tsuinRetrained s = .next s := by
  refine congrArg Host.Outcome.next (if_pos ?_)
  rcases h with h | h | h <;> simp [h]

/-- With them both channels do. -/
theorem exec_tsuinRetrained {s : State} (hr : tsuOnRing s = false) (h : ∀ x, laneLocked s x = true ∧ laneUp x s = true) :
    exec .tsuinRetrained s = .next (modTsu .b retrained (modTsu .a retrained s)) :=
  congrArg Host.Outcome.next (if_neg (by simp [hr, h]))

/-- The Tsuin link fails and comes back as R257 and R258 have it. -/
theorem tsuinLanesSwapAndRetrain : Claim.TsuinLanesSwapAndRetrain := by
  intro s toB k ch hch
  obtain rfl : ch = tsuFrom toB := hch
  refine ⟨fun hg b n => exec_tsuinSwap_none (.inr hg), fun n hn => exec_tsuinSwap_none (.inl ⟨rfl, hn⟩),
    fun lost n hlost hg hk hs => ?_, fun n hk hg hup hh => ?_, exec_tsuinRetrained_none, fun hr h hg => ?_⟩
  · obtain ⟨h4, -, hbit, -⟩ := tsuGood_lost k hk
    obtain ⟨hout, h11, hframe⟩ := serialSwapped_spare (lost := lost) (n := n) hk hg hs
    have hgood : tsuGood (tsuOut (serialSwapped (tsuFrom toB) k.val lost n s) (tsuFrom toB)) = 4 := by
      rw [hout, hg]
      exact h4
    refine ⟨_, exec_tsuinSwap hlost (by rw [hg]; exact hbit), ?_⟩
    have hstay (u : State) : when (decide (4 < 4)) (tsuDown (tsuFrom toB)) u = u := rfl
    rw [hgood, hstay, hout]
    exact ⟨(bit_putBit _ _ _ _ k.isLt).trans (if_pos rfl), rfl, rfl, rfl, h11, hframe⟩
  · obtain ⟨-, h3, -, hbit⟩ := tsuGood_lost k hk
    have hswap := serialSwapped_none (lost := true) (n := n) hk hg
    have hnone := noSpare_only 8 2 (k.val + 5 * laneNum (tsuFrom toB)) (if true then 1 else 2) n
      (serialLost (tsuFrom toB) k.val s)
    have hclaim : (serialSwapped (tsuFrom toB) k.val true n s).claim = (serialLost (tsuFrom toB) k.val s).claim := by
      rw [hswap]
      exact hnone .claim (by simp)
    have hout : tsuOut (serialSwapped (tsuFrom toB) k.val true n s) (tsuFrom toB) =
        { tsuOut s (tsuFrom toB) with good := putBit (tsuOut s (tsuFrom toB)).good k.val false } := by
      rw [tsuOut_of_claim hclaim, serialLost, tsuOut_modTsu_self]
    have hlc (x : Lane) : (serialSwapped (tsuFrom toB) k.val true n s).lc x = s.lc x := by
      rw [← modTsu_lc (tsuFrom toB) x (fun t => { t with good := putBit t.good k.val false }) s]
      cases x <;> simp only [State.lc, hclaim] <;> rfl
    have hsenior : seniorLane (serialSwapped (tsuFrom toB) k.val true n s) = seniorLane s := by
      rw [seniorLane_of_claim hclaim, serialLost, seniorLane_modTsu]
    have hgood : tsuGood (tsuOut (serialSwapped (tsuFrom toB) k.val true n s) (tsuFrom toB)) = 3 := by
      rw [hout, hg]
      exact h3
    obtain ⟨hdown, hqueue, h12, hcl, hcause⟩ := tsuDown_effect (l := tsuFrom toB)
      (s := serialSwapped (tsuFrom toB) k.val true n s) (by rw [hout]; exact hup) (fun x => (congrArg _ (hlc x)).trans (hh x))
    refine ⟨_, exec_tsuinSwap (.inl rfl) (by rw [hg]; exact hbit), ?_⟩
    rw [hgood]
    rw [hsenior] at hcl hcause
    exact ⟨hdown, hqueue, h12, hcl, hcause⟩
  · have hret (l : Lane) : tsuOut (modTsu .b retrained (modTsu .a retrained s)) l = retrained (tsuOut s l) := by
      cases l <;> rfl
    refine ⟨_, exec_tsuinRetrained hr h, ?_, ?_, (modTsu_only _ _ _).comp (modTsu_only _ _ _)⟩
    · have h4 : tsuGood (tsuOut s (tsuFrom toB)) = 4 := by
        rw [tsuGood, hg]
        decide
      rw [hret, retrained, h4]
      exact Bool.or_true _
    · rw [hret, retrained]

/-- Settles O41: two healthy lanes differ in their signatures or time bases and the junior one is faulted, or in the match phase
the count goes on; a channel of the link is followed through its serial lanes. -/
theorem divergenceAndTsuinFaults : Obligations.DivergenceAndTsuinFaults :=
  ⟨divergenceFaultsTheJuniorLane, tsuinLanesSwapAndRetrain⟩

end Sys2Proof.Machine
end

section
/-! PROOFS. Ethernet ports (O44; R268, R269, R274, R275; log entries 3 and 39): links that come up and fail, and the frames that
leave each port with a link. -/

namespace Sys2Proof.Machine

/-! ### One port -/

section
variable (p : Fin 2) (s : State)

/-- The port that is changed. -/
theorem portOf_modPort_self (f : NetPort → NetPort) : Claim.portOf p (modPort p f s) = f (Claim.portOf p s) :=
  modAt_getElem_self _ _ _

/-- The other port stays. -/
theorem portOf_modPort_other {q : Fin 2} (h : q ≠ p) (f : NetPort → NetPort) :
    Claim.portOf q (modPort p f s) = Claim.portOf q s := modAt_getElem_other _ _ _ _ h

/-- A counter of the port. -/
theorem portOf_countNet_self (i : Nat) : Claim.portOf p (countNet p i s) =
    { Claim.portOf p s with cnt := put' (Claim.portOf p s).cnt i (satInc (at' (Claim.portOf p s).cnt i 0)) } :=
  portOf_modPort_self p s _

/-- A counter of one port leaves the links. -/
theorem linkUp_countNet (q : Fin 2) (i : Nat) : linkUp q (countNet p i s) = linkUp q s := by
  have hx (t : State) : linkUp q t = ((Claim.portOf q t).link && !t.net.stopped) := rfl
  rw [hx, hx]
  by_cases hq : q = p
  · subst hq
    rw [portOf_countNet_self]
    rfl
  · rw [countNet, portOf_modPort_other _ _ hq]
    rfl

/-- What a port says of its link. -/
theorem linkUp_eq : linkUp p s = ((Claim.portOf p s).link && !s.net.stopped) := rfl

/-- The links are part of the network state. -/
theorem linkUp_of_net {t : State} (h : t.net = s.net) : linkUp p t = linkUp p s := by
  unfold linkUp
  rw [h]

/-- A frame that leaves a port with a link joins the outbox, and the port counts it. -/
theorem sendPort_of_link (h : linkUp p s = true) (kind dst : Nat) (q : Option Half) (bs : List Byte) :
    sendPort p kind dst q bs s = countNet p 1 (send (.eth p.val kind dst q (vlanTag p kind s) bs) s) := if_pos h

/-- A record's tag is that of the running image. -/
theorem vlanTag_of_key {t : State} (h : t.key = s.key) (kind : Nat) : vlanTag p kind t = vlanTag p kind s := by
  rw [vlanTag, vlanTag, recD_of_key h]

/-- Frames other than PTP and the pennant protocol carry no tag. -/
theorem vlanTag_none {kind : Nat} (h3 : kind ≠ 3) (h4 : kind ≠ 4) : vlanTag p kind s = none :=
  if_neg (by simp [h3, h4])

end

/-! ### Links (R268, R269) -/

section
variable {p : Fin 2} {s : State}

/-- A port that is not in use takes no link. -/
theorem exec_linkChange_unused (h : portUsed p s = false) (up : Bool) (sp : Fin 3) : exec (.linkChange p up sp) s = .next s :=
  congrArg Host.Outcome.next (if_pos (by simp [h]))

/-- A link that fails, or comes up at a speed that is not offered, goes down. -/
theorem exec_linkChange_drops (hu : portUsed p s = true) (hs : s.net.stopped = false) {up : Bool} {sp : Fin 3}
    (h : up = false ∨ speedOffered p sp s = false) : exec (.linkChange p up sp) s = .next (dropLink p s) := by
  refine congrArg Host.Outcome.next ((if_neg (by simp [hu, hs])).trans (if_pos ?_))
  rcases h with h | h <;> simp [h]

/-- A link comes up at an offered speed that neither HSR nor the other port forbids. -/
theorem exec_linkChange_up (hu : portUsed p s = true) (hs : s.net.stopped = false) {sp : Fin 3}
    (ho : speedOffered p sp s = true) (h2 : s.net.mode = 2 → sp = 2)
    (hother : s.net.mode = 0 ∨ (Claim.portOf (otherPort p) s).link = false ∨ (Claim.portOf (otherPort p) s).speed = sp) :
    exec (.linkChange p true sp) s = .next (modPort p (fun x => { x with link := true, speed := sp }) s) := by
  have hhsr : (s.net.mode == 2 && sp != 2) = false := by
    by_cases hm : s.net.mode = 2
    · simp [h2 hm]
    · simp [hm]
  have hspeed : (s.net.mode != 0 && s.net.port[otherPort p].link && s.net.port[otherPort p].speed != sp) = false := by
    have hx : s.net.port[otherPort p] = Claim.portOf (otherPort p) s := rfl
    rw [hx]
    rcases hother with h | h | h <;> simp [h]
  refine congrArg Host.Outcome.next ((if_neg (by simp [hu, hs])).trans ((if_neg (by simp [ho])).trans (if_neg ?_)))
  rw [hhsr, hspeed]
  exact Bool.false_ne_true

/-- HSR runs at 1000 Mbit/s alone (R269). -/
theorem exec_linkChange_hsr (hu : portUsed p s = true) (hs : s.net.stopped = false) (hm : s.net.mode = 2)
    (ho : speedOffered p 1 s = true) : exec (.linkChange p true 1) s =
      .next (raise .net 0 (modPort p (fun x => { x with link := false, speed := 0 }) (forgetHeard s))) :=
  congrArg Host.Outcome.next
    ((if_neg (by simp [hu, hs])).trans ((if_neg (by simp [ho])).trans (if_pos (by simp [hm]))))

/-- A link that goes down is down, and raises LINK_DOWN where it was up. -/
theorem dropLink_effect (h : (Claim.portOf p s).link = true) : (Claim.portOf p (dropLink p s)).link = false ∧
    Latched .net 0 (dropLink p s) := by
  have hx : s.net.port[p] = Claim.portOf p s := rfl
  have hd : dropLink p s = raise .net 0 (modPort p (fun x => { x with link := false, speed := 0 }) (forgetHeard s)) := by
    rw [dropLink, hx, h]
    rfl
  rw [hd]
  refine ⟨?_, latched_raise _ _ _ (by omega)⟩
  have hnet := raise_only .net 0 (modPort p (fun x => { x with link := false, speed := 0 }) (forgetHeard s)) .net (by simp)
  have hp : Claim.portOf p (raise .net 0 (modPort p (fun x => { x with link := false, speed := 0 }) (forgetHeard s))) =
      Claim.portOf p (modPort p (fun x => { x with link := false, speed := 0 }) (forgetHeard s)) :=
    congrArg (fun n : NetState => n.port[p]) hnet
  rw [hp, portOf_modPort_self]

end

/-! ### Frames sent (R269, R274) -/

section
variable {s : State}

/-- With redundancy a frame leaves both ports with one sequence number. -/
theorem sendNet_redundant (hm : s.net.mode ≠ 0) (hl : ∀ q, linkUp q s = true) {kind : Nat} (h3 : kind ≠ 3) (h4 : kind ≠ 4)
    (dst : Nat) (bs : List Byte) : (sendNet kind dst bs s).outbox = s.outbox ++
      [.eth 0 kind dst (some s.net.txSeq) none bs, .eth 1 kind dst (some s.net.txSeq) none bs] ∧
      (sendNet kind dst bs s).net.txSeq = s.net.txSeq + 1 := by
  have h0 := sendPort_of_link 0 s (hl 0) kind dst (some s.net.txSeq) bs
  have hl1 : linkUp 1 (sendPort 0 kind dst (some s.net.txSeq) bs s) = true := by
    rw [h0, linkUp_countNet]
    exact hl 1
  have h1 := sendPort_of_link 1 (sendPort 0 kind dst (some s.net.txSeq) bs s) hl1 kind dst (some s.net.txSeq) bs
  have hsend : sendNet kind dst bs s = modNet (fun n => { n with txSeq := n.txSeq + 1 })
      (sendPort 1 kind dst (some s.net.txSeq) bs (sendPort 0 kind dst (some s.net.txSeq) bs s)) := if_neg hm
  rw [hsend, h1, h0, vlanTag_none _ _ h3 h4, vlanTag_none _ _ h3 h4]
  refine ⟨?_, rfl⟩
  exact List.append_assoc s.outbox [_] [_]

/-- Without redundancy a frame leaves port 0. -/
theorem sendNet_single (hm : s.net.mode = 0) (hl : linkUp 0 s = true) (kind dst : Nat) (bs : List Byte) :
    sendNet kind dst bs s = countNet 0 1 (send (.eth 0 kind dst none (vlanTag 0 kind s) bs) s) :=
  (if_pos hm).trans (sendPort_of_link 0 s hl kind dst none bs)

end

/-- With redundancy a supervision frame leaves both ports every 2 s (R269). -/
theorem supervisionTx_redundant {s : State} (hon : s.net.on = true) (hs : s.net.stopped = false) (hm : s.net.mode ≠ 0)
    (hl : ∀ q : Fin 2, (Claim.portOf q s).link = true) : ∃ t, exec .supervisionTx s = .next t ∧
      t.outbox = s.outbox ++ [.eth 0 5 0x01154E000100 (some s.net.txSeq) none (beBytes 6 s.net.mac.toNat),
        .eth 1 5 0x01154E000100 (some s.net.txSeq) none (beBytes 6 s.net.mac.toNat)] ∧
      t.net.txSeq = s.net.txSeq + 1 ∧ s.now ≤ t.now ∧ Frame [.net, .outbox, .time] s t := by
  have hex : exec .supervisionTx s =
      .next (sendNet 5 0x01154E000100 (beBytes 6 s.net.mac.toNat) (periodic tkSuper (secs 2) s)) :=
    congrArg Host.Outcome.next (if_pos (by simp [hon, hm, hs]))
  have hnet : (periodic tkSuper (secs 2) s).net = s.net := periodic_only tkSuper (secs 2) s .net (by simp)
  have hl' (q : Fin 2) : linkUp q (periodic tkSuper (secs 2) s) = true := by
    rw [linkUp_of_net q s hnet, linkUp_eq, hl q, hs]
    rfl
  obtain ⟨hout, hseq⟩ := sendNet_redundant (s := periodic tkSuper (secs 2) s) (by rw [hnet]; exact hm) hl' (kind := 5) (by decide) (by decide)
    0x01154E000100 (beBytes 6 s.net.mac.toNat)
  have hob : (periodic tkSuper (secs 2) s).outbox = s.outbox := periodic_only tkSuper (secs 2) s .outbox (by simp)
  rw [hnet] at hout hseq
  rw [hob] at hout
  refine ⟨_, hex, hout, hseq, ?_, .under (sendNet_only _ _ _ _) (by simp) ((periodic_only _ _ _).mono (by simp))⟩
  rw [(sendNet_only _ _ _ _).now_eq (by simp)]
  exact now_le_periodic _ _ _

/-- A Pdelay_Req leaves a port, and its number goes on. -/
def pdelaySent (p : Fin 2) (s : State) : State :=
  modPort p (fun x => { x with pdelaySeq := x.pdelaySeq + 1 })
    (sendPort p 4 0x0180C200000E none (beBytes 2 (Claim.portOf p s).pdelaySeq.toNat) s)

/-- A port in use with a link sends its Pdelay_Req. -/
def pdelayStep (p : Fin 2) (s : State) : State :=
  if portUsed p s && linkUp p s then pdelaySent p s else s

/-- Without redundancy port 0 alone sends one. -/
theorem foldS_pdelayStep_single {u : State} (hon : u.net.on = true) (hm : u.net.mode = 0) (hl : linkUp 0 u = true) :
    foldS (idx 2) pdelayStep u = pdelaySent 0 u := by
  have hused0 : portUsed 0 u = true := by
    rw [portUsed, hon]
    rfl
  have hsent : (pdelaySent 0 u).net.mode = 0 := by
    rw [pdelaySent, sendPort_of_link _ _ hl]
    exact hm
  have hused1 : portUsed 1 (pdelaySent 0 u) = false := by
    rw [portUsed, hsent]
    exact Bool.and_false _
  have h0 : pdelayStep 0 u = pdelaySent 0 u := if_pos (by simp [hused0, hl])
  have h1 : pdelayStep 1 (pdelaySent 0 u) = pdelaySent 0 u := if_neg (by simp [hused1])
  calc foldS (idx 2) pdelayStep u = pdelayStep 1 (pdelayStep 0 u) := rfl
    _ = pdelaySent 0 u := by rw [h0, h1]

/-- Without redundancy Pdelay_Req leaves port 0 alone (R274). -/
theorem exec_pdelayTx_single {s : State} (hon : s.net.on = true) (hs : s.net.stopped = false) (hm : s.net.mode = 0)
    (hl : linkUp 0 (periodic tkPdelay (secs 1) s) = true) :
    exec .pdelayTx s = .next (pdelaySent 0 (periodic tkPdelay (secs 1) s)) := by
  have hnet : (periodic tkPdelay (secs 1) s).net = s.net := periodic_only tkPdelay (secs 1) s .net (by simp)
  refine congrArg Host.Outcome.next ((if_neg (by simp [hon, hs])).trans ?_)
  exact foldS_pdelayStep_single (by rw [hnet, hon]) (by rw [hnet, hm]) hl

/-- The request that leaves port 0 carries its number (R274). -/
theorem pdelaySent_effect {u : State} (hl : linkUp 0 u = true) :
    (pdelaySent 0 u).outbox = u.outbox ++ [.eth 0 4 0x0180C200000E none (vlanTag 0 4 u)
      (beBytes 2 (Claim.portOf 0 u).pdelaySeq.toNat)] ∧
    (Claim.portOf 0 (pdelaySent 0 u)).pdelaySeq = (Claim.portOf 0 u).pdelaySeq + 1 := by
  rw [pdelaySent, sendPort_of_link _ _ hl]
  refine ⟨rfl, ?_⟩
  rw [portOf_modPort_self, portOf_countNet_self]
  rfl

/-- What a Pdelay_Req changes. -/
theorem pdelaySent_only (p : Fin 2) (u : State) : Frame [.net, .outbox] u (pdelaySent p u) :=
  .under (modPort_only _ _ _) (by simp) (sendPort_only _ _ _ _ _ _)

/-- Links and periodic frames follow R268, R269, R274 and R275. -/
theorem portsLinkAndSend : Claim.PortsLinkAndSend := by
  intro s p
  refine ⟨fun h up sp => exec_linkChange_unused h up sp, fun hu hs => ⟨fun sp ho h2 hother =>
    ⟨_, exec_linkChange_up hu hs ho h2 hother, portOf_modPort_self p s _, modPort_only _ _ _⟩,
    fun sp ho hl => ⟨_, exec_linkChange_drops hu hs (.inr ho), dropLink_effect hl⟩, fun hm ho => ?_,
    fun sp hl => ?_⟩, fun hon hs => ⟨fun hm => ?_, fun hm hl => ?_, fun hm hl => ?_⟩, fun hl t1 t2 t3 t4 => ?_,
    fun hl t1 t2 t3 t4 => congrArg Host.Outcome.next (if_pos (by simp [hl]))⟩
  · refine ⟨_, exec_linkChange_hsr hu hs hm ho, ?_, latched_raise _ _ _ (by omega)⟩
    have hnet := raise_only .net 0 (modPort p (fun x => { x with link := false, speed := 0 }) (forgetHeard s)) .net (by simp)
    exact (congrArg (fun n : NetState => n.port[p].link) hnet).trans
      (congrArg NetPort.link (portOf_modPort_self p (forgetHeard s) fun x => { x with link := false, speed := 0 }))
  · obtain ⟨hdown, h0⟩ := dropLink_effect hl
    exact ⟨_, exec_linkChange_drops hu hs (.inl rfl), hdown, h0, (dropLink_only _ _).mono (by simp)⟩
  · exact congrArg Host.Outcome.next (if_neg (by simp [hm]))
  · exact supervisionTx_redundant hon hs hm hl
  · have hnet : (periodic tkPdelay (secs 1) s).net = s.net := periodic_only tkPdelay (secs 1) s .net (by simp)
    have hup : linkUp 0 (periodic tkPdelay (secs 1) s) = true := by
      rw [linkUp_of_net 0 s hnet, linkUp_eq, hl, hs]
      rfl
    have hport : Claim.portOf 0 (periodic tkPdelay (secs 1) s) = Claim.portOf 0 s := congrArg (fun n : NetState => n.port[(0 : Fin 2)]) hnet
    have hob : (periodic tkPdelay (secs 1) s).outbox = s.outbox := periodic_only tkPdelay (secs 1) s .outbox (by simp)
    have htag : vlanTag 0 4 (periodic tkPdelay (secs 1) s) = vlanTag 0 4 s :=
      vlanTag_of_key 0 s (periodic_only tkPdelay (secs 1) s .key (by simp)) 4
    obtain ⟨hout, hseq⟩ := pdelaySent_effect hup
    rw [hob, htag, hport] at hout
    rw [hport] at hseq
    exact ⟨_, exec_pdelayTx_single hon hs hm hup, hout, hseq,
      .under (pdelaySent_only _ _) (by simp) ((periodic_only _ _ _).mono (by simp))⟩
  · refine ⟨_, congrArg Host.Outcome.next (if_neg (by simp [hl])), portOf_modPort_self p s _, modPort_only _ _ _⟩

end Sys2Proof.Machine
end

section
/-! PROOFS. Received Ethernet frames (O44; R268, R270 to R272): the checks, the duplicate table, the answers, and a source that
is heard on one port only. -/

namespace Sys2Proof.Machine

section
variable {s : State} {p : Fin 2} {f : EthFrame}

/-- A bad or oversized frame is counted, and nothing else. -/
theorem ethFrameRx_bad (hu : portUsed p s = true) (hl : linkUp p s = true) (h : 1528 < f.lenBytes ∨ f.fcsOk = false) :
    ethFrameRx p f s = countNet p 2 s :=
  (if_neg (by simp [hu, hl])).trans (if_pos (by simpa using h))

/-- A frame that passes the check is counted, and its source is noted as heard. -/
def frameHeard (p : Fin 2) (f : EthFrame) (s : State) : State := hearLan p f.src (countNet p 0 s)

/-- Without redundancy a good frame is served. -/
theorem ethFrameRx_single (hu : portUsed p s = true) (hl : linkUp p s = true) (hlen : f.lenBytes ≤ 1528) (hf : f.fcsOk = true)
    (hm : s.net.mode = 0) : ethFrameRx p f s = serveFrame p f (countNet p 0 s) := by
  have hhear : hearLan p f.src (countNet p 0 s) = countNet p 0 s := if_pos (by
    have : (countNet p 0 s).net.mode = 0 := hm
    simp [this])
  refine (if_neg (by simp [hu, hl])).trans ((if_neg (by simp [hf]; omega)).trans ((if_pos hm).trans ?_))
  rw [hhear]

/-- With PRP a tagged frame other than PTP passes the duplicate table. -/
theorem ethFrameRx_prp (hu : portUsed p s = true) (hl : linkUp p s = true) (hlen : f.lenBytes ≤ 1528) (hf : f.fcsOk = true)
    (hm : s.net.mode = 1) {q : Half} (hq : f.seq = some q) (hk : f.kind ≠ 4) : ethFrameRx p f s =
      if (dupCheck p f.src q (frameHeard p f s)).1 then countNet p 3 (dupCheck p f.src q (frameHeard p f s)).2
      else serveFrame p f (forwardRing p f (dupCheck p f.src q (frameHeard p f s)).2) := by
  have h0 : ¬ s.net.mode = 0 := by rw [hm]; decide
  refine (if_neg (by simp [hu, hl])).trans ((if_neg (by simp [hf]; omega)).trans ((if_neg h0).trans
    ((if_neg (by simp [hm])).trans ?_)))
  rw [hq]
  exact if_neg (by simp [hm, hk])

/-- What noting the source leaves: the counters of the ports and the duplicate table. -/
theorem hearLan_keeps (src : BitVec 48) : (hearLan p src s).net.port = s.net.port ∧ (hearLan p src s).net.dup = s.net.dup ∧
    (hearLan p src s).net.mode = s.net.mode := by
  unfold hearLan
  split <;> exact ⟨rfl, rfl, rfl⟩

end

/-! ### The duplicate table (R270) -/

section
variable {s : State} {src : BitVec 48}

/-- The entry of a source that is heard for the first time. -/
def firstHeard (p : Fin 2) (src : BitVec 48) (q : Half) (s : State) : DupEntry :=
  { src := src, last := q, window := 1, heardAt := s.now, port := p }

/-- A number that begins an entry counts as seen. -/
theorem seqSeen_firstHeard (p : Fin 2) (q : Half) : seqSeen (firstHeard p src q s) q = true := by
  have h : seqBehind (firstHeard p src q s) q = 0 := by
    rw [seqBehind, firstHeard, BitVec.sub_self]
    rfl
  have hb : bit (firstHeard p src q s).window 0 = true := (by decide : bit (1 : BitVec 64) 0 = true)
  rw [seqSeen, h, hb]
  rfl

/-- An unknown source takes a free entry, and its frame is no duplicate. -/
theorem dupCheck_first (p : Fin 2) (q : Half) (h : ∀ e ∈ s.net.dup, e.src ≠ src) (hlen : s.net.dup.length < 512) :
    dupCheck p src q s = (false, modNet (fun n => { n with dup := n.dup ++ [firstHeard p src q s] }) (dupForget s)) := by
  have hkept : (dupForget s).net.dup = s.net.dup.filter fun e => decide (s.now < e.heardAt + ms 400) := rfl
  have hfind : ((dupForget s).net.dup.find? fun e => e.src == src) = none := by
    rw [hkept, List.find?_eq_none]
    intro e he
    simpa using h e (List.mem_of_mem_filter he)
  have hfree : (dupForget s).net.dup.length < 512 := by
    rw [hkept]
    exact Nat.lt_of_le_of_lt (List.length_filter_le _ _) hlen
  unfold dupCheck
  dsimp only
  rw [hfind]
  exact if_pos hfree

/-- A number seen before is a duplicate, and the entry only notes when and where it was heard. -/
theorem dupCheck_seen (p : Fin 2) {q : Half} {e : DupEntry} (hd : s.net.dup = [e]) (hlive : s.now < e.heardAt + 160000000)
    (hseen : seqSeen e q = true) : (dupCheck p e.src q s).1 = true ∧
      (dupCheck p e.src q s).2.net.dup = [{ e with heardAt := s.now, port := p }] ∧
      (dupCheck p e.src q s).2.net.port = s.net.port ∧ (dupCheck p e.src q s).2.outbox = s.outbox := by
  have hkept : (dupForget s).net.dup = [e] := by
    have hl : s.now < e.heardAt + ms 400 := hlive
    change s.net.dup.filter _ = [e]
    rw [hd]
    simp [hl]
  have hfind : ((dupForget s).net.dup.find? fun x => x.src == e.src) = some e := by
    rw [hkept]
    simp
  unfold dupCheck
  dsimp only
  rw [hfind]
  refine ⟨hseen, ?_, rfl, rfl⟩
  change (dupForget s).net.dup.map _ = _
  rw [hkept]
  simp [hseen]
  rfl

/-- An entry is forgotten 400 ms after its source was last heard. -/
theorem exec_dupEntryExpire_single {e : DupEntry} (hd : s.net.dup = [e]) : ∃ t, exec (.dupEntryExpire e.src) s = .next t ∧
    t.net.dup = [] ∧ t.now = max s.now (e.heardAt + 160000000) ∧ Frame [.net, .time] s t := by
  have hfind : (s.net.dup.find? fun x => x.src == e.src) = some e := by
    rw [hd]
    simp
  have hex : exec (.dupEntryExpire e.src) s = .next
      (modNet (fun n => { n with dup := n.dup.filter fun x => x.src != e.src }) (elapseTo (e.heardAt + ms 400) s)) := by
    change execDupEntryExpire e.src s = _
    rw [execDupEntryExpire, hfind]
  refine ⟨_, hex, ?_, elapseTo_now_eq_max _ _, .under (modNet_only _ _) (by simp) ((elapseTo_only _ _).mono (by simp))⟩
  have hkept : (elapseTo (e.heardAt + ms 400) s).net = s.net := elapseTo_only _ s .net (by simp)
  change (elapseTo (e.heardAt + ms 400) s).net.dup.filter _ = _
  rw [hkept, hd]
  simp

end

/-! ### Frames that are served (R272) -/

section
variable {s : State} {f : EthFrame}

/-- An ARP request to the module goes to the answer. -/
theorem serveFrame_arp (p : Fin 2) (hk : f.kind = 1) (hd : f.dst = s.net.mac) : serveFrame p f s = arpReply f s := by
  refine (if_neg (by simp [forUs, hd])).trans ?_
  rw [hk]
  rfl

/-- A frame without a service changes nothing. -/
theorem serveFrame_other (p : Fin 2) (hk : f.kind = 0) : serveFrame p f s = s := by
  unfold serveFrame
  split
  · rfl
  · rw [hk]
    rfl

/-- The answer to an ARP request for the module's address. -/
theorem arpReply_outbox (hm : s.net.mode = 0) (hl : linkUp 0 s = true) (ha : beNat (slice f.payload 24 4) = s.net.ip.toNat) :
    (arpReply f s).outbox = s.outbox ++ [.eth 0 1 f.src.toNat none none (f.payload.take 6 ++ [0, 2]
      ++ beBytes 6 s.net.mac.toNat ++ beBytes 4 s.net.ip.toNat ++ slice f.payload 8 10)] := by
  have h : arpReply f s = sendNet 1 f.src.toNat (f.payload.take 6 ++ [0, 2] ++ beBytes 6 s.net.mac.toNat
      ++ beBytes 4 s.net.ip.toNat ++ slice f.payload 8 10) s := if_neg (by simp [ha])
  rw [h, sendNet_single hm hl, vlanTag_none 0 s (by decide) (by decide)]
  rfl

end

/-! ### A source heard on one port only (R271) -/

section
variable {s : State} {e : LanHeard}

/-- A supervision interval is 2 s. -/
theorem superTicks_eq : superTicks = 800000000 := rfl

/-- A source that was heard for less than two intervals sets nothing. -/
theorem exec_lanFault_recent (hh : s.net.heard = [e]) (h : e.lastAt < e.since + 1600000000) :
    exec (.lanFault e.src) s = .next s := by
  have hfind : (s.net.heard.find? fun x => x.src == e.src) = some e := by
    rw [hh]
    simp
  have hr : e.lastAt < e.since + 2 * superTicks := by
    rw [superTicks_eq]
    omega
  change Host.Outcome.next (lanSilent e.src s) = _
  rw [lanSilent, hfind]
  exact congrArg Host.Outcome.next (if_pos (by simp [hr]))

/-- A source that is missing on one port is reported. -/
def lanReported (e : LanHeard) (u : State) : State :=
  raise .net 1 (countNet e.port 5 (modNet (fun n => { n with lanFault := some e.src }) u))

/-- A source that is still heard, on one port only, for three intervals is reported. -/
theorem exec_lanFault_reports (hm : s.net.mode = 1) (hl : ∀ q : Fin 2, linkUp q s = true) (hh : s.net.heard = [e])
    (hn : s.net.lanFault ≠ some e.src) (h2 : e.since + 1600000000 ≤ e.lastAt)
    (h3 : max s.now (e.since + 2400000000) ≤ e.lastAt + 800000000) : exec (.lanFault e.src) s =
      .next (lanReported e (elapseTo (e.since + 3 * superTicks) s)) := by
  have hfind : (s.net.heard.find? fun x => x.src == e.src) = some e := by
    rw [hh]
    simp
  have hr : ¬ e.lastAt < e.since + 2 * superTicks := by
    rw [superTicks_eq]
    omega
  have hnow : ¬ e.lastAt + superTicks < (elapseTo (e.since + 3 * superTicks) s).now := by
    rw [elapseTo_now_eq_max, superTicks_eq]
    omega
  change Host.Outcome.next (lanSilent e.src s) = _
  rw [lanSilent, hfind]
  exact congrArg Host.Outcome.next ((if_neg (by simp [hm, hl 0, hl 1, hn, hr])).trans (if_neg hnow))

/-- The report names the source, counts it at its port and latches LAN_FAULT. -/
theorem lanReported_effect (e : LanHeard) (u : State) : Latched .net 1 (lanReported e u) ∧
    (lanReported e u).net.lanFault = some e.src ∧
    at' (Claim.portOf e.port (lanReported e u)).cnt 5 0 = satInc (at' (Claim.portOf e.port u).cnt 5 0) := by
  have hnet := raise_only .net 1 (countNet e.port 5 (modNet (fun n => { n with lanFault := some e.src }) u)) .net (by simp)
  refine ⟨latched_raise _ _ _ (by omega), congrArg NetState.lanFault hnet, ?_⟩
  have hp : Claim.portOf e.port (lanReported e u) =
      Claim.portOf e.port (countNet e.port 5 (modNet (fun n => { n with lanFault := some e.src }) u)) :=
    congrArg (fun n : NetState => n.port[e.port]) hnet
  rw [hp, portOf_countNet_self]
  exact at_put _ _ _ _ (by omega)

/-- What the report changes. -/
theorem lanReported_only (e : LanHeard) (u : State) : Frame [.net, .events, .board] u (lanReported e u) :=
  .under (raise_only _ _ _) (by simp) (.under (countNet_only _ _ _) (by simp) ((modNet_only _ _).mono (by simp)))

end

/-! ### The two claims -/

/-- Noting a good frame counts it, and leaves the duplicate table and the other counters. -/
theorem frameHeard_keeps (p : Fin 2) (f : EthFrame) (s : State) : (frameHeard p f s).net.dup = s.net.dup ∧
    (frameHeard p f s).net.mode = s.net.mode ∧ (frameHeard p f s).now = s.now ∧ (frameHeard p f s).outbox = s.outbox ∧
    at' (Claim.portOf p (frameHeard p f s)).cnt 3 0 = at' (Claim.portOf p s).cnt 3 0 := by
  obtain ⟨hport, hdup, hmode⟩ := hearLan_keeps (s := countNet p 0 s) (p := p) f.src
  have hframe := hearLan_only p f.src (countNet p 0 s)
  refine ⟨hdup, hmode, hframe.now_eq (by simp), hframe .outbox (by simp), ?_⟩
  have hp : Claim.portOf p (frameHeard p f s) = Claim.portOf p (countNet p 0 s) := congrArg (fun v : Vector NetPort 2 => v[p]) hport
  rw [hp, portOf_countNet_self]
  exact at_put_other _ _ _ _ _ (by omega)

section
variable {s : State} {p : Fin 2} {f : EthFrame} {q : Half}

/-- The first frame of a source passes, and begins its entry. -/
theorem ethFrameRx_first (hu : portUsed p s = true) (hl : linkUp p s = true) (hlen : f.lenBytes ≤ 1528) (hf : f.fcsOk = true)
    (hm : s.net.mode = 1) (hq : f.seq = some q) (hk : f.kind = 0) (hnew : ∀ e ∈ s.net.dup, e.src ≠ f.src)
    (hfree : s.net.dup.length < 512) : (∃ e ∈ (ethFrameRx p f s).net.dup, e.src = f.src ∧ seqSeen e q = true ∧ e.port = p ∧
      e.heardAt = s.now) ∧ at' (Claim.portOf p (ethFrameRx p f s)).cnt 3 0 = at' (Claim.portOf p s).cnt 3 0 := by
  obtain ⟨hdup, hmode, hnow, _, hcnt⟩ := frameHeard_keeps p f s
  have hcheck := dupCheck_first (s := frameHeard p f s) (src := f.src) p q (by rwa [hdup]) (by rwa [hdup])
  have hring : forwardRing p f (dupCheck p f.src q (frameHeard p f s)).2 = (dupCheck p f.src q (frameHeard p f s)).2 := by
    rw [hcheck]
    have : (dupForget (frameHeard p f s)).net.mode = 1 := hmode.trans hm
    exact if_pos (by simp [this])
  have hrx : ethFrameRx p f s = (dupCheck p f.src q (frameHeard p f s)).2 := by
    rw [ethFrameRx_prp hu hl hlen hf hm hq (by rw [hk]; decide), hring, serveFrame_other p hk, hcheck]
    exact if_neg Bool.false_ne_true
  rw [hrx, hcheck]
  refine ⟨⟨firstHeard p f.src q (frameHeard p f s), ?_, rfl, seqSeen_firstHeard _ _, rfl, hnow⟩, hcnt⟩
  exact List.mem_append_right _ (List.mem_singleton.mpr rfl)

/-- A later copy is a counted duplicate. -/
theorem ethFrameRx_duplicate (hu : portUsed p s = true) (hl : linkUp p s = true) (hlen : f.lenBytes ≤ 1528)
    (hf : f.fcsOk = true) (hm : s.net.mode = 1) (hq : f.seq = some q) (hk : f.kind = 1) {e : DupEntry} (hd : s.net.dup = [e])
    (hsrc : e.src = f.src) (hlive : s.now < e.heardAt + 160000000) (hseen : seqSeen e q = true) :
    (ethFrameRx p f s).outbox = s.outbox ∧
      at' (Claim.portOf p (ethFrameRx p f s)).cnt 3 0 = satInc (at' (Claim.portOf p s).cnt 3 0) ∧
      (ethFrameRx p f s).net.dup = [{ e with heardAt := s.now, port := p }] := by
  obtain ⟨hdup, _, hnow, hout, hcnt⟩ := frameHeard_keeps p f s
  obtain ⟨hsecond, hentry, hports, hout'⟩ := dupCheck_seen (s := frameHeard p f s) p (hdup.trans hd) (by rwa [hnow]) hseen
  rw [hnow] at hentry
  rw [hsrc] at hsecond hentry hports hout'
  have hrx : ethFrameRx p f s = countNet p 3 (dupCheck p f.src q (frameHeard p f s)).2 := by
    rw [ethFrameRx_prp hu hl hlen hf hm hq (by rw [hk]; decide), hsecond]
    exact if_pos rfl
  have hp : Claim.portOf p (dupCheck p f.src q (frameHeard p f s)).2 = Claim.portOf p (frameHeard p f s) :=
    congrArg (fun v : Vector NetPort 2 => v[p]) hports
  rw [hrx]
  refine ⟨hout'.trans hout, ?_, by rw [hsrc]; exact hentry⟩
  rw [portOf_countNet_self, hp]
  exact (at_put _ _ _ _ (by omega)).trans (by rw [hcnt])

/-- An ARP request is answered where it asks for the module's address, and changes only counters elsewhere. -/
theorem ethFrameRx_arp (hu : portUsed 0 s = true) (hl : linkUp 0 s = true) (hlen : f.lenBytes ≤ 1528) (hf : f.fcsOk = true)
    (hm : s.net.mode = 0) (hk : f.kind = 1) (hd : f.dst = s.net.mac) : ethFrameRx 0 f s = arpReply f (countNet 0 0 s) :=
  (ethFrameRx_single hu hl hlen hf hm).trans (serveFrame_arp 0 hk hd)

end

/-- Received frames are checked, deduplicated and answered. -/
theorem framesAreCheckedAndDeduplicated : Claim.FramesAreCheckedAndDeduplicated := by
  intro s p f hu hl
  refine ⟨fun h => ?_, fun hlen hf => ⟨fun hm hp hk hd => ?_, fun q hm hq hk hnew hfree => ?_,
    fun q e hm hq hk hd hsrc hlive hseen => ?_⟩, fun e hd => exec_dupEntryExpire_single hd,
    fun e hm hlinks hh hn => ⟨fun h2 h3 => ?_, fun h => exec_lanFault_recent hh h⟩, fun hm src => ?_⟩
  · refine ⟨_, congrArg Host.Outcome.next (ethFrameRx_bad hu hl h), ?_, rfl, rfl, countNet_only _ _ _⟩
    rw [portOf_countNet_self]
  · subst hp
    have hex : exec (.ethFrameRx 0 f) s = .next (arpReply f (countNet 0 0 s)) :=
      congrArg Host.Outcome.next (ethFrameRx_arp hu hl hlen hf hm hk hd)
    refine ⟨fun ha => ⟨_, hex, ?_, .under (arpReply_only _ _) (by simp) ((countNet_only _ _ _).mono (by simp))⟩, fun ha => ?_⟩
    · have hl' : linkUp 0 (countNet 0 0 s) = true := by rwa [linkUp_countNet]
      exact arpReply_outbox (s := countNet 0 0 s) hm hl' ha
    · have hno : arpReply f (countNet 0 0 s) = countNet 0 0 s := if_pos ha
      rw [hno] at hex
      exact ⟨_, hex, rfl, countNet_only _ _ _⟩
  · obtain ⟨hentry, hcnt⟩ := ethFrameRx_first hu hl hlen hf hm hq hk hnew hfree
    exact ⟨_, rfl, hentry, hcnt⟩
  · exact ⟨_, rfl, ethFrameRx_duplicate hu hl hlen hf hm hq hk hd hsrc hlive hseen⟩
  · obtain ⟨hev, hfault, hcnt⟩ := lanReported_effect e (elapseTo (e.since + 3 * superTicks) s)
    have hnet : (elapseTo (e.since + 3 * superTicks) s).net = s.net := elapseTo_only _ s .net (by simp)
    have hport : Claim.portOf e.port (elapseTo (e.since + 3 * superTicks) s) = Claim.portOf e.port s :=
      congrArg (fun n : NetState => n.port[e.port]) hnet
    rw [hport] at hcnt
    refine ⟨_, exec_lanFault_reports hm hlinks hh hn h2 h3, hev, hfault, hcnt, ?_,
      .under (lanReported_only _ _) (by simp) ((elapseTo_only _ _).mono (by simp))⟩
    rw [(lanReported_only _ _).now_eq (by simp), elapseTo_now_eq_max, superTicks_eq]
  · change Host.Outcome.next (lanSilent src s) = _
    rw [lanSilent]
    split
    · rfl
    · exact congrArg Host.Outcome.next (if_pos (by simp [hm]))

/-- Settles O44. -/
theorem networkPortsAndFrames : Obligations.NetworkPortsAndFrames := ⟨portsLinkAndSend, framesAreCheckedAndDeduplicated⟩

end Sys2Proof.Machine
end

section
/-! PROOFS. A CAN port (O46, O47; R289 to R299): how the shared steps of a port act on its state, and received frames. -/

namespace Sys2Proof.Machine

/-! ### One port -/

section
variable (p : Fin 2) (s : State)

/-- The port that is changed. -/
theorem canOf_modCan (f : CanState → CanState) : Claim.canOf p (modCan p f s) = f (Claim.canOf p s) :=
  modAt_getElem_self _ _ _

/-- A step that leaves the CAN ports. -/
theorem canOf_of_can {t : State} (h : t.can = s.can) : Claim.canOf p t = Claim.canOf p s := by
  unfold Claim.canOf
  rw [h]

/-- The claims name the event register of a port as the model does. -/
theorem canEv_eq : Claim.canEv p = canReg p := rfl

/-- An event leaves the ports. -/
theorem canOf_raise (r : EvReg) (k : Nat) : Claim.canOf p (raise r k s) = Claim.canOf p s :=
  canOf_of_can _ _ (raise_only r k s .can (by simp))

/-- A conditional event leaves the ports. -/
theorem canOf_raiseIf (b : Bool) (r : EvReg) (k : Nat) : Claim.canOf p (raiseIf b r k s) = Claim.canOf p s :=
  canOf_of_can _ _ (raiseIf_only b r k s .can (by simp))

/-- A transmit buffer that is changed. -/
theorem canOf_modBuf (b : Fin 8) (f : CanTx → CanTx) :
    Claim.canOf p (modBuf p b f s) = { Claim.canOf p s with buf := modAt (Claim.canOf p s).buf b f } :=
  canOf_modCan p s _

/-- A stamp lies in the past. -/
theorem sofStamp_le : (sofStamp s).1.toNat ≤ s.raw.toNat := by
  have hlt : (takeFree s).1 % (s.raw.toNat + 1) < s.raw.toNat + 1 := Nat.mod_lt _ (by omega)
  have hx : (sofStamp s).1.toNat = (takeFree s).1 % (s.raw.toNat + 1) % 2 ^ 64 := BitVec.toNat_ofNat _ _
  rw [hx]
  exact Nat.le_of_lt_succ (Nat.lt_of_le_of_lt (Nat.mod_le _ _) hlt)

end

/-! ### Attempts (R294) -/

/-- A port after it has looked for an attempt to start. -/
def attempted (c : CanState) : CanState :=
  if c.onBus.isNone && c.mode == 0 && (c.state == 2 || c.state == 3) then { c with onBus := canWinner c } else c

/-- The look for an attempt acts on the port. -/
theorem canOf_canAttempt (p : Fin 2) (s : State) : Claim.canOf p (canAttempt p s) = attempted (Claim.canOf p s) :=
  canOf_modCan p s _

/-- It changes only which buffer is on the bus. -/
theorem attempted_eq (c : CanState) : ∃ x, attempted c = { c with onBus := x } := by
  unfold attempted
  split
  · exact ⟨_, rfl⟩
  · exact ⟨c.onBus, rfl⟩

/-- The look for an attempt leaves the port but for the buffer on the bus. -/
theorem canOf_canAttempt_eq (p : Fin 2) (s : State) : ∃ x, Claim.canOf p (canAttempt p s) = { Claim.canOf p s with onBus := x } := by
  rw [canOf_canAttempt]
  exact attempted_eq _

/-- A port that may send takes the winner. -/
theorem attempted_ready {c : CanState} (h : c.onBus = none) (hm : c.mode = 0) (hs : c.state = 2) :
    attempted c = { c with onBus := canWinner c } := if_pos (by simp [h, hm, hs])

/-- The choice between the best so far and the next pending buffer. -/
def betterOf (c : CanState) (best : Option (Fin 8)) (b : Fin 8) : Option (Fin 8) :=
  match best with
  | none => some b
  | some a => if arbKey (c.buf[b]).hdr (c.buf[b]).info < arbKey (c.buf[a]).hdr (c.buf[a]).info then some b else some a

/-- The winner among some buffers is one of them. -/
theorem mem_of_foldl_betterOf (c : CanState) : ∀ (bs : List (Fin 8)) (best : Option (Fin 8)) (b : Fin 8),
    bs.foldl (betterOf c) best = some b → b ∈ bs ∨ best = some b
  | [], _, _, h => .inr h
  | x :: xs, best, b, h => by
    rcases mem_of_foldl_betterOf c xs _ b h with hb | hb
    · exact .inl (List.mem_cons_of_mem _ hb)
    · unfold betterOf at hb
      split at hb
      · exact .inl (Option.some.inj hb ▸ List.mem_cons_self)
      · split at hb
        · exact .inl (Option.some.inj hb ▸ List.mem_cons_self)
        · exact .inr hb

/-- Only a pending buffer wins. -/
theorem pend_of_canWinner {c : CanState} {b : Fin 8} (h : canWinner c = some b) : (c.buf[b]).pend = true := by
  rcases mem_of_foldl_betterOf c _ none b h with hb | hb
  · exact (List.mem_filter.mp hb).2
  · exact absurd hb (by simp)

/-- The buffers equal to one. -/
theorem filter_beq : ∀ b : Fin 8, (idx 8).filter (fun d => d == b) = [b] := by decide

/-- The only pending buffer wins. -/
theorem canWinner_single {c : CanState} {b : Fin 8} (hb : (c.buf[b]).pend = true) (h : ∀ d, d ≠ b → (c.buf[d]).pend = false) :
    canWinner c = some b := by
  have hone : (idx 8).filter (fun d => (c.buf[d]).pend) = [b] := by
    have hp : (fun d => (c.buf[d]).pend) = fun d => d == b := funext fun d => by
      by_cases hd : d = b
      · rw [hd, hb, beq_self_eq_true]
      · rw [h d hd, beq_false_of_ne hd]
    rw [hp]
    exact filter_beq b
  have hw : canWinner c = ((idx 8).filter fun d => (c.buf[d]).pend).foldl (betterOf c) none := rfl
  rw [hw, hone]
  rfl

/-! ### Error states (R296) -/

/-- A port after it has taken the error state of its counters. -/
def settled (now : Nat) (c : CanState) : CanState :=
  { c with
    state := canErrState c, onBus := if canErrState c = 4 then none else c.onBus,
    waitFrom := if canErrState c = 4 && c.state ≠ 4 then now else c.waitFrom }

section
variable {p : Fin 2} {s : State}

/-- Taking the error state acts on the port. -/
theorem canOf_canSettle (p : Fin 2) (s : State) : Claim.canOf p (canSettle p s) = settled s.now (Claim.canOf p s) := by
  refine (canOf_raiseIf _ _ _ _ _).trans ((canOf_raiseIf _ _ _ _ _).trans (canOf_modCan p s _))

/-- A port whose counters stay low is error active. -/
theorem canErrState_active {c : CanState} (ht : c.txErr < 128) (hr : c.rxErr < 128) : canErrState c = 2 := by
  unfold canErrState
  rw [if_neg (by omega), if_neg (by simp; omega)]

/-- It raises nothing. -/
theorem canSettle_active (h : canErrState (Claim.canOf p s) = 2) : (canSettle p s).events = s.events ∧
    Frame [.can] s (canSettle p s) := by
  have hs : canSettle p s = modCan p (fun c => { c with
      state := canErrState (Claim.canOf p s),
      onBus := if canErrState (Claim.canOf p s) = 4 then none else c.onBus,
      waitFrom := if canErrState (Claim.canOf p s) = 4 && (Claim.canOf p s).state ≠ 4 then s.now else c.waitFrom }) s := by
    have hx : canErrState s.can[p] = 2 := h
    unfold canSettle
    dsimp only
    rw [hx, h]
    rfl
  rw [hs]
  exact ⟨rfl, modCan_only _ _ _⟩

/-- What is latched stays. -/
theorem canSettle_eventsKept (p : Fin 2) (s : State) : EventsKept s (canSettle p s) :=
  .trans (.trans (Frame.eventsKept (modCan_only _ _ _) (by simp)) (raiseIf_eventsKept _ _ _ (by omega) _)) (raiseIf_eventsKept _ _ _ (by omega) _)

end

/-! ### Received frames (R292, R293, R295) -/

/-- An error active port after a good frame. -/
def heardGood (c : CanState) : CanState := { c with rxErr := c.rxErr - 1, ackRun := 0, alone := false }

section
variable {p : Fin 2} {s : State} {f : CanFrame}

/-- A port that does not listen takes no frame. -/
theorem canFrameRx_deaf (h : canOn p s = false ∨ (Claim.canOf p s).state = 0 ∨ (Claim.canOf p s).state = 4 ∨
    (Claim.canOf p s).state = 5) : canFrameRx p f s = s := by
  have hx : s.can[p] = Claim.canOf p s := rfl
  unfold canFrameRx
  dsimp only
  rw [hx]
  exact if_pos (by rcases h with h | h | h | h <;> simp [h])

/-- The filters take a data frame that belongs to no safety connection, and the FIFO or its loss follows. -/
def canTaken (p : Fin 2) (f : CanFrame) (s u : State) : State :=
  if (f.rtr && !f.fdf) || canSafety p f s then u
  else match canFilter p f s with
    | none => u
    | some k => canStore p f k (sofStamp u).1 (sofStamp u).2

/-- A frame without error ends another attempt, may be the rate that was searched for, and clears the run of failures. -/
def canCleared (p : Fin 2) (s : State) : State :=
  modCan p (fun c => { c with ackRun := 0, alone := false }) (canFound p (canLost p (recGood p s)))

/-- A frame that a running port receives. -/
theorem canFrameRx_active (hon : canOn p s = true) (hs : (Claim.canOf p s).state = 2) :
    canFrameRx p f s = canAttempt p (canTaken p f s (canSettle p (canCleared p s))) := by
  have hx : s.can[p] = Claim.canOf p s := rfl
  have hrx : canFrameRx p f s = if !canOn p s || !(s.can[p].state == 2 || s.can[p].state == 3 ||
      (s.can[p].mode == 2 && s.can[p].state == 1)) then s else canAttempt p (canTaken p f s
        (if s.can[p].state = 1 then canCleared p s else canSettle p (canCleared p s))) := by
    unfold canFrameRx
    rfl
  rw [hrx, hx, if_neg (by simp [hon, hs]), if_neg (by rw [hs]; decide)]

/-- A frame that a port receives while it tries rates. -/
theorem canFrameRx_trying (hon : canOn p s = true) (hs : (Claim.canOf p s).state = 1) (hm : (Claim.canOf p s).mode = 2) :
    canFrameRx p f s = canAttempt p (canTaken p f s (canCleared p s)) := by
  have hx : s.can[p] = Claim.canOf p s := rfl
  have hrx : canFrameRx p f s = if !canOn p s || !(s.can[p].state == 2 || s.can[p].state == 3 ||
      (s.can[p].mode == 2 && s.can[p].state == 1)) then s else canAttempt p (canTaken p f s
        (if s.can[p].state = 1 then canCleared p s else canSettle p (canCleared p s))) := by
    unfold canFrameRx
    rfl
  rw [hrx, hx, if_neg (by simp [hon, hs, hm]), if_pos hs]

/-- An error active port without an attempt only counts the good frame. -/
theorem canCleared_active (hm : (Claim.canOf p s).mode ≠ 2) (hr : (Claim.canOf p s).rxErr ≤ 127)
    (hb : (Claim.canOf p s).onBus = none) : Claim.canOf p (canCleared p s) = heardGood (Claim.canOf p s) ∧
      (canCleared p s).events = s.events ∧ Frame [.can] s (canCleared p s) := by
  have hgood : recGood p s = modCan p (fun c => { c with rxErr := (Claim.canOf p s).rxErr - 1 }) s := if_pos hr
  have hg : Claim.canOf p (recGood p s) = { Claim.canOf p s with rxErr := (Claim.canOf p s).rxErr - 1 } := by
    rw [hgood, canOf_modCan]
  have hy : (recGood p s).can[p] = Claim.canOf p (recGood p s) := rfl
  have hlost : canLost p (recGood p s) = recGood p s := by
    unfold canLost
    rw [hy, hg, hb]
  have hfound : canFound p (recGood p s) = recGood p s := by
    unfold canFound
    rw [hy, hg]
    exact if_neg fun h => hm (of_decide_eq_true (Bool.and_eq_true_iff.mp h).1)
  rw [canCleared, hlost, hfound]
  refine ⟨?_, ?_, .under (modCan_only _ _ _) (by simp) ?_⟩
  · rw [canOf_modCan, hg]
    rfl
  · rw [hgood]
    rfl
  · rw [hgood]
    exact modCan_only _ _ _

/-- The state of an error active port before its filters. -/
def canHeard (p : Fin 2) (s : State) : State := canSettle p (canCleared p s)

/-- The port after a good frame. -/
theorem canOf_canHeard (hs : (Claim.canOf p s).state = 2) (hm : (Claim.canOf p s).mode ≠ 2) (hr : (Claim.canOf p s).rxErr ≤ 127)
    (ht : (Claim.canOf p s).txErr < 128) (hb : (Claim.canOf p s).onBus = none) :
    Claim.canOf p (canHeard p s) = heardGood (Claim.canOf p s) ∧ (canHeard p s).events = s.events ∧
      Frame [.can] s (canHeard p s) := by
  obtain ⟨hc, hev, hframe⟩ := canCleared_active hm hr hb
  have he : canErrState (heardGood (Claim.canOf p s)) = 2 :=
    canErrState_active ht (show (Claim.canOf p s).rxErr - 1 < 128 by omega)
  obtain ⟨hev', hframe'⟩ := canSettle_active (p := p) (s := canCleared p s) (by rw [hc, he])
  refine ⟨?_, hev'.trans hev, .under hframe' (by simp) hframe⟩
  have hset : settled (canCleared p s).now (heardGood (Claim.canOf p s)) = { heardGood (Claim.canOf p s) with state := 2 } := by
    unfold settled
    rw [he]
    rfl
  rw [canHeard, canOf_canSettle, hc, hset]
  change { heardGood (Claim.canOf p s) with state := 2 } = { heardGood (Claim.canOf p s) with state := (Claim.canOf p s).state }
  rw [hs]

/-- A frame that no connection owns and that is no remote frame passes the filters. -/
theorem canTaken_data (hrtr : f.rtr = false) (hsafe : canSafety p f s = false) (u : State) : canTaken p f s u =
    match canFilter p f s with
    | none => u
    | some k => canStore p f k (sofStamp u).1 (sofStamp u).2 := if_neg (by rw [hrtr, hsafe]; exact Bool.false_ne_true)

/-- A FIFO with room takes the frame. -/
theorem canStore_room {u : State} (h : (Claim.canOf p u).rx.length < 64) (k : Nat) (stamp : Long) : canStore p f k stamp u =
    modCan p (fun c => { c with rx := c.rx ++ [{
      frame := { f with data := f.data.take (dlcLen f.fdf f.dlc.toNat) }, filter := BitVec.ofNat 4 k, stamp := stamp }] }) u :=
  if_neg (Nat.not_le.mpr h)

/-- A full FIFO loses it. -/
theorem canStore_full {u : State} (h : (Claim.canOf p u).rx.length = 64) (k : Nat) (stamp : Long) : canStore p f k stamp u =
    raise (canReg p) 1 (modCan p (fun c => { c with ovf := satInc c.ovf }) u) := if_pos (Nat.le_of_eq h.symm)

/-- What is latched stays where a frame is stored or lost. -/
theorem canTaken_eventsKept (p : Fin 2) (f : CanFrame) (s u : State) : EventsKept u (canTaken p f s u) := by
  unfold canTaken
  split
  · exact fun _ _ h => h
  split
  · exact fun _ _ h => h
  refine .trans (t := (sofStamp u).2) (Frame.eventsKept (sofStamp_only u) (by simp)) ?_
  unfold canStore
  split
  · exact .trans (Frame.eventsKept (modCan_only _ _ _) (by simp)) (raise_eventsKept _ _ (by omega) _)
  · exact Frame.eventsKept (modCan_only _ _ _) (by simp)

/-- Storing a frame leaves the rest of the port. -/
theorem canOf_canTaken (p : Fin 2) (f : CanFrame) (s u : State) : ∃ xs n, Claim.canOf p (canTaken p f s u) =
    { Claim.canOf p u with rx := xs, ovf := n } := by
  unfold canTaken
  split
  · exact ⟨_, _, rfl⟩
  split
  · exact ⟨_, _, rfl⟩
  have hst : Claim.canOf p (sofStamp u).2 = Claim.canOf p u := canOf_of_can _ _ (sofStamp_only u .can (by simp))
  unfold canStore
  split
  · rw [canOf_raise, canOf_modCan, hst]
    exact ⟨_, _, rfl⟩
  · rw [canOf_modCan, hst]
    exact ⟨_, _, rfl⟩

end

/-- What a found rate leaves and sets: the state and the mode stay, and RATE_FOUND is latched. -/
theorem canCleared_found {p : Fin 2} {s : State} (hm : (Claim.canOf p s).mode = 2) (hf : (Claim.canOf p s).found = false) :
    (Claim.canOf p (canCleared p s)).found = true ∧
      (Claim.canOf p (canCleared p s)).detRate.val = (Claim.canOf p s).tryRate.val + 1 ∧
      (Claim.canOf p (canCleared p s)).state = (Claim.canOf p s).state ∧ Latched (canReg p) 6 (canCleared p s) := by
  obtain ⟨n, hgood⟩ : ∃ n, Claim.canOf p (recGood p s) = { Claim.canOf p s with rxErr := n } := by
    unfold recGood
    dsimp only
    split
    · rw [canOf_modCan]
      exact ⟨_, rfl⟩
    · rw [canOf_modCan, canOf_of_can p s (takeFree_only s .can (by simp))]
      exact ⟨_, rfl⟩
  obtain ⟨x, bs, hlost⟩ : ∃ x bs, Claim.canOf p (canLost p (recGood p s)) = { Claim.canOf p s with rxErr := n, onBus := x, buf := bs } := by
    have hy : (recGood p s).can[p] = Claim.canOf p (recGood p s) := rfl
    unfold canLost
    rw [hy, hgood]
    split
    · exact ⟨_, _, hgood⟩
    · dsimp only
      split
      · rw [canFail, canOf_modBuf, canOf_modCan, hgood]
        exact ⟨_, _, rfl⟩
      · rw [canOf_modCan, hgood]
        exact ⟨_, _, rfl⟩
  have hy : (canLost p (recGood p s)).can[p] = Claim.canOf p (canLost p (recGood p s)) := rfl
  have hfound : canFound p (canLost p (recGood p s)) = raise (canReg p) 6 (modCan p
      (fun c => { c with found := true, detRate := Fin.ofNat 6 (c.tryRate.val + 1) }) (canLost p (recGood p s))) := by
    unfold canFound
    rw [hy, hlost]
    exact if_pos (by rw [hm, hf]; rfl)
  have hc : Claim.canOf p (canCleared p s) = { Claim.canOf p s with
      rxErr := n, onBus := x, buf := bs, found := true, detRate := Fin.ofNat 6 ((Claim.canOf p s).tryRate.val + 1),
      ackRun := 0, alone := false } := by
    rw [canCleared, hfound, canOf_modCan, canOf_raise, canOf_modCan, hlost]
  rw [hc]
  refine ⟨rfl, Nat.mod_eq_of_lt (by omega), rfl, ?_⟩
  rw [canCleared, hfound]
  exact Frame.eventsKept (modCan_only _ _ _) (by simp) _ _ (latched_raise _ _ _ (by omega))

section
variable {p : Fin 2} {s u : State} {f : CanFrame}

/-- A stored frame stands last in the FIFO, under the filter it matched. -/
theorem canStored_room {c : CanState} (hc : Claim.canOf p u = c) (hroom : c.rx.length < 64) (k : Nat) :
    (∃ st : Long, st.toNat ≤ u.raw.toNat ∧ ∃ x, Claim.canOf p (canAttempt p (canStore p f k (sofStamp u).1 (sofStamp u).2)) =
      { c with
        onBus := x
        rx := c.rx ++ [{
          frame := { f with data := f.data.take (dlcLen f.fdf f.dlc.toNat) }, filter := BitVec.ofNat 4 k, stamp := st }] }) ∧
    Frame [.can, .free] u (canAttempt p (canStore p f k (sofStamp u).1 (sofStamp u).2)) := by
  have hst : Claim.canOf p (sofStamp u).2 = c := (canOf_of_can _ _ (sofStamp_only _ .can (by simp))).trans hc
  rw [canStore_room (by rw [hst]; exact hroom)]
  obtain ⟨x, hx⟩ := canOf_canAttempt_eq p (modCan p (fun c => { c with rx := c.rx ++ [{
    frame := { f with data := f.data.take (dlcLen f.fdf f.dlc.toNat) }, filter := BitVec.ofNat 4 k,
    stamp := (sofStamp u).1 }] }) (sofStamp u).2)
  rw [canOf_modCan, hst] at hx
  exact ⟨⟨_, sofStamp_le u, x, hx⟩,
    .under (canAttempt_only _ _) (by simp) (.under (modCan_only _ _ _) (by simp) ((sofStamp_only u).mono (by simp)))⟩

/-- A frame for a full FIFO is counted and reported. -/
theorem canStored_full {c : CanState} (hc : Claim.canOf p u = c) (hfull : c.rx.length = 64) (k : Nat) :
    (∃ x, Claim.canOf p (canAttempt p (canStore p f k (sofStamp u).1 (sofStamp u).2)) =
      { c with onBus := x, ovf := satInc c.ovf }) ∧
    Latched (canReg p) 1 (canAttempt p (canStore p f k (sofStamp u).1 (sofStamp u).2)) := by
  have hst : Claim.canOf p (sofStamp u).2 = c := (canOf_of_can _ _ (sofStamp_only _ .can (by simp))).trans hc
  rw [canStore_full (by rw [hst]; exact hfull)]
  obtain ⟨x, hx⟩ := canOf_canAttempt_eq p (raise (canReg p) 1 (modCan p (fun c => { c with ovf := satInc c.ovf }) (sofStamp u).2))
  rw [canOf_raise, canOf_modCan, hst] at hx
  exact ⟨⟨x, hx⟩, Frame.eventsKept (canAttempt_only _ _) (by simp) _ _ (latched_raise _ _ _ (by omega))⟩

/-- A frame that ends the search for the rate. -/
theorem canFrameRx_found (hon : canOn p s = true) (hs : (Claim.canOf p s).state = 1) (hm : (Claim.canOf p s).mode = 2)
    (hf : (Claim.canOf p s).found = false) : ∃ t, exec (.canFrameRx p f) s = .next t ∧ (Claim.canOf p t).found = true ∧
      (Claim.canOf p t).detRate.val = (Claim.canOf p s).tryRate.val + 1 ∧ (Claim.canOf p t).state = 1 ∧
      Latched (canReg p) 6 t := by
  obtain ⟨hfound, hrate, hstate, hev⟩ := canCleared_found hm hf
  have hex : exec (.canFrameRx p f) s = .next (canAttempt p (canTaken p f s (canCleared p s))) :=
    congrArg Host.Outcome.next (canFrameRx_trying hon hs hm)
  have hkept : EventsKept (canCleared p s) (canAttempt p (canTaken p f s (canCleared p s))) :=
    (canTaken_eventsKept p f s _).trans (Frame.eventsKept (canAttempt_only _ _) (by simp))
  obtain ⟨x, hx⟩ := canOf_canAttempt_eq p (canTaken p f s (canCleared p s))
  obtain ⟨xs, n, ht⟩ := canOf_canTaken p f s (canCleared p s)
  rw [ht] at hx
  have hl := hkept _ _ hev
  refine ⟨_, hex, ?_⟩
  revert hfound hrate hstate hx hl
  generalize canAttempt p (canTaken p f s (canCleared p s)) = t
  generalize Claim.canOf p (canCleared p s) = c
  intro hfound hrate hstate hx hl
  rw [hx]
  exact ⟨hfound, hrate, hstate.trans hs, hl⟩

end

/-- A received frame enters the FIFO, is lost, is filtered out, or is the rate that was searched for. -/
theorem canFramesEnterTheFifo : Claim.CanFramesEnterTheFifo := by
  rintro s p f c rfl
  refine ⟨fun h => congrArg Host.Outcome.next (canFrameRx_deaf h), fun hon hs hm hr ht hb hsafe hrtr => ?_,
    canFrameRx_found, _, rfl, canOf_modCan p s _, modCan_only _ _ _⟩
  obtain ⟨hc, hev, hframe⟩ := canOf_canHeard hs hm hr ht hb
  have hrx : canFrameRx p f s = canAttempt p (canTaken p f s (canHeard p s)) := canFrameRx_active hon hs
  rw [canTaken_data hrtr hsafe] at hrx
  have hraw : (canHeard p s).raw = s.raw := (hframe .time (by simp)).2.1
  refine ⟨fun k hk hroom => ?_, fun k hk hfull => ?_, fun hk => ?_⟩
  · rw [hk] at hrx
    obtain ⟨⟨st, hle, x, hx⟩, hkept⟩ := canStored_room (f := f) hc hroom k
    refine ⟨_, congrArg Host.Outcome.next hrx, ⟨st, hraw ▸ hle, ?_⟩, ?_, ?_, (hkept .events (by simp)).trans hev,
      Frame.comp (hframe.mono (by simp)) hkept⟩
    all_goals
      dsimp only
      rw [hx]
      rfl
  · rw [hk] at hrx
    obtain ⟨⟨x, hx⟩, hl⟩ := canStored_full (f := f) hc hfull k
    refine ⟨_, congrArg Host.Outcome.next hrx, ?_, ?_, hl⟩
    all_goals
      dsimp only
      rw [hx]
      rfl
  · rw [hk] at hrx
    obtain ⟨x, hx⟩ := canOf_canAttempt_eq p (canHeard p s)
    rw [hc] at hx
    refine ⟨_, congrArg Host.Outcome.next hrx, ?_, (canAttempt_only p _ .events (by simp)).trans hev,
      .under (canAttempt_only _ _) (by simp) hframe⟩
    dsimp only
    rw [hx]
    rfl

end Sys2Proof.Machine
end

section
/-! PROOFS. The transmit buffers of a CAN port (O46; R293, R294; log entries 54 and 55). -/

namespace Sys2Proof.Machine

/-! ### Buffers -/

section
variable {p : Fin 2} {s : State} {b : Fin 8}

/-- The buffer that is changed. -/
theorem buf_modBuf_self (f : CanTx → CanTx) : (Claim.canOf p (modBuf p b f s)).buf[b] = f ((Claim.canOf p s).buf[b]) := by
  rw [canOf_modBuf]
  exact modAt_getElem_self _ _ _

/-- The other buffers stay. -/
theorem buf_modBuf_other {d : Fin 8} (h : d ≠ b) (f : CanTx → CanTx) :
    (Claim.canOf p (modBuf p b f s)).buf[d] = (Claim.canOf p s).buf[d] := by
  rw [canOf_modBuf]
  exact modAt_getElem_other _ _ _ _ h

/-- A mask of one bit names one buffer. -/
theorem bits8_single : ∀ b : Fin 8, bits8 (BitVec.ofNat 8 (2 ^ b.val)) = [b] := by decide

/-- A waiting buffer never starts while it is not pending. -/
theorem attempted_onBus_ne {c : CanState} (h : c.onBus = none) (hp : (c.buf[b]).pend = false) : (attempted c).onBus ≠ some b := by
  unfold attempted
  split
  · intro hw
    rw [pend_of_canWinner hw] at hp
    exact Bool.false_ne_true hp.symm
  · rw [h]
    exact Option.some_ne_none b ∘ Eq.symm

/-! ### Writes, requests and aborts (R294) -/

/-- A pending buffer refuses a write. -/
theorem canTxbufWrite_pending (h : ((Claim.canOf p s).buf[b]).pend = true) (w : Fin 32) (v : Word) :
    canTxbufWrite p b w v s = raise (canReg p) 9 s := if_pos h

/-- The first word of a buffer. -/
theorem canTxbufWrite_hdr (h : ((Claim.canOf p s).buf[b]).pend = false) {w : Fin 32} (hw : w.val = 0) (v : Word) :
    canTxbufWrite p b w v s = modBuf p b (fun x => { x with hdr := v &&& 0x1FFFFFFF }) s :=
  (if_neg (by have : (s.can[p].buf[b]).pend = false := h; rw [this]; exact Bool.false_ne_true)).trans (if_pos hw)

/-- The second word of a buffer. -/
theorem canTxbufWrite_info (h : ((Claim.canOf p s).buf[b]).pend = false) {w : Fin 32} (hw : w.val = 1) (v : Word) :
    canTxbufWrite p b w v s = modBuf p b (fun x => { x with info := v &&& 0x1E0F }) s :=
  (if_neg (by have : (s.can[p].buf[b]).pend = false := h; rw [this]; exact Bool.false_ne_true)).trans
    ((if_neg (by omega)).trans (if_pos hw))

/-- Words that hold nothing to write. -/
theorem canTxbufWrite_reserved (h : ((Claim.canOf p s).buf[b]).pend = false) {w : Fin 32} (h2 : 2 ≤ w.val) (h16 : w.val < 16)
    (v : Word) : canTxbufWrite p b w v s = s :=
  (if_neg (by have : (s.can[p].buf[b]).pend = false := h; rw [this]; exact Bool.false_ne_true)).trans
    ((if_neg (by omega)).trans ((if_neg (by omega)).trans (if_pos h16)))

/-- The data words of a buffer. -/
theorem canTxbufWrite_data (h : ((Claim.canOf p s).buf[b]).pend = false) {w : Fin 32} (hw : 16 ≤ w.val) (v : Word) :
    canTxbufWrite p b w v s = modBuf p b (fun x => { x with data := put' x.data (w.val - 16) v }) s :=
  (if_neg (by have : (s.can[p].buf[b]).pend = false := h; rw [this]; exact Bool.false_ne_true)).trans
    ((if_neg (by omega)).trans ((if_neg (by omega)).trans (if_neg (by omega))))

/-- A written buffer that is not pending takes the word, and the other buffers stay. -/
theorem canTxbufWrite_effect (h : ((Claim.canOf p s).buf[b]).pend = false) (w : Fin 32) (v : Word) :
    ∃ t, exec (.canTxbufWrite p b w v) s = .next t ∧
      (w.val = 0 → (Claim.canOf p t).buf[b] = { (Claim.canOf p s).buf[b] with hdr := v &&& 0x1FFFFFFF }) ∧
      (w.val = 1 → (Claim.canOf p t).buf[b] = { (Claim.canOf p s).buf[b] with info := v &&& 0x1E0F }) ∧
      (2 ≤ w.val → w.val < 16 → t = s) ∧
      (∀ k : Fin 16, w.val = k.val + 16 → ((Claim.canOf p t).buf[b]).data[k] = v ∧
        ((Claim.canOf p t).buf[b]).hdr = ((Claim.canOf p s).buf[b]).hdr) ∧
      (∀ d : Fin 8, d ≠ b → (Claim.canOf p t).buf[d] = (Claim.canOf p s).buf[d]) ∧ Frame [.can] s t := by
  rcases (by omega : w.val = 0 ∨ w.val = 1 ∨ (2 ≤ w.val ∧ w.val < 16) ∨ 16 ≤ w.val) with h0 | h1 | ⟨h2, h16⟩ | h16
  · refine ⟨_, congrArg Host.Outcome.next (canTxbufWrite_hdr h h0 v), fun _ => buf_modBuf_self _, fun _ => by omega,
      fun _ => by omega, fun k _ => by omega, fun d hd => buf_modBuf_other hd _, modBuf_only _ _ _ _⟩
  · refine ⟨_, congrArg Host.Outcome.next (canTxbufWrite_info h h1 v), fun _ => by omega, fun _ => buf_modBuf_self _,
      fun _ => by omega, fun k _ => by omega, fun d hd => buf_modBuf_other hd _, modBuf_only _ _ _ _⟩
  · exact ⟨_, congrArg Host.Outcome.next (canTxbufWrite_reserved h h2 h16 v), fun _ => by omega, fun _ => by omega,
      fun _ _ => rfl, fun k _ => by omega, fun _ _ => rfl, Frame.refl _ _⟩
  · refine ⟨_, congrArg Host.Outcome.next (canTxbufWrite_data h h16 v), fun _ => by omega, fun _ => by omega,
      fun _ _ => by omega, fun k hk => ?_, fun d hd => buf_modBuf_other hd _, modBuf_only _ _ _ _⟩
    rw [buf_modBuf_self]
    have hi : w.val - 16 = k.val := by omega
    refine ⟨?_, rfl⟩
    rw [hi]
    simp [put']

/-- A request of one buffer. -/
theorem canTxreq_single (p : Fin 2) (b : Fin 8) (s : State) :
    canTxreq p (BitVec.ofNat 8 (2 ^ b.val)) s = canAttempt p (canReq p b s) := by
  rw [canTxreq, bits8_single]
  rfl

/-- A classical frame that is requested becomes pending. -/
theorem canReq_classical (hp : ((Claim.canOf p s).buf[b]).pend = false) (h : bit ((Claim.canOf p s).buf[b]).info 11 = false) :
    canReq p b s = modBuf p b (fun x => { x with pend := true, done := false, failed := false, attempts := 0, abort := false }) s := by
  have hx : s.can[p].buf[b] = (Claim.canOf p s).buf[b] := rfl
  unfold canReq
  dsimp only
  rw [hx, hp, h]
  rfl

/-- An FD frame without FD_EN is refused. -/
theorem canReq_refused (hp : ((Claim.canOf p s).buf[b]).pend = false) (h : bit ((Claim.canOf p s).buf[b]).info 11 = true)
    (hf : canFlag p 0 s = false) : canReq p b s = raise (canReg p) 9 s := by
  have hx : s.can[p].buf[b] = (Claim.canOf p s).buf[b] := rfl
  unfold canReq
  dsimp only
  rw [hx, hp, h, hf]
  rfl

/-- The only requested buffer goes on the bus of an idle port. -/
theorem canTxreq_starts (hp : ∀ d : Fin 8, ((Claim.canOf p s).buf[d]).pend = false) (hb : (Claim.canOf p s).onBus = none)
    (hm : (Claim.canOf p s).mode = 0) (hs : (Claim.canOf p s).state = 2) (hi : bit ((Claim.canOf p s).buf[b]).info 11 = false) :
    ∃ t, exec (.canTxreq p (BitVec.ofNat 8 (2 ^ b.val))) s = .next t ∧ ((Claim.canOf p t).buf[b]).pend = true ∧
      ((Claim.canOf p t).buf[b]).done = false ∧ (Claim.canOf p t).onBus = some b ∧
      (∀ d : Fin 8, d ≠ b → (Claim.canOf p t).buf[d] = (Claim.canOf p s).buf[d]) ∧ Frame [.can] s t := by
  have hreq := canReq_classical (hp b) hi
  have hex := (canTxreq_single p b s).trans (congrArg (canAttempt p) hreq)
  have hself := buf_modBuf_self (p := p) (s := s) (b := b)
    (fun x => { x with pend := true, done := false, failed := false, attempts := 0, abort := false })
  have hother {d : Fin 8} (hd : d ≠ b) := buf_modBuf_other (p := p) (s := s) hd
    (fun x => { x with pend := true, done := false, failed := false, attempts := 0, abort := false })
  have hc := canOf_modBuf p s b (fun x => { x with pend := true, done := false, failed := false, attempts := 0, abort := false })
  have hatt : Claim.canOf p (canAttempt p (modBuf p b (fun x => { x with
      pend := true, done := false, failed := false, attempts := 0, abort := false }) s)) =
      { Claim.canOf p (modBuf p b (fun x => { x with
        pend := true, done := false, failed := false, attempts := 0, abort := false }) s) with onBus := some b } := by
    rw [canOf_canAttempt, attempted_ready (by rw [hc]; exact hb) (by rw [hc]; exact hm) (by rw [hc]; exact hs),
      canWinner_single (b := b) (by rw [hself]) fun d hd => by rw [hother hd, hp d]]
  refine ⟨_, congrArg Host.Outcome.next hex, ?_, ?_, ?_, fun d hd => ?_,
    .under (canAttempt_only _ _) (by simp) (modBuf_only _ _ _ _)⟩
  · rw [hatt]
    exact congrArg CanTx.pend hself
  · rw [hatt]
    exact congrArg CanTx.done hself
  · rw [hatt]
  · rw [hatt]
    exact hother hd

/-- An abort of one buffer. -/
theorem canTxabort_single (p : Fin 2) (b : Fin 8) (s : State) : canTxabort p (BitVec.ofNat 8 (2 ^ b.val)) s = canAbort p b s := by
  rw [canTxabort, bits8_single]
  rfl

/-- An abort of a buffer that is not pending does nothing. -/
theorem canAbort_idle (h : ((Claim.canOf p s).buf[b]).pend = false) : canAbort p b s = s :=
  if_pos (by have : (s.can[p].buf[b]).pend = false := h; rw [this]; rfl)

/-- An abort of the buffer on the bus waits for the end of its attempt. -/
theorem canAbort_onBus (h : ((Claim.canOf p s).buf[b]).pend = true) (hb : (Claim.canOf p s).onBus = some b) :
    canAbort p b s = modBuf p b (fun x => { x with abort := true }) s :=
  (if_neg (by have : (s.can[p].buf[b]).pend = true := h; rw [this]; exact Bool.false_ne_true)).trans (if_pos hb)

/-- An abort of a waiting buffer fails it. -/
theorem canAbort_waiting (h : ((Claim.canOf p s).buf[b]).pend = true) (hb : (Claim.canOf p s).onBus ≠ some b) :
    canAbort p b s = canFail p b s :=
  (if_neg (by have : (s.can[p].buf[b]).pend = true := h; rw [this]; exact Bool.false_ne_true)).trans (if_neg hb)

/-! ### A sent buffer (R293) -/

/-- A port whose buffer has been sent, before its next attempt. -/
def sentFrom (b : Fin 8) (st : Long) (c : CanState) : CanState :=
  { c with
    buf := modAt c.buf b fun x => { x with pend := false, done := true, stamp := st, abort := false }
    txErr := c.txErr - 1, ackRun := 0, alone := false, onBus := none }

/-- A sent buffer is done with its stamp, and the port looks for the next one. -/
theorem canTxDone_eq (hb : (Claim.canOf p s).onBus = some b) : ∃ m r, canTxDone p b s =
    canAttempt p (raise (canReg p) 0 (canSettle p (opEvent 7 p.val b.val r [] (send m
      (modCan p (fun c => { c with txErr := c.txErr - 1, ackRun := 0, alone := false, onBus := none })
        (modBuf p b (fun x => { x with pend := false, done := true, stamp := (sofStamp s).1, abort := false }) (sofStamp s).2)))))) :=
  ⟨_, _, if_neg (not_not_intro hb)⟩

/-- A sent buffer of an error active port. -/
theorem canTxDone_active (hb : (Claim.canOf p s).onBus = some b) (ht : (Claim.canOf p s).txErr ≤ 128)
    (hr : (Claim.canOf p s).rxErr < 128) :
    ∃ st : Long, st.toNat ≤ s.raw.toNat ∧ Latched (canReg p) 0 (canTxDone p b s) ∧
      Claim.canOf p (canTxDone p b s) = attempted { sentFrom b st (Claim.canOf p s) with state := 2 } := by
  obtain ⟨m, r, hex⟩ := canTxDone_eq hb
  have he : canErrState (sentFrom b (sofStamp s).1 (Claim.canOf p s)) = 2 :=
    canErrState_active (show (Claim.canOf p s).txErr - 1 < 128 by omega) hr
  have hset (now : Nat) : settled now (sentFrom b (sofStamp s).1 (Claim.canOf p s)) =
      { sentFrom b (sofStamp s).1 (Claim.canOf p s) with state := 2 } := by
    unfold settled
    rw [he]
    rfl
  have hsent : Claim.canOf p (opEvent 7 p.val b.val r [] (send m
      (modCan p (fun c => { c with txErr := c.txErr - 1, ackRun := 0, alone := false, onBus := none })
        (modBuf p b (fun x => { x with pend := false, done := true, stamp := (sofStamp s).1, abort := false }) (sofStamp s).2)))) =
      sentFrom b (sofStamp s).1 (Claim.canOf p s) := by
    rw [canOf_of_can p _ (opEvent_only _ _ _ _ _ _ .can (by simp)), canOf_of_can p _ (send_only _ _ .can (by simp)),
      canOf_modCan, canOf_modBuf, canOf_of_can p s (sofStamp_only s .can (by simp))]
    rfl
  refine ⟨(sofStamp s).1, sofStamp_le s, ?_, ?_⟩
  · rw [hex]
    exact Frame.eventsKept (canAttempt_only _ _) (by simp) _ _ (latched_raise _ _ _ (by omega))
  · rw [hex, canOf_canAttempt, canOf_raise, canOf_canSettle, hsent, hset]

end

/-- Transmit buffers are written, requested, sent and aborted. -/
theorem canBuffersAreSentOrFail : Claim.CanBuffersAreSentOrFail := by
  rintro s p b c rfl
  refine ⟨fun w v => ⟨fun hp => congrArg Host.Outcome.next (canTxbufWrite_pending hp w v), fun hp => canTxbufWrite_effect hp w v⟩,
    canTxreq_starts, fun hp hi hf => ?_, fun hb => congrArg Host.Outcome.next (if_pos hb), fun hb hs ht hr => ?_,
    fun hp => ?_, fun hp => ?_⟩
  · refine ⟨_, congrArg Host.Outcome.next ((canTxreq_single p b s).trans (congrArg _ (canReq_refused hp hi hf))),
      Frame.eventsKept (canAttempt_only _ _) (by simp) _ _ (latched_raise _ _ _ (by omega)), ?_⟩
    obtain ⟨x, hx⟩ := canOf_canAttempt_eq p (raise (canReg p) 9 s)
    rw [canOf_raise] at hx
    rw [hx]
  · obtain ⟨st, hst, hl, hc⟩ := canTxDone_active hb ht hr
    obtain ⟨x, hx⟩ := attempted_eq { sentFrom b st (Claim.canOf p s) with state := 2 }
    have hb' : (sentFrom b st (Claim.canOf p s)).buf[b] =
        { (Claim.canOf p s).buf[b] with pend := false, done := true, stamp := st, abort := false } := modAt_getElem_self _ _ _
    have hbuf : (Claim.canOf p (canTxDone p b s)).buf[b] =
        { (Claim.canOf p s).buf[b] with pend := false, done := true, stamp := st, abort := false } := by
      rw [hc, hx]
      exact hb'
    refine ⟨_, rfl, congrArg CanTx.pend hbuf, congrArg CanTx.done hbuf, ?_, ?_, ?_, hl⟩
    · rw [hbuf]
      exact hst
    · rw [hc, hx]
      rfl
    · rw [hc]
      exact attempted_onBus_ne rfl (congrArg CanTx.pend hb')
  · exact congrArg Host.Outcome.next ((canTxabort_single p b s).trans (canAbort_idle hp))
  · by_cases hb : (Claim.canOf p s).onBus = some b
    · refine ⟨_, congrArg Host.Outcome.next ((canTxabort_single p b s).trans (canAbort_onBus hp hb)),
        fun _ => buf_modBuf_self _, fun h => absurd hb h, ?_, modBuf_only _ _ _ _⟩
      rw [canOf_modBuf]
    · refine ⟨_, congrArg Host.Outcome.next ((canTxabort_single p b s).trans (canAbort_waiting hp hb)),
        fun h => absurd h hb, fun _ => buf_modBuf_self _, ?_, canFail_only _ _ _⟩
      rw [canFail, canOf_modBuf]

/-- Settles O46. -/
theorem canFramesAndBuffers : Obligations.CanFramesAndBuffers := ⟨canFramesEnterTheFifo, canBuffersAreSentOrFail⟩

end Sys2Proof.Machine
end

section
/-! PROOFS. Errors and modes of a CAN port (O47; R295 to R299; log entries 3 and 55). -/

namespace Sys2Proof.Machine

section
variable {p : Fin 2} {s : State}

/-! ### Error states (R296) -/

/-- A port whose receive counter reaches 128 is error passive. -/
theorem canErrState_passive {c : CanState} (ht : c.txErr < 128) (hr : 128 ≤ c.rxErr) : canErrState c = 3 := by
  unfold canErrState
  rw [if_neg (by omega), if_pos (by simp; omega)]

/-- A port that becomes error passive says so. -/
theorem canSettle_passive (hs : (Claim.canOf p s).state = 2) (he : canErrState (Claim.canOf p s) = 3) :
    Latched (canReg p) 2 (canSettle p s) := by
  have hx : (s.can[p]).state = 2 := hs
  have hy : canErrState s.can[p] = 3 := he
  have hset : ∃ u, canSettle p s = raiseIf false (canReg p) 3 (raiseIf true (canReg p) 2 u) := by
    unfold canSettle
    dsimp only
    rw [hx, hy]
    exact ⟨_, rfl⟩
  obtain ⟨u, hu⟩ := hset
  rw [hu]
  exact latched_raise _ _ _ (by omega)

/-- A port that goes off the bus says so. -/
theorem canSettle_busOff (hs : (Claim.canOf p s).state ≠ 4) (he : canErrState (Claim.canOf p s) = 4) :
    Latched (canReg p) 3 (canSettle p s) := by
  have hb : (canErrState s.can[p] == 4 && (s.can[p]).state != 4) = true := by
    have hx : (s.can[p]).state ≠ 4 := hs
    have hy : canErrState s.can[p] = 4 := he
    rw [hy, bne_iff_ne.mpr hx]
    rfl
  have hset : ∃ u, canSettle p s = raiseIf true (canReg p) 3 u := by
    unfold canSettle
    dsimp only
    rw [hb]
    exact ⟨_, rfl⟩
  obtain ⟨u, hu⟩ := hset
  rw [hu]
  exact latched_raise _ _ _ (by omega)

/-! ### Receive errors (R296) -/

/-- The guard of an error. -/
theorem canRuns (hon : canOn p s = true) (hs : (Claim.canOf p s).state = 2 ∨ (Claim.canOf p s).state = 3) :
    ¬ (!canOn p s || decide ((s.can[p]).state ≠ 2) && decide ((s.can[p]).state ≠ 3)) = true := by
  have hx : s.can[p] = Claim.canOf p s := rfl
  rw [hx, hon]
  rcases hs with h | h <;> rw [h] <;> decide

/-- A receive error counts on a running port, which takes the error state of its counters. -/
theorem canBusError_receive (hon : canOn p s = true) (hs : (Claim.canOf p s).state = 2) (e : CanError) (major : Bool) :
    canBusError p e none true major s =
      canSettle p (modCan p (fun c => { c with rxErr := min 255 (c.rxErr + if major then 8 else 1) })
        (modCan p (fun c => { c with lec := lecCode e }) s)) := if_neg (canRuns hon (.inl hs))

/-- The port before it takes the error state. -/
def receiveError (e : CanError) (major : Bool) (c : CanState) : CanState :=
  { c with lec := lecCode e, rxErr := min 255 (c.rxErr + if major then 8 else 1) }

/-- A receive error of an error active port: it stays active below 128, and becomes passive from there. -/
theorem exec_canBusError_receive (hon : canOn p s = true) (hs : (Claim.canOf p s).state = 2) (ht : (Claim.canOf p s).txErr < 128)
    (e : CanError) (major : Bool) :
    ((Claim.canOf p s).rxErr + (if major then 8 else 1) < 128 → ∃ t, exec (.canBusError p e none true major) s = .next t ∧
      (Claim.canOf p t).rxErr = (Claim.canOf p s).rxErr + (if major then 8 else 1) ∧ (Claim.canOf p t).state = 2 ∧
      (Claim.canOf p t).lec = lecCode e ∧ t.events = s.events ∧ Frame [.can] s t) ∧
    (128 ≤ (Claim.canOf p s).rxErr + (if major then 8 else 1) → ∃ t, exec (.canBusError p e none true major) s = .next t ∧
      (Claim.canOf p t).state = 3 ∧ Latched (Claim.canEv p) 2 t) := by
  have hex := canBusError_receive hon hs e major
  have hu : Claim.canOf p (modCan p (fun c => { c with rxErr := min 255 (c.rxErr + if major then 8 else 1) })
      (modCan p (fun c => { c with lec := lecCode e }) s)) = receiveError e major (Claim.canOf p s) := by
    rw [canOf_modCan, canOf_modCan]
    rfl
  have hrx : (receiveError e major (Claim.canOf p s)).rxErr = min 255 ((Claim.canOf p s).rxErr + if major then 8 else 1) := rfl
  refine ⟨fun hlow => ?_, fun hhigh => ?_⟩
  · have he := canErrState_active (c := receiveError e major (Claim.canOf p s)) ht (by rw [hrx]; omega)
    obtain ⟨hev, hframe⟩ := canSettle_active (p := p) (s := modCan p (fun c => { c with
      rxErr := min 255 (c.rxErr + if major then 8 else 1) }) (modCan p (fun c => { c with lec := lecCode e }) s)) (by rw [hu, he])
    refine ⟨_, congrArg Host.Outcome.next hex, ?_, ?_, ?_, hev, .under hframe (by simp) (.under (modCan_only _ _ _) (by simp) (modCan_only _ _ _))⟩
    · rw [canOf_canSettle, hu]
      exact hrx.trans (by omega)
    · rw [canOf_canSettle, hu]
      exact he
    · rw [canOf_canSettle, hu]
      rfl
  · have he := canErrState_passive (c := receiveError e major (Claim.canOf p s)) ht (by rw [hrx]; omega)
    refine ⟨_, congrArg Host.Outcome.next hex, ?_, canSettle_passive (by rw [hu]; exact hs) (by rw [hu, he])⟩
    rw [canOf_canSettle, hu]
    exact he

/-! ### Errors of the port's own attempt (R296 to R298) -/

/-- An error of the running attempt counts, and the attempt ends. -/
theorem canBusError_transmit (hon : canOn p s = true) (hs : (Claim.canOf p s).state = 2 ∨ (Claim.canOf p s).state = 3)
    {b : Fin 8} (hb : (Claim.canOf p s).onBus = some b) (e : CanError) (major : Bool) :
    canBusError p e (some b) true major s = canAttempt p (canRetry p b (canAlone p (canSettle p (canTxErr p e true
      (if ((decide (e = .bitRecessive) || decide (e = .bitDominant)) && true) = true
        then dataBitErr p (modCan p (fun c => { c with lec := lecCode e }) s)
        else modCan p (fun c => { c with lec := lecCode e }) s))))) :=
  (if_neg (canRuns hon hs)).trans (if_neg (not_not_intro hb))

/-- The watch for a lonely port changes ALONE alone. -/
theorem canOf_canAlone (p : Fin 2) (s : State) : ∃ x, Claim.canOf p (canAlone p s) = { Claim.canOf p s with alone := x } := by
  unfold canAlone
  split
  · rw [canOf_raise, canOf_modCan]
    exact ⟨_, rfl⟩
  · exact ⟨_, rfl⟩

/-- What is latched stays. -/
theorem canAlone_eventsKept (p : Fin 2) (s : State) : EventsKept s (canAlone p s) := by
  unfold canAlone
  split
  · exact .trans (Frame.eventsKept (modCan_only _ _ _) (by simp)) (raise_eventsKept _ _ (by omega) _)
  · exact fun _ _ h => h

/-- The 32nd attempt without acknowledgement is reported. -/
theorem canAlone_reports (h : (Claim.canOf p s).ackRun = 32) (ha : (Claim.canOf p s).alone = false) :
    (Claim.canOf p (canAlone p s)).alone = true ∧ Latched (canReg p) 4 (canAlone p s) := by
  have hx : s.can[p] = Claim.canOf p s := rfl
  have hal : canAlone p s = raise (canReg p) 4 (modCan p (fun c => { c with alone := true }) s) :=
    if_pos (by rw [hx, h, ha]; rfl)
  rw [hal]
  refine ⟨?_, latched_raise _ _ _ (by omega)⟩
  rw [canOf_raise, canOf_modCan]

/-- The end of a failed attempt changes the buffers and frees the bus. -/
theorem canOf_canRetry (p : Fin 2) (b : Fin 8) (s : State) :
    ∃ bs, Claim.canOf p (canRetry p b s) = { Claim.canOf p s with onBus := none, buf := bs } := by
  unfold canRetry
  dsimp only
  split
  · rw [canFail, canOf_modBuf, canOf_modCan, canOf_modBuf]
    exact ⟨_, rfl⟩
  · rw [canOf_modCan, canOf_modBuf]
    exact ⟨_, rfl⟩

/-- After the counters, the end of an attempt keeps the state of the port, whether it is alone and what is latched. -/
theorem canRetried (p : Fin 2) (b : Fin 8) (u : State) :
    (∃ bs x, Claim.canOf p (canAttempt p (canRetry p b u)) = { Claim.canOf p u with onBus := x, buf := bs }) ∧
    EventsKept u (canAttempt p (canRetry p b u)) := by
  obtain ⟨bs, hbs⟩ := canOf_canRetry p b u
  obtain ⟨x, hx⟩ := canOf_canAttempt_eq p (canRetry p b u)
  rw [hbs] at hx
  exact ⟨⟨bs, x, hx⟩, .trans (Frame.eventsKept (canRetry_only p b u) (by simp)) (Frame.eventsKept (canAttempt_only _ _) (by simp))⟩

/-- A port off the bus starts no attempt. -/
theorem canOf_canRetried_busOff {b : Fin 8} {u : State} (h : (Claim.canOf p u).state = 4) :
    (Claim.canOf p (canAttempt p (canRetry p b u))).onBus = none := by
  obtain ⟨bs, hbs⟩ := canOf_canRetry p b u
  have hno : attempted { Claim.canOf p u with onBus := none, buf := bs } = { Claim.canOf p u with onBus := none, buf := bs } := by
    have : ¬ (true && (Claim.canOf p u).mode == 0 && ((Claim.canOf p u).state == 2 || (Claim.canOf p u).state == 3)) = true := by
      rw [h]
      simp
    exact if_neg this
  rw [canOf_canAttempt, hbs, hno]

/-- A passive port whose transmit counter reaches 256 goes off the bus. -/
theorem exec_canBusError_busOff {b : Fin 8} (hon : canOn p s = true) (hs : (Claim.canOf p s).state = 3)
    (hb : (Claim.canOf p s).onBus = some b) (ht : 248 ≤ (Claim.canOf p s).txErr) :
    ∃ t, exec (.canBusError p .bitDominant (some b) true false) s = .next t ∧ (Claim.canOf p t).state = 4 ∧
      (Claim.canOf p t).onBus = none ∧ Latched (canReg p) 3 t ∧ Latched (canReg p) 5 t := by
  have hex : canBusError p .bitDominant (some b) true false s = canAttempt p (canRetry p b (canAlone p (canSettle p
      (canTxErr p .bitDominant true (dataBitErr p (modCan p (fun c => { c with lec := lecCode .bitDominant }) s)))))) :=
    canBusError_transmit hon (.inr hs) hb .bitDominant false
  have hbit : Claim.canOf p (dataBitErr p (modCan p (fun c => { c with lec := lecCode .bitDominant }) s)) =
      { Claim.canOf p s with lec := lecCode .bitDominant, bitErr := satInc (Claim.canOf p s).bitErr } := by
    rw [dataBitErr, canOf_raise, canOf_modCan, canOf_modCan]
  have hbitEv : Latched (canReg p) 5 (dataBitErr p (modCan p (fun c => { c with lec := lecCode .bitDominant }) s)) :=
    latched_raise _ _ _ (by omega)
  revert hex hbit hbitEv
  generalize dataBitErr p (modCan p (fun c => { c with lec := lecCode .bitDominant }) s) = u
  intro hex hbit hbitEv
  have hcount : (Claim.canOf p (canTxErr p .bitDominant true u)).txErr = 256 ∧
      (Claim.canOf p (canTxErr p .bitDominant true u)).state = 3 := by
    rw [canTxErr, canOf_modCan, hbit]
    exact ⟨Nat.min_eq_left (show 256 ≤ (Claim.canOf p s).txErr + 8 by omega), hs⟩
  obtain ⟨hcount, hst⟩ := hcount
  have he : canErrState (Claim.canOf p (canTxErr p .bitDominant true u)) = 4 := if_pos (Nat.le_of_eq hcount.symm)
  have hoff := canSettle_busOff (p := p) (by rw [hst]; decide) he
  obtain ⟨x, hx⟩ := canOf_canAlone p (canSettle p (canTxErr p .bitDominant true u))
  have hstate : (Claim.canOf p (canAlone p (canSettle p (canTxErr p .bitDominant true u)))).state = 4 := by
    rw [hx, canOf_canSettle]
    exact he
  obtain ⟨⟨bs, y, hy⟩, hkept⟩ := canRetried p b (canAlone p (canSettle p (canTxErr p .bitDominant true u)))
  have hev : EventsKept (canSettle p (canTxErr p .bitDominant true u)) _ := (canAlone_eventsKept p _).trans hkept
  refine ⟨_, congrArg Host.Outcome.next hex, ?_, canOf_canRetried_busOff hstate, hev _ _ hoff, ?_⟩
  · rw [hy]
    exact hstate
  · exact hev _ _ (canSettle_eventsKept _ _ _ _ (Frame.eventsKept (canTxErr_only p .bitDominant true u) (by simp) _ _ hbitEv))

/-- The 32nd attempt in a row without acknowledgement sets ALONE. -/
theorem exec_canBusError_alone {b : Fin 8} (hon : canOn p s = true) (hs : (Claim.canOf p s).state = 2)
    (hb : (Claim.canOf p s).onBus = some b) (hrun : (Claim.canOf p s).ackRun = 31) (ha : (Claim.canOf p s).alone = false) :
    ∃ t, exec (.canBusError p .ack (some b) true false) s = .next t ∧ (Claim.canOf p t).alone = true ∧ Latched (canReg p) 4 t := by
  have hex : canBusError p .ack (some b) true false s = canAttempt p (canRetry p b (canAlone p (canSettle p
      (canTxErr p .ack true (modCan p (fun c => { c with lec := lecCode .ack }) s))))) :=
    canBusError_transmit hon (.inl hs) hb .ack false
  have hsettled : (Claim.canOf p (canSettle p (canTxErr p .ack true (modCan p (fun c => { c with lec := lecCode .ack }) s)))).ackRun = 32 ∧
      (Claim.canOf p (canSettle p (canTxErr p .ack true (modCan p (fun c => { c with lec := lecCode .ack }) s)))).alone = false := by
    rw [canOf_canSettle, canTxErr, canOf_modCan, canOf_modCan]
    refine ⟨?_, ha⟩
    change satInc (Claim.canOf p s).ackRun = 32
    rw [hrun]
    decide
  obtain ⟨halone, hl⟩ := canAlone_reports hsettled.1 hsettled.2
  obtain ⟨⟨bs, x, hx⟩, hkept⟩ := canRetried p b
    (canAlone p (canSettle p (canTxErr p .ack true (modCan p (fun c => { c with lec := lecCode .ack }) s))))
  refine ⟨_, congrArg Host.Outcome.next hex, ?_, hkept _ _ hl⟩
  rw [hx]
  exact halone

/-! ### Bus-off, modes and integration (R295, R296, R299) -/

/-- Without permission a port stays off the bus. -/
theorem exec_canBusoffRecovered_waits (hf : canFlag p 3 s = false) (hr : (Claim.canOf p s).recovering = false) :
    exec (.canBusoffRecovered p) s = .next s :=
  congrArg Host.Outcome.next (if_neg (by have hx : (s.can[p]).recovering = false := hr; rw [hx, hf]; simp))

/-- A permitted recovery waits for its recessive bits and starts the counters over. -/
theorem exec_canBusoffRecovered_done (hs : (Claim.canOf p s).state = 4)
    (hr : canFlag p 3 s = true ∨ (Claim.canOf p s).recovering = true) : ∃ t, exec (.canBusoffRecovered p) s = .next t ∧
      (Claim.canOf p t).state = 2 ∧ (Claim.canOf p t).txErr = 0 ∧ (Claim.canOf p t).rxErr = 0 ∧
      t.now = max s.now ((Claim.canOf p s).waitFrom + 1408 * canBitTicks p s) ∧ Frame [.can, .time] s t := by
  have hex : canRecovered p s = canAttempt p (modCan p (fun c => { c with state := 2, txErr := 0, rxErr := 0, recovering := false })
      (elapseTo ((Claim.canOf p s).waitFrom + 128 * 11 * canBitTicks p s) s)) := if_pos (by
    have hx : s.can[p] = Claim.canOf p s := rfl
    rw [hx, hs]
    rcases hr with h | h <;> simp [h])
  obtain ⟨x, hx⟩ := canOf_canAttempt_eq p (modCan p (fun c => { c with state := 2, txErr := 0, rxErr := 0, recovering := false })
      (elapseTo ((Claim.canOf p s).waitFrom + 128 * 11 * canBitTicks p s) s))
  rw [canOf_modCan] at hx
  refine ⟨_, congrArg Host.Outcome.next hex, ?_, ?_, ?_, ?_,
    .under (canAttempt_only _ _) (by simp) (.under (modCan_only _ _ _) (by simp) ((elapseTo_only _ _).mono (by simp)))⟩
  · rw [hx]
  · rw [hx]
  · rw [hx]
  · rw [(canAttempt_only _ _).now_eq (by simp), (modCan_only _ _ _).now_eq (by simp), elapseTo_now_eq_max]

/-- CAN_CTL.RECOVER begins a recovery that AUTO_REC does not begin itself. -/
theorem exec_canRecover_begins (hs : (Claim.canOf p s).state = 4) (hr : (Claim.canOf p s).recovering = false)
    (hf : canFlag p 3 s = false) : ∃ t, exec (.canRecover p) s = .next t ∧
      Claim.canOf p t = { Claim.canOf p s with recovering := true, waitFrom := s.now } ∧ Frame [.can] s t := by
  have hex : canRecover p s = modCan p (fun c => { c with recovering := true, waitFrom := s.now }) s := if_neg (by
    have hx : s.can[p] = Claim.canOf p s := rfl
    rw [hx, hs, hr, hf]
    decide)
  exact ⟨_, congrArg Host.Outcome.next hex, canOf_modCan p s _, modCan_only _ _ _⟩

/-- Elsewhere it does nothing. -/
theorem exec_canRecover_idle (h : (Claim.canOf p s).state ≠ 4 ∨ (Claim.canOf p s).recovering = true ∨ canFlag p 3 s = true) :
    exec (.canRecover p) s = .next s := congrArg Host.Outcome.next (if_pos (by
  have hx : s.can[p] = Claim.canOf p s := rfl
  rw [hx]
  rcases h with h | h | h <;> simp [h]))

/-- The rates are tried in turn. -/
theorem nextRate : ∀ r : Fin 5, (if r == 4 then (0 : Fin 5) else Fin.ofNat 5 (r.val + 1)).val = (r.val + 1) % 5 := by decide

/-- A rate is tried for 1 s. -/
theorem rateTicks_try : secs 1 = 400000000 := rfl

/-- The next rate is tried from now on, and the last one reports the failure. -/
def rateTried (p : Fin 2) (r : Fin 5) (u : State) : State :=
  raiseIf (r == 4) (canReg p) 8
    (modCan p (fun x => { x with tryRate := if r == 4 then 0 else Fin.ofNat 5 (x.tryRate.val + 1), tryAt := u.now }) u)

/-- What the next rate changes. -/
theorem rateTried_effect (p : Fin 2) (r : Fin 5) (u : State) (hr : (Claim.canOf p u).tryRate = r) :
    (Claim.canOf p (rateTried p r u)).tryRate.val = (r.val + 1) % 5 ∧ (rateTried p r u).now = u.now ∧
    (r = 4 → Latched (canReg p) 8 (rateTried p r u)) ∧ (r ≠ 4 → (rateTried p r u).events = u.events) := by
  refine ⟨?_, (raiseIf_only _ _ _ _).now_eq (by simp), fun h => ?_, fun h => ?_⟩
  · rw [rateTried, canOf_raiseIf, canOf_modCan, hr]
    exact nextRate _
  · rw [h]
    exact latched_raise _ _ _ (by omega)
  · rw [rateTried, beq_false_of_ne h]
    rfl

/-- A rate that was tried for 1 s gives way to the next one, and the last one reports the failure. -/
theorem exec_rateTryTimeout_next (hon : canOn p s = true) (hm : (Claim.canOf p s).mode = 2) (hf : (Claim.canOf p s).found = false)
    (hs : (Claim.canOf p s).state ≠ 5) : ∃ t, exec (.rateTryTimeout p) s = .next t ∧
      (Claim.canOf p t).tryRate.val = ((Claim.canOf p s).tryRate.val + 1) % 5 ∧
      t.now = max s.now ((Claim.canOf p s).tryAt + 400000000) ∧
      ((Claim.canOf p s).tryRate = 4 → Latched (canReg p) 8 t) ∧ ((Claim.canOf p s).tryRate ≠ 4 → t.events = s.events) := by
  have hguard : ¬ (!canOn p s || decide ((s.can[p]).mode ≠ 2) || (s.can[p]).found || decide ((s.can[p]).state = 5)) = true := by
    have hx : s.can[p] = Claim.canOf p s := rfl
    rw [hx, hon, hm, hf]
    simp [hs]
  have hex : rateTry p s = rateTried p (Claim.canOf p s).tryRate (elapseTo ((Claim.canOf p s).tryAt + secs 1) s) := if_neg hguard
  obtain ⟨hrate, hnow, hlast, hother⟩ := rateTried_effect p (Claim.canOf p s).tryRate
    (elapseTo ((Claim.canOf p s).tryAt + secs 1) s) (by rw [canOf_of_can p s (elapseTo_only _ s .can (by simp))])
  refine ⟨_, congrArg Host.Outcome.next hex, hrate, ?_, hlast, fun h => ?_⟩
  · rw [hnow, elapseTo_now_eq_max, rateTicks_try]
  · rw [hother h, elapseTo_only _ s .events (by simp)]

/-- A port that has integrated takes the error state of its counters. -/
theorem exec_canIntegrationDone_done (hs : (Claim.canOf p s).state = 1) : ∃ t, exec (.canIntegrationDone p) s = .next t ∧
    (Claim.canOf p t).state = canErrState (Claim.canOf p s) ∧
    t.now = max s.now ((Claim.canOf p s).waitFrom + 11 * canBitTicks p s) ∧ Frame [.can, .time] s t := by
  have hex : canIntegrated p s = canAttempt p (modCan p (fun c => { c with state := canErrState c })
      (elapseTo ((Claim.canOf p s).waitFrom + 11 * canBitTicks p s) s)) := if_pos hs
  obtain ⟨x, hx⟩ := canOf_canAttempt_eq p (modCan p (fun c => { c with state := canErrState c })
      (elapseTo ((Claim.canOf p s).waitFrom + 11 * canBitTicks p s) s))
  rw [canOf_modCan, canOf_of_can p s (elapseTo_only _ s .can (by simp))] at hx
  refine ⟨_, congrArg Host.Outcome.next hex, ?_, ?_,
    .under (canAttempt_only _ _) (by simp) (.under (modCan_only _ _ _) (by simp) ((elapseTo_only _ _).mono (by simp)))⟩
  · rw [hx]
  · rw [(canAttempt_only _ _).now_eq (by simp), (modCan_only _ _ _).now_eq (by simp), elapseTo_now_eq_max]

/-- The values of CAN_CTL that name a mode alone. -/
theorem modeWord_fields : ∀ m : Fin 4, bit (BitVec.ofNat 32 m.val) 4 = false ∧ bit (BitVec.ofNat 32 m.val) 8 = false ∧
    (BitVec.ofNat 2 (fld (BitVec.ofNat 32 m.val) 0 2)).toNat = m.val ∧
    canEntry (BitVec.ofNat 2 (fld (BitVec.ofNat 32 m.val) 0 2)) = if m = 3 then 0 else 1 := by decide

/-- A port that starts a mode over. -/
def modeStarted (mode : BitVec 2) (now : Nat) (live : Bool) (c : CanState) : CanState :=
  { c with
    mode := mode, found := false, tryRate := 0, tryAt := now, waitFrom := now
    rate := if mode = 0 && c.useDet && c.detRate ≠ 0 then c.detRate else c.rate
    state := if !live then 0 else if c.state = 5 then 5 else canEntry mode }

/-- A port without an attempt takes a changed mode. -/
theorem canOf_canSetMode {v : Word} (h : BitVec.ofNat 2 (fld v 0 2) ≠ (Claim.canOf p s).mode) (hb : (Claim.canOf p s).onBus = none) :
    Claim.canOf p (canSetMode p v s) = modeStarted (BitVec.ofNat 2 (fld v 0 2)) s.now (canOn p s)
      { Claim.canOf p s with useDet := bit v 8 } := by
  have hset : canSetMode p v s = modCan p (modeStarted (BitVec.ofNat 2 (fld v 0 2)) s.now (canOn p s))
      (canLost p (modCan p (fun c => { c with useDet := bit v 8 }) s)) := if_neg h
  have hlost : canLost p (modCan p (fun c => { c with useDet := bit v 8 }) s) = modCan p (fun c => { c with useDet := bit v 8 }) s := by
    have hx : (modCan p (fun c => { c with useDet := bit v 8 }) s).can[p] =
        Claim.canOf p (modCan p (fun c => { c with useDet := bit v 8 }) s) := rfl
    unfold canLost
    rw [hx, canOf_modCan, hb]
  rw [hset, hlost, canOf_modCan, canOf_modCan]

/-- A changed mode starts over. -/
theorem exec_canModeWrite_change (m : Fin 4) (hm : (Claim.canOf p s).mode.toNat ≠ m.val) (hon : canOn p s = true)
    (hs : (Claim.canOf p s).state ≠ 5) (hb : (Claim.canOf p s).onBus = none) :
    ∃ t, exec (.canModeWrite p (BitVec.ofNat 32 m.val)) s = .next t ∧ (Claim.canOf p t).mode.toNat = m.val ∧
      (Claim.canOf p t).state = (if m = 3 then 0 else 1) ∧ (Claim.canOf p t).found = false ∧ (Claim.canOf p t).tryRate = 0 ∧
      (Claim.canOf p t).useDet = false ∧ (Claim.canOf p t).buf = (Claim.canOf p s).buf ∧ Frame [.can] s t := by
  obtain ⟨h4, h8, hmode, hentry⟩ := modeWord_fields m
  have hctl : canCtl p (BitVec.ofNat 32 m.val) s = canSetMode p (BitVec.ofNat 32 m.val) s := by
    rw [canCtl, h4]
    rfl
  refine ⟨_, congrArg Host.Outcome.next hctl, ?_⟩
  revert h8 hmode hentry
  generalize BitVec.ofNat 32 m.val = v
  intro h8 hmode hentry
  have hne : BitVec.ofNat 2 (fld v 0 2) ≠ (Claim.canOf p s).mode := fun h => hm (by rw [← hmode, h])
  have hstate : (Claim.canOf p (canSetMode p v s)).state = canEntry (BitVec.ofNat 2 (fld v 0 2)) := by
    rw [canOf_canSetMode hne hb, hon]
    exact if_neg hs
  have hc := canOf_canSetMode hne hb
  exact ⟨by rw [hc]; exact hmode, hstate.trans hentry, by rw [hc]; rfl, by rw [hc]; rfl, by rw [hc]; exact h8,
    by rw [hc]; rfl, canSetMode_only _ _ _⟩

end

/-- Settles O47, clause by clause. -/
theorem canErrorsAndModesMoveThePort : Obligations.CanErrorsAndModesMoveThePort := by
  rintro s p c rfl
  refine ⟨exec_canBusError_receive, fun b hon hs hb ht _ => exec_canBusError_busOff hon hs hb ht,
    fun b hon hs hb hrun ha => exec_canBusError_alone hon hs hb hrun ha, exec_canBusoffRecovered_done,
    fun _ hf hr => exec_canBusoffRecovered_waits hf hr, exec_canRecover_begins, exec_canRecover_idle,
    exec_canModeWrite_change, exec_rateTryTimeout_next, fun hs => ?_, fun hs => congrArg Host.Outcome.next (if_neg hs)⟩
  obtain ⟨t, hex, hstate, hnow, hframe⟩ := exec_canIntegrationDone_done hs
  refine ⟨t, hex, ?_, hnow, hframe⟩
  rw [hstate, canErrState]
  simp

end Sys2Proof.Machine
end

section
/-! PROOFS. Field inputs, the field supply and the barrier link (O48; R303 to R308; log entry 3). -/

namespace Sys2Proof.Machine

/-! ### One input and one output -/

section
variable (s : State)

/-- The input that is changed. -/
theorem inOf_modIn_self (n : Fin 16) (f : FieldIn → FieldIn) : Claim.inOf n (modIn n f s) = f (Claim.inOf n s) :=
  modAt_getElem_self _ _ _

/-- The other inputs stay. -/
theorem inOf_modIn_other {n k : Fin 16} (h : k ≠ n) (f : FieldIn → FieldIn) : Claim.inOf k (modIn n f s) = Claim.inOf k s :=
  modAt_getElem_other _ _ _ _ h

/-- The output that is changed. -/
theorem outOf_modDq_self (j : Fin 8) (f : FieldOut → FieldOut) : Claim.outOf j (modDq j f s) = f (Claim.outOf j s) :=
  modAt_getElem_self _ _ _

/-- The other outputs stay. -/
theorem outOf_modDq_other {j k : Fin 8} (h : k ≠ j) (f : FieldOut → FieldOut) : Claim.outOf k (modDq j f s) = Claim.outOf k s :=
  modAt_getElem_other _ _ _ _ h

/-- A step that leaves the field side leaves its inputs. -/
theorem inOf_of_fio {t : State} (h : t.fio = s.fio) (n : Fin 16) : Claim.inOf n t = Claim.inOf n s := by
  unfold Claim.inOf
  rw [h]

/-- A step that leaves the field side leaves its outputs. -/
theorem outOf_of_fio {t : State} (h : t.fio = s.fio) (j : Fin 8) : Claim.outOf j t = Claim.outOf j s := by
  unfold Claim.outOf
  rw [h]

/-- An event leaves the field side. -/
theorem fio_raise (r : EvReg) (k : Nat) : (raise r k s).fio = s.fio := raise_only r k s .fio (by simp)

/-- A conditional event leaves the field side. -/
theorem fio_raiseIf (b : Bool) (r : EvReg) (k : Nat) : (raiseIf b r k s).fio = s.fio := raiseIf_only b r k s .fio (by simp)

/-- Time passes beside the field side. -/
theorem fio_elapseTo (n : Nat) : (elapseTo n s).fio = s.fio := elapseTo_only n s .fio (by simp)

/-- Who owns an output stands in the running image. -/
theorem dqOwned_of_key {t : State} (h : t.key = s.key) (j : Fin 8) : dqOwned j t = dqOwned j s := by
  rw [dqOwned, dqOwned, hasRec_of_key h, hasRec_of_key h, recD_of_key h, recD_of_key h]

/-- An input is valid where the field side runs with a link and a supply, its filter has passed and its wire is whole. -/
theorem diValid_eq (n : Fin 16) :
    diValid n s = (s.fio.on && fsOk s && s.fio.linkOk && (Claim.inOf n s).passed && !(Claim.inOf n s).wb) := rfl

/-- A broken wire makes the input invalid. -/
theorem diValid_broken {n : Fin 16} (h : (Claim.inOf n s).wb = true) : diValid n s = false := by
  rw [diValid_eq, h]
  exact Bool.and_false _

/-- So does a filter that has not passed. -/
theorem diValid_unfiltered {n : Fin 16} (h : (Claim.inOf n s).passed = false) : diValid n s = false := by
  rw [diValid_eq, h, Bool.and_false, Bool.false_and]

/-- So does a broken link. -/
theorem diValid_unlinked {n : Fin 16} (h : s.fio.linkOk = false) : diValid n s = false := by
  rw [diValid_eq, h, Bool.and_false, Bool.false_and, Bool.false_and]

end

/-! ### Inputs (R306 to R308) -/

/-- An input that has held a level for its filter time. -/
def inputHeld (b : Bool) (st : Long) (x : FieldIn) : FieldIn :=
  let y := { x with passed := true }
  if b = x.level then y
  else if b then { y with level := true, riseTs := fieldStamp st, edges := satInc x.edges }
  else { y with level := false, fallTs := fieldStamp st, edges := satInc x.edges }

/-- An input after its current was judged. -/
def wireSeen (broken : Bool) (ua us0 : Nat) (x : FieldIn) : FieldIn :=
  { x with
    ua := BitVec.ofNat 12 (min 4095 ua)
    wb := if broken then true else if decide (80 < ua) && decide (5000 ≤ us0) then false else x.wb }

/-- A broken wire. -/
theorem wireSeen_broken {ua : Nat} (h : ua < 4096) (us0 : Nat) (x : FieldIn) :
    wireSeen true ua us0 x = { x with wb := true, ua := BitVec.ofNat 12 ua } := by
  rw [wireSeen, if_pos rfl, Nat.min_eq_right (by omega : ua ≤ 4095)]

/-- A whole wire. -/
theorem wireSeen_whole {ua us0 : Nat} (h80 : 80 < ua) (h : ua < 4096) (h5 : 5000 ≤ us0) (x : FieldIn) :
    wireSeen false ua us0 x = { x with wb := false, ua := BitVec.ofNat 12 ua } := by
  rw [wireSeen, if_neg Bool.false_ne_true, if_pos (by simp [h80, h5]), Nat.min_eq_right (by omega : ua ≤ 4095)]

/-- A current that has not stood long enough. -/
theorem wireSeen_short {ua us0 : Nat} (h : ua < 4096) (h5 : us0 < 5000) (x : FieldIn) :
    wireSeen false ua us0 x = { x with ua := BitVec.ofNat 12 ua } := by
  rw [wireSeen, if_neg Bool.false_ne_true, if_neg (by simp; omega), Nat.min_eq_right (by omega : ua ≤ 4095)]

section
variable {s : State} {n : Fin 16}

/-- The supply is in Normal or Warning. -/
theorem fsOk_of_lt (h : s.fio.fs.val < 2) : fsOk s = true := decide_eq_true h

/-- A level that was not held long enough changes nothing. -/
theorem diChange_short {us0 : Nat} (h : us0 < fioUs (diFilt n s) s) (b : Bool) (st : Long) : diChange n b us0 st s = s :=
  if_pos (by simp [h])

/-- A held level of an input whose filter has passed. -/
theorem diChange_passed (hon : s.fio.on = true) (hlink : s.fio.linkOk = true) (hfs : s.fio.fs.val < 2) {us0 : Nat}
    (hus : fioUs (diFilt n s) s ≤ us0) (hp : (Claim.inOf n s).passed = true) (b : Bool) (st : Long) :
    diChange n b us0 st s = modIn n (inputHeld b st) s := by
  have hx : (s.fio.inp[n]).passed = true := hp
  have hdi : diChange n b us0 st s = modIn n (inputHeld b st) (if (s.fio.inp[n]).passed then s
      else elapseTo (s.fio.recoverAt + us (fioUs (diFilt n s) s)) s) :=
    if_neg (by simp [hon, hlink, fsOk_of_lt hfs, hus])
  rw [hdi, if_pos hx]

/-- The first change after a recovery waits for a full filter time. -/
theorem diChange_first (hon : s.fio.on = true) (hlink : s.fio.linkOk = true) (hfs : s.fio.fs.val < 2) {us0 : Nat}
    (hus : fioUs (diFilt n s) s ≤ us0) (hp : (Claim.inOf n s).passed = false) (b : Bool) (st : Long) :
    diChange n b us0 st s = modIn n (inputHeld b st) (elapseTo (s.fio.recoverAt + us (fioUs (diFilt n s) s)) s) := by
  have hx : ¬ (s.fio.inp[n]).passed = true := by
    have : (s.fio.inp[n]).passed = false := hp
    rw [this]
    exact Bool.false_ne_true
  have hdi : diChange n b us0 st s = modIn n (inputHeld b st) (if (s.fio.inp[n]).passed then s
      else elapseTo (s.fio.recoverAt + us (fioUs (diFilt n s) s)) s) :=
    if_neg (by simp [hon, hlink, fsOk_of_lt hfs, hus])
  rw [hdi, if_neg hx]

/-- A held level passes the filter and is the input's level. -/
theorem inputHeld_level (b : Bool) (st : Long) (x : FieldIn) : (inputHeld b st x).passed = true ∧ (inputHeld b st x).level = b := by
  unfold inputHeld
  dsimp only
  split
  · next h => exact ⟨rfl, h.symm⟩
  · split
    · next h => exact ⟨rfl, h.symm⟩
    · next h => exact ⟨rfl, (Bool.eq_false_iff.mpr h).symm⟩

/-- The level that stood already changes nothing. -/
theorem inputHeld_same {x : FieldIn} (hp : x.passed = true) (st : Long) : inputHeld x.level st x = x := by
  refine (if_pos rfl).trans ?_
  rw [← hp]

/-- A rising edge. -/
theorem inputHeld_rise {x : FieldIn} (hp : x.passed = true) (hl : x.level = false) (st : Long) :
    inputHeld true st x = { x with level := true, riseTs := fieldStamp st, edges := satInc x.edges } := by
  refine (if_neg (by rw [hl]; decide)).trans ((if_pos rfl).trans ?_)
  rw [← hp]

/-- A falling edge. -/
theorem inputHeld_fall {x : FieldIn} (hp : x.passed = true) (hl : x.level = true) (st : Long) :
    inputHeld false st x = { x with level := false, fallTs := fieldStamp st, edges := satInc x.edges } := by
  refine (if_neg (by rw [hl]; decide)).trans ((if_neg Bool.false_ne_true).trans ?_)
  rw [← hp]

/-- The current of an input, and what it says of its wire. -/
theorem wireBreak_eq (hon : s.fio.on = true) (ua us0 : Nat) : wireBreak n ua us0 s =
    raiseIf (wbEn n s && decide (ua < 35) && decide (5000 ≤ us0) && !(Claim.inOf n s).wb) .fio 3
      (modIn n (wireSeen (wbEn n s && decide (ua < 35) && decide (5000 ≤ us0)) ua us0) s) := by
  refine if_neg ?_
  rw [hon]
  decide

end

/-- Inputs follow their filters and their wires. -/
theorem fieldInputsFollowTheirFilters : Claim.FieldInputsFollowTheirFilters := by
  rintro s n x rfl
  refine ⟨fun b us0 st h => congrArg Host.Outcome.next (diChange_short h b st), fun hon hlink hfs us0 st hus =>
    ⟨fun hp b => ?_, fun b hp hb => ?_, fun hp hl => ?_, fun hp hl => ?_⟩, fun hon ua us0 => ⟨fun hen hua h5 => ?_,
    fun h80 hua h5 => ?_, fun h5 hua => ?_⟩⟩
  · obtain ⟨hpass, hlevel⟩ := inputHeld_level b st (Claim.inOf n (elapseTo (s.fio.recoverAt + us (fioUs (diFilt n s) s)) s))
    refine ⟨_, congrArg Host.Outcome.next (diChange_first hon hlink hfs hus hp b st), ?_, ?_, ?_,
      .under (modIn_only _ _ _) (by simp) ((elapseTo_only _ _).mono (by simp))⟩
    · rw [(modIn_only _ _ _).now_eq (by simp), elapseTo_now_eq_max, us]
    · rw [inOf_modIn_self, hpass]
    · rw [inOf_modIn_self, hlevel]
  · refine ⟨_, congrArg Host.Outcome.next (diChange_passed hon hlink hfs hus hp b st), ?_, modIn_only _ _ _⟩
    rw [inOf_modIn_self, hb, inputHeld_same hp]
  · refine ⟨_, congrArg Host.Outcome.next (diChange_passed hon hlink hfs hus hp true st), ?_,
      fun k hk => inOf_modIn_other s hk _, modIn_only _ _ _⟩
    rw [inOf_modIn_self, inputHeld_rise hp hl, fieldStamp]
  · refine ⟨_, congrArg Host.Outcome.next (diChange_passed hon hlink hfs hus hp false st), ?_, modIn_only _ _ _⟩
    rw [inOf_modIn_self, inputHeld_fall hp hl, fieldStamp]
  · have hbroken : (wbEn n s && decide (ua < 35) && decide (5000 ≤ us0)) = true := by simp [hen, hua, h5]
    have hex := wireBreak_eq (n := n) hon ua us0
    rw [hbroken] at hex
    have hin : Claim.inOf n (wireBreak n ua us0 s) = { Claim.inOf n s with wb := true, ua := BitVec.ofNat 12 ua } := by
      rw [hex, inOf_of_fio _ (fio_raiseIf _ _ _ _), inOf_modIn_self, wireSeen_broken (by omega)]
    refine ⟨_, rfl, hin, fun hwb => ?_, fun hwb => ?_, diValid_broken _ (congrArg FieldIn.wb hin)⟩
    · rw [hex, hwb]
      exact latched_raise _ _ _ (by omega)
    · rw [hex, hwb]
      rfl
  · have hbroken : (wbEn n s && decide (ua < 35) && decide (5000 ≤ us0)) = false := by simp; omega
    have hex := wireBreak_eq (n := n) hon ua us0
    rw [hbroken] at hex
    exact ⟨_, congrArg Host.Outcome.next hex, (inOf_modIn_self s n _).trans (wireSeen_whole h80 hua h5 _), modIn_only _ _ _⟩
  · have hbroken : (wbEn n s && decide (ua < 35) && decide (5000 ≤ us0)) = false := by simp; omega
    have hex := wireBreak_eq (n := n) hon ua us0
    rw [hbroken] at hex
    exact ⟨_, congrArg Host.Outcome.next hex, (inOf_modIn_self s n _).trans (wireSeen_short hua h5 _), modIn_only _ _ _⟩

end Sys2Proof.Machine
end

section
/-! PROOFS. The barrier link and the field supply (O48; R303 to R305; log entry 3). -/

namespace Sys2Proof.Machine

/-! ### The barrier exchange (R303) -/

/-- The field side reads back one pin. -/
def outReadBack (ps : List Int) (j : Fin 8) (s : State) : State :=
  modDq j (fun o => { o with readback := decide (9000 < ps.getD j.val 0), ext := o.ext && decide (7000 ≤ ps.getD j.val 0) }) s

section
variable {s : State}

/-- Every pin is read back. -/
theorem foldS_outReadBack (ps : List Int) (j : Fin 8) :
    (Claim.outOf j (foldS (idx 8) (outReadBack ps) s)).readback = decide (9000 < ps.getD j.val 0) := by
  refine foldS_establishes (fun t => (Claim.outOf j t).readback = decide (9000 < ps.getD j.val 0)) (fun _ => True) j _ _ _
    (fun _ _ _ => trivial) (fun k t ht => ?_) (fun t _ => ?_) (mem_idx j) trivial
  · by_cases hk : j = k
    · subst hk
      rw [outReadBack, outOf_modDq_self]
    · rw [outReadBack, outOf_modDq_other _ hk]
      exact ht
  · rw [outReadBack, outOf_modDq_self]

/-- Reading the pins back leaves the link. -/
theorem foldS_outReadBack_link (ps : List Int) : (foldS (idx 8) (outReadBack ps) s).fio.linkOk = s.fio.linkOk ∧
    (foldS (idx 8) (outReadBack ps) s).fio.lastExch = s.fio.lastExch :=
  ⟨foldS_keeps (fun t => t.fio.linkOk) _ _ _ fun _ _ => rfl, foldS_keeps (fun t => t.fio.lastExch) _ _ _ fun _ _ => rfl⟩

/-- What reading the pins back changes. -/
theorem foldS_outReadBack_only (ps : List Int) : Frame [.fio] s (foldS (idx 8) (outReadBack ps) s) :=
  Frame.foldS _ _ _ fun _ _ => modDq_only _ _ _

/-- An exchange keeps the link. -/
theorem exec_fioExchange_links (hon : s.fio.on = true) (ps : List Int) (j : Fin 8) : ∃ t, exec (.fioExchange ps) s = .next t ∧
    t.fio.linkOk = true ∧ t.fio.lastExch = t.now ∧ (Claim.outOf j t).readback = decide (9000 < ps.getD j.val 0) ∧
    Frame [.fio, .time] s t := by
  obtain ⟨u, hu, hex⟩ : ∃ u, Frame [.time] s u ∧ fioExchange ps s = foldS (idx 8) (outReadBack ps)
      (modFio (fun x => { x with linkOk := true, lastExch := u.now }) u) :=
    ⟨_, periodic_only tkFio _ s, if_neg (by rw [hon]; decide)⟩
  obtain ⟨hlink, hlast⟩ := foldS_outReadBack_link (s := modFio (fun x => { x with linkOk := true, lastExch := u.now }) u) ps
  refine ⟨_, congrArg Host.Outcome.next hex, hlink, hlast.trans ?_, foldS_outReadBack ps j,
    .under (foldS_outReadBack_only ps) (by simp) (.under (modFio_only _ _) (by simp) (hu.mono (by simp)))⟩
  rw [(foldS_outReadBack_only ps).now_eq (by simp)]
  rfl

/-- 1 ms without an exchange breaks the link. -/
theorem exec_fioLink_breaks (hon : s.fio.on = true) (hl : s.fio.linkOk = true) : ∃ t, exec .fioLink s = .next t ∧
    t.fio.linkOk = false ∧ Latched .fio 10 t ∧ t.now = max s.now (s.fio.lastExch + 400000) ∧
    (∀ n : Fin 16, diValid n t = false) := by
  have hex : exec .fioLink s = .next (raise .fio 10 (modFio (fun x => { x with
      linkOk := false, testBusy := false, out := x.out.map fun o => { o with limit := false } })
      (elapseTo (s.fio.lastExch + ms 1) s))) := congrArg Host.Outcome.next (if_pos (by rw [hon, hl]; rfl))
  have hlink : (raise .fio 10 (modFio (fun x => { x with
      linkOk := false, testBusy := false, out := x.out.map fun o => { o with limit := false } })
      (elapseTo (s.fio.lastExch + ms 1) s))).fio.linkOk = false := by
    rw [fio_raise, modFio_fio]
  refine ⟨_, hex, hlink, latched_raise _ _ _ (by omega), ?_, fun n => diValid_unlinked _ hlink⟩
  rw [(raise_only _ _ _).now_eq (by simp), (modFio_only _ _).now_eq (by simp), elapseTo_now_eq_max, ms]

/-! ### The field supply (R304, R305) -/

/-- A lost supply takes back the command of an output that no function owns. -/
def lostOutput (j : Fin 8) (s : State) : State :=
  modDq j (fun o => { o with cmd := if dqOwned j s then o.cmd else false, limit := false }) s

/-- A lost supply empties the filter of an input. -/
def lostInput (i : Fin 16) (s : State) : State := modIn i (fun x => { x with passed := false }) s

/-- The unowned outputs lose their commands. -/
theorem foldS_lostOutput {j : Fin 8} (h : dqOwned j s = false) : (Claim.outOf j (foldS (idx 8) lostOutput s)).cmd = false := by
  refine (foldS_establishes (fun t => t.key = s.key ∧ (Claim.outOf j t).cmd = false) (fun t => t.key = s.key) j (idx 8)
    lostOutput s (fun _ _ ht => ht) (fun k t ht => ?_) (fun t hkey => ⟨hkey, ?_⟩) (mem_idx j) rfl).2
  · obtain ⟨hkey, ht⟩ := ht
    refine ⟨hkey, ?_⟩
    by_cases hk : j = k
    · subst hk
      rw [lostOutput, outOf_modDq_self, dqOwned_of_key s hkey, h]
      rfl
    · rw [lostOutput, outOf_modDq_other _ hk]
      exact ht
  · rw [lostOutput, outOf_modDq_self, dqOwned_of_key s hkey, h]
    rfl

/-- Every filter begins anew. -/
theorem foldS_lostInput (n : Fin 16) : (Claim.inOf n (foldS (idx 16) lostInput s)).passed = false := by
  refine foldS_establishes (fun t => (Claim.inOf n t).passed = false) (fun _ => True) n _ _ _
    (fun _ _ _ => trivial) (fun k t ht => ?_) (fun t _ => ?_) (mem_idx n) trivial
  · by_cases hk : n = k
    · subst hk
      rw [lostInput, inOf_modIn_self]
    · rw [lostInput, inOf_modIn_other _ hk]
      exact ht
  · rw [lostInput, inOf_modIn_self]

/-- The filters leave the outputs. -/
theorem outOf_foldS_lostInput (j : Fin 8) (u : State) : Claim.outOf j (foldS (idx 16) lostInput u) = Claim.outOf j u :=
  foldS_keeps (fun t => Claim.outOf j t) _ _ _ fun _ _ => rfl

/-- The outputs and filters of a lost supply. -/
def lostFields (s : State) : State := foldS (idx 16) lostInput (foldS (idx 8) lostOutput s)

/-- Every filter begins anew, the unowned outputs lose their commands, and the level stands. -/
theorem lostFields_effect (s : State) : (lostFields s).fio.lpMv = s.fio.lpMv ∧
    (∀ n : Fin 16, (Claim.inOf n (lostFields s)).passed = false) ∧
    (∀ j : Fin 8, dqOwned j s = false → (Claim.outOf j (lostFields s)).cmd = false) := by
  have hin : (lostFields s).fio.lpMv = (foldS (idx 8) lostOutput s).fio.lpMv :=
    foldS_keeps (fun t => t.fio.lpMv) (idx 16) lostInput (foldS (idx 8) lostOutput s) fun _ _ => rfl
  have hout : (foldS (idx 8) lostOutput s).fio.lpMv = s.fio.lpMv :=
    foldS_keeps (fun t => t.fio.lpMv) (idx 8) lostOutput s fun _ _ => rfl
  refine ⟨hin.trans hout, fun n => foldS_lostInput n, fun j hj => ?_⟩
  rw [lostFields, outOf_foldS_lostInput]
  exact foldS_lostOutput hj

/-- What a lost supply does. -/
theorem enterLost_effect (mv : Int) (s : State) : (enterLost mv s).fio.fs = 2 ∧ (enterLost mv s).fio.lpMv = s.fio.lpMv ∧
    (∀ n : Fin 16, (Claim.inOf n (enterLost mv s)).passed = false) ∧
    (∀ j : Fin 8, dqOwned j s = false → (Claim.outOf j (enterLost mv s)).cmd = false) ∧
    (s.fio.first = false → Latched .fio 1 (enterLost mv s)) := by
  have hex : enterLost mv s = raiseIf (!s.fio.first) .fio 1 (modFio (fun x => { x with
      fs := 2, fsHigh := decide (33000 < mv), okSince := none, testBusy := false, roundAt := none, roundLeft := [] })
      (lostFields s)) := rfl
  rw [hex]
  obtain ⟨hmv, hin, hout⟩ := lostFields_effect s
  revert hmv hin hout
  generalize lostFields s = u
  intro hmv hin hout
  refine ⟨?_, ?_, fun n => ?_, fun j hj => ?_, fun hf => ?_⟩
  · rw [fio_raiseIf, modFio_fio]
  · rw [fio_raiseIf, modFio_fio]
    exact hmv
  · rw [inOf_of_fio _ (fio_raiseIf _ _ _ _)]
    exact hin n
  · rw [outOf_of_fio _ (fio_raiseIf _ _ _ _)]
    exact hout j hj
  · rw [hf]
    exact latched_raise _ _ _ (by omega)

/-- The level and its reading after a measurement. -/
def supplyRead (mv : Int) (s : State) : State :=
  modFio (fun x => { x with
    lpMv := mv, lpv := BitVec.ofNat 16 (min 0xFFFF (mv / 10).toNat)
    highSince := if 33000 < mv then some (s.fio.highSince.getD s.now) else none
    fsHigh := decide (2 ≤ x.fs.val) && decide (33000 < mv) }) s

/-- How long L+ has been above 33.0 V, in ticks. -/
def highTicks (mv : Int) (s : State) : Nat :=
  match (if 33000 < mv then some (s.fio.highSince.getD s.now) else none : Option Nat) with
  | none => 0
  | some t => s.now - t

/-- L+ within the limits of Lost is not a failing supply. -/
theorem lostLevel_within {mv : Int} (h : 15000 ≤ mv) (h' : mv ≤ 33000) (n : Nat) : lostLevel mv n = false := by
  unfold lostLevel
  rw [decide_eq_false (by omega), decide_eq_false (by omega)]
  rfl

/-- L+ below 15.0 V is. -/
theorem lostLevel_low {mv : Int} (h : mv < 15000) (n : Nat) : lostLevel mv n = true := by
  unfold lostLevel
  rw [decide_eq_true h]
  rfl

/-- A measurement in Normal. -/
theorem supplyAt_normal (h : s.fio.fs = 0) (mv : Int) : supplyAt mv s =
    if lostLevel mv (highTicks mv s) then enterLost mv (supplyRead mv s)
    else if warnLevel mv then raise .fio 0 (modFio (fun x => { x with fs := 1 }) (supplyRead mv s))
    else supplyRead mv s := by
  have hv : s.fio.fs.val = 0 := by rw [h]; rfl
  unfold supplyAt
  dsimp only
  rw [hv]
  rfl

/-- A measurement in Warning. -/
theorem supplyAt_warning (h : s.fio.fs = 1) (mv : Int) : supplyAt mv s =
    if lostLevel mv (highTicks mv s) then enterLost mv (supplyRead mv s)
    else if warnLevel mv then supplyRead mv s
    else modFio (fun x => { x with fs := 0 }) (supplyRead mv s) := by
  have hv : s.fio.fs.val = 1 := by rw [h]; rfl
  unfold supplyAt
  dsimp only
  rw [hv]
  rfl

/-- A measurement in Lost. -/
theorem supplyAt_lost (h : s.fio.fs = 2) (mv : Int) : supplyAt mv s =
    if recoverLevel mv then modFio (fun x => { x with fs := 3, okSince := some s.now }) (supplyRead mv s)
    else supplyRead mv s := by
  have hv : s.fio.fs.val = 2 := by rw [h]; rfl
  unfold supplyAt
  dsimp only
  rw [hv]
  rfl

/-- The level that was measured. -/
theorem supplyRead_fio (mv : Int) (s : State) : (supplyRead mv s).fio.lpMv = mv ∧ (supplyRead mv s).fio.fs = s.fio.fs ∧
    (supplyRead mv s).fio.first = s.fio.first ∧ (supplyRead mv s).key = s.key ∧ (supplyRead mv s).events = s.events ∧
    Frame [.fio] s (supplyRead mv s) := ⟨rfl, rfl, rfl, rfl, rfl, modFio_only _ _⟩

/-- Samples of a supply in Normal. -/
theorem supplyAt_normal_effect (h : s.fio.fs = 0) (mv : Int) :
    (18000 ≤ mv → mv ≤ 30000 → (supplyAt mv s).fio.fs = 0 ∧ (supplyAt mv s).fio.lpMv = mv ∧
      (supplyAt mv s).events = s.events ∧ Frame [.fio] s (supplyAt mv s)) ∧
    ((15000 ≤ mv ∧ mv < 18000) ∨ (30000 < mv ∧ mv ≤ 33000) → (supplyAt mv s).fio.fs = 1 ∧ Latched .fio 0 (supplyAt mv s)) ∧
    (mv < 15000 → s.fio.first = false → (supplyAt mv s).fio.fs = 2 ∧ Latched .fio 1 (supplyAt mv s) ∧
      (∀ n : Fin 16, (Claim.inOf n (supplyAt mv s)).passed = false) ∧
      (∀ j : Fin 8, dqOwned j s = false → (Claim.outOf j (supplyAt mv s)).cmd = false)) := by
  obtain ⟨hmv, hfs, hfirst, hkey, hev, hframe⟩ := supplyRead_fio mv s
  refine ⟨fun hlo hhi => ?_, fun hmid => ?_, fun hlow hf => ?_⟩
  · have hw : warnLevel mv = false := by simp [warnLevel, hlo, hhi]
    rw [supplyAt_normal h, lostLevel_within (by omega) (by omega), if_neg Bool.false_ne_true, hw, if_neg Bool.false_ne_true]
    exact ⟨hfs.trans h, hmv, hev, hframe⟩
  · have hw : warnLevel mv = true := by
      unfold warnLevel
      rcases hmid with hl | hh
      · simp [hl.2]
      · simp [hh.1]
    rw [supplyAt_normal h, lostLevel_within (by omega) (by omega), if_neg Bool.false_ne_true, hw, if_pos rfl]
    refine ⟨?_, latched_raise _ _ _ (by omega)⟩
    rw [fio_raise, modFio_fio]
  · rw [supplyAt_normal h, lostLevel_low hlow, if_pos rfl]
    obtain ⟨hlost, _, hin, hout, hl⟩ := enterLost_effect mv (supplyRead mv s)
    exact ⟨hlost, hl (hfirst.trans hf), hin, fun j hj => hout j (by rwa [dqOwned_of_key s hkey])⟩

/-- A supply that leaves the limits of Warning for those of Normal. -/
theorem supplyAt_warning_clears (h : s.fio.fs = 1) {mv : Int} (hlo : 18000 ≤ mv) (hhi : mv ≤ 30000) :
    (supplyAt mv s).fio.fs = 0 := by
  have hw : warnLevel mv = false := by simp [warnLevel, hlo, hhi]
  rw [supplyAt_warning h, lostLevel_within (by omega) (by omega), if_neg Bool.false_ne_true, hw, if_neg Bool.false_ne_true,
    modFio_fio]

/-- A lost supply recovers from 17.0 V to 31.0 V. -/
theorem supplyAt_lost_effect (h : s.fio.fs = 2) (mv : Int) :
    (17000 ≤ mv → mv ≤ 31000 → (supplyAt mv s).fio.fs = 3 ∧ (supplyAt mv s).fio.okSince = some (supplyAt mv s).now) ∧
    (mv < 17000 ∨ 31000 < mv → (supplyAt mv s).fio.fs = 2) := by
  refine ⟨fun hlo hhi => ?_, fun hout => ?_⟩
  · have hr : recoverLevel mv = true := by simp [recoverLevel, hlo, hhi]
    rw [supplyAt_lost h, hr, if_pos rfl]
    exact ⟨rfl, rfl⟩
  · have hr : recoverLevel mv = false := by
      unfold recoverLevel
      rcases hout with hl | hh
      · rw [decide_eq_false (by omega)]
        rfl
      · rw [decide_eq_false (p := mv ≤ 31000) (by omega), Bool.and_false]
    rw [supplyAt_lost h, hr, if_neg Bool.false_ne_true]
    exact h

/-- A sample is taken at its time. -/
theorem exec_fieldSupplySample_eq (hon : s.fio.on = true) (mv : Int) :
    exec (.fieldSupplySample mv) s = .next (supplyAt mv (periodic tkField (us 10) s)) :=
  congrArg Host.Outcome.next (if_pos hon)

/-- A failing level loses the supply. -/
theorem exec_fsLost_loses (hon : s.fio.on = true) (hfs : s.fio.fs ≠ 2) {mv : Int} {us0 : Nat}
    (h : mv < 15000 ∨ (33000 < mv ∧ 100 ≤ us0)) : ∃ t, exec (.fsLost mv us0) s = .next t ∧ t.fio.fs = 2 ∧ t.fio.lpMv = mv ∧
      (∀ n : Fin 16, diValid n t = false) ∧ Frame [.fio, .events, .board] s t := by
  have hl : lostLevel mv (us us0) = true := by
    unfold lostLevel us
    rcases h with h | ⟨h, h'⟩
    · rw [decide_eq_true h]
      rfl
    · rw [decide_eq_true h, decide_eq_true (by omega : 400 * 100 ≤ 400 * us0)]
      exact Bool.or_true _
  have hex : exec (.fsLost mv us0) s = .next (enterLost mv (modFio (fun x => { x with
      lpMv := mv, lpv := BitVec.ofNat 16 (min 0xFFFF (mv / 10).toNat) }) s)) :=
    congrArg Host.Outcome.next (if_pos (by rw [hon, hl, decide_eq_true hfs]; rfl))
  obtain ⟨hlost, hmv, hin, _, _⟩ := enterLost_effect mv (modFio (fun x => { x with
      lpMv := mv, lpv := BitVec.ofNat 16 (min 0xFFFF (mv / 10).toNat) }) s)
  exact ⟨_, hex, hlost, hmv, fun n => diValid_unfiltered _ (hin n),
    .under (enterLost_only _ _) (by simp) ((modFio_only _ _).mono (by simp))⟩

/-- The state of a supply that has recovered. -/
def supplyBack (mv : Int) (first : Bool) (u : State) : State :=
  raiseIf (!first) .fio 2 (raiseIf (warnLevel mv) .fio 0 (modFio (fun x => { x with
    fs := if warnLevel mv then 1 else 0, fsHigh := false, okSince := none, first := false, recoverAt := u.now
    roundAt := some (u.now + tpInt u), roundLeft := [], out := x.out.map fun o => { o with notBefore := 0 } }) u))

/-- What a recovered supply says. -/
theorem supplyBack_effect (mv : Int) (first : Bool) (u : State) : (supplyBack mv first u).now = u.now ∧
    (18000 ≤ mv → mv ≤ 30000 → (supplyBack mv first u).fio.fs = 0) ∧
    (mv < 18000 ∨ 30000 < mv → (supplyBack mv first u).fio.fs = 1 ∧ Latched .fio 0 (supplyBack mv first u)) ∧
    (first = false → Latched .fio 2 (supplyBack mv first u)) := by
  have hfs : (supplyBack mv first u).fio.fs = if warnLevel mv then 1 else 0 := by
    rw [supplyBack, fio_raiseIf, fio_raiseIf, modFio_fio]
  refine ⟨?_, fun hlo hhi => ?_, fun hw => ?_, fun hf => ?_⟩
  · rw [supplyBack, (raiseIf_only _ _ _ _).now_eq (by simp), (raiseIf_only _ _ _ _).now_eq (by simp),
      (modFio_only _ _).now_eq (by simp)]
  · rw [hfs, (by simp [warnLevel, hlo, hhi] : warnLevel mv = false)]
    rfl
  · have hwarn : warnLevel mv = true := by
      unfold warnLevel
      rcases hw with h | h <;> simp [h]
    rw [hfs, hwarn]
    refine ⟨rfl, ?_⟩
    rw [supplyBack, hwarn]
    exact raiseIf_eventsKept _ _ _ (by omega) _ _ _ (latched_raise _ _ _ (by omega))
  · rw [supplyBack, hf]
    exact latched_raise _ _ _ (by omega)

/-- 10 ms within the limits of a recovery end it. -/
theorem exec_fsRecover_done (hon : s.fio.on = true) {at0 : Nat} (ha : s.fio.okSince = some at0) (hfs : s.fio.fs = 3) :
    exec .fsRecover s = .next (supplyBack s.fio.lpMv s.fio.first (elapseTo (at0 + ms 10) s)) := by
  change Host.Outcome.next (fsRecover s) = _
  unfold fsRecover
  rw [ha]
  exact congrArg Host.Outcome.next (if_neg (by rw [hon, hfs]; decide))

end

/-- The link and the supply follow their levels. -/
theorem fieldSupplyAndLinkFollowTheirLevels : Claim.FieldSupplyAndLinkFollowTheirLevels := by
  intro s
  refine ⟨fun hoff mv us0 ps => ?_, fun hon => ⟨fun ps j => exec_fioExchange_links hon ps j, exec_fioLink_breaks hon,
    fun hfs mv => ?_, fun hfs mv hlo hhi => ?_, fun hfs mv => ?_, fun hfs mv us0 h => exec_fsLost_loses hon hfs h,
    fun at0 ha hfs => ?_⟩⟩
  · have hn : ¬ s.fio.on = true := by
      rw [hoff]
      exact Bool.false_ne_true
    exact ⟨congrArg Host.Outcome.next (if_neg hn), congrArg Host.Outcome.next (if_neg (by rw [hoff]; exact Bool.false_ne_true)),
      congrArg Host.Outcome.next (if_pos (by rw [hoff]; rfl)),
      congrArg Host.Outcome.next (if_neg (by rw [hoff]; exact Bool.false_ne_true))⟩
  all_goals have htime : Frame [.time] s (periodic tkField (us 10) s) := periodic_only _ _ _
  · have hfio : (periodic tkField (us 10) s).fio = s.fio := htime .fio (by simp)
    obtain ⟨hnorm, hwarn, hlost⟩ := supplyAt_normal_effect (s := periodic tkField (us 10) s) (by rw [hfio, hfs]) mv
    refine ⟨fun hlo hhi => ?_, fun hmid => ⟨_, exec_fieldSupplySample_eq hon mv, hwarn hmid⟩, fun hlow hf => ?_⟩
    · obtain ⟨h0, hmv, hev, hframe⟩ := hnorm hlo hhi
      exact ⟨_, exec_fieldSupplySample_eq hon mv, h0, hmv, hev.trans (htime .events (by simp)),
        .under hframe (by simp) (htime.mono (by simp))⟩
    · obtain ⟨h2, hl, hin, hout⟩ := hlost hlow (by rw [hfio, hf])
      exact ⟨_, exec_fieldSupplySample_eq hon mv, h2, hl, hin,
        fun j hj => hout j (by rw [dqOwned_of_key s (htime .key (by simp)), hj])⟩
  · have hfio : (periodic tkField (us 10) s).fio = s.fio := htime .fio (by simp)
    exact ⟨_, exec_fieldSupplySample_eq hon mv, supplyAt_warning_clears (by rw [hfio, hfs]) hlo hhi⟩
  · have hfio : (periodic tkField (us 10) s).fio = s.fio := htime .fio (by simp)
    obtain ⟨hrec, hstay⟩ := supplyAt_lost_effect (s := periodic tkField (us 10) s) (by rw [hfio, hfs]) mv
    exact ⟨fun hlo hhi => ⟨_, exec_fieldSupplySample_eq hon mv, hrec hlo hhi⟩,
      fun hout => ⟨_, exec_fieldSupplySample_eq hon mv, hstay hout⟩⟩
  · obtain ⟨hnow, h0, h1, h2⟩ := supplyBack_effect s.fio.lpMv s.fio.first (elapseTo (at0 + ms 10) s)
    refine ⟨_, exec_fsRecover_done hon ha hfs, ?_, h0, h1, h2⟩
    rw [hnow, elapseTo_now_eq_max, ms]

/-- Settles O48. -/
theorem fieldInputsAndSupply : Obligations.FieldInputsAndSupply :=
  ⟨fieldInputsFollowTheirFilters, fieldSupplyAndLinkFollowTheirLevels⟩

end Sys2Proof.Machine
end

section
/-! PROOFS. Field outputs and their open-load tests (O49; R309 to R313; log entries 3 and 57). -/

namespace Sys2Proof.Machine

/-! ### Commands (R310, R313) -/

section
variable {s : State} {j : Fin 8}

/-- A demand for an output without a test changes nothing. -/
theorem dqDemand_idle (h : testRuns j s = false) : dqDemand j s = s := if_neg (by rw [h]; exact Bool.false_ne_true)

/-- A demand for an output under test discards the test, which is repeated 1 s later. -/
theorem dqDemand_tested (h : testRuns j s = true) : dqDemand j s = raise .fio 8 (modFio (fun x => { x with
    testBusy := false, lastTestEnd := s.now, discards := satInc x.discards
    out := modAt x.out j fun o => { o with notBefore := s.now + secs 1 } }) s) := if_pos h

/-- A demand leaves what an output is commanded to. -/
theorem outOf_dqDemand (k : Fin 8) : ∃ n, Claim.outOf k (dqDemand j s) = { Claim.outOf k s with notBefore := n } := by
  cases h : testRuns j s with
  | false =>
    rw [dqDemand_idle h]
    exact ⟨_, rfl⟩
  | true =>
    rw [dqDemand_tested h, outOf_of_fio _ (fio_raise _ _ _)]
    by_cases hk : k = j
    · subst hk
      exact ⟨_, modAt_getElem_self _ _ _⟩
    · exact ⟨_, modAt_getElem_other _ _ _ _ hk⟩

/-- One output takes its bit of FIO_DQSET. -/
def dqsetStep (v : Word) (j : Fin 8) (s : State) : State :=
  if bit v (8 + j.val) && !dqOwned j s then
    modDq j (fun o => { o with cmd := bit v j.val, limit := o.limit && bit v j.val }) (dqDemand j s)
  else s

/-- An output that is not named, or is owned, keeps its command. -/
theorem dqsetStep_skip {v : Word} (h : bit v (8 + j.val) = false ∨ dqOwned j s = true) : dqsetStep v j s = s :=
  if_neg (by rcases h with h | h <;> simp [h])

/-- An unowned output takes its command. -/
theorem dqsetStep_take {v : Word} (h : bit v (8 + j.val) = true) (hd : dqOwned j s = false) : dqsetStep v j s =
    modDq j (fun o => { o with cmd := bit v j.val, limit := o.limit && bit v j.val }) (dqDemand j s) :=
  if_pos (by rw [h, hd]; rfl)

/-- What one output's command changes. -/
theorem dqsetStep_only (v : Word) (j : Fin 8) (s : State) : Frame [.fio, .events, .board] s (dqsetStep v j s) := by
  unfold dqsetStep
  split
  · exact .under (modDq_only _ _ _) (by simp) ((dqDemand_only _ _).mono (by simp))
  · exact Frame.refl _ _

/-- It leaves the other outputs' commands. -/
theorem outOf_dqsetStep_other (v : Word) {k : Fin 8} (h : k ≠ j) :
    ∃ n, Claim.outOf k (dqsetStep v j s) = { Claim.outOf k s with notBefore := n } := by
  unfold dqsetStep
  split
  · rw [outOf_modDq_other _ h]
    exact outOf_dqDemand k
  · exact ⟨_, rfl⟩

/-- A named output that no function owns is commanded. -/
theorem foldS_dqset_take {v : Word} (h : bit v (8 + j.val) = true) (hd : dqOwned j s = false) :
    (Claim.outOf j (foldS (idx 8) (dqsetStep v) s)).cmd = bit v j.val := by
  have hself {t : State} (hkey : t.key = s.key) : (Claim.outOf j (dqsetStep v j t)).cmd = bit v j.val := by
    rw [dqsetStep_take h (by rw [dqOwned_of_key s hkey, hd]), outOf_modDq_self]
  refine (foldS_establishes (fun t => t.key = s.key ∧ (Claim.outOf j t).cmd = bit v j.val) (fun t => t.key = s.key) j (idx 8)
    (dqsetStep v) s (fun k t ht => (dqsetStep_only v k t .key (by simp)).trans ht) (fun k t ht => ?_)
    (fun t hkey => ⟨(dqsetStep_only v j t .key (by simp)).trans hkey, hself hkey⟩) (mem_idx j) rfl).2
  obtain ⟨hkey, ht⟩ := ht
  refine ⟨(dqsetStep_only v k t .key (by simp)).trans hkey, ?_⟩
  by_cases hk : j = k
  · subst hk
    exact hself hkey
  · obtain ⟨n, hn⟩ := outOf_dqsetStep_other (s := t) v hk
    rw [hn]
    exact ht

/-- Any other output keeps its command. -/
theorem foldS_dqset_skip {v : Word} (h : bit v (8 + j.val) = false ∨ dqOwned j s = true) :
    (Claim.outOf j (foldS (idx 8) (dqsetStep v) s)).cmd = (Claim.outOf j s).cmd ∧
    (Claim.outOf j (foldS (idx 8) (dqsetStep v) s)).fn = (Claim.outOf j s).fn := by
  refine (foldS_invariant (fun t => t.key = s.key ∧ (Claim.outOf j t).cmd = (Claim.outOf j s).cmd ∧
    (Claim.outOf j t).fn = (Claim.outOf j s).fn) (idx 8) (f := dqsetStep v) (fun k t ht => ?_) ⟨rfl, rfl, rfl⟩).2
  obtain ⟨hkey, hcmd, hfn⟩ := ht
  refine ⟨(dqsetStep_only v k t .key (by simp)).trans hkey, ?_⟩
  by_cases hk : j = k
  · subst hk
    rw [dqsetStep_skip (by rwa [dqOwned_of_key s hkey])]
    exact ⟨hcmd, hfn⟩
  · obtain ⟨n, hn⟩ := outOf_dqsetStep_other (s := t) v hk
    rw [hn]
    exact ⟨hcmd, hfn⟩

/-- A test of output j runs that a command of the same write has not discarded yet. -/
structure TestStands (j : Fin 8) (s t : State) : Prop where
  key : t.key = s.key
  now : t.now = s.now
  runs : testRuns j t = true
  count : t.fio.discards = s.fio.discards

/-- The test of output j was discarded: counted, reported, and repeated 1 s later. -/
structure TestDiscarded (j : Fin 8) (s t : State) : Prop where
  key : t.key = s.key
  now : t.now = s.now
  busy : t.fio.testBusy = false
  count : t.fio.discards = satInc s.fio.discards
  reported : Latched .fio 8 t
  again : (Claim.outOf j t).notBefore = s.now + 400000000

/-- One test runs at a time. -/
theorem testRuns_other {k : Fin 8} (h : testRuns j s = true) (hk : k ≠ j) : testRuns k s = false := by
  have hout : s.fio.testOut = j := eq_of_beq (Bool.and_eq_true_iff.mp h).2
  rw [testRuns, hout, beq_false_of_ne (Ne.symm hk), Bool.and_false]

/-- No test runs where none is busy. -/
theorem testRuns_idle (h : s.fio.testBusy = false) (k : Fin 8) : testRuns k s = false := by
  rw [testRuns, h]
  rfl

/-- A command of another output leaves the test. -/
theorem TestStands.other {t : State} (h : TestStands j s t) {k : Fin 8} (hk : k ≠ j) (v : Word) :
    TestStands j s (dqsetStep v k t) := by
  have hfr := dqsetStep_only v k t
  refine ⟨(hfr .key (by simp)).trans h.key, (hfr.now_eq (by simp)).trans h.now, ?_, ?_⟩
  all_goals
    unfold dqsetStep
    rw [dqDemand_idle (testRuns_other h.runs hk)]
    split
  · exact h.runs
  · exact h.runs
  · exact h.count
  · exact h.count

/-- The command of the tested output discards its test. -/
theorem TestStands.own {t : State} (h : TestStands j s t) {v : Word} (hv : bit v (8 + j.val) = true)
    (hd : dqOwned j s = false) : TestDiscarded j s (dqsetStep v j t) := by
  have hfr := dqsetStep_only v j t
  have hstep := dqsetStep_take (s := t) hv (by rw [dqOwned_of_key s h.key, hd])
  rw [dqDemand_tested h.runs] at hstep
  refine ⟨(hfr .key (by simp)).trans h.key, (hfr.now_eq (by simp)).trans h.now, ?_, ?_, ?_, ?_⟩
  · rw [hstep, modDq, modFio_fio, fio_raise, modFio_fio]
  · rw [hstep, modDq, modFio_fio, fio_raise, modFio_fio, h.count]
  · rw [hstep]
    exact Frame.eventsKept (modDq_only _ _ _) (by simp) _ _ (latched_raise _ _ _ (by omega))
  · rw [hstep, outOf_modDq_self, outOf_of_fio _ (fio_raise _ _ _), ← h.now]
    exact congrArg FieldOut.notBefore (modAt_getElem_self _ _ _)

/-- No later command discards it again. -/
theorem TestDiscarded.step {t : State} (h : TestDiscarded j s t) (v : Word) (k : Fin 8) : TestDiscarded j s (dqsetStep v k t) := by
  have hfr := dqsetStep_only v k t
  have hidle : dqDemand k t = t := dqDemand_idle (testRuns_idle h.busy k)
  refine ⟨(hfr .key (by simp)).trans h.key, (hfr.now_eq (by simp)).trans h.now, ?_, ?_, ?_, ?_⟩
  all_goals
    unfold dqsetStep
    rw [hidle]
    split
  · exact h.busy
  · exact h.busy
  · exact h.count
  · exact h.count
  · exact Frame.eventsKept (modDq_only _ _ _) (by simp) _ _ h.reported
  · exact h.reported
  · by_cases hk : j = k
    · subst hk
      rw [outOf_modDq_self]
      exact h.again
    · rw [outOf_modDq_other _ hk]
      exact h.again
  · exact h.again

/-- A commanded output loses the test that runs on it. -/
theorem foldS_dqset_discards {v : Word} (hv : bit v (8 + j.val) = true) (hd : dqOwned j s = false) (hr : testRuns j s = true) :
    TestDiscarded j s (foldS (idx 8) (dqsetStep v) s) := by
  refine foldS_establishes (TestDiscarded j s) (fun t => TestStands j s t ∨ TestDiscarded j s t) j (idx 8) (dqsetStep v) s
    (fun k t ht => ?_) (fun k t ht => ht.step v k) (fun t ht => ?_) (mem_idx j) (.inl ⟨rfl, rfl, hr, rfl⟩)
  · rcases ht with ht | ht
    · by_cases hk : k = j
      · subst hk
        exact .inr (ht.own hv hd)
      · exact .inl (ht.other hk v)
    · exact .inr (ht.step v k)
  · rcases ht with ht | ht
    · exact ht.own hv hd
    · exact ht.step v j

/-- FIO_DQSET commands the outputs in order, and reports the owned ones that it named. -/
theorem fioDqset_eq (v : Word) (s : State) : fioDqset v s =
    raiseIf ((idx 8).any fun k => bit v (8 + k.val) && dqOwned k s) .fio 9 (foldS (idx 8) (dqsetStep v) s) := rfl

/-- A write of FIO_DQSET. -/
theorem fioDqset_effect (v : Word) (j : Fin 8) (s : State) :
    (bit v (8 + j.val) = true → dqOwned j s = false → (Claim.outOf j (fioDqset v s)).cmd = bit v j.val) ∧
    (bit v (8 + j.val) = true → dqOwned j s = true → Latched .fio 9 (fioDqset v s) ∧
      (Claim.outOf j (fioDqset v s)).cmd = (Claim.outOf j s).cmd ∧ (Claim.outOf j (fioDqset v s)).fn = (Claim.outOf j s).fn) ∧
    (bit v (8 + j.val) = false → (Claim.outOf j (fioDqset v s)).cmd = (Claim.outOf j s).cmd) ∧
    (bit v (8 + j.val) = true → dqOwned j s = false → testRuns j s = true → (fioDqset v s).fio.testBusy = false ∧
      (fioDqset v s).fio.discards = satInc s.fio.discards ∧ Latched .fio 8 (fioDqset v s) ∧
      (Claim.outOf j (fioDqset v s)).notBefore = s.now + 400000000) := by
  have hfio : (fioDqset v s).fio = (foldS (idx 8) (dqsetStep v) s).fio := by rw [fioDqset_eq, fio_raiseIf]
  have hout : Claim.outOf j (fioDqset v s) = Claim.outOf j (foldS (idx 8) (dqsetStep v) s) := outOf_of_fio _ hfio j
  rw [hout, hfio]
  refine ⟨fun hv hd => foldS_dqset_take hv hd, fun hv hd => ?_, fun hv => (foldS_dqset_skip (.inl hv)).1, fun hv hd hr => ?_⟩
  · refine ⟨?_, foldS_dqset_skip (.inr hd)⟩
    have hany : ((idx 8).any fun k => bit v (8 + k.val) && dqOwned k s) = true :=
      List.any_eq_true.mpr ⟨j, mem_idx j, by rw [hv, hd]; rfl⟩
    rw [fioDqset_eq, hany]
    exact latched_raise _ _ _ (by omega)
  · obtain ⟨_, _, hbusy, hcount, hl, hagain⟩ := foldS_dqset_discards hv hd hr
    refine ⟨hbusy, hcount, ?_, hagain⟩
    rw [fioDqset_eq]
    exact raiseIf_eventsKept _ _ _ (by omega) _ _ _ hl

/-! ### Overload and external drive (R309, R311) -/

/-- Overload of a driven output. -/
theorem exec_outOvl_driven (h : dqDriven j s = true) (lim th : Bool) : ∃ t, exec (.outOvl j lim th) s = .next t ∧
    Claim.outOf j t = { Claim.outOf j s with limit := lim, thermal := (Claim.outOf j s).thermal || th } ∧
    ((lim = true ∧ (Claim.outOf j s).limit = false) ∨ (th = true ∧ (Claim.outOf j s).thermal = false) → Latched .fio 4 t) ∧
    Frame [.fio, .events, .board] s t := by
  have hex : exec (.outOvl j lim th) s = .next (raiseIf ((lim && !(Claim.outOf j s).limit) || (th && !(Claim.outOf j s).thermal))
      .fio 4 (modDq j (fun o => { o with limit := lim, thermal := o.thermal || th }) s)) :=
    congrArg Host.Outcome.next (if_neg (by rw [h]; decide))
  refine ⟨_, hex, ?_, fun hn => ?_, .under (raiseIf_only _ _ _ _) (by simp) ((modDq_only _ _ _).mono (by simp))⟩
  · rw [outOf_of_fio _ (fio_raiseIf _ _ _ _), outOf_modDq_self]
  · have hb : ((lim && !(Claim.outOf j s).limit) || (th && !(Claim.outOf j s).thermal)) = true := by
      rcases hn with ⟨h1, h2⟩ | ⟨h1, h2⟩
      · rw [h1, h2]
        rfl
      · rw [h1, h2]
        exact Bool.or_true _
    rw [hb]
    exact latched_raise _ _ _ (by omega)

/-- The pin of an output that was never tested. -/
theorem extDrive_eq (hon : s.fio.on = true) (hl : s.fio.linkOk = true) (hfs : s.fio.fs.val < 2) (hend : s.fio.lastTestEnd = 0)
    (mv : Int) (us0 : Nat) : extDrive j mv us0 s = if mv < 7000 then modDq j (fun o => { o with ext := false }) s
      else if (!dqCmd j s && !testRuns j s) && decide (9000 < mv) && decide (1000 ≤ us0) then
        raiseIf (!(Claim.outOf j s).ext) .fio 5 (modDq j (fun o => { o with ext := true }) s)
      else s := by
  have hhold : (if s.fio.testOut = j && s.fio.lastTestEnd ≠ 0 then min us0 ((s.now - s.fio.lastTestEnd) / 400) else us0) = us0 :=
    if_neg (by simp [hend])
  unfold extDrive
  rw [hhold]
  exact if_neg (by rw [hon, hl, fsOk_of_lt hfs]; decide)

end

/-- Outputs obey their owner. -/
theorem fieldOutputsObeyTheirOwner : Claim.FieldOutputsObeyTheirOwner := by
  rintro s j x rfl
  refine ⟨fun v => ?_, fun h lim th => exec_outOvl_driven h lim th,
    fun h lim th => congrArg Host.Outcome.next (if_pos (by rw [h]; rfl)),
    ⟨_, rfl, outOf_modDq_self _ _ _, modDq_only _ _ _⟩, fun hon hl hfs hend mv us0 => ⟨fun hlow => ?_, fun hlo hhi => ?_,
    fun hmv hus hcmd htest => ?_⟩⟩
  · obtain ⟨htake, howned, hskip, hdisc⟩ := fioDqset_effect v j s
    exact ⟨_, rfl, htake, howned, hskip, hdisc, (fioDqset_only v s).mono (by simp)⟩
  all_goals have heq := extDrive_eq (j := j) hon hl hfs hend mv us0
  · exact ⟨_, congrArg Host.Outcome.next (heq.trans (if_pos hlow)), outOf_modDq_self _ _ _, modDq_only _ _ _⟩
  · refine congrArg Host.Outcome.next (heq.trans ((if_neg (by omega)).trans (if_neg ?_)))
    rw [decide_eq_false (by omega), Bool.and_false, Bool.false_and]
    exact Bool.false_ne_true
  · have hgo : ((!dqCmd j s && !testRuns j s) && decide (9000 < mv) && decide (1000 ≤ us0)) = true := by
      rw [hcmd, htest, decide_eq_true hmv, decide_eq_true hus]
      rfl
    refine ⟨_, congrArg Host.Outcome.next (heq.trans ((if_neg (by omega)).trans (if_pos hgo))), ?_, fun hx => ?_⟩
    · rw [outOf_of_fio _ (fio_raiseIf _ _ _ _), outOf_modDq_self]
    · rw [hx]
      exact latched_raise _ _ _ (by omega)

end Sys2Proof.Machine
end

section
/-! PROOFS. Open-load tests of the field outputs (O49; R312; log entries 3 and 57). -/

namespace Sys2Proof.Machine

section
variable {s : State} {j : Fin 8}

/-- Whether the field side drives outputs does not depend on the time. -/
theorem fioDrives_elapseTo (n : Nat) : fioDrives (elapseTo n s) = fioDrives s := rfl

/-- Nor does what an output is commanded to. -/
theorem dqOn_elapseTo (n : Nat) : dqOn j (elapseTo n s) = dqOn j s := by
  have hkey : (elapseTo n s).key = s.key := elapseTo_only n s .key (by simp)
  rw [dqOn, dqOn, dqCmd, dqCmd, dqOwned_of_key s hkey]
  rfl

/-- Nor does which outputs are tested. -/
theorem testEnabled_elapseTo (n : Nat) : testEnabled j (elapseTo n s) = testEnabled j s := by
  have hkey : (elapseTo n s).key = s.key := elapseTo_only n s .key (by simp)
  rw [testEnabled, testEnabled, dqOn_elapseTo, fioRec, fioRec, recD_of_key hkey]

/-- A round that has come lists the outputs that are to be tested. -/
theorem exec_testRound_lists {at0 : Nat} (h : s.fio.roundAt = some at0) (hd : fioDrives s = true) :
    ∃ t, exec .testRound s = .next t ∧ t.now = max s.now at0 ∧ (j ∈ t.fio.roundLeft ↔ testEnabled j s = true) ∧
      t.fio.roundAt = some (t.now + 400000000 * u16 (recD s 0x80 0) 96) ∧ Frame [.fio, .time] s t := by
  have hex : exec .testRound s = .next (modFio (fun x => { x with
      roundAt := some ((elapseTo at0 s).now + tpInt (elapseTo at0 s))
      roundLeft := (idx 8).filter fun j => testEnabled j (elapseTo at0 s) }) (elapseTo at0 s)) := by
    change execTestRound s = _
    unfold execTestRound
    rw [h]
    exact congrArg Host.Outcome.next (if_neg (by rw [hd]; decide))
  have hnow : (modFio (fun x => { x with
      roundAt := some ((elapseTo at0 s).now + tpInt (elapseTo at0 s))
      roundLeft := (idx 8).filter fun j => testEnabled j (elapseTo at0 s) }) (elapseTo at0 s)).now = (elapseTo at0 s).now :=
    (modFio_only _ _).now_eq (by simp)
  refine ⟨_, hex, hnow.trans (elapseTo_now_eq_max at0 s), ?_, ?_,
    .under (modFio_only _ _) (by simp) ((elapseTo_only _ _).mono (by simp))⟩
  · rw [modFio_fio, List.mem_filter, testEnabled_elapseTo]
    exact ⟨fun hj => hj.2, fun hj => ⟨mem_idx j, hj⟩⟩
  · rw [hnow, modFio_fio, tpInt, secs, fioRec, recD_of_key (elapseTo_only at0 s .key (by simp))]

/-- The next pulse of a round starts at once where no test ended before. -/
theorem exec_testPulseStart_next {rest : List (Fin 8)} (hr : s.fio.roundLeft = j :: rest) (hb : s.fio.testBusy = false)
    (hd : fioDrives s = true) (he : testEnabled j s = true) (hn : (Claim.outOf j s).notBefore = 0)
    (hend : s.fio.lastTestEnd = 0) : ∃ t, exec (.testPulseStart j) s = .next t ∧ t.fio.testBusy = true ∧ t.fio.testOut = j ∧
      t.fio.testLight = !dqOn j s ∧ t.fio.testAt = s.now ∧ j ∉ t.fio.roundLeft ∧ Frame [.fio] s t := by
  have hpast : elapseTo 0 s = s := by simp [elapseTo, advance]
  have hfirst : (s.fio.roundLeft.filter fun k => testEnabled k s).head? = some j := by
    rw [hr, List.filter_cons, if_pos he]
    rfl
  have hx : s.fio.out[j].notBefore = 0 := hn
  have hex : testPulseStart j s = modFio (fun x => { x with
      testBusy := true, testOut := j, testLight := !dqOn j s, testAt := s.now, roundLeft := x.roundLeft.filter (· ≠ j)
      out := modAt x.out j fun o => { o with notBefore := 0, limit := false } }) s := by
    unfold testPulseStart
    dsimp only
    rw [hx, hend, hb, hd, he, hfirst, if_neg (by simp), if_pos rfl, Nat.max_self, hpast]
  refine ⟨_, congrArg Host.Outcome.next hex, rfl, rfl, rfl, rfl, ?_, modFio_only _ _⟩
  rw [modFio_fio, List.mem_filter]
  exact fun h => of_decide_eq_true h.2 rfl

/-- A busy test lets no other one start. -/
theorem exec_testPulseStart_busy (h : s.fio.testBusy = true) : exec (.testPulseStart j) s = .next s :=
  congrArg Host.Outcome.next (if_pos (by rw [h]; rfl))

/-- A verdict without a test is none. -/
theorem exec_testPulseEnd_idle (h : s.fio.testBusy = false) (mv : Int) : exec (.testPulseEnd mv) s = .next s :=
  congrArg Host.Outcome.next (if_pos (by rw [h]; rfl))

/-- The state after a verdict on output j. -/
def testJudged (j : Fin 8) (light pass : Bool) (u : State) : State :=
  raiseIf (!pass) .fio (if light then 7 else 6) (modFio (fun x => { x with
    testBusy := false, lastTestEnd := u.now, passed := if pass then satInc x.passed else x.passed
    out := modAt x.out j fun o => if light then { o with lightFail := !pass, limit := false } else { o with darkFail := !pass } }) u)

/-- A pulse ends after its width with its verdict. -/
theorem exec_testPulseEnd_judges (h : s.fio.testBusy = true) (hj : s.fio.testOut = j) (mv : Int) : exec (.testPulseEnd mv) s =
    .next (testJudged j s.fio.testLight (if s.fio.testLight then decide (s.fio.lpMv - 3000 < mv) else decide (mv < 7000))
      (elapseTo (s.fio.testAt + us (pulseUs s.fio.testLight s)) s)) := by
  subst hj
  exact congrArg Host.Outcome.next (if_neg (by rw [h]; decide))

/-- What a verdict does. -/
theorem testJudged_effect (j : Fin 8) (light pass : Bool) (u : State) : (testJudged j light pass u).fio.testBusy = false ∧
    (testJudged j light pass u).now = u.now ∧ (testJudged j light pass u).fio.lastTestEnd = u.now ∧
    (testJudged j light pass u).fio.passed = (if pass then satInc u.fio.passed else u.fio.passed) ∧
    (light = false → (Claim.outOf j (testJudged j light pass u)).darkFail = !pass) ∧
    (light = true → (Claim.outOf j (testJudged j light pass u)).lightFail = !pass) ∧
    (pass = true → (testJudged j light pass u).events = u.events) ∧
    (pass = false → Latched .fio (if light then 7 else 6) (testJudged j light pass u)) := by
  have hout : Claim.outOf j (testJudged j light pass u) =
      if light then { Claim.outOf j u with lightFail := !pass, limit := false } else { Claim.outOf j u with darkFail := !pass } := by
    rw [testJudged, outOf_of_fio _ (fio_raiseIf _ _ _ _)]
    exact modAt_getElem_self _ _ _
  refine ⟨?_, ?_, ?_, ?_, fun h => ?_, fun h => ?_, fun h => ?_, fun h => ?_⟩
  · rw [testJudged, fio_raiseIf, modFio_fio]
  · rw [testJudged, (raiseIf_only _ _ _ _).now_eq (by simp), (modFio_only _ _).now_eq (by simp)]
  · rw [testJudged, fio_raiseIf, modFio_fio]
  · rw [testJudged, fio_raiseIf, modFio_fio]
  · rw [hout, h]
    rfl
  · rw [hout, h]
    rfl
  · rw [h]
    rfl
  · rw [h]
    exact latched_raise _ _ _ (by split <;> omega)

end

/-- Tests are listed, run and judged. -/
theorem fieldOutputTestsAreJudged : Claim.FieldOutputTestsAreJudged := by
  intro s j
  refine ⟨fun h => ?_, fun at0 h hd => exec_testRound_lists h hd, fun rest hr hb hd he hn hend =>
    exec_testPulseStart_next hr hb hd he hn hend, exec_testPulseStart_busy, fun h mv => exec_testPulseEnd_idle h mv,
    fun h hj mv => ?_⟩
  · change execTestRound s = _
    unfold execTestRound
    rw [h]
  have hex := exec_testPulseEnd_judges h hj mv
  refine ⟨fun hlight => ?_, fun hlight => ?_⟩
  · rw [hlight, if_neg Bool.false_ne_true] at hex
    obtain ⟨hbusy, hnow, hend, hpassed, hdark, _, hok, hbad⟩ :=
      testJudged_effect j false (decide (mv < 7000)) (elapseTo (s.fio.testAt + us (pulseUs false s)) s)
    have hfio : (elapseTo (s.fio.testAt + us (pulseUs false s)) s).fio = s.fio := fio_elapseTo s _
    refine ⟨_, hex, hbusy, ?_, hend.trans hnow.symm, fun hlow => ?_, fun hhigh => ?_⟩
    · rw [hnow, elapseTo_now_eq_max, us]
    · have hp : decide (mv < 7000) = true := decide_eq_true hlow
      refine ⟨?_, ?_, (hok hp).trans (elapseTo_only _ s .events (by simp))⟩
      · rw [hpassed, hp, hfio]
        rfl
      · rw [hdark rfl, hp]
        rfl
    · have hp : decide (mv < 7000) = false := decide_eq_false (by omega)
      refine ⟨?_, ?_, hbad hp⟩
      · rw [hpassed, hp, hfio]
        rfl
      · rw [hdark rfl, hp]
        rfl
  · rw [hlight, if_pos rfl] at hex
    obtain ⟨hbusy, _, _, _, _, hlit, hok, hbad⟩ := testJudged_effect j true (decide (s.fio.lpMv - 3000 < mv))
      (elapseTo (s.fio.testAt + us (pulseUs true s)) s)
    refine ⟨_, hex, hbusy, fun hhigh => ?_, fun hlow => ?_⟩
    · have hp : decide (s.fio.lpMv - 3000 < mv) = true := decide_eq_true hhigh
      refine ⟨?_, (hok hp).trans (elapseTo_only _ s .events (by simp))⟩
      rw [hlit rfl, hp]
      rfl
    · have hp : decide (s.fio.lpMv - 3000 < mv) = false := decide_eq_false (by omega)
      refine ⟨?_, hbad hp⟩
      rw [hlit rfl, hp]
      rfl

/-- Settles O49. -/
theorem fieldOutputsAndTests : Obligations.FieldOutputsAndTests := ⟨fieldOutputsObeyTheirOwner, fieldOutputTestsAreJudged⟩

end Sys2Proof.Machine
end

section
/-! PROOFS. Demands on the pulse lock (O50; R318 to R320, R323; log entries 3 and 44). -/

namespace Sys2Proof.Machine

/-! ### Flags packed into a register -/

/-- A flag of a packed register. -/
theorem testBit_packBits (bs : List Bool) (k : Nat) : (packBits bs).testBit k = bs.getD k false := by
  have hcons (b : Bool) (xs : List Bool) : packBits (b :: xs) = Nat.bit b (packBits xs) := by
    cases b <;> simp [packBits, b2n, Nat.bit, Nat.add_comm]
  induction bs generalizing k with
  | nil => simp [packBits]
  | cons b xs ih =>
    rw [hcons]
    cases k with
    | zero => simp
    | succ k => rw [Nat.testBit_bit_succ, ih, List.getD_cons_succ]

/-- A demand among the active ones. -/
theorem bit_activeDemands (s : State) (k : Nat) (h : k < 16) : bit (activeDemands s) k =
    [false, inputDemand 1 (u8 (safeRec s) 0) s, inputDemand 2 (u8 (safeRec s) 1) s,
      anyConn s (fun _ c => c.state == 2 && !c.run), anyConn s (fun k c => c.state != 2 && !conReduces k s),
      diagDemand s, false, false, s.plk.startFail, false, false, false, false, false, false, s.clock.safeRing].getD k false := by
  rw [bit, activeDemands, BitVec.getLsbD_ofNat, testBit_packBits, decide_eq_true h, Bool.true_and]

/-! ### A demand that is acted on (R319) -/

section
variable {src at0 : Nat} {s : State}

/-- Ending the commands leaves the block of every channel. -/
theorem settleGates_allOff (s : State) : (settleGates s).gate.allOff = s.gate.allOff := by
  rw [settleGates]
  refine foldS_keeps (fun t => t.gate.allOff) _ _ s fun c t => ?_
  split
  · rfl
  · rfl

/-- The lock of a demand, before the mode controller. -/
def demandStops (src at0 : Nat) (s : State) : State :=
  settleGates (raise .plk 0 (modGate (fun g => { g with allOff := true }) (modPlk (fun p => { p with
    locked := true, lines := 0, stopAt := s.now, demandAt := at0, respRun := true })
      (modPlk (fun p => { p with source := BitVec.ofNat 4 src }) s))))

/-- A demand on an open lock. -/
theorem actDemand_open (h : s.plk.locked = false) : actDemand src at0 s = trigger .demand (demandStops src at0 s) :=
  if_neg (by rw [h]; exact Bool.false_ne_true)

/-- A demand on a lock that is closed only names its source. -/
theorem actDemand_locked (h : s.plk.locked = true) :
    actDemand src at0 s = modPlk (fun p => { p with source := BitVec.ofNat 4 src }) s := if_pos h

/-- The pulse lock after a demand. -/
def plkStopped (src at0 now : Nat) (p : PlkState) : PlkState :=
  { p with
    source := BitVec.ofNat 4 src, locked := true, lines := 0, stopAt := now, demandAt := at0, respRun := true }

/-- What the lock does: the lines stop, every channel is blocked, and DEMAND is latched. -/
theorem demandStops_effect (src at0 : Nat) (s : State) : (demandStops src at0 s).plk = plkStopped src at0 s.now s.plk ∧
    (demandStops src at0 s).gate.allOff = true ∧ (demandStops src at0 s).gate.fg = s.gate.fg ∧
    Latched .plk 0 (demandStops src at0 s) ∧ (demandStops src at0 s).mode = s.mode ∧
    Frame [.plk, .gate, .events, .board] s (demandStops src at0 s) := by
  unfold demandStops
  generalize hu : modGate (fun g => { g with allOff := true }) (modPlk (fun p => { p with
    locked := true, lines := 0, stopAt := s.now, demandAt := at0, respRun := true })
      (modPlk (fun p => { p with source := BitVec.ofNat 4 src }) s)) = u
  have hplk : u.plk = plkStopped src at0 s.now s.plk := hu ▸ rfl
  have hoff : u.gate.allOff = true := hu ▸ rfl
  have hfg : u.gate.fg = s.gate.fg := hu ▸ rfl
  have hframe : Frame [.plk, .gate] s u :=
    hu ▸ .under (modGate_only _ _) (by simp) (((modPlk_only _ _).comp (modPlk_only _ _)).mono (by simp))
  have hgate : (raise .plk 0 u).gate = u.gate := raise_only _ _ _ .gate (by simp)
  refine ⟨?_, ?_, ?_, ?_, ?_, .under (settleGates_only _) (by simp) (.under (raise_only _ _ _) (by simp) (hframe.mono (by simp)))⟩
  · rw [settleGates_only _ .plk (by simp), raise_only _ _ _ .plk (by simp), hplk]
  · rw [settleGates_allOff, hgate, hoff]
  · rw [settleGates_fg, hgate, hfg]
  · exact (settleGates_only _).eventsKept (by simp) _ _ (latched_raise _ _ _ (by omega))
  · rw [settleGates_only _ .mode (by simp), raise_only _ _ _ .mode (by simp), hframe .mode (by simp)]

/-- What a demand on an open lock does. -/
theorem actDemand_open_effect (h : s.plk.locked = false) : (actDemand src at0 s).plk = plkStopped src at0 s.now s.plk ∧
    (actDemand src at0 s).gate.allOff = true ∧ (actDemand src at0 s).gate.fg = s.gate.fg ∧
    Latched .plk 0 (actDemand src at0 s) := by
  obtain ⟨hplk, hoff, hfg, hl, _, _⟩ := demandStops_effect src at0 s
  have hgate : (trigger .demand (demandStops src at0 s)).gate = (demandStops src at0 s).gate := trigger_only _ _ .gate (by simp)
  rw [actDemand_open h]
  refine ⟨?_, ?_, ?_, (trigger_only _ _).eventsKept (by simp) _ _ hl⟩
  · rw [trigger_only _ _ .plk (by simp), hplk]
  · rw [hgate, hoff]
  · rw [hgate, hfg]

/-- A demand in M3 to M10 begins the transition to M11, unless it runs. -/
theorem trigger_demand_runs (hlo : 3 ≤ s.md) (hhi : s.md ≤ 10) (hgo : s.mode.busy = false ∨ s.mode.target ≠ 11) :
    trigger .demand s = beginTransition ⟨11, 4, 0⟩ s := by
  have hrow : Trigger.row .demand s = some ⟨11, 4, 0⟩ := if_pos (by simp [hlo, hhi])
  have hgoes : ¬ (s.mode.busy && s.mode.target == 11#4) = true := by
    rcases hgo with h | h
    · rw [h]
      exact Bool.false_ne_true
    · rw [(beq_false_of_ne h : (s.mode.target == 11#4) = false), Bool.and_false]
      exact Bool.false_ne_true
  unfold trigger
  rw [hrow]
  exact (if_pos rfl).trans (if_neg hgoes)

/-- The transition that a demand begins. -/
theorem actDemand_mode_of_runs (h : s.plk.locked = false) (hlo : 3 ≤ s.md) (hhi : s.md ≤ 10)
    (hgo : s.mode.busy = false ∨ s.mode.target ≠ 11) :
    (actDemand src at0 s).mode = { s.mode with busy := true, target := 11, nextCause := 4, nextEvt := 0 } := by
  obtain ⟨_, _, _, _, hmode, _⟩ := demandStops_effect src at0 s
  have hmd : (demandStops src at0 s).md = s.md := congrArg (fun m : ModeState => m.mode.toNat) hmode
  rw [actDemand_open h, trigger_demand_runs (by rwa [hmd]) (by rwa [hmd]) (by rwa [hmode]), beginTransition, hmode]

/-- Every channel is blocked. -/
theorem gateOn_of_allOff (h : s.gate.allOff = true) (c : Fin 32) : gateOn s c = false := by
  rw [gateOn, cmdAllowed, h]
  simp

end

/-! ### The demand of the host, and the degraded-mode limit (R320, R323) -/

section
variable {s : State}

/-- The host's DEMAND with its key. -/
theorem exec_plkCmdDemand_acts (hon : safeOn s = true) : exec (.plkCmdDemand 0x504C) s = .next (actDemand 7 s.now s) :=
  congrArg Host.Outcome.next (if_pos (by rw [hon]; rfl))

/-- Without the key, or without the function, it is none. -/
theorem exec_plkCmdDemand_ignored {key : Half} (h : key ≠ 0x504C ∨ safeOn s = false) : exec (.plkCmdDemand key) s = .next s :=
  congrArg Host.Outcome.next (if_neg (by
    rcases h with h | h
    · rw [decide_eq_false h]
      exact Bool.false_ne_true
    · rw [h, Bool.and_false]
      exact Bool.false_ne_true))

/-- The mode of a running function. -/
theorem three_le_of_safeOn (hon : safeOn s = true) : 3 ≤ s.md := of_decide_eq_true (Bool.and_eq_true_iff.mp hon).2

/-- The degraded-mode limit counts in M10 only. -/
theorem exec_degrExpired_idle (h : s.md ≠ 10) : exec .degrExpired s = .next s := congrArg Host.Outcome.next (if_pos h)

/-- The cause that the limit gives its transition. -/
def limitCause (locked : Bool) (m : ModeState) : ModeState :=
  if !locked && m.busy && m.target = 11 then { m with nextCause := 5, nextEvt := 0x80 } else m

/-- The limit is a demand with a cause of its own. -/
theorem exec_degrExpired_eq (h : s.md = 10) : exec .degrExpired s = .next (modMode (limitCause s.plk.locked)
    (actDemand 6 (elapseTo (s.mode.degrAt + s.plk.degrLeft) s).now (elapseTo (s.mode.degrAt + s.plk.degrLeft) s))) :=
  congrArg Host.Outcome.next (if_neg (not_not_intro h))

/-- What the limit does to the lock and the mode. -/
theorem limitDemand_effect {u : State} (hlock : u.plk.locked = false) (hmd : u.md = 10)
    (hgo : u.mode.busy = false ∨ u.mode.target ≠ 11) :
    (modMode (limitCause false) (actDemand 6 u.now u)).plk = plkStopped 6 u.now u.now u.plk ∧
    (modMode (limitCause false) (actDemand 6 u.now u)).gate.allOff = true ∧
    (modMode (limitCause false) (actDemand 6 u.now u)).mode =
      { u.mode with busy := true, target := 11, nextCause := 5, nextEvt := 0x80 } ∧
    (modMode (limitCause false) (actDemand 6 u.now u)).now = u.now := by
  obtain ⟨hplk, hoff, _, _⟩ := actDemand_open_effect (src := 6) (at0 := u.now) hlock
  have hmode := actDemand_mode_of_runs (src := 6) (at0 := u.now) hlock (by omega) (by omega) hgo
  refine ⟨hplk, hoff, ?_, (actDemand_only 6 u.now u).now_eq (by simp)⟩
  have hm : (modMode (limitCause false) (actDemand 6 u.now u)).mode = limitCause false (actDemand 6 u.now u).mode := rfl
  rw [hm, hmode]
  rfl

end

end Sys2Proof.Machine
end

section
/-! PROOFS. The cycle of SAFE (O50; R318 to R323, R326; log entries 3 and 44): what its steps leave of the lock, and the demand of
an input. -/

namespace Sys2Proof.Machine

/-! ### What the steps of a cycle leave -/

/-- The lock as a demand leaves it: closed or open, the lines, the source, when they stopped, and the block of every channel. -/
def lockView (s : State) : Bool × Word × BitVec 4 × Nat × Bool :=
  (s.plk.locked, s.plk.lines, s.plk.source, s.plk.stopAt, s.gate.allOff)

/-- A step that leaves the lock and clears no event. -/
structure Steady (s t : State) : Prop where
  view : lockView t = lockView s
  events : EventsKept s t

/-- Two such steps. -/
theorem Steady.trans {s t u : State} (h : Steady s t) (k : Steady t u) : Steady s u :=
  ⟨k.view.trans h.view, h.events.trans k.events⟩

/-- A step that leaves pulse lock, gates and events. -/
theorem Frame.steady {ps : List Part} {s t : State} (h : Frame ps s t) (hp : .plk ∉ ps) (hg : .gate ∉ ps) (he : .events ∉ ps) :
    Steady s t := by
  refine ⟨?_, h.eventsKept he⟩
  rw [lockView, h .plk hp, h .gate hg]
  rfl

/-- A change of the pulse lock beside its lock. -/
theorem steady_modPlk {f : PlkState → PlkState} (s : State) (hl : (f s.plk).locked = s.plk.locked)
    (hn : (f s.plk).lines = s.plk.lines) (hs : (f s.plk).source = s.plk.source) (ha : (f s.plk).stopAt = s.plk.stopAt) :
    Steady s (modPlk f s) := by
  refine ⟨?_, (modPlk_only f s).eventsKept (by simp)⟩
  change ((f s.plk).locked, (f s.plk).lines, (f s.plk).source, (f s.plk).stopAt, s.gate.allOff) = _
  rw [hl, hn, hs, ha]
  rfl

/-- An event. -/
theorem steady_raise (r : EvReg) (k : Nat) (hk : k < 32) (s : State) : Steady s (raise r k s) := by
  refine ⟨?_, raise_eventsKept r k hk s⟩
  rw [lockView, raise_only r k s .plk (by simp), raise_only r k s .gate (by simp)]
  rfl

/-- An event on a condition. -/
theorem steady_raiseIf (b : Bool) (r : EvReg) (k : Nat) (hk : k < 32) (s : State) : Steady s (raiseIf b r k s) := by
  cases b
  · exact ⟨rfl, fun _ _ h => h⟩
  · exact steady_raise r k hk s

/-- The judgement of the reduced diagnosis. -/
theorem steady_judgeReduced (s : State) : Steady s (judgeReduced s) := by
  have hset : Steady s (modPlk (fun p => { p with reduced := reducedNow s }) s) := steady_modPlk s rfl rfl rfl rfl
  have htrig (x : Trigger) (t : State) : Steady t (trigger x t) :=
    (trigger_only x t).steady (by simp) (by simp) (by simp)
  unfold judgeReduced
  dsimp only
  split
  · exact ⟨rfl, fun _ _ h => h⟩
  · split
    · exact (hset.trans (steady_raise .plk 5 (by omega) _)).trans (htrig _ _)
    · exact hset.trans (htrig _ _)

/-- The measurement of the response time. -/
theorem steady_measureResp (s : State) : Steady s (measureResp s) := by
  unfold measureResp
  split
  · exact Steady.trans ((takeFree_only s).steady (by simp) (by simp) (by simp)) (steady_modPlk (takeFree s).2 rfl rfl rfl rfl)
  · exact ⟨rfl, fun _ _ h => h⟩

/-- An entry of the change log. -/
theorem steady_plkLog (kind m code old new : Nat) (s : State) : Steady s (plkLog kind m code old new s) :=
  ⟨rfl, (plkLog_only _ _ _ _ _ _).eventsKept (by simp)⟩

/-- A passed start-up test. -/
theorem steady_testPass (s : State) : Steady s (testPass s) :=
  ((steady_modPlk s rfl rfl rfl rfl).trans (steady_raise .plk 2 (by omega) _)).trans (steady_plkLog _ _ _ _ _ _)

/-- The start-up test while GUARD_DI permits. -/
theorem steady_judgeTest {s : State} (h : inputLow (u8 (safeRec s) 1) s = false) : Steady s (judgeTest s) := by
  unfold judgeTest
  dsimp only
  split
  · exact ⟨rfl, fun _ _ h => h⟩
  · rw [if_neg (by rw [h]; exact Bool.false_ne_true)]
    split
    · exact ⟨rfl, fun _ _ h => h⟩
    · split
      · exact (steady_modPlk s rfl rfl rfl rfl).trans (steady_testPass _)
      · exact steady_modPlk s rfl rfl rfl rfl

/-! ### A lock that is closed stays closed -/

/-- The lock is closed: the lines stand, every channel is blocked, and DEMAND is latched. -/
structure Held (s : State) : Prop where
  locked : s.plk.locked = true
  lines : s.plk.lines = 0
  allOff : s.gate.allOff = true
  demand : Latched .plk 0 s

/-- A step that leaves the lock. -/
theorem Steady.held {s t : State} (h : Steady s t) (k : Held s) : Held t := by
  obtain ⟨hl, hrest⟩ := Prod.mk.inj h.view
  obtain ⟨hn, hrest⟩ := Prod.mk.inj hrest
  obtain ⟨_, hrest⟩ := Prod.mk.inj hrest
  obtain ⟨_, ha⟩ := Prod.mk.inj hrest
  exact ⟨hl.trans k.locked, hn.trans k.lines, ha.trans k.allOff, h.events _ _ k.demand⟩

/-- What becomes active is noted. -/
def safeNoted (s : State) : State :=
  raiseIf (bit (activeDemands s) 15 && !bit s.plk.seen 15) .plk 4 (modPlk (fun p => { p with seen := activeDemands s }) s)

/-- The demands to act on. -/
def freshDemands (s : State) : BitVec 16 :=
  if s.plk.locked then activeDemands s &&& ~~~s.plk.seen else activeDemands s

/-- The source that is acted on. -/
def firstDemand (s : State) : Option Nat := [1, 2, 3, 4, 5, 8].find? fun k => bit (freshDemands s) k

/-- The noted demands and the one that is acted on. -/
def safeActed (s : State) : State :=
  match firstDemand s with
  | none => safeNoted s
  | some k => actDemand k (demandSince k (safeNoted s)) (safeNoted s)

/-- A running function notes the demands, acts on the first, and judges the reduced diagnosis. -/
theorem safeEval_eq {s : State} (hon : safeOn s = true) : safeEval s = judgeReduced (safeActed s) :=
  if_neg (by rw [hon]; exact Bool.false_ne_true)

/-- Noting the demands leaves the lock. -/
theorem steady_safeNoted (s : State) : Steady s (safeNoted s) :=
  (steady_modPlk s rfl rfl rfl rfl).trans (steady_raiseIf _ .plk 4 (by omega) _)

/-- A closed lock stays closed when the demands are judged. -/
theorem Held.safeEval {s : State} (h : Held s) : Held (safeEval s) := by
  cases hon : safeOn s with
  | false =>
    have : Machine.safeEval s = s := if_pos (by rw [hon]; rfl)
    rwa [this]
  | true =>
    rw [safeEval_eq hon]
    refine (steady_judgeReduced _).held ?_
    have hn : Held (safeNoted s) := (steady_safeNoted s).held h
    unfold safeActed
    split
    · exact hn
    · rw [actDemand_locked hn.locked]
      exact ⟨hn.locked, hn.lines, hn.allOff, (modPlk_only _ _).eventsKept (by simp) _ _ hn.demand⟩

/-- A diagnostic failure leaves it closed. -/
theorem Held.diagFail {s : State} (h : Held s) {f : PlkState → PlkState} (hl : (f s.plk).locked = s.plk.locked)
    (hn : (f s.plk).lines = s.plk.lines) : Held (diagFail f s) := by
  have hf : Held (modPlk f s) := ⟨hl.trans h.locked, hn.trans h.lines, h.allOff, (modPlk_only f s).eventsKept (by simp) _ _ h.demand⟩
  exact ((steady_raise .plk 4 (by omega) _).held hf).safeEval

/-- So does a failed start-up test. -/
theorem Held.testFail {s : State} (h : Held s) : Held (testFail s) :=
  Held.diagFail (((steady_raise .plk 3 (by omega) s).trans (steady_plkLog 3 8 0 (safetyCrc s) (safetyCrc s) _)).held h) rfl rfl

/-- So does the judgement of the start-up test. -/
theorem Held.judgeTest {s : State} (h : Held s) : Held (judgeTest s) := by
  unfold Machine.judgeTest
  dsimp only
  split
  · exact h
  · split
    · split
      · exact ((steady_modPlk s rfl rfl rfl rfl).held h).testFail
      · exact (steady_modPlk s rfl rfl rfl rfl).held h
    · split
      · exact h
      · split
        · exact ((steady_modPlk s rfl rfl rfl rfl).held h |> (steady_testPass _).held)
        · exact (steady_modPlk s rfl rfl rfl rfl).held h

/-! ### The cycle -/

/-- The state in which the cycle begins. -/
def cycleBegun (v : Word) (s : State) : State := modPlk (fun p => { p with reported := v }) (periodic tkSafe (us 50) s)

/-- The demands, the response time and the start-up test of a cycle. -/
def cycleJudged (u : State) : State := judgeTest (measureResp (safeEval u))

/-- A cycle ends with the check of the channels. -/
def cycleEnded (t : State) : State :=
  if readbackBad t && !t.plk.readback then diagFail (fun p => { p with readback := true }) t else t

/-- A cycle of a running function. -/
theorem exec_safeCycle_eq {s : State} (hon : safeOn s = true) (v : Word) :
    exec (.safeCycle v) s = .next (cycleEnded (cycleJudged (cycleBegun v s))) :=
  congrArg Host.Outcome.next (if_neg (by rw [hon]; exact Bool.false_ne_true))

/-- The check of the channels leaves a closed lock closed. -/
theorem Held.cycleEnded {t : State} (h : Held t) : Held (cycleEnded t) := by
  unfold Machine.cycleEnded
  split
  · exact h.diagFail rfl rfl
  · exact h

/-- What a cycle reads beside the pulse lock: the records, the field inputs, the clocks and the mode. -/
structure SameInputs (s u : State) : Prop where
  key : u.key = s.key
  fio : u.fio = s.fio
  clock : u.clock = s.clock
  md : u.md = s.md

section
variable {s u : State}

/-- The safety record. -/
theorem SameInputs.safeRec (h : SameInputs s u) : safeRec u = safeRec s := recD_of_key h.key 0xA0 0

/-- The function runs. -/
theorem SameInputs.safeOn (h : SameInputs s u) : safeOn u = safeOn s := by
  rw [Machine.safeOn, Machine.safeOn, hasRec_of_key h.key, h.md]

/-- What an input reads. -/
theorem diByNum_of_fio (h : u.fio = s.fio) (n : Nat) : diByNum n u = diByNum n s := by
  have hx (i : Fin 16) : diReads i u = diReads i s := by
    rw [diReads, diReads, diValid, diValid, fsOk, fsOk, h]
  unfold diByNum
  split
  · exact hx _
  · rfl

/-- An input is not masked where no supply pulse ran. -/
theorem masked_never (hp : s.plk.pulseRun = false) (hm : s.plk.maskUntil = 0) (n : Nat) : masked n s = false := by
  simp [masked, hp, hm]

/-- An input's demand, where it is not masked. -/
theorem inputDemand_unmasked (hp : s.plk.pulseRun = false) (hm : s.plk.maskUntil = 0) (b : Nat) {n : Nat} (hn : n < 16) :
    inputDemand b n s = !diByNum n s := by
  have hne : ¬ n = 0xFF := by omega
  rw [inputDemand, if_neg hne, masked_never hp hm, if_neg Bool.false_ne_true, inputLow, decide_eq_true hn, Bool.true_and]

/-- The beginning of a cycle leaves what SAFE reads. -/
theorem cycleBegun_inputs (v : Word) (s : State) : SameInputs s (cycleBegun v s) ∧
    (cycleBegun v s).plk = { s.plk with reported := v } ∧ s.now ≤ (cycleBegun v s).now ∧
    Frame [.plk, .time] s (cycleBegun v s) := by
  have hframe : Frame [.plk, .time] s (cycleBegun v s) :=
    .under (modPlk_only _ _) (by simp) ((periodic_only tkSafe (us 50) s).mono (by simp))
  have hplk : (periodic tkSafe (us 50) s).plk = s.plk := periodic_only tkSafe (us 50) s .plk (by simp)
  refine ⟨⟨hframe .key (by simp), hframe .fio (by simp), hframe .clock (by simp),
    congrArg (fun m : ModeState => m.mode.toNat) (hframe .mode (by simp))⟩, ?_, ?_, hframe⟩
  · exact congrArg (fun p : PlkState => { p with reported := v }) hplk
  · exact now_le_periodic _ _ _

/-- DEM_DI demands. -/
theorem cycle_demands {v : Word} (hon : safeOn s = true) (hlock : s.plk.locked = false) {n : Nat}
    (hrec : u8 (safeRec s) 0 = n) (hn : n < 16) (hlow : diByNum n s = false) (hp : s.plk.pulseRun = false)
    (hm : s.plk.maskUntil = 0) : Held (safeEval (cycleBegun v s)) ∧ (safeEval (cycleBegun v s)).plk.source = 1 ∧
      (safeEval (cycleBegun v s)).plk.stopAt = (safeEval (cycleBegun v s)).now := by
  obtain ⟨hin, hplk, _, _⟩ := cycleBegun_inputs v s
  revert hin hplk
  generalize cycleBegun v s = u
  intro hin hplk
  have hlock' : u.plk.locked = false := by rw [hplk]; exact hlock
  have hdem : bit (activeDemands u) 1 = true := by
    rw [bit_activeDemands u 1 (by omega), hin.safeRec, hrec]
    change inputDemand 1 n u = true
    rw [inputDemand_unmasked (by rw [hplk]; exact hp) (by rw [hplk]; exact hm) 1 hn, diByNum_of_fio hin.fio, hlow]
    rfl
  have hfirst : firstDemand u = some 1 := by
    have hf : freshDemands u = activeDemands u := if_neg (by rw [hlock']; exact Bool.false_ne_true)
    rw [firstDemand, hf, List.find?_cons_of_pos hdem]
  have hacted : safeActed u = actDemand 1 (demandSince 1 (safeNoted u)) (safeNoted u) := by
    rw [safeActed, hfirst]
  have hnoted : (safeNoted u).plk.locked = false := by
    have hv := congrArg Prod.fst (steady_safeNoted u).view
    exact hv.trans hlock'
  obtain ⟨hstop, hoff, _, hl⟩ := actDemand_open_effect (src := 1) (at0 := demandSince 1 (safeNoted u)) hnoted
  rw [safeEval_eq (by rw [hin.safeOn, hon]), hacted]
  have hheld : Held (actDemand 1 (demandSince 1 (safeNoted u)) (safeNoted u)) :=
    ⟨congrArg PlkState.locked hstop, congrArg PlkState.lines hstop, hoff, hl⟩
  have hst := steady_judgeReduced (actDemand 1 (demandSince 1 (safeNoted u)) (safeNoted u))
  refine ⟨hst.held hheld, ?_, ?_⟩
  · have hv := congrArg (fun x => x.2.2.1) hst.view
    exact hv.trans (congrArg PlkState.source hstop)
  · have hv := congrArg (fun x => x.2.2.2.1) hst.view
    refine hv.trans ((congrArg PlkState.stopAt hstop).trans ?_)
    rw [(judgeReduced_only _).now_eq (by simp), (actDemand_only _ _ _).now_eq (by simp)]
    rfl

end

end Sys2Proof.Machine
end

section
/-! PROOFS. Demands and quiet cycles of SAFE, the enable lines, the supply pulse and the self-test (O50; R318 to R323;
log entries 3 and 44). -/

namespace Sys2Proof.Machine

section
variable {s : State}

/-! ### The demand of an input (R318 to R320) -/

/-- After its stop the check of the channels waits 30 µs. -/
theorem readbackBad_stopping {t : State} (h : t.plk.stopAt = t.now) : readbackBad t = false := by
  rw [readbackBad, h, us, decide_eq_false (by omega)]
  rfl

/-- A low DEM_DI locks the outputs in the cycle. -/
theorem exec_safeCycle_demands {v : Word} (hon : safeOn s = true) (hlock : s.plk.locked = false) {n : Nat}
    (hrec : u8 (safeRec s) 0 = n) (hn : n < 16) (hlow : diByNum n s = false) (hp : s.plk.pulseRun = false)
    (hm : s.plk.maskUntil = 0) : ∃ t, exec (.safeCycle v) s = .next t ∧ Held t ∧
      (diByNum (u8 (safeRec s) 1) s = true → t.plk.source = 1) := by
  obtain ⟨hheld, hsource, hstop⟩ := cycle_demands (v := v) hon hlock hrec hn hlow hp hm
  have hmeas := steady_measureResp (safeEval (cycleBegun v s))
  refine ⟨_, exec_safeCycle_eq hon v, ((hmeas.held hheld).judgeTest).cycleEnded, fun hguard => ?_⟩
  have hfull : Frame [.events, .board, .mode, .gate, .plk, .time, .free] s (measureResp (safeEval (cycleBegun v s))) :=
    .under (measureResp_only _) (by simp) (.under (safeEval_only _) (by simp) ((cycleBegun_inputs v s).2.2.2.mono (by simp)))
  have hhigh : inputLow (u8 (safeRec (measureResp (safeEval (cycleBegun v s)))) 1) (measureResp (safeEval (cycleBegun v s))) = false := by
    rw [safeRec, recD_of_key (hfull .key (by simp)), inputLow, diByNum_of_fio (hfull .fio (by simp))]
    change (_ && !diByNum (u8 (safeRec s) 1) s) = false
    rw [hguard]
    exact Bool.and_false _
  have hst := hmeas.trans (steady_judgeTest hhigh)
  have hsrc : (cycleJudged (cycleBegun v s)).plk.source = 1 := (congrArg (fun x => x.2.2.1) hst.view).trans hsource
  have hat : (cycleJudged (cycleBegun v s)).plk.stopAt = (cycleJudged (cycleBegun v s)).now := by
    refine (congrArg (fun x => x.2.2.2.1) hst.view).trans (hstop.trans ?_)
    rw [cycleJudged, (judgeTest_only _).now_eq (by simp), (measureResp_only _).now_eq (by simp)]
  have hend : cycleEnded (cycleJudged (cycleBegun v s)) = cycleJudged (cycleBegun v s) :=
    if_neg (by rw [readbackBad_stopping hat]; exact Bool.false_ne_true)
  rw [hend]
  exact hsrc

end

/-- Demands lock the outputs. -/
theorem demandsLockTheOutputs : Claim.DemandsLockTheOutputs := by
  intro s
  refine ⟨fun key h => exec_plkCmdDemand_ignored h, fun hon hlock => ⟨?_, fun n v hrec hn hlow hp hm => ?_⟩,
    exec_degrExpired_idle, fun hmd hlock hgo => ?_⟩
  · obtain ⟨hplk, hoff, hfg, hl⟩ := actDemand_open_effect (src := 7) (at0 := s.now) hlock
    refine ⟨_, exec_plkCmdDemand_acts hon, congrArg PlkState.locked hplk, congrArg PlkState.lines hplk,
      congrArg PlkState.source hplk, congrArg PlkState.stopAt hplk, hoff, hfg, gateOn_of_allOff hoff, hl, fun hhi hgo => ?_,
      (actDemand_only 7 s.now s).mono (by simp)⟩
    have hmode := actDemand_mode_of_runs (src := 7) (at0 := s.now) hlock (three_le_of_safeOn hon) hhi hgo
    exact ⟨congrArg ModeState.busy hmode, congrArg ModeState.target hmode, congrArg ModeState.nextCause hmode⟩
  · obtain ⟨t, hex, hheld, hsrc⟩ := exec_safeCycle_demands (v := v) hon hlock hrec hn hlow hp hm
    exact ⟨t, hex, hheld.locked, hheld.lines, hheld.allOff, hheld.demand, hsrc⟩
  · have hex := exec_degrExpired_eq hmd
    have htime : Frame [.time] s (elapseTo (s.mode.degrAt + s.plk.degrLeft) s) := elapseTo_only _ _
    have hmode : (elapseTo (s.mode.degrAt + s.plk.degrLeft) s).mode = s.mode := htime .mode (by simp)
    have hplk : (elapseTo (s.mode.degrAt + s.plk.degrLeft) s).plk = s.plk := htime .plk (by simp)
    obtain ⟨hp, hoff, hm, hnow⟩ := limitDemand_effect (u := elapseTo (s.mode.degrAt + s.plk.degrLeft) s) (by rw [hplk, hlock])
      ((congrArg (fun m : ModeState => m.mode.toNat) hmode).trans hmd) (by rwa [hmode])
    rw [hlock] at hex
    refine ⟨_, hex, congrArg PlkState.locked hp, congrArg PlkState.source hp, congrArg PlkState.lines hp, hoff,
      congrArg ModeState.busy hm, congrArg ModeState.target hm, congrArg ModeState.nextCause hm, congrArg ModeState.nextEvt hm, ?_⟩
    rw [hnow, elapseTo_now_eq_max]

section
variable {s : State}

/-! ### A quiet cycle (R318, R322) -/

/-- Without a connection nothing of one demands. -/
theorem anyConn_none (h : ∀ k : Fin 8, conTransport k s = 0) (f : Fin 8 → Conn → Bool) : anyConn s f = false := by
  rw [anyConn, List.any_eq_false]
  intro k _
  rw [h k]
  exact Bool.false_ne_true

/-- No demand is active. -/
theorem activeDemands_none {n : Nat} (h0 : u8 (safeRec s) 0 = 0xFF) (h1 : u8 (safeRec s) 1 = n) (hn : n < 16)
    (hhigh : diByNum n s = true) (hp : s.plk.pulseRun = false) (hm : s.plk.maskUntil = 0) (hc : ∀ k : Fin 8, conTransport k s = 0)
    (hself : s.plk.self = false) (hrb : s.plk.readback = false) (hpulse : s.plk.pulse = false)
    (hstart : s.plk.startFail = false) (hring : s.clock.safeRing = false) : activeDemands s = 0 := by
  have hd1 : inputDemand 1 (u8 (safeRec s) 0) s = false := by
    rw [h0]
    exact if_pos rfl
  have hd2 : inputDemand 2 (u8 (safeRec s) 1) s = false := by
    rw [h1, inputDemand_unmasked hp hm 2 hn, hhigh]
    rfl
  have hdiag : diagDemand s = false := by
    rw [diagDemand, hself, hrb, hpulse, hring]
    rfl
  rw [activeDemands, hd1, hd2, anyConn_none hc, anyConn_none hc, hdiag, hstart, hring]
  rfl

/-- Where no demand is active, only that is noted. -/
theorem safeEval_quiet (hon : safeOn s = true) (ha : activeDemands s = 0) (hr : reducedNow s = s.plk.reduced) :
    safeEval s = modPlk (fun p => { p with seen := 0 }) s := by
  have hfresh : freshDemands s = 0 := by
    rw [freshDemands, ha]
    split
    · exact BitVec.zero_and
    · rfl
  have hfirst : firstDemand s = none := by
    rw [firstDemand, hfresh]
    rfl
  have hnoted : safeNoted s = modPlk (fun p => { p with seen := 0 }) s := by
    rw [safeNoted, ha]
    rfl
  have hacted : safeActed s = modPlk (fun p => { p with seen := 0 }) s := by
    rw [safeActed, hfirst, hnoted]
  rw [safeEval_eq hon, hacted]
  exact if_pos hr

/-- A response time that is not measured. -/
theorem measureResp_idle (h : s.plk.respRun = false) : measureResp s = s := if_neg (by rw [h]; exact Bool.false_ne_true)

/-- A start-up test that nothing began. -/
theorem judgeTest_idle (hg : inputLow (u8 (safeRec s) 1) s = false) (hn : s.plk.guardLow = none) : judgeTest s = s := by
  unfold judgeTest
  dsimp only
  split
  · rfl
  · rw [if_neg (by rw [hg]; exact Bool.false_ne_true), hn]

/-- Lines that all toggle. -/
theorem readbackBad_toggling (h : s.plk.lines = 0xFFFFFFFF) : readbackBad s = false := by
  have hany : ((idx 32).any fun c => !bit s.plk.lines c.val && !readsOff s c) = false := by
    rw [List.any_eq_false]
    intro c _
    rw [h, bit_ones c.isLt]
    exact Bool.false_ne_true
  rw [readbackBad, hany, Bool.and_false]

/-- The reduced diagnosis of a module without connections. -/
theorem reducedNow_none (h : ∀ k : Fin 8, conTransport k s = 0) :
    reducedNow s = (safeOn s && ((s.clock.safeSrc && !s.clock.safeRing) || false)) := by
  rw [reducedNow, anyConn_none h]

/-- A quiet cycle takes the reported detectors. -/
theorem exec_safeCycle_quiet (hon : safeOn s = true) (v : Word) {n : Nat} (h0 : u8 (safeRec s) 0 = 0xFF)
    (h1 : u8 (safeRec s) 1 = n) (hn : n < 16) (hhigh : diByNum n s = true) (hp : s.plk.pulseRun = false)
    (hm : s.plk.maskUntil = 0) (hc : ∀ k : Fin 8, conTransport k s = 0) (hself : s.plk.self = false)
    (hrb : s.plk.readback = false) (hpulse : s.plk.pulse = false) (hstart : s.plk.startFail = false)
    (hring : s.clock.safeRing = false) (hr : reducedNow s = s.plk.reduced) (hresp : s.plk.respRun = false)
    (hguard : s.plk.guardLow = none) (hlines : s.plk.lines = 0xFFFFFFFF) : ∃ t, exec (.safeCycle v) s = .next t ∧
      t.plk = { s.plk with reported := v, seen := 0 } ∧ s.now ≤ t.now ∧ Frame [.plk, .time] s t := by
  obtain ⟨hin, hplk, hnow, hframe⟩ := cycleBegun_inputs v s
  have hex := exec_safeCycle_eq hon v
  revert hex hin hplk hnow hframe
  generalize cycleBegun v s = u
  intro hin hplk hnow hframe hex
  have hrec : safeRec u = safeRec s := hin.safeRec
  have hread : diByNum n u = true := (diByNum_of_fio hin.fio n).trans hhigh
  have hcu (k : Fin 8) : conTransport k u = 0 := by
    rw [conTransport, hrec]
    exact hc k
  have hact : activeDemands u = 0 := activeDemands_none (by rw [hrec, h0]) (by rw [hrec, h1]) hn hread (by rw [hplk]; exact hp)
    (by rw [hplk]; exact hm) hcu (by rw [hplk]; exact hself) (by rw [hplk]; exact hrb) (by rw [hplk]; exact hpulse)
    (by rw [hplk]; exact hstart) (by rw [hin.clock]; exact hring)
  have hred : reducedNow u = u.plk.reduced := by
    rw [reducedNow_none hcu, hin.safeOn, hin.clock, ← reducedNow_none hc, hr, hplk]
  have heval : safeEval u = modPlk (fun p => { p with seen := 0 }) u := safeEval_quiet (hin.safeOn.trans hon) hact hred
  have hwplk : (modPlk (fun p => { p with seen := 0 }) u).plk = { s.plk with reported := v, seen := 0 } :=
    congrArg (fun p : PlkState => { p with seen := 0 }) hplk
  have hwframe : Frame [.plk, .time] s (modPlk (fun p => { p with seen := 0 }) u) :=
    .under (modPlk_only _ _) (by simp) hframe
  have hwnow : s.now ≤ (modPlk (fun p => { p with seen := 0 }) u).now := hnow
  have hjudged : cycleJudged u = modPlk (fun p => { p with seen := 0 }) u := by
    rw [cycleJudged, heval, measureResp_idle (by rw [hwplk]; exact hresp)]
    refine judgeTest_idle ?_ (by rw [hwplk]; exact hguard)
    rw [safeRec, recD_of_key (hwframe .key (by simp)), inputLow, diByNum_of_fio (hwframe .fio (by simp))]
    change (_ && !diByNum (u8 (safeRec s) 1) s) = false
    rw [h1, hhigh]
    exact Bool.and_false _
  have hend : cycleEnded (cycleJudged u) = modPlk (fun p => { p with seen := 0 }) u := by
    rw [hjudged]
    exact if_neg (by rw [readbackBad_toggling (by rw [hwplk]; exact hlines)]; exact Bool.false_ne_true)
  rw [hend] at hex
  exact ⟨_, hex, hwplk, hwnow, hwframe⟩

/-! ### Diagnostic failures (R322) -/

/-- What is latched as a diagnostic failure: the self-test's and the supply pulse's. -/
def diagView (p : PlkState) : Bool × Bool := (p.self, p.pulse)

/-- The reduced diagnosis is another matter. -/
theorem diagView_judgeReduced (s : State) : diagView (judgeReduced s).plk = diagView s.plk := by
  have htrig (x : Trigger) (u : State) : (trigger x u).plk = u.plk := trigger_only x u .plk (by simp)
  unfold judgeReduced
  dsimp only
  split
  · rfl
  · split
    · rw [htrig, raise_only _ _ _ .plk (by simp)]
      exact Prod.ext rfl rfl
    · rw [htrig]
      exact Prod.ext rfl rfl

/-- Noting the demands leaves it. -/
theorem diagView_safeNoted (s : State) : diagView (safeNoted s).plk = diagView s.plk := by
  have hset (v : BitVec 16) : diagView (modPlk (fun p => { p with seen := v }) s).plk = diagView s.plk := rfl
  rw [safeNoted, raiseIf_only _ _ _ _ .plk (by simp)]
  exact hset _

/-- So does a demand. -/
theorem diagView_actDemand (src at0 : Nat) (s : State) : diagView (actDemand src at0 s).plk = diagView s.plk := by
  cases h : s.plk.locked with
  | true =>
    rw [actDemand_locked h]
    exact Prod.ext rfl rfl
  | false =>
    rw [(actDemand_open_effect h).1]
    exact Prod.ext rfl rfl

/-- Judging the demands leaves it. -/
theorem diagView_safeEval (s : State) : diagView (safeEval s).plk = diagView s.plk := by
  cases hon : safeOn s with
  | false =>
    have : safeEval s = s := if_pos (by rw [hon]; rfl)
    rw [this]
  | true =>
    rw [safeEval_eq hon, diagView_judgeReduced]
    unfold safeActed
    split
    · exact diagView_safeNoted s
    · rw [diagView_actDemand, diagView_safeNoted]

/-- An active demand locks the outputs. -/
theorem safeEval_locks_of (hon : safeOn s = true) {k : Nat} (hk : k ∈ [1, 2, 3, 4, 5, 8])
    (hb : bit (activeDemands s) k = true) : (safeEval s).plk.locked = true := by
  have hnoted : (safeNoted s).plk.locked = s.plk.locked := congrArg Prod.fst (steady_safeNoted s).view
  have hred (t : State) : (judgeReduced t).plk.locked = t.plk.locked := congrArg Prod.fst (steady_judgeReduced t).view
  rw [safeEval_eq hon, hred]
  cases hlock : s.plk.locked with
  | true =>
    unfold safeActed
    split
    · rw [hnoted, hlock]
    · rw [actDemand_locked (by rw [hnoted, hlock])]
      exact hnoted.trans hlock
  | false =>
    have hfresh : bit (freshDemands s) k = true := by rwa [freshDemands, hlock, if_neg Bool.false_ne_true]
    have hsome : (firstDemand s).isSome = true := List.find?_isSome.mpr ⟨k, hk, hfresh⟩
    obtain ⟨j, hj⟩ := Option.isSome_iff_exists.mp hsome
    have hacted : safeActed s = actDemand j (demandSince j (safeNoted s)) (safeNoted s) := by rw [safeActed, hj]
    rw [hacted, (actDemand_open_effect (by rw [hnoted, hlock])).1]
    rfl

/-- A diagnostic failure locks the outputs. -/
theorem safeEval_locks (hon : safeOn s = true) (hd : diagDemand s = true) : (safeEval s).plk.locked = true := by
  refine safeEval_locks_of hon (k := 5) (by decide) ?_
  rw [bit_activeDemands s 5 (by omega)]
  exact hd

/-- Judging the demands clears no event. -/
theorem safeEval_eventsKept (s : State) : EventsKept s (safeEval s) := by
  cases hon : safeOn s with
  | false =>
    have : safeEval s = s := if_pos (by rw [hon]; rfl)
    rw [this]
    exact fun _ _ h => h
  | true =>
    rw [safeEval_eq hon]
    refine .trans ?_ (steady_judgeReduced _).events
    unfold safeActed
    split
    · exact (steady_safeNoted s).events
    · refine (steady_safeNoted s).events.trans ?_
      cases h : (safeNoted s).plk.locked with
      | true =>
        rw [actDemand_locked h]
        exact (modPlk_only _ _).eventsKept (by simp)
      | false => exact (actDemand_effect _ _ _ h).1

/-- A diagnostic failure that is latched locks the outputs and says DIAG_FAIL. -/
theorem diagFail_locks {f : PlkState → PlkState} (hon : safeOn s = true)
    (hd : (f s.plk).self = true ∨ (f s.plk).pulse = true) : (diagFail f s).plk.locked = true ∧ Latched .plk 4 (diagFail f s) ∧
      (diagFail f s).plk.self = (f s.plk).self ∧ (diagFail f s).plk.pulse = (f s.plk).pulse := by
  have hfr : Frame [.plk, .events, .board] s (raise .plk 4 (modPlk f s)) :=
    .under (raise_only _ _ _) (by simp) ((modPlk_only _ _).mono (by simp))
  have hplk : (raise .plk 4 (modPlk f s)).plk = f s.plk := (raise_only _ _ _ .plk (by simp)).trans rfl
  have hon' : safeOn (raise .plk 4 (modPlk f s)) = true := by
    have hmd : (raise .plk 4 (modPlk f s)).md = s.md := congrArg (fun m : ModeState => m.mode.toNat) (hfr .mode (by simp))
    rw [safeOn, hasRec_of_key (hfr .key (by simp)), hmd]
    exact hon
  have hdiag : diagDemand (raise .plk 4 (modPlk f s)) = true := by
    rw [diagDemand, hplk]
    rcases hd with h | h <;> simp [h]
  refine ⟨safeEval_locks hon' hdiag, safeEval_eventsKept _ _ _ (latched_raise _ _ _ (by omega)), ?_⟩
  have hview : diagView (safeEval (raise .plk 4 (modPlk f s))).plk = diagView (f s.plk) := by rw [diagView_safeEval, hplk]
  exact Prod.mk.inj hview

/-! ### Supply pulse, self-test and enable lines (R318, R322) -/

/-- The function runs whatever happens beside the records and the mode. -/
theorem safeOn_of_frame {ps : List Part} {t : State} (h : Frame ps s t) (hk : .key ∉ ps) (hm : .mode ∉ ps) : safeOn t = safeOn s := by
  have hmd : t.md = s.md := congrArg (fun m : ModeState => m.mode.toNat) (h .mode hm)
  rw [safeOn, safeOn, hasRec_of_key (h .key hk), hmd]

/-- A pulse marks the function, and commands its output. -/
def pulseBegun (u : State) : State := refreshFn (modPlk (fun p => { p with pulseRun := true }) u)

/-- What a pulse changes. -/
theorem pulseBegun_effect (u : State) : (pulseBegun u).plk = { u.plk with pulseRun := true } ∧ (pulseBegun u).now = u.now ∧
    (pulseBegun u).mode = u.mode := by
  refine ⟨?_, (refreshFn_only _).now_eq (by simp), refreshFn_only _ .mode (by simp)⟩
  rw [pulseBegun, refreshFn_only _ .plk (by simp)]
  rfl

/-- The start of a pulse. -/
theorem exec_supplyPulse_eq (hon : safeOn s = true) : exec .supplyPulse s = .next (pulseBegun (periodic tkPulse (secs 1) s)) :=
  congrArg Host.Outcome.next (if_neg (by rw [hon]; exact Bool.false_ne_true))

/-- A supply pulse starts. -/
theorem exec_supplyPulse_starts (hon : safeOn s = true) : ∃ t, exec .supplyPulse s = .next t ∧
    t.plk = { s.plk with pulseRun := true } ∧ s.now ≤ t.now ∧ t.mode = s.mode := by
  have htime : Frame [.time] s (periodic tkPulse (secs 1) s) := periodic_only _ _ _
  obtain ⟨hplk, hnow, hmode⟩ := pulseBegun_effect (periodic tkPulse (secs 1) s)
  refine ⟨_, exec_supplyPulse_eq hon, ?_, ?_, ?_⟩
  · rw [hplk, htime .plk (by simp)]
  · rw [hnow]
    exact now_le_periodic _ _ _
  · rw [hmode, htime .mode (by simp)]

/-- The state after the pulse, before its diagnosis. -/
def pulseEnded (bad : Bool) (u : State) : State :=
  refreshFn (modPlk (fun p => { p with pulseRun := false, maskUntil := u.now + us 20, pulse := bad }) u)

/-- The pulse after its end. -/
theorem pulseEnded_effect (bad : Bool) (u : State) :
    (pulseEnded bad u).plk = { u.plk with pulseRun := false, maskUntil := u.now + us 20, pulse := bad } ∧
    (pulseEnded bad u).now = u.now ∧ Frame [.plk, .events, .board, .fio] u (pulseEnded bad u) := by
  refine ⟨?_, (refreshFn_only _).now_eq (by simp), .under (refreshFn_only _) (by simp) ((modPlk_only _ _).mono (by simp))⟩
  rw [pulseEnded, refreshFn_only _ .plk (by simp)]
  rfl

/-- The end of a pulse. -/
theorem exec_supplyPulseEnd_eq (hp : s.plk.pulseRun = true) (d g : Bool) : exec (.supplyPulseEnd d g) s =
    .next (if !g || (u8 (safeRec s) 0 != 0xFF && !d) then
      diagFail id (pulseEnded (!g || (u8 (safeRec s) 0 != 0xFF && !d)) (elapseTo (lastTick tkPulse s + us 100) s))
      else pulseEnded (!g || (u8 (safeRec s) 0 != 0xFF && !d)) (elapseTo (lastTick tkPulse s + us 100) s)) :=
  congrArg Host.Outcome.next (if_neg (by rw [hp]; exact Bool.false_ne_true))

/-- A pulse that both inputs have seen. -/
theorem exec_supplyPulseEnd_good (hp : s.plk.pulseRun = true) : ∃ t, exec (.supplyPulseEnd true true) s = .next t ∧
    t.plk.pulseRun = false ∧ t.plk.pulse = false ∧ t.plk.maskUntil = t.now + 8000 ∧ t.plk.locked = s.plk.locked ∧
    t.mode = s.mode := by
  have hex := exec_supplyPulseEnd_eq hp true true
  rw [(by simp : (!true || (u8 (safeRec s) 0 != 0xFF && !true)) = false), if_neg Bool.false_ne_true] at hex
  have htime : Frame [.time] s (elapseTo (lastTick tkPulse s + us 100) s) := elapseTo_only _ _
  obtain ⟨hplk, hnow, hframe⟩ := pulseEnded_effect false (elapseTo (lastTick tkPulse s + us 100) s)
  refine ⟨_, hex, ?_, ?_, ?_, ?_, ?_⟩
  · rw [hplk]
  · rw [hplk]
  · rw [hplk, hnow, us, us]
  · rw [hplk, htime .plk (by simp)]
  · rw [hframe .mode (by simp), htime .mode (by simp)]

/-- A pulse that failed is noted. -/
theorem pulse_pulseEnded (u : State) : (pulseEnded true u).plk.pulse = true := by
  rw [(pulseEnded_effect true u).1]

/-- The function runs after the pulse as before. -/
theorem safeOn_pulseEnded (bad : Bool) (u : State) : safeOn (pulseEnded bad u) = safeOn u :=
  safeOn_of_frame (pulseEnded_effect bad u).2.2 (by simp) (by simp)

/-- A pulse that failed locks the outputs. -/
theorem diagFail_pulse (hon : safeOn s = true) (hp : s.plk.pulse = true) : (diagFail id s).plk.pulse = true ∧
    (diagFail id s).plk.locked = true ∧ Latched .plk 4 (diagFail id s) := by
  obtain ⟨hlocked, hl, _, hkept⟩ := diagFail_locks (f := id) hon (.inr hp)
  exact ⟨hkept.trans hp, hlocked, hl⟩

/-- A pulse that GUARD_DI has not seen. -/
theorem exec_supplyPulseEnd_bad (hon : safeOn s = true) (hp : s.plk.pulseRun = true) :
    ∃ t, exec (.supplyPulseEnd true false) s = .next t ∧ t.plk.pulse = true ∧ t.plk.locked = true ∧ Latched .plk 4 t := by
  have hex := exec_supplyPulseEnd_eq hp true false
  rw [(by simp : (!false || (u8 (safeRec s) 0 != 0xFF && !true)) = true), if_pos rfl] at hex
  have htime : Frame [.time] s (elapseTo (lastTick tkPulse s + us 100) s) := elapseTo_only _ _
  have hon' : safeOn (pulseEnded true (elapseTo (lastTick tkPulse s + us 100) s)) = true := by
    rw [safeOn_pulseEnded, safeOn_of_frame htime (by simp) (by simp), hon]
  exact ⟨_, hex, diagFail_pulse hon' (pulse_pulseEnded _)⟩

/-- A passed self-test. -/
theorem exec_safeSelfTest_pass (hon : safeOn s = true) : ∃ t, exec (.safeSelfTest true) s = .next t ∧ t.plk = s.plk ∧
    Frame [.time] s t := by
  have hex : exec (.safeSelfTest true) s = .next (periodic tkSelf (secs 10) s) :=
    congrArg Host.Outcome.next (if_neg (by rw [hon]; exact Bool.false_ne_true))
  have htime : Frame [.time] s (periodic tkSelf (secs 10) s) := periodic_only _ _ _
  exact ⟨_, hex, htime .plk (by simp), htime⟩

/-- A failed one. -/
theorem exec_safeSelfTest_fail (hon : safeOn s = true) : ∃ t, exec (.safeSelfTest false) s = .next t ∧ t.plk.self = true ∧
    t.plk.locked = true ∧ Latched .plk 4 t := by
  have hex : exec (.safeSelfTest false) s = .next (diagFail (fun p => { p with self := true }) (periodic tkSelf (secs 10) s)) :=
    congrArg Host.Outcome.next (if_neg (by rw [hon]; exact Bool.false_ne_true))
  have htime : Frame [.time] s (periodic tkSelf (secs 10) s) := periodic_only _ _ _
  obtain ⟨hlocked, hl, hself, _⟩ := diagFail_locks (s := periodic tkSelf (secs 10) s) (f := fun p => { p with self := true })
    (by rw [safeOn_of_frame htime (by simp) (by simp), hon]) (.inl rfl)
  exact ⟨_, hex, hself, hlocked, hl⟩

/-- A line that toggles, or a detector that is off, turns nothing off. -/
theorem exec_enableDetectOff_idle {c : Fin 32} (h : bit s.plk.lines c.val = true ∨ bit s.plk.enabled c.val = false) :
    exec (.enableDetectOff c) s = .next s :=
  congrArg Host.Outcome.next (if_pos (by rcases h with h | h <;> simp [h]))

/-- A detector that is off, and its channel. -/
def detectorOff (c : Fin 32) (u : State) : State :=
  cutGate c (modPlk (fun p => { p with enabled := putBit p.enabled c.val false }) u)

/-- What a detector that turns off changes. -/
theorem detectorOff_effect (c : Fin 32) (u : State) : (detectorOff c u).plk.enabled = putBit u.plk.enabled c.val false ∧
    (Claim.chOf c (detectorOff c u)).onUntil = some (min ((Claim.chOf c u).onUntil.getD u.now) u.now) ∧
    (detectorOff c u).now = u.now ∧ Frame [.plk, .gate] u (detectorOff c u) := by
  refine ⟨rfl, ?_, rfl, .under (cutGate_only _ _) (by simp) ((modPlk_only _ _).mono (by simp))⟩
  rw [detectorOff, cutGate, chOf_modCh_self]
  rfl

/-- A line that has stopped turns its channel off 20 µs later. -/
theorem exec_enableDetectOff_off {c : Fin 32} (hl : bit s.plk.lines c.val = false) (he : bit s.plk.enabled c.val = true) :
    ∃ t, exec (.enableDetectOff c) s = .next t ∧ bit t.plk.enabled c.val = false ∧
      (∀ d : Fin 32, d ≠ c → bit t.plk.enabled d.val = bit s.plk.enabled d.val) ∧
      (t.gate.ch[c]).onUntil.any (fun u => decide (u ≤ t.now)) = true ∧ t.now = max s.now (s.plk.stopAt + 8000) ∧
      Frame [.plk, .gate, .time] s t := by
  have hex : exec (.enableDetectOff c) s = .next (detectorOff c (elapseTo (s.plk.stopAt + us 20) s)) :=
    congrArg Host.Outcome.next (if_neg (by rw [hl, he]; exact Bool.false_ne_true))
  have htime : Frame [.time] s (elapseTo (s.plk.stopAt + us 20) s) := elapseTo_only _ _
  obtain ⟨hen, hch, hnow, hframe⟩ := detectorOff_effect c (elapseTo (s.plk.stopAt + us 20) s)
  rw [htime .plk (by simp)] at hen
  refine ⟨_, hex, ?_, fun d hd => ?_, ?_, ?_, .under hframe (by simp) (htime.mono (by simp))⟩
  · rw [hen, bit_putBit _ _ _ _ c.isLt, if_pos rfl]
  · rw [hen, bit_putBit _ _ _ _ c.isLt, if_neg fun h => hd (Fin.ext h)]
  · change (Claim.chOf c (detectorOff c (elapseTo (s.plk.stopAt + us 20) s))).onUntil.any _ = true
    rw [hch, hnow]
    exact decide_eq_true (Nat.min_le_right _ _)
  · rw [hnow, elapseTo_now_eq_max, us]

end

/-- Quiet cycles, enable lines, supply pulse and self-test. -/
theorem safeCyclesWatchTheChannels : Claim.SafeCyclesWatchTheChannels := by
  intro s
  refine ⟨fun hoff v b => ?_, fun hon => ⟨fun v n h0 h1 hhigh hp hm hc hself hrb hpulse hstart hring hr hresp hguard hlines => ?_,
    exec_supplyPulse_starts hon, fun hp => ⟨exec_supplyPulseEnd_good hp, exec_supplyPulseEnd_bad hon hp⟩,
    exec_safeSelfTest_pass hon, exec_safeSelfTest_fail hon⟩,
    fun c => ⟨exec_enableDetectOff_idle, exec_enableDetectOff_off⟩⟩
  · have hn : (!safeOn s) = true := by
      rw [hoff]
      rfl
    exact ⟨congrArg Host.Outcome.next (if_pos hn), congrArg Host.Outcome.next (if_pos hn), congrArg Host.Outcome.next (if_pos hn)⟩
  · have hread : diByNum n.val s = true := (dif_pos n.isLt).trans hhigh
    exact exec_safeCycle_quiet hon v h0 h1 n.isLt hread hp hm hc hself hrb hpulse hstart hring hr hresp hguard hlines

/-- Settles O50. -/
theorem demandsAndSafeCycles : Obligations.DemandsAndSafeCycles := ⟨demandsLockTheOutputs, safeCyclesWatchTheChannels⟩

end Sys2Proof.Machine
end

section
/-! PROOFS. Resets of the pulse lock, the proof interval and the lockout of SAFEAUTH (O51; R324, R325, R327, R328; log entries 3
and 45). -/

namespace Sys2Proof.Machine

section
variable {s : State}

/-! ### A reset that is asked for (R324, R328) -/

/-- A reset that is refused says so. -/
theorem askReset_refused {ok : Bool} (h : ok = false ∨ resetReady s = false) : askReset ok s = raise .plk 9 s :=
  if_neg (by rcases h with h | h <;> simp [h])

/-- A reset that is accepted. -/
theorem askReset_accepted (h : resetReady s = true) : askReset true s = acceptReset s := if_pos (by rw [h]; rfl)

/-- The lock after a reset, before the mode controller. -/
def resetTaken (s : State) : State :=
  modGate (fun g => { g with allOff := s.claim.a.claim == 0 && s.claim.b.claim == 0 }) (modPlk (fun p => { p with
    locked := false, lines := 0xFFFFFFFF, enabled := 0xFFFFFFFF, respRun := false })
      (plkLog 6 8 0 (safetyCrc s) (safetyCrc s) (raise .plk 1 s)))

/-- An accepted reset opens the lock and asks for M3. -/
theorem acceptReset_eq (s : State) : acceptReset s = trigger (.auto 11 3 2) (resetTaken s) := rfl

/-- What an accepted reset opens. -/
theorem resetTaken_effect (s : State) : (resetTaken s).plk.locked = false ∧ (resetTaken s).plk.lines = 0xFFFFFFFF ∧
    (resetTaken s).plk.enabled = 0xFFFFFFFF ∧ (resetTaken s).plk.logCnt = satInc s.plk.logCnt ∧
    (resetTaken s).gate.ch = s.gate.ch ∧
    (resetTaken s).gate.allOff = (s.claim.a.claim == 0 && s.claim.b.claim == 0) ∧
    Latched .plk 1 (resetTaken s) ∧ (resetTaken s).mode = s.mode := by
  have hlog := plkLog_only 6 8 0 (safetyCrc s) (safetyCrc s) (raise .plk 1 s)
  have hfr : Frame [.plk, .gate] (raise .plk 1 s) (resetTaken s) :=
    .under (modGate_only _ _) (by simp) (.under (modPlk_only _ _) (by simp) (hlog.mono (by simp)))
  have hcnt : (plkLog 6 8 0 (safetyCrc s) (safetyCrc s) (raise .plk 1 s)).plk.logCnt = satInc (raise .plk 1 s).plk.logCnt := rfl
  refine ⟨rfl, rfl, rfl, ?_, ?_, rfl, hfr.eventsKept (by simp) _ _ (latched_raise _ _ _ (by omega)), ?_⟩
  · refine hcnt.trans ?_
    rw [raise_only _ _ _ .plk (by simp)]
  · have hg : (resetTaken s).gate.ch = (raise .plk 1 s).gate.ch := rfl
    rw [hg, raise_only _ _ _ .gate (by simp)]
  · rw [hfr .mode (by simp), raise_only _ _ _ .mode (by simp)]

/-- What an accepted reset does. -/
theorem acceptReset_effect (s : State) : (acceptReset s).plk.locked = false ∧ (acceptReset s).plk.lines = 0xFFFFFFFF ∧
    (acceptReset s).plk.enabled = 0xFFFFFFFF ∧ Latched .plk 1 (acceptReset s) ∧
    (acceptReset s).plk.logCnt = satInc s.plk.logCnt ∧ s.gate.ch = (acceptReset s).gate.ch ∧
    (s.md = 11 → s.mode.busy = false →
      (acceptReset s).mode.busy = true ∧ (acceptReset s).mode.target = 3 ∧ (acceptReset s).mode.nextCause = 2) ∧
    ((acceptReset s).gate.allOff = true ↔ s.claim.a.claim = 0 ∧ s.claim.b.claim = 0) := by
  obtain ⟨hl, hn, he, hc, hch, hoff, hev, hmode⟩ := resetTaken_effect s
  have hplk : (trigger (.auto 11 3 2) (resetTaken s)).plk = (resetTaken s).plk := trigger_only _ _ .plk (by simp)
  have hgate : (trigger (.auto 11 3 2) (resetTaken s)).gate = (resetTaken s).gate := trigger_only _ _ .gate (by simp)
  rw [acceptReset_eq, hplk, hgate]
  refine ⟨hl, hn, he, (trigger_only _ _).eventsKept (by simp) _ _ hev, hc, hch.symm, fun hmd hb => ?_, ?_⟩
  · have hm : s.mode.mode = 11 := BitVec.eq_of_toNat_eq hmd
    have hrow : Trigger.row (.auto 11 3 2) (resetTaken s) = some ⟨3, 2, 0⟩ := if_pos (by rw [hmode, hm]; rfl)
    rw [trigger_begins hrow (by rw [hmode, hb])]
    exact ⟨rfl, rfl, rfl⟩
  · rw [hoff]
    simp

/-! ### What a reset judges (R324, R334) -/

/-- The connections' demands do not read what a frame keeps of its RESET bit. -/
theorem anyConn_resetLen (k : Fin 8) (f : Fin 8 → Conn → Bool) (hf : ∀ j c, f j { c with resetLen := none } = f j c) :
    anyConn (modConn k (fun c => { c with resetLen := none }) s) f = anyConn s f := by
  rw [anyConn, anyConn]
  congr 1
  funext j
  have hc : conTransport j (modConn k (fun c => { c with resetLen := none }) s) = conTransport j s := rfl
  rw [hc]
  by_cases hj : j = k
  · subst hj
    have hx : (modConn j (fun c => { c with resetLen := none }) s).plk.conn[j] = { s.plk.conn[j] with resetLen := none } :=
      modAt_getElem_self _ _ _
    rw [hx, hf]
  · have hx : (modConn k (fun c => { c with resetLen := none }) s).plk.conn[j] = s.plk.conn[j] := modAt_getElem_other _ _ _ _ hj
    rw [hx]

/-- So they are those of the state before. -/
theorem activeDemands_resetLen (k : Fin 8) : activeDemands (modConn k (fun c => { c with resetLen := none }) s) = activeDemands s := by
  change BitVec.ofNat 16 (packBits [false, inputDemand 1 (u8 (safeRec s) 0) s, inputDemand 2 (u8 (safeRec s) 1) s,
    anyConn (modConn k (fun c => { c with resetLen := none }) s) (fun _ c => c.state == 2 && !c.run),
    anyConn (modConn k (fun c => { c with resetLen := none }) s) (fun k c => c.state != 2 && !conReduces k s),
    diagDemand s, false, false, s.plk.startFail, false, false, false, false, false, false, s.clock.safeRing]) = _
  rw [anyConn_resetLen k _ fun _ _ => rfl, anyConn_resetLen k _ fun _ _ => rfl]
  rfl

/-- And so is whether a reset is permitted. -/
theorem resetReady_resetLen (k : Fin 8) : resetReady (modConn k (fun c => { c with resetLen := none }) s) = resetReady s := by
  have hon : safeOn (modConn k (fun c => { c with resetLen := none }) s) = safeOn s := rfl
  rw [resetReady, demandActive, activeDemands_resetLen, hon]
  rfl

/-- A noted pattern leaves whether a reset is permitted. -/
theorem resetReady_rstSeen (v : Long) : resetReady (modPlk (fun p => { p with rstSeen := v }) s) = resetReady s := rfl

/-! ### RST_DI and the RESET bit of a frame (R307, R324) -/

/-- The last fall of RST_DI is one that no reset has judged. -/
def fallNew (n : Fin 16) (s : State) : Bool :=
  diValid n s && !(Claim.inOf n s).level && (Claim.inOf n s).fallTs != s.plk.rstSeen

/-- The stamps of RST_DI show a pulse of 0.1 s to 2 s. -/
def fallShaped (x : FieldIn) : Bool := decide (x.riseTs.toNat < x.fallTs.toNat) && resetPattern (x.fallTs - x.riseTs).toNat

/-- A fall that was judged, or is not valid, is none. -/
theorem resetByInput_old {n : Fin 16} (h : fallNew n s = false) : resetByInput n s = s := by
  refine if_pos ?_
  have hx : (diValid n s && !(Claim.inOf n s).level && (Claim.inOf n s).fallTs != s.plk.rstSeen) = false := h
  change (!diValid n s || (Claim.inOf n s).level || (Claim.inOf n s).fallTs == s.plk.rstSeen) = true
  cases hd : diValid n s with
  | false => rfl
  | true =>
    cases hl : (Claim.inOf n s).level with
    | true => rfl
    | false =>
      rw [hd, hl] at hx
      simpa [bne] using hx

/-- A new fall is judged by its pulse. -/
theorem resetByInput_new {n : Fin 16} (h : fallNew n s = true) : resetByInput n s =
    if fallShaped (Claim.inOf n s) then askReset true (modPlk (fun p => { p with rstSeen := (Claim.inOf n s).fallTs }) s)
    else modPlk (fun p => { p with rstSeen := (Claim.inOf n s).fallTs }) s := by
  obtain ⟨hvl, hf⟩ := Bool.and_eq_true_iff.mp h
  obtain ⟨hv, hl⟩ := Bool.and_eq_true_iff.mp hvl
  refine if_neg ?_
  change ¬ (!diValid n s || (Claim.inOf n s).level || (Claim.inOf n s).fallTs == s.plk.rstSeen) = true
  have hl' : (Claim.inOf n s).level = false := by simpa using hl
  have hf' : ((Claim.inOf n s).fallTs == s.plk.rstSeen) = false := by simpa [bne] using hf
  rw [hv, hl', hf']
  exact Bool.false_ne_true

/-- RST_DI as R324 reads it. -/
theorem resetComes_rstDi (s : State) : Claim.resetComes .rstDi s =
    (idx 16).any fun n => decide (u8 (recD s 0xA0 0) 2 = n.val) && fallNew n s && fallShaped (Claim.inOf n s) := by
  unfold Claim.resetComes
  refine congrArg (List.any (idx 16)) (funext fun n => ?_)
  have hp : resetPattern ((Claim.inOf n s).fallTs - (Claim.inOf n s).riseTs).toNat =
      (decide (40000000 ≤ ((Claim.inOf n s).fallTs - (Claim.inOf n s).riseTs).toNat) &&
        decide (((Claim.inOf n s).fallTs - (Claim.inOf n s).riseTs).toNat ≤ 800000000)) := by
    rw [resetPattern, ms, ms, Bool.decide_and]
  rw [fallNew, fallShaped, hp]
  simp only [Bool.and_assoc]
  rfl

/-- Where RST_DI is input n, its reset comes with that input's fall. -/
theorem resetComes_rstDi_of {n : Fin 16} (h : u8 (safeRec s) 2 = n.val) :
    Claim.resetComes .rstDi s = (fallNew n s && fallShaped (Claim.inOf n s)) := by
  rw [resetComes_rstDi, Bool.eq_iff_iff, List.any_eq_true]
  have hrec : u8 (recD s 0xA0 0) 2 = n.val := h
  constructor
  · rintro ⟨m, _, hm⟩
    rw [Bool.and_assoc] at hm
    obtain ⟨hn, hf⟩ := Bool.and_eq_true_iff.mp hm
    have hmn : m = n := Fin.ext ((of_decide_eq_true hn).symm.trans hrec)
    rwa [← hmn]
  · intro hf
    refine ⟨n, mem_idx n, ?_⟩
    rw [Bool.and_assoc, hf, decide_eq_true hrec]
    rfl

/-- Without RST_DI none comes. -/
theorem resetComes_rstDi_none (h : ¬ u8 (safeRec s) 2 < 16) : Claim.resetComes .rstDi s = false := by
  rw [resetComes_rstDi, List.any_eq_false]
  intro n _
  have hne : ¬ u8 (recD s 0xA0 0) 2 = n.val := fun hn => h (lt_of_eq_of_lt hn n.isLt)
  rw [decide_eq_false hne]
  exact Bool.false_ne_true

/-- What RST_DI shows stays with the field side, the records and the judged stamp. -/
theorem resetComes_rstDi_congr {t : State} (hf : t.fio = s.fio) (hk : t.key = s.key) (hp : t.plk.rstSeen = s.plk.rstSeen) :
    Claim.resetComes .rstDi t = Claim.resetComes .rstDi s := by
  rw [resetComes_rstDi, resetComes_rstDi, recD_of_key hk]
  refine congrArg (List.any (idx 16)) (funext fun n => ?_)
  have hv : diValid n t = diValid n s := by
    rw [diValid, diValid, fsOk, fsOk, hf]
  rw [fallNew, fallNew, hv, inOf_of_fio s hf, hp]

/-- A fall that was judged shows no reset again. -/
theorem resetComes_rstDi_judged {n : Fin 16} (h : u8 (safeRec s) 2 = n.val) {t : State} (hf : t.fio = s.fio) (hk : t.key = s.key)
    (hp : t.plk.rstSeen = (Claim.inOf n s).fallTs) : Claim.resetComes .rstDi t = false := by
  have hrec : u8 (safeRec t) 2 = n.val := by
    rw [safeRec, recD_of_key hk]
    exact h
  rw [resetComes_rstDi_of hrec, fallNew, inOf_of_fio s hf, hp, bne_self_eq_false, Bool.and_false, Bool.false_and]

/-- A frame's RESET bit as R324 reads it. -/
theorem resetComes_frame (k : Fin 8) (s : State) : Claim.resetComes (.frame k) s =
    (decide ((s.plk.conn[k]).state = 2) && ((s.plk.conn[k]).resetLen).any fun n => decide (40000000 ≤ n) && decide (n ≤ 800000000)) := rfl

/-- A pulse of the RESET bit is judged once. -/
theorem resetByFrame_judged {k : Fin 8} {high : Nat} (h : (s.plk.conn[k]).resetLen = some high) : resetByFrame k s =
    if Claim.resetComes (.frame k) s then askReset true (modConn k (fun c => { c with resetLen := none }) s)
    else modConn k (fun c => { c with resetLen := none }) s := by
  have hp : resetPattern high = (decide (40000000 ≤ high) && decide (high ≤ 800000000)) := by
    rw [resetPattern, ms, ms, Bool.decide_and]
  have hc : Claim.resetComes (.frame k) s = ((s.plk.conn[k]).state == 2 && resetPattern high) := by
    rw [resetComes_frame, h, hp]
    rfl
  unfold resetByFrame
  dsimp only
  rw [h, hc]

/-- Without a pulse nothing is judged. -/
theorem resetByFrame_idle {k : Fin 8} (h : (s.plk.conn[k]).resetLen = none) : resetByFrame k s = s := by
  unfold resetByFrame
  dsimp only
  rw [h]

end

end Sys2Proof.Machine
end

section
/-! PROOFS. Resets are judged, and the proof interval and lockouts end (O51; R324, R325, R327, R328; log entries 3 and 45). -/

namespace Sys2Proof.Machine

section
variable {s : State}

/-! ### The sources of a reset (R324) -/

/-- The guard of a running function. -/
theorem not_off (hon : safeOn s = true) : ¬ (!safeOn s) = true := by
  rw [hon]
  exact Bool.false_ne_true

/-- RST_DI on an input. -/
theorem plkReset_rstDi (hon : safeOn s = true) (h : u8 (safeRec s) 2 < 16) :
    plkReset .rstDi s = resetByInput ⟨u8 (safeRec s) 2, h⟩ s := (if_neg (not_off hon)).trans (dif_pos h)

/-- No RST_DI. -/
theorem plkReset_rstDi_absent (hon : safeOn s = true) (h : ¬ u8 (safeRec s) 2 < 16) : plkReset .rstDi s = s :=
  (if_neg (not_off hon)).trans (dif_neg h)

/-- A connection. -/
theorem plkReset_frame (hon : safeOn s = true) (k : Fin 8) : plkReset (.frame k) s = resetByFrame k s := if_neg (not_off hon)

/-- The host with its key. -/
theorem plkReset_host (hon : safeOn s = true) :
    plkReset (.host 0x504C) s = askReset ((u8 (safeRec s) 5).testBit 0) s := (if_neg (not_off hon)).trans (if_pos rfl)

/-- The host without it. -/
theorem plkReset_host_other (hon : safeOn s = true) {key : Half} (h : key ≠ 0x504C) : plkReset (.host key) s = s :=
  (if_neg (not_off hon)).trans (if_neg h)

/-! ### Resets that do not come -/

/-- RST_DI without a reset at most notes the fall it has judged. -/
theorem plkReset_rstDi_none (hon : safeOn s = true) (h : Claim.resetComes .rstDi s = false) :
    (plkReset .rstDi s).plk.locked = s.plk.locked ∧ Frame [.plk] s (plkReset .rstDi s) := by
  by_cases hn : u8 (safeRec s) 2 < 16
  · have hc : (fallNew ⟨u8 (safeRec s) 2, hn⟩ s && fallShaped (Claim.inOf ⟨u8 (safeRec s) 2, hn⟩ s)) = false :=
      (resetComes_rstDi_of (n := ⟨u8 (safeRec s) 2, hn⟩) rfl).symm.trans h
    rw [plkReset_rstDi hon hn]
    cases hnew : fallNew ⟨u8 (safeRec s) 2, hn⟩ s with
    | false =>
      rw [resetByInput_old hnew]
      exact ⟨rfl, Frame.refl _ _⟩
    | true =>
      rw [hnew, Bool.true_and] at hc
      rw [resetByInput_new hnew, hc, if_neg Bool.false_ne_true]
      exact ⟨rfl, modPlk_only _ _⟩
  · rw [plkReset_rstDi_absent hon hn]
    exact ⟨rfl, Frame.refl _ _⟩

/-- A frame without a reset at most forgets its pulse. -/
theorem plkReset_frame_none (hon : safeOn s = true) {k : Fin 8} (h : Claim.resetComes (.frame k) s = false) :
    (plkReset (.frame k) s).plk.locked = s.plk.locked ∧ ((plkReset (.frame k) s).plk.conn[k]).resetLen = none ∧
      Frame [.plk] s (plkReset (.frame k) s) := by
  rw [plkReset_frame hon]
  cases hlen : (s.plk.conn[k]).resetLen with
  | none =>
    rw [resetByFrame_idle hlen]
    exact ⟨rfl, hlen, Frame.refl _ _⟩
  | some high =>
    rw [resetByFrame_judged hlen, h, if_neg Bool.false_ne_true]
    exact ⟨rfl, congrArg Conn.resetLen (modAt_getElem_self _ _ _), modPlk_only _ _⟩

/-! ### Resets that come -/

/-- A reset that comes is asked for once its cause was noted, and only its own source is used up. -/
structure ResetAsked (src : ResetSource) (s u : State) : Prop where
  asked : plkReset src s = askReset true u
  frame : Frame [.plk] s u
  ready : resetReady u = resetReady s
  locked : u.plk.locked = s.plk.locked
  count : u.plk.logCnt = s.plk.logCnt
  once : Claim.resetComes .rstDi u = (decide (src ≠ .rstDi) && Claim.resetComes .rstDi s)

/-- RST_DI's fall is noted. -/
theorem resetAsked_rstDi (hon : safeOn s = true) (h : Claim.resetComes .rstDi s = true) : ∃ u, ResetAsked .rstDi s u := by
  have hn : u8 (safeRec s) 2 < 16 := by
    by_contra hno
    rw [resetComes_rstDi_none hno] at h
    exact Bool.false_ne_true h
  have hc : (fallNew ⟨u8 (safeRec s) 2, hn⟩ s && fallShaped (Claim.inOf ⟨u8 (safeRec s) 2, hn⟩ s)) = true :=
    (resetComes_rstDi_of (n := ⟨u8 (safeRec s) 2, hn⟩) rfl).symm.trans h
  obtain ⟨hnew, hshape⟩ := Bool.and_eq_true_iff.mp hc
  refine ⟨modPlk (fun p => { p with rstSeen := (Claim.inOf ⟨u8 (safeRec s) 2, hn⟩ s).fallTs }) s, ?_, modPlk_only _ _,
    resetReady_rstSeen _, rfl, rfl, ?_⟩
  · rw [plkReset_rstDi hon hn, resetByInput_new hnew, hshape, if_pos rfl]
  · exact resetComes_rstDi_judged (s := s) (n := ⟨u8 (safeRec s) 2, hn⟩) rfl
      (t := modPlk (fun p => { p with rstSeen := (Claim.inOf ⟨u8 (safeRec s) 2, hn⟩ s).fallTs }) s) rfl rfl rfl

/-- A frame's pulse is forgotten. -/
theorem resetAsked_frame (hon : safeOn s = true) {k : Fin 8} (h : Claim.resetComes (.frame k) s = true) :
    ∃ u, ResetAsked (.frame k) s u := by
  cases hlen : (s.plk.conn[k]).resetLen with
  | none =>
    rw [resetComes_frame, hlen, Option.any_none, Bool.and_false] at h
    exact absurd h Bool.false_ne_true
  | some high =>
    refine ⟨modConn k (fun c => { c with resetLen := none }) s, ?_, modPlk_only _ _, resetReady_resetLen k, rfl, rfl, ?_⟩
    · rw [plkReset_frame hon, resetByFrame_judged hlen, h, if_pos rfl]
    · rw [resetComes_rstDi_congr rfl rfl rfl]
      rfl

/-- The host's reset notes nothing. -/
theorem resetAsked_host (hon : safeOn s = true) {key : Half} (h : Claim.resetComes (.host key) s = true) :
    ∃ u, ResetAsked (.host key) s u := by
  obtain ⟨hkey, hbit⟩ := Bool.and_eq_true_iff.mp h
  obtain rfl := of_decide_eq_true hkey
  have hbit' : (u8 (safeRec s) 5).testBit 0 = true := hbit
  refine ⟨s, ?_, Frame.refl _ _, rfl, rfl, rfl, rfl⟩
  rw [plkReset_host hon, hbit']

/-- Every reset that comes is asked for. -/
theorem resetAsked_of_comes (hon : safeOn s = true) {src : ResetSource} (h : Claim.resetComes src s = true) :
    ∃ u, ResetAsked src s u := by
  cases src with
  | rstDi => exact resetAsked_rstDi hon h
  | frame k => exact resetAsked_frame hon h
  | host key => exact resetAsked_host hon h

/-- A reset that R324 does not permit only raises RESET_REFUSED. -/
theorem ResetAsked.refused {src : ResetSource} {u : State} (h : ResetAsked src s u) (hr : resetReady s = false) :
    Latched .plk 9 (plkReset src s) ∧ (plkReset src s).plk.locked = s.plk.locked ∧
    Claim.resetComes .rstDi (plkReset src s) = (decide (src ≠ .rstDi) && Claim.resetComes .rstDi s) ∧
    Frame [.plk, .events, .board] s (plkReset src s) := by
  have hraise := raise_only .plk 9 u
  rw [h.asked, askReset_refused (.inr (h.ready.trans hr))]
  refine ⟨latched_raise _ _ _ (by omega), ?_, ?_, .under hraise (by simp) (h.frame.mono (by simp))⟩
  · rw [hraise .plk (by simp)]
    exact h.locked
  · rw [resetComes_rstDi_congr (hraise .fio (by simp)) (hraise .key (by simp))
      (congrArg PlkState.rstSeen (hraise .plk (by simp)))]
    exact h.once

/-- A permitted one opens the lock. -/
theorem ResetAsked.accepted {src : ResetSource} {u : State} (h : ResetAsked src s u) (hr : resetReady s = true) :
    (plkReset src s).plk.locked = false ∧ (plkReset src s).plk.lines = 0xFFFFFFFF ∧
    (plkReset src s).plk.enabled = 0xFFFFFFFF ∧ Latched .plk 1 (plkReset src s) ∧
    (plkReset src s).plk.logCnt = satInc s.plk.logCnt ∧ s.gate.ch = (plkReset src s).gate.ch ∧
    (s.md = 11 → s.mode.busy = false → (plkReset src s).mode.busy = true ∧ (plkReset src s).mode.target = 3 ∧
      (plkReset src s).mode.nextCause = 2) ∧
    ((plkReset src s).gate.allOff = true ↔ s.claim.a.claim = 0 ∧ s.claim.b.claim = 0) := by
  have hmode : u.mode = s.mode := h.frame .mode (by simp)
  have hgate : u.gate = s.gate := h.frame .gate (by simp)
  have hclaim : u.claim = s.claim := h.frame .claim (by simp)
  have hmd : u.md = s.md := congrArg (fun m : ModeState => m.mode.toNat) hmode
  rw [h.asked, askReset_accepted (h.ready.trans hr)]
  obtain ⟨hl, hn, he, hev, hc, hch, hgo, hoff⟩ := acceptReset_effect u
  rw [h.count] at hc
  rw [hgate] at hch
  rw [hmd, hmode] at hgo
  rw [hclaim] at hoff
  exact ⟨hl, hn, he, hev, hc, hch, hgo, hoff⟩

/-! ### The proof interval and the lockout (R325, R327) -/

/-- A test that was never passed has no interval. -/
theorem exec_proofExpired_never (h : s.plk.passedSec = none) : exec .proofExpired s = .next s := by
  change Host.Outcome.next (proofExpired s) = _
  rw [proofExpired, h]

/-- A test that is due already stays so. -/
theorem exec_proofExpired_due (h : s.plk.testDue = true) : exec .proofExpired s = .next s := by
  change Host.Outcome.next (proofExpired s) = _
  unfold proofExpired
  split
  · rfl
  · rw [if_pos (by rw [h, Bool.or_true, Bool.true_or])]

/-- The end of the interval makes the test due. -/
theorem exec_proofExpired_expires {n : Nat} (h : s.plk.passedSec = some n) (hon : safeOn s = true) (hdue : s.plk.testDue = false)
    (hutc : utcLocked s = true) : ∃ t, exec .proofExpired s = .next t ∧
      t.plk = { s.plk with testDue := true, testCause := 4 } ∧ s.now ≤ t.now ∧ Frame [.plk, .time] s t := by
  have hex : proofExpired s = modPlk (fun p => { p with testDue := true, testCause := 4 })
      (advance (ticksUntil (((n + proofSecs s : Nat) : Int) * 1000000000 * nsUnit) s) s) := by
    unfold proofExpired
    rw [h]
    exact if_neg (by rw [hon, hdue, hutc]; exact Bool.false_ne_true)
  exact ⟨_, congrArg Host.Outcome.next hex, rfl, Nat.le_add_right _ _,
    .under (modPlk_only _ _) (by simp) ((advance_only _ _).mono (by simp))⟩

/-- Without a lockout none ends. -/
theorem exec_pwLockoutEnd_none (h : s.plk.lockEnd = none) : exec .pwLockoutEnd s = .next s := by
  change Host.Outcome.next (lockoutEnd s) = _
  rw [lockoutEnd, h]

/-- A lockout ends at its time. -/
theorem exec_pwLockoutEnd_ends {at0 : Nat} (h : s.plk.lockEnd = some at0) : ∃ t, exec .pwLockoutEnd s = .next t ∧
    t.plk = { s.plk with lockEnd := none } ∧ t.now = max s.now at0 ∧ Frame [.plk, .time] s t := by
  have hex : lockoutEnd s = modPlk (fun p => { p with lockEnd := none }) (elapseTo at0 s) := by
    rw [lockoutEnd, h]
  exact ⟨_, congrArg Host.Outcome.next hex, rfl, elapseTo_now_eq_max _ _,
    .under (modPlk_only _ _) (by simp) ((elapseTo_only _ _).mono (by simp))⟩

end

/-- Resets are judged. -/
theorem resetsAreJudged : Claim.ResetsAreJudged := by
  intro s hon
  refine ⟨fun h => ⟨_, rfl, plkReset_rstDi_none hon h⟩, fun k h => ⟨_, rfl, plkReset_frame_none hon h⟩,
    fun key h => congrArg Host.Outcome.next (plkReset_host_other hon h), fun src h => ?_, fun h => ?_⟩
  · obtain ⟨u, hu⟩ := resetAsked_of_comes hon h
    exact ⟨fun hr => ⟨_, rfl, hu.refused hr⟩, fun hr => ⟨_, rfl, hu.accepted hr⟩⟩
  · have hbit : (u8 (safeRec s) 5).testBit 0 = false := h
    exact congrArg Host.Outcome.next ((plkReset_host hon).trans (askReset_refused (.inl hbit)))

/-- The proof interval and the lockout end. -/
theorem proofIntervalAndLockoutEnd : Claim.ProofIntervalAndLockoutEnd := fun _ =>
  ⟨exec_proofExpired_never, exec_proofExpired_due, fun _ h hon hdue hutc => exec_proofExpired_expires h hon hdue hutc,
    exec_pwLockoutEnd_none, fun _ h => exec_pwLockoutEnd_ends h⟩

/-- Settles O51. -/
theorem resetsAndProofIntervals : Obligations.ResetsAndProofIntervals := ⟨resetsAreJudged, proofIntervalAndLockoutEnd⟩

end Sys2Proof.Machine
end

section
/-! PROOFS. Safety connections (O52; R329 to R331; log entry 3). -/

namespace Sys2Proof.Machine

/-! ### Bytes -/

/-- The bytes of a number give it back where they hold it. -/
theorem leNat_leBytes (k n : Nat) : leNat (leBytes k n) = n % 256 ^ k := by
  induction k generalizing n with
  | zero => simp [leBytes, leNat, Nat.mod_one]
  | succ k ih =>
    have hstep : n % 256 ^ (k + 1) = n % 256 + 256 * (n / 256 % 256 ^ k) := by rw [Nat.pow_succ', Nat.mod_mul]
    rw [leBytes, leNat, ih, BitVec.toNat_ofNat, hstep]

/-- A number of bytes is smaller than the next power of 256. -/
theorem leNat_lt (bs : List Byte) : leNat bs < 256 ^ bs.length := by
  induction bs with
  | nil => simp [leNat]
  | cons b bs ih =>
    have hb := b.isLt
    rw [leNat, List.length_cons, Nat.pow_succ']
    omega

/-- A slice has its length. -/
theorem length_slice (p : List Byte) (off n : Nat) : (slice p off n).length = n := by
  simp only [slice, List.length_append, List.length_replicate]
  have := List.length_take_le n (p.drop off)
  omega

/-- A 32-bit field of a record. -/
theorem u32_lt (p : List Byte) (off : Nat) : u32 p off < 2 ^ 32 := by
  have h := leNat_lt (slice p off 4)
  rw [length_slice] at h
  exact h

/-- A bit keeps a CRC in 32 bits. -/
theorem crcBit_lt {c : Nat} (h : c < 2 ^ 32) : crcBit c < 2 ^ 32 := by
  have hhalf : c / 2 < 2 ^ 32 := by omega
  unfold crcBit
  split
  · exact Nat.xor_lt_two_pow hhalf (by decide)
  · exact hhalf

/-- A byte keeps a CRC in 32 bits. -/
theorem crcByte_lt {c : Nat} (h : c < 2 ^ 32) (b : Byte) : crcByte c b < 2 ^ 32 := by
  have hb : b.toNat < 2 ^ 32 := Nat.lt_of_lt_of_le b.isLt (by decide)
  unfold crcByte
  iterate 8 apply crcBit_lt
  exact Nat.xor_lt_two_pow h hb

/-- A CRC has 32 bits. -/
theorem crc32c_lt (bs : List Byte) : crc32c bs < 2 ^ 32 := by
  have hfold : ∀ (xs : List Byte) (c : Nat), c < 2 ^ 32 → xs.foldl crcByte c < 2 ^ 32 := by
    intro xs
    induction xs with
    | nil => exact fun _ hc => hc
    | cons x xs ih => exact fun c hc => ih _ (crcByte_lt hc x)
  exact Nat.xor_lt_two_pow (hfold bs _ (by decide)) (by decide)

section
variable (k : Fin 8) (s : State)

/-- The fields of a status frame. -/
theorem statusFrame_fields : (statusFrame k s).length = 20 ∧ u8 (statusFrame k s) 0 = 1 ∧ u8 (statusFrame k s) 1 = 2 ∧
    u16 (statusFrame k s) 2 = ((s.plk.conn[k]).txSeq).toNat ∧ u32 (statusFrame k s) 4 = u32 (safeRec s) 12 ∧
    u32 (statusFrame k s) 16 = crc32c ((statusFrame k s).take 16) := by
  refine ⟨rfl, rfl, rfl, ?_, ?_, ?_⟩
  · have h : u16 (statusFrame k s) 2 = leNat (leBytes 2 ((s.plk.conn[k]).txSeq).toNat) := rfl
    rw [h, leNat_leBytes]
    exact Nat.mod_eq_of_lt (s.plk.conn[k]).txSeq.isLt
  · have h : u32 (statusFrame k s) 4 = leNat (leBytes 4 (u32 (safeRec s) 12)) := rfl
    rw [h, leNat_leBytes]
    exact Nat.mod_eq_of_lt (u32_lt _ _)
  · have h : u32 (statusFrame k s) 16 = leNat (leBytes 4 (crc32c ((statusFrame k s).take 16))) := rfl
    rw [h, leNat_leBytes]
    exact Nat.mod_eq_of_lt (crc32c_lt _)

end

/-! ### A connection -/

/-- A connection of the pulse lock. -/
def connOf (k : Fin 8) (s : State) : Conn := s.plk.conn[k]

section
variable {k : Fin 8} {s : State}

/-- The connection that is changed. -/
theorem connOf_modConn (f : Conn → Conn) : connOf k (modConn k f s) = f (connOf k s) := modAt_getElem_self _ _ _

/-- A step that leaves the connections. -/
theorem connOf_of_conn {t : State} (h : t.plk.conn = s.plk.conn) : connOf k t = connOf k s := by
  rw [connOf, connOf, h]

/-- The reduced diagnosis leaves the connections. -/
theorem conn_judgeReduced (s : State) : (judgeReduced s).plk.conn = s.plk.conn := by
  have htrig (x : Trigger) (u : State) : (trigger x u).plk = u.plk := trigger_only x u .plk (by simp)
  unfold judgeReduced
  dsimp only
  split
  · rfl
  · split
    · rw [htrig, raise_only _ _ _ .plk (by simp)]
      rfl
    · rw [htrig]
      rfl

/-- A demand leaves them. -/
theorem conn_actDemand (src at0 : Nat) (s : State) : (actDemand src at0 s).plk.conn = s.plk.conn := by
  cases h : s.plk.locked with
  | true => rw [actDemand_locked h]; rfl
  | false => rw [(actDemand_open_effect h).1]; rfl

/-- Judging the demands leaves them. -/
theorem conn_safeEval (s : State) : (safeEval s).plk.conn = s.plk.conn := by
  have hset (v : BitVec 16) : (modPlk (fun p => { p with seen := v }) s).plk.conn = s.plk.conn := rfl
  have hnoted : (safeNoted s).plk.conn = s.plk.conn := by
    rw [safeNoted, raiseIf_only _ _ _ _ .plk (by simp)]
    exact hset _
  cases hon : safeOn s with
  | false =>
    have : safeEval s = s := if_pos (by rw [hon]; rfl)
    rw [this]
  | true =>
    rw [safeEval_eq hon, conn_judgeReduced]
    unfold safeActed
    split
    · exact hnoted
    · rw [conn_actDemand, hnoted]

/-- Judging the demands leaves the mode, though it may ask for another. -/
theorem md_safeEval (s : State) : (safeEval s).md = s.md := by
  have hact (src at0 : Nat) (u : State) : modeCodes (actDemand src at0 u).mode = modeCodes u.mode := by
    cases h : u.plk.locked with
    | true => rw [actDemand_locked h]; rfl
    | false => exact (actDemand_effect src at0 u h).2.1
  have hframe : Frame [.plk, .events, .board] s (safeNoted s) :=
    .under (raiseIf_only _ _ _ _) (by simp) ((modPlk_only _ _).mono (by simp))
  have hnoted : (safeNoted s).mode = s.mode := hframe .mode (by simp)
  have hmode : modeCodes (safeEval s).mode = modeCodes s.mode := by
    cases hon : safeOn s with
    | false =>
      have : safeEval s = s := if_pos (by rw [hon]; rfl)
      rw [this]
    | true =>
      rw [safeEval_eq hon, (judgeReduced_effect _).2.1]
      unfold safeActed
      split
      · rw [hnoted]
      · rw [hact, hnoted]
  exact congrArg BitVec.toNat (codes_of_modeCodes hmode).1

/-- So the function runs on. -/
theorem safeOn_safeEval (s : State) : safeOn (safeEval s) = safeOn s := by
  rw [safeOn, safeOn, hasRec_of_key (safeEval_only s .key (by simp)), md_safeEval]

/-! ### A connection that fails (R331) -/

/-- A failed connection. -/
def connFailed (err : BitVec 4) (c : Conn) : Conn :=
  { c with state := 3, err := err, fails := satInc c.fails, good := 0, resetAt := none, resetLen := none }

/-- The failure is noted and reported before the demands are judged. -/
def failNoted (k : Fin 8) (err : BitVec 4) (s : State) : State := raise .plk 6 (modConn k (connFailed err) s)

/-- A failure is a demand of its own where ON_LOSS says so. -/
theorem conFail_eq (k : Fin 8) (err : BitVec 4) (s : State) : conFail k err s = safeEval (failNoted k err s) := rfl

/-- The note changes the connection alone. -/
theorem failNoted_effect (k : Fin 8) (err : BitVec 4) (s : State) : connOf k (failNoted k err s) = connFailed err (connOf k s) ∧
    Latched .plk 6 (failNoted k err s) ∧ Frame [.plk, .events, .board] s (failNoted k err s) := by
  have hraise := raise_only .plk 6 (modConn k (connFailed err) s)
  refine ⟨?_, latched_raise _ _ _ (by omega), .under hraise (by simp) ((modPlk_only _ _).mono (by simp))⟩
  rw [failNoted, connOf_of_conn (congrArg PlkState.conn (hraise .plk (by simp))), connOf_modConn]

/-- What a failure does. -/
theorem conFail_effect (k : Fin 8) (err : BitVec 4) (s : State) : connOf k (conFail k err s) = connFailed err (connOf k s) ∧
    Latched .plk 6 (conFail k err s) ∧ (conFail k err s).now = s.now ∧ safeOn (conFail k err s) = safeOn s ∧
    (conFail k err s).key = s.key := by
  obtain ⟨hc, hl, hframe⟩ := failNoted_effect k err s
  rw [conFail_eq]
  refine ⟨?_, safeEval_eventsKept _ _ _ hl, ?_, ?_, ?_⟩
  · rw [connOf_of_conn (conn_safeEval _), hc]
  · rw [(safeEval_only _).now_eq (by simp), hframe.now_eq (by simp)]
  · rw [safeOn_safeEval, safeOn_of_frame hframe (by simp) (by simp)]
  · rw [safeEval_only _ .key (by simp), hframe .key (by simp)]

/-- A connection of the record is one of those that may demand. -/
theorem anyConn_of {f : Fin 8 → Conn → Bool} (ht : conTransport k s ≠ 0) (hf : f k (connOf k s) = true) : anyConn s f = true := by
  refine List.any_eq_true.mpr ⟨k, mem_idx k, ?_⟩
  change (conTransport k s != 0 && f k (connOf k s)) = true
  rw [hf, bne_iff_ne.mpr ht]
  rfl

/-- A failure of a connection whose loss is a demand locks the outputs. -/
theorem conFail_locks (hon : safeOn s = true) (ht : conTransport k s ≠ 0) (hr : conReduces k s = false) (err : BitVec 4) :
    (conFail k err s).plk.locked = true := by
  obtain ⟨hc, _, hframe⟩ := failNoted_effect k err s
  have hrec : safeRec (failNoted k err s) = safeRec s := recD_of_key (hframe .key (by simp)) 0xA0 0
  have hred : conReduces k (failNoted k err s) = false := by
    rw [conReduces, hrec]
    exact hr
  have htr : conTransport k (failNoted k err s) ≠ 0 := by
    rw [conTransport, hrec]
    exact ht
  have hany : anyConn (failNoted k err s) (fun j c => c.state != 2 && !conReduces j (failNoted k err s)) = true := by
    refine anyConn_of (k := k) htr ?_
    rw [hc, hred]
    rfl
  rw [conFail_eq]
  refine safeEval_locks_of (k := 4) ?_ (by decide) ?_
  · rw [safeOn_of_frame hframe (by simp) (by simp), hon]
  · rw [bit_activeDemands _ 4 (by omega)]
    exact hany

end

end Sys2Proof.Machine
end

section
/-! PROOFS. Frames, silence and status of a safety connection (O52; R329 to R331; log entry 3). -/

namespace Sys2Proof.Machine

section
variable {k : Fin 8} {s : State} {b : List Byte}

/-! ### Frames (R331) -/

/-- The verdict on a frame. -/
def frameJudged (k : Fin 8) (b : List Byte) (s : State) : State :=
  if !safeOn s || conTransport k s = 0 then s
  else if !frameOk b then modConn k (fun c => { c with crcCnt := satInc c.crcCnt }) s
  else if u32 b 4 ≠ u32 (safeRec s) (68 + 16 * k.val) || u32 b 8 ≠ u32 (safeRec s) 12 then conFail k 2 s
  else if !((connOf k s).state == 3 || (connOf k s).good == 0) && BitVec.ofNat 16 (u16 b 2) == (connOf k s).seq then s
  else if !((connOf k s).state == 3 || (connOf k s).good == 0) && BitVec.ofNat 16 (u16 b 2) != (connOf k s).seq + 1#16 then
    conFail k 3 s
  else if u16 b 12 ≠ conTexp k s then conFail k 5 s
  else conAccept k b ((connOf k s).state == 3 || (connOf k s).good == 0) s

/-- The guard of a connection. -/
theorem conn_guard (hon : safeOn s = true) (ht : conTransport k s ≠ 0) : ¬ (!safeOn s || decide (conTransport k s = 0)) = true := by
  rw [hon, decide_eq_false ht]
  exact Bool.false_ne_true

/-- A frame is judged once its lateness has been. -/
theorem safetyFrameRx_eq (hon : safeOn s = true) (ht : conTransport k s ≠ 0) (b : List Byte) :
    safetyFrameRx k b s = frameJudged k b (conLate k s) := by
  have hlate : (if !safeOn s || conTransport k s = 0 then s else conLate k s) = conLate k s := if_neg (conn_guard hon ht)
  unfold safetyFrameRx
  rw [hlate]
  rfl

/-- A frame in time finds its connection as it was. -/
theorem conLate_inTime (h : (connOf k s).good = 0 ∨ s.now ≤ (connOf k s).lastAt + 400000 * conTexp k s) : conLate k s = s := by
  refine if_neg ?_
  change ¬ (decide ((connOf k s).good ≠ 0) && ((connOf k s).state == 1 || (connOf k s).state == 2) &&
    decide ((connOf k s).lastAt + ms (conTexp k s) < s.now)) = true
  rcases h with h | h
  · rw [h]
    simp
  · rw [ms, decide_eq_false (Nat.not_lt.mpr h), Bool.and_false]
    exact Bool.false_ne_true

/-- A late one finds it failed. -/
theorem conLate_late (hg : 0 < (connOf k s).good) (hs : (connOf k s).state = 2)
    (h : (connOf k s).lastAt + 400000 * conTexp k s < s.now) : conLate k s = conFail k 4 s := by
  refine if_pos ?_
  change (decide ((connOf k s).good ≠ 0) && ((connOf k s).state == 1 || (connOf k s).state == 2) &&
    decide ((connOf k s).lastAt + ms (conTexp k s) < s.now)) = true
  rw [ms, decide_eq_true h, decide_eq_true (Nat.ne_of_gt hg), hs]
  rfl

/-- A malformed frame is counted. -/
theorem frameJudged_malformed (hon : safeOn s = true) (ht : conTransport k s ≠ 0) (hb : frameOk b = false) :
    frameJudged k b s = modConn k (fun c => { c with crcCnt := satInc c.crcCnt }) s :=
  (if_neg (conn_guard hon ht)).trans (if_pos (by rw [hb]; rfl))

/-- The guards of a well-formed frame. -/
theorem frameJudged_formed (hon : safeOn s = true) (ht : conTransport k s ≠ 0) (hb : frameOk b = true) : frameJudged k b s =
    if u32 b 4 ≠ u32 (safeRec s) (68 + 16 * k.val) || u32 b 8 ≠ u32 (safeRec s) 12 then conFail k 2 s
    else if !((connOf k s).state == 3 || (connOf k s).good == 0) && BitVec.ofNat 16 (u16 b 2) == (connOf k s).seq then s
    else if !((connOf k s).state == 3 || (connOf k s).good == 0) && BitVec.ofNat 16 (u16 b 2) != (connOf k s).seq + 1#16 then
      conFail k 3 s
    else if u16 b 12 ≠ conTexp k s then conFail k 5 s
    else conAccept k b ((connOf k s).state == 3 || (connOf k s).good == 0) s :=
  (if_neg (conn_guard hon ht)).trans (if_neg (by rw [hb]; exact Bool.false_ne_true))

/-- A frame of another connection or module fails the connection. -/
theorem frameJudged_foreign (hon : safeOn s = true) (ht : conTransport k s ≠ 0) (hb : frameOk b = true)
    (h : u32 b 4 ≠ u32 (safeRec s) (68 + 16 * k.val) ∨ u32 b 8 ≠ u32 (safeRec s) 12) : frameJudged k b s = conFail k 2 s := by
  refine (frameJudged_formed hon ht hb).trans (if_pos ?_)
  rcases h with h | h
  · rw [decide_eq_true h]
    rfl
  · rw [decide_eq_true h, Bool.or_true]

/-- The sequence number decides on a frame of a connection that has taken frames. -/
theorem frameJudged_known (hon : safeOn s = true) (ht : conTransport k s ≠ 0) (hb : frameOk b = true)
    (h4 : u32 b 4 = u32 (safeRec s) (68 + 16 * k.val)) (h8 : u32 b 8 = u32 (safeRec s) 12)
    (hs : (connOf k s).state ≠ 3) (hg : 0 < (connOf k s).good) : frameJudged k b s =
    if BitVec.ofNat 16 (u16 b 2) = (connOf k s).seq then s
    else if BitVec.ofNat 16 (u16 b 2) ≠ (connOf k s).seq + 1#16 then conFail k 3 s
    else if u16 b 12 ≠ conTexp k s then conFail k 5 s
    else conAccept k b false s := by
  have hfirst : ((connOf k s).state == 3 || (connOf k s).good == 0) = false := by
    rw [beq_false_of_ne hs, beq_false_of_ne (Nat.ne_of_gt hg)]
    rfl
  have hid : ¬ (decide (u32 b 4 ≠ u32 (safeRec s) (68 + 16 * k.val)) || decide (u32 b 8 ≠ u32 (safeRec s) 12)) = true := by
    simp [h4, h8]
  rw [frameJudged_formed hon ht hb, if_neg hid, hfirst]
  simp only [Bool.not_false, Bool.true_and, beq_iff_eq, bne_iff_ne]

/-- The third frame in sequence makes the connection run. -/
theorem conAccept_third (hg : (connOf k s).good = 2) : (connOf k (conAccept k b false s)).state = 2 ∧
    (connOf k (conAccept k b false s)).good = 3 ∧ (connOf k (conAccept k b false s)).run = (u16 b 14).testBit 0 ∧
    (connOf k (conAccept k b false s)).seq = BitVec.ofNat 16 (u16 b 2) ∧
    (connOf k (conAccept k b false s)).lastAt = s.now := by
  obtain ⟨f, hacc, hf⟩ : ∃ f : Conn → Conn, conAccept k b false s = safeEval (modConn k f s) ∧
      ∀ c : Conn, c.good = 2 → (f c).state = 2 ∧ (f c).good = 3 ∧ (f c).run = (u16 b 14).testBit 0 ∧
        (f c).seq = BitVec.ofNat 16 (u16 b 2) ∧ (f c).lastAt = s.now := by
    refine ⟨_, rfl, fun c hc => ⟨?_, ?_, rfl, rfl, rfl⟩⟩
    · change (if c.state = 2 || 3 ≤ c.good + 1 then (2 : Fin 4) else 1) = 2
      rw [hc]
      simp
    · change c.good + 1 = 3
      rw [hc]
  rw [hacc, connOf_of_conn (conn_safeEval _), connOf_modConn]
  exact hf _ hg

/-! ### Silence and status (R329, R331) -/

/-- A connection that has taken no frame, or does not run, does not time out. -/
theorem connTimeout_idle (h : (connOf k s).good = 0 ∨ ((connOf k s).state ≠ 1 ∧ (connOf k s).state ≠ 2)) : connTimeout k s = s := by
  refine if_pos ?_
  change (!safeOn s || decide ((connOf k s).good = 0) || (decide ((connOf k s).state ≠ 1) && decide ((connOf k s).state ≠ 2))) = true
  rcases h with h | ⟨h1, h2⟩
  · rw [decide_eq_true h, Bool.or_true, Bool.true_or]
  · rw [decide_eq_true h1, decide_eq_true h2, Bool.and_true, Bool.or_true]

/-- Silence beyond TEXP fails the connection. -/
theorem connTimeout_fails (hon : safeOn s = true) (hg : 0 < (connOf k s).good)
    (hs : (connOf k s).state = 1 ∨ (connOf k s).state = 2) :
    connTimeout k s = conFail k 4 (elapseTo ((connOf k s).lastAt + ms (conTexp k s)) s) := by
  refine if_neg ?_
  change ¬ (!safeOn s || decide ((connOf k s).good = 0) || (decide ((connOf k s).state ≠ 1) && decide ((connOf k s).state ≠ 2))) = true
  rw [hon, decide_eq_false (Nat.ne_of_gt hg)]
  rcases hs with h | h <;> rw [h] <;> decide

/-- The status of a connection is sent after time has passed. -/
def statusSent (k : Fin 8) (u : State) : State :=
  modConn k (fun c => { c with txSeq := c.txSeq + 1#16, txAt := u.now })
    (when (conCarries k u) (send (.safety k.val (statusFrame k u))) u)

/-- A connection that neither starts nor runs sends none. -/
theorem safetyStatusTx_idle (h1 : (connOf k s).state ≠ 1) (h2 : (connOf k s).state ≠ 2) : safetyStatusTx k s = s := by
  refine if_pos ?_
  change (!safeOn s || decide (conTransport k s = 0) || (decide ((connOf k s).state ≠ 1) && decide ((connOf k s).state ≠ 2))) = true
  rw [decide_eq_true h1, decide_eq_true h2, Bool.and_true, Bool.or_true]

/-- A starting or running one does. -/
theorem safetyStatusTx_sends (hon : safeOn s = true) (ht : conTransport k s ≠ 0)
    (hs : (connOf k s).state = 1 ∨ (connOf k s).state = 2) : safetyStatusTx k s =
      statusSent k (elapseTo ((connOf k s).txAt + ms (max 1 (conTexp k s / 2))) s) := by
  refine if_neg ?_
  change ¬ (!safeOn s || decide (conTransport k s = 0) || (decide ((connOf k s).state ≠ 1) && decide ((connOf k s).state ≠ 2))) = true
  rw [hon, decide_eq_false ht]
  rcases hs with h | h <;> rw [h] <;> decide

/-- What a status changes. -/
theorem statusSent_effect (k : Fin 8) (u : State) :
    connOf k (statusSent k u) = { connOf k u with txSeq := (connOf k u).txSeq + 1, txAt := u.now } ∧
    (statusSent k u).now = u.now ∧
    (conCarries k u = true → (statusSent k u).outbox = u.outbox ++ [.safety k.val (statusFrame k u)]) ∧
    (conCarries k u = false → (statusSent k u).outbox = u.outbox) ∧ Frame [.plk, .outbox] u (statusSent k u) := by
  have hwhen : Frame [.outbox] u (when (conCarries k u) (send (.safety k.val (statusFrame k u))) u) :=
    .when (send_only _ _)
  refine ⟨?_, ?_, fun h => ?_, fun h => ?_, .under (modPlk_only _ _) (by simp) (hwhen.mono (by simp))⟩
  · rw [statusSent, connOf_modConn, connOf_of_conn (congrArg PlkState.conn (hwhen .plk (by simp)))]
    rfl
  · rw [statusSent, modConn, (modPlk_only _ _).now_eq (by simp), hwhen.now_eq (by simp)]
  · rw [statusSent, h]
    rfl
  · rw [statusSent, h]
    rfl

/-- Whether the transport carries a frame does not depend on the time. -/
theorem conCarries_elapseTo (n : Nat) : conCarries k (elapseTo n s) = conCarries k s := by
  have hframe : Frame [.time] s (elapseTo n s) := elapseTo_only n s
  have ht : conTransport k (elapseTo n s) = conTransport k s := by
    rw [conTransport, conTransport, safeRec, safeRec, recD_of_key (hframe .key (by simp))]
  have hnet : (elapseTo n s).net = s.net := hframe .net (by simp)
  have hcan : (elapseTo n s).can = s.can := hframe .can (by simp)
  unfold conCarries
  rw [ht, hcan, linkUp_of_net 0 s hnet, linkUp_of_net 1 s hnet]
  unfold portUsed
  rw [hnet]

/-- A frame that comes late finds its connection failed, and is counted where it is malformed. -/
theorem exec_safetyFrameRx_late (hon : safeOn s = true) (ht : conTransport k s ≠ 0) (hb : frameOk b = false)
    (hg : 0 < (connOf k s).good) (hs : (connOf k s).state = 2) (h : (connOf k s).lastAt + 400000 * conTexp k s < s.now) :
    ∃ t, exec (.safetyFrameRx k b) s = .next t ∧ (connOf k t).state = 3 ∧ (connOf k t).err = 4 ∧
      (connOf k t).fails = satInc (connOf k s).fails ∧ (connOf k t).crcCnt = satInc (connOf k s).crcCnt ∧ Latched .plk 6 t := by
  obtain ⟨hc, hl, _, hon', hkey⟩ := conFail_effect k 4 s
  have ht' : conTransport k (conFail k 4 s) ≠ 0 := by
    rw [conTransport, safeRec, recD_of_key hkey]
    exact ht
  have hex : safetyFrameRx k b s = modConn k (fun c => { c with crcCnt := satInc c.crcCnt }) (conFail k 4 s) := by
    rw [safetyFrameRx_eq hon ht, conLate_late hg hs h, frameJudged_malformed (hon'.trans hon) ht' hb]
  refine ⟨_, congrArg Host.Outcome.next hex, ?_⟩
  rw [connOf_modConn, hc]
  exact ⟨rfl, rfl, rfl, rfl, (modPlk_only _ _).eventsKept (by simp) _ _ hl⟩

/-- A malformed frame in time is counted. -/
theorem exec_safetyFrameRx_malformed (hon : safeOn s = true) (ht : conTransport k s ≠ 0) (hb : frameOk b = false)
    (hin : (connOf k s).good = 0 ∨ s.now ≤ (connOf k s).lastAt + 400000 * conTexp k s) :
    ∃ t, exec (.safetyFrameRx k b) s = .next t ∧ connOf k t = { connOf k s with crcCnt := satInc (connOf k s).crcCnt } ∧
      Frame [.plk] s t := by
  have hex : safetyFrameRx k b s = modConn k (fun c => { c with crcCnt := satInc c.crcCnt }) s := by
    rw [safetyFrameRx_eq hon ht, conLate_inTime hin, frameJudged_malformed hon ht hb]
  exact ⟨_, congrArg Host.Outcome.next hex, connOf_modConn _, modPlk_only _ _⟩

/-- Silence fails a connection that has taken frames. -/
theorem exec_connectionTimeout_fails (hon : safeOn s = true) (ht : conTransport k s ≠ 0) (hg : 0 < (connOf k s).good)
    (hs : (connOf k s).state = 1 ∨ (connOf k s).state = 2) : ∃ t, exec (.connectionTimeout k) s = .next t ∧
      (connOf k t).state = 3 ∧ (connOf k t).err = 4 ∧ (connOf k t).fails = satInc (connOf k s).fails ∧ Latched .plk 6 t ∧
      t.now = max s.now ((connOf k s).lastAt + 400000 * conTexp k s) ∧ (conReduces k s = false → t.plk.locked = true) := by
  have htime : Frame [.time] s (elapseTo ((connOf k s).lastAt + ms (conTexp k s)) s) := elapseTo_only _ _
  have hplk : connOf k (elapseTo ((connOf k s).lastAt + ms (conTexp k s)) s) = connOf k s :=
    connOf_of_conn (congrArg PlkState.conn (htime .plk (by simp)))
  have hrec : safeRec (elapseTo ((connOf k s).lastAt + ms (conTexp k s)) s) = safeRec s := recD_of_key (htime .key (by simp)) 0xA0 0
  obtain ⟨hc, hl, hnow, _, _⟩ := conFail_effect k 4 (elapseTo ((connOf k s).lastAt + ms (conTexp k s)) s)
  refine ⟨_, congrArg Host.Outcome.next (connTimeout_fails hon hg hs), ?_, ?_, ?_, hl, ?_, fun hr => ?_⟩
  · rw [hc]
    rfl
  · rw [hc]
    rfl
  · rw [hc, hplk]
    rfl
  · rw [hnow, elapseTo_now_eq_max, ms]
  · refine conFail_locks ?_ ?_ ?_ 4
    · rw [safeOn_of_frame htime (by simp) (by simp), hon]
    · rw [conTransport, hrec]
      exact ht
    · rw [conReduces, hrec]
      exact hr

/-- The status goes out on time. -/
theorem exec_safetyStatusTx_sends (hon : safeOn s = true) (ht : conTransport k s ≠ 0)
    (hs : (connOf k s).state = 1 ∨ (connOf k s).state = 2) : ∃ t, exec (.safetyStatusTx k) s = .next t ∧
      connOf k t = { connOf k s with txSeq := (connOf k s).txSeq + 1, txAt := t.now } ∧
      t.now = max s.now ((connOf k s).txAt + 400000 * max 1 (conTexp k s / 2)) ∧
      (conCarries k s = true → ∃ bs : List Byte, t.outbox = s.outbox ++ [.safety k.val bs] ∧ bs.length = 20 ∧
        u8 bs 0 = 1 ∧ u8 bs 1 = 2 ∧ u16 bs 2 = (connOf k s).txSeq.toNat ∧ u32 bs 4 = u32 (recD s 0xA0 0) 12 ∧
        u32 bs 16 = crc32c (bs.take 16)) ∧
      (conCarries k s = false → t.outbox = s.outbox) ∧ Frame [.plk, .time, .outbox] s t := by
  have htime : Frame [.time] s (elapseTo ((connOf k s).txAt + ms (max 1 (conTexp k s / 2))) s) := elapseTo_only _ _
  have hplk : connOf k (elapseTo ((connOf k s).txAt + ms (max 1 (conTexp k s / 2))) s) = connOf k s :=
    connOf_of_conn (congrArg PlkState.conn (htime .plk (by simp)))
  have hob : (elapseTo ((connOf k s).txAt + ms (max 1 (conTexp k s / 2))) s).outbox = s.outbox := htime .outbox (by simp)
  obtain ⟨hc, hnow, hsend, hnone, hframe⟩ := statusSent_effect k (elapseTo ((connOf k s).txAt + ms (max 1 (conTexp k s / 2))) s)
  refine ⟨_, congrArg Host.Outcome.next (safetyStatusTx_sends hon ht hs), ?_, ?_, fun hcar => ?_, fun hcar => ?_,
    .under hframe (by simp) (htime.mono (by simp))⟩
  · rw [hc, hplk, hnow]
  · rw [hnow, elapseTo_now_eq_max, ms]
  · obtain ⟨hlen, h0, h1, h2, h4, h16⟩ := statusFrame_fields k (elapseTo ((connOf k s).txAt + ms (max 1 (conTexp k s / 2))) s)
    refine ⟨_, ?_, hlen, h0, h1, h2.trans ?_, h4.trans ?_, h16⟩
    · rw [hsend (by rw [conCarries_elapseTo, hcar]), hob]
    · exact congrArg (fun c : Conn => c.txSeq.toNat) hplk
    · rw [safeRec, recD_of_key (htime .key (by simp))]
  · rw [hnone (by rw [conCarries_elapseTo, hcar]), hob]

end

/-- Settles O52, clause by clause. -/
theorem connectionsJudgeTheirFrames : Obligations.ConnectionsJudgeTheirFrames := by
  intro s k c hc hon ht
  obtain rfl : c = connOf k s := hc
  refine ⟨fun b hb hg hs h => exec_safetyFrameRx_late hon ht hb hg hs h,
    fun b hin hb => exec_safetyFrameRx_malformed hon ht hb hin, fun b hin hb => ⟨fun h => ?_, fun h4 h8 hs hg => ?_⟩,
    fun hs => ⟨fun hg => congrArg Host.Outcome.next (connTimeout_idle (.inl hg)),
      fun hg => exec_connectionTimeout_fails hon ht hg hs, exec_safetyStatusTx_sends hon ht hs⟩, fun hs => ?_⟩
  · obtain ⟨hconn, hl, _, _, _⟩ := conFail_effect k 2 s
    have hex : safetyFrameRx k b s = conFail k 2 s := by
      rw [safetyFrameRx_eq hon ht, conLate_inTime hin, frameJudged_foreign hon ht hb h]
    exact ⟨_, congrArg Host.Outcome.next hex, congrArg Conn.state hconn, congrArg Conn.err hconn, congrArg Conn.fails hconn, hl,
      fun hr => conFail_locks hon ht hr 2⟩
  · have hex : safetyFrameRx k b s = frameJudged k b s := by rw [safetyFrameRx_eq hon ht, conLate_inTime hin]
    rw [frameJudged_known hon ht hb h4 h8 hs hg] at hex
    refine ⟨fun hseq => congrArg Host.Outcome.next (hex.trans (if_pos hseq)), fun hne hnext => ?_, fun hseq htexp hg2 => ?_⟩
    · have hconn := (conFail_effect k 3 s).1
      exact ⟨_, congrArg Host.Outcome.next (hex.trans ((if_neg hne).trans (if_pos hnext))), congrArg Conn.state hconn,
        congrArg Conn.err hconn⟩
    · have hne : BitVec.ofNat 16 (u16 b 2) ≠ (connOf k s).seq := by
        rw [hseq]
        exact fun h => absurd (congrArg (· - (connOf k s).seq) h) (by simp)
      obtain ⟨hst, hgood, hrun, hsq, hlast⟩ := conAccept_third (b := b) hg2
      exact ⟨_, congrArg Host.Outcome.next (hex.trans ((if_neg hne).trans ((if_neg (not_not_intro hseq)).trans
        (if_neg (not_not_intro htexp))))), hst, hgood, hrun, hsq.trans hseq, hlast⟩
  · have h12 : (connOf k s).state ≠ 1 ∧ (connOf k s).state ≠ 2 := by
      rcases hs with h | h <;> rw [h] <;> decide
    exact ⟨congrArg Host.Outcome.next (safetyStatusTx_idle h12.1 h12.2),
      congrArg Host.Outcome.next (connTimeout_idle (.inr h12))⟩

end Sys2Proof.Machine
end

section
/-! PROOFS. Triggers, records and segments of a recorder (O53; R338 to R346; log entry 3). -/

namespace Sys2Proof.Machine

/-! ### The recorder of a lane -/

section
variable {l l' : Lane} {s t : State}

/-- A change of a recorder reads back. -/
theorem recOf_modRec_self (l : Lane) (f : RecState → RecState) (s : State) :
    Claim.recOf l (modRec l f s) = f (Claim.recOf l s) := modRec_same l f s

/-- The other recorder keeps its state. -/
theorem recOf_modRec_other (l : Lane) (f : RecState → RecState) (s : State) :
    Claim.recOf (otherLane l) (modRec l f s) = Claim.recOf (otherLane l) s := by cases l <;> rfl

/-- A change of the other recorder leaves this one. -/
theorem recOf_modRec_otherLane (l : Lane) (f : RecState → RecState) (s : State) :
    Claim.recOf l (modRec (otherLane l) f s) = Claim.recOf l s := by cases l <;> rfl

/-- A write to a lane's SRAM leaves the recorders. -/
theorem recOf_laneWrite (l m : Lane) (off : Nat) (bs : List Byte) (s : State) :
    Claim.recOf m (laneWrite l off bs s) = Claim.recOf m s := by cases l <;> cases m <;> rfl

/-- A lane whose part stands has its recorder. -/
theorem recOf_of_frame {ps : List Part} (h : Frame ps s t) (hl : lanePart l ∉ ps) :
    Claim.recOf l t = Claim.recOf l s := by
  cases l
  · have hrest : laneRest t.laneA = laneRest s.laneA := h .laneA hl
    show (laneRest t.laneA).rcd = (laneRest s.laneA).rcd
    rw [hrest]
  · have hrest : laneRest t.laneB = laneRest s.laneB := h .laneB hl
    show (laneRest t.laneB).rcd = (laneRest s.laneB).rcd
    rw [hrest]

/-- The recorder's record stands with the key unit. -/
theorem recRec_of_key (h : t.key = s.key) : recRec t = recRec s := recD_of_key h 0x90 0

/-- A recorder's change leaves its record. -/
theorem recRec_modRec (l : Lane) (f : RecState → RecState) (s : State) : recRec (modRec l f s) = recRec s :=
  recRec_of_key (by cases l <;> rfl)

/-- A segment starts where it did, whatever else of its recorder changes. -/
theorem segStartRaw_modRec (l : Lane) (f : RecState → RecState) (s : State) (h : (f (Claim.recOf l s)).run = (Claim.recOf l s).run) :
    segStartRaw l (modRec l f s) = segStartRaw l s := by
  have hrun : ((modRec l f s).lane l).rcd.run = (s.lane l).rcd.run := (congrArg RecState.run (modRec_same l f s)).trans h
  have hraw : (modRec l f s).raw = s.raw := by cases l <;> rfl
  have hnow : (modRec l f s).now = s.now := by cases l <;> rfl
  rw [segStartRaw, hrun, hraw, hnow, segStartRaw]

end

/-! ### Marks (R344) -/

/-- A recorder without its marks. -/
def unmarked (r : RecState) : RecState := { r with run := { r.run with
  marks := 0
  marksLost := false } }

/-- A change of the marks alone. -/
theorem unmarked_modRec (l m : Lane) (f : RecState → RecState) (h : ∀ r, unmarked (f r) = unmarked r) (s : State) :
    unmarked (Claim.recOf m (modRec l f s)) = unmarked (Claim.recOf m s) := by
  cases l <;> cases m
  · exact h _
  · rfl
  · rfl
  · exact h _

/-- A mark changes the count of marks, or their loss. -/
theorem unmarked_recMark (l m : Lane) (ticks : Long) (fracN kind tag src data : Nat) (s : State) :
    unmarked (Claim.recOf m (recMark l ticks fracN kind tag src data s)) = unmarked (Claim.recOf m s) := by
  unfold recMark
  dsimp only
  split
  · rfl
  · split
    · rfl
    · split
      · change unmarked (Claim.recOf m (modRec l _ s)) = _
        rw [unmarked_modRec]
        exact fun _ => rfl
      · rw [unmarked_modRec, recOf_laneWrite]
        exact fun _ => rfl

section
variable {r q : RecState} (h : unmarked q = unmarked r)
include h

/-- The segments of two recorders equal up to their marks. -/
theorem seg_of_unmarked : q.seg = r.seg :=
  show (unmarked q).seg = (unmarked r).seg by rw [h]

/-- Their running segment. -/
theorem cur_of_unmarked : q.cur = r.cur :=
  show (unmarked q).cur = (unmarked r).cur by rw [h]

/-- Their waiting sources. -/
theorem due_of_unmarked : q.due = r.due :=
  show (unmarked q).due = (unmarked r).due by rw [h]

/-- The triggers that cross. -/
theorem xin_of_unmarked : q.xin = r.xin :=
  show (unmarked q).xin = (unmarked r).xin by rw [h]

/-- Their trigger. -/
theorem trig_of_unmarked : q.run.trig = r.run.trig :=
  show (unmarked q).run.trig = (unmarked r).run.trig by rw [h]

/-- Their retriggers. -/
theorem retrig_of_unmarked : q.run.retrig = r.run.retrig :=
  show (unmarked q).run.retrig = (unmarked r).run.retrig by rw [h]

/-- Their extension. -/
theorem extended_of_unmarked : q.run.extended = r.run.extended :=
  show (unmarked q).run.extended = (unmarked r).run.extended by rw [h]

end

/-! ### A trigger reaches a recorder (R338 to R340, R344, R345) -/

section
variable {l : Lane} {x : RecTrigger} {cross fromOther : Bool} {s : State}

/-- The segment that a first trigger has stamped. -/
def stamped (k : Fin 8) (x : RecTrigger) (cross : Bool) (raw dec : Nat) (r : RecState) : RecState :=
  { r with
    seg := upd r.seg k 2
    run := { r.run with
      trig := some x
      xlane := cross
      postRaw := raw
      postDec := dec } }

/-- The other recorder hears of it. -/
def crossed (l : Lane) (x : RecTrigger) (s : State) : State := modRec (otherLane l) (fun r => { r with xin := r.xin ++ [x] }) s

/-- Its triggers then. -/
theorem xin_crossed (l : Lane) (x : RecTrigger) (s : State) :
    (Claim.recOf (otherLane l) (crossed l x s)).xin = (Claim.recOf (otherLane l) s).xin ++ [x] :=
  congrArg (fun r : RecState => r.xin) (recOf_modRec_self (otherLane l) _ s)

/-- This recorder stands. -/
theorem recOf_crossed (l : Lane) (x : RecTrigger) (s : State) : Claim.recOf l (crossed l x s) = Claim.recOf l s :=
  recOf_modRec_otherLane l _ s

/-- The first trigger of a segment. -/
def firstTrigger (l : Lane) (k : Fin 8) (x : RecTrigger) (cross fromOther : Bool) (s : State) : State :=
  raise (.rcd l) 0 (when (cross && !fromOther) (crossed l x)
    (modRec l (stamped k x cross (u32 (recRec s) 8) (u32 (recRec s) 12)) (recMark l x.ticks x.frac 1 0 x.src 0 s)))

/-- A later one of the same lane. -/
def laterTrigger (l : Lane) (x : RecTrigger) (s : State) : State :=
  let ext := u8 (recRec s) 6 == 1
  raise (.rcd l) 1 (modRun l (fun r => { r with
    retrig := satInc r.retrig
    extended := r.extended || ext
    extRaw := if ext then some x.ticks else r.extRaw
    extDec := if ext then some x.ticks else r.extDec }) (recMark l x.ticks x.frac 2 0 x.src 0 s))

/-- A trigger without a running segment is missed. -/
theorem takeTrigger_none (h : (Claim.recOf l s).cur = none) : takeTrigger l x cross fromOther s = missTrigger l x s := by
  change (s.lane l).rcd.cur = none at h
  rw [takeTrigger, h]

/-- The first trigger of the running segment. -/
theorem takeTrigger_first {k : Fin 8} (hc : (Claim.recOf l s).cur = some k) (ht : segStartRaw l s ≤ (x.ticks.toNat : Int))
    (hn : (Claim.recOf l s).run.trig = none) : takeTrigger l x cross fromOther s = firstTrigger l k x cross fromOther s := by
  change (s.lane l).rcd.cur = some k at hc
  change (s.lane l).rcd.run.trig = none at hn
  rw [takeTrigger, hc]
  dsimp only
  rw [if_neg (by omega), hn]
  rfl

/-- A second one, of its own lane. -/
theorem takeTrigger_later {k : Fin 8} {y : RecTrigger} (hc : (Claim.recOf l s).cur = some k)
    (ht : segStartRaw l s ≤ (x.ticks.toNat : Int)) (hn : (Claim.recOf l s).run.trig = some y) :
    takeTrigger l x cross false s = laterTrigger l x s := by
  change (s.lane l).rcd.cur = some k at hc
  change (s.lane l).rcd.run.trig = some y at hn
  rw [takeTrigger, hc]
  dsimp only
  rw [if_neg (by omega), hn]
  exact if_neg Bool.false_ne_true

/-- The recorder after a missed trigger. -/
theorem missTrigger_missed (l : Lane) (x : RecTrigger) (s : State) :
    (Claim.recOf l (missTrigger l x s)).missed = satInc (Claim.recOf l s).missed ∧
      (Claim.recOf l (missTrigger l x s)).seg = (Claim.recOf l s).seg := by
  have hr (f : RecState → RecState) : Claim.recOf l (raise (.rcd l) 3 (modRec l f s)) = f (Claim.recOf l s) := recOf_modRec_self l f s
  rw [missTrigger, hr]
  split
  · exact ⟨rfl, rfl⟩
  · exact ⟨rfl, rfl⟩

/-- The recorder after the first trigger of a segment, up to the marks it had. -/
theorem firstTrigger_recOf (l : Lane) (k : Fin 8) (x : RecTrigger) (cross fromOther : Bool) (s : State) :
    ∃ r, unmarked r = unmarked (Claim.recOf l s) ∧ Claim.recOf l (firstTrigger l k x cross fromOther s) =
      stamped k x cross (u32 (recRec s) 8) (u32 (recRec s) 12) r := by
  refine ⟨Claim.recOf l (recMark l x.ticks x.frac 1 0 x.src 0 s), unmarked_recMark l l x.ticks x.frac 1 0 x.src 0 s, ?_⟩
  refine Eq.trans ?_ (recOf_modRec_self l _ _)
  change Claim.recOf l (when (cross && !fromOther) _ _) = _
  cases cross && !fromOther
  · rfl
  · exact recOf_crossed l x _

/-- The other recorder after it. -/
theorem firstTrigger_crosses (l : Lane) (k : Fin 8) (x : RecTrigger) (s : State) :
    (Claim.recOf (otherLane l) (firstTrigger l k x true false s)).xin = (Claim.recOf (otherLane l) s).xin ++ [x] := by
  have hx := xin_crossed l x (modRec l (stamped k x true (u32 (recRec s) 8) (u32 (recRec s) 12)) (recMark l x.ticks x.frac 1 0 x.src 0 s))
  rw [recOf_modRec_other] at hx
  exact Eq.trans (b := _) hx (congrArg (· ++ [x]) (xin_of_unmarked (unmarked_recMark l (otherLane l) x.ticks x.frac 1 0 x.src 0 s)))

/-- The recorder after a later trigger. -/
theorem laterTrigger_effect (l : Lane) (x : RecTrigger) (s : State) :
    (Claim.recOf l (laterTrigger l x s)).run.retrig = satInc (Claim.recOf l s).run.retrig ∧
      (Claim.recOf l (laterTrigger l x s)).run.trig = (Claim.recOf l s).run.trig ∧
      (Claim.recOf l (laterTrigger l x s)).run.extended = ((Claim.recOf l s).run.extended || u8 (recRec s) 6 == 1) ∧
      (Claim.recOf l (laterTrigger l x s)).seg = (Claim.recOf l s).seg := by
  have hm := unmarked_recMark l l x.ticks x.frac 2 0 x.src 0 s
  have hr (f : RecState → RecState) (u : State) : Claim.recOf l (raise (.rcd l) 1 (modRec l f u)) = f (Claim.recOf l u) :=
    recOf_modRec_self l f u
  rw [laterTrigger, modRun, hr]
  have ht := trig_of_unmarked hm
  have hs := seg_of_unmarked hm
  exact ⟨congrArg satInc (retrig_of_unmarked hm), ht, congrArg (· || u8 (recRec s) 6 == 1) (extended_of_unmarked hm), hs⟩

end

end Sys2Proof.Machine
end

section
/-! PROOFS. A recorder's triggers are taken once (O53; R338 to R340, R344, R345). -/

namespace Sys2Proof.Machine

section
variable {l : Lane} {s : State}

/-! ### Sources that have become active (R338, R340) -/

/-- The stamp of a trigger of this lane (R341). -/
def stampOf (src frac : Nat) (at0 : Long) (s : State) : RecTrigger := ⟨at0, if recOldTime s then 0 else frac, src⟩

/-- A lane's trigger crosses the link. -/
def crosses (l : Lane) (s : State) : Bool := tsuUp s && (Claim.recOf (otherLane l) s).running

/-- The source's stamp is taken from the list. -/
def undue (l : Lane) (src : Nat) (s : State) : State :=
  modRec l (fun r => { r with due := r.due.eraseP fun d => d.1 == src }) s

/-- No waiting stamp of the source: nothing happens. -/
theorem recTrig_of_absent {src : Nat} (h : (Claim.recOf l s).due.all (fun d => d.1 != src) = true) (frac : Nat) :
    recTrig l src frac s = s := by
  have hfind : ((Claim.recOf l s).due.find? fun d => d.1 == src) = none := by
    rw [List.find?_eq_none]
    intro d hd
    have hne := List.all_eq_true.mp h d hd
    simpa using hne
  change (s.lane l).rcd.due.find? (fun d => d.1 == src) = none at hfind
  rw [recTrig, hfind]

/-- The first stamp of a source in the list. -/
theorem recTrig_of_due {src : Nat} {d : Nat × Long} (h : ((Claim.recOf l s).due.find? fun d => d.1 == src) = some d) (frac : Nat) :
    recTrig l src frac s = takeTrigger l (stampOf src frac d.2 s) (crosses l s) false (undue l src s) := by
  change (s.lane l).rcd.due.find? (fun d => d.1 == src) = some d at h
  rw [recTrig, h]
  rfl

/-- The recorder without that stamp. -/
theorem recOf_undue (l : Lane) (src : Nat) (s : State) : Claim.recOf l (undue l src s) =
    { Claim.recOf l s with due := (Claim.recOf l s).due.eraseP fun d => d.1 == src } := recOf_modRec_self l _ s

/-- The segment starts where it did. -/
theorem segStartRaw_undue (l : Lane) (src : Nat) (s : State) : segStartRaw l (undue l src s) = segStartRaw l s :=
  segStartRaw_modRec l _ s rfl

/-- The record stands. -/
theorem recRec_undue (l : Lane) (src : Nat) (s : State) : recRec (undue l src s) = recRec s := recRec_modRec l _ s

/-- The source that heads the list. -/
theorem find_of_head {r : RecState} {src : Nat} {at0 : Long} {rest : List (Nat × Long)} (h : r.due = (src, at0) :: rest) :
    (r.due.find? fun d => d.1 == src) = some (src, at0) ∧ (r.due.eraseP fun d => d.1 == src) = rest := by
  rw [h]
  simp

/-! ### The recorder after its first trigger, a later one, a missed one -/

/-- The first trigger of a segment stamps it (R338, R343). -/
theorem recTrig_first {src frac : Nat} {d : Nat × Long} {k : Fin 8} (hd : ((Claim.recOf l s).due.find? fun d => d.1 == src) = some d)
    (hc : (Claim.recOf l s).cur = some k) (ht : segStartRaw l s ≤ (d.2.toNat : Int)) (hn : (Claim.recOf l s).run.trig = none) :
    Latched (.rcd l) 0 (recTrig l src frac s) ∧ ∃ r, unmarked r = unmarked (Claim.recOf l (undue l src s)) ∧
      Claim.recOf l (recTrig l src frac s) =
        stamped k (stampOf src frac d.2 s) (crosses l s) (u32 (recRec s) 8) (u32 (recRec s) 12) r := by
  have hr := recOf_undue l src s
  have hc' : (Claim.recOf l (undue l src s)).cur = some k := by rw [hr]; exact hc
  have hn' : (Claim.recOf l (undue l src s)).run.trig = none := by rw [hr]; exact hn
  have ht' : segStartRaw l (undue l src s) ≤ ((stampOf src frac d.2 s).ticks.toNat : Int) := by rw [segStartRaw_undue]; exact ht
  rw [recTrig_of_due hd frac, takeTrigger_first hc' ht' hn', ← recRec_undue l src s]
  exact ⟨latched_raise _ 0 _ (by decide), firstTrigger_recOf l k _ _ false _⟩

/-- It crosses the link (R339). -/
theorem recTrig_first_crosses {src frac : Nat} {d : Nat × Long} {k : Fin 8}
    (hd : ((Claim.recOf l s).due.find? fun d => d.1 == src) = some d) (hc : (Claim.recOf l s).cur = some k)
    (ht : segStartRaw l s ≤ (d.2.toNat : Int)) (hn : (Claim.recOf l s).run.trig = none) (hx : crosses l s = true) :
    (Claim.recOf (otherLane l) (recTrig l src frac s)).xin = (Claim.recOf (otherLane l) s).xin ++ [stampOf src frac d.2 s] := by
  have hr := recOf_undue l src s
  have hc' : (Claim.recOf l (undue l src s)).cur = some k := by rw [hr]; exact hc
  have hn' : (Claim.recOf l (undue l src s)).run.trig = none := by rw [hr]; exact hn
  have ht' : segStartRaw l (undue l src s) ≤ ((stampOf src frac d.2 s).ticks.toNat : Int) := by rw [segStartRaw_undue]; exact ht
  rw [recTrig_of_due hd frac, takeTrigger_first hc' ht' hn', hx, firstTrigger_crosses]
  exact congrArg (fun r : RecState => r.xin ++ [stampOf src frac d.2 s]) (recOf_modRec_other l _ s)

/-- A later one is counted (R344). -/
theorem recTrig_later {src frac : Nat} {d : Nat × Long} {k : Fin 8} {x : RecTrigger}
    (hd : ((Claim.recOf l s).due.find? fun d => d.1 == src) = some d) (hc : (Claim.recOf l s).cur = some k)
    (ht : segStartRaw l s ≤ (d.2.toNat : Int)) (hn : (Claim.recOf l s).run.trig = some x) :
    recTrig l src frac s = laterTrigger l (stampOf src frac d.2 s) (undue l src s) := by
  have hr := recOf_undue l src s
  have hc' : (Claim.recOf l (undue l src s)).cur = some k := by rw [hr]; exact hc
  have hn' : (Claim.recOf l (undue l src s)).run.trig = some x := by rw [hr]; exact hn
  have ht' : segStartRaw l (undue l src s) ≤ ((stampOf src frac d.2 s).ticks.toNat : Int) := by rw [segStartRaw_undue]; exact ht
  rw [recTrig_of_due hd frac, takeTrigger_later hc' ht' hn']

/-- In the dead time it is missed (R345). -/
theorem recTrig_missed {src : Nat} {d : Nat × Long} (hd : ((Claim.recOf l s).due.find? fun d => d.1 == src) = some d)
    (hc : (Claim.recOf l s).cur = none) (frac : Nat) :
    Latched (.rcd l) 3 (recTrig l src frac s) ∧
      (Claim.recOf l (recTrig l src frac s)).missed = satInc (Claim.recOf l s).missed ∧
      (Claim.recOf l (recTrig l src frac s)).seg = (Claim.recOf l s).seg := by
  have hr := recOf_undue l src s
  have hc' : (Claim.recOf l (undue l src s)).cur = none := by rw [hr]; exact hc
  have hm := missTrigger_missed l (stampOf src frac d.2 s) (undue l src s)
  rw [hr] at hm
  rw [recTrig_of_due hd frac, takeTrigger_none hc']
  exact ⟨latched_raise _ 3 _ (by decide), hm⟩

/-! ### REC_CMD.TRIG (R338) -/

/-- The state that has read a free value. -/
def drawn (s : State) : State := { s with fresh := s.fresh + 1 }

/-- The command notes source 116, and its trigger is taken. -/
theorem recCmdTrig_eq (l : Lane) (s : State) :
    recCmdTrig l s = recTrig l 116 (Config.freeNat s.fresh % 100) (noteTrig l 116 s.raw (drawn s)) := rfl

/-- The state with source 116 noted. -/
def commanded (l : Lane) (s : State) : State := modRec l (fun r => { r with due := r.due ++ [(116, s.raw)] }) (drawn s)

/-- The recorder with source 116 noted. -/
theorem recOf_commanded (l : Lane) (s : State) :
    Claim.recOf l (commanded l s) = { Claim.recOf l s with due := (Claim.recOf l s).due ++ [(116, s.raw)] } := by
  cases l <;> rfl

/-- A recorder that runs notes the command that its record lists. -/
theorem noteTrig_commanded (hr : (Claim.recOf l s).running = true) (ho : recTrigOn 116 s = true) :
    noteTrig l 116 s.raw (drawn s) = commanded l s := by
  have hg : (((drawn s).lane l).rcd.running && recTrigOn 116 (drawn s)) = true := by
    have hr' : ((drawn s).lane l).rcd.running = true := by cases l <;> exact hr
    have ho' : recTrigOn 116 (drawn s) = true := ho
    rw [hr', ho', Bool.and_true]
  exact if_pos hg

/-- Another notes nothing. -/
theorem noteTrig_of_unlisted (h : (Claim.recOf l s).running = false ∨ recTrigOn 116 s = false) :
    noteTrig l 116 s.raw (drawn s) = drawn s := by
  refine if_neg ?_
  have hr' : ((drawn s).lane l).rcd.running = (Claim.recOf l s).running := by cases l <;> rfl
  have ho' : recTrigOn 116 (drawn s) = recTrigOn 116 s := rfl
  rw [hr', ho']
  rcases h with h | h
  · rw [h, Bool.false_and]
    exact Bool.false_ne_true
  · rw [h, Bool.and_false]
    exact Bool.false_ne_true

/-- Its stamp is found behind those of other sources. -/
theorem find_commanded (h : (Claim.recOf l s).due.all (fun d => d.1 != 116) = true) :
    ((Claim.recOf l (commanded l s)).due.find? fun d => d.1 == 116) = some (116, s.raw) := by
  have hfind : ((Claim.recOf l s).due.find? fun d => d.1 == 116) = none := by
    rw [List.find?_eq_none]
    intro d hd
    have hne := List.all_eq_true.mp h d hd
    simpa using hne
  rw [recOf_commanded, List.find?_append, hfind]
  rfl

/-- A segment starts where it did. -/
theorem segStartRaw_commanded (l : Lane) (s : State) : segStartRaw l (commanded l s) = segStartRaw l s := by cases l <;> rfl

end

/-- The triggers of a recorder. -/
theorem recorderTriggersAreTakenOnce : Claim.RecorderTriggersAreTakenOnce := by
  intro s l src frac r hr
  subst hr
  refine ⟨?_, ?_, ?_, ?_, ?_, ?_, ?_⟩
  · intro h
    exact congrArg Host.Outcome.next (recTrig_of_absent h frac.val)
  · intro at0 rest hdue
    obtain ⟨hfind, herase⟩ := find_of_head hdue
    refine ⟨fun k hc ht => ⟨fun hn => ?_, fun x hn => ?_⟩, fun hc => ?_⟩
    · obtain ⟨hl, r, hm, hrec⟩ := recTrig_first (frac := frac.val) hfind hc ht hn
      have hr := recOf_undue l src.val s
      refine ⟨recTrig l src.val frac.val s, rfl, hl, ?_, ?_, ?_, ?_, ?_, ?_, ?_⟩
      · rw [hrec]
        exact Vector.getElem_set_self k.isLt
      · rw [hrec]
        refine (cur_of_unmarked hm).trans ?_
        rw [hr]
        exact hc
      · rw [hrec]
        refine (due_of_unmarked hm).trans ?_
        rw [hr]
        exact herase
      · rw [hrec]
        rfl
      · rw [hrec]
        rfl
      · rw [hrec]
        rfl
      · intro hup hrun
        refine recTrig_first_crosses hfind hc ht hn ?_
        rw [crosses, hup, hrun, Bool.and_true]
    · have he := laterTrigger_effect l (stampOf src.val frac.val at0 s) (undue l src.val s)
      rw [← recTrig_later (frac := frac.val) hfind hc ht hn, recOf_undue, recRec_undue] at he
      obtain ⟨hretrig, htrig, hext, hseg⟩ := he
      refine ⟨recTrig l src.val frac.val s, rfl, ?_, hretrig, htrig.trans hn, hext, hseg⟩
      rw [recTrig_later hfind hc ht hn]
      exact latched_raise _ 1 _ (by decide)
    · exact ⟨_, rfl, recTrig_missed hfind hc frac.val⟩
  · intro h
    refine congrArg Host.Outcome.next ?_
    change (s.lane l).rcd.xin = [] at h
    rw [xlaneTrigger, h]
  · intro x rest k hx hc hn ht
    have hu := recOf_modRec_self l (fun r => { r with xin := rest }) s
    have he : xlaneTrigger l s = firstTrigger l k x true true (modRec l (fun r => { r with xin := rest }) s) := by
      have hxl : xlaneTrigger l s = takeTrigger l x true true (modRec l (fun r => { r with xin := rest }) s) := by
        change (s.lane l).rcd.xin = x :: rest at hx
        rw [xlaneTrigger, hx]
      rw [hxl]
      refine takeTrigger_first ?_ ?_ ?_
      · rw [hu]
        exact hc
      · rw [segStartRaw_modRec l _ s rfl]
        exact ht
      · rw [hu]
        exact hn
    obtain ⟨r, hm, hrec⟩ := firstTrigger_recOf l k x true true (modRec l (fun r => { r with xin := rest }) s)
    rw [← he] at hrec
    rw [hu] at hm
    refine ⟨xlaneTrigger l s, rfl, ?_, ?_, ?_, ?_⟩
    · rw [hrec]
      exact xin_of_unmarked hm
    · rw [hrec]
      rfl
    · rw [hrec]
      rfl
    · rw [he]
      exact latched_raise _ 0 _ (by decide)
  · intro h hdue
    have he : recCmdTrig l s = drawn s := by
      rw [recCmdTrig_eq, noteTrig_of_unlisted h]
      refine recTrig_of_absent ?_ _
      cases l <;> exact hdue
    refine ⟨recCmdTrig l s, rfl, ?_⟩
    rw [he]
    exact takeFree_only s
  · intro hrun hon hdue hc
    have he : recCmdTrig l s = recTrig l 116 (Config.freeNat s.fresh % 100) (commanded l s) := by
      rw [recCmdTrig_eq, noteTrig_commanded hrun hon]
    have hr := recOf_commanded l s
    have hm := recTrig_missed (find_commanded hdue) (by rw [hr]; exact hc) (Config.freeNat s.fresh % 100)
    rw [← he, hr] at hm
    exact ⟨_, rfl, hm.1, hm.2.1⟩
  · intro k hrun hon hdue hc hn ht
    have he : recCmdTrig l s = recTrig l 116 (Config.freeNat s.fresh % 100) (commanded l s) := by
      rw [recCmdTrig_eq, noteTrig_commanded hrun hon]
    have hr := recOf_commanded l s
    obtain ⟨hl, r, -, hrec⟩ := recTrig_first (frac := Config.freeNat s.fresh % 100) (k := k) (find_commanded hdue) (by rw [hr]; exact hc)
      (by rw [segStartRaw_commanded]; exact ht) (by rw [hr]; exact hn)
    rw [← he] at hl hrec
    refine ⟨recCmdTrig l s, rfl, hl, Config.freeNat s.fresh % 100, Nat.mod_lt _ (by decide), ?_⟩
    rw [hrec]
    cases l <;> rfl

end Sys2Proof.Machine
end

section
/-! PROOFS. A record completes, is held and released (O53; R341, R343, R345, R346; log entry 3). -/

namespace Sys2Proof.Machine

/-! ### The free segments (R345) -/

section
variable {l : Lane} {s : State}

/-- A segment that takes no trigger is free. -/
theorem freeSegment_eq_none (h : ∀ j : Fin 8, j.val < recNseg s → (Claim.recOf l s).seg[j] ≠ 0) : freeSegment l s = none := by
  refine List.find?_eq_none.mpr fun j _ hj => ?_
  rw [Bool.and_eq_true, decide_eq_true_iff, beq_iff_eq] at hj
  exact h j hj.1 hj.2

/-- The lowest of the free segments. -/
theorem freeSegment_eq_some {j : Fin 8} (hj : j.val < recNseg s) (hz : (Claim.recOf l s).seg[j] = 0)
    (hlow : ∀ i : Fin 8, i < j → (Claim.recOf l s).seg[i] ≠ 0) : freeSegment l s = some j := by
  have hpos : (decide (j.val < recNseg s) && ((s.lane l).rcd.seg[j]) == 0) = true := by
    rw [Bool.and_eq_true, decide_eq_true_iff, beq_iff_eq]
    exact ⟨hj, hz⟩
  refine List.find?_eq_some_iff_getElem.mpr ⟨hpos, j.val, by simp [idx], by simp [idx], fun i hi => ?_⟩
  have hlt : i < 8 := by omega
  have hne := hlow ⟨i, hlt⟩ hi
  rw [Bool.not_eq_true', Bool.and_eq_false_iff]
  right
  rw [beq_eq_false_iff_ne]
  have hi' : (idx 8)[i]'(by simpa [idx] using hlt) = ⟨i, hlt⟩ := by simp [idx]
  rw [hi']
  exact hne

/-- A segment that is free holds nothing. -/
theorem seg_of_freeSegment {j : Fin 8} (h : freeSegment l s = some j) : (Claim.recOf l s).seg[j] = 0 := by
  have hp := List.find?_some h
  rw [Bool.and_eq_true, beq_iff_eq] at hp
  exact hp.2

end

/-! ### The end of a record (R343, R345, R346) -/

/-- The recorder whose segment k is held. -/
def segHeld (k : Fin 8) (at0 : Nat) (r : RecState) : RecState :=
  { r with
    seg := upd r.seg k 3
    cur := none
    run := { }
    deadFrom := at0
    seq := r.seq + 1
    lastSeq := BitVec.ofNat 24 (r.seq + 1)
    lastSeg := BitVec.ofNat 3 k.val }

/-- The recorder whose next segment starts. -/
def segStarted (j : Fin 8) (at0 : Nat) (r : RecState) : RecState :=
  { r with
    seg := upd r.seg j 1
    cur := some j
    lastDead := wd (min 0xFFFFFFFF ((at0 - r.deadFrom) * 5 / 2))
    run := { startAt := at0, deadNs := (at0 - r.deadFrom) * 5 / 2, missed := r.nextMissed, missTicks := r.nextMissTicks }
    nextMissed := 0
    nextMissTicks := 0 }

/-- A segment starts in its recorder. -/
theorem startSegment_eq (l : Lane) (j : Fin 8) (at0 : Nat) (s : State) : startSegment l j at0 s = modRec l (segStarted j at0) s := rfl

section
variable (l : Lane) (k : Fin 8) (at0 : Nat) (s u : State)

/-- The headers of the record are written. -/
def headed (seq : Nat) : State :=
  when (recDec s && decide (l = seniorLane s)) (sharedWrite (decSegBase s k.val) (decHeader l seq u))
    (laneWrite l (rawSegBase (recNseg s) k.val) (rawHeader l seq u) u)

/-- The record is held. -/
def recordHeld (seq : Nat) : State :=
  raise (.rcd l) 2 (modRec l (fun r => { segHeld k at0 r with
    seq := seq
    lastSeq := BitVec.ofNat 24 seq })
    (opEvent 5 (laneNum l) 0 (BitVec.ofNat 24 seq |>.setWidth 32, wd k.val) [] (headed l k s u seq)))

/-- The next segment starts, or none is free. -/
def segmentNext : State :=
  match freeSegment l u with
  | none => raise (.rcd l) 4 u
  | some j => startSegment l j (at0 + Config.freeNat u.fresh % 401) (drawn u)

/-- A record whose parts are not filled goes on. -/
theorem recDone_of_unfilled (h : (Claim.recOf l s).run.doneAt = none) : recDone l s = s := by
  change (s.lane l).rcd.run.doneAt = none at h
  rw [recDone, h]
  cases (s.lane l).rcd.cur
  · rfl
  · rfl

/-- One whose parts are filled is held, and the next segment goes on. -/
theorem recDone_eq (hc : (Claim.recOf l s).cur = some k) (hd : (Claim.recOf l s).run.doneAt = some at0) :
    recDone l s = segmentNext l at0 (recordHeld l k at0 s (elapseTo at0 s) ((Claim.recOf l s).seq + 1)) := by
  change (s.lane l).rcd.cur = some k at hc
  change (s.lane l).rcd.run.doneAt = some at0 at hd
  rw [recDone, hc, hd]
  rfl

/-- The headers leave the recorders and their record. -/
theorem headed_only (seq : Nat) : Frame [.sram, sramPart l] u (headed l k s u seq) := by
  unfold headed
  refine Frame.comp ?_ (Frame.when ?_)
  · exact (laneWrite_only _ _ _ _).mono (by simp)
  · exact (sharedWrite_only _ _ _).mono (by simp)

/-- The recorder that holds its record. -/
theorem recOf_recordHeld (seq : Nat) (h : seq = (Claim.recOf l u).seq + 1) :
    Claim.recOf l (recordHeld l k at0 s u seq) = segHeld k at0 (Claim.recOf l u) := by
  have hf : Frame [.board, .host, .sram, sramPart l] u
      (opEvent 5 (laneNum l) 0 (BitVec.ofNat 24 seq |>.setWidth 32, wd k.val) [] (headed l k s u seq)) :=
    Frame.under (opEvent_only _ _ _ _ _ _) (by simp) ((headed_only l k s u seq).mono (by simp))
  refine Eq.trans (recOf_modRec_self l _ _) ?_
  rw [recOf_of_frame hf (by cases l <;> simp [lanePart, sramPart]), h]
  rfl

/-- What it leaves. -/
theorem recordHeld_only (seq : Nat) :
    Frame [.events, .board, .host, .sram, lanePart l, sramPart l] u (recordHeld l k at0 s u seq) := by
  unfold recordHeld
  refine Frame.under (raise_only _ _ _) (by simp) ?_
  refine Frame.under (modRec_only _ _ _) (by simp) ?_
  refine Frame.under (opEvent_only _ _ _ _ _ _) (by simp) ?_
  exact (headed_only l k s u seq).mono (by simp)

/-- The next segment, where none is free. -/
theorem segmentNext_none (h : freeSegment l u = none) : segmentNext l at0 u = raise (.rcd l) 4 u := by
  rw [segmentNext, h]

/-- The next segment, where one is. -/
theorem segmentNext_some {j : Fin 8} (h : freeSegment l u = some j) :
    segmentNext l at0 u = startSegment l j (at0 + Config.freeNat u.fresh % 401) (drawn u) := by
  rw [segmentNext, h]

/-- What the next segment leaves. -/
theorem segmentNext_only : Frame [.free, .events, .board, lanePart l] u (segmentNext l at0 u) := by
  unfold segmentNext
  split
  · exact (raise_only _ _ _).mono (by simp)
  · refine Frame.under (startSegment_only _ _ _ _) (by simp) ?_
    exact (takeFree_only u).mono (by simp)

/-- Its events stay. -/
theorem segmentNext_eventsKept : EventsKept u (segmentNext l at0 u) := by
  unfold segmentNext
  split
  · exact raise_eventsKept _ 4 (by decide) u
  · next j _ =>
    have hf : Frame [.free, lanePart l] u (startSegment l j (at0 + Config.freeNat u.fresh % 401) (drawn u)) :=
      Frame.under (startSegment_only _ _ _ _) (by simp) ((takeFree_only u).mono (by simp))
    exact hf.eventsKept (by cases l <;> simp [lanePart])

end

/-- The segments of a record that is held. -/
theorem seg_segHeld_self (k : Fin 8) (at0 : Nat) (r : RecState) : (segHeld k at0 r).seg[k] = 3 := Vector.getElem_set_self k.isLt

/-- Its other segments. -/
theorem seg_segHeld_other {k i : Fin 8} (h : i ≠ k) (at0 : Nat) (r : RecState) : (segHeld k at0 r).seg[i] = r.seg[i] :=
  Vector.getElem_set_ne k.isLt i.isLt fun he => h (Fin.ext he.symm)

/-- The segment that starts. -/
theorem seg_segStarted_self (j : Fin 8) (at0 : Nat) (r : RecState) : (segStarted j at0 r).seg[j] = 1 := Vector.getElem_set_self j.isLt

/-- The others. -/
theorem seg_segStarted_other {j i : Fin 8} (h : i ≠ j) (at0 : Nat) (r : RecState) : (segStarted j at0 r).seg[i] = r.seg[i] :=
  Vector.getElem_set_ne j.isLt i.isLt fun he => h (Fin.ext he.symm)

section
variable {l : Lane} {k : Fin 8} {at0 : Nat} {r : RecState} {u : State}

/-- A recorder of a held record without another segment stands (R345). -/
theorem segmentNext_full (hu : Claim.recOf l u = segHeld k at0 r) (h : ∀ j : Fin 8, j ≠ k → j.val < recNseg u → r.seg[j] ≠ 0) :
    Claim.recOf l (segmentNext l at0 u) = segHeld k at0 r ∧ Latched (.rcd l) 4 (segmentNext l at0 u) := by
  have hfree : freeSegment l u = none := by
    refine freeSegment_eq_none fun j hj => ?_
    rw [hu]
    by_cases hjk : j = k
    · subst hjk
      rw [seg_segHeld_self]
      decide
    · rw [seg_segHeld_other hjk]
      exact h j hjk hj
  rw [segmentNext_none l at0 u hfree]
  exact ⟨hu, latched_raise _ 4 u (by decide)⟩

/-- The lowest free segment goes on within 1 µs. -/
theorem segmentNext_free (hu : Claim.recOf l u = segHeld k at0 r) {j : Fin 8} (hjk : j ≠ k) (hj : j.val < recNseg u)
    (hz : r.seg[j] = 0) (hlow : ∀ i : Fin 8, i < j → i ≠ k → r.seg[i] ≠ 0) :
    ∃ n < 401, Claim.recOf l (segmentNext l at0 u) = segStarted j (at0 + n) (segHeld k at0 r) := by
  have hfree : freeSegment l u = some j := by
    refine freeSegment_eq_some hj ?_ fun i hi => ?_
    · rw [hu, seg_segHeld_other hjk]
      exact hz
    · rw [hu]
      by_cases hik : i = k
      · subst hik
        rw [seg_segHeld_self]
        decide
      · rw [seg_segHeld_other hik]
        exact hlow i hi hik
  refine ⟨Config.freeNat u.fresh % 401, Nat.mod_lt _ (by decide), ?_⟩
  rw [segmentNext_some l at0 u hfree, startSegment_eq]
  refine (recOf_modRec_self l _ _).trans (congrArg _ (Eq.trans ?_ hu))
  cases l <;> rfl

/-- What the next segment keeps of the recorder. -/
theorem segmentNext_keeps (hu : Claim.recOf l u = segHeld k at0 r) :
    (Claim.recOf l (segmentNext l at0 u)).seg[k] = 3 ∧ (Claim.recOf l (segmentNext l at0 u)).seq = r.seq + 1 ∧
      (Claim.recOf l (segmentNext l at0 u)).lastSeg = BitVec.ofNat 3 k.val ∧
      (Claim.recOf l (segmentNext l at0 u)).lastSeq = BitVec.ofNat 24 (r.seq + 1) := by
  cases hfree : freeSegment l u with
  | none =>
    have hr : Claim.recOf l (segmentNext l at0 u) = segHeld k at0 r := by
      rw [segmentNext_none l at0 u hfree]
      exact hu
    rw [hr]
    exact ⟨seg_segHeld_self k at0 r, rfl, rfl, rfl⟩
  | some j =>
    have hz := seg_of_freeSegment hfree
    rw [hu] at hz
    have hkj : k ≠ j := by
      intro he
      subst he
      rw [seg_segHeld_self] at hz
      exact absurd hz (by decide)
    have hr : Claim.recOf l (segmentNext l at0 u) = segStarted j (at0 + Config.freeNat u.fresh % 401) (segHeld k at0 r) := by
      rw [segmentNext_some l at0 u hfree, startSegment_eq]
      refine (recOf_modRec_self l _ _).trans (congrArg _ (Eq.trans ?_ hu))
      cases l <;> rfl
    rw [hr]
    refine ⟨?_, rfl, rfl, rfl⟩
    rw [seg_segStarted_other hkj]
    exact seg_segHeld_self k at0 r

end

/-! ### The release of held segments (R345, R346) -/

/-- A segment of the mask that is held becomes free. -/
def segReleased (mask : Byte) (r : RecState) : RecState :=
  { r with seg := Vector.ofFn fun k => if bit mask k.val && r.seg[k] == 3 then (0 : Fin 4) else r.seg[k] }

/-- A segment after the release. -/
theorem seg_segReleased (mask : Byte) (r : RecState) (k : Fin 8) :
    (segReleased mask r).seg[k] = if bit mask k.val && r.seg[k] == 3 then 0 else r.seg[k] := Vector.getElem_ofFn k.isLt

section
variable {l : Lane} {mask : Byte} {s : State}

/-- A release frees held segments, and starts one in a recorder that has none. -/
theorem recOf_releaseIn (l : Lane) (mask : Byte) (s : State) :
    Claim.recOf l (releaseIn l mask s) = segReleased mask (Claim.recOf l s) ∨
      ((Claim.recOf l s).cur = none ∧ ∃ (k : Fin 8) (at0 : Nat), (segReleased mask (Claim.recOf l s)).seg[k] = 0 ∧
        Claim.recOf l (releaseIn l mask s) = segStarted k at0 (segReleased mask (Claim.recOf l s))) := by
  have hr := recOf_modRec_self l (segReleased mask) s
  have he : releaseIn l mask s = if ((modRec l (segReleased mask) s).lane l).rcd.running &&
      ((modRec l (segReleased mask) s).lane l).rcd.cur.isNone then
      match freeSegment l (modRec l (segReleased mask) s) with
      | none => modRec l (segReleased mask) s
      | some k => startSegment l k (modRec l (segReleased mask) s).now (modRec l (segReleased mask) s)
    else modRec l (segReleased mask) s := rfl
  rw [he]
  split
  · next hg =>
    split
    · exact .inl hr
    · next k hk =>
      have hz := seg_of_freeSegment hk
      rw [hr] at hz
      have hc : (Claim.recOf l (modRec l (segReleased mask) s)).cur.isNone = true := (Bool.and_eq_true _ _ ▸ hg).2
      rw [hr] at hc
      refine .inr ⟨Option.isNone_iff_eq_none.mp hc, k, (modRec l (segReleased mask) s).now, hz, ?_⟩
      rw [startSegment_eq, recOf_modRec_self, hr]
  · exact .inl hr

/-- A segment that the release does not free stands. -/
theorem seg_releaseIn {k : Fin 8} (h : (segReleased mask (Claim.recOf l s)).seg[k] = (Claim.recOf l s).seg[k])
    (hk : (Claim.recOf l s).seg[k] ≠ 0) : (Claim.recOf l (releaseIn l mask s)).seg[k] = (Claim.recOf l s).seg[k] := by
  rcases recOf_releaseIn l mask s with hr | ⟨-, j, at0, hz, hr⟩
  · rw [hr]
    exact h
  · have hkj : k ≠ j := by
      intro he
      subst he
      exact hk (h.symm.trans hz)
    rw [hr, seg_segStarted_other hkj]
    exact h

/-- The mirrored write reaches the queue of the link only. -/
theorem recOf_recRelease (l : Lane) (mask : Byte) (s : State) :
    Claim.recOf l (recRelease l mask s) = Claim.recOf l (releaseIn l mask s) :=
  recOf_of_frame (mirror_only l (.recRelease mask) (releaseIn l mask s)) (by cases l <;> simp [lanePart])

/-- A mirrored write is queued behind the others. -/
theorem mirror_queue (l : Lane) (w : MirrorWrite) (s : State) :
    (tsuOut s l).queue.length ≤ (tsuOut (mirror l w s) l).queue.length := by
  unfold mirror
  split
  · rw [tsuOut_modTsu_self]
    simp
  · exact Nat.le_refl _

end

/-- The offsets that a measurement gives (R341). -/
theorem offsetsMeasured (l : Lane) (offs : List Int) (s : State) :
    (∀ p : Fin 32, (Claim.recOf l (modRec l (fun r => { r with
      meas := Vector.ofFn fun p => BitVec.ofInt 16 (offs.getD p.val 0) }) s)).meas[p] = BitVec.ofInt 16 (offs.getD p.val 0)) ∧
      (Claim.recOf l (modRec l (fun r => { r with
        meas := Vector.ofFn fun p => BitVec.ofInt 16 (offs.getD p.val 0) }) s)).run = (Claim.recOf l s).run := by
  rw [recOf_modRec_self]
  exact ⟨fun p => Vector.getElem_ofFn p.isLt, rfl⟩

/-- The records of a recorder. -/
theorem recordsCompleteAndAreReleased : Claim.RecordsCompleteAndAreReleased := by
  intro s l r hr
  subst hr
  refine ⟨?_, ?_, ?_, ?_⟩
  · intro h
    exact congrArg Host.Outcome.next (recDone_of_unfilled l s h)
  · intro k at0 hc hd
    have hel : Claim.recOf l (elapseTo at0 s) = Claim.recOf l s := recOf_of_frame (elapseTo_only at0 s) (by cases l <;> simp [lanePart])
    have hu := recOf_recordHeld l k at0 s (elapseTo at0 s) ((Claim.recOf l s).seq + 1) (by rw [hel])
    have hf := recordHeld_only l k at0 s (elapseTo at0 s) ((Claim.recOf l s).seq + 1)
    have hl2 : Latched (.rcd l) 2 (recordHeld l k at0 s (elapseTo at0 s) ((Claim.recOf l s).seq + 1)) := latched_raise _ 2 _ (by decide)
    have hn : recNseg (recordHeld l k at0 s (elapseTo at0 s) ((Claim.recOf l s).seq + 1)) = recNseg s :=
      congrArg (fun b => max 1 (u8 b 4)) (recRec_of_key ((hf .key (by cases l <;> simp [lanePart, sramPart])).trans
        (elapseTo_only at0 s .key (by simp))))
    have hnow := (hf.now_eq (by cases l <;> simp [lanePart, sramPart])).trans (elapseTo_now_eq_max at0 s)
    have he := recDone_eq l k at0 s hc hd
    rw [hel] at hu
    rw [← hn]
    generalize recordHeld l k at0 s (elapseTo at0 s) ((Claim.recOf l s).seq + 1) = u at *
    obtain ⟨hseg, hseq, hlseg, hlseq⟩ := segmentNext_keeps hu
    refine ⟨segmentNext l at0 u, congrArg Host.Outcome.next he, hseg, hseq, ?_, hlseq, ?_, ?_, ?_, ?_⟩
    · rw [hlseg]
      exact Nat.mod_eq_of_lt k.isLt
    · exact segmentNext_eventsKept l at0 u (.rcd l) 2 hl2
    · exact ((segmentNext_only l at0 u).now_eq (by cases l <;> simp [lanePart])).trans hnow
    · intro h
      obtain ⟨hrec, hl4⟩ := segmentNext_full hu h
      exact ⟨by rw [hrec]; rfl, hl4⟩
    · intro j hjk hj hz hlow
      obtain ⟨n, hlt, hrec⟩ := segmentNext_free hu hjk hj hz hlow
      rw [hrec]
      exact ⟨rfl, seg_segStarted_self j _ _, Nat.le_add_right at0 n, Nat.add_le_add_left (Nat.le_of_lt_succ hlt) at0, rfl⟩
  · intro mask
    refine ⟨recRelease l mask s, rfl, ?_, ?_, ?_, ?_, ?_⟩
    · have hcl : (releaseIn l mask s).claim = s.claim := releaseIn_only l mask s .claim (by cases l <;> simp [lanePart])
      rw [← tsuOut_of_claim hcl l]
      exact mirror_queue l (.recRelease mask) (releaseIn l mask s)
    · intro k hb hk
      rw [recOf_recRelease]
      refine seg_releaseIn ?_ hk
      rw [seg_segReleased, hb]
      rfl
    · intro k hk
      rw [recOf_recRelease, ← hk]
      refine seg_releaseIn ?_ ?_
      · rw [seg_segReleased, hk]
        simp
      · rw [hk]
        decide
    · intro k hb hk hc
      rw [recOf_recRelease]
      rcases recOf_releaseIn l mask s with hr | ⟨hn, -⟩
      · rw [hr, seg_segReleased, hb, hk]
        rfl
      · rw [hn] at hc
        exact absurd hc Bool.false_ne_true
    · exact (recRelease_only l mask s).mono (by simp)
  · intro offs
    refine ⟨fun h => congrArg Host.Outcome.next (if_neg ?_), fun h => ?_⟩
    · change ¬ (Claim.recOf l s).running = true
      rw [h]
      exact Bool.false_ne_true
    · have hp : Claim.recOf l (periodic (tkOffs l) (secs 1) s) = Claim.recOf l s :=
        recOf_of_frame (periodic_only _ _ s) (by cases l <;> simp [lanePart])
      have hm := offsetsMeasured l offs (periodic (tkOffs l) (secs 1) s)
      rw [hp] at hm
      exact ⟨_, congrArg Host.Outcome.next (if_pos h), hm.1, hm.2,
        .comp ((periodic_only _ _ s).mono (by simp)) ((modRec_only l _ _).mono (by simp))⟩

/-- Settles O53: triggers, records and segments. -/
theorem recorderTriggersAndRecords : Obligations.RecorderTriggersAndRecords :=
  ⟨recorderTriggersAreTakenOnce, recordsCompleteAndAreReleased⟩

end Sys2Proof.Machine
end

section
/-! PROOFS. Frames and notifications of the host ports (O54; R350 to R353, R356; log entry 3). -/

namespace Sys2Proof.Machine

section
variable {p q : HostPort} {s t : State}

/-! ### The ports -/

/-- A port without its outbound queue. -/
def portRest (x : HostPortState) : HostPortState := { x with out := [] }

/-- Ports of the same host block are the same. -/
theorem hostPort_of_host (h : t.host = s.host) (p : HostPort) : hostPort p t = hostPort p s := by
  cases p
  · exact congrArg (fun x : HostState => x.hsp) h
  · exact congrArg (fun x : HostState => x.net) h

/-- A change of a port that leaves its board part changes the host block only. -/
theorem modHostPort_host {p : HostPort} {f : HostPortState → HostPortState} (hp : ∀ x, (f x).pend = x.pend) (s : State) :
    Frame [.host] s (modHostPort p f s) := by
  intro part hpart
  by_cases hb : part = .board
  · subst hb
    cases p
    · exact ⟨rfl, rfl, hp s.host.hsp, rfl⟩
    · exact ⟨rfl, rfl, rfl, hp s.host.net⟩
  · exact modHostPort_only p f s part (by simp_all)

/-- A frame of one port of the network leaves the host block. -/
theorem host_sendPort (k : Fin 2) (kind dst : Nat) (seq : Option Half) (bs : List Byte) (s : State) :
    (sendPort k kind dst seq bs s).host = s.host := by
  unfold sendPort
  split
  · rfl
  · rfl

/-- A frame on the wire does. -/
theorem host_sendNet (kind dst : Nat) (bs : List Byte) (s : State) : (sendNet kind dst bs s).host = s.host := by
  unfold sendNet
  split
  · exact host_sendPort 0 kind dst none bs s
  · exact (host_sendPort 1 kind dst _ bs _).trans (host_sendPort 0 kind dst _ bs s)

/-- So do several. -/
theorem host_sendNets (xs : List HostFrame) (s : State) : (foldS xs (fun f => sendNet 3 (netDst f) f.bytes) s).host = s.host :=
  foldS_keeps State.host xs _ s fun f u => host_sendNet 3 (netDst f) f.bytes u

/-! ### The outbound queues -/

/-- Frames of the network port that leave raise no pennant. -/
theorem flushNet_board (s : State) : (flushNet s).host.raised = s.host.raised ∧ (flushNet s).host.counts = s.host.counts := by
  unfold flushNet
  split
  · have hh := host_sendNets s.host.net.out s
    have hraised := congrArg HostState.raised hh
    have hcounts := congrArg HostState.counts hh
    exact ⟨hraised, hcounts⟩
  · exact ⟨rfl, rfl⟩

/-- Frames of the network port that leave change its outbound queue only. -/
theorem flushNet_hostPort (p : HostPort) (s : State) :
    portRest (hostPort p (flushNet s)) = portRest (hostPort p s) ∧ (p = .hsp → hostPort p (flushNet s) = hostPort p s) := by
  unfold flushNet
  split
  · have hh := host_sendNets s.host.net.out s
    have hhsp := congrArg HostState.hsp hh
    cases p
    · exact ⟨congrArg portRest hhsp, fun _ => hhsp⟩
    · refine ⟨?_, fun h => by cases h⟩
      rw [hostPort_modHostPort_self]
      exact congrArg (fun x : HostState => portRest x.net) hh
  · exact ⟨rfl, fun _ => rfl⟩

/-- A frame that is queued changes an outbound queue only. -/
theorem portRest_queueFrame (p q : HostPort) (f : HostFrame) (s : State) :
    portRest (hostPort q (queueFrame p f s)) = portRest (hostPort q s) := by
  cases p
  · cases q
    · rfl
    · rfl
  · refine (flushNet_hostPort q _).1.trans ?_
    cases q
    · rfl
    · rfl

/-- On HSP it is the last one. -/
theorem out_queueFrame_hsp (f : HostFrame) (s : State) : (queueFrame .hsp f s).host.hsp.out = s.host.hsp.out ++ [f] := rfl

section
variable {x y : HostPortState} (h : portRest x = portRest y)
include h

/-- The requests of two ports equal up to their outbound queue. -/
theorem queue_of_portRest : x.queue = y.queue := show (portRest x).queue = (portRest y).queue by rw [h]

/-- Their pennants to be notified. -/
theorem pend_of_portRest : x.pend = y.pend := show (portRest x).pend = (portRest y).pend by rw [h]

/-- Their last notification. -/
theorem lastNotif_of_portRest : x.lastNotif = y.lastNotif := show (portRest x).lastNotif = (portRest y).lastNotif by rw [h]

/-- Its number. -/
theorem nseq_of_portRest : x.nseq = y.nseq := show (portRest x).nseq = (portRest y).nseq by rw [h]

/-- Their stored responses. -/
theorem store_of_portRest : x.store = y.store := show (portRest x).store = (portRest y).store by rw [h]

/-- Their subscriptions. -/
theorem sub_of_portRest : x.sub = y.sub := show (portRest x).sub = (portRest y).sub by rw [h]

end

/-- A frame that is queued raises no pennant. -/
theorem queueFrame_host (p : HostPort) (f : HostFrame) (s : State) : Frame [.host, .net, .outbox] s (queueFrame p f s) := by
  intro part hpart
  by_cases hb : part = .board
  · subst hb
    have hh := pend_of_portRest (portRest_queueFrame p .hsp f s)
    have hn := pend_of_portRest (portRest_queueFrame p .net f s)
    have hraise : (queueFrame p f s).host.raised = s.host.raised ∧ (queueFrame p f s).host.counts = s.host.counts := by
      cases p
      · exact ⟨rfl, rfl⟩
      · exact flushNet_board _
    exact ⟨hraise.1, hraise.2, hh, hn⟩
  · exact queueFrame_only p f s part (by simp_all)

/-- An event leaves a port's requests. -/
@[simp] theorem notePort_queue (raw : Long) (n : Nat) (x : HostPortState) : (notePort raw n x).queue = x.queue :=
  (apply_ite HostPortState.queue _ _ _).trans (ite_self _)

/-- It leaves its outbound queue. -/
@[simp] theorem notePort_out (raw : Long) (n : Nat) (x : HostPortState) : (notePort raw n x).out = x.out :=
  (apply_ite HostPortState.out _ _ _).trans (ite_self _)

/-- It leaves its subscriptions. -/
@[simp] theorem notePort_sub (raw : Long) (n : Nat) (x : HostPortState) : (notePort raw n x).sub = x.sub :=
  (apply_ite HostPortState.sub _ _ _).trans (ite_self _)

/-- It leaves the number of its last notification. -/
@[simp] theorem notePort_nseq (raw : Long) (n : Nat) (x : HostPortState) : (notePort raw n x).nseq = x.nseq :=
  (apply_ite HostPortState.nseq _ _ _).trans (ite_self _)

/-- It leaves the time of that. -/
@[simp] theorem notePort_lastNotif (raw : Long) (n : Nat) (x : HostPortState) : (notePort raw n x).lastNotif = x.lastNotif :=
  (apply_ite HostPortState.lastNotif _ _ _).trans (ite_self _)

/-- It leaves its stored responses. -/
@[simp] theorem notePort_store (raw : Long) (n : Nat) (x : HostPortState) : (notePort raw n x).store = x.store :=
  (apply_ite HostPortState.store _ _ _).trans (ite_self _)

/-- It leaves its count of broken frames. -/
@[simp] theorem notePort_errCnt (raw : Long) (n : Nat) (x : HostPortState) : (notePort raw n x).errCnt = x.errCnt :=
  (apply_ite HostPortState.errCnt _ _ _).trans (ite_self _)

/-- It keeps the pennants to be notified. -/
theorem notePort_pend_and (raw : Long) (n : Nat) (x : HostPortState) : (notePort raw n x).pend &&& x.pend = x.pend := by
  unfold notePort
  split
  · refine BitVec.eq_of_getLsbD_eq fun i _ => ?_
    rw [putBit, if_pos rfl, BitVec.getLsbD_and, BitVec.getLsbD_or]
    cases x.pend.getLsbD i
    · exact Bool.and_false _
    · rfl
  · exact BitVec.and_self

end

end Sys2Proof.Machine
end

section
/-! PROOFS. Frames are checked and queued; notifications keep their interval (O54; R350 to R353, R356; log entry 3). -/

namespace Sys2Proof.Machine

/-! ### Frames and requests (R350 to R353) -/

section
variable {p : HostPort} {s : State} {bs : List Byte}

/-- A request that finds a place joins its queue. -/
theorem acceptRequest_room (hu : unanswered p s < 8) (ho : outRoom p s = true) (r : HostRequest) :
    acceptRequest p r s = modHostPort p (fun x => { x with queue := x.queue ++ [r] }) s :=
  if_pos (by rw [decide_eq_true hu, ho]; rfl)

/-- One that finds none is discarded. -/
theorem acceptRequest_full (hu : 8 ≤ unanswered p s) (r : HostRequest) : acceptRequest p r s = raise .hcp 3 s :=
  if_neg (by rw [decide_eq_false (Nat.not_lt.mpr hu)]; exact Bool.false_ne_true)

/-- A whole frame on HSP in a running module. -/
theorem hspFrameIn_whole (hm : s.md ≠ 0) (hb : pennantOk bs = true) :
    hspFrameIn bs s = if u8 bs 3 = 1 then acceptRequest .hsp (frameRequest bs 0 0) s else s :=
  (if_neg hm).trans (if_neg (by rw [hb]; exact Bool.false_ne_true))

/-- A broken one. -/
theorem hspFrameIn_broken (hm : s.md ≠ 0) (hb : pennantOk bs = false) : hspFrameIn bs s = badFrame .hsp s :=
  (if_neg hm).trans (if_pos (by rw [hb]; rfl))

/-- A frame that is clocked out whole. -/
theorem hspFrameOut_whole (hm : s.md ≠ 0) : hspFrameOut true s = match s.host.hsp.out with
    | [] => send (.hsp (frameBytes 0 0 0 0 [])) s
    | f :: _ => send (.hsp f.bytes) (modHostPort .hsp (fun x => { x with out := x.out.drop 1 }) s) :=
  (if_neg (by rw [decide_eq_false hm]; exact Bool.false_ne_true)).trans (by rfl)

/-- A request of the network port is executed once (R351). -/
def requestTaken (r : HostRequest) (s : State) : State :=
  match repeated r s with
  | some (some f) => raise .hcp 6 (queueFrame .net f s)
  | some none => raise .hcp 6 s
  | none => acceptRequest .net r s

/-- A datagram of the length of its frame, whole and a request. -/
theorem udpRequest_whole {ip : Word} {sp : Half} (ha : portAlive .net s = true) (hl : bs.length = 16 + u16 bs 8)
    (hb : pennantOk bs = true) (hk : u8 bs 3 = 1) : udpRequest ip sp bs s = requestTaken (frameRequest bs ip sp) s :=
  (if_neg (by rw [ha]; exact Bool.false_ne_true)).trans ((if_neg (not_not_intro hl)).trans
    ((if_neg (by rw [hb]; exact Bool.false_ne_true)).trans (if_neg (not_not_intro hk))))

end

/-- Frames of the host ports. -/
theorem hostFramesAreCheckedAndQueued : Claim.HostFramesAreCheckedAndQueued := by
  intro s bs
  refine ⟨fun hm => ⟨?_, fun c => ?_⟩, fun hm => ⟨?_, ?_, ?_, ?_, ?_, ?_, ?_⟩, fun ip sp => ⟨?_, fun ha => ⟨?_, ?_⟩⟩⟩
  · exact congrArg Host.Outcome.next (if_pos hm)
  · exact congrArg Host.Outcome.next (if_pos (by rw [decide_eq_true hm]; rfl))
  · intro hb
    refine ⟨badFrame .hsp s, congrArg Host.Outcome.next (hspFrameIn_broken hm hb), latched_raise _ 2 _ (by decide), ?_, ?_,
      (badFrame_only .hsp s).mono (by simp)⟩
    · refine (congrArg HostPortState.errCnt (hostPort_raise .hsp .hcp 2 _)).trans ?_
      exact notePort_errCnt _ _ _
    · refine (congrArg HostPortState.queue (hostPort_raise .hsp .hcp 2 _)).trans ?_
      exact notePort_queue _ _ _
  · intro hb hk
    exact congrArg Host.Outcome.next ((hspFrameIn_whole hm hb).trans (if_neg hk))
  · intro hb hk hu ho
    have he := ((hspFrameIn_whole hm hb).trans (if_pos hk)).trans (acceptRequest_room hu ho (frameRequest bs 0 0))
    exact ⟨_, congrArg Host.Outcome.next he, rfl, rfl, modHostPort_host (by exact fun _ => rfl) s⟩
  · intro hb hk hu
    have he := ((hspFrameIn_whole hm hb).trans (if_pos hk)).trans (acceptRequest_full hu (frameRequest bs 0 0))
    refine ⟨_, congrArg Host.Outcome.next he, latched_raise _ 3 s (by decide), ?_, (raise_only _ _ s).mono (by simp)⟩
    exact (congrArg HostPortState.queue (hostPort_raise .hsp .hcp 3 s)).trans (notePort_queue _ _ _)
  · exact congrArg Host.Outcome.next (if_pos (Bool.or_true _))
  · intro ho
    refine congrArg Host.Outcome.next ?_
    rw [hspFrameOut_whole hm, ho]
    rfl
  · intro f rest ho
    have he : hspFrameOut true s = send (.hsp f.bytes) (modHostPort .hsp (fun x => { x with out := x.out.drop 1 }) s) := by
      rw [hspFrameOut_whole hm, ho]
    refine ⟨_, congrArg Host.Outcome.next he, ?_, rfl, ?_⟩
    · exact (congrArg (List.drop 1) ho).trans rfl
    · exact .under (send_only _ _) (by simp) ((modHostPort_host (by exact fun _ => rfl) s).mono (by simp))
  · intro ha
    exact congrArg Host.Outcome.next (if_pos (by rw [ha]; rfl))
  · intro hl
    have he : udpRequest ip sp bs s = modHostPort .net (fun x => { x with errCnt := satInc x.errCnt }) s :=
      (if_neg (by rw [ha]; exact Bool.false_ne_true)).trans (if_pos hl)
    exact ⟨_, congrArg Host.Outcome.next he, rfl, rfl, modHostPort_host (by exact fun _ => rfl) s⟩
  · intro hl hb hk
    refine ⟨fun f hf => ?_, fun hf hu ho => ?_⟩
    · have he : udpRequest ip sp bs s = raise .hcp 6 (queueFrame .net f s) := by rw [udpRequest_whole ha hl hb hk, requestTaken, hf]
      refine ⟨_, congrArg Host.Outcome.next he, latched_raise _ 6 _ (by decide), ?_, ?_⟩
      · refine (congrArg HostPortState.queue (hostPort_raise .net .hcp 6 _)).trans ?_
        exact (notePort_queue _ _ _).trans (queue_of_portRest (portRest_queueFrame .net .net f s))
      · exact .under (raise_only _ _ _) (by simp) ((queueFrame_host .net f s).mono (by simp))
    · have he : udpRequest ip sp bs s = acceptRequest .net (frameRequest bs ip sp) s := by rw [udpRequest_whole ha hl hb hk, requestTaken, hf]
      exact ⟨_, congrArg Host.Outcome.next (he.trans (acceptRequest_room hu ho _)), rfl, modHostPort_host (by exact fun _ => rfl) s⟩

/-! ### Notifications (R356) -/

section
variable {p : HostPort} {x : HostPortState} {s u : State}

/-- The interval of a port has passed. -/
def notifWaited (p : HostPort) (s : State) : State :=
  match (hostPort p s).lastNotif with
  | none => s
  | some t => elapseTo (t + notifGap p) s

/-- The notification is marked with its time. -/
def notifMarked (p : HostPort) (u : State) : State := modHostPort p (fun y => { y with lastNotif := some u.now }) u

/-- The frame of a notification. -/
def notifFrame (x : HostPortState) : HostFrame :=
  { bytes := frameBytes 3 0 0 0 (leBytes 4 (x.nseq + 1).toNat ++ leBytes 8 x.first.toNat ++ leBytes 32 x.pend.toNat)
    ip := x.destIp
    sport := x.destPort }

/-- It goes out, or is dropped. -/
def notified (p : HostPort) (x : HostPortState) (u : State) : State :=
  if !outRoom p u then raise .hcp 4 (notifMarked p u)
  else queueFrame p (notifFrame x) (modHostPort p (fun y => { y with
    nseq := x.nseq + 1
    pend := 0 }) (notifMarked p u))

/-- A port with pennants and a destination is notified after its interval. -/
theorem notificationTx_eq (ha : portAlive p s = true) (hp : (hostPort p s).pend ≠ 0) (hd : hasDest p (hostPort p s) = true) :
    notificationTx p s = notified p (hostPort p s) (notifWaited p s) := by
  refine if_neg ?_
  rw [ha, decide_eq_false hp, hd]
  exact Bool.false_ne_true

/-- Another sends none. -/
theorem notificationTx_idle (h : portAlive p s = false ∨ (hostPort p s).pend = 0 ∨ hasDest p (hostPort p s) = false) :
    notificationTx p s = s := by
  refine if_pos ?_
  rcases h with h | h | h
  · rw [h]
    rfl
  · rw [decide_eq_true h, Bool.or_true]
    rfl
  · rw [h, Bool.or_eq_true]
    exact .inr rfl

/-- The interval leaves the host block and the events. -/
theorem notifWaited_host (p : HostPort) (s : State) :
    (notifWaited p s).host = s.host ∧ (notifWaited p s).events = s.events := by
  unfold notifWaited
  split
  · exact ⟨rfl, rfl⟩
  · exact ⟨rfl, elapseTo_only _ s .events (by simp)⟩

/-- The time after it. -/
theorem notifWaited_now (p : HostPort) (s : State) : (notifWaited p s).now = match (hostPort p s).lastNotif with
    | none => s.now
    | some t => max s.now (t + notifGap p) := by
  unfold notifWaited
  split
  · rfl
  · exact elapseTo_now_eq_max _ s

/-- A place in the outbound queue depends on the ports. -/
theorem outRoom_of_host (h : u.host = s.host) (p : HostPort) : outRoom p u = outRoom p s := by
  rw [outRoom, unanswered, h, hostPort_of_host h p, outRoom, unanswered]

/-- A notification that has a place goes out. -/
theorem notified_room (h : outRoom p u = true) :
    notified p x u = queueFrame p (notifFrame x) (modHostPort p (fun y => { y with
      nseq := x.nseq + 1
      pend := 0 }) (notifMarked p u)) := if_neg (by rw [h]; exact Bool.false_ne_true)

/-- One without a place is dropped. -/
theorem notified_full (h : outRoom p u = false) : notified p x u = raise .hcp 4 (notifMarked p u) := if_pos (by rw [h]; rfl)

/-- The port after a notification that goes out. -/
theorem hostPort_notified_room (h : outRoom p u = true) :
    portRest (hostPort p (notified p x u)) = { portRest (hostPort p u) with
      nseq := x.nseq + 1
      pend := 0
      lastNotif := some u.now } := by
  rw [notified_room h, portRest_queueFrame, hostPort_modHostPort_self, notifMarked, hostPort_modHostPort_self]
  rfl

/-- The port after one that is dropped. -/
theorem hostPort_notified_full (h : outRoom p u = false) :
    hostPort p (notified p x u) = notePort u.raw (EvReg.hcp.base + 4) { hostPort p u with lastNotif := some u.now } := by
  rw [notified_full h, hostPort_raise, notifMarked, hostPort_modHostPort_self]
  cases p <;> rfl

/-- Time stands while a notification goes out. -/
theorem notified_now (p : HostPort) (x : HostPortState) (u : State) : (notified p x u).now = u.now := by
  cases h : outRoom p u
  · rw [notified_full h]
    cases p <;> rfl
  · rw [notified_room h, (queueFrame_only _ _ _).now_eq (by simp)]
    cases p <;> rfl

/-- Every notification is timed. -/
theorem notified_lastNotif (p : HostPort) (x : HostPortState) (u : State) : (hostPort p (notified p x u)).lastNotif = some u.now := by
  cases h : outRoom p u
  · rw [hostPort_notified_full h]
    exact notePort_lastNotif _ _ _
  · show (portRest (hostPort p (notified p x u))).lastNotif = _
    rw [hostPort_notified_room h]

/-- A notification goes out with the next number and clears the pennants. -/
theorem notified_sent (h : outRoom p u = true) :
    (hostPort p (notified p x u)).nseq = x.nseq + 1 ∧ (hostPort p (notified p x u)).pend = 0 ∧
      (notified p x u).events = u.events ∧ (p = .hsp → (notified p x u).host.hsp.out = u.host.hsp.out ++ [notifFrame x]) := by
  have hr := hostPort_notified_room (x := x) h
  refine ⟨?_, ?_, ?_, ?_⟩
  · show (portRest (hostPort p (notified p x u))).nseq = _
    rw [hr]
  · show (portRest (hostPort p (notified p x u))).pend = _
    rw [hr]
  · rw [notified_room h, queueFrame_only _ _ _ .events (by simp)]
    cases p <;> rfl
  · rintro rfl
    rw [notified_room h]
    rfl

/-- A dropped one keeps its pennants. -/
theorem notified_dropped (h : outRoom p u = false) :
    Latched .hcp 4 (notified p x u) ∧ (hostPort p (notified p x u)).nseq = (hostPort p u).nseq ∧
      (hostPort p (notified p x u)).pend &&& (hostPort p u).pend = (hostPort p u).pend ∧
      (hostPort p (notified p x u)).out = (hostPort p u).out := by
  have hr := hostPort_notified_full (x := x) h
  refine ⟨?_, ?_, ?_, ?_⟩
  · rw [notified_full h]
    exact latched_raise _ 4 _ (by decide)
  · rw [hr]
    exact notePort_nseq _ _ _
  · rw [hr]
    exact notePort_pend_and _ _ _
  · rw [hr]
    exact notePort_out _ _ _

end

/-- Notifications of the host ports. -/
theorem notificationsKeepTheirInterval : Claim.NotificationsKeepTheirInterval := by
  intro s p x hx
  subst hx
  refine ⟨fun h => congrArg Host.Outcome.next (notificationTx_idle h), fun ha hp hd => ?_⟩
  have he := notificationTx_eq ha hp hd
  obtain ⟨hh, hev⟩ := notifWaited_host p s
  have hn := notifWaited_now p s
  have hport := hostPort_of_host hh p
  have hroom := outRoom_of_host hh p
  have hf := notificationTx_only p s
  rw [he] at hf
  generalize notifWaited p s = u at *
  refine ⟨notified p (hostPort p s) u, congrArg Host.Outcome.next he, ?_, ?_, fun ho => ?_, fun ho => ?_, hf.mono (by simp)⟩
  · rw [notified_now]
    exact hn
  · rw [notified_now]
    exact notified_lastNotif p _ u
  · obtain ⟨hseq, hpend, hevents, hout⟩ := notified_sent (x := hostPort p s) (hroom.trans ho)
    refine ⟨hseq, hpend, hevents.trans hev, ?_⟩
    rintro rfl
    rw [hout rfl, hh]
    rfl
  · have hdrop := notified_dropped (x := hostPort p s) (hroom.trans ho)
    rw [hport] at hdrop
    exact hdrop

/-- Settles O54: frames on the host ports and notifications. -/
theorem hostFramesAndNotifications : Obligations.HostFramesAndNotifications :=
  ⟨hostFramesAreCheckedAndQueued, notificationsKeepTheirInterval⟩

end Sys2Proof.Machine
end

section
/-! PROOFS. Requests of the host ports and their responses (R350 to R354). -/

namespace Sys2Proof.Machine

/-! ### The words of a payload (R353) -/

/-- The bytes of a word, before others. -/
theorem leNat_leBytes_word (w : Word) : leNat (leBytes 4 w.toNat) = w.toNat :=
  (leNat_leBytes 4 w.toNat).trans (Nat.mod_eq_of_lt w.isLt)

/-- Four bytes are a word. -/
theorem length_leBytes (k n : Nat) : (leBytes k n).length = k := by
  induction k generalizing n with
  | zero => rfl
  | succ k ih => rw [leBytes, List.length_cons, ih]

/-- The first word of a payload. -/
theorem u32_ofWords_zero (w : Word) (ws : List Word) : u32 (ofWords (w :: ws)) 0 = w.toNat := by
  have hs : slice (ofWords (w :: ws)) 0 4 = leBytes 4 w.toNat := rfl
  rw [u32, hs, leNat_leBytes_word]

/-- The second one. -/
theorem u32_ofWords_four (v w : Word) (ws : List Word) : u32 (ofWords (v :: w :: ws)) 4 = w.toNat := by
  have hs : slice (ofWords (v :: w :: ws)) 4 4 = leBytes 4 w.toNat := rfl
  rw [u32, hs, leNat_leBytes_word]

/-- What follows the second word. -/
theorem drop_ofWords (v w : Word) (ws : List Word) : (ofWords (v :: w :: ws)).drop 8 = ofWords ws := rfl

/-- The words of their own bytes. -/
theorem toWords_ofWords (ws : List Word) : toWords (ofWords ws) = ws := by
  induction ws with
  | nil => rfl
  | cons w ws ih =>
    change wd (leNat (leBytes 4 w.toNat)) :: toWords (ofWords ws) = w :: ws
    rw [leNat_leBytes_word, ih, wd, BitVec.ofNat_toNat, BitVec.setWidth_eq]

/-- Each word has four bytes. -/
theorem length_ofWords (ws : List Word) : (ofWords ws).length = 4 * ws.length := by
  induction ws with
  | nil => rfl
  | cons w ws ih =>
    change (leBytes 4 w.toNat ++ ofWords ws).length = 4 * (ws.length + 1)
    rw [List.length_append, length_leBytes, ih]
    omega

/-! ### A request and its response (R351, R353) -/

/-- A request heads the queue of a port that was empty; its outbound queue is what it was. -/
structure Asked (p : HostPort) (r : HostRequest) (s u : State) : Prop where
  queue : (hostPort p u).queue = r :: (hostPort p s).queue
  out : (hostPort p u).out = (hostPort p s).out

section
variable {p : HostPort} {r : HostRequest} {s t u : State}

/-- The state in which a request has joined its queue. -/
def accepted (p : HostPort) (r : HostRequest) (s : State) : State := modHostPort p (fun x => { x with queue := x.queue ++ [r] }) s

/-- A port without requests then asks. -/
theorem asked_accepted (h : (hostPort p s).queue = []) (r : HostRequest) : Asked p r s (accepted p r s) := by
  have hp : hostPort p (accepted p r s) = { hostPort p s with queue := (hostPort p s).queue ++ [r] } := hostPort_modHostPort_self p _ s
  refine ⟨?_, ?_⟩
  · rw [hp, h]
    rfl
  · rw [hp]

/-- The acceptance changes the port only. -/
theorem accepted_only (p : HostPort) (r : HostRequest) (s : State) : Frame [.host] s (accepted p r s) :=
  modHostPort_host (by exact fun _ => rfl) s

/-- What leaves the host block leaves the request. -/
theorem Asked.of_host (h : Asked p r s t) (hu : u.host = t.host) : Asked p r s u := by
  have hp := hostPort_of_host hu p
  exact ⟨(congrArg HostPortState.queue hp).trans h.queue, (congrArg HostPortState.out hp).trans h.out⟩

/-- So does an event. -/
theorem Asked.raise (h : Asked p r s t) (q : EvReg) (k : Nat) : Asked p r s (raise q k t) := by
  have hp := hostPort_raise p q k t
  exact ⟨((congrArg HostPortState.queue hp).trans (notePort_queue _ _ _)).trans h.queue,
    ((congrArg HostPortState.out hp).trans (notePort_out _ _ _)).trans h.out⟩

/-- So does a change of the port that leaves its queues. -/
theorem Asked.modHostPort (h : Asked p r s t) {f : HostPortState → HostPortState} (hq : (f (hostPort p t)).queue = (hostPort p t).queue)
    (ho : (f (hostPort p t)).out = (hostPort p t).out) : Asked p r s (modHostPort p f t) := by
  have hp := hostPort_modHostPort_self p f t
  exact ⟨((congrArg HostPortState.queue hp).trans hq).trans h.queue, ((congrArg HostPortState.out hp).trans ho).trans h.out⟩

/-- An idle port runs the request that arrives (R353). -/
theorem runRequest_idle (hp : Claim.idlePort p s) {same : HostRequest → Bool} (hs : same r = true)
    (run : HostRequest → State → State) : runRequest p r same run s = run r (accepted p r s) := by
  obtain ⟨ha, hq, hst, hu, ho⟩ := hp
  have hacc : acceptRequest p r s = accepted p r s := acceptRequest_room hu ho r
  have hq' : (hostPort p (accepted p r s)).queue = [r] := (asked_accepted hq r).queue.trans (by rw [hq])
  unfold runRequest
  rw [if_neg (by rw [ha]; exact Bool.false_ne_true), if_neg (by rw [hst]; exact Bool.false_ne_true), hq]
  dsimp only
  rw [hacc, hq']
  exact if_pos hs

/-- A request is the same as itself. -/
theorem sameRequest_self (r : HostRequest) : sameRequest r r = true := by
  rw [sameRequest, beq_self_eq_true, beq_self_eq_true, beq_self_eq_true]
  rfl

/-- A response is queued, and the request has left its queue. -/
theorem answered_respond (h : Asked p r s u) (status : Nat) (payload : List Byte) :
    Claim.answered p r status payload s (respond p r status payload u) := by
  have hq : (hostPort p (modHostPort p (fun x => { x with queue := x.queue.drop 1 }) u)).queue = (hostPort p s).queue := by
    rw [hostPort_modHostPort_self]
    exact congrArg (List.drop 1) h.queue
  cases p with
  | hsp =>
    refine ⟨hq, fun _ => ?_, fun hn => by cases hn⟩
    exact congrArg (· ++ [Claim.reply r status payload]) h.out
  | net =>
    refine ⟨?_, fun hn => (by cases hn), fun _ => ?_⟩
    · exact (queue_of_portRest (portRest_queueFrame .net .net _ _)).trans hq
    · exact congrArg List.head? (store_of_portRest (portRest_queueFrame .net .net _ _))

/-- A response raises no pennant. -/
theorem respond_host (p : HostPort) (r : HostRequest) (status : Nat) (payload : List Byte) (s : State) :
    Frame [.host, .net, .outbox] s (respond p r status payload s) := by
  have hdrop : Frame [.host] s (modHostPort p (fun x => { x with queue := x.queue.drop 1 }) s) :=
    modHostPort_host (by exact fun _ => rfl) s
  cases p with
  | hsp => exact .under (queueFrame_host .hsp _ _) (by simp) (hdrop.mono (by simp))
  | net =>
    refine .under (queueFrame_host .net _ _) (by simp) ?_
    refine .comp (hdrop.mono (by simp)) ?_
    exact (modHostPort_host (by exact fun _ => rfl) _).mono (by simp)

/-- The subscription of a port stands as a response is queued. -/
theorem sub_respond (p q : HostPort) (r : HostRequest) (status : Nat) (payload : List Byte) (s : State) :
    (hostPort q (respond p r status payload s)).sub = (hostPort q s).sub := by
  have hsub {f : HostPortState → HostPortState} (hf : ∀ x, (f x).sub = x.sub) (v : State) :
      (hostPort q (modHostPort p f v)).sub = (hostPort q v).sub := by
    cases p <;> cases q
    · exact hf _
    · rfl
    · rfl
    · exact hf _
  have hr := sub_of_portRest (portRest_queueFrame p q (Claim.reply r status payload)
    (match p with
    | .hsp => modHostPort p (fun x => { x with queue := x.queue.drop 1 }) s
    | .net => modHostPort .net (fun x => { x with store := storeResponse r.tag (Claim.reply r status payload) x.store })
      (modHostPort p (fun x => { x with queue := x.queue.drop 1 }) s)))
  cases p with
  | hsp => exact hr.trans (hsub (by exact fun _ => rfl) s)
  | net => exact hr.trans ((hsub (by exact fun _ => rfl) _).trans (hsub (by exact fun _ => rfl) s))

end

end Sys2Proof.Machine
end

section
/-! PROOFS. READ, WRITE and the board commands (O55; R353, R354, R394). -/

namespace Sys2Proof.Machine

/-! ### One transfer of a host port (R111, R115, R354) -/

section
variable {m : Master} {a n t : Nat} {s u : State}

/-- The state in which a transfer has been granted. -/
def granted (m : Master) (a n : Nat) (s : State) : State :=
  arrive m ((targetOf a).getD 0) 0 (spendCredits m ((targetOf a).getD 0) (beats n) s)

/-- A grant takes time, wakes an island and counts in the mesh. -/
theorem granted_only (m : Master) (a n : Nat) (s : State) : Frame [.mesh, .power, .time] s (granted m a n s) :=
  .under (arrive_only _ _ _ _) (by simp) ((spendCredits_only _ _ _ _).mono (by simp))

/-- The host block stands. -/
theorem host_granted (m : Master) (a n : Nat) (s : State) : (granted m a n s).host = s.host := by
  unfold granted arrive
  split
  · rfl
  · rfl

/-- The access tables stand. -/
theorem codeFor_granted (m k : Master) (a n t : Nat) (s : State) : codeFor (granted m a n s) k t = codeFor s k t := by
  have hm := arrive_mesh m ((targetOf a).getD 0) 0 (spendCredits m ((targetOf a).getD 0) (beats n) s)
  rw [codeFor, codeFor, granted, hm]
  rfl

/-- The rules of a transfer depend on the access tables and the key unit. -/
theorem transferKind_granted (m k : Master) (a b n t x : Nat) (write : Bool) (s : State) :
    transferKind k t b x write (granted m a n s) = transferKind k t b x write s := by
  have hm : (granted m a n s).mesh.accOn = s.mesh.accOn := by
    rw [granted, arrive_mesh]
    rfl
  have hkey : (granted m a n s).key = s.key := granted_only m a n s .key (by simp)
  have hrec : recRec (granted m a n s) = recRec s := recRec_of_key hkey
  have hbar : sramBarred k t b x (granted m a n s) = sramBarred k t b x s := by
    rw [sramBarred, recDec, decSegBase, recNseg, hrec, hasRec_of_key hkey, sramBarred, recDec, decSegBase, recNseg]
  rw [transferKind, codeFor_granted, hm, hbar, transferKind]

/-- The mode stands. -/
theorem modeBars_granted (m k : Master) (a n t : Nat) (write : Bool) (s : State) :
    modeBars k t write (granted m a n s) = modeBars k t write s := by
  have hmode : (granted m a n s).mode = s.mode := granted_only m a n s .mode (by simp)
  have hmd : (granted m a n s).md = s.md := congrArg (fun x : ModeState => x.mode.toNat) hmode
  rw [modeBars, hmd, modeBars]

/-- No mode but M0 bars a read. -/
theorem modeBars_read (hm : s.md ≠ 0) (m : Master) (t : Nat) : modeBars m t false s = false := by
  rw [modeBars, beq_eq_false_iff_ne.mpr hm, Bool.false_and, Bool.or_false, Bool.and_false]

/-- A word of shared SRAM. -/
theorem shapeOk_word (h4 : a % 4 = 0) (lo : 0x1000000 ≤ a) (hi : a + 4 ≤ 0x1800000) : shapeOk 16 a 4 = true := by
  have ht : targetOf (a + 3) = some 16 := targetOf_shared (by omega) (by omega)
  have hal : aligned a 4 = true := by
    have h2 : a % 2 = 0 := by omega
    simp [aligned, h2, h4]
  simp [shapeOk, ht, sramTarget, hal]

/-- A target that does not exist answers with a bus error. -/
theorem hostAccess_nowhere (ht : targetOf a = none) (m : Master) (n : Nat) (data : Option (List Byte)) (s : State) :
    hostAccess m a n data s = (.busErr, s) := by
  rw [hostAccess, checkAccess, ht]

/-- A transfer that the mode bars. -/
theorem hostAccess_byMode {data : Option (List Byte)} (ht : targetOf a = some t) (hb : modeBars m t data.isSome s = true) :
    hostAccess m a n data s = (.byMode, raise .mode 2 s) := by
  rw [hostAccess, checkAccess, ht]
  dsimp only
  rw [if_pos hb]

/-- A transfer that the tables refuse. -/
theorem hostAccess_refused {data : Option (List Byte)} (ht : targetOf a = some t) (hb : modeBars m t data.isSome s = false)
    (hk : transferKind m t a n data.isSome s ≠ 0) :
    hostAccess m a n data s = (.refused, logViolation m t (wd a) data.isSome (transferKind m t a n data.isSome s) s) := by
  rw [hostAccess, checkAccess_refused ht hb hk]

/-- A read of a word of shared SRAM. -/
theorem hostAccess_read (h4 : a % 4 = 0) (lo : 0x1000000 ≤ a) (hi : a + 4 ≤ 0x1800000) (hb : modeBars m 16 false s = false)
    (hk : transferKind m 16 a 4 false s = 0) : hostAccess m a 4 none s = (.done (sharedBytes a 4 s), granted m a 4 s) := by
  have ht : targetOf a = some 16 := targetOf_shared lo (by omega)
  have hc : checkAccess m a 4 (none : Option (List Byte)).isSome s = (none, s) :=
    checkAccess_pass ht hb hk (shapeOk_word h4 lo hi)
  have hs : (granted m a 4 s).sram = s.sram := granted_only m a 4 s .sram (by simp)
  rw [hostAccess, hc]
  change perform m a 4 none (granted m a 4 s) = _
  simp [perform, ht, sramTarget, readSram, sharedBytes, hs]

/-- A write of one. -/
theorem hostAccess_write (h4 : a % 4 = 0) (lo : 0x1000000 ≤ a) (hi : a + 4 ≤ 0x1800000) (hb : modeBars m 16 true s = false)
    (hk : transferKind m 16 a 4 true s = 0) (bs : List Byte) :
    hostAccess m a 4 (some bs) s = (.done [], sharedWrite a bs (granted m a 4 s)) := by
  have ht : targetOf a = some 16 := targetOf_shared lo (by omega)
  have hc : checkAccess m a 4 (some bs).isSome s = (none, s) := checkAccess_pass ht hb hk (shapeOk_word h4 lo hi)
  rw [hostAccess, hc]
  exact perform_shared ht m 4 bs (granted m a 4 s)

end

/-! ### Words read one after another (R354) -/

/-- What a range leaves out below its place does not matter to what follows. -/
theorem sparseRange_succ {α : Type} (d : α) (m : List (Nat × α)) (k n : Nat) :
    sparseRange d m k (n + 1) = sparseRange d m k 1 ++ sparseRange d m (k + 1) n := by
  have hdrop (k : Nat) : (m.dropWhile fun e => decide (e.1 < k)).dropWhile (fun e => decide (e.1 < k + 1)) =
      m.dropWhile fun e => decide (e.1 < k + 1) := by
    induction m with
    | nil => rfl
    | cons e m ih =>
      by_cases he : e.1 < k
      · have he' : e.1 < k + 1 := Nat.lt_succ_of_lt he
        simp only [List.dropWhile_cons, he, he', decide_true, if_true]
        exact ih
      · simp only [List.dropWhile_cons, he, decide_false, Bool.false_eq_true, if_false]
  have hrange : sparseRange d (m.dropWhile fun e => decide (e.1 < k)) (k + 1) n = sparseRange d m (k + 1) n := by
    cases n with
    | zero => rfl
    | succ n => rw [sparseRange, hdrop, ← sparseRange]
  exact congrArg (List.cons _) hrange

/-- A range is its front and what follows it. -/
theorem sparseRange_append {α : Type} (d : α) (m : List (Nat × α)) (k i j : Nat) :
    sparseRange d m k (i + j) = sparseRange d m k i ++ sparseRange d m (k + i) j := by
  induction i generalizing k with
  | zero =>
    rw [Nat.zero_add]
    rfl
  | succ i ih =>
    rw [Nat.add_right_comm, sparseRange_succ, ih, ← List.append_assoc, ← sparseRange_succ, Nat.add_assoc, Nat.add_comm 1 i]

section
variable {p : HostPort} {r : HostRequest} {s u v : State}

/-- Masters of the host ports. -/
theorem transferKind_read {m : Master} (h : codeFor s m 16 = 1 ∨ codeFor s m 16 = 3) (a n : Nat) :
    transferKind m 16 a n false s = 0 := by
  rcases h with h | h
  · simp [transferKind, h, violation, sramTarget]
  · simp [transferKind, h, violation, sramTarget]

/-- A READ of shared SRAM answers with its bytes. -/
theorem hostRead_shared (n : Nat) (a : Nat) (got : List Byte) (hm : v.md ≠ 0) (h4 : a % 4 = 0) (lo : 0x1000000 ≤ a)
    (hi : a + 4 * n ≤ 0x1800000) (hc : codeFor v (portMaster p) 16 = 1 ∨ codeFor v (portMaster p) 16 = 3) :
    ∃ w, hostRead p r n a got v = respond p r 0 (got ++ sharedBytes a (4 * n) v) w ∧ w.host = v.host ∧
      Frame [.mesh, .power, .time] v w := by
  induction n generalizing a got v with
  | zero => exact ⟨v, by rw [hostRead, Nat.mul_zero, sharedBytes, sparseRange, List.append_nil], rfl, Frame.refl _ _⟩
  | succ n ih =>
    have hmod : a % 2 ^ 32 = a := Nat.mod_eq_of_lt (by omega)
    have hacc := hostAccess_read h4 lo (by omega) (modeBars_read hm (portMaster p) 16) (transferKind_read hc a 4)
    have hf := granted_only (portMaster p) a 4 v
    have hmode : (granted (portMaster p) a 4 v).mode = v.mode := hf .mode (by simp)
    have hsram : (granted (portMaster p) a 4 v).sram = v.sram := hf .sram (by simp)
    have hmd : (granted (portMaster p) a 4 v).md ≠ 0 := by
      rw [State.md, hmode]
      exact hm
    obtain ⟨w, he, hh, hw⟩ := ih (v := granted (portMaster p) a 4 v) (a + 4) (got ++ sharedBytes a 4 v) hmd (by omega) (by omega)
      (by omega) (by rw [codeFor_granted]; exact hc)
    refine ⟨w, ?_, hh.trans (host_granted _ _ _ _), hf.comp hw⟩
    rw [hostRead, hmod, hacc]
    refine he.trans ?_
    rw [List.append_assoc, sharedBytes, sharedBytes, sharedBytes, hsram, ← sparseRange_append, Nat.mul_succ, Nat.add_comm 4]

/-- A WRITE of shared SRAM writes its words. -/
theorem hostWrite_shared (ws : List Word) (a c : Nat) (h4 : a % 4 = 0) (lo : 0x1000000 ≤ a)
    (hi : a + 4 * ws.length ≤ 0x1800000) (hb : modeBars (portMaster p) 16 true v = false)
    (hk : ∀ k, k < ws.length → transferKind (portMaster p) 16 (a + 4 * k) 4 true v = 0) :
    ∃ w, hostWrite p r a c ws v = respond p r 0 (leBytes 4 (c + ws.length)) w ∧ w.host = v.host ∧
      w.sram = sparsePutAll 0 v.sram a (ofWords ws) ∧ Frame [.mesh, .sram, .power, .time] v w := by
  induction ws generalizing a c v with
  | nil => exact ⟨v, rfl, rfl, rfl, Frame.refl _ _⟩
  | cons x ws ih =>
    rw [List.length_cons] at hi
    have hmod : a % 2 ^ 32 = a := Nat.mod_eq_of_lt (by omega)
    have hacc := hostAccess_write h4 lo (by omega) hb (hk 0 (Nat.succ_pos _)) (leBytes 4 x.toNat)
    have hf := granted_only (portMaster p) a 4 v
    have hsram : (granted (portMaster p) a 4 v).sram = v.sram := hf .sram (by simp)
    obtain ⟨w, he, hh, hws, hw⟩ := ih (v := sharedWrite a (leBytes 4 x.toNat) (granted (portMaster p) a 4 v)) (a + 4) (c + 1)
      (by omega) (by omega) (by omega) ((modeBars_granted _ _ _ _ _ _ _).trans hb) fun k hlt => by
        refine (transferKind_granted (portMaster p) (portMaster p) a (a + 4 + 4 * k) 4 16 4 true v).trans ?_
        rw [Nat.add_assoc, ← Nat.mul_one 4, Nat.mul_assoc, Nat.one_mul, ← Nat.mul_add, Nat.add_comm 1 k]
        exact hk (k + 1) (Nat.succ_lt_succ hlt)
    refine ⟨w, ?_, hh.trans (host_granted _ _ _ _), ?_, ?_⟩
    · rw [hostWrite, hmod, hacc]
      refine he.trans ?_
      rw [List.length_cons, Nat.add_right_comm, Nat.add_assoc]
    · rw [hws]
      change sparsePutAll 0 (sparsePutAll 0 (granted (portMaster p) a 4 v).sram a (leBytes 4 x.toNat)) (a + 4) (ofWords ws) = _
      rw [hsram]
      exact (sparsePutAll_append 0 v.sram a (leBytes 4 x.toNat) (ofWords ws)).symm
    · refine .comp (hf.mono (by simp)) (.comp ((sharedWrite_only _ _ _).mono (by simp)) hw)

end

end Sys2Proof.Machine
end

section
/-! PROOFS. The commands of the host ports are answered (O55; R353, R354, R394). -/

namespace Sys2Proof.Machine

section
variable {p : HostPort} {r : HostRequest} {s u : State} {status : Nat} {payload : List Byte}

/-- A request that only answers. -/
theorem answered_at_once (hp : Claim.idlePort p s) (r : HostRequest) (status : Nat) (payload : List Byte) :
    Claim.answered p r status payload s (respond p r status payload (accepted p r s)) ∧
      Frame [.host, .net, .outbox] s (respond p r status payload (accepted p r s)) :=
  ⟨answered_respond (asked_accepted hp.2.1 r) status payload,
    .comp ((accepted_only p r s).mono (by simp)) (respond_host p r status payload _)⟩

/-- A request that raises an event, and answers. -/
theorem answered_after_raise (hp : Claim.idlePort p s) (r : HostRequest) (status : Nat) (payload : List Byte) (q : EvReg) {k : Nat}
    (hk : k < 32) :
    Claim.answered p r status payload s (respond p r status payload (raise q k (accepted p r s))) ∧
      Latched q k (respond p r status payload (raise q k (accepted p r s))) ∧
      Frame [.host, .net, .outbox, .events, .board] s (respond p r status payload (raise q k (accepted p r s))) := by
  refine ⟨answered_respond ((asked_accepted hp.2.1 r).raise q k) status payload, ?_, ?_⟩
  · exact (respond_host p r status payload _).eventsKept (by simp) q k (latched_raise q k _ hk)
  · refine .comp ((accepted_only p r s).mono (by simp)) (.comp ((raise_only q k _).mono (by simp)) ?_)
    exact (respond_host p r status payload _).mono (by simp)

/-- A port that works is not in M0 (R79). -/
theorem md_of_alive (h : portAlive p s = true) : s.md ≠ 0 := by
  rintro h0
  have hne : (s.md != 0) = true := (Bool.and_eq_true _ _ ▸ h : (s.md != 0) = true ∧ _).1
  exact bne_iff_ne.mp hne h0

/-! ### READ (R353, R354) -/

/-- The request of a READ. -/
def readRequest (tag : Half) (a n : Word) : HostRequest := { tag := tag, cmd := 0x01, payload := ofWords [a, n] }

/-- A READ on an idle port. -/
theorem execRead_idle (hp : Claim.idlePort p s) (tag : Half) (a n : Word) :
    exec (.read p tag a n) s = .next (readCmd p (readRequest tag a n) (accepted p (readRequest tag a n) s)) :=
  congrArg Host.Outcome.next (runRequest_idle hp (sameRequest_self (readRequest tag a n)) (readCmd p))

/-- A length that no READ has. -/
theorem readCmd_badLength {n : Word} (h : n = 0 ∨ 255 < n.toNat) (tag : Half) (a : Word) (v : State) :
    readCmd p (readRequest tag a n) v = respond p (readRequest tag a n) 3 [] v := by
  refine if_pos ?_
  rw [readRequest, u32_ofWords_four, Bool.or_eq_true, decide_eq_true_iff, decide_eq_true_iff]
  rcases h with rfl | h
  · exact .inl rfl
  · exact .inr h

/-- A READ of N words reads the first one. -/
theorem readCmd_words {n : Word} (h0 : 0 < n.toNat) (h : n.toNat ≤ 255) (tag : Half) (a : Word) (v : State) :
    readCmd p (readRequest tag a n) v = hostRead p (readRequest tag a n) n.toNat a.toNat [] v := by
  have hg : ¬ (decide (u32 (readRequest tag a n).payload 4 = 0) || decide (255 < u32 (readRequest tag a n).payload 4)) = true := by
    rw [readRequest, u32_ofWords_four, Bool.or_eq_true, decide_eq_true_iff, decide_eq_true_iff]
    omega
  have hn : u32 (readRequest tag a n).payload 4 = n.toNat := u32_ofWords_four a n []
  have ha : u32 (readRequest tag a n).payload 0 = a.toNat := u32_ofWords_zero a [n]
  rw [readCmd]
  exact (if_neg hg).trans (by rw [hn, ha])

/-- A READ whose first word meets something else than a lock stops there. -/
theorem hostRead_stops {n : Nat} (h0 : 0 < n) {a : Nat} (ha : a < 2 ^ 32) {e : Access} {w : State}
    (he : hostAccess (portMaster p) a 4 none u = (e, w)) (hd : e = .busErr ∨ e = .refused) :
    hostRead p r n a [] u = respond p r (statusOf e) [] w := by
  obtain ⟨k, rfl⟩ : ∃ k, n = k + 1 := ⟨n - 1, by omega⟩
  rw [hostRead, Nat.mod_eq_of_lt ha, he]
  rcases hd with rfl | rfl
  · rfl
  · rfl

/-! ### WRITE (R353, R354) -/

/-- The request of a WRITE. -/
def writeRequest (tag : Half) (a : Word) (ws : List Word) : HostRequest :=
  { tag := tag, cmd := 0x02, payload := ofWords (a :: wd ws.length :: ws) }

/-- A WRITE on an idle port. -/
theorem execWrite_idle (hp : Claim.idlePort p s) (tag : Half) (a : Word) (ws : List Word) :
    exec (.write p tag a ws) s = .next (writeCmd p (writeRequest tag a ws) (accepted p (writeRequest tag a ws) s)) :=
  congrArg Host.Outcome.next (runRequest_idle hp (sameRequest_self (writeRequest tag a ws)) (writeCmd p))

/-- The words that a WRITE counts. -/
theorem writeRequest_count {ws : List Word} (h : ws.length < 1024) (tag : Half) (a : Word) :
    u32 (writeRequest tag a ws).payload 4 = ws.length := by
  rw [writeRequest, u32_ofWords_four, wd, BitVec.toNat_ofNat]
  exact Nat.mod_eq_of_lt (by omega)

/-- A length that no WRITE has. -/
theorem writeCmd_badLength {ws : List Word} (h : ws = [] ∨ (254 < ws.length ∧ ws.length < 1024)) (tag : Half) (a : Word) (v : State) :
    writeCmd p (writeRequest tag a ws) v = respond p (writeRequest tag a ws) 3 [] v := by
  have hlt : ws.length < 1024 := by
    rcases h with rfl | h
    · decide
    · exact h.2
  refine if_pos ?_
  rw [writeRequest_count hlt, Bool.or_eq_true, decide_eq_true_iff, decide_eq_true_iff]
  rcases h with rfl | h
  · exact .inl rfl
  · exact .inr h.1

/-- A WRITE of N words writes them from the first on. -/
theorem writeCmd_words {ws : List Word} (h0 : 0 < ws.length) (h : ws.length ≤ 254) (tag : Half) (a : Word) (v : State) :
    writeCmd p (writeRequest tag a ws) v = hostWrite p (writeRequest tag a ws) a.toNat 0 ws v := by
  have hg : ¬ (decide (u32 (writeRequest tag a ws).payload 4 = 0) || decide (254 < u32 (writeRequest tag a ws).payload 4)) = true := by
    rw [writeRequest_count (by omega), Bool.or_eq_true, decide_eq_true_iff, decide_eq_true_iff]
    omega
  have ha : u32 (writeRequest tag a ws).payload 0 = a.toNat := u32_ofWords_zero a _
  have hw : toWords ((writeRequest tag a ws).payload.drop 8) = ws := toWords_ofWords ws
  rw [writeCmd]
  exact (if_neg hg).trans (by rw [ha, hw])

/-- A WRITE whose first word the mode bars stops there. -/
theorem hostWrite_byMode {ws : List Word} (h0 : 0 < ws.length) {a t : Nat} (ha : a < 2 ^ 32) (ht : targetOf a = some t)
    (hb : modeBars (portMaster p) t true u = true) (c : Nat) :
    hostWrite p r a c ws u = respond p r 5 (leBytes 4 c) (raise .mode 2 u) := by
  obtain ⟨x, ws', rfl⟩ := List.exists_cons_of_length_pos h0
  have he : hostAccess (portMaster p) a 4 (some (leBytes 4 x.toNat)) u = (.byMode, raise .mode 2 u) := hostAccess_byMode ht hb
  rw [hostWrite, Nat.mod_eq_of_lt ha, he]
  rfl

/-! ### The board (R353, R355, R394) -/

/-- Outside M2 a command of the board runs. -/
theorem boardCmd_runs (hm : u.md ≠ 2) (h : HostRequest) (f : State → State) : boardCmd p h f u = respond p h 0 [] (f u) := if_neg hm

/-- In M2 it is refused. -/
theorem boardCmd_barred (hm : u.md = 2) (h : HostRequest) (f : State → State) :
    boardCmd p h f u = respond p h 5 [] (raise .mode 2 u) := if_pos hm

/-- The mode as a request is accepted. -/
theorem md_accepted (p : HostPort) (r : HostRequest) (s : State) : (accepted p r s).md = s.md := by cases p <;> rfl

/-- The pennants stand as a response is queued. -/
theorem raised_respond (p : HostPort) (r : HostRequest) (status : Nat) (payload : List Byte) (s : State) :
    (respond p r status payload s).host.raised = s.host.raised := (respond_host p r status payload s .board (by simp)).1

/-- The subscriptions stand as a request is accepted. -/
theorem sub_accepted (p q : HostPort) (r : HostRequest) (s : State) : (hostPort q (accepted p r s)).sub = (hostPort q s).sub := by
  cases p <;> cases q <;> rfl

/-- A subscription of one port. -/
theorem sub_subscribe_self (p : HostPort) (h : HostRequest) (mask : BitVec 256) (v : State) :
    (hostPort p (subscribe p h mask v)).sub = mask := congrArg HostPortState.sub (hostPort_modHostPort_self p _ v)

/-- It leaves the other. -/
theorem sub_subscribe_other {p q : HostPort} (hq : q ≠ p) (h : HostRequest) (mask : BitVec 256) (v : State) :
    (hostPort q (subscribe p h mask v)).sub = (hostPort q v).sub := congrArg HostPortState.sub (hostPort_modHostPort_other hq _ v)

/-- A request of the board's write commands. -/
def maskRequest (tag : Half) (cmd : Byte) (mask : BitVec 256) : HostRequest :=
  { tag := tag, cmd := cmd, payload := leBytes 32 mask.toNat }

/-- The pennants of a mask are cleared. -/
def cleared (mask : BitVec 256) (v : State) : State := modHost (fun x => { x with raised := x.raised &&& ~~~mask }) v

/-- PNT_CLEAR on an idle port. -/
theorem execPntClear_idle (hp : Claim.idlePort p s) (tag : Half) (mask : BitVec 256) :
    exec (.pntClear p tag mask) s =
      .next (boardCmd p (maskRequest tag 0x11 mask) (cleared mask) (accepted p (maskRequest tag 0x11 mask) s)) :=
  congrArg Host.Outcome.next (runRequest_idle hp (sameRequest_self (maskRequest tag 0x11 mask)) fun h => boardCmd p h (cleared mask))

/-- SUBSCRIBE on an idle port. -/
theorem execSubscribe_idle (hp : Claim.idlePort p s) (tag : Half) (mask : BitVec 256) :
    exec (.subscribe p tag mask) s = .next (boardCmd p (maskRequest tag 0x12 mask) (subscribe p (maskRequest tag 0x12 mask) mask)
      (accepted p (maskRequest tag 0x12 mask) s)) :=
  congrArg Host.Outcome.next (runRequest_idle hp (sameRequest_self (maskRequest tag 0x12 mask)) fun h =>
    boardCmd p h (subscribe p h mask))

/-- PNT_CLEAR outside M2. -/
theorem pntClear_runs (hp : Claim.idlePort p s) (tag : Half) (mask : BitVec 256) :
    let t := respond p (maskRequest tag 0x11 mask) 0 [] (cleared mask (accepted p (maskRequest tag 0x11 mask) s))
    t.host.raised = s.host.raised &&& ~~~mask ∧ t.events = s.events ∧
      Claim.answered p (maskRequest tag 0x11 mask) 0 [] s t := by
  have hask := asked_accepted hp.2.1 (maskRequest tag 0x11 mask)
  have hport : hostPort p (cleared mask (accepted p (maskRequest tag 0x11 mask) s)) =
      hostPort p (accepted p (maskRequest tag 0x11 mask) s) := by cases p <;> rfl
  refine ⟨?_, ?_, answered_respond ⟨?_, ?_⟩ 0 []⟩
  · rw [raised_respond]
    cases p <;> rfl
  · rw [respond_host _ _ _ _ _ .events (by simp)]
    cases p <;> rfl
  · rw [hport]
    exact hask.queue
  · rw [hport]
    exact hask.out

/-- SUBSCRIBE outside M2. -/
theorem subscribe_runs (hp : Claim.idlePort p s) (tag : Half) (mask : BitVec 256) :
    let t := respond p (maskRequest tag 0x12 mask) 0 []
      (subscribe p (maskRequest tag 0x12 mask) mask (accepted p (maskRequest tag 0x12 mask) s))
    (hostPort p t).sub = mask ∧ (∀ q, q ≠ p → (hostPort q t).sub = (hostPort q s).sub) ∧
      Claim.answered p (maskRequest tag 0x12 mask) 0 [] s t ∧ Frame [.host, .net, .outbox] s t := by
  refine ⟨?_, fun q hq => ?_, answered_respond ((asked_accepted hp.2.1 _).modHostPort rfl rfl) 0 [], ?_⟩
  · rw [sub_respond, sub_subscribe_self]
  · rw [sub_respond, sub_subscribe_other hq, sub_accepted]
  · refine .comp ((accepted_only p (maskRequest tag 0x12 mask) s).mono (by simp)) (.comp ?_ (respond_host p (maskRequest tag 0x12 mask) 0 [] _))
    exact (modHostPort_host (by exact fun _ => rfl) _).mono (by simp)

/-- A request that no command has is malformed. -/
theorem malformed_unknown (tag : Half) {cmd : Byte} (h : cmd ≠ 0x10) : malformed { tag := tag, cmd := cmd } = true := by
  have hn : cmd.toNat ≠ 0x10 := fun he => h (BitVec.eq_of_toNat_eq he)
  unfold malformed
  dsimp only
  split
  · rfl
  · rfl
  · contradiction
  · rfl
  · rfl
  · rfl
  · rfl
  · rfl
  · rfl

end

/-- READ, its refusals and its answer. -/
theorem read_answered {p : HostPort} {s : State} (hp : Claim.idlePort p s) (tag : Half) (a n : Word) :
    (n = 0 ∨ 255 < n.toNat → ∃ t, exec (.read p tag a n) s = .next t ∧ Claim.answered p (readRequest tag a n) 3 [] s t ∧
      Frame [.host, .net, .outbox] s t) ∧
    (0 < n.toNat → n.toNat ≤ 255 →
      (targetOf a.toNat = none → ∃ t, exec (.read p tag a n) s = .next t ∧ Claim.answered p (readRequest tag a n) 11 [] s t) ∧
      (∀ tg : Nat, targetOf a.toNat = some tg → transferKind (portMaster p) tg a.toNat 4 false s ≠ 0 → ∃ t,
        exec (.read p tag a n) s = .next t ∧ Claim.answered p (readRequest tag a n) 4 [] s t ∧ Latched .acc 0 t ∧
        t.mesh.vcount = satInc s.mesh.vcount ∧ Frame [.host, .net, .outbox, .mesh, .events, .board] s t) ∧
      (a.toNat % 4 = 0 → 0x1000000 ≤ a.toNat → a.toNat + 4 * n.toNat ≤ 0x1800000 →
        codeFor s (portMaster p) 16 = 1 ∨ codeFor s (portMaster p) 16 = 3 → ∃ t,
        exec (.read p tag a n) s = .next t ∧
        Claim.answered p (readRequest tag a n) 0 (sharedBytes a.toNat (4 * n.toNat) s) s t ∧
        Frame [.host, .net, .outbox, .mesh, .power, .time] s t)) := by
  have hask := asked_accepted hp.2.1 (readRequest tag a n)
  have hf := accepted_only p (readRequest tag a n) s
  have hmd : (accepted p (readRequest tag a n) s).md ≠ 0 := by
    rw [md_accepted]
    exact md_of_alive hp.1
  refine ⟨fun h => ?_, fun h0 h => ⟨fun ht => ?_, fun tg ht hk => ?_, fun h4 lo hi hc => ?_⟩⟩
  · exact ⟨_, (execRead_idle hp tag a n).trans (congrArg _ (readCmd_badLength h tag a _)), answered_at_once hp _ 3 []⟩
  · have he := (readCmd_words (p := p) h0 h tag a (accepted p (readRequest tag a n) s)).trans
      (hostRead_stops h0 a.isLt (hostAccess_nowhere ht _ 4 none _) (.inl rfl))
    exact ⟨_, (execRead_idle hp tag a n).trans (congrArg _ he), answered_respond hask 11 []⟩
  · have hkind : transferKind (portMaster p) tg a.toNat 4 false (accepted p (readRequest tag a n) s) =
        transferKind (portMaster p) tg a.toNat 4 false s := by cases p <;> rfl
    have he := (readCmd_words (p := p) h0 h tag a (accepted p (readRequest tag a n) s)).trans
      (hostRead_stops h0 a.isLt (hostAccess_refused ht (modeBars_read hmd _ tg) (by rw [← hkind] at hk; exact hk)) (.inr rfl))
    refine ⟨_, (execRead_idle hp tag a n).trans (congrArg _ he), answered_respond ?_ 4 [], ?_, ?_, ?_⟩
    · exact (hask.of_host (u := modMesh _ (accepted p (readRequest tag a n) s)) rfl).raise .acc 0
    · exact (respond_host _ _ _ _ _).eventsKept (by simp) .acc 0 (latched_raise _ 0 _ (by decide))
    · rw [respond_host _ _ _ _ _ .mesh (by simp)]
      cases p <;> rfl
    · refine .under (respond_host _ _ _ _ _) (by simp) (.under (logViolation_only _ _ _ _ _ _) (by simp) ?_)
      exact hf.mono (by simp)
  · have hcode : codeFor (accepted p (readRequest tag a n) s) (portMaster p) 16 = codeFor s (portMaster p) 16 := by cases p <;> rfl
    have hsram : sharedBytes a.toNat (4 * n.toNat) (accepted p (readRequest tag a n) s) = sharedBytes a.toNat (4 * n.toNat) s := by
      cases p <;> rfl
    obtain ⟨w, he, hh, hw⟩ := hostRead_shared (p := p) (r := readRequest tag a n) n.toNat a.toNat [] hmd h4 lo hi (by rw [hcode]; exact hc)
    rw [List.nil_append, hsram] at he
    refine ⟨_, (execRead_idle hp tag a n).trans (congrArg _ ((readCmd_words h0 h tag a _).trans he)), ?_, ?_⟩
    · exact answered_respond (hask.of_host hh) 0 _
    · exact .comp (hf.mono (by simp)) (.comp (hw.mono (by simp)) ((respond_host _ _ _ _ _).mono (by simp)))

/-- WRITE, its refusals and its answer. -/
theorem write_answered {p : HostPort} {s : State} (hp : Claim.idlePort p s) (tag : Half) (a : Word) (ws : List Word) :
    (ws = [] ∨ (254 < ws.length ∧ ws.length < 1024) → ∃ t, exec (.write p tag a ws) s = .next t ∧
      Claim.answered p (writeRequest tag a ws) 3 [] s t ∧ Frame [.host, .net, .outbox] s t) ∧
    (0 < ws.length → ws.length ≤ 254 →
      (∀ tg : Nat, targetOf a.toNat = some tg → modeBars (portMaster p) tg true s = true → ∃ t,
        exec (.write p tag a ws) s = .next t ∧ Claim.answered p (writeRequest tag a ws) 5 (leBytes 4 0) s t ∧ Latched .mode 2 t ∧
        Frame [.host, .net, .outbox, .events, .board] s t) ∧
      (a.toNat % 4 = 0 → 0x1000000 ≤ a.toNat → a.toNat + 4 * ws.length ≤ 0x1800000 →
        modeBars (portMaster p) 16 true s = false →
        (∀ k, k < ws.length → transferKind (portMaster p) 16 (a.toNat + 4 * k) 4 true s = 0) → ∃ t,
        exec (.write p tag a ws) s = .next t ∧ Claim.answered p (writeRequest tag a ws) 0 (leBytes 4 ws.length) s t ∧
        t.sram = sparsePutAll 0 s.sram a.toNat (ofWords ws) ∧
        (∀ x : Nat, x < a.toNat ∨ a.toNat + 4 * ws.length ≤ x → sparseGet 0 t.sram x = sparseGet 0 s.sram x) ∧
        Frame [.host, .net, .outbox, .mesh, .sram, .power, .time] s t)) := by
  have hask := asked_accepted hp.2.1 (writeRequest tag a ws)
  have hf := accepted_only p (writeRequest tag a ws) s
  have hbars (tg : Nat) : modeBars (portMaster p) tg true (accepted p (writeRequest tag a ws) s) =
      modeBars (portMaster p) tg true s := by cases p <;> rfl
  refine ⟨fun h => ?_, fun h0 h => ⟨fun tg ht hb => ?_, fun h4 lo hi hb hk => ?_⟩⟩
  · exact ⟨_, (execWrite_idle hp tag a ws).trans (congrArg _ (writeCmd_badLength h tag a _)), answered_at_once hp _ 3 []⟩
  · have he := (writeCmd_words (p := p) h0 h tag a (accepted p (writeRequest tag a ws) s)).trans
      (hostWrite_byMode h0 a.isLt ht ((hbars tg).trans hb) 0)
    exact ⟨_, (execWrite_idle hp tag a ws).trans (congrArg _ he), answered_after_raise hp _ 5 (leBytes 4 0) .mode (by decide)⟩
  · have hkind (k : Nat) : transferKind (portMaster p) 16 (a.toNat + 4 * k) 4 true (accepted p (writeRequest tag a ws) s) =
        transferKind (portMaster p) 16 (a.toNat + 4 * k) 4 true s := by cases p <;> rfl
    obtain ⟨w, he, hh, hsram, hw⟩ := hostWrite_shared (p := p) (r := writeRequest tag a ws) ws a.toNat 0 h4 lo hi ((hbars 16).trans hb)
      fun k hlt => (hkind k).trans (hk k hlt)
    rw [Nat.zero_add] at he
    have ht : (respond p (writeRequest tag a ws) 0 (leBytes 4 ws.length) w).sram = sparsePutAll 0 s.sram a.toNat (ofWords ws) := by
      rw [respond_host _ _ _ _ _ .sram (by simp), hsram, hf .sram (by simp)]
    refine ⟨_, (execWrite_idle hp tag a ws).trans (congrArg _ ((writeCmd_words h0 h tag a _).trans he)),
      answered_respond (hask.of_host hh) 0 _, ht, fun x hx => ?_, ?_⟩
    · rw [ht]
      exact sparseGet_putAll_other 0 s.sram a.toNat x (ofWords ws) (by rw [length_ofWords]; exact hx)
    · exact .comp (hf.mono (by simp)) (.comp (hw.mono (by simp)) ((respond_host _ _ _ _ _).mono (by simp)))

/-- Settles O55: an idle port runs a request at once and answers it. -/
theorem portCommandsAreAnswered : Obligations.PortCommandsAreAnswered := by
  intro s p tag hp
  refine ⟨fun a n r hr => ?_, fun a ws r hr => ?_, ?_, fun mask => ?_, fun cmd hc => ?_⟩
  · subst hr
    exact read_answered hp tag a n
  · subst hr
    exact write_answered hp tag a ws
  · have he : exec (.pntGet p tag) s = .next (respond p { tag := tag, cmd := 0x10 } 0
        (leBytes 32 (accepted p { tag := tag, cmd := 0x10 } s).host.raised.toNat) (accepted p { tag := tag, cmd := 0x10 } s)) :=
      congrArg Host.Outcome.next (runRequest_idle hp (sameRequest_self { tag := tag, cmd := 0x10 }) _)
    have hraised : (accepted p { tag := tag, cmd := 0x10 } s).host.raised = s.host.raised := by cases p <;> rfl
    rw [hraised] at he
    exact ⟨_, he, answered_at_once hp _ 0 _⟩
  · have hclear := execPntClear_idle hp tag mask
    have hsubscribe := execSubscribe_idle hp tag mask
    by_cases hm : s.md = 2
    · rw [boardCmd_barred ((md_accepted _ _ _).trans hm)] at hclear hsubscribe
      obtain ⟨hta, htl, -⟩ := answered_after_raise hp (maskRequest tag 0x11 mask) 5 [] .mode (k := 2) (by decide)
      obtain ⟨hua, hul, -⟩ := answered_after_raise hp (maskRequest tag 0x12 mask) 5 [] .mode (k := 2) (by decide)
      refine ⟨_, hclear, _, hsubscribe, fun hn => absurd hm hn, fun _ => ⟨htl, hul, ?_, hta, hua⟩⟩
      rw [sub_respond, hostPort_raise, notePort_sub, sub_accepted]
    · rw [boardCmd_runs (by rw [md_accepted]; exact hm)] at hclear hsubscribe
      obtain ⟨hraised, hevents, hta⟩ := pntClear_runs hp tag mask
      obtain ⟨hsub, hother, hua, hframe⟩ := subscribe_runs hp tag mask
      exact ⟨_, hclear, _, hsubscribe, fun _ => ⟨hraised, hevents, hta, hsub, hother, hua, hframe⟩, fun h2 => absurd h2 hm⟩
  · have hs : (fun h : HostRequest => h.tag == tag && h.cmd == cmd && malformed h) { tag := tag, cmd := cmd } = true := by
      show (tag == tag && cmd == cmd && malformed { tag := tag, cmd := cmd }) = true
      rw [malformed_unknown tag hc, beq_self_eq_true, beq_self_eq_true]
      rfl
    exact ⟨_, congrArg Host.Outcome.next (runRequest_idle hp hs _), answered_at_once hp _ 3 []⟩

end Sys2Proof.Machine
end

section
/-! PROOFS. An OPSTART in M2 (O56; R357, R394; log entry 50): the mode is judged before the mailbox number, so a mailbox that does
not exist is answered with STATUS 5 there, and not with 3. -/

namespace Sys2Proof.Machine

/-- A module in M2 whose ports are idle. -/
def brownIdle : State := { State.reset with mode := { State.reset.mode with mode := 2 } }

/-- HSP works there, and a response has its place. -/
theorem brownIdle_idlePort : Claim.idlePort .hsp brownIdle := ⟨rfl, rfl, rfl, by decide, rfl⟩

/-- The status byte of a frame (R352). -/
theorem frameBytes_status (kind tag cmd status : Nat) (payload : List Byte) :
    (frameBytes kind tag cmd status payload)[7]? = some (BitVec.ofNat 8 status) := rfl

/-- Responses of different status are different. -/
theorem reply_status_inj {r : HostRequest} {m n : Nat} {xs ys : List Byte} (h : Claim.reply r m xs = Claim.reply r n ys) :
    BitVec.ofNat 8 m = BitVec.ofNat 8 n := by
  have hb := congrArg (fun f : HostFrame => f.bytes[7]?) h
  exact Option.some.inj hb

/-- An OPSTART that the mode bars is refused with STATUS 5, whatever its mailbox. -/
theorem opStart_barred {p : HostPort} {h : HostRequest} {s : State} (hb : opBarred (u8 h.payload 1) s = true) :
    opStart p h s = respond p h 5 [] (raise .mode 2 s) := if_pos hb

/-- COPY into mailbox 16. -/
def copyRequest : HostRequest := opRequest 0 16 1 false (0, 0, 0, 0)

/-- In M2 it is answered with STATUS 5. -/
theorem exec_opCopy_brown :
    exec (.opCopy .hsp 0 16 false 0 0 0) brownIdle =
      .next (respond .hsp copyRequest 5 [] (raise .mode 2 (accepted .hsp copyRequest brownIdle))) :=
  congrArg Host.Outcome.next ((runRequest_idle brownIdle_idlePort (same := sameOp 3 copyRequest) rfl (opStart .hsp)).trans
    (opStart_barred rfl))

/-- Refutes O56: in M2 an OPSTART of a mailbox that does not exist is answered with STATUS 5 of the mode (R394), while its first
clause asks STATUS 3 in every mode. -/
theorem not_operationsStartAndComplete : ¬ Obligations.OperationsStartAndComplete := by
  rintro ⟨hstart, -⟩
  obtain ⟨hrows, -⟩ := hstart brownIdle .hsp 0 0 false 0 0 0 16 brownIdle_idlePort
  obtain ⟨hbad, -⟩ := hrows (1, (0, 0, 0, 0), .opCopy .hsp 0 16 false 0 0 0) copyRequest (.head _) rfl
  obtain ⟨t, ht, hthree, -, -⟩ := hbad (.inl (by decide))
  obtain rfl := Host.Outcome.next.inj (exec_opCopy_brown.symm.trans ht)
  obtain ⟨hfive, -, -⟩ := answered_after_raise brownIdle_idlePort copyRequest 5 [] .mode (k := 2) (by decide)
  have hout := (hfive.2.1 rfl).symm.trans (hthree.2.1 rfl)
  have hreply := List.head_eq_of_cons_eq (List.append_cancel_left hout)
  exact absurd (reply_status_inj hreply) (by decide)

end Sys2Proof.Machine
end

section
/-! PROOFS. The result mailboxes (O57; R357, R358). -/

namespace Sys2Proof.Machine

/-! ### The status word (R358) -/

/-- Bits of the lowest place of a number. -/
theorem b2n_le (b : Bool) : b2n b ≤ 1 := by cases b <;> decide

/-- The status word as a number. -/
theorem mboxWord_toNat (x : Mailbox) : (mboxWord x).toNat = x.seq.toNat * 65536 + x.op.toNat * 256 + x.status.toNat * 16 +
    b2n x.running.isSome * 4 + b2n x.readMark * 2 + b2n (x.posted && x.running.isNone) := by
  have hseq := x.seq.isLt
  have hop := x.op.isLt
  have hstatus := x.status.isLt
  have h2 := b2n_le x.running.isSome
  have h1 := b2n_le x.readMark
  have h0 := b2n_le (x.posted && x.running.isNone)
  simp only [mboxWord, pack, wd, List.foldl_cons, List.foldl_nil, BitVec.toNat_ofNat]
  omega

/-- A bit as a number. -/
theorem testBit_eq_of_mod {n k : Nat} {b : Bool} (h : n / 2 ^ k % 2 = b2n b) : n.testBit k = b := by
  rw [Nat.testBit_eq_decide_div_mod_eq, h]
  cases b <;> rfl

/-- Sequence number and flags of the status word. -/
theorem mboxWord_fields (x : Mailbox) : (mboxWord x).toNat / 65536 = x.seq.toNat ∧ bit (mboxWord x) 1 = x.readMark ∧
    bit (mboxWord x) 0 = (x.posted && x.running.isNone) ∧ bit (mboxWord x) 2 = x.running.isSome := by
  have hop := x.op.isLt
  have hstatus := x.status.isLt
  have h2 := b2n_le x.running.isSome
  have h1 := b2n_le x.readMark
  have h0 := b2n_le (x.posted && x.running.isNone)
  have hn := mboxWord_toNat x
  refine ⟨by omega, testBit_eq_of_mod ?_, testBit_eq_of_mod ?_, testBit_eq_of_mod ?_⟩
  · omega
  · omega
  · omega

/-! ### The mailboxes -/

section
variable {k j : Fin 16} {s t : State}

/-- A mailbox that is changed. -/
theorem mboxOf_modMbox_self (k : Fin 16) (f : Mailbox → Mailbox) (s : State) :
    Claim.mboxOf k (modMbox k f s) = f (Claim.mboxOf k s) := modAt_getElem_self _ k f

/-- The others stay. -/
theorem mboxOf_modMbox_other (h : j ≠ k) (f : Mailbox → Mailbox) (s : State) :
    Claim.mboxOf j (modMbox k f s) = Claim.mboxOf j s := modAt_getElem_other _ k j f h

/-- The mailboxes of one host block are the same. -/
theorem mboxOf_of_mbox (h : t.host.mbox = s.host.mbox) (k : Fin 16) : Claim.mboxOf k t = Claim.mboxOf k s := by
  rw [Claim.mboxOf, h, Claim.mboxOf]

/-- A change of a mailbox changes the host block only. -/
theorem modMbox_host (k : Fin 16) (f : Mailbox → Mailbox) (s : State) : Frame [.host] s (modMbox k f s) := by
  intro part hpart
  by_cases hb : part = .board
  · subst hb
    exact ⟨rfl, rfl, rfl, rfl⟩
  · exact modMbox_only k f s part (by simp_all)

/-- A change of a port leaves the mailboxes. -/
theorem mbox_modHostPort (p : HostPort) (f : HostPortState → HostPortState) (s : State) :
    (modHostPort p f s).host.mbox = s.host.mbox := by cases p <;> rfl

/-- So do frames that leave. -/
theorem flushNet_rest (s : State) : (flushNet s).host.mbox = s.host.mbox ∧ (flushNet s).host.bolts = s.host.bolts ∧
    (flushNet s).host.seq = s.host.seq := by
  unfold flushNet
  split
  · have hh := host_sendNets s.host.net.out s
    have hmbox := congrArg HostState.mbox hh
    have hbolts := congrArg HostState.bolts hh
    have hseq := congrArg HostState.seq hh
    exact ⟨hmbox, hbolts, hseq⟩
  · exact ⟨rfl, rfl, rfl⟩

/-- A response leaves the mailboxes, the deadbolts and the number of the last result. -/
theorem reply_rest (p : HostPort) (r : HostRequest) (status : Nat) (payload : List Byte) (s : State) :
    (reply p r status payload s).host.mbox = s.host.mbox ∧ (reply p r status payload s).host.bolts = s.host.bolts ∧
      (reply p r status payload s).host.seq = s.host.seq := by
  cases p
  · exact ⟨rfl, rfl, rfl⟩
  · exact flushNet_rest _

/-- So does one to the head of a queue. -/
theorem respond_rest (p : HostPort) (r : HostRequest) (status : Nat) (payload : List Byte) (s : State) :
    (respond p r status payload s).host.mbox = s.host.mbox ∧ (respond p r status payload s).host.bolts = s.host.bolts ∧
      (respond p r status payload s).host.seq = s.host.seq := by
  have hr := reply_rest p r status payload (modHostPort p (fun x => { x with queue := x.queue.drop 1 }) s)
  cases p
  · exact hr
  · exact hr

/-- A mailbox is no part of a port. -/
theorem hostPort_modMbox (p : HostPort) (k : Fin 16) (f : Mailbox → Mailbox) (s : State) :
    hostPort p (modMbox k f s) = hostPort p s := by cases p <;> rfl

/-- What leaves its port leaves a request. -/
theorem Asked.of_port {p : HostPort} {r : HostRequest} {u : State} (h : Asked p r s t) (hu : hostPort p u = hostPort p t) :
    Asked p r s u :=
  ⟨(congrArg HostPortState.queue hu).trans h.queue, (congrArg HostPortState.out hu).trans h.out⟩

/-- A request that is accepted leaves the host block's other fields. -/
theorem mbox_accepted (p : HostPort) (r : HostRequest) (s : State) : (accepted p r s).host.mbox = s.host.mbox :=
  mbox_modHostPort p _ s

end

/-! ### RESULT (R358) -/

section
variable {p : HostPort} {s : State}

/-- The request of a RESULT. -/
def resultRequest (tag : Half) (mb : Word) : HostRequest := { tag := tag, cmd := 0x21, payload := ofWords [mb] }

/-- A RESULT on an idle port. -/
theorem execResult_idle (hp : Claim.idlePort p s) (tag : Half) (mb : Word) :
    exec (.result p tag mb) s = .next (resultCmd p (resultRequest tag mb) (accepted p (resultRequest tag mb) s)) :=
  congrArg Host.Outcome.next (runRequest_idle hp (sameRequest_self (resultRequest tag mb)) (resultCmd p))

/-- A mailbox that does not exist. -/
theorem resultCmd_unknown {mb : Word} (h : 15 < mb.toNat) (tag : Half) (v : State) :
    resultCmd p (resultRequest tag mb) v = respond p (resultRequest tag mb) 3 [] v := by
  refine if_pos ?_
  rw [resultRequest, u32_ofWords_zero]
  exact h

/-- What a mailbox answers: its words, and the mark that it is read. -/
def resultRead (p : HostPort) (h : HostRequest) (k : Fin 16) (v : State) : State :=
  respond p h 0 (ofWords (mboxWord (Claim.mboxOf k v) :: (Claim.mboxOf k v).res.toList)) (markRead k v)

/-- A mailbox answers with its words, and is marked as read. -/
theorem resultCmd_known {mb : Word} {k : Fin 16} (h : mb.toNat = k.val) (tag : Half) (v : State) :
    resultCmd p (resultRequest tag mb) v = resultRead p (resultRequest tag mb) k v := by
  have hmb : u32 (resultRequest tag mb).payload 0 = k.val := (u32_ofWords_zero mb []).trans h
  have hk : Fin.ofNat 16 (u32 (resultRequest tag mb).payload 0) = k := by rw [hmb, Fin.ofNat_val_eq_self]
  have he : resultCmd p (resultRequest tag mb) v =
      resultRead p (resultRequest tag mb) (Fin.ofNat 16 (u32 (resultRequest tag mb).payload 0)) v :=
    if_neg (by rw [hmb]; exact Nat.not_lt.mpr (Nat.le_of_lt_succ k.isLt))
  rw [he, hk]

/-- The mark of a mailbox changes nothing else of it, and no other one. -/
theorem markRead_mboxOf (k : Fin 16) (v : State) :
    Claim.mboxOf k (markRead k v) = { Claim.mboxOf k v with readMark := (Claim.mboxOf k v).posted } ∧
      ∀ j : Fin 16, j ≠ k → Claim.mboxOf j (markRead k v) = Claim.mboxOf j v :=
  ⟨mboxOf_modMbox_self k _ v, fun _ hj => mboxOf_modMbox_other hj _ v⟩

end

/-- The words of the results are latched as HCP_MBSTAT is read. -/
def resLatched (k : Fin 16) (s : State) : State := modHost (fun h => { h with latched := (Claim.mboxOf k s).res }) s

/-- HCP_MBSTAT reads the mailbox that is selected, and marks it. -/
theorem exec_mbstatRead {s : State} {k : Fin 16} (hk : s.host.mbSel.toNat = k.val) : ∃ t, exec .mbstatRead s = .next t ∧
    t.host.latched = (Claim.mboxOf k s).res ∧ t.host.seq = s.host.seq ∧
    Claim.mboxOf k t = { Claim.mboxOf k s with readMark := (Claim.mboxOf k s).posted } ∧
    (∀ j : Fin 16, j ≠ k → Claim.mboxOf j t = Claim.mboxOf j s) ∧ Frame [.host] s t := by
  have hsel : s.host.mbSel.toFin = k := Fin.ext hk
  have he : exec .mbstatRead s = .next (markRead s.host.mbSel.toFin (resLatched s.host.mbSel.toFin s)) := rfl
  rw [hsel] at he
  have hlatch : Frame [.host] s (resLatched k s) := by
    intro part hpart
    by_cases hb : part = .board
    · subst hb
      exact ⟨rfl, rfl, rfl, rfl⟩
    · exact modHost_only _ s part (by simp_all)
  obtain ⟨hself, hothers⟩ := markRead_mboxOf k (resLatched k s)
  exact ⟨_, he, rfl, rfl, hself, hothers, .under (modMbox_host k _ _) (by simp) hlatch⟩

/-- Settles O57: RESULT and HCP_MBSTAT read a mailbox as it stands, and set its read mark. -/
theorem resultReadsChangeOnlyTheReadMark : Obligations.ResultReadsChangeOnlyTheReadMark := by
  refine ⟨mboxWord_fields, by decide, fun s p tag mb r hp hr => ?_, fun s k hk => ?_⟩
  · subst hr
    have hask := asked_accepted hp.2.1 (resultRequest tag mb)
    refine ⟨fun h => ?_, fun k h => ?_⟩
    · exact ⟨_, (execResult_idle hp tag mb).trans (congrArg _ (resultCmd_unknown h tag _)), answered_respond hask 3 []⟩
    · have hmb := mbox_accepted p (resultRequest tag mb) s
      have he := resultCmd_known (p := p) h tag (accepted p (resultRequest tag mb) s)
      obtain ⟨hself, hothers⟩ := markRead_mboxOf k (accepted p (resultRequest tag mb) s)
      rw [resultRead, mboxOf_of_mbox hmb] at he
      rw [mboxOf_of_mbox hmb] at hself
      refine ⟨_, (execResult_idle hp tag mb).trans (congrArg _ he), answered_respond (hask.of_port ?_) 0 _, ?_, fun j hj => ?_, ?_⟩
      · exact hostPort_modMbox p k _ _
      · exact (mboxOf_of_mbox (respond_rest _ _ _ _ _).1 k).trans hself
      · exact ((mboxOf_of_mbox (respond_rest _ _ _ _ _).1 j).trans (hothers j hj)).trans (mboxOf_of_mbox hmb j)
      · refine .under (respond_host _ _ _ _ _) (by simp) (.under (modMbox_host k _ _) (by simp) ?_)
        exact (accepted_only p _ s).mono (by simp)
  · exact exec_mbstatRead hk

end Sys2Proof.Machine
end

section
/-! PROOFS. Deadbolts (O58; R353, R359; log entries 3, 4, 51). -/

namespace Sys2Proof.Machine

/-! ### What leaves the queues of a port -/

/-- Both queues of a port are what they were. -/
structure QueuesKept (p : HostPort) (s t : State) : Prop where
  queue : (hostPort p t).queue = (hostPort p s).queue
  out : (hostPort p t).out = (hostPort p s).out

section
variable {p : HostPort} {r : HostRequest} {s t u : State}

/-- One change after another. -/
theorem QueuesKept.trans (h : QueuesKept p s t) (k : QueuesKept p t u) : QueuesKept p s u :=
  ⟨k.queue.trans h.queue, k.out.trans h.out⟩

/-- A port that is the same. -/
theorem QueuesKept.of_port (h : hostPort p t = hostPort p s) : QueuesKept p s t :=
  ⟨congrArg HostPortState.queue h, congrArg HostPortState.out h⟩

/-- What leaves the host block leaves them. -/
theorem Frame.queuesKept {ps : List Part} (h : Frame ps s t) (hp : .host ∉ ps) (p : HostPort) : QueuesKept p s t := by
  have hrest : hostRest t = hostRest s := h .host hp
  have hq := congrArg (fun x : HostState => (x.hsp.queue, x.net.queue)) hrest
  have ho := congrArg (fun x : HostState => (x.hsp.out, x.net.out)) hrest
  cases p
  · exact ⟨congrArg Prod.fst hq, congrArg Prod.fst ho⟩
  · exact ⟨congrArg Prod.snd hq, congrArg Prod.snd ho⟩

/-- It leaves the mailboxes. -/
theorem Frame.mbox_eq {ps : List Part} (h : Frame ps s t) (hp : .host ∉ ps) : t.host.mbox = s.host.mbox := by
  have hrest : hostRest t = hostRest s := h .host hp
  have hmbox := congrArg HostState.mbox hrest
  exact hmbox

/-- It leaves the deadbolts. -/
theorem Frame.bolts_eq {ps : List Part} (h : Frame ps s t) (hp : .host ∉ ps) : t.host.bolts = s.host.bolts := by
  have hrest : hostRest t = hostRest s := h .host hp
  have hbolts := congrArg HostState.bolts hrest
  exact hbolts

/-- It leaves the number of the last result. -/
theorem Frame.seq_eq {ps : List Part} (h : Frame ps s t) (hp : .host ∉ ps) : t.host.seq = s.host.seq := by
  have hrest : hostRest t = hostRest s := h .host hp
  have hseq := congrArg HostState.seq hrest
  exact hseq

/-- A response that no request of the queue has waited for (R353). -/
theorem answered_reply (h : QueuesKept p s u) (r : HostRequest) (status : Nat) (payload : List Byte) :
    Claim.answered p r status payload s (reply p r status payload u) := by
  cases p with
  | hsp => exact ⟨h.queue, fun _ => congrArg (· ++ [Claim.reply r status payload]) h.out, fun hn => (by cases hn)⟩
  | net =>
    refine ⟨?_, fun hn => (by cases hn), fun _ => ?_⟩
    · exact (queue_of_portRest (portRest_queueFrame .net .net _ _)).trans h.queue
    · exact congrArg List.head? (store_of_portRest (portRest_queueFrame .net .net _ _))

/-- It raises no pennant. -/
theorem reply_host (p : HostPort) (r : HostRequest) (status : Nat) (payload : List Byte) (s : State) :
    Frame [.host, .net, .outbox] s (reply p r status payload s) := by
  cases p with
  | hsp => exact queueFrame_host .hsp _ _
  | net => exact .under (queueFrame_host .net _ _) (by simp) ((modHostPort_host (by exact fun _ => rfl) _).mono (by simp))

end

/-! ### The decision of the arbiter (R359) -/

section
variable {p : HostPort} {s : State}

/-- A deadbolt of the keyring. -/
theorem boltDecision_key (s : State) : boltDecision 0x80 s = if s.key.running.isSome then 9 else 8 := if_pos rfl

/-- A deadbolt of a mailbox. -/
theorem boltDecision_mbox (k : Fin 16) (s : State) : boltDecision (BitVec.ofNat 8 k.val) s =
    if (Claim.mboxOf k s).running.isSome then 9
    else if (Claim.mboxOf k s).posted && !(Claim.mboxOf k s).readMark then 10 else 8 := by
  have hk : (BitVec.ofNat 8 k.val).toNat = k.val := Nat.mod_eq_of_lt (by omega)
  have hne : BitVec.ofNat 8 k.val ≠ 0x80 := by
    intro h
    have hn := congrArg BitVec.toNat h
    rw [hk] at hn
    have hlt := k.isLt
    change k.val = 128 at hn
    omega
  have hlt : (BitVec.ofNat 8 k.val).toNat < 16 := by rw [hk]; exact k.isLt
  have hx : s.host.mbox[(BitVec.ofNat 8 k.val).toNat]'hlt = Claim.mboxOf k s := getElem_congr_idx hk
  rw [boltDecision, if_neg hne, dif_pos hlt, hx]

/-- The request of a deadbolt. -/
def boltRequest (tag : Half) (w : Word) : HostRequest := { tag := tag, cmd := 0x22, payload := ofWords [w] }

/-- The deadbolt that waits for its target. -/
def boltOf (p : HostPort) (tag : Half) (w : Word) (s : State) : PendingBolt :=
  { target := BitVec.ofNat 8 w.toNat, port := some p, tag := tag, req := boltRequest tag w, at0 := s.now }

/-- A deadbolt on an idle port is judged at once. -/
theorem execDeadbolt_idle (hp : Claim.idlePort p s) (tag : Half) (w : Word) :
    exec (.deadbolt p tag w) s = .next (boltCmd p (boltRequest tag w) s) := by
  obtain ⟨ha, hq, -, hu, ho⟩ := hp
  refine congrArg Host.Outcome.next ?_
  change deadboltCmd p (boltRequest tag w) s = _
  rw [deadboltCmd, if_neg (by rw [ha]; exact Bool.false_ne_true), hq]
  exact if_pos (by rw [decide_eq_true hu, ho]; rfl)

/-- Targets of a deadbolt. -/
theorem boltCmd_target (tag : Half) (w : Word) : u32 (boltRequest tag w).payload 0 = w.toNat := u32_ofWords_zero w []

/-- A target that does not exist. -/
theorem boltCmd_unknown {w : Word} (hw : w ≠ 0x80) (h : 15 < w.toNat) (tag : Half) (s : State) :
    boltCmd p (boltRequest tag w) s = reply p (boltRequest tag w) 3 [] s := by
  have hne : w.toNat ≠ 0x80 := fun he => hw (BitVec.eq_of_toNat_eq he)
  refine if_pos ?_
  rw [boltCmd_target, decide_eq_true hne, decide_eq_true h]
  rfl

/-- One that does passes to the other judgements. -/
theorem boltCmd_known {w : Word} (hw : w = 0x80 ∨ w.toNat ≤ 15) (tag : Half) :
    ¬ (decide (u32 (boltRequest tag w).payload 0 ≠ 0x80) && decide (15 < u32 (boltRequest tag w).payload 0)) = true := by
  rw [boltCmd_target]
  rcases hw with rfl | hw
  · decide
  · rw [decide_eq_false (Nat.not_lt.mpr hw), Bool.and_false]
    exact Bool.false_ne_true

/-- In M2 every deadbolt is refused (R394). -/
theorem boltCmd_barred {w : Word} (hw : w = 0x80 ∨ w.toNat ≤ 15) (hm : s.md = 2) (tag : Half) :
    boltCmd p (boltRequest tag w) s = reply p (boltRequest tag w) 5 [] (raise .mode 2 s) :=
  (if_neg (boltCmd_known hw tag)).trans (if_pos hm)

/-- A master without access is refused. -/
theorem boltCmd_refused {w : Word} (hw : w = 0x80 ∨ w.toNat ≤ 15) (hm : s.md ≠ 2) (hc : codeFor s (portMaster p) 14 < 2) (tag : Half) :
    boltCmd p (boltRequest tag w) s = reply p (boltRequest tag w) 4 [] s :=
  (if_neg (boltCmd_known hw tag)).trans ((if_neg hm).trans (if_pos (by rw [decide_eq_true hc]; rfl)))

/-- What the arbiter does with a deadbolt: one that aborts waits, another is answered. -/
def boltJudged (p : HostPort) (r : HostRequest) (b : PendingBolt) (s : State) : State :=
  if boltDecision b.target s = 9 then decideBolt b s
  else reply p r (boltDecision b.target s) (ofWords [dbresWord (decideBolt b s)]) (decideBolt b s)

/-- The deadbolt of a master with access is decided. -/
theorem boltCmd_judged {w : Word} (hw : w = 0x80 ∨ w.toNat ≤ 15) (hm : s.md ≠ 2) (h2 : 2 ≤ codeFor s (portMaster p) 14)
    (h4 : codeFor s (portMaster p) 14 ≤ 4) (tag : Half) :
    boltCmd p (boltRequest tag w) s = boltJudged p (boltRequest tag w) (boltOf p tag w s) s := by
  have hacc : ¬ (decide (codeFor s (portMaster p) 14 < 2) || decide (4 < codeFor s (portMaster p) 14)) = true := by
    rw [decide_eq_false (Nat.not_lt.mpr h2), decide_eq_false (Nat.not_lt.mpr h4)]
    exact Bool.false_ne_true
  refine (if_neg (boltCmd_known hw tag)).trans ((if_neg hm).trans ((if_neg hacc).trans ?_))
  rw [boltJudged, boltOf, ← boltCmd_target tag w]
  rfl

/-! ### Its outcomes (R359) -/

/-- A target that runs is aborted: the deadbolt waits. -/
theorem boltJudged_waits {b : PendingBolt} (h : boltDecision b.target s = 9) (r : HostRequest) :
    (boltJudged p r b s).host.bolts = s.host.bolts ++ [b] ∧ (boltJudged p r b s).host.mbox = s.host.mbox ∧
      (hostPort p (boltJudged p r b s)).out = (hostPort p s).out ∧ Frame [.host] s (boltJudged p r b s) := by
  have he : boltJudged p r b s = modHost (fun x => { x with bolts := x.bolts ++ [b] }) s :=
    (if_pos h).trans (decideBolt_of_waits h)
  rw [he]
  refine ⟨rfl, rfl, ?_, fun part hpart => ?_⟩
  · cases p <;> rfl
  · by_cases hb : part = .board
    · subst hb
      exact ⟨rfl, rfl, rfl, rfl⟩
    · exact modHost_only _ s part (by simp_all)

/-- The result of a deadbolt. -/
theorem dbresWord_boltResult (target : Byte) (n : Nat) (hn : n < 16) (s : State) :
    dbresWord (boltResult target n s) = pack [(8, n), (0, target.toNat)] := by
  have hs : (BitVec.ofNat 4 n).toNat = n := Nat.mod_eq_of_lt hn
  have he : dbresWord (boltResult target n s) = pack [(8, (BitVec.ofNat 4 n).toNat), (0, target.toNat)] := rfl
  rw [he, hs]

/-- The result changes the host block only, and no queue or mailbox. -/
theorem boltResult_host (target : Byte) (n : Nat) (s : State) : Frame [.host] s (boltResult target n s) := by
  intro part hpart
  by_cases hb : part = .board
  · subst hb
    exact ⟨rfl, rfl, rfl, rfl⟩
  · exact boltResult_only target n s part (by simp_all)

/-- A target that does not run. -/
theorem boltJudged_idle {b : PendingBolt} (h : boltDecision b.target s = 8) (r : HostRequest) :
    Claim.answered p r 8 (ofWords [pack [(8, 8), (0, b.target.toNat)]]) s (boltJudged p r b s) ∧
      (boltJudged p r b s).host.mbox = s.host.mbox ∧ (boltJudged p r b s).host.bolts = s.host.bolts ∧
      Frame [.host, .net, .outbox] s (boltJudged p r b s) := by
  have hd : decideBolt b s = boltResult b.target 8 s := by
    rw [decideBolt, h]
    rfl
  have he : boltJudged p r b s = reply p r 8 (ofWords [pack [(8, 8), (0, b.target.toNat)]]) (boltResult b.target 8 s) := by
    rw [boltJudged, if_neg (by rw [h]; decide), h, hd, dbresWord_boltResult b.target 8 (by decide)]
  rw [he]
  obtain ⟨hmbox, hbolts, -⟩ := reply_rest p r 8 (ofWords [pack [(8, 8), (0, b.target.toNat)]]) (boltResult b.target 8 s)
  refine ⟨answered_reply (.of_port ?_) r 8 _, hmbox, hbolts, ?_⟩
  · cases p <;> rfl
  · exact .under (reply_host p r 8 _ _) (by simp) ((boltResult_host _ _ _).mono (by simp))

/-- A result that nobody has read wins. -/
theorem boltJudged_lost {b : PendingBolt} (h : boltDecision b.target s = 10) (r : HostRequest) :
    Claim.answered p r 10 (ofWords [pack [(8, 10), (0, b.target.toNat)]]) s (boltJudged p r b s) ∧
      Latched .hcp 5 (boltJudged p r b s) ∧ (boltJudged p r b s).host.mbox = s.host.mbox ∧
      (boltJudged p r b s).host.bolts = s.host.bolts ∧ Frame [.host, .net, .outbox, .events, .board] s (boltJudged p r b s) := by
  have hd : decideBolt b s = raise .hcp 5 (boltResult b.target 10 s) := by
    rw [decideBolt, h]
    rfl
  have hw : dbresWord (raise .hcp 5 (boltResult b.target 10 s)) = pack [(8, 10), (0, b.target.toNat)] :=
    dbresWord_boltResult b.target 10 (by decide) s
  have he : boltJudged p r b s = reply p r 10 (ofWords [pack [(8, 10), (0, b.target.toNat)]])
      (raise .hcp 5 (boltResult b.target 10 s)) := by
    rw [boltJudged, if_neg (by rw [h]; decide), h, hd, hw]
  have hraise := raise_only .hcp 5 (boltResult b.target 10 s)
  have hport : hostPort p (boltResult b.target 10 s) = hostPort p s := by cases p <;> rfl
  obtain ⟨hmbox, hbolts, -⟩ := reply_rest p r 10 (ofWords [pack [(8, 10), (0, b.target.toNat)]])
    (raise .hcp 5 (boltResult b.target 10 s))
  rw [he]
  refine ⟨answered_reply (.trans (.of_port hport) (hraise.queuesKept (by simp) p)) r 10 _, ?_, ?_, ?_, ?_⟩
  · exact (reply_host p r 10 _ _).eventsKept (by simp) .hcp 5 (latched_raise _ 5 _ (by decide))
  · exact hmbox.trans (hraise.mbox_eq (by simp))
  · exact hbolts.trans (hraise.bolts_eq (by simp))
  · refine .under (reply_host p r 10 _ _) (by simp) (.under hraise (by simp) ?_)
    exact (boltResult_host _ _ _).mono (by simp)

end

end Sys2Proof.Machine
end

section
/-! PROOFS. The end of an abort, and the deadbolts as a whole (O58; R359; log entries 3, 4). -/

namespace Sys2Proof.Machine

section
variable {p : HostPort} {s t u : State}

/-! ### The result of an operation (R357) -/

/-- A result that is posted. -/
theorem posted_postResult (k : Fin 16) (op status : Nat) (r0 r1 : Word) (s : State) :
    Claim.posted k op status r0 r1 s (postResult k op status r0 r1 s) := by
  refine ⟨?_, rfl, latched_raise _ 0 _ (by decide), fun j hj => ?_⟩
  · exact mboxOf_modMbox_self k _ _
  · exact mboxOf_modMbox_other hj _ _

/-- A result stays posted as what follows leaves the mailboxes and keeps the events. -/
theorem posted_mono {k : Fin 16} {op status : Nat} {r0 r1 : Word} (h : Claim.posted k op status r0 r1 s t)
    (hm : u.host.mbox = t.host.mbox) (hq : u.host.seq = t.host.seq) (he : EventsKept t u) : Claim.posted k op status r0 r1 s u := by
  obtain ⟨hbox, hseq, hlatch, hothers⟩ := h
  exact ⟨(mboxOf_of_mbox hm k).trans hbox, hq.trans hseq, he .hcp 0 hlatch, fun j hj => (mboxOf_of_mbox hm j).trans (hothers j hj)⟩

/-- It is posted as well from what came before. -/
theorem posted_of_before {k : Fin 16} {op status : Nat} {r0 r1 : Word} (h : Claim.posted k op status r0 r1 t u)
    (hm : t.host.mbox = s.host.mbox) (hq : t.host.seq = s.host.seq) : Claim.posted k op status r0 r1 s u := by
  obtain ⟨hbox, hseq, hlatch, hothers⟩ := h
  rw [hq] at hbox hseq
  exact ⟨hbox, hseq, hlatch, fun j hj => (hothers j hj).trans (mboxOf_of_mbox hm j)⟩

/-- A posted result leaves the queues of the ports. -/
theorem queuesKept_postResult (p : HostPort) (k : Fin 16) (op status : Nat) (r0 r1 : Word) (s : State) :
    QueuesKept p s (postResult k op status r0 r1 s) := by
  refine .trans (.of_port ?_) ((raise_only .hcp 0 _).queuesKept (by simp) p)
  cases p <;> rfl

/-! ### A deadbolt is over (R359) -/

/-- A deadbolt that waits at a port. -/
@[reducible] def portBolt (p : HostPort) (target : Byte) (tag : Half) (r : HostRequest) (q : Nat) : PendingBolt :=
  { target := target
    port := some p
    tag := tag
    req := r
    at0 := q }

/-- What a waiting deadbolt of a port is answered. -/
def boltReply (p : HostPort) (b : PendingBolt) (v : State) : State :=
  reply p b.req 9 (ofWords [pack [(8, 9), (0, b.target.toNat)]]) (raise .hcp 1 (boltResult b.target 9 v))

/-- A deadbolt of a port is answered as its target has stopped. -/
theorem boltOver_of_port {b : PendingBolt} (h : b.port = some p) (v : State) : boltOver b v = boltReply p b v := by
  have hw : dbresWord (raise .hcp 1 (boltResult b.target 9 v)) = pack [(8, 9), (0, b.target.toNat)] :=
    dbresWord_boltResult b.target 9 (by decide) v
  rw [boltOver, h]
  change reply p b.req 9 (ofWords [dbresWord (raise .hcp 1 (boltResult b.target 9 v))]) _ = _
  rw [hw]
  rfl

/-- What the end of a deadbolt leaves. -/
theorem boltReply_rest (p : HostPort) (b : PendingBolt) (v : State) :
    (boltReply p b v).host.mbox = v.host.mbox ∧ (boltReply p b v).host.bolts = v.host.bolts ∧
      (boltReply p b v).host.seq = v.host.seq := by
  obtain ⟨hmbox, hbolts, hseq⟩ := reply_rest p b.req 9 (ofWords [pack [(8, 9), (0, b.target.toNat)]])
    (raise .hcp 1 (boltResult b.target 9 v))
  have hraise := raise_only .hcp 1 (boltResult b.target 9 v)
  exact ⟨hmbox.trans (hraise.mbox_eq (by simp)), hbolts.trans (hraise.bolts_eq (by simp)), hseq.trans (hraise.seq_eq (by simp))⟩

/-- What it changes. -/
theorem boltReply_only (p : HostPort) (b : PendingBolt) (v : State) :
    Frame [.host, .net, .outbox, .events, .board] v (boltReply p b v) := by
  refine .under (reply_host p _ _ _ _) (by simp) (.under (raise_only .hcp 1 _) (by simp) ?_)
  exact (boltResult_host _ _ _).mono (by simp)

/-- It keeps the events, and raises its own. -/
theorem boltReply_events (p : HostPort) (b : PendingBolt) (v : State) :
    EventsKept v (boltReply p b v) ∧ Latched .hcp 1 (boltReply p b v) := by
  have hr := (reply_host p b.req 9 (ofWords [pack [(8, 9), (0, b.target.toNat)]])
    (raise .hcp 1 (boltResult b.target 9 v))).eventsKept (by simp)
  have hb : EventsKept v (boltResult b.target 9 v) := (boltResult_host b.target 9 v).eventsKept (by simp)
  exact ⟨(hb.trans (raise_eventsKept .hcp 1 (by decide) _)).trans hr, hr .hcp 1 (latched_raise _ 1 _ (by decide))⟩

/-- Its response. -/
theorem boltReply_answered (b : PendingBolt) {v : State} (h : QueuesKept p s v) :
    Claim.answered p b.req 9 (ofWords [pack [(8, 9), (0, b.target.toNat)]]) s (boltReply p b v) := by
  have hport : hostPort p (boltResult b.target 9 v) = hostPort p v := by cases p <;> rfl
  exact answered_reply (h.trans (.trans (.of_port hport) ((raise_only .hcp 1 _).queuesKept (by simp) p))) b.req 9 _

/-! ### The target stops (R359) -/

/-- The time at which the target of a deadbolt stops. -/
def boltStopped (b : PendingBolt) (s : State) : State :=
  elapseTo (b.at0 + Config.freeNat s.fresh % (boltLimit b.target s + 1)) (drawn s)

/-- The deadbolt is taken from the list. -/
def boltsCleared (target : Byte) (v : State) : State :=
  modHost (fun h => { h with bolts := h.bolts.filter fun x => x.target != target }) v

/-- The abort of a deadbolt's target. -/
def boltAborted (done : Nat) (b : PendingBolt) (v : State) : State :=
  if b.target = 0x80 then abortKey v else abortOp (Fin.ofNat 16 b.target.toNat) done v

/-- The one deadbolt that waits is over as its target stops. -/
theorem deadboltAbort_single {b : PendingBolt} (h : s.host.bolts = [b]) (hp : b.port = some p) (done : Nat)
    (hb : (boltAborted done b (boltStopped b s)).host.bolts = [b]) :
    deadboltAbort done s = boltReply p b (boltsCleared b.target (boltAborted done b (boltStopped b s))) := by
  have he : deadboltAbort done s =
      foldS ((boltAborted done b (boltStopped b s)).host.bolts.filter fun x => x.target == b.target) boltOver
        (boltsCleared b.target (boltAborted done b (boltStopped b s))) := by
    rw [deadboltAbort, h]
    rfl
  have hmine : ([b].filter fun x => x.target == b.target) = [b] := by simp
  rw [he, hb, hmine]
  exact boltOver_of_port hp _

/-- It stops no earlier than now, and within its longest time. -/
theorem boltStopped_now (b : PendingBolt) (s : State) :
    s.now ≤ (boltStopped b s).now ∧ (boltStopped b s).now ≤ max s.now (b.at0 + boltLimit b.target s) := by
  have hn : (boltStopped b s).now = max s.now (b.at0 + Config.freeNat s.fresh % (boltLimit b.target s + 1)) :=
    elapseTo_now_eq_max _ (drawn s)
  have hmod : Config.freeNat s.fresh % (boltLimit b.target s + 1) < boltLimit b.target s + 1 := Nat.mod_lt _ (Nat.succ_pos _)
  rw [hn]
  omega

/-- Time and a free value pass. -/
theorem boltStopped_only (b : PendingBolt) (s : State) : Frame [.time, .free] s (boltStopped b s) :=
  .under (elapseTo_only _ _) (by simp) ((takeFree_only s).mono (by simp))

/-- The list is empty afterwards. -/
theorem boltsCleared_single {b : PendingBolt} {v : State} (h : v.host.bolts = [b]) : (boltsCleared b.target v).host.bolts = [] := by
  change (v.host.bolts.filter fun x => x.target != b.target) = []
  rw [h]
  simp

/-- Nothing else changes. -/
theorem boltsCleared_host (target : Byte) (v : State) : Frame [.host] v (boltsCleared target v) := by
  intro part hpart
  by_cases hb : part = .board
  · subst hb
    exact ⟨rfl, rfl, rfl, rfl⟩
  · exact modHost_only _ v part (by simp_all)

/-- The longest time of the keyring's abort. -/
theorem boltLimit_key (s : State) : boltLimit 0x80 s = 8000000 := (if_pos rfl).trans rfl

/-- The target of a mailbox. -/
theorem mbox_target (k : Fin 16) : BitVec.ofNat 8 k.val ≠ 0x80 ∧ Fin.ofNat 16 (BitVec.ofNat 8 k.val).toNat = k := by
  revert k
  decide

/-- The longest time of an operation's abort. -/
theorem boltLimit_mbox {k : Fin 16} {o : RunningOp} (ho : (Claim.mboxOf k s).running = some o) (h5 : o.op = 5 ∨ o.op = 8) :
    boltLimit (BitVec.ofNat 8 k.val) s = if o.op = 8 then 20000 else 1600 := by
  obtain ⟨hne, hk⟩ := mbox_target k
  have hbox : Claim.mboxOf (Fin.ofNat 16 (BitVec.ofNat 8 k.val).toNat) s = Claim.mboxOf k s := by rw [hk]
  have hrun : s.host.mbox[Fin.ofNat 16 (BitVec.ofNat 8 k.val).toNat].running = some o := (congrArg Mailbox.running hbox).trans ho
  rw [boltLimit, if_neg hne, hrun]
  change (if decide (o.op.toNat = 7) || decide (o.op.toNat = 8) then us 50 else us 4) = _
  rcases h5 with h | h
  · rw [h]
    rfl
  · rw [h]
    rfl

/-- REC_WAIT and NET_ECHO stop at once. -/
theorem abortOp_waiting {k : Fin 16} {o : RunningOp} (ho : (Claim.mboxOf k s).running = some o) (h5 : o.op = 5 ∨ o.op = 8)
    (done : Nat) : abortOp k done s = postResult k o.op.toNat 9 0 0 s := by
  change s.host.mbox[k].running = some o at ho
  rw [abortOp, ho]
  dsimp only
  rcases h5 with h | h
  · rw [h]
    rfl
  · rw [h]
    rfl

/-- The keyring stops, and reports it. -/
theorem abortKey_effect {x : KeyRun} (h : s.key.running = some x) :
    (abortKey s).key.running = none ∧ Latched .key 4 (abortKey s) := by
  rw [abortKey, h]
  exact ⟨rfl, latched_raise _ 4 _ (by decide)⟩

/-- A deadbolt against an operation that waits. -/
theorem deadboltAbort_operation {r : HostRequest} {tag : Half} {k : Fin 16} {o : RunningOp} {q : Nat}
    (hb : s.host.bolts = [portBolt p (BitVec.ofNat 8 k.val) tag r q])
    (ho : (Claim.mboxOf k s).running = some o) (h5 : o.op = 5 ∨ o.op = 8) (done : Nat) :
    Claim.posted k o.op.toNat 9 0 0 s (deadboltAbort done s) ∧ Latched .hcp 1 (deadboltAbort done s) ∧
      (deadboltAbort done s).host.bolts = [] ∧
      Claim.answered p r 9 (ofWords [pack [(8, 9), (0, k.val)]]) s (deadboltAbort done s) ∧ s.now ≤ (deadboltAbort done s).now ∧
      (deadboltAbort done s).now ≤ max s.now (q + if o.op = 8 then 20000 else 1600) ∧
      Frame [.host, .net, .outbox, .events, .board, .time, .free] s (deadboltAbort done s) := by
  obtain ⟨hne, hk⟩ := mbox_target k
  have htarget : (BitVec.ofNat 8 k.val).toNat = k.val := Nat.mod_eq_of_lt (by omega)
  have hnow := boltStopped_now (portBolt p (BitVec.ofNat 8 k.val) tag r q) s
  rw [boltLimit_mbox ho h5] at hnow
  have hu := boltStopped_only (portBolt p (BitVec.ofNat 8 k.val) tag r q) s
  have hsingle := deadboltAbort_single hb rfl done
  generalize boltStopped (portBolt p (BitVec.ofNat 8 k.val) tag r q) s = u at *
  have hmbox : u.host.mbox = s.host.mbox := hu.mbox_eq (by simp)
  have habort : boltAborted done (portBolt p (BitVec.ofNat 8 k.val) tag r q) u =
      postResult k o.op.toNat 9 0 0 u := by
    rw [boltAborted, if_neg hne, hk]
    exact abortOp_waiting ((congrArg Mailbox.running (mboxOf_of_mbox hmbox k)).trans ho) h5 done
  have hpost := posted_postResult k o.op.toNat 9 0 0 u
  have hframe := postResult_only k o.op.toNat 9 0 0 u
  have hqueues := queuesKept_postResult p k o.op.toNat 9 0 0 u
  have hbolts : (postResult k o.op.toNat 9 0 0 u).host.bolts =
      [portBolt p (BitVec.ofNat 8 k.val) tag r q] :=
    ((raise_only .hcp 0 _).bolts_eq (by simp)).trans ((hu.bolts_eq (by simp)).trans hb)
  rw [habort] at hsingle
  rw [hsingle hbolts]
  generalize postResult k o.op.toNat 9 0 0 u = v at *
  have hc := boltsCleared_host (BitVec.ofNat 8 k.val) v
  obtain ⟨hrmbox, hrbolts, hrseq⟩ := boltReply_rest p
    (portBolt p (BitVec.ofNat 8 k.val) tag r q) (boltsCleared (BitVec.ofNat 8 k.val) v)
  obtain ⟨hevents, hlatched⟩ := boltReply_events p
    (portBolt p (BitVec.ofNat 8 k.val) tag r q) (boltsCleared (BitVec.ofNat 8 k.val) v)
  have hbf := boltReply_only p
    (portBolt p (BitVec.ofNat 8 k.val) tag r q) (boltsCleared (BitVec.ofNat 8 k.val) v)
  have hvport : hostPort p (boltsCleared (BitVec.ofNat 8 k.val) v) = hostPort p v := by cases p <;> rfl
  have hqs : QueuesKept p s (boltsCleared (BitVec.ofNat 8 k.val) v) :=
    (hu.queuesKept (by simp) p).trans (hqueues.trans (.of_port hvport))
  have hans := boltReply_answered (portBolt p (BitVec.ofNat 8 k.val) tag r q) hqs
  rw [htarget] at hans
  have htime := (hbf.now_eq (by simp)).trans ((hc.now_eq (by simp)).trans (hframe.now_eq (by simp)))
  refine ⟨?_, hlatched, hrbolts.trans (boltsCleared_single hbolts), hans, ?_, ?_, ?_⟩
  · refine posted_mono (posted_of_before hpost hmbox (hu.seq_eq (by simp))) hrmbox hrseq ?_
    exact (hc.eventsKept (by simp)).trans hevents
  · rw [htime]
    exact hnow.1
  · rw [htime]
    exact hnow.2
  · refine .comp (hu.mono (by simp)) (.comp (hframe.mono (by simp)) (.comp (hc.mono (by simp)) (hbf.mono (by simp))))

/-- A deadbolt against the keyring. -/
theorem deadboltAbort_key {r : HostRequest} {tag : Half} {x : KeyRun} {q : Nat}
    (hb : s.host.bolts = [portBolt p 0x80 tag r q]) (hx : s.key.running = some x)
    (done : Nat) :
    (deadboltAbort done s).key.running = none ∧ Latched .key 4 (deadboltAbort done s) ∧ Latched .hcp 1 (deadboltAbort done s) ∧
      (deadboltAbort done s).host.bolts = [] ∧ s.now ≤ (deadboltAbort done s).now ∧
      (deadboltAbort done s).now ≤ max s.now (q + 8000000) ∧
      Claim.answered p r 9 (ofWords [pack [(8, 9), (0, 0x80)]]) s (deadboltAbort done s) := by
  have hnow := boltStopped_now (portBolt p 0x80 tag r q) s
  rw [boltLimit_key] at hnow
  have hu := boltStopped_only (portBolt p 0x80 tag r q) s
  have hsingle := deadboltAbort_single hb rfl done
  generalize boltStopped (portBolt p 0x80 tag r q) s = u at *
  have hrun : u.key.running = some x := by rw [hu .key (by simp), hx]
  have habort : boltAborted done (portBolt p 0x80 tag r q) u = abortKey u := if_pos rfl
  obtain ⟨hnone, hkey⟩ := abortKey_effect hrun
  have hframe := abortKey_only u
  have hbolts : (abortKey u).host.bolts = [portBolt p 0x80 tag r q] :=
    (hframe.bolts_eq (by simp)).trans ((hu.bolts_eq (by simp)).trans hb)
  rw [habort] at hsingle
  rw [hsingle hbolts]
  generalize abortKey u = v at *
  have hc := boltsCleared_host 0x80 v
  obtain ⟨-, hrbolts, -⟩ := boltReply_rest p (portBolt p 0x80 tag r q) (boltsCleared 0x80 v)
  obtain ⟨hevents, hlatched⟩ := boltReply_events p
    (portBolt p 0x80 tag r q) (boltsCleared 0x80 v)
  have hbf := boltReply_only p (portBolt p 0x80 tag r q) (boltsCleared 0x80 v)
  have hvport : hostPort p (boltsCleared 0x80 v) = hostPort p v := by cases p <;> rfl
  have hqs : QueuesKept p s (boltsCleared 0x80 v) :=
    (hu.queuesKept (by simp) p).trans ((hframe.queuesKept (by simp) p).trans (.of_port hvport))
  have htime := (hbf.now_eq (by simp)).trans ((hc.now_eq (by simp)).trans (hframe.now_eq (by simp)))
  refine ⟨?_, hevents .key 4 ((hc.eventsKept (by simp)) .key 4 hkey), hlatched, hrbolts.trans (boltsCleared_single hbolts), ?_, ?_,
    boltReply_answered (portBolt p 0x80 tag r q) hqs⟩
  · rw [hbf .key (by simp), hc .key (by simp)]
    exact hnone
  · rw [htime]
    exact hnow.1
  · rw [htime]
    exact hnow.2

end

/-- Settles O58: the arbiter decides a deadbolt once. -/
theorem deadboltsAreDecidedOnce : Obligations.DeadboltsAreDecidedOnce := by
  refine ⟨fun s p tag w r hp hr => ?_, fun s done => ⟨fun hb => ?_, ?_, ?_⟩⟩
  · subst hr
    have he := execDeadbolt_idle hp tag w
    refine ⟨fun hw h => ?_, fun hw hm => ?_, fun hw hm => ⟨fun hc => ?_, fun h2 h4 => ?_⟩⟩
    · rw [boltCmd_unknown hw h] at he
      exact ⟨_, he, answered_reply (.of_port rfl) _ 3 [], (reply_rest _ _ _ _ _).2.1⟩
    · rw [boltCmd_barred hw hm] at he
      have hraise := raise_only .mode 2 s
      refine ⟨_, he, answered_reply (hraise.queuesKept (by simp) p) _ 5 [], ?_, ?_⟩
      · exact (reply_host _ _ _ _ _).eventsKept (by simp) .mode 2 (latched_raise _ 2 _ (by decide))
      · exact (reply_rest _ _ _ _ _).2.1.trans (hraise.bolts_eq (by simp))
    · rw [boltCmd_refused hw hm hc] at he
      exact ⟨_, he, answered_reply (.of_port rfl) _ 4 [], (reply_rest _ _ _ _ _).2.1⟩
    · rw [boltCmd_judged hw hm h2 h4] at he
      refine ⟨fun hk hx => ?_, fun hk hx => ?_, fun k hk => ?_⟩
      · subst hk
        obtain ⟨hbolts, -, hout, hf⟩ := boltJudged_waits (p := p) (b := boltOf p tag 0x80 s) (s := s)
          ((boltDecision_key s).trans (if_pos hx)) (boltRequest tag 0x80)
        exact ⟨_, he, hbolts, hout, hf⟩
      · subst hk
        obtain ⟨hans, -, hbolts, hf⟩ := boltJudged_idle (p := p) (b := boltOf p tag 0x80 s) (s := s)
          ((boltDecision_key s).trans (if_neg (by rw [hx]; exact Bool.false_ne_true))) (boltRequest tag 0x80)
        exact ⟨_, he, hans, hbolts, hf⟩
      · have hb : boltOf p tag w s =
            (portBolt p (BitVec.ofNat 8 k.val) tag (boltRequest tag w) s.now) := by
          rw [boltOf, hk]
        have htarget : (BitVec.ofNat 8 k.val).toNat = k.val := Nat.mod_eq_of_lt (by omega)
        have hd := boltDecision_mbox k s
        rw [hb] at he
        refine ⟨fun hx => ?_, fun hx hpost hmark => ?_, fun hx hor => ?_⟩
        · rw [if_pos hx] at hd
          exact ⟨_, he, boltJudged_waits hd _⟩
        · rw [if_neg (by rw [hx]; exact Bool.false_ne_true), if_pos (by rw [hpost, hmark]; rfl)] at hd
          have hl := boltJudged_lost (p := p) (b := (portBolt p (BitVec.ofNat 8 k.val) tag (boltRequest tag w) s.now)) hd (boltRequest tag w)
          rw [htarget] at hl
          exact ⟨_, he, hl⟩
        · rw [if_neg (by rw [hx]; exact Bool.false_ne_true), if_neg (by
            rcases hor with h | h
            · rw [h]; exact Bool.false_ne_true
            · rw [h, Bool.not_true, Bool.and_false]; exact Bool.false_ne_true)] at hd
          have hl := boltJudged_idle (p := p) (b := (portBolt p (BitVec.ofNat 8 k.val) tag (boltRequest tag w) s.now)) hd (boltRequest tag w)
          rw [htarget] at hl
          obtain ⟨hans, hmbox, -, hf⟩ := hl
          exact ⟨_, he, hans, hmbox, hf⟩
  · refine congrArg Host.Outcome.next ?_
    rw [deadboltAbort, hb]
  · intro p r tag k o q hb ho h5
    exact ⟨_, rfl, deadboltAbort_operation hb ho h5 done⟩
  · intro p r tag x q hb hx
    exact ⟨_, rfl, deadboltAbort_key hb hx done⟩

end Sys2Proof.Machine
end

section
/-! PROOFS. The repair map and the swap log (O60; R364, R367, R368, R370; log entries 3, 4, 47). -/

namespace Sys2Proof.Machine

section
variable {s : State}

/-- A swap ends no earlier than now, and within its longest time. -/
theorem swapElapse_now (from0 most : Nat) (s : State) :
    s.now ≤ (swapElapse from0 most s).now ∧ (swapElapse from0 most s).now ≤ max s.now (from0 + most) := by
  have hn : (swapElapse from0 most s).now = max s.now (from0 + Config.freeNat s.fresh % (most + 1)) :=
    elapseTo_now_eq_max _ (drawn s)
  have hmod : Config.freeNat s.fresh % (most + 1) < most + 1 := Nat.mod_lt _ (Nat.succ_pos _)
  rw [hn]
  omega

/-- The spares stand as time passes. -/
theorem wear_swapElapse (from0 most : Nat) (s : State) : (swapElapse from0 most s).wear = s.wear :=
  swapElapse_only from0 most s .wear (by simp)

/-! ### The repair map (R364) -/

/-- The repair map is in force. -/
def mapInForce (w : WearState) : WearState :=
  { w with
    written := w.repairs
    mapGen := satInc w.mapGen
    mapDirty := none }

/-- A map that has changed is written. -/
theorem mapWritten_of_dirty {t0 : Nat} (h : s.wear.mapDirty = some t0) :
    mapWritten s = modWear mapInForce (swapElapse t0 (ms 50) s) := by
  rw [mapWritten, h]
  rfl

/-- The next time of a map that was not written. -/
def mapLate (u : State) : State := raise .wear 6 (modWear (fun w => { w with mapDirty := some u.now }) u)

/-- A map that has changed can fail to be written. -/
theorem mapFail_of_dirty {t0 : Nat} (h : s.wear.mapDirty = some t0) : mapFail s = mapLate (elapseTo (t0 + ms 50) s) := by
  rw [mapFail, h]
  rfl

/-- A map that has not changed is not written. -/
theorem mapWritten_of_clean (h : s.wear.mapDirty = none) : mapWritten s = s ∧ mapFail s = s := by
  rw [mapWritten, mapFail, h]
  exact ⟨rfl, rfl⟩

/-- What MAP_FAIL leaves of the map. -/
theorem mapLate_effect (u : State) : (mapLate u).now = u.now ∧ (mapLate u).wear.mapDirty = some u.now ∧ Latched .wear 6 (mapLate u) ∧
    (mapLate u).wear.written = u.wear.written ∧ (mapLate u).wear.repairs = u.wear.repairs ∧
    Frame [.time, .wear, .events, .board] u (mapLate u) :=
  ⟨rfl, rfl, latched_raise _ 6 _ (by decide), rfl, rfl,
    .under (raise_only _ _ _) (by simp) ((modWear_only _ u).mono (by simp))⟩

/-! ### The swap log (R368) -/

/-- The log with its oldest waiting entry. -/
def entryWritten (e : SwapEntry) (rest : List SwapEntry) (w : WearState) : WearState :=
  { w with
    queue := rest
    log := (swapBytes e w.logCnt :: w.log).take 16384
    logCnt := satInc w.logCnt }

/-- The oldest entry is written, or dropped. -/
theorem swapLogWrite_of_entry (hk : s.key.running = none) {e : SwapEntry} {rest : List SwapEntry} (h : s.wear.queue = e :: rest) :
    swapLogWrite true s = modWear (entryWritten e rest) s ∧
      swapLogWrite false s = raise .wear 5 (modWear (fun w => { w with queue := rest }) s) := by
  have hr : ¬ s.key.running.isSome = true := by rw [hk]; exact Bool.false_ne_true
  rw [swapLogWrite, swapLogWrite, if_neg hr, if_neg hr, h]
  exact ⟨rfl, rfl⟩

/-- Nothing is written behind a command of the keyring, or without an entry. -/
theorem swapLogWrite_waits (h : s.key.running.isSome = true ∨ s.wear.queue = []) (room : Bool) : swapLogWrite room s = s := by
  rcases h with h | h
  · exact if_pos h
  · rw [swapLogWrite, h]
    exact ite_self s

end

/-- Settles O60: the repair map and the swap log. -/
theorem repairMapAndSwapLogAreWritten : Obligations.RepairMapAndSwapLogAreWritten := by
  intro s
  refine ⟨fun h => ?_, fun t0 h => ⟨?_, ?_⟩, fun room => ⟨fun h => ?_, fun hk e rest hq => ?_⟩⟩
  · obtain ⟨hw, hf⟩ := mapWritten_of_clean h
    exact ⟨congrArg Host.Outcome.next hw, congrArg Host.Outcome.next hf⟩
  · have hn := swapElapse_now t0 (ms 50) s
    have hw := wear_swapElapse t0 (ms 50) s
    have hf := swapElapse_only t0 (ms 50) s
    have he := mapWritten_of_dirty h
    generalize swapElapse t0 (ms 50) s = u at *
    refine ⟨_, congrArg Host.Outcome.next he, ?_, hn.1, hn.2, .under (modWear_only _ u) (by simp) (hf.mono (by simp))⟩
    exact congrArg mapInForce hw
  · have hn := elapseTo_now_eq_max (t0 + ms 50) s
    have hf := elapseTo_only (t0 + ms 50) s
    have he := mapFail_of_dirty h
    generalize elapseTo (t0 + ms 50) s = u at *
    obtain ⟨hnow, hdirty, hl, hwritten, hrepairs, hframe⟩ := mapLate_effect u
    have hwear : u.wear = s.wear := hf .wear (by simp)
    rw [hwear] at hwritten hrepairs
    refine ⟨_, congrArg Host.Outcome.next he, hnow.trans hn, ?_, hl, hwritten, hrepairs, .comp (hf.mono (by simp)) hframe⟩
    rw [hnow]
    exact hdirty
  · exact congrArg Host.Outcome.next (swapLogWrite_waits h room)
  · obtain ⟨hroom, hfull⟩ := swapLogWrite_of_entry hk hq
    cases room with
    | true =>
      refine ⟨_, congrArg Host.Outcome.next hroom, rfl, fun _ => ⟨rfl, rfl, ?_, rfl⟩, fun h => absurd h.symm Bool.false_ne_true,
        (modWear_only _ s).mono (by simp)⟩
      exact (List.length_take_le 16384 _)
    | false =>
      refine ⟨_, congrArg Host.Outcome.next hfull, rfl, fun h => absurd h Bool.false_ne_true,
        fun _ => ⟨rfl, rfl, latched_raise _ 5 _ (by decide)⟩, ?_⟩
      exact .under (raise_only _ _ _) (by simp) ((modWear_only _ s).mono (by simp))

end Sys2Proof.Machine
end

section
/-! PROOFS. Corrected errors start repairs (O59; R362, R367, R370). -/

namespace Sys2Proof.Machine

section
variable {l : Lane} {bank row ind : Nat} {s : State} {n : Fin 3}

/-! ### The log of corrected errors (R362, R370) -/

/-- The errors of the last 24 h. -/
def eccRecent (s : State) : List (Fin 3 × Nat × Nat × Nat) := s.wear.eccLog.filter fun e => decide (s.now < e.2.2.2 + secs 86400)

/-- An error is counted and logged. -/
def eccCounted (n : Fin 3) (bank row : Nat) (s : State) : State :=
  modWear (fun w => { w with
    ecc := modAt w.ecc n satInc
    eccLog := (n, bank, row, s.now) :: eccRecent s }) s

/-- More than 10 in an hour raise ECC_TREND. -/
def eccTrend (n : Fin 3) (bank row : Nat) (s : State) : State :=
  raiseIf (eccWithin n (secs 3600) s == 10) .wear 4 (eccCounted n bank row s)

/-- An event leaves the spares. -/
theorem wear_raiseIf (c : Bool) (r : EvReg) (k : Nat) (s : State) : (raiseIf c r k s).wear = s.wear := by
  cases c <;> rfl

/-- An error of shared SRAM starts no repair. -/
theorem eccCorrected_shared (bank row : Nat) (s : State) : eccCorrected none bank row s = eccTrend 2 bank row s := rfl

/-- The third error of a row of a lane does. -/
theorem eccCorrected_lane (l : Lane) (bank row : Nat) (s : State) : eccCorrected (some l) bank row s =
    if 3 ≤ rowErrors (sramNum (some l)) bank row (eccTrend (sramNum (some l)) bank row s) then
      repairRow l bank row (rowErrors (sramNum (some l)) bank row (eccTrend (sramNum (some l)) bank row s))
        (eccTrend (sramNum (some l)) bank row s)
    else eccTrend (sramNum (some l)) bank row s := rfl

/-- The log of errors after one. -/
theorem eccLog_eccTrend (n : Fin 3) (bank row : Nat) (s : State) :
    (eccTrend n bank row s).wear.eccLog = (n, bank, row, s.now) :: eccRecent s :=
  congrArg WearState.eccLog (wear_raiseIf _ .wear 4 (eccCounted n bank row s))

/-- Time stands as an error is counted. -/
theorem eccTrend_only (n : Fin 3) (bank row : Nat) (s : State) : Frame [.wear, .events, .board] s (eccTrend n bank row s) :=
  .under (raiseIf_only _ _ _ _) (by simp) ((modWear_only _ s).mono (by simp))

/-- An error of a row of the last 24 h. -/
def isRowError (n : Fin 3) (bank row now : Nat) (e : Fin 3 × Nat × Nat × Nat) : Bool :=
  e.1 = n && e.2.1 == bank && e.2.2.1 == row && decide (now < e.2.2.2 + secs 86400)

/-- The errors of a row are those of the log. -/
theorem rowErrors_eq (n : Fin 3) (bank row : Nat) (s : State) :
    rowErrors n bank row s = (s.wear.eccLog.filter (isRowError n bank row s.now)).length := rfl

/-- Older errors are no errors of a row. -/
theorem filter_eccRecent (n : Fin 3) (bank row : Nat) (s : State) :
    (eccRecent s).filter (isRowError n bank row s.now) = s.wear.eccLog.filter (isRowError n bank row s.now) := by
  rw [eccRecent, List.filter_filter]
  refine List.filter_congr fun e _ => ?_
  simp only [isRowError, Bool.and_assoc, Bool.and_self]

/-- An error joins those of its row. -/
theorem rowErrors_eccTrend (n : Fin 3) (bank row : Nat) (s : State) :
    rowErrors n bank row (eccTrend n bank row s) = rowErrors n bank row s + 1 := by
  have hnow : (eccTrend n bank row s).now = s.now := (eccTrend_only n bank row s).now_eq (by simp)
  have hnew : isRowError n bank row s.now (n, bank, row, s.now) = true := by
    rw [isRowError, secs]
    simp
  rw [rowErrors_eq, hnow, eccLog_eccTrend, List.filter_cons_of_pos hnew, filter_eccRecent, List.length_cons, rowErrors_eq]

/-- It starts no swap by itself. -/
theorem swaps_eccTrend (n : Fin 3) (bank row : Nat) (s : State) :
    (eccTrend n bank row s).wear.rowSwaps = s.wear.rowSwaps ∧ (eccTrend n bank row s).wear.bankSwaps = s.wear.bankSwaps := by
  have hw := wear_raiseIf (eccWithin n (secs 3600) s == 10) .wear 4 (eccCounted n bank row s)
  have hrows := congrArg WearState.rowSwaps hw
  have hbanks := congrArg WearState.bankSwaps hw
  exact ⟨hrows, hbanks⟩

/-! ### The repair of a row (R362, R363, R367) -/

/-- A swap of the row runs already. -/
theorem repairRow_runs (h : sramSwapRuns l bank row s = true) : repairRow l bank row ind s = s := if_pos h

/-- A spare row of the bank. -/
theorem repairRow_row (h : sramSwapRuns l bank row s = false) (ht : rowsTaken l bank s < 16) :
    repairRow l bank row ind s = modWear (fun w => { w with rowSwaps := w.rowSwaps ++ [(l, bank, row, s.now)] }) s :=
  (if_neg (by rw [h]; exact Bool.false_ne_true)).trans (if_pos ht)

/-- A spare bank. -/
theorem repairRow_bank (h : sramSwapRuns l bank row s = false) (ht : 16 ≤ rowsTaken l bank s)
    (hb : (s.wear.bankSwaps.filter fun x => x.1 = l).length < spareLeft 2 (laneNum l) s) :
    repairRow l bank row ind s = modWear (fun w => { w with bankSwaps := w.bankSwaps ++ [(l, bank, s.now)] }) s :=
  (if_neg (by rw [h]; exact Bool.false_ne_true)).trans ((if_neg (Nat.not_lt.mpr ht)).trans (if_pos hb))

/-- None is left. -/
theorem repairRow_out (h : sramSwapRuns l bank row s = false) (ht : 16 ≤ rowsTaken l bank s)
    (hb : spareLeft 2 (laneNum l) s ≤ (s.wear.bankSwaps.filter fun x => x.1 = l).length) :
    repairRow l bank row ind s = noSpare 2 (laneNum l) bank 2 ind s :=
  (if_neg (by rw [h]; exact Bool.false_ne_true)).trans ((if_neg (Nat.not_lt.mpr ht)).trans (if_neg (Nat.not_lt.mpr hb)))

/-- The first trigger that finds no spare is logged. -/
theorem noSpare_first {res lane unit trig : Nat} (h : at' s.wear.outSeen (3 * res + lane) false = false) :
    Latched .wear 2 (noSpare res lane unit trig ind s) ∧
      (noSpare res lane unit trig ind s).wear.queue.length = s.wear.queue.length + 1 ∧
      (noSpare res lane unit trig ind s).wear.rowSwaps = s.wear.rowSwaps ∧
      (noSpare res lane unit trig ind s).wear.bankSwaps = s.wear.bankSwaps ∧
      (noSpare res lane unit trig ind s).wear.ecc = s.wear.ecc := by
  have he : noSpare res lane unit trig ind s = raise .wear 2 (logSwap res lane unit 0xFF trig ind
      { s with wear := { s.wear with outSeen := put' s.wear.outSeen (3 * res + lane) true } }) :=
    if_neg (by rw [h]; exact Bool.false_ne_true)
  rw [he]
  exact ⟨latched_raise _ 2 _ (by decide), List.length_append, rfl, rfl, rfl⟩

/-- Later ones are not. -/
theorem noSpare_seen {res lane unit trig : Nat} (h : at' s.wear.outSeen (3 * res + lane) false = true) :
    noSpare res lane unit trig ind s = s := if_pos h

/-- The repair of a row counts no error. -/
theorem ecc_repairRow (l : Lane) (bank row ind : Nat) (s : State) : (repairRow l bank row ind s).wear.ecc = s.wear.ecc := by
  unfold repairRow
  split
  · rfl
  · split
    · rfl
    · split
      · rfl
      · cases h : at' s.wear.outSeen (3 * 2 + laneNum l) false
        · obtain ⟨-, -, -, -, hecc⟩ := noSpare_first (unit := bank) (trig := 2) (ind := ind) h
          exact hecc
        · rw [noSpare_seen h]

/-- It clears no event. -/
theorem repairRow_eventsKept (l : Lane) (bank row ind : Nat) (s : State) : EventsKept s (repairRow l bank row ind s) := by
  unfold repairRow
  split
  · exact fun _ _ hk => hk
  · split
    · exact (modWear_only _ s).eventsKept (by simp)
    · split
      · exact (modWear_only _ s).eventsKept (by simp)
      · exact noSpare_eventsKept _ _ _ _ _ s

/-! ### A corrected error as a whole -/

/-- The counts, the trend and the events after a corrected error. -/
theorem eccCorrected_counts (wh : Option Lane) (bank row : Nat) (s : State) :
    (eccCorrected wh bank row s).wear.ecc = modAt s.wear.ecc (sramNum wh) satInc ∧
      EventsKept (eccTrend (sramNum wh) bank row s) (eccCorrected wh bank row s) := by
  have hecc : (eccTrend (sramNum wh) bank row s).wear.ecc = modAt s.wear.ecc (sramNum wh) satInc :=
    congrArg WearState.ecc (wear_raiseIf _ .wear 4 (eccCounted (sramNum wh) bank row s))
  cases wh with
  | none => exact ⟨hecc, fun _ _ hk => hk⟩
  | some l =>
    rw [eccCorrected_lane]
    split
    · exact ⟨(ecc_repairRow l bank row _ _).trans hecc, repairRow_eventsKept l bank row _ _⟩
    · exact ⟨hecc, fun _ _ hk => hk⟩

/-- A lane's error after which its row has too few for a repair, or is being repaired, starts no swap. -/
theorem eccCorrected_none {l : Lane} {bank row : Nat} {s : State}
    (h : rowErrors (sramNum (some l)) bank row s + 1 < 3 ∨ sramSwapRuns l bank row s = true) :
    eccCorrected (some l) bank row s = eccTrend (sramNum (some l)) bank row s := by
  have hw : (eccTrend (sramNum (some l)) bank row s).wear.rowSwaps = s.wear.rowSwaps ∧
      (eccTrend (sramNum (some l)) bank row s).wear.bankSwaps = s.wear.bankSwaps := swaps_eccTrend _ bank row s
  rw [eccCorrected_lane, rowErrors_eccTrend]
  rcases h with h | h
  · exact if_neg (by omega)
  · split
    · exact repairRow_runs (by rw [sramSwapRuns, hw.1, hw.2]; exact h)
    · rfl

/-- The third one of a row that is not being repaired starts its repair. -/
theorem eccCorrected_repairs {l : Lane} {bank row : Nat} {s : State} (h : 2 ≤ rowErrors (sramNum (some l)) bank row s) :
    eccCorrected (some l) bank row s =
      repairRow l bank row (rowErrors (sramNum (some l)) bank row s + 1) (eccTrend (sramNum (some l)) bank row s) := by
  rw [eccCorrected_lane, rowErrors_eccTrend]
  exact if_pos (by omega)

end

/-- What an error leaves of the spares that decide about a repair. -/
theorem spares_eccTrend (l : Lane) (n : Fin 3) (bank row : Nat) (s : State) :
    sramSwapRuns l bank row (eccTrend n bank row s) = sramSwapRuns l bank row s ∧
      rowsTaken l bank (eccTrend n bank row s) = rowsTaken l bank s ∧
      spareLeft 2 (laneNum l) (eccTrend n bank row s) = spareLeft 2 (laneNum l) s ∧
      (eccTrend n bank row s).wear.outSeen = s.wear.outSeen ∧ (eccTrend n bank row s).wear.queue = s.wear.queue := by
  have hw := wear_raiseIf (eccWithin n (secs 3600) s == 10) .wear 4 (eccCounted n bank row s)
  obtain ⟨hrows, hbanks⟩ := swaps_eccTrend n bank row s
  have hused := congrArg WearState.rowsUsed hw
  have hspares := congrArg WearState.used hw
  have hout := congrArg WearState.outSeen hw
  have hqueue := congrArg WearState.queue hw
  refine ⟨?_, ?_, ?_, hout, hqueue⟩
  · rw [sramSwapRuns, hrows, hbanks, sramSwapRuns]
  · rw [rowsTaken, hrows, eccTrend, hused]
    rfl
  · rw [spareLeft, spareUsed, eccTrend, hspares]
    rfl

/-- Corrected errors of an SRAM. -/
theorem correctedErrorsStartRepairs : Claim.CorrectedErrorsStartRepairs := by
  intro s wh bank row
  obtain ⟨hecc, hkept⟩ := eccCorrected_counts wh bank.val row s
  refine ⟨eccCorrected wh bank.val row s, rfl, ?_, fun j hj => ?_, fun h10 => ?_, fun hn => ?_, fun l hl => ?_,
    (eccCorrected_only wh bank.val row s).mono (by simp)⟩
  · rw [hecc]
    exact modAt_getElem_self _ _ _
  · rw [hecc]
    exact modAt_getElem_other _ _ _ _ hj
  · refine hkept .wear 4 ?_
    rw [eccTrend, raiseIf, if_pos (beq_iff_eq.mpr h10)]
    exact latched_raise _ 4 _ (by decide)
  · subst hn
    exact swaps_eccTrend 2 bank.val row s
  · subst hl
    obtain ⟨hrows, hbanks⟩ := swaps_eccTrend (sramNum (some l)) bank.val row s
    obtain ⟨hruns, htaken, hleft, hout, hqueue⟩ := spares_eccTrend l (sramNum (some l)) bank.val row s
    have hnow : (eccTrend (sramNum (some l)) bank.val row s).now = s.now := (eccTrend_only _ bank.val row s).now_eq (by simp)
    refine ⟨fun h => ?_, fun h2 hnr => ⟨fun ht => ?_, fun ht => ⟨fun hb => ?_, fun hb hseen => ?_⟩⟩⟩
    · rw [eccCorrected_none h]
      exact ⟨hrows, hbanks⟩
    · rw [eccCorrected_repairs h2, repairRow_row (hruns.trans hnr) (by rw [htaken]; exact ht)]
      refine ⟨?_, hbanks⟩
      change (eccTrend (sramNum (some l)) bank.val row s).wear.rowSwaps ++ [(l, bank.val, row, _)] = _
      rw [hrows, hnow]
    · rw [eccCorrected_repairs h2, repairRow_bank (hruns.trans hnr) (by rw [htaken]; exact ht) (by rw [hbanks, hleft]; exact hb)]
      refine ⟨?_, hrows⟩
      change (eccTrend (sramNum (some l)) bank.val row s).wear.bankSwaps ++ [(l, bank.val, _)] = _
      rw [hbanks, hnow]
    · rw [eccCorrected_repairs h2, repairRow_out (hruns.trans hnr) (by rw [htaken]; exact ht) (by rw [hbanks, hleft]; exact hb)]
      obtain ⟨hlatch, hlen, -, hsame, -⟩ := noSpare_first (res := 2) (lane := laneNum l) (unit := bank.val) (trig := 2)
        (ind := rowErrors (sramNum (some l)) bank.val row s + 1) (s := eccTrend (sramNum (some l)) bank.val row s)
        (by rw [hout]; exact hseen)
      exact ⟨hlatch, hlen.trans (by rw [hqueue]), hsame.trans hbanks⟩

end Sys2Proof.Machine
end

section
/-! PROOFS. Swaps take a spare (O59; R362, R364, R367, R368; log entry 4). -/

namespace Sys2Proof.Machine

section
variable {res lane unit spare trig ind : Nat} {s : State} {l : Lane}

/-! ### A swap that completes (R367, R368) -/

/-- A spare is in use. -/
def spareTaken (res lane : Nat) (s : State) : State :=
  modWear (fun w => { w with used := put' w.used (3 * res + lane) (BitVec.ofNat 16 (spareUsed res lane s + 1)) }) s

/-- The swap is logged and reported. -/
def swapReported (res lane unit spare trig ind : Nat) (s : State) : State :=
  raiseIf (spareLeft res lane (logSwap res lane unit spare trig ind (spareTaken res lane s)) == 0) .wear 1
    (raise .wear 0 (logSwap res lane unit spare trig ind (spareTaken res lane s)))

/-- What the repair map lists of it (R364). -/
def repairOf (res lane unit spare : Nat) : Repair :=
  ⟨BitVec.ofNat 8 res, BitVec.ofNat 8 lane, BitVec.ofNat 16 unit, BitVec.ofNat 8 spare⟩

/-- A swap whose resource stands in the repair map joins it. -/
theorem hingeSwap_mapped (h : res ≤ 4) : hingeSwap res lane unit spare trig ind s =
    noteRepair (repairOf res lane unit spare) (swapReported res lane unit spare trig ind s) :=
  if_pos (by rw [decide_eq_true h]; rfl)

/-- Another does not. -/
theorem hingeSwap_unmapped (h : 7 < res) : hingeSwap res lane unit spare trig ind s = swapReported res lane unit spare trig ind s :=
  if_neg (by rw [decide_eq_false (Nat.not_le.mpr (by omega)), decide_eq_false (by omega)]; exact Bool.false_ne_true)

/-- The spares after a swap that is reported. -/
theorem wear_swapReported (res lane unit spare trig ind : Nat) (s : State) :
    (swapReported res lane unit spare trig ind s).wear = (logSwap res lane unit spare trig ind (spareTaken res lane s)).wear :=
  wear_raiseIf _ .wear 1 _

/-- One spare more is in use. -/
theorem spareUsed_spareTaken (hi : 3 * res + lane < 30) (hu : spareUsed res lane s + 1 < 65536) :
    spareUsed res lane (spareTaken res lane s) = spareUsed res lane s + 1 := by
  have ht : (spareTaken res lane s).wear.used = put' s.wear.used (3 * res + lane) (BitVec.ofNat 16 (spareUsed res lane s + 1)) := rfl
  rw [spareUsed, ht, at_put _ _ _ _ hi, BitVec.toNat_ofNat, Nat.mod_eq_of_lt hu]

/-- The reports of a swap. -/
theorem swapReported_events (hi : 3 * res + lane < 30) (hu : spareUsed res lane s + 1 < 65536) :
    Latched .wear 0 (swapReported res lane unit spare trig ind s) ∧
      (spareLeft res lane s = 1 → Latched .wear 1 (swapReported res lane unit spare trig ind s)) := by
  have h0 : Latched .wear 0 (raise .wear 0 (logSwap res lane unit spare trig ind (spareTaken res lane s))) :=
    latched_raise _ 0 _ (by decide)
  refine ⟨raiseIf_eventsKept _ _ _ (by decide) _ .wear 0 h0, fun hl => ?_⟩
  have hleft : spareLeft res lane (logSwap res lane unit spare trig ind (spareTaken res lane s)) = 0 := by
    have hlog : spareUsed res lane (logSwap res lane unit spare trig ind (spareTaken res lane s)) =
        spareUsed res lane (spareTaken res lane s) := rfl
    rw [spareLeft] at hl
    rw [spareLeft, hlog, spareUsed_spareTaken hi hu]
    omega
  rw [swapReported, hleft]
  exact latched_raise _ 1 _ (by decide)

/-- A swap leaves the swaps that run, the rows in use and the errors. -/
theorem wear_hingeSwap (res lane unit spare trig ind : Nat) (s : State) :
    (hingeSwap res lane unit spare trig ind s).wear.rowSwaps = s.wear.rowSwaps ∧
      (hingeSwap res lane unit spare trig ind s).wear.bankSwaps = s.wear.bankSwaps ∧
      (hingeSwap res lane unit spare trig ind s).wear.rowsUsed = s.wear.rowsUsed ∧
      (hingeSwap res lane unit spare trig ind s).wear.queue.length = s.wear.queue.length + 1 ∧
      (hingeSwap res lane unit spare trig ind s).wear.used = (spareTaken res lane s).wear.used := by
  have hw := wear_swapReported res lane unit spare trig ind s
  have hrows := congrArg WearState.rowSwaps hw
  have hbanks := congrArg WearState.bankSwaps hw
  have hused := congrArg WearState.rowsUsed hw
  have hqueue := congrArg (fun w => w.queue.length) hw
  have hspares := congrArg WearState.used hw
  have hlen : (logSwap res lane unit spare trig ind (spareTaken res lane s)).wear.queue.length = s.wear.queue.length + 1 :=
    List.length_append
  rcases Bool.eq_false_or_eq_true (decide (res ≤ 4) || decide (res = 7)) with h | h
  · have he : hingeSwap res lane unit spare trig ind s =
        noteRepair (repairOf res lane unit spare) (swapReported res lane unit spare trig ind s) := if_pos h
    rw [he]
    exact ⟨hrows, hbanks, hused, hqueue.trans hlen, hspares⟩
  · have he : hingeSwap res lane unit spare trig ind s = swapReported res lane unit spare trig ind s :=
      if_neg (by rw [h]; exact Bool.false_ne_true)
    rw [he]
    exact ⟨hrows, hbanks, hused, hqueue.trans hlen, hspares⟩

/-- One spare more is in use after a swap. -/
theorem spareUsed_hingeSwap (hi : 3 * res + lane < 30) (hu : spareUsed res lane s + 1 < 65536) :
    spareUsed res lane (hingeSwap res lane unit spare trig ind s) = spareUsed res lane s + 1 := by
  obtain ⟨-, -, -, -, hused⟩ := wear_hingeSwap res lane unit spare trig ind s
  rw [spareUsed, hused, ← spareUsed]
  exact spareUsed_spareTaken hi hu

/-- The repair map after a swap that joins it. -/
theorem repairs_hingeSwap (h : res ≤ 4) :
    (hingeSwap res lane unit spare trig ind s).wear.repairs = s.wear.repairs ++ [repairOf res lane unit spare] ∧
      (hingeSwap res lane unit spare trig ind s).wear.mapDirty =
        some (s.wear.mapDirty.getD (hingeSwap res lane unit spare trig ind s).now) := by
  have hw := wear_swapReported res lane unit spare trig ind s
  have hrepairs := congrArg WearState.repairs hw
  have hdirty := congrArg WearState.mapDirty hw
  rw [hingeSwap_mapped h]
  refine ⟨congrArg (· ++ [repairOf res lane unit spare]) hrepairs, ?_⟩
  exact congrArg (fun m => some (m.getD (swapReported res lane unit spare trig ind s).now)) hdirty

/-- The events of a swap. -/
theorem hingeSwap_events (h : res ≤ 4 ∨ 7 < res) (hi : 3 * res + lane < 30) (hu : spareUsed res lane s + 1 < 65536) :
    Latched .wear 0 (hingeSwap res lane unit spare trig ind s) ∧
      (spareLeft res lane s = 1 → Latched .wear 1 (hingeSwap res lane unit spare trig ind s)) := by
  obtain ⟨h0, h1⟩ := swapReported_events (unit := unit) (spare := spare) (trig := trig) (ind := ind) hi hu
  rcases h with h | h
  · rw [hingeSwap_mapped h]
    exact ⟨h0, h1⟩
  · rw [hingeSwap_unmapped h]
    exact ⟨h0, h1⟩

/-- A swap that does not complete takes no spare. -/
theorem swapFailed_effect (res lane unit : Nat) (s : State) : Latched .wear 3 (swapFailed res lane unit s) ∧
    (swapFailed res lane unit s).wear.used = s.wear.used ∧ (swapFailed res lane unit s).wear.repairs = s.wear.repairs ∧
    (swapFailed res lane unit s).wear.rowSwaps = s.wear.rowSwaps ∧ (swapFailed res lane unit s).wear.bankSwaps = s.wear.bankSwaps ∧
    (swapFailed res lane unit s).wear.queue.length = s.wear.queue.length + 1 :=
  ⟨latched_raise _ 3 _ (by decide), rfl, rfl, rfl, rfl, List.length_append⟩

/-! ### Rows (R362) -/

/-- The swap of a row no longer runs. -/
def rowEnded (l : Lane) (bank row at0 : Nat) (u : State) : State :=
  modWear (fun w => { w with rowSwaps := w.rowSwaps.erase (l, bank, row, at0) }) u

/-- The row has its spare, and starts with no errors. -/
def rowRepaired (l : Lane) (bank row k : Nat) (u : State) : State :=
  modWear (fun w => { w with
    rowsUsed := sparsePut 0 w.rowsUsed (64 * laneNum l + bank) (BitVec.ofNat 16 (k + 1))
    eccLog := w.eccLog.filter fun e => !(e.1 = sramNum (some l) && e.2.1 == bank && e.2.2.1 == row) }) u

/-- The end of a row's swap in the state of its time. -/
def rowSwapped (l : Lane) (bank row at0 : Nat) (ok : Bool) (u : State) : State :=
  if !ok then swapFailed 1 (laneNum l) (bank * 256 + row) (rowEnded l bank row at0 u)
  else rowRepaired l bank row (sparseGet 0 u.wear.rowsUsed (64 * laneNum l + bank)).toNat
    (hingeSwap 1 (laneNum l) (bank * 256 + row) (sparseGet 0 u.wear.rowsUsed (64 * laneNum l + bank)).toNat 2
      (rowErrors (sramNum (some l)) bank row u) (rowEnded l bank row at0 u))

/-- The row swap that started first ends. -/
theorem rowSwapDone_eq {bank row at0 : Nat} {rest : List (Lane × Nat × Nat × Nat)} (h : s.wear.rowSwaps = (l, bank, row, at0) :: rest)
    (ok : Bool) : rowSwapDone l ok s = rowSwapped l bank row at0 ok (swapElapse at0 (us 100) s) := by
  have hf : (s.wear.rowSwaps.find? fun x => x.1 = l) = some (l, bank, row, at0) := by
    rw [h]
    exact List.find?_cons_of_pos (decide_eq_true rfl)
  rw [rowSwapDone, hf]
  rfl

/-- No errors are left of a repaired row. -/
theorem rowErrors_filter {n : Fin 3} {bank row : Nat} {u : State} {p : Fin 3 × Nat × Nat × Nat → Bool}
    (h : u.wear.eccLog = s.wear.eccLog.filter p)
    (hp : ∀ e : Fin 3 × Nat × Nat × Nat, isRowError n bank row u.now e = true → p e = false) : rowErrors n bank row u = 0 := by
  rw [rowErrors_eq, h, List.filter_filter, List.length_eq_zero_iff, List.filter_eq_nil_iff]
  intro e _
  rw [Bool.and_eq_true]
  rintro ⟨he, hpe⟩
  rw [hp e he] at hpe
  exact Bool.false_ne_true hpe

/-- A swap that fails leaves the spares. -/
theorem rowSwapped_fails {bank row at0 : Nat} {rest : List (Lane × Nat × Nat × Nat)} {u : State}
    (h : u.wear.rowSwaps = (l, bank, row, at0) :: rest) :
    (rowSwapped l bank row at0 false u).wear.rowSwaps = rest ∧ Latched .wear 3 (rowSwapped l bank row at0 false u) ∧
      (rowSwapped l bank row at0 false u).wear.used = u.wear.used ∧
      (rowSwapped l bank row at0 false u).wear.repairs = u.wear.repairs ∧
      (rowSwapped l bank row at0 false u).wear.queue.length = u.wear.queue.length + 1 := by
  have hrest : (rowEnded l bank row at0 u).wear.rowSwaps = rest := by
    change u.wear.rowSwaps.erase (l, bank, row, at0) = rest
    rw [h]
    exact List.erase_cons_head ..
  obtain ⟨hl, hused, hrepairs, hrows, -, hqueue⟩ := swapFailed_effect 1 (laneNum l) (bank * 256 + row) (rowEnded l bank row at0 u)
  have he : rowSwapped l bank row at0 false u = swapFailed 1 (laneNum l) (bank * 256 + row) (rowEnded l bank row at0 u) := rfl
  rw [he]
  exact ⟨hrows.trans hrest, hl, hused, hrepairs, hqueue⟩

/-- One that completes takes a spare row. -/
theorem rowSwapped_completes {bank row at0 : Nat} {rest : List (Lane × Nat × Nat × Nat)} {u : State}
    (h : u.wear.rowSwaps = (l, bank, row, at0) :: rest) (hu : spareUsed 1 (laneNum l) u < 768)
    (hr : (sparseGet 0 u.wear.rowsUsed (64 * laneNum l + bank)).toNat < 16) :
    (rowSwapped l bank row at0 true u).wear.rowSwaps = rest ∧ Latched .wear 0 (rowSwapped l bank row at0 true u) ∧
      spareUsed 1 (laneNum l) (rowSwapped l bank row at0 true u) = spareUsed 1 (laneNum l) u + 1 ∧
      (spareLeft 1 (laneNum l) u = 1 → Latched .wear 1 (rowSwapped l bank row at0 true u)) ∧
      sparseGet 0 (rowSwapped l bank row at0 true u).wear.rowsUsed (64 * laneNum l + bank) =
        sparseGet 0 u.wear.rowsUsed (64 * laneNum l + bank) + 1 ∧
      rowErrors (sramNum (some l)) bank row (rowSwapped l bank row at0 true u) = 0 ∧
      (rowSwapped l bank row at0 true u).wear.repairs = u.wear.repairs ++ [repairOf 1 (laneNum l) (bank * 256 + row)
        (sparseGet 0 u.wear.rowsUsed (64 * laneNum l + bank)).toNat] ∧
      (rowSwapped l bank row at0 true u).wear.mapDirty =
        some (u.wear.mapDirty.getD (rowSwapped l bank row at0 true u).now) ∧
      (rowSwapped l bank row at0 true u).wear.queue.length = u.wear.queue.length + 1 := by
  have hlane : laneNum l < 2 := by cases l <;> decide
  have hrest : (rowEnded l bank row at0 u).wear.rowSwaps = rest := by
    change u.wear.rowSwaps.erase (l, bank, row, at0) = rest
    rw [h]
    exact List.erase_cons_head ..
  generalize hk : (sparseGet 0 u.wear.rowsUsed (64 * laneNum l + bank)).toNat = k at *
  have he : rowSwapped l bank row at0 true u = rowRepaired l bank row k (hingeSwap 1 (laneNum l) (bank * 256 + row) k 2
      (rowErrors (sramNum (some l)) bank row u) (rowEnded l bank row at0 u)) := by
    rw [← hk]
    rfl
  have hue : spareUsed 1 (laneNum l) (rowEnded l bank row at0 u) + 1 < 65536 := Nat.lt_of_le_of_lt (Nat.succ_le_of_lt hu) (by decide)
  have hi : 3 * 1 + laneNum l < 30 := by omega
  obtain ⟨hrows, -, hused, hqueue, -⟩ := wear_hingeSwap 1 (laneNum l) (bank * 256 + row) k 2
    (rowErrors (sramNum (some l)) bank row u) (rowEnded l bank row at0 u)
  have hspare := spareUsed_hingeSwap (unit := bank * 256 + row) (spare := k) (trig := 2)
    (ind := rowErrors (sramNum (some l)) bank row u) hi hue
  obtain ⟨hrepairs, hdirty⟩ := repairs_hingeSwap (res := 1) (lane := laneNum l) (unit := bank * 256 + row) (spare := k) (trig := 2)
    (ind := rowErrors (sramNum (some l)) bank row u) (s := rowEnded l bank row at0 u) (by decide)
  obtain ⟨h0, h1⟩ := hingeSwap_events (res := 1) (unit := bank * 256 + row) (spare := k) (trig := 2)
    (ind := rowErrors (sramNum (some l)) bank row u) (.inl (by decide)) hi hue
  rw [he]
  generalize hingeSwap 1 (laneNum l) (bank * 256 + row) k 2 (rowErrors (sramNum (some l)) bank row u) (rowEnded l bank row at0 u) = v at *
  refine ⟨hrows.trans hrest, h0, hspare, h1, ?_, ?_, hrepairs, hdirty, hqueue⟩
  · have hne : BitVec.ofNat 16 (k + 1) ≠ 0 := by
      intro hz
      have hn := congrArg BitVec.toNat hz
      rw [BitVec.toNat_ofNat, Nat.mod_eq_of_lt (by omega)] at hn
      exact absurd hn (Nat.succ_ne_zero k)
    change sparseGet 0 (sparsePut 0 v.wear.rowsUsed (64 * laneNum l + bank) (BitVec.ofNat 16 (k + 1))) (64 * laneNum l + bank) = _
    rw [sparseGet_put_ne 0 _ _ _ hne, ← hk, BitVec.ofNat_add, BitVec.ofNat_toNat, BitVec.setWidth_eq]
    rfl
  · refine rowErrors_filter (s := v) rfl fun e hp => ?_
    rw [isRowError, Bool.and_eq_true] at hp
    rw [hp.1]
    rfl

end

end Sys2Proof.Machine
end

section
/-! PROOFS. Banks and coupler lanes, and the swaps as a whole (O59; R362, R364, R367, R368; log entry 4). -/

namespace Sys2Proof.Machine

section
variable {s u : State} {l : Lane} {bank at0 : Nat} {rest : List (Lane × Nat × Nat)}

/-! ### Banks (R362) -/

/-- The swap of a bank no longer runs. -/
def bankEnded (l : Lane) (bank at0 : Nat) (u : State) : State :=
  modWear (fun w => { w with bankSwaps := w.bankSwaps.erase (l, bank, at0) }) u

/-- Its rows start with no errors. -/
def bankRepaired (l : Lane) (bank : Nat) (u : State) : State :=
  modWear (fun w => { w with eccLog := w.eccLog.filter fun e => !(e.1 = sramNum (some l) && e.2.1 == bank) }) u

/-- The end of a bank's swap in the state of its time. -/
def bankSwapped (l : Lane) (bank at0 : Nat) (ok : Bool) (u : State) : State :=
  if !ok then swapFailed 2 (laneNum l) bank (bankEnded l bank at0 u)
  else bankRepaired l bank (hingeSwap 2 (laneNum l) bank (spareUsed 2 (laneNum l) u) 2
    (sparseGet 0 u.wear.rowsUsed (64 * laneNum l + bank)).toNat (bankEnded l bank at0 u))

/-- The bank swap that started first ends. -/
theorem bankSwapDone_eq (h : s.wear.bankSwaps = (l, bank, at0) :: rest) (ok : Bool) :
    bankSwapDone l ok s = bankSwapped l bank at0 ok (swapElapse at0 (ms 20) s) := by
  have hf : (s.wear.bankSwaps.find? fun x => x.1 = l) = some (l, bank, at0) := by
    rw [h]
    exact List.find?_cons_of_pos (decide_eq_true rfl)
  rw [bankSwapDone, hf]
  rfl

/-- The other swaps of banks. -/
theorem bankEnded_rest (h : u.wear.bankSwaps = (l, bank, at0) :: rest) : (bankEnded l bank at0 u).wear.bankSwaps = rest := by
  change u.wear.bankSwaps.erase (l, bank, at0) = rest
  rw [h]
  exact List.erase_cons_head ..

/-- A swap that fails leaves the spares. -/
theorem bankSwapped_fails (h : u.wear.bankSwaps = (l, bank, at0) :: rest) :
    (bankSwapped l bank at0 false u).wear.bankSwaps = rest ∧ Latched .wear 3 (bankSwapped l bank at0 false u) ∧
      (bankSwapped l bank at0 false u).wear.used = u.wear.used := by
  obtain ⟨hl, hused, -, -, hbanks, -⟩ := swapFailed_effect 2 (laneNum l) bank (bankEnded l bank at0 u)
  have he : bankSwapped l bank at0 false u = swapFailed 2 (laneNum l) bank (bankEnded l bank at0 u) := rfl
  rw [he]
  exact ⟨hbanks.trans (bankEnded_rest h), hl, hused⟩

/-- One that completes takes a spare bank. -/
theorem bankSwapped_completes (h : u.wear.bankSwaps = (l, bank, at0) :: rest) (hu : spareUsed 2 (laneNum l) u < 2) :
    (bankSwapped l bank at0 true u).wear.bankSwaps = rest ∧ Latched .wear 0 (bankSwapped l bank at0 true u) ∧
      spareUsed 2 (laneNum l) (bankSwapped l bank at0 true u) = spareUsed 2 (laneNum l) u + 1 ∧
      (spareLeft 2 (laneNum l) u = 1 → Latched .wear 1 (bankSwapped l bank at0 true u)) ∧
      ∀ row : Nat, rowErrors (sramNum (some l)) bank row (bankSwapped l bank at0 true u) = 0 := by
  have hlane : laneNum l < 2 := by cases l <;> decide
  have hi : 3 * 2 + laneNum l < 30 := by omega
  have hue : spareUsed 2 (laneNum l) (bankEnded l bank at0 u) + 1 < 65536 := Nat.lt_of_le_of_lt (Nat.succ_le_of_lt hu) (by decide)
  have he : bankSwapped l bank at0 true u = bankRepaired l bank (hingeSwap 2 (laneNum l) bank (spareUsed 2 (laneNum l) u) 2
    (sparseGet 0 u.wear.rowsUsed (64 * laneNum l + bank)).toNat (bankEnded l bank at0 u)) := rfl
  have hspares : spareUsed 2 (laneNum l) u = spareUsed 2 (laneNum l) (bankEnded l bank at0 u) := rfl
  have hleft : spareLeft 2 (laneNum l) u = spareLeft 2 (laneNum l) (bankEnded l bank at0 u) := rfl
  rw [he, hleft]
  generalize (sparseGet 0 u.wear.rowsUsed (64 * laneNum l + bank)).toNat = k
  obtain ⟨-, hbanks, -, -, -⟩ := wear_hingeSwap 2 (laneNum l) bank (spareUsed 2 (laneNum l) u) 2 k (bankEnded l bank at0 u)
  have hspare := spareUsed_hingeSwap (unit := bank) (spare := spareUsed 2 (laneNum l) u) (trig := 2) (ind := k) hi hue
  obtain ⟨h0, h1⟩ := hingeSwap_events (res := 2) (unit := bank) (spare := spareUsed 2 (laneNum l) u) (trig := 2) (ind := k)
    (.inl (by decide)) hi hue
  generalize hingeSwap 2 (laneNum l) bank (spareUsed 2 (laneNum l) u) 2 k (bankEnded l bank at0 u) = v at *
  refine ⟨hbanks.trans (bankEnded_rest h), h0, hspare.trans (by rw [hspares]), h1, fun row => ?_⟩
  refine rowErrors_filter (s := v) rfl fun e hp => ?_
  rw [isRowError, Bool.and_eq_true, Bool.and_eq_true] at hp
  rw [hp.1.1]
  rfl

/-- Time stands at the end of a row's swap. -/
theorem rowSwapped_now (l : Lane) (bank row at0 : Nat) (ok : Bool) (u : State) : (rowSwapped l bank row at0 ok u).now = u.now := by
  cases ok
  · exact (swapFailed_only _ _ _ _).now_eq (by simp)
  · exact (hingeSwap_only _ _ _ _ _ _ (rowEnded l bank row at0 u)).now_eq (by simp)

/-- It stands at the end of a bank's. -/
theorem bankSwapped_now (l : Lane) (bank at0 : Nat) (ok : Bool) (u : State) : (bankSwapped l bank at0 ok u).now = u.now := by
  cases ok
  · exact (swapFailed_only _ _ _ _).now_eq (by simp)
  · exact (hingeSwap_only _ _ _ _ _ _ (bankEnded l bank at0 u)).now_eq (by simp)

/-! ### Coupler lanes (R303, R362, R367) -/

variable {k : Fin 5} {errors : Nat}

/-- A lane without errors enough, or the idle spare, changes nothing. -/
theorem couplerSwap_none (h : s.fio.on = false ∨ errors < 8 ∨ (k = 4 ∧ s.fio.spareLane = false)) : couplerSwap k errors s = s := by
  refine if_pos ?_
  rcases h with h | h | ⟨rfl, h⟩
  · rw [h]
    rfl
  · rw [decide_eq_true h, Bool.or_true]
    rfl
  · rw [h, Bool.or_eq_true]
    exact .inr rfl

/-- The spare lane takes over. -/
def spareLaneOn (s : State) : State := modFio (fun f => { f with spareLane := true }) s

/-- A lane in use fails while the spare is idle. -/
theorem couplerSwap_swaps (hon : s.fio.on = true) (he : 8 ≤ errors) (hs : s.fio.spareLane = false) (hk : k.val < 4) :
    couplerSwap k errors s = swapReported 9 2 k.val 0 1 errors (spareLaneOn s) := by
  have hg : ¬ (!s.fio.on || decide (errors < 8) || (decide (k.val = 4) && !s.fio.spareLane)) = true := by
    rw [hon, decide_eq_false (Nat.not_lt.mpr he), decide_eq_false (Nat.ne_of_lt hk)]
    exact Bool.false_ne_true
  refine (if_neg hg).trans ((if_neg (by rw [hs]; exact Bool.false_ne_true)).trans ?_)
  exact hingeSwap_unmapped (by decide)

/-- A lane in use fails while the spare is as well. -/
theorem couplerSwap_out (hon : s.fio.on = true) (he : 8 ≤ errors) (hs : s.fio.spareLane = true) :
    couplerSwap k errors s = noSpare 9 2 k.val 1 errors s := by
  have hg : ¬ (!s.fio.on || decide (errors < 8) || (decide (k.val = 4) && !s.fio.spareLane)) = true := by
    rw [hon, decide_eq_false (Nat.not_lt.mpr he), hs, Bool.not_true, Bool.and_false]
    exact Bool.false_ne_true
  exact (if_neg hg).trans (if_pos hs)

/-- What a reported swap changes. -/
theorem swapReported_only (res lane unit spare trig ind : Nat) (s : State) :
    Frame [.wear, .events, .board] s (swapReported res lane unit spare trig ind s) := by
  refine .under (raiseIf_only _ _ _ _) (by simp) (.under (raise_only _ _ _) (by simp) (.under (logSwap_only _ _ _ _ _ _ _) (by simp) ?_))
  exact (modWear_only _ s).mono (by simp)

end

/-- Swaps of a lane's rows and banks, and of coupler lanes. -/
theorem hingeSwapsTakeASpare : Claim.HingeSwapsTakeASpare := by
  intro s l
  refine ⟨fun h ok => ?_, fun h ok => ?_, fun bank row at0 rest h => ?_, fun bank at0 rest h => ?_, fun k errors => ⟨fun h => ?_, ?_, ?_, ?_⟩⟩
  · refine congrArg Host.Outcome.next ?_
    rw [rowSwapDone, h]
    rfl
  · refine congrArg Host.Outcome.next ?_
    rw [bankSwapDone, h]
    rfl
  · have hn := swapElapse_now at0 (us 100) s
    have hw := wear_swapElapse at0 (us 100) s
    have hfalse := rowSwapDone_eq h false
    have htrue := rowSwapDone_eq h true
    have hof := rowSwapDone_only l false s
    have hot := rowSwapDone_only l true s
    rw [hfalse] at hof
    rw [htrue] at hot
    rw [← hw] at h
    have hnow (ok : Bool) : s.now ≤ (rowSwapped l bank row at0 ok (swapElapse at0 (us 100) s)).now ∧
        (rowSwapped l bank row at0 ok (swapElapse at0 (us 100) s)).now ≤ max s.now (at0 + us 100) := by
      rw [rowSwapped_now]
      exact swapElapse_now at0 (us 100) s
    have hused : spareUsed 1 (laneNum l) (swapElapse at0 (us 100) s) = spareUsed 1 (laneNum l) s := by rw [spareUsed, hw, spareUsed]
    have hleft : spareLeft 1 (laneNum l) (swapElapse at0 (us 100) s) = spareLeft 1 (laneNum l) s := by rw [spareLeft, hused, spareLeft]
    generalize swapElapse at0 (us 100) s = u at *
    obtain ⟨hrows, hl, hsame, hrepairs, hqueue⟩ := rowSwapped_fails h
    rw [hw] at hsame hrepairs hqueue
    refine ⟨⟨_, congrArg Host.Outcome.next hfalse, hrows, (hnow false).1, (hnow false).2, hl, hsame, hrepairs, hqueue, hof.mono (by simp)⟩, fun hu hr => ?_⟩
    · rw [← hused] at hu
      rw [← hw] at hr
      have hc := rowSwapped_completes h hu hr
      rw [hw, hused, hleft] at hc
      obtain ⟨hrows, h0, hspare, h1, htaken, hnone, hmap, hdirty, hqueue⟩ := hc
      refine ⟨_, congrArg Host.Outcome.next htrue, hrows, (hnow true).1, (hnow true).2, h0, hspare, h1, htaken, hnone, hmap, hdirty, hqueue,
        hot.mono (by simp)⟩
  · have hn := swapElapse_now at0 (ms 20) s
    have hw := wear_swapElapse at0 (ms 20) s
    have hfalse := bankSwapDone_eq h false
    have htrue := bankSwapDone_eq h true
    have hof := bankSwapDone_only l false s
    have hot := bankSwapDone_only l true s
    rw [hfalse] at hof
    rw [htrue] at hot
    rw [← hw] at h
    have hnow (ok : Bool) : s.now ≤ (bankSwapped l bank at0 ok (swapElapse at0 (ms 20) s)).now ∧
        (bankSwapped l bank at0 ok (swapElapse at0 (ms 20) s)).now ≤ max s.now (at0 + ms 20) := by
      rw [bankSwapped_now]
      exact swapElapse_now at0 (ms 20) s
    have hused : spareUsed 2 (laneNum l) (swapElapse at0 (ms 20) s) = spareUsed 2 (laneNum l) s := by rw [spareUsed, hw, spareUsed]
    have hleft : spareLeft 2 (laneNum l) (swapElapse at0 (ms 20) s) = spareLeft 2 (laneNum l) s := by rw [spareLeft, hused, spareLeft]
    generalize swapElapse at0 (ms 20) s = u at *
    obtain ⟨hbanks, hl, hsame⟩ := bankSwapped_fails h
    rw [hw] at hsame
    refine ⟨⟨_, congrArg Host.Outcome.next hfalse, hbanks, (hnow false).1, (hnow false).2, hl, hsame, hof.mono (by simp)⟩, fun hu => ?_⟩
    · rw [← hused] at hu
      have hc := bankSwapped_completes h hu
      rw [hused, hleft] at hc
      obtain ⟨hbanks, h0, hspare, h1, hnone⟩ := hc
      refine ⟨_, congrArg Host.Outcome.next htrue, hbanks, (hnow true).1, (hnow true).2, h0, hspare, h1, hnone, hot.mono (by simp)⟩
  · exact congrArg Host.Outcome.next (couplerSwap_none h)
  · intro hon he hs hu hk
    have hd := couplerSwap_swaps hon he hs hk
    have hux : spareUsed 9 2 (spareLaneOn s) = 0 := hu
    obtain ⟨h0, h1⟩ := swapReported_events (res := 9) (lane := 2) (unit := k.val) (spare := 0) (trig := 1) (ind := errors)
      (s := spareLaneOn s) (by decide) (by rw [hux]; decide)
    have hf := swapReported_only 9 2 k.val 0 1 errors (spareLaneOn s)
    have hrepairs := congrArg WearState.repairs (wear_swapReported 9 2 k.val 0 1 errors (spareLaneOn s))
    refine ⟨_, congrArg Host.Outcome.next hd, ?_, h0, h1 ?_, hrepairs, .comp ((modFio_only _ s).mono (by simp)) (hf.mono (by simp))⟩
    · exact hf .fio (by simp)
    · rw [spareLeft, hux]
      rfl
  · intro hon he hs hseen
    obtain ⟨hl, -⟩ := noSpare_first (res := 9) (lane := 2) (unit := k.val) (trig := 1) (ind := errors) (s := s) hseen
    exact ⟨_, congrArg Host.Outcome.next (couplerSwap_out hon he hs), hl, noSpare_only _ _ _ _ _ s⟩
  · intro hon he hs hseen
    exact congrArg Host.Outcome.next ((couplerSwap_out hon he hs).trans (noSpare_seen hseen))

/-- Settles O59: corrected errors and swaps. -/
theorem spareSwapsAndRepairs : Obligations.SpareSwapsAndRepairs := ⟨correctedErrorsStartRepairs, hingeSwapsTakeASpare⟩

end Sys2Proof.Machine
end
